-- ==== Sys2Proof/Word.lean ====
section
/-! DEFINITION. The word types of the GZ7256: bytes, half-words and the 32-bit registers of the register
fabric (spec/01_architecture.md R42, R44). -/

namespace Sys2Proof

/-- One byte of memory. -/
abbrev W8 := BitVec 8

/-- One half of a pair: a Crika register, an instruction half or a queue word. -/
abbrev W16 := BitVec 16

/-- One register of the register fabric, moved whole by a pair access (R44). -/
abbrev W32 := BitVec 32

/-- A word of a tag record or of a wide transfer. -/
abbrev W64 := BitVec 64

end Sys2Proof
end

