-- ==== Sys2Proof/Syntax.lean ====
section
/-! DEFINITION. The commands: one constructor per row of spec/opcode_table.json, in the table's order. A row's operands are
the register written, the unit acted on, and what the outside world supplies (a measured value, a frame, a duration).
Operand `c` is the core that makes a store or executes a word; `same` says that the command falls into the same cycle as
the competing event its rule names. -/

namespace Sys2Proof

/-- A command to the block. -/
inductive Instr where
  /-- REGISTER_WRITE (R10). -/
  | registerWrite (c : Fin 4) (b : Fin 22) (off : BitVec 16) (v : W32)
  /-- RC_READ (R10). -/
  | rcRead (c : Fin 4) (b : Fin 22) (off : BitVec 16)
  /-- CONTROL_PLANE_RESET (R13). -/
  | controlPlaneReset (cause : Fin 4)
  /-- LOST (R27). -/
  | lost (i : Fin 72)
  /-- TMB_WRAP (R29). -/
  | tmbWrap
  /-- TMB_ALARM (R34). -/
  | tmbAlarm
  /-- TIME_LO_READ (R32). -/
  | timeLoRead (r : Fin 5)
  /-- EVENT_RECORD_MATCH (R380). -/
  | eventRecordMatch (c : Fin 4) (i : Fin 72)
  /-- HS_EN_SET (R50). -/
  | hsEnSet (c : Fin 4) (n : Fin 48) (v : W32) (same : Bool)
  /-- HS_EN_CLEAR (R50). -/
  | hsEnClear (c : Fin 4) (n : Fin 48) (v : W32) (same : Bool)
  /-- HS_OFF (R50). -/
  | hsOff (c : Fin 4) (n : Fin 48) (adm : Bool) (multi : Bool) (same : Bool)
  /-- HS_CLEAR (R50). -/
  | hsClear (c : Fin 4) (n : Fin 48) (multi : Bool)
  /-- HS_ALL_OFF (R96). -/
  | hsAllOff (c : Fin 4) (same : Bool)
  /-- HS_REQUEST_QUEUED (R50). -/
  | hsRequestQueued (n : Fin 48)
  /-- HS_GRANT (R51). -/
  | hsGrant (n : Fin 48) (clampCycles : Nat)
  /-- HS_DROP (R50). -/
  | hsDrop (n : Fin 48)
  /-- ENV_STEP (R67). -/
  | envStep (n : Fin 48)
  /-- OVER_CURRENT (R59). -/
  | overCurrent (n : Fin 48) (ma : Nat) (cycles : Nat)
  /-- SHORT_CIRCUIT (R60). -/
  | shortCircuit (n : Fin 48) (ma : Nat) (oc : Bool)
  /-- THERMAL_LATCH_SET (R74). -/
  | thermalLatchSet (n : Fin 48) (tj : Int) (sc : Bool) (oc : Bool)
  /-- THERMAL_LATCH_CLEAR (R74). -/
  | thermalLatchClear (n : Fin 48) (tj : Int)
  /-- BANK_UNDER_VOLTAGE (R68). -/
  | bankUnderVoltage (b : Fin 4) (mv : Nat) (us : Nat)
  /-- BANK_RECOVER (R68). -/
  | bankRecover (b : Fin 4) (mv : Nat) (us : Nat)
  /-- RETRY_TIMER_EXPIRY (R76). -/
  | retryTimerExpiry (n : Fin 48)
  /-- HEAL_EXPIRY (R78). -/
  | healExpiry (n : Fin 48)
  /-- ENV_CFG_WRITE (R65). -/
  | envCfgWrite (c : Fin 4) (n : Fin 48) (v : W32)
  /-- ENV_COPY_DONE (R62). -/
  | envCopyDone (n : Fin 48)
  /-- UV_CFG_WRITE (R665). -/
  | uvCfgWrite (c : Fin 4) (b : Fin 4) (v : W32)
  /-- ORPHAN_EXPIRY (R84). -/
  | orphanExpiry
  /-- ORPHAN_RECLAIM (R87). -/
  | orphanReclaim (c : Fin 4)
  /-- CLAMP_BEGIN (R103). -/
  | clampBegin (n : Fin 48) (vds : Nat)
  /-- CLAMP_END (R109). -/
  | clampEnd (n : Fin 48) (cycles : Nat)
  /-- CLAMP_TIMEOUT (R105). -/
  | clampTimeout (n : Fin 48)
  /-- DIGITISER_SAMPLE (R113). -/
  | digitiserSample (t : Fin 67) (raw : Int) (tj : Int) (top : Nat)
  /-- MS_MEAN_SEND (R124). -/
  | msMeanSend (t : Fin 67)
  /-- PAD_VOLTAGE_SAMPLE (R125). -/
  | padVoltageSample (n : Fin 48) (mv : Int)
  /-- MEAS_ZERO (R120). -/
  | measZero (c : Fin 4) (t : Fin 67)
  /-- ZERO_DONE (R120). -/
  | zeroDone (t : Fin 67)
  /-- SNAP (R126). -/
  | snap (c : Fin 4)
  /-- GTRIG (R129). -/
  | gtrig (c : Fin 4) (alsoSnap : Bool)
  /-- SNAP_LATCH (R126). -/
  | snapLatch (t : Fin 67) (late : Bool)
  /-- CAPTURE_ARM (R128). -/
  | captureArm (c : Fin 4) (t : Fin 67)
  /-- CAPTURE_DISARM (R133). -/
  | captureDisarm (c : Fin 4) (t : Fin 67)
  /-- CAPTURE_TRIG (R129). -/
  | captureTrig (c : Fin 4) (t : Fin 67)
  /-- CAPTURE_BURST_WRITE (R131). -/
  | captureBurstWrite (t : Fin 67)
  /-- SETTLE_TIMEOUT (R137). -/
  | settleTimeout (n : Fin 48)
  /-- STEADY_PERIOD_CLOSE (R138). -/
  | steadyPeriodClose (n : Fin 48)
  /-- TREND_UPDATE (R142). -/
  | trendUpdate (n : Fin 48)
  /-- TR_RESET (R143). -/
  | trReset (c : Fin 4) (n : Fin 48)
  /-- TREND_LONG_WRITE (R144). -/
  | trendLongWrite (c : Fin 4) (n : Fin 48) (q : Fin 3) (v : W16)
  /-- CURVE_ENTRY_WRITE (R150). -/
  | curveEntryWrite (c : Fin 4) (i : Fin 4096) (v : W32)
  /-- ADM_REQ (R159). -/
  | admReq (c : Fin 4) (target : BitVec 11) (prio : BitVec 3) (deadline : W16)
  /-- ADM_CANCEL (R165). -/
  | admCancel (c : Fin 4) (target : BitVec 11)
  /-- ADM_RELEASE (R166). -/
  | admRelease (c : Fin 4) (x : BitVec 10)
  /-- ADM_TICK (R177). -/
  | admTick (late : Nat)
  /-- BIN_RETIRE (R169). -/
  | binRetire
  /-- DEADLINE_EXPIRY (R164). -/
  | deadlineExpiry
  /-- SITE_LIM_WRITE (R171). -/
  | siteLimWrite (c : Fin 4) (v : W32)
  /-- SITE_STALE (R171). -/
  | siteStale
  /-- SENSOR_COPY (R172). -/
  | sensorCopy (v0 : Nat) (v1 : Nat) (v2 : Nat) (v3 : Nat) (tbp : Int)
  /-- SENSOR_STALE (R172). -/
  | sensorStale
  /-- HEATER_CFG_WRITE (R188). -/
  | heaterCfgWrite (c : Fin 4) (i : Fin 16) (v : W32)
  /-- HEATER_PERIOD_START (R185). -/
  | heaterPeriodStart (i : Fin 16)
  /-- HEATER_WINDOW_END (R185). -/
  | heaterWindowEnd (i : Fin 16)
  /-- VALVE_EN_SET (R220). -/
  | valveEnSet (c : Fin 4) (n : Fin 16) (v : W32) (same : Bool)
  /-- VALVE_EN_CLEAR (R220). -/
  | valveEnClear (c : Fin 4) (n : Fin 16) (v : W32) (same : Bool)
  /-- VALVE_ON (R214). -/
  | valveOn (c : Fin 4) (n : Fin 16) (hold : W16) (multi : Bool)
  /-- VALVE_OFF (R220). -/
  | valveOff (c : Fin 4) (n : Fin 16) (multi : Bool) (same : Bool)
  /-- VALVE_CLEAR (R220). -/
  | valveClear (c : Fin 4) (n : Fin 16) (multi : Bool)
  /-- DEFER_LEAVE (R215). -/
  | deferLeave (g : Fin 4)
  /-- DEFER_TIMEOUT (R216). -/
  | deferTimeout (n : Fin 16)
  /-- VALVE_GRANT (R220). -/
  | valveGrant (n : Fin 16)
  /-- VALVE_DROP (R220). -/
  | valveDrop (n : Fin 16)
  /-- PEAK_END (R209). -/
  | peakEnd (n : Fin 16)
  /-- VALVE_CLAIM_RELEASE (R218). -/
  | valveClaimRelease (n : Fin 16)
  /-- HOLD_END (R210). -/
  | holdEnd (n : Fin 16)
  /-- DECAY_COMPLETE (R202). -/
  | decayComplete (n : Fin 16)
  /-- DECAY_TIMEOUT (R202). -/
  | decayTimeout (n : Fin 16)
  /-- GAP_END (R220). -/
  | gapEnd (n : Fin 16)
  /-- VALVE_SHORT_CIRCUIT (R225). -/
  | valveShortCircuit (n : Fin 16) (ma : Nat)
  /-- VALVE_OPEN_LOAD (R224). -/
  | valveOpenLoad (n : Fin 16) (ma : Nat) (ms : Nat)
  /-- GROUP_OVER_CURRENT (R198). -/
  | groupOverCurrent (g : Fin 4) (ma : Nat) (cycles : Nat)
  /-- GROUP_SHORT_CIRCUIT (R198). -/
  | groupShortCircuit (g : Fin 4) (ma : Nat)
  /-- GROUP_THERMAL_LATCH (R198). -/
  | groupThermalLatch (g : Fin 4) (tj : Int)
  /-- GSW_FAIL (R197). -/
  | gswFail (g : Fin 4)
  /-- GROUP_SWITCH_READY (R196). -/
  | groupSwitchReady (g : Fin 4) (gapMv : Nat)
  /-- GROUP_SWITCH_OFF (R196). -/
  | groupSwitchOff (g : Fin 4)
  /-- OFF_ALL (R235). -/
  | offAll (c : Fin 4) (g : Fin 4) (same : Bool)
  /-- GROUP_CLEAR (R227). -/
  | groupClear (c : Fin 4) (g : Fin 4)
  /-- VALVE_PROF_WRITE (R205). -/
  | valveProfWrite (c : Fin 4) (n : Fin 16) (v : W32)
  /-- PROFILE_COPY_DONE (R205). -/
  | profileCopyDone (n : Fin 16)
  /-- LAMP_EN_SET (R257). -/
  | lampEnSet (c : Fin 4) (k : Fin 3) (v : W32) (same : Bool)
  /-- LAMP_EN_CLEAR (R257). -/
  | lampEnClear (c : Fin 4) (k : Fin 3) (v : W32) (same : Bool)
  /-- LAMP_ON (R257). -/
  | lampOn (c : Fin 4) (k : Fin 3) (v3 : W16) (multi : Bool)
  /-- LAMP_OFF (R257). -/
  | lampOff (c : Fin 4) (k : Fin 3) (multi : Bool) (same : Bool)
  /-- LAMP_CLEAR (R257). -/
  | lampClear (c : Fin 4) (k : Fin 3) (multi : Bool)
  /-- SEG_CLR (R254). -/
  | segClr (c : Fin 4) (k : Fin 3) (mask : BitVec 8)
  /-- LAMP_GRANT (R257). -/
  | lampGrant (k : Fin 3)
  /-- LAMP_DROP (R257). -/
  | lampDrop (k : Fin 3)
  /-- RAMP_COMPLETE (R257). -/
  | rampComplete (k : Fin 3)
  /-- LAMP_FRAME_START (R242). -/
  | lampFrameStart (k : Fin 3) (cycles : Nat) (vOut : Nat)
  /-- SEGMENT_JUDGE (R248). -/
  | segmentJudge (k : Fin 3) (i : Fin 8) (mv : Nat)
  /-- SEG_OPEN (R249). -/
  | segOpen (k : Fin 3) (i : Fin 8) (mv : Nat) (ns : Nat)
  /-- S_SHORT (R255). -/
  | sShort (k : Fin 3) (buckMa : Nat) (ma : Nat) (us : Nat)
  /-- S_OPEN (R255). -/
  | sOpen (k : Fin 3) (ma : Nat) (us : Nat) (atLim : Bool)
  /-- STRING_SAT (R255). -/
  | stringSat (k : Fin 3) (ma : Nat) (us : Nat) (atLim : Bool)
  /-- STRING_THERMAL (R255). -/
  | stringThermal (k : Fin 3) (tj : Int)
  /-- LAMP_PER_WRITE (R241). -/
  | lampPerWrite (c : Fin 4) (per : BitVec 3)
  /-- DIM_WRITE (R247). -/
  | dimWrite (c : Fin 4) (k : Fin 3) (v : W32)
  /-- DIM_COPY_DONE (R247). -/
  | dimCopyDone (k : Fin 3)
  /-- GO (R292). -/
  | go (c : Fin 4) (k : Fin 8)
  /-- STOP (R292). -/
  | stop (c : Fin 4) (k : Fin 8)
  /-- SWAP (R290). -/
  | swap (c : Fin 4) (k : Fin 8)
  /-- ABORT (R292). -/
  | abort (c : Fin 4) (k : Fin 8) (same : Bool)
  /-- CHAIN_DISABLE (R292). -/
  | chainDisable (c : Fin 4) (k : Fin 8) (v : W32)
  /-- GLOBAL_GO (R311). -/
  | globalGo (c : Fin 4) (mask : BitVec 8)
  /-- GLOBAL_STOP (R311). -/
  | globalStop (c : Fin 4) (mask : BitVec 8)
  /-- CHAIN_FRAME_WRITE (R294). -/
  | chainFrameWrite (c : Fin 4) (k : Fin 8) (v : W32)
  /-- CHAIN_BASE_WRITE (R294). -/
  | chainBaseWrite (c : Fin 4) (k : Fin 8) (out : Bool) (i : Fin 2) (v : W32)
  /-- CHAIN_FRAME_START (R288). -/
  | chainFrameStart (k : Fin 8) (late : List Nat)
  /-- CHAIN_FRAME_END (R286). -/
  | chainFrameEnd (k : Fin 8)
  /-- RETURN_STREAM (R299). -/
  | returnStream (k : Fin 8) (start : Bool) (echo : W32) (body : List W8) (extra : Nat)
  /-- ECHO_TIMEOUT (R296). -/
  | echoTimeout (k : Fin 8)
  /-- CHAIN_GLITCH (R300). -/
  | chainGlitch (k : Fin 8)
  /-- SI_CHANGE (R314). -/
  | siChange (i : Fin 16) (mv : Int) (n : Nat)
  /-- SI_POLL (R315). -/
  | siPoll (mv : Vector Int 16)
  /-- VL3_LOW (R317). -/
  | vl3Low (mv : Nat)
  /-- DIN_CHANGE (R318). -/
  | dinChange (i : Fin 8) (level : Bool) (half : Nat) (same : Bool)
  /-- ROUTED_OFF_REPEAT (R320). -/
  | routedOffRepeat (t : Fin 67)
  /-- LIMP_PAD_CHANGE (R324). -/
  | limpPadChange (level : Bool) (ms : Nat) (same : Bool)
  /-- LMAP_WRITE (R329). -/
  | lmapWrite (c : Fin 4) (w : Fin 17) (v : W32)
  /-- COMMIT (R330). -/
  | commit (c : Fin 4) (key : W16)
  /-- RELOAD (R330). -/
  | reload (c : Fin 4) (key : W16)
  /-- LMAP_DONE (R330). -/
  | lmapDone
  /-- AIN_CONVERSION (R334). -/
  | ainConversion (i : Fin 4) (code : BitVec 12) (ma : Nat)
  /-- VSENS_ENABLE (R335). -/
  | vsensEnable (c : Fin 4) (v : W32)
  /-- VSENS_FAULT (R335). -/
  | vsensFault (ma : Nat) (us : Nat)
  /-- ADD (R349). -/
  | add (c : Fin 4) (cond : BitVec 4) (rd : BitVec 5) (ra : BitVec 5) (rb : BitVec 5)
  /-- ADDI (R349). -/
  | addi (c : Fin 4) (cond : BitVec 4) (rd : BitVec 5) (ra : BitVec 5) (i : BitVec 11)
  /-- ADC (R349). -/
  | adc (c : Fin 4) (cond : BitVec 4) (rd : BitVec 5) (ra : BitVec 5) (rb : BitVec 5)
  /-- SUB (R349). -/
  | sub (c : Fin 4) (cond : BitVec 4) (rd : BitVec 5) (ra : BitVec 5) (rb : BitVec 5)
  /-- SBC (R349). -/
  | sbc (c : Fin 4) (cond : BitVec 4) (rd : BitVec 5) (ra : BitVec 5) (rb : BitVec 5)
  /-- CMP (R349). -/
  | cmp (c : Fin 4) (cond : BitVec 4) (ra : BitVec 5) (rb : BitVec 5)
  /-- CMPI (R349). -/
  | cmpi (c : Fin 4) (cond : BitVec 4) (ra : BitVec 5) (i : BitVec 11)
  /-- AND (R349). -/
  | and (c : Fin 4) (cond : BitVec 4) (rd : BitVec 5) (ra : BitVec 5) (rb : BitVec 5)
  /-- ANDI (R349). -/
  | andi (c : Fin 4) (cond : BitVec 4) (rd : BitVec 5) (ra : BitVec 5) (i : BitVec 11)
  /-- OR (R349). -/
  | or (c : Fin 4) (cond : BitVec 4) (rd : BitVec 5) (ra : BitVec 5) (rb : BitVec 5)
  /-- ORI (R349). -/
  | ori (c : Fin 4) (cond : BitVec 4) (rd : BitVec 5) (ra : BitVec 5) (i : BitVec 11)
  /-- XOR (R349). -/
  | xor (c : Fin 4) (cond : BitVec 4) (rd : BitVec 5) (ra : BitVec 5) (rb : BitVec 5)
  /-- XORI (R349). -/
  | xori (c : Fin 4) (cond : BitVec 4) (rd : BitVec 5) (ra : BitVec 5) (i : BitVec 11)
  /-- SHL (R349). -/
  | shl (c : Fin 4) (cond : BitVec 4) (rd : BitVec 5) (ra : BitVec 5) (rb : BitVec 5)
  /-- SHLI (R349). -/
  | shli (c : Fin 4) (cond : BitVec 4) (rd : BitVec 5) (ra : BitVec 5) (q : BitVec 4)
  /-- SHR (R349). -/
  | shr (c : Fin 4) (cond : BitVec 4) (rd : BitVec 5) (ra : BitVec 5) (rb : BitVec 5)
  /-- SHRI (R349). -/
  | shri (c : Fin 4) (cond : BitVec 4) (rd : BitVec 5) (ra : BitVec 5) (q : BitVec 4)
  /-- SAR (R349). -/
  | sar (c : Fin 4) (cond : BitVec 4) (rd : BitVec 5) (ra : BitVec 5) (rb : BitVec 5)
  /-- SARI (R349). -/
  | sari (c : Fin 4) (cond : BitVec 4) (rd : BitVec 5) (ra : BitVec 5) (q : BitVec 4)
  /-- MUL (R349). -/
  | mul (c : Fin 4) (cond : BitVec 4) (rd : BitVec 5) (ra : BitVec 5) (rb : BitVec 5)
  /-- MULS (R349). -/
  | muls (c : Fin 4) (cond : BitVec 4) (rd : BitVec 5) (ra : BitVec 5) (rb : BitVec 5)
  /-- DIV (R350). -/
  | div (c : Fin 4) (cond : BitVec 4) (rd : BitVec 5) (ra : BitVec 5) (rb : BitVec 5)
  /-- DIVS (R350). -/
  | divs (c : Fin 4) (cond : BitVec 4) (rd : BitVec 5) (ra : BitVec 5) (rb : BitVec 5)
  /-- MOVI (R349). -/
  | movi (c : Fin 4) (cond : BitVec 4) (rd : BitVec 5) (i : BitVec 11)
  /-- MOVT (R349). -/
  | movt (c : Fin 4) (cond : BitVec 4) (rd : BitVec 5) (i : BitVec 5)
  /-- ADD32 (R349). -/
  | add32 (c : Fin 4) (cond : BitVec 4) (rd : BitVec 5) (ra : BitVec 5) (rb : BitVec 5)
  /-- SUB32 (R349). -/
  | sub32 (c : Fin 4) (cond : BitVec 4) (rd : BitVec 5) (ra : BitVec 5) (rb : BitVec 5)
  /-- CMP32 (R349). -/
  | cmp32 (c : Fin 4) (cond : BitVec 4) (ra : BitVec 5) (rb : BitVec 5)
  /-- MFS (R353). -/
  | mfs (c : Fin 4) (cond : BitVec 4) (rd : BitVec 5) (sel : BitVec 11)
  /-- MTS (R353). -/
  | mts (c : Fin 4) (cond : BitVec 4) (sel : BitVec 11) (ra : BitVec 5)
  /-- SEG_ATTR_COMMIT (R370). -/
  | segAttrCommit (c : Fin 4) (cond : BitVec 4) (n : Fin 8) (ra : BitVec 5)
  /-- SWI_SEND (R383). -/
  | swiSend (c : Fin 4) (cond : BitVec 4) (ra : BitVec 5)
  /-- SWI_CLR (R383). -/
  | swiClr (c : Fin 4) (cond : BitVec 4) (ra : BitVec 5)
  /-- START_CMD (R394). -/
  | startCmd (c : Fin 4) (cond : BitVec 4) (ra : BitVec 5)
  /-- EVQ_W5_READ (R382). -/
  | evqW5Read (c : Fin 4) (cond : BitVec 4) (rd : BitVec 5)
  /-- LDB (R349). -/
  | ldb (c : Fin 4) (cond : BitVec 4) (rd : BitVec 5) (ra : BitVec 5) (seg : BitVec 3) (d : BitVec 8)
  /-- LDBS (R349). -/
  | ldbs (c : Fin 4) (cond : BitVec 4) (rd : BitVec 5) (ra : BitVec 5) (seg : BitVec 3) (d : BitVec 8)
  /-- LDW (R349). -/
  | ldw (c : Fin 4) (cond : BitVec 4) (rd : BitVec 5) (ra : BitVec 5) (seg : BitVec 3) (d : BitVec 8)
  /-- LDP (R349). -/
  | ldp (c : Fin 4) (cond : BitVec 4) (rd : BitVec 5) (ra : BitVec 5) (seg : BitVec 3) (d : BitVec 8)
  /-- STB (R349). -/
  | stb (c : Fin 4) (cond : BitVec 4) (rd : BitVec 5) (ra : BitVec 5) (seg : BitVec 3) (d : BitVec 8)
  /-- STW (R349). -/
  | stw (c : Fin 4) (cond : BitVec 4) (rd : BitVec 5) (ra : BitVec 5) (seg : BitVec 3) (d : BitVec 8)
  /-- STP (R349). -/
  | stp (c : Fin 4) (cond : BitVec 4) (rd : BitVec 5) (ra : BitVec 5) (seg : BitVec 3) (d : BitVec 8)
  /-- LDW_POST (R351). -/
  | ldwPost (c : Fin 4) (cond : BitVec 4) (rd : BitVec 5) (ra : BitVec 5) (seg : BitVec 3) (d : BitVec 8)
  /-- LDP_POST (R351). -/
  | ldpPost (c : Fin 4) (cond : BitVec 4) (rd : BitVec 5) (ra : BitVec 5) (seg : BitVec 3) (d : BitVec 8)
  /-- STW_POST (R351). -/
  | stwPost (c : Fin 4) (cond : BitVec 4) (rd : BitVec 5) (ra : BitVec 5) (seg : BitVec 3) (d : BitVec 8)
  /-- STP_POST (R351). -/
  | stpPost (c : Fin 4) (cond : BitVec 4) (rd : BitVec 5) (ra : BitVec 5) (seg : BitVec 3) (d : BitVec 8)
  /-- B (R349). -/
  | b (c : Fin 4) (cond : BitVec 4) (d : BitVec 14)
  /-- CALL (R349). -/
  | call (c : Fin 4) (cond : BitVec 4) (d : BitVec 14)
  /-- JMP (R349). -/
  | jmp (c : Fin 4) (cond : BitVec 4) (ra : BitVec 5)
  /-- CALLR (R349). -/
  | callr (c : Fin 4) (cond : BitVec 4) (ra : BitVec 5)
  /-- RET (R349). -/
  | ret (c : Fin 4) (cond : BitVec 4)
  /-- REP (R358). -/
  | rep (c : Fin 4) (cond : BitVec 4)
  /-- REPEAT_ITERATION (R358). -/
  | repeatIteration (c : Fin 4)
  /-- TRAP (R349). -/
  | trap (c : Fin 4) (cond : BitVec 4) (n : BitVec 8)
  /-- RETI (R392). -/
  | reti (c : Fin 4) (cond : BitVec 4)
  /-- WAIT (R387). -/
  | wait (c : Fin 4) (cond : BitVec 4)
  /-- WAIT_RESUME (R387). -/
  | waitResume (c : Fin 4)
  /-- PAIR (R355). -/
  | pair (c : Fin 4) (cond : BitVec 4) (x : BitVec 13) (y : BitVec 13)
  /-- INTERRUPT_ENTRY (R385). -/
  | interruptEntry (c : Fin 4)
  /-- QUEUE_PUSH (R404). -/
  | queuePush (c : Fin 4) (q : Fin 32) (v : W32)
  /-- QUEUE_POP (R404). -/
  | queuePop (c : Fin 4) (q : Fin 32) (push : Option W32)
  /-- QUEUE_FLUSH (R409). -/
  | queueFlush (c : Fin 4) (q : Fin 32) (push : Option W32)
  /-- QUEUE_CFG_WRITE (R401). -/
  | queueCfgWrite (c : Fin 4) (q : Fin 32) (v : W32)
  /-- QUEUE_IDLE_TIMEOUT (R412). -/
  | queueIdleTimeout (q : Fin 32)
  /-- PMC_DUMP (R426). -/
  | pmcDump
  /-- DUMP_NOW (R427). -/
  | dumpNow (c : Fin 4)
  /-- CLEAR_ALL (R428). -/
  | clearAll (c : Fin 4)
  /-- DUMP_WRITE_DONE (R429). -/
  | dumpWriteDone
  /-- DUMP_RING_WRITE (R432). -/
  | dumpRingWrite (c : Fin 4) (base : Bool) (v : W32)
  /-- CNT_OVF (R423). -/
  | cntOvf (i : Fin 48) (same : Bool)
  /-- CYC_LO_READ (R425). -/
  | cycLoRead (r : Fin 5) (x : Fin 4) (ret : Bool)
  /-- TAG_ENABLE (R433). -/
  | tagEnable (c : Fin 4) (x : Fin 4) (v : W32)
  /-- TAG_SELECT (R433). -/
  | tagSelect (x : Fin 4)
  /-- TAG_RECORD (R434). -/
  | tagRecord (c : Fin 4)
  /-- CAN_MODE_WRITE (R443). -/
  | canModeWrite (c : Fin 4) (x : Fin 4) (v : W32)
  /-- CAN_INTEGRATED (R443). -/
  | canIntegrated (x : Fin 4)
  /-- CAN_TIMING_WRITE (R440). -/
  | canTimingWrite (c : Fin 4) (x : Fin 4) (which : Fin 3) (v : W32)
  /-- REQ (R447). -/
  | req (c : Fin 4) (x : Fin 4) (m : Fin 128)
  /-- CAN_ABORT (R450). -/
  | canAbort (c : Fin 4) (x : Fin 4) (m : Fin 128)
  /-- ABORT_ALL (R450). -/
  | abortAll (c : Fin 4) (x : Fin 4)
  /-- SNAP_OBJ (R457). -/
  | snapObj (c : Fin 4) (x : Fin 4) (m : Fin 128)
  /-- CLR (R473). -/
  | clr (c : Fin 4) (x : Fin 4) (m : Fin 128)
  /-- CAN_ARBITRATION (R448). -/
  | canArbitration (x : Fin 4) (other : Bool)
  /-- CAN_TX_SUCCESS (R449). -/
  | canTxSuccess (x : Fin 4) (delay : Nat)
  /-- CAN_FRAME_RECEIVED (R455). -/
  | canFrameReceived (x : Fin 4) (w0 : W32) (w1 : W32) (data : List W8) (us : Nat)
  /-- CAN_ERROR (R462). -/
  | canError (x : Fin 4) (ty : Fin 8) (data : Bool) (arb : Bool) (exempt : Bool) (heavy : Bool) (delay : Nat)
  /-- BUS_ON (R463). -/
  | busOn (x : Fin 4) (n : Nat)
  /-- REL (R460). -/
  | rel (c : Fin 4) (x : Fin 4) (j : Fin 2) (rseq : BitVec 8)
  /-- QUEUE_FRAME_FLUSH (R460). -/
  | queueFrameFlush (c : Fin 4) (x : Fin 4) (j : Fin 2)
  /-- FORGET (R468). -/
  | forget (c : Fin 4) (x : Fin 4)
  /-- TRX_MODE_WRITE (R485). -/
  | trxModeWrite (c : Fin 4) (x : Fin 4) (v : W32)
  /-- TRX_MODE_COMPLETE (R477). -/
  | trxModeComplete (x : Fin 4)
  /-- TXD_DOM (R478). -/
  | txdDom (x : Fin 4) (dom : Bool) (us : Nat)
  /-- VCC_UV (R478). -/
  | vccUv (x : Fin 4) (uv : Bool)
  /-- WUP (R479). -/
  | wup (x : Fin 4) (d1 : Nat) (r : Nat) (d2 : Nat) (total : Nat)
  /-- BIAS_TIMEOUT (R479). -/
  | biasTimeout (x : Fin 4) (us : Nat)
  /-- DECODED_FRAME (R480). -/
  | decodedFrame (x : Fin 4) (ok : Bool) (w0 : W32) (w1 : W32) (data : List W8)
  /-- STREAK_END (R500). -/
  | streakEnd (x : Fin 4) (i : Fin 64)
  /-- NM_ENABLE (R494). -/
  | nmEnable (c : Fin 4) (x : Fin 4) (v : W32)
  /-- NM_DISABLE (R494). -/
  | nmDisable (c : Fin 4) (x : Fin 4) (v : W32)
  /-- NEED_RISE (R494). -/
  | needRise (c : Fin 4) (x : Fin 4)
  /-- NEED_FALL (R494). -/
  | needFall (c : Fin 4) (x : Fin 4)
  /-- ONLINE (R492). -/
  | online (c : Fin 4) (x : Fin 4)
  /-- NS_CLR (R501). -/
  | nsClr (c : Fin 4) (x : Fin 4)
  /-- T_KA_EXPIRY (R494). -/
  | tKaExpiry (x : Fin 4)
  /-- KEEPALIVE_DEFERRED_SEND (R488). -/
  | keepaliveDeferredSend (x : Fin 4)
  /-- T_IDLE_EXPIRY (R494). -/
  | tIdleExpiry (x : Fin 4)
  /-- T_FW_EXPIRY (R494). -/
  | tFwExpiry (x : Fin 4)
  /-- PREP_SLEEP_STAGE1_DONE (R495). -/
  | prepSleepStage1Done (x : Fin 4)
  /-- HP_TRANSACTION_START (R518). -/
  | hpTransactionStart (sck : Bool)
  /-- HP_TRANSACTION_END (R511). -/
  | hpTransactionEnd (sdi : List Bool) (take : Bool)
  /-- HP_NOP (R512). -/
  | hpNop (seq : BitVec 8) (src : BitVec 4)
  /-- RESEND (R512). -/
  | resend (seq : BitVec 8) (src : BitVec 4)
  /-- IDENT (R512). -/
  | ident (seq : BitVec 8) (src : BitVec 4)
  /-- HP_FORGET (R512). -/
  | hpForget (seq : BitVec 8) (src : BitVec 4)
  /-- ACK_RESTART (R512). -/
  | ackRestart (seq : BitVec 8) (src : BitVec 4)
  /-- HP_FORWARD (R515). -/
  | hpForward (cmd : BitVec 8) (seq : BitVec 8) (src : BitVec 4) (payload : List W32)
  /-- HP_RESPONSE_TAKE (R516). -/
  | hpResponseTake
  /-- HP_CSN_WAKE (R523). -/
  | hpCsnWake
  /-- PLK_ENABLE (R527). -/
  | plkEnable (c : Fin 4) (v : W32)
  /-- PLK_DISABLE (R532). -/
  | plkDisable (c : Fin 4) (v : W32) (same : Bool) (tries : BitVec 5) (ago : Nat)
  /-- TX_DB (R529). -/
  | txDb (c : Fin 4)
  /-- RX_DB (R529). -/
  | rxDb (c : Fin 4)
  /-- PLK_TX_COMPLETE (R529). -/
  | plkTxComplete (res : Fin 3) (tries : BitVec 5) (ago : Nat) (opp : Fin 32) (nth : Nat) (gap : Nat)
  /-- PLK_FRAME_RECEIVED (R531). -/
  | plkFrameReceived (start : Bool) (frame : List W8) (ago : Nat)
  /-- PLCA_CHG (R525). -/
  | plcaChg (st : Bool)
  /-- MGMT_RESET (R538). -/
  | mgmtReset
  /-- SENSOR_SAMPLE (R539). -/
  | sensorSample (q : Fin 20) (x : Int) (hz : Nat) (dc : Bool)
  /-- ISO_MEASURE (R540). -/
  | isoMeasure (ohms : Nat)
  /-- WD_KICK (R541). -/
  | wdKick (c : Fin 4) (key : W16)
  /-- WD_EXPIRY (R542). -/
  | wdExpiry
  /-- WD_WARN (R542). -/
  | wdWarn
  /-- WD_HOLD_RELEASE (R545). -/
  | wdHoldRelease
  /-- DEPUTY_EVENT (R546). -/
  | deputyEvent (i : Fin 72)
  /-- LOG_FLASH_WRITE (R549). -/
  | logFlashWrite
  /-- LIFETIME_SNAPSHOT (R553). -/
  | lifetimeSnapshot
  /-- LIFE_TJ_SAMPLE (R555). -/
  | lifeTjSample
  /-- LIFE_RECOMPUTE (R556). -/
  | lifeRecompute
  /-- POST (R565). -/
  | post (c : Fin 4) (slot : Fin 32)
  /-- RSP_ACK (R566). -/
  | rspAck (c : Fin 4) (slot : BitVec 6)
  /-- CHECK_IN (R560). -/
  | checkIn
  /-- LIMP_SET (R323). -/
  | limpSet
  /-- LIMP_RELEASE (R325). -/
  | limpRelease
  /-- LOG_WRITE (R546). -/
  | logWrite
  /-- LOG_READ (R552). -/
  | logRead
  /-- LOG_FILTER (R548). -/
  | logFilter
  /-- LIFE_READ (R568). -/
  | lifeRead
  /-- TREND_READ (R553). -/
  | trendRead
  /-- TEMP_LIMIT (R539). -/
  | tempLimit
  /-- UPD_BEGIN (R559). -/
  | updBegin
  /-- UPD_WRITE (R559). -/
  | updWrite
  /-- UPD_VERIFY (R558). -/
  | updVerify
  /-- UPD_ACTIVATE (R559). -/
  | updActivate
  /-- UPD_ABORT (R559). -/
  | updAbort
  /-- UPD_DONE (R570). -/
  | updDone (fail : Bool)
  /-- KEY_REVOKE (R562). -/
  | keyRevoke
  /-- DBG_CLOSE (R564). -/
  | dbgClose
  /-- DBG_LOCK (R564). -/
  | dbgLock
  /-- TRIAL_TIMEOUT (R560). -/
  | trialTimeout
  /-- PWR_REQUEST (R576). -/
  | pwrRequest (c : Fin 4) (key : W16) (target : BitVec 2)
  /-- QTMO_TIMEOUT (R578). -/
  | qtmoTimeout
  /-- STAGE_ANSWER (R659). -/
  | stageAnswer
  /-- STAGE_TIMEOUT (R581). -/
  | stageTimeout
  /-- WAKE_REQUEST (R585). -/
  | wakeRequest (src : Fin 15)
  /-- WAKE_PAD (R588). -/
  | wakePad (ms : Nat)
  /-- RETURN_STEP_READY (R591). -/
  | returnStepReady
  /-- RETURN_STEP_TIMEOUT (R592). -/
  | returnStepTimeout
  /-- BULK_INIT_DONE (R600). -/
  | bulkInitDone
  /-- HOLD_REL (R602). -/
  | holdRel (c : Fin 4) (mask : BitVec 6)
  /-- MAINS_CHANGE (R609). -/
  | mainsChange (ok : Bool) (dc : Bool)
  /-- VBK_CHANGE (R609). -/
  | vbkChange (ok : Bool) (dv : Nat)
  /-- SOURCE_CHANGE (R609). -/
  | sourceChange
  /-- BUS_BROWN_OUT (R611). -/
  | busBrownOut
  /-- POWER_ON_RESET (R618). -/
  | powerOnReset
  /-- TRIM_LOCK (R618). -/
  | trimLock
  /-- RSTN_ASSERT (R615). -/
  | rstnAssert (us : Nat)
  /-- RSTN_RELEASE (R615). -/
  | rstnRelease (ms : Nat)
  /-- BOOT_CHECK (R619). -/
  | bootCheck (ms : Nat)
  /-- ARBITRATION_LOST (R448). -/
  | arbitrationLost (x : Fin 4)
  /-- STRING_THERMAL_LATCH_CLEAR (R257). -/
  | stringThermalLatchClear (k : Fin 3) (tj : Int)
  /-- GROUP_THERMAL_LATCH_CLEAR (R198). -/
  | groupThermalLatchClear (g : Fin 4) (tj : Int)
  /-- VALVE_QUEUE_MESSAGE (R163). -/
  | valveQueueMessage (n : Fin 16)
  /-- LAMP_QUEUE_MESSAGE (R163). -/
  | lampQueueMessage (k : Fin 3)
deriving DecidableEq, Repr

end Sys2Proof
end

