-- ==== Sys2Proof/Decode.lean ====
section
/-! DEFINITION. The table's words. The block has no instruction decoder: no row of spec/opcode_table.json gives bits
(every `fields` is empty), so no word spells a command. The words of Crika v2, which the spec gives as encodings of its
own (spec/10_crika_isa.md R343 to R345), are read in Machine/CrikaWord.lean. -/

namespace Sys2Proof

/-- The command a table word spells: none. -/
def decodeTableWord (_nbits _w : Nat) : Option Instr := none

end Sys2Proof
end

