-- ==== Sys2Proof/Config.lean ====
section
/-! DEFINITION. The free values: what the spec leaves open and this model does not choose. Each is an opaque constant
without a body, applied to the draw counter `State.free` or to operands, so no proof can see its value (log
entry 5). -/

namespace Sys2Proof.Config

/-- A free number, for draw `k`; users cut it to the width of the value it stands for. -/
opaque freeNat : Nat → Nat

/-- A memory upset at draw `k`: `none`, or the byte address of a 32-bit word and whether two bits failed
(spec/01_architecture.md R39). -/
opaque upset : Nat → Option (Nat × Bool)

/-- 2 to a power that is no whole number, as the hardware computes it (spec/17_management.md R555). -/
opaque pow2 : Rat → Rat

end Sys2Proof.Config
end

