-- ==== Sys2Proof/Machine/Bits.lean ====
section
/-! DEFINITION. Bit fields, signed codes, saturation and rounding: the plain arithmetic by which the register
tables of every chapter are read and written (register notation: spec/00_scope.md, Conventions). -/

namespace Sys2Proof.Machine

/-- Field `[lo + w - 1 : lo]` of a register, as a number. -/
def fld (r : W32) (lo w : Nat) : Nat := (r.toNat >>> lo) % 2 ^ w

/-- Bit `i` of a register. -/
def bit (r : W32) (i : Nat) : Bool := r.toNat.testBit i

/-- A Boolean as the bit it reads as. -/
def b2n (b : Bool) : Nat := if b then 1 else 0

/-- Fields `(lo, width, value)` put side by side into one register; every value is cut to its width. -/
def pack (fs : List (Nat × Nat × Nat)) : W32 :=
  BitVec.ofNat 32 (fs.foldl (fun a f => a ||| ((f.2.2 % 2 ^ f.2.1) <<< f.1)) 0)

/-- The bits of a written value that a register stores: the rest are reserved and read as zero (R8). -/
def keep (mask : Nat) (v : W32) : W32 := v &&& BitVec.ofNat 32 mask

/-- Saturation at the largest code of `w` bits. -/
def satN (w n : Nat) : Nat := min n (2 ^ w - 1)

/-- The two's-complement reading of a `w`-bit code. -/
def sext (w n : Nat) : Int := if n % 2 ^ w < 2 ^ (w - 1) then (n % 2 ^ w : Nat) else (n % 2 ^ w : Nat) - (2 ^ w : Nat)

/-- The `w`-bit two's-complement code of a number. -/
def scode (w : Nat) (i : Int) : Nat := (i % (2 ^ w : Nat)).toNat

/-- A number kept between two bounds. -/
def clampI (lo hi i : Int) : Int := max lo (min hi i)

/-- A number kept between two bounds. -/
def clampN (lo hi n : Nat) : Nat := max lo (min hi n)

/-- Rounding to the nearest whole number, a tie going away from zero. DEDUCED from the worked example of
spec/04_current_digitisers.md (14,962.5 is rounded to 14,963); log entry 11. -/
def roundQ (q : Rat) : Int := if 0 ≤ q then (q + 1 / 2).floor else -((-q + 1 / 2).floor)

/-- `roundQ` for a quotient of natural numbers. -/
def roundDiv (n d : Nat) : Nat := if d = 0 then 0 else (2 * n + d) / (2 * d)

/-- Truncation toward zero (R155, R142). -/
def truncQ (q : Rat) : Int := if 0 ≤ q then q.floor else -((-q).floor)

/-- A natural number rounded up to the next whole unit of `d`. -/
def ceilDiv (n d : Nat) : Nat := if d = 0 then 0 else (n + d - 1) / d

/-- One element of a vector changed. -/
def upd {α : Type} {n : Nat} (v : Vector α n) (i : Fin n) (f : α → α) : Vector α n := v.set i.val (f v[i])

/-- A vector read at any index, out of range reading `d`. -/
def vget {α : Type} {n : Nat} (v : Vector α n) (i : Nat) (d : α) : α :=
  if h : i < n then v[i] else d

/-- A vector changed at any index, out of range changing nothing. -/
def vupd {α : Type} {n : Nat} (v : Vector α n) (i : Nat) (f : α → α) : Vector α n :=
  if h : i < n then v.set i (f v[i]) else v

/-- The bits of a predicate over `0 .. n-1` as a number. -/
def bitsOf (n : Nat) (p : Nat → Bool) : Nat :=
  (List.range n).foldl (fun a i => if p i then a ||| (1 <<< i) else a) 0

/-- Do something to the state for each index below `n`, in rising order. -/
def forFin {σ : Type} (n : Nat) (f : Fin n → σ → σ) (s : σ) : σ :=
  (List.finRange n).foldl (fun s i => f i s) s

end Sys2Proof.Machine
end

