-- ==== Sys2Proof/Machine/Sparse.lean ====
section
/-! DEFINITION. Sparse tables in one canonical form: keys strictly rising, and no entry equal to what an unlisted
key reads as. Memory, the curve store and the external claims are held so. -/

namespace Sys2Proof.Machine

/-- A sparse table. -/
abbrev Sparse (α : Type) := List (Nat × α)

/-- Read: an unlisted key reads as `d`. -/
def sget {α : Type} (d : Nat → α) : Sparse α → Nat → α
  | [], a => d a
  | (k, v) :: r, a => if a = k then v else if a < k then d a else sget d r a

/-- Write, keeping the canonical form: writing what an unlisted key reads as removes the entry. -/
def sset {α : Type} [DecidableEq α] (d : Nat → α) (a : Nat) (v : α) : Sparse α → Sparse α
  | [] => if v = d a then [] else [(a, v)]
  | (k, w) :: r =>
    if a < k then (if v = d a then (k, w) :: r else (a, v) :: (k, w) :: r)
    else if a = k then (if v = d a then r else (a, v) :: r)
    else (k, w) :: sset d a v r

/-- Every key of the table is above `lo`. -/
def sabove {α : Type} (lo : Nat) (m : Sparse α) : Bool := m.all fun c => decide (lo < c.1)

/-- The canonical form. -/
def swf {α : Type} [DecidableEq α] (d : Nat → α) : Sparse α → Bool
  | [] => true
  | (k, v) :: r => decide (v ≠ d k) && sabove k r && swf d r

/-- Forget every entry whose key lies in `[lo, hi)`: they read as unlisted again. -/
def serase {α : Type} (lo hi : Nat) (m : Sparse α) : Sparse α :=
  m.filter fun c => decide (c.1 < lo) || decide (hi ≤ c.1)

end Sys2Proof.Machine
end

