-- ==== Sys2Proof/Machine/StateBase.lean ====
section
/-! DEFINITION. State of the time base and of the event fabric (spec/01_architecture.md R21 to R35). -/

namespace Sys2Proof.Machine

/-- One event record (R21): 96 bits, held as its four parts. -/
structure EvRec where
  /-- Time-base count at the occurrence, 48 bits (words 0 and 1). -/
  time : Nat
  /-- Source island number, 0 to 71. -/
  src : Nat
  /-- Event code. -/
  code : Nat
  /-- Argument. -/
  arg : W32
deriving DecidableEq, Repr

/-- The outbound event buffer of one island (R27). -/
structure OutBuf where
  /-- Records waiting to leave, oldest first; at most eight. -/
  recs : List EvRec
  /-- Events discarded since the last LOST record. -/
  lost : Nat
deriving DecidableEq, Repr

/-- One record at the event-fabric hub and the sinks it has still to reach (R24). -/
structure HubRec where
  ev : EvRec
  /-- Cores whose interrupt controller has yet to receive it. -/
  cores : List (Fin 4)
  /-- The Deputy has yet to receive it. -/
  dep : Bool
deriving DecidableEq, Repr

/-- The event fabric: 72 outbound buffers and the hub. -/
structure EventFabric where
  out : Vector OutBuf 72
  /-- Records at the hub, oldest first. -/
  hub : List HubRec
  /-- Records for CORE discarded at the hub while CORE is stopped in SLEEP (spec/18_power_states.md R573). -/
  hubLost : Nat
deriving DecidableEq, Repr

/-- The TMB block (R33). The count itself is `now` modulo 2^48. -/
structure Tmb where
  /-- Microseconds since the release of power-on reset (R28); the 48-bit count is this modulo 2^48. -/
  now : Nat
  /-- WRAPS, saturating at 0xFFFF. -/
  wraps : Nat
  wrapped : Bool
  restarted : Bool
  trimLock : Bool
  alarmLo : W32
  alarmHi : W32
  en : Bool
  fired : Bool
  /-- TIME_HI latch of C0 to C3 and of the Deputy (R32). -/
  hiLatch : Vector Nat 5
deriving DecidableEq, Repr

/-- What the last access over the register fabric answered. -/
inductive Answer where
  /-- No access yet, or the access is still waiting (a core stall, R45). -/
  | none
  /-- A load returned this value. -/
  | value (v : W32)
  /-- A store was acknowledged. -/
  | done
  /-- The access was answered with a bus fault. -/
  | busFault
  /-- The accessing core stalls: bulk memory is not ready (spec/18_power_states.md R600). -/
  | stall
deriving DecidableEq, Repr

def OutBuf.init : OutBuf := { recs := [], lost := 0 }

def EventFabric.init : EventFabric := { out := Vector.replicate 72 OutBuf.init, hub := [], hubLost := 0 }

/-- Right after the release of power-on reset: count 0, RESTARTED 1 (R30, R33). -/
def Tmb.init : Tmb :=
  { now := 0, wraps := 0, wrapped := false, restarted := true, trimLock := false, alarmLo := 0, alarmHi := 0,
    en := false, fired := false, hiLatch := Vector.replicate 5 0 }

end Sys2Proof.Machine
end

