-- ==== Sys2Proof/Machine/StateMeas.lean ====
section
/-! DEFINITION. State of the current digitisers, captures, health estimators and the curve store
(spec/04_current_digitisers.md). -/

namespace Sys2Proof.Machine

/-- Factory calibration of one digitiser in OTP (R118). -/
structure OtpRec where
  gain : Nat
  /-- OFFS25 and OFFS85, signed codes. -/
  offs25 : Int
  offs85 : Int
  /-- The record passes its check. -/
  ok : Bool
deriving DecidableEq, Repr

/-- CAP_STAT.STATE (R146). -/
inductive CapSt where
  | idle | armed | running | done
deriving DecidableEq, Repr

/-- One capture engine (R128 to R134). -/
structure Capture where
  /-- CAP_CFG, CAP_ADDR and CAP_LEN as firmware last wrote them. -/
  cfg : W32
  addr : W32
  len : W32
  /-- The copies the last accepted ARM read (R128). -/
  aCfg : W32
  aAddr : W32
  aLen : W32
  st : CapSt
  trunc : Bool
  abort : Bool
  preGot : Nat
  /-- COUNT: records written. -/
  count : Nat
  /-- CAP_TIME. -/
  time : Nat
  /-- A trigger has come and the next record meets it (R129). -/
  trig : Bool
  /-- Records taken since the trigger, pre-trigger records included. -/
  taken : Nat
  /-- Records kept before the trigger, oldest first. -/
  pre : List W16
  /-- Records not yet written to bulk memory, oldest first; at most 256 (R132). -/
  buf : List W16
  /-- The record being formed: samples so far, sum of their c_cal, CLIP seen. -/
  n : Nat
  sum : Nat
  clip : Bool
deriving DecidableEq, Repr

/-- One current digitiser (R112 to R127): 48 high-side, 16 valve and 3 lamp digitisers. -/
structure Dig where
  /-- MEAS_CTL. -/
  ctl : W32
  zeroBusy : Bool
  zeroFail : Bool
  calErr : Bool
  snapLate : Bool
  /-- CMD_RES: 0 OK, 2 REFUSED, 3 CFG_ERR. -/
  cmdRes : Nat
  /-- I_INST: current in mA, c_cal, CLIP, SW. -/
  i : Nat
  code : Nat
  clip : Bool
  sw : Bool
  /-- I_AVG.AVG, I_AVG.SNAP, I_PEAK.PEAK. -/
  avg : Nat
  snap : Nat
  peak : Nat
  /-- The averaging window in progress: AVG_W it began with, samples, sum of currents. -/
  winW : Nat
  winN : Nat
  winSum : Nat
  /-- Up to the last 50 sample currents, newest first (R126). -/
  last : List Nat
  /-- The millisecond in progress for R124: its end, samples, sum. -/
  msEnd : Nat
  msN : Nat
  msSum : Nat
  /-- The last 1 ms mean sent to ADM (R124), also the mean UNSETTLED reports (R145). -/
  msMean : Rat
  /-- The ZERO in progress: samples and sum of c_raw - OFFS (R120). -/
  zeroN : Nat
  zeroSum : Rat
  /-- Time of the last sample. -/
  at_ : Nat
  /-- The snap or global trigger on its way: T_s, SNAP, GTRIG (R126, R127, R129). -/
  snapReq : Option (Nat × Bool × Bool)
  gain : Nat
  offs25 : Int
  offs85 : Int
  /-- CAL_TRIM, a signed 14-bit code. -/
  trim : Int
  cap : Capture
deriving DecidableEq, Repr

/-- One trended quantity (R142 to R144). -/
structure Trend where
  /-- Short and long value in units of 1/256 (eight fraction bits are kept, R142). -/
  short : Nat
  long : Nat
  dev : Int
  valid : Bool
  /-- Valid values of this hour: how many, and their sum. -/
  n : Nat
  sum : Nat
deriving DecidableEq, Repr

/-- The load-health estimators of one high-side channel (R135 to R144, R661). -/
structure Est where
  /-- INR_RES: I_PK in mA and T_PK in units of 20 us. -/
  iPk : Nat
  tPk : Nat
  tSettle : Nat
  valid : Bool
  unsettled : Bool
  /-- The settling search: start, INR_RES followed, window in progress (number, samples, sum), the last 16 window
  means (newest first). -/
  search : Bool
  start : Nat
  follow : Bool
  winI : Nat
  winN : Nat
  winSum : Nat
  means : List Rat
  iSteady : Nat
  rLoad : Nat
  rValid : Bool
  /-- Steady periods run (R138): start of the period, samples, sum, pad samples, sum of pad codes. -/
  steady : Bool
  perAt : Nat
  perN : Nat
  perSum : Nat
  vN : Nat
  vSum : Nat
  /-- Time of the last pad-voltage sample (R125). -/
  padAt : Option Nat
  /-- V_PAD.CODE and V_MEAN. -/
  vCode : Nat
  vMean : Nat
  ripCfg : W32
  ripBand : W32
  /-- The ripple counter (R140): i_ref, state high, count, hi, lo. -/
  iRef : Nat
  ripHigh : Bool
  ripN : Nat
  ripHi : Nat
  ripLo : Nat
  fRip : Nat
  speed : Nat
  pp : Nat
  ripValid : Bool
  trCfg : W32
  tI : Trend
  tR : Trend
  tF : Trend
  hours : Nat
  /-- Start of the hour in progress (R142). -/
  hourAt : Nat
deriving DecidableEq, Repr

/-- MEAS common registers (R147). -/
structure MeasC where
  snapTime : Nat
  snapDelay : W32
deriving DecidableEq, Repr

/-- A copy of a curve-store range into a block (R150): one that is restarted ends with the contents of its end. -/
structure CurveCopy where
  /-- A copy is in progress. -/
  busy : Bool
  base : Nat
  len : Nat
deriving DecidableEq, Repr

/-- The CURVE block (R148 to R157). -/
structure Curve where
  ent : Sparse W32
  lock : W32
  lockViol : Bool
  badCurve : Bool
  badIdx : Nat
  violIdx : Nat
deriving DecidableEq, Repr

def Capture.init : Capture :=
  { cfg := 0, addr := 0, len := 0, aCfg := 0, aAddr := 0, aLen := 0, st := .idle, trunc := false, abort := false,
    preGot := 0, count := 0, time := 0, trig := false, taken := 0, pre := [], buf := [], n := 0, sum := 0,
    clip := false }

/-- A high-side digitiser at island power-up before it loads its calibration (R118). -/
def Dig.init : Dig :=
  { ctl := 0x506, zeroBusy := false, zeroFail := false, calErr := false, snapLate := false, cmdRes := 0, i := 0,
    code := 0, clip := false, sw := false, avg := 0, snap := 0, peak := 0, winW := 6, winN := 0, winSum := 0,
    last := [], msEnd := 1000, msN := 0, msSum := 0, msMean := 0, zeroN := 0, zeroSum := 0, at_ := 0, snapReq := none,
    gain := 32768, offs25 := 0, offs85 := 0, trim := 0, cap := Capture.init }

/-- The digitiser of target `t` at island power-up: valves and strings have AVG_W alone of MEAS_CTL (R117). -/
def Dig.initOf (t : Nat) : Dig := if t < 48 then Dig.init else { Dig.init with ctl := 6 }

def Trend.init : Trend := { short := 0, long := 0, dev := 0, valid := false, n := 0, sum := 0 }

def Est.init : Est :=
  { iPk := 0, tPk := 0, tSettle := 0, valid := false, unsettled := false, search := false, start := 0,
    follow := false, winI := 0, winN := 0, winSum := 0, means := [], iSteady := 0, rLoad := 0, rValid := false,
    steady := false, perAt := 0, perN := 0, perSum := 0, vN := 0, vSum := 0, padAt := none, vCode := 0, vMean := 0,
    ripCfg := 0x501, ripBand := 0x07D0000A, iRef := 0, ripHigh := false, ripN := 0, ripHi := 0, ripLo := 65535,
    fRip := 0, speed := 0, pp := 0, ripValid := false, trCfg := 0x00070D93, tI := Trend.init, tR := Trend.init,
    tF := Trend.init, hours := 0, hourAt := 0 }

def MeasC.init : MeasC := { snapTime := 0, snapDelay := 100 }

def CurveCopy.init : CurveCopy := { busy := false, base := 0, len := 0 }

def Curve.init : Curve := { ent := [], lock := 0, lockViol := false, badCurve := false, badIdx := 0, violIdx := 0 }

end Sys2Proof.Machine
end

