-- ==== Sys2Proof/Machine/StateHs.lean ====
section
/-! DEFINITION. State of the high-side channels and of the HSC block (spec/02_high_side_channels.md,
spec/03_inductive_turn_off.md). -/

namespace Sys2Proof.Machine

/-- The channel states, in the order of their codes (R49). -/
inductive HsSt where
  | disabled | off | pending | inrush | on | uvWait | retryWait | latched
deriving DecidableEq, Repr

/-- The event of a channel's last island cycle that a command reaching it in the same cycle must see
(R54, R56; the counterparts R222, R223, R259). -/
inductive Mark where
  | none | grantOn | fault | holdEnd
deriving DecidableEq, Repr

/-- Who asked for a turn-on of a channel: which requests SW_ON reports with ARG bit 16 (R95). -/
inductive ReqKind where
  /-- Firmware, a heater slot or a routed DIN input. -/
  | ordinary
  /-- A restart request after bank under-voltage or a fault retry. -/
  | restart
deriving DecidableEq, Repr

/-- The running clamp (R103 to R107). -/
structure Clamp where
  /-- I0 in mA (R104), and Tj0 in 1/16 of a degree (R100). -/
  i0 : Rat
  tj0 : Int
  /-- Time at which it began. -/
  start : Nat
  /-- It has been evaluated at 65,535 us (R105). -/
  judged : Bool
deriving DecidableEq, Repr

/-- One channel island HS n (island 24 + n). -/
structure Hs where
  st : HsSt
  /-- CH_CTL. -/
  ctl : W32
  /-- CH_STAT.LIMP and the source by which limp was entered (R326). -/
  limp : Bool
  retryCnt : Nat
  envLoaded : Bool
  /-- CMD_RES: 0 OK, 1 TOO_LATE, 2 REFUSED, 3 CFG_ERR. -/
  cmdRes : Nat
  /-- Envelope step in force. -/
  envStep : Nat
  /-- CH_FAULT. -/
  fault : W32
  ocCfg : W32
  envCfg : W32
  retryCfg : W32
  restartCfg : W32
  /-- TJ, in 1/16 of a degree. -/
  tj : Int
  faultTime : Nat
  /-- FAULT_INFO. -/
  faultInfo : W32
  /-- Lifetime counters (R93): operations, time on below the running on-period in us, thermal cycles. -/
  ops : Nat
  onUs : Nat
  /-- Start of the on-period, meaningful while the switch is on. -/
  onAt : Nat
  thermCyc : Nat
  /-- Thermal-cycle counting: last minimum, and the maximum once the rise of 40 K is complete. -/
  tMin : Int
  tMax : Option Int
  /-- Clamp registers (R110): t_CL, I0 and E_LAST as shown, PCT, total in nJ, HIGH, OVL. -/
  clT : Nat
  clI0 : Nat
  clE : Nat
  clPct : Nat
  clEtot : Rat
  clHigh : Nat
  clOvl : Nat
  clamp : Option Clamp
  /-- I0 and Tj0 of the last turn-off (R100, R104). -/
  offI0 : Rat
  offTj : Int
  /-- Thermal latch held. -/
  tl : Bool
  /-- Own copy of the bank's UV_CFG (R665), the bank's under-voltage and recovered conditions (R68). -/
  uvCfg : W32
  uv : Bool
  bankOk : Bool
  /-- Envelope in force and the staging copy (R65), and the copy in progress (R62). -/
  env : List W32
  staging : List W32
  copy : CurveCopy
  /-- Start of INRUSH and end of the step in force. -/
  inrushAt : Nat
  stepEnd : Nat
  /-- INRUSH runs on code 63 for 10 ms (R64). -/
  defEnv : Bool
  /-- Retry timer running since (R76); expired and waiting for BANK_OK (R77). -/
  retryAt : Option Nat
  retryDone : Bool
  /-- Time of entry to ON (R78). -/
  onStAt : Nat
  /-- The request waiting in ADM answers a restart (R95). -/
  reqKind : ReqKind
  /-- The channel has submitted a request of its own that ADM has not yet forwarded (R319, R85). -/
  own : Bool
  /-- A restart request of a parked channel held until ADM runs (R91). -/
  heldReq : Option Nat
  /-- Routed OFF to repeat (R320). -/
  repeatOff : Bool
  /-- The routed level has fallen in LATCHED, and a rise clears (R86). -/
  fallSeen : Bool
  mark : Mark
  markAt : Nat
  est : Est
deriving DecidableEq, Repr

/-- The HSC common block (R96). -/
structure Hsc where
  uvCfg : Vector W32 4
  orphanCfg : W32
  /-- End of the orphan hold, while ACTIVE (R80). -/
  orphanEnd : Option Nat
  expired : Bool
  parkLo : W32
  parkHi : W32
  parkCfg : W32
  /-- Bank state as the HUB reports it (BANK_STAT). -/
  uv : Vector Bool 4
  bankOk : Vector Bool 4
deriving DecidableEq, Repr

/-- A channel island at its power-up: every register at its reset value (R92, R97). The last minimum of the junction
temperature begins at 0 degrees C: the model's choice (R93; log entry 42). -/
def Hs.init : Hs :=
  { st := .disabled, ctl := 2, limp := false, retryCnt := 0, envLoaded := false, cmdRes := 0, envStep := 0,
    fault := 0, ocCfg := 0x826, envCfg := 0, retryCfg := 0x03E83C03, restartCfg := 4, tj := 0, faultTime := 0,
    faultInfo := 0, ops := 0, onUs := 0, onAt := 0, thermCyc := 0, tMin := 0, tMax := none, clT := 0, clI0 := 0,
    clE := 0, clPct := 0, clEtot := 0, clHigh := 0, clOvl := 0, clamp := none, offI0 := 0, offTj := 0, tl := false,
    uvCfg := 0x100, uv := false, bankOk := false, env := [], staging := [], copy := CurveCopy.init, inrushAt := 0,
    stepEnd := 0, defEnv := false, retryAt := none, retryDone := false, onStAt := 0, reqKind := .ordinary,
    own := false, heldReq := none, repeatOff := false, fallSeen := false, mark := .none, markAt := 0,
    est := Est.init }

def Hsc.init : Hsc :=
  { uvCfg := Vector.replicate 4 0x100, orphanCfg := 20, orphanEnd := none, expired := false, parkLo := 0,
    parkHi := 0, parkCfg := 1, uv := Vector.replicate 4 false, bankOk := Vector.replicate 4 false }

end Sys2Proof.Machine
end

