-- ==== Sys2Proof/Machine/StateAdm.lean ====
section
/-! DEFINITION. State of the admission scheduler and of its thermal model (spec/05_admission_scheduler.md). -/

namespace Sys2Proof.Machine

/-- One queue entry (R161 to R164). -/
structure Entry where
  target : Nat
  prio : Nat
  /-- Absolute deadline in microseconds of device time; `none` is no deadline. -/
  deadline : Option Nat
  /-- Tick time at which it was made, and its age order. -/
  made : Nat
  seq : Nat
  /-- The target has confirmed it (R163); an external entry needs no confirmation. -/
  confirmed : Bool
  granted : Bool
  /-- The claim: I_CONT in 10 mA, INR_E in 10 mJ, P_SITE in W. -/
  iCont : Nat
  inrE : Nat
  pSite : Nat
deriving DecidableEq, Repr

/-- Inputs that reach ADM between ticks and wait for the next one (R177). -/
inductive AdmIn where
  /-- SW_ON of channel `n`: the state entered is ON (else INRUSH). -/
  | swOn (n : Nat) (on : Bool)
  | envEnd (n : Nat)
  | swOff (n : Nat)
  /-- A returned grant (R52). -/
  | returned (t : Nat)
  /-- A valve group or lamp string releases its claim (R167, R218, R261). -/
  | release (t : Nat)
  /-- The 1 ms mean of a digitiser, mA (R124). -/
  | current (t : Nat) (ma : Rat)
  /-- Hardware copies of the bank voltages in mV, and of T_bp in 1/16 of a degree (R172). -/
  | banks (mv : Vector Nat 4)
  | tbp (t16 : Int)
  /-- A clamp's energy estimate, nJ (R108). -/
  | clampE (n : Nat) (nj : Rat)
  /-- A target withdraws its request (R50, R220, R257). -/
  | withdraw (t : Nat)
  /-- Stores of core `c` to CANCEL and RELEASE; `k` numbers the core's stores (R159). -/
  | cancel (c : Fin 4) (k target : Nat)
  | relExt (c : Fin 4) (k x : Nat)
  /-- A store of core `c` to REQ. -/
  | req (c : Fin 4) (k target prio deadlineMs : Nat)
  /-- A request a channel, valve group or lamp string submits for itself: priority, claim (10 mA and 10 mJ; for a
  channel ADM reads CLAIM instead), deadline in ms (0 none), whether it answers a restart (R72, R217, R260). -/
  | own (target prio iCont inrE deadlineMs : Nat) (kind : ReqKind)
  /-- The target's answer to a forwarded entry (R163): confirmed, refused in a state, taken into UV_WAIT. -/
  | confirm (t : Nat)
  | refuse (t : Nat) (state : Nat)
  | uvTaken (t : Nat)
deriving DecidableEq, Repr

/-- Messages on their way from ADM to a target island (R16). -/
inductive ToTgt where
  /-- A forwarded entry (R163); the second form marks one that a channel's own request made (R85). -/
  | entry
  | entryOwn
  | grant
  /-- The drop message (R164, R165). -/
  | drop
  /-- OFF to a heater-slot channel (R182). -/
  | off
deriving DecidableEq, Repr

/-- What ADM knows of a high-side channel from its events (R167). -/
inductive ChView where
  | off | inrush | on
deriving DecidableEq, Repr

/-- One heater slot (R184 to R188). -/
structure Slot where
  cfg : W32
  dutyReg : W32
  /-- A write restarts the periods from the next tick (R188). -/
  arm : Bool
  /-- Periods run, and the next period start. -/
  run : Bool
  next : Nat
  /-- A window is open, its end, and the DUTY it was opened with. -/
  open_ : Bool
  tEnd : Nat
  duty : Nat
  /-- The deadline a restart request of this window receives (R186). -/
  dl : Nat
  carry : Nat
  /-- Switch-on time in this window, and since when the switch has been on. -/
  onUs : Nat
  since : Option Nat
  lastDuty : Nat
  /-- HT_STAT.STATE: 0 idle, 1 waiting, 2 on, 3 window closed. -/
  st : Nat
  shed : Nat
deriving DecidableEq, Repr

/-- The ADM block (R193) and what stands behind it. -/
structure Adm where
  ctl : W32
  cntFull : Nat
  cntDropped : Nat
  cntRefused : Nat
  cntShed : Nat
  bankLim : Vector W32 4
  modLim : W32
  bankLoad : Vector Rat 4
  modLoad : Rat
  winCfg : W32
  siteLim : W32
  siteCfg : W32
  siteLoad : Rat
  heatCfg : W32
  modelCfg : W32
  pFixed : W32
  /-- OVER as last evaluated, eleven bits. -/
  overB : Nat
  /-- STAT.STRICT. -/
  strict : Bool
  vBank : Vector Nat 4
  claim : Vector W32 67
  slots : Vector Slot 16
  extClaim : Sparse W32
  extHeld : Vector Bool 1024
  /-- REQ_RES of each core: DONE, RESULT (R159). -/
  resDone : Vector Bool 4
  resCode : Vector Nat 4
  /-- Stores of each core to REQ, CANCEL and RELEASE so far: the result of the last one alone is shown (R159). -/
  resSeq : Vector Nat 4
  queue : List Entry
  seq : Nat
  inbox : List AdmIn
  /-- Messages under way to the targets, oldest first. -/
  toTgt : List (Nat × ToTgt)
  /-- Last tick. -/
  tickAt : Nat
  view : Vector ChView 48
  /-- Claim in force of a switched-on channel (R167). -/
  held : Vector Nat 48
  /-- OFF sent and SW_OFF not yet handled (R187). -/
  offSent : Vector Bool 48
  /-- Last 1 ms mean of each target, mA (R124). -/
  iMeas : Vector Rat 67
  /-- Inrush bins, newest (in progress) first, in 10 mJ; start and length of the bin in progress (R169, R170). -/
  bins : List Nat
  binAt : Nat
  binLen : Nat
  /-- Bin starts until the bin of a grant under the exception of R180 retires. -/
  excess : Nat
  /-- E_WIN has been lowered since that grant (R183). -/
  winLow : Bool
  siteAt : Nat
  stale : Bool
  /-- Arrival of the last copies (R172). -/
  vAt : Option Nat
  tbpAt : Option Nat
  /-- T_bp in use, in degrees. -/
  tbp : Rat
  sensorStale : Bool
  deltaT : Rat
  tModel : Rat
  /-- k_T in force in the present tick (R174). -/
  kTick : Rat
  pRun : Rat
  pCap : Rat
  /-- Clamp energy since the last model update, J. -/
  eClamp : Rat
  /-- ADM has agreed to an entry and stopped (R666). -/
  stopped : Bool
  /-- A tick has run since HUB power-up. -/
  ticked : Bool
deriving DecidableEq, Repr

def Slot.init : Slot :=
  { cfg := 0x10000, dutyReg := 0, arm := false, run := false, next := 0, open_ := false, tEnd := 0, duty := 0,
    dl := 0, carry := 0, onUs := 0, since := none, lastDuty := 0, st := 0, shed := 0 }

/-- Reset value of CLAIM[t] (R193). -/
def claimReset (t : Nat) : W32 :=
  if t < 32 then 0x258 else if t < 44 then 0x5DC else if t < 48 then 0xBB8 else 0

/-- ADM at HUB power-up, at time `t`. -/
def Adm.init (t : Nat) : Adm :=
  { ctl := 0x00640042, cntFull := 0, cntDropped := 0, cntRefused := 0, cntShed := 0,
    bankLim := #v[0xFA0, 0xFA0, 0x1900, 0x1F40], modLim := 0x4E20, bankLoad := Vector.replicate 4 0, modLoad := 0,
    winCfg := 0x03E80004, siteLim := 0xFFFF, siteCfg := 0xFFFF, siteLoad := 0, heatCfg := 0x007D0000,
    modelCfg := 0x012C0096, pFixed := 0x190, overB := 0, strict := false, vBank := Vector.replicate 4 0,
    claim := Vector.ofFn fun i : Fin 67 => claimReset i.val, slots := Vector.replicate 16 Slot.init, extClaim := [],
    extHeld := Vector.replicate 1024 false, resDone := Vector.replicate 4 false, resCode := Vector.replicate 4 0, resSeq := Vector.replicate 4 0,
    queue := [], seq := 0, inbox := [], toTgt := [], tickAt := t, view := Vector.replicate 48 .off,
    held := Vector.replicate 48 0, offSent := Vector.replicate 48 false, iMeas := Vector.replicate 67 0, bins := [0],
    binAt := t, binLen := 4, excess := 0, winLow := false, siteAt := t, stale := false, vAt := none, tbpAt := none, tbp := 85,
    sensorStale := false, deltaT := 0, tModel := 85, kTick := 124 / 100, pRun := 0, pCap := 0, eClamp := 0, stopped := false, ticked := false }

end Sys2Proof.Machine
end

