-- ==== Sys2Proof/Machine/StateInp.lean ====
section
/-! DEFINITION. State of the input unit, the crossbar and limp-home (spec/09_inputs_and_limp_home.md). -/

namespace Sys2Proof.Machine

/-- One copy of the limp store: sequence number, one byte per target, and the CRC-16/CCITT stored with them (R330 to
R332). -/
structure LimpCopy where
  seq : Nat
  map : Vector W8 67
  crc : Nat
deriving DecidableEq, Repr

/-- One analogue input (R334). -/
structure Ain where
  code : Nat
  mv : Nat
  /-- The last conversions, newest first, at most eight. -/
  last : List Nat
  /-- MV lies outside the window. -/
  outside : Bool
deriving DecidableEq, Repr

/-- One switch input (R313 to R316). -/
structure Si where
  cfg : W32
  closed : Bool
  chg : Bool
  /-- Time of the last accepted closing, from which the cleaning current of WET 3 runs (R313). -/
  closedAt : Option Nat
  /-- Consecutive samples or polls that differ from the state in force. -/
  cnt : Nat
deriving DecidableEq, Repr

/-- The INP block (R337). -/
structure Inp where
  si : Vector Si 16
  siPoll : W32
  /-- The last poll instant of SLEEP and DEEP, or the entry to that state (R315). -/
  pollAt : Nat
  vl3Low : Bool
  dinCfg : W32
  din : Vector Bool 8
  dinChg : Vector Bool 8
  limpCfg : W32
  /-- Limp sources (R323). -/
  pad : Bool
  deputy : Bool
  expiry : Bool
  /-- The source that last set ACTIVE (R326). -/
  limpSrc : Nat
  lmap : Vector W8 67
  busy : Bool
  nvErr : Bool
  lmapRes : Nat
  seq : Nat
  follow : Vector W32 3
  ainCtl : W32
  vsOn : Bool
  vsFault : Bool
  vsMa : Nat
  ain : Vector Ain 4
  ainWin : Vector W32 4
deriving DecidableEq, Repr

def Si.init : Si := { cfg := 0xA01, closed := false, chg := false, closedAt := none, cnt := 0 }

def Ain.init : Ain := { code := 0, mv := 0, last := [], outside := false }

/-- INP at AON power-up, before the limp map is loaded. -/
def Inp.init : Inp :=
  { si := Vector.replicate 16 Si.init, siPoll := 0x103, pollAt := 0, vl3Low := false, dinCfg := 4,
    din := Vector.replicate 8 false, dinChg := Vector.replicate 8 false, limpCfg := 0x10A, pad := false,
    deputy := false, expiry := false, limpSrc := 0, lmap := Vector.replicate 67 0, busy := false, nvErr := false, lmapRes := 0,
    seq := 0, follow := Vector.replicate 3 0, ainCtl := 0, vsOn := false, vsFault := false, vsMa := 0,
    ain := Vector.replicate 4 Ain.init, ainWin := Vector.replicate 4 0xFFFF0000 }

end Sys2Proof.Machine
end

