-- ==== Sys2Proof/Machine/StatePower.lean ====
section
/-! DEFINITION. State of the power controller, the supplies, the reset logic and the SYS block
(spec/18_power_states.md, spec/19_supplies_and_start_up.md, spec/01_architecture.md R40). -/

namespace Sys2Proof.Machine

/-- Where the module is between its power states (R571, R591, R618). -/
inductive Phase where
  /-- The start-up after a power-on reset, before C0 is released or held (R618). -/
  | starting
  /-- RUN or IDLE: which of the two is a condition of the cores alone. -/
  | run
  /-- An accepted entry is running its stages (R578). -/
  | entering
  | sleep
  /-- The steps of a return, up to WOKEN (R591, R595). -/
  | returning
  | deep
  | off
  /-- The auxiliary bus is below the reset threshold: nothing is powered (R611). -/
  | dead
deriving DecidableEq, Repr

/-- A wake filter (R589). -/
structure WakeFlt where
  a : W32
  b : W32
deriving DecidableEq, Repr

/-- The PWR block (R607) and the state of the power sequencer. -/
structure Pwr where
  phase : Phase
  /-- Step in progress of a start-up or return (R591): 0 regulator, 1 oscillator, 2 memory, 3 logic; 4 the start of
  the management program and the boot ROM (R618 steps 3 to 5). -/
  step : Nat
  /-- Failed tries of the step in progress, and the time its try began (R592). -/
  tries : Nat
  stepAt : Nat
  /-- The regulator or oscillator step of this return went over its backup path (R592). -/
  usedReg : Bool
  usedOsc : Bool
  /-- State the return in progress left: 0 power-on, 1 SLEEP, 2 DEEP, 3 OFF. -/
  leaving : Nat
  stage : Nat
  target : Nat
  res : Nat
  reqAt : Nat
  askedAt : Nat
  /-- Blocks of stages 2 to 12 that have stopped, index by stage (R580). -/
  stopped : Vector Bool 14
  backupOsc : Bool
  backupReg : Bool
  bulkRdy : Bool
  from_ : Nat
  cfg : W32
  wakeEn : W32
  /-- Sources latched, the first request's time (R585, R590). -/
  wakeCause : Nat
  wakeTime : Nat
  /-- Sources that were latched when the return in progress began: those that woke the device (R493). -/
  wokenBy : Nat
  wakeCfg : W32
  ret : W32
  hold : W32
  holdStat : W32
  /-- The levels of HP_IRQN and HP_SDO that a hold of group 5 has latched (R601, R602): whether HP_IRQN is low, and the
  level of HP_SDO where it was driven. -/
  heldIrqLow : Bool
  heldSdo : Option Bool
  /-- Channels that the held groups 0 and 1 do not cover, because they were parked (R602): bit n is HS n. -/
  spared : Nat
  cntRefused : Nat
  cntAborted : Nat
  cntEntries : Nat
  cntEarly : Nat
  lastAbort : W32
  lastAbortTime : Nat
  refCnt : Vector Nat 16
  wflt : Vector WakeFlt 8
  /-- Keeper registers, kept through OFF (R597). -/
  keepFail : W32
  keepTime : Nat
  keepOff : W32
deriving DecidableEq, Repr

/-- Supply state and reset logic in AON (R608 to R624). -/
structure Supply where
  mainsOk : Bool
  vbkOk : Bool
  /-- Source: VBK (else mains). -/
  srcVbk : Bool
  dc : Bool
  /-- VBK voltage in units of 0.1 V. -/
  vbk : Nat
  /-- MAINS_OK rose at this time and the source has not yet changed back (R609). -/
  mainsAt : Option Nat
  /-- RSTN is low (R615). -/
  rstnLow : Bool
  /-- The CORE island is held in reset. -/
  coreReset : Bool
  /-- Control-plane resets since the last power-on reset (RST_CAUSE.COUNT). -/
  rstCount : Nat
  /-- Cause and POR_SRC of the release under way. -/
  cause : Nat
  porSrc : Nat
deriving DecidableEq, Repr

/-- The SYS block beside identity and supply (R40, R623). -/
structure Sys where
  serialLo : W32
  serialHi : W32
  ceBulk : Nat
  ueBulk : Nat
  ceSram : Nat
  ueSram : Nat
  eccAddr : W32
  /-- Updates of these counters that wait for the CORE clock: word and whether two bits failed (R40, R574). -/
  held : List (Nat × Bool)
  rstCause : W32
  boot : W32
deriving DecidableEq, Repr

/-- PWR right after the release of power-on reset; the keeper registers are given (R597, R607). -/
def Pwr.init (leaving : Nat) (kf : W32) (kt : Nat) (ko : W32) : Pwr :=
  { phase := .starting, step := 0, tries := 0, stepAt := 0, usedReg := false, usedOsc := false, leaving := leaving,
    stage := 0, target := 0, res := 0, reqAt := 0, askedAt := 0, stopped := Vector.replicate 14 false,
    backupOsc := false, backupReg := false, bulkRdy := false, from_ := 0, cfg := 0x320A, wakeEn := 0x6FFF,
    wakeCause := 0, wakeTime := 0, wokenBy := 0, wakeCfg := 1, ret := 0, hold := 0, holdStat := 0, heldIrqLow := false, heldSdo := none, spared := 0, cntRefused := 0,
    cntAborted := 0, cntEntries := 0, cntEarly := 0, lastAbort := 0, lastAbortTime := 0,
    refCnt := Vector.replicate 16 0, wflt := Vector.replicate 8 { a := 0, b := 0 }, keepFail := kf, keepTime := kt,
    keepOff := ko }

/-- The supplies as a first power-up from the mains finds them: mains present, VBK absent (log entry 8). -/
def Supply.init : Supply :=
  { mainsOk := true, vbkOk := false, srcVbk := false, dc := false, vbk := 0, mainsAt := none, rstnLow := false,
    coreReset := false, rstCount := 0, cause := 0, porSrc := 0 }

def Sys.init (lo hi : W32) : Sys :=
  { serialLo := lo, serialHi := hi, ceBulk := 0, ueBulk := 0, ceSram := 0, ueSram := 0, eccAddr := 0, held := [], rstCause := 0,
    boot := 0 }

end Sys2Proof.Machine
end

