-- ==== Sys2Proof/Machine/StateDrive.lean ====
section
/-! DEFINITION. State of the valve groups and channels (spec/06_valve_drive.md) and of the lamp strings
(spec/07_lamp_matrix.md). -/

namespace Sys2Proof.Machine

/-- Valve channel states, in the order of their codes (R219). -/
inductive VdSt where
  | disabled | idle | defer | pending | peak | hold | prop | decay | gap | latched
deriving DecidableEq, Repr

/-- One valve channel VD n. -/
structure Vd where
  st : VdSt
  ctl : W32
  /-- CMD_RES: 0 OK, 1 TOO_LATE, 2 REFUSED, 3 CFG_ERR, 4 MERGED, 5 GROUP_BUSY, 6 DROPPED. -/
  cmdRes : Nat
  limp : Bool
  /-- The held ON command with its HOLD field (R220). -/
  held : Option Nat
  heldMerge : Bool
  /-- The held command, and the actuation in progress, came from the crossbar (R319, R328). -/
  heldRouted : Bool
  routed : Bool
  sat : Bool
  setLim : Bool
  slowDecay : Bool
  fault : W32
  faultInfo : W32
  faultTime : Nat
  prof : W32
  /-- The four profile entries in force (R206), and the copy in progress. -/
  entries : List W32
  profLoaded : Bool
  copy : CurveCopy
  deferCfg : W32
  propCfg : W32
  ditherCfg : W32
  openCfg : W32
  gapCfg : W32
  /-- State a DEFER returns to (R216), time of entry to DEFER, order of entry. -/
  startedFrom : VdSt
  deferAt : Nat
  deferSeq : Nat
  /-- HOLD field of this actuation, 0 for HOLD_T (R210). -/
  holdCmd : Nat
  /-- Switch-on, samples since, and the arrival search (R208): the most recent 16 samples of the coil current (newest
  first, those before switch-on too), i_max, moving, i_min, t_min, arrived, stopped by chopping. -/
  onAt : Nat
  k : Nat
  recent : List Nat
  iMax : Nat
  moving : Bool
  iMin : Nat
  tMin : Nat
  arrived : Bool
  chopped : Bool
  peakEnd : Nat
  holdAt : Nat
  holdEnd : Option Nat
  /-- Proportional setpoint in force, mA (R211, R212). -/
  setNow : Nat
  /-- Time at which `setNow` held, and the setpoint it moves to (R211). -/
  setAt : Nat
  setTo : Nat
  /-- PROP_CFG and DITHER_CFG in force in PROP, and the chop period at whose start the ones written since take over
  (R211). -/
  propIn : W32
  ditherIn : W32
  chgAt : Option Nat
  /-- Number of the chop period in progress, counted from switch-on, and whether the comparator has acted in it (R199,
  R200). -/
  perNo : Nat
  perHit : Bool
  /-- The ADM claim of R217 is held. -/
  claimHeld : Bool
  /-- Low-side last turned off; samples below 50 mA in a row; decay complete (R202). -/
  decayAt : Nat
  decayN : Nat
  decayDone : Bool
  gapAt : Nat
  ops : Nat
  onUs : Nat
  arrCnt : Nat
  missCnt : Nat
  /-- ARR_RES and T_MEAN in units of 1/16 (R233). -/
  tArr : Nat
  iArr : Nat
  tMean16 : Nat
  repeatOff : Bool
  mark : Mark
  markAt : Nat
deriving DecidableEq, Repr

/-- One valve group VG g (island 20 + g). -/
structure Vg where
  ctl : W32
  swOn : Bool
  /-- Turned on at; reports on (R196). -/
  swAt : Nat
  ready : Bool
  latched : Bool
  tl : Bool
  clrRefused : Bool
  fault : W32
  tj : Int
  thermCyc : Nat
  tMin : Int
  tMax : Option Int
  cntDefer : Nat
  cntBusy : Nat
  /-- Last moment at which a channel was in DEFER, PENDING, PEAK, HOLD or PROP (R196). -/
  activeAt : Nat
  /-- Own view of VL3 under-voltage and recovery, as R68 judges it. -/
  uv : Bool
  /-- Next order number for DEFER (R215). -/
  seq : Nat
deriving DecidableEq, Repr

/-- Lamp string states, in the order of their codes (R256). -/
inductive LsSt where
  | disabled | off | pending | ramp | on | uvWait | latched
deriving DecidableEq, Repr

/-- One lamp segment. -/
structure Seg where
  /-- SEG_CTL as last written, and as applied at the last frame start (R246). -/
  ctl : W32
  applied : W32
  /-- DUTY in force (R247). -/
  duty : Nat
  vf : Nat
  open_ : Bool
  short : Bool
  bypass : Bool
  /-- SEG_CLR stored for the next frame start (R254). -/
  clr : Bool
  notVer : Bool
  /-- Time of the last judged interval (R253). -/
  judgedAt : Nat
  /-- t_lit of R243, and the lit interval of the frame in progress with probe and trim (R251, R252), island cycles. -/
  tLit : Nat
  lit : Nat
  /-- Share of a probe's excess still being repaid in this block, and frames left (R252). -/
  share : Nat
  /-- Island cycles for which the segment had been lit at the frame start its lit interval wrapped past; 0 for none
  (R243, R245). -/
  carry : Nat
  /-- SEG_STAT.DARK as the last frame start and bypass left it (R253, R269). -/
  dark : Bool
deriving DecidableEq, Repr

/-- One lamp string LS k (island 17 + k). -/
structure Ls where
  st : LsSt
  ctl : W32
  /-- CMD_RES: 0 OK, 1 TOO_LATE, 2 REFUSED, 3 CFG_ERR, 4 MERGED, 6 DROPPED. -/
  cmdRes : Nat
  limp : Bool
  sat : Bool
  tl : Bool
  fault : W32
  faultInfo : W32
  faultTime : Nat
  cfg : W32
  start : W32
  dim : W32
  /-- The 65 dimming entries as copied, and as applied at the last frame start (R246, R247). -/
  dimNext : List W32
  dimEnt : List W32
  dimLoaded : Bool
  copy : CurveCopy
  probe : W32
  thr : W32
  vOut : Nat
  untrimmed : Nat
  ops : Nat
  onUs : Nat
  onAt : Nat
  segs : Vector Seg 8
  updPend : Bool
  /-- Copy of LMP.CFG.PER. -/
  per : Nat
  /-- Start of the frame in progress, F in use (R244), whether the next frame uses the nominal count, frames since
  entry to RAMP, next short-lit segment to probe. -/
  frameAt : Nat
  fCyc : Nat
  nominal : Bool
  frameNo : Nat
  turn : Nat
  /-- End of the ramp (R256). -/
  rampEnd : Nat
  /-- The string's own last measurement of VL3, mV (R260). -/
  v3 : Nat
  claimHeld : Bool
  tj : Int
  uv : Bool
  bankOk : Bool
  repeatOff : Bool
  mark : Mark
  markAt : Nat
deriving DecidableEq, Repr

def Vd.init : Vd :=
  { st := .disabled, ctl := 0x40, cmdRes := 0, limp := false, held := none, heldMerge := false,
    heldRouted := false, routed := false, sat := false,
    setLim := false, slowDecay := false, fault := 0, faultInfo := 0, faultTime := 0, prof := 0, entries := [],
    profLoaded := false, copy := CurveCopy.init, deferCfg := 0x32, propCfg := 0, ditherCfg := 0x64,
    openCfg := 0x40A, gapCfg := 0x14, startedFrom := .idle, deferAt := 0, deferSeq := 0, holdCmd := 0, onAt := 0,
    k := 0, recent := [], iMax := 0, moving := false, iMin := 0, tMin := 0, arrived := false, chopped := false,
    peakEnd := 0, holdAt := 0, holdEnd := none, setNow := 0, setAt := 0, setTo := 0,
    propIn := 0, ditherIn := 0x64, chgAt := none, perNo := 0, perHit := false, claimHeld := false, decayAt := 0, decayN := 0,
    decayDone := true, gapAt := 0, ops := 0, onUs := 0, arrCnt := 0, missCnt := 0, tArr := 0, iArr := 0,
    tMean16 := 0, repeatOff := false, mark := .none, markAt := 0 }

/-- A valve group's island at its power-up (R236). The last minimum of its junction temperature begins at 0 degrees C: the
model's choice (R232; log entry 44). -/
def Vg.init : Vg :=
  { ctl := 0x00780500, swOn := false, swAt := 0, ready := false, latched := false, tl := false, clrRefused := false,
    fault := 0, tj := 0, thermCyc := 0, tMin := 0, tMax := none, cntDefer := 0, cntBusy := 0, activeAt := 0,
    uv := false, seq := 0 }

/-- A segment at island power-up, at time `t`. -/
def Seg.init (t : Nat) : Seg :=
  { ctl := 0x01000000, applied := 0x01000000, duty := 0, vf := 0, open_ := false, short := false, bypass := false,
    clr := false, notVer := false, judgedAt := t, tLit := 0, lit := 0, share := 0, carry := 0,
    dark := false }

/-- A string at island power-up, at time `t`. -/
def Ls.init (t : Nat) : Ls :=
  { st := .disabled, ctl := 0x46, cmdRes := 0, limp := false, sat := false, tl := false, fault := 0, faultInfo := 0,
    faultTime := 0, cfg := 0x0030000A, start := 10, dim := 0, dimNext := [], dimEnt := [], dimLoaded := false,
    copy := CurveCopy.init, probe := 4, thr := 0x1428, vOut := 0, untrimmed := 0, ops := 0, onUs := 0, onAt := 0,
    segs := Vector.replicate 8 (Seg.init t), updPend := false, per := 0, frameAt := t, fCyc := 83300,
    nominal := true, frameNo := 0, turn := 0, rampEnd := 0, v3 := 0, claimHeld := false, tj := 0, uv := false,
    bankOk := false, repeatOff := false, mark := .none, markAt := 0 }

end Sys2Proof.Machine
end

