-- ==== Sys2Proof/Machine/StateQue.lean ====
section
/-! DEFINITION. State of the hardware queues (spec/12_queues.md) and of the lantern chains
(spec/08_lantern_chains.md). -/

namespace Sys2Proof.Machine

/-- One hardware queue. -/
structure Queue where
  cfg : W32
  ctrl : W32
  /-- Entries held, oldest first, and the last value removed (R407). -/
  ents : List W32
  last : W32
  underrun : Bool
  ovf : Bool
  idle : Bool
  widthErr : Bool
  hw : Bool
  /-- CMD_RES: 0 OK, 2 REFUSED, 3 CFG_ERR. -/
  cmdRes : Nat
  cntOvf : Nat
  cntUnd : Nat
  /-- Start of the idle timer while it runs, which a T of 0 forbids (R412). -/
  idleAt : Option Nat
deriving DecidableEq, Repr

/-- A push held in its producer's handshake while the CORE clock is stopped (R415): queue, words, whether it is 32 bits
wide, and for a chain the number of its return (R304). -/
structure HeldPush where
  q : Nat
  words : List W32
  w32 : Bool
  ret : Nat
deriving DecidableEq, Repr

/-- The QUE block. -/
structure Que where
  q : Vector Queue 32
  held : List HeldPush
deriving DecidableEq, Repr

/-- Transmit states of a chain; RESET and SEND of R310 are `frame` before and after the header begins, and a frame
that waits for its start is `pending`. -/
inductive LcSt where
  | disabled | idle | pending | frame
deriving DecidableEq, Repr

/-- A frame that has been started and whose return has not ended (R295). -/
structure LcFrame where
  /-- Its sequence number. -/
  m : Nat
  hcmd : Nat
  harg : Nat
  /-- Shares sent. -/
  nsh : Nat
  /-- Header sent, outbound base used. -/
  hdr : W32
  base : Nat
  /-- Frame start and header start. -/
  startAt : Nat
  hdrAt : Nat
  /-- The shares as sent, first one first (R289, R291). -/
  shares : List Nat
  aborted : Bool
deriving DecidableEq, Repr

/-- LCk_RET (R295, R310): idle, or a return stream arriving: of the oldest outstanding frame, of none, or of a frame
discarded since. -/
inductive RxSt where
  | idle | mine | stray | dropped
deriving DecidableEq, Repr

/-- What a completed return leaves for the next comparison (R299, R302). -/
structure LcRet where
  hcmd : Nat
  harg : Nat
  count : Nat
  /-- It set none of HDR, TRUNC, OVERLEN. -/
  clean : Bool
deriving DecidableEq, Repr

/-- One lantern chain LC k (island 9 + k). -/
structure Lc where
  st : LcSt
  ctl : W32
  err : W32
  frame : W32
  timing : W32
  echoTmo : W32
  nodesExp : W32
  outBase : Vector W32 2
  retBase : Vector W32 2
  outAct : Bool
  swapPend : Bool
  cmdRes : Nat
  txSeq : Nat
  retSeq : Nat
  retHdr : W32
  retNodes : Nat
  retOver : Nat
  retXs : Nat
  perrFirst : Nat
  perrCount : Nat
  npFirst : Nat
  npCount : Nat
  retTime : Nat
  chgLost : Nat
  cntBreaks : Nat
  cntOther : Nat
  /-- Outstanding frames, oldest first, at most four. -/
  out : List LcFrame
  /-- Frame in progress: its end, and whether the run is continuous. -/
  frameEnd : Nat
  cont : Bool
  /-- A STOP (0) or the orphan expiry (2) ends the run at the end of the frame in progress. -/
  stopReq : Option Nat
  /-- Frame whose return or BREAK the next reset must wait for (R287). -/
  waitM : Option Nat
  /-- Earliest start of the next frame of a continuous run (R286). -/
  nextAt : Nat
  prev : Option LcRet
  rx : RxSt
  /-- End of the last return stream (R300), and of the last complete frame (R293). -/
  retEnd : Option Nat
  lastEnd : Option Nat
deriving DecidableEq, Repr

/-- Reset value of QUE.CFG[q] (R418). -/
def queCfgReset (q : Nat) : W32 := if q < 24 then 0 else BitVec.ofNat 32 (0x00041E03 + 0x40 * (q - 24))

def Queue.init (q : Nat) : Queue :=
  { cfg := queCfgReset q, ctrl := 0, ents := [], last := 0, underrun := false, ovf := false, idle := false,
    widthErr := false, hw := false, cmdRes := 0, cntOvf := 0, cntUnd := 0, idleAt := none }

def Que.init : Que := { q := Vector.ofFn fun i : Fin 32 => Queue.init i.val, held := [] }

/-- Chain `k` at island power-up. -/
def Lc.init (k : Nat) : Lc :=
  { st := .disabled, ctl := 0x3F00, err := 0, frame := 1, timing := 0x14, echoTmo := 0x3E8, nodesExp := 0,
    outBase := #v[BitVec.ofNat 32 (k * 0x100000), BitVec.ofNat 32 (k * 0x100000 + 0x60000)],
    retBase := #v[BitVec.ofNat 32 (k * 0x100000 + 0xC0000), BitVec.ofNat 32 (k * 0x100000 + 0xE0000)],
    outAct := false, swapPend := false, cmdRes := 0, txSeq := 0, retSeq := 0, retHdr := 0, retNodes := 0,
    retOver := 0, retXs := 0, perrFirst := 0, perrCount := 0, npFirst := 0, npCount := 0, retTime := 0, chgLost := 0,
    cntBreaks := 0, cntOther := 0, out := [], frameEnd := 0, cont := false, stopReq := none, waitM := none,
    nextAt := 0, prev := none, rx := .idle, retEnd := none, lastEnd := none }

end Sys2Proof.Machine
end

