-- ==== Sys2Proof/Machine/StateCore.lean ====
section
/-! DEFINITION. State of the Crika control cores (spec/10_crika_isa.md, spec/11_crika_memory_model.md) and of the PMC
block (spec/13_performance_counters.md). -/

namespace Sys2Proof.Machine

/-- A segment descriptor (R369): attributes R, W, X, K in bits 0 to 3. -/
structure SegDesc where
  base : BitVec 28
  limit : W16
  attr : BitVec 4
deriving DecidableEq, Repr

/-- One segment register: the descriptor in force and the staged BASE and LIMIT (R370). -/
structure CSeg where
  d : SegDesc
  stBase : BitVec 28
  stLim : W16
deriving DecidableEq, Repr

/-- A record in a core's event queue, with the line of its filter (R380). -/
structure EvqRec where
  ev : EvRec
  line : Nat
deriving DecidableEq, Repr

/-- One control core. -/
structure Core where
  /-- g0 to g31; element 0 is never read (R338). -/
  g : Vector W16 32
  sw : W16
  rc : W16
  pc : W16
  /-- A repetition is in progress, and its repeat counter. -/
  rptOn : Bool
  rpt : W16
  seg : Vector CSeg 8
  /-- The SEG0 commit held pending until RETI (R370). -/
  seg0Pend : Option SegDesc
  kbound : W16
  vbase : W16
  ks0 : W16
  ks1 : W16
  epc : W16
  esw : W16
  ecause : W16
  earg : W16
  erpt : W16
  ephys : BitVec 28
  /-- RS_CTL: MODE, OVF, UNF, DEPTH as written, TOP; and the 16 slots (R377). -/
  rsMode : Bool
  rsOvf : Bool
  rsUnf : Bool
  rsDepth : BitVec 5
  rsTop : BitVec 4
  rs : Vector W16 16
  fltA : Vector W16 16
  fltB : Vector W16 16
  evq : List EvqRec
  evqSel : W16
  evqOvf : Bool
  evqLost : Nat
  swi : W16
  startPc : W16
  started : Bool
  /-- Stopped by R391. -/
  halted : Bool
  /-- Its clock is stopped by WAIT (R387). -/
  waiting : Bool
  /-- It is stalled on an access to bulk memory that has not ended (R376). -/
  stalled : Bool
deriving DecidableEq, Repr

/-- Tally tags of one core (R433). -/
structure Tag where
  ctl : W32
  lfsr : W16
  down : Nat
  /-- Sequence number of the next tag. -/
  seq : Nat
  /-- A tagged word has been issued and has not completed. -/
  inFlight : Bool
  /-- A tag of this core was lost since its last pushed record (R435). -/
  lostSince : Bool
deriving DecidableEq, Repr

/-- The PMC block. -/
structure Pmc where
  ctl : W32
  base : W32
  ring : W32
  rd : Nat
  wr : Nat
  ringOk : Bool
  cmdRes : Nat
  seq : Nat
  /-- Dumps skipped and lost since the previous written record (R429), and since DUMP_CNT was read. -/
  skipSince : Nat
  lostSince : Nat
  cntSkip : Nat
  cntLost : Nat
  /-- A loss since the last written record has been announced (R430). -/
  lostSaid : Bool
  /-- Time of the dump that DUMP_NOW made due, and of the last dump taken. -/
  nowAt : Option Nat
  lastAt : Nat
  /-- The record being written (STAT.BUSY): where, and its words. -/
  busy : Option (Nat × List Nat)
  ovfCore : W32
  ovfFab : W32
  /-- Counter, numbered as in R437, that the store in progress writes, and the last one written with its time (R424). -/
  wrote : Option Nat
  lastWrote : Option (Nat × Nat)
  tag : Vector Tag 4
  tagLost : Nat
  tagSkip : Nat
  /-- EVSEL and CNT of core `c`, counter `i`, at index 6c + i. -/
  evsel : Vector W32 24
  cnt : Vector Nat 24
  cyc : Vector Nat 4
  ret : Vector Nat 4
  fevsel : Vector W32 16
  fcnt : Vector Nat 16
  /-- Latched upper bits of CYC and RET of core `c` for requester `r`, at index 5c + r (R425). -/
  cycHi : Vector Nat 20
  retHi : Vector Nat 20
deriving DecidableEq, Repr

def CSeg.init (base : Nat) (limit attr : Nat) : CSeg :=
  { d := { base := BitVec.ofNat 28 base, limit := BitVec.ofNat 16 limit, attr := BitVec.ofNat 4 attr },
    stBase := BitVec.ofNat 28 base, stLim := BitVec.ofNat 16 limit }

/-- Core `c` as a control-plane reset leaves it (R393, R395): START_STAT reads 0x0001, C0 started. `bank` is 1 when bank
B is active. -/
def Core.init (c bank : Nat) : Core :=
  { g := Vector.replicate 32 0, sw := 0x0010, rc := 0, pc := 0x0080, rptOn := false, rpt := 0,
    seg := #v[CSeg.init (bank * 0x400000) 0xFFFF 0xD, CSeg.init 0x1000000 0xFFFF 0xB,
      CSeg.init (0x10C0000 + c * 0x10000) 0xFFFF 0xB, CSeg.init 0 0 0, CSeg.init 0 0 0, CSeg.init 0 0 0,
      CSeg.init 0 0 0, CSeg.init 0 0 0],
    seg0Pend := none, kbound := 0, vbase := 0, ks0 := 0, ks1 := 0, epc := 0, esw := 0, ecause := 0, earg := 0,
    erpt := 0, ephys := 0, rsMode := true, rsOvf := false, rsUnf := false, rsDepth := 0, rsTop := 0,
    rs := Vector.replicate 16 0, fltA := Vector.replicate 16 0, fltB := Vector.replicate 16 0, evq := [],
    evqSel := 0, evqOvf := false, evqLost := 0, swi := 0, startPc := 0x0080, started := c = 0, halted := false,
    waiting := false, stalled := false }

def Tag.init : Tag := { ctl := 0xA0, lfsr := 0, down := 0, seq := 0, inFlight := false, lostSince := false }

/-- PMC at reset (R436, R438). -/
def Pmc.init : Pmc :=
  { ctl := 0x100, base := 0, ring := 1, rd := 0, wr := 0, ringOk := false, cmdRes := 0, seq := 0, skipSince := 0,
    lostSince := 0, cntSkip := 0, cntLost := 0, lostSaid := false, nowAt := none, lastAt := 0, busy := none,
    ovfCore := 0, ovfFab := 0, wrote := none, lastWrote := none, tag := Vector.replicate 4 Tag.init, tagLost := 0, tagSkip := 0,
    evsel := Vector.replicate 24 0, cnt := Vector.replicate 24 0, cyc := Vector.replicate 4 0,
    ret := Vector.replicate 4 0, fevsel := Vector.replicate 16 0, fcnt := Vector.replicate 16 0,
    cycHi := Vector.replicate 20 0, retHi := Vector.replicate 20 0 }

end Sys2Proof.Machine
end

