-- ==== Sys2Proof/Machine/StateBus.lean ====
section
/-! DEFINITION. State of the CAN controllers (spec/14_can_controllers.md), of the transceivers and network management
(spec/15_network_sleep_and_wake.md), and of the host port and plant link (spec/16_host_port_and_plant_link.md). -/

namespace Sys2Proof.Machine

/-! ## CAN -/

/-- The transmit states of a message object (R473, OBJ_STAT.TXS). -/
inductive Txs where
  | idle | pending | active | done | aborted | collide | failed
deriving DecidableEq, Repr

/-- What the bus side of a controller does (R473, STAT.BUS). -/
inductive CanBus where
  | off | integrating | idle | rx | tx | busOff
deriving DecidableEq, Repr

/-- A frame buffer: words W0 to W19; the bytes above are reserved (R444). -/
abbrev FrameBuf := Vector W32 20

/-- One message object. -/
structure CanObj where
  ctl : W32
  /-- Transmit buffer, or the shadow of a receive object (R446). -/
  buf : FrameBuf
  live : FrameBuf
  txs : Txs
  new : Bool
  lost : Bool
  berr : Nat
  cmdRes : Nat
  /-- Age of its REQ: the smaller, the older (R448). -/
  age : Nat
  /-- An ABORT arrived while it was ACTIVE (R450). -/
  abortReq : Bool
deriving DecidableEq, Repr

structure CanFlt where
  mch : W32
  mask : W32
  ctl : W32
deriving DecidableEq, Repr

/-- One receive queue of a controller: the frames held, oldest first. -/
structure CanQ where
  held : List FrameBuf
  nextRseq : Nat
  cmdRes : Nat
deriving DecidableEq, Repr

/-- What a controller sends in answer to a frame on the bus (R442): nothing, a dominant acknowledge bit, or the active or
passive error flag of an error frame. -/
inductive CanAns where
  | none | ack | activeFlag | passiveFlag
deriving DecidableEq, Repr

/-- A controller's registers, objects, queues and bus state (R439 to R473). -/
structure Can where
  ctl : W32
  /-- The mode in force: a MODE 0 written during a frame waits for the frame's end (R442, R443). -/
  modeNow : Nat
  cmdRes : Nat
  bus : CanBus
  /-- MODE was written 0 during a frame (R443). -/
  offPend : Bool
  ew : Bool
  ep : Bool
  /-- Occurrences of 11 consecutive recessive bits counted at the last bus-off (R463). -/
  recov : Nat
  tec : Nat
  rxc : Nat
  nbt : W32
  dbt : W32
  tdc : W32
  /-- Transmitter loop delay as last measured, in clock periods (R443). -/
  delay : Nat
  err : W32
  lastErr : W32
  cntBusOff : Nat
  cntNoMatch : Nat
  cntOvf : Nat
  cntMsgLost : Nat
  cmdgCfg : W32
  dup : Nat
  ackLost : Nat
  short : Nat
  objs : Vector CanObj 128
  flts : Vector CanFlt 32
  q : Vector CanQ 2
  /-- Last accepted SEQ of each source (R468). -/
  gate : Vector (Option W8) 64
  /-- The ACTIVE object, and the time of the frame's start of frame. -/
  act : Option (Fin 128)
  sofAt : Nat
  /-- This controller sent the frame last begun on the bus: what follows in its error and overload flags counts on TEC
  (R462). -/
  lastTx : Bool
  /-- What the controller sent in answer to the frame last ended (R442). -/
  answered : CanAns
  ages : Nat
deriving DecidableEq, Repr

/-! ## Network management -/

/-- Transceiver states (R475). -/
inductive TrxMode where
  | normal | listen | standby | sleep
deriving DecidableEq, Repr

/-- NM states (R491). -/
inductive NmSt where
  | off | busSleep | wakeCheck | ready | need | prepSleep
deriving DecidableEq, Repr

/-- Awake streak and night-shift log of one node (R500, R501). -/
structure NsNode where
  /-- First and latest NEED keep-alive of the streak in progress. -/
  streak : Option (Nat × Nat)
  /-- The streak has reached NS_THR. -/
  reached : Bool
  count : Nat
  longest : Nat
  total : Nat
deriving DecidableEq, Repr

/-- Network c of the NM block, its transceiver included. -/
structure Nm where
  ctl : W32
  st : NmSt
  stage : Nat
  online : Bool
  kaPend : Bool
  cmdRes : Nat
  kaCfg : W32
  tmo : W32
  nsCfg : W32
  aborts : Nat
  falseWakes : Nat
  wakes : Nat
  kaSkip : Nat
  trxCtl : W32
  trx : TrxMode
  /-- The state a switch in progress leads to, and when it began (R477). -/
  switch : Option (TrxMode × Nat)
  bias : Bool
  vccUv : Bool
  txdDom : Bool
  errCnt : Nat
  wufId : W32
  wufMask : W32
  wufDlo : W32
  wufDhi : W32
  wufCfg : W32
  wakeCause : Nat
  wakeTime : Nat
  /-- When T_idle, T_ka and T_fw were started. -/
  tIdleAt : Option Nat
  tKaAt : Option Nat
  tFwAt : Option Nat
  /-- When NM last left BUS_SLEEP or OFF, and whether a bus wake did it (R486). -/
  awakeAt : Nat
  woken : Bool
  nodes : Vector NsNode 64
deriving DecidableEq, Repr

/-! ## Host port -/

/-- Where the response of the transaction in progress came from (R518). -/
inductive HpSrc where
  | none | copy | ident | buffer
deriving DecidableEq, Repr

/-- The host port. -/
structure Hp where
  ctl : W32
  restarted : Bool
  fwErr : Bool
  /-- The HP_CSN pad is low. -/
  csnLow : Bool
  /-- The port runs and receives the transaction that HP_CSN has begun (R522, R523). -/
  live : Bool
  /-- The SPI mode of the transaction is 3, HP_SCK having been high when HP_CSN fell; else mode 0 (R504). -/
  mode3 : Bool
  /-- The response fixed for this transaction (R518). -/
  cur : HpSrc
  curResp : List W32
  /-- The status block sent in this transaction (R509). -/
  status : W32 × W32
  cntCrc : Nat
  cntDup : Nat
  cntBusy : Nat
  cntOther : Nat
  ackSeq : Nat
  ack : Nat
  ackSrc : Nat
  /-- Forwarded commands outstanding: SRC, SEQ. -/
  out : List (Nat × Nat)
  /-- Last accepted SEQ of each source (R513). -/
  dup : Vector (Option Nat) 16
  /-- Transmit buffer, each response with its trailer, oldest first. -/
  tx : List (List W32)
  copy : Option (List W32)
  resend : Bool
  ident : Option (List W32)
  /-- FREE of R521: 1 the last request was judged BUSY, 2 OUTST has since fallen below 16, else 0. -/
  free : Nat
deriving DecidableEq, Repr

/-! ## Plant link -/

/-- What PLINK does with memory and must hold back while the memory does not answer (R574, R600): a look at the transmit
or receive descriptor at HEAD, the end of a transmission (0 sent, 1 attempt limit, 2 late collision; tries; time of the
start-frame delimiter), and a received frame with its time. -/
inductive PlkOp where
  | txLook | rxLook
  | txDone (res tries ts : Nat)
  | rxDone (frame : List W8) (ts : Nat)
deriving DecidableEq, Repr

/-- PLINK (island 4). -/
structure Plk where
  ctl : W32
  pst : Bool
  txBusy : Bool
  rxBusy : Bool
  cmdRes : Nat
  plcaCfg : W32
  plcaTmr : W32
  macLo : W32
  macHi : W32
  txBase : W32
  txCfg : W32
  txHead : Nat
  rxBase : W32
  rxCfg : W32
  rxHead : Nat
  cntNobuf : Nat
  cntFcs : Nat
  cntLimit : Nat
  cntLate : Nat
  /-- EN was written 0 while a frame was being sent or received (R532). -/
  offPend : Bool
  /-- The receive ring has been started at a descriptor that PLINK owned (R529). -/
  rxRun : Bool
  /-- The end of the last whole frame on the segment: half-duplex frames do not overlap (R524). -/
  busAt : Nat
  /-- The last frame sent, padding and FCS included (R527). -/
  wire : List W8
  /-- Accesses to memory held back, oldest first (R574, R600). -/
  held : List PlkOp
deriving DecidableEq, Repr

/-! ## Reset values -/

def FrameBuf.zero : FrameBuf := Vector.replicate 20 0

def CanObj.init : CanObj :=
  { ctl := 0, buf := FrameBuf.zero, live := FrameBuf.zero, txs := .idle, new := false, lost := false, berr := 0,
    cmdRes := 0, age := 0, abortReq := false }

def CanQ.init : CanQ := { held := [], nextRseq := 0, cmdRes := 0 }

/-- A controller at island power-up (R470, R472). -/
def Can.init : Can :=
  { ctl := 0x10, modeNow := 0, cmdRes := 0, bus := .off, offPend := false, ew := false, ep := false, recov := 0, tec := 0,
    rxc := 0, nbt := 0x0F0F3E01, dbt := 0x07071E00, tdc := 0x2001, delay := 0, err := 0, lastErr := 0,
    cntBusOff := 0, cntNoMatch := 0, cntOvf := 0, cntMsgLost := 0, cmdgCfg := 0, dup := 0, ackLost := 0, short := 0,
    objs := Vector.replicate 128 CanObj.init, flts := Vector.replicate 32 { mch := 0, mask := 0, ctl := 0x30000 },
    q := Vector.replicate 2 CanQ.init, gate := Vector.replicate 64 none, act := none, sofAt := 0,
    lastTx := false, answered := .none, ages := 0 }

def NsNode.init : NsNode := { streak := none, reached := false, count := 0, longest := 0, total := 0 }

/-- A network at AON power-up (R503). -/
def Nm.init : Nm :=
  { ctl := 0x12, st := .off, stage := 0, online := false, kaPend := false, cmdRes := 0, kaCfg := 0x7F1403E8,
    tmo := 0x32012C, nsCfg := 0xE10, aborts := 0, falseWakes := 0, wakes := 0, kaSkip := 0, trxCtl := 0x2042,
    trx := .standby, switch := none, bias := false, vccUv := false, txdDom := false, errCnt := 0, wufId := 0,
    wufMask := 0, wufDlo := 0, wufDhi := 0, wufCfg := 0, wakeCause := 0, wakeTime := 0, tIdleAt := none,
    tKaAt := none, tFwAt := none, awakeAt := 0, woken := false, nodes := Vector.replicate 64 NsNode.init }

/-- The host port at a control-plane reset (R522, R535). -/
def Hp.init : Hp :=
  { ctl := 6, restarted := true, fwErr := false, csnLow := false, live := false, mode3 := false, cur := .none, curResp := [], status := (0, 0),
    cntCrc := 0, cntDup := 0, cntBusy := 0, cntOther := 0, ackSeq := 0, ack := 0, ackSrc := 0, out := [],
    dup := Vector.replicate 16 none, tx := [], copy := none, resend := false, ident := none, free := 0 }

/-- PLINK at island power-up (R533, R536). -/
def Plk.init : Plk :=
  { ctl := 0, pst := false, txBusy := false, rxBusy := false, cmdRes := 0, plcaCfg := 0x800, plcaTmr := 0x8020,
    macLo := 0, macHi := 0, txBase := 0, txCfg := 2, txHead := 0, rxBase := 0, rxCfg := 0x06000002, rxHead := 0,
    cntNobuf := 0, cntFcs := 0, cntLimit := 0, cntLate := 0, offPend := false, rxRun := false, busAt := 0,
    wire := [], held := [] }

end Sys2Proof.Machine
end

