-- ==== Sys2Proof/Machine/StateMgmt.lean ====
section
/-! DEFINITION. State of the management plane: the mailbox MBX, the watchdog, sensors, the event log, lifetime
accounting, firmware update and debug lock (spec/17_management.md). -/

namespace Sys2Proof.Machine

/-- One log entry (R547); `crc` is the CRC over its first 30 bytes. -/
structure LogRec where
  time : Nat
  boot : Nat
  seq : Nat
  src : Nat
  code : Nat
  kind : Nat
  core : Nat
  arg : W32
  /-- DATA bytes 0 to 3 and 4 to 7. -/
  d0 : W32
  d1 : W32
  crc : Nat
deriving DecidableEq, Repr

/-- The lifetime counters of one target (R93, R109, R232, R266); those a target does not have stay 0. -/
structure LifeCounts where
  ops : Nat
  /-- Seconds on. -/
  onTime : Nat
  /-- Thermal cycles; a valve channel has those of its group. -/
  cyc : Nat
  /-- Clamp energy in nJ, and the clamps at 50 % and above E_lim. -/
  clamp : Rat
  high : Nat
  ovl : Nat
  /-- Arrivals found and missed. -/
  arr : Nat
  miss : Nat
deriving DecidableEq, Repr

/-- Lifetime accounting of one target (R553 to R556): the totals, and the live counters as last added. -/
structure LifeTot where
  sum : LifeCounts
  last : LifeCounts
  eqHours : Rat
  /-- Results of the last recomputation: L, years, and the four shares in per mille. -/
  l : Nat
  years : Nat
  dTime : Nat
  dOps : Nat
  dCyc : Nat
  dClamp : Nat
  /-- Warnings already given: 1 at 200, 2 at 100. -/
  warned : Nat
deriving DecidableEq, Repr

/-- What an OTP key slot holds (R558): a public key, and its revocation fuse. -/
structure KeySlot where
  key : Option Nat
  revoked : Bool
deriving DecidableEq, Repr

/-- What the management plane keeps through every reset and every loss of supply: the log flash with its management
store, and the OTP fuses. -/
structure DepNv where
  log : List LogRec
  /-- Entries written to flash since manufacture, and block erasures (R550). -/
  logWrites : Nat
  erases : Nat
  logSeq : Nat
  boots : Nat
  tempLim : Vector Int 16
  tot : Vector LifeTot 67
  modEq : Rat
  /-- Thermal cycles of point 0: count, last minimum, maximum once the rise is complete. -/
  p0Cyc : Nat
  p0Min : Int
  p0Max : Option Int
  /-- Powered time in us. -/
  ageUs : Nat
  modL : Nat
  modYears : Nat
  modWarned : Nat
  /-- LONG trend values of each channel: I_STEADY, R_LOAD, f_rip (R553). -/
  trends : Vector (Nat × Nat × Nat) 48
  activeB : Bool
  /-- UPD_ACTIVATE recorded the inactive bank as next (R559). -/
  next : Bool
  /-- The active bank is on trial. -/
  trial : Bool
  lastRb : Nat
  cnt : Nat
  keys : Vector KeySlot 4
  dbgFuse : Bool
deriving DecidableEq, Repr

/-- An update operation that is running (R559): its OP, the request's header, and its arguments. -/
structure UpdOp where
  op : Nat
  hdr : W32
  args : List W32
deriving DecidableEq, Repr

/-- The running management plane. -/
structure Dep where
  slots : Vector (Vector W32 8) 64
  reqBusy : W32
  rspPend : W32
  postTime : Vector Nat 32
  /-- Posted requests not yet taken, oldest first (R567). -/
  posted : List (Fin 32)
  /-- Responses and notices that wait for a free slot, oldest first (R566). -/
  rspWait : List (List W32)
  mgmtUp : Bool
  cmdRes : Nat
  mrestarts : Nat
  wdCfg : W32
  /-- Cores that have kicked in this period, as bits. -/
  wdKick : Nat
  wdCause : Nat
  wdResets : Nat
  /-- Start of the watchdog period, while it runs (R541, R543). -/
  wdAt : Option Nat
  wdWarned : Bool
  /-- Times of the last watchdog resets, newest first, and the end of the 60 s hold (R545). -/
  wdTimes : List Nat
  wdHold : Option Nat
  temp : Vector Int 16
  tempAl : Vector Bool 16
  mainsV : Nat
  mainsF : Nat
  mainsDc : Bool
  /-- Alarms standing: mains voltage (bit 0) and frequency (bit 1); rails, a bit each. -/
  mainsAl : Nat
  aux : Nat
  auxAl : Nat
  isoR : Nat
  isoWarn : Bool
  isoAlarm : Bool
  /-- Consecutive measurements above twice each limit (R540). -/
  isoWarnN : Nat
  isoAlarmN : Nat
  updStep : Nat
  updTotal : Nat
  updOp : Option UpdOp
  /-- Reboot due 10 ms after the response to UPD_ACTIVATE (R559). -/
  rebootAt : Option Nat
  /-- The trial's deadline runs from this control-plane reset (R560). -/
  trialAt : Option Nat
  /-- The log buffer, losses since the last LOG_LOST record,
  LOG_LOST, filter entries added (R548, R549). -/
  logBuf : List LogRec
  lostSince : Nat
  logLost : Nat
  logFlt : List (Nat × Nat × Nat)
  /-- Debug port closed until the next power-on reset (R563). -/
  dbgClosed : Bool
  /-- Time of the last lifetime snapshot, and the snapshot of this DEEP entry is stored (R554). -/
  snapAt : Nat
deriving DecidableEq, Repr

def LifeCounts.zero : LifeCounts :=
  { ops := 0, onTime := 0, cyc := 0, clamp := 0, high := 0, ovl := 0, arr := 0, miss := 0 }

def LifeTot.init : LifeTot :=
  { sum := LifeCounts.zero, last := LifeCounts.zero, eqHours := 0, l := 1000, years := 99,
    dTime := 0, dOps := 0, dCyc := 0, dClamp := 0, warned := 0 }

/-- A new module (log entry 10): nothing logged, bank A active, no key programmed, debug port open. -/
def DepNv.init : DepNv :=
  { log := [], logWrites := 0, erases := 0, logSeq := 0, boots := 0,
    tempLim := (Vector.replicate 16 125).set 0 95, tot := Vector.replicate 67 LifeTot.init, modEq := 0, p0Cyc := 0,
    p0Min := 0, p0Max := none, ageUs := 0, modL := 1000, modYears := 99, modWarned := 0,
    trends := Vector.replicate 48 (0, 0, 0), activeB := false, next := false, trial := false, lastRb := 0, cnt := 0,
    keys := Vector.replicate 4 { key := none, revoked := false }, dbgFuse := false }

/-- MGMT at island power-up (R569). -/
def Dep.init : Dep :=
  { slots := Vector.replicate 64 (Vector.replicate 8 0), reqBusy := 0, rspPend := 0, postTime := Vector.replicate 32 0,
    posted := [], rspWait := [], mgmtUp := false, cmdRes := 0, mrestarts := 0, wdCfg := 0x110007D0, wdKick := 0,
    wdCause := 0, wdResets := 0, wdAt := none, wdWarned := false, wdTimes := [], wdHold := none,
    temp := Vector.replicate 16 0, tempAl := Vector.replicate 16 false, mainsV := 0, mainsF := 0, mainsDc := false,
    mainsAl := 0, aux := 0, auxAl := 0, isoR := 0, isoWarn := false, isoAlarm := false, isoWarnN := 0, isoAlarmN := 0,
    updStep := 0, updTotal := 0, updOp := none, rebootAt := none, trialAt := none, logBuf := [], lostSince := 0,
    logLost := 0, logFlt := [], dbgClosed := false, snapAt := 0 }

end Sys2Proof.Machine
end

