-- ==== Sys2Proof/Machine/CoreBase.lean ====
section
/-! DEFINITION. Plain functions of one control core: the fields of SW, registers and pairs, pending lines
(spec/10_crika_isa.md R338 to R340, spec/11_crika_memory_model.md R367, R384), and CRC-16/CCITT
(spec/16_host_port_and_plant_link.md R508). -/

namespace Sys2Proof.Machine

/-- Fields of SW (R339, R367). -/
def Core.z (c : Core) : Bool := c.sw.getLsbD 0
def Core.n (c : Core) : Bool := c.sw.getLsbD 1
def Core.cf (c : Core) : Bool := c.sw.getLsbD 2
def Core.v (c : Core) : Bool := c.sw.getLsbD 3
def Core.k (c : Core) : Bool := c.sw.getLsbD 4
def Core.ie (c : Core) : Bool := c.sw.getLsbD 5
def Core.ts (c : Core) : Bool := c.sw.getLsbD 6

/-- LVL; a written value above 16 acts as 16. -/
def Core.lvl (c : Core) : Nat := min 16 ((c.sw.toNat >>> 7) % 32)

/-- A general register; g0 reads as zero (R338). -/
def Core.rd (c : Core) (i : Fin 32) : W16 := if i.val = 0 then 0 else c.g[i]

/-- Write a general register; a write to g0 is discarded (R338). -/
def Core.wr (c : Core) (i : Fin 32) (v : W16) : Core := if i.val = 0 then c else { c with g := upd c.g i fun _ => v }

/-- The odd register of the pair named by `i`. -/
def pairHi (i : Fin 32) : Fin 32 := ⟨(i.val + 1) % 32, Nat.mod_lt _ (by decide)⟩

/-- A register pair: the even register holds bits 15 to 0 (R340). -/
def Core.rdPair (c : Core) (i : Fin 32) : W32 := c.rd (pairHi i) ++ c.rd i

def Core.wrPair (c : Core) (i : Fin 32) (v : W32) : Core :=
  (c.wr i (v.setWidth 16)).wr (pairHi i) ((v >>> 16).setWidth 16)

/-- Line `l` is pending (R384). -/
def Core.linePend (c : Core) (l : Nat) : Bool := (c.evq.any fun r => r.line = l) || c.swi.getLsbD l

/-- INT_PEND. -/
def Core.pendBits (c : Core) : Nat := bitsOf 16 c.linePend

/-- The highest pending line at or above LVL, if any. -/
def Core.topLine (c : Core) : Option Nat :=
  ((List.range 16).reverse).find? fun l => decide (c.lvl ≤ l) && c.linePend l

/-- The interrupt that R385 lets the core accept at its next boundary. -/
def Core.accept (c : Core) : Option Nat := if c.ie && !c.ts then c.topLine else none

/-- The clock of a core runs (log entry 21): it has started, is not stopped by R391, and is not in WAIT. -/
def Core.clocked (c : Core) : Bool := c.started && !c.halted && !c.waiting

/-- One bit step of CRC-16/CCITT. -/
def crcBit (x : Nat) : Nat := if 0x8000 ≤ x then (2 * x % 65536) ^^^ 0x1021 else 2 * x

/-- One byte into the CRC, most significant bit first. -/
def crcByte (c b : Nat) : Nat :=
  crcBit (crcBit (crcBit (crcBit (crcBit (crcBit (crcBit (crcBit (c ^^^ (b % 256 * 256)))))))))

/-- CRC-16/CCITT of a byte string: initial value 0xFFFF, no reflection, no final XOR (R508). -/
def crc16 (bs : List Nat) : Nat := bs.foldl crcByte 0xFFFF

/-- One byte of the CRC-32 of IEEE 802.3, least significant bit first. -/
def fcsByte (c b : Nat) : Nat :=
  (List.range 8).foldl (fun c _ => if c % 2 = 1 then (c / 2) ^^^ 0xEDB88320 else c / 2) (c ^^^ b % 256)

/-- The frame check sequence of IEEE 802.3 over a frame's bytes, in the order it is sent (R527). -/
def fcsOf (bs : List W8) : List W8 :=
  let c := bs.foldl (fun c b => fcsByte c b.toNat) 0xFFFFFFFF ^^^ 0xFFFFFFFF
  [BitVec.ofNat 8 c, BitVec.ofNat 8 (c / 0x100), BitVec.ofNat 8 (c / 0x10000), BitVec.ofNat 8 (c / 0x1000000)]

/-- The CRC over a copy of the limp store: its sequence number, low byte first, and its map (R330, log entry 22). -/
def limpCrc (seq : Nat) (map : Vector W8 67) : Nat :=
  crc16 (seq % 256 :: seq / 256 % 256 :: map.toList.map BitVec.toNat)

/-- A copy as a commit writes it. -/
def LimpCopy.make (seq : Nat) (map : Vector W8 67) : LimpCopy := { seq := seq, map := map, crc := limpCrc seq map }

/-- The stored CRC matches: the copy is valid (R331). -/
def LimpCopy.valid (c : LimpCopy) : Bool := c.crc == limpCrc c.seq c.map

/-- A copy that no commit has written: its CRC does not match. -/
def LimpCopy.blank : LimpCopy :=
  { seq := 0, map := Vector.replicate 67 0, crc := limpCrc 0 (Vector.replicate 67 0) ^^^ 1 }

/-- The four bytes of a word, least significant first. -/
def wordBytes (w : W32) : List Nat :=
  [w.toNat % 256, w.toNat / 256 % 256, w.toNat / 65536 % 256, w.toNat / 16777216]

def wordsBytes (ws : List W32) : List Nat := ws.flatMap wordBytes

/-- A log entry sealed with its CRC over bytes 0 to 29 (R547). -/
def LogRec.seal (r : LogRec) : LogRec :=
  { r with
    crc := crc16 (wordsBytes [BitVec.ofNat 32 r.time, pack [(0, 16, r.time / 2 ^ 32), (16, 16, r.boot)],
      BitVec.ofNat 32 r.seq, pack [(0, 8, r.src), (8, 8, r.code), (16, 8, r.kind), (24, 8, r.core)], r.arg, r.d0,
      r.d1] ++ [0, 0]) }

end Sys2Proof.Machine
end

