-- ==== Sys2Proof/Machine/State.lean ====
section
/-! DEFINITION. The machine's state: everything the spec gives the block, as plain data, and the state right after
the release of the AON power-on reset. The parts are declared chapter by chapter in StateBase, StateMeas, StateHs,
StateAdm, StateInp, StatePower, StateDrive, StateQue, StateCore, StateBus and StateMgmt. -/

namespace Sys2Proof.Machine

/-- The whole module. -/
structure State where
  /-- TMB and the event fabric (R21 to R35). -/
  tmb : Tmb
  fab : EventFabric
  /-- What the last access over the register fabric answered. -/
  answer : Answer
  /-- Factory calibration of the 67 digitisers (R118). -/
  otp : Vector OtpRec 67
  hs : Vector Hs 48
  hsc : Hsc
  dig : Vector Dig 67
  /-- VLV.CTL. -/
  vlvCtl : W32
  vg : Vector Vg 4
  vd : Vector Vd 16
  /-- LMP.STAT.CFG_ERR (R241, R268). -/
  lmpErr : Bool
  ls : Vector Ls 3
  meas : MeasC
  curve : Curve
  adm : Adm
  inp : Inp
  /-- The limp store (R330 to R332). -/
  limpStore : Vector LimpCopy 2
  pwr : Pwr
  sup : Supply
  sys : Sys
  /-- Islands that are powered and out of reset (R572). -/
  up : Vector Bool 72
  /-- Code flash, SRAM and bulk memory (R36), in canonical form. -/
  mem : List Host.Cell
  /-- Words whose check bits no longer match, and whether two bits failed (R39). -/
  ecc : List (Nat × Bool)
  lc : Vector Lc 8
  que : Que
  core : Vector Core 4
  /-- The Deputy's own core (R338): its registers alone, as log entry 37 says. -/
  depCore : Core
  pmc : Pmc
  can : Vector Can 4
  nm : Vector Nm 4
  hp : Hp
  plk : Plk
  dep : Dep
  nv : DepNv
  /-- The model's own: how many free values have been drawn (log entry 5). -/
  free : Nat
  /-- The model's own: commands that wait, first in, first out. -/
  pending : List Instr
deriving DecidableEq, Repr

/-- Why the machine stops. -/
inductive Fault where
  /-- A voltage beyond the absolute maximum ratings of R641, where R640 says the device may be damaged: raised by the
  commands that carry a bank or VBK voltage. Safe: nothing is claimed about what follows. -/
  | beyondRatings
deriving DecidableEq, Repr

/-- Why a command has no meaning here. -/
inductive Refusal where
  /-- A row of the table without a meaning yet: raised by exec's arm of that row. Safe. -/
  | notModelled (mnemonic : String)
deriving DecidableEq, Repr

/-- Factory calibration of a new module: unit gain, no offset, record good (log entry 9). -/
def OtpRec.init : OtpRec := { gain := 32768, offs25 := 0, offs85 := 0, ok := true }

/-- AON alone runs. -/
def upAon : Vector Bool 72 := (Vector.replicate 72 false).set 0 true

/-- The state at the release of the AON power-on reset (R611, R618), with what outlives it: OTP calibration, limp
store, management store, serial number, keeper registers, supplies, code flash, and the queue of commands. -/
def State.powerOn (otp : Vector OtpRec 67) (limp : Vector LimpCopy 2) (nv : DepNv) (serLo serHi : W32) (kf : W32)
    (kt : Nat) (ko : W32) (leaving : Nat) (sup : Supply) (flash : List Host.Cell) (free : Nat)
    (pending : List Instr) : State :=
  { tmb := Tmb.init, fab := EventFabric.init, answer := .none, otp := otp, hs := Vector.replicate 48 Hs.init,
    hsc := Hsc.init, dig := Vector.ofFn fun t : Fin 67 => Dig.initOf t.val, vlvCtl := 0, vg := Vector.replicate 4 Vg.init,
    vd := Vector.replicate 16 Vd.init, lmpErr := false, ls := Vector.replicate 3 (Ls.init 0), meas := MeasC.init,
    curve := Curve.init, adm := Adm.init 0, inp := Inp.init, limpStore := limp, pwr := Pwr.init leaving kf kt ko,
    sup := sup, sys := Sys.init serLo serHi, up := upAon, mem := flash, ecc := [],
    lc := Vector.ofFn fun k : Fin 8 => Lc.init k.val, que := Que.init,
    core := Vector.ofFn fun c : Fin 4 => Core.init c.val 0, depCore := Core.init 4 0, pmc := Pmc.init, can := Vector.replicate 4 Can.init,
    nm := Vector.replicate 4 Nm.init, hp := Hp.init, plk := Plk.init, dep := Dep.init, nv := nv, free := free,
    pending := pending }

/-- The machine right after its first power-up: the release of the AON power-on reset of a new module (log entries 9
and 10 name what the spec leaves to the module). -/
def State.reset : State :=
  State.powerOn (Vector.replicate 67 OtpRec.init)
    #v[LimpCopy.make 0 (Vector.replicate 67 0), LimpCopy.blank]
    { DepNv.init with boots := 1 } 0 0 0 0 0 0 Supply.init [] 0 []

end Sys2Proof.Machine
end

