-- ==== Sys2Proof/Machine/Ops.lean ====
section
/-! DEFINITION. Shared operations: state accessors, device time, the event fabric, messages to ADM. -/

namespace Sys2Proof.Machine

/-- What a command's meaning answers. -/
abbrev Out := Host.Outcome State Fault Refusal

/-! ## Accessors of the replicated units -/

/-- Change channel island HS `n`. -/
def State.modHs (s : State) (n : Fin 48) (f : Hs → Hs) : State := { s with hs := upd s.hs n f }

def State.modVd (s : State) (n : Fin 16) (f : Vd → Vd) : State := { s with vd := upd s.vd n f }

def State.modVg (s : State) (g : Fin 4) (f : Vg → Vg) : State := { s with vg := upd s.vg g f }

def State.modLs (s : State) (k : Fin 3) (f : Ls → Ls) : State := { s with ls := upd s.ls k f }

/-- Change the digitiser of target `t` (0 to 47 high-side, 48 to 63 valve, 64 to 66 lamp). -/
def State.modDig (s : State) (t : Fin 67) (f : Dig → Dig) : State := { s with dig := upd s.dig t f }

/-- The ADM target of a channel, valve channel and string (R158). -/
def tHs (n : Fin 48) : Fin 67 := ⟨n.val, by omega⟩
def tVd (n : Fin 16) : Fin 67 := ⟨48 + n.val, by omega⟩
def tLs (k : Fin 3) : Fin 67 := ⟨64 + k.val, by omega⟩

/-- The group of a valve channel (R194). -/
def groupOf (n : Fin 16) : Fin 4 := ⟨n.val / 4, by omega⟩

def State.modHsc (s : State) (f : Hsc → Hsc) : State := { s with hsc := f s.hsc }

def State.modAdm (s : State) (f : Adm → Adm) : State := { s with adm := f s.adm }

def State.modInp (s : State) (f : Inp → Inp) : State := { s with inp := f s.inp }

def State.modPwr (s : State) (f : Pwr → Pwr) : State := { s with pwr := f s.pwr }

def State.modSup (s : State) (f : Supply → Supply) : State := { s with sup := f s.sup }

def State.modSys (s : State) (f : Sys → Sys) : State := { s with sys := f s.sys }

def State.modTmb (s : State) (f : Tmb → Tmb) : State := { s with tmb := f s.tmb }

def State.modCurve (s : State) (f : Curve → Curve) : State := { s with curve := f s.curve }

def State.modCore (s : State) (c : Fin 4) (f : Core → Core) : State := { s with core := upd s.core c f }

def State.modPmc (s : State) (f : Pmc → Pmc) : State := { s with pmc := f s.pmc }

def State.modCan (s : State) (c : Fin 4) (f : Can → Can) : State := { s with can := upd s.can c f }

def State.modNm (s : State) (c : Fin 4) (f : Nm → Nm) : State := { s with nm := upd s.nm c f }

def State.modHp (s : State) (f : Hp → Hp) : State := { s with hp := f s.hp }

def State.modPlk (s : State) (f : Plk → Plk) : State := { s with plk := f s.plk }

def State.modDep (s : State) (f : Dep → Dep) : State := { s with dep := f s.dep }

def State.modNv (s : State) (f : DepNv → DepNv) : State := { s with nv := f s.nv }

/-- The next free number, and the state with the draw counted. -/
def State.draw (s : State) (w : Nat) : Nat × State :=
  (Config.freeNat s.free % 2 ^ w, { s with free := s.free + 1 })

/-- Do something when a condition holds, else nothing. -/
def State.onlyIf (s : State) (c : Bool) (f : State → State) : State := if c then f s else s

/-! ## Device time (R28 to R33) -/

/-- Microseconds since power-on reset. -/
def State.now (s : State) : Nat := s.tmb.now

/-- The 48-bit count. -/
def State.count (s : State) : Nat := s.tmb.now % 2 ^ 48

/-- Island number of channel `n`, valve group, string, chain and CAN controller (R12). -/
def islHs (n : Nat) : Nat := 24 + n
def islVg (g : Nat) : Nat := 20 + g
def islLs (k : Nat) : Nat := 17 + k
def islLc (k : Nat) : Nat := 9 + k
def islCan (c : Nat) : Nat := 5 + c

/-- The island is powered and out of reset. -/
def State.isUp (s : State) (isl : Nat) : Bool := vget s.up isl false

/-- The block of stage `g` has stopped for an entry (R580). -/
def State.isStopped (s : State) (g : Nat) : Bool := vget s.pwr.stopped g false

/-! ## The event fabric (R21 to R27) -/

/-- Put one record into an island's outbound buffer, or discard and count it (R27). -/
def outPut (r : EvRec) (b : OutBuf) : OutBuf :=
  if b.recs.length < 8 then { b with recs := b.recs ++ [r] } else { b with lost := b.lost + 1 }

/-- Whether an event emitted now by the island is stored (and so reaches its sinks). -/
def State.canEmit (s : State) (src : Nat) : Bool := (vget s.fab.out src OutBuf.init).recs.length < 8

/-- Emit an event stamped with time `t` (R22). -/
def State.emitAt (s : State) (t src code : Nat) (arg : W32) : State :=
  { s with fab := { s.fab with out := vupd s.fab.out src (outPut { time := t % 2 ^ 48, src := src, code := code, arg := arg }) } }

/-- Emit an event stamped with the present count. -/
def State.emit (s : State) (src code : Nat) (arg : W32) : State := s.emitAt s.now src code arg

/-- Give ADM an input; it waits for the next tick (R177). -/
def State.toAdm (s : State) (m : AdmIn) : State :=
  s.modAdm fun a => { a with inbox := a.inbox ++ [m] }

/-- Emit an event that ADM takes as well: ADM hears of it only if the record was stored (R27). -/
def State.emitAdm (s : State) (src code : Nat) (arg : W32) (m : AdmIn) : State :=
  (s.emit src code arg).onlyIf (s.canEmit src) fun s => s.toAdm m

/-- The CORE clock is stopped: in SLEEP, and on the way back from it until its last step ungates the clock (R572,
R591). -/
def State.coreGated (s : State) : Bool := s.pwr.phase == .sleep || (s.pwr.phase == .returning && s.pwr.leaving = 1)

/-- CORE is powered, out of reset and clocked, so its interrupt controllers take records. -/
def State.coreRuns (s : State) : Bool := s.isUp 1 && !s.sup.coreReset && !s.coreGated

/-! ## Counting in PMC (spec/13_performance_counters.md R420 to R423) -/

/-- The OVF bit of counter `i`, in the numbers of R437, sets. -/
def Pmc.setOvf (p : Pmc) (i : Nat) : Pmc :=
  if i < 32 then { p with ovfCore := p.ovfCore ||| BitVec.ofNat 32 (1 <<< i) }
  else { p with ovfFab := p.ovfFab ||| BitVec.ofNat 32 (1 <<< (i - 32)) }

/-- A counter wrapped at time `t`: its OVF bit sets and, if wanted, CNT_OVF is emitted (R423, R437). -/
def State.pmcWrapAt (s : State) (t i : Nat) (ev : Bool) : State :=
  (s.modPmc fun p => p.setOvf i).onlyIf ev fun s => s.emitAt t 1 0x70 (pack [(0, 6, i)])

/-- A counter wraps now. -/
def State.pmcWrap (s : State) (i : Nat) (ev : Bool) : State := s.pmcWrapAt s.now i ev

/-- `n` occurrences of core event `evt` on core `c` at the privilege `k`. -/
def State.coreCount (s : State) (c : Fin 4) (evt n : Nat) (k : Bool) : State :=
  if bit s.pmc.ctl 0 then
    forFin 6 (fun i s =>
      let j := 6 * c.val + i.val
      let sel := vget s.pmc.evsel j 0
      let priv := fld sel 8 2
      if fld sel 0 6 = evt && (priv = 0 || priv = 3 || (priv = 1) == k) && s.pmc.wrote != some j then
        let v := vget s.pmc.cnt j 0 + n
        (s.modPmc fun p => { p with cnt := vupd p.cnt j fun _ => v % 2 ^ 32 }).onlyIf (2 ^ 32 ≤ v) fun s =>
          s.pmcWrap j (bit sel 12)
      else s) s
  else s

/-- Fabric events to which the REQ field applies (R422). -/
def fabReqApplies (evt : Nat) : Bool := 2 ≤ evt && evt ≤ 5

/-- `n` occurrences of fabric event `evt` by requester `req` (0 to 3 a core, 4 the Deputy, 5 the data plane). -/
def State.fabCount (s : State) (evt req n : Nat) : State :=
  if s.isUp 1 && s.isUp 2 && bit s.pmc.ctl 0 then
    forFin 16 (fun j s =>
      let sel := s.pmc.fevsel[j]
      let r := fld sel 8 3
      if fld sel 0 6 = evt && (!fabReqApplies evt || r = 0 || r = 7 || r = req + 1) &&
          s.pmc.wrote != some (32 + j.val) then
        let v := s.pmc.fcnt[j] + n
        (s.modPmc fun p => { p with fcnt := upd p.fcnt j fun _ => v % 2 ^ 32 }).onlyIf (2 ^ 32 ≤ v) fun s =>
          s.pmcWrap (32 + j.val) (bit sel 12)
      else s) s
  else s

/-- Core cycles in one microsecond: 250, or 100 on the backup RC (spec/18_power_states.md R593). -/
def State.coreMHz (s : State) : Nat := if s.pwr.backupOsc then 100 else 250

/-! ## The event log's buffer (spec/17_management.md R546 to R549) -/

/-- The Deputy buffers one log entry; it numbers the entry, and discards and counts one that finds 4,096 waiting. -/
def State.logAdd (s : State) (r : LogRec) : State :=
  if s.isUp 3 && s.dep.mgmtUp then
    if s.dep.logBuf.length < 4096 then
      let e := LogRec.seal
        { r with seq := s.nv.logSeq % 2 ^ 32, boot := s.nv.boots % 65536, time := r.time % 2 ^ 48 }
      let s1 := s.modNv fun v => { v with logSeq := v.logSeq + 1 }
      s1.modDep fun d => { d with logBuf := d.logBuf ++ [e] }
    else s.modDep fun d => { d with logLost := d.logLost + 1, lostSince := d.lostSince + 1 }
  else s

/-- A record of the Deputy's own (KIND 1). -/
def State.logOwn (s : State) (code : Nat) (arg : W32) : State :=
  s.logAdd { time := s.count, boot := 0, seq := 0, src := 3, code := code, kind := 1, core := 0, arg := arg, d0 := 0,
             d1 := 0, crc := 0 }

/-- An own record whose code and argument the spec leaves open: a TMB wrap, a debug-lock change (log entry 5). -/
def State.logOwnFree (s : State) : State :=
  let a := s.draw 8
  let b := a.2.draw 32
  b.2.logOwn a.1 (BitVec.ofNat 32 b.1)

/-! ## Wake requests (spec/18_power_states.md R585, R588, R590) -/

/-- The states in which a source wakes: code 1 SLEEP, 2 DEEP, 3 OFF (R588). -/
def wakesIn (src state : Nat) : Bool :=
  match state with
  | 1 => src ≠ 10 && src < 15
  | 2 => src < 12
  | _ => src = 0

/-- A return starts at its first step (R591); `leaving` is the state left. -/
def Pwr.beginReturn (p : Pwr) (leaving now : Nat) : Pwr :=
  { p with
    phase := .returning, step := 0, tries := 0, stepAt := now, usedReg := false, usedOsc := false,
    leaving := leaving, stage := 0, wokenBy := p.wakeCause }

/-- A wake request of source `src`: no effect in RUN or IDLE, latched during an entry and a return, and the start of
a return from SLEEP and DEEP. -/
def State.wakeReq (s : State) (src : Nat) : State :=
  let latch (p : Pwr) : Pwr :=
    { p with
      wakeTime := if p.wakeCause = 0 then s.count else p.wakeTime, wakeCause := p.wakeCause ||| (1 <<< src) }
  if bit s.pwr.wakeEn src then
    match s.pwr.phase with
    | .entering => if wakesIn src s.pwr.target then s.modPwr latch else s
    | .returning => if wakesIn src s.pwr.leaving then s.modPwr latch else s
    | .sleep => if wakesIn src 1 then s.modPwr fun p => (latch p).beginReturn 1 s.now else s
    | .deep => if wakesIn src 2 then s.modPwr fun p => (latch p).beginReturn 2 s.now else s
    | _ => s
  else s

/-- A wake filter takes a record (R380, R589). -/
def WakeFlt.takes (f : WakeFlt) (e : EvRec) : Bool :=
  bit f.b 15 && (bit f.a 7 || fld f.a 0 7 == e.src) && ((e.code ^^^ fld f.a 8 8) &&& fld f.b 0 8) == 0

/-- An enabled wake filter takes a record. -/
def Pwr.wakesOn (p : Pwr) (e : EvRec) : Bool := p.wflt.toList.any fun f => f.takes e

/-! ## The hub -/

/-- Records at the hub held for CORE (R573). -/
def State.hubHeld (s : State) : Nat := (s.fab.hub.filter fun r => !r.cores.isEmpty).length

/-- One record reaches the hub, which hands it to the four interrupt controllers and to the Deputy. In SLEEP the
hub holds at most 64 records for CORE and counts the rest (R573). A held record that a wake filter takes requests a
wake, and so does one during an entry to SLEEP (R585, R588). -/
def State.hubTake (s : State) (r : EvRec) : State :=
  let asleep := s.coreGated
  let toCores := s.isUp 1 && !s.sup.coreReset && (!asleep || s.hubHeld < 64)
  let lost := asleep && 64 ≤ s.hubHeld
  let cores := if toCores then List.finRange 4 else []
  let fab : EventFabric :=
    { s.fab with
      hub := if cores.isEmpty && !s.isUp 3 then s.fab.hub
             else s.fab.hub ++ [{ ev := r, cores := cores, dep := s.isUp 3 }],
      hubLost := s.fab.hubLost + b2n lost }
  let s1 : State := { s with fab := fab }
  let s2 := (s1.fabCount 0x07 0 1).onlyIf (r.code = 0xFF) fun s => s.fabCount 0x08 0 1
  s2.onlyIf (((asleep && toCores) || s.pwr.phase == .entering) && s.pwr.wakesOn r) fun s => s.wakeReq 12

/-- The oldest outbound record of island `i` moves to the hub; if events had been discarded, the entry freed takes
the LOST record (R27). Without a powered hub nothing moves (spec/18_power_states.md R575). -/
def State.pull (s : State) (i : Nat) : State :=
  match (vget s.fab.out i OutBuf.init).recs with
  | [] => s
  | r :: rest =>
    if s.isUp 2 then
      let n := (vget s.fab.out i OutBuf.init).lost
      let lost : EvRec := { time := s.count, src := i, code := 0xFF, arg := BitVec.ofNat 32 n }
      let s1 := { s with fab := { s.fab with out := vupd s.fab.out i fun _ =>
        if n = 0 then { recs := rest, lost := 0 } else { recs := rest ++ [lost], lost := 0 } } }
      s1.hubTake r
    else s

/-- Records wait in the outbound buffer of island `i`. -/
def State.waits (s : State) (i : Nat) : Bool := !(vget s.fab.out i OutBuf.init).recs.isEmpty

/-- Every record of island `i` moves to the hub; the first argument bounds the records. -/
def State.pullAll (i : Nat) : Nat → State → State
  | 0, s => s
  | k + 1, s => if s.waits i then State.pullAll i k (s.pull i) else s

/-- Every outbound buffer empties into the hub (log entry 3: whenever device time moves on). -/
def State.drain (s : State) : State :=
  ((List.range 72).filter fun i => s.waits i).foldl (fun s i => State.pullAll i 9 s) s

/-! ## Counters that count time (spec/13_performance_counters.md R419 to R423) -/

/-- A counter of `w` bits at `v` that counts `per` a microsecond over `us` microseconds from time `t`: the times at
which it wraps. -/
def wrapTimes (w v per t us : Nat) : List Nat :=
  (List.range ((v + us * per) / 2 ^ w)).map fun i => t + ceilDiv ((i + 1) * 2 ^ w - v) per

/-- The core events that count cycles, as the core's state has them: EVT 0x01, 0x0F and 0x10 (R421). -/
def Core.cycleEvt (k : Core) (evt : Nat) : Bool := evt = 1 || (evt = 0x0F && !k.ie) || (evt = 0x10 && k.accept.isSome)

/-- The PRIV field of an EVSEL takes the core's privilege (R420). -/
def privOk (sel : W32) (k : Core) : Bool := fld sel 8 2 = 0 || fld sel 8 2 = 3 || (fld sel 8 2 = 1) == k.k

/-- Counts a microsecond of CYC[c], of core counter 6c + i, and of fabric counter `j` at EVT 0x01. -/
def State.cycRate (s : State) (c : Nat) : Nat :=
  if s.coreRuns && (vget (s.core.map Core.clocked) c false) then s.coreMHz else 0

def State.cntRate (s : State) (j : Fin 24) : Nat :=
  let k := s.core[j.val / 6]'(by omega)
  if bit s.pmc.ctl 0 && k.cycleEvt (fld s.pmc.evsel[j] 0 6) && privOk s.pmc.evsel[j] k then s.cycRate (j.val / 6) else 0

def State.fcntRate (s : State) (j : Fin 16) : Nat :=
  if s.isUp 1 && s.isUp 2 && bit s.pmc.ctl 0 && fld s.pmc.fevsel[j] 0 6 = 1 then 100 else 0

/-- The wraps of those counters over `us` microseconds: time, number of the counter, whether CNT_OVF is emitted. -/
def State.runWraps (s : State) (us : Nat) : List (Nat × Nat × Bool) :=
  (List.finRange 24).flatMap (fun j =>
    (wrapTimes 32 s.pmc.cnt[j] (s.cntRate j) s.now us).map fun t => (t, j.val, bit s.pmc.evsel[j] 12)) ++
  (List.finRange 4).flatMap (fun c =>
    (wrapTimes 48 s.pmc.cyc[c] (s.cycRate c.val) s.now us).map fun t => (t, 24 + c.val, true)) ++
  (List.finRange 16).flatMap (fun j =>
    (wrapTimes 32 s.pmc.fcnt[j] (s.fcntRate j) s.now us).map fun t => (t, 32 + j.val, bit s.pmc.fevsel[j] 12))

/-- Insertion by time. -/
def wrapInsert (x : Nat × Nat × Bool) : List (Nat × Nat × Bool) → List (Nat × Nat × Bool)
  | [] => [x]
  | y :: r => if x.1 ≤ y.1 then x :: y :: r else y :: wrapInsert x r

/-- Each wrap at its own time (R22, R423); its record goes on to the hub. -/
def State.emitWraps : List (Nat × Nat × Bool) → State → State
  | [], s => s
  | x :: r, s => State.emitWraps r (State.pullAll 1 9 (s.pmcWrapAt x.1 x.2.1 x.2.2))

/-- The cycle counters over the next `us` microseconds. -/
def State.pmcRun (s : State) (us : Nat) : State :=
  let s1 := s.modPmc fun p =>
    { p with
      cnt := Vector.ofFn fun j => (p.cnt[j] + us * s.cntRate j) % 2 ^ 32,
      cyc := Vector.ofFn fun c => (p.cyc[c] + us * s.cycRate c.val) % 2 ^ 48,
      fcnt := Vector.ofFn fun j => (p.fcnt[j] + us * s.fcntRate j) % 2 ^ 32 }
  State.emitWraps ((s.runWraps us).foldr wrapInsert []) s1

/-! ## Time moves on -/

/-- The mark of an upset, on its 32-bit word. -/
def upsetMarks : Option (Nat × Bool) → List (Nat × Bool)
  | none => []
  | some (a, d) => [(a - a % 4, d)]

/-- A memory upset may have happened meanwhile: a free value (log entry 7). -/
def State.upsets (s : State) : State :=
  { s with free := s.free + 1, ecc := upsetMarks (Config.upset s.free) ++ s.ecc }

/-- TMB runs: in every state except OFF, and not while the bus is down (R28). -/
def State.tmbRuns (s : State) : Bool := s.pwr.phase != .off && s.pwr.phase != .dead

/-- Device time becomes `t` if `t` lies ahead. Each wrap of the count on the way increments WRAPS and sets WRAPPED
(R29) and is logged by the Deputy (R546); outbound events reach the hub, cycles are counted, and a memory upset may
happen. -/
def State.advanceTo (s : State) (t : Nat) : State :=
  if s.tmbRuns && s.now < t then
    let w := t / 2 ^ 48 - s.now / 2 ^ 48
    let s1 := (s.drain.upsets).pmcRun (t - s.now)
    let s2 := s1.modTmb fun m => { m with now := t, wraps := satN 16 (m.wraps + w), wrapped := m.wrapped || 0 < w }
    s2.onlyIf (0 < w) State.logOwnFree
  else s

end Sys2Proof.Machine
end

