-- ==== Sys2Proof/Machine/Mem.lean ====
section
/-! DEFINITION. Memory: the code flash, the shared SRAM and bulk memory in one physical address space
(spec/01_architecture.md R36 to R41), with the error correction of R39. -/

namespace Sys2Proof.Machine

/-- First addresses of the memories (R36). -/
def flashB : Nat := 0x400000
def flashEnd : Nat := 0x800000
def sramBase : Nat := 0x1000000
def sramEnd : Nat := 0x1100000
def bulkBase : Nat := 0x2000000
def bulkEnd : Nat := 0x3000000
def regBase : Nat := 0x4000000
def regEnd : Nat := 0x4160000

/-- What an unlisted address reads as: erased flash all ones, SRAM and bulk memory zero (R599, R600; log entry 6). -/
def memDefault (a : Nat) : W8 := if a < flashEnd then 0xFF else 0

def isSram (a : Nat) : Bool := sramBase ≤ a && a < sramEnd
def isBulk (a : Nat) : Bool := bulkBase ≤ a && a < bulkEnd
def isFlash (a : Nat) : Bool := a < flashEnd
def isReg (a : Nat) : Bool := regBase ≤ a && a < regEnd

/-- One byte of memory, error correction aside. -/
def memGet (m : List Host.Cell) (a : Nat) : W8 := sget memDefault m a

def memSet (m : List Host.Cell) (a : Nat) (v : W8) : List Host.Cell := sset memDefault a v m

/-- The canonical form of memory. -/
abbrev Memory.wf (m : List Host.Cell) : Prop := swf memDefault m = true

/-- `n` bytes from `a`, little-endian (spec/00_scope.md, Conventions). -/
def memLoad (m : List Host.Cell) (a : Nat) : Nat → Nat
  | 0 => 0
  | n + 1 => (memGet m a).toNat + 256 * memLoad m (a + 1) n

/-- Store the low `n` bytes of `v` from `a`, little-endian. -/
def memStore (m : List Host.Cell) (a : Nat) (v : Nat) : Nat → List Host.Cell
  | 0 => m
  | n + 1 => memStore (memSet m a (BitVec.ofNat 8 v)) (a + 1) (v / 256) n

/-- Forget a range: it reads as its default again. -/
def memErase (m : List Host.Cell) (lo hi : Nat) : List Host.Cell := serase lo hi m

/-- Who accesses memory, as the ARG of R41 numbers it: 0 to 3 a core, 4 the Deputy, 5 a data-plane block. -/
abbrev Req := Nat

/-- Mark of the 32-bit word at `w`: no error, one bit, two bits. -/
def eccOf (marks : List (Nat × Bool)) (w : Nat) : Nat :=
  if marks.any (fun e => e.1 = w && e.2) then 2 else if marks.any (fun e => e.1 = w) then 1 else 0

/-- SYS counts a memory error of the word at `w` and records its address (R40). -/
def Sys.eccUpdate (y : Sys) (w : Nat) (ue : Bool) : Sys :=
  let sram := isSram w
  { y with
    ceSram := if sram && !ue then satN 16 (y.ceSram + 1) else y.ceSram,
    ueSram := if sram && ue then satN 16 (y.ueSram + 1) else y.ueSram,
    ceBulk := if !sram && !ue then satN 16 (y.ceBulk + 1) else y.ceBulk,
    ueBulk := if !sram && ue then satN 16 (y.ueBulk + 1) else y.ueBulk,
    eccAddr := pack [(0, 28, w), (28, 1, b2n ue), (29, 1, b2n sram)] }

/-- A transfer into the CORE island is held until its clock runs again, and requests a wake (R574, R588). -/
def State.coreHolds (s : State) : State := s.wakeReq 13

/-- Count and report a memory error of the word at `w` (R40, R41); with CORE in reset only the event reports it, and
with its clock stopped the update is held. -/
def State.eccReport (s : State) (w : Nat) (ue : Bool) (req : Req) : State :=
  let sram := isSram w
  let off := if sram then w - sramBase else w - bulkBase
  let arg := BitVec.ofNat 32 (off ||| (req <<< 24))
  let s1 :=
    if !s.isUp 1 || s.sup.coreReset then s
    else if s.coreGated then (s.modSys fun y => { y with held := y.held ++ [(w, ue)] }).coreHolds
    else s.modSys fun y => y.eccUpdate w ue
  if sram then s1.emit 1 (if ue then 0x52 else 0x51) arg
  else (s1.emit 2 (if ue then 0x49 else 0x48) arg).onlyIf (!ue) fun s => s.fabCount 0x06 0 1

/-- The held updates of SYS take place (R40). -/
def State.eccRelease (s : State) : State :=
  s.modSys fun y => { (y.held.foldl (fun y e => y.eccUpdate e.1 e.2) y) with held := [] }

/-- One access to bulk memory is counted (spec/13_performance_counters.md R422); a stream counts word by word, and
what it moves as bytes byte by byte (log entry 21). The HUB cycles for which it waits are free. -/
def State.bulkCount (s : State) (a : Nat) (req : Req) : State :=
  s.onlyIf (isBulk a) fun s =>
    let d := s.draw 16
    (d.2.fabCount 0x05 req 1).fabCount 0x03 req d.1

/-- Read the check bits of the word holding `a` for a requester (R39): a single-bit error is corrected, written back,
counted and reported; a double-bit error is counted, reported and answered `false`. -/
def State.eccRead (s : State) (a : Nat) (req : Req) : Bool × State :=
  let w := a - a % 4
  let s := s.bulkCount a req
  if isSram a || isBulk a then
    match eccOf s.ecc w with
    | 0 => (true, s)
    | 1 => (true, ({ s with ecc := s.ecc.filter fun e => e.1 ≠ w }).eccReport w false req)
    | _ => (false, s.eccReport w true req)
  else (true, s)

/-- Check the words of `n` bytes from `a`, one check for each word. -/
def State.eccRange (req : Req) : Nat → Nat → State → Bool × State
  | _, 0, s => (true, s)
  | a, n + 1, s =>
    let r := s.eccRead a req
    let t := State.eccRange req (a + 4) n r.2
    (r.1 && t.1, t.2)

/-- Store bytes: a byte or 16-bit store reads its word first and writes nothing on a double-bit error; a 32-bit store
replaces the word with valid check bits (R39). -/
def State.storeBytes (s : State) (a v n : Nat) (req : Req) : Bool × State :=
  if n = 4 then
    let s := s.bulkCount a req
    (true, { s with mem := memStore s.mem a v 4, ecc := s.ecc.filter fun e => e.1 ≠ a - a % 4 })
  else
    let r := s.eccRead a req
    if r.1 then (true, { r.2 with mem := memStore r.2.mem a v n }) else r

/-- Load bytes within one word. -/
def State.loadBytes (s : State) (a n : Nat) (req : Req) : Bool × Nat × State :=
  let r := s.eccRead a req
  (r.1, memLoad r.2.mem a n, r.2)

/-- Store a list of 32-bit words from an aligned address. -/
def State.storeWords (req : Req) : Nat → List Nat → State → State
  | _, [], s => s
  | a, v :: r, s => State.storeWords req (a + 4) r (s.storeBytes a v 4 req).2

/-- Store bytes one by one over whatever words they lie in, as a data-plane block writing a stream. -/
def State.storeStream (req : Req) : Nat → List W8 → State → State
  | _, [], s => s
  | a, v :: r, s => State.storeStream req (a + 1) r (s.storeBytes a v.toNat 1 req).2

/-- The bytes of a stream. -/
def State.streamOf (s : State) (a n : Nat) : List W8 := (List.range n).map fun i => memGet s.mem (a + i)

/-- Bulk memory answers: the HUB runs and its initialisation has ended (R600). -/
def State.bulkOk (s : State) : Bool := s.isUp 2 && s.pwr.bulkRdy

end Sys2Proof.Machine
end

