-- ==== Sys2Proof/Machine/CurveOps.lean ====
section
/-! DEFINITION. The curve store (spec/04_current_digitisers.md R148 to R157). -/

namespace Sys2Proof.Machine

/-- Entry `i` of the curve store. -/
def Curve.get (c : Curve) (i : Nat) : W32 := sget (fun _ => 0) c.ent i

/-- Entries `base .. base + len - 1`. -/
def Curve.range (c : Curve) (base len : Nat) : List W32 := (List.range len).map fun i => c.get (base + i)

/-- A store to entry `i`: ignored on a protected page, with LOCK_VIOL and VIOL_IDX (R151). A block copying over the
entry restarts its copy (R150), which then ends with the new contents. -/
def State.curveWrite (s : State) (i : Nat) (v : W32) : State :=
  if bit s.curve.lock (i / 256) then
    s.modCurve fun c => { c with lockViol := true, violIdx := i }
  else s.modCurve fun c => { c with ent := sset (fun _ => 0) i v c.ent }

/-- The entries of the derating curve at `base`: up to 32, ending at LAST; `none` for one that reaches entry 4,095
without ending (R154). `fuel` counts the entries left. -/
def Curve.derateList (c : Curve) : Nat → Nat → Option (List W32)
  | _, 0 => some []
  | i, n + 1 =>
    let e := c.get i
    if bit e 31 || n = 0 then some [e]
    else if 4095 ≤ i then none
    else (c.derateList (i + 1) n).map (e :: ·)

/-- TEMP of a derating entry in degrees, and FACTOR in 1/2,048. -/
def derTemp (e : W32) : Rat := (sext 12 (fld e 0 12) : Int) / 8
def derFactor (e : W32) : Int := (fld e 16 12 : Nat)

/-- The temperatures strictly increase. -/
def derRising : List W32 → Bool
  | a :: b :: r => decide (derTemp a < derTemp b) && derRising (b :: r)
  | _ => true

/-- Interpolation between the entries (R155). -/
def derEval (t : Rat) : List W32 → Int
  | [] => 0
  | [a] => derFactor a
  | a :: b :: r =>
    if t ≤ derTemp a then derFactor a
    else if t < derTemp b then
      derFactor a + truncQ ((derFactor b - derFactor a : Int) * (t - derTemp a) / (derTemp b - derTemp a))
    else derEval t (b :: r)

/-- Derating factor at `base` for temperature `t`, in 1/2,048; `none` for a bad curve (R155). -/
def Curve.derate (c : Curve) (base : Nat) (t : Rat) : Option Int :=
  match c.derateList base 32 with
  | none => none
  | some l => if derRising l then some (derEval t l) else none

/-- Brightness `b` through a dimming curve of 65 entries (R156): the whole mapped value, in quarters, truncated. -/
def dimDuty (ent : List W32) (b : Nat) : Nat :=
  let d (i : Nat) : Nat := fld (ent.getD i 0) 0 12
  (d (b / 4) * (4 - b % 4) + d (b / 4 + 1) * (b % 4)) / 4

/-- The CURVE block read at an offset (R157). -/
def Curve.read (c : Curve) (off : Nat) : W32 :=
  if off < 0x4000 then c.get (off / 4)
  else if off = 0x4000 then c.lock
  else if off = 0x4004 then
    pack [(0, 1, b2n c.lockViol), (1, 1, b2n c.badCurve), (2, 12, c.badIdx), (16, 12, c.violIdx)]
  else 0

/-- A store into the CURVE block. -/
def State.curveBlockWrite (s : State) (off : Nat) (v : W32) : State :=
  if off < 0x4000 then s.curveWrite (off / 4) v
  else if off = 0x4000 then s.modCurve fun c => { c with lock := keep 0xFFFF v }
  else if off = 0x4004 then
    s.modCurve fun c => { c with lockViol := c.lockViol && !bit v 0, badCurve := c.badCurve && !bit v 1 }
  else s

end Sys2Proof.Machine
end

