-- ==== Sys2Proof/Machine/Digitiser.lean ====
section
/-! DEFINITION. Current digitisers, calibration, captures and snaps, shared by the high-side, valve and lamp
digitisers (spec/04_current_digitisers.md R112 to R134). -/

namespace Sys2Proof.Machine

/-- Full-scale current of a digitiser, mA (R112). -/
def fsOf (t : Nat) : Nat :=
  if t < 32 then 12000 else if t < 44 then 30000 else if t < 48 then 60000 else if t < 64 then 10000 else 2000

/-- Island of a target (R112). -/
def islOf (t : Nat) : Nat := if t < 48 then 24 + t else if t < 64 then 20 + (t - 48) / 4 else 17 + (t - 64)

/-- Bits that mark the channel within its group in a valve group's events (R234); nothing elsewhere. -/
def chTag (t : Nat) : Nat := if 48 ≤ t ∧ t < 64 then (t % 4) <<< 28 else 0

def hsOn (c : HsSt) : Bool := c == .inrush || c == .on
def vdOn (c : VdSt) : Bool := c == .peak || c == .hold || c == .prop
def lsOn (c : LsSt) : Bool := c == .ramp || c == .on

/-- The digitised switch is on (R129, R204, R262). -/
def State.swOf (s : State) (t : Nat) : Bool :=
  if t < 48 then (vget (s.hs.map fun h => hsOn h.st) t false)
  else if t < 64 then (vget (s.vd.map fun v => vdOn v.st) (t - 48) false)
  else (vget (s.ls.map fun l => lsOn l.st) (t - 64) false)

/-- A ZERO is possible: switch off and no clamp running (R120, R204, R262). -/
def State.zeroOk (s : State) (t : Nat) : Bool :=
  if t < 48 then vget (s.hs.map fun h => !hsOn h.st && h.clamp.isNone) t false
  else if t < 64 then
    vget (s.vd.map fun v => v.decayDone && (v.st == .disabled || v.st == .idle || v.st == .gap || v.st == .latched))
      (t - 48) false
  else vget (s.ls.map fun l => !lsOn l.st && l.st != .pending) (t - 64) false

/-- The digitiser's island is powered and it is not stopped in DEEP (R113). -/
def State.digRuns (s : State) (t : Nat) : Bool := s.isUp (islOf t) && s.pwr.phase != .deep

/-- Junction or island temperature a digitiser uses, 1/16 of a degree (R119). -/
def State.tjOf (s : State) (t : Nat) : Int :=
  if t < 48 then vget (s.hs.map fun h => h.tj) t 0
  else if t < 64 then vget (s.vg.map fun g => g.tj) ((t - 48) / 4) 0
  else vget (s.ls.map fun l => l.tj) (t - 64) 0

/-- One step of thermal-cycle counting: last minimum, maximum once a rise of 40 K is complete, count (R93, R94). -/
def thermStep (tj tMin : Int) (tMax : Option Int) (cyc : Nat) : Int × Option Int × Nat :=
  match tMax with
  | none =>
    if tj < tMin then (tj, none, cyc) else if 640 ≤ tj - tMin then (tMin, some tj, cyc) else (tMin, none, cyc)
  | some m =>
    if 640 ≤ m - tj then (tj, none, satN 32 (cyc + 1)) else (tMin, some (max m tj), cyc)

/-- Write the island's temperature register and count thermal cycles (R93, R232). -/
def State.setTj (s : State) (t : Fin 67) (tj : Int) : State :=
  if h : t.val < 48 then
    s.modHs ⟨t.val, h⟩ fun c =>
      let r := thermStep tj c.tMin c.tMax c.thermCyc
      { c with tj := tj, tMin := r.1, tMax := r.2.1, thermCyc := r.2.2 }
  else if h : t.val < 64 then
    s.modVg ⟨(t.val - 48) / 4, by omega⟩ fun c =>
      let r := thermStep tj c.tMin c.tMax c.thermCyc
      { c with tj := tj, tMin := r.1, tMax := r.2.1, thermCyc := r.2.2 }
  else s.modLs ⟨t.val - 64, by omega⟩ fun c => { c with tj := tj }

/-- OFFS(Tj) (R119). -/
def Dig.offs (d : Dig) (tj : Int) : Rat :=
  (d.offs25 : Rat) + ((d.offs85 - d.offs25 : Int) : Rat) * ((tj : Rat) / 16 - 25) / 60

/-- c_cal (R114). -/
def Dig.cal (d : Dig) (raw tj : Int) : Nat :=
  (clampI 0 16383 (roundQ (((raw : Rat) - d.offs tj + (d.trim : Rat)) * ((d.gain : Rat) / 32768)))).toNat

/-- A current in mA (R115). -/
def maOf (fs code : Nat) : Nat := roundDiv (code * fs) 16384

/-- Calibration loaded at island power-up: the OTP record, or the default of R118 with CAL_ERR. -/
def Dig.load (t : Nat) (o : OtpRec) : Dig :=
  if o.ok then { Dig.initOf t with gain := o.gain, offs25 := o.offs25, offs85 := o.offs85 }
  else { Dig.initOf t with calErr := true }

/-- The count at time `t`, the next multiple of `p` after it, and the end of the count's run, as times: the islands'
copies are 48 bits and start anew at a wrap (R23, R29). -/
def nextMultiple (p t : Nat) : Nat := t - t % 2 ^ 48 + min (2 ^ 48) ((t % 2 ^ 48 / p + 1) * p)

/-- Time `t` is a multiple of `p` in the 48-bit count. -/
def isMultiple (p t : Nat) : Bool := t % 2 ^ 48 % p = 0

/-- Power-up of a digitiser at the present time: calibration from OTP, CAL_ERR emitted when the record fails (R118). -/
def State.calLoad (s : State) (t : Fin 67) : State :=
  let o := s.otp[t]
  let s1 := s.modDig t fun _ => { Dig.load t.val o with at_ := s.now, msEnd := nextMultiple 1000 s.now }
  if o.ok then s1 else s1.emit (islOf t.val) 0x25 (BitVec.ofNat 32 (chTag t.val))

/-! ## Captures -/

/-- CAP_DONE (R131). -/
def State.capDone (s : State) (t : Fin 67) : State :=
  let c := s.dig[t].cap
  s.emit (islOf t.val) 0x22
    (BitVec.ofNat 32 (c.count ||| (b2n c.trunc <<< 16) ||| (b2n c.abort <<< 17) ||| chTag t.val))

/-- Effective LEN, PRE, DEC, TRG of the armed capture. -/
def Capture.lenN (c : Capture) : Nat := fld c.aLen 0 16
def Capture.preN (c : Capture) : Nat := fld c.aLen 16 8
def Capture.decN (c : Capture) : Nat := fld c.aCfg 8 3
def Capture.trg (c : Capture) : Nat := fld c.aCfg 0 3

/-- A complete record enters the capture (R129 to R132); `true` when it ends the capture by a full buffer. With `go`
false MEAS has stopped for an entry and no capture starts (R580). The timestamp of the triggering record is the time of
its last sample: the model's choice for a DEC above 0 (log entry 43). -/
def Capture.record (c : Capture) (code ma : Nat) (clip sw : Bool) (t : Nat) (go : Bool) : Capture × Bool :=
  let r : W16 := BitVec.ofNat 16 (code % 16384 ||| (b2n sw <<< 14) ||| (b2n clip <<< 15))
  match c.st with
  | .armed =>
    let thr := fld c.aCfg 16 16
    if go && (c.trig || (c.trg = 4 && thr < ma) || (c.trg = 5 && ma < thr)) then
      ({ c with
          st := .running, trig := false, preGot := c.pre.length, pre := [], buf := c.pre ++ [r],
          taken := c.pre.length + 1, time := t }, false)
    else
      let p := c.pre ++ [r]
      ({ c with pre := p.drop (p.length - c.preN) }, false)
  | .running =>
    if c.lenN ≤ c.taken then (c, false)
    else if 256 ≤ c.buf.length then ({ c with st := .done, trunc := true, buf := [] }, true)
    else ({ c with buf := c.buf ++ [r], taken := c.taken + 1 }, false)
  | _ => (c, false)

/-- One sample enters the capture: 2^DEC samples make a record (R130). -/
def Capture.sample (c : Capture) (fs code : Nat) (clip sw : Bool) (t : Nat) (go : Bool) : Capture × Bool :=
  if c.st == .armed || c.st == .running then
    let n := c.n + 1
    let sum := c.sum + code
    let cl := c.clip || clip
    if 2 ^ c.decN ≤ n then
      let m := roundDiv sum n
      Capture.record { c with n := 0, sum := 0, clip := false } m (maOf fs m) cl sw t go
    else ({ c with n := n, sum := sum, clip := cl }, false)
  else (c, false)

/-- A switch event or FAULT event triggers an armed capture of that TRG (R129): 1 switch-on, 2 switch-off, 3 FAULT,
6 global trigger. While MEAS has stopped for an entry none counts (R580). -/
def State.capTrigger (s : State) (t : Fin 67) (trg : Nat) : State :=
  s.modDig t fun d =>
    if !s.isStopped 9 && d.cap.st == .armed && d.cap.trg = trg then { d with cap := { d.cap with trig := true } } else d

/-- ARM (R128, R133): refused while RUNNING, CFG_ERR for a bad setting, which leaves the capture IDLE from ARMED and
DONE as well: the model's choice (log entry 43). -/
def State.capArm (s : State) (t : Fin 67) : State :=
  s.modDig t fun d =>
    let c := d.cap
    let len := fld c.len 0 16
    let pre := fld c.len 16 8
    let off := fld c.addr 0 24
    if c.st == .running then { d with cmdRes := 2 }
    else if len = 0 || len ≤ pre || off % 32 != 0 || 0x1000000 < off + 2 * len then
      { d with cmdRes := 3, cap := { c with st := .idle } }
    else
      { d with cmdRes := 0, cap := { c with
          aCfg := c.cfg, aAddr := c.addr, aLen := c.len, st := .armed, trunc := false, abort := false, preGot := 0,
          count := 0, trig := false, taken := 0, pre := [], buf := [], n := 0, sum := 0, clip := false } }

/-- Records stored as 16-bit little-endian words, two to a 32-bit store (R130, R131). -/
def State.storeRecs : Nat → List W16 → State → State
  | a, x :: y :: r, s => State.storeRecs (a + 4) r (s.storeBytes a (x.toNat + 65536 * y.toNat) 4 5).2
  | a, [x], s => (s.storeBytes a x.toNat 2 5).2
  | _, [], s => s

/-- Write the first `k` buffered records of a capture to bulk memory. -/
def State.capWrite (s : State) (t : Fin 67) (k : Nat) : State :=
  let c := s.dig[t].cap
  let rs := c.buf.take k
  let s1 := State.storeRecs (bulkBase + fld c.aAddr 0 24 + 2 * c.count) rs s
  s1.modDig t fun d => { d with cap := { d.cap with buf := d.cap.buf.drop k, count := d.cap.count + rs.length } }

/-- One burst of 32 bytes, or the final partial burst; the capture is DONE when LEN records are written (R131). -/
def State.capBurst (s : State) (t : Fin 67) : State :=
  let c := s.dig[t].cap
  if s.bulkOk && c.st == .running && (16 ≤ c.buf.length || (c.lenN ≤ c.taken && !c.buf.isEmpty)) then
    let s1 := s.capWrite t 16
    let c1 := s1.dig[t].cap
    if c1.lenN ≤ c1.count then
      (s1.modDig t fun d => { d with cap := { d.cap with st := .done } }).capDone t
    else s1
  else s

/-- DISARM (R133): an armed capture returns to IDLE; a running one ends with ABORT, its buffered records written. -/
def State.capDisarm (s : State) (t : Fin 67) : State :=
  let c := s.dig[t].cap
  match c.st with
  | .armed => s.modDig t fun d => { d with cmdRes := 0, cap := { d.cap with st := .idle, trig := false, pre := [] } }
  | .running =>
    let s1 := if s.bulkOk then s.capWrite t 256 else s
    (s1.modDig t fun d =>
      { d with cmdRes := 0, cap := { d.cap with st := .done, abort := true, buf := [] } }).capDone t
  | _ => s.modDig t fun d => { d with cmdRes := 0 }

/-- TRIG: an armed capture triggers under every TRG value (R129). -/
def State.capTrig (s : State) (t : Fin 67) : State :=
  s.modDig t fun d =>
    { d with cmdRes := 0, cap := if d.cap.st == .armed then { d.cap with trig := true } else d.cap }

/-! ## ZERO -/

/-- The ZERO command (R120). -/
def State.zeroCmd (s : State) (t : Fin 67) : State :=
  if s.zeroOk t.val && !s.dig[t].zeroBusy && s.digRuns t.val then
    s.modDig t fun d => { d with zeroBusy := true, zeroFail := false, zeroN := 0, zeroSum := 0, cmdRes := 0 }
  else s.modDig t fun d => { d with cmdRes := 2 }

/-- A switch-on, clamp or stop during a ZERO ends it with TRIM unchanged (R121). -/
def State.zeroAbort (s : State) (t : Fin 67) : State :=
  s.modDig t fun d => if d.zeroBusy then { d with zeroBusy := false, zeroFail := true } else d

/-- End of a ZERO after 256 samples: TRIM, ZERO_BUSY clear, ZERO_DONE (R120). -/
def State.zeroDone (s : State) (t : Fin 67) : State :=
  let d := s.dig[t]
  if d.zeroBusy && 256 ≤ d.zeroN then
    let trim := clampI (-8192) 8191 (-(roundQ (d.zeroSum / 256)))
    (s.modDig t fun d => { d with zeroBusy := false, trim := trim }).emit (islOf t.val) 0x26
      (BitVec.ofNat 32 (scode 14 trim ||| chTag t.val))
  else s

/-! ## Samples -/

/-- Published values of one sample (R115, R122, R123, R124, R126). -/
def Dig.publish (d : Dig) (t fs code : Nat) (sw : Bool) : Dig :=
  let i := maOf fs code
  let n := d.winN + 1
  let sum := d.winSum + i
  let full := 2 ^ d.winW ≤ n
  let newMs := decide (d.msEnd ≤ t)
  { d with
    i := i, code := code, clip := code == 16383, sw := sw, at_ := t,
    avg := if full then roundDiv sum n else d.avg,
    winN := if full then 0 else n, winSum := if full then 0 else sum,
    winW := if full then fld d.ctl 0 4 else d.winW,
    peak := max d.peak i, last := (i :: d.last).take 50,
    msEnd := if newMs then nextMultiple 1000 t else d.msEnd, msN := if newMs then 1 else d.msN + 1, msSum := if newMs then i else d.msSum + i }

/-- The part of a sample that every digitiser shares: temperature, calibration, publication, ZERO and capture. -/
def State.sample (s : State) (t : Fin 67) (raw tj : Int) : State :=
  let s1 := s.setTj t tj
  let d := s1.dig[t]
  let code := d.cal raw tj
  let sw := s1.swOf t.val
  let d1 := d.publish s1.now (fsOf t.val) code sw
  let d2 := if d1.zeroBusy && d1.zeroN < 256 then
      { d1 with zeroN := d1.zeroN + 1, zeroSum := d1.zeroSum + ((raw : Rat) - d.offs tj) } else d1
  let r := d2.cap.sample (fsOf t.val) code (code == 16383) sw s1.now (!s1.isStopped 9)
  let s2 := s1.modDig t fun _ => { d2 with cap := r.1 }
  if r.2 then s2.capDone t else s2

/-- The 1 ms mean goes to ADM (R124). -/
def State.msSend (s : State) (t : Fin 67) : State :=
  let s1 := s.advanceTo s.dig[t].msEnd
  let d := s1.dig[t]
  if s1.digRuns t.val && 0 < d.msN then
    let m : Rat := (d.msSum : Rat) / d.msN
    (s1.modDig t fun d => { d with msN := 0, msSum := 0, msEnd := nextMultiple 1000 s1.now, msMean := m }).toAdm
      (.current t.val m)
  else s1

/-! ## Snap and global trigger (R126, R127) -/

/-- Effective SNAP_DELAY. -/
def MeasC.delay (m : MeasC) : Nat := clampN 10 1000 (fld m.snapDelay 0 10)

/-- A write of SNAP_CMD: T_s, and the request to every powered digitiser; it replaces an earlier one still waiting. -/
def State.snapCmd (s : State) (snap gtrig : Bool) : State :=
  if snap || gtrig then
    let ts := s.now + s.meas.delay
    let s1 := { s with meas := { s.meas with snapTime := ts } }
    forFin 67 (fun t s => s.onlyIf (s.digRuns t.val) fun s =>
      s.modDig t fun d => { d with snapReq := some (ts, snap, gtrig) }) s1
  else s

/-- A digitiser reaches T_s, or receives the snap late (R126, R127). -/
def State.snapLatch (s : State) (t : Fin 67) (late : Bool) : State :=
  match s.dig[t].snapReq with
  | none => s
  | some (ts, snap, gtrig) =>
    let s1 := s.advanceTo ts
    if s1.digRuns t.val then
      let s2 := s1.modDig t fun d =>
        let d1 := { d with snapReq := none }
        if snap then
          { d1 with snap := roundDiv (d.last.foldl (· + ·) 0) d.last.length, snapLate := late } else d1
      if gtrig then s2.capTrigger t 6 else s2
    else s1

/-! ## Registers -/

/-- MEAS_STAT without R_VALID (R146). -/
def Dig.stat (d : Dig) (rValid : Bool) : W32 :=
  pack [(0, 1, b2n d.zeroBusy), (1, 1, b2n d.zeroFail), (2, 1, b2n d.calErr), (3, 1, b2n rValid),
    (4, 1, b2n d.snapLate), (14, 2, d.cmdRes)]

def CapSt.code : CapSt → Nat
  | .idle => 0 | .armed => 1 | .running => 2 | .done => 3

/-- The registers every digitiser has, at the offsets of R146; others read 0. -/
def Dig.read (d : Dig) (off : Nat) (rValid : Bool) : W32 :=
  match off with
  | 0x80 => d.ctl
  | 0x88 => d.stat rValid
  | 0x8C => pack [(0, 16, d.i), (16, 14, d.code), (30, 1, b2n d.clip), (31, 1, b2n d.sw)]
  | 0x90 => pack [(0, 16, d.avg), (16, 16, d.snap)]
  | 0x94 => pack [(0, 16, d.peak)]
  | 0xD4 => d.cap.cfg
  | 0xD8 => d.cap.addr
  | 0xDC => d.cap.len
  | 0xE0 => pack [(0, 2, d.cap.st.code), (2, 1, b2n d.cap.trunc), (3, 1, b2n d.cap.abort), (8, 8, d.cap.preGot),
      (16, 16, d.cap.count)]
  | 0xE4 => pack [(0, 32, d.cap.time)]
  | 0xE8 => pack [(0, 16, d.cap.time / 2 ^ 32)]
  | 0xEC => pack [(0, 16, d.gain)]
  | 0xF0 => pack [(0, 14, scode 14 d.offs25), (16, 14, scode 14 d.offs85)]
  | 0xF4 => pack [(0, 14, scode 14 d.trim)]
  | _ => 0

/-- A store to one of those registers; `ctlMask` is the stored part of MEAS_CTL. A TRIM written while a ZERO runs acts
from the next sample, and the ZERO overwrites it: the model's choice (log entry 43). -/
def State.digWrite (s : State) (t : Fin 67) (off : Nat) (v : W32) (ctlMask : Nat) : State :=
  match off with
  | 0x80 => s.modDig t fun d => { d with ctl := keep ctlMask v }
  | 0x84 =>
    if s.isStopped 9 then s else
    (((s.onlyIf (bit v 0) fun s => s.zeroCmd t).onlyIf (bit v 1) fun s => s.capArm t).onlyIf (bit v 2)
      fun s => s.capDisarm t).onlyIf (bit v 3) fun s => s.capTrig t
  | 0xD4 => s.modDig t fun d => { d with cap := { d.cap with cfg := keep 0xFFFF0707 v } }
  | 0xD8 => s.modDig t fun d => { d with cap := { d.cap with addr := keep 0xFFFFFF v } }
  | 0xDC => s.modDig t fun d => { d with cap := { d.cap with len := keep 0xFFFFFF v } }
  | 0xF4 => s.modDig t fun d => { d with trim := sext 14 (fld v 0 14) }
  | _ => s

end Sys2Proof.Machine
end

