-- ==== Sys2Proof/Machine/Estimators.lean ====
section
/-! DEFINITION. Load-health estimators of the high-side channels: inrush and settling, steady periods, ripple,
trends (spec/04_current_digitisers.md R135 to R144, R661). -/

namespace Sys2Proof.Machine

/-- Change the estimators of channel `n`. -/
def State.modEst (s : State) (n : Fin 48) (f : Est → Est) : State := s.modHs n fun h => { h with est := f h.est }

/-- A settling search starts at time `t` (R135); `inr` clears INR_RES as a switch-on does, R661 leaves it. -/
def Est.begin (e : Est) (t : Nat) (inr : Bool) : Est :=
  { e with
    iPk := if inr then 0 else e.iPk, tPk := if inr then 0 else e.tPk, tSettle := 0, valid := false,
    unsettled := false, search := true, start := t, follow := inr, winI := 0, winN := 0, winSum := 0, means := [],
    steady := false }

/-- Search and steady periods end with the switch or the digitiser (R137, R138). -/
def Est.stop (e : Est) : Est := { e with search := false, follow := false, steady := false }

/-- BAND of R146: 0 acts as 1, above 100 as 100. -/
def bandOf (ctl : W32) : Nat := clampN 1 100 (fld ctl 8 7)

def maxQ : List Rat → Rat
  | [] => 0
  | [a] => a
  | a :: r => max a (maxQ r)

def minQ : List Rat → Rat
  | [] => 0
  | [a] => a
  | a :: r => min a (minQ r)

def sumQ (l : List Rat) : Rat := l.foldl (· + ·) 0

/-- Sixteen consecutive window means lie within BAND per cent of their mean (R136). -/
def settledRun (band : Nat) (ms : List Rat) : Bool :=
  ms.length = 16 && decide (100 * (maxQ ms - minQ ms) ≤ (band : Rat) * (sumQ ms / 16))

/-- A steady period starts at `t` (R138, R140). -/
def Est.openPeriod (e : Est) (t : Nat) : Est :=
  { e with
    steady := true, perAt := t, perN := 0, perSum := 0, vN := 0, vSum := 0, iRef := e.iSteady, ripHigh := false,
    ripN := 0, ripHi := 0, ripLo := 65535 }

/-- A valid value of a quantity counts for this hour (R142). -/
def Trend.take (q : Trend) (v : Nat) : Trend := { q with n := q.n + 1, sum := q.sum + v }

/-- The window of 1 ms closes; a qualifying run ends the search (R136). Answers whether it settled. -/
def Est.closeWindow (e : Est) (band next : Nat) : Est × Bool :=
  let ms := if e.winN = 0 then [] else (((e.winSum : Rat) / e.winN) :: e.means).take 16
  if settledRun band ms then
    let i := (roundQ (sumQ ms / 16)).toNat
    ({ e.openPeriod (e.start + (e.winI + 1) * 1000) with
        search := false, follow := false, tSettle := e.winI - 15, valid := true, iSteady := i, iRef := i,
        tI := e.tI.take i, means := [] }, true)
  else
    ({ e with
        winI := next, winN := 0, winSum := 0, means := if next = e.winI + 1 then ms else [] }, false)

/-- Ripple counting on one sample of a steady period (R140). -/
def Est.ripple (e : Est) (i : Nat) : Est :=
  let h : Int := 10 * (max 1 (fld e.ripCfg 8 8) : Nat)
  let d : Int := (i : Int) - (e.iRef : Int)
  let up := !e.ripHigh && decide (h < d)
  let high := if up then true else if e.ripHigh && decide (d < -h) then false else e.ripHigh
  { e with ripHigh := high, ripN := e.ripN + b2n up, ripHi := max e.ripHi i, ripLo := min e.ripLo i }

/-- The window in progress closes if time `t` lies beyond it (R135, R136); answers whether the search settled. -/
def Est.windowTo (e : Est) (ctl : W32) (t : Nat) : Est × Bool :=
  let w := (t - e.start) / 1000
  if e.search && w ≠ e.winI then e.closeWindow (bandOf ctl) w else (e, false)

/-- One sample of current `i` at time `t` enters the estimators (R135, R136, R138, R140); answers whether the search
settled with it. -/
def Est.sample (e : Est) (ctl : W32) (t i : Nat) : Est × Bool :=
  let r := e.windowTo ctl t
  let e1 := r.1
  let e2 := if e1.search then { e1 with winN := e1.winN + 1, winSum := e1.winSum + i } else e1
  let e3 := if e2.follow && e2.iPk < i then { e2 with iPk := i, tPk := satN 16 ((t - e.start) / 20) } else e2
  let e4 := if e3.steady && e3.perAt ≤ t then
      let e' := { e3 with perN := e3.perN + 1, perSum := e3.perSum + i }
      if bit ctl 4 then e'.ripple i else e'
    else e3
  (e4, r.2)

/-- New estimators of a channel; SETTLED, when the search has settled, is stamped with the end of the qualifying run
(R136, R145). -/
def State.putEst (s : State) (n : Fin 48) (r : Est × Bool) : State :=
  let s1 := s.modEst n fun _ => r.1
  if r.2 then
    s1.emitAt r.1.perAt (islHs n) 0x20 (pack [(0, 16, r.1.tSettle), (16, 16, r.1.iSteady)])
  else s1

/-- The part of a sample that belongs to a high-side channel's estimators (R136). The first sample of a digitiser that starts again with its switch on begins a new search
(R661). -/
def State.estSample (s : State) (n : Fin 48) : State :=
  let d := s.dig[tHs n]
  let e0 := s.hs[n].est
  let e := if d.last.length = 1 && hsOn s.hs[n].st && !e0.search then e0.begin s.now false else e0
  s.putEst n (e.sample d.ctl s.now d.i)

/-- A settling search still running at 65,535 ms ends with UNSETTLED (R137). -/
def State.settleTimeout (s : State) (n : Fin 48) : State :=
  let e := s.hs[n].est
  if e.search && s.digRuns n.val then
    let s1 := s.advanceTo (e.start + 65535000)
    let m : Rat := if 0 < e.winN then (e.winSum : Rat) / e.winN else s1.dig[tHs n].msMean
    (s1.modEst n fun e => { e with search := false, follow := false, unsettled := true }).emit (islHs n) 0x21
      (pack [(0, 16, (roundQ m).toNat)])
  else s

/-- Ripple results of a period (R140): f_rip, speed, pp, valid. -/
def Est.ripResult (e : Est) : Nat × Nat × Nat × Bool :=
  let f := roundDiv (e.ripN * 10000) 1024
  let speed := roundDiv (f * 6) (max 1 (fld e.ripCfg 0 6))
  let pp := e.ripHi - e.ripLo
  (f, speed, pp, decide (10 * fld e.ripBand 0 16 ≤ f) && decide (f ≤ 10 * fld e.ripBand 16 16)
    && decide (2 * (10 * max 1 (fld e.ripCfg 8 8)) ≤ pp))

/-- Pad voltage of a mean code, mV: 62.5 mV a step (R125). -/
def padMv (sum n : Nat) : Nat := roundDiv (sum * 125) (2 * n)

/-- A steady period closes (R138, R139, R141). -/
def Est.closePeriod (e : Est) (fs t : Nat) (rip : Bool) : Est :=
  let i := roundDiv e.perSum e.perN
  let v := padMv e.vSum e.vN
  let big := fs ≤ 50 * i && 0 < i
  let rl := roundDiv (v * 1000) i
  let e1 := { e with
    iSteady := i, vMean := v, rLoad := if big then satN 32 rl else e.rLoad, rValid := big,
    tI := if e.valid then e.tI.take i else e.tI,
    tR := if big then e.tR.take (roundDiv (satN 32 rl) 10) else e.tR }
  let e2 := if rip then
      let r := e.ripResult
      { e1 with
        fRip := satN 16 r.1, speed := satN 16 r.2.1, pp := satN 16 r.2.2.1, ripValid := r.2.2.2,
        tF := if r.2.2.2 then e1.tF.take (satN 16 r.1) else e1.tF }
    else e1
  e2.openPeriod t

/-- STEADY_PERIOD_CLOSE (R138): every 1,024,000 us after settling while the switch stays on; RIP_LOST when the ripple
validity falls (R141). -/
def State.steadyClose (s : State) (n : Fin 48) : State :=
  let e := s.hs[n].est
  if e.steady && s.digRuns n.val && hsOn s.hs[n].st then
    let s1 := s.advanceTo (e.perAt + 1024000)
    let rip := bit s1.dig[tHs n].ctl 4
    let e1 := e.closePeriod (fsOf n.val) (e.perAt + 1024000) rip
    let s2 := s1.modEst n fun _ => e1
    if e.ripValid && rip && !e1.ripValid then s2.emit (islHs n) 0x24 (pack [(0, 16, e.fRip)]) else s2
  else s

/-- When the next pad sample of a channel is due: at this moment if it is a multiple of 1,000 us of the island's copy at
which the channel has not sampled yet, else at the next one (R125). -/
def Est.padDue (e : Est) (t : Nat) : Nat :=
  if isMultiple 1000 t && e.padAt != some t then t else nextMultiple 1000 t

/-- A pad-voltage conversion (R125) of `mv` millivolts; below 0 V it reads 0. A steady period that has begun by then
takes it in (R138). -/
def State.padSample (s : State) (n : Fin 48) (mv : Int) : State :=
  let s1 := s.advanceTo (s.hs[n].est.padDue s.now)
  if s1.digRuns n.val then
    let c := (clampI 0 1023 (roundQ ((mv : Rat) * 2 / 125))).toNat
    let s2 := s1.putEst n (s1.hs[n].est.windowTo s1.dig[tHs n].ctl s1.now)
    s2.modEst n fun e => { e with padAt := some s2.now, vCode := c, vN := e.vN + 1, vSum := e.vSum + c }
  else s1

/-- The hourly update of one quantity (R142). -/
def Trend.hour (q : Trend) (a b : Nat) : Trend :=
  if q.n = 0 then q
  else
    let h : Int := (q.sum * 256 / q.n : Nat)
    let sh : Int := if q.valid then q.short + (h - q.short) / (2 ^ a : Nat) else h
    let lg : Int := if q.valid then q.long + (h - q.long) / (2 ^ b : Nat) else h
    let dv := if lg = 0 then 0 else clampI (-512) 511 (truncQ (((sh - lg) * 256 : Int) / (lg : Rat)))
    { short := sh.toNat, long := lg.toNat, dev := dv, valid := true, n := 0, sum := 0 }

/-- Update one quantity if enabled, and emit TREND above the limit (R142, R145). -/
def State.trendOne (s : State) (n : Fin 48) (q : Nat) (en : Bool) (get : Est → Trend)
    (put : Est → Trend → Est) : State :=
  let e := s.hs[n].est
  let t := get e
  if en && 0 < t.n then
    let t1 := t.hour (fld e.trCfg 0 3) (fld e.trCfg 4 4)
    let s1 := s.modEst n fun e => put e t1
    if fld e.trCfg 8 8 < t1.dev.natAbs then
      s1.emit (islHs n) 0x23 (pack [(0, 2, q), (16, 10, scode 10 t1.dev)])
    else s1
  else s.modEst n fun e => put e { t with n := 0, sum := 0 }

/-- TREND_UPDATE: once in every 3,600,000,000 us of island time (R142, R143), in DEEP as well while the channel is
parked. -/
def State.trendUpdate (s : State) (n : Fin 48) : State :=
  if s.isUp (islHs n) then
    let e := s.hs[n].est
    let s1 := s.advanceTo (e.hourAt + 3600000000)
    let s2 := s1.trendOne n 0 (bit e.trCfg 16) (·.tI) fun e t => { e with tI := t }
    let s3 := s2.trendOne n 1 (bit e.trCfg 17) (·.tR) fun e t => { e with tR := t }
    let s4 := s3.trendOne n 2 (bit e.trCfg 18 && bit s.dig[tHs n].ctl 4) (·.tF) fun e t => { e with tF := t }
    s4.modEst n fun x => { x with hourAt := e.hourAt + 3600000000, hours := satN 16 (x.hours + 1) }
  else s

/-- TR_RESET (R143). -/
def State.trReset (s : State) (n : Fin 48) : State :=
  let z (q : Trend) : Trend := { q with short := 0, long := 0, dev := 0, valid := false }
  s.modEst n fun e => { e with tI := z e.tI, tR := z e.tR, tF := z e.tF, hours := 0 }

/-- A write to a LONG field (R144). -/
def State.trLong (s : State) (n : Fin 48) (q : Fin 3) (v : Nat) : State :=
  let w (t : Trend) : Trend := { t with long := v % 65536 * 256, valid := true }
  s.modEst n fun e =>
    match q with
    | 0 => { e with tI := w e.tI }
    | 1 => { e with tR := w e.tR }
    | 2 => { e with tF := w e.tF }

/-- SHORT and LONG as read: whole units. -/
def Trend.read (q : Trend) : W32 := pack [(0, 16, satN 16 (q.short / 256)), (16, 16, satN 16 (q.long / 256))]

/-- The estimator registers of a channel block (R146). -/
def Est.read (e : Est) (off : Nat) : W32 :=
  match off with
  | 0x98 => pack [(0, 10, e.vCode), (16, 16, satN 16 e.vMean)]
  | 0x9C => pack [(0, 16, e.iPk), (16, 16, e.tPk)]
  | 0xA0 => pack [(0, 16, e.tSettle), (16, 1, b2n e.valid), (17, 1, b2n e.unsettled)]
  | 0xA4 => pack [(0, 16, e.iSteady)]
  | 0xA8 => pack [(0, 32, e.rLoad)]
  | 0xAC => e.ripCfg
  | 0xB0 => e.ripBand
  | 0xB4 => pack [(0, 16, e.fRip), (16, 16, e.speed)]
  | 0xB8 => pack [(0, 16, e.pp), (16, 1, b2n e.ripValid)]
  | 0xBC => e.trCfg
  | 0xC0 => e.tI.read
  | 0xC4 => e.tR.read
  | 0xC8 => e.tF.read
  | 0xCC => pack [(0, 10, scode 10 e.tI.dev), (10, 10, scode 10 e.tR.dev), (20, 10, scode 10 e.tF.dev)]
  | 0xD0 => pack [(0, 1, b2n e.tI.valid), (1, 1, b2n e.tR.valid), (2, 1, b2n e.tF.valid), (16, 16, e.hours)]
  | _ => 0

/-- A store to one of them. -/
def State.estWrite (s : State) (n : Fin 48) (off : Nat) (v : W32) : State :=
  match off with
  | 0xAC => s.modEst n fun e => { e with ripCfg := keep 0xFF3F v }
  | 0xB0 => s.modEst n fun e => { e with ripBand := v }
  | 0xBC => s.modEst n fun e => { e with trCfg := keep 0x0007FFF7 v }
  | 0xC0 => s.trLong n 0 (fld v 16 16)
  | 0xC4 => s.trLong n 1 (fld v 16 16)
  | 0xC8 => s.trLong n 2 (fld v 16 16)
  | _ => s

end Sys2Proof.Machine
end

