-- ==== Sys2Proof/Machine/HighSide.lean ====
section
/-! DEFINITION. The high-side channel engine: the transitions of R50, protection, envelope, retries, clamps and
lifetime counters (spec/02_high_side_channels.md, spec/03_inductive_turn_off.md). -/

namespace Sys2Proof.Machine

/-- Nominal current, mA (R47). -/
def iNom (n : Nat) : Nat := if n < 32 then 6000 else if n < 44 then 15000 else 30000

/-- Bank of a channel (R47). -/
def bankOf (n : Nat) : Nat := if n < 16 then 0 else if n < 32 then 1 else if n < 44 then 2 else 3

/-- Single-pulse clamp energy at 25 degrees, mJ (R99). -/
def e25 (n : Nat) : Nat := if n < 32 then 150 else if n < 44 then 60 else 40

def HsSt.code : HsSt → Nat
  | .disabled => 0 | .off => 1 | .pending => 2 | .inrush => 3 | .on => 4 | .uvWait => 5 | .retryWait => 6
  | .latched => 7

/-- Over-current threshold of code `k`, mA (R58). -/
def ocThr (n k : Nat) : Rat := (iNom n : Rat) * (63 + 5 * k : Nat) / 126

/-- Threshold code in force (R57, R61, R64, R67). -/
def Hs.level (h : Hs) : Nat :=
  match h.st with
  | .inrush => if h.defEnv then 63 else fld (h.env.getD h.envStep 0) 0 6
  | _ => fld h.ocCfg 0 6

/-- DUR of an envelope step (R66). -/
def envDur (e : W32) : Nat := fld e 8 16

/-- Effective LEN of ENV_CFG (R97). -/
def envLen (cfg : W32) : Nat := min 16 (fld cfg 16 5)

/-- Under-voltage threshold and recovery level of a UV_CFG value, mV (R69, R70). -/
def uvThr (cfg : W32) : Nat := 9000 + 250 * min 124 (fld cfg 0 7)
def uvRec (cfg : W32) : Nat := uvThr cfg + 500 * 2 ^ fld cfg 8 2

/-- The channel is parked for DEEP (R88). -/
def Hsc.parked (c : Hsc) (n : Nat) : Bool := if n < 32 then bit c.parkLo n else bit c.parkHi (n - 32)

/-- The pad group of a channel is held, and the channel was not parked when the hold was latched: the pads of parked
channels are never held (R601 to R603). -/
def State.hsPadHeld (s : State) (n : Fin 48) : Bool :=
  bit s.pwr.holdStat (if n.val < 32 then 0 else 1) && !s.pwr.spared.testBit n.val

/-- The channel's island is powered and out of reset. -/
def State.hsUp (s : State) (n : Fin 48) : Bool := s.isUp (islHs n)

/-- Limp-map or FOLLOW priority of a target (R328). -/
def State.mapPrio (s : State) (t : Fin 67) : Nat := fld (BitVec.ofNat 32 s.inp.lmap[t].toNat) 5 3

/-- Last digitiser current in units of 10 mA, rounded; a CLIP sample reads as FS (R97). -/
def State.lastTenMa (s : State) (t : Fin 67) : Nat :=
  let d := s.dig[t]
  satN 16 (roundDiv (if d.clip then fsOf t.val else d.i) 10)

/-- A parked channel that has come to wait for a restart in DEEP requests a wake (R91); during an entry to DEEP it
makes the same request (R585). -/
def State.parkWake (s : State) (n : Fin 48) : State :=
  s.onlyIf (s.hsc.parked n.val && bit s.hsc.parkCfg 0 && (s.hs[n].st == .uvWait || s.hs[n].st == .retryWait)) fun s =>
    s.wakeReq 10

/-- Set CMD_RES of a channel. -/
def State.hsRes (s : State) (n : Fin 48) (r : Nat) : State := s.modHs n fun h => { h with cmdRes := r }

/-- Enter a state with what the entry itself starts: the retry timer (R76), the heal time (R78). No fall of the routed
level has been seen in the state entered (R86). -/
def State.hsEnter (s : State) (n : Fin 48) (st : HsSt) : State :=
  s.modHs n fun h =>
    { h with
      st := st,
      retryAt := if st == .retryWait && !h.tl then some s.now else none, retryDone := false,
      onStAt := if st == .on then s.now else h.onStAt, fallSeen := false }

/-- The request of a channel reaches ADM, or is held while ADM is down (R91). -/
def State.hsRequest (s : State) (n : Fin 48) (prio : Nat) (kind : ReqKind) : State :=
  if s.isUp 2 then (s.modHs n fun h => { h with own := true }).toAdm (.own n.val prio 0 0 0 kind)
  else s.modHs n fun h => { h with own := true, heldReq := some prio }

/-- Withdraw a request (R50). -/
def State.hsWithdraw (s : State) (n : Fin 48) : State :=
  (s.modHs n fun h => { h with own := false, heldReq := none }).onlyIf (s.isUp 2) fun s => s.toAdm (.withdraw n.val)

/-! ## Clamps (R98 to R111) -/

/-- E_lim in nJ at a starting temperature of `tj0` sixteenths of a degree (R100). -/
def eLim (n : Nat) (tj0 : Int) : Rat :=
  let e : Rat := (e25 n : Rat) * 1000000
  if tj0 ≤ 400 then e else if tj0 < 3200 then e * (3200 - (tj0 : Rat)) / 2800 else 0

/-- E_est in nJ: half of 70 V times I0 times t_CL (R105). -/
def eEst (i0 : Rat) (tCl : Nat) : Rat := 35 * i0 * tCl

/-- PCT (R109, R100, R105). -/
def clampPct (est lim : Rat) (timeout : Bool) : Nat :=
  if timeout then 255 else if lim = 0 then (if est = 0 then 0 else 255) else min 255 (truncQ (est / lim * 100)).toNat

/-- Evaluation of a clamp of `tCl` microseconds (R104 to R111). The energy goes to ADM (R108). -/
def State.clampJudge (s : State) (n : Fin 48) (c : Clamp) (tCl : Nat) (timeout : Bool) : State :=
  let t := min tCl 65535
  let est := eEst c.i0 t
  let lim := eLim n.val c.tj0
  let ovl := timeout || decide (lim < est)
  let pct := clampPct est lim timeout
  let st := s.hs[n].st
  let eLast := satN 16 (roundQ (est / 10000)).toNat
  let i0Ten := satN 16 (roundQ (c.i0 / 10)).toNat
  let s1 := s.modHs n fun h =>
    { h with
      clT := t, clI0 := i0Ten, clE := eLast, clPct := pct, clEtot := h.clEtot + est,
      clHigh := if 50 ≤ pct then satN 16 (h.clHigh + 1) else h.clHigh,
      clOvl := if ovl then satN 16 (h.clOvl + 1) else h.clOvl,
      fault := if ovl then h.fault ||| 0x10 else h.fault,
      faultInfo := if ovl then pack [(0, 4, 4), (4, 4, st.code), (16, 16, i0Ten)] else h.faultInfo,
      faultTime := if ovl then s.count else h.faultTime }
  let s2 := s1.onlyIf (s1.isUp 2) fun s => s.toAdm (.clampE n.val est)
  if ovl then
    let s3 := s2.emit (islHs n) 0x11 (pack [(0, 16, eLast), (16, 8, pct), (24, 4, st.code)])
    match st with
    | .disabled | .off | .uvWait | .retryWait => (s3.hsEnter n .latched).emit (islHs n) 0x07 4
    | _ => s3
  else if 50 ≤ pct then s2.emit (islHs n) 0x10 (pack [(0, 16, eLast), (16, 8, pct)])
  else s2

/-- A clamp begins: V_DS at 63 V or above with the switch off (R103). A ZERO ends with ZERO_FAIL (R121). -/
def State.clampBegin (s : State) (n : Fin 48) (vds : Nat) : State :=
  let h := s.hs[n]
  if s.hsUp n && !hsOn h.st && h.clamp.isNone && 63000 ≤ vds then
    (s.modHs n fun h =>
      { h with clamp := some { i0 := h.offI0, tj0 := h.offTj, start := s.now, judged := false } }).zeroAbort (tHs n)
  else s

/-- A clamp still running at 65,535 us is judged at that moment and runs on (R105). -/
def State.clampTimeout (s : State) (n : Fin 48) : State :=
  match s.hs[n].clamp with
  | none => s
  | some c =>
    if c.judged then s
    else
      let s1 := s.advanceTo (c.start + 65535)
      (s1.modHs n fun h => { h with clamp := some { c with judged := true } }).clampJudge n c 65535 true

/-- The count of a clamp passes 65,535 us (R105). -/
def longClamp (cycles : Nat) : Bool := decide (65535 * 40 < cycles)

/-- The running clamp ends after `cycles` island cycles of 25 ns, t_CL rounded up to whole microseconds (R103). One
already judged at 65,535 us is not judged again (R105). -/
def State.clampStop (s : State) (n : Fin 48) (cycles : Nat) : State :=
  match s.hs[n].clamp with
  | none => s
  | some c =>
    let s1 := s.modHs n fun h => { h with clamp := none }
    if c.judged then s1 else s1.clampJudge n c (min 65535 (ceilDiv cycles 40)) (longClamp cycles)

/-! ## Switching -/

/-- Entry to INRUSH or ON: the envelope in force and its first step (R50, R64, R65, R67). -/
def Hs.envStart (h : Hs) (now : Nat) : Hs :=
  if envLen h.envCfg = 0 then { h with st := .on, onStAt := now, envStep := 0 }
  else if h.envLoaded then
    if envDur (h.staging.getD 0 0) = 0 then { h with st := .on, onStAt := now, envStep := 0, env := h.staging }
    else
      { h with
        st := .inrush, env := h.staging, envStep := 0, defEnv := false, inrushAt := now,
        stepEnd := now + envDur (h.staging.getD 0 0) * 100 }
  else { h with st := .inrush, envStep := 0, defEnv := true, inrushAt := now, stepEnd := now + 10000 }

/-- Switch on from PENDING (R50, R51): SW_ON, operation counted, a running clamp ends, a ZERO fails, the settling
search starts, a capture on TRG 1 triggers. `clampCycles` is the count of a clamp the switch-on ends (R103); that clamp
is judged in the state entered and its event comes before SW_ON: the model's choice (log entry 42). -/
def State.hsSwitchOn (s : State) (n : Fin 48) (clampCycles : Nat) : State :=
  let s1 := s.modHs n fun h =>
    let h1 := h.envStart s.now
    { h1 with
      ops := satN 64 (h.ops + 1), onAt := s.now, est := h.est.begin s.now true, own := false, mark := .grantOn,
      markAt := s.now, retryAt := none, retryDone := false }
  let h := s1.hs[n]
  let s2 := ((s1.clampStop n clampCycles).zeroAbort (tHs n)).capTrigger (tHs n) 1
  s2.emitAdm (islHs n) 0x01
    (pack [(0, 4, h.st.code), (8, 4, h.retryCnt), (16, 1, b2n (h.reqKind == .restart))])
    (.swOn n.val (h.st == .on))

/-- Switch off into `st` with an SW_OFF cause (R95): I0 and Tj0 for a clamp that may follow (R100, R104), on-time,
estimators and captures. -/
def State.hsSwitchOff (s : State) (n : Fin 48) (st : HsSt) (cause : Nat) : State :=
  let h := s.hs[n]
  let i0 : Rat :=
    if s.pwr.phase == .deep then ocThr n.val (fld h.ocCfg 0 6)
    else if cause = 2 then 4 * (iNom n.val : Rat)
    else if cause = 1 then ocThr n.val h.level
    else s.dig[tHs n].i
  let s1 := (s.modHs n fun h =>
    { h with
      onUs := h.onUs + (s.now - h.onAt), offI0 := i0, offTj := h.tj, est := h.est.stop }).hsEnter n st
  (s1.capTrigger (tHs n) 2).emitAdm (islHs n) 0x02 (pack [(0, 4, st.code), (4, 4, cause)]) (.swOff n.val)

/-- Record a fault (R55, R73): CH_FAULT bits, FAULT_INFO, FAULT_TIME. -/
def State.hsRecord (s : State) (n : Fin 48) (bits : W32) (cause : Nat) (st : HsSt) : State :=
  let il := s.lastTenMa (tHs n)
  s.modHs n fun h =>
    { h with
      fault := h.fault ||| bits, faultInfo := pack [(0, 4, cause), (4, 4, st.code), (16, 16, il)],
      faultTime := s.count }

/-- The fault path (R50, R55): the bits of every mechanism that acted, the first in the order SC, OT, OC as cause,
FAULT, withdraw or switch off, then RETRY_WAIT or LATCHED. `grantBack` spares the withdrawal of a returned grant. -/
def State.hsFaultPath (s : State) (n : Fin 48) (sc ot oc grantBack : Bool) : State :=
  let h := s.hs[n]
  let cause := if sc then 2 else if ot then 3 else 1
  let bits : W32 := pack [(0, 1, b2n oc), (1, 1, b2n sc), (2, 1, b2n ot)]
  let s1 := (s.hsRecord n bits cause h.st).emit (islHs n) 0x03
    (pack [(0, 4, cause), (16, 16, s.lastTenMa (tHs n))])
  let s2 := s1.capTrigger (tHs n) 3
  let st : HsSt := if (sc && !bit h.ctl 2) || fld h.retryCfg 0 4 ≤ h.retryCnt then .latched else .retryWait
  let s3 := if hsOn h.st then s2.hsSwitchOff n st cause
    else (if grantBack then s2 else s2.hsWithdraw n).hsEnter n st
  let s4 := s3.modHs n fun h => { h with mark := .fault, markAt := s.now }
  if st == .latched then s4.emit (islHs n) 0x07 (pack [(0, 4, cause)]) else s4.parkWake n

/-- The under-voltage event of a channel in PENDING, INRUSH or ON (R50, R73). -/
def State.hsUv (s : State) (n : Fin 48) (grantBack : Bool) : State :=
  let h := s.hs[n]
  let st : HsSt := if bit h.ctl 1 then .uvWait else .off
  match h.st with
  | .pending =>
    let s1 := s.hsRecord n 8 5 .pending
    ((if grantBack then s1 else s1.hsWithdraw n).hsEnter n st).parkWake n
  | .inrush | .on => ((s.hsRecord n 8 5 h.st).hsSwitchOff n st 5).parkWake n
  | _ => s

/-- A restart request (R51, R72, R95): kind 0 after under-voltage, 1 after a fault retry; PENDING. -/
def State.hsRestart (s : State) (n : Fin 48) (retry : Bool) : State :=
  let h := s.hs[n]
  let prio := if h.limp then s.mapPrio (tHs n) else fld h.restartCfg 0 3
  let cnt := if retry then min 15 (h.retryCnt + 1) else h.retryCnt
  let s1 := (s.modHs n fun h => { h with retryCnt := cnt, reqKind := .restart }).hsEnter n .pending
  (s1.emit (islHs n) 0x06 (pack [(0, 1, b2n retry), (8, 4, cnt)])).hsRequest n prio .restart

/-- With BANK_OK and no thermal latch, a waiting channel submits its restart request (R50, R75, R77). -/
def State.hsTryRestart (s : State) (n : Fin 48) : State :=
  let h := s.hs[n]
  if h.bankOk && !h.tl && s.hsUp n then
    match h.st with
    | .uvWait => s.hsRestart n false
    | .retryWait => if h.retryDone then s.hsRestart n true else s
    | _ => s
  else s

/-! ## Commands -/

/-- An OFF command (`to_` OFF) or an EN write of 0 (`to_` DISABLED) with its SW_OFF cause; `same` says it reaches the
channel in the same island cycle as the channel's last event. Answers CMD_RES (R50, R54, R56). -/
def State.hsStop (s : State) (n : Fin 48) (to_ : HsSt) (cause : Nat) (same : Bool) : State × Nat :=
  let h := s.hs[n]
  let sameCyc := same && h.markAt == s.now
  if sameCyc && h.mark == .fault && (h.st == .retryWait || h.st == .latched) then (s.hsEnter n to_, 0)
  else
    match h.st with
    | .disabled => (s, 0)
    | .off => (if to_ == .disabled then s.hsEnter n .disabled else s, 0)
    | .pending => ((s.hsWithdraw n).hsEnter n to_, 0)
    | .inrush | .on =>
      if sameCyc && h.mark == .grantOn then (s, 1) else (s.hsSwitchOff n to_ cause, 0)
    | .uvWait | .retryWait => (s.hsEnter n to_, 0)
    | .latched => (s, if to_ == .disabled then 0 else 2)

/-- An OFF command with its SW_OFF cause (R95): 0 from firmware, 9 from ADM. Refused in limp mode (R85). -/
def State.hsOffCmd (s : State) (n : Fin 48) (cause : Nat) (same : Bool) : State :=
  if s.hs[n].limp then s.hsRes n 2
  else
    let r := s.hsStop n .off cause same
    r.1.hsRes n r.2

/-- CLEAR (R50, R75, R78, R85). It emits no HEALED: the model's choice (log entry 42). -/
def State.hsClearCmd (s : State) (n : Fin 48) : State :=
  let h := s.hs[n]
  if h.limp || h.tl then s.hsRes n 2
  else
    let s1 := s.modHs n fun h => { h with retryCnt := 0, cmdRes := 0 }
    match h.st with
    | .retryWait => s1.hsEnter n .off
    | .latched => s1.hsEnter n (if bit h.ctl 0 then .off else .disabled)
    | _ => s1

/-- A write of CH_CTL (R50, R54, R97, R603). -/
def State.hsCtlWrite (s : State) (n : Fin 48) (v : W32) (same : Bool) : State :=
  let h := s.hs[n]
  let v := keep 7 v
  if bit v 0 then
    if s.hsPadHeld n then s.hsRes n 2
    else if h.st == .disabled then (s.modHs n fun h => { h with ctl := v, cmdRes := 0 }).hsEnter n .off
    else s.modHs n fun h => { h with ctl := v, cmdRes := 0 }
  else if h.limp then s.hsRes n 2
  else
    let r := s.hsStop n .disabled 6 same
    if r.2 = 1 then r.1.hsRes n 1 else r.1.modHs n fun h => { h with ctl := v, cmdRes := r.2 }

/-- A write of CH_CMD (R97, R664). -/
def State.hsCmdWrite (s : State) (n : Fin 48) (off clear same : Bool) : State :=
  if off && clear then s.hsRes n 2
  else if off then s.hsOffCmd n 0 same
  else if clear then s.hsClearCmd n
  else s

/-- A write of ENV_CFG (R62, R63, R65). -/
def State.hsEnvWrite (s : State) (n : Fin 48) (v : W32) : State :=
  let len := envLen v
  if 4096 < fld v 0 12 + len then s.hsRes n 3
  else
    s.modHs n fun h =>
      { h with
        envCfg := keep 0x001F0FFF v, envLoaded := false, cmdRes := 0,
        copy := { busy := true, base := fld v 0 12, len := len } }

/-- The envelope copy completes into the staging copy (R62, R65). -/
def State.hsEnvDone (s : State) (n : Fin 48) : State :=
  if s.hs[n].copy.busy && s.isUp 2 then
    s.modHs n fun h =>
      { h with
        staging := s.curve.range h.copy.base h.copy.len, envLoaded := true, copy := { h.copy with busy := false } }
  else s

/-! ## Messages of ADM -/

/-- ADM's forwarded entry (R50, R163, R85); `mine` says that the channel's own request made it. In limp mode the
channel takes an entry of its own, or one into which its own request may have been merged. -/
def State.hsEntry (s : State) (n : Fin 48) (mine : Bool) : State :=
  let h := s.hs[n]
  let s1 := s.modHs n fun h => { h with own := false }
  match h.st with
  | .pending => s1.toAdm (.confirm n.val)
  | .off =>
    if h.tl || (h.limp && !mine && !h.own) then s1.toAdm (.refuse n.val h.st.code)
    else if h.bankOk then
      ((s1.modHs n fun h => { h with reqKind := .ordinary }).hsEnter n .pending).toAdm (.confirm n.val)
    else if bit h.ctl 1 then (s1.hsEnter n .uvWait).toAdm (.uvTaken n.val)
    else s1.toAdm (.refuse n.val h.st.code)
  | _ => s1.toAdm (.refuse n.val h.st.code)

/-- ADM's drop message (R50, R164): the channel's own request, if it was in the entry, is gone as well. -/
def State.hsDrop (s : State) (n : Fin 48) : State :=
  let s1 := s.modHs n fun h => { h with own := false }
  if s.hs[n].st == .pending then s1.hsEnter n .off else s1

/-- Hand a grant back (R50, R52, R95); a request of the channel merged into its entry goes with it (R162). -/
def State.hsReturn (s : State) (n : Fin 48) : State :=
  ((s.modHs n fun h => { h with own := false }).emit (islHs n) 0x09 (pack [(0, 4, s.hs[n].st.code)])).toAdm
    (.returned n.val)

/-- A grant arrives (R50, R51). -/
def State.hsGrantArrives (s : State) (n : Fin 48) (clampCycles : Nat) : State :=
  let h := s.hs[n]
  match h.st with
  | .pending =>
    if h.bankOk && !h.tl then s.hsSwitchOn n clampCycles
    else if h.tl then (s.hsReturn n).hsFaultPath n false true false true
    else (s.hsReturn n).hsUv n true
  | _ => s.hsReturn n

/-! ## Protection -/

/-- Over-current: above the threshold in force for OC_FILT times 40 cycles, in INRUSH or ON (R59, R61). -/
def State.hsOverCurrent (s : State) (n : Fin 48) (ma cycles : Nat) : State :=
  let h := s.hs[n]
  if s.hsUp n && hsOn h.st && ocThr n.val h.level < ma && max 1 (fld h.ocCfg 8 6) * 40 ≤ cycles then
    s.hsFaultPath n false false true false
  else s

/-- Short circuit at 4 x I_nom (R60, R61); `oc` says the over-current comparator acted in the same cycle (R55). -/
def State.hsShort (s : State) (n : Fin 48) (ma : Nat) (oc : Bool) : State :=
  if s.hsUp n && hsOn s.hs[n].st && 4 * iNom n.val ≤ ma then s.hsFaultPath n true false oc false else s

/-- Tj reaches 175 degrees (R50, R74, R75); `sc` and `oc` say what else was detected in the same cycle (R55). -/
def State.hsThermalSet (s : State) (n : Fin 48) (tj : Int) (sc oc : Bool) : State :=
  let h := s.hs[n]
  if s.hsUp n && !h.tl && 2800 ≤ tj then
    let s0 := s.setTj (tHs n) tj
    let s1 := (s0.modHs n fun h =>
      { h with tl := true, fault := h.fault ||| 4, retryAt := none, retryDone := false }).emit (islHs n) 0x04
        (pack [(0, 16, scode 16 tj)])
    match h.st with
    | .pending => s1.hsFaultPath n false true false false
    | .inrush | .on => s1.hsFaultPath n sc true oc false
    | _ => s1
  else s

/-- Tj falls to 155 degrees (R50, R74, R76). -/
def State.hsThermalClear (s : State) (n : Fin 48) (tj : Int) : State :=
  let h := s.hs[n]
  if s.hsUp n && h.tl && tj ≤ 2480 then
    let s0 := s.setTj (tHs n) tj
    let s1 := (s0.modHs n fun h => { h with tl := false }).emit (islHs n) 0x05 (pack [(0, 16, scode 16 tj)])
    if h.st == .retryWait then s1.modHs n fun h => { h with retryAt := some s.now, retryDone := false }
    else s1.hsTryRestart n
  else s

/-- One channel of a bank under-voltage (R68, R71): below its own threshold for 20 us of its clock. -/
def State.hsBankUv (s : State) (n : Fin 48) (mv cycles : Nat) : State :=
  let h := s.hs[n]
  if s.hsUp n && mv < uvThr h.uvCfg && 800 ≤ cycles then
    (s.modHs n fun h => { h with uv := true, bankOk := false }).hsUv n false
  else s

/-- One channel of a recovering bank (R68): above threshold plus hysteresis for 10 ms. The under-voltage condition ends
here and not before: the model's choice (log entry 42). -/
def State.hsBankOk (s : State) (n : Fin 48) (mv us : Nat) : State :=
  let h := s.hs[n]
  if s.hsUp n && uvRec h.uvCfg < mv && 10000 ≤ us then
    (s.modHs n fun h => { h with uv := false, bankOk := true }).hsTryRestart n
  else s

/-- An envelope step expires (R67). -/
def State.hsEnvStep (s : State) (n : Fin 48) : State :=
  let h := s.hs[n]
  if s.hsUp n && h.st == .inrush then
    let s1 := s.advanceTo h.stepEnd
    let nx := h.envStep + 1
    let dur := envDur (h.env.getD nx 0)
    if h.defEnv || h.env.length ≤ nx || dur = 0 then
      (s1.hsEnter n .on).emitAdm (islHs n) 0x08 (pack [(0, 16, satN 16 ((s1.now - h.inrushAt) / 100))])
        (.envEnd n.val)
    else s1.modHs n fun h => { h with envStep := nx, stepEnd := h.stepEnd + dur * 100 }
  else s

/-- The retry timer expires (R76, R77). DLY is read at the expiry: the model's choice (log entry 42). -/
def State.hsRetryExpiry (s : State) (n : Fin 48) : State :=
  let h := s.hs[n]
  match h.retryAt with
  | none => s
  | some t0 =>
    if s.hsUp n && h.st == .retryWait && !h.tl then
      let s1 := s.advanceTo (t0 + max 1 (fld h.retryCfg 16 16) * 1000)
      (s1.modHs n fun h => { h with retryAt := none, retryDone := true }).hsTryRestart n
    else s

/-- HEAL seconds in ON have passed (R78). HEAL is read at the expiry: the model's choice (log entry 42). -/
def State.hsHeal (s : State) (n : Fin 48) : State :=
  let h := s.hs[n]
  let heal := fld h.retryCfg 8 8
  if s.hsUp n && h.st == .on && heal ≠ 0 then
    let s1 := s.advanceTo (h.onStAt + heal * 1000000)
    if h.retryCnt = 0 then s1
    else (s1.modHs n fun h => { h with retryCnt := 0 }).emit (islHs n) 0x0D (pack [(0, 4, h.retryCnt)])
  else s

/-! ## Routed levels and limp mode (R85, R86, R319, R326, R327) -/

/-- A rise of the routed level: the channel submits its own request at the map priority. -/
def State.hsRise (s : State) (n : Fin 48) : State := s.hsRequest n (s.mapPrio (tHs n)) .ordinary

/-- A fall acts as an OFF command; TOO_LATE makes the channel repeat it (R319, R320). In LATCHED the next rise may
clear (R86). -/
def State.hsFall (s : State) (n : Fin 48) (same : Bool) : State :=
  let r := s.hsStop n .off 8 same
  r.1.modHs n fun h => { h with cmdRes := r.2, repeatOff := r.2 = 1, fallSeen := h.st == .latched }

/-- A change of the routed level of a following or limp channel; a rise clears LATCHED in limp mode after a fall with
the thermal latch clear, and then submits its request in the same cycle (R86). -/
def State.hsRouted (s : State) (n : Fin 48) (level same : Bool) : State :=
  if !s.hsUp n || s.isStopped 8 then s
  else if level then
    let h := s.hs[n]
    let s1 := if h.limp && h.st == .latched && h.fallSeen && !h.tl then
        (s.modHs n fun h => { h with retryCnt := 0 }).hsEnter n .off else s
    (s1.modHs n fun h => { h with fallSeen := false, repeatOff := false }).hsRise n
  else s.hsFall n same

/-- The channel enters limp mode and acts on its routed level (R85, R326); a low level acts as a fall. -/
def State.hsLimpEnter (s : State) (n : Fin 48) (src : Nat) (level same : Bool) : State :=
  if s.hsUp n then
    let s1 := (s.modHs n fun h => { h with limp := true, fallSeen := false }).emit (islHs n) 0x0A
      (pack [(0, 2, src)])
    let s2 := if s1.hs[n].st == .disabled then
        (s1.modHs n fun h => { h with ctl := h.ctl ||| 1 }).hsEnter n .off else s1
    if level then (if s2.hs[n].st == .off then s2.hsRise n else s2) else s2.hsFall n same
  else s

/-- The channel leaves limp mode (R327). -/
def State.hsLimpExit (s : State) (n : Fin 48) : State :=
  if s.hsUp n && s.hs[n].limp then
    (s.modHs n fun h => { h with limp := false }).emit (islHs n) 0x0B 0
  else s

/-- An unmapped channel at orphan expiry (R84). -/
def State.hsOrphanOff (s : State) (n : Fin 48) : State :=
  let h := s.hs[n]
  let done (t : State) : State :=
    (t.modHs n fun h => { h with fault := h.fault ||| 0x20 }).emit (islHs n) 0x0C (pack [(0, 4, h.st.code)])
  if s.hsUp n && !h.limp then
    match h.st with
    | .pending => done ((s.hsWithdraw n).hsEnter n .off)
    | .inrush | .on => done (s.hsSwitchOff n .off 7)
    | .uvWait | .retryWait => done (s.hsEnter n .off)
    | _ => s
  else s

/-! ## Registers -/

/-- Seconds switched on (R93). -/
def Hs.onSeconds (h : Hs) (now : Nat) : Nat :=
  satN 32 ((h.onUs + (if hsOn h.st then now - h.onAt else 0)) / 1000000)

/-- Registers of a channel block below 0x80 (R97, R110). -/
def State.hsRead (s : State) (n : Fin 48) (off : Nat) : W32 :=
  let h := s.hs[n]
  match off with
  | 0x00 => h.ctl
  | 0x08 => pack [(0, 4, h.st.code), (4, 1, b2n (hsOn h.st)), (5, 1, b2n h.tl), (6, 1, b2n h.limp),
      (7, 1, b2n s.hsc.orphanEnd.isSome), (8, 4, h.retryCnt), (12, 1, b2n h.envLoaded), (13, 1, b2n h.uv),
      (14, 2, h.cmdRes), (16, 4, if h.st == .inrush then h.envStep else 0)]
  | 0x0C => h.fault
  | 0x10 => h.ocCfg
  | 0x14 => h.envCfg
  | 0x18 => h.retryCfg
  | 0x1C => h.restartCfg
  | 0x20 => pack [(0, 16, scode 16 h.tj)]
  | 0x24 => pack [(0, 32, h.faultTime)]
  | 0x28 => pack [(0, 16, h.faultTime / 2 ^ 32)]
  | 0x2C => h.faultInfo
  | 0x40 => pack [(0, 32, h.ops)]
  | 0x44 => pack [(0, 32, h.ops / 2 ^ 32)]
  | 0x48 => pack [(0, 32, h.onSeconds s.now)]
  | 0x4C => pack [(0, 32, h.thermCyc)]
  | 0x50 => pack [(0, 16, h.clT), (16, 16, h.clI0)]
  | 0x54 => pack [(0, 16, h.clE), (16, 8, h.clPct)]
  | 0x58 => pack [(0, 32, satN 32 (truncQ (h.clEtot / 100000000)).toNat)]
  | 0x5C => pack [(0, 16, h.clHigh), (16, 16, h.clOvl)]
  | _ => if off < 0x80 then 0 else if off ∈ [0x98, 0x9C, 0xA0, 0xA4, 0xA8, 0xAC, 0xB0, 0xB4, 0xB8, 0xBC, 0xC0, 0xC4,
      0xC8, 0xCC, 0xD0] then h.est.read off else s.dig[tHs n].read off h.est.rValid

/-- A store into a channel block. The block takes nothing while HSC has stopped for an entry (R580). -/
def State.hsWrite (s : State) (n : Fin 48) (off : Nat) (v : W32) : State :=
  if s.isStopped 8 then s else
  match off with
  | 0x00 => s.hsCtlWrite n v false
  | 0x04 => s.hsCmdWrite n (bit v 0) (bit v 1) false
  | 0x0C => s.modHs n fun h => { h with fault := (h.fault &&& ~~~v) ||| (if h.tl then 4 else 0) }
  | 0x10 => s.modHs n fun h => { h with ocCfg := keep 0x3F3F v, cmdRes := 0 }
  | 0x14 => s.hsEnvWrite n v
  | 0x18 => s.modHs n fun h => { h with retryCfg := keep 0xFFFFFF0F v, cmdRes := 0 }
  | 0x1C => s.modHs n fun h => { h with restartCfg := keep 7 v, cmdRes := 0 }
  | 0x84 => (s.digWrite (tHs n) off v 0).onlyIf (bit v 4) fun s => s.trReset n
  | _ => if off ∈ [0xAC, 0xB0, 0xBC, 0xC0, 0xC4, 0xC8] then s.estWrite n off v
      else s.digWrite (tHs n) off v 0x7F1F

end Sys2Proof.Machine
end

