-- ==== Sys2Proof/Machine/Valve.lean ====
section
/-! DEFINITION. Valve groups and channels: the transitions of R220, group sharing, arrival and decay, group faults
(spec/06_valve_drive.md). Loads are reckoned in units of 0.01 mA. -/

namespace Sys2Proof.Machine

def VdSt.code : VdSt → Nat
  | .disabled => 0 | .idle => 1 | .defer => 2 | .pending => 3 | .peak => 4 | .hold => 5 | .prop => 6 | .decay => 7
  | .gap => 8 | .latched => 9

/-! ## Profile and setting fields (R206, R235, R236) -/

def Vd.e (v : Vd) (i : Nat) : W32 := v.entries.getD i 0
def Vd.mode1 (v : Vd) : Bool := bit v.ctl 1
def Vd.iPeak (v : Vd) : Nat := min 800 (fld (v.e 0) 0 10)
def Vd.iHold (v : Vd) : Nat := min (clampN 20 400 (fld (v.e 0) 16 10)) v.iPeak
def Vd.arrEn (v : Vd) : Bool := bit (v.e 0) 30
def Vd.tMax (v : Vd) : Nat := max 1 (fld (v.e 1) 0 16)
def Vd.tMinPk (v : Vd) : Nat := min (fld (v.e 1) 16 16) v.tMax
def Vd.arrExt (v : Vd) : Nat := fld (v.e 2) 0 12
def Vd.dip (v : Vd) : Nat := max 1 (fld (v.e 2) 12 8)
def Vd.span (v : Vd) : Nat := max 2 (fld (v.e 2) 20 4)
def Vd.holdT (v : Vd) : Nat := fld (v.e 3) 0 16
def Vd.inrE (v : Vd) : Nat := if v.mode1 then fld v.propCfg 24 8 else fld (v.e 3) 16 16
def Vd.setReq (v : Vd) : Nat := min 3000 (fld v.propCfg 0 12)
def Vd.amp (v : Vd) : Nat := min 20 (fld v.ditherCfg 16 5)
def Vg.lim (g : Vg) : Nat := clampN 10 120 (fld g.ctl 16 8)

/-- Chopping frequency of a group, kHz (R199, R235). -/
def Vg.chopKhz (g : Vg) : Nat := 20 + min 20 (fld g.ctl 8 5)

/-- SET, AMP and DF in force in PROP (R199, R211, R236). -/
def Vd.setIn (v : Vd) : Nat := min 3000 (fld v.propIn 0 12)
def Vd.ampIn (v : Vd) : Nat := min 20 (fld v.ditherIn 16 5)
def Vd.dfIn (v : Vd) : Nat := clampN 50 400 (fld v.ditherIn 0 9)

/-- Number of the chop period that time `t` falls into, counted from switch-on, and the time at which the next one
starts (R199): counting from there is the model's choice (log entry 44). -/
def Vd.chopNo (v : Vd) (khz t : Nat) : Nat := (t - v.onAt) * khz / 1000
def Vd.nextChop (v : Vd) (khz t : Nat) : Nat := v.onAt + ceilDiv ((v.chopNo khz t + 1) * 1000) khz

/-- The proportional setpoint in force at time `t`, mA (R211). -/
def Vd.setAtTime (v : Vd) (t : Nat) : Nat :=
  let ramp := fld v.propIn 16 8
  let move := ramp * 10 * ((t - v.setAt) / 1000)
  if ramp = 0 then v.setTo
  else if v.setNow ≤ v.setTo then min v.setTo (v.setNow + move) else max v.setTo (v.setNow - move)

/-- Dither at phase `x` of its period, as a part of its amplitude (R211): a triangle that starts at zero and rises, or a
square that starts high: the model's choice (log entry 44). -/
def ditherWave (square : Bool) (x : Rat) : Rat :=
  if square then (if x < 1 / 2 then 1 else -1)
  else if x < 1 / 4 then 4 * x else if x < 3 / 4 then 2 - 4 * x else 4 * x - 4

/-- Dither at time `t`, mA: AMP per cent of SET at frequency DF (R211). -/
def Vd.dither (v : Vd) (t : Nat) : Rat :=
  ((v.setIn * v.ampIn : Nat) : Rat) / 100 *
    ditherWave (bit v.ditherIn 24) ((((t - v.onAt) * v.dfIn % 1000000 : Nat) : Rat) / 1000000)

/-- The comparator's threshold at time `t`, mA (R199, R207, R210, R211). In HOLD and PROP it is trimmed by up to 12.5
per cent towards the setpoint; the trim, in thousandths, is free (log entry 5). -/
def Vd.threshold (v : Vd) (t trim : Nat) : Rat :=
  let f : Rat := 1 + (((trim % 251 : Nat) : Rat) - 125) / 1000
  match v.st with
  | .peak => (v.iPeak * 10 : Nat)
  | .hold => (v.iHold * 10 : Nat) * f
  | .prop => ((v.setAtTime t : Nat) + v.dither t) * f
  | _ => 0

/-- The comparator's finding over the last sample interval enters the chop period in progress; SAT says that the last
complete period saw no chopping (R200). -/
def Vd.regulate (v : Vd) (khz t : Nat) (hit : Bool) : Vd :=
  let no := v.chopNo khz t
  if no = v.perNo then { v with perHit := v.perHit || hit }
  else { v with perNo := no, perHit := hit, sat := !(v.perHit || hit) }

/-- How the low-side switch is driven (R199, R207, R219). -/
inductive Drive where
  | off
  /-- Fully on: the coil current has not yet reached I_PEAK. -/
  | full
  | chopping
deriving DecidableEq, Repr

def Vd.drive (v : Vd) : Drive :=
  match v.st with
  | .peak => if v.chopped then .chopping else .full
  | .hold | .prop => .chopping
  | _ => .off

/-- Own load of an actuation (R213). -/
def Vd.own (v : Vd) : Nat := if v.mode1 then v.setReq * (100 + v.amp) else v.iPeak * 1000

/-- Figure of a channel in the group load of the others (R213). -/
def Vd.figure (v : Vd) (t : Nat) : Nat :=
  match v.st with
  | .pending => v.own
  | .peak => v.iPeak * 1000
  | .hold => v.iHold * 1000
  | .prop => v.setAtTime t * (100 + v.ampIn)
  | _ => 0

/-- Channels of group `g`, as targets of a sum. -/
def inGroup (g : Fin 4) (n : Nat) : Bool := n / 4 = g.val

/-- Group load seen by channel `n` (R213); `16` for no channel left out. -/
def State.groupLoad (s : State) (g : Fin 4) (skip : Nat) : Nat :=
  (List.finRange 16).foldl (fun a m => if inGroup g m.val && m.val ≠ skip then a + s.vd[m].figure s.now else a) 0

def Vg.limLoad (g : Vg) : Nat := g.lim * 10000

/-- Some channel of the group is in DEFER. -/
def State.anyDefer (s : State) (g : Fin 4) : Bool :=
  (List.finRange 16).any fun m => inGroup g m.val && s.vd[m].st == .defer

/-- The states that keep the group switch on (R196). -/
def vdActive (c : VdSt) : Bool := c == .defer || c == .pending || c == .peak || c == .hold || c == .prop

/-- The group's island runs. -/
def State.vgUp (s : State) (g : Fin 4) : Bool := s.isUp (islVg g)

/-- Emit an event of channel `n` with its tag (R234). -/
def State.vdEmit (s : State) (n : Fin 16) (code : Nat) (arg : W32) : State :=
  s.emit (islVg (groupOf n)) code (arg ||| BitVec.ofNat 32 (chTag (48 + n.val)))

def State.vdRes (s : State) (n : Fin 16) (r : Nat) : State := s.modVd n fun v => { v with cmdRes := r }

/-- Enter a state; the group notes the last moment at which it was active (R196). -/
def State.vdEnter (s : State) (n : Fin 16) (st : VdSt) : State :=
  (s.modVd n fun v => { v with st := st }).modVg (groupOf n) fun g =>
    if vdActive s.vd[n].st || vdActive st then { g with activeAt := s.now } else g

/-- Release the ADM claim of R217 if it is held (R218). -/
def State.vdRelease (s : State) (n : Fin 16) : State :=
  if s.vd[n].claimHeld then
    (s.modVd n fun v => { v with claimHeld := false }).toAdm (.release (48 + n.val))
  else s

/-- "Withdraw": cancel the ADM entry in PENDING, free the reservation, give up the place in DEFER. -/
def State.vdWithdraw (s : State) (n : Fin 16) (st : VdSt) : State :=
  let s1 := if s.vd[n].st == .pending then
      (s.modVd n fun v => { v with claimHeld := false }).toAdm (.withdraw (48 + n.val)) else s
  s1.vdEnter n st

/-- "Off": low-side off, claim released, decay begins; then the state given (R202, R220). -/
def State.vdOff (s : State) (n : Fin 16) (st : VdSt) : State :=
  let s1 := s.modVd n fun v =>
    { v with
      onUs := v.onUs + (s.now - v.onAt), decayAt := s.now, decayN := 0, decayDone := false, sat := false,
      setLim := false }
  ((s1.vdRelease n).vdEnter n st).capTrigger (tVd n) 2

/-- Guard A (R220): group enabled and not latched, VL3 not under-voltage, a profile loaded in mode 0. -/
def State.vdA (s : State) (n : Fin 16) : Bool :=
  let g := s.vg[groupOf n]
  bit g.ctl 0 && !g.latched && !s.hsc.uv[(3 : Fin 4)] && (s.vd[n].mode1 || s.vd[n].profLoaded)

/-- Guard C (R220): the group in GZ5120 mode and the channel in mode 0. -/
def State.vdC (s : State) (n : Fin 16) : Bool := bit s.vlvCtl (groupOf n).val && !s.vd[n].mode1

/-- GROUP_BUSY: the start failed (R214, R216). -/
def State.vdBusy (s : State) (n : Fin 16) (us : Nat) : State :=
  ((s.vdRes n 5).modVg (groupOf n) fun g => { g with cntBusy := satN 16 (g.cntBusy + 1) }).vdEmit n 0x07
    (pack [(0, 16, satN 16 (us / 10))])

/-- The request and claim to ADM on entering PENDING (R217); a routed request has the map's priority (R328;
log entry 19). A ZERO ends, as its channel leaves the states that R204 allows it (R121): the model's choice (log
entry 44). -/
def State.vdPending (s : State) (n : Fin 16) : State :=
  let v := s.vd[n]
  (((s.modVd n fun v => { v with claimHeld := true }).vdEnter n .pending).zeroAbort (tVd n)).toAdm
    (.own (48 + n.val) (if v.routed then s.mapPrio (tVd n) else fld v.ctl 4 3) (ceilDiv v.own 1000) v.inrE
      (fld v.deferCfg 16 16) .ordinary)

/-- "Start" (R214) with the command's HOLD field; `routed` for a command of the crossbar (R319). -/
def State.vdStart (s : State) (n : Fin 16) (hold : Nat) (routed : Bool) : State :=
  let g := groupOf n
  let v := s.vd[n]
  let s1 := s.modVd n fun v => { v with heldMerge := false, cmdRes := 0, routed := routed }
  if s.vg[g].limLoad < v.own then s1.vdBusy n 0
  else if s.groupLoad g n.val + v.own ≤ s.vg[g].limLoad && s.vg[g].swOn && s.vg[g].ready && !s.anyDefer g then
    (s1.modVd n fun v => { v with holdCmd := hold }).vdPending n
  else if fld v.deferCfg 0 16 = 0 then s1.vdBusy n 0
  else
    let s2 := s1.modVd n fun v =>
      { v with holdCmd := hold, startedFrom := v.st, deferAt := s.now, deferSeq := s.vg[g].seq }
    ((s2.vdEnter n .defer).zeroAbort (tVd n)).modVg g fun x =>
      { x with
        seq := x.seq + 1, cntDefer := satN 16 (x.cntDefer + 1), swOn := true,
        swAt := if x.swOn then x.swAt else s.now, ready := x.swOn && x.ready }

/-- Hold time an ON asks for, ms; 0 is until OFF (R210). -/
def Vd.holdMs (v : Vd) (field : Nat) : Nat := if field = 0 then v.holdT else field

/-- "Merged" (R220). -/
def State.vdMerge (s : State) (n : Fin 16) (hold : Nat) : State :=
  s.modVd n fun v => { v with cmdRes := 4, holdCmd := hold }

/-- "Held" (R220). -/
def State.vdHold (s : State) (n : Fin 16) (hold : Nat) (routed : Bool) : State :=
  s.modVd n fun v =>
    { v with cmdRes := 0, heldMerge := v.heldMerge || v.held.isSome, held := some hold, heldRouted := routed }

/-- An ON command with its HOLD field, limp mode aside (R220). -/
def State.vdOnCmd (s : State) (n : Fin 16) (hold : Nat) (routed : Bool) : State :=
  let c := s.vdC n
  match s.vd[n].st with
  | .disabled | .latched => s.vdRes n 2
  | .idle => if s.vdA n then s.vdStart n hold routed else s.vdRes n 2
  | .defer | .pending => s.vdMerge n hold
  | .prop => if c then s else s.vdRes n 4
  | .peak => if c then s.vdHold n hold routed else s.vdMerge n hold
  | .hold =>
    if c then s.vdHold n hold routed
    else
      (s.vdMerge n hold).modVd n fun v =>
        { v with
          holdEnd := match v.holdEnd with
            | none => none
            | some t => if v.holdMs hold = 0 then none else some (max t (s.now + v.holdMs hold * 1000)) }
  | .decay => if c then s.vdHold n hold routed else if s.vdA n then s.vdStart n hold routed else s.vdRes n 2
  | .gap => if c then s.vdHold n hold routed else s

/-- An OFF command (R220, R222, R223). -/
def State.vdOffCmd (s : State) (n : Fin 16) (same : Bool) : State :=
  let v := s.vd[n]
  let sc := same && v.markAt == s.now
  match v.st with
  | .disabled | .idle => s.vdRes n 0
  | .defer | .pending => (s.vdWithdraw n .idle).vdRes n 0
  | .peak | .hold | .prop => if sc && v.mark == .grantOn then s.vdRes n 1 else (s.vdOff n .decay).vdRes n 0
  | .decay => if sc && v.mark == .holdEnd then s.vdRes n 1 else s.modVd n fun v => { v with held := none, cmdRes := 0 }
  | .gap => (s.modVd n fun v => { v with held := none, cmdRes := 0 }).vdEnter n .idle
  | .latched => s.vdRes n 2

/-- A CLEAR command (R220). -/
def State.vdClearCmd (s : State) (n : Fin 16) : State :=
  let v := s.vd[n]
  match v.st with
  | .latched => (s.vdEnter n (if bit v.ctl 0 then .idle else .disabled)).vdRes n 0
  | _ => s.vdRes n 0

/-- A write of CH_CMD (R230, R236, R664): firmware commands are refused in limp mode. -/
def State.vdCmdWrite (s : State) (n : Fin 16) (on off clear same : Bool) (hold : Nat) : State :=
  if (on && off) || (on && clear) || (off && clear) then s.vdRes n 2
  else if !(on || off || clear) then s
  else if s.vd[n].limp then s.vdRes n 2
  else if on then s.vdOnCmd n hold false
  else if off then s.vdOffCmd n same
  else s.vdClearCmd n

/-- A write of CH_CTL (R220, R222, R603). -/
def State.vdCtlWrite (s : State) (n : Fin 16) (w : W32) (same : Bool) : State :=
  let v := s.vd[n]
  let w := keep 0x173 w
  let put (s : State) : State := s.modVd n fun v => { v with ctl := w, cmdRes := 0 }
  if bit w 0 then
    if bit s.pwr.holdStat 2 then s.vdRes n 2
    else if v.st == .disabled then (put s).vdEnter n .idle
    else put s
  else if v.limp then s.vdRes n 2
  else
    match v.st with
    | .idle => (put s).vdEnter n .disabled
    | .gap => ((put s).modVd n fun v => { v with held := none }).vdEnter n .disabled
    | .defer | .pending => put (s.vdWithdraw n .disabled)
    | .peak | .hold | .prop =>
      if same && v.markAt == s.now && v.mark == .grantOn then s.vdRes n 1 else put (s.vdOff n .decay)
    | _ => put s

/-! ## Engine events -/

/-- The first deferred channel in order of entry, if any (R215). -/
def State.firstDefer (s : State) (g : Fin 4) : Option (Fin 16) :=
  (List.finRange 16).foldl (fun best m =>
    if inGroup g m.val && s.vd[m].st == .defer then
      match best with
      | none => some m
      | some b => if s.vd[m].deferSeq < s.vd[b].deferSeq then some m else some b
    else best) none

/-- It leaves DEFER when its load fits and the group switch reports on (R215, R217). -/
def State.deferLeave (s : State) (g : Fin 4) : State :=
  match s.firstDefer g with
  | none => s
  | some n =>
    if s.vgUp g && s.vg[g].swOn && s.vg[g].ready && s.groupLoad g n.val + s.vd[n].own ≤ s.vg[g].limLoad then
      s.vdPending n
    else s

/-- Decay ends: DISABLED, GAP or IDLE (R220). -/
def State.vdDecayEnd (s : State) (n : Fin 16) : State :=
  if s.vd[n].st == .decay then
    if !bit s.vd[n].ctl 0 then (s.modVd n fun v => { v with held := none }).vdEnter n .disabled
    else if s.vdC n then (s.modVd n fun v => { v with gapAt := s.now }).vdEnter n .gap
    else s.vdEnter n .idle
  else s

/-- MAX_DEFER expires (R216). A channel that goes back to DECAY after its decay completed makes its decay end there
(log entry 19). -/
def State.deferTimeout (s : State) (n : Fin 16) : State :=
  let v := s.vd[n]
  if s.vgUp (groupOf n) && v.st == .defer then
    let s1 := s.advanceTo (v.deferAt + fld v.deferCfg 0 16 * 1000)
    let s2 := (s1.vdEnter n v.startedFrom).vdBusy n (s1.now - v.deferAt)
    if v.decayDone then s2.vdDecayEnd n else s2
  else s

/-- Largest setpoint that fits the group beside the others (R212). -/
def State.setFit (s : State) (n : Fin 16) : Nat :=
  let room := s.vg[groupOf n].limLoad - s.groupLoad (groupOf n) n.val
  min s.vd[n].setIn (room / (100 + s.vd[n].ampIn))

/-- PROP_CFG and DITHER_CFG as written take over at the chop period that has begun (R211). -/
def Vd.takeUp (v : Vd) (t : Nat) : Vd :=
  match v.chgAt with
  | some c =>
    if c ≤ t then
      { v with
        setNow := v.setAtTime c, setAt := c, propIn := v.propCfg, ditherIn := v.ditherCfg, chgAt := none }
    else v
  | none => v

/-- Take up the settings of a chop period that has begun, and the setpoint that fits now (R211, R212). -/
def State.setRefit (s : State) (n : Fin 16) : State :=
  if s.vd[n].st == .prop then
    let s1 := s.modVd n fun v => v.takeUp s.now
    let fit := s1.setFit n
    s1.modVd n fun v =>
      { v with
        setNow := v.setAtTime s.now, setAt := s.now - (s.now - v.setAt) % 1000, setTo := fit, setLim := fit < v.setIn }
  else s

/-- A write of PROP_CFG or DITHER_CFG: in PROP it applies from the next chop period (R211). -/
def State.vdSetWrite (s : State) (n : Fin 16) (f : Vd → Vd) : State :=
  s.modVd n fun v =>
    let w := f v
    if v.st == .prop then { w with chgAt := some (w.nextChop s.vg[groupOf n].chopKhz s.now) } else w

/-- A grant arrives (R207, R211, R220, R232): PEAK or PROP from PENDING, else the grant is returned. -/
def State.vdGrantArrives (s : State) (n : Fin 16) : State :=
  let v := s.vd[n]
  if v.st == .pending then
    let st : VdSt := if v.mode1 then .prop else .peak
    let s0 := s.modVd n fun v => { v with propIn := v.propCfg, ditherIn := v.ditherCfg, chgAt := none }
    let fit := s0.setFit n
    let s1 := s0.modVd n fun v =>
      { v with
        ops := satN 64 (v.ops + 1), onAt := s.now, k := 0, iMax := 0, moving := false, arrived := false,
        chopped := false, peakEnd := s.now + v.tMax * 10, setNow := fit, setTo := fit, setAt := s.now,
        setLim := v.mode1 && fit < v.setIn, mark := .grantOn, markAt := s.now, decayDone := true,
        perNo := 0, perHit := false }
    (((s1.vdEnter n st).zeroAbort (tVd n)).capTrigger (tVd n) 1).vdEmit n 0x01
      (pack [(0, 10, ceilDiv v.own 1000), (12, 1, b2n v.mode1)])
  else s.toAdm (.returned (48 + n.val))

/-- ADM's drop message (R220). -/
def State.vdDrop (s : State) (n : Fin 16) : State :=
  if s.vd[n].st == .pending then
    ((s.modVd n fun v => { v with claimHeld := false, cmdRes := 6 }).vdEnter n .idle).vdEmit n 0x08 0
  else s

/-- ADM's forwarded entry (R163): confirmed if still PENDING. -/
def State.vdEntry (s : State) (n : Fin 16) : State :=
  if s.vd[n].st == .pending then s.toAdm (.confirm (48 + n.val))
  else s.toAdm (.refuse (48 + n.val) s.vd[n].st.code)

/-- The peak ends (R209, R210, R218, R232). -/
def State.vdPeakEnd (s : State) (n : Fin 16) : State :=
  let v := s.vd[n]
  if s.vgUp (groupOf n) && v.st == .peak then
    let s1 := s.advanceTo v.peakEnd
    let dur := satN 16 ((s1.now - v.onAt) / 10)
    let s2 := if v.arrEn && !v.arrived then
        (s1.modVd n fun v => { v with missCnt := satN 32 (v.missCnt + 1) }).vdEmit n 0x03 (pack [(0, 16, dur)])
      else s1
    let ms := v.holdMs v.holdCmd
    let s3 := s2.modVd n fun v =>
      { v with
        holdAt := s1.now, holdEnd := if ms = 0 then none else some (s1.now + ms * 1000),
        perNo := v.chopNo s.vg[groupOf n].chopKhz s1.now, perHit := false }
    ((s3.vdRelease n).vdEnter n .hold).vdEmit n 0x04 (pack [(0, 16, dur)])
  else s

/-- The proportional current settles: 90 % of SET, or 10 ms after switch-on (R218). -/
def State.vdClaimSettle (s : State) (n : Fin 16) : State :=
  let v := s.vd[n]
  if s.vgUp (groupOf n) && v.st == .prop && v.claimHeld then
    if 9 * (v.setIn : Rat) ≤ 10 * s.dig[tVd n].msMean then s.vdRelease n
    else (s.advanceTo (v.onAt + 10000)).vdRelease n
  else s

/-- The hold time expires (R210, R220). -/
def State.vdHoldEnd (s : State) (n : Fin 16) : State :=
  let v := s.vd[n]
  match v.holdEnd with
  | none => s
  | some t =>
    if s.vgUp (groupOf n) && v.st == .hold then
      let s1 := s.advanceTo t
      let s2 := s1.vdEmit n 0x05 (pack [(0, 16, satN 16 ((s1.now - v.holdAt) / 1000))])
      (s2.vdOff n .decay).modVd n fun v => { v with mark := .holdEnd, markAt := s1.now }
    else s

/-- Decay complete, by ten samples below 50 mA or (`slow`) after 100 ms (R202, R234). -/
def State.vdReleased (s : State) (n : Fin 16) (slow : Bool) : State :=
  let v := s.vd[n]
  ((s.modVd n fun v => { v with decayDone := true, slowDecay := slow }).vdEmit n 0x06
    (pack [(0, 16, satN 16 ((s.now - v.decayAt) / 10)), (16, 1, b2n slow)])).vdDecayEnd n

def State.vdDecayComplete (s : State) (n : Fin 16) : State :=
  if s.vgUp (groupOf n) && !s.vd[n].decayDone && 10 ≤ s.vd[n].decayN then s.vdReleased n false else s

def State.vdDecayTimeout (s : State) (n : Fin 16) : State :=
  if s.vgUp (groupOf n) && !s.vd[n].decayDone then (s.advanceTo (s.vd[n].decayAt + 100000)).vdReleased n true else s

/-- The GZ5120 minimum off-time ends (R220). -/
def State.vdGapEnd (s : State) (n : Fin 16) : State :=
  let v := s.vd[n]
  if s.vgUp (groupOf n) && v.st == .gap then
    let s1 := s.advanceTo (v.gapAt + max 1 (fld v.gapCfg 0 8) * 100)
    let s2 := (s1.modVd n fun v => { v with held := none }).vdEnter n .idle
    match v.held with
    | none => s2
    | some hold => if s2.vdA n then s2.vdStart n hold v.heldRouted else s2.vdRes n 2
  else s

/-! ## Samples -/

/-- Arrival search on one sample (R208); answers whether arrival was found. -/
def Vd.arrival (v : Vd) (i : Nat) (chop : Bool) : Vd × Bool :=
  let k := v.k + 1
  let t := 20 * k
  let iMax := max v.iMax i
  let old := v.recent[v.span]?
  let v1 := { v with k := k, iMax := iMax, chopped := v.chopped || chop }
  if v1.chopped || v.arrived || !v.arrEn || t < v.tMinPk * 10 then (v1, false)
  else if !v.moving then
    if v.dip * 10 ≤ iMax - i then ({ v1 with moving := true, iMin := i, tMin := t }, false) else (v1, false)
  else
    let v2 := if i < v.iMin then { v1 with iMin := i, tMin := t } else v1
    match old with
    | some o =>
      if o ≤ i then
        ({ v2 with
            arrived := true, tArr := satN 16 (v2.tMin / 10), iArr := v2.iMin,
            peakEnd := v.onAt + min (t + v.arrExt * 10) (v.tMax * 10),
            arrCnt := satN 32 (v2.arrCnt + 1),
            tMean16 := if v2.arrCnt = 0 then satN 16 (v2.tMin / 10) * 16
              else ((v2.tMean16 : Int) + ((satN 16 (v2.tMin / 10) * 16 : Nat) - (v2.tMean16 : Int)) / 16).toNat }, true)
      else (v2, false)
    | none => (v2, false)

/-- The part of a sample that belongs to the valve channel: arrival, decay, SAT and the setpoint (R200, R202, R207, R208,
R212). `top` is the highest coil current since the last sample, mA: the comparator has turned the low-side switch off if
it reached the threshold. -/
def State.vdSample (s : State) (n : Fin 16) (top : Nat) : State :=
  let i := s.dig[tVd n].i
  let d := s.draw 8
  let hit := decide (s.vd[n].threshold s.now d.1 ≤ (max top i : Nat))
  let khz := s.vg[groupOf n].chopKhz
  let s1 := d.2.modVd n fun v =>
    { v with
      recent := (i :: v.recent).take 16,
      decayN := if v.decayDone then v.decayN else if i < 50 then v.decayN + 1 else 0 }
  match s.vd[n].st with
  | .peak =>
    let r := s1.vd[n].arrival i hit
    let s2 := s1.modVd n fun _ => r.1
    if r.2 then s2.vdEmit n 0x02 (pack [(0, 16, r.1.tArr), (16, 12, satN 12 (roundDiv r.1.iArr 10))]) else s2
  | .hold => s1.modVd n fun v => v.regulate khz s.now hit
  | .prop => (s1.modVd n fun v => v.regulate khz s.now hit).setRefit n
  | _ => s1

/-! ## Faults -/

/-- A channel fault: short circuit (cause 1) or open load (cause 2) latches the channel (R225). -/
def State.vdFault (s : State) (n : Fin 16) (cause : Nat) : State :=
  let v := s.vd[n]
  let il := s.lastTenMa (tVd n)
  let s1 := s.modVd n fun v =>
    { v with
      fault := v.fault ||| BitVec.ofNat 32 cause, faultInfo := pack [(0, 4, cause), (4, 4, v.st.code), (16, 16, il)],
      faultTime := s.count }
  let s2 := ((s1.vdOff n .latched).vdEmit n 0x09 (pack [(0, 4, cause), (16, 12, satN 12 il)])).capTrigger (tVd n) 3
  s2.vdEmit n 0x0B (pack [(0, 4, cause)])

/-- Channel short circuit at 12 A (R199, R225). -/
def State.vdShort (s : State) (n : Fin 16) (ma : Nat) : State :=
  if s.vgUp (groupOf n) && vdOn s.vd[n].st && 12000 ≤ ma then s.vdFault n 1 else s

/-- Setpoint of a driven channel, mA (R224). -/
def Vd.setpoint (v : Vd) (t : Nat) : Nat :=
  match v.st with
  | .peak => v.iPeak * 10
  | .hold => v.iHold * 10
  | .prop => v.setAtTime t
  | _ => 0

/-- Open load: the 1 ms mean below THR for T milliseconds (R224). -/
def State.vdOpen (s : State) (n : Fin 16) (ma ms : Nat) : State :=
  let v := s.vd[n]
  let thr := fld v.openCfg 0 8 * 10
  if s.vgUp (groupOf n) && vdOn v.st && 2 * thr ≤ v.setpoint s.now && ma < thr && max 1 (fld v.openCfg 8 8) ≤ ms then
    s.vdFault n 2
  else s

/-- What a group fault or VL3 under-voltage does to one channel, with the CH_FAULT bit it sets: GRP in the channels
turned off or withdrawn (R226), UV in every channel acted on (R228), and what DECAY and GAP lose (R220). -/
def State.vdGroupHit (s : State) (n : Fin 16) (faultBit : W32) : State :=
  let mark (s : State) : State := s.modVd n fun v => { v with fault := v.fault ||| faultBit }
  let uv (s : State) : State := s.onlyIf (bit faultBit 3) mark
  match s.vd[n].st with
  | .defer | .pending => mark (s.vdWithdraw n .idle)
  | .peak | .hold | .prop => mark (s.vdOff n .decay)
  | .decay => uv (s.modVd n fun v => { v with held := none })
  | .gap => uv ((s.modVd n fun v => { v with held := none }).vdEnter n .idle)
  | _ => s

/-- A group fault turns off every channel and the group switch (R226). Causes: 3 OT, 4 GRP_OC, 5 GRP_SC, 7
GSW_FAIL. -/
def State.groupFault (s : State) (g : Fin 4) (cause : Nat) (faultBit : W32) : State :=
  let hit := bitsOf 4 fun i => vdActive ((vget s.vd (4 * g.val + i) Vd.init).st)
  let s1 := forFin 16 (fun n s => if inGroup g n.val then s.vdGroupHit n 4 else s) s
  let s2 := s1.modVg g fun x =>
    { x with swOn := false, ready := false, latched := true, fault := x.fault ||| faultBit }
  s2.emit (islVg g) 0x0A (pack [(0, 4, cause), (4, 4, hit)])

def State.groupOc (s : State) (g : Fin 4) (ma cycles : Nat) : State :=
  if s.vgUp g && s.vg[g].swOn && 14000 < ma && 320 ≤ cycles then s.groupFault g 4 1 else s

def State.groupSc (s : State) (g : Fin 4) (ma : Nat) : State :=
  if s.vgUp g && s.vg[g].swOn && 24000 ≤ ma then s.groupFault g 5 2 else s

def State.groupThermal (s : State) (g : Fin 4) (tj : Int) : State :=
  if s.vgUp g && !s.vg[g].tl && 2800 ≤ tj then
    let s1 := s.setTj ⟨48 + 4 * g.val, by omega⟩ tj
    (s1.modVg g fun x => { x with tl := true }).groupFault g 3 4
  else s

def State.groupThermalClear (s : State) (g : Fin 4) (tj : Int) : State :=
  if s.vgUp g && s.vg[g].tl && tj ≤ 2480 then
    (s.setTj ⟨48 + 4 * g.val, by omega⟩ tj).modVg g fun x => { x with tl := false }
  else s

/-- The group switch has not reported on within 1 ms (R197). -/
def State.gswFail (s : State) (g : Fin 4) : State :=
  if s.vgUp g && s.vg[g].swOn && !s.vg[g].ready then
    (s.advanceTo (s.vg[g].swAt + 1000)).groupFault g 7 8
  else s

/-- The group supply has risen to within 1 V of VL3 (R196). -/
def State.gswReady (s : State) (g : Fin 4) (gapMv : Nat) : State :=
  if s.vgUp g && s.vg[g].swOn && gapMv ≤ 1000 then s.modVg g fun x => { x with ready := true } else s

/-- 10 ms after the last active channel the group switch turns off (R196). -/
def State.gswOff (s : State) (g : Fin 4) : State :=
  let active := (List.finRange 16).any fun m => inGroup g m.val && vdActive s.vd[m].st
  if s.vgUp g && s.vg[g].swOn && !active then
    (s.advanceTo (s.vg[g].activeAt + 10000)).modVg g fun x => { x with swOn := false, ready := false }
  else s

/-- OFF_ALL (R235). -/
def State.vgOffAll (s : State) (g : Fin 4) (same : Bool) : State :=
  forFin 16 (fun n s => if inGroup g n.val && !s.vd[n].limp then s.vdOffCmd n same else s) s

/-- CLEAR of a group latch (R227). -/
def State.vgClear (s : State) (g : Fin 4) : State :=
  s.modVg g fun x =>
    if x.tl then { x with clrRefused := true } else { x with clrRefused := false, latched := false }

/-- VL3 under-voltage acts on every channel of a group (R220, R228). -/
def State.vgUv (s : State) (g : Fin 4) : State :=
  if s.vgUp g then forFin 16 (fun n s => if inGroup g n.val then s.vdGroupHit n 8 else s) s else s

/-! ## Routed levels, limp mode, orphan expiry (R229, R230, R319, R326) -/

def State.vdFall (s : State) (n : Fin 16) (same : Bool) : State :=
  let s1 := s.vdOffCmd n same
  s1.modVd n fun v => { v with repeatOff := v.cmdRes = 1 }

def State.vdRouted (s : State) (n : Fin 16) (level same : Bool) : State :=
  if !s.vgUp (groupOf n) || s.isStopped 7 then s
  else if level then (s.modVd n fun v => { v with repeatOff := false }).vdOnCmd n 0 true
  else s.vdFall n same

def State.vdLimpEnter (s : State) (n : Fin 16) (src : Nat) (level same : Bool) : State :=
  if s.vgUp (groupOf n) then
    let s1 := (s.modVd n fun v => { v with limp := true }).vdEmit n 0x0D (pack [(0, 2, src)])
    let s2 := if s1.vd[n].st == .disabled then
        (s1.modVd n fun v => { v with ctl := v.ctl ||| 1 }).vdEnter n .idle else s1
    if level then (if s2.vd[n].st == .idle then s2.vdOnCmd n 0 true else s2) else s2.vdFall n same
  else s

def State.vdLimpExit (s : State) (n : Fin 16) : State :=
  if s.vgUp (groupOf n) && s.vd[n].limp then
    (s.modVd n fun v => { v with limp := false }).vdEmit n 0x0E 0
  else s

/-- An unmapped, unkept channel at orphan expiry acts as for OFF (R229). -/
def State.vdOrphanOff (s : State) (n : Fin 16) : State :=
  let v := s.vd[n]
  if s.vgUp (groupOf n) && !v.limp && !bit v.ctl 8 then
    ((s.vdOffCmd n false).modVd n fun v => { v with fault := v.fault ||| 0x10 }).vdEmit n 0x0C
      (pack [(0, 4, v.st.code)])
  else s

/-! ## Registers (R235, R236) -/

/-- A write of PROF (R205). -/
def State.vdProfWrite (s : State) (n : Fin 16) (w : W32) : State :=
  let st := s.vd[n].st
  if (st == .disabled || st == .idle || st == .latched) && fld w 0 12 ≤ 4092 then
    s.modVd n fun v =>
      { v with
        prof := keep 0xFFF w, profLoaded := false, cmdRes := 0,
        copy := { busy := true, base := fld w 0 12, len := 4 } }
  else s.vdRes n 3

def State.vdProfDone (s : State) (n : Fin 16) : State :=
  if s.vd[n].copy.busy && s.isUp 2 then
    s.modVd n fun v =>
      { v with entries := s.curve.range v.copy.base 4, profLoaded := true, copy := { v.copy with busy := false } }
  else s

def Vd.onSeconds (v : Vd) (now : Nat) : Nat :=
  satN 32 ((v.onUs + (if vdOn v.st then now - v.onAt else 0)) / 1000000)

/-- The digitiser registers a valve or lamp block has (R117, R203, R262). -/
def digOffs : List Nat := [0x80, 0x84, 0x88, 0x8C, 0x90, 0x94, 0xD4, 0xD8, 0xDC, 0xE0, 0xE4, 0xE8, 0xEC, 0xF0, 0xF4]

def State.vdRead (s : State) (n : Fin 16) (off : Nat) : W32 :=
  let v := s.vd[n]
  match off with
  | 0x00 => v.ctl
  | 0x08 => pack [(0, 4, v.st.code), (4, 3, v.cmdRes), (8, 1, b2n v.profLoaded), (9, 1, b2n v.limp),
      (10, 1, b2n v.held.isSome), (11, 1, b2n v.heldMerge), (12, 1, b2n v.sat), (13, 1, b2n v.setLim),
      (14, 1, b2n v.slowDecay)]
  | 0x0C => v.fault
  | 0x10 => v.prof
  | 0x14 => v.deferCfg
  | 0x18 => v.propCfg
  | 0x1C => v.ditherCfg
  | 0x20 => v.openCfg
  | 0x24 => v.gapCfg
  | 0x28 => pack [(0, 16, v.tArr), (16, 16, v.iArr)]
  | 0x2C => pack [(0, 16, v.tMean16 / 16)]
  | 0x30 => pack [(0, 32, v.ops)]
  | 0x34 => pack [(0, 32, v.ops / 2 ^ 32)]
  | 0x38 => pack [(0, 32, v.onSeconds s.now)]
  | 0x3C => pack [(0, 32, v.arrCnt)]
  | 0x40 => pack [(0, 32, v.missCnt)]
  | 0x44 => v.faultInfo
  | 0x48 => pack [(0, 32, v.faultTime)]
  | 0x4C => pack [(0, 16, v.faultTime / 2 ^ 32)]
  | _ => if off ∈ digOffs then s.dig[tVd n].read off false else 0

def State.vdWrite (s : State) (n : Fin 16) (off : Nat) (w : W32) : State :=
  match off with
  | 0x00 => s.vdCtlWrite n w false
  | 0x04 => s.vdCmdWrite n (bit w 0) (bit w 1) (bit w 2) false (fld w 16 16)
  | 0x0C => s.modVd n fun v => { v with fault := v.fault &&& ~~~w }
  | 0x10 => s.vdProfWrite n w
  | 0x14 => s.modVd n fun v => { v with deferCfg := w }
  | 0x18 => s.vdSetWrite n fun v => { v with propCfg := keep 0xFFFF0FFF w }
  | 0x1C => s.vdSetWrite n fun v => { v with ditherCfg := keep 0x011F01FF w }
  | 0x20 => s.modVd n fun v => { v with openCfg := keep 0xFFFF w }
  | 0x24 => s.modVd n fun v => { v with gapCfg := keep 0xFF w }
  | _ => if off ∈ digOffs then s.digWrite (tVd n) off w 0xF else s

/-- Group registers, at offset `off` of a group's 0x40 bytes. -/
def State.vgRead (s : State) (g : Fin 4) (off : Nat) : W32 :=
  let x := s.vg[g]
  match off with
  | 0x00 => x.ctl
  | 0x08 => pack [(0, 2, if x.latched then 2 else b2n x.swOn), (2, 1, b2n x.tl), (3, 1, b2n x.clrRefused),
      (16, 11, satN 11 (ceilDiv (s.groupLoad g 16) 1000))]
  | 0x0C => x.fault
  | 0x10 => pack [(0, 16, scode 16 x.tj)]
  | 0x14 => pack [(0, 32, x.thermCyc)]
  | 0x18 => pack [(0, 16, x.cntDefer), (16, 16, x.cntBusy)]
  | _ => 0

def State.vgWrite (s : State) (g : Fin 4) (off : Nat) (w : W32) : State :=
  match off with
  | 0x00 => if bit w 0 && bit s.pwr.holdStat 2 then s
      else s.modVg g fun x => { x with ctl := keep 0x00FF1F01 w }
  | 0x04 => (s.onlyIf (bit w 0) fun s => s.vgOffAll g false).onlyIf (bit w 1) fun s => s.vgClear g
  | 0x0C => s.modVg g fun x => { x with fault := (x.fault &&& ~~~w) ||| (if x.tl then 4 else 0) }
  | _ => s

/-- The VLV block read at an offset; the island of the register is the caller's concern. -/
def State.vlvRead (s : State) (off : Nat) : W32 :=
  if off = 0 then s.vlvCtl
  else if off = 4 then BitVec.ofNat 32 (bitsOf 16 fun n =>
    let st := (vget s.vd n Vd.init).st
    vdOn st || st == .decay)
  else if off = 8 then BitVec.ofNat 32 (bitsOf 16 (fun n => (vget s.vd n Vd.init).fault != 0) |||
    (bitsOf 4 (fun g => (vget s.vg g Vg.init).latched) <<< 16))
  else if h : 0x100 ≤ off ∧ off < 0x200 then s.vgRead ⟨(off - 0x100) / 0x40, by omega⟩ ((off - 0x100) % 0x40)
  else if h : 0x1000 ≤ off ∧ off < 0x2000 then s.vdRead ⟨(off - 0x1000) / 0x100, by omega⟩ ((off - 0x1000) % 0x100)
  else 0

/-- A store into the VLV block; it takes nothing while VLV has stopped for an entry (R580). -/
def State.vlvWrite (s : State) (off : Nat) (w : W32) : State :=
  if s.isStopped 7 then s
  else if off = 0 then { s with vlvCtl := keep 0xF w }
  else if h : 0x100 ≤ off ∧ off < 0x200 then s.vgWrite ⟨(off - 0x100) / 0x40, by omega⟩ ((off - 0x100) % 0x40) w
  else if h : 0x1000 ≤ off ∧ off < 0x2000 then
    s.vdWrite ⟨(off - 0x1000) / 0x100, by omega⟩ ((off - 0x1000) % 0x100) w
  else s

/-- The island a VLV offset lies in (R42): the group's or channel's, VG0 for the common registers. -/
def vlvIsland (off : Nat) : Nat :=
  if 0x100 ≤ off ∧ off < 0x200 then 20 + (off - 0x100) / 0x40
  else if 0x1000 ≤ off ∧ off < 0x2000 then 20 + (off - 0x1000) / 0x400
  else 20

end Sys2Proof.Machine
end

