-- ==== Sys2Proof/Machine/Lamp.lean ====
section
/-! DEFINITION. Lamp strings: frames, judging, probing, the transitions of R257 (spec/07_lamp_matrix.md). -/

namespace Sys2Proof.Machine

def LsSt.code : LsSt → Nat
  | .disabled => 0 | .off => 1 | .pending => 2 | .ramp => 3 | .on => 4 | .uvWait => 5 | .latched => 6

/-- Frame period in microseconds, and its nominal count of island cycles (R241). -/
def framePer (per : Nat) : Nat :=
  match per with
  | 0 => 833 | 1 => 400 | 2 => 200 | 3 => 100 | _ => 50

def frameCyc (per : Nat) : Nat := framePer per * 100

/-- Settings of a string with their limits (R269). -/
def Ls.iSet (l : Ls) : Nat := clampN 10 150 (fld l.cfg 0 8)
def Ls.vLim (l : Ls) : Nat := min (min 112 (fld l.cfg 16 8) * 500) (l.v3 - 4000)
def Ls.tRamp (l : Ls) : Nat := max 1 (fld l.start 0 8)
def Ls.vOpen (l : Ls) : Nat := clampN 8 240 (fld l.thr 0 8)
def Ls.probeM (l : Ls) : Nat := fld l.probe 0 8

/-- The claim of R260, in units of 10 mA. -/
def Ls.iCont (l : Ls) : Nat := satN 16 (ceilDiv (l.iSet * l.vLim * 10) (9 * l.v3))

def State.lsUp (s : State) (k : Fin 3) : Bool := s.isUp (islLs k)

def State.lsEmit (s : State) (k : Fin 3) (code : Nat) (arg : W32) : State := s.emit (islLs k) code arg

def State.lsRes (s : State) (k : Fin 3) (r : Nat) : State := s.modLs k fun l => { l with cmdRes := r }

def State.lsEnter (s : State) (k : Fin 3) (st : LsSt) : State := s.modLs k fun l => { l with st := st }

/-- The string's own measurement of VL3 when a command that does not carry it asks for a start: free (R260, log
entry 44). -/
def State.lsMeasure (s : State) (k : Fin 3) : State :=
  let r := s.draw 16
  r.2.modLs k fun l => { l with v3 := r.1 }

/-- Setpoint of the buck at time `t`, mA: rising over T_RAMP in RAMP, I_SET in ON, and 0 with the buck off (R240,
R256). -/
def Ls.setMa (l : Ls) (t : Nat) : Nat :=
  match l.st with
  | .ramp => min (l.iSet * 10) (l.iSet * 10 * (t - l.onAt) / (l.rampEnd - l.onAt))
  | .on => l.iSet * 10
  | _ => 0

/-- A mark of the cycle's event, for R259. -/
def State.lsMark (s : State) (k : Fin 3) (m : Mark) : State := s.modLs k fun l => { l with mark := m, markAt := s.now }

/-- Release the claim of R260 when it is held (R261). -/
def State.lsRelease (s : State) (k : Fin 3) : State :=
  if s.ls[k].claimHeld then (s.modLs k fun l => { l with claimHeld := false }).toAdm (.release (64 + k.val)) else s

/-- "Request": the claim and the ADM request at priority `prio` (R260). A ZERO ends, as its string leaves the states
that R262 allows it (R121): the model's choice (log entry 44). -/
def State.lsRequest (s : State) (k : Fin 3) (prio : Nat) (kind : ReqKind) : State :=
  let l := s.ls[k]
  (((s.modLs k fun l => { l with claimHeld := true }).lsEnter k .pending).zeroAbort (tLs k)).toAdm
    (.own (64 + k.val) prio l.iCont (fld l.start 16 16) 0 kind)

/-- "Withdraw": cancel the request, then the state given. -/
def State.lsWithdraw (s : State) (k : Fin 3) (st : LsSt) : State :=
  ((s.modLs k fun l => { l with claimHeld := false }).toAdm (.withdraw (64 + k.val))).lsEnter k st

/-- "Stop": buck off, shunts open, the claim of a ramp released, time lit counted, STOPPED with its cause. -/
def State.lsStop (s : State) (k : Fin 3) (st : LsSt) (cause : Nat) : State :=
  let s1 := s.modLs k fun l => { l with onUs := l.onUs + (s.now - l.onAt) }
  (((s1.lsRelease k).lsEnter k st).capTrigger (tLs k) 2).lsEmit k 0x02 (pack [(0, 4, st.code), (4, 4, cause)])

/-- B and T of R257. -/
def Ls.b (l : Ls) : Bool := l.bankOk

/-- A segment in curve mode has no dimming curve (R257). -/
def Ls.curveMissing (l : Ls) : Bool := !l.dimLoaded && (List.finRange 8).any fun i => bit l.segs[i].ctl 20

/-- Priority of a string's requests: the map's while it follows its routed level. -/
def State.lsPrio (s : State) (k : Fin 3) (routed : Bool) : Nat :=
  if routed then s.mapPrio (tLs k) else fld s.ls[k].ctl 4 3

/-- An ON command, limp mode aside (R257). -/
def State.lsOnCmd (s : State) (k : Fin 3) (routed : Bool) : State :=
  let l := s.ls[k]
  match l.st with
  | .disabled | .latched => s.lsRes k 2
  | .off =>
    if l.tl then s.lsRes k 2
    else if !l.b then if bit l.ctl 1 then (s.lsRes k 0).lsEnter k .uvWait else s.lsRes k 2
    else if l.curveMissing then s.lsRes k 3
    else (s.lsRes k 0).lsRequest k (s.lsPrio k routed) .ordinary
  | _ => s.lsRes k 4

/-- An OFF command (cause 0, 7 at orphan expiry, 8 at a fall of the routed level) (R257, R259). -/
def State.lsOffCmd (s : State) (k : Fin 3) (cause : Nat) (same : Bool) : State :=
  let l := s.ls[k]
  match l.st with
  | .disabled | .off => s.lsRes k 0
  | .pending => (s.lsWithdraw k .off).lsRes k 0
  | .ramp | .on =>
    if same && l.markAt == s.now && l.mark == .grantOn then s.lsRes k 1 else (s.lsStop k .off cause).lsRes k 0
  | .uvWait => (s.lsEnter k .off).lsRes k 0
  | .latched => s.lsRes k 2

/-- A CLEAR command (R257). -/
def State.lsClearCmd (s : State) (k : Fin 3) : State :=
  let l := s.ls[k]
  match l.st with
  | .latched => if l.tl then s.lsRes k 2 else (s.lsEnter k (if bit l.ctl 0 then .off else .disabled)).lsRes k 0
  | _ => s.lsRes k 0

/-- SEG_CLR: stored for the next frame start (R254). -/
def State.lsSegClr (s : State) (k : Fin 3) (mask : Nat) : State :=
  s.modLs k fun l =>
    { l with segs := Vector.ofFn fun i : Fin 8 =>
        if mask.testBit i.val then { l.segs[i] with clr := true } else l.segs[i] }

/-- A write of S_CMD (R264, R269, R664): more than one of ON, OFF and CLEAR is refused, and then no
mask is applied. -/
def State.lsCmdWrite (s : State) (k : Fin 3) (on off clear same : Bool) (segClr : Nat) : State :=
  let s1 := if segClr % 256 = 0 then s else s.lsSegClr k segClr
  if !(on || off || clear) then s1
  else if (on && off) || (on && clear) || (off && clear) then s.lsRes k 2
  else if s.ls[k].limp then s1.lsRes k 2
  else if on then s1.lsOnCmd k false
  else if off then s1.lsOffCmd k 0 same
  else s1.lsClearCmd k

/-- A write of S_CTL (R257, R259, R603). -/
def State.lsCtlWrite (s : State) (k : Fin 3) (v : W32) (same : Bool) : State :=
  let l := s.ls[k]
  let v := keep 0xF7 v
  let put (s : State) : State := s.modLs k fun l => { l with ctl := v, cmdRes := 0 }
  if bit v 0 then
    if bit s.pwr.holdStat 3 then s.lsRes k 2
    else if l.st == .disabled then (put s).lsEnter k .off
    else put s
  else if l.limp then s.lsRes k 2
  else
    match l.st with
    | .disabled | .latched => put s
    | .off | .uvWait => (put s).lsEnter k .disabled
    | .pending => put (s.lsWithdraw k .disabled)
    | .ramp | .on =>
      if same && l.markAt == s.now && l.mark == .grantOn then s.lsRes k 1 else put (s.lsStop k .disabled 6)

/-! ## Messages of ADM -/

/-- A grant arrives (R257). -/
def State.lsGrantArrives (s : State) (k : Fin 3) : State :=
  let l := s.ls[k]
  if l.st == .pending && l.b && !l.tl then
    let s1 := s.modLs k fun l =>
      { l with
        ops := satN 64 (l.ops + 1), onAt := s.now, rampEnd := s.now + l.tRamp * 1000, frameNo := 0, turn := 0,
        nominal := true }
    ((s1.lsEnter k .ramp).capTrigger (tLs k) 1).lsMark k .grantOn
  else s.toAdm (.returned (64 + k.val))

def State.lsDrop (s : State) (k : Fin 3) : State :=
  if s.ls[k].st == .pending then
    ((s.modLs k fun l => { l with claimHeld := false, cmdRes := 6 }).lsEnter k .off).lsEmit k 0x09 0
  else s

def State.lsEntry (s : State) (k : Fin 3) : State :=
  if s.ls[k].st == .pending then s.toAdm (.confirm (64 + k.val))
  else s.toAdm (.refuse (64 + k.val) s.ls[k].st.code)

/-- The ramp ends (R256, R257, R261). -/
def State.lsRampEnd (s : State) (k : Fin 3) : State :=
  let l := s.ls[k]
  if s.lsUp k && l.st == .ramp then
    let s1 := s.advanceTo l.rampEnd
    ((s1.lsRelease k).lsEnter k .on).lsEmit k 0x01 (pack [(0, 16, s1.dig[tLs k].i)])
  else s

/-! ## Frames -/

/-- Phase of segment `i` of string `k` (R243). -/
def phaseOf (k i f : Nat) : Nat := roundDiv ((8 * k + i) * f) 24

/-- Segment `i` of string `k` is lit at count `c` of the frame: its interval wraps past the frame end, and a frame that
runs late keeps the state of its count F - 1 (R243, R245). A frame that starts early has no later counts, which cuts its
intervals. -/
def Ls.litAt (l : Ls) (k : Nat) (i : Fin 8) (c : Nat) : Bool :=
  decide ((min c (l.fCyc - 1) + l.fCyc - phaseOf k i.val l.fCyc) % l.fCyc < l.segs[i].lit)

/-- The shunt of a segment at count `c` of the frame: closed outside the lit interval and while bypassed, and open with
the buck off (R240, R243, R249). -/
def Ls.shuntClosed (l : Ls) (k : Nat) (i : Fin 8) (c : Nat) : Bool :=
  lsOn l.st && (l.segs[i].bypass || !l.litAt k i c)

/-- Cycles of the lit interval that go on past the end of a frame of `cycles` cycles; an early frame start ends the
interval and nothing is carried (R245). -/
def Ls.carryOf (l : Ls) (k : Nat) (i : Fin 8) (cycles : Nat) : Nat :=
  let p := phaseOf k i.val l.fCyc
  if lsOn l.st && l.fCyc ≤ cycles && l.fCyc < p + l.segs[i].lit then cycles - p else 0

/-- Count of the frame at which segment `i` is judged: 8 us into an interval of at least 800 cycles that began in the
frame before and wrapped past its end, or into that of this frame (R243, R248). -/
def Ls.judgeAt (l : Ls) (k : Nat) (i : Fin 8) : Option Nat :=
  let g := l.segs[i]
  let p := phaseOf k i.val l.fCyc
  if 0 < g.carry && g.carry < 800 && l.fCyc + 800 ≤ p + g.lit + g.carry then some (800 - g.carry)
  else if p + 800 ≤ l.fCyc && 800 ≤ g.lit then some (p + 800)
  else none

/-- Segment `i` is short-lit (R251). -/
def Seg.shortLit (g : Seg) : Bool := !g.bypass && decide (0 < g.tLit) && decide (g.tLit < 800)

/-- NOT_VERIFIED follows the segment and PROBE_M, with its event at each rise (R253). -/
def State.lsVerify (s : State) (k : Fin 3) : State :=
  forFin 8 (fun i s =>
    let l := s.ls[k]
    let g := l.segs[i]
    let nv := g.shortLit && l.probeM == 0
    let s1 := s.modLs k fun l => { l with segs := upd l.segs i fun g => { g with notVer := nv } }
    if nv && !g.notVer then s1.lsEmit k 0x05 (pack [(0, 3, i.val)]) else s1) s

/-- Apply the stored writes and cleared marks of one segment at a frame start, and fix its t_lit (R243, R246, R247,
R254). -/
def Seg.frame (g : Seg) (hold : Bool) (dim : List W32) (f carry : Nat) : Seg :=
  let a := if hold then g.applied else g.ctl
  let duty := if bit a 20 then dimDuty dim (fld a 12 8) else fld a 0 12
  let bp := g.bypass && !g.clr
  { g with
    applied := a, duty := duty, open_ := g.open_ && !g.clr, short := g.short && !g.clr, bypass := bp, clr := false,
    tLit := roundDiv (duty * f) 4095, lit := if bp then 0 else roundDiv (duty * f) 4095,
    carry := if bp then 0 else carry, dark := duty == 0 || bp }

/-- The share trimmed in frame `p` of a block (R252). -/
def trimOf (share p : Nat) : Nat :=
  if p < share % 64 then share / 64 + 1 else share / 64

/-- A neighbour is eligible for a share: it exists, is not bypassed and keeps 800 cycles (R252). -/
def Ls.eligible (l : Ls) (i share : Nat) : Bool :=
  match l.segs[i]? with
  | none => false
  | some g => !g.bypass && decide (800 + trimOf share 0 ≤ g.tLit)

/-- The next short-lit segment in turn, from index `t` upward and round (R251). -/
def Ls.nextProbe (l : Ls) (t : Nat) : Option (Fin 8) :=
  let c := (List.finRange 8).filter fun i => l.segs[i].shortLit
  match c.find? fun i => t ≤ i.val with
  | some i => some i
  | none => c.head?

/-- The first frame of a probe block: the probed segment is stretched and the shares of its neighbours are fixed
(R251, R252). -/
def State.lsProbe (s : State) (k : Fin 3) : State :=
  let l := s.ls[k]
  match l.nextProbe l.turn with
  | none => s
  | some i =>
    let e := 800 - l.segs[i].tLit
    let lo := (e + 1) / 2
    let hi := e / 2
    let elig (d : Nat) (up : Bool) : Bool :=
      if up then l.eligible (i.val + 1) d else i.val ≠ 0 && l.eligible (i.val - 1) d
    let sh : Nat × Nat :=
      if elig lo false && elig hi true then (lo, hi)
      else if elig e false then (e, 0) else if elig e true then (0, e) else (0, 0)
    s.modLs k fun l =>
      { l with
        turn := i.val + 1,
        untrimmed := if sh = (0, 0) then satN 16 (l.untrimmed + 1) else l.untrimmed,
        segs := Vector.ofFn fun j : Fin 8 =>
          if j = i then { l.segs[j] with lit := 800 }
          else if j.val + 1 = i.val then { l.segs[j] with share := sh.1 }
          else if j.val = i.val + 1 then { l.segs[j] with share := sh.2 }
          else l.segs[j] }

/-- A string begins a frame (R242 to R247, R251 to R254): `cycles` is the count of island cycles in the previous
frame, `vOut` the measured LSk_N0 voltage in mV. -/
def State.lsFrame (s : State) (k : Fin 3) (cycles vOut : Nat) : State :=
  if s.lsUp k && s.pwr.phase != .deep then
    let l := s.ls[k]
    let p := framePer l.per
    let due := if isMultiple p s.now && l.frameAt ≠ s.now then s.now else nextMultiple p s.now
    let s1 := s.advanceTo due
    let wrapped := l.frameAt < due - due % 2 ^ 48
    let n := frameCyc l.per
    let f := if l.nominal || wrapped then n else clampN (ceilDiv (97 * n) 100) (103 * n / 100) cycles
    let hold := bit l.ctl 7
    let dim := if hold then l.dimEnt else l.dimNext
    let first := l.frameNo % 64 = 0
    let s2 := s1.modLs k fun l =>
      { l with
        frameAt := due, fCyc := f, nominal := false, dimEnt := dim, updPend := l.updPend && hold,
        vOut := satN 16 vOut,
        segs := Vector.ofFn fun i : Fin 8 =>
          let g := l.segs[i].frame hold dim f (l.carryOf k.val i cycles)
          { g with share := if first then 0 else g.share } }
    let probe := lsOn l.st && first && l.probeM ≠ 0 && (l.frameNo / 64 + 1) % l.probeM = 0
    let s3 := if probe then s2.lsProbe k else s2
    let s4 := s3.modLs k fun l =>
      { l with
        frameNo := if lsOn l.st then l.frameNo + 1 else l.frameNo,
        segs := Vector.ofFn fun i : Fin 8 =>
          let g := l.segs[i]
          if g.share = 0 then g else { g with lit := g.lit - trimOf g.share (l.frameNo % 64) } }
    s4.lsVerify k
  else s

/-! ## Judging -/

/-- VF code of a voltage (R239: steps of 62.5 mV). -/
def vfCode (mv : Nat) : Nat := satN 10 (roundDiv (mv * 2) 125)

/-- 8 us into a lit interval of at least 800 cycles the string samples VF and judges the segment (R248, R250). -/
def State.lsJudge (s : State) (k : Fin 3) (i : Fin 8) (mv : Nat) : State :=
  let l := s.ls[k]
  let g := l.segs[i]
  match l.judgeAt k.val i with
  | some c =>
    if s.lsUp k && lsOn l.st && !g.bypass then
      let s1 := s.advanceTo (l.frameAt + c / 100)
      let vf := vfCode mv
      let short := decide (5 * vf < 4 * fld l.thr 8 8)
      let s2 := s1.modLs k fun l =>
        { l with segs := upd l.segs i fun g =>
            { g with vf := vf, judgedAt := s1.now, short := g.short || short } }
      if short then s2.lsEmit k 0x04 (pack [(0, 3, i.val), (16, 10, vf)]) else s2
    else s
  | none => s

/-- Latch a string fault of the given cause: 1 S_OPEN, 2 S_SHORT, 3 OT, 4 SEG_OPEN (R255, R257). -/
def State.lsFault (s : State) (k : Fin 3) (cause seg : Nat) (faultBit : W32) : State :=
  let l := s.ls[k]
  let il := s.lastTenMa (tLs k)
  let s1 := (s.modLs k fun l =>
    { l with
      fault := l.fault ||| faultBit, faultTime := s.count,
      faultInfo := pack [(0, 4, cause), (4, 4, l.st.code), (8, 3, seg), (16, 16, il)] }).lsEmit k 0x06
      (pack [(0, 4, cause), (16, 16, il)])
  let s2 := s1.capTrigger (tLs k) 3
  let s3 :=
    match l.st with
    | .ramp | .on => s2.lsStop k .latched cause
    | .pending => s2.lsWithdraw k .latched
    | _ => s2.lsEnter k .latched
  s3.lsEmit k 0x07 (pack [(0, 4, cause)])

/-- Segment voltage above V_OPEN for `ns` nanoseconds in a lit interval of at least 800 cycles (R248, R249). -/
def State.lsSegOpen (s : State) (k : Fin 3) (i : Fin 8) (mv ns : Nat) : State :=
  let l := s.ls[k]
  let g := l.segs[i]
  if s.lsUp k && lsOn l.st && 800 ≤ g.lit && !g.bypass && l.vOpen * 250 < mv && 1000 ≤ ns then
    let bp := bit g.applied 24
    let vf := vfCode mv
    let s1 := (s.modLs k fun l =>
      { l with segs := upd l.segs i fun g =>
          { g with
            open_ := true, bypass := g.bypass || bp, dark := g.dark || bp, vf := vf, judgedAt := s.now } }).lsEmit k 0x03
        (pack [(0, 3, i.val), (3, 1, b2n bp), (16, 10, vf)])
    if bp then s1.lsVerify k else s1.lsFault k 4 i.val 0x10
  else s

/-! ## String faults -/

def State.lsShort (s : State) (k : Fin 3) (buckMa ma us : Nat) : State :=
  if s.lsUp k && lsOn s.ls[k].st && ma + 200 < buckMa && 50 ≤ us then s.lsFault k 2 0 2 else s

def State.lsOpen (s : State) (k : Fin 3) (ma us : Nat) (atLim : Bool) : State :=
  let l := s.ls[k]
  if s.lsUp k && l.st == .on && 2 * ma < l.setMa s.now && 1000 ≤ us && atLim then s.lsFault k 1 0 1 else s

/-- SAT sets below 90 % of the setpoint for 1 ms at V_LIM, and clears after 1 ms within it (R255). -/
def State.lsSat (s : State) (k : Fin 3) (ma us : Nat) (atLim : Bool) : State :=
  let l := s.ls[k]
  let low := decide (10 * ma < 9 * l.setMa s.now)
  if s.lsUp k && l.st == .on && 1000 ≤ us then
    if low && atLim && !l.sat then (s.modLs k fun l => { l with sat := true }).lsEmit k 0x08 1
    else if !low && l.sat then (s.modLs k fun l => { l with sat := false }).lsEmit k 0x08 0
    else s
  else s

def State.lsThermal (s : State) (k : Fin 3) (tj : Int) : State :=
  let l := s.ls[k]
  if s.lsUp k && !l.tl && 2800 ≤ tj then
    let s1 := (s.setTj (tLs k) tj).modLs k fun l => { l with tl := true, fault := l.fault ||| 4 }
    match l.st with
    | .pending | .ramp | .on | .uvWait => s1.lsFault k 3 0 4
    | _ => s1
  else s

/-- With B and not T a waiting string requests again (R257). -/
def State.lsTryRestart (s : State) (k : Fin 3) : State :=
  let l := s.ls[k]
  if l.st == .uvWait && l.b && !l.tl && s.lsUp k then s.lsRequest k (s.lsPrio k l.limp) .restart else s

def State.lsThermalClear (s : State) (k : Fin 3) (tj : Int) : State :=
  if s.lsUp k && s.ls[k].tl && tj ≤ 2480 then
    (((s.setTj (tLs k) tj).modLs k fun l => { l with tl := false }).lsMeasure k).lsTryRestart k
  else s

/-- VL3 under-voltage (R257): `mv` for `us` microseconds of the string's own measurement (R68). -/
def State.lsUv (s : State) (k : Fin 3) (mv us : Nat) : State :=
  if s.lsUp k && mv < uvThr s.hsc.uvCfg[(3 : Fin 4)] && 20 ≤ us then
    let s0 := s.modLs k fun l => { l with uv := true, bankOk := false, v3 := mv }
    let l := s.ls[k]
    let to_ : LsSt := if bit l.ctl 1 then .uvWait else .off
    let rec_ (s : State) : State := s.modLs k fun l =>
      { l with
        fault := l.fault ||| 8, faultTime := s.count,
        faultInfo := pack [(0, 4, 5), (4, 4, l.st.code), (16, 16, s.lastTenMa (tLs k))] }
    match l.st with
    | .pending => (rec_ s0).lsWithdraw k to_
    | .ramp | .on => (rec_ s0).lsStop k to_ 5
    | _ => s0
  else s

def State.lsBankOk (s : State) (k : Fin 3) (mv us : Nat) : State :=
  if s.lsUp k && uvRec s.hsc.uvCfg[(3 : Fin 4)] < mv && 10000 ≤ us then
    (s.modLs k fun l => { l with uv := false, bankOk := true, v3 := mv }).lsTryRestart k
  else s

/-! ## Routed levels, limp mode, orphan expiry (R263, R264, R319, R326) -/

def State.lsFall (s : State) (k : Fin 3) (same : Bool) : State :=
  let s1 := s.lsOffCmd k 8 same
  s1.modLs k fun l => { l with repeatOff := l.cmdRes = 1 }

def State.lsRouted (s : State) (k : Fin 3) (level same : Bool) : State :=
  if !s.lsUp k || s.isStopped 6 then s
  else if level then ((s.modLs k fun l => { l with repeatOff := false }).lsMeasure k).lsOnCmd k true
  else s.lsFall k same

def State.lsLimpEnter (s : State) (k : Fin 3) (src : Nat) (level same : Bool) : State :=
  if s.lsUp k then
    let s1 := (s.modLs k fun l => { l with limp := true }).lsEmit k 0x0B (pack [(0, 2, src)])
    let s2 := if s1.ls[k].st == .disabled then
        (s1.modLs k fun l => { l with ctl := l.ctl ||| 1 }).lsEnter k .off else s1
    if level then (if s2.ls[k].st == .off then (s2.lsMeasure k).lsOnCmd k true else s2) else s2.lsFall k same
  else s

def State.lsLimpExit (s : State) (k : Fin 3) : State :=
  if s.lsUp k && s.ls[k].limp then (s.modLs k fun l => { l with limp := false }).lsEmit k 0x0C 0 else s

def State.lsOrphanOff (s : State) (k : Fin 3) : State :=
  let l := s.ls[k]
  if s.lsUp k && !l.limp && !bit l.ctl 2 then
    ((s.lsOffCmd k 7 false).modLs k fun l => { l with fault := l.fault ||| 0x20 }).lsEmit k 0x0A
      (pack [(0, 4, l.st.code)])
  else s

/-! ## Registers (R268, R269) -/

/-- Every string is in DISABLED, OFF or LATCHED (R241). -/
def State.lsAllIdle (s : State) : Bool :=
  (List.finRange 3).all fun k => s.ls[k].st == .disabled || s.ls[k].st == .off || s.ls[k].st == .latched

/-- A write of LMP.CFG reaches all three string islands, or is refused with CFG_ERR (R241, R268). -/
def State.lmpPerWrite (s : State) (per : Nat) : State :=
  if s.lsAllIdle then
    { (forFin 3 (fun k s => s.onlyIf (s.lsUp k) fun s => s.modLs k fun l => { l with per := per % 8 }) s) with
      lmpErr := false }
  else { s with lmpErr := true }

/-- A write of S_DIM (R247). -/
def State.lsDimWrite (s : State) (k : Fin 3) (w : W32) : State :=
  let st := s.ls[k].st
  if (st == .disabled || st == .off || st == .latched) && fld w 0 12 ≤ 4031 then
    s.modLs k fun l =>
      { l with
        dim := keep 0xFFF w, dimLoaded := false, cmdRes := 0,
        copy := { busy := true, base := fld w 0 12, len := 65 } }
  else s.lsRes k 3

def State.lsDimDone (s : State) (k : Fin 3) : State :=
  if s.lsUp k && s.ls[k].copy.busy && s.isUp 2 then
    s.modLs k fun l =>
      { l with
        updPend := true, dimNext := s.curve.range l.copy.base 65, dimLoaded := true, copy := { l.copy with busy := false } }
  else s

def Ls.onSeconds (l : Ls) (now : Nat) : Nat :=
  satN 32 ((l.onUs + (if lsOn l.st then now - l.onAt else 0)) / 1000000)

def Seg.read (g : Seg) (now : Nat) : W32 :=
  pack [(0, 10, g.vf), (10, 1, b2n g.open_), (11, 1, b2n g.short), (12, 1, b2n g.bypass), (13, 1, b2n g.shortLit),
    (14, 1, b2n g.notVer), (15, 1, b2n g.dark), (16, 16, satN 16 ((now - g.judgedAt) / 1000000))]

def State.lsRead (s : State) (k : Fin 3) (off : Nat) : W32 :=
  let l := s.ls[k]
  match off with
  | 0x00 => l.ctl
  | 0x08 => pack [(0, 4, l.st.code), (4, 3, l.cmdRes), (8, 1, b2n l.dimLoaded), (9, 1, b2n l.limp), (10, 1, b2n l.sat),
      (11, 1, b2n l.tl), (12, 1, b2n l.updPend),
      (16, 8, bitsOf 8 fun i => (l.segs[i]?.map Seg.shortLit).getD false),
      (24, 8, bitsOf 8 fun i => (l.segs[i]?.map (·.bypass)).getD false)]
  | 0x0C => l.fault
  | 0x10 => l.cfg
  | 0x14 => l.start
  | 0x18 => l.dim
  | 0x1C => l.probe
  | 0x20 => l.thr
  | 0x24 => pack [(0, 16, l.vOut), (16, 16, l.untrimmed)]
  | 0x28 => l.faultInfo
  | 0x2C => pack [(0, 32, l.faultTime)]
  | 0x30 => pack [(0, 16, l.faultTime / 2 ^ 32)]
  | 0x34 => pack [(0, 32, l.ops)]
  | 0x38 => pack [(0, 32, l.ops / 2 ^ 32)]
  | 0x3C => pack [(0, 32, l.onSeconds s.now)]
  | _ =>
    if h : 0x40 ≤ off ∧ off < 0x60 then (l.segs[(off - 0x40) / 4]'(by omega)).ctl
    else if h : 0x60 ≤ off ∧ off < 0x80 then (l.segs[(off - 0x60) / 4]'(by omega)).read s.now
    else if off ∈ digOffs then s.dig[tLs k].read off false else 0

def State.lsWrite (s : State) (k : Fin 3) (off : Nat) (w : W32) : State :=
  match off with
  | 0x00 => s.lsCtlWrite k w false
  | 0x04 => (s.lsMeasure k).lsCmdWrite k (bit w 0) (bit w 1) (bit w 2) false (fld w 8 8)
  | 0x0C => s.modLs k fun l => { l with fault := (l.fault &&& ~~~w) ||| (if l.tl then 4 else 0) }
  | 0x10 => s.modLs k fun l => { l with cfg := keep 0x00FF00FF w }
  | 0x14 => s.modLs k fun l => { l with start := keep 0xFFFF00FF w }
  | 0x18 => s.lsDimWrite k w
  | 0x1C => (s.modLs k fun l => { l with probe := keep 0xFF w }).lsVerify k
  | 0x20 => s.modLs k fun l => { l with thr := keep 0xFFFF w }
  | _ =>
    if h : 0x40 ≤ off ∧ off < 0x60 then
      s.modLs k fun l =>
        { l with
          updPend := true,
          segs := upd l.segs ⟨(off - 0x40) / 4, by omega⟩ fun g => { g with ctl := keep 0x011FFFFF w } }
    else if off ∈ digOffs then s.digWrite (tLs k) off w 0xF else s

/-- The LMP block read at an offset (R268). -/
def State.lmpRead (s : State) (off : Nat) : W32 :=
  if off = 0 then pack [(0, 3, s.ls[(0 : Fin 3)].per)]
  else if off = 4 then pack [(0, 3, bitsOf 3 fun k => lsOn (vget s.ls k (Ls.init 0)).st),
    (4, 3, bitsOf 3 fun k => (vget s.ls k (Ls.init 0)).st == .latched), (16, 1, b2n s.lmpErr)]
  else if off = 8 then BitVec.ofNat 32 (bitsOf 24 fun j =>
    let g := vget (vget s.ls (j / 8) (Ls.init 0)).segs (j % 8) (Seg.init 0)
    g.open_ || g.short)
  else if h : 0x1000 ≤ off ∧ off < 0x1300 then s.lsRead ⟨(off - 0x1000) / 0x100, by omega⟩ ((off - 0x1000) % 0x100)
  else 0

/-- A store into the LMP block; it takes nothing while LMP has stopped for an entry (R580). -/
def State.lmpWrite (s : State) (off : Nat) (w : W32) : State :=
  if s.isStopped 6 then s
  else if off = 0 then s.lmpPerWrite (fld w 0 3)
  else if h : 0x1000 ≤ off ∧ off < 0x1300 then
    s.lsWrite ⟨(off - 0x1000) / 0x100, by omega⟩ ((off - 0x1000) % 0x100) w
  else s

/-- The island a LMP offset lies in: the string's, LS0 for the common registers (R268). -/
def lmpIsland (off : Nat) : Nat :=
  if 0x1000 ≤ off ∧ off < 0x1300 then 17 + (off - 0x1000) / 0x100 else 17

end Sys2Proof.Machine
end

