-- ==== Sys2Proof/Machine/Adm.lean ====
section
/-! DEFINITION. The admission scheduler: charges, the thermal model, the tick of R177, heater slots, registers
(spec/05_admission_scheduler.md). Currents are in units of 10 mA, energies in 10 mJ, powers in W. -/

namespace Sys2Proof.Machine

/-! ## Settings with their limits (R193) -/

def Adm.gpt (a : Adm) : Nat := clampN 1 16 (fld a.ctl 4 5)
def Adm.resv (a : Adm) : Nat := fld a.ctl 16 16
def Adm.siteEn (a : Adm) : Bool := bit a.ctl 9
def bankCap (b : Nat) : Nat := match b with | 0 => 4000 | 1 => 4000 | 2 => 6400 | _ => 8000
def Adm.bankLimN (a : Adm) (b : Fin 4) : Nat := min (bankCap b.val) (fld a.bankLim[b] 0 16)
def Adm.modLimN (a : Adm) : Nat := min 20000 (fld a.modLim 0 16)
def Adm.winLim (a : Adm) : Nat := 10 * fld a.winCfg 16 16
def Adm.binMs (a : Adm) : Nat := max 1 (fld a.winCfg 0 8)
def Adm.eW (a : Adm) : Nat := a.bins.foldl (· + ·) 0
def Adm.siteLimN (a : Adm) : Nat := if a.stale then fld a.siteCfg 0 16 else fld a.siteLim 0 16
def Adm.tLim (a : Adm) : Rat := (min 150 (fld a.heatCfg 16 8) : Nat)
def Adm.tau (a : Adm) : Rat := (max 1 (fld a.modelCfg 16 16) : Nat) / 10
def Adm.rTh (a : Adm) : Rat := (max 1 (fld a.modelCfg 0 16) : Nat) / 100
def Slot.ch (x : Slot) : Nat := min 47 (fld x.cfg 0 6)
def Slot.en (x : Slot) : Bool := bit x.cfg 7
def Slot.prio (x : Slot) : Nat := fld x.cfg 8 3
def Slot.period (x : Slot) : Nat := clampN 1 60 (fld x.cfg 16 6)
def Slot.phase (x : Slot) : Nat := fld x.cfg 24 4
def Slot.dutyN (x : Slot) : Nat := min 1000 (fld x.dutyReg 0 10)
def Slot.minOn (x : Slot) : Nat := fld x.dutyReg 16 16

/-! ## Entries -/

def Adm.entry (a : Adm) (t : Nat) : Option Entry := a.queue.find? fun e => e.target = t

def Adm.isGranted (a : Adm) (t : Nat) : Bool := (a.entry t).any (·.granted)

def Adm.isWaiting (a : Adm) (t : Nat) : Bool := (a.entry t).any fun e => !e.granted

def Adm.modEntry (a : Adm) (t : Nat) (f : Entry → Entry) : Adm :=
  { a with queue := a.queue.map fun e => if e.target = t then f e else e }

def Adm.removeEntry (a : Adm) (t : Nat) : Adm := { a with queue := a.queue.filter fun e => e.target ≠ t }

/-- Set the shown claim of a valve or lamp target (R193). -/
def Adm.setClaim (a : Adm) (t : Nat) (v : W32) : Adm :=
  if 48 ≤ t then { a with claim := vupd a.claim t fun _ => v } else a

def Adm.send (a : Adm) (t : Nat) (m : ToTgt) : Adm := if t ≤ 66 then { a with toTgt := a.toTgt ++ [(t, m)] } else a

/-- Claim read for a target when an entry is made or merged: I_CONT, INR_E, P_SITE (R161). -/
def Adm.readClaim (a : Adm) (t iCont inrE : Nat) : Nat × Nat × Nat :=
  if t < 48 then (fld (vget a.claim t 0) 0 16, fld (vget a.claim t 0) 16 16, 0)
  else if t < 256 then (iCont, inrE, 0)
  else
    let v := sget (fun _ => (0 : W32)) a.extClaim (t - 256)
    (0, fld v 16 16, fld v 0 16)

/-- The enabled slot that owns channel `n`: the lower-numbered one (R184). -/
def Adm.ownerOf (a : Adm) (n : Nat) : Option (Fin 16) :=
  (List.finRange 16).find? fun i => a.slots[i].en && a.slots[i].ch = n

def Adm.modSlot (a : Adm) (i : Fin 16) (f : Slot → Slot) : Adm := { a with slots := upd a.slots i f }

/-- A channel is on as R185 means it: a grant sent, or its SW_ON handled and its SW_OFF not. -/
def Adm.chOn (a : Adm) (n : Nat) : Bool := vget a.view n .off != .off || a.isGranted n

/-! ## Charges (R167) -/

/-- On-resistance at 25 degrees, ohms (R47). -/
def rOn25 (n : Nat) : Rat := if n < 32 then 12 / 1000 else if n < 44 then 5 / 1000 else 25 / 10000

/-- Bank of a target: valves and lamps draw from VL3. -/
def bankOfT (t : Nat) : Nat := if t < 48 then bankOf t else 3

/-- Last mean of a target in units of 10 mA. -/
def Adm.iTen (a : Adm) (t : Nat) : Rat := vget a.iMeas t 0 / 10

/-- Current charge of a target. -/
def Adm.charge (a : Adm) (t : Nat) : Rat :=
  if t < 48 then
    match vget a.view t .off with
    | .inrush => (vget a.held t 0 : Nat)
    | .on => max ((vget a.held t 0 : Nat) : Rat) (a.iTen t)
    | .off => match a.entry t with
      | some e => if e.granted then (e.iCont : Nat) else 0
      | none => 0
  else
    match a.entry t with
    | some e => if e.granted then (e.iCont : Nat) else a.iTen t
    | none => a.iTen t

/-- Dissipation of a granted target not yet switched on, or of a held valve peak or lamp start, W (R174). -/
def pReq (kT : Rat) (t iCont : Nat) : Rat :=
  let i : Rat := (iCont : Rat) / 100
  if t < 48 then i * i * rOn25 t * kT else if t < 64 then i * i * (8 / 100) else if t < 67 then i * 3 else 0

/-- Heat of one target, W (R167, R174). -/
def Adm.heat (a : Adm) (kT : Rat) (t : Nat) : Rat :=
  let i : Rat := vget a.iMeas t 0 / 1000
  let req := match a.entry t with
    | some e => if e.granted then some (pReq kT t e.iCont) else none
    | none => none
  if t < 48 then
    if vget a.view t .off != .off then i * i * rOn25 t * kT else req.getD 0
  else match req with
    | some p => p
    | none => if t < 64 then i * i * (6 / 100) else i * 3

/-- Dissipation of the group switches, W. -/
def Adm.groupHeat (a : Adm) : Rat :=
  sumQ ((List.range 4).map fun g =>
    let i : Rat := sumQ ((List.range 4).map fun j => vget a.iMeas (48 + 4 * g + j) 0) / 1000
    i * i * (2 / 100))

/-- p_run of R174 with the k_T given. -/
def Adm.pSum (a : Adm) (kT : Rat) : Rat :=
  sumQ ((List.range 67).map fun t => a.heat kT t) + a.groupHeat + (fld a.pFixed 0 16 : Nat) / 100

/-- k_T of R174, from the temperature at the end of the previous tick. -/
def Adm.kT (a : Adm) : Rat := 1 + 4 / 1000 * (a.tModel - 25)

/-- Charge of bank `b` without the channels `skip` marks. -/
def Adm.bankSum (a : Adm) (skip : Nat → Bool) (b : Nat) : Rat :=
  sumQ ((List.range 67).map fun t => if bankOfT t = b && !skip t then a.charge t else 0)

/-- Site power of a current charge on a bank, W. -/
def Adm.siteOf (a : Adm) (b : Nat) (i : Rat) : Rat := (vget a.vBank b 0 : Nat) * i / 100000

/-- Site power of the held external grants, W. -/
def Adm.extSite (a : Adm) : Rat :=
  sumQ (a.queue.map fun e => if 256 ≤ e.target && e.granted then (e.pSite : Rat) else 0)

def Adm.siteSum (a : Adm) (skip : Nat → Bool) : Rat :=
  sumQ ((List.range 4).map fun b => a.siteOf b (a.bankSum skip b)) + a.extSite

/-- Write the load registers from the charges. -/
def Adm.reckon (a : Adm) : Adm :=
  let l := (Vector.ofFn fun b : Fin 4 => a.bankSum (fun _ => false) b.val : Vector Rat 4)
  { a with
    bankLoad := l, modLoad := sumQ l.toList,
    siteLoad := sumQ ((List.range 4).map fun b => a.siteOf b (vget l b 0)) + a.extSite }

/-- OVER as R183 and R187 judge it, leaving out the channels `skip` marks. -/
def Adm.over (a : Adm) (skip : Nat → Bool) : Nat :=
  let loads := (List.range 4).map fun b => a.bankSum skip b
  let p := a.pRun - sumQ ((List.range 48).map fun t => if skip t then a.heat a.kTick t else 0)
  let bank (b : Nat) : Bool := decide (((vget (Vector.ofFn a.bankLimN) b 0 : Nat) : Rat) < loads.getD b 0)
  let bits : List Bool :=
    [bank 0, bank 1, bank 2, bank 3, decide ((a.modLimN : Rat) < sumQ loads),
      decide (a.winLim < a.eW) && (a.excess == 0 || a.winLow),
      decide (a.pCap < p), decide (a.tLim ≤ a.tModel),
      a.siteEn && decide ((a.siteLimN : Rat) < a.siteSum skip),
      a.siteEn && a.stale, a.sensorStale]
  bitsOf 11 fun i => bits.getD i false

/-! ## Steps 1 to 4 of a tick (R177) -/

/-- OFF to a slot's channel (R182). -/
def Adm.sendOff (a : Adm) (n : Nat) : Adm := { (a.send n .off) with offSent := vupd a.offSent n fun _ => true }

/-- Step 1 for one input. -/
def Adm.step1 (a : Adm) (t : Nat) : AdmIn → Adm
  | .swOn n on =>
    let claim := match a.entry n with
      | some e => if e.granted then e.iCont else fld (vget a.claim n 0) 0 16
      | none => fld (vget a.claim n 0) 0 16
    let a1 : Adm :=
      { a with
        view := vupd a.view n fun _ => if on then .on else .inrush, held := vupd a.held n fun _ => claim,
        queue := a.queue.filter fun e => !(e.target = n && e.granted) }
    match a1.ownerOf n with
    | none => a1
    | some i =>
      if vget a1.offSent n false || !a1.slots[i].open_ then a1.sendOff n
      else a1.modSlot i fun x => { x with since := some t, st := 2 }
  | .envEnd n => { a with view := vupd a.view n fun v => if v == .inrush then .on else v }
  | .swOff n =>
    let a1 : Adm :=
      { a with
        view := vupd a.view n fun _ => .off, held := vupd a.held n fun _ => 0,
        offSent := vupd a.offSent n fun _ => false }
    match a1.ownerOf n with
    | none => a1
    | some i => a1.modSlot i fun x =>
      match x.since with
      | some u => { x with onUs := x.onUs + (t - u), since := none, st := if x.open_ then 1 else x.st }
      | none => x
  | .returned tg =>
    let a1 := { a with offSent := vupd a.offSent tg fun _ => false }
    if a.isGranted tg then (a1.removeEntry tg).setClaim tg 0 else a1
  | .release tg => if a.isGranted tg then (a.removeEntry tg).setClaim tg 0 else a.setClaim tg 0
  | _ => a

/-- Steps 2 and 3 for one input: currents, copies, clamp energies. -/
def Adm.step2 (a : Adm) (t : Nat) : AdmIn → Adm
  | .current tg ma => { a with iMeas := vupd a.iMeas tg fun _ => ma }
  | .banks mv => { a with vBank := mv, vAt := some t }
  | .tbp x => { a with tbp := (x : Rat) / 16, tbpAt := some t }
  | .clampE _ nj => { a with eClamp := a.eClamp + nj / 1000000000 }
  | _ => a

/-- Copies older than 10 ms are replaced (R172). -/
def Adm.freshen (a : Adm) (t : Nat) : Adm :=
  let old (x : Option Nat) : Bool := match x with | none => true | some u => u + 10000 < t
  { a with
    vBank := if old a.vAt then Vector.replicate 4 60000 else a.vBank, tbp := if old a.tbpAt then 85 else a.tbp,
    sensorStale := old a.vAt || old a.tbpAt,
    stale := fld a.siteCfg 16 8 ≠ 0 && (a.stale || decide (a.siteAt + fld a.siteCfg 16 8 * 1000000 ≤ t)) }

/-- P_cap (R175): `none` marks a bad derating curve. -/
def State.admCap (s : State) (a : Adm) : Option Rat :=
  let f : Option Int :=
    if bit a.ctl 10 then s.curve.derate (fld a.heatCfg 0 12) a.tbp
    else
      let x : Rat := if a.tbp ≤ 70 then 1 else if a.tbp ≤ 85 then 1 - (a.tbp - 70) / 30 else 1 / 2
      some (truncQ (x * 2048))
  f.map fun f => 36 * (min 2048 f : Int) / 2048

/-- The model update of R173 and the cap of R175. -/
def State.admModel (s : State) : State :=
  let a := s.adm
  let a0 := if a.ticked then a else { a with tModel := a.tbp }
  let p := a0.pSum a0.kT
  let d := a0.deltaT + (p * a0.rTh - a0.deltaT) * (1 / 100000) / a0.tau + a0.eClamp * a0.rTh / a0.tau
  let cap := s.admCap a0
  let s1 := { s with adm :=
    { a0 with pRun := p, kTick := a0.kT, deltaT := d, tModel := a0.tbp + d, eClamp := 0, pCap := cap.getD 0, ticked := true } }
  if cap.isNone then s1.modCurve fun c => { c with badCurve := true, badIdx := fld a.heatCfg 0 12 } else s1

/-- A bin start retires the oldest bin (R169, R170). -/
def Adm.binStep (a : Adm) (t : Nat) : Adm :=
  if a.binAt + a.binLen * 1000 ≤ t then
    { a with bins := 0 :: a.bins.take 63, binAt := t, binLen := a.binMs, excess := a.excess - 1 }
  else a

/-! ## Steps 5 and 6 -/

/-- Hand the result of a core's store number `k` to the core, if it has not stored since (R159, R160). -/
def Adm.result (a : Adm) (c : Fin 4) (k r : Nat) : Adm :=
  if a.resSeq[c] = k then
    { a with resDone := upd a.resDone c fun _ => true, resCode := upd a.resCode c fun _ => r }
  else a

/-- Take a waiting entry away and send its target the drop message. -/
def Adm.drop (a : Adm) (t : Nat) : Adm := ((a.removeEntry t).setClaim t 0).send t .drop

/-- Remove a waiting entry as at a deadline: DROPPED counted and emitted (R164). -/
def State.admDropLate (s : State) (t now : Nat) : State :=
  match s.adm.entry t with
  | none => s
  | some e =>
    (s.modAdm fun a =>
      { (a.drop t) with cntDropped := satN 16 (a.cntDropped + 1) }).emit 2 0x41
      (pack [(0, 11, t), (16, 16, satN 16 ((now - e.made) / 1000))])

/-- A target firmware may name (R158). -/
def fwTarget (t : Nat) : Bool := t < 48 || (256 ≤ t && t < 1280)

/-- Step 5 for one input. -/
def Adm.step5 (a : Adm) : AdmIn → Adm
  | .cancel c k t =>
    if !fwTarget t then a.result c k 3
    else if a.isGranted t then a.result c k 5
    else if a.isWaiting t then (a.drop t).result c k 7
    else a.result c k 6
  | .relExt c k x =>
    if vget a.extHeld x false then
      ({ (a.removeEntry (256 + x)) with extHeld := vupd a.extHeld x fun _ => false }).result c k 7
    else a.result c k 6
  | .withdraw t => if a.isWaiting t then (a.removeEntry t).setClaim t 0 else a
  | _ => a

/-- The later of two deadlines, none counting as the latest (R161). -/
def laterDl (x y : Option Nat) : Option Nat :=
  match x, y with
  | some p, some q => some (max p q)
  | _, _ => none

/-- Make or merge an entry (R161 to R163); answers QUEUED, MERGED or FULL. `own` marks a target's own request. -/
def Adm.enter (a : Adm) (t prio : Nat) (dl : Option Nat) (iCont inrE now : Nat) (own : Bool) : Adm × Nat :=
  let c := a.readClaim t iCont inrE
  match a.entry t with
  | some _ =>
    (a.modEntry t fun e =>
      { e with
        prio := max e.prio prio, deadline := laterDl e.deadline dl,
        iCont := if e.granted then e.iCont else c.1, inrE := if e.granted then e.inrE else c.2.1,
        pSite := if e.granted then e.pSite else c.2.2 }, 1)
  | none =>
    if 256 ≤ t && 189 ≤ (a.queue.filter fun e => 256 ≤ e.target).length then (a, 2)
    else
      let e : Entry :=
        { target := t, prio := prio, deadline := dl, made := now, seq := a.seq, confirmed := 256 ≤ t, granted := false,
          iCont := c.1, inrE := c.2.1, pSite := c.2.2 }
      ({ (a.send t (if own && t < 48 then .entryOwn else .entry)) with queue := a.queue ++ [e], seq := a.seq + 1 }, 0)

/-- Deadline of a request: from the tick at which its entry was made, which a merge keeps (R161, R164). -/
def Adm.reqDl (a : Adm) (t now ms : Nat) : Option Nat :=
  if ms = 0 then none else some (((a.entry t).map (·.made)).getD now + ms * 1000)

/-- Step 6 for one input. -/
def State.admStep6 (s : State) (now : Nat) : AdmIn → State
  | .req c k t prio ms =>
    if !fwTarget t then s.modAdm fun a => a.result c k 3
    else if t < 48 && (s.adm.ownerOf t).isSome then s.modAdm fun a => a.result c k 4
    else
      let r := s.adm.enter t prio (s.adm.reqDl t now ms) 0 0 now false
      let s1 := { s with adm := r.1.result c k r.2 }
      if r.2 = 2 then
        (s1.modAdm fun a => { a with cntFull := satN 16 (a.cntFull + 1) }).emit 2 0x43 (pack [(0, 11, t)])
      else s1.fabCount 0x0B 0 1
  | .own t prio iCont inrE ms kind =>
    let a := s.adm
    let pd : Nat × Option Nat :=
      match (if t < 48 && kind == .restart then a.ownerOf t else none) with
      | some i => (a.slots[i].prio, some (if a.slots[i].open_ then a.slots[i].dl else now))
      | none => (prio, a.reqDl t now ms)
    let a1 := if t < 48 then a else a.setClaim t (pack [(0, 16, iCont), (16, 16, inrE)])
    let r := a1.enter t pd.1 pd.2 iCont inrE now true
    (s.modAdm fun _ => r.1).onlyIf (r.2 != 2) fun s => s.fabCount 0x0B 0 1
  | .confirm t => s.modAdm fun a => a.modEntry t fun e => { e with confirmed := true }
  | .refuse t st =>
    match s.adm.entry t with
    | none => s
    | some e =>
      if e.granted then s
      else
        (s.modAdm fun a =>
          { ((a.removeEntry t).setClaim t 0) with cntRefused := satN 16 (a.cntRefused + 1) }).emit 2 0x42
          (pack [(0, 11, t), (16, 4, st)])
  | .uvTaken t => s.modAdm fun a => if a.isWaiting t then a.removeEntry t else a
  | _ => s

/-! ## Heater slots (R184 to R188) -/

/-- close_window() of R185. -/
def State.slotClose (s : State) (i : Fin 16) (now : Nat) : State :=
  let x := s.adm.slots[i]
  if x.open_ then
    let on := x.onUs + (match x.since with | some u => now - u | none => 0)
    let last := min 1000 (roundDiv on (x.period * 1000))
    let s1 := s.modAdm fun a => a.modSlot i fun x =>
      { x with open_ := false, onUs := 0, since := none, lastDuty := last, st := 3 }
    if last < x.duty then s1.emit 2 0x46 (pack [(0, 4, i.val), (16, 10, last)]) else s1
  else s

/-- OFF to the slot's channel if it is on. -/
def State.slotOff (s : State) (n : Nat) : State := s.modAdm fun a => if a.chOn n then a.sendOff n else a

/-- A period start (R185). -/
def State.slotStart (s : State) (i : Fin 16) (now : Nat) : State :=
  let x := s.adm.slots[i]
  let p := x.period * 1000000
  let t0 := x.next + (now - x.next) / p * p
  let s1 := s.slotClose i now
  let full := x.period * 1000
  let tOn := min (x.dutyN * x.period + x.carry) full
  let on := s1.adm.chOn x.ch
  if tOn < x.minOn then
    (s1.slotOff x.ch).modAdm fun a => a.modSlot i fun x => { x with next := t0 + p, carry := tOn, st := 0 }
  else
    let tEnd := t0 + tOn * 1000
    let s2 := s1.modAdm fun a => a.modSlot i fun x =>
      { x with
        next := t0 + p, carry := 0, open_ := true, tEnd := tEnd, duty := x.dutyN, dl := tEnd - x.minOn * 1000,
        onUs := 0, since := if vget a.view x.ch .off != .off then some now else none, st := if on then 2 else 1 }
    if on then s2
    else (s2.modAdm fun a => (a.enter x.ch x.prio (some (tEnd - x.minOn * 1000)) 0 0 now false).1).fabCount 0x0B 0 1

/-- A window end (R185). -/
def State.slotEnd (s : State) (i : Fin 16) (now : Nat) : State :=
  let n := s.adm.slots[i].ch
  let s1 := if s.adm.isWaiting n then s.admDropLate n now else s
  (s1.slotOff n).slotClose i now

/-- Step 7 for one slot: restart of the periods (R188), then a window end or a period start. -/
def State.slotTick (s : State) (i : Fin 16) (now : Nat) : State :=
  let x := s.adm.slots[i]
  if !x.en then s
  else if s.adm.ownerOf x.ch ≠ some i then
    s.modAdm fun a => a.modSlot i fun x =>
      { x with run := false, open_ := false, since := none, lastDuty := 0, st := 0 }
  else
    let s1 :=
      if x.arm || !x.run then s.modAdm fun a => a.modSlot i fun x =>
        { x with
          arm := false, run := true, open_ := false, since := none, carry := 0, st := 0,
          next := now + x.phase * x.period * 62500 }
      else s
    let y := s1.adm.slots[i]
    let s2 := if y.open_ && y.tEnd ≤ now && y.tEnd < y.next then s1.slotEnd i now else s1
    if s2.adm.slots[i].next ≤ now then s2.slotStart i now else s2

/-- The slot lets its channel go: entry removed, OFF if it is on, window closed (R188). -/
def State.slotLetGo (s : State) (i : Fin 16) : State :=
  let n := s.adm.slots[i].ch
  if s.adm.slots[i].en && s.adm.ownerOf n = some i then
    let s1 := s.modAdm fun a => if a.isWaiting n then a.drop n else a
    (s1.slotOff n).slotClose i s.now
  else s

/-- A write of HT_CFG (R188). -/
def State.slotCfgWrite (s : State) (i : Fin 16) (v : W32) : State :=
  let v := keep 0x0F3F07BF v
  let x := s.adm.slots[i]
  if bit v 7 then
    let s1 :=
      if !x.en then s
      else if x.ch ≠ min 47 (fld v 0 6) then s.slotLetGo i
      else if s.adm.ownerOf x.ch = some i then s.slotClose i s.now else s
    s1.modAdm fun a => a.modSlot i fun x => { x with cfg := v, arm := true, carry := 0 }
  else
    (s.slotLetGo i).modAdm fun a => a.modSlot i fun x =>
      { x with cfg := v, arm := false, run := false, open_ := false, since := none, carry := 0, st := 0 }

/-- Every slot disabled (R189, R321): `which` chooses the slots. -/
def State.slotsOff (s : State) (which : Slot → Bool) : State :=
  forFin 16 (fun i s =>
    let x := s.adm.slots[i]
    if x.en && which x then s.slotCfgWrite i (x.cfg &&& 0xFFFFFF7F) else s) s

/-- Orphan expiry: all slots off, and SLOTS_OFF if any was enabled (R189). -/
def State.slotsOrphan (s : State) : State :=
  let m := bitsOf 16 fun i => (vget s.adm.slots i Slot.init).en
  if m = 0 then s else (s.slotsOff fun _ => true).emit 2 0x47 (pack [(0, 16, m)])

/-! ## Steps 8 to 10 -/

/-- Step 8: every waiting entry past its deadline is removed, in order of age (R164). -/
def State.admDeadlines (s : State) (now : Nat) : State :=
  let late := s.adm.queue.filter fun e => !e.granted && e.deadline.any fun d => decide (d < now)
  late.foldl (fun s e => s.admDropLate e.target now) s

/-- Step 9: one heater is shed (R187). -/
def State.admShed (s : State) (now : Nat) : State :=
  let a := s.adm
  let o := a.over fun t => vget a.offSent t false
  let other := o.testBit 4 || o.testBit 6 || o.testBit 7 || o.testBit 8
  let cand := (List.finRange 16).filter fun i =>
    a.slots[i].en && a.ownerOf a.slots[i].ch = some i && a.chOn a.slots[i].ch && !vget a.offSent a.slots[i].ch false
  let onBank := cand.filter fun i => o.testBit (bankOf a.slots[i].ch)
  let pick := if o % 16 ≠ 0 && (!onBank.isEmpty || !other) then onBank else if other then cand else []
  match pick with
  | [] => s
  | i0 :: r =>
    let i := r.foldl (fun b i =>
      if a.slots[i].prio < a.slots[b].prio || (a.slots[i].prio = a.slots[b].prio && b.val < i.val) then i else b) i0
    let n := a.slots[i].ch
    let s1 := (s.modAdm fun a => a.sendOff n).slotClose i now
    (s1.modAdm fun a =>
      { (a.modSlot i fun x => { x with shed := satN 16 (x.shed + 1) }) with
        cntShed := satN 16 (a.cntShed + 1) }).emit 2 0x45 (pack [(0, 4, i.val), (8, 6, n)])

/-- Ranking order (R178). -/
def Entry.before (x y : Entry) : Bool :=
  if x.prio ≠ y.prio then y.prio < x.prio
  else
    match x.deadline, y.deadline with
    | some p, some q => if p ≠ q then p < q else x.seq ≤ y.seq
    | some _, none => true
    | none, some _ => false
    | none, none => x.seq ≤ y.seq

/-- Insertion into a ranked list. -/
def rankInsert (e : Entry) : List Entry → List Entry
  | [] => [e]
  | x :: r => if e.before x then e :: x :: r else x :: rankInsert e r

def rank (l : List Entry) : List Entry := l.foldr rankInsert []

/-- Site power of an entry. -/
def Adm.siteReq (a : Adm) (e : Entry) : Rat :=
  if 256 ≤ e.target then (e.pSite : Nat) else a.siteOf (bankOfT e.target) (e.iCont : Nat)

/-- fits(r) of R179. -/
def Adm.fits (a : Adm) (e : Entry) : Bool :=
  let loc : Bool :=
    if e.target ≤ 66 then
      let b : Fin 4 := ⟨bankOfT e.target % 4, by omega⟩
      decide (a.bankLoad[b] + (e.iCont : Rat) ≤ (a.bankLimN b : Rat)) &&
        decide (a.modLoad + (e.iCont : Rat) ≤ (a.modLimN : Rat)) && decide (a.tModel < a.tLim) &&
        decide (a.pRun + pReq a.kTick e.target e.iCont ≤ a.pCap)
    else true
  loc && (a.eW == 0 || decide (a.eW + e.inrE ≤ a.winLim)) &&
    (!a.siteEn || decide (a.siteLoad + a.siteReq e ≤ (a.siteLimN : Rat)))

/-- charge(r) and send_grant(r) of R179. -/
def State.admGrant (s : State) (e : Entry) : State :=
  let s1 := s.modAdm fun a =>
    let exc := decide (a.winLim < e.inrE)
    let bins := match a.bins with | [] => [e.inrE] | b :: r => (b + e.inrE) :: r
    let a1 : Adm :=
      { (a.modEntry e.target fun e => { e with granted := true }) with
        bins := bins, excess := if exc then 64 else a.excess, winLow := !exc && a.winLow,
        pRun := a.pRun + pReq a.kTick e.target e.iCont }
    (a1.send e.target .grant).reckon
  let s1 := s1.fabCount 0x0A 0 1
  if 256 ≤ e.target then
    (s1.modAdm fun a => { a with extHeld := vupd a.extHeld (e.target - 256) fun _ => true }).emit 2 0x40
      (pack [(0, 10, e.target - 256)])
  else s1

/-- The loop of the grant scan over the ranked entries; `n` grants have been made. -/
def State.admScan (strict : Bool) : Nat → List Entry → State → State
  | _, [], s => s
  | n, e :: r, s =>
    if n = s.adm.gpt then s
    else if s.adm.fits e then State.admScan strict (n + 1) r (s.admGrant e)
    else
      let s1 := s.fabCount 0x0D 0 1
      if strict then s1 else State.admScan strict n r s1

/-- Step 10 (R179). -/
def State.admGrantScan (s : State) (now : Nat) : State :=
  if bit s.adm.ctl 0 then s
  else
    let el := rank (s.adm.queue.filter fun e => e.confirmed && !e.granted)
    let strict := !bit s.adm.ctl 1 || s.adm.resv == 0 || el.any fun e => decide (e.made + s.adm.resv * 1000 ≤ now)
    State.admScan strict 0 el
      ((s.modAdm fun a => { a with strict := strict }).onlyIf strict fun s => s.fabCount 0x0C 0 1)

/-- OVER after the tick, with its event if a bit rose (R183). -/
def State.admOver (s : State) : State :=
  let o := s.adm.over fun _ => false
  let s1 := s.modAdm fun a => { a with overB := o }
  if o &&& (2047 ^^^ s.adm.overB) ≠ 0 then s1.emit 2 0x44 (pack [(0, 11, o)]) else s1

/-- The tick at time `t` with the inputs `ins` (R177). -/
def State.admTickAt (s : State) (t : Nat) (ins : List AdmIn) : State :=
  let s1 := s.modAdm fun a => ins.foldl (fun a m => a.step1 t m) a
  let s2 := s1.modAdm fun a => (ins.foldl (fun a m => a.step2 t m) a).freshen t
  let s3 := s2.admModel
  let s4 := s3.modAdm fun a => a.binStep t
  let s5 := s4.modAdm fun a => ins.foldl (fun a m => a.step5 m) a
  let s6 := ins.foldl (fun s m => s.admStep6 t m) s5
  let s7 := forFin 16 (fun i s => s.slotTick i t) s6
  let s8 := s7.admDeadlines t
  let s8 := s8.modAdm fun a => a.reckon
  let s9 := s8.admShed t
  let s10 := s9.admGrantScan t
  (s10.modAdm fun a => a.reckon).admOver

/-- ADM's next tick, not before time `due`; the newest `late` inputs have not arrived yet. While stopped for an entry,
ADM holds its inputs and runs the model and the bins alone (R666). -/
def State.admTickFrom (s : State) (due late : Nat) : State :=
  if s.isUp 2 && s.tmbRuns then
    let s1 := s.advanceTo (max due (s.adm.tickAt + 10))
    let t := s1.now
    let first := !s1.adm.ticked
    let s2 := s1.modAdm fun a => { a with
      tickAt := t, binAt := if first then t else a.binAt, binLen := if first then a.binMs else a.binLen }
    let s2 := (s2.fabCount 0x09 0 1).fabCount 0x0E 0 s2.adm.queue.length
    if s2.adm.stopped then
      s2.admModel.modAdm fun a => a.binStep t
    else
      let k := s2.adm.inbox.length - late
      let ins := s2.adm.inbox.take k
      (s2.modAdm fun a => { a with inbox := a.inbox.drop k }).admTickAt t ins
  else s

/-! ## Messages to the targets -/

/-- Take the oldest message `m` on its way to target `t`; `none` when there is none. -/
def takeMsg (t : Nat) (m : ToTgt) : List (Nat × ToTgt) → Option (List (Nat × ToTgt))
  | [] => none
  | x :: r => if x.1 = t then (if x.2 = m then some r else none) else (takeMsg t m r).map (x :: ·)

/-- Messages to one target arrive in the order sent: `f` acts when the oldest one for `t` is `m`. -/
def State.deliver (s : State) (t : Nat) (m : ToTgt) (f : State → State) : State :=
  match takeMsg t m s.adm.toTgt with
  | none => s
  | some r => if s.isUp (islOf t) then f (s.modAdm fun a => { a with toTgt := r }) else s

/-! ## Register stores -/

/-- A store of core `c` to REQ, CANCEL or RELEASE: DONE clears and ADM decides at its next tick (R159). -/
def State.admStore (s : State) (c : Fin 4) (m : Nat → AdmIn) : State :=
  let d := s.draw 3
  let k := s.adm.resSeq[c] + 1
  (d.2.modAdm fun a =>
    { a with
      resDone := upd a.resDone c fun _ => false, resCode := upd a.resCode c fun _ => d.1,
      resSeq := upd a.resSeq c fun _ => k }).toAdm (m k)

/-- SITE_LIM (R171). -/
def State.siteLimWrite (s : State) (v : W32) : State :=
  s.modAdm fun a => { a with siteLim := keep 0xFFFF v, siteAt := s.now, stale := false }

def State.admRead (s : State) (off : Nat) (c : Option (Fin 4)) : W32 :=
  let a := s.adm
  let nat (w : Nat) (q : Rat) : W32 := pack [(0, w, satN w (roundQ q).toNat)]
  if off = 0 then a.ctl
  else if off = 4 then
    pack [(0, 9, a.queue.length), (9, 1, b2n a.strict), (10, 1, b2n (a.extHeld.toList.any id))]
  else if off = 0xC then match c with
    | some c => pack [(0, 3, a.resCode[c]), (3, 1, b2n a.resDone[c])]
    | none => 0
  else if off = 0x18 then pack [(0, 16, a.cntFull), (16, 16, a.cntDropped)]
  else if off = 0x1C then pack [(0, 16, a.cntRefused), (16, 16, a.cntShed)]
  else if h : 0x20 ≤ off ∧ off < 0x30 then a.bankLim[(off - 0x20) / 4]'(by omega)
  else if off = 0x30 then a.modLim
  else if h : 0x34 ≤ off ∧ off < 0x44 then nat 16 (a.bankLoad[(off - 0x34) / 4]'(by omega))
  else if off = 0x44 then nat 16 a.modLoad
  else if off = 0x48 then a.winCfg
  else if off = 0x4C then pack [(0, 32, satN 32 a.eW)]
  else if off = 0x50 then a.siteLim
  else if off = 0x54 then a.siteCfg
  else if off = 0x58 then nat 16 a.siteLoad
  else if off = 0x5C then a.heatCfg
  else if off = 0x60 then a.modelCfg
  else if off = 0x64 then a.pFixed
  else if off = 0x68 then
    if a.ticked then pack [(0, 16, scode 16 (clampI (-32768) 32767 (roundQ (a.tModel * 16)))),
      (16, 16, scode 16 (clampI (-32768) 32767 (roundQ (a.tbp * 16))))] else 0
  else if off = 0x6C then
    pack [(0, 16, satN 16 (roundQ (a.pRun * 100)).toNat), (16, 16, satN 16 (truncQ (a.pCap * 100)).toNat)]
  else if off = 0x70 then pack [(0, 11, a.overB)]
  else if h : 0x80 ≤ off ∧ off < 0x90 then pack [(0, 16, satN 16 (a.vBank[(off - 0x80) / 4]'(by omega)))]
  else if h : 0x100 ≤ off ∧ off < 0x20C then a.claim[(off - 0x100) / 4]'(by omega)
  else if h : 0x400 ≤ off ∧ off < 0x500 then
    let x := a.slots[(off - 0x400) / 16]'(by omega)
    match off % 16 with
    | 0 => x.cfg
    | 4 => x.dutyReg
    | 8 => pack [(0, 10, x.lastDuty), (10, 2, x.st), (16, 16, x.shed)]
    | _ => 0
  else if 0x1000 ≤ off ∧ off < 0x2000 then sget (fun _ => (0 : W32)) a.extClaim ((off - 0x1000) / 4)
  else if 0x2000 ≤ off ∧ off < 0x2080 then
    BitVec.ofNat 32 (bitsOf 32 fun i => vget a.extHeld (32 * ((off - 0x2000) / 4) + i) false)
  else 0

/-- A store into the ADM block by a core. While ADM has stopped (R580) it takes no setting; stores to REQ, CANCEL and
RELEASE are held as its other inputs (R666). With SITE_EN 0, OVER.SITE and OVER.SITE_STALE read 0 (R171). -/
def State.admWrite (s : State) (c : Fin 4) (off : Nat) (v : W32) : State :=
  if off = 8 then s.admStore c fun k => .req c k (fld v 0 11) (fld v 12 3) (fld v 16 16)
  else if off = 0x10 then s.admStore c fun k => .cancel c k (fld v 0 11)
  else if off = 0x14 then s.admStore c fun k => .relExt c k (fld v 0 10)
  else if s.adm.stopped then s
  else if off = 0 then
    s.modAdm fun a =>
      { a with ctl := keep 0xFFFF07F3 v, overB := if bit v 9 then a.overB else a.overB &&& 0x4FF }
  else if h : 0x20 ≤ off ∧ off < 0x30 then
    s.modAdm fun a => { a with bankLim := upd a.bankLim ⟨(off - 0x20) / 4, by omega⟩ fun _ => keep 0xFFFF v }
  else if off = 0x30 then s.modAdm fun a => { a with modLim := keep 0xFFFF v }
  else if off = 0x48 then s.modAdm fun a =>
      { a with winCfg := keep 0xFFFF00FF v, winLow := a.winLow || decide (fld v 16 16 < fld a.winCfg 16 16) }
  else if off = 0x50 then s.siteLimWrite v
  else if off = 0x54 then s.modAdm fun a => { a with siteCfg := keep 0x00FFFFFF v }
  else if off = 0x5C then s.modAdm fun a => { a with heatCfg := keep 0x00FF0FFF v }
  else if off = 0x60 then s.modAdm fun a => { a with modelCfg := v }
  else if off = 0x64 then s.modAdm fun a => { a with pFixed := keep 0xFFFF v }
  else if h : 0x100 ≤ off ∧ off < 0x1C0 then
    s.modAdm fun a => { a with claim := upd a.claim ⟨(off - 0x100) / 4, by omega⟩ fun _ => v }
  else if h : 0x400 ≤ off ∧ off < 0x500 then
    let i : Fin 16 := ⟨(off - 0x400) / 16, by omega⟩
    match off % 16 with
    | 0 => s.slotCfgWrite i v
    | 4 => s.modAdm fun a => a.modSlot i fun x => { x with dutyReg := keep 0xFFFF03FF v }
    | _ => s
  else if 0x1000 ≤ off ∧ off < 0x2000 then
    s.modAdm fun a => { a with extClaim := sset (fun _ => (0 : W32)) ((off - 0x1000) / 4) v a.extClaim }
  else s

/-- ADM starts again at HUB power-up: every switched-on channel is charged with its reset claim, and the requests that
parked channels held are taken (R191). -/
def State.admStart (s : State) : State :=
  let s1 := { s with adm := Adm.init s.now }
  forFin 48 (fun n s =>
    let h := s.hs[n]
    let s2 := if s.hsUp n && hsOn h.st then
        s.modAdm fun a =>
          { a with
            view := vupd a.view n.val fun _ => if h.st == .on then .on else .inrush,
            held := vupd a.held n.val fun _ => fld (claimReset n.val) 0 16 }
      else s
    match h.heldReq with
    | some p =>
      if s.hsUp n then
        (s2.modHs n fun h => { h with heldReq := none }).toAdm (.own n.val p 0 0 0 .restart)
      else s2
    | none => s2) s1

end Sys2Proof.Machine
end

