-- ==== Sys2Proof/Machine/Inputs.lean ====
section
/-! DEFINITION. Switch, direct and analogue inputs, the crossbar, limp-home and the limp store
(spec/09_inputs_and_limp_home.md). -/

namespace Sys2Proof.Machine

/-! ## Routing (R318, R319, R328) -/

/-- Limp-map byte of a target. -/
def State.mapByte (s : State) (t : Fin 67) : W32 := BitVec.ofNat 32 s.inp.lmap[t].toNat

def State.mapSel (s : State) (t : Fin 67) : Bool := bit (s.mapByte t) 0

def State.mapDin (s : State) (t : Fin 67) : Fin 8 := ⟨fld (s.mapByte t) 1 3 % 8, by omega⟩

/-- Routed level of a target. -/
def State.routedLevel (s : State) (t : Fin 67) : Bool := s.inp.din[s.mapDin t] != bit (s.mapByte t) 4

/-- The target's FOLLOW bit. -/
def State.follows (s : State) (t : Fin 67) : Bool := bit (s.inp.follow[t.val / 32]'(by omega)) (t.val % 32)

def State.inLimp (s : State) (t : Fin 67) : Bool :=
  if t.val < 48 then vget (s.hs.map (·.limp)) t.val false
  else if t.val < 64 then vget (s.vd.map (·.limp)) (t.val - 48) false
  else vget (s.ls.map (·.limp)) (t.val - 64) false

/-- A heater slot owns the channel (R321). -/
def State.slotOwned (s : State) (t : Fin 67) : Bool := t.val < 48 && s.isUp 2 && (s.adm.ownerOf t.val).isSome

/-- A change of the routed level reaches its target (R319); an enabled heater slot that owns the channel shuts it out
(R321). -/
def State.routeTo (s : State) (t : Fin 67) (level same : Bool) : State :=
  if !(s.inLimp t || s.follows t) || s.slotOwned t then s
  else if h : t.val < 48 then s.hsRouted ⟨t.val, h⟩ level same
  else if h : t.val < 64 then s.vdRouted ⟨t.val - 48, by omega⟩ level same
  else s.lsRouted ⟨t.val - 64, by omega⟩ level same

/-- A filtered DIN level changes (R318, R319); `same` says that a routed OFF reaches its target in the island cycle of
the target's last event (R54, R222, R259). -/
def State.dinChange (s : State) (i : Fin 8) (level : Bool) (half : Nat) (same : Bool) : State :=
  if s.isUp 0 && s.tmbRuns && s.inp.din[i] != level && max 1 (fld s.inp.dinCfg 0 8) ≤ half then
    let s1 := (s.modInp fun p =>
      { p with din := upd p.din i fun _ => level, dinChg := upd p.dinChg i fun _ => true }).emit 0 0x31
        (pack [(0, 3, i.val), (3, 1, b2n level)])
    let s2 := s1.onlyIf (bit s.inp.dinCfg (8 + i.val)) fun s => s.wakeReq 2
    forFin 67 (fun t s => if s.mapDin t = i then s.routeTo t (s.routedLevel t) same else s) s2
  else s

/-- A target whose routed OFF came too late repeats it if its level is still low (R320). -/
def State.routedRepeat (s : State) (t : Fin 67) : State :=
  let low := !s.routedLevel t
  if h : t.val < 48 then
    let n : Fin 48 := ⟨t.val, h⟩
    if s.hs[n].repeatOff && low then (s.modHs n fun h => { h with repeatOff := false }).hsFall n false else s
  else if h : t.val < 64 then
    let n : Fin 16 := ⟨t.val - 48, by omega⟩
    if s.vd[n].repeatOff && low then (s.modVd n fun v => { v with repeatOff := false }).vdFall n false else s
  else
    let k : Fin 3 := ⟨t.val - 64, by omega⟩
    if s.ls[k].repeatOff && low then (s.modLs k fun l => { l with repeatOff := false }).lsFall k false else s

/-! ## Limp mode (R323 to R327) -/

def Inp.active (p : Inp) : Bool := p.pad || p.deputy || p.expiry

/-- A mapped target enters limp mode; a heater slot that owned it is disabled (R321, R326). -/
def State.limpEnter (s : State) (t : Fin 67) (src : Nat) (same : Bool) : State :=
  let level := s.routedLevel t
  if h : t.val < 48 then
    let s1 := if s.slotOwned t then s.slotsOff fun x => x.ch = t.val else s
    s1.hsLimpEnter ⟨t.val, h⟩ src level same
  else if h : t.val < 64 then s.vdLimpEnter ⟨t.val - 48, by omega⟩ src level same
  else s.lsLimpEnter ⟨t.val - 64, by omega⟩ src level same

def State.limpLeave (s : State) (t : Fin 67) : State :=
  if h : t.val < 48 then s.hsLimpExit ⟨t.val, h⟩
  else if h : t.val < 64 then s.vdLimpExit ⟨t.val - 48, by omega⟩
  else s.lsLimpExit ⟨t.val - 64, by omega⟩

/-- Mapped targets that are not in limp mode enter it. -/
def State.limpRest (s : State) (src : Nat) : State :=
  forFin 67 (fun t s => if s.mapSel t && !s.inLimp t then s.limpEnter t src false else s) s

/-- A change of the limp sources: ACTIVE rising or falling acts on every target (R326, R327). `src` is the source that
changed: 0 the pad, 1 the Deputy, 2 expiry. The islands without power in DEEP follow when they start again. -/
def State.limpSources (s : State) (src : Nat) (same : Bool) (f : Inp → Inp) : State :=
  let s1 := s.modInp f
  if !s.inp.active && s1.inp.active then
    let s2 := (s1.modInp fun p => { p with limpSrc := src }).emit 0 0x32 (pack [(0, 2, src)])
    forFin 67 (fun t s => if s.mapSel t then s.limpEnter t src same else s) s2
  else if s.inp.active && !s1.inp.active then
    let s2 := s1.emit 0 0x33 0
    forFin 67 (fun t s => s.limpLeave t) s2
  else s1

/-- The filtered LIMP pad changes (R324). -/
def State.limpPad (s : State) (level : Bool) (ms : Nat) (same : Bool) : State :=
  if s.isUp 0 && s.tmbRuns && s.inp.pad != level && max 1 (fld s.inp.limpCfg 0 8) ≤ ms then
    let s1 := s.limpSources 0 same fun p => { p with pad := level }
    s1.onlyIf (level && bit s.inp.limpCfg 8) fun s => s.wakeReq 3
  else s

/-! ## The limp store (R329 to R332) -/

/-- Index of the newer valid copy (R332). -/
def newerCopy (v : Vector LimpCopy 2) : Option (Fin 2) :=
  let a := v[0]
  let b := v[1]
  if a.valid && b.valid then
    if a.seq = (b.seq + 1) % 65536 then some 0
    else if b.seq = (a.seq + 1) % 65536 then some 1
    else if b.seq ≤ a.seq then some 0 else some 1
  else if a.valid then some 0 else if b.valid then some 1 else none

/-- The working map is loaded from the store; without a valid copy every entry is 0 and NV_ERR is emitted (R331). -/
def State.limpLoad (s : State) : State :=
  match newerCopy s.limpStore with
  | some i => s.modInp fun p => { p with lmap := s.limpStore[i].map, seq := s.limpStore[i].seq }
  | none =>
    (s.modInp fun p => { p with lmap := Vector.replicate 67 0, seq := 0, nvErr := true }).emit 0 0x35 0

def State.lmapRes (s : State) (r : Nat) : State := s.modInp fun p => { p with lmapRes := r }

/-- A write of a map word (R329). -/
def State.lmapWrite (s : State) (w : Nat) (v : W32) : State :=
  if s.inp.active || s.inp.busy then s.lmapRes 2
  else
    s.modInp fun p =>
      { p with
        lmapRes := 0,
        lmap := Vector.ofFn fun t : Fin 67 => if t.val / 4 = w then BitVec.ofNat 8 (fld v (8 * (t.val % 4)) 8) else p.lmap[t] }

/-- A write of LMAP_CMD (R330). -/
def State.lmapCmd (s : State) (key : Nat) (commit reload : Bool) : State :=
  if key ≠ 0xA5C3 || s.inp.active || s.inp.busy then s.lmapRes 2
  else if commit then (s.lmapRes 0).modInp fun p => { p with busy := true }
  else if reload then
    let s1 := (s.lmapRes 0).limpLoad
    s1.emit 0 0x34 (pack [(16, 16, s1.inp.seq)])
  else s.lmapRes 0

/-- The commit ends: the older copy holds the map. A commit that a loss of power has cut short never ends, and leaves the
previous copy in force (R330). -/
def State.lmapDone (s : State) : State :=
  if s.inp.busy && s.isUp 0 then
    let older : Fin 2 := match newerCopy s.limpStore with | some 0 => 1 | _ => 0
    let q := match newerCopy s.limpStore with | some i => (s.limpStore[i].seq + 1) % 65536 | none => 1
    let s1 := { s with limpStore := upd s.limpStore older fun _ => LimpCopy.make q s.inp.lmap }
    (s1.modInp fun p => { p with busy := false, seq := q }).emit 0 0x34 (pack [(0, 1, 1), (16, 16, q)])
  else s

/-! ## Switch inputs (R312 to R317) -/

/-- Switch inputs are polled rather than sampled (R315). -/
def State.siPolled (s : State) : Bool := s.pwr.phase == .sleep || s.pwr.phase == .deep

/-- Time between two polls (R315). -/
def Inp.pollUs (p : Inp) : Nat := 8000 * 2 ^ fld p.siPoll 0 3

/-- The level a switch input reads from its pad voltage: pulled up (DIR 0) it is closed below 3 V and open above 6 V,
pulled down (DIR 1) the reverse; between the two limits the level is free (R312). -/
def siLevel (cfg : W32) (mv : Int) (free : Nat) : Bool :=
  if mv < 3000 then !bit cfg 2 else if 6000 < mv then bit cfg 2 else free % 2 = 1

/-- Wetting current that SI_CFG.WET asks for at time `t`, in mA (R313): setting 3 cleans with 10 mA for 20 ms after each
accepted closing. -/
def Si.wetMa (x : Si) (t : Nat) : Nat :=
  match fld x.cfg 0 2 with
  | 0 => 0
  | 1 => 2
  | 2 => 10
  | _ => match x.closedAt with
    | some c => if t < c + 20000 then 10 else 2
    | none => 2

/-- Wetting current in force at input `i` (R313, R315): always in RUN and IDLE; in SLEEP and DEEP only in the 200 us
before the next poll; none while AON is not powered. -/
def State.wetting (s : State) (i : Fin 16) : Nat :=
  if !s.isUp 0 then 0
  else if s.siPolled && s.now + 200 < s.inp.pollAt + s.inp.pollUs then 0
  else s.inp.si[i].wetMa s.now

/-- An accepted change of switch input `i` (R313, R314, R316). -/
def State.siAccept (s : State) (i : Fin 16) (closed : Bool) : State :=
  let x := s.inp.si[i]
  let s1 := (s.modInp fun p =>
    { p with
      si := upd p.si i fun x =>
        { x with closed := closed, chg := true, cnt := 0, closedAt := if closed then some s.now else x.closedAt } }).emit
      0 0x30 (pack [(0, 4, i.val), (4, 1, b2n closed)])
  s1.onlyIf (bit x.cfg (if closed then 16 else 17)) fun s => s.wakeReq 1

/-- Samples in RUN and IDLE, once a millisecond: `n` consecutive ones find the pad at `mv` (R314). -/
def State.siSamples (s : State) (i : Fin 16) (mv : Int) (n : Nat) : State :=
  let d := s.draw 1
  let x := s.inp.si[i]
  let closed := siLevel x.cfg mv d.1
  if s.isUp 0 && s.tmbRuns && !s.siPolled && !s.inp.vl3Low && x.closed != closed && max 1 (fld x.cfg 8 8) ≤ n then
    d.2.siAccept i closed
  else d.2

/-- One input at a poll that reads `c` (R315). -/
def State.siPollOne (s : State) (i : Fin 16) (c : Bool) : State :=
  let x := s.inp.si[i]
  if x.closed == c then s.modInp fun p => { p with si := upd p.si i fun x => { x with cnt := 0 } }
  else if fld s.inp.siPoll 8 2 + 1 ≤ x.cnt + 1 then s.siAccept i c
  else s.modInp fun p => { p with si := upd p.si i fun x => { x with cnt := x.cnt + 1 } }

/-- The next poll of every input in SLEEP and DEEP, 8 x 2^PER ms after the last or after the entry to the state, with
the pad voltage each input finds at its end (R315). -/
def State.siPollAll (s : State) (mv : Vector Int 16) : State :=
  if s.siPolled then
    let at_ := s.inp.pollAt + s.inp.pollUs
    let s1 := (s.advanceTo at_).modInp fun p => { p with pollAt := at_ }
    let d := s1.draw 16
    if s1.inp.vl3Low then s1
    else
      forFin 16 (fun i s => s.siPollOne i (siLevel s.inp.si[i].cfg mv[i] (d.1 / 2 ^ i.val))) d.2
  else s

/-- VL3 crosses 9 V (R317). -/
def State.vl3Cross (s : State) (mv : Nat) : State :=
  if s.isUp 0 && s.tmbRuns then s.modInp fun p => { p with vl3Low := decide (mv < 9000) } else s

/-! ## Analogue inputs and VSENS (R334, R335) -/

def avgMv (codes : List Nat) : Nat := roundDiv (codes.foldl (· + ·) 0 * 5000) (codes.length * 4096)

/-- The load current of VSENS as a row finds it (R337). -/
def State.vsensMa (s : State) (ma : Nat) : State :=
  s.modInp fun p => { p with vsMa := if p.vsOn then satN 16 ma else 0 }

/-- One conversion of an enabled input (R334). `ma` is the load current of VSENS at that time, which VSENS_STAT shows
whether or not the input is enabled. -/
def State.ainConv (s : State) (i : Fin 4) (code : BitVec 12) (ma : Nat) : State :=
  let runs := s.pwr.phase == .run || s.pwr.phase == .sleep || s.pwr.phase == .entering || s.pwr.phase == .returning
  let s := s.onlyIf (s.isUp 0) fun s => s.vsensMa ma
  if s.isUp 0 && runs && bit s.inp.ainCtl i.val then
    let x := s.inp.ain[i]
    let last := (code.toNat :: x.last).take 8
    let mv := avgMv last
    let lo := fld s.inp.ainWin[i] 0 16
    let hi := fld s.inp.ainWin[i] 16 16
    let out := decide (mv < lo) || decide (hi < mv)
    let s1 := s.modInp fun p =>
      { p with ain := upd p.ain i fun _ => { code := code.toNat, mv := mv, last := last, outside := out } }
    if out && !x.outside then
      s1.emit 0 0x36 (pack [(0, 2, i.val), (2, 1, b2n (decide (hi < mv))), (16, 16, mv)])
    else s1
  else s

/-- A write of AIN_CTL: VSENS_EN from 0 to 1 clears FAULT and turns VSENS on (R335). -/
def State.ainCtlWrite (s : State) (v : W32) : State :=
  let rise := bit v 8 && !bit s.inp.ainCtl 8
  s.modInp fun p =>
    { p with
      ainCtl := keep 0x10F v, vsOn := if rise then true else bit v 8 && p.vsOn,
      vsFault := if rise then false else p.vsFault, vsMa := if bit v 8 then p.vsMa else 0 }

/-- VSENS has carried `ma` for `us` microseconds: at its limit for 1 ms it turns off (R335). -/
def State.vsensTrip (s : State) (ma us : Nat) : State :=
  if s.isUp 0 && s.inp.vsOn then
    if 230 ≤ ma && 1000 ≤ us then
      (s.modInp fun p => { p with vsOn := false, vsFault := true, vsMa := 0 }).emit 0 0x37 (pack [(0, 16, satN 16 ma)])
    else s.vsensMa ma
  else s

/-- VSENS is off in DEEP and OFF (R335). -/
def Inp.vsensOff (p : Inp) : Inp := { p with vsOn := false, vsMa := 0 }

/-- On wake VSENS turns on again if VSENS_EN is 1 (R335), after a FAULT as well, whose flag only a write of
VSENS_EN clears. -/
def Inp.vsensWake (p : Inp) : Inp :=
  if bit p.ainCtl 8 then { p with vsOn := true } else p

/-! ## Registers (R337) -/

def Inp.read (p : Inp) (off : Nat) : W32 :=
  if h : off < 0x40 then (p.si[off / 4]'(by omega)).cfg
  else if off = 0x40 then BitVec.ofNat 32 (bitsOf 16 fun i => (vget p.si i Si.init).closed)
  else if off = 0x44 then BitVec.ofNat 32 (bitsOf 16 fun i => (vget p.si i Si.init).chg)
  else if off = 0x48 then p.siPoll
  else if off = 0x4C then pack [(0, 1, b2n p.vl3Low)]
  else if off = 0x50 then p.dinCfg
  else if off = 0x54 then BitVec.ofNat 32 (bitsOf 8 fun i => vget p.din i false)
  else if off = 0x58 then BitVec.ofNat 32 (bitsOf 8 fun i => vget p.dinChg i false)
  else if off = 0x60 then p.limpCfg
  else if off = 0x64 then
    pack [(0, 1, b2n p.pad), (1, 1, b2n p.deputy), (2, 1, b2n p.expiry), (3, 1, b2n p.active)]
  else if off = 0x6C then
    pack [(0, 1, b2n p.busy), (1, 1, b2n p.nvErr), (4, 2, p.lmapRes), (16, 16, p.seq)]
  else if h : 0x70 ≤ off ∧ off < 0x7C then p.follow[(off - 0x70) / 4]'(by omega)
  else if off = 0x80 then p.ainCtl
  else if off = 0x84 then pack [(0, 1, b2n p.vsOn), (1, 1, b2n p.vsFault), (16, 16, p.vsMa)]
  else if h : 0x90 ≤ off ∧ off < 0xA0 then
    let x := p.ain[(off - 0x90) / 4]'(by omega)
    pack [(0, 12, x.code), (16, 16, x.mv)]
  else if h : 0xA0 ≤ off ∧ off < 0xB0 then p.ainWin[(off - 0xA0) / 4]'(by omega)
  else if 0x100 ≤ off ∧ off < 0x144 then
    let w := (off - 0x100) / 4
    let b (i : Nat) : Nat := (vget p.lmap (4 * w + i) 0).toNat
    pack [(0, 8, b 0), (8, 8, b 1), (16, 8, b 2), (24, 8, b 3)]
  else 0

def State.inpWrite (s : State) (off : Nat) (v : W32) : State :=
  if h : off < 0x40 then
    s.modInp fun p =>
      { p with si := upd p.si ⟨off / 4, by omega⟩ fun x => { x with cfg := keep 0x3FF07 v } }
  else if off = 0x44 then
    s.modInp fun p =>
      { p with si := Vector.ofFn fun i : Fin 16 => { p.si[i] with chg := p.si[i].chg && !bit v i.val } }
  else if off = 0x48 then s.modInp fun p => { p with siPoll := keep 0x307 v }
  else if off = 0x50 then s.modInp fun p => { p with dinCfg := keep 0xFFFF v }
  else if off = 0x58 then
    s.modInp fun p => { p with dinChg := Vector.ofFn fun i : Fin 8 => p.dinChg[i] && !bit v i.val }
  else if off = 0x60 then s.modInp fun p => { p with limpCfg := keep 0x1FF v }
  else if off = 0x68 then s.lmapCmd (fld v 16 16) (bit v 0) (bit v 1)
  else if h : 0x70 ≤ off ∧ off < 0x7C then
    s.modInp fun p =>
      { p with
        follow := upd p.follow ⟨(off - 0x70) / 4, by omega⟩ fun _ => if off = 0x78 then keep 7 v else v }
  else if off = 0x80 then s.ainCtlWrite v
  else if h : 0xA0 ≤ off ∧ off < 0xB0 then
    s.modInp fun p => { p with ainWin := upd p.ainWin ⟨(off - 0xA0) / 4, by omega⟩ fun _ => v }
  else if 0x100 ≤ off ∧ off < 0x144 then s.lmapWrite ((off - 0x100) / 4) v
  else s

end Sys2Proof.Machine
end

