-- ==== Sys2Proof/Machine/Queues.lean ====
section
/-! DEFINITION. The hardware queues (spec/12_queues.md). -/

namespace Sys2Proof.Machine

def State.modQue (s : State) (f : Que → Que) : State := { s with que := f s.que }

def State.modQ (s : State) (q : Fin 32) (f : Queue → Queue) : State := s.modQue fun u => { u with q := upd u.q q f }

def Queue.en (x : Queue) : Bool := bit x.cfg 0
def Queue.w32 (x : Queue) : Bool := bit x.cfg 1
def Queue.base (x : Queue) : Nat := fld x.cfg 4 9
def Queue.size (x : Queue) : Nat := fld x.cfg 16 10
def Queue.hwm (x : Queue) : Nat := fld x.ctrl 0 14
def Queue.idleTmo (x : Queue) : Nat := fld x.ctrl 16 16

/-- Entries the queue holds when full: 16 or 8 to a granule. -/
def Queue.depth (x : Queue) : Nat := if x.en then x.size * (if x.w32 then 8 else 16) else 0

/-- HW (R410). -/
def Queue.hwNow (x : Queue) : Bool := x.hwm ≠ 0 && x.hwm ≤ x.depth && x.hwm ≤ x.ents.length

/-- Recompute HW and emit HIGH_WATER at its rise (R410). -/
def State.queHw (s : State) (q : Fin 32) : State :=
  let x := s.que.q[q]
  let s1 := s.modQ q fun x => { x with hw := x.hwNow }
  if x.hwNow && !x.hw then s1.emit 1 0x60 (pack [(0, 5, q.val), (16, 14, x.ents.length)]) else s1

/-- OVF, UNDERRUN and WIDTH_ERR each emit at a rise of their bit (R413). -/
def State.queOvf (s : State) (q : Fin 32) : State :=
  let x := s.que.q[q]
  let s1 := s.modQ q fun x => { x with ovf := true, cntOvf := satN 16 (x.cntOvf + 1) }
  if x.ovf then s1 else s1.emit 1 0x63 (pack [(0, 5, q.val)])

def State.queUnderrun (s : State) (q : Fin 32) : State :=
  let x := s.que.q[q]
  let s1 := s.modQ q fun x => { x with underrun := true, cntUnd := satN 16 (x.cntUnd + 1) }
  if x.underrun then s1 else s1.emit 1 0x64 (pack [(0, 5, q.val)])

def State.queWidth (s : State) (q : Fin 32) : State :=
  let x := s.que.q[q]
  let s1 := s.modQ q fun x => { x with widthErr := true }
  if x.widthErr then s1 else s1.emit 1 0x65 (pack [(0, 5, q.val)])

/-- Start of the idle timer now, if it is enabled (R412). -/
def Queue.idleStart (x : Queue) (now : Nat) : Option Nat := if x.idleTmo = 0 then none else some now

/-- One word enters a queue that has room (R404, R411, R412). -/
def State.quePut (s : State) (q : Fin 32) (v : W32) : State :=
  let x := s.que.q[q]
  let w := if x.w32 then v else keep 0xFFFF v
  let empty := x.ents.isEmpty
  let s1 := s.modQ q fun x =>
    { x with ents := x.ents ++ [w], idleAt := if empty then x.idleStart s.now else x.idleAt }
  let s2 := if empty && bit x.ctrl 14 then s1.emit 1 0x62 (pack [(0, 5, q.val)]) else s1
  s2.queHw q

/-- A record of words is pushed whole, or discarded as one overflow (R399, R400, R403, R406). `w32` is the width of
the producer's words. Answers whether it entered. -/
def State.quePushNow (s : State) (q : Fin 32) (words : List W32) (w32 : Bool) : Bool × State :=
  let x := s.que.q[q]
  if x.en && x.w32 != w32 then (false, s.queWidth q)
  else if x.depth < x.ents.length + words.length then (false, s.queOvf q)
  else (true, words.foldl (fun s v => s.quePut q v) s)

/-- A block pushes: held in its handshake while the CORE clock is stopped (R415). After a control-plane reset it meets
the queues as the reset leaves them, at once (R414). `ret` numbers a chain's return. -/
def State.quePush (s : State) (q : Fin 32) (words : List W32) (w32 : Bool) (ret : Nat) : Bool × State :=
  if !s.isUp 1 then (false, s)
  else if s.coreGated then
    (true, (s.modQue fun u => { u with held := u.held ++ [{ q := q.val, words := words, w32 := w32, ret := ret }] }).coreHolds)
  else s.quePushNow q words w32

/-- The producer of the queue is a block (R397). -/
def blockProducer (q : Nat) : Bool := q = 12 || q = 14 || 16 ≤ q

/-- A firmware store to PUSH (R398, R404): one word of the queue's own width. -/
def State.queFwPush (s : State) (q : Fin 32) (v : W32) : State :=
  if blockProducer q.val then s.modQ q fun x => { x with cmdRes := 2 }
  else (s.quePushNow q [v] s.que.q[q].w32).2

/-- The oldest entry, or the last value (R404, R407). -/
def Queue.peek (x : Queue) : W32 := x.ents.headD x.last

/-- A pop: the value and the state after (R404, R407, R412). -/
def State.quePop (s : State) (q : Fin 32) : W32 × State :=
  let x := s.que.q[q]
  match x.ents with
  | v :: r =>
    (v, (s.modQ q fun x =>
      { x with ents := r, last := v, idleAt := if r.isEmpty then none else x.idleStart s.now }).queHw q)
  | [] => (x.last, s.queUnderrun q)

/-- A push and a pop of one island cycle (R408): the pop takes the oldest entry, which is the pushed word if the queue was
empty, and frees its place for the push. Neither sets UNDERRUN or OVF. -/
def State.quePushPop (s : State) (q : Fin 32) (v : W32) : W32 × State :=
  let x := s.que.q[q]
  let w := if x.w32 then v else keep 0xFFFF v
  if !x.en then (x.last, (s.queOvf q).queUnderrun q)
  else
    match x.ents with
    | [] => (w, s.modQ q fun x => { x with last := w })
    | o :: r => (o, (s.modQ q fun x => { x with ents := r ++ [w], last := o, idleAt := x.idleStart s.now }).queHw q)

/-- A firmware load of POP; queue 13 is popped by HP alone, and the value of the ignored load is free (R398). -/
def State.queFwPop (s : State) (q : Fin 32) : W32 × State :=
  if q.val = 13 then
    let d := s.draw 32
    (BitVec.ofNat 32 d.1, d.2.modQ q fun x => { x with cmdRes := 2 })
  else s.quePop q

/-- FLUSH (R409). -/
def State.queFlush (s : State) (q : Fin 32) : State :=
  (s.modQ q fun x => { x with ents := [], idleAt := none, cmdRes := 0 }).queHw q

/-- Ranges of two queues overlap. -/
def overlaps (b1 n1 b2 n2 : Nat) : Bool := b1 < b2 + n2 && b2 < b1 + n1

/-- A write of CFG (R401, R402). -/
def State.queCfgWrite (s : State) (q : Fin 32) (v : W32) : State :=
  let v := keep 0x03FF1FF3 v
  let x := s.que.q[q]
  if 24 ≤ q.val then if bit v 0 then s.modQ q fun x => { x with cmdRes := 3 } else s
  else if !bit v 0 then
    (s.modQ q fun x => { x with cfg := v, ents := [], idleAt := none, cmdRes := 0 }).queHw q
  else if x.en then s.modQ q fun x => { x with cmdRes := 3 }
  else
    let base := fld v 4 9
    let size := fld v 16 10
    let clash := (List.finRange 32).any fun p =>
      p ≠ q && s.que.q[p].en && overlaps base size s.que.q[p].base s.que.q[p].size
    if size = 0 || 512 < base + size || clash then s.modQ q fun x => { x with cmdRes := 3 }
    else
      s.modQ q fun x =>
        { x with cfg := v, ents := [], last := 0, idleAt := none, hw := false, cmdRes := 0 }

/-- The idle timer runs out (R412). -/
def State.queIdle (s : State) (q : Fin 32) : State :=
  let x := s.que.q[q]
  match x.idleAt with
  | none => s
  | some t =>
    if x.idleTmo ≠ 0 && !x.ents.isEmpty && s.coreRuns then
      let s1 := s.advanceTo (t + x.idleTmo)
      (s1.modQ q fun x => { x with idle := true, idleAt := none }).emit 1 0x61
        (pack [(0, 5, q.val), (16, 14, x.ents.length)])
    else s

def Queue.stat (x : Queue) : W32 :=
  pack [(0, 1, b2n x.ents.isEmpty), (1, 1, b2n (x.en && x.ents.length == x.depth)), (2, 1, b2n x.hw), (3, 1, b2n x.underrun),
    (4, 1, b2n x.ovf), (5, 1, b2n x.idle), (6, 1, b2n x.widthErr), (8, 2, x.cmdRes), (16, 14, x.ents.length)]

/-- Granules no enabled queue holds. -/
def Que.free (u : Que) : Nat :=
  512 - (List.finRange 32).foldl (fun a q => if u.q[q].en then a + u.q[q].size else a) 0

/-- A read of the QUE block without side effects; POP reads as PEEK here (R19). -/
def Que.read (u : Que) (off : Nat) : W32 :=
  if h : off < 0x400 then
    let x := u.q[off / 0x20]'(by omega)
    match off % 0x20 with
    | 0x00 => x.cfg
    | 0x08 => x.peek
    | 0x0C => x.stat
    | 0x10 => x.ctrl
    | 0x18 => pack [(0, 16, x.cntOvf), (16, 16, x.cntUnd)]
    | 0x1C => x.peek
    | _ => 0
  else if off = 0x400 then BitVec.ofNat 32 (bitsOf 32 fun i => !(vget u.q i (Queue.init 0)).ents.isEmpty)
  else if off = 0x404 then BitVec.ofNat 32 (bitsOf 32 fun i => (vget u.q i (Queue.init 0)).hw)
  else if off = 0x408 then pack [(0, 10, u.free)]
  else 0

/-- A store of a core into the QUE block. -/
def State.queWrite (s : State) (off : Nat) (v : W32) : State :=
  if h : off < 0x400 then
    let q : Fin 32 := ⟨off / 0x20, by omega⟩
    match off % 0x20 with
    | 0x00 => s.queCfgWrite q v
    | 0x04 => s.queFwPush q v
    | 0x0C => s.modQ q fun x =>
      { x with
        underrun := x.underrun && !bit v 3, ovf := x.ovf && !bit v 4, idle := x.idle && !bit v 5,
        widthErr := x.widthErr && !bit v 6 }
    | 0x10 => (s.modQ q fun x =>
      { x with ctrl := keep 0xFFFF7FFF v, idleAt := if fld v 16 16 = 0 then none else x.idleAt }).queHw q
    | 0x14 => if bit v 0 then s.queFlush q else s
    | _ => s
  else s

end Sys2Proof.Machine
end

