-- ==== Sys2Proof/Machine/Pmc.lean ====
section
/-! DEFINITION. The PMC block: registers, periodic dumps and tally tags (spec/13_performance_counters.md R419 to
R438). Counting itself is in Ops. -/

namespace Sys2Proof.Machine

/-! ## Fields -/

/-- Dump period exponent (R426). -/
def Pmc.dumpK (p : Pmc) : Nat := clampN 8 24 (fld p.ctl 4 5)

/-- Ring size in records (R430). -/
def Pmc.slots (p : Pmc) : Nat := 2 ^ (clampN 1 12 (fld p.ring 0 4))

/-- The ring is full (R430). -/
def Pmc.full (p : Pmc) : Bool := (p.wr + 1) % p.slots == p.rd % p.slots

/-- RING_OK for the present base and size (R432). -/
def Pmc.ringFits (p : Pmc) : Bool :=
  let b := p.base.toNat
  let e := b + 256 * p.slots
  b % 256 == 0 && ((sramBase ≤ b && e ≤ sramEnd) || (bulkBase ≤ b && e ≤ bulkEnd))

/-! ## Dumps -/

/-- A 48-bit counter as the two words of a record. -/
def words48 (n : Nat) : List Nat := [n % 2 ^ 32, n / 2 ^ 32 % 65536]

/-- The dump record of R429. -/
def State.dumpRecord (s : State) (isNow : Bool) : List Nat :=
  let p := s.pmc
  let started := bitsOf 4 fun c => (vget s.core c (Core.init 0 0)).started
  let en (n : Nat) : Nat := if bit p.ctl 0 then 2 ^ n - 1 else 0
  [s.count % 2 ^ 32, s.count / 2 ^ 32 + 65536 * p.seq, satN 16 p.skipSince + 65536 * satN 16 p.lostSince,
    started + 16 * b2n isNow + 256 * p.dumpK, en 24, en 16, p.ovfCore.toNat, p.ovfFab.toNat] ++
  (List.range 4).flatMap (fun c =>
    (List.range 6).map (fun i => vget p.cnt (6 * c + i) 0) ++ words48 (vget p.cyc c 0) ++ words48 (vget p.ret c 0)) ++
  p.fcnt.toList

/-- When the next dump is due: a multiple of 2^K after the last one taken, or the one DUMP_NOW asked for. -/
def State.dumpDue (s : State) : Option Nat :=
  let p := 2 ^ s.pmc.dumpK
  let per := if bit s.pmc.ctl 1 then
      some (if s.now % p = 0 && s.pmc.lastAt != s.now then s.now else (s.now / p + 1) * p) else none
  match per, s.pmc.nowAt with
  | some a, some b => some (min a b)
  | some a, none => some a
  | none, b => b

/-- The dump that falls due next is taken, skipped or lost (R426, R427, R430, R431). -/
def State.pmcDump (s : State) : State :=
  match s.dumpDue with
  | none => s
  | some t =>
    let s1 := s.advanceTo t
    let isNow := match s.pmc.nowAt with | some b => decide (b ≤ s1.now) | none => false
    let s2 := s1.modPmc fun p => { p with lastAt := s1.now, nowAt := if isNow then none else p.nowAt }
    if !s2.isUp 1 || s2.sup.coreReset then s
    else if !s2.coreRuns || s2.pmc.busy.isSome || !s2.pmc.ringOk then
      s2.modPmc fun p => { p with skipSince := p.skipSince + 1, cntSkip := satN 16 (p.cntSkip + 1) }
    else if s2.pmc.full then
      let s3 := s2.modPmc fun p =>
        { p with
          lostSince := p.lostSince + 1, cntLost := satN 16 (p.cntLost + 1), seq := (p.seq + 1) % 65536,
          lostSaid := true }
      s3.onlyIf (!s2.pmc.lostSaid) fun s => s.emit 1 0x71 (pack [(0, 16, s2.pmc.seq)])
    else
      let r := s2.dumpRecord isNow
      s2.modPmc fun p =>
        { p with
          busy := some (p.base.toNat + 256 * p.wr, r), seq := (p.seq + 1) % 65536, skipSince := 0, lostSince := 0 }

/-- The record is fully written and WR_IDX advances (R429). A write to bulk memory waits for BULK_RDY (R600). -/
def State.dumpDone (s : State) : State :=
  match s.pmc.busy with
  | none => s
  | some (a, r) =>
    if s.coreRuns && (isSram a || s.bulkOk) then
      (s.storeWords 5 a r).modPmc fun p => { p with busy := none, wr := (p.wr + 1) % p.slots, lostSaid := false }
    else s

/-- A write to DUMP_BASE or DUMP_RING (R432). -/
def State.dumpRingWrite (s : State) (f : Pmc → Pmc) : State :=
  if bit s.pmc.ctl 1 then s.modPmc fun p => { p with cmdRes := 3 }
  else s.modPmc fun p =>
    let q := f p
    { q with wr := 0, rd := 0, cmdRes := 0, ringOk := q.ringFits }

/-- CLEAR_ALL (R428). -/
def Pmc.clearAll (p : Pmc) : Pmc :=
  { p with
    cnt := Vector.replicate 24 0, cyc := Vector.replicate 4 0, ret := Vector.replicate 4 0,
    fcnt := Vector.replicate 16 0 }

/-! ## Tally tags (R433 to R435) -/

def lfsrStep (l : Nat) : Nat :=
  let b := (l ^^^ (l / 4) ^^^ (l / 8) ^^^ (l / 32)) % 2
  l / 2 + 32768 * b

def lfsrRun : Nat → Nat → Nat
  | 0, l => l
  | n + 1, l => lfsrRun n (lfsrStep l)

def Tag.k (t : Tag) : Nat := clampN 6 20 (fld t.ctl 4 5)

/-- reload() of R433. -/
def Tag.reload (t : Tag) : Tag :=
  let l := lfsrRun 16 t.lfsr.toNat
  let j := min (t.k - 1) 16
  { t with lfsr := BitVec.ofNat 16 l, down := 2 ^ t.k - 2 ^ (j - 1) + l % 2 ^ j }

/-- A write of TAG_CTL (R433). -/
def Tag.write (t : Tag) (v : W32) : Tag :=
  let w := keep 0xFFFF01F1 v
  if bit w 0 && !bit t.ctl 0 then
    ({ t with ctl := w, lfsr := if fld w 16 16 = 0 then 0xACE1 else BitVec.ofNat 16 (fld w 16 16) }).reload
  else { t with ctl := w }

def State.modTag (s : State) (c : Fin 4) (f : Tag → Tag) : State :=
  s.modPmc fun p => { p with tag := upd p.tag c f }

/-- The countdown of core `c` reaches zero: the word issued is tagged, or counted if a tag is in flight. -/
def State.tagSelect (s : State) (c : Fin 4) : State :=
  let s1 := if s.pmc.tag[c].inFlight then s.modPmc fun p => { p with tagSkip := satN 16 (p.tagSkip + 1) }
    else s.modTag c fun t => { t with inFlight := true }
  s1.modTag c Tag.reload

/-- Core `c` issues a word; a word that TAG_SELECT has already tagged is not counted again. -/
def State.tagIssue (s : State) (c : Fin 4) : State :=
  let t := s.pmc.tag[c]
  if !bit t.ctl 0 || t.inFlight then s
  else if t.down ≤ 1 then s.tagSelect c
  else s.modTag c fun t => { t with down := t.down - 1 }

/-- The record of a completed tagged word goes to queue 14, or is lost (R434, R435). -/
def State.tagPush (s : State) (c : Fin 4) (ws : List W32) : State :=
  let r := s.quePush 14 ws true 0
  let s1 := r.2.modTag c fun t => { t with inFlight := false, seq := (t.seq + 1) % 65536, lostSince := !r.1 }
  if r.1 then s1
  else
    (s1.modPmc fun p => { p with tagLost := satN 16 (p.tagLost + 1) }).onlyIf (!s.pmc.tag[c].lostSince)
      fun s => s.emit 1 0x72 (pack [(0, 2, c.val)])

/-! ## Registers (R438) -/

/-- The PMC block read at an offset by requester `r` (0 to 3 a core, 4 the Deputy). -/
def Pmc.read (p : Pmc) (off r : Nat) : W32 :=
  if off = 0 then p.ctl
  else if off = 8 then
    pack [(0, 1, b2n p.ringOk), (1, 1, b2n p.full), (2, 1, b2n p.busy.isSome), (8, 2, p.cmdRes), (16, 16, p.seq)]
  else if off = 0xC then p.base
  else if off = 0x10 then p.ring
  else if off = 0x14 then pack [(0, 12, p.rd)]
  else if off = 0x18 then pack [(0, 12, p.wr)]
  else if off = 0x1C then pack [(0, 16, p.cntSkip), (16, 16, p.cntLost)]
  else if off = 0x20 then p.ovfCore
  else if off = 0x24 then p.ovfFab
  else if h : 0x30 ≤ off ∧ off < 0x40 then (p.tag[(off - 0x30) / 4]'(by omega)).ctl
  else if off = 0x40 then pack [(0, 16, p.tagLost), (16, 16, p.tagSkip)]
  else if 0x100 ≤ off ∧ off < 0x200 then
    let c := (off - 0x100) / 0x40
    let i := (off % 0x40) / 4
    if i < 6 then vget p.evsel (6 * c + i) 0
    else if i < 12 then pack [(0, 32, vget p.cnt (6 * c + (i - 6)) 0)]
    else if i = 12 then pack [(0, 32, vget p.cyc c 0 % 2 ^ 32)]
    else if i = 13 then pack [(0, 16, vget p.cycHi (5 * c + r) 0)]
    else if i = 14 then pack [(0, 32, vget p.ret c 0 % 2 ^ 32)]
    else pack [(0, 16, vget p.retHi (5 * c + r) 0)]
  else if h : 0x200 ≤ off ∧ off < 0x240 then p.fevsel[(off - 0x200) / 4]'(by omega)
  else if h : 0x240 ≤ off ∧ off < 0x280 then pack [(0, 32, p.fcnt[(off - 0x240) / 4]'(by omega))]
  else 0

/-- A load of CYC_LO or RET_LO latches the upper bits for its requester (R425). -/
def Pmc.latch (p : Pmc) (off r : Nat) : Pmc :=
  if 0x100 ≤ off ∧ off < 0x200 then
    let c := (off - 0x100) / 0x40
    if off % 0x40 = 0x30 then
      { p with cycHi := vupd p.cycHi (5 * c + r) fun _ => vget p.cyc c 0 / 2 ^ 32 }
    else if off % 0x40 = 0x38 then
      { p with retHi := vupd p.retHi (5 * c + r) fun _ => vget p.ret c 0 / 2 ^ 32 }
    else p
  else p

/-- A store of a core into the PMC block. -/
def State.pmcWrite (s : State) (off : Nat) (v : W32) : State :=
  if off = 0 then s.modPmc fun p => { p with ctl := keep 0x1F3 v }
  else if off = 4 then
    (s.onlyIf (bit v 0) fun s => s.modPmc fun p => { p with nowAt := some (s.now + 1) }).onlyIf (bit v 1)
      fun s => s.modPmc Pmc.clearAll
  else if off = 0xC then s.dumpRingWrite fun p => { p with base := keep 0x0FFFFF00 v }
  else if off = 0x10 then s.dumpRingWrite fun p => { p with ring := keep 0xF v }
  else if off = 0x14 then s.modPmc fun p => { p with rd := fld v 0 12 }
  else if off = 0x20 then s.modPmc fun p => { p with ovfCore := p.ovfCore &&& ~~~v }
  else if off = 0x24 then s.modPmc fun p => { p with ovfFab := p.ovfFab &&& ~~~v }
  else if h : 0x30 ≤ off ∧ off < 0x40 then s.modTag ⟨(off - 0x30) / 4, by omega⟩ fun t => t.write v
  else if 0x100 ≤ off ∧ off < 0x200 then
    let c := (off - 0x100) / 0x40
    let i := (off % 0x40) / 4
    if i < 6 then s.modPmc fun p => { p with evsel := vupd p.evsel (6 * c + i) fun _ => keep 0x133F v }
    else if i < 12 then s.modPmc fun p => { p with cnt := vupd p.cnt (6 * c + (i - 6)) fun _ => v.toNat }
    else s
  else if h : 0x200 ≤ off ∧ off < 0x240 then
    s.modPmc fun p => { p with fevsel := upd p.fevsel ⟨(off - 0x200) / 4, by omega⟩ fun _ => keep 0x173F v }
  else if h : 0x240 ≤ off ∧ off < 0x280 then
    s.modPmc fun p => { p with fcnt := upd p.fcnt ⟨(off - 0x240) / 4, by omega⟩ fun _ => v.toNat }
  else s

/-- The clearing of an RC register by a core's read (R10). -/
def Pmc.rcClear (p : Pmc) (off : Nat) : Pmc :=
  if off = 0x1C then { p with cntSkip := 0, cntLost := 0 }
  else if off = 0x40 then { p with tagLost := 0, tagSkip := 0 }
  else p

end Sys2Proof.Machine
end

