-- ==== Sys2Proof/Machine/Chain.lean ====
section
/-! DEFINITION. Lantern chains: frames, returns, the change queue (spec/08_lantern_chains.md). -/

namespace Sys2Proof.Machine

def State.modLc (s : State) (k : Fin 8) (f : Lc → Lc) : State := { s with lc := upd s.lc k f }

/-- The chain's queue, 16 + k (R397). -/
def lcQueue (k : Fin 8) : Fin 32 := ⟨16 + k.val, by omega⟩

def Lc.en (c : Lc) : Bool := bit c.ctl 0
def Lc.contBit (c : Lc) : Bool := bit c.ctl 1
def Lc.orphanAct (c : Lc) : Bool := fld c.ctl 2 2 ≠ 0
def Lc.chgEn (c : Lc) : Bool := bit c.ctl 4
def Lc.chgMask (c : Lc) : Nat := fld c.ctl 8 6
def Lc.hcmd (c : Lc) : Nat := fld c.frame 0 4
def Lc.harg (c : Lc) : Nat := fld c.frame 8 4
def Lc.resetUs (c : Lc) : Nat := max 20 (fld c.timing 0 16)
def Lc.perUs (c : Lc) : Nat := fld c.timing 16 16 * 1000
def Lc.tmoUs (c : Lc) : Nat := max 1 (fld c.echoTmo 0 16) * 1000
def Lc.nodes (c : Lc) : Nat := fld c.nodesExp 0 18

/-- DATA and CONFIG carry shares (R274). -/
def shareCmd (h : Nat) : Bool := h = 1 || h = 3

/-- Shares a frame sends (R288, R310). -/
def Lc.nsh (c : Lc) : Nat := if shareCmd c.hcmd then min 131072 (fld c.frame 12 18) else 0

def onesOf (n v : Nat) : Nat := (List.range n).foldl (fun a i => a + b2n (v.testBit i)) 0

/-- The header of R273: NCMD the complement of CMD, CPAR making CNT odd. -/
def lcHeader (cmd arg cnt : Nat) : W32 :=
  pack [(0, 4, cmd), (4, 4, 15 - cmd % 16), (8, 4, arg), (12, 18, cnt), (30, 1, b2n (onesOf 18 cnt % 2 = 0))]

/-- The checks of R273 on an echo. -/
def lcEchoOk (h : W32) : Bool :=
  fld h 4 4 = 15 - fld h 0 4 && onesOf 19 (fld h 12 19) % 2 = 1 && 1 ≤ fld h 0 4 && fld h 0 4 ≤ 5

def State.lcUp (s : State) (k : Fin 8) : Bool := s.isUp (islLc k)
def State.lcEmit (s : State) (k : Fin 8) (code : Nat) (arg : W32) : State := s.emit (islLc k) code arg
def State.lcRes (s : State) (k : Fin 8) (r : Nat) : State := s.modLc k fun c => { c with cmdRes := r }

/-- The next frame must still wait (R286, R287). -/
def Lc.mustWait (c : Lc) : Bool :=
  4 ≤ c.out.length || (match c.waitM with | none => false | some m => c.out.any fun f => f.m = m)

/-- The chain runs: neither DISABLED nor IDLE. -/
def Lc.running (c : Lc) : Bool := c.st == .pending || c.st == .frame

/-- A run ends: IDLE, STOPPED with its reason (R306, R309). -/
def State.lcIdle (s : State) (k : Fin 8) (reason : Nat) : State :=
  (s.modLc k fun c => { c with st := .idle, stopReq := none, cont := false }).lcEmit k 0x0C (pack [(0, 2, reason)])

/-! ## Commands (R290, R292, R293) -/

/-- GO: refused unless IDLE, and while the pad group is held (R292, R603). -/
def State.lcGo (s : State) (k : Fin 8) : State :=
  if s.lc[k].st == .idle && !bit s.pwr.holdStat 4 then
    s.modLc k fun c => { c with st := .pending, cont := c.contBit, stopReq := none, nextAt := s.now, cmdRes := 0 }
  else s.lcRes k 2

/-- STOP, or CONT written 0, ends a continuous run at the end of the frame in progress. -/
def State.lcStop (s : State) (k : Fin 8) (reason : Nat) : State :=
  let c := s.lc[k]
  match c.st with
  | .pending => if c.cont || reason = 2 then s.lcIdle k reason else s
  | .frame => if c.cont || reason = 2 then s.modLc k fun c => { c with stopReq := some reason } else s
  | _ => s

/-- N_ref (R287). -/
def Lc.nref (c : Lc) : Nat := if c.nodes = 0 then 131072 else c.nodes

/-- Whole shares of a frame that have been sent by time `t`: a header takes 8 us and a share 6 us (R272). -/
def LcFrame.sentBy (f : LcFrame) (t : Nat) : Nat := min f.nsh ((t - (f.hdrAt + 8)) / 6)

/-- A frame that is cut: its outstanding return is marked, and the next frame waits if the shares sent are fewer than
N_ref (R287, R292). -/
def Lc.cut (c : Lc) (now : Nat) : Lc :=
  match c.out.getLast? with
  | some f =>
    if c.st == .frame && now < c.frameEnd then
      { c with
        out := c.out.dropLast ++ [{ f with aborted := true }],
        waitM := if f.sentBy now < c.nref then some f.m else none }
    else c
  | none => c

/-- ABORT; `same` says it reaches the island in the cycle in which the last bit ends (R292, R293). -/
def State.lcAbort (s : State) (k : Fin 8) (same : Bool) : State :=
  let c := s.lc[k]
  if same && c.lastEnd = some s.now then s.lcRes k 1
  else if c.running then ((s.modLc k fun c => c.cut s.now).lcIdle k 1).lcRes k 0
  else s.lcRes k 0

/-- EN written 0: as ABORT, then DISABLED with every outstanding return discarded. -/
def State.lcDisable (s : State) (k : Fin 8) : State :=
  let c := s.lc[k]
  let s1 := if c.running then s.lcIdle k 3 else s
  s1.modLc k fun c =>
    { c with
      st := .disabled, out := [], waitM := none, cmdRes := 0, rx := if c.rx == .mine then .dropped else c.rx }

def State.lcSwap (s : State) (k : Fin 8) : State := s.modLc k fun c => { c with swapPend := true, cmdRes := 0 }

/-- A write of CTL (R292, R603). -/
def State.lcCtlWrite (s : State) (k : Fin 8) (v : W32) : State :=
  let v := keep 0x3F1F v
  let c := s.lc[k]
  if !bit v 0 then (s.lcDisable k).modLc k fun c => { c with ctl := v }
  else if bit s.pwr.holdStat 4 then s.lcRes k 2
  else if c.st == .disabled then s.modLc k fun c => { c with ctl := v, st := .idle, cmdRes := 0 }
  else
    let s1 := s.modLc k fun c => { c with ctl := v, cmdRes := 0 }
    if c.contBit && !bit v 1 then s1.lcStop k 0 else s1

/-- A write of CMD: its bits act in the order GO, STOP, SWAP, ABORT. -/
def State.lcCmdWrite (s : State) (k : Fin 8) (v : W32) (same : Bool) : State :=
  (((s.onlyIf (bit v 0) fun s => s.lcGo k).onlyIf (bit v 1) fun s => (s.lcRes k 0).lcStop k 0).onlyIf (bit v 2)
    fun s => s.lcSwap k).onlyIf (bit v 3) fun s => s.lcAbort k same

/-- A write of FRAME (R294). -/
def State.lcFrameWrite (s : State) (k : Fin 8) (v : W32) : State :=
  let h := fld v 0 4
  if h = 0 || 5 < h then s.lcRes k 3 else s.modLc k fun c => { c with frame := keep 0x3FFFFF0F v, cmdRes := 0 }

/-- A write of a buffer base: `out` an outbound one (R294). -/
def State.lcBaseWrite (s : State) (k : Fin 8) (out : Bool) (i : Fin 2) (v : W32) : State :=
  let o := fld v 0 24
  if o % 32 ≠ 0 || 0x1000000 < o + (if out then 0x60000 else 0x20000) then s.lcRes k 3
  else
    s.modLc k fun c =>
      if out then { c with outBase := upd c.outBase i fun _ => keep 0xFFFFFF v, cmdRes := 0 }
      else { c with retBase := upd c.retBase i fun _ => keep 0xFFFFFF v, cmdRes := 0 }

/-! ## Frames -/

/-- Set ERR bits (R310). -/
def State.lcErr (s : State) (k : Fin 8) (i : Nat) : State :=
  s.modLc k fun c => { c with err := c.err ||| BitVec.ofNat 32 (1 <<< i) }

/-- The words of a range in which a read finds two bits failed. -/
def State.badWords (s : State) (base n : Nat) : List Nat :=
  (s.ecc.filter fun e => base ≤ e.1 + 3 && e.1 < base + n && eccOf s.ecc e.1 = 2).map (·.1)

/-- The check of a frame's bytes: each marked word of the range is read once, so single-bit errors are corrected and
double-bit errors counted (R39); a burst that failed is reported once (R291). -/
def State.lcFetch (s : State) (k : Fin 8) (base n : Nat) : State :=
  let marks := ((s.ecc.filter fun e => base ≤ e.1 + 3 && e.1 < base + n).map (·.1)).eraseDups
  let bursts := ((s.badWords base n).map fun w => (w - bulkBase) / 32 * 32).eraseDups
  let s1 := marks.foldl (fun s w => (s.eccRead w 5).2) s
  bursts.foldl (fun s o => (s.lcErr k 9).lcEmit k 0x09 (pack [(0, 24, o)])) s1

/-- Share `p` of a frame is the three bytes at `base` + 3p, the lowest address first (R289). -/
def State.shareAt (s : State) (base p : Nat) : Nat := memLoad s.mem (base + 3 * p) 3

/-- The shares a frame sends: one that comes too late, or with an error in one of its bytes, is sent as zero (R291). -/
def State.sharesOf (s : State) (base n : Nat) (late : Nat → Bool) : List Nat :=
  let bad := s.badWords base (3 * n)
  (List.range n).map fun p =>
    if late p || bad.any (fun w => base + 3 * p ≤ w + 3 && w < base + 3 * p + 3) then 0 else s.shareAt base p

/-- A chain starts a frame (R286 to R291): the shares numbered in `late` arrive too late from bulk memory, and before
BULK_RDY all of them do (R600). -/
def State.lcFrameStart (s : State) (k : Fin 8) (late : List Nat) : State :=
  let c := s.lc[k]
  if s.lcUp k && c.st == .pending && !c.mustWait && !s.isStopped 5 then
    let s1 := s.advanceTo c.nextAt
    let act := if c.swapPend then !c.outAct else c.outAct
    let s2 := if c.swapPend then
        (s1.modLc k fun c => { c with outAct := act, swapPend := false }).lcEmit k 0x0B (pack [(0, 1, b2n act)])
      else s1
    let n := c.nsh
    let base := fld (c.outBase[b2n act]'(by cases act <;> decide)) 0 24
    let t := s1.now
    let slow (p : Nat) : Bool := !s1.bulkOk || late.contains p
    let f : LcFrame :=
      { m := c.txSeq, hcmd := c.hcmd, harg := c.harg, nsh := n, hdr := lcHeader c.hcmd c.harg n, base := base,
        startAt := t, hdrAt := t + c.resetUs, shares := s1.sharesOf (bulkBase + base) n slow, aborted := false }
    let s3 := s2.modLc k fun c =>
      { c with
        st := .frame, txSeq := (c.txSeq + 1) % 65536, out := c.out ++ [f], frameEnd := f.hdrAt + 8 + 6 * n,
        nextAt := max (f.hdrAt + 8 + 6 * n) (t + c.perUs), waitM := if n < c.nref then some f.m else none }
    let s4 := s3.lcEmit k 0x01 (pack [(0, 16, f.m), (16, 1, b2n act)])
    let s5 := if s1.bulkOk then s4.lcFetch k (bulkBase + base) (3 * n) else s4
    let zeros := ((List.range n).filter slow).length
    if zeros = 0 then s5 else (s5.lcErr k 8).lcEmit k 0x08 (pack [(0, 18, zeros)])
  else s

/-- Bit `i` of a frame on LCk_OUT: the header, then the shares, each least significant bit first (R273, R288). -/
def LcFrame.bitAt (f : LcFrame) (i : Nat) : Bool :=
  if i < 32 then bit f.hdr i else (f.shares.getD ((i - 32) / 24) 0).testBit ((i - 32) % 24)

/-- Level of LCk_OUT `n` island cycles after a header began: a bit of 25 cycles is high for 7 or for 17 of them (R272).
The line is low before and after, and in a disabled chain (R310). -/
def LcFrame.lineAt (f : LcFrame) (n : Nat) : Bool :=
  n / 25 < 32 + 24 * f.nsh && n % 25 < (if f.bitAt (n / 25) then 17 else 7)

/-- The last bit of a frame is sent (R286, R292, R306). -/
def State.lcFrameEnd (s : State) (k : Fin 8) : State :=
  let c := s.lc[k]
  if s.lcUp k && c.st == .frame then
    let s1 := s.advanceTo c.frameEnd
    let s2 := s1.modLc k fun c => { c with lastEnd := some s1.now }
    match c.stopReq with
    | some r => s2.lcIdle k r
    | none => s2.modLc k fun c => { c with st := if c.cont then .pending else .idle }
  else s

/-! ## Returns -/

/-- Status byte parity is odd (R277). -/
def statusOk (b : W8) : Bool := onesOf 8 b.toNat % 2 = 1

/-- First position and count of the statuses a test picks. -/
def firstCount (p : W8 → Bool) : Nat → List W8 → Option Nat × Nat
  | _, [] => (none, 0)
  | i, b :: r =>
    let x := firstCount p (i + 1) r
    if p b then (some i, x.2 + 1) else x

/-- One status compared with the other return buffer; a word is pushed for a change (R303, R304). -/
def State.lcCompare (s : State) (k : Fin 8) (other pos : Nat) (b : W8) : State :=
  let r := s.loadBytes (bulkBase + other + pos) 1 5
  let d := r.2.2.draw 8
  let old := if r.1 then r.2.1 else d.1
  let s1 := if r.1 then r.2.2 else d.2
  let nw := b.toNat
  let bad := !statusOk b
  if (nw ^^^ old) % 64 &&& s.lc[k].chgMask ≠ 0 || nw.testBit 6 != old.testBit 6 || bad then
    let w := pack [(0, 18, pos), (18, 6, nw), (24, 1, b2n (nw.testBit 6)), (25, 1, b2n bad), (26, 6, old)]
    let p := s1.quePush (lcQueue k) [w] true s.lc[k].retSeq
    if p.1 then p.2
    else p.2.modLc k fun c => { c with chgLost := satN 16 (c.chgLost + 1), err := c.err ||| 0x400 }
  else s1

/-- Compare every status of a return, position `pos` on. -/
def State.lcCompareAll (k : Fin 8) (other : Nat) : Nat → List W8 → State → State
  | _, [], s => s
  | pos, b :: r, s => State.lcCompareAll k other (pos + 1) r (s.lcCompare k other pos b)

def State.lcRetErr (s : State) (k : Fin 8) (i cause : Nat) : State := (s.lcErr k i).lcEmit k 0x05 (pack [(0, 4, cause)])

/-- Records every completed return makes (R299). -/
def State.lcRetDone (s : State) (k : Fin 8) (hdr : W32) (n ovr : Nat) (errs : Bool) : State :=
  let s1 := s.modLc k fun c =>
    { c with
      retHdr := hdr, retNodes := n, retOver := satN 12 ovr, retTime := s.count, retSeq := (c.retSeq + 1) % 65536,
      retEnd := some s.now, cntOther := if errs then satN 16 (c.cntOther + 1) else c.cntOther }
  s1.lcEmit k 0x02 (pack [(0, 18, n), (31, 1, b2n errs)])

/-- A return stream begins: it belongs to the oldest outstanding frame, whose echo has thereby begun (R295, R296). -/
def State.lcReturnBegin (s : State) (k : Fin 8) : State :=
  if s.lcUp k then s.modLc k fun c => { c with rx := if c.out.isEmpty then .stray else .mine } else s

/-- A return stream that belongs to no frame (R295). -/
def State.lcStray (s : State) (k : Fin 8) : State :=
  (s.lcRetErr k 11 5).modLc k fun c => { c with cntOther := satN 16 (c.cntOther + 1), retEnd := some s.now }

/-- The checks and records of a return that ends (R297 to R304): the echo as received, the whole bytes that followed it,
and how many bits were left over. With a failed echo no status is stored and none is counted. -/
def State.lcCollect (s : State) (k : Fin 8) (f : LcFrame) (echo : W32) (body : List W8) (extra : Nat) : State :=
  let c := s.lc[k]
  let cnt := fld echo 12 18
  let share := shareCmd f.hcmd
  let ok := lcEchoOk echo && fld echo 0 4 = f.hcmd && (!share || cnt ≤ f.nsh)
  let xs := if share && ok then cnt else 0
  let all := if ok then body.drop (3 * xs) else []
  let trunc := ok && (decide (body.length < 3 * xs) || extra % 8 ≠ 0)
  let total := all.length
  let sts := all.take 131072
  let ovr := total - sts.length
  let buf := fld (c.retBase[f.m % 2]'(by omega)) 0 24
  let other := fld (c.retBase[(f.m + 1) % 2]'(by omega)) 0 24
  let clean := ok && !trunc && ovr = 0
  let cmp := c.chgEn && clean &&
    (match c.prev with
      | some p => p.clean && p.hcmd = f.hcmd && p.harg = f.harg && p.count = total
      | none => false)
  let s0 := if ok then s else s.lcRetErr k 1 1
  let s1 :=
    if cmp then State.lcCompareAll k other 0 sts (s0.modLc k fun c => { c with chgLost := 0 }) else s0
  let chg := cmp && s1.lc[k].chgLost ≠ 0
  let s1 :=
    if cmp then s1.modLc k fun d => { d with chgLost := satN 16 (c.chgLost + d.chgLost) } else s1
  let s2 := if chg then s1.lcEmit k 0x0A 0 else s1
  let s3 := State.storeStream 5 (bulkBase + buf) sts s2
  let pe := firstCount (fun b => !statusOk b) 0 sts
  let np := firstCount (fun b => !b.toNat.testBit 6) 0 sts
  let len := (!share && cnt ≠ total) || (c.nodes ≠ 0 && c.nodes ≠ total)
  let lenChg := match c.prev with | some p => p.count ≠ total | none => false
  let s4 := s3.modLc k fun c =>
    { c with
      retXs := xs, perrFirst := pe.1.getD 0, perrCount := satN 12 pe.2, npFirst := np.1.getD 0,
      npCount := satN 12 np.2,
      prev := some { hcmd := f.hcmd, harg := f.harg, count := total, clean := clean } }
  let s5 := if trunc then s4.lcRetErr k 2 2 else s4
  let s6 := if ovr ≠ 0 then s5.lcRetErr k 3 3 else s5
  let s7 := match pe.1 with | some i => (s6.lcErr k 4).lcEmit k 0x06 (pack [(0, 18, i)]) | none => s6
  let s8 := match np.1 with | some i => (s7.lcErr k 5).lcEmit k 0x07 (pack [(0, 18, i)]) | none => s7
  let s9 := if len then s8.lcErr k 6 else s8
  let s10 := if lenChg then (s9.lcErr k 7).lcEmit k 0x04 (pack [(0, 18, total)]) else s9
  let errs := !ok || trunc || ovr ≠ 0 || pe.1.isSome || np.1.isSome || len || lenChg || chg
  s10.lcRetDone k echo sts.length ovr errs

/-- A return stream ends; one whose begin was not commanded before began with it (R295 to R304). Before BULK_RDY the
statuses cannot be stored, and the end waits (R600). -/
def State.lcReturn (s : State) (k : Fin 8) (echo : W32) (body : List W8) (extra : Nat) : State :=
  if !(s.lcUp k) then s
  else
    let stray := s.lc[k].rx == .stray || (s.lc[k].rx == .idle && s.lc[k].out.isEmpty)
    let done (s : State) : State := s.modLc k fun c => { c with rx := .idle }
    if s.lc[k].rx == .dropped then done s
    else if stray then (done s).lcStray k
    else
      match s.lc[k].out with
      | [] => done s
      | f :: rest =>
        if !s.bulkOk then s
        else
          let s0 := (done s).modLc k fun c => { c with out := rest }
          if f.aborted then
            (s0.lcRetErr k 13 4).modLc k fun c =>
              { c with cntOther := satN 16 (c.cntOther + 1), retEnd := some s.now }
          else s0.lcCollect k f echo body extra

/-- The oldest outstanding frame's echo has not begun within ECHO_TMO (R296): no return stream is arriving for it. The
next return is not compared (R302; log entry 20). -/
def State.lcEchoTimeout (s : State) (k : Fin 8) : State :=
  let c := s.lc[k]
  match c.out with
  | [] => s
  | f :: rest =>
    if s.lcUp k && c.rx != .mine then
      let s1 := s.advanceTo (f.hdrAt + c.tmoUs)
      ((s1.modLc k fun c =>
        { c with
          out := rest, cntBreaks := satN 16 (c.cntBreaks + 1),
          prev := c.prev.map fun p => { p with clean := false } }).lcErr k 0).lcEmit k 0x03
        (pack [(0, 16, f.m)])
    else s

/-- A rising edge after a return's end and within RESET_US (R300). -/
def State.lcGlitch (s : State) (k : Fin 8) : State :=
  let c := s.lc[k]
  match c.retEnd with
  | none => s
  | some t => if s.lcUp k && s.now ≤ t + c.resetUs then s.lcRetErr k 12 6 else s

/-- Orphan expiry (R306). -/
def State.lcOrphan (s : State) (k : Fin 8) : State :=
  if s.lcUp k && s.lc[k].orphanAct then s.lcStop k 2 else s

/-! ## Held pushes reach CORE (R415) -/

/-- One held push enters its queue; a chain's discarded word counts as it would have, with one CHG_OVF for its return
(R304). `told` are the chains and returns that have had theirs. -/
def State.queReleaseOne (s : State) (p : HeldPush) (told : List (Nat × Nat)) : State × List (Nat × Nat) :=
  if hq : p.q < 32 then
    let r := s.quePushNow ⟨p.q, hq⟩ p.words p.w32
    if r.1 then (r.2, told)
    else if hk : 16 ≤ p.q ∧ p.q < 24 then
      let k : Fin 8 := ⟨p.q - 16, by omega⟩
      let s1 := r.2.modLc k fun c => { c with chgLost := satN 16 (c.chgLost + 1), err := c.err ||| 0x400 }
      if told.contains (p.q, p.ret) then (s1, told) else (s1.lcEmit k 0x0A 0, (p.q, p.ret) :: told)
    else (r.2, told)
  else (s, told)

/-- The held pushes enter their queues in the order in which they were made. -/
def State.queReleaseAll : List HeldPush → List (Nat × Nat) → State → State
  | [], _, s => s
  | p :: r, told, s =>
    let x := s.queReleaseOne p told
    State.queReleaseAll r x.2 x.1

/-- The CORE clock runs again: nothing is held any more. -/
def State.queRelease (s : State) : State :=
  State.queReleaseAll s.que.held [] (s.modQue fun u => { u with held := [] })

/-! ## Registers (R310, R311) -/

/-- TX_STATE. -/
def Lc.txState (c : Lc) (now : Nat) : Nat :=
  match c.st with
  | .disabled => 0
  | .idle => 1
  | .pending => if c.mustWait || now < c.nextAt then 4 else 2
  | .frame => match c.out.getLast? with | some f => if now < f.hdrAt then 2 else 3 | none => 3

def Lc.read (c : Lc) (off now : Nat) : W32 :=
  match off with
  | 0x00 => c.ctl
  | 0x08 => pack [(0, 3, c.txState now), (3, 1, b2n c.outAct), (4, 1, b2n c.swapPend), (5, 1, b2n (c.rx != .idle)),
      (6, 1, match c.out with | f :: _ => f.m % 2 | [] => 0), (8, 3, c.out.length), (12, 3, c.cmdRes)]
  | 0x0C => c.err
  | 0x10 => c.frame
  | 0x14 => c.timing
  | 0x18 => c.echoTmo
  | 0x1C => c.nodesExp
  | 0x20 => c.outBase[0]
  | 0x24 => c.outBase[1]
  | 0x28 => c.retBase[0]
  | 0x2C => c.retBase[1]
  | 0x30 => pack [(0, 16, c.txSeq), (16, 16, c.retSeq)]
  | 0x34 => c.retHdr
  | 0x38 => pack [(0, 18, c.retNodes), (20, 12, c.retOver)]
  | 0x3C => pack [(0, 18, c.retXs)]
  | 0x40 => pack [(0, 18, c.perrFirst), (20, 12, c.perrCount)]
  | 0x44 => pack [(0, 18, c.npFirst), (20, 12, c.npCount)]
  | 0x48 => pack [(0, 32, c.retTime)]
  | 0x4C => pack [(0, 16, c.retTime / 2 ^ 32)]
  | 0x50 => pack [(0, 16, c.chgLost)]
  | 0x54 => pack [(0, 16, c.cntBreaks), (16, 16, c.cntOther)]
  | _ => 0

def State.lcWrite (s : State) (k : Fin 8) (off : Nat) (v : W32) : State :=
  match off with
  | 0x00 => s.lcCtlWrite k v
  | 0x04 => s.lcCmdWrite k v false
  | 0x0C => s.modLc k fun c => { c with err := c.err &&& ~~~v }
  | 0x10 => s.lcFrameWrite k v
  | 0x14 => s.modLc k fun c => { c with timing := v }
  | 0x18 => s.modLc k fun c => { c with echoTmo := keep 0xFFFF v }
  | 0x1C => s.modLc k fun c => { c with nodesExp := keep 0x3FFFF v }
  | 0x20 => s.lcBaseWrite k true 0 v
  | 0x24 => s.lcBaseWrite k true 1 v
  | 0x28 => s.lcBaseWrite k false 0 v
  | 0x2C => s.lcBaseWrite k false 1 v
  | _ => s

/-- GLOBAL_CMD: each selected chain gets its command through its own handshake (R311). -/
def State.lchGlobal (s : State) (go stop : Nat) : State :=
  forFin 8 (fun k s =>
    (s.onlyIf (go.testBit k.val && s.lcUp k) fun s => s.lcGo k).onlyIf (stop.testBit k.val && s.lcUp k)
      fun s => (s.lcRes k 0).lcStop k 0) s

/-- The LCH block read at an offset. -/
def State.lchRead (s : State) (off : Nat) : W32 :=
  if h : off < 0x8000 then (s.lc[off / 0x1000]'(by omega)).read (off % 0x1000) s.now
  else if off = 0x8000 then BitVec.ofNat 32 (bitsOf 8 fun k => (vget s.lc k (Lc.init 0)).running)
  else if off = 0x8004 then BitVec.ofNat 32 (bitsOf 8 fun k => (vget s.lc k (Lc.init 0)).err != 0)
  else 0

def State.lchWrite (s : State) (off : Nat) (v : W32) : State :=
  if s.isStopped 5 then s
  else if h : off < 0x8000 then s.lcWrite ⟨off / 0x1000, by omega⟩ (off % 0x1000) v
  else if off = 0x8008 then s.lchGlobal (fld v 0 8) (fld v 8 8)
  else s

/-- The island a LCH offset lies in; the common registers are taken in LC0. -/
def lchIsland (off : Nat) : Nat := if off < 0x8000 then 9 + off / 0x1000 else 9

end Sys2Proof.Machine
end

