-- ==== Sys2Proof/Machine/HostPort.lean ====
section
/-! DEFINITION. The host port (spec/16_host_port_and_plant_link.md R504 to R523, R534, R535). -/

namespace Sys2Proof.Machine

/-! ## Frames (R507, R508) -/

/-- A 32-bit word from four bytes, least significant first (R504). -/
def leWord (bs : List W8) : Nat :=
  (bs.getD 0 0).toNat + 256 * (bs.getD 1 0).toNat + 65536 * (bs.getD 2 0).toNat + 16777216 * (bs.getD 3 0).toNat

/-- A word's bytes as sent. -/
def leBytes (w : W32) : List W8 := (wordBytes w).map fun b => BitVec.ofNat 8 b

/-- A header word (R507). -/
def hpHeader (cmd seq len src : Nat) : W32 := pack [(0, 8, cmd), (8, 8, seq), (16, 12, len), (28, 4, src)]

/-- A frame's words with its trailer. -/
def hpSeal (ws : List W32) : List W32 := ws ++ [pack [(0, 16, crc16 (wordsBytes ws))]]

/-- The bytes of a well-formed request frame, followed by `pad` bytes of 0xFF. -/
def hpFrame (cmd seq src : Nat) (payload : List W32) (pad : Nat) : List W8 :=
  ((hpSeal (hpHeader cmd seq (4 * payload.length) src :: payload)).flatMap leBytes) ++ List.replicate pad 0xFF

/-! ## State of the port -/

/-- A response waits to be sent (R521). -/
def Hp.respWaiting (h : Hp) : Bool := h.resend || h.ident.isSome || !h.tx.isEmpty

/-- A condition of R521 holds with its enable set. -/
def Hp.irq (h : Hp) : Bool :=
  (bit h.ctl 1 && h.respWaiting) || (bit h.ctl 2 && h.restarted) || (bit h.ctl 3 && h.free == 2)

/-- HP_IRQN is low (R505, R521): while its pad group is held, as the hold has latched it (R601, R602); open while the
port's island has no power. -/
def State.hpIrqLow (s : State) : Bool :=
  if bit s.pwr.holdStat 5 then s.pwr.heldIrqLow else s.isUp 1 && s.hp.irq

/-- The bits of a byte in the order of the wire: most significant first (R504). -/
def spiBits (b : W8) : List Bool := (List.range 8).map fun i => b.getLsbD (7 - i)

/-- Bits sampled at the rising edges of HP_SCK as bytes; bits short of a byte are no byte (R504). -/
def spiBytes : List Bool → List W8
  | b7 :: b6 :: b5 :: b4 :: b3 :: b2 :: b1 :: b0 :: r =>
    BitVec.ofNat 8 (128 * b2n b7 + 64 * b2n b6 + 32 * b2n b5 + 16 * b2n b4 + 8 * b2n b3 + 4 * b2n b2 + 2 * b2n b1 +
      b2n b0) :: spiBytes r
  | _ => []

/-- What the port sends in this transaction: the status block, then the response frame (R504, R509). -/
def Hp.sdoBytes (h : Hp) : List W8 := (h.status.1 :: h.status.2 :: h.curResp).flatMap leBytes

/-- HP_SDO as bit `n` of the transaction is due, HP_SDO changing on the falling edges of HP_SCK: `none` is high
impedance, while HP_CSN is high and whenever the port is not running (R504, R505, R522). Past the response its level is
free. A held pad group keeps its level (R601). -/
def State.hpSdo (s : State) (n : Nat) : Option Bool :=
  if bit s.pwr.holdStat 5 then s.pwr.heldSdo
  else if s.coreRuns && s.hp.csnLow && s.hp.live then
    some ((s.hp.sdoBytes.flatMap spiBits).getD n (Config.freeNat n % 2 = 1))
  else none

/-- The status block with `rlen` response words (R509). -/
def Hp.statusBlock (h : Hp) (rlen : Nat) : W32 × W32 :=
  let s0 := pack [(0, 8, h.ackSeq), (8, 4, h.ack), (12, 4, h.ackSrc), (16, 5, h.out.length), (21, 1, b2n h.restarted),
    (22, 1, b2n (bit h.ctl 0))]
  let c := crc16 (wordBytes s0 ++ [rlen % 256, rlen / 256 % 256])
  (s0, pack [(0, 9, rlen), (16, 16, c)])

/-! ## Transactions (R510, R511, R518, R519) -/

/-- HP_CSN falls with the port not running, which does not receive the transaction; the edge asks for a wake, that PWR
takes from an accepted request on, in SLEEP and in DEEP (R523, R585). -/
def State.hpEdge (s : State) : State :=
  (s.modHp fun h => { h with csnLow := true, live := false, cur := .none, curResp := [] }).wakeReq 9

/-- HP_CSN falls while the port is not running, as in SLEEP and DEEP (R523). -/
def State.hpCsnRow (s : State) : State := if s.coreRuns || s.hp.csnLow then s else s.hpEdge

/-- HP_CSN falls with HP_SCK at level `sck`: the mode is taken, the response fixed and the status block sent (R504, R518).
With HP_CSN low already there is no such edge. -/
def State.hpStart (s : State) (sck : Bool) : State :=
  if s.hp.csnLow then s
  else if s.coreRuns then
    let s := s.wakeReq 9
    let h := s.hp
    let pick : HpSrc × List W32 :=
      match (if h.resend then h.copy else none), h.ident, h.tx with
      | some r, _, _ => (.copy, r)
      | none, some r, _ => (.ident, r)
      | none, none, r :: _ => (.buffer, r)
      | none, none, [] => (.none, [])
    s.modHp fun h =>
      { h with
        csnLow := true, live := true, mode3 := sck, cur := pick.1, curResp := pick.2,
        status := h.statusBlock pick.2.length }
  else s.hpEdge

/-- Queue 12 has room for `n` words (R514). -/
def State.hpRoom (s : State) (n : Nat) : Bool :=
  let q := s.que.q[(12 : Fin 32)]
  q.en && q.ents.length + n ≤ q.depth

/-- The result of a request, by the table of R511. -/
def State.hpJudge (s : State) (bs : List W8) : Nat :=
  let hd := leWord bs
  let cmd := hd % 256
  let seq := hd / 256 % 256
  let len := hd / 65536 % 4096
  let src := hd / 2 ^ 28
  let tr := leWord (bs.drop (4 + len))
  if bs.length < 8 + len || (bs.drop (8 + len)).any (fun b => b != 0xFF) then 7
  else if tr != crc16 ((bs.take (4 + len)).map BitVec.toNat) then 4
  else if 1024 < len || len % 4 != 0 || (cmd ≤ 4 && len != 0) then 5
  else if (5 ≤ cmd && cmd ≤ 15) || src = 15 then 6
  else if 16 ≤ cmd && !bit s.hp.ctl 0 then 8
  else if cmd = 1 && s.hp.copy.isNone then 9
  else if 16 ≤ cmd && vget s.hp.dup src none == some seq then 2
  else if (16 ≤ cmd && (16 ≤ s.hp.out.length || !s.hpRoom (1 + len / 4))) || (cmd = 2 && s.hp.ident.isSome) then 3
  else 1

/-- What an accepted command does (R512, R515). -/
def State.hpAct (s : State) (bs : List W8) : State :=
  let hd := leWord bs
  let cmd := hd % 256
  let seq := hd / 256 % 256
  let len := hd / 65536 % 4096
  let src := hd / 2 ^ 28
  match cmd with
  | 0 => s
  | 1 => s.modHp fun h => { h with resend := true }
  | 2 => s.modHp fun h =>
      { h with ident := some (hpSeal [hpHeader 2 seq 16 src, 0x72560B1E, 0x00000201, s.sys.serialLo, s.sys.serialHi]) }
  | 3 => s.modHp fun h => { h with dup := vupd h.dup src fun _ => none }
  | 4 => s.modHp fun h => { h with restarted := false }
  | _ =>
    let ws := (List.range (1 + len / 4)).map fun i => BitVec.ofNat 32 (leWord (bs.drop (4 * i)))
    ((s.quePushNow 12 ws true).2).modHp fun h =>
      { h with dup := vupd h.dup src fun _ => some seq, out := h.out ++ [(src, seq)] }

/-- The port judges what HP_SDI carried and records the result (R511). -/
def State.hpRequest (s : State) (bs : List W8) : State :=
  let hd := leWord bs
  if bs.length < 8 || hd = 0xFFFFFFFF then s
  else
    let r := s.hpJudge bs
    let seq := hd / 256 % 256
    let src := hd / 2 ^ 28
    let s1 := s.modHp fun h =>
      { h with
        ackSeq := seq, ack := r, ackSrc := src, free := if r = 3 then 1 else 0,
        cntCrc := if r = 4 then satN 16 (h.cntCrc + 1) else h.cntCrc,
        cntDup := if r = 2 then satN 16 (h.cntDup + 1) else h.cntDup,
        cntBusy := if r = 3 then satN 16 (h.cntBusy + 1) else h.cntBusy,
        cntOther := if 5 ≤ r then satN 16 (h.cntOther + 1) else h.cntOther }
    if r = 1 then s1.hpAct bs
    else if bit s.hp.ctl 4 then
      if r = 2 then s1.emit 1 0x91 (pack [(8, 8, seq), (16, 4, src)])
      else s1.emit 1 0x90 (pack [(0, 4, r), (8, 8, seq), (16, 4, src)])
    else s1

/-- The port takes one complete response out of queue 13, or discards a bad header (R516, R517). -/
def State.hpTake (s : State) : State :=
  let q := s.que.q[(13 : Fin 32)]
  match q.ents with
  | [] => s
  | w :: _ =>
    let len := fld w 16 12
    let src := fld w 28 4
    let seq := fld w 8 8
    if !s.coreRuns then s
    else if 1024 < len || len % 4 != 0 then ((s.quePop 13).2).modHp fun h => { h with fwErr := true }
    else if q.ents.length < 1 + len / 4 then s
    else
      let ws := q.ents.take (1 + len / 4)
      let s1 := ws.foldl (fun s _ => (s.quePop 13).2) s
      s1.modHp fun h =>
        let closes := src != 15 && h.out.contains (src, seq)
        { h with
          tx := h.tx ++ [hpSeal ws], fwErr := false, out := if closes then h.out.erase (src, seq) else h.out,
          free := if closes && h.free = 1 && 16 ≤ h.out.length then 2 else h.free }

/-- A response that has been clocked out whole leaves the buffer and is the last response sent (R519). -/
def Hp.retire (h : Hp) (clocked : Nat) : Hp :=
  if 8 + 4 * h.curResp.length ≤ clocked then
    match h.cur with
    | .none => h
    | .copy => { h with resend := false }
    | .ident => { h with ident := none, copy := some h.curResp }
    | .buffer => { h with tx := h.tx.drop 1, copy := some h.curResp }
  else h

/-- HP_CSN is high again: no transaction is in progress. -/
def Hp.ended (h : Hp) : Hp := { h with csnLow := false, live := false, cur := .none, curResp := [] }

/-- HP_CSN rises after the bytes `bs` on HP_SDI. `take`: in the same island cycle a response of queue 13 is taken, which
comes first (R520). A transaction that the port has not received is not judged (R522, R523). -/
def State.hpEnd (s : State) (bs : List W8) (take : Bool) : State :=
  let s1 := s.onlyIf take State.hpTake
  if s.coreRuns && s.hp.csnLow && s.hp.live then
    let s2 := s1.modHp fun h => h.retire bs.length
    (s2.hpRequest bs).modHp Hp.ended
  else s1.modHp Hp.ended

/-- A whole transaction in mode 0 that carries one request. -/
def State.hpTransaction (s : State) (bs : List W8) : State :=
  if s.hp.csnLow then s else (s.hpStart false).hpEnd bs false

/-- The port stops running with its clock: a transaction in progress is not received to its end (R523). -/
def Hp.halt (h : Hp) : Hp := { h with live := false, cur := .none, curResp := [] }

/-! ## Registers (R535) -/

def Hp.read (h : Hp) (off : Nat) : W32 :=
  match off with
  | 0x0 => h.ctl
  | 0x4 => pack [(0, 5, h.out.length), (5, 1, b2n h.respWaiting), (6, 1, b2n h.restarted), (7, 1, b2n h.fwErr),
      (8, 1, b2n h.csnLow)]
  | 0x8 => pack [(0, 16, h.cntCrc), (16, 16, h.cntDup)]
  | 0xC => pack [(0, 16, h.cntBusy), (16, 16, h.cntOther)]
  | _ => 0

def State.hpWrite (s : State) (off : Nat) (v : W32) : State :=
  if off = 0 then s.modHp fun h => { h with ctl := keep 0x1F v } else s

def Hp.rcClear (h : Hp) (off : Nat) : Hp :=
  if off = 8 then { h with cntCrc := 0, cntDup := 0 }
  else if off = 0xC then { h with cntBusy := 0, cntOther := 0 }
  else h

end Sys2Proof.Machine
end

