-- ==== Sys2Proof/Machine/Crypto.lean ====
section
/-! DEFINITION. SHA-256 and the verification of an ECDSA P-256 signature, the two algorithms that the image check names
(spec/17_management.md R557, R558). The spec names them and does not define them: they are the published ones (log
entry 39). -/

namespace Sys2Proof.Machine

/-- A big-endian number. -/
def beNat (bs : List W8) : Nat := bs.foldl (fun a b => 256 * a + b.toNat) 0

/-! ## SHA-256 -/

/-- The eight working words. -/
structure ShaSt where
  a : W32
  b : W32
  c : W32
  d : W32
  e : W32
  f : W32
  g : W32
  h : W32
deriving DecidableEq, Repr

/-- The round constants. -/
def shaK : List W32 :=
  [0x428A2F98, 0x71374491, 0xB5C0FBCF, 0xE9B5DBA5, 0x3956C25B, 0x59F111F1, 0x923F82A4, 0xAB1C5ED5] ++
  [0xD807AA98, 0x12835B01, 0x243185BE, 0x550C7DC3, 0x72BE5D74, 0x80DEB1FE, 0x9BDC06A7, 0xC19BF174] ++
  [0xE49B69C1, 0xEFBE4786, 0x0FC19DC6, 0x240CA1CC, 0x2DE92C6F, 0x4A7484AA, 0x5CB0A9DC, 0x76F988DA] ++
  [0x983E5152, 0xA831C66D, 0xB00327C8, 0xBF597FC7, 0xC6E00BF3, 0xD5A79147, 0x06CA6351, 0x14292967] ++
  [0x27B70A85, 0x2E1B2138, 0x4D2C6DFC, 0x53380D13, 0x650A7354, 0x766A0ABB, 0x81C2C92E, 0x92722C85] ++
  [0xA2BFE8A1, 0xA81A664B, 0xC24B8B70, 0xC76C51A3, 0xD192E819, 0xD6990624, 0xF40E3585, 0x106AA070] ++
  [0x19A4C116, 0x1E376C08, 0x2748774C, 0x34B0BCB5, 0x391C0CB3, 0x4ED8AA4A, 0x5B9CCA4F, 0x682E6FF3] ++
  [0x748F82EE, 0x78A5636F, 0x84C87814, 0x8CC70208, 0x90BEFFFA, 0xA4506CEB, 0xBEF9A3F7, 0xC67178F2]

def shaInit : ShaSt :=
  ⟨0x6A09E667, 0xBB67AE85, 0x3C6EF372, 0xA54FF53A, 0x510E527F, 0x9B05688C, 0x1F83D9AB, 0x5BE0CD19⟩

/-- Message schedule: `k` more words in front of `ws`, which holds the words so far, newest first. -/
def shaSched : Nat → List W32 → List W32
  | 0, ws => ws
  | k + 1, ws =>
    let x := ws.getD 1 0
    let y := ws.getD 14 0
    let s1 := x.rotateRight 17 ^^^ x.rotateRight 19 ^^^ (x >>> 10)
    let s0 := y.rotateRight 7 ^^^ y.rotateRight 18 ^^^ (y >>> 3)
    shaSched k ((s1 + ws.getD 6 0 + s0 + ws.getD 15 0) :: ws)

/-- One round with constant and message word added up in `kw`. -/
def ShaSt.round (s : ShaSt) (kw : W32) : ShaSt :=
  let t1 := s.h + (s.e.rotateRight 6 ^^^ s.e.rotateRight 11 ^^^ s.e.rotateRight 25) +
    ((s.e &&& s.f) ^^^ (~~~s.e &&& s.g)) + kw
  let t2 := (s.a.rotateRight 2 ^^^ s.a.rotateRight 13 ^^^ s.a.rotateRight 22) +
    ((s.a &&& s.b) ^^^ (s.a &&& s.c) ^^^ (s.b &&& s.c))
  ⟨t1 + t2, s.a, s.b, s.c, s.d + t1, s.e, s.f, s.g⟩

/-- One block of 64 bytes. -/
def ShaSt.block (s : ShaSt) (bs : List W8) : ShaSt :=
  let ws := (List.range 16).map fun i => BitVec.ofNat 32 (beNat ((bs.drop (4 * i)).take 4))
  let r := ((shaSched 48 ws.reverse).reverse.zip shaK).foldl (fun s x => s.round (x.1 + x.2)) s
  ⟨s.a + r.a, s.b + r.b, s.c + r.c, s.d + r.d, s.e + r.e, s.f + r.f, s.g + r.g, s.h + r.h⟩

/-- `n` blocks. -/
def ShaSt.blocks : Nat → List W8 → ShaSt → ShaSt
  | 0, _, s => s
  | n + 1, bs, s => ShaSt.blocks n (bs.drop 64) (s.block (bs.take 64))

/-- The message with its padding: a one bit, zeros, and the length in bits as eight big-endian bytes. -/
def shaPad (bs : List W8) : List W8 :=
  let n := bs.length
  bs ++ 0x80#8 :: List.replicate ((119 - n % 64) % 64) 0 ++
    (List.range 8).map fun i => BitVec.ofNat 8 (8 * n / 256 ^ (7 - i))

/-- SHA-256 of a byte string, as a big-endian number. -/
def sha256 (bs : List W8) : Nat :=
  let m := shaPad bs
  let s := ShaSt.blocks (m.length / 64) m shaInit
  [s.a, s.b, s.c, s.d, s.e, s.f, s.g, s.h].foldl (fun x w => 2 ^ 32 * x + w.toNat) 0

/-! ## ECDSA P-256 -/

/-- The field, the order, the constant and the base point of the curve y^2 = x^3 - 3 x + b. -/
def ecP : Nat := 0xFFFFFFFF00000001000000000000000000000000FFFFFFFFFFFFFFFFFFFFFFFF
def ecN : Nat := 0xFFFFFFFF00000000FFFFFFFFFFFFFFFFBCE6FAADA7179E84F3B9CAC2FC632551
def ecB : Nat := 0x5AC635D8AA3A93E7B3EBBD55769886BC651D06B0CC53B0F63BCE3C3E27D2604B
def ecGx : Nat := 0x6B17D1F2E12C4247F8BCE6E563A440F277037D812DEB33A0F4A13945D898C296
def ecGy : Nat := 0x4FE342E2FE1A7F9B8EE7EB4A7C0F9E162BCE33576B315ECECBB6406837BF51F5

/-- Difference in the field. -/
def ecSub (x y : Nat) : Nat := (x + (ecP - y % ecP)) % ecP

/-- A point in Jacobian coordinates; z = 0 is the point at infinity. -/
structure EcPt where
  x : Nat
  y : Nat
  z : Nat
deriving DecidableEq, Repr

def EcPt.inf : EcPt := ⟨1, 1, 0⟩

def EcPt.dbl (q : EcPt) : EcPt :=
  if q.z = 0 then EcPt.inf
  else
    let d := q.z * q.z % ecP
    let g := q.y * q.y % ecP
    let b := q.x * g % ecP
    let a := 3 * ecSub q.x d * (q.x + d) % ecP
    let x := ecSub (a * a) (8 * b)
    ⟨x, ecSub (a * ecSub (4 * b) x) (8 * g * g), 2 * q.y * q.z % ecP⟩

def EcPt.add (p q : EcPt) : EcPt :=
  if p.z = 0 then q
  else if q.z = 0 then p
  else
    let zp := p.z * p.z % ecP
    let zq := q.z * q.z % ecP
    let u := p.x * zq % ecP
    let v := q.x * zp % ecP
    let s := p.y * zq % ecP * q.z % ecP
    let t := q.y * zp % ecP * p.z % ecP
    if u = v then (if s = t then p.dbl else EcPt.inf)
    else
      let h := ecSub v u
      let r := ecSub t s
      let hh := h * h % ecP
      let w := u * hh % ecP
      let x := ecSub (r * r) (hh * h + 2 * w)
      ⟨x, ecSub (r * ecSub w x) (s * hh % ecP * h), h * p.z % ecP * q.z % ecP⟩

/-- Bits `k - 1` down to 0 of u G + v Q. -/
def ecMulAdd (u v : Nat) (g q : EcPt) : Nat → EcPt → EcPt
  | 0, acc => acc
  | k + 1, acc =>
    let a := acc.dbl
    let a := if u.testBit k then a.add g else a
    ecMulAdd u v g q k (if v.testBit k then a.add q else a)

/-- Bits `k - 1` down to 0 of a power. -/
def powMod (m b e : Nat) : Nat → Nat → Nat
  | 0, acc => acc
  | k + 1, acc =>
    let a := acc * acc % m
    powMod m b e k (if e.testBit k then a * b % m else a)

/-- The inverse modulo a prime of 256 bits. -/
def invMod (m b : Nat) : Nat := powMod m b (m - 2) 256 1

/-- The signature `sig` (r then s, 32 big-endian bytes each) verifies for the digest with the public key, given as
2^256 x + y. -/
def ecdsaOk (key dig : Nat) (sig : List W8) : Bool :=
  let r := beNat (sig.take 32)
  let s := beNat (sig.drop 32)
  let q : EcPt := ⟨key / 2 ^ 256, key % 2 ^ 256, 1⟩
  if q.x < ecP ∧ q.y < ecP ∧ q.y * q.y % ecP = (ecSub (q.x * q.x * q.x) (3 * q.x) + ecB) % ecP ∧
      0 < r ∧ r < ecN ∧ 0 < s ∧ s < ecN then
    let w := invMod ecN s
    let p := ecMulAdd (dig * w % ecN) (r * w % ecN) ⟨ecGx, ecGy, 1⟩ q 256 EcPt.inf
    p.z ≠ 0 && p.x * invMod ecP (p.z * p.z % ecP) % ecP % ecN == r
  else false

end Sys2Proof.Machine
end

