-- ==== Sys2Proof/Machine/Image.lean ====
section
/-! DEFINITION. The image header and the check of an image (spec/17_management.md R557, R558;
spec/19_supplies_and_start_up.md R619). -/

namespace Sys2Proof.Machine

/-- First address of a code-flash bank. -/
def bankBase (b : Bool) : Nat := if b then 0x400000 else 0

/-- `n` bytes as they stand in flash. -/
def flashBytes (m : List Host.Cell) (a n : Nat) : List W8 := (List.range n).map fun i => memGet m (a + i)

/-- Fields of the header at `a` (R557). -/
def hdrLen (m : List Host.Cell) (a : Nat) : Nat := memLoad m (a + 0x08) 4
def hdrSvn (m : List Host.Cell) (a : Nat) : Nat := (memGet m (a + 0x0C)).toNat
def hdrKey (m : List Host.Cell) (a : Nat) : Nat := (memGet m (a + 0x05)).toNat

/-- MAGIC, HDR_VER and the range of LEN: the check of an ordinary start (R619). -/
def hdrBasic (m : List Host.Cell) (a : Nat) : Bool :=
  let n := hdrLen m a
  memLoad m a 4 == 0x32375A47 && memGet m (a + 4) == 1 && 4 ≤ n && n ≤ 4194176 && n % 4 == 0

/-- Every header field valid (R557). -/
def hdrValid (m : List Host.Cell) (a : Nat) : Bool :=
  hdrBasic m a && hdrKey m a ≤ 3 && memLoad m (a + 6) 2 == 0 && hdrSvn m a ≤ 63 && memLoad m (a + 0x0D) 3 == 0 &&
    memLoad m (a + 0x14) 4 == 0 && memLoad m (a + 0x18) 4 == 0 && memLoad m (a + 0x1C) 4 == 0

/-- Why an image does not verify: 0 it does, 5 AUTH, 6 ROLLBACK (R558, R568). -/
def imageCheck (m : List Host.Cell) (keys : Vector KeySlot 4) (cnt : Nat) (b : Bool) : Nat :=
  let a := bankBase b
  if !hdrValid m a then 5
  else
    let k := vget keys (hdrKey m a) { key := none, revoked := true }
    match k.key with
    | none => 5
    | some key =>
      if k.revoked then 5
      else if sha256 (flashBytes m (a + 0x80) (hdrLen m a)) != beNat (flashBytes m (a + 0x20) 32) then 5
      else if !ecdsaOk key (sha256 (flashBytes m a 0x40)) (flashBytes m (a + 0x40) 64) then 5
      else if hdrSvn m a < cnt then 6
      else 0

/-- The image of bank `b` verifies. -/
def imageOk (m : List Host.Cell) (keys : Vector KeySlot 4) (cnt : Nat) (b : Bool) : Bool :=
  imageCheck m keys cnt b == 0

end Sys2Proof.Machine
end

