-- ==== Sys2Proof/Machine/PlantLink.lean ====
section
/-! DEFINITION. The plant link PLINK: descriptor rings and frames (spec/16_host_port_and_plant_link.md R524 to R534,
R536). -/

namespace Sys2Proof.Machine

/-! ## Fields -/

def Plk.en (p : Plk) : Bool := bit p.ctl 0

/-- Ring sizes in descriptors (R527). -/
def ringLen (cfg : W32) : Nat := 2 ^ clampN 2 8 (fld cfg 0 4)

/-- Receive buffer bytes (R536); outside 64 to 2,048 the nearer limit (log entry 25). -/
def Plk.bufLen (p : Plk) : Nat := clampN 64 2048 (fld p.rxCfg 16 16 / 32 * 32)

/-- PLINK runs and accepts commands (R580). -/
def State.plkUp (s : State) : Bool := s.isUp 4 && !s.isStopped 2

/-! ## PLCA (R524, R525, R536) -/

/-- The parameters of Clause 148 as the fields give them, with the limits of R536; times in bit times. -/
def Plk.plcaId (p : Plk) : Nat := fld p.plcaCfg 1 5
def Plk.plcaCnt (p : Plk) : Nat := clampN 1 32 (fld p.plcaCfg 8 6)
def Plk.plcaMaxBc (p : Plk) : Nat := fld p.plcaCfg 16 4
def Plk.plcaTo (p : Plk) : Nat := max 1 (fld p.plcaTmr 0 8)
def Plk.plcaBurst (p : Plk) : Nat := max 1 (fld p.plcaTmr 8 8)

/-- PLCA decides when a frame may start: enabled, and its status good. -/
def Plk.plcaOn (p : Plk) : Bool := bit p.plcaCfg 0 && p.pst

/-- The node IDs of the transmit opportunities that follow a BEACON of this node as the coordinator, node ID 0; another
node sends no BEACON. -/
def Plk.plcaCycle (p : Plk) : List Nat := if p.plcaId = 0 then List.range p.plcaCnt else []

/-- A frame may start `gap` bit times into transmit opportunity `opp`, or after frame `nth` - 1 of the burst sent in it:
under PLCA in the node's own opportunity, before its timer has run out, and in a burst no longer than MAX_BC and before
the burst timer has. Without PLCA, CSMA/CD takes any time. -/
def Plk.mayStart (p : Plk) (opp nth gap : Nat) : Bool :=
  !p.plcaOn ||
    (opp == p.plcaId && (if nth = 0 then gap ≤ p.plcaTo else nth ≤ p.plcaMaxBc && gap ≤ p.plcaBurst))

/-- Attempts at a frame: at most 16, and 16 where the limit ends it (R524). -/
def attempts (res tries : Nat) : Nat := if res = 1 then 16 else clampN 1 16 tries

/-! ## Memory (R39, R528, R574, R600) -/

/-- Address `a` answers PLINK: SRAM while CORE is powered and clocked, its reset aside (R14); bulk memory once the HUB
has initialised it. -/
def State.plkReach (s : State) (a : Nat) : Bool :=
  if isSram a then s.isUp 1 && !s.coreGated else isBulk a && s.bulkOk

/-- Address `a` does not answer yet: CORE's clock is stopped, or bulk memory is being initialised. -/
def State.plkWaits (s : State) (a : Nat) : Bool :=
  (isSram a && s.isUp 1 && s.coreGated) || (isBulk a && s.isUp 2 && !s.pwr.bulkRdy)

def Plk.txAddr (p : Plk) (i : Nat) : Nat := p.txBase.toNat + 16 * i
def Plk.rxAddr (p : Plk) (i : Nat) : Nat := p.rxBase.toNat + 16 * i

/-- OWN of the descriptor at `a`. -/
def State.descOwn (s : State) (a : Nat) : Bool := (memLoad s.mem a 4).testBit 31

/-- The buffer of the descriptor at `a`. -/
def State.descBuf (s : State) (a : Nat) : Nat := memLoad s.mem a 4 % 2 ^ 28

/-- PLINK reads words 0 and 1 of a descriptor through the error correction of R39: `none` when a word has two bits in
error, and where the address is neither SRAM nor bulk memory. -/
def State.descRead (s : State) (a : Nat) : Option (Nat × Nat) × State :=
  if s.plkReach a then
    let r0 := s.loadBytes a 4 5
    let r1 := r0.2.2.loadBytes (a + 4) 4 5
    (if r0.1 && r1.1 then some (r0.2.1, r1.2.1) else none, r1.2.2)
  else (none, s)

/-- An operation is held back, and asks for a wake while CORE's clock is stopped (R574, R588). -/
def State.plkHold (s : State) (op : PlkOp) : State :=
  (s.modPlk fun p => { p with held := p.held ++ [op] }).onlyIf s.coreGated State.coreHolds

/-- An operation on the descriptor at `a` must wait: behind others, or for the descriptor or its buffer. -/
def State.plkStalls (s : State) (a : Nat) : Bool :=
  !s.plk.held.isEmpty || s.plkWaits a || (s.plkReach a && s.plkWaits (s.descBuf a))

/-- PLINK looks at the transmit descriptor at HEAD and starts on it if it owns it (R529). A descriptor that it cannot
read counts as one it does not own (log entry 25). -/
def State.txLook (s : State) : State :=
  let a := s.plk.txAddr s.plk.txHead
  if s.plk.en && s.plkUp && !s.plk.txBusy then
    if !s.plk.held.isEmpty || s.plkWaits a then s.plkHold .txLook
    else
      let r := s.descRead a
      r.2.modPlk fun p => { p with txBusy := match r.1 with | some w => w.1.testBit 31 | none => false }
  else s

/-- PLINK looks at the receive descriptor at HEAD: the ring runs if it owns it, else it stops there (R529). -/
def State.rxLook (s : State) : State :=
  let a := s.plk.rxAddr s.plk.rxHead
  if s.plk.en && s.plkUp then
    if !s.plk.held.isEmpty || s.plkWaits a then s.plkHold .rxLook
    else
      let r := s.descRead a
      r.2.modPlk fun p => { p with rxRun := match r.1 with | some w => w.1.testBit 31 | none => false }
  else s

/-- Write a descriptor back: W1 to W3, and OWN cleared in the same write (R529). -/
def State.descBack (s : State) (a : Nat) (w1 ts tries : Nat) : State :=
  let w0 := memLoad s.mem a 4 % 2 ^ 31
  s.storeWords 5 a [w0, w1, ts % 2 ^ 32, ts % 2 ^ 48 / 2 ^ 32 + 65536 * (tries % 32)]

/-- A transmit descriptor with word 1 `w1` completes with the status bits `st` (W1 [28:24]). -/
def State.txBackAt (s : State) (i w1 st ts tries : Nat) : State :=
  let s1 := s.descBack (s.plk.txAddr i) (w1 % 2048 + 65536 * (w1 / 65536 % 2) + st * 2 ^ 24) ts tries
  s1.onlyIf (w1.testBit 16) fun s => s.emit 4 0x01 (pack [(0, 8, i), (8, 5, st)])

/-- EN 0 has taken effect: owned transmit descriptors come back with ABORTED and no attempt made, HEADs and PLCA status
clear (R532). The spec gives an unsent descriptor no time stamp: a free value (log entry 5). -/
def State.plkOff (s : State) : State :=
  let s1 := (List.range (ringLen s.plk.txCfg)).foldl (fun s k =>
    let i := (s.plk.txHead + k) % ringLen s.plk.txCfg
    let r := s.descRead (s.plk.txAddr i)
    match r.1 with
    | some w =>
      if w.1.testBit 31 then
        let d := r.2.draw 48
        d.2.txBackAt i w.2 16 d.1 0
      else r.2
    | none => r.2) s
  s1.modPlk fun p =>
    { p with
      txHead := 0, rxHead := 0, pst := false, txBusy := false, rxBusy := false, offPend := false, rxRun := false }

/-- A frame in progress has ended: a write of EN 0 that waited for it takes effect (R532). -/
def State.plkFrameEnd (s : State) : State :=
  if s.plk.offPend && !s.plk.txBusy && !s.plk.rxBusy then s.plkOff else s

/-! ## Transmission (R527 to R529) -/

/-- A frame as it is sent: padded to 60 bytes, with its FCS (R527). -/
def txFrame (data : List W8) : List W8 :=
  let d := data ++ List.replicate (60 - data.length) 0
  d ++ fcsOf d

/-- The frame being sent has ended at the descriptor at HEAD, which is written back; `ts` is the time of its start-frame
delimiter (R528, R529). -/
def State.txDoneNow (s : State) (res tries ts : Nat) : State :=
  let p := s.plk
  let d := s.descRead (p.txAddr p.txHead)
  let w := d.1.getD (0, 0)
  let buf := w.1 % 2 ^ 28
  let len := w.2 % 2048
  let r := d.2.eccRange 5 buf (ceilDiv len 4)
  let mem := isBulk buf && !r.1
  let st := (if res = 0 && !mem then 1 else 0) + (if res = 1 then 2 else 0) + (if res = 2 then 4 else 0) +
    (if mem then 8 else 0)
  let s1 := if d.1.isSome then r.2.txBackAt p.txHead w.2 st ts tries else d.2
  let s2 := s1.modPlk fun p =>
    { p with
      txHead := (p.txHead + 1) % ringLen p.txCfg, txBusy := false,
      wire := if res = 0 && d.1.isSome then txFrame (s1.streamOf buf len) else p.wire,
      cntLimit := if res = 1 then satN 16 (p.cntLimit + 1) else p.cntLimit,
      cntLate := if res = 2 then satN 16 (p.cntLate + 1) else p.cntLate }
  if p.offPend then s2.plkFrameEnd else s2.txLook

/-- The frame being sent ends: `res` 0 sent, 1 attempt limit reached, 2 late collision; `ago` since its start-frame
delimiter; `opp`, `nth` and `gap` place its start in PLCA's order. A frame that overlaps another one, or that PLCA does
not let start, is not sent (R524, R525). -/
def State.plkTxDone (s : State) (res tries ago opp nth gap : Nat) : State :=
  let p := s.plk
  let ts := s.now - ago
  let n := attempts res tries
  if s.isUp 4 && p.txBusy && p.mayStart opp nth gap && (res != 0 || p.busAt ≤ ts) then
    let s1 := s.modPlk fun p => { p with busAt := if res = 0 then s.now else p.busAt }
    if s1.plkStalls (p.txAddr p.txHead) then s1.plkHold (.txDone res n ts) else s1.txDoneNow res n ts
  else s

/-- A write of CTL (R527, R532). `same`: the transmission completes in the island cycle of the write, after `tries`
attempts and `ago` after its start-frame delimiter (R26). -/
def State.plkCtlWrite (s : State) (v : W32) (same : Bool) (tries ago : Nat) : State :=
  let w := keep 0x1F v
  if s.plk.en && !bit w 0 then
    let late := same && s.plk.txBusy && s.plk.busAt ≤ s.now - ago
    let s1 := s.onlyIf late fun s => s.plkTxDone 0 tries ago s.plk.plcaId 0 0
    let s2 := s1.modPlk fun p =>
      { p with ctl := w, txBusy := p.txBusy && !late, cmdRes := if late then 1 else 0, offPend := true }
    s2.plkFrameEnd
  else s.modPlk fun p => { p with ctl := w, cmdRes := 0 }

/-! ## Reception (R527 to R531) -/

/-- Destination filter (R527). -/
def Plk.accepts (p : Plk) (data : List W8) : Bool :=
  let b (i : Nat) : Nat := (data.getD i 0).toNat
  let mac := fld p.macLo 0 8 = b 0 && fld p.macLo 8 8 = b 1 && fld p.macLo 16 8 = b 2 && fld p.macLo 24 8 = b 3 &&
    fld p.macHi 0 8 = b 4 && fld p.macHi 8 8 = b 5
  let bcast := (List.range 6).all fun i => b i = 255
  bit p.ctl 1 || mac || bcast || (bit p.ctl 2 && b 0 % 2 = 1)

/-- Store received bytes: whole words, then what is left byte by byte; answers whether no ECC error was met. -/
def State.storeData (a : Nat) (data : List W8) (s : State) : Bool × State :=
  let n := data.length / 4
  let ws := (List.range n).map fun i =>
    (data.getD (4 * i) 0).toNat + 256 * (data.getD (4 * i + 1) 0).toNat + 65536 * (data.getD (4 * i + 2) 0).toNat +
      16777216 * (data.getD (4 * i + 3) 0).toNat
  let s1 := s.storeWords 5 a ws
  (List.range (data.length % 4)).foldl (fun r i =>
    let t := r.2.storeBytes (a + 4 * n + i) (data.getD (4 * n + i) 0).toNat 1 5
    (r.1 && t.1, t.2)) (true, s1)

/-- A frame has been received whole (R527 to R529, R531): a receive ring that has stopped takes no frame. -/
def State.rxDoneNow (s : State) (frame : List W8) (ts : Nat) : State :=
  let p := s.plk
  let data := frame.take (frame.length - 4)
  let fcsOk := fcsOf data == frame.drop (frame.length - 4)
  let noBuf (s : State) : State :=
    (s.modPlk fun p => { p with cntNobuf := satN 16 (p.cntNobuf + 1), rxRun := false }).emit 4 0x03 0
  if !fcsOk && !bit p.ctl 3 then s.modPlk fun p => { p with cntFcs := satN 16 (p.cntFcs + 1) }
  else if !p.rxRun then noBuf s
  else
    let a := p.rxAddr p.rxHead
    let d := s.descRead a
    match d.1 with
    | none => noBuf d.2
    | some w =>
      if !w.1.testBit 31 then noBuf d.2
      else
        let buf := w.1 % 2 ^ 28
        let n := min data.length p.bufLen
        let r := if s.plkReach buf then d.2.storeData buf (data.take n) else (true, d.2)
        let cut := p.bufLen < data.length
        let mem := isBulk buf && !r.1
        let st := (if fcsOk && !cut && !mem then 1 else 0) + (if fcsOk then 0 else 2) + (if cut then 4 else 0) +
          (if mem then 8 else 0)
        let s1 := (r.2.descBack a (n + st * 2 ^ 24) ts 0).modPlk fun p =>
          { p with rxHead := (p.rxHead + 1) % ringLen p.rxCfg }
        (s1.onlyIf (bit p.ctl 4) fun s => s.emit 4 0x02 (pack [(0, 8, p.rxHead), (8, 5, st)])).rxLook

/-- A frame begins to arrive, or (`start` false) has arrived: `frame` with its FCS, `ago` after its start-frame
delimiter (R527). A frame that overlaps another one on the segment is none (R524). -/
def State.plkReceive (s : State) (start : Bool) (frame : List W8) (ago : Nat) : State :=
  let p := s.plk
  let ts := s.now - ago
  let open_ := s.plkUp && (p.en || (p.offPend && p.rxBusy))
  if !open_ then s
  else if start then s.modPlk fun p => { p with rxBusy := true }
  else
    let s1 := s.modPlk fun p => { p with rxBusy := false }
    let s2 :=
      if 64 ≤ frame.length && frame.length ≤ 1522 && p.busAt ≤ ts && p.accepts frame then
        let s2 := s1.modPlk fun p => { p with busAt := s.now }
        if s2.plkStalls (p.rxAddr p.rxHead) then s2.plkHold (.rxDone frame ts) else s2.rxDoneNow frame ts
      else s1
    s2.plkFrameEnd

/-- What was held back goes on in its order: after SLEEP, and when bulk memory is ready (R595, R600). -/
def State.plkRelease (s : State) : State :=
  s.plk.held.foldl (fun s op =>
    match op with
    | .txLook => s.txLook
    | .rxLook => s.rxLook
    | .txDone res tries ts =>
      if s.plkStalls (s.plk.txAddr s.plk.txHead) then s.plkHold op else s.txDoneNow res tries ts
    | .rxDone frame ts =>
      if s.plkStalls (s.plk.rxAddr s.plk.rxHead) then s.plkHold op else s.rxDoneNow frame ts)
    (s.modPlk fun p => { p with held := [] })

/-- The PLCA status changes (R525). -/
def State.plcaChange (s : State) (st : Bool) : State :=
  if s.plkUp && s.plk.en && bit s.plk.plcaCfg 0 && s.plk.pst != st then
    (s.modPlk fun p => { p with pst := st }).emit 4 0x04 (pack [(0, 1, b2n st)])
  else s

/-- A write to a register that EN 1 protects (R526, R536). -/
def State.plkCfgWrite (s : State) (f : Plk → Plk) : State :=
  if s.plk.en then s.modPlk fun p => { p with cmdRes := 3 } else s.modPlk fun p => { (f p) with cmdRes := 0 }

/-- PLK's ground for refusing DEEP (R533). -/
def State.plkRefuses (s : State) : Bool :=
  s.plk.en && (s.plk.txBusy || s.plk.rxBusy || (List.range (ringLen s.plk.txCfg)).any fun i => s.descOwn (s.plk.txAddr i))

/-! ## Registers (R536) -/

def Plk.read (p : Plk) (off : Nat) : W32 :=
  match off with
  | 0x00 => p.ctl
  | 0x04 => pack [(0, 1, b2n p.pst), (1, 1, b2n p.txBusy), (2, 1, b2n p.rxBusy), (4, 2, p.cmdRes)]
  | 0x08 => p.plcaCfg
  | 0x0C => p.plcaTmr
  | 0x10 => p.macLo
  | 0x14 => p.macHi
  | 0x20 => p.txBase
  | 0x24 => p.txCfg
  | 0x28 => pack [(0, 8, p.txHead)]
  | 0x30 => p.rxBase
  | 0x34 => p.rxCfg
  | 0x38 => pack [(0, 8, p.rxHead)]
  | 0x40 => pack [(0, 16, p.cntNobuf), (16, 16, p.cntFcs)]
  | 0x44 => pack [(0, 16, p.cntLimit), (16, 16, p.cntLate)]
  | _ => 0

/-- A store of a core into the PLK block. -/
def State.plkWrite (s : State) (off : Nat) (v : W32) : State :=
  if s.isStopped 2 then s
  else
    match off with
    | 0x00 => s.plkCtlWrite v false 0 0
    | 0x08 => s.plkCfgWrite fun p => { p with plcaCfg := keep 0x000F3F3F v }
    | 0x0C => s.plkCfgWrite fun p => { p with plcaTmr := keep 0xFFFF v }
    | 0x10 => s.plkCfgWrite fun p => { p with macLo := v }
    | 0x14 => s.plkCfgWrite fun p => { p with macHi := keep 0xFFFF v }
    | 0x20 => s.plkCfgWrite fun p => { p with txBase := keep 0x0FFFFFF0 v }
    | 0x24 => s.plkCfgWrite fun p => { p with txCfg := keep 0xF v }
    | 0x2C => s.txLook
    | 0x3C => s.rxLook
    | 0x30 => s.plkCfgWrite fun p => { p with rxBase := keep 0x0FFFFFF0 v }
    | 0x34 => s.plkCfgWrite fun p => { p with rxCfg := keep 0xFFFF000F v }
    | _ => s

def Plk.rcClear (p : Plk) (off : Nat) : Plk :=
  if off = 0x40 then { p with cntNobuf := 0, cntFcs := 0 }
  else if off = 0x44 then { p with cntLimit := 0, cntLate := 0 }
  else p

end Sys2Proof.Machine
end

