-- ==== Sys2Proof/Machine/Reset.lean ====
section
/-! DEFINITION. The end of an entry by refusal, the control-plane reset with its orphan hold, and the start of the
control plane by the boot ROM (spec/18_power_states.md R583 to R595, spec/19_supplies_and_start_up.md R614 to R623,
spec/02_high_side_channels.md R80 to R87). -/

namespace Sys2Proof.Machine

/-! ## An entry ends by refusal (R583, R584) -/

/-- Every block that had stopped for an entry restarts. -/
def State.restartBlocks (s : State) : State :=
  (s.modPwr fun p => { p with stopped := Vector.replicate 14 false }).modAdm fun a => { a with stopped := false }

/-- The entry in progress ends as a refusal by `code`, with CAUSE and UNIT (R583). -/
def State.entryRefuse (s : State) (code cause unit : Nat) : State :=
  let p := s.pwr
  let some_ := (List.range 11).any fun i => vget p.stopped (i + 2) false
  let la := pack [(0, 5, code), (8, 4, p.stage), (12, 2, p.target), (16, 2, cause), (24, 8, unit)]
  let s1 := s.restartBlocks.modPwr fun p =>
    { p with
      phase := .run, stage := 0, wakeCause := 0, lastAbort := la, lastAbortTime := s.count,
      refCnt := vupd p.refCnt code fun n => satN 16 (n + 1), res := if some_ then 3 else 2,
      cntAborted := if some_ then satN 16 (p.cntAborted + 1) else p.cntAborted,
      cntRefused := if some_ then p.cntRefused else satN 16 (p.cntRefused + 1) }
  s1.emit 0 (if some_ then 0xA1 else 0xA0) la

/-! ## Orphan hold (R80 to R87) -/

/-- A target that the limp map does not select goes off (R84). -/
def State.orphanOff (s : State) (t : Fin 67) : State :=
  if h : t.val < 48 then s.hsOrphanOff ⟨t.val, h⟩
  else if h : t.val < 64 then s.vdOrphanOff ⟨t.val - 48, by omega⟩
  else s.lsOrphanOff ⟨t.val - 64, by omega⟩

/-- The orphan timer expires (R84): mapped targets enter limp mode, those too that an ACTIVE held by another source has
not reached, the others go off, heater slots are disabled (R189)
and chains act as their ORPHAN_ACT says (R306). -/
def State.orphanExpire (s : State) : State :=
  let s1 := s.modHsc fun h => { h with orphanEnd := none, expired := true }
  let s2 := (s1.slotsOrphan.limpSources 2 false fun p => { p with expiry := true }).limpRest 2
  let s3 := forFin 67 (fun t s => if s.mapSel t then s else s.orphanOff t) s2
  forFin 8 (fun k s => s.lcOrphan k) s3

/-- HOLD in microseconds. -/
def Hsc.holdUs (h : Hsc) : Nat := min 600 (fld h.orphanCfg 0 16) * 100000

/-- The CORE island enters reset (R80, R81). The hold ends at the time that HOLD gives at its start: a later write of
ORPHAN_CFG does not move it: the model's choice (log entry 42). -/
def State.orphanStart (s : State) : State :=
  if s.isUp 2 && s.hsc.orphanEnd.isNone && !s.hsc.expired then
    if s.hsc.holdUs = 0 then s.orphanExpire
    else s.modHsc fun h => { h with orphanEnd := some (s.now + h.holdUs) }
  else s

/-- ORPHAN_EXPIRY at the end of the hold. -/
def State.orphanDue (s : State) : State :=
  match s.hsc.orphanEnd with
  | some t => if s.isUp 2 then (s.advanceTo t).orphanExpire else s
  | none => s

/-- RECLAIM (R83, R87). After a return from DEEP, EXPIRED has been reset with HUB while EXPIRY of AON may still be 1:
RECLAIM then clears EXPIRY as well: the model's choice (log entry 42). -/
def State.orphanReclaim (s : State) : State :=
  let s1 := s.modHsc fun h => { h with orphanEnd := none, expired := false }
  s1.onlyIf (s.hsc.expired || s.inp.expiry) fun s => s.limpSources 2 false fun p => { p with expiry := false }

/-! ## The control-plane reset (R13, R14, R393, R414, R436, R522, R544, R584) -/

/-- Everything the CORE island holds returns to its reset state; SRAM keeps its contents (R14). `bank` is the bank
that C0 will run from. The pushes that producers hold stay held (R415). The records the hub held for the cores, and its
count of discarded ones, are dropped with the cores' event queues: the model's choice (log entry 45). -/
def State.coreIslandReset (s : State) (bank : Nat) : State :=
  { s with
    core := Vector.ofFn fun c : Fin 4 => Core.init c.val bank, pmc := Pmc.init,
    que := { Que.init with held := s.que.held }, hp := { Hp.init with csnLow := s.hp.csnLow },
    sys := { s.sys with ceBulk := 0, ueBulk := 0, ceSram := 0, ueSram := 0, eccAddr := 0, held := [] },
    fab := { s.fab with
             out := vupd s.fab.out 1 fun _ => OutBuf.init
             hub := (s.fab.hub.map fun r => { r with cores := [] }).filter (·.dep)
             hubLost := 0 } }

/-- WD_CFG takes its reset value and the watchdog begins a period (R541, R544). -/
def Dep.wdRestart (d : Dep) (at_ : Option Nat) : Dep :=
  { d with wdCfg := 0x110007D0, wdKick := 0, wdAt := at_, wdWarned := false }

/-- A control-plane reset of cause 1 RSTN, 2 watchdog, 3 update reboot, 4 rollback. The watchdog's period starts at
`wd`. An entry in progress ends as refused; a stopped CORE clock runs again (log entry 18), and the pushes held
meanwhile meet the queues as the reset leaves them (R414). A reboot that UPD_ACTIVATE has asked for stays due (R559). -/
def State.cpReset (s : State) (cause : Nat) (wd : Option Nat) : State :=
  if s.isUp 1 then
    let s1 := if s.pwr.phase == .entering then s.entryRefuse 14 2 0 else s
    let s2 := s1.modPwr fun p => { p with phase := if p.phase == .sleep then .run else p.phase }
    let s3 := (s2.coreIslandReset (b2n s.nv.activeB)).modSup fun u =>
      { u with coreReset := true, cause := cause, rstCount := satN 16 (u.rstCount + 1) }
    let s4 := s3.modDep fun d =>
      { (d.wdRestart wd) with trialAt := if s.nv.next || s.nv.trial then some s.now else none }
    (if s4.coreGated then s4 else s4.queRelease).orphanStart
  else s

/-! ## The boot ROM (R591, R595, R618 to R623) -/

/-- The end of a return: RES, FROM, WOKEN and BACKUP (R592, R595). After DEEP, VSENS turns on again with VSENS_EN at 1
(R335). -/
def State.returnDone (s : State) : State :=
  let p := s.pwr
  let s0 := s.onlyIf (p.leaving = 2) fun s => s.modInp Inp.vsensWake
  let s1 := s0.modPwr fun p =>
    { p with
      phase := .run, step := 0, from_ := p.leaving, res := if p.leaving = 0 then p.res else 1,
      backupOsc := p.usedOsc, backupReg := p.usedReg }
  let s2 := s1.onlyIf (p.leaving != 0) fun s =>
    s.emit 0 0xA2 (pack [(0, 15, p.wakeCause), (16, 2, p.leaving)])
  s2.onlyIf (p.usedOsc || p.usedReg) fun s => s.emit 0 0xA3 (pack [(0, 1, b2n p.usedOsc), (1, 1, b2n p.usedReg)])

/-- The boot ROM may run: the CORE island is held for a start, RSTN is high, no watchdog hold runs, and the management
program is up. -/
def State.bootReady (s : State) : Bool :=
  s.isUp 1 && s.sup.coreReset && !s.sup.rstnLow && s.dep.wdHold.isNone && s.isUp 3 && s.dep.mgmtUp

/-- The Deputy asserts or releases limp; a change is an event (R323, R325, R570). -/
def State.depLimp (s : State) (on : Bool) : State :=
  if s.inp.deputy == on then s
  else (s.limpSources 1 false fun p => { p with deputy := on }).emit 3 (if on then 0x04 else 0x05) 0

/-- BOOT_CHECK, taking `ms`: the active bank, or a bank that UPD_ACTIVATE made next, is checked; the other bank is the
fallback; SYS is written and C0 released, or held without an image (R560, R619 to R623). What PLINK still held back
when a reset ended SLEEP goes on from here (log entry 25). -/
def State.bootCheck (s : State) (ms : Nat) : State :=
  if s.bootReady then
    let s := s.advanceTo (s.now + ms * 1000)
    let want := s.nv.activeB != s.nv.next
    let full := s.sup.cause == 0 || s.nv.next
    let ok1 := if full then imageOk s.mem s.nv.keys s.nv.cnt want else hdrBasic s.mem (bankBase want)
    let ok2 := !ok1 && imageOk s.mem s.nv.keys s.nv.cnt (!want)
    let bank := if ok2 then !want else want
    let none_ := !ok1 && !ok2
    let trial := ok1 && (s.nv.next || s.nv.trial)
    let s1 := s.modNv fun v => { v with activeB := bank, next := false, trial := trial }
    let boot := pack [(0, 1, b2n bank), (1, 1, b2n (full || ok2)), (2, 1, b2n ok2), (3, 1, b2n trial),
      (4, 1, b2n none_), (8, 6, if none_ then 0 else hdrSvn s.mem (bankBase bank)), (16, 16, satN 16 ms)]
    let s2 := s1.modSys fun y =>
      { y with
        boot := boot,
        rstCause := pack [(0, 4, s.sup.cause), (4, 2, if s.sup.cause = 0 then s.sup.porSrc else 0),
          (16, 16, s.sup.rstCount)] }
    let s3 : State :=
      { s2 with core := Vector.ofFn fun c : Fin 4 => { Core.init c.val (b2n bank) with started := c.val = 0 && !none_ } }
    let s4 := s3.modSup fun u => { u with coreReset := false }
    let s5 := s4.modDep fun d =>
      { d with
        updStep := if s.nv.next then 0 else d.updStep, wdAt := if d.wdAt.isNone then some s.now else d.wdAt,
        trialAt := if trial then (if d.trialAt.isNone then some s.now else d.trialAt) else none }
    let s6 := if s5.pwr.phase == .starting || s5.pwr.phase == .returning then s5.returnDone else s5
    (s6.onlyIf none_ fun s => s.depLimp true).plkRelease
  else s

end Sys2Proof.Machine
end

