-- ==== Sys2Proof/Machine/Deputy.lean ====
section
/-! DEFINITION. The Deputy: watchdog, sensors, event log and lifetime accounting (spec/17_management.md R537 to R556,
R560, R561). -/

namespace Sys2Proof.Machine

/-- The management program runs. -/
def State.depUp (s : State) : Bool := s.isUp 3 && s.dep.mgmtUp

/-! ## Image trial (R560, R561) -/

/-- The trial fails: the previous bank becomes active again; `cause` as LAST_RB. -/
def State.rollback (s : State) (cause : Nat) : State :=
  let s1 := s.modNv fun v => { v with activeB := !v.activeB, trial := false, next := false, lastRb := cause }
  let arg := pack [(0, 3, cause)]
  ((s1.modDep fun d => { d with trialAt := none }).emit 3 0x0B arg).logOwn 0x0B arg

/-! ## Control-plane watchdog (R541 to R545) -/

/-- MAX in microseconds. -/
def Dep.wdMax (d : Dep) : Nat := max 100 (fld d.wdCfg 0 16) * 1000

/-- PEND: cores yet to kick. -/
def Dep.wdPend (d : Dep) : Nat := fld d.wdCfg 24 4 &&& (15 ^^^ d.wdKick)

/-- The watchdog counts: the CORE clock runs in RUN or IDLE and a period is in progress (R543). -/
def State.wdRuns (s : State) : Bool :=
  s.depUp && s.dep.wdAt.isSome && (s.pwr.phase == .run || s.pwr.phase == .entering)

/-- Times of the last 600 s. -/
def recent600 (now : Nat) (ts : List Nat) : List Nat := ts.filter fun t => decide (now < t + 600000000)

/-- A watchdog reset of cause 0 expiry, 1 early, 2 halt (R542, R545); an image on trial rolls back (R560). -/
def State.wdReset (s : State) (cause : Nat) : State :=
  let times := s.now :: recent600 s.now s.dep.wdTimes
  let fourth := decide (4 ≤ times.length)
  let s1 := s.modDep fun d =>
    { d with
      wdCause := cause, wdResets := satN 8 (d.wdResets + 1), wdTimes := if fourth then [] else times,
      wdHold := if fourth then some (s.now + 60000000) else d.wdHold }
  let arg := pack [(0, 2, cause)]
  let s2 := (s1.emit 3 0x03 arg).logOwn 0x03 arg
  let s3 := if s2.nv.trial then s2.rollback (if cause = 2 then 2 else 1) else s2
  let s4 := s3.onlyIf fourth fun s => s.depLimp true
  s4.cpReset (if s.nv.trial then 4 else 2) (if fourth then none else some s.now)

/-- A core writes WD_KICK (R541, R542). With no core named, any kick ends the period (log entry 26). -/
def State.wdKick (s : State) (c : Fin 4) (key : Nat) : State :=
  match s.dep.wdAt with
  | none => s
  | some t =>
    if s.wdRuns && key = 0xC35A then
      let s1 := s.modDep fun d => { d with wdKick := d.wdKick ||| (1 <<< c.val) }
      if s1.dep.wdPend = 0 then
        if s.now < t + fld s.dep.wdCfg 16 8 * 10000 then s1.wdReset 1
        else s1.modDep fun d => { d with wdKick := 0, wdAt := some s.now, wdWarned := false }
      else s1
    else s

/-- MAX passes without the end of the period (R542). -/
def State.wdExpire (s : State) : State :=
  match s.dep.wdAt with
  | none => s
  | some t => if s.wdRuns then (s.advanceTo (t + s.dep.wdMax)).wdReset 0 else s

/-- 75 % of MAX has passed (R542). -/
def State.wdWarn (s : State) : State :=
  match s.dep.wdAt with
  | none => s
  | some t =>
    if s.wdRuns && !s.dep.wdWarned then
      let s1 := s.advanceTo (t + s.dep.wdMax * 3 / 4)
      (s1.modDep fun d => { d with wdWarned := true }).emit 3 0x02
        (pack [(0, 16, (t + s.dep.wdMax - s1.now) / 1000)])
    else s

/-- The 60 s hold after the fourth reset ends (R545). -/
def State.wdHoldEnd (s : State) : State :=
  match s.dep.wdHold with
  | none => s
  | some t => if s.depUp then (s.advanceTo t).modDep fun d => { d with wdHold := none } else s

/-- A write of WD_CFG (R544). -/
def State.wdCfgWrite (s : State) (v : W32) : State :=
  if bit s.dep.wdCfg 31 then s else s.modDep fun d => { d with wdCfg := keep 0x9FFFFFFF v }

/-- 60 s without CHECK_IN: the trial fails, unless a CHECK_IN posted in time waits to be taken (R560, R561). -/
def State.trialTimeout (s : State) : State :=
  match s.dep.trialAt with
  | none => s
  | some t =>
    let dl := t + 60000000
    let saved := s.dep.posted.any fun i => fld s.dep.slots[i.val][0] 0 8 = 1 && s.dep.postTime[i] < dl
    if s.depUp && s.nv.trial && !saved then
      let s1 := s.advanceTo dl
      (s1.rollback 3).cpReset 4 (some s1.now)
    else s

/-! ## MGMT restart (R538) -/

/-- The MGMT island, the Deputy's core with it, is reset alone; when the program runs again it emits MGMT_UP. Mailbox
slots are cleared; what the Deputy keeps in its SRAM and stores, the watchdog's settings and the limp request stay. -/
def State.mgmtReset (s : State) : State :=
  if s.isUp 3 then
    let n := satN 16 (s.dep.mrestarts + 1)
    let s0 : State := { s with depCore := Core.init 4 0 }
    let s1 := s0.modDep fun d =>
      { d with
        slots := Vector.replicate 64 (Vector.replicate 8 0), reqBusy := 0, rspPend := 0, posted := [], rspWait := [],
        mrestarts := n, mgmtUp := true, wdKick := 0, wdAt := d.wdAt.map fun _ => s.now, wdWarned := false,
        updOp := none, updStep := 0, rebootAt := none }
    let arg := pack [(0, 16, n)]
    (s1.emit 3 0x0C arg).logOwn 0x0C arg
  else s

/-! ## Sensors (R539, R540) -/

/-- A crossing of an alarm limit, or a return inside it: event, log entry (R539). -/
def State.sensAlarm (s : State) (kind idx : Nat) (on : Bool) : State :=
  let arg := pack [(0, 4, kind), (8, 4, idx), (16, 1, b2n on)]
  (s.emit 3 0x06 arg).logOwn 0x06 arg

/-- New state of an alarm from its old one: `out` beyond the limit, `back` inside it with the hysteresis. -/
def alarmNext (old out back : Bool) : Bool := out || (old && !back)

/-- A temperature point, 1/16 of a degree; point 0 also counts 40 K cycles of the baseplate (R539, R555). -/
def State.tempSample (s : State) (i : Fin 16) (t : Int) : State :=
  let lim := s.nv.tempLim[i] * 16
  let old := s.dep.tempAl[i]
  let al := alarmNext old (lim < t) (t ≤ lim - 32)
  let s1 := s.modDep fun d => { d with temp := upd d.temp i fun _ => t, tempAl := upd d.tempAl i fun _ => al }
  let s2 := s1.onlyIf (al != old) fun s => s.sensAlarm 0 i.val al
  if i.val = 0 then
    s2.modNv fun v =>
      match v.p0Max with
      | none =>
        { v with p0Min := min v.p0Min t, p0Max := if min v.p0Min t + 640 ≤ t then some t else none }
      | some m =>
        if t + 640 ≤ max m t then { v with p0Cyc := v.p0Cyc + 1, p0Min := t, p0Max := none }
        else { v with p0Max := some (max m t) }
  else s2

/-- One alarm bit of a quantity. -/
def State.alarmBit (s : State) (kind idx : Nat) (get : Dep → Nat) (put : Dep → Nat → Dep) (out back : Bool) : State :=
  let old := (get s.dep).testBit idx
  let al := alarmNext old out back
  let s1 := s.modDep fun d => put d (if al then get d ||| (1 <<< idx) else get d &&& (0xFFFF ^^^ (1 <<< idx)))
  s1.onlyIf (al != old) fun s => s.sensAlarm kind idx al

/-- Mains voltage in 0.1 V, frequency in 0.01 Hz and DC (R539); 2 % hysteresis. -/
def State.mainsSample (s : State) (v f : Nat) (dc : Bool) : State :=
  let s1 := s.modDep fun d => { d with mainsV := satN 16 v, mainsF := if dc then 0 else satN 15 f, mainsDc := dc }
  let s2 := s1.alarmBit 1 0 (·.mainsAl) (fun d n => { d with mainsAl := n }) (v < 800 || 3200 < v)
    (816 ≤ v && v ≤ 3136)
  s2.alarmBit 1 1 (·.mainsAl) (fun d n => { d with mainsAl := n }) (!dc && (f < 4500 || 6500 < f))
    (dc || (4590 ≤ f && f ≤ 6370))

/-- Nominal rails in mV: 3.3 V, 1.0 V, 5 V internal (R539). -/
def railNom (i : Nat) : Nat := if i = 0 then 3300 else if i = 1 then 1000 else 5000

/-- An auxiliary rail, in mV (R539). -/
def State.railSample (s : State) (i : Fin 3) (mv : Nat) : State :=
  let n := railNom i.val
  let out := mv * 100 < 95 * n || 105 * n < mv * 100
  let s1 := s.modDep fun d =>
    { d with aux := if out then d.aux &&& (7 ^^^ (1 <<< i.val)) else d.aux ||| (1 <<< i.val) }
  s1.alarmBit 2 i.val (·.auxAl) (fun d m => { d with auxAl := m }) out
    (95 * 102 * n ≤ mv * 10000 && mv * 10000 ≤ 105 * 98 * n)

/-- One condition of the isolation monitor: set below `lim`, cleared after three in a row above twice it (R540). -/
def isoNext (on : Bool) (n r lim : Nat) : Bool × Nat :=
  if r < lim then (true, 0)
  else if on && 2 * lim < r then (if 3 ≤ n + 1 then (false, 0) else (true, n + 1))
  else (on, 0)

/-- A measurement of the isolation resistance, in kOhm (R540). -/
def State.isoMeasure (s : State) (r : Nat) : State :=
  if s.depUp then
    let d := s.dep
    let w := isoNext d.isoWarn d.isoWarnN r 50000
    let a := isoNext d.isoAlarm d.isoAlarmN r 5000
    let s1 := s.modDep fun d =>
      { d with isoR := satN 24 r, isoWarn := w.1, isoWarnN := w.2, isoAlarm := a.1, isoAlarmN := a.2 }
    let arg := pack [(0, 2, if a.1 then 2 else b2n w.1)]
    s1.onlyIf (w.1 != d.isoWarn || a.1 != d.isoAlarm) fun s => (s.emit 3 0x07 arg).logOwn 0x07 arg
  else s

/-! ## The event log (R546 to R552) -/

/-- The default log filter (R548): FAULT, LATCHED, GROUP_FAULT, CLAMP_OVL, BREAK, BUS_OFF, ID_COLLIDE, CORE_HALT,
LIMP_ENTER, ORPHAN_OFF, NIGHT_SHIFT and LOST of their sources. -/
def logDefault (src code : Nat) : Bool :=
  code = 0xFF ||
  (if src = 0 then code = 0x84
   else if src = 1 then code = 0x50
   else if src < 5 then false
   else if src < 9 then code = 0x04 || code = 0x07
   else if src < 17 then code = 0x03
   else if src < 20 then code = 0x06 || code = 0x07 || code = 0x0A || code = 0x0B
   else if src < 24 then code = 0x09 || code = 0x0A || code = 0x0B || code = 0x0C || code = 0x0D
   else code = 0x03 || code = 0x07 || code = 0x0A || code = 0x0C || code = 0x11)

/-- An added filter entry matches as R380 matches: SRC or ANY (bit 7), CODE under MASK. -/
def logMatch (f : Nat × Nat × Nat) (src code : Nat) : Bool :=
  (f.1 / 128 % 2 = 1 || f.1 % 128 = src) && ((code ^^^ f.2.1) &&& f.2.2) % 256 = 0

/-- The TEMP point of a source's area, where R539 gives one. -/
def areaPoint (src : Nat) : Option (Fin 16) :=
  if 24 ≤ src then some (Fin.ofNat 16 (1 + bankOf (src - 24)))
  else if src = 1 then some 8 else if src = 2 then some 9 else if src = 3 then some 7 else none

/-- DATA of an event entry: T_bp and the TEMP point of the source area in 1/16 of a degree; the point is free where the
spec names none (log entry 5). -/
def State.logData (s : State) (src : Nat) : W32 × State :=
  match areaPoint src with
  | some i => (pack [(0, 16, scode 16 s.dep.temp[0]), (16, 16, scode 16 s.dep.temp[i])], s)
  | none =>
    let d := s.draw 16
    (pack [(0, 16, scode 16 s.dep.temp[0]), (16, 16, d.1)], d.2)

/-- The Deputy receives an event record: the log filter, and the halt of a core (R542, R546, R560). -/
def State.depRecord (s : State) (e : EvRec) : State :=
  let want := logDefault e.src e.code || s.dep.logFlt.any fun f => logMatch f e.src e.code
  let s1 := if want then
      let d := s.logData e.src
      d.2.logAdd { time := e.time, boot := 0, seq := 0, src := e.src, code := e.code, kind := 0, core := 0,
                   arg := e.arg, d0 := d.1, d1 := 0, crc := 0 }
    else s
  if e.src = 1 && e.code = 0x50 && !s.sup.coreReset then
    if bit s.dep.wdCfg 28 && s.wdRuns then s1.wdReset 2
    else if s.nv.trial then (s1.rollback 2).cpReset 4 (some s.now)
    else s1
  else s1

/-- Take the Deputy's copy of the oldest hub record of island `i`. -/
def takeDep (i : Nat) : List HubRec → Option (EvRec × List HubRec)
  | [] => none
  | r :: rest =>
    if r.ev.src = i && r.dep then
      some (r.ev, if r.cores.isEmpty then rest else { r with dep := false } :: rest)
    else (takeDep i rest).map fun p => (p.1, r :: p.2)

/-- The oldest record of island `i` reaches the Deputy (R24, R546). -/
def State.depEvent (s : State) (i : Nat) : State :=
  let s1 := if (takeDep i s.fab.hub).isSome then s else s.pull i
  match takeDep i s1.fab.hub with
  | none => s1
  | some (e, hub) => if s1.depUp then ({ s1 with fab := { s1.fab with hub := hub } } : State).depRecord e else s1

/-- Append to flash; the block that a new block's first entry will fill was erased of the oldest entries (R550). -/
def DepNv.logPut (v : DepNv) (e : LogRec) : DepNv :=
  let fresh := v.logWrites % 2048 = 0
  let keep_ := if fresh && 503 * 2048 < v.log.length then v.log.drop 2048 else v.log
  { v with log := keep_ ++ [e], logWrites := v.logWrites + 1, erases := if fresh then v.erases + 1 else v.erases }

/-- The oldest buffered entry is written to flash; after losses a LOG_LOST record goes first (R549). -/
def State.logFlash (s : State) : State :=
  if s.depUp then
    if 0 < s.dep.lostSince then
      let n := satN 16 s.dep.lostSince
      let e := LogRec.seal { time := s.count, boot := s.nv.boots % 65536, seq := s.nv.logSeq % 2 ^ 32, src := 3, code := 8,
                             kind := 1, core := 0, arg := pack [(0, 16, n)], d0 := 0, d1 := 0, crc := 0 }
      ((s.modDep fun d => { d with lostSince := 0 }).modNv fun v =>
        { (v.logPut e) with logSeq := v.logSeq + 1 }).emit 3 0x08 (pack [(0, 16, n)])
    else
      match s.dep.logBuf with
      | [] => s
      | e :: r => (s.modDep fun d => { d with logBuf := r }).modNv fun v => v.logPut e
  else s

/-! ## Lifetime accounting (R553 to R556) -/

/-- The running counts of a high-side channel that R553 adds up: operations, on-time and thermal cycles (R93), clamp
energy and clamp counts (R109). -/
def Hs.life (h : Hs) (now : Nat) : LifeCounts :=
  { LifeCounts.zero with
    ops := h.ops, onTime := h.onSeconds now, cyc := h.thermCyc, clamp := h.clEtot, high := h.clHigh, ovl := h.clOvl }

/-- The running counts of a valve channel: operations, on-time and arrivals (R232), thermal cycles of its group. -/
def Vd.life (v : Vd) (g : Vg) (now : Nat) : LifeCounts :=
  { LifeCounts.zero with
    ops := v.ops, onTime := v.onSeconds now, cyc := g.thermCyc, arr := v.arrCnt, miss := v.missCnt }

/-- The running counts of a lamp string: operations and on-time (R266). -/
def Ls.life (l : Ls) (now : Nat) : LifeCounts := { LifeCounts.zero with ops := l.ops, onTime := l.onSeconds now }

/-- The live counters of target `t` (R93, R109, R232, R266); `none` while its island is off. -/
def State.liveCounts (s : State) (t : Nat) : Option LifeCounts :=
  if t < 48 then
    if s.isUp (24 + t) then some ((vget s.hs t Hs.init).life s.now) else none
  else if t < 64 then
    if s.isUp (20 + (t - 48) / 4) then
      some ((vget s.vd (t - 48) Vd.init).life (vget s.vg ((t - 48) / 4) Vg.init) s.now)
    else none
  else if s.isUp (17 + (t - 64)) then some ((vget s.ls (t - 64) (Ls.init 0)).life s.now) else none

/-- Totals `x` with what the counters have gained since they read `y`. -/
def LifeCounts.plus (x c y : LifeCounts) : LifeCounts :=
  { ops := x.ops + (c.ops - y.ops), onTime := x.onTime + (c.onTime - y.onTime), cyc := x.cyc + (c.cyc - y.cyc),
    clamp := x.clamp + (c.clamp - y.clamp), high := x.high + (c.high - y.high), ovl := x.ovl + (c.ovl - y.ovl),
    arr := x.arr + (c.arr - y.arr), miss := x.miss + (c.miss - y.miss) }

/-- Add what the counters have gained to the totals. -/
def LifeTot.add (x : LifeTot) (c : LifeCounts) : LifeTot := { x with sum := x.sum.plus c x.last, last := c }

/-- The snapshot of R553. -/
def State.lifeSnapshot (s : State) : State :=
  if s.depUp then
    let s1 := s.modNv fun v =>
      { v with
        tot := Vector.ofFn fun t : Fin 67 =>
          match s.liveCounts t.val with | some c => v.tot[t].add c | none => v.tot[t],
        trends := Vector.ofFn fun n : Fin 48 =>
          if s.isUp (24 + n.val) then
            let e := s.hs[n].est
            (e.tI.long / 256, e.tR.long / 256, e.tF.long / 256)
          else v.trends[n] }
    s1.modDep fun d => { d with snapAt := s.now }
  else s

/-- 2 to the power `q`: exact for whole numbers, otherwise the hardware's value. -/
def pow2 (q : Rat) : Rat :=
  if q.den = 1 then (if 0 ≤ q.num then (2 ^ q.num.toNat : Nat) else 1 / (2 ^ (-q.num).toNat : Nat)) else Config.pow2 q

/-- Equivalent hours of a 10 s sample at `tj`, 1/16 of a degree (R555). -/
def eqStep (tj : Int) : Rat := 10 / 3600 * pow2 (((tj : Rat) / 16 - 85) / 10)

/-- Tj of target `t`, while its island is powered. -/
def State.lifeTjOf (s : State) (t : Nat) : Option Int :=
  if t < 48 then (if s.isUp (24 + t) then some (vget s.hs t Hs.init).tj else none)
  else if t < 64 then (if s.isUp (20 + (t - 48) / 4) then some (vget s.vg ((t - 48) / 4) Vg.init).tj else none)
  else if s.isUp (17 + (t - 64)) then some (vget s.ls (t - 64) (Ls.init 0)).tj else none

/-- The 10 s sample (R555). -/
def State.lifeTj (s : State) : State :=
  if s.depUp then
    s.modNv fun v =>
      { v with
        tot := Vector.ofFn fun t : Fin 67 =>
          let x := v.tot[t]
          match s.lifeTjOf t.val with | some tj => { x with eqHours := x.eqHours + eqStep tj } | none => x,
        modEq := v.modEq + eqStep s.dep.temp[5], ageUs := v.ageUs + 10000000 }
  else s

/-- Ratings of R555: n_ops, n_cyc and e_tot in nJ; 0 where the table has none. -/
def lifeRatings (t : Nat) : Nat × Nat × Nat :=
  if t < 32 then (2000000000, 2000000, 71000000000000000)
  else if t < 44 then (2000000000, 1000000, 200000000000000)
  else if t < 48 then (2000000000, 500000, 150000000000000)
  else if t < 64 then (500000000, 1000000, 0)
  else (10000000, 0, 0)

def shareOf (x : Rat) (n : Nat) : Rat := if n = 0 then 0 else x / n

/-- A share in per mille. -/
def permille (x : Rat) : Nat := satN 16 (1000 * x).floor.toNat

/-- L of a largest share. -/
def lifeL (x : Rat) : Nat := (1000 * (1 - x)).floor.toNat

/-- Projected years (R555). -/
def lifeYears (ageUs l : Nat) : Nat :=
  if 999 ≤ l then 99 else min 99 (ageUs * l / ((1000 - l) * 31557600000000))

/-- The recomputation for one target. -/
def LifeTot.compute (x : LifeTot) (t ageUs : Nat) : LifeTot :=
  let r := lifeRatings t
  let dt : Rat := x.eqHours / 262800
  let dops := shareOf x.sum.ops r.1
  let dc := shareOf x.sum.cyc r.2.1
  let dcl := shareOf x.sum.clamp r.2.2
  let l := min 1000 (lifeL (max dt (max dops (dc + dcl))))
  { x with
    l := l, years := lifeYears ageUs l, dTime := permille dt, dOps := permille dops, dCyc := permille dc,
    dClamp := permille dcl }

/-- Warnings due at L (R556). -/
def lifeLevel (l : Nat) : Nat := if l < 100 then 2 else if l < 200 then 1 else 0

/-- LIFE_WARN for target number `t` (0x7FF the module). -/
def State.lifeWarn (s : State) (t l : Nat) : State :=
  let arg := pack [(0, 11, t), (16, 10, l)]
  (s.emit 3 0x09 arg).logOwn 0x09 arg

/-- The recomputation of R556 for every target and the module. -/
def State.lifeRecompute (s : State) : State :=
  if s.depUp then
    let s1 := forFin 67 (fun t s =>
      let x := s.nv.tot[t].compute t.val s.nv.ageUs
      let warn := decide (x.warned < lifeLevel x.l)
      let s1 := s.modNv fun v =>
        { v with tot := upd v.tot t fun _ => { x with warned := max x.warned (lifeLevel x.l) } }
      s1.onlyIf warn fun s => s.lifeWarn t.val x.l) s
    let v := s1.nv
    let l := min 1000 (min (lifeL (v.modEq / 262800))
      (min (lifeL (((v.erases + 503) / 504 : Nat) / 10000)) (lifeL ((v.p0Cyc : Nat) / 20000))))
    let s2 := s1.modNv fun v =>
      { v with modL := l, modYears := lifeYears v.ageUs l, modWarned := max v.modWarned (lifeLevel l) }
    s2.onlyIf (v.modWarned < lifeLevel l) fun s => s.lifeWarn 0x7FF l
  else s

end Sys2Proof.Machine
end

