-- ==== Sys2Proof/Machine/Mailbox.lean ====
section
/-! DEFINITION. The mailbox MBX and its operations, firmware update and debug lock (spec/17_management.md R557 to R570).
-/

namespace Sys2Proof.Machine

/-! ## Slots (R565, R566) -/

def State.slotWrite (s : State) (i : Fin 64) (f : Vector W32 8 → Vector W32 8) : State :=
  s.modDep fun d => { d with slots := upd d.slots i f }

def State.mbxRes (s : State) (r : Nat) : State := s.modDep fun d => { d with cmdRes := r }

/-- A store to word `w` of a slot: response slots are read-only, and a posted request is closed (R565, R569). -/
def State.mbxSlotStore (s : State) (i : Fin 64) (w : Nat) (v : W32) : State :=
  if 32 ≤ i.val then s
  else if bit s.dep.reqBusy i.val then s.mbxRes 2
  else
    let s1 := (s.mbxRes 0).slotWrite i fun x =>
      if w = 0 then x.set 0 (keep 0x7FFFF v ||| keep 0xFFF80000 x[0]) else vupd x w fun _ => v
    s1.fabCount 0x0F 0 1

/-- POST by core `c` (R565). -/
def State.mbxPost (s : State) (c : Fin 4) (slot : Fin 32) : State :=
  if bit s.dep.reqBusy slot.val then s.mbxRes 2
  else
    let i : Fin 64 := ⟨slot.val, by omega⟩
    let s1 := (s.mbxRes 0).slotWrite i fun x => x.set 0 (keep 0xFFCFFFFF x[0] ||| pack [(20, 2, c.val)])
    s1.modDep fun d =>
      { d with
        reqBusy := d.reqBusy ||| BitVec.ofNat 32 (1 <<< slot.val), postTime := upd d.postTime slot fun _ => s.count,
        posted := d.posted ++ [slot] }

/-- Waiting responses enter free response slots, the lowest first (log entry 26); each is announced and may wake
(R566, R588). -/
def State.rspFill : Nat → State → State
  | 0, s => s
  | n + 1, s =>
    match s.dep.rspWait with
    | [] => s
    | ws :: rest =>
      match (List.range 32).find? fun j => !bit s.dep.rspPend j with
      | none => s
      | some j =>
        let i : Fin 64 := Fin.ofNat 64 (32 + j)
        let s1 := (s.slotWrite i fun _ => Vector.ofFn fun k : Fin 8 => ws.getD k.val 0).modDep fun d =>
          { d with rspWait := rest, rspPend := d.rspPend ||| BitVec.ofNat 32 (1 <<< j) }
        State.rspFill n ((s1.emit 3 0x01 (pack [(0, 6, 32 + j), (8, 8, fld (ws.getD 0 0) 8 8)])).wakeReq 14)

/-- RSP_ACK (R566). -/
def State.rspAck (s : State) (slot : Nat) : State :=
  if 32 ≤ slot && slot < 64 then
    (s.modDep fun d => { d with rspPend := d.rspPend &&& ~~~(BitVec.ofNat 32 (1 <<< (slot - 32))) }).rspFill 32
  else s

/-- Answer a request: its OP and TAG, a status and result words (R566). -/
def State.mbxAnswer (s : State) (hdr : W32) (status : Nat) (ws : List W32) : State :=
  let h := pack [(0, 8, fld hdr 0 8), (8, 8, fld hdr 8 8), (16, 3, ws.length), (24, 4, status)]
  (s.modDep fun d => { d with rspWait := d.rspWait ++ [h :: ws] }).rspFill 32

/-- Answer with a status that the spec leaves open (log entry 5). -/
def State.mbxAnswerFree (s : State) (hdr : W32) : State :=
  let d := s.draw 4
  d.2.mbxAnswer hdr d.1 []

/-! ## Taking requests (R567) -/

/-- The operations of R568. -/
def mbxOps : List Nat := [1, 2, 3, 4, 5, 6, 7, 8, 9, 0x10, 0x11, 0x12, 0x13, 0x14, 0x15, 0x20, 0x21]

/-- Take the oldest request out of its slot. -/
def State.mbxPop (s : State) (i : Fin 32) (rest : List (Fin 32)) : State :=
  s.modDep fun d => { d with posted := rest, reqBusy := d.reqBusy &&& ~~~(BitVec.ofNat 32 (1 <<< i.val)) }

/-- Requests with an unknown OP at the front are answered BAD_OP. -/
def State.mbxSkipBad : Nat → State → State
  | 0, s => s
  | n + 1, s =>
    match s.dep.posted with
    | [] => s
    | i :: rest =>
      let hdr := s.dep.slots[i.val][0]
      if s.dep.updOp.isNone && !mbxOps.contains (fld hdr 0 8) then
        State.mbxSkipBad n ((s.mbxPop i rest).mbxAnswer hdr 1 [])
      else s

/-- The Deputy takes the oldest posted request if its OP is `op`, and `f` carries it out: it gets the header, the seven
argument words and the posting time. While an update operation runs only LOG_READ and TREND_READ are taken. -/
def State.mbxTake (s : State) (op : Nat) (f : W32 → List W32 → Nat → State → State) : State :=
  if s.depUp && !s.isStopped 11 then
    let s1 := s.mbxSkipBad 32
    match s1.dep.posted with
    | [] => s1
    | i :: rest =>
      let w := s1.dep.slots[i.val]
      if fld w[0] 0 8 = op && (s1.dep.updOp.isNone || op = 5 || op = 8) then
        f w[0] (w.toList.drop 1) s1.dep.postTime[i] (s1.mbxPop i rest)
      else s1
  else s

def argN (a : List W32) (i : Nat) : Nat := (a.getD (i - 1) 0).toNat

/-! ## Operations (R568) -/

/-- CHECK_IN (R560, R561). -/
def State.opCheckIn (s : State) : State :=
  s.mbxTake 1 fun hdr _ t s =>
    match s.nv.trial, s.dep.trialAt with
    | true, some at_ =>
      if t < (at_ + 60000000) % 2 ^ 48 then
        let svn := hdrSvn s.mem (bankBase s.nv.activeB)
        ((s.modNv fun v => { v with trial := false, cnt := max v.cnt svn }).modDep fun d =>
          { d with trialAt := none }).mbxAnswer hdr 0 []
      else s.mbxAnswer hdr 8 []
    | _, _ => s.mbxAnswerFree hdr

def State.opLimpSet (s : State) : State := s.mbxTake 2 fun hdr _ _ s => (s.depLimp true).mbxAnswer hdr 0 []

def State.opLimpRelease (s : State) : State := s.mbxTake 3 fun hdr _ _ s => (s.depLimp false).mbxAnswer hdr 0 []

/-- LOG_WRITE (R546, R547): a firmware record, its source the CORE island. -/
def State.opLogWrite (s : State) : State :=
  s.mbxTake 4 fun hdr a _ s =>
    (s.logAdd { time := s.count, boot := 0, seq := 0, src := 1, code := argN a 1 % 256, kind := 2,
                core := fld hdr 20 2, arg := a.getD 1 0, d0 := a.getD 2 0, d1 := a.getD 3 0, crc := 0 }).mbxAnswer hdr 0 []

/-- Bytes 0 to 27 of an entry as words (R552). -/
def LogRec.words (r : LogRec) : List W32 :=
  [BitVec.ofNat 32 r.time, pack [(0, 16, r.time / 2 ^ 32), (16, 16, r.boot)], BitVec.ofNat 32 r.seq,
    pack [(0, 8, r.src), (8, 8, r.code), (16, 8, r.kind), (24, 8, r.core)], r.arg, r.d0, r.d1]

/-- One answer of LOG_READ: the entry, FLASH if its CRC fails, a free status for a number not kept (R552). -/
def State.logAnswer (s : State) (hdr : W32) (seq : Nat) : State :=
  match (s.nv.log ++ s.dep.logBuf).find? fun r => r.seq = seq with
  | some r => if r.seal.crc = r.crc then s.mbxAnswer hdr 0 r.words else s.mbxAnswer hdr 7 []
  | none => s.mbxAnswerFree hdr

/-- LOG_READ (R552). -/
def State.opLogRead (s : State) : State :=
  s.mbxTake 5 fun hdr a _ s =>
    let n := argN a 2
    if n = 0 || 32 < n then s.mbxAnswer hdr 2 []
    else (List.range n).foldl (fun s i => s.logAnswer hdr ((argN a 1 + i) % 2 ^ 32)) s

/-- LOG_FILTER (R548): bit 0 of word 1 adds, else removes; words 2 to 4 are SRC, CODE and MASK (log entry 26). -/
def State.opLogFilter (s : State) : State :=
  s.mbxTake 6 fun hdr a _ s =>
    let f := (argN a 2 % 256, argN a 3 % 256, argN a 4 % 256)
    if argN a 1 % 2 = 1 then
      if s.dep.logFlt.length < 16 then
        (s.modDep fun d => { d with logFlt := d.logFlt ++ [f] }).mbxAnswer hdr 0 []
      else s.mbxAnswerFree hdr
    else (s.modDep fun d => { d with logFlt := d.logFlt.erase f }).mbxAnswer hdr 0 []

/-- LIFE_READ (R568): L, years and the four shares; for the module (0x7FF) the shares are free. -/
def State.opLifeRead (s : State) : State :=
  s.mbxTake 7 fun hdr a _ s =>
    let t := argN a 1
    let w (n : Nat) : W32 := BitVec.ofNat 32 n
    if h : t < 67 then
      let x := s.nv.tot[t]
      s.mbxAnswer hdr 0 [w x.l, w x.years, w x.dTime, w x.dOps, w x.dCyc, w x.dClamp]
    else if t = 0x7FF then
      let d1 := s.draw 32
      let d2 := d1.2.draw 32
      let d3 := d2.2.draw 32
      let d4 := d3.2.draw 32
      d4.2.mbxAnswer hdr 0 [w s.nv.modL, w s.nv.modYears, w d1.1, w d2.1, w d3.1, w d4.1]
    else s.mbxAnswer hdr 2 []

/-- TREND_READ (R553). -/
def State.opTrendRead (s : State) : State :=
  s.mbxTake 8 fun hdr a _ s =>
    if h : argN a 1 < 48 then
      let x := s.nv.trends[argN a 1]
      s.mbxAnswer hdr 0 [BitVec.ofNat 32 x.1, BitVec.ofNat 32 x.2.1, BitVec.ofNat 32 x.2.2]
    else s.mbxAnswer hdr 2 []

/-- TEMP_LIMIT (R539, R568). -/
def State.opTempLimit (s : State) : State :=
  s.mbxTake 9 fun hdr a _ s =>
    let lim := sext 32 (argN a 2)
    if h : argN a 1 < 16 then
      if -40 ≤ lim && lim ≤ 150 then
        (s.modNv fun v => { v with tempLim := v.tempLim.set (argN a 1) lim }).mbxAnswer hdr 0 []
      else s.mbxAnswer hdr 2 []
    else s.mbxAnswer hdr 2 []

/-! ## Firmware update (R559 to R562) -/

/-- An update operation begins; UPD_DONE ends it. -/
def State.updStart (s : State) (op : Nat) (hdr : W32) (a : List W32) : State :=
  s.modDep fun d => { d with updOp := some { op := op, hdr := hdr, args := a } }

/-- UPD_BEGIN (R559, R562). -/
def State.opUpdBegin (s : State) : State :=
  s.mbxTake 0x10 fun hdr a _ s =>
    if s.dep.updStep ≠ 0 || s.nv.trial then s.mbxAnswer hdr 4 []
    else if argN a 1 = 0 || argN a 1 % 4 ≠ 0 || 0x400000 < argN a 1 then s.mbxAnswer hdr 2 []
    else s.updStart 0x10 hdr a

/-- UPD_WRITE (R559): bulk-memory address, byte count, offset. -/
def State.opUpdWrite (s : State) : State :=
  s.mbxTake 0x11 fun hdr a _ s =>
    let adr := argN a 1
    let n := argN a 2
    let off := argN a 3
    if s.dep.updStep ≠ 1 && s.dep.updStep ≠ 2 then s.mbxAnswer hdr 4 []
    else if adr % 4 ≠ 0 || n % 4 ≠ 0 || off % 4 ≠ 0 || 65536 < n || adr < bulkBase || bulkEnd < adr + n ||
        s.dep.updTotal < off + n then s.mbxAnswer hdr 2 []
    else s.updStart 0x11 hdr a

def State.opUpdVerify (s : State) : State :=
  s.mbxTake 0x12 fun hdr a _ s => if s.dep.updStep ≠ 2 then s.mbxAnswer hdr 4 [] else s.updStart 0x12 hdr a

def State.opUpdActivate (s : State) : State :=
  s.mbxTake 0x13 fun hdr a _ s => if s.dep.updStep ≠ 3 then s.mbxAnswer hdr 4 [] else s.updStart 0x13 hdr a

/-- UPD_ABORT returns the sequence to idle; a recorded activation is taken back with it (log entry 26). -/
def State.opUpdAbort (s : State) : State :=
  s.mbxTake 0x14 fun hdr a _ s => s.updStart 0x14 hdr a

/-- What a completed update operation has done, and its status. `fail`: the flash did not take an erase or a write. -/
def State.updEffect (s : State) (o : UpdOp) (fail : Bool) : Nat × State :=
  let inact := !s.nv.activeB
  let base := bankBase inact
  match o.op with
  | 0x10 =>
    if fail then (7, s)
    else
      (0, ({ s with mem := memErase s.mem base (base + 0x400000) } : State).modDep fun d =>
        { d with updStep := 1, updTotal := argN o.args 1 })
  | 0x11 =>
    let r := s.eccRange 4 (argN o.args 1) (argN o.args 2 / 4)
    if fail || !r.1 then (7, r.2)
    else
      let ws := (List.range (argN o.args 2 / 4)).map fun i => memLoad s.mem (argN o.args 1 + 4 * i) 4
      let m := ws.foldl (fun (p : Nat × List Host.Cell) w => (p.1 + 4, memStore p.2 p.1 w 4)) (base + argN o.args 3, r.2.mem)
      (0, ({ r.2 with mem := m.2 } : State).modDep fun d => { d with updStep := 2 })
  | 0x12 =>
    let st := imageCheck s.mem s.nv.keys s.nv.cnt inact
    (st, if st = 0 then s.modDep fun d => { d with updStep := 3 } else s)
  | 0x13 =>
    (0, (s.modNv fun v => { v with next := true }).modDep fun d =>
      { d with updStep := 4, rebootAt := if argN o.args 1 % 2 = 1 then some (s.now + 10000) else none })
  | _ => (0, (s.modNv fun v => { v with next := false }).modDep fun d => { d with updStep := 0, rebootAt := none })

/-- An update operation completes: its effect, the response, and UPD_DONE (R559, R570). -/
def State.updDone (s : State) (fail : Bool) : State :=
  match s.dep.updOp with
  | none => s
  | some o =>
    if s.depUp && (o.op ≠ 0x11 || s.bulkOk) then
      let r := s.updEffect o fail
      let s1 := r.2.modDep fun d => { d with updOp := none }
      (s1.mbxAnswer o.hdr r.1 []).emit 3 0x0A (pack [(0, 4, o.op - 0x10), (4, 4, r.1)])
    else s

/-- KEY_REVOKE (R562). -/
def State.opKeyRevoke (s : State) : State :=
  s.mbxTake 0x15 fun hdr a _ s =>
    if h : argN a 1 < 4 then
      if hdrKey s.mem (bankBase s.nv.activeB) = argN a 1 then s.mbxAnswer hdr 4 []
      else
        (s.modNv fun v =>
          { v with keys := v.keys.set (argN a 1) { v.keys[argN a 1] with revoked := true } }).mbxAnswer hdr 0 []
    else s.mbxAnswer hdr 2 []

/-! ## Debug lock (R563, R564) -/

/-- DBG_STAT.STATE: 0 OPEN, 1 CLOSED, 2 LOCKED. -/
def State.dbgState (s : State) : Nat := if s.nv.dbgFuse then 2 else if s.dep.dbgClosed then 1 else 0

/-- DBG_CLOSE; in any state but OPEN it changes nothing and its status is free. -/
def State.opDbgClose (s : State) : State :=
  s.mbxTake 0x20 fun hdr _ _ s =>
    if s.dbgState = 0 then (s.modDep fun d => { d with dbgClosed := true }).logOwnFree.mbxAnswer hdr 0 []
    else s.mbxAnswerFree hdr

/-- DBG_LOCK. -/
def State.opDbgLock (s : State) : State :=
  s.mbxTake 0x21 fun hdr a _ s =>
    if argN a 1 ≠ 0x4C4F434B then s.mbxAnswer hdr 2 []
    else
      let s1 := s.modNv fun v => { v with dbgFuse := true }
      (s1.onlyIf (s.dbgState != 2) State.logOwnFree).mbxAnswer hdr 0 []

/-! ## Registers (R569) -/

/-- The MBX block read at an offset. -/
def State.mbxRead (s : State) (off : Nat) : W32 :=
  let d := s.dep
  if off < 0x800 then vget d.slots[Fin.ofNat 64 (off / 0x20)] (off % 0x20 / 4) 0
  else if off = 0x804 then d.reqBusy
  else if off = 0x808 then d.rspPend
  else if off = 0x810 then pack [(0, 1, b2n d.mgmtUp), (1, 2, d.cmdRes), (16, 16, d.mrestarts)]
  else if off = 0x820 then d.wdCfg
  else if off = 0x828 then
    pack [(0, 4, d.wdPend), (4, 2, d.wdCause), (8, 8, d.wdResets),
      (16, 16, match d.wdAt with | some t => satN 16 ((s.now - t) / 1000) | none => 0)]
  else if 0x840 ≤ off ∧ off < 0x880 then
    let i : Fin 16 := Fin.ofNat 16 ((off - 0x840) / 4)
    pack [(0, 16, scode 16 d.temp[i]), (16, 16, scode 16 s.nv.tempLim[i])]
  else if off = 0x880 then pack [(0, 16, d.mainsV), (16, 15, d.mainsF), (31, 1, b2n d.mainsDc)]
  else if off = 0x884 then pack [(0, 3, d.aux)]
  else if off = 0x888 then pack [(0, 24, d.isoR), (24, 1, b2n d.isoWarn), (25, 1, b2n d.isoAlarm)]
  else if off = 0x890 then
    pack [(0, 1, b2n s.nv.activeB), (1, 1, b2n s.nv.trial), (2, 3, d.updStep), (5, 3, s.nv.lastRb), (8, 7, s.nv.cnt)]
  else if off = 0x894 then BitVec.ofNat 32 (s.nv.logSeq - 1)
  else if off = 0x898 then BitVec.ofNat 32 d.logLost
  else if off = 0x89C then pack [(0, 10, s.nv.modL), (16, 7, s.nv.modYears)]
  else if off = 0x8A0 then pack [(0, 2, s.dbgState)]
  else if 0x900 ≤ off ∧ off < 0xA00 then
    let t := d.postTime[Fin.ofNat 32 ((off - 0x900) / 8)]
    if off % 8 = 0 then BitVec.ofNat 32 t else BitVec.ofNat 32 (t / 2 ^ 32)
  else 0

/-- A store of core `c` into the MBX block. -/
def State.mbxWrite (s : State) (c : Fin 4) (off : Nat) (v : W32) : State :=
  if s.isStopped 11 then s
  else if off < 0x800 then s.mbxSlotStore (Fin.ofNat 64 (off / 0x20)) (off % 0x20 / 4) v
  else if off = 0x800 then s.mbxPost c (Fin.ofNat 32 (fld v 0 5))
  else if off = 0x80C then s.rspAck (fld v 0 6)
  else if off = 0x820 then s.wdCfgWrite v
  else if off = 0x824 then s.wdKick c (fld v 0 16)
  else s

end Sys2Proof.Machine
end

