-- ==== Sys2Proof/Machine/CanBus.lean ====
section
/-! DEFINITION. The CAN controllers: message objects, filters, receive queues, command gate, errors
(spec/14_can_controllers.md R439 to R473). -/

namespace Sys2Proof.Machine

/-! ## Fields and frames -/

/-- CTL.MODE as written; what the controller does follows the mode in force, `Can.modeNow`. -/
def Can.mode (c : Can) : Nat := fld c.ctl 0 2

/-- The columns of R442: frames are sent and the error counters count in NORMAL alone, acknowledges in NORMAL and
RESTRICTED, error frames in NORMAL. -/
def Can.sendsFrames (c : Can) : Bool := c.modeNow == 1
def Can.sendsAck (c : Can) : Bool := c.modeNow == 1 || c.modeNow == 3
def Can.sendsErrors (c : Can) : Bool := c.modeNow == 1
def Can.counts (c : Can) : Bool := c.modeNow == 1

def Can.fdEn (c : Can) : Bool := bit c.ctl 4
def Can.bo (c : Can) : Bool := c.bus == .busOff

def CanObj.en (o : CanObj) : Bool := bit o.ctl 0
def CanObj.dirTx (o : CanObj) : Bool := bit o.ctl 1
def CanObj.ev (o : CanObj) : Bool := bit o.ctl 2
def CanObj.oneshot (o : CanObj) : Bool := bit o.ctl 3
def CanObj.ovwr (o : CanObj) : Bool := bit o.ctl 4

/-- In PENDING or ACTIVE. -/
def CanObj.busy (o : CanObj) : Bool := o.txs == .pending || o.txs == .active

def txsCode : Txs → Nat
  | .idle => 0 | .pending => 1 | .active => 2 | .done => 3 | .aborted => 4 | .collide => 5 | .failed => 6

def busCode : CanBus → Nat
  | .off => 0 | .integrating => 1 | .idle => 2 | .rx => 3 | .tx => 4 | .busOff => 5

/-- The transmitter of transceiver `c` drives the bus: in NORMAL, with neither a TXD dominant time-out nor supply
under-voltage (R475, R478). -/
def State.trxTx (s : State) (c : Fin 4) : Bool :=
  s.nm[c].trx == .normal && !s.nm[c].txdDom && !s.nm[c].vccUv

/-- The receiver of transceiver `c` serves the controller: in NORMAL and LISTEN (R475). In the other states the
controller sees a recessive bus. -/
def State.trxRx (s : State) (c : Fin 4) : Bool := s.nm[c].trx == .normal || s.nm[c].trx == .listen

/-- Controller `c` runs and accepts commands (R580). -/
def State.canUp (s : State) (c : Fin 4) : Bool := s.isUp (5 + c.val) && !s.isStopped 3

def State.canEv (s : State) (c : Fin 4) (code : Nat) (arg : W32) : State := s.emit (5 + c.val) code arg

def State.modObj (s : State) (c : Fin 4) (m : Fin 128) (f : CanObj → CanObj) : State :=
  s.modCan c fun x => { x with objs := upd x.objs m f }

def State.modCanQ (s : State) (c : Fin 4) (j : Fin 2) (f : CanQ → CanQ) : State :=
  s.modCan c fun x => { x with q := upd x.q j f }

/-- Data bytes of a frame (R445). -/
def dlcLen (dlc : Nat) (fd : Bool) : Nat :=
  if dlc ≤ 8 then dlc
  else if !fd then 8
  else match dlc with
    | 9 => 12 | 10 => 16 | 11 => 20 | 12 => 24 | 13 => 32 | 14 => 48 | _ => 64

/-- Whether a frame is remote, and its data length. -/
def frameRtr (w0 w1 : W32) : Bool := bit w0 30 && !bit w1 4
def frameLen (w0 w1 : W32) : Nat := if frameRtr w0 w1 then 0 else dlcLen (fld w1 0 4) (bit w1 4)

/-- Four data bytes as a word, byte 0 lowest. -/
def word4 (bs : List W8) : W32 :=
  pack [(0, 8, (bs.getD 0 0).toNat), (8, 8, (bs.getD 1 0).toNat), (16, 8, (bs.getD 2 0).toNat),
    (24, 8, (bs.getD 3 0).toNat)]

/-- A received frame as a buffer: data beyond its length reads zero (R444, R445). -/
def rxBuf (w0 w1 : W32) (data : List W8) (flt rseq ts : Nat) : FrameBuf :=
  let d := data.take (frameLen w0 w1)
  Vector.ofFn fun i : Fin 20 =>
    if i.val = 0 then (if bit w0 29 then keep 0x7FFFFFFF w0 else keep 0x7FFC0000 w0)
    else if i.val = 1 then keep 0x7F w1 ||| pack [(8, 8, flt), (16, 8, rseq)]
    else if i.val = 2 then BitVec.ofNat 32 ts
    else if i.val = 3 then BitVec.ofNat 32 (ts % 2 ^ 48 / 2 ^ 32)
    else word4 (d.drop (4 * (i.val - 4)))

/-- The arbitration field of a frame as a number: the smaller wins (ISO 11898-1 as R448 takes it). -/
def arbKey (b : FrameBuf) : Nat :=
  let w0 := b[0]
  let rtr := b2n (bit w0 30 && !bit b[1] 4)
  if bit w0 29 then fld w0 18 11 * 2 ^ 21 + 3 * 2 ^ 19 + fld w0 0 18 * 2 + rtr
  else fld w0 18 11 * 2 ^ 21 + rtr * 2 ^ 20

/-! ## Object commands (R447 to R450, R457, R473) -/

def State.objRes (s : State) (c : Fin 4) (m : Fin 128) (r : Nat) : State := s.modObj c m fun o => { o with cmdRes := r }

/-- REQ (R447). -/
def State.canReq (s : State) (c : Fin 4) (m : Fin 128) : State :=
  let x := s.can[c]
  let o := x.objs[m]
  if !o.en || !o.dirTx || (bit o.buf[1] 4 && !x.fdEn) || (bit o.buf[0] 30 && bit o.buf[1] 4) then s.objRes c m 2
  else if o.busy then s.objRes c m 5
  else
    (s.modObj c m fun o => { o with txs := .pending, berr := 0, age := x.ages, abortReq := false, cmdRes := 0 }).modCan c
      fun x => { x with ages := x.ages + 1 }

/-- An object ends in ABORTED, COLLIDE or FAILED, with TX_ABORTED and its reason. -/
def State.txEnd (s : State) (c : Fin 4) (m : Fin 128) (st : Txs) (why : Nat) : State :=
  (s.modObj c m fun o => { o with txs := st, abortReq := false }).canEv c 0x02 (pack [(0, 7, m.val), (8, 2, why)])

/-- ABORT (R450). -/
def State.canAbort (s : State) (c : Fin 4) (m : Fin 128) : State :=
  match s.can[c].objs[m].txs with
  | .pending => (s.objRes c m 0).txEnd c m .aborted 0
  | .active => s.modObj c m fun o => { o with abortReq := true, cmdRes := 0 }
  | .done => s.objRes c m 1
  | _ => s.objRes c m 2

/-- ABORT_ALL (R450). -/
def State.canAbortAll (s : State) (c : Fin 4) : State :=
  forFin 128 (fun m s => if s.can[c].objs[m].busy then s.canAbort c m else s) s

/-- SNAP (R457); refused on a transmit object, which has no live buffer (log entry 24). -/
def State.canSnap (s : State) (c : Fin 4) (m : Fin 128) : State :=
  if s.can[c].objs[m].dirTx then s.objRes c m 2
  else s.modObj c m fun o => { o with buf := o.live, new := false, cmdRes := 0 }

/-- CLR (R473). -/
def State.canClr (s : State) (c : Fin 4) (m : Fin 128) : State :=
  s.modObj c m fun o => { o with txs := if o.busy then o.txs else .idle, lost := false, cmdRes := 0 }

/-- A write of OBJ_CMD; REQ with ABORT is refused (R447). -/
def State.objCmd (s : State) (c : Fin 4) (m : Fin 128) (v : W32) : State :=
  if bit v 0 && bit v 1 then s.objRes c m 2
  else
    let s1 := s.onlyIf (bit v 0) fun s => s.canReq c m
    let s2 := s1.onlyIf (bit v 1) fun s => s.canAbort c m
    let s3 := s2.onlyIf (bit v 2) fun s => s.canSnap c m
    s3.onlyIf (bit v 3) fun s => s.canClr c m

/-- A write of OBJ_CTL (R446). -/
def State.objCtlWrite (s : State) (c : Fin 4) (m : Fin 128) (v : W32) : State :=
  let o := s.can[c].objs[m]
  let w := keep 0x1F v
  if o.busy then s.objRes c m 4
  else if bit w 1 != o.dirTx || (o.en && !bit w 0) then
    s.modObj c m fun o =>
      { o with ctl := w, buf := FrameBuf.zero, live := FrameBuf.zero, new := false, lost := false, berr := 0 }
  else s.modObj c m fun o => { o with ctl := w }

/-- Writable bits of word `i` of a transmit buffer (R444). -/
def bufMask (i : Nat) : Nat :=
  match i with | 0 => 0x7FFFFFFF | 1 => 0x7F | 3 => 0xFFFF | _ => 0xFFFFFFFF

/-- A write into OBJ_BUF (R446). -/
def State.objBufWrite (s : State) (c : Fin 4) (m : Fin 128) (i : Nat) (v : W32) : State :=
  let o := s.can[c].objs[m]
  if o.busy then s.objRes c m 4
  else if o.dirTx then s.modObj c m fun o => { o with buf := vupd o.buf i fun _ => keep (bufMask i) v }
  else s

/-! ## Modes, errors, bus state (R442, R443, R462, R463) -/

/-- STAT.EW and EP follow the counters, and each rise is an event (R462). -/
def State.canLevels (s : State) (c : Fin 4) : State :=
  let x := s.can[c]
  let ew := decide (96 ≤ x.tec) || decide (96 ≤ x.rxc)
  let ep := decide (128 ≤ x.tec) || decide (128 ≤ x.rxc)
  let arg := pack [(0, 9, x.tec), (16, 9, x.rxc)]
  let s1 := s.modCan c fun x => { x with ew := ew, ep := ep }
  let s2 := s1.onlyIf (ew && !x.ew) fun s => s.canEv c 0x05 arg
  s2.onlyIf (ep && !x.ep) fun s => s.canEv c 0x06 arg

/-- The controller is OFF: its error counters are held at zero (R442). -/
def Can.turnOff (x : Can) : Can :=
  { x with
    modeNow := 0, bus := .off, offPend := false, tec := 0, rxc := 0, ew := false, ep := false, recov := 0, act := none }

/-- The frame in progress has ended: a MODE 0 that waited for it takes effect (R443). -/
def State.frameDone (s : State) (c : Fin 4) (next : CanBus) : State :=
  s.modCan c fun x => if x.offPend then x.turnOff else { x with bus := next, act := none }

/-- MODE becomes `m` (R443): at once, but a MODE 0 during a frame waits for the frame's end. -/
def State.canSetMode (s : State) (c : Fin 4) (m : Nat) : State :=
  let x := s.can[c]
  let s1 := s.modCan c fun x => { x with ctl := keep 0xFC x.ctl ||| BitVec.ofNat 32 m }
  if m = 0 then
    if x.bus == .rx || x.bus == .tx then s1.modCan c fun x => { x with offPend := true }
    else s1.modCan c Can.turnOff
  else if x.bus == .off then s1.modCan c fun x => { x with modeNow := m, bus := .integrating }
  else s1.modCan c fun x => { x with modeNow := m, offPend := false }

/-- A write of CTL (R441, R443, R492): outside MODE 0 one that changes FD_EN, TXORD or PXHD, and while NM is enabled one
that changes MODE, stores nothing (R662). -/
def State.canCtlWrite (s : State) (c : Fin 4) (v : W32) : State :=
  let x := s.can[c]
  let w := keep 0xF3 v
  let fixed := x.mode != 0 && (w ^^^ x.ctl) &&& 0xB0 != 0
  let owned := bit s.nm[c].ctl 0 && fld w 0 2 != x.mode
  if fixed || owned then s.modCan c fun x => { x with cmdRes := 3 }
  else
    let s1 := s.modCan c fun x => { x with ctl := (w &&& 0xF0) ||| BitVec.ofNat 32 x.mode, cmdRes := 0 }
    if fld w 0 2 = x.mode then s1 else s1.canSetMode c (fld w 0 2)

/-- Bit times in clock periods (R440). -/
def nbtClk (v : W32) : Nat := (fld v 0 5 + 1) * (1 + (fld v 8 8 + 1) + (fld v 16 7 + 1))
def dbtClk (v : W32) : Nat := (fld v 0 5 + 1) * (1 + (fld v 8 5 + 1) + (fld v 16 4 + 1))

/-- A write of NBT (0), DBT (1) or TDC (2) (R440, R441). -/
def State.canTiming (s : State) (c : Fin 4) (which : Fin 3) (v : W32) : State :=
  let x := s.can[c]
  let y : Can := match which with
    | 0 => { x with nbt := keep 0x7F7FFF1F v }
    | 1 => { x with dbt := keep 0x0F0F1F1F v }
    | 2 => { x with tdc := keep 0x7F01 v }
  let bad := nbtClk y.nbt < 80 || dbtClk y.dbt < 16 || nbtClk y.nbt < dbtClk y.dbt
  if x.mode != 0 || (which != 2 && bad) then s.modCan c fun x => { x with cmdRes := 3 }
  else s.modCan c fun _ => { y with cmdRes := 0 }

/-- Integration is complete (R443). -/
def State.canIntegrated (s : State) (c : Fin 4) : State :=
  if s.canUp c && s.can[c].bus == .integrating then s.modCan c fun x => { x with bus := .idle } else s

/-! ## Transmission (R448, R449, R452, R453) -/

/-- The better of two candidates for arbitration. -/
def Can.better (x : Can) (a b : Fin 128) : Bool :=
  if bit x.ctl 5 then decide (x.objs[a].age < x.objs[b].age)
  else
    let p := arbKey x.objs[a].buf
    let q := arbKey x.objs[b].buf
    p < q || (p == q && decide (a.val < b.val))

/-- The PENDING object that R448 picks. -/
def Can.pick (x : Can) : Option (Fin 128) :=
  (List.finRange 128).foldl (fun best m =>
    if x.objs[m].txs == .pending then
      match best with
      | none => some m
      | some b => if x.better m b then some m else best
    else best) none

/-- A start of arbitration on the bus; `other` tells that another node begins a frame (R448), which the controller sees
only through a receiver that is on (R475). -/
def State.canArbitrate (s : State) (c : Fin 4) (other : Bool) : State :=
  let x := s.can[c]
  if s.canUp c && x.bus == .idle then
    match (if x.sendsFrames then x.pick else none) with
    | some m =>
      (s.modObj c m fun o => { o with txs := .active }).modCan c fun x =>
        { x with bus := .tx, act := some m, sofAt := s.now, lastTx := true, answered := .none }
    | none =>
      if other && s.trxRx c then
        s.modCan c fun x => { x with bus := .rx, sofAt := s.now, lastTx := false, answered := .none }
      else s
  else s

/-- The loop delay measured in an FD frame with BRS that object `m` sends, with TDC.EN at 1 (R443). -/
def Can.measured (x : Can) (m : Fin 128) (delay : Nat) : Nat :=
  let w1 := x.objs[m].buf[1]
  if bit x.tdc 0 && bit w1 4 && bit w1 5 then satN 7 delay else x.delay

/-- The secondary sample point: clock periods from the start of each bit of the data phase, while TDC.EN is 1
(R443). -/
def Can.sampleAt (x : Can) : Option Nat := if bit x.tdc 0 then some (x.delay + fld x.tdc 8 7) else none

/-- The stamp of a frame (R452). -/
def State.canStamp (s : State) (c : Fin 4) : Nat :=
  (if bit s.can[c].ctl 6 then s.can[c].sofAt else s.now) % 2 ^ 48

/-- The ACTIVE object's transmission succeeds (R449, R450, R453): never with the transceiver's transmitter off (R475,
R478). `delay` is the loop delay of the frame, in clock periods (R443); TEC moves in NORMAL alone (R442). -/
def State.canTxSuccess (s : State) (c : Fin 4) (delay : Nat) : State :=
  match s.can[c].act with
  | none => s
  | some m =>
    if s.isUp (5 + c.val) && s.trxTx c then
      let ts := s.canStamp c
      let o := s.can[c].objs[m]
      let s1 := s.modObj c m fun o =>
        { o with
          txs := .done, berr := 0, abortReq := false, cmdRes := if o.abortReq then 1 else o.cmdRes,
          buf := (o.buf.set 2 (BitVec.ofNat 32 ts)).set 3 (BitVec.ofNat 32 (ts / 2 ^ 32)) }
      let s2 := s1.onlyIf o.ev fun s => s.canEv c 0x01 (pack [(0, 7, m.val)])
      let s3 := s2.modCan c fun x =>
        { x with tec := if x.counts then x.tec - 1 else x.tec, act := none, delay := x.measured m delay }
      (s3.canLevels c).frameDone c .idle
    else s

/-- An ACTIVE object that loses arbitration or meets an error competes again, or ends (R448 to R450). -/
def State.txBack (s : State) (c : Fin 4) (m : Fin 128) : State :=
  let o := s.can[c].objs[m]
  if o.abortReq then s.txEnd c m .aborted 0
  else if o.oneshot then s.txEnd c m .failed 2
  else s.modObj c m fun o => { o with txs := .pending }

/-- Arbitration is lost: the other node's frame is being received. -/
def State.canArbLost (s : State) (c : Fin 4) : State :=
  match s.can[c].act with
  | none => s
  | some m =>
    if s.isUp (5 + c.val) && s.trxRx c then
      (s.txBack c m).modCan c fun x => { x with act := none, bus := .rx, lastTx := false }
    else s

/-- What a detected error does to the ACTIVE object: bit errors outside the arbitration field count in BERR (R453). -/
def State.txError (s : State) (c : Fin 4) (m : Fin 128) (bitErr arb : Bool) : State :=
  let s1 := s.modObj c m fun o =>
    { o with berr := if bitErr then (if arb then o.berr else o.berr + 1) else 0 }
  if 8 ≤ s1.can[c].objs[m].berr then
    ((s1.modCan c fun x => { x with err := x.err ||| 0x1000 }).canEv c 0x04 (pack [(0, 7, m.val)])).txEnd c m .collide 1
  else s1.txBack c m

/-- The error flag that controller `x` sends (R442, R462). -/
def Can.flag (x : Can) : CanAns :=
  if !x.sendsErrors then .none else if 128 ≤ x.tec || 128 ≤ x.rxc then .passiveFlag else .activeFlag

/-- A detected error of type `ty` (1 BIT0 to 7 PXE, R473). `arb`: in the arbitration field. `exempt`: a case in which
ISO 11898-1 leaves the transmit counter; `heavy`: one of its cases that add 8 to the counter of the role the controller
had in the frame, among them those in its own error or overload flag and after it (log entry 24). `delay` is the loop
delay of a frame it sends, whose data phase has begun (R443). -/
def State.canError (s : State) (c : Fin 4) (ty0 : Nat) (data arb exempt heavy : Bool) (delay : Nat) : State :=
  let x := s.can[c]
  let ty := if ty0 = 7 && bit x.ctl 7 then 4 else ty0
  if !s.isUp (5 + c.val) || x.bus == .off || x.bus == .busOff || x.bus == .integrating || ty = 0 || 7 < ty then s
  else
    let tx := x.act.isSome
    let obj := match x.act with | some m => m.val | none => 0
    let s1 := s.modCan c fun x =>
      { x with
        answered := if ty = 7 then .none else x.flag,
        delay := match x.act with | some m => if data then x.measured m delay else x.delay | none => x.delay,
        err := x.err ||| BitVec.ofNat 32 (1 <<< (ty - 1)),
        lastErr := pack [(0, 3, ty), (3, 1, b2n data), (4, 1, b2n tx), (8, 7, obj)] }
    if ty = 7 then
      let s2 := match x.act with
        | some m => s1.txError c m false arb
        | none => s1
      (s2.canEv c 0x0C 0).frameDone c .integrating
    else
      let onTec := tx || (heavy && x.lastTx)
      let s2 := if x.counts then
          s1.modCan c fun x =>
            { x with
              tec := if onTec then satN 9 (if exempt && tx then x.tec else x.tec + 8) else x.tec,
              rxc := if onTec then x.rxc else satN 9 (if heavy then x.rxc + 8 else x.rxc + 1) }
        else s1
      let s3 := match x.act with
        | some m => s2.txError c m (ty = 1 || ty = 2) arb
        | none => s2
      let s4 := (s3.modCan c fun x => { x with act := none }).canLevels c
      if 256 ≤ s4.can[c].tec then
        if s4.can[c].offPend then s4.modCan c Can.turnOff
        else
          let n := satN 16 (x.cntBusOff + 1)
          (s4.modCan c fun x => { x with bus := .busOff, recov := 0, cntBusOff := n }).canEv c 0x07 (pack [(0, 16, n)])
      else s4.frameDone c .idle

/-- `n` further recovery sequences at bus-off; at the 128th the controller is error-active again (R463). -/
def State.canBusOn (s : State) (c : Fin 4) (n : Nat) : State :=
  if s.isUp (5 + c.val) && s.can[c].bus == .busOff then
    if s.can[c].recov + n < 128 then s.modCan c fun x => { x with recov := x.recov + n }
    else
      (s.modCan c fun x =>
        { x with bus := .idle, tec := 0, rxc := 0, ew := false, ep := false, recov := 128 }).canEv c 0x08 0
  else s

/-! ## Reception (R454 to R460) -/

/-- Filter match (R454). -/
def CanFlt.matches (f : CanFlt) (w0 w1 : W32) : Bool :=
  let fd := bit w1 4
  let rtr := frameRtr w0 w1
  bit f.ctl 0 && ((w0 ^^^ f.mch) &&& f.mask &&& 0x1FFFFFFF) == 0 && (bit w0 29 == bit f.mch 29 || !bit f.mask 29) &&
    (if rtr then bit f.ctl 18 else if fd then bit f.ctl 17 else bit f.ctl 16)

def Can.filter (x : Can) (w0 w1 : W32) : Option (Fin 32) := (List.finRange 32).find? fun f => x.flts[f].matches w0 w1

/-- A frame is held in queue `j` and described to QUE, or discarded when 32 are held; answers whether it was stored
(R458, R459). -/
def State.canHold (s : State) (c : Fin 4) (j : Fin 2) (w0 w1 : W32) (data : List W8) (f ts : Nat) : Bool × State :=
  let q := s.can[c].q[j]
  if 32 ≤ q.held.length then
    (false, (s.modCan c fun x =>
      { x with err := x.err ||| BitVec.ofNat 32 (0x100 <<< j.val), cntOvf := satN 16 (x.cntOvf + 1) }).canEv c 0x09
        (pack [(0, 1, j.val)]))
  else
    let b := rxBuf w0 w1 data f q.nextRseq ts
    let desc := pack [(0, 8, q.nextRseq), (8, 4, fld w1 0 4), (12, 1, b2n (bit w0 29)), (13, 1, b2n (bit w1 4)),
      (14, 1, b2n (bit w0 30)), (15, 1, b2n (bit w1 6)), (16, 5, f), (21, 11, fld w0 18 11)]
    let s1 := s.modCanQ c j fun q => { q with held := q.held ++ [b], nextRseq := (q.nextRseq + 1) % 256 }
    (true, (s1.quePush ⟨24 + 2 * c.val + j.val, by omega⟩ [desc] true 0).2)

/-- A frame for a receive object (R455, R456). -/
def State.canStoreObj (s : State) (c : Fin 4) (m : Fin 128) (b : FrameBuf) (f : Nat) : State :=
  let o := s.can[c].objs[m]
  if !o.en || o.dirTx then
    (s.modCan c fun x => { x with err := x.err ||| 0x400 }).canEv c 0x0A (pack [(0, 5, f)])
  else
    let s1 := if o.new then
        (s.modObj c m fun o => { o with lost := true }).modCan c fun x =>
          { x with err := x.err ||| 0x800, cntMsgLost := satN 16 (x.cntMsgLost + 1) }
      else s
    if o.new && !o.ovwr then s1
    else
      (s1.modObj c m fun o => { o with live := b, new := true }).onlyIf o.ev fun s =>
        s.canEv c 0x03 (pack [(0, 7, m.val), (7, 1, b2n (s.can[c].objs[m].lost))])

/-- The answer to a duplicate (R467); answers whether one was sent. -/
def State.gateAnswer (s : State) (c : Fin 4) (src seq : Nat) : Bool × State :=
  let x := s.can[c]
  let m : Fin 128 := ⟨fld x.cmdgCfg 8 7 % 128, Nat.mod_lt _ (by decide)⟩
  let o := x.objs[m]
  if o.en && o.dirTx && !o.busy then
    let w4 := pack [(0, 8, fld x.cmdgCfg 16 6), (8, 8, seq), (16, 8, src), (24, 8, 1)]
    let s1 := s.modObj c m fun o =>
      { o with buf := (o.buf.set 1 ((o.buf[1] &&& 0x30) ||| 4)).set 4 w4 }
    (true, s1.canReq c m)
  else (false, s.modCan c fun x => { x with ackLost := satN 8 (x.ackLost + 1) })

/-- A frame for a queue, through the command gate where it applies (R465 to R467). -/
def State.canToQueue (s : State) (c : Fin 4) (j : Fin 2) (w0 w1 : W32) (data : List W8) (f : Fin 32) (ts : Nat) : State :=
  let x := s.can[c]
  if bit x.cmdgCfg 0 && bit x.flts[f].ctl 3 then
    let src := (data.getD 0 0).toNat % 64
    let seq := data.getD 1 0
    if frameLen w0 w1 < 3 then s.modCan c fun x => { x with short := satN 8 (x.short + 1) }
    else if vget x.gate src none = some seq then
      let r := s.gateAnswer c src seq.toNat
      (r.2.modCan c fun x => { x with dup := satN 16 (x.dup + 1) }).canEv c 0x0B
        (pack [(0, 6, src), (8, 8, seq.toNat), (16, 1, b2n !r.1)])
    else
      let r := s.canHold c j w0 w1 data f.val ts
      r.2.onlyIf r.1 fun s => s.modCan c fun x => { x with gate := vupd x.gate src fun _ => some seq }
  else (s.canHold c j w0 w1 data f.val ts).2

/-- Routing of a valid frame (R455). -/
def State.canRoute (s : State) (c : Fin 4) (w0 w1 : W32) (data : List W8) (ts : Nat) : State :=
  let x := s.can[c]
  match x.filter w0 w1 with
  | none => s.modCan c fun x => { x with cntNoMatch := satN 16 (x.cntNoMatch + 1) }
  | some f =>
    match fld x.flts[f].ctl 1 2 with
    | 0 => s.canToQueue c 0 w0 w1 data f ts
    | 1 => s.canToQueue c 1 w0 w1 data f ts
    | 2 =>
      s.canStoreObj c ⟨fld x.flts[f].ctl 8 7 % 128, Nat.mod_lt _ (by decide)⟩ (rxBuf w0 w1 data f.val 0 ts) f.val
    | _ => s

/-- The receive error counter after a valid frame (ISO 11898-1): one less, and from above 127 a value of 119 to 127
that stays free (log entry 24). -/
def State.canRecDown (s : State) (c : Fin 4) : State :=
  let x := s.can[c]
  if x.counts then
    if x.rxc ≤ 127 then (s.modCan c fun x => { x with rxc := x.rxc - 1 }).canLevels c
    else
      let d := s.draw 8
      (d.2.modCan c fun x => { x with rxc := 119 + d.1 % 9 }).canLevels c
  else s

/-- A valid frame is received (R442, R455), `us` after its start of frame where no CAN_ARBITRATION has told it. An FD
frame needs FD_EN, and the transceiver's receiver must be on (R475). NORMAL and RESTRICTED acknowledge it (R442). -/
def State.canReceive (s : State) (c : Fin 4) (w0 w1 : W32) (data : List W8) (us : Nat) : State :=
  let x := s.can[c]
  if s.canUp c && s.trxRx c && (x.bus == .rx || x.bus == .idle) && (x.fdEn || !bit w1 4) then
    let ans : CanAns := if x.sendsAck && s.trxTx c then .ack else .none
    let s0 := s.modCan c fun x =>
      { x with sofAt := if x.bus == .rx then x.sofAt else s.now - us, lastTx := false, answered := ans }
    let s1 := s0.canRoute c w0 w1 data (s0.canStamp c)
    (s1.canRecDown c).frameDone c .idle
  else s

/-- Release held frames up to RSEQ `r` (R460). -/
def State.canRel (s : State) (c : Fin 4) (j : Fin 2) (r : Nat) : State :=
  let q := s.can[c].q[j]
  match q.held with
  | [] => s.modCanQ c j fun q => { q with cmdRes := 2 }
  | h :: _ =>
    let d := (r + 256 - fld h[1] 16 8) % 256
    if d < q.held.length then s.modCanQ c j fun q => { q with held := q.held.drop (d + 1), cmdRes := 0 }
    else s.modCanQ c j fun q => { q with cmdRes := 2 }

def State.canFlush (s : State) (c : Fin 4) (j : Fin 2) : State :=
  s.modCanQ c j fun q => { q with held := [], cmdRes := 0 }

def State.canForget (s : State) (c : Fin 4) : State := s.modCan c fun x => { x with gate := Vector.replicate 64 none }

/-- A CAN controller's ground for refusing DEEP (R470). -/
def Can.refuses (x : Can) : Bool :=
  x.objs.toList.any (·.busy) || x.bus == .rx || x.bus == .tx || x.q.toList.any fun q => !q.held.isEmpty

/-! ## Registers (R472, R473) -/

def CanObj.stat (o : CanObj) : W32 :=
  pack [(0, 3, txsCode o.txs), (4, 1, b2n o.new), (5, 1, b2n o.lost), (8, 4, o.berr), (12, 3, o.cmdRes)]

/-- The block of a controller read at an offset. -/
def Can.read (x : Can) (off : Nat) : W32 :=
  if off = 0 then x.ctl
  else if off = 8 then
    pack [(0, 3, busCode x.bus), (3, 1, b2n x.ew), (4, 1, b2n x.ep), (5, 1, b2n x.bo), (12, 3, x.cmdRes),
      (16, 8, x.recov)]
  else if off = 0xC then pack [(0, 9, x.tec), (16, 9, x.rxc)]
  else if off = 0x10 then x.nbt
  else if off = 0x14 then x.dbt
  else if off = 0x18 then x.tdc ||| pack [(24, 7, x.delay)]
  else if off = 0x1C then x.err
  else if off = 0x20 then x.lastErr
  else if off = 0x24 then pack [(0, 16, x.cntBusOff), (16, 16, x.cntNoMatch)]
  else if off = 0x28 then pack [(0, 16, x.cntOvf), (16, 16, x.cntMsgLost)]
  else if 0x30 ≤ off ∧ off < 0x40 then
    BitVec.ofNat 32 (bitsOf 32 fun i => (vget x.objs (32 * ((off - 0x30) / 4) + i) CanObj.init).busy)
  else if 0x40 ≤ off ∧ off < 0x50 then
    BitVec.ofNat 32 (bitsOf 32 fun i => (vget x.objs (32 * ((off - 0x40) / 4) + i) CanObj.init).new)
  else if off = 0x50 then x.cmdgCfg
  else if off = 0x58 then pack [(0, 16, x.dup), (16, 8, x.ackLost), (24, 8, x.short)]
  else if 0x68 ≤ off ∧ off < 0x70 then
    let q := x.q[Fin.ofNat 2 ((off - 0x68) / 4)]
    pack [(0, 6, q.held.length), (8, 8, q.nextRseq), (16, 3, q.cmdRes)]
  else if 0x100 ≤ off ∧ off < 0x300 then
    let f := x.flts[Fin.ofNat 32 ((off - 0x100) / 16)]
    match off % 16 with
    | 0 => f.mch
    | 4 => f.mask
    | 8 => f.ctl
    | _ => 0
  else if 0x400 ≤ off ∧ off < 0x600 then (x.objs[Fin.ofNat 128 ((off - 0x400) / 4)]).ctl
  else if 0x800 ≤ off ∧ off < 0xA00 then (x.objs[Fin.ofNat 128 ((off - 0x800) / 4)]).stat
  else if 0x1000 ≤ off ∧ off < 0x1100 then
    vget ((x.q[Fin.ofNat 2 ((off - 0x1000) / 0x80)]).held.headD FrameBuf.zero) (off % 0x80 / 4) 0
  else if 0x4000 ≤ off ∧ off < 0x8000 then vget (x.objs[Fin.ofNat 128 ((off - 0x4000) / 0x80)]).buf (off % 0x80 / 4) 0
  else 0

/-- A store of a core into controller `c`'s block. -/
def State.canWrite (s : State) (c : Fin 4) (off : Nat) (v : W32) : State :=
  if s.isStopped 3 then s
  else if off = 0 then s.canCtlWrite c v
  else if off = 4 then s.onlyIf (bit v 0) fun s => s.canAbortAll c
  else if off = 0x10 then s.canTiming c 0 v
  else if off = 0x14 then s.canTiming c 1 v
  else if off = 0x18 then s.canTiming c 2 v
  else if off = 0x1C then s.modCan c fun x => { x with err := x.err &&& ~~~v }
  else if off = 0x50 then s.modCan c fun x => { x with cmdgCfg := keep 0x003F7F01 v }
  else if off = 0x54 then s.onlyIf (bit v 0) fun s => s.canForget c
  else if 0x60 ≤ off ∧ off < 0x68 then
    let j : Fin 2 := Fin.ofNat 2 ((off - 0x60) / 4)
    (s.onlyIf (bit v 0) fun s => s.canRel c j (fld v 8 8)).onlyIf (bit v 1) fun s => s.canFlush c j
  else if 0x100 ≤ off ∧ off < 0x300 then
    let f : Fin 32 := Fin.ofNat 32 ((off - 0x100) / 16)
    s.modCan c fun x =>
      { x with
        flts := upd x.flts f fun y =>
          match off % 16 with
          | 0 => { y with mch := keep 0x3FFFFFFF v }
          | 4 => { y with mask := keep 0x3FFFFFFF v }
          | 8 => { y with ctl := keep 0x00077F0F v }
          | _ => y }
  else if 0x400 ≤ off ∧ off < 0x600 then s.objCtlWrite c (Fin.ofNat 128 ((off - 0x400) / 4)) v
  else if 0x600 ≤ off ∧ off < 0x800 then s.objCmd c (Fin.ofNat 128 ((off - 0x600) / 4)) v
  else if 0x4000 ≤ off ∧ off < 0x8000 then s.objBufWrite c (Fin.ofNat 128 ((off - 0x4000) / 0x80)) (off % 0x80 / 4) v
  else s

/-- The clearing of an RC register by a core's read (R10). -/
def Can.rcClear (x : Can) (off : Nat) : Can :=
  if off = 0x24 then { x with cntBusOff := 0, cntNoMatch := 0 }
  else if off = 0x28 then { x with cntOvf := 0, cntMsgLost := 0 }
  else if off = 0x58 then { x with dup := 0, ackLost := 0, short := 0 }
  else x

end Sys2Proof.Machine
end

