-- ==== Sys2Proof/Machine/NetMgmt.lean ====
section
/-! DEFINITION. Transceivers, network management and the night-shift log (spec/15_network_sleep_and_wake.md R474 to
R503). -/

namespace Sys2Proof.Machine

/-! ## Fields -/

def Nm.en (n : Nm) : Bool := bit n.ctl 0
def Nm.regRel (n : Nm) : Bool := bit n.ctl 1
def Nm.need (n : Nm) : Bool := bit n.ctl 2
def Nm.node (n : Nm) : Nat := fld n.ctl 8 6
def Nm.swEn (n : Nm) : Bool := bit n.trxCtl 4

/-- T_ka, T_idle and T_fw in microseconds (R503). -/
def Nm.tKa (n : Nm) : Nat := clampN 100 10000 (fld n.kaCfg 0 14) * 1000
def Nm.tIdle (n : Nm) : Nat := max 1 (fld n.tmo 0 16) * 10000
def Nm.tFw (n : Nm) : Nat := max 1 (fld n.tmo 16 8) * 10000

def trxCode : TrxMode → Nat
  | .normal => 0 | .listen => 1 | .standby => 2 | .sleep => 3

def trxOf (n : Nat) : TrxMode := if n = 0 then .normal else if n = 1 then .listen else if n = 2 then .standby else .sleep

def nmCode : NmSt → Nat
  | .off => 0 | .busSleep => 1 | .wakeCheck => 2 | .ready => 3 | .need => 4 | .prepSleep => 5

/-- NM runs in AON, in every state but OFF (R498). -/
def State.nmUp (s : State) : Bool := s.isUp 0 && s.tmbRuns

/-- An NM event of network `c` (R502). -/
def State.nmEv (s : State) (c : Fin 4) (code : Nat) (fs : List (Nat × Nat × Nat)) : State :=
  s.emit 0 code (pack ((0, 2, c.val) :: fs))

/-- In a low-power state (R475). -/
def Nm.low (n : Nm) : Bool := n.trx == .standby || n.trx == .sleep

/-- The regulator hold of a transceiver (R475, R476): asserted in every state but SLEEP, so a transceiver that leaves
SLEEP asserts it with its new state. -/
def Nm.regHold (n : Nm) : Bool := n.trx != .sleep

/-- Any transceiver asserts its regulator hold, for PWR (R476). -/
def State.regHeld (s : State) : Bool := s.isUp 0 && s.nm.toList.any Nm.regHold

/-- Awake states of R492. -/
def nmAwake (st : NmSt) : Bool := st == .wakeCheck || st == .ready || st == .need

/-! ## The transceiver (R475 to R479) -/

/-- Order the transceiver into a state; an order replaces a switch in progress. -/
def Nm.order (n : Nm) (m : TrxMode) (now : Nat) : Nm :=
  if n.trx = m then { n with switch := none } else { n with switch := some (m, now) }

/-- NM writes MODE of its controller, when the controller's island is powered (R492). -/
def State.nmCanMode (s : State) (c : Fin 4) (m : Nat) : State :=
  if s.isUp (5 + c.val) && s.can[c].mode != m then s.canSetMode c m else s

/-! ## Keep-alives (R486 to R488) -/

/-- Word W4 of a keep-alive (R486). -/
def Nm.kaData (n : Nm) (rep : Bool) (now : Nat) : W32 :=
  pack [(0, 8, n.node), (8, 1, b2n n.need), (9, 1, b2n rep), (10, 1, b2n n.woken),
    (16, 16, satN 16 ((now - n.awakeAt) / 1000000))]

/-- NM sends a keep-alive (R488). -/
def State.nmSend (s : State) (c : Fin 4) (rep : Bool) : State :=
  let n := s.nm[c]
  let m : Fin 128 := Fin.ofNat 128 (fld n.kaCfg 24 7)
  if !bit n.ctl 4 then s
  else if !n.online || s.can[c].mode != 1 then s.modNm c fun n => { n with kaPend := true }
  else
    let o := s.can[c].objs[m]
    if o.busy || !o.en || !o.dirTx then
      (s.modNm c fun n => { n with kaSkip := satN 16 (n.kaSkip + 1) }).nmEv c 0x86 []
    else
      let w0 := pack [(18, 11, fld n.kaCfg 16 5 * 64 + n.node)]
      (s.modObj c m fun o =>
        { o with buf := ((o.buf.set 0 w0).set 1 4).set 4 (n.kaData rep s.now) }).canReq c m

/-- The deferred keep-alive goes out once ONLINE is 1 and the controller is in MODE 1 (R488). -/
def State.nmDeferred (s : State) (c : Fin 4) : State :=
  let n := s.nm[c]
  if s.nmUp && n.kaPend && n.online && s.can[c].mode == 1 then
    (s.modNm c fun n => { n with kaPend := false }).nmSend c true
  else s

/-! ## The night-shift log (R500, R501) -/

/-- Whole seconds of a streak. -/
def streakSecs (st : Nat × Nat) : Nat := (st.2 - st.1) / 1000000

/-- A streak ends; `on` says that the log is enabled, NS_THR not being 0 (R501). -/
def NsNode.stop (on : Bool) (x : NsNode) : NsNode :=
  match x.streak with
  | none => x
  | some st =>
    if x.reached && on then
      { x with
        streak := none, reached := false, total := satN 32 (x.total + streakSecs st),
        longest := max x.longest (satN 16 (streakSecs st)) }
    else { x with streak := none, reached := false }

/-- A NEED keep-alive of node `i` while NM is awake or preparing to sleep. -/
def State.nmStreak (s : State) (c : Fin 4) (i : Fin 64) : State :=
  let n := s.nm[c]
  let x := n.nodes[i]
  let st : Option (Nat × Nat) :=
    match x.streak with
    | some p => some (p.1, s.now)
    | none => if nmAwake n.st || n.st == .prepSleep then some (s.now, s.now) else none
  let thr := fld n.nsCfg 0 16
  let secs := match st with | some p => streakSecs p | none => 0
  let hit := st.isSome && !x.reached && thr != 0 && decide (thr ≤ secs)
  let s1 := s.modNm c fun n =>
    { n with
      nodes := upd n.nodes i fun x =>
        { x with streak := st, reached := x.reached || hit, count := if hit then satN 16 (x.count + 1) else x.count } }
  s1.onlyIf hit fun s => s.nmEv c 0x84 [(8, 6, i.val), (16, 16, satN 16 secs)]

/-- The night-shift log is enabled (R501). -/
def Nm.nsOn (n : Nm) : Bool := fld n.nsCfg 0 16 != 0

/-- Every streak of the network ends (R500). -/
def Nm.endStreaks (n : Nm) : Nm := { n with nodes := n.nodes.map (NsNode.stop n.nsOn) }

/-! ## Transitions (R494 to R496) -/

/-- Enter WAKE_CHECK, READY or NEED: NORMAL ordered, MODE 1 when ONLINE (R491, R492). -/
def State.nmWakeInto (s : State) (c : Fin 4) (st : NmSt) (bus : Bool) : State :=
  let n := s.nm[c]
  let fresh := n.st == .off || n.st == .busSleep
  let s1 := s.modNm c fun n =>
    { (n.order .normal s.now) with
      st := st, stage := 0, tFwAt := if st == .wakeCheck then some s.now else none,
      awakeAt := if fresh then s.now else n.awakeAt, woken := if fresh then bus else n.woken }
  s1.onlyIf (s1.nm[c].online) fun s => s.nmCanMode c 1

/-- Enter NEED: a keep-alive goes out and T_ka starts (R494). -/
def State.nmIntoNeed (s : State) (c : Fin 4) (rep : Bool) : State :=
  ((s.nmWakeInto c .need false).modNm c fun n => { n with tKaAt := some s.now }).nmSend c rep

/-- Stage 2 of PREP_SLEEP: the transceiver is ordered to sleep (R495). -/
def State.nmStage2 (s : State) (c : Fin 4) : State :=
  s.modNm c fun n => { (n.order (if n.regRel then .sleep else .standby) s.now) with stage := 2 }

/-- The controller is OFF or unpowered. -/
def State.nmCanOff (s : State) (c : Fin 4) : Bool := !s.isUp (5 + c.val) || s.can[c].bus == .off

/-- Enter PREP_SLEEP; stage 1 completes at once when the controller is already off (R495). -/
def State.nmPrep (s : State) (c : Fin 4) : State :=
  let s1 := (s.modNm c fun n =>
    { n with st := .prepSleep, stage := 1, tFwAt := none, tKaAt := none }).nmCanMode c 0
  if s1.nmCanOff c then s1.nmStage2 c else s1

/-- Sleep is aborted (R496); `cause` as SLEEP_ABORT numbers it. -/
def State.nmAbort (s : State) (c : Fin 4) (toNeed : Bool) (cause : Nat) : State :=
  let stage := s.nm[c].stage
  let s1 := s.modNm c fun n => { n with aborts := satN 16 (n.aborts + 1) }
  let s2 := if toNeed then s1.nmIntoNeed c true else (s1.nmWakeInto c .ready false).nmSend c true
  s2.nmEv c 0x82 [(4, 4, cause), (8, 2, stage)]

/-- Stage 1 is complete (R494, R495). -/
def State.nmStage1Done (s : State) (c : Fin 4) : State :=
  if s.nmUp && s.nm[c].st == .prepSleep && s.nm[c].stage == 1 && s.nmCanOff c then s.nmStage2 c else s

/-- A transceiver mode change completes; in stage 2 the network is asleep (R477, R494). Between STANDBY and SLEEP the
bias stays where bus activity and silence have put it (R479). -/
def State.trxComplete (s : State) (c : Fin 4) : State :=
  match s.nm[c].switch with
  | none => s
  | some (m, _) =>
    if s.nmUp then
      let n := s.nm[c]
      let low := m == .standby || m == .sleep
      let s1 := s.modNm c fun n =>
        { n with trx := m, switch := none, bias := !low || (n.low && n.bias), errCnt := if low then 0 else n.errCnt }
      if n.st == .prepSleep && n.stage == 2 && low then
        (s1.modNm c fun n => { n.endStreaks with st := .busSleep, stage := 0 }).nmEv c 0x81 [(2, 1, b2n (m == .sleep))]
      else s1
    else s

/-- A transceiver in STANDBY or SLEEP wakes, and NM takes the bus wake (R483, R494): without effect in WAKE_CHECK, READY
and NEED, where the transceiver is on its way to NORMAL. -/
def State.nmBusWake (s : State) (c : Fin 4) (cause : Nat) : State :=
  if nmAwake s.nm[c].st then s
  else
  let s1 := (s.modNm c fun n =>
    { n with
      trx := if n.trx == .sleep then .standby else n.trx, errCnt := 0, wakeCause := cause, wakeTime := s.count,
      wakes := satN 16 (n.wakes + 1) }).wakeReq (4 + c.val)
  let s2 := s1.nmEv c 0x80 [(4, 4, cause)]
  match s2.nm[c].st with
  | .busSleep => s2.nmWakeInto c .wakeCheck true
  | .prepSleep => s2.nmAbort c false cause
  | _ => s2

/-! ## NEED, EN and commands -/

/-- NEED has risen (R494). -/
def State.nmNeedRose (s : State) (c : Fin 4) : State :=
  match s.nm[c].st with
  | .busSleep =>
    let s1 := (s.modNm c fun n => { n with wakeCause := 4, wakeTime := s.count }).wakeReq (4 + c.val)
    s1.nmIntoNeed c false
  | .wakeCheck => s.nmIntoNeed c false
  | .ready => s.nmIntoNeed c false
  | .prepSleep => s.nmAbort c true 4
  | _ => s

/-- NEED has fallen (R494). -/
def State.nmNeedFell (s : State) (c : Fin 4) : State :=
  if s.nm[c].st == .need then s.modNm c fun n => { n with st := .ready, tKaAt := none } else s

/-- EN was written 1 in OFF (R494). -/
def State.nmEnabled (s : State) (c : Fin 4) : State :=
  if s.nm[c].st == .off then
    let s1 := if s.nm[c].need then s.nmIntoNeed c false else s.nmWakeInto c .ready false
    s1.modNm c fun n => { n with tIdleAt := some s.now }
  else s

/-- EN was written 0: the transceiver keeps the state it holds (R494). -/
def State.nmDisabled (s : State) (c : Fin 4) : State :=
  s.modNm c fun n =>
    { n.endStreaks with
      st := .off, stage := 0, switch := none, tIdleAt := none, tKaAt := none, tFwAt := none,
      trxCtl := keep 0xFFFFFFFC n.trxCtl ||| BitVec.ofNat 32 (trxCode n.trx) }

/-- A write of NM_CTL: NEED changes first, then EN (R497). -/
def State.nmCtlWrite (s : State) (c : Fin 4) (v : W32) : State :=
  let o := s.nm[c]
  let w := keep 0x3F1F v
  let s1 := s.modNm c fun n => { n with ctl := (w &&& 0xFFFFFFFE) ||| (n.ctl &&& 1), cmdRes := 0 }
  let s2 := (s1.onlyIf (bit w 2 && !o.need) fun s => s.nmNeedRose c).onlyIf (!bit w 2 && o.need) fun s => s.nmNeedFell c
  let s3 := s2.modNm c fun n => { n with ctl := w }
  (s3.onlyIf (bit w 0 && !o.en) fun s => s.nmEnabled c).onlyIf (!bit w 0 && o.en) fun s => s.nmDisabled c

/-- ONLINE (R492). -/
def State.nmOnline (s : State) (c : Fin 4) : State :=
  (s.modNm c fun n => { n with online := true, cmdRes := 0 }).onlyIf (nmAwake s.nm[c].st && s.nm[c].en)
    fun s => s.nmCanMode c 1

/-- NS_CLR clears the log; streaks in progress go on, since only R500 ends them (R501). -/
def State.nmNsClr (s : State) (c : Fin 4) : State :=
  s.modNm c fun n =>
    { n with nodes := n.nodes.map fun x => { x with count := 0, longest := 0, total := 0 }, cmdRes := 0 }

/-- A write of TRX_CTL (R485): while NM is enabled one that changes MODE stores nothing (R662). -/
def State.trxWrite (s : State) (c : Fin 4) (v : W32) : State :=
  let n := s.nm[c]
  let w := keep 0xFF73 v
  if n.en && fld w 0 2 != fld n.trxCtl 0 2 then s.modNm c fun n => { n with cmdRes := 3 }
  else
    let s1 := s.modNm c fun n => { n with trxCtl := w, cmdRes := 0 }
    if n.en then s1 else s1.modNm c fun n => n.order (trxOf (fld w 0 2)) s.now

/-! ## Frames on the bus (R479 to R483, R487) -/

/-- A time between two limits that the spec gives for a threshold: forced from the upper one on, impossible below the
lower one, and free between them. -/
def between (lo hi t free : Nat) : Bool := hi ≤ t || (lo ≤ t && free % 2 = 1)

/-- A dominant, a recessive and a dominant phase of `d1`, `r` and `d2` ns, the whole taking `total` ns, are a wake-up
pattern: each phase passes the filter time of 0.5 us to 1.8 us, the whole takes at most 1 ms (R479). -/
def isWup (d1 r d2 total free : Nat) : Bool :=
  between 500 1800 d1 free && between 500 1800 r (free / 2) && between 500 1800 d2 (free / 4) && total ≤ 1000000

/-- Three phases on the bus of a transceiver in STANDBY or SLEEP: a wake-up pattern switches the bias on, and without
selective wake the transceiver wakes (R479, R483). -/
def State.trxWup (s : State) (c : Fin 4) (d1 r d2 total : Nat) : State :=
  if s.nmUp && s.nm[c].low then
    let d := s.draw 3
    if isWup d1 r d2 total d.1 then
      let s1 := d.2.modNm c fun n => { n with bias := true }
      if s.nm[c].swEn then s1 else s1.nmBusWake c 1
    else d.2
  else s

/-- The bus of a transceiver in STANDBY or SLEEP has been recessive for `us`: after 0.6 s to 1.2 s the bias returns to
ground (R479, R481). -/
def State.trxBiasOff (s : State) (c : Fin 4) (us : Nat) : State :=
  if s.nmUp && s.nm[c].low then
    let d := s.draw 1
    if between 600000 1200000 us d.1 then d.2.modNm c fun n => { n with bias := false, errCnt := 0 } else d.2
  else s

/-- A rise or fall of TXD_DOM or VCC_UV (R478). -/
def State.trxFault (s : State) (c : Fin 4) (txd vcc : Bool) : State :=
  if s.nmUp then
    let n := s.nm[c]
    let s1 := s.modNm c fun n => { n with txdDom := txd, vccUv := vcc }
    s1.onlyIf ((txd && !n.txdDom) || (vcc && !n.vccUv)) fun s => s.nmEv c 0x85 [(4, 1, b2n vcc), (5, 1, b2n txd)]
  else s

/-- The controller has driven the transmitter dominant for `us`, or drives it recessive again: after 2.5 ms of a
transmitter that is on, TXD_DOM sets (R478). -/
def State.trxTxd (s : State) (c : Fin 4) (dom : Bool) (us : Nat) : State :=
  if dom && (us < 2500 || s.nm[c].trx != .normal) then s else s.trxFault c dom s.nm[c].vccUv

/-- The eight wake-up data bytes hold a 1 where the frame does (R482). -/
def wufData (n : Nm) (data : List W8) (len : Nat) : Bool :=
  (List.range len).any fun i =>
    let r := if i < 4 then n.wufDlo else n.wufDhi
    (fld r (8 * (i % 4)) 8 &&& (data.getD i 0).toNat) != 0

/-- WUF match of a frame decoded without error (R482). -/
def Nm.wufMatch (n : Nm) (w0 w1 : W32) (data : List W8) : Bool :=
  let dlc := fld w1 0 4
  !frameRtr w0 w1 && ((w0 ^^^ n.wufId) &&& n.wufMask &&& 0x1FFFFFFF) == 0 &&
    (bit w0 29 == bit n.wufId 29 || !bit n.wufMask 29) &&
    (!bit n.wufCfg 4 || (dlc == fld n.wufCfg 0 4 && (dlc == 0 || wufData n data (frameLen w0 w1))))

/-- A keep-alive (R487): its node, if the frame is one. -/
def Nm.keepAlive (n : Nm) (w0 w1 : W32) (data : List W8) : Option (Fin 64) :=
  let id := fld w0 18 11
  let node := id % 64
  if !bit w0 29 && !frameRtr w0 w1 && id / 64 = fld n.kaCfg 16 5 && 2 ≤ fld w1 0 4 &&
      (data.getD 0 0).toNat % 64 = node then some (Fin.ofNat 64 node)
  else none

/-- NM takes a decoded frame that was not the one that woke it (R494). -/
def State.nmFrame (s : State) (c : Fin 4) (ka : Bool) : State :=
  match s.nm[c].st with
  | .wakeCheck =>
    (s.nmWakeInto c .ready false).modNm c fun n => { n with tIdleAt := some s.now }
  | .prepSleep => if ka then s.nmAbort c false 5 else s
  | _ => s

/-- The decoder has decoded a frame: `ok` tells whether it passed every check; a frame with FDF recessive is ignored
(R480, R481). -/
def State.nmDecoded (s : State) (c : Fin 4) (ok : Bool) (w0 w1 : W32) (data : List W8) : State :=
  let n := s.nm[c]
  if !s.nmUp || bit w1 4 || (n.low && !(n.bias && n.swEn)) then s
  else if !ok then
    let s1 := s.modNm c fun n => { n with errCnt := satN 8 (n.errCnt + 1) }
    if n.low && fld n.trxCtl 8 8 < s1.nm[c].errCnt then s1.nmBusWake c 3 else s1
  else
    let s1 := s.modNm c fun n => { n with errCnt := n.errCnt - 1 }
    let woke := n.low && !nmAwake n.st && n.wufMatch w0 w1 data
    let s2 := if woke then s1.nmBusWake c 2 else s1
    let ka := n.keepAlive w0 w1 data
    let s3 := s2.onlyIf ka.isSome fun s => s.modNm c fun n => { n with tIdleAt := some s.now }
    let s4 := match ka with
      | some i => if bit (word4 data) 8 then s3.nmStreak c i else s3
      | none => s3
    if woke || n.st == .busSleep then s4 else s4.nmFrame c ka.isSome

/-! ## Timers (R494, R500) -/

def State.nmKaExpiry (s : State) (c : Fin 4) : State :=
  match s.nm[c].tKaAt with
  | some t =>
    if s.nmUp && s.nm[c].st == .need then
      let s1 := s.advanceTo (t + s.nm[c].tKa)
      (s1.modNm c fun n => { n with tKaAt := some s1.now }).nmSend c false
    else s
  | none => s

def State.nmIdleExpiry (s : State) (c : Fin 4) : State :=
  match s.nm[c].tIdleAt with
  | some t =>
    if s.nmUp then
      let s1 := s.advanceTo (t + s.nm[c].tIdle)
      match s.nm[c].st with
      | .ready => (s1.modNm c fun n => { n with tIdleAt := none }).nmPrep c
      | .need => s1.modNm c fun n => { n with tIdleAt := some s1.now }
      | _ => s1.modNm c fun n => { n with tIdleAt := none }
    else s
  | none => s

def State.nmFwExpiry (s : State) (c : Fin 4) : State :=
  match s.nm[c].tFwAt with
  | some t =>
    if s.nmUp && s.nm[c].st == .wakeCheck then
      let s1 := s.advanceTo (t + s.nm[c].tFw)
      ((s1.modNm c fun n => { n with falseWakes := satN 16 (n.falseWakes + 1) }).nmEv c 0x83 []).nmPrep c
    else s
  | none => s

/-- T_idle has passed without a NEED keep-alive of node `i` (R500). -/
def State.nmStreakEnd (s : State) (c : Fin 4) (i : Fin 64) : State :=
  match s.nm[c].nodes[i].streak with
  | some st =>
    if s.nmUp then
      (s.advanceTo (st.2 + s.nm[c].tIdle)).modNm c fun n => { n with nodes := upd n.nodes i (NsNode.stop n.nsOn) }
    else s
  | none => s

/-- The network that makes NM refuse DEEP, if any (R499). -/
def State.nmRefuser (s : State) : Option (Fin 4) :=
  (List.finRange 4).find? fun c =>
    let n := s.nm[c]
    if n.en then n.st != .busSleep else n.trx == .normal || n.trx == .listen

/-! ## Registers (R503) -/

/-- The NM block read at an offset. -/
def State.nmRead (s : State) (off : Nat) : W32 :=
  if 0x800 ≤ off ∧ off < 0x1000 then
    let x := s.nm[Fin.ofNat 4 ((off - 0x800) / 0x200)].nodes[Fin.ofNat 64 (off % 0x200 / 8)]
    if off % 8 = 0 then pack [(0, 16, x.count), (16, 16, x.longest)] else pack [(0, 32, x.total)]
  else if 0x400 ≤ off then 0
  else
    let n := s.nm[Fin.ofNat 4 (off / 0x100)]
    let awake (b : Nat) : W32 := BitVec.ofNat 32 (bitsOf 32 fun i => (vget n.nodes (b + i) NsNode.init).streak.isSome)
    match off % 0x100 with
    | 0x00 => n.ctl
    | 0x08 => pack [(0, 3, nmCode n.st), (4, 2, n.stage), (6, 1, b2n n.online), (7, 1, b2n n.kaPend), (8, 2, n.cmdRes)]
    | 0x0C => n.kaCfg
    | 0x10 => n.tmo
    | 0x14 => n.nsCfg
    | 0x18 => pack [(0, 16, n.aborts), (16, 16, n.falseWakes)]
    | 0x1C => pack [(0, 16, n.wakes), (16, 16, n.kaSkip)]
    | 0x20 => n.trxCtl
    | 0x24 => pack [(0, 2, trxCode n.trx), (2, 1, b2n n.switch.isSome), (3, 1, b2n n.bias), (4, 1, b2n n.vccUv),
        (5, 1, b2n n.txdDom), (8, 8, n.errCnt)]
    | 0x28 => n.wufId
    | 0x2C => n.wufMask
    | 0x30 => n.wufDlo
    | 0x34 => n.wufDhi
    | 0x38 => n.wufCfg
    | 0x3C => pack [(0, 4, n.wakeCause)]
    | 0x40 => pack [(0, 32, n.wakeTime)]
    | 0x44 => pack [(0, 16, n.wakeTime / 2 ^ 32)]
    | 0x48 => awake 0
    | 0x4C => awake 32
    | _ => 0

/-- A store of a core into the NM block. -/
def State.nmWrite (s : State) (off : Nat) (v : W32) : State :=
  if 0x400 ≤ off || s.isStopped 4 then s
  else
    let c : Fin 4 := Fin.ofNat 4 (off / 0x100)
    match off % 0x100 with
    | 0x00 => s.nmCtlWrite c v
    | 0x04 => (s.onlyIf (bit v 0) fun s => s.nmOnline c).onlyIf (bit v 1) fun s => s.nmNsClr c
    | 0x0C => s.modNm c fun n => { n with kaCfg := keep 0x7F1F3FFF v }
    | 0x10 => s.modNm c fun n => { n with tmo := keep 0x00FFFFFF v }
    | 0x14 => s.modNm c fun n => { n with nsCfg := keep 0xFFFF v }
    | 0x20 => s.trxWrite c v
    | 0x28 => s.modNm c fun n => { n with wufId := keep 0x3FFFFFFF v }
    | 0x2C => s.modNm c fun n => { n with wufMask := keep 0x3FFFFFFF v }
    | 0x30 => s.modNm c fun n => { n with wufDlo := v }
    | 0x34 => s.modNm c fun n => { n with wufDhi := v }
    | 0x38 => s.modNm c fun n => { n with wufCfg := keep 0x1F v }
    | _ => s

/-- The clearing of an RC register by a core's read (R10). -/
def State.nmRcClear (s : State) (off : Nat) : State :=
  if 0x400 ≤ off then s
  else
    let c : Fin 4 := Fin.ofNat 4 (off / 0x100)
    match off % 0x100 with
    | 0x18 => s.modNm c fun n => { n with aborts := 0, falseWakes := 0 }
    | 0x1C => s.modNm c fun n => { n with wakes := 0, kaSkip := 0 }
    | _ => s

end Sys2Proof.Machine
end

