-- ==== Sys2Proof/Machine/Power.lean ====
section
/-! DEFINITION. The power controller and the supplies: entries stage by stage, returns step by step, pad holds, supply
changes, power-on and RSTN (spec/18_power_states.md R571 to R607, spec/19_supplies_and_start_up.md R608 to R625). -/

namespace Sys2Proof.Machine

/-! ## Requests (R576) -/

def Pwr.qtmo (p : Pwr) : Nat := max 1 (fld p.cfg 0 8) * 1000
def Pwr.stageTmo (p : Pwr) : Nat := max 25 (fld p.cfg 8 8) * 1000
def Pwr.wakeFilt (p : Pwr) : Nat := max 1 (fld p.wakeCfg 0 8)

/-- A write of PWR.REQ. -/
def State.pwrRequest (s : State) (key target : Nat) : State :=
  match s.pwr.phase with
  | .run =>
    if key ≠ 0x9E37 || target = 0 then s.modPwr fun p => { p with res := 4 }
    else
      s.modPwr fun p =>
        { p with
          phase := .entering, target := target, stage := 1, reqAt := s.now, askedAt := s.now, wakeCause := 0,
          stopped := Vector.replicate 14 false }
  | _ => s.modPwr fun p => { p with res := 5 }

/-! ## Why a block refuses DEEP and OFF (R578, R579) -/

/-- A started core that is not in WAIT. -/
def State.coreAwake (s : State) : Option (Fin 4) :=
  (List.finRange 4).find? fun c => s.core[c].started && !s.core[c].waiting

/-- HSC's ground (R88); for OFF also a parked channel outside DISABLED, OFF and LATCHED (R579). -/
def State.hscRefuser (s : State) : Option Nat :=
  (List.range 48).find? fun n =>
    let st := (vget s.hs n Hs.init).st
    if s.hsc.parked n then
      st == .pending || st == .inrush || st == .uvWait || st == .retryWait ||
        (s.pwr.target = 3 && st == .on)
    else st != .disabled && st != .off && st != .latched

/-- The UNIT of the block of stage `g` that refuses, if it does. -/
def State.stageRefuser (s : State) (g : Nat) : Option Nat :=
  match g with
  | 2 => if s.isUp 4 && s.plkRefuses then some 0 else none
  | 3 => ((List.finRange 4).find? fun c => s.isUp (5 + c.val) && s.can[c].refuses).map (·.val)
  | 4 => s.nmRefuser.map (·.val)
  | 5 => (List.range 8).find? fun k =>
      let c := vget s.lc k (Lc.init 0)
      (c.st != .disabled && c.st != .idle) || !c.out.isEmpty
  | 6 => (List.range 3).find? fun k =>
      let st := (vget s.ls k (Ls.init 0)).st
      st != .disabled && st != .off && st != .latched
  | 7 =>
    match (List.range 16).find? fun n =>
        let st := (vget s.vd n Vd.init).st
        st != .disabled && st != .idle && st != .latched with
    | some n => some n
    | none => ((List.range 4).find? fun g => (vget s.vg g Vg.init).swOn).map (4 * ·)
  | 8 => s.hscRefuser
  | 9 => if (List.range 67).any fun t => (vget s.dig t Dig.init).cap.st == .running then some 0 else none
  | 10 =>
    if !s.adm.queue.isEmpty || s.adm.extHeld.toList.any id || s.adm.slots.toList.any (·.en) then some 0 else none
  | 11 => if s.dep.updOp.isSome || s.dep.updStep = 1 || s.dep.updStep = 2 || s.nv.trial then some 0 else none
  | _ => none

/-- Stage 11 holds its answer until the log is written and the snapshot stored (R554). -/
def State.stageHolds (s : State) (g : Nat) : Bool :=
  g = 11 && s.depUp && (!s.dep.logBuf.isEmpty || s.dep.snapAt < s.pwr.askedAt)

/-! ## Power down (R572, R587, R592, R599) -/

/-- The CORE regulator is enabled: in every state but OFF, and in DEEP only while a transceiver asserts its regulator
hold (R476, R591). -/
def State.coreRegOn (s : State) : Bool :=
  match s.pwr.phase with
  | .off | .dead => false
  | .deep => s.regHeld
  | _ => true

/-- Islands that keep power in DEEP: AON and the parked channels. -/
def State.keptInDeep (s : State) (i : Nat) : Bool := i = 0 || (24 ≤ i && s.hsc.parked (i - 24))

/-- SRAM bank `n` begins here; banks are 64 KB (R11, R599). -/
def sramBank (n : Nat) : Nat := sramBase + 0x10000 * n

/-- Memory without bulk memory and without the SRAM banks that `keep_` does not name. -/
def dropRam (m : List Host.Cell) (keep_ : Nat → Bool) : List Host.Cell :=
  (List.range 16).foldl (fun m n => if keep_ n then m else memErase m (sramBank n) (sramBank (n + 1)))
    (memErase m bulkBase bulkEnd)

/-- Error marks that outlive the same loss. -/
def dropEcc (e : List (Nat × Bool)) (keep_ : Nat → Bool) : List (Nat × Bool) :=
  e.filter fun x => isSram x.1 && keep_ ((x.1 - sramBase) / 0x10000)

/-- What of the management plane outlives DEEP beside its stores: counts since power-on (log entry 27). -/
def Dep.deep (d : Dep) : Dep :=
  { Dep.init with
    mrestarts := d.mrestarts, wdCause := d.wdCause, wdResets := d.wdResets, wdTimes := d.wdTimes,
    dbgClosed := d.dbgClosed, logLost := d.logLost }

/-- A digitiser stops in DEEP: an armed capture goes to IDLE, a ZERO ends early, and the samples taken so far count no
more (R113, R121, R126, R134). -/
def Dig.stop (d : Dig) : Dig :=
  { d with
    cap := { d.cap with st := if d.cap.st == .armed then .idle else d.cap.st }, zeroBusy := false,
    zeroFail := d.zeroFail || d.zeroBusy, last := [], msN := 0, msSum := 0, snapReq := none }

/-- The state of every island that DEEP leaves unpowered is lost, pushes that its producers held included; VSENS is off
(R335). HUB's registers are set when it starts again. -/
def State.losePower (s : State) : State :=
  let kept := s.keptInDeep
  let s1 := s.coreIslandReset 0
  { s1 with
    up := Vector.ofFn fun i : Fin 72 => kept i.val, mem := dropRam s.mem (bit s.pwr.ret), ecc := dropEcc s.ecc (bit s.pwr.ret),
    que := Que.init, lmpErr := false, inp := s.inp.vsensOff,
    hs := Vector.ofFn fun n : Fin 48 =>
      if kept (24 + n.val) then { s.hs[n] with est := s.hs[n].est.stop } else Hs.init,
    dig := Vector.ofFn fun t : Fin 67 => if t.val < 48 && kept (24 + t.val) then s.dig[t].stop else Dig.initOf t.val,
    vlvCtl := 0, vg := Vector.replicate 4 Vg.init, vd := Vector.replicate 16 Vd.init,
    ls := Vector.replicate 3 (Ls.init s.now), lc := Vector.ofFn fun k : Fin 8 => Lc.init k.val,
    can := Vector.replicate 4 Can.init, plk := Plk.init, dep := s.dep.deep, depCore := Core.init 4 0,
    nm := s.nm.map fun n => { n with online := false },
    fab :=
      { s1.fab with
        out := Vector.ofFn fun i : Fin 72 => if kept i.val then s.fab.out[i] else OutBuf.init
        hub := [] } }

/-- The device enters OFF: only the keeper and the WAKE detector stay powered. -/
def State.enterOff (s : State) (cause : Nat) : State :=
  { s with
    up := Vector.replicate 72 false,
    inp := s.inp.vsensOff,
    pwr := { s.pwr with
             phase := .off
             stage := 0
             holdStat := 0
             keepOff := BitVec.ofNat 32 cause } }

/-- A power-on: everything starts as at first power-up but for what outlives it; `leaving` 3 for a return from OFF. -/
def State.startUp (s : State) (leaving porSrc : Nat) : State :=
  let keep_ := leaving = 3
  State.powerOn s.otp s.limpStore { s.nv with boots := s.nv.boots + 1 } s.sys.serialLo s.sys.serialHi
    (if keep_ then s.pwr.keepFail else 0) (if keep_ then s.pwr.keepTime else 0) (if keep_ then s.pwr.keepOff else 0)
    leaving
    { s.sup with srcVbk := !s.sup.mainsOk, mainsAt := none, coreReset := true, rstCount := 0, cause := 0, porSrc := porSrc }
    (s.mem.filter fun c => decide (c.1 < flashEnd)) s.free s.pending |>.modHp fun h => { h with csnLow := s.hp.csnLow }

/-- The return from OFF by the WAKE pad (R597). -/
def State.wakeFromOff (s : State) : State :=
  let s1 := s.startUp 3 1
  s1.modPwr fun p => { p with wakeCause := 1 }

/-- The entry completes (R582, R585, R587): a latched wake starts the return at once. Polling of the switch inputs begins
(R315). -/
def State.entryDone (s : State) : State :=
  let p := s.pwr
  let early := p.wakeCause ≠ 0
  let count (q : Pwr) : Pwr :=
    { q with
      stage := 0, stopped := Vector.replicate 14 false, cntEntries := satN 16 (q.cntEntries + 1),
      cntEarly := if early then satN 16 (q.cntEarly + 1) else q.cntEarly }
  match p.target with
  | 1 =>
    let s0 := (s.modInp fun p => { p with pollAt := s.now }).modHp Hp.halt
    let s1 := (s0.modPwr fun q => { (count q) with phase := .sleep }).modDep fun d => { d with wdAt := none }
    if early then s1.modPwr fun q => q.beginReturn 1 s.now else s1
  | 2 =>
    let at_ := s.draw 16
    let grab := bit p.hold 5 && !bit p.holdStat 5
    let s0 := at_.2.losePower.modInp fun p => { p with pollAt := s.now }
    let s1 := s0.modPwr fun q =>
      { (count q) with
        phase := .deep, holdStat := q.holdStat ||| keep 0x3F q.hold,
        heldIrqLow := if grab then s.hpIrqLow else q.heldIrqLow,
        heldSdo := if grab then s.hpSdo at_.1 else q.heldSdo,
        spared := bitsOf 48 s.hsc.parked, bulkRdy := false }
    if early then s1.modPwr fun q => q.beginReturn 2 s.now else s1
  | _ =>
    let s1 := (s.modPwr count).enterOff 1
    if p.wakeCause.testBit 0 then s1.wakeFromOff else s1

/-! ## Stages (R578 to R583, R659) -/

/-- The next stage is asked. -/
def State.nextStage (s : State) : State :=
  s.modPwr fun p => { p with stage := if p.target = 1 then 13 else p.stage + 1, askedAt := s.now }

/-- The block of the stage in progress answers: it refuses, agrees and stops, or is not ready to answer. -/
def State.stageAnswer (s : State) : State :=
  let g := s.pwr.stage
  if s.pwr.phase != .entering then s
  else if g = 1 then (if s.coreAwake.isNone then s.nextStage else s)
  else if g = 13 then s.entryDone
  else
    match s.stageRefuser g with
    | some u => s.entryRefuse g 0 u
    | none =>
      if s.stageHolds g then s
      else
        let s1 := s.modPwr fun p => { p with stopped := vupd p.stopped g fun _ => true }
        (if g = 10 then s1.modAdm fun a => { a with stopped := true } else s1).nextStage

/-- Stage 1 was not met within QTMO of the request (R578). -/
def State.qtmoTimeout (s : State) : State :=
  if s.pwr.phase == .entering && s.pwr.stage == 1 then
    match s.coreAwake with
    | some c => (s.advanceTo (s.pwr.reqAt + s.pwr.qtmo)).entryRefuse 1 0 c.val
    | none => s
  else s

/-- A block has not answered within STAGE_TMO (R581). -/
def State.stageTimeout (s : State) : State :=
  if s.pwr.phase == .entering && 2 ≤ s.pwr.stage && s.pwr.stage ≤ 12 then
    (s.advanceTo (s.pwr.askedAt + s.pwr.stageTmo)).entryRefuse s.pwr.stage 1 0
  else s

/-! ## Returns (R591 to R597, R618) -/

/-- CORE's clock runs again after SLEEP: the hub's held records and the LOST record, held transfers, a new watchdog
period, and RSTN if it is low (R543, R573, R574, R595, R616). -/
def State.sleepDone (s : State) : State :=
  let s1 := s.returnDone
  let n := s1.fab.hubLost
  let lost : EvRec := { time := s1.count, src := 2, code := 0xFF, arg := BitVec.ofNat 32 n }
  let s2 := if n = 0 then s1 else ({ s1 with fab := { s1.fab with hubLost := 0 } } : State).hubTake lost
  let s3 := s2.eccRelease.queRelease.plkRelease.modDep fun d => { d with wdAt := some s.now, wdKick := 0, wdWarned := false }
  s3.onlyIf s3.sup.rstnLow fun s => s.cpReset 1 none

/-- AON's part of a start: the limp map is loaded before any channel island is released (R331, R618). -/
def State.logicMap (s : State) : State := if s.pwr.phase == .starting then s.limpLoad else s

/-- A target's island starts afresh: its digitiser loads its calibration, its trend hour begins, and the Deputy takes
its live counters as starting from zero (R118, R142, R553). -/
def State.freshTarget (s : State) (t : Fin 67) : State :=
  let s1 := s.calLoad t
  let s2 := if h : t.val < 48 then s1.modEst ⟨t.val, h⟩ fun e => { e with hourAt := s1.now } else s1
  s2.modNv fun v =>
    { v with tot := upd v.tot t fun x => { x with last := LifeCounts.zero } }

/-- Island resets are released: HUB, MGMT, PLINK, CAN, chains, strings, valve groups, unparked channels, CORE. With the
backup RC in use CAN and PLINK stay in reset (R591, R593). While ACTIVE is 1, mapped targets that are not in limp mode
yet enter it (R326, log entry 29). -/
def State.releaseIslands (s : State) : State :=
  let old := s.up
  let rc := s.pwr.usedOsc
  let s1 := s.logicMap
  let s2 : State :=
    { s1 with
      up := Vector.ofFn fun i : Fin 72 => !(rc && 4 ≤ i.val && i.val ≤ 8), hsc := Hsc.init,
      meas := MeasC.init, curve := Curve.init, ls := Vector.replicate 3 (Ls.init s.now) }
  let s3 := s2.admStart
  let s4 := forFin 67 (fun t s =>
    let isl := if t.val < 48 then 24 + t.val else if t.val < 64 then 20 + (t.val - 48) / 4 else 17 + (t.val - 64)
    if vget old isl false then s else s.freshTarget t) s3
  let s5 := s4.modSup fun u =>
    { u with coreReset := true, cause := if s.pwr.phase == .starting then u.cause else 5 }
  let s6 := s5.onlyIf s5.sup.rstnLow fun s => (s.modSup fun u =>
    { u with cause := 1, rstCount := satN 16 (u.rstCount + 1) }).orphanStart
  s6.onlyIf s6.inp.active fun s => s.limpRest s.inp.limpSrc

/-- NEED of each network with LOCAL_NEED 1 when a source other than its own transceiver woke the device (R493). -/
def State.wakeNeeds (s : State) : State :=
  let by_ := s.pwr.wokenBy
  forFin 4 (fun c s =>
    if by_ &&& (0x7FFF ^^^ (1 <<< (4 + c.val))) ≠ 0 && bit s.nm[c].ctl 3 && !s.nm[c].need then
      (s.modNm c fun n => { n with ctl := n.ctl ||| 4 }).nmNeedRose c
    else s) s

/-- The step in progress reports ready (R591): the next one begins. Step 4 is the management program's start. -/
def State.stepReady (s : State) : State :=
  let p := s.pwr
  if p.phase != .returning && p.phase != .starting then s
  else
    let next (q : Pwr) : Pwr := { q with step := q.step + 1, tries := 0, stepAt := s.now }
    match p.step with
    | 0 =>
      let s1 := s.modPwr fun q => { (next q) with usedReg := 0 < q.tries }
      s1.onlyIf (p.phase == .returning) State.wakeNeeds
    | 1 => s.modPwr fun q => { (next q) with usedOsc := 0 < q.tries }
    | 2 => s.modPwr next
    | 3 => if p.leaving = 1 then s.sleepDone else s.releaseIslands.modPwr next
    | 4 =>
      if s.isUp 3 then
        let arg := pack [(0, 16, s.dep.mrestarts)]
        (((s.modPwr next).modDep fun d => { d with mgmtUp := true }).emit 3 0x0C arg).logOwn 0x0C arg
      else s
    | _ => s

/-- Timeout of a return step in microseconds (R591). -/
def stepTmo (k : Nat) : Nat := if k = 1 then 4000 else 2000

/-- The step in progress times out: retried up to three times, then OFF (R592, R594). -/
def State.stepTimeout (s : State) : State :=
  let p := s.pwr
  if (p.phase == .returning || p.phase == .starting) && p.step < 4 then
    let s1 := s.advanceTo (p.stepAt + stepTmo p.step)
    if p.tries < 3 then s1.modPwr fun q => { q with tries := q.tries + 1, stepAt := s1.now }
    else
      (s1.enterOff 2).modPwr fun q =>
        { q with keepFail := pack [(0, 1, 1), (1, 2, p.step), (3, 2, p.leaving)], keepTime := s1.count }
  else s

/-- HUB has zeroed bulk memory (R600): accesses that waited for it go on. -/
def State.bulkDone (s : State) : State :=
  if s.isUp 2 then (s.modPwr fun p => { p with bulkRdy := true }).plkRelease else s

/-- The WAKE pad has been high for `ms` (R588). -/
def State.wakePad (s : State) (ms : Nat) : State :=
  if s.pwr.phase == .off then (if 1 ≤ ms then s.wakeFromOff else s)
  else if s.pwr.wakeFilt ≤ ms then s.wakeReq 0
  else s

/-- HOLD_REL (R602). -/
def State.holdRelease (s : State) (v : W32) : State :=
  s.modPwr fun p => { p with holdStat := p.holdStat &&& ~~~v }

/-! ## Supplies (R608 to R611, R624) -/

/-- SUPPLY_CHG with the values after the change. -/
def State.supplyChg (s : State) : State :=
  if s.isUp 0 then
    s.emit 0 0xB0 (pack [(0, 1, b2n s.sup.mainsOk), (1, 1, b2n s.sup.vbkOk), (2, 1, b2n s.sup.srcVbk)])
  else s

/-- MAINS_OK becomes `ok` (R609, R610). -/
def State.mainsChange (s : State) (ok dc : Bool) : State :=
  if s.sup.mainsOk == ok then s.modSup fun u => { u with dc := dc }
  else
    let toVbk := !ok && s.sup.vbkOk && !s.sup.srcVbk && s.isUp 0
    let s1 := s.modSup fun u =>
      { u with
        mainsOk := ok, dc := dc, srcVbk := u.srcVbk || toVbk,
        mainsAt := if ok && u.srcVbk && s.isUp 0 then some s.now else none }
    s1.supplyChg.onlyIf toVbk fun s => s.wakeReq 11

/-- VBK_OK becomes `ok`, its voltage `v` in 0.1 V (R609, R623). -/
def State.vbkChange (s : State) (ok : Bool) (v : Nat) : State :=
  let s1 := s.modSup fun u => { u with vbkOk := ok, vbk := satN 10 v }
  if s.sup.vbkOk == ok then s1 else s1.supplyChg

/-- 100 ms after MAINS_OK rose and stayed, the source is the mains again (R609). -/
def State.sourceChange (s : State) : State :=
  match s.sup.mainsAt with
  | some t =>
    if s.isUp 0 && s.sup.mainsOk && s.sup.srcVbk then
      let s1 := (s.advanceTo (t + 100000)).modSup fun u => { u with srcVbk := false, mainsAt := none }
      s1.supplyChg.wakeReq 11
    else s
  | none => s

/-- The bus falls below the reset threshold because neither input can hold it (R611). -/
def State.brownOut (s : State) : State :=
  if s.sup.mainsOk || s.sup.vbkOk then s
  else
    { s with
      up := Vector.replicate 72 false,
      inp := s.inp.vsensOff,
      pwr := { s.pwr with
               phase := .dead
               stage := 0
               keepFail := 0
               keepTime := 0
               keepOff := 0 } }

/-- The bus rises again: the module starts as at first power-up (R611, R618). -/
def State.powerOnReset (s : State) : State :=
  if s.pwr.phase == .dead && (s.sup.mainsOk || s.sup.vbkOk) then s.startUp 0 2 else s

/-! ## RSTN (R615, R616) -/

/-- RSTN is low: CORE is held in reset where it runs; in SLEEP, DEEP and OFF the level alone is kept. -/
def State.rstnAssert (s : State) : State :=
  let s1 := s.modSup fun u => { u with rstnLow := true }
  if s.sup.rstnLow || s.pwr.phase == .sleep || s.pwr.phase == .deep || s.pwr.phase == .off then s1
  else s1.cpReset 1 none

/-- RSTN rises. -/
def State.rstnRelease (s : State) : State := s.modSup fun u => { u with rstnLow := false }

/-! ## Registers (R607) -/

/-- STATE code (R571). -/
def State.pwrState (s : State) : Nat :=
  match s.pwr.phase with
  | .run => if s.coreAwake.isNone then 1 else 0
  | .entering => 2
  | .sleep => 3
  | _ => 4

/-- The PWR block read at an offset. -/
def State.pwrRead (s : State) (off : Nat) : W32 :=
  let p := s.pwr
  if off = 4 then
    pack [(0, 3, s.pwrState), (4, 4, p.stage), (8, 2, p.target), (12, 3, p.res), (16, 1, b2n p.backupOsc),
      (17, 1, b2n p.backupReg), (18, 1, b2n p.bulkRdy), (19, 1, b2n (p.phase == .entering && p.wakeCause != 0)),
      (20, 2, p.from_)]
  else if off = 8 then p.cfg
  else if off = 0xC then p.wakeEn
  else if off = 0x10 then pack [(0, 15, p.wakeCause)]
  else if off = 0x14 then BitVec.ofNat 32 p.wakeTime
  else if off = 0x18 then pack [(0, 16, p.wakeTime / 2 ^ 32)]
  else if off = 0x1C then p.wakeCfg
  else if off = 0x20 then p.ret
  else if off = 0x24 then p.hold
  else if off = 0x28 then p.holdStat
  else if off = 0x30 then pack [(0, 16, p.cntRefused), (16, 16, p.cntAborted)]
  else if off = 0x34 then pack [(0, 16, p.cntEntries), (16, 16, p.cntEarly)]
  else if off = 0x38 then p.lastAbort
  else if off = 0x3C then BitVec.ofNat 32 p.lastAbortTime
  else if off = 0x40 then pack [(0, 16, p.lastAbortTime / 2 ^ 32)]
  else if 0x80 ≤ off ∧ off < 0xC0 then pack [(0, 16, vget p.refCnt ((off - 0x80) / 4) 0)]
  else if 0xC0 ≤ off ∧ off < 0x100 then
    let w := p.wflt[Fin.ofNat 8 ((off - 0xC0) / 8)]
    if off % 8 = 0 then w.a else w.b
  else if off = 0x100 then p.keepFail
  else if off = 0x104 then BitVec.ofNat 32 p.keepTime
  else if off = 0x108 then pack [(0, 16, p.keepTime / 2 ^ 32)]
  else if off = 0x10C then p.keepOff
  else 0

/-- A store of a core into the PWR block. -/
def State.pwrWrite (s : State) (off : Nat) (v : W32) : State :=
  if off = 0 then s.pwrRequest (fld v 16 16) (fld v 0 2)
  else if off = 8 then s.modPwr fun p => { p with cfg := keep 0xFFFF v }
  else if off = 0xC then s.modPwr fun p => { p with wakeEn := keep 0x7FFF v }
  else if off = 0x1C then s.modPwr fun p => { p with wakeCfg := keep 0xFF v }
  else if off = 0x20 then s.modPwr fun p => { p with ret := keep 0xFFFF v }
  else if off = 0x24 then s.modPwr fun p => { p with hold := keep 0x3F v }
  else if off = 0x2C then s.holdRelease (keep 0x3F v)
  else if 0xC0 ≤ off ∧ off < 0x100 then
    s.modPwr fun p =>
      { p with
        wflt := upd p.wflt (Fin.ofNat 8 ((off - 0xC0) / 8)) fun w =>
          if off % 8 = 0 then { w with a := keep 0xFFFF v } else { w with b := keep 0x80FF v } }
  else if off = 0x100 then s.modPwr fun p => { p with keepFail := p.keepFail &&& ~~~(v &&& 1) }
  else s

def State.pwrRcClear (s : State) (off : Nat) : State :=
  if off = 0x30 then s.modPwr fun p => { p with cntRefused := 0, cntAborted := 0 }
  else if off = 0x34 then s.modPwr fun p => { p with cntEntries := 0, cntEarly := 0 }
  else if 0x80 ≤ off ∧ off < 0xC0 then s.modPwr fun p => { p with refCnt := vupd p.refCnt ((off - 0x80) / 4) fun _ => 0 }
  else s

end Sys2Proof.Machine
end

