-- ==== Sys2Proof/Machine/Fabric.lean ====
section
/-! DEFINITION. The register fabric: the address map, the blocks SYS, HSC, MEAS and TMB, and loads and stores of a core
or the Deputy (spec/01_architecture.md R19, R32 to R34, R40 to R46, spec/11_crika_memory_model.md R375,
spec/02_high_side_channels.md R96, R665, spec/04_current_digitisers.md R147). -/

namespace Sys2Proof.Machine

/-! ## SYS (R5, R40, R623) -/

def State.sysRead (s : State) (off : Nat) : W32 :=
  let y := s.sys
  match off with
  | 0x00 => 0x72560B1E
  | 0x04 => 0x00000201
  | 0x08 => y.serialLo
  | 0x0C => y.serialHi
  | 0x10 => y.rstCause
  | 0x14 => pack [(0, 1, b2n s.sup.mainsOk), (1, 1, b2n s.sup.vbkOk), (2, 1, b2n s.sup.srcVbk), (3, 1, b2n s.sup.dc),
      (16, 10, s.sup.vbk)]
  | 0x18 => y.boot
  | 0x20 => pack [(0, 16, y.ceBulk), (16, 16, y.ueBulk)]
  | 0x24 => pack [(0, 16, y.ceSram), (16, 16, y.ueSram)]
  | 0x28 => y.eccAddr
  | _ => 0

/-! ## HSC common block (R96) -/

/-- A write of UV_CFG[b] reaches every powered channel island of the bank (R665). -/
def State.uvCfgWrite (s : State) (b : Fin 4) (v : W32) : State :=
  let w := keep 0x37F v
  let s1 := s.modHsc fun h => { h with uvCfg := upd h.uvCfg b fun _ => w }
  forFin 48 (fun n s =>
    s.onlyIf (bankOf n.val = b.val && s.hsUp n) fun s => s.modHs n fun h => { h with uvCfg := w }) s1

/-- ALL_OFF: an OFF command to every channel not in limp mode; `same` says that it reaches the channels in the island
cycle of their last event (R54, R56). -/
def State.hsAllOff (s : State) (same : Bool) : State :=
  forFin 48 (fun n s => s.onlyIf (s.hsUp n && !s.hs[n].limp) fun s => s.hsOffCmd n 0 same) s

def State.hscRead (s : State) (off : Nat) : W32 :=
  let c := s.hsc
  let sum (f : Hs → Bool) (b n : Nat) : W32 := BitVec.ofNat 32 (bitsOf n fun i => f (vget s.hs (b + i) Hs.init))
  if h : off < 0x10 then c.uvCfg[off / 4]'(by omega)
  else if off = 0x10 then
    BitVec.ofNat 32 (bitsOf 4 (fun b => vget c.uv b false) + 16 * bitsOf 4 fun b => vget c.bankOk b false)
  else if off = 0x20 then c.orphanCfg
  else if off = 0x28 then
    pack [(0, 1, b2n c.orphanEnd.isSome), (1, 1, b2n c.expired),
      (16, 10, match c.orphanEnd with | some t => ceilDiv (t - s.now) 100000 | none => 0)]
  else if off = 0x30 then c.parkLo
  else if off = 0x34 then c.parkHi
  else if off = 0x38 then c.parkCfg
  else if off = 0x44 then sum (fun h => hsOn h.st) 0 32
  else if off = 0x48 then sum (fun h => hsOn h.st) 32 16
  else if off = 0x4C then sum (fun h => h.fault != 0) 0 32
  else if off = 0x50 then sum (fun h => h.fault != 0) 32 16
  else 0

def State.hscWrite (s : State) (off : Nat) (v : W32) : State :=
  if s.isStopped 8 then s
  else if h : off < 0x10 then s.uvCfgWrite ⟨off / 4, by omega⟩ v
  else if off = 0x20 then s.modHsc fun h => { h with orphanCfg := keep 0x3FF v }
  else if off = 0x24 then s.onlyIf (bit v 0) State.orphanReclaim
  else if off = 0x30 then s.modHsc fun h => { h with parkLo := v }
  else if off = 0x34 then s.modHsc fun h => { h with parkHi := keep 0xFFFF v }
  else if off = 0x38 then s.modHsc fun h => { h with parkCfg := keep 1 v }
  else if off = 0x40 then s.onlyIf (bit v 0) fun s => s.hsAllOff false
  else s

/-! ## MEAS common block (R147) -/

def State.measRead (s : State) (off : Nat) : W32 :=
  let lo (f : Dig → Bool) : W32 := BitVec.ofNat 32 (bitsOf 32 fun i => f (vget s.dig i Dig.init))
  let hi (f : Dig → Bool) : W32 := BitVec.ofNat 32 (bitsOf 32 fun i => f (vget s.dig (32 + i) Dig.init))
  let ls (f : Dig → Bool) : Nat := bitsOf 3 fun i => f (vget s.dig (64 + i) Dig.init)
  let run (d : Dig) : Bool := d.cap.st == .running
  match off with
  | 0x04 => BitVec.ofNat 32 s.meas.snapTime
  | 0x08 => pack [(0, 16, s.meas.snapTime / 2 ^ 32)]
  | 0x0C => s.meas.snapDelay
  | 0x10 => lo run
  | 0x14 => hi run
  | 0x18 => lo fun d => d.calErr
  | 0x1C => hi fun d => d.calErr
  | 0x20 => pack [(0, 3, ls run), (8, 3, ls fun d => d.calErr)]
  | _ => 0

def State.measWrite (s : State) (off : Nat) (v : W32) : State :=
  if s.isStopped 9 then s
  else if off = 0 then s.snapCmd (bit v 0) (bit v 1)
  else if off = 0xC then { s with meas := { s.meas with snapDelay := keep 0x3FF v } }
  else s

/-! ## TMB (R32 to R35) -/

/-- Read for requester `r`: 0 to 3 a core, 4 the Deputy. -/
def Tmb.read (t : Tmb) (off r : Nat) : W32 :=
  match off with
  | 0x00 => BitVec.ofNat 32 t.now
  | 0x04 => pack [(0, 16, vget t.hiLatch r 0)]
  | 0x08 => pack [(0, 16, t.wraps)]
  | 0x0C => pack [(0, 1, b2n t.wrapped), (1, 1, b2n t.restarted), (2, 1, b2n t.trimLock)]
  | 0x10 => t.alarmLo
  | 0x14 => t.alarmHi
  | 0x18 => pack [(0, 1, b2n t.en), (1, 1, b2n t.fired)]
  | _ => 0

/-- The load of TIME_LO latches the upper bits for its requester (R32). -/
def Tmb.latch (t : Tmb) (off r : Nat) : Tmb :=
  if off = 0 then { t with hiLatch := vupd t.hiLatch r fun _ => t.now / 2 ^ 32 % 65536 } else t

def Tmb.write (t : Tmb) (off : Nat) (v : W32) : Tmb :=
  match off with
  | 0x0C => { t with wrapped := t.wrapped && !bit v 0, restarted := t.restarted && !bit v 1 }
  | 0x10 => { t with alarmLo := v }
  | 0x14 => { t with alarmHi := keep 0xFFFF v }
  | 0x18 => { t with en := bit v 0, fired := t.fired && !bit v 1 }
  | _ => t

/-- The alarm value. -/
def Tmb.alarm (t : Tmb) : Nat := t.alarmLo.toNat + 2 ^ 32 * (t.alarmHi.toNat % 65536)

/-- The alarm fires, at the first count at or past its value, and requests a wake (R34, R35, R588). -/
def State.tmbAlarm (s : State) : State :=
  if s.tmb.en && s.tmbRuns then
    let s1 := s.advanceTo (s.now - s.count + s.tmb.alarm)
    ((s1.modTmb fun t => { t with en := false, fired := true }).emit 0 0x01 (BitVec.ofNat 32 s1.now)).wakeReq 8
  else s

/-- The count wraps to zero (R29). -/
def State.tmbWrap (s : State) : State := s.advanceTo ((s.now / 2 ^ 48 + 1) * 2 ^ 48)

/-! ## The address map (R42) -/

/-- The island of the register at offset `off` of block `b`; offsets of no channel's block are the HUB's. -/
def regIsland (b off : Nat) : Nat :=
  match b with
  | 0x00 => 1
  | 0x01 => 0
  | 0x03 => if off < 0x3000 then 24 + off / 0x100 else 2
  | 0x07 => vlvIsland off
  | 0x08 => lmpIsland off
  | 0x09 => lchIsland off
  | 0x0A => 0
  | 0x0B => 5
  | 0x0C => 6
  | 0x0D => 7
  | 0x0E => 8
  | 0x0F => 0
  | 0x10 => 4
  | 0x11 => 1
  | 0x12 => 1
  | 0x13 => 1
  | 0x14 => 0
  | 0x15 => 3
  | _ => 2

/-- The value a register shows to requester `r`, without side effects (R9, R19). -/
def State.regPeek (s : State) (b off r : Nat) : W32 :=
  match b with
  | 0x00 => s.sysRead off
  | 0x01 => s.pwrRead off
  | 0x02 => s.hscRead off
  | 0x03 => if h : off < 0x3000 then s.hsRead ⟨off / 0x100, by omega⟩ (off % 0x100) else 0
  | 0x04 => s.admRead off (if h : r < 4 then some ⟨r, h⟩ else none)
  | 0x05 => s.measRead off
  | 0x06 => s.curve.read off
  | 0x07 => s.vlvRead off
  | 0x08 => s.lmpRead off
  | 0x09 => s.lchRead off
  | 0x0A => s.inp.read off
  | 0x0B => s.can[(0 : Fin 4)].read off
  | 0x0C => s.can[(1 : Fin 4)].read off
  | 0x0D => s.can[(2 : Fin 4)].read off
  | 0x0E => s.can[(3 : Fin 4)].read off
  | 0x0F => s.nmRead off
  | 0x10 => s.plk.read off
  | 0x11 => s.hp.read off
  | 0x12 => s.pmc.read off r
  | 0x13 => s.que.read off
  | 0x14 => s.tmb.read off r
  | 0x15 => s.mbxRead off
  | _ => 0

/-- A store of core `c` into block `b`. -/
def State.regPut (s : State) (c : Fin 4) (b off : Nat) (v : W32) : State :=
  match b with
  | 0x01 => s.pwrWrite off v
  | 0x02 => s.hscWrite off v
  | 0x03 => if h : off < 0x3000 then s.hsWrite ⟨off / 0x100, by omega⟩ (off % 0x100) v else s
  | 0x04 => s.admWrite c off v
  | 0x05 => s.measWrite off v
  | 0x06 => s.curveBlockWrite off v
  | 0x07 => s.vlvWrite off v
  | 0x08 => s.lmpWrite off v
  | 0x09 => s.lchWrite off v
  | 0x0A => s.inpWrite off v
  | 0x0B => s.canWrite 0 off v
  | 0x0C => s.canWrite 1 off v
  | 0x0D => s.canWrite 2 off v
  | 0x0E => s.canWrite 3 off v
  | 0x0F => s.nmWrite off v
  | 0x10 => s.plkWrite off v
  | 0x11 => s.hpWrite off v
  | 0x12 => s.pmcWrite off v
  | 0x13 => s.queWrite off v
  | 0x14 => s.modTmb fun t => t.write off v
  | 0x15 => s.mbxWrite c off v
  | _ => s

/-- The peak of a digitiser is read and cleared (R146). -/
def State.peakClear (s : State) (t : Fin 67) : State := s.modDig t fun d => { d with peak := 0 }

/-- What a core's load changes beside its value: RC fields clear (R10), and LO halves latch for the requester. -/
def State.regAfter (s : State) (c : Fin 4) (b off : Nat) : State :=
  match b with
  | 0x00 =>
    if off = 0x20 then s.modSys fun y => { y with ceBulk := 0, ueBulk := 0 }
    else if off = 0x24 then s.modSys fun y => { y with ceSram := 0, ueSram := 0 }
    else s
  | 0x01 => s.pwrRcClear off
  | 0x03 => if h : off < 0x3000 ∧ off % 0x100 = 0x94 then s.peakClear ⟨off / 0x100, by omega⟩ else s
  | 0x04 =>
    if off = 0x18 then s.modAdm fun a => { a with cntFull := 0, cntDropped := 0 }
    else if off = 0x1C then s.modAdm fun a => { a with cntRefused := 0, cntShed := 0 }
    else s
  | 0x07 =>
    if h : 0x100 ≤ off ∧ off < 0x200 ∧ off % 0x40 = 0x18 then
      s.modVg ⟨(off - 0x100) / 0x40, by omega⟩ fun g => { g with cntDefer := 0, cntBusy := 0 }
    else if h : 0x1000 ≤ off ∧ off < 0x2000 ∧ off % 0x100 = 0x94 then s.peakClear ⟨48 + (off - 0x1000) / 0x100, by omega⟩
    else s
  | 0x08 =>
    if h : 0x1000 ≤ off ∧ off < 0x1300 ∧ off % 0x100 = 0x94 then s.peakClear ⟨64 + (off - 0x1000) / 0x100, by omega⟩
    else s
  | 0x09 =>
    if h : off < 0x8000 then
      let k : Fin 8 := ⟨off / 0x1000, by omega⟩
      if off % 0x1000 = 0x50 then s.modLc k fun c => { c with chgLost := 0 }
      else if off % 0x1000 = 0x54 then s.modLc k fun c => { c with cntBreaks := 0, cntOther := 0 }
      else s
    else s
  | 0x0B => s.modCan 0 fun x => x.rcClear off
  | 0x0C => s.modCan 1 fun x => x.rcClear off
  | 0x0D => s.modCan 2 fun x => x.rcClear off
  | 0x0E => s.modCan 3 fun x => x.rcClear off
  | 0x0F => s.nmRcClear off
  | 0x10 => s.modPlk fun p => p.rcClear off
  | 0x11 => s.modHp fun h => h.rcClear off
  | 0x12 => s.modPmc fun p => (p.rcClear off).latch off c.val
  | 0x13 => if h : off < 0x400 ∧ off % 0x20 = 0x18 then s.modQ ⟨off / 0x20, by omega⟩ fun x => { x with cntOvf := 0, cntUnd := 0 }
      else s
  | 0x14 => s.modTmb fun t => t.latch off c.val
  | _ => s

/-- A core's load: its value and the state after; the load of a queue's POP pops it (R404). -/
def State.regTake (s : State) (c : Fin 4) (b off : Nat) : W32 × State :=
  if h : b = 0x13 ∧ off < 0x400 ∧ off % 0x20 = 0x08 then s.queFwPop ⟨off / 0x20, by omega⟩
  else (s.regPeek b off c.val, s.regAfter c b off)

/-! ## Accesses -/

/-- An access of core `c` is served: fabric and core counters (spec/13_performance_counters.md R421, R422); the cycles
it waits are free (R16). -/
def State.served (s : State) (c : Fin 4) : State :=
  let k := s.core[c].k
  let d := s.draw 16
  let e := d.2.draw 16
  (((e.2.fabCount 0x02 c.val 1).fabCount 0x03 c.val e.1).coreCount c 0x07 1 k).coreCount c 0x08 d.1 k

/-- The hub answers with a bus fault (R375). -/
def State.unserved (s : State) (c : Fin 4) : State :=
  ((({ s with answer := .busFault } : State)).fabCount 0x04 c.val 1).coreCount c 0x12 1 s.core[c].k

/-- A store of core `c` to a register of island `isl`, with its effect `f`. A core whose island is in reset or whose
clock is stopped makes none. -/
def State.store (s : State) (c : Fin 4) (isl : Nat) (f : State → State) : State :=
  if !s.coreRuns then s
  else if s.isUp isl then { (f (s.served c)) with answer := .done }
  else s.unserved c

/-- The programmable counter at an offset of the PMC block, numbered as in R437. -/
def cntAt (off : Nat) : Option Nat :=
  if 0x100 ≤ off ∧ off < 0x200 ∧ 6 ≤ off % 0x40 / 4 ∧ off % 0x40 / 4 < 12 then
    some (6 * ((off - 0x100) / 0x40) + (off % 0x40 / 4 - 6))
  else if 0x240 ≤ off ∧ off < 0x280 then some (32 + (off - 0x240) / 4)
  else none

/-- A store of core `c` to offset `off` of block `b`; R43 faults an offset that is not a multiple of 4. What the store
itself counts falls in the cycle of its write: a counter that it writes keeps the value written (R424). -/
def State.storeReg (s : State) (c : Fin 4) (b off : Nat) (v : W32) : State :=
  match (if b = 0x12 then cntAt off else none) with
  | none => s.store c (regIsland b off) fun s => s.regPut c b off v
  | some i =>
    ((s.modPmc fun p => { p with wrote := some i }).store c (regIsland b off) fun s => s.regPut c b off v).modPmc
      fun p => { p with wrote := none, lastWrote := if s.coreRuns then some (i, s.now) else p.lastWrote }

/-- A load of core `c`. -/
def State.loadReg (s : State) (c : Fin 4) (b off : Nat) : State :=
  if !s.coreRuns then s
  else if s.isUp (regIsland b off) then
    let r := (s.served c).regTake c b off
    { r.2 with answer := .value r.1 }
  else s.unserved c

/-- A read of the Deputy changes nothing but its own latches and the answer (R19). -/
def State.depRead (s : State) (b off : Nat) : State :=
  if !s.depUp then s
  else if s.isUp (regIsland b off) && (regIsland b off != 1 || !s.sup.coreReset) then
    let d := s.draw 16
    let s1 : State := { ((d.2.fabCount 0x02 4 1).fabCount 0x03 4 d.1) with answer := .value (s.regPeek b off 4) }
    if b = 0x14 then s1.modTmb fun t => t.latch off 4
    else if b = 0x12 then s1.modPmc fun p => p.latch off 4
    else s1
  else { (s.fabCount 0x04 4 1) with answer := .busFault }

end Sys2Proof.Machine
end

