-- ==== Sys2Proof/Machine/Flags.lean ====
section
/-! DEFINITION. The flag computations of Crika v2 (spec/10_crika_isa.md R339, R348 to R350). -/

namespace Sys2Proof.Machine

/-- A result with its flags. -/
structure Alu (w : Nat) where
  res : BitVec w
  z : Bool
  n : Bool
  c : Bool
  v : Bool
deriving DecidableEq, Repr

/-- Flags as the four low bits of SW. -/
def flagBits (z n c v : Bool) : W16 := BitVec.ofNat 16 (b2n z + 2 * b2n n + 4 * b2n c + 8 * b2n v)

/-- SW with its flags replaced (R339). -/
def putFlags (sw f : W16) : W16 := (sw &&& 0xFFF0#16) ||| (f &&& 0x000F#16)

/-- All four flags of a result into SW. -/
def Alu.into {w : Nat} (a : Alu w) (sw : W16) : W16 := putFlags sw (flagBits a.z a.n a.c a.v)

/-- Z and N come from the result. -/
def Alu.of {w : Nat} (res : BitVec w) (c v : Bool) : Alu w :=
  { res := res, z := res == 0#w, n := res.msb, c := c, v := v }

/-- add(x, y, cin) of R348. -/
def addF {w : Nat} (x y : BitVec w) (cin : Bool) : Alu w :=
  let res := x + y + BitVec.ofNat w (b2n cin)
  Alu.of res (decide (2 ^ w ≤ x.toNat + y.toNat + b2n cin)) (x.msb == y.msb && res.msb != x.msb)

/-- sub(x, y, bin) of R348: C is 1 when there is no borrow. -/
def subF {w : Nat} (x y : BitVec w) (bin : Bool) : Alu w :=
  let res := x - y - BitVec.ofNat w (b2n bin)
  Alu.of res (decide (y.toNat + b2n bin ≤ x.toNat)) (x.msb != y.msb && res.msb != x.msb)

/-- A logic operation leaves C and V as SW holds them. -/
def logicF (sw : W16) (res : W16) : Alu 16 := Alu.of res (sw.getLsbD 2) (sw.getLsbD 3)

/-- Shifts by `n`, 0 to 16: C is the last bit shifted out, 0 for an amount of 0. -/
def shlF (x : W16) (n : Nat) : Alu 16 := Alu.of (x <<< n) (decide (0 < n) && x.getLsbD (16 - n)) false

def shrF (x : W16) (n : Nat) : Alu 16 := Alu.of (x >>> n) (decide (0 < n) && x.getLsbD (n - 1)) false

def sarF (x : W16) (n : Nat) : Alu 16 := Alu.of (x.sshiftRight n) (decide (0 < n) && x.getLsbD (n - 1)) false

/-- MUL and MULS: Z and N on 32 bits, C and V 0 (R349). -/
def mulF (x y : W16) : Alu 32 := Alu.of (x.setWidth 32 * y.setWidth 32) false false

def mulsF (x y : W16) : Alu 32 := Alu.of (x.signExtend 32 * y.signExtend 32) false false

/-- DIV and DIVS: quotient with its flags, and remainder (R349, R350). -/
def divF (x y : W16) : Alu 16 × W16 := (Alu.of (x / y) false false, x % y)

def divsF (x y : W16) : Alu 16 × W16 :=
  (Alu.of (x.sdiv y) false (x == 0x8000#16 && y == 0xFFFF#16), x.srem y)

end Sys2Proof.Machine
end

