-- ==== Sys2Proof/Machine/Operands.lean ====
section
/-! DEFINITION. Operand forms of Crika v2: conditions, immediates, addresses, branch targets and the segment check
(spec/10_crika_isa.md R345 to R347, R351; spec/11_crika_memory_model.md R369, R372). -/

namespace Sys2Proof.Machine

/-- The condition of a word, on SW and RC as they stand before it (R346, R347). -/
def Core.cond (k : Core) (code : BitVec 4) : Bool :=
  match code.toNat with
  | 0 => k.z
  | 1 => !k.z
  | 2 => k.cf
  | 3 => !k.cf
  | 4 => k.cf && !k.z
  | 5 => !k.cf || k.z
  | 6 => k.n == k.v
  | 7 => k.n != k.v
  | 8 => !k.z && k.n == k.v
  | 9 => k.z || k.n != k.v
  | 10 => k.n
  | 11 => !k.n
  | 12 => k.v
  | 13 => !k.v
  | 14 => true
  | _ => k.rc == 0

/-- A register named by a five-bit field. -/
def Core.reg (k : Core) (r : BitVec 5) : W16 := k.rd r.toFin
def Core.pair (k : Core) (r : BitVec 5) : W32 := k.rdPair r.toFin
def Core.setReg (k : Core) (r : BitVec 5) (v : W16) : Core := k.wr r.toFin v
def Core.setPair (k : Core) (r : BitVec 5) (v : W32) : Core := k.wrPair r.toFin v

/-- A register number that cannot name a pair (R340). -/
def odd (r : BitVec 5) : Bool := r.getLsbD 0

/-- Format i, sign-extended and zero-extended. -/
def immS (i : BitVec 11) : W16 := i.signExtend 16
def immZ (i : BitVec 11) : W16 := i.setWidth 16

/-- Format m: the offset, and the value a post-increment form writes back (R351). -/
def Core.ea (k : Core) (ra : BitVec 5) (d : BitVec 8) : W16 := k.reg ra + d.signExtend 16

/-- Format b: the target of a branch (R349). -/
def Core.target (k : Core) (b : BitVec 14) : W16 := k.pc + (b.signExtend 16 <<< 2)

/-- Fetch, load or store (R372); the codes of ECAUSE.KIND (R395). -/
inductive Kind where
  | fetch | load | store
deriving DecidableEq, Repr

def Kind.code : Kind → Nat
  | .fetch => 0
  | .load => 1
  | .store => 2

/-- The segment check of R372 passes for `size` bytes at offset `a`. -/
def Core.segOk (k : Core) (n : Fin 8) (a : W16) (size : Nat) (kind : Kind) : Bool :=
  let d := k.seg[n].d
  let perm := match kind with
    | .fetch => d.attr.getLsbD 2
    | .load => d.attr.getLsbD 0
    | .store => d.attr.getLsbD 1
  decide (a.toNat + size - 1 ≤ d.limit.toNat) && perm && (k.k || !d.attr.getLsbD 3) &&
    !(!k.k && n.val = 0 && decide (a.toNat < k.kbound.toNat))

/-- The physical address (R372). -/
def Core.phys (k : Core) (n : Fin 8) (a : W16) : Nat := (k.seg[n].d.base.toNat + a.toNat) % 2 ^ 28

/-! ## The return stack (R377, R378) -/

/-- DEPTH; a written value above 16 acts as 16. -/
def Core.depth (k : Core) : Nat := min 16 k.rsDepth.toNat

/-- A push; `none` where it raises RSTACK. -/
def Core.push (k : Core) (v : W16) : Option Core :=
  if k.depth = 16 && k.rsMode then none
  else
    let t := k.rsTop + 1
    some
      { k with
        rsTop := t, rs := upd k.rs (Fin.ofNat 16 t.toNat) fun _ => v, rsDepth := BitVec.ofNat 5 (min 16 (k.depth + 1)),
        rsOvf := k.rsOvf || decide (k.depth = 16) }

/-- A pop; `none` where it raises RSTACK. -/
def Core.pop (k : Core) : Option (W16 × Core) :=
  if k.depth = 0 && k.rsMode then none
  else
    some (k.rs[Fin.ofNat 16 k.rsTop.toNat],
      { k with
        rsTop := k.rsTop - 1, rsDepth := BitVec.ofNat 5 (k.depth - 1), rsUnf := k.rsUnf || decide (k.depth = 0) })

end Sys2Proof.Machine
end

