-- ==== Sys2Proof/Machine/CoreRun.lean ====
section
/-! DEFINITION. How a Crika core runs one word: fetch, memory and register accesses, exceptions, trap and interrupt
entry, repetition, counters and tags (spec/10_crika_isa.md R342 to R365, spec/11_crika_memory_model.md R372 to R392). -/

namespace Sys2Proof.Machine

/-! ## Exceptions (R365) -/

/-- Why a word does not complete. -/
inductive Trap where
  | illegal
  | hazard
  | priv
  | seg (n : Fin 8) (kind : Kind) (a : W16)
  | bus (n : Fin 8) (kind : Kind) (a : W16) (phys : Nat)
  /-- BUS of a JMP or CALLR target that is not a multiple of 4. -/
  | target (a : W16)
  | div0
  | rstack (arg : Nat)
  | trap (n : BitVec 8)
deriving DecidableEq, Repr

/-- Vector number (R388). -/
def Trap.vec : Trap → Nat
  | .illegal => 0
  | .hazard => 1
  | .priv => 2
  | .seg _ _ _ => 3
  | .bus _ _ _ _ => 4
  | .target _ => 4
  | .div0 => 5
  | .rstack _ => 6
  | .trap _ => 7

/-- EARG (R395). -/
def Trap.arg : Trap → W16
  | .seg _ _ a => a
  | .bus _ _ a _ => a
  | .target a => a
  | .rstack n => BitVec.ofNat 16 n
  | .trap n => n.setWidth 16
  | _ => 0

/-- ECAUSE.SEG and ECAUSE.KIND (R395). -/
def Trap.segNo : Trap → Nat
  | .seg n _ _ => n.val
  | .bus n _ _ _ => n.val
  | _ => 0

def Trap.kind : Trap → Nat
  | .seg _ k _ => k.code
  | .bus _ k _ _ => k.code
  | _ => 3

/-- How the execution of a word ends. -/
inductive WordEnd where
  /-- It completes, and the next word follows. -/
  | done (s : State)
  /-- It completes and has set PC and the repetition itself. -/
  | jump (s : State)
  | trap (s : State) (t : Trap)
  /-- An access to bulk memory has to wait (spec/18_power_states.md R600). -/
  | stall

/-! ## Memory access (R352, R372, R373) -/

/-- The address map lets an access of `size` bytes through (R7, R36 to R38). -/
def mapOk (p size : Nat) (kind : Kind) : Bool :=
  if isFlash p then kind != .store
  else if isSram p || isBulk p then true
  else isReg p && size == 4 && kind != .fetch

/-- Segment check, then alignment and address map: the physical address, or the exception. -/
def Core.place (k : Core) (n : Fin 8) (a : W16) (size : Nat) (kind : Kind) : Trap ⊕ Nat :=
  if !k.segOk n a size kind then .inl (.seg n kind a)
  else if a.toNat % size ≠ 0 || !mapOk (k.phys n a) size kind then .inl (.bus n kind a (k.phys n a))
  else .inr (k.phys n a)

/-- Core counters of an access to bulk memory, whose wait is free (R421). -/
def State.bulkServed (s : State) (c : Fin 4) : State :=
  let k := s.core[c].k
  let d := s.draw 16
  (d.2.coreCount c 0x09 1 k).coreCount c 0x0A d.1 k

/-- What is counted beside an access to `p`: bulk memory, or a load from code flash. -/
def State.memServed (s : State) (c : Fin 4) (p : Nat) (kind : Kind) : State :=
  if isBulk p then s.bulkServed c
  else if isFlash p && kind == .load then s.coreCount c 0x0C 1 s.core[c].k
  else s

/-- A load by core `c`. -/
def State.coreLoad (s : State) (c : Fin 4) (n : Fin 8) (a : W16) (size : Nat) (f : W32 → State → State) : WordEnd :=
  match s.core[c].place n a size .load with
  | .inl t => .trap s t
  | .inr p =>
    if isReg p then
      let s1 := s.loadReg c ((p - regBase) / 65536) (p % 65536)
      match s1.answer with
      | .value v => .done (f v s1)
      | _ => .trap s1 (.bus n .load a p)
    else if isBulk p && !s.bulkOk then .stall
    else
      let r := (s.memServed c p .load).loadBytes p size c.val
      if r.1 then .done (f (BitVec.ofNat 32 r.2.1) r.2.2)
      else .trap (r.2.2.onlyIf (isBulk p) fun s => s.fabCount 0x04 c.val 1) (.bus n .load a p)

/-- A store by core `c`. -/
def State.coreStore (s : State) (c : Fin 4) (n : Fin 8) (a : W16) (size : Nat) (v : W32) (f : State → State) : WordEnd :=
  match s.core[c].place n a size .store with
  | .inl t => .trap s t
  | .inr p =>
    if isReg p then
      let s1 := s.storeReg c ((p - regBase) / 65536) (p % 65536) v
      if s1.answer = .done then .done (f s1) else .trap s1 (.bus n .store a p)
    else if isBulk p && !s.bulkOk then .stall
    else
      let r := (s.memServed c p .store).storeBytes p v.toNat size c.val
      if r.1 then .done (f r.2)
      else .trap (r.2.onlyIf (isBulk p) fun s => s.fabCount 0x04 c.val 1) (.bus n .store a p)

/-! ## Words -/

/-- One word as a core executes it. -/
structure CoreOp where
  /-- Its 32 bits (R343, R344). -/
  word : W32
  cond : BitVec 4
  /-- ILLEGAL or PAIR_HAZARD, raised whatever the condition (R347). -/
  bad : Option Trap
  /-- It raises PRIV at task privilege. -/
  priv : Bool
  isPair : Bool
  /-- It is one of B, CALL, JMP, CALLR, RET, RETI. -/
  transfer : Bool
  /-- Core cycles of R366, an access that leaves the CORE island aside. -/
  cycles : Nat
  /-- A load or store: segment, offset, whether it is a store. -/
  data : Core → Option (Fin 8 × W16 × Bool)
  /-- What it does when its condition holds. -/
  run : Fin 4 → State → WordEnd

/-- A word that raises ILLEGAL whatever else it says. -/
def illegalOp (w : W32) : CoreOp :=
  { word := w, cond := (w >>> 27).setWidth 4, bad := some .illegal, priv := false, isPair := w.getLsbD 31,
    transfer := false, cycles := 1, data := fun _ => none, run := fun _ s => .trap s .illegal }

/-! ## Entry (R388 to R391) -/

/-- SW after entry: K and TS set, IE clear, the flags and LVL kept but for the LVL an interrupt gives. -/
def entrySw (sw : W16) (lvl : Option Nat) : W16 :=
  let l := match lvl with
    | some n => BitVec.ofNat 16 (n % 32 * 128)
    | none => sw &&& 0x0F80#16
  (sw &&& 0x000F#16) ||| l ||| 0x0050#16

/-- Entry of core `c` through vector `vec`. -/
def State.enter (s : State) (c : Fin 4) (vec : Nat) (epc erpt : W16) (rpt : Bool) (segNo kind : Nat) (arg : W16)
    (ephys : Nat) (lvl : Option Nat) : State :=
  s.modCore c fun k =>
    { k with
      esw := k.sw, epc := epc, erpt := erpt,
      ecause := BitVec.ofNat 16 (vec + 32 * segNo + 256 * kind + 32768 * b2n rpt), earg := arg,
      ephys := BitVec.ofNat 28 ephys, sw := entrySw k.sw lvl, seg0Pend := none,
      pc := k.vbase + BitVec.ofNat 16 (4 * vec), rptOn := false, rpt := 0, stalled := false }

/-- EPHYS of an entry that is no bus fault with an address of its own: free (log entry 5). -/
def Trap.ephys (t : Trap) (s : State) : Nat × State :=
  match t with
  | .bus _ _ _ p => (p, s)
  | _ => s.draw 28

/-- EPC of an exception: TRAP saves the offset after it (R390). -/
def Trap.epc (t : Trap) (k : Core) : W16 :=
  match t with
  | .trap _ => k.pc + 4
  | _ => k.pc

/-- ECAUSE.RPT and ERPT: an exception in an iteration (R390). -/
def Trap.rpt (t : Trap) (k : Core) : Bool :=
  match t with
  | .trap _ => false
  | _ => k.rptOn

/-- Core `c` takes an exception; with TS at 1 it stops and reports CORE_HALT (R391, R396). -/
def State.coreTrap (s : State) (c : Fin 4) (t : Trap) : State :=
  let k := s.core[c]
  if k.ts then
    (s.modCore c fun k => { k with halted := true, stalled := false }).emit 1 0x50
      (pack [(0, 2, c.val), (3, 5, t.vec), (16, 16, (t.epc k).toNat)])
  else
    let e := t.ephys s
    (e.2.enter c t.vec (t.epc k) (if t.rpt k then k.rpt else 0) (t.rpt k) t.segNo t.kind t.arg e.1 none).coreCount c
      0x0D 1 k.k

/-- Core `c` takes the interrupt of line `l` (R385, R389, R390). -/
def State.intEntry (s : State) (c : Fin 4) (l : Nat) : State :=
  let k := s.core[c]
  let d := s.draw 28
  (d.2.enter c (16 + l) k.pc (if k.rptOn then k.rpt else 0) k.rptOn 0 0 0 d.1 (some (l + 1))).coreCount c 0x0E 1 k.k

/-! ## Completion -/

/-- PC and the repetition after a word that transfers no control (R342, R358). -/
def Core.next (k : Core) (was : Core) : Core :=
  if was.rptOn then
    if was.rpt.toNat ≤ 1 then { k with pc := was.pc + 4, rptOn := false, rpt := 0 } else { k with rpt := was.rpt - 1 }
  else { k with pc := was.pc + 4 }

/-- Counters of a completed word (R419, R421): `k` is the core before it, `pass` its condition. -/
def State.retire (s : State) (c : Fin 4) (k : Core) (op : CoreOp) (pass : Bool) : State :=
  let n := s.pmc.ret[c] + 1
  let s1 := (s.modCore c fun k => { k with stalled := false }).modPmc fun p => { p with ret := upd p.ret c fun _ => n % 2 ^ 48 }
  let s2 := s1.onlyIf (2 ^ 48 ≤ n) fun s => s.pmcWrap (28 + c.val) true
  let s3 := (s2.coreCount c 0x02 1 k.k).onlyIf op.isPair fun s => s.coreCount c 0x03 1 k.k
  let s4 := (s3.onlyIf (!pass) fun s => s.coreCount c 0x04 1 k.k).onlyIf k.rptOn fun s => s.coreCount c 0x05 1 k.k
  let s5 := s4.onlyIf (op.transfer && pass) fun s => s.coreCount c 0x06 1 k.k
  s5.onlyIf (pass && 1 < op.cycles && !op.transfer) fun s => s.coreCount c 0x0B (op.cycles - 1) k.k

/-- Target code of a physical address in a tag record (R434). -/
def tagTarget (p : Nat) : Nat := if isSram p then 0 else if isBulk p then 1 else if isReg p then 2 else 3

/-- The record of a tagged word (R434): `s0` and `k` before the word, at physical address `p`; the cycles are those of
R366 and the free wait of an access that left the island. -/
def State.tagWords (s : State) (s0 : State) (c : Fin 4) (k : Core) (p : Nat) (op : CoreOp) (pass : Bool)
    (vec : Option Nat) : List W32 :=
  let dat : Option (Nat × Bool) :=
    if pass && op.bad.isNone then (op.data k).map fun x => (k.phys x.1 x.2.1, x.2.2) else none
  let wait := match dat with
    | some (a, _) => if tagTarget a = 1 || tagTarget a = 2 then (s0.draw 16).1 else 0
    | none => 0
  let cyc := match dat with
    | some (a, _) => if tagTarget a = 3 then 4 else op.cycles + wait
    | none => if pass then op.cycles else 1
  [BitVec.ofNat 32 s.count,
    pack [(0, 16, s.count / 2 ^ 32), (16, 2, c.val), (18, 1, b2n op.isPair), (19, 1, b2n (!pass)),
      (20, 1, b2n k.rptOn), (21, 1, b2n vec.isSome), (22, 5, vec.getD 0), (27, 1, b2n k.k)],
    pack [(0, 16, k.pc.toNat), (16, 16, if k.rptOn then k.rpt.toNat else 0)], pack [(0, 28, p)], op.word,
    pack [(0, 16, satN 16 cyc), (16, 16, satN 16 wait)],
    (match dat with
      | some (a, st) => pack [(0, 28, a), (28, 1, 1), (29, 1, b2n st), (30, 2, tagTarget a)]
      | none => 0),
    pack [(0, 16, k.sw.toNat), (16, 16, s.pmc.tag[c].seq)]]

/-- A tag in flight ends with its word. -/
def State.tagEnd (s : State) (s0 : State) (c : Fin 4) (k : Core) (p : Nat) (op : CoreOp) (pass : Bool)
    (vec : Option Nat) : State :=
  s.onlyIf s.pmc.tag[c].inFlight fun s => s.tagPush c (s.tagWords s0 c k p op pass vec)

/-- Core `c` executes a fetched word from address `p`: ILLEGAL and PAIR_HAZARD, condition, PRIV, then the operation
(R347, R365). -/
def State.wordRun (s : State) (c : Fin 4) (p : Nat) (op : CoreOp) : State :=
  let k := s.core[c]
  let s1 := s.tagIssue c
  let pass := k.cond op.cond
  let e : WordEnd := match op.bad with
    | some t => .trap s1 t
    | none => if !pass then .done s1 else if op.priv && !k.k then .trap s1 .priv else op.run c s1
  match e with
  | .stall => { (s.modCore c fun k => { k with stalled := true }) with answer := .stall }
  | .trap s2 t => (s2.coreTrap c t).tagEnd s1 c k p op pass (some t.vec)
  | .done s2 => ((s2.modCore c fun x => x.next k).retire c k op pass).tagEnd s1 c k p op pass none
  | .jump s2 => (s2.retire c k op pass).tagEnd s1 c k p op pass none

/-- Core `c` comes to its next word boundary: it takes the interrupt it may accept, or fetches the word at PC and
executes what `f` makes of the address (R342, R373, R385, R386). -/
def State.coreStep (s : State) (c : Fin 4) (f : Nat → State → CoreOp) : State :=
  let k := s.core[c]
  if !(s.coreRuns && k.clocked) then s
  else
    match (if k.stalled then none else k.accept) with
    | some l => s.intEntry c l
    | none =>
      match k.place 0 k.pc 4 .fetch with
      | .inl t => s.coreTrap c t
      | .inr p =>
        if isBulk p && !s.bulkOk then { (s.modCore c fun k => { k with stalled := true }) with answer := .stall }
        else
          let r := (s.memServed c p .fetch).eccRead p c.val
          if r.1 then r.2.wordRun c p (f p r.2)
          else (r.2.onlyIf (isBulk p) fun s => s.fabCount 0x04 c.val 1).coreTrap c (.bus 0 .fetch k.pc p)

/-- Core `c` executes the word `op`: a command row that is an instruction. -/
def State.coreRun (s : State) (c : Fin 4) (op : CoreOp) : State := s.coreStep c fun _ _ => op

end Sys2Proof.Machine
end

