-- ==== Sys2Proof/Machine/CoreAlu.lean ====
section
/-! DEFINITION. The arithmetic, logic and shift words and the pair word of Crika v2 (spec/10_crika_isa.md R343 to R357).
Each `op…` is one word with its operands. -/

namespace Sys2Proof.Machine

/-! ## Word layouts (R343 to R345) -/

/-- Long form: condition, opcode, RD, RA, operand field. -/
def wordL (cond : BitVec 4) (op : BitVec 6) (rd ra : BitVec 5) (x : BitVec 11) : W32 :=
  0#1 ++ cond ++ op ++ rd ++ ra ++ x

/-- Operand field of formats r and q. -/
def fieldR (rb : BitVec 5) : BitVec 11 := 0#6 ++ rb
def fieldQ (q : BitVec 4) : BitVec 11 := 0#7 ++ q

/-- Pair form. -/
def wordP (cond : BitVec 4) (a b : BitVec 13) : W32 := 1#1 ++ cond ++ 0#1 ++ a ++ b

/-! ## Shapes -/

/-- ILLEGAL when a register that must name a pair is odd (R340). -/
def badIf (b : Bool) : Option Trap := if b then some .illegal else none

/-- A word that changes only its core, in one cycle unless said otherwise. -/
def coreOp (word : W32) (cond : BitVec 4) (bad : Option Trap) (cycles : Nat) (f : Core → Core) : CoreOp :=
  { word := word, cond := cond, bad := bad, priv := false, isPair := false, transfer := false, cycles := cycles,
    data := fun _ => none, run := fun c s => .done (s.modCore c f) }

/-- rd := result, with all four flags. -/
def Core.putAlu (k : Core) (rd : BitVec 5) (a : Alu 16) : Core :=
  { (k.setReg rd a.res) with sw := a.into k.sw }

def Core.putAlu32 (k : Core) (rd : BitVec 5) (a : Alu 32) : Core :=
  { (k.setPair rd a.res) with sw := a.into k.sw }

/-- Only the flags change. -/
def Core.putCmp {w : Nat} (k : Core) (a : Alu w) : Core := { k with sw := a.into k.sw }

/-! ## Arithmetic -/

def opAdd (cond : BitVec 4) (rd ra rb : BitVec 5) : CoreOp :=
  coreOp (wordL cond 0x00 rd ra (fieldR rb)) cond none 1 fun k => k.putAlu rd (addF (k.reg ra) (k.reg rb) false)

def opAddi (cond : BitVec 4) (rd ra : BitVec 5) (i : BitVec 11) : CoreOp :=
  coreOp (wordL cond 0x01 rd ra i) cond none 1 fun k => k.putAlu rd (addF (k.reg ra) (immS i) false)

def opAdc (cond : BitVec 4) (rd ra rb : BitVec 5) : CoreOp :=
  coreOp (wordL cond 0x02 rd ra (fieldR rb)) cond none 1 fun k => k.putAlu rd (addF (k.reg ra) (k.reg rb) k.cf)

def opSub (cond : BitVec 4) (rd ra rb : BitVec 5) : CoreOp :=
  coreOp (wordL cond 0x03 rd ra (fieldR rb)) cond none 1 fun k => k.putAlu rd (subF (k.reg ra) (k.reg rb) false)

def opSbc (cond : BitVec 4) (rd ra rb : BitVec 5) : CoreOp :=
  coreOp (wordL cond 0x04 rd ra (fieldR rb)) cond none 1 fun k => k.putAlu rd (subF (k.reg ra) (k.reg rb) !k.cf)

def opCmp (cond : BitVec 4) (ra rb : BitVec 5) : CoreOp :=
  coreOp (wordL cond 0x05 0 ra (fieldR rb)) cond none 1 fun k => k.putCmp (subF (k.reg ra) (k.reg rb) false)

def opCmpi (cond : BitVec 4) (ra : BitVec 5) (i : BitVec 11) : CoreOp :=
  coreOp (wordL cond 0x06 0 ra i) cond none 1 fun k => k.putCmp (subF (k.reg ra) (immS i) false)

/-! ## Logic -/

def opAnd (cond : BitVec 4) (rd ra rb : BitVec 5) : CoreOp :=
  coreOp (wordL cond 0x07 rd ra (fieldR rb)) cond none 1 fun k => k.putAlu rd (logicF k.sw (k.reg ra &&& k.reg rb))

def opAndi (cond : BitVec 4) (rd ra : BitVec 5) (i : BitVec 11) : CoreOp :=
  coreOp (wordL cond 0x08 rd ra i) cond none 1 fun k => k.putAlu rd (logicF k.sw (k.reg ra &&& immZ i))

def opOr (cond : BitVec 4) (rd ra rb : BitVec 5) : CoreOp :=
  coreOp (wordL cond 0x09 rd ra (fieldR rb)) cond none 1 fun k => k.putAlu rd (logicF k.sw (k.reg ra ||| k.reg rb))

def opOri (cond : BitVec 4) (rd ra : BitVec 5) (i : BitVec 11) : CoreOp :=
  coreOp (wordL cond 0x0A rd ra i) cond none 1 fun k => k.putAlu rd (logicF k.sw (k.reg ra ||| immZ i))

def opXor (cond : BitVec 4) (rd ra rb : BitVec 5) : CoreOp :=
  coreOp (wordL cond 0x0B rd ra (fieldR rb)) cond none 1 fun k => k.putAlu rd (logicF k.sw (k.reg ra ^^^ k.reg rb))

def opXori (cond : BitVec 4) (rd ra : BitVec 5) (i : BitVec 11) : CoreOp :=
  coreOp (wordL cond 0x0C rd ra i) cond none 1 fun k => k.putAlu rd (logicF k.sw (k.reg ra ^^^ immZ i))

/-! ## Shifts -/

def opShl (cond : BitVec 4) (rd ra rb : BitVec 5) : CoreOp :=
  coreOp (wordL cond 0x0D rd ra (fieldR rb)) cond none 1 fun k => k.putAlu rd (shlF (k.reg ra) ((k.reg rb).toNat % 16))

def opShli (cond : BitVec 4) (rd ra : BitVec 5) (q : BitVec 4) : CoreOp :=
  coreOp (wordL cond 0x0E rd ra (fieldQ q)) cond none 1 fun k => k.putAlu rd (shlF (k.reg ra) q.toNat)

def opShr (cond : BitVec 4) (rd ra rb : BitVec 5) : CoreOp :=
  coreOp (wordL cond 0x0F rd ra (fieldR rb)) cond none 1 fun k => k.putAlu rd (shrF (k.reg ra) ((k.reg rb).toNat % 16))

def opShri (cond : BitVec 4) (rd ra : BitVec 5) (q : BitVec 4) : CoreOp :=
  coreOp (wordL cond 0x10 rd ra (fieldQ q)) cond none 1 fun k => k.putAlu rd (shrF (k.reg ra) q.toNat)

def opSar (cond : BitVec 4) (rd ra rb : BitVec 5) : CoreOp :=
  coreOp (wordL cond 0x11 rd ra (fieldR rb)) cond none 1 fun k => k.putAlu rd (sarF (k.reg ra) ((k.reg rb).toNat % 16))

def opSari (cond : BitVec 4) (rd ra : BitVec 5) (q : BitVec 4) : CoreOp :=
  coreOp (wordL cond 0x12 rd ra (fieldQ q)) cond none 1 fun k => k.putAlu rd (sarF (k.reg ra) q.toNat)

/-! ## Multiplication and division (R349, R350) -/

def opMul (cond : BitVec 4) (rd ra rb : BitVec 5) : CoreOp :=
  coreOp (wordL cond 0x13 rd ra (fieldR rb)) cond (badIf (odd rd)) 2 fun k =>
    k.putAlu32 rd (mulF (k.reg ra) (k.reg rb))

def opMuls (cond : BitVec 4) (rd ra rb : BitVec 5) : CoreOp :=
  coreOp (wordL cond 0x14 rd ra (fieldR rb)) cond (badIf (odd rd)) 2 fun k =>
    k.putAlu32 rd (mulsF (k.reg ra) (k.reg rb))

/-- The quotient goes to rd and the remainder to rd + 1; by zero DIV0 with both unchanged. -/
def divOp (word : W32) (cond : BitVec 4) (rd ra rb : BitVec 5) (f : W16 → W16 → Alu 16 × W16) : CoreOp :=
  { word := word, cond := cond, bad := badIf (odd rd), priv := false, isPair := false, transfer := false, cycles := 18,
    data := fun _ => none,
    run := fun c s =>
      let k := s.core[c]
      if k.reg rb = 0 then .trap s .div0
      else
        let r := f (k.reg ra) (k.reg rb)
        .done (s.modCore c fun k => { (k.setPair rd (r.2 ++ r.1.res)) with sw := r.1.into k.sw }) }

def opDiv (cond : BitVec 4) (rd ra rb : BitVec 5) : CoreOp := divOp (wordL cond 0x15 rd ra (fieldR rb)) cond rd ra rb divF

def opDivs (cond : BitVec 4) (rd ra rb : BitVec 5) : CoreOp := divOp (wordL cond 0x16 rd ra (fieldR rb)) cond rd ra rb divsF

/-! ## Constants -/

def opMovi (cond : BitVec 4) (rd : BitVec 5) (i : BitVec 11) : CoreOp :=
  coreOp (wordL cond 0x17 rd 0 i) cond none 1 fun k => k.setReg rd (immS i)

def opMovt (cond : BitVec 4) (rd : BitVec 5) (i : BitVec 5) : CoreOp :=
  coreOp (wordL cond 0x18 rd 0 (fieldR i)) cond none 1 fun k =>
    k.setReg rd ((i.setWidth 16 <<< 11) ||| (k.reg rd &&& 0x07FF#16))

/-! ## 32-bit pairs -/

def opAdd32 (cond : BitVec 4) (rd ra rb : BitVec 5) : CoreOp :=
  coreOp (wordL cond 0x19 rd ra (fieldR rb)) cond (badIf (odd rd || odd ra || odd rb)) 1 fun k =>
    k.putAlu32 rd (addF (k.pair ra) (k.pair rb) false)

def opSub32 (cond : BitVec 4) (rd ra rb : BitVec 5) : CoreOp :=
  coreOp (wordL cond 0x1A rd ra (fieldR rb)) cond (badIf (odd rd || odd ra || odd rb)) 1 fun k =>
    k.putAlu32 rd (subF (k.pair ra) (k.pair rb) false)

def opCmp32 (cond : BitVec 4) (ra rb : BitVec 5) : CoreOp :=
  coreOp (wordL cond 0x1B 0 ra (fieldR rb)) cond (badIf (odd ra || odd rb)) 1 fun k =>
    k.putCmp (subF (k.pair ra) (k.pair rb) false)

/-! ## Pairs (R344, R354 to R357) -/

/-- Fields of a short operation. -/
def sOp (x : BitVec 13) : Nat := (x.extractLsb' 8 5).toNat
def sRd (x : BitVec 13) : BitVec 5 := (x.extractLsb' 4 4).setWidth 5
def sRs (x : BitVec 13) : BitVec 5 := (x.extractLsb' 0 4).setWidth 5
def sK (x : BitVec 13) : Nat := (x.extractLsb' 0 4).toNat

/-- A resource of the hazard check: a register, or RC (number 32). -/
def sRegs (r : BitVec 5) : List Nat := [r.toNat]

/-- What a short operation reads, C aside. -/
def sReads (x : BitVec 13) : List Nat :=
  let o := sOp x
  let rd := sRegs (sRd x)
  let rs := sRegs (sRs x)
  if o = 0x00 || o = 0x0E then []
  else if o = 0x01 || (0x0B ≤ o && o ≤ 0x0D) || o = 0x15 then rs
  else if 0x02 ≤ o && o ≤ 0x0A then rd ++ rs
  else if o = 0x14 then [32]
  else rd

/-- What it writes, SW aside. -/
def sWrites (x : BitVec 13) : List Nat :=
  let o := sOp x
  if o = 0x00 || o = 0x09 || o = 0x0A then []
  else if o = 0x15 then [32]
  else sRegs (sRd x)

/-- Its result with the flags it would set in slot B; NOP, MOV, MOVQ, MFRC and MTRC set none. -/
def sEval (k : Core) (x : BitVec 13) : Alu 16 :=
  let d := k.reg (sRd x)
  let v := k.reg (sRs x)
  let n := sK x
  match sOp x with
  | 0x02 => addF d v false
  | 0x03 => addF d v k.cf
  | 0x04 => subF d v false
  | 0x05 => subF d v !k.cf
  | 0x06 => logicF k.sw (d &&& v)
  | 0x07 => logicF k.sw (d ||| v)
  | 0x08 => logicF k.sw (d ^^^ v)
  | 0x09 => subF d v false
  | 0x0A => logicF k.sw (d &&& v)
  | 0x0B => subF 0 v false
  | 0x0C => logicF k.sw (~~~v)
  | 0x0D => logicF k.sw ((v <<< 8) ||| (v >>> 8))
  | 0x0E => Alu.of (BitVec.ofNat 16 n) false false
  | 0x0F => addF d (BitVec.ofNat 16 (n + 1)) false
  | 0x10 => subF d (BitVec.ofNat 16 (n + 1)) false
  | 0x11 => shlF d (n + 1)
  | 0x12 => shrF d (n + 1)
  | 0x13 => sarF d (n + 1)
  | 0x14 => Alu.of k.rc false false
  | _ => Alu.of v false false

/-- It sets flags in slot B. -/
def sFlags (x : BitVec 13) : Bool := (0x02 ≤ sOp x && sOp x ≤ 0x0D) || (0x0F ≤ sOp x && sOp x ≤ 0x13)

/-- Write its destination. -/
def sPut (x : BitVec 13) (v : W16) (k : Core) : Core :=
  if sOp x = 0x15 then { k with rc := v }
  else if (sWrites x).isEmpty then k
  else k.setReg (sRd x) v

/-- A reserved OP5, or a field that must be zero (R345, R354). -/
def sBad (x : BitVec 13) : Bool := 0x16 ≤ sOp x || (sOp x = 0x15 && sRd x != 0)

/-- Operation B reads or writes what A writes; g0 is exempt (R356). -/
def pairHazard (a b : BitVec 13) : Bool :=
  (sWrites a).any fun r => r ≠ 0 && ((sReads b).contains r || (sWrites b).contains r)

/-- Both operations act on the state before the word; B alone sets SW (R355). -/
def Core.pairRun (k : Core) (a b : BitVec 13) : Core :=
  let rb := sEval k b
  let k1 := sPut b rb.res (sPut a (sEval k a).res k)
  if sFlags b then { k1 with sw := rb.into k.sw } else k1

def opPair (cond : BitVec 4) (a b : BitVec 13) : CoreOp :=
  { (coreOp (wordP cond a b) cond
      (if sBad a || sBad b || sOp a = 0x09 || sOp a = 0x0A then some .illegal
       else if pairHazard a b then some .hazard else none) 1 fun k => k.pairRun a b) with
    isPair := true }

end Sys2Proof.Machine
end

