-- ==== Sys2Proof/Machine/CoreMove.lean ====
section
/-! DEFINITION. The loads and stores of Crika v2 (spec/10_crika_isa.md R349, R351, R352). -/

namespace Sys2Proof.Machine

/-- Operand field of format m. -/
def fieldM (seg : BitVec 3) (d : BitVec 8) : BitVec 11 := seg ++ d

/-- Offset of an access: post-increment forms use the base register as it stands. -/
def Core.at (k : Core) (ra : BitVec 5) (d : BitVec 8) (post : Bool) : W16 := if post then k.reg ra else k.ea ra d

/-- The base register after a post-increment form; the loaded value, written after it, wins (R352). -/
def Core.step (k : Core) (ra : BitVec 5) (d : BitVec 8) (post : Bool) : Core :=
  if post then k.setReg ra (k.ea ra d) else k

/-- A load of `size` bytes; `put` writes the value. -/
def loadOp (word : W32) (cond : BitVec 4) (bad : Bool) (ra : BitVec 5) (seg : BitVec 3) (d : BitVec 8) (size : Nat)
    (post : Bool) (put : W32 → Core → Core) : CoreOp :=
  { word := word, cond := cond, bad := badIf bad, priv := false, isPair := false, transfer := false, cycles := 1,
    data := fun k => some (seg.toFin, k.at ra d post, false),
    run := fun c s => s.coreLoad c seg.toFin (s.core[c].at ra d post) size fun v s =>
      s.modCore c fun k => put v (k.step ra d post) }

/-- A store of `size` bytes; `get` gives the value. -/
def storeOp (word : W32) (cond : BitVec 4) (bad : Bool) (ra : BitVec 5) (seg : BitVec 3) (d : BitVec 8) (size : Nat)
    (post : Bool) (get : Core → W32) : CoreOp :=
  { word := word, cond := cond, bad := badIf bad, priv := false, isPair := false, transfer := false, cycles := 1,
    data := fun k => some (seg.toFin, k.at ra d post, true),
    run := fun c s => s.coreStore c seg.toFin (s.core[c].at ra d post) size (get s.core[c]) fun s =>
      s.modCore c fun k => k.step ra d post }

def opLdb (cond : BitVec 4) (rd ra : BitVec 5) (seg : BitVec 3) (d : BitVec 8) : CoreOp :=
  loadOp (wordL cond 0x20 rd ra (fieldM seg d)) cond false ra seg d 1 false fun v k => k.setReg rd (v.setWidth 16)

def opLdbs (cond : BitVec 4) (rd ra : BitVec 5) (seg : BitVec 3) (d : BitVec 8) : CoreOp :=
  loadOp (wordL cond 0x21 rd ra (fieldM seg d)) cond false ra seg d 1 false fun v k =>
    k.setReg rd ((v.setWidth 8).signExtend 16)

def opLdw (cond : BitVec 4) (rd ra : BitVec 5) (seg : BitVec 3) (d : BitVec 8) : CoreOp :=
  loadOp (wordL cond 0x22 rd ra (fieldM seg d)) cond false ra seg d 2 false fun v k => k.setReg rd (v.setWidth 16)

def opLdp (cond : BitVec 4) (rd ra : BitVec 5) (seg : BitVec 3) (d : BitVec 8) : CoreOp :=
  loadOp (wordL cond 0x23 rd ra (fieldM seg d)) cond (odd rd) ra seg d 4 false fun v k => k.setPair rd v

def opStb (cond : BitVec 4) (rd ra : BitVec 5) (seg : BitVec 3) (d : BitVec 8) : CoreOp :=
  storeOp (wordL cond 0x24 rd ra (fieldM seg d)) cond false ra seg d 1 false fun k => ((k.reg rd).setWidth 8).setWidth 32

def opStw (cond : BitVec 4) (rd ra : BitVec 5) (seg : BitVec 3) (d : BitVec 8) : CoreOp :=
  storeOp (wordL cond 0x25 rd ra (fieldM seg d)) cond false ra seg d 2 false fun k => (k.reg rd).setWidth 32

def opStp (cond : BitVec 4) (rd ra : BitVec 5) (seg : BitVec 3) (d : BitVec 8) : CoreOp :=
  storeOp (wordL cond 0x26 rd ra (fieldM seg d)) cond (odd rd) ra seg d 4 false fun k => k.pair rd

def opLdwPost (cond : BitVec 4) (rd ra : BitVec 5) (seg : BitVec 3) (d : BitVec 8) : CoreOp :=
  loadOp (wordL cond 0x27 rd ra (fieldM seg d)) cond false ra seg d 2 true fun v k => k.setReg rd (v.setWidth 16)

def opLdpPost (cond : BitVec 4) (rd ra : BitVec 5) (seg : BitVec 3) (d : BitVec 8) : CoreOp :=
  loadOp (wordL cond 0x28 rd ra (fieldM seg d)) cond (odd rd) ra seg d 4 true fun v k => k.setPair rd v

def opStwPost (cond : BitVec 4) (rd ra : BitVec 5) (seg : BitVec 3) (d : BitVec 8) : CoreOp :=
  storeOp (wordL cond 0x29 rd ra (fieldM seg d)) cond false ra seg d 2 true fun k => (k.reg rd).setWidth 32

def opStpPost (cond : BitVec 4) (rd ra : BitVec 5) (seg : BitVec 3) (d : BitVec 8) : CoreOp :=
  storeOp (wordL cond 0x2A rd ra (fieldM seg d)) cond (odd rd) ra seg d 4 true fun k => k.pair rd

end Sys2Proof.Machine
end

