-- ==== Sys2Proof/Machine/CoreSys.lean ====
section
/-! DEFINITION. Control transfer, the repeat prefix, special registers, TRAP, RETI and WAIT, and the interrupt
controller (spec/10_crika_isa.md R349, R353, R358 to R363; spec/11_crika_memory_model.md R367 to R371, R377 to R396). -/

namespace Sys2Proof.Machine

/-! ## Control transfer -/

/-- PC becomes `pc`; a resumed repetition is over (log entry 28). -/
def Core.goto (k : Core) (pc : W16) : Core := { k with pc := pc, rptOn := false, rpt := 0 }

/-- A control transfer with its data-free word. -/
def flowOp (word : W32) (cond : BitVec 4) (run : Fin 4 → State → WordEnd) : CoreOp :=
  { word := word, cond := cond, bad := none, priv := false, isPair := false, transfer := true, cycles := 3,
    data := fun _ => none, run := run }

/-- Format b: [20:14] zero (R345). -/
def wordB (cond : BitVec 4) (op : BitVec 6) (b : BitVec 14) : W32 := 0#1 ++ cond ++ op ++ 0#7 ++ b

def opB (cond : BitVec 4) (b : BitVec 14) : CoreOp :=
  flowOp (wordB cond 0x30 b) cond fun c s => .jump (s.modCore c fun k => k.goto (k.target b))

/-- Push the return offset and go on at `pc`; in wrap mode an overflow is counted (R378, R421). -/
def State.coreCall (s : State) (c : Fin 4) (pc : W16) : WordEnd :=
  let k := s.core[c]
  match k.push (k.pc + 4) with
  | none => .trap s (.rstack 0)
  | some k1 => .jump ((s.modCore c fun _ => k1.goto pc).onlyIf (k.depth = 16) fun s => s.coreCount c 0x11 1 k.k)

def opCall (cond : BitVec 4) (b : BitVec 14) : CoreOp :=
  flowOp (wordB cond 0x31 b) cond fun c s => s.coreCall c (s.core[c].target b)

def opJmp (cond : BitVec 4) (ra : BitVec 5) : CoreOp :=
  flowOp (wordL cond 0x32 0 ra 0) cond fun c s =>
    let t := s.core[c].reg ra
    if t &&& 3#16 ≠ 0 then .trap s (.target t) else .jump (s.modCore c fun k => k.goto t)

def opCallr (cond : BitVec 4) (ra : BitVec 5) : CoreOp :=
  flowOp (wordL cond 0x33 0 ra 0) cond fun c s =>
    let t := s.core[c].reg ra
    if t &&& 3#16 ≠ 0 then .trap s (.target t) else s.coreCall c t

def opRet (cond : BitVec 4) : CoreOp :=
  flowOp (wordL cond 0x34 0 0 0) cond fun c s =>
    let k := s.core[c]
    match k.pop with
    | none => .trap s (.rstack 1)
    | some (pc, k1) => .jump ((s.modCore c fun _ => k1.goto pc).onlyIf (k.depth = 0) fun s => s.coreCount c 0x11 1 k.k)

/-! ## The repeat prefix (R358 to R360) -/

/-- The word at PC + 4, where the core can fetch it. -/
def State.lookAhead (s : State) (c : Fin 4) : Option W32 :=
  let k := s.core[c]
  match k.place 0 (k.pc + 4) 4 .fetch with
  | .inl _ => none
  | .inr p => some (BitVec.ofNat 32 (memLoad s.mem p 4))

/-- REP may not stand before B, CALL, JMP, CALLR, RET, REP, TRAP, RETI or WAIT, which are opcodes 0x30 to 0x38. -/
def repForbids (w : W32) : Bool :=
  let op := (w.extractLsb' 21 6).toNat
  !w.getLsbD 31 && 0x30 ≤ op && op ≤ 0x38

def opRep (cond : BitVec 4) : CoreOp :=
  { flowOp (wordL cond 0x35 0 0 0) cond (fun c s =>
      let k := s.core[c]
      if (s.lookAhead c).any repForbids then .trap s .illegal
      else if k.rc = 0 then .jump (s.modCore c fun k => k.goto (k.pc + 8))
      else .jump (s.modCore c fun k => { k with pc := k.pc + 4, rptOn := true, rpt := k.rc })) with
    transfer := false, cycles := 1 }

/-! ## TRAP, RETI, WAIT -/

def opTrap (cond : BitVec 4) (n : BitVec 8) : CoreOp :=
  { flowOp (wordL cond 0x36 0 0 (0#3 ++ n)) cond (fun _ s => .trap s (.trap n)) with transfer := false, cycles := 1 }

/-- Return from a trap or interrupt (R392). -/
def Core.reti (k : Core) : Core :=
  let k1 := match k.seg0Pend with
    | some d => { k with seg := upd k.seg 0 fun x => { x with d := d }, seg0Pend := none }
    | none => k
  let k2 := { k1 with sw := k.esw &&& 0x0FFF#16 }
  if k.ecause.getLsbD 15 then
    if k.erpt = 0 then k2.goto (k.epc + 4) else { k2 with pc := k.epc, rptOn := true, rpt := k.erpt }
  else k2.goto k.epc

def opReti (cond : BitVec 4) : CoreOp :=
  { flowOp (wordL cond 0x37 0 0 0) cond (fun c s => .jump (s.modCore c Core.reti)) with priv := true }

/-- WAIT stops the clock unless a line that would end it is pending already (R387). -/
def opWait (cond : BitVec 4) : CoreOp :=
  { coreOp (wordL cond 0x38 0 0 0) cond none 1 (fun k => { k with waiting := k.topLine.isNone }) with priv := true }

/-- A line at or above LVL is pending: the core's clock runs again (R387). -/
def State.waitResume (s : State) (c : Fin 4) : State :=
  if s.coreRuns && s.core[c].waiting && s.core[c].topLine.isSome then s.modCore c fun k => { k with waiting := false }
  else s

/-- The core takes the interrupt it may accept (R385). -/
def State.intAccept (s : State) (c : Fin 4) : State :=
  let k := s.core[c]
  if s.coreRuns && k.clocked && !k.stalled then
    match k.accept with
    | some l => s.intEntry c l
    | none => s
  else s

/-! ## The event queue (R380 to R382) -/

/-- The line of the lowest filter that takes a record. -/
def Core.filter (k : Core) (e : EvRec) : Option Nat :=
  ((List.finRange 16).find? fun i =>
    let a := k.fltA[i].toNat
    let b := k.fltB[i].toNat
    b.testBit 15 && (a.testBit 7 || a % 128 == e.src) && ((e.code ^^^ (a / 256)) &&& (b % 256)) % 256 == 0).map fun i =>
      (k.fltB[i].toNat >>> 8) % 16

/-- A record reaches the interrupt controller. -/
def Core.takeEvent (k : Core) (e : EvRec) : Core :=
  match k.filter e with
  | none => k
  | some l =>
    if k.evq.length < 32 then { k with evq := k.evq ++ [{ ev := e, line := l }] }
    else { k with evqLost := satN 16 (k.evqLost + 1), evqOvf := true }

/-- Take core `c`'s copy of the oldest hub record of island `i`. -/
def takeCore (c : Fin 4) (i : Nat) : List HubRec → Option (EvRec × List HubRec)
  | [] => none
  | r :: rest =>
    if r.ev.src = i && r.cores.contains c then
      let cs := r.cores.filter fun x => x ≠ c
      some (r.ev, if cs.isEmpty && !r.dep then rest else { r with cores := cs } :: rest)
    else (takeCore c i rest).map fun p => (p.1, r :: p.2)

/-- The oldest record of island `i` reaches the interrupt controller of core `c` (R24, R380). -/
def State.coreEvent (s : State) (c : Fin 4) (i : Nat) : State :=
  let s1 := if (takeCore c i s.fab.hub).isSome then s else s.pull i
  match takeCore c i s1.fab.hub with
  | none => s1
  | some (e, hub) =>
    if s1.coreRuns then ({ s1 with fab := { s1.fab with hub := hub } } : State).modCore c fun k => k.takeEvent e else s1

/-- The line EVQ_SEL shows, and the oldest record of it. -/
def Core.evqHead (k : Core) : Option EvqRec := k.evq.find? fun r => r.line == k.evqSel.toNat % 16

/-- EVQ_W0 to EVQ_W5. -/
def Core.evqWord (k : Core) (i : Nat) : W16 :=
  match k.evqHead with
  | none => 0
  | some r =>
    let w : W32 := match i / 2 with
      | 0 => BitVec.ofNat 32 r.ev.time
      | 1 => pack [(0, 16, r.ev.time / 2 ^ 32), (16, 7, r.ev.src), (24, 8, r.ev.code)]
      | _ => r.ev.arg
    BitVec.ofNat 16 (if i % 2 = 0 then w.toNat else w.toNat / 65536)

/-- The read of EVQ_W5 removes the record it showed. -/
def Core.evqDrop (k : Core) : Core :=
  { k with evq := k.evq.eraseP fun r => r.line == k.evqSel.toNat % 16 }

/-! ## Special registers (R353, R395) -/

/-- Selectors the tables list. -/
def selListed (n : Nat) : Bool :=
  n ≤ 2 || (0x10 ≤ n && n ≤ 0x33) || (0x38 ≤ n && n ≤ 0x3E) || n = 0x40 || (0x50 ≤ n && n ≤ 0x5F) ||
    (0x60 ≤ n && n ≤ 0x6B) || (0x70 ≤ n && n ≤ 0x92)

/-- Read-only selectors. -/
def selRo (n : Nat) : Bool := n = 2 || n = 0x3D || n = 0x3E || n = 0x60 || (0x64 ≤ n && n ≤ 0x69) || n = 0x92

/-- Kernel selectors. -/
def selKernel (n : Nat) : Bool := 0x10 ≤ n

/-- The value a selector shows to core `c`; a write-only selector reads zero (R10). -/
def State.selRead (s : State) (c : Fin 4) (n : Nat) : W16 :=
  let k := s.core[c]
  if n = 0 then k.sw
  else if n = 1 then k.rc
  else if n = 2 then BitVec.ofNat 16 c.val
  else if 0x10 ≤ n ∧ n ≤ 0x2F then
    let i : Fin 8 := Fin.ofNat 8 ((n - 0x10) / 4)
    let d := k.seg[i].d
    match n % 4 with
    | 0 => d.base.setWidth 16
    | 1 => (d.base >>> 16).setWidth 16
    | 2 => d.limit
    | _ => d.attr.setWidth 16 ||| BitVec.ofNat 16 (if i.val = 0 then 32768 * b2n k.seg0Pend.isSome else 0)
  else if n = 0x30 then k.kbound
  else if n = 0x31 then k.vbase
  else if n = 0x32 then k.ks0
  else if n = 0x33 then k.ks1
  else if n = 0x38 then k.epc
  else if n = 0x39 then k.esw
  else if n = 0x3A then k.ecause
  else if n = 0x3B then k.earg
  else if n = 0x3C then k.erpt
  else if n = 0x3D then k.ephys.setWidth 16
  else if n = 0x3E then (k.ephys >>> 16).setWidth 16
  else if n = 0x40 then
    BitVec.ofNat 16 (b2n k.rsMode + 2 * b2n k.rsOvf + 4 * b2n k.rsUnf + 8 * k.rsDepth.toNat + 256 * k.rsTop.toNat)
  else if 0x50 ≤ n ∧ n ≤ 0x5F then k.rs[Fin.ofNat 16 (n - 0x50)]
  else if n = 0x60 then BitVec.ofNat 16 k.pendBits
  else if n = 0x63 then k.evqSel
  else if 0x64 ≤ n ∧ n ≤ 0x69 then k.evqWord (n - 0x64)
  else if n = 0x6A then BitVec.ofNat 16 (k.evq.length + 64 * b2n k.evqOvf)
  else if n = 0x6B then BitVec.ofNat 16 k.evqLost
  else if 0x70 ≤ n ∧ n ≤ 0x8F then
    let i : Fin 16 := Fin.ofNat 16 ((n - 0x70) / 2)
    if n % 2 = 0 then k.fltA[i] else k.fltB[i]
  else if n = 0x90 then k.startPc
  else if n = 0x92 then BitVec.ofNat 16 (bitsOf 4 fun i => (vget s.core i (Core.init 0 0)).started)
  else 0

/-- What a read changes: EVQ_W5 removes its record, EVQ_LOST clears. -/
def Core.selAfter (k : Core) (n : Nat) : Core :=
  if n = 0x69 then k.evqDrop else if n = 0x6B then { k with evqLost := 0 } else k

/-- A write to a SEGn selector: BASE and LIMIT are staged, ATTR commits (R370). -/
def Core.segWrite (k : Core) (i : Fin 8) (part : Nat) (v : W16) : Core :=
  match part with
  | 0 => { k with seg := upd k.seg i fun x => { x with stBase := (x.stBase &&& 0xFFF0000#28) ||| (v.setWidth 28 &&& 0xFFFC#28) } }
  | 1 => { k with seg := upd k.seg i fun x => { x with stBase := (x.stBase &&& 0xFFFF#28) ||| (v.setWidth 28 <<< 16) } }
  | 2 => { k with seg := upd k.seg i fun x => { x with stLim := v } }
  | _ =>
    let d : SegDesc := { base := k.seg[i].stBase, limit := k.seg[i].stLim, attr := v.setWidth 4 }
    if i.val = 0 then { k with seg0Pend := some d } else { k with seg := upd k.seg i fun x => { x with d := d } }

/-- A write to a selector that concerns the writing core alone. -/
def Core.selWrite (k : Core) (n : Nat) (v : W16) : Core :=
  if n = 0 then { k with sw := if k.k then v &&& 0x0FFF#16 else putFlags k.sw v }
  else if n = 1 then { k with rc := v }
  else if 0x10 ≤ n ∧ n ≤ 0x2F then k.segWrite (Fin.ofNat 8 ((n - 0x10) / 4)) (n % 4) v
  else if n = 0x30 then { k with kbound := v }
  else if n = 0x31 then { k with vbase := v &&& 0xFF80#16 }
  else if n = 0x32 then { k with ks0 := v }
  else if n = 0x33 then { k with ks1 := v }
  else if n = 0x38 then { k with epc := v }
  else if n = 0x39 then { k with esw := v &&& 0x0FFF#16 }
  else if n = 0x3A then { k with ecause := v &&& 0x83FF#16 }
  else if n = 0x3B then { k with earg := v }
  else if n = 0x3C then { k with erpt := v }
  else if n = 0x40 then
    { k with
      rsMode := v.getLsbD 0, rsOvf := k.rsOvf && !v.getLsbD 1, rsUnf := k.rsUnf && !v.getLsbD 2,
      rsDepth := (v >>> 3).setWidth 5, rsTop := (v >>> 8).setWidth 4 }
  else if 0x50 ≤ n ∧ n ≤ 0x5F then { k with rs := upd k.rs (Fin.ofNat 16 (n - 0x50)) fun _ => v }
  else if n = 0x62 then { k with swi := k.swi &&& ~~~v }
  else if n = 0x63 then { k with evqSel := v &&& 0xF#16 }
  else if n = 0x6A then { k with evqOvf := k.evqOvf && !v.getLsbD 6 }
  else if 0x70 ≤ n ∧ n ≤ 0x8F then
    let i : Fin 16 := Fin.ofNat 16 ((n - 0x70) / 2)
    if n % 2 = 0 then { k with fltA := upd k.fltA i fun _ => v }
    else { k with fltB := upd k.fltB i fun _ => v &&& 0x8FFF#16 }
  else if n = 0x90 then { k with startPc := v }
  else k

/-- SWI_SEND: bit LINE in each core that CORES names (R383). -/
def State.swiSend (s : State) (v : W16) : State :=
  forFin 4 (fun c s =>
    s.onlyIf (v.getLsbD (8 + c.val)) fun s => s.modCore c fun k => { k with swi := k.swi ||| (1#16 <<< (v.toNat % 16)) }) s

/-- START_CMD, which C0 alone may give: each held core named starts at C0's START_PC (R394). -/
def State.startCmd (s : State) (c : Fin 4) (v : W16) : State :=
  if c.val = 0 then
    forFin 4 (fun d s =>
      s.onlyIf (d.val ≠ 0 && v.getLsbD d.val && !s.core[d].started) fun s =>
        s.modCore d fun k => { k with started := true, pc := s.core[(0 : Fin 4)].startPc }) s
  else s

/-- A write of core `c` to a selector. -/
def State.selPut (s : State) (c : Fin 4) (n : Nat) (v : W16) : State :=
  if n = 0x61 then s.swiSend v
  else if n = 0x91 then s.startCmd c v
  else s.modCore c fun k => k.selWrite n v

def opMfs (cond : BitVec 4) (rd : BitVec 5) (sel : BitVec 11) : CoreOp :=
  let n := sel.toNat
  { word := wordL cond 0x1C rd 0 sel, cond := cond, bad := badIf (!selListed n), priv := selKernel n, isPair := false,
    transfer := false, cycles := 1, data := fun _ => none,
    run := fun c s => .done (s.modCore c fun k => (k.selAfter n).setReg rd (s.selRead c n)) }

def opMts (cond : BitVec 4) (sel : BitVec 11) (ra : BitVec 5) : CoreOp :=
  let n := sel.toNat
  { word := wordL cond 0x1D 0 ra sel, cond := cond, bad := badIf (!selListed n || selRo n), priv := selKernel n,
    isPair := false, transfer := false, cycles := 1, data := fun _ => none,
    run := fun c s => .done (s.selPut c n (s.core[c].reg ra)) }

/-! ## The Deputy's core (R338, R353) -/

/-- The word is MFS rd, CORE, which reads 4 on the Deputy (R353). -/
def CoreOp.readsCore (op : CoreOp) : Bool := op.word &&& 0x87E0FFFF#32 == 0x03800002#32

/-- The Deputy's core executes a word of its program: the same instruction set, on its own registers and with its own
segments and traps (R338). A load or store, which reaches its own address space (R537), is no part of the model (log
entry 37). -/
def State.deputyRun (s : State) (op : CoreOp) : State :=
  let k := s.depCore
  let t : State := { s with core := s.core.set 0 k }
  let trap (u : State) (e : Trap) : State := { s with depCore := (u.coreTrap 0 e).core[(0 : Fin 4)] }
  match op.bad with
  | some e => trap t e
  | none =>
    if !k.cond op.cond then { s with depCore := k.next k }
    else if op.priv && !k.k then trap t .priv
    else if (op.data k).isSome then s
    else
      match op.run 0 t with
      | .stall => s
      | .trap u e => trap u e
      | .done u =>
        let x := u.core[(0 : Fin 4)]
        let y := if op.readsCore then x.setReg (op.word.extractLsb' 16 5) 4 else x
        { s with depCore := y.next k }
      | .jump u => { s with depCore := u.core[(0 : Fin 4)] }

end Sys2Proof.Machine
end

