-- ==== Sys2Proof/Machine/CrikaWord.lean ====
section
/-! DEFINITION. The words of Crika v2: which command a word spells, the operation of a command that is an instruction,
and its word (spec/10_crika_isa.md R343 to R345, R349, R353, R354). A repetition, a tag record and a word the core finds
in memory go through here; a command row brings its operands itself. -/

namespace Sys2Proof.Machine

/-! ## From a word to its command -/

/-- Fields of the long form (R343). -/
def wCond (w : W32) : BitVec 4 := w.extractLsb' 27 4
def wOp (w : W32) : Nat := (w.extractLsb' 21 6).toNat
def wRd (w : W32) : BitVec 5 := w.extractLsb' 16 5
def wRa (w : W32) : BitVec 5 := w.extractLsb' 11 5
def wImm (w : W32) : BitVec 11 := w.extractLsb' 0 11
def wRb (w : W32) : BitVec 5 := w.extractLsb' 0 5
def wQ (w : W32) : BitVec 4 := w.extractLsb' 0 4
def wSeg (w : W32) : BitVec 3 := w.extractLsb' 8 3
def wDisp (w : W32) : BitVec 8 := w.extractLsb' 0 8
def wOff (w : W32) : BitVec 14 := w.extractLsb' 0 14

/-- Fields that a format requires to be zero (R345). -/
def zRd (w : W32) : Bool := wRd w == 0
def zRa (w : W32) : Bool := wRa w == 0
def zR (w : W32) : Bool := w.extractLsb' 5 6 == 0#6
def zQ (w : W32) : Bool := w.extractLsb' 4 7 == 0#7
def zB (w : W32) : Bool := w.extractLsb' 14 7 == 0#7
def zTrap (w : W32) : Bool := zRd w && zRa w && wSeg w == 0
def zImm (w : W32) : Bool := wImm w == 0

/-- An instruction whose zero fields are zero. -/
def okWord (b : Bool) (i : Instr) : Option Instr := if b then some i else none

/-- The long form (R349). -/
def decodeLong (c : Fin 4) (w : W32) : Option Instr :=
  let q := wCond w
  let d := wRd w
  let a := wRa w
  let b := wRb w
  let i := wImm w
  let g := wSeg w
  let o := wDisp w
  match wOp w with
  | 0x00 => okWord (zR w) (.add c q d a b)
  | 0x01 => some (.addi c q d a i)
  | 0x02 => okWord (zR w) (.adc c q d a b)
  | 0x03 => okWord (zR w) (.sub c q d a b)
  | 0x04 => okWord (zR w) (.sbc c q d a b)
  | 0x05 => okWord (zR w && zRd w) (.cmp c q a b)
  | 0x06 => okWord (zRd w) (.cmpi c q a i)
  | 0x07 => okWord (zR w) (.and c q d a b)
  | 0x08 => some (.andi c q d a i)
  | 0x09 => okWord (zR w) (.or c q d a b)
  | 0x0A => some (.ori c q d a i)
  | 0x0B => okWord (zR w) (.xor c q d a b)
  | 0x0C => some (.xori c q d a i)
  | 0x0D => okWord (zR w) (.shl c q d a b)
  | 0x0E => okWord (zQ w) (.shli c q d a (wQ w))
  | 0x0F => okWord (zR w) (.shr c q d a b)
  | 0x10 => okWord (zQ w) (.shri c q d a (wQ w))
  | 0x11 => okWord (zR w) (.sar c q d a b)
  | 0x12 => okWord (zQ w) (.sari c q d a (wQ w))
  | 0x13 => okWord (zR w) (.mul c q d a b)
  | 0x14 => okWord (zR w) (.muls c q d a b)
  | 0x15 => okWord (zR w) (.div c q d a b)
  | 0x16 => okWord (zR w) (.divs c q d a b)
  | 0x17 => okWord (zRa w) (.movi c q d i)
  | 0x18 => okWord (zRa w && zR w) (.movt c q d b)
  | 0x19 => okWord (zR w) (.add32 c q d a b)
  | 0x1A => okWord (zR w) (.sub32 c q d a b)
  | 0x1B => okWord (zR w && zRd w) (.cmp32 c q a b)
  | 0x1C => okWord (zRa w) (.mfs c q d i)
  | 0x1D => okWord (zRd w) (.mts c q i a)
  | 0x20 => some (.ldb c q d a g o)
  | 0x21 => some (.ldbs c q d a g o)
  | 0x22 => some (.ldw c q d a g o)
  | 0x23 => some (.ldp c q d a g o)
  | 0x24 => some (.stb c q d a g o)
  | 0x25 => some (.stw c q d a g o)
  | 0x26 => some (.stp c q d a g o)
  | 0x27 => some (.ldwPost c q d a g o)
  | 0x28 => some (.ldpPost c q d a g o)
  | 0x29 => some (.stwPost c q d a g o)
  | 0x2A => some (.stpPost c q d a g o)
  | 0x30 => okWord (zB w) (.b c q (wOff w))
  | 0x31 => okWord (zB w) (.call c q (wOff w))
  | 0x32 => okWord (zRd w && zImm w) (.jmp c q a)
  | 0x33 => okWord (zRd w && zImm w) (.callr c q a)
  | 0x34 => okWord (zRd w && zRa w && zImm w) (.ret c q)
  | 0x35 => okWord (zRd w && zRa w && zImm w) (.rep c q)
  | 0x36 => okWord (zTrap w) (.trap c q o)
  | 0x37 => okWord (zRd w && zRa w && zImm w) (.reti c q)
  | 0x38 => okWord (zRd w && zRa w && zImm w) (.wait c q)
  | _ => none

/-- The command that core `c` reads from a word; `none` where R345 raises ILLEGAL for the word's form. -/
def decodeWord (c : Fin 4) (w : W32) : Option Instr :=
  if w.getLsbD 31 then
    okWord (!w.getLsbD 26) (.pair c (wCond w) (w.extractLsb' 13 13) (w.extractLsb' 0 13))
  else decodeLong c w

/-! ## From a command to its operation -/

/-- The executing core and the operation of a command that is an instruction. -/
def coreOpOf (i : Instr) : Option (Fin 4 × CoreOp) :=
  match i with
  | .add c cond rd ra rb => some (c, opAdd cond rd ra rb)
  | .addi c cond rd ra i => some (c, opAddi cond rd ra i)
  | .adc c cond rd ra rb => some (c, opAdc cond rd ra rb)
  | .sub c cond rd ra rb => some (c, opSub cond rd ra rb)
  | .sbc c cond rd ra rb => some (c, opSbc cond rd ra rb)
  | .cmp c cond ra rb => some (c, opCmp cond ra rb)
  | .cmpi c cond ra i => some (c, opCmpi cond ra i)
  | .and c cond rd ra rb => some (c, opAnd cond rd ra rb)
  | .andi c cond rd ra i => some (c, opAndi cond rd ra i)
  | .or c cond rd ra rb => some (c, opOr cond rd ra rb)
  | .ori c cond rd ra i => some (c, opOri cond rd ra i)
  | .xor c cond rd ra rb => some (c, opXor cond rd ra rb)
  | .xori c cond rd ra i => some (c, opXori cond rd ra i)
  | .shl c cond rd ra rb => some (c, opShl cond rd ra rb)
  | .shli c cond rd ra q => some (c, opShli cond rd ra q)
  | .shr c cond rd ra rb => some (c, opShr cond rd ra rb)
  | .shri c cond rd ra q => some (c, opShri cond rd ra q)
  | .sar c cond rd ra rb => some (c, opSar cond rd ra rb)
  | .sari c cond rd ra q => some (c, opSari cond rd ra q)
  | .mul c cond rd ra rb => some (c, opMul cond rd ra rb)
  | .muls c cond rd ra rb => some (c, opMuls cond rd ra rb)
  | .div c cond rd ra rb => some (c, opDiv cond rd ra rb)
  | .divs c cond rd ra rb => some (c, opDivs cond rd ra rb)
  | .movi c cond rd i => some (c, opMovi cond rd i)
  | .movt c cond rd i => some (c, opMovt cond rd i)
  | .add32 c cond rd ra rb => some (c, opAdd32 cond rd ra rb)
  | .sub32 c cond rd ra rb => some (c, opSub32 cond rd ra rb)
  | .cmp32 c cond ra rb => some (c, opCmp32 cond ra rb)
  | .mfs c cond rd sel => some (c, opMfs cond rd sel)
  | .mts c cond sel ra => some (c, opMts cond sel ra)
  | .segAttrCommit c cond n ra => some (c, opMts cond (BitVec.ofNat 11 (0x13 + 4 * n.val)) ra)
  | .swiSend c cond ra => some (c, opMts cond 0x061 ra)
  | .swiClr c cond ra => some (c, opMts cond 0x062 ra)
  | .startCmd c cond ra => some (c, opMts cond 0x091 ra)
  | .evqW5Read c cond rd => some (c, opMfs cond rd 0x069)
  | .ldb c cond rd ra seg d => some (c, opLdb cond rd ra seg d)
  | .ldbs c cond rd ra seg d => some (c, opLdbs cond rd ra seg d)
  | .ldw c cond rd ra seg d => some (c, opLdw cond rd ra seg d)
  | .ldp c cond rd ra seg d => some (c, opLdp cond rd ra seg d)
  | .stb c cond rd ra seg d => some (c, opStb cond rd ra seg d)
  | .stw c cond rd ra seg d => some (c, opStw cond rd ra seg d)
  | .stp c cond rd ra seg d => some (c, opStp cond rd ra seg d)
  | .ldwPost c cond rd ra seg d => some (c, opLdwPost cond rd ra seg d)
  | .ldpPost c cond rd ra seg d => some (c, opLdpPost cond rd ra seg d)
  | .stwPost c cond rd ra seg d => some (c, opStwPost cond rd ra seg d)
  | .stpPost c cond rd ra seg d => some (c, opStpPost cond rd ra seg d)
  | .b c cond d => some (c, opB cond d)
  | .call c cond d => some (c, opCall cond d)
  | .jmp c cond ra => some (c, opJmp cond ra)
  | .callr c cond ra => some (c, opCallr cond ra)
  | .ret c cond => some (c, opRet cond)
  | .rep c cond => some (c, opRep cond)
  | .trap c cond n => some (c, opTrap cond n)
  | .reti c cond => some (c, opReti cond)
  | .wait c cond => some (c, opWait cond)
  | .pair c cond x y => some (c, opPair cond x y)
  | _ => none

/-- The operation core `c` makes of a word. -/
def decodeOp (c : Fin 4) (w : W32) : CoreOp :=
  match (decodeWord c w).bind coreOpOf with
  | some p => p.2
  | none => illegalOp w

/-- The core and the word of a command that is an instruction. -/
def encodeWord (i : Instr) : Option (Fin 4 × W32) := (coreOpOf i).map fun p => (p.1, p.2.word)

/-- The instruction that stands for it in memory: the rows for one special register are MFS and MTS words. -/
def plainInstr (i : Instr) : Instr :=
  match i with
  | .segAttrCommit c q n a => .mts c q (BitVec.ofNat 11 (0x13 + 4 * n.val)) a
  | .swiSend c q a => .mts c q 0x061 a
  | .swiClr c q a => .mts c q 0x062 a
  | .startCmd c q a => .mts c q 0x091 a
  | .evqW5Read c q d => .mfs c q d 0x069
  | i => i

/-- The word in memory at physical address `p`, as core `c` executes it. -/
def State.memOp (s : State) (c : Fin 4) (p : Nat) : CoreOp := decodeOp c (BitVec.ofNat 32 (memLoad s.mem p 4))

/-- Core `c` goes on with the word in memory at its PC. -/
def State.coreFetch (s : State) (c : Fin 4) : State := s.coreStep c fun p s => s.memOp c p

/-- The next iteration of a repetition (R358). -/
def State.repeatRow (s : State) (c : Fin 4) : State := if s.core[c].rptOn then s.coreFetch c else s

/-- The word of a tag in flight executes and its record is written (R433, R434). -/
def State.tagRecordRow (s : State) (c : Fin 4) : State := if s.pmc.tag[c].inFlight then s.coreFetch c else s

/-- The tag countdown of core `x` has run out, and the next word is tagged (R433). -/
def State.tagSelectRow (s : State) (x : Fin 4) : State :=
  if s.coreRuns && bit s.pmc.tag[x].ctl 0 && s.pmc.tag[x].down ≤ 1 then s.tagSelect x else s

end Sys2Proof.Machine
end

