-- ==== Sys2Proof/Machine/Rows.lean ====
section
/-! DEFINITION. What several command rows share: stores that a stopped block answers without effect, and events whose
moment or reach more than one block decides. -/

namespace Sys2Proof.Machine

/-! ## Stores and loads -/

/-- A store of core `c` to an island, without effect while its block has stopped for an entry (R580); `g` is the stage of
the block. -/
def State.storeIf (s : State) (c : Fin 4) (isl g : Nat) (f : State → State) : State :=
  s.store c isl fun s => if s.isStopped g then s else f s

/-- The bus fault of R43, found before the access is made: no count of R421 or R422 is of it (R373, R375). -/
def State.misaligned (s : State) : State := if s.coreRuns then { s with answer := .busFault } else s

/-- A pair store to a register; an offset that is not a multiple of 4 is a bus fault (R43, R44). -/
def State.regWriteRow (s : State) (c : Fin 4) (b off : Nat) (v : W32) : State :=
  if off % 4 = 0 then s.storeReg c b off v else s.misaligned

/-- A pair load from a register. -/
def State.regReadRow (s : State) (c : Fin 4) (b off : Nat) : State :=
  if off % 4 = 0 then s.loadReg c b off else s.misaligned

/-- A firmware load of POP; `push` is a word that reaches the queue in the same island cycle (R408). Queue 13 is popped by
HP alone (R398). -/
def State.quePopRow (s : State) (c : Fin 4) (q : Fin 32) (push : Option W32) : State :=
  match push with
  | none => s.loadReg c 0x13 (0x20 * q.val + 8)
  | some w =>
    if !s.coreRuns then s
    else
      let s1 := s.served c
      let r := if q.val = 13 then (s1.quePushNow q [w] s1.que.q[q].w32).2.queFwPop q else s1.quePushPop q w
      { r.2 with answer := .value r.1 }

/-- FLUSH; a push of the same island cycle is stored after it (R409). -/
def State.queFlushRow (s : State) (c : Fin 4) (q : Fin 32) (push : Option W32) : State :=
  s.store c 1 fun s =>
    match push with
    | none => s.queFlush q
    | some w => ((s.queFlush q).quePushNow q [w] s.que.q[q].w32).2

/-- The load that latches a wide value, for requester `r`: a core, or the Deputy as 4 (R32, R419). -/
def State.latchRow (s : State) (r : Fin 5) (b off : Nat) : State :=
  if h : r.val < 4 then s.loadReg ⟨r.val, h⟩ b off else s.depRead b off

/-- ADM's forwarded entry reaches the channel: of a request of its own where the oldest message says so (R50, R85). -/
def State.hsEntryRow (s : State) (n : Fin 48) : State :=
  if (takeMsg n.val .entryOwn s.adm.toTgt).isSome then s.deliver n.val .entryOwn fun s => s.hsEntry n true
  else s.deliver n.val .entry fun s => s.hsEntry n false

/-! ## Resets -/

/-- A control-plane reset (R13, R614): 0 RSTN, without effect in SLEEP, DEEP and OFF (R616), 1 watchdog, 2 the reboot an
activation asked for, at its time (R559), 3 rollback. -/
def State.cpResetRow (s : State) (cause : Fin 4) : State :=
  match cause.val with
  | 0 => if s.pwr.phase == .sleep || s.pwr.phase == .deep || s.pwr.phase == .off then s else s.cpReset 1 none
  | 1 => s.cpReset 2 (some s.now)
  | 2 =>
    match s.dep.rebootAt with
    | none => s
    | some t =>
      let s1 := s.advanceTo t
      (s1.modDep fun d => { d with rebootAt := none }).cpReset 3 (some s1.now)
  | _ => s.cpReset 4 (some s.now)

/-! ## Bank voltages (R68 to R73) -/

/-- Bank `b` has stayed at `mv` for `us` microseconds: every consumer judges it for itself, channels by their own clock
(R663), valve groups and strings by HSC's settings. -/
def State.bankUv (s : State) (b : Fin 4) (mv us : Nat) : State :=
  let hit := s.isUp 2 && decide (mv < uvThr s.hsc.uvCfg[b]) && decide (20 ≤ us)
  let s1 := s.onlyIf hit fun s => s.modHsc fun h =>
    { h with uv := upd h.uv b fun _ => true, bankOk := upd h.bankOk b fun _ => false }
  let s2 := forFin 48 (fun n s => s.onlyIf (bankOf n.val = b.val) fun s => s.hsBankUv n mv (us * 40)) s1
  s2.onlyIf (b.val = 3) fun s =>
    forFin 3 (fun k s => s.lsUv k mv us) (s.onlyIf hit fun s => forFin 4 (fun g s => s.vgUv g) s)

/-- Bank `b` has stayed at `mv` for `us` microseconds, above its threshold and hysteresis. -/
def State.bankRecover (s : State) (b : Fin 4) (mv us : Nat) : State :=
  let hit := s.isUp 2 && decide (uvRec s.hsc.uvCfg[b] < mv) && decide (10000 ≤ us)
  let s1 := s.onlyIf hit fun s => s.modHsc fun h =>
    { h with uv := upd h.uv b fun _ => false, bankOk := upd h.bankOk b fun _ => true }
  let s2 := forFin 48 (fun n s => s.onlyIf (bankOf n.val = b.val) fun s => s.hsBankOk n mv us) s1
  s2.onlyIf (b.val = 3) fun s => forFin 3 (fun k s => s.lsBankOk k mv us) s

/-- A running clamp ends after `cycles` cycles of the island clock (R103, R104). -/
def State.clampEndRow (s : State) (n : Fin 48) (cycles : Nat) : State :=
  match s.hs[n].clamp with
  | none => s
  | some c => if s.hsUp n then (s.advanceTo (c.start + cycles / 40)).clampStop n cycles else s

/-! ## Digitisers -/

/-- The next sample of a digitiser, 20 us after its last, with its code and junction temperature; `top` is the highest
current of a valve's coil since the last one, mA. The channel's estimators follow (R112, R130, R206). -/
def State.sampleRow (s : State) (t : Fin 67) (raw tj : Int) (top : Nat) : State :=
  if s.digRuns t.val then
    let s1 := (s.advanceTo (s.dig[t].at_ + 20)).sample t raw tj
    if h : t.val < 48 then s1.estSample ⟨t.val, h⟩
    else if h : t.val < 64 then s1.vdSample ⟨t.val - 48, by omega⟩ top
    else s1
  else s

/-! ## Ticks of ADM that a due time brings -/

/-- Deadlines of the entries not granted. -/
def Adm.deadlines (a : Adm) : List Nat := a.queue.filterMap fun e => if e.granted then none else e.deadline

/-- The first tick after the earliest deadline (R164). -/
def State.deadlineTick (s : State) : State :=
  match s.adm.deadlines.min? with
  | none => s
  | some d => s.admTickFrom (d + 1) 0

/-- The tick at which the site limit is stale (R171). -/
def State.siteStaleTick (s : State) : State :=
  if fld s.adm.siteCfg 16 8 = 0 then s else s.admTickFrom (s.adm.siteAt + fld s.adm.siteCfg 16 8 * 1000000) 0

/-- The tick at which a sensor copy is older than 10 ms (R172). -/
def State.sensorStaleTick (s : State) : State :=
  match s.adm.vAt, s.adm.tbpAt with
  | some a, some b => s.admTickFrom (min a b + 10001) 0
  | _, _ => s.admTickFrom 0 0

/-- The tick of a heater slot's next period, and of its window's end (R185, R186). -/
def State.periodTick (s : State) (i : Fin 16) : State :=
  if s.adm.slots[i].run then s.admTickFrom s.adm.slots[i].next 0 else s.admTickFrom 0 0

def State.windowTick (s : State) (i : Fin 16) : State :=
  if s.adm.slots[i].open_ then s.admTickFrom s.adm.slots[i].tEnd 0 else s

/-- Copies of the bank voltages and of T_bp reach ADM (R172). -/
def State.sensorCopy (s : State) (mv : Vector Nat 4) (tbp : Int) : State :=
  if s.isUp 2 then (s.toAdm (.banks mv)).toAdm (.tbp tbp) else s

/-! ## Counters, sensors, wake -/

/-- A counter at its greatest value counts once more (R423); counter numbers as in R437. A programmable counter does so
when its event can occur: EN is 1, EVT names an event, and the core runs at the privilege that PRIV selects (R420).
`same` says that this falls in the cycle of the last write of the counter: then it is lost (R424). -/
def State.cntOvf (s : State) (i : Fin 48) (same : Bool) : State :=
  let p := s.pmc
  let runs (c : Nat) : Bool := s.coreRuns && vget (s.core.map Core.clocked) c false
  if same && p.lastWrote == some (i.val, s.now) then s
  else if h : i.val < 24 then
    let sel := p.evsel[i.val]
    if runs (i.val / 6) && bit p.ctl 0 && 1 ≤ fld sel 0 6 && fld sel 0 6 ≤ 0x12 &&
        privOk sel (s.core[i.val / 6]'(by omega)) && p.cnt[i.val] == 0xFFFFFFFF then
      (s.modPmc fun p => { p with cnt := vupd p.cnt i.val fun _ => 0 }).pmcWrap i.val (bit sel 12)
    else s
  else if i.val < 28 then
    if runs (i.val - 24) && vget p.cyc (i.val - 24) 0 == 0xFFFFFFFFFFFF then
      (s.modPmc fun p => { p with cyc := vupd p.cyc (i.val - 24) fun _ => 0 }).pmcWrap i.val true
    else s
  else if i.val < 32 then
    if runs (i.val - 28) && vget p.ret (i.val - 28) 0 == 0xFFFFFFFFFFFF then
      (s.modPmc fun p => { p with ret := vupd p.ret (i.val - 28) fun _ => 0 }).pmcWrap i.val true
    else s
  else
    let sel := vget p.fevsel (i.val - 32) 0
    if s.isUp 1 && s.isUp 2 && bit p.ctl 0 && 1 ≤ fld sel 0 6 && fld sel 0 6 ≤ 0x0F &&
        vget p.fcnt (i.val - 32) 0 == 0xFFFFFFFF then
      (s.modPmc fun p => { p with fcnt := vupd p.fcnt (i.val - 32) fun _ => 0 }).pmcWrap i.val (bit sel 12)
    else s

/-- One sample of the Deputy's sensors (R539): 0 to 15 a temperature in 1/16 of a degree, 16 the mains in 0.1 V with its
frequency in 0.01 Hz, 17 to 19 a rail in mV. -/
def State.sensorRow (s : State) (q : Fin 20) (x : Int) (hz : Nat) (dc : Bool) : State :=
  if s.depUp then
    if h : q.val < 16 then s.tempSample ⟨q.val, h⟩ x
    else if q.val = 16 then s.mainsSample x.toNat hz dc
    else s.railSample (Fin.ofNat 3 (q.val - 17)) x.toNat
  else s

/-- A wake request of source `src` (R588); that of the event source needs a held record an enabled filter takes. -/
def State.wakeRow (s : State) (src : Fin 15) : State :=
  if src.val = 12 then
    s.onlyIf (s.fab.hub.any fun r => !r.cores.isEmpty && s.pwr.wakesOn r.ev) fun s => s.wakeReq 12
  else s.wakeReq src.val

/-- The crystal disciplines the 2 MHz RC (R33, R618). -/
def State.trimLock (s : State) : State := if s.isUp 0 then s.modTmb fun t => { t with trimLock := true } else s

end Sys2Proof.Machine
end

