-- ==== Sys2Proof/Machine/ExecAdm.lean ====
section
/-! DEFINITION. Meanings of the command rows: Admission and heaters. -/

namespace Sys2Proof.Machine

/-- A pair store to ADM.REQ submits a request to be decided at ADM's next tick. (R159) -/
def execAdmReq (c : Fin 4) (target : BitVec 11) (prio : BitVec 3) (deadline : W16) (s : State) : Out :=
  .next (s.store c 2 fun s => s.admStore c fun k => .req c k target.toNat prio.toNat deadline.toNat)

/-- A store to ADM.CANCEL removes a waiting entry or returns TOO_LATE or NOTHING. (R165) -/
def execAdmCancel (c : Fin 4) (target : BitVec 11) (s : State) : Out :=
  .next (s.store c 2 fun s => s.admStore c fun k => .cancel c k target.toNat)

/-- A store to ADM.RELEASE frees a held external grant's charges. (R166) -/
def execAdmRelease (c : Fin 4) (x : BitVec 10) (s : State) : Out :=
  .next (s.store c 2 fun s => s.admStore c fun k => .relExt c k x.toNat)

/-- Every 10 us ADM handles its inputs in order, updates the model and runs the grant scan. (R177) -/
def execAdmTick (late : Nat) (s : State) : Out :=
  .next (s.admTickFrom 0 late)

/-- At each bin start the oldest inrush bin retires from the window load. (R169) -/
def execBinRetire (s : State) : Out :=
  .next (s.admTickFrom (s.adm.binAt + s.adm.binLen * 1000) 0)

/-- An ungranted entry past its deadline is removed and its target gets the drop message. (R164) -/
def execDeadlineExpiry (s : State) : Out :=
  .next (s.deadlineTick)

/-- A write to SITE_LIM sets the site limit and restarts the staleness timer. (R171) -/
def execSiteLimWrite (c : Fin 4) (v : W32) (s : State) : Out :=
  .next (s.storeIf c 2 10 fun s => s.siteLimWrite v)

/-- TMO seconds without a SITE_LIM write make the limit stale and the fallback applies. (R171) -/
def execSiteStale (s : State) : Out :=
  .next (s.siteStaleTick)

/-- Once per millisecond bank voltages and T_bp are copied to ADM by hardware. (R172) -/
def execSensorCopy (v0 : Nat) (v1 : Nat) (v2 : Nat) (v3 : Nat) (tbp : Int) (s : State) : Out :=
  if 65000 < max (max v0 v1) (max v2 v3) then .fault .beyondRatings else .next (s.sensorCopy #v[v0, v1, v2, v3] tbp)

/-- A sensor copy older than 10 ms is replaced by 60 V or 85 C and SENSOR_STALE sets. (R172) -/
def execSensorStale (s : State) : Out :=
  .next (s.sensorStaleTick)

/-- A write to HT_CFG enables, disables or retargets a heater slot and restarts its periods. (R188) -/
def execHeaterCfgWrite (c : Fin 4) (i : Fin 16) (v : W32) (s : State) : Out :=
  .next (s.storeIf c 2 10 fun s => s.slotCfgWrite i v)

/-- At a heater period start the slot computes its on-time and requests or turns off its channel. (R185) -/
def execHeaterPeriodStart (i : Fin 16) (s : State) : Out :=
  .next (s.periodTick i)

/-- At t_end the slot removes its waiting entry, sends OFF and closes its window. (R185) -/
def execHeaterWindowEnd (i : Fin 16) (s : State) : Out :=
  .next (s.windowTick i)

end Sys2Proof.Machine
end

