-- ==== Sys2Proof/Machine/ExecAlu.lean ====
section
/-! DEFINITION. Meanings of the command rows: Crika arithmetic. -/

namespace Sys2Proof.Machine

/-- rd := ra + rb, setting ZNCV. (R349) -/
def execAdd (c : Fin 4) (cond : BitVec 4) (rd : BitVec 5) (ra : BitVec 5) (rb : BitVec 5) (s : State) : Out :=
  .next (s.coreRun c (opAdd cond rd ra rb))

/-- rd := ra + sext(i), setting ZNCV. (R349) -/
def execAddi (c : Fin 4) (cond : BitVec 4) (rd : BitVec 5) (ra : BitVec 5) (i : BitVec 11) (s : State) : Out :=
  .next (s.coreRun c (opAddi cond rd ra i))

/-- rd := ra + rb + C, setting ZNCV. (R349) -/
def execAdc (c : Fin 4) (cond : BitVec 4) (rd : BitVec 5) (ra : BitVec 5) (rb : BitVec 5) (s : State) : Out :=
  .next (s.coreRun c (opAdc cond rd ra rb))

/-- rd := ra - rb, setting ZNCV. (R349) -/
def execSub (c : Fin 4) (cond : BitVec 4) (rd : BitVec 5) (ra : BitVec 5) (rb : BitVec 5) (s : State) : Out :=
  .next (s.coreRun c (opSub cond rd ra rb))

/-- rd := ra - rb - (1 - C), setting ZNCV. (R349) -/
def execSbc (c : Fin 4) (cond : BitVec 4) (rd : BitVec 5) (ra : BitVec 5) (rb : BitVec 5) (s : State) : Out :=
  .next (s.coreRun c (opSbc cond rd ra rb))

/-- Compares ra with rb and sets ZNCV. (R349) -/
def execCmp (c : Fin 4) (cond : BitVec 4) (ra : BitVec 5) (rb : BitVec 5) (s : State) : Out :=
  .next (s.coreRun c (opCmp cond ra rb))

/-- Compares ra with sext(i) and sets ZNCV. (R349) -/
def execCmpi (c : Fin 4) (cond : BitVec 4) (ra : BitVec 5) (i : BitVec 11) (s : State) : Out :=
  .next (s.coreRun c (opCmpi cond ra i))

/-- rd := ra and rb, setting ZN. (R349) -/
def execAnd (c : Fin 4) (cond : BitVec 4) (rd : BitVec 5) (ra : BitVec 5) (rb : BitVec 5) (s : State) : Out :=
  .next (s.coreRun c (opAnd cond rd ra rb))

/-- rd := ra and zext(i), setting ZN. (R349) -/
def execAndi (c : Fin 4) (cond : BitVec 4) (rd : BitVec 5) (ra : BitVec 5) (i : BitVec 11) (s : State) : Out :=
  .next (s.coreRun c (opAndi cond rd ra i))

/-- rd := ra or rb, setting ZN. (R349) -/
def execOr (c : Fin 4) (cond : BitVec 4) (rd : BitVec 5) (ra : BitVec 5) (rb : BitVec 5) (s : State) : Out :=
  .next (s.coreRun c (opOr cond rd ra rb))

/-- rd := ra or zext(i), setting ZN. (R349) -/
def execOri (c : Fin 4) (cond : BitVec 4) (rd : BitVec 5) (ra : BitVec 5) (i : BitVec 11) (s : State) : Out :=
  .next (s.coreRun c (opOri cond rd ra i))

/-- rd := ra xor rb, setting ZN. (R349) -/
def execXor (c : Fin 4) (cond : BitVec 4) (rd : BitVec 5) (ra : BitVec 5) (rb : BitVec 5) (s : State) : Out :=
  .next (s.coreRun c (opXor cond rd ra rb))

/-- rd := ra xor zext(i), setting ZN. (R349) -/
def execXori (c : Fin 4) (cond : BitVec 4) (rd : BitVec 5) (ra : BitVec 5) (i : BitVec 11) (s : State) : Out :=
  .next (s.coreRun c (opXori cond rd ra i))

/-- rd := ra shifted left by rb[3:0]. (R349) -/
def execShl (c : Fin 4) (cond : BitVec 4) (rd : BitVec 5) (ra : BitVec 5) (rb : BitVec 5) (s : State) : Out :=
  .next (s.coreRun c (opShl cond rd ra rb))

/-- rd := ra shifted left by q. (R349) -/
def execShli (c : Fin 4) (cond : BitVec 4) (rd : BitVec 5) (ra : BitVec 5) (q : BitVec 4) (s : State) : Out :=
  .next (s.coreRun c (opShli cond rd ra q))

/-- rd := ra shifted right by rb[3:0] with zero fill. (R349) -/
def execShr (c : Fin 4) (cond : BitVec 4) (rd : BitVec 5) (ra : BitVec 5) (rb : BitVec 5) (s : State) : Out :=
  .next (s.coreRun c (opShr cond rd ra rb))

/-- rd := ra shifted right by q with zero fill. (R349) -/
def execShri (c : Fin 4) (cond : BitVec 4) (rd : BitVec 5) (ra : BitVec 5) (q : BitVec 4) (s : State) : Out :=
  .next (s.coreRun c (opShri cond rd ra q))

/-- rd := ra shifted right by rb[3:0] with sign fill. (R349) -/
def execSar (c : Fin 4) (cond : BitVec 4) (rd : BitVec 5) (ra : BitVec 5) (rb : BitVec 5) (s : State) : Out :=
  .next (s.coreRun c (opSar cond rd ra rb))

/-- rd := ra shifted right by q with sign fill. (R349) -/
def execSari (c : Fin 4) (cond : BitVec 4) (rd : BitVec 5) (ra : BitVec 5) (q : BitVec 4) (s : State) : Out :=
  .next (s.coreRun c (opSari cond rd ra q))

/-- rd:rd+1 := unsigned ra x rb. (R349) -/
def execMul (c : Fin 4) (cond : BitVec 4) (rd : BitVec 5) (ra : BitVec 5) (rb : BitVec 5) (s : State) : Out :=
  .next (s.coreRun c (opMul cond rd ra rb))

/-- rd:rd+1 := signed ra x rb. (R349) -/
def execMuls (c : Fin 4) (cond : BitVec 4) (rd : BitVec 5) (ra : BitVec 5) (rb : BitVec 5) (s : State) : Out :=
  .next (s.coreRun c (opMuls cond rd ra rb))

/-- Unsigned division of ra by rb into quotient and remainder, or DIV0. (R350) -/
def execDiv (c : Fin 4) (cond : BitVec 4) (rd : BitVec 5) (ra : BitVec 5) (rb : BitVec 5) (s : State) : Out :=
  .next (s.coreRun c (opDiv cond rd ra rb))

/-- Signed division of ra by rb, with V for -32,768 / -1, or DIV0. (R350) -/
def execDivs (c : Fin 4) (cond : BitVec 4) (rd : BitVec 5) (ra : BitVec 5) (rb : BitVec 5) (s : State) : Out :=
  .next (s.coreRun c (opDivs cond rd ra rb))

/-- rd := sext(i). (R349) -/
def execMovi (c : Fin 4) (cond : BitVec 4) (rd : BitVec 5) (i : BitVec 11) (s : State) : Out :=
  .next (s.coreRun c (opMovi cond rd i))

/-- Writes i[4:0] into the top five bits of rd. (R349) -/
def execMovt (c : Fin 4) (cond : BitVec 4) (rd : BitVec 5) (i : BitVec 5) (s : State) : Out :=
  .next (s.coreRun c (opMovt cond rd i))

/-- 32-bit pair addition, setting ZNCV on 32 bits. (R349) -/
def execAdd32 (c : Fin 4) (cond : BitVec 4) (rd : BitVec 5) (ra : BitVec 5) (rb : BitVec 5) (s : State) : Out :=
  .next (s.coreRun c (opAdd32 cond rd ra rb))

/-- 32-bit pair subtraction, setting ZNCV on 32 bits. (R349) -/
def execSub32 (c : Fin 4) (cond : BitVec 4) (rd : BitVec 5) (ra : BitVec 5) (rb : BitVec 5) (s : State) : Out :=
  .next (s.coreRun c (opSub32 cond rd ra rb))

/-- 32-bit pair comparison, setting ZNCV. (R349) -/
def execCmp32 (c : Fin 4) (cond : BitVec 4) (ra : BitVec 5) (rb : BitVec 5) (s : State) : Out :=
  .next (s.coreRun c (opCmp32 cond ra rb))

end Sys2Proof.Machine
end

