-- ==== Sys2Proof/Machine/ExecCan.lean ====
section
/-! DEFINITION. Meanings of the command rows: CAN FD. -/

namespace Sys2Proof.Machine

/-- A write of CTL.MODE starts integration or takes the controller OFF at the frame end. (R443) -/
def execCanModeWrite (c : Fin 4) (x : Fin 4) (v : W32) (s : State) : Out :=
  .next (s.storeIf c (islCan x.val) 3 fun s => s.canCtlWrite x v)

/-- After 11 recessive bits the controller takes part in the bus. (R443) -/
def execCanIntegrated (x : Fin 4) (s : State) : Out :=
  .next (s.canIntegrated x)

/-- A bit-timing write is stored, or refused with CFG_ERR. (R440) -/
def execCanTimingWrite (c : Fin 4) (x : Fin 4) (which : Fin 3) (v : W32) (s : State) : Out :=
  .next (s.storeIf c (islCan x.val) 3 fun s => s.canTiming x which v)

/-- The REQ command moves a transmit object to PENDING, merges or is refused. (R447) -/
def execReq (c : Fin 4) (x : Fin 4) (m : Fin 128) (s : State) : Out :=
  .next (s.storeIf c (islCan x.val) 3 fun s => s.canReq x m)

/-- The ABORT command aborts a pending or active object, or reports TOO_LATE or REFUSED. (R450) -/
def execCanAbort (c : Fin 4) (x : Fin 4) (m : Fin 128) (s : State) : Out :=
  .next (s.storeIf c (islCan x.val) 3 fun s => s.canAbort x m)

/-- CMD.ABORT_ALL aborts every pending or active object. (R450) -/
def execAbortAll (c : Fin 4) (x : Fin 4) (s : State) : Out :=
  .next (s.storeIf c (islCan x.val) 3 fun s => s.canAbortAll x)

/-- The SNAP command copies a receive object's live buffer into its shadow and clears NEW. (R457) -/
def execSnapObj (c : Fin 4) (x : Fin 4) (m : Fin 128) (s : State) : Out :=
  .next (s.storeIf c (islCan x.val) 3 fun s => s.canSnap x m)

/-- The CLR command returns a finished object to IDLE and clears LOST. (R473) -/
def execClr (c : Fin 4) (x : Fin 4) (m : Fin 128) (s : State) : Out :=
  .next (s.storeIf c (islCan x.val) 3 fun s => s.canClr x m)

/-- At each start of arbitration one PENDING object is picked and moved to ACTIVE. (R448) -/
def execCanArbitration (x : Fin 4) (other : Bool) (s : State) : Out :=
  .next (s.canArbitrate x other)

/-- A successful transmission moves the object to DONE and timestamps it. (R449) -/
def execCanTxSuccess (x : Fin 4) (delay : Nat) (s : State) : Out :=
  .next (s.canTxSuccess x delay)

/-- A valid received frame is routed by the filters to a queue, an object or discard. (R455) -/
def execCanFrameReceived (x : Fin 4) (w0 : W32) (w1 : W32) (data : List W8) (us : Nat) (s : State) : Out :=
  .next (s.canReceive x w0 w1 data us)

/-- A detected bus error updates TEC, REC and the error record. (R462) -/
def execCanError (x : Fin 4) (ty : Fin 8) (data : Bool) (arb : Bool) (exempt : Bool) (heavy : Bool) (delay : Nat) (s : State) : Out :=
  .next (s.canError x ty.val data arb exempt heavy delay)

/-- The 128th recovery sequence returns the controller to error-active and emits BUS_ON. (R463) -/
def execBusOn (x : Fin 4) (n : Nat) (s : State) : Out :=
  .next (s.canBusOn x n)

/-- QCMD.REL releases held frames up to RSEQ, or is refused. (R460) -/
def execRel (c : Fin 4) (x : Fin 4) (j : Fin 2) (rseq : BitVec 8) (s : State) : Out :=
  .next (s.storeIf c (islCan x.val) 3 fun s => s.canRel x j rseq.toNat)

/-- QCMD.FLUSH releases every held frame of the receive queue. (R460) -/
def execQueueFrameFlush (c : Fin 4) (x : Fin 4) (j : Fin 2) (s : State) : Out :=
  .next (s.storeIf c (islCan x.val) 3 fun s => s.canFlush x j)

/-- CMDG_CMD.FORGET clears the command gate's table of last-accepted pairs. (R468) -/
def execForget (c : Fin 4) (x : Fin 4) (s : State) : Out :=
  .next (s.storeIf c (islCan x.val) 3 fun s => s.canForget x)

/-- An ACTIVE transmit object that loses arbitration returns to PENDING with its request age, or goes to FAILED when
ONESHOT is 1. (R448) -/
def execArbitrationLost (x : Fin 4) (s : State) : Out :=
  .next (s.canArbLost x)

end Sys2Proof.Machine
end

