-- ==== Sys2Proof/Machine/ExecChain.lean ====
section
/-! DEFINITION. Meanings of the command rows: Lantern chains. -/

namespace Sys2Proof.Machine

/-- GO starts one frame or continuous frames on an idle chain, or is refused. (R292) -/
def execGo (c : Fin 4) (k : Fin 8) (s : State) : Out :=
  .next (s.storeIf c (islLc k.val) 5 fun s => s.lcGo k)

/-- STOP ends a continuous chain at the end of the frame in progress. (R292) -/
def execStop (c : Fin 4) (k : Fin 8) (s : State) : Out :=
  .next (s.storeIf c (islLc k.val) 5 fun s => (s.lcRes k 0).lcStop k 0)

/-- SWAP sets SWAP_PEND so the outbound buffers swap at the next frame start. (R290) -/
def execSwap (c : Fin 4) (k : Fin 8) (s : State) : Out :=
  .next (s.storeIf c (islLc k.val) 5 fun s => s.lcSwap k)

/-- ABORT sends no further bits and enters IDLE, or reports TOO_LATE. (R292) -/
def execAbort (c : Fin 4) (k : Fin 8) (same : Bool) (s : State) : Out :=
  .next (s.storeIf c (islLc k.val) 5 fun s => s.lcAbort k same)

/-- A write of CTL.EN 0 aborts the chain, enters DISABLED and discards outstanding returns. (R292) -/
def execChainDisable (c : Fin 4) (k : Fin 8) (v : W32) (s : State) : Out :=
  .next (s.storeIf c (islLc k.val) 5 fun s => s.lcCtlWrite k (v &&& 0xFFFFFFFE))

/-- GLOBAL_CMD.GO sends GO to each selected chain. (R311) -/
def execGlobalGo (c : Fin 4) (mask : BitVec 8) (s : State) : Out :=
  .next (s.storeIf c 9 5 fun s => s.lchGlobal mask.toNat 0)

/-- GLOBAL_CMD.STOP sends STOP to each selected chain. (R311) -/
def execGlobalStop (c : Fin 4) (mask : BitVec 8) (s : State) : Out :=
  .next (s.storeIf c 9 5 fun s => s.lchGlobal 0 mask.toNat)

/-- A write to FRAME is stored for the next frame, or ignored with CFG_ERR for a reserved HCMD. (R294) -/
def execChainFrameWrite (c : Fin 4) (k : Fin 8) (v : W32) (s : State) : Out :=
  .next (s.storeIf c (islLc k.val) 5 fun s => s.lcFrameWrite k v)

/-- A write to a buffer base register is stored or ignored with CFG_ERR. (R294) -/
def execChainBaseWrite (c : Fin 4) (k : Fin 8) (out : Bool) (i : Fin 2) (v : W32) (s : State) : Out :=
  .next (s.storeIf c (islLc k.val) 5 fun s => s.lcBaseWrite k out i v)

/-- A chain starts a frame: it takes the frame settings, increments TX_SEQ and sends reset, header and shares. (R288)
-/
def execChainFrameStart (k : Fin 8) (late : List Nat) (s : State) : Out :=
  .next (s.lcFrameStart k late)

/-- The last bit of a frame is sent and a continuous chain becomes ready for its next frame. (R286) -/
def execChainFrameEnd (k : Fin 8) (s : State) : Out :=
  .next (s.lcFrameEnd k)

/-- A complete return stream is checked, its statuses stored and its results recorded. (R299) -/
def execReturnStream (k : Fin 8) (start : Bool) (echo : W32) (body : List W8) (extra : Nat) (s : State) : Out :=
  .next (if start then s.lcReturnBegin k else s.lcReturn k echo body extra)

/-- A frame whose echo has not begun within ECHO_TMO stops being outstanding. (R296) -/
def execEchoTimeout (k : Fin 8) (s : State) : Out :=
  .next (s.lcEchoTimeout k)

/-- A rising edge after a return's end within RESET_US sets GLITCH. (R300) -/
def execChainGlitch (k : Fin 8) (s : State) : Out :=
  .next (s.lcGlitch k)

end Sys2Proof.Machine
end

