-- ==== Sys2Proof/Machine/ExecFabric.lean ====
section
/-! DEFINITION. Meanings of the command rows: Register fabric, events, time base. -/

namespace Sys2Proof.Machine

/-- A pair store to a register field with no row of its own stores, clears or ignores the value as its access code
states. (R10) -/
def execRegisterWrite (c : Fin 4) (b : Fin 22) (off : BitVec 16) (v : W32) (s : State) : Out :=
  .next (s.regWriteRow c b.val off.toNat v)

/-- A core's read of an RC field returns its value and then clears it, unless hardware sets it in the same cycle.
(R10) -/
def execRcRead (c : Fin 4) (b : Fin 22) (off : BitVec 16) (s : State) : Out :=
  .next (s.regReadRow c b.val off.toNat)

/-- A control-plane reset resets the CORE island, the PMC fabric counters and MBX.WD_CFG, and starts the orphan hold.
(R13) -/
def execControlPlaneReset (cause : Fin 4) (s : State) : Out :=
  .next (s.cpResetRow cause)

/-- When an island's outbound event buffer frees after discards, the island sends a LOST event holding the count.
(R27) -/
def execLost (i : Fin 72) (s : State) : Out :=
  .next (s.pull i.val)

/-- TMB wraps to zero, increments WRAPS and sets WRAPPED. (R29) -/
def execTmbWrap (s : State) : Out :=
  .next (s.tmbWrap)

/-- With EN set and the count at or past the alarm value, the alarm sets FIRED, clears EN and emits code 0x01. (R34)
-/
def execTmbAlarm (s : State) : Out :=
  .next (s.tmbAlarm)

/-- A load of TMB.TIME_LO latches count bits [47:32] into the reading requester's TIME_HI latch. (R32) -/
def execTimeLoRead (r : Fin 5) (s : State) : Out :=
  .next (s.latchRow r 0x14 0)

/-- An event record reaching a core's interrupt controller is matched against the filters and stored in its event
queue. (R380) -/
def execEventRecordMatch (c : Fin 4) (i : Fin 72) (s : State) : Out :=
  .next (s.coreEvent c i.val)

end Sys2Proof.Machine
end

