-- ==== Sys2Proof/Machine/ExecFlow.lean ====
section
/-! DEFINITION. Meanings of the command rows: Crika control flow, pairs, interrupts. -/

namespace Sys2Proof.Machine

/-- Branches by a signed word offset. (R349) -/
def execB (c : Fin 4) (cond : BitVec 4) (d : BitVec 14) (s : State) : Out :=
  .next (s.coreRun c (opB cond d))

/-- Pushes the return offset and branches. (R349) -/
def execCall (c : Fin 4) (cond : BitVec 4) (d : BitVec 14) (s : State) : Out :=
  .next (s.coreRun c (opCall cond d))

/-- Jumps to the offset in ra. (R349) -/
def execJmp (c : Fin 4) (cond : BitVec 4) (ra : BitVec 5) (s : State) : Out :=
  .next (s.coreRun c (opJmp cond ra))

/-- Pushes the return offset and jumps to ra. (R349) -/
def execCallr (c : Fin 4) (cond : BitVec 4) (ra : BitVec 5) (s : State) : Out :=
  .next (s.coreRun c (opCallr cond ra))

/-- Pops the return stack into PC. (R349) -/
def execRet (c : Fin 4) (cond : BitVec 4) (s : State) : Out :=
  .next (s.coreRun c (opRet cond))

/-- Copies RC into the repeat counter and repeats the next word. (R358) -/
def execRep (c : Fin 4) (cond : BitVec 4) (s : State) : Out :=
  .next (s.coreRun c (opRep cond))

/-- One iteration of the repeated word runs and the repeat counter decrements. (R358) -/
def execRepeatIteration (c : Fin 4) (s : State) : Out :=
  .next (s.repeatRow c)

/-- The TRAP instruction enters the trap vector with its number. (R349) -/
def execTrap (c : Fin 4) (cond : BitVec 4) (n : BitVec 8) (s : State) : Out :=
  .next (s.coreRun c (opTrap cond n))

/-- Commits a pending SEG0, restores SW and resumes at EPC or the repetition. (R392) -/
def execReti (c : Fin 4) (cond : BitVec 4) (s : State) : Out :=
  .next (s.coreRun c (opReti cond))

/-- Stops the core's clock until an accepted line is pending. (R387) -/
def execWait (c : Fin 4) (cond : BitVec 4) (s : State) : Out :=
  .next (s.coreRun c (opWait cond))

/-- A line L >= LVL becoming pending restarts a waiting core. (R387) -/
def execWaitResume (c : Fin 4) (s : State) : Out :=
  .next (s.waitResume c)

/-- A pair word runs short operations A and B together from the state before the word. (R355) -/
def execPair (c : Fin 4) (cond : BitVec 4) (x : BitVec 13) (y : BitVec 13) (s : State) : Out :=
  .next (s.coreRun c (opPair cond x y))

/-- At a word boundary with IE 1 and TS 0 the core takes the highest pending line at or above LVL. (R385) -/
def execInterruptEntry (c : Fin 4) (s : State) : Out :=
  .next (s.intAccept c)

end Sys2Proof.Machine
end

