-- ==== Sys2Proof/Machine/ExecHighSide.lean ====
section
/-! DEFINITION. Meanings of the command rows: High-side channels. -/

namespace Sys2Proof.Machine

/-- A write of CH_CTL.EN 1 moves a DISABLED high-side channel to OFF. (R50) -/
def execHsEnSet (c : Fin 4) (n : Fin 48) (v : W32) (same : Bool) (s : State) : Out :=
  .next (s.storeIf c (islHs n.val) 8 fun s => s.hsCtlWrite n (v ||| 1) same)

/-- A write of CH_CTL.EN 0 withdraws or switches off the channel and moves it to DISABLED, subject to R54. (R50) -/
def execHsEnClear (c : Fin 4) (n : Fin 48) (v : W32) (same : Bool) (s : State) : Out :=
  .next (s.storeIf c (islHs n.val) 8 fun s => s.hsCtlWrite n (v &&& 0xFFFFFFFE) same)

/-- The OFF command withdraws or switches off the channel and moves it to OFF, or is refused in LATCHED. (R50) -/
def execHsOff (c : Fin 4) (n : Fin 48) (adm : Bool) (multi : Bool) (same : Bool) (s : State) : Out :=
  .next (if adm then s.deliver n.val .off fun s => s.hsOffCmd n 9 same
    else s.storeIf c (islHs n.val) 8 fun s => s.hsCmdWrite n true multi same)

/-- The CLEAR command zeroes RETRY_CNT and leaves RETRY_WAIT or LATCHED, unless the thermal latch is held. (R50) -/
def execHsClear (c : Fin 4) (n : Fin 48) (multi : Bool) (s : State) : Out :=
  .next (s.storeIf c (islHs n.val) 8 fun s => s.hsCmdWrite n multi true false)

/-- GLOBAL_CMD.ALL_OFF sends an OFF command to every channel not in limp mode. (R96) -/
def execHsAllOff (c : Fin 4) (same : Bool) (s : State) : Out :=
  .next (s.storeIf c 2 8 fun s => s.hsAllOff same)

/-- ADM's forwarded entry reaches the channel, which confirms it and enters PENDING, enters UV_WAIT, or refuses. (R50)
-/
def execHsRequestQueued (n : Fin 48) (s : State) : Out :=
  .next (s.hsEntryRow n)

/-- A grant reaching the channel switches it on from PENDING, or is returned to ADM. (R51) -/
def execHsGrant (n : Fin 48) (clampCycles : Nat) (s : State) : Out :=
  .next (s.deliver n.val .grant fun s => s.hsGrantArrives n clampCycles)

/-- ADM's drop message at a deadline moves a PENDING channel to OFF. (R50) -/
def execHsDrop (n : Fin 48) (s : State) : Out :=
  .next (s.deliver n.val .drop fun s => s.hsDrop n)

/-- An inrush-envelope step expires and the next step's threshold applies. (R67) -/
def execEnvStep (n : Fin 48) (s : State) : Out :=
  .next (s.hsEnvStep n)

/-- Current above the threshold for OC_FILT latches over-current and takes the fault path. (R59) -/
def execOverCurrent (n : Fin 48) (ma : Nat) (cycles : Nat) (s : State) : Out :=
  .next (s.hsOverCurrent n ma cycles)

/-- Current reaching 4 x I_nom turns the switch off within 2 us and takes the fault path. (R60) -/
def execShortCircuit (n : Fin 48) (ma : Nat) (oc : Bool) (s : State) : Out :=
  .next (s.hsShort n ma oc)

/-- Tj reaching 175 C sets the thermal latch, with the transitions of R50. (R74) -/
def execThermalLatchSet (n : Fin 48) (tj : Int) (sc : Bool) (oc : Bool) (s : State) : Out :=
  .next (s.hsThermalSet n tj sc oc)

/-- Tj falling to 155 C clears the thermal latch and starts a held retry timer. (R74) -/
def execThermalLatchClear (n : Fin 48) (tj : Int) (s : State) : Out :=
  .next (s.hsThermalClear n tj)

/-- A bank below its threshold for 20 us switches off or withdraws its channels, valves and strings as their tables
state. (R68) -/
def execBankUnderVoltage (b : Fin 4) (mv : Nat) (us : Nat) (s : State) : Out :=
  .next (s.bankUv b mv us)

/-- A bank above threshold plus hysteresis for 10 ms makes BANK_OK true, and waiting channels submit restart requests.
(R68) -/
def execBankRecover (b : Fin 4) (mv : Nat) (us : Nat) (s : State) : Out :=
  if 65000 < mv then .fault .beyondRatings else .next (s.bankRecover b mv us)

/-- The retry timer expires and, with BANK_OK and no thermal latch, the channel increments RETRY_CNT and requests a
restart. (R76) -/
def execRetryTimerExpiry (n : Fin 48) (s : State) : Out :=
  .next (s.hsRetryExpiry n)

/-- After HEAL seconds in ON, RETRY_CNT returns to zero. (R78) -/
def execHealExpiry (n : Fin 48) (s : State) : Out :=
  .next (s.hsHeal n)

/-- A write to ENV_CFG clears ENV_LOADED and starts copying the envelope into the staging copy, or is refused with
CFG_ERR. (R65) -/
def execEnvCfgWrite (c : Fin 4) (n : Fin 48) (v : W32) (s : State) : Out :=
  .next (s.storeIf c (islHs n.val) 8 fun s => s.hsEnvWrite n v)

/-- The envelope copy completes without an intervening write and ENV_LOADED sets. (R62) -/
def execEnvCopyDone (n : Fin 48) (s : State) : Out :=
  .next (s.hsEnvDone n)

/-- A write to UV_CFG reaches every powered channel island of the bank and takes effect there. (R665) -/
def execUvCfgWrite (c : Fin 4) (b : Fin 4) (v : W32) (s : State) : Out :=
  .next (s.storeIf c 2 8 fun s => s.uvCfgWrite b v)

/-- The orphan timer expires: mapped targets enter limp mode and other channels go OFF. (R84) -/
def execOrphanExpiry (s : State) : Out :=
  .next (s.orphanDue)

/-- A write of RECLAIM stops the orphan hold, or clears EXPIRY and returns limp targets to firmware. (R87) -/
def execOrphanReclaim (c : Fin 4) (s : State) : Out :=
  .next (s.storeIf c 2 8 State.orphanReclaim)

/-- V_DS rising to 63 V with the switch off begins a clamp. (R103) -/
def execClampBegin (n : Fin 48) (vds : Nat) (s : State) : Out :=
  .next (s.clampBegin n vds)

/-- At a clamp's end the channel estimates its energy, writes the clamp registers and adds it to ADM. (R109) -/
def execClampEnd (n : Fin 48) (cycles : Nat) (s : State) : Out :=
  .next (s.clampEndRow n cycles)

/-- A clamp still running at 65,535 us is evaluated at that moment as over the limit. (R105) -/
def execClampTimeout (n : Fin 48) (s : State) : Out :=
  .next (s.clampTimeout n)

end Sys2Proof.Machine
end

