-- ==== Sys2Proof/Machine/ExecHost.lean ====
section
/-! DEFINITION. Meanings of the command rows: Host port. -/

namespace Sys2Proof.Machine

/-- HP_CSN falling starts a transaction, sends the status block and fixes the response. (R518) -/
def execHpTransactionStart (sck : Bool) (s : State) : Out :=
  .next (s.hpStart sck)

/-- HP_CSN rising ends a transaction, judges its request and retires a fully sent response. (R511) -/
def execHpTransactionEnd (sdi : List Bool) (take : Bool) (s : State) : Out :=
  .next (s.hpEnd (spiBytes sdi) take)

/-- Hardware command NOP does nothing. (R512) -/
def execHpNop (seq : BitVec 8) (src : BitVec 4) (s : State) : Out :=
  .next (s.hpTransaction (hpFrame 0x00 seq.toNat src.toNat [] 0))

/-- Hardware command RESEND sends the last response again, or is judged NO_COPY. (R512) -/
def execResend (seq : BitVec 8) (src : BitVec 4) (s : State) : Out :=
  .next (s.hpTransaction (hpFrame 0x01 seq.toNat src.toNat [] 0))

/-- Hardware command IDENT answers with the SYS identity words. (R512) -/
def execIdent (seq : BitVec 8) (src : BitVec 4) (s : State) : Out :=
  .next (s.hpTransaction (hpFrame 0x02 seq.toNat src.toNat [] 0))

/-- Hardware command FORGET clears the duplicate record of its source. (R512) -/
def execHpForget (seq : BitVec 8) (src : BitVec 4) (s : State) : Out :=
  .next (s.hpTransaction (hpFrame 0x03 seq.toNat src.toNat [] 0))

/-- Hardware command ACK_RESTART clears RESTARTED. (R512) -/
def execAckRestart (seq : BitVec 8) (src : BitVec 4) (s : State) : Out :=
  .next (s.hpTransaction (hpFrame 0x04 seq.toNat src.toNat [] 0))

/-- An accepted forwarded command is pushed to queue 12, recorded and counted outstanding, or judged DUP or BUSY.
(R515) -/
def execHpForward (cmd : BitVec 8) (seq : BitVec 8) (src : BitVec 4) (payload : List W32) (s : State) : Out :=
  .next (s.hpTransaction (hpFrame cmd.toNat seq.toNat src.toNat payload 0))

/-- The port takes a complete response from queue 13 into its transmit buffer and closes its command. (R516) -/
def execHpResponseTake (s : State) : Out :=
  .next (s.hpTake)

/-- HP_CSN falling in SLEEP or DEEP requests a wake from PWR. (R523) -/
def execHpCsnWake (s : State) : Out :=
  .next (s.hpCsnRow)

end Sys2Proof.Machine
end

