-- ==== Sys2Proof/Machine/ExecInput.lean ====
section
/-! DEFINITION. Meanings of the command rows: Inputs and limp map. -/

namespace Sys2Proof.Machine

/-- DEB consecutive differing samples change a switch input's state and emit SI_CHANGE. (R314) -/
def execSiChange (i : Fin 16) (mv : Int) (n : Nat) (s : State) : Out :=
  .next (s.siSamples i mv n)

/-- In SLEEP and DEEP each switch input is polled with wetting current on for 200 us. (R315) -/
def execSiPoll (mv : Vector Int 16) (s : State) : Out :=
  .next (s.siPollAll mv)

/-- VL3 crossing 9 V freezes or releases the switch inputs and sets VL3_LOW. (R317) -/
def execVl3Low (mv : Nat) (s : State) : Out :=
  .next (s.vl3Cross mv)

/-- A filtered DIN level change updates DIN_STAT, drives routed targets and may request a wake. (R318) -/
def execDinChange (i : Fin 8) (level : Bool) (half : Nat) (same : Bool) (s : State) : Out :=
  .next (s.dinChange i level half same)

/-- A routed target whose OFF returned TOO_LATE repeats the OFF in the next island cycle. (R320) -/
def execRoutedOffRepeat (t : Fin 67) (s : State) : Out :=
  .next (s.routedRepeat t)

/-- The filtered LIMP pad changes PAD and so ACTIVE. (R324) -/
def execLimpPadChange (level : Bool) (ms : Nat) (same : Bool) (s : State) : Out :=
  .next (s.limpPad level ms same)

/-- A write to INP.LMAP stores the map entry, or is refused while limp is active or a commit runs. (R329) -/
def execLmapWrite (c : Fin 4) (w : Fin 17) (v : W32) (s : State) : Out :=
  .next (s.store c 0 fun s => s.lmapWrite w.val v)

/-- LMAP_CMD.COMMIT with the key starts writing the map to the older limp-store copy. (R330) -/
def execCommit (c : Fin 4) (key : W16) (s : State) : Out :=
  .next (s.store c 0 fun s => s.lmapCmd key.toNat true false)

/-- LMAP_CMD.RELOAD with the key reloads the working map from the store. (R330) -/
def execReload (c : Fin 4) (key : W16) (s : State) : Out :=
  .next (s.store c 0 fun s => s.lmapCmd key.toNat false true)

/-- The limp-store commit completes, clears BUSY and emits LMAP_DONE. (R330) -/
def execLmapDone (s : State) : Out :=
  .next (s.lmapDone)

/-- An enabled AIN input converts and updates CODE and MV. (R334) -/
def execAinConversion (i : Fin 4) (code : BitVec 12) (ma : Nat) (s : State) : Out :=
  .next (s.ainConv i code ma)

/-- A write of VSENS_EN from 0 to 1 clears FAULT and turns VSENS on. (R335) -/
def execVsensEnable (c : Fin 4) (v : W32) (s : State) : Out :=
  .next (s.store c 0 fun s => s.ainCtlWrite (v ||| 0x100))

/-- VSENS held at its current limit for 1 ms turns off, sets FAULT and emits VSENS_FAULT. (R335) -/
def execVsensFault (ma : Nat) (us : Nat) (s : State) : Out :=
  .next (s.vsensTrip ma us)

end Sys2Proof.Machine
end

