-- ==== Sys2Proof/Machine/ExecLamp.lean ====
section
/-! DEFINITION. Meanings of the command rows: Lamp matrix. -/

namespace Sys2Proof.Machine

/-- A write of S_CTL.EN 1 moves a DISABLED string to OFF. (R257) -/
def execLampEnSet (c : Fin 4) (k : Fin 3) (v : W32) (same : Bool) (s : State) : Out :=
  .next (s.storeIf c (islLs k.val) 6 fun s => s.lsCtlWrite k (v ||| 1) same)

/-- A write of EN 0 withdraws or stops a string and moves it to DISABLED, subject to R259. (R257) -/
def execLampEnClear (c : Fin 4) (k : Fin 3) (v : W32) (same : Bool) (s : State) : Out :=
  .next (s.storeIf c (islLs k.val) 6 fun s => s.lsCtlWrite k (v &&& 0xFFFFFFFE) same)

/-- The ON command requests a string start from ADM, merges or is refused. (R257) -/
def execLampOn (c : Fin 4) (k : Fin 3) (v3 : W16) (multi : Bool) (s : State) : Out :=
  .next (s.storeIf c (islLs k.val) 6 fun s => (s.modLs k fun l => { l with v3 := v3.toNat }).lsCmdWrite k true multi false false 0)

/-- The OFF command withdraws or stops a string. (R257) -/
def execLampOff (c : Fin 4) (k : Fin 3) (multi : Bool) (same : Bool) (s : State) : Out :=
  .next (s.storeIf c (islLs k.val) 6 fun s => s.lsCmdWrite k multi true false same 0)

/-- The CLEAR command leaves LATCHED unless the thermal latch is held. (R257) -/
def execLampClear (c : Fin 4) (k : Fin 3) (multi : Bool) (s : State) : Out :=
  .next (s.storeIf c (islLs k.val) 6 fun s => s.lsCmdWrite k false multi true false 0)

/-- The SEG_CLR mask clears OPEN, SHORT and BYPASS of the selected segments from the next frame. (R254) -/
def execSegClr (c : Fin 4) (k : Fin 3) (mask : BitVec 8) (s : State) : Out :=
  .next (s.storeIf c (islLs k.val) 6 fun s => s.lsCmdWrite k false false false false mask.toNat)

/-- A grant starts a PENDING string's ramp, or is returned. (R257) -/
def execLampGrant (k : Fin 3) (s : State) : Out :=
  .next (s.deliver (64 + k.val) .grant fun s => s.lsGrantArrives k)

/-- ADM's drop message moves a PENDING string to OFF. (R257) -/
def execLampDrop (k : Fin 3) (s : State) : Out :=
  .next (s.deliver (64 + k.val) .drop fun s => s.lsDrop k)

/-- The ramp ends, the string enters ON and releases its claim. (R257) -/
def execRampComplete (k : Fin 3) (s : State) : Out :=
  .next (s.lsRampEnd k)

/-- A string begins a frame, applies stored segment writes and schedules lit intervals and probes. (R242) -/
def execLampFrameStart (k : Fin 3) (cycles : Nat) (vOut : Nat) (s : State) : Out :=
  .next (s.lsFrame k cycles vOut)

/-- 8 us into a lit interval the string samples VF and judges the segment. (R248) -/
def execSegmentJudge (k : Fin 3) (i : Fin 8) (mv : Nat) (s : State) : Out :=
  .next (s.lsJudge k i mv)

/-- Segment voltage above V_OPEN for 1 us closes its shunt and bypasses it or latches the string. (R249) -/
def execSegOpen (k : Fin 3) (i : Fin 8) (mv : Nat) (ns : Nat) (s : State) : Out :=
  .next (s.lsSegOpen k i mv ns)

/-- Buck output current exceeding the string current by 0.2 A for 50 us latches the string. (R255) -/
def execSShort (k : Fin 3) (buckMa : Nat) (ma : Nat) (us : Nat) (s : State) : Out :=
  .next (s.lsShort k buckMa ma us)

/-- String current below 50 % at V_LIM for 1 ms latches the string. (R255) -/
def execSOpen (k : Fin 3) (ma : Nat) (us : Nat) (atLim : Bool) (s : State) : Out :=
  .next (s.lsOpen k ma us atLim)

/-- String current below or back within 90 % at V_LIM for 1 ms sets or clears SAT. (R255) -/
def execStringSat (k : Fin 3) (ma : Nat) (us : Nat) (atLim : Bool) (s : State) : Out :=
  .next (s.lsSat k ma us atLim)

/-- The string sensor reaching 175 C latches the string. (R255) -/
def execStringThermal (k : Fin 3) (tj : Int) (s : State) : Out :=
  .next (s.lsThermal k tj)

/-- A write of LMP.CFG.PER sets the frame period, or is refused with CFG_ERR. (R241) -/
def execLampPerWrite (c : Fin 4) (per : BitVec 3) (s : State) : Out :=
  .next (s.storeIf c 17 6 fun s => s.lmpPerWrite per.toNat)

/-- A write to S_DIM starts a dimming-curve copy or is refused. (R247) -/
def execDimWrite (c : Fin 4) (k : Fin 3) (v : W32) (s : State) : Out :=
  .next (s.storeIf c (islLs k.val) 6 fun s => s.lsDimWrite k v)

/-- The dimming-curve copy completes and DIM_LOADED sets. (R247) -/
def execDimCopyDone (k : Fin 3) (s : State) : Out :=
  .next (s.lsDimDone k)

/-- The string sensor falling to 155 C clears the thermal latch, ends the refusal of CLEAR, and a string in UV_WAIT
with B true submits its request. (R257) -/
def execStringThermalLatchClear (k : Fin 3) (tj : Int) (s : State) : Out :=
  .next (s.lsThermalClear k tj)

/-- ADM's forwarded entry for target 64 + k reaches the lamp string, which confirms it if the string is still PENDING
or refuses it. (R163) -/
def execLampQueueMessage (k : Fin 3) (s : State) : Out :=
  .next (s.deliver (64 + k.val) .entry fun s => s.lsEntry k)

end Sys2Proof.Machine
end

