-- ==== Sys2Proof/Machine/ExecMeasure.lean ====
section
/-! DEFINITION. Meanings of the command rows: Digitisers, estimators, curves. -/

namespace Sys2Proof.Machine

/-- A digitiser takes a calibrated sample and updates published values, windows, captures and estimators. (R113) -/
def execDigitiserSample (t : Fin 67) (raw : Int) (tj : Int) (top : Nat) (s : State) : Out :=
  .next (s.sampleRow t raw tj top)

/-- At each millisecond a running digitiser sends ADM the mean current of that millisecond. (R124) -/
def execMsMeanSend (t : Fin 67) (s : State) : Out :=
  .next (s.msSend t)

/-- The pad-voltage converter samples the output pad every 1,000 us. (R125) -/
def execPadVoltageSample (n : Fin 48) (mv : Int) (s : State) : Out :=
  .next (s.padSample n mv)

/-- The ZERO command starts offset zeroing, or is refused. (R120) -/
def execMeasZero (c : Fin 4) (t : Fin 67) (s : State) : Out :=
  .next (s.storeIf c (islOf t.val) 9 fun s => s.zeroCmd t)

/-- After 256 samples a ZERO writes TRIM, clears ZERO_BUSY and emits ZERO_DONE. (R120) -/
def execZeroDone (t : Fin 67) (s : State) : Out :=
  .next (s.zeroDone t)

/-- A write of SNAP_CMD.SNAP sets the snap time T_s. (R126) -/
def execSnap (c : Fin 4) (s : State) : Out :=
  .next (s.storeIf c 2 9 fun s => s.snapCmd true false)

/-- A write of SNAP_CMD.GTRIG sets a global capture trigger at T_s. (R129) -/
def execGtrig (c : Fin 4) (alsoSnap : Bool) (s : State) : Out :=
  .next (s.storeIf c 2 9 fun s => s.snapCmd alsoSnap true)

/-- A digitiser's time-base copy reaches T_s and it copies its 50-sample mean into I_AVG.SNAP. (R126) -/
def execSnapLatch (t : Fin 67) (late : Bool) (s : State) : Out :=
  .next (s.snapLatch t late)

/-- The ARM command arms a capture or is refused with CFG_ERR. (R128) -/
def execCaptureArm (c : Fin 4) (t : Fin 67) (s : State) : Out :=
  .next (s.storeIf c (islOf t.val) 9 fun s => s.capArm t)

/-- The DISARM command returns an armed capture to IDLE or aborts a running one. (R133) -/
def execCaptureDisarm (c : Fin 4) (t : Fin 67) (s : State) : Out :=
  .next (s.storeIf c (islOf t.val) 9 fun s => s.capDisarm t)

/-- The TRIG command triggers an armed capture. (R129) -/
def execCaptureTrig (c : Fin 4) (t : Fin 67) (s : State) : Out :=
  .next (s.storeIf c (islOf t.val) 9 fun s => s.capTrig t)

/-- A 32-byte burst of capture records is written to bulk memory. (R131) -/
def execCaptureBurstWrite (t : Fin 67) (s : State) : Out :=
  .next (s.capBurst t)

/-- A settling search still running at 65,535 ms ends. (R137) -/
def execSettleTimeout (n : Fin 48) (s : State) : Out :=
  .next (s.settleTimeout n)

/-- Every 1,024,000 us after settling the channel closes a steady period and writes I_STEADY, V_MEAN, R_LOAD and
ripple results. (R138) -/
def execSteadyPeriodClose (n : Fin 48) (s : State) : Out :=
  .next (s.steadyClose n)

/-- Each hour the channel updates the short and long trends and deviations. (R142) -/
def execTrendUpdate (n : Fin 48) (s : State) : Out :=
  .next (s.trendUpdate n)

/-- The TR_RESET command clears all trend values, VALID bits and HOURS. (R143) -/
def execTrReset (c : Fin 4) (n : Fin 48) (s : State) : Out :=
  .next (s.storeIf c (islHs n.val) 8 fun s => s.trReset n)

/-- A write to a LONG trend field stores it and sets that quantity's VALID bit. (R144) -/
def execTrendLongWrite (c : Fin 4) (n : Fin 48) (q : Fin 3) (v : W16) (s : State) : Out :=
  .next (s.storeIf c (islHs n.val) 8 fun s => s.trLong n q v.toNat)

/-- A write to a curve-store entry stores it, restarts any copy that has passed it, or is refused by the page lock.
(R150) -/
def execCurveEntryWrite (c : Fin 4) (i : Fin 4096) (v : W32) (s : State) : Out :=
  .next (s.store c 2 fun s => s.curveWrite i.val v)

end Sys2Proof.Machine
end

