-- ==== Sys2Proof/Machine/ExecMgmt.lean ====
section
/-! DEFINITION. Meanings of the command rows: Management and mailbox. -/

namespace Sys2Proof.Machine

/-- The MGMT hardware timer resets the MGMT island after 1 s unserved. (R538) -/
def execMgmtReset (s : State) : Out :=
  .next (s.mgmtReset)

/-- The Deputy samples a sensor quantity and mirrors it into MBX. (R539) -/
def execSensorSample (q : Fin 20) (x : Int) (hz : Nat) (dc : Bool) (s : State) : Out :=
  .next (s.sensorRow q x hz dc)

/-- The isolation monitor measures the barrier and updates WARN and ALARM. (R540) -/
def execIsoMeasure (ohms : Nat) (s : State) : Out :=
  .next (s.isoMeasure ohms)

/-- A write of WD_KICK with the key records a core's kick and may end the period. (R541) -/
def execWdKick (c : Fin 4) (key : W16) (s : State) : Out :=
  .next (s.storeIf c 3 11 fun s => s.wdKick c key.toNat)

/-- A watchdog period exceeding MAX resets the control plane. (R542) -/
def execWdExpiry (s : State) : Out :=
  .next (s.wdExpire)

/-- 75 % of MAX passing in a period emits WD_WARN. (R542) -/
def execWdWarn (s : State) : Out :=
  .next (s.wdWarn)

/-- After the fourth reset's 60 s hold the Deputy releases the control plane. (R545) -/
def execWdHoldRelease (s : State) : Out :=
  .next (s.wdHoldEnd)

/-- An event selected by the log filter reaches the Deputy and is buffered as a log entry. (R546) -/
def execDeputyEvent (i : Fin 72) (s : State) : Out :=
  .next (s.depEvent i.val)

/-- A buffered log entry is written to log flash. (R549) -/
def execLogFlashWrite (s : State) : Out :=
  .next (s.logFlash)

/-- Hourly and at DEEP entry the Deputy adds channel counters and trends to the management store. (R553) -/
def execLifetimeSnapshot (s : State) : Out :=
  .next (s.lifeSnapshot)

/-- Every 10 s the Deputy samples Tj for equivalent hours. (R555) -/
def execLifeTjSample (s : State) : Out :=
  .next (s.lifeTj)

/-- Hourly the Deputy recomputes remaining life L for every target and the module. (R556) -/
def execLifeRecompute (s : State) : Out :=
  .next (s.lifeRecompute)

/-- A write to MBX.POST stamps and posts a request slot, or is refused. (R565) -/
def execPost (c : Fin 4) (slot : Fin 32) (s : State) : Out :=
  .next (s.storeIf c 3 11 fun s => s.mbxPost c slot)

/-- A write to RSP_ACK frees a response slot. (R566) -/
def execRspAck (c : Fin 4) (slot : BitVec 6) (s : State) : Out :=
  .next (s.storeIf c 3 11 fun s => s.rspAck slot.toNat)

/-- CHECK_IN passes an image trial and raises CNT to its SVN. (R560) -/
def execCheckIn (s : State) : Out :=
  .next (s.opCheckIn)

/-- LIMP_SET makes the Deputy assert limp. (R323) -/
def execLimpSet (s : State) : Out :=
  .next (s.opLimpSet)

/-- LIMP_RELEASE clears the Deputy's limp source. (R325) -/
def execLimpRelease (s : State) : Out :=
  .next (s.opLimpRelease)

/-- LOG_WRITE adds a firmware record to the event log. (R546) -/
def execLogWrite (s : State) : Out :=
  .next (s.opLogWrite)

/-- LOG_READ returns log entries by SEQ, one per response slot. (R552) -/
def execLogRead (s : State) : Out :=
  .next (s.opLogRead)

/-- LOG_FILTER adds or removes a log filter entry. (R548) -/
def execLogFilter (s : State) : Out :=
  .next (s.opLogFilter)

/-- LIFE_READ returns a target's life figures. (R568) -/
def execLifeRead (s : State) : Out :=
  .next (s.opLifeRead)

/-- TREND_READ returns a channel's stored LONG trend values. (R553) -/
def execTrendRead (s : State) : Out :=
  .next (s.opTrendRead)

/-- TEMP_LIMIT sets and stores a temperature point's alarm limit. (R539) -/
def execTempLimit (s : State) : Out :=
  .next (s.opTempLimit)

/-- UPD_BEGIN starts erasing the inactive code-flash bank. (R559) -/
def execUpdBegin (s : State) : Out :=
  .next (s.opUpdBegin)

/-- UPD_WRITE programs image bytes from bulk memory into the inactive bank. (R559) -/
def execUpdWrite (s : State) : Out :=
  .next (s.opUpdWrite)

/-- UPD_VERIFY checks the written image against R558. (R558) -/
def execUpdVerify (s : State) : Out :=
  .next (s.opUpdVerify)

/-- UPD_ACTIVATE records the inactive bank as next and may reboot the control plane. (R559) -/
def execUpdActivate (s : State) : Out :=
  .next (s.opUpdActivate)

/-- UPD_ABORT returns the update sequence to idle. (R559) -/
def execUpdAbort (s : State) : Out :=
  .next (s.opUpdAbort)

/-- An update operation completes and emits UPD_DONE with its status. (R570) -/
def execUpdDone (fail : Bool) (s : State) : Out :=
  .next (s.updDone fail)

/-- KEY_REVOKE burns a key slot's revocation fuse, or is refused for the active image's slot. (R562) -/
def execKeyRevoke (s : State) : Out :=
  .next (s.opKeyRevoke)

/-- DBG_CLOSE moves the debug port from OPEN to CLOSED. (R564) -/
def execDbgClose (s : State) : Out :=
  .next (s.opDbgClose)

/-- DBG_LOCK with the correct argument burns the fuse and locks the debug port. (R564) -/
def execDbgLock (s : State) : Out :=
  .next (s.opDbgLock)

/-- 60 s without CHECK_IN fails the image trial. (R560) -/
def execTrialTimeout (s : State) : Out :=
  .next (s.trialTimeout)

end Sys2Proof.Machine
end

