-- ==== Sys2Proof/Machine/ExecMove.lean ====
section
/-! DEFINITION. Meanings of the command rows: Crika loads and stores. -/

namespace Sys2Proof.Machine

/-- Loads a zero-extended byte. (R349) -/
def execLdb (c : Fin 4) (cond : BitVec 4) (rd : BitVec 5) (ra : BitVec 5) (seg : BitVec 3) (d : BitVec 8) (s : State) : Out :=
  .next (s.coreRun c (opLdb cond rd ra seg d))

/-- Loads a sign-extended byte. (R349) -/
def execLdbs (c : Fin 4) (cond : BitVec 4) (rd : BitVec 5) (ra : BitVec 5) (seg : BitVec 3) (d : BitVec 8) (s : State) : Out :=
  .next (s.coreRun c (opLdbs cond rd ra seg d))

/-- Loads a 16-bit word. (R349) -/
def execLdw (c : Fin 4) (cond : BitVec 4) (rd : BitVec 5) (ra : BitVec 5) (seg : BitVec 3) (d : BitVec 8) (s : State) : Out :=
  .next (s.coreRun c (opLdw cond rd ra seg d))

/-- Loads a 32-bit pair. (R349) -/
def execLdp (c : Fin 4) (cond : BitVec 4) (rd : BitVec 5) (ra : BitVec 5) (seg : BitVec 3) (d : BitVec 8) (s : State) : Out :=
  .next (s.coreRun c (opLdp cond rd ra seg d))

/-- Stores a byte. (R349) -/
def execStb (c : Fin 4) (cond : BitVec 4) (rd : BitVec 5) (ra : BitVec 5) (seg : BitVec 3) (d : BitVec 8) (s : State) : Out :=
  .next (s.coreRun c (opStb cond rd ra seg d))

/-- Stores a 16-bit word. (R349) -/
def execStw (c : Fin 4) (cond : BitVec 4) (rd : BitVec 5) (ra : BitVec 5) (seg : BitVec 3) (d : BitVec 8) (s : State) : Out :=
  .next (s.coreRun c (opStw cond rd ra seg d))

/-- Stores a 32-bit pair. (R349) -/
def execStp (c : Fin 4) (cond : BitVec 4) (rd : BitVec 5) (ra : BitVec 5) (seg : BitVec 3) (d : BitVec 8) (s : State) : Out :=
  .next (s.coreRun c (opStp cond rd ra seg d))

/-- LDW+ loads a word and post-increments the base register. (R351) -/
def execLdwPost (c : Fin 4) (cond : BitVec 4) (rd : BitVec 5) (ra : BitVec 5) (seg : BitVec 3) (d : BitVec 8) (s : State) : Out :=
  .next (s.coreRun c (opLdwPost cond rd ra seg d))

/-- LDP+ loads a pair and post-increments the base register. (R351) -/
def execLdpPost (c : Fin 4) (cond : BitVec 4) (rd : BitVec 5) (ra : BitVec 5) (seg : BitVec 3) (d : BitVec 8) (s : State) : Out :=
  .next (s.coreRun c (opLdpPost cond rd ra seg d))

/-- STW+ stores a word and post-increments the base register. (R351) -/
def execStwPost (c : Fin 4) (cond : BitVec 4) (rd : BitVec 5) (ra : BitVec 5) (seg : BitVec 3) (d : BitVec 8) (s : State) : Out :=
  .next (s.coreRun c (opStwPost cond rd ra seg d))

/-- STP+ stores a pair and post-increments the base register. (R351) -/
def execStpPost (c : Fin 4) (cond : BitVec 4) (rd : BitVec 5) (ra : BitVec 5) (seg : BitVec 3) (d : BitVec 8) (s : State) : Out :=
  .next (s.coreRun c (opStpPost cond rd ra seg d))

end Sys2Proof.Machine
end

