-- ==== Sys2Proof/Machine/ExecNet.lean ====
section
/-! DEFINITION. Meanings of the command rows: Transceivers and network management. -/

namespace Sys2Proof.Machine

/-- A write of TRX_CTL.MODE sets the transceiver state, or is refused while NM is enabled. (R485) -/
def execTrxModeWrite (c : Fin 4) (x : Fin 4) (v : W32) (s : State) : Out :=
  .next (s.storeIf c 0 4 fun s => s.trxWrite x v)

/-- A transceiver mode change completes and the new state applies. (R477) -/
def execTrxModeComplete (x : Fin 4) (s : State) : Out :=
  .next (s.trxComplete x)

/-- A transmitter dominant for 2.5 ms releases the bus and sets TXD_DOM. (R478) -/
def execTxdDom (x : Fin 4) (dom : Bool) (us : Nat) (s : State) : Out :=
  .next (s.trxTxd x dom us)

/-- Transceiver supply under-voltage presents a recessive bus and sets VCC_UV. (R478) -/
def execVccUv (x : Fin 4) (uv : Bool) (s : State) : Out :=
  .next (s.trxFault x s.nm[x].txdDom uv)

/-- A wake-up pattern biases the bus and, with SW_EN 0, wakes the transceiver. (R479) -/
def execWup (x : Fin 4) (d1 : Nat) (r : Nat) (d2 : Nat) (total : Nat) (s : State) : Out :=
  .next (s.trxWup x d1 r d2 total)

/-- After the bus has been recessive for 0.6 s to 1.2 s the bias returns to ground. (R479) -/
def execBiasTimeout (x : Fin 4) (us : Nat) (s : State) : Out :=
  .next (s.trxBiasOff x us)

/-- The selective-wake decoder decodes a classical frame and updates its error counter and NM. (R480) -/
def execDecodedFrame (x : Fin 4) (ok : Bool) (w0 : W32) (w1 : W32) (data : List W8) (s : State) : Out :=
  .next (s.nmDecoded x ok w0 w1 data)

/-- A node's awake streak ends after T_idle without its NEED keep-alive and its log is updated. (R500) -/
def execStreakEnd (x : Fin 4) (i : Fin 64) (s : State) : Out :=
  .next (s.nmStreakEnd x i)

/-- A write of NM_CTL.EN 1 moves NM from OFF to NEED or READY and starts T_idle. (R494) -/
def execNmEnable (c : Fin 4) (x : Fin 4) (v : W32) (s : State) : Out :=
  .next (s.storeIf c 0 4 fun s => s.nmCtlWrite x (v ||| 1))

/-- A write of NM_CTL.EN 0 moves NM to OFF. (R494) -/
def execNmDisable (c : Fin 4) (x : Fin 4) (v : W32) (s : State) : Out :=
  .next (s.storeIf c 0 4 fun s => s.nmCtlWrite x (v &&& 0xFFFFFFFE))

/-- NEED rising moves NM to NEED, waking or aborting sleep as needed. (R494) -/
def execNeedRise (c : Fin 4) (x : Fin 4) (s : State) : Out :=
  .next (s.storeIf c 0 4 fun s => s.nmCtlWrite x (s.nm[x].ctl ||| 4))

/-- NEED falling moves NM from NEED to READY. (R494) -/
def execNeedFall (c : Fin 4) (x : Fin 4) (s : State) : Out :=
  .next (s.storeIf c 0 4 fun s => s.nmCtlWrite x (s.nm[x].ctl &&& 0xFFFFFFFB))

/-- NM_CMD.ONLINE sets ONLINE and lets NM write MODE 1 in the awake states. (R492) -/
def execOnline (c : Fin 4) (x : Fin 4) (s : State) : Out :=
  .next (s.storeIf c 0 4 fun s => s.nmOnline x)

/-- NM_CMD.NS_CLR clears the network's night-shift log. (R501) -/
def execNsClr (c : Fin 4) (x : Fin 4) (s : State) : Out :=
  .next (s.storeIf c 0 4 fun s => s.nmNsClr x)

/-- T_ka expires in NEED and NM sends a keep-alive. (R494) -/
def execTKaExpiry (x : Fin 4) (s : State) : Out :=
  .next (s.nmKaExpiry x)

/-- Once ONLINE and MODE 1 hold, a pending keep-alive is sent with REPEAT and KA_PEND clears. (R488) -/
def execKeepaliveDeferredSend (x : Fin 4) (s : State) : Out :=
  .next (s.nmDeferred x)

/-- T_idle expires and READY enters PREP_SLEEP. (R494) -/
def execTIdleExpiry (x : Fin 4) (s : State) : Out :=
  .next (s.nmIdleExpiry x)

/-- T_fw expires in WAKE_CHECK and NM enters PREP_SLEEP. (R494) -/
def execTFwExpiry (x : Fin 4) (s : State) : Out :=
  .next (s.nmFwExpiry x)

/-- The controller reaches OFF and NM orders the transceiver to SLEEP or STANDBY. (R495) -/
def execPrepSleepStage1Done (x : Fin 4) (s : State) : Out :=
  .next (s.nmStage1Done x)

end Sys2Proof.Machine
end

