-- ==== Sys2Proof/Machine/ExecPlant.lean ====
section
/-! DEFINITION. Meanings of the command rows: Plant link. -/

namespace Sys2Proof.Machine

/-- A write of PLK.CTL.EN 1 turns the link on. (R527) -/
def execPlkEnable (c : Fin 4) (v : W32) (s : State) : Out :=
  .next (s.storeIf c 4 2 fun s => s.plkCtlWrite (v ||| 1) false 0 0)

/-- A write of EN 0 ends traffic, aborts owned transmit descriptors and resets HEAD. (R532) -/
def execPlkDisable (c : Fin 4) (v : W32) (same : Bool) (tries : BitVec 5) (ago : Nat) (s : State) : Out :=
  .next (s.storeIf c 4 2 fun s => s.plkCtlWrite (v &&& 0xFFFFFFFE) same tries.toNat ago)

/-- A transmit doorbell write starts processing the transmit ring at HEAD. (R529) -/
def execTxDb (c : Fin 4) (s : State) : Out :=
  .next (s.storeIf c 4 2 fun s => s.txLook)

/-- A receive doorbell write starts processing the receive ring at HEAD. (R529) -/
def execRxDb (c : Fin 4) (s : State) : Out :=
  .next (s.storeIf c 4 2 fun s => s.rxLook)

/-- A frame's transmission ends and its descriptor is written back and returned. (R529) -/
def execPlkTxComplete (res : Fin 3) (tries : BitVec 5) (ago : Nat) (opp : Fin 32) (nth : Nat) (gap : Nat) (s : State) : Out :=
  .next (s.plkTxDone res.val tries.toNat ago opp.val nth gap)

/-- A received frame is stored in the descriptor at RX HEAD, or discarded. (R531) -/
def execPlkFrameReceived (start : Bool) (frame : List W8) (ago : Nat) (s : State) : Out :=
  .next (s.plkReceive start frame ago)

/-- The PLCA status changes and PLCA_CHG is emitted. (R525) -/
def execPlcaChg (st : Bool) (s : State) : Out :=
  .next (s.plcaChange st)

end Sys2Proof.Machine
end

