-- ==== Sys2Proof/Machine/ExecPmc.lean ====
section
/-! DEFINITION. Meanings of the command rows: Performance counters and tags. -/

namespace Sys2Proof.Machine

/-- At a due dump every counter is latched and a record is written to the ring, or skipped or lost. (R426) -/
def execPmcDump (s : State) : Out :=
  .next (s.pmcDump)

/-- CMD.DUMP_NOW makes a dump due at the next TMB count. (R427) -/
def execDumpNow (c : Fin 4) (s : State) : Out :=
  .next (s.store c 1 fun s => s.pmcWrite 4 1)

/-- CMD.CLEAR_ALL zeroes every counter. (R428) -/
def execClearAll (c : Fin 4) (s : State) : Out :=
  .next (s.store c 1 fun s => s.pmcWrite 4 2)

/-- A dump record is fully written and WR_IDX advances. (R429) -/
def execDumpWriteDone (s : State) : Out :=
  .next (s.dumpDone)

/-- A write to DUMP_BASE or DUMP_RING resets the ring indices and sets RING_OK, or is refused. (R432) -/
def execDumpRingWrite (c : Fin 4) (base : Bool) (v : W32) (s : State) : Out :=
  .next (s.store c 1 fun s => s.pmcWrite (if base then 0xC else 0x10) v)

/-- A counter wraps, sets its OVF bit and may emit CNT_OVF. (R423) -/
def execCntOvf (i : Fin 48) (same : Bool) (s : State) : Out :=
  .next (s.cntOvf i same)

/-- A load of CYC_LO or RET_LO latches the upper bits for the reading requester. (R425) -/
def execCycLoRead (r : Fin 5) (x : Fin 4) (ret : Bool) (s : State) : Out :=
  .next (s.latchRow r 0x12 (0x100 + 0x40 * x.val + (if ret then 0x38 else 0x30)))

/-- TAG_CTL.EN rising seeds the LFSR and loads the tag interval. (R433) -/
def execTagEnable (c : Fin 4) (x : Fin 4) (v : W32) (s : State) : Out :=
  .next (s.store c 1 fun s => s.modTag x fun t => t.write (v ||| 1))

/-- The tag countdown reaches zero and the issued word is tagged or counted as skipped. (R433) -/
def execTagSelect (x : Fin 4) (s : State) : Out :=
  .next (s.tagSelectRow x)

/-- A tagged word completes and its 8-word record is pushed to queue 14. (R434) -/
def execTagRecord (c : Fin 4) (s : State) : Out :=
  .next (s.tagRecordRow c)

end Sys2Proof.Machine
end

