-- ==== Sys2Proof/Machine/ExecPower.lean ====
section
/-! DEFINITION. Meanings of the command rows: Power states and reset. -/

namespace Sys2Proof.Machine

/-- A keyed write to PWR.REQ starts an entry to SLEEP, DEEP or OFF, or is refused. (R576) -/
def execPwrRequest (c : Fin 4) (key : W16) (target : BitVec 2) (s : State) : Out :=
  .next (s.store c 0 fun s => s.pwrRequest key.toNat target.toNat)

/-- A started core not in WAIT within QTMO ms makes stage 1 refuse. (R578) -/
def execQtmoTimeout (s : State) : Out :=
  .next (s.qtmoTimeout)

/-- A block answers its stage, agreeing and stopping or refusing. (R659) -/
def execStageAnswer (s : State) : Out :=
  .next (s.stageAnswer)

/-- A block not answering within STAGE_TMO counts as refusing. (R581) -/
def execStageTimeout (s : State) : Out :=
  .next (s.stageTimeout)

/-- An enabled wake source's request is latched or starts a return. (R585) -/
def execWakeRequest (src : Fin 15) (s : State) : Out :=
  .next (s.wakeRow src)

/-- The WAKE pad held high for its filter time requests a wake, from OFF too. (R588) -/
def execWakePad (ms : Nat) (s : State) : Out :=
  .next (s.wakePad ms)

/-- A return step reports ready and the next step begins, or the return ends. (R591) -/
def execReturnStepReady (s : State) : Out :=
  .next (s.stepReady)

/-- A return step times out and is retried on its backup path, or the device enters OFF. (R592) -/
def execReturnStepTimeout (s : State) : Out :=
  .next (s.stepTimeout)

/-- The HUB finishes zeroing bulk memory and sets BULK_RDY. (R600) -/
def execBulkInitDone (s : State) : Out :=
  .next (s.bulkDone)

/-- A write to PWR.HOLD_REL releases held pad groups. (R602) -/
def execHoldRel (c : Fin 4) (mask : BitVec 6) (s : State) : Out :=
  .next (s.store c 0 fun s => s.holdRelease (mask.setWidth 32))

/-- MAINS_OK changes, updating SYS.SUPPLY and the source. (R609) -/
def execMainsChange (ok : Bool) (dc : Bool) (s : State) : Out :=
  .next (s.mainsChange ok dc)

/-- VBK_OK changes, updating SYS.SUPPLY. (R609) -/
def execVbkChange (ok : Bool) (dv : Nat) (s : State) : Out :=
  if 650 < dv then .fault .beyondRatings else .next (s.vbkChange ok dv)

/-- 100 ms after MAINS_OK rises and stays, the source returns to mains. (R609) -/
def execSourceChange (s : State) : Out :=
  .next (s.sourceChange)

/-- The auxiliary bus falling below the reset threshold asserts the AON power-on reset. (R611) -/
def execBusBrownOut (s : State) : Out :=
  .next (s.brownOut)

/-- The bus rising through the release threshold starts the device as at first power-up. (R618) -/
def execPowerOnReset (s : State) : Out :=
  .next (s.powerOnReset)

/-- The crystal disciplines the 2 MHz RC and TRIM_LOCK sets. (R618) -/
def execTrimLock (s : State) : Out :=
  .next (s.trimLock)

/-- RSTN low for 1 us or more holds the CORE island in reset. (R615) -/
def execRstnAssert (us : Nat) (s : State) : Out :=
  .next (if 1 ≤ us then s.rstnAssert else s)

/-- RSTN rising releases the CORE island and runs the image check and C0 release. (R615) -/
def execRstnRelease (ms : Nat) (s : State) : Out :=
  .next (s.rstnRelease.bootCheck ms)

/-- The boot ROM checks and selects an image, writes SYS.BOOT and releases C0 or holds it. (R619) -/
def execBootCheck (ms : Nat) (s : State) : Out :=
  .next (s.bootCheck ms)

end Sys2Proof.Machine
end

