-- ==== Sys2Proof/Machine/ExecQueue.lean ====
section
/-! DEFINITION. Meanings of the command rows: Hardware queues. -/

namespace Sys2Proof.Machine

/-- A push enters a word into a queue, or is discarded when full, disabled or of the wrong width. (R404) -/
def execQueuePush (c : Fin 4) (q : Fin 32) (v : W32) (s : State) : Out :=
  .next (s.store c 1 fun s => s.queFwPush q v)

/-- A load of QUE.POP removes and returns the oldest entry, or the last value when empty. (R404) -/
def execQueuePop (c : Fin 4) (q : Fin 32) (push : Option W32) (s : State) : Out :=
  .next (s.quePopRow c q push)

/-- The FLUSH command empties the queue and keeps its last value. (R409) -/
def execQueueFlush (c : Fin 4) (q : Fin 32) (push : Option W32) (s : State) : Out :=
  .next (s.queFlushRow c q push)

/-- A write to QUE.CFG enables, disables or reconfigures a queue, or is refused with CFG_ERR. (R401) -/
def execQueueCfgWrite (c : Fin 4) (q : Fin 32) (v : W32) (s : State) : Out :=
  .next (s.store c 1 fun s => s.queCfgWrite q v)

/-- T us without a pop while non-empty sets IDLE. (R412) -/
def execQueueIdleTimeout (q : Fin 32) (s : State) : Out :=
  .next (s.queIdle q)

end Sys2Proof.Machine
end

