-- ==== Sys2Proof/Machine/ExecSys.lean ====
section
/-! DEFINITION. Meanings of the command rows: Crika special registers. -/

namespace Sys2Proof.Machine

/-- Reads a special register into rd, with privilege checks. (R353) -/
def execMfs (c : Fin 4) (cond : BitVec 4) (rd : BitVec 5) (sel : BitVec 11) (s : State) : Out :=
  .next (s.coreRun c (opMfs cond rd sel))

/-- Writes ra to a special register, with privilege checks. (R353) -/
def execMts (c : Fin 4) (cond : BitVec 4) (sel : BitVec 11) (ra : BitVec 5) (s : State) : Out :=
  .next (s.coreRun c (opMts cond sel ra))

/-- An MTS to SEGn_ATTR commits the staged descriptor, or holds a SEG0 commit pending until RETI. (R370) -/
def execSegAttrCommit (c : Fin 4) (cond : BitVec 4) (n : Fin 8) (ra : BitVec 5) (s : State) : Out :=
  .next (s.coreRun c (opMts cond (BitVec.ofNat 11 (0x13 + 4 * n.val)) ra))

/-- An MTS to SWI_SEND sets a software-interrupt bit in each named core. (R383) -/
def execSwiSend (c : Fin 4) (cond : BitVec 4) (ra : BitVec 5) (s : State) : Out :=
  .next (s.coreRun c (opMts cond 0x061 ra))

/-- An MTS to SWI_CLR clears the writer's own software-interrupt bits. (R383) -/
def execSwiClr (c : Fin 4) (cond : BitVec 4) (ra : BitVec 5) (s : State) : Out :=
  .next (s.coreRun c (opMts cond 0x062 ra))

/-- C0's write to START_CMD starts each named held core at START_PC. (R394) -/
def execStartCmd (c : Fin 4) (cond : BitVec 4) (ra : BitVec 5) (s : State) : Out :=
  .next (s.coreRun c (opMts cond 0x091 ra))

/-- An MFS of EVQ_W5 returns the last half of the selected record and removes it. (R382) -/
def execEvqW5Read (c : Fin 4) (cond : BitVec 4) (rd : BitVec 5) (s : State) : Out :=
  .next (s.coreRun c (opMfs cond rd 0x069))

end Sys2Proof.Machine
end

