-- ==== Sys2Proof/Machine/ExecValve.lean ====
section
/-! DEFINITION. Meanings of the command rows: Valve drive. -/

namespace Sys2Proof.Machine

/-- A write of VLV.CH_CTL.EN 1 moves a DISABLED valve channel to IDLE. (R220) -/
def execValveEnSet (c : Fin 4) (n : Fin 16) (v : W32) (same : Bool) (s : State) : Out :=
  .next (s.storeIf c (islVg (groupOf n).val) 7 fun s => s.vdCtlWrite n (v ||| 1) same)

/-- A write of EN 0 withdraws or turns off a valve channel, subject to R222. (R220) -/
def execValveEnClear (c : Fin 4) (n : Fin 16) (v : W32) (same : Bool) (s : State) : Out :=
  .next (s.storeIf c (islVg (groupOf n).val) 7 fun s => s.vdCtlWrite n (v &&& 0xFFFFFFFE) same)

/-- The ON command starts, merges, holds or is refused as the valve transition table states. (R214) -/
def execValveOn (c : Fin 4) (n : Fin 16) (hold : W16) (multi : Bool) (s : State) : Out :=
  .next (s.storeIf c (islVg (groupOf n).val) 7 fun s => s.vdCmdWrite n true multi false false hold.toNat)

/-- The OFF command withdraws, turns off or clears the held command of a valve channel. (R220) -/
def execValveOff (c : Fin 4) (n : Fin 16) (multi : Bool) (same : Bool) (s : State) : Out :=
  .next (s.storeIf c (islVg (groupOf n).val) 7 fun s => s.vdCmdWrite n multi true false same 0)

/-- The CLEAR command moves a LATCHED valve channel to IDLE or DISABLED. (R220) -/
def execValveClear (c : Fin 4) (n : Fin 16) (multi : Bool) (s : State) : Out :=
  .next (s.storeIf c (islVg (groupOf n).val) 7 fun s => s.vdCmdWrite n false multi true false 0)

/-- The first deferred channel whose load fits with the group switch on reserves its load and enters PENDING. (R215)
-/
def execDeferLeave (g : Fin 4) (s : State) : Out :=
  .next (s.deferLeave g)

/-- A channel in DEFER for MAX_DEFER returns to its starting state. (R216) -/
def execDeferTimeout (n : Fin 16) (s : State) : Out :=
  .next (s.deferTimeout n)

/-- A grant switches a PENDING valve channel into PEAK or PROP, or is returned. (R220) -/
def execValveGrant (n : Fin 16) (s : State) : Out :=
  .next (s.deliver (48 + n.val) .grant fun s => s.vdGrantArrives n)

/-- ADM's drop message moves a PENDING valve channel to IDLE. (R220) -/
def execValveDrop (n : Fin 16) (s : State) : Out :=
  .next (s.deliver (48 + n.val) .drop fun s => s.vdDrop n)

/-- The peak ends and the channel enters HOLD. (R209) -/
def execPeakEnd (n : Fin 16) (s : State) : Out :=
  .next (s.vdPeakEnd n)

/-- The group releases a channel's ADM claim when the peak ends or the proportional current settles. (R218) -/
def execValveClaimRelease (n : Fin 16) (s : State) : Out :=
  .next (s.vdClaimSettle n)

/-- The hold time expires, the channel turns off into DECAY. (R210) -/
def execHoldEnd (n : Fin 16) (s : State) : Out :=
  .next (s.vdHoldEnd n)

/-- Ten samples below 50 mA complete the decay and the channel makes its decay end. (R202) -/
def execDecayComplete (n : Fin 16) (s : State) : Out :=
  .next (s.vdDecayComplete n)

/-- Decay not complete after 100 ms is treated as complete and SLOW_DECAY sets. (R202) -/
def execDecayTimeout (n : Fin 16) (s : State) : Out :=
  .next (s.vdDecayTimeout n)

/-- The GZ5120 minimum off-time ends and a held command starts or the channel goes IDLE. (R220) -/
def execGapEnd (n : Fin 16) (s : State) : Out :=
  .next (s.vdGapEnd n)

/-- A channel short circuit turns the valve off and latches it. (R225) -/
def execValveShortCircuit (n : Fin 16) (ma : Nat) (s : State) : Out :=
  .next (s.vdShort n ma)

/-- A 1 ms mean below THR for T ms latches OPEN. (R224) -/
def execValveOpenLoad (n : Fin 16) (ma : Nat) (ms : Nat) (s : State) : Out :=
  .next (s.vdOpen n ma ms)

/-- Group current above 14 A for 8 us latches the group. (R198) -/
def execGroupOverCurrent (g : Fin 4) (ma : Nat) (cycles : Nat) (s : State) : Out :=
  .next (s.groupOc g ma cycles)

/-- Group current at 24 A latches the group within 2 us. (R198) -/
def execGroupShortCircuit (g : Fin 4) (ma : Nat) (s : State) : Out :=
  .next (s.groupSc g ma)

/-- The group sensor reaching 175 C latches the group. (R198) -/
def execGroupThermalLatch (g : Fin 4) (tj : Int) (s : State) : Out :=
  .next (s.groupThermal g tj)

/-- A group switch not reporting on within 1 ms latches the group. (R197) -/
def execGswFail (g : Fin 4) (s : State) : Out :=
  .next (s.gswFail g)

/-- The group supply reaches within 1 V of VL3 and the switch reports on. (R196) -/
def execGroupSwitchReady (g : Fin 4) (gapMv : Nat) (s : State) : Out :=
  .next (s.gswReady g gapMv)

/-- 10 ms after the last active channel the group switch turns off. (R196) -/
def execGroupSwitchOff (g : Fin 4) (s : State) : Out :=
  .next (s.gswOff g)

/-- G_CMD.OFF_ALL sends OFF to every channel of the group not in limp mode. (R235) -/
def execOffAll (c : Fin 4) (g : Fin 4) (same : Bool) (s : State) : Out :=
  .next (s.storeIf c (islVg g.val) 7 fun s => s.vgOffAll g same)

/-- G_CMD.CLEAR clears the group latch, or is refused while the thermal latch is held. (R227) -/
def execGroupClear (c : Fin 4) (g : Fin 4) (s : State) : Out :=
  .next (s.storeIf c (islVg g.val) 7 fun s => s.vgClear g)

/-- A write to VLV.PROF starts a profile copy or is refused with CFG_ERR. (R205) -/
def execValveProfWrite (c : Fin 4) (n : Fin 16) (v : W32) (s : State) : Out :=
  .next (s.storeIf c (islVg (groupOf n).val) 7 fun s => s.vdProfWrite n v)

/-- The profile copy completes and PROF_LOADED sets. (R205) -/
def execProfileCopyDone (n : Fin 16) (s : State) : Out :=
  .next (s.vdProfDone n)

/-- The group sensor falling to 155 C clears the group thermal latch and TL_HELD, so a group CLEAR is no longer
refused. (R198) -/
def execGroupThermalLatchClear (g : Fin 4) (tj : Int) (s : State) : Out :=
  .next (s.groupThermalClear g tj)

/-- ADM's forwarded entry for target 48 + n reaches the valve group, which confirms it if the channel is still PENDING
or refuses it. (R163) -/
def execValveQueueMessage (n : Fin 16) (s : State) : Out :=
  .next (s.deliver (48 + n.val) .entry fun s => s.vdEntry n)

end Sys2Proof.Machine
end

