-- ==== Sys2Proof/Machine/Dispatch.lean ====
section
/-! DEFINITION. The meaning of every command, arm by arm. -/

namespace Sys2Proof.Machine

/-- A command's effect on everything but the queue. -/
def exec (i : Instr) (s : State) : Host.Outcome State Fault Refusal :=
  match i with
  | .registerWrite c b off v => Sys2Proof.Machine.execRegisterWrite c b off v s
  | .rcRead c b off => Sys2Proof.Machine.execRcRead c b off s
  | .controlPlaneReset cause => Sys2Proof.Machine.execControlPlaneReset cause s
  | .lost ix => Sys2Proof.Machine.execLost ix s
  | .tmbWrap => Sys2Proof.Machine.execTmbWrap s
  | .tmbAlarm => Sys2Proof.Machine.execTmbAlarm s
  | .timeLoRead r => Sys2Proof.Machine.execTimeLoRead r s
  | .eventRecordMatch c ix => Sys2Proof.Machine.execEventRecordMatch c ix s
  | .hsEnSet c n v same => Sys2Proof.Machine.execHsEnSet c n v same s
  | .hsEnClear c n v same => Sys2Proof.Machine.execHsEnClear c n v same s
  | .hsOff c n adm multi same => Sys2Proof.Machine.execHsOff c n adm multi same s
  | .hsClear c n multi => Sys2Proof.Machine.execHsClear c n multi s
  | .hsAllOff c same => Sys2Proof.Machine.execHsAllOff c same s
  | .hsRequestQueued n => Sys2Proof.Machine.execHsRequestQueued n s
  | .hsGrant n clampCycles => Sys2Proof.Machine.execHsGrant n clampCycles s
  | .hsDrop n => Sys2Proof.Machine.execHsDrop n s
  | .envStep n => Sys2Proof.Machine.execEnvStep n s
  | .overCurrent n ma cycles => Sys2Proof.Machine.execOverCurrent n ma cycles s
  | .shortCircuit n ma oc => Sys2Proof.Machine.execShortCircuit n ma oc s
  | .thermalLatchSet n tj sc oc => Sys2Proof.Machine.execThermalLatchSet n tj sc oc s
  | .thermalLatchClear n tj => Sys2Proof.Machine.execThermalLatchClear n tj s
  | .bankUnderVoltage b mv us => Sys2Proof.Machine.execBankUnderVoltage b mv us s
  | .bankRecover b mv us => Sys2Proof.Machine.execBankRecover b mv us s
  | .retryTimerExpiry n => Sys2Proof.Machine.execRetryTimerExpiry n s
  | .healExpiry n => Sys2Proof.Machine.execHealExpiry n s
  | .envCfgWrite c n v => Sys2Proof.Machine.execEnvCfgWrite c n v s
  | .envCopyDone n => Sys2Proof.Machine.execEnvCopyDone n s
  | .uvCfgWrite c b v => Sys2Proof.Machine.execUvCfgWrite c b v s
  | .orphanExpiry => Sys2Proof.Machine.execOrphanExpiry s
  | .orphanReclaim c => Sys2Proof.Machine.execOrphanReclaim c s
  | .clampBegin n vds => Sys2Proof.Machine.execClampBegin n vds s
  | .clampEnd n cycles => Sys2Proof.Machine.execClampEnd n cycles s
  | .clampTimeout n => Sys2Proof.Machine.execClampTimeout n s
  | .digitiserSample t raw tj top => Sys2Proof.Machine.execDigitiserSample t raw tj top s
  | .msMeanSend t => Sys2Proof.Machine.execMsMeanSend t s
  | .padVoltageSample n mv => Sys2Proof.Machine.execPadVoltageSample n mv s
  | .measZero c t => Sys2Proof.Machine.execMeasZero c t s
  | .zeroDone t => Sys2Proof.Machine.execZeroDone t s
  | .snap c => Sys2Proof.Machine.execSnap c s
  | .gtrig c alsoSnap => Sys2Proof.Machine.execGtrig c alsoSnap s
  | .snapLatch t late => Sys2Proof.Machine.execSnapLatch t late s
  | .captureArm c t => Sys2Proof.Machine.execCaptureArm c t s
  | .captureDisarm c t => Sys2Proof.Machine.execCaptureDisarm c t s
  | .captureTrig c t => Sys2Proof.Machine.execCaptureTrig c t s
  | .captureBurstWrite t => Sys2Proof.Machine.execCaptureBurstWrite t s
  | .settleTimeout n => Sys2Proof.Machine.execSettleTimeout n s
  | .steadyPeriodClose n => Sys2Proof.Machine.execSteadyPeriodClose n s
  | .trendUpdate n => Sys2Proof.Machine.execTrendUpdate n s
  | .trReset c n => Sys2Proof.Machine.execTrReset c n s
  | .trendLongWrite c n q v => Sys2Proof.Machine.execTrendLongWrite c n q v s
  | .curveEntryWrite c ix v => Sys2Proof.Machine.execCurveEntryWrite c ix v s
  | .admReq c target prio deadline => Sys2Proof.Machine.execAdmReq c target prio deadline s
  | .admCancel c target => Sys2Proof.Machine.execAdmCancel c target s
  | .admRelease c x => Sys2Proof.Machine.execAdmRelease c x s
  | .admTick late => Sys2Proof.Machine.execAdmTick late s
  | .binRetire => Sys2Proof.Machine.execBinRetire s
  | .deadlineExpiry => Sys2Proof.Machine.execDeadlineExpiry s
  | .siteLimWrite c v => Sys2Proof.Machine.execSiteLimWrite c v s
  | .siteStale => Sys2Proof.Machine.execSiteStale s
  | .sensorCopy v0 v1 v2 v3 tbp => Sys2Proof.Machine.execSensorCopy v0 v1 v2 v3 tbp s
  | .sensorStale => Sys2Proof.Machine.execSensorStale s
  | .heaterCfgWrite c ix v => Sys2Proof.Machine.execHeaterCfgWrite c ix v s
  | .heaterPeriodStart ix => Sys2Proof.Machine.execHeaterPeriodStart ix s
  | .heaterWindowEnd ix => Sys2Proof.Machine.execHeaterWindowEnd ix s
  | .valveEnSet c n v same => Sys2Proof.Machine.execValveEnSet c n v same s
  | .valveEnClear c n v same => Sys2Proof.Machine.execValveEnClear c n v same s
  | .valveOn c n hold multi => Sys2Proof.Machine.execValveOn c n hold multi s
  | .valveOff c n multi same => Sys2Proof.Machine.execValveOff c n multi same s
  | .valveClear c n multi => Sys2Proof.Machine.execValveClear c n multi s
  | .deferLeave g => Sys2Proof.Machine.execDeferLeave g s
  | .deferTimeout n => Sys2Proof.Machine.execDeferTimeout n s
  | .valveGrant n => Sys2Proof.Machine.execValveGrant n s
  | .valveDrop n => Sys2Proof.Machine.execValveDrop n s
  | .peakEnd n => Sys2Proof.Machine.execPeakEnd n s
  | .valveClaimRelease n => Sys2Proof.Machine.execValveClaimRelease n s
  | .holdEnd n => Sys2Proof.Machine.execHoldEnd n s
  | .decayComplete n => Sys2Proof.Machine.execDecayComplete n s
  | .decayTimeout n => Sys2Proof.Machine.execDecayTimeout n s
  | .gapEnd n => Sys2Proof.Machine.execGapEnd n s
  | .valveShortCircuit n ma => Sys2Proof.Machine.execValveShortCircuit n ma s
  | .valveOpenLoad n ma ms => Sys2Proof.Machine.execValveOpenLoad n ma ms s
  | .groupOverCurrent g ma cycles => Sys2Proof.Machine.execGroupOverCurrent g ma cycles s
  | .groupShortCircuit g ma => Sys2Proof.Machine.execGroupShortCircuit g ma s
  | .groupThermalLatch g tj => Sys2Proof.Machine.execGroupThermalLatch g tj s
  | .gswFail g => Sys2Proof.Machine.execGswFail g s
  | .groupSwitchReady g gapMv => Sys2Proof.Machine.execGroupSwitchReady g gapMv s
  | .groupSwitchOff g => Sys2Proof.Machine.execGroupSwitchOff g s
  | .offAll c g same => Sys2Proof.Machine.execOffAll c g same s
  | .groupClear c g => Sys2Proof.Machine.execGroupClear c g s
  | .valveProfWrite c n v => Sys2Proof.Machine.execValveProfWrite c n v s
  | .profileCopyDone n => Sys2Proof.Machine.execProfileCopyDone n s
  | .lampEnSet c k v same => Sys2Proof.Machine.execLampEnSet c k v same s
  | .lampEnClear c k v same => Sys2Proof.Machine.execLampEnClear c k v same s
  | .lampOn c k v3 multi => Sys2Proof.Machine.execLampOn c k v3 multi s
  | .lampOff c k multi same => Sys2Proof.Machine.execLampOff c k multi same s
  | .lampClear c k multi => Sys2Proof.Machine.execLampClear c k multi s
  | .segClr c k mask => Sys2Proof.Machine.execSegClr c k mask s
  | .lampGrant k => Sys2Proof.Machine.execLampGrant k s
  | .lampDrop k => Sys2Proof.Machine.execLampDrop k s
  | .rampComplete k => Sys2Proof.Machine.execRampComplete k s
  | .lampFrameStart k cycles vOut => Sys2Proof.Machine.execLampFrameStart k cycles vOut s
  | .segmentJudge k ix mv => Sys2Proof.Machine.execSegmentJudge k ix mv s
  | .segOpen k ix mv ns => Sys2Proof.Machine.execSegOpen k ix mv ns s
  | .sShort k buckMa ma us => Sys2Proof.Machine.execSShort k buckMa ma us s
  | .sOpen k ma us atLim => Sys2Proof.Machine.execSOpen k ma us atLim s
  | .stringSat k ma us atLim => Sys2Proof.Machine.execStringSat k ma us atLim s
  | .stringThermal k tj => Sys2Proof.Machine.execStringThermal k tj s
  | .lampPerWrite c per => Sys2Proof.Machine.execLampPerWrite c per s
  | .dimWrite c k v => Sys2Proof.Machine.execDimWrite c k v s
  | .dimCopyDone k => Sys2Proof.Machine.execDimCopyDone k s
  | .go c k => Sys2Proof.Machine.execGo c k s
  | .stop c k => Sys2Proof.Machine.execStop c k s
  | .swap c k => Sys2Proof.Machine.execSwap c k s
  | .abort c k same => Sys2Proof.Machine.execAbort c k same s
  | .chainDisable c k v => Sys2Proof.Machine.execChainDisable c k v s
  | .globalGo c mask => Sys2Proof.Machine.execGlobalGo c mask s
  | .globalStop c mask => Sys2Proof.Machine.execGlobalStop c mask s
  | .chainFrameWrite c k v => Sys2Proof.Machine.execChainFrameWrite c k v s
  | .chainBaseWrite c k out ix v => Sys2Proof.Machine.execChainBaseWrite c k out ix v s
  | .chainFrameStart k late => Sys2Proof.Machine.execChainFrameStart k late s
  | .chainFrameEnd k => Sys2Proof.Machine.execChainFrameEnd k s
  | .returnStream k start echo body extra => Sys2Proof.Machine.execReturnStream k start echo body extra s
  | .echoTimeout k => Sys2Proof.Machine.execEchoTimeout k s
  | .chainGlitch k => Sys2Proof.Machine.execChainGlitch k s
  | .siChange ix mv n => Sys2Proof.Machine.execSiChange ix mv n s
  | .siPoll mv => Sys2Proof.Machine.execSiPoll mv s
  | .vl3Low mv => Sys2Proof.Machine.execVl3Low mv s
  | .dinChange ix level half same => Sys2Proof.Machine.execDinChange ix level half same s
  | .routedOffRepeat t => Sys2Proof.Machine.execRoutedOffRepeat t s
  | .limpPadChange level ms same => Sys2Proof.Machine.execLimpPadChange level ms same s
  | .lmapWrite c w v => Sys2Proof.Machine.execLmapWrite c w v s
  | .commit c key => Sys2Proof.Machine.execCommit c key s
  | .reload c key => Sys2Proof.Machine.execReload c key s
  | .lmapDone => Sys2Proof.Machine.execLmapDone s
  | .ainConversion ix code ma => Sys2Proof.Machine.execAinConversion ix code ma s
  | .vsensEnable c v => Sys2Proof.Machine.execVsensEnable c v s
  | .vsensFault ma us => Sys2Proof.Machine.execVsensFault ma us s
  | .add c cond rd ra rb => Sys2Proof.Machine.execAdd c cond rd ra rb s
  | .addi c cond rd ra ix => Sys2Proof.Machine.execAddi c cond rd ra ix s
  | .adc c cond rd ra rb => Sys2Proof.Machine.execAdc c cond rd ra rb s
  | .sub c cond rd ra rb => Sys2Proof.Machine.execSub c cond rd ra rb s
  | .sbc c cond rd ra rb => Sys2Proof.Machine.execSbc c cond rd ra rb s
  | .cmp c cond ra rb => Sys2Proof.Machine.execCmp c cond ra rb s
  | .cmpi c cond ra ix => Sys2Proof.Machine.execCmpi c cond ra ix s
  | .and c cond rd ra rb => Sys2Proof.Machine.execAnd c cond rd ra rb s
  | .andi c cond rd ra ix => Sys2Proof.Machine.execAndi c cond rd ra ix s
  | .or c cond rd ra rb => Sys2Proof.Machine.execOr c cond rd ra rb s
  | .ori c cond rd ra ix => Sys2Proof.Machine.execOri c cond rd ra ix s
  | .xor c cond rd ra rb => Sys2Proof.Machine.execXor c cond rd ra rb s
  | .xori c cond rd ra ix => Sys2Proof.Machine.execXori c cond rd ra ix s
  | .shl c cond rd ra rb => Sys2Proof.Machine.execShl c cond rd ra rb s
  | .shli c cond rd ra q => Sys2Proof.Machine.execShli c cond rd ra q s
  | .shr c cond rd ra rb => Sys2Proof.Machine.execShr c cond rd ra rb s
  | .shri c cond rd ra q => Sys2Proof.Machine.execShri c cond rd ra q s
  | .sar c cond rd ra rb => Sys2Proof.Machine.execSar c cond rd ra rb s
  | .sari c cond rd ra q => Sys2Proof.Machine.execSari c cond rd ra q s
  | .mul c cond rd ra rb => Sys2Proof.Machine.execMul c cond rd ra rb s
  | .muls c cond rd ra rb => Sys2Proof.Machine.execMuls c cond rd ra rb s
  | .div c cond rd ra rb => Sys2Proof.Machine.execDiv c cond rd ra rb s
  | .divs c cond rd ra rb => Sys2Proof.Machine.execDivs c cond rd ra rb s
  | .movi c cond rd ix => Sys2Proof.Machine.execMovi c cond rd ix s
  | .movt c cond rd ix => Sys2Proof.Machine.execMovt c cond rd ix s
  | .add32 c cond rd ra rb => Sys2Proof.Machine.execAdd32 c cond rd ra rb s
  | .sub32 c cond rd ra rb => Sys2Proof.Machine.execSub32 c cond rd ra rb s
  | .cmp32 c cond ra rb => Sys2Proof.Machine.execCmp32 c cond ra rb s
  | .mfs c cond rd sel => Sys2Proof.Machine.execMfs c cond rd sel s
  | .mts c cond sel ra => Sys2Proof.Machine.execMts c cond sel ra s
  | .segAttrCommit c cond n ra => Sys2Proof.Machine.execSegAttrCommit c cond n ra s
  | .swiSend c cond ra => Sys2Proof.Machine.execSwiSend c cond ra s
  | .swiClr c cond ra => Sys2Proof.Machine.execSwiClr c cond ra s
  | .startCmd c cond ra => Sys2Proof.Machine.execStartCmd c cond ra s
  | .evqW5Read c cond rd => Sys2Proof.Machine.execEvqW5Read c cond rd s
  | .ldb c cond rd ra seg d => Sys2Proof.Machine.execLdb c cond rd ra seg d s
  | .ldbs c cond rd ra seg d => Sys2Proof.Machine.execLdbs c cond rd ra seg d s
  | .ldw c cond rd ra seg d => Sys2Proof.Machine.execLdw c cond rd ra seg d s
  | .ldp c cond rd ra seg d => Sys2Proof.Machine.execLdp c cond rd ra seg d s
  | .stb c cond rd ra seg d => Sys2Proof.Machine.execStb c cond rd ra seg d s
  | .stw c cond rd ra seg d => Sys2Proof.Machine.execStw c cond rd ra seg d s
  | .stp c cond rd ra seg d => Sys2Proof.Machine.execStp c cond rd ra seg d s
  | .ldwPost c cond rd ra seg d => Sys2Proof.Machine.execLdwPost c cond rd ra seg d s
  | .ldpPost c cond rd ra seg d => Sys2Proof.Machine.execLdpPost c cond rd ra seg d s
  | .stwPost c cond rd ra seg d => Sys2Proof.Machine.execStwPost c cond rd ra seg d s
  | .stpPost c cond rd ra seg d => Sys2Proof.Machine.execStpPost c cond rd ra seg d s
  | .b c cond d => Sys2Proof.Machine.execB c cond d s
  | .call c cond d => Sys2Proof.Machine.execCall c cond d s
  | .jmp c cond ra => Sys2Proof.Machine.execJmp c cond ra s
  | .callr c cond ra => Sys2Proof.Machine.execCallr c cond ra s
  | .ret c cond => Sys2Proof.Machine.execRet c cond s
  | .rep c cond => Sys2Proof.Machine.execRep c cond s
  | .repeatIteration c => Sys2Proof.Machine.execRepeatIteration c s
  | .trap c cond n => Sys2Proof.Machine.execTrap c cond n s
  | .reti c cond => Sys2Proof.Machine.execReti c cond s
  | .wait c cond => Sys2Proof.Machine.execWait c cond s
  | .waitResume c => Sys2Proof.Machine.execWaitResume c s
  | .pair c cond x y => Sys2Proof.Machine.execPair c cond x y s
  | .interruptEntry c => Sys2Proof.Machine.execInterruptEntry c s
  | .queuePush c q v => Sys2Proof.Machine.execQueuePush c q v s
  | .queuePop c q push => Sys2Proof.Machine.execQueuePop c q push s
  | .queueFlush c q push => Sys2Proof.Machine.execQueueFlush c q push s
  | .queueCfgWrite c q v => Sys2Proof.Machine.execQueueCfgWrite c q v s
  | .queueIdleTimeout q => Sys2Proof.Machine.execQueueIdleTimeout q s
  | .pmcDump => Sys2Proof.Machine.execPmcDump s
  | .dumpNow c => Sys2Proof.Machine.execDumpNow c s
  | .clearAll c => Sys2Proof.Machine.execClearAll c s
  | .dumpWriteDone => Sys2Proof.Machine.execDumpWriteDone s
  | .dumpRingWrite c base v => Sys2Proof.Machine.execDumpRingWrite c base v s
  | .cntOvf ix same => Sys2Proof.Machine.execCntOvf ix same s
  | .cycLoRead r x ret => Sys2Proof.Machine.execCycLoRead r x ret s
  | .tagEnable c x v => Sys2Proof.Machine.execTagEnable c x v s
  | .tagSelect x => Sys2Proof.Machine.execTagSelect x s
  | .tagRecord c => Sys2Proof.Machine.execTagRecord c s
  | .canModeWrite c x v => Sys2Proof.Machine.execCanModeWrite c x v s
  | .canIntegrated x => Sys2Proof.Machine.execCanIntegrated x s
  | .canTimingWrite c x which v => Sys2Proof.Machine.execCanTimingWrite c x which v s
  | .req c x m => Sys2Proof.Machine.execReq c x m s
  | .canAbort c x m => Sys2Proof.Machine.execCanAbort c x m s
  | .abortAll c x => Sys2Proof.Machine.execAbortAll c x s
  | .snapObj c x m => Sys2Proof.Machine.execSnapObj c x m s
  | .clr c x m => Sys2Proof.Machine.execClr c x m s
  | .canArbitration x other => Sys2Proof.Machine.execCanArbitration x other s
  | .canTxSuccess x delay => Sys2Proof.Machine.execCanTxSuccess x delay s
  | .canFrameReceived x w0 w1 data us => Sys2Proof.Machine.execCanFrameReceived x w0 w1 data us s
  | .canError x ty data arb exempt heavy delay => Sys2Proof.Machine.execCanError x ty data arb exempt heavy delay s
  | .busOn x n => Sys2Proof.Machine.execBusOn x n s
  | .rel c x j rseq => Sys2Proof.Machine.execRel c x j rseq s
  | .queueFrameFlush c x j => Sys2Proof.Machine.execQueueFrameFlush c x j s
  | .forget c x => Sys2Proof.Machine.execForget c x s
  | .trxModeWrite c x v => Sys2Proof.Machine.execTrxModeWrite c x v s
  | .trxModeComplete x => Sys2Proof.Machine.execTrxModeComplete x s
  | .txdDom x dom us => Sys2Proof.Machine.execTxdDom x dom us s
  | .vccUv x uv => Sys2Proof.Machine.execVccUv x uv s
  | .wup x d1 r d2 total => Sys2Proof.Machine.execWup x d1 r d2 total s
  | .biasTimeout x us => Sys2Proof.Machine.execBiasTimeout x us s
  | .decodedFrame x ok w0 w1 data => Sys2Proof.Machine.execDecodedFrame x ok w0 w1 data s
  | .streakEnd x ix => Sys2Proof.Machine.execStreakEnd x ix s
  | .nmEnable c x v => Sys2Proof.Machine.execNmEnable c x v s
  | .nmDisable c x v => Sys2Proof.Machine.execNmDisable c x v s
  | .needRise c x => Sys2Proof.Machine.execNeedRise c x s
  | .needFall c x => Sys2Proof.Machine.execNeedFall c x s
  | .online c x => Sys2Proof.Machine.execOnline c x s
  | .nsClr c x => Sys2Proof.Machine.execNsClr c x s
  | .tKaExpiry x => Sys2Proof.Machine.execTKaExpiry x s
  | .keepaliveDeferredSend x => Sys2Proof.Machine.execKeepaliveDeferredSend x s
  | .tIdleExpiry x => Sys2Proof.Machine.execTIdleExpiry x s
  | .tFwExpiry x => Sys2Proof.Machine.execTFwExpiry x s
  | .prepSleepStage1Done x => Sys2Proof.Machine.execPrepSleepStage1Done x s
  | .hpTransactionStart sck => Sys2Proof.Machine.execHpTransactionStart sck s
  | .hpTransactionEnd sdi take => Sys2Proof.Machine.execHpTransactionEnd sdi take s
  | .hpNop seq src => Sys2Proof.Machine.execHpNop seq src s
  | .resend seq src => Sys2Proof.Machine.execResend seq src s
  | .ident seq src => Sys2Proof.Machine.execIdent seq src s
  | .hpForget seq src => Sys2Proof.Machine.execHpForget seq src s
  | .ackRestart seq src => Sys2Proof.Machine.execAckRestart seq src s
  | .hpForward cmd seq src payload => Sys2Proof.Machine.execHpForward cmd seq src payload s
  | .hpResponseTake => Sys2Proof.Machine.execHpResponseTake s
  | .hpCsnWake => Sys2Proof.Machine.execHpCsnWake s
  | .plkEnable c v => Sys2Proof.Machine.execPlkEnable c v s
  | .plkDisable c v same tries ago => Sys2Proof.Machine.execPlkDisable c v same tries ago s
  | .txDb c => Sys2Proof.Machine.execTxDb c s
  | .rxDb c => Sys2Proof.Machine.execRxDb c s
  | .plkTxComplete res tries ago opp nth gap => Sys2Proof.Machine.execPlkTxComplete res tries ago opp nth gap s
  | .plkFrameReceived start frame ago => Sys2Proof.Machine.execPlkFrameReceived start frame ago s
  | .plcaChg st => Sys2Proof.Machine.execPlcaChg st s
  | .mgmtReset => Sys2Proof.Machine.execMgmtReset s
  | .sensorSample q x hz dc => Sys2Proof.Machine.execSensorSample q x hz dc s
  | .isoMeasure ohms => Sys2Proof.Machine.execIsoMeasure ohms s
  | .wdKick c key => Sys2Proof.Machine.execWdKick c key s
  | .wdExpiry => Sys2Proof.Machine.execWdExpiry s
  | .wdWarn => Sys2Proof.Machine.execWdWarn s
  | .wdHoldRelease => Sys2Proof.Machine.execWdHoldRelease s
  | .deputyEvent ix => Sys2Proof.Machine.execDeputyEvent ix s
  | .logFlashWrite => Sys2Proof.Machine.execLogFlashWrite s
  | .lifetimeSnapshot => Sys2Proof.Machine.execLifetimeSnapshot s
  | .lifeTjSample => Sys2Proof.Machine.execLifeTjSample s
  | .lifeRecompute => Sys2Proof.Machine.execLifeRecompute s
  | .post c slot => Sys2Proof.Machine.execPost c slot s
  | .rspAck c slot => Sys2Proof.Machine.execRspAck c slot s
  | .checkIn => Sys2Proof.Machine.execCheckIn s
  | .limpSet => Sys2Proof.Machine.execLimpSet s
  | .limpRelease => Sys2Proof.Machine.execLimpRelease s
  | .logWrite => Sys2Proof.Machine.execLogWrite s
  | .logRead => Sys2Proof.Machine.execLogRead s
  | .logFilter => Sys2Proof.Machine.execLogFilter s
  | .lifeRead => Sys2Proof.Machine.execLifeRead s
  | .trendRead => Sys2Proof.Machine.execTrendRead s
  | .tempLimit => Sys2Proof.Machine.execTempLimit s
  | .updBegin => Sys2Proof.Machine.execUpdBegin s
  | .updWrite => Sys2Proof.Machine.execUpdWrite s
  | .updVerify => Sys2Proof.Machine.execUpdVerify s
  | .updActivate => Sys2Proof.Machine.execUpdActivate s
  | .updAbort => Sys2Proof.Machine.execUpdAbort s
  | .updDone fail => Sys2Proof.Machine.execUpdDone fail s
  | .keyRevoke => Sys2Proof.Machine.execKeyRevoke s
  | .dbgClose => Sys2Proof.Machine.execDbgClose s
  | .dbgLock => Sys2Proof.Machine.execDbgLock s
  | .trialTimeout => Sys2Proof.Machine.execTrialTimeout s
  | .pwrRequest c key target => Sys2Proof.Machine.execPwrRequest c key target s
  | .qtmoTimeout => Sys2Proof.Machine.execQtmoTimeout s
  | .stageAnswer => Sys2Proof.Machine.execStageAnswer s
  | .stageTimeout => Sys2Proof.Machine.execStageTimeout s
  | .wakeRequest src => Sys2Proof.Machine.execWakeRequest src s
  | .wakePad ms => Sys2Proof.Machine.execWakePad ms s
  | .returnStepReady => Sys2Proof.Machine.execReturnStepReady s
  | .returnStepTimeout => Sys2Proof.Machine.execReturnStepTimeout s
  | .bulkInitDone => Sys2Proof.Machine.execBulkInitDone s
  | .holdRel c mask => Sys2Proof.Machine.execHoldRel c mask s
  | .mainsChange ok dc => Sys2Proof.Machine.execMainsChange ok dc s
  | .vbkChange ok dv => Sys2Proof.Machine.execVbkChange ok dv s
  | .sourceChange => Sys2Proof.Machine.execSourceChange s
  | .busBrownOut => Sys2Proof.Machine.execBusBrownOut s
  | .powerOnReset => Sys2Proof.Machine.execPowerOnReset s
  | .trimLock => Sys2Proof.Machine.execTrimLock s
  | .rstnAssert us => Sys2Proof.Machine.execRstnAssert us s
  | .rstnRelease ms => Sys2Proof.Machine.execRstnRelease ms s
  | .bootCheck ms => Sys2Proof.Machine.execBootCheck ms s
  | .arbitrationLost x => Sys2Proof.Machine.execArbitrationLost x s
  | .stringThermalLatchClear k tj => Sys2Proof.Machine.execStringThermalLatchClear k tj s
  | .groupThermalLatchClear g tj => Sys2Proof.Machine.execGroupThermalLatchClear g tj s
  | .valveQueueMessage n => Sys2Proof.Machine.execValveQueueMessage n s
  | .lampQueueMessage k => Sys2Proof.Machine.execLampQueueMessage k s

end Sys2Proof.Machine
end

