-- ==== Sys2Proof/Machine/Cycle.lean ====
section
/-! DEFINITION. The order in which a unit applies what reaches it in one island cycle (spec/02_high_side_channels.md R53,
spec/06_valve_drive.md R221, spec/07_lamp_matrix.md R258, spec/14_can_controllers.md R451,
spec/15_network_sleep_and_wake.md R497, spec/16_host_port_and_plant_link.md R520, spec/18_power_states.md R586): the
commands of one cycle enter the queue in this order, and each acts on the state the one before left (log entry 4). -/

namespace Sys2Proof.Machine

/-- A unit for which the spec orders the events of one cycle. -/
inductive CycleUnit where
  | highSide | valve | lamp | can | netMgmt | hostPort | power
deriving DecidableEq, Repr

/-- R53: faults, under-voltage, the clamp, the grant, commands and register writes, ADM messages, timers. -/
def hsRank : Instr → Nat
  | .shortCircuit .. => 1
  | .thermalLatchSet .. => 1
  | .overCurrent .. => 1
  | .bankUnderVoltage .. => 2
  | .bankRecover .. => 2
  | .thermalLatchClear .. => 2
  | .clampBegin .. => 3
  | .clampEnd .. => 3
  | .clampTimeout .. => 3
  | .hsGrant .. => 4
  | .hsRequestQueued .. => 6
  | .hsDrop .. => 6
  | .envStep .. => 7
  | .retryTimerExpiry .. => 7
  | .healExpiry .. => 7
  | .orphanExpiry => 7
  | _ => 5

/-- R221: channel and group faults, under-voltage, open load, the grant, the ends of the phases and the arrival (which a
sample finds), commands and register writes, ADM messages, leaving DEFER. -/
def vdRank : Instr → Nat
  | .valveShortCircuit .. => 1
  | .groupOverCurrent .. => 1
  | .groupShortCircuit .. => 1
  | .groupThermalLatch .. => 1
  | .gswFail .. => 1
  | .bankUnderVoltage .. => 2
  | .bankRecover .. => 2
  | .groupThermalLatchClear .. => 2
  | .valveOpenLoad .. => 3
  | .valveGrant .. => 4
  | .digitiserSample .. => 5
  | .peakEnd .. => 5
  | .holdEnd .. => 5
  | .decayComplete .. => 5
  | .decayTimeout .. => 5
  | .gapEnd .. => 5
  | .valveQueueMessage .. => 7
  | .valveDrop .. => 7
  | .deferLeave .. => 8
  | .deferTimeout .. => 8
  | _ => 6

/-- R258: short and thermal, under-voltage, open string and segment, the grant, ramp complete, commands and register
writes, ADM messages, the frame start. -/
def lsRank : Instr → Nat
  | .sShort .. => 1
  | .stringThermal .. => 1
  | .bankUnderVoltage .. => 2
  | .bankRecover .. => 2
  | .stringThermalLatchClear .. => 2
  | .sOpen .. => 3
  | .stringSat .. => 3
  | .segOpen .. => 3
  | .segmentJudge .. => 3
  | .lampGrant .. => 4
  | .rampComplete .. => 5
  | .lampQueueMessage .. => 7
  | .lampDrop .. => 7
  | .lampFrameStart .. => 8
  | _ => 6

/-- R451: queue releases and flushes, what happens on the bus, other commands and register writes. -/
def canRank : Instr → Nat
  | .rel .. => 1
  | .queueFrameFlush .. => 1
  | .canTxSuccess .. => 2
  | .canFrameReceived .. => 2
  | .canError .. => 2
  | .canArbitration .. => 2
  | .arbitrationLost .. => 2
  | .canIntegrated .. => 2
  | .busOn .. => 2
  | _ => 3

/-- R497: transceiver entry, bus wakes and decoded frames, NEED, EN and commands, timer expiries. -/
def nmRank : Instr → Nat
  | .trxModeComplete .. => 1
  | .wup .. => 2
  | .decodedFrame .. => 2
  | .biasTimeout .. => 2
  | .tKaExpiry .. => 4
  | .tIdleExpiry .. => 4
  | .tFwExpiry .. => 4
  | .streakEnd .. => 4
  | _ => 3

/-- R520: responses are taken before requests are judged. -/
def hpRank : Instr → Nat
  | .hpResponseTake => 1
  | _ => 2

/-- R586: a control-plane reset, stage answers and refusals, wake requests, register writes. -/
def pwrRank : Instr → Nat
  | .controlPlaneReset .. => 1
  | .rstnAssert .. => 1
  | .stageAnswer => 2
  | .stageTimeout => 2
  | .qtmoTimeout => 2
  | .wakeRequest .. => 3
  | .wakePad .. => 3
  | .siChange .. => 3
  | .siPoll .. => 3
  | .dinChange .. => 3
  | .limpPadChange .. => 3
  | .wup .. => 3
  | .decodedFrame .. => 3
  | .tmbAlarm => 3
  | .hpCsnWake => 3
  | .sourceChange => 3
  | _ => 4

def CycleUnit.rank : CycleUnit → Instr → Nat
  | .highSide => hsRank
  | .valve => vdRank
  | .lamp => lsRank
  | .can => canRank
  | .netMgmt => nmRank
  | .hostPort => hpRank
  | .power => pwrRank

/-- A command goes before the first one of a higher rank. -/
def insertRank (rank : Instr → Nat) (i : Instr) : List Instr → List Instr
  | [] => [i]
  | j :: r => if rank i ≤ rank j then i :: j :: r else j :: insertRank rank i r

/-- The commands of one cycle in the order in which they act; those of one rank keep the order they came in. -/
def cycleOrder (rank : Instr → Nat) : List Instr → List Instr
  | [] => []
  | i :: r => insertRank rank i (cycleOrder rank r)

/-- What reaches unit `u` in one cycle enters the queue behind what waits. -/
def State.sendCycle (s : State) (u : CycleUnit) (cs : List Instr) : State :=
  { s with pending := s.pending ++ cycleOrder u.rank cs }

end Sys2Proof.Machine
end

