-- ==== Sys2Proof/Safety.lean ====
section
/-! DEFINITION. What counts as a safe run: the machine goes on, and its sparse tables stay in their one canonical
form, so that equal contents are equal data. And the words in which claims say what a command leaves alone: the parts of
State, and which of them differ between two states. -/

namespace Sys2Proof.Machine

/-- The sparse tables are canonical: memory, the curve store and the external claims. -/
abbrev State.canonical (s : State) : Prop :=
  Memory.wf s.mem ∧ swf (fun _ => (0 : W32)) s.curve.ent = true ∧ swf (fun _ => (0 : W32)) s.adm.extClaim = true

/-- The step answered a next state. -/
def goesOn (o : Out) : Prop := ∃ s, o = .next s

/-- A safe step: the machine goes on in a canonical state. -/
def safeStep (s : State) : Prop := ∃ t, step s = .next t ∧ t.canonical

/-- The parts of State, under the names of its fields. -/
inductive Part where
  | tmb | fab | answer | otp | hs | hsc | dig | vlvCtl | vg | vd | lmpErr | ls | meas | curve | adm | inp
  | limpStore | pwr | sup | sys | up | mem | ecc | lc | que | core | depCore | pmc | can | nm | hp | plk
  | dep | nv | free | pending
deriving DecidableEq, Repr

/-- Two states agree in one part. -/
def Part.same (p : Part) (s t : State) : Prop :=
  match p with
  | .tmb => t.tmb = s.tmb
  | .fab => t.fab = s.fab
  | .answer => t.answer = s.answer
  | .otp => t.otp = s.otp
  | .hs => t.hs = s.hs
  | .hsc => t.hsc = s.hsc
  | .dig => t.dig = s.dig
  | .vlvCtl => t.vlvCtl = s.vlvCtl
  | .vg => t.vg = s.vg
  | .vd => t.vd = s.vd
  | .lmpErr => t.lmpErr = s.lmpErr
  | .ls => t.ls = s.ls
  | .meas => t.meas = s.meas
  | .curve => t.curve = s.curve
  | .adm => t.adm = s.adm
  | .inp => t.inp = s.inp
  | .limpStore => t.limpStore = s.limpStore
  | .pwr => t.pwr = s.pwr
  | .sup => t.sup = s.sup
  | .sys => t.sys = s.sys
  | .up => t.up = s.up
  | .mem => t.mem = s.mem
  | .ecc => t.ecc = s.ecc
  | .lc => t.lc = s.lc
  | .que => t.que = s.que
  | .core => t.core = s.core
  | .depCore => t.depCore = s.depCore
  | .pmc => t.pmc = s.pmc
  | .can => t.can = s.can
  | .nm => t.nm = s.nm
  | .hp => t.hp = s.hp
  | .plk => t.plk = s.plk
  | .dep => t.dep = s.dep
  | .nv => t.nv = s.nv
  | .free => t.free = s.free
  | .pending => t.pending = s.pending

/-- From `s` to `t` nothing changes but the parts listed. -/
structure onlyTouches (ps : List Part) (s t : State) : Prop where
  same : ∀ p : Part, p ∉ ps → p.same s t

end Sys2Proof.Machine
end

