-- ==== Sys2Proof/WellFormed.lean ====
section
/-! DEFINITION. Which commands the world outside can send: a frame carries the bytes its header announces, a code or a
measured value lies in the range of what measures it. The meanings are total and never ask; these are the commands
that happen. -/

namespace Sys2Proof

open Sys2Proof.Machine

/-- A digitiser code before calibration: 14 bits and a sign (spec/04_current_digitisers.md R112). -/
def rawWf (x : Int) : Bool := -16384 ≤ x && x < 16384

/-- A temperature in 1/16 of a degree, in a 16-bit register (spec/02_high_side_channels.md R97). -/
def tempWf (x : Int) : Bool := -32768 ≤ x && x < 32768

/-- A voltage within the absolute maximum ratings, in mV (spec/21_electrical_thermal_life.md R641). -/
def voltWf (mv : Nat) : Bool := mv ≤ 65000

/-- A SPI source number of a host (spec/16_host_port_and_plant_link.md R511). -/
def srcWf (src : BitVec 4) : Bool := src != 15#4

/-- The command is well formed. -/
def Instr.wf (i : Instr) : Bool :=
  match i with
  | .thermalLatchSet _ tj _ _ => tempWf tj
  | .thermalLatchClear _ tj => tempWf tj
  | .groupThermalLatch _ tj => tempWf tj
  | .groupThermalLatchClear _ tj => tempWf tj
  | .stringThermal _ tj => tempWf tj
  | .stringThermalLatchClear _ tj => tempWf tj
  | .bankUnderVoltage _ mv _ => voltWf mv
  | .bankRecover _ mv _ => voltWf mv
  | .sensorCopy v0 v1 v2 v3 tbp => voltWf v0 && voltWf v1 && voltWf v2 && voltWf v3 && tempWf tbp
  | .vbkChange _ dv => dv ≤ 650
  | .digitiserSample _ raw tj _ => rawWf raw && tempWf tj
  | .canFrameReceived _ w0 w1 data _ => data.length == frameLen w0 w1
  | .decodedFrame _ _ w0 w1 data => !bit w1 4 && data.length == frameLen w0 w1
  | .canError _ ty _ _ _ _ _ => ty.val != 0
  | .plkFrameReceived start frame _ => start || (64 ≤ frame.length && frame.length ≤ 1522)
  | .plkTxComplete res tries _ _ _ _ => tries != 0 && tries.toNat ≤ 16 && (res.val != 1 || tries.toNat == 16)
  | .hpForward cmd _ src payload => 16#8 ≤ cmd && srcWf src && payload.length ≤ 256
  | .hpNop _ src => srcWf src
  | .resend _ src => srcWf src
  | .ident _ src => srcWf src
  | .hpForget _ src => srcWf src
  | .ackRestart _ src => srcWf src
  | .sensorSample q x _ _ => if q.val < 16 then tempWf x else 0 ≤ x
  | _ => true

end Sys2Proof
end

