-- ==== Sys2Proof/Certificates/Slice0/Obligations.lean ====
section
/-! DEFINITION. The statements for the provers. Each says what a command does in the states named by its hypotheses, as
`fires`: exec answers a next state, and what that state holds; `onlyTouches` and `onlyAt` say what it leaves alone. -/

namespace Sys2Proof.Claims

open Sys2Proof.Machine

/-- The command completes: exec answers a next state, of which `P` holds. -/
def fires (i : Instr) (s : State) (P : State → Prop) : Prop := ∃ t, exec i s = .next t ∧ P t

/-- A core can store into island `isl`, whose block answers stage `g` and has not stopped for a power-state entry. -/
abbrev canStore (s : State) (isl g : Nat) : Prop := s.coreRuns = true ∧ s.isUp isl = true ∧ s.isStopped g = false

/-- Of a replicated unit only element `i` may differ. -/
abbrev onlyAt {α : Type} {n : Nat} (i : Fin n) (v w : Vector α n) : Prop := ∀ j : Fin n, j ≠ i → w[j] = v[j]

/-- Island `isl` has emitted one event more: code and argument. -/
abbrev emitted (s t : State) (isl code : Nat) (arg : W32) : Prop :=
  vget t.fab.out isl OutBuf.init =
    outPut { time := s.count, src := isl, code := code, arg := arg } (vget s.fab.out isl OutBuf.init)

/-- From `s` to `t` the hub has taken record `r` (R24, R573, R574): for the cores if CORE is powered and out of reset, and
in SLEEP only while it holds fewer than 64 for them, else it counts one as lost; for the Deputy if MGMT is powered. -/
abbrev hubGains (s t : State) (r : EvRec) : Prop :=
  (s.isUp 1 = true ∧ s.sup.coreReset = false ∧ (s.coreGated = false ∨ s.hubHeld < 64) →
    t.fab.hub = s.fab.hub ++ [{ ev := r, cores := [0, 1, 2, 3], dep := s.isUp 3 }]) ∧
  (s.isUp 1 = false ∨ s.sup.coreReset = true ∨ (s.coreGated = true ∧ 64 ≤ s.hubHeld) →
    t.fab.hub = s.fab.hub ++ (if s.isUp 3 then [{ ev := r, cores := [], dep := true }] else [])) ∧
  t.fab.hubLost = s.fab.hubLost + (if s.coreGated = true ∧ 64 ≤ s.hubHeld then 1 else 0)

/-- Core `k` after a record has reached its interrupt controller (R380): stored under the line of the lowest filter that
takes it, counted as lost when 32 wait, dropped when no filter takes it. -/
abbrev received (k : Core) (e : EvRec) : Core :=
  match k.filter e with
  | none => k
  | some l =>
    if k.evq.length < 32 then { k with evq := k.evq ++ [{ ev := e, line := l }] }
    else { k with evqLost := satN 16 (k.evqLost + 1), evqOvf := true }

/-- A switch input after a poll that reads `c` (R315): SI_POLL.DEB + 1 differing polls in a row change it. -/
abbrev polled (p : Inp) (now : Nat) (x : Si) (c : Bool) : Si :=
  if x.closed = c then { x with cnt := 0 }
  else if fld p.siPoll 8 2 ≤ x.cnt then
    { x with closed := c, chg := true, cnt := 0, closedAt := if c then some now else x.closedAt }
  else { x with cnt := x.cnt + 1 }

/-- The core that counter `i` counts of. -/
abbrev coreAt (s : State) (i : Fin 24) : Core := s.core[i.val / 6]'(by omega)

/-- CAN controller `x`; its message object `m`, its receive queue `j`, and the hardware queue of that receive queue. -/
abbrev canOf (s : State) (x : Fin 4) : Can := s.can[x]
abbrev canObj (s : State) (x : Fin 4) (m : Fin 128) : CanObj := s.can[x].objs[m]
abbrev canQ (s : State) (x : Fin 4) (j : Fin 2) : CanQ := s.can[x].q[j]
abbrev rxQue (s : State) (x : Fin 4) (j : Fin 2) : Queue := s.que.q[24 + 2 * x.val + j.val]

/-- Network `x`. -/
abbrev nmOf (s : State) (x : Fin 4) : Nm := s.nm[x]

/-- From `s` to `t`, network `x`, its registers being `n`, sends a keep-alive from object `m` as R488 says: nothing with
KA_EN 0; deferred while ONLINE is 0 or the controller is not in MODE 1; skipped when the object, `o`, is busy or no enabled
transmit object; else written and requested. -/
abbrev sendsFrom (s t : State) (x : Fin 4) (rep : Bool) (n : Nm) (m : Fin 128) (o : CanObj) : Prop :=
  (bit n.ctl 4 = false → (canOf t x).objs = (canOf s x).objs) ∧
  (bit n.ctl 4 = true → n.online = false ∨ (canOf t x).mode ≠ 1 →
    n.kaPend = true ∧ (canOf t x).objs = (canOf s x).objs) ∧
  (bit n.ctl 4 = true → n.online = true → (canOf t x).mode = 1 → o.busy = true ∨ o.en = false ∨ o.dirTx = false →
    n.kaSkip = satN 16 ((nmOf s x).kaSkip + 1) ∧ (canOf t x).objs = (canOf s x).objs) ∧
  (bit n.ctl 4 = true → n.online = true → (canOf t x).mode = 1 → o.busy = false → o.en = true → o.dirTx = true →
    (canObj t x m).txs = .pending ∧ (canObj t x m).buf[0] = pack [(18, 11, fld n.kaCfg 16 5 * 64 + n.node)] ∧
    (canObj t x m).buf[1] = 4 ∧
    (canObj t x m).buf[4] = pack [(0, 8, n.node), (8, 1, fld n.ctl 2 1), (9, 1, b2n rep), (10, 1, b2n n.woken),
      (16, 16, satN 16 ((t.now - n.awakeAt) / 1000000))] ∧
    onlyAt m (canOf s x).objs (canOf t x).objs)

abbrev sendsKeepAlive (s t : State) (x : Fin 4) (rep : Bool) : Prop :=
  sendsFrom s t x rep (nmOf t x) (Fin.ofNat 128 (fld (nmOf t x).kaCfg 24 7))
    (canObj s x (Fin.ofNat 128 (fld (nmOf t x).kaCfg 24 7)))

/-- Header and argument word `k` (1 to 7) of request slot `i`. -/
abbrev hdrOf (s : State) (i : Fin 32) : W32 := s.dep.slots[i.val][0]
abbrev argOf (s : State) (i : Fin 32) (k : Fin 8) : Nat := s.dep.slots[i.val][k].toNat

/-- The Deputy runs, no response waits, and `j` is the lowest free response slot. -/
abbrev canAnswer (s : State) (j : Fin 32) : Prop :=
  s.depUp = true ∧ s.dep.rspWait = [] ∧ bit s.dep.rspPend j.val = false ∧ ∀ k : Fin 32, k < j → bit s.dep.rspPend k.val = true

/-- Slot `i` holds the oldest posted request, of operation `op`, and no update operation runs. -/
abbrev takesFirst (s : State) (i : Fin 32) (l : List (Fin 32)) (op : Nat) : Prop :=
  s.isStopped 11 = false ∧ s.dep.updOp = none ∧ s.dep.posted = i :: l ∧ fld (hdrOf s i) 0 8 = op

/-- The request of slot `i` has been taken. -/
abbrev taken (s t : State) (i : Fin 32) (l : List (Fin 32)) : Prop :=
  t.dep.posted = l ∧ t.dep.reqBusy = s.dep.reqBusy &&& ~~~(BitVec.ofNat 32 (2 ^ i.val))

/-- Response slot `32 + j` holds the answer to the request headed `hdr`: its OP and TAG, status `st`, words `ws`. -/
abbrev answered (s t : State) (j : Fin 32) (hdr : W32) (st : Nat) (ws : List W32) : Prop :=
  t.dep.slots[32 + j.val] = Vector.ofFn (fun k : Fin 8 =>
    (pack [(0, 8, fld hdr 0 8), (8, 8, fld hdr 8 8), (16, 3, ws.length), (24, 4, st)] :: ws).getD k.val 0) ∧
  t.dep.rspPend = s.dep.rspPend ||| BitVec.ofNat 32 (2 ^ j.val) ∧ t.dep.rspWait = [] ∧
  ∀ k : Fin 64, k.val ≠ 32 + j.val → t.dep.slots[k] = s.dep.slots[k]

/-- Totals `x` became `y`: they gained what the counters, now `c`, have gained since the last snapshot (R553). -/
abbrev gained (x y : LifeTot) (c : LifeCounts) : Prop :=
  y = { x with sum := y.sum, last := c } ∧ y.sum.ops = x.sum.ops + (c.ops - x.last.ops) ∧
  y.sum.onTime = x.sum.onTime + (c.onTime - x.last.onTime) ∧ y.sum.cyc = x.sum.cyc + (c.cyc - x.last.cyc) ∧
  y.sum.clamp = x.sum.clamp + (c.clamp - x.last.clamp) ∧ y.sum.high = x.sum.high + (c.high - x.last.high) ∧
  y.sum.ovl = x.sum.ovl + (c.ovl - x.last.ovl) ∧ y.sum.arr = x.sum.arr + (c.arr - x.last.arr) ∧
  y.sum.miss = x.sum.miss + (c.miss - x.last.miss)

/-- An entry of PWR is at stage `g`. -/
abbrev atStage (s : State) (g : Nat) : Prop := s.pwr.phase = .entering ∧ s.pwr.stage = g

/-- Some block of stages 2 to 12 has stopped for the entry. -/
abbrev someStopped (s : State) : Prop := ∃ i : Fin 14, 2 ≤ i.val ∧ i.val ≤ 12 ∧ s.pwr.stopped[i] = true

/-- The entry of `s` has ended by refusal in `t`, as R583 says: blocks restarted, latched wakes discarded, the refusal
recorded and counted as aborted if a block had stopped, else as refused. -/
abbrev entryEnds (s t : State) (code : Fin 16) (cause unit : Nat) : Prop :=
  t.pwr.phase = .run ∧ t.pwr.stage = 0 ∧ t.pwr.wakeCause = 0 ∧ t.pwr.stopped = Vector.replicate 14 false ∧
  t.adm.stopped = false ∧ t.pwr.lastAbortTime = t.count ∧
  t.pwr.lastAbort = pack [(0, 5, code.val), (8, 4, s.pwr.stage), (12, 2, s.pwr.target), (16, 2, cause), (24, 8, unit)] ∧
  t.pwr.refCnt[code] = satN 16 (s.pwr.refCnt[code] + 1) ∧ onlyAt code s.pwr.refCnt t.pwr.refCnt ∧
  (someStopped s → t.pwr.res = 3 ∧ t.pwr.cntAborted = satN 16 (s.pwr.cntAborted + 1) ∧ t.pwr.cntRefused = s.pwr.cntRefused) ∧
  (¬ someStopped s → t.pwr.res = 2 ∧ t.pwr.cntRefused = satN 16 (s.pwr.cntRefused + 1) ∧ t.pwr.cntAborted = s.pwr.cntAborted)

/-- Island 0 has emitted one event more: code and argument. -/
abbrev aonEmits (s t : State) (code : Nat) (arg : W32) : Prop :=
  t.fab.out[(0 : Fin 72)] = outPut { time := s.count, src := 0, code := code, arg := arg } s.fab.out[(0 : Fin 72)]

/-- A wake request of source `n` has been latched. -/
abbrev latched (s t : State) (n : Nat) : Prop :=
  t.pwr.wakeCause = s.pwr.wakeCause ||| (1 <<< n) ∧
  t.pwr.wakeTime = (if s.pwr.wakeCause = 0 then s.count else s.pwr.wakeTime)

/-- A return from the state coded `from_` has begun at its first step. -/
abbrev returnsFrom (s t : State) (from_ : Nat) : Prop :=
  t.pwr.phase = .returning ∧ t.pwr.step = 0 ∧ t.pwr.tries = 0 ∧ t.pwr.leaving = from_ ∧ t.pwr.stepAt = s.now ∧ t.pwr.wokenBy = t.pwr.wakeCause

/-- The boot ROM's choice (R619, R620): the bank it wants, its check, that of the other bank, and the bank it starts. -/
abbrev wantB (s : State) : Bool := s.nv.activeB != s.nv.next
abbrev wantFull (s : State) : Bool := s.sup.cause == 0 || s.nv.next
abbrev wantOk (s : State) : Bool :=
  if wantFull s then imageOk s.mem s.nv.keys s.nv.cnt (wantB s) else hdrBasic s.mem (bankBase (wantB s))
abbrev fallsBack (s : State) : Bool := !wantOk s && imageOk s.mem s.nv.keys s.nv.cnt (!wantB s)
abbrev bootBank (s : State) : Bool := if fallsBack s then !wantB s else wantB s
abbrev bootsSome (s : State) : Bool := wantOk s || fallsBack s
abbrev bootTrial (s : State) : Bool := wantOk s && (s.nv.next || s.nv.trial)

/-- The boot ROM has run in `ms`: the bank is active, SYS says how the start came about, C0 alone starts, from that bank,
or no core and limp is asserted (R393, R394, R619 to R623). -/
abbrev booted (s t : State) (ms : Nat) : Prop :=
  t.nv.activeB = bootBank s ∧ t.nv.next = false ∧ t.nv.trial = bootTrial s ∧ t.sup.coreReset = false ∧
  t.now = s.now + ms * 1000 ∧ (s.plk.held = [] → t.mem = s.mem) ∧
  (∀ c : Fin 4, t.core[c] =
    { Core.init c.val (b2n (bootBank s)) with started := decide (c = 0) && bootsSome s }) ∧
  t.sys.rstCause = pack [(0, 4, s.sup.cause), (4, 2, if s.sup.cause = 0 then s.sup.porSrc else 0), (16, 16, s.sup.rstCount)] ∧
  t.sys.boot = pack [(0, 1, b2n (bootBank s)), (1, 1, b2n (wantFull s || fallsBack s)), (2, 1, b2n (fallsBack s)),
    (3, 1, b2n (bootTrial s)), (4, 1, b2n (!bootsSome s)),
    (8, 6, if bootsSome s then hdrSvn s.mem (bankBase (bootBank s)) else 0), (16, 16, satN 16 ms)] ∧
  (bootsSome s = false → t.inp.deputy = true) ∧ (bootsSome s = true → t.inp.deputy = s.inp.deputy)

end Sys2Proof.Claims

open Sys2Proof Sys2Proof.Machine Sys2Proof.Claims

/-! ## The block and its queue -/

/-- A step takes the command at the front of the queue and runs it with the rest of the queue; on an empty queue the
block idles, which is the model's choice (log entry 3). -/
def Obligations.StepRunsTheFrontCommand : Prop :=
  ∀ (s : State) (i : Instr) (rest : List Instr),
    (s.pending = i :: rest → step s = exec i { s with pending := rest }) ∧
    step (s.push i) = exec i s ∧
    (s.pending = [] → s.tmbRuns = true →
      step s = .next s.idle ∧ s.idle.now = s.now + 1 ∧ s.idle.hs = s.hs ∧ s.idle.vd = s.vd ∧ s.idle.mem = s.mem ∧
        s.idle.core = s.core)

/-- No command touches the queue of waiting commands or the factory calibration in OTP (R118): all 320 arms of exec.
What reaches a unit in one cycle waits in that unit's order (R53, R221, R258, R451, R497, R520, R586); R53's classes
are spelled out for a channel. -/
def Obligations.EveryCommandKeepsQueueAndCalibration : Prop :=
  (∀ (i : Instr) (s t : State), exec i s = .next t → t.pending = s.pending ∧ t.otp = s.otp) ∧
  (∀ (s : State) (u : CycleUnit) (cs : List Instr), ∃ l : List Instr,
    s.sendCycle u cs = { s with pending := s.pending ++ l } ∧ l.Perm cs ∧ l.Pairwise (fun i j => u.rank i ≤ u.rank j) ∧
    ∀ k : Nat, l.filter (fun i => u.rank i == k) = cs.filter (fun i => u.rank i == k)) ∧
  (∀ (c b : Fin 4) (n : Fin 48) (x y z : Nat) (p q r : Bool),
    [CycleUnit.highSide.rank (.shortCircuit n x p), CycleUnit.highSide.rank (.overCurrent n x y),
      CycleUnit.highSide.rank (.bankUnderVoltage b x y), CycleUnit.highSide.rank (.clampEnd n z),
      CycleUnit.highSide.rank (.hsGrant n x), CycleUnit.highSide.rank (.hsOff c n p q r),
      CycleUnit.highSide.rank (.hsDrop n), CycleUnit.highSide.rank (.envStep n)] = [1, 1, 2, 3, 4, 5, 6, 7])

/-- After reset the sparse tables are canonical, nothing waits, TMB counts from 0 with RESTARTED set (R30, R33), every
channel, valve and string is DISABLED (R625), AON alone is out of reset (R618), and PWR reads its reset values (R607).
-/
def Obligations.ResetIsCanonicalAndEverythingOff : Prop :=
  State.reset.canonical ∧ State.reset.pending = [] ∧ State.reset.now = 0 ∧ State.reset.tmb.restarted = true ∧
  (∀ n : Fin 48, State.reset.hs[n].st = .disabled) ∧ (∀ n : Fin 16, State.reset.vd[n].st = .disabled) ∧
  (∀ k : Fin 3, State.reset.ls[k].st = .disabled) ∧ (∀ i : Fin 72, State.reset.isUp i.val = decide (i.val = 0)) ∧
  State.reset.pwrRead 0xC = 0x6FFF ∧ State.reset.pwrRead 8 = 0x320A ∧ State.reset.pwrRead 0x100 = 0 ∧
  State.reset.pwrRead 0x10C = 0

/-- Every step from a canonical state leads to a canonical one: memory, the curve store and the external claims stay
in their one form, whatever command runs. -/
def Obligations.StepsKeepTheCanonicalForm : Prop :=
  ∀ s t : State, s.canonical → step s = .next t → t.canonical

/-- A step stops in one way only: a supply voltage beyond the absolute maximum ratings of R641, where R640 gives no
behaviour. Every other command, in every state, answers a next state with the queue as before, and none is refused. -/
def Obligations.OnlyRatingsStopTheBlock : Prop :=
  (∀ (i : Instr) (s : State),
    exec i s = .fault .beyondRatings ↔
      (∃ b mv us, i = .bankRecover b mv us ∧ 65000 < mv) ∨
      (∃ v0 v1 v2 v3 tbp, i = .sensorCopy v0 v1 v2 v3 tbp ∧ (65000 < v0 ∨ 65000 < v1 ∨ 65000 < v2 ∨ 65000 < v3)) ∨
      (∃ ok dv, i = .vbkChange ok dv ∧ 650 < dv)) ∧
  (∀ (i : Instr) (s : State), (∀ b mv us, i = .bankRecover b mv us → mv ≤ 65000) →
    (∀ v0 v1 v2 v3 tbp, i = .sensorCopy v0 v1 v2 v3 tbp → v0 ≤ 65000 ∧ v1 ≤ 65000 ∧ v2 ≤ 65000 ∧ v3 ≤ 65000) →
    (∀ ok dv, i = .vbkChange ok dv → dv ≤ 650) → ∃ t, exec i s = .next t ∧ t.pending = s.pending) ∧
  (∀ (i : Instr) (s : State) (r : Refusal), exec i s ≠ .refused r)

/-! ## Register fabric, events, time base -/

namespace Sys2Proof.Claims

/-- Plain RW registers of several blocks: block, offset, the bits that are fields, the block's island and stage. -/
def rwRegs : List (Nat × Nat × Nat × Nat × Nat) :=
  [(0x01, 0x08, 0xFFFF, 0, 12), (0x01, 0x0C, 0x7FFF, 0, 12), (0x01, 0x1C, 0xFF, 0, 12), (0x01, 0x20, 0xFFFF, 0, 12),
   (0x01, 0x24, 0x3F, 0, 12), (0x02, 0x20, 0x3FF, 2, 8), (0x02, 0x30, 0xFFFFFFFF, 2, 8), (0x02, 0x34, 0xFFFF, 2, 8),
   (0x02, 0x38, 1, 2, 8), (0x05, 0x0C, 0x3FF, 2, 9), (0x06, 0x4000, 0xFFFF, 2, 12), (0x14, 0x10, 0xFFFFFFFF, 0, 12),
   (0x14, 0x14, 0xFFFF, 0, 12)]

/-- RC registers of several blocks: block, offset, island. -/
def rcRegs : List (Nat × Nat × Nat) :=
  [(0x00, 0x20, 1), (0x00, 0x24, 1), (0x01, 0x30, 0), (0x01, 0x34, 0), (0x04, 0x18, 2), (0x04, 0x1C, 2)]

end Sys2Proof.Claims

/-- REGISTER_WRITE stores every field bit of a plain RW register and no reserved one (R8, R10). At an offset that is
no multiple of 4, and to an island that is down, the access answers a bus fault and no register changes (R7, R43).
RC_READ answers the value and clears it (R10); a read of the Deputy clears nothing (R19). -/
def Obligations.RegistersStoreFieldsAndReadToClear : Prop :=
  (∀ (s : State) (c : Fin 4) (b : Fin 22) (off : BitVec 16) (mask isl g : Nat) (v : W32) (r : Nat),
    (b.val, off.toNat, mask, isl, g) ∈ rwRegs → canStore s isl g →
    fires (.registerWrite c b off v) s fun t =>
      t.answer = Answer.done ∧ t.regPeek b.val off.toNat r = keep mask v ∧ t.mem = s.mem ∧ t.core = s.core) ∧
  (∀ (s : State) (c : Fin 4) (b : Fin 22) (off : BitVec 16) (v : W32),
    s.coreRuns = true → (off.toNat % 4 ≠ 0 ∨ s.isUp (regIsland b.val off.toNat) = false) →
    fires (.registerWrite c b off v) s fun t =>
      t.answer = .busFault ∧ onlyTouches [.fab, .pmc, .answer] s t) ∧
  (∀ (s : State) (c : Fin 4) (b : Fin 22) (off : BitVec 16) (isl : Nat),
    s.coreRuns = true → (b.val, off.toNat, isl) ∈ rcRegs → s.isUp isl = true →
    fires (.rcRead c b off) s fun t =>
      t.answer = .value (s.regPeek b.val off.toNat c.val) ∧ t.regPeek b.val off.toNat c.val = 0 ∧ t.mem = s.mem ∧
      t.hs = s.hs ∧ t.core = s.core) ∧
  (∀ (s : State) (b off : Nat), 
      onlyTouches [.tmb, .fab, .pmc, .answer] s (s.depRead b off))

/-- CONTROL_PLANE_RESET in RUN by RSTN, the watchdog or a rollback: cores, queues, counters and host port stand at
their reset states, CORE is held, the reset is counted (R13, R393, R436, R544, R623), the orphan hold starts unless it
runs or has expired (R80, R81), and nothing else changes. The update reboot comes at its time (R614). -/
def Obligations.ControlPlaneResetClearsCoreAlone : Prop :=
  (∀ (s : State) (cause : Fin 4),
    s.isUp 1 = true → s.isUp 2 = true → s.pwr.phase = .run → cause.val ≠ 2 → 0 < s.hsc.holdUs → s.que.held = [] →
    fires (.controlPlaneReset cause) s fun t =>
      (∀ c : Fin 4, t.core[c] = Core.init c.val (b2n s.nv.activeB)) ∧ t.que = Que.init ∧ t.pmc = Pmc.init ∧
      t.hp = { Hp.init with csnLow := s.hp.csnLow } ∧ t.sup.coreReset = true ∧
      (t.sup.cause = (if cause.val = 0 then 1 else if cause.val = 1 then 2 else 4)) ∧
      t.sup.rstCount = satN 16 (s.sup.rstCount + 1) ∧ t.dep.wdCfg = 0x110007D0 ∧
      (t.hsc.orphanEnd = (if s.hsc.orphanEnd = none ∧ s.hsc.expired = false then some (s.now + s.hsc.holdUs) else
        s.hsc.orphanEnd)) ∧
      onlyTouches [.core, .que, .pmc, .hp, .sys, .fab, .sup, .dep, .hsc, .pwr] s t) ∧
  (∀ (s : State) (due : Nat),
    s.isUp 1 = true → s.isUp 2 = true → s.pwr.phase = .run → s.dep.rebootAt = some due → s.now ≤ due →
    0 < s.hsc.holdUs →
    fires (.controlPlaneReset 2) s fun t =>
      t.now = due ∧ (∀ c : Fin 4, t.core[c] = Core.init c.val (b2n s.nv.activeB)) ∧ t.sup.cause = 3 ∧
      t.dep.rebootAt = none ∧ t.mem = s.mem ∧ t.hs = s.hs)

/-- R14, for every cause of a control-plane reset that falls at the present time. -/
def Obligations.ControlPlaneResetKeepsMemory : Prop :=
  (∀ (s : State) (cause : Fin 4), cause.val ≠ 2 →
    fires (.controlPlaneReset cause) s fun t =>
      t.mem = s.mem ∧ t.ecc = s.ecc)

/-- TMB_WRAP brings the count to zero, increments WRAPS and sets WRAPPED (R29). -/
def Obligations.TimeBaseWraps : Prop :=
  (∀ (s : State), s.tmbRuns = true →
    fires (.tmbWrap) s fun t =>
      t.count = 0 ∧ t.now = (s.now / 2 ^ 48 + 1) * 2 ^ 48 ∧ t.tmb.wraps = satN 16 (s.tmb.wraps + 1) ∧
      t.tmb.wrapped = true ∧ onlyTouches [.tmb, .fab, .pwr, .ecc, .pmc, .dep, .nv, .free] s t) ∧
  (∀ (s : State), s.tmbRuns = false →
    fires (.tmbWrap) s fun t =>
      t = s)

/-- TMB_ALARM fires at the first count at or past the alarm value, sets FIRED and clears EN (R34, R35). TIME_LO_READ
answers the low half and latches the high half for its own requester only (R32, R19). -/
def Obligations.AlarmFiresAndTimeLatches : Prop :=
  (∀ (s : State), s.tmbRuns = true → s.tmb.en = true →
    fires (.tmbAlarm) s fun t =>
      t.tmb.fired = true ∧ t.tmb.en = false ∧ t.now = max s.now (s.now - s.count + s.tmb.alarm) ∧
      onlyTouches [.tmb, .fab, .pwr, .ecc, .pmc, .dep, .nv, .free] s t) ∧
  (∀ (s : State) (r : Fin 5), r.val < 4 → s.coreRuns = true → s.isUp 0 = true →
    fires (.timeLoRead r) s fun t =>
      t.answer = .value (BitVec.ofNat 32 s.now) ∧ t.tmb.hiLatch[r] = s.now / 2 ^ 32 % 65536 ∧
      onlyAt r s.tmb.hiLatch t.tmb.hiLatch ∧ t.now = s.now ∧ onlyTouches [.tmb, .fab, .pmc, .free, .answer] s t) ∧
  (∀ (s : State), s.depUp = true → s.isUp 0 = true →
    fires (.timeLoRead 4) s fun t =>
      t.answer = .value (BitVec.ofNat 32 s.now) ∧ t.tmb.hiLatch[(4 : Fin 5)] = s.now / 2 ^ 32 % 65536 ∧
      onlyAt 4 s.tmb.hiLatch t.tmb.hiLatch ∧ onlyTouches [.tmb, .fab, .pmc, .answer] s t) ∧
  (∀ (s : State), (s.tmb.en = false ∨ s.tmbRuns = false) →
    fires (.tmbAlarm) s fun t =>
      t = s)

/-- LOST frees one entry of an island's outbound buffer; if events had been discarded the LOST record with their
number takes it (R27). EVENT_RECORD_MATCH hands a core the oldest record of an island (R24) and stores it in its event
queue under the line of the lowest filter that takes it, counts it lost when the queue is full, or drops it (R380). -/
def Obligations.EventsLeaveInOrderAndReachFilters : Prop :=
  (∀ (s : State) (i : Fin 72) (r : EvRec) (rest : List EvRec), s.isUp 2 = true → s.fab.out[i].recs = r :: rest →
    fires (.lost i) s fun t =>
      ((if s.fab.out[i].lost = 0 then rest else rest ++
        [{ time := s.count, src := i.val, code := 0xFF, arg := BitVec.ofNat 32 s.fab.out[i].lost }]) <+:
        t.fab.out[i].recs) ∧
      (i.val ≠ 1 ∨ bit s.pmc.ctl 0 = false → t.fab.out[i] = (if s.fab.out[i].lost = 0 then { recs := rest, lost := 0 }
        else { recs := rest ++ [{ time := s.count, src := i.val, code := 0xFF, arg := BitVec.ofNat 32 s.fab.out[i].lost }], lost := 0 }))
        ∧
      hubGains s t r ∧ (∀ j : Fin 72, j ≠ i → j.val ≠ 1 → t.fab.out[j] = s.fab.out[j]) ∧
      onlyTouches [.fab, .pmc, .pwr] s t) ∧
  (∀ (s : State) (i : Fin 72), (s.isUp 2 = false ∨ s.fab.out[i].recs = []) →
    fires (.lost i) s fun t =>
      t = s) ∧
  (∀ (s : State) (c : Fin 4) (i : Fin 72) (e : EvRec) (hub : List HubRec),
    s.coreRuns = true → takeCore c i.val s.fab.hub = some (e, hub) →
    fires (.eventRecordMatch c i) s fun t =>
      t.fab = { s.fab with hub := hub } ∧ onlyAt c s.core t.core ∧ t.core[c] = received s.core[c] e ∧
      onlyTouches [.fab, .core] s t) ∧
  (∀ (s : State) (c : Fin 4) (i : Fin 72) (e : EvRec) (rest : List EvRec),
    s.coreRuns = true → s.isUp 2 = true → takeCore c i.val s.fab.hub = none → s.fab.out[i].recs = e :: rest →
    e.src = i.val →
    fires (.eventRecordMatch c i) s fun t =>
      t.core[c] = received s.core[c] e ∧ onlyAt c s.core t.core ∧
      (t.fab.hub = s.fab.hub ++ [{ ev := e, cores := [0, 1, 2, 3].filter (fun x => x ≠ c), dep := s.isUp 3 }]) ∧
      onlyTouches [.fab, .core, .pmc, .pwr] s t) ∧
  (∀ (s : State) (c : Fin 4) (i : Fin 72) (e : EvRec) (rest : List EvRec),
    s.coreRuns = false → s.isUp 2 = true → takeCore c i.val s.fab.hub = none → s.fab.out[i].recs = e :: rest →
    fires (.eventRecordMatch c i) s fun t =>
      hubGains s t e ∧ t.core = s.core ∧ onlyTouches [.fab, .pmc, .pwr] s t) ∧
  (∀ (s : State) (c : Fin 4) (i : Fin 72),
    (takeCore c i.val s.fab.hub = none ∧ (s.fab.out[i].recs = [] ∨ s.isUp 2 = false) ∨ s.coreRuns = false ∧ (takeCore
      c i.val s.fab.hub).isSome = true) →
    fires (.eventRecordMatch c i) s fun t =>
      t = s)

/-! ## High-side channels -/

/-- EN, OFF, CLEAR and ALL_OFF of firmware with the transitions of R50, the same-cycle rules of R54 and R56 and the
codes of R97; no other channel changes. -/
def Obligations.HighSideFirmwareCommandsMoveTheChannel : Prop :=
  (∀ (s : State) (c : Fin 4) (n : Fin 48) (v : W32) (same : Bool),
    canStore s (islHs n.val) 8 → s.hs[n].st = .disabled → s.hsPadHeld n = false →
    fires (.hsEnSet c n v same) s fun t =>
      t.hs[n].st = .off ∧ t.hs[n].ctl = keep 7 (v ||| 1) ∧ t.hs[n].cmdRes = 0 ∧ onlyAt n s.hs t.hs ∧
      onlyTouches [.fab, .answer, .hs, .dig, .adm, .pmc, .free] s t) ∧
  (∀ (s : State) (c : Fin 4) (n : Fin 48) (v : W32) (same : Bool),
    canStore s (islHs n.val) 8 → s.hs[n].st ≠ .disabled → s.hsPadHeld n = false →
    fires (.hsEnSet c n v same) s fun t =>
      t.hs[n] = { s.hs[n] with ctl := keep 7 (v ||| 1), cmdRes := 0 } ∧ onlyAt n s.hs t.hs ∧
      onlyTouches [.fab, .answer, .hs, .dig, .adm, .pmc, .free] s t) ∧
  (∀ (s : State) (c : Fin 4) (n : Fin 48) (v : W32) (same : Bool), canStore s (islHs n.val) 8 → s.hs[n].limp = true →
    fires (.hsEnClear c n v same) s fun t =>
      t.hs[n] = { s.hs[n] with cmdRes := 2 } ∧ onlyAt n s.hs t.hs ∧
      onlyTouches [.fab, .answer, .hs, .dig, .adm, .pmc, .free] s t) ∧
  (∀ (s : State) (c : Fin 4) (n : Fin 48) (v : W32),
    canStore s (islHs n.val) 8 → s.hs[n].limp = false → s.hs[n].st = .latched →
    fires (.hsEnClear c n v false) s fun t =>
      t.hs[n] = { s.hs[n] with ctl := t.hs[n].ctl, cmdRes := 0 } ∧ bit t.hs[n].ctl 0 = false ∧ onlyAt n s.hs t.hs ∧
      onlyTouches [.fab, .answer, .hs, .dig, .adm, .pmc, .free] s t) ∧
  (∀ (s : State) (c : Fin 4) (n : Fin 48) (v : W32),
    canStore s (islHs n.val) 8 → s.hs[n].limp = false → s.hs[n].markAt = s.now → s.hs[n].mark = .grantOn →
    hsOn s.hs[n].st = true →
    fires (.hsEnClear c n v true) s fun t =>
      t.hs[n] = { s.hs[n] with cmdRes := 1 } ∧ onlyAt n s.hs t.hs ∧
      onlyTouches [.fab, .answer, .hs, .dig, .adm, .pmc, .free] s t) ∧
  (∀ (s : State) (c : Fin 4) (n : Fin 48) (v : W32),
    canStore s (islHs n.val) 8 → s.hs[n].limp = false → s.hs[n].markAt = s.now → s.hs[n].mark = .fault →
    (s.hs[n].st = .latched ∨ s.hs[n].st = .retryWait) →
    fires (.hsEnClear c n v true) s fun t =>
      t.hs[n].st = .disabled ∧ t.hs[n].cmdRes = 0 ∧ onlyAt n s.hs t.hs ∧
      onlyTouches [.fab, .answer, .hs, .dig, .adm, .pmc, .free] s t) ∧
  (∀ (s : State) (c : Fin 4) (n : Fin 48) (same : Bool),
    canStore s (islHs n.val) 8 → s.hs[n].limp = false → s.hs[n].st = .disabled →
    fires (.hsOff c n false false same) s fun t =>
      t.hs[n] = { s.hs[n] with cmdRes := 0 } ∧ onlyAt n s.hs t.hs ∧
      onlyTouches [.fab, .answer, .hs, .dig, .adm, .pmc, .free] s t) ∧
  (∀ (s : State) (c : Fin 4) (n : Fin 48) (v : W32) (same : Bool), canStore s (islHs n.val) 8 → s.hsPadHeld n = true →
    fires (.hsEnSet c n v same) s fun t =>
      t.hs[n] = { s.hs[n] with cmdRes := 2 } ∧ onlyAt n s.hs t.hs ∧
      onlyTouches [.fab, .answer, .hs, .dig, .adm, .pmc, .free] s t) ∧
  (∀ (s : State) (c : Fin 4) (n : Fin 48) (v : W32) (same : Bool),
    canStore s (islHs n.val) 8 → s.hs[n].limp = false → (s.hs[n].markAt ≠ s.now ∨ same = false) →
    s.hs[n].st ≠ .latched →
    fires (.hsEnClear c n v same) s fun t =>
      t.hs[n].st = .disabled ∧ t.hs[n].cmdRes = 0 ∧ bit t.hs[n].ctl 0 = false ∧ onlyAt n s.hs t.hs ∧
      onlyTouches [.fab, .answer, .hs, .dig, .adm, .pmc, .free] s t) ∧
  (∀ (s : State) (c : Fin 4) (n : Fin 48) (same : Bool),
    canStore s (islHs n.val) 8 → s.hs[n].limp = false → (s.hs[n].markAt ≠ s.now ∨ same = false) →
    s.hs[n].st ≠ .latched → s.hs[n].st ≠ .disabled →
    fires (.hsOff c n false false same) s fun t =>
      t.hs[n].st = .off ∧ t.hs[n].cmdRes = 0 ∧ t.hs[n].ctl = s.hs[n].ctl ∧ onlyAt n s.hs t.hs ∧
      onlyTouches [.fab, .answer, .hs, .dig, .adm, .pmc, .free] s t) ∧
  (∀ (s : State) (c : Fin 4) (n : Fin 48),
    canStore s (islHs n.val) 8 → s.hs[n].limp = false → s.hs[n].markAt = s.now → s.hs[n].mark = .grantOn →
    hsOn s.hs[n].st = true →
    fires (.hsOff c n false false true) s fun t =>
      t.hs[n] = { s.hs[n] with cmdRes := 1 } ∧ onlyAt n s.hs t.hs ∧
      onlyTouches [.fab, .answer, .hs, .dig, .adm, .pmc, .free] s t) ∧
  (∀ (s : State) (c : Fin 4) (n : Fin 48),
    canStore s (islHs n.val) 8 → s.hs[n].limp = false → s.hs[n].markAt = s.now → s.hs[n].mark = .fault →
    (s.hs[n].st = .latched ∨ s.hs[n].st = .retryWait) →
    fires (.hsOff c n false false true) s fun t =>
      t.hs[n].st = .off ∧ t.hs[n].cmdRes = 0 ∧ onlyAt n s.hs t.hs ∧
      onlyTouches [.fab, .answer, .hs, .dig, .adm, .pmc, .free] s t) ∧
  (∀ (s : State) (c : Fin 4) (n : Fin 48) (multi same : Bool),
    canStore s (islHs n.val) 8 → (s.hs[n].limp = true ∨ multi = true ∨ s.hs[n].st = .latched ∧ same = false) →
    fires (.hsOff c n false multi same) s fun t =>
      t.hs[n] = { s.hs[n] with cmdRes := 2 } ∧ onlyAt n s.hs t.hs ∧
      onlyTouches [.fab, .answer, .hs, .dig, .adm, .pmc, .free] s t) ∧
  (∀ (s : State) (c : Fin 4) (n : Fin 48), canStore s (islHs n.val) 8 → s.hs[n].limp = false → s.hs[n].tl = false →
    fires (.hsClear c n false) s fun t =>
      t.hs[n].retryCnt = 0 ∧ t.hs[n].cmdRes = 0 ∧
      (t.hs[n].st = (if s.hs[n].st = .retryWait then .off else if s.hs[n].st = .latched then (if bit s.hs[n].ctl 0
        then .off else .disabled) else s.hs[n].st)) ∧
      onlyAt n s.hs t.hs ∧ onlyTouches [.fab, .answer, .hs, .dig, .adm, .pmc, .free] s t) ∧
  (∀ (s : State) (c : Fin 4) (n : Fin 48) (multi : Bool),
    canStore s (islHs n.val) 8 → (s.hs[n].limp = true ∨ s.hs[n].tl = true ∨ multi = true) →
    fires (.hsClear c n multi) s fun t =>
      t.hs[n] = { s.hs[n] with cmdRes := 2 } ∧ onlyAt n s.hs t.hs ∧
      onlyTouches [.fab, .answer, .hs, .dig, .adm, .pmc, .free] s t) ∧
  (∀ (s : State) (c : Fin 4) (same : Bool), canStore s 2 8 →
    fires (.hsAllOff c same) s fun t =>
      (∀ n : Fin 48, s.hsUp n = true → s.hs[n].limp = false → same = false ∨ s.hs[n].markAt ≠ s.now → hsOn t.hs[n].st
        = false ∧ t.hs[n].st ≠ .pending) ∧
      (∀ n : Fin 48, s.hsUp n = true → s.hs[n].limp = false → s.hs[n].st = .disabled → t.hs[n].st = .disabled) ∧
      (∀ n : Fin 48, s.hsUp n = false ∨ s.hs[n].limp = true → t.hs[n] = s.hs[n]) ∧
      (∀ n : Fin 48, s.hsUp n = true → s.hs[n].limp = false → same = true → s.hs[n].markAt = s.now → s.hs[n].mark =
        .grantOn → hsOn s.hs[n].st = true → t.hs[n] = { s.hs[n] with cmdRes := 1 }) ∧
      onlyTouches [.fab, .answer, .hs, .dig, .adm, .pmc, .free] s t)

/-- ADM's messages at a channel: the entry (R163), the grant (R51, R52), the drop (R164) and the OFF of a heater
window (R95), with the transitions of R50. -/
def Obligations.AdmMessagesMoveTheChannel : Prop :=
  (∀ (s : State) (n : Fin 48) (r : List (Nat × ToTgt)),
    takeMsg n.val .entry s.adm.toTgt = some r → s.hsUp n = true → s.hs[n].st = .off → s.hs[n].tl = false →
    s.hs[n].bankOk = true → s.hs[n].limp = false →
    fires (.hsRequestQueued n) s fun t =>
      t.hs[n].st = .pending ∧ t.adm.inbox = s.adm.inbox ++ [.confirm n.val] ∧ t.adm.toTgt = r ∧
      t.hs[n].reqKind = .ordinary ∧ onlyAt n s.hs t.hs ∧ onlyTouches [.hs, .adm] s t) ∧
  (∀ (s : State) (n : Fin 48) (r : List (Nat × ToTgt)),
    takeMsg n.val .entryOwn s.adm.toTgt = some r → s.hsUp n = true → s.hs[n].st = .off → s.hs[n].tl = false →
    s.hs[n].bankOk = true →
    fires (.hsRequestQueued n) s fun t =>
      t.hs[n].st = .pending ∧ t.adm.inbox = s.adm.inbox ++ [.confirm n.val] ∧ t.adm.toTgt = r ∧
      t.hs[n].reqKind = .ordinary ∧ t.hs[n].own = false ∧ onlyAt n s.hs t.hs ∧ onlyTouches [.hs, .adm] s t) ∧
  (∀ (s : State) (n : Fin 48) (r : List (Nat × ToTgt)),
    takeMsg n.val .entry s.adm.toTgt = some r → s.hsUp n = true → s.hs[n].st = .off → s.hs[n].tl = false →
    s.hs[n].bankOk = false → s.hs[n].limp = false →
    fires (.hsRequestQueued n) s fun t =>
      (t.hs[n].st = (if bit s.hs[n].ctl 1 = true then .uvWait else .off)) ∧
      (t.adm.inbox = s.adm.inbox ++ [if bit s.hs[n].ctl 1 then .uvTaken n.val else .refuse n.val 1]) ∧
      onlyAt n s.hs t.hs ∧ onlyTouches [.hs, .adm] s t) ∧
  (∀ (s : State) (n : Fin 48) (r : List (Nat × ToTgt)),
    takeMsg n.val .entry s.adm.toTgt = some r → s.hsUp n = true → s.hs[n].st ≠ .pending →
    (s.hs[n].st ≠ .off ∨ s.hs[n].tl = true ∨ s.hs[n].limp = true ∧ s.hs[n].own = false) →
    fires (.hsRequestQueued n) s fun t =>
      t.hs[n] = { s.hs[n] with own := false } ∧ t.adm.inbox = s.adm.inbox ++ [.refuse n.val s.hs[n].st.code] ∧
      onlyAt n s.hs t.hs ∧ onlyTouches [.hs, .adm] s t) ∧
  (∀ (s : State) (n : Fin 48) (cyc : Nat) (r : List (Nat × ToTgt)),
    takeMsg n.val .grant s.adm.toTgt = some r → s.hsUp n = true → s.hs[n].st = .pending → s.hs[n].tl = false →
    s.hs[n].bankOk = true →
    fires (.hsGrant n cyc) s fun t =>
      hsOn t.hs[n].st = true ∧ t.hs[n].ops = satN 64 (s.hs[n].ops + 1) ∧ t.hs[n].onAt = s.now ∧ t.hs[n].clamp = none ∧
      (envLen s.hs[n].envCfg = 0 → t.hs[n].st = .on) ∧
      (0 < envLen s.hs[n].envCfg → s.hs[n].envLoaded = false → t.hs[n].st = .inrush ∧ t.hs[n].stepEnd = s.now + 10000) ∧
      onlyAt n s.hs t.hs ∧ onlyTouches [.fab, .hs, .dig, .adm, .pwr] s t) ∧
  (∀ (s : State) (n : Fin 48) (cyc : Nat) (r : List (Nat × ToTgt)),
    takeMsg n.val .grant s.adm.toTgt = some r → s.hsUp n = true → s.hs[n].st ≠ .pending →
    fires (.hsGrant n cyc) s fun t =>
      t.hs[n] = { s.hs[n] with own := false } ∧ onlyAt n s.hs t.hs ∧ t.adm.inbox = s.adm.inbox ++ [.returned n.val] ∧
      emitted s t (islHs n.val) 9 (pack [(0, 4, s.hs[n].st.code)]) ∧ onlyTouches [.fab, .hs, .adm] s t) ∧
  (∀ (s : State) (n : Fin 48) (r : List (Nat × ToTgt)),
    takeMsg n.val .drop s.adm.toTgt = some r → s.hsUp n = true → s.hs[n].st = .pending →
    fires (.hsDrop n) s fun t =>
      t.hs[n].st = .off ∧ onlyAt n s.hs t.hs ∧ onlyTouches [.hs, .adm] s t) ∧
  (∀ (s : State) (n : Fin 48) (r : List (Nat × ToTgt)),
    takeMsg n.val .drop s.adm.toTgt = some r → s.hsUp n = true → s.hs[n].st ≠ .pending →
    fires (.hsDrop n) s fun t =>
      t.hs[n] = { s.hs[n] with own := false } ∧ onlyAt n s.hs t.hs ∧ onlyTouches [.hs, .adm] s t) ∧
  (∀ (s : State) (c : Fin 4) (n : Fin 48) (multi : Bool) (r : List (Nat × ToTgt)),
    takeMsg n.val .off s.adm.toTgt = some r → s.hsUp n = true → s.hs[n].st = .on → s.hs[n].limp = false →
    fires (.hsOff c n true multi false) s fun t =>
      t.hs[n].st = .off ∧ t.hs[n].cmdRes = 0 ∧ emitted s t (islHs n.val) 2 (pack [(0, 4, 1), (4, 4, 9)]) ∧
      onlyAt n s.hs t.hs ∧ onlyTouches [.fab, .answer, .hs, .dig, .adm, .pmc, .free] s t) ∧
  (∀ (s : State) (n : Fin 48), (takeMsg n.val .grant s.adm.toTgt = none ∨ s.hsUp n = false) →
    fires (.hsGrant n 0) s fun t =>
      t = s) ∧
  (∀ (s : State) (n : Fin 48), (takeMsg n.val .drop s.adm.toTgt = none ∨ s.hsUp n = false) →
    fires (.hsDrop n) s fun t =>
      t = s)

/-- Over-current (R59), short circuit (R60) and the thermal latch (R74) take the fault path of R50 and R55;
THERMAL_LATCH_CLEAR releases the latch (R75, R76). -/
def Obligations.HighSideProtectionTakesTheFaultPath : Prop :=
  (∀ (s : State) (n : Fin 48) (ma cycles : Nat),
    s.hsUp n = true → hsOn s.hs[n].st = true → ocThr n.val s.hs[n].level < (ma : Rat) →
    max 1 (fld s.hs[n].ocCfg 8 6) * 40 ≤ cycles →
    fires (.overCurrent n ma cycles) s fun t =>
      (t.hs[n].st = (if fld s.hs[n].retryCfg 0 4 ≤ s.hs[n].retryCnt then .latched else .retryWait)) ∧
      bit t.hs[n].fault 0 = true ∧ t.hs[n].faultTime = s.count ∧ fld t.hs[n].faultInfo 0 4 = 1 ∧
      t.hs[n].tl = s.hs[n].tl ∧ onlyAt n s.hs t.hs ∧ onlyTouches [.fab, .hs, .dig, .adm, .pwr] s t) ∧
  (∀ (s : State) (n : Fin 48) (ma cycles : Nat),
    (s.hsUp n = false ∨ (ma : Rat) ≤ ocThr n.val s.hs[n].level ∨ cycles < max 1 (fld s.hs[n].ocCfg 8 6) * 40 ∨ hsOn
      s.hs[n].st = false) →
    fires (.overCurrent n ma cycles) s fun t =>
      t = s) ∧
  (∀ (s : State) (n : Fin 48) (ma : Nat) (oc : Bool), s.hsUp n = true → hsOn s.hs[n].st = true → 4 * iNom n.val ≤ ma →
    fires (.shortCircuit n ma oc) s fun t =>
      (t.hs[n].st = (if bit s.hs[n].ctl 2 = false ∨ fld s.hs[n].retryCfg 0 4 ≤ s.hs[n].retryCnt then .latched else
        .retryWait)) ∧
      bit t.hs[n].fault 1 = true ∧ (oc = true → bit t.hs[n].fault 0 = true) ∧ t.hs[n].faultTime = s.count ∧
      fld t.hs[n].faultInfo 0 4 = 2 ∧ t.hs[n].tl = s.hs[n].tl ∧ onlyAt n s.hs t.hs ∧
      onlyTouches [.fab, .hs, .dig, .adm, .pwr] s t) ∧
  (∀ (s : State) (n : Fin 48) (ma : Nat) (oc : Bool),
    (s.hsUp n = false ∨ ma < 4 * iNom n.val ∨ hsOn s.hs[n].st = false) →
    fires (.shortCircuit n ma oc) s fun t =>
      t = s) ∧
  (∀ (s : State) (n : Fin 48) (tj : Int) (sc oc : Bool),
    s.hsUp n = true → s.hs[n].tl = false → 2800 ≤ tj → hsOn s.hs[n].st = true →
    fires (.thermalLatchSet n tj sc oc) s fun t =>
      t.hs[n].tl = true ∧
      (t.hs[n].st = (if sc = true ∧ bit s.hs[n].ctl 2 = false ∨ fld s.hs[n].retryCfg 0 4 ≤ s.hs[n].retryCnt then
        .latched else .retryWait)) ∧
      bit t.hs[n].fault 2 = true ∧ (sc = true → bit t.hs[n].fault 1 = true) ∧
      (oc = true → bit t.hs[n].fault 0 = true) ∧ (fld t.hs[n].faultInfo 0 4 = (if sc then 2 else 3)) ∧
      t.hs[n].faultTime = s.count ∧ t.hs[n].tj = tj ∧ t.hs[n].retryAt = none ∧ onlyAt n s.hs t.hs ∧
      onlyTouches [.fab, .hs, .dig, .vg, .ls, .adm, .pwr] s t) ∧
  (∀ (s : State) (n : Fin 48) (tj : Int) (sc oc : Bool),
    s.hsUp n = true → s.hs[n].tl = false → 2800 ≤ tj → s.hs[n].st = .pending →
    fires (.thermalLatchSet n tj sc oc) s fun t =>
      t.hs[n].tl = true ∧
      (t.hs[n].st = (if fld s.hs[n].retryCfg 0 4 ≤ s.hs[n].retryCnt then .latched else .retryWait)) ∧
      bit t.hs[n].fault 2 = true ∧ fld t.hs[n].faultInfo 0 4 = 3 ∧ t.hs[n].faultTime = s.count ∧ t.hs[n].tj = tj ∧
      t.hs[n].retryAt = none ∧ (s.isUp 2 = true → t.adm.inbox = s.adm.inbox ++ [.withdraw n.val]) ∧
      onlyAt n s.hs t.hs ∧ onlyTouches [.fab, .hs, .dig, .vg, .ls, .adm, .pwr] s t) ∧
  (∀ (s : State) (n : Fin 48) (tj : Int) (sc oc : Bool),
    s.hsUp n = true → s.hs[n].tl = false → 2800 ≤ tj → s.hs[n].st ≠ .pending → hsOn s.hs[n].st = false →
    fires (.thermalLatchSet n tj sc oc) s fun t =>
      t.hs[n].tl = true ∧ t.hs[n].st = s.hs[n].st ∧ t.hs[n].fault = s.hs[n].fault ||| 4 ∧ t.hs[n].tj = tj ∧
      t.hs[n].retryAt = none ∧ t.hs[n].retryCnt = s.hs[n].retryCnt ∧ onlyAt n s.hs t.hs ∧
      onlyTouches [.fab, .hs, .dig, .vg, .ls, .adm, .pwr] s t) ∧
  (∀ (s : State) (n : Fin 48) (tj : Int) (sc oc : Bool), (s.hsUp n = false ∨ s.hs[n].tl = true ∨ tj < 2800) →
    fires (.thermalLatchSet n tj sc oc) s fun t =>
      t = s) ∧
  (∀ (s : State) (n : Fin 48) (tj : Int), s.hsUp n = true → s.hs[n].tl = true → tj ≤ 2480 →
    fires (.thermalLatchClear n tj) s fun t =>
      t.hs[n].tl = false ∧ t.hs[n].tj = tj ∧
      (s.hs[n].st = .retryWait → t.hs[n].retryAt = some s.now ∧ t.hs[n].st = .retryWait) ∧
      (s.hs[n].st ≠ .uvWait ∨ s.hs[n].bankOk = false → t.hs[n].st = s.hs[n].st) ∧
      (s.hs[n].st = .uvWait → s.hs[n].bankOk = true → t.hs[n].st = .pending ∧ t.hs[n].reqKind = .restart) ∧
      onlyAt n s.hs t.hs ∧ onlyTouches [.fab, .hs, .vg, .ls, .adm] s t) ∧
  (∀ (s : State) (n : Fin 48) (tj : Int), (s.hsUp n = false ∨ s.hs[n].tl = false ∨ 2480 < tj) →
    fires (.thermalLatchClear n tj) s fun t =>
      t = s)

/-- BANK_UNDER_VOLTAGE and BANK_RECOVER act on every powered channel of the bank by its own threshold (R68 to R73); a
voltage beyond R641 stops as a fault. -/
def Obligations.BankVoltageHoldsChannelsOff : Prop :=
  (∀ (s : State) (b : Fin 4) (mv us : Nat), 20 ≤ us →
    fires (.bankUnderVoltage b mv us) s fun t =>
      (∀ n : Fin 48, bankOf n.val = b.val → s.hsUp n = true → mv < uvThr s.hs[n].uvCfg → t.hs[n].uv = true ∧
        t.hs[n].bankOk = false ∧ t.hs[n].st = (if s.hs[n].st = .pending ∨ hsOn s.hs[n].st = true then (if bit
        s.hs[n].ctl 1 then .uvWait else .off) else s.hs[n].st)) ∧
      (∀ n : Fin 48, bankOf n.val ≠ b.val ∨ s.hsUp n = false ∨ uvThr s.hs[n].uvCfg ≤ mv → t.hs[n] = s.hs[n]) ∧
      (s.isUp 2 = true → mv < uvThr s.hsc.uvCfg[b] → t.hsc.uv[b] = true ∧ t.hsc.bankOk[b] = false) ∧
      (s.isUp 2 = false ∨ uvThr s.hsc.uvCfg[b] ≤ mv → t.hsc = s.hsc) ∧ onlyAt b s.hsc.uv t.hsc.uv ∧
      onlyAt b s.hsc.bankOk t.hsc.bankOk ∧ onlyTouches [.fab, .hs, .hsc, .dig, .vg, .vd, .ls, .adm, .pwr] s t) ∧
  (∀ (s : State) (b : Fin 4) (mv us : Nat), us < 20 →
    fires (.bankUnderVoltage b mv us) s fun t =>
      t = s) ∧
  (∀ (s : State) (b : Fin 4) (mv us : Nat), 10000 ≤ us → mv ≤ 65000 →
    fires (.bankRecover b mv us) s fun t =>
      (∀ n : Fin 48, bankOf n.val = b.val → s.hsUp n = true → uvRec s.hs[n].uvCfg < mv → t.hs[n].uv = false ∧
        t.hs[n].bankOk = true) ∧
      (∀ n : Fin 48, bankOf n.val = b.val → s.hsUp n = true → uvRec s.hs[n].uvCfg < mv → s.hs[n].st = .uvWait →
        s.hs[n].tl = false → t.hs[n].st = .pending ∧ t.hs[n].reqKind = .restart ∧ t.hs[n].retryCnt = s.hs[n].retryCnt)
        ∧
      (∀ n : Fin 48, bankOf n.val = b.val → s.hsUp n = true → uvRec s.hs[n].uvCfg < mv → s.hs[n].st = .retryWait →
        s.hs[n].retryDone = true → s.hs[n].tl = false → t.hs[n].st = .pending ∧ t.hs[n].reqKind = .restart ∧
        t.hs[n].retryCnt = min 15 (s.hs[n].retryCnt + 1)) ∧
      (∀ n : Fin 48, s.hs[n].tl = true ∨ (s.hs[n].st ≠ .uvWait ∧ (s.hs[n].st ≠ .retryWait ∨ s.hs[n].retryDone =
        false)) → t.hs[n].st = s.hs[n].st) ∧
      (∀ n : Fin 48, bankOf n.val ≠ b.val ∨ s.hsUp n = false ∨ mv ≤ uvRec s.hs[n].uvCfg → t.hs[n] = s.hs[n]) ∧
      (s.isUp 2 = true → uvRec s.hsc.uvCfg[b] < mv → t.hsc.uv[b] = false ∧ t.hsc.bankOk[b] = true) ∧
      (s.isUp 2 = false ∨ mv ≤ uvRec s.hsc.uvCfg[b] → t.hsc = s.hsc) ∧ onlyAt b s.hsc.uv t.hsc.uv ∧
      onlyAt b s.hsc.bankOk t.hsc.bankOk ∧ onlyTouches [.fab, .hs, .hsc, .dig, .ls, .adm] s t) ∧
  (∀ (s : State) (b : Fin 4) (mv us : Nat), us < 10000 → mv ≤ 65000 →
    fires (.bankRecover b mv us) s fun t =>
      t = s) ∧
  (∀ (s : State) (b : Fin 4) (mv us : Nat), 65000 < mv →
      exec (.bankRecover b mv us) s = .fault .beyondRatings) ∧
  (∀ (s : State) (c b : Fin 4) (v : W32), canStore s 2 8 →
    fires (.uvCfgWrite c b v) s fun t =>
      t.hsc.uvCfg[b] = keep 0x37F v ∧ onlyAt b s.hsc.uvCfg t.hsc.uvCfg ∧
      (∀ n : Fin 48, bankOf n.val = b.val → s.hsUp n = true → t.hs[n] = { s.hs[n] with uvCfg := keep 0x37F v }) ∧
      (∀ n : Fin 48, bankOf n.val ≠ b.val ∨ s.hsUp n = false → t.hs[n] = s.hs[n]) ∧
      onlyTouches [.fab, .answer, .hs, .hsc, .pmc, .free] s t)

/-- The channel's timers and its envelope (R62, R65, R67, R76 to R78). -/
def Obligations.HighSideTimersAndEnvelope : Prop :=
  (∀ (s : State) (n : Fin 48),
    s.hsUp n = true → s.hs[n].st = .inrush →
    (s.hs[n].defEnv = true ∨ s.hs[n].env.length ≤ s.hs[n].envStep + 1 ∨ envDur (s.hs[n].env.getD (s.hs[n].envStep + 1)
      0) = 0) →
    s.tmbRuns = true →
    fires (.envStep n) s fun t =>
      t.hs[n].st = .on ∧ t.now = max s.now s.hs[n].stepEnd ∧ t.hs[n].onStAt = t.now ∧
      t.hs[n].retryCnt = s.hs[n].retryCnt ∧ onlyAt n s.hs t.hs ∧
      onlyTouches [.tmb, .fab, .hs, .adm, .pwr, .ecc, .pmc, .dep, .nv, .free] s t) ∧
  (∀ (s : State) (n : Fin 48),
    s.hsUp n = true → s.hs[n].st = .inrush → s.hs[n].defEnv = false → s.hs[n].envStep + 1 < s.hs[n].env.length →
    0 < envDur (s.hs[n].env.getD (s.hs[n].envStep + 1) 0) → s.tmbRuns = true →
    fires (.envStep n) s fun t =>
      t.now = max s.now s.hs[n].stepEnd ∧
      t.hs[n] =
        { s.hs[n] with envStep := s.hs[n].envStep + 1, stepEnd := s.hs[n].stepEnd + 100 * envDur (s.hs[n].env.getD (s.hs[n].envStep + 1) 0) }
        ∧
      onlyAt n s.hs t.hs ∧ onlyTouches [.tmb, .fab, .hs, .adm, .pwr, .ecc, .pmc, .dep, .nv, .free] s t) ∧
  (∀ (s : State) (n : Fin 48), (s.hsUp n = false ∨ s.hs[n].st ≠ .inrush) →
    fires (.envStep n) s fun t =>
      t = s) ∧
  (∀ (s : State) (n : Fin 48) (since : Nat),
    s.hsUp n = true → s.hs[n].st = .retryWait → s.hs[n].retryAt = some since → s.hs[n].tl = false →
    s.hs[n].bankOk = true → s.tmbRuns = true →
    fires (.retryTimerExpiry n) s fun t =>
      t.now = max s.now (since + max 1 (fld s.hs[n].retryCfg 16 16) * 1000) ∧ t.hs[n].st = .pending ∧
      t.hs[n].retryCnt = min 15 (s.hs[n].retryCnt + 1) ∧ t.hs[n].reqKind = .restart ∧ onlyAt n s.hs t.hs ∧
      onlyTouches [.tmb, .fab, .hs, .adm, .pwr, .ecc, .pmc, .dep, .nv, .free] s t) ∧
  (∀ (s : State) (n : Fin 48) (since : Nat),
    s.hsUp n = true → s.hs[n].st = .retryWait → s.hs[n].retryAt = some since → s.hs[n].tl = false →
    s.hs[n].bankOk = false → s.tmbRuns = true →
    fires (.retryTimerExpiry n) s fun t =>
      t.now = max s.now (since + max 1 (fld s.hs[n].retryCfg 16 16) * 1000) ∧
      t.hs[n] = { s.hs[n] with retryAt := none, retryDone := true } ∧ onlyAt n s.hs t.hs ∧
      onlyTouches [.tmb, .fab, .hs, .adm, .pwr, .ecc, .pmc, .dep, .nv, .free] s t) ∧
  (∀ (s : State) (n : Fin 48),
    (s.hsUp n = false ∨ s.hs[n].st ≠ .retryWait ∨ s.hs[n].retryAt = none ∨ s.hs[n].tl = true) →
    fires (.retryTimerExpiry n) s fun t =>
      t = s) ∧
  (∀ (s : State) (n : Fin 48), s.hsUp n = true → s.hs[n].st = .on → 0 < fld s.hs[n].retryCfg 8 8 → s.tmbRuns = true →
    fires (.healExpiry n) s fun t =>
      t.now = max s.now (s.hs[n].onStAt + fld s.hs[n].retryCfg 8 8 * 1000000) ∧
      t.hs[n] = { s.hs[n] with retryCnt := 0 } ∧ onlyAt n s.hs t.hs ∧
      onlyTouches [.tmb, .fab, .hs, .pwr, .ecc, .pmc, .dep, .nv, .free] s t) ∧
  (∀ (s : State) (n : Fin 48), (s.hsUp n = false ∨ s.hs[n].st ≠ .on ∨ fld s.hs[n].retryCfg 8 8 = 0) →
    fires (.healExpiry n) s fun t =>
      t = s) ∧
  (∀ (s : State) (c : Fin 4) (n : Fin 48) (v : W32), canStore s (islHs n.val) 8 → fld v 0 12 + envLen v ≤ 4096 →
    fires (.envCfgWrite c n v) s fun t =>
      t.hs[n] =
        { s.hs[n] with envCfg := keep 0x001F0FFF v, envLoaded := false, cmdRes := 0, copy := { busy := true, base := fld v 0 12, len := envLen v } }
        ∧
      onlyAt n s.hs t.hs ∧ onlyTouches [.fab, .answer, .hs, .pmc, .free] s t) ∧
  (∀ (s : State) (c : Fin 4) (n : Fin 48) (v : W32), canStore s (islHs n.val) 8 → 4096 < fld v 0 12 + envLen v →
    fires (.envCfgWrite c n v) s fun t =>
      t.hs[n] = { s.hs[n] with cmdRes := 3 } ∧ onlyAt n s.hs t.hs ∧ onlyTouches [.fab, .answer, .hs, .pmc, .free] s t) ∧
  (∀ (s : State) (n : Fin 48), s.hs[n].copy.busy = true → s.isUp 2 = true →
    fires (.envCopyDone n) s fun t =>
      t.hs[n] =
        { s.hs[n] with staging := s.curve.range s.hs[n].copy.base s.hs[n].copy.len, envLoaded := true, copy := { s.hs[n].copy with busy := false } }
        ∧
      onlyAt n s.hs t.hs ∧ onlyTouches [.hs] s t) ∧
  (∀ (s : State) (n : Fin 48), (s.hs[n].copy.busy = false ∨ s.isUp 2 = false) →
    fires (.envCopyDone n) s fun t =>
      t = s)

/-- The orphan timer expires (R84) and firmware reclaims the plant (R83, R87). -/
def Obligations.OrphanHoldExpiresAndIsReclaimed : Prop :=
  (∀ (s : State) (due : Nat), s.isUp 2 = true → s.hsc.orphanEnd = some due →
    fires (.orphanExpiry) s fun t =>
      t.hsc.expired = true ∧ t.hsc.orphanEnd = none ∧ t.inp.expiry = true ∧
      (∀ n : Fin 48, s.mapSel (tHs n) = false → s.hsUp n = true → s.hs[n].limp = false → hsOn t.hs[n].st = false ∧
        t.hs[n].st ≠ .pending) ∧
      (∀ n : Fin 48, s.mapSel (tHs n) = true → s.hsUp n = true → t.hs[n].limp = true) ∧
      (∀ i : Fin 16, t.adm.slots[i].en = false) ∧
      onlyTouches [.tmb, .fab, .hs, .hsc, .dig, .vg, .vd, .ls, .adm, .inp, .pwr, .ecc, .lc, .pmc, .dep, .nv, .free] s t) ∧
  (∀ (s : State) (c : Fin 4), canStore s 2 8 →
    fires (.orphanReclaim c) s fun t =>
      t.hsc.expired = false ∧ t.hsc.orphanEnd = none ∧ t.inp.expiry = false ∧
      onlyTouches [.fab, .answer, .hs, .hsc, .dig, .vg, .vd, .ls, .adm, .inp, .pmc, .free] s t) ∧
  (∀ (s : State), (s.hsc.orphanEnd = none ∨ s.isUp 2 = false) →
    fires (.orphanExpiry) s fun t =>
      t = s)

/-- A clamp begins (R103), ends (R104, R109) or is judged at 65,535 us (R105). -/
def Obligations.ClampsAreMeasuredAndJudged : Prop :=
  (∀ (s : State) (n : Fin 48) (vds : Nat),
    s.hsUp n = true → hsOn s.hs[n].st = false → s.hs[n].clamp = none → 63000 ≤ vds →
    fires (.clampBegin n vds) s fun t =>
      t.hs[n] =
        { s.hs[n] with clamp := some { i0 := s.hs[n].offI0, tj0 := s.hs[n].offTj, start := s.now, judged := false } }
        ∧
      onlyAt n s.hs t.hs ∧ onlyTouches [.hs, .dig] s t) ∧
  (∀ (s : State) (n : Fin 48) (vds : Nat), (hsOn s.hs[n].st = true ∨ vds < 63000) →
    fires (.clampBegin n vds) s fun t =>
      t = s) ∧
  (∀ (s : State) (n : Fin 48) (cycles : Nat) (k : Clamp),
    s.hsUp n = true → s.hs[n].clamp = some k → k.judged = false →
    fires (.clampEnd n cycles) s fun t =>
      t.hs[n].clamp = none ∧ t.hs[n].clT = (min 65535 (ceilDiv cycles 40)) ∧
      t.hs[n].clEtot = s.hs[n].clEtot + eEst k.i0 (min 65535 (ceilDiv cycles 40)) ∧
      t.hs[n].clPct = clampPct (eEst k.i0 (min 65535 (ceilDiv cycles 40))) (eLim n.val k.tj0) (decide (65535 * 40 <
        cycles)) ∧
      (¬ (eLim n.val k.tj0 < eEst k.i0 (min 65535 (ceilDiv cycles 40)) ∨ 65535 * 40 < cycles) → t.hs[n].st =
        s.hs[n].st ∧ t.hs[n].clOvl = s.hs[n].clOvl ∧ t.hs[n].fault = s.hs[n].fault) ∧
      (eLim n.val k.tj0 < eEst k.i0 (min 65535 (ceilDiv cycles 40)) ∨ 65535 * 40 < cycles → t.hs[n].fault =
        s.hs[n].fault ||| 0x10 ∧ t.hs[n].clOvl = satN 16 (s.hs[n].clOvl + 1) ∧ t.hs[n].st = (if s.hs[n].st = .disabled
        ∨ s.hs[n].st = .off ∨ s.hs[n].st = .uvWait ∨ s.hs[n].st = .retryWait then .latched else s.hs[n].st)) ∧
      onlyAt n s.hs t.hs ∧ onlyTouches [.tmb, .fab, .hs, .adm, .pwr, .ecc, .pmc, .dep, .nv, .free] s t) ∧
  (∀ (s : State) (n : Fin 48) (cycles : Nat) (k : Clamp), s.hsUp n = true → s.hs[n].clamp = some k → k.judged = true →
    fires (.clampEnd n cycles) s fun t =>
      t.hs[n] = { s.hs[n] with clamp := none } ∧ onlyAt n s.hs t.hs ∧
      onlyTouches [.tmb, .fab, .hs, .adm, .pwr, .ecc, .pmc, .dep, .nv, .free] s t) ∧
  (∀ (s : State) (n : Fin 48) (k : Clamp), s.hs[n].clamp = some k → k.judged = false →
    fires (.clampTimeout n) s fun t =>
      t.hs[n].clamp = some { k with judged := true } ∧ t.hs[n].clT = 65535 ∧ t.hs[n].clPct = 255 ∧
      bit t.hs[n].fault 4 = true ∧ t.hs[n].clOvl = satN 16 (s.hs[n].clOvl + 1) ∧ onlyAt n s.hs t.hs ∧
      onlyTouches [.tmb, .fab, .hs, .adm, .pwr, .ecc, .pmc, .dep, .nv, .free] s t) ∧
  (∀ (s : State) (n : Fin 48) (k : Clamp), s.hs[n].clamp = some k → k.judged = true →
    fires (.clampTimeout n) s fun t =>
      t = s) ∧
  (∀ (s : State) (n : Fin 48) (cycles : Nat), (s.hs[n].clamp = none ∨ s.hsUp n = false) →
    fires (.clampEnd n cycles) s fun t =>
      t = s)

/-! ## Digitisers, captures, estimators, curves -/

/-- A sample of a running digitiser is calibrated and published (R113 to R115, R122, R123); its millisecond mean goes
to ADM (R124), the pad voltage to its channel (R125); ZERO starts, is refused, and ends with TRIM (R120). -/
def Obligations.DigitisersPublishCalibratedSamples : Prop :=
  (∀ (s : State) (x : Fin 67) (raw tj : Int) (top : Nat), s.digRuns x.val = true → s.tmbRuns = true →
    fires (.digitiserSample x raw tj top) s fun t =>
      t.now = max s.now (s.dig[x].at_ + 20) ∧ t.dig[x].code = s.dig[x].cal raw tj ∧ t.dig[x].code ≤ 16383 ∧
      t.dig[x].i = (2 * t.dig[x].code * fsOf x.val + 16384) / 32768 ∧ t.dig[x].clip = decide (t.dig[x].code = 16383) ∧
      t.dig[x].peak = max s.dig[x].peak t.dig[x].i ∧ t.dig[x].sw = s.swOf x.val ∧ t.dig[x].at_ = t.now ∧
      t.dig[x].trim = s.dig[x].trim ∧ onlyAt x s.dig t.dig ∧
      onlyTouches [.tmb, .fab, .hs, .dig, .vg, .vd, .ls, .pwr, .ecc, .pmc, .dep, .nv, .free] s t) ∧
  (∀ (s : State) (x : Fin 67), s.digRuns x.val = true → s.tmbRuns = true → 0 < s.dig[x].msN →
    fires (.msMeanSend x) s fun t =>
      t.now = max s.now s.dig[x].msEnd ∧ t.dig[x].msEnd = nextMultiple 1000 t.now ∧
      t.dig[x].msMean = (s.dig[x].msSum : Rat) / s.dig[x].msN ∧ t.dig[x].msN = 0 ∧
      t.adm.inbox = s.adm.inbox ++ [.current x.val t.dig[x].msMean] ∧ onlyAt x s.dig t.dig ∧
      onlyTouches [.tmb, .fab, .dig, .adm, .pwr, .ecc, .pmc, .dep, .nv, .free] s t) ∧
  (∀ (s : State) (n : Fin 48) (mv : Int), s.digRuns n.val = true → s.tmbRuns = true →
    fires (.padVoltageSample n mv) s fun t =>
      t.now = s.hs[n].est.padDue s.now ∧ t.hs[n].est.padAt = some t.now ∧
      t.hs[n].est.vCode = (clampI 0 1023 (roundQ ((mv : Rat) * 2 / 125))).toNat ∧
      (s.hs[n].est.search = false → t.hs[n].est.vN = s.hs[n].est.vN + 1 ∧ t.hs[n].est.vSum = s.hs[n].est.vSum +
        t.hs[n].est.vCode) ∧
      t.hs[n].st = s.hs[n].st ∧ onlyAt n s.hs t.hs ∧
      onlyTouches [.tmb, .fab, .hs, .pwr, .ecc, .pmc, .dep, .nv, .free] s t) ∧
  (∀ (s : State) (c : Fin 4) (x : Fin 67),
    canStore s (islOf x.val) 9 → s.digRuns x.val = true → s.zeroOk x.val = true → s.dig[x].zeroBusy = false →
    fires (.measZero c x) s fun t =>
      t.dig[x].zeroBusy = true ∧ t.dig[x].zeroFail = false ∧ t.dig[x].zeroN = 0 ∧ t.dig[x].cmdRes = 0 ∧
      t.dig[x].trim = s.dig[x].trim ∧ t.answer = .done ∧ onlyAt x s.dig t.dig ∧
      onlyTouches [.fab, .answer, .dig, .pmc, .free] s t) ∧
  (∀ (s : State) (c : Fin 4) (x : Fin 67),
    canStore s (islOf x.val) 9 → (s.zeroOk x.val = false ∨ s.dig[x].zeroBusy = true ∨ s.digRuns x.val = false) →
    fires (.measZero c x) s fun t =>
      t.dig[x] = { s.dig[x] with cmdRes := 2 } ∧ t.answer = .done ∧ onlyAt x s.dig t.dig ∧
      onlyTouches [.fab, .answer, .dig, .pmc, .free] s t) ∧
  (∀ (s : State) (x : Fin 67), s.dig[x].zeroBusy = true → 256 ≤ s.dig[x].zeroN →
    fires (.zeroDone x) s fun t =>
      t.dig[x].zeroBusy = false ∧ t.dig[x].trim = clampI (-8192) 8191 (-(roundQ (s.dig[x].zeroSum / 256))) ∧
      onlyAt x s.dig t.dig ∧ onlyTouches [.fab, .dig] s t) ∧
  (∀ (s : State) (x : Fin 67), (s.dig[x].zeroBusy = false ∨ s.dig[x].zeroN < 256) →
    fires (.zeroDone x) s fun t =>
      t = s) ∧
  (∀ (s : State) (x : Fin 67) (raw tj : Int) (top : Nat), s.digRuns x.val = false →
    fires (.digitiserSample x raw tj top) s fun t =>
      t = s) ∧
  (∀ (s : State) (x : Fin 67), (s.digRuns x.val = false ∨ s.dig[x].msN = 0) →
    fires (.msMeanSend x) s fun t =>
      t.dig = s.dig ∧ t.adm = s.adm ∧ onlyTouches [.tmb, .fab, .dig, .adm, .pwr, .ecc, .pmc, .dep, .nv, .free] s t) ∧
  (∀ (s : State) (n : Fin 48) (mv : Int), s.digRuns n.val = false →
    fires (.padVoltageSample n mv) s fun t =>
      t.hs = s.hs ∧ onlyTouches [.tmb, .fab, .hs, .pwr, .ecc, .pmc, .dep, .nv, .free] s t)

/-- Snap and global trigger (R126, R127), arming (R128), trigger (R129), bursts (R131) and DISARM (R133) of a capture.
That a refused ARM takes ARMED and DONE to IDLE is the model's choice (log entry 43). -/
def Obligations.SnapsLatchAndCapturesRecord : Prop :=
  (∀ (s : State) (c : Fin 4), canStore s 2 9 →
    fires (.snap c) s fun t =>
      t.meas.snapTime = s.now + s.meas.delay ∧
      (∀ x : Fin 67, t.dig[x] = (if s.digRuns x.val then
        { s.dig[x] with snapReq := some (s.now + s.meas.delay, true, false) } else s.dig[x])) ∧
      t.answer = .done ∧ onlyTouches [.fab, .answer, .dig, .meas, .pmc, .free] s t) ∧
  (∀ (s : State) (c : Fin 4) (also : Bool), canStore s 2 9 →
    fires (.gtrig c also) s fun t =>
      t.meas.snapTime = s.now + s.meas.delay ∧
      (∀ x : Fin 67, t.dig[x] = (if s.digRuns x.val then
        { s.dig[x] with snapReq := some (s.now + s.meas.delay, also, true) } else s.dig[x])) ∧
      t.answer = .done ∧ onlyTouches [.fab, .answer, .dig, .meas, .pmc, .free] s t) ∧
  (∀ (s : State) (x : Fin 67) (late : Bool) (ts : Nat) (snap gtrig : Bool),
    s.digRuns x.val = true → s.tmbRuns = true → s.dig[x].snapReq = some (ts, snap, gtrig) →
    fires (.snapLatch x late) s fun t =>
      t.now = max s.now ts ∧ t.dig[x].snapReq = none ∧
      (snap = true → t.dig[x].snap = roundDiv (s.dig[x].last.foldl (· + ·) 0) s.dig[x].last.length ∧ t.dig[x].snapLate
        = late) ∧
      (snap = false → t.dig[x].snap = s.dig[x].snap) ∧
      (gtrig = true → s.isStopped 9 = false → s.dig[x].cap.st = .armed → s.dig[x].cap.trg = 6 → t.dig[x].cap.trig =
        true) ∧
      onlyAt x s.dig t.dig ∧ onlyTouches [.tmb, .fab, .dig, .pwr, .ecc, .pmc, .dep, .nv, .free] s t) ∧
  (∀ (s : State) (c : Fin 4) (x : Fin 67),
    canStore s (islOf x.val) 9 → s.dig[x].cap.st ≠ .running → fld s.dig[x].cap.len 16 8 < fld s.dig[x].cap.len 0 16 →
    fld s.dig[x].cap.addr 0 24 % 32 = 0 → fld s.dig[x].cap.addr 0 24 + 2 * fld s.dig[x].cap.len 0 16 ≤ 0x1000000 →
    fires (.captureArm c x) s fun t =>
      t.dig[x].cap.st = .armed ∧ t.dig[x].cap.aCfg = s.dig[x].cap.cfg ∧ t.dig[x].cap.aAddr = s.dig[x].cap.addr ∧
      t.dig[x].cap.aLen = s.dig[x].cap.len ∧ t.dig[x].cap.count = 0 ∧ t.dig[x].cap.trig = false ∧
      t.dig[x].cmdRes = 0 ∧ t.dig[x].trim = s.dig[x].trim ∧ onlyAt x s.dig t.dig ∧
      onlyTouches [.fab, .answer, .dig, .pmc, .free] s t) ∧
  (∀ (s : State) (c : Fin 4) (x : Fin 67),
    canStore s (islOf x.val) 9 → s.dig[x].cap.st ≠ .running →
    (fld s.dig[x].cap.len 0 16 ≤ fld s.dig[x].cap.len 16 8 ∨ fld s.dig[x].cap.addr 0 24 % 32 ≠ 0 ∨ 0x1000000 < fld
      s.dig[x].cap.addr 0 24 + 2 * fld s.dig[x].cap.len 0 16) →
    fires (.captureArm c x) s fun t =>
      t.dig[x].cap.st = .idle ∧ t.dig[x].cmdRes = 3 ∧ onlyAt x s.dig t.dig ∧
      onlyTouches [.fab, .answer, .dig, .pmc, .free] s t) ∧
  (∀ (s : State) (c : Fin 4) (x : Fin 67), canStore s (islOf x.val) 9 → s.dig[x].cap.st = .running →
    fires (.captureArm c x) s fun t =>
      t.dig[x] = { s.dig[x] with cmdRes := 2 } ∧ onlyAt x s.dig t.dig ∧
      onlyTouches [.fab, .answer, .dig, .pmc, .free] s t) ∧
  (∀ (s : State) (c : Fin 4) (x : Fin 67), canStore s (islOf x.val) 9 → s.dig[x].cap.st ≠ .running →
    fires (.captureDisarm c x) s fun t =>
      (t.dig[x].cap.st = (if s.dig[x].cap.st = .armed then .idle else s.dig[x].cap.st)) ∧ t.dig[x].cmdRes = 0 ∧
      t.mem = s.mem ∧ onlyAt x s.dig t.dig ∧
      onlyTouches [.fab, .answer, .dig, .pwr, .sys, .mem, .ecc, .pmc, .free] s t) ∧
  (∀ (s : State) (c : Fin 4) (x : Fin 67), canStore s (islOf x.val) 9 → s.dig[x].cap.st = .running →
    fires (.captureDisarm c x) s fun t =>
      t.dig[x].cap.st = .done ∧ t.dig[x].cap.abort = true ∧ t.dig[x].cap.buf = [] ∧
      (s.bulkOk = true → t.dig[x].cap.count = s.dig[x].cap.count + min 256 s.dig[x].cap.buf.length) ∧
      onlyAt x s.dig t.dig ∧ onlyTouches [.fab, .answer, .dig, .pwr, .sys, .mem, .ecc, .pmc, .free] s t) ∧
  (∀ (s : State) (c : Fin 4) (x : Fin 67), canStore s (islOf x.val) 9 →
    fires (.captureTrig c x) s fun t =>
      t.dig[x] =
        { s.dig[x] with cmdRes := 0, cap := { s.dig[x].cap with trig := decide (s.dig[x].cap.st = .armed) || s.dig[x].cap.trig } }
        ∧
      onlyAt x s.dig t.dig ∧ onlyTouches [.fab, .answer, .dig, .pmc, .free] s t) ∧
  (∀ (s : State) (x : Fin 67),
    s.canonical → s.bulkOk = true → s.dig[x].cap.st = .running → 16 ≤ s.dig[x].cap.buf.length →
    fires (.captureBurstWrite x) s fun t =>
      (∀ j : Fin 16, memLoad t.mem (bulkBase + fld s.dig[x].cap.aAddr 0 24 + 2 * (s.dig[x].cap.count + j.val)) 2 =
        (s.dig[x].cap.buf.getD j.val 0).toNat) ∧
      (∀ a, a < bulkBase + fld s.dig[x].cap.aAddr 0 24 + 2 * s.dig[x].cap.count ∨ bulkBase + fld s.dig[x].cap.aAddr 0
        24 + 2 * s.dig[x].cap.count + 32 ≤ a → memGet t.mem a = memGet s.mem a) ∧
      t.dig[x].cap.count = s.dig[x].cap.count + 16 ∧ t.dig[x].cap.buf = s.dig[x].cap.buf.drop 16 ∧
      (t.dig[x].cap.st = (if s.dig[x].cap.lenN ≤ s.dig[x].cap.count + 16 then .done else .running)) ∧
      onlyAt x s.dig t.dig ∧ onlyTouches [.fab, .dig, .pwr, .sys, .mem, .ecc, .pmc, .free] s t) ∧
  (∀ (s : State) (x : Fin 67) (late : Bool), s.dig[x].snapReq = none →
    fires (.snapLatch x late) s fun t =>
      t = s) ∧
  (∀ (s : State) (x : Fin 67),
    (s.bulkOk = false ∨ s.dig[x].cap.st ≠ .running ∨ (s.dig[x].cap.buf.length < 16 ∧ (s.dig[x].cap.taken <
      s.dig[x].cap.lenN ∨ s.dig[x].cap.buf = []))) →
    fires (.captureBurstWrite x) s fun t =>
      t = s)

/-- The estimators of a channel (R137 to R144) and stores to the curve store (R150, R151). -/
def Obligations.EstimatorsFollowTheLoad : Prop :=
  (∀ (s : State) (n : Fin 48), s.hs[n].est.search = true → s.digRuns n.val = true → s.tmbRuns = true →
    fires (.settleTimeout n) s fun t =>
      t.now = max s.now (s.hs[n].est.start + 65535000) ∧ t.hs[n].est.search = false ∧ t.hs[n].est.unsettled = true ∧
      t.hs[n].est.valid = s.hs[n].est.valid ∧ t.hs[n].st = s.hs[n].st ∧ onlyAt n s.hs t.hs ∧
      onlyTouches [.tmb, .fab, .hs, .pwr, .ecc, .pmc, .dep, .nv, .free] s t) ∧
  (∀ (s : State) (n : Fin 48),
    s.hs[n].est.steady = true → s.digRuns n.val = true → hsOn s.hs[n].st = true → s.tmbRuns = true →
    fires (.steadyPeriodClose n) s fun t =>
      t.now = max s.now (s.hs[n].est.perAt + 1024000) ∧
      t.hs[n].est.iSteady = roundDiv s.hs[n].est.perSum s.hs[n].est.perN ∧
      t.hs[n].est.vMean = padMv s.hs[n].est.vSum s.hs[n].est.vN ∧
      t.hs[n].est.rValid = (decide (fsOf n.val ≤ 50 * t.hs[n].est.iSteady) && decide (0 < t.hs[n].est.iSteady)) ∧
      (t.hs[n].est.rValid = true → t.hs[n].est.rLoad = satN 32 (roundDiv (t.hs[n].est.vMean * 1000)
        t.hs[n].est.iSteady)) ∧
      (t.hs[n].est.rValid = false → t.hs[n].est.rLoad = s.hs[n].est.rLoad) ∧
      t.hs[n].est.perAt = s.hs[n].est.perAt + 1024000 ∧ t.hs[n].est.perN = 0 ∧
      t.hs[n].est.iRef = t.hs[n].est.iSteady ∧ onlyAt n s.hs t.hs ∧
      onlyTouches [.tmb, .fab, .hs, .pwr, .ecc, .pmc, .dep, .nv, .free] s t) ∧
  (∀ (s : State) (n : Fin 48), s.isUp (islHs n.val) = true → s.tmbRuns = true →
    fires (.trendUpdate n) s fun t =>
      t.now = max s.now (s.hs[n].est.hourAt + 3600000000) ∧ t.hs[n].est.hours = satN 16 (s.hs[n].est.hours + 1) ∧
      t.hs[n].est.hourAt = s.hs[n].est.hourAt + 3600000000 ∧
      (bit s.hs[n].est.trCfg 16 = true → 0 < s.hs[n].est.tI.n → s.hs[n].est.tI.valid = false → t.hs[n].est.tI.short =
        s.hs[n].est.tI.sum * 256 / s.hs[n].est.tI.n ∧ t.hs[n].est.tI.long = s.hs[n].est.tI.sum * 256 /
        s.hs[n].est.tI.n ∧ t.hs[n].est.tI.valid = true ∧ t.hs[n].est.tI.dev = 0) ∧
      (bit s.hs[n].est.trCfg 17 = true → 0 < s.hs[n].est.tR.n → t.hs[n].est.tR = s.hs[n].est.tR.hour (fld
        s.hs[n].est.trCfg 0 3) (fld s.hs[n].est.trCfg 4 4)) ∧
      (bit s.hs[n].est.trCfg 18 = true → bit s.dig[tHs n].ctl 4 = true → 0 < s.hs[n].est.tF.n → t.hs[n].est.tF =
        s.hs[n].est.tF.hour (fld s.hs[n].est.trCfg 0 3) (fld s.hs[n].est.trCfg 4 4)) ∧
      (bit s.hs[n].est.trCfg 16 = false → t.hs[n].est.tI = { s.hs[n].est.tI with n := 0, sum := 0 }) ∧
      onlyAt n s.hs t.hs ∧ onlyTouches [.tmb, .fab, .hs, .pwr, .ecc, .pmc, .dep, .nv, .free] s t) ∧
  (∀ (s : State) (c : Fin 4) (n : Fin 48), canStore s (islHs n.val) 8 →
    fires (.trReset c n) s fun t =>
      t.hs[n].est.hours = 0 ∧
      t.hs[n].est.tI.valid = false ∧ t.hs[n].est.tI.short = 0 ∧ t.hs[n].est.tI.long = 0 ∧ t.hs[n].est.tI.dev = 0 ∧
      t.hs[n].est.tR.valid = false ∧ t.hs[n].est.tR.short = 0 ∧ t.hs[n].est.tR.long = 0 ∧ t.hs[n].est.tR.dev = 0 ∧
      t.hs[n].est.tF.valid = false ∧ t.hs[n].est.tF.short = 0 ∧ t.hs[n].est.tF.long = 0 ∧ t.hs[n].est.tF.dev = 0 ∧
      t.hs[n].st = s.hs[n].st ∧ onlyAt n s.hs t.hs ∧ onlyTouches [.fab, .answer, .hs, .pmc, .free] s t) ∧
  (∀ (s : State) (c : Fin 4) (n : Fin 48) (v : W16), canStore s (islHs n.val) 8 →
    fires (.trendLongWrite c n 0 v) s fun t =>
      t.hs[n].est.tI = { s.hs[n].est.tI with long := v.toNat * 256, valid := true } ∧
      t.hs[n].est.tR = s.hs[n].est.tR ∧ t.hs[n].est.tF = s.hs[n].est.tF ∧ onlyAt n s.hs t.hs ∧
      onlyTouches [.fab, .answer, .hs, .pmc, .free] s t) ∧
  (∀ (s : State) (c : Fin 4) (n : Fin 48) (v : W16), canStore s (islHs n.val) 8 →
    fires (.trendLongWrite c n 1 v) s fun t =>
      t.hs[n].est.tR = { s.hs[n].est.tR with long := v.toNat * 256, valid := true } ∧
      t.hs[n].est.tI = s.hs[n].est.tI ∧ t.hs[n].est.tF = s.hs[n].est.tF ∧ onlyAt n s.hs t.hs ∧
      onlyTouches [.fab, .answer, .hs, .pmc, .free] s t) ∧
  (∀ (s : State) (c : Fin 4) (n : Fin 48) (v : W16), canStore s (islHs n.val) 8 →
    fires (.trendLongWrite c n 2 v) s fun t =>
      t.hs[n].est.tF = { s.hs[n].est.tF with long := v.toNat * 256, valid := true } ∧
      t.hs[n].est.tI = s.hs[n].est.tI ∧ t.hs[n].est.tR = s.hs[n].est.tR ∧ onlyAt n s.hs t.hs ∧
      onlyTouches [.fab, .answer, .hs, .pmc, .free] s t) ∧
  (∀ (s : State) (c : Fin 4) (i : Fin 4096) (v : W32),
    s.canonical → s.coreRuns = true → s.isUp 2 = true → bit s.curve.lock (i.val / 256) = false →
    fires (.curveEntryWrite c i v) s fun t =>
      t.curve.get i.val = v ∧ (∀ j, j ≠ i.val → t.curve.get j = s.curve.get j) ∧ t.curve.lockViol = s.curve.lockViol ∧
      t.curve.lock = s.curve.lock ∧ onlyTouches [.fab, .answer, .curve, .pmc, .free] s t) ∧
  (∀ (s : State) (c : Fin 4) (i : Fin 4096) (v : W32),
    s.coreRuns = true → s.isUp 2 = true → bit s.curve.lock (i.val / 256) = true →
    fires (.curveEntryWrite c i v) s fun t =>
      t.curve = { s.curve with lockViol := true, violIdx := i.val } ∧
      onlyTouches [.fab, .answer, .curve, .pmc, .free] s t) ∧
  (∀ (s : State) (n : Fin 48), (s.hs[n].est.search = false ∨ s.digRuns n.val = false) →
    fires (.settleTimeout n) s fun t =>
      t = s) ∧
  (∀ (s : State) (n : Fin 48), (s.hs[n].est.steady = false ∨ s.digRuns n.val = false ∨ hsOn s.hs[n].st = false) →
    fires (.steadyPeriodClose n) s fun t =>
      t = s) ∧
  (∀ (s : State) (n : Fin 48), s.isUp (islHs n.val) = false →
    fires (.trendUpdate n) s fun t =>
      t = s)

/-! ## Admission and heaters -/

/-- Stores to REQ, CANCEL and RELEASE wait for the next tick (R159), whose answer follows from the target, its owner,
and the entry it finds (R158 to R166). -/
def Obligations.AdmTakesInputsAndAnswersThem : Prop :=
  (∀ (s : State) (c : Fin 4) (x : BitVec 11) (prio : BitVec 3) (dl : W16), s.coreRuns = true → s.isUp 2 = true →
    fires (.admReq c x prio dl) s fun t =>
      t.adm.inbox = s.adm.inbox ++ [.req c (s.adm.resSeq[c] + 1) x.toNat prio.toNat dl.toNat] ∧
      t.adm.resSeq[c] = s.adm.resSeq[c] + 1 ∧ t.adm.resDone[c] = false ∧ onlyAt c s.adm.resDone t.adm.resDone ∧
      t.adm.queue = s.adm.queue ∧ t.answer = .done ∧ onlyTouches [.fab, .answer, .adm, .pmc, .free] s t) ∧
  (∀ (s : State) (c : Fin 4) (x : BitVec 11), s.coreRuns = true → s.isUp 2 = true →
    fires (.admCancel c x) s fun t =>
      t.adm.inbox = s.adm.inbox ++ [.cancel c (s.adm.resSeq[c] + 1) x.toNat] ∧ t.adm.resSeq[c] = s.adm.resSeq[c] + 1 ∧
      t.adm.resDone[c] = false ∧ onlyAt c s.adm.resDone t.adm.resDone ∧ t.adm.queue = s.adm.queue ∧ t.answer = .done ∧
      onlyTouches [.fab, .answer, .adm, .pmc, .free] s t) ∧
  (∀ (s : State) (c : Fin 4) (x : BitVec 10), s.coreRuns = true → s.isUp 2 = true →
    fires (.admRelease c x) s fun t =>
      t.adm.inbox = s.adm.inbox ++ [.relExt c (s.adm.resSeq[c] + 1) x.toNat] ∧ t.adm.resSeq[c] = s.adm.resSeq[c] + 1 ∧
      t.adm.resDone[c] = false ∧ onlyAt c s.adm.resDone t.adm.resDone ∧ t.adm.queue = s.adm.queue ∧ t.answer = .done ∧
      onlyTouches [.fab, .answer, .adm, .pmc, .free] s t) ∧
  (∀ (s : State) (c : Fin 4) (k x prio dl : Nat),
    s.isUp 2 = true → s.tmbRuns = true → s.adm.stopped = false → s.adm.resSeq[c] = k →
    s.adm.inbox = [.req c k x prio dl] →
    fires (.admTick 0) s fun t =>
      t.adm.resDone[c] = true ∧ t.adm.inbox = [] ∧
      (t.adm.resCode[c] = (if fwTarget x = false then 3 else if x < 48 ∧ (s.adm.ownerOf x).isSome then 4 else if
        (s.adm.entry x).isSome then 1 else if 256 ≤ x ∧ 189 ≤ (s.adm.queue.filter fun e => 256 ≤ e.target).length then
        2 else 0)) ∧
      onlyTouches [.tmb, .fab, .curve, .adm, .pwr, .ecc, .pmc, .dep, .nv, .free] s t) ∧
  (∀ (s : State) (c : Fin 4) (k x : Nat),
    s.isUp 2 = true → s.tmbRuns = true → s.adm.stopped = false → s.adm.resSeq[c] = k → s.adm.inbox = [.cancel c k x] →
    fires (.admTick 0) s fun t =>
      t.adm.resDone[c] = true ∧
      (t.adm.resCode[c] = (if fwTarget x = false then 3 else if s.adm.isGranted x then 5 else if s.adm.isWaiting x
        then 7 else 6)) ∧
      (t.adm.resCode[c] = 7 → (∀ i : Fin 16, s.adm.slots[i].en = false) → t.adm.entry x = none ∧ (x ≤ 66 → (x,
        ToTgt.drop) ∈ t.adm.toTgt)) ∧
      onlyTouches [.tmb, .fab, .curve, .adm, .pwr, .ecc, .pmc, .dep, .nv, .free] s t) ∧
  (∀ (s : State) (c : Fin 4) (k x : Nat),
    s.isUp 2 = true → s.tmbRuns = true → s.adm.stopped = false → s.adm.resSeq[c] ≠ k → s.adm.inbox = [.cancel c k x] →
    fires (.admTick 0) s fun t =>
      t.adm.resDone = s.adm.resDone ∧ t.adm.resCode = s.adm.resCode ∧ t.adm.inbox = [] ∧
      onlyTouches [.tmb, .fab, .curve, .adm, .pwr, .ecc, .pmc, .dep, .nv, .free] s t) ∧
  (∀ (s : State) (c : Fin 4) (k : Nat) (x : Fin 1024),
    s.isUp 2 = true → s.tmbRuns = true → s.adm.stopped = false → s.adm.resSeq[c] = k →
    s.adm.inbox = [.relExt c k x.val] →
    fires (.admTick 0) s fun t =>
      t.adm.resDone[c] = true ∧ (t.adm.resCode[c] = (if s.adm.extHeld[x] then 7 else 6)) ∧
      (s.adm.extHeld[x] = true → t.adm.entry (256 + x.val) = none ∧ t.adm.extHeld[x] = false) ∧
      onlyTouches [.tmb, .fab, .curve, .adm, .pwr, .ecc, .pmc, .dep, .nv, .free] s t) ∧
  (∀ (s : State) (v0 v1 v2 v3 : Nat) (tbp : Int),
    s.isUp 2 = true → v0 ≤ 65000 ∧ v1 ≤ 65000 ∧ v2 ≤ 65000 ∧ v3 ≤ 65000 →
    fires (.sensorCopy v0 v1 v2 v3 tbp) s fun t =>
      t.adm.inbox = s.adm.inbox ++ [.banks #v[v0, v1, v2, v3], .tbp tbp] ∧ t.adm.queue = s.adm.queue ∧
      onlyTouches [.adm] s t) ∧
  (∀ (s : State) (v0 v1 v2 v3 : Nat) (tbp : Int),
    v0 ≤ 65000 ∧ v1 ≤ 65000 ∧ v2 ≤ 65000 ∧ v3 ≤ 65000 → s.isUp 2 = false →
    fires (.sensorCopy v0 v1 v2 v3 tbp) s fun t =>
      t = s) ∧
  (∀ (s : State) (v0 v1 v2 v3 : Nat) (tbp : Int), (65000 < v0 ∨ 65000 < v1 ∨ 65000 < v2 ∨ 65000 < v3) →
      exec (.sensorCopy v0 v1 v2 v3 tbp) s = .fault .beyondRatings)

/-- Ticks (R177): grants within GPT (R179), the thermal model (R173), bins (R169), deadlines (R164), stale limits and
sensors (R171, R172), a stopped ADM (R666). -/
def Obligations.AdmTicksGrantWithinTheLimits : Prop :=
  (∀ (s : State) (late : Nat), s.isUp 2 = true → s.tmbRuns = true → s.adm.stopped = false →
    fires (.admTick late) s fun t =>
      t.now = max s.now (s.adm.tickAt + 10) ∧ t.adm.tickAt = t.now ∧ t.adm.ticked = true ∧
      ((t.adm.toTgt.filter fun m => m.2 = .grant).length ≤ (s.adm.toTgt.filter fun m => m.2 = .grant).length +
        s.adm.gpt) ∧
      (bit s.adm.ctl 0 = true → (t.adm.toTgt.filter fun m => m.2 = .grant).length = (s.adm.toTgt.filter fun m => m.2 =
        .grant).length) ∧
      (s.adm.inbox = [] → s.adm.ticked = true → t.adm.deltaT = s.adm.deltaT + (s.adm.pSum s.adm.kT * s.adm.rTh -
        s.adm.deltaT) * (1 / 100000) / s.adm.tau + s.adm.eClamp * s.adm.rTh / s.adm.tau) ∧
      t.adm.eClamp = 0 ∧ onlyTouches [.tmb, .fab, .curve, .adm, .pwr, .ecc, .pmc, .dep, .nv, .free] s t) ∧
  (∀ (s : State) (late : Nat), s.isUp 2 = true → s.tmbRuns = true → s.adm.stopped = true →
    fires (.admTick late) s fun t =>
      t.now = max s.now (s.adm.tickAt + 10) ∧ t.adm.tickAt = t.now ∧ t.adm.queue = s.adm.queue ∧
      t.adm.inbox = s.adm.inbox ∧ t.adm.toTgt = s.adm.toTgt ∧ t.adm.ticked = true ∧
      onlyTouches [.tmb, .fab, .curve, .adm, .pwr, .ecc, .pmc, .dep, .nv, .free] s t) ∧
  (∀ (s : State), s.isUp 2 = true → s.tmbRuns = true → s.adm.stopped = false → s.adm.ticked = true →
    fires (.binRetire) s fun t =>
      t.now = max s.now (max (s.adm.binAt + s.adm.binLen * 1000) (s.adm.tickAt + 10)) ∧ t.adm.binAt = t.now ∧
      t.adm.binLen = s.adm.binMs ∧ t.adm.bins.tail = s.adm.bins.take 63 ∧
      onlyTouches [.tmb, .fab, .curve, .adm, .pwr, .ecc, .pmc, .dep, .nv, .free] s t) ∧
  (∀ (s : State) (d : Nat),
    s.isUp 2 = true → s.tmbRuns = true → s.adm.stopped = false → s.adm.deadlines.min? = some d →
    fires (.deadlineExpiry) s fun t =>
      t.now = max s.now (max (d + 1) (s.adm.tickAt + 10)) ∧
      (∀ e ∈ t.adm.queue, e.granted = false → e.deadline.any (fun d => decide (d < t.now)) = false) ∧
      (s.adm.inbox = [] → (∀ i : Fin 16, s.adm.slots[i].en = false) → ∀ e ∈ s.adm.queue, e.granted = false →
        e.deadline.any (fun d => decide (d < t.now)) = true → t.adm.entry e.target = none ∧ (e.target ≤ 66 →
        (e.target, ToTgt.drop) ∈ t.adm.toTgt)) ∧
      onlyTouches [.tmb, .fab, .curve, .adm, .pwr, .ecc, .pmc, .dep, .nv, .free] s t) ∧
  (∀ (s : State) (c : Fin 4) (v : W32), canStore s 2 10 →
    fires (.siteLimWrite c v) s fun t =>
      t.adm = { s.adm with siteLim := keep 0xFFFF v, siteAt := s.now, stale := false } ∧ t.answer = .done ∧
      onlyTouches [.fab, .answer, .adm, .pmc, .free] s t) ∧
  (∀ (s : State), s.isUp 2 = true → s.tmbRuns = true → s.adm.stopped = false → 0 < fld s.adm.siteCfg 16 8 →
    fires (.siteStale) s fun t =>
      t.now = max s.now (max (s.adm.siteAt + fld s.adm.siteCfg 16 8 * 1000000) (s.adm.tickAt + 10)) ∧
      t.adm.stale = true ∧ t.adm.siteLimN = fld s.adm.siteCfg 0 16 ∧ t.adm.siteLim = s.adm.siteLim ∧
      onlyTouches [.tmb, .fab, .curve, .adm, .pwr, .ecc, .pmc, .dep, .nv, .free] s t) ∧
  (∀ (s : State) (a b : Nat),
    s.isUp 2 = true → s.tmbRuns = true → s.adm.stopped = false → s.adm.vAt = some a → s.adm.tbpAt = some b →
    s.adm.inbox = [] →
    fires (.sensorStale) s fun t =>
      t.now = max s.now (max (min a b + 10001) (s.adm.tickAt + 10)) ∧ t.adm.sensorStale = true ∧
      (a ≤ b → t.adm.vBank = Vector.replicate 4 60000) ∧ (b ≤ a → t.adm.tbp = 85) ∧ t.adm.overB.testBit 10 = true ∧
      onlyTouches [.tmb, .fab, .curve, .adm, .pwr, .ecc, .pmc, .dep, .nv, .free] s t) ∧
  (∀ (s : State) (late : Nat), (s.isUp 2 = false ∨ s.tmbRuns = false) →
    fires (.admTick late) s fun t =>
      t = s) ∧
  (∀ (s : State), (s.isUp 2 = false ∨ s.tmbRuns = false) →
    fires (.binRetire) s fun t =>
      t = s) ∧
  (∀ (s : State), (s.isUp 2 = false ∨ s.tmbRuns = false ∨ s.adm.deadlines.min? = none) →
    fires (.deadlineExpiry) s fun t =>
      t = s) ∧
  (∀ (s : State), (s.isUp 2 = false ∨ s.tmbRuns = false ∨ fld s.adm.siteCfg 16 8 = 0) →
    fires (.siteStale) s fun t =>
      t = s) ∧
  (∀ (s : State), (s.isUp 2 = false ∨ s.tmbRuns = false) →
    fires (.sensorStale) s fun t =>
      t = s)

/-- Heater slots: a write of HT_CFG (R188), a period start and a window end (R185, R186). -/
def Obligations.HeaterSlotsFollowTheirPeriods : Prop :=
  (∀ (s : State) (c : Fin 4) (i : Fin 16) (v : W32), canStore s 2 10 → bit v 7 = true → s.adm.slots[i].en = false →
    fires (.heaterCfgWrite c i v) s fun t =>
      t.adm.slots[i] = { s.adm.slots[i] with cfg := keep 0x0F3F07BF v, arm := true, carry := 0 } ∧
      onlyAt i s.adm.slots t.adm.slots ∧ t.adm.queue = s.adm.queue ∧
      onlyTouches [.fab, .answer, .adm, .pmc, .free] s t) ∧
  (∀ (s : State) (c : Fin 4) (i : Fin 16) (v : W32), canStore s 2 10 → bit v 7 = false →
    fires (.heaterCfgWrite c i v) s fun t =>
      t.adm.slots[i].cfg = keep 0x0F3F07BF v ∧ t.adm.slots[i].run = false ∧ t.adm.slots[i].open_ = false ∧
      t.adm.slots[i].st = 0 ∧ t.adm.slots[i].carry = 0 ∧
      (s.adm.slots[i].en = true → s.adm.ownerOf s.adm.slots[i].ch = some i → t.adm.isWaiting s.adm.slots[i].ch =
        false) ∧
      onlyAt i s.adm.slots t.adm.slots ∧ onlyTouches [.fab, .answer, .adm, .pmc, .free] s t) ∧
  (∀ (s : State) (i : Fin 16),
    s.isUp 2 = true → s.tmbRuns = true → s.adm.stopped = false → s.adm.slots[i].en = true →
    s.adm.ownerOf s.adm.slots[i].ch = some i → s.adm.slots[i].run = true → s.adm.slots[i].arm = false →
    s.adm.inbox = [] →
    fires (.heaterPeriodStart i) s fun t =>
      t.now = max s.now (max s.adm.slots[i].next (s.adm.tickAt + 10)) ∧ t.now < t.adm.slots[i].next ∧
      t.adm.slots[i].next ≤ t.now + s.adm.slots[i].period * 1000000 ∧
      (t.adm.slots[i].next - s.adm.slots[i].next) % (s.adm.slots[i].period * 1000000) = 0 ∧
      (t.adm.slots[i].carry = (if min (s.adm.slots[i].dutyN * s.adm.slots[i].period + s.adm.slots[i].carry)
        (s.adm.slots[i].period * 1000) < s.adm.slots[i].minOn then min (s.adm.slots[i].dutyN * s.adm.slots[i].period +
        s.adm.slots[i].carry) (s.adm.slots[i].period * 1000) else 0)) ∧
      onlyTouches [.tmb, .fab, .curve, .adm, .pwr, .ecc, .pmc, .dep, .nv, .free] s t) ∧
  (∀ (s : State) (i : Fin 16),
    s.isUp 2 = true → s.tmbRuns = true → s.adm.stopped = false → s.adm.slots[i].en = true →
    s.adm.ownerOf s.adm.slots[i].ch = some i → s.adm.slots[i].run = true → s.adm.slots[i].arm = false →
    s.adm.inbox = [] → s.adm.slots[i].open_ = true → s.now ≤ s.adm.slots[i].tEnd →
    s.adm.tickAt + 10 ≤ s.adm.slots[i].tEnd → s.adm.slots[i].tEnd < s.adm.slots[i].next →
    fires (.heaterWindowEnd i) s fun t =>
      t.now = s.adm.slots[i].tEnd ∧ t.adm.slots[i].open_ = false ∧ t.adm.slots[i].st = 3 ∧
      t.adm.isWaiting s.adm.slots[i].ch = false ∧
      (s.adm.slots[i].since = none → t.adm.slots[i].lastDuty = min 1000 (roundDiv s.adm.slots[i].onUs
        (s.adm.slots[i].period * 1000))) ∧
      t.adm.slots[i].next = s.adm.slots[i].next ∧
      onlyTouches [.tmb, .fab, .curve, .adm, .pwr, .ecc, .pmc, .dep, .nv, .free] s t) ∧
  (∀ (s : State) (i : Fin 16), (s.isUp 2 = false ∨ s.tmbRuns = false) →
    fires (.heaterPeriodStart i) s fun t =>
      t = s) ∧
  (∀ (s : State) (i : Fin 16), (s.isUp 2 = false ∨ s.tmbRuns = false ∨ s.adm.slots[i].open_ = false) →
    fires (.heaterWindowEnd i) s fun t =>
      t = s)

/-! ## Valves -/

/-- Commands to a valve channel move it as the transition table of R220 says; no other channel changes. -/
def Obligations.ValveCommandsFollowTheTable : Prop :=
  (∀ (s : State) (c : Fin 4) (n : Fin 16) (w : W32) (same : Bool),
    canStore s (islVg (groupOf n).val) 7 → bit s.pwr.holdStat 2 = false →
    fires (.valveEnSet c n w same) s fun t =>
      t.vd[n].ctl = keep 0x173 (w ||| 1) ∧ t.vd[n].cmdRes = 0 ∧
      (t.vd[n].st = (if s.vd[n].st = .disabled then .idle else s.vd[n].st)) ∧ onlyAt n s.vd t.vd ∧ t.answer = .done ∧
      onlyTouches [.fab, .answer, .dig, .vg, .vd, .adm, .pmc, .free] s t) ∧
  (∀ (s : State) (c : Fin 4) (n : Fin 16) (w : W32) (same : Bool),
    canStore s (islVg (groupOf n).val) 7 → bit s.pwr.holdStat 2 = true →
    fires (.valveEnSet c n w same) s fun t =>
      t.vd[n] = { s.vd[n] with cmdRes := 2 } ∧ onlyAt n s.vd t.vd ∧
      onlyTouches [.fab, .answer, .dig, .vg, .vd, .adm, .pmc, .free] s t) ∧
  (∀ (s : State) (c : Fin 4) (n : Fin 16) (w : W32), canStore s (islVg (groupOf n).val) 7 → s.vd[n].limp = false →
    fires (.valveEnClear c n w false) s fun t =>
      t.vd[n].ctl = keep 0x173 (w &&& 0xFFFFFFFE) ∧ t.vd[n].cmdRes = 0 ∧
      (t.vd[n].st = (if s.vd[n].st = .decay ∨ s.vd[n].st = .latched then s.vd[n].st else if vdOn s.vd[n].st = true
        then .decay else .disabled)) ∧
      onlyAt n s.vd t.vd ∧ onlyTouches [.fab, .answer, .dig, .vg, .vd, .adm, .pmc, .free] s t) ∧
  (∀ (s : State) (c : Fin 4) (n : Fin 16) (w : W32) (same : Bool),
    canStore s (islVg (groupOf n).val) 7 → s.vd[n].limp = true →
    fires (.valveEnClear c n w same) s fun t =>
      t.vd[n] = { s.vd[n] with cmdRes := 2 } ∧ onlyAt n s.vd t.vd ∧
      onlyTouches [.fab, .answer, .dig, .vg, .vd, .adm, .pmc, .free] s t) ∧
  (∀ (s : State) (c : Fin 4) (n : Fin 16) (hold : W16),
    canStore s (islVg (groupOf n).val) 7 → s.vd[n].limp = false → s.vd[n].st = .idle → s.vdA n = true →
    s.groupLoad (groupOf n) n.val + s.vd[n].own ≤ s.vg[groupOf n].limLoad → s.vg[groupOf n].swOn = true →
    s.vg[groupOf n].ready = true → s.anyDefer (groupOf n) = false →
    fires (.valveOn c n hold false) s fun t =>
      t.vd[n].st = .pending ∧ t.vd[n].cmdRes = 0 ∧ t.vd[n].holdCmd = hold.toNat ∧ t.vd[n].claimHeld = true ∧
      t.adm.inbox = s.adm.inbox ++ [.own (48 + n.val) (fld s.vd[n].ctl 4 3) (ceilDiv s.vd[n].own 1000) s.vd[n].inrE
        (fld s.vd[n].deferCfg 16 16) .ordinary] ∧
      onlyAt n s.vd t.vd ∧ onlyTouches [.fab, .answer, .dig, .vg, .vd, .adm, .pmc, .free] s t) ∧
  (∀ (s : State) (c : Fin 4) (n : Fin 16) (hold : W16),
    canStore s (islVg (groupOf n).val) 7 → s.vd[n].limp = false → s.vd[n].st = .idle → s.vdA n = true →
    s.vd[n].own ≤ s.vg[groupOf n].limLoad →
    (s.vg[groupOf n].limLoad < s.groupLoad (groupOf n) n.val + s.vd[n].own ∨ s.vg[groupOf n].swOn = false ∨
      s.vg[groupOf n].ready = false ∨ s.anyDefer (groupOf n) = true) →
    0 < fld s.vd[n].deferCfg 0 16 →
    fires (.valveOn c n hold false) s fun t =>
      t.vd[n].st = .defer ∧ t.vd[n].cmdRes = 0 ∧ t.vd[n].deferAt = s.now ∧ t.vg[groupOf n].swOn = true ∧
      t.vg[groupOf n].cntDefer = satN 16 (s.vg[groupOf n].cntDefer + 1) ∧ t.adm.inbox = s.adm.inbox ∧
      onlyAt n s.vd t.vd ∧ onlyTouches [.fab, .answer, .dig, .vg, .vd, .adm, .pmc, .free] s t) ∧
  (∀ (s : State) (c : Fin 4) (n : Fin 16) (hold : W16),
    canStore s (islVg (groupOf n).val) 7 → s.vd[n].limp = false → s.vd[n].st = .idle → s.vdA n = true →
    s.vg[groupOf n].limLoad < s.vd[n].own →
    fires (.valveOn c n hold false) s fun t =>
      t.vd[n].st = .idle ∧ t.vd[n].cmdRes = 5 ∧ t.vg[groupOf n].cntBusy = satN 16 (s.vg[groupOf n].cntBusy + 1) ∧
      onlyAt n s.vd t.vd ∧ onlyTouches [.fab, .answer, .dig, .vg, .vd, .adm, .pmc, .free] s t) ∧
  (∀ (s : State) (c : Fin 4) (n : Fin 16) (hold : W16),
    canStore s (islVg (groupOf n).val) 7 → s.vd[n].limp = false →
    (s.vd[n].st = .disabled ∨ s.vd[n].st = .latched ∨ (s.vd[n].st = .idle ∧ s.vdA n = false)) →
    fires (.valveOn c n hold false) s fun t =>
      t.vd[n] = { s.vd[n] with cmdRes := 2 } ∧ onlyAt n s.vd t.vd ∧
      onlyTouches [.fab, .answer, .dig, .vg, .vd, .adm, .pmc, .free] s t) ∧
  (∀ (s : State) (c : Fin 4) (n : Fin 16) (hold : W16),
    canStore s (islVg (groupOf n).val) 7 → s.vd[n].limp = false → (s.vd[n].st = .defer ∨ s.vd[n].st = .pending) →
    fires (.valveOn c n hold false) s fun t =>
      t.vd[n] = { s.vd[n] with cmdRes := 4, holdCmd := hold.toNat } ∧ onlyAt n s.vd t.vd ∧
      onlyTouches [.fab, .answer, .dig, .vg, .vd, .adm, .pmc, .free] s t) ∧
  (∀ (s : State) (c : Fin 4) (n : Fin 16), canStore s (islVg (groupOf n).val) 7 → s.vd[n].limp = false →
    fires (.valveOff c n false false) s fun t =>
      (t.vd[n].st = (if s.vd[n].st = .defer ∨ s.vd[n].st = .pending ∨ s.vd[n].st = .gap then .idle else if vdOn
        s.vd[n].st = true then .decay else s.vd[n].st)) ∧
      (t.vd[n].cmdRes = (if s.vd[n].st = .latched then 2 else 0)) ∧
      (vdOn s.vd[n].st = true → t.vd[n].onUs = s.vd[n].onUs + (s.now - s.vd[n].onAt) ∧ t.vd[n].decayDone = false ∧
        t.vd[n].decayAt = s.now) ∧
      (s.vd[n].st = .pending → t.adm.inbox = s.adm.inbox ++ [.withdraw (48 + n.val)]) ∧ onlyAt n s.vd t.vd ∧
      onlyTouches [.fab, .answer, .dig, .vg, .vd, .adm, .pmc, .free] s t) ∧
  (∀ (s : State) (c : Fin 4) (n : Fin 16),
    canStore s (islVg (groupOf n).val) 7 → s.vd[n].limp = false → vdOn s.vd[n].st = true → s.vd[n].mark = .grantOn →
    s.vd[n].markAt = s.now →
    fires (.valveOff c n false true) s fun t =>
      t.vd[n] = { s.vd[n] with cmdRes := 1 } ∧ onlyAt n s.vd t.vd ∧
      onlyTouches [.fab, .answer, .dig, .vg, .vd, .adm, .pmc, .free] s t) ∧
  (∀ (s : State) (c : Fin 4) (n : Fin 16), canStore s (islVg (groupOf n).val) 7 → s.vd[n].limp = false →
    fires (.valveClear c n false) s fun t =>
      (t.vd[n] =
        { s.vd[n] with cmdRes := 0, st := (if s.vd[n].st = .latched then (if bit s.vd[n].ctl 0 then .idle else .disabled) else s.vd[n].st) })
        ∧
      onlyAt n s.vd t.vd ∧ onlyTouches [.fab, .answer, .dig, .vg, .vd, .adm, .pmc, .free] s t) ∧
  (∀ (s : State) (c : Fin 4) (n : Fin 16) (hold : W16) (multi : Bool),
    canStore s (islVg (groupOf n).val) 7 → (s.vd[n].limp = true ∨ multi = true) →
    fires (.valveOn c n hold multi) s fun t =>
      t.vd[n] = { s.vd[n] with cmdRes := 2 } ∧ onlyAt n s.vd t.vd ∧
      onlyTouches [.fab, .answer, .dig, .vg, .vd, .adm, .pmc, .free] s t) ∧
  (∀ (s : State) (c : Fin 4) (n : Fin 16) (multi same : Bool),
    canStore s (islVg (groupOf n).val) 7 → (s.vd[n].limp = true ∨ multi = true) →
    fires (.valveOff c n multi same) s fun t =>
      t.vd[n] = { s.vd[n] with cmdRes := 2 } ∧ onlyAt n s.vd t.vd ∧
      onlyTouches [.fab, .answer, .dig, .vg, .vd, .adm, .pmc, .free] s t) ∧
  (∀ (s : State) (c : Fin 4) (n : Fin 16) (multi : Bool),
    canStore s (islVg (groupOf n).val) 7 → (s.vd[n].limp = true ∨ multi = true) →
    fires (.valveClear c n multi) s fun t =>
      t.vd[n] = { s.vd[n] with cmdRes := 2 } ∧ onlyAt n s.vd t.vd ∧
      onlyTouches [.fab, .answer, .dig, .vg, .vd, .adm, .pmc, .free] s t) ∧
  (∀ (s : State) (c : Fin 4) (n : Fin 16) (w : W32),
    canStore s (islVg (groupOf n).val) 7 → (s.vd[n].st = .disabled ∨ s.vd[n].st = .idle ∨ s.vd[n].st = .latched) →
    fld w 0 12 ≤ 4092 →
    fires (.valveProfWrite c n w) s fun t =>
      t.vd[n] =
        { s.vd[n] with prof := keep 0xFFF w, profLoaded := false, cmdRes := 0, copy := { busy := true, base := fld w 0 12, len := 4 } }
        ∧
      onlyAt n s.vd t.vd ∧ onlyTouches [.fab, .answer, .vd, .pmc, .free] s t) ∧
  (∀ (s : State) (c : Fin 4) (n : Fin 16) (w : W32),
    canStore s (islVg (groupOf n).val) 7 →
    (vdActive s.vd[n].st = true ∨ s.vd[n].st = .decay ∨ s.vd[n].st = .gap ∨ 4092 < fld w 0 12) →
    fires (.valveProfWrite c n w) s fun t =>
      t.vd[n] = { s.vd[n] with cmdRes := 3 } ∧ onlyAt n s.vd t.vd ∧ onlyTouches [.fab, .answer, .vd, .pmc, .free] s t) ∧
  (∀ (s : State) (n : Fin 16), s.vd[n].copy.busy = true → s.isUp 2 = true →
    fires (.profileCopyDone n) s fun t =>
      t.vd[n] =
        { s.vd[n] with entries := s.curve.range s.vd[n].copy.base 4, profLoaded := true, copy := { s.vd[n].copy with busy := false } }
        ∧
      onlyAt n s.vd t.vd ∧ onlyTouches [.vd] s t) ∧
  (∀ (s : State) (n : Fin 16), (s.vd[n].copy.busy = false ∨ s.isUp 2 = false) →
    fires (.profileCopyDone n) s fun t =>
      t = s)

/-- An actuation from ADM's messages (R163) over peak (R207 to R210, with the comparator), claim release (R218), decay
(R202), gap and deferral (R215, R216) to its end. -/
def Obligations.ValveActuationsRunTheirCourse : Prop :=
  (∀ (s : State) (n : Fin 16) (r : List (Nat × ToTgt)),
    takeMsg (48 + n.val) .entry s.adm.toTgt = some r → s.isUp (islOf (48 + n.val)) = true →
    fires (.valveQueueMessage n) s fun t =>
      (t.adm.inbox = s.adm.inbox ++ [if s.vd[n].st = .pending then .confirm (48 + n.val) else .refuse (48 + n.val)
        s.vd[n].st.code]) ∧
      t.adm.toTgt = r ∧ t.vd = s.vd ∧ onlyTouches [.adm] s t) ∧
  (∀ (s : State) (n : Fin 16) (r : List (Nat × ToTgt)),
    takeMsg (48 + n.val) .grant s.adm.toTgt = some r → s.isUp (islOf (48 + n.val)) = true → s.vd[n].st = .pending →
    fires (.valveGrant n) s fun t =>
      (t.vd[n].st = (if s.vd[n].mode1 = true then .prop else .peak)) ∧ t.vd[n].ops = satN 64 (s.vd[n].ops + 1) ∧
      t.vd[n].onAt = s.now ∧ t.vd[n].peakEnd = s.now + s.vd[n].tMax * 10 ∧ t.vd[n].claimHeld = s.vd[n].claimHeld ∧
      t.adm.toTgt = r ∧ onlyAt n s.vd t.vd ∧ onlyTouches [.fab, .dig, .vg, .vd, .adm] s t) ∧
  (∀ (s : State) (n : Fin 16) (raw tj : Int) (top : Nat),
    s.digRuns (tVd n).val = true → s.tmbRuns = true → s.vd[n].st = .peak →
    fires (.digitiserSample (tVd n) raw tj top) s fun t =>
      t.vd[n].st = .peak ∧
      t.vd[n].chopped = (s.vd[n].chopped || decide (s.vd[n].iPeak * 10 ≤ max top t.dig[tVd n].i)) ∧
      (t.vd[n].drive = (if t.vd[n].chopped then .chopping else .full)) ∧ t.vd[n].k = s.vd[n].k + 1 ∧
      onlyAt n s.vd t.vd ∧ onlyTouches [.tmb, .fab, .hs, .dig, .vg, .vd, .ls, .pwr, .ecc, .pmc, .dep, .nv, .free] s t) ∧
  (∀ (s : State) (n : Fin 16) (r : List (Nat × ToTgt)),
    takeMsg (48 + n.val) .grant s.adm.toTgt = some r → s.isUp (islOf (48 + n.val)) = true → s.vd[n].st ≠ .pending →
    fires (.valveGrant n) s fun t =>
      t.adm.inbox = s.adm.inbox ++ [.returned (48 + n.val)] ∧ t.vd = s.vd ∧ onlyTouches [.adm] s t) ∧
  (∀ (s : State) (n : Fin 16) (r : List (Nat × ToTgt)),
    takeMsg (48 + n.val) .drop s.adm.toTgt = some r → s.isUp (islOf (48 + n.val)) = true → s.vd[n].st = .pending →
    fires (.valveDrop n) s fun t =>
      t.vd[n].st = .idle ∧ t.vd[n].cmdRes = 6 ∧ t.vd[n].claimHeld = false ∧ onlyAt n s.vd t.vd ∧
      onlyTouches [.fab, .vg, .vd, .adm] s t) ∧
  (∀ (s : State) (n : Fin 16), s.vgUp (groupOf n) = true → s.tmbRuns = true → s.vd[n].st = .peak →
    fires (.peakEnd n) s fun t =>
      t.now = max s.now s.vd[n].peakEnd ∧ t.vd[n].st = .hold ∧ t.vd[n].holdAt = t.now ∧
      (t.vd[n].holdEnd = (if s.vd[n].holdMs s.vd[n].holdCmd = 0 then none else some (t.now + s.vd[n].holdMs
        s.vd[n].holdCmd * 1000))) ∧
      (t.vd[n].missCnt = (if s.vd[n].arrEn = true ∧ s.vd[n].arrived = false then satN 32 (s.vd[n].missCnt + 1) else
        s.vd[n].missCnt)) ∧
      t.vd[n].claimHeld = false ∧ (s.vd[n].claimHeld = true → t.adm.inbox = s.adm.inbox ++ [.release (48 + n.val)]) ∧
      onlyAt n s.vd t.vd ∧ onlyTouches [.tmb, .fab, .vg, .vd, .adm, .pwr, .ecc, .pmc, .dep, .nv, .free] s t) ∧
  (∀ (s : State) (n : Fin 16),
    s.vgUp (groupOf n) = true → s.tmbRuns = true → s.vd[n].st = .prop → s.vd[n].claimHeld = true →
    fires (.valveClaimRelease n) s fun t =>
      (t.now = (if 9 * (s.vd[n].setIn : Rat) ≤ 10 * s.dig[tVd n].msMean then s.now else max s.now (s.vd[n].onAt +
        10000))) ∧
      t.vd[n] = { s.vd[n] with claimHeld := false } ∧ t.adm.inbox = s.adm.inbox ++ [.release (48 + n.val)] ∧
      onlyAt n s.vd t.vd ∧ onlyTouches [.tmb, .fab, .vd, .adm, .pwr, .ecc, .pmc, .dep, .nv, .free] s t) ∧
  (∀ (s : State) (n : Fin 16) (x : Nat),
    s.vgUp (groupOf n) = true → s.tmbRuns = true → s.vd[n].st = .hold → s.vd[n].holdEnd = some x →
    fires (.holdEnd n) s fun t =>
      t.now = max s.now x ∧ t.vd[n].st = .decay ∧ t.vd[n].decayAt = t.now ∧ t.vd[n].decayDone = false ∧
      t.vd[n].onUs = s.vd[n].onUs + (t.now - s.vd[n].onAt) ∧ t.vd[n].held = s.vd[n].held ∧ onlyAt n s.vd t.vd ∧
      onlyTouches [.tmb, .fab, .dig, .vg, .vd, .adm, .pwr, .ecc, .pmc, .dep, .nv, .free] s t) ∧
  (∀ (s : State) (n : Fin 16), s.vgUp (groupOf n) = true → s.vd[n].decayDone = false → 10 ≤ s.vd[n].decayN →
    fires (.decayComplete n) s fun t =>
      (t.vd[n].st = (if s.vd[n].st ≠ .decay then s.vd[n].st else if bit s.vd[n].ctl 0 = false then .disabled else if
        s.vdC n = true then .gap else .idle)) ∧
      t.vd[n].decayDone = true ∧ t.vd[n].slowDecay = false ∧ onlyAt n s.vd t.vd ∧ onlyTouches [.fab, .vg, .vd] s t) ∧
  (∀ (s : State) (n : Fin 16), s.vgUp (groupOf n) = true → s.tmbRuns = true → s.vd[n].decayDone = false →
    fires (.decayTimeout n) s fun t =>
      t.now = max s.now (s.vd[n].decayAt + 100000) ∧
      (t.vd[n].st = (if s.vd[n].st ≠ .decay then s.vd[n].st else if bit s.vd[n].ctl 0 = false then .disabled else if
        s.vdC n = true then .gap else .idle)) ∧
      t.vd[n].decayDone = true ∧ t.vd[n].slowDecay = true ∧ onlyAt n s.vd t.vd ∧
      onlyTouches [.tmb, .fab, .vg, .vd, .pwr, .ecc, .pmc, .dep, .nv, .free] s t) ∧
  (∀ (s : State) (n : Fin 16),
    s.vgUp (groupOf n) = true → s.tmbRuns = true → s.vd[n].st = .gap → s.vd[n].held = none →
    fires (.gapEnd n) s fun t =>
      t.now = max s.now (s.vd[n].gapAt + max 1 (fld s.vd[n].gapCfg 0 8) * 100) ∧ t.vd[n].st = .idle ∧
      t.vd[n].cmdRes = s.vd[n].cmdRes ∧ onlyAt n s.vd t.vd ∧
      onlyTouches [.tmb, .fab, .dig, .vg, .vd, .adm, .pwr, .ecc, .pmc, .dep, .nv, .free] s t) ∧
  (∀ (s : State) (n : Fin 16) (hold : Nat),
    s.vgUp (groupOf n) = true → s.tmbRuns = true → s.vd[n].st = .gap → s.vd[n].held = some hold → s.vdA n = false →
    fires (.gapEnd n) s fun t =>
      t.vd[n].st = .idle ∧ t.vd[n].held = none ∧ t.vd[n].cmdRes = 2 ∧ onlyAt n s.vd t.vd ∧
      onlyTouches [.tmb, .fab, .dig, .vg, .vd, .adm, .pwr, .ecc, .pmc, .dep, .nv, .free] s t) ∧
  (∀ (s : State) (g : Fin 4) (n : Fin 16),
    s.firstDefer g = some n → s.vgUp g = true → s.vg[g].swOn = true → s.vg[g].ready = true →
    s.groupLoad g n.val + s.vd[n].own ≤ s.vg[g].limLoad →
    fires (.deferLeave g) s fun t =>
      t.vd[n].st = .pending ∧ t.vd[n].claimHeld = true ∧ t.adm.inbox.length = s.adm.inbox.length + 1 ∧
      onlyAt n s.vd t.vd ∧ onlyTouches [.dig, .vg, .vd, .adm] s t) ∧
  (∀ (s : State) (n : Fin 16),
    s.vgUp (groupOf n) = true → s.tmbRuns = true → s.vd[n].st = .defer → s.vd[n].startedFrom = .idle →
    fires (.deferTimeout n) s fun t =>
      t.now = max s.now (s.vd[n].deferAt + fld s.vd[n].deferCfg 0 16 * 1000) ∧ t.vd[n].st = .idle ∧
      t.vd[n].cmdRes = 5 ∧ t.vg[groupOf n].cntBusy = satN 16 (s.vg[groupOf n].cntBusy + 1) ∧ onlyAt n s.vd t.vd ∧
      onlyTouches [.tmb, .fab, .vg, .vd, .pwr, .ecc, .pmc, .dep, .nv, .free] s t) ∧
  (∀ (s : State) (g : Fin 4),
    (s.firstDefer g = none ∨ s.vgUp g = false ∨ s.vg[g].swOn = false ∨ s.vg[g].ready = false) →
    fires (.deferLeave g) s fun t =>
      t = s) ∧
  (∀ (s : State) (n : Fin 16), (s.vgUp (groupOf n) = false ∨ s.vd[n].st ≠ .defer) →
    fires (.deferTimeout n) s fun t =>
      t = s) ∧
  (∀ (s : State) (n : Fin 16),
    (takeMsg (48 + n.val) .grant s.adm.toTgt = none ∨ s.isUp (islOf (48 + n.val)) = false) →
    fires (.valveGrant n) s fun t =>
      t = s) ∧
  (∀ (s : State) (n : Fin 16), (takeMsg (48 + n.val) .drop s.adm.toTgt = none ∨ s.isUp (islOf (48 + n.val)) = false) →
    fires (.valveDrop n) s fun t =>
      t = s) ∧
  (∀ (s : State) (n : Fin 16),
    (takeMsg (48 + n.val) .entry s.adm.toTgt = none ∨ s.isUp (islOf (48 + n.val)) = false) →
    fires (.valveQueueMessage n) s fun t =>
      t = s) ∧
  (∀ (s : State) (n : Fin 16), (s.vgUp (groupOf n) = false ∨ s.vd[n].st ≠ .peak) →
    fires (.peakEnd n) s fun t =>
      t = s) ∧
  (∀ (s : State) (n : Fin 16), (s.vgUp (groupOf n) = false ∨ s.vd[n].st ≠ .prop ∨ s.vd[n].claimHeld = false) →
    fires (.valveClaimRelease n) s fun t =>
      t = s) ∧
  (∀ (s : State) (n : Fin 16), (s.vgUp (groupOf n) = false ∨ s.vd[n].st ≠ .hold ∨ s.vd[n].holdEnd = none) →
    fires (.holdEnd n) s fun t =>
      t = s) ∧
  (∀ (s : State) (n : Fin 16), (s.vgUp (groupOf n) = false ∨ s.vd[n].decayDone = true ∨ s.vd[n].decayN < 10) →
    fires (.decayComplete n) s fun t =>
      t = s) ∧
  (∀ (s : State) (n : Fin 16), (s.vgUp (groupOf n) = false ∨ s.vd[n].decayDone = true) →
    fires (.decayTimeout n) s fun t =>
      t = s) ∧
  (∀ (s : State) (n : Fin 16), (s.vgUp (groupOf n) = false ∨ s.vd[n].st ≠ .gap) →
    fires (.gapEnd n) s fun t =>
      t = s)

/-- Faults of a channel (R199, R224, R225) and of a group (R197, R198, R226), the group switch (R196), and the group's
commands (R227, R235). -/
def Obligations.ValveAndGroupFaultsTurnOff : Prop :=
  (∀ (s : State) (n : Fin 16) (ma : Nat), s.vgUp (groupOf n) = true → vdOn s.vd[n].st = true → 12000 ≤ ma →
    fires (.valveShortCircuit n ma) s fun t =>
      t.vd[n].st = .latched ∧ bit t.vd[n].fault 0 = true ∧ fld t.vd[n].faultInfo 0 4 = 1 ∧
      t.vd[n].faultTime = s.count ∧ t.vd[n].decayDone = false ∧ onlyAt n s.vd t.vd ∧
      onlyTouches [.fab, .dig, .vg, .vd, .adm] s t) ∧
  (∀ (s : State) (n : Fin 16) (ma ms : Nat),
    s.vgUp (groupOf n) = true → vdOn s.vd[n].st = true → 2 * (fld s.vd[n].openCfg 0 8 * 10) ≤ s.vd[n].setpoint s.now →
    ma < fld s.vd[n].openCfg 0 8 * 10 → max 1 (fld s.vd[n].openCfg 8 8) ≤ ms →
    fires (.valveOpenLoad n ma ms) s fun t =>
      t.vd[n].st = .latched ∧ bit t.vd[n].fault 1 = true ∧ fld t.vd[n].faultInfo 0 4 = 2 ∧ onlyAt n s.vd t.vd ∧
      onlyTouches [.fab, .dig, .vg, .vd, .adm] s t) ∧
  (∀ (s : State) (n : Fin 16) (ma : Nat), (vdOn s.vd[n].st = false ∨ ma < 12000) →
    fires (.valveShortCircuit n ma) s fun t =>
      t = s) ∧
  (∀ (s : State) (g : Fin 4) (ma cycles : Nat), s.vgUp g = true → s.vg[g].swOn = true → 14000 < ma → 320 ≤ cycles →
    fires (.groupOverCurrent g ma cycles) s fun t =>
      t.vg[g].swOn = false ∧ t.vg[g].latched = true ∧ bit t.vg[g].fault 0 = true ∧
      (∀ n : Fin 16, inGroup g n.val = true → vdActive t.vd[n].st = false) ∧
      (∀ n : Fin 16, inGroup g n.val = false → t.vd[n] = s.vd[n]) ∧ onlyAt g s.vg t.vg ∧
      onlyTouches [.fab, .dig, .vg, .vd, .adm] s t) ∧
  (∀ (s : State) (g : Fin 4) (ma : Nat), s.vgUp g = true → s.vg[g].swOn = true → 24000 ≤ ma →
    fires (.groupShortCircuit g ma) s fun t =>
      t.vg[g].swOn = false ∧ t.vg[g].latched = true ∧ bit t.vg[g].fault 1 = true ∧
      (∀ n : Fin 16, inGroup g n.val = true → vdActive t.vd[n].st = false) ∧
      (∀ n : Fin 16, inGroup g n.val = false → t.vd[n] = s.vd[n]) ∧ onlyAt g s.vg t.vg ∧
      onlyTouches [.fab, .dig, .vg, .vd, .adm] s t) ∧
  (∀ (s : State) (g : Fin 4) (tj : Int), s.vgUp g = true → s.vg[g].tl = false → 2800 ≤ tj →
    fires (.groupThermalLatch g tj) s fun t =>
      t.vg[g].swOn = false ∧ t.vg[g].latched = true ∧ bit t.vg[g].fault 2 = true ∧ t.vg[g].tl = true ∧
      t.vg[g].tj = tj ∧ (∀ n : Fin 16, inGroup g n.val = true → vdActive t.vd[n].st = false) ∧
      (∀ n : Fin 16, inGroup g n.val = false → t.vd[n] = s.vd[n]) ∧ onlyAt g s.vg t.vg ∧
      onlyTouches [.fab, .hs, .dig, .vg, .vd, .ls, .adm] s t) ∧
  (∀ (s : State) (g : Fin 4) (tj : Int), s.vgUp g = true → s.vg[g].tl = true → tj ≤ 2480 →
    fires (.groupThermalLatchClear g tj) s fun t =>
      t.vg[g].tl = false ∧ t.vg[g].tj = tj ∧ t.vg[g].latched = s.vg[g].latched ∧ onlyAt g s.vg t.vg ∧ t.vd = s.vd ∧
      onlyTouches [.vg] s t) ∧
  (∀ (s : State) (g : Fin 4), s.vgUp g = true → s.tmbRuns = true → s.vg[g].swOn = true → s.vg[g].ready = false →
    fires (.gswFail g) s fun t =>
      t.now = max s.now (s.vg[g].swAt + 1000) ∧ t.vg[g].swOn = false ∧ t.vg[g].latched = true ∧
      bit t.vg[g].fault 3 = true ∧ (∀ n : Fin 16, inGroup g n.val = true → vdActive t.vd[n].st = false) ∧
      (∀ n : Fin 16, inGroup g n.val = false → t.vd[n] = s.vd[n]) ∧ onlyAt g s.vg t.vg ∧
      onlyTouches [.tmb, .fab, .dig, .vg, .vd, .adm, .pwr, .ecc, .pmc, .dep, .nv, .free] s t) ∧
  (∀ (s : State) (g : Fin 4) (mv : Nat), s.vgUp g = true → s.vg[g].swOn = true → mv ≤ 1000 →
    fires (.groupSwitchReady g mv) s fun t =>
      t.vg[g] = { s.vg[g] with ready := true } ∧ onlyAt g s.vg t.vg ∧ onlyTouches [.vg] s t) ∧
  (∀ (s : State) (g : Fin 4),
    s.vgUp g = true → s.tmbRuns = true → s.vg[g].swOn = true →
    (∀ n : Fin 16, inGroup g n.val = true → vdActive s.vd[n].st = false) →
    fires (.groupSwitchOff g) s fun t =>
      t.now = max s.now (s.vg[g].activeAt + 10000) ∧ t.vg[g] = { s.vg[g] with swOn := false, ready := false } ∧
      onlyAt g s.vg t.vg ∧ onlyTouches [.tmb, .fab, .vg, .pwr, .ecc, .pmc, .dep, .nv, .free] s t) ∧
  (∀ (s : State) (c g : Fin 4) (same : Bool), canStore s (islVg g.val) 7 →
    fires (.offAll c g same) s fun t =>
      (∀ n : Fin 16, inGroup g n.val = true → s.vd[n].limp = false → same = false ∨ s.vd[n].markAt ≠ s.now → vdActive
        t.vd[n].st = false) ∧
      (∀ n : Fin 16, inGroup g n.val = true → s.vd[n].limp = true → t.vd[n] = s.vd[n]) ∧
      (∀ n : Fin 16, inGroup g n.val = false → t.vd[n] = s.vd[n]) ∧ onlyAt g s.vg t.vg ∧
      onlyTouches [.fab, .answer, .dig, .vg, .vd, .adm, .pmc, .free] s t) ∧
  (∀ (s : State) (mv us : Nat),
    s.isUp 2 = true → mv < uvThr s.hsc.uvCfg[(3 : Fin 4)] → 20 ≤ us → (∀ g : Fin 4, s.vgUp g = true) →
    fires (.bankUnderVoltage 3 mv us) s fun t =>
      (∀ n : Fin 16, vdActive s.vd[n].st = true ∨ s.vd[n].st = .decay ∨ s.vd[n].st = .gap → bit t.vd[n].fault 3 = true
        ∧ vdActive t.vd[n].st = false) ∧
      (∀ n : Fin 16, s.vd[n].st = .gap → t.vd[n].st = .idle ∧ t.vd[n].held = none) ∧
      onlyTouches [.fab, .hs, .hsc, .dig, .vg, .vd, .ls, .adm, .pwr] s t) ∧
  (∀ (s : State) (c g : Fin 4), canStore s (islVg g.val) 7 →
    fires (.groupClear c g) s fun t =>
      (t.vg[g] = (if s.vg[g].tl then { s.vg[g] with clrRefused := true } else
        { s.vg[g] with clrRefused := false, latched := false })) ∧
      onlyAt g s.vg t.vg ∧ t.vd = s.vd ∧ onlyTouches [.fab, .answer, .vg, .pmc, .free] s t) ∧
  (∀ (s : State) (n : Fin 16) (ma ms : Nat),
    (s.vgUp (groupOf n) = false ∨ vdOn s.vd[n].st = false ∨ s.vd[n].setpoint s.now < 2 * (fld s.vd[n].openCfg 0 8 *
      10) ∨ fld s.vd[n].openCfg 0 8 * 10 ≤ ma ∨ ms < max 1 (fld s.vd[n].openCfg 8 8)) →
    fires (.valveOpenLoad n ma ms) s fun t =>
      t = s) ∧
  (∀ (s : State) (g : Fin 4) (ma cycles : Nat),
    (s.vgUp g = false ∨ s.vg[g].swOn = false ∨ ma ≤ 14000 ∨ cycles < 320) →
    fires (.groupOverCurrent g ma cycles) s fun t =>
      t = s) ∧
  (∀ (s : State) (g : Fin 4) (ma : Nat), (s.vgUp g = false ∨ s.vg[g].swOn = false ∨ ma < 24000) →
    fires (.groupShortCircuit g ma) s fun t =>
      t = s) ∧
  (∀ (s : State) (g : Fin 4) (tj : Int), (s.vgUp g = false ∨ s.vg[g].tl = true ∨ tj < 2800) →
    fires (.groupThermalLatch g tj) s fun t =>
      t = s) ∧
  (∀ (s : State) (g : Fin 4), (s.vgUp g = false ∨ s.vg[g].swOn = false ∨ s.vg[g].ready = true) →
    fires (.gswFail g) s fun t =>
      t = s) ∧
  (∀ (s : State) (g : Fin 4) (mv : Nat), (s.vgUp g = false ∨ s.vg[g].swOn = false ∨ 1000 < mv) →
    fires (.groupSwitchReady g mv) s fun t =>
      t = s) ∧
  (∀ (s : State) (g : Fin 4),
    (s.vgUp g = false ∨ s.vg[g].swOn = false ∨ ∃ m : Fin 16, inGroup g m.val = true ∧ vdActive s.vd[m].st = true) →
    fires (.groupSwitchOff g) s fun t =>
      t = s) ∧
  (∀ (s : State) (g : Fin 4) (tj : Int), (s.vgUp g = false ∨ s.vg[g].tl = false ∨ 2480 < tj) →
    fires (.groupThermalLatchClear g tj) s fun t =>
      t = s)

/-! ## Lamps -/

/-- Commands to a lamp string move it as the transition table of R257 says; no other string changes, but for the
common frame period (R241). -/
def Obligations.LampCommandsFollowTheTable : Prop :=
  (∀ (s : State) (c : Fin 4) (k : Fin 3) (w : W32) (same : Bool),
    canStore s (islLs k.val) 6 → bit s.pwr.holdStat 3 = false →
    fires (.lampEnSet c k w same) s fun t =>
      (t.ls[k] =
        { s.ls[k] with ctl := keep 0xF7 (w ||| 1), cmdRes := 0, st := (if s.ls[k].st = .disabled then .off else s.ls[k].st) })
        ∧
      onlyAt k s.ls t.ls ∧ t.answer = .done ∧ onlyTouches [.fab, .answer, .dig, .ls, .adm, .pmc, .free] s t) ∧
  (∀ (s : State) (c : Fin 4) (k : Fin 3) (w : W32) (same : Bool),
    canStore s (islLs k.val) 6 → bit s.pwr.holdStat 3 = true →
    fires (.lampEnSet c k w same) s fun t =>
      t.ls[k] = { s.ls[k] with cmdRes := 2 } ∧ onlyAt k s.ls t.ls ∧
      onlyTouches [.fab, .answer, .dig, .ls, .adm, .pmc, .free] s t) ∧
  (∀ (s : State) (c : Fin 4) (k : Fin 3) (w : W32) (same : Bool),
    canStore s (islLs k.val) 6 → s.ls[k].limp = false →
    (same && lsOn s.ls[k].st && s.ls[k].markAt == s.now && s.ls[k].mark == .grantOn) = false →
    fires (.lampEnClear c k w same) s fun t =>
      (s.ls[k].st = .pending → t.adm.inbox = s.adm.inbox ++ [.withdraw (64 + k.val)]) ∧
      t.ls[k].ctl = keep 0xF7 (w &&& 0xFFFFFFFE) ∧ t.ls[k].cmdRes = 0 ∧
      (t.ls[k].st = (if s.ls[k].st = .latched then .latched else .disabled)) ∧
      (lsOn s.ls[k].st = true → t.ls[k].onUs = s.ls[k].onUs + (s.now - s.ls[k].onAt)) ∧ onlyAt k s.ls t.ls ∧
      onlyTouches [.fab, .answer, .dig, .ls, .adm, .pmc, .free] s t) ∧
  (∀ (s : State) (c : Fin 4) (k : Fin 3) (w : W32) (same : Bool),
    canStore s (islLs k.val) 6 → s.ls[k].limp = false →
    (same && lsOn s.ls[k].st && s.ls[k].markAt == s.now && s.ls[k].mark == .grantOn) = true →
    fires (.lampEnClear c k w same) s fun t =>
      t.ls[k] = { s.ls[k] with cmdRes := 1 } ∧ onlyAt k s.ls t.ls ∧
      onlyTouches [.fab, .answer, .dig, .ls, .adm, .pmc, .free] s t) ∧
  (∀ (s : State) (c : Fin 4) (k : Fin 3) (w : W32) (same : Bool), canStore s (islLs k.val) 6 → s.ls[k].limp = true →
    fires (.lampEnClear c k w same) s fun t =>
      t.ls[k] = { s.ls[k] with cmdRes := 2 } ∧ onlyAt k s.ls t.ls ∧
      onlyTouches [.fab, .answer, .dig, .ls, .adm, .pmc, .free] s t) ∧
  (∀ (s : State) (c : Fin 4) (k : Fin 3) (v3 : W16),
    canStore s (islLs k.val) 6 → s.ls[k].limp = false → s.ls[k].st = .off → s.ls[k].tl = false →
    s.ls[k].bankOk = true → s.ls[k].curveMissing = false →
    fires (.lampOn c k v3 false) s fun t =>
      t.ls[k].st = .pending ∧ t.ls[k].cmdRes = 0 ∧ t.ls[k].claimHeld = true ∧ t.ls[k].v3 = v3.toNat ∧
      t.adm.inbox = s.adm.inbox ++ [.own (64 + k.val) (fld s.ls[k].ctl 4 3) t.ls[k].iCont (fld s.ls[k].start 16 16) 0
        .ordinary] ∧
      onlyAt k s.ls t.ls ∧ onlyTouches [.fab, .answer, .dig, .ls, .adm, .pmc, .free] s t) ∧
  (∀ (s : State) (c : Fin 4) (k : Fin 3) (v3 : W16),
    canStore s (islLs k.val) 6 → s.ls[k].limp = false → s.ls[k].st = .off → s.ls[k].tl = false →
    s.ls[k].bankOk = false →
    fires (.lampOn c k v3 false) s fun t =>
      (t.ls[k] =
        { s.ls[k] with v3 := v3.toNat, cmdRes := (if bit s.ls[k].ctl 1 then 0 else 2), st := (if bit s.ls[k].ctl 1 then .uvWait else .off) })
        ∧
      t.adm.inbox = s.adm.inbox ∧ onlyAt k s.ls t.ls ∧ onlyTouches [.fab, .answer, .dig, .ls, .adm, .pmc, .free] s t) ∧
  (∀ (s : State) (c : Fin 4) (k : Fin 3) (v3 : W16),
    canStore s (islLs k.val) 6 → s.ls[k].limp = false →
    (s.ls[k].st = .disabled ∨ s.ls[k].st = .latched ∨ (s.ls[k].st = .off ∧ s.ls[k].tl = true)) →
    fires (.lampOn c k v3 false) s fun t =>
      t.ls[k] = { s.ls[k] with v3 := v3.toNat, cmdRes := 2 } ∧ onlyAt k s.ls t.ls ∧
      onlyTouches [.fab, .answer, .dig, .ls, .adm, .pmc, .free] s t) ∧
  (∀ (s : State) (c : Fin 4) (k : Fin 3) (v3 : W16),
    canStore s (islLs k.val) 6 → s.ls[k].limp = false →
    (s.ls[k].st = .pending ∨ s.ls[k].st = .uvWait ∨ lsOn s.ls[k].st = true) →
    fires (.lampOn c k v3 false) s fun t =>
      t.ls[k] = { s.ls[k] with v3 := v3.toNat, cmdRes := 4 } ∧ onlyAt k s.ls t.ls ∧
      onlyTouches [.fab, .answer, .dig, .ls, .adm, .pmc, .free] s t) ∧
  (∀ (s : State) (c : Fin 4) (k : Fin 3) (v3 : W16),
    canStore s (islLs k.val) 6 → s.ls[k].limp = false → s.ls[k].st = .off → s.ls[k].tl = false →
    s.ls[k].bankOk = true → s.ls[k].curveMissing = true →
    fires (.lampOn c k v3 false) s fun t =>
      t.ls[k] = { s.ls[k] with v3 := v3.toNat, cmdRes := 3 } ∧ onlyAt k s.ls t.ls ∧
      onlyTouches [.fab, .answer, .dig, .ls, .adm, .pmc, .free] s t) ∧
  (∀ (s : State) (c : Fin 4) (k : Fin 3) (v3 : W16) (multi : Bool),
    canStore s (islLs k.val) 6 → (s.ls[k].limp = true ∨ multi = true) →
    fires (.lampOn c k v3 multi) s fun t =>
      t.ls[k] = { s.ls[k] with v3 := v3.toNat, cmdRes := 2 } ∧ onlyAt k s.ls t.ls ∧
      onlyTouches [.fab, .answer, .dig, .ls, .adm, .pmc, .free] s t) ∧
  (∀ (s : State) (c : Fin 4) (k : Fin 3) (multi same : Bool),
    canStore s (islLs k.val) 6 → (s.ls[k].limp = true ∨ multi = true) →
    fires (.lampOff c k multi same) s fun t =>
      t.ls[k] = { s.ls[k] with cmdRes := 2 } ∧ onlyAt k s.ls t.ls ∧
      onlyTouches [.fab, .answer, .dig, .ls, .adm, .pmc, .free] s t) ∧
  (∀ (s : State) (c : Fin 4) (k : Fin 3) (multi : Bool),
    canStore s (islLs k.val) 6 → (s.ls[k].limp = true ∨ multi = true) →
    fires (.lampClear c k multi) s fun t =>
      t.ls[k] = { s.ls[k] with cmdRes := 2 } ∧ onlyAt k s.ls t.ls ∧
      onlyTouches [.fab, .answer, .dig, .ls, .adm, .pmc, .free] s t) ∧
  (∀ (s : State) (c : Fin 4) (k : Fin 3) (same : Bool),
    canStore s (islLs k.val) 6 → s.ls[k].limp = false →
    (same && lsOn s.ls[k].st && s.ls[k].markAt == s.now && s.ls[k].mark == .grantOn) = false →
    fires (.lampOff c k false same) s fun t =>
      (t.ls[k].st = (if s.ls[k].st = .disabled ∨ s.ls[k].st = .latched then s.ls[k].st else .off)) ∧
      (t.ls[k].cmdRes = (if s.ls[k].st = .latched then 2 else 0)) ∧
      (lsOn s.ls[k].st = true → t.ls[k].onUs = s.ls[k].onUs + (s.now - s.ls[k].onAt)) ∧
      (s.ls[k].st = .pending → t.adm.inbox = s.adm.inbox ++ [.withdraw (64 + k.val)]) ∧ onlyAt k s.ls t.ls ∧
      onlyTouches [.fab, .answer, .dig, .ls, .adm, .pmc, .free] s t) ∧
  (∀ (s : State) (c : Fin 4) (k : Fin 3) (same : Bool),
    canStore s (islLs k.val) 6 → s.ls[k].limp = false →
    (same && lsOn s.ls[k].st && s.ls[k].markAt == s.now && s.ls[k].mark == .grantOn) = true →
    fires (.lampOff c k false same) s fun t =>
      t.ls[k] = { s.ls[k] with cmdRes := 1 } ∧ onlyAt k s.ls t.ls ∧
      onlyTouches [.fab, .answer, .dig, .ls, .adm, .pmc, .free] s t) ∧
  (∀ (s : State) (c : Fin 4) (k : Fin 3), canStore s (islLs k.val) 6 → s.ls[k].limp = false →
    fires (.lampClear c k false) s fun t =>
      (t.ls[k] =
        { s.ls[k] with cmdRes := (if s.ls[k].st = .latched ∧ s.ls[k].tl = true then 2 else 0), st := (if s.ls[k].st = .latched ∧ s.ls[k].tl = false then (if bit s.ls[k].ctl 0 then .off else .disabled) else s.ls[k].st) })
        ∧
      onlyAt k s.ls t.ls ∧ onlyTouches [.fab, .answer, .dig, .ls, .adm, .pmc, .free] s t) ∧
  (∀ (s : State) (c : Fin 4) (k : Fin 3) (m : BitVec 8), canStore s (islLs k.val) 6 →
    fires (.segClr c k m) s fun t =>
      (∀ i : Fin 8, t.ls[k].segs[i] = { s.ls[k].segs[i] with clr := s.ls[k].segs[i].clr || m.toNat.testBit i.val }) ∧
      t.ls[k] = { s.ls[k] with segs := t.ls[k].segs } ∧ onlyAt k s.ls t.ls ∧
      onlyTouches [.fab, .answer, .dig, .ls, .adm, .pmc, .free] s t) ∧
  (∀ (s : State) (c : Fin 4) (p : BitVec 3), canStore s 17 6 → s.lsAllIdle = true →
    fires (.lampPerWrite c p) s fun t =>
      (∀ k : Fin 3, t.ls[k] = (if s.lsUp k then { s.ls[k] with per := p.toNat } else s.ls[k])) ∧ t.lmpErr = false ∧
      onlyTouches [.fab, .answer, .lmpErr, .ls, .pmc, .free] s t) ∧
  (∀ (s : State) (c : Fin 4) (p : BitVec 3), canStore s 17 6 → s.lsAllIdle = false →
    fires (.lampPerWrite c p) s fun t =>
      t.ls = s.ls ∧ t.lmpErr = true ∧ onlyTouches [.fab, .answer, .lmpErr, .ls, .pmc, .free] s t) ∧
  (∀ (s : State) (c : Fin 4) (k : Fin 3) (w : W32),
    canStore s (islLs k.val) 6 → (s.ls[k].st = .disabled ∨ s.ls[k].st = .off ∨ s.ls[k].st = .latched) →
    fld w 0 12 ≤ 4031 →
    fires (.dimWrite c k w) s fun t =>
      t.ls[k].dim = keep 0xFFF w ∧ t.ls[k].dimLoaded = false ∧
      t.ls[k].copy = { busy := true, base := fld w 0 12, len := 65 } ∧ t.ls[k].cmdRes = 0 ∧ t.ls[k].st = s.ls[k].st ∧
      onlyAt k s.ls t.ls ∧ onlyTouches [.fab, .answer, .ls, .pmc, .free] s t) ∧
  (∀ (s : State) (c : Fin 4) (k : Fin 3) (w : W32),
    canStore s (islLs k.val) 6 →
    (s.ls[k].st = .pending ∨ s.ls[k].st = .ramp ∨ s.ls[k].st = .on ∨ s.ls[k].st = .uvWait ∨ 4031 < fld w 0 12) →
    fires (.dimWrite c k w) s fun t =>
      t.ls[k] = { s.ls[k] with cmdRes := 3 } ∧ onlyAt k s.ls t.ls ∧ onlyTouches [.fab, .answer, .ls, .pmc, .free] s t) ∧
  (∀ (s : State) (k : Fin 3), s.lsUp k = true → s.ls[k].copy.busy = true → s.isUp 2 = true →
    fires (.dimCopyDone k) s fun t =>
      t.ls[k].dimNext = s.curve.range s.ls[k].copy.base 65 ∧ t.ls[k].dimLoaded = true ∧ t.ls[k].copy.busy = false ∧
      t.ls[k].updPend = true ∧ t.ls[k].st = s.ls[k].st ∧ onlyAt k s.ls t.ls ∧ onlyTouches [.ls] s t) ∧
  (∀ (s : State) (k : Fin 3), (s.lsUp k = false ∨ s.ls[k].copy.busy = false ∨ s.isUp 2 = false) →
    fires (.dimCopyDone k) s fun t =>
      t = s)

/-- ADM's messages at a string (R163, R257), the ramp (R240, R256, R261), a frame start and the lit intervals (R243 to
R246) and the judging of a segment (R248, R250). carryOf is what a wrapped interval has left after the frame end. -/
def Obligations.LampStringsRunTheirFrames : Prop :=
  (∀ (s : State) (k : Fin 3) (r : List (Nat × ToTgt)),
    takeMsg (64 + k.val) .entry s.adm.toTgt = some r → s.isUp (islOf (64 + k.val)) = true →
    fires (.lampQueueMessage k) s fun t =>
      (t.adm.inbox = s.adm.inbox ++ [if s.ls[k].st = .pending then .confirm (64 + k.val) else .refuse (64 + k.val)
        s.ls[k].st.code]) ∧
      t.adm.toTgt = r ∧ onlyTouches [.adm] s t) ∧
  (∀ (s : State) (k : Fin 3) (r : List (Nat × ToTgt)),
    takeMsg (64 + k.val) .grant s.adm.toTgt = some r → s.isUp (islOf (64 + k.val)) = true → s.ls[k].st = .pending →
    s.ls[k].bankOk = true → s.ls[k].tl = false →
    fires (.lampGrant k) s fun t =>
      t.ls[k].st = .ramp ∧ t.ls[k].ops = satN 64 (s.ls[k].ops + 1) ∧ t.ls[k].onAt = s.now ∧
      t.ls[k].rampEnd = s.now + s.ls[k].tRamp * 1000 ∧ t.adm.toTgt = r ∧ onlyAt k s.ls t.ls ∧
      onlyTouches [.dig, .ls, .adm] s t) ∧
  (∀ (s : State) (k : Fin 3) (r : List (Nat × ToTgt)),
    takeMsg (64 + k.val) .grant s.adm.toTgt = some r → s.isUp (islOf (64 + k.val)) = true →
    (s.ls[k].st ≠ .pending ∨ s.ls[k].bankOk = false ∨ s.ls[k].tl = true) →
    fires (.lampGrant k) s fun t =>
      t.adm.inbox = s.adm.inbox ++ [.returned (64 + k.val)] ∧ t.ls = s.ls ∧ onlyTouches [.adm] s t) ∧
  (∀ (s : State) (k : Fin 3) (r : List (Nat × ToTgt)),
    takeMsg (64 + k.val) .drop s.adm.toTgt = some r → s.isUp (islOf (64 + k.val)) = true → s.ls[k].st = .pending →
    fires (.lampDrop k) s fun t =>
      t.ls[k] = { s.ls[k] with claimHeld := false, cmdRes := 6, st := .off } ∧ onlyAt k s.ls t.ls ∧
      onlyTouches [.fab, .ls, .adm] s t) ∧
  (∀ (s : State) (k : Fin 3), s.lsUp k = true → s.tmbRuns = true → s.ls[k].st = .ramp →
    fires (.rampComplete k) s fun t =>
      t.now = max s.now s.ls[k].rampEnd ∧ t.ls[k] = { s.ls[k] with st := .on, claimHeld := false } ∧
      (s.ls[k].claimHeld = true → t.adm.inbox = s.adm.inbox ++ [.release (64 + k.val)]) ∧ onlyAt k s.ls t.ls ∧
      onlyTouches [.tmb, .fab, .ls, .adm, .pwr, .ecc, .pmc, .dep, .nv, .free] s t) ∧
  (∀ (s : State) (k : Fin 3) (r : List (Nat × ToTgt)),
    takeMsg (64 + k.val) .drop s.adm.toTgt = some r → s.isUp (islOf (64 + k.val)) = true → s.ls[k].st ≠ .pending →
    fires (.lampDrop k) s fun t =>
      t.ls = s.ls ∧ t.adm.toTgt = r ∧ onlyTouches [.adm] s t) ∧
  (∀ (l : Ls), l.st = .ramp → l.onAt < l.rampEnd →
      l.setMa l.onAt = 0 ∧ l.setMa l.rampEnd = l.iSet * 10 ∧ ∀ a b : Nat, a ≤ b → l.setMa a ≤ l.setMa b) ∧
  (∀ (l : Ls) (k : Fin 3) (i : Fin 8), 24 ≤ l.fCyc →
      (∀ c : Nat, c < l.fCyc → (l.litAt k.val i c = true ↔ ∃ d : Nat, d < l.segs[i].lit ∧ c = (phaseOf k.val i.val
        l.fCyc + d) % l.fCyc)) ∧
      (∀ c : Nat, l.fCyc ≤ c → l.litAt k.val i c = l.litAt k.val i (l.fCyc - 1)) ∧
      (∀ c : Nat, l.shuntClosed k.val i c = true ↔ lsOn l.st = true ∧ (l.segs[i].bypass = true ∨ l.litAt k.val i c =
        false)) ∧
      ∀ c : Nat, c < l.fCyc → l.carryOf k.val i c = 0) ∧
  (∀ (s : State) (k : Fin 3) (cycles vOut : Nat), s.lsUp k = true → s.tmbRuns = true → s.pwr.phase ≠ .deep →
    fires (.lampFrameStart k cycles vOut) s fun t =>
      s.now ≤ t.now ∧ (s.now = s.ls[k].frameAt → s.now < t.now) ∧ t.now ≤ s.now + framePer s.ls[k].per ∧
      t.count % framePer s.ls[k].per = 0 ∧ t.ls[k].frameAt = t.now ∧ t.ls[k].vOut = satN 16 vOut ∧
      t.ls[k].nominal = false ∧ t.ls[k].st = s.ls[k].st ∧
      (∀ i : Fin 8, t.ls[k].segs[i].applied = (if bit s.ls[k].ctl 7 then s.ls[k].segs[i].applied else
        s.ls[k].segs[i].ctl) ∧ t.ls[k].segs[i].clr = false ∧ t.ls[k].segs[i].open_ = (s.ls[k].segs[i].open_ &&
        !s.ls[k].segs[i].clr) ∧ t.ls[k].segs[i].short = (s.ls[k].segs[i].short && !s.ls[k].segs[i].clr) ∧
        t.ls[k].segs[i].bypass = (s.ls[k].segs[i].bypass && !s.ls[k].segs[i].clr)) ∧
      (∀ i : Fin 8, t.ls[k].segs[i].duty = (if bit t.ls[k].segs[i].applied 20 then dimDuty t.ls[k].dimEnt (fld
        t.ls[k].segs[i].applied 12 8) else fld t.ls[k].segs[i].applied 0 12) ∧ t.ls[k].segs[i].tLit = roundDiv
        (t.ls[k].segs[i].duty * t.ls[k].fCyc) 4095 ∧ t.ls[k].segs[i].dark = (t.ls[k].segs[i].duty == 0 ||
        t.ls[k].segs[i].bypass) ∧ t.ls[k].segs[i].carry = (if t.ls[k].segs[i].bypass then 0 else s.ls[k].carryOf k.val
        i cycles)) ∧
      (s.ls[k].frameNo % 64 = 0 → s.ls[k].probeM = 0 → ∀ i : Fin 8, t.ls[k].segs[i].lit = (if t.ls[k].segs[i].bypass
        then 0 else t.ls[k].segs[i].tLit)) ∧
      (t.ls[k].dimEnt = (if bit s.ls[k].ctl 7 then s.ls[k].dimEnt else s.ls[k].dimNext)) ∧
      (t.ls[k].fCyc = (if s.ls[k].nominal = true ∨ s.ls[k].frameAt < t.now - t.now % 2 ^ 48 then frameCyc s.ls[k].per
        else clampN (ceilDiv (97 * frameCyc s.ls[k].per) 100) (103 * frameCyc s.ls[k].per / 100) cycles)) ∧
      onlyAt k s.ls t.ls ∧ onlyTouches [.tmb, .fab, .ls, .pwr, .ecc, .pmc, .dep, .nv, .free] s t) ∧
  (∀ (s : State) (k : Fin 3) (i : Fin 8) (mv c : Nat),
    s.lsUp k = true → s.tmbRuns = true → lsOn s.ls[k].st = true → s.ls[k].judgeAt k.val i = some c →
    s.ls[k].segs[i].bypass = false →
    fires (.segmentJudge k i mv) s fun t =>
      t.now = max s.now (s.ls[k].frameAt + c / 100) ∧ t.ls[k].segs[i].vf = vfCode mv ∧
      t.ls[k].segs[i].judgedAt = t.now ∧
      t.ls[k].segs[i].short = (s.ls[k].segs[i].short || decide (5 * vfCode mv < 4 * fld s.ls[k].thr 8 8)) ∧
      t.ls[k].segs[i].open_ = s.ls[k].segs[i].open_ ∧ onlyAt i s.ls[k].segs t.ls[k].segs ∧ onlyAt k s.ls t.ls ∧
      onlyTouches [.tmb, .fab, .ls, .pwr, .ecc, .pmc, .dep, .nv, .free] s t) ∧
  (∀ (l : Ls) (k : Fin 3) (i : Fin 8), l.segs[i].carry = 0 →
      l.judgeAt k.val i = (if phaseOf k.val i.val l.fCyc + 800 ≤ l.fCyc ∧ 800 ≤ l.segs[i].lit then some (phaseOf k.val
        i.val l.fCyc + 800) else none)) ∧
  (∀ (s : State) (k : Fin 3) (i : Fin 8) (mv : Nat),
    (lsOn s.ls[k].st = false ∨ s.ls[k].segs[i].bypass = true ∨ s.ls[k].judgeAt k.val i = none) →
    fires (.segmentJudge k i mv) s fun t =>
      t = s) ∧
  (∀ (s : State) (k : Fin 3), (takeMsg (64 + k.val) .grant s.adm.toTgt = none ∨ s.isUp (islOf (64 + k.val)) = false) →
    fires (.lampGrant k) s fun t =>
      t = s) ∧
  (∀ (s : State) (k : Fin 3), (takeMsg (64 + k.val) .drop s.adm.toTgt = none ∨ s.isUp (islOf (64 + k.val)) = false) →
    fires (.lampDrop k) s fun t =>
      t = s) ∧
  (∀ (s : State) (k : Fin 3), (takeMsg (64 + k.val) .entry s.adm.toTgt = none ∨ s.isUp (islOf (64 + k.val)) = false) →
    fires (.lampQueueMessage k) s fun t =>
      t = s) ∧
  (∀ (s : State) (k : Fin 3), (s.lsUp k = false ∨ s.ls[k].st ≠ .ramp) →
    fires (.rampComplete k) s fun t =>
      t = s) ∧
  (∀ (s : State) (k : Fin 3) (cycles vOut : Nat), (s.lsUp k = false ∨ s.pwr.phase = .deep) →
    fires (.lampFrameStart k cycles vOut) s fun t =>
      t = s)

/-- Faults of segments (R248, R249) and of the string (R255, R257). -/
def Obligations.LampFaultsLatchTheString : Prop :=
  (∀ (s : State) (k : Fin 3) (i : Fin 8) (mv ns : Nat),
    s.lsUp k = true → lsOn s.ls[k].st = true → 800 ≤ s.ls[k].segs[i].lit → s.ls[k].segs[i].bypass = false →
    s.ls[k].vOpen * 250 < mv → 1000 ≤ ns → bit s.ls[k].segs[i].applied 24 = true →
    fires (.segOpen k i mv ns) s fun t =>
      t.ls[k].segs[i].open_ = true ∧ t.ls[k].segs[i].bypass = true ∧ t.ls[k].segs[i].dark = true ∧
      t.ls[k].segs[i].vf = vfCode mv ∧ t.ls[k].st = s.ls[k].st ∧ onlyAt k s.ls t.ls ∧
      onlyTouches [.fab, .dig, .ls, .adm] s t) ∧
  (∀ (s : State) (k : Fin 3) (i : Fin 8) (mv ns : Nat),
    s.lsUp k = true → lsOn s.ls[k].st = true → 800 ≤ s.ls[k].segs[i].lit → s.ls[k].segs[i].bypass = false →
    s.ls[k].vOpen * 250 < mv → 1000 ≤ ns → bit s.ls[k].segs[i].applied 24 = false →
    fires (.segOpen k i mv ns) s fun t =>
      t.ls[k].segs[i].open_ = true ∧ t.ls[k].segs[i].bypass = false ∧ fld t.ls[k].faultInfo 8 3 = i.val ∧
      t.ls[k].st = .latched ∧ bit t.ls[k].fault 4 = true ∧ fld t.ls[k].faultInfo 0 4 = 4 ∧
      t.ls[k].faultTime = s.count ∧ (lsOn s.ls[k].st = true → t.ls[k].onUs = s.ls[k].onUs + (s.now - s.ls[k].onAt)) ∧
      onlyAt k s.ls t.ls ∧ onlyTouches [.fab, .dig, .ls, .adm] s t) ∧
  (∀ (s : State) (k : Fin 3) (buckMa ma us : Nat),
    s.lsUp k = true → lsOn s.ls[k].st = true → ma + 200 < buckMa → 50 ≤ us →
    fires (.sShort k buckMa ma us) s fun t =>
      t.ls[k].st = .latched ∧ bit t.ls[k].fault 1 = true ∧ fld t.ls[k].faultInfo 0 4 = 2 ∧
      t.ls[k].faultTime = s.count ∧ (lsOn s.ls[k].st = true → t.ls[k].onUs = s.ls[k].onUs + (s.now - s.ls[k].onAt)) ∧
      onlyAt k s.ls t.ls ∧ onlyTouches [.fab, .dig, .ls, .adm] s t) ∧
  (∀ (s : State) (k : Fin 3) (ma us : Nat),
    s.lsUp k = true → s.ls[k].st = .on → 2 * ma < s.ls[k].setMa s.now → 1000 ≤ us →
    fires (.sOpen k ma us true) s fun t =>
      t.ls[k].st = .latched ∧ bit t.ls[k].fault 0 = true ∧ fld t.ls[k].faultInfo 0 4 = 1 ∧
      t.ls[k].faultTime = s.count ∧ (lsOn s.ls[k].st = true → t.ls[k].onUs = s.ls[k].onUs + (s.now - s.ls[k].onAt)) ∧
      onlyAt k s.ls t.ls ∧ onlyTouches [.fab, .dig, .ls, .adm] s t) ∧
  (∀ (s : State) (k : Fin 3) (ma us : Nat),
    s.lsUp k = true → s.ls[k].st = .on → 10 * ma < 9 * s.ls[k].setMa s.now → 1000 ≤ us →
    fires (.stringSat k ma us true) s fun t =>
      t.ls[k] = { s.ls[k] with sat := true } ∧ onlyAt k s.ls t.ls ∧ onlyTouches [.fab, .ls] s t) ∧
  (∀ (s : State) (k : Fin 3) (ma us : Nat) (atLim : Bool),
    s.lsUp k = true → s.ls[k].st = .on → 9 * s.ls[k].setMa s.now ≤ 10 * ma → 1000 ≤ us →
    fires (.stringSat k ma us atLim) s fun t =>
      t.ls[k] = { s.ls[k] with sat := false } ∧ onlyAt k s.ls t.ls ∧ onlyTouches [.fab, .ls] s t) ∧
  (∀ (s : State) (k : Fin 3) (tj : Int),
    s.lsUp k = true → s.ls[k].tl = false → 2800 ≤ tj →
    (lsOn s.ls[k].st = true ∨ s.ls[k].st = .pending ∨ s.ls[k].st = .uvWait) →
    fires (.stringThermal k tj) s fun t =>
      t.ls[k].tl = true ∧ t.ls[k].tj = tj ∧ t.ls[k].st = .latched ∧ bit t.ls[k].fault 2 = true ∧
      fld t.ls[k].faultInfo 0 4 = 3 ∧ t.ls[k].faultTime = s.count ∧
      (lsOn s.ls[k].st = true → t.ls[k].onUs = s.ls[k].onUs + (s.now - s.ls[k].onAt)) ∧ onlyAt k s.ls t.ls ∧
      onlyTouches [.fab, .hs, .dig, .vg, .ls, .adm] s t) ∧
  (∀ (s : State) (k : Fin 3) (tj : Int),
    s.lsUp k = true → s.ls[k].tl = false → 2800 ≤ tj →
    (s.ls[k].st = .disabled ∨ s.ls[k].st = .off ∨ s.ls[k].st = .latched) →
    fires (.stringThermal k tj) s fun t =>
      t.ls[k] = { s.ls[k] with tl := true, tj := tj, fault := s.ls[k].fault ||| 4 } ∧ onlyAt k s.ls t.ls ∧
      onlyTouches [.fab, .hs, .dig, .vg, .ls, .adm] s t) ∧
  (∀ (s : State) (k : Fin 3) (i : Fin 8) (mv ns : Nat),
    (lsOn s.ls[k].st = false ∨ s.ls[k].segs[i].lit < 800 ∨ s.ls[k].segs[i].bypass = true ∨ mv ≤ s.ls[k].vOpen * 250 ∨
      ns < 1000) →
    fires (.segOpen k i mv ns) s fun t =>
      t = s) ∧
  (∀ (s : State) (k : Fin 3) (buckMa ma us : Nat), (lsOn s.ls[k].st = false ∨ buckMa ≤ ma + 200 ∨ us < 50) →
    fires (.sShort k buckMa ma us) s fun t =>
      t = s) ∧
  (∀ (s : State) (k : Fin 3) (ma us : Nat) (atLim : Bool),
    (s.ls[k].st ≠ .on ∨ s.ls[k].setMa s.now ≤ 2 * ma ∨ us < 1000 ∨ atLim = false) →
    fires (.sOpen k ma us atLim) s fun t =>
      t = s) ∧
  (∀ (s : State) (k : Fin 3) (tj : Int), (s.ls[k].tl = true ∨ tj < 2800) →
    fires (.stringThermal k tj) s fun t =>
      t = s) ∧
  (∀ (s : State) (k : Fin 3) (tj : Int), (s.ls[k].tl = false ∨ 2480 < tj) →
    fires (.stringThermalLatchClear k tj) s fun t =>
      t = s) ∧
  (∀ (s : State) (k : Fin 3) (tj : Int), s.lsUp k = true → s.ls[k].tl = true → tj ≤ 2480 →
    fires (.stringThermalLatchClear k tj) s fun t =>
      t.ls[k].tl = false ∧ t.ls[k].tj = tj ∧
      (t.ls[k].st = (if s.ls[k].st = .uvWait ∧ s.ls[k].bankOk = true then .pending else s.ls[k].st)) ∧
      (s.ls[k].st = .uvWait → s.ls[k].bankOk = true → t.adm.inbox = s.adm.inbox ++ [.own (64 + k.val) (s.lsPrio k
        s.ls[k].limp) t.ls[k].iCont (fld s.ls[k].start 16 16) 0 .restart]) ∧
      onlyAt k s.ls t.ls ∧ onlyTouches [.hs, .dig, .vg, .ls, .adm, .free] s t) ∧
  (∀ (s : State) (k : Fin 3) (ma us : Nat) (b : Bool), (s.lsUp k = false ∨ s.ls[k].st ≠ .on ∨ us < 1000) →
    fires (.stringSat k ma us b) s fun t =>
      t = s)

/-! ## Lantern chains -/

/-- Commands to a lantern chain (R290 to R294, R311). -/
def Obligations.ChainCommandsStartAndStopRuns : Prop :=
  (∀ (s : State) (c : Fin 4) (k : Fin 8),
    canStore s (islLc k.val) 5 → s.lc[k].st = .idle → bit s.pwr.holdStat 4 = false →
    fires (.go c k) s fun t =>
      t.lc[k] =
        { s.lc[k] with st := .pending, cont := s.lc[k].contBit, stopReq := none, nextAt := s.now, cmdRes := 0 } ∧
      onlyAt k s.lc t.lc ∧ t.answer = .done ∧ onlyTouches [.fab, .answer, .lc, .pmc, .free] s t) ∧
  (∀ (s : State) (c : Fin 4) (k : Fin 8),
    canStore s (islLc k.val) 5 → (s.lc[k].st ≠ .idle ∨ bit s.pwr.holdStat 4 = true) →
    fires (.go c k) s fun t =>
      t.lc[k] = { s.lc[k] with cmdRes := 2 } ∧ onlyAt k s.lc t.lc ∧ onlyTouches [.fab, .answer, .lc, .pmc, .free] s t) ∧
  (∀ (s : State) (c : Fin 4) (k : Fin 8), canStore s (islLc k.val) 5 → s.lc[k].cont = true → s.lc[k].st = .pending →
    fires (.stop c k) s fun t =>
      t.lc[k] = { s.lc[k] with st := .idle, stopReq := none, cont := false, cmdRes := 0 } ∧ onlyAt k s.lc t.lc ∧
      onlyTouches [.fab, .answer, .lc, .pmc, .free] s t) ∧
  (∀ (s : State) (c : Fin 4) (k : Fin 8), canStore s (islLc k.val) 5 → s.lc[k].cont = true → s.lc[k].st = .frame →
    fires (.stop c k) s fun t =>
      t.lc[k] = { s.lc[k] with stopReq := some 0, cmdRes := 0 } ∧ onlyAt k s.lc t.lc ∧
      onlyTouches [.fab, .answer, .lc, .pmc, .free] s t) ∧
  (∀ (s : State) (c : Fin 4) (k : Fin 8),
    canStore s (islLc k.val) 5 → (s.lc[k].cont = false ∨ s.lc[k].running = false) →
    fires (.stop c k) s fun t =>
      t.lc[k] = { s.lc[k] with cmdRes := 0 } ∧ onlyAt k s.lc t.lc ∧ onlyTouches [.fab, .answer, .lc, .pmc, .free] s t) ∧
  (∀ (s : State) (c : Fin 4) (k : Fin 8), canStore s (islLc k.val) 5 →
    fires (.swap c k) s fun t =>
      t.lc[k] = { s.lc[k] with swapPend := true, cmdRes := 0 } ∧ onlyAt k s.lc t.lc ∧
      onlyTouches [.fab, .answer, .lc, .pmc, .free] s t) ∧
  (∀ (s : State) (c : Fin 4) (k : Fin 8) (same : Bool) (o : List LcFrame) (f : LcFrame),
    canStore s (islLc k.val) 5 → (same && s.lc[k].lastEnd == some s.now) = false → s.lc[k].st = .frame →
    s.now < s.lc[k].frameEnd → s.lc[k].out = o ++ [f] →
    fires (.abort c k same) s fun t =>
      (t.lc[k] =
        { s.lc[k] with st := .idle, stopReq := none, cont := false, cmdRes := 0, out := o ++ [{ f with aborted := true }], waitM := (if min f.nsh ((s.now - (f.hdrAt + 8)) / 6) < s.lc[k].nref then some f.m else none) })
        ∧
      onlyAt k s.lc t.lc ∧ onlyTouches [.fab, .answer, .lc, .pmc, .free] s t) ∧
  (∀ (s : State) (c : Fin 4) (k : Fin 8) (same : Bool),
    canStore s (islLc k.val) 5 → (same && s.lc[k].lastEnd == some s.now) = false →
    (s.lc[k].st = .pending ∨ (s.lc[k].st = .frame ∧ s.lc[k].frameEnd ≤ s.now)) →
    fires (.abort c k same) s fun t =>
      t.lc[k] = { s.lc[k] with st := .idle, stopReq := none, cont := false, cmdRes := 0 } ∧ onlyAt k s.lc t.lc ∧
      onlyTouches [.fab, .answer, .lc, .pmc, .free] s t) ∧
  (∀ (s : State) (c : Fin 4) (k : Fin 8) (same : Bool),
    canStore s (islLc k.val) 5 → (same && s.lc[k].lastEnd == some s.now) = false → s.lc[k].running = false →
    fires (.abort c k same) s fun t =>
      t.lc[k] = { s.lc[k] with cmdRes := 0 } ∧ onlyAt k s.lc t.lc ∧ onlyTouches [.fab, .answer, .lc, .pmc, .free] s t) ∧
  (∀ (s : State) (c : Fin 4) (k : Fin 8) (same : Bool),
    canStore s (islLc k.val) 5 → (same && s.lc[k].lastEnd == some s.now) = true →
    fires (.abort c k same) s fun t =>
      t.lc[k] = { s.lc[k] with cmdRes := 1 } ∧ onlyAt k s.lc t.lc ∧ onlyTouches [.fab, .answer, .lc, .pmc, .free] s t) ∧
  (∀ (s : State) (c : Fin 4) (k : Fin 8) (v : W32), canStore s (islLc k.val) 5 →
    fires (.chainDisable c k v) s fun t =>
      t.lc[k].st = .disabled ∧ t.lc[k].out = [] ∧ t.lc[k].waitM = none ∧
      t.lc[k].ctl = keep 0x3F1F (v &&& 0xFFFFFFFE) ∧ t.lc[k].cmdRes = 0 ∧
      (t.lc[k].rx = (if s.lc[k].rx = .mine then .dropped else s.lc[k].rx)) ∧ t.lc[k].txSeq = s.lc[k].txSeq ∧
      onlyAt k s.lc t.lc ∧ onlyTouches [.fab, .answer, .lc, .pmc, .free] s t) ∧
  (∀ (s : State) (c : Fin 4) (m : BitVec 8), canStore s 9 5 →
    fires (.globalGo c m) s fun t =>
      (∀ k : Fin 8, t.lc[k] = (if m.toNat.testBit k.val ∧ s.lcUp k = true then (if s.lc[k].st = .idle ∧ bit
        s.pwr.holdStat 4 = false then
        { s.lc[k] with st := .pending, cont := s.lc[k].contBit, stopReq := none, nextAt := s.now, cmdRes := 0 } else
        { s.lc[k] with cmdRes := 2 }) else s.lc[k])) ∧
      onlyTouches [.fab, .answer, .lc, .pmc, .free] s t) ∧
  (∀ (s : State) (c : Fin 4) (m : BitVec 8), canStore s 9 5 →
    fires (.globalStop c m) s fun t =>
      (∀ k : Fin 8, m.toNat.testBit k.val = true → s.lcUp k = true → s.lc[k].cont = true → s.lc[k].st = .pending →
        t.lc[k] = { s.lc[k] with st := .idle, stopReq := none, cont := false, cmdRes := 0 }) ∧
      (∀ k : Fin 8, m.toNat.testBit k.val = true → s.lcUp k = true → s.lc[k].cont = true → s.lc[k].st = .frame →
        t.lc[k] = { s.lc[k] with stopReq := some 0, cmdRes := 0 }) ∧
      (∀ k : Fin 8, m.toNat.testBit k.val = true → s.lcUp k = true → s.lc[k].cont = false ∨ s.lc[k].running = false →
        t.lc[k] = { s.lc[k] with cmdRes := 0 }) ∧
      (∀ k : Fin 8, m.toNat.testBit k.val = false ∨ s.lcUp k = false → t.lc[k] = s.lc[k]) ∧
      onlyTouches [.fab, .answer, .lc, .pmc, .free] s t) ∧
  (∀ (s : State) (c : Fin 4) (k : Fin 8) (v : W32), canStore s (islLc k.val) 5 →
    fires (.chainFrameWrite c k v) s fun t =>
      (t.lc[k] = (if fld v 0 4 = 0 ∨ 5 < fld v 0 4 then { s.lc[k] with cmdRes := 3 } else
        { s.lc[k] with frame := keep 0x3FFFFF0F v, cmdRes := 0 })) ∧
      onlyAt k s.lc t.lc ∧ onlyTouches [.fab, .answer, .lc, .pmc, .free] s t) ∧
  (∀ (s : State) (c : Fin 4) (k : Fin 8) (i : Fin 2) (v : W32),
    canStore s (islLc k.val) 5 → fld v 0 24 % 32 = 0 → fld v 0 24 + 0x60000 ≤ 0x1000000 →
    fires (.chainBaseWrite c k true i v) s fun t =>
      t.lc[k].outBase[i] = keep 0xFFFFFF v ∧ onlyAt i s.lc[k].outBase t.lc[k].outBase ∧
      t.lc[k].retBase = s.lc[k].retBase ∧ t.lc[k].cmdRes = 0 ∧ onlyAt k s.lc t.lc ∧
      onlyTouches [.fab, .answer, .lc, .pmc, .free] s t) ∧
  (∀ (s : State) (c : Fin 4) (k : Fin 8) (i : Fin 2) (v : W32),
    canStore s (islLc k.val) 5 → fld v 0 24 % 32 = 0 → fld v 0 24 + 0x20000 ≤ 0x1000000 →
    fires (.chainBaseWrite c k false i v) s fun t =>
      t.lc[k].retBase[i] = keep 0xFFFFFF v ∧ onlyAt i s.lc[k].retBase t.lc[k].retBase ∧
      t.lc[k].outBase = s.lc[k].outBase ∧ t.lc[k].cmdRes = 0 ∧ onlyAt k s.lc t.lc ∧
      onlyTouches [.fab, .answer, .lc, .pmc, .free] s t) ∧
  (∀ (s : State) (c : Fin 4) (k : Fin 8) (o : Bool) (i : Fin 2) (v : W32),
    canStore s (islLc k.val) 5 → (fld v 0 24 % 32 ≠ 0 ∨ 0x1000000 < fld v 0 24 + (if o then 0x60000 else 0x20000)) →
    fires (.chainBaseWrite c k o i v) s fun t =>
      t.lc[k] = { s.lc[k] with cmdRes := 3 } ∧ onlyAt k s.lc t.lc ∧ onlyTouches [.fab, .answer, .lc, .pmc, .free] s t)

/-- Frame start and end (R286 to R291, R306), complete returns (R299), echo timeout (R296) and glitches (R300). -/
def Obligations.ChainFramesGoOutAndReturnsComeIn : Prop :=
  (∀ (s : State) (k : Fin 8) (late : List Nat),
    s.lcUp k = true → s.tmbRuns = true → s.lc[k].st = .pending → s.lc[k].mustWait = false → s.isStopped 5 = false →
    s.bulkOk = true →
    fires (.chainFrameStart k late) s fun t =>
      t.now = max s.now s.lc[k].nextAt ∧ t.lc[k].st = .frame ∧ t.lc[k].txSeq = (s.lc[k].txSeq + 1) % 65536 ∧
      t.lc[k].outAct = (s.lc[k].outAct != s.lc[k].swapPend) ∧ t.lc[k].swapPend = false ∧
      t.lc[k].out.length = s.lc[k].out.length + 1 ∧
      (t.lc[k].waitM = (if s.lc[k].nsh < s.lc[k].nref then some s.lc[k].txSeq else none)) ∧
      ((late.any fun p => decide (p < s.lc[k].nsh)) = true → bit t.lc[k].err 8 = true) ∧
      t.lc[k].nextAt = max t.lc[k].frameEnd (t.now + s.lc[k].perUs) ∧
      (∃ f, t.lc[k].out = s.lc[k].out ++ [f] ∧ f.m = s.lc[k].txSeq ∧ f.hcmd = s.lc[k].hcmd ∧ f.nsh = s.lc[k].nsh ∧
        f.hdr = lcHeader s.lc[k].hcmd s.lc[k].harg s.lc[k].nsh ∧ f.startAt = t.now ∧ f.aborted = false ∧
        t.lc[k].frameEnd = t.now + s.lc[k].resetUs + 8 + 6 * s.lc[k].nsh ∧ f.shares.length = s.lc[k].nsh ∧ f.base =
        fld (s.lc[k].outBase[b2n t.lc[k].outAct]'(by cases t.lc[k].outAct <;> decide)) 0 24 ∧ (∀ p : Nat, p ∈ late →
        f.shares.getD p 0 = 0) ∧ (s.ecc = [] → ∀ p : Nat, p < s.lc[k].nsh → ¬ p ∈ late → f.shares.getD p 0 = (memGet
        s.mem (bulkBase + f.base + 3 * p)).toNat + 256 * (memGet s.mem (bulkBase + f.base + 3 * p + 1)).toNat + 65536
        * (memGet s.mem (bulkBase + f.base + 3 * p + 2)).toNat)) ∧
      t.mem = s.mem ∧ onlyAt k s.lc t.lc ∧ onlyTouches [.tmb, .fab, .pwr, .sys, .ecc, .lc, .pmc, .dep, .nv, .free] s t) ∧
  (∀ (s : State) (k : Fin 8) (late : List Nat),
    s.lcUp k = true → s.tmbRuns = true → s.lc[k].st = .pending → s.lc[k].mustWait = false → s.isStopped 5 = false →
    s.bulkOk = false →
    fires (.chainFrameStart k late) s fun t =>
      t.lc[k].st = .frame ∧ (s.lc[k].nsh ≠ 0 → bit t.lc[k].err 8 = true) ∧
      (∃ f, t.lc[k].out = s.lc[k].out ++ [f] ∧ f.m = s.lc[k].txSeq ∧ f.nsh = s.lc[k].nsh ∧ ∀ p : Nat, f.shares.getD p
        0 = 0) ∧
      t.mem = s.mem ∧ onlyAt k s.lc t.lc ∧ onlyTouches [.tmb, .fab, .pwr, .sys, .ecc, .lc, .pmc, .dep, .nv, .free] s t) ∧
  (∀ (s : State) (k : Fin 8) (late : List Nat),
    (s.lc[k].st ≠ .pending ∨ s.lc[k].mustWait = true ∨ s.isStopped 5 = true) →
    fires (.chainFrameStart k late) s fun t =>
      t = s) ∧
  (∀ (f : LcFrame) (p j n : Nat), p < f.nsh → j < 24 → n < 25 →
      f.bitAt j = bit f.hdr j ∧ f.bitAt (32 + 24 * p + j) = (f.shares.getD p 0).testBit j ∧
      (f.lineAt (25 * (32 + 24 * p + j) + n) = decide (n < (if (f.shares.getD p 0).testBit j then 17 else 7))) ∧
      f.lineAt (25 * (32 + 24 * f.nsh) + n) = false) ∧
  (∀ (s : State) (k : Fin 8), s.lcUp k = true → s.tmbRuns = true → s.lc[k].st = .frame →
    fires (.chainFrameEnd k) s fun t =>
      t.now = max s.now s.lc[k].frameEnd ∧ t.lc[k].lastEnd = some t.now ∧
      (t.lc[k].st = (if s.lc[k].stopReq = none ∧ s.lc[k].cont = true then .pending else .idle)) ∧
      t.lc[k].out = s.lc[k].out ∧ onlyAt k s.lc t.lc ∧
      onlyTouches [.tmb, .fab, .pwr, .ecc, .lc, .pmc, .dep, .nv, .free] s t) ∧
  (∀ (s : State) (k : Fin 8) (e : W32) (b : List W8) (x : Nat), s.lcUp k = true →
    fires (.returnStream k true e b x) s fun t =>
      (t.lc[k] = { s.lc[k] with rx := (if s.lc[k].out.isEmpty then .stray else .mine) }) ∧ onlyAt k s.lc t.lc ∧
      onlyTouches [.fab, .pwr, .sys, .mem, .ecc, .lc, .que, .pmc, .free] s t) ∧
  (∀ (s : State) (k : Fin 8) (e : W32) (b : List W8) (x : Nat),
    s.lcUp k = true → (s.lc[k].rx = .stray ∨ (s.lc[k].rx = .idle ∧ s.lc[k].out = [])) →
    fires (.returnStream k false e b x) s fun t =>
      t.lc[k] =
        { s.lc[k] with rx := .idle, err := s.lc[k].err ||| 0x800, cntOther := satN 16 (s.lc[k].cntOther + 1), retEnd := some s.now }
        ∧
      t.mem = s.mem ∧ onlyAt k s.lc t.lc ∧ onlyTouches [.fab, .pwr, .sys, .mem, .ecc, .lc, .que, .pmc, .free] s t) ∧
  (∀ (s : State) (k : Fin 8) (e : W32) (b : List W8) (x : Nat), s.lcUp k = true → s.lc[k].rx = .dropped →
    fires (.returnStream k false e b x) s fun t =>
      t.lc[k] = { s.lc[k] with rx := .idle } ∧ t.mem = s.mem ∧ onlyAt k s.lc t.lc ∧
      onlyTouches [.fab, .pwr, .sys, .mem, .ecc, .lc, .que, .pmc, .free] s t) ∧
  (∀ (s : State) (k : Fin 8) (e : W32) (b : List W8) (x : Nat) (f : LcFrame) (r : List LcFrame),
    s.bulkOk = true → s.lcUp k = true → s.lc[k].out = f :: r → (s.lc[k].rx = .idle ∨ s.lc[k].rx = .mine) →
    f.aborted = true →
    fires (.returnStream k false e b x) s fun t =>
      t.lc[k] =
        { s.lc[k] with rx := .idle, out := r, err := s.lc[k].err ||| 0x2000, cntOther := satN 16 (s.lc[k].cntOther + 1), retEnd := some s.now }
        ∧
      t.mem = s.mem ∧ onlyAt k s.lc t.lc ∧ onlyTouches [.fab, .pwr, .sys, .mem, .ecc, .lc, .que, .pmc, .free] s t) ∧
  (∀ (s : State) (k : Fin 8) (e : W32) (b : List W8) (x : Nat) (f : LcFrame) (r : List LcFrame),
    s.bulkOk = true → s.lcUp k = true → s.lc[k].out = f :: r → (s.lc[k].rx = .idle ∨ s.lc[k].rx = .mine) →
    f.aborted = false → (lcEchoOk e = false ∨ fld e 0 4 ≠ f.hcmd) →
    fires (.returnStream k false e b x) s fun t =>
      bit t.lc[k].err 1 = true ∧ t.lc[k].out = r ∧ t.lc[k].retHdr = e ∧ t.lc[k].retNodes = 0 ∧ t.lc[k].perrCount = 0 ∧
      t.lc[k].npCount = 0 ∧ t.lc[k].retSeq = (s.lc[k].retSeq + 1) % 65536 ∧
      t.lc[k].cntOther = satN 16 (s.lc[k].cntOther + 1) ∧ t.mem = s.mem ∧ onlyAt k s.lc t.lc ∧
      onlyTouches [.fab, .pwr, .sys, .mem, .ecc, .lc, .que, .pmc, .free] s t) ∧
  (∀ (s : State) (k : Fin 8) (e : W32) (b : List W8) (f : LcFrame) (r : List LcFrame),
    s.canonical → s.ecc = [] → s.bulkOk = true → s.lcUp k = true → s.lc[k].out = f :: r →
    (s.lc[k].rx = .idle ∨ s.lc[k].rx = .mine) → f.aborted = false → shareCmd f.hcmd = false → lcEchoOk e = true →
    fld e 0 4 = f.hcmd → (s.lc[k].chgEn = false ∨ s.lc[k].prev = none) → b.length ≤ 131072 →
    fires (.returnStream k false e b 0) s fun t =>
      t.lc[k].out = r ∧ t.lc[k].rx = .idle ∧ t.lc[k].retHdr = e ∧ t.lc[k].retNodes = b.length ∧
      t.lc[k].retSeq = (s.lc[k].retSeq + 1) % 65536 ∧ t.lc[k].retTime = s.count ∧
      (∀ i, i < b.length → memGet t.mem (bulkBase + fld (s.lc[k].retBase[f.m % 2]'(by omega)) 0 24 + i) = b.getD i 0) ∧
      (∀ a, a < bulkBase + fld (s.lc[k].retBase[f.m % 2]'(by omega)) 0 24 ∨ bulkBase + fld (s.lc[k].retBase[f.m %
        2]'(by omega)) 0 24 + b.length ≤ a → memGet t.mem a = memGet s.mem a) ∧
      t.lc[k].st = s.lc[k].st ∧ onlyAt k s.lc t.lc ∧
      onlyTouches [.fab, .pwr, .sys, .mem, .ecc, .lc, .que, .pmc, .free] s t) ∧
  (∀ (s : State) (k : Fin 8) (f : LcFrame) (r : List LcFrame),
    s.lcUp k = true → s.tmbRuns = true → s.lc[k].out = f :: r → s.lc[k].rx ≠ .mine →
    fires (.echoTimeout k) s fun t =>
      t.now = max s.now (f.hdrAt + s.lc[k].tmoUs) ∧ t.lc[k].out = r ∧
      t.lc[k].cntBreaks = satN 16 (s.lc[k].cntBreaks + 1) ∧ bit t.lc[k].err 0 = true ∧ onlyAt k s.lc t.lc ∧
      onlyTouches [.tmb, .fab, .pwr, .ecc, .lc, .pmc, .dep, .nv, .free] s t) ∧
  (∀ (s : State) (k : Fin 8), (s.lc[k].out = [] ∨ s.lc[k].rx = .mine) →
    fires (.echoTimeout k) s fun t =>
      t = s) ∧
  (∀ (s : State) (k : Fin 8) (x : Nat), s.lcUp k = true → s.lc[k].retEnd = some x → s.now ≤ x + s.lc[k].resetUs →
    fires (.chainGlitch k) s fun t =>
      t.lc[k] = { s.lc[k] with err := s.lc[k].err ||| 0x1000 } ∧ onlyAt k s.lc t.lc ∧ onlyTouches [.fab, .lc] s t) ∧
  (∀ (s : State) (k : Fin 8) (x : Nat), s.lc[k].retEnd = some x → x + s.lc[k].resetUs < s.now →
    fires (.chainGlitch k) s fun t =>
      t = s) ∧
  (∀ (s : State) (k : Fin 8), (s.lcUp k = false ∨ s.lc[k].st ≠ .frame) →
    fires (.chainFrameEnd k) s fun t =>
      t = s) ∧
  (∀ (s : State) (k : Fin 8) (start : Bool) (echo : W32) (body : List W8) (extra : Nat), s.lcUp k = false →
    fires (.returnStream k start echo body extra) s fun t =>
      t = s)

/-! ## Inputs and limp-home -/

/-- Switch inputs sampled and polled (R312 to R315), their supply (R317), analogue inputs (R334) and the sensor supply
(R335, R337). Between 3 V and 6 V the level is a free value, of which nothing is said. -/
def Obligations.InputsAreFilteredAndReported : Prop :=
  (∀ (s : State) (i : Fin 16) (mv : Int) (n : Nat) (closed : Bool),
    s.isUp 0 = true → s.tmbRuns = true → s.siPolled = false → s.inp.vl3Low = false → (mv < 3000 ∨ 6000 < mv) →
    (closed = (if mv < 3000 then !bit s.inp.si[i].cfg 2 else bit s.inp.si[i].cfg 2)) → s.inp.si[i].closed = !closed →
    max 1 (fld s.inp.si[i].cfg 8 8) ≤ n →
    fires (.siChange i mv n) s fun t =>
      (t.inp.si[i] =
        { s.inp.si[i] with closed := closed, chg := true, cnt := 0, closedAt := (if closed then some s.now else s.inp.si[i].closedAt) })
        ∧
      onlyAt i s.inp.si t.inp.si ∧ t.inp.din = s.inp.din ∧ onlyTouches [.fab, .inp, .pwr, .free] s t) ∧
  (∀ (s : State) (i : Fin 16) (mv : Int) (n : Nat) (closed : Bool),
    (mv < 3000 ∨ 6000 < mv) → (closed = (if mv < 3000 then !bit s.inp.si[i].cfg 2 else bit s.inp.si[i].cfg 2)) →
    (s.isUp 0 = false ∨ s.tmbRuns = false ∨ s.siPolled = true ∨ s.inp.vl3Low = true ∨ s.inp.si[i].closed = closed ∨ n
      < max 1 (fld s.inp.si[i].cfg 8 8)) →
    fires (.siChange i mv n) s fun t =>
      t.inp = s.inp ∧ onlyTouches [.fab, .inp, .pwr, .free] s t) ∧
  (∀ (s : State) (i : Fin 16) (mv : Int) (n : Nat), 
    fires (.siChange i mv n) s fun t =>
      onlyAt i s.inp.si t.inp.si ∧ t.inp.si[i].cfg = s.inp.si[i].cfg ∧ onlyTouches [.fab, .inp, .pwr, .free] s t) ∧
  (∀ (s : State) (mv : Vector Int 16), s.tmbRuns = true → s.siPolled = true → s.inp.vl3Low = false →
    fires (.siPoll mv) s fun t =>
      t.now = max s.now (s.inp.pollAt + 8000 * 2 ^ fld s.inp.siPoll 0 3) ∧
      t.inp.pollAt = s.inp.pollAt + 8000 * 2 ^ fld s.inp.siPoll 0 3 ∧
      (∀ i : Fin 16, mv[i] < 3000 ∨ 6000 < mv[i] → t.inp.si[i] = polled s.inp t.now s.inp.si[i] (if mv[i] < 3000 then
        !bit s.inp.si[i].cfg 2 else bit s.inp.si[i].cfg 2)) ∧
      onlyTouches [.tmb, .fab, .inp, .pwr, .ecc, .pmc, .dep, .nv, .free] s t) ∧
  (∀ (s : State) (mv : Vector Int 16), s.tmbRuns = true → s.siPolled = true → s.inp.vl3Low = true →
    fires (.siPoll mv) s fun t =>
      t.inp = { s.inp with pollAt := s.inp.pollAt + 8000 * 2 ^ fld s.inp.siPoll 0 3 } ∧
      onlyTouches [.tmb, .fab, .inp, .pwr, .ecc, .pmc, .dep, .nv, .free] s t) ∧
  (∀ (s : State) (mv : Vector Int 16), s.siPolled = false →
    fires (.siPoll mv) s fun t =>
      t = s) ∧
  (∀ (s : State) (i : Fin 16), 
      (s.isUp 0 = false → s.wetting i = 0) ∧
      (s.siPolled = true → s.now + 200 < s.inp.pollAt + 8000 * 2 ^ fld s.inp.siPoll 0 3 → s.wetting i = 0) ∧
      (s.isUp 0 = true → s.siPolled = false ∨ s.inp.pollAt + 8000 * 2 ^ fld s.inp.siPoll 0 3 ≤ s.now + 200 → s.wetting
        i = (if fld s.inp.si[i].cfg 0 2 = 0 then 0 else if fld s.inp.si[i].cfg 0 2 = 2 then 10 else if fld
        s.inp.si[i].cfg 0 2 = 3 ∧ s.inp.si[i].closedAt.any (fun c => decide (s.now < c + 20000)) = true then 10 else
        2))) ∧
  (∀ (s : State) (mv : Nat), s.isUp 0 = true → s.tmbRuns = true →
    fires (.vl3Low mv) s fun t =>
      t.inp = { s.inp with vl3Low := decide (mv < 9000) } ∧ onlyTouches [.inp] s t) ∧
  (∀ (s : State) (i : Fin 4) (code : BitVec 12) (ma : Nat),
    s.isUp 0 = true →
    (s.pwr.phase = .run ∨ s.pwr.phase = .sleep ∨ s.pwr.phase = .entering ∨ s.pwr.phase = .returning) →
    bit s.inp.ainCtl i.val = true →
    fires (.ainConversion i code ma) s fun t =>
      t.inp.ain[i].code = code.toNat ∧ t.inp.ain[i].last = (code.toNat :: s.inp.ain[i].last).take 8 ∧
      t.inp.ain[i].mv = avgMv t.inp.ain[i].last ∧
      t.inp.ain[i].outside = (decide (t.inp.ain[i].mv < fld s.inp.ainWin[i] 0 16) || decide (fld s.inp.ainWin[i] 16 16
        < t.inp.ain[i].mv)) ∧
      (t.inp.vsMa = (if s.inp.vsOn then satN 16 ma else 0)) ∧ onlyAt i s.inp.ain t.inp.ain ∧
      onlyTouches [.fab, .inp] s t) ∧
  (∀ (s : State) (i : Fin 4) (code : BitVec 12) (ma : Nat),
    s.isUp 0 = true →
    (bit s.inp.ainCtl i.val = false ∨ (s.pwr.phase ≠ .run ∧ s.pwr.phase ≠ .sleep ∧ s.pwr.phase ≠ .entering ∧
      s.pwr.phase ≠ .returning)) →
    fires (.ainConversion i code ma) s fun t =>
      (t.inp = { s.inp with vsMa := (if s.inp.vsOn then satN 16 ma else 0) }) ∧ onlyTouches [.fab, .inp] s t) ∧
  (∀ (s : State) (c : Fin 4) (v : W32), s.coreRuns = true → s.isUp 0 = true →
    fires (.vsensEnable c v) s fun t =>
      t.inp.ainCtl = keep 0x10F (v ||| 0x100) ∧ t.inp.vsOn = (!bit s.inp.ainCtl 8 || s.inp.vsOn) ∧
      t.inp.vsFault = (bit s.inp.ainCtl 8 && s.inp.vsFault) ∧ t.inp.ain = s.inp.ain ∧ t.answer = .done ∧
      onlyTouches [.fab, .answer, .inp, .pmc, .free] s t) ∧
  (∀ (s : State) (ma us : Nat), s.isUp 0 = true → s.inp.vsOn = true → 230 ≤ ma → 1000 ≤ us →
    fires (.vsensFault ma us) s fun t =>
      t.inp = { s.inp with vsOn := false, vsFault := true, vsMa := 0 } ∧ onlyTouches [.fab, .inp] s t) ∧
  (∀ (s : State) (ma us : Nat), s.isUp 0 = true → s.inp.vsOn = true → (ma < 230 ∨ us < 1000) →
    fires (.vsensFault ma us) s fun t =>
      t.inp = { s.inp with vsMa := satN 16 ma } ∧ onlyTouches [.fab, .inp] s t) ∧
  (∀ (s : State) (ma us : Nat), s.inp.vsOn = false →
    fires (.vsensFault ma us) s fun t =>
      t = s) ∧
  (∀ (s : State) (i : Fin 16) (mv : Int) (n : Nat),
    (s.isUp 0 = false ∨ s.tmbRuns = false ∨ s.inp.vl3Low = true ∨ n < max 1 (fld s.inp.si[i].cfg 8 8)) →
    fires (.siChange i mv n) s fun t =>
      t = { s with free := s.free + 1 }) ∧
  (∀ (s : State) (mv : Nat), (s.isUp 0 = false ∨ s.tmbRuns = false) →
    fires (.vl3Low mv) s fun t =>
      t = s) ∧
  (∀ (s : State) (i : Fin 4) (code : BitVec 12) (ma : Nat), s.isUp 0 = false →
    fires (.ainConversion i code ma) s fun t =>
      t = s)

/-- A DIN level (R318, R319), a repeated OFF (R320) and the LIMP pad (R323 to R327) act on their targets. -/
def Obligations.DirectInputsAndTheLimpPadActOnTargets : Prop :=
  (∀ (s : State) (i : Fin 8) (level same : Bool) (half : Nat),
    s.isUp 0 = true → s.tmbRuns = true → s.inp.din[i] = !level → max 1 (fld s.inp.dinCfg 0 8) ≤ half →
    fires (.dinChange i level half same) s fun t =>
      t.inp.din[i] = level ∧ t.inp.dinChg[i] = true ∧ onlyAt i s.inp.din t.inp.din ∧
      (∀ n : Fin 48, s.mapDin (tHs n) = i → s.hs[n].limp = true → s.slotOwned (tHs n) = false → s.hsUp n = true →
        s.isStopped 8 = false → level = bit (s.mapByte (tHs n)) 4 → same = false ∨ s.hs[n].markAt ≠ s.now ∨
        s.hs[n].mark ≠ .grantOn → hsOn t.hs[n].st = false) ∧
      (∀ n : Fin 48, s.mapDin (tHs n) = i → s.hs[n].limp = true → s.slotOwned (tHs n) = false → s.hsUp n = true →
        s.isStopped 8 = false → level = bit (s.mapByte (tHs n)) 4 → same = true → hsOn s.hs[n].st = true →
        s.hs[n].markAt = s.now → s.hs[n].mark = .grantOn → t.hs[n] =
        { s.hs[n] with cmdRes := 1, repeatOff := true, fallSeen := false }) ∧
      (∀ n : Fin 48, s.mapDin (tHs n) ≠ i ∨ (s.hs[n].limp = false ∧ s.follows (tHs n) = false) ∨ s.slotOwned (tHs n) =
        true → t.hs[n] = s.hs[n]) ∧
      onlyTouches [.fab, .hs, .dig, .vg, .vd, .ls, .adm, .inp, .pwr, .free] s t) ∧
  (∀ (s : State) (i : Fin 8) (level same : Bool) (half : Nat),
    (s.inp.din[i] = level ∨ half < max 1 (fld s.inp.dinCfg 0 8)) →
    fires (.dinChange i level half same) s fun t =>
      t = s) ∧
  (∀ (s : State) (n : Fin 48), s.hs[n].repeatOff = true → s.routedLevel (tHs n) = false →
    fires (.routedOffRepeat (tHs n)) s fun t =>
      hsOn t.hs[n].st = false ∧ t.hs[n].st ≠ .pending ∧ t.hs[n].repeatOff = false ∧ onlyAt n s.hs t.hs ∧ t.vd = s.vd ∧
      t.ls = s.ls ∧ onlyTouches [.fab, .hs, .dig, .vg, .vd, .ls, .adm] s t) ∧
  (∀ (s : State) (n : Fin 16), s.vd[n].repeatOff = true → s.routedLevel (tVd n) = false →
    fires (.routedOffRepeat (tVd n)) s fun t =>
      vdOn t.vd[n].st = false ∧ t.vd[n].st ≠ .pending ∧ t.vd[n].repeatOff = false ∧ onlyAt n s.vd t.vd ∧ t.hs = s.hs ∧
      t.ls = s.ls ∧ onlyTouches [.fab, .hs, .dig, .vg, .vd, .ls, .adm] s t) ∧
  (∀ (s : State) (k : Fin 3), s.ls[k].repeatOff = true → s.routedLevel (tLs k) = false →
    fires (.routedOffRepeat (tLs k)) s fun t =>
      lsOn t.ls[k].st = false ∧ t.ls[k].st ≠ .pending ∧ t.ls[k].repeatOff = false ∧ onlyAt k s.ls t.ls ∧ t.hs = s.hs ∧
      t.vd = s.vd ∧ onlyTouches [.fab, .hs, .dig, .vg, .vd, .ls, .adm] s t) ∧
  (∀ (s : State) (x : Fin 67), s.routedLevel x = true →
    fires (.routedOffRepeat x) s fun t =>
      t = s) ∧
  (∀ (s : State) (ms : Nat) (same : Bool),
    s.isUp 0 = true → s.tmbRuns = true → s.inp.active = false → max 1 (fld s.inp.limpCfg 0 8) ≤ ms →
    fires (.limpPadChange true ms same) s fun t =>
      t.inp = { s.inp with pad := true, limpSrc := 0 } ∧
      (∀ x : Fin 67, s.mapSel x = true → s.isUp (islOf x.val) = true → t.inLimp x = true) ∧
      (∀ x : Fin 67, s.mapSel x = false → t.inLimp x = s.inLimp x) ∧
      (∀ n : Fin 48, s.mapSel (tHs n) = true → s.hsUp n = true → s.routedLevel (tHs n) = false → same = false ∨
        s.hs[n].markAt ≠ s.now ∨ s.hs[n].mark ≠ .grantOn → hsOn t.hs[n].st = false) ∧
      (∀ n : Fin 48, s.mapSel (tHs n) = false → t.hs[n] = s.hs[n]) ∧
      onlyTouches [.fab, .hs, .dig, .vg, .vd, .ls, .adm, .inp, .pwr, .free] s t) ∧
  (∀ (s : State) (ms : Nat) (same : Bool),
    s.isUp 0 = true → s.tmbRuns = true → s.inp.pad = true → s.inp.deputy = false → s.inp.expiry = false →
    max 1 (fld s.inp.limpCfg 0 8) ≤ ms →
    fires (.limpPadChange false ms same) s fun t =>
      t.inp = { s.inp with pad := false } ∧ (∀ x : Fin 67, s.isUp (islOf x.val) = true → t.inLimp x = false) ∧
      (∀ n : Fin 48, t.hs[n].st = s.hs[n].st) ∧ onlyTouches [.fab, .hs, .vd, .ls, .inp] s t) ∧
  (∀ (s : State) (level same : Bool) (ms : Nat),
    s.isUp 0 = true → s.tmbRuns = true → s.inp.pad = !level → (s.inp.deputy = true ∨ s.inp.expiry = true) →
    max 1 (fld s.inp.limpCfg 0 8) ≤ ms →
    fires (.limpPadChange level ms same) s fun t =>
      t.inp = { s.inp with pad := level } ∧ t.hs = s.hs ∧ t.vd = s.vd ∧ t.ls = s.ls ∧
      onlyTouches [.fab, .hs, .dig, .vg, .vd, .ls, .adm, .inp, .pwr, .free] s t) ∧
  (∀ (s : State) (level same : Bool) (ms : Nat), (s.inp.pad = level ∨ ms < max 1 (fld s.inp.limpCfg 0 8)) →
    fires (.limpPadChange level ms same) s fun t =>
      t = s)

/-- The limp map is written (R329), committed to the older copy and reloaded from the newer (R330, R332). -/
def Obligations.LimpStoreKeepsTheMap : Prop :=
  (∀ (s : State) (c : Fin 4) (w : Fin 17) (v : W32),
    s.coreRuns = true → s.isUp 0 = true → s.inp.active = false → s.inp.busy = false →
    fires (.lmapWrite c w v) s fun t =>
      (∀ x : Fin 67, t.inp.lmap[x] = (if x.val / 4 = w.val then BitVec.ofNat 8 (fld v (8 * (x.val % 4)) 8) else
        s.inp.lmap[x])) ∧
      t.inp.lmapRes = 0 ∧ t.inp.din = s.inp.din ∧ t.answer = .done ∧
      onlyTouches [.fab, .answer, .inp, .pmc, .free] s t) ∧
  (∀ (s : State) (c : Fin 4) (w : Fin 17) (v : W32),
    s.coreRuns = true → s.isUp 0 = true → (s.inp.active = true ∨ s.inp.busy = true) →
    fires (.lmapWrite c w v) s fun t =>
      t.inp = { s.inp with lmapRes := 2 } ∧ onlyTouches [.fab, .answer, .inp, .pmc, .free] s t) ∧
  (∀ (s : State) (c : Fin 4), s.coreRuns = true → s.isUp 0 = true → s.inp.active = false → s.inp.busy = false →
    fires (.commit c 0xA5C3) s fun t =>
      t.inp = { s.inp with busy := true, lmapRes := 0 } ∧ t.limpStore = s.limpStore ∧
      onlyTouches [.fab, .answer, .inp, .pmc, .free] s t) ∧
  (∀ (s : State) (c : Fin 4) (key : W16),
    s.coreRuns = true → s.isUp 0 = true → (key ≠ 0xA5C3 ∨ s.inp.active = true ∨ s.inp.busy = true) →
    fires (.commit c key) s fun t =>
      t.inp = { s.inp with lmapRes := 2 } ∧ t.limpStore = s.limpStore ∧
      onlyTouches [.fab, .answer, .inp, .pmc, .free] s t) ∧
  (∀ (s : State) (c : Fin 4) (i : Fin 2),
    s.coreRuns = true → s.isUp 0 = true → s.inp.active = false → s.inp.busy = false → newerCopy s.limpStore = some i →
    fires (.reload c 0xA5C3) s fun t =>
      t.inp = { s.inp with lmapRes := 0, lmap := s.limpStore[i].map, seq := s.limpStore[i].seq } ∧
      t.limpStore = s.limpStore ∧ onlyTouches [.fab, .answer, .inp, .pmc, .free] s t) ∧
  (∀ (s : State) (c : Fin 4) (key : W16),
    s.coreRuns = true → s.isUp 0 = true → (key ≠ 0xA5C3 ∨ s.inp.active = true ∨ s.inp.busy = true) →
    fires (.reload c key) s fun t =>
      t.inp = { s.inp with lmapRes := 2 } ∧ t.limpStore = s.limpStore ∧
      onlyTouches [.fab, .answer, .inp, .pmc, .free] s t) ∧
  (∀ (s : State) (c : Fin 4),
    s.coreRuns = true → s.isUp 0 = true → s.inp.active = false → s.inp.busy = false → newerCopy s.limpStore = none →
    fires (.reload c 0xA5C3) s fun t =>
      t.inp = { s.inp with lmapRes := 0, lmap := Vector.replicate 67 0, seq := 0, nvErr := true } ∧
      t.limpStore = s.limpStore ∧ onlyTouches [.fab, .answer, .inp, .pmc, .free] s t) ∧
  (∀ (s : State), (s.inp.busy = false ∨ s.isUp 0 = false) →
    fires (.lmapDone) s fun t =>
      t = s) ∧
  (∀ (s : State), s.inp.busy = true → s.isUp 0 = true →
    fires (.lmapDone) s fun t =>
      t.inp.busy = false ∧ t.inp.lmap = s.inp.lmap ∧
      (∃ i : Fin 2, newerCopy t.limpStore = some i ∧ t.limpStore[i] = LimpCopy.make t.inp.seq s.inp.lmap ∧
        t.limpStore[i].valid = true ∧ onlyAt i s.limpStore t.limpStore) ∧
      onlyTouches [.fab, .inp, .limpStore] s t)

/-! ## Crika v2 -/

namespace Sys2Proof.Claims

/-- Core `c` is at a word boundary where it fetches: CORE runs, the core is clocked, it accepts no interrupt (or goes on
with a stalled word), SEG0 lets PC be fetched, and memory answers. -/
def fetches (s : State) (c : Fin 4) : Bool :=
  s.coreRuns && s.core[c].clocked && (s.core[c].stalled || s.core[c].accept.isNone) &&
    match s.core[c].place 0 s.core[c].pc 4 .fetch with
    | .inl _ => false
    | .inr p => (!isBulk p || s.bulkOk) && eccOf s.ecc (p - p % 4) != 2

/-- The accounts kept of the execution of a word, and its core: nothing else differs. -/
abbrev wordOnly (s t : State) : Prop := onlyTouches [.fab, .answer, .pwr, .sys, .ecc, .que, .core, .pmc, .free] s t

/-- Core `c` has completed a word as `k`: PC moves on, or the repetition counts (R342, R358); no other core differs. -/
abbrev becomes (s t : State) (c : Fin 4) (k : Core) : Prop :=
  t.core[c] = { k.next s.core[c] with stalled := false } ∧ onlyAt c s.core t.core

/-- Core `c` has set PC itself, as `k`. -/
abbrev jumps (s t : State) (c : Fin 4) (k : Core) : Prop :=
  t.core[c] = { k with stalled := false } ∧ onlyAt c s.core t.core

/-- Core `k` with the four flags set (R339). -/
def withFlags (k : Core) (z n c v : Bool) : Core :=
  { k with sw := (k.sw &&& 0xFFF0#16) ||| BitVec.ofNat 16 (b2n z + 2 * b2n n + 4 * b2n c + 8 * b2n v) }

/-- Z and N of a result, with the C and V given (R348). -/
def flagged {w : Nat} (k : Core) (r : BitVec w) (c v : Bool) : Core := withFlags k (r == 0#w) r.msb c v

/-- The sum of R348: C is the carry out of the numbers, V says that the signed sum does not fit. -/
def sumOf {w : Nat} (x y : BitVec w) (cin : Nat) : BitVec w := BitVec.ofNat w (x.toNat + y.toNat + cin)
def sumC {w : Nat} (x y : BitVec w) (cin : Nat) : Bool := decide (2 ^ w ≤ x.toNat + y.toNat + cin)
def sumV {w : Nat} (x y : BitVec w) (cin : Nat) : Bool := decide ((sumOf x y cin).toInt ≠ x.toInt + y.toInt + (cin : Int))

/-- The difference of R348: C is 1 when there is no borrow, V says that the signed difference does not fit. -/
def difOf {w : Nat} (x y : BitVec w) (bin : Nat) : BitVec w := BitVec.ofInt w ((x.toNat : Int) - y.toNat - bin)
def difC {w : Nat} (x y : BitVec w) (bin : Nat) : Bool := decide (y.toNat + bin ≤ x.toNat)
def difV {w : Nat} (x y : BitVec w) (bin : Nat) : Bool := decide ((difOf x y bin).toInt ≠ x.toInt - y.toInt - (bin : Int))

/-- Core `c` has entered vector `vec` (R388 to R390): what is saved, the new SW and PC; registers and segments stay. -/
abbrev enters (s t : State) (c : Fin 4) (vec : Nat) (epc earg : W16) (segNo kind : Nat) (rpt : Bool) : Prop :=
  t.core[c].pc = s.core[c].vbase + BitVec.ofNat 16 (4 * vec) ∧ t.core[c].epc = epc ∧ t.core[c].esw = s.core[c].sw ∧
  t.core[c].sw = (s.core[c].sw &&& 0x0F8F#16) ||| 0x0050#16 ∧ t.core[c].earg = earg ∧
  t.core[c].ecause = BitVec.ofNat 16 (vec + 32 * segNo + 256 * kind + 32768 * b2n rpt) ∧
  t.core[c].erpt = (if rpt then s.core[c].rpt else 0) ∧ t.core[c].rptOn = false ∧ t.core[c].g = s.core[c].g ∧
  t.core[c].seg = s.core[c].seg ∧ t.core[c].halted = s.core[c].halted ∧ onlyAt c s.core t.core

end Sys2Proof.Claims

/-- The arithmetic words (R348, R349): result, flags, PC and nothing else. -/
def Obligations.ArithmeticWordsAddAndSubtract : Prop :=
  (∀ (s : State) (c : Fin 4) (q : BitVec 4) (d a b : BitVec 5), fetches s c = true → s.core[c].cond q = true →
    fires (.add c q d a b) s fun t =>
      becomes s t c (flagged (s.core[c].setReg d (sumOf (s.core[c].reg a) (s.core[c].reg b) (0))) (sumOf
        (s.core[c].reg a) (s.core[c].reg b) (0)) (sumC (s.core[c].reg a) (s.core[c].reg b) (0)) (sumV (s.core[c].reg
        a) (s.core[c].reg b) (0))) ∧
      t.mem = s.mem ∧ wordOnly s t) ∧
  (∀ (s : State) (c : Fin 4) (q : BitVec 4) (d a : BitVec 5) (i : BitVec 11),
    fetches s c = true → s.core[c].cond q = true →
    fires (.addi c q d a i) s fun t =>
      becomes s t c (flagged (s.core[c].setReg d (sumOf (s.core[c].reg a) (i.signExtend 16) (0))) (sumOf
        (s.core[c].reg a) (i.signExtend 16) (0)) (sumC (s.core[c].reg a) (i.signExtend 16) (0)) (sumV (s.core[c].reg
        a) (i.signExtend 16) (0))) ∧
      t.mem = s.mem ∧ wordOnly s t) ∧
  (∀ (s : State) (c : Fin 4) (q : BitVec 4) (d a b : BitVec 5), fetches s c = true → s.core[c].cond q = true →
    fires (.adc c q d a b) s fun t =>
      becomes s t c (flagged (s.core[c].setReg d (sumOf (s.core[c].reg a) (s.core[c].reg b) (b2n s.core[c].cf)))
        (sumOf (s.core[c].reg a) (s.core[c].reg b) (b2n s.core[c].cf)) (sumC (s.core[c].reg a) (s.core[c].reg b) (b2n
        s.core[c].cf)) (sumV (s.core[c].reg a) (s.core[c].reg b) (b2n s.core[c].cf))) ∧
      t.mem = s.mem ∧ wordOnly s t) ∧
  (∀ (s : State) (c : Fin 4) (q : BitVec 4) (d a b : BitVec 5), fetches s c = true → s.core[c].cond q = true →
    fires (.sub c q d a b) s fun t =>
      becomes s t c (flagged (s.core[c].setReg d (difOf (s.core[c].reg a) (s.core[c].reg b) (0))) (difOf
        (s.core[c].reg a) (s.core[c].reg b) (0)) (difC (s.core[c].reg a) (s.core[c].reg b) (0)) (difV (s.core[c].reg
        a) (s.core[c].reg b) (0))) ∧
      t.mem = s.mem ∧ wordOnly s t) ∧
  (∀ (s : State) (c : Fin 4) (q : BitVec 4) (d a b : BitVec 5), fetches s c = true → s.core[c].cond q = true →
    fires (.sbc c q d a b) s fun t =>
      becomes s t c (flagged (s.core[c].setReg d (difOf (s.core[c].reg a) (s.core[c].reg b) (b2n (!s.core[c].cf))))
        (difOf (s.core[c].reg a) (s.core[c].reg b) (b2n (!s.core[c].cf))) (difC (s.core[c].reg a) (s.core[c].reg b)
        (b2n (!s.core[c].cf))) (difV (s.core[c].reg a) (s.core[c].reg b) (b2n (!s.core[c].cf)))) ∧
      t.mem = s.mem ∧ wordOnly s t) ∧
  (∀ (s : State) (c : Fin 4) (q : BitVec 4) (a b : BitVec 5), fetches s c = true → s.core[c].cond q = true →
    fires (.cmp c q a b) s fun t =>
      becomes s t c (flagged (s.core[c]) (difOf (s.core[c].reg a) (s.core[c].reg b) (0)) (difC (s.core[c].reg a)
        (s.core[c].reg b) (0)) (difV (s.core[c].reg a) (s.core[c].reg b) (0))) ∧
      t.mem = s.mem ∧ wordOnly s t) ∧
  (∀ (s : State) (c : Fin 4) (q : BitVec 4) (a : BitVec 5) (i : BitVec 11),
    fetches s c = true → s.core[c].cond q = true →
    fires (.cmpi c q a i) s fun t =>
      becomes s t c (flagged (s.core[c]) (difOf (s.core[c].reg a) (i.signExtend 16) (0)) (difC (s.core[c].reg a)
        (i.signExtend 16) (0)) (difV (s.core[c].reg a) (i.signExtend 16) (0))) ∧
      t.mem = s.mem ∧ wordOnly s t) ∧
  (∀ (s : State) (c : Fin 4) (q : BitVec 4) (d a b : BitVec 5),
    fetches s c = true → s.core[c].cond q = true → odd d = false → odd a = false → odd b = false →
    fires (.add32 c q d a b) s fun t =>
      becomes s t c (flagged (s.core[c].setPair d (sumOf (s.core[c].pair a) (s.core[c].pair b) (0))) (sumOf
        (s.core[c].pair a) (s.core[c].pair b) (0)) (sumC (s.core[c].pair a) (s.core[c].pair b) (0)) (sumV
        (s.core[c].pair a) (s.core[c].pair b) (0))) ∧
      t.mem = s.mem ∧ wordOnly s t) ∧
  (∀ (s : State) (c : Fin 4) (q : BitVec 4) (d a b : BitVec 5),
    fetches s c = true → s.core[c].cond q = true → odd d = false → odd a = false → odd b = false →
    fires (.sub32 c q d a b) s fun t =>
      becomes s t c (flagged (s.core[c].setPair d (difOf (s.core[c].pair a) (s.core[c].pair b) (0))) (difOf
        (s.core[c].pair a) (s.core[c].pair b) (0)) (difC (s.core[c].pair a) (s.core[c].pair b) (0)) (difV
        (s.core[c].pair a) (s.core[c].pair b) (0))) ∧
      t.mem = s.mem ∧ wordOnly s t) ∧
  (∀ (s : State) (c : Fin 4) (q : BitVec 4) (a b : BitVec 5),
    fetches s c = true → s.core[c].cond q = true → odd a = false → odd b = false →
    fires (.cmp32 c q a b) s fun t =>
      becomes s t c (flagged (s.core[c]) (difOf (s.core[c].pair a) (s.core[c].pair b) (0)) (difC (s.core[c].pair a)
        (s.core[c].pair b) (0)) (difV (s.core[c].pair a) (s.core[c].pair b) (0))) ∧
      t.mem = s.mem ∧ wordOnly s t)

/-- The logic and shift words (R348, R349). -/
def Obligations.LogicAndShiftWordsKeepOrSetCarry : Prop :=
  (∀ (s : State) (c : Fin 4) (q : BitVec 4) (d a b : BitVec 5), fetches s c = true → s.core[c].cond q = true →
    fires (.and c q d a b) s fun t =>
      becomes s t c (flagged (s.core[c].setReg d (s.core[c].reg a &&& s.core[c].reg b)) (s.core[c].reg a &&&
        s.core[c].reg b) (s.core[c].cf) (s.core[c].v)) ∧
      t.mem = s.mem ∧ wordOnly s t) ∧
  (∀ (s : State) (c : Fin 4) (q : BitVec 4) (d a : BitVec 5) (i : BitVec 11),
    fetches s c = true → s.core[c].cond q = true →
    fires (.andi c q d a i) s fun t =>
      becomes s t c (flagged (s.core[c].setReg d (s.core[c].reg a &&& i.setWidth 16)) (s.core[c].reg a &&& i.setWidth
        16) (s.core[c].cf) (s.core[c].v)) ∧
      t.mem = s.mem ∧ wordOnly s t) ∧
  (∀ (s : State) (c : Fin 4) (q : BitVec 4) (d a b : BitVec 5), fetches s c = true → s.core[c].cond q = true →
    fires (.or c q d a b) s fun t =>
      becomes s t c (flagged (s.core[c].setReg d (s.core[c].reg a ||| s.core[c].reg b)) (s.core[c].reg a |||
        s.core[c].reg b) (s.core[c].cf) (s.core[c].v)) ∧
      t.mem = s.mem ∧ wordOnly s t) ∧
  (∀ (s : State) (c : Fin 4) (q : BitVec 4) (d a : BitVec 5) (i : BitVec 11),
    fetches s c = true → s.core[c].cond q = true →
    fires (.ori c q d a i) s fun t =>
      becomes s t c (flagged (s.core[c].setReg d (s.core[c].reg a ||| i.setWidth 16)) (s.core[c].reg a ||| i.setWidth
        16) (s.core[c].cf) (s.core[c].v)) ∧
      t.mem = s.mem ∧ wordOnly s t) ∧
  (∀ (s : State) (c : Fin 4) (q : BitVec 4) (d a b : BitVec 5), fetches s c = true → s.core[c].cond q = true →
    fires (.xor c q d a b) s fun t =>
      becomes s t c (flagged (s.core[c].setReg d (s.core[c].reg a ^^^ s.core[c].reg b)) (s.core[c].reg a ^^^
        s.core[c].reg b) (s.core[c].cf) (s.core[c].v)) ∧
      t.mem = s.mem ∧ wordOnly s t) ∧
  (∀ (s : State) (c : Fin 4) (q : BitVec 4) (d a : BitVec 5) (i : BitVec 11),
    fetches s c = true → s.core[c].cond q = true →
    fires (.xori c q d a i) s fun t =>
      becomes s t c (flagged (s.core[c].setReg d (s.core[c].reg a ^^^ i.setWidth 16)) (s.core[c].reg a ^^^ i.setWidth
        16) (s.core[c].cf) (s.core[c].v)) ∧
      t.mem = s.mem ∧ wordOnly s t) ∧
  (∀ (s : State) (c : Fin 4) (q : BitVec 4) (d a b : BitVec 5), fetches s c = true → s.core[c].cond q = true →
    fires (.shl c q d a b) s fun t =>
      becomes s t c (flagged (s.core[c].setReg d ((s.core[c].reg a).shiftLeft ((s.core[c].reg b).toNat % 16)))
        ((s.core[c].reg a).shiftLeft ((s.core[c].reg b).toNat % 16)) (decide (0 < (s.core[c].reg b).toNat % 16) &&
        (s.core[c].reg a).getLsbD (16 - (s.core[c].reg b).toNat % 16)) (false)) ∧
      t.mem = s.mem ∧ wordOnly s t) ∧
  (∀ (s : State) (c : Fin 4) (q : BitVec 4) (d a : BitVec 5) (n : BitVec 4),
    fetches s c = true → s.core[c].cond q = true →
    fires (.shli c q d a n) s fun t =>
      becomes s t c (flagged (s.core[c].setReg d ((s.core[c].reg a).shiftLeft (n.toNat))) ((s.core[c].reg a).shiftLeft
        (n.toNat)) (decide (0 < n.toNat) && (s.core[c].reg a).getLsbD (16 - n.toNat)) (false)) ∧
      t.mem = s.mem ∧ wordOnly s t) ∧
  (∀ (s : State) (c : Fin 4) (q : BitVec 4) (d a b : BitVec 5), fetches s c = true → s.core[c].cond q = true →
    fires (.shr c q d a b) s fun t =>
      becomes s t c (flagged (s.core[c].setReg d ((s.core[c].reg a).ushiftRight ((s.core[c].reg b).toNat % 16)))
        ((s.core[c].reg a).ushiftRight ((s.core[c].reg b).toNat % 16)) (decide (0 < (s.core[c].reg b).toNat % 16) &&
        (s.core[c].reg a).getLsbD ((s.core[c].reg b).toNat % 16 - 1)) (false)) ∧
      t.mem = s.mem ∧ wordOnly s t) ∧
  (∀ (s : State) (c : Fin 4) (q : BitVec 4) (d a : BitVec 5) (n : BitVec 4),
    fetches s c = true → s.core[c].cond q = true →
    fires (.shri c q d a n) s fun t =>
      becomes s t c (flagged (s.core[c].setReg d ((s.core[c].reg a).ushiftRight (n.toNat))) ((s.core[c].reg
        a).ushiftRight (n.toNat)) (decide (0 < n.toNat) && (s.core[c].reg a).getLsbD (n.toNat - 1)) (false)) ∧
      t.mem = s.mem ∧ wordOnly s t) ∧
  (∀ (s : State) (c : Fin 4) (q : BitVec 4) (d a b : BitVec 5), fetches s c = true → s.core[c].cond q = true →
    fires (.sar c q d a b) s fun t =>
      becomes s t c (flagged (s.core[c].setReg d ((s.core[c].reg a).sshiftRight ((s.core[c].reg b).toNat % 16)))
        ((s.core[c].reg a).sshiftRight ((s.core[c].reg b).toNat % 16)) (decide (0 < (s.core[c].reg b).toNat % 16) &&
        (s.core[c].reg a).getLsbD ((s.core[c].reg b).toNat % 16 - 1)) (false)) ∧
      t.mem = s.mem ∧ wordOnly s t) ∧
  (∀ (s : State) (c : Fin 4) (q : BitVec 4) (d a : BitVec 5) (n : BitVec 4),
    fetches s c = true → s.core[c].cond q = true →
    fires (.sari c q d a n) s fun t =>
      becomes s t c (flagged (s.core[c].setReg d ((s.core[c].reg a).sshiftRight (n.toNat))) ((s.core[c].reg
        a).sshiftRight (n.toNat)) (decide (0 < n.toNat) && (s.core[c].reg a).getLsbD (n.toNat - 1)) (false)) ∧
      t.mem = s.mem ∧ wordOnly s t)

/-- Multiplication, division (R349, R350), constants, and the pair word (R355). -/
def Obligations.MultiplyDivideConstantAndPairWords : Prop :=
  (∀ (s : State) (c : Fin 4) (q : BitVec 4) (d a b : BitVec 5),
    fetches s c = true → s.core[c].cond q = true → odd d = false →
    fires (.mul c q d a b) s fun t =>
      becomes s t c (flagged (s.core[c].setPair d (BitVec.ofNat 32 ((s.core[c].reg a).toNat * (s.core[c].reg
        b).toNat))) (BitVec.ofNat 32 ((s.core[c].reg a).toNat * (s.core[c].reg b).toNat)) (false) (false)) ∧
      t.mem = s.mem ∧ wordOnly s t) ∧
  (∀ (s : State) (c : Fin 4) (q : BitVec 4) (d a b : BitVec 5),
    fetches s c = true → s.core[c].cond q = true → odd d = false →
    fires (.muls c q d a b) s fun t =>
      becomes s t c (flagged (s.core[c].setPair d (BitVec.ofInt 32 ((s.core[c].reg a).toInt * (s.core[c].reg
        b).toInt))) (BitVec.ofInt 32 ((s.core[c].reg a).toInt * (s.core[c].reg b).toInt)) (false) (false)) ∧
      t.mem = s.mem ∧ wordOnly s t) ∧
  (∀ (s : State) (c : Fin 4) (q : BitVec 4) (d a b : BitVec 5),
    fetches s c = true → s.core[c].cond q = true → odd d = false → s.core[c].reg b ≠ 0 →
    fires (.div c q d a b) s fun t =>
      becomes s t c (flagged (s.core[c].setPair d ((BitVec.ofNat 16 ((s.core[c].reg a).toNat % (s.core[c].reg
        b).toNat) : W16) ++ (BitVec.ofNat 16 ((s.core[c].reg a).toNat / (s.core[c].reg b).toNat) : W16)))
        (BitVec.ofNat 16 ((s.core[c].reg a).toNat / (s.core[c].reg b).toNat) : W16) false (false)) ∧
      t.mem = s.mem ∧ wordOnly s t) ∧
  (∀ (s : State) (c : Fin 4) (q : BitVec 4) (d a b : BitVec 5),
    fetches s c = true → s.core[c].cond q = true → odd d = false → s.core[c].reg b ≠ 0 →
    fires (.divs c q d a b) s fun t =>
      becomes s t c (flagged (s.core[c].setPair d ((BitVec.ofInt 16 ((s.core[c].reg a).toInt.tmod (s.core[c].reg
        b).toInt) : W16) ++ (BitVec.ofInt 16 ((s.core[c].reg a).toInt.tdiv (s.core[c].reg b).toInt) : W16)))
        (BitVec.ofInt 16 ((s.core[c].reg a).toInt.tdiv (s.core[c].reg b).toInt) : W16) false (s.core[c].reg a ==
        0x8000#16 && s.core[c].reg b == 0xFFFF#16)) ∧
      t.mem = s.mem ∧ wordOnly s t) ∧
  (∀ (s : State) (c : Fin 4) (q : BitVec 4) (d a b : BitVec 5),
    fetches s c = true → s.core[c].cond q = true → odd d = false → s.core[c].reg b = 0 → s.core[c].ts = false →
    fires (.div c q d a b) s fun t =>
      enters s t c 5 s.core[c].pc 0 0 3 s.core[c].rptOn ∧ wordOnly s t) ∧
  (∀ (s : State) (c : Fin 4) (q : BitVec 4) (d a b : BitVec 5),
    fetches s c = true → s.core[c].cond q = true → odd d = false → s.core[c].reg b = 0 → s.core[c].ts = false →
    fires (.divs c q d a b) s fun t =>
      enters s t c 5 s.core[c].pc 0 0 3 s.core[c].rptOn ∧ wordOnly s t) ∧
  (∀ (s : State) (c : Fin 4) (q : BitVec 4) (d : BitVec 5) (i : BitVec 11),
    fetches s c = true → s.core[c].cond q = true →
    fires (.movi c q d i) s fun t =>
      becomes s t c (s.core[c].setReg d (i.signExtend 16)) ∧ t.mem = s.mem ∧ wordOnly s t) ∧
  (∀ (s : State) (c : Fin 4) (q : BitVec 4) (d i : BitVec 5), fetches s c = true → s.core[c].cond q = true →
    fires (.movt c q d i) s fun t =>
      becomes s t c (s.core[c].setReg d (BitVec.ofNat 16 (2048 * i.toNat + (s.core[c].reg d).toNat % 2048))) ∧
      t.mem = s.mem ∧ wordOnly s t) ∧
  (∀ (s : State) (c : Fin 4) (q : BitVec 4) (x y : BitVec 13),
    fetches s c = true → s.core[c].cond q = true → (opPair q x y).bad = none →
    fires (.pair c q x y) s fun t =>
      becomes s t c (s.core[c].pairRun x y) ∧ t.mem = s.mem ∧ wordOnly s t) ∧
  (∀ (s : State) (c : Fin 4) (q : BitVec 4) (x y : BitVec 13),
    fetches s c = true → s.core[c].cond q = true → (opPair q x y).bad = none → sOp x = 2 → sOp y = 4 → sRd x ≠ 0 →
    sRd y ≠ 0 →
    fires (.pair c q x y) s fun t =>
      t.core[c].reg (sRd x) = s.core[c].reg (sRd x) + s.core[c].reg (sRs x) ∧
      t.core[c].reg (sRd y) = s.core[c].reg (sRd y) - s.core[c].reg (sRs y) ∧
      t.core[c].cf = decide (s.core[c].reg (sRs y) ≤ s.core[c].reg (sRd y)) ∧ wordOnly s t)

/-- Loads (R349, R351, R352) from memory and registers, and their exceptions (R372, R373). -/
def Obligations.LoadsReadMemoryAndRegisters : Prop :=
  (∀ (s : State) (c : Fin 4) (q : BitVec 4) (d a : BitVec 5) (g : BitVec 3) (o : BitVec 8) (p : Nat),
    fetches s c = true → s.core[c].cond q = true →
    s.core[c].place g.toFin (s.core[c].reg a + o.signExtend 16) 1 .load = .inr p → isReg p = false →
    (isBulk p = false ∨ s.bulkOk = true) → eccOf s.ecc (p - p % 4) ≠ 2 →
    fires (.ldb c q d a g o) s fun t =>
      becomes s t c (s.core[c].setReg d (BitVec.ofNat 16 (memLoad s.mem p 1))) ∧ t.mem = s.mem ∧ wordOnly s t) ∧
  (∀ (s : State) (c : Fin 4) (q : BitVec 4) (d a : BitVec 5) (g : BitVec 3) (o : BitVec 8) (p : Nat),
    fetches s c = true → s.core[c].cond q = true →
    s.core[c].place g.toFin (s.core[c].reg a + o.signExtend 16) 1 .load = .inr p → isReg p = false →
    (isBulk p = false ∨ s.bulkOk = true) → eccOf s.ecc (p - p % 4) ≠ 2 →
    fires (.ldbs c q d a g o) s fun t =>
      becomes s t c (s.core[c].setReg d ((BitVec.ofNat 8 (memLoad s.mem p 1)).signExtend 16)) ∧ t.mem = s.mem ∧
      wordOnly s t) ∧
  (∀ (s : State) (c : Fin 4) (q : BitVec 4) (d a : BitVec 5) (g : BitVec 3) (o : BitVec 8) (p : Nat),
    fetches s c = true → s.core[c].cond q = true →
    s.core[c].place g.toFin (s.core[c].reg a + o.signExtend 16) 2 .load = .inr p → isReg p = false →
    (isBulk p = false ∨ s.bulkOk = true) → eccOf s.ecc (p - p % 4) ≠ 2 →
    fires (.ldw c q d a g o) s fun t =>
      becomes s t c (s.core[c].setReg d (BitVec.ofNat 16 (memLoad s.mem p 2))) ∧ t.mem = s.mem ∧ wordOnly s t) ∧
  (∀ (s : State) (c : Fin 4) (q : BitVec 4) (d a : BitVec 5) (g : BitVec 3) (o : BitVec 8) (p : Nat),
    fetches s c = true → s.core[c].cond q = true → odd d = false →
    s.core[c].place g.toFin (s.core[c].reg a + o.signExtend 16) 4 .load = .inr p → isReg p = false →
    (isBulk p = false ∨ s.bulkOk = true) → eccOf s.ecc (p - p % 4) ≠ 2 →
    fires (.ldp c q d a g o) s fun t =>
      becomes s t c (s.core[c].setPair d (BitVec.ofNat 32 (memLoad s.mem p 4))) ∧ t.mem = s.mem ∧ wordOnly s t) ∧
  (∀ (s : State) (c : Fin 4) (q : BitVec 4) (d a : BitVec 5) (g : BitVec 3) (o : BitVec 8) (p : Nat),
    fetches s c = true → s.core[c].cond q = true → s.core[c].place g.toFin (s.core[c].reg a) 2 .load = .inr p →
    isReg p = false → (isBulk p = false ∨ s.bulkOk = true) → eccOf s.ecc (p - p % 4) ≠ 2 →
    fires (.ldwPost c q d a g o) s fun t =>
      becomes s t c ((s.core[c].setReg a (s.core[c].reg a + o.signExtend 16)).setReg d (BitVec.ofNat 16 (memLoad s.mem
        p 2))) ∧
      t.mem = s.mem ∧ wordOnly s t) ∧
  (∀ (s : State) (c : Fin 4) (q : BitVec 4) (d a : BitVec 5) (g : BitVec 3) (o : BitVec 8) (p : Nat),
    fetches s c = true → s.core[c].cond q = true → odd d = false →
    s.core[c].place g.toFin (s.core[c].reg a) 4 .load = .inr p → isReg p = false →
    (isBulk p = false ∨ s.bulkOk = true) → eccOf s.ecc (p - p % 4) ≠ 2 →
    fires (.ldpPost c q d a g o) s fun t =>
      becomes s t c ((s.core[c].setReg a (s.core[c].reg a + o.signExtend 16)).setPair d (BitVec.ofNat 32 (memLoad
        s.mem p 4))) ∧
      t.mem = s.mem ∧ wordOnly s t) ∧
  (∀ (s : State) (c : Fin 4) (q : BitVec 4) (d a : BitVec 5) (g : BitVec 3) (o : BitVec 8) (p : Nat),
    fetches s c = true → s.core[c].cond q = true → odd d = false →
    s.core[c].place g.toFin (s.core[c].reg a + o.signExtend 16) 4 .load = .inr p → isReg p = true →
    s.isUp (regIsland ((p - regBase) / 65536) (p % 65536)) = true →
    fires (.ldp c q d a g o) s fun t =>
      (∃ v, t.answer = .value v ∧ becomes s t c (s.core[c].setPair d v)) ∧ t.mem = s.mem ∧
      onlyTouches [.tmb, .fab, .answer, .dig, .vg, .adm, .pwr, .sys, .mem, .ecc, .lc, .que, .core, .pmc, .can, .nm,
        .hp, .plk, .free] s t) ∧
  (∀ (s : State) (c : Fin 4) (q : BitVec 4) (d a : BitVec 5) (g : BitVec 3) (o : BitVec 8) (p : Nat),
    fetches s c = true → s.core[c].cond q = true → odd d = false →
    s.core[c].place g.toFin (s.core[c].reg a + o.signExtend 16) 4 .load = .inr p → isReg p = true →
    s.isUp (regIsland ((p - regBase) / 65536) (p % 65536)) = false → s.core[c].ts = false →
    fires (.ldp c q d a g o) s fun t =>
      enters s t c 4 s.core[c].pc (s.core[c].reg a + o.signExtend 16) g.toNat 1 s.core[c].rptOn ∧
      t.answer = .busFault ∧ wordOnly s t) ∧
  (∀ (s : State) (c : Fin 4) (q : BitVec 4) (d a : BitVec 5) (g : BitVec 3) (o : BitVec 8) (e : Trap),
    fetches s c = true → s.core[c].cond q = true →
    s.core[c].place g.toFin (s.core[c].reg a + o.signExtend 16) 1 .load = .inl e → s.core[c].ts = false →
    fires (.ldb c q d a g o) s fun t =>
      enters s t c e.vec s.core[c].pc (s.core[c].reg a + o.signExtend 16) g.toNat 1 s.core[c].rptOn ∧
      (e.vec = 3 ∨ e.vec = 4) ∧ t.mem = s.mem ∧ wordOnly s t) ∧
  (∀ (s : State) (c : Fin 4) (q : BitVec 4) (d a : BitVec 5) (g : BitVec 3) (o : BitVec 8) (e : Trap),
    fetches s c = true → s.core[c].cond q = true →
    s.core[c].place g.toFin (s.core[c].reg a + o.signExtend 16) 2 .load = .inl e → s.core[c].ts = false →
    fires (.ldw c q d a g o) s fun t =>
      enters s t c e.vec s.core[c].pc (s.core[c].reg a + o.signExtend 16) g.toNat 1 s.core[c].rptOn ∧
      (e.vec = 3 ∨ e.vec = 4) ∧ t.mem = s.mem ∧ wordOnly s t)

/-- Stores (R349, R351, R352) to memory and registers, and their exceptions (R372, R373). -/
def Obligations.StoresWriteTheirBytesAlone : Prop :=
  (∀ (s : State) (c : Fin 4) (q : BitVec 4) (d a : BitVec 5) (g : BitVec 3) (o : BitVec 8) (p : Nat),
    fetches s c = true → s.core[c].cond q = true → s.canonical →
    s.core[c].place g.toFin (s.core[c].reg a + o.signExtend 16) 1 .store = .inr p → isReg p = false →
    (isBulk p = false ∨ s.bulkOk = true) → eccOf s.ecc (p - p % 4) ≠ 2 →
    fires (.stb c q d a g o) s fun t =>
      becomes s t c s.core[c] ∧ memLoad t.mem p 1 = (s.core[c].reg d).toNat % 256 ∧
      (∀ x, x < p ∨ p + 1 ≤ x → memGet t.mem x = memGet s.mem x) ∧
      onlyTouches [.fab, .answer, .pwr, .sys, .mem, .ecc, .que, .core, .pmc, .free] s t) ∧
  (∀ (s : State) (c : Fin 4) (q : BitVec 4) (d a : BitVec 5) (g : BitVec 3) (o : BitVec 8) (p : Nat),
    fetches s c = true → s.core[c].cond q = true → s.canonical →
    s.core[c].place g.toFin (s.core[c].reg a + o.signExtend 16) 2 .store = .inr p → isReg p = false →
    (isBulk p = false ∨ s.bulkOk = true) → eccOf s.ecc (p - p % 4) ≠ 2 →
    fires (.stw c q d a g o) s fun t =>
      becomes s t c s.core[c] ∧ memLoad t.mem p 2 = (s.core[c].reg d).toNat ∧
      (∀ x, x < p ∨ p + 2 ≤ x → memGet t.mem x = memGet s.mem x) ∧
      onlyTouches [.fab, .answer, .pwr, .sys, .mem, .ecc, .que, .core, .pmc, .free] s t) ∧
  (∀ (s : State) (c : Fin 4) (q : BitVec 4) (d a : BitVec 5) (g : BitVec 3) (o : BitVec 8) (p : Nat),
    fetches s c = true → s.core[c].cond q = true → s.canonical → odd d = false →
    s.core[c].place g.toFin (s.core[c].reg a + o.signExtend 16) 4 .store = .inr p → isReg p = false →
    (isBulk p = false ∨ s.bulkOk = true) →
    fires (.stp c q d a g o) s fun t =>
      becomes s t c s.core[c] ∧ memLoad t.mem p 4 = (s.core[c].pair d).toNat ∧
      (∀ x, x < p ∨ p + 4 ≤ x → memGet t.mem x = memGet s.mem x) ∧
      onlyTouches [.fab, .answer, .pwr, .sys, .mem, .ecc, .que, .core, .pmc, .free] s t) ∧
  (∀ (s : State) (c : Fin 4) (q : BitVec 4) (d a : BitVec 5) (g : BitVec 3) (o : BitVec 8) (p : Nat),
    fetches s c = true → s.core[c].cond q = true → s.canonical →
    s.core[c].place g.toFin (s.core[c].reg a) 2 .store = .inr p → isReg p = false →
    (isBulk p = false ∨ s.bulkOk = true) → eccOf s.ecc (p - p % 4) ≠ 2 →
    fires (.stwPost c q d a g o) s fun t =>
      becomes s t c (s.core[c].setReg a (s.core[c].reg a + o.signExtend 16)) ∧
      memLoad t.mem p 2 = (s.core[c].reg d).toNat ∧ (∀ x, x < p ∨ p + 2 ≤ x → memGet t.mem x = memGet s.mem x) ∧
      onlyTouches [.fab, .answer, .pwr, .sys, .mem, .ecc, .que, .core, .pmc, .free] s t) ∧
  (∀ (s : State) (c : Fin 4) (q : BitVec 4) (d a : BitVec 5) (g : BitVec 3) (o : BitVec 8) (p : Nat),
    fetches s c = true → s.core[c].cond q = true → s.canonical → odd d = false →
    s.core[c].place g.toFin (s.core[c].reg a) 4 .store = .inr p → isReg p = false →
    (isBulk p = false ∨ s.bulkOk = true) →
    fires (.stpPost c q d a g o) s fun t =>
      becomes s t c (s.core[c].setReg a (s.core[c].reg a + o.signExtend 16)) ∧
      memLoad t.mem p 4 = (s.core[c].pair d).toNat ∧ (∀ x, x < p ∨ p + 4 ≤ x → memGet t.mem x = memGet s.mem x) ∧
      onlyTouches [.fab, .answer, .pwr, .sys, .mem, .ecc, .que, .core, .pmc, .free] s t) ∧
  (∀ (s : State) (c : Fin 4) (q : BitVec 4) (d a : BitVec 5) (g : BitVec 3) (o : BitVec 8) (p : Nat),
    fetches s c = true → s.core[c].cond q = true → odd d = false →
    s.core[c].place g.toFin (s.core[c].reg a + o.signExtend 16) 4 .store = .inr p → isReg p = true →
    s.isUp (regIsland ((p - regBase) / 65536) (p % 65536)) = true → s.core[c].rptOn = false →
    fires (.stp c q d a g o) s fun t =>
      t.answer = .done ∧ t.core[c].pc = s.core[c].pc + 4 ∧
      onlyTouches [.tmb, .fab, .answer, .hs, .hsc, .dig, .vlvCtl, .vg, .vd, .lmpErr, .ls, .meas, .curve, .adm, .inp,
        .pwr, .sup, .sys, .mem, .ecc, .lc, .que, .core, .pmc, .can, .nm, .hp, .plk, .dep, .nv, .free] s t) ∧
  (∀ (s : State) (c : Fin 4) (q : BitVec 4) (d a : BitVec 5) (g : BitVec 3) (o : BitVec 8) (e : Trap),
    fetches s c = true → s.core[c].cond q = true →
    s.core[c].place g.toFin (s.core[c].reg a + o.signExtend 16) 1 .store = .inl e → s.core[c].ts = false →
    fires (.stb c q d a g o) s fun t =>
      enters s t c e.vec s.core[c].pc (s.core[c].reg a + o.signExtend 16) g.toNat 2 s.core[c].rptOn ∧
      (e.vec = 3 ∨ e.vec = 4) ∧ t.mem = s.mem ∧ wordOnly s t) ∧
  (∀ (s : State) (c : Fin 4) (q : BitVec 4) (d a : BitVec 5) (g : BitVec 3) (o : BitVec 8) (e : Trap),
    fetches s c = true → s.core[c].cond q = true →
    s.core[c].place g.toFin (s.core[c].reg a + o.signExtend 16) 2 .store = .inl e → s.core[c].ts = false →
    fires (.stw c q d a g o) s fun t =>
      enters s t c e.vec s.core[c].pc (s.core[c].reg a + o.signExtend 16) g.toNat 2 s.core[c].rptOn ∧
      (e.vec = 3 ∨ e.vec = 4) ∧ t.mem = s.mem ∧ wordOnly s t)

/-- Control transfer (R349, R377, R378), repetition (R358), TRAP, RETI (R392), WAIT (R387). -/
def Obligations.ControlFlowWordsSetPcAndTheStack : Prop :=
  (∀ (s : State) (c : Fin 4) (q : BitVec 4) (d : BitVec 14), fetches s c = true → s.core[c].cond q = true →
    fires (.b c q d) s fun t =>
      jumps s t c (s.core[c].goto (s.core[c].pc + d.signExtend 16 * 4)) ∧ wordOnly s t) ∧
  (∀ (s : State) (c : Fin 4) (q : BitVec 4) (d : BitVec 14),
    fetches s c = true → s.core[c].cond q = true → s.core[c].depth < 16 →
    fires (.call c q d) s fun t =>
      (jumps s t c
        { s.core[c].goto (s.core[c].pc + d.signExtend 16 * 4) with rsTop := s.core[c].rsTop + 1, rs := upd s.core[c].rs (Fin.ofNat 16 (s.core[c].rsTop + 1).toNat) fun _ => s.core[c].pc + 4, rsDepth := BitVec.ofNat 5 (s.core[c].depth + 1) })
        ∧
      wordOnly s t) ∧
  (∀ (s : State) (c : Fin 4) (q : BitVec 4) (d : BitVec 14),
    fetches s c = true → s.core[c].cond q = true → s.core[c].depth = 16 → s.core[c].rsMode = false →
    fires (.call c q d) s fun t =>
      t.core[c].rsOvf = true ∧ t.core[c].pc = s.core[c].pc + d.signExtend 16 * 4 ∧
      t.core[c].rs[Fin.ofNat 16 (s.core[c].rsTop + 1).toNat] = s.core[c].pc + 4 ∧ onlyAt c s.core t.core ∧
      wordOnly s t) ∧
  (∀ (s : State) (c : Fin 4) (q : BitVec 4) (d : BitVec 14),
    fetches s c = true → s.core[c].cond q = true → s.core[c].depth = 16 → s.core[c].rsMode = true →
    s.core[c].ts = false →
    fires (.call c q d) s fun t =>
      enters s t c 6 s.core[c].pc 0 0 3 s.core[c].rptOn ∧ t.core[c].rs = s.core[c].rs ∧ wordOnly s t) ∧
  (∀ (s : State) (c : Fin 4) (q : BitVec 4) (a : BitVec 5),
    fetches s c = true → s.core[c].cond q = true → s.core[c].reg a &&& 3#16 = 0 →
    fires (.jmp c q a) s fun t =>
      jumps s t c (s.core[c].goto (s.core[c].reg a)) ∧ wordOnly s t) ∧
  (∀ (s : State) (c : Fin 4) (q : BitVec 4) (a : BitVec 5),
    fetches s c = true → s.core[c].cond q = true → s.core[c].reg a &&& 3#16 ≠ 0 → s.core[c].ts = false →
    fires (.jmp c q a) s fun t =>
      enters s t c 4 s.core[c].pc (s.core[c].reg a) 0 3 s.core[c].rptOn ∧ wordOnly s t) ∧
  (∀ (s : State) (c : Fin 4) (q : BitVec 4) (a : BitVec 5),
    fetches s c = true → s.core[c].cond q = true → s.core[c].reg a &&& 3#16 = 0 → s.core[c].depth < 16 →
    fires (.callr c q a) s fun t =>
      (jumps s t c
        { s.core[c].goto (s.core[c].reg a) with rsTop := s.core[c].rsTop + 1, rs := upd s.core[c].rs (Fin.ofNat 16 (s.core[c].rsTop + 1).toNat) fun _ => s.core[c].pc + 4, rsDepth := BitVec.ofNat 5 (s.core[c].depth + 1) })
        ∧
      wordOnly s t) ∧
  (∀ (s : State) (c : Fin 4) (q : BitVec 4), fetches s c = true → s.core[c].cond q = true → 0 < s.core[c].depth →
    fires (.ret c q) s fun t =>
      jumps s t c
        { s.core[c].goto s.core[c].rs[Fin.ofNat 16 s.core[c].rsTop.toNat] with rsTop := s.core[c].rsTop - 1, rsDepth := BitVec.ofNat 5 (s.core[c].depth - 1) }
        ∧
      wordOnly s t) ∧
  (∀ (s : State) (c : Fin 4) (q : BitVec 4),
    fetches s c = true → s.core[c].cond q = true → s.core[c].depth = 0 → s.core[c].rsMode = true →
    s.core[c].ts = false →
    fires (.ret c q) s fun t =>
      enters s t c 6 s.core[c].pc 1 0 3 s.core[c].rptOn ∧ wordOnly s t) ∧
  (∀ (s : State) (c : Fin 4) (q : BitVec 4),
    fetches s c = true → s.core[c].cond q = true → (s.lookAhead c).any repForbids = false → s.core[c].rc ≠ 0 →
    fires (.rep c q) s fun t =>
      jumps s t c { s.core[c] with pc := s.core[c].pc + 4, rptOn := true, rpt := s.core[c].rc } ∧ wordOnly s t) ∧
  (∀ (s : State) (c : Fin 4) (q : BitVec 4),
    fetches s c = true → s.core[c].cond q = true → (s.lookAhead c).any repForbids = false → s.core[c].rc = 0 →
    fires (.rep c q) s fun t =>
      jumps s t c (s.core[c].goto (s.core[c].pc + 8)) ∧ wordOnly s t) ∧
  (∀ (s : State) (c : Fin 4) (q : BitVec 4),
    fetches s c = true → s.core[c].cond q = true → (s.lookAhead c).any repForbids = true → s.core[c].ts = false →
    fires (.rep c q) s fun t =>
      enters s t c 0 s.core[c].pc 0 0 3 s.core[c].rptOn ∧ wordOnly s t) ∧
  (∀ (s : State) (c : Fin 4) (p : Nat) (i : Instr),
    s.core[c].rptOn = true → fetches s c = true → s.core[c].place 0 s.core[c].pc 4 .fetch = .inr p →
    decodeWord c (BitVec.ofNat 32 (memLoad s.mem p 4)) = some i →
    fires (.repeatIteration c) s fun t =>
      exec (.repeatIteration c) s = exec i s ∧ t.pending = s.pending) ∧
  (∀ (s : State) (c : Fin 4) (p : Nat) (d a b : BitVec 5),
    s.core[c].rptOn = true → fetches s c = true → s.core[c].place 0 s.core[c].pc 4 .fetch = .inr p →
    decodeWord c (BitVec.ofNat 32 (memLoad s.mem p 4)) = some (.add c 14 d a b) →
    fires (.repeatIteration c) s fun t =>
      t.core[c].g = (s.core[c].setReg d (s.core[c].reg a + s.core[c].reg b)).g ∧
      (t.core[c].pc = (if s.core[c].rpt.toNat ≤ 1 then s.core[c].pc + 4 else s.core[c].pc)) ∧
      t.core[c].rptOn = decide (1 < s.core[c].rpt.toNat) ∧
      (1 < s.core[c].rpt.toNat → t.core[c].rpt = s.core[c].rpt - 1) ∧ wordOnly s t) ∧
  (∀ (s : State) (c : Fin 4) (q : BitVec 4) (n : BitVec 8),
    fetches s c = true → s.core[c].cond q = true → s.core[c].ts = false →
    fires (.trap c q n) s fun t =>
      enters s t c 7 (s.core[c].pc + 4) (n.setWidth 16) 0 3 false ∧ wordOnly s t) ∧
  (∀ (s : State) (c : Fin 4) (q : BitVec 4),
    fetches s c = true → s.core[c].cond q = true → s.core[c].k = true → s.core[c].ecause.getLsbD 15 = false →
    s.core[c].seg0Pend = none →
    fires (.reti c q) s fun t =>
      jumps s t c { s.core[c] with sw := s.core[c].esw &&& 0x0FFF#16, pc := s.core[c].epc, rptOn := false, rpt := 0 } ∧
      wordOnly s t) ∧
  (∀ (s : State) (c : Fin 4) (q : BitVec 4),
    fetches s c = true → s.core[c].cond q = true → s.core[c].k = true → s.core[c].ecause.getLsbD 15 = true →
    s.core[c].erpt ≠ 0 → s.core[c].seg0Pend = none →
    fires (.reti c q) s fun t =>
      jumps s t c
        { s.core[c] with sw := s.core[c].esw &&& 0x0FFF#16, pc := s.core[c].epc, rptOn := true, rpt := s.core[c].erpt }
        ∧
      wordOnly s t) ∧
  (∀ (s : State) (c : Fin 4) (q : BitVec 4) (d : SegDesc),
    fetches s c = true → s.core[c].cond q = true → s.core[c].k = true → s.core[c].seg0Pend = some d →
    fires (.reti c q) s fun t =>
      t.core[c].seg[(0 : Fin 8)].d = d ∧ t.core[c].seg0Pend = none ∧ t.core[c].sw = s.core[c].esw &&& 0x0FFF#16 ∧
      onlyAt c s.core t.core ∧ wordOnly s t) ∧
  (∀ (s : State) (c : Fin 4) (q : BitVec 4), fetches s c = true → s.core[c].cond q = true → s.core[c].k = true →
    fires (.wait c q) s fun t =>
      becomes s t c { s.core[c] with waiting := s.core[c].topLine.isNone } ∧ wordOnly s t) ∧
  (∀ (s : State) (c : Fin 4), s.coreRuns = true → s.core[c].waiting = true → s.core[c].topLine.isSome = true →
    fires (.waitResume c) s fun t =>
      t.core[c] = { s.core[c] with waiting := false } ∧ onlyAt c s.core t.core ∧ onlyTouches [.core] s t) ∧
  (∀ (s : State) (c : Fin 4) (l : Nat),
    s.coreRuns = true → s.core[c].clocked = true → s.core[c].stalled = false → s.core[c].accept = some l →
    fires (.interruptEntry c) s fun t =>
      t.core[c].pc = s.core[c].vbase + BitVec.ofNat 16 (4 * (16 + l)) ∧ t.core[c].epc = s.core[c].pc ∧
      t.core[c].esw = s.core[c].sw ∧ t.core[c].lvl = min 16 (l + 1) ∧
      t.core[c].k = true ∧ t.core[c].ts = true ∧ t.core[c].ie = false ∧
      t.core[c].ecause = BitVec.ofNat 16 (16 + l + 32768 * b2n s.core[c].rptOn) ∧ t.core[c].g = s.core[c].g ∧
      t.core[c].rptOn = false ∧ onlyAt c s.core t.core ∧ onlyTouches [.fab, .core, .pmc, .free] s t)

/-- Special registers (R353, R395), segment commit (R370), software lines (R383), start (R394), the event queue window
(R382). -/
def Obligations.SpecialRegistersAndSoftwareLines : Prop :=
  (∀ (s : State) (c : Fin 4) (q : BitVec 4) (d : BitVec 5) (n : BitVec 11),
    fetches s c = true → s.core[c].cond q = true → selListed n.toNat = true → (n.toNat < 0x10 ∨ s.core[c].k = true) →
    fires (.mfs c q d n) s fun t =>
      becomes s t c ((s.core[c].selAfter n.toNat).setReg d (s.selRead c n.toNat)) ∧ wordOnly s t) ∧
  (∀ (s : State) (c : Fin 4) (q : BitVec 4) (d : BitVec 5), fetches s c = true → s.core[c].cond q = true →
    fires (.mfs c q d 2) s fun t =>
      t.core[c].g = (s.core[c].setReg d (BitVec.ofNat 16 c.val)).g ∧ wordOnly s t) ∧
  (∀ (s : State) (q : BitVec 4) (d : BitVec 5), s.depCore.cond q = true →
      (s.deputyRun (opMfs q d 2)).depCore.g = (s.depCore.setReg d 4).g ∧ (s.deputyRun (opMfs q d 2)).core = s.core) ∧
  (∀ (s : State) (c : Fin 4) (q : BitVec 4) (n : BitVec 11) (a : BitVec 5),
    fetches s c = true → s.core[c].cond q = true → selListed n.toNat = true → selRo n.toNat = false → n.toNat ≠ 0x61 →
    n.toNat ≠ 0x91 → (n.toNat < 0x10 ∨ s.core[c].k = true) →
    fires (.mts c q n a) s fun t =>
      becomes s t c (s.core[c].selWrite n.toNat (s.core[c].reg a)) ∧ wordOnly s t) ∧
  (∀ (s : State) (c : Fin 4) (q : BitVec 4) (a : BitVec 5), fetches s c = true → s.core[c].cond q = true →
    fires (.mts c q 1 a) s fun t =>
      t.core[c].rc = s.core[c].reg a ∧ t.core[c].sw = s.core[c].sw ∧ t.core[c].g = s.core[c].g ∧ wordOnly s t) ∧
  (∀ (s : State) (c : Fin 4) (q : BitVec 4) (a : BitVec 5),
    fetches s c = true → s.core[c].cond q = true → s.core[c].k = false →
    fires (.mts c q 0 a) s fun t =>
      t.core[c].sw = (s.core[c].sw &&& 0xFFF0#16) ||| (s.core[c].reg a &&& 0x000F#16) ∧ t.core[c].g = s.core[c].g ∧
      wordOnly s t) ∧
  (∀ (s : State) (c : Fin 4) (q : BitVec 4) (n : Fin 8) (a : BitVec 5),
    fetches s c = true → s.core[c].cond q = true → s.core[c].k = true → n.val ≠ 0 →
    fires (.segAttrCommit c q n a) s fun t =>
      t.core[c].seg[n].d =
        { base := s.core[c].seg[n].stBase, limit := s.core[c].seg[n].stLim, attr := (s.core[c].reg a).setWidth 4 } ∧
      onlyAt n s.core[c].seg t.core[c].seg ∧ t.core[c].g = s.core[c].g ∧ onlyAt c s.core t.core ∧ wordOnly s t) ∧
  (∀ (s : State) (c : Fin 4) (q : BitVec 4) (a : BitVec 5),
    fetches s c = true → s.core[c].cond q = true → s.core[c].k = true →
    fires (.segAttrCommit c q 0 a) s fun t =>
      becomes s t c
        { s.core[c] with seg0Pend := some { base := s.core[c].seg[(0 : Fin 8)].stBase, limit := s.core[c].seg[(0 : Fin 8)].stLim, attr := (s.core[c].reg a).setWidth 4 } }
        ∧
      wordOnly s t) ∧
  (∀ (s : State) (c : Fin 4) (q : BitVec 4) (a : BitVec 5),
    fetches s c = true → s.core[c].cond q = true → s.core[c].k = true →
    fires (.swiSend c q a) s fun t =>
      (∀ x : Fin 4, t.core[x].swi = (if (s.core[c].reg a).getLsbD (8 + x.val) then s.core[x].swi ||| (1#16 <<<
        ((s.core[c].reg a).toNat % 16)) else s.core[x].swi)) ∧
      (∀ x : Fin 4, x ≠ c → t.core[x] = { s.core[x] with swi := t.core[x].swi }) ∧ t.core[c].g = s.core[c].g ∧
      (s.core[c].rptOn = false → t.core[c].pc = s.core[c].pc + 4) ∧ wordOnly s t) ∧
  (∀ (s : State) (c : Fin 4) (q : BitVec 4) (a : BitVec 5),
    fetches s c = true → s.core[c].cond q = true → s.core[c].k = true →
    fires (.swiClr c q a) s fun t =>
      becomes s t c { s.core[c] with swi := s.core[c].swi &&& ~~~s.core[c].reg a } ∧ wordOnly s t) ∧
  (∀ (s : State) (q : BitVec 4) (a : BitVec 5),
    fetches s 0 = true → s.core[(0 : Fin 4)].cond q = true → s.core[(0 : Fin 4)].k = true →
    fires (.startCmd 0 q a) s fun t =>
      (∀ x : Fin 4, x ≠ 0 → t.core[x] = (if (s.core[(0 : Fin 4)].reg a).getLsbD x.val = true ∧ s.core[x].started =
        false then { s.core[x] with started := true, pc := s.core[(0 : Fin 4)].startPc } else s.core[x])) ∧
      t.core[(0 : Fin 4)].g = s.core[(0 : Fin 4)].g ∧ wordOnly s t) ∧
  (∀ (s : State) (c : Fin 4) (q : BitVec 4) (a : BitVec 5),
    fetches s c = true → s.core[c].cond q = true → s.core[c].k = true → c ≠ 0 →
    fires (.startCmd c q a) s fun t =>
      becomes s t c s.core[c] ∧ wordOnly s t) ∧
  (∀ (s : State) (c : Fin 4) (q : BitVec 4) (d : BitVec 5),
    fetches s c = true → s.core[c].cond q = true → s.core[c].k = true →
    fires (.evqW5Read c q d) s fun t =>
      becomes s t c (s.core[c].evqDrop.setReg d (s.core[c].evqWord 5)) ∧ wordOnly s t)

/-- What every word of Crika v2 shares: the condition (R347), exceptions (R365, R388, R391), the interrupt taken first
(R385). -/
def Obligations.EveryWordFollowsTheSameBoundary : Prop :=
  ∀ (s : State) (i : Instr) (c : Fin 4) (op : CoreOp), coreOpOf i = some (c, op) →
    (fetches s c = true → op.bad = none → s.core[c].cond op.cond = false →
      fires i s fun t => becomes s t c s.core[c] ∧ t.mem = s.mem ∧ wordOnly s t) ∧
    (∀ e, fetches s c = true → op.bad = some e → s.core[c].ts = false →
      fires i s fun t => enters s t c e.vec s.core[c].pc 0 0 3 s.core[c].rptOn ∧ e.vec ≤ 1 ∧ t.mem = s.mem ∧
        wordOnly s t) ∧
    (fetches s c = true → op.bad = none → s.core[c].cond op.cond = true → op.priv = true → s.core[c].k = false →
      s.core[c].ts = false →
      fires i s fun t => enters s t c 2 s.core[c].pc 0 0 3 s.core[c].rptOn ∧ t.mem = s.mem ∧ wordOnly s t) ∧
    (∀ e, fetches s c = true → op.bad = some e → s.core[c].ts = true →
      fires i s fun t => t.core[c] = { s.core[c] with halted := true, stalled := false } ∧ onlyAt c s.core t.core ∧
        t.mem = s.mem ∧ wordOnly s t) ∧
    (∀ l, s.coreRuns = true → s.core[c].clocked = true → s.core[c].stalled = false → s.core[c].accept = some l →
      exec i s = exec (.interruptEntry c) s)

/-- Decoding the word of a command gives the command back, and a word that decodes is the word of what it decodes to:
every operand at every value, no reserved encoding taken (R343 to R345). -/
def Obligations.CrikaWordsDecodeBackAndForth : Prop :=
  (∀ (i : Instr) (c : Fin 4) (w : W32), encodeWord i = some (c, w) → decodeWord c w = some (plainInstr i)) ∧
  (∀ (c : Fin 4) (w : W32) (i : Instr), decodeWord c w = some i → encodeWord i = some (c, w) ∧ plainInstr i = i)

/-- Words written bit by bit from the formats of R343 and R344 decode to what they stand for; reserved ones to none.
-/
def Obligations.CrikaWordsReadAsTheTablesSay : Prop :=
  decodeWord 0 (0b0_1110_000000_01010_00010_000000_00011#32) = some (.add 0 14 10 2 3) ∧
  decodeWord 1 (0b0_0000_000001_00001_00010_10000000001#32) = some (.addi 1 0 1 2 0x401) ∧
  decodeWord 2 (0b0_1110_001110_00001_00010_0000000_1010#32) = some (.shli 2 14 1 2 10) ∧
  decodeWord 3 (0b0_1110_010111_00001_00000_11111111111#32) = some (.movi 3 14 1 0x7FF) ∧
  decodeWord 0 (0b0_1110_011100_00001_00000_00001101001#32) = some (.mfs 0 14 1 0x69) ∧
  decodeWord 0 (0b0_1110_100010_00001_11111_001_00000100#32) = some (.ldw 0 14 1 31 1 4) ∧
  decodeWord 0 (0b0_0001_110000_0000000_11111111111111#32) = some (.b 0 1 0x3FFF) ∧
  decodeWord 0 (0b0_1110_110010_00000_00101_00000000000#32) = some (.jmp 0 14 5) ∧
  decodeWord 0 (0b0_1110_110110_00000_00000_000_11001000#32) = some (.trap 0 14 200) ∧
  decodeWord 0 (0b1_1110_0_0001000010010_0010001010110#32) = some (.pair 0 14 0x212 0x456) ∧
  decodeWord 0 (0b0_1110_000000_01010_00010_000001_00011#32) = none ∧
  decodeWord 0 (0b1_1110_1_0001000010010_0010001010110#32) = none ∧
  decodeWord 0 (0b0_1110_111111_00000_00000_00000000000#32) = none

/-! ## Queues and performance counters -/

/-- Queues in order of arrival (R404 to R407), their configuration (R401, R402), flush (R409), high water (R410), idle
(R412). -/
def Obligations.QueuesHoldWordsInOrder : Prop :=
  (∀ (s : State) (c : Fin 4) (q : Fin 32) (v : W32),
    s.coreRuns = true → blockProducer q.val = false → s.que.q[q].en = true →
    s.que.q[q].ents.length < s.que.q[q].depth →
    fires (.queuePush c q v) s fun t =>
      (t.que.q[q].ents = s.que.q[q].ents ++ [if s.que.q[q].w32 then v else v &&& 0xFFFF#32]) ∧
      (t.que.q[q].idleAt = (if s.que.q[q].ents = [] then (if s.que.q[q].idleTmo = 0 then none else some s.now) else
        s.que.q[q].idleAt)) ∧
      t.que.q[q].hw = t.que.q[q].hwNow ∧
      t.que.q[q] = { s.que.q[q] with ents := t.que.q[q].ents, idleAt := t.que.q[q].idleAt, hw := t.que.q[q].hw } ∧
      onlyAt q s.que.q t.que.q ∧ t.que.held = s.que.held ∧ t.answer = .done ∧
      onlyTouches [.fab, .answer, .que, .pmc, .free] s t) ∧
  (∀ (s : State) (c : Fin 4) (q : Fin 32) (v : W32),
    s.coreRuns = true → blockProducer q.val = false →
    (s.que.q[q].en = false ∨ s.que.q[q].depth ≤ s.que.q[q].ents.length) →
    fires (.queuePush c q v) s fun t =>
      t.que.q[q] = { s.que.q[q] with ovf := true, cntOvf := satN 16 (s.que.q[q].cntOvf + 1) } ∧
      onlyAt q s.que.q t.que.q ∧ onlyTouches [.fab, .answer, .que, .pmc, .free] s t) ∧
  (∀ (s : State) (c : Fin 4) (q : Fin 32) (v : W32), s.coreRuns = true → (q.val = 12 ∨ q.val = 14 ∨ 16 ≤ q.val) →
    fires (.queuePush c q v) s fun t =>
      t.que.q[q] = { s.que.q[q] with cmdRes := 2 } ∧ onlyAt q s.que.q t.que.q ∧
      onlyTouches [.fab, .answer, .que, .pmc, .free] s t) ∧
  (∀ (s : State) (c : Fin 4) (q : Fin 32) (v : W32) (r : List W32),
    s.coreRuns = true → q.val ≠ 13 → s.que.q[q].ents = v :: r →
    fires (.queuePop c q none) s fun t =>
      t.answer = .value v ∧ t.que.q[q].ents = r ∧ t.que.q[q].last = v ∧
      (t.que.q[q].idleAt = (if r = [] ∨ s.que.q[q].idleTmo = 0 then none else some s.now)) ∧
      t.que.q[q].hw = t.que.q[q].hwNow ∧
      t.que.q[q] = { s.que.q[q] with ents := r, last := v, idleAt := t.que.q[q].idleAt, hw := t.que.q[q].hw } ∧
      onlyAt q s.que.q t.que.q ∧ onlyTouches [.fab, .answer, .que, .pmc, .free] s t) ∧
  (∀ (s : State) (c : Fin 4) (q : Fin 32), s.coreRuns = true → q.val ≠ 13 → s.que.q[q].ents = [] →
    fires (.queuePop c q none) s fun t =>
      t.answer = .value s.que.q[q].last ∧
      t.que.q[q] = { s.que.q[q] with underrun := true, cntUnd := satN 16 (s.que.q[q].cntUnd + 1) } ∧
      onlyAt q s.que.q t.que.q ∧ onlyTouches [.fab, .answer, .que, .pmc, .free] s t) ∧
  (∀ (s : State) (c : Fin 4), s.coreRuns = true →
    fires (.queuePop c 13 none) s fun t =>
      t.que.q[(13 : Fin 32)] = { s.que.q[(13 : Fin 32)] with cmdRes := 2 } ∧ onlyAt 13 s.que.q t.que.q ∧
      onlyTouches [.fab, .answer, .que, .pmc, .free] s t) ∧
  (∀ (s : State) (c : Fin 4) (q : Fin 32), s.coreRuns = true →
    fires (.queueFlush c q none) s fun t =>
      t.que.q[q] = { s.que.q[q] with ents := [], idleAt := none, hw := false, cmdRes := 0 } ∧
      onlyAt q s.que.q t.que.q ∧ onlyTouches [.fab, .answer, .que, .pmc, .free] s t) ∧
  (∀ (s : State) (c : Fin 4) (q : Fin 32) (v w : W32),
    s.coreRuns = true → q.val ≠ 13 → s.que.q[q].en = true → s.que.q[q].ents = [] →
    (w = (if s.que.q[q].w32 then v else v &&& 0xFFFF#32)) →
    fires (.queuePop c q (some v)) s fun t =>
      t.answer = .value w ∧ t.que.q[q] = { s.que.q[q] with last := w } ∧ onlyAt q s.que.q t.que.q ∧
      onlyTouches [.fab, .answer, .que, .pmc, .free] s t) ∧
  (∀ (s : State) (c : Fin 4) (q : Fin 32) (v w o : W32) (r : List W32),
    s.coreRuns = true → q.val ≠ 13 → s.que.q[q].en = true → s.que.q[q].ents = o :: r →
    (w = (if s.que.q[q].w32 then v else v &&& 0xFFFF#32)) →
    fires (.queuePop c q (some v)) s fun t =>
      t.answer = .value o ∧ t.que.q[q].ents = r ++ [w] ∧ t.que.q[q].last = o ∧
      (t.que.q[q].idleAt = (if s.que.q[q].idleTmo = 0 then none else some s.now)) ∧
      t.que.q[q] =
        { s.que.q[q] with ents := t.que.q[q].ents, last := o, idleAt := t.que.q[q].idleAt, hw := t.que.q[q].hwNow } ∧
      onlyAt q s.que.q t.que.q ∧ onlyTouches [.fab, .answer, .que, .pmc, .free] s t) ∧
  (∀ (s : State) (c : Fin 4) (q : Fin 32) (v w : W32),
    s.coreRuns = true → s.que.q[q].en = true → 0 < s.que.q[q].depth →
    (w = (if s.que.q[q].w32 then v else v &&& 0xFFFF#32)) →
    fires (.queueFlush c q (some v)) s fun t =>
      t.que.q[q].ents = [w] ∧ t.que.q[q].last = s.que.q[q].last ∧
      (t.que.q[q].idleAt = (if s.que.q[q].idleTmo = 0 then none else some s.now)) ∧
      t.que.q[q] = { s.que.q[q] with ents := [w], idleAt := t.que.q[q].idleAt, hw := t.que.q[q].hwNow, cmdRes := 0 } ∧
      onlyAt q s.que.q t.que.q ∧ onlyTouches [.fab, .answer, .que, .pmc, .free] s t) ∧
  (∀ (s : State) (c : Fin 4) (q : Fin 32) (v : W32),
    s.coreRuns = true → q.val < 24 → bit v 0 = true → s.que.q[q].en = false → fld v 16 10 ≠ 0 →
    fld v 4 9 + fld v 16 10 ≤ 512 →
    (∀ p : Fin 32, p ≠ q → s.que.q[p].en = true → fld v 4 9 + fld v 16 10 ≤ s.que.q[p].base ∨ s.que.q[p].base +
      s.que.q[p].size ≤ fld v 4 9) →
    fires (.queueCfgWrite c q v) s fun t =>
      t.que.q[q] =
        { s.que.q[q] with cfg := keep 0x03FF1FF3 v, ents := [], last := 0, idleAt := none, hw := false, cmdRes := 0 }
        ∧
      onlyAt q s.que.q t.que.q ∧ onlyTouches [.fab, .answer, .que, .pmc, .free] s t) ∧
  (∀ (s : State) (c : Fin 4) (q : Fin 32) (v : W32), s.coreRuns = true → q.val < 24 → bit v 0 = false →
    fires (.queueCfgWrite c q v) s fun t =>
      t.que.q[q] = { s.que.q[q] with cfg := keep 0x03FF1FF3 v, ents := [], idleAt := none, hw := false, cmdRes := 0 } ∧
      onlyAt q s.que.q t.que.q ∧ onlyTouches [.fab, .answer, .que, .pmc, .free] s t) ∧
  (∀ (s : State) (c : Fin 4) (q : Fin 32) (v : W32),
    s.coreRuns = true → bit v 0 = true →
    (24 ≤ q.val ∨ (s.que.q[q].en = true ∨ fld v 16 10 = 0 ∨ 512 < fld v 4 9 + fld v 16 10 ∨ ∃ p : Fin 32, p ≠ q ∧
      s.que.q[p].en = true ∧ fld v 4 9 < s.que.q[p].base + s.que.q[p].size ∧ s.que.q[p].base < fld v 4 9 + fld v 16
      10)) →
    fires (.queueCfgWrite c q v) s fun t =>
      t.que.q[q] = { s.que.q[q] with cmdRes := 3 } ∧ onlyAt q s.que.q t.que.q ∧
      onlyTouches [.fab, .answer, .que, .pmc, .free] s t) ∧
  (∀ (s : State) (c : Fin 4) (q : Fin 32) (v : W32), s.coreRuns = true → 24 ≤ q.val → bit v 0 = false →
    fires (.queueCfgWrite c q v) s fun t =>
      t.que.q[q] = s.que.q[q] ∧ onlyAt q s.que.q t.que.q ∧ onlyTouches [.fab, .answer, .que, .pmc, .free] s t) ∧
  (∀ (s : State) (q : Fin 32) (a : Nat),
    s.coreRuns = true → s.tmbRuns = true → s.que.q[q].idleAt = some a → s.que.q[q].idleTmo ≠ 0 →
    s.que.q[q].ents ≠ [] →
    fires (.queueIdleTimeout q) s fun t =>
      t.now = max s.now (a + s.que.q[q].idleTmo) ∧ t.que.q[q] = { s.que.q[q] with idle := true, idleAt := none } ∧
      onlyAt q s.que.q t.que.q ∧ onlyTouches [.tmb, .fab, .pwr, .ecc, .que, .pmc, .dep, .nv, .free] s t) ∧
  (∀ (s : State) (q : Fin 32),
    (s.que.q[q].idleAt = none ∨ s.que.q[q].idleTmo = 0 ∨ s.que.q[q].ents = [] ∨ s.coreRuns = false) →
    fires (.queueIdleTimeout q) s fun t =>
      t = s)

/-- Counters (R423, R425, R428), dumps (R426 to R432) and tally tags (R433 to R435). -/
def Obligations.DumpsAndTagsRecordTheCounters : Prop :=
  (∀ (s : State) (d : Nat),
    s.dumpDue = some d → s.coreRuns = true → s.tmbRuns = true → s.pmc.busy = none → s.pmc.ringOk = true →
    s.pmc.full = false →
    fires (.pmcDump) s fun t =>
      t.now = max s.now d ∧
      (∃ r, t.pmc.busy = some (s.pmc.base.toNat + 256 * s.pmc.wr, r) ∧ r.length = 64 ∧ r.getD 0 0 = t.count % 2 ^ 32 ∧
        r.getD 1 0 = t.count / 2 ^ 32 + 65536 * s.pmc.seq) ∧
      (t.pmc.busy.elim [] Prod.snd).length = 64 ∧ t.pmc.seq = (s.pmc.seq + 1) % 65536 ∧ t.pmc.skipSince = 0 ∧
      t.pmc.lostSince = 0 ∧ t.pmc.wr = s.pmc.wr ∧ t.pmc.cntSkip = s.pmc.cntSkip ∧ t.pmc.cntLost = s.pmc.cntLost ∧
      t.mem = s.mem ∧ onlyTouches [.tmb, .fab, .pwr, .ecc, .pmc, .dep, .nv, .free] s t) ∧
  (∀ (s : State) (d : Nat),
    s.dumpDue = some d → s.isUp 1 = true → s.sup.coreReset = false → s.tmbRuns = true →
    (s.coreRuns = false ∨ s.pmc.busy ≠ none ∨ s.pmc.ringOk = false) →
    fires (.pmcDump) s fun t =>
      t.now = max s.now d ∧ t.pmc.busy = s.pmc.busy ∧ t.pmc.seq = s.pmc.seq ∧
      t.pmc.cntSkip = satN 16 (s.pmc.cntSkip + 1) ∧ t.pmc.skipSince = s.pmc.skipSince + 1 ∧
      onlyTouches [.tmb, .fab, .pwr, .ecc, .pmc, .dep, .nv, .free] s t) ∧
  (∀ (s : State) (d : Nat),
    s.dumpDue = some d → s.coreRuns = true → s.tmbRuns = true → s.pmc.busy = none → s.pmc.ringOk = true →
    s.pmc.full = true →
    fires (.pmcDump) s fun t =>
      t.now = max s.now d ∧ t.pmc.busy = none ∧ t.pmc.cntLost = satN 16 (s.pmc.cntLost + 1) ∧
      t.pmc.lostSince = s.pmc.lostSince + 1 ∧ t.pmc.lostSaid = true ∧ t.pmc.seq = (s.pmc.seq + 1) % 65536 ∧
      onlyTouches [.tmb, .fab, .pwr, .ecc, .pmc, .dep, .nv, .free] s t) ∧
  (∀ (s : State) (c : Fin 4), s.coreRuns = true →
    fires (.dumpNow c) s fun t =>
      t.pmc.nowAt = some (s.now + 1) ∧ t.pmc.busy = s.pmc.busy ∧ t.answer = .done ∧
      onlyTouches [.fab, .answer, .pmc, .free] s t) ∧
  (∀ (s : State) (c : Fin 4), s.coreRuns = true →
    fires (.clearAll c) s fun t =>
      t.pmc.cnt = Vector.replicate 24 0 ∧ t.pmc.cyc = Vector.replicate 4 0 ∧ t.pmc.ret = Vector.replicate 4 0 ∧
      t.pmc.fcnt = Vector.replicate 16 0 ∧ t.pmc.nowAt = s.pmc.nowAt ∧ onlyTouches [.fab, .answer, .pmc, .free] s t) ∧
  (∀ (s : State) (a : Nat) (r : List Nat),
    s.canonical → s.pmc.busy = some (a, r) → s.coreRuns = true → (isSram a = true ∨ s.bulkOk = true) →
    (∀ x ∈ r, x < 2 ^ 32) →
    fires (.dumpWriteDone) s fun t =>
      t.pmc.busy = none ∧ t.pmc.wr = (s.pmc.wr + 1) % s.pmc.slots ∧ t.pmc.lostSaid = false ∧
      (∀ i, i < r.length → memLoad t.mem (a + 4 * i) 4 = r.getD i 0) ∧
      (memLoad t.mem (a + 4) 4 = r.getD 1 0 ∨ r.length < 2) ∧
      (∀ x, x < a ∨ a + 4 * r.length ≤ x → memGet t.mem x = memGet s.mem x) ∧
      onlyTouches [.fab, .pwr, .sys, .mem, .ecc, .pmc, .free] s t) ∧
  (∀ (s : State) (c : Fin 4) (v : W32), s.coreRuns = true → bit s.pmc.ctl 1 = false →
    fires (.dumpRingWrite c true v) s fun t =>
      t.pmc.base = keep 0x0FFFFF00 v ∧ t.pmc.ring = s.pmc.ring ∧ t.pmc.wr = 0 ∧ t.pmc.rd = 0 ∧ t.pmc.cmdRes = 0 ∧
      t.pmc.ringOk = (decide (isSram t.pmc.base.toNat ∧ t.pmc.base.toNat + 256 * t.pmc.slots ≤ sramEnd) || decide
        (isBulk t.pmc.base.toNat ∧ t.pmc.base.toNat + 256 * t.pmc.slots ≤ bulkEnd)) ∧
      onlyTouches [.fab, .answer, .pmc, .free] s t) ∧
  (∀ (s : State) (c : Fin 4) (v : W32), s.coreRuns = true → bit s.pmc.ctl 1 = false →
    fires (.dumpRingWrite c false v) s fun t =>
      t.pmc.ring = keep 0xF v ∧ t.pmc.base = s.pmc.base ∧ t.pmc.wr = 0 ∧ t.pmc.rd = 0 ∧ t.pmc.cmdRes = 0 ∧
      t.pmc.ringOk = t.pmc.ringFits ∧ onlyTouches [.fab, .answer, .pmc, .free] s t) ∧
  (∀ (s : State) (c : Fin 4) (b : Bool) (v : W32), s.coreRuns = true → bit s.pmc.ctl 1 = true →
    fires (.dumpRingWrite c b v) s fun t =>
      t.pmc.cmdRes = 3 ∧ t.pmc.ring = s.pmc.ring ∧ t.pmc.base = s.pmc.base ∧ t.pmc.wr = s.pmc.wr ∧
      t.pmc.rd = s.pmc.rd ∧ onlyTouches [.fab, .answer, .pmc, .free] s t) ∧
  (∀ (s : State) (i : Fin 24) (same : Bool),
    s.coreRuns = true → (same && s.pmc.lastWrote == some (i.val, s.now)) = false → (coreAt s i).clocked = true →
    bit s.pmc.ctl 0 = true → 1 ≤ fld s.pmc.evsel[i] 0 6 → fld s.pmc.evsel[i] 0 6 ≤ 18 →
    privOk s.pmc.evsel[i] (coreAt s i) = true → s.pmc.cnt[i] = 0xFFFFFFFF →
    fires (.cntOvf (i.castLE (by omega)) same) s fun t =>
      t.pmc = { s.pmc with cnt := s.pmc.cnt.set i 0, ovfCore := s.pmc.ovfCore ||| BitVec.ofNat 32 (2 ^ i.val) } ∧
      (bit s.pmc.evsel[i] 12 = false → t.fab = s.fab) ∧
      (bit s.pmc.evsel[i] 12 = true → emitted s t 1 0x70 (pack [(0, 6, i.val)])) ∧ onlyTouches [.fab, .pmc] s t) ∧
  (∀ (s : State) (x : Fin 4) (same : Bool),
    s.coreRuns = true → (same && s.pmc.lastWrote == some (24 + x.val, s.now)) = false → s.core[x].clocked = true →
    s.pmc.cyc[x] = 0xFFFFFFFFFFFF →
    fires (.cntOvf (⟨24 + x.val, by omega⟩) same) s fun t =>
      t.pmc = { s.pmc with cyc := s.pmc.cyc.set x 0, ovfCore := s.pmc.ovfCore ||| BitVec.ofNat 32 (2 ^ (24 + x.val)) } ∧
      emitted s t 1 0x70 (pack [(0, 6, 24 + x.val)]) ∧ onlyTouches [.fab, .pmc] s t) ∧
  (∀ (s : State) (x : Fin 4) (same : Bool),
    s.coreRuns = true → (same && s.pmc.lastWrote == some (28 + x.val, s.now)) = false → s.core[x].clocked = true →
    s.pmc.ret[x] = 0xFFFFFFFFFFFF →
    fires (.cntOvf (⟨28 + x.val, by omega⟩) same) s fun t =>
      t.pmc = { s.pmc with ret := s.pmc.ret.set x 0, ovfCore := s.pmc.ovfCore ||| BitVec.ofNat 32 (2 ^ (28 + x.val)) } ∧
      emitted s t 1 0x70 (pack [(0, 6, 28 + x.val)]) ∧ onlyTouches [.fab, .pmc] s t) ∧
  (∀ (s : State) (i : Fin 16) (same : Bool),
    s.isUp 1 = true → s.isUp 2 = true → (same && s.pmc.lastWrote == some (32 + i.val, s.now)) = false →
    bit s.pmc.ctl 0 = true → 1 ≤ fld s.pmc.fevsel[i] 0 6 → fld s.pmc.fevsel[i] 0 6 ≤ 15 → s.pmc.fcnt[i] = 0xFFFFFFFF →
    fires (.cntOvf (⟨32 + i.val, by omega⟩) same) s fun t =>
      t.pmc = { s.pmc with fcnt := s.pmc.fcnt.set i 0, ovfFab := s.pmc.ovfFab ||| BitVec.ofNat 32 (2 ^ i.val) } ∧
      (bit s.pmc.fevsel[i] 12 = true → emitted s t 1 0x70 (pack [(0, 6, 32 + i.val)])) ∧ onlyTouches [.fab, .pmc] s t) ∧
  (∀ (s : State) (i : Fin 48), s.pmc.lastWrote = some (i.val, s.now) →
    fires (.cntOvf i true) s fun t =>
      t = s) ∧
  (∀ (s : State) (r x : Fin 4), s.coreRuns = true →
    fires (.cycLoRead (r.castSucc) x false) s fun t =>
      t.answer = .value (BitVec.ofNat 32 s.pmc.cyc[x]) ∧
      t.pmc.cycHi = s.pmc.cycHi.set (5 * x.val + r.val) (s.pmc.cyc[x] / 2 ^ 32) ∧ t.pmc.retHi = s.pmc.retHi ∧
      t.pmc.cyc = s.pmc.cyc ∧ onlyTouches [.fab, .answer, .pmc, .free] s t) ∧
  (∀ (s : State) (r x : Fin 4), s.coreRuns = true →
    fires (.cycLoRead (r.castSucc) x true) s fun t =>
      t.answer = .value (BitVec.ofNat 32 s.pmc.ret[x]) ∧
      t.pmc.retHi = s.pmc.retHi.set (5 * x.val + r.val) (s.pmc.ret[x] / 2 ^ 32) ∧ t.pmc.cycHi = s.pmc.cycHi ∧
      t.pmc.ret = s.pmc.ret ∧ onlyTouches [.fab, .answer, .pmc, .free] s t) ∧
  (∀ (s : State) (x : Fin 4), s.depUp = true → s.isUp 1 = true → s.sup.coreReset = false →
    fires (.cycLoRead 4 x false) s fun t =>
      t.answer = .value (BitVec.ofNat 32 s.pmc.cyc[x]) ∧
      t.pmc.cycHi = s.pmc.cycHi.set (5 * x.val + 4) (s.pmc.cyc[x] / 2 ^ 32) ∧ t.pmc.cyc = s.pmc.cyc ∧
      onlyTouches [.fab, .answer, .pmc, .free] s t) ∧
  (∀ (s : State) (c x : Fin 4) (v : W32), s.coreRuns = true → bit s.pmc.tag[x].ctl 0 = false →
    fires (.tagEnable c x v) s fun t =>
      (t.pmc.tag[x] =
        ({ s.pmc.tag[x] with ctl := keep 0xFFFF01F1 (v ||| 1), lfsr := if fld v 16 16 = 0 then 0xACE1#16 else BitVec.ofNat 16 (fld v 16 16) }
        : Tag).reload) ∧
      onlyAt x s.pmc.tag t.pmc.tag ∧
      3 * 2 ^ t.pmc.tag[x].k ≤ 4 * t.pmc.tag[x].down ∧ 4 * t.pmc.tag[x].down ≤ 5 * 2 ^ t.pmc.tag[x].k ∧
      onlyTouches [.fab, .answer, .pmc, .free] s t) ∧
  (∀ (s : State) (x : Fin 4),
    s.coreRuns = true → bit s.pmc.tag[x].ctl 0 = true → s.pmc.tag[x].down ≤ 1 → s.pmc.tag[x].inFlight = false →
    fires (.tagSelect x) s fun t =>
      t.pmc.tag[x] = ({ s.pmc.tag[x] with inFlight := true } : Tag).reload ∧ onlyAt x s.pmc.tag t.pmc.tag ∧
      t.pmc.tagSkip = s.pmc.tagSkip ∧ onlyTouches [.pmc] s t) ∧
  (∀ (s : State) (x : Fin 4),
    s.coreRuns = true → bit s.pmc.tag[x].ctl 0 = true → s.pmc.tag[x].down ≤ 1 → s.pmc.tag[x].inFlight = true →
    fires (.tagSelect x) s fun t =>
      t.pmc.tag[x] = s.pmc.tag[x].reload ∧ onlyAt x s.pmc.tag t.pmc.tag ∧
      t.pmc.tagSkip = satN 16 (s.pmc.tagSkip + 1) ∧ onlyTouches [.pmc] s t) ∧
  (∀ (s : State) (x : Fin 4), (bit s.pmc.tag[x].ctl 0 = false ∨ 1 < s.pmc.tag[x].down) →
    fires (.tagSelect x) s fun t =>
      t = s) ∧
  (∀ (s : State) (c : Fin 4), s.pmc.tag[c].inFlight = false →
    fires (.tagRecord c) s fun t =>
      t = s) ∧
  (∀ (s : State) (c : Fin 4) (p : Nat) (i : Instr),
    s.pmc.tag[c].inFlight = true → fetches s c = true → s.core[c].place 0 s.core[c].pc 4 .fetch = .inr p →
    decodeWord c (BitVec.ofNat 32 (memLoad s.mem p 4)) = some i →
    fires (.tagRecord c) s fun t =>
      exec (.tagRecord c) s = exec i s) ∧
  (∀ (s : State) (c : Fin 4) (p : Nat) (d a b : BitVec 5),
    s.pmc.tag[c].inFlight = true → fetches s c = true → s.core[c].place 0 s.core[c].pc 4 .fetch = .inr p →
    decodeWord c (BitVec.ofNat 32 (memLoad s.mem p 4)) = some (.add c 14 d a b) → s.que.q[(14 : Fin 32)].w32 = true →
    s.que.q[(14 : Fin 32)].ents.length + 8 ≤ s.que.q[(14 : Fin 32)].depth →
    fires (.tagRecord c) s fun t =>
      (∃ r, t.que.q[(14 : Fin 32)].ents = s.que.q[(14 : Fin 32)].ents ++ r ∧ r.length = 8 ∧ r.getD 0 0 = BitVec.ofNat
        32 s.count ∧ r.getD 2 0 = BitVec.ofNat 32 (s.core[c].pc.toNat + 65536 * (if s.core[c].rptOn then
        s.core[c].rpt.toNat else 0)) ∧ r.getD 3 0 = BitVec.ofNat 32 p ∧ r.getD 4 0 = BitVec.ofNat 32 (memLoad s.mem p
        4) ∧ r.getD 7 0 = BitVec.ofNat 32 (s.core[c].sw.toNat + 65536 * (s.pmc.tag[c].seq % 65536))) ∧
      t.que.q[(14 : Fin 32)].ents.length = s.que.q[(14 : Fin 32)].ents.length + 8 ∧ onlyAt 14 s.que.q t.que.q ∧
      t.pmc.tag[c] =
        { s.pmc.tag[c] with inFlight := false, seq := (s.pmc.tag[c].seq + 1) % 65536, lostSince := false } ∧
      onlyAt c s.pmc.tag t.pmc.tag ∧ t.core[c].g = (s.core[c].setReg d (s.core[c].reg a + s.core[c].reg b)).g ∧
      wordOnly s t) ∧
  (∀ (s : State) (c : Fin 4) (p : Nat) (d a b : BitVec 5),
    s.pmc.tag[c].inFlight = true → fetches s c = true → s.core[c].place 0 s.core[c].pc 4 .fetch = .inr p →
    decodeWord c (BitVec.ofNat 32 (memLoad s.mem p 4)) = some (.add c 14 d a b) →
    s.que.q[(14 : Fin 32)].depth < s.que.q[(14 : Fin 32)].ents.length + 8 →
    fires (.tagRecord c) s fun t =>
      t.que.q[(14 : Fin 32)].ents = s.que.q[(14 : Fin 32)].ents ∧ onlyAt 14 s.que.q t.que.q ∧
      t.pmc.tag[c] = { s.pmc.tag[c] with inFlight := false, seq := (s.pmc.tag[c].seq + 1) % 65536, lostSince := true } ∧
      t.pmc.tagLost = satN 16 (s.pmc.tagLost + 1) ∧
      t.core[c].g = (s.core[c].setReg d (s.core[c].reg a + s.core[c].reg b)).g ∧ wordOnly s t) ∧
  (∀ (s : State), (s.dumpDue = none ∨ s.isUp 1 = false ∨ s.sup.coreReset = true) →
    fires (.pmcDump) s fun t =>
      t = s) ∧
  (∀ (s : State), (s.pmc.busy = none ∨ s.coreRuns = false) →
    fires (.dumpWriteDone) s fun t =>
      t = s)

/-! ## CAN, network management, host port and plant link -/

/-- Commands to a CAN controller and its message objects (R440 to R450, R457, R473). -/
def Obligations.CanObjectCommandsAndSettings : Prop :=
  (∀ (s : State) (c x : Fin 4) (v : W32),
    canStore s (islCan x.val) 3 → (canOf s x).mode = 0 → (canOf s x).bus = .off → bit s.nm[x].ctl 0 = false →
    fld v 0 2 ≠ 0 →
    fires (.canModeWrite c x v) s fun t =>
      (canOf t x) = { (canOf s x) with ctl := keep 0xF3 v, modeNow := fld v 0 2, bus := .integrating, cmdRes := 0 } ∧
      onlyAt x s.can t.can ∧ t.answer = .done ∧ onlyTouches [.fab, .answer, .pmc, .can, .free] s t) ∧
  (∀ (s : State) (c x : Fin 4) (v : W32),
    canStore s (islCan x.val) 3 → (canOf s x).mode ≠ 0 → (v ^^^ (canOf s x).ctl) &&& 0xB0#32 = 0 →
    bit s.nm[x].ctl 0 = false → fld v 0 2 = 0 → (canOf s x).bus ≠ .rx ∧ (canOf s x).bus ≠ .tx →
    fires (.canModeWrite c x v) s fun t =>
      (canOf t x) =
        { (canOf s x) with ctl := keep 0xF0 v, modeNow := 0, act := none, bus := .off, offPend := false, tec := 0, rxc := 0, ew := false, ep := false, recov := 0, cmdRes := 0 }
        ∧
      onlyAt x s.can t.can ∧ onlyTouches [.fab, .answer, .pmc, .can, .free] s t) ∧
  (∀ (s : State) (c x : Fin 4) (v : W32),
    canStore s (islCan x.val) 3 → (canOf s x).mode ≠ 0 → (v ^^^ (canOf s x).ctl) &&& 0xB0#32 = 0 →
    bit s.nm[x].ctl 0 = false → fld v 0 2 = 0 → ((canOf s x).bus = .rx ∨ (canOf s x).bus = .tx) →
    fires (.canModeWrite c x v) s fun t =>
      (canOf t x) = { (canOf s x) with ctl := keep 0xF0 v, offPend := true, cmdRes := 0 } ∧ onlyAt x s.can t.can ∧
      onlyTouches [.fab, .answer, .pmc, .can, .free] s t) ∧
  (∀ (s : State) (c x : Fin 4) (v : W32),
    canStore s (islCan x.val) 3 → ((canOf s x).mode = 0 ∨ (v ^^^ (canOf s x).ctl) &&& 0xB0#32 = 0) →
    bit s.nm[x].ctl 0 = false → fld v 0 2 ≠ 0 → fld v 0 2 ≠ (canOf s x).mode → (canOf s x).bus ≠ .off →
    fires (.canModeWrite c x v) s fun t =>
      (canOf t x) = { (canOf s x) with ctl := keep 0xF3 v, modeNow := fld v 0 2, offPend := false, cmdRes := 0 } ∧
      onlyAt x s.can t.can ∧ onlyTouches [.fab, .answer, .pmc, .can, .free] s t) ∧
  (∀ (s : State) (c x : Fin 4) (v : W32),
    canStore s (islCan x.val) 3 → ((canOf s x).mode = 0 ∨ (v ^^^ (canOf s x).ctl) &&& 0xB0#32 = 0) →
    fld v 0 2 = (canOf s x).mode →
    fires (.canModeWrite c x v) s fun t =>
      (canOf t x) = { (canOf s x) with ctl := keep 0xF3 v, cmdRes := 0 } ∧ onlyAt x s.can t.can ∧
      onlyTouches [.fab, .answer, .pmc, .can, .free] s t) ∧
  (∀ (s : State) (c x : Fin 4) (v : W32),
    canStore s (islCan x.val) 3 →
    ((canOf s x).mode ≠ 0 ∧ (v ^^^ (canOf s x).ctl) &&& 0xB0#32 ≠ 0) ∨ (bit s.nm[x].ctl 0 = true ∧ fld v 0 2 ≠ (canOf
      s x).mode) →
    fires (.canModeWrite c x v) s fun t =>
      (canOf t x) = { (canOf s x) with cmdRes := 3 } ∧ onlyAt x s.can t.can ∧
      onlyTouches [.fab, .answer, .pmc, .can, .free] s t) ∧
  (∀ (s : State) (c x : Fin 4) (v : W32),
    canStore s (islCan x.val) 3 → (canOf s x).mode = 0 → 80 ≤ nbtClk (keep 0x7F7FFF1F v) →
    16 ≤ dbtClk (canOf s x).dbt → dbtClk (canOf s x).dbt ≤ nbtClk (keep 0x7F7FFF1F v) →
    fires (.canTimingWrite c x 0 v) s fun t =>
      (canOf t x) = { (canOf s x) with nbt := keep 0x7F7FFF1F v, cmdRes := 0 } ∧ onlyAt x s.can t.can ∧
      onlyTouches [.fab, .answer, .pmc, .can, .free] s t) ∧
  (∀ (s : State) (c x : Fin 4) (v : W32),
    canStore s (islCan x.val) 3 → (canOf s x).mode = 0 → 80 ≤ nbtClk (canOf s x).nbt →
    16 ≤ dbtClk (keep 0x0F0F1F1F v) → dbtClk (keep 0x0F0F1F1F v) ≤ nbtClk (canOf s x).nbt →
    fires (.canTimingWrite c x 1 v) s fun t =>
      (canOf t x) = { (canOf s x) with dbt := keep 0x0F0F1F1F v, cmdRes := 0 } ∧ onlyAt x s.can t.can ∧
      onlyTouches [.fab, .answer, .pmc, .can, .free] s t) ∧
  (∀ (s : State) (c x : Fin 4) (v : W32), canStore s (islCan x.val) 3 → (canOf s x).mode = 0 →
    fires (.canTimingWrite c x 2 v) s fun t =>
      (canOf t x) = { (canOf s x) with tdc := keep 0x7F01 v, cmdRes := 0 } ∧ onlyAt x s.can t.can ∧
      onlyTouches [.fab, .answer, .pmc, .can, .free] s t) ∧
  (∀ (s : State) (c x : Fin 4) (i : Fin 3) (v : W32),
    canStore s (islCan x.val) 3 →
    (canOf s x).mode ≠ 0 ∨ (i = 0 ∧ (nbtClk (keep 0x7F7FFF1F v) < 80 ∨ nbtClk (keep 0x7F7FFF1F v) < dbtClk (canOf s
      x).dbt)) ∨ (i = 1 ∧ (dbtClk (keep 0x0F0F1F1F v) < 16 ∨ nbtClk (canOf s x).nbt < dbtClk (keep 0x0F0F1F1F v))) →
    fires (.canTimingWrite c x i v) s fun t =>
      (canOf t x) = { (canOf s x) with cmdRes := 3 } ∧ onlyAt x s.can t.can ∧
      onlyTouches [.fab, .answer, .pmc, .can, .free] s t) ∧
  (∀ (s : State) (c x : Fin 4) (m : Fin 128),
    canStore s (islCan x.val) 3 → (canObj s x m).en = true → (canObj s x m).dirTx = true →
    (bit (canObj s x m).buf[1] 4 = false ∨ ((canOf s x).fdEn = true ∧ bit (canObj s x m).buf[0] 30 = false)) →
    (canObj s x m).busy = false →
    fires (.req c x m) s fun t =>
      (canObj t x m) =
        { (canObj s x m) with txs := .pending, berr := 0, age := (canOf s x).ages, abortReq := false, cmdRes := 0 } ∧
      onlyAt m (canOf s x).objs (canOf t x).objs ∧
      (canOf t x) = { (canOf s x) with objs := (canOf t x).objs, ages := (canOf s x).ages + 1 } ∧
      onlyAt x s.can t.can ∧ onlyTouches [.fab, .answer, .pmc, .can, .free] s t) ∧
  (∀ (s : State) (c x : Fin 4) (m : Fin 128),
    canStore s (islCan x.val) 3 → (canObj s x m).en = true → (canObj s x m).dirTx = true →
    (bit (canObj s x m).buf[1] 4 = false ∨ ((canOf s x).fdEn = true ∧ bit (canObj s x m).buf[0] 30 = false)) →
    (canObj s x m).busy = true →
    fires (.req c x m) s fun t =>
      (canObj t x m) = { (canObj s x m) with cmdRes := 5 } ∧ onlyAt m (canOf s x).objs (canOf t x).objs ∧
      (canOf t x) = { (canOf s x) with objs := (canOf t x).objs } ∧ onlyAt x s.can t.can ∧
      onlyTouches [.fab, .answer, .pmc, .can, .free] s t) ∧
  (∀ (s : State) (c x : Fin 4) (m : Fin 128),
    canStore s (islCan x.val) 3 →
    (canObj s x m).en = false ∨ (canObj s x m).dirTx = false ∨ (bit (canObj s x m).buf[1] 4 = true ∧ ((canOf s x).fdEn
      = false ∨ bit (canObj s x m).buf[0] 30 = true)) →
    fires (.req c x m) s fun t =>
      (canObj t x m) = { (canObj s x m) with cmdRes := 2 } ∧ onlyAt m (canOf s x).objs (canOf t x).objs ∧
      (canOf t x) = { (canOf s x) with objs := (canOf t x).objs } ∧ onlyAt x s.can t.can ∧
      onlyTouches [.fab, .answer, .pmc, .can, .free] s t) ∧
  (∀ (s : State) (c x : Fin 4) (m : Fin 128), canStore s (islCan x.val) 3 → (canObj s x m).txs = .pending →
    fires (.canAbort c x m) s fun t =>
      (canObj t x m) = { (canObj s x m) with txs := .aborted, abortReq := false, cmdRes := 0 } ∧
      onlyAt m (canOf s x).objs (canOf t x).objs ∧ (canOf t x) = { (canOf s x) with objs := (canOf t x).objs } ∧
      onlyAt x s.can t.can ∧ onlyTouches [.fab, .answer, .pmc, .can, .free] s t) ∧
  (∀ (s : State) (c x : Fin 4) (m : Fin 128), canStore s (islCan x.val) 3 → (canObj s x m).txs = .active →
    fires (.canAbort c x m) s fun t =>
      (canObj t x m) = { (canObj s x m) with abortReq := true, cmdRes := 0 } ∧
      onlyAt m (canOf s x).objs (canOf t x).objs ∧ (canOf t x) = { (canOf s x) with objs := (canOf t x).objs } ∧
      onlyAt x s.can t.can ∧ onlyTouches [.fab, .answer, .pmc, .can, .free] s t) ∧
  (∀ (s : State) (c x : Fin 4) (m : Fin 128), canStore s (islCan x.val) 3 → (canObj s x m).txs = .done →
    fires (.canAbort c x m) s fun t =>
      (canObj t x m) = { (canObj s x m) with cmdRes := 1 } ∧ onlyAt m (canOf s x).objs (canOf t x).objs ∧
      (canOf t x) = { (canOf s x) with objs := (canOf t x).objs } ∧ onlyAt x s.can t.can ∧
      onlyTouches [.fab, .answer, .pmc, .can, .free] s t) ∧
  (∀ (s : State) (c x : Fin 4) (m : Fin 128),
    canStore s (islCan x.val) 3 → (canObj s x m).busy = false → (canObj s x m).txs ≠ .done →
    fires (.canAbort c x m) s fun t =>
      (canObj t x m) = { (canObj s x m) with cmdRes := 2 } ∧ onlyAt m (canOf s x).objs (canOf t x).objs ∧
      (canOf t x) = { (canOf s x) with objs := (canOf t x).objs } ∧ onlyAt x s.can t.can ∧
      onlyTouches [.fab, .answer, .pmc, .can, .free] s t) ∧
  (∀ (s : State) (c x : Fin 4), canStore s (islCan x.val) 3 →
    fires (.abortAll c x) s fun t =>
      (∀ m : Fin 128, (canObj t x m) = (if (canObj s x m).txs = .pending then
        { (canObj s x m) with txs := .aborted, abortReq := false, cmdRes := 0 } else if (canObj s x m).txs = .active
        then { (canObj s x m) with abortReq := true, cmdRes := 0 } else (canObj s x m))) ∧
      (canOf t x) = { (canOf s x) with objs := (canOf t x).objs } ∧ onlyAt x s.can t.can ∧
      onlyTouches [.fab, .answer, .pmc, .can, .free] s t) ∧
  (∀ (s : State) (c x : Fin 4) (m : Fin 128), canStore s (islCan x.val) 3 → (canObj s x m).dirTx = false →
    fires (.snapObj c x m) s fun t =>
      (canObj t x m) = { (canObj s x m) with buf := (canObj s x m).live, new := false, cmdRes := 0 } ∧
      onlyAt m (canOf s x).objs (canOf t x).objs ∧ (canOf t x) = { (canOf s x) with objs := (canOf t x).objs } ∧
      onlyAt x s.can t.can ∧ onlyTouches [.fab, .answer, .pmc, .can, .free] s t) ∧
  (∀ (s : State) (c x : Fin 4) (m : Fin 128), canStore s (islCan x.val) 3 → (canObj s x m).dirTx = true →
    fires (.snapObj c x m) s fun t =>
      (canObj t x m) = { (canObj s x m) with cmdRes := 2 } ∧ onlyAt m (canOf s x).objs (canOf t x).objs ∧
      (canOf t x) = { (canOf s x) with objs := (canOf t x).objs } ∧ onlyAt x s.can t.can ∧
      onlyTouches [.fab, .answer, .pmc, .can, .free] s t) ∧
  (∀ (s : State) (c x : Fin 4) (m : Fin 128), canStore s (islCan x.val) 3 → (canObj s x m).busy = false →
    fires (.clr c x m) s fun t =>
      (canObj t x m) = { (canObj s x m) with txs := .idle, lost := false, cmdRes := 0 } ∧
      onlyAt m (canOf s x).objs (canOf t x).objs ∧ (canOf t x) = { (canOf s x) with objs := (canOf t x).objs } ∧
      onlyAt x s.can t.can ∧ onlyTouches [.fab, .answer, .pmc, .can, .free] s t) ∧
  (∀ (s : State) (c x : Fin 4) (m : Fin 128), canStore s (islCan x.val) 3 → (canObj s x m).busy = true →
    fires (.clr c x m) s fun t =>
      (canObj t x m) = { (canObj s x m) with lost := false, cmdRes := 0 } ∧
      onlyAt m (canOf s x).objs (canOf t x).objs ∧ (canOf t x) = { (canOf s x) with objs := (canOf t x).objs } ∧
      onlyAt x s.can t.can ∧ onlyTouches [.fab, .answer, .pmc, .can, .free] s t)

/-- What a CAN controller does on its bus (R442, R443, R448 to R453, R462, R463), through its transceiver (R475,
R478). -/
def Obligations.CanTransmissionsAndErrors : Prop :=
  (∀ (s : State) (x : Fin 4), s.canUp x = true → (canOf s x).bus = .integrating →
    fires (.canIntegrated x) s fun t =>
      (canOf t x) = { (canOf s x) with bus := .idle } ∧ onlyAt x s.can t.can ∧ onlyTouches [.can] s t) ∧
  (∀ (s : State) (x : Fin 4) (m : Fin 128) (b : Bool),
    s.canUp x = true → (canOf s x).bus = .idle → (canOf s x).modeNow = 1 → (canOf s x).pick = some m →
    fires (.canArbitration x b) s fun t =>
      (canObj t x m) = { (canObj s x m) with txs := .active } ∧ onlyAt m (canOf s x).objs (canOf t x).objs ∧
      (canOf t x) =
        { (canOf s x) with objs := (canOf t x).objs, bus := .tx, act := some m, sofAt := s.now, lastTx := true, answered := .none }
        ∧
      (canObj s x m).txs = .pending ∧
      (bit (canOf s x).ctl 5 = true → ∀ i : Fin 128, (canOf s x).objs[i].txs = .pending → (canObj s x m).age ≤ (canOf
        s x).objs[i].age) ∧
      (bit (canOf s x).ctl 5 = false → ∀ i : Fin 128, (canOf s x).objs[i].txs = .pending → arbKey (canObj s x m).buf <
        arbKey (canOf s x).objs[i].buf ∨ (arbKey (canObj s x m).buf = arbKey (canOf s x).objs[i].buf ∧ m.val ≤ i.val))
        ∧
      onlyAt x s.can t.can ∧ onlyTouches [.can] s t) ∧
  (∀ (s : State) (x : Fin 4),
    s.canUp x = true → s.trxRx x = true → (canOf s x).bus = .idle →
    ((canOf s x).modeNow ≠ 1 ∨ ∀ m : Fin 128, (canObj s x m).txs ≠ .pending) →
    fires (.canArbitration x true) s fun t =>
      (canOf t x) = { (canOf s x) with bus := .rx, sofAt := s.now, lastTx := false, answered := .none } ∧
      onlyAt x s.can t.can ∧ onlyTouches [.can] s t) ∧
  (∀ (s : State) (x : Fin 4) (b : Bool),
    (canOf s x).bus ≠ .idle ∨ (((canOf s x).modeNow ≠ 1 ∨ ∀ m : Fin 128, (canObj s x m).txs ≠ .pending) ∧ (b = false ∨
      s.trxRx x = false)) →
    fires (.canArbitration x b) s fun t =>
      t = s) ∧
  (∀ (s : State) (x : Fin 4) (m : Fin 128) (delay : Nat),
    s.isUp (5 + x.val) = true → s.trxTx x = true → (canOf s x).act = some m →
    fires (.canTxSuccess x delay) s fun t =>
      ((canObj t x m) =
        { (canObj s x m) with txs := .done, berr := 0, abortReq := false, cmdRes := (if (canObj s x m).abortReq then 1 else (canObj s x m).cmdRes), buf := ((canObj s x m).buf.set 2 (BitVec.ofNat 32 (s.canStamp x))).set 3 (BitVec.ofNat 32 (s.canStamp x / 2 ^ 32)) })
        ∧
      onlyAt m (canOf s x).objs (canOf t x).objs ∧ (canOf t x).act = none ∧
      (canOf t x).bus = (if (canOf s x).offPend then .off else .idle) ∧
      (canOf t x).tec = (if (canOf s x).offPend then 0 else if (canOf s x).modeNow = 1 then (canOf s x).tec - 1 else
        (canOf s x).tec) ∧
      (canOf t x).delay = (if bit (canOf s x).tdc 0 ∧ bit (canObj s x m).buf[1] 4 ∧ bit (canObj s x m).buf[1] 5 then
        satN 7 delay else (canOf s x).delay) ∧
      (s.canStamp x = (if bit (canOf s x).ctl 6 then (canOf s x).sofAt else s.now) % 2 ^ 48) ∧
      (canOf t x).q = (canOf s x).q ∧ (canOf t x).flts = (canOf s x).flts ∧ (canOf t x).gate = (canOf s x).gate ∧
      (canOf t x).err = (canOf s x).err ∧ onlyAt x s.can t.can ∧ onlyTouches [.fab, .can] s t) ∧
  (∀ (s : State) (x : Fin 4) (delay : Nat), ((canOf s x).act = none ∨ s.trxTx x = false) →
    fires (.canTxSuccess x delay) s fun t =>
      t = s) ∧
  (∀ (s : State) (x : Fin 4) (m : Fin 128),
    s.isUp (5 + x.val) = true → s.trxRx x = true → (canOf s x).act = some m → (canObj s x m).abortReq = false →
    fires (.arbitrationLost x) s fun t =>
      ((canObj t x m) =
        { (canObj s x m) with txs := (if (canObj s x m).oneshot then .failed else .pending), abortReq := false }) ∧
      onlyAt m (canOf s x).objs (canOf t x).objs ∧
      (canOf t x) = { (canOf s x) with objs := (canOf t x).objs, act := none, bus := .rx, lastTx := false } ∧
      onlyAt x s.can t.can ∧ onlyTouches [.fab, .can] s t) ∧
  (∀ (s : State) (x : Fin 4) (m : Fin 128),
    s.isUp (5 + x.val) = true → s.trxRx x = true → (canOf s x).act = some m → (canObj s x m).abortReq = true →
    fires (.arbitrationLost x) s fun t =>
      (canObj t x m) = { (canObj s x m) with txs := .aborted, abortReq := false } ∧
      onlyAt m (canOf s x).objs (canOf t x).objs ∧
      (canOf t x) = { (canOf s x) with objs := (canOf t x).objs, act := none, bus := .rx, lastTx := false } ∧
      onlyAt x s.can t.can ∧ onlyTouches [.fab, .can] s t) ∧
  (∀ (s : State) (x : Fin 4) (ty : Fin 8) (d a e h : Bool) (delay : Nat),
    s.isUp (5 + x.val) = true → ((canOf s x).bus = .rx ∨ (canOf s x).bus = .idle) → (canOf s x).act = none →
    (canOf s x).tec + 8 < 256 → (canOf s x).offPend = false → 0 < ty.val ∧ ty.val < 7 →
    fires (.canError x ty d a e h delay) s fun t =>
      (canOf t x).err = (canOf s x).err ||| BitVec.ofNat 32 (2 ^ (ty.val - 1)) ∧
      (canOf t x).lastErr = pack [(0, 3, ty.val), (3, 1, b2n d)] ∧
      (canOf t x).rxc = (if (canOf s x).modeNow = 1 ∧ (h = false ∨ (canOf s x).lastTx = false) then satN 9 ((canOf s
        x).rxc + (if h then 8 else 1)) else (canOf s x).rxc) ∧
      (canOf t x).tec = (if (canOf s x).modeNow = 1 ∧ h = true ∧ (canOf s x).lastTx = true then (canOf s x).tec + 8
        else (canOf s x).tec) ∧
      (canOf t x).ew = (decide (96 ≤ (canOf t x).tec) || decide (96 ≤ (canOf t x).rxc)) ∧
      (canOf t x).ep = (decide (128 ≤ (canOf t x).tec) || decide (128 ≤ (canOf t x).rxc)) ∧
      (canOf t x).answered = (if (canOf s x).modeNow ≠ 1 then .none else if 128 ≤ (canOf s x).tec ∨ 128 ≤ (canOf s
        x).rxc then .passiveFlag else .activeFlag) ∧
      (canOf t x).bus = .idle ∧ (canOf t x).objs = (canOf s x).objs ∧ (canOf t x).q = (canOf s x).q ∧
      (canOf t x).delay = (canOf s x).delay ∧ onlyAt x s.can t.can ∧ onlyTouches [.fab, .can] s t) ∧
  (∀ (s : State) (x : Fin 4) (m : Fin 128) (ty : Fin 8) (d a e h : Bool) (delay : Nat),
    s.isUp (5 + x.val) = true → (canOf s x).bus = .tx → (canOf s x).act = some m → (canOf s x).tec + 8 < 256 →
    (canOf s x).offPend = false → (canObj s x m).abortReq = false → (canObj s x m).berr < 7 →
    0 < ty.val ∧ ty.val < 7 →
    fires (.canError x ty d a e h delay) s fun t =>
      ((canObj t x m) =
        { (canObj s x m) with txs := (if (canObj s x m).oneshot then .failed else .pending), berr := (if ty.val ≤ 2 then (canObj s x m).berr + (if a then 0 else 1) else 0) })
        ∧
      onlyAt m (canOf s x).objs (canOf t x).objs ∧
      (canOf t x).tec = (if (canOf s x).modeNow = 1 ∧ e = false then (canOf s x).tec + 8 else (canOf s x).tec) ∧
      (canOf t x).err = (canOf s x).err ||| BitVec.ofNat 32 (2 ^ (ty.val - 1)) ∧
      (canOf t x).lastErr = pack [(0, 3, ty.val), (3, 1, b2n d), (4, 1, 1), (8, 7, m.val)] ∧ (canOf t x).act = none ∧
      (canOf t x).bus = .idle ∧
      (canOf t x).delay = (if d ∧ bit (canOf s x).tdc 0 ∧ bit (canObj s x m).buf[1] 4 ∧ bit (canObj s x m).buf[1] 5
        then satN 7 delay else (canOf s x).delay) ∧
      (canOf t x).rxc = (canOf s x).rxc ∧ (canOf t x).q = (canOf s x).q ∧ onlyAt x s.can t.can ∧
      onlyTouches [.fab, .can] s t) ∧
  (∀ (s : State) (x : Fin 4) (m : Fin 128) (ty : Fin 8) (d e h : Bool) (delay : Nat),
    s.isUp (5 + x.val) = true → (canOf s x).bus = .tx → (canOf s x).act = some m → (canObj s x m).berr = 7 →
    (ty.val = 1 ∨ ty.val = 2) →
    fires (.canError x ty d false e h delay) s fun t =>
      (canObj t x m) = { (canObj s x m) with txs := .collide, berr := 8, abortReq := false } ∧
      onlyAt m (canOf s x).objs (canOf t x).objs ∧
      (canOf t x).err = (canOf s x).err ||| BitVec.ofNat 32 (0x1000 + ty.val) ∧ onlyAt x s.can t.can ∧
      onlyTouches [.fab, .can] s t) ∧
  (∀ (s : State) (x : Fin 4) (m : Fin 128) (ty : Fin 8) (d a h : Bool) (delay : Nat),
    s.isUp (5 + x.val) = true → (canOf s x).bus = .tx → (canOf s x).act = some m → (canOf s x).modeNow = 1 →
    248 ≤ (canOf s x).tec → (canOf s x).offPend = false → 0 < ty.val ∧ ty.val < 7 →
    fires (.canError x ty d a false h delay) s fun t =>
      (canOf t x).bus = .busOff ∧ (canOf t x).recov = 0 ∧
      (canOf t x).cntBusOff = satN 16 ((canOf s x).cntBusOff + 1) ∧ (canOf t x).act = none ∧
      (canObj t x m).txs ≠ .active ∧ onlyAt m (canOf s x).objs (canOf t x).objs ∧ onlyAt x s.can t.can ∧
      onlyTouches [.fab, .can] s t) ∧
  (∀ (s : State) (x : Fin 4) (d a e h : Bool) (delay : Nat),
    s.isUp (5 + x.val) = true → (canOf s x).bus = .rx → (canOf s x).act = none → bit (canOf s x).ctl 7 = false →
    (canOf s x).offPend = false →
    fires (.canError x 7 d a e h delay) s fun t =>
      (canOf t x).err = (canOf s x).err ||| 0x40#32 ∧ (canOf t x).bus = .integrating ∧
      (canOf t x).tec = (canOf s x).tec ∧ (canOf t x).rxc = (canOf s x).rxc ∧ (canOf t x).objs = (canOf s x).objs ∧
      (canOf t x).q = (canOf s x).q ∧ onlyAt x s.can t.can ∧ onlyTouches [.fab, .can] s t) ∧
  (∀ (s : State) (x : Fin 4) (d a e h : Bool) (delay : Nat), bit (canOf s x).ctl 7 = true →
    fires (.canError x 7 d a e h delay) s fun t =>
      exec (.canError x 7 d a e h delay) s = exec (.canError x 4 d a e h delay) s ∧ t.pending = s.pending ∧
      onlyTouches [.fab, .can] s t) ∧
  (∀ (s : State) (x : Fin 4) (ty : Fin 8) (d a e h : Bool) (delay : Nat),
    (ty.val = 0 ∨ (canOf s x).bus = .off ∨ (canOf s x).bus = .busOff ∨ (canOf s x).bus = .integrating) →
    fires (.canError x ty d a e h delay) s fun t =>
      t = s) ∧
  (∀ (s : State) (x : Fin 4) (n : Nat),
    s.isUp (5 + x.val) = true → (canOf s x).bus = .busOff → 128 ≤ (canOf s x).recov + n →
    fires (.busOn x n) s fun t =>
      (canOf t x) = { (canOf s x) with bus := .idle, tec := 0, rxc := 0, ew := false, ep := false, recov := 128 } ∧
      onlyAt x s.can t.can ∧ onlyTouches [.fab, .can] s t) ∧
  (∀ (s : State) (x : Fin 4) (n : Nat),
    s.isUp (5 + x.val) = true → (canOf s x).bus = .busOff → (canOf s x).recov + n < 128 →
    fires (.busOn x n) s fun t =>
      (canOf t x) = { (canOf s x) with recov := (canOf s x).recov + n } ∧ onlyAt x s.can t.can ∧
      onlyTouches [.fab, .can] s t) ∧
  (∀ (s : State) (x : Fin 4), (s.canUp x = false ∨ s.can[x].bus ≠ .integrating) →
    fires (.canIntegrated x) s fun t =>
      t = s) ∧
  (∀ (s : State) (x : Fin 4) (n : Nat), (s.isUp (5 + x.val) = false ∨ s.can[x].bus ≠ .busOff) →
    fires (.busOn x n) s fun t =>
      t = s) ∧
  (∀ (s : State) (x : Fin 4), (s.can[x].act = none ∨ s.isUp (5 + x.val) = false ∨ s.trxRx x = false) →
    fires (.arbitrationLost x) s fun t =>
      t = s)

/-- Reception (R454 to R459), release (R460) and the command gate (R465 to R468). -/
def Obligations.CanReceptionThroughFiltersAndGate : Prop :=
  (∀ (s : State) (x : Fin 4) (w0 w1 : W32) (b : List W8) (us : Nat),
    s.canUp x = true → s.trxRx x = true → ((canOf s x).bus = .rx ∨ (canOf s x).bus = .idle) →
    ((canOf s x).fdEn = true ∨ bit w1 4 = false) → (canOf s x).filter w0 w1 = none →
    fires (.canFrameReceived x w0 w1 b us) s fun t =>
      (canOf t x).cntNoMatch = satN 16 ((canOf s x).cntNoMatch + 1) ∧
      (canOf t x).bus = (if (canOf s x).offPend then .off else .idle) ∧
      (canOf t x).answered = (if ((canOf s x).modeNow = 1 ∨ (canOf s x).modeNow = 3) ∧ s.trxTx x = true then .ack else
        .none) ∧
      (canOf t x).objs = (canOf s x).objs ∧ (canOf t x).q = (canOf s x).q ∧ (canOf t x).gate = (canOf s x).gate ∧
      ((canOf s x).modeNow ≠ 1 → (canOf s x).offPend = false → (canOf t x).rxc = (canOf s x).rxc) ∧
      ((canOf s x).modeNow = 1 → (canOf s x).offPend = false → (canOf s x).rxc ≤ 127 → (canOf t x).rxc = (canOf s
        x).rxc - 1) ∧
      ((canOf s x).modeNow = 1 → (canOf s x).offPend = false → 127 < (canOf s x).rxc → 119 ≤ (canOf t x).rxc ∧ (canOf
        t x).rxc ≤ 127) ∧
      onlyAt x s.can t.can ∧ onlyTouches [.fab, .can, .free] s t) ∧
  (∀ (s : State) (x : Fin 4) (w0 w1 : W32) (b : List W8) (us : Nat),
    ((canOf s x).bus ≠ .rx ∧ (canOf s x).bus ≠ .idle ∨ ((canOf s x).fdEn = false ∧ bit w1 4 = true) ∨ s.trxRx x =
      false ∨ s.canUp x = false) →
    fires (.canFrameReceived x w0 w1 b us) s fun t =>
      t = s) ∧
  (∀ (s : State) (x : Fin 4) (w0 w1 : W32) (b : List W8) (us : Nat) (f : Fin 32),
    s.canUp x = true → s.trxRx x = true → ((canOf s x).bus = .rx ∨ (canOf s x).bus = .idle) →
    ((canOf s x).fdEn = true ∨ bit w1 4 = false) → (canOf s x).filter w0 w1 = some f →
    fld (canOf s x).flts[f].ctl 1 2 = 3 →
    fires (.canFrameReceived x w0 w1 b us) s fun t =>
      (canOf t x).bus = (if (canOf s x).offPend then .off else .idle) ∧ (canOf t x).objs = (canOf s x).objs ∧
      (canOf t x).q = (canOf s x).q ∧ (canOf t x).gate = (canOf s x).gate ∧ (canOf t x).err = (canOf s x).err ∧
      (canOf t x).cntNoMatch = (canOf s x).cntNoMatch ∧ onlyAt x s.can t.can ∧ onlyTouches [.fab, .can, .free] s t) ∧
  (∀ (s : State) (x : Fin 4) (w0 w1 : W32) (b : List W8) (us : Nat) (f : Fin 32) (j : Fin 2),
    s.canUp x = true → s.trxRx x = true → ((canOf s x).bus = .rx ∨ (canOf s x).bus = .idle) →
    ((canOf s x).fdEn = true ∨ bit w1 4 = false) → (canOf s x).filter w0 w1 = some f →
    fld (canOf s x).flts[f].ctl 1 2 = j.val →
    (bit (canOf s x).cmdgCfg 0 = false ∨ bit (canOf s x).flts[f].ctl 3 = false) → (canQ s x j).held.length < 32 →
    fires (.canFrameReceived x w0 w1 b us) s fun t =>
      ((canQ t x j).held = (canQ s x j).held ++ [rxBuf w0 w1 b f.val (canQ s x j).nextRseq ((if bit (canOf s x).ctl 6
        then (if (canOf s x).bus = .rx then (canOf s x).sofAt else s.now - us) else s.now) % 2 ^ 48)]) ∧
      (canQ t x j).nextRseq = ((canQ s x j).nextRseq + 1) % 256 ∧ onlyAt j (canOf s x).q (canOf t x).q ∧
      (canOf t x).bus = (if (canOf s x).offPend then .off else .idle) ∧ (canOf t x).objs = (canOf s x).objs ∧
      (canOf t x).gate = (canOf s x).gate ∧ (canOf t x).err = (canOf s x).err ∧
      (canOf t x).cntOvf = (canOf s x).cntOvf ∧ onlyAt x s.can t.can ∧
      onlyTouches [.fab, .can, .free, .que, .pwr, .pmc] s t) ∧
  (∀ (s : State) (x : Fin 4) (w0 w1 : W32) (b : List W8) (us : Nat) (f : Fin 32) (j : Fin 2),
    s.canUp x = true → s.trxRx x = true → ((canOf s x).bus = .rx ∨ (canOf s x).bus = .idle) →
    ((canOf s x).fdEn = true ∨ bit w1 4 = false) → (canOf s x).filter w0 w1 = some f →
    fld (canOf s x).flts[f].ctl 1 2 = j.val →
    (bit (canOf s x).cmdgCfg 0 = false ∨ bit (canOf s x).flts[f].ctl 3 = false) → (canQ s x j).held.length < 32 →
    s.coreRuns = true → (rxQue s x j).w32 = true → (rxQue s x j).ents.length < (rxQue s x j).depth →
    fires (.canFrameReceived x w0 w1 b us) s fun t =>
      (rxQue t x j).ents = (rxQue s x j).ents ++ [pack [(0, 8, (canQ s x j).nextRseq), (8, 4, fld w1 0 4), (12, 1, fld
        w0 29 1), (13, 1, fld w1 4 1), (14, 1, fld w0 30 1), (15, 1, fld w1 6 1), (16, 5, f.val), (21, 11, fld w0 18
        11)]] ∧
      onlyAt ⟨24 + 2 * x.val + j.val, by omega⟩ s.que.q t.que.q ∧
      onlyTouches [.fab, .can, .free, .que, .pwr, .pmc] s t) ∧
  (∀ (s : State) (x : Fin 4) (w0 w1 : W32) (b : List W8) (us : Nat) (f : Fin 32) (j : Fin 2),
    s.canUp x = true → s.trxRx x = true → ((canOf s x).bus = .rx ∨ (canOf s x).bus = .idle) →
    ((canOf s x).fdEn = true ∨ bit w1 4 = false) → (canOf s x).filter w0 w1 = some f →
    fld (canOf s x).flts[f].ctl 1 2 = j.val →
    (bit (canOf s x).cmdgCfg 0 = false ∨ bit (canOf s x).flts[f].ctl 3 = false) → 32 ≤ (canQ s x j).held.length →
    fires (.canFrameReceived x w0 w1 b us) s fun t =>
      (canOf t x).err = (canOf s x).err ||| BitVec.ofNat 32 (256 * 2 ^ j.val) ∧
      (canOf t x).cntOvf = satN 16 ((canOf s x).cntOvf + 1) ∧
      (canOf t x).bus = (if (canOf s x).offPend then .off else .idle) ∧ (canOf t x).objs = (canOf s x).objs ∧
      (canOf t x).gate = (canOf s x).gate ∧ (canOf t x).q = (canOf s x).q ∧ onlyAt x s.can t.can ∧
      onlyTouches [.fab, .can, .free] s t) ∧
  (∀ (s : State) (x : Fin 4) (w0 w1 : W32) (b : List W8) (us : Nat) (f : Fin 32) (m : Fin 128),
    s.canUp x = true → s.trxRx x = true → ((canOf s x).bus = .rx ∨ (canOf s x).bus = .idle) →
    ((canOf s x).fdEn = true ∨ bit w1 4 = false) → (canOf s x).filter w0 w1 = some f →
    fld (canOf s x).flts[f].ctl 1 2 = 2 → fld (canOf s x).flts[f].ctl 8 7 = m.val → (canObj s x m).en = true →
    (canObj s x m).dirTx = false →
    fires (.canFrameReceived x w0 w1 b us) s fun t =>
      ((canObj t x m) =
        { (canObj s x m) with live := (if (canObj s x m).new && !(canObj s x m).ovwr then (canObj s x m).live else rxBuf w0 w1 b f.val 0 ((if bit (canOf s x).ctl 6 then (if (canOf s x).bus = .rx then (canOf s x).sofAt else s.now - us) else s.now) % 2 ^ 48)), new := true, lost := ((canObj s x m).lost || (canObj s x m).new) })
        ∧
      onlyAt m (canOf s x).objs (canOf t x).objs ∧
      (canOf t x).err = (if (canObj s x m).new then (canOf s x).err ||| 0x800#32 else (canOf s x).err) ∧
      (canOf t x).bus = (if (canOf s x).offPend then .off else .idle) ∧ (canOf t x).q = (canOf s x).q ∧
      (canOf t x).gate = (canOf s x).gate ∧ onlyAt x s.can t.can ∧ onlyTouches [.fab, .can, .free] s t) ∧
  (∀ (s : State) (x : Fin 4) (w0 w1 : W32) (b : List W8) (us : Nat) (f : Fin 32) (m : Fin 128),
    s.canUp x = true → s.trxRx x = true → ((canOf s x).bus = .rx ∨ (canOf s x).bus = .idle) →
    ((canOf s x).fdEn = true ∨ bit w1 4 = false) → (canOf s x).filter w0 w1 = some f →
    fld (canOf s x).flts[f].ctl 1 2 = 2 → fld (canOf s x).flts[f].ctl 8 7 = m.val →
    ((canObj s x m).en = false ∨ (canObj s x m).dirTx = true) →
    fires (.canFrameReceived x w0 w1 b us) s fun t =>
      (canOf t x).err = (canOf s x).err ||| 0x400#32 ∧
      (canOf t x).bus = (if (canOf s x).offPend then .off else .idle) ∧ (canOf t x).objs = (canOf s x).objs ∧
      (canOf t x).q = (canOf s x).q ∧ (canOf t x).gate = (canOf s x).gate ∧ onlyAt x s.can t.can ∧
      onlyTouches [.fab, .can, .free] s t) ∧
  (∀ (s : State) (c x : Fin 4) (j : Fin 2) (r : W8) (h : FrameBuf) (l : List FrameBuf),
    canStore s (islCan x.val) 3 → (canQ s x j).held = h :: l →
    (r.toNat + 256 - fld h[1] 16 8) % 256 < (canQ s x j).held.length →
    fires (.rel c x j r) s fun t =>
      (canQ t x j) =
        { (canQ s x j) with held := (canQ s x j).held.drop ((r.toNat + 256 - fld h[1] 16 8) % 256 + 1), cmdRes := 0 }
        ∧
      onlyAt j (canOf s x).q (canOf t x).q ∧ (canOf t x).objs = (canOf s x).objs ∧ (canOf t x).bus = (canOf s x).bus ∧
      onlyAt x s.can t.can ∧ onlyTouches [.fab, .answer, .pmc, .can, .free] s t) ∧
  (∀ (s : State) (c x : Fin 4) (j : Fin 2) (r : W8) (h : FrameBuf) (l : List FrameBuf),
    canStore s (islCan x.val) 3 → (canQ s x j).held = h :: l →
    (canQ s x j).held.length ≤ (r.toNat + 256 - fld h[1] 16 8) % 256 →
    fires (.rel c x j r) s fun t =>
      (canQ t x j) = { (canQ s x j) with cmdRes := 2 } ∧ onlyAt j (canOf s x).q (canOf t x).q ∧
      (canOf t x).objs = (canOf s x).objs ∧ (canOf t x).bus = (canOf s x).bus ∧ onlyAt x s.can t.can ∧
      onlyTouches [.fab, .answer, .pmc, .can, .free] s t) ∧
  (∀ (s : State) (c x : Fin 4) (j : Fin 2) (r : W8), canStore s (islCan x.val) 3 → (canQ s x j).held = [] →
    fires (.rel c x j r) s fun t =>
      (canQ t x j) = { (canQ s x j) with cmdRes := 2 } ∧ onlyAt j (canOf s x).q (canOf t x).q ∧
      (canOf t x).objs = (canOf s x).objs ∧ (canOf t x).bus = (canOf s x).bus ∧ onlyAt x s.can t.can ∧
      onlyTouches [.fab, .answer, .pmc, .can, .free] s t) ∧
  (∀ (s : State) (c x : Fin 4) (j : Fin 2), canStore s (islCan x.val) 3 →
    fires (.queueFrameFlush c x j) s fun t =>
      (canQ t x j) = { (canQ s x j) with held := [], cmdRes := 0 } ∧ onlyAt j (canOf s x).q (canOf t x).q ∧
      (canOf t x).objs = (canOf s x).objs ∧ (canOf t x).bus = (canOf s x).bus ∧ onlyAt x s.can t.can ∧
      onlyTouches [.fab, .answer, .pmc, .can, .free] s t) ∧
  (∀ (s : State) (c x : Fin 4), canStore s (islCan x.val) 3 →
    fires (.forget c x) s fun t =>
      (canOf t x) = { (canOf s x) with gate := Vector.replicate 64 none } ∧ onlyAt x s.can t.can ∧
      onlyTouches [.fab, .answer, .pmc, .can, .free] s t) ∧
  (∀ (s : State) (x : Fin 4) (w0 w1 : W32) (b : List W8) (us : Nat) (f : Fin 32) (j : Fin 2),
    s.canUp x = true → s.trxRx x = true → ((canOf s x).bus = .rx ∨ (canOf s x).bus = .idle) →
    ((canOf s x).fdEn = true ∨ bit w1 4 = false) → (canOf s x).filter w0 w1 = some f →
    fld (canOf s x).flts[f].ctl 1 2 = j.val → bit (canOf s x).cmdgCfg 0 = true →
    bit (canOf s x).flts[f].ctl 3 = true → frameLen w0 w1 < 3 →
    fires (.canFrameReceived x w0 w1 b us) s fun t =>
      (canOf t x).short = satN 8 ((canOf s x).short + 1) ∧
      (canOf t x).bus = (if (canOf s x).offPend then .off else .idle) ∧ (canOf t x).objs = (canOf s x).objs ∧
      (canOf t x).q = (canOf s x).q ∧ (canOf t x).gate = (canOf s x).gate ∧ (canOf t x).dup = (canOf s x).dup ∧
      onlyAt x s.can t.can ∧ onlyTouches [.fab, .can, .free] s t) ∧
  (∀ (s : State) (x : Fin 4) (w0 w1 : W32) (b : List W8) (us : Nat) (f : Fin 32) (j : Fin 2) (src : Fin 64) (q : W8),
    s.canUp x = true → s.trxRx x = true → ((canOf s x).bus = .rx ∨ (canOf s x).bus = .idle) →
    ((canOf s x).fdEn = true ∨ bit w1 4 = false) → (canOf s x).filter w0 w1 = some f →
    fld (canOf s x).flts[f].ctl 1 2 = j.val → bit (canOf s x).cmdgCfg 0 = true →
    bit (canOf s x).flts[f].ctl 3 = true → 3 ≤ frameLen w0 w1 → (b.getD 0 0).toNat % 64 = src.val → b.getD 1 0 = q →
    (canOf s x).gate[src] ≠ some q → (canQ s x j).held.length < 32 →
    fires (.canFrameReceived x w0 w1 b us) s fun t =>
      ((canQ t x j).held = (canQ s x j).held ++ [rxBuf w0 w1 b f.val (canQ s x j).nextRseq ((if bit (canOf s x).ctl 6
        then (if (canOf s x).bus = .rx then (canOf s x).sofAt else s.now - us) else s.now) % 2 ^ 48)]) ∧
      (canOf t x).gate[src] = some q ∧ onlyAt src (canOf s x).gate (canOf t x).gate ∧
      onlyAt j (canOf s x).q (canOf t x).q ∧ (canOf t x).bus = (if (canOf s x).offPend then .off else .idle) ∧
      (canOf t x).objs = (canOf s x).objs ∧ (canOf t x).dup = (canOf s x).dup ∧
      (canOf t x).short = (canOf s x).short ∧ onlyAt x s.can t.can ∧
      onlyTouches [.fab, .can, .free, .que, .pwr, .pmc] s t) ∧
  (∀ (s : State) (x : Fin 4) (w0 w1 : W32) (b : List W8) (us : Nat) (f : Fin 32) (j : Fin 2) (src : Fin 64) (q : W8),
    s.canUp x = true → s.trxRx x = true → ((canOf s x).bus = .rx ∨ (canOf s x).bus = .idle) →
    ((canOf s x).fdEn = true ∨ bit w1 4 = false) → (canOf s x).filter w0 w1 = some f →
    fld (canOf s x).flts[f].ctl 1 2 = j.val → bit (canOf s x).cmdgCfg 0 = true →
    bit (canOf s x).flts[f].ctl 3 = true → 3 ≤ frameLen w0 w1 → (b.getD 0 0).toNat % 64 = src.val → b.getD 1 0 = q →
    (canOf s x).gate[src] ≠ some q → 32 ≤ (canQ s x j).held.length →
    fires (.canFrameReceived x w0 w1 b us) s fun t =>
      (canOf t x).cntOvf = satN 16 ((canOf s x).cntOvf + 1) ∧
      (canOf t x).bus = (if (canOf s x).offPend then .off else .idle) ∧ (canOf t x).objs = (canOf s x).objs ∧
      (canOf t x).q = (canOf s x).q ∧ (canOf t x).gate = (canOf s x).gate ∧ (canOf t x).dup = (canOf s x).dup ∧
      (canOf t x).short = (canOf s x).short ∧ onlyAt x s.can t.can ∧ onlyTouches [.fab, .can, .free] s t) ∧
  (∀ (s : State) (x : Fin 4) (w0 w1 : W32) (b : List W8) (us : Nat) (f : Fin 32) (j : Fin 2) (src : Fin 64) (q : W8) (m : Fin 128),
    s.canUp x = true → s.trxRx x = true → ((canOf s x).bus = .rx ∨ (canOf s x).bus = .idle) →
    ((canOf s x).fdEn = true ∨ bit w1 4 = false) → (canOf s x).filter w0 w1 = some f →
    fld (canOf s x).flts[f].ctl 1 2 = j.val → bit (canOf s x).cmdgCfg 0 = true →
    bit (canOf s x).flts[f].ctl 3 = true → 3 ≤ frameLen w0 w1 → (b.getD 0 0).toNat % 64 = src.val → b.getD 1 0 = q →
    (canOf s x).gate[src] = some q → fld (canOf s x).cmdgCfg 8 7 = m.val → (canObj s x m).en = true →
    (canObj s x m).dirTx = true → (canObj s x m).busy = false →
    (bit (canObj s x m).buf[1] 4 = false ∨ ((canOf s x).fdEn = true ∧ bit (canObj s x m).buf[0] 30 = false)) →
    fires (.canFrameReceived x w0 w1 b us) s fun t =>
      (canObj t x m) =
        { (canObj s x m) with txs := .pending, berr := 0, age := (canOf s x).ages, abortReq := false, cmdRes := 0, buf := ((canObj s x m).buf.set 1 (((canObj s x m).buf[1] &&& 0x30#32) ||| 4#32)).set 4 (pack [(0, 8, fld (canOf s x).cmdgCfg 16 6), (8, 8, q.toNat), (16, 8, src.val), (24, 8, 1)]) }
        ∧
      onlyAt m (canOf s x).objs (canOf t x).objs ∧ (canOf t x).dup = satN 16 ((canOf s x).dup + 1) ∧
      (canOf t x).bus = (if (canOf s x).offPend then .off else .idle) ∧ (canOf t x).q = (canOf s x).q ∧
      (canOf t x).gate = (canOf s x).gate ∧ (canOf t x).ackLost = (canOf s x).ackLost ∧ onlyAt x s.can t.can ∧
      onlyTouches [.fab, .can, .free] s t) ∧
  (∀ (s : State) (x : Fin 4) (w0 w1 : W32) (b : List W8) (us : Nat) (f : Fin 32) (j : Fin 2) (src : Fin 64) (q : W8) (m : Fin 128),
    s.canUp x = true → s.trxRx x = true → ((canOf s x).bus = .rx ∨ (canOf s x).bus = .idle) →
    ((canOf s x).fdEn = true ∨ bit w1 4 = false) → (canOf s x).filter w0 w1 = some f →
    fld (canOf s x).flts[f].ctl 1 2 = j.val → bit (canOf s x).cmdgCfg 0 = true →
    bit (canOf s x).flts[f].ctl 3 = true → 3 ≤ frameLen w0 w1 → (b.getD 0 0).toNat % 64 = src.val → b.getD 1 0 = q →
    (canOf s x).gate[src] = some q → fld (canOf s x).cmdgCfg 8 7 = m.val →
    ((canObj s x m).en = false ∨ (canObj s x m).dirTx = false ∨ (canObj s x m).busy = true) →
    fires (.canFrameReceived x w0 w1 b us) s fun t =>
      (canOf t x).dup = satN 16 ((canOf s x).dup + 1) ∧ (canOf t x).ackLost = satN 8 ((canOf s x).ackLost + 1) ∧
      (canOf t x).bus = (if (canOf s x).offPend then .off else .idle) ∧ (canOf t x).objs = (canOf s x).objs ∧
      (canOf t x).q = (canOf s x).q ∧ (canOf t x).gate = (canOf s x).gate ∧ onlyAt x s.can t.can ∧
      onlyTouches [.fab, .can, .free] s t)

/-- Transceiver states (R475 to R479, R485) and the selective-wake decoder (R480 to R483). Between its two limits a
threshold is free, and nothing is said. -/
def Obligations.TransceiversWakeTheNetwork : Prop :=
  (∀ (s : State) (c x : Fin 4) (v : W32), canStore s 0 4 → bit (nmOf s x).ctl 0 = false →
    fires (.trxModeWrite c x v) s fun t =>
      ((nmOf t x) =
        { (nmOf s x) with trxCtl := keep 0xFF73 v, cmdRes := 0, switch := (if (nmOf s x).trx = trxOf (fld v 0 2) then none else some (trxOf (fld v 0 2), s.now)) })
        ∧
      onlyAt x s.nm t.nm ∧ t.answer = .done ∧ onlyTouches [.fab, .answer, .pmc, .nm, .free] s t) ∧
  (∀ (s : State) (c x : Fin 4) (v : W32), canStore s 0 4 → bit (nmOf s x).ctl 0 = true →
    fires (.trxModeWrite c x v) s fun t =>
      (nmOf t x) = (if fld v 0 2 = fld (nmOf s x).trxCtl 0 2 then
        { (nmOf s x) with trxCtl := keep 0xFF73 v, cmdRes := 0 } else { (nmOf s x) with cmdRes := 3 }) ∧
      onlyAt x s.nm t.nm ∧ onlyTouches [.fab, .answer, .pmc, .nm, .free] s t) ∧
  (∀ (s : State) (x : Fin 4) (m : TrxMode) (a : Nat),
    s.nmUp = true → (nmOf s x).switch = some (m, a) →
    ((nmOf s x).st ≠ .prepSleep ∨ (nmOf s x).stage ≠ 2 ∨ m = .normal ∨ m = .listen) →
    fires (.trxModeComplete x) s fun t =>
      ((nmOf t x) =
        { (nmOf s x) with trx := m, switch := none, bias := (decide (m = .normal ∨ m = .listen) || ((nmOf s x).low && (nmOf s x).bias)), errCnt := (if m = .normal ∨ m = .listen then (nmOf s x).errCnt else 0) })
        ∧
      onlyAt x s.nm t.nm ∧ onlyTouches [.fab, .nm] s t) ∧
  (∀ (s : State) (x : Fin 4) (d : Bool) (us : Nat),
    s.nmUp = true → (d = false ∨ (2500 ≤ us ∧ (nmOf s x).trx = .normal)) →
    fires (.txdDom x d us) s fun t =>
      (nmOf t x) = { (nmOf s x) with txdDom := d } ∧ onlyAt x s.nm t.nm ∧ onlyTouches [.fab, .nm] s t) ∧
  (∀ (s : State) (x : Fin 4) (us : Nat), (us < 2500 ∨ (nmOf s x).trx ≠ .normal) →
    fires (.txdDom x true us) s fun t =>
      t = s) ∧
  (∀ (s : State) (x : Fin 4) (d : Bool), s.nmUp = true →
    fires (.vccUv x d) s fun t =>
      (nmOf t x) = { (nmOf s x) with vccUv := d } ∧ onlyAt x s.nm t.nm ∧ onlyTouches [.fab, .nm] s t) ∧
  (∀ (s : State) (x : Fin 4) (d1 r d2 total : Nat),
    s.nmUp = true → ((nmOf s x).trx = .standby ∨ (nmOf s x).trx = .sleep) → 1800 ≤ d1 → 1800 ≤ r → 1800 ≤ d2 →
    total ≤ 1000000 → bit (nmOf s x).trxCtl 4 = false → (nmOf s x).st = .busSleep →
    fires (.wup x d1 r d2 total) s fun t =>
      (nmOf t x) =
        { (nmOf s x) with bias := true, trx := .standby, switch := some (.normal, s.now), errCnt := 0, wakeCause := 1, wakeTime := s.count, wakes := satN 16 ((nmOf s x).wakes + 1), st := .wakeCheck, stage := 0, tFwAt := some s.now, awakeAt := s.now, woken := true }
        ∧
      onlyAt x s.nm t.nm ∧ ((nmOf s x).online = true → s.isUp (5 + x.val) = true → (canOf t x).mode = 1) ∧
      ((nmOf s x).online = false ∨ s.isUp (5 + x.val) = false → t.can = s.can) ∧ onlyAt x s.can t.can ∧
      (bit s.pwr.wakeEn (4 + x.val) = true → s.pwr.phase = .deep → t.pwr.phase = .returning) ∧
      onlyTouches [.fab, .pwr, .can, .nm, .free] s t) ∧
  (∀ (s : State) (x : Fin 4) (d1 r d2 total : Nat),
    s.nmUp = true → ((nmOf s x).trx = .standby ∨ (nmOf s x).trx = .sleep) → 1800 ≤ d1 → 1800 ≤ r → 1800 ≤ d2 →
    total ≤ 1000000 → bit (nmOf s x).trxCtl 4 = false → (nmOf s x).st = .off →
    fires (.wup x d1 r d2 total) s fun t =>
      (nmOf t x) =
        { (nmOf s x) with bias := true, trx := .standby, errCnt := 0, wakeCause := 1, wakeTime := s.count, wakes := satN 16 ((nmOf s x).wakes + 1) }
        ∧
      onlyAt x s.nm t.nm ∧ t.can = s.can ∧ onlyTouches [.fab, .pwr, .can, .nm, .free] s t) ∧
  (∀ (s : State) (x : Fin 4) (d1 r d2 total : Nat),
    s.nmUp = true → ((nmOf s x).trx = .standby ∨ (nmOf s x).trx = .sleep) → 1800 ≤ d1 → 1800 ≤ r → 1800 ≤ d2 →
    total ≤ 1000000 → bit (nmOf s x).trxCtl 4 = false → (nmOf s x).st = .prepSleep →
    fires (.wup x d1 r d2 total) s fun t =>
      (nmOf t x).st = .ready ∧ (nmOf t x).stage = 0 ∧ (nmOf t x).wakeCause = 1 ∧
      (nmOf t x).wakes = satN 16 ((nmOf s x).wakes + 1) ∧ (nmOf t x).aborts = satN 16 ((nmOf s x).aborts + 1) ∧
      (nmOf t x).switch = some (.normal, s.now) ∧
      ((nmOf s x).online = true → s.isUp (5 + x.val) = true → (canOf t x).mode = 1) ∧ sendsKeepAlive s t x true ∧
      onlyAt x s.nm t.nm ∧ onlyAt x s.can t.can ∧ onlyTouches [.fab, .pwr, .can, .nm, .free] s t) ∧
  (∀ (s : State) (x : Fin 4) (d1 r d2 total : Nat),
    s.nmUp = true → ((nmOf s x).trx = .standby ∨ (nmOf s x).trx = .sleep) → 1800 ≤ d1 → 1800 ≤ r → 1800 ≤ d2 →
    total ≤ 1000000 → (bit (nmOf s x).trxCtl 4 = true ∨ nmAwake (nmOf s x).st = true) →
    fires (.wup x d1 r d2 total) s fun t =>
      (nmOf t x) = { (nmOf s x) with bias := true } ∧ onlyAt x s.nm t.nm ∧ t.can = s.can ∧ t.pwr = s.pwr ∧
      onlyTouches [.fab, .pwr, .can, .nm, .free] s t) ∧
  (∀ (s : State) (x : Fin 4) (d1 r d2 total : Nat),
    (((nmOf s x).trx = .normal ∨ (nmOf s x).trx = .listen) ∨ d1 < 500 ∨ r < 500 ∨ d2 < 500 ∨ 1000000 < total) →
    fires (.wup x d1 r d2 total) s fun t =>
      t.nm = s.nm ∧ t.can = s.can ∧ t.pwr = s.pwr ∧ onlyTouches [.fab, .pwr, .can, .nm, .free] s t) ∧
  (∀ (s : State) (x : Fin 4) (us : Nat),
    s.nmUp = true → ((nmOf s x).trx = .standby ∨ (nmOf s x).trx = .sleep) → 1200000 ≤ us →
    fires (.biasTimeout x us) s fun t =>
      (nmOf t x) = { (nmOf s x) with bias := false, errCnt := 0 } ∧ onlyAt x s.nm t.nm ∧ onlyTouches [.nm, .free] s t) ∧
  (∀ (s : State) (x : Fin 4) (us : Nat), (((nmOf s x).trx = .normal ∨ (nmOf s x).trx = .listen) ∨ us < 600000) →
    fires (.biasTimeout x us) s fun t =>
      t.nm = s.nm ∧ onlyTouches [.nm, .free] s t) ∧
  (∀ (s : State) (x : Fin 4), 
      ((nmOf s x).regHold = true ↔ (nmOf s x).trx ≠ .sleep) ∧
      (s.regHeld = true ↔ s.isUp 0 = true ∧ ∃ y : Fin 4, s.nm[y].trx ≠ .sleep)) ∧
  (∀ (s : State) (x : Fin 4) (w0 w1 : W32) (b : List W8) (ok : Bool),
    (bit w1 4 = true ∨ (((nmOf s x).trx = .standby ∨ (nmOf s x).trx = .sleep) ∧ ((nmOf s x).bias = false ∨ bit (nmOf s
      x).trxCtl 4 = false))) →
    fires (.decodedFrame x ok w0 w1 b) s fun t =>
      t.nm = s.nm ∧ t.can = s.can ∧ t.pwr = s.pwr ∧ onlyTouches [.fab, .pwr, .can, .nm] s t) ∧
  (∀ (s : State) (x : Fin 4) (w0 w1 : W32) (b : List W8),
    s.nmUp = true → bit w1 4 = false →
    ((nmOf s x).trx = .normal ∨ (nmOf s x).trx = .listen) ∨ ((nmOf s x).bias = true ∧ bit (nmOf s x).trxCtl 4 = true) →
    (((nmOf s x).trx = .normal ∨ (nmOf s x).trx = .listen) ∨ nmAwake (nmOf s x).st = true ∨ satN 8 ((nmOf s x).errCnt
      + 1) ≤ fld (nmOf s x).trxCtl 8 8) →
    fires (.decodedFrame x false w0 w1 b) s fun t =>
      (nmOf t x) = { (nmOf s x) with errCnt := satN 8 ((nmOf s x).errCnt + 1) } ∧ onlyAt x s.nm t.nm ∧ t.can = s.can ∧
      t.pwr = s.pwr ∧ onlyTouches [.fab, .pwr, .can, .nm] s t) ∧
  (∀ (s : State) (x : Fin 4) (w0 w1 : W32) (b : List W8),
    s.nmUp = true → bit w1 4 = false → ((nmOf s x).trx = .standby ∨ (nmOf s x).trx = .sleep) →
    (nmOf s x).bias = true → bit (nmOf s x).trxCtl 4 = true →
    fld (nmOf s x).trxCtl 8 8 < satN 8 ((nmOf s x).errCnt + 1) → (nmOf s x).st = .busSleep →
    fires (.decodedFrame x false w0 w1 b) s fun t =>
      (nmOf t x) =
        { (nmOf s x) with trx := .standby, switch := some (.normal, s.now), errCnt := 0, wakeCause := 3, wakeTime := s.count, wakes := satN 16 ((nmOf s x).wakes + 1), st := .wakeCheck, stage := 0, tFwAt := some s.now, awakeAt := s.now, woken := true }
        ∧
      onlyAt x s.nm t.nm ∧ ((nmOf s x).online = true → s.isUp (5 + x.val) = true → (canOf t x).mode = 1) ∧
      ((nmOf s x).online = false ∨ s.isUp (5 + x.val) = false → t.can = s.can) ∧ onlyAt x s.can t.can ∧
      onlyTouches [.fab, .pwr, .can, .nm] s t) ∧
  (∀ (s : State) (x : Fin 4) (w0 w1 : W32) (b : List W8),
    s.nmUp = true → bit w1 4 = false → ((nmOf s x).trx = .standby ∨ (nmOf s x).trx = .sleep) →
    (nmOf s x).bias = true → bit (nmOf s x).trxCtl 4 = true → (nmOf s x).st = .busSleep → frameRtr w0 w1 = false →
    (w0 ^^^ (nmOf s x).wufId) &&& (nmOf s x).wufMask &&& 0x1FFFFFFF#32 = 0 →
    (bit w0 29 = bit (nmOf s x).wufId 29 ∨ bit (nmOf s x).wufMask 29 = false) →
    (bit (nmOf s x).wufCfg 4 = false ∨ (fld w1 0 4 = fld (nmOf s x).wufCfg 0 4 ∧ (fld w1 0 4 = 0 ∨ ∃ i, i < frameLen
      w0 w1 ∧ fld (if i < 4 then (nmOf s x).wufDlo else (nmOf s x).wufDhi) (8 * (i % 4)) 8 &&& (b.getD i 0).toNat ≠
      0))) →
    (bit w0 29 = true ∨ fld w0 18 11 / 64 ≠ fld (nmOf s x).kaCfg 16 5) →
    fires (.decodedFrame x true w0 w1 b) s fun t =>
      (nmOf t x) =
        { (nmOf s x) with trx := .standby, switch := some (.normal, s.now), errCnt := 0, wakeCause := 2, wakeTime := s.count, wakes := satN 16 ((nmOf s x).wakes + 1), st := .wakeCheck, stage := 0, tFwAt := some s.now, awakeAt := s.now, woken := true }
        ∧
      onlyAt x s.nm t.nm ∧ ((nmOf s x).online = true → s.isUp (5 + x.val) = true → (canOf t x).mode = 1) ∧
      ((nmOf s x).online = false ∨ s.isUp (5 + x.val) = false → t.can = s.can) ∧ onlyAt x s.can t.can ∧
      onlyTouches [.fab, .pwr, .can, .nm] s t) ∧
  (∀ (s : State) (x : Fin 4) (w0 w1 : W32) (b : List W8),
    s.nmUp = true → bit w1 4 = false → ((nmOf s x).trx = .standby ∨ (nmOf s x).trx = .sleep) →
    (nmOf s x).bias = true → bit (nmOf s x).trxCtl 4 = true → (nmOf s x).st = .busSleep →
    (w0 ^^^ (nmOf s x).wufId) &&& (nmOf s x).wufMask &&& 0x1FFFFFFF#32 ≠ 0 ∨ (bit (nmOf s x).wufCfg 4 = true ∧ fld w1
      0 4 ≠ fld (nmOf s x).wufCfg 0 4) →
    (bit w0 29 = true ∨ fld w0 18 11 / 64 ≠ fld (nmOf s x).kaCfg 16 5) →
    fires (.decodedFrame x true w0 w1 b) s fun t =>
      (nmOf t x) = { (nmOf s x) with errCnt := (nmOf s x).errCnt - 1 } ∧ onlyAt x s.nm t.nm ∧ t.can = s.can ∧
      t.pwr = s.pwr ∧ onlyTouches [.fab, .pwr, .can, .nm] s t) ∧
  (∀ (s : State) (x : Fin 4) (uv : Bool), s.nmUp = false →
    fires (.vccUv x uv) s fun t =>
      t = s) ∧
  (∀ (s : State) (x : Fin 4) (d1 r d2 total : Nat), (s.nmUp = false ∨ s.nm[x].low = false) →
    fires (.wup x d1 r d2 total) s fun t =>
      t = s) ∧
  (∀ (s : State) (x : Fin 4) (us : Nat), (s.nmUp = false ∨ s.nm[x].low = false) →
    fires (.biasTimeout x us) s fun t =>
      t = s) ∧
  (∀ (s : State) (x : Fin 4), (s.nmUp = false ∨ s.nm[x].switch = none) →
    fires (.trxModeComplete x) s fun t =>
      t = s)

/-- The transitions of R494 to R496, keep-alives (R486, R488) and the night-shift log (R500, R501). -/
def Obligations.NetworkManagementSleepsAndWakes : Prop :=
  (∀ (s : State) (c x : Fin 4) (v : W32), canStore s 0 4 → bit (nmOf s x).ctl 0 = false → (nmOf s x).st = .off →
    fires (.nmEnable c x v) s fun t =>
      (nmOf t x).st = (if bit v 2 then .need else .ready) ∧ (nmOf t x).ctl = keep 0x3F1F (v ||| 1) ∧
      (nmOf t x).tIdleAt = some s.now ∧ (nmOf t x).tKaAt = (if bit v 2 then some s.now else (nmOf s x).tKaAt) ∧
      (nmOf t x).switch = (if (nmOf s x).trx = .normal then none else some (.normal, s.now)) ∧
      (nmOf t x).awakeAt = s.now ∧ (nmOf t x).woken = false ∧ (nmOf t x).nodes = (nmOf s x).nodes ∧
      ((nmOf s x).online = true → s.isUp (5 + x.val) = true → (canOf t x).mode = 1) ∧
      (bit v 2 = true → sendsKeepAlive s t x false) ∧ onlyAt x s.nm t.nm ∧ onlyAt x s.can t.can ∧
      onlyTouches [.fab, .answer, .pwr, .pmc, .can, .nm, .free] s t) ∧
  (∀ (s : State) (c x : Fin 4) (v : W32),
    canStore s 0 4 → bit (nmOf s x).ctl 0 = true → bit v 2 = bit (nmOf s x).ctl 2 →
    fires (.nmDisable c x v) s fun t =>
      (nmOf t x) =
        { (nmOf s x) with ctl := keep 0x3F1E v, cmdRes := 0, st := .off, stage := 0, switch := none, tIdleAt := none, tKaAt := none, tFwAt := none, trxCtl := keep 0xFFFFFFFC (nmOf s x).trxCtl ||| BitVec.ofNat 32 (trxCode (nmOf s x).trx), nodes := (nmOf s x).nodes.map (NsNode.stop (fld (nmOf s x).nsCfg 0 16 != 0)) }
        ∧
      onlyAt x s.nm t.nm ∧ t.can = s.can ∧ onlyTouches [.fab, .answer, .pwr, .pmc, .can, .nm, .free] s t) ∧
  (∀ (s : State) (c x : Fin 4),
    canStore s 0 4 → bit (nmOf s x).ctl 2 = false → ((nmOf s x).st = .ready ∨ (nmOf s x).st = .wakeCheck) →
    fires (.needRise c x) s fun t =>
      (nmOf t x).st = .need ∧ (nmOf t x).ctl = keep 0x3F1F (nmOf s x).ctl ||| 4#32 ∧ (nmOf t x).tKaAt = some s.now ∧
      (nmOf t x).tFwAt = none ∧
      (nmOf t x).switch = (if (nmOf s x).trx = .normal then none else some (.normal, s.now)) ∧
      (nmOf t x).awakeAt = (nmOf s x).awakeAt ∧ (nmOf t x).nodes = (nmOf s x).nodes ∧
      ((nmOf s x).online = true → s.isUp (5 + x.val) = true → (canOf t x).mode = 1) ∧ sendsKeepAlive s t x false ∧
      onlyAt x s.nm t.nm ∧ onlyAt x s.can t.can ∧ onlyTouches [.fab, .answer, .pwr, .pmc, .can, .nm, .free] s t) ∧
  (∀ (s : State) (c x : Fin 4), canStore s 0 4 → bit (nmOf s x).ctl 2 = false → (nmOf s x).st = .busSleep →
    fires (.needRise c x) s fun t =>
      (nmOf t x).st = .need ∧ (nmOf t x).wakeCause = 4 ∧ (nmOf t x).wakeTime = s.count ∧
      (nmOf t x).tKaAt = some s.now ∧ (nmOf t x).awakeAt = s.now ∧ (nmOf t x).woken = false ∧
      ((nmOf s x).online = true → s.isUp (5 + x.val) = true → (canOf t x).mode = 1) ∧ sendsKeepAlive s t x false ∧
      onlyAt x s.nm t.nm ∧ onlyAt x s.can t.can ∧ onlyTouches [.fab, .answer, .pwr, .pmc, .can, .nm, .free] s t) ∧
  (∀ (s : State) (c x : Fin 4), canStore s 0 4 → bit (nmOf s x).ctl 2 = false → (nmOf s x).st = .prepSleep →
    fires (.needRise c x) s fun t =>
      (nmOf t x).st = .need ∧ (nmOf t x).stage = 0 ∧ (nmOf t x).aborts = satN 16 ((nmOf s x).aborts + 1) ∧
      (nmOf t x).switch = (if (nmOf s x).trx = .normal then none else some (.normal, s.now)) ∧
      ((nmOf s x).online = true → s.isUp (5 + x.val) = true → (canOf t x).mode = 1) ∧ sendsKeepAlive s t x true ∧
      onlyAt x s.nm t.nm ∧ onlyAt x s.can t.can ∧ onlyTouches [.fab, .answer, .pwr, .pmc, .can, .nm, .free] s t) ∧
  (∀ (s : State) (c x : Fin 4),
    canStore s 0 4 → (bit (nmOf s x).ctl 2 = true ∨ (nmOf s x).st = .off ∨ (nmOf s x).st = .need) →
    fires (.needRise c x) s fun t =>
      (nmOf t x) = { (nmOf s x) with ctl := keep 0x3F1F (nmOf s x).ctl ||| 4#32, cmdRes := 0 } ∧ onlyAt x s.nm t.nm ∧
      t.can = s.can ∧ onlyTouches [.fab, .answer, .pwr, .pmc, .can, .nm, .free] s t) ∧
  (∀ (s : State) (c x : Fin 4), canStore s 0 4 → bit (nmOf s x).ctl 2 = true → (nmOf s x).st = .need →
    fires (.needFall c x) s fun t =>
      (nmOf t x) = { (nmOf s x) with ctl := keep 0x3F1B (nmOf s x).ctl, cmdRes := 0, st := .ready, tKaAt := none } ∧
      onlyAt x s.nm t.nm ∧ t.can = s.can ∧ onlyTouches [.fab, .answer, .pwr, .pmc, .can, .nm, .free] s t) ∧
  (∀ (s : State) (c x : Fin 4), canStore s 0 4 → (nmOf s x).st ≠ .need →
    fires (.needFall c x) s fun t =>
      (nmOf t x) = { (nmOf s x) with ctl := keep 0x3F1B (nmOf s x).ctl, cmdRes := 0 } ∧ onlyAt x s.nm t.nm ∧
      t.can = s.can ∧ onlyTouches [.fab, .answer, .pwr, .pmc, .can, .nm, .free] s t) ∧
  (∀ (s : State) (c x : Fin 4), canStore s 0 4 →
    fires (.online c x) s fun t =>
      (nmOf t x) = { (nmOf s x) with online := true, cmdRes := 0 } ∧ onlyAt x s.nm t.nm ∧
      ((nmAwake (nmOf s x).st = true) → bit (nmOf s x).ctl 0 = true → s.isUp (5 + x.val) = true → (canOf t x).mode =
        1) ∧
      (nmAwake (nmOf s x).st = false ∨ bit (nmOf s x).ctl 0 = false → t.can = s.can) ∧ onlyAt x s.can t.can ∧
      onlyTouches [.fab, .answer, .pmc, .can, .nm, .free] s t) ∧
  (∀ (s : State) (c x : Fin 4), canStore s 0 4 →
    fires (.nsClr c x) s fun t =>
      ((nmOf t x) =
        { (nmOf s x) with cmdRes := 0, nodes := (nmOf s x).nodes.map fun y => { y with count := 0, longest := 0, total := 0 } })
        ∧
      onlyAt x s.nm t.nm ∧ onlyTouches [.fab, .answer, .pmc, .nm, .free] s t) ∧
  (∀ (s : State) (x : Fin 4) (a : Nat), s.nmUp = true → (nmOf s x).st = .need → (nmOf s x).tKaAt = some a →
    fires (.tKaExpiry x) s fun t =>
      t.now = max s.now (a + (nmOf s x).tKa) ∧ (nmOf t x).tKaAt = some t.now ∧ (nmOf t x).st = .need ∧
      (nmOf t x).nodes = (nmOf s x).nodes ∧ sendsKeepAlive s t x false ∧ onlyAt x s.nm t.nm ∧ onlyAt x s.can t.can ∧
      onlyTouches [.tmb, .fab, .pwr, .ecc, .pmc, .can, .nm, .dep, .nv, .free] s t) ∧
  (∀ (s : State) (x : Fin 4),
    s.nmUp = true → (nmOf s x).kaPend = true → (nmOf s x).online = true → (canOf s x).mode = 1 →
    fires (.keepaliveDeferredSend x) s fun t =>
      (nmOf t x).kaPend = false ∧ (nmOf t x).st = (nmOf s x).st ∧ sendsKeepAlive s t x true ∧ onlyAt x s.nm t.nm ∧
      onlyAt x s.can t.can ∧ onlyTouches [.fab, .can, .nm] s t) ∧
  (∀ (s : State) (x : Fin 4) (a : Nat), s.nmUp = true → (nmOf s x).st = .ready → (nmOf s x).tIdleAt = some a →
    fires (.tIdleExpiry x) s fun t =>
      t.now = max s.now (a + (nmOf s x).tIdle) ∧ (nmOf t x).st = .prepSleep ∧
      (nmOf t x).stage = (if (canOf t x).bus = .off ∨ s.isUp (5 + x.val) = false then 2 else 1) ∧
      (nmOf t x).tIdleAt = none ∧ (nmOf t x).tKaAt = none ∧ (nmOf t x).tFwAt = none ∧
      (s.isUp (5 + x.val) = true → (canOf t x).mode = 0) ∧ (canOf t x).objs = (canOf s x).objs ∧ onlyAt x s.nm t.nm ∧
      onlyAt x s.can t.can ∧ onlyTouches [.tmb, .fab, .pwr, .ecc, .pmc, .can, .nm, .dep, .nv, .free] s t) ∧
  (∀ (s : State) (x : Fin 4) (a : Nat), s.nmUp = true → (nmOf s x).st = .need → (nmOf s x).tIdleAt = some a →
    fires (.tIdleExpiry x) s fun t =>
      t.now = max s.now (a + (nmOf s x).tIdle) ∧ (nmOf t x) = { (nmOf s x) with tIdleAt := some t.now } ∧
      onlyAt x s.nm t.nm ∧ t.can = s.can ∧ onlyTouches [.tmb, .fab, .pwr, .ecc, .pmc, .can, .nm, .dep, .nv, .free] s t) ∧
  (∀ (s : State) (x : Fin 4) (a : Nat), s.nmUp = true → (nmOf s x).st = .wakeCheck → (nmOf s x).tFwAt = some a →
    fires (.tFwExpiry x) s fun t =>
      t.now = max s.now (a + (nmOf s x).tFw) ∧ (nmOf t x).st = .prepSleep ∧
      (nmOf t x).falseWakes = satN 16 ((nmOf s x).falseWakes + 1) ∧
      (nmOf t x).stage = (if (canOf t x).bus = .off ∨ s.isUp (5 + x.val) = false then 2 else 1) ∧
      (s.isUp (5 + x.val) = true → (canOf t x).mode = 0) ∧ onlyAt x s.nm t.nm ∧ onlyAt x s.can t.can ∧
      onlyTouches [.tmb, .fab, .pwr, .ecc, .pmc, .can, .nm, .dep, .nv, .free] s t) ∧
  (∀ (s : State) (x : Fin 4),
    s.nmUp = true → (nmOf s x).st = .prepSleep → (nmOf s x).stage = 1 →
    ((canOf s x).bus = .off ∨ s.isUp (5 + x.val) = false) →
    fires (.prepSleepStage1Done x) s fun t =>
      (nmOf t x).stage = 2 ∧
      (nmOf t x).switch = (if (nmOf s x).trx = (if bit (nmOf s x).ctl 1 then .sleep else .standby) then none else some
        (if bit (nmOf s x).ctl 1 then .sleep else .standby, s.now)) ∧
      (nmOf t x) = { (nmOf s x) with stage := 2, switch := (nmOf t x).switch } ∧ onlyAt x s.nm t.nm ∧
      onlyTouches [.nm] s t) ∧
  (∀ (s : State) (x : Fin 4) (m : TrxMode) (a : Nat),
    s.nmUp = true → (nmOf s x).st = .prepSleep → (nmOf s x).stage = 2 → (nmOf s x).switch = some (m, a) →
    (m = .sleep ∨ m = .standby) →
    fires (.trxModeComplete x) s fun t =>
      (nmOf t x) =
        { (nmOf s x) with trx := m, switch := none, bias := ((nmOf s x).low && (nmOf s x).bias), errCnt := 0, st := .busSleep, stage := 0, nodes := (nmOf s x).nodes.map (NsNode.stop (fld (nmOf s x).nsCfg 0 16 != 0)) }
        ∧
      onlyAt x s.nm t.nm ∧ onlyTouches [.fab, .nm] s t) ∧
  (∀ (s : State) (x : Fin 4) (w0 w1 : W32) (b : List W8),
    s.nmUp = true → bit w1 4 = false → ((nmOf s x).trx = .normal ∨ (nmOf s x).trx = .listen) →
    (nmOf s x).st = .wakeCheck →
    fires (.decodedFrame x true w0 w1 b) s fun t =>
      (nmOf t x).st = .ready ∧ (nmOf t x).tIdleAt = some s.now ∧ (nmOf t x).tFwAt = none ∧
      (nmOf t x).errCnt = (nmOf s x).errCnt - 1 ∧
      ((nmOf s x).online = true → s.isUp (5 + x.val) = true → (canOf t x).mode = 1) ∧ onlyAt x s.nm t.nm ∧
      onlyAt x s.can t.can ∧ onlyTouches [.fab, .pwr, .can, .nm] s t) ∧
  (∀ (s : State) (x : Fin 4) (w0 w1 : W32) (b : List W8) (i : Fin 64),
    s.nmUp = true → bit w1 4 = false → ((nmOf s x).trx = .normal ∨ (nmOf s x).trx = .listen) →
    (nmOf s x).st = .prepSleep → bit w0 29 = false → frameRtr w0 w1 = false →
    fld w0 18 11 / 64 = fld (nmOf s x).kaCfg 16 5 → 2 ≤ fld w1 0 4 → fld w0 18 11 % 64 = i.val →
    (b.getD 0 0).toNat % 64 = i.val →
    fires (.decodedFrame x true w0 w1 b) s fun t =>
      (nmOf t x).st = .ready ∧ (nmOf t x).stage = 0 ∧ (nmOf t x).aborts = satN 16 ((nmOf s x).aborts + 1) ∧
      (nmOf t x).tIdleAt = some s.now ∧
      (nmOf t x).switch = (if (nmOf s x).trx = .normal then none else some (.normal, s.now)) ∧
      ((nmOf s x).online = true → s.isUp (5 + x.val) = true → (canOf t x).mode = 1) ∧ sendsKeepAlive s t x true ∧
      onlyAt x s.nm t.nm ∧ onlyAt x s.can t.can ∧ onlyTouches [.fab, .pwr, .can, .nm] s t) ∧
  (∀ (s : State) (x : Fin 4) (w0 w1 : W32) (b : List W8) (i : Fin 64) (p : Nat × Nat),
    s.nmUp = true → bit w1 4 = false → ((nmOf s x).trx = .normal ∨ (nmOf s x).trx = .listen) →
    ((nmOf s x).st = .ready ∨ (nmOf s x).st = .need) → bit w0 29 = false → frameRtr w0 w1 = false →
    fld w0 18 11 / 64 = fld (nmOf s x).kaCfg 16 5 → 2 ≤ fld w1 0 4 → fld w0 18 11 % 64 = i.val →
    (b.getD 0 0).toNat % 64 = i.val → (b.getD 1 0).getLsbD 0 = true →
    p = (nmOf s x).nodes[i].streak.getD (s.now, s.now) →
    fires (.decodedFrame x true w0 w1 b) s fun t =>
      (nmOf t x).tIdleAt = some s.now ∧ (nmOf t x).st = (nmOf s x).st ∧
      (nmOf t x).nodes[i].streak = some (p.1, s.now) ∧
      (nmOf t x).nodes[i].reached = ((nmOf s x).nodes[i].reached || (decide (fld (nmOf s x).nsCfg 0 16 ≠ 0) && decide
        (fld (nmOf s x).nsCfg 0 16 ≤ (s.now - p.1) / 1000000))) ∧
      (nmOf t x).nodes[i].count = (if (nmOf t x).nodes[i].reached && !(nmOf s x).nodes[i].reached then satN 16 ((nmOf
        s x).nodes[i].count + 1) else (nmOf s x).nodes[i].count) ∧
      onlyAt i (nmOf s x).nodes (nmOf t x).nodes ∧ t.can = s.can ∧ onlyAt x s.nm t.nm ∧
      onlyTouches [.fab, .pwr, .can, .nm] s t) ∧
  (∀ (s : State) (x : Fin 4) (w0 w1 : W32) (b : List W8) (i : Fin 64),
    s.nmUp = true → bit w1 4 = false → ((nmOf s x).trx = .normal ∨ (nmOf s x).trx = .listen) →
    ((nmOf s x).st = .ready ∨ (nmOf s x).st = .need) → bit w0 29 = false → frameRtr w0 w1 = false →
    fld w0 18 11 / 64 = fld (nmOf s x).kaCfg 16 5 → 2 ≤ fld w1 0 4 → fld w0 18 11 % 64 = i.val →
    (b.getD 0 0).toNat % 64 = i.val → (b.getD 1 0).getLsbD 0 = false →
    fires (.decodedFrame x true w0 w1 b) s fun t =>
      (nmOf t x) = { (nmOf s x) with errCnt := (nmOf s x).errCnt - 1, tIdleAt := some s.now } ∧ t.can = s.can ∧
      onlyAt x s.nm t.nm ∧ onlyTouches [.fab, .pwr, .can, .nm] s t) ∧
  (∀ (s : State) (x : Fin 4) (i : Fin 64) (a b : Nat), s.nmUp = true → (nmOf s x).nodes[i].streak = some (a, b) →
    fires (.streakEnd x i) s fun t =>
      t.now = max s.now (b + (nmOf s x).tIdle) ∧
      (nmOf t x).nodes[i] = (if (nmOf s x).nodes[i].reached ∧ fld (nmOf s x).nsCfg 0 16 ≠ 0 then
        { (nmOf s x).nodes[i] with streak := none, reached := false, total := satN 32 ((nmOf s x).nodes[i].total + (b - a) / 1000000), longest := max (nmOf s x).nodes[i].longest (satN 16 ((b - a) / 1000000)) }
        else { (nmOf s x).nodes[i] with streak := none, reached := false }) ∧
      onlyAt i (nmOf s x).nodes (nmOf t x).nodes ∧ (nmOf t x) = { (nmOf s x) with nodes := (nmOf t x).nodes } ∧
      onlyAt x s.nm t.nm ∧ onlyTouches [.tmb, .fab, .pwr, .ecc, .pmc, .nm, .dep, .nv, .free] s t) ∧
  (∀ (s : State) (x : Fin 4) (ok : Bool) (w0 w1 : W32) (data : List W8),
    (s.nmUp = false ∨ bit w1 4 = true ∨ (s.nm[x].low = true ∧ (s.nm[x].bias = false ∨ s.nm[x].swEn = false))) →
    fires (.decodedFrame x ok w0 w1 data) s fun t =>
      t = s) ∧
  (∀ (s : State) (x : Fin 4) (i : Fin 64), (s.nmUp = false ∨ s.nm[x].nodes[i].streak = none) →
    fires (.streakEnd x i) s fun t =>
      t = s) ∧
  (∀ (s : State) (x : Fin 4), (s.nmUp = false ∨ s.nm[x].tKaAt = none ∨ s.nm[x].st ≠ .need) →
    fires (.tKaExpiry x) s fun t =>
      t = s) ∧
  (∀ (s : State) (x : Fin 4), (s.nmUp = false ∨ s.nm[x].kaPend = false ∨ s.nm[x].online = false ∨ s.can[x].mode ≠ 1) →
    fires (.keepaliveDeferredSend x) s fun t =>
      t = s) ∧
  (∀ (s : State) (x : Fin 4), (s.nmUp = false ∨ s.nm[x].tIdleAt = none) →
    fires (.tIdleExpiry x) s fun t =>
      t = s) ∧
  (∀ (s : State) (x : Fin 4), (s.nmUp = false ∨ s.nm[x].tFwAt = none ∨ s.nm[x].st ≠ .wakeCheck) →
    fires (.tFwExpiry x) s fun t =>
      t = s) ∧
  (∀ (s : State) (x : Fin 4), (s.nmUp = false ∨ s.nm[x].st ≠ .prepSleep ∨ s.nm[x].stage ≠ 1 ∨ s.nmCanOff x = false) →
    fires (.prepSleepStage1Done x) s fun t =>
      t = s)

/-- Host port transactions (R504, R509 to R520), the lines of R505 and R521, and the wake of R523. -/
def Obligations.HostPortJudgesAnswersAndForwards : Prop :=
  (∀ (s : State) (sck : Bool), s.coreRuns = true → s.hp.csnLow = false →
    fires (.hpTransactionStart sck) s fun t =>
      t.hp.csnLow = true ∧
      (t.hp.curResp = (if s.hp.resend = true ∧ s.hp.copy ≠ none then s.hp.copy.getD [] else if s.hp.ident ≠ none then
        s.hp.ident.getD [] else s.hp.tx.headD [])) ∧
      (t.hp.cur = (if s.hp.resend = true ∧ s.hp.copy ≠ none then .copy else if s.hp.ident ≠ none then .ident else if
        s.hp.tx ≠ [] then .buffer else .none)) ∧
      t.hp.status.1 = pack [(0, 8, s.hp.ackSeq), (8, 4, s.hp.ack), (12, 4, s.hp.ackSrc), (16, 5, s.hp.out.length),
        (21, 1, b2n s.hp.restarted), (22, 1, fld s.hp.ctl 0 1)] ∧
      (t.hp.curResp.length < 512 → t.hp.status.2 = pack [(0, 9, t.hp.curResp.length), (16, 16, crc16 (wordBytes
        t.hp.status.1 ++ [t.hp.curResp.length % 256, t.hp.curResp.length / 256]))]) ∧
      t.hp = { s.hp with csnLow := true, live := true, mode3 := sck, cur := t.hp.cur, curResp := t.hp.curResp, status := t.hp.status }
        ∧
      (s.pwr.phase = .run → t.pwr = s.pwr) ∧ onlyTouches [.pwr, .hp] s t) ∧
  (∀ (s : State) (sck : Bool), s.hp.csnLow = true →
    fires (.hpTransactionStart sck) s fun t =>
      t = s) ∧
  (∀ (s : State) (n : Nat), bit s.pwr.holdStat 5 = false →
      (s.coreRuns = false ∨ s.hp.csnLow = false ∨ s.hp.live = false → s.hpSdo n = none) ∧
      (s.coreRuns = true → s.hp.csnLow = true → s.hp.live = true → n < 8 * (8 + 4 * s.hp.curResp.length) → s.hpSdo n =
        some (((s.hp.status.1 :: s.hp.status.2 :: s.hp.curResp).getD (n / 32) 0).getLsbD (8 * (n / 8 % 4) + 7 - n %
        8))) ∧
      s.hpIrqLow = (s.isUp 1 && ((bit s.hp.ctl 1 && (s.hp.resend || s.hp.ident.isSome || !s.hp.tx.isEmpty)) || (bit
        s.hp.ctl 2 && s.hp.restarted) || (bit s.hp.ctl 3 && s.hp.free == 2)))) ∧
  (∀ (s : State) (l : List Bool), s.coreRuns = true →
    fires (.hpTransactionEnd l true) s fun t =>
      exec (.hpTransactionEnd l true) s = exec (.hpTransactionEnd l false) s.hpTake ∧
      onlyTouches [.fab, .que, .pmc, .hp] s t) ∧
  (∀ (s : State) (b : List W8) (l : List Bool), l.length < 8 →
    fires (.hpTransactionEnd (b.flatMap spiBits ++ l) false) s fun t =>
      exec (.hpTransactionEnd (b.flatMap spiBits ++ l) false) s = exec (.hpTransactionEnd (b.flatMap spiBits) false) s ∧
      onlyTouches [.fab, .que, .pmc, .hp] s t) ∧
  (∀ (s : State) (l : List Bool), (s.coreRuns = false ∨ s.hp.csnLow = false ∨ s.hp.live = false) →
    fires (.hpTransactionEnd l false) s fun t =>
      t.hp = { s.hp with csnLow := false, live := false, cur := .none, curResp := [] } ∧ t.que = s.que ∧
      onlyTouches [.fab, .que, .pmc, .hp] s t) ∧
  (∀ (s : State) (b : List W8),
    s.coreRuns = true → s.hp.csnLow = true → s.hp.live = true → s.hp.cur = .buffer →
    8 + 4 * s.hp.curResp.length ≤ b.length → leWord b = 0xFFFFFFFF →
    fires (.hpTransactionEnd (b.flatMap spiBits) false) s fun t =>
      t.hp = { s.hp with tx := s.hp.tx.drop 1, copy := some s.hp.curResp, csnLow := false, live := false, cur := .none, curResp := [] }
        ∧
      t.que = s.que ∧ onlyTouches [.fab, .que, .pmc, .hp] s t) ∧
  (∀ (s : State) (b : List W8),
    s.coreRuns = true → s.hp.csnLow = true → s.hp.live = true → b.length < 8 + 4 * s.hp.curResp.length →
    (leWord b = 0xFFFFFFFF ∨ b.length < 8) →
    fires (.hpTransactionEnd (b.flatMap spiBits) false) s fun t =>
      t.hp = { s.hp with csnLow := false, live := false, cur := .none, curResp := [] } ∧ t.que = s.que ∧
      onlyTouches [.fab, .que, .pmc, .hp] s t) ∧
  (∀ (s : State) (b : List W8),
    s.coreRuns = true → s.hp.csnLow = true → s.hp.live = true → s.hp.cur = .none → 8 ≤ b.length →
    leWord b ≠ 0xFFFFFFFF →
    (b.length < 8 + (leWord b / 65536 % 4096) ∨ (b.drop (8 + (leWord b / 65536 % 4096))).any (fun x => x != 0xFF) =
      true) →
    fires (.hpTransactionEnd (b.flatMap spiBits) false) s fun t =>
      t.hp = { s.hp with ackSeq := leWord b / 256 % 256, ack := 7, ackSrc := leWord b / 2 ^ 28, free := 0, cntOther := satN 16 (s.hp.cntOther + 1), csnLow := false, live := false, cur := .none, curResp := [] }
        ∧
      t.que = s.que ∧ onlyTouches [.fab, .que, .pmc, .hp] s t) ∧
  (∀ (s : State) (b : List W8),
    s.coreRuns = true → s.hp.csnLow = true → s.hp.live = true → s.hp.cur = .none → 8 ≤ b.length →
    leWord b ≠ 0xFFFFFFFF → b.length = 8 + (leWord b / 65536 % 4096) →
    leWord (b.drop (4 + (leWord b / 65536 % 4096))) ≠ crc16 ((b.take (4 + (leWord b / 65536 % 4096))).map
      BitVec.toNat) →
    fires (.hpTransactionEnd (b.flatMap spiBits) false) s fun t =>
      t.hp = { s.hp with ackSeq := leWord b / 256 % 256, ack := 4, ackSrc := leWord b / 2 ^ 28, free := 0, cntCrc := satN 16 (s.hp.cntCrc + 1), csnLow := false, live := false, cur := .none, curResp := [] }
        ∧
      t.que = s.que ∧ onlyTouches [.fab, .que, .pmc, .hp] s t) ∧
  (∀ (s : State) (b : List W8),
    s.coreRuns = true → s.hp.csnLow = true → s.hp.live = true → s.hp.cur = .none → 8 ≤ b.length →
    leWord b ≠ 0xFFFFFFFF → b.length = 8 + (leWord b / 65536 % 4096) →
    leWord (b.drop (4 + (leWord b / 65536 % 4096))) = crc16 ((b.take (4 + (leWord b / 65536 % 4096))).map
      BitVec.toNat) →
    (1024 < (leWord b / 65536 % 4096) ∨ (leWord b / 65536 % 4096) % 4 ≠ 0 ∨ (leWord b % 256 ≤ 4 ∧ (leWord b / 65536 %
      4096) ≠ 0)) →
    fires (.hpTransactionEnd (b.flatMap spiBits) false) s fun t =>
      t.hp = { s.hp with ackSeq := leWord b / 256 % 256, ack := 5, ackSrc := leWord b / 2 ^ 28, free := 0, cntOther := satN 16 (s.hp.cntOther + 1), csnLow := false, live := false, cur := .none, curResp := [] }
        ∧
      t.que = s.que ∧ onlyTouches [.fab, .que, .pmc, .hp] s t) ∧
  (∀ (s : State) (b : List W8),
    s.coreRuns = true → s.hp.csnLow = true → s.hp.live = true → s.hp.cur = .none → 8 ≤ b.length →
    leWord b ≠ 0xFFFFFFFF → b.length = 8 + (leWord b / 65536 % 4096) →
    leWord (b.drop (4 + (leWord b / 65536 % 4096))) = crc16 ((b.take (4 + (leWord b / 65536 % 4096))).map
      BitVec.toNat) →
    (leWord b / 65536 % 4096) ≤ 1024 ∧ (leWord b / 65536 % 4096) % 4 = 0 ∧ (4 < leWord b % 256 ∨ (leWord b / 65536 %
      4096) = 0) →
    ((5 ≤ leWord b % 256 ∧ leWord b % 256 ≤ 15) ∨ leWord b / 2 ^ 28 = 15) →
    fires (.hpTransactionEnd (b.flatMap spiBits) false) s fun t =>
      t.hp = { s.hp with ackSeq := leWord b / 256 % 256, ack := 6, ackSrc := leWord b / 2 ^ 28, free := 0, cntOther := satN 16 (s.hp.cntOther + 1), csnLow := false, live := false, cur := .none, curResp := [] }
        ∧
      t.que = s.que ∧ onlyTouches [.fab, .que, .pmc, .hp] s t) ∧
  (∀ (s : State) (q : BitVec 8) (r : BitVec 4),
    s.coreRuns = true → s.hp.csnLow = false → s.hp.respWaiting = false → r ≠ 15 →
    fires (.hpNop q r) s fun t =>
      t.hp = { s.hp with ackSeq := q.toNat, ack := 1, ackSrc := r.toNat, free := 0, csnLow := false, live := false, cur := .none, curResp := [], mode3 := false, status := t.hp.status }
        ∧
      t.que = s.que ∧ onlyTouches [.fab, .pwr, .que, .pmc, .hp] s t) ∧
  (∀ (s : State) (q : BitVec 8) (r : BitVec 4),
    s.coreRuns = true → s.hp.csnLow = false → s.hp.respWaiting = false → r ≠ 15 → s.hp.copy ≠ none →
    fires (.resend q r) s fun t =>
      t.hp = { s.hp with ackSeq := q.toNat, ack := 1, ackSrc := r.toNat, free := 0, resend := true, csnLow := false, live := false, cur := .none, curResp := [], mode3 := false, status := t.hp.status }
        ∧
      t.que = s.que ∧ onlyTouches [.fab, .pwr, .que, .pmc, .hp] s t) ∧
  (∀ (s : State) (q : BitVec 8) (r : BitVec 4),
    s.coreRuns = true → s.hp.csnLow = false → s.hp.respWaiting = false → r ≠ 15 → s.hp.copy = none →
    fires (.resend q r) s fun t =>
      t.hp = { s.hp with ackSeq := q.toNat, ack := 9, ackSrc := r.toNat, free := 0, cntOther := satN 16 (s.hp.cntOther + 1), csnLow := false, live := false, cur := .none, curResp := [], mode3 := false, status := t.hp.status }
        ∧
      t.que = s.que ∧ onlyTouches [.fab, .pwr, .que, .pmc, .hp] s t) ∧
  (∀ (s : State) (q : BitVec 8) (r : BitVec 4),
    s.coreRuns = true → s.hp.csnLow = false → s.hp.respWaiting = false → r ≠ 15 →
    fires (.ident q r) s fun t =>
      t.hp.ident = some (let a := [hpHeader 2 q.toNat 16 r.toNat, 0x72560B1E#32, 0x00000201#32, s.sys.serialLo,
        s.sys.serialHi]; a ++ [pack [(0, 16, crc16 (wordsBytes a))]]) ∧
      (t.hp.ident.getD []).length = 6 ∧
      t.hp = { s.hp with ackSeq := q.toNat, ack := 1, ackSrc := r.toNat, free := 0, ident := t.hp.ident, csnLow := false, live := false, cur := .none, curResp := [], mode3 := false, status := t.hp.status }
        ∧
      t.que = s.que ∧ onlyTouches [.fab, .pwr, .que, .pmc, .hp] s t) ∧
  (∀ (s : State) (q : BitVec 8) (r : BitVec 4),
    s.coreRuns = true → s.hp.csnLow = false → r ≠ 15 → s.hp.resend = false → s.hp.ident ≠ none →
    s.hp.ident ≠ some [] →
    fires (.ident q r) s fun t =>
      t.hp.ack = 3 ∧ t.hp.cntBusy = satN 16 (s.hp.cntBusy + 1) ∧ t.hp.ident = s.hp.ident ∧ t.hp.tx = s.hp.tx ∧
      t.que = s.que ∧ onlyTouches [.fab, .pwr, .que, .pmc, .hp] s t) ∧
  (∀ (s : State) (q : BitVec 8) (r : BitVec 4),
    s.coreRuns = true → s.hp.csnLow = false → s.hp.respWaiting = false → r ≠ 15 →
    fires (.hpForget q r) s fun t =>
      t.hp = { s.hp with ackSeq := q.toNat, ack := 1, ackSrc := r.toNat, free := 0, dup := t.hp.dup, csnLow := false, live := false, cur := .none, curResp := [], mode3 := false, status := t.hp.status }
        ∧
      t.hp.dup[r.toNat] = none ∧ (∀ x : Fin 16, x.val ≠ r.toNat → t.hp.dup[x] = s.hp.dup[x]) ∧ t.que = s.que ∧
      onlyTouches [.fab, .pwr, .que, .pmc, .hp] s t) ∧
  (∀ (s : State) (q : BitVec 8) (r : BitVec 4),
    s.coreRuns = true → s.hp.csnLow = false → s.hp.respWaiting = false → r ≠ 15 →
    fires (.ackRestart q r) s fun t =>
      t.hp = { s.hp with ackSeq := q.toNat, ack := 1, ackSrc := r.toNat, free := 0, restarted := false, csnLow := false, live := false, cur := .none, curResp := [], mode3 := false, status := t.hp.status }
        ∧
      t.que = s.que ∧ onlyTouches [.fab, .pwr, .que, .pmc, .hp] s t) ∧
  (∀ (s : State) (m q : BitVec 8) (r : BitVec 4) (p : List W32),
    s.coreRuns = true → s.hp.csnLow = false → s.hp.respWaiting = false → 16 ≤ m.toNat → r ≠ 15 → p.length ≤ 256 →
    bit s.hp.ctl 0 = true → s.hp.dup[r.toNat] ≠ some q.toNat → s.hp.out.length < 16 →
    s.que.q[(12 : Fin 32)].en = true ∧ s.que.q[(12 : Fin 32)].ents.length + 1 + p.length ≤ s.que.q[(12 : Fin
      32)].depth →
    s.que.q[(12 : Fin 32)].w32 = true →
    fires (.hpForward m q r p) s fun t =>
      t.que.q[(12 : Fin 32)].ents = s.que.q[(12 : Fin 32)].ents ++ hpHeader m.toNat q.toNat (4 * p.length) r.toNat ::
        p ∧
      onlyAt 12 s.que.q t.que.q ∧
      t.hp = { s.hp with ackSeq := q.toNat, ack := 1, ackSrc := r.toNat, free := 0, dup := s.hp.dup.set r.toNat (some q.toNat), out := s.hp.out ++ [(r.toNat, q.toNat)], csnLow := false, live := false, cur := .none, curResp := [], mode3 := false, status := t.hp.status }
        ∧
      onlyTouches [.fab, .pwr, .que, .pmc, .hp] s t) ∧
  (∀ (s : State) (m q : BitVec 8) (r : BitVec 4) (p : List W32),
    s.coreRuns = true → s.hp.csnLow = false → s.hp.respWaiting = false → 16 ≤ m.toNat → r ≠ 15 → p.length ≤ 256 →
    bit s.hp.ctl 0 = false →
    fires (.hpForward m q r p) s fun t =>
      t.hp = { s.hp with ackSeq := q.toNat, ack := 8, ackSrc := r.toNat, free := 0, cntOther := satN 16 (s.hp.cntOther + 1), csnLow := false, live := false, cur := .none, curResp := [], mode3 := false, status := t.hp.status }
        ∧
      t.que = s.que ∧ onlyTouches [.fab, .pwr, .que, .pmc, .hp] s t) ∧
  (∀ (s : State) (m q : BitVec 8) (r : BitVec 4) (p : List W32),
    s.coreRuns = true → s.hp.csnLow = false → s.hp.respWaiting = false → 16 ≤ m.toNat → r ≠ 15 → p.length ≤ 256 →
    bit s.hp.ctl 0 = true → s.hp.dup[r.toNat] = some q.toNat →
    fires (.hpForward m q r p) s fun t =>
      t.hp = { s.hp with ackSeq := q.toNat, ack := 2, ackSrc := r.toNat, free := 0, cntDup := satN 16 (s.hp.cntDup + 1), csnLow := false, live := false, cur := .none, curResp := [], mode3 := false, status := t.hp.status }
        ∧
      t.que = s.que ∧ onlyTouches [.fab, .pwr, .que, .pmc, .hp] s t) ∧
  (∀ (s : State) (m q : BitVec 8) (r : BitVec 4) (p : List W32),
    s.coreRuns = true → s.hp.csnLow = false → s.hp.respWaiting = false → 16 ≤ m.toNat → r ≠ 15 → p.length ≤ 256 →
    bit s.hp.ctl 0 = true → s.hp.dup[r.toNat] ≠ some q.toNat →
    (16 ≤ s.hp.out.length ∨ ¬ (s.que.q[(12 : Fin 32)].en = true ∧ s.que.q[(12 : Fin 32)].ents.length + 1 + p.length ≤
      s.que.q[(12 : Fin 32)].depth)) →
    fires (.hpForward m q r p) s fun t =>
      t.hp = { s.hp with ackSeq := q.toNat, ack := 3, ackSrc := r.toNat, free := 1, cntBusy := satN 16 (s.hp.cntBusy + 1), csnLow := false, live := false, cur := .none, curResp := [], mode3 := false, status := t.hp.status }
        ∧
      t.que = s.que ∧ onlyTouches [.fab, .pwr, .que, .pmc, .hp] s t) ∧
  (∀ (s : State) (w : W32) (l : List W32),
    s.coreRuns = true → s.que.q[(13 : Fin 32)].ents = w :: l → fld w 16 12 ≤ 1024 → fld w 16 12 % 4 = 0 →
    1 + fld w 16 12 / 4 ≤ s.que.q[(13 : Fin 32)].ents.length →
    fires (.hpResponseTake) s fun t =>
      t.hp.tx = s.hp.tx ++ [s.que.q[(13 : Fin 32)].ents.take (1 + fld w 16 12 / 4) ++ [pack [(0, 16, crc16 (wordsBytes
        (s.que.q[(13 : Fin 32)].ents.take (1 + fld w 16 12 / 4))))]]] ∧
      t.hp.tx.length = s.hp.tx.length + 1 ∧
      t.que.q[(13 : Fin 32)].ents = s.que.q[(13 : Fin 32)].ents.drop (1 + fld w 16 12 / 4) ∧
      onlyAt 13 s.que.q t.que.q ∧ t.hp.fwErr = false ∧
      (t.hp.out = (if fld w 28 4 = 15 then s.hp.out else s.hp.out.erase (fld w 28 4, fld w 8 8))) ∧
      t.hp.dup = s.hp.dup ∧ t.hp.copy = s.hp.copy ∧ onlyTouches [.fab, .que, .hp] s t) ∧
  (∀ (s : State) (w : W32) (l : List W32),
    s.coreRuns = true → s.que.q[(13 : Fin 32)].ents = w :: l → (1024 < fld w 16 12 ∨ fld w 16 12 % 4 ≠ 0) →
    fires (.hpResponseTake) s fun t =>
      t.que.q[(13 : Fin 32)].ents = l ∧ onlyAt 13 s.que.q t.que.q ∧ t.hp = { s.hp with fwErr := true } ∧
      onlyTouches [.fab, .que, .hp] s t) ∧
  (∀ (s : State) (w : W32) (l : List W32),
    s.coreRuns = true → s.que.q[(13 : Fin 32)].ents = w :: l → fld w 16 12 ≤ 1024 → fld w 16 12 % 4 = 0 →
    s.que.q[(13 : Fin 32)].ents.length < 1 + fld w 16 12 / 4 →
    fires (.hpResponseTake) s fun t =>
      t.hp = s.hp ∧ t.que = s.que ∧ onlyTouches [.fab, .que, .hp] s t) ∧
  (∀ (s : State) (q : BitVec 8) (r : BitVec 4), s.hp.csnLow = true →
    fires (.hpNop q r) s fun t =>
      t = s) ∧
  (∀ (s : State) (q : BitVec 8) (r : BitVec 4), s.hp.csnLow = true →
    fires (.resend q r) s fun t =>
      t = s) ∧
  (∀ (s : State) (q : BitVec 8) (r : BitVec 4), s.hp.csnLow = true →
    fires (.ident q r) s fun t =>
      t = s) ∧
  (∀ (s : State) (q : BitVec 8) (r : BitVec 4), s.hp.csnLow = true →
    fires (.hpForget q r) s fun t =>
      t = s) ∧
  (∀ (s : State) (q : BitVec 8) (r : BitVec 4), s.hp.csnLow = true →
    fires (.ackRestart q r) s fun t =>
      t = s) ∧
  (∀ (s : State) (m q : BitVec 8) (r : BitVec 4) (p : List W32), s.hp.csnLow = true →
    fires (.hpForward m q r p) s fun t =>
      t = s) ∧
  (∀ (s : State),
    (s.pwr.phase = .sleep ∨ s.pwr.phase = .deep) → s.coreRuns = false → s.hp.csnLow = false →
    bit s.pwr.wakeEn 9 = true →
    fires (.hpCsnWake) s fun t =>
      t.hp = { s.hp with csnLow := true, live := false, cur := .none, curResp := [] } ∧ t.pwr.phase = .returning ∧
      t.pwr.wakeCause.testBit 9 = true ∧ onlyTouches [.pwr, .hp] s t) ∧
  (∀ (s : State), (s.coreRuns = true ∨ s.hp.csnLow = true) →
    fires (.hpCsnWake) s fun t =>
      t = s) ∧
  (∀ (s : State),
    s.coreRuns = false → s.hp.csnLow = false →
    (s.pwr.phase = .run ∨ s.pwr.phase = .off ∨ ((s.pwr.phase = .sleep ∨ s.pwr.phase = .deep) ∧ bit s.pwr.wakeEn 9 =
      false)) →
    fires (.hpCsnWake) s fun t =>
      t.hp = { s.hp with csnLow := true, live := false, cur := .none, curResp := [] } ∧ t.pwr = s.pwr ∧
      onlyTouches [.pwr, .hp] s t) ∧
  (∀ (s : State) (sck : Bool),
    (s.pwr.phase = .sleep ∨ s.pwr.phase = .deep) → s.coreRuns = false → s.hp.csnLow = false →
    bit s.pwr.wakeEn 9 = true →
    fires (.hpTransactionStart sck) s fun t =>
      t.hp = { s.hp with csnLow := true, live := false, cur := .none, curResp := [] } ∧ t.pwr.phase = .returning ∧
      onlyTouches [.pwr, .hp] s t) ∧
  (∀ (s : State), (s.que.q[(13 : Fin 32)].ents = [] ∨ s.coreRuns = false) →
    fires (.hpResponseTake) s fun t =>
      t = s)

/-- The plant link and its descriptor rings (R524 to R532), the limits of its PLCA fields (R536). -/
def Obligations.PlantLinkMovesFramesThroughItsRings : Prop :=
  (∀ (s : State) (c : Fin 4) (v : W32), canStore s 4 2 →
    fires (.plkEnable c v) s fun t =>
      t.plk = { s.plk with ctl := keep 0x1F (v ||| 1), cmdRes := 0 } ∧ t.mem = s.mem ∧ t.answer = .done ∧
      onlyTouches [.fab, .answer, .pwr, .sys, .mem, .ecc, .pmc, .plk, .free] s t) ∧
  (∀ (s : State) (c : Fin 4) (v : W32) (b : Bool) (n : BitVec 5) (ago : Nat), canStore s 4 2 → s.plk.en = false →
    fires (.plkDisable c v b n ago) s fun t =>
      t.plk = { s.plk with ctl := keep 0x1E v, cmdRes := 0 } ∧ t.mem = s.mem ∧
      onlyTouches [.fab, .answer, .pwr, .sys, .mem, .ecc, .pmc, .plk, .free] s t) ∧
  (∀ (s : State) (c : Fin 4) (v : W32) (b : Bool) (n : BitVec 5) (ago : Nat),
    canStore s 4 2 → s.plk.en = true → (s.plk.txBusy = true ∨ s.plk.rxBusy = true) →
    (b && s.plk.txBusy && decide (s.plk.busAt ≤ s.now - ago)) = false →
    fires (.plkDisable c v b n ago) s fun t =>
      t.plk = { s.plk with ctl := keep 0x1E v, cmdRes := 0, offPend := true } ∧ t.mem = s.mem ∧
      onlyTouches [.fab, .answer, .pwr, .sys, .mem, .ecc, .pmc, .plk, .free] s t) ∧
  (∀ (s : State) (c : Fin 4) (v : W32) (b : Bool) (n : BitVec 5) (ago : Nat),
    canStore s 4 2 → s.canonical → s.ecc = [] → s.plk.en = true → s.plk.txBusy = false → s.plk.rxBusy = false →
    fires (.plkDisable c v b n ago) s fun t =>
      t.plk =
        { s.plk with ctl := keep 0x1E v, cmdRes := 0, txHead := 0, rxHead := 0, pst := false, txBusy := false, rxBusy := false, offPend := false, rxRun := false }
        ∧
      (∀ i, i < ringLen s.plk.txCfg → s.plkReach (s.plk.txAddr i) = true → s.descOwn (s.plk.txAddr i) = true →
        t.descOwn (s.plk.txAddr i) = false ∧ (memLoad t.mem (s.plk.txAddr i + 4) 4).testBit 28 = true) ∧
      (t.descOwn s.plk.txBase.toNat = false ∨ s.plkReach s.plk.txBase.toNat = false) ∧
      (∀ a, a < s.plk.txAddr 0 ∨ s.plk.txAddr (ringLen s.plk.txCfg) ≤ a → memGet t.mem a = memGet s.mem a) ∧
      onlyTouches [.fab, .answer, .pwr, .sys, .mem, .ecc, .pmc, .plk, .free] s t) ∧
  (∀ (s : State) (c : Fin 4) (v : W32) (b : Bool) (n : BitVec 5) (ago : Nat),
    canStore s 4 2 → s.canonical → s.plk.en = true → s.plk.txBusy = true → s.plk.rxBusy = false →
    s.plk.offPend = false → b = true → s.plk.busAt ≤ s.now - ago → s.plkStalls (s.plk.txAddr s.plk.txHead) = false →
    s.plkReach (s.plk.txAddr s.plk.txHead) = true → s.descOwn (s.plk.txAddr s.plk.txHead) = true → s.ecc = [] →
    fires (.plkDisable c v b n ago) s fun t =>
      t.plk.cmdRes = 1 ∧ t.plk.ctl = keep 0x1E v ∧
      t.plk.txHead = 0 ∧ t.plk.rxHead = 0 ∧ t.plk.pst = false ∧ t.plk.txBusy = false ∧
      t.descOwn (s.plk.txAddr s.plk.txHead) = false ∧
      (memLoad t.mem ((s.plk.txAddr s.plk.txHead) + 4) 4).testBit 24 = true ∧
      memLoad t.mem ((s.plk.txAddr s.plk.txHead) + 8) 4 = (s.now - ago) % 2 ^ 32 ∧
      onlyTouches [.fab, .answer, .pwr, .sys, .mem, .ecc, .pmc, .plk, .free] s t) ∧
  (∀ (s : State) (c : Fin 4),
    canStore s 4 2 → s.plk.en = true → s.plk.txBusy = false → s.ecc = [] → s.plk.held = [] →
    s.plkWaits (s.plk.txAddr s.plk.txHead) = false →
    fires (.txDb c) s fun t =>
      t.plk =
        { s.plk with txBusy := (s.plkReach (s.plk.txAddr s.plk.txHead) && s.descOwn (s.plk.txAddr s.plk.txHead)) } ∧
      t.mem = s.mem ∧ t.answer = .done ∧ onlyTouches [.fab, .answer, .pwr, .sys, .ecc, .pmc, .plk, .free] s t) ∧
  (∀ (s : State) (c : Fin 4),
    canStore s 4 2 → s.plk.en = true → s.plk.txBusy = false →
    (s.plk.held ≠ [] ∨ s.plkWaits (s.plk.txAddr s.plk.txHead) = true) →
    fires (.txDb c) s fun t =>
      t.plk = { s.plk with held := s.plk.held ++ [.txLook] } ∧ t.mem = s.mem ∧
      onlyTouches [.fab, .answer, .pwr, .sys, .ecc, .pmc, .plk, .free] s t) ∧
  (∀ (s : State) (c : Fin 4), canStore s 4 2 → (s.plk.en = false ∨ s.plk.txBusy = true) →
    fires (.txDb c) s fun t =>
      t.plk = s.plk ∧ t.mem = s.mem ∧ onlyTouches [.fab, .answer, .pwr, .sys, .ecc, .pmc, .plk, .free] s t) ∧
  (∀ (s : State) (c : Fin 4),
    canStore s 4 2 → s.plk.en = true → s.ecc = [] → s.plk.held = [] → s.plkWaits (s.plk.rxAddr s.plk.rxHead) = false →
    fires (.rxDb c) s fun t =>
      t.plk =
        { s.plk with rxRun := (s.plkReach (s.plk.rxAddr s.plk.rxHead) && s.descOwn (s.plk.rxAddr s.plk.rxHead)) } ∧
      t.mem = s.mem ∧ t.answer = .done ∧ onlyTouches [.fab, .answer, .pwr, .sys, .ecc, .pmc, .plk, .free] s t) ∧
  (∀ (s : State) (c : Fin 4),
    canStore s 4 2 → s.plk.en = true → (s.plk.held ≠ [] ∨ s.plkWaits (s.plk.rxAddr s.plk.rxHead) = true) →
    fires (.rxDb c) s fun t =>
      t.plk = { s.plk with held := s.plk.held ++ [.rxLook] } ∧ t.mem = s.mem ∧
      onlyTouches [.fab, .answer, .pwr, .sys, .ecc, .pmc, .plk, .free] s t) ∧
  (∀ (s : State) (c : Fin 4), canStore s 4 2 → s.plk.en = false →
    fires (.rxDb c) s fun t =>
      t.plk = s.plk ∧ t.mem = s.mem ∧ onlyTouches [.fab, .answer, .pwr, .sys, .ecc, .pmc, .plk, .free] s t) ∧
  (∀ (s : State) (r : Fin 3) (n : BitVec 5) (ago : Nat) (opp : Fin 32) (nth gap : Nat),
    s.isUp 4 = true → s.plk.txBusy = true → s.plk.mayStart opp.val nth gap = true →
    (r.val ≠ 0 ∨ s.plk.busAt ≤ s.now - ago) → s.canonical → s.plk.offPend = false →
    s.plkStalls (s.plk.txAddr s.plk.txHead) = false → s.plkReach (s.plk.txAddr s.plk.txHead) = true →
    s.plkWaits (s.plk.txAddr ((s.plk.txHead + 1) % ringLen s.plk.txCfg)) = false → s.ecc = [] →
    fires (.plkTxComplete r n ago opp nth gap) s fun t =>
      memLoad t.mem (s.plk.txAddr s.plk.txHead) 4 = memLoad s.mem (s.plk.txAddr s.plk.txHead) 4 % 2 ^ 31 ∧
      memLoad t.mem ((s.plk.txAddr s.plk.txHead) + 4) 4 = memLoad s.mem ((s.plk.txAddr s.plk.txHead) + 4) 4 % 2 ^ 11 +
        2 ^ 16 * (memLoad s.mem ((s.plk.txAddr s.plk.txHead) + 4) 4 / 2 ^ 16 % 2) + 2 ^ (24 + r.val) ∧
      memLoad t.mem ((s.plk.txAddr s.plk.txHead) + 8) 4 = (s.now - ago) % 2 ^ 32 ∧
      (memLoad t.mem ((s.plk.txAddr s.plk.txHead) + 12) 4 = (s.now - ago) / 2 ^ 32 % 2 ^ 16 + 2 ^ 16 * (if r.val = 1
        then 16 else max 1 (min 16 n.toNat))) ∧
      (∀ a, a < (s.plk.txAddr s.plk.txHead) ∨ (s.plk.txAddr s.plk.txHead) + 16 ≤ a → memGet t.mem a = memGet s.mem a) ∧
      (r.val = 0 → t.plk.wire.length = max 60 (memLoad s.mem ((s.plk.txAddr s.plk.txHead) + 4) 4 % 2 ^ 11) + 4) ∧
      (r.val = 0 → ∀ i, i < memLoad s.mem ((s.plk.txAddr s.plk.txHead) + 4) 4 % 2 ^ 11 → t.plk.wire.getD i 0 = memGet
        t.mem (s.descBuf (s.plk.txAddr s.plk.txHead) + i)) ∧
      (r.val = 0 → t.plk.wire.drop (t.plk.wire.length - 4) = fcsOf (t.plk.wire.take (t.plk.wire.length - 4))) ∧
      (t.plk =
        { s.plk with txHead := (s.plk.txHead + 1) % ringLen s.plk.txCfg, txBusy := (s.plk.en && s.plkUp && s.plkReach (s.plk.txAddr ((s.plk.txHead + 1) % ringLen s.plk.txCfg)) && t.descOwn (s.plk.txAddr ((s.plk.txHead + 1) % ringLen s.plk.txCfg))), busAt := (if r.val = 0 then s.now else s.plk.busAt), wire := t.plk.wire, cntLimit := (if r.val = 1 then satN 16 (s.plk.cntLimit + 1) else s.plk.cntLimit), cntLate := (if r.val = 2 then satN 16 (s.plk.cntLate + 1) else s.plk.cntLate) })
        ∧
      (r.val ≠ 0 → t.plk.wire = s.plk.wire) ∧ onlyTouches [.fab, .pwr, .sys, .mem, .ecc, .pmc, .plk, .free] s t) ∧
  (∀ (s : State) (r : Fin 3) (n : BitVec 5) (ago : Nat) (opp : Fin 32) (nth gap : Nat),
    s.isUp 4 = true → s.plk.txBusy = true → s.plk.mayStart opp.val nth gap = true →
    (r.val ≠ 0 ∨ s.plk.busAt ≤ s.now - ago) → s.plkStalls (s.plk.txAddr s.plk.txHead) = true →
    fires (.plkTxComplete r n ago opp nth gap) s fun t =>
      (t.plk =
        { s.plk with busAt := (if r.val = 0 then s.now else s.plk.busAt), held := s.plk.held ++ [.txDone r.val (if r.val = 1 then 16 else max 1 (min 16 n.toNat)) (s.now - ago)] })
        ∧
      t.mem = s.mem ∧ onlyTouches [.fab, .pwr, .sys, .mem, .ecc, .pmc, .plk, .free] s t) ∧
  (∀ (s : State) (r : Fin 3) (n : BitVec 5) (ago : Nat) (opp : Fin 32) (nth gap : Nat),
    (s.plk.txBusy = false ∨ s.plk.mayStart opp.val nth gap = false ∨ (r.val = 0 ∧ s.now - ago < s.plk.busAt)) →
    fires (.plkTxComplete r n ago opp nth gap) s fun t =>
      t = s) ∧
  (∀ (p : Plk) (opp nth gap : Nat), bit p.plcaCfg 0 = true → p.pst = true →
      (p.mayStart opp nth gap = true ↔ opp = fld p.plcaCfg 1 5 ∧ ((nth = 0 ∧ gap ≤ (if fld p.plcaTmr 0 8 = 0 then 1
        else fld p.plcaTmr 0 8)) ∨ (nth ≠ 0 ∧ nth ≤ fld p.plcaCfg 16 4 ∧ gap ≤ (if fld p.plcaTmr 8 8 = 0 then 1 else
        fld p.plcaTmr 8 8)))) ∧
      p.plcaCycle = (if fld p.plcaCfg 1 5 = 0 then List.range (if fld p.plcaCfg 8 6 = 0 then 1 else min 32 (fld
        p.plcaCfg 8 6)) else [])) ∧
  (∀ (s : State) (d : List W8) (ago : Nat),
    s.plkUp = true → (s.plk.en = true ∨ (s.plk.offPend = true ∧ s.plk.rxBusy = true)) →
    fires (.plkFrameReceived true d ago) s fun t =>
      t.plk = { s.plk with rxBusy := true } ∧ t.mem = s.mem ∧
      onlyTouches [.fab, .pwr, .sys, .mem, .ecc, .pmc, .plk, .free] s t) ∧
  (∀ (s : State) (d x : List W8) (ago : Nat),
    s.plkUp = true → s.plk.offPend = false → s.plk.en = true → 60 ≤ d.length → d.length ≤ 1518 → x.length = 4 →
    s.plk.busAt ≤ s.now - ago → s.canonical →
    (bit s.plk.ctl 1 = true ∨ ((List.range 6).all fun i => d.getD i 0 == 0xFF) = true ∨ (bit s.plk.ctl 2 = true ∧
      (d.getD 0 0).getLsbD 0 = true) ∨ ((List.range 6).all fun i => (d.getD i 0).toNat == (s.plk.macLo.toNat + 2 ^ 32
      * fld s.plk.macHi 0 16) / 2 ^ (8 * i) % 256) = true) →
    s.plkStalls (s.plk.rxAddr s.plk.rxHead) = false → (x = fcsOf d ∨ bit s.plk.ctl 3 = true) → s.plk.rxRun = true →
    s.plkReach (s.plk.rxAddr s.plk.rxHead) = true → s.descOwn (s.plk.rxAddr s.plk.rxHead) = true →
    s.plkReach (memLoad s.mem (s.plk.rxAddr s.plk.rxHead) 4 % 2 ^ 28) = true →
    s.plkWaits (s.plk.rxAddr ((s.plk.rxHead + 1) % ringLen s.plk.rxCfg)) = false → s.ecc = [] →
    (s.plk.rxAddr s.plk.rxHead) + 16 ≤ (memLoad s.mem (s.plk.rxAddr s.plk.rxHead) 4 % 2 ^ 28) ∨ (memLoad s.mem
      (s.plk.rxAddr s.plk.rxHead) 4 % 2 ^ 28) + s.plk.bufLen ≤ (s.plk.rxAddr s.plk.rxHead) →
    fires (.plkFrameReceived false (d ++ x) ago) s fun t =>
      (∀ i, i < min d.length s.plk.bufLen → memGet t.mem ((memLoad s.mem (s.plk.rxAddr s.plk.rxHead) 4 % 2 ^ 28) + i)
        = d.getD i 0) ∧
      (memGet t.mem ((memLoad s.mem (s.plk.rxAddr s.plk.rxHead) 4 % 2 ^ 28) + 60) = d.getD 60 0 ∨ d.length < 61) ∧
      memLoad t.mem (s.plk.rxAddr s.plk.rxHead) 4 = memLoad s.mem (s.plk.rxAddr s.plk.rxHead) 4 % 2 ^ 31 ∧
      (memLoad t.mem ((s.plk.rxAddr s.plk.rxHead) + 4) 4 = min d.length s.plk.bufLen + (if x = fcsOf d ∧ d.length ≤
        s.plk.bufLen then 2 ^ 24 else 0) + (if x = fcsOf d then 0 else 2 ^ 25) + (if s.plk.bufLen < d.length then 2 ^
        26 else 0)) ∧
      memLoad t.mem ((s.plk.rxAddr s.plk.rxHead) + 8) 4 = (s.now - ago) % 2 ^ 32 ∧
      (∀ a, (a < (s.plk.rxAddr s.plk.rxHead) ∨ (s.plk.rxAddr s.plk.rxHead) + 16 ≤ a) → (a < (memLoad s.mem
        (s.plk.rxAddr s.plk.rxHead) 4 % 2 ^ 28) ∨ (memLoad s.mem (s.plk.rxAddr s.plk.rxHead) 4 % 2 ^ 28) + min
        d.length s.plk.bufLen ≤ a) → memGet t.mem a = memGet s.mem a) ∧
      t.plk =
        { s.plk with rxHead := (s.plk.rxHead + 1) % ringLen s.plk.rxCfg, rxBusy := false, busAt := s.now, rxRun := (s.plkReach (s.plk.rxAddr ((s.plk.rxHead + 1) % ringLen s.plk.rxCfg)) && t.descOwn (s.plk.rxAddr ((s.plk.rxHead + 1) % ringLen s.plk.rxCfg))) }
        ∧
      onlyTouches [.fab, .pwr, .sys, .mem, .ecc, .pmc, .plk, .free] s t) ∧
  (∀ (s : State) (d x : List W8) (ago : Nat),
    s.plkUp = true → s.plk.offPend = false → s.plk.en = true → 60 ≤ d.length → d.length ≤ 1518 → x.length = 4 →
    s.plk.busAt ≤ s.now - ago →
    (bit s.plk.ctl 1 = true ∨ ((List.range 6).all fun i => d.getD i 0 == 0xFF) = true ∨ (bit s.plk.ctl 2 = true ∧
      (d.getD 0 0).getLsbD 0 = true) ∨ ((List.range 6).all fun i => (d.getD i 0).toNat == (s.plk.macLo.toNat + 2 ^ 32
      * fld s.plk.macHi 0 16) / 2 ^ (8 * i) % 256) = true) →
    s.plkStalls (s.plk.rxAddr s.plk.rxHead) = false → x ≠ fcsOf d → bit s.plk.ctl 3 = false →
    fires (.plkFrameReceived false (d ++ x) ago) s fun t =>
      t.plk = { s.plk with rxBusy := false, busAt := s.now, cntFcs := satN 16 (s.plk.cntFcs + 1) } ∧ t.mem = s.mem ∧
      onlyTouches [.fab, .pwr, .sys, .mem, .ecc, .pmc, .plk, .free] s t) ∧
  (∀ (s : State) (d x : List W8) (ago : Nat),
    s.plkUp = true → s.plk.offPend = false → s.plk.en = true → 60 ≤ d.length → d.length ≤ 1518 → x.length = 4 →
    s.plk.busAt ≤ s.now - ago →
    (bit s.plk.ctl 1 = true ∨ ((List.range 6).all fun i => d.getD i 0 == 0xFF) = true ∨ (bit s.plk.ctl 2 = true ∧
      (d.getD 0 0).getLsbD 0 = true) ∨ ((List.range 6).all fun i => (d.getD i 0).toNat == (s.plk.macLo.toNat + 2 ^ 32
      * fld s.plk.macHi 0 16) / 2 ^ (8 * i) % 256) = true) →
    s.plkStalls (s.plk.rxAddr s.plk.rxHead) = false → (x = fcsOf d ∨ bit s.plk.ctl 3 = true) → s.ecc = [] →
    (s.plk.rxRun = false ∨ s.plkReach (s.plk.rxAddr s.plk.rxHead) = false ∨ s.descOwn (s.plk.rxAddr s.plk.rxHead) =
      false) →
    fires (.plkFrameReceived false (d ++ x) ago) s fun t =>
      t.plk = { s.plk with rxBusy := false, busAt := s.now, rxRun := false, cntNobuf := satN 16 (s.plk.cntNobuf + 1) } ∧
      t.mem = s.mem ∧ onlyTouches [.fab, .pwr, .sys, .mem, .ecc, .pmc, .plk, .free] s t) ∧
  (∀ (s : State) (d x : List W8) (ago : Nat),
    s.plkUp = true → s.plk.offPend = false → s.plk.en = true → 60 ≤ d.length → d.length ≤ 1518 → x.length = 4 →
    s.plk.busAt ≤ s.now - ago →
    (bit s.plk.ctl 1 = true ∨ ((List.range 6).all fun i => d.getD i 0 == 0xFF) = true ∨ (bit s.plk.ctl 2 = true ∧
      (d.getD 0 0).getLsbD 0 = true) ∨ ((List.range 6).all fun i => (d.getD i 0).toNat == (s.plk.macLo.toNat + 2 ^ 32
      * fld s.plk.macHi 0 16) / 2 ^ (8 * i) % 256) = true) →
    s.plkStalls (s.plk.rxAddr s.plk.rxHead) = true →
    fires (.plkFrameReceived false (d ++ x) ago) s fun t =>
      t.plk = { s.plk with rxBusy := false, busAt := s.now, held := s.plk.held ++ [.rxDone (d ++ x) (s.now - ago)] } ∧
      t.mem = s.mem ∧ onlyTouches [.fab, .pwr, .sys, .mem, .ecc, .pmc, .plk, .free] s t) ∧
  (∀ (s : State) (d x : List W8) (ago : Nat),
    s.plkUp = true → s.plk.offPend = false → s.plk.en = true → x.length = 4 →
    (d.length < 60 ∨ 1518 < d.length ∨ s.now - ago < s.plk.busAt ∨ (bit s.plk.ctl 1 = false ∧ ((List.range 6).all fun
      i => d.getD i 0 == 0xFF) = false ∧ (bit s.plk.ctl 2 = false ∨ (d.getD 0 0).getLsbD 0 = false) ∧ ((List.range
      6).all fun i => (d.getD i 0).toNat == (s.plk.macLo.toNat + 2 ^ 32 * fld s.plk.macHi 0 16) / 2 ^ (8 * i) % 256) =
      false)) →
    fires (.plkFrameReceived false (d ++ x) ago) s fun t =>
      t.plk = { s.plk with rxBusy := false } ∧ t.mem = s.mem ∧
      onlyTouches [.fab, .pwr, .sys, .mem, .ecc, .pmc, .plk, .free] s t) ∧
  (∀ (s : State) (b : Bool) (d : List W8) (ago : Nat),
    (s.plkUp = false ∨ (s.plk.en = false ∧ (s.plk.offPend = false ∨ s.plk.rxBusy = false))) →
    fires (.plkFrameReceived b d ago) s fun t =>
      t = s) ∧
  (∀ (s : State) (b : Bool), s.plkUp = true → s.plk.en = true → bit s.plk.plcaCfg 0 = true →
    fires (.plcaChg b) s fun t =>
      t.plk = { s.plk with pst := b } ∧ onlyTouches [.fab, .plk] s t) ∧
  (∀ (s : State) (b : Bool), (s.plk.en = false ∨ bit s.plk.plcaCfg 0 = false ∨ s.plk.pst = b) →
    fires (.plcaChg b) s fun t =>
      t = s)

/-! ## Management -/

/-- Watchdog (R541 to R545), MGMT restart (R538), failed trial (R560, R561). -/
def Obligations.WatchdogRestartAndTrialResetTheControlPlane : Prop :=
  (∀ (s : State) (c : Fin 4) (a : Nat),
    canStore s 3 11 → s.wdRuns = true → s.dep.wdAt = some a →
    fld s.dep.wdCfg 24 4 &&& (15 ^^^ (s.dep.wdKick ||| 2 ^ c.val)) = 0 → a + fld s.dep.wdCfg 16 8 * 10000 ≤ s.now →
    fires (.wdKick c 0xC35A) s fun t =>
      t.dep = { s.dep with wdKick := 0, wdAt := some s.now, wdWarned := false } ∧ t.sup = s.sup ∧ t.core = s.core ∧
      t.answer = .done ∧
      onlyTouches [.fab, .answer, .hs, .hsc, .dig, .vg, .vd, .ls, .adm, .inp, .pwr, .sup, .sys, .lc, .que, .core,
        .pmc, .hp, .dep, .nv, .free] s t) ∧
  (∀ (s : State) (c : Fin 4) (a : Nat),
    canStore s 3 11 → s.wdRuns = true → s.dep.wdAt = some a →
    fld s.dep.wdCfg 24 4 &&& (15 ^^^ (s.dep.wdKick ||| 2 ^ c.val)) ≠ 0 →
    fires (.wdKick c 0xC35A) s fun t =>
      t.dep = { s.dep with wdKick := s.dep.wdKick ||| 2 ^ c.val } ∧ t.sup = s.sup ∧ t.core = s.core ∧
      onlyTouches [.fab, .answer, .hs, .hsc, .dig, .vg, .vd, .ls, .adm, .inp, .pwr, .sup, .sys, .lc, .que, .core,
        .pmc, .hp, .dep, .nv, .free] s t) ∧
  (∀ (s : State) (c : Fin 4) (a : Nat),
    canStore s 3 11 → s.wdRuns = true → s.dep.wdAt = some a →
    fld s.dep.wdCfg 24 4 &&& (15 ^^^ (s.dep.wdKick ||| 2 ^ c.val)) = 0 → s.now < a + fld s.dep.wdCfg 16 8 * 10000 →
    fires (.wdKick c 0xC35A) s fun t =>
      t.dep.wdCause = 1 ∧ t.dep.wdResets = satN 8 (s.dep.wdResets + 1) ∧ t.sup.coreReset = true ∧
      (t.sup.cause = (if s.nv.trial then 4 else 2)) ∧ t.nv.activeB = (s.nv.activeB != s.nv.trial) ∧
      t.nv.trial = false ∧ (t.nv.lastRb = (if s.nv.trial then 1 else s.nv.lastRb)) ∧
      (∀ x : Fin 4, t.core[x] = Core.init x.val (b2n t.nv.activeB)) ∧ t.mem = s.mem ∧
      onlyTouches [.fab, .answer, .hs, .hsc, .dig, .vg, .vd, .ls, .adm, .inp, .pwr, .sup, .sys, .lc, .que, .core,
        .pmc, .hp, .dep, .nv, .free] s t) ∧
  (∀ (s : State) (c : Fin 4) (k : W16), canStore s 3 11 → k ≠ 0xC35A →
    fires (.wdKick c k) s fun t =>
      t.dep = s.dep ∧ t.sup = s.sup ∧ t.core = s.core ∧
      onlyTouches [.fab, .answer, .hs, .hsc, .dig, .vg, .vd, .ls, .adm, .inp, .pwr, .sup, .sys, .lc, .que, .core,
        .pmc, .hp, .dep, .nv, .free] s t) ∧
  (∀ (s : State) (a : Nat), s.wdRuns = true → s.isUp 1 = true → s.dep.wdAt = some a →
    fires (.wdExpiry) s fun t =>
      t.now = max s.now (a + max 100 (fld s.dep.wdCfg 0 16) * 1000) ∧ t.dep.wdCause = 0 ∧
      t.dep.wdResets = satN 8 (s.dep.wdResets + 1) ∧ t.sup.coreReset = true ∧
      (t.sup.cause = (if s.nv.trial then 4 else 2)) ∧ t.nv.activeB = (s.nv.activeB != s.nv.trial) ∧
      t.nv.trial = false ∧ (t.nv.lastRb = (if s.nv.trial then 1 else s.nv.lastRb)) ∧ t.mem = s.mem ∧
      t.dep.wdCfg = 0x110007D0 ∧
      onlyTouches [.tmb, .fab, .hs, .hsc, .dig, .vg, .vd, .ls, .adm, .inp, .pwr, .sup, .sys, .ecc, .lc, .que, .core,
        .pmc, .hp, .dep, .nv, .free] s t) ∧
  (∀ (s : State) (a : Nat),
    s.wdRuns = true → s.isUp 1 = true → s.dep.wdAt = some a →
    3 ≤ (recent600 (max s.now (a + s.dep.wdMax)) s.dep.wdTimes).length →
    fires (.wdExpiry) s fun t =>
      t.inp.deputy = true ∧ t.dep.wdHold = some (t.now + 60000000) ∧ t.dep.wdTimes = [] ∧
      onlyTouches [.tmb, .fab, .hs, .hsc, .dig, .vg, .vd, .ls, .adm, .inp, .pwr, .sup, .sys, .ecc, .lc, .que, .core,
        .pmc, .hp, .dep, .nv, .free] s t) ∧
  (∀ (s : State) (a : Nat),
    s.wdRuns = true → s.isUp 1 = true → s.dep.wdAt = some a →
    (recent600 (max s.now (a + s.dep.wdMax)) s.dep.wdTimes).length < 3 →
    fires (.wdExpiry) s fun t =>
      t.inp.deputy = s.inp.deputy ∧ t.dep.wdHold = s.dep.wdHold ∧
      onlyTouches [.tmb, .fab, .hs, .hsc, .dig, .vg, .vd, .ls, .adm, .inp, .pwr, .sup, .sys, .ecc, .lc, .que, .core,
        .pmc, .hp, .dep, .nv, .free] s t) ∧
  (∀ (s : State) (a : Nat), s.wdRuns = true → s.dep.wdAt = some a → s.dep.wdWarned = false →
    fires (.wdWarn) s fun t =>
      t.now = max s.now (a + s.dep.wdMax * 3 / 4) ∧ t.dep.wdWarned = true ∧ t.dep.wdAt = s.dep.wdAt ∧ t.sup = s.sup ∧
      onlyTouches [.tmb, .fab, .pwr, .ecc, .pmc, .dep, .nv, .free] s t) ∧
  (∀ (s : State) (a : Nat), s.depUp = true → s.tmbRuns = true → s.dep.wdHold = some a →
    fires (.wdHoldRelease) s fun t =>
      t.now = max s.now a ∧ t.dep.wdHold = none ∧ t.dep.wdResets = s.dep.wdResets ∧ t.sup = s.sup ∧
      onlyTouches [.tmb, .fab, .pwr, .ecc, .pmc, .dep, .nv, .free] s t) ∧
  (∀ (s : State), s.isUp 3 = true →
    fires (.mgmtReset) s fun t =>
      t.dep.slots = Vector.replicate 64 (Vector.replicate 8 0) ∧
      t.dep.reqBusy = 0 ∧ t.dep.rspPend = 0 ∧ t.dep.posted = [] ∧ t.dep.rspWait = [] ∧
      t.dep.mrestarts = satN 16 (s.dep.mrestarts + 1) ∧ t.dep.mgmtUp = true ∧ t.depCore = Core.init 4 0 ∧
      (t.dep.wdAt = s.dep.wdAt.map fun _ => s.now) ∧ t.dep.wdCfg = s.dep.wdCfg ∧ t.nv.log = s.nv.log ∧ t.inp = s.inp ∧
      onlyTouches [.fab, .depCore, .dep, .nv] s t) ∧
  (∀ (s : State) (a : Nat),
    s.depUp = true → s.tmbRuns = true → s.isUp 1 = true → s.nv.trial = true → s.dep.trialAt = some a →
    (∀ i : Fin 32, i ∈ s.dep.posted → fld (hdrOf s i) 0 8 = 1 → a + 60000000 ≤ s.dep.postTime[i]) →
    fires (.trialTimeout) s fun t =>
      t.now = max s.now (a + 60000000) ∧ t.nv.activeB = (!s.nv.activeB) ∧ t.nv.trial = false ∧ t.nv.lastRb = 3 ∧
      t.sup.coreReset = true ∧ t.sup.cause = 4 ∧ t.mem = s.mem ∧
      onlyTouches [.tmb, .fab, .hs, .hsc, .dig, .vg, .vd, .ls, .adm, .inp, .pwr, .sup, .sys, .ecc, .lc, .que, .core,
        .pmc, .hp, .dep, .nv, .free] s t) ∧
  (∀ (s : State) (a : Nat) (i : Fin 32),
    s.dep.trialAt = some a → i ∈ s.dep.posted → fld (hdrOf s i) 0 8 = 1 → s.dep.postTime[i] < a + 60000000 →
    fires (.trialTimeout) s fun t =>
      t.nv = s.nv ∧ t.dep = s.dep ∧ t.sup = s.sup ∧
      onlyTouches [.tmb, .fab, .hs, .hsc, .dig, .vg, .vd, .ls, .adm, .inp, .pwr, .sup, .sys, .ecc, .lc, .que, .core,
        .pmc, .hp, .dep, .nv, .free] s t) ∧
  (∀ (s : State), s.isUp 3 = false →
    fires (.mgmtReset) s fun t =>
      t = s) ∧
  (∀ (s : State), s.wdRuns = false →
    fires (.wdExpiry) s fun t =>
      t = s) ∧
  (∀ (s : State), (s.wdRuns = false ∨ s.dep.wdWarned = true) →
    fires (.wdWarn) s fun t =>
      t = s) ∧
  (∀ (s : State), (s.depUp = false ∨ s.dep.wdHold = none) →
    fires (.wdHoldRelease) s fun t =>
      t = s) ∧
  (∀ (s : State), (s.depUp = false ∨ s.nv.trial = false ∨ s.dep.trialAt = none) →
    fires (.trialTimeout) s fun t =>
      t = s)

/-- Sensors (R539, R540), log (R546 to R552), lifetime (R553 to R556) and mailbox (R565 to R568). -/
def Obligations.TheDeputySamplesLogsAndAccounts : Prop :=
  (∀ (s : State) (i : Fin 16) (x : Int), s.depUp = true →
    fires (.sensorSample (i.castLE (by omega)) x 0 false) s fun t =>
      t.dep.temp[i] = x ∧
      t.dep.tempAl[i] = (decide (s.nv.tempLim[i] * 16 < x) || (s.dep.tempAl[i] && decide (s.nv.tempLim[i] * 16 - 32 <
        x))) ∧
      onlyAt i s.dep.temp t.dep.temp ∧ onlyAt i s.dep.tempAl t.dep.tempAl ∧
      (s.dep.logBuf.length < 4096 → t.dep.tempAl[i] ≠ s.dep.tempAl[i] → t.nv.logSeq = s.nv.logSeq + 1) ∧
      (t.dep.tempAl[i] = s.dep.tempAl[i] → t.nv.logSeq = s.nv.logSeq) ∧ onlyTouches [.fab, .dep, .nv] s t) ∧
  (∀ (s : State) (v f : Nat) (dc : Bool), s.depUp = true →
    fires (.sensorSample 16 (v : Int) f dc) s fun t =>
      t.dep.mainsV = satN 16 v ∧ (t.dep.mainsF = (if dc then 0 else satN 15 f)) ∧ t.dep.mainsDc = dc ∧
      (t.dep.mainsAl.testBit 0 = (decide (v < 800 ∨ 3200 < v) || (s.dep.mainsAl.testBit 0 && !decide (816 ≤ v ∧ v ≤
        3136)))) ∧
      (t.dep.mainsAl.testBit 1 = (decide (dc = false ∧ (f < 4500 ∨ 6500 < f)) || (s.dep.mainsAl.testBit 1 && !decide
        (dc = true ∨ (4590 ≤ f ∧ f ≤ 6370))))) ∧
      t.dep.temp = s.dep.temp ∧ onlyTouches [.fab, .dep, .nv] s t) ∧
  (∀ (s : State) (r : Fin 3) (v : Nat), s.depUp = true →
    fires (.sensorSample (⟨17 + r.val, by omega⟩) (v : Int) 0 false) s fun t =>
      t.dep.aux.testBit r.val = decide (95 * railNom r.val ≤ 100 * v ∧ 100 * v ≤ 105 * railNom r.val) ∧
      t.dep.temp = s.dep.temp ∧ t.dep.mainsV = s.dep.mainsV ∧ onlyTouches [.fab, .dep, .nv] s t) ∧
  (∀ (s : State) (r : Nat), s.depUp = true →
    fires (.isoMeasure r) s fun t =>
      t.dep.isoR = satN 24 r ∧
      (t.dep.isoWarn = (if r < 50000 then true else if 100000 < r ∧ 2 ≤ s.dep.isoWarnN then false else s.dep.isoWarn)) ∧
      (t.dep.isoAlarm = (if r < 5000 then true else if 10000 < r ∧ 2 ≤ s.dep.isoAlarmN then false else
        s.dep.isoAlarm)) ∧
      (s.dep.isoWarn = true → t.dep.isoWarn = true → t.dep.isoWarnN = (if r < 50000 then 0 else if 100000 < r then
        s.dep.isoWarnN + 1 else 0)) ∧
      (s.dep.isoAlarm = true → t.dep.isoAlarm = true → t.dep.isoAlarmN = (if r < 5000 then 0 else if 10000 < r then
        s.dep.isoAlarmN + 1 else 0)) ∧
      onlyTouches [.fab, .dep, .nv] s t) ∧
  (∀ (s : State) (x : Fin 72) (e : EvRec) (h : List HubRec),
    s.depUp = true → takeDep x.val s.fab.hub = some (e, h) → (e.src ≠ 1 ∨ e.code ≠ 0x50) →
    s.dep.logBuf.length < 4096 →
    fires (.deputyEvent x) s fun t =>
      t.fab.hub = h ∧
      ((logDefault e.src e.code = true ∨ s.dep.logFlt.any (fun f => logMatch f e.src e.code) = true) → ∃ r,
        t.dep.logBuf = s.dep.logBuf ++ [r] ∧ r.time = e.time % 2 ^ 48 ∧ r.boot = s.nv.boots % 65536 ∧ r.seq =
        s.nv.logSeq % 2 ^ 32 ∧ r.src = e.src ∧ r.code = e.code ∧ r.kind = 0 ∧ r.core = 0 ∧ r.arg = e.arg ∧ t.nv.logSeq
        = s.nv.logSeq + 1) ∧
      (t.dep.logBuf.length = s.dep.logBuf.length + (if logDefault e.src e.code || s.dep.logFlt.any (fun f => logMatch
        f e.src e.code) then 1 else 0)) ∧
      (logDefault e.src e.code = false → s.dep.logFlt = [] → t.dep.logBuf = s.dep.logBuf ∧ t.nv = s.nv) ∧
      t.sup = s.sup ∧ t.core = s.core ∧ onlyTouches [.fab, .dep, .nv, .free] s t) ∧
  (∀ (s : State) (e : EvRec) (h : List HubRec),
    s.depUp = true → takeDep 1 s.fab.hub = some (e, h) → e.src = 1 → e.code = 0x50 → s.sup.coreReset = false →
    bit s.dep.wdCfg 28 = true → s.wdRuns = true → s.isUp 1 = true →
    fires (.deputyEvent 1) s fun t =>
      t.dep.wdCause = 2 ∧ t.sup.coreReset = true ∧ t.nv.activeB = (s.nv.activeB != s.nv.trial) ∧ t.mem = s.mem ∧
      onlyTouches [.fab, .hs, .hsc, .dig, .vg, .vd, .ls, .adm, .inp, .pwr, .sup, .sys, .lc, .que, .core, .pmc, .hp,
        .dep, .nv, .free] s t) ∧
  (∀ (s : State) (e : LogRec) (r : List LogRec), s.depUp = true → s.dep.lostSince = 0 → s.dep.logBuf = e :: r →
    fires (.logFlashWrite) s fun t =>
      t.dep = { s.dep with logBuf := r } ∧
      (t.nv.log = (if s.nv.logWrites % 2048 = 0 ∧ 503 * 2048 < s.nv.log.length then s.nv.log.drop 2048 else s.nv.log)
        ++ [e]) ∧
      t.nv.logWrites = s.nv.logWrites + 1 ∧
      (t.nv.erases = s.nv.erases + (if s.nv.logWrites % 2048 = 0 then 1 else 0)) ∧ t.nv.logSeq = s.nv.logSeq ∧
      onlyTouches [.fab, .dep, .nv] s t) ∧
  (∀ (s : State), s.depUp = true → 0 < s.dep.lostSince →
    fires (.logFlashWrite) s fun t =>
      t.dep = { s.dep with lostSince := 0 } ∧ t.nv.logSeq = s.nv.logSeq + 1 ∧
      (∃ e, t.nv.log.getLast? = some e ∧ e.code = 8 ∧ e.src = 3 ∧ e.kind = 1 ∧ e.seq = s.nv.logSeq % 2 ^ 32 ∧ fld
        e.arg 0 16 = satN 16 s.dep.lostSince) ∧
      t.nv.logWrites = s.nv.logWrites + 1 ∧ onlyTouches [.fab, .dep, .nv] s t) ∧
  (∀ (s : State), s.depUp = true →
    fires (.lifetimeSnapshot) s fun t =>
      (∀ n : Fin 48, s.isUp (24 + n.val) = true → gained s.nv.tot[n.val] t.nv.tot[n.val]
        { LifeCounts.zero with ops := s.hs[n].ops, onTime := s.hs[n].onSeconds s.now, cyc := s.hs[n].thermCyc, clamp := s.hs[n].clEtot, high := s.hs[n].clHigh, ovl := s.hs[n].clOvl }
        ∧ t.nv.trends[n] = (s.hs[n].est.tI.long / 256, s.hs[n].est.tR.long / 256, s.hs[n].est.tF.long / 256)) ∧
      (∀ n : Fin 48, s.isUp (24 + n.val) = false → t.nv.tot[n.val] = s.nv.tot[n.val] ∧ t.nv.trends[n] =
        s.nv.trends[n]) ∧
      (∀ (g q : Fin 4), s.isUp (20 + g.val) = true → gained s.nv.tot[48 + (4 * g.val + q.val)] t.nv.tot[48 + (4 *
        g.val + q.val)]
        { LifeCounts.zero with ops := s.vd[4 * g.val + q.val].ops, onTime := s.vd[4 * g.val + q.val].onSeconds s.now, cyc := s.vg[g].thermCyc, arr := s.vd[4 * g.val + q.val].arrCnt, miss := s.vd[4 * g.val + q.val].missCnt })
        ∧
      (∀ n : Fin 3, s.isUp (17 + n.val) = true → gained s.nv.tot[64 + n.val] t.nv.tot[64 + n.val]
        { LifeCounts.zero with ops := s.ls[n].ops, onTime := s.ls[n].onSeconds s.now }) ∧
      t.dep = { s.dep with snapAt := s.now } ∧ t.nv.log = s.nv.log ∧ onlyTouches [.dep, .nv] s t) ∧
  (∀ (s : State) (n : Fin 48), s.depUp = true → s.isUp (24 + n.val) = true → s.hs[n].tj = 1360 →
    fires (.lifeTjSample) s fun t =>
      t.nv.tot[n.val].eqHours = s.nv.tot[n.val].eqHours + 10 / 3600 ∧ t.nv.ageUs = s.nv.ageUs + 10000000 ∧
      (∀ k : Fin 67, t.nv.tot[k] = { s.nv.tot[k] with eqHours := t.nv.tot[k].eqHours }) ∧ onlyTouches [.nv] s t) ∧
  (∀ (s : State) (n : Fin 48), s.depUp = true → n.val < 32 →
    fires (.lifeRecompute) s fun t =>
      t.nv.tot[n.val].l = min 1000 (1000 * (1 - max (s.nv.tot[n.val].eqHours / 262800) (max ((s.nv.tot[n.val].sum.ops
        : Rat) / 2000000000) ((s.nv.tot[n.val].sum.cyc : Rat) / 2000000 + s.nv.tot[n.val].sum.clamp /
        71000000000000000)))).floor.toNat ∧
      (t.nv.tot[n.val].years = (if 999 ≤ t.nv.tot[n.val].l then 99 else min 99 (s.nv.ageUs * t.nv.tot[n.val].l /
        ((1000 - t.nv.tot[n.val].l) * 31557600000000)))) ∧
      t.nv.tot[n.val].sum = s.nv.tot[n.val].sum ∧
      t.nv.modL = min 1000 (min ((1000 * (1 - s.nv.modEq / 262800)).floor.toNat) (min ((1000 * (1 - (((s.nv.erases +
        503) / 504 : Nat) : Rat) / 10000)).floor.toNat) ((1000 * (1 - (s.nv.p0Cyc : Rat) / 20000)).floor.toNat))) ∧
      onlyTouches [.fab, .dep, .nv] s t) ∧
  (∀ (s : State) (c : Fin 4) (i : Fin 32), canStore s 3 11 → bit s.dep.reqBusy i.val = false →
    fires (.post c i) s fun t =>
      t.dep.posted = s.dep.posted ++ [i] ∧ t.dep.reqBusy = s.dep.reqBusy ||| BitVec.ofNat 32 (2 ^ i.val) ∧
      t.dep.postTime[i] = s.count ∧ onlyAt i s.dep.postTime t.dep.postTime ∧ fld (hdrOf t i) 20 2 = c.val ∧
      (∀ k : Fin 8, k ≠ 0 → argOf t i k = argOf s i k) ∧
      (hdrOf t i) &&& 0xFFCFFFFF#32 = (hdrOf s i) &&& 0xFFCFFFFF#32 ∧
      (∀ k : Fin 64, k.val ≠ i.val → t.dep.slots[k] = s.dep.slots[k]) ∧ t.dep.cmdRes = 0 ∧
      onlyTouches [.fab, .answer, .pmc, .dep, .free] s t) ∧
  (∀ (s : State) (c : Fin 4) (i : Fin 32), canStore s 3 11 → bit s.dep.reqBusy i.val = true →
    fires (.post c i) s fun t =>
      t.dep = { s.dep with cmdRes := 2 } ∧ onlyTouches [.fab, .answer, .pmc, .dep, .free] s t) ∧
  (∀ (s : State) (c : Fin 4) (j : Fin 32), canStore s 3 11 → s.dep.rspWait = [] →
    fires (.rspAck c (BitVec.ofNat 6 (32 + j.val))) s fun t =>
      t.dep = { s.dep with rspPend := s.dep.rspPend &&& ~~~(BitVec.ofNat 32 (2 ^ j.val)) } ∧
      onlyTouches [.fab, .answer, .pwr, .pmc, .dep, .free] s t) ∧
  (∀ (s : State) (i j : Fin 32) (l : List (Fin 32)), canAnswer s j → takesFirst s i l 4 → s.dep.logBuf.length < 4096 →
    fires (.logWrite) s fun t =>
      taken s t i l ∧ answered s t j (hdrOf s i) 0 [] ∧
      (∃ r, t.dep.logBuf = s.dep.logBuf ++ [r] ∧ r.time = s.count ∧ r.seq = s.nv.logSeq % 2 ^ 32 ∧ r.src = 1 ∧ r.kind
        = 2 ∧ r.code = argOf s i 1 % 256 ∧ r.core = fld (hdrOf s i) 20 2 ∧ r.arg.toNat = argOf s i 2 ∧ r.d0.toNat =
        argOf s i 3 ∧ r.d1.toNat = argOf s i 4) ∧
      t.nv = { s.nv with logSeq := s.nv.logSeq + 1 } ∧ onlyTouches [.fab, .pwr, .dep, .nv] s t) ∧
  (∀ (s : State) (i j : Fin 32) (l : List (Fin 32)) (r : LogRec),
    canAnswer s j → takesFirst s i l 5 → argOf s i 2 = 1 →
    ((s.nv.log ++ s.dep.logBuf).find? (fun e => e.seq == argOf s i 1) = some r) → r.seal.crc = r.crc →
    fires (.logRead) s fun t =>
      taken s t i l ∧
      answered s t j (hdrOf s i) 0 [BitVec.ofNat 32 r.time, pack [(0, 16, r.time / 2 ^ 32), (16, 16, r.boot)],
        BitVec.ofNat 32 r.seq, pack [(0, 8, r.src), (8, 8, r.code), (16, 8, r.kind), (24, 8, r.core)], r.arg, r.d0,
        r.d1] ∧
      t.dep.logBuf = s.dep.logBuf ∧ onlyTouches [.fab, .pwr, .dep, .free] s t) ∧
  (∀ (s : State) (i j : Fin 32) (l : List (Fin 32)),
    canAnswer s j → takesFirst s i l 5 → (argOf s i 2 = 0 ∨ 32 < argOf s i 2) →
    fires (.logRead) s fun t =>
      taken s t i l ∧ answered s t j (hdrOf s i) 2 [] ∧ onlyTouches [.fab, .pwr, .dep, .free] s t) ∧
  (∀ (s : State) (i j : Fin 32) (l : List (Fin 32)),
    canAnswer s j → takesFirst s i l 6 → argOf s i 1 % 2 = 1 → s.dep.logFlt.length < 16 →
    fires (.logFilter) s fun t =>
      taken s t i l ∧ answered s t j (hdrOf s i) 0 [] ∧
      t.dep.logFlt = s.dep.logFlt ++ [(argOf s i 2 % 256, argOf s i 3 % 256, argOf s i 4 % 256)] ∧
      onlyTouches [.fab, .pwr, .dep, .free] s t) ∧
  (∀ (s : State) (i j : Fin 32) (l : List (Fin 32)), canAnswer s j → takesFirst s i l 6 → argOf s i 1 % 2 = 0 →
    fires (.logFilter) s fun t =>
      taken s t i l ∧ answered s t j (hdrOf s i) 0 [] ∧
      t.dep.logFlt = s.dep.logFlt.erase (argOf s i 2 % 256, argOf s i 3 % 256, argOf s i 4 % 256) ∧
      onlyTouches [.fab, .pwr, .dep, .free] s t) ∧
  (∀ (s : State) (i j : Fin 32) (l : List (Fin 32)) (x : Fin 67),
    canAnswer s j → takesFirst s i l 7 → argOf s i 1 = x.val →
    fires (.lifeRead) s fun t =>
      taken s t i l ∧
      answered s t j (hdrOf s i) 0 [BitVec.ofNat 32 s.nv.tot[x].l, BitVec.ofNat 32 s.nv.tot[x].years, BitVec.ofNat 32
        s.nv.tot[x].dTime, BitVec.ofNat 32 s.nv.tot[x].dOps, BitVec.ofNat 32 s.nv.tot[x].dCyc, BitVec.ofNat 32
        s.nv.tot[x].dClamp] ∧
      onlyTouches [.fab, .pwr, .dep, .free] s t) ∧
  (∀ (s : State) (i j : Fin 32) (l : List (Fin 32)),
    canAnswer s j → takesFirst s i l 7 → 67 ≤ argOf s i 1 → argOf s i 1 ≠ 0x7FF →
    fires (.lifeRead) s fun t =>
      taken s t i l ∧ answered s t j (hdrOf s i) 2 [] ∧ onlyTouches [.fab, .pwr, .dep, .free] s t) ∧
  (∀ (s : State) (i j : Fin 32) (l : List (Fin 32)) (n : Fin 48),
    canAnswer s j → takesFirst s i l 8 → argOf s i 1 = n.val →
    fires (.trendRead) s fun t =>
      taken s t i l ∧
      answered s t j (hdrOf s i) 0 [BitVec.ofNat 32 s.nv.trends[n].1, BitVec.ofNat 32 s.nv.trends[n].2.1, BitVec.ofNat
        32 s.nv.trends[n].2.2] ∧
      onlyTouches [.fab, .pwr, .dep] s t) ∧
  (∀ (s : State) (i j : Fin 32) (l : List (Fin 32)), canAnswer s j → takesFirst s i l 8 → 48 ≤ argOf s i 1 →
    fires (.trendRead) s fun t =>
      taken s t i l ∧ answered s t j (hdrOf s i) 2 [] ∧ onlyTouches [.fab, .pwr, .dep] s t) ∧
  (∀ (s : State) (i j : Fin 32) (l : List (Fin 32)) (x : Fin 16),
    canAnswer s j → takesFirst s i l 9 → argOf s i 1 = x.val → -40 ≤ sext 32 (argOf s i 2) →
    sext 32 (argOf s i 2) ≤ 150 →
    fires (.tempLimit) s fun t =>
      taken s t i l ∧ answered s t j (hdrOf s i) 0 [] ∧ t.nv.tempLim[x] = sext 32 (argOf s i 2) ∧
      onlyAt x s.nv.tempLim t.nv.tempLim ∧ onlyTouches [.fab, .pwr, .dep, .nv] s t) ∧
  (∀ (s : State) (i j : Fin 32) (l : List (Fin 32)),
    canAnswer s j → takesFirst s i l 9 →
    (16 ≤ argOf s i 1 ∨ sext 32 (argOf s i 2) < -40 ∨ 150 < sext 32 (argOf s i 2)) →
    fires (.tempLimit) s fun t =>
      taken s t i l ∧ answered s t j (hdrOf s i) 2 [] ∧ t.nv = s.nv ∧ onlyTouches [.fab, .pwr, .dep, .nv] s t) ∧
  (∀ (s : State) (q : Fin 20) (x : Int) (hz : Nat) (dc : Bool), s.depUp = false →
    fires (.sensorSample q x hz dc) s fun t =>
      t = s) ∧
  (∀ (s : State) (r : Nat), s.depUp = false →
    fires (.isoMeasure r) s fun t =>
      t = s) ∧
  (∀ (s : State) (x : Fin 72),
    (takeDep x.val s.fab.hub = none ∧ (s.fab.out[x].recs = [] ∨ s.isUp 2 = false) ∨ s.depUp = false ∧ (takeDep x.val
      s.fab.hub).isSome = true) →
    fires (.deputyEvent x) s fun t =>
      t = s) ∧
  (∀ (s : State), (s.depUp = false ∨ (s.dep.lostSince = 0 ∧ s.dep.logBuf = [])) →
    fires (.logFlashWrite) s fun t =>
      t = s) ∧
  (∀ (s : State), s.depUp = false →
    fires (.lifetimeSnapshot) s fun t =>
      t = s) ∧
  (∀ (s : State), s.depUp = false →
    fires (.lifeTjSample) s fun t =>
      t = s) ∧
  (∀ (s : State), s.depUp = false →
    fires (.lifeRecompute) s fun t =>
      t = s) ∧
  (∀ (s : State), (s.depUp = false ∨ s.isStopped 11 = true ∨ s.dep.posted = []) →
    fires (.logWrite) s fun t =>
      t = s) ∧
  (∀ (s : State), (s.depUp = false ∨ s.isStopped 11 = true ∨ s.dep.posted = []) →
    fires (.logRead) s fun t =>
      t = s) ∧
  (∀ (s : State), (s.depUp = false ∨ s.isStopped 11 = true ∨ s.dep.posted = []) →
    fires (.logFilter) s fun t =>
      t = s) ∧
  (∀ (s : State), (s.depUp = false ∨ s.isStopped 11 = true ∨ s.dep.posted = []) →
    fires (.lifeRead) s fun t =>
      t = s) ∧
  (∀ (s : State), (s.depUp = false ∨ s.isStopped 11 = true ∨ s.dep.posted = []) →
    fires (.trendRead) s fun t =>
      t = s) ∧
  (∀ (s : State), (s.depUp = false ∨ s.isStopped 11 = true ∨ s.dep.posted = []) →
    fires (.tempLimit) s fun t =>
      t = s)

/-- CHECK_IN (R560, R561), limp (R323, R325), update (R558, R559, R562), debug lock (R564). -/
def Obligations.UpdatesTrialsKeysAndDebugFollowTheMailbox : Prop :=
  (∀ (s : State) (i j : Fin 32) (l : List (Fin 32)) (a : Nat),
    canAnswer s j → takesFirst s i l 1 → s.nv.trial = true → s.dep.trialAt = some a →
    s.dep.postTime[i] < a + 60000000 → a + 60000000 < 2 ^ 48 →
    fires (.checkIn) s fun t =>
      taken s t i l ∧ answered s t j (hdrOf s i) 0 [] ∧
      t.nv = { s.nv with trial := false, cnt := max s.nv.cnt (memGet s.mem (bankBase s.nv.activeB + 12)).toNat } ∧
      t.dep.trialAt = none ∧ onlyTouches [.fab, .pwr, .dep, .nv, .free] s t) ∧
  (∀ (s : State) (i j : Fin 32) (l : List (Fin 32)) (a : Nat),
    canAnswer s j → takesFirst s i l 1 → s.nv.trial = true → s.dep.trialAt = some a →
    a + 60000000 ≤ s.dep.postTime[i] → a + 60000000 < 2 ^ 48 →
    fires (.checkIn) s fun t =>
      taken s t i l ∧ answered s t j (hdrOf s i) 8 [] ∧ t.nv = s.nv ∧ t.dep.trialAt = s.dep.trialAt ∧
      onlyTouches [.fab, .pwr, .dep, .nv, .free] s t) ∧
  (∀ (s : State) (i j : Fin 32) (l : List (Fin 32)), canAnswer s j → takesFirst s i l 2 →
    fires (.limpSet) s fun t =>
      taken s t i l ∧ answered s t j (hdrOf s i) 0 [] ∧ t.inp.deputy = true ∧ t.inp.pad = s.inp.pad ∧
      t.limpStore = s.limpStore ∧ onlyTouches [.fab, .hs, .dig, .vg, .vd, .ls, .adm, .inp, .pwr, .dep, .free] s t) ∧
  (∀ (s : State) (i j : Fin 32) (l : List (Fin 32)), canAnswer s j → takesFirst s i l 3 →
    fires (.limpRelease) s fun t =>
      taken s t i l ∧ answered s t j (hdrOf s i) 0 [] ∧ t.inp.deputy = false ∧ t.inp.pad = s.inp.pad ∧
      (s.inp.deputy = true → s.inp.pad = false → s.inp.expiry = false → ∀ n : Fin 48, s.isUp (24 + n.val) = true →
        t.hs[n].limp = false) ∧
      onlyTouches [.fab, .hs, .dig, .vg, .vd, .ls, .adm, .inp, .pwr, .dep, .free] s t) ∧
  (∀ (s : State) (i j : Fin 32) (l : List (Fin 32)),
    canAnswer s j → takesFirst s i l 16 → s.dep.updStep = 0 → s.nv.trial = false → argOf s i 1 ≠ 0 →
    argOf s i 1 % 4 = 0 → argOf s i 1 ≤ 0x400000 →
    fires (.updBegin) s fun t =>
      taken s t i l ∧
      t.dep.updOp = some { op := 16, hdr := (hdrOf s i), args := (s.dep.slots[i.val].toList.drop 1) } ∧
      t.dep.rspPend = s.dep.rspPend ∧ onlyTouches [.fab, .pwr, .dep] s t) ∧
  (∀ (s : State) (i j : Fin 32) (l : List (Fin 32)),
    canAnswer s j → takesFirst s i l 16 → (s.dep.updStep ≠ 0 ∨ s.nv.trial = true) →
    fires (.updBegin) s fun t =>
      taken s t i l ∧ answered s t j (hdrOf s i) 4 [] ∧ t.dep.updStep = s.dep.updStep ∧
      onlyTouches [.fab, .pwr, .dep] s t) ∧
  (∀ (s : State) (i j : Fin 32) (l : List (Fin 32)),
    canAnswer s j → takesFirst s i l 16 → s.dep.updStep = 0 → s.nv.trial = false →
    (argOf s i 1 = 0 ∨ argOf s i 1 % 4 ≠ 0 ∨ 0x400000 < argOf s i 1) →
    fires (.updBegin) s fun t =>
      taken s t i l ∧ answered s t j (hdrOf s i) 2 [] ∧ onlyTouches [.fab, .pwr, .dep] s t) ∧
  (∀ (s : State) (i j : Fin 32) (l : List (Fin 32)),
    canAnswer s j → takesFirst s i l 17 → (s.dep.updStep = 1 ∨ s.dep.updStep = 2) →
    argOf s i 1 % 4 = 0 ∧ argOf s i 2 % 4 = 0 ∧ argOf s i 3 % 4 = 0 → argOf s i 2 ≤ 65536 → bulkBase ≤ argOf s i 1 →
    argOf s i 1 + argOf s i 2 ≤ bulkEnd → argOf s i 3 + argOf s i 2 ≤ s.dep.updTotal →
    fires (.updWrite) s fun t =>
      taken s t i l ∧
      t.dep.updOp = some { op := 17, hdr := (hdrOf s i), args := (s.dep.slots[i.val].toList.drop 1) } ∧
      t.dep.rspPend = s.dep.rspPend ∧ onlyTouches [.fab, .pwr, .dep] s t) ∧
  (∀ (s : State) (i j : Fin 32) (l : List (Fin 32)),
    canAnswer s j → takesFirst s i l 17 → s.dep.updStep ≠ 1 → s.dep.updStep ≠ 2 →
    fires (.updWrite) s fun t =>
      taken s t i l ∧ answered s t j (hdrOf s i) 4 [] ∧ onlyTouches [.fab, .pwr, .dep] s t) ∧
  (∀ (s : State) (i j : Fin 32) (l : List (Fin 32)), canAnswer s j → takesFirst s i l 18 → s.dep.updStep = 2 →
    fires (.updVerify) s fun t =>
      taken s t i l ∧
      t.dep.updOp = some { op := 18, hdr := (hdrOf s i), args := (s.dep.slots[i.val].toList.drop 1) } ∧
      t.dep.rspPend = s.dep.rspPend ∧ onlyTouches [.fab, .pwr, .dep] s t) ∧
  (∀ (s : State) (i j : Fin 32) (l : List (Fin 32)), canAnswer s j → takesFirst s i l 18 → s.dep.updStep ≠ 2 →
    fires (.updVerify) s fun t =>
      taken s t i l ∧ answered s t j (hdrOf s i) 4 [] ∧ onlyTouches [.fab, .pwr, .dep] s t) ∧
  (∀ (s : State) (i j : Fin 32) (l : List (Fin 32)), canAnswer s j → takesFirst s i l 19 → s.dep.updStep = 3 →
    fires (.updActivate) s fun t =>
      taken s t i l ∧
      t.dep.updOp = some { op := 19, hdr := (hdrOf s i), args := (s.dep.slots[i.val].toList.drop 1) } ∧
      t.dep.rspPend = s.dep.rspPend ∧ onlyTouches [.fab, .pwr, .dep] s t) ∧
  (∀ (s : State) (i j : Fin 32) (l : List (Fin 32)), canAnswer s j → takesFirst s i l 19 → s.dep.updStep ≠ 3 →
    fires (.updActivate) s fun t =>
      taken s t i l ∧ answered s t j (hdrOf s i) 4 [] ∧ onlyTouches [.fab, .pwr, .dep] s t) ∧
  (∀ (s : State) (i j : Fin 32) (l : List (Fin 32)), canAnswer s j → takesFirst s i l 20 →
    fires (.updAbort) s fun t =>
      taken s t i l ∧
      t.dep.updOp = some { op := 20, hdr := (hdrOf s i), args := (s.dep.slots[i.val].toList.drop 1) } ∧
      t.dep.rspPend = s.dep.rspPend ∧ onlyTouches [.fab, .pwr, .dep] s t) ∧
  (∀ (s : State) (j : Fin 32) (o : UpdOp), canAnswer s j → s.dep.updOp = some o → o.op = 0x10 → s.canonical →
    fires (.updDone false) s fun t =>
      answered s t j o.hdr 0 [] ∧ t.dep.updOp = none ∧ t.dep.updStep = 1 ∧ t.dep.updTotal = (o.args.getD 0 0).toNat ∧
      (∀ a, (bankBase (!s.nv.activeB)) ≤ a → a < (bankBase (!s.nv.activeB)) + 0x400000 → memGet t.mem a = 0xFF) ∧
      memGet t.mem (bankBase (!s.nv.activeB)) = 0xFF ∧
      (∀ a, a < (bankBase (!s.nv.activeB)) ∨ (bankBase (!s.nv.activeB)) + 0x400000 ≤ a → memGet t.mem a = memGet s.mem
        a) ∧
      t.ecc = s.ecc ∧ onlyTouches [.fab, .pwr, .sys, .mem, .ecc, .pmc, .dep, .nv, .free] s t) ∧
  (∀ (s : State) (j : Fin 32) (o : UpdOp),
    canAnswer s j → s.dep.updOp = some o → o.op = 0x11 → s.canonical → s.bulkOk = true → s.ecc = [] →
    bulkBase ≤ (o.args.getD 0 0).toNat → (o.args.getD 0 0).toNat + (o.args.getD 1 0).toNat ≤ bulkEnd →
    (o.args.getD 1 0).toNat % 4 = 0 → (o.args.getD 2 0).toNat + (o.args.getD 1 0).toNat ≤ 0x400000 →
    fires (.updDone false) s fun t =>
      answered s t j o.hdr 0 [] ∧ t.dep.updOp = none ∧ t.dep.updStep = 2 ∧
      (∀ k, k < (o.args.getD 1 0).toNat → memGet t.mem ((bankBase (!s.nv.activeB)) + (o.args.getD 2 0).toNat + k) =
        memGet s.mem ((o.args.getD 0 0).toNat + k)) ∧
      (0 < (o.args.getD 1 0).toNat → memGet t.mem ((bankBase (!s.nv.activeB)) + (o.args.getD 2 0).toNat) = memGet
        s.mem (o.args.getD 0 0).toNat) ∧
      (∀ a, a < (bankBase (!s.nv.activeB)) + (o.args.getD 2 0).toNat ∨ (bankBase (!s.nv.activeB)) + (o.args.getD 2
        0).toNat + (o.args.getD 1 0).toNat ≤ a → memGet t.mem a = memGet s.mem a) ∧
      onlyTouches [.fab, .pwr, .sys, .mem, .ecc, .pmc, .dep, .nv, .free] s t) ∧
  (∀ (s : State) (j : Fin 32) (o : UpdOp),
    canAnswer s j → s.dep.updOp = some o → (o.op = 0x10 ∨ o.op = 0x11) → s.bulkOk = true →
    fires (.updDone true) s fun t =>
      answered s t j o.hdr 7 [] ∧ t.dep.updOp = none ∧ t.dep.updStep = s.dep.updStep ∧ t.mem = s.mem ∧
      onlyTouches [.fab, .pwr, .sys, .mem, .ecc, .pmc, .dep, .nv, .free] s t) ∧
  (∀ (s : State) (j : Fin 32) (o : UpdOp) (b : Bool), canAnswer s j → s.dep.updOp = some o → o.op = 0x12 →
    fires (.updDone b) s fun t =>
      answered s t j o.hdr (imageCheck s.mem s.nv.keys s.nv.cnt (!s.nv.activeB)) [] ∧ t.dep.updOp = none ∧
      (t.dep.updStep = (if imageCheck s.mem s.nv.keys s.nv.cnt (!s.nv.activeB) = 0 then 3 else s.dep.updStep)) ∧
      (imageCheck s.mem s.nv.keys s.nv.cnt (!s.nv.activeB) = 0 → s.nv.cnt ≤ (memGet s.mem ((bankBase (!s.nv.activeB))
        + 12)).toNat ∧ memLoad s.mem (bankBase (!s.nv.activeB)) 4 = 0x32375A47) ∧
      t.mem = s.mem ∧ onlyTouches [.fab, .pwr, .sys, .mem, .ecc, .pmc, .dep, .nv, .free] s t) ∧
  (∀ (s : State) (j : Fin 32) (o : UpdOp) (b : Bool), canAnswer s j → s.dep.updOp = some o → o.op = 0x13 →
    fires (.updDone b) s fun t =>
      answered s t j o.hdr 0 [] ∧ t.dep.updOp = none ∧ t.nv = { s.nv with next := true } ∧ t.dep.updStep = 4 ∧
      (t.dep.rebootAt = (if (o.args.getD 0 0).toNat % 2 = 1 then some (s.now + 10000) else none)) ∧ t.mem = s.mem ∧
      onlyTouches [.fab, .pwr, .sys, .mem, .ecc, .pmc, .dep, .nv, .free] s t) ∧
  (∀ (s : State) (j : Fin 32) (o : UpdOp) (b : Bool), canAnswer s j → s.dep.updOp = some o → o.op = 0x14 →
    fires (.updDone b) s fun t =>
      answered s t j o.hdr 0 [] ∧ t.dep.updOp = none ∧ t.nv = { s.nv with next := false } ∧ t.dep.updStep = 0 ∧
      t.dep.rebootAt = none ∧ t.mem = s.mem ∧ onlyTouches [.fab, .pwr, .sys, .mem, .ecc, .pmc, .dep, .nv, .free] s t) ∧
  (∀ (s : State) (i j : Fin 32) (l : List (Fin 32)) (x : Fin 4),
    canAnswer s j → takesFirst s i l 21 → argOf s i 1 = x.val →
    (memGet s.mem (bankBase s.nv.activeB + 5)).toNat ≠ x.val →
    fires (.keyRevoke) s fun t =>
      taken s t i l ∧ answered s t j (hdrOf s i) 0 [] ∧ t.nv.keys[x] = { s.nv.keys[x] with revoked := true } ∧
      onlyAt x s.nv.keys t.nv.keys ∧ onlyTouches [.fab, .pwr, .dep, .nv] s t) ∧
  (∀ (s : State) (i j : Fin 32) (l : List (Fin 32)),
    canAnswer s j → takesFirst s i l 21 → argOf s i 1 < 4 →
    (memGet s.mem (bankBase s.nv.activeB + 5)).toNat = argOf s i 1 →
    fires (.keyRevoke) s fun t =>
      taken s t i l ∧ answered s t j (hdrOf s i) 4 [] ∧ t.nv = s.nv ∧ onlyTouches [.fab, .pwr, .dep, .nv] s t) ∧
  (∀ (s : State) (i j : Fin 32) (l : List (Fin 32)), canAnswer s j → takesFirst s i l 21 → 4 ≤ argOf s i 1 →
    fires (.keyRevoke) s fun t =>
      taken s t i l ∧ answered s t j (hdrOf s i) 2 [] ∧ t.nv = s.nv ∧ onlyTouches [.fab, .pwr, .dep, .nv] s t) ∧
  (∀ (s : State) (i j : Fin 32) (l : List (Fin 32)),
    canAnswer s j → takesFirst s i l 32 → s.nv.dbgFuse = false → s.dep.dbgClosed = false →
    s.dep.logBuf.length < 4096 →
    fires (.dbgClose) s fun t =>
      taken s t i l ∧ answered s t j (hdrOf s i) 0 [] ∧ t.dep.dbgClosed = true ∧
      t.nv = { s.nv with logSeq := s.nv.logSeq + 1 } ∧ onlyTouches [.fab, .pwr, .dep, .nv, .free] s t) ∧
  (∀ (s : State) (i j : Fin 32) (l : List (Fin 32)),
    canAnswer s j → takesFirst s i l 33 → argOf s i 1 = 0x4C4F434B → s.dep.logBuf.length < 4096 →
    fires (.dbgLock) s fun t =>
      taken s t i l ∧ answered s t j (hdrOf s i) 0 [] ∧
      (t.nv = { s.nv with dbgFuse := true, logSeq := s.nv.logSeq + (if s.nv.dbgFuse then 0 else 1) }) ∧
      t.dep.dbgClosed = s.dep.dbgClosed ∧ onlyTouches [.fab, .pwr, .dep, .nv, .free] s t) ∧
  (∀ (s : State) (i j : Fin 32) (l : List (Fin 32)), canAnswer s j → takesFirst s i l 33 → argOf s i 1 ≠ 0x4C4F434B →
    fires (.dbgLock) s fun t =>
      taken s t i l ∧ answered s t j (hdrOf s i) 2 [] ∧ t.nv = s.nv ∧ t.dep.dbgClosed = s.dep.dbgClosed ∧
      onlyTouches [.fab, .pwr, .dep, .nv, .free] s t) ∧
  (∀ (s : State), (s.depUp = false ∨ s.isStopped 11 = true ∨ s.dep.posted = []) →
    fires (.checkIn) s fun t =>
      t = s) ∧
  (∀ (s : State), (s.depUp = false ∨ s.isStopped 11 = true ∨ s.dep.posted = []) →
    fires (.limpSet) s fun t =>
      t = s) ∧
  (∀ (s : State), (s.depUp = false ∨ s.isStopped 11 = true ∨ s.dep.posted = []) →
    fires (.limpRelease) s fun t =>
      t = s) ∧
  (∀ (s : State), (s.depUp = false ∨ s.isStopped 11 = true ∨ s.dep.posted = []) →
    fires (.updBegin) s fun t =>
      t = s) ∧
  (∀ (s : State), (s.depUp = false ∨ s.isStopped 11 = true ∨ s.dep.posted = []) →
    fires (.updWrite) s fun t =>
      t = s) ∧
  (∀ (s : State), (s.depUp = false ∨ s.isStopped 11 = true ∨ s.dep.posted = []) →
    fires (.updVerify) s fun t =>
      t = s) ∧
  (∀ (s : State), (s.depUp = false ∨ s.isStopped 11 = true ∨ s.dep.posted = []) →
    fires (.updActivate) s fun t =>
      t = s) ∧
  (∀ (s : State), (s.depUp = false ∨ s.isStopped 11 = true ∨ s.dep.posted = []) →
    fires (.updAbort) s fun t =>
      t = s) ∧
  (∀ (s : State), (s.depUp = false ∨ s.isStopped 11 = true ∨ s.dep.posted = []) →
    fires (.keyRevoke) s fun t =>
      t = s) ∧
  (∀ (s : State), (s.depUp = false ∨ s.isStopped 11 = true ∨ s.dep.posted = []) →
    fires (.dbgClose) s fun t =>
      t = s) ∧
  (∀ (s : State), (s.depUp = false ∨ s.isStopped 11 = true ∨ s.dep.posted = []) →
    fires (.dbgLock) s fun t =>
      t = s) ∧
  (∀ (s : State) (b : Bool), (s.depUp = false ∨ s.dep.updOp = none) →
    fires (.updDone b) s fun t =>
      t = s)

/-- Requests (R576), stages (R578 to R581, R659), the end by refusal (R583, R584), and wake requests (R585, R588,
R590). -/
def Obligations.EntriesRunStageByStageOrEndByRefusal : Prop :=
  (∀ (s : State) (c : Fin 4) (g : BitVec 2), s.coreRuns = true → s.isUp 0 = true → s.pwr.phase = .run → g ≠ 0 →
    fires (.pwrRequest c 0x9E37 g) s fun t =>
      t.pwr =
        { s.pwr with phase := .entering, target := g.toNat, stage := 1, reqAt := s.now, askedAt := s.now, wakeCause := 0, stopped := Vector.replicate 14 false }
        ∧
      onlyTouches [.fab, .answer, .pwr, .pmc, .free] s t) ∧
  (∀ (s : State) (c : Fin 4) (k : W16) (g : BitVec 2),
    s.coreRuns = true → s.isUp 0 = true → s.pwr.phase = .run → (k ≠ 0x9E37 ∨ g = 0) →
    fires (.pwrRequest c k g) s fun t =>
      t.pwr = { s.pwr with res := 4 } ∧ onlyTouches [.fab, .answer, .pwr, .pmc, .free] s t) ∧
  (∀ (s : State) (c : Fin 4) (k : W16) (g : BitVec 2),
    s.coreRuns = true → s.isUp 0 = true → (s.pwr.phase = .entering ∨ s.pwr.phase = .returning) →
    fires (.pwrRequest c k g) s fun t =>
      t.pwr = { s.pwr with res := 5 } ∧ onlyTouches [.fab, .answer, .pwr, .pmc, .free] s t) ∧
  (∀ (s : State),
    s.pwr.phase = .entering → s.pwr.stage = 1 → (∀ c : Fin 4, s.core[c].started = true → s.core[c].waiting = true) →
    fires (.stageAnswer) s fun t =>
      (t.pwr = { s.pwr with stage := (if s.pwr.target = 1 then 13 else 2), askedAt := s.now }) ∧
      onlyTouches [.pwr] s t) ∧
  (∀ (s : State) (c : Fin 4),
    s.pwr.phase = .entering → s.pwr.stage = 1 → s.core[c].started = true → s.core[c].waiting = false →
    fires (.stageAnswer) s fun t =>
      t = s) ∧
  (∀ (s : State), s.pwr.phase = .entering → s.pwr.stage = 2 → s.plkRefuses = false →
    fires (.stageAnswer) s fun t =>
      t.pwr = { s.pwr with stopped := s.pwr.stopped.set 2 true, stage := 3, askedAt := s.now } ∧
      onlyTouches [.pwr] s t) ∧
  (∀ (s : State), s.pwr.phase = .entering → s.pwr.stage = 3 → (∀ c : Fin 4, (canOf s c).refuses = false) →
    fires (.stageAnswer) s fun t =>
      t.pwr = { s.pwr with stopped := s.pwr.stopped.set 3 true, stage := 4, askedAt := s.now } ∧
      onlyTouches [.pwr] s t) ∧
  (∀ (s : State),
    s.pwr.phase = .entering → s.pwr.stage = 4 →
    (∀ c : Fin 4, ((nmOf s c).en = true → (nmOf s c).st = .busSleep) ∧ ((nmOf s c).en = false → (nmOf s c).trx ≠
      .normal ∧ (nmOf s c).trx ≠ .listen)) →
    fires (.stageAnswer) s fun t =>
      t.pwr = { s.pwr with stopped := s.pwr.stopped.set 4 true, stage := 5, askedAt := s.now } ∧
      onlyTouches [.pwr] s t) ∧
  (∀ (s : State),
    s.pwr.phase = .entering → s.pwr.stage = 5 →
    (∀ k : Fin 8, (s.lc[k].st = .disabled ∨ s.lc[k].st = .idle) ∧ s.lc[k].out = []) →
    fires (.stageAnswer) s fun t =>
      t.pwr = { s.pwr with stopped := s.pwr.stopped.set 5 true, stage := 6, askedAt := s.now } ∧
      onlyTouches [.pwr] s t) ∧
  (∀ (s : State),
    s.pwr.phase = .entering → s.pwr.stage = 6 →
    (∀ k : Fin 3, s.ls[k].st = .disabled ∨ s.ls[k].st = .off ∨ s.ls[k].st = .latched) →
    fires (.stageAnswer) s fun t =>
      t.pwr = { s.pwr with stopped := s.pwr.stopped.set 6 true, stage := 7, askedAt := s.now } ∧
      onlyTouches [.pwr] s t) ∧
  (∀ (s : State),
    s.pwr.phase = .entering → s.pwr.stage = 7 →
    (∀ n : Fin 16, s.vd[n].st = .disabled ∨ s.vd[n].st = .idle ∨ s.vd[n].st = .latched) →
    (∀ g : Fin 4, s.vg[g].swOn = false) →
    fires (.stageAnswer) s fun t =>
      t.pwr = { s.pwr with stopped := s.pwr.stopped.set 7 true, stage := 8, askedAt := s.now } ∧
      onlyTouches [.pwr] s t) ∧
  (∀ (s : State),
    s.pwr.phase = .entering → s.pwr.stage = 8 → s.pwr.target = 2 →
    (∀ n : Fin 48, s.hs[n].st = .disabled ∨ s.hs[n].st = .off ∨ s.hs[n].st = .latched ∨ (s.hs[n].st = .on ∧
      s.hsc.parked n.val = true)) →
    fires (.stageAnswer) s fun t =>
      t.pwr = { s.pwr with stopped := s.pwr.stopped.set 8 true, stage := 9, askedAt := s.now } ∧
      onlyTouches [.pwr] s t) ∧
  (∀ (s : State), s.pwr.phase = .entering → s.pwr.stage = 9 → (∀ n : Fin 67, s.dig[n].cap.st ≠ .running) →
    fires (.stageAnswer) s fun t =>
      t.pwr = { s.pwr with stopped := s.pwr.stopped.set 9 true, stage := 10, askedAt := s.now } ∧
      onlyTouches [.pwr] s t) ∧
  (∀ (s : State),
    s.pwr.phase = .entering → s.pwr.stage = 10 → s.adm.queue = [] → (∀ n : Fin 1024, s.adm.extHeld[n] = false) →
    (∀ k : Fin 16, s.adm.slots[k].en = false) →
    fires (.stageAnswer) s fun t =>
      t.pwr = { s.pwr with stopped := s.pwr.stopped.set 10 true, stage := 11, askedAt := s.now } ∧
      t.adm.stopped = true ∧ onlyTouches [.pwr, .adm] s t) ∧
  (∀ (s : State),
    s.pwr.phase = .entering → s.pwr.stage = 11 → s.dep.updOp = none → s.dep.updStep ≠ 1 → s.dep.updStep ≠ 2 →
    s.nv.trial = false → s.depUp = true → s.dep.logBuf = [] → s.pwr.askedAt ≤ s.dep.snapAt →
    fires (.stageAnswer) s fun t =>
      t.pwr = { s.pwr with stopped := s.pwr.stopped.set 11 true, stage := 12, askedAt := s.now } ∧
      onlyTouches [.pwr] s t) ∧
  (∀ (s : State), s.pwr.phase = .entering → s.pwr.stage = 12 →
    fires (.stageAnswer) s fun t =>
      t.pwr = { s.pwr with stopped := s.pwr.stopped.set 12 true, stage := 13, askedAt := s.now } ∧
      onlyTouches [.pwr] s t) ∧
  (∀ (s : State),
    s.pwr.phase = .entering → s.pwr.stage = 11 → s.dep.updOp = none → s.dep.updStep ≠ 1 → s.dep.updStep ≠ 2 →
    s.nv.trial = false → s.depUp = true → (s.dep.logBuf ≠ [] ∨ s.dep.snapAt < s.pwr.askedAt) →
    fires (.stageAnswer) s fun t =>
      t = s) ∧
  (∀ (s : State), s.pwr.phase = .entering → s.pwr.stage = 2 → s.isUp 4 = true → s.plkRefuses = true →
    fires (.stageAnswer) s fun t =>
      entryEnds s t 2 0 0 ∧ (aonEmits s t (if someStopped s then 0xA1 else 0xA0) t.pwr.lastAbort) ∧
      onlyTouches [.fab, .adm, .pwr] s t) ∧
  (∀ (s : State) (c : Fin 4),
    s.pwr.phase = .entering → s.pwr.stage = 3 → s.isUp (5 + c.val) = true → (canOf s c).refuses = true →
    (∀ d : Fin 4, d < c → (canOf s d).refuses = false) →
    fires (.stageAnswer) s fun t =>
      entryEnds s t 3 0 c.val ∧ (aonEmits s t (if someStopped s then 0xA1 else 0xA0) t.pwr.lastAbort) ∧
      onlyTouches [.fab, .adm, .pwr] s t) ∧
  (∀ (s : State) (c : Fin 4),
    s.pwr.phase = .entering → s.pwr.stage = 4 →
    ((nmOf s c).en = true ∧ (nmOf s c).st ≠ .busSleep) ∨ ((nmOf s c).en = false ∧ ((nmOf s c).trx = .normal ∨ (nmOf s
      c).trx = .listen)) →
    (∀ d : Fin 4, d < c → ((nmOf s d).en = true → (nmOf s d).st = .busSleep) ∧ ((nmOf s d).en = false → (nmOf s d).trx
      ≠ .normal ∧ (nmOf s d).trx ≠ .listen)) →
    fires (.stageAnswer) s fun t =>
      entryEnds s t 4 0 c.val ∧ (aonEmits s t (if someStopped s then 0xA1 else 0xA0) t.pwr.lastAbort) ∧
      onlyTouches [.fab, .adm, .pwr] s t) ∧
  (∀ (s : State) (k : Fin 8),
    s.pwr.phase = .entering → s.pwr.stage = 5 → ((s.lc[k].st ≠ .disabled ∧ s.lc[k].st ≠ .idle) ∨ s.lc[k].out ≠ []) →
    (∀ j : Fin 8, j < k → (s.lc[j].st = .disabled ∨ s.lc[j].st = .idle) ∧ s.lc[j].out = []) →
    fires (.stageAnswer) s fun t =>
      entryEnds s t 5 0 k.val ∧ (aonEmits s t (if someStopped s then 0xA1 else 0xA0) t.pwr.lastAbort) ∧
      onlyTouches [.fab, .adm, .pwr] s t) ∧
  (∀ (s : State) (k : Fin 3),
    s.pwr.phase = .entering → s.pwr.stage = 6 → s.ls[k].st ≠ .disabled ∧ s.ls[k].st ≠ .off ∧ s.ls[k].st ≠ .latched →
    (∀ j : Fin 3, j < k → s.ls[j].st = .disabled ∨ s.ls[j].st = .off ∨ s.ls[j].st = .latched) →
    fires (.stageAnswer) s fun t =>
      entryEnds s t 6 0 k.val ∧ (aonEmits s t (if someStopped s then 0xA1 else 0xA0) t.pwr.lastAbort) ∧
      onlyTouches [.fab, .adm, .pwr] s t) ∧
  (∀ (s : State) (n : Fin 16),
    s.pwr.phase = .entering → s.pwr.stage = 7 → s.vd[n].st ≠ .disabled ∧ s.vd[n].st ≠ .idle ∧ s.vd[n].st ≠ .latched →
    (∀ j : Fin 16, j < n → s.vd[j].st = .disabled ∨ s.vd[j].st = .idle ∨ s.vd[j].st = .latched) →
    fires (.stageAnswer) s fun t =>
      entryEnds s t 7 0 n.val ∧ (aonEmits s t (if someStopped s then 0xA1 else 0xA0) t.pwr.lastAbort) ∧
      onlyTouches [.fab, .adm, .pwr] s t) ∧
  (∀ (s : State) (n : Fin 48),
    s.pwr.phase = .entering → s.pwr.stage = 8 → s.hsc.parked n.val = false →
    s.hs[n].st ≠ .disabled ∧ s.hs[n].st ≠ .off ∧ s.hs[n].st ≠ .latched →
    (∀ j : Fin 48, j < n → s.hs[j].st = .disabled ∨ s.hs[j].st = .off ∨ s.hs[j].st = .latched) →
    fires (.stageAnswer) s fun t =>
      entryEnds s t 8 0 n.val ∧ (aonEmits s t (if someStopped s then 0xA1 else 0xA0) t.pwr.lastAbort) ∧
      onlyTouches [.fab, .adm, .pwr] s t) ∧
  (∀ (s : State) (n : Fin 48),
    s.pwr.phase = .entering → s.pwr.stage = 8 → s.pwr.target = 3 → s.hsc.parked n.val = true → s.hs[n].st = .on →
    (∀ j : Fin 48, j < n → s.hs[j].st = .disabled ∨ s.hs[j].st = .off ∨ s.hs[j].st = .latched) →
    fires (.stageAnswer) s fun t =>
      entryEnds s t 8 0 n.val ∧ (aonEmits s t (if someStopped s then 0xA1 else 0xA0) t.pwr.lastAbort) ∧
      onlyTouches [.fab, .adm, .pwr] s t) ∧
  (∀ (s : State) (n : Fin 67), s.pwr.phase = .entering → s.pwr.stage = 9 → s.dig[n].cap.st = .running →
    fires (.stageAnswer) s fun t =>
      entryEnds s t 9 0 0 ∧ (aonEmits s t (if someStopped s then 0xA1 else 0xA0) t.pwr.lastAbort) ∧
      onlyTouches [.fab, .adm, .pwr] s t) ∧
  (∀ (s : State) (k : Fin 16), s.pwr.phase = .entering → s.pwr.stage = 10 → s.adm.slots[k].en = true →
    fires (.stageAnswer) s fun t =>
      entryEnds s t 10 0 0 ∧ (aonEmits s t (if someStopped s then 0xA1 else 0xA0) t.pwr.lastAbort) ∧
      onlyTouches [.fab, .adm, .pwr] s t) ∧
  (∀ (s : State) (n : Fin 1024), s.pwr.phase = .entering → s.pwr.stage = 10 → s.adm.extHeld[n] = true →
    fires (.stageAnswer) s fun t =>
      entryEnds s t 10 0 0 ∧ (aonEmits s t (if someStopped s then 0xA1 else 0xA0) t.pwr.lastAbort) ∧
      onlyTouches [.fab, .adm, .pwr] s t) ∧
  (∀ (s : State),
    s.pwr.phase = .entering → s.pwr.stage = 11 →
    (s.dep.updOp ≠ none ∨ s.dep.updStep = 1 ∨ s.dep.updStep = 2 ∨ s.nv.trial = true) →
    fires (.stageAnswer) s fun t =>
      entryEnds s t 11 0 0 ∧ (aonEmits s t (if someStopped s then 0xA1 else 0xA0) t.pwr.lastAbort) ∧
      onlyTouches [.fab, .adm, .pwr] s t) ∧
  (∀ (s : State) (c : Fin 4),
    s.pwr.phase = .entering → s.pwr.stage = 1 → s.core[c].started = true → s.core[c].waiting = false →
    (∀ d : Fin 4, d < c → s.core[d].started = true → s.core[d].waiting = true) → s.tmbRuns = true →
    fires (.qtmoTimeout) s fun t =>
      t.now = max s.now (s.pwr.reqAt + max 1 (fld s.pwr.cfg 0 8) * 1000) ∧ entryEnds s t 1 0 c.val ∧
      onlyTouches [.tmb, .fab, .adm, .pwr, .ecc, .pmc, .dep, .nv, .free] s t) ∧
  (∀ (s : State),
    s.pwr.phase = .entering → s.pwr.stage = 1 → (∀ c : Fin 4, s.core[c].started = true → s.core[c].waiting = true) →
    fires (.qtmoTimeout) s fun t =>
      t = s) ∧
  (∀ (s : State) (g : Fin 16),
    s.pwr.phase = .entering → s.pwr.stage = g.val → 2 ≤ g.val → g.val ≤ 12 → s.tmbRuns = true →
    fires (.stageTimeout) s fun t =>
      t.now = max s.now (s.pwr.askedAt + max 25 (fld s.pwr.cfg 8 8) * 1000) ∧ entryEnds s t g 1 0 ∧
      onlyTouches [.tmb, .fab, .adm, .pwr, .ecc, .pmc, .dep, .nv, .free] s t) ∧
  (∀ (s : State) (cause : Fin 4), s.isUp 1 = true → s.pwr.phase = .entering → cause.val ≠ 2 →
    fires (.controlPlaneReset cause) s fun t =>
      entryEnds s t 14 2 0 ∧ t.sup.coreReset = true ∧ t.sup.rstCount = satN 16 (s.sup.rstCount + 1) ∧
      onlyTouches [.tmb, .fab, .hs, .hsc, .dig, .vg, .vd, .ls, .adm, .inp, .pwr, .sup, .sys, .ecc, .lc, .que, .core,
        .pmc, .hp, .dep, .nv, .free] s t) ∧
  (∀ (s : State) (n : Fin 15),
    n.val ≠ 12 → bit s.pwr.wakeEn n.val = true → s.pwr.phase = .entering →
    (s.pwr.target = 1 ∧ n.val ≠ 10) ∨ (s.pwr.target = 2 ∧ n.val < 12) ∨ (s.pwr.target = 3 ∧ n.val = 0) →
    fires (.wakeRequest n) s fun t =>
      latched s t n.val ∧ t.pwr = { s.pwr with wakeCause := t.pwr.wakeCause, wakeTime := t.pwr.wakeTime } ∧
      onlyTouches [.pwr] s t) ∧
  (∀ (s : State) (n : Fin 15), n.val ≠ 12 → bit s.pwr.wakeEn n.val = true → s.pwr.phase = .sleep → n.val ≠ 10 →
    fires (.wakeRequest n) s fun t =>
      latched s t n.val ∧ returnsFrom s t 1 ∧ onlyTouches [.pwr] s t) ∧
  (∀ (s : State) (n : Fin 15), n.val < 12 → bit s.pwr.wakeEn n.val = true → s.pwr.phase = .deep →
    fires (.wakeRequest n) s fun t =>
      latched s t n.val ∧ returnsFrom s t 2 ∧ onlyTouches [.pwr] s t) ∧
  (∀ (s : State) (n : Fin 15),
    n.val ≠ 12 → bit s.pwr.wakeEn n.val = true → s.pwr.phase = .returning →
    (s.pwr.leaving = 1 ∧ n.val ≠ 10) ∨ (s.pwr.leaving = 2 ∧ n.val < 12) →
    fires (.wakeRequest n) s fun t =>
      latched s t n.val ∧ t.pwr = { s.pwr with wakeCause := t.pwr.wakeCause, wakeTime := t.pwr.wakeTime } ∧
      onlyTouches [.pwr] s t) ∧
  (∀ (s : State) (n : Fin 15), (s.pwr.phase = .run ∨ bit s.pwr.wakeEn n.val = false) →
    fires (.wakeRequest n) s fun t =>
      t = s) ∧
  (∀ (s : State) (r : HubRec) (h : List HubRec) (f : Fin 8),
    s.fab.hub = r :: h → r.cores ≠ [] → (s.pwr.wflt[f]).takes r.ev = true → bit s.pwr.wakeEn 12 = true →
    s.pwr.phase = .sleep →
    fires (.wakeRequest 12) s fun t =>
      latched s t 12 ∧ returnsFrom s t 1 ∧ onlyTouches [.pwr] s t) ∧
  (∀ (s : State) (ms : Nat), s.pwr.phase = .deep → bit s.pwr.wakeEn 0 = true → max 1 (fld s.pwr.wakeCfg 0 8) ≤ ms →
    fires (.wakePad ms) s fun t =>
      latched s t 0 ∧ returnsFrom s t 2 ∧ onlyTouches [.pwr] s t) ∧
  (∀ (s : State) (ms : Nat), s.pwr.phase ≠ .off → ms < max 1 (fld s.pwr.wakeCfg 0 8) →
    fires (.wakePad ms) s fun t =>
      t = s) ∧
  (∀ (s : State), (s.pwr.phase ≠ .entering ∨ s.pwr.stage < 2 ∨ 12 < s.pwr.stage) →
    fires (.stageTimeout) s fun t =>
      t = s)

/-- Entry of SLEEP, DEEP and OFF (R572, R582, R585, R587, R599, R602) and the return steps (R591 to R596, R600). -/
def Obligations.EntriesCompleteAndReturnsRunTheirSteps : Prop :=
  (∀ (s : State), s.pwr.phase = .entering → s.pwr.stage = 13 → s.pwr.target = 1 → s.pwr.wakeCause = 0 →
    fires (.stageAnswer) s fun t =>
      t.pwr =
        { s.pwr with phase := .sleep, stage := 0, stopped := Vector.replicate 14 false, cntEntries := satN 16 (s.pwr.cntEntries + 1) }
        ∧
      t.dep = { s.dep with wdAt := none } ∧ t.inp = { s.inp with pollAt := s.now } ∧
      t.hp = { s.hp with live := false, cur := .none, curResp := [] } ∧ t.coreRegOn = true ∧
      onlyTouches [.pwr, .dep, .inp, .hp] s t) ∧
  (∀ (s : State), s.pwr.phase = .entering → s.pwr.stage = 13 → s.pwr.target = 1 → s.pwr.wakeCause ≠ 0 →
    fires (.stageAnswer) s fun t =>
      returnsFrom s t 1 ∧ t.pwr.cntEntries = satN 16 (s.pwr.cntEntries + 1) ∧
      t.pwr.cntEarly = satN 16 (s.pwr.cntEarly + 1) ∧ t.pwr.wakeCause = s.pwr.wakeCause ∧
      onlyTouches [.pwr, .dep, .inp, .hp] s t) ∧
  (∀ (s : State), s.pwr.phase = .entering → s.pwr.stage = 13 → s.pwr.target = 2 → s.pwr.wakeCause = 0 → s.canonical →
    fires (.stageAnswer) s fun t =>
      t.pwr.phase = .deep ∧ (t.coreRegOn = s.nm.toList.any fun n => n.trx != .sleep) ∧ t.pwr.stage = 0 ∧
      t.pwr.cntEarly = s.pwr.cntEarly ∧
      (∀ i : Fin 72, t.up[i] = (decide (i = 0) || (decide (24 ≤ i.val) && s.hsc.parked (i.val - 24)))) ∧
      (∀ n : Fin 48, s.hsc.parked n.val = true → t.hs[n] = { s.hs[n] with est := s.hs[n].est.stop }) ∧
      (∀ n : Fin 48, s.hsc.parked n.val = false → t.hs[n] = Hs.init) ∧ t.vd = Vector.replicate 16 Vd.init ∧
      t.vg = Vector.replicate 4 Vg.init ∧ t.can = Vector.replicate 4 Can.init ∧ t.que = Que.init ∧ t.plk = Plk.init ∧
      t.pmc = Pmc.init ∧ t.hp = { Hp.init with csnLow := s.hp.csnLow } ∧ t.depCore = Core.init 4 0 ∧
      t.lmpErr = false ∧ t.inp = { s.inp with vsOn := false, vsMa := 0, pollAt := s.now } ∧
      (∀ (n : Fin 16) (a : Nat), bit s.pwr.ret n.val = true → 0x10000 * n.val ≤ a → a < 0x10000 * (n.val + 1) → memGet
        t.mem (sramBase + a) = memGet s.mem (sramBase + a)) ∧
      (∀ (n : Fin 16) (a : Nat), bit s.pwr.ret n.val = false → 0x10000 * n.val ≤ a → a < 0x10000 * (n.val + 1) →
        memGet t.mem (sramBase + a) = 0) ∧
      (∀ n : Fin 16, memGet t.mem (sramBase + 0x10000 * n.val) = (if bit s.pwr.ret n.val then memGet s.mem (sramBase +
        0x10000 * n.val) else 0)) ∧
      (∀ a, bulkBase ≤ a → a < bulkEnd → memGet t.mem a = 0) ∧ (∀ a, a < flashEnd → memGet t.mem a = memGet s.mem a) ∧
      memGet t.mem bulkBase = 0 ∧ t.pwr.holdStat = s.pwr.holdStat ||| (s.pwr.hold &&& 0x3F) ∧ t.pwr.bulkRdy = false ∧
      t.pwr.cntEntries = satN 16 (s.pwr.cntEntries + 1) ∧ t.hsc.orphanEnd = s.hsc.orphanEnd ∧ t.adm = s.adm ∧
      t.limpStore = s.limpStore) ∧
  (∀ (s : State), s.pwr.phase = .entering → s.pwr.stage = 13 → s.pwr.target = 2 → s.pwr.wakeCause ≠ 0 → s.canonical →
    fires (.stageAnswer) s fun t =>
      returnsFrom s t 2 ∧ t.pwr.wakeCause = s.pwr.wakeCause ∧ t.pwr.cntEarly = satN 16 (s.pwr.cntEarly + 1) ∧
      (∀ i : Fin 72, t.up[i] = (decide (i = 0) || (decide (24 ≤ i.val) && s.hsc.parked (i.val - 24)))) ∧
      (∀ n : Fin 48, s.hsc.parked n.val = true → t.hs[n] = { s.hs[n] with est := s.hs[n].est.stop }) ∧
      (∀ n : Fin 48, s.hsc.parked n.val = false → t.hs[n] = Hs.init) ∧ t.vd = Vector.replicate 16 Vd.init ∧
      t.vg = Vector.replicate 4 Vg.init ∧ t.can = Vector.replicate 4 Can.init ∧ t.que = Que.init ∧ t.plk = Plk.init ∧
      t.pmc = Pmc.init ∧ t.hp = { Hp.init with csnLow := s.hp.csnLow } ∧ t.depCore = Core.init 4 0 ∧
      t.lmpErr = false ∧ t.inp = { s.inp with vsOn := false, vsMa := 0, pollAt := s.now } ∧
      (∀ (n : Fin 16) (a : Nat), bit s.pwr.ret n.val = true → 0x10000 * n.val ≤ a → a < 0x10000 * (n.val + 1) → memGet
        t.mem (sramBase + a) = memGet s.mem (sramBase + a)) ∧
      (∀ (n : Fin 16) (a : Nat), bit s.pwr.ret n.val = false → 0x10000 * n.val ≤ a → a < 0x10000 * (n.val + 1) →
        memGet t.mem (sramBase + a) = 0) ∧
      (∀ n : Fin 16, memGet t.mem (sramBase + 0x10000 * n.val) = (if bit s.pwr.ret n.val then memGet s.mem (sramBase +
        0x10000 * n.val) else 0)) ∧
      (∀ a, bulkBase ≤ a → a < bulkEnd → memGet t.mem a = 0) ∧ (∀ a, a < flashEnd → memGet t.mem a = memGet s.mem a) ∧
      memGet t.mem bulkBase = 0 ∧ t.pwr.holdStat = s.pwr.holdStat ||| (s.pwr.hold &&& 0x3F) ∧ t.pwr.bulkRdy = false ∧
      t.pwr.cntEntries = satN 16 (s.pwr.cntEntries + 1) ∧ t.hsc.orphanEnd = s.hsc.orphanEnd ∧ t.adm = s.adm ∧
      t.limpStore = s.limpStore) ∧
  (∀ (s : State), s.pwr.phase = .entering → s.pwr.stage = 13 → s.pwr.target = 3 → s.pwr.wakeCause = 0 →
    fires (.stageAnswer) s fun t =>
      t.pwr.phase = .off ∧ t.coreRegOn = false ∧ t.inp = { s.inp with vsOn := false, vsMa := 0 } ∧
      (∀ i : Fin 72, t.up[i] = false) ∧ t.pwr.keepOff = 1 ∧ t.pwr.holdStat = 0 ∧ t.pwr.keepFail = s.pwr.keepFail ∧
      t.pwr.cntEntries = satN 16 (s.pwr.cntEntries + 1) ∧ onlyTouches [.pwr, .up, .inp] s t) ∧
  (∀ (s : State), (s.pwr.phase = .returning ∨ s.pwr.phase = .starting) → s.pwr.step = 0 →
    fires (.returnStepReady) s fun t =>
      t.pwr.phase = s.pwr.phase ∧ t.pwr.step = 1 ∧ t.pwr.tries = 0 ∧ t.pwr.stepAt = s.now ∧
      t.pwr.usedReg = decide (0 < s.pwr.tries) ∧
      (∀ x : Fin 4, (nmOf t x).need = ((nmOf s x).need || (decide (s.pwr.phase = .returning) && bit (nmOf s x).ctl 3
        && decide (s.pwr.wokenBy &&& (0x7FFF ^^^ (1 <<< (4 + x.val))) ≠ 0)))) ∧
      t.up = s.up ∧ t.hs = s.hs ∧ t.core = s.core) ∧
  (∀ (s : State), (s.pwr.phase = .returning ∨ s.pwr.phase = .starting) → s.pwr.step = 1 →
    fires (.returnStepReady) s fun t =>
      t.pwr = { s.pwr with step := 2, tries := 0, stepAt := s.now, usedOsc := decide (0 < s.pwr.tries) } ∧
      onlyTouches [.pwr] s t) ∧
  (∀ (s : State), (s.pwr.phase = .returning ∨ s.pwr.phase = .starting) → s.pwr.step = 2 →
    fires (.returnStepReady) s fun t =>
      t.pwr = { s.pwr with step := 3, tries := 0, stepAt := s.now } ∧ onlyTouches [.pwr] s t) ∧
  (∀ (s : State),
    s.pwr.phase = .returning → s.pwr.step = 3 → s.pwr.leaving = 1 → s.sup.rstnLow = false → s.pwr.usedOsc = false →
    s.pwr.usedReg = false → s.pwr.wakeCause < 2 ^ 15 →
    fires (.returnStepReady) s fun t =>
      t.pwr.phase = .run ∧ t.pwr.from_ = 1 ∧ t.pwr.res = 1 ∧ t.pwr.wakeCause = s.pwr.wakeCause ∧ t.core = s.core ∧
      (s.plk.held = [] → t.mem = s.mem) ∧ t.up = s.up ∧ t.que.held = [] ∧ t.sys.held = [] ∧ t.fab.hubLost = 0 ∧
      t.dep.wdAt = some s.now ∧ t.dep.wdKick = 0 ∧ aonEmits s t 0xA2 (pack [(0, 15, s.pwr.wakeCause), (16, 2, 1)])) ∧
  (∀ (s : State), s.pwr.phase = .returning → s.pwr.step = 3 → s.pwr.leaving = 2 → s.sup.rstnLow = false →
    fires (.returnStepReady) s fun t =>
      t.pwr.phase = .returning ∧ t.pwr.step = 4 ∧
      (∀ i : Fin 72, t.up[i] = !(s.pwr.usedOsc && decide (4 ≤ i.val) && decide (i.val ≤ 8))) ∧
      t.sup.coreReset = true ∧ t.sup.cause = 5 ∧ t.hsc.orphanEnd = none ∧ t.hsc.expired = false ∧ t.mem = s.mem ∧
      (s.inp.active = false → ∀ n : Fin 48, s.isUp (24 + n.val) = true → t.hs[n] = s.hs[n]) ∧
      ∀ n : Fin 48, s.isUp 0 = true → s.inp.active = true → (s.inp.lmap[n.val]).getLsbD 0 = true → t.hs[n].limp = true) ∧
  (∀ (s : State), (s.pwr.phase = .returning ∨ s.pwr.phase = .starting) → s.pwr.step = 4 → s.isUp 3 = true →
    fires (.returnStepReady) s fun t =>
      t.dep.mgmtUp = true ∧ t.dep.mrestarts = s.dep.mrestarts ∧
      t.pwr = { s.pwr with step := 5, tries := 0, stepAt := s.now } ∧
      t.fab.out[(3 : Fin 72)] = outPut
        { time := s.count, src := 3, code := 0x0C, arg := pack [(0, 16, s.dep.mrestarts)] } s.fab.out[(3 : Fin 72)] ∧
      onlyTouches [.pwr, .dep, .nv, .fab] s t) ∧
  (∀ (s : State),
    (s.pwr.phase = .returning ∨ s.pwr.phase = .starting) → s.pwr.step < 4 → s.pwr.tries < 3 → s.tmbRuns = true →
    fires (.returnStepTimeout) s fun t =>
      (t.now = max s.now (s.pwr.stepAt + (if s.pwr.step = 1 then 4000 else 2000))) ∧ t.pwr.phase = s.pwr.phase ∧
      t.pwr.step = s.pwr.step ∧ t.pwr.tries = s.pwr.tries + 1 ∧ t.pwr.stepAt = t.now ∧ t.up = s.up ∧
      onlyTouches [.tmb, .fab, .inp, .pwr, .up, .ecc, .pmc, .dep, .nv, .free] s t) ∧
  (∀ (s : State),
    (s.pwr.phase = .returning ∨ s.pwr.phase = .starting) → s.pwr.step < 4 → 3 ≤ s.pwr.tries → s.tmbRuns = true →
    s.pwr.leaving < 4 →
    fires (.returnStepTimeout) s fun t =>
      t.pwr.phase = .off ∧ (∀ i : Fin 72, t.up[i] = false) ∧
      t.pwr.keepFail = pack [(0, 1, 1), (1, 2, s.pwr.step), (3, 2, s.pwr.leaving)] ∧ t.pwr.keepTime = t.count ∧
      t.pwr.keepOff = 2 ∧ onlyTouches [.tmb, .fab, .inp, .pwr, .up, .ecc, .pmc, .dep, .nv, .free] s t) ∧
  (∀ (s : State), s.isUp 2 = true →
    fires (.bulkInitDone) s fun t =>
      t.pwr = { s.pwr with bulkRdy := true } ∧ (s.plk.held = [] → t.plk = s.plk ∧ t.mem = s.mem) ∧
      onlyTouches [.fab, .pwr, .sys, .mem, .ecc, .pmc, .plk, .free] s t) ∧
  (∀ (s : State) (c : Fin 4) (v : BitVec 6), s.coreRuns = true → s.isUp 0 = true →
    fires (.holdRel c v) s fun t =>
      t.pwr = { s.pwr with holdStat := s.pwr.holdStat &&& ~~~(v.setWidth 32) } ∧
      onlyTouches [.fab, .answer, .pwr, .pmc, .free] s t) ∧
  (∀ (s : State), (s.pwr.phase ≠ .returning ∧ s.pwr.phase ≠ .starting ∨ 5 ≤ s.pwr.step) →
    fires (.returnStepReady) s fun t =>
      t = s) ∧
  (∀ (s : State), (s.pwr.phase ≠ .returning ∧ s.pwr.phase ≠ .starting ∨ 4 ≤ s.pwr.step) →
    fires (.returnStepTimeout) s fun t =>
      t = s) ∧
  (∀ (s : State), s.isUp 2 = false →
    fires (.bulkInitDone) s fun t =>
      t = s)

/-- Supplies (R609 to R611), power-on (R597, R618), RSTN (R615, R616) and the boot ROM (R619 to R623). -/
def Obligations.SuppliesResetsAndTheBootRomBringUpTheModule : Prop :=
  (∀ (s : State) (b : Bool), s.sup.mainsOk = true → s.sup.vbkOk = true → s.sup.srcVbk = false → s.isUp 0 = true →
    fires (.mainsChange false b) s fun t =>
      t.sup = { s.sup with mainsOk := false, dc := b, srcVbk := true, mainsAt := none } ∧
      aonEmits s t 0xB0 (pack [(0, 1, 0), (1, 1, 1), (2, 1, 1)]) ∧
      (s.pwr.phase = .deep → bit s.pwr.wakeEn 11 = true → latched s t 11 ∧ returnsFrom s t 2) ∧
      (s.pwr.phase = .sleep → bit s.pwr.wakeEn 11 = true → latched s t 11 ∧ returnsFrom s t 1) ∧
      (s.pwr.phase = .run → t.pwr = s.pwr) ∧ onlyTouches [.fab, .pwr, .sup] s t) ∧
  (∀ (s : State) (b : Bool), s.sup.mainsOk = true → s.sup.vbkOk = false → s.isUp 0 = true →
    fires (.mainsChange false b) s fun t =>
      t.sup = { s.sup with mainsOk := false, dc := b, mainsAt := none } ∧ t.pwr = s.pwr ∧
      aonEmits s t 0xB0 (pack [(0, 1, 0), (1, 1, 0), (2, 1, b2n s.sup.srcVbk)]) ∧ onlyTouches [.fab, .pwr, .sup] s t) ∧
  (∀ (s : State) (b : Bool), s.sup.mainsOk = false → s.sup.srcVbk = true → s.isUp 0 = true →
    fires (.mainsChange true b) s fun t =>
      t.sup = { s.sup with mainsOk := true, dc := b, mainsAt := some s.now } ∧ t.pwr = s.pwr ∧
      aonEmits s t 0xB0 (pack [(0, 1, 1), (1, 1, b2n s.sup.vbkOk), (2, 1, 1)]) ∧ onlyTouches [.fab, .pwr, .sup] s t) ∧
  (∀ (s : State) (ok b : Bool), s.sup.mainsOk = ok →
    fires (.mainsChange ok b) s fun t =>
      t.sup = { s.sup with dc := b } ∧ t.fab = s.fab ∧ t.pwr = s.pwr ∧ onlyTouches [.fab, .pwr, .sup] s t) ∧
  (∀ (s : State) (ok : Bool) (v : Nat), v ≤ 650 → s.isUp 0 = true →
    fires (.vbkChange ok v) s fun t =>
      t.sup = { s.sup with vbkOk := ok, vbk := v } ∧ (s.sup.vbkOk = ok → t.fab = s.fab) ∧
      (s.sup.vbkOk ≠ ok → aonEmits s t 0xB0 (pack [(0, 1, b2n s.sup.mainsOk), (1, 1, b2n ok), (2, 1, b2n
        s.sup.srcVbk)])) ∧
      onlyTouches [.fab, .sup] s t) ∧
  (∀ (s : State) (ok : Bool) (v : Nat), 650 < v →
      exec (.vbkChange ok v) s = .fault .beyondRatings) ∧
  (∀ (s : State) (a : Nat),
    s.sup.mainsAt = some a → s.sup.mainsOk = true → s.sup.srcVbk = true → s.isUp 0 = true → s.tmbRuns = true →
    fires (.sourceChange) s fun t =>
      t.now = max s.now (a + 100000) ∧ t.sup = { s.sup with srcVbk := false, mainsAt := none } ∧
      (s.pwr.phase = .deep → bit s.pwr.wakeEn 11 = true → t.pwr.phase = .returning ∧ t.pwr.leaving = 2 ∧
        t.pwr.wakeCause = s.pwr.wakeCause ||| (1 <<< 11)) ∧
      onlyTouches [.tmb, .fab, .pwr, .sup, .ecc, .pmc, .dep, .nv, .free] s t) ∧
  (∀ (s : State), (s.sup.mainsAt = none ∨ s.sup.mainsOk = false ∨ s.sup.srcVbk = false) →
    fires (.sourceChange) s fun t =>
      t = s) ∧
  (∀ (s : State), s.sup.mainsOk = false → s.sup.vbkOk = false →
    fires (.busBrownOut) s fun t =>
      (∀ i : Fin 72, t.up[i] = false) ∧ t.pwr.phase = .dead ∧ t.pwr.keepFail = 0 ∧ t.pwr.keepTime = 0 ∧
      t.pwr.keepOff = 0 ∧ onlyTouches [.inp, .pwr, .up] s t) ∧
  (∀ (s : State), (s.sup.mainsOk = true ∨ s.sup.vbkOk = true) →
    fires (.busBrownOut) s fun t =>
      t = s) ∧
  (∀ (s : State), s.pwr.phase = .dead → (s.sup.mainsOk = true ∨ s.sup.vbkOk = true) →
    fires (.powerOnReset) s fun t =>
      t.pwr.phase = .starting ∧ (∀ i : Fin 72, t.up[i] = decide (i = 0)) ∧ t.now = 0 ∧ t.tmb = Tmb.init ∧
      t.hs = Vector.replicate 48 Hs.init ∧ t.hsc = Hsc.init ∧ t.vd = Vector.replicate 16 Vd.init ∧
      t.vg = Vector.replicate 4 Vg.init ∧ t.can = Vector.replicate 4 Can.init ∧ t.nm = Vector.replicate 4 Nm.init ∧
      t.adm = Adm.init 0 ∧ t.inp = Inp.init ∧ t.otp = s.otp ∧ t.limpStore = s.limpStore ∧
      t.nv = { s.nv with boots := s.nv.boots + 1 } ∧ t.sys.serialLo = s.sys.serialLo ∧
      (∀ a, a < flashEnd → memGet t.mem a = memGet s.mem a) ∧ t.sup.coreReset = true ∧ t.sup.cause = 0 ∧
      t.sup.rstCount = 0 ∧ t.pwr.wakeEn = 0x6FFF ∧ t.pwr.cfg = 0x320A ∧ t.pwr.keepFail = 0 ∧ t.pwr.keepOff = 0 ∧
      t.sup.porSrc = 2 ∧
      onlyTouches [.tmb, .fab, .answer, .hs, .hsc, .dig, .vlvCtl, .vg, .vd, .lmpErr, .ls, .meas, .curve, .adm, .inp,
        .pwr, .sup, .sys, .up, .mem, .ecc, .lc, .que, .core, .depCore, .pmc, .can, .nm, .hp, .plk, .dep, .nv, .free] s
        t) ∧
  (∀ (s : State), s.pwr.phase ≠ .dead →
    fires (.powerOnReset) s fun t =>
      t = s) ∧
  (∀ (s : State) (ms : Nat), s.pwr.phase = .off → 1 ≤ ms →
    fires (.wakePad ms) s fun t =>
      t.pwr.phase = .starting ∧ (∀ i : Fin 72, t.up[i] = decide (i = 0)) ∧ t.now = 0 ∧ t.tmb = Tmb.init ∧
      t.hs = Vector.replicate 48 Hs.init ∧ t.hsc = Hsc.init ∧ t.vd = Vector.replicate 16 Vd.init ∧
      t.vg = Vector.replicate 4 Vg.init ∧ t.can = Vector.replicate 4 Can.init ∧ t.nm = Vector.replicate 4 Nm.init ∧
      t.adm = Adm.init 0 ∧ t.inp = Inp.init ∧ t.otp = s.otp ∧ t.limpStore = s.limpStore ∧
      t.nv = { s.nv with boots := s.nv.boots + 1 } ∧ t.sys.serialLo = s.sys.serialLo ∧
      (∀ a, a < flashEnd → memGet t.mem a = memGet s.mem a) ∧ t.sup.coreReset = true ∧ t.sup.cause = 0 ∧
      t.sup.rstCount = 0 ∧ t.pwr.wakeEn = 0x6FFF ∧ t.pwr.cfg = 0x320A ∧ t.pwr.keepFail = s.pwr.keepFail ∧
      t.pwr.keepTime = s.pwr.keepTime ∧ t.pwr.keepOff = s.pwr.keepOff ∧ t.pwr.leaving = 3 ∧ t.sup.porSrc = 1 ∧
      onlyTouches [.tmb, .fab, .answer, .hs, .hsc, .dig, .vlvCtl, .vg, .vd, .lmpErr, .ls, .meas, .curve, .adm, .inp,
        .pwr, .sup, .sys, .up, .mem, .ecc, .lc, .que, .core, .depCore, .pmc, .can, .nm, .hp, .plk, .dep, .nv, .free] s
        t) ∧
  (∀ (s : State) (us : Nat), 1 ≤ us → s.isUp 1 = true → s.sup.rstnLow = false → s.pwr.phase = .run →
    fires (.rstnAssert us) s fun t =>
      (∀ c : Fin 4, t.core[c] = Core.init c.val (b2n s.nv.activeB)) ∧ (s.que.held = [] → t.que = Que.init) ∧
      t.pmc = Pmc.init ∧ t.hp = { Hp.init with csnLow := s.hp.csnLow } ∧
      t.sup = { s.sup with rstnLow := true, coreReset := true, cause := 1, rstCount := satN 16 (s.sup.rstCount + 1) } ∧
      t.dep.wdCfg = 0x110007D0 ∧ t.mem = s.mem ∧ t.pwr = s.pwr ∧
      onlyTouches [.fab, .hs, .hsc, .dig, .vg, .vd, .ls, .adm, .inp, .pwr, .sup, .sys, .lc, .que, .core, .pmc, .hp,
        .dep, .free] s t) ∧
  (∀ (s : State) (us : Nat), 1 ≤ us → (s.pwr.phase = .sleep ∨ s.pwr.phase = .deep ∨ s.pwr.phase = .off) →
    fires (.rstnAssert us) s fun t =>
      t.sup = { s.sup with rstnLow := true } ∧ onlyTouches [.sup] s t) ∧
  (∀ (s : State), 
    fires (.rstnAssert 0) s fun t =>
      t = s) ∧
  (∀ (s : State) (ms : Nat),
    s.isUp 1 = true → s.isUp 3 = true → s.dep.mgmtUp = true → s.dep.wdHold = none → s.sup.coreReset = true →
    s.tmbRuns = true →
    fires (.rstnRelease ms) s fun t =>
      booted s t ms ∧ t.sup.rstnLow = false ∧
      onlyTouches [.tmb, .fab, .hs, .dig, .vg, .vd, .ls, .adm, .inp, .pwr, .sup, .sys, .mem, .ecc, .core, .pmc, .plk,
        .dep, .nv, .free] s t) ∧
  (∀ (s : State) (ms : Nat), (s.sup.coreReset = false ∨ s.dep.mgmtUp = false) →
    fires (.rstnRelease ms) s fun t =>
      t.sup = { s.sup with rstnLow := false } ∧ onlyTouches [.sup] s t) ∧
  (∀ (s : State) (ms : Nat),
    s.isUp 1 = true → s.isUp 3 = true → s.dep.mgmtUp = true → s.dep.wdHold = none → s.sup.coreReset = true →
    s.tmbRuns = true → s.sup.rstnLow = false →
    fires (.bootCheck ms) s fun t =>
      booted s t ms ∧
      (s.pwr.phase = .returning → t.pwr.phase = .run ∧ t.pwr.from_ = s.pwr.leaving ∧ (s.pwr.leaving ≠ 0 → t.pwr.res =
        1) ∧ t.pwr.backupOsc = s.pwr.usedOsc ∧ t.pwr.backupReg = s.pwr.usedReg) ∧
      (s.pwr.phase = .returning → s.pwr.leaving = 2 → bit s.inp.ainCtl 8 = true → t.inp.vsOn = true) ∧
      (s.pwr.phase = .run → t.pwr.phase = .run) ∧
      onlyTouches [.tmb, .fab, .hs, .dig, .vg, .vd, .ls, .adm, .inp, .pwr, .sup, .sys, .mem, .ecc, .core, .pmc, .plk,
        .dep, .nv, .free] s t) ∧
  (∀ (s : State) (ms : Nat), (s.sup.coreReset = false ∨ s.dep.mgmtUp = false ∨ s.sup.rstnLow = true) →
    fires (.bootCheck ms) s fun t =>
      t = s) ∧
  (∀ (s : State), s.isUp 0 = true →
    fires (.trimLock) s fun t =>
      t.tmb = { s.tmb with trimLock := true } ∧ onlyTouches [.tmb] s t) ∧
  (∀ (s : State), s.isUp 0 = false →
    fires (.trimLock) s fun t =>
      t = s)
end

