-- ==== Sys2Proof/Laws/Sparse.lean ====
section
/-! SUPPORT. The one canonical form of the sparse tables: every operation keeps it, and a canonical table reads back what
was written and nothing else. -/

namespace Sys2Proof.Machine

variable {α : Type} [DecidableEq α] (d : Nat → α)

omit [DecidableEq α] in
theorem sabove_cons (k j : Nat) (v : α) (r : Sparse α) :
    sabove k ((j, v) :: r) = true ↔ k < j ∧ sabove k r = true := by simp [sabove]

omit [DecidableEq α] in
theorem sabove_mono {j k : Nat} (h : j ≤ k) : ∀ {m : Sparse α}, sabove k m = true → sabove j m = true
  | [], _ => rfl
  | (a, v) :: r, hm => by
    rw [sabove_cons] at hm ⊢
    exact ⟨by omega, sabove_mono h hm.2⟩

omit [DecidableEq α] in
theorem sget_of_sabove {k a : Nat} (hk : a ≤ k) : ∀ {m : Sparse α}, sabove k m = true → sget d m a = d a
  | [], _ => rfl
  | (j, v) :: r, hm => by
    rw [sabove_cons] at hm
    simp only [sget]
    rw [if_neg (by omega), if_pos (by omega)]

theorem sabove_sset {k a : Nat} (v : α) (hk : k < a) : ∀ {m : Sparse α}, sabove k m = true →
    sabove k (sset d a v m) = true
  | [], _ => by
    simp only [sset]
    split
    · rfl
    · exact (sabove_cons k a v []).2 ⟨hk, rfl⟩
  | (j, w) :: r, hm => by
    have hj := (sabove_cons k j w r).1 hm
    simp only [sset]
    split
    · split
      · exact hm
      · exact (sabove_cons ..).2 ⟨hk, hm⟩
    · split
      · split
        · exact hj.2
        · exact (sabove_cons ..).2 ⟨hk, hj.2⟩
      · exact (sabove_cons ..).2 ⟨hj.1, sabove_sset v hk hj.2⟩

/-- A write keeps the canonical form. -/
theorem swf_sset (a : Nat) (v : α) : ∀ {m : Sparse α}, swf d m = true → swf d (sset d a v m) = true
  | [], _ => by simp only [sset]; split <;> simp_all [swf, sabove]
  | (j, w) :: r, hw => by
    have hw' := hw
    simp only [swf, Bool.and_eq_true, decide_eq_true_eq] at hw
    simp only [sset]
    split
    · split
      · exact hw'
      · simp only [swf, Bool.and_eq_true, decide_eq_true_eq]
        exact ⟨⟨‹_›, (sabove_cons ..).2 ⟨‹_›, sabove_mono (by omega) hw.1.2⟩⟩, hw⟩
    · split
      · split
        · exact hw.2
        · simp only [swf, Bool.and_eq_true, decide_eq_true_eq]
          subst a
          exact ⟨⟨‹_›, hw.1.2⟩, hw.2⟩
      · simp only [swf, Bool.and_eq_true, decide_eq_true_eq]
        exact ⟨⟨hw.1.1, sabove_sset d v (by omega) hw.1.2⟩, swf_sset a v hw.2⟩

/-- A read after a write: the value written at that place, what was there elsewhere. -/
theorem sget_sset (a : Nat) (v : α) (b : Nat) : ∀ {m : Sparse α}, swf d m = true →
    sget d (sset d a v m) b = if b = a then v else sget d m b
  | [], _ => by
    simp only [sset]
    split <;> simp only [sget] <;> repeat' split
    all_goals simp_all
  | (j, w) :: r, hw => by
    simp only [swf, Bool.and_eq_true, decide_eq_true_eq] at hw
    simp only [sset]
    split
    · split
      · split
        · subst b; subst v; simp only [sget]; rw [if_neg (by omega), if_pos (by omega)]
        · rfl
      · simp only [sget]
        split
        · rfl
        · split
          · rw [if_neg (by omega), if_pos (by omega)]
          · rfl
    · split
      · subst a
        split
        · subst v
          simp only [sget]
          split
          · subst b; exact sget_of_sabove d (Nat.le_refl _) hw.1.2
          · split
            · exact sget_of_sabove d (by omega) hw.1.2
            · rfl
        · simp only [sget]
          split <;> rfl
      · simp only [sget]
        split
        · subst b; rw [if_neg (by omega)]
        · split
          · rw [if_neg (by omega)]
          · exact sget_sset a v b hw.2

omit [DecidableEq α] in
theorem sabove_filter (p : Nat × α → Bool) {k : Nat} {m : Sparse α} (hm : sabove k m = true) :
    sabove k (m.filter p) = true := by
  simp only [sabove, List.all_eq_true, List.mem_filter] at hm ⊢
  exact fun x hx => hm x hx.1

/-- Forgetting entries keeps the canonical form. -/
theorem swf_filter (p : Nat × α → Bool) : ∀ {m : Sparse α}, swf d m = true → swf d (m.filter p) = true
  | [], _ => rfl
  | (j, w) :: r, hw => by
    have hw' := hw
    simp only [swf, Bool.and_eq_true] at hw'
    simp only [List.filter]
    split
    · simp only [swf, Bool.and_eq_true]
      exact ⟨⟨hw'.1.1, sabove_filter p hw'.1.2⟩, swf_filter p hw'.2⟩
    · exact swf_filter p hw'.2

/-- A forgotten place reads as its default, another as before. -/
theorem sget_filter (q : Nat → Bool) (b : Nat) : ∀ {m : Sparse α}, swf d m = true →
    sget d (m.filter fun c => q c.1) b = if q b then sget d m b else d b
  | [], _ => by simp [sget]
  | (j, w) :: r, hw => by
    have hw' := hw
    simp only [swf, Bool.and_eq_true] at hw'
    by_cases hq : q j = true
    · rw [List.filter_cons_of_pos (by simpa using hq)]
      simp only [sget]
      split
      · subst b; rw [if_pos hq]
      · split
        · split <;> rfl
        · exact sget_filter q b hw'.2
    · rw [List.filter_cons_of_neg (by simpa using hq), sget_filter q b hw'.2]
      simp only [sget]
      split
      · rename_i hb
        split
        · subst b; simp_all
        · split
          · exact sget_of_sabove d (by omega) hw'.1.2
          · rfl
      · rfl

end Sys2Proof.Machine
end

