-- ==== Sys2Proof/Laws/State.lean ====
section
/-! SUPPORT. What each accessor of Machine/Ops.lean writes and leaves: one lemma per field and update. -/

namespace Sys2Proof.Machine

variable (s : State)

section
variable (n : Fin 48) (f : Hs → Hs)

@[simp] theorem State.modHs_tmb : (s.modHs n f).tmb = s.tmb := rfl
@[simp] theorem State.modHs_fab : (s.modHs n f).fab = s.fab := rfl
@[simp] theorem State.modHs_answer : (s.modHs n f).answer = s.answer := rfl
@[simp] theorem State.modHs_otp : (s.modHs n f).otp = s.otp := rfl
@[simp] theorem State.modHs_hs : (s.modHs n f).hs = upd s.hs n f := rfl
@[simp] theorem State.modHs_hsc : (s.modHs n f).hsc = s.hsc := rfl
@[simp] theorem State.modHs_dig : (s.modHs n f).dig = s.dig := rfl
@[simp] theorem State.modHs_vlvCtl : (s.modHs n f).vlvCtl = s.vlvCtl := rfl
@[simp] theorem State.modHs_vg : (s.modHs n f).vg = s.vg := rfl
@[simp] theorem State.modHs_vd : (s.modHs n f).vd = s.vd := rfl
@[simp] theorem State.modHs_lmpErr : (s.modHs n f).lmpErr = s.lmpErr := rfl
@[simp] theorem State.modHs_ls : (s.modHs n f).ls = s.ls := rfl
@[simp] theorem State.modHs_meas : (s.modHs n f).meas = s.meas := rfl
@[simp] theorem State.modHs_curve : (s.modHs n f).curve = s.curve := rfl
@[simp] theorem State.modHs_adm : (s.modHs n f).adm = s.adm := rfl
@[simp] theorem State.modHs_inp : (s.modHs n f).inp = s.inp := rfl
@[simp] theorem State.modHs_limpStore : (s.modHs n f).limpStore = s.limpStore := rfl
@[simp] theorem State.modHs_pwr : (s.modHs n f).pwr = s.pwr := rfl
@[simp] theorem State.modHs_sup : (s.modHs n f).sup = s.sup := rfl
@[simp] theorem State.modHs_sys : (s.modHs n f).sys = s.sys := rfl
@[simp] theorem State.modHs_up : (s.modHs n f).up = s.up := rfl
@[simp] theorem State.modHs_mem : (s.modHs n f).mem = s.mem := rfl
@[simp] theorem State.modHs_ecc : (s.modHs n f).ecc = s.ecc := rfl
@[simp] theorem State.modHs_lc : (s.modHs n f).lc = s.lc := rfl
@[simp] theorem State.modHs_que : (s.modHs n f).que = s.que := rfl
@[simp] theorem State.modHs_core : (s.modHs n f).core = s.core := rfl
@[simp] theorem State.modHs_depCore : (s.modHs n f).depCore = s.depCore := rfl
@[simp] theorem State.modHs_pmc : (s.modHs n f).pmc = s.pmc := rfl
@[simp] theorem State.modHs_can : (s.modHs n f).can = s.can := rfl
@[simp] theorem State.modHs_nm : (s.modHs n f).nm = s.nm := rfl
@[simp] theorem State.modHs_hp : (s.modHs n f).hp = s.hp := rfl
@[simp] theorem State.modHs_plk : (s.modHs n f).plk = s.plk := rfl
@[simp] theorem State.modHs_dep : (s.modHs n f).dep = s.dep := rfl
@[simp] theorem State.modHs_nv : (s.modHs n f).nv = s.nv := rfl
@[simp] theorem State.modHs_free : (s.modHs n f).free = s.free := rfl
@[simp] theorem State.modHs_pending : (s.modHs n f).pending = s.pending := rfl

end

section
variable (n : Fin 16) (f : Vd → Vd)

@[simp] theorem State.modVd_tmb : (s.modVd n f).tmb = s.tmb := rfl
@[simp] theorem State.modVd_fab : (s.modVd n f).fab = s.fab := rfl
@[simp] theorem State.modVd_answer : (s.modVd n f).answer = s.answer := rfl
@[simp] theorem State.modVd_otp : (s.modVd n f).otp = s.otp := rfl
@[simp] theorem State.modVd_hs : (s.modVd n f).hs = s.hs := rfl
@[simp] theorem State.modVd_hsc : (s.modVd n f).hsc = s.hsc := rfl
@[simp] theorem State.modVd_dig : (s.modVd n f).dig = s.dig := rfl
@[simp] theorem State.modVd_vlvCtl : (s.modVd n f).vlvCtl = s.vlvCtl := rfl
@[simp] theorem State.modVd_vg : (s.modVd n f).vg = s.vg := rfl
@[simp] theorem State.modVd_vd : (s.modVd n f).vd = upd s.vd n f := rfl
@[simp] theorem State.modVd_lmpErr : (s.modVd n f).lmpErr = s.lmpErr := rfl
@[simp] theorem State.modVd_ls : (s.modVd n f).ls = s.ls := rfl
@[simp] theorem State.modVd_meas : (s.modVd n f).meas = s.meas := rfl
@[simp] theorem State.modVd_curve : (s.modVd n f).curve = s.curve := rfl
@[simp] theorem State.modVd_adm : (s.modVd n f).adm = s.adm := rfl
@[simp] theorem State.modVd_inp : (s.modVd n f).inp = s.inp := rfl
@[simp] theorem State.modVd_limpStore : (s.modVd n f).limpStore = s.limpStore := rfl
@[simp] theorem State.modVd_pwr : (s.modVd n f).pwr = s.pwr := rfl
@[simp] theorem State.modVd_sup : (s.modVd n f).sup = s.sup := rfl
@[simp] theorem State.modVd_sys : (s.modVd n f).sys = s.sys := rfl
@[simp] theorem State.modVd_up : (s.modVd n f).up = s.up := rfl
@[simp] theorem State.modVd_mem : (s.modVd n f).mem = s.mem := rfl
@[simp] theorem State.modVd_ecc : (s.modVd n f).ecc = s.ecc := rfl
@[simp] theorem State.modVd_lc : (s.modVd n f).lc = s.lc := rfl
@[simp] theorem State.modVd_que : (s.modVd n f).que = s.que := rfl
@[simp] theorem State.modVd_core : (s.modVd n f).core = s.core := rfl
@[simp] theorem State.modVd_depCore : (s.modVd n f).depCore = s.depCore := rfl
@[simp] theorem State.modVd_pmc : (s.modVd n f).pmc = s.pmc := rfl
@[simp] theorem State.modVd_can : (s.modVd n f).can = s.can := rfl
@[simp] theorem State.modVd_nm : (s.modVd n f).nm = s.nm := rfl
@[simp] theorem State.modVd_hp : (s.modVd n f).hp = s.hp := rfl
@[simp] theorem State.modVd_plk : (s.modVd n f).plk = s.plk := rfl
@[simp] theorem State.modVd_dep : (s.modVd n f).dep = s.dep := rfl
@[simp] theorem State.modVd_nv : (s.modVd n f).nv = s.nv := rfl
@[simp] theorem State.modVd_free : (s.modVd n f).free = s.free := rfl
@[simp] theorem State.modVd_pending : (s.modVd n f).pending = s.pending := rfl

end

section
variable (g : Fin 4) (f : Vg → Vg)

@[simp] theorem State.modVg_tmb : (s.modVg g f).tmb = s.tmb := rfl
@[simp] theorem State.modVg_fab : (s.modVg g f).fab = s.fab := rfl
@[simp] theorem State.modVg_answer : (s.modVg g f).answer = s.answer := rfl
@[simp] theorem State.modVg_otp : (s.modVg g f).otp = s.otp := rfl
@[simp] theorem State.modVg_hs : (s.modVg g f).hs = s.hs := rfl
@[simp] theorem State.modVg_hsc : (s.modVg g f).hsc = s.hsc := rfl
@[simp] theorem State.modVg_dig : (s.modVg g f).dig = s.dig := rfl
@[simp] theorem State.modVg_vlvCtl : (s.modVg g f).vlvCtl = s.vlvCtl := rfl
@[simp] theorem State.modVg_vg : (s.modVg g f).vg = upd s.vg g f := rfl
@[simp] theorem State.modVg_vd : (s.modVg g f).vd = s.vd := rfl
@[simp] theorem State.modVg_lmpErr : (s.modVg g f).lmpErr = s.lmpErr := rfl
@[simp] theorem State.modVg_ls : (s.modVg g f).ls = s.ls := rfl
@[simp] theorem State.modVg_meas : (s.modVg g f).meas = s.meas := rfl
@[simp] theorem State.modVg_curve : (s.modVg g f).curve = s.curve := rfl
@[simp] theorem State.modVg_adm : (s.modVg g f).adm = s.adm := rfl
@[simp] theorem State.modVg_inp : (s.modVg g f).inp = s.inp := rfl
@[simp] theorem State.modVg_limpStore : (s.modVg g f).limpStore = s.limpStore := rfl
@[simp] theorem State.modVg_pwr : (s.modVg g f).pwr = s.pwr := rfl
@[simp] theorem State.modVg_sup : (s.modVg g f).sup = s.sup := rfl
@[simp] theorem State.modVg_sys : (s.modVg g f).sys = s.sys := rfl
@[simp] theorem State.modVg_up : (s.modVg g f).up = s.up := rfl
@[simp] theorem State.modVg_mem : (s.modVg g f).mem = s.mem := rfl
@[simp] theorem State.modVg_ecc : (s.modVg g f).ecc = s.ecc := rfl
@[simp] theorem State.modVg_lc : (s.modVg g f).lc = s.lc := rfl
@[simp] theorem State.modVg_que : (s.modVg g f).que = s.que := rfl
@[simp] theorem State.modVg_core : (s.modVg g f).core = s.core := rfl
@[simp] theorem State.modVg_depCore : (s.modVg g f).depCore = s.depCore := rfl
@[simp] theorem State.modVg_pmc : (s.modVg g f).pmc = s.pmc := rfl
@[simp] theorem State.modVg_can : (s.modVg g f).can = s.can := rfl
@[simp] theorem State.modVg_nm : (s.modVg g f).nm = s.nm := rfl
@[simp] theorem State.modVg_hp : (s.modVg g f).hp = s.hp := rfl
@[simp] theorem State.modVg_plk : (s.modVg g f).plk = s.plk := rfl
@[simp] theorem State.modVg_dep : (s.modVg g f).dep = s.dep := rfl
@[simp] theorem State.modVg_nv : (s.modVg g f).nv = s.nv := rfl
@[simp] theorem State.modVg_free : (s.modVg g f).free = s.free := rfl
@[simp] theorem State.modVg_pending : (s.modVg g f).pending = s.pending := rfl

end

section
variable (k : Fin 3) (f : Ls → Ls)

@[simp] theorem State.modLs_tmb : (s.modLs k f).tmb = s.tmb := rfl
@[simp] theorem State.modLs_fab : (s.modLs k f).fab = s.fab := rfl
@[simp] theorem State.modLs_answer : (s.modLs k f).answer = s.answer := rfl
@[simp] theorem State.modLs_otp : (s.modLs k f).otp = s.otp := rfl
@[simp] theorem State.modLs_hs : (s.modLs k f).hs = s.hs := rfl
@[simp] theorem State.modLs_hsc : (s.modLs k f).hsc = s.hsc := rfl
@[simp] theorem State.modLs_dig : (s.modLs k f).dig = s.dig := rfl
@[simp] theorem State.modLs_vlvCtl : (s.modLs k f).vlvCtl = s.vlvCtl := rfl
@[simp] theorem State.modLs_vg : (s.modLs k f).vg = s.vg := rfl
@[simp] theorem State.modLs_vd : (s.modLs k f).vd = s.vd := rfl
@[simp] theorem State.modLs_lmpErr : (s.modLs k f).lmpErr = s.lmpErr := rfl
@[simp] theorem State.modLs_ls : (s.modLs k f).ls = upd s.ls k f := rfl
@[simp] theorem State.modLs_meas : (s.modLs k f).meas = s.meas := rfl
@[simp] theorem State.modLs_curve : (s.modLs k f).curve = s.curve := rfl
@[simp] theorem State.modLs_adm : (s.modLs k f).adm = s.adm := rfl
@[simp] theorem State.modLs_inp : (s.modLs k f).inp = s.inp := rfl
@[simp] theorem State.modLs_limpStore : (s.modLs k f).limpStore = s.limpStore := rfl
@[simp] theorem State.modLs_pwr : (s.modLs k f).pwr = s.pwr := rfl
@[simp] theorem State.modLs_sup : (s.modLs k f).sup = s.sup := rfl
@[simp] theorem State.modLs_sys : (s.modLs k f).sys = s.sys := rfl
@[simp] theorem State.modLs_up : (s.modLs k f).up = s.up := rfl
@[simp] theorem State.modLs_mem : (s.modLs k f).mem = s.mem := rfl
@[simp] theorem State.modLs_ecc : (s.modLs k f).ecc = s.ecc := rfl
@[simp] theorem State.modLs_lc : (s.modLs k f).lc = s.lc := rfl
@[simp] theorem State.modLs_que : (s.modLs k f).que = s.que := rfl
@[simp] theorem State.modLs_core : (s.modLs k f).core = s.core := rfl
@[simp] theorem State.modLs_depCore : (s.modLs k f).depCore = s.depCore := rfl
@[simp] theorem State.modLs_pmc : (s.modLs k f).pmc = s.pmc := rfl
@[simp] theorem State.modLs_can : (s.modLs k f).can = s.can := rfl
@[simp] theorem State.modLs_nm : (s.modLs k f).nm = s.nm := rfl
@[simp] theorem State.modLs_hp : (s.modLs k f).hp = s.hp := rfl
@[simp] theorem State.modLs_plk : (s.modLs k f).plk = s.plk := rfl
@[simp] theorem State.modLs_dep : (s.modLs k f).dep = s.dep := rfl
@[simp] theorem State.modLs_nv : (s.modLs k f).nv = s.nv := rfl
@[simp] theorem State.modLs_free : (s.modLs k f).free = s.free := rfl
@[simp] theorem State.modLs_pending : (s.modLs k f).pending = s.pending := rfl

end

section
variable (t : Fin 67) (f : Dig → Dig)

@[simp] theorem State.modDig_tmb : (s.modDig t f).tmb = s.tmb := rfl
@[simp] theorem State.modDig_fab : (s.modDig t f).fab = s.fab := rfl
@[simp] theorem State.modDig_answer : (s.modDig t f).answer = s.answer := rfl
@[simp] theorem State.modDig_otp : (s.modDig t f).otp = s.otp := rfl
@[simp] theorem State.modDig_hs : (s.modDig t f).hs = s.hs := rfl
@[simp] theorem State.modDig_hsc : (s.modDig t f).hsc = s.hsc := rfl
@[simp] theorem State.modDig_dig : (s.modDig t f).dig = upd s.dig t f := rfl
@[simp] theorem State.modDig_vlvCtl : (s.modDig t f).vlvCtl = s.vlvCtl := rfl
@[simp] theorem State.modDig_vg : (s.modDig t f).vg = s.vg := rfl
@[simp] theorem State.modDig_vd : (s.modDig t f).vd = s.vd := rfl
@[simp] theorem State.modDig_lmpErr : (s.modDig t f).lmpErr = s.lmpErr := rfl
@[simp] theorem State.modDig_ls : (s.modDig t f).ls = s.ls := rfl
@[simp] theorem State.modDig_meas : (s.modDig t f).meas = s.meas := rfl
@[simp] theorem State.modDig_curve : (s.modDig t f).curve = s.curve := rfl
@[simp] theorem State.modDig_adm : (s.modDig t f).adm = s.adm := rfl
@[simp] theorem State.modDig_inp : (s.modDig t f).inp = s.inp := rfl
@[simp] theorem State.modDig_limpStore : (s.modDig t f).limpStore = s.limpStore := rfl
@[simp] theorem State.modDig_pwr : (s.modDig t f).pwr = s.pwr := rfl
@[simp] theorem State.modDig_sup : (s.modDig t f).sup = s.sup := rfl
@[simp] theorem State.modDig_sys : (s.modDig t f).sys = s.sys := rfl
@[simp] theorem State.modDig_up : (s.modDig t f).up = s.up := rfl
@[simp] theorem State.modDig_mem : (s.modDig t f).mem = s.mem := rfl
@[simp] theorem State.modDig_ecc : (s.modDig t f).ecc = s.ecc := rfl
@[simp] theorem State.modDig_lc : (s.modDig t f).lc = s.lc := rfl
@[simp] theorem State.modDig_que : (s.modDig t f).que = s.que := rfl
@[simp] theorem State.modDig_core : (s.modDig t f).core = s.core := rfl
@[simp] theorem State.modDig_depCore : (s.modDig t f).depCore = s.depCore := rfl
@[simp] theorem State.modDig_pmc : (s.modDig t f).pmc = s.pmc := rfl
@[simp] theorem State.modDig_can : (s.modDig t f).can = s.can := rfl
@[simp] theorem State.modDig_nm : (s.modDig t f).nm = s.nm := rfl
@[simp] theorem State.modDig_hp : (s.modDig t f).hp = s.hp := rfl
@[simp] theorem State.modDig_plk : (s.modDig t f).plk = s.plk := rfl
@[simp] theorem State.modDig_dep : (s.modDig t f).dep = s.dep := rfl
@[simp] theorem State.modDig_nv : (s.modDig t f).nv = s.nv := rfl
@[simp] theorem State.modDig_free : (s.modDig t f).free = s.free := rfl
@[simp] theorem State.modDig_pending : (s.modDig t f).pending = s.pending := rfl

end

section
variable (f : Hsc → Hsc)

@[simp] theorem State.modHsc_tmb : (s.modHsc f).tmb = s.tmb := rfl
@[simp] theorem State.modHsc_fab : (s.modHsc f).fab = s.fab := rfl
@[simp] theorem State.modHsc_answer : (s.modHsc f).answer = s.answer := rfl
@[simp] theorem State.modHsc_otp : (s.modHsc f).otp = s.otp := rfl
@[simp] theorem State.modHsc_hs : (s.modHsc f).hs = s.hs := rfl
@[simp] theorem State.modHsc_hsc : (s.modHsc f).hsc = f s.hsc := rfl
@[simp] theorem State.modHsc_dig : (s.modHsc f).dig = s.dig := rfl
@[simp] theorem State.modHsc_vlvCtl : (s.modHsc f).vlvCtl = s.vlvCtl := rfl
@[simp] theorem State.modHsc_vg : (s.modHsc f).vg = s.vg := rfl
@[simp] theorem State.modHsc_vd : (s.modHsc f).vd = s.vd := rfl
@[simp] theorem State.modHsc_lmpErr : (s.modHsc f).lmpErr = s.lmpErr := rfl
@[simp] theorem State.modHsc_ls : (s.modHsc f).ls = s.ls := rfl
@[simp] theorem State.modHsc_meas : (s.modHsc f).meas = s.meas := rfl
@[simp] theorem State.modHsc_curve : (s.modHsc f).curve = s.curve := rfl
@[simp] theorem State.modHsc_adm : (s.modHsc f).adm = s.adm := rfl
@[simp] theorem State.modHsc_inp : (s.modHsc f).inp = s.inp := rfl
@[simp] theorem State.modHsc_limpStore : (s.modHsc f).limpStore = s.limpStore := rfl
@[simp] theorem State.modHsc_pwr : (s.modHsc f).pwr = s.pwr := rfl
@[simp] theorem State.modHsc_sup : (s.modHsc f).sup = s.sup := rfl
@[simp] theorem State.modHsc_sys : (s.modHsc f).sys = s.sys := rfl
@[simp] theorem State.modHsc_up : (s.modHsc f).up = s.up := rfl
@[simp] theorem State.modHsc_mem : (s.modHsc f).mem = s.mem := rfl
@[simp] theorem State.modHsc_ecc : (s.modHsc f).ecc = s.ecc := rfl
@[simp] theorem State.modHsc_lc : (s.modHsc f).lc = s.lc := rfl
@[simp] theorem State.modHsc_que : (s.modHsc f).que = s.que := rfl
@[simp] theorem State.modHsc_core : (s.modHsc f).core = s.core := rfl
@[simp] theorem State.modHsc_depCore : (s.modHsc f).depCore = s.depCore := rfl
@[simp] theorem State.modHsc_pmc : (s.modHsc f).pmc = s.pmc := rfl
@[simp] theorem State.modHsc_can : (s.modHsc f).can = s.can := rfl
@[simp] theorem State.modHsc_nm : (s.modHsc f).nm = s.nm := rfl
@[simp] theorem State.modHsc_hp : (s.modHsc f).hp = s.hp := rfl
@[simp] theorem State.modHsc_plk : (s.modHsc f).plk = s.plk := rfl
@[simp] theorem State.modHsc_dep : (s.modHsc f).dep = s.dep := rfl
@[simp] theorem State.modHsc_nv : (s.modHsc f).nv = s.nv := rfl
@[simp] theorem State.modHsc_free : (s.modHsc f).free = s.free := rfl
@[simp] theorem State.modHsc_pending : (s.modHsc f).pending = s.pending := rfl

end

section
variable (f : Adm → Adm)

@[simp] theorem State.modAdm_tmb : (s.modAdm f).tmb = s.tmb := rfl
@[simp] theorem State.modAdm_fab : (s.modAdm f).fab = s.fab := rfl
@[simp] theorem State.modAdm_answer : (s.modAdm f).answer = s.answer := rfl
@[simp] theorem State.modAdm_otp : (s.modAdm f).otp = s.otp := rfl
@[simp] theorem State.modAdm_hs : (s.modAdm f).hs = s.hs := rfl
@[simp] theorem State.modAdm_hsc : (s.modAdm f).hsc = s.hsc := rfl
@[simp] theorem State.modAdm_dig : (s.modAdm f).dig = s.dig := rfl
@[simp] theorem State.modAdm_vlvCtl : (s.modAdm f).vlvCtl = s.vlvCtl := rfl
@[simp] theorem State.modAdm_vg : (s.modAdm f).vg = s.vg := rfl
@[simp] theorem State.modAdm_vd : (s.modAdm f).vd = s.vd := rfl
@[simp] theorem State.modAdm_lmpErr : (s.modAdm f).lmpErr = s.lmpErr := rfl
@[simp] theorem State.modAdm_ls : (s.modAdm f).ls = s.ls := rfl
@[simp] theorem State.modAdm_meas : (s.modAdm f).meas = s.meas := rfl
@[simp] theorem State.modAdm_curve : (s.modAdm f).curve = s.curve := rfl
@[simp] theorem State.modAdm_adm : (s.modAdm f).adm = f s.adm := rfl
@[simp] theorem State.modAdm_inp : (s.modAdm f).inp = s.inp := rfl
@[simp] theorem State.modAdm_limpStore : (s.modAdm f).limpStore = s.limpStore := rfl
@[simp] theorem State.modAdm_pwr : (s.modAdm f).pwr = s.pwr := rfl
@[simp] theorem State.modAdm_sup : (s.modAdm f).sup = s.sup := rfl
@[simp] theorem State.modAdm_sys : (s.modAdm f).sys = s.sys := rfl
@[simp] theorem State.modAdm_up : (s.modAdm f).up = s.up := rfl
@[simp] theorem State.modAdm_mem : (s.modAdm f).mem = s.mem := rfl
@[simp] theorem State.modAdm_ecc : (s.modAdm f).ecc = s.ecc := rfl
@[simp] theorem State.modAdm_lc : (s.modAdm f).lc = s.lc := rfl
@[simp] theorem State.modAdm_que : (s.modAdm f).que = s.que := rfl
@[simp] theorem State.modAdm_core : (s.modAdm f).core = s.core := rfl
@[simp] theorem State.modAdm_depCore : (s.modAdm f).depCore = s.depCore := rfl
@[simp] theorem State.modAdm_pmc : (s.modAdm f).pmc = s.pmc := rfl
@[simp] theorem State.modAdm_can : (s.modAdm f).can = s.can := rfl
@[simp] theorem State.modAdm_nm : (s.modAdm f).nm = s.nm := rfl
@[simp] theorem State.modAdm_hp : (s.modAdm f).hp = s.hp := rfl
@[simp] theorem State.modAdm_plk : (s.modAdm f).plk = s.plk := rfl
@[simp] theorem State.modAdm_dep : (s.modAdm f).dep = s.dep := rfl
@[simp] theorem State.modAdm_nv : (s.modAdm f).nv = s.nv := rfl
@[simp] theorem State.modAdm_free : (s.modAdm f).free = s.free := rfl
@[simp] theorem State.modAdm_pending : (s.modAdm f).pending = s.pending := rfl

end

section
variable (f : Inp → Inp)

@[simp] theorem State.modInp_tmb : (s.modInp f).tmb = s.tmb := rfl
@[simp] theorem State.modInp_fab : (s.modInp f).fab = s.fab := rfl
@[simp] theorem State.modInp_answer : (s.modInp f).answer = s.answer := rfl
@[simp] theorem State.modInp_otp : (s.modInp f).otp = s.otp := rfl
@[simp] theorem State.modInp_hs : (s.modInp f).hs = s.hs := rfl
@[simp] theorem State.modInp_hsc : (s.modInp f).hsc = s.hsc := rfl
@[simp] theorem State.modInp_dig : (s.modInp f).dig = s.dig := rfl
@[simp] theorem State.modInp_vlvCtl : (s.modInp f).vlvCtl = s.vlvCtl := rfl
@[simp] theorem State.modInp_vg : (s.modInp f).vg = s.vg := rfl
@[simp] theorem State.modInp_vd : (s.modInp f).vd = s.vd := rfl
@[simp] theorem State.modInp_lmpErr : (s.modInp f).lmpErr = s.lmpErr := rfl
@[simp] theorem State.modInp_ls : (s.modInp f).ls = s.ls := rfl
@[simp] theorem State.modInp_meas : (s.modInp f).meas = s.meas := rfl
@[simp] theorem State.modInp_curve : (s.modInp f).curve = s.curve := rfl
@[simp] theorem State.modInp_adm : (s.modInp f).adm = s.adm := rfl
@[simp] theorem State.modInp_inp : (s.modInp f).inp = f s.inp := rfl
@[simp] theorem State.modInp_limpStore : (s.modInp f).limpStore = s.limpStore := rfl
@[simp] theorem State.modInp_pwr : (s.modInp f).pwr = s.pwr := rfl
@[simp] theorem State.modInp_sup : (s.modInp f).sup = s.sup := rfl
@[simp] theorem State.modInp_sys : (s.modInp f).sys = s.sys := rfl
@[simp] theorem State.modInp_up : (s.modInp f).up = s.up := rfl
@[simp] theorem State.modInp_mem : (s.modInp f).mem = s.mem := rfl
@[simp] theorem State.modInp_ecc : (s.modInp f).ecc = s.ecc := rfl
@[simp] theorem State.modInp_lc : (s.modInp f).lc = s.lc := rfl
@[simp] theorem State.modInp_que : (s.modInp f).que = s.que := rfl
@[simp] theorem State.modInp_core : (s.modInp f).core = s.core := rfl
@[simp] theorem State.modInp_depCore : (s.modInp f).depCore = s.depCore := rfl
@[simp] theorem State.modInp_pmc : (s.modInp f).pmc = s.pmc := rfl
@[simp] theorem State.modInp_can : (s.modInp f).can = s.can := rfl
@[simp] theorem State.modInp_nm : (s.modInp f).nm = s.nm := rfl
@[simp] theorem State.modInp_hp : (s.modInp f).hp = s.hp := rfl
@[simp] theorem State.modInp_plk : (s.modInp f).plk = s.plk := rfl
@[simp] theorem State.modInp_dep : (s.modInp f).dep = s.dep := rfl
@[simp] theorem State.modInp_nv : (s.modInp f).nv = s.nv := rfl
@[simp] theorem State.modInp_free : (s.modInp f).free = s.free := rfl
@[simp] theorem State.modInp_pending : (s.modInp f).pending = s.pending := rfl

end

section
variable (f : Pwr → Pwr)

@[simp] theorem State.modPwr_tmb : (s.modPwr f).tmb = s.tmb := rfl
@[simp] theorem State.modPwr_fab : (s.modPwr f).fab = s.fab := rfl
@[simp] theorem State.modPwr_answer : (s.modPwr f).answer = s.answer := rfl
@[simp] theorem State.modPwr_otp : (s.modPwr f).otp = s.otp := rfl
@[simp] theorem State.modPwr_hs : (s.modPwr f).hs = s.hs := rfl
@[simp] theorem State.modPwr_hsc : (s.modPwr f).hsc = s.hsc := rfl
@[simp] theorem State.modPwr_dig : (s.modPwr f).dig = s.dig := rfl
@[simp] theorem State.modPwr_vlvCtl : (s.modPwr f).vlvCtl = s.vlvCtl := rfl
@[simp] theorem State.modPwr_vg : (s.modPwr f).vg = s.vg := rfl
@[simp] theorem State.modPwr_vd : (s.modPwr f).vd = s.vd := rfl
@[simp] theorem State.modPwr_lmpErr : (s.modPwr f).lmpErr = s.lmpErr := rfl
@[simp] theorem State.modPwr_ls : (s.modPwr f).ls = s.ls := rfl
@[simp] theorem State.modPwr_meas : (s.modPwr f).meas = s.meas := rfl
@[simp] theorem State.modPwr_curve : (s.modPwr f).curve = s.curve := rfl
@[simp] theorem State.modPwr_adm : (s.modPwr f).adm = s.adm := rfl
@[simp] theorem State.modPwr_inp : (s.modPwr f).inp = s.inp := rfl
@[simp] theorem State.modPwr_limpStore : (s.modPwr f).limpStore = s.limpStore := rfl
@[simp] theorem State.modPwr_pwr : (s.modPwr f).pwr = f s.pwr := rfl
@[simp] theorem State.modPwr_sup : (s.modPwr f).sup = s.sup := rfl
@[simp] theorem State.modPwr_sys : (s.modPwr f).sys = s.sys := rfl
@[simp] theorem State.modPwr_up : (s.modPwr f).up = s.up := rfl
@[simp] theorem State.modPwr_mem : (s.modPwr f).mem = s.mem := rfl
@[simp] theorem State.modPwr_ecc : (s.modPwr f).ecc = s.ecc := rfl
@[simp] theorem State.modPwr_lc : (s.modPwr f).lc = s.lc := rfl
@[simp] theorem State.modPwr_que : (s.modPwr f).que = s.que := rfl
@[simp] theorem State.modPwr_core : (s.modPwr f).core = s.core := rfl
@[simp] theorem State.modPwr_depCore : (s.modPwr f).depCore = s.depCore := rfl
@[simp] theorem State.modPwr_pmc : (s.modPwr f).pmc = s.pmc := rfl
@[simp] theorem State.modPwr_can : (s.modPwr f).can = s.can := rfl
@[simp] theorem State.modPwr_nm : (s.modPwr f).nm = s.nm := rfl
@[simp] theorem State.modPwr_hp : (s.modPwr f).hp = s.hp := rfl
@[simp] theorem State.modPwr_plk : (s.modPwr f).plk = s.plk := rfl
@[simp] theorem State.modPwr_dep : (s.modPwr f).dep = s.dep := rfl
@[simp] theorem State.modPwr_nv : (s.modPwr f).nv = s.nv := rfl
@[simp] theorem State.modPwr_free : (s.modPwr f).free = s.free := rfl
@[simp] theorem State.modPwr_pending : (s.modPwr f).pending = s.pending := rfl

end

section
variable (f : Supply → Supply)

@[simp] theorem State.modSup_tmb : (s.modSup f).tmb = s.tmb := rfl
@[simp] theorem State.modSup_fab : (s.modSup f).fab = s.fab := rfl
@[simp] theorem State.modSup_answer : (s.modSup f).answer = s.answer := rfl
@[simp] theorem State.modSup_otp : (s.modSup f).otp = s.otp := rfl
@[simp] theorem State.modSup_hs : (s.modSup f).hs = s.hs := rfl
@[simp] theorem State.modSup_hsc : (s.modSup f).hsc = s.hsc := rfl
@[simp] theorem State.modSup_dig : (s.modSup f).dig = s.dig := rfl
@[simp] theorem State.modSup_vlvCtl : (s.modSup f).vlvCtl = s.vlvCtl := rfl
@[simp] theorem State.modSup_vg : (s.modSup f).vg = s.vg := rfl
@[simp] theorem State.modSup_vd : (s.modSup f).vd = s.vd := rfl
@[simp] theorem State.modSup_lmpErr : (s.modSup f).lmpErr = s.lmpErr := rfl
@[simp] theorem State.modSup_ls : (s.modSup f).ls = s.ls := rfl
@[simp] theorem State.modSup_meas : (s.modSup f).meas = s.meas := rfl
@[simp] theorem State.modSup_curve : (s.modSup f).curve = s.curve := rfl
@[simp] theorem State.modSup_adm : (s.modSup f).adm = s.adm := rfl
@[simp] theorem State.modSup_inp : (s.modSup f).inp = s.inp := rfl
@[simp] theorem State.modSup_limpStore : (s.modSup f).limpStore = s.limpStore := rfl
@[simp] theorem State.modSup_pwr : (s.modSup f).pwr = s.pwr := rfl
@[simp] theorem State.modSup_sup : (s.modSup f).sup = f s.sup := rfl
@[simp] theorem State.modSup_sys : (s.modSup f).sys = s.sys := rfl
@[simp] theorem State.modSup_up : (s.modSup f).up = s.up := rfl
@[simp] theorem State.modSup_mem : (s.modSup f).mem = s.mem := rfl
@[simp] theorem State.modSup_ecc : (s.modSup f).ecc = s.ecc := rfl
@[simp] theorem State.modSup_lc : (s.modSup f).lc = s.lc := rfl
@[simp] theorem State.modSup_que : (s.modSup f).que = s.que := rfl
@[simp] theorem State.modSup_core : (s.modSup f).core = s.core := rfl
@[simp] theorem State.modSup_depCore : (s.modSup f).depCore = s.depCore := rfl
@[simp] theorem State.modSup_pmc : (s.modSup f).pmc = s.pmc := rfl
@[simp] theorem State.modSup_can : (s.modSup f).can = s.can := rfl
@[simp] theorem State.modSup_nm : (s.modSup f).nm = s.nm := rfl
@[simp] theorem State.modSup_hp : (s.modSup f).hp = s.hp := rfl
@[simp] theorem State.modSup_plk : (s.modSup f).plk = s.plk := rfl
@[simp] theorem State.modSup_dep : (s.modSup f).dep = s.dep := rfl
@[simp] theorem State.modSup_nv : (s.modSup f).nv = s.nv := rfl
@[simp] theorem State.modSup_free : (s.modSup f).free = s.free := rfl
@[simp] theorem State.modSup_pending : (s.modSup f).pending = s.pending := rfl

end

section
variable (f : Sys → Sys)

@[simp] theorem State.modSys_tmb : (s.modSys f).tmb = s.tmb := rfl
@[simp] theorem State.modSys_fab : (s.modSys f).fab = s.fab := rfl
@[simp] theorem State.modSys_answer : (s.modSys f).answer = s.answer := rfl
@[simp] theorem State.modSys_otp : (s.modSys f).otp = s.otp := rfl
@[simp] theorem State.modSys_hs : (s.modSys f).hs = s.hs := rfl
@[simp] theorem State.modSys_hsc : (s.modSys f).hsc = s.hsc := rfl
@[simp] theorem State.modSys_dig : (s.modSys f).dig = s.dig := rfl
@[simp] theorem State.modSys_vlvCtl : (s.modSys f).vlvCtl = s.vlvCtl := rfl
@[simp] theorem State.modSys_vg : (s.modSys f).vg = s.vg := rfl
@[simp] theorem State.modSys_vd : (s.modSys f).vd = s.vd := rfl
@[simp] theorem State.modSys_lmpErr : (s.modSys f).lmpErr = s.lmpErr := rfl
@[simp] theorem State.modSys_ls : (s.modSys f).ls = s.ls := rfl
@[simp] theorem State.modSys_meas : (s.modSys f).meas = s.meas := rfl
@[simp] theorem State.modSys_curve : (s.modSys f).curve = s.curve := rfl
@[simp] theorem State.modSys_adm : (s.modSys f).adm = s.adm := rfl
@[simp] theorem State.modSys_inp : (s.modSys f).inp = s.inp := rfl
@[simp] theorem State.modSys_limpStore : (s.modSys f).limpStore = s.limpStore := rfl
@[simp] theorem State.modSys_pwr : (s.modSys f).pwr = s.pwr := rfl
@[simp] theorem State.modSys_sup : (s.modSys f).sup = s.sup := rfl
@[simp] theorem State.modSys_sys : (s.modSys f).sys = f s.sys := rfl
@[simp] theorem State.modSys_up : (s.modSys f).up = s.up := rfl
@[simp] theorem State.modSys_mem : (s.modSys f).mem = s.mem := rfl
@[simp] theorem State.modSys_ecc : (s.modSys f).ecc = s.ecc := rfl
@[simp] theorem State.modSys_lc : (s.modSys f).lc = s.lc := rfl
@[simp] theorem State.modSys_que : (s.modSys f).que = s.que := rfl
@[simp] theorem State.modSys_core : (s.modSys f).core = s.core := rfl
@[simp] theorem State.modSys_depCore : (s.modSys f).depCore = s.depCore := rfl
@[simp] theorem State.modSys_pmc : (s.modSys f).pmc = s.pmc := rfl
@[simp] theorem State.modSys_can : (s.modSys f).can = s.can := rfl
@[simp] theorem State.modSys_nm : (s.modSys f).nm = s.nm := rfl
@[simp] theorem State.modSys_hp : (s.modSys f).hp = s.hp := rfl
@[simp] theorem State.modSys_plk : (s.modSys f).plk = s.plk := rfl
@[simp] theorem State.modSys_dep : (s.modSys f).dep = s.dep := rfl
@[simp] theorem State.modSys_nv : (s.modSys f).nv = s.nv := rfl
@[simp] theorem State.modSys_free : (s.modSys f).free = s.free := rfl
@[simp] theorem State.modSys_pending : (s.modSys f).pending = s.pending := rfl

end

section
variable (f : Tmb → Tmb)

@[simp] theorem State.modTmb_tmb : (s.modTmb f).tmb = f s.tmb := rfl
@[simp] theorem State.modTmb_fab : (s.modTmb f).fab = s.fab := rfl
@[simp] theorem State.modTmb_answer : (s.modTmb f).answer = s.answer := rfl
@[simp] theorem State.modTmb_otp : (s.modTmb f).otp = s.otp := rfl
@[simp] theorem State.modTmb_hs : (s.modTmb f).hs = s.hs := rfl
@[simp] theorem State.modTmb_hsc : (s.modTmb f).hsc = s.hsc := rfl
@[simp] theorem State.modTmb_dig : (s.modTmb f).dig = s.dig := rfl
@[simp] theorem State.modTmb_vlvCtl : (s.modTmb f).vlvCtl = s.vlvCtl := rfl
@[simp] theorem State.modTmb_vg : (s.modTmb f).vg = s.vg := rfl
@[simp] theorem State.modTmb_vd : (s.modTmb f).vd = s.vd := rfl
@[simp] theorem State.modTmb_lmpErr : (s.modTmb f).lmpErr = s.lmpErr := rfl
@[simp] theorem State.modTmb_ls : (s.modTmb f).ls = s.ls := rfl
@[simp] theorem State.modTmb_meas : (s.modTmb f).meas = s.meas := rfl
@[simp] theorem State.modTmb_curve : (s.modTmb f).curve = s.curve := rfl
@[simp] theorem State.modTmb_adm : (s.modTmb f).adm = s.adm := rfl
@[simp] theorem State.modTmb_inp : (s.modTmb f).inp = s.inp := rfl
@[simp] theorem State.modTmb_limpStore : (s.modTmb f).limpStore = s.limpStore := rfl
@[simp] theorem State.modTmb_pwr : (s.modTmb f).pwr = s.pwr := rfl
@[simp] theorem State.modTmb_sup : (s.modTmb f).sup = s.sup := rfl
@[simp] theorem State.modTmb_sys : (s.modTmb f).sys = s.sys := rfl
@[simp] theorem State.modTmb_up : (s.modTmb f).up = s.up := rfl
@[simp] theorem State.modTmb_mem : (s.modTmb f).mem = s.mem := rfl
@[simp] theorem State.modTmb_ecc : (s.modTmb f).ecc = s.ecc := rfl
@[simp] theorem State.modTmb_lc : (s.modTmb f).lc = s.lc := rfl
@[simp] theorem State.modTmb_que : (s.modTmb f).que = s.que := rfl
@[simp] theorem State.modTmb_core : (s.modTmb f).core = s.core := rfl
@[simp] theorem State.modTmb_depCore : (s.modTmb f).depCore = s.depCore := rfl
@[simp] theorem State.modTmb_pmc : (s.modTmb f).pmc = s.pmc := rfl
@[simp] theorem State.modTmb_can : (s.modTmb f).can = s.can := rfl
@[simp] theorem State.modTmb_nm : (s.modTmb f).nm = s.nm := rfl
@[simp] theorem State.modTmb_hp : (s.modTmb f).hp = s.hp := rfl
@[simp] theorem State.modTmb_plk : (s.modTmb f).plk = s.plk := rfl
@[simp] theorem State.modTmb_dep : (s.modTmb f).dep = s.dep := rfl
@[simp] theorem State.modTmb_nv : (s.modTmb f).nv = s.nv := rfl
@[simp] theorem State.modTmb_free : (s.modTmb f).free = s.free := rfl
@[simp] theorem State.modTmb_pending : (s.modTmb f).pending = s.pending := rfl

end

section
variable (f : Curve → Curve)

@[simp] theorem State.modCurve_tmb : (s.modCurve f).tmb = s.tmb := rfl
@[simp] theorem State.modCurve_fab : (s.modCurve f).fab = s.fab := rfl
@[simp] theorem State.modCurve_answer : (s.modCurve f).answer = s.answer := rfl
@[simp] theorem State.modCurve_otp : (s.modCurve f).otp = s.otp := rfl
@[simp] theorem State.modCurve_hs : (s.modCurve f).hs = s.hs := rfl
@[simp] theorem State.modCurve_hsc : (s.modCurve f).hsc = s.hsc := rfl
@[simp] theorem State.modCurve_dig : (s.modCurve f).dig = s.dig := rfl
@[simp] theorem State.modCurve_vlvCtl : (s.modCurve f).vlvCtl = s.vlvCtl := rfl
@[simp] theorem State.modCurve_vg : (s.modCurve f).vg = s.vg := rfl
@[simp] theorem State.modCurve_vd : (s.modCurve f).vd = s.vd := rfl
@[simp] theorem State.modCurve_lmpErr : (s.modCurve f).lmpErr = s.lmpErr := rfl
@[simp] theorem State.modCurve_ls : (s.modCurve f).ls = s.ls := rfl
@[simp] theorem State.modCurve_meas : (s.modCurve f).meas = s.meas := rfl
@[simp] theorem State.modCurve_curve : (s.modCurve f).curve = f s.curve := rfl
@[simp] theorem State.modCurve_adm : (s.modCurve f).adm = s.adm := rfl
@[simp] theorem State.modCurve_inp : (s.modCurve f).inp = s.inp := rfl
@[simp] theorem State.modCurve_limpStore : (s.modCurve f).limpStore = s.limpStore := rfl
@[simp] theorem State.modCurve_pwr : (s.modCurve f).pwr = s.pwr := rfl
@[simp] theorem State.modCurve_sup : (s.modCurve f).sup = s.sup := rfl
@[simp] theorem State.modCurve_sys : (s.modCurve f).sys = s.sys := rfl
@[simp] theorem State.modCurve_up : (s.modCurve f).up = s.up := rfl
@[simp] theorem State.modCurve_mem : (s.modCurve f).mem = s.mem := rfl
@[simp] theorem State.modCurve_ecc : (s.modCurve f).ecc = s.ecc := rfl
@[simp] theorem State.modCurve_lc : (s.modCurve f).lc = s.lc := rfl
@[simp] theorem State.modCurve_que : (s.modCurve f).que = s.que := rfl
@[simp] theorem State.modCurve_core : (s.modCurve f).core = s.core := rfl
@[simp] theorem State.modCurve_depCore : (s.modCurve f).depCore = s.depCore := rfl
@[simp] theorem State.modCurve_pmc : (s.modCurve f).pmc = s.pmc := rfl
@[simp] theorem State.modCurve_can : (s.modCurve f).can = s.can := rfl
@[simp] theorem State.modCurve_nm : (s.modCurve f).nm = s.nm := rfl
@[simp] theorem State.modCurve_hp : (s.modCurve f).hp = s.hp := rfl
@[simp] theorem State.modCurve_plk : (s.modCurve f).plk = s.plk := rfl
@[simp] theorem State.modCurve_dep : (s.modCurve f).dep = s.dep := rfl
@[simp] theorem State.modCurve_nv : (s.modCurve f).nv = s.nv := rfl
@[simp] theorem State.modCurve_free : (s.modCurve f).free = s.free := rfl
@[simp] theorem State.modCurve_pending : (s.modCurve f).pending = s.pending := rfl

end

section
variable (c : Fin 4) (f : Core → Core)

@[simp] theorem State.modCore_tmb : (s.modCore c f).tmb = s.tmb := rfl
@[simp] theorem State.modCore_fab : (s.modCore c f).fab = s.fab := rfl
@[simp] theorem State.modCore_answer : (s.modCore c f).answer = s.answer := rfl
@[simp] theorem State.modCore_otp : (s.modCore c f).otp = s.otp := rfl
@[simp] theorem State.modCore_hs : (s.modCore c f).hs = s.hs := rfl
@[simp] theorem State.modCore_hsc : (s.modCore c f).hsc = s.hsc := rfl
@[simp] theorem State.modCore_dig : (s.modCore c f).dig = s.dig := rfl
@[simp] theorem State.modCore_vlvCtl : (s.modCore c f).vlvCtl = s.vlvCtl := rfl
@[simp] theorem State.modCore_vg : (s.modCore c f).vg = s.vg := rfl
@[simp] theorem State.modCore_vd : (s.modCore c f).vd = s.vd := rfl
@[simp] theorem State.modCore_lmpErr : (s.modCore c f).lmpErr = s.lmpErr := rfl
@[simp] theorem State.modCore_ls : (s.modCore c f).ls = s.ls := rfl
@[simp] theorem State.modCore_meas : (s.modCore c f).meas = s.meas := rfl
@[simp] theorem State.modCore_curve : (s.modCore c f).curve = s.curve := rfl
@[simp] theorem State.modCore_adm : (s.modCore c f).adm = s.adm := rfl
@[simp] theorem State.modCore_inp : (s.modCore c f).inp = s.inp := rfl
@[simp] theorem State.modCore_limpStore : (s.modCore c f).limpStore = s.limpStore := rfl
@[simp] theorem State.modCore_pwr : (s.modCore c f).pwr = s.pwr := rfl
@[simp] theorem State.modCore_sup : (s.modCore c f).sup = s.sup := rfl
@[simp] theorem State.modCore_sys : (s.modCore c f).sys = s.sys := rfl
@[simp] theorem State.modCore_up : (s.modCore c f).up = s.up := rfl
@[simp] theorem State.modCore_mem : (s.modCore c f).mem = s.mem := rfl
@[simp] theorem State.modCore_ecc : (s.modCore c f).ecc = s.ecc := rfl
@[simp] theorem State.modCore_lc : (s.modCore c f).lc = s.lc := rfl
@[simp] theorem State.modCore_que : (s.modCore c f).que = s.que := rfl
@[simp] theorem State.modCore_core : (s.modCore c f).core = upd s.core c f := rfl
@[simp] theorem State.modCore_depCore : (s.modCore c f).depCore = s.depCore := rfl
@[simp] theorem State.modCore_pmc : (s.modCore c f).pmc = s.pmc := rfl
@[simp] theorem State.modCore_can : (s.modCore c f).can = s.can := rfl
@[simp] theorem State.modCore_nm : (s.modCore c f).nm = s.nm := rfl
@[simp] theorem State.modCore_hp : (s.modCore c f).hp = s.hp := rfl
@[simp] theorem State.modCore_plk : (s.modCore c f).plk = s.plk := rfl
@[simp] theorem State.modCore_dep : (s.modCore c f).dep = s.dep := rfl
@[simp] theorem State.modCore_nv : (s.modCore c f).nv = s.nv := rfl
@[simp] theorem State.modCore_free : (s.modCore c f).free = s.free := rfl
@[simp] theorem State.modCore_pending : (s.modCore c f).pending = s.pending := rfl

end

section
variable (f : Pmc → Pmc)

@[simp] theorem State.modPmc_tmb : (s.modPmc f).tmb = s.tmb := rfl
@[simp] theorem State.modPmc_fab : (s.modPmc f).fab = s.fab := rfl
@[simp] theorem State.modPmc_answer : (s.modPmc f).answer = s.answer := rfl
@[simp] theorem State.modPmc_otp : (s.modPmc f).otp = s.otp := rfl
@[simp] theorem State.modPmc_hs : (s.modPmc f).hs = s.hs := rfl
@[simp] theorem State.modPmc_hsc : (s.modPmc f).hsc = s.hsc := rfl
@[simp] theorem State.modPmc_dig : (s.modPmc f).dig = s.dig := rfl
@[simp] theorem State.modPmc_vlvCtl : (s.modPmc f).vlvCtl = s.vlvCtl := rfl
@[simp] theorem State.modPmc_vg : (s.modPmc f).vg = s.vg := rfl
@[simp] theorem State.modPmc_vd : (s.modPmc f).vd = s.vd := rfl
@[simp] theorem State.modPmc_lmpErr : (s.modPmc f).lmpErr = s.lmpErr := rfl
@[simp] theorem State.modPmc_ls : (s.modPmc f).ls = s.ls := rfl
@[simp] theorem State.modPmc_meas : (s.modPmc f).meas = s.meas := rfl
@[simp] theorem State.modPmc_curve : (s.modPmc f).curve = s.curve := rfl
@[simp] theorem State.modPmc_adm : (s.modPmc f).adm = s.adm := rfl
@[simp] theorem State.modPmc_inp : (s.modPmc f).inp = s.inp := rfl
@[simp] theorem State.modPmc_limpStore : (s.modPmc f).limpStore = s.limpStore := rfl
@[simp] theorem State.modPmc_pwr : (s.modPmc f).pwr = s.pwr := rfl
@[simp] theorem State.modPmc_sup : (s.modPmc f).sup = s.sup := rfl
@[simp] theorem State.modPmc_sys : (s.modPmc f).sys = s.sys := rfl
@[simp] theorem State.modPmc_up : (s.modPmc f).up = s.up := rfl
@[simp] theorem State.modPmc_mem : (s.modPmc f).mem = s.mem := rfl
@[simp] theorem State.modPmc_ecc : (s.modPmc f).ecc = s.ecc := rfl
@[simp] theorem State.modPmc_lc : (s.modPmc f).lc = s.lc := rfl
@[simp] theorem State.modPmc_que : (s.modPmc f).que = s.que := rfl
@[simp] theorem State.modPmc_core : (s.modPmc f).core = s.core := rfl
@[simp] theorem State.modPmc_depCore : (s.modPmc f).depCore = s.depCore := rfl
@[simp] theorem State.modPmc_pmc : (s.modPmc f).pmc = f s.pmc := rfl
@[simp] theorem State.modPmc_can : (s.modPmc f).can = s.can := rfl
@[simp] theorem State.modPmc_nm : (s.modPmc f).nm = s.nm := rfl
@[simp] theorem State.modPmc_hp : (s.modPmc f).hp = s.hp := rfl
@[simp] theorem State.modPmc_plk : (s.modPmc f).plk = s.plk := rfl
@[simp] theorem State.modPmc_dep : (s.modPmc f).dep = s.dep := rfl
@[simp] theorem State.modPmc_nv : (s.modPmc f).nv = s.nv := rfl
@[simp] theorem State.modPmc_free : (s.modPmc f).free = s.free := rfl
@[simp] theorem State.modPmc_pending : (s.modPmc f).pending = s.pending := rfl

end

section
variable (c : Fin 4) (f : Can → Can)

@[simp] theorem State.modCan_tmb : (s.modCan c f).tmb = s.tmb := rfl
@[simp] theorem State.modCan_fab : (s.modCan c f).fab = s.fab := rfl
@[simp] theorem State.modCan_answer : (s.modCan c f).answer = s.answer := rfl
@[simp] theorem State.modCan_otp : (s.modCan c f).otp = s.otp := rfl
@[simp] theorem State.modCan_hs : (s.modCan c f).hs = s.hs := rfl
@[simp] theorem State.modCan_hsc : (s.modCan c f).hsc = s.hsc := rfl
@[simp] theorem State.modCan_dig : (s.modCan c f).dig = s.dig := rfl
@[simp] theorem State.modCan_vlvCtl : (s.modCan c f).vlvCtl = s.vlvCtl := rfl
@[simp] theorem State.modCan_vg : (s.modCan c f).vg = s.vg := rfl
@[simp] theorem State.modCan_vd : (s.modCan c f).vd = s.vd := rfl
@[simp] theorem State.modCan_lmpErr : (s.modCan c f).lmpErr = s.lmpErr := rfl
@[simp] theorem State.modCan_ls : (s.modCan c f).ls = s.ls := rfl
@[simp] theorem State.modCan_meas : (s.modCan c f).meas = s.meas := rfl
@[simp] theorem State.modCan_curve : (s.modCan c f).curve = s.curve := rfl
@[simp] theorem State.modCan_adm : (s.modCan c f).adm = s.adm := rfl
@[simp] theorem State.modCan_inp : (s.modCan c f).inp = s.inp := rfl
@[simp] theorem State.modCan_limpStore : (s.modCan c f).limpStore = s.limpStore := rfl
@[simp] theorem State.modCan_pwr : (s.modCan c f).pwr = s.pwr := rfl
@[simp] theorem State.modCan_sup : (s.modCan c f).sup = s.sup := rfl
@[simp] theorem State.modCan_sys : (s.modCan c f).sys = s.sys := rfl
@[simp] theorem State.modCan_up : (s.modCan c f).up = s.up := rfl
@[simp] theorem State.modCan_mem : (s.modCan c f).mem = s.mem := rfl
@[simp] theorem State.modCan_ecc : (s.modCan c f).ecc = s.ecc := rfl
@[simp] theorem State.modCan_lc : (s.modCan c f).lc = s.lc := rfl
@[simp] theorem State.modCan_que : (s.modCan c f).que = s.que := rfl
@[simp] theorem State.modCan_core : (s.modCan c f).core = s.core := rfl
@[simp] theorem State.modCan_depCore : (s.modCan c f).depCore = s.depCore := rfl
@[simp] theorem State.modCan_pmc : (s.modCan c f).pmc = s.pmc := rfl
@[simp] theorem State.modCan_can : (s.modCan c f).can = upd s.can c f := rfl
@[simp] theorem State.modCan_nm : (s.modCan c f).nm = s.nm := rfl
@[simp] theorem State.modCan_hp : (s.modCan c f).hp = s.hp := rfl
@[simp] theorem State.modCan_plk : (s.modCan c f).plk = s.plk := rfl
@[simp] theorem State.modCan_dep : (s.modCan c f).dep = s.dep := rfl
@[simp] theorem State.modCan_nv : (s.modCan c f).nv = s.nv := rfl
@[simp] theorem State.modCan_free : (s.modCan c f).free = s.free := rfl
@[simp] theorem State.modCan_pending : (s.modCan c f).pending = s.pending := rfl

end

section
variable (c : Fin 4) (f : Nm → Nm)

@[simp] theorem State.modNm_tmb : (s.modNm c f).tmb = s.tmb := rfl
@[simp] theorem State.modNm_fab : (s.modNm c f).fab = s.fab := rfl
@[simp] theorem State.modNm_answer : (s.modNm c f).answer = s.answer := rfl
@[simp] theorem State.modNm_otp : (s.modNm c f).otp = s.otp := rfl
@[simp] theorem State.modNm_hs : (s.modNm c f).hs = s.hs := rfl
@[simp] theorem State.modNm_hsc : (s.modNm c f).hsc = s.hsc := rfl
@[simp] theorem State.modNm_dig : (s.modNm c f).dig = s.dig := rfl
@[simp] theorem State.modNm_vlvCtl : (s.modNm c f).vlvCtl = s.vlvCtl := rfl
@[simp] theorem State.modNm_vg : (s.modNm c f).vg = s.vg := rfl
@[simp] theorem State.modNm_vd : (s.modNm c f).vd = s.vd := rfl
@[simp] theorem State.modNm_lmpErr : (s.modNm c f).lmpErr = s.lmpErr := rfl
@[simp] theorem State.modNm_ls : (s.modNm c f).ls = s.ls := rfl
@[simp] theorem State.modNm_meas : (s.modNm c f).meas = s.meas := rfl
@[simp] theorem State.modNm_curve : (s.modNm c f).curve = s.curve := rfl
@[simp] theorem State.modNm_adm : (s.modNm c f).adm = s.adm := rfl
@[simp] theorem State.modNm_inp : (s.modNm c f).inp = s.inp := rfl
@[simp] theorem State.modNm_limpStore : (s.modNm c f).limpStore = s.limpStore := rfl
@[simp] theorem State.modNm_pwr : (s.modNm c f).pwr = s.pwr := rfl
@[simp] theorem State.modNm_sup : (s.modNm c f).sup = s.sup := rfl
@[simp] theorem State.modNm_sys : (s.modNm c f).sys = s.sys := rfl
@[simp] theorem State.modNm_up : (s.modNm c f).up = s.up := rfl
@[simp] theorem State.modNm_mem : (s.modNm c f).mem = s.mem := rfl
@[simp] theorem State.modNm_ecc : (s.modNm c f).ecc = s.ecc := rfl
@[simp] theorem State.modNm_lc : (s.modNm c f).lc = s.lc := rfl
@[simp] theorem State.modNm_que : (s.modNm c f).que = s.que := rfl
@[simp] theorem State.modNm_core : (s.modNm c f).core = s.core := rfl
@[simp] theorem State.modNm_depCore : (s.modNm c f).depCore = s.depCore := rfl
@[simp] theorem State.modNm_pmc : (s.modNm c f).pmc = s.pmc := rfl
@[simp] theorem State.modNm_can : (s.modNm c f).can = s.can := rfl
@[simp] theorem State.modNm_nm : (s.modNm c f).nm = upd s.nm c f := rfl
@[simp] theorem State.modNm_hp : (s.modNm c f).hp = s.hp := rfl
@[simp] theorem State.modNm_plk : (s.modNm c f).plk = s.plk := rfl
@[simp] theorem State.modNm_dep : (s.modNm c f).dep = s.dep := rfl
@[simp] theorem State.modNm_nv : (s.modNm c f).nv = s.nv := rfl
@[simp] theorem State.modNm_free : (s.modNm c f).free = s.free := rfl
@[simp] theorem State.modNm_pending : (s.modNm c f).pending = s.pending := rfl

end

section
variable (f : Hp → Hp)

@[simp] theorem State.modHp_tmb : (s.modHp f).tmb = s.tmb := rfl
@[simp] theorem State.modHp_fab : (s.modHp f).fab = s.fab := rfl
@[simp] theorem State.modHp_answer : (s.modHp f).answer = s.answer := rfl
@[simp] theorem State.modHp_otp : (s.modHp f).otp = s.otp := rfl
@[simp] theorem State.modHp_hs : (s.modHp f).hs = s.hs := rfl
@[simp] theorem State.modHp_hsc : (s.modHp f).hsc = s.hsc := rfl
@[simp] theorem State.modHp_dig : (s.modHp f).dig = s.dig := rfl
@[simp] theorem State.modHp_vlvCtl : (s.modHp f).vlvCtl = s.vlvCtl := rfl
@[simp] theorem State.modHp_vg : (s.modHp f).vg = s.vg := rfl
@[simp] theorem State.modHp_vd : (s.modHp f).vd = s.vd := rfl
@[simp] theorem State.modHp_lmpErr : (s.modHp f).lmpErr = s.lmpErr := rfl
@[simp] theorem State.modHp_ls : (s.modHp f).ls = s.ls := rfl
@[simp] theorem State.modHp_meas : (s.modHp f).meas = s.meas := rfl
@[simp] theorem State.modHp_curve : (s.modHp f).curve = s.curve := rfl
@[simp] theorem State.modHp_adm : (s.modHp f).adm = s.adm := rfl
@[simp] theorem State.modHp_inp : (s.modHp f).inp = s.inp := rfl
@[simp] theorem State.modHp_limpStore : (s.modHp f).limpStore = s.limpStore := rfl
@[simp] theorem State.modHp_pwr : (s.modHp f).pwr = s.pwr := rfl
@[simp] theorem State.modHp_sup : (s.modHp f).sup = s.sup := rfl
@[simp] theorem State.modHp_sys : (s.modHp f).sys = s.sys := rfl
@[simp] theorem State.modHp_up : (s.modHp f).up = s.up := rfl
@[simp] theorem State.modHp_mem : (s.modHp f).mem = s.mem := rfl
@[simp] theorem State.modHp_ecc : (s.modHp f).ecc = s.ecc := rfl
@[simp] theorem State.modHp_lc : (s.modHp f).lc = s.lc := rfl
@[simp] theorem State.modHp_que : (s.modHp f).que = s.que := rfl
@[simp] theorem State.modHp_core : (s.modHp f).core = s.core := rfl
@[simp] theorem State.modHp_depCore : (s.modHp f).depCore = s.depCore := rfl
@[simp] theorem State.modHp_pmc : (s.modHp f).pmc = s.pmc := rfl
@[simp] theorem State.modHp_can : (s.modHp f).can = s.can := rfl
@[simp] theorem State.modHp_nm : (s.modHp f).nm = s.nm := rfl
@[simp] theorem State.modHp_hp : (s.modHp f).hp = f s.hp := rfl
@[simp] theorem State.modHp_plk : (s.modHp f).plk = s.plk := rfl
@[simp] theorem State.modHp_dep : (s.modHp f).dep = s.dep := rfl
@[simp] theorem State.modHp_nv : (s.modHp f).nv = s.nv := rfl
@[simp] theorem State.modHp_free : (s.modHp f).free = s.free := rfl
@[simp] theorem State.modHp_pending : (s.modHp f).pending = s.pending := rfl

end

section
variable (f : Plk → Plk)

@[simp] theorem State.modPlk_tmb : (s.modPlk f).tmb = s.tmb := rfl
@[simp] theorem State.modPlk_fab : (s.modPlk f).fab = s.fab := rfl
@[simp] theorem State.modPlk_answer : (s.modPlk f).answer = s.answer := rfl
@[simp] theorem State.modPlk_otp : (s.modPlk f).otp = s.otp := rfl
@[simp] theorem State.modPlk_hs : (s.modPlk f).hs = s.hs := rfl
@[simp] theorem State.modPlk_hsc : (s.modPlk f).hsc = s.hsc := rfl
@[simp] theorem State.modPlk_dig : (s.modPlk f).dig = s.dig := rfl
@[simp] theorem State.modPlk_vlvCtl : (s.modPlk f).vlvCtl = s.vlvCtl := rfl
@[simp] theorem State.modPlk_vg : (s.modPlk f).vg = s.vg := rfl
@[simp] theorem State.modPlk_vd : (s.modPlk f).vd = s.vd := rfl
@[simp] theorem State.modPlk_lmpErr : (s.modPlk f).lmpErr = s.lmpErr := rfl
@[simp] theorem State.modPlk_ls : (s.modPlk f).ls = s.ls := rfl
@[simp] theorem State.modPlk_meas : (s.modPlk f).meas = s.meas := rfl
@[simp] theorem State.modPlk_curve : (s.modPlk f).curve = s.curve := rfl
@[simp] theorem State.modPlk_adm : (s.modPlk f).adm = s.adm := rfl
@[simp] theorem State.modPlk_inp : (s.modPlk f).inp = s.inp := rfl
@[simp] theorem State.modPlk_limpStore : (s.modPlk f).limpStore = s.limpStore := rfl
@[simp] theorem State.modPlk_pwr : (s.modPlk f).pwr = s.pwr := rfl
@[simp] theorem State.modPlk_sup : (s.modPlk f).sup = s.sup := rfl
@[simp] theorem State.modPlk_sys : (s.modPlk f).sys = s.sys := rfl
@[simp] theorem State.modPlk_up : (s.modPlk f).up = s.up := rfl
@[simp] theorem State.modPlk_mem : (s.modPlk f).mem = s.mem := rfl
@[simp] theorem State.modPlk_ecc : (s.modPlk f).ecc = s.ecc := rfl
@[simp] theorem State.modPlk_lc : (s.modPlk f).lc = s.lc := rfl
@[simp] theorem State.modPlk_que : (s.modPlk f).que = s.que := rfl
@[simp] theorem State.modPlk_core : (s.modPlk f).core = s.core := rfl
@[simp] theorem State.modPlk_depCore : (s.modPlk f).depCore = s.depCore := rfl
@[simp] theorem State.modPlk_pmc : (s.modPlk f).pmc = s.pmc := rfl
@[simp] theorem State.modPlk_can : (s.modPlk f).can = s.can := rfl
@[simp] theorem State.modPlk_nm : (s.modPlk f).nm = s.nm := rfl
@[simp] theorem State.modPlk_hp : (s.modPlk f).hp = s.hp := rfl
@[simp] theorem State.modPlk_plk : (s.modPlk f).plk = f s.plk := rfl
@[simp] theorem State.modPlk_dep : (s.modPlk f).dep = s.dep := rfl
@[simp] theorem State.modPlk_nv : (s.modPlk f).nv = s.nv := rfl
@[simp] theorem State.modPlk_free : (s.modPlk f).free = s.free := rfl
@[simp] theorem State.modPlk_pending : (s.modPlk f).pending = s.pending := rfl

end

section
variable (f : Dep → Dep)

@[simp] theorem State.modDep_tmb : (s.modDep f).tmb = s.tmb := rfl
@[simp] theorem State.modDep_fab : (s.modDep f).fab = s.fab := rfl
@[simp] theorem State.modDep_answer : (s.modDep f).answer = s.answer := rfl
@[simp] theorem State.modDep_otp : (s.modDep f).otp = s.otp := rfl
@[simp] theorem State.modDep_hs : (s.modDep f).hs = s.hs := rfl
@[simp] theorem State.modDep_hsc : (s.modDep f).hsc = s.hsc := rfl
@[simp] theorem State.modDep_dig : (s.modDep f).dig = s.dig := rfl
@[simp] theorem State.modDep_vlvCtl : (s.modDep f).vlvCtl = s.vlvCtl := rfl
@[simp] theorem State.modDep_vg : (s.modDep f).vg = s.vg := rfl
@[simp] theorem State.modDep_vd : (s.modDep f).vd = s.vd := rfl
@[simp] theorem State.modDep_lmpErr : (s.modDep f).lmpErr = s.lmpErr := rfl
@[simp] theorem State.modDep_ls : (s.modDep f).ls = s.ls := rfl
@[simp] theorem State.modDep_meas : (s.modDep f).meas = s.meas := rfl
@[simp] theorem State.modDep_curve : (s.modDep f).curve = s.curve := rfl
@[simp] theorem State.modDep_adm : (s.modDep f).adm = s.adm := rfl
@[simp] theorem State.modDep_inp : (s.modDep f).inp = s.inp := rfl
@[simp] theorem State.modDep_limpStore : (s.modDep f).limpStore = s.limpStore := rfl
@[simp] theorem State.modDep_pwr : (s.modDep f).pwr = s.pwr := rfl
@[simp] theorem State.modDep_sup : (s.modDep f).sup = s.sup := rfl
@[simp] theorem State.modDep_sys : (s.modDep f).sys = s.sys := rfl
@[simp] theorem State.modDep_up : (s.modDep f).up = s.up := rfl
@[simp] theorem State.modDep_mem : (s.modDep f).mem = s.mem := rfl
@[simp] theorem State.modDep_ecc : (s.modDep f).ecc = s.ecc := rfl
@[simp] theorem State.modDep_lc : (s.modDep f).lc = s.lc := rfl
@[simp] theorem State.modDep_que : (s.modDep f).que = s.que := rfl
@[simp] theorem State.modDep_core : (s.modDep f).core = s.core := rfl
@[simp] theorem State.modDep_depCore : (s.modDep f).depCore = s.depCore := rfl
@[simp] theorem State.modDep_pmc : (s.modDep f).pmc = s.pmc := rfl
@[simp] theorem State.modDep_can : (s.modDep f).can = s.can := rfl
@[simp] theorem State.modDep_nm : (s.modDep f).nm = s.nm := rfl
@[simp] theorem State.modDep_hp : (s.modDep f).hp = s.hp := rfl
@[simp] theorem State.modDep_plk : (s.modDep f).plk = s.plk := rfl
@[simp] theorem State.modDep_dep : (s.modDep f).dep = f s.dep := rfl
@[simp] theorem State.modDep_nv : (s.modDep f).nv = s.nv := rfl
@[simp] theorem State.modDep_free : (s.modDep f).free = s.free := rfl
@[simp] theorem State.modDep_pending : (s.modDep f).pending = s.pending := rfl

end

section
variable (f : DepNv → DepNv)

@[simp] theorem State.modNv_tmb : (s.modNv f).tmb = s.tmb := rfl
@[simp] theorem State.modNv_fab : (s.modNv f).fab = s.fab := rfl
@[simp] theorem State.modNv_answer : (s.modNv f).answer = s.answer := rfl
@[simp] theorem State.modNv_otp : (s.modNv f).otp = s.otp := rfl
@[simp] theorem State.modNv_hs : (s.modNv f).hs = s.hs := rfl
@[simp] theorem State.modNv_hsc : (s.modNv f).hsc = s.hsc := rfl
@[simp] theorem State.modNv_dig : (s.modNv f).dig = s.dig := rfl
@[simp] theorem State.modNv_vlvCtl : (s.modNv f).vlvCtl = s.vlvCtl := rfl
@[simp] theorem State.modNv_vg : (s.modNv f).vg = s.vg := rfl
@[simp] theorem State.modNv_vd : (s.modNv f).vd = s.vd := rfl
@[simp] theorem State.modNv_lmpErr : (s.modNv f).lmpErr = s.lmpErr := rfl
@[simp] theorem State.modNv_ls : (s.modNv f).ls = s.ls := rfl
@[simp] theorem State.modNv_meas : (s.modNv f).meas = s.meas := rfl
@[simp] theorem State.modNv_curve : (s.modNv f).curve = s.curve := rfl
@[simp] theorem State.modNv_adm : (s.modNv f).adm = s.adm := rfl
@[simp] theorem State.modNv_inp : (s.modNv f).inp = s.inp := rfl
@[simp] theorem State.modNv_limpStore : (s.modNv f).limpStore = s.limpStore := rfl
@[simp] theorem State.modNv_pwr : (s.modNv f).pwr = s.pwr := rfl
@[simp] theorem State.modNv_sup : (s.modNv f).sup = s.sup := rfl
@[simp] theorem State.modNv_sys : (s.modNv f).sys = s.sys := rfl
@[simp] theorem State.modNv_up : (s.modNv f).up = s.up := rfl
@[simp] theorem State.modNv_mem : (s.modNv f).mem = s.mem := rfl
@[simp] theorem State.modNv_ecc : (s.modNv f).ecc = s.ecc := rfl
@[simp] theorem State.modNv_lc : (s.modNv f).lc = s.lc := rfl
@[simp] theorem State.modNv_que : (s.modNv f).que = s.que := rfl
@[simp] theorem State.modNv_core : (s.modNv f).core = s.core := rfl
@[simp] theorem State.modNv_depCore : (s.modNv f).depCore = s.depCore := rfl
@[simp] theorem State.modNv_pmc : (s.modNv f).pmc = s.pmc := rfl
@[simp] theorem State.modNv_can : (s.modNv f).can = s.can := rfl
@[simp] theorem State.modNv_nm : (s.modNv f).nm = s.nm := rfl
@[simp] theorem State.modNv_hp : (s.modNv f).hp = s.hp := rfl
@[simp] theorem State.modNv_plk : (s.modNv f).plk = s.plk := rfl
@[simp] theorem State.modNv_dep : (s.modNv f).dep = s.dep := rfl
@[simp] theorem State.modNv_nv : (s.modNv f).nv = f s.nv := rfl
@[simp] theorem State.modNv_free : (s.modNv f).free = s.free := rfl
@[simp] theorem State.modNv_pending : (s.modNv f).pending = s.pending := rfl

end

end Sys2Proof.Machine
end

