-- ==== Sys2Proof/Laws/Touch.lean ====
section
/-! SUPPORT. `onlyTouches`: how it composes, and what it says of each update of one part. -/

namespace Sys2Proof.Machine

theorem onlyTouches.refl (ps : List Part) (s : State) : onlyTouches ps s s :=
  ⟨fun p _ => by cases p <;> rfl⟩

theorem Part.same_trans (p : Part) {s t u : State} (h : p.same s t) (k : p.same t u) : p.same s u := by
  cases p <;> exact Eq.trans k h

theorem onlyTouches.trans {ps qs : List Part} {s t u : State} (h : onlyTouches ps s t) (k : onlyTouches qs t u)
    (sub : ∀ q ∈ qs, q ∈ ps) : onlyTouches ps s u :=
  ⟨fun p hp => p.same_trans (h.same p hp) (k.same p fun hq => hp (sub p hq))⟩

theorem onlyTouches.mono {ps qs : List Part} {s t : State} (k : onlyTouches qs s t) (sub : ∀ q ∈ qs, q ∈ ps) :
    onlyTouches ps s t := ⟨fun p hp => k.same p fun hq => hp (sub p hq)⟩

/-- A chain of changes within the same parts. -/
theorem onlyTouches.step {ps : List Part} {s t u : State} (h : onlyTouches ps s t) (k : onlyTouches ps t u) :
    onlyTouches ps s u := h.trans k fun _ hq => hq

theorem onlyTouches.ite {ps : List Part} {s t u : State} {c : Prop} [Decidable c] (h : onlyTouches ps s t)
    (k : onlyTouches ps s u) : onlyTouches ps s (if c then t else u) := by split <;> assumption

theorem onlyTouches.dite {ps : List Part} {s : State} {c : Prop} [Decidable c] {t : c → State} {u : ¬c → State}
    (h : ∀ x, onlyTouches ps s (t x)) (k : ∀ x, onlyTouches ps s (u x)) :
    onlyTouches ps s (if x : c then t x else u x) := by split <;> simp_all

theorem onlyTouches.onlyIf {ps : List Part} {s t : State} {c : Bool} {f : State → State} (h : onlyTouches ps s t)
    (k : ∀ x, onlyTouches ps x (f x)) : onlyTouches ps s (t.onlyIf c f) := by
  unfold State.onlyIf; split
  · exact h.step (k t)
  · exact h

theorem onlyTouches.foldl {ps : List Part} {α : Type} {f : State → α → State} (k : ∀ x a, onlyTouches ps x (f x a))
    (l : List α) {s t : State} (h : onlyTouches ps s t) : onlyTouches ps s (l.foldl f t) := by
  induction l generalizing t with
  | nil => exact h
  | cons a r ih => exact ih (h.step (k t a))

theorem onlyTouches.forFin {ps : List Part} {n : Nat} {f : Fin n → State → State} {s t : State}
    (h : onlyTouches ps s t) (k : ∀ i x, onlyTouches ps x (f i x)) : onlyTouches ps s (forFin n f t) :=
  onlyTouches.foldl (fun x i => k i x) _ h

theorem onlyTouches.put_tmb {ps : List Part} {s t : State} (h : onlyTouches ps s t) (m : .tmb ∈ ps) (x) :
    onlyTouches ps s { t with tmb := x } := by
  constructor; intro p hp; cases p <;> first | exact absurd m hp | exact h.same _ hp
theorem onlyTouches.put_fab {ps : List Part} {s t : State} (h : onlyTouches ps s t) (m : .fab ∈ ps) (x) :
    onlyTouches ps s { t with fab := x } := by
  constructor; intro p hp; cases p <;> first | exact absurd m hp | exact h.same _ hp
theorem onlyTouches.put_answer {ps : List Part} {s t : State} (h : onlyTouches ps s t) (m : .answer ∈ ps) (x) :
    onlyTouches ps s { t with answer := x } := by
  constructor; intro p hp; cases p <;> first | exact absurd m hp | exact h.same _ hp
theorem onlyTouches.put_otp {ps : List Part} {s t : State} (h : onlyTouches ps s t) (m : .otp ∈ ps) (x) :
    onlyTouches ps s { t with otp := x } := by
  constructor; intro p hp; cases p <;> first | exact absurd m hp | exact h.same _ hp
theorem onlyTouches.put_hs {ps : List Part} {s t : State} (h : onlyTouches ps s t) (m : .hs ∈ ps) (x) :
    onlyTouches ps s { t with hs := x } := by
  constructor; intro p hp; cases p <;> first | exact absurd m hp | exact h.same _ hp
theorem onlyTouches.put_hsc {ps : List Part} {s t : State} (h : onlyTouches ps s t) (m : .hsc ∈ ps) (x) :
    onlyTouches ps s { t with hsc := x } := by
  constructor; intro p hp; cases p <;> first | exact absurd m hp | exact h.same _ hp
theorem onlyTouches.put_dig {ps : List Part} {s t : State} (h : onlyTouches ps s t) (m : .dig ∈ ps) (x) :
    onlyTouches ps s { t with dig := x } := by
  constructor; intro p hp; cases p <;> first | exact absurd m hp | exact h.same _ hp
theorem onlyTouches.put_vlvCtl {ps : List Part} {s t : State} (h : onlyTouches ps s t) (m : .vlvCtl ∈ ps) (x) :
    onlyTouches ps s { t with vlvCtl := x } := by
  constructor; intro p hp; cases p <;> first | exact absurd m hp | exact h.same _ hp
theorem onlyTouches.put_vg {ps : List Part} {s t : State} (h : onlyTouches ps s t) (m : .vg ∈ ps) (x) :
    onlyTouches ps s { t with vg := x } := by
  constructor; intro p hp; cases p <;> first | exact absurd m hp | exact h.same _ hp
theorem onlyTouches.put_vd {ps : List Part} {s t : State} (h : onlyTouches ps s t) (m : .vd ∈ ps) (x) :
    onlyTouches ps s { t with vd := x } := by
  constructor; intro p hp; cases p <;> first | exact absurd m hp | exact h.same _ hp
theorem onlyTouches.put_lmpErr {ps : List Part} {s t : State} (h : onlyTouches ps s t) (m : .lmpErr ∈ ps) (x) :
    onlyTouches ps s { t with lmpErr := x } := by
  constructor; intro p hp; cases p <;> first | exact absurd m hp | exact h.same _ hp
theorem onlyTouches.put_ls {ps : List Part} {s t : State} (h : onlyTouches ps s t) (m : .ls ∈ ps) (x) :
    onlyTouches ps s { t with ls := x } := by
  constructor; intro p hp; cases p <;> first | exact absurd m hp | exact h.same _ hp
theorem onlyTouches.put_meas {ps : List Part} {s t : State} (h : onlyTouches ps s t) (m : .meas ∈ ps) (x) :
    onlyTouches ps s { t with meas := x } := by
  constructor; intro p hp; cases p <;> first | exact absurd m hp | exact h.same _ hp
theorem onlyTouches.put_curve {ps : List Part} {s t : State} (h : onlyTouches ps s t) (m : .curve ∈ ps) (x) :
    onlyTouches ps s { t with curve := x } := by
  constructor; intro p hp; cases p <;> first | exact absurd m hp | exact h.same _ hp
theorem onlyTouches.put_adm {ps : List Part} {s t : State} (h : onlyTouches ps s t) (m : .adm ∈ ps) (x) :
    onlyTouches ps s { t with adm := x } := by
  constructor; intro p hp; cases p <;> first | exact absurd m hp | exact h.same _ hp
theorem onlyTouches.put_inp {ps : List Part} {s t : State} (h : onlyTouches ps s t) (m : .inp ∈ ps) (x) :
    onlyTouches ps s { t with inp := x } := by
  constructor; intro p hp; cases p <;> first | exact absurd m hp | exact h.same _ hp
theorem onlyTouches.put_limpStore {ps : List Part} {s t : State} (h : onlyTouches ps s t) (m : .limpStore ∈ ps) (x) :
    onlyTouches ps s { t with limpStore := x } := by
  constructor; intro p hp; cases p <;> first | exact absurd m hp | exact h.same _ hp
theorem onlyTouches.put_pwr {ps : List Part} {s t : State} (h : onlyTouches ps s t) (m : .pwr ∈ ps) (x) :
    onlyTouches ps s { t with pwr := x } := by
  constructor; intro p hp; cases p <;> first | exact absurd m hp | exact h.same _ hp
theorem onlyTouches.put_sup {ps : List Part} {s t : State} (h : onlyTouches ps s t) (m : .sup ∈ ps) (x) :
    onlyTouches ps s { t with sup := x } := by
  constructor; intro p hp; cases p <;> first | exact absurd m hp | exact h.same _ hp
theorem onlyTouches.put_sys {ps : List Part} {s t : State} (h : onlyTouches ps s t) (m : .sys ∈ ps) (x) :
    onlyTouches ps s { t with sys := x } := by
  constructor; intro p hp; cases p <;> first | exact absurd m hp | exact h.same _ hp
theorem onlyTouches.put_up {ps : List Part} {s t : State} (h : onlyTouches ps s t) (m : .up ∈ ps) (x) :
    onlyTouches ps s { t with up := x } := by
  constructor; intro p hp; cases p <;> first | exact absurd m hp | exact h.same _ hp
theorem onlyTouches.put_mem {ps : List Part} {s t : State} (h : onlyTouches ps s t) (m : .mem ∈ ps) (x) :
    onlyTouches ps s { t with mem := x } := by
  constructor; intro p hp; cases p <;> first | exact absurd m hp | exact h.same _ hp
theorem onlyTouches.put_ecc {ps : List Part} {s t : State} (h : onlyTouches ps s t) (m : .ecc ∈ ps) (x) :
    onlyTouches ps s { t with ecc := x } := by
  constructor; intro p hp; cases p <;> first | exact absurd m hp | exact h.same _ hp
theorem onlyTouches.put_lc {ps : List Part} {s t : State} (h : onlyTouches ps s t) (m : .lc ∈ ps) (x) :
    onlyTouches ps s { t with lc := x } := by
  constructor; intro p hp; cases p <;> first | exact absurd m hp | exact h.same _ hp
theorem onlyTouches.put_que {ps : List Part} {s t : State} (h : onlyTouches ps s t) (m : .que ∈ ps) (x) :
    onlyTouches ps s { t with que := x } := by
  constructor; intro p hp; cases p <;> first | exact absurd m hp | exact h.same _ hp
theorem onlyTouches.put_core {ps : List Part} {s t : State} (h : onlyTouches ps s t) (m : .core ∈ ps) (x) :
    onlyTouches ps s { t with core := x } := by
  constructor; intro p hp; cases p <;> first | exact absurd m hp | exact h.same _ hp
theorem onlyTouches.put_depCore {ps : List Part} {s t : State} (h : onlyTouches ps s t) (m : .depCore ∈ ps) (x) :
    onlyTouches ps s { t with depCore := x } := by
  constructor; intro p hp; cases p <;> first | exact absurd m hp | exact h.same _ hp
theorem onlyTouches.put_pmc {ps : List Part} {s t : State} (h : onlyTouches ps s t) (m : .pmc ∈ ps) (x) :
    onlyTouches ps s { t with pmc := x } := by
  constructor; intro p hp; cases p <;> first | exact absurd m hp | exact h.same _ hp
theorem onlyTouches.put_can {ps : List Part} {s t : State} (h : onlyTouches ps s t) (m : .can ∈ ps) (x) :
    onlyTouches ps s { t with can := x } := by
  constructor; intro p hp; cases p <;> first | exact absurd m hp | exact h.same _ hp
theorem onlyTouches.put_nm {ps : List Part} {s t : State} (h : onlyTouches ps s t) (m : .nm ∈ ps) (x) :
    onlyTouches ps s { t with nm := x } := by
  constructor; intro p hp; cases p <;> first | exact absurd m hp | exact h.same _ hp
theorem onlyTouches.put_hp {ps : List Part} {s t : State} (h : onlyTouches ps s t) (m : .hp ∈ ps) (x) :
    onlyTouches ps s { t with hp := x } := by
  constructor; intro p hp; cases p <;> first | exact absurd m hp | exact h.same _ hp
theorem onlyTouches.put_plk {ps : List Part} {s t : State} (h : onlyTouches ps s t) (m : .plk ∈ ps) (x) :
    onlyTouches ps s { t with plk := x } := by
  constructor; intro p hp; cases p <;> first | exact absurd m hp | exact h.same _ hp
theorem onlyTouches.put_dep {ps : List Part} {s t : State} (h : onlyTouches ps s t) (m : .dep ∈ ps) (x) :
    onlyTouches ps s { t with dep := x } := by
  constructor; intro p hp; cases p <;> first | exact absurd m hp | exact h.same _ hp
theorem onlyTouches.put_nv {ps : List Part} {s t : State} (h : onlyTouches ps s t) (m : .nv ∈ ps) (x) :
    onlyTouches ps s { t with nv := x } := by
  constructor; intro p hp; cases p <;> first | exact absurd m hp | exact h.same _ hp
theorem onlyTouches.put_free {ps : List Part} {s t : State} (h : onlyTouches ps s t) (m : .free ∈ ps) (x) :
    onlyTouches ps s { t with free := x } := by
  constructor; intro p hp; cases p <;> first | exact absurd m hp | exact h.same _ hp
theorem onlyTouches.put_pending {ps : List Part} {s t : State} (h : onlyTouches ps s t) (m : .pending ∈ ps) (x) :
    onlyTouches ps s { t with pending := x } := by
  constructor; intro p hp; cases p <;> first | exact absurd m hp | exact h.same _ hp
theorem onlyTouches.put_ecc_free {ps : List Part} {s t : State} (h : onlyTouches ps s t)
    (m : ∀ q ∈ [.ecc, .free], q ∈ ps) (x0 x1) :
    onlyTouches ps s { t with ecc := x0, free := x1 } := by
  constructor; intro p hp; cases p <;> first | exact h.same _ hp | exact absurd (m _ (by decide)) hp
theorem onlyTouches.put_fab_hs_dig_vlvCtl_vg_vd_lmpErr_ls_inp_up_mem_ecc_lc_que_depCore_can_nm_plk_dep {ps : List Part} {s t : State} (h : onlyTouches ps s t)
    (m : ∀ q ∈ [.fab, .hs, .dig, .vlvCtl, .vg, .vd, .lmpErr, .ls, .inp, .up, .mem, .ecc, .lc, .que, .depCore, .can, .nm, .plk, .dep], q ∈ ps) (x0 x1 x2 x3 x4 x5 x6 x7 x8 x9 x10 x11 x12 x13 x14 x15 x16 x17 x18) :
    onlyTouches ps s { t with fab := x0, hs := x1, dig := x2, vlvCtl := x3, vg := x4, vd := x5, lmpErr := x6, ls := x7, inp := x8, up := x9, mem := x10, ecc := x11, lc := x12, que := x13, depCore := x14, can := x15, nm := x16, plk := x17, dep := x18 } := by
  constructor; intro p hp; cases p <;> first | exact h.same _ hp | exact absurd (m _ (by decide)) hp
theorem onlyTouches.put_fab_sys_que_core_pmc_hp {ps : List Part} {s t : State} (h : onlyTouches ps s t)
    (m : ∀ q ∈ [.fab, .sys, .que, .core, .pmc, .hp], q ∈ ps) (x0 x1 x2 x3 x4 x5) :
    onlyTouches ps s { t with fab := x0, sys := x1, que := x2, core := x3, pmc := x4, hp := x5 } := by
  constructor; intro p hp; cases p <;> first | exact h.same _ hp | exact absurd (m _ (by decide)) hp
theorem onlyTouches.put_hsc_ls_meas_curve_up {ps : List Part} {s t : State} (h : onlyTouches ps s t)
    (m : ∀ q ∈ [.hsc, .ls, .meas, .curve, .up], q ∈ ps) (x0 x1 x2 x3 x4) :
    onlyTouches ps s { t with hsc := x0, ls := x1, meas := x2, curve := x3, up := x4 } := by
  constructor; intro p hp; cases p <;> first | exact h.same _ hp | exact absurd (m _ (by decide)) hp
theorem onlyTouches.put_inp_pwr_up {ps : List Part} {s t : State} (h : onlyTouches ps s t)
    (m : ∀ q ∈ [.inp, .pwr, .up], q ∈ ps) (x0 x1 x2) :
    onlyTouches ps s { t with inp := x0, pwr := x1, up := x2 } := by
  constructor; intro p hp; cases p <;> first | exact h.same _ hp | exact absurd (m _ (by decide)) hp
theorem onlyTouches.put_mem_ecc {ps : List Part} {s t : State} (h : onlyTouches ps s t)
    (m : ∀ q ∈ [.mem, .ecc], q ∈ ps) (x0 x1) :
    onlyTouches ps s { t with mem := x0, ecc := x1 } := by
  constructor; intro p hp; cases p <;> first | exact h.same _ hp | exact absurd (m _ (by decide)) hp

end Sys2Proof.Machine
end

