-- ==== Sys2Proof/Laws/TouchOps.lean ====
section
/-! SUPPORT. The parts of State that each operation of Machine/Ops.lean changes. -/

namespace Sys2Proof.Machine

theorem State.modHs_touch (s : State) (n : Fin 48) (f : Hs → Hs) :
    onlyTouches [.hs] s (State.modHs s n f) := by
  repeat' first
    | (exact (onlyTouches.refl _ _).put_hs (by decide) _)

theorem State.modVd_touch (s : State) (n : Fin 16) (f : Vd → Vd) :
    onlyTouches [.vd] s (State.modVd s n f) := by
  repeat' first
    | (exact (onlyTouches.refl _ _).put_vd (by decide) _)

theorem State.modVg_touch (s : State) (g : Fin 4) (f : Vg → Vg) :
    onlyTouches [.vg] s (State.modVg s g f) := by
  repeat' first
    | (exact (onlyTouches.refl _ _).put_vg (by decide) _)

theorem State.modLs_touch (s : State) (k : Fin 3) (f : Ls → Ls) :
    onlyTouches [.ls] s (State.modLs s k f) := by
  repeat' first
    | (exact (onlyTouches.refl _ _).put_ls (by decide) _)

theorem State.modDig_touch (s : State) (t : Fin 67) (f : Dig → Dig) :
    onlyTouches [.dig] s (State.modDig s t f) := by
  repeat' first
    | (exact (onlyTouches.refl _ _).put_dig (by decide) _)

theorem State.modHsc_touch (s : State) (f : Hsc → Hsc) :
    onlyTouches [.hsc] s (State.modHsc s f) := by
  repeat' first
    | (exact (onlyTouches.refl _ _).put_hsc (by decide) _)

theorem State.modAdm_touch (s : State) (f : Adm → Adm) :
    onlyTouches [.adm] s (State.modAdm s f) := by
  repeat' first
    | (exact (onlyTouches.refl _ _).put_adm (by decide) _)

theorem State.modInp_touch (s : State) (f : Inp → Inp) :
    onlyTouches [.inp] s (State.modInp s f) := by
  repeat' first
    | (exact (onlyTouches.refl _ _).put_inp (by decide) _)

theorem State.modPwr_touch (s : State) (f : Pwr → Pwr) :
    onlyTouches [.pwr] s (State.modPwr s f) := by
  repeat' first
    | (exact (onlyTouches.refl _ _).put_pwr (by decide) _)

theorem State.modSup_touch (s : State) (f : Supply → Supply) :
    onlyTouches [.sup] s (State.modSup s f) := by
  repeat' first
    | (exact (onlyTouches.refl _ _).put_sup (by decide) _)

theorem State.modSys_touch (s : State) (f : Sys → Sys) :
    onlyTouches [.sys] s (State.modSys s f) := by
  repeat' first
    | (exact (onlyTouches.refl _ _).put_sys (by decide) _)

theorem State.modTmb_touch (s : State) (f : Tmb → Tmb) :
    onlyTouches [.tmb] s (State.modTmb s f) := by
  repeat' first
    | (exact (onlyTouches.refl _ _).put_tmb (by decide) _)

theorem State.modCurve_touch (s : State) (f : Curve → Curve) :
    onlyTouches [.curve] s (State.modCurve s f) := by
  repeat' first
    | (exact (onlyTouches.refl _ _).put_curve (by decide) _)

theorem State.modCore_touch (s : State) (c : Fin 4) (f : Core → Core) :
    onlyTouches [.core] s (State.modCore s c f) := by
  repeat' first
    | (exact (onlyTouches.refl _ _).put_core (by decide) _)

theorem State.modPmc_touch (s : State) (f : Pmc → Pmc) :
    onlyTouches [.pmc] s (State.modPmc s f) := by
  repeat' first
    | (exact (onlyTouches.refl _ _).put_pmc (by decide) _)

theorem State.modCan_touch (s : State) (c : Fin 4) (f : Can → Can) :
    onlyTouches [.can] s (State.modCan s c f) := by
  repeat' first
    | (exact (onlyTouches.refl _ _).put_can (by decide) _)

theorem State.modNm_touch (s : State) (c : Fin 4) (f : Nm → Nm) :
    onlyTouches [.nm] s (State.modNm s c f) := by
  repeat' first
    | (exact (onlyTouches.refl _ _).put_nm (by decide) _)

theorem State.modHp_touch (s : State) (f : Hp → Hp) :
    onlyTouches [.hp] s (State.modHp s f) := by
  repeat' first
    | (exact (onlyTouches.refl _ _).put_hp (by decide) _)

theorem State.modPlk_touch (s : State) (f : Plk → Plk) :
    onlyTouches [.plk] s (State.modPlk s f) := by
  repeat' first
    | (exact (onlyTouches.refl _ _).put_plk (by decide) _)

theorem State.modDep_touch (s : State) (f : Dep → Dep) :
    onlyTouches [.dep] s (State.modDep s f) := by
  repeat' first
    | (exact (onlyTouches.refl _ _).put_dep (by decide) _)

theorem State.modNv_touch (s : State) (f : DepNv → DepNv) :
    onlyTouches [.nv] s (State.modNv s f) := by
  repeat' first
    | (exact (onlyTouches.refl _ _).put_nv (by decide) _)

theorem State.draw_touch (s : State) (w : Nat) :
    onlyTouches [.free] s (State.draw s w).2 := by
  unfold State.draw
  repeat' first
    | (with_reducible apply onlyTouches.refl)
    | (with_reducible apply onlyTouches.put_free; (case m => decide))

theorem State.emitAt_touch (s : State) (t src code : Nat) (arg : W32) :
    onlyTouches [.fab] s (State.emitAt s t src code arg) := by
  unfold State.emitAt
  repeat' first
    | (with_reducible apply onlyTouches.refl)
    | (with_reducible apply onlyTouches.put_fab; (case m => decide))

theorem State.emit_touch (s : State) (src code : Nat) (arg : W32) :
    onlyTouches [.fab] s (State.emit s src code arg) := by
  unfold State.emit
  repeat' first
    | (with_reducible apply onlyTouches.refl)
    | (with_reducible show onlyTouches _ _ (State.emitAt ..); refine onlyTouches.trans ?_ (State.emitAt_touch ..) ?sub; (case sub => decide))

theorem State.toAdm_touch (s : State) (m : AdmIn) :
    onlyTouches [.adm] s (State.toAdm s m) := by
  unfold State.toAdm
  repeat' first
    | (with_reducible apply onlyTouches.refl)
    | (with_reducible show onlyTouches _ _ (State.modAdm ..); refine onlyTouches.trans ?_ (State.modAdm_touch ..) ?sub; (case sub => decide))

theorem State.emitAdm_touch (s : State) (src code : Nat) (arg : W32) (m : AdmIn) :
    onlyTouches [.fab, .adm] s (State.emitAdm s src code arg m) := by
  unfold State.emitAdm
  repeat' first
    | (with_reducible apply onlyTouches.refl)
    | (with_reducible show onlyTouches _ _ (State.emit ..); refine onlyTouches.trans ?_ (State.emit_touch ..) ?sub; (case sub => decide))
    | (with_reducible show onlyTouches _ _ (State.toAdm ..); refine onlyTouches.trans ?_ (State.toAdm_touch ..) ?sub; (case sub => decide))
    | (with_reducible show onlyTouches _ _ (State.onlyIf ..); refine onlyTouches.onlyIf ?_ fun x => ?_)

theorem State.pmcWrapAt_touch (s : State) (t i : Nat) (ev : Bool) :
    onlyTouches [.fab, .pmc] s (State.pmcWrapAt s t i ev) := by
  unfold State.pmcWrapAt
  repeat' first
    | (with_reducible apply onlyTouches.refl)
    | (with_reducible show onlyTouches _ _ (State.emitAt ..); refine onlyTouches.trans ?_ (State.emitAt_touch ..) ?sub; (case sub => decide))
    | (with_reducible show onlyTouches _ _ (State.modPmc ..); refine onlyTouches.trans ?_ (State.modPmc_touch ..) ?sub; (case sub => decide))
    | (with_reducible show onlyTouches _ _ (State.onlyIf ..); refine onlyTouches.onlyIf ?_ fun x => ?_)

theorem State.pmcWrap_touch (s : State) (i : Nat) (ev : Bool) :
    onlyTouches [.fab, .pmc] s (State.pmcWrap s i ev) := by
  unfold State.pmcWrap
  repeat' first
    | (with_reducible apply onlyTouches.refl)
    | (with_reducible show onlyTouches _ _ (State.pmcWrapAt ..); refine onlyTouches.trans ?_ (State.pmcWrapAt_touch ..) ?sub; (case sub => decide))

theorem State.coreCount_touch (s : State) (c : Fin 4) (evt n : Nat) (k : Bool) :
    onlyTouches [.fab, .pmc] s (State.coreCount s c evt n k) := by
  unfold State.coreCount
  dsimp only
  repeat' first
    | (with_reducible apply onlyTouches.refl)
    | (with_reducible show onlyTouches _ _ (State.modPmc ..); refine onlyTouches.trans ?_ (State.modPmc_touch ..) ?sub; (case sub => decide))
    | (with_reducible show onlyTouches _ _ (State.pmcWrap ..); refine onlyTouches.trans ?_ (State.pmcWrap_touch ..) ?sub; (case sub => decide))
    | (with_reducible show onlyTouches _ _ (State.onlyIf ..); refine onlyTouches.onlyIf ?_ fun x => ?_)
    | (with_reducible show onlyTouches _ _ (forFin ..); refine onlyTouches.forFin ?_ fun i x => ?_)
    | (with_reducible apply onlyTouches.ite)

theorem State.fabCount_touch (s : State) (evt req n : Nat) :
    onlyTouches [.fab, .pmc] s (State.fabCount s evt req n) := by
  unfold State.fabCount
  dsimp only
  repeat' first
    | (with_reducible apply onlyTouches.refl)
    | (with_reducible show onlyTouches _ _ (State.modPmc ..); refine onlyTouches.trans ?_ (State.modPmc_touch ..) ?sub; (case sub => decide))
    | (with_reducible show onlyTouches _ _ (State.pmcWrap ..); refine onlyTouches.trans ?_ (State.pmcWrap_touch ..) ?sub; (case sub => decide))
    | (with_reducible show onlyTouches _ _ (State.onlyIf ..); refine onlyTouches.onlyIf ?_ fun x => ?_)
    | (with_reducible show onlyTouches _ _ (forFin ..); refine onlyTouches.forFin ?_ fun i x => ?_)
    | (with_reducible apply onlyTouches.ite)

theorem State.logAdd_touch (s : State) (r : LogRec) :
    onlyTouches [.dep, .nv] s (State.logAdd s r) := by
  unfold State.logAdd
  dsimp only
  repeat' first
    | (with_reducible apply onlyTouches.refl)
    | (with_reducible show onlyTouches _ _ (State.modDep ..); refine onlyTouches.trans ?_ (State.modDep_touch ..) ?sub; (case sub => decide))
    | (with_reducible show onlyTouches _ _ (State.modNv ..); refine onlyTouches.trans ?_ (State.modNv_touch ..) ?sub; (case sub => decide))
    | (with_reducible apply onlyTouches.ite)

theorem State.logOwn_touch (s : State) (code : Nat) (arg : W32) :
    onlyTouches [.dep, .nv] s (State.logOwn s code arg) := by
  unfold State.logOwn
  repeat' first
    | (with_reducible apply onlyTouches.refl)
    | (with_reducible show onlyTouches _ _ (State.logAdd ..); refine onlyTouches.trans ?_ (State.logAdd_touch ..) ?sub; (case sub => decide))

theorem State.logOwnFree_touch (s : State) :
    onlyTouches [.dep, .nv, .free] s (State.logOwnFree s) := by
  unfold State.logOwnFree
  dsimp only
  repeat' first
    | (with_reducible apply onlyTouches.refl)
    | (with_reducible show onlyTouches _ _ (State.draw ..).2; refine onlyTouches.trans ?_ (State.draw_touch ..) ?sub; (case sub => decide))
    | (with_reducible show onlyTouches _ _ (State.logOwn ..); refine onlyTouches.trans ?_ (State.logOwn_touch ..) ?sub; (case sub => decide))

theorem State.wakeReq_touch (s : State) (src : Nat) :
    onlyTouches [.pwr] s (State.wakeReq s src) := by
  unfold State.wakeReq
  dsimp only
  repeat' first
    | (with_reducible apply onlyTouches.refl)
    | (with_reducible show onlyTouches _ _ (State.modPwr ..); refine onlyTouches.trans ?_ (State.modPwr_touch ..) ?sub; (case sub => decide))
    | (with_reducible apply onlyTouches.ite)
    | (split)

theorem State.hubTake_touch (s : State) (r : EvRec) :
    onlyTouches [.fab, .pwr, .pmc] s (State.hubTake s r) := by
  unfold State.hubTake
  dsimp only
  repeat' first
    | (with_reducible apply onlyTouches.refl)
    | (with_reducible show onlyTouches _ _ (State.fabCount ..); refine onlyTouches.trans ?_ (State.fabCount_touch ..) ?sub; (case sub => decide))
    | (with_reducible show onlyTouches _ _ (State.wakeReq ..); refine onlyTouches.trans ?_ (State.wakeReq_touch ..) ?sub; (case sub => decide))
    | (with_reducible show onlyTouches _ _ (State.onlyIf ..); refine onlyTouches.onlyIf ?_ fun x => ?_)
    | (with_reducible apply onlyTouches.ite)
    | (split)
    | (with_reducible apply onlyTouches.put_fab; (case m => decide))

theorem State.pull_touch (s : State) (i : Nat) :
    onlyTouches [.fab, .pwr, .pmc] s (State.pull s i) := by
  unfold State.pull
  dsimp only
  repeat' first
    | (with_reducible apply onlyTouches.refl)
    | (with_reducible show onlyTouches _ _ (State.hubTake ..); refine onlyTouches.trans ?_ (State.hubTake_touch ..) ?sub; (case sub => decide))
    | (with_reducible apply onlyTouches.ite)
    | (split)
    | (with_reducible apply onlyTouches.put_fab; (case m => decide))

theorem State.pullAll_touch (i k : Nat) (s : State) : onlyTouches [.fab, .pwr, .pmc] s (State.pullAll i k s) := by
  induction k generalizing s with
  | zero => exact onlyTouches.refl _ _
  | succ k ih =>
    unfold State.pullAll; split
    · exact (State.pull_touch s i).step (ih _)
    · exact onlyTouches.refl _ _

theorem State.drain_touch (s : State) :
    onlyTouches [.fab, .pwr, .pmc] s (State.drain s) := by
  unfold State.drain
  repeat' first
    | (with_reducible apply onlyTouches.refl)
    | (with_reducible show onlyTouches _ _ (State.pullAll ..); refine onlyTouches.trans ?_ (State.pullAll_touch ..) ?sub; (case sub => decide))
    | (with_reducible show onlyTouches _ _ (List.foldl ..); refine onlyTouches.foldl (fun x a => ?_) _ ?_)

theorem State.emitWraps_touch (l : List (Nat × Nat × Bool)) (s : State) :
    onlyTouches [.fab, .pwr, .pmc] s (State.emitWraps l s) := by
  induction l generalizing s with
  | nil => exact onlyTouches.refl _ _
  | cons x r ih => exact (((State.pmcWrapAt_touch ..).mono (by decide)).step ((State.pullAll_touch ..).mono (by decide))).step (ih _)

theorem State.pmcRun_touch (s : State) (us : Nat) :
    onlyTouches [.fab, .pwr, .pmc] s (State.pmcRun s us) := by
  unfold State.pmcRun
  dsimp only
  repeat' first
    | (with_reducible apply onlyTouches.refl)
    | (with_reducible show onlyTouches _ _ (State.emitWraps ..); refine onlyTouches.trans ?_ (State.emitWraps_touch ..) ?sub; (case sub => decide))
    | (with_reducible show onlyTouches _ _ (State.modPmc ..); refine onlyTouches.trans ?_ (State.modPmc_touch ..) ?sub; (case sub => decide))

theorem State.upsets_touch (s : State) :
    onlyTouches [.ecc, .free] s (State.upsets s) := by
  unfold State.upsets
  repeat' first
    | (with_reducible apply onlyTouches.refl)
    | (with_reducible apply onlyTouches.put_ecc_free; (case m => decide))

theorem State.advanceTo_touch (s : State) (t : Nat) :
    onlyTouches [.tmb, .fab, .pwr, .ecc, .pmc, .dep, .nv, .free] s (State.advanceTo s t) := by
  unfold State.advanceTo
  dsimp only
  repeat' first
    | (with_reducible apply onlyTouches.refl)
    | (with_reducible show onlyTouches _ _ (State.drain ..); refine onlyTouches.trans ?_ (State.drain_touch ..) ?sub; (case sub => decide))
    | (with_reducible show onlyTouches _ _ (State.logOwnFree ..); refine onlyTouches.trans ?_ (State.logOwnFree_touch ..) ?sub; (case sub => decide))
    | (with_reducible show onlyTouches _ _ (State.modTmb ..); refine onlyTouches.trans ?_ (State.modTmb_touch ..) ?sub; (case sub => decide))
    | (with_reducible show onlyTouches _ _ (State.pmcRun ..); refine onlyTouches.trans ?_ (State.pmcRun_touch ..) ?sub; (case sub => decide))
    | (with_reducible show onlyTouches _ _ (State.upsets ..); refine onlyTouches.trans ?_ (State.upsets_touch ..) ?sub; (case sub => decide))
    | (with_reducible show onlyTouches _ _ (State.onlyIf ..); refine onlyTouches.onlyIf ?_ fun x => ?_)
    | (with_reducible apply onlyTouches.ite)

end Sys2Proof.Machine
end

