-- ==== Sys2Proof/Laws/TouchMem.lean ====
section
/-! SUPPORT. The parts of State that each operation of Machine/Mem.lean changes. -/

namespace Sys2Proof.Machine

theorem State.coreHolds_touch (s : State) :
    onlyTouches [.pwr] s (State.coreHolds s) := by
  unfold State.coreHolds
  repeat' first
    | (with_reducible apply onlyTouches.refl)
    | (with_reducible show onlyTouches _ _ (State.wakeReq ..); refine onlyTouches.trans ?_ (State.wakeReq_touch ..) ?sub; (case sub => decide))

theorem State.eccReport_touch (s : State) (w : Nat) (ue : Bool) (req : Req) :
    onlyTouches [.fab, .pwr, .sys, .pmc] s (State.eccReport s w ue req) := by
  unfold State.eccReport
  dsimp only
  repeat' first
    | (with_reducible apply onlyTouches.refl)
    | (with_reducible show onlyTouches _ _ (State.coreHolds ..); refine onlyTouches.trans ?_ (State.coreHolds_touch ..) ?sub; (case sub => decide))
    | (with_reducible show onlyTouches _ _ (State.emit ..); refine onlyTouches.trans ?_ (State.emit_touch ..) ?sub; (case sub => decide))
    | (with_reducible show onlyTouches _ _ (State.fabCount ..); refine onlyTouches.trans ?_ (State.fabCount_touch ..) ?sub; (case sub => decide))
    | (with_reducible show onlyTouches _ _ (State.modSys ..); refine onlyTouches.trans ?_ (State.modSys_touch ..) ?sub; (case sub => decide))
    | (with_reducible show onlyTouches _ _ (State.onlyIf ..); refine onlyTouches.onlyIf ?_ fun x => ?_)
    | (with_reducible apply onlyTouches.ite)

theorem State.eccRelease_touch (s : State) :
    onlyTouches [.sys] s (State.eccRelease s) := by
  unfold State.eccRelease
  repeat' first
    | (with_reducible apply onlyTouches.refl)
    | (with_reducible show onlyTouches _ _ (State.modSys ..); refine onlyTouches.trans ?_ (State.modSys_touch ..) ?sub; (case sub => decide))

theorem State.bulkCount_touch (s : State) (a : Nat) (req : Req) :
    onlyTouches [.fab, .pmc, .free] s (State.bulkCount s a req) := by
  unfold State.bulkCount
  dsimp only
  repeat' first
    | (with_reducible apply onlyTouches.refl)
    | (with_reducible show onlyTouches _ _ (State.draw ..).2; refine onlyTouches.trans ?_ (State.draw_touch ..) ?sub; (case sub => decide))
    | (with_reducible show onlyTouches _ _ (State.fabCount ..); refine onlyTouches.trans ?_ (State.fabCount_touch ..) ?sub; (case sub => decide))
    | (with_reducible show onlyTouches _ _ (State.onlyIf ..); refine onlyTouches.onlyIf ?_ fun x => ?_)

theorem State.eccRead_touch (s : State) (a : Nat) (req : Req) :
    onlyTouches [.fab, .pwr, .sys, .ecc, .pmc, .free] s (State.eccRead s a req).2 := by
  unfold State.eccRead
  dsimp only
  repeat' first
    | (with_reducible apply onlyTouches.refl)
    | (with_reducible show onlyTouches _ _ (State.bulkCount ..); refine onlyTouches.trans ?_ (State.bulkCount_touch ..) ?sub; (case sub => decide))
    | (with_reducible show onlyTouches _ _ (State.eccReport ..); refine onlyTouches.trans ?_ (State.eccReport_touch ..) ?sub; (case sub => decide))
    | (with_reducible apply onlyTouches.ite)
    | (split)
    | (with_reducible apply onlyTouches.put_ecc; (case m => decide))

theorem State.eccRange_touch (req : Req) (a n : Nat) (s : State) :
    onlyTouches [.fab, .pwr, .sys, .ecc, .pmc, .free] s (State.eccRange req a n s).2 := by
  induction n generalizing a s with
  | zero => exact onlyTouches.refl _ _
  | succ n ih => exact ((State.eccRead_touch s a req).mono (by decide)).step (ih _ _)

theorem State.storeBytes_touch (s : State) (a v n : Nat) (req : Req) :
    onlyTouches [.fab, .pwr, .sys, .mem, .ecc, .pmc, .free] s (State.storeBytes s a v n req).2 := by
  unfold State.storeBytes
  dsimp only
  repeat' first
    | (with_reducible apply onlyTouches.refl)
    | (with_reducible show onlyTouches _ _ (State.bulkCount ..); refine onlyTouches.trans ?_ (State.bulkCount_touch ..) ?sub; (case sub => decide))
    | (with_reducible show onlyTouches _ _ (State.eccRead ..).2; refine onlyTouches.trans ?_ (State.eccRead_touch ..) ?sub; (case sub => decide))
    | (with_reducible apply onlyTouches.ite)
    | (split)
    | (with_reducible apply onlyTouches.put_mem; (case m => decide))
    | (with_reducible apply onlyTouches.put_mem_ecc; (case m => decide))

theorem State.loadBytes_touch (s : State) (a n : Nat) (req : Req) :
    onlyTouches [.fab, .pwr, .sys, .ecc, .pmc, .free] s (State.loadBytes s a n req).2.2 := by
  unfold State.loadBytes
  dsimp only
  repeat' first
    | (with_reducible apply onlyTouches.refl)
    | (with_reducible show onlyTouches _ _ (State.eccRead ..).2; refine onlyTouches.trans ?_ (State.eccRead_touch ..) ?sub; (case sub => decide))

theorem State.storeWords_touch (req : Req) (a : Nat) (l : List Nat) (s : State) :
    onlyTouches [.fab, .pwr, .sys, .mem, .ecc, .pmc, .free] s (State.storeWords req a l s) := by
  induction l generalizing a s with
  | nil => exact onlyTouches.refl _ _
  | cons v r ih => exact ((State.storeBytes_touch s a v 4 req).mono (by decide)).step (ih _ _)

theorem State.storeStream_touch (req : Req) (a : Nat) (l : List W8) (s : State) :
    onlyTouches [.fab, .pwr, .sys, .mem, .ecc, .pmc, .free] s (State.storeStream req a l s) := by
  induction l generalizing a s with
  | nil => exact onlyTouches.refl _ _
  | cons v r ih => exact ((State.storeBytes_touch s a v.toNat 1 req).mono (by decide)).step (ih _ _)

end Sys2Proof.Machine
end

