-- ==== Sys2Proof/Laws/Memory.lean ====
section
/-! SUPPORT. Memory: every operation over it keeps its canonical form, reads back what was written, and leaves every
other byte alone. -/

namespace Sys2Proof.Machine

variable {m : List Host.Cell}

theorem memSet_wf (a : Nat) (v : W8) (h : Memory.wf m) : Memory.wf (memSet m a v) := swf_sset memDefault a v h

theorem memGet_memSet (a : Nat) (v : W8) (b : Nat) (h : Memory.wf m) :
    memGet (memSet m a v) b = if b = a then v else memGet m b := sget_sset memDefault a v b h

theorem memStore_wf : ∀ (n : Nat) {m : List Host.Cell} (a v : Nat), Memory.wf m → Memory.wf (memStore m a v n)
  | 0, _, _, _, h => h
  | n + 1, _, a, _, h => memStore_wf n _ _ (memSet_wf a _ h)

/-- A byte outside the range stored reads as before. -/
theorem memGet_memStore_of_lt : ∀ (n : Nat) {m : List Host.Cell} (a v b : Nat), Memory.wf m → b < a →
    memGet (memStore m a v n) b = memGet m b
  | 0, _, _, _, _, _, _ => rfl
  | n + 1, m, a, v, b, h, hb => by
    rw [memStore, memGet_memStore_of_lt n _ _ _ (memSet_wf a _ h) (by omega), memGet_memSet _ _ _ h, if_neg (by omega)]

theorem memGet_memStore_of_ge : ∀ (n : Nat) {m : List Host.Cell} (a v b : Nat), Memory.wf m → a + n ≤ b →
    memGet (memStore m a v n) b = memGet m b
  | 0, _, _, _, _, _, _ => rfl
  | n + 1, m, a, v, b, h, hb => by
    rw [memStore, memGet_memStore_of_ge n _ _ _ (memSet_wf a _ h) (by omega), memGet_memSet _ _ _ h, if_neg (by omega)]

/-- The bytes stored read back. -/
theorem memLoad_memStore : ∀ (n : Nat) {m : List Host.Cell} (a v : Nat), Memory.wf m →
    memLoad (memStore m a v n) a n = v % 256 ^ n
  | 0, _, _, v, _ => by simp [memLoad, Nat.mod_one]
  | n + 1, m, a, v, h => by
    have hw := memSet_wf a (BitVec.ofNat 8 v) h
    rw [memLoad, memStore, memGet_memStore_of_lt n _ _ _ hw (by omega), memGet_memSet _ _ _ h, if_pos rfl,
      memLoad_memStore n (a + 1) (v / 256) hw, BitVec.toNat_ofNat,
      show 256 ^ (n + 1) = 256 * 256 ^ n from Nat.pow_succ', Nat.mod_mul]

theorem memErase_wf (lo hi : Nat) (h : Memory.wf m) : Memory.wf (memErase m lo hi) := swf_filter memDefault _ h

theorem memGet_memErase (lo hi b : Nat) (h : Memory.wf m) :
    memGet (memErase m lo hi) b = if lo ≤ b ∧ b < hi then memDefault b else memGet m b := by
  have := sget_filter memDefault (fun k => decide (k < lo) || decide (hi ≤ k)) b h
  rw [memGet, memErase, serase, this]
  by_cases hb : lo ≤ b ∧ b < hi
  · rw [if_pos hb, if_neg (by simp; omega)]
  · rw [if_neg hb, if_pos (by simp; omega)]; rfl

theorem dropRam_wf (keep_ : Nat → Bool) (h : Memory.wf m) : Memory.wf (dropRam m keep_) := by
  unfold dropRam
  generalize List.range 16 = l
  have h1 : Memory.wf (memErase m bulkBase bulkEnd) := memErase_wf _ _ h
  revert h1
  generalize memErase m bulkBase bulkEnd = x
  induction l generalizing x with
  | nil => exact fun h => h
  | cons n l ih =>
    intro hx
    refine ih _ ?_
    dsimp only
    split
    · exact hx
    · exact memErase_wf _ _ hx

theorem State.storeBytes_wf (s : State) (a v n : Nat) (req : Req) (h : Memory.wf s.mem) :
    Memory.wf (s.storeBytes a v n req).2.mem := by
  have hr : ∀ w, (s.eccRead w req).2.mem = s.mem := fun w => (State.eccRead_touch s w req).same .mem (by decide)
  have hb : (s.bulkCount a req).mem = s.mem := (State.bulkCount_touch s a req).same .mem (by decide)
  unfold State.storeBytes
  split
  · simp only [hb]; exact memStore_wf 4 _ _ h
  · dsimp only
    split
    · simp only [hr]; exact memStore_wf n _ _ h
    · rw [hr]; exact h

theorem State.storeWords_wf (req : Req) : ∀ (l : List Nat) (a : Nat) (s : State), Memory.wf s.mem →
    Memory.wf (State.storeWords req a l s).mem
  | [], _, _, h => h
  | _ :: l, a, s, h => State.storeWords_wf req l (a + 4) _ (State.storeBytes_wf s a _ 4 req h)

theorem State.storeStream_wf (req : Req) : ∀ (l : List W8) (a : Nat) (s : State), Memory.wf s.mem →
    Memory.wf (State.storeStream req a l s).mem
  | [], _, _, h => h
  | _ :: l, a, s, h => State.storeStream_wf req l (a + 1) _ (State.storeBytes_wf s a _ 1 req h)

/-- The state after reset holds canonical tables. -/
theorem reset_canonical : State.reset.canonical := by
  refine ⟨rfl, rfl, rfl⟩

/-- A curve entry written keeps the curve store canonical. -/
theorem curve_wf (ent : Sparse W32) (i : Nat) (v : W32) (h : swf (fun _ => (0 : W32)) ent = true) :
    swf (fun _ => (0 : W32)) (sset (fun _ => 0) i v ent) = true := swf_sset _ i v h

end Sys2Proof.Machine
end

