-- ==== Sys2Proof/Laws/TouchCurveOps.lean ====
section
/-! SUPPORT. The parts of State that each operation of Machine/CurveOps.lean changes. -/

namespace Sys2Proof.Machine

theorem State.curveWrite_touch (s : State) (i : Nat) (v : W32) :
    onlyTouches [.curve] s (State.curveWrite s i v) := by
  unfold State.curveWrite
  repeat' first
    | (with_reducible apply onlyTouches.refl)
    | (with_reducible show onlyTouches _ _ (State.modCurve ..); refine onlyTouches.trans ?_ (State.modCurve_touch ..) ?sub; (case sub => decide))
    | (with_reducible apply onlyTouches.ite)

theorem State.curveBlockWrite_touch (s : State) (off : Nat) (v : W32) :
    onlyTouches [.curve] s (State.curveBlockWrite s off v) := by
  unfold State.curveBlockWrite
  repeat' first
    | (with_reducible apply onlyTouches.refl)
    | (with_reducible show onlyTouches _ _ (State.curveWrite ..); refine onlyTouches.trans ?_ (State.curveWrite_touch ..) ?sub; (case sub => decide))
    | (with_reducible show onlyTouches _ _ (State.modCurve ..); refine onlyTouches.trans ?_ (State.modCurve_touch ..) ?sub; (case sub => decide))
    | (with_reducible apply onlyTouches.ite)

end Sys2Proof.Machine
end

