-- ==== Sys2Proof/Laws/TouchDigitiser.lean ====
section
/-! SUPPORT. The parts of State that each operation of Machine/Digitiser.lean changes. -/

namespace Sys2Proof.Machine

theorem State.setTj_touch (s : State) (t : Fin 67) (tj : Int) :
    onlyTouches [.hs, .vg, .ls] s (State.setTj s t tj) := by
  unfold State.setTj
  dsimp only
  repeat' first
    | (with_reducible apply onlyTouches.refl)
    | (with_reducible show onlyTouches _ _ (State.modHs ..); refine onlyTouches.trans ?_ (State.modHs_touch ..) ?sub; (case sub => decide))
    | (with_reducible show onlyTouches _ _ (State.modLs ..); refine onlyTouches.trans ?_ (State.modLs_touch ..) ?sub; (case sub => decide))
    | (with_reducible show onlyTouches _ _ (State.modVg ..); refine onlyTouches.trans ?_ (State.modVg_touch ..) ?sub; (case sub => decide))
    | (with_reducible apply onlyTouches.ite)
    | (with_reducible apply onlyTouches.dite <;> intro h)

theorem State.calLoad_touch (s : State) (t : Fin 67) :
    onlyTouches [.fab, .dig] s (State.calLoad s t) := by
  unfold State.calLoad
  dsimp only
  repeat' first
    | (with_reducible apply onlyTouches.refl)
    | (with_reducible show onlyTouches _ _ (State.emit ..); refine onlyTouches.trans ?_ (State.emit_touch ..) ?sub; (case sub => decide))
    | (with_reducible show onlyTouches _ _ (State.modDig ..); refine onlyTouches.trans ?_ (State.modDig_touch ..) ?sub; (case sub => decide))
    | (with_reducible apply onlyTouches.ite)

theorem State.capDone_touch (s : State) (t : Fin 67) :
    onlyTouches [.fab] s (State.capDone s t) := by
  unfold State.capDone
  dsimp only
  repeat' first
    | (with_reducible apply onlyTouches.refl)
    | (with_reducible show onlyTouches _ _ (State.emit ..); refine onlyTouches.trans ?_ (State.emit_touch ..) ?sub; (case sub => decide))

theorem State.capTrigger_touch (s : State) (t : Fin 67) (trg : Nat) :
    onlyTouches [.dig] s (State.capTrigger s t trg) := by
  unfold State.capTrigger
  repeat' first
    | (with_reducible apply onlyTouches.refl)
    | (with_reducible show onlyTouches _ _ (State.modDig ..); refine onlyTouches.trans ?_ (State.modDig_touch ..) ?sub; (case sub => decide))

theorem State.capArm_touch (s : State) (t : Fin 67) :
    onlyTouches [.dig] s (State.capArm s t) := by
  unfold State.capArm
  dsimp only
  repeat' first
    | (with_reducible apply onlyTouches.refl)
    | (with_reducible show onlyTouches _ _ (State.modDig ..); refine onlyTouches.trans ?_ (State.modDig_touch ..) ?sub; (case sub => decide))

theorem State.storeRecs_touch (a : Nat) (l : List W16) (s : State) : onlyTouches [.fab, .pwr, .sys, .mem, .ecc, .pmc, .free] s (State.storeRecs a l s) := by
  match l with
  | [] => exact onlyTouches.refl _ _
  | [x] => exact (State.storeBytes_touch s a x.toNat 2 5).mono (by decide)
  | x :: y :: r =>
    exact ((State.storeBytes_touch s a (x.toNat + 65536 * y.toNat) 4 5).mono (by decide)).step (State.storeRecs_touch _ r _)

theorem State.capWrite_touch (s : State) (t : Fin 67) (k : Nat) :
    onlyTouches [.fab, .dig, .pwr, .sys, .mem, .ecc, .pmc, .free] s (State.capWrite s t k) := by
  unfold State.capWrite
  dsimp only
  repeat' first
    | (with_reducible apply onlyTouches.refl)
    | (with_reducible show onlyTouches _ _ (State.modDig ..); refine onlyTouches.trans ?_ (State.modDig_touch ..) ?sub; (case sub => decide))
    | (with_reducible show onlyTouches _ _ (State.storeRecs ..); refine onlyTouches.trans ?_ (State.storeRecs_touch ..) ?sub; (case sub => decide))

theorem State.capBurst_touch (s : State) (t : Fin 67) :
    onlyTouches [.fab, .dig, .pwr, .sys, .mem, .ecc, .pmc, .free] s (State.capBurst s t) := by
  unfold State.capBurst
  dsimp only
  repeat' first
    | (with_reducible apply onlyTouches.refl)
    | (with_reducible show onlyTouches _ _ (State.capDone ..); refine onlyTouches.trans ?_ (State.capDone_touch ..) ?sub; (case sub => decide))
    | (with_reducible show onlyTouches _ _ (State.capWrite ..); refine onlyTouches.trans ?_ (State.capWrite_touch ..) ?sub; (case sub => decide))
    | (with_reducible show onlyTouches _ _ (State.modDig ..); refine onlyTouches.trans ?_ (State.modDig_touch ..) ?sub; (case sub => decide))
    | (with_reducible apply onlyTouches.ite)

theorem State.capDisarm_touch (s : State) (t : Fin 67) :
    onlyTouches [.fab, .dig, .pwr, .sys, .mem, .ecc, .pmc, .free] s (State.capDisarm s t) := by
  unfold State.capDisarm
  dsimp only
  repeat' first
    | (with_reducible apply onlyTouches.refl)
    | (with_reducible show onlyTouches _ _ (State.capDone ..); refine onlyTouches.trans ?_ (State.capDone_touch ..) ?sub; (case sub => decide))
    | (with_reducible show onlyTouches _ _ (State.capWrite ..); refine onlyTouches.trans ?_ (State.capWrite_touch ..) ?sub; (case sub => decide))
    | (with_reducible show onlyTouches _ _ (State.modDig ..); refine onlyTouches.trans ?_ (State.modDig_touch ..) ?sub; (case sub => decide))
    | (with_reducible apply onlyTouches.ite)
    | (split)

theorem State.capTrig_touch (s : State) (t : Fin 67) :
    onlyTouches [.dig] s (State.capTrig s t) := by
  unfold State.capTrig
  repeat' first
    | (with_reducible apply onlyTouches.refl)
    | (with_reducible show onlyTouches _ _ (State.modDig ..); refine onlyTouches.trans ?_ (State.modDig_touch ..) ?sub; (case sub => decide))

theorem State.zeroCmd_touch (s : State) (t : Fin 67) :
    onlyTouches [.dig] s (State.zeroCmd s t) := by
  unfold State.zeroCmd
  repeat' first
    | (with_reducible apply onlyTouches.refl)
    | (with_reducible show onlyTouches _ _ (State.modDig ..); refine onlyTouches.trans ?_ (State.modDig_touch ..) ?sub; (case sub => decide))
    | (with_reducible apply onlyTouches.ite)

theorem State.zeroAbort_touch (s : State) (t : Fin 67) :
    onlyTouches [.dig] s (State.zeroAbort s t) := by
  unfold State.zeroAbort
  repeat' first
    | (with_reducible apply onlyTouches.refl)
    | (with_reducible show onlyTouches _ _ (State.modDig ..); refine onlyTouches.trans ?_ (State.modDig_touch ..) ?sub; (case sub => decide))

theorem State.zeroDone_touch (s : State) (t : Fin 67) :
    onlyTouches [.fab, .dig] s (State.zeroDone s t) := by
  unfold State.zeroDone
  dsimp only
  repeat' first
    | (with_reducible apply onlyTouches.refl)
    | (with_reducible show onlyTouches _ _ (State.emit ..); refine onlyTouches.trans ?_ (State.emit_touch ..) ?sub; (case sub => decide))
    | (with_reducible show onlyTouches _ _ (State.modDig ..); refine onlyTouches.trans ?_ (State.modDig_touch ..) ?sub; (case sub => decide))
    | (with_reducible apply onlyTouches.ite)

theorem State.sample_touch (s : State) (t : Fin 67) (raw tj : Int) :
    onlyTouches [.fab, .hs, .dig, .vg, .ls] s (State.sample s t raw tj) := by
  unfold State.sample
  dsimp only
  repeat' first
    | (with_reducible apply onlyTouches.refl)
    | (with_reducible show onlyTouches _ _ (State.capDone ..); refine onlyTouches.trans ?_ (State.capDone_touch ..) ?sub; (case sub => decide))
    | (with_reducible show onlyTouches _ _ (State.modDig ..); refine onlyTouches.trans ?_ (State.modDig_touch ..) ?sub; (case sub => decide))
    | (with_reducible show onlyTouches _ _ (State.setTj ..); refine onlyTouches.trans ?_ (State.setTj_touch ..) ?sub; (case sub => decide))
    | (with_reducible apply onlyTouches.ite)

theorem State.msSend_touch (s : State) (t : Fin 67) :
    onlyTouches [.tmb, .fab, .dig, .adm, .pwr, .ecc, .pmc, .dep, .nv, .free] s (State.msSend s t) := by
  unfold State.msSend
  dsimp only
  repeat' first
    | (with_reducible apply onlyTouches.refl)
    | (with_reducible show onlyTouches _ _ (State.advanceTo ..); refine onlyTouches.trans ?_ (State.advanceTo_touch ..) ?sub; (case sub => decide))
    | (with_reducible show onlyTouches _ _ (State.modDig ..); refine onlyTouches.trans ?_ (State.modDig_touch ..) ?sub; (case sub => decide))
    | (with_reducible show onlyTouches _ _ (State.toAdm ..); refine onlyTouches.trans ?_ (State.toAdm_touch ..) ?sub; (case sub => decide))
    | (with_reducible apply onlyTouches.ite)

theorem State.snapCmd_touch (s : State) (snap gtrig : Bool) :
    onlyTouches [.dig, .meas] s (State.snapCmd s snap gtrig) := by
  unfold State.snapCmd
  dsimp only
  repeat' first
    | (with_reducible apply onlyTouches.refl)
    | (with_reducible show onlyTouches _ _ (State.modDig ..); refine onlyTouches.trans ?_ (State.modDig_touch ..) ?sub; (case sub => decide))
    | (with_reducible show onlyTouches _ _ (State.onlyIf ..); refine onlyTouches.onlyIf ?_ fun x => ?_)
    | (with_reducible show onlyTouches _ _ (forFin ..); refine onlyTouches.forFin ?_ fun i x => ?_)
    | (with_reducible apply onlyTouches.ite)
    | (split)
    | (with_reducible apply onlyTouches.put_meas; (case m => decide))

theorem State.snapLatch_touch (s : State) (t : Fin 67) (late : Bool) :
    onlyTouches [.tmb, .fab, .dig, .pwr, .ecc, .pmc, .dep, .nv, .free] s (State.snapLatch s t late) := by
  unfold State.snapLatch
  dsimp only
  repeat' first
    | (with_reducible apply onlyTouches.refl)
    | (with_reducible show onlyTouches _ _ (State.advanceTo ..); refine onlyTouches.trans ?_ (State.advanceTo_touch ..) ?sub; (case sub => decide))
    | (with_reducible show onlyTouches _ _ (State.capTrigger ..); refine onlyTouches.trans ?_ (State.capTrigger_touch ..) ?sub; (case sub => decide))
    | (with_reducible show onlyTouches _ _ (State.modDig ..); refine onlyTouches.trans ?_ (State.modDig_touch ..) ?sub; (case sub => decide))
    | (with_reducible apply onlyTouches.ite)
    | (split)

theorem State.digWrite_touch (s : State) (t : Fin 67) (off : Nat) (v : W32) (ctlMask : Nat) :
    onlyTouches [.fab, .dig, .pwr, .sys, .mem, .ecc, .pmc, .free] s (State.digWrite s t off v ctlMask) := by
  unfold State.digWrite
  repeat' first
    | (with_reducible apply onlyTouches.refl)
    | (with_reducible show onlyTouches _ _ (State.capArm ..); refine onlyTouches.trans ?_ (State.capArm_touch ..) ?sub; (case sub => decide))
    | (with_reducible show onlyTouches _ _ (State.capDisarm ..); refine onlyTouches.trans ?_ (State.capDisarm_touch ..) ?sub; (case sub => decide))
    | (with_reducible show onlyTouches _ _ (State.capTrig ..); refine onlyTouches.trans ?_ (State.capTrig_touch ..) ?sub; (case sub => decide))
    | (with_reducible show onlyTouches _ _ (State.modDig ..); refine onlyTouches.trans ?_ (State.modDig_touch ..) ?sub; (case sub => decide))
    | (with_reducible show onlyTouches _ _ (State.zeroCmd ..); refine onlyTouches.trans ?_ (State.zeroCmd_touch ..) ?sub; (case sub => decide))
    | (with_reducible show onlyTouches _ _ (State.onlyIf ..); refine onlyTouches.onlyIf ?_ fun x => ?_)
    | (with_reducible apply onlyTouches.ite)
    | (split)

end Sys2Proof.Machine
end

