-- ==== Sys2Proof/Laws/TouchEstimators.lean ====
section
/-! SUPPORT. The parts of State that each operation of Machine/Estimators.lean changes. -/

namespace Sys2Proof.Machine

theorem State.modEst_touch (s : State) (n : Fin 48) (f : Est → Est) :
    onlyTouches [.hs] s (State.modEst s n f) := by
  unfold State.modEst
  repeat' first
    | (with_reducible apply onlyTouches.refl)
    | (with_reducible show onlyTouches _ _ (State.modHs ..); refine onlyTouches.trans ?_ (State.modHs_touch ..) ?sub; (case sub => decide))

theorem State.putEst_touch (s : State) (n : Fin 48) (r : Est × Bool) :
    onlyTouches [.fab, .hs] s (State.putEst s n r) := by
  unfold State.putEst
  dsimp only
  repeat' first
    | (with_reducible apply onlyTouches.refl)
    | (with_reducible show onlyTouches _ _ (State.emitAt ..); refine onlyTouches.trans ?_ (State.emitAt_touch ..) ?sub; (case sub => decide))
    | (with_reducible show onlyTouches _ _ (State.modEst ..); refine onlyTouches.trans ?_ (State.modEst_touch ..) ?sub; (case sub => decide))
    | (with_reducible apply onlyTouches.ite)

theorem State.estSample_touch (s : State) (n : Fin 48) :
    onlyTouches [.fab, .hs] s (State.estSample s n) := by
  unfold State.estSample
  dsimp only
  repeat' first
    | (with_reducible apply onlyTouches.refl)
    | (with_reducible show onlyTouches _ _ (State.putEst ..); refine onlyTouches.trans ?_ (State.putEst_touch ..) ?sub; (case sub => decide))

theorem State.settleTimeout_touch (s : State) (n : Fin 48) :
    onlyTouches [.tmb, .fab, .hs, .pwr, .ecc, .pmc, .dep, .nv, .free] s (State.settleTimeout s n) := by
  unfold State.settleTimeout
  dsimp only
  repeat' first
    | (with_reducible apply onlyTouches.refl)
    | (with_reducible show onlyTouches _ _ (State.advanceTo ..); refine onlyTouches.trans ?_ (State.advanceTo_touch ..) ?sub; (case sub => decide))
    | (with_reducible show onlyTouches _ _ (State.emit ..); refine onlyTouches.trans ?_ (State.emit_touch ..) ?sub; (case sub => decide))
    | (with_reducible show onlyTouches _ _ (State.modEst ..); refine onlyTouches.trans ?_ (State.modEst_touch ..) ?sub; (case sub => decide))
    | (with_reducible apply onlyTouches.ite)

theorem State.steadyClose_touch (s : State) (n : Fin 48) :
    onlyTouches [.tmb, .fab, .hs, .pwr, .ecc, .pmc, .dep, .nv, .free] s (State.steadyClose s n) := by
  unfold State.steadyClose
  dsimp only
  repeat' first
    | (with_reducible apply onlyTouches.refl)
    | (with_reducible show onlyTouches _ _ (State.advanceTo ..); refine onlyTouches.trans ?_ (State.advanceTo_touch ..) ?sub; (case sub => decide))
    | (with_reducible show onlyTouches _ _ (State.emit ..); refine onlyTouches.trans ?_ (State.emit_touch ..) ?sub; (case sub => decide))
    | (with_reducible show onlyTouches _ _ (State.modEst ..); refine onlyTouches.trans ?_ (State.modEst_touch ..) ?sub; (case sub => decide))
    | (with_reducible apply onlyTouches.ite)

theorem State.padSample_touch (s : State) (n : Fin 48) (mv : Int) :
    onlyTouches [.tmb, .fab, .hs, .pwr, .ecc, .pmc, .dep, .nv, .free] s (State.padSample s n mv) := by
  unfold State.padSample
  dsimp only
  repeat' first
    | (with_reducible apply onlyTouches.refl)
    | (with_reducible show onlyTouches _ _ (State.advanceTo ..); refine onlyTouches.trans ?_ (State.advanceTo_touch ..) ?sub; (case sub => decide))
    | (with_reducible show onlyTouches _ _ (State.modEst ..); refine onlyTouches.trans ?_ (State.modEst_touch ..) ?sub; (case sub => decide))
    | (with_reducible show onlyTouches _ _ (State.putEst ..); refine onlyTouches.trans ?_ (State.putEst_touch ..) ?sub; (case sub => decide))
    | (with_reducible apply onlyTouches.ite)

theorem State.trendOne_touch (s : State) (n : Fin 48) (q : Nat) (en : Bool) (get : Est → Trend) (put : Est → Trend → Est) :
    onlyTouches [.fab, .hs] s (State.trendOne s n q en get put) := by
  unfold State.trendOne
  dsimp only
  repeat' first
    | (with_reducible apply onlyTouches.refl)
    | (with_reducible show onlyTouches _ _ (State.emit ..); refine onlyTouches.trans ?_ (State.emit_touch ..) ?sub; (case sub => decide))
    | (with_reducible show onlyTouches _ _ (State.modEst ..); refine onlyTouches.trans ?_ (State.modEst_touch ..) ?sub; (case sub => decide))
    | (with_reducible apply onlyTouches.ite)

theorem State.trendUpdate_touch (s : State) (n : Fin 48) :
    onlyTouches [.tmb, .fab, .hs, .pwr, .ecc, .pmc, .dep, .nv, .free] s (State.trendUpdate s n) := by
  unfold State.trendUpdate
  dsimp only
  repeat' first
    | (with_reducible apply onlyTouches.refl)
    | (with_reducible show onlyTouches _ _ (State.advanceTo ..); refine onlyTouches.trans ?_ (State.advanceTo_touch ..) ?sub; (case sub => decide))
    | (with_reducible show onlyTouches _ _ (State.modEst ..); refine onlyTouches.trans ?_ (State.modEst_touch ..) ?sub; (case sub => decide))
    | (with_reducible show onlyTouches _ _ (State.trendOne ..); refine onlyTouches.trans ?_ (State.trendOne_touch ..) ?sub; (case sub => decide))
    | (with_reducible apply onlyTouches.ite)

theorem State.trReset_touch (s : State) (n : Fin 48) :
    onlyTouches [.hs] s (State.trReset s n) := by
  unfold State.trReset
  dsimp only
  repeat' first
    | (with_reducible apply onlyTouches.refl)
    | (with_reducible show onlyTouches _ _ (State.modEst ..); refine onlyTouches.trans ?_ (State.modEst_touch ..) ?sub; (case sub => decide))

theorem State.trLong_touch (s : State) (n : Fin 48) (q : Fin 3) (v : Nat) :
    onlyTouches [.hs] s (State.trLong s n q v) := by
  unfold State.trLong
  dsimp only
  repeat' first
    | (with_reducible apply onlyTouches.refl)
    | (with_reducible show onlyTouches _ _ (State.modEst ..); refine onlyTouches.trans ?_ (State.modEst_touch ..) ?sub; (case sub => decide))

theorem State.estWrite_touch (s : State) (n : Fin 48) (off : Nat) (v : W32) :
    onlyTouches [.hs] s (State.estWrite s n off v) := by
  unfold State.estWrite
  repeat' first
    | (with_reducible apply onlyTouches.refl)
    | (with_reducible show onlyTouches _ _ (State.modEst ..); refine onlyTouches.trans ?_ (State.modEst_touch ..) ?sub; (case sub => decide))
    | (with_reducible show onlyTouches _ _ (State.trLong ..); refine onlyTouches.trans ?_ (State.trLong_touch ..) ?sub; (case sub => decide))
    | (split)

end Sys2Proof.Machine
end

