-- ==== Sys2Proof/Laws/TouchHighSide.lean ====
section
/-! SUPPORT. The parts of State that each operation of Machine/HighSide.lean changes. -/

namespace Sys2Proof.Machine

theorem State.parkWake_touch (s : State) (n : Fin 48) :
    onlyTouches [.pwr] s (State.parkWake s n) := by
  unfold State.parkWake
  repeat' first
    | (with_reducible apply onlyTouches.refl)
    | (with_reducible show onlyTouches _ _ (State.wakeReq ..); refine onlyTouches.trans ?_ (State.wakeReq_touch ..) ?sub; (case sub => decide))
    | (with_reducible show onlyTouches _ _ (State.onlyIf ..); refine onlyTouches.onlyIf ?_ fun x => ?_)

theorem State.hsRes_touch (s : State) (n : Fin 48) (r : Nat) :
    onlyTouches [.hs] s (State.hsRes s n r) := by
  unfold State.hsRes
  repeat' first
    | (with_reducible apply onlyTouches.refl)
    | (with_reducible show onlyTouches _ _ (State.modHs ..); refine onlyTouches.trans ?_ (State.modHs_touch ..) ?sub; (case sub => decide))

theorem State.hsEnter_touch (s : State) (n : Fin 48) (st : HsSt) :
    onlyTouches [.hs] s (State.hsEnter s n st) := by
  unfold State.hsEnter
  repeat' first
    | (with_reducible apply onlyTouches.refl)
    | (with_reducible show onlyTouches _ _ (State.modHs ..); refine onlyTouches.trans ?_ (State.modHs_touch ..) ?sub; (case sub => decide))

theorem State.hsRequest_touch (s : State) (n : Fin 48) (prio : Nat) (kind : ReqKind) :
    onlyTouches [.hs, .adm] s (State.hsRequest s n prio kind) := by
  unfold State.hsRequest
  repeat' first
    | (with_reducible apply onlyTouches.refl)
    | (with_reducible show onlyTouches _ _ (State.modHs ..); refine onlyTouches.trans ?_ (State.modHs_touch ..) ?sub; (case sub => decide))
    | (with_reducible show onlyTouches _ _ (State.toAdm ..); refine onlyTouches.trans ?_ (State.toAdm_touch ..) ?sub; (case sub => decide))
    | (with_reducible apply onlyTouches.ite)

theorem State.hsWithdraw_touch (s : State) (n : Fin 48) :
    onlyTouches [.hs, .adm] s (State.hsWithdraw s n) := by
  unfold State.hsWithdraw
  repeat' first
    | (with_reducible apply onlyTouches.refl)
    | (with_reducible show onlyTouches _ _ (State.modHs ..); refine onlyTouches.trans ?_ (State.modHs_touch ..) ?sub; (case sub => decide))
    | (with_reducible show onlyTouches _ _ (State.toAdm ..); refine onlyTouches.trans ?_ (State.toAdm_touch ..) ?sub; (case sub => decide))
    | (with_reducible show onlyTouches _ _ (State.onlyIf ..); refine onlyTouches.onlyIf ?_ fun x => ?_)

theorem State.clampJudge_touch (s : State) (n : Fin 48) (c : Clamp) (tCl : Nat) (timeout : Bool) :
    onlyTouches [.fab, .hs, .adm] s (State.clampJudge s n c tCl timeout) := by
  unfold State.clampJudge
  dsimp only
  repeat' first
    | (with_reducible apply onlyTouches.refl)
    | (with_reducible show onlyTouches _ _ (State.emit ..); refine onlyTouches.trans ?_ (State.emit_touch ..) ?sub; (case sub => decide))
    | (with_reducible show onlyTouches _ _ (State.hsEnter ..); refine onlyTouches.trans ?_ (State.hsEnter_touch ..) ?sub; (case sub => decide))
    | (with_reducible show onlyTouches _ _ (State.modHs ..); refine onlyTouches.trans ?_ (State.modHs_touch ..) ?sub; (case sub => decide))
    | (with_reducible show onlyTouches _ _ (State.toAdm ..); refine onlyTouches.trans ?_ (State.toAdm_touch ..) ?sub; (case sub => decide))
    | (with_reducible show onlyTouches _ _ (State.onlyIf ..); refine onlyTouches.onlyIf ?_ fun x => ?_)
    | (with_reducible apply onlyTouches.ite)
    | (split)

theorem State.clampBegin_touch (s : State) (n : Fin 48) (vds : Nat) :
    onlyTouches [.hs, .dig] s (State.clampBegin s n vds) := by
  unfold State.clampBegin
  dsimp only
  repeat' first
    | (with_reducible apply onlyTouches.refl)
    | (with_reducible show onlyTouches _ _ (State.modHs ..); refine onlyTouches.trans ?_ (State.modHs_touch ..) ?sub; (case sub => decide))
    | (with_reducible show onlyTouches _ _ (State.zeroAbort ..); refine onlyTouches.trans ?_ (State.zeroAbort_touch ..) ?sub; (case sub => decide))
    | (with_reducible apply onlyTouches.ite)

theorem State.clampTimeout_touch (s : State) (n : Fin 48) :
    onlyTouches [.tmb, .fab, .hs, .adm, .pwr, .ecc, .pmc, .dep, .nv, .free] s (State.clampTimeout s n) := by
  unfold State.clampTimeout
  dsimp only
  repeat' first
    | (with_reducible apply onlyTouches.refl)
    | (with_reducible show onlyTouches _ _ (State.advanceTo ..); refine onlyTouches.trans ?_ (State.advanceTo_touch ..) ?sub; (case sub => decide))
    | (with_reducible show onlyTouches _ _ (State.clampJudge ..); refine onlyTouches.trans ?_ (State.clampJudge_touch ..) ?sub; (case sub => decide))
    | (with_reducible show onlyTouches _ _ (State.modHs ..); refine onlyTouches.trans ?_ (State.modHs_touch ..) ?sub; (case sub => decide))
    | (with_reducible apply onlyTouches.ite)
    | (split)

theorem State.clampStop_touch (s : State) (n : Fin 48) (cycles : Nat) :
    onlyTouches [.fab, .hs, .adm] s (State.clampStop s n cycles) := by
  unfold State.clampStop
  dsimp only
  repeat' first
    | (with_reducible apply onlyTouches.refl)
    | (with_reducible show onlyTouches _ _ (State.clampJudge ..); refine onlyTouches.trans ?_ (State.clampJudge_touch ..) ?sub; (case sub => decide))
    | (with_reducible show onlyTouches _ _ (State.modHs ..); refine onlyTouches.trans ?_ (State.modHs_touch ..) ?sub; (case sub => decide))
    | (with_reducible apply onlyTouches.ite)
    | (split)

theorem State.hsSwitchOn_touch (s : State) (n : Fin 48) (clampCycles : Nat) :
    onlyTouches [.fab, .hs, .dig, .adm] s (State.hsSwitchOn s n clampCycles) := by
  unfold State.hsSwitchOn
  dsimp only
  repeat' first
    | (with_reducible apply onlyTouches.refl)
    | (with_reducible show onlyTouches _ _ (State.capTrigger ..); refine onlyTouches.trans ?_ (State.capTrigger_touch ..) ?sub; (case sub => decide))
    | (with_reducible show onlyTouches _ _ (State.clampStop ..); refine onlyTouches.trans ?_ (State.clampStop_touch ..) ?sub; (case sub => decide))
    | (with_reducible show onlyTouches _ _ (State.emitAdm ..); refine onlyTouches.trans ?_ (State.emitAdm_touch ..) ?sub; (case sub => decide))
    | (with_reducible show onlyTouches _ _ (State.modHs ..); refine onlyTouches.trans ?_ (State.modHs_touch ..) ?sub; (case sub => decide))
    | (with_reducible show onlyTouches _ _ (State.zeroAbort ..); refine onlyTouches.trans ?_ (State.zeroAbort_touch ..) ?sub; (case sub => decide))

theorem State.hsSwitchOff_touch (s : State) (n : Fin 48) (st : HsSt) (cause : Nat) :
    onlyTouches [.fab, .hs, .dig, .adm] s (State.hsSwitchOff s n st cause) := by
  unfold State.hsSwitchOff
  dsimp only
  repeat' first
    | (with_reducible apply onlyTouches.refl)
    | (with_reducible show onlyTouches _ _ (State.capTrigger ..); refine onlyTouches.trans ?_ (State.capTrigger_touch ..) ?sub; (case sub => decide))
    | (with_reducible show onlyTouches _ _ (State.emitAdm ..); refine onlyTouches.trans ?_ (State.emitAdm_touch ..) ?sub; (case sub => decide))
    | (with_reducible show onlyTouches _ _ (State.hsEnter ..); refine onlyTouches.trans ?_ (State.hsEnter_touch ..) ?sub; (case sub => decide))
    | (with_reducible show onlyTouches _ _ (State.modHs ..); refine onlyTouches.trans ?_ (State.modHs_touch ..) ?sub; (case sub => decide))

theorem State.hsRecord_touch (s : State) (n : Fin 48) (bits : W32) (cause : Nat) (st : HsSt) :
    onlyTouches [.hs] s (State.hsRecord s n bits cause st) := by
  unfold State.hsRecord
  dsimp only
  repeat' first
    | (with_reducible apply onlyTouches.refl)
    | (with_reducible show onlyTouches _ _ (State.modHs ..); refine onlyTouches.trans ?_ (State.modHs_touch ..) ?sub; (case sub => decide))

theorem State.hsFaultPath_touch (s : State) (n : Fin 48) (sc ot oc grantBack : Bool) :
    onlyTouches [.fab, .hs, .dig, .adm, .pwr] s (State.hsFaultPath s n sc ot oc grantBack) := by
  unfold State.hsFaultPath
  dsimp only
  repeat' first
    | (with_reducible apply onlyTouches.refl)
    | (with_reducible show onlyTouches _ _ (State.capTrigger ..); refine onlyTouches.trans ?_ (State.capTrigger_touch ..) ?sub; (case sub => decide))
    | (with_reducible show onlyTouches _ _ (State.emit ..); refine onlyTouches.trans ?_ (State.emit_touch ..) ?sub; (case sub => decide))
    | (with_reducible show onlyTouches _ _ (State.hsEnter ..); refine onlyTouches.trans ?_ (State.hsEnter_touch ..) ?sub; (case sub => decide))
    | (with_reducible show onlyTouches _ _ (State.hsRecord ..); refine onlyTouches.trans ?_ (State.hsRecord_touch ..) ?sub; (case sub => decide))
    | (with_reducible show onlyTouches _ _ (State.hsSwitchOff ..); refine onlyTouches.trans ?_ (State.hsSwitchOff_touch ..) ?sub; (case sub => decide))
    | (with_reducible show onlyTouches _ _ (State.hsWithdraw ..); refine onlyTouches.trans ?_ (State.hsWithdraw_touch ..) ?sub; (case sub => decide))
    | (with_reducible show onlyTouches _ _ (State.modHs ..); refine onlyTouches.trans ?_ (State.modHs_touch ..) ?sub; (case sub => decide))
    | (with_reducible show onlyTouches _ _ (State.parkWake ..); refine onlyTouches.trans ?_ (State.parkWake_touch ..) ?sub; (case sub => decide))
    | (with_reducible apply onlyTouches.ite)

theorem State.hsUv_touch (s : State) (n : Fin 48) (grantBack : Bool) :
    onlyTouches [.fab, .hs, .dig, .adm, .pwr] s (State.hsUv s n grantBack) := by
  unfold State.hsUv
  dsimp only
  repeat' first
    | (with_reducible apply onlyTouches.refl)
    | (with_reducible show onlyTouches _ _ (State.hsEnter ..); refine onlyTouches.trans ?_ (State.hsEnter_touch ..) ?sub; (case sub => decide))
    | (with_reducible show onlyTouches _ _ (State.hsRecord ..); refine onlyTouches.trans ?_ (State.hsRecord_touch ..) ?sub; (case sub => decide))
    | (with_reducible show onlyTouches _ _ (State.hsSwitchOff ..); refine onlyTouches.trans ?_ (State.hsSwitchOff_touch ..) ?sub; (case sub => decide))
    | (with_reducible show onlyTouches _ _ (State.hsWithdraw ..); refine onlyTouches.trans ?_ (State.hsWithdraw_touch ..) ?sub; (case sub => decide))
    | (with_reducible show onlyTouches _ _ (State.parkWake ..); refine onlyTouches.trans ?_ (State.parkWake_touch ..) ?sub; (case sub => decide))
    | (with_reducible apply onlyTouches.ite)
    | (split)

theorem State.hsRestart_touch (s : State) (n : Fin 48) (retry : Bool) :
    onlyTouches [.fab, .hs, .adm] s (State.hsRestart s n retry) := by
  unfold State.hsRestart
  dsimp only
  repeat' first
    | (with_reducible apply onlyTouches.refl)
    | (with_reducible show onlyTouches _ _ (State.emit ..); refine onlyTouches.trans ?_ (State.emit_touch ..) ?sub; (case sub => decide))
    | (with_reducible show onlyTouches _ _ (State.hsEnter ..); refine onlyTouches.trans ?_ (State.hsEnter_touch ..) ?sub; (case sub => decide))
    | (with_reducible show onlyTouches _ _ (State.hsRequest ..); refine onlyTouches.trans ?_ (State.hsRequest_touch ..) ?sub; (case sub => decide))
    | (with_reducible show onlyTouches _ _ (State.modHs ..); refine onlyTouches.trans ?_ (State.modHs_touch ..) ?sub; (case sub => decide))

theorem State.hsTryRestart_touch (s : State) (n : Fin 48) :
    onlyTouches [.fab, .hs, .adm] s (State.hsTryRestart s n) := by
  unfold State.hsTryRestart
  dsimp only
  repeat' first
    | (with_reducible apply onlyTouches.refl)
    | (with_reducible show onlyTouches _ _ (State.hsRestart ..); refine onlyTouches.trans ?_ (State.hsRestart_touch ..) ?sub; (case sub => decide))
    | (with_reducible apply onlyTouches.ite)
    | (split)

theorem State.hsStop_touch (s : State) (n : Fin 48) (to_ : HsSt) (cause : Nat) (same : Bool) :
    onlyTouches [.fab, .hs, .dig, .adm] s (State.hsStop s n to_ cause same).1 := by
  unfold State.hsStop
  dsimp only
  repeat' first
    | (with_reducible apply onlyTouches.refl)
    | (with_reducible show onlyTouches _ _ (State.hsEnter ..); refine onlyTouches.trans ?_ (State.hsEnter_touch ..) ?sub; (case sub => decide))
    | (with_reducible show onlyTouches _ _ (State.hsSwitchOff ..); refine onlyTouches.trans ?_ (State.hsSwitchOff_touch ..) ?sub; (case sub => decide))
    | (with_reducible show onlyTouches _ _ (State.hsWithdraw ..); refine onlyTouches.trans ?_ (State.hsWithdraw_touch ..) ?sub; (case sub => decide))
    | (with_reducible apply onlyTouches.ite)
    | (split)

theorem State.hsOffCmd_touch (s : State) (n : Fin 48) (cause : Nat) (same : Bool) :
    onlyTouches [.fab, .hs, .dig, .adm] s (State.hsOffCmd s n cause same) := by
  unfold State.hsOffCmd
  dsimp only
  repeat' first
    | (with_reducible apply onlyTouches.refl)
    | (with_reducible show onlyTouches _ _ (State.hsRes ..); refine onlyTouches.trans ?_ (State.hsRes_touch ..) ?sub; (case sub => decide))
    | (with_reducible show onlyTouches _ _ (State.hsStop ..).1; refine onlyTouches.trans ?_ (State.hsStop_touch ..) ?sub; (case sub => decide))
    | (with_reducible apply onlyTouches.ite)

theorem State.hsClearCmd_touch (s : State) (n : Fin 48) :
    onlyTouches [.hs] s (State.hsClearCmd s n) := by
  unfold State.hsClearCmd
  dsimp only
  repeat' first
    | (with_reducible apply onlyTouches.refl)
    | (with_reducible show onlyTouches _ _ (State.hsEnter ..); refine onlyTouches.trans ?_ (State.hsEnter_touch ..) ?sub; (case sub => decide))
    | (with_reducible show onlyTouches _ _ (State.hsRes ..); refine onlyTouches.trans ?_ (State.hsRes_touch ..) ?sub; (case sub => decide))
    | (with_reducible show onlyTouches _ _ (State.modHs ..); refine onlyTouches.trans ?_ (State.modHs_touch ..) ?sub; (case sub => decide))
    | (with_reducible apply onlyTouches.ite)
    | (split)

theorem State.hsCtlWrite_touch (s : State) (n : Fin 48) (v : W32) (same : Bool) :
    onlyTouches [.fab, .hs, .dig, .adm] s (State.hsCtlWrite s n v same) := by
  unfold State.hsCtlWrite
  dsimp only
  repeat' first
    | (with_reducible apply onlyTouches.refl)
    | (with_reducible show onlyTouches _ _ (State.hsEnter ..); refine onlyTouches.trans ?_ (State.hsEnter_touch ..) ?sub; (case sub => decide))
    | (with_reducible show onlyTouches _ _ (State.hsRes ..); refine onlyTouches.trans ?_ (State.hsRes_touch ..) ?sub; (case sub => decide))
    | (with_reducible show onlyTouches _ _ (State.hsStop ..).1; refine onlyTouches.trans ?_ (State.hsStop_touch ..) ?sub; (case sub => decide))
    | (with_reducible show onlyTouches _ _ (State.modHs ..); refine onlyTouches.trans ?_ (State.modHs_touch ..) ?sub; (case sub => decide))
    | (with_reducible apply onlyTouches.ite)

theorem State.hsCmdWrite_touch (s : State) (n : Fin 48) (off clear same : Bool) :
    onlyTouches [.fab, .hs, .dig, .adm] s (State.hsCmdWrite s n off clear same) := by
  unfold State.hsCmdWrite
  repeat' first
    | (with_reducible apply onlyTouches.refl)
    | (with_reducible show onlyTouches _ _ (State.hsClearCmd ..); refine onlyTouches.trans ?_ (State.hsClearCmd_touch ..) ?sub; (case sub => decide))
    | (with_reducible show onlyTouches _ _ (State.hsOffCmd ..); refine onlyTouches.trans ?_ (State.hsOffCmd_touch ..) ?sub; (case sub => decide))
    | (with_reducible show onlyTouches _ _ (State.hsRes ..); refine onlyTouches.trans ?_ (State.hsRes_touch ..) ?sub; (case sub => decide))
    | (with_reducible apply onlyTouches.ite)

theorem State.hsEnvWrite_touch (s : State) (n : Fin 48) (v : W32) :
    onlyTouches [.hs] s (State.hsEnvWrite s n v) := by
  unfold State.hsEnvWrite
  dsimp only
  repeat' first
    | (with_reducible apply onlyTouches.refl)
    | (with_reducible show onlyTouches _ _ (State.hsRes ..); refine onlyTouches.trans ?_ (State.hsRes_touch ..) ?sub; (case sub => decide))
    | (with_reducible show onlyTouches _ _ (State.modHs ..); refine onlyTouches.trans ?_ (State.modHs_touch ..) ?sub; (case sub => decide))
    | (with_reducible apply onlyTouches.ite)

theorem State.hsEnvDone_touch (s : State) (n : Fin 48) :
    onlyTouches [.hs] s (State.hsEnvDone s n) := by
  unfold State.hsEnvDone
  repeat' first
    | (with_reducible apply onlyTouches.refl)
    | (with_reducible show onlyTouches _ _ (State.modHs ..); refine onlyTouches.trans ?_ (State.modHs_touch ..) ?sub; (case sub => decide))
    | (with_reducible apply onlyTouches.ite)

theorem State.hsEntry_touch (s : State) (n : Fin 48) (mine : Bool) :
    onlyTouches [.hs, .adm] s (State.hsEntry s n mine) := by
  unfold State.hsEntry
  dsimp only
  repeat' first
    | (with_reducible apply onlyTouches.refl)
    | (with_reducible show onlyTouches _ _ (State.hsEnter ..); refine onlyTouches.trans ?_ (State.hsEnter_touch ..) ?sub; (case sub => decide))
    | (with_reducible show onlyTouches _ _ (State.modHs ..); refine onlyTouches.trans ?_ (State.modHs_touch ..) ?sub; (case sub => decide))
    | (with_reducible show onlyTouches _ _ (State.toAdm ..); refine onlyTouches.trans ?_ (State.toAdm_touch ..) ?sub; (case sub => decide))
    | (with_reducible apply onlyTouches.ite)
    | (split)

theorem State.hsDrop_touch (s : State) (n : Fin 48) :
    onlyTouches [.hs] s (State.hsDrop s n) := by
  unfold State.hsDrop
  dsimp only
  repeat' first
    | (with_reducible apply onlyTouches.refl)
    | (with_reducible show onlyTouches _ _ (State.hsEnter ..); refine onlyTouches.trans ?_ (State.hsEnter_touch ..) ?sub; (case sub => decide))
    | (with_reducible show onlyTouches _ _ (State.modHs ..); refine onlyTouches.trans ?_ (State.modHs_touch ..) ?sub; (case sub => decide))
    | (with_reducible apply onlyTouches.ite)

theorem State.hsReturn_touch (s : State) (n : Fin 48) :
    onlyTouches [.fab, .hs, .adm] s (State.hsReturn s n) := by
  unfold State.hsReturn
  repeat' first
    | (with_reducible apply onlyTouches.refl)
    | (with_reducible show onlyTouches _ _ (State.emit ..); refine onlyTouches.trans ?_ (State.emit_touch ..) ?sub; (case sub => decide))
    | (with_reducible show onlyTouches _ _ (State.modHs ..); refine onlyTouches.trans ?_ (State.modHs_touch ..) ?sub; (case sub => decide))
    | (with_reducible show onlyTouches _ _ (State.toAdm ..); refine onlyTouches.trans ?_ (State.toAdm_touch ..) ?sub; (case sub => decide))

theorem State.hsGrantArrives_touch (s : State) (n : Fin 48) (clampCycles : Nat) :
    onlyTouches [.fab, .hs, .dig, .adm, .pwr] s (State.hsGrantArrives s n clampCycles) := by
  unfold State.hsGrantArrives
  dsimp only
  repeat' first
    | (with_reducible apply onlyTouches.refl)
    | (with_reducible show onlyTouches _ _ (State.hsFaultPath ..); refine onlyTouches.trans ?_ (State.hsFaultPath_touch ..) ?sub; (case sub => decide))
    | (with_reducible show onlyTouches _ _ (State.hsReturn ..); refine onlyTouches.trans ?_ (State.hsReturn_touch ..) ?sub; (case sub => decide))
    | (with_reducible show onlyTouches _ _ (State.hsSwitchOn ..); refine onlyTouches.trans ?_ (State.hsSwitchOn_touch ..) ?sub; (case sub => decide))
    | (with_reducible show onlyTouches _ _ (State.hsUv ..); refine onlyTouches.trans ?_ (State.hsUv_touch ..) ?sub; (case sub => decide))
    | (with_reducible apply onlyTouches.ite)
    | (split)

theorem State.hsOverCurrent_touch (s : State) (n : Fin 48) (ma cycles : Nat) :
    onlyTouches [.fab, .hs, .dig, .adm, .pwr] s (State.hsOverCurrent s n ma cycles) := by
  unfold State.hsOverCurrent
  dsimp only
  repeat' first
    | (with_reducible apply onlyTouches.refl)
    | (with_reducible show onlyTouches _ _ (State.hsFaultPath ..); refine onlyTouches.trans ?_ (State.hsFaultPath_touch ..) ?sub; (case sub => decide))
    | (with_reducible apply onlyTouches.ite)

theorem State.hsShort_touch (s : State) (n : Fin 48) (ma : Nat) (oc : Bool) :
    onlyTouches [.fab, .hs, .dig, .adm, .pwr] s (State.hsShort s n ma oc) := by
  unfold State.hsShort
  repeat' first
    | (with_reducible apply onlyTouches.refl)
    | (with_reducible show onlyTouches _ _ (State.hsFaultPath ..); refine onlyTouches.trans ?_ (State.hsFaultPath_touch ..) ?sub; (case sub => decide))
    | (with_reducible apply onlyTouches.ite)

theorem State.hsThermalSet_touch (s : State) (n : Fin 48) (tj : Int) (sc oc : Bool) :
    onlyTouches [.fab, .hs, .dig, .vg, .ls, .adm, .pwr] s (State.hsThermalSet s n tj sc oc) := by
  unfold State.hsThermalSet
  dsimp only
  repeat' first
    | (with_reducible apply onlyTouches.refl)
    | (with_reducible show onlyTouches _ _ (State.emit ..); refine onlyTouches.trans ?_ (State.emit_touch ..) ?sub; (case sub => decide))
    | (with_reducible show onlyTouches _ _ (State.hsFaultPath ..); refine onlyTouches.trans ?_ (State.hsFaultPath_touch ..) ?sub; (case sub => decide))
    | (with_reducible show onlyTouches _ _ (State.modHs ..); refine onlyTouches.trans ?_ (State.modHs_touch ..) ?sub; (case sub => decide))
    | (with_reducible show onlyTouches _ _ (State.setTj ..); refine onlyTouches.trans ?_ (State.setTj_touch ..) ?sub; (case sub => decide))
    | (with_reducible apply onlyTouches.ite)
    | (split)

theorem State.hsThermalClear_touch (s : State) (n : Fin 48) (tj : Int) :
    onlyTouches [.fab, .hs, .vg, .ls, .adm] s (State.hsThermalClear s n tj) := by
  unfold State.hsThermalClear
  dsimp only
  repeat' first
    | (with_reducible apply onlyTouches.refl)
    | (with_reducible show onlyTouches _ _ (State.emit ..); refine onlyTouches.trans ?_ (State.emit_touch ..) ?sub; (case sub => decide))
    | (with_reducible show onlyTouches _ _ (State.hsTryRestart ..); refine onlyTouches.trans ?_ (State.hsTryRestart_touch ..) ?sub; (case sub => decide))
    | (with_reducible show onlyTouches _ _ (State.modHs ..); refine onlyTouches.trans ?_ (State.modHs_touch ..) ?sub; (case sub => decide))
    | (with_reducible show onlyTouches _ _ (State.setTj ..); refine onlyTouches.trans ?_ (State.setTj_touch ..) ?sub; (case sub => decide))
    | (with_reducible apply onlyTouches.ite)

theorem State.hsBankUv_touch (s : State) (n : Fin 48) (mv cycles : Nat) :
    onlyTouches [.fab, .hs, .dig, .adm, .pwr] s (State.hsBankUv s n mv cycles) := by
  unfold State.hsBankUv
  dsimp only
  repeat' first
    | (with_reducible apply onlyTouches.refl)
    | (with_reducible show onlyTouches _ _ (State.hsUv ..); refine onlyTouches.trans ?_ (State.hsUv_touch ..) ?sub; (case sub => decide))
    | (with_reducible show onlyTouches _ _ (State.modHs ..); refine onlyTouches.trans ?_ (State.modHs_touch ..) ?sub; (case sub => decide))
    | (with_reducible apply onlyTouches.ite)

theorem State.hsBankOk_touch (s : State) (n : Fin 48) (mv us : Nat) :
    onlyTouches [.fab, .hs, .adm] s (State.hsBankOk s n mv us) := by
  unfold State.hsBankOk
  dsimp only
  repeat' first
    | (with_reducible apply onlyTouches.refl)
    | (with_reducible show onlyTouches _ _ (State.hsTryRestart ..); refine onlyTouches.trans ?_ (State.hsTryRestart_touch ..) ?sub; (case sub => decide))
    | (with_reducible show onlyTouches _ _ (State.modHs ..); refine onlyTouches.trans ?_ (State.modHs_touch ..) ?sub; (case sub => decide))
    | (with_reducible apply onlyTouches.ite)

theorem State.hsEnvStep_touch (s : State) (n : Fin 48) :
    onlyTouches [.tmb, .fab, .hs, .adm, .pwr, .ecc, .pmc, .dep, .nv, .free] s (State.hsEnvStep s n) := by
  unfold State.hsEnvStep
  dsimp only
  repeat' first
    | (with_reducible apply onlyTouches.refl)
    | (with_reducible show onlyTouches _ _ (State.advanceTo ..); refine onlyTouches.trans ?_ (State.advanceTo_touch ..) ?sub; (case sub => decide))
    | (with_reducible show onlyTouches _ _ (State.emitAdm ..); refine onlyTouches.trans ?_ (State.emitAdm_touch ..) ?sub; (case sub => decide))
    | (with_reducible show onlyTouches _ _ (State.hsEnter ..); refine onlyTouches.trans ?_ (State.hsEnter_touch ..) ?sub; (case sub => decide))
    | (with_reducible show onlyTouches _ _ (State.modHs ..); refine onlyTouches.trans ?_ (State.modHs_touch ..) ?sub; (case sub => decide))
    | (with_reducible apply onlyTouches.ite)

theorem State.hsRetryExpiry_touch (s : State) (n : Fin 48) :
    onlyTouches [.tmb, .fab, .hs, .adm, .pwr, .ecc, .pmc, .dep, .nv, .free] s (State.hsRetryExpiry s n) := by
  unfold State.hsRetryExpiry
  dsimp only
  repeat' first
    | (with_reducible apply onlyTouches.refl)
    | (with_reducible show onlyTouches _ _ (State.advanceTo ..); refine onlyTouches.trans ?_ (State.advanceTo_touch ..) ?sub; (case sub => decide))
    | (with_reducible show onlyTouches _ _ (State.hsTryRestart ..); refine onlyTouches.trans ?_ (State.hsTryRestart_touch ..) ?sub; (case sub => decide))
    | (with_reducible show onlyTouches _ _ (State.modHs ..); refine onlyTouches.trans ?_ (State.modHs_touch ..) ?sub; (case sub => decide))
    | (with_reducible apply onlyTouches.ite)
    | (split)

theorem State.hsHeal_touch (s : State) (n : Fin 48) :
    onlyTouches [.tmb, .fab, .hs, .pwr, .ecc, .pmc, .dep, .nv, .free] s (State.hsHeal s n) := by
  unfold State.hsHeal
  dsimp only
  repeat' first
    | (with_reducible apply onlyTouches.refl)
    | (with_reducible show onlyTouches _ _ (State.advanceTo ..); refine onlyTouches.trans ?_ (State.advanceTo_touch ..) ?sub; (case sub => decide))
    | (with_reducible show onlyTouches _ _ (State.emit ..); refine onlyTouches.trans ?_ (State.emit_touch ..) ?sub; (case sub => decide))
    | (with_reducible show onlyTouches _ _ (State.modHs ..); refine onlyTouches.trans ?_ (State.modHs_touch ..) ?sub; (case sub => decide))
    | (with_reducible apply onlyTouches.ite)

theorem State.hsRise_touch (s : State) (n : Fin 48) :
    onlyTouches [.hs, .adm] s (State.hsRise s n) := by
  unfold State.hsRise
  repeat' first
    | (with_reducible apply onlyTouches.refl)
    | (with_reducible show onlyTouches _ _ (State.hsRequest ..); refine onlyTouches.trans ?_ (State.hsRequest_touch ..) ?sub; (case sub => decide))

theorem State.hsFall_touch (s : State) (n : Fin 48) (same : Bool) :
    onlyTouches [.fab, .hs, .dig, .adm] s (State.hsFall s n same) := by
  unfold State.hsFall
  dsimp only
  repeat' first
    | (with_reducible apply onlyTouches.refl)
    | (with_reducible show onlyTouches _ _ (State.hsStop ..).1; refine onlyTouches.trans ?_ (State.hsStop_touch ..) ?sub; (case sub => decide))
    | (with_reducible show onlyTouches _ _ (State.modHs ..); refine onlyTouches.trans ?_ (State.modHs_touch ..) ?sub; (case sub => decide))

theorem State.hsRouted_touch (s : State) (n : Fin 48) (level same : Bool) :
    onlyTouches [.fab, .hs, .dig, .adm] s (State.hsRouted s n level same) := by
  unfold State.hsRouted
  dsimp only
  repeat' first
    | (with_reducible apply onlyTouches.refl)
    | (with_reducible show onlyTouches _ _ (State.hsEnter ..); refine onlyTouches.trans ?_ (State.hsEnter_touch ..) ?sub; (case sub => decide))
    | (with_reducible show onlyTouches _ _ (State.hsFall ..); refine onlyTouches.trans ?_ (State.hsFall_touch ..) ?sub; (case sub => decide))
    | (with_reducible show onlyTouches _ _ (State.hsRise ..); refine onlyTouches.trans ?_ (State.hsRise_touch ..) ?sub; (case sub => decide))
    | (with_reducible show onlyTouches _ _ (State.modHs ..); refine onlyTouches.trans ?_ (State.modHs_touch ..) ?sub; (case sub => decide))
    | (with_reducible apply onlyTouches.ite)

theorem State.hsLimpEnter_touch (s : State) (n : Fin 48) (src : Nat) (level same : Bool) :
    onlyTouches [.fab, .hs, .dig, .adm] s (State.hsLimpEnter s n src level same) := by
  unfold State.hsLimpEnter
  dsimp only
  repeat' first
    | (with_reducible apply onlyTouches.refl)
    | (with_reducible show onlyTouches _ _ (State.emit ..); refine onlyTouches.trans ?_ (State.emit_touch ..) ?sub; (case sub => decide))
    | (with_reducible show onlyTouches _ _ (State.hsEnter ..); refine onlyTouches.trans ?_ (State.hsEnter_touch ..) ?sub; (case sub => decide))
    | (with_reducible show onlyTouches _ _ (State.hsFall ..); refine onlyTouches.trans ?_ (State.hsFall_touch ..) ?sub; (case sub => decide))
    | (with_reducible show onlyTouches _ _ (State.hsRise ..); refine onlyTouches.trans ?_ (State.hsRise_touch ..) ?sub; (case sub => decide))
    | (with_reducible show onlyTouches _ _ (State.modHs ..); refine onlyTouches.trans ?_ (State.modHs_touch ..) ?sub; (case sub => decide))
    | (with_reducible apply onlyTouches.ite)

theorem State.hsLimpExit_touch (s : State) (n : Fin 48) :
    onlyTouches [.fab, .hs] s (State.hsLimpExit s n) := by
  unfold State.hsLimpExit
  repeat' first
    | (with_reducible apply onlyTouches.refl)
    | (with_reducible show onlyTouches _ _ (State.emit ..); refine onlyTouches.trans ?_ (State.emit_touch ..) ?sub; (case sub => decide))
    | (with_reducible show onlyTouches _ _ (State.modHs ..); refine onlyTouches.trans ?_ (State.modHs_touch ..) ?sub; (case sub => decide))
    | (with_reducible apply onlyTouches.ite)

theorem State.hsOrphanOff_touch (s : State) (n : Fin 48) :
    onlyTouches [.fab, .hs, .dig, .adm] s (State.hsOrphanOff s n) := by
  unfold State.hsOrphanOff
  dsimp only
  repeat' first
    | (with_reducible apply onlyTouches.refl)
    | (with_reducible show onlyTouches _ _ (State.emit ..); refine onlyTouches.trans ?_ (State.emit_touch ..) ?sub; (case sub => decide))
    | (with_reducible show onlyTouches _ _ (State.hsEnter ..); refine onlyTouches.trans ?_ (State.hsEnter_touch ..) ?sub; (case sub => decide))
    | (with_reducible show onlyTouches _ _ (State.hsSwitchOff ..); refine onlyTouches.trans ?_ (State.hsSwitchOff_touch ..) ?sub; (case sub => decide))
    | (with_reducible show onlyTouches _ _ (State.hsWithdraw ..); refine onlyTouches.trans ?_ (State.hsWithdraw_touch ..) ?sub; (case sub => decide))
    | (with_reducible show onlyTouches _ _ (State.modHs ..); refine onlyTouches.trans ?_ (State.modHs_touch ..) ?sub; (case sub => decide))
    | (with_reducible apply onlyTouches.ite)
    | (split)

theorem State.hsWrite_touch (s : State) (n : Fin 48) (off : Nat) (v : W32) :
    onlyTouches [.fab, .hs, .dig, .adm, .pwr, .sys, .mem, .ecc, .pmc, .free] s (State.hsWrite s n off v) := by
  unfold State.hsWrite
  repeat' first
    | (with_reducible apply onlyTouches.refl)
    | (with_reducible show onlyTouches _ _ (State.digWrite ..); refine onlyTouches.trans ?_ (State.digWrite_touch ..) ?sub; (case sub => decide))
    | (with_reducible show onlyTouches _ _ (State.estWrite ..); refine onlyTouches.trans ?_ (State.estWrite_touch ..) ?sub; (case sub => decide))
    | (with_reducible show onlyTouches _ _ (State.hsCmdWrite ..); refine onlyTouches.trans ?_ (State.hsCmdWrite_touch ..) ?sub; (case sub => decide))
    | (with_reducible show onlyTouches _ _ (State.hsCtlWrite ..); refine onlyTouches.trans ?_ (State.hsCtlWrite_touch ..) ?sub; (case sub => decide))
    | (with_reducible show onlyTouches _ _ (State.hsEnvWrite ..); refine onlyTouches.trans ?_ (State.hsEnvWrite_touch ..) ?sub; (case sub => decide))
    | (with_reducible show onlyTouches _ _ (State.modHs ..); refine onlyTouches.trans ?_ (State.modHs_touch ..) ?sub; (case sub => decide))
    | (with_reducible show onlyTouches _ _ (State.trReset ..); refine onlyTouches.trans ?_ (State.trReset_touch ..) ?sub; (case sub => decide))
    | (with_reducible show onlyTouches _ _ (State.onlyIf ..); refine onlyTouches.onlyIf ?_ fun x => ?_)
    | (with_reducible apply onlyTouches.ite)
    | (split)

end Sys2Proof.Machine
end

