-- ==== Sys2Proof/Laws/TouchValve.lean ====
section
/-! SUPPORT. The parts of State that each operation of Machine/Valve.lean changes. -/

namespace Sys2Proof.Machine

theorem State.vdEmit_touch (s : State) (n : Fin 16) (code : Nat) (arg : W32) :
    onlyTouches [.fab] s (State.vdEmit s n code arg) := by
  unfold State.vdEmit
  repeat' first
    | (with_reducible apply onlyTouches.refl)
    | (with_reducible show onlyTouches _ _ (State.emit ..); refine onlyTouches.trans ?_ (State.emit_touch ..) ?sub; (case sub => decide))

theorem State.vdRes_touch (s : State) (n : Fin 16) (r : Nat) :
    onlyTouches [.vd] s (State.vdRes s n r) := by
  unfold State.vdRes
  repeat' first
    | (with_reducible apply onlyTouches.refl)
    | (with_reducible show onlyTouches _ _ (State.modVd ..); refine onlyTouches.trans ?_ (State.modVd_touch ..) ?sub; (case sub => decide))

theorem State.vdEnter_touch (s : State) (n : Fin 16) (st : VdSt) :
    onlyTouches [.vg, .vd] s (State.vdEnter s n st) := by
  unfold State.vdEnter
  repeat' first
    | (with_reducible apply onlyTouches.refl)
    | (with_reducible show onlyTouches _ _ (State.modVd ..); refine onlyTouches.trans ?_ (State.modVd_touch ..) ?sub; (case sub => decide))
    | (with_reducible show onlyTouches _ _ (State.modVg ..); refine onlyTouches.trans ?_ (State.modVg_touch ..) ?sub; (case sub => decide))

theorem State.vdRelease_touch (s : State) (n : Fin 16) :
    onlyTouches [.vd, .adm] s (State.vdRelease s n) := by
  unfold State.vdRelease
  repeat' first
    | (with_reducible apply onlyTouches.refl)
    | (with_reducible show onlyTouches _ _ (State.modVd ..); refine onlyTouches.trans ?_ (State.modVd_touch ..) ?sub; (case sub => decide))
    | (with_reducible show onlyTouches _ _ (State.toAdm ..); refine onlyTouches.trans ?_ (State.toAdm_touch ..) ?sub; (case sub => decide))
    | (with_reducible apply onlyTouches.ite)

theorem State.vdWithdraw_touch (s : State) (n : Fin 16) (st : VdSt) :
    onlyTouches [.vg, .vd, .adm] s (State.vdWithdraw s n st) := by
  unfold State.vdWithdraw
  dsimp only
  repeat' first
    | (with_reducible apply onlyTouches.refl)
    | (with_reducible show onlyTouches _ _ (State.modVd ..); refine onlyTouches.trans ?_ (State.modVd_touch ..) ?sub; (case sub => decide))
    | (with_reducible show onlyTouches _ _ (State.toAdm ..); refine onlyTouches.trans ?_ (State.toAdm_touch ..) ?sub; (case sub => decide))
    | (with_reducible show onlyTouches _ _ (State.vdEnter ..); refine onlyTouches.trans ?_ (State.vdEnter_touch ..) ?sub; (case sub => decide))
    | (with_reducible apply onlyTouches.ite)

theorem State.vdOff_touch (s : State) (n : Fin 16) (st : VdSt) :
    onlyTouches [.dig, .vg, .vd, .adm] s (State.vdOff s n st) := by
  unfold State.vdOff
  dsimp only
  repeat' first
    | (with_reducible apply onlyTouches.refl)
    | (with_reducible show onlyTouches _ _ (State.capTrigger ..); refine onlyTouches.trans ?_ (State.capTrigger_touch ..) ?sub; (case sub => decide))
    | (with_reducible show onlyTouches _ _ (State.modVd ..); refine onlyTouches.trans ?_ (State.modVd_touch ..) ?sub; (case sub => decide))
    | (with_reducible show onlyTouches _ _ (State.vdEnter ..); refine onlyTouches.trans ?_ (State.vdEnter_touch ..) ?sub; (case sub => decide))
    | (with_reducible show onlyTouches _ _ (State.vdRelease ..); refine onlyTouches.trans ?_ (State.vdRelease_touch ..) ?sub; (case sub => decide))

theorem State.vdBusy_touch (s : State) (n : Fin 16) (us : Nat) :
    onlyTouches [.fab, .vg, .vd] s (State.vdBusy s n us) := by
  unfold State.vdBusy
  repeat' first
    | (with_reducible apply onlyTouches.refl)
    | (with_reducible show onlyTouches _ _ (State.modVg ..); refine onlyTouches.trans ?_ (State.modVg_touch ..) ?sub; (case sub => decide))
    | (with_reducible show onlyTouches _ _ (State.vdEmit ..); refine onlyTouches.trans ?_ (State.vdEmit_touch ..) ?sub; (case sub => decide))
    | (with_reducible show onlyTouches _ _ (State.vdRes ..); refine onlyTouches.trans ?_ (State.vdRes_touch ..) ?sub; (case sub => decide))

theorem State.vdPending_touch (s : State) (n : Fin 16) :
    onlyTouches [.dig, .vg, .vd, .adm] s (State.vdPending s n) := by
  unfold State.vdPending
  dsimp only
  repeat' first
    | (with_reducible apply onlyTouches.refl)
    | (with_reducible show onlyTouches _ _ (State.modVd ..); refine onlyTouches.trans ?_ (State.modVd_touch ..) ?sub; (case sub => decide))
    | (with_reducible show onlyTouches _ _ (State.toAdm ..); refine onlyTouches.trans ?_ (State.toAdm_touch ..) ?sub; (case sub => decide))
    | (with_reducible show onlyTouches _ _ (State.vdEnter ..); refine onlyTouches.trans ?_ (State.vdEnter_touch ..) ?sub; (case sub => decide))
    | (with_reducible show onlyTouches _ _ (State.zeroAbort ..); refine onlyTouches.trans ?_ (State.zeroAbort_touch ..) ?sub; (case sub => decide))

theorem State.vdStart_touch (s : State) (n : Fin 16) (hold : Nat) (routed : Bool) :
    onlyTouches [.fab, .dig, .vg, .vd, .adm] s (State.vdStart s n hold routed) := by
  unfold State.vdStart
  dsimp only
  repeat' first
    | (with_reducible apply onlyTouches.refl)
    | (with_reducible show onlyTouches _ _ (State.modVd ..); refine onlyTouches.trans ?_ (State.modVd_touch ..) ?sub; (case sub => decide))
    | (with_reducible show onlyTouches _ _ (State.modVg ..); refine onlyTouches.trans ?_ (State.modVg_touch ..) ?sub; (case sub => decide))
    | (with_reducible show onlyTouches _ _ (State.vdBusy ..); refine onlyTouches.trans ?_ (State.vdBusy_touch ..) ?sub; (case sub => decide))
    | (with_reducible show onlyTouches _ _ (State.vdEnter ..); refine onlyTouches.trans ?_ (State.vdEnter_touch ..) ?sub; (case sub => decide))
    | (with_reducible show onlyTouches _ _ (State.vdPending ..); refine onlyTouches.trans ?_ (State.vdPending_touch ..) ?sub; (case sub => decide))
    | (with_reducible show onlyTouches _ _ (State.zeroAbort ..); refine onlyTouches.trans ?_ (State.zeroAbort_touch ..) ?sub; (case sub => decide))
    | (with_reducible apply onlyTouches.ite)

theorem State.vdMerge_touch (s : State) (n : Fin 16) (hold : Nat) :
    onlyTouches [.vd] s (State.vdMerge s n hold) := by
  unfold State.vdMerge
  repeat' first
    | (with_reducible apply onlyTouches.refl)
    | (with_reducible show onlyTouches _ _ (State.modVd ..); refine onlyTouches.trans ?_ (State.modVd_touch ..) ?sub; (case sub => decide))

theorem State.vdHold_touch (s : State) (n : Fin 16) (hold : Nat) (routed : Bool) :
    onlyTouches [.vd] s (State.vdHold s n hold routed) := by
  unfold State.vdHold
  repeat' first
    | (with_reducible apply onlyTouches.refl)
    | (with_reducible show onlyTouches _ _ (State.modVd ..); refine onlyTouches.trans ?_ (State.modVd_touch ..) ?sub; (case sub => decide))

theorem State.vdOnCmd_touch (s : State) (n : Fin 16) (hold : Nat) (routed : Bool) :
    onlyTouches [.fab, .dig, .vg, .vd, .adm] s (State.vdOnCmd s n hold routed) := by
  unfold State.vdOnCmd
  dsimp only
  repeat' first
    | (with_reducible apply onlyTouches.refl)
    | (with_reducible show onlyTouches _ _ (State.modVd ..); refine onlyTouches.trans ?_ (State.modVd_touch ..) ?sub; (case sub => decide))
    | (with_reducible show onlyTouches _ _ (State.vdHold ..); refine onlyTouches.trans ?_ (State.vdHold_touch ..) ?sub; (case sub => decide))
    | (with_reducible show onlyTouches _ _ (State.vdMerge ..); refine onlyTouches.trans ?_ (State.vdMerge_touch ..) ?sub; (case sub => decide))
    | (with_reducible show onlyTouches _ _ (State.vdRes ..); refine onlyTouches.trans ?_ (State.vdRes_touch ..) ?sub; (case sub => decide))
    | (with_reducible show onlyTouches _ _ (State.vdStart ..); refine onlyTouches.trans ?_ (State.vdStart_touch ..) ?sub; (case sub => decide))
    | (with_reducible apply onlyTouches.ite)
    | (split)

theorem State.vdOffCmd_touch (s : State) (n : Fin 16) (same : Bool) :
    onlyTouches [.dig, .vg, .vd, .adm] s (State.vdOffCmd s n same) := by
  unfold State.vdOffCmd
  dsimp only
  repeat' first
    | (with_reducible apply onlyTouches.refl)
    | (with_reducible show onlyTouches _ _ (State.modVd ..); refine onlyTouches.trans ?_ (State.modVd_touch ..) ?sub; (case sub => decide))
    | (with_reducible show onlyTouches _ _ (State.vdEnter ..); refine onlyTouches.trans ?_ (State.vdEnter_touch ..) ?sub; (case sub => decide))
    | (with_reducible show onlyTouches _ _ (State.vdOff ..); refine onlyTouches.trans ?_ (State.vdOff_touch ..) ?sub; (case sub => decide))
    | (with_reducible show onlyTouches _ _ (State.vdRes ..); refine onlyTouches.trans ?_ (State.vdRes_touch ..) ?sub; (case sub => decide))
    | (with_reducible show onlyTouches _ _ (State.vdWithdraw ..); refine onlyTouches.trans ?_ (State.vdWithdraw_touch ..) ?sub; (case sub => decide))
    | (with_reducible apply onlyTouches.ite)
    | (split)

theorem State.vdClearCmd_touch (s : State) (n : Fin 16) :
    onlyTouches [.vg, .vd] s (State.vdClearCmd s n) := by
  unfold State.vdClearCmd
  dsimp only
  repeat' first
    | (with_reducible apply onlyTouches.refl)
    | (with_reducible show onlyTouches _ _ (State.vdEnter ..); refine onlyTouches.trans ?_ (State.vdEnter_touch ..) ?sub; (case sub => decide))
    | (with_reducible show onlyTouches _ _ (State.vdRes ..); refine onlyTouches.trans ?_ (State.vdRes_touch ..) ?sub; (case sub => decide))
    | (with_reducible apply onlyTouches.ite)
    | (split)

theorem State.vdCmdWrite_touch (s : State) (n : Fin 16) (on off clear same : Bool) (hold : Nat) :
    onlyTouches [.fab, .dig, .vg, .vd, .adm] s (State.vdCmdWrite s n on off clear same hold) := by
  unfold State.vdCmdWrite
  repeat' first
    | (with_reducible apply onlyTouches.refl)
    | (with_reducible show onlyTouches _ _ (State.vdClearCmd ..); refine onlyTouches.trans ?_ (State.vdClearCmd_touch ..) ?sub; (case sub => decide))
    | (with_reducible show onlyTouches _ _ (State.vdOffCmd ..); refine onlyTouches.trans ?_ (State.vdOffCmd_touch ..) ?sub; (case sub => decide))
    | (with_reducible show onlyTouches _ _ (State.vdOnCmd ..); refine onlyTouches.trans ?_ (State.vdOnCmd_touch ..) ?sub; (case sub => decide))
    | (with_reducible show onlyTouches _ _ (State.vdRes ..); refine onlyTouches.trans ?_ (State.vdRes_touch ..) ?sub; (case sub => decide))
    | (with_reducible apply onlyTouches.ite)

theorem State.vdCtlWrite_touch (s : State) (n : Fin 16) (w : W32) (same : Bool) :
    onlyTouches [.dig, .vg, .vd, .adm] s (State.vdCtlWrite s n w same) := by
  unfold State.vdCtlWrite
  dsimp only
  repeat' first
    | (with_reducible apply onlyTouches.refl)
    | (with_reducible show onlyTouches _ _ (State.modVd ..); refine onlyTouches.trans ?_ (State.modVd_touch ..) ?sub; (case sub => decide))
    | (with_reducible show onlyTouches _ _ (State.vdEnter ..); refine onlyTouches.trans ?_ (State.vdEnter_touch ..) ?sub; (case sub => decide))
    | (with_reducible show onlyTouches _ _ (State.vdOff ..); refine onlyTouches.trans ?_ (State.vdOff_touch ..) ?sub; (case sub => decide))
    | (with_reducible show onlyTouches _ _ (State.vdRes ..); refine onlyTouches.trans ?_ (State.vdRes_touch ..) ?sub; (case sub => decide))
    | (with_reducible show onlyTouches _ _ (State.vdWithdraw ..); refine onlyTouches.trans ?_ (State.vdWithdraw_touch ..) ?sub; (case sub => decide))
    | (with_reducible apply onlyTouches.ite)
    | (split)

theorem State.deferLeave_touch (s : State) (g : Fin 4) :
    onlyTouches [.dig, .vg, .vd, .adm] s (State.deferLeave s g) := by
  unfold State.deferLeave
  repeat' first
    | (with_reducible apply onlyTouches.refl)
    | (with_reducible show onlyTouches _ _ (State.vdPending ..); refine onlyTouches.trans ?_ (State.vdPending_touch ..) ?sub; (case sub => decide))
    | (with_reducible apply onlyTouches.ite)
    | (split)

theorem State.vdDecayEnd_touch (s : State) (n : Fin 16) :
    onlyTouches [.vg, .vd] s (State.vdDecayEnd s n) := by
  unfold State.vdDecayEnd
  repeat' first
    | (with_reducible apply onlyTouches.refl)
    | (with_reducible show onlyTouches _ _ (State.modVd ..); refine onlyTouches.trans ?_ (State.modVd_touch ..) ?sub; (case sub => decide))
    | (with_reducible show onlyTouches _ _ (State.vdEnter ..); refine onlyTouches.trans ?_ (State.vdEnter_touch ..) ?sub; (case sub => decide))
    | (with_reducible apply onlyTouches.ite)

theorem State.deferTimeout_touch (s : State) (n : Fin 16) :
    onlyTouches [.tmb, .fab, .vg, .vd, .pwr, .ecc, .pmc, .dep, .nv, .free] s (State.deferTimeout s n) := by
  unfold State.deferTimeout
  dsimp only
  repeat' first
    | (with_reducible apply onlyTouches.refl)
    | (with_reducible show onlyTouches _ _ (State.advanceTo ..); refine onlyTouches.trans ?_ (State.advanceTo_touch ..) ?sub; (case sub => decide))
    | (with_reducible show onlyTouches _ _ (State.vdBusy ..); refine onlyTouches.trans ?_ (State.vdBusy_touch ..) ?sub; (case sub => decide))
    | (with_reducible show onlyTouches _ _ (State.vdDecayEnd ..); refine onlyTouches.trans ?_ (State.vdDecayEnd_touch ..) ?sub; (case sub => decide))
    | (with_reducible show onlyTouches _ _ (State.vdEnter ..); refine onlyTouches.trans ?_ (State.vdEnter_touch ..) ?sub; (case sub => decide))
    | (with_reducible apply onlyTouches.ite)

theorem State.setRefit_touch (s : State) (n : Fin 16) :
    onlyTouches [.vd] s (State.setRefit s n) := by
  unfold State.setRefit
  dsimp only
  repeat' first
    | (with_reducible apply onlyTouches.refl)
    | (with_reducible show onlyTouches _ _ (State.modVd ..); refine onlyTouches.trans ?_ (State.modVd_touch ..) ?sub; (case sub => decide))
    | (with_reducible apply onlyTouches.ite)

theorem State.vdSetWrite_touch (s : State) (n : Fin 16) (f : Vd → Vd) :
    onlyTouches [.vd] s (State.vdSetWrite s n f) := by
  unfold State.vdSetWrite
  dsimp only
  repeat' first
    | (with_reducible apply onlyTouches.refl)
    | (with_reducible show onlyTouches _ _ (State.modVd ..); refine onlyTouches.trans ?_ (State.modVd_touch ..) ?sub; (case sub => decide))

theorem State.vdGrantArrives_touch (s : State) (n : Fin 16) :
    onlyTouches [.fab, .dig, .vg, .vd, .adm] s (State.vdGrantArrives s n) := by
  unfold State.vdGrantArrives
  dsimp only
  repeat' first
    | (with_reducible apply onlyTouches.refl)
    | (with_reducible show onlyTouches _ _ (State.capTrigger ..); refine onlyTouches.trans ?_ (State.capTrigger_touch ..) ?sub; (case sub => decide))
    | (with_reducible show onlyTouches _ _ (State.modVd ..); refine onlyTouches.trans ?_ (State.modVd_touch ..) ?sub; (case sub => decide))
    | (with_reducible show onlyTouches _ _ (State.toAdm ..); refine onlyTouches.trans ?_ (State.toAdm_touch ..) ?sub; (case sub => decide))
    | (with_reducible show onlyTouches _ _ (State.vdEmit ..); refine onlyTouches.trans ?_ (State.vdEmit_touch ..) ?sub; (case sub => decide))
    | (with_reducible show onlyTouches _ _ (State.vdEnter ..); refine onlyTouches.trans ?_ (State.vdEnter_touch ..) ?sub; (case sub => decide))
    | (with_reducible show onlyTouches _ _ (State.zeroAbort ..); refine onlyTouches.trans ?_ (State.zeroAbort_touch ..) ?sub; (case sub => decide))
    | (with_reducible apply onlyTouches.ite)

theorem State.vdDrop_touch (s : State) (n : Fin 16) :
    onlyTouches [.fab, .vg, .vd] s (State.vdDrop s n) := by
  unfold State.vdDrop
  repeat' first
    | (with_reducible apply onlyTouches.refl)
    | (with_reducible show onlyTouches _ _ (State.modVd ..); refine onlyTouches.trans ?_ (State.modVd_touch ..) ?sub; (case sub => decide))
    | (with_reducible show onlyTouches _ _ (State.vdEmit ..); refine onlyTouches.trans ?_ (State.vdEmit_touch ..) ?sub; (case sub => decide))
    | (with_reducible show onlyTouches _ _ (State.vdEnter ..); refine onlyTouches.trans ?_ (State.vdEnter_touch ..) ?sub; (case sub => decide))
    | (with_reducible apply onlyTouches.ite)

theorem State.vdEntry_touch (s : State) (n : Fin 16) :
    onlyTouches [.adm] s (State.vdEntry s n) := by
  unfold State.vdEntry
  repeat' first
    | (with_reducible apply onlyTouches.refl)
    | (with_reducible show onlyTouches _ _ (State.toAdm ..); refine onlyTouches.trans ?_ (State.toAdm_touch ..) ?sub; (case sub => decide))
    | (with_reducible apply onlyTouches.ite)

theorem State.vdPeakEnd_touch (s : State) (n : Fin 16) :
    onlyTouches [.tmb, .fab, .vg, .vd, .adm, .pwr, .ecc, .pmc, .dep, .nv, .free] s (State.vdPeakEnd s n) := by
  unfold State.vdPeakEnd
  dsimp only
  repeat' first
    | (with_reducible apply onlyTouches.refl)
    | (with_reducible show onlyTouches _ _ (State.advanceTo ..); refine onlyTouches.trans ?_ (State.advanceTo_touch ..) ?sub; (case sub => decide))
    | (with_reducible show onlyTouches _ _ (State.modVd ..); refine onlyTouches.trans ?_ (State.modVd_touch ..) ?sub; (case sub => decide))
    | (with_reducible show onlyTouches _ _ (State.vdEmit ..); refine onlyTouches.trans ?_ (State.vdEmit_touch ..) ?sub; (case sub => decide))
    | (with_reducible show onlyTouches _ _ (State.vdEnter ..); refine onlyTouches.trans ?_ (State.vdEnter_touch ..) ?sub; (case sub => decide))
    | (with_reducible show onlyTouches _ _ (State.vdRelease ..); refine onlyTouches.trans ?_ (State.vdRelease_touch ..) ?sub; (case sub => decide))
    | (with_reducible apply onlyTouches.ite)

theorem State.vdClaimSettle_touch (s : State) (n : Fin 16) :
    onlyTouches [.tmb, .fab, .vd, .adm, .pwr, .ecc, .pmc, .dep, .nv, .free] s (State.vdClaimSettle s n) := by
  unfold State.vdClaimSettle
  dsimp only
  repeat' first
    | (with_reducible apply onlyTouches.refl)
    | (with_reducible show onlyTouches _ _ (State.advanceTo ..); refine onlyTouches.trans ?_ (State.advanceTo_touch ..) ?sub; (case sub => decide))
    | (with_reducible show onlyTouches _ _ (State.vdRelease ..); refine onlyTouches.trans ?_ (State.vdRelease_touch ..) ?sub; (case sub => decide))
    | (with_reducible apply onlyTouches.ite)

theorem State.vdHoldEnd_touch (s : State) (n : Fin 16) :
    onlyTouches [.tmb, .fab, .dig, .vg, .vd, .adm, .pwr, .ecc, .pmc, .dep, .nv, .free] s (State.vdHoldEnd s n) := by
  unfold State.vdHoldEnd
  dsimp only
  repeat' first
    | (with_reducible apply onlyTouches.refl)
    | (with_reducible show onlyTouches _ _ (State.advanceTo ..); refine onlyTouches.trans ?_ (State.advanceTo_touch ..) ?sub; (case sub => decide))
    | (with_reducible show onlyTouches _ _ (State.modVd ..); refine onlyTouches.trans ?_ (State.modVd_touch ..) ?sub; (case sub => decide))
    | (with_reducible show onlyTouches _ _ (State.vdEmit ..); refine onlyTouches.trans ?_ (State.vdEmit_touch ..) ?sub; (case sub => decide))
    | (with_reducible show onlyTouches _ _ (State.vdOff ..); refine onlyTouches.trans ?_ (State.vdOff_touch ..) ?sub; (case sub => decide))
    | (with_reducible apply onlyTouches.ite)
    | (split)

theorem State.vdReleased_touch (s : State) (n : Fin 16) (slow : Bool) :
    onlyTouches [.fab, .vg, .vd] s (State.vdReleased s n slow) := by
  unfold State.vdReleased
  dsimp only
  repeat' first
    | (with_reducible apply onlyTouches.refl)
    | (with_reducible show onlyTouches _ _ (State.modVd ..); refine onlyTouches.trans ?_ (State.modVd_touch ..) ?sub; (case sub => decide))
    | (with_reducible show onlyTouches _ _ (State.vdDecayEnd ..); refine onlyTouches.trans ?_ (State.vdDecayEnd_touch ..) ?sub; (case sub => decide))
    | (with_reducible show onlyTouches _ _ (State.vdEmit ..); refine onlyTouches.trans ?_ (State.vdEmit_touch ..) ?sub; (case sub => decide))

theorem State.vdDecayComplete_touch (s : State) (n : Fin 16) :
    onlyTouches [.fab, .vg, .vd] s (State.vdDecayComplete s n) := by
  unfold State.vdDecayComplete
  repeat' first
    | (with_reducible apply onlyTouches.refl)
    | (with_reducible show onlyTouches _ _ (State.vdReleased ..); refine onlyTouches.trans ?_ (State.vdReleased_touch ..) ?sub; (case sub => decide))
    | (with_reducible apply onlyTouches.ite)

theorem State.vdDecayTimeout_touch (s : State) (n : Fin 16) :
    onlyTouches [.tmb, .fab, .vg, .vd, .pwr, .ecc, .pmc, .dep, .nv, .free] s (State.vdDecayTimeout s n) := by
  unfold State.vdDecayTimeout
  repeat' first
    | (with_reducible apply onlyTouches.refl)
    | (with_reducible show onlyTouches _ _ (State.advanceTo ..); refine onlyTouches.trans ?_ (State.advanceTo_touch ..) ?sub; (case sub => decide))
    | (with_reducible show onlyTouches _ _ (State.vdReleased ..); refine onlyTouches.trans ?_ (State.vdReleased_touch ..) ?sub; (case sub => decide))
    | (with_reducible apply onlyTouches.ite)

theorem State.vdGapEnd_touch (s : State) (n : Fin 16) :
    onlyTouches [.tmb, .fab, .dig, .vg, .vd, .adm, .pwr, .ecc, .pmc, .dep, .nv, .free] s (State.vdGapEnd s n) := by
  unfold State.vdGapEnd
  dsimp only
  repeat' first
    | (with_reducible apply onlyTouches.refl)
    | (with_reducible show onlyTouches _ _ (State.advanceTo ..); refine onlyTouches.trans ?_ (State.advanceTo_touch ..) ?sub; (case sub => decide))
    | (with_reducible show onlyTouches _ _ (State.modVd ..); refine onlyTouches.trans ?_ (State.modVd_touch ..) ?sub; (case sub => decide))
    | (with_reducible show onlyTouches _ _ (State.vdEnter ..); refine onlyTouches.trans ?_ (State.vdEnter_touch ..) ?sub; (case sub => decide))
    | (with_reducible show onlyTouches _ _ (State.vdRes ..); refine onlyTouches.trans ?_ (State.vdRes_touch ..) ?sub; (case sub => decide))
    | (with_reducible show onlyTouches _ _ (State.vdStart ..); refine onlyTouches.trans ?_ (State.vdStart_touch ..) ?sub; (case sub => decide))
    | (with_reducible apply onlyTouches.ite)
    | (split)

theorem State.vdSample_touch (s : State) (n : Fin 16) (top : Nat) :
    onlyTouches [.fab, .vd, .free] s (State.vdSample s n top) := by
  unfold State.vdSample
  dsimp only
  repeat' first
    | (with_reducible apply onlyTouches.refl)
    | (with_reducible show onlyTouches _ _ (State.draw ..).2; refine onlyTouches.trans ?_ (State.draw_touch ..) ?sub; (case sub => decide))
    | (with_reducible show onlyTouches _ _ (State.modVd ..); refine onlyTouches.trans ?_ (State.modVd_touch ..) ?sub; (case sub => decide))
    | (with_reducible show onlyTouches _ _ (State.setRefit ..); refine onlyTouches.trans ?_ (State.setRefit_touch ..) ?sub; (case sub => decide))
    | (with_reducible show onlyTouches _ _ (State.vdEmit ..); refine onlyTouches.trans ?_ (State.vdEmit_touch ..) ?sub; (case sub => decide))
    | (with_reducible apply onlyTouches.ite)
    | (split)

theorem State.vdFault_touch (s : State) (n : Fin 16) (cause : Nat) :
    onlyTouches [.fab, .dig, .vg, .vd, .adm] s (State.vdFault s n cause) := by
  unfold State.vdFault
  dsimp only
  repeat' first
    | (with_reducible apply onlyTouches.refl)
    | (with_reducible show onlyTouches _ _ (State.capTrigger ..); refine onlyTouches.trans ?_ (State.capTrigger_touch ..) ?sub; (case sub => decide))
    | (with_reducible show onlyTouches _ _ (State.modVd ..); refine onlyTouches.trans ?_ (State.modVd_touch ..) ?sub; (case sub => decide))
    | (with_reducible show onlyTouches _ _ (State.vdEmit ..); refine onlyTouches.trans ?_ (State.vdEmit_touch ..) ?sub; (case sub => decide))
    | (with_reducible show onlyTouches _ _ (State.vdOff ..); refine onlyTouches.trans ?_ (State.vdOff_touch ..) ?sub; (case sub => decide))

theorem State.vdShort_touch (s : State) (n : Fin 16) (ma : Nat) :
    onlyTouches [.fab, .dig, .vg, .vd, .adm] s (State.vdShort s n ma) := by
  unfold State.vdShort
  repeat' first
    | (with_reducible apply onlyTouches.refl)
    | (with_reducible show onlyTouches _ _ (State.vdFault ..); refine onlyTouches.trans ?_ (State.vdFault_touch ..) ?sub; (case sub => decide))
    | (with_reducible apply onlyTouches.ite)

theorem State.vdOpen_touch (s : State) (n : Fin 16) (ma ms : Nat) :
    onlyTouches [.fab, .dig, .vg, .vd, .adm] s (State.vdOpen s n ma ms) := by
  unfold State.vdOpen
  dsimp only
  repeat' first
    | (with_reducible apply onlyTouches.refl)
    | (with_reducible show onlyTouches _ _ (State.vdFault ..); refine onlyTouches.trans ?_ (State.vdFault_touch ..) ?sub; (case sub => decide))
    | (with_reducible apply onlyTouches.ite)

theorem State.vdGroupHit_touch (s : State) (n : Fin 16) (faultBit : W32) :
    onlyTouches [.dig, .vg, .vd, .adm] s (State.vdGroupHit s n faultBit) := by
  unfold State.vdGroupHit
  dsimp only
  repeat' first
    | (with_reducible apply onlyTouches.refl)
    | (with_reducible show onlyTouches _ _ (State.modVd ..); refine onlyTouches.trans ?_ (State.modVd_touch ..) ?sub; (case sub => decide))
    | (with_reducible show onlyTouches _ _ (State.vdEnter ..); refine onlyTouches.trans ?_ (State.vdEnter_touch ..) ?sub; (case sub => decide))
    | (with_reducible show onlyTouches _ _ (State.vdOff ..); refine onlyTouches.trans ?_ (State.vdOff_touch ..) ?sub; (case sub => decide))
    | (with_reducible show onlyTouches _ _ (State.vdWithdraw ..); refine onlyTouches.trans ?_ (State.vdWithdraw_touch ..) ?sub; (case sub => decide))
    | (with_reducible show onlyTouches _ _ (State.onlyIf ..); refine onlyTouches.onlyIf ?_ fun x => ?_)
    | (split)

theorem State.groupFault_touch (s : State) (g : Fin 4) (cause : Nat) (faultBit : W32) :
    onlyTouches [.fab, .dig, .vg, .vd, .adm] s (State.groupFault s g cause faultBit) := by
  unfold State.groupFault
  dsimp only
  repeat' first
    | (with_reducible apply onlyTouches.refl)
    | (with_reducible show onlyTouches _ _ (State.emit ..); refine onlyTouches.trans ?_ (State.emit_touch ..) ?sub; (case sub => decide))
    | (with_reducible show onlyTouches _ _ (State.modVg ..); refine onlyTouches.trans ?_ (State.modVg_touch ..) ?sub; (case sub => decide))
    | (with_reducible show onlyTouches _ _ (State.vdGroupHit ..); refine onlyTouches.trans ?_ (State.vdGroupHit_touch ..) ?sub; (case sub => decide))
    | (with_reducible show onlyTouches _ _ (forFin ..); refine onlyTouches.forFin ?_ fun i x => ?_)
    | (with_reducible apply onlyTouches.ite)

theorem State.groupOc_touch (s : State) (g : Fin 4) (ma cycles : Nat) :
    onlyTouches [.fab, .dig, .vg, .vd, .adm] s (State.groupOc s g ma cycles) := by
  unfold State.groupOc
  repeat' first
    | (with_reducible apply onlyTouches.refl)
    | (with_reducible show onlyTouches _ _ (State.groupFault ..); refine onlyTouches.trans ?_ (State.groupFault_touch ..) ?sub; (case sub => decide))
    | (with_reducible apply onlyTouches.ite)

theorem State.groupSc_touch (s : State) (g : Fin 4) (ma : Nat) :
    onlyTouches [.fab, .dig, .vg, .vd, .adm] s (State.groupSc s g ma) := by
  unfold State.groupSc
  repeat' first
    | (with_reducible apply onlyTouches.refl)
    | (with_reducible show onlyTouches _ _ (State.groupFault ..); refine onlyTouches.trans ?_ (State.groupFault_touch ..) ?sub; (case sub => decide))
    | (with_reducible apply onlyTouches.ite)

theorem State.groupThermal_touch (s : State) (g : Fin 4) (tj : Int) :
    onlyTouches [.fab, .hs, .dig, .vg, .vd, .ls, .adm] s (State.groupThermal s g tj) := by
  unfold State.groupThermal
  dsimp only
  repeat' first
    | (with_reducible apply onlyTouches.refl)
    | (with_reducible show onlyTouches _ _ (State.groupFault ..); refine onlyTouches.trans ?_ (State.groupFault_touch ..) ?sub; (case sub => decide))
    | (with_reducible show onlyTouches _ _ (State.modVg ..); refine onlyTouches.trans ?_ (State.modVg_touch ..) ?sub; (case sub => decide))
    | (with_reducible show onlyTouches _ _ (State.setTj ..); refine onlyTouches.trans ?_ (State.setTj_touch ..) ?sub; (case sub => decide))
    | (with_reducible apply onlyTouches.ite)

theorem State.groupThermalClear_touch (s : State) (g : Fin 4) (tj : Int) :
    onlyTouches [.hs, .vg, .ls] s (State.groupThermalClear s g tj) := by
  unfold State.groupThermalClear
  repeat' first
    | (with_reducible apply onlyTouches.refl)
    | (with_reducible show onlyTouches _ _ (State.modVg ..); refine onlyTouches.trans ?_ (State.modVg_touch ..) ?sub; (case sub => decide))
    | (with_reducible show onlyTouches _ _ (State.setTj ..); refine onlyTouches.trans ?_ (State.setTj_touch ..) ?sub; (case sub => decide))
    | (with_reducible apply onlyTouches.ite)

theorem State.gswFail_touch (s : State) (g : Fin 4) :
    onlyTouches [.tmb, .fab, .dig, .vg, .vd, .adm, .pwr, .ecc, .pmc, .dep, .nv, .free] s (State.gswFail s g) := by
  unfold State.gswFail
  repeat' first
    | (with_reducible apply onlyTouches.refl)
    | (with_reducible show onlyTouches _ _ (State.advanceTo ..); refine onlyTouches.trans ?_ (State.advanceTo_touch ..) ?sub; (case sub => decide))
    | (with_reducible show onlyTouches _ _ (State.groupFault ..); refine onlyTouches.trans ?_ (State.groupFault_touch ..) ?sub; (case sub => decide))
    | (with_reducible apply onlyTouches.ite)

theorem State.gswReady_touch (s : State) (g : Fin 4) (gapMv : Nat) :
    onlyTouches [.vg] s (State.gswReady s g gapMv) := by
  unfold State.gswReady
  repeat' first
    | (with_reducible apply onlyTouches.refl)
    | (with_reducible show onlyTouches _ _ (State.modVg ..); refine onlyTouches.trans ?_ (State.modVg_touch ..) ?sub; (case sub => decide))
    | (with_reducible apply onlyTouches.ite)

theorem State.gswOff_touch (s : State) (g : Fin 4) :
    onlyTouches [.tmb, .fab, .vg, .pwr, .ecc, .pmc, .dep, .nv, .free] s (State.gswOff s g) := by
  unfold State.gswOff
  dsimp only
  repeat' first
    | (with_reducible apply onlyTouches.refl)
    | (with_reducible show onlyTouches _ _ (State.advanceTo ..); refine onlyTouches.trans ?_ (State.advanceTo_touch ..) ?sub; (case sub => decide))
    | (with_reducible show onlyTouches _ _ (State.modVg ..); refine onlyTouches.trans ?_ (State.modVg_touch ..) ?sub; (case sub => decide))
    | (with_reducible apply onlyTouches.ite)

theorem State.vgOffAll_touch (s : State) (g : Fin 4) (same : Bool) :
    onlyTouches [.dig, .vg, .vd, .adm] s (State.vgOffAll s g same) := by
  unfold State.vgOffAll
  repeat' first
    | (with_reducible apply onlyTouches.refl)
    | (with_reducible show onlyTouches _ _ (State.vdOffCmd ..); refine onlyTouches.trans ?_ (State.vdOffCmd_touch ..) ?sub; (case sub => decide))
    | (with_reducible show onlyTouches _ _ (forFin ..); refine onlyTouches.forFin ?_ fun i x => ?_)
    | (with_reducible apply onlyTouches.ite)

theorem State.vgClear_touch (s : State) (g : Fin 4) :
    onlyTouches [.vg] s (State.vgClear s g) := by
  unfold State.vgClear
  repeat' first
    | (with_reducible apply onlyTouches.refl)
    | (with_reducible show onlyTouches _ _ (State.modVg ..); refine onlyTouches.trans ?_ (State.modVg_touch ..) ?sub; (case sub => decide))

theorem State.vgUv_touch (s : State) (g : Fin 4) :
    onlyTouches [.dig, .vg, .vd, .adm] s (State.vgUv s g) := by
  unfold State.vgUv
  repeat' first
    | (with_reducible apply onlyTouches.refl)
    | (with_reducible show onlyTouches _ _ (State.vdGroupHit ..); refine onlyTouches.trans ?_ (State.vdGroupHit_touch ..) ?sub; (case sub => decide))
    | (with_reducible show onlyTouches _ _ (forFin ..); refine onlyTouches.forFin ?_ fun i x => ?_)
    | (with_reducible apply onlyTouches.ite)

theorem State.vdFall_touch (s : State) (n : Fin 16) (same : Bool) :
    onlyTouches [.dig, .vg, .vd, .adm] s (State.vdFall s n same) := by
  unfold State.vdFall
  dsimp only
  repeat' first
    | (with_reducible apply onlyTouches.refl)
    | (with_reducible show onlyTouches _ _ (State.modVd ..); refine onlyTouches.trans ?_ (State.modVd_touch ..) ?sub; (case sub => decide))
    | (with_reducible show onlyTouches _ _ (State.vdOffCmd ..); refine onlyTouches.trans ?_ (State.vdOffCmd_touch ..) ?sub; (case sub => decide))

theorem State.vdRouted_touch (s : State) (n : Fin 16) (level same : Bool) :
    onlyTouches [.fab, .dig, .vg, .vd, .adm] s (State.vdRouted s n level same) := by
  unfold State.vdRouted
  repeat' first
    | (with_reducible apply onlyTouches.refl)
    | (with_reducible show onlyTouches _ _ (State.modVd ..); refine onlyTouches.trans ?_ (State.modVd_touch ..) ?sub; (case sub => decide))
    | (with_reducible show onlyTouches _ _ (State.vdFall ..); refine onlyTouches.trans ?_ (State.vdFall_touch ..) ?sub; (case sub => decide))
    | (with_reducible show onlyTouches _ _ (State.vdOnCmd ..); refine onlyTouches.trans ?_ (State.vdOnCmd_touch ..) ?sub; (case sub => decide))
    | (with_reducible apply onlyTouches.ite)

theorem State.vdLimpEnter_touch (s : State) (n : Fin 16) (src : Nat) (level same : Bool) :
    onlyTouches [.fab, .dig, .vg, .vd, .adm] s (State.vdLimpEnter s n src level same) := by
  unfold State.vdLimpEnter
  dsimp only
  repeat' first
    | (with_reducible apply onlyTouches.refl)
    | (with_reducible show onlyTouches _ _ (State.modVd ..); refine onlyTouches.trans ?_ (State.modVd_touch ..) ?sub; (case sub => decide))
    | (with_reducible show onlyTouches _ _ (State.vdEmit ..); refine onlyTouches.trans ?_ (State.vdEmit_touch ..) ?sub; (case sub => decide))
    | (with_reducible show onlyTouches _ _ (State.vdEnter ..); refine onlyTouches.trans ?_ (State.vdEnter_touch ..) ?sub; (case sub => decide))
    | (with_reducible show onlyTouches _ _ (State.vdFall ..); refine onlyTouches.trans ?_ (State.vdFall_touch ..) ?sub; (case sub => decide))
    | (with_reducible show onlyTouches _ _ (State.vdOnCmd ..); refine onlyTouches.trans ?_ (State.vdOnCmd_touch ..) ?sub; (case sub => decide))
    | (with_reducible apply onlyTouches.ite)

theorem State.vdLimpExit_touch (s : State) (n : Fin 16) :
    onlyTouches [.fab, .vd] s (State.vdLimpExit s n) := by
  unfold State.vdLimpExit
  repeat' first
    | (with_reducible apply onlyTouches.refl)
    | (with_reducible show onlyTouches _ _ (State.modVd ..); refine onlyTouches.trans ?_ (State.modVd_touch ..) ?sub; (case sub => decide))
    | (with_reducible show onlyTouches _ _ (State.vdEmit ..); refine onlyTouches.trans ?_ (State.vdEmit_touch ..) ?sub; (case sub => decide))
    | (with_reducible apply onlyTouches.ite)

theorem State.vdOrphanOff_touch (s : State) (n : Fin 16) :
    onlyTouches [.fab, .dig, .vg, .vd, .adm] s (State.vdOrphanOff s n) := by
  unfold State.vdOrphanOff
  dsimp only
  repeat' first
    | (with_reducible apply onlyTouches.refl)
    | (with_reducible show onlyTouches _ _ (State.modVd ..); refine onlyTouches.trans ?_ (State.modVd_touch ..) ?sub; (case sub => decide))
    | (with_reducible show onlyTouches _ _ (State.vdEmit ..); refine onlyTouches.trans ?_ (State.vdEmit_touch ..) ?sub; (case sub => decide))
    | (with_reducible show onlyTouches _ _ (State.vdOffCmd ..); refine onlyTouches.trans ?_ (State.vdOffCmd_touch ..) ?sub; (case sub => decide))
    | (with_reducible apply onlyTouches.ite)

theorem State.vdProfWrite_touch (s : State) (n : Fin 16) (w : W32) :
    onlyTouches [.vd] s (State.vdProfWrite s n w) := by
  unfold State.vdProfWrite
  dsimp only
  repeat' first
    | (with_reducible apply onlyTouches.refl)
    | (with_reducible show onlyTouches _ _ (State.modVd ..); refine onlyTouches.trans ?_ (State.modVd_touch ..) ?sub; (case sub => decide))
    | (with_reducible show onlyTouches _ _ (State.vdRes ..); refine onlyTouches.trans ?_ (State.vdRes_touch ..) ?sub; (case sub => decide))
    | (with_reducible apply onlyTouches.ite)

theorem State.vdProfDone_touch (s : State) (n : Fin 16) :
    onlyTouches [.vd] s (State.vdProfDone s n) := by
  unfold State.vdProfDone
  repeat' first
    | (with_reducible apply onlyTouches.refl)
    | (with_reducible show onlyTouches _ _ (State.modVd ..); refine onlyTouches.trans ?_ (State.modVd_touch ..) ?sub; (case sub => decide))
    | (with_reducible apply onlyTouches.ite)

theorem State.vdWrite_touch (s : State) (n : Fin 16) (off : Nat) (w : W32) :
    onlyTouches [.fab, .dig, .vg, .vd, .adm, .pwr, .sys, .mem, .ecc, .pmc, .free] s (State.vdWrite s n off w) := by
  unfold State.vdWrite
  repeat' first
    | (with_reducible apply onlyTouches.refl)
    | (with_reducible show onlyTouches _ _ (State.digWrite ..); refine onlyTouches.trans ?_ (State.digWrite_touch ..) ?sub; (case sub => decide))
    | (with_reducible show onlyTouches _ _ (State.modVd ..); refine onlyTouches.trans ?_ (State.modVd_touch ..) ?sub; (case sub => decide))
    | (with_reducible show onlyTouches _ _ (State.vdCmdWrite ..); refine onlyTouches.trans ?_ (State.vdCmdWrite_touch ..) ?sub; (case sub => decide))
    | (with_reducible show onlyTouches _ _ (State.vdCtlWrite ..); refine onlyTouches.trans ?_ (State.vdCtlWrite_touch ..) ?sub; (case sub => decide))
    | (with_reducible show onlyTouches _ _ (State.vdProfWrite ..); refine onlyTouches.trans ?_ (State.vdProfWrite_touch ..) ?sub; (case sub => decide))
    | (with_reducible show onlyTouches _ _ (State.vdSetWrite ..); refine onlyTouches.trans ?_ (State.vdSetWrite_touch ..) ?sub; (case sub => decide))
    | (with_reducible apply onlyTouches.ite)
    | (split)

theorem State.vgWrite_touch (s : State) (g : Fin 4) (off : Nat) (w : W32) :
    onlyTouches [.dig, .vg, .vd, .adm] s (State.vgWrite s g off w) := by
  unfold State.vgWrite
  repeat' first
    | (with_reducible apply onlyTouches.refl)
    | (with_reducible show onlyTouches _ _ (State.modVg ..); refine onlyTouches.trans ?_ (State.modVg_touch ..) ?sub; (case sub => decide))
    | (with_reducible show onlyTouches _ _ (State.vgClear ..); refine onlyTouches.trans ?_ (State.vgClear_touch ..) ?sub; (case sub => decide))
    | (with_reducible show onlyTouches _ _ (State.vgOffAll ..); refine onlyTouches.trans ?_ (State.vgOffAll_touch ..) ?sub; (case sub => decide))
    | (with_reducible show onlyTouches _ _ (State.onlyIf ..); refine onlyTouches.onlyIf ?_ fun x => ?_)
    | (with_reducible apply onlyTouches.ite)
    | (split)

theorem State.vlvWrite_touch (s : State) (off : Nat) (w : W32) :
    onlyTouches [.fab, .dig, .vlvCtl, .vg, .vd, .adm, .pwr, .sys, .mem, .ecc, .pmc, .free] s (State.vlvWrite s off w) := by
  unfold State.vlvWrite
  repeat' first
    | (with_reducible apply onlyTouches.refl)
    | (with_reducible show onlyTouches _ _ (State.vdWrite ..); refine onlyTouches.trans ?_ (State.vdWrite_touch ..) ?sub; (case sub => decide))
    | (with_reducible show onlyTouches _ _ (State.vgWrite ..); refine onlyTouches.trans ?_ (State.vgWrite_touch ..) ?sub; (case sub => decide))
    | (with_reducible apply onlyTouches.ite)
    | (with_reducible apply onlyTouches.dite <;> intro h)
    | (split)
    | (with_reducible apply onlyTouches.put_vlvCtl; (case m => decide))

end Sys2Proof.Machine
end

