-- ==== Sys2Proof/Laws/TouchLamp.lean ====
section
/-! SUPPORT. The parts of State that each operation of Machine/Lamp.lean changes. -/

namespace Sys2Proof.Machine

theorem State.lsEmit_touch (s : State) (k : Fin 3) (code : Nat) (arg : W32) :
    onlyTouches [.fab] s (State.lsEmit s k code arg) := by
  unfold State.lsEmit
  repeat' first
    | (with_reducible apply onlyTouches.refl)
    | (with_reducible show onlyTouches _ _ (State.emit ..); refine onlyTouches.trans ?_ (State.emit_touch ..) ?sub; (case sub => decide))

theorem State.lsRes_touch (s : State) (k : Fin 3) (r : Nat) :
    onlyTouches [.ls] s (State.lsRes s k r) := by
  unfold State.lsRes
  repeat' first
    | (with_reducible apply onlyTouches.refl)
    | (with_reducible show onlyTouches _ _ (State.modLs ..); refine onlyTouches.trans ?_ (State.modLs_touch ..) ?sub; (case sub => decide))

theorem State.lsEnter_touch (s : State) (k : Fin 3) (st : LsSt) :
    onlyTouches [.ls] s (State.lsEnter s k st) := by
  unfold State.lsEnter
  repeat' first
    | (with_reducible apply onlyTouches.refl)
    | (with_reducible show onlyTouches _ _ (State.modLs ..); refine onlyTouches.trans ?_ (State.modLs_touch ..) ?sub; (case sub => decide))

theorem State.lsMeasure_touch (s : State) (k : Fin 3) :
    onlyTouches [.ls, .free] s (State.lsMeasure s k) := by
  unfold State.lsMeasure
  dsimp only
  repeat' first
    | (with_reducible apply onlyTouches.refl)
    | (with_reducible show onlyTouches _ _ (State.draw ..).2; refine onlyTouches.trans ?_ (State.draw_touch ..) ?sub; (case sub => decide))
    | (with_reducible show onlyTouches _ _ (State.modLs ..); refine onlyTouches.trans ?_ (State.modLs_touch ..) ?sub; (case sub => decide))

theorem State.lsMark_touch (s : State) (k : Fin 3) (m : Mark) :
    onlyTouches [.ls] s (State.lsMark s k m) := by
  unfold State.lsMark
  repeat' first
    | (with_reducible apply onlyTouches.refl)
    | (with_reducible show onlyTouches _ _ (State.modLs ..); refine onlyTouches.trans ?_ (State.modLs_touch ..) ?sub; (case sub => decide))

theorem State.lsRelease_touch (s : State) (k : Fin 3) :
    onlyTouches [.ls, .adm] s (State.lsRelease s k) := by
  unfold State.lsRelease
  repeat' first
    | (with_reducible apply onlyTouches.refl)
    | (with_reducible show onlyTouches _ _ (State.modLs ..); refine onlyTouches.trans ?_ (State.modLs_touch ..) ?sub; (case sub => decide))
    | (with_reducible show onlyTouches _ _ (State.toAdm ..); refine onlyTouches.trans ?_ (State.toAdm_touch ..) ?sub; (case sub => decide))
    | (with_reducible apply onlyTouches.ite)

theorem State.lsRequest_touch (s : State) (k : Fin 3) (prio : Nat) (kind : ReqKind) :
    onlyTouches [.dig, .ls, .adm] s (State.lsRequest s k prio kind) := by
  unfold State.lsRequest
  dsimp only
  repeat' first
    | (with_reducible apply onlyTouches.refl)
    | (with_reducible show onlyTouches _ _ (State.lsEnter ..); refine onlyTouches.trans ?_ (State.lsEnter_touch ..) ?sub; (case sub => decide))
    | (with_reducible show onlyTouches _ _ (State.modLs ..); refine onlyTouches.trans ?_ (State.modLs_touch ..) ?sub; (case sub => decide))
    | (with_reducible show onlyTouches _ _ (State.toAdm ..); refine onlyTouches.trans ?_ (State.toAdm_touch ..) ?sub; (case sub => decide))
    | (with_reducible show onlyTouches _ _ (State.zeroAbort ..); refine onlyTouches.trans ?_ (State.zeroAbort_touch ..) ?sub; (case sub => decide))

theorem State.lsWithdraw_touch (s : State) (k : Fin 3) (st : LsSt) :
    onlyTouches [.ls, .adm] s (State.lsWithdraw s k st) := by
  unfold State.lsWithdraw
  repeat' first
    | (with_reducible apply onlyTouches.refl)
    | (with_reducible show onlyTouches _ _ (State.lsEnter ..); refine onlyTouches.trans ?_ (State.lsEnter_touch ..) ?sub; (case sub => decide))
    | (with_reducible show onlyTouches _ _ (State.modLs ..); refine onlyTouches.trans ?_ (State.modLs_touch ..) ?sub; (case sub => decide))
    | (with_reducible show onlyTouches _ _ (State.toAdm ..); refine onlyTouches.trans ?_ (State.toAdm_touch ..) ?sub; (case sub => decide))

theorem State.lsStop_touch (s : State) (k : Fin 3) (st : LsSt) (cause : Nat) :
    onlyTouches [.fab, .dig, .ls, .adm] s (State.lsStop s k st cause) := by
  unfold State.lsStop
  dsimp only
  repeat' first
    | (with_reducible apply onlyTouches.refl)
    | (with_reducible show onlyTouches _ _ (State.capTrigger ..); refine onlyTouches.trans ?_ (State.capTrigger_touch ..) ?sub; (case sub => decide))
    | (with_reducible show onlyTouches _ _ (State.lsEmit ..); refine onlyTouches.trans ?_ (State.lsEmit_touch ..) ?sub; (case sub => decide))
    | (with_reducible show onlyTouches _ _ (State.lsEnter ..); refine onlyTouches.trans ?_ (State.lsEnter_touch ..) ?sub; (case sub => decide))
    | (with_reducible show onlyTouches _ _ (State.lsRelease ..); refine onlyTouches.trans ?_ (State.lsRelease_touch ..) ?sub; (case sub => decide))
    | (with_reducible show onlyTouches _ _ (State.modLs ..); refine onlyTouches.trans ?_ (State.modLs_touch ..) ?sub; (case sub => decide))

theorem State.lsOnCmd_touch (s : State) (k : Fin 3) (routed : Bool) :
    onlyTouches [.dig, .ls, .adm] s (State.lsOnCmd s k routed) := by
  unfold State.lsOnCmd
  dsimp only
  repeat' first
    | (with_reducible apply onlyTouches.refl)
    | (with_reducible show onlyTouches _ _ (State.lsEnter ..); refine onlyTouches.trans ?_ (State.lsEnter_touch ..) ?sub; (case sub => decide))
    | (with_reducible show onlyTouches _ _ (State.lsRequest ..); refine onlyTouches.trans ?_ (State.lsRequest_touch ..) ?sub; (case sub => decide))
    | (with_reducible show onlyTouches _ _ (State.lsRes ..); refine onlyTouches.trans ?_ (State.lsRes_touch ..) ?sub; (case sub => decide))
    | (with_reducible apply onlyTouches.ite)
    | (split)

theorem State.lsOffCmd_touch (s : State) (k : Fin 3) (cause : Nat) (same : Bool) :
    onlyTouches [.fab, .dig, .ls, .adm] s (State.lsOffCmd s k cause same) := by
  unfold State.lsOffCmd
  dsimp only
  repeat' first
    | (with_reducible apply onlyTouches.refl)
    | (with_reducible show onlyTouches _ _ (State.lsEnter ..); refine onlyTouches.trans ?_ (State.lsEnter_touch ..) ?sub; (case sub => decide))
    | (with_reducible show onlyTouches _ _ (State.lsRes ..); refine onlyTouches.trans ?_ (State.lsRes_touch ..) ?sub; (case sub => decide))
    | (with_reducible show onlyTouches _ _ (State.lsStop ..); refine onlyTouches.trans ?_ (State.lsStop_touch ..) ?sub; (case sub => decide))
    | (with_reducible show onlyTouches _ _ (State.lsWithdraw ..); refine onlyTouches.trans ?_ (State.lsWithdraw_touch ..) ?sub; (case sub => decide))
    | (with_reducible apply onlyTouches.ite)
    | (split)

theorem State.lsClearCmd_touch (s : State) (k : Fin 3) :
    onlyTouches [.ls] s (State.lsClearCmd s k) := by
  unfold State.lsClearCmd
  dsimp only
  repeat' first
    | (with_reducible apply onlyTouches.refl)
    | (with_reducible show onlyTouches _ _ (State.lsEnter ..); refine onlyTouches.trans ?_ (State.lsEnter_touch ..) ?sub; (case sub => decide))
    | (with_reducible show onlyTouches _ _ (State.lsRes ..); refine onlyTouches.trans ?_ (State.lsRes_touch ..) ?sub; (case sub => decide))
    | (with_reducible apply onlyTouches.ite)
    | (split)

theorem State.lsSegClr_touch (s : State) (k : Fin 3) (mask : Nat) :
    onlyTouches [.ls] s (State.lsSegClr s k mask) := by
  unfold State.lsSegClr
  repeat' first
    | (with_reducible apply onlyTouches.refl)
    | (with_reducible show onlyTouches _ _ (State.modLs ..); refine onlyTouches.trans ?_ (State.modLs_touch ..) ?sub; (case sub => decide))

theorem State.lsCmdWrite_touch (s : State) (k : Fin 3) (on off clear same : Bool) (segClr : Nat) :
    onlyTouches [.fab, .dig, .ls, .adm] s (State.lsCmdWrite s k on off clear same segClr) := by
  unfold State.lsCmdWrite
  dsimp only
  repeat' first
    | (with_reducible apply onlyTouches.refl)
    | (with_reducible show onlyTouches _ _ (State.lsClearCmd ..); refine onlyTouches.trans ?_ (State.lsClearCmd_touch ..) ?sub; (case sub => decide))
    | (with_reducible show onlyTouches _ _ (State.lsOffCmd ..); refine onlyTouches.trans ?_ (State.lsOffCmd_touch ..) ?sub; (case sub => decide))
    | (with_reducible show onlyTouches _ _ (State.lsOnCmd ..); refine onlyTouches.trans ?_ (State.lsOnCmd_touch ..) ?sub; (case sub => decide))
    | (with_reducible show onlyTouches _ _ (State.lsRes ..); refine onlyTouches.trans ?_ (State.lsRes_touch ..) ?sub; (case sub => decide))
    | (with_reducible show onlyTouches _ _ (State.lsSegClr ..); refine onlyTouches.trans ?_ (State.lsSegClr_touch ..) ?sub; (case sub => decide))
    | (with_reducible apply onlyTouches.ite)

theorem State.lsCtlWrite_touch (s : State) (k : Fin 3) (v : W32) (same : Bool) :
    onlyTouches [.fab, .dig, .ls, .adm] s (State.lsCtlWrite s k v same) := by
  unfold State.lsCtlWrite
  dsimp only
  repeat' first
    | (with_reducible apply onlyTouches.refl)
    | (with_reducible show onlyTouches _ _ (State.lsEnter ..); refine onlyTouches.trans ?_ (State.lsEnter_touch ..) ?sub; (case sub => decide))
    | (with_reducible show onlyTouches _ _ (State.lsRes ..); refine onlyTouches.trans ?_ (State.lsRes_touch ..) ?sub; (case sub => decide))
    | (with_reducible show onlyTouches _ _ (State.lsStop ..); refine onlyTouches.trans ?_ (State.lsStop_touch ..) ?sub; (case sub => decide))
    | (with_reducible show onlyTouches _ _ (State.lsWithdraw ..); refine onlyTouches.trans ?_ (State.lsWithdraw_touch ..) ?sub; (case sub => decide))
    | (with_reducible show onlyTouches _ _ (State.modLs ..); refine onlyTouches.trans ?_ (State.modLs_touch ..) ?sub; (case sub => decide))
    | (with_reducible apply onlyTouches.ite)
    | (split)

theorem State.lsGrantArrives_touch (s : State) (k : Fin 3) :
    onlyTouches [.dig, .ls, .adm] s (State.lsGrantArrives s k) := by
  unfold State.lsGrantArrives
  dsimp only
  repeat' first
    | (with_reducible apply onlyTouches.refl)
    | (with_reducible show onlyTouches _ _ (State.capTrigger ..); refine onlyTouches.trans ?_ (State.capTrigger_touch ..) ?sub; (case sub => decide))
    | (with_reducible show onlyTouches _ _ (State.lsEnter ..); refine onlyTouches.trans ?_ (State.lsEnter_touch ..) ?sub; (case sub => decide))
    | (with_reducible show onlyTouches _ _ (State.lsMark ..); refine onlyTouches.trans ?_ (State.lsMark_touch ..) ?sub; (case sub => decide))
    | (with_reducible show onlyTouches _ _ (State.modLs ..); refine onlyTouches.trans ?_ (State.modLs_touch ..) ?sub; (case sub => decide))
    | (with_reducible show onlyTouches _ _ (State.toAdm ..); refine onlyTouches.trans ?_ (State.toAdm_touch ..) ?sub; (case sub => decide))
    | (with_reducible apply onlyTouches.ite)

theorem State.lsDrop_touch (s : State) (k : Fin 3) :
    onlyTouches [.fab, .ls] s (State.lsDrop s k) := by
  unfold State.lsDrop
  repeat' first
    | (with_reducible apply onlyTouches.refl)
    | (with_reducible show onlyTouches _ _ (State.lsEmit ..); refine onlyTouches.trans ?_ (State.lsEmit_touch ..) ?sub; (case sub => decide))
    | (with_reducible show onlyTouches _ _ (State.lsEnter ..); refine onlyTouches.trans ?_ (State.lsEnter_touch ..) ?sub; (case sub => decide))
    | (with_reducible show onlyTouches _ _ (State.modLs ..); refine onlyTouches.trans ?_ (State.modLs_touch ..) ?sub; (case sub => decide))
    | (with_reducible apply onlyTouches.ite)

theorem State.lsEntry_touch (s : State) (k : Fin 3) :
    onlyTouches [.adm] s (State.lsEntry s k) := by
  unfold State.lsEntry
  repeat' first
    | (with_reducible apply onlyTouches.refl)
    | (with_reducible show onlyTouches _ _ (State.toAdm ..); refine onlyTouches.trans ?_ (State.toAdm_touch ..) ?sub; (case sub => decide))
    | (with_reducible apply onlyTouches.ite)

theorem State.lsRampEnd_touch (s : State) (k : Fin 3) :
    onlyTouches [.tmb, .fab, .ls, .adm, .pwr, .ecc, .pmc, .dep, .nv, .free] s (State.lsRampEnd s k) := by
  unfold State.lsRampEnd
  dsimp only
  repeat' first
    | (with_reducible apply onlyTouches.refl)
    | (with_reducible show onlyTouches _ _ (State.advanceTo ..); refine onlyTouches.trans ?_ (State.advanceTo_touch ..) ?sub; (case sub => decide))
    | (with_reducible show onlyTouches _ _ (State.lsEmit ..); refine onlyTouches.trans ?_ (State.lsEmit_touch ..) ?sub; (case sub => decide))
    | (with_reducible show onlyTouches _ _ (State.lsEnter ..); refine onlyTouches.trans ?_ (State.lsEnter_touch ..) ?sub; (case sub => decide))
    | (with_reducible show onlyTouches _ _ (State.lsRelease ..); refine onlyTouches.trans ?_ (State.lsRelease_touch ..) ?sub; (case sub => decide))
    | (with_reducible apply onlyTouches.ite)

theorem State.lsVerify_touch (s : State) (k : Fin 3) :
    onlyTouches [.fab, .ls] s (State.lsVerify s k) := by
  unfold State.lsVerify
  dsimp only
  repeat' first
    | (with_reducible apply onlyTouches.refl)
    | (with_reducible show onlyTouches _ _ (State.lsEmit ..); refine onlyTouches.trans ?_ (State.lsEmit_touch ..) ?sub; (case sub => decide))
    | (with_reducible show onlyTouches _ _ (State.modLs ..); refine onlyTouches.trans ?_ (State.modLs_touch ..) ?sub; (case sub => decide))
    | (with_reducible show onlyTouches _ _ (forFin ..); refine onlyTouches.forFin ?_ fun i x => ?_)
    | (with_reducible apply onlyTouches.ite)

theorem State.lsProbe_touch (s : State) (k : Fin 3) :
    onlyTouches [.ls] s (State.lsProbe s k) := by
  unfold State.lsProbe
  dsimp only
  repeat' first
    | (with_reducible apply onlyTouches.refl)
    | (with_reducible show onlyTouches _ _ (State.modLs ..); refine onlyTouches.trans ?_ (State.modLs_touch ..) ?sub; (case sub => decide))
    | (with_reducible apply onlyTouches.ite)
    | (split)

theorem State.lsFrame_touch (s : State) (k : Fin 3) (cycles vOut : Nat) :
    onlyTouches [.tmb, .fab, .ls, .pwr, .ecc, .pmc, .dep, .nv, .free] s (State.lsFrame s k cycles vOut) := by
  unfold State.lsFrame
  dsimp only
  repeat' first
    | (with_reducible apply onlyTouches.refl)
    | (with_reducible show onlyTouches _ _ (State.advanceTo ..); refine onlyTouches.trans ?_ (State.advanceTo_touch ..) ?sub; (case sub => decide))
    | (with_reducible show onlyTouches _ _ (State.lsProbe ..); refine onlyTouches.trans ?_ (State.lsProbe_touch ..) ?sub; (case sub => decide))
    | (with_reducible show onlyTouches _ _ (State.lsVerify ..); refine onlyTouches.trans ?_ (State.lsVerify_touch ..) ?sub; (case sub => decide))
    | (with_reducible show onlyTouches _ _ (State.modLs ..); refine onlyTouches.trans ?_ (State.modLs_touch ..) ?sub; (case sub => decide))
    | (with_reducible apply onlyTouches.ite)

theorem State.lsJudge_touch (s : State) (k : Fin 3) (i : Fin 8) (mv : Nat) :
    onlyTouches [.tmb, .fab, .ls, .pwr, .ecc, .pmc, .dep, .nv, .free] s (State.lsJudge s k i mv) := by
  unfold State.lsJudge
  dsimp only
  repeat' first
    | (with_reducible apply onlyTouches.refl)
    | (with_reducible show onlyTouches _ _ (State.advanceTo ..); refine onlyTouches.trans ?_ (State.advanceTo_touch ..) ?sub; (case sub => decide))
    | (with_reducible show onlyTouches _ _ (State.lsEmit ..); refine onlyTouches.trans ?_ (State.lsEmit_touch ..) ?sub; (case sub => decide))
    | (with_reducible show onlyTouches _ _ (State.modLs ..); refine onlyTouches.trans ?_ (State.modLs_touch ..) ?sub; (case sub => decide))
    | (with_reducible apply onlyTouches.ite)
    | (split)

theorem State.lsFault_touch (s : State) (k : Fin 3) (cause seg : Nat) (faultBit : W32) :
    onlyTouches [.fab, .dig, .ls, .adm] s (State.lsFault s k cause seg faultBit) := by
  unfold State.lsFault
  dsimp only
  repeat' first
    | (with_reducible apply onlyTouches.refl)
    | (with_reducible show onlyTouches _ _ (State.capTrigger ..); refine onlyTouches.trans ?_ (State.capTrigger_touch ..) ?sub; (case sub => decide))
    | (with_reducible show onlyTouches _ _ (State.lsEmit ..); refine onlyTouches.trans ?_ (State.lsEmit_touch ..) ?sub; (case sub => decide))
    | (with_reducible show onlyTouches _ _ (State.lsEnter ..); refine onlyTouches.trans ?_ (State.lsEnter_touch ..) ?sub; (case sub => decide))
    | (with_reducible show onlyTouches _ _ (State.lsStop ..); refine onlyTouches.trans ?_ (State.lsStop_touch ..) ?sub; (case sub => decide))
    | (with_reducible show onlyTouches _ _ (State.lsWithdraw ..); refine onlyTouches.trans ?_ (State.lsWithdraw_touch ..) ?sub; (case sub => decide))
    | (with_reducible show onlyTouches _ _ (State.modLs ..); refine onlyTouches.trans ?_ (State.modLs_touch ..) ?sub; (case sub => decide))
    | (split)

theorem State.lsSegOpen_touch (s : State) (k : Fin 3) (i : Fin 8) (mv ns : Nat) :
    onlyTouches [.fab, .dig, .ls, .adm] s (State.lsSegOpen s k i mv ns) := by
  unfold State.lsSegOpen
  dsimp only
  repeat' first
    | (with_reducible apply onlyTouches.refl)
    | (with_reducible show onlyTouches _ _ (State.lsEmit ..); refine onlyTouches.trans ?_ (State.lsEmit_touch ..) ?sub; (case sub => decide))
    | (with_reducible show onlyTouches _ _ (State.lsFault ..); refine onlyTouches.trans ?_ (State.lsFault_touch ..) ?sub; (case sub => decide))
    | (with_reducible show onlyTouches _ _ (State.lsVerify ..); refine onlyTouches.trans ?_ (State.lsVerify_touch ..) ?sub; (case sub => decide))
    | (with_reducible show onlyTouches _ _ (State.modLs ..); refine onlyTouches.trans ?_ (State.modLs_touch ..) ?sub; (case sub => decide))
    | (with_reducible apply onlyTouches.ite)

theorem State.lsShort_touch (s : State) (k : Fin 3) (buckMa ma us : Nat) :
    onlyTouches [.fab, .dig, .ls, .adm] s (State.lsShort s k buckMa ma us) := by
  unfold State.lsShort
  repeat' first
    | (with_reducible apply onlyTouches.refl)
    | (with_reducible show onlyTouches _ _ (State.lsFault ..); refine onlyTouches.trans ?_ (State.lsFault_touch ..) ?sub; (case sub => decide))
    | (with_reducible apply onlyTouches.ite)

theorem State.lsOpen_touch (s : State) (k : Fin 3) (ma us : Nat) (atLim : Bool) :
    onlyTouches [.fab, .dig, .ls, .adm] s (State.lsOpen s k ma us atLim) := by
  unfold State.lsOpen
  dsimp only
  repeat' first
    | (with_reducible apply onlyTouches.refl)
    | (with_reducible show onlyTouches _ _ (State.lsFault ..); refine onlyTouches.trans ?_ (State.lsFault_touch ..) ?sub; (case sub => decide))
    | (with_reducible apply onlyTouches.ite)

theorem State.lsSat_touch (s : State) (k : Fin 3) (ma us : Nat) (atLim : Bool) :
    onlyTouches [.fab, .ls] s (State.lsSat s k ma us atLim) := by
  unfold State.lsSat
  dsimp only
  repeat' first
    | (with_reducible apply onlyTouches.refl)
    | (with_reducible show onlyTouches _ _ (State.lsEmit ..); refine onlyTouches.trans ?_ (State.lsEmit_touch ..) ?sub; (case sub => decide))
    | (with_reducible show onlyTouches _ _ (State.modLs ..); refine onlyTouches.trans ?_ (State.modLs_touch ..) ?sub; (case sub => decide))
    | (with_reducible apply onlyTouches.ite)

theorem State.lsThermal_touch (s : State) (k : Fin 3) (tj : Int) :
    onlyTouches [.fab, .hs, .dig, .vg, .ls, .adm] s (State.lsThermal s k tj) := by
  unfold State.lsThermal
  dsimp only
  repeat' first
    | (with_reducible apply onlyTouches.refl)
    | (with_reducible show onlyTouches _ _ (State.lsFault ..); refine onlyTouches.trans ?_ (State.lsFault_touch ..) ?sub; (case sub => decide))
    | (with_reducible show onlyTouches _ _ (State.modLs ..); refine onlyTouches.trans ?_ (State.modLs_touch ..) ?sub; (case sub => decide))
    | (with_reducible show onlyTouches _ _ (State.setTj ..); refine onlyTouches.trans ?_ (State.setTj_touch ..) ?sub; (case sub => decide))
    | (with_reducible apply onlyTouches.ite)
    | (split)

theorem State.lsTryRestart_touch (s : State) (k : Fin 3) :
    onlyTouches [.dig, .ls, .adm] s (State.lsTryRestart s k) := by
  unfold State.lsTryRestart
  dsimp only
  repeat' first
    | (with_reducible apply onlyTouches.refl)
    | (with_reducible show onlyTouches _ _ (State.lsRequest ..); refine onlyTouches.trans ?_ (State.lsRequest_touch ..) ?sub; (case sub => decide))
    | (with_reducible apply onlyTouches.ite)

theorem State.lsThermalClear_touch (s : State) (k : Fin 3) (tj : Int) :
    onlyTouches [.hs, .dig, .vg, .ls, .adm, .free] s (State.lsThermalClear s k tj) := by
  unfold State.lsThermalClear
  repeat' first
    | (with_reducible apply onlyTouches.refl)
    | (with_reducible show onlyTouches _ _ (State.lsMeasure ..); refine onlyTouches.trans ?_ (State.lsMeasure_touch ..) ?sub; (case sub => decide))
    | (with_reducible show onlyTouches _ _ (State.lsTryRestart ..); refine onlyTouches.trans ?_ (State.lsTryRestart_touch ..) ?sub; (case sub => decide))
    | (with_reducible show onlyTouches _ _ (State.modLs ..); refine onlyTouches.trans ?_ (State.modLs_touch ..) ?sub; (case sub => decide))
    | (with_reducible show onlyTouches _ _ (State.setTj ..); refine onlyTouches.trans ?_ (State.setTj_touch ..) ?sub; (case sub => decide))
    | (with_reducible apply onlyTouches.ite)

theorem State.lsUv_touch (s : State) (k : Fin 3) (mv us : Nat) :
    onlyTouches [.fab, .dig, .ls, .adm] s (State.lsUv s k mv us) := by
  unfold State.lsUv
  dsimp only
  repeat' first
    | (with_reducible apply onlyTouches.refl)
    | (with_reducible show onlyTouches _ _ (State.lsStop ..); refine onlyTouches.trans ?_ (State.lsStop_touch ..) ?sub; (case sub => decide))
    | (with_reducible show onlyTouches _ _ (State.lsWithdraw ..); refine onlyTouches.trans ?_ (State.lsWithdraw_touch ..) ?sub; (case sub => decide))
    | (with_reducible show onlyTouches _ _ (State.modLs ..); refine onlyTouches.trans ?_ (State.modLs_touch ..) ?sub; (case sub => decide))
    | (with_reducible apply onlyTouches.ite)
    | (split)

theorem State.lsBankOk_touch (s : State) (k : Fin 3) (mv us : Nat) :
    onlyTouches [.dig, .ls, .adm] s (State.lsBankOk s k mv us) := by
  unfold State.lsBankOk
  repeat' first
    | (with_reducible apply onlyTouches.refl)
    | (with_reducible show onlyTouches _ _ (State.lsTryRestart ..); refine onlyTouches.trans ?_ (State.lsTryRestart_touch ..) ?sub; (case sub => decide))
    | (with_reducible show onlyTouches _ _ (State.modLs ..); refine onlyTouches.trans ?_ (State.modLs_touch ..) ?sub; (case sub => decide))
    | (with_reducible apply onlyTouches.ite)

theorem State.lsFall_touch (s : State) (k : Fin 3) (same : Bool) :
    onlyTouches [.fab, .dig, .ls, .adm] s (State.lsFall s k same) := by
  unfold State.lsFall
  dsimp only
  repeat' first
    | (with_reducible apply onlyTouches.refl)
    | (with_reducible show onlyTouches _ _ (State.lsOffCmd ..); refine onlyTouches.trans ?_ (State.lsOffCmd_touch ..) ?sub; (case sub => decide))
    | (with_reducible show onlyTouches _ _ (State.modLs ..); refine onlyTouches.trans ?_ (State.modLs_touch ..) ?sub; (case sub => decide))

theorem State.lsRouted_touch (s : State) (k : Fin 3) (level same : Bool) :
    onlyTouches [.fab, .dig, .ls, .adm, .free] s (State.lsRouted s k level same) := by
  unfold State.lsRouted
  repeat' first
    | (with_reducible apply onlyTouches.refl)
    | (with_reducible show onlyTouches _ _ (State.lsFall ..); refine onlyTouches.trans ?_ (State.lsFall_touch ..) ?sub; (case sub => decide))
    | (with_reducible show onlyTouches _ _ (State.lsMeasure ..); refine onlyTouches.trans ?_ (State.lsMeasure_touch ..) ?sub; (case sub => decide))
    | (with_reducible show onlyTouches _ _ (State.lsOnCmd ..); refine onlyTouches.trans ?_ (State.lsOnCmd_touch ..) ?sub; (case sub => decide))
    | (with_reducible show onlyTouches _ _ (State.modLs ..); refine onlyTouches.trans ?_ (State.modLs_touch ..) ?sub; (case sub => decide))
    | (with_reducible apply onlyTouches.ite)

theorem State.lsLimpEnter_touch (s : State) (k : Fin 3) (src : Nat) (level same : Bool) :
    onlyTouches [.fab, .dig, .ls, .adm, .free] s (State.lsLimpEnter s k src level same) := by
  unfold State.lsLimpEnter
  dsimp only
  repeat' first
    | (with_reducible apply onlyTouches.refl)
    | (with_reducible show onlyTouches _ _ (State.lsEmit ..); refine onlyTouches.trans ?_ (State.lsEmit_touch ..) ?sub; (case sub => decide))
    | (with_reducible show onlyTouches _ _ (State.lsEnter ..); refine onlyTouches.trans ?_ (State.lsEnter_touch ..) ?sub; (case sub => decide))
    | (with_reducible show onlyTouches _ _ (State.lsFall ..); refine onlyTouches.trans ?_ (State.lsFall_touch ..) ?sub; (case sub => decide))
    | (with_reducible show onlyTouches _ _ (State.lsMeasure ..); refine onlyTouches.trans ?_ (State.lsMeasure_touch ..) ?sub; (case sub => decide))
    | (with_reducible show onlyTouches _ _ (State.lsOnCmd ..); refine onlyTouches.trans ?_ (State.lsOnCmd_touch ..) ?sub; (case sub => decide))
    | (with_reducible show onlyTouches _ _ (State.modLs ..); refine onlyTouches.trans ?_ (State.modLs_touch ..) ?sub; (case sub => decide))
    | (with_reducible apply onlyTouches.ite)

theorem State.lsLimpExit_touch (s : State) (k : Fin 3) :
    onlyTouches [.fab, .ls] s (State.lsLimpExit s k) := by
  unfold State.lsLimpExit
  repeat' first
    | (with_reducible apply onlyTouches.refl)
    | (with_reducible show onlyTouches _ _ (State.lsEmit ..); refine onlyTouches.trans ?_ (State.lsEmit_touch ..) ?sub; (case sub => decide))
    | (with_reducible show onlyTouches _ _ (State.modLs ..); refine onlyTouches.trans ?_ (State.modLs_touch ..) ?sub; (case sub => decide))
    | (with_reducible apply onlyTouches.ite)

theorem State.lsOrphanOff_touch (s : State) (k : Fin 3) :
    onlyTouches [.fab, .dig, .ls, .adm] s (State.lsOrphanOff s k) := by
  unfold State.lsOrphanOff
  dsimp only
  repeat' first
    | (with_reducible apply onlyTouches.refl)
    | (with_reducible show onlyTouches _ _ (State.lsEmit ..); refine onlyTouches.trans ?_ (State.lsEmit_touch ..) ?sub; (case sub => decide))
    | (with_reducible show onlyTouches _ _ (State.lsOffCmd ..); refine onlyTouches.trans ?_ (State.lsOffCmd_touch ..) ?sub; (case sub => decide))
    | (with_reducible show onlyTouches _ _ (State.modLs ..); refine onlyTouches.trans ?_ (State.modLs_touch ..) ?sub; (case sub => decide))
    | (with_reducible apply onlyTouches.ite)

theorem State.lmpPerWrite_touch (s : State) (per : Nat) :
    onlyTouches [.lmpErr, .ls] s (State.lmpPerWrite s per) := by
  unfold State.lmpPerWrite
  repeat' first
    | (with_reducible apply onlyTouches.refl)
    | (with_reducible show onlyTouches _ _ (State.modLs ..); refine onlyTouches.trans ?_ (State.modLs_touch ..) ?sub; (case sub => decide))
    | (with_reducible show onlyTouches _ _ (State.onlyIf ..); refine onlyTouches.onlyIf ?_ fun x => ?_)
    | (with_reducible show onlyTouches _ _ (forFin ..); refine onlyTouches.forFin ?_ fun i x => ?_)
    | (with_reducible apply onlyTouches.ite)
    | (split)
    | (with_reducible apply onlyTouches.put_lmpErr; (case m => decide))

theorem State.lsDimWrite_touch (s : State) (k : Fin 3) (w : W32) :
    onlyTouches [.ls] s (State.lsDimWrite s k w) := by
  unfold State.lsDimWrite
  dsimp only
  repeat' first
    | (with_reducible apply onlyTouches.refl)
    | (with_reducible show onlyTouches _ _ (State.lsRes ..); refine onlyTouches.trans ?_ (State.lsRes_touch ..) ?sub; (case sub => decide))
    | (with_reducible show onlyTouches _ _ (State.modLs ..); refine onlyTouches.trans ?_ (State.modLs_touch ..) ?sub; (case sub => decide))
    | (with_reducible apply onlyTouches.ite)

theorem State.lsDimDone_touch (s : State) (k : Fin 3) :
    onlyTouches [.ls] s (State.lsDimDone s k) := by
  unfold State.lsDimDone
  repeat' first
    | (with_reducible apply onlyTouches.refl)
    | (with_reducible show onlyTouches _ _ (State.modLs ..); refine onlyTouches.trans ?_ (State.modLs_touch ..) ?sub; (case sub => decide))
    | (with_reducible apply onlyTouches.ite)

theorem State.lsWrite_touch (s : State) (k : Fin 3) (off : Nat) (w : W32) :
    onlyTouches [.fab, .dig, .ls, .adm, .pwr, .sys, .mem, .ecc, .pmc, .free] s (State.lsWrite s k off w) := by
  unfold State.lsWrite
  repeat' first
    | (with_reducible apply onlyTouches.refl)
    | (with_reducible show onlyTouches _ _ (State.digWrite ..); refine onlyTouches.trans ?_ (State.digWrite_touch ..) ?sub; (case sub => decide))
    | (with_reducible show onlyTouches _ _ (State.lsCmdWrite ..); refine onlyTouches.trans ?_ (State.lsCmdWrite_touch ..) ?sub; (case sub => decide))
    | (with_reducible show onlyTouches _ _ (State.lsCtlWrite ..); refine onlyTouches.trans ?_ (State.lsCtlWrite_touch ..) ?sub; (case sub => decide))
    | (with_reducible show onlyTouches _ _ (State.lsDimWrite ..); refine onlyTouches.trans ?_ (State.lsDimWrite_touch ..) ?sub; (case sub => decide))
    | (with_reducible show onlyTouches _ _ (State.lsMeasure ..); refine onlyTouches.trans ?_ (State.lsMeasure_touch ..) ?sub; (case sub => decide))
    | (with_reducible show onlyTouches _ _ (State.lsVerify ..); refine onlyTouches.trans ?_ (State.lsVerify_touch ..) ?sub; (case sub => decide))
    | (with_reducible show onlyTouches _ _ (State.modLs ..); refine onlyTouches.trans ?_ (State.modLs_touch ..) ?sub; (case sub => decide))
    | (with_reducible apply onlyTouches.ite)
    | (with_reducible apply onlyTouches.dite <;> intro h)
    | (split)

theorem State.lmpWrite_touch (s : State) (off : Nat) (w : W32) :
    onlyTouches [.fab, .dig, .lmpErr, .ls, .adm, .pwr, .sys, .mem, .ecc, .pmc, .free] s (State.lmpWrite s off w) := by
  unfold State.lmpWrite
  repeat' first
    | (with_reducible apply onlyTouches.refl)
    | (with_reducible show onlyTouches _ _ (State.lmpPerWrite ..); refine onlyTouches.trans ?_ (State.lmpPerWrite_touch ..) ?sub; (case sub => decide))
    | (with_reducible show onlyTouches _ _ (State.lsWrite ..); refine onlyTouches.trans ?_ (State.lsWrite_touch ..) ?sub; (case sub => decide))
    | (with_reducible apply onlyTouches.ite)
    | (with_reducible apply onlyTouches.dite <;> intro h)

end Sys2Proof.Machine
end

