-- ==== Sys2Proof/Laws/TouchAdm.lean ====
section
/-! SUPPORT. The parts of State that each operation of Machine/Adm.lean changes. -/

namespace Sys2Proof.Machine

theorem State.admModel_touch (s : State) :
    onlyTouches [.curve, .adm] s (State.admModel s) := by
  unfold State.admModel
  dsimp only
  repeat' first
    | (with_reducible apply onlyTouches.refl)
    | (with_reducible show onlyTouches _ _ (State.modCurve ..); refine onlyTouches.trans ?_ (State.modCurve_touch ..) ?sub; (case sub => decide))
    | (with_reducible apply onlyTouches.ite)
    | (split)
    | (with_reducible apply onlyTouches.put_adm; (case m => decide))

theorem State.admDropLate_touch (s : State) (t now : Nat) :
    onlyTouches [.fab, .adm] s (State.admDropLate s t now) := by
  unfold State.admDropLate
  repeat' first
    | (with_reducible apply onlyTouches.refl)
    | (with_reducible show onlyTouches _ _ (State.emit ..); refine onlyTouches.trans ?_ (State.emit_touch ..) ?sub; (case sub => decide))
    | (with_reducible show onlyTouches _ _ (State.modAdm ..); refine onlyTouches.trans ?_ (State.modAdm_touch ..) ?sub; (case sub => decide))
    | (split)

theorem State.admStep6_touch (s : State) (now : Nat) (m : AdmIn) : onlyTouches [.fab, .adm, .pmc] s (State.admStep6 s now m) := by
  unfold State.admStep6
  dsimp only
  repeat' first
    | (with_reducible apply onlyTouches.refl)
    | (with_reducible show onlyTouches _ _ (State.emit ..); refine onlyTouches.trans ?_ (State.emit_touch ..) ?sub; (case sub => decide))
    | (with_reducible show onlyTouches _ _ (State.fabCount ..); refine onlyTouches.trans ?_ (State.fabCount_touch ..) ?sub; (case sub => decide))
    | (with_reducible show onlyTouches _ _ (State.modAdm ..); refine onlyTouches.trans ?_ (State.modAdm_touch ..) ?sub; (case sub => decide))
    | (with_reducible show onlyTouches _ _ (State.onlyIf ..); refine onlyTouches.onlyIf ?_ fun x => ?_)
    | (with_reducible apply onlyTouches.ite)
    | (split)
    | (with_reducible apply onlyTouches.put_adm; (case m => decide))

theorem State.slotClose_touch (s : State) (i : Fin 16) (now : Nat) :
    onlyTouches [.fab, .adm] s (State.slotClose s i now) := by
  unfold State.slotClose
  dsimp only
  repeat' first
    | (with_reducible apply onlyTouches.refl)
    | (with_reducible show onlyTouches _ _ (State.emit ..); refine onlyTouches.trans ?_ (State.emit_touch ..) ?sub; (case sub => decide))
    | (with_reducible show onlyTouches _ _ (State.modAdm ..); refine onlyTouches.trans ?_ (State.modAdm_touch ..) ?sub; (case sub => decide))
    | (with_reducible apply onlyTouches.ite)

theorem State.slotOff_touch (s : State) (n : Nat) :
    onlyTouches [.adm] s (State.slotOff s n) := by
  unfold State.slotOff
  repeat' first
    | (with_reducible apply onlyTouches.refl)
    | (with_reducible show onlyTouches _ _ (State.modAdm ..); refine onlyTouches.trans ?_ (State.modAdm_touch ..) ?sub; (case sub => decide))

theorem State.slotStart_touch (s : State) (i : Fin 16) (now : Nat) :
    onlyTouches [.fab, .adm, .pmc] s (State.slotStart s i now) := by
  unfold State.slotStart
  dsimp only
  repeat' first
    | (with_reducible apply onlyTouches.refl)
    | (with_reducible show onlyTouches _ _ (State.fabCount ..); refine onlyTouches.trans ?_ (State.fabCount_touch ..) ?sub; (case sub => decide))
    | (with_reducible show onlyTouches _ _ (State.modAdm ..); refine onlyTouches.trans ?_ (State.modAdm_touch ..) ?sub; (case sub => decide))
    | (with_reducible show onlyTouches _ _ (State.slotClose ..); refine onlyTouches.trans ?_ (State.slotClose_touch ..) ?sub; (case sub => decide))
    | (with_reducible show onlyTouches _ _ (State.slotOff ..); refine onlyTouches.trans ?_ (State.slotOff_touch ..) ?sub; (case sub => decide))
    | (with_reducible apply onlyTouches.ite)

theorem State.slotEnd_touch (s : State) (i : Fin 16) (now : Nat) :
    onlyTouches [.fab, .adm] s (State.slotEnd s i now) := by
  unfold State.slotEnd
  dsimp only
  repeat' first
    | (with_reducible apply onlyTouches.refl)
    | (with_reducible show onlyTouches _ _ (State.admDropLate ..); refine onlyTouches.trans ?_ (State.admDropLate_touch ..) ?sub; (case sub => decide))
    | (with_reducible show onlyTouches _ _ (State.slotClose ..); refine onlyTouches.trans ?_ (State.slotClose_touch ..) ?sub; (case sub => decide))
    | (with_reducible show onlyTouches _ _ (State.slotOff ..); refine onlyTouches.trans ?_ (State.slotOff_touch ..) ?sub; (case sub => decide))
    | (with_reducible apply onlyTouches.ite)

theorem State.slotTick_touch (s : State) (i : Fin 16) (now : Nat) :
    onlyTouches [.fab, .adm, .pmc] s (State.slotTick s i now) := by
  unfold State.slotTick
  dsimp only
  repeat' first
    | (with_reducible apply onlyTouches.refl)
    | (with_reducible show onlyTouches _ _ (State.modAdm ..); refine onlyTouches.trans ?_ (State.modAdm_touch ..) ?sub; (case sub => decide))
    | (with_reducible show onlyTouches _ _ (State.slotEnd ..); refine onlyTouches.trans ?_ (State.slotEnd_touch ..) ?sub; (case sub => decide))
    | (with_reducible show onlyTouches _ _ (State.slotStart ..); refine onlyTouches.trans ?_ (State.slotStart_touch ..) ?sub; (case sub => decide))
    | (with_reducible apply onlyTouches.ite)

theorem State.slotLetGo_touch (s : State) (i : Fin 16) :
    onlyTouches [.fab, .adm] s (State.slotLetGo s i) := by
  unfold State.slotLetGo
  dsimp only
  repeat' first
    | (with_reducible apply onlyTouches.refl)
    | (with_reducible show onlyTouches _ _ (State.modAdm ..); refine onlyTouches.trans ?_ (State.modAdm_touch ..) ?sub; (case sub => decide))
    | (with_reducible show onlyTouches _ _ (State.slotClose ..); refine onlyTouches.trans ?_ (State.slotClose_touch ..) ?sub; (case sub => decide))
    | (with_reducible show onlyTouches _ _ (State.slotOff ..); refine onlyTouches.trans ?_ (State.slotOff_touch ..) ?sub; (case sub => decide))
    | (with_reducible apply onlyTouches.ite)

theorem State.slotCfgWrite_touch (s : State) (i : Fin 16) (v : W32) :
    onlyTouches [.fab, .adm] s (State.slotCfgWrite s i v) := by
  unfold State.slotCfgWrite
  dsimp only
  repeat' first
    | (with_reducible apply onlyTouches.refl)
    | (with_reducible show onlyTouches _ _ (State.modAdm ..); refine onlyTouches.trans ?_ (State.modAdm_touch ..) ?sub; (case sub => decide))
    | (with_reducible show onlyTouches _ _ (State.slotClose ..); refine onlyTouches.trans ?_ (State.slotClose_touch ..) ?sub; (case sub => decide))
    | (with_reducible show onlyTouches _ _ (State.slotLetGo ..); refine onlyTouches.trans ?_ (State.slotLetGo_touch ..) ?sub; (case sub => decide))
    | (with_reducible apply onlyTouches.ite)

theorem State.slotsOff_touch (s : State) (which : Slot → Bool) :
    onlyTouches [.fab, .adm] s (State.slotsOff s which) := by
  unfold State.slotsOff
  dsimp only
  repeat' first
    | (with_reducible apply onlyTouches.refl)
    | (with_reducible show onlyTouches _ _ (State.slotCfgWrite ..); refine onlyTouches.trans ?_ (State.slotCfgWrite_touch ..) ?sub; (case sub => decide))
    | (with_reducible show onlyTouches _ _ (forFin ..); refine onlyTouches.forFin ?_ fun i x => ?_)
    | (with_reducible apply onlyTouches.ite)

theorem State.slotsOrphan_touch (s : State) :
    onlyTouches [.fab, .adm] s (State.slotsOrphan s) := by
  unfold State.slotsOrphan
  dsimp only
  repeat' first
    | (with_reducible apply onlyTouches.refl)
    | (with_reducible show onlyTouches _ _ (State.emit ..); refine onlyTouches.trans ?_ (State.emit_touch ..) ?sub; (case sub => decide))
    | (with_reducible show onlyTouches _ _ (State.slotsOff ..); refine onlyTouches.trans ?_ (State.slotsOff_touch ..) ?sub; (case sub => decide))
    | (with_reducible apply onlyTouches.ite)

theorem State.admDeadlines_touch (s : State) (now : Nat) :
    onlyTouches [.fab, .adm] s (State.admDeadlines s now) := by
  unfold State.admDeadlines
  dsimp only
  repeat' first
    | (with_reducible apply onlyTouches.refl)
    | (with_reducible show onlyTouches _ _ (State.admDropLate ..); refine onlyTouches.trans ?_ (State.admDropLate_touch ..) ?sub; (case sub => decide))
    | (with_reducible show onlyTouches _ _ (List.foldl ..); refine onlyTouches.foldl (fun x a => ?_) _ ?_)

theorem State.admShed_touch (s : State) (now : Nat) :
    onlyTouches [.fab, .adm] s (State.admShed s now) := by
  unfold State.admShed
  dsimp only
  repeat' first
    | (with_reducible apply onlyTouches.refl)
    | (with_reducible show onlyTouches _ _ (State.emit ..); refine onlyTouches.trans ?_ (State.emit_touch ..) ?sub; (case sub => decide))
    | (with_reducible show onlyTouches _ _ (State.modAdm ..); refine onlyTouches.trans ?_ (State.modAdm_touch ..) ?sub; (case sub => decide))
    | (with_reducible show onlyTouches _ _ (State.slotClose ..); refine onlyTouches.trans ?_ (State.slotClose_touch ..) ?sub; (case sub => decide))
    | (with_reducible apply onlyTouches.ite)
    | (split)

theorem State.admGrant_touch (s : State) (e : Entry) :
    onlyTouches [.fab, .adm, .pmc] s (State.admGrant s e) := by
  unfold State.admGrant
  dsimp only
  repeat' first
    | (with_reducible apply onlyTouches.refl)
    | (with_reducible show onlyTouches _ _ (State.emit ..); refine onlyTouches.trans ?_ (State.emit_touch ..) ?sub; (case sub => decide))
    | (with_reducible show onlyTouches _ _ (State.fabCount ..); refine onlyTouches.trans ?_ (State.fabCount_touch ..) ?sub; (case sub => decide))
    | (with_reducible show onlyTouches _ _ (State.modAdm ..); refine onlyTouches.trans ?_ (State.modAdm_touch ..) ?sub; (case sub => decide))
    | (with_reducible apply onlyTouches.ite)

theorem State.admScan_touch (strict : Bool) (n : Nat) (l : List Entry) (s : State) :
    onlyTouches [.fab, .adm, .pmc] s (State.admScan strict n l s) := by
  induction l generalizing n s with
  | nil => exact onlyTouches.refl _ _
  | cons e r ih =>
    unfold State.admScan
    dsimp only
    split
    · exact onlyTouches.refl _ _
    · split
      · exact ((State.admGrant_touch s e).mono (by decide)).step (ih _ _)
      · have h := (State.fabCount_touch s 0x0D 0 1).mono (ps := [.fab, .adm, .pmc]) (by decide)
        split
        · exact h
        · exact h.step (ih _ _)

theorem State.admGrantScan_touch (s : State) (now : Nat) :
    onlyTouches [.fab, .adm, .pmc] s (State.admGrantScan s now) := by
  unfold State.admGrantScan
  dsimp only
  repeat' first
    | (with_reducible apply onlyTouches.refl)
    | (with_reducible show onlyTouches _ _ (State.admScan ..); refine onlyTouches.trans ?_ (State.admScan_touch ..) ?sub; (case sub => decide))
    | (with_reducible show onlyTouches _ _ (State.fabCount ..); refine onlyTouches.trans ?_ (State.fabCount_touch ..) ?sub; (case sub => decide))
    | (with_reducible show onlyTouches _ _ (State.modAdm ..); refine onlyTouches.trans ?_ (State.modAdm_touch ..) ?sub; (case sub => decide))
    | (with_reducible show onlyTouches _ _ (State.onlyIf ..); refine onlyTouches.onlyIf ?_ fun x => ?_)
    | (with_reducible apply onlyTouches.ite)

theorem State.admOver_touch (s : State) :
    onlyTouches [.fab, .adm] s (State.admOver s) := by
  unfold State.admOver
  dsimp only
  repeat' first
    | (with_reducible apply onlyTouches.refl)
    | (with_reducible show onlyTouches _ _ (State.emit ..); refine onlyTouches.trans ?_ (State.emit_touch ..) ?sub; (case sub => decide))
    | (with_reducible show onlyTouches _ _ (State.modAdm ..); refine onlyTouches.trans ?_ (State.modAdm_touch ..) ?sub; (case sub => decide))
    | (with_reducible apply onlyTouches.ite)

theorem State.admTickAt_touch (s : State) (t : Nat) (ins : List AdmIn) :
    onlyTouches [.fab, .curve, .adm, .pmc] s (State.admTickAt s t ins) := by
  unfold State.admTickAt
  dsimp only
  repeat' first
    | (with_reducible apply onlyTouches.refl)
    | (with_reducible show onlyTouches _ _ (State.admDeadlines ..); refine onlyTouches.trans ?_ (State.admDeadlines_touch ..) ?sub; (case sub => decide))
    | (with_reducible show onlyTouches _ _ (State.admGrantScan ..); refine onlyTouches.trans ?_ (State.admGrantScan_touch ..) ?sub; (case sub => decide))
    | (with_reducible show onlyTouches _ _ (State.admModel ..); refine onlyTouches.trans ?_ (State.admModel_touch ..) ?sub; (case sub => decide))
    | (with_reducible show onlyTouches _ _ (State.admOver ..); refine onlyTouches.trans ?_ (State.admOver_touch ..) ?sub; (case sub => decide))
    | (with_reducible show onlyTouches _ _ (State.admShed ..); refine onlyTouches.trans ?_ (State.admShed_touch ..) ?sub; (case sub => decide))
    | (with_reducible show onlyTouches _ _ (State.admStep6 ..); refine onlyTouches.trans ?_ (State.admStep6_touch ..) ?sub; (case sub => decide))
    | (with_reducible show onlyTouches _ _ (State.modAdm ..); refine onlyTouches.trans ?_ (State.modAdm_touch ..) ?sub; (case sub => decide))
    | (with_reducible show onlyTouches _ _ (State.slotTick ..); refine onlyTouches.trans ?_ (State.slotTick_touch ..) ?sub; (case sub => decide))
    | (with_reducible show onlyTouches _ _ (forFin ..); refine onlyTouches.forFin ?_ fun i x => ?_)
    | (with_reducible show onlyTouches _ _ (List.foldl ..); refine onlyTouches.foldl (fun x a => ?_) _ ?_)

theorem State.admTickFrom_touch (s : State) (due late : Nat) :
    onlyTouches [.tmb, .fab, .curve, .adm, .pwr, .ecc, .pmc, .dep, .nv, .free] s (State.admTickFrom s due late) := by
  unfold State.admTickFrom
  dsimp only
  repeat' first
    | (with_reducible apply onlyTouches.refl)
    | (with_reducible show onlyTouches _ _ (State.admModel ..); refine onlyTouches.trans ?_ (State.admModel_touch ..) ?sub; (case sub => decide))
    | (with_reducible show onlyTouches _ _ (State.admTickAt ..); refine onlyTouches.trans ?_ (State.admTickAt_touch ..) ?sub; (case sub => decide))
    | (with_reducible show onlyTouches _ _ (State.advanceTo ..); refine onlyTouches.trans ?_ (State.advanceTo_touch ..) ?sub; (case sub => decide))
    | (with_reducible show onlyTouches _ _ (State.fabCount ..); refine onlyTouches.trans ?_ (State.fabCount_touch ..) ?sub; (case sub => decide))
    | (with_reducible show onlyTouches _ _ (State.modAdm ..); refine onlyTouches.trans ?_ (State.modAdm_touch ..) ?sub; (case sub => decide))
    | (with_reducible apply onlyTouches.ite)

theorem State.deliver_touch {ps : List Part} (s : State) (t : Nat) (m : ToTgt) (f : State → State)
    (hf : ∀ x, onlyTouches ps x (f x)) (ha : .adm ∈ ps) : onlyTouches ps s (s.deliver t m f) := by
  unfold State.deliver; split
  · exact onlyTouches.refl _ _
  · split
    · exact ((onlyTouches.refl ps s).put_adm ha _).step (hf _)
    · exact onlyTouches.refl _ _

theorem State.admStore_touch (s : State) (c : Fin 4) (m : Nat → AdmIn) :
    onlyTouches [.adm, .free] s (State.admStore s c m) := by
  unfold State.admStore
  dsimp only
  repeat' first
    | (with_reducible apply onlyTouches.refl)
    | (with_reducible show onlyTouches _ _ (State.draw ..).2; refine onlyTouches.trans ?_ (State.draw_touch ..) ?sub; (case sub => decide))
    | (with_reducible show onlyTouches _ _ (State.modAdm ..); refine onlyTouches.trans ?_ (State.modAdm_touch ..) ?sub; (case sub => decide))
    | (with_reducible show onlyTouches _ _ (State.toAdm ..); refine onlyTouches.trans ?_ (State.toAdm_touch ..) ?sub; (case sub => decide))

theorem State.siteLimWrite_touch (s : State) (v : W32) :
    onlyTouches [.adm] s (State.siteLimWrite s v) := by
  unfold State.siteLimWrite
  repeat' first
    | (with_reducible apply onlyTouches.refl)
    | (with_reducible show onlyTouches _ _ (State.modAdm ..); refine onlyTouches.trans ?_ (State.modAdm_touch ..) ?sub; (case sub => decide))

theorem State.admWrite_touch (s : State) (c : Fin 4) (off : Nat) (v : W32) :
    onlyTouches [.fab, .adm, .free] s (State.admWrite s c off v) := by
  unfold State.admWrite
  dsimp only
  repeat' first
    | (with_reducible apply onlyTouches.refl)
    | (with_reducible show onlyTouches _ _ (State.admStore ..); refine onlyTouches.trans ?_ (State.admStore_touch ..) ?sub; (case sub => decide))
    | (with_reducible show onlyTouches _ _ (State.modAdm ..); refine onlyTouches.trans ?_ (State.modAdm_touch ..) ?sub; (case sub => decide))
    | (with_reducible show onlyTouches _ _ (State.siteLimWrite ..); refine onlyTouches.trans ?_ (State.siteLimWrite_touch ..) ?sub; (case sub => decide))
    | (with_reducible show onlyTouches _ _ (State.slotCfgWrite ..); refine onlyTouches.trans ?_ (State.slotCfgWrite_touch ..) ?sub; (case sub => decide))
    | (with_reducible apply onlyTouches.ite)
    | (with_reducible apply onlyTouches.dite <;> intro h)
    | (split)

theorem State.admStart_touch (s : State) :
    onlyTouches [.hs, .adm] s (State.admStart s) := by
  unfold State.admStart
  dsimp only
  repeat' first
    | (with_reducible apply onlyTouches.refl)
    | (with_reducible show onlyTouches _ _ (State.modAdm ..); refine onlyTouches.trans ?_ (State.modAdm_touch ..) ?sub; (case sub => decide))
    | (with_reducible show onlyTouches _ _ (State.modHs ..); refine onlyTouches.trans ?_ (State.modHs_touch ..) ?sub; (case sub => decide))
    | (with_reducible show onlyTouches _ _ (State.toAdm ..); refine onlyTouches.trans ?_ (State.toAdm_touch ..) ?sub; (case sub => decide))
    | (with_reducible show onlyTouches _ _ (forFin ..); refine onlyTouches.forFin ?_ fun i x => ?_)
    | (with_reducible apply onlyTouches.ite)
    | (split)
    | (with_reducible apply onlyTouches.put_adm; (case m => decide))

end Sys2Proof.Machine
end

