-- ==== Sys2Proof/Laws/TouchInputs.lean ====
section
/-! SUPPORT. The parts of State that each operation of Machine/Inputs.lean changes. -/

namespace Sys2Proof.Machine

theorem State.routeTo_touch (s : State) (t : Fin 67) (level same : Bool) :
    onlyTouches [.fab, .hs, .dig, .vg, .vd, .ls, .adm, .free] s (State.routeTo s t level same) := by
  unfold State.routeTo
  repeat' first
    | (with_reducible apply onlyTouches.refl)
    | (with_reducible show onlyTouches _ _ (State.hsRouted ..); refine onlyTouches.trans ?_ (State.hsRouted_touch ..) ?sub; (case sub => decide))
    | (with_reducible show onlyTouches _ _ (State.lsRouted ..); refine onlyTouches.trans ?_ (State.lsRouted_touch ..) ?sub; (case sub => decide))
    | (with_reducible show onlyTouches _ _ (State.vdRouted ..); refine onlyTouches.trans ?_ (State.vdRouted_touch ..) ?sub; (case sub => decide))
    | (with_reducible apply onlyTouches.ite)
    | (with_reducible apply onlyTouches.dite <;> intro h)

theorem State.dinChange_touch (s : State) (i : Fin 8) (level : Bool) (half : Nat) (same : Bool) :
    onlyTouches [.fab, .hs, .dig, .vg, .vd, .ls, .adm, .inp, .pwr, .free] s (State.dinChange s i level half same) := by
  unfold State.dinChange
  dsimp only
  repeat' first
    | (with_reducible apply onlyTouches.refl)
    | (with_reducible show onlyTouches _ _ (State.emit ..); refine onlyTouches.trans ?_ (State.emit_touch ..) ?sub; (case sub => decide))
    | (with_reducible show onlyTouches _ _ (State.modInp ..); refine onlyTouches.trans ?_ (State.modInp_touch ..) ?sub; (case sub => decide))
    | (with_reducible show onlyTouches _ _ (State.routeTo ..); refine onlyTouches.trans ?_ (State.routeTo_touch ..) ?sub; (case sub => decide))
    | (with_reducible show onlyTouches _ _ (State.wakeReq ..); refine onlyTouches.trans ?_ (State.wakeReq_touch ..) ?sub; (case sub => decide))
    | (with_reducible show onlyTouches _ _ (State.onlyIf ..); refine onlyTouches.onlyIf ?_ fun x => ?_)
    | (with_reducible show onlyTouches _ _ (forFin ..); refine onlyTouches.forFin ?_ fun i x => ?_)
    | (with_reducible apply onlyTouches.ite)

theorem State.routedRepeat_touch (s : State) (t : Fin 67) :
    onlyTouches [.fab, .hs, .dig, .vg, .vd, .ls, .adm] s (State.routedRepeat s t) := by
  unfold State.routedRepeat
  dsimp only
  repeat' first
    | (with_reducible apply onlyTouches.refl)
    | (with_reducible show onlyTouches _ _ (State.hsFall ..); refine onlyTouches.trans ?_ (State.hsFall_touch ..) ?sub; (case sub => decide))
    | (with_reducible show onlyTouches _ _ (State.lsFall ..); refine onlyTouches.trans ?_ (State.lsFall_touch ..) ?sub; (case sub => decide))
    | (with_reducible show onlyTouches _ _ (State.modHs ..); refine onlyTouches.trans ?_ (State.modHs_touch ..) ?sub; (case sub => decide))
    | (with_reducible show onlyTouches _ _ (State.modLs ..); refine onlyTouches.trans ?_ (State.modLs_touch ..) ?sub; (case sub => decide))
    | (with_reducible show onlyTouches _ _ (State.modVd ..); refine onlyTouches.trans ?_ (State.modVd_touch ..) ?sub; (case sub => decide))
    | (with_reducible show onlyTouches _ _ (State.vdFall ..); refine onlyTouches.trans ?_ (State.vdFall_touch ..) ?sub; (case sub => decide))
    | (with_reducible apply onlyTouches.ite)
    | (with_reducible apply onlyTouches.dite <;> intro h)

theorem State.limpEnter_touch (s : State) (t : Fin 67) (src : Nat) (same : Bool) :
    onlyTouches [.fab, .hs, .dig, .vg, .vd, .ls, .adm, .free] s (State.limpEnter s t src same) := by
  unfold State.limpEnter
  dsimp only
  repeat' first
    | (with_reducible apply onlyTouches.refl)
    | (with_reducible show onlyTouches _ _ (State.hsLimpEnter ..); refine onlyTouches.trans ?_ (State.hsLimpEnter_touch ..) ?sub; (case sub => decide))
    | (with_reducible show onlyTouches _ _ (State.lsLimpEnter ..); refine onlyTouches.trans ?_ (State.lsLimpEnter_touch ..) ?sub; (case sub => decide))
    | (with_reducible show onlyTouches _ _ (State.slotsOff ..); refine onlyTouches.trans ?_ (State.slotsOff_touch ..) ?sub; (case sub => decide))
    | (with_reducible show onlyTouches _ _ (State.vdLimpEnter ..); refine onlyTouches.trans ?_ (State.vdLimpEnter_touch ..) ?sub; (case sub => decide))
    | (with_reducible apply onlyTouches.ite)
    | (with_reducible apply onlyTouches.dite <;> intro h)

theorem State.limpLeave_touch (s : State) (t : Fin 67) :
    onlyTouches [.fab, .hs, .vd, .ls] s (State.limpLeave s t) := by
  unfold State.limpLeave
  repeat' first
    | (with_reducible apply onlyTouches.refl)
    | (with_reducible show onlyTouches _ _ (State.hsLimpExit ..); refine onlyTouches.trans ?_ (State.hsLimpExit_touch ..) ?sub; (case sub => decide))
    | (with_reducible show onlyTouches _ _ (State.lsLimpExit ..); refine onlyTouches.trans ?_ (State.lsLimpExit_touch ..) ?sub; (case sub => decide))
    | (with_reducible show onlyTouches _ _ (State.vdLimpExit ..); refine onlyTouches.trans ?_ (State.vdLimpExit_touch ..) ?sub; (case sub => decide))
    | (with_reducible apply onlyTouches.ite)
    | (with_reducible apply onlyTouches.dite <;> intro h)

theorem State.limpRest_touch (s : State) (src : Nat) :
    onlyTouches [.fab, .hs, .dig, .vg, .vd, .ls, .adm, .free] s (State.limpRest s src) := by
  unfold State.limpRest
  repeat' first
    | (with_reducible apply onlyTouches.refl)
    | (with_reducible show onlyTouches _ _ (State.limpEnter ..); refine onlyTouches.trans ?_ (State.limpEnter_touch ..) ?sub; (case sub => decide))
    | (with_reducible show onlyTouches _ _ (forFin ..); refine onlyTouches.forFin ?_ fun i x => ?_)
    | (with_reducible apply onlyTouches.ite)

theorem State.limpSources_touch (s : State) (src : Nat) (same : Bool) (f : Inp → Inp) :
    onlyTouches [.fab, .hs, .dig, .vg, .vd, .ls, .adm, .inp, .free] s (State.limpSources s src same f) := by
  unfold State.limpSources
  dsimp only
  repeat' first
    | (with_reducible apply onlyTouches.refl)
    | (with_reducible show onlyTouches _ _ (State.emit ..); refine onlyTouches.trans ?_ (State.emit_touch ..) ?sub; (case sub => decide))
    | (with_reducible show onlyTouches _ _ (State.limpEnter ..); refine onlyTouches.trans ?_ (State.limpEnter_touch ..) ?sub; (case sub => decide))
    | (with_reducible show onlyTouches _ _ (State.limpLeave ..); refine onlyTouches.trans ?_ (State.limpLeave_touch ..) ?sub; (case sub => decide))
    | (with_reducible show onlyTouches _ _ (State.modInp ..); refine onlyTouches.trans ?_ (State.modInp_touch ..) ?sub; (case sub => decide))
    | (with_reducible show onlyTouches _ _ (forFin ..); refine onlyTouches.forFin ?_ fun i x => ?_)
    | (with_reducible apply onlyTouches.ite)

theorem State.limpPad_touch (s : State) (level : Bool) (ms : Nat) (same : Bool) :
    onlyTouches [.fab, .hs, .dig, .vg, .vd, .ls, .adm, .inp, .pwr, .free] s (State.limpPad s level ms same) := by
  unfold State.limpPad
  dsimp only
  repeat' first
    | (with_reducible apply onlyTouches.refl)
    | (with_reducible show onlyTouches _ _ (State.limpSources ..); refine onlyTouches.trans ?_ (State.limpSources_touch ..) ?sub; (case sub => decide))
    | (with_reducible show onlyTouches _ _ (State.wakeReq ..); refine onlyTouches.trans ?_ (State.wakeReq_touch ..) ?sub; (case sub => decide))
    | (with_reducible show onlyTouches _ _ (State.onlyIf ..); refine onlyTouches.onlyIf ?_ fun x => ?_)
    | (with_reducible apply onlyTouches.ite)

theorem State.limpLoad_touch (s : State) :
    onlyTouches [.fab, .inp] s (State.limpLoad s) := by
  unfold State.limpLoad
  repeat' first
    | (with_reducible apply onlyTouches.refl)
    | (with_reducible show onlyTouches _ _ (State.emit ..); refine onlyTouches.trans ?_ (State.emit_touch ..) ?sub; (case sub => decide))
    | (with_reducible show onlyTouches _ _ (State.modInp ..); refine onlyTouches.trans ?_ (State.modInp_touch ..) ?sub; (case sub => decide))
    | (split)

theorem State.lmapRes_touch (s : State) (r : Nat) :
    onlyTouches [.inp] s (State.lmapRes s r) := by
  unfold State.lmapRes
  repeat' first
    | (with_reducible apply onlyTouches.refl)
    | (with_reducible show onlyTouches _ _ (State.modInp ..); refine onlyTouches.trans ?_ (State.modInp_touch ..) ?sub; (case sub => decide))

theorem State.lmapWrite_touch (s : State) (w : Nat) (v : W32) :
    onlyTouches [.inp] s (State.lmapWrite s w v) := by
  unfold State.lmapWrite
  repeat' first
    | (with_reducible apply onlyTouches.refl)
    | (with_reducible show onlyTouches _ _ (State.lmapRes ..); refine onlyTouches.trans ?_ (State.lmapRes_touch ..) ?sub; (case sub => decide))
    | (with_reducible show onlyTouches _ _ (State.modInp ..); refine onlyTouches.trans ?_ (State.modInp_touch ..) ?sub; (case sub => decide))
    | (with_reducible apply onlyTouches.ite)

theorem State.lmapCmd_touch (s : State) (key : Nat) (commit reload : Bool) :
    onlyTouches [.fab, .inp] s (State.lmapCmd s key commit reload) := by
  unfold State.lmapCmd
  dsimp only
  repeat' first
    | (with_reducible apply onlyTouches.refl)
    | (with_reducible show onlyTouches _ _ (State.emit ..); refine onlyTouches.trans ?_ (State.emit_touch ..) ?sub; (case sub => decide))
    | (with_reducible show onlyTouches _ _ (State.limpLoad ..); refine onlyTouches.trans ?_ (State.limpLoad_touch ..) ?sub; (case sub => decide))
    | (with_reducible show onlyTouches _ _ (State.lmapRes ..); refine onlyTouches.trans ?_ (State.lmapRes_touch ..) ?sub; (case sub => decide))
    | (with_reducible show onlyTouches _ _ (State.modInp ..); refine onlyTouches.trans ?_ (State.modInp_touch ..) ?sub; (case sub => decide))
    | (with_reducible apply onlyTouches.ite)

theorem State.lmapDone_touch (s : State) :
    onlyTouches [.fab, .inp, .limpStore] s (State.lmapDone s) := by
  unfold State.lmapDone
  dsimp only
  repeat' first
    | (with_reducible apply onlyTouches.refl)
    | (with_reducible show onlyTouches _ _ (State.emit ..); refine onlyTouches.trans ?_ (State.emit_touch ..) ?sub; (case sub => decide))
    | (with_reducible show onlyTouches _ _ (State.modInp ..); refine onlyTouches.trans ?_ (State.modInp_touch ..) ?sub; (case sub => decide))
    | (with_reducible apply onlyTouches.ite)
    | (split)
    | (with_reducible apply onlyTouches.put_limpStore; (case m => decide))

theorem State.siAccept_touch (s : State) (i : Fin 16) (closed : Bool) :
    onlyTouches [.fab, .inp, .pwr] s (State.siAccept s i closed) := by
  unfold State.siAccept
  dsimp only
  repeat' first
    | (with_reducible apply onlyTouches.refl)
    | (with_reducible show onlyTouches _ _ (State.emit ..); refine onlyTouches.trans ?_ (State.emit_touch ..) ?sub; (case sub => decide))
    | (with_reducible show onlyTouches _ _ (State.modInp ..); refine onlyTouches.trans ?_ (State.modInp_touch ..) ?sub; (case sub => decide))
    | (with_reducible show onlyTouches _ _ (State.wakeReq ..); refine onlyTouches.trans ?_ (State.wakeReq_touch ..) ?sub; (case sub => decide))
    | (with_reducible show onlyTouches _ _ (State.onlyIf ..); refine onlyTouches.onlyIf ?_ fun x => ?_)

theorem State.siSamples_touch (s : State) (i : Fin 16) (mv : Int) (n : Nat) :
    onlyTouches [.fab, .inp, .pwr, .free] s (State.siSamples s i mv n) := by
  unfold State.siSamples
  dsimp only
  repeat' first
    | (with_reducible apply onlyTouches.refl)
    | (with_reducible show onlyTouches _ _ (State.draw ..).2; refine onlyTouches.trans ?_ (State.draw_touch ..) ?sub; (case sub => decide))
    | (with_reducible show onlyTouches _ _ (State.siAccept ..); refine onlyTouches.trans ?_ (State.siAccept_touch ..) ?sub; (case sub => decide))
    | (with_reducible apply onlyTouches.ite)

theorem State.siPollOne_touch (s : State) (i : Fin 16) (c : Bool) :
    onlyTouches [.fab, .inp, .pwr] s (State.siPollOne s i c) := by
  unfold State.siPollOne
  dsimp only
  repeat' first
    | (with_reducible apply onlyTouches.refl)
    | (with_reducible show onlyTouches _ _ (State.modInp ..); refine onlyTouches.trans ?_ (State.modInp_touch ..) ?sub; (case sub => decide))
    | (with_reducible show onlyTouches _ _ (State.siAccept ..); refine onlyTouches.trans ?_ (State.siAccept_touch ..) ?sub; (case sub => decide))
    | (with_reducible apply onlyTouches.ite)

theorem State.siPollAll_touch (s : State) (mv : Vector Int 16) :
    onlyTouches [.tmb, .fab, .inp, .pwr, .ecc, .pmc, .dep, .nv, .free] s (State.siPollAll s mv) := by
  unfold State.siPollAll
  dsimp only
  repeat' first
    | (with_reducible apply onlyTouches.refl)
    | (with_reducible show onlyTouches _ _ (State.advanceTo ..); refine onlyTouches.trans ?_ (State.advanceTo_touch ..) ?sub; (case sub => decide))
    | (with_reducible show onlyTouches _ _ (State.draw ..).2; refine onlyTouches.trans ?_ (State.draw_touch ..) ?sub; (case sub => decide))
    | (with_reducible show onlyTouches _ _ (State.modInp ..); refine onlyTouches.trans ?_ (State.modInp_touch ..) ?sub; (case sub => decide))
    | (with_reducible show onlyTouches _ _ (State.siPollOne ..); refine onlyTouches.trans ?_ (State.siPollOne_touch ..) ?sub; (case sub => decide))
    | (with_reducible show onlyTouches _ _ (forFin ..); refine onlyTouches.forFin ?_ fun i x => ?_)
    | (with_reducible apply onlyTouches.ite)

theorem State.vl3Cross_touch (s : State) (mv : Nat) :
    onlyTouches [.inp] s (State.vl3Cross s mv) := by
  unfold State.vl3Cross
  repeat' first
    | (with_reducible apply onlyTouches.refl)
    | (with_reducible show onlyTouches _ _ (State.modInp ..); refine onlyTouches.trans ?_ (State.modInp_touch ..) ?sub; (case sub => decide))
    | (with_reducible apply onlyTouches.ite)

theorem State.vsensMa_touch (s : State) (ma : Nat) :
    onlyTouches [.inp] s (State.vsensMa s ma) := by
  unfold State.vsensMa
  repeat' first
    | (with_reducible apply onlyTouches.refl)
    | (with_reducible show onlyTouches _ _ (State.modInp ..); refine onlyTouches.trans ?_ (State.modInp_touch ..) ?sub; (case sub => decide))

theorem State.ainConv_touch (s : State) (i : Fin 4) (code : BitVec 12) (ma : Nat) :
    onlyTouches [.fab, .inp] s (State.ainConv s i code ma) := by
  unfold State.ainConv
  dsimp only
  repeat' first
    | (with_reducible apply onlyTouches.refl)
    | (with_reducible show onlyTouches _ _ (State.emit ..); refine onlyTouches.trans ?_ (State.emit_touch ..) ?sub; (case sub => decide))
    | (with_reducible show onlyTouches _ _ (State.modInp ..); refine onlyTouches.trans ?_ (State.modInp_touch ..) ?sub; (case sub => decide))
    | (with_reducible show onlyTouches _ _ (State.vsensMa ..); refine onlyTouches.trans ?_ (State.vsensMa_touch ..) ?sub; (case sub => decide))
    | (with_reducible show onlyTouches _ _ (State.onlyIf ..); refine onlyTouches.onlyIf ?_ fun x => ?_)
    | (with_reducible apply onlyTouches.ite)

theorem State.ainCtlWrite_touch (s : State) (v : W32) :
    onlyTouches [.inp] s (State.ainCtlWrite s v) := by
  unfold State.ainCtlWrite
  dsimp only
  repeat' first
    | (with_reducible apply onlyTouches.refl)
    | (with_reducible show onlyTouches _ _ (State.modInp ..); refine onlyTouches.trans ?_ (State.modInp_touch ..) ?sub; (case sub => decide))

theorem State.vsensTrip_touch (s : State) (ma us : Nat) :
    onlyTouches [.fab, .inp] s (State.vsensTrip s ma us) := by
  unfold State.vsensTrip
  repeat' first
    | (with_reducible apply onlyTouches.refl)
    | (with_reducible show onlyTouches _ _ (State.emit ..); refine onlyTouches.trans ?_ (State.emit_touch ..) ?sub; (case sub => decide))
    | (with_reducible show onlyTouches _ _ (State.modInp ..); refine onlyTouches.trans ?_ (State.modInp_touch ..) ?sub; (case sub => decide))
    | (with_reducible show onlyTouches _ _ (State.vsensMa ..); refine onlyTouches.trans ?_ (State.vsensMa_touch ..) ?sub; (case sub => decide))
    | (with_reducible apply onlyTouches.ite)

theorem State.inpWrite_touch (s : State) (off : Nat) (v : W32) :
    onlyTouches [.fab, .inp] s (State.inpWrite s off v) := by
  unfold State.inpWrite
  repeat' first
    | (with_reducible apply onlyTouches.refl)
    | (with_reducible show onlyTouches _ _ (State.ainCtlWrite ..); refine onlyTouches.trans ?_ (State.ainCtlWrite_touch ..) ?sub; (case sub => decide))
    | (with_reducible show onlyTouches _ _ (State.lmapCmd ..); refine onlyTouches.trans ?_ (State.lmapCmd_touch ..) ?sub; (case sub => decide))
    | (with_reducible show onlyTouches _ _ (State.lmapWrite ..); refine onlyTouches.trans ?_ (State.lmapWrite_touch ..) ?sub; (case sub => decide))
    | (with_reducible show onlyTouches _ _ (State.modInp ..); refine onlyTouches.trans ?_ (State.modInp_touch ..) ?sub; (case sub => decide))
    | (with_reducible apply onlyTouches.ite)
    | (with_reducible apply onlyTouches.dite <;> intro h)

end Sys2Proof.Machine
end

