-- ==== Sys2Proof/Laws/TouchQueues.lean ====
section
/-! SUPPORT. The parts of State that each operation of Machine/Queues.lean changes. -/

namespace Sys2Proof.Machine

theorem State.modQue_touch (s : State) (f : Que → Que) :
    onlyTouches [.que] s (State.modQue s f) := by
  unfold State.modQue
  repeat' first
    | (with_reducible apply onlyTouches.refl)
    | (with_reducible apply onlyTouches.put_que; (case m => decide))

theorem State.modQ_touch (s : State) (q : Fin 32) (f : Queue → Queue) :
    onlyTouches [.que] s (State.modQ s q f) := by
  unfold State.modQ
  repeat' first
    | (with_reducible apply onlyTouches.refl)
    | (with_reducible show onlyTouches _ _ (State.modQue ..); refine onlyTouches.trans ?_ (State.modQue_touch ..) ?sub; (case sub => decide))

theorem State.queHw_touch (s : State) (q : Fin 32) :
    onlyTouches [.fab, .que] s (State.queHw s q) := by
  unfold State.queHw
  dsimp only
  repeat' first
    | (with_reducible apply onlyTouches.refl)
    | (with_reducible show onlyTouches _ _ (State.emit ..); refine onlyTouches.trans ?_ (State.emit_touch ..) ?sub; (case sub => decide))
    | (with_reducible show onlyTouches _ _ (State.modQ ..); refine onlyTouches.trans ?_ (State.modQ_touch ..) ?sub; (case sub => decide))
    | (with_reducible apply onlyTouches.ite)

theorem State.queOvf_touch (s : State) (q : Fin 32) :
    onlyTouches [.fab, .que, .pmc] s (State.queOvf s q) := by
  unfold State.queOvf
  dsimp only
  repeat' first
    | (with_reducible apply onlyTouches.refl)
    | (with_reducible show onlyTouches _ _ (State.emit ..); refine onlyTouches.trans ?_ (State.emit_touch ..) ?sub; (case sub => decide))
    | (with_reducible show onlyTouches _ _ (State.modQ ..); refine onlyTouches.trans ?_ (State.modQ_touch ..) ?sub; (case sub => decide))
    | (with_reducible apply onlyTouches.ite)

theorem State.queUnderrun_touch (s : State) (q : Fin 32) :
    onlyTouches [.fab, .que] s (State.queUnderrun s q) := by
  unfold State.queUnderrun
  dsimp only
  repeat' first
    | (with_reducible apply onlyTouches.refl)
    | (with_reducible show onlyTouches _ _ (State.emit ..); refine onlyTouches.trans ?_ (State.emit_touch ..) ?sub; (case sub => decide))
    | (with_reducible show onlyTouches _ _ (State.modQ ..); refine onlyTouches.trans ?_ (State.modQ_touch ..) ?sub; (case sub => decide))
    | (with_reducible apply onlyTouches.ite)

theorem State.queWidth_touch (s : State) (q : Fin 32) :
    onlyTouches [.fab, .que] s (State.queWidth s q) := by
  unfold State.queWidth
  dsimp only
  repeat' first
    | (with_reducible apply onlyTouches.refl)
    | (with_reducible show onlyTouches _ _ (State.emit ..); refine onlyTouches.trans ?_ (State.emit_touch ..) ?sub; (case sub => decide))
    | (with_reducible show onlyTouches _ _ (State.modQ ..); refine onlyTouches.trans ?_ (State.modQ_touch ..) ?sub; (case sub => decide))
    | (with_reducible apply onlyTouches.ite)

theorem State.quePut_touch (s : State) (q : Fin 32) (v : W32) :
    onlyTouches [.fab, .que] s (State.quePut s q v) := by
  unfold State.quePut
  dsimp only
  repeat' first
    | (with_reducible apply onlyTouches.refl)
    | (with_reducible show onlyTouches _ _ (State.emit ..); refine onlyTouches.trans ?_ (State.emit_touch ..) ?sub; (case sub => decide))
    | (with_reducible show onlyTouches _ _ (State.modQ ..); refine onlyTouches.trans ?_ (State.modQ_touch ..) ?sub; (case sub => decide))
    | (with_reducible show onlyTouches _ _ (State.queHw ..); refine onlyTouches.trans ?_ (State.queHw_touch ..) ?sub; (case sub => decide))
    | (with_reducible apply onlyTouches.ite)

theorem State.quePushNow_touch (s : State) (q : Fin 32) (words : List W32) (w32 : Bool) :
    onlyTouches [.fab, .que, .pmc] s (State.quePushNow s q words w32).2 := by
  unfold State.quePushNow
  dsimp only
  repeat' first
    | (with_reducible apply onlyTouches.refl)
    | (with_reducible show onlyTouches _ _ (State.queOvf ..); refine onlyTouches.trans ?_ (State.queOvf_touch ..) ?sub; (case sub => decide))
    | (with_reducible show onlyTouches _ _ (State.quePut ..); refine onlyTouches.trans ?_ (State.quePut_touch ..) ?sub; (case sub => decide))
    | (with_reducible show onlyTouches _ _ (State.queWidth ..); refine onlyTouches.trans ?_ (State.queWidth_touch ..) ?sub; (case sub => decide))
    | (with_reducible show onlyTouches _ _ (List.foldl ..); refine onlyTouches.foldl (fun x a => ?_) _ ?_)
    | (with_reducible apply onlyTouches.ite)
    | (split)

theorem State.quePush_touch (s : State) (q : Fin 32) (words : List W32) (w32 : Bool) (ret : Nat) :
    onlyTouches [.fab, .pwr, .que, .pmc] s (State.quePush s q words w32 ret).2 := by
  unfold State.quePush
  repeat' first
    | (with_reducible apply onlyTouches.refl)
    | (with_reducible show onlyTouches _ _ (State.coreHolds ..); refine onlyTouches.trans ?_ (State.coreHolds_touch ..) ?sub; (case sub => decide))
    | (with_reducible show onlyTouches _ _ (State.modQue ..); refine onlyTouches.trans ?_ (State.modQue_touch ..) ?sub; (case sub => decide))
    | (with_reducible show onlyTouches _ _ (State.quePushNow ..).2; refine onlyTouches.trans ?_ (State.quePushNow_touch ..) ?sub; (case sub => decide))
    | (with_reducible apply onlyTouches.ite)
    | (split)

theorem State.queFwPush_touch (s : State) (q : Fin 32) (v : W32) :
    onlyTouches [.fab, .que, .pmc] s (State.queFwPush s q v) := by
  unfold State.queFwPush
  repeat' first
    | (with_reducible apply onlyTouches.refl)
    | (with_reducible show onlyTouches _ _ (State.modQ ..); refine onlyTouches.trans ?_ (State.modQ_touch ..) ?sub; (case sub => decide))
    | (with_reducible show onlyTouches _ _ (State.quePushNow ..).2; refine onlyTouches.trans ?_ (State.quePushNow_touch ..) ?sub; (case sub => decide))
    | (with_reducible apply onlyTouches.ite)

theorem State.quePop_touch (s : State) (q : Fin 32) :
    onlyTouches [.fab, .que] s (State.quePop s q).2 := by
  unfold State.quePop
  dsimp only
  repeat' first
    | (with_reducible apply onlyTouches.refl)
    | (with_reducible show onlyTouches _ _ (State.modQ ..); refine onlyTouches.trans ?_ (State.modQ_touch ..) ?sub; (case sub => decide))
    | (with_reducible show onlyTouches _ _ (State.queHw ..); refine onlyTouches.trans ?_ (State.queHw_touch ..) ?sub; (case sub => decide))
    | (with_reducible show onlyTouches _ _ (State.queUnderrun ..); refine onlyTouches.trans ?_ (State.queUnderrun_touch ..) ?sub; (case sub => decide))
    | (with_reducible apply onlyTouches.ite)
    | (split)

theorem State.quePushPop_touch (s : State) (q : Fin 32) (v : W32) :
    onlyTouches [.fab, .que, .pmc] s (State.quePushPop s q v).2 := by
  unfold State.quePushPop
  dsimp only
  repeat' first
    | (with_reducible apply onlyTouches.refl)
    | (with_reducible show onlyTouches _ _ (State.modQ ..); refine onlyTouches.trans ?_ (State.modQ_touch ..) ?sub; (case sub => decide))
    | (with_reducible show onlyTouches _ _ (State.queHw ..); refine onlyTouches.trans ?_ (State.queHw_touch ..) ?sub; (case sub => decide))
    | (with_reducible show onlyTouches _ _ (State.queOvf ..); refine onlyTouches.trans ?_ (State.queOvf_touch ..) ?sub; (case sub => decide))
    | (with_reducible show onlyTouches _ _ (State.queUnderrun ..); refine onlyTouches.trans ?_ (State.queUnderrun_touch ..) ?sub; (case sub => decide))
    | (with_reducible apply onlyTouches.ite)
    | (split)

theorem State.queFwPop_touch (s : State) (q : Fin 32) :
    onlyTouches [.fab, .que, .free] s (State.queFwPop s q).2 := by
  unfold State.queFwPop
  dsimp only
  repeat' first
    | (with_reducible apply onlyTouches.refl)
    | (with_reducible show onlyTouches _ _ (State.draw ..).2; refine onlyTouches.trans ?_ (State.draw_touch ..) ?sub; (case sub => decide))
    | (with_reducible show onlyTouches _ _ (State.modQ ..); refine onlyTouches.trans ?_ (State.modQ_touch ..) ?sub; (case sub => decide))
    | (with_reducible show onlyTouches _ _ (State.quePop ..).2; refine onlyTouches.trans ?_ (State.quePop_touch ..) ?sub; (case sub => decide))
    | (with_reducible apply onlyTouches.ite)
    | (split)

theorem State.queFlush_touch (s : State) (q : Fin 32) :
    onlyTouches [.fab, .que] s (State.queFlush s q) := by
  unfold State.queFlush
  repeat' first
    | (with_reducible apply onlyTouches.refl)
    | (with_reducible show onlyTouches _ _ (State.modQ ..); refine onlyTouches.trans ?_ (State.modQ_touch ..) ?sub; (case sub => decide))
    | (with_reducible show onlyTouches _ _ (State.queHw ..); refine onlyTouches.trans ?_ (State.queHw_touch ..) ?sub; (case sub => decide))

theorem State.queCfgWrite_touch (s : State) (q : Fin 32) (v : W32) :
    onlyTouches [.fab, .que] s (State.queCfgWrite s q v) := by
  unfold State.queCfgWrite
  dsimp only
  repeat' first
    | (with_reducible apply onlyTouches.refl)
    | (with_reducible show onlyTouches _ _ (State.modQ ..); refine onlyTouches.trans ?_ (State.modQ_touch ..) ?sub; (case sub => decide))
    | (with_reducible show onlyTouches _ _ (State.queHw ..); refine onlyTouches.trans ?_ (State.queHw_touch ..) ?sub; (case sub => decide))
    | (with_reducible apply onlyTouches.ite)

theorem State.queIdle_touch (s : State) (q : Fin 32) :
    onlyTouches [.tmb, .fab, .pwr, .ecc, .que, .pmc, .dep, .nv, .free] s (State.queIdle s q) := by
  unfold State.queIdle
  dsimp only
  repeat' first
    | (with_reducible apply onlyTouches.refl)
    | (with_reducible show onlyTouches _ _ (State.advanceTo ..); refine onlyTouches.trans ?_ (State.advanceTo_touch ..) ?sub; (case sub => decide))
    | (with_reducible show onlyTouches _ _ (State.emit ..); refine onlyTouches.trans ?_ (State.emit_touch ..) ?sub; (case sub => decide))
    | (with_reducible show onlyTouches _ _ (State.modQ ..); refine onlyTouches.trans ?_ (State.modQ_touch ..) ?sub; (case sub => decide))
    | (with_reducible apply onlyTouches.ite)
    | (split)

theorem State.queWrite_touch (s : State) (off : Nat) (v : W32) :
    onlyTouches [.fab, .que, .pmc] s (State.queWrite s off v) := by
  unfold State.queWrite
  dsimp only
  repeat' first
    | (with_reducible apply onlyTouches.refl)
    | (with_reducible show onlyTouches _ _ (State.modQ ..); refine onlyTouches.trans ?_ (State.modQ_touch ..) ?sub; (case sub => decide))
    | (with_reducible show onlyTouches _ _ (State.queCfgWrite ..); refine onlyTouches.trans ?_ (State.queCfgWrite_touch ..) ?sub; (case sub => decide))
    | (with_reducible show onlyTouches _ _ (State.queFlush ..); refine onlyTouches.trans ?_ (State.queFlush_touch ..) ?sub; (case sub => decide))
    | (with_reducible show onlyTouches _ _ (State.queFwPush ..); refine onlyTouches.trans ?_ (State.queFwPush_touch ..) ?sub; (case sub => decide))
    | (with_reducible show onlyTouches _ _ (State.queHw ..); refine onlyTouches.trans ?_ (State.queHw_touch ..) ?sub; (case sub => decide))
    | (with_reducible apply onlyTouches.ite)
    | (with_reducible apply onlyTouches.dite <;> intro h)
    | (split)

end Sys2Proof.Machine
end

