-- ==== Sys2Proof/Laws/TouchPmc.lean ====
section
/-! SUPPORT. The parts of State that each operation of Machine/Pmc.lean changes. -/

namespace Sys2Proof.Machine

theorem State.pmcDump_touch (s : State) :
    onlyTouches [.tmb, .fab, .pwr, .ecc, .pmc, .dep, .nv, .free] s (State.pmcDump s) := by
  unfold State.pmcDump
  dsimp only
  repeat' first
    | (with_reducible apply onlyTouches.refl)
    | (with_reducible show onlyTouches _ _ (State.advanceTo ..); refine onlyTouches.trans ?_ (State.advanceTo_touch ..) ?sub; (case sub => decide))
    | (with_reducible show onlyTouches _ _ (State.emit ..); refine onlyTouches.trans ?_ (State.emit_touch ..) ?sub; (case sub => decide))
    | (with_reducible show onlyTouches _ _ (State.modPmc ..); refine onlyTouches.trans ?_ (State.modPmc_touch ..) ?sub; (case sub => decide))
    | (with_reducible show onlyTouches _ _ (State.onlyIf ..); refine onlyTouches.onlyIf ?_ fun x => ?_)
    | (with_reducible apply onlyTouches.ite)
    | (split)

theorem State.dumpDone_touch (s : State) :
    onlyTouches [.fab, .pwr, .sys, .mem, .ecc, .pmc, .free] s (State.dumpDone s) := by
  unfold State.dumpDone
  repeat' first
    | (with_reducible apply onlyTouches.refl)
    | (with_reducible show onlyTouches _ _ (State.modPmc ..); refine onlyTouches.trans ?_ (State.modPmc_touch ..) ?sub; (case sub => decide))
    | (with_reducible show onlyTouches _ _ (State.storeWords ..); refine onlyTouches.trans ?_ (State.storeWords_touch ..) ?sub; (case sub => decide))
    | (with_reducible apply onlyTouches.ite)
    | (split)

theorem State.dumpRingWrite_touch (s : State) (f : Pmc → Pmc) :
    onlyTouches [.pmc] s (State.dumpRingWrite s f) := by
  unfold State.dumpRingWrite
  dsimp only
  repeat' first
    | (with_reducible apply onlyTouches.refl)
    | (with_reducible show onlyTouches _ _ (State.modPmc ..); refine onlyTouches.trans ?_ (State.modPmc_touch ..) ?sub; (case sub => decide))
    | (with_reducible apply onlyTouches.ite)

theorem State.modTag_touch (s : State) (c : Fin 4) (f : Tag → Tag) :
    onlyTouches [.pmc] s (State.modTag s c f) := by
  unfold State.modTag
  repeat' first
    | (with_reducible apply onlyTouches.refl)
    | (with_reducible show onlyTouches _ _ (State.modPmc ..); refine onlyTouches.trans ?_ (State.modPmc_touch ..) ?sub; (case sub => decide))

theorem State.tagSelect_touch (s : State) (c : Fin 4) :
    onlyTouches [.pmc] s (State.tagSelect s c) := by
  unfold State.tagSelect
  dsimp only
  repeat' first
    | (with_reducible apply onlyTouches.refl)
    | (with_reducible show onlyTouches _ _ (State.modPmc ..); refine onlyTouches.trans ?_ (State.modPmc_touch ..) ?sub; (case sub => decide))
    | (with_reducible show onlyTouches _ _ (State.modTag ..); refine onlyTouches.trans ?_ (State.modTag_touch ..) ?sub; (case sub => decide))
    | (with_reducible apply onlyTouches.ite)

theorem State.tagIssue_touch (s : State) (c : Fin 4) :
    onlyTouches [.pmc] s (State.tagIssue s c) := by
  unfold State.tagIssue
  dsimp only
  repeat' first
    | (with_reducible apply onlyTouches.refl)
    | (with_reducible show onlyTouches _ _ (State.modTag ..); refine onlyTouches.trans ?_ (State.modTag_touch ..) ?sub; (case sub => decide))
    | (with_reducible show onlyTouches _ _ (State.tagSelect ..); refine onlyTouches.trans ?_ (State.tagSelect_touch ..) ?sub; (case sub => decide))
    | (with_reducible apply onlyTouches.ite)

theorem State.tagPush_touch (s : State) (c : Fin 4) (ws : List W32) :
    onlyTouches [.fab, .pwr, .que, .pmc] s (State.tagPush s c ws) := by
  unfold State.tagPush
  dsimp only
  repeat' first
    | (with_reducible apply onlyTouches.refl)
    | (with_reducible show onlyTouches _ _ (State.emit ..); refine onlyTouches.trans ?_ (State.emit_touch ..) ?sub; (case sub => decide))
    | (with_reducible show onlyTouches _ _ (State.modPmc ..); refine onlyTouches.trans ?_ (State.modPmc_touch ..) ?sub; (case sub => decide))
    | (with_reducible show onlyTouches _ _ (State.modTag ..); refine onlyTouches.trans ?_ (State.modTag_touch ..) ?sub; (case sub => decide))
    | (with_reducible show onlyTouches _ _ (State.quePush ..).2; refine onlyTouches.trans ?_ (State.quePush_touch ..) ?sub; (case sub => decide))
    | (with_reducible show onlyTouches _ _ (State.onlyIf ..); refine onlyTouches.onlyIf ?_ fun x => ?_)
    | (with_reducible apply onlyTouches.ite)

theorem State.pmcWrite_touch (s : State) (off : Nat) (v : W32) :
    onlyTouches [.pmc] s (State.pmcWrite s off v) := by
  unfold State.pmcWrite
  dsimp only
  repeat' first
    | (with_reducible apply onlyTouches.refl)
    | (with_reducible show onlyTouches _ _ (State.dumpRingWrite ..); refine onlyTouches.trans ?_ (State.dumpRingWrite_touch ..) ?sub; (case sub => decide))
    | (with_reducible show onlyTouches _ _ (State.modPmc ..); refine onlyTouches.trans ?_ (State.modPmc_touch ..) ?sub; (case sub => decide))
    | (with_reducible show onlyTouches _ _ (State.modTag ..); refine onlyTouches.trans ?_ (State.modTag_touch ..) ?sub; (case sub => decide))
    | (with_reducible show onlyTouches _ _ (State.onlyIf ..); refine onlyTouches.onlyIf ?_ fun x => ?_)
    | (with_reducible apply onlyTouches.ite)
    | (with_reducible apply onlyTouches.dite <;> intro h)

end Sys2Proof.Machine
end

