-- ==== Sys2Proof/Laws/TouchChain.lean ====
section
/-! SUPPORT. The parts of State that each operation of Machine/Chain.lean changes. -/

namespace Sys2Proof.Machine

theorem State.modLc_touch (s : State) (k : Fin 8) (f : Lc → Lc) :
    onlyTouches [.lc] s (State.modLc s k f) := by
  unfold State.modLc
  repeat' first
    | (with_reducible apply onlyTouches.refl)
    | (with_reducible apply onlyTouches.put_lc; (case m => decide))

theorem State.lcEmit_touch (s : State) (k : Fin 8) (code : Nat) (arg : W32) :
    onlyTouches [.fab] s (State.lcEmit s k code arg) := by
  unfold State.lcEmit
  repeat' first
    | (with_reducible apply onlyTouches.refl)
    | (with_reducible show onlyTouches _ _ (State.emit ..); refine onlyTouches.trans ?_ (State.emit_touch ..) ?sub; (case sub => decide))

theorem State.lcRes_touch (s : State) (k : Fin 8) (r : Nat) :
    onlyTouches [.lc] s (State.lcRes s k r) := by
  unfold State.lcRes
  repeat' first
    | (with_reducible apply onlyTouches.refl)
    | (with_reducible show onlyTouches _ _ (State.modLc ..); refine onlyTouches.trans ?_ (State.modLc_touch ..) ?sub; (case sub => decide))

theorem State.lcIdle_touch (s : State) (k : Fin 8) (reason : Nat) :
    onlyTouches [.fab, .lc] s (State.lcIdle s k reason) := by
  unfold State.lcIdle
  repeat' first
    | (with_reducible apply onlyTouches.refl)
    | (with_reducible show onlyTouches _ _ (State.lcEmit ..); refine onlyTouches.trans ?_ (State.lcEmit_touch ..) ?sub; (case sub => decide))
    | (with_reducible show onlyTouches _ _ (State.modLc ..); refine onlyTouches.trans ?_ (State.modLc_touch ..) ?sub; (case sub => decide))

theorem State.lcGo_touch (s : State) (k : Fin 8) :
    onlyTouches [.lc] s (State.lcGo s k) := by
  unfold State.lcGo
  repeat' first
    | (with_reducible apply onlyTouches.refl)
    | (with_reducible show onlyTouches _ _ (State.lcRes ..); refine onlyTouches.trans ?_ (State.lcRes_touch ..) ?sub; (case sub => decide))
    | (with_reducible show onlyTouches _ _ (State.modLc ..); refine onlyTouches.trans ?_ (State.modLc_touch ..) ?sub; (case sub => decide))
    | (with_reducible apply onlyTouches.ite)

theorem State.lcStop_touch (s : State) (k : Fin 8) (reason : Nat) :
    onlyTouches [.fab, .lc] s (State.lcStop s k reason) := by
  unfold State.lcStop
  dsimp only
  repeat' first
    | (with_reducible apply onlyTouches.refl)
    | (with_reducible show onlyTouches _ _ (State.lcIdle ..); refine onlyTouches.trans ?_ (State.lcIdle_touch ..) ?sub; (case sub => decide))
    | (with_reducible show onlyTouches _ _ (State.modLc ..); refine onlyTouches.trans ?_ (State.modLc_touch ..) ?sub; (case sub => decide))
    | (with_reducible apply onlyTouches.ite)
    | (split)

theorem State.lcAbort_touch (s : State) (k : Fin 8) (same : Bool) :
    onlyTouches [.fab, .lc] s (State.lcAbort s k same) := by
  unfold State.lcAbort
  dsimp only
  repeat' first
    | (with_reducible apply onlyTouches.refl)
    | (with_reducible show onlyTouches _ _ (State.lcIdle ..); refine onlyTouches.trans ?_ (State.lcIdle_touch ..) ?sub; (case sub => decide))
    | (with_reducible show onlyTouches _ _ (State.lcRes ..); refine onlyTouches.trans ?_ (State.lcRes_touch ..) ?sub; (case sub => decide))
    | (with_reducible show onlyTouches _ _ (State.modLc ..); refine onlyTouches.trans ?_ (State.modLc_touch ..) ?sub; (case sub => decide))
    | (with_reducible apply onlyTouches.ite)

theorem State.lcDisable_touch (s : State) (k : Fin 8) :
    onlyTouches [.fab, .lc] s (State.lcDisable s k) := by
  unfold State.lcDisable
  dsimp only
  repeat' first
    | (with_reducible apply onlyTouches.refl)
    | (with_reducible show onlyTouches _ _ (State.lcIdle ..); refine onlyTouches.trans ?_ (State.lcIdle_touch ..) ?sub; (case sub => decide))
    | (with_reducible show onlyTouches _ _ (State.modLc ..); refine onlyTouches.trans ?_ (State.modLc_touch ..) ?sub; (case sub => decide))
    | (with_reducible apply onlyTouches.ite)

theorem State.lcSwap_touch (s : State) (k : Fin 8) :
    onlyTouches [.lc] s (State.lcSwap s k) := by
  unfold State.lcSwap
  repeat' first
    | (with_reducible apply onlyTouches.refl)
    | (with_reducible show onlyTouches _ _ (State.modLc ..); refine onlyTouches.trans ?_ (State.modLc_touch ..) ?sub; (case sub => decide))

theorem State.lcCtlWrite_touch (s : State) (k : Fin 8) (v : W32) :
    onlyTouches [.fab, .lc] s (State.lcCtlWrite s k v) := by
  unfold State.lcCtlWrite
  dsimp only
  repeat' first
    | (with_reducible apply onlyTouches.refl)
    | (with_reducible show onlyTouches _ _ (State.lcDisable ..); refine onlyTouches.trans ?_ (State.lcDisable_touch ..) ?sub; (case sub => decide))
    | (with_reducible show onlyTouches _ _ (State.lcRes ..); refine onlyTouches.trans ?_ (State.lcRes_touch ..) ?sub; (case sub => decide))
    | (with_reducible show onlyTouches _ _ (State.lcStop ..); refine onlyTouches.trans ?_ (State.lcStop_touch ..) ?sub; (case sub => decide))
    | (with_reducible show onlyTouches _ _ (State.modLc ..); refine onlyTouches.trans ?_ (State.modLc_touch ..) ?sub; (case sub => decide))
    | (with_reducible apply onlyTouches.ite)

theorem State.lcCmdWrite_touch (s : State) (k : Fin 8) (v : W32) (same : Bool) :
    onlyTouches [.fab, .lc] s (State.lcCmdWrite s k v same) := by
  unfold State.lcCmdWrite
  repeat' first
    | (with_reducible apply onlyTouches.refl)
    | (with_reducible show onlyTouches _ _ (State.lcAbort ..); refine onlyTouches.trans ?_ (State.lcAbort_touch ..) ?sub; (case sub => decide))
    | (with_reducible show onlyTouches _ _ (State.lcGo ..); refine onlyTouches.trans ?_ (State.lcGo_touch ..) ?sub; (case sub => decide))
    | (with_reducible show onlyTouches _ _ (State.lcRes ..); refine onlyTouches.trans ?_ (State.lcRes_touch ..) ?sub; (case sub => decide))
    | (with_reducible show onlyTouches _ _ (State.lcStop ..); refine onlyTouches.trans ?_ (State.lcStop_touch ..) ?sub; (case sub => decide))
    | (with_reducible show onlyTouches _ _ (State.lcSwap ..); refine onlyTouches.trans ?_ (State.lcSwap_touch ..) ?sub; (case sub => decide))
    | (with_reducible show onlyTouches _ _ (State.onlyIf ..); refine onlyTouches.onlyIf ?_ fun x => ?_)

theorem State.lcFrameWrite_touch (s : State) (k : Fin 8) (v : W32) :
    onlyTouches [.lc] s (State.lcFrameWrite s k v) := by
  unfold State.lcFrameWrite
  dsimp only
  repeat' first
    | (with_reducible apply onlyTouches.refl)
    | (with_reducible show onlyTouches _ _ (State.lcRes ..); refine onlyTouches.trans ?_ (State.lcRes_touch ..) ?sub; (case sub => decide))
    | (with_reducible show onlyTouches _ _ (State.modLc ..); refine onlyTouches.trans ?_ (State.modLc_touch ..) ?sub; (case sub => decide))
    | (with_reducible apply onlyTouches.ite)

theorem State.lcBaseWrite_touch (s : State) (k : Fin 8) (out : Bool) (i : Fin 2) (v : W32) :
    onlyTouches [.lc] s (State.lcBaseWrite s k out i v) := by
  unfold State.lcBaseWrite
  dsimp only
  repeat' first
    | (with_reducible apply onlyTouches.refl)
    | (with_reducible show onlyTouches _ _ (State.lcRes ..); refine onlyTouches.trans ?_ (State.lcRes_touch ..) ?sub; (case sub => decide))
    | (with_reducible show onlyTouches _ _ (State.modLc ..); refine onlyTouches.trans ?_ (State.modLc_touch ..) ?sub; (case sub => decide))
    | (with_reducible apply onlyTouches.ite)

theorem State.lcErr_touch (s : State) (k : Fin 8) (i : Nat) :
    onlyTouches [.lc] s (State.lcErr s k i) := by
  unfold State.lcErr
  repeat' first
    | (with_reducible apply onlyTouches.refl)
    | (with_reducible show onlyTouches _ _ (State.modLc ..); refine onlyTouches.trans ?_ (State.modLc_touch ..) ?sub; (case sub => decide))

theorem State.lcFetch_touch (s : State) (k : Fin 8) (base n : Nat) :
    onlyTouches [.fab, .pwr, .sys, .ecc, .lc, .pmc, .free] s (State.lcFetch s k base n) := by
  unfold State.lcFetch
  dsimp only
  repeat' first
    | (with_reducible apply onlyTouches.refl)
    | (with_reducible show onlyTouches _ _ (State.eccRead ..).2; refine onlyTouches.trans ?_ (State.eccRead_touch ..) ?sub; (case sub => decide))
    | (with_reducible show onlyTouches _ _ (State.lcEmit ..); refine onlyTouches.trans ?_ (State.lcEmit_touch ..) ?sub; (case sub => decide))
    | (with_reducible show onlyTouches _ _ (State.lcErr ..); refine onlyTouches.trans ?_ (State.lcErr_touch ..) ?sub; (case sub => decide))
    | (with_reducible show onlyTouches _ _ (List.foldl ..); refine onlyTouches.foldl (fun x a => ?_) _ ?_)

theorem State.lcFrameStart_touch (s : State) (k : Fin 8) (late : List Nat) :
    onlyTouches [.tmb, .fab, .pwr, .sys, .ecc, .lc, .pmc, .dep, .nv, .free] s (State.lcFrameStart s k late) := by
  unfold State.lcFrameStart
  dsimp only
  repeat' first
    | (with_reducible apply onlyTouches.refl)
    | (with_reducible show onlyTouches _ _ (State.advanceTo ..); refine onlyTouches.trans ?_ (State.advanceTo_touch ..) ?sub; (case sub => decide))
    | (with_reducible show onlyTouches _ _ (State.lcEmit ..); refine onlyTouches.trans ?_ (State.lcEmit_touch ..) ?sub; (case sub => decide))
    | (with_reducible show onlyTouches _ _ (State.lcErr ..); refine onlyTouches.trans ?_ (State.lcErr_touch ..) ?sub; (case sub => decide))
    | (with_reducible show onlyTouches _ _ (State.lcFetch ..); refine onlyTouches.trans ?_ (State.lcFetch_touch ..) ?sub; (case sub => decide))
    | (with_reducible show onlyTouches _ _ (State.modLc ..); refine onlyTouches.trans ?_ (State.modLc_touch ..) ?sub; (case sub => decide))
    | (with_reducible apply onlyTouches.ite)

theorem State.lcFrameEnd_touch (s : State) (k : Fin 8) :
    onlyTouches [.tmb, .fab, .pwr, .ecc, .lc, .pmc, .dep, .nv, .free] s (State.lcFrameEnd s k) := by
  unfold State.lcFrameEnd
  dsimp only
  repeat' first
    | (with_reducible apply onlyTouches.refl)
    | (with_reducible show onlyTouches _ _ (State.advanceTo ..); refine onlyTouches.trans ?_ (State.advanceTo_touch ..) ?sub; (case sub => decide))
    | (with_reducible show onlyTouches _ _ (State.lcIdle ..); refine onlyTouches.trans ?_ (State.lcIdle_touch ..) ?sub; (case sub => decide))
    | (with_reducible show onlyTouches _ _ (State.modLc ..); refine onlyTouches.trans ?_ (State.modLc_touch ..) ?sub; (case sub => decide))
    | (with_reducible apply onlyTouches.ite)
    | (split)

theorem State.lcCompare_touch (s : State) (k : Fin 8) (other pos : Nat) (b : W8) :
    onlyTouches [.fab, .pwr, .sys, .ecc, .lc, .que, .pmc, .free] s (State.lcCompare s k other pos b) := by
  unfold State.lcCompare
  dsimp only
  repeat' first
    | (with_reducible apply onlyTouches.refl)
    | (with_reducible show onlyTouches _ _ (State.draw ..).2; refine onlyTouches.trans ?_ (State.draw_touch ..) ?sub; (case sub => decide))
    | (with_reducible show onlyTouches _ _ (State.loadBytes ..).2.2; refine onlyTouches.trans ?_ (State.loadBytes_touch ..) ?sub; (case sub => decide))
    | (with_reducible show onlyTouches _ _ (State.modLc ..); refine onlyTouches.trans ?_ (State.modLc_touch ..) ?sub; (case sub => decide))
    | (with_reducible show onlyTouches _ _ (State.quePush ..).2; refine onlyTouches.trans ?_ (State.quePush_touch ..) ?sub; (case sub => decide))
    | (with_reducible apply onlyTouches.ite)

theorem State.lcCompareAll_touch (k : Fin 8) (other pos : Nat) (l : List W8) (s : State) :
    onlyTouches [.fab, .pwr, .sys, .ecc, .lc, .que, .pmc, .free] s (State.lcCompareAll k other pos l s) := by
  induction l generalizing pos s with
  | nil => exact onlyTouches.refl _ _
  | cons b r ih => exact ((State.lcCompare_touch s k other pos b).mono (by decide)).step (ih _ _)

theorem State.lcRetErr_touch (s : State) (k : Fin 8) (i cause : Nat) :
    onlyTouches [.fab, .lc] s (State.lcRetErr s k i cause) := by
  unfold State.lcRetErr
  repeat' first
    | (with_reducible apply onlyTouches.refl)
    | (with_reducible show onlyTouches _ _ (State.lcEmit ..); refine onlyTouches.trans ?_ (State.lcEmit_touch ..) ?sub; (case sub => decide))
    | (with_reducible show onlyTouches _ _ (State.lcErr ..); refine onlyTouches.trans ?_ (State.lcErr_touch ..) ?sub; (case sub => decide))

theorem State.lcRetDone_touch (s : State) (k : Fin 8) (hdr : W32) (n ovr : Nat) (errs : Bool) :
    onlyTouches [.fab, .lc] s (State.lcRetDone s k hdr n ovr errs) := by
  unfold State.lcRetDone
  dsimp only
  repeat' first
    | (with_reducible apply onlyTouches.refl)
    | (with_reducible show onlyTouches _ _ (State.lcEmit ..); refine onlyTouches.trans ?_ (State.lcEmit_touch ..) ?sub; (case sub => decide))
    | (with_reducible show onlyTouches _ _ (State.modLc ..); refine onlyTouches.trans ?_ (State.modLc_touch ..) ?sub; (case sub => decide))

theorem State.lcReturnBegin_touch (s : State) (k : Fin 8) :
    onlyTouches [.lc] s (State.lcReturnBegin s k) := by
  unfold State.lcReturnBegin
  repeat' first
    | (with_reducible apply onlyTouches.refl)
    | (with_reducible show onlyTouches _ _ (State.modLc ..); refine onlyTouches.trans ?_ (State.modLc_touch ..) ?sub; (case sub => decide))
    | (with_reducible apply onlyTouches.ite)

theorem State.lcStray_touch (s : State) (k : Fin 8) :
    onlyTouches [.fab, .lc] s (State.lcStray s k) := by
  unfold State.lcStray
  repeat' first
    | (with_reducible apply onlyTouches.refl)
    | (with_reducible show onlyTouches _ _ (State.lcRetErr ..); refine onlyTouches.trans ?_ (State.lcRetErr_touch ..) ?sub; (case sub => decide))
    | (with_reducible show onlyTouches _ _ (State.modLc ..); refine onlyTouches.trans ?_ (State.modLc_touch ..) ?sub; (case sub => decide))

theorem State.lcCollect_touch (s : State) (k : Fin 8) (f : LcFrame) (echo : W32) (body : List W8) (extra : Nat) :
    onlyTouches [.fab, .pwr, .sys, .mem, .ecc, .lc, .que, .pmc, .free] s (State.lcCollect s k f echo body extra) := by
  unfold State.lcCollect
  dsimp only
  repeat' first
    | (with_reducible apply onlyTouches.refl)
    | (with_reducible show onlyTouches _ _ (State.lcCompareAll ..); refine onlyTouches.trans ?_ (State.lcCompareAll_touch ..) ?sub; (case sub => decide))
    | (with_reducible show onlyTouches _ _ (State.lcEmit ..); refine onlyTouches.trans ?_ (State.lcEmit_touch ..) ?sub; (case sub => decide))
    | (with_reducible show onlyTouches _ _ (State.lcErr ..); refine onlyTouches.trans ?_ (State.lcErr_touch ..) ?sub; (case sub => decide))
    | (with_reducible show onlyTouches _ _ (State.lcRetDone ..); refine onlyTouches.trans ?_ (State.lcRetDone_touch ..) ?sub; (case sub => decide))
    | (with_reducible show onlyTouches _ _ (State.lcRetErr ..); refine onlyTouches.trans ?_ (State.lcRetErr_touch ..) ?sub; (case sub => decide))
    | (with_reducible show onlyTouches _ _ (State.modLc ..); refine onlyTouches.trans ?_ (State.modLc_touch ..) ?sub; (case sub => decide))
    | (with_reducible show onlyTouches _ _ (State.storeStream ..); refine onlyTouches.trans ?_ (State.storeStream_touch ..) ?sub; (case sub => decide))
    | (with_reducible apply onlyTouches.ite)
    | (split)

theorem State.lcReturn_touch (s : State) (k : Fin 8) (echo : W32) (body : List W8) (extra : Nat) :
    onlyTouches [.fab, .pwr, .sys, .mem, .ecc, .lc, .que, .pmc, .free] s (State.lcReturn s k echo body extra) := by
  unfold State.lcReturn
  dsimp only
  repeat' first
    | (with_reducible apply onlyTouches.refl)
    | (with_reducible show onlyTouches _ _ (State.lcCollect ..); refine onlyTouches.trans ?_ (State.lcCollect_touch ..) ?sub; (case sub => decide))
    | (with_reducible show onlyTouches _ _ (State.lcRetErr ..); refine onlyTouches.trans ?_ (State.lcRetErr_touch ..) ?sub; (case sub => decide))
    | (with_reducible show onlyTouches _ _ (State.lcStray ..); refine onlyTouches.trans ?_ (State.lcStray_touch ..) ?sub; (case sub => decide))
    | (with_reducible show onlyTouches _ _ (State.modLc ..); refine onlyTouches.trans ?_ (State.modLc_touch ..) ?sub; (case sub => decide))
    | (with_reducible apply onlyTouches.ite)
    | (split)

theorem State.lcEchoTimeout_touch (s : State) (k : Fin 8) :
    onlyTouches [.tmb, .fab, .pwr, .ecc, .lc, .pmc, .dep, .nv, .free] s (State.lcEchoTimeout s k) := by
  unfold State.lcEchoTimeout
  dsimp only
  repeat' first
    | (with_reducible apply onlyTouches.refl)
    | (with_reducible show onlyTouches _ _ (State.advanceTo ..); refine onlyTouches.trans ?_ (State.advanceTo_touch ..) ?sub; (case sub => decide))
    | (with_reducible show onlyTouches _ _ (State.lcEmit ..); refine onlyTouches.trans ?_ (State.lcEmit_touch ..) ?sub; (case sub => decide))
    | (with_reducible show onlyTouches _ _ (State.lcErr ..); refine onlyTouches.trans ?_ (State.lcErr_touch ..) ?sub; (case sub => decide))
    | (with_reducible show onlyTouches _ _ (State.modLc ..); refine onlyTouches.trans ?_ (State.modLc_touch ..) ?sub; (case sub => decide))
    | (with_reducible apply onlyTouches.ite)
    | (split)

theorem State.lcGlitch_touch (s : State) (k : Fin 8) :
    onlyTouches [.fab, .lc] s (State.lcGlitch s k) := by
  unfold State.lcGlitch
  dsimp only
  repeat' first
    | (with_reducible apply onlyTouches.refl)
    | (with_reducible show onlyTouches _ _ (State.lcRetErr ..); refine onlyTouches.trans ?_ (State.lcRetErr_touch ..) ?sub; (case sub => decide))
    | (with_reducible apply onlyTouches.ite)
    | (split)

theorem State.lcOrphan_touch (s : State) (k : Fin 8) :
    onlyTouches [.fab, .lc] s (State.lcOrphan s k) := by
  unfold State.lcOrphan
  repeat' first
    | (with_reducible apply onlyTouches.refl)
    | (with_reducible show onlyTouches _ _ (State.lcStop ..); refine onlyTouches.trans ?_ (State.lcStop_touch ..) ?sub; (case sub => decide))
    | (with_reducible apply onlyTouches.ite)

theorem State.queReleaseOne_touch (s : State) (p : HeldPush) (told : List (Nat × Nat)) :
    onlyTouches [.fab, .lc, .que, .pmc] s (State.queReleaseOne s p told).1 := by
  unfold State.queReleaseOne
  dsimp only
  repeat' first
    | (with_reducible apply onlyTouches.refl)
    | (with_reducible show onlyTouches _ _ (State.lcEmit ..); refine onlyTouches.trans ?_ (State.lcEmit_touch ..) ?sub; (case sub => decide))
    | (with_reducible show onlyTouches _ _ (State.modLc ..); refine onlyTouches.trans ?_ (State.modLc_touch ..) ?sub; (case sub => decide))
    | (with_reducible show onlyTouches _ _ (State.quePushNow ..).2; refine onlyTouches.trans ?_ (State.quePushNow_touch ..) ?sub; (case sub => decide))
    | (with_reducible apply onlyTouches.ite)
    | (split)

theorem State.queReleaseAll_touch (l : List HeldPush) (told : List (Nat × Nat)) (s : State) :
    onlyTouches [.fab, .lc, .que, .pmc] s (State.queReleaseAll l told s) := by
  induction l generalizing told s with
  | nil => exact onlyTouches.refl _ _
  | cons x r ih => exact ((State.queReleaseOne_touch ..).mono (by decide)).step (ih _ _)

theorem State.queRelease_touch (s : State) :
    onlyTouches [.fab, .lc, .que, .pmc] s (State.queRelease s) := by
  unfold State.queRelease
  repeat' first
    | (with_reducible apply onlyTouches.refl)
    | (with_reducible show onlyTouches _ _ (State.modQue ..); refine onlyTouches.trans ?_ (State.modQue_touch ..) ?sub; (case sub => decide))
    | (with_reducible show onlyTouches _ _ (State.queReleaseAll ..); refine onlyTouches.trans ?_ (State.queReleaseAll_touch ..) ?sub; (case sub => decide))

theorem State.lcWrite_touch (s : State) (k : Fin 8) (off : Nat) (v : W32) :
    onlyTouches [.fab, .lc] s (State.lcWrite s k off v) := by
  unfold State.lcWrite
  repeat' first
    | (with_reducible apply onlyTouches.refl)
    | (with_reducible show onlyTouches _ _ (State.lcBaseWrite ..); refine onlyTouches.trans ?_ (State.lcBaseWrite_touch ..) ?sub; (case sub => decide))
    | (with_reducible show onlyTouches _ _ (State.lcCmdWrite ..); refine onlyTouches.trans ?_ (State.lcCmdWrite_touch ..) ?sub; (case sub => decide))
    | (with_reducible show onlyTouches _ _ (State.lcCtlWrite ..); refine onlyTouches.trans ?_ (State.lcCtlWrite_touch ..) ?sub; (case sub => decide))
    | (with_reducible show onlyTouches _ _ (State.lcFrameWrite ..); refine onlyTouches.trans ?_ (State.lcFrameWrite_touch ..) ?sub; (case sub => decide))
    | (with_reducible show onlyTouches _ _ (State.modLc ..); refine onlyTouches.trans ?_ (State.modLc_touch ..) ?sub; (case sub => decide))
    | (split)

theorem State.lchGlobal_touch (s : State) (go stop : Nat) :
    onlyTouches [.fab, .lc] s (State.lchGlobal s go stop) := by
  unfold State.lchGlobal
  repeat' first
    | (with_reducible apply onlyTouches.refl)
    | (with_reducible show onlyTouches _ _ (State.lcGo ..); refine onlyTouches.trans ?_ (State.lcGo_touch ..) ?sub; (case sub => decide))
    | (with_reducible show onlyTouches _ _ (State.lcRes ..); refine onlyTouches.trans ?_ (State.lcRes_touch ..) ?sub; (case sub => decide))
    | (with_reducible show onlyTouches _ _ (State.lcStop ..); refine onlyTouches.trans ?_ (State.lcStop_touch ..) ?sub; (case sub => decide))
    | (with_reducible show onlyTouches _ _ (State.onlyIf ..); refine onlyTouches.onlyIf ?_ fun x => ?_)
    | (with_reducible show onlyTouches _ _ (forFin ..); refine onlyTouches.forFin ?_ fun i x => ?_)

theorem State.lchWrite_touch (s : State) (off : Nat) (v : W32) :
    onlyTouches [.fab, .lc] s (State.lchWrite s off v) := by
  unfold State.lchWrite
  repeat' first
    | (with_reducible apply onlyTouches.refl)
    | (with_reducible show onlyTouches _ _ (State.lcWrite ..); refine onlyTouches.trans ?_ (State.lcWrite_touch ..) ?sub; (case sub => decide))
    | (with_reducible show onlyTouches _ _ (State.lchGlobal ..); refine onlyTouches.trans ?_ (State.lchGlobal_touch ..) ?sub; (case sub => decide))
    | (with_reducible apply onlyTouches.ite)
    | (with_reducible apply onlyTouches.dite <;> intro h)

end Sys2Proof.Machine
end

