-- ==== Sys2Proof/Laws/TouchHostPort.lean ====
section
/-! SUPPORT. The parts of State that each operation of Machine/HostPort.lean changes. -/

namespace Sys2Proof.Machine

theorem State.hpEdge_touch (s : State) :
    onlyTouches [.pwr, .hp] s (State.hpEdge s) := by
  unfold State.hpEdge
  repeat' first
    | (with_reducible apply onlyTouches.refl)
    | (with_reducible show onlyTouches _ _ (State.modHp ..); refine onlyTouches.trans ?_ (State.modHp_touch ..) ?sub; (case sub => decide))
    | (with_reducible show onlyTouches _ _ (State.wakeReq ..); refine onlyTouches.trans ?_ (State.wakeReq_touch ..) ?sub; (case sub => decide))

theorem State.hpCsnRow_touch (s : State) :
    onlyTouches [.pwr, .hp] s (State.hpCsnRow s) := by
  unfold State.hpCsnRow
  repeat' first
    | (with_reducible apply onlyTouches.refl)
    | (with_reducible show onlyTouches _ _ (State.hpEdge ..); refine onlyTouches.trans ?_ (State.hpEdge_touch ..) ?sub; (case sub => decide))
    | (with_reducible apply onlyTouches.ite)

theorem State.hpStart_touch (s : State) (sck : Bool) :
    onlyTouches [.pwr, .hp] s (State.hpStart s sck) := by
  unfold State.hpStart
  dsimp only
  repeat' first
    | (with_reducible apply onlyTouches.refl)
    | (with_reducible show onlyTouches _ _ (State.hpEdge ..); refine onlyTouches.trans ?_ (State.hpEdge_touch ..) ?sub; (case sub => decide))
    | (with_reducible show onlyTouches _ _ (State.modHp ..); refine onlyTouches.trans ?_ (State.modHp_touch ..) ?sub; (case sub => decide))
    | (with_reducible show onlyTouches _ _ (State.wakeReq ..); refine onlyTouches.trans ?_ (State.wakeReq_touch ..) ?sub; (case sub => decide))
    | (with_reducible apply onlyTouches.ite)

theorem State.hpAct_touch (s : State) (bs : List W8) :
    onlyTouches [.fab, .que, .pmc, .hp] s (State.hpAct s bs) := by
  unfold State.hpAct
  dsimp only
  repeat' first
    | (with_reducible apply onlyTouches.refl)
    | (with_reducible show onlyTouches _ _ (State.modHp ..); refine onlyTouches.trans ?_ (State.modHp_touch ..) ?sub; (case sub => decide))
    | (with_reducible show onlyTouches _ _ (State.quePushNow ..).2; refine onlyTouches.trans ?_ (State.quePushNow_touch ..) ?sub; (case sub => decide))
    | (split)

theorem State.hpRequest_touch (s : State) (bs : List W8) :
    onlyTouches [.fab, .que, .pmc, .hp] s (State.hpRequest s bs) := by
  unfold State.hpRequest
  dsimp only
  repeat' first
    | (with_reducible apply onlyTouches.refl)
    | (with_reducible show onlyTouches _ _ (State.emit ..); refine onlyTouches.trans ?_ (State.emit_touch ..) ?sub; (case sub => decide))
    | (with_reducible show onlyTouches _ _ (State.hpAct ..); refine onlyTouches.trans ?_ (State.hpAct_touch ..) ?sub; (case sub => decide))
    | (with_reducible show onlyTouches _ _ (State.modHp ..); refine onlyTouches.trans ?_ (State.modHp_touch ..) ?sub; (case sub => decide))
    | (with_reducible apply onlyTouches.ite)

theorem State.hpTake_touch (s : State) :
    onlyTouches [.fab, .que, .hp] s (State.hpTake s) := by
  unfold State.hpTake
  dsimp only
  repeat' first
    | (with_reducible apply onlyTouches.refl)
    | (with_reducible show onlyTouches _ _ (State.modHp ..); refine onlyTouches.trans ?_ (State.modHp_touch ..) ?sub; (case sub => decide))
    | (with_reducible show onlyTouches _ _ (State.quePop ..).2; refine onlyTouches.trans ?_ (State.quePop_touch ..) ?sub; (case sub => decide))
    | (with_reducible show onlyTouches _ _ (List.foldl ..); refine onlyTouches.foldl (fun x a => ?_) _ ?_)
    | (with_reducible apply onlyTouches.ite)
    | (split)

theorem State.hpEnd_touch (s : State) (bs : List W8) (take : Bool) :
    onlyTouches [.fab, .que, .pmc, .hp] s (State.hpEnd s bs take) := by
  unfold State.hpEnd
  dsimp only
  repeat' first
    | (with_reducible apply onlyTouches.refl)
    | (with_reducible show onlyTouches _ _ (State.hpRequest ..); refine onlyTouches.trans ?_ (State.hpRequest_touch ..) ?sub; (case sub => decide))
    | (with_reducible show onlyTouches _ _ (State.hpTake ..); refine onlyTouches.trans ?_ (State.hpTake_touch ..) ?sub; (case sub => decide))
    | (with_reducible show onlyTouches _ _ (State.modHp ..); refine onlyTouches.trans ?_ (State.modHp_touch ..) ?sub; (case sub => decide))
    | (with_reducible show onlyTouches _ _ (State.onlyIf ..); refine onlyTouches.onlyIf ?_ fun x => ?_)
    | (with_reducible apply onlyTouches.ite)

theorem State.hpTransaction_touch (s : State) (bs : List W8) :
    onlyTouches [.fab, .pwr, .que, .pmc, .hp] s (State.hpTransaction s bs) := by
  unfold State.hpTransaction
  repeat' first
    | (with_reducible apply onlyTouches.refl)
    | (with_reducible show onlyTouches _ _ (State.hpEnd ..); refine onlyTouches.trans ?_ (State.hpEnd_touch ..) ?sub; (case sub => decide))
    | (with_reducible show onlyTouches _ _ (State.hpStart ..); refine onlyTouches.trans ?_ (State.hpStart_touch ..) ?sub; (case sub => decide))
    | (with_reducible apply onlyTouches.ite)

theorem State.hpWrite_touch (s : State) (off : Nat) (v : W32) :
    onlyTouches [.hp] s (State.hpWrite s off v) := by
  unfold State.hpWrite
  repeat' first
    | (with_reducible apply onlyTouches.refl)
    | (with_reducible show onlyTouches _ _ (State.modHp ..); refine onlyTouches.trans ?_ (State.modHp_touch ..) ?sub; (case sub => decide))
    | (with_reducible apply onlyTouches.ite)

end Sys2Proof.Machine
end

