-- ==== Sys2Proof/Laws/TouchPlantLink.lean ====
section
/-! SUPPORT. The parts of State that each operation of Machine/PlantLink.lean changes. -/

namespace Sys2Proof.Machine

theorem State.descRead_touch (s : State) (a : Nat) :
    onlyTouches [.fab, .pwr, .sys, .ecc, .pmc, .free] s (State.descRead s a).2 := by
  unfold State.descRead
  dsimp only
  repeat' first
    | (with_reducible apply onlyTouches.refl)
    | (with_reducible show onlyTouches _ _ (State.loadBytes ..).2.2; refine onlyTouches.trans ?_ (State.loadBytes_touch ..) ?sub; (case sub => decide))
    | (with_reducible apply onlyTouches.ite)
    | (split)

theorem State.plkHold_touch (s : State) (op : PlkOp) :
    onlyTouches [.pwr, .plk] s (State.plkHold s op) := by
  unfold State.plkHold
  repeat' first
    | (with_reducible apply onlyTouches.refl)
    | (with_reducible show onlyTouches _ _ (State.coreHolds ..); refine onlyTouches.trans ?_ (State.coreHolds_touch ..) ?sub; (case sub => decide))
    | (with_reducible show onlyTouches _ _ (State.modPlk ..); refine onlyTouches.trans ?_ (State.modPlk_touch ..) ?sub; (case sub => decide))
    | (with_reducible show onlyTouches _ _ (State.onlyIf ..); refine onlyTouches.onlyIf ?_ fun x => ?_)

theorem State.txLook_touch (s : State) :
    onlyTouches [.fab, .pwr, .sys, .ecc, .pmc, .plk, .free] s (State.txLook s) := by
  unfold State.txLook
  dsimp only
  repeat' first
    | (with_reducible apply onlyTouches.refl)
    | (with_reducible show onlyTouches _ _ (State.descRead ..).2; refine onlyTouches.trans ?_ (State.descRead_touch ..) ?sub; (case sub => decide))
    | (with_reducible show onlyTouches _ _ (State.modPlk ..); refine onlyTouches.trans ?_ (State.modPlk_touch ..) ?sub; (case sub => decide))
    | (with_reducible show onlyTouches _ _ (State.plkHold ..); refine onlyTouches.trans ?_ (State.plkHold_touch ..) ?sub; (case sub => decide))
    | (with_reducible apply onlyTouches.ite)

theorem State.rxLook_touch (s : State) :
    onlyTouches [.fab, .pwr, .sys, .ecc, .pmc, .plk, .free] s (State.rxLook s) := by
  unfold State.rxLook
  dsimp only
  repeat' first
    | (with_reducible apply onlyTouches.refl)
    | (with_reducible show onlyTouches _ _ (State.descRead ..).2; refine onlyTouches.trans ?_ (State.descRead_touch ..) ?sub; (case sub => decide))
    | (with_reducible show onlyTouches _ _ (State.modPlk ..); refine onlyTouches.trans ?_ (State.modPlk_touch ..) ?sub; (case sub => decide))
    | (with_reducible show onlyTouches _ _ (State.plkHold ..); refine onlyTouches.trans ?_ (State.plkHold_touch ..) ?sub; (case sub => decide))
    | (with_reducible apply onlyTouches.ite)

theorem State.descBack_touch (s : State) (a : Nat) (w1 ts tries : Nat) :
    onlyTouches [.fab, .pwr, .sys, .mem, .ecc, .pmc, .free] s (State.descBack s a w1 ts tries) := by
  unfold State.descBack
  dsimp only
  repeat' first
    | (with_reducible apply onlyTouches.refl)
    | (with_reducible show onlyTouches _ _ (State.storeWords ..); refine onlyTouches.trans ?_ (State.storeWords_touch ..) ?sub; (case sub => decide))

theorem State.txBackAt_touch (s : State) (i w1 st ts tries : Nat) :
    onlyTouches [.fab, .pwr, .sys, .mem, .ecc, .pmc, .free] s (State.txBackAt s i w1 st ts tries) := by
  unfold State.txBackAt
  dsimp only
  repeat' first
    | (with_reducible apply onlyTouches.refl)
    | (with_reducible show onlyTouches _ _ (State.descBack ..); refine onlyTouches.trans ?_ (State.descBack_touch ..) ?sub; (case sub => decide))
    | (with_reducible show onlyTouches _ _ (State.emit ..); refine onlyTouches.trans ?_ (State.emit_touch ..) ?sub; (case sub => decide))
    | (with_reducible show onlyTouches _ _ (State.onlyIf ..); refine onlyTouches.onlyIf ?_ fun x => ?_)

theorem State.plkOff_touch (s : State) :
    onlyTouches [.fab, .pwr, .sys, .mem, .ecc, .pmc, .plk, .free] s (State.plkOff s) := by
  unfold State.plkOff
  dsimp only
  repeat' first
    | (with_reducible apply onlyTouches.refl)
    | (with_reducible show onlyTouches _ _ (State.descRead ..).2; refine onlyTouches.trans ?_ (State.descRead_touch ..) ?sub; (case sub => decide))
    | (with_reducible show onlyTouches _ _ (State.draw ..).2; refine onlyTouches.trans ?_ (State.draw_touch ..) ?sub; (case sub => decide))
    | (with_reducible show onlyTouches _ _ (State.modPlk ..); refine onlyTouches.trans ?_ (State.modPlk_touch ..) ?sub; (case sub => decide))
    | (with_reducible show onlyTouches _ _ (State.txBackAt ..); refine onlyTouches.trans ?_ (State.txBackAt_touch ..) ?sub; (case sub => decide))
    | (with_reducible show onlyTouches _ _ (List.foldl ..); refine onlyTouches.foldl (fun x a => ?_) _ ?_)
    | (with_reducible apply onlyTouches.ite)
    | (split)

theorem State.plkFrameEnd_touch (s : State) :
    onlyTouches [.fab, .pwr, .sys, .mem, .ecc, .pmc, .plk, .free] s (State.plkFrameEnd s) := by
  unfold State.plkFrameEnd
  repeat' first
    | (with_reducible apply onlyTouches.refl)
    | (with_reducible show onlyTouches _ _ (State.plkOff ..); refine onlyTouches.trans ?_ (State.plkOff_touch ..) ?sub; (case sub => decide))
    | (with_reducible apply onlyTouches.ite)

theorem State.txDoneNow_touch (s : State) (res tries ts : Nat) :
    onlyTouches [.fab, .pwr, .sys, .mem, .ecc, .pmc, .plk, .free] s (State.txDoneNow s res tries ts) := by
  unfold State.txDoneNow
  dsimp only
  repeat' first
    | (with_reducible apply onlyTouches.refl)
    | (with_reducible show onlyTouches _ _ (State.descRead ..).2; refine onlyTouches.trans ?_ (State.descRead_touch ..) ?sub; (case sub => decide))
    | (with_reducible show onlyTouches _ _ (State.eccRange ..).2; refine onlyTouches.trans ?_ (State.eccRange_touch ..) ?sub; (case sub => decide))
    | (with_reducible show onlyTouches _ _ (State.modPlk ..); refine onlyTouches.trans ?_ (State.modPlk_touch ..) ?sub; (case sub => decide))
    | (with_reducible show onlyTouches _ _ (State.plkFrameEnd ..); refine onlyTouches.trans ?_ (State.plkFrameEnd_touch ..) ?sub; (case sub => decide))
    | (with_reducible show onlyTouches _ _ (State.txBackAt ..); refine onlyTouches.trans ?_ (State.txBackAt_touch ..) ?sub; (case sub => decide))
    | (with_reducible show onlyTouches _ _ (State.txLook ..); refine onlyTouches.trans ?_ (State.txLook_touch ..) ?sub; (case sub => decide))
    | (with_reducible apply onlyTouches.ite)

theorem State.plkTxDone_touch (s : State) (res tries ago opp nth gap : Nat) :
    onlyTouches [.fab, .pwr, .sys, .mem, .ecc, .pmc, .plk, .free] s (State.plkTxDone s res tries ago opp nth gap) := by
  unfold State.plkTxDone
  dsimp only
  repeat' first
    | (with_reducible apply onlyTouches.refl)
    | (with_reducible show onlyTouches _ _ (State.modPlk ..); refine onlyTouches.trans ?_ (State.modPlk_touch ..) ?sub; (case sub => decide))
    | (with_reducible show onlyTouches _ _ (State.plkHold ..); refine onlyTouches.trans ?_ (State.plkHold_touch ..) ?sub; (case sub => decide))
    | (with_reducible show onlyTouches _ _ (State.txDoneNow ..); refine onlyTouches.trans ?_ (State.txDoneNow_touch ..) ?sub; (case sub => decide))
    | (with_reducible apply onlyTouches.ite)

theorem State.plkCtlWrite_touch (s : State) (v : W32) (same : Bool) (tries ago : Nat) :
    onlyTouches [.fab, .pwr, .sys, .mem, .ecc, .pmc, .plk, .free] s (State.plkCtlWrite s v same tries ago) := by
  unfold State.plkCtlWrite
  dsimp only
  repeat' first
    | (with_reducible apply onlyTouches.refl)
    | (with_reducible show onlyTouches _ _ (State.modPlk ..); refine onlyTouches.trans ?_ (State.modPlk_touch ..) ?sub; (case sub => decide))
    | (with_reducible show onlyTouches _ _ (State.plkFrameEnd ..); refine onlyTouches.trans ?_ (State.plkFrameEnd_touch ..) ?sub; (case sub => decide))
    | (with_reducible show onlyTouches _ _ (State.plkTxDone ..); refine onlyTouches.trans ?_ (State.plkTxDone_touch ..) ?sub; (case sub => decide))
    | (with_reducible show onlyTouches _ _ (State.onlyIf ..); refine onlyTouches.onlyIf ?_ fun x => ?_)
    | (with_reducible apply onlyTouches.ite)

theorem State.storeData_touch (a : Nat) (data : List W8) (s : State) : onlyTouches [.fab, .pwr, .sys, .mem, .ecc, .pmc, .free] s (State.storeData a data s).2 := by
  have h : ∀ (l : List Nat) (b : Nat) (r : Bool × State), onlyTouches [.fab, .pwr, .sys, .mem, .ecc, .pmc, .free] s r.2 →
      onlyTouches [.fab, .pwr, .sys, .mem, .ecc, .pmc, .free] s (l.foldl (fun r i =>
        let t := r.2.storeBytes (b + i) (data.getD (4 * (data.length / 4) + i) 0).toNat 1 5
        (r.1 && t.1, t.2)) r).2 := by
    intro l
    induction l with
    | nil => intro _ _ h; exact h
    | cons i l ih => intro b r h; exact ih b _ (h.step ((State.storeBytes_touch ..).mono (by decide)))
  unfold State.storeData
  exact h _ _ _ (State.storeWords_touch ..)

theorem State.rxDoneNow_touch (s : State) (frame : List W8) (ts : Nat) :
    onlyTouches [.fab, .pwr, .sys, .mem, .ecc, .pmc, .plk, .free] s (State.rxDoneNow s frame ts) := by
  unfold State.rxDoneNow
  dsimp only
  repeat' first
    | (with_reducible apply onlyTouches.refl)
    | (with_reducible show onlyTouches _ _ (State.descBack ..); refine onlyTouches.trans ?_ (State.descBack_touch ..) ?sub; (case sub => decide))
    | (with_reducible show onlyTouches _ _ (State.descRead ..).2; refine onlyTouches.trans ?_ (State.descRead_touch ..) ?sub; (case sub => decide))
    | (with_reducible show onlyTouches _ _ (State.emit ..); refine onlyTouches.trans ?_ (State.emit_touch ..) ?sub; (case sub => decide))
    | (with_reducible show onlyTouches _ _ (State.modPlk ..); refine onlyTouches.trans ?_ (State.modPlk_touch ..) ?sub; (case sub => decide))
    | (with_reducible show onlyTouches _ _ (State.rxLook ..); refine onlyTouches.trans ?_ (State.rxLook_touch ..) ?sub; (case sub => decide))
    | (with_reducible show onlyTouches _ _ (State.storeData ..).2; refine onlyTouches.trans ?_ (State.storeData_touch ..) ?sub; (case sub => decide))
    | (with_reducible show onlyTouches _ _ (State.onlyIf ..); refine onlyTouches.onlyIf ?_ fun x => ?_)
    | (with_reducible apply onlyTouches.ite)
    | (split)

theorem State.plkReceive_touch (s : State) (start : Bool) (frame : List W8) (ago : Nat) :
    onlyTouches [.fab, .pwr, .sys, .mem, .ecc, .pmc, .plk, .free] s (State.plkReceive s start frame ago) := by
  unfold State.plkReceive
  dsimp only
  repeat' first
    | (with_reducible apply onlyTouches.refl)
    | (with_reducible show onlyTouches _ _ (State.modPlk ..); refine onlyTouches.trans ?_ (State.modPlk_touch ..) ?sub; (case sub => decide))
    | (with_reducible show onlyTouches _ _ (State.plkFrameEnd ..); refine onlyTouches.trans ?_ (State.plkFrameEnd_touch ..) ?sub; (case sub => decide))
    | (with_reducible show onlyTouches _ _ (State.plkHold ..); refine onlyTouches.trans ?_ (State.plkHold_touch ..) ?sub; (case sub => decide))
    | (with_reducible show onlyTouches _ _ (State.rxDoneNow ..); refine onlyTouches.trans ?_ (State.rxDoneNow_touch ..) ?sub; (case sub => decide))
    | (with_reducible apply onlyTouches.ite)

theorem State.plkRelease_touch (s : State) :
    onlyTouches [.fab, .pwr, .sys, .mem, .ecc, .pmc, .plk, .free] s (State.plkRelease s) := by
  unfold State.plkRelease
  repeat' first
    | (with_reducible apply onlyTouches.refl)
    | (with_reducible show onlyTouches _ _ (State.modPlk ..); refine onlyTouches.trans ?_ (State.modPlk_touch ..) ?sub; (case sub => decide))
    | (with_reducible show onlyTouches _ _ (State.plkHold ..); refine onlyTouches.trans ?_ (State.plkHold_touch ..) ?sub; (case sub => decide))
    | (with_reducible show onlyTouches _ _ (State.rxDoneNow ..); refine onlyTouches.trans ?_ (State.rxDoneNow_touch ..) ?sub; (case sub => decide))
    | (with_reducible show onlyTouches _ _ (State.rxLook ..); refine onlyTouches.trans ?_ (State.rxLook_touch ..) ?sub; (case sub => decide))
    | (with_reducible show onlyTouches _ _ (State.txDoneNow ..); refine onlyTouches.trans ?_ (State.txDoneNow_touch ..) ?sub; (case sub => decide))
    | (with_reducible show onlyTouches _ _ (State.txLook ..); refine onlyTouches.trans ?_ (State.txLook_touch ..) ?sub; (case sub => decide))
    | (with_reducible show onlyTouches _ _ (List.foldl ..); refine onlyTouches.foldl (fun x a => ?_) _ ?_)
    | (with_reducible apply onlyTouches.ite)
    | (split)

theorem State.plcaChange_touch (s : State) (st : Bool) :
    onlyTouches [.fab, .plk] s (State.plcaChange s st) := by
  unfold State.plcaChange
  repeat' first
    | (with_reducible apply onlyTouches.refl)
    | (with_reducible show onlyTouches _ _ (State.emit ..); refine onlyTouches.trans ?_ (State.emit_touch ..) ?sub; (case sub => decide))
    | (with_reducible show onlyTouches _ _ (State.modPlk ..); refine onlyTouches.trans ?_ (State.modPlk_touch ..) ?sub; (case sub => decide))
    | (with_reducible apply onlyTouches.ite)

theorem State.plkCfgWrite_touch (s : State) (f : Plk → Plk) :
    onlyTouches [.plk] s (State.plkCfgWrite s f) := by
  unfold State.plkCfgWrite
  repeat' first
    | (with_reducible apply onlyTouches.refl)
    | (with_reducible show onlyTouches _ _ (State.modPlk ..); refine onlyTouches.trans ?_ (State.modPlk_touch ..) ?sub; (case sub => decide))
    | (with_reducible apply onlyTouches.ite)

theorem State.plkWrite_touch (s : State) (off : Nat) (v : W32) :
    onlyTouches [.fab, .pwr, .sys, .mem, .ecc, .pmc, .plk, .free] s (State.plkWrite s off v) := by
  unfold State.plkWrite
  repeat' first
    | (with_reducible apply onlyTouches.refl)
    | (with_reducible show onlyTouches _ _ (State.plkCfgWrite ..); refine onlyTouches.trans ?_ (State.plkCfgWrite_touch ..) ?sub; (case sub => decide))
    | (with_reducible show onlyTouches _ _ (State.plkCtlWrite ..); refine onlyTouches.trans ?_ (State.plkCtlWrite_touch ..) ?sub; (case sub => decide))
    | (with_reducible show onlyTouches _ _ (State.rxLook ..); refine onlyTouches.trans ?_ (State.rxLook_touch ..) ?sub; (case sub => decide))
    | (with_reducible show onlyTouches _ _ (State.txLook ..); refine onlyTouches.trans ?_ (State.txLook_touch ..) ?sub; (case sub => decide))
    | (with_reducible apply onlyTouches.ite)
    | (split)

end Sys2Proof.Machine
end

