-- ==== Sys2Proof/Laws/TouchReset.lean ====
section
/-! SUPPORT. The parts of State that each operation of Machine/Reset.lean changes. -/

namespace Sys2Proof.Machine

theorem State.restartBlocks_touch (s : State) :
    onlyTouches [.adm, .pwr] s (State.restartBlocks s) := by
  unfold State.restartBlocks
  repeat' first
    | (with_reducible apply onlyTouches.refl)
    | (with_reducible show onlyTouches _ _ (State.modAdm ..); refine onlyTouches.trans ?_ (State.modAdm_touch ..) ?sub; (case sub => decide))
    | (with_reducible show onlyTouches _ _ (State.modPwr ..); refine onlyTouches.trans ?_ (State.modPwr_touch ..) ?sub; (case sub => decide))

theorem State.entryRefuse_touch (s : State) (code cause unit : Nat) :
    onlyTouches [.fab, .adm, .pwr] s (State.entryRefuse s code cause unit) := by
  unfold State.entryRefuse
  dsimp only
  repeat' first
    | (with_reducible apply onlyTouches.refl)
    | (with_reducible show onlyTouches _ _ (State.emit ..); refine onlyTouches.trans ?_ (State.emit_touch ..) ?sub; (case sub => decide))
    | (with_reducible show onlyTouches _ _ (State.modPwr ..); refine onlyTouches.trans ?_ (State.modPwr_touch ..) ?sub; (case sub => decide))
    | (with_reducible show onlyTouches _ _ (State.restartBlocks ..); refine onlyTouches.trans ?_ (State.restartBlocks_touch ..) ?sub; (case sub => decide))

theorem State.orphanOff_touch (s : State) (t : Fin 67) :
    onlyTouches [.fab, .hs, .dig, .vg, .vd, .ls, .adm] s (State.orphanOff s t) := by
  unfold State.orphanOff
  repeat' first
    | (with_reducible apply onlyTouches.refl)
    | (with_reducible show onlyTouches _ _ (State.hsOrphanOff ..); refine onlyTouches.trans ?_ (State.hsOrphanOff_touch ..) ?sub; (case sub => decide))
    | (with_reducible show onlyTouches _ _ (State.lsOrphanOff ..); refine onlyTouches.trans ?_ (State.lsOrphanOff_touch ..) ?sub; (case sub => decide))
    | (with_reducible show onlyTouches _ _ (State.vdOrphanOff ..); refine onlyTouches.trans ?_ (State.vdOrphanOff_touch ..) ?sub; (case sub => decide))
    | (with_reducible apply onlyTouches.ite)
    | (with_reducible apply onlyTouches.dite <;> intro h)

theorem State.orphanExpire_touch (s : State) :
    onlyTouches [.fab, .hs, .hsc, .dig, .vg, .vd, .ls, .adm, .inp, .lc, .free] s (State.orphanExpire s) := by
  unfold State.orphanExpire
  dsimp only
  repeat' first
    | (with_reducible apply onlyTouches.refl)
    | (with_reducible show onlyTouches _ _ (State.lcOrphan ..); refine onlyTouches.trans ?_ (State.lcOrphan_touch ..) ?sub; (case sub => decide))
    | (with_reducible show onlyTouches _ _ (State.limpRest ..); refine onlyTouches.trans ?_ (State.limpRest_touch ..) ?sub; (case sub => decide))
    | (with_reducible show onlyTouches _ _ (State.limpSources ..); refine onlyTouches.trans ?_ (State.limpSources_touch ..) ?sub; (case sub => decide))
    | (with_reducible show onlyTouches _ _ (State.modHsc ..); refine onlyTouches.trans ?_ (State.modHsc_touch ..) ?sub; (case sub => decide))
    | (with_reducible show onlyTouches _ _ (State.orphanOff ..); refine onlyTouches.trans ?_ (State.orphanOff_touch ..) ?sub; (case sub => decide))
    | (with_reducible show onlyTouches _ _ (State.slotsOrphan ..); refine onlyTouches.trans ?_ (State.slotsOrphan_touch ..) ?sub; (case sub => decide))
    | (with_reducible show onlyTouches _ _ (forFin ..); refine onlyTouches.forFin ?_ fun i x => ?_)
    | (with_reducible apply onlyTouches.ite)

theorem State.orphanStart_touch (s : State) :
    onlyTouches [.fab, .hs, .hsc, .dig, .vg, .vd, .ls, .adm, .inp, .lc, .free] s (State.orphanStart s) := by
  unfold State.orphanStart
  repeat' first
    | (with_reducible apply onlyTouches.refl)
    | (with_reducible show onlyTouches _ _ (State.modHsc ..); refine onlyTouches.trans ?_ (State.modHsc_touch ..) ?sub; (case sub => decide))
    | (with_reducible show onlyTouches _ _ (State.orphanExpire ..); refine onlyTouches.trans ?_ (State.orphanExpire_touch ..) ?sub; (case sub => decide))
    | (with_reducible apply onlyTouches.ite)

theorem State.orphanDue_touch (s : State) :
    onlyTouches [.tmb, .fab, .hs, .hsc, .dig, .vg, .vd, .ls, .adm, .inp, .pwr, .ecc, .lc, .pmc, .dep, .nv, .free] s (State.orphanDue s) := by
  unfold State.orphanDue
  repeat' first
    | (with_reducible apply onlyTouches.refl)
    | (with_reducible show onlyTouches _ _ (State.advanceTo ..); refine onlyTouches.trans ?_ (State.advanceTo_touch ..) ?sub; (case sub => decide))
    | (with_reducible show onlyTouches _ _ (State.orphanExpire ..); refine onlyTouches.trans ?_ (State.orphanExpire_touch ..) ?sub; (case sub => decide))
    | (with_reducible apply onlyTouches.ite)
    | (split)

theorem State.orphanReclaim_touch (s : State) :
    onlyTouches [.fab, .hs, .hsc, .dig, .vg, .vd, .ls, .adm, .inp, .free] s (State.orphanReclaim s) := by
  unfold State.orphanReclaim
  dsimp only
  repeat' first
    | (with_reducible apply onlyTouches.refl)
    | (with_reducible show onlyTouches _ _ (State.limpSources ..); refine onlyTouches.trans ?_ (State.limpSources_touch ..) ?sub; (case sub => decide))
    | (with_reducible show onlyTouches _ _ (State.modHsc ..); refine onlyTouches.trans ?_ (State.modHsc_touch ..) ?sub; (case sub => decide))
    | (with_reducible show onlyTouches _ _ (State.onlyIf ..); refine onlyTouches.onlyIf ?_ fun x => ?_)

theorem State.coreIslandReset_touch (s : State) (bank : Nat) :
    onlyTouches [.fab, .sys, .que, .core, .pmc, .hp] s (State.coreIslandReset s bank) := by
  unfold State.coreIslandReset
  repeat' first
    | (with_reducible apply onlyTouches.refl)
    | (with_reducible apply onlyTouches.put_fab_sys_que_core_pmc_hp; (case m => decide))

theorem State.cpReset_touch (s : State) (cause : Nat) (wd : Option Nat) :
    onlyTouches [.fab, .hs, .hsc, .dig, .vg, .vd, .ls, .adm, .inp, .pwr, .sup, .sys, .lc, .que, .core, .pmc, .hp, .dep, .free] s (State.cpReset s cause wd) := by
  unfold State.cpReset
  dsimp only
  repeat' first
    | (with_reducible apply onlyTouches.refl)
    | (with_reducible show onlyTouches _ _ (State.coreIslandReset ..); refine onlyTouches.trans ?_ (State.coreIslandReset_touch ..) ?sub; (case sub => decide))
    | (with_reducible show onlyTouches _ _ (State.entryRefuse ..); refine onlyTouches.trans ?_ (State.entryRefuse_touch ..) ?sub; (case sub => decide))
    | (with_reducible show onlyTouches _ _ (State.modDep ..); refine onlyTouches.trans ?_ (State.modDep_touch ..) ?sub; (case sub => decide))
    | (with_reducible show onlyTouches _ _ (State.modPwr ..); refine onlyTouches.trans ?_ (State.modPwr_touch ..) ?sub; (case sub => decide))
    | (with_reducible show onlyTouches _ _ (State.modSup ..); refine onlyTouches.trans ?_ (State.modSup_touch ..) ?sub; (case sub => decide))
    | (with_reducible show onlyTouches _ _ (State.orphanStart ..); refine onlyTouches.trans ?_ (State.orphanStart_touch ..) ?sub; (case sub => decide))
    | (with_reducible show onlyTouches _ _ (State.queRelease ..); refine onlyTouches.trans ?_ (State.queRelease_touch ..) ?sub; (case sub => decide))
    | (with_reducible apply onlyTouches.ite)

theorem State.returnDone_touch (s : State) :
    onlyTouches [.fab, .inp, .pwr] s (State.returnDone s) := by
  unfold State.returnDone
  dsimp only
  repeat' first
    | (with_reducible apply onlyTouches.refl)
    | (with_reducible show onlyTouches _ _ (State.emit ..); refine onlyTouches.trans ?_ (State.emit_touch ..) ?sub; (case sub => decide))
    | (with_reducible show onlyTouches _ _ (State.modInp ..); refine onlyTouches.trans ?_ (State.modInp_touch ..) ?sub; (case sub => decide))
    | (with_reducible show onlyTouches _ _ (State.modPwr ..); refine onlyTouches.trans ?_ (State.modPwr_touch ..) ?sub; (case sub => decide))
    | (with_reducible show onlyTouches _ _ (State.onlyIf ..); refine onlyTouches.onlyIf ?_ fun x => ?_)

theorem State.depLimp_touch (s : State) (on : Bool) :
    onlyTouches [.fab, .hs, .dig, .vg, .vd, .ls, .adm, .inp, .free] s (State.depLimp s on) := by
  unfold State.depLimp
  repeat' first
    | (with_reducible apply onlyTouches.refl)
    | (with_reducible show onlyTouches _ _ (State.emit ..); refine onlyTouches.trans ?_ (State.emit_touch ..) ?sub; (case sub => decide))
    | (with_reducible show onlyTouches _ _ (State.limpSources ..); refine onlyTouches.trans ?_ (State.limpSources_touch ..) ?sub; (case sub => decide))
    | (with_reducible apply onlyTouches.ite)

theorem State.bootCheck_touch (s : State) (ms : Nat) :
    onlyTouches [.tmb, .fab, .hs, .dig, .vg, .vd, .ls, .adm, .inp, .pwr, .sup, .sys, .mem, .ecc, .core, .pmc, .plk, .dep, .nv, .free] s (State.bootCheck s ms) := by
  unfold State.bootCheck
  dsimp only
  repeat' first
    | (with_reducible apply onlyTouches.refl)
    | (with_reducible show onlyTouches _ _ (State.advanceTo ..); refine onlyTouches.trans ?_ (State.advanceTo_touch ..) ?sub; (case sub => decide))
    | (with_reducible show onlyTouches _ _ (State.depLimp ..); refine onlyTouches.trans ?_ (State.depLimp_touch ..) ?sub; (case sub => decide))
    | (with_reducible show onlyTouches _ _ (State.modDep ..); refine onlyTouches.trans ?_ (State.modDep_touch ..) ?sub; (case sub => decide))
    | (with_reducible show onlyTouches _ _ (State.modNv ..); refine onlyTouches.trans ?_ (State.modNv_touch ..) ?sub; (case sub => decide))
    | (with_reducible show onlyTouches _ _ (State.modSup ..); refine onlyTouches.trans ?_ (State.modSup_touch ..) ?sub; (case sub => decide))
    | (with_reducible show onlyTouches _ _ (State.modSys ..); refine onlyTouches.trans ?_ (State.modSys_touch ..) ?sub; (case sub => decide))
    | (with_reducible show onlyTouches _ _ (State.plkRelease ..); refine onlyTouches.trans ?_ (State.plkRelease_touch ..) ?sub; (case sub => decide))
    | (with_reducible show onlyTouches _ _ (State.returnDone ..); refine onlyTouches.trans ?_ (State.returnDone_touch ..) ?sub; (case sub => decide))
    | (with_reducible show onlyTouches _ _ (State.onlyIf ..); refine onlyTouches.onlyIf ?_ fun x => ?_)
    | (with_reducible apply onlyTouches.ite)
    | (split)
    | (with_reducible apply onlyTouches.put_core; (case m => decide))

end Sys2Proof.Machine
end

