-- ==== Sys2Proof/Laws/TouchDeputy.lean ====
section
/-! SUPPORT. The parts of State that each operation of Machine/Deputy.lean changes. -/

namespace Sys2Proof.Machine

theorem State.rollback_touch (s : State) (cause : Nat) :
    onlyTouches [.fab, .dep, .nv] s (State.rollback s cause) := by
  unfold State.rollback
  dsimp only
  repeat' first
    | (with_reducible apply onlyTouches.refl)
    | (with_reducible show onlyTouches _ _ (State.emit ..); refine onlyTouches.trans ?_ (State.emit_touch ..) ?sub; (case sub => decide))
    | (with_reducible show onlyTouches _ _ (State.logOwn ..); refine onlyTouches.trans ?_ (State.logOwn_touch ..) ?sub; (case sub => decide))
    | (with_reducible show onlyTouches _ _ (State.modDep ..); refine onlyTouches.trans ?_ (State.modDep_touch ..) ?sub; (case sub => decide))
    | (with_reducible show onlyTouches _ _ (State.modNv ..); refine onlyTouches.trans ?_ (State.modNv_touch ..) ?sub; (case sub => decide))

theorem State.wdReset_touch (s : State) (cause : Nat) :
    onlyTouches [.fab, .hs, .hsc, .dig, .vg, .vd, .ls, .adm, .inp, .pwr, .sup, .sys, .lc, .que, .core, .pmc, .hp, .dep, .nv, .free] s (State.wdReset s cause) := by
  unfold State.wdReset
  dsimp only
  repeat' first
    | (with_reducible apply onlyTouches.refl)
    | (with_reducible show onlyTouches _ _ (State.cpReset ..); refine onlyTouches.trans ?_ (State.cpReset_touch ..) ?sub; (case sub => decide))
    | (with_reducible show onlyTouches _ _ (State.depLimp ..); refine onlyTouches.trans ?_ (State.depLimp_touch ..) ?sub; (case sub => decide))
    | (with_reducible show onlyTouches _ _ (State.emit ..); refine onlyTouches.trans ?_ (State.emit_touch ..) ?sub; (case sub => decide))
    | (with_reducible show onlyTouches _ _ (State.logOwn ..); refine onlyTouches.trans ?_ (State.logOwn_touch ..) ?sub; (case sub => decide))
    | (with_reducible show onlyTouches _ _ (State.modDep ..); refine onlyTouches.trans ?_ (State.modDep_touch ..) ?sub; (case sub => decide))
    | (with_reducible show onlyTouches _ _ (State.rollback ..); refine onlyTouches.trans ?_ (State.rollback_touch ..) ?sub; (case sub => decide))
    | (with_reducible show onlyTouches _ _ (State.onlyIf ..); refine onlyTouches.onlyIf ?_ fun x => ?_)
    | (with_reducible apply onlyTouches.ite)

theorem State.wdKick_touch (s : State) (c : Fin 4) (key : Nat) :
    onlyTouches [.fab, .hs, .hsc, .dig, .vg, .vd, .ls, .adm, .inp, .pwr, .sup, .sys, .lc, .que, .core, .pmc, .hp, .dep, .nv, .free] s (State.wdKick s c key) := by
  unfold State.wdKick
  dsimp only
  repeat' first
    | (with_reducible apply onlyTouches.refl)
    | (with_reducible show onlyTouches _ _ (State.modDep ..); refine onlyTouches.trans ?_ (State.modDep_touch ..) ?sub; (case sub => decide))
    | (with_reducible show onlyTouches _ _ (State.wdReset ..); refine onlyTouches.trans ?_ (State.wdReset_touch ..) ?sub; (case sub => decide))
    | (with_reducible apply onlyTouches.ite)
    | (split)

theorem State.wdExpire_touch (s : State) :
    onlyTouches [.tmb, .fab, .hs, .hsc, .dig, .vg, .vd, .ls, .adm, .inp, .pwr, .sup, .sys, .ecc, .lc, .que, .core, .pmc, .hp, .dep, .nv, .free] s (State.wdExpire s) := by
  unfold State.wdExpire
  repeat' first
    | (with_reducible apply onlyTouches.refl)
    | (with_reducible show onlyTouches _ _ (State.advanceTo ..); refine onlyTouches.trans ?_ (State.advanceTo_touch ..) ?sub; (case sub => decide))
    | (with_reducible show onlyTouches _ _ (State.wdReset ..); refine onlyTouches.trans ?_ (State.wdReset_touch ..) ?sub; (case sub => decide))
    | (with_reducible apply onlyTouches.ite)
    | (split)

theorem State.wdWarn_touch (s : State) :
    onlyTouches [.tmb, .fab, .pwr, .ecc, .pmc, .dep, .nv, .free] s (State.wdWarn s) := by
  unfold State.wdWarn
  dsimp only
  repeat' first
    | (with_reducible apply onlyTouches.refl)
    | (with_reducible show onlyTouches _ _ (State.advanceTo ..); refine onlyTouches.trans ?_ (State.advanceTo_touch ..) ?sub; (case sub => decide))
    | (with_reducible show onlyTouches _ _ (State.emit ..); refine onlyTouches.trans ?_ (State.emit_touch ..) ?sub; (case sub => decide))
    | (with_reducible show onlyTouches _ _ (State.modDep ..); refine onlyTouches.trans ?_ (State.modDep_touch ..) ?sub; (case sub => decide))
    | (with_reducible apply onlyTouches.ite)
    | (split)

theorem State.wdHoldEnd_touch (s : State) :
    onlyTouches [.tmb, .fab, .pwr, .ecc, .pmc, .dep, .nv, .free] s (State.wdHoldEnd s) := by
  unfold State.wdHoldEnd
  repeat' first
    | (with_reducible apply onlyTouches.refl)
    | (with_reducible show onlyTouches _ _ (State.advanceTo ..); refine onlyTouches.trans ?_ (State.advanceTo_touch ..) ?sub; (case sub => decide))
    | (with_reducible show onlyTouches _ _ (State.modDep ..); refine onlyTouches.trans ?_ (State.modDep_touch ..) ?sub; (case sub => decide))
    | (with_reducible apply onlyTouches.ite)
    | (split)

theorem State.wdCfgWrite_touch (s : State) (v : W32) :
    onlyTouches [.dep] s (State.wdCfgWrite s v) := by
  unfold State.wdCfgWrite
  repeat' first
    | (with_reducible apply onlyTouches.refl)
    | (with_reducible show onlyTouches _ _ (State.modDep ..); refine onlyTouches.trans ?_ (State.modDep_touch ..) ?sub; (case sub => decide))
    | (with_reducible apply onlyTouches.ite)

theorem State.trialTimeout_touch (s : State) :
    onlyTouches [.tmb, .fab, .hs, .hsc, .dig, .vg, .vd, .ls, .adm, .inp, .pwr, .sup, .sys, .ecc, .lc, .que, .core, .pmc, .hp, .dep, .nv, .free] s (State.trialTimeout s) := by
  unfold State.trialTimeout
  dsimp only
  repeat' first
    | (with_reducible apply onlyTouches.refl)
    | (with_reducible show onlyTouches _ _ (State.advanceTo ..); refine onlyTouches.trans ?_ (State.advanceTo_touch ..) ?sub; (case sub => decide))
    | (with_reducible show onlyTouches _ _ (State.cpReset ..); refine onlyTouches.trans ?_ (State.cpReset_touch ..) ?sub; (case sub => decide))
    | (with_reducible show onlyTouches _ _ (State.rollback ..); refine onlyTouches.trans ?_ (State.rollback_touch ..) ?sub; (case sub => decide))
    | (with_reducible apply onlyTouches.ite)
    | (split)

theorem State.mgmtReset_touch (s : State) :
    onlyTouches [.fab, .depCore, .dep, .nv] s (State.mgmtReset s) := by
  unfold State.mgmtReset
  dsimp only
  repeat' first
    | (with_reducible apply onlyTouches.refl)
    | (with_reducible show onlyTouches _ _ (State.emit ..); refine onlyTouches.trans ?_ (State.emit_touch ..) ?sub; (case sub => decide))
    | (with_reducible show onlyTouches _ _ (State.logOwn ..); refine onlyTouches.trans ?_ (State.logOwn_touch ..) ?sub; (case sub => decide))
    | (with_reducible show onlyTouches _ _ (State.modDep ..); refine onlyTouches.trans ?_ (State.modDep_touch ..) ?sub; (case sub => decide))
    | (with_reducible apply onlyTouches.ite)
    | (split)
    | (with_reducible apply onlyTouches.put_depCore; (case m => decide))

theorem State.sensAlarm_touch (s : State) (kind idx : Nat) (on : Bool) :
    onlyTouches [.fab, .dep, .nv] s (State.sensAlarm s kind idx on) := by
  unfold State.sensAlarm
  dsimp only
  repeat' first
    | (with_reducible apply onlyTouches.refl)
    | (with_reducible show onlyTouches _ _ (State.emit ..); refine onlyTouches.trans ?_ (State.emit_touch ..) ?sub; (case sub => decide))
    | (with_reducible show onlyTouches _ _ (State.logOwn ..); refine onlyTouches.trans ?_ (State.logOwn_touch ..) ?sub; (case sub => decide))

theorem State.tempSample_touch (s : State) (i : Fin 16) (t : Int) :
    onlyTouches [.fab, .dep, .nv] s (State.tempSample s i t) := by
  unfold State.tempSample
  dsimp only
  repeat' first
    | (with_reducible apply onlyTouches.refl)
    | (with_reducible show onlyTouches _ _ (State.modDep ..); refine onlyTouches.trans ?_ (State.modDep_touch ..) ?sub; (case sub => decide))
    | (with_reducible show onlyTouches _ _ (State.modNv ..); refine onlyTouches.trans ?_ (State.modNv_touch ..) ?sub; (case sub => decide))
    | (with_reducible show onlyTouches _ _ (State.sensAlarm ..); refine onlyTouches.trans ?_ (State.sensAlarm_touch ..) ?sub; (case sub => decide))
    | (with_reducible show onlyTouches _ _ (State.onlyIf ..); refine onlyTouches.onlyIf ?_ fun x => ?_)
    | (with_reducible apply onlyTouches.ite)

theorem State.alarmBit_touch (s : State) (kind idx : Nat) (get : Dep → Nat) (put : Dep → Nat → Dep) (out back : Bool) :
    onlyTouches [.fab, .dep, .nv] s (State.alarmBit s kind idx get put out back) := by
  unfold State.alarmBit
  dsimp only
  repeat' first
    | (with_reducible apply onlyTouches.refl)
    | (with_reducible show onlyTouches _ _ (State.modDep ..); refine onlyTouches.trans ?_ (State.modDep_touch ..) ?sub; (case sub => decide))
    | (with_reducible show onlyTouches _ _ (State.sensAlarm ..); refine onlyTouches.trans ?_ (State.sensAlarm_touch ..) ?sub; (case sub => decide))
    | (with_reducible show onlyTouches _ _ (State.onlyIf ..); refine onlyTouches.onlyIf ?_ fun x => ?_)

theorem State.mainsSample_touch (s : State) (v f : Nat) (dc : Bool) :
    onlyTouches [.fab, .dep, .nv] s (State.mainsSample s v f dc) := by
  unfold State.mainsSample
  dsimp only
  repeat' first
    | (with_reducible apply onlyTouches.refl)
    | (with_reducible show onlyTouches _ _ (State.alarmBit ..); refine onlyTouches.trans ?_ (State.alarmBit_touch ..) ?sub; (case sub => decide))
    | (with_reducible show onlyTouches _ _ (State.modDep ..); refine onlyTouches.trans ?_ (State.modDep_touch ..) ?sub; (case sub => decide))

theorem State.railSample_touch (s : State) (i : Fin 3) (mv : Nat) :
    onlyTouches [.fab, .dep, .nv] s (State.railSample s i mv) := by
  unfold State.railSample
  dsimp only
  repeat' first
    | (with_reducible apply onlyTouches.refl)
    | (with_reducible show onlyTouches _ _ (State.alarmBit ..); refine onlyTouches.trans ?_ (State.alarmBit_touch ..) ?sub; (case sub => decide))
    | (with_reducible show onlyTouches _ _ (State.modDep ..); refine onlyTouches.trans ?_ (State.modDep_touch ..) ?sub; (case sub => decide))

theorem State.isoMeasure_touch (s : State) (r : Nat) :
    onlyTouches [.fab, .dep, .nv] s (State.isoMeasure s r) := by
  unfold State.isoMeasure
  dsimp only
  repeat' first
    | (with_reducible apply onlyTouches.refl)
    | (with_reducible show onlyTouches _ _ (State.emit ..); refine onlyTouches.trans ?_ (State.emit_touch ..) ?sub; (case sub => decide))
    | (with_reducible show onlyTouches _ _ (State.logOwn ..); refine onlyTouches.trans ?_ (State.logOwn_touch ..) ?sub; (case sub => decide))
    | (with_reducible show onlyTouches _ _ (State.modDep ..); refine onlyTouches.trans ?_ (State.modDep_touch ..) ?sub; (case sub => decide))
    | (with_reducible show onlyTouches _ _ (State.onlyIf ..); refine onlyTouches.onlyIf ?_ fun x => ?_)
    | (with_reducible apply onlyTouches.ite)

theorem State.logData_touch (s : State) (src : Nat) :
    onlyTouches [.free] s (State.logData s src).2 := by
  unfold State.logData
  dsimp only
  repeat' first
    | (with_reducible apply onlyTouches.refl)
    | (with_reducible show onlyTouches _ _ (State.draw ..).2; refine onlyTouches.trans ?_ (State.draw_touch ..) ?sub; (case sub => decide))
    | (split)

theorem State.depRecord_touch (s : State) (e : EvRec) :
    onlyTouches [.fab, .hs, .hsc, .dig, .vg, .vd, .ls, .adm, .inp, .pwr, .sup, .sys, .lc, .que, .core, .pmc, .hp, .dep, .nv, .free] s (State.depRecord s e) := by
  unfold State.depRecord
  dsimp only
  repeat' first
    | (with_reducible apply onlyTouches.refl)
    | (with_reducible show onlyTouches _ _ (State.cpReset ..); refine onlyTouches.trans ?_ (State.cpReset_touch ..) ?sub; (case sub => decide))
    | (with_reducible show onlyTouches _ _ (State.logAdd ..); refine onlyTouches.trans ?_ (State.logAdd_touch ..) ?sub; (case sub => decide))
    | (with_reducible show onlyTouches _ _ (State.logData ..).2; refine onlyTouches.trans ?_ (State.logData_touch ..) ?sub; (case sub => decide))
    | (with_reducible show onlyTouches _ _ (State.rollback ..); refine onlyTouches.trans ?_ (State.rollback_touch ..) ?sub; (case sub => decide))
    | (with_reducible show onlyTouches _ _ (State.wdReset ..); refine onlyTouches.trans ?_ (State.wdReset_touch ..) ?sub; (case sub => decide))
    | (with_reducible apply onlyTouches.ite)

theorem State.depEvent_touch (s : State) (i : Nat) :
    onlyTouches [.fab, .hs, .hsc, .dig, .vg, .vd, .ls, .adm, .inp, .pwr, .sup, .sys, .lc, .que, .core, .pmc, .hp, .dep, .nv, .free] s (State.depEvent s i) := by
  unfold State.depEvent
  dsimp only
  repeat' first
    | (with_reducible apply onlyTouches.refl)
    | (with_reducible show onlyTouches _ _ (State.depRecord ..); refine onlyTouches.trans ?_ (State.depRecord_touch ..) ?sub; (case sub => decide))
    | (with_reducible show onlyTouches _ _ (State.pull ..); refine onlyTouches.trans ?_ (State.pull_touch ..) ?sub; (case sub => decide))
    | (with_reducible apply onlyTouches.ite)
    | (split)
    | (with_reducible apply onlyTouches.put_fab; (case m => decide))

theorem State.logFlash_touch (s : State) :
    onlyTouches [.fab, .dep, .nv] s (State.logFlash s) := by
  unfold State.logFlash
  dsimp only
  repeat' first
    | (with_reducible apply onlyTouches.refl)
    | (with_reducible show onlyTouches _ _ (State.emit ..); refine onlyTouches.trans ?_ (State.emit_touch ..) ?sub; (case sub => decide))
    | (with_reducible show onlyTouches _ _ (State.modDep ..); refine onlyTouches.trans ?_ (State.modDep_touch ..) ?sub; (case sub => decide))
    | (with_reducible show onlyTouches _ _ (State.modNv ..); refine onlyTouches.trans ?_ (State.modNv_touch ..) ?sub; (case sub => decide))
    | (with_reducible apply onlyTouches.ite)
    | (split)

theorem State.lifeSnapshot_touch (s : State) :
    onlyTouches [.dep, .nv] s (State.lifeSnapshot s) := by
  unfold State.lifeSnapshot
  dsimp only
  repeat' first
    | (with_reducible apply onlyTouches.refl)
    | (with_reducible show onlyTouches _ _ (State.modDep ..); refine onlyTouches.trans ?_ (State.modDep_touch ..) ?sub; (case sub => decide))
    | (with_reducible show onlyTouches _ _ (State.modNv ..); refine onlyTouches.trans ?_ (State.modNv_touch ..) ?sub; (case sub => decide))
    | (with_reducible apply onlyTouches.ite)

theorem State.lifeTj_touch (s : State) :
    onlyTouches [.nv] s (State.lifeTj s) := by
  unfold State.lifeTj
  dsimp only
  repeat' first
    | (with_reducible apply onlyTouches.refl)
    | (with_reducible show onlyTouches _ _ (State.modNv ..); refine onlyTouches.trans ?_ (State.modNv_touch ..) ?sub; (case sub => decide))
    | (with_reducible apply onlyTouches.ite)

theorem State.lifeWarn_touch (s : State) (t l : Nat) :
    onlyTouches [.fab, .dep, .nv] s (State.lifeWarn s t l) := by
  unfold State.lifeWarn
  dsimp only
  repeat' first
    | (with_reducible apply onlyTouches.refl)
    | (with_reducible show onlyTouches _ _ (State.emit ..); refine onlyTouches.trans ?_ (State.emit_touch ..) ?sub; (case sub => decide))
    | (with_reducible show onlyTouches _ _ (State.logOwn ..); refine onlyTouches.trans ?_ (State.logOwn_touch ..) ?sub; (case sub => decide))

theorem State.lifeRecompute_touch (s : State) :
    onlyTouches [.fab, .dep, .nv] s (State.lifeRecompute s) := by
  unfold State.lifeRecompute
  dsimp only
  repeat' first
    | (with_reducible apply onlyTouches.refl)
    | (with_reducible show onlyTouches _ _ (State.lifeWarn ..); refine onlyTouches.trans ?_ (State.lifeWarn_touch ..) ?sub; (case sub => decide))
    | (with_reducible show onlyTouches _ _ (State.modNv ..); refine onlyTouches.trans ?_ (State.modNv_touch ..) ?sub; (case sub => decide))
    | (with_reducible show onlyTouches _ _ (State.onlyIf ..); refine onlyTouches.onlyIf ?_ fun x => ?_)
    | (with_reducible show onlyTouches _ _ (forFin ..); refine onlyTouches.forFin ?_ fun i x => ?_)
    | (with_reducible apply onlyTouches.ite)

end Sys2Proof.Machine
end

