-- ==== Sys2Proof/Laws/TouchMailbox.lean ====
section
/-! SUPPORT. The parts of State that each operation of Machine/Mailbox.lean changes. -/

namespace Sys2Proof.Machine

theorem State.slotWrite_touch (s : State) (i : Fin 64) (f : Vector W32 8 → Vector W32 8) :
    onlyTouches [.dep] s (State.slotWrite s i f) := by
  unfold State.slotWrite
  repeat' first
    | (with_reducible apply onlyTouches.refl)
    | (with_reducible show onlyTouches _ _ (State.modDep ..); refine onlyTouches.trans ?_ (State.modDep_touch ..) ?sub; (case sub => decide))

theorem State.mbxRes_touch (s : State) (r : Nat) :
    onlyTouches [.dep] s (State.mbxRes s r) := by
  unfold State.mbxRes
  repeat' first
    | (with_reducible apply onlyTouches.refl)
    | (with_reducible show onlyTouches _ _ (State.modDep ..); refine onlyTouches.trans ?_ (State.modDep_touch ..) ?sub; (case sub => decide))

theorem State.mbxSlotStore_touch (s : State) (i : Fin 64) (w : Nat) (v : W32) :
    onlyTouches [.fab, .pmc, .dep] s (State.mbxSlotStore s i w v) := by
  unfold State.mbxSlotStore
  dsimp only
  repeat' first
    | (with_reducible apply onlyTouches.refl)
    | (with_reducible show onlyTouches _ _ (State.fabCount ..); refine onlyTouches.trans ?_ (State.fabCount_touch ..) ?sub; (case sub => decide))
    | (with_reducible show onlyTouches _ _ (State.mbxRes ..); refine onlyTouches.trans ?_ (State.mbxRes_touch ..) ?sub; (case sub => decide))
    | (with_reducible show onlyTouches _ _ (State.slotWrite ..); refine onlyTouches.trans ?_ (State.slotWrite_touch ..) ?sub; (case sub => decide))
    | (with_reducible apply onlyTouches.ite)

theorem State.mbxPost_touch (s : State) (c : Fin 4) (slot : Fin 32) :
    onlyTouches [.dep] s (State.mbxPost s c slot) := by
  unfold State.mbxPost
  dsimp only
  repeat' first
    | (with_reducible apply onlyTouches.refl)
    | (with_reducible show onlyTouches _ _ (State.mbxRes ..); refine onlyTouches.trans ?_ (State.mbxRes_touch ..) ?sub; (case sub => decide))
    | (with_reducible show onlyTouches _ _ (State.modDep ..); refine onlyTouches.trans ?_ (State.modDep_touch ..) ?sub; (case sub => decide))
    | (with_reducible show onlyTouches _ _ (State.slotWrite ..); refine onlyTouches.trans ?_ (State.slotWrite_touch ..) ?sub; (case sub => decide))
    | (with_reducible apply onlyTouches.ite)

theorem State.rspFill_touch (n : Nat) (s : State) : onlyTouches [.fab, .pwr, .dep] s (State.rspFill n s) := by
  induction n generalizing s with
  | zero => exact onlyTouches.refl _ _
  | succ n ih =>
    unfold State.rspFill
    dsimp only
    split
    · exact onlyTouches.refl _ _
    · split
      · exact onlyTouches.refl _ _
      · refine onlyTouches.step ?_ (ih _)
        refine (onlyTouches.trans ?_ (State.wakeReq_touch ..) (by decide))
        refine (onlyTouches.trans ?_ (State.emit_touch ..) (by decide))
        refine (onlyTouches.trans ?_ (State.modDep_touch ..) (by decide))
        exact (State.slotWrite_touch ..).mono (by decide)

theorem State.rspAck_touch (s : State) (slot : Nat) :
    onlyTouches [.fab, .pwr, .dep] s (State.rspAck s slot) := by
  unfold State.rspAck
  repeat' first
    | (with_reducible apply onlyTouches.refl)
    | (with_reducible show onlyTouches _ _ (State.modDep ..); refine onlyTouches.trans ?_ (State.modDep_touch ..) ?sub; (case sub => decide))
    | (with_reducible show onlyTouches _ _ (State.rspFill ..); refine onlyTouches.trans ?_ (State.rspFill_touch ..) ?sub; (case sub => decide))
    | (with_reducible apply onlyTouches.ite)

theorem State.mbxAnswer_touch (s : State) (hdr : W32) (status : Nat) (ws : List W32) :
    onlyTouches [.fab, .pwr, .dep] s (State.mbxAnswer s hdr status ws) := by
  unfold State.mbxAnswer
  dsimp only
  repeat' first
    | (with_reducible apply onlyTouches.refl)
    | (with_reducible show onlyTouches _ _ (State.modDep ..); refine onlyTouches.trans ?_ (State.modDep_touch ..) ?sub; (case sub => decide))
    | (with_reducible show onlyTouches _ _ (State.rspFill ..); refine onlyTouches.trans ?_ (State.rspFill_touch ..) ?sub; (case sub => decide))

theorem State.mbxAnswerFree_touch (s : State) (hdr : W32) :
    onlyTouches [.fab, .pwr, .dep, .free] s (State.mbxAnswerFree s hdr) := by
  unfold State.mbxAnswerFree
  dsimp only
  repeat' first
    | (with_reducible apply onlyTouches.refl)
    | (with_reducible show onlyTouches _ _ (State.draw ..).2; refine onlyTouches.trans ?_ (State.draw_touch ..) ?sub; (case sub => decide))
    | (with_reducible show onlyTouches _ _ (State.mbxAnswer ..); refine onlyTouches.trans ?_ (State.mbxAnswer_touch ..) ?sub; (case sub => decide))

theorem State.mbxPop_touch (s : State) (i : Fin 32) (rest : List (Fin 32)) :
    onlyTouches [.dep] s (State.mbxPop s i rest) := by
  unfold State.mbxPop
  repeat' first
    | (with_reducible apply onlyTouches.refl)
    | (with_reducible show onlyTouches _ _ (State.modDep ..); refine onlyTouches.trans ?_ (State.modDep_touch ..) ?sub; (case sub => decide))

theorem State.mbxSkipBad_touch (n : Nat) (s : State) : onlyTouches [.fab, .pwr, .dep] s (State.mbxSkipBad n s) := by
  induction n generalizing s with
  | zero => exact onlyTouches.refl _ _
  | succ n ih =>
    unfold State.mbxSkipBad
    dsimp only
    split
    · exact onlyTouches.refl _ _
    · split
      · refine onlyTouches.step ?_ (ih _)
        exact ((State.mbxPop_touch ..).mono (by decide)).step ((State.mbxAnswer_touch ..).mono (by decide))
      · exact onlyTouches.refl _ _

theorem State.mbxTake_touch {ps : List Part} (s : State) (op : Nat) (f : W32 → List W32 → Nat → State → State)
    (hf : ∀ a b c x, onlyTouches ps x (f a b c x)) (ha : ∀ q ∈ [.fab, .pwr, .dep], q ∈ ps) :
    onlyTouches ps s (s.mbxTake op f) := by
  have h := (State.mbxSkipBad_touch 32 s).mono ha
  unfold State.mbxTake
  dsimp only
  split
  · split
    · exact h
    · split
      · exact (h.trans (State.mbxPop_touch ..) fun q hq => ha q ((by decide : ∀ q ∈ _, q ∈ _) q hq)).step (hf _ _ _ _)
      · exact h
  · exact onlyTouches.refl _ _

theorem State.opCheckIn_touch (s : State) :
    onlyTouches [.fab, .pwr, .dep, .nv, .free] s (State.opCheckIn s) := by
  unfold State.opCheckIn
  dsimp only
  repeat' first
    | (with_reducible apply onlyTouches.refl)
    | (with_reducible show onlyTouches _ _ (State.mbxAnswer ..); refine onlyTouches.trans ?_ (State.mbxAnswer_touch ..) ?sub; (case sub => decide))
    | (with_reducible show onlyTouches _ _ (State.mbxAnswerFree ..); refine onlyTouches.trans ?_ (State.mbxAnswerFree_touch ..) ?sub; (case sub => decide))
    | (with_reducible show onlyTouches _ _ (State.mbxTake ..); refine State.mbxTake_touch _ _ _ (fun _ _ _ x => ?_) ?sub; (case sub => decide))
    | (with_reducible show onlyTouches _ _ (State.modDep ..); refine onlyTouches.trans ?_ (State.modDep_touch ..) ?sub; (case sub => decide))
    | (with_reducible show onlyTouches _ _ (State.modNv ..); refine onlyTouches.trans ?_ (State.modNv_touch ..) ?sub; (case sub => decide))
    | (with_reducible apply onlyTouches.ite)
    | (split)

theorem State.opLimpSet_touch (s : State) :
    onlyTouches [.fab, .hs, .dig, .vg, .vd, .ls, .adm, .inp, .pwr, .dep, .free] s (State.opLimpSet s) := by
  unfold State.opLimpSet
  repeat' first
    | (with_reducible apply onlyTouches.refl)
    | (with_reducible show onlyTouches _ _ (State.depLimp ..); refine onlyTouches.trans ?_ (State.depLimp_touch ..) ?sub; (case sub => decide))
    | (with_reducible show onlyTouches _ _ (State.mbxAnswer ..); refine onlyTouches.trans ?_ (State.mbxAnswer_touch ..) ?sub; (case sub => decide))
    | (with_reducible show onlyTouches _ _ (State.mbxTake ..); refine State.mbxTake_touch _ _ _ (fun _ _ _ x => ?_) ?sub; (case sub => decide))

theorem State.opLimpRelease_touch (s : State) :
    onlyTouches [.fab, .hs, .dig, .vg, .vd, .ls, .adm, .inp, .pwr, .dep, .free] s (State.opLimpRelease s) := by
  unfold State.opLimpRelease
  repeat' first
    | (with_reducible apply onlyTouches.refl)
    | (with_reducible show onlyTouches _ _ (State.depLimp ..); refine onlyTouches.trans ?_ (State.depLimp_touch ..) ?sub; (case sub => decide))
    | (with_reducible show onlyTouches _ _ (State.mbxAnswer ..); refine onlyTouches.trans ?_ (State.mbxAnswer_touch ..) ?sub; (case sub => decide))
    | (with_reducible show onlyTouches _ _ (State.mbxTake ..); refine State.mbxTake_touch _ _ _ (fun _ _ _ x => ?_) ?sub; (case sub => decide))

theorem State.opLogWrite_touch (s : State) :
    onlyTouches [.fab, .pwr, .dep, .nv] s (State.opLogWrite s) := by
  unfold State.opLogWrite
  repeat' first
    | (with_reducible apply onlyTouches.refl)
    | (with_reducible show onlyTouches _ _ (State.logAdd ..); refine onlyTouches.trans ?_ (State.logAdd_touch ..) ?sub; (case sub => decide))
    | (with_reducible show onlyTouches _ _ (State.mbxAnswer ..); refine onlyTouches.trans ?_ (State.mbxAnswer_touch ..) ?sub; (case sub => decide))
    | (with_reducible show onlyTouches _ _ (State.mbxTake ..); refine State.mbxTake_touch _ _ _ (fun _ _ _ x => ?_) ?sub; (case sub => decide))

theorem State.logAnswer_touch (s : State) (hdr : W32) (seq : Nat) :
    onlyTouches [.fab, .pwr, .dep, .free] s (State.logAnswer s hdr seq) := by
  unfold State.logAnswer
  repeat' first
    | (with_reducible apply onlyTouches.refl)
    | (with_reducible show onlyTouches _ _ (State.mbxAnswer ..); refine onlyTouches.trans ?_ (State.mbxAnswer_touch ..) ?sub; (case sub => decide))
    | (with_reducible show onlyTouches _ _ (State.mbxAnswerFree ..); refine onlyTouches.trans ?_ (State.mbxAnswerFree_touch ..) ?sub; (case sub => decide))
    | (with_reducible apply onlyTouches.ite)
    | (split)

theorem State.opLogRead_touch (s : State) :
    onlyTouches [.fab, .pwr, .dep, .free] s (State.opLogRead s) := by
  unfold State.opLogRead
  dsimp only
  repeat' first
    | (with_reducible apply onlyTouches.refl)
    | (with_reducible show onlyTouches _ _ (State.logAnswer ..); refine onlyTouches.trans ?_ (State.logAnswer_touch ..) ?sub; (case sub => decide))
    | (with_reducible show onlyTouches _ _ (State.mbxAnswer ..); refine onlyTouches.trans ?_ (State.mbxAnswer_touch ..) ?sub; (case sub => decide))
    | (with_reducible show onlyTouches _ _ (State.mbxTake ..); refine State.mbxTake_touch _ _ _ (fun _ _ _ x => ?_) ?sub; (case sub => decide))
    | (with_reducible show onlyTouches _ _ (List.foldl ..); refine onlyTouches.foldl (fun x a => ?_) _ ?_)
    | (with_reducible apply onlyTouches.ite)

theorem State.opLogFilter_touch (s : State) :
    onlyTouches [.fab, .pwr, .dep, .free] s (State.opLogFilter s) := by
  unfold State.opLogFilter
  dsimp only
  repeat' first
    | (with_reducible apply onlyTouches.refl)
    | (with_reducible show onlyTouches _ _ (State.mbxAnswer ..); refine onlyTouches.trans ?_ (State.mbxAnswer_touch ..) ?sub; (case sub => decide))
    | (with_reducible show onlyTouches _ _ (State.mbxAnswerFree ..); refine onlyTouches.trans ?_ (State.mbxAnswerFree_touch ..) ?sub; (case sub => decide))
    | (with_reducible show onlyTouches _ _ (State.mbxTake ..); refine State.mbxTake_touch _ _ _ (fun _ _ _ x => ?_) ?sub; (case sub => decide))
    | (with_reducible show onlyTouches _ _ (State.modDep ..); refine onlyTouches.trans ?_ (State.modDep_touch ..) ?sub; (case sub => decide))
    | (with_reducible apply onlyTouches.ite)

theorem State.opLifeRead_touch (s : State) :
    onlyTouches [.fab, .pwr, .dep, .free] s (State.opLifeRead s) := by
  unfold State.opLifeRead
  dsimp only
  repeat' first
    | (with_reducible apply onlyTouches.refl)
    | (with_reducible show onlyTouches _ _ (State.draw ..).2; refine onlyTouches.trans ?_ (State.draw_touch ..) ?sub; (case sub => decide))
    | (with_reducible show onlyTouches _ _ (State.mbxAnswer ..); refine onlyTouches.trans ?_ (State.mbxAnswer_touch ..) ?sub; (case sub => decide))
    | (with_reducible show onlyTouches _ _ (State.mbxTake ..); refine State.mbxTake_touch _ _ _ (fun _ _ _ x => ?_) ?sub; (case sub => decide))
    | (with_reducible apply onlyTouches.ite)
    | (with_reducible apply onlyTouches.dite <;> intro h)

theorem State.opTrendRead_touch (s : State) :
    onlyTouches [.fab, .pwr, .dep] s (State.opTrendRead s) := by
  unfold State.opTrendRead
  dsimp only
  repeat' first
    | (with_reducible apply onlyTouches.refl)
    | (with_reducible show onlyTouches _ _ (State.mbxAnswer ..); refine onlyTouches.trans ?_ (State.mbxAnswer_touch ..) ?sub; (case sub => decide))
    | (with_reducible show onlyTouches _ _ (State.mbxTake ..); refine State.mbxTake_touch _ _ _ (fun _ _ _ x => ?_) ?sub; (case sub => decide))
    | (with_reducible apply onlyTouches.ite)
    | (with_reducible apply onlyTouches.dite <;> intro h)

theorem State.opTempLimit_touch (s : State) :
    onlyTouches [.fab, .pwr, .dep, .nv] s (State.opTempLimit s) := by
  unfold State.opTempLimit
  dsimp only
  repeat' first
    | (with_reducible apply onlyTouches.refl)
    | (with_reducible show onlyTouches _ _ (State.mbxAnswer ..); refine onlyTouches.trans ?_ (State.mbxAnswer_touch ..) ?sub; (case sub => decide))
    | (with_reducible show onlyTouches _ _ (State.mbxTake ..); refine State.mbxTake_touch _ _ _ (fun _ _ _ x => ?_) ?sub; (case sub => decide))
    | (with_reducible show onlyTouches _ _ (State.modNv ..); refine onlyTouches.trans ?_ (State.modNv_touch ..) ?sub; (case sub => decide))
    | (with_reducible apply onlyTouches.ite)
    | (with_reducible apply onlyTouches.dite <;> intro h)

theorem State.updStart_touch (s : State) (op : Nat) (hdr : W32) (a : List W32) :
    onlyTouches [.dep] s (State.updStart s op hdr a) := by
  unfold State.updStart
  repeat' first
    | (with_reducible apply onlyTouches.refl)
    | (with_reducible show onlyTouches _ _ (State.modDep ..); refine onlyTouches.trans ?_ (State.modDep_touch ..) ?sub; (case sub => decide))

theorem State.opUpdBegin_touch (s : State) :
    onlyTouches [.fab, .pwr, .dep] s (State.opUpdBegin s) := by
  unfold State.opUpdBegin
  repeat' first
    | (with_reducible apply onlyTouches.refl)
    | (with_reducible show onlyTouches _ _ (State.mbxAnswer ..); refine onlyTouches.trans ?_ (State.mbxAnswer_touch ..) ?sub; (case sub => decide))
    | (with_reducible show onlyTouches _ _ (State.mbxTake ..); refine State.mbxTake_touch _ _ _ (fun _ _ _ x => ?_) ?sub; (case sub => decide))
    | (with_reducible show onlyTouches _ _ (State.updStart ..); refine onlyTouches.trans ?_ (State.updStart_touch ..) ?sub; (case sub => decide))
    | (with_reducible apply onlyTouches.ite)

theorem State.opUpdWrite_touch (s : State) :
    onlyTouches [.fab, .pwr, .dep] s (State.opUpdWrite s) := by
  unfold State.opUpdWrite
  dsimp only
  repeat' first
    | (with_reducible apply onlyTouches.refl)
    | (with_reducible show onlyTouches _ _ (State.mbxAnswer ..); refine onlyTouches.trans ?_ (State.mbxAnswer_touch ..) ?sub; (case sub => decide))
    | (with_reducible show onlyTouches _ _ (State.mbxTake ..); refine State.mbxTake_touch _ _ _ (fun _ _ _ x => ?_) ?sub; (case sub => decide))
    | (with_reducible show onlyTouches _ _ (State.updStart ..); refine onlyTouches.trans ?_ (State.updStart_touch ..) ?sub; (case sub => decide))
    | (with_reducible apply onlyTouches.ite)

theorem State.opUpdVerify_touch (s : State) :
    onlyTouches [.fab, .pwr, .dep] s (State.opUpdVerify s) := by
  unfold State.opUpdVerify
  repeat' first
    | (with_reducible apply onlyTouches.refl)
    | (with_reducible show onlyTouches _ _ (State.mbxAnswer ..); refine onlyTouches.trans ?_ (State.mbxAnswer_touch ..) ?sub; (case sub => decide))
    | (with_reducible show onlyTouches _ _ (State.mbxTake ..); refine State.mbxTake_touch _ _ _ (fun _ _ _ x => ?_) ?sub; (case sub => decide))
    | (with_reducible show onlyTouches _ _ (State.updStart ..); refine onlyTouches.trans ?_ (State.updStart_touch ..) ?sub; (case sub => decide))
    | (with_reducible apply onlyTouches.ite)

theorem State.opUpdActivate_touch (s : State) :
    onlyTouches [.fab, .pwr, .dep] s (State.opUpdActivate s) := by
  unfold State.opUpdActivate
  repeat' first
    | (with_reducible apply onlyTouches.refl)
    | (with_reducible show onlyTouches _ _ (State.mbxAnswer ..); refine onlyTouches.trans ?_ (State.mbxAnswer_touch ..) ?sub; (case sub => decide))
    | (with_reducible show onlyTouches _ _ (State.mbxTake ..); refine State.mbxTake_touch _ _ _ (fun _ _ _ x => ?_) ?sub; (case sub => decide))
    | (with_reducible show onlyTouches _ _ (State.updStart ..); refine onlyTouches.trans ?_ (State.updStart_touch ..) ?sub; (case sub => decide))
    | (with_reducible apply onlyTouches.ite)

theorem State.opUpdAbort_touch (s : State) :
    onlyTouches [.fab, .pwr, .dep] s (State.opUpdAbort s) := by
  unfold State.opUpdAbort
  repeat' first
    | (with_reducible apply onlyTouches.refl)
    | (with_reducible show onlyTouches _ _ (State.mbxTake ..); refine State.mbxTake_touch _ _ _ (fun _ _ _ x => ?_) ?sub; (case sub => decide))
    | (with_reducible show onlyTouches _ _ (State.updStart ..); refine onlyTouches.trans ?_ (State.updStart_touch ..) ?sub; (case sub => decide))

theorem State.updEffect_touch (s : State) (o : UpdOp) (fail : Bool) :
    onlyTouches [.fab, .pwr, .sys, .mem, .ecc, .pmc, .dep, .nv, .free] s (State.updEffect s o fail).2 := by
  unfold State.updEffect
  dsimp only
  repeat' first
    | (with_reducible apply onlyTouches.refl)
    | (with_reducible show onlyTouches _ _ (State.eccRange ..).2; refine onlyTouches.trans ?_ (State.eccRange_touch ..) ?sub; (case sub => decide))
    | (with_reducible show onlyTouches _ _ (State.modDep ..); refine onlyTouches.trans ?_ (State.modDep_touch ..) ?sub; (case sub => decide))
    | (with_reducible show onlyTouches _ _ (State.modNv ..); refine onlyTouches.trans ?_ (State.modNv_touch ..) ?sub; (case sub => decide))
    | (with_reducible apply onlyTouches.ite)
    | (split)
    | (with_reducible apply onlyTouches.put_mem; (case m => decide))

theorem State.updDone_touch (s : State) (fail : Bool) :
    onlyTouches [.fab, .pwr, .sys, .mem, .ecc, .pmc, .dep, .nv, .free] s (State.updDone s fail) := by
  unfold State.updDone
  dsimp only
  repeat' first
    | (with_reducible apply onlyTouches.refl)
    | (with_reducible show onlyTouches _ _ (State.emit ..); refine onlyTouches.trans ?_ (State.emit_touch ..) ?sub; (case sub => decide))
    | (with_reducible show onlyTouches _ _ (State.mbxAnswer ..); refine onlyTouches.trans ?_ (State.mbxAnswer_touch ..) ?sub; (case sub => decide))
    | (with_reducible show onlyTouches _ _ (State.modDep ..); refine onlyTouches.trans ?_ (State.modDep_touch ..) ?sub; (case sub => decide))
    | (with_reducible show onlyTouches _ _ (State.updEffect ..).2; refine onlyTouches.trans ?_ (State.updEffect_touch ..) ?sub; (case sub => decide))
    | (with_reducible apply onlyTouches.ite)
    | (split)

theorem State.opKeyRevoke_touch (s : State) :
    onlyTouches [.fab, .pwr, .dep, .nv] s (State.opKeyRevoke s) := by
  unfold State.opKeyRevoke
  repeat' first
    | (with_reducible apply onlyTouches.refl)
    | (with_reducible show onlyTouches _ _ (State.mbxAnswer ..); refine onlyTouches.trans ?_ (State.mbxAnswer_touch ..) ?sub; (case sub => decide))
    | (with_reducible show onlyTouches _ _ (State.mbxTake ..); refine State.mbxTake_touch _ _ _ (fun _ _ _ x => ?_) ?sub; (case sub => decide))
    | (with_reducible show onlyTouches _ _ (State.modNv ..); refine onlyTouches.trans ?_ (State.modNv_touch ..) ?sub; (case sub => decide))
    | (with_reducible apply onlyTouches.ite)
    | (with_reducible apply onlyTouches.dite <;> intro h)

theorem State.opDbgClose_touch (s : State) :
    onlyTouches [.fab, .pwr, .dep, .nv, .free] s (State.opDbgClose s) := by
  unfold State.opDbgClose
  repeat' first
    | (with_reducible apply onlyTouches.refl)
    | (with_reducible show onlyTouches _ _ (State.logOwnFree ..); refine onlyTouches.trans ?_ (State.logOwnFree_touch ..) ?sub; (case sub => decide))
    | (with_reducible show onlyTouches _ _ (State.mbxAnswer ..); refine onlyTouches.trans ?_ (State.mbxAnswer_touch ..) ?sub; (case sub => decide))
    | (with_reducible show onlyTouches _ _ (State.mbxAnswerFree ..); refine onlyTouches.trans ?_ (State.mbxAnswerFree_touch ..) ?sub; (case sub => decide))
    | (with_reducible show onlyTouches _ _ (State.mbxTake ..); refine State.mbxTake_touch _ _ _ (fun _ _ _ x => ?_) ?sub; (case sub => decide))
    | (with_reducible show onlyTouches _ _ (State.modDep ..); refine onlyTouches.trans ?_ (State.modDep_touch ..) ?sub; (case sub => decide))
    | (with_reducible apply onlyTouches.ite)

theorem State.opDbgLock_touch (s : State) :
    onlyTouches [.fab, .pwr, .dep, .nv, .free] s (State.opDbgLock s) := by
  unfold State.opDbgLock
  dsimp only
  repeat' first
    | (with_reducible apply onlyTouches.refl)
    | (with_reducible show onlyTouches _ _ (State.logOwnFree ..); refine onlyTouches.trans ?_ (State.logOwnFree_touch ..) ?sub; (case sub => decide))
    | (with_reducible show onlyTouches _ _ (State.mbxAnswer ..); refine onlyTouches.trans ?_ (State.mbxAnswer_touch ..) ?sub; (case sub => decide))
    | (with_reducible show onlyTouches _ _ (State.mbxTake ..); refine State.mbxTake_touch _ _ _ (fun _ _ _ x => ?_) ?sub; (case sub => decide))
    | (with_reducible show onlyTouches _ _ (State.modNv ..); refine onlyTouches.trans ?_ (State.modNv_touch ..) ?sub; (case sub => decide))
    | (with_reducible show onlyTouches _ _ (State.onlyIf ..); refine onlyTouches.onlyIf ?_ fun x => ?_)
    | (with_reducible apply onlyTouches.ite)

theorem State.mbxWrite_touch (s : State) (c : Fin 4) (off : Nat) (v : W32) :
    onlyTouches [.fab, .hs, .hsc, .dig, .vg, .vd, .ls, .adm, .inp, .pwr, .sup, .sys, .lc, .que, .core, .pmc, .hp, .dep, .nv, .free] s (State.mbxWrite s c off v) := by
  unfold State.mbxWrite
  repeat' first
    | (with_reducible apply onlyTouches.refl)
    | (with_reducible show onlyTouches _ _ (State.mbxPost ..); refine onlyTouches.trans ?_ (State.mbxPost_touch ..) ?sub; (case sub => decide))
    | (with_reducible show onlyTouches _ _ (State.mbxSlotStore ..); refine onlyTouches.trans ?_ (State.mbxSlotStore_touch ..) ?sub; (case sub => decide))
    | (with_reducible show onlyTouches _ _ (State.rspAck ..); refine onlyTouches.trans ?_ (State.rspAck_touch ..) ?sub; (case sub => decide))
    | (with_reducible show onlyTouches _ _ (State.wdCfgWrite ..); refine onlyTouches.trans ?_ (State.wdCfgWrite_touch ..) ?sub; (case sub => decide))
    | (with_reducible show onlyTouches _ _ (State.wdKick ..); refine onlyTouches.trans ?_ (State.wdKick_touch ..) ?sub; (case sub => decide))
    | (with_reducible apply onlyTouches.ite)

end Sys2Proof.Machine
end

