-- ==== Sys2Proof/Laws/TouchCanBus.lean ====
section
/-! SUPPORT. The parts of State that each operation of Machine/CanBus.lean changes. -/

namespace Sys2Proof.Machine

theorem State.canEv_touch (s : State) (c : Fin 4) (code : Nat) (arg : W32) :
    onlyTouches [.fab] s (State.canEv s c code arg) := by
  unfold State.canEv
  repeat' first
    | (with_reducible apply onlyTouches.refl)
    | (with_reducible show onlyTouches _ _ (State.emit ..); refine onlyTouches.trans ?_ (State.emit_touch ..) ?sub; (case sub => decide))

theorem State.modObj_touch (s : State) (c : Fin 4) (m : Fin 128) (f : CanObj → CanObj) :
    onlyTouches [.can] s (State.modObj s c m f) := by
  unfold State.modObj
  repeat' first
    | (with_reducible apply onlyTouches.refl)
    | (with_reducible show onlyTouches _ _ (State.modCan ..); refine onlyTouches.trans ?_ (State.modCan_touch ..) ?sub; (case sub => decide))

theorem State.modCanQ_touch (s : State) (c : Fin 4) (j : Fin 2) (f : CanQ → CanQ) :
    onlyTouches [.can] s (State.modCanQ s c j f) := by
  unfold State.modCanQ
  repeat' first
    | (with_reducible apply onlyTouches.refl)
    | (with_reducible show onlyTouches _ _ (State.modCan ..); refine onlyTouches.trans ?_ (State.modCan_touch ..) ?sub; (case sub => decide))

theorem State.objRes_touch (s : State) (c : Fin 4) (m : Fin 128) (r : Nat) :
    onlyTouches [.can] s (State.objRes s c m r) := by
  unfold State.objRes
  repeat' first
    | (with_reducible apply onlyTouches.refl)
    | (with_reducible show onlyTouches _ _ (State.modObj ..); refine onlyTouches.trans ?_ (State.modObj_touch ..) ?sub; (case sub => decide))

theorem State.canReq_touch (s : State) (c : Fin 4) (m : Fin 128) :
    onlyTouches [.can] s (State.canReq s c m) := by
  unfold State.canReq
  dsimp only
  repeat' first
    | (with_reducible apply onlyTouches.refl)
    | (with_reducible show onlyTouches _ _ (State.modCan ..); refine onlyTouches.trans ?_ (State.modCan_touch ..) ?sub; (case sub => decide))
    | (with_reducible show onlyTouches _ _ (State.modObj ..); refine onlyTouches.trans ?_ (State.modObj_touch ..) ?sub; (case sub => decide))
    | (with_reducible show onlyTouches _ _ (State.objRes ..); refine onlyTouches.trans ?_ (State.objRes_touch ..) ?sub; (case sub => decide))
    | (with_reducible apply onlyTouches.ite)

theorem State.txEnd_touch (s : State) (c : Fin 4) (m : Fin 128) (st : Txs) (why : Nat) :
    onlyTouches [.fab, .can] s (State.txEnd s c m st why) := by
  unfold State.txEnd
  repeat' first
    | (with_reducible apply onlyTouches.refl)
    | (with_reducible show onlyTouches _ _ (State.canEv ..); refine onlyTouches.trans ?_ (State.canEv_touch ..) ?sub; (case sub => decide))
    | (with_reducible show onlyTouches _ _ (State.modObj ..); refine onlyTouches.trans ?_ (State.modObj_touch ..) ?sub; (case sub => decide))

theorem State.canAbort_touch (s : State) (c : Fin 4) (m : Fin 128) :
    onlyTouches [.fab, .can] s (State.canAbort s c m) := by
  unfold State.canAbort
  repeat' first
    | (with_reducible apply onlyTouches.refl)
    | (with_reducible show onlyTouches _ _ (State.modObj ..); refine onlyTouches.trans ?_ (State.modObj_touch ..) ?sub; (case sub => decide))
    | (with_reducible show onlyTouches _ _ (State.objRes ..); refine onlyTouches.trans ?_ (State.objRes_touch ..) ?sub; (case sub => decide))
    | (with_reducible show onlyTouches _ _ (State.txEnd ..); refine onlyTouches.trans ?_ (State.txEnd_touch ..) ?sub; (case sub => decide))
    | (split)

theorem State.canAbortAll_touch (s : State) (c : Fin 4) :
    onlyTouches [.fab, .can] s (State.canAbortAll s c) := by
  unfold State.canAbortAll
  repeat' first
    | (with_reducible apply onlyTouches.refl)
    | (with_reducible show onlyTouches _ _ (State.canAbort ..); refine onlyTouches.trans ?_ (State.canAbort_touch ..) ?sub; (case sub => decide))
    | (with_reducible show onlyTouches _ _ (forFin ..); refine onlyTouches.forFin ?_ fun i x => ?_)
    | (with_reducible apply onlyTouches.ite)

theorem State.canSnap_touch (s : State) (c : Fin 4) (m : Fin 128) :
    onlyTouches [.can] s (State.canSnap s c m) := by
  unfold State.canSnap
  repeat' first
    | (with_reducible apply onlyTouches.refl)
    | (with_reducible show onlyTouches _ _ (State.modObj ..); refine onlyTouches.trans ?_ (State.modObj_touch ..) ?sub; (case sub => decide))
    | (with_reducible show onlyTouches _ _ (State.objRes ..); refine onlyTouches.trans ?_ (State.objRes_touch ..) ?sub; (case sub => decide))
    | (with_reducible apply onlyTouches.ite)

theorem State.canClr_touch (s : State) (c : Fin 4) (m : Fin 128) :
    onlyTouches [.can] s (State.canClr s c m) := by
  unfold State.canClr
  repeat' first
    | (with_reducible apply onlyTouches.refl)
    | (with_reducible show onlyTouches _ _ (State.modObj ..); refine onlyTouches.trans ?_ (State.modObj_touch ..) ?sub; (case sub => decide))

theorem State.objCmd_touch (s : State) (c : Fin 4) (m : Fin 128) (v : W32) :
    onlyTouches [.fab, .can] s (State.objCmd s c m v) := by
  unfold State.objCmd
  dsimp only
  repeat' first
    | (with_reducible apply onlyTouches.refl)
    | (with_reducible show onlyTouches _ _ (State.canAbort ..); refine onlyTouches.trans ?_ (State.canAbort_touch ..) ?sub; (case sub => decide))
    | (with_reducible show onlyTouches _ _ (State.canClr ..); refine onlyTouches.trans ?_ (State.canClr_touch ..) ?sub; (case sub => decide))
    | (with_reducible show onlyTouches _ _ (State.canReq ..); refine onlyTouches.trans ?_ (State.canReq_touch ..) ?sub; (case sub => decide))
    | (with_reducible show onlyTouches _ _ (State.canSnap ..); refine onlyTouches.trans ?_ (State.canSnap_touch ..) ?sub; (case sub => decide))
    | (with_reducible show onlyTouches _ _ (State.objRes ..); refine onlyTouches.trans ?_ (State.objRes_touch ..) ?sub; (case sub => decide))
    | (with_reducible show onlyTouches _ _ (State.onlyIf ..); refine onlyTouches.onlyIf ?_ fun x => ?_)
    | (with_reducible apply onlyTouches.ite)

theorem State.objCtlWrite_touch (s : State) (c : Fin 4) (m : Fin 128) (v : W32) :
    onlyTouches [.can] s (State.objCtlWrite s c m v) := by
  unfold State.objCtlWrite
  dsimp only
  repeat' first
    | (with_reducible apply onlyTouches.refl)
    | (with_reducible show onlyTouches _ _ (State.modObj ..); refine onlyTouches.trans ?_ (State.modObj_touch ..) ?sub; (case sub => decide))
    | (with_reducible show onlyTouches _ _ (State.objRes ..); refine onlyTouches.trans ?_ (State.objRes_touch ..) ?sub; (case sub => decide))
    | (with_reducible apply onlyTouches.ite)

theorem State.objBufWrite_touch (s : State) (c : Fin 4) (m : Fin 128) (i : Nat) (v : W32) :
    onlyTouches [.can] s (State.objBufWrite s c m i v) := by
  unfold State.objBufWrite
  dsimp only
  repeat' first
    | (with_reducible apply onlyTouches.refl)
    | (with_reducible show onlyTouches _ _ (State.modObj ..); refine onlyTouches.trans ?_ (State.modObj_touch ..) ?sub; (case sub => decide))
    | (with_reducible show onlyTouches _ _ (State.objRes ..); refine onlyTouches.trans ?_ (State.objRes_touch ..) ?sub; (case sub => decide))
    | (with_reducible apply onlyTouches.ite)

theorem State.canLevels_touch (s : State) (c : Fin 4) :
    onlyTouches [.fab, .can] s (State.canLevels s c) := by
  unfold State.canLevels
  dsimp only
  repeat' first
    | (with_reducible apply onlyTouches.refl)
    | (with_reducible show onlyTouches _ _ (State.canEv ..); refine onlyTouches.trans ?_ (State.canEv_touch ..) ?sub; (case sub => decide))
    | (with_reducible show onlyTouches _ _ (State.modCan ..); refine onlyTouches.trans ?_ (State.modCan_touch ..) ?sub; (case sub => decide))
    | (with_reducible show onlyTouches _ _ (State.onlyIf ..); refine onlyTouches.onlyIf ?_ fun x => ?_)

theorem State.frameDone_touch (s : State) (c : Fin 4) (next : CanBus) :
    onlyTouches [.can] s (State.frameDone s c next) := by
  unfold State.frameDone
  repeat' first
    | (with_reducible apply onlyTouches.refl)
    | (with_reducible show onlyTouches _ _ (State.modCan ..); refine onlyTouches.trans ?_ (State.modCan_touch ..) ?sub; (case sub => decide))

theorem State.canSetMode_touch (s : State) (c : Fin 4) (m : Nat) :
    onlyTouches [.can] s (State.canSetMode s c m) := by
  unfold State.canSetMode
  dsimp only
  repeat' first
    | (with_reducible apply onlyTouches.refl)
    | (with_reducible show onlyTouches _ _ (State.modCan ..); refine onlyTouches.trans ?_ (State.modCan_touch ..) ?sub; (case sub => decide))
    | (with_reducible apply onlyTouches.ite)

theorem State.canCtlWrite_touch (s : State) (c : Fin 4) (v : W32) :
    onlyTouches [.can] s (State.canCtlWrite s c v) := by
  unfold State.canCtlWrite
  dsimp only
  repeat' first
    | (with_reducible apply onlyTouches.refl)
    | (with_reducible show onlyTouches _ _ (State.canSetMode ..); refine onlyTouches.trans ?_ (State.canSetMode_touch ..) ?sub; (case sub => decide))
    | (with_reducible show onlyTouches _ _ (State.modCan ..); refine onlyTouches.trans ?_ (State.modCan_touch ..) ?sub; (case sub => decide))
    | (with_reducible apply onlyTouches.ite)

theorem State.canTiming_touch (s : State) (c : Fin 4) (which : Fin 3) (v : W32) :
    onlyTouches [.can] s (State.canTiming s c which v) := by
  unfold State.canTiming
  dsimp only
  repeat' first
    | (with_reducible apply onlyTouches.refl)
    | (with_reducible show onlyTouches _ _ (State.modCan ..); refine onlyTouches.trans ?_ (State.modCan_touch ..) ?sub; (case sub => decide))
    | (with_reducible apply onlyTouches.ite)

theorem State.canIntegrated_touch (s : State) (c : Fin 4) :
    onlyTouches [.can] s (State.canIntegrated s c) := by
  unfold State.canIntegrated
  repeat' first
    | (with_reducible apply onlyTouches.refl)
    | (with_reducible show onlyTouches _ _ (State.modCan ..); refine onlyTouches.trans ?_ (State.modCan_touch ..) ?sub; (case sub => decide))
    | (with_reducible apply onlyTouches.ite)

theorem State.canArbitrate_touch (s : State) (c : Fin 4) (other : Bool) :
    onlyTouches [.can] s (State.canArbitrate s c other) := by
  unfold State.canArbitrate
  dsimp only
  repeat' first
    | (with_reducible apply onlyTouches.refl)
    | (with_reducible show onlyTouches _ _ (State.modCan ..); refine onlyTouches.trans ?_ (State.modCan_touch ..) ?sub; (case sub => decide))
    | (with_reducible show onlyTouches _ _ (State.modObj ..); refine onlyTouches.trans ?_ (State.modObj_touch ..) ?sub; (case sub => decide))
    | (with_reducible apply onlyTouches.ite)
    | (split)

theorem State.canTxSuccess_touch (s : State) (c : Fin 4) (delay : Nat) :
    onlyTouches [.fab, .can] s (State.canTxSuccess s c delay) := by
  unfold State.canTxSuccess
  dsimp only
  repeat' first
    | (with_reducible apply onlyTouches.refl)
    | (with_reducible show onlyTouches _ _ (State.canEv ..); refine onlyTouches.trans ?_ (State.canEv_touch ..) ?sub; (case sub => decide))
    | (with_reducible show onlyTouches _ _ (State.canLevels ..); refine onlyTouches.trans ?_ (State.canLevels_touch ..) ?sub; (case sub => decide))
    | (with_reducible show onlyTouches _ _ (State.frameDone ..); refine onlyTouches.trans ?_ (State.frameDone_touch ..) ?sub; (case sub => decide))
    | (with_reducible show onlyTouches _ _ (State.modCan ..); refine onlyTouches.trans ?_ (State.modCan_touch ..) ?sub; (case sub => decide))
    | (with_reducible show onlyTouches _ _ (State.modObj ..); refine onlyTouches.trans ?_ (State.modObj_touch ..) ?sub; (case sub => decide))
    | (with_reducible show onlyTouches _ _ (State.onlyIf ..); refine onlyTouches.onlyIf ?_ fun x => ?_)
    | (with_reducible apply onlyTouches.ite)
    | (split)

theorem State.txBack_touch (s : State) (c : Fin 4) (m : Fin 128) :
    onlyTouches [.fab, .can] s (State.txBack s c m) := by
  unfold State.txBack
  dsimp only
  repeat' first
    | (with_reducible apply onlyTouches.refl)
    | (with_reducible show onlyTouches _ _ (State.modObj ..); refine onlyTouches.trans ?_ (State.modObj_touch ..) ?sub; (case sub => decide))
    | (with_reducible show onlyTouches _ _ (State.txEnd ..); refine onlyTouches.trans ?_ (State.txEnd_touch ..) ?sub; (case sub => decide))
    | (with_reducible apply onlyTouches.ite)

theorem State.canArbLost_touch (s : State) (c : Fin 4) :
    onlyTouches [.fab, .can] s (State.canArbLost s c) := by
  unfold State.canArbLost
  repeat' first
    | (with_reducible apply onlyTouches.refl)
    | (with_reducible show onlyTouches _ _ (State.modCan ..); refine onlyTouches.trans ?_ (State.modCan_touch ..) ?sub; (case sub => decide))
    | (with_reducible show onlyTouches _ _ (State.txBack ..); refine onlyTouches.trans ?_ (State.txBack_touch ..) ?sub; (case sub => decide))
    | (with_reducible apply onlyTouches.ite)
    | (split)

theorem State.txError_touch (s : State) (c : Fin 4) (m : Fin 128) (bitErr arb : Bool) :
    onlyTouches [.fab, .can] s (State.txError s c m bitErr arb) := by
  unfold State.txError
  dsimp only
  repeat' first
    | (with_reducible apply onlyTouches.refl)
    | (with_reducible show onlyTouches _ _ (State.canEv ..); refine onlyTouches.trans ?_ (State.canEv_touch ..) ?sub; (case sub => decide))
    | (with_reducible show onlyTouches _ _ (State.modCan ..); refine onlyTouches.trans ?_ (State.modCan_touch ..) ?sub; (case sub => decide))
    | (with_reducible show onlyTouches _ _ (State.modObj ..); refine onlyTouches.trans ?_ (State.modObj_touch ..) ?sub; (case sub => decide))
    | (with_reducible show onlyTouches _ _ (State.txBack ..); refine onlyTouches.trans ?_ (State.txBack_touch ..) ?sub; (case sub => decide))
    | (with_reducible show onlyTouches _ _ (State.txEnd ..); refine onlyTouches.trans ?_ (State.txEnd_touch ..) ?sub; (case sub => decide))
    | (with_reducible apply onlyTouches.ite)

theorem State.canError_touch (s : State) (c : Fin 4) (ty0 : Nat) (data arb exempt heavy : Bool) (delay : Nat) :
    onlyTouches [.fab, .can] s (State.canError s c ty0 data arb exempt heavy delay) := by
  unfold State.canError
  dsimp only
  repeat' first
    | (with_reducible apply onlyTouches.refl)
    | (with_reducible show onlyTouches _ _ (State.canEv ..); refine onlyTouches.trans ?_ (State.canEv_touch ..) ?sub; (case sub => decide))
    | (with_reducible show onlyTouches _ _ (State.canLevels ..); refine onlyTouches.trans ?_ (State.canLevels_touch ..) ?sub; (case sub => decide))
    | (with_reducible show onlyTouches _ _ (State.frameDone ..); refine onlyTouches.trans ?_ (State.frameDone_touch ..) ?sub; (case sub => decide))
    | (with_reducible show onlyTouches _ _ (State.modCan ..); refine onlyTouches.trans ?_ (State.modCan_touch ..) ?sub; (case sub => decide))
    | (with_reducible show onlyTouches _ _ (State.txError ..); refine onlyTouches.trans ?_ (State.txError_touch ..) ?sub; (case sub => decide))
    | (with_reducible apply onlyTouches.ite)
    | (split)

theorem State.canBusOn_touch (s : State) (c : Fin 4) (n : Nat) :
    onlyTouches [.fab, .can] s (State.canBusOn s c n) := by
  unfold State.canBusOn
  repeat' first
    | (with_reducible apply onlyTouches.refl)
    | (with_reducible show onlyTouches _ _ (State.canEv ..); refine onlyTouches.trans ?_ (State.canEv_touch ..) ?sub; (case sub => decide))
    | (with_reducible show onlyTouches _ _ (State.modCan ..); refine onlyTouches.trans ?_ (State.modCan_touch ..) ?sub; (case sub => decide))
    | (with_reducible apply onlyTouches.ite)

theorem State.canHold_touch (s : State) (c : Fin 4) (j : Fin 2) (w0 w1 : W32) (data : List W8) (f ts : Nat) :
    onlyTouches [.fab, .pwr, .que, .pmc, .can] s (State.canHold s c j w0 w1 data f ts).2 := by
  unfold State.canHold
  dsimp only
  repeat' first
    | (with_reducible apply onlyTouches.refl)
    | (with_reducible show onlyTouches _ _ (State.canEv ..); refine onlyTouches.trans ?_ (State.canEv_touch ..) ?sub; (case sub => decide))
    | (with_reducible show onlyTouches _ _ (State.modCan ..); refine onlyTouches.trans ?_ (State.modCan_touch ..) ?sub; (case sub => decide))
    | (with_reducible show onlyTouches _ _ (State.modCanQ ..); refine onlyTouches.trans ?_ (State.modCanQ_touch ..) ?sub; (case sub => decide))
    | (with_reducible show onlyTouches _ _ (State.quePush ..).2; refine onlyTouches.trans ?_ (State.quePush_touch ..) ?sub; (case sub => decide))
    | (with_reducible apply onlyTouches.ite)
    | (split)

theorem State.canStoreObj_touch (s : State) (c : Fin 4) (m : Fin 128) (b : FrameBuf) (f : Nat) :
    onlyTouches [.fab, .can] s (State.canStoreObj s c m b f) := by
  unfold State.canStoreObj
  dsimp only
  repeat' first
    | (with_reducible apply onlyTouches.refl)
    | (with_reducible show onlyTouches _ _ (State.canEv ..); refine onlyTouches.trans ?_ (State.canEv_touch ..) ?sub; (case sub => decide))
    | (with_reducible show onlyTouches _ _ (State.modCan ..); refine onlyTouches.trans ?_ (State.modCan_touch ..) ?sub; (case sub => decide))
    | (with_reducible show onlyTouches _ _ (State.modObj ..); refine onlyTouches.trans ?_ (State.modObj_touch ..) ?sub; (case sub => decide))
    | (with_reducible show onlyTouches _ _ (State.onlyIf ..); refine onlyTouches.onlyIf ?_ fun x => ?_)
    | (with_reducible apply onlyTouches.ite)

theorem State.gateAnswer_touch (s : State) (c : Fin 4) (src seq : Nat) :
    onlyTouches [.can] s (State.gateAnswer s c src seq).2 := by
  unfold State.gateAnswer
  dsimp only
  repeat' first
    | (with_reducible apply onlyTouches.refl)
    | (with_reducible show onlyTouches _ _ (State.canReq ..); refine onlyTouches.trans ?_ (State.canReq_touch ..) ?sub; (case sub => decide))
    | (with_reducible show onlyTouches _ _ (State.modCan ..); refine onlyTouches.trans ?_ (State.modCan_touch ..) ?sub; (case sub => decide))
    | (with_reducible show onlyTouches _ _ (State.modObj ..); refine onlyTouches.trans ?_ (State.modObj_touch ..) ?sub; (case sub => decide))
    | (with_reducible apply onlyTouches.ite)
    | (split)

theorem State.canToQueue_touch (s : State) (c : Fin 4) (j : Fin 2) (w0 w1 : W32) (data : List W8) (f : Fin 32) (ts : Nat) :
    onlyTouches [.fab, .pwr, .que, .pmc, .can] s (State.canToQueue s c j w0 w1 data f ts) := by
  unfold State.canToQueue
  dsimp only
  repeat' first
    | (with_reducible apply onlyTouches.refl)
    | (with_reducible show onlyTouches _ _ (State.canEv ..); refine onlyTouches.trans ?_ (State.canEv_touch ..) ?sub; (case sub => decide))
    | (with_reducible show onlyTouches _ _ (State.canHold ..).2; refine onlyTouches.trans ?_ (State.canHold_touch ..) ?sub; (case sub => decide))
    | (with_reducible show onlyTouches _ _ (State.gateAnswer ..).2; refine onlyTouches.trans ?_ (State.gateAnswer_touch ..) ?sub; (case sub => decide))
    | (with_reducible show onlyTouches _ _ (State.modCan ..); refine onlyTouches.trans ?_ (State.modCan_touch ..) ?sub; (case sub => decide))
    | (with_reducible show onlyTouches _ _ (State.onlyIf ..); refine onlyTouches.onlyIf ?_ fun x => ?_)
    | (with_reducible apply onlyTouches.ite)

theorem State.canRoute_touch (s : State) (c : Fin 4) (w0 w1 : W32) (data : List W8) (ts : Nat) :
    onlyTouches [.fab, .pwr, .que, .pmc, .can] s (State.canRoute s c w0 w1 data ts) := by
  unfold State.canRoute
  dsimp only
  repeat' first
    | (with_reducible apply onlyTouches.refl)
    | (with_reducible show onlyTouches _ _ (State.canStoreObj ..); refine onlyTouches.trans ?_ (State.canStoreObj_touch ..) ?sub; (case sub => decide))
    | (with_reducible show onlyTouches _ _ (State.canToQueue ..); refine onlyTouches.trans ?_ (State.canToQueue_touch ..) ?sub; (case sub => decide))
    | (with_reducible show onlyTouches _ _ (State.modCan ..); refine onlyTouches.trans ?_ (State.modCan_touch ..) ?sub; (case sub => decide))
    | (split)

theorem State.canRecDown_touch (s : State) (c : Fin 4) :
    onlyTouches [.fab, .can, .free] s (State.canRecDown s c) := by
  unfold State.canRecDown
  dsimp only
  repeat' first
    | (with_reducible apply onlyTouches.refl)
    | (with_reducible show onlyTouches _ _ (State.canLevels ..); refine onlyTouches.trans ?_ (State.canLevels_touch ..) ?sub; (case sub => decide))
    | (with_reducible show onlyTouches _ _ (State.draw ..).2; refine onlyTouches.trans ?_ (State.draw_touch ..) ?sub; (case sub => decide))
    | (with_reducible show onlyTouches _ _ (State.modCan ..); refine onlyTouches.trans ?_ (State.modCan_touch ..) ?sub; (case sub => decide))
    | (with_reducible apply onlyTouches.ite)

theorem State.canReceive_touch (s : State) (c : Fin 4) (w0 w1 : W32) (data : List W8) (us : Nat) :
    onlyTouches [.fab, .pwr, .que, .pmc, .can, .free] s (State.canReceive s c w0 w1 data us) := by
  unfold State.canReceive
  dsimp only
  repeat' first
    | (with_reducible apply onlyTouches.refl)
    | (with_reducible show onlyTouches _ _ (State.canRecDown ..); refine onlyTouches.trans ?_ (State.canRecDown_touch ..) ?sub; (case sub => decide))
    | (with_reducible show onlyTouches _ _ (State.canRoute ..); refine onlyTouches.trans ?_ (State.canRoute_touch ..) ?sub; (case sub => decide))
    | (with_reducible show onlyTouches _ _ (State.frameDone ..); refine onlyTouches.trans ?_ (State.frameDone_touch ..) ?sub; (case sub => decide))
    | (with_reducible show onlyTouches _ _ (State.modCan ..); refine onlyTouches.trans ?_ (State.modCan_touch ..) ?sub; (case sub => decide))
    | (with_reducible apply onlyTouches.ite)

theorem State.canRel_touch (s : State) (c : Fin 4) (j : Fin 2) (r : Nat) :
    onlyTouches [.can] s (State.canRel s c j r) := by
  unfold State.canRel
  dsimp only
  repeat' first
    | (with_reducible apply onlyTouches.refl)
    | (with_reducible show onlyTouches _ _ (State.modCanQ ..); refine onlyTouches.trans ?_ (State.modCanQ_touch ..) ?sub; (case sub => decide))
    | (with_reducible apply onlyTouches.ite)
    | (split)

theorem State.canFlush_touch (s : State) (c : Fin 4) (j : Fin 2) :
    onlyTouches [.can] s (State.canFlush s c j) := by
  unfold State.canFlush
  repeat' first
    | (with_reducible apply onlyTouches.refl)
    | (with_reducible show onlyTouches _ _ (State.modCanQ ..); refine onlyTouches.trans ?_ (State.modCanQ_touch ..) ?sub; (case sub => decide))

theorem State.canForget_touch (s : State) (c : Fin 4) :
    onlyTouches [.can] s (State.canForget s c) := by
  unfold State.canForget
  repeat' first
    | (with_reducible apply onlyTouches.refl)
    | (with_reducible show onlyTouches _ _ (State.modCan ..); refine onlyTouches.trans ?_ (State.modCan_touch ..) ?sub; (case sub => decide))

theorem State.canWrite_touch (s : State) (c : Fin 4) (off : Nat) (v : W32) :
    onlyTouches [.fab, .can] s (State.canWrite s c off v) := by
  unfold State.canWrite
  dsimp only
  repeat' first
    | (with_reducible apply onlyTouches.refl)
    | (with_reducible show onlyTouches _ _ (State.canAbortAll ..); refine onlyTouches.trans ?_ (State.canAbortAll_touch ..) ?sub; (case sub => decide))
    | (with_reducible show onlyTouches _ _ (State.canCtlWrite ..); refine onlyTouches.trans ?_ (State.canCtlWrite_touch ..) ?sub; (case sub => decide))
    | (with_reducible show onlyTouches _ _ (State.canFlush ..); refine onlyTouches.trans ?_ (State.canFlush_touch ..) ?sub; (case sub => decide))
    | (with_reducible show onlyTouches _ _ (State.canForget ..); refine onlyTouches.trans ?_ (State.canForget_touch ..) ?sub; (case sub => decide))
    | (with_reducible show onlyTouches _ _ (State.canRel ..); refine onlyTouches.trans ?_ (State.canRel_touch ..) ?sub; (case sub => decide))
    | (with_reducible show onlyTouches _ _ (State.canTiming ..); refine onlyTouches.trans ?_ (State.canTiming_touch ..) ?sub; (case sub => decide))
    | (with_reducible show onlyTouches _ _ (State.modCan ..); refine onlyTouches.trans ?_ (State.modCan_touch ..) ?sub; (case sub => decide))
    | (with_reducible show onlyTouches _ _ (State.objBufWrite ..); refine onlyTouches.trans ?_ (State.objBufWrite_touch ..) ?sub; (case sub => decide))
    | (with_reducible show onlyTouches _ _ (State.objCmd ..); refine onlyTouches.trans ?_ (State.objCmd_touch ..) ?sub; (case sub => decide))
    | (with_reducible show onlyTouches _ _ (State.objCtlWrite ..); refine onlyTouches.trans ?_ (State.objCtlWrite_touch ..) ?sub; (case sub => decide))
    | (with_reducible show onlyTouches _ _ (State.onlyIf ..); refine onlyTouches.onlyIf ?_ fun x => ?_)
    | (with_reducible apply onlyTouches.ite)

end Sys2Proof.Machine
end

