-- ==== Sys2Proof/Laws/TouchNetMgmt.lean ====
section
/-! SUPPORT. The parts of State that each operation of Machine/NetMgmt.lean changes. -/

namespace Sys2Proof.Machine

theorem State.nmEv_touch (s : State) (c : Fin 4) (code : Nat) (fs : List (Nat × Nat × Nat)) :
    onlyTouches [.fab] s (State.nmEv s c code fs) := by
  unfold State.nmEv
  repeat' first
    | (with_reducible apply onlyTouches.refl)
    | (with_reducible show onlyTouches _ _ (State.emit ..); refine onlyTouches.trans ?_ (State.emit_touch ..) ?sub; (case sub => decide))

theorem State.nmCanMode_touch (s : State) (c : Fin 4) (m : Nat) :
    onlyTouches [.can] s (State.nmCanMode s c m) := by
  unfold State.nmCanMode
  repeat' first
    | (with_reducible apply onlyTouches.refl)
    | (with_reducible show onlyTouches _ _ (State.canSetMode ..); refine onlyTouches.trans ?_ (State.canSetMode_touch ..) ?sub; (case sub => decide))
    | (with_reducible apply onlyTouches.ite)

theorem State.nmSend_touch (s : State) (c : Fin 4) (rep : Bool) :
    onlyTouches [.fab, .can, .nm] s (State.nmSend s c rep) := by
  unfold State.nmSend
  dsimp only
  repeat' first
    | (with_reducible apply onlyTouches.refl)
    | (with_reducible show onlyTouches _ _ (State.canReq ..); refine onlyTouches.trans ?_ (State.canReq_touch ..) ?sub; (case sub => decide))
    | (with_reducible show onlyTouches _ _ (State.modNm ..); refine onlyTouches.trans ?_ (State.modNm_touch ..) ?sub; (case sub => decide))
    | (with_reducible show onlyTouches _ _ (State.modObj ..); refine onlyTouches.trans ?_ (State.modObj_touch ..) ?sub; (case sub => decide))
    | (with_reducible show onlyTouches _ _ (State.nmEv ..); refine onlyTouches.trans ?_ (State.nmEv_touch ..) ?sub; (case sub => decide))
    | (with_reducible apply onlyTouches.ite)

theorem State.nmDeferred_touch (s : State) (c : Fin 4) :
    onlyTouches [.fab, .can, .nm] s (State.nmDeferred s c) := by
  unfold State.nmDeferred
  dsimp only
  repeat' first
    | (with_reducible apply onlyTouches.refl)
    | (with_reducible show onlyTouches _ _ (State.modNm ..); refine onlyTouches.trans ?_ (State.modNm_touch ..) ?sub; (case sub => decide))
    | (with_reducible show onlyTouches _ _ (State.nmSend ..); refine onlyTouches.trans ?_ (State.nmSend_touch ..) ?sub; (case sub => decide))
    | (with_reducible apply onlyTouches.ite)

theorem State.nmStreak_touch (s : State) (c : Fin 4) (i : Fin 64) :
    onlyTouches [.fab, .nm] s (State.nmStreak s c i) := by
  unfold State.nmStreak
  dsimp only
  repeat' first
    | (with_reducible apply onlyTouches.refl)
    | (with_reducible show onlyTouches _ _ (State.modNm ..); refine onlyTouches.trans ?_ (State.modNm_touch ..) ?sub; (case sub => decide))
    | (with_reducible show onlyTouches _ _ (State.nmEv ..); refine onlyTouches.trans ?_ (State.nmEv_touch ..) ?sub; (case sub => decide))
    | (with_reducible show onlyTouches _ _ (State.onlyIf ..); refine onlyTouches.onlyIf ?_ fun x => ?_)

theorem State.nmWakeInto_touch (s : State) (c : Fin 4) (st : NmSt) (bus : Bool) :
    onlyTouches [.can, .nm] s (State.nmWakeInto s c st bus) := by
  unfold State.nmWakeInto
  dsimp only
  repeat' first
    | (with_reducible apply onlyTouches.refl)
    | (with_reducible show onlyTouches _ _ (State.modNm ..); refine onlyTouches.trans ?_ (State.modNm_touch ..) ?sub; (case sub => decide))
    | (with_reducible show onlyTouches _ _ (State.nmCanMode ..); refine onlyTouches.trans ?_ (State.nmCanMode_touch ..) ?sub; (case sub => decide))
    | (with_reducible show onlyTouches _ _ (State.onlyIf ..); refine onlyTouches.onlyIf ?_ fun x => ?_)

theorem State.nmIntoNeed_touch (s : State) (c : Fin 4) (rep : Bool) :
    onlyTouches [.fab, .can, .nm] s (State.nmIntoNeed s c rep) := by
  unfold State.nmIntoNeed
  repeat' first
    | (with_reducible apply onlyTouches.refl)
    | (with_reducible show onlyTouches _ _ (State.modNm ..); refine onlyTouches.trans ?_ (State.modNm_touch ..) ?sub; (case sub => decide))
    | (with_reducible show onlyTouches _ _ (State.nmSend ..); refine onlyTouches.trans ?_ (State.nmSend_touch ..) ?sub; (case sub => decide))
    | (with_reducible show onlyTouches _ _ (State.nmWakeInto ..); refine onlyTouches.trans ?_ (State.nmWakeInto_touch ..) ?sub; (case sub => decide))

theorem State.nmStage2_touch (s : State) (c : Fin 4) :
    onlyTouches [.nm] s (State.nmStage2 s c) := by
  unfold State.nmStage2
  repeat' first
    | (with_reducible apply onlyTouches.refl)
    | (with_reducible show onlyTouches _ _ (State.modNm ..); refine onlyTouches.trans ?_ (State.modNm_touch ..) ?sub; (case sub => decide))

theorem State.nmPrep_touch (s : State) (c : Fin 4) :
    onlyTouches [.can, .nm] s (State.nmPrep s c) := by
  unfold State.nmPrep
  dsimp only
  repeat' first
    | (with_reducible apply onlyTouches.refl)
    | (with_reducible show onlyTouches _ _ (State.modNm ..); refine onlyTouches.trans ?_ (State.modNm_touch ..) ?sub; (case sub => decide))
    | (with_reducible show onlyTouches _ _ (State.nmCanMode ..); refine onlyTouches.trans ?_ (State.nmCanMode_touch ..) ?sub; (case sub => decide))
    | (with_reducible show onlyTouches _ _ (State.nmStage2 ..); refine onlyTouches.trans ?_ (State.nmStage2_touch ..) ?sub; (case sub => decide))
    | (with_reducible apply onlyTouches.ite)

theorem State.nmAbort_touch (s : State) (c : Fin 4) (toNeed : Bool) (cause : Nat) :
    onlyTouches [.fab, .can, .nm] s (State.nmAbort s c toNeed cause) := by
  unfold State.nmAbort
  dsimp only
  repeat' first
    | (with_reducible apply onlyTouches.refl)
    | (with_reducible show onlyTouches _ _ (State.modNm ..); refine onlyTouches.trans ?_ (State.modNm_touch ..) ?sub; (case sub => decide))
    | (with_reducible show onlyTouches _ _ (State.nmEv ..); refine onlyTouches.trans ?_ (State.nmEv_touch ..) ?sub; (case sub => decide))
    | (with_reducible show onlyTouches _ _ (State.nmIntoNeed ..); refine onlyTouches.trans ?_ (State.nmIntoNeed_touch ..) ?sub; (case sub => decide))
    | (with_reducible show onlyTouches _ _ (State.nmSend ..); refine onlyTouches.trans ?_ (State.nmSend_touch ..) ?sub; (case sub => decide))
    | (with_reducible show onlyTouches _ _ (State.nmWakeInto ..); refine onlyTouches.trans ?_ (State.nmWakeInto_touch ..) ?sub; (case sub => decide))
    | (with_reducible apply onlyTouches.ite)

theorem State.nmStage1Done_touch (s : State) (c : Fin 4) :
    onlyTouches [.nm] s (State.nmStage1Done s c) := by
  unfold State.nmStage1Done
  repeat' first
    | (with_reducible apply onlyTouches.refl)
    | (with_reducible show onlyTouches _ _ (State.nmStage2 ..); refine onlyTouches.trans ?_ (State.nmStage2_touch ..) ?sub; (case sub => decide))
    | (with_reducible apply onlyTouches.ite)

theorem State.trxComplete_touch (s : State) (c : Fin 4) :
    onlyTouches [.fab, .nm] s (State.trxComplete s c) := by
  unfold State.trxComplete
  dsimp only
  repeat' first
    | (with_reducible apply onlyTouches.refl)
    | (with_reducible show onlyTouches _ _ (State.modNm ..); refine onlyTouches.trans ?_ (State.modNm_touch ..) ?sub; (case sub => decide))
    | (with_reducible show onlyTouches _ _ (State.nmEv ..); refine onlyTouches.trans ?_ (State.nmEv_touch ..) ?sub; (case sub => decide))
    | (with_reducible apply onlyTouches.ite)
    | (split)

theorem State.nmBusWake_touch (s : State) (c : Fin 4) (cause : Nat) :
    onlyTouches [.fab, .pwr, .can, .nm] s (State.nmBusWake s c cause) := by
  unfold State.nmBusWake
  dsimp only
  repeat' first
    | (with_reducible apply onlyTouches.refl)
    | (with_reducible show onlyTouches _ _ (State.modNm ..); refine onlyTouches.trans ?_ (State.modNm_touch ..) ?sub; (case sub => decide))
    | (with_reducible show onlyTouches _ _ (State.nmAbort ..); refine onlyTouches.trans ?_ (State.nmAbort_touch ..) ?sub; (case sub => decide))
    | (with_reducible show onlyTouches _ _ (State.nmEv ..); refine onlyTouches.trans ?_ (State.nmEv_touch ..) ?sub; (case sub => decide))
    | (with_reducible show onlyTouches _ _ (State.nmWakeInto ..); refine onlyTouches.trans ?_ (State.nmWakeInto_touch ..) ?sub; (case sub => decide))
    | (with_reducible show onlyTouches _ _ (State.wakeReq ..); refine onlyTouches.trans ?_ (State.wakeReq_touch ..) ?sub; (case sub => decide))
    | (with_reducible apply onlyTouches.ite)
    | (split)

theorem State.nmNeedRose_touch (s : State) (c : Fin 4) :
    onlyTouches [.fab, .pwr, .can, .nm] s (State.nmNeedRose s c) := by
  unfold State.nmNeedRose
  dsimp only
  repeat' first
    | (with_reducible apply onlyTouches.refl)
    | (with_reducible show onlyTouches _ _ (State.modNm ..); refine onlyTouches.trans ?_ (State.modNm_touch ..) ?sub; (case sub => decide))
    | (with_reducible show onlyTouches _ _ (State.nmAbort ..); refine onlyTouches.trans ?_ (State.nmAbort_touch ..) ?sub; (case sub => decide))
    | (with_reducible show onlyTouches _ _ (State.nmIntoNeed ..); refine onlyTouches.trans ?_ (State.nmIntoNeed_touch ..) ?sub; (case sub => decide))
    | (with_reducible show onlyTouches _ _ (State.wakeReq ..); refine onlyTouches.trans ?_ (State.wakeReq_touch ..) ?sub; (case sub => decide))
    | (split)

theorem State.nmNeedFell_touch (s : State) (c : Fin 4) :
    onlyTouches [.nm] s (State.nmNeedFell s c) := by
  unfold State.nmNeedFell
  repeat' first
    | (with_reducible apply onlyTouches.refl)
    | (with_reducible show onlyTouches _ _ (State.modNm ..); refine onlyTouches.trans ?_ (State.modNm_touch ..) ?sub; (case sub => decide))
    | (with_reducible apply onlyTouches.ite)

theorem State.nmEnabled_touch (s : State) (c : Fin 4) :
    onlyTouches [.fab, .can, .nm] s (State.nmEnabled s c) := by
  unfold State.nmEnabled
  dsimp only
  repeat' first
    | (with_reducible apply onlyTouches.refl)
    | (with_reducible show onlyTouches _ _ (State.modNm ..); refine onlyTouches.trans ?_ (State.modNm_touch ..) ?sub; (case sub => decide))
    | (with_reducible show onlyTouches _ _ (State.nmIntoNeed ..); refine onlyTouches.trans ?_ (State.nmIntoNeed_touch ..) ?sub; (case sub => decide))
    | (with_reducible show onlyTouches _ _ (State.nmWakeInto ..); refine onlyTouches.trans ?_ (State.nmWakeInto_touch ..) ?sub; (case sub => decide))
    | (with_reducible apply onlyTouches.ite)

theorem State.nmDisabled_touch (s : State) (c : Fin 4) :
    onlyTouches [.nm] s (State.nmDisabled s c) := by
  unfold State.nmDisabled
  repeat' first
    | (with_reducible apply onlyTouches.refl)
    | (with_reducible show onlyTouches _ _ (State.modNm ..); refine onlyTouches.trans ?_ (State.modNm_touch ..) ?sub; (case sub => decide))

theorem State.nmCtlWrite_touch (s : State) (c : Fin 4) (v : W32) :
    onlyTouches [.fab, .pwr, .can, .nm] s (State.nmCtlWrite s c v) := by
  unfold State.nmCtlWrite
  dsimp only
  repeat' first
    | (with_reducible apply onlyTouches.refl)
    | (with_reducible show onlyTouches _ _ (State.modNm ..); refine onlyTouches.trans ?_ (State.modNm_touch ..) ?sub; (case sub => decide))
    | (with_reducible show onlyTouches _ _ (State.nmDisabled ..); refine onlyTouches.trans ?_ (State.nmDisabled_touch ..) ?sub; (case sub => decide))
    | (with_reducible show onlyTouches _ _ (State.nmEnabled ..); refine onlyTouches.trans ?_ (State.nmEnabled_touch ..) ?sub; (case sub => decide))
    | (with_reducible show onlyTouches _ _ (State.nmNeedFell ..); refine onlyTouches.trans ?_ (State.nmNeedFell_touch ..) ?sub; (case sub => decide))
    | (with_reducible show onlyTouches _ _ (State.nmNeedRose ..); refine onlyTouches.trans ?_ (State.nmNeedRose_touch ..) ?sub; (case sub => decide))
    | (with_reducible show onlyTouches _ _ (State.onlyIf ..); refine onlyTouches.onlyIf ?_ fun x => ?_)

theorem State.nmOnline_touch (s : State) (c : Fin 4) :
    onlyTouches [.can, .nm] s (State.nmOnline s c) := by
  unfold State.nmOnline
  repeat' first
    | (with_reducible apply onlyTouches.refl)
    | (with_reducible show onlyTouches _ _ (State.modNm ..); refine onlyTouches.trans ?_ (State.modNm_touch ..) ?sub; (case sub => decide))
    | (with_reducible show onlyTouches _ _ (State.nmCanMode ..); refine onlyTouches.trans ?_ (State.nmCanMode_touch ..) ?sub; (case sub => decide))
    | (with_reducible show onlyTouches _ _ (State.onlyIf ..); refine onlyTouches.onlyIf ?_ fun x => ?_)

theorem State.nmNsClr_touch (s : State) (c : Fin 4) :
    onlyTouches [.nm] s (State.nmNsClr s c) := by
  unfold State.nmNsClr
  repeat' first
    | (with_reducible apply onlyTouches.refl)
    | (with_reducible show onlyTouches _ _ (State.modNm ..); refine onlyTouches.trans ?_ (State.modNm_touch ..) ?sub; (case sub => decide))

theorem State.trxWrite_touch (s : State) (c : Fin 4) (v : W32) :
    onlyTouches [.nm] s (State.trxWrite s c v) := by
  unfold State.trxWrite
  dsimp only
  repeat' first
    | (with_reducible apply onlyTouches.refl)
    | (with_reducible show onlyTouches _ _ (State.modNm ..); refine onlyTouches.trans ?_ (State.modNm_touch ..) ?sub; (case sub => decide))
    | (with_reducible apply onlyTouches.ite)

theorem State.trxWup_touch (s : State) (c : Fin 4) (d1 r d2 total : Nat) :
    onlyTouches [.fab, .pwr, .can, .nm, .free] s (State.trxWup s c d1 r d2 total) := by
  unfold State.trxWup
  dsimp only
  repeat' first
    | (with_reducible apply onlyTouches.refl)
    | (with_reducible show onlyTouches _ _ (State.draw ..).2; refine onlyTouches.trans ?_ (State.draw_touch ..) ?sub; (case sub => decide))
    | (with_reducible show onlyTouches _ _ (State.modNm ..); refine onlyTouches.trans ?_ (State.modNm_touch ..) ?sub; (case sub => decide))
    | (with_reducible show onlyTouches _ _ (State.nmBusWake ..); refine onlyTouches.trans ?_ (State.nmBusWake_touch ..) ?sub; (case sub => decide))
    | (with_reducible apply onlyTouches.ite)

theorem State.trxBiasOff_touch (s : State) (c : Fin 4) (us : Nat) :
    onlyTouches [.nm, .free] s (State.trxBiasOff s c us) := by
  unfold State.trxBiasOff
  dsimp only
  repeat' first
    | (with_reducible apply onlyTouches.refl)
    | (with_reducible show onlyTouches _ _ (State.draw ..).2; refine onlyTouches.trans ?_ (State.draw_touch ..) ?sub; (case sub => decide))
    | (with_reducible show onlyTouches _ _ (State.modNm ..); refine onlyTouches.trans ?_ (State.modNm_touch ..) ?sub; (case sub => decide))
    | (with_reducible apply onlyTouches.ite)

theorem State.trxFault_touch (s : State) (c : Fin 4) (txd vcc : Bool) :
    onlyTouches [.fab, .nm] s (State.trxFault s c txd vcc) := by
  unfold State.trxFault
  dsimp only
  repeat' first
    | (with_reducible apply onlyTouches.refl)
    | (with_reducible show onlyTouches _ _ (State.modNm ..); refine onlyTouches.trans ?_ (State.modNm_touch ..) ?sub; (case sub => decide))
    | (with_reducible show onlyTouches _ _ (State.nmEv ..); refine onlyTouches.trans ?_ (State.nmEv_touch ..) ?sub; (case sub => decide))
    | (with_reducible show onlyTouches _ _ (State.onlyIf ..); refine onlyTouches.onlyIf ?_ fun x => ?_)
    | (with_reducible apply onlyTouches.ite)

theorem State.trxTxd_touch (s : State) (c : Fin 4) (dom : Bool) (us : Nat) :
    onlyTouches [.fab, .nm] s (State.trxTxd s c dom us) := by
  unfold State.trxTxd
  repeat' first
    | (with_reducible apply onlyTouches.refl)
    | (with_reducible show onlyTouches _ _ (State.trxFault ..); refine onlyTouches.trans ?_ (State.trxFault_touch ..) ?sub; (case sub => decide))
    | (with_reducible apply onlyTouches.ite)

theorem State.nmFrame_touch (s : State) (c : Fin 4) (ka : Bool) :
    onlyTouches [.fab, .can, .nm] s (State.nmFrame s c ka) := by
  unfold State.nmFrame
  repeat' first
    | (with_reducible apply onlyTouches.refl)
    | (with_reducible show onlyTouches _ _ (State.modNm ..); refine onlyTouches.trans ?_ (State.modNm_touch ..) ?sub; (case sub => decide))
    | (with_reducible show onlyTouches _ _ (State.nmAbort ..); refine onlyTouches.trans ?_ (State.nmAbort_touch ..) ?sub; (case sub => decide))
    | (with_reducible show onlyTouches _ _ (State.nmWakeInto ..); refine onlyTouches.trans ?_ (State.nmWakeInto_touch ..) ?sub; (case sub => decide))
    | (with_reducible apply onlyTouches.ite)
    | (split)

theorem State.nmDecoded_touch (s : State) (c : Fin 4) (ok : Bool) (w0 w1 : W32) (data : List W8) :
    onlyTouches [.fab, .pwr, .can, .nm] s (State.nmDecoded s c ok w0 w1 data) := by
  unfold State.nmDecoded
  dsimp only
  repeat' first
    | (with_reducible apply onlyTouches.refl)
    | (with_reducible show onlyTouches _ _ (State.modNm ..); refine onlyTouches.trans ?_ (State.modNm_touch ..) ?sub; (case sub => decide))
    | (with_reducible show onlyTouches _ _ (State.nmBusWake ..); refine onlyTouches.trans ?_ (State.nmBusWake_touch ..) ?sub; (case sub => decide))
    | (with_reducible show onlyTouches _ _ (State.nmFrame ..); refine onlyTouches.trans ?_ (State.nmFrame_touch ..) ?sub; (case sub => decide))
    | (with_reducible show onlyTouches _ _ (State.nmStreak ..); refine onlyTouches.trans ?_ (State.nmStreak_touch ..) ?sub; (case sub => decide))
    | (with_reducible show onlyTouches _ _ (State.onlyIf ..); refine onlyTouches.onlyIf ?_ fun x => ?_)
    | (with_reducible apply onlyTouches.ite)
    | (split)

theorem State.nmKaExpiry_touch (s : State) (c : Fin 4) :
    onlyTouches [.tmb, .fab, .pwr, .ecc, .pmc, .can, .nm, .dep, .nv, .free] s (State.nmKaExpiry s c) := by
  unfold State.nmKaExpiry
  dsimp only
  repeat' first
    | (with_reducible apply onlyTouches.refl)
    | (with_reducible show onlyTouches _ _ (State.advanceTo ..); refine onlyTouches.trans ?_ (State.advanceTo_touch ..) ?sub; (case sub => decide))
    | (with_reducible show onlyTouches _ _ (State.modNm ..); refine onlyTouches.trans ?_ (State.modNm_touch ..) ?sub; (case sub => decide))
    | (with_reducible show onlyTouches _ _ (State.nmSend ..); refine onlyTouches.trans ?_ (State.nmSend_touch ..) ?sub; (case sub => decide))
    | (with_reducible apply onlyTouches.ite)
    | (split)

theorem State.nmIdleExpiry_touch (s : State) (c : Fin 4) :
    onlyTouches [.tmb, .fab, .pwr, .ecc, .pmc, .can, .nm, .dep, .nv, .free] s (State.nmIdleExpiry s c) := by
  unfold State.nmIdleExpiry
  dsimp only
  repeat' first
    | (with_reducible apply onlyTouches.refl)
    | (with_reducible show onlyTouches _ _ (State.advanceTo ..); refine onlyTouches.trans ?_ (State.advanceTo_touch ..) ?sub; (case sub => decide))
    | (with_reducible show onlyTouches _ _ (State.modNm ..); refine onlyTouches.trans ?_ (State.modNm_touch ..) ?sub; (case sub => decide))
    | (with_reducible show onlyTouches _ _ (State.nmPrep ..); refine onlyTouches.trans ?_ (State.nmPrep_touch ..) ?sub; (case sub => decide))
    | (with_reducible apply onlyTouches.ite)
    | (split)

theorem State.nmFwExpiry_touch (s : State) (c : Fin 4) :
    onlyTouches [.tmb, .fab, .pwr, .ecc, .pmc, .can, .nm, .dep, .nv, .free] s (State.nmFwExpiry s c) := by
  unfold State.nmFwExpiry
  dsimp only
  repeat' first
    | (with_reducible apply onlyTouches.refl)
    | (with_reducible show onlyTouches _ _ (State.advanceTo ..); refine onlyTouches.trans ?_ (State.advanceTo_touch ..) ?sub; (case sub => decide))
    | (with_reducible show onlyTouches _ _ (State.modNm ..); refine onlyTouches.trans ?_ (State.modNm_touch ..) ?sub; (case sub => decide))
    | (with_reducible show onlyTouches _ _ (State.nmEv ..); refine onlyTouches.trans ?_ (State.nmEv_touch ..) ?sub; (case sub => decide))
    | (with_reducible show onlyTouches _ _ (State.nmPrep ..); refine onlyTouches.trans ?_ (State.nmPrep_touch ..) ?sub; (case sub => decide))
    | (with_reducible apply onlyTouches.ite)
    | (split)

theorem State.nmStreakEnd_touch (s : State) (c : Fin 4) (i : Fin 64) :
    onlyTouches [.tmb, .fab, .pwr, .ecc, .pmc, .nm, .dep, .nv, .free] s (State.nmStreakEnd s c i) := by
  unfold State.nmStreakEnd
  repeat' first
    | (with_reducible apply onlyTouches.refl)
    | (with_reducible show onlyTouches _ _ (State.advanceTo ..); refine onlyTouches.trans ?_ (State.advanceTo_touch ..) ?sub; (case sub => decide))
    | (with_reducible show onlyTouches _ _ (State.modNm ..); refine onlyTouches.trans ?_ (State.modNm_touch ..) ?sub; (case sub => decide))
    | (with_reducible apply onlyTouches.ite)
    | (split)

theorem State.nmWrite_touch (s : State) (off : Nat) (v : W32) :
    onlyTouches [.fab, .pwr, .can, .nm] s (State.nmWrite s off v) := by
  unfold State.nmWrite
  dsimp only
  repeat' first
    | (with_reducible apply onlyTouches.refl)
    | (with_reducible show onlyTouches _ _ (State.modNm ..); refine onlyTouches.trans ?_ (State.modNm_touch ..) ?sub; (case sub => decide))
    | (with_reducible show onlyTouches _ _ (State.nmCtlWrite ..); refine onlyTouches.trans ?_ (State.nmCtlWrite_touch ..) ?sub; (case sub => decide))
    | (with_reducible show onlyTouches _ _ (State.nmNsClr ..); refine onlyTouches.trans ?_ (State.nmNsClr_touch ..) ?sub; (case sub => decide))
    | (with_reducible show onlyTouches _ _ (State.nmOnline ..); refine onlyTouches.trans ?_ (State.nmOnline_touch ..) ?sub; (case sub => decide))
    | (with_reducible show onlyTouches _ _ (State.trxWrite ..); refine onlyTouches.trans ?_ (State.trxWrite_touch ..) ?sub; (case sub => decide))
    | (with_reducible show onlyTouches _ _ (State.onlyIf ..); refine onlyTouches.onlyIf ?_ fun x => ?_)
    | (with_reducible apply onlyTouches.ite)
    | (split)

theorem State.nmRcClear_touch (s : State) (off : Nat) :
    onlyTouches [.nm] s (State.nmRcClear s off) := by
  unfold State.nmRcClear
  dsimp only
  repeat' first
    | (with_reducible apply onlyTouches.refl)
    | (with_reducible show onlyTouches _ _ (State.modNm ..); refine onlyTouches.trans ?_ (State.modNm_touch ..) ?sub; (case sub => decide))
    | (with_reducible apply onlyTouches.ite)
    | (split)

end Sys2Proof.Machine
end

