-- ==== Sys2Proof/Laws/TouchPower.lean ====
section
/-! SUPPORT. The parts of State that each operation of Machine/Power.lean changes. -/

namespace Sys2Proof.Machine

theorem State.pwrRequest_touch (s : State) (key target : Nat) :
    onlyTouches [.pwr] s (State.pwrRequest s key target) := by
  unfold State.pwrRequest
  repeat' first
    | (with_reducible apply onlyTouches.refl)
    | (with_reducible show onlyTouches _ _ (State.modPwr ..); refine onlyTouches.trans ?_ (State.modPwr_touch ..) ?sub; (case sub => decide))
    | (with_reducible apply onlyTouches.ite)
    | (split)

theorem State.losePower_touch (s : State) :
    onlyTouches [.fab, .hs, .dig, .vlvCtl, .vg, .vd, .lmpErr, .ls, .inp, .sys, .up, .mem, .ecc, .lc, .que, .core, .depCore, .pmc, .can, .nm, .hp, .plk, .dep] s (State.losePower s) := by
  unfold State.losePower
  dsimp only
  repeat' first
    | (with_reducible apply onlyTouches.refl)
    | (with_reducible show onlyTouches _ _ (State.coreIslandReset ..); refine onlyTouches.trans ?_ (State.coreIslandReset_touch ..) ?sub; (case sub => decide))
    | (with_reducible apply onlyTouches.ite)
    | (split)
    | (with_reducible apply onlyTouches.put_fab_hs_dig_vlvCtl_vg_vd_lmpErr_ls_inp_up_mem_ecc_lc_que_depCore_can_nm_plk_dep; (case m => decide))

theorem State.enterOff_touch (s : State) (cause : Nat) :
    onlyTouches [.inp, .pwr, .up] s (State.enterOff s cause) := by
  unfold State.enterOff
  repeat' first
    | (with_reducible apply onlyTouches.refl)
    | (with_reducible apply onlyTouches.put_inp_pwr_up; (case m => decide))

theorem State.startUp_touch (s : State) (leaving porSrc : Nat) : onlyTouches [.tmb, .fab, .answer, .hs, .hsc, .dig, .vlvCtl, .vg, .vd, .lmpErr, .ls, .meas, .curve, .adm, .inp, .pwr, .sup, .sys, .up, .mem, .ecc, .lc, .que, .core, .depCore, .pmc, .can, .nm, .hp, .plk, .dep, .nv, .free] s (State.startUp s leaving porSrc) := by
  constructor; intro p hp; cases p <;> first | rfl | exact absurd (by decide) hp

theorem State.wakeFromOff_touch (s : State) :
    onlyTouches [.tmb, .fab, .answer, .hs, .hsc, .dig, .vlvCtl, .vg, .vd, .lmpErr, .ls, .meas, .curve, .adm, .inp, .pwr, .sup, .sys, .up, .mem, .ecc, .lc, .que, .core, .depCore, .pmc, .can, .nm, .hp, .plk, .dep, .nv, .free] s (State.wakeFromOff s) := by
  unfold State.wakeFromOff
  dsimp only
  repeat' first
    | (with_reducible apply onlyTouches.refl)
    | (with_reducible show onlyTouches _ _ (State.modPwr ..); refine onlyTouches.trans ?_ (State.modPwr_touch ..) ?sub; (case sub => decide))
    | (with_reducible show onlyTouches _ _ (State.startUp ..); refine onlyTouches.trans ?_ (State.startUp_touch ..) ?sub; (case sub => decide))

theorem State.entryDone_touch (s : State) :
    onlyTouches [.tmb, .fab, .answer, .hs, .hsc, .dig, .vlvCtl, .vg, .vd, .lmpErr, .ls, .meas, .curve, .adm, .inp, .pwr, .sup, .sys, .up, .mem, .ecc, .lc, .que, .core, .depCore, .pmc, .can, .nm, .hp, .plk, .dep, .nv, .free] s (State.entryDone s) := by
  unfold State.entryDone
  dsimp only
  repeat' first
    | (with_reducible apply onlyTouches.refl)
    | (with_reducible show onlyTouches _ _ (State.draw ..).2; refine onlyTouches.trans ?_ (State.draw_touch ..) ?sub; (case sub => decide))
    | (with_reducible show onlyTouches _ _ (State.enterOff ..); refine onlyTouches.trans ?_ (State.enterOff_touch ..) ?sub; (case sub => decide))
    | (with_reducible show onlyTouches _ _ (State.losePower ..); refine onlyTouches.trans ?_ (State.losePower_touch ..) ?sub; (case sub => decide))
    | (with_reducible show onlyTouches _ _ (State.modDep ..); refine onlyTouches.trans ?_ (State.modDep_touch ..) ?sub; (case sub => decide))
    | (with_reducible show onlyTouches _ _ (State.modHp ..); refine onlyTouches.trans ?_ (State.modHp_touch ..) ?sub; (case sub => decide))
    | (with_reducible show onlyTouches _ _ (State.modInp ..); refine onlyTouches.trans ?_ (State.modInp_touch ..) ?sub; (case sub => decide))
    | (with_reducible show onlyTouches _ _ (State.modPwr ..); refine onlyTouches.trans ?_ (State.modPwr_touch ..) ?sub; (case sub => decide))
    | (with_reducible show onlyTouches _ _ (State.wakeFromOff ..); refine onlyTouches.trans ?_ (State.wakeFromOff_touch ..) ?sub; (case sub => decide))
    | (with_reducible apply onlyTouches.ite)
    | (split)

theorem State.nextStage_touch (s : State) :
    onlyTouches [.pwr] s (State.nextStage s) := by
  unfold State.nextStage
  repeat' first
    | (with_reducible apply onlyTouches.refl)
    | (with_reducible show onlyTouches _ _ (State.modPwr ..); refine onlyTouches.trans ?_ (State.modPwr_touch ..) ?sub; (case sub => decide))

theorem State.stageAnswer_touch (s : State) :
    onlyTouches [.tmb, .fab, .answer, .hs, .hsc, .dig, .vlvCtl, .vg, .vd, .lmpErr, .ls, .meas, .curve, .adm, .inp, .pwr, .sup, .sys, .up, .mem, .ecc, .lc, .que, .core, .depCore, .pmc, .can, .nm, .hp, .plk, .dep, .nv, .free] s (State.stageAnswer s) := by
  unfold State.stageAnswer
  dsimp only
  repeat' first
    | (with_reducible apply onlyTouches.refl)
    | (with_reducible show onlyTouches _ _ (State.entryDone ..); refine onlyTouches.trans ?_ (State.entryDone_touch ..) ?sub; (case sub => decide))
    | (with_reducible show onlyTouches _ _ (State.entryRefuse ..); refine onlyTouches.trans ?_ (State.entryRefuse_touch ..) ?sub; (case sub => decide))
    | (with_reducible show onlyTouches _ _ (State.modAdm ..); refine onlyTouches.trans ?_ (State.modAdm_touch ..) ?sub; (case sub => decide))
    | (with_reducible show onlyTouches _ _ (State.modPwr ..); refine onlyTouches.trans ?_ (State.modPwr_touch ..) ?sub; (case sub => decide))
    | (with_reducible show onlyTouches _ _ (State.nextStage ..); refine onlyTouches.trans ?_ (State.nextStage_touch ..) ?sub; (case sub => decide))
    | (with_reducible apply onlyTouches.ite)
    | (split)

theorem State.qtmoTimeout_touch (s : State) :
    onlyTouches [.tmb, .fab, .adm, .pwr, .ecc, .pmc, .dep, .nv, .free] s (State.qtmoTimeout s) := by
  unfold State.qtmoTimeout
  repeat' first
    | (with_reducible apply onlyTouches.refl)
    | (with_reducible show onlyTouches _ _ (State.advanceTo ..); refine onlyTouches.trans ?_ (State.advanceTo_touch ..) ?sub; (case sub => decide))
    | (with_reducible show onlyTouches _ _ (State.entryRefuse ..); refine onlyTouches.trans ?_ (State.entryRefuse_touch ..) ?sub; (case sub => decide))
    | (with_reducible apply onlyTouches.ite)
    | (split)

theorem State.stageTimeout_touch (s : State) :
    onlyTouches [.tmb, .fab, .adm, .pwr, .ecc, .pmc, .dep, .nv, .free] s (State.stageTimeout s) := by
  unfold State.stageTimeout
  repeat' first
    | (with_reducible apply onlyTouches.refl)
    | (with_reducible show onlyTouches _ _ (State.advanceTo ..); refine onlyTouches.trans ?_ (State.advanceTo_touch ..) ?sub; (case sub => decide))
    | (with_reducible show onlyTouches _ _ (State.entryRefuse ..); refine onlyTouches.trans ?_ (State.entryRefuse_touch ..) ?sub; (case sub => decide))
    | (with_reducible apply onlyTouches.ite)

theorem State.sleepDone_touch (s : State) :
    onlyTouches [.fab, .hs, .hsc, .dig, .vg, .vd, .ls, .adm, .inp, .pwr, .sup, .sys, .mem, .ecc, .lc, .que, .core, .pmc, .hp, .plk, .dep, .free] s (State.sleepDone s) := by
  unfold State.sleepDone
  dsimp only
  repeat' first
    | (with_reducible apply onlyTouches.refl)
    | (with_reducible show onlyTouches _ _ (State.cpReset ..); refine onlyTouches.trans ?_ (State.cpReset_touch ..) ?sub; (case sub => decide))
    | (with_reducible show onlyTouches _ _ (State.eccRelease ..); refine onlyTouches.trans ?_ (State.eccRelease_touch ..) ?sub; (case sub => decide))
    | (with_reducible show onlyTouches _ _ (State.hubTake ..); refine onlyTouches.trans ?_ (State.hubTake_touch ..) ?sub; (case sub => decide))
    | (with_reducible show onlyTouches _ _ (State.modDep ..); refine onlyTouches.trans ?_ (State.modDep_touch ..) ?sub; (case sub => decide))
    | (with_reducible show onlyTouches _ _ (State.plkRelease ..); refine onlyTouches.trans ?_ (State.plkRelease_touch ..) ?sub; (case sub => decide))
    | (with_reducible show onlyTouches _ _ (State.queRelease ..); refine onlyTouches.trans ?_ (State.queRelease_touch ..) ?sub; (case sub => decide))
    | (with_reducible show onlyTouches _ _ (State.returnDone ..); refine onlyTouches.trans ?_ (State.returnDone_touch ..) ?sub; (case sub => decide))
    | (with_reducible show onlyTouches _ _ (State.onlyIf ..); refine onlyTouches.onlyIf ?_ fun x => ?_)
    | (with_reducible apply onlyTouches.ite)
    | (split)
    | (with_reducible apply onlyTouches.put_fab; (case m => decide))

theorem State.logicMap_touch (s : State) :
    onlyTouches [.fab, .inp] s (State.logicMap s) := by
  unfold State.logicMap
  repeat' first
    | (with_reducible apply onlyTouches.refl)
    | (with_reducible show onlyTouches _ _ (State.limpLoad ..); refine onlyTouches.trans ?_ (State.limpLoad_touch ..) ?sub; (case sub => decide))
    | (with_reducible apply onlyTouches.ite)

theorem State.freshTarget_touch (s : State) (t : Fin 67) :
    onlyTouches [.fab, .hs, .dig, .nv] s (State.freshTarget s t) := by
  unfold State.freshTarget
  dsimp only
  repeat' first
    | (with_reducible apply onlyTouches.refl)
    | (with_reducible show onlyTouches _ _ (State.calLoad ..); refine onlyTouches.trans ?_ (State.calLoad_touch ..) ?sub; (case sub => decide))
    | (with_reducible show onlyTouches _ _ (State.modEst ..); refine onlyTouches.trans ?_ (State.modEst_touch ..) ?sub; (case sub => decide))
    | (with_reducible show onlyTouches _ _ (State.modNv ..); refine onlyTouches.trans ?_ (State.modNv_touch ..) ?sub; (case sub => decide))
    | (with_reducible apply onlyTouches.ite)
    | (with_reducible apply onlyTouches.dite <;> intro h)

theorem State.releaseIslands_touch (s : State) :
    onlyTouches [.fab, .hs, .hsc, .dig, .vg, .vd, .ls, .meas, .curve, .adm, .inp, .sup, .up, .lc, .nv, .free] s (State.releaseIslands s) := by
  unfold State.releaseIslands
  dsimp only
  repeat' first
    | (with_reducible apply onlyTouches.refl)
    | (with_reducible show onlyTouches _ _ (State.admStart ..); refine onlyTouches.trans ?_ (State.admStart_touch ..) ?sub; (case sub => decide))
    | (with_reducible show onlyTouches _ _ (State.freshTarget ..); refine onlyTouches.trans ?_ (State.freshTarget_touch ..) ?sub; (case sub => decide))
    | (with_reducible show onlyTouches _ _ (State.limpRest ..); refine onlyTouches.trans ?_ (State.limpRest_touch ..) ?sub; (case sub => decide))
    | (with_reducible show onlyTouches _ _ (State.logicMap ..); refine onlyTouches.trans ?_ (State.logicMap_touch ..) ?sub; (case sub => decide))
    | (with_reducible show onlyTouches _ _ (State.modSup ..); refine onlyTouches.trans ?_ (State.modSup_touch ..) ?sub; (case sub => decide))
    | (with_reducible show onlyTouches _ _ (State.orphanStart ..); refine onlyTouches.trans ?_ (State.orphanStart_touch ..) ?sub; (case sub => decide))
    | (with_reducible show onlyTouches _ _ (State.onlyIf ..); refine onlyTouches.onlyIf ?_ fun x => ?_)
    | (with_reducible show onlyTouches _ _ (forFin ..); refine onlyTouches.forFin ?_ fun i x => ?_)
    | (with_reducible apply onlyTouches.ite)
    | (split)
    | (with_reducible apply onlyTouches.put_hsc_ls_meas_curve_up; (case m => decide))

theorem State.wakeNeeds_touch (s : State) :
    onlyTouches [.fab, .pwr, .can, .nm] s (State.wakeNeeds s) := by
  unfold State.wakeNeeds
  dsimp only
  repeat' first
    | (with_reducible apply onlyTouches.refl)
    | (with_reducible show onlyTouches _ _ (State.modNm ..); refine onlyTouches.trans ?_ (State.modNm_touch ..) ?sub; (case sub => decide))
    | (with_reducible show onlyTouches _ _ (State.nmNeedRose ..); refine onlyTouches.trans ?_ (State.nmNeedRose_touch ..) ?sub; (case sub => decide))
    | (with_reducible show onlyTouches _ _ (forFin ..); refine onlyTouches.forFin ?_ fun i x => ?_)
    | (with_reducible apply onlyTouches.ite)

theorem State.stepReady_touch (s : State) :
    onlyTouches [.fab, .hs, .hsc, .dig, .vg, .vd, .ls, .meas, .curve, .adm, .inp, .pwr, .sup, .sys, .up, .mem, .ecc, .lc, .que, .core, .pmc, .can, .nm, .hp, .plk, .dep, .nv, .free] s (State.stepReady s) := by
  unfold State.stepReady
  dsimp only
  repeat' first
    | (with_reducible apply onlyTouches.refl)
    | (with_reducible show onlyTouches _ _ (State.emit ..); refine onlyTouches.trans ?_ (State.emit_touch ..) ?sub; (case sub => decide))
    | (with_reducible show onlyTouches _ _ (State.logOwn ..); refine onlyTouches.trans ?_ (State.logOwn_touch ..) ?sub; (case sub => decide))
    | (with_reducible show onlyTouches _ _ (State.modDep ..); refine onlyTouches.trans ?_ (State.modDep_touch ..) ?sub; (case sub => decide))
    | (with_reducible show onlyTouches _ _ (State.modPwr ..); refine onlyTouches.trans ?_ (State.modPwr_touch ..) ?sub; (case sub => decide))
    | (with_reducible show onlyTouches _ _ (State.releaseIslands ..); refine onlyTouches.trans ?_ (State.releaseIslands_touch ..) ?sub; (case sub => decide))
    | (with_reducible show onlyTouches _ _ (State.sleepDone ..); refine onlyTouches.trans ?_ (State.sleepDone_touch ..) ?sub; (case sub => decide))
    | (with_reducible show onlyTouches _ _ (State.wakeNeeds ..); refine onlyTouches.trans ?_ (State.wakeNeeds_touch ..) ?sub; (case sub => decide))
    | (with_reducible show onlyTouches _ _ (State.onlyIf ..); refine onlyTouches.onlyIf ?_ fun x => ?_)
    | (with_reducible apply onlyTouches.ite)
    | (split)

theorem State.stepTimeout_touch (s : State) :
    onlyTouches [.tmb, .fab, .inp, .pwr, .up, .ecc, .pmc, .dep, .nv, .free] s (State.stepTimeout s) := by
  unfold State.stepTimeout
  dsimp only
  repeat' first
    | (with_reducible apply onlyTouches.refl)
    | (with_reducible show onlyTouches _ _ (State.advanceTo ..); refine onlyTouches.trans ?_ (State.advanceTo_touch ..) ?sub; (case sub => decide))
    | (with_reducible show onlyTouches _ _ (State.enterOff ..); refine onlyTouches.trans ?_ (State.enterOff_touch ..) ?sub; (case sub => decide))
    | (with_reducible show onlyTouches _ _ (State.modPwr ..); refine onlyTouches.trans ?_ (State.modPwr_touch ..) ?sub; (case sub => decide))
    | (with_reducible apply onlyTouches.ite)

theorem State.bulkDone_touch (s : State) :
    onlyTouches [.fab, .pwr, .sys, .mem, .ecc, .pmc, .plk, .free] s (State.bulkDone s) := by
  unfold State.bulkDone
  repeat' first
    | (with_reducible apply onlyTouches.refl)
    | (with_reducible show onlyTouches _ _ (State.modPwr ..); refine onlyTouches.trans ?_ (State.modPwr_touch ..) ?sub; (case sub => decide))
    | (with_reducible show onlyTouches _ _ (State.plkRelease ..); refine onlyTouches.trans ?_ (State.plkRelease_touch ..) ?sub; (case sub => decide))
    | (with_reducible apply onlyTouches.ite)

theorem State.wakePad_touch (s : State) (ms : Nat) :
    onlyTouches [.tmb, .fab, .answer, .hs, .hsc, .dig, .vlvCtl, .vg, .vd, .lmpErr, .ls, .meas, .curve, .adm, .inp, .pwr, .sup, .sys, .up, .mem, .ecc, .lc, .que, .core, .depCore, .pmc, .can, .nm, .hp, .plk, .dep, .nv, .free] s (State.wakePad s ms) := by
  unfold State.wakePad
  repeat' first
    | (with_reducible apply onlyTouches.refl)
    | (with_reducible show onlyTouches _ _ (State.wakeFromOff ..); refine onlyTouches.trans ?_ (State.wakeFromOff_touch ..) ?sub; (case sub => decide))
    | (with_reducible show onlyTouches _ _ (State.wakeReq ..); refine onlyTouches.trans ?_ (State.wakeReq_touch ..) ?sub; (case sub => decide))
    | (with_reducible apply onlyTouches.ite)

theorem State.holdRelease_touch (s : State) (v : W32) :
    onlyTouches [.pwr] s (State.holdRelease s v) := by
  unfold State.holdRelease
  repeat' first
    | (with_reducible apply onlyTouches.refl)
    | (with_reducible show onlyTouches _ _ (State.modPwr ..); refine onlyTouches.trans ?_ (State.modPwr_touch ..) ?sub; (case sub => decide))

theorem State.supplyChg_touch (s : State) :
    onlyTouches [.fab] s (State.supplyChg s) := by
  unfold State.supplyChg
  repeat' first
    | (with_reducible apply onlyTouches.refl)
    | (with_reducible show onlyTouches _ _ (State.emit ..); refine onlyTouches.trans ?_ (State.emit_touch ..) ?sub; (case sub => decide))
    | (with_reducible apply onlyTouches.ite)

theorem State.mainsChange_touch (s : State) (ok dc : Bool) :
    onlyTouches [.fab, .pwr, .sup] s (State.mainsChange s ok dc) := by
  unfold State.mainsChange
  dsimp only
  repeat' first
    | (with_reducible apply onlyTouches.refl)
    | (with_reducible show onlyTouches _ _ (State.modSup ..); refine onlyTouches.trans ?_ (State.modSup_touch ..) ?sub; (case sub => decide))
    | (with_reducible show onlyTouches _ _ (State.supplyChg ..); refine onlyTouches.trans ?_ (State.supplyChg_touch ..) ?sub; (case sub => decide))
    | (with_reducible show onlyTouches _ _ (State.wakeReq ..); refine onlyTouches.trans ?_ (State.wakeReq_touch ..) ?sub; (case sub => decide))
    | (with_reducible show onlyTouches _ _ (State.onlyIf ..); refine onlyTouches.onlyIf ?_ fun x => ?_)
    | (with_reducible apply onlyTouches.ite)

theorem State.vbkChange_touch (s : State) (ok : Bool) (v : Nat) :
    onlyTouches [.fab, .sup] s (State.vbkChange s ok v) := by
  unfold State.vbkChange
  dsimp only
  repeat' first
    | (with_reducible apply onlyTouches.refl)
    | (with_reducible show onlyTouches _ _ (State.modSup ..); refine onlyTouches.trans ?_ (State.modSup_touch ..) ?sub; (case sub => decide))
    | (with_reducible show onlyTouches _ _ (State.supplyChg ..); refine onlyTouches.trans ?_ (State.supplyChg_touch ..) ?sub; (case sub => decide))
    | (with_reducible apply onlyTouches.ite)

theorem State.sourceChange_touch (s : State) :
    onlyTouches [.tmb, .fab, .pwr, .sup, .ecc, .pmc, .dep, .nv, .free] s (State.sourceChange s) := by
  unfold State.sourceChange
  dsimp only
  repeat' first
    | (with_reducible apply onlyTouches.refl)
    | (with_reducible show onlyTouches _ _ (State.advanceTo ..); refine onlyTouches.trans ?_ (State.advanceTo_touch ..) ?sub; (case sub => decide))
    | (with_reducible show onlyTouches _ _ (State.modSup ..); refine onlyTouches.trans ?_ (State.modSup_touch ..) ?sub; (case sub => decide))
    | (with_reducible show onlyTouches _ _ (State.supplyChg ..); refine onlyTouches.trans ?_ (State.supplyChg_touch ..) ?sub; (case sub => decide))
    | (with_reducible show onlyTouches _ _ (State.wakeReq ..); refine onlyTouches.trans ?_ (State.wakeReq_touch ..) ?sub; (case sub => decide))
    | (with_reducible apply onlyTouches.ite)
    | (split)

theorem State.brownOut_touch (s : State) :
    onlyTouches [.inp, .pwr, .up] s (State.brownOut s) := by
  unfold State.brownOut
  repeat' first
    | (with_reducible apply onlyTouches.refl)
    | (with_reducible apply onlyTouches.ite)
    | (split)
    | (with_reducible apply onlyTouches.put_inp_pwr_up; (case m => decide))

theorem State.powerOnReset_touch (s : State) :
    onlyTouches [.tmb, .fab, .answer, .hs, .hsc, .dig, .vlvCtl, .vg, .vd, .lmpErr, .ls, .meas, .curve, .adm, .inp, .pwr, .sup, .sys, .up, .mem, .ecc, .lc, .que, .core, .depCore, .pmc, .can, .nm, .hp, .plk, .dep, .nv, .free] s (State.powerOnReset s) := by
  unfold State.powerOnReset
  repeat' first
    | (with_reducible apply onlyTouches.refl)
    | (with_reducible show onlyTouches _ _ (State.startUp ..); refine onlyTouches.trans ?_ (State.startUp_touch ..) ?sub; (case sub => decide))
    | (with_reducible apply onlyTouches.ite)

theorem State.rstnAssert_touch (s : State) :
    onlyTouches [.fab, .hs, .hsc, .dig, .vg, .vd, .ls, .adm, .inp, .pwr, .sup, .sys, .lc, .que, .core, .pmc, .hp, .dep, .free] s (State.rstnAssert s) := by
  unfold State.rstnAssert
  dsimp only
  repeat' first
    | (with_reducible apply onlyTouches.refl)
    | (with_reducible show onlyTouches _ _ (State.cpReset ..); refine onlyTouches.trans ?_ (State.cpReset_touch ..) ?sub; (case sub => decide))
    | (with_reducible show onlyTouches _ _ (State.modSup ..); refine onlyTouches.trans ?_ (State.modSup_touch ..) ?sub; (case sub => decide))
    | (with_reducible apply onlyTouches.ite)

theorem State.rstnRelease_touch (s : State) :
    onlyTouches [.sup] s (State.rstnRelease s) := by
  unfold State.rstnRelease
  repeat' first
    | (with_reducible apply onlyTouches.refl)
    | (with_reducible show onlyTouches _ _ (State.modSup ..); refine onlyTouches.trans ?_ (State.modSup_touch ..) ?sub; (case sub => decide))

theorem State.pwrWrite_touch (s : State) (off : Nat) (v : W32) :
    onlyTouches [.pwr] s (State.pwrWrite s off v) := by
  unfold State.pwrWrite
  repeat' first
    | (with_reducible apply onlyTouches.refl)
    | (with_reducible show onlyTouches _ _ (State.holdRelease ..); refine onlyTouches.trans ?_ (State.holdRelease_touch ..) ?sub; (case sub => decide))
    | (with_reducible show onlyTouches _ _ (State.modPwr ..); refine onlyTouches.trans ?_ (State.modPwr_touch ..) ?sub; (case sub => decide))
    | (with_reducible show onlyTouches _ _ (State.pwrRequest ..); refine onlyTouches.trans ?_ (State.pwrRequest_touch ..) ?sub; (case sub => decide))
    | (with_reducible apply onlyTouches.ite)

theorem State.pwrRcClear_touch (s : State) (off : Nat) :
    onlyTouches [.pwr] s (State.pwrRcClear s off) := by
  unfold State.pwrRcClear
  repeat' first
    | (with_reducible apply onlyTouches.refl)
    | (with_reducible show onlyTouches _ _ (State.modPwr ..); refine onlyTouches.trans ?_ (State.modPwr_touch ..) ?sub; (case sub => decide))
    | (with_reducible apply onlyTouches.ite)

end Sys2Proof.Machine
end

