-- ==== Sys2Proof/Laws/TouchFabric.lean ====
section
/-! SUPPORT. The parts of State that each operation of Machine/Fabric.lean changes. -/

namespace Sys2Proof.Machine

theorem State.uvCfgWrite_touch (s : State) (b : Fin 4) (v : W32) :
    onlyTouches [.hs, .hsc] s (State.uvCfgWrite s b v) := by
  unfold State.uvCfgWrite
  dsimp only
  repeat' first
    | (with_reducible apply onlyTouches.refl)
    | (with_reducible show onlyTouches _ _ (State.modHs ..); refine onlyTouches.trans ?_ (State.modHs_touch ..) ?sub; (case sub => decide))
    | (with_reducible show onlyTouches _ _ (State.modHsc ..); refine onlyTouches.trans ?_ (State.modHsc_touch ..) ?sub; (case sub => decide))
    | (with_reducible show onlyTouches _ _ (State.onlyIf ..); refine onlyTouches.onlyIf ?_ fun x => ?_)
    | (with_reducible show onlyTouches _ _ (forFin ..); refine onlyTouches.forFin ?_ fun i x => ?_)

theorem State.hsAllOff_touch (s : State) (same : Bool) :
    onlyTouches [.fab, .hs, .dig, .adm] s (State.hsAllOff s same) := by
  unfold State.hsAllOff
  repeat' first
    | (with_reducible apply onlyTouches.refl)
    | (with_reducible show onlyTouches _ _ (State.hsOffCmd ..); refine onlyTouches.trans ?_ (State.hsOffCmd_touch ..) ?sub; (case sub => decide))
    | (with_reducible show onlyTouches _ _ (State.onlyIf ..); refine onlyTouches.onlyIf ?_ fun x => ?_)
    | (with_reducible show onlyTouches _ _ (forFin ..); refine onlyTouches.forFin ?_ fun i x => ?_)

theorem State.hscWrite_touch (s : State) (off : Nat) (v : W32) :
    onlyTouches [.fab, .hs, .hsc, .dig, .vg, .vd, .ls, .adm, .inp, .free] s (State.hscWrite s off v) := by
  unfold State.hscWrite
  repeat' first
    | (with_reducible apply onlyTouches.refl)
    | (with_reducible show onlyTouches _ _ (State.hsAllOff ..); refine onlyTouches.trans ?_ (State.hsAllOff_touch ..) ?sub; (case sub => decide))
    | (with_reducible show onlyTouches _ _ (State.modHsc ..); refine onlyTouches.trans ?_ (State.modHsc_touch ..) ?sub; (case sub => decide))
    | (with_reducible show onlyTouches _ _ (State.orphanReclaim ..); refine onlyTouches.trans ?_ (State.orphanReclaim_touch ..) ?sub; (case sub => decide))
    | (with_reducible show onlyTouches _ _ (State.uvCfgWrite ..); refine onlyTouches.trans ?_ (State.uvCfgWrite_touch ..) ?sub; (case sub => decide))
    | (with_reducible show onlyTouches _ _ (State.onlyIf ..); refine onlyTouches.onlyIf ?_ fun x => ?_)
    | (with_reducible apply onlyTouches.ite)
    | (with_reducible apply onlyTouches.dite <;> intro h)

theorem State.measWrite_touch (s : State) (off : Nat) (v : W32) :
    onlyTouches [.dig, .meas] s (State.measWrite s off v) := by
  unfold State.measWrite
  repeat' first
    | (with_reducible apply onlyTouches.refl)
    | (with_reducible show onlyTouches _ _ (State.snapCmd ..); refine onlyTouches.trans ?_ (State.snapCmd_touch ..) ?sub; (case sub => decide))
    | (with_reducible apply onlyTouches.ite)
    | (split)
    | (with_reducible apply onlyTouches.put_meas; (case m => decide))

theorem State.tmbAlarm_touch (s : State) :
    onlyTouches [.tmb, .fab, .pwr, .ecc, .pmc, .dep, .nv, .free] s (State.tmbAlarm s) := by
  unfold State.tmbAlarm
  dsimp only
  repeat' first
    | (with_reducible apply onlyTouches.refl)
    | (with_reducible show onlyTouches _ _ (State.advanceTo ..); refine onlyTouches.trans ?_ (State.advanceTo_touch ..) ?sub; (case sub => decide))
    | (with_reducible show onlyTouches _ _ (State.emit ..); refine onlyTouches.trans ?_ (State.emit_touch ..) ?sub; (case sub => decide))
    | (with_reducible show onlyTouches _ _ (State.modTmb ..); refine onlyTouches.trans ?_ (State.modTmb_touch ..) ?sub; (case sub => decide))
    | (with_reducible show onlyTouches _ _ (State.wakeReq ..); refine onlyTouches.trans ?_ (State.wakeReq_touch ..) ?sub; (case sub => decide))
    | (with_reducible apply onlyTouches.ite)

theorem State.tmbWrap_touch (s : State) :
    onlyTouches [.tmb, .fab, .pwr, .ecc, .pmc, .dep, .nv, .free] s (State.tmbWrap s) := by
  unfold State.tmbWrap
  repeat' first
    | (with_reducible apply onlyTouches.refl)
    | (with_reducible show onlyTouches _ _ (State.advanceTo ..); refine onlyTouches.trans ?_ (State.advanceTo_touch ..) ?sub; (case sub => decide))

theorem State.regPut_touch (s : State) (c : Fin 4) (b off : Nat) (v : W32) :
    onlyTouches [.tmb, .fab, .hs, .hsc, .dig, .vlvCtl, .vg, .vd, .lmpErr, .ls, .meas, .curve, .adm, .inp, .pwr, .sup, .sys, .mem, .ecc, .lc, .que, .core, .pmc, .can, .nm, .hp, .plk, .dep, .nv, .free] s (State.regPut s c b off v) := by
  unfold State.regPut
  repeat' first
    | (with_reducible apply onlyTouches.refl)
    | (with_reducible show onlyTouches _ _ (State.admWrite ..); refine onlyTouches.trans ?_ (State.admWrite_touch ..) ?sub; (case sub => decide))
    | (with_reducible show onlyTouches _ _ (State.canWrite ..); refine onlyTouches.trans ?_ (State.canWrite_touch ..) ?sub; (case sub => decide))
    | (with_reducible show onlyTouches _ _ (State.curveBlockWrite ..); refine onlyTouches.trans ?_ (State.curveBlockWrite_touch ..) ?sub; (case sub => decide))
    | (with_reducible show onlyTouches _ _ (State.hpWrite ..); refine onlyTouches.trans ?_ (State.hpWrite_touch ..) ?sub; (case sub => decide))
    | (with_reducible show onlyTouches _ _ (State.hsWrite ..); refine onlyTouches.trans ?_ (State.hsWrite_touch ..) ?sub; (case sub => decide))
    | (with_reducible show onlyTouches _ _ (State.hscWrite ..); refine onlyTouches.trans ?_ (State.hscWrite_touch ..) ?sub; (case sub => decide))
    | (with_reducible show onlyTouches _ _ (State.inpWrite ..); refine onlyTouches.trans ?_ (State.inpWrite_touch ..) ?sub; (case sub => decide))
    | (with_reducible show onlyTouches _ _ (State.lchWrite ..); refine onlyTouches.trans ?_ (State.lchWrite_touch ..) ?sub; (case sub => decide))
    | (with_reducible show onlyTouches _ _ (State.lmpWrite ..); refine onlyTouches.trans ?_ (State.lmpWrite_touch ..) ?sub; (case sub => decide))
    | (with_reducible show onlyTouches _ _ (State.mbxWrite ..); refine onlyTouches.trans ?_ (State.mbxWrite_touch ..) ?sub; (case sub => decide))
    | (with_reducible show onlyTouches _ _ (State.measWrite ..); refine onlyTouches.trans ?_ (State.measWrite_touch ..) ?sub; (case sub => decide))
    | (with_reducible show onlyTouches _ _ (State.modTmb ..); refine onlyTouches.trans ?_ (State.modTmb_touch ..) ?sub; (case sub => decide))
    | (with_reducible show onlyTouches _ _ (State.nmWrite ..); refine onlyTouches.trans ?_ (State.nmWrite_touch ..) ?sub; (case sub => decide))
    | (with_reducible show onlyTouches _ _ (State.plkWrite ..); refine onlyTouches.trans ?_ (State.plkWrite_touch ..) ?sub; (case sub => decide))
    | (with_reducible show onlyTouches _ _ (State.pmcWrite ..); refine onlyTouches.trans ?_ (State.pmcWrite_touch ..) ?sub; (case sub => decide))
    | (with_reducible show onlyTouches _ _ (State.pwrWrite ..); refine onlyTouches.trans ?_ (State.pwrWrite_touch ..) ?sub; (case sub => decide))
    | (with_reducible show onlyTouches _ _ (State.queWrite ..); refine onlyTouches.trans ?_ (State.queWrite_touch ..) ?sub; (case sub => decide))
    | (with_reducible show onlyTouches _ _ (State.vlvWrite ..); refine onlyTouches.trans ?_ (State.vlvWrite_touch ..) ?sub; (case sub => decide))
    | (with_reducible apply onlyTouches.ite)
    | (with_reducible apply onlyTouches.dite <;> intro h)
    | (split)

theorem State.peakClear_touch (s : State) (t : Fin 67) :
    onlyTouches [.dig] s (State.peakClear s t) := by
  unfold State.peakClear
  repeat' first
    | (with_reducible apply onlyTouches.refl)
    | (with_reducible show onlyTouches _ _ (State.modDig ..); refine onlyTouches.trans ?_ (State.modDig_touch ..) ?sub; (case sub => decide))

theorem State.regAfter_touch (s : State) (c : Fin 4) (b off : Nat) :
    onlyTouches [.tmb, .dig, .vg, .adm, .pwr, .sys, .lc, .que, .pmc, .can, .nm, .hp, .plk] s (State.regAfter s c b off) := by
  unfold State.regAfter
  dsimp only
  repeat' first
    | (with_reducible apply onlyTouches.refl)
    | (with_reducible show onlyTouches _ _ (State.modAdm ..); refine onlyTouches.trans ?_ (State.modAdm_touch ..) ?sub; (case sub => decide))
    | (with_reducible show onlyTouches _ _ (State.modCan ..); refine onlyTouches.trans ?_ (State.modCan_touch ..) ?sub; (case sub => decide))
    | (with_reducible show onlyTouches _ _ (State.modHp ..); refine onlyTouches.trans ?_ (State.modHp_touch ..) ?sub; (case sub => decide))
    | (with_reducible show onlyTouches _ _ (State.modLc ..); refine onlyTouches.trans ?_ (State.modLc_touch ..) ?sub; (case sub => decide))
    | (with_reducible show onlyTouches _ _ (State.modPlk ..); refine onlyTouches.trans ?_ (State.modPlk_touch ..) ?sub; (case sub => decide))
    | (with_reducible show onlyTouches _ _ (State.modPmc ..); refine onlyTouches.trans ?_ (State.modPmc_touch ..) ?sub; (case sub => decide))
    | (with_reducible show onlyTouches _ _ (State.modQ ..); refine onlyTouches.trans ?_ (State.modQ_touch ..) ?sub; (case sub => decide))
    | (with_reducible show onlyTouches _ _ (State.modSys ..); refine onlyTouches.trans ?_ (State.modSys_touch ..) ?sub; (case sub => decide))
    | (with_reducible show onlyTouches _ _ (State.modTmb ..); refine onlyTouches.trans ?_ (State.modTmb_touch ..) ?sub; (case sub => decide))
    | (with_reducible show onlyTouches _ _ (State.modVg ..); refine onlyTouches.trans ?_ (State.modVg_touch ..) ?sub; (case sub => decide))
    | (with_reducible show onlyTouches _ _ (State.nmRcClear ..); refine onlyTouches.trans ?_ (State.nmRcClear_touch ..) ?sub; (case sub => decide))
    | (with_reducible show onlyTouches _ _ (State.peakClear ..); refine onlyTouches.trans ?_ (State.peakClear_touch ..) ?sub; (case sub => decide))
    | (with_reducible show onlyTouches _ _ (State.pwrRcClear ..); refine onlyTouches.trans ?_ (State.pwrRcClear_touch ..) ?sub; (case sub => decide))
    | (with_reducible apply onlyTouches.ite)
    | (with_reducible apply onlyTouches.dite <;> intro h)
    | (split)

theorem State.regTake_touch (s : State) (c : Fin 4) (b off : Nat) :
    onlyTouches [.tmb, .fab, .dig, .vg, .adm, .pwr, .sys, .lc, .que, .pmc, .can, .nm, .hp, .plk, .free] s (State.regTake s c b off).2 := by
  unfold State.regTake
  repeat' first
    | (with_reducible apply onlyTouches.refl)
    | (with_reducible show onlyTouches _ _ (State.queFwPop ..).2; refine onlyTouches.trans ?_ (State.queFwPop_touch ..) ?sub; (case sub => decide))
    | (with_reducible show onlyTouches _ _ (State.regAfter ..); refine onlyTouches.trans ?_ (State.regAfter_touch ..) ?sub; (case sub => decide))
    | (with_reducible apply onlyTouches.ite)
    | (split)

theorem State.served_touch (s : State) (c : Fin 4) :
    onlyTouches [.fab, .pmc, .free] s (State.served s c) := by
  unfold State.served
  dsimp only
  repeat' first
    | (with_reducible apply onlyTouches.refl)
    | (with_reducible show onlyTouches _ _ (State.coreCount ..); refine onlyTouches.trans ?_ (State.coreCount_touch ..) ?sub; (case sub => decide))
    | (with_reducible show onlyTouches _ _ (State.draw ..).2; refine onlyTouches.trans ?_ (State.draw_touch ..) ?sub; (case sub => decide))
    | (with_reducible show onlyTouches _ _ (State.fabCount ..); refine onlyTouches.trans ?_ (State.fabCount_touch ..) ?sub; (case sub => decide))

theorem State.unserved_touch (s : State) (c : Fin 4) :
    onlyTouches [.fab, .answer, .pmc] s (State.unserved s c) := by
  unfold State.unserved
  repeat' first
    | (with_reducible apply onlyTouches.refl)
    | (with_reducible show onlyTouches _ _ (State.coreCount ..); refine onlyTouches.trans ?_ (State.coreCount_touch ..) ?sub; (case sub => decide))
    | (with_reducible show onlyTouches _ _ (State.fabCount ..); refine onlyTouches.trans ?_ (State.fabCount_touch ..) ?sub; (case sub => decide))
    | (with_reducible apply onlyTouches.put_answer; (case m => decide))

theorem State.store_touch {ps : List Part} (s : State) (c : Fin 4) (isl : Nat) (f : State → State)
    (hf : ∀ x, onlyTouches ps x (f x)) (ha : ∀ q ∈ [Part.fab, .answer, .pmc, .free], q ∈ ps) :
    onlyTouches ps s (s.store c isl f) := by
  unfold State.store; split
  · exact onlyTouches.refl _ _
  · split
    · refine onlyTouches.put_answer ?_ (ha _ (by decide)) _
      exact ((State.served_touch s c).mono fun q hq => ha q ((by decide : ∀ q ∈ _, q ∈ _) q hq)).step (hf _)
    · exact (State.unserved_touch s c).mono fun q hq => ha q ((by decide : ∀ q ∈ _, q ∈ _) q hq)

theorem State.storeReg_touch (s : State) (c : Fin 4) (b off : Nat) (v : W32) :
    onlyTouches [.tmb, .fab, .answer, .hs, .hsc, .dig, .vlvCtl, .vg, .vd, .lmpErr, .ls, .meas, .curve, .adm, .inp, .pwr, .sup, .sys, .mem, .ecc, .lc, .que, .core, .pmc, .can, .nm, .hp, .plk, .dep, .nv, .free] s (State.storeReg s c b off v) := by
  unfold State.storeReg
  repeat' first
    | (with_reducible apply onlyTouches.refl)
    | (with_reducible show onlyTouches _ _ (State.modPmc ..); refine onlyTouches.trans ?_ (State.modPmc_touch ..) ?sub; (case sub => decide))
    | (with_reducible show onlyTouches _ _ (State.regPut ..); refine onlyTouches.trans ?_ (State.regPut_touch ..) ?sub; (case sub => decide))
    | (with_reducible show onlyTouches _ _ (State.store ..); refine onlyTouches.step ?_ (State.store_touch _ _ _ _ (fun x => ?_) ?sub); (case sub => decide))
    | (with_reducible apply onlyTouches.ite)
    | (split)

theorem State.loadReg_touch (s : State) (c : Fin 4) (b off : Nat) :
    onlyTouches [.tmb, .fab, .answer, .dig, .vg, .adm, .pwr, .sys, .lc, .que, .pmc, .can, .nm, .hp, .plk, .free] s (State.loadReg s c b off) := by
  unfold State.loadReg
  dsimp only
  repeat' first
    | (with_reducible apply onlyTouches.refl)
    | (with_reducible show onlyTouches _ _ (State.regTake ..).2; refine onlyTouches.trans ?_ (State.regTake_touch ..) ?sub; (case sub => decide))
    | (with_reducible show onlyTouches _ _ (State.served ..); refine onlyTouches.trans ?_ (State.served_touch ..) ?sub; (case sub => decide))
    | (with_reducible show onlyTouches _ _ (State.unserved ..); refine onlyTouches.trans ?_ (State.unserved_touch ..) ?sub; (case sub => decide))
    | (with_reducible apply onlyTouches.ite)
    | (split)
    | (with_reducible apply onlyTouches.put_answer; (case m => decide))

theorem State.depRead_touch (s : State) (b off : Nat) :
    onlyTouches [.tmb, .fab, .answer, .pmc, .free] s (State.depRead s b off) := by
  unfold State.depRead
  dsimp only
  repeat' first
    | (with_reducible apply onlyTouches.refl)
    | (with_reducible show onlyTouches _ _ (State.draw ..).2; refine onlyTouches.trans ?_ (State.draw_touch ..) ?sub; (case sub => decide))
    | (with_reducible show onlyTouches _ _ (State.fabCount ..); refine onlyTouches.trans ?_ (State.fabCount_touch ..) ?sub; (case sub => decide))
    | (with_reducible show onlyTouches _ _ (State.modPmc ..); refine onlyTouches.trans ?_ (State.modPmc_touch ..) ?sub; (case sub => decide))
    | (with_reducible show onlyTouches _ _ (State.modTmb ..); refine onlyTouches.trans ?_ (State.modTmb_touch ..) ?sub; (case sub => decide))
    | (with_reducible apply onlyTouches.ite)
    | (split)
    | (with_reducible apply onlyTouches.put_answer; (case m => decide))

end Sys2Proof.Machine
end

