-- ==== Sys2Proof/Laws/TouchCoreRun.lean ====
section
/-! SUPPORT. The parts of State that each operation of Machine/CoreRun.lean changes. -/

namespace Sys2Proof.Machine

theorem State.bulkServed_touch (s : State) (c : Fin 4) :
    onlyTouches [.fab, .pmc, .free] s (State.bulkServed s c) := by
  unfold State.bulkServed
  dsimp only
  repeat' first
    | (with_reducible apply onlyTouches.refl)
    | (with_reducible show onlyTouches _ _ (State.coreCount ..); refine onlyTouches.trans ?_ (State.coreCount_touch ..) ?sub; (case sub => decide))
    | (with_reducible show onlyTouches _ _ (State.draw ..).2; refine onlyTouches.trans ?_ (State.draw_touch ..) ?sub; (case sub => decide))

theorem State.memServed_touch (s : State) (c : Fin 4) (p : Nat) (kind : Kind) :
    onlyTouches [.fab, .pmc, .free] s (State.memServed s c p kind) := by
  unfold State.memServed
  repeat' first
    | (with_reducible apply onlyTouches.refl)
    | (with_reducible show onlyTouches _ _ (State.bulkServed ..); refine onlyTouches.trans ?_ (State.bulkServed_touch ..) ?sub; (case sub => decide))
    | (with_reducible show onlyTouches _ _ (State.coreCount ..); refine onlyTouches.trans ?_ (State.coreCount_touch ..) ?sub; (case sub => decide))
    | (with_reducible apply onlyTouches.ite)

theorem State.enter_touch (s : State) (c : Fin 4) (vec : Nat) (epc erpt : W16) (rpt : Bool) (segNo kind : Nat) (arg : W16) (ephys : Nat) (lvl : Option Nat) :
    onlyTouches [.core] s (State.enter s c vec epc erpt rpt segNo kind arg ephys lvl) := by
  unfold State.enter
  repeat' first
    | (with_reducible apply onlyTouches.refl)
    | (with_reducible show onlyTouches _ _ (State.modCore ..); refine onlyTouches.trans ?_ (State.modCore_touch ..) ?sub; (case sub => decide))

theorem State.intEntry_touch (s : State) (c : Fin 4) (l : Nat) :
    onlyTouches [.fab, .core, .pmc, .free] s (State.intEntry s c l) := by
  unfold State.intEntry
  dsimp only
  repeat' first
    | (with_reducible apply onlyTouches.refl)
    | (with_reducible show onlyTouches _ _ (State.coreCount ..); refine onlyTouches.trans ?_ (State.coreCount_touch ..) ?sub; (case sub => decide))
    | (with_reducible show onlyTouches _ _ (State.draw ..).2; refine onlyTouches.trans ?_ (State.draw_touch ..) ?sub; (case sub => decide))
    | (with_reducible show onlyTouches _ _ (State.enter ..); refine onlyTouches.trans ?_ (State.enter_touch ..) ?sub; (case sub => decide))

theorem State.retire_touch (s : State) (c : Fin 4) (k : Core) (op : CoreOp) (pass : Bool) :
    onlyTouches [.fab, .core, .pmc] s (State.retire s c k op pass) := by
  unfold State.retire
  dsimp only
  repeat' first
    | (with_reducible apply onlyTouches.refl)
    | (with_reducible show onlyTouches _ _ (State.coreCount ..); refine onlyTouches.trans ?_ (State.coreCount_touch ..) ?sub; (case sub => decide))
    | (with_reducible show onlyTouches _ _ (State.modCore ..); refine onlyTouches.trans ?_ (State.modCore_touch ..) ?sub; (case sub => decide))
    | (with_reducible show onlyTouches _ _ (State.modPmc ..); refine onlyTouches.trans ?_ (State.modPmc_touch ..) ?sub; (case sub => decide))
    | (with_reducible show onlyTouches _ _ (State.pmcWrap ..); refine onlyTouches.trans ?_ (State.pmcWrap_touch ..) ?sub; (case sub => decide))
    | (with_reducible show onlyTouches _ _ (State.onlyIf ..); refine onlyTouches.onlyIf ?_ fun x => ?_)

theorem State.tagEnd_touch (s : State) (s0 : State) (c : Fin 4) (k : Core) (p : Nat) (op : CoreOp) (pass : Bool) (vec : Option Nat) :
    onlyTouches [.fab, .pwr, .que, .pmc] s (State.tagEnd s s0 c k p op pass vec) := by
  unfold State.tagEnd
  repeat' first
    | (with_reducible apply onlyTouches.refl)
    | (with_reducible show onlyTouches _ _ (State.tagPush ..); refine onlyTouches.trans ?_ (State.tagPush_touch ..) ?sub; (case sub => decide))
    | (with_reducible show onlyTouches _ _ (State.onlyIf ..); refine onlyTouches.onlyIf ?_ fun x => ?_)

end Sys2Proof.Machine
end

