-- ==== Sys2Proof/Laws/TouchCoreSys.lean ====
section
/-! SUPPORT. The parts of State that each operation of Machine/CoreSys.lean changes. -/

namespace Sys2Proof.Machine

theorem State.waitResume_touch (s : State) (c : Fin 4) :
    onlyTouches [.core] s (State.waitResume s c) := by
  unfold State.waitResume
  repeat' first
    | (with_reducible apply onlyTouches.refl)
    | (with_reducible show onlyTouches _ _ (State.modCore ..); refine onlyTouches.trans ?_ (State.modCore_touch ..) ?sub; (case sub => decide))
    | (with_reducible apply onlyTouches.ite)

theorem State.intAccept_touch (s : State) (c : Fin 4) :
    onlyTouches [.fab, .core, .pmc, .free] s (State.intAccept s c) := by
  unfold State.intAccept
  dsimp only
  repeat' first
    | (with_reducible apply onlyTouches.refl)
    | (with_reducible show onlyTouches _ _ (State.intEntry ..); refine onlyTouches.trans ?_ (State.intEntry_touch ..) ?sub; (case sub => decide))
    | (with_reducible apply onlyTouches.ite)
    | (split)

theorem State.coreEvent_touch (s : State) (c : Fin 4) (i : Nat) :
    onlyTouches [.fab, .pwr, .core, .pmc] s (State.coreEvent s c i) := by
  unfold State.coreEvent
  dsimp only
  repeat' first
    | (with_reducible apply onlyTouches.refl)
    | (with_reducible show onlyTouches _ _ (State.modCore ..); refine onlyTouches.trans ?_ (State.modCore_touch ..) ?sub; (case sub => decide))
    | (with_reducible show onlyTouches _ _ (State.pull ..); refine onlyTouches.trans ?_ (State.pull_touch ..) ?sub; (case sub => decide))
    | (with_reducible apply onlyTouches.ite)
    | (split)
    | (with_reducible apply onlyTouches.put_fab; (case m => decide))

theorem State.swiSend_touch (s : State) (v : W16) :
    onlyTouches [.core] s (State.swiSend s v) := by
  unfold State.swiSend
  repeat' first
    | (with_reducible apply onlyTouches.refl)
    | (with_reducible show onlyTouches _ _ (State.modCore ..); refine onlyTouches.trans ?_ (State.modCore_touch ..) ?sub; (case sub => decide))
    | (with_reducible show onlyTouches _ _ (State.onlyIf ..); refine onlyTouches.onlyIf ?_ fun x => ?_)
    | (with_reducible show onlyTouches _ _ (forFin ..); refine onlyTouches.forFin ?_ fun i x => ?_)

theorem State.startCmd_touch (s : State) (c : Fin 4) (v : W16) :
    onlyTouches [.core] s (State.startCmd s c v) := by
  unfold State.startCmd
  repeat' first
    | (with_reducible apply onlyTouches.refl)
    | (with_reducible show onlyTouches _ _ (State.modCore ..); refine onlyTouches.trans ?_ (State.modCore_touch ..) ?sub; (case sub => decide))
    | (with_reducible show onlyTouches _ _ (State.onlyIf ..); refine onlyTouches.onlyIf ?_ fun x => ?_)
    | (with_reducible show onlyTouches _ _ (forFin ..); refine onlyTouches.forFin ?_ fun i x => ?_)
    | (with_reducible apply onlyTouches.ite)

theorem State.selPut_touch (s : State) (c : Fin 4) (n : Nat) (v : W16) :
    onlyTouches [.core] s (State.selPut s c n v) := by
  unfold State.selPut
  repeat' first
    | (with_reducible apply onlyTouches.refl)
    | (with_reducible show onlyTouches _ _ (State.modCore ..); refine onlyTouches.trans ?_ (State.modCore_touch ..) ?sub; (case sub => decide))
    | (with_reducible show onlyTouches _ _ (State.startCmd ..); refine onlyTouches.trans ?_ (State.startCmd_touch ..) ?sub; (case sub => decide))
    | (with_reducible show onlyTouches _ _ (State.swiSend ..); refine onlyTouches.trans ?_ (State.swiSend_touch ..) ?sub; (case sub => decide))
    | (with_reducible apply onlyTouches.ite)

theorem State.deputyRun_touch (s : State) (op : CoreOp) :
    onlyTouches [.fab, .core, .depCore, .pmc] s (State.deputyRun s op) := by
  unfold State.deputyRun
  dsimp only
  repeat' first
    | (with_reducible apply onlyTouches.refl)
    | (with_reducible apply onlyTouches.ite)
    | (split)
    | (with_reducible apply onlyTouches.put_depCore; (case m => decide))

end Sys2Proof.Machine
end

