-- ==== Sys2Proof/Laws/TouchCrikaWord.lean ====
section
/-! SUPPORT. The parts of State that each operation of Machine/CrikaWord.lean changes. -/

namespace Sys2Proof.Machine

theorem State.tagSelectRow_touch (s : State) (x : Fin 4) :
    onlyTouches [.pmc] s (State.tagSelectRow s x) := by
  unfold State.tagSelectRow
  repeat' first
    | (with_reducible apply onlyTouches.refl)
    | (with_reducible show onlyTouches _ _ (State.tagSelect ..); refine onlyTouches.trans ?_ (State.tagSelect_touch ..) ?sub; (case sub => decide))
    | (with_reducible apply onlyTouches.ite)

end Sys2Proof.Machine
end

