-- ==== Sys2Proof/Laws/TouchRows.lean ====
section
/-! SUPPORT. The parts of State that each operation of Machine/Rows.lean changes. -/

namespace Sys2Proof.Machine

theorem State.storeIf_touch {ps : List Part} (s : State) (c : Fin 4) (isl g : Nat) (f : State → State)
    (hf : ∀ x, onlyTouches ps x (f x)) (ha : ∀ q ∈ [Part.fab, .answer, .pmc, .free], q ∈ ps) :
    onlyTouches ps s (s.storeIf c isl g f) :=
  State.store_touch s c isl _ (fun x => onlyTouches.ite (onlyTouches.refl _ _) (hf x)) ha

theorem State.misaligned_touch (s : State) :
    onlyTouches [.answer] s (State.misaligned s) := by
  unfold State.misaligned
  repeat' first
    | (with_reducible apply onlyTouches.refl)
    | (with_reducible apply onlyTouches.ite)
    | (split)
    | (with_reducible apply onlyTouches.put_answer; (case m => decide))

theorem State.regWriteRow_touch (s : State) (c : Fin 4) (b off : Nat) (v : W32) :
    onlyTouches [.tmb, .fab, .answer, .hs, .hsc, .dig, .vlvCtl, .vg, .vd, .lmpErr, .ls, .meas, .curve, .adm, .inp, .pwr, .sup, .sys, .mem, .ecc, .lc, .que, .core, .pmc, .can, .nm, .hp, .plk, .dep, .nv, .free] s (State.regWriteRow s c b off v) := by
  unfold State.regWriteRow
  repeat' first
    | (with_reducible apply onlyTouches.refl)
    | (with_reducible show onlyTouches _ _ (State.misaligned ..); refine onlyTouches.trans ?_ (State.misaligned_touch ..) ?sub; (case sub => decide))
    | (with_reducible show onlyTouches _ _ (State.storeReg ..); refine onlyTouches.trans ?_ (State.storeReg_touch ..) ?sub; (case sub => decide))
    | (with_reducible apply onlyTouches.ite)

theorem State.regReadRow_touch (s : State) (c : Fin 4) (b off : Nat) :
    onlyTouches [.tmb, .fab, .answer, .dig, .vg, .adm, .pwr, .sys, .lc, .que, .pmc, .can, .nm, .hp, .plk, .free] s (State.regReadRow s c b off) := by
  unfold State.regReadRow
  repeat' first
    | (with_reducible apply onlyTouches.refl)
    | (with_reducible show onlyTouches _ _ (State.loadReg ..); refine onlyTouches.trans ?_ (State.loadReg_touch ..) ?sub; (case sub => decide))
    | (with_reducible show onlyTouches _ _ (State.misaligned ..); refine onlyTouches.trans ?_ (State.misaligned_touch ..) ?sub; (case sub => decide))
    | (with_reducible apply onlyTouches.ite)

theorem State.quePopRow_touch (s : State) (c : Fin 4) (q : Fin 32) (push : Option W32) :
    onlyTouches [.tmb, .fab, .answer, .dig, .vg, .adm, .pwr, .sys, .lc, .que, .pmc, .can, .nm, .hp, .plk, .free] s (State.quePopRow s c q push) := by
  unfold State.quePopRow
  dsimp only
  repeat' first
    | (with_reducible apply onlyTouches.refl)
    | (with_reducible show onlyTouches _ _ (State.loadReg ..); refine onlyTouches.trans ?_ (State.loadReg_touch ..) ?sub; (case sub => decide))
    | (with_reducible show onlyTouches _ _ (State.queFwPop ..).2; refine onlyTouches.trans ?_ (State.queFwPop_touch ..) ?sub; (case sub => decide))
    | (with_reducible show onlyTouches _ _ (State.quePushNow ..).2; refine onlyTouches.trans ?_ (State.quePushNow_touch ..) ?sub; (case sub => decide))
    | (with_reducible show onlyTouches _ _ (State.quePushPop ..).2; refine onlyTouches.trans ?_ (State.quePushPop_touch ..) ?sub; (case sub => decide))
    | (with_reducible show onlyTouches _ _ (State.served ..); refine onlyTouches.trans ?_ (State.served_touch ..) ?sub; (case sub => decide))
    | (with_reducible apply onlyTouches.ite)
    | (split)
    | (with_reducible apply onlyTouches.put_answer; (case m => decide))

theorem State.queFlushRow_touch (s : State) (c : Fin 4) (q : Fin 32) (push : Option W32) :
    onlyTouches [.fab, .answer, .que, .pmc, .free] s (State.queFlushRow s c q push) := by
  unfold State.queFlushRow
  repeat' first
    | (with_reducible apply onlyTouches.refl)
    | (with_reducible show onlyTouches _ _ (State.queFlush ..); refine onlyTouches.trans ?_ (State.queFlush_touch ..) ?sub; (case sub => decide))
    | (with_reducible show onlyTouches _ _ (State.quePushNow ..).2; refine onlyTouches.trans ?_ (State.quePushNow_touch ..) ?sub; (case sub => decide))
    | (with_reducible show onlyTouches _ _ (State.store ..); refine onlyTouches.step ?_ (State.store_touch _ _ _ _ (fun x => ?_) ?sub); (case sub => decide))
    | (split)

theorem State.latchRow_touch (s : State) (r : Fin 5) (b off : Nat) :
    onlyTouches [.tmb, .fab, .answer, .dig, .vg, .adm, .pwr, .sys, .lc, .que, .pmc, .can, .nm, .hp, .plk, .free] s (State.latchRow s r b off) := by
  unfold State.latchRow
  repeat' first
    | (with_reducible apply onlyTouches.refl)
    | (with_reducible show onlyTouches _ _ (State.depRead ..); refine onlyTouches.trans ?_ (State.depRead_touch ..) ?sub; (case sub => decide))
    | (with_reducible show onlyTouches _ _ (State.loadReg ..); refine onlyTouches.trans ?_ (State.loadReg_touch ..) ?sub; (case sub => decide))
    | (with_reducible apply onlyTouches.ite)
    | (with_reducible apply onlyTouches.dite <;> intro h)

theorem State.hsEntryRow_touch (s : State) (n : Fin 48) :
    onlyTouches [.hs, .adm] s (State.hsEntryRow s n) := by
  unfold State.hsEntryRow
  repeat' first
    | (with_reducible apply onlyTouches.refl)
    | (with_reducible show onlyTouches _ _ (State.deliver ..); refine State.deliver_touch _ _ _ _ (fun x => ?_) ?sub; (case sub => decide))
    | (with_reducible show onlyTouches _ _ (State.hsEntry ..); refine onlyTouches.trans ?_ (State.hsEntry_touch ..) ?sub; (case sub => decide))
    | (with_reducible apply onlyTouches.ite)

theorem State.cpResetRow_touch (s : State) (cause : Fin 4) :
    onlyTouches [.tmb, .fab, .hs, .hsc, .dig, .vg, .vd, .ls, .adm, .inp, .pwr, .sup, .sys, .ecc, .lc, .que, .core, .pmc, .hp, .dep, .nv, .free] s (State.cpResetRow s cause) := by
  unfold State.cpResetRow
  dsimp only
  repeat' first
    | (with_reducible apply onlyTouches.refl)
    | (with_reducible show onlyTouches _ _ (State.advanceTo ..); refine onlyTouches.trans ?_ (State.advanceTo_touch ..) ?sub; (case sub => decide))
    | (with_reducible show onlyTouches _ _ (State.cpReset ..); refine onlyTouches.trans ?_ (State.cpReset_touch ..) ?sub; (case sub => decide))
    | (with_reducible show onlyTouches _ _ (State.modDep ..); refine onlyTouches.trans ?_ (State.modDep_touch ..) ?sub; (case sub => decide))
    | (with_reducible apply onlyTouches.ite)
    | (split)

theorem State.bankUv_touch (s : State) (b : Fin 4) (mv us : Nat) :
    onlyTouches [.fab, .hs, .hsc, .dig, .vg, .vd, .ls, .adm, .pwr] s (State.bankUv s b mv us) := by
  unfold State.bankUv
  dsimp only
  repeat' first
    | (with_reducible apply onlyTouches.refl)
    | (with_reducible show onlyTouches _ _ (State.hsBankUv ..); refine onlyTouches.trans ?_ (State.hsBankUv_touch ..) ?sub; (case sub => decide))
    | (with_reducible show onlyTouches _ _ (State.lsUv ..); refine onlyTouches.trans ?_ (State.lsUv_touch ..) ?sub; (case sub => decide))
    | (with_reducible show onlyTouches _ _ (State.modHsc ..); refine onlyTouches.trans ?_ (State.modHsc_touch ..) ?sub; (case sub => decide))
    | (with_reducible show onlyTouches _ _ (State.vgUv ..); refine onlyTouches.trans ?_ (State.vgUv_touch ..) ?sub; (case sub => decide))
    | (with_reducible show onlyTouches _ _ (State.onlyIf ..); refine onlyTouches.onlyIf ?_ fun x => ?_)
    | (with_reducible show onlyTouches _ _ (forFin ..); refine onlyTouches.forFin ?_ fun i x => ?_)

theorem State.bankRecover_touch (s : State) (b : Fin 4) (mv us : Nat) :
    onlyTouches [.fab, .hs, .hsc, .dig, .ls, .adm] s (State.bankRecover s b mv us) := by
  unfold State.bankRecover
  dsimp only
  repeat' first
    | (with_reducible apply onlyTouches.refl)
    | (with_reducible show onlyTouches _ _ (State.hsBankOk ..); refine onlyTouches.trans ?_ (State.hsBankOk_touch ..) ?sub; (case sub => decide))
    | (with_reducible show onlyTouches _ _ (State.lsBankOk ..); refine onlyTouches.trans ?_ (State.lsBankOk_touch ..) ?sub; (case sub => decide))
    | (with_reducible show onlyTouches _ _ (State.modHsc ..); refine onlyTouches.trans ?_ (State.modHsc_touch ..) ?sub; (case sub => decide))
    | (with_reducible show onlyTouches _ _ (State.onlyIf ..); refine onlyTouches.onlyIf ?_ fun x => ?_)
    | (with_reducible show onlyTouches _ _ (forFin ..); refine onlyTouches.forFin ?_ fun i x => ?_)

theorem State.clampEndRow_touch (s : State) (n : Fin 48) (cycles : Nat) :
    onlyTouches [.tmb, .fab, .hs, .adm, .pwr, .ecc, .pmc, .dep, .nv, .free] s (State.clampEndRow s n cycles) := by
  unfold State.clampEndRow
  repeat' first
    | (with_reducible apply onlyTouches.refl)
    | (with_reducible show onlyTouches _ _ (State.advanceTo ..); refine onlyTouches.trans ?_ (State.advanceTo_touch ..) ?sub; (case sub => decide))
    | (with_reducible show onlyTouches _ _ (State.clampStop ..); refine onlyTouches.trans ?_ (State.clampStop_touch ..) ?sub; (case sub => decide))
    | (with_reducible apply onlyTouches.ite)
    | (split)

theorem State.sampleRow_touch (s : State) (t : Fin 67) (raw tj : Int) (top : Nat) :
    onlyTouches [.tmb, .fab, .hs, .dig, .vg, .vd, .ls, .pwr, .ecc, .pmc, .dep, .nv, .free] s (State.sampleRow s t raw tj top) := by
  unfold State.sampleRow
  dsimp only
  repeat' first
    | (with_reducible apply onlyTouches.refl)
    | (with_reducible show onlyTouches _ _ (State.advanceTo ..); refine onlyTouches.trans ?_ (State.advanceTo_touch ..) ?sub; (case sub => decide))
    | (with_reducible show onlyTouches _ _ (State.estSample ..); refine onlyTouches.trans ?_ (State.estSample_touch ..) ?sub; (case sub => decide))
    | (with_reducible show onlyTouches _ _ (State.sample ..); refine onlyTouches.trans ?_ (State.sample_touch ..) ?sub; (case sub => decide))
    | (with_reducible show onlyTouches _ _ (State.vdSample ..); refine onlyTouches.trans ?_ (State.vdSample_touch ..) ?sub; (case sub => decide))
    | (with_reducible apply onlyTouches.ite)
    | (with_reducible apply onlyTouches.dite <;> intro h)

theorem State.deadlineTick_touch (s : State) :
    onlyTouches [.tmb, .fab, .curve, .adm, .pwr, .ecc, .pmc, .dep, .nv, .free] s (State.deadlineTick s) := by
  unfold State.deadlineTick
  repeat' first
    | (with_reducible apply onlyTouches.refl)
    | (with_reducible show onlyTouches _ _ (State.admTickFrom ..); refine onlyTouches.trans ?_ (State.admTickFrom_touch ..) ?sub; (case sub => decide))
    | (split)

theorem State.siteStaleTick_touch (s : State) :
    onlyTouches [.tmb, .fab, .curve, .adm, .pwr, .ecc, .pmc, .dep, .nv, .free] s (State.siteStaleTick s) := by
  unfold State.siteStaleTick
  repeat' first
    | (with_reducible apply onlyTouches.refl)
    | (with_reducible show onlyTouches _ _ (State.admTickFrom ..); refine onlyTouches.trans ?_ (State.admTickFrom_touch ..) ?sub; (case sub => decide))
    | (with_reducible apply onlyTouches.ite)

theorem State.sensorStaleTick_touch (s : State) :
    onlyTouches [.tmb, .fab, .curve, .adm, .pwr, .ecc, .pmc, .dep, .nv, .free] s (State.sensorStaleTick s) := by
  unfold State.sensorStaleTick
  repeat' first
    | (with_reducible apply onlyTouches.refl)
    | (with_reducible show onlyTouches _ _ (State.admTickFrom ..); refine onlyTouches.trans ?_ (State.admTickFrom_touch ..) ?sub; (case sub => decide))
    | (split)

theorem State.periodTick_touch (s : State) (i : Fin 16) :
    onlyTouches [.tmb, .fab, .curve, .adm, .pwr, .ecc, .pmc, .dep, .nv, .free] s (State.periodTick s i) := by
  unfold State.periodTick
  repeat' first
    | (with_reducible apply onlyTouches.refl)
    | (with_reducible show onlyTouches _ _ (State.admTickFrom ..); refine onlyTouches.trans ?_ (State.admTickFrom_touch ..) ?sub; (case sub => decide))
    | (with_reducible apply onlyTouches.ite)

theorem State.windowTick_touch (s : State) (i : Fin 16) :
    onlyTouches [.tmb, .fab, .curve, .adm, .pwr, .ecc, .pmc, .dep, .nv, .free] s (State.windowTick s i) := by
  unfold State.windowTick
  repeat' first
    | (with_reducible apply onlyTouches.refl)
    | (with_reducible show onlyTouches _ _ (State.admTickFrom ..); refine onlyTouches.trans ?_ (State.admTickFrom_touch ..) ?sub; (case sub => decide))
    | (with_reducible apply onlyTouches.ite)

theorem State.sensorCopy_touch (s : State) (mv : Vector Nat 4) (tbp : Int) :
    onlyTouches [.adm] s (State.sensorCopy s mv tbp) := by
  unfold State.sensorCopy
  repeat' first
    | (with_reducible apply onlyTouches.refl)
    | (with_reducible show onlyTouches _ _ (State.toAdm ..); refine onlyTouches.trans ?_ (State.toAdm_touch ..) ?sub; (case sub => decide))
    | (with_reducible apply onlyTouches.ite)

theorem State.cntOvf_touch (s : State) (i : Fin 48) (same : Bool) :
    onlyTouches [.fab, .pmc] s (State.cntOvf s i same) := by
  unfold State.cntOvf
  dsimp only
  repeat' first
    | (with_reducible apply onlyTouches.refl)
    | (with_reducible show onlyTouches _ _ (State.modPmc ..); refine onlyTouches.trans ?_ (State.modPmc_touch ..) ?sub; (case sub => decide))
    | (with_reducible show onlyTouches _ _ (State.pmcWrap ..); refine onlyTouches.trans ?_ (State.pmcWrap_touch ..) ?sub; (case sub => decide))
    | (with_reducible apply onlyTouches.ite)
    | (with_reducible apply onlyTouches.dite <;> intro h)

theorem State.sensorRow_touch (s : State) (q : Fin 20) (x : Int) (hz : Nat) (dc : Bool) :
    onlyTouches [.fab, .dep, .nv] s (State.sensorRow s q x hz dc) := by
  unfold State.sensorRow
  repeat' first
    | (with_reducible apply onlyTouches.refl)
    | (with_reducible show onlyTouches _ _ (State.mainsSample ..); refine onlyTouches.trans ?_ (State.mainsSample_touch ..) ?sub; (case sub => decide))
    | (with_reducible show onlyTouches _ _ (State.railSample ..); refine onlyTouches.trans ?_ (State.railSample_touch ..) ?sub; (case sub => decide))
    | (with_reducible show onlyTouches _ _ (State.tempSample ..); refine onlyTouches.trans ?_ (State.tempSample_touch ..) ?sub; (case sub => decide))
    | (with_reducible apply onlyTouches.ite)
    | (with_reducible apply onlyTouches.dite <;> intro h)

theorem State.wakeRow_touch (s : State) (src : Fin 15) :
    onlyTouches [.pwr] s (State.wakeRow s src) := by
  unfold State.wakeRow
  repeat' first
    | (with_reducible apply onlyTouches.refl)
    | (with_reducible show onlyTouches _ _ (State.wakeReq ..); refine onlyTouches.trans ?_ (State.wakeReq_touch ..) ?sub; (case sub => decide))
    | (with_reducible show onlyTouches _ _ (State.onlyIf ..); refine onlyTouches.onlyIf ?_ fun x => ?_)
    | (with_reducible apply onlyTouches.ite)

theorem State.trimLock_touch (s : State) :
    onlyTouches [.tmb] s (State.trimLock s) := by
  unfold State.trimLock
  repeat' first
    | (with_reducible apply onlyTouches.refl)
    | (with_reducible show onlyTouches _ _ (State.modTmb ..); refine onlyTouches.trans ?_ (State.modTmb_touch ..) ?sub; (case sub => decide))
    | (with_reducible apply onlyTouches.ite)

end Sys2Proof.Machine
end

