-- ==== Sys2Proof/Laws/TouchWords.lean ====
section
/-! SUPPORT. The parts of State that a Crika word changes: every word its own core and the accounts of its execution;
a load or store also what a register or a memory access changes. -/

namespace Sys2Proof.Machine

theorem Trap.ephys_touch (t : Trap) (s : State) : onlyTouches [.free] s (t.ephys s).2 := by
  unfold Trap.ephys; split
  · exact onlyTouches.refl _ _
  · exact State.draw_touch s 28

theorem State.coreTrap_touch (s : State) (c : Fin 4) (t : Trap) :
    onlyTouches [.fab, .core, .pmc, .free] s (s.coreTrap c t) := by
  unfold State.coreTrap
  dsimp only
  split
  · exact ((State.modCore_touch s c _).mono (by decide)).trans (State.emit_touch _ _ _ _) (by decide)
  · refine onlyTouches.trans ?_ (State.coreCount_touch _ _ _ _ _) (by decide)
    refine onlyTouches.trans ?_ (State.enter_touch _ _ _ _ _ _ _ _ _ _ _) (by decide)
    exact (t.ephys_touch s).mono (by decide)

/-- Whatever way a word ends, only the parts listed differ. -/
def WordEnd.touches (ps : List Part) (s : State) (e : WordEnd) : Prop :=
  match e with
  | .done t => onlyTouches ps s t
  | .jump t => onlyTouches ps s t
  | .trap t _ => onlyTouches ps s t
  | .stall => True

/-- What the execution of any word may change: its core and the accounts kept of it. -/
def wordParts : List Part := [.fab, .pwr, .que, .core, .pmc, .free, .sys, .ecc, .answer]

theorem State.tagEnd_touch_word (s s0 : State) (c : Fin 4) (k : Core) (p : Nat) (op : CoreOp) (pass : Bool)
    (vec : Option Nat) : onlyTouches wordParts s (s.tagEnd s0 c k p op pass vec) :=
  (State.tagEnd_touch s s0 c k p op pass vec).mono (by decide)

theorem State.retire_touch_word (s : State) (c : Fin 4) (k : Core) (op : CoreOp) (pass : Bool) :
    onlyTouches wordParts s (s.retire c k op pass) := (State.retire_touch s c k op pass).mono (by decide)

theorem State.wordRun_touch {ps : List Part} (s : State) (c : Fin 4) (p : Nat) (op : CoreOp)
    (h : ∀ x, (op.run c x).touches ps x) (sub : ∀ q ∈ wordParts, q ∈ ps) : onlyTouches ps s (s.wordRun c p op) := by
  have h1 : onlyTouches ps s (s.tagIssue c) :=
    ((State.tagIssue_touch s c).mono (by decide : ∀ q ∈ _, q ∈ wordParts)).mono sub
  have he : ∀ e : WordEnd, (e = match op.bad with
      | some t => WordEnd.trap (s.tagIssue c) t
      | none => if !s.core[c].cond op.cond then .done (s.tagIssue c)
                else if op.priv && !s.core[c].k then .trap (s.tagIssue c) .priv else op.run c (s.tagIssue c)) →
      e.touches ps s := by
    intro e he
    subst he
    split
    · exact h1
    · split
      · exact h1
      · split
        · exact h1
        · have := h (s.tagIssue c)
          cases hr : op.run c (s.tagIssue c) <;> rw [hr] at this <;>
            first | trivial | exact h1.step this
  unfold State.wordRun
  dsimp only
  split
  · exact (((State.modCore_touch s c _).mono (by decide : ∀ q ∈ _, q ∈ wordParts)).put_answer (by decide) _).mono sub
  · rename_i s2 t heq
    exact ((he _ heq.symm).step (((State.coreTrap_touch s2 c t).mono (by decide : ∀ q ∈ _, q ∈ wordParts)).mono sub)).step
      ((State.tagEnd_touch_word _ _ _ _ _ _ _ _).mono sub)
  · rename_i s2 heq
    exact (((he _ heq.symm).step (((State.modCore_touch s2 c _).mono (by decide : ∀ q ∈ _, q ∈ wordParts)).mono sub)).step
      ((State.retire_touch_word _ _ _ _ _).mono sub)).step ((State.tagEnd_touch_word _ _ _ _ _ _ _ _).mono sub)
  · rename_i s2 heq
    exact ((he _ heq.symm).step ((State.retire_touch_word s2 _ _ _ _).mono sub)).step
      ((State.tagEnd_touch_word _ _ _ _ _ _ _ _).mono sub)

theorem State.coreStep_touch {ps : List Part} (s : State) (c : Fin 4) (f : Nat → State → CoreOp)
    (h : ∀ p x y, ((f p x).run c y).touches ps y) (sub : ∀ q ∈ wordParts, q ∈ ps) : onlyTouches ps s (s.coreStep c f) := by
  unfold State.coreStep
  dsimp only
  split
  · exact onlyTouches.refl _ _
  · split
    · exact ((State.intEntry_touch s c _).mono (by decide : ∀ q ∈ _, q ∈ wordParts)).mono sub
    · split
      · exact ((State.coreTrap_touch s c _).mono (by decide : ∀ q ∈ _, q ∈ wordParts)).mono sub
      · rename_i p _
        split
        · exact (((State.modCore_touch s c _).mono (by decide : ∀ q ∈ _, q ∈ wordParts)).put_answer (by decide) _).mono sub
        · have h1 : onlyTouches ps s ((s.memServed c p .fetch).eccRead p c.val).2 :=
            (((State.memServed_touch s c p .fetch).mono (by decide : ∀ q ∈ _, q ∈ wordParts)).step
              ((State.eccRead_touch _ p c.val).mono (by decide))).mono sub
          split
          · exact h1.step (State.wordRun_touch _ c p _ (h p _) sub)
          · exact (h1.step ((onlyTouches.onlyIf (onlyTouches.refl wordParts _) fun x =>
              (State.fabCount_touch x _ _ _).mono (by decide)).mono sub)).step
                (((State.coreTrap_touch _ c _).mono (by decide : ∀ q ∈ _, q ∈ wordParts)).mono sub)

theorem State.coreRun_touch {ps : List Part} (s : State) (c : Fin 4) (op : CoreOp)
    (h : ∀ x, (op.run c x).touches ps x) (sub : ∀ q ∈ wordParts, q ∈ ps) : onlyTouches ps s (s.coreRun c op) :=
  State.coreStep_touch s c _ (fun _ _ => h) sub

/-! ## Loads and stores -/

theorem State.coreLoad_touch {ps : List Part} (s : State) (c : Fin 4) (n : Fin 8) (a : W16) (size : Nat)
    (f : W32 → State → State) (hf : ∀ v x, onlyTouches ps x (f v x))
    (sub : ∀ q ∈ [Part.tmb, .fab, .answer, .dig, .vg, .adm, .pwr, .sys, .lc, .que, .pmc, .can, .nm, .hp, .plk, .free, .ecc,
      .mem], q ∈ ps) : (s.coreLoad c n a size f).touches ps s := by
  have hm : ∀ p, onlyTouches ps s ((s.memServed c p .load).loadBytes p size c.val).2.2 := fun p =>
    (((State.memServed_touch s c p .load).mono (ps := [.fab, .pwr, .pmc, .free, .sys, .ecc]) (by decide)).step
      ((State.loadBytes_touch _ _ _ _).mono (by decide))).mono fun q hq => sub q ((by decide : ∀ q ∈ _, q ∈ _) q hq)
  unfold State.coreLoad
  dsimp only
  split
  · exact onlyTouches.refl _ _
  · rename_i p _
    split
    · have h1 : onlyTouches ps s (s.loadReg c ((p - regBase) / 65536) (p % 65536)) :=
        (State.loadReg_touch s c _ _).mono fun q hq => sub q ((by decide : ∀ q ∈ _, q ∈ _) q hq)
      split
      · exact h1.step (hf _ _)
      · exact h1
    · split
      · trivial
      · split
        · exact (hm p).step (hf _ _)
        · refine onlyTouches.onlyIf (hm p) fun x => ?_
          exact (State.fabCount_touch x _ _ _).mono fun q hq => sub q ((by decide : ∀ q ∈ _, q ∈ _) q hq)

/-- Every part a register store may change. -/
def storeParts : List Part :=
  [.tmb, .fab, .answer, .hs, .hsc, .dig, .vlvCtl, .vg, .vd, .lmpErr, .ls, .meas, .curve, .adm, .inp, .pwr, .sup, .sys, .mem,
    .ecc, .lc, .que, .core, .pmc, .can, .nm, .hp, .plk, .dep, .nv, .free]

theorem State.coreStore_touch (s : State) (c : Fin 4) (n : Fin 8) (a : W16) (size : Nat) (v : W32)
    (f : State → State) (hf : ∀ x, onlyTouches storeParts x (f x)) :
    (s.coreStore c n a size v f).touches storeParts s := by
  have hm : ∀ p, onlyTouches storeParts s ((s.memServed c p .store).storeBytes p v.toNat size c.val).2 := fun p =>
    ((State.memServed_touch s c p .store).mono (by decide)).step ((State.storeBytes_touch _ _ _ _ _).mono (by decide))
  unfold State.coreStore
  dsimp only
  split
  · exact onlyTouches.refl _ _
  · rename_i p _
    split
    · have h1 : onlyTouches storeParts s (s.storeReg c ((p - regBase) / 65536) (p % 65536) v) :=
        (State.storeReg_touch s c _ _ _).mono (by decide)
      split
      · exact h1.step (hf _)
      · exact h1
    · split
      · trivial
      · split
        · exact (hm p).step (hf _)
        · exact onlyTouches.onlyIf (hm p) fun x => (State.fabCount_touch x _ _ _).mono (by decide)

end Sys2Proof.Machine
end

