-- ==== Sys2Proof/Laws/Ops.lean ====
section
/-! SUPPORT. What the operations that every family uses leave alone, field by field, and what a store does when it is
served. -/

namespace Sys2Proof.Machine

variable (s : State)

/-! ## Vectors -/

theorem upd_get {α : Type} {n : Nat} (v : Vector α n) (i : Fin n) (f : α → α) : (upd v i f)[i] = f v[i] := by
  simp [upd]

theorem upd_get_ne {α : Type} {n : Nat} (v : Vector α n) (i j : Fin n) (f : α → α) (h : j ≠ i) : (upd v i f)[j] = v[j] := by
  have : i.val ≠ j.val := fun e => h (Fin.ext e.symm)
  simp [upd, this]

/-- Reading one element of a vector of which another, or the same, was changed. -/
@[simp] theorem upd_getElem {α : Type} {n : Nat} (v : Vector α n) (i : Fin n) (f : α → α) (j : Nat) (h : j < n) :
    (upd v i f)[j] = if i.val = j then f v[j] else v[j] := by
  simp only [upd, Vector.getElem_set]
  split
  · subst j; rfl
  · rfl

theorem upd_at {α : Type} {n : Nat} (v : Vector α n) (i j : Fin n) (f : α → α) :
    (upd v i f)[j] = if j = i then f v[j] else v[j] := by
  split
  · subst j; exact upd_get v i f
  · exact upd_get_ne v i j f ‹_›

@[simp] theorem upd_upd {α : Type} {n : Nat} (v : Vector α n) (i : Fin n) (f g : α → α) :
    upd (upd v i f) i g = upd v i (fun x => g (f x)) := by
  simp [upd]

@[simp] theorem State.onlyIf_true (f : State → State) : s.onlyIf true f = f s := rfl
@[simp] theorem State.onlyIf_false (f : State → State) : s.onlyIf false f = s := rfl

/-! ## Events, messages, free values, counts -/

section
variable (src code : Nat) (arg : W32)
@[simp] theorem State.emit_tmb : (s.emit src code arg).tmb = s.tmb := (State.emit_touch s src code arg).same .tmb (by decide)
@[simp] theorem State.emit_answer : (s.emit src code arg).answer = s.answer := (State.emit_touch s src code arg).same .answer (by decide)
@[simp] theorem State.emit_otp : (s.emit src code arg).otp = s.otp := (State.emit_touch s src code arg).same .otp (by decide)
@[simp] theorem State.emit_hs : (s.emit src code arg).hs = s.hs := (State.emit_touch s src code arg).same .hs (by decide)
@[simp] theorem State.emit_hsc : (s.emit src code arg).hsc = s.hsc := (State.emit_touch s src code arg).same .hsc (by decide)
@[simp] theorem State.emit_dig : (s.emit src code arg).dig = s.dig := (State.emit_touch s src code arg).same .dig (by decide)
@[simp] theorem State.emit_vlvCtl : (s.emit src code arg).vlvCtl = s.vlvCtl := (State.emit_touch s src code arg).same .vlvCtl (by decide)
@[simp] theorem State.emit_vg : (s.emit src code arg).vg = s.vg := (State.emit_touch s src code arg).same .vg (by decide)
@[simp] theorem State.emit_vd : (s.emit src code arg).vd = s.vd := (State.emit_touch s src code arg).same .vd (by decide)
@[simp] theorem State.emit_lmpErr : (s.emit src code arg).lmpErr = s.lmpErr := (State.emit_touch s src code arg).same .lmpErr (by decide)
@[simp] theorem State.emit_ls : (s.emit src code arg).ls = s.ls := (State.emit_touch s src code arg).same .ls (by decide)
@[simp] theorem State.emit_meas : (s.emit src code arg).meas = s.meas := (State.emit_touch s src code arg).same .meas (by decide)
@[simp] theorem State.emit_curve : (s.emit src code arg).curve = s.curve := (State.emit_touch s src code arg).same .curve (by decide)
@[simp] theorem State.emit_adm : (s.emit src code arg).adm = s.adm := (State.emit_touch s src code arg).same .adm (by decide)
@[simp] theorem State.emit_inp : (s.emit src code arg).inp = s.inp := (State.emit_touch s src code arg).same .inp (by decide)
@[simp] theorem State.emit_limpStore : (s.emit src code arg).limpStore = s.limpStore := (State.emit_touch s src code arg).same .limpStore (by decide)
@[simp] theorem State.emit_pwr : (s.emit src code arg).pwr = s.pwr := (State.emit_touch s src code arg).same .pwr (by decide)
@[simp] theorem State.emit_sup : (s.emit src code arg).sup = s.sup := (State.emit_touch s src code arg).same .sup (by decide)
@[simp] theorem State.emit_sys : (s.emit src code arg).sys = s.sys := (State.emit_touch s src code arg).same .sys (by decide)
@[simp] theorem State.emit_up : (s.emit src code arg).up = s.up := (State.emit_touch s src code arg).same .up (by decide)
@[simp] theorem State.emit_mem : (s.emit src code arg).mem = s.mem := (State.emit_touch s src code arg).same .mem (by decide)
@[simp] theorem State.emit_ecc : (s.emit src code arg).ecc = s.ecc := (State.emit_touch s src code arg).same .ecc (by decide)
@[simp] theorem State.emit_lc : (s.emit src code arg).lc = s.lc := (State.emit_touch s src code arg).same .lc (by decide)
@[simp] theorem State.emit_que : (s.emit src code arg).que = s.que := (State.emit_touch s src code arg).same .que (by decide)
@[simp] theorem State.emit_core : (s.emit src code arg).core = s.core := (State.emit_touch s src code arg).same .core (by decide)
@[simp] theorem State.emit_depCore : (s.emit src code arg).depCore = s.depCore := (State.emit_touch s src code arg).same .depCore (by decide)
@[simp] theorem State.emit_pmc : (s.emit src code arg).pmc = s.pmc := (State.emit_touch s src code arg).same .pmc (by decide)
@[simp] theorem State.emit_can : (s.emit src code arg).can = s.can := (State.emit_touch s src code arg).same .can (by decide)
@[simp] theorem State.emit_nm : (s.emit src code arg).nm = s.nm := (State.emit_touch s src code arg).same .nm (by decide)
@[simp] theorem State.emit_hp : (s.emit src code arg).hp = s.hp := (State.emit_touch s src code arg).same .hp (by decide)
@[simp] theorem State.emit_plk : (s.emit src code arg).plk = s.plk := (State.emit_touch s src code arg).same .plk (by decide)
@[simp] theorem State.emit_dep : (s.emit src code arg).dep = s.dep := (State.emit_touch s src code arg).same .dep (by decide)
@[simp] theorem State.emit_nv : (s.emit src code arg).nv = s.nv := (State.emit_touch s src code arg).same .nv (by decide)
@[simp] theorem State.emit_free : (s.emit src code arg).free = s.free := (State.emit_touch s src code arg).same .free (by decide)
@[simp] theorem State.emit_pending : (s.emit src code arg).pending = s.pending := (State.emit_touch s src code arg).same .pending (by decide)
end

section
variable (src code : Nat) (arg : W32) (m : AdmIn)
@[simp] theorem State.emitAdm_tmb : (s.emitAdm src code arg m).tmb = s.tmb := (State.emitAdm_touch s src code arg m).same .tmb (by decide)
@[simp] theorem State.emitAdm_answer : (s.emitAdm src code arg m).answer = s.answer := (State.emitAdm_touch s src code arg m).same .answer (by decide)
@[simp] theorem State.emitAdm_otp : (s.emitAdm src code arg m).otp = s.otp := (State.emitAdm_touch s src code arg m).same .otp (by decide)
@[simp] theorem State.emitAdm_hs : (s.emitAdm src code arg m).hs = s.hs := (State.emitAdm_touch s src code arg m).same .hs (by decide)
@[simp] theorem State.emitAdm_hsc : (s.emitAdm src code arg m).hsc = s.hsc := (State.emitAdm_touch s src code arg m).same .hsc (by decide)
@[simp] theorem State.emitAdm_dig : (s.emitAdm src code arg m).dig = s.dig := (State.emitAdm_touch s src code arg m).same .dig (by decide)
@[simp] theorem State.emitAdm_vlvCtl : (s.emitAdm src code arg m).vlvCtl = s.vlvCtl := (State.emitAdm_touch s src code arg m).same .vlvCtl (by decide)
@[simp] theorem State.emitAdm_vg : (s.emitAdm src code arg m).vg = s.vg := (State.emitAdm_touch s src code arg m).same .vg (by decide)
@[simp] theorem State.emitAdm_vd : (s.emitAdm src code arg m).vd = s.vd := (State.emitAdm_touch s src code arg m).same .vd (by decide)
@[simp] theorem State.emitAdm_lmpErr : (s.emitAdm src code arg m).lmpErr = s.lmpErr := (State.emitAdm_touch s src code arg m).same .lmpErr (by decide)
@[simp] theorem State.emitAdm_ls : (s.emitAdm src code arg m).ls = s.ls := (State.emitAdm_touch s src code arg m).same .ls (by decide)
@[simp] theorem State.emitAdm_meas : (s.emitAdm src code arg m).meas = s.meas := (State.emitAdm_touch s src code arg m).same .meas (by decide)
@[simp] theorem State.emitAdm_curve : (s.emitAdm src code arg m).curve = s.curve := (State.emitAdm_touch s src code arg m).same .curve (by decide)
@[simp] theorem State.emitAdm_inp : (s.emitAdm src code arg m).inp = s.inp := (State.emitAdm_touch s src code arg m).same .inp (by decide)
@[simp] theorem State.emitAdm_limpStore : (s.emitAdm src code arg m).limpStore = s.limpStore := (State.emitAdm_touch s src code arg m).same .limpStore (by decide)
@[simp] theorem State.emitAdm_pwr : (s.emitAdm src code arg m).pwr = s.pwr := (State.emitAdm_touch s src code arg m).same .pwr (by decide)
@[simp] theorem State.emitAdm_sup : (s.emitAdm src code arg m).sup = s.sup := (State.emitAdm_touch s src code arg m).same .sup (by decide)
@[simp] theorem State.emitAdm_sys : (s.emitAdm src code arg m).sys = s.sys := (State.emitAdm_touch s src code arg m).same .sys (by decide)
@[simp] theorem State.emitAdm_up : (s.emitAdm src code arg m).up = s.up := (State.emitAdm_touch s src code arg m).same .up (by decide)
@[simp] theorem State.emitAdm_mem : (s.emitAdm src code arg m).mem = s.mem := (State.emitAdm_touch s src code arg m).same .mem (by decide)
@[simp] theorem State.emitAdm_ecc : (s.emitAdm src code arg m).ecc = s.ecc := (State.emitAdm_touch s src code arg m).same .ecc (by decide)
@[simp] theorem State.emitAdm_lc : (s.emitAdm src code arg m).lc = s.lc := (State.emitAdm_touch s src code arg m).same .lc (by decide)
@[simp] theorem State.emitAdm_que : (s.emitAdm src code arg m).que = s.que := (State.emitAdm_touch s src code arg m).same .que (by decide)
@[simp] theorem State.emitAdm_core : (s.emitAdm src code arg m).core = s.core := (State.emitAdm_touch s src code arg m).same .core (by decide)
@[simp] theorem State.emitAdm_depCore : (s.emitAdm src code arg m).depCore = s.depCore := (State.emitAdm_touch s src code arg m).same .depCore (by decide)
@[simp] theorem State.emitAdm_pmc : (s.emitAdm src code arg m).pmc = s.pmc := (State.emitAdm_touch s src code arg m).same .pmc (by decide)
@[simp] theorem State.emitAdm_can : (s.emitAdm src code arg m).can = s.can := (State.emitAdm_touch s src code arg m).same .can (by decide)
@[simp] theorem State.emitAdm_nm : (s.emitAdm src code arg m).nm = s.nm := (State.emitAdm_touch s src code arg m).same .nm (by decide)
@[simp] theorem State.emitAdm_hp : (s.emitAdm src code arg m).hp = s.hp := (State.emitAdm_touch s src code arg m).same .hp (by decide)
@[simp] theorem State.emitAdm_plk : (s.emitAdm src code arg m).plk = s.plk := (State.emitAdm_touch s src code arg m).same .plk (by decide)
@[simp] theorem State.emitAdm_dep : (s.emitAdm src code arg m).dep = s.dep := (State.emitAdm_touch s src code arg m).same .dep (by decide)
@[simp] theorem State.emitAdm_nv : (s.emitAdm src code arg m).nv = s.nv := (State.emitAdm_touch s src code arg m).same .nv (by decide)
@[simp] theorem State.emitAdm_free : (s.emitAdm src code arg m).free = s.free := (State.emitAdm_touch s src code arg m).same .free (by decide)
@[simp] theorem State.emitAdm_pending : (s.emitAdm src code arg m).pending = s.pending := (State.emitAdm_touch s src code arg m).same .pending (by decide)
end

section
variable (m : AdmIn)
@[simp] theorem State.toAdm_tmb : (s.toAdm m).tmb = s.tmb := (State.toAdm_touch s m).same .tmb (by decide)
@[simp] theorem State.toAdm_fab : (s.toAdm m).fab = s.fab := (State.toAdm_touch s m).same .fab (by decide)
@[simp] theorem State.toAdm_answer : (s.toAdm m).answer = s.answer := (State.toAdm_touch s m).same .answer (by decide)
@[simp] theorem State.toAdm_otp : (s.toAdm m).otp = s.otp := (State.toAdm_touch s m).same .otp (by decide)
@[simp] theorem State.toAdm_hs : (s.toAdm m).hs = s.hs := (State.toAdm_touch s m).same .hs (by decide)
@[simp] theorem State.toAdm_hsc : (s.toAdm m).hsc = s.hsc := (State.toAdm_touch s m).same .hsc (by decide)
@[simp] theorem State.toAdm_dig : (s.toAdm m).dig = s.dig := (State.toAdm_touch s m).same .dig (by decide)
@[simp] theorem State.toAdm_vlvCtl : (s.toAdm m).vlvCtl = s.vlvCtl := (State.toAdm_touch s m).same .vlvCtl (by decide)
@[simp] theorem State.toAdm_vg : (s.toAdm m).vg = s.vg := (State.toAdm_touch s m).same .vg (by decide)
@[simp] theorem State.toAdm_vd : (s.toAdm m).vd = s.vd := (State.toAdm_touch s m).same .vd (by decide)
@[simp] theorem State.toAdm_lmpErr : (s.toAdm m).lmpErr = s.lmpErr := (State.toAdm_touch s m).same .lmpErr (by decide)
@[simp] theorem State.toAdm_ls : (s.toAdm m).ls = s.ls := (State.toAdm_touch s m).same .ls (by decide)
@[simp] theorem State.toAdm_meas : (s.toAdm m).meas = s.meas := (State.toAdm_touch s m).same .meas (by decide)
@[simp] theorem State.toAdm_curve : (s.toAdm m).curve = s.curve := (State.toAdm_touch s m).same .curve (by decide)
@[simp] theorem State.toAdm_inp : (s.toAdm m).inp = s.inp := (State.toAdm_touch s m).same .inp (by decide)
@[simp] theorem State.toAdm_limpStore : (s.toAdm m).limpStore = s.limpStore := (State.toAdm_touch s m).same .limpStore (by decide)
@[simp] theorem State.toAdm_pwr : (s.toAdm m).pwr = s.pwr := (State.toAdm_touch s m).same .pwr (by decide)
@[simp] theorem State.toAdm_sup : (s.toAdm m).sup = s.sup := (State.toAdm_touch s m).same .sup (by decide)
@[simp] theorem State.toAdm_sys : (s.toAdm m).sys = s.sys := (State.toAdm_touch s m).same .sys (by decide)
@[simp] theorem State.toAdm_up : (s.toAdm m).up = s.up := (State.toAdm_touch s m).same .up (by decide)
@[simp] theorem State.toAdm_mem : (s.toAdm m).mem = s.mem := (State.toAdm_touch s m).same .mem (by decide)
@[simp] theorem State.toAdm_ecc : (s.toAdm m).ecc = s.ecc := (State.toAdm_touch s m).same .ecc (by decide)
@[simp] theorem State.toAdm_lc : (s.toAdm m).lc = s.lc := (State.toAdm_touch s m).same .lc (by decide)
@[simp] theorem State.toAdm_que : (s.toAdm m).que = s.que := (State.toAdm_touch s m).same .que (by decide)
@[simp] theorem State.toAdm_core : (s.toAdm m).core = s.core := (State.toAdm_touch s m).same .core (by decide)
@[simp] theorem State.toAdm_depCore : (s.toAdm m).depCore = s.depCore := (State.toAdm_touch s m).same .depCore (by decide)
@[simp] theorem State.toAdm_pmc : (s.toAdm m).pmc = s.pmc := (State.toAdm_touch s m).same .pmc (by decide)
@[simp] theorem State.toAdm_can : (s.toAdm m).can = s.can := (State.toAdm_touch s m).same .can (by decide)
@[simp] theorem State.toAdm_nm : (s.toAdm m).nm = s.nm := (State.toAdm_touch s m).same .nm (by decide)
@[simp] theorem State.toAdm_hp : (s.toAdm m).hp = s.hp := (State.toAdm_touch s m).same .hp (by decide)
@[simp] theorem State.toAdm_plk : (s.toAdm m).plk = s.plk := (State.toAdm_touch s m).same .plk (by decide)
@[simp] theorem State.toAdm_dep : (s.toAdm m).dep = s.dep := (State.toAdm_touch s m).same .dep (by decide)
@[simp] theorem State.toAdm_nv : (s.toAdm m).nv = s.nv := (State.toAdm_touch s m).same .nv (by decide)
@[simp] theorem State.toAdm_free : (s.toAdm m).free = s.free := (State.toAdm_touch s m).same .free (by decide)
@[simp] theorem State.toAdm_pending : (s.toAdm m).pending = s.pending := (State.toAdm_touch s m).same .pending (by decide)
end

section
variable (w : Nat)
@[simp] theorem State.draw_tmb : (s.draw w).2.tmb = s.tmb := (State.draw_touch s w).same .tmb (by decide)
@[simp] theorem State.draw_fab : (s.draw w).2.fab = s.fab := (State.draw_touch s w).same .fab (by decide)
@[simp] theorem State.draw_answer : (s.draw w).2.answer = s.answer := (State.draw_touch s w).same .answer (by decide)
@[simp] theorem State.draw_otp : (s.draw w).2.otp = s.otp := (State.draw_touch s w).same .otp (by decide)
@[simp] theorem State.draw_hs : (s.draw w).2.hs = s.hs := (State.draw_touch s w).same .hs (by decide)
@[simp] theorem State.draw_hsc : (s.draw w).2.hsc = s.hsc := (State.draw_touch s w).same .hsc (by decide)
@[simp] theorem State.draw_dig : (s.draw w).2.dig = s.dig := (State.draw_touch s w).same .dig (by decide)
@[simp] theorem State.draw_vlvCtl : (s.draw w).2.vlvCtl = s.vlvCtl := (State.draw_touch s w).same .vlvCtl (by decide)
@[simp] theorem State.draw_vg : (s.draw w).2.vg = s.vg := (State.draw_touch s w).same .vg (by decide)
@[simp] theorem State.draw_vd : (s.draw w).2.vd = s.vd := (State.draw_touch s w).same .vd (by decide)
@[simp] theorem State.draw_lmpErr : (s.draw w).2.lmpErr = s.lmpErr := (State.draw_touch s w).same .lmpErr (by decide)
@[simp] theorem State.draw_ls : (s.draw w).2.ls = s.ls := (State.draw_touch s w).same .ls (by decide)
@[simp] theorem State.draw_meas : (s.draw w).2.meas = s.meas := (State.draw_touch s w).same .meas (by decide)
@[simp] theorem State.draw_curve : (s.draw w).2.curve = s.curve := (State.draw_touch s w).same .curve (by decide)
@[simp] theorem State.draw_adm : (s.draw w).2.adm = s.adm := (State.draw_touch s w).same .adm (by decide)
@[simp] theorem State.draw_inp : (s.draw w).2.inp = s.inp := (State.draw_touch s w).same .inp (by decide)
@[simp] theorem State.draw_limpStore : (s.draw w).2.limpStore = s.limpStore := (State.draw_touch s w).same .limpStore (by decide)
@[simp] theorem State.draw_pwr : (s.draw w).2.pwr = s.pwr := (State.draw_touch s w).same .pwr (by decide)
@[simp] theorem State.draw_sup : (s.draw w).2.sup = s.sup := (State.draw_touch s w).same .sup (by decide)
@[simp] theorem State.draw_sys : (s.draw w).2.sys = s.sys := (State.draw_touch s w).same .sys (by decide)
@[simp] theorem State.draw_up : (s.draw w).2.up = s.up := (State.draw_touch s w).same .up (by decide)
@[simp] theorem State.draw_mem : (s.draw w).2.mem = s.mem := (State.draw_touch s w).same .mem (by decide)
@[simp] theorem State.draw_ecc : (s.draw w).2.ecc = s.ecc := (State.draw_touch s w).same .ecc (by decide)
@[simp] theorem State.draw_lc : (s.draw w).2.lc = s.lc := (State.draw_touch s w).same .lc (by decide)
@[simp] theorem State.draw_que : (s.draw w).2.que = s.que := (State.draw_touch s w).same .que (by decide)
@[simp] theorem State.draw_core : (s.draw w).2.core = s.core := (State.draw_touch s w).same .core (by decide)
@[simp] theorem State.draw_depCore : (s.draw w).2.depCore = s.depCore := (State.draw_touch s w).same .depCore (by decide)
@[simp] theorem State.draw_pmc : (s.draw w).2.pmc = s.pmc := (State.draw_touch s w).same .pmc (by decide)
@[simp] theorem State.draw_can : (s.draw w).2.can = s.can := (State.draw_touch s w).same .can (by decide)
@[simp] theorem State.draw_nm : (s.draw w).2.nm = s.nm := (State.draw_touch s w).same .nm (by decide)
@[simp] theorem State.draw_hp : (s.draw w).2.hp = s.hp := (State.draw_touch s w).same .hp (by decide)
@[simp] theorem State.draw_plk : (s.draw w).2.plk = s.plk := (State.draw_touch s w).same .plk (by decide)
@[simp] theorem State.draw_dep : (s.draw w).2.dep = s.dep := (State.draw_touch s w).same .dep (by decide)
@[simp] theorem State.draw_nv : (s.draw w).2.nv = s.nv := (State.draw_touch s w).same .nv (by decide)
@[simp] theorem State.draw_pending : (s.draw w).2.pending = s.pending := (State.draw_touch s w).same .pending (by decide)
end

section
variable (evt req n : Nat)
@[simp] theorem State.fabCount_tmb : (s.fabCount evt req n).tmb = s.tmb := (State.fabCount_touch s evt req n).same .tmb (by decide)
@[simp] theorem State.fabCount_answer : (s.fabCount evt req n).answer = s.answer := (State.fabCount_touch s evt req n).same .answer (by decide)
@[simp] theorem State.fabCount_otp : (s.fabCount evt req n).otp = s.otp := (State.fabCount_touch s evt req n).same .otp (by decide)
@[simp] theorem State.fabCount_hs : (s.fabCount evt req n).hs = s.hs := (State.fabCount_touch s evt req n).same .hs (by decide)
@[simp] theorem State.fabCount_hsc : (s.fabCount evt req n).hsc = s.hsc := (State.fabCount_touch s evt req n).same .hsc (by decide)
@[simp] theorem State.fabCount_dig : (s.fabCount evt req n).dig = s.dig := (State.fabCount_touch s evt req n).same .dig (by decide)
@[simp] theorem State.fabCount_vlvCtl : (s.fabCount evt req n).vlvCtl = s.vlvCtl := (State.fabCount_touch s evt req n).same .vlvCtl (by decide)
@[simp] theorem State.fabCount_vg : (s.fabCount evt req n).vg = s.vg := (State.fabCount_touch s evt req n).same .vg (by decide)
@[simp] theorem State.fabCount_vd : (s.fabCount evt req n).vd = s.vd := (State.fabCount_touch s evt req n).same .vd (by decide)
@[simp] theorem State.fabCount_lmpErr : (s.fabCount evt req n).lmpErr = s.lmpErr := (State.fabCount_touch s evt req n).same .lmpErr (by decide)
@[simp] theorem State.fabCount_ls : (s.fabCount evt req n).ls = s.ls := (State.fabCount_touch s evt req n).same .ls (by decide)
@[simp] theorem State.fabCount_meas : (s.fabCount evt req n).meas = s.meas := (State.fabCount_touch s evt req n).same .meas (by decide)
@[simp] theorem State.fabCount_curve : (s.fabCount evt req n).curve = s.curve := (State.fabCount_touch s evt req n).same .curve (by decide)
@[simp] theorem State.fabCount_adm : (s.fabCount evt req n).adm = s.adm := (State.fabCount_touch s evt req n).same .adm (by decide)
@[simp] theorem State.fabCount_inp : (s.fabCount evt req n).inp = s.inp := (State.fabCount_touch s evt req n).same .inp (by decide)
@[simp] theorem State.fabCount_limpStore : (s.fabCount evt req n).limpStore = s.limpStore := (State.fabCount_touch s evt req n).same .limpStore (by decide)
@[simp] theorem State.fabCount_pwr : (s.fabCount evt req n).pwr = s.pwr := (State.fabCount_touch s evt req n).same .pwr (by decide)
@[simp] theorem State.fabCount_sup : (s.fabCount evt req n).sup = s.sup := (State.fabCount_touch s evt req n).same .sup (by decide)
@[simp] theorem State.fabCount_sys : (s.fabCount evt req n).sys = s.sys := (State.fabCount_touch s evt req n).same .sys (by decide)
@[simp] theorem State.fabCount_up : (s.fabCount evt req n).up = s.up := (State.fabCount_touch s evt req n).same .up (by decide)
@[simp] theorem State.fabCount_mem : (s.fabCount evt req n).mem = s.mem := (State.fabCount_touch s evt req n).same .mem (by decide)
@[simp] theorem State.fabCount_ecc : (s.fabCount evt req n).ecc = s.ecc := (State.fabCount_touch s evt req n).same .ecc (by decide)
@[simp] theorem State.fabCount_lc : (s.fabCount evt req n).lc = s.lc := (State.fabCount_touch s evt req n).same .lc (by decide)
@[simp] theorem State.fabCount_que : (s.fabCount evt req n).que = s.que := (State.fabCount_touch s evt req n).same .que (by decide)
@[simp] theorem State.fabCount_core : (s.fabCount evt req n).core = s.core := (State.fabCount_touch s evt req n).same .core (by decide)
@[simp] theorem State.fabCount_depCore : (s.fabCount evt req n).depCore = s.depCore := (State.fabCount_touch s evt req n).same .depCore (by decide)
@[simp] theorem State.fabCount_can : (s.fabCount evt req n).can = s.can := (State.fabCount_touch s evt req n).same .can (by decide)
@[simp] theorem State.fabCount_nm : (s.fabCount evt req n).nm = s.nm := (State.fabCount_touch s evt req n).same .nm (by decide)
@[simp] theorem State.fabCount_hp : (s.fabCount evt req n).hp = s.hp := (State.fabCount_touch s evt req n).same .hp (by decide)
@[simp] theorem State.fabCount_plk : (s.fabCount evt req n).plk = s.plk := (State.fabCount_touch s evt req n).same .plk (by decide)
@[simp] theorem State.fabCount_dep : (s.fabCount evt req n).dep = s.dep := (State.fabCount_touch s evt req n).same .dep (by decide)
@[simp] theorem State.fabCount_nv : (s.fabCount evt req n).nv = s.nv := (State.fabCount_touch s evt req n).same .nv (by decide)
@[simp] theorem State.fabCount_free : (s.fabCount evt req n).free = s.free := (State.fabCount_touch s evt req n).same .free (by decide)
@[simp] theorem State.fabCount_pending : (s.fabCount evt req n).pending = s.pending := (State.fabCount_touch s evt req n).same .pending (by decide)
end

section
variable (c : Fin 4) (evt n : Nat) (k : Bool)
@[simp] theorem State.coreCount_tmb : (s.coreCount c evt n k).tmb = s.tmb := (State.coreCount_touch s c evt n k).same .tmb (by decide)
@[simp] theorem State.coreCount_answer : (s.coreCount c evt n k).answer = s.answer := (State.coreCount_touch s c evt n k).same .answer (by decide)
@[simp] theorem State.coreCount_otp : (s.coreCount c evt n k).otp = s.otp := (State.coreCount_touch s c evt n k).same .otp (by decide)
@[simp] theorem State.coreCount_hs : (s.coreCount c evt n k).hs = s.hs := (State.coreCount_touch s c evt n k).same .hs (by decide)
@[simp] theorem State.coreCount_hsc : (s.coreCount c evt n k).hsc = s.hsc := (State.coreCount_touch s c evt n k).same .hsc (by decide)
@[simp] theorem State.coreCount_dig : (s.coreCount c evt n k).dig = s.dig := (State.coreCount_touch s c evt n k).same .dig (by decide)
@[simp] theorem State.coreCount_vlvCtl : (s.coreCount c evt n k).vlvCtl = s.vlvCtl := (State.coreCount_touch s c evt n k).same .vlvCtl (by decide)
@[simp] theorem State.coreCount_vg : (s.coreCount c evt n k).vg = s.vg := (State.coreCount_touch s c evt n k).same .vg (by decide)
@[simp] theorem State.coreCount_vd : (s.coreCount c evt n k).vd = s.vd := (State.coreCount_touch s c evt n k).same .vd (by decide)
@[simp] theorem State.coreCount_lmpErr : (s.coreCount c evt n k).lmpErr = s.lmpErr := (State.coreCount_touch s c evt n k).same .lmpErr (by decide)
@[simp] theorem State.coreCount_ls : (s.coreCount c evt n k).ls = s.ls := (State.coreCount_touch s c evt n k).same .ls (by decide)
@[simp] theorem State.coreCount_meas : (s.coreCount c evt n k).meas = s.meas := (State.coreCount_touch s c evt n k).same .meas (by decide)
@[simp] theorem State.coreCount_curve : (s.coreCount c evt n k).curve = s.curve := (State.coreCount_touch s c evt n k).same .curve (by decide)
@[simp] theorem State.coreCount_adm : (s.coreCount c evt n k).adm = s.adm := (State.coreCount_touch s c evt n k).same .adm (by decide)
@[simp] theorem State.coreCount_inp : (s.coreCount c evt n k).inp = s.inp := (State.coreCount_touch s c evt n k).same .inp (by decide)
@[simp] theorem State.coreCount_limpStore : (s.coreCount c evt n k).limpStore = s.limpStore := (State.coreCount_touch s c evt n k).same .limpStore (by decide)
@[simp] theorem State.coreCount_pwr : (s.coreCount c evt n k).pwr = s.pwr := (State.coreCount_touch s c evt n k).same .pwr (by decide)
@[simp] theorem State.coreCount_sup : (s.coreCount c evt n k).sup = s.sup := (State.coreCount_touch s c evt n k).same .sup (by decide)
@[simp] theorem State.coreCount_sys : (s.coreCount c evt n k).sys = s.sys := (State.coreCount_touch s c evt n k).same .sys (by decide)
@[simp] theorem State.coreCount_up : (s.coreCount c evt n k).up = s.up := (State.coreCount_touch s c evt n k).same .up (by decide)
@[simp] theorem State.coreCount_mem : (s.coreCount c evt n k).mem = s.mem := (State.coreCount_touch s c evt n k).same .mem (by decide)
@[simp] theorem State.coreCount_ecc : (s.coreCount c evt n k).ecc = s.ecc := (State.coreCount_touch s c evt n k).same .ecc (by decide)
@[simp] theorem State.coreCount_lc : (s.coreCount c evt n k).lc = s.lc := (State.coreCount_touch s c evt n k).same .lc (by decide)
@[simp] theorem State.coreCount_que : (s.coreCount c evt n k).que = s.que := (State.coreCount_touch s c evt n k).same .que (by decide)
@[simp] theorem State.coreCount_core : (s.coreCount c evt n k).core = s.core := (State.coreCount_touch s c evt n k).same .core (by decide)
@[simp] theorem State.coreCount_depCore : (s.coreCount c evt n k).depCore = s.depCore := (State.coreCount_touch s c evt n k).same .depCore (by decide)
@[simp] theorem State.coreCount_can : (s.coreCount c evt n k).can = s.can := (State.coreCount_touch s c evt n k).same .can (by decide)
@[simp] theorem State.coreCount_nm : (s.coreCount c evt n k).nm = s.nm := (State.coreCount_touch s c evt n k).same .nm (by decide)
@[simp] theorem State.coreCount_hp : (s.coreCount c evt n k).hp = s.hp := (State.coreCount_touch s c evt n k).same .hp (by decide)
@[simp] theorem State.coreCount_plk : (s.coreCount c evt n k).plk = s.plk := (State.coreCount_touch s c evt n k).same .plk (by decide)
@[simp] theorem State.coreCount_dep : (s.coreCount c evt n k).dep = s.dep := (State.coreCount_touch s c evt n k).same .dep (by decide)
@[simp] theorem State.coreCount_nv : (s.coreCount c evt n k).nv = s.nv := (State.coreCount_touch s c evt n k).same .nv (by decide)
@[simp] theorem State.coreCount_free : (s.coreCount c evt n k).free = s.free := (State.coreCount_touch s c evt n k).same .free (by decide)
@[simp] theorem State.coreCount_pending : (s.coreCount c evt n k).pending = s.pending := (State.coreCount_touch s c evt n k).same .pending (by decide)
end

section
variable (c : Fin 4)
@[simp] theorem State.served_tmb : (s.served c).tmb = s.tmb := (State.served_touch s c).same .tmb (by decide)
@[simp] theorem State.served_answer : (s.served c).answer = s.answer := (State.served_touch s c).same .answer (by decide)
@[simp] theorem State.served_otp : (s.served c).otp = s.otp := (State.served_touch s c).same .otp (by decide)
@[simp] theorem State.served_hs : (s.served c).hs = s.hs := (State.served_touch s c).same .hs (by decide)
@[simp] theorem State.served_hsc : (s.served c).hsc = s.hsc := (State.served_touch s c).same .hsc (by decide)
@[simp] theorem State.served_dig : (s.served c).dig = s.dig := (State.served_touch s c).same .dig (by decide)
@[simp] theorem State.served_vlvCtl : (s.served c).vlvCtl = s.vlvCtl := (State.served_touch s c).same .vlvCtl (by decide)
@[simp] theorem State.served_vg : (s.served c).vg = s.vg := (State.served_touch s c).same .vg (by decide)
@[simp] theorem State.served_vd : (s.served c).vd = s.vd := (State.served_touch s c).same .vd (by decide)
@[simp] theorem State.served_lmpErr : (s.served c).lmpErr = s.lmpErr := (State.served_touch s c).same .lmpErr (by decide)
@[simp] theorem State.served_ls : (s.served c).ls = s.ls := (State.served_touch s c).same .ls (by decide)
@[simp] theorem State.served_meas : (s.served c).meas = s.meas := (State.served_touch s c).same .meas (by decide)
@[simp] theorem State.served_curve : (s.served c).curve = s.curve := (State.served_touch s c).same .curve (by decide)
@[simp] theorem State.served_adm : (s.served c).adm = s.adm := (State.served_touch s c).same .adm (by decide)
@[simp] theorem State.served_inp : (s.served c).inp = s.inp := (State.served_touch s c).same .inp (by decide)
@[simp] theorem State.served_limpStore : (s.served c).limpStore = s.limpStore := (State.served_touch s c).same .limpStore (by decide)
@[simp] theorem State.served_pwr : (s.served c).pwr = s.pwr := (State.served_touch s c).same .pwr (by decide)
@[simp] theorem State.served_sup : (s.served c).sup = s.sup := (State.served_touch s c).same .sup (by decide)
@[simp] theorem State.served_sys : (s.served c).sys = s.sys := (State.served_touch s c).same .sys (by decide)
@[simp] theorem State.served_up : (s.served c).up = s.up := (State.served_touch s c).same .up (by decide)
@[simp] theorem State.served_mem : (s.served c).mem = s.mem := (State.served_touch s c).same .mem (by decide)
@[simp] theorem State.served_ecc : (s.served c).ecc = s.ecc := (State.served_touch s c).same .ecc (by decide)
@[simp] theorem State.served_lc : (s.served c).lc = s.lc := (State.served_touch s c).same .lc (by decide)
@[simp] theorem State.served_que : (s.served c).que = s.que := (State.served_touch s c).same .que (by decide)
@[simp] theorem State.served_core : (s.served c).core = s.core := (State.served_touch s c).same .core (by decide)
@[simp] theorem State.served_depCore : (s.served c).depCore = s.depCore := (State.served_touch s c).same .depCore (by decide)
@[simp] theorem State.served_can : (s.served c).can = s.can := (State.served_touch s c).same .can (by decide)
@[simp] theorem State.served_nm : (s.served c).nm = s.nm := (State.served_touch s c).same .nm (by decide)
@[simp] theorem State.served_hp : (s.served c).hp = s.hp := (State.served_touch s c).same .hp (by decide)
@[simp] theorem State.served_plk : (s.served c).plk = s.plk := (State.served_touch s c).same .plk (by decide)
@[simp] theorem State.served_dep : (s.served c).dep = s.dep := (State.served_touch s c).same .dep (by decide)
@[simp] theorem State.served_nv : (s.served c).nv = s.nv := (State.served_touch s c).same .nv (by decide)
@[simp] theorem State.served_pending : (s.served c).pending = s.pending := (State.served_touch s c).same .pending (by decide)
end

section
variable (src : Nat)
@[simp] theorem State.wakeReq_tmb : (s.wakeReq src).tmb = s.tmb := (State.wakeReq_touch s src).same .tmb (by decide)
@[simp] theorem State.wakeReq_fab : (s.wakeReq src).fab = s.fab := (State.wakeReq_touch s src).same .fab (by decide)
@[simp] theorem State.wakeReq_answer : (s.wakeReq src).answer = s.answer := (State.wakeReq_touch s src).same .answer (by decide)
@[simp] theorem State.wakeReq_otp : (s.wakeReq src).otp = s.otp := (State.wakeReq_touch s src).same .otp (by decide)
@[simp] theorem State.wakeReq_hs : (s.wakeReq src).hs = s.hs := (State.wakeReq_touch s src).same .hs (by decide)
@[simp] theorem State.wakeReq_hsc : (s.wakeReq src).hsc = s.hsc := (State.wakeReq_touch s src).same .hsc (by decide)
@[simp] theorem State.wakeReq_dig : (s.wakeReq src).dig = s.dig := (State.wakeReq_touch s src).same .dig (by decide)
@[simp] theorem State.wakeReq_vlvCtl : (s.wakeReq src).vlvCtl = s.vlvCtl := (State.wakeReq_touch s src).same .vlvCtl (by decide)
@[simp] theorem State.wakeReq_vg : (s.wakeReq src).vg = s.vg := (State.wakeReq_touch s src).same .vg (by decide)
@[simp] theorem State.wakeReq_vd : (s.wakeReq src).vd = s.vd := (State.wakeReq_touch s src).same .vd (by decide)
@[simp] theorem State.wakeReq_lmpErr : (s.wakeReq src).lmpErr = s.lmpErr := (State.wakeReq_touch s src).same .lmpErr (by decide)
@[simp] theorem State.wakeReq_ls : (s.wakeReq src).ls = s.ls := (State.wakeReq_touch s src).same .ls (by decide)
@[simp] theorem State.wakeReq_meas : (s.wakeReq src).meas = s.meas := (State.wakeReq_touch s src).same .meas (by decide)
@[simp] theorem State.wakeReq_curve : (s.wakeReq src).curve = s.curve := (State.wakeReq_touch s src).same .curve (by decide)
@[simp] theorem State.wakeReq_adm : (s.wakeReq src).adm = s.adm := (State.wakeReq_touch s src).same .adm (by decide)
@[simp] theorem State.wakeReq_inp : (s.wakeReq src).inp = s.inp := (State.wakeReq_touch s src).same .inp (by decide)
@[simp] theorem State.wakeReq_limpStore : (s.wakeReq src).limpStore = s.limpStore := (State.wakeReq_touch s src).same .limpStore (by decide)
@[simp] theorem State.wakeReq_sup : (s.wakeReq src).sup = s.sup := (State.wakeReq_touch s src).same .sup (by decide)
@[simp] theorem State.wakeReq_sys : (s.wakeReq src).sys = s.sys := (State.wakeReq_touch s src).same .sys (by decide)
@[simp] theorem State.wakeReq_up : (s.wakeReq src).up = s.up := (State.wakeReq_touch s src).same .up (by decide)
@[simp] theorem State.wakeReq_mem : (s.wakeReq src).mem = s.mem := (State.wakeReq_touch s src).same .mem (by decide)
@[simp] theorem State.wakeReq_ecc : (s.wakeReq src).ecc = s.ecc := (State.wakeReq_touch s src).same .ecc (by decide)
@[simp] theorem State.wakeReq_lc : (s.wakeReq src).lc = s.lc := (State.wakeReq_touch s src).same .lc (by decide)
@[simp] theorem State.wakeReq_que : (s.wakeReq src).que = s.que := (State.wakeReq_touch s src).same .que (by decide)
@[simp] theorem State.wakeReq_core : (s.wakeReq src).core = s.core := (State.wakeReq_touch s src).same .core (by decide)
@[simp] theorem State.wakeReq_depCore : (s.wakeReq src).depCore = s.depCore := (State.wakeReq_touch s src).same .depCore (by decide)
@[simp] theorem State.wakeReq_pmc : (s.wakeReq src).pmc = s.pmc := (State.wakeReq_touch s src).same .pmc (by decide)
@[simp] theorem State.wakeReq_can : (s.wakeReq src).can = s.can := (State.wakeReq_touch s src).same .can (by decide)
@[simp] theorem State.wakeReq_nm : (s.wakeReq src).nm = s.nm := (State.wakeReq_touch s src).same .nm (by decide)
@[simp] theorem State.wakeReq_hp : (s.wakeReq src).hp = s.hp := (State.wakeReq_touch s src).same .hp (by decide)
@[simp] theorem State.wakeReq_plk : (s.wakeReq src).plk = s.plk := (State.wakeReq_touch s src).same .plk (by decide)
@[simp] theorem State.wakeReq_dep : (s.wakeReq src).dep = s.dep := (State.wakeReq_touch s src).same .dep (by decide)
@[simp] theorem State.wakeReq_nv : (s.wakeReq src).nv = s.nv := (State.wakeReq_touch s src).same .nv (by decide)
@[simp] theorem State.wakeReq_free : (s.wakeReq src).free = s.free := (State.wakeReq_touch s src).same .free (by decide)
@[simp] theorem State.wakeReq_pending : (s.wakeReq src).pending = s.pending := (State.wakeReq_touch s src).same .pending (by decide)
end

/-! ## Time -/

section
variable (t : Nat)
@[simp] theorem State.advanceTo_answer : (s.advanceTo t).answer = s.answer := (State.advanceTo_touch s t).same .answer (by decide)
@[simp] theorem State.advanceTo_otp : (s.advanceTo t).otp = s.otp := (State.advanceTo_touch s t).same .otp (by decide)
@[simp] theorem State.advanceTo_hs : (s.advanceTo t).hs = s.hs := (State.advanceTo_touch s t).same .hs (by decide)
@[simp] theorem State.advanceTo_hsc : (s.advanceTo t).hsc = s.hsc := (State.advanceTo_touch s t).same .hsc (by decide)
@[simp] theorem State.advanceTo_dig : (s.advanceTo t).dig = s.dig := (State.advanceTo_touch s t).same .dig (by decide)
@[simp] theorem State.advanceTo_vlvCtl : (s.advanceTo t).vlvCtl = s.vlvCtl := (State.advanceTo_touch s t).same .vlvCtl (by decide)
@[simp] theorem State.advanceTo_vg : (s.advanceTo t).vg = s.vg := (State.advanceTo_touch s t).same .vg (by decide)
@[simp] theorem State.advanceTo_vd : (s.advanceTo t).vd = s.vd := (State.advanceTo_touch s t).same .vd (by decide)
@[simp] theorem State.advanceTo_lmpErr : (s.advanceTo t).lmpErr = s.lmpErr := (State.advanceTo_touch s t).same .lmpErr (by decide)
@[simp] theorem State.advanceTo_ls : (s.advanceTo t).ls = s.ls := (State.advanceTo_touch s t).same .ls (by decide)
@[simp] theorem State.advanceTo_meas : (s.advanceTo t).meas = s.meas := (State.advanceTo_touch s t).same .meas (by decide)
@[simp] theorem State.advanceTo_curve : (s.advanceTo t).curve = s.curve := (State.advanceTo_touch s t).same .curve (by decide)
@[simp] theorem State.advanceTo_adm : (s.advanceTo t).adm = s.adm := (State.advanceTo_touch s t).same .adm (by decide)
@[simp] theorem State.advanceTo_inp : (s.advanceTo t).inp = s.inp := (State.advanceTo_touch s t).same .inp (by decide)
@[simp] theorem State.advanceTo_limpStore : (s.advanceTo t).limpStore = s.limpStore := (State.advanceTo_touch s t).same .limpStore (by decide)
@[simp] theorem State.advanceTo_sup : (s.advanceTo t).sup = s.sup := (State.advanceTo_touch s t).same .sup (by decide)
@[simp] theorem State.advanceTo_sys : (s.advanceTo t).sys = s.sys := (State.advanceTo_touch s t).same .sys (by decide)
@[simp] theorem State.advanceTo_up : (s.advanceTo t).up = s.up := (State.advanceTo_touch s t).same .up (by decide)
@[simp] theorem State.advanceTo_mem : (s.advanceTo t).mem = s.mem := (State.advanceTo_touch s t).same .mem (by decide)
@[simp] theorem State.advanceTo_lc : (s.advanceTo t).lc = s.lc := (State.advanceTo_touch s t).same .lc (by decide)
@[simp] theorem State.advanceTo_que : (s.advanceTo t).que = s.que := (State.advanceTo_touch s t).same .que (by decide)
@[simp] theorem State.advanceTo_core : (s.advanceTo t).core = s.core := (State.advanceTo_touch s t).same .core (by decide)
@[simp] theorem State.advanceTo_depCore : (s.advanceTo t).depCore = s.depCore := (State.advanceTo_touch s t).same .depCore (by decide)
@[simp] theorem State.advanceTo_can : (s.advanceTo t).can = s.can := (State.advanceTo_touch s t).same .can (by decide)
@[simp] theorem State.advanceTo_nm : (s.advanceTo t).nm = s.nm := (State.advanceTo_touch s t).same .nm (by decide)
@[simp] theorem State.advanceTo_hp : (s.advanceTo t).hp = s.hp := (State.advanceTo_touch s t).same .hp (by decide)
@[simp] theorem State.advanceTo_plk : (s.advanceTo t).plk = s.plk := (State.advanceTo_touch s t).same .plk (by decide)
@[simp] theorem State.advanceTo_pending : (s.advanceTo t).pending = s.pending := (State.advanceTo_touch s t).same .pending (by decide)
end

/-- The clock runs and `t` lies ahead: that is the time afterwards. -/
theorem State.advanceTo_now (t : Nat) (hr : s.tmbRuns = true) (h : s.now ≤ t) : (s.advanceTo t).now = t := by
  unfold State.advanceTo
  by_cases hl : s.now < t
  · have hs : ∀ (x : State) (b : Bool), (x.onlyIf b State.logOwnFree).tmb = x.tmb := fun x b =>
      (onlyTouches.onlyIf (onlyTouches.refl [.dep, .nv, .free] x) fun y => State.logOwnFree_touch y).same .tmb (by decide)
    simp only [hr, hl, decide_true, Bool.and_self, if_true]
    simp [State.now, hs]
  · have : s.now = t := Nat.le_antisymm h (Nat.le_of_not_lt hl)
    simp [this]

/-- Time never runs backwards. -/
theorem State.advanceTo_le (t : Nat) : s.now ≤ (s.advanceTo t).now := by
  by_cases h : s.tmbRuns = true ∧ s.now < t
  · rw [s.advanceTo_now t h.1 (Nat.le_of_lt h.2)]; exact Nat.le_of_lt h.2
  · have : (s.tmbRuns && decide (s.now < t)) = false := by
      rcases Bool.eq_false_or_eq_true (s.tmbRuns && decide (s.now < t)) with e | e
      · exact absurd (by simpa using e) h
      · exact e
    simp [State.advanceTo, this]

/-! ## Stores and loads -/

/-- A store that is served acts after the accounts of the access. -/
theorem State.store_run (c : Fin 4) (isl : Nat) (f : State → State) (hc : s.coreRuns = true) (hu : s.isUp isl = true) :
    s.store c isl f = { (f (s.served c)) with answer := .done } := by simp [State.store, hc, hu]

/-- The same for a block that has not stopped for an entry. -/
theorem State.storeIf_run (c : Fin 4) (isl g : Nat) (f : State → State) (hc : s.coreRuns = true)
    (hu : s.isUp isl = true) (hs : s.isStopped g = false) :
    s.storeIf c isl g f = { (f (s.served c)) with answer := .done } := by
  have : (s.served c).isStopped g = false := by simpa [State.isStopped] using hs
  simp [State.storeIf, State.store_run s c isl _ hc hu, this]

/-- A core that does not run stores nothing. -/
theorem State.store_stopped (c : Fin 4) (isl : Nat) (f : State → State) (hc : s.coreRuns = false) : s.store c isl f = s := by
  simp [State.store, hc]

/-- A message of ADM that is next for a target whose island runs reaches it. -/
theorem State.deliver_run (t : Nat) (m : ToTgt) (f : State → State) (r : List (Nat × ToTgt))
    (hm : takeMsg t m s.adm.toTgt = some r) (hu : s.isUp (islOf t) = true) :
    s.deliver t m f = f (s.modAdm fun a => { a with toTgt := r }) := by simp [State.deliver, hm, hu]

/-! ## What depends on the parts that stay -/

theorem State.isUp_congr {t : State} (h : t.up = s.up) (i : Nat) : t.isUp i = s.isUp i := by simp [State.isUp, h]
theorem State.now_congr {t : State} (h : t.tmb = s.tmb) : t.now = s.now := by simp [State.now, h]

end Sys2Proof.Machine
end

