-- ==== Sys2Proof/Laws/PerInstr.lean ====
section
/-! SUPPORT. Laws of the commands as syntax, one lemma per constructor. `Plain`: the plain spelling of a command (MFS or MTS
for the rows of one special register) has the same executing core and the same word of Crika v2. -/

open Sys2Proof.Machine

/-- The plain spelling of a command has the same word (spec/10_crika_isa.md R349, R353). -/
def Sys2Proof.Laws.Plain.Statement (i : Sys2Proof.Instr) : Prop := encodeWord (plainInstr i) = encodeWord i

theorem Sys2Proof.Laws.Plain.registerWrite (c : Fin 4) (b : Fin 22) (off : BitVec 16) (v : Sys2Proof.W32) :
    Sys2Proof.Laws.Plain.Statement (.registerWrite c b off v) := rfl
theorem Sys2Proof.Laws.Plain.rcRead (c : Fin 4) (b : Fin 22) (off : BitVec 16) :
    Sys2Proof.Laws.Plain.Statement (.rcRead c b off) := rfl
theorem Sys2Proof.Laws.Plain.controlPlaneReset (cause : Fin 4) :
    Sys2Proof.Laws.Plain.Statement (.controlPlaneReset cause) := rfl
theorem Sys2Proof.Laws.Plain.lost (i : Fin 72) :
    Sys2Proof.Laws.Plain.Statement (.lost i) := rfl
theorem Sys2Proof.Laws.Plain.tmbWrap :
    Sys2Proof.Laws.Plain.Statement (.tmbWrap) := rfl
theorem Sys2Proof.Laws.Plain.tmbAlarm :
    Sys2Proof.Laws.Plain.Statement (.tmbAlarm) := rfl
theorem Sys2Proof.Laws.Plain.timeLoRead (r : Fin 5) :
    Sys2Proof.Laws.Plain.Statement (.timeLoRead r) := rfl
theorem Sys2Proof.Laws.Plain.eventRecordMatch (c : Fin 4) (i : Fin 72) :
    Sys2Proof.Laws.Plain.Statement (.eventRecordMatch c i) := rfl
theorem Sys2Proof.Laws.Plain.hsEnSet (c : Fin 4) (n : Fin 48) (v : Sys2Proof.W32) (same : Bool) :
    Sys2Proof.Laws.Plain.Statement (.hsEnSet c n v same) := rfl
theorem Sys2Proof.Laws.Plain.hsEnClear (c : Fin 4) (n : Fin 48) (v : Sys2Proof.W32) (same : Bool) :
    Sys2Proof.Laws.Plain.Statement (.hsEnClear c n v same) := rfl
theorem Sys2Proof.Laws.Plain.hsOff (c : Fin 4) (n : Fin 48) (adm : Bool) (multi : Bool) (same : Bool) :
    Sys2Proof.Laws.Plain.Statement (.hsOff c n adm multi same) := rfl
theorem Sys2Proof.Laws.Plain.hsClear (c : Fin 4) (n : Fin 48) (multi : Bool) :
    Sys2Proof.Laws.Plain.Statement (.hsClear c n multi) := rfl
theorem Sys2Proof.Laws.Plain.hsAllOff (c : Fin 4) (same : Bool) :
    Sys2Proof.Laws.Plain.Statement (.hsAllOff c same) := rfl
theorem Sys2Proof.Laws.Plain.hsRequestQueued (n : Fin 48) :
    Sys2Proof.Laws.Plain.Statement (.hsRequestQueued n) := rfl
theorem Sys2Proof.Laws.Plain.hsGrant (n : Fin 48) (clampCycles : Nat) :
    Sys2Proof.Laws.Plain.Statement (.hsGrant n clampCycles) := rfl
theorem Sys2Proof.Laws.Plain.hsDrop (n : Fin 48) :
    Sys2Proof.Laws.Plain.Statement (.hsDrop n) := rfl
theorem Sys2Proof.Laws.Plain.envStep (n : Fin 48) :
    Sys2Proof.Laws.Plain.Statement (.envStep n) := rfl
theorem Sys2Proof.Laws.Plain.overCurrent (n : Fin 48) (ma : Nat) (cycles : Nat) :
    Sys2Proof.Laws.Plain.Statement (.overCurrent n ma cycles) := rfl
theorem Sys2Proof.Laws.Plain.shortCircuit (n : Fin 48) (ma : Nat) (oc : Bool) :
    Sys2Proof.Laws.Plain.Statement (.shortCircuit n ma oc) := rfl
theorem Sys2Proof.Laws.Plain.thermalLatchSet (n : Fin 48) (tj : Int) (sc : Bool) (oc : Bool) :
    Sys2Proof.Laws.Plain.Statement (.thermalLatchSet n tj sc oc) := rfl
theorem Sys2Proof.Laws.Plain.thermalLatchClear (n : Fin 48) (tj : Int) :
    Sys2Proof.Laws.Plain.Statement (.thermalLatchClear n tj) := rfl
theorem Sys2Proof.Laws.Plain.bankUnderVoltage (b : Fin 4) (mv : Nat) (us : Nat) :
    Sys2Proof.Laws.Plain.Statement (.bankUnderVoltage b mv us) := rfl
theorem Sys2Proof.Laws.Plain.bankRecover (b : Fin 4) (mv : Nat) (us : Nat) :
    Sys2Proof.Laws.Plain.Statement (.bankRecover b mv us) := rfl
theorem Sys2Proof.Laws.Plain.retryTimerExpiry (n : Fin 48) :
    Sys2Proof.Laws.Plain.Statement (.retryTimerExpiry n) := rfl
theorem Sys2Proof.Laws.Plain.healExpiry (n : Fin 48) :
    Sys2Proof.Laws.Plain.Statement (.healExpiry n) := rfl
theorem Sys2Proof.Laws.Plain.envCfgWrite (c : Fin 4) (n : Fin 48) (v : Sys2Proof.W32) :
    Sys2Proof.Laws.Plain.Statement (.envCfgWrite c n v) := rfl
theorem Sys2Proof.Laws.Plain.envCopyDone (n : Fin 48) :
    Sys2Proof.Laws.Plain.Statement (.envCopyDone n) := rfl
theorem Sys2Proof.Laws.Plain.uvCfgWrite (c : Fin 4) (b : Fin 4) (v : Sys2Proof.W32) :
    Sys2Proof.Laws.Plain.Statement (.uvCfgWrite c b v) := rfl
theorem Sys2Proof.Laws.Plain.orphanExpiry :
    Sys2Proof.Laws.Plain.Statement (.orphanExpiry) := rfl
theorem Sys2Proof.Laws.Plain.orphanReclaim (c : Fin 4) :
    Sys2Proof.Laws.Plain.Statement (.orphanReclaim c) := rfl
theorem Sys2Proof.Laws.Plain.clampBegin (n : Fin 48) (vds : Nat) :
    Sys2Proof.Laws.Plain.Statement (.clampBegin n vds) := rfl
theorem Sys2Proof.Laws.Plain.clampEnd (n : Fin 48) (cycles : Nat) :
    Sys2Proof.Laws.Plain.Statement (.clampEnd n cycles) := rfl
theorem Sys2Proof.Laws.Plain.clampTimeout (n : Fin 48) :
    Sys2Proof.Laws.Plain.Statement (.clampTimeout n) := rfl
theorem Sys2Proof.Laws.Plain.digitiserSample (t : Fin 67) (raw : Int) (tj : Int) (top : Nat) :
    Sys2Proof.Laws.Plain.Statement (.digitiserSample t raw tj top) := rfl
theorem Sys2Proof.Laws.Plain.msMeanSend (t : Fin 67) :
    Sys2Proof.Laws.Plain.Statement (.msMeanSend t) := rfl
theorem Sys2Proof.Laws.Plain.padVoltageSample (n : Fin 48) (mv : Int) :
    Sys2Proof.Laws.Plain.Statement (.padVoltageSample n mv) := rfl
theorem Sys2Proof.Laws.Plain.measZero (c : Fin 4) (t : Fin 67) :
    Sys2Proof.Laws.Plain.Statement (.measZero c t) := rfl
theorem Sys2Proof.Laws.Plain.zeroDone (t : Fin 67) :
    Sys2Proof.Laws.Plain.Statement (.zeroDone t) := rfl
theorem Sys2Proof.Laws.Plain.snap (c : Fin 4) :
    Sys2Proof.Laws.Plain.Statement (.snap c) := rfl
theorem Sys2Proof.Laws.Plain.gtrig (c : Fin 4) (alsoSnap : Bool) :
    Sys2Proof.Laws.Plain.Statement (.gtrig c alsoSnap) := rfl
theorem Sys2Proof.Laws.Plain.snapLatch (t : Fin 67) (late : Bool) :
    Sys2Proof.Laws.Plain.Statement (.snapLatch t late) := rfl
theorem Sys2Proof.Laws.Plain.captureArm (c : Fin 4) (t : Fin 67) :
    Sys2Proof.Laws.Plain.Statement (.captureArm c t) := rfl
theorem Sys2Proof.Laws.Plain.captureDisarm (c : Fin 4) (t : Fin 67) :
    Sys2Proof.Laws.Plain.Statement (.captureDisarm c t) := rfl
theorem Sys2Proof.Laws.Plain.captureTrig (c : Fin 4) (t : Fin 67) :
    Sys2Proof.Laws.Plain.Statement (.captureTrig c t) := rfl
theorem Sys2Proof.Laws.Plain.captureBurstWrite (t : Fin 67) :
    Sys2Proof.Laws.Plain.Statement (.captureBurstWrite t) := rfl
theorem Sys2Proof.Laws.Plain.settleTimeout (n : Fin 48) :
    Sys2Proof.Laws.Plain.Statement (.settleTimeout n) := rfl
theorem Sys2Proof.Laws.Plain.steadyPeriodClose (n : Fin 48) :
    Sys2Proof.Laws.Plain.Statement (.steadyPeriodClose n) := rfl
theorem Sys2Proof.Laws.Plain.trendUpdate (n : Fin 48) :
    Sys2Proof.Laws.Plain.Statement (.trendUpdate n) := rfl
theorem Sys2Proof.Laws.Plain.trReset (c : Fin 4) (n : Fin 48) :
    Sys2Proof.Laws.Plain.Statement (.trReset c n) := rfl
theorem Sys2Proof.Laws.Plain.trendLongWrite (c : Fin 4) (n : Fin 48) (q : Fin 3) (v : Sys2Proof.W16) :
    Sys2Proof.Laws.Plain.Statement (.trendLongWrite c n q v) := rfl
theorem Sys2Proof.Laws.Plain.curveEntryWrite (c : Fin 4) (i : Fin 4096) (v : Sys2Proof.W32) :
    Sys2Proof.Laws.Plain.Statement (.curveEntryWrite c i v) := rfl
theorem Sys2Proof.Laws.Plain.admReq (c : Fin 4) (target : BitVec 11) (prio : BitVec 3) (deadline : Sys2Proof.W16) :
    Sys2Proof.Laws.Plain.Statement (.admReq c target prio deadline) := rfl
theorem Sys2Proof.Laws.Plain.admCancel (c : Fin 4) (target : BitVec 11) :
    Sys2Proof.Laws.Plain.Statement (.admCancel c target) := rfl
theorem Sys2Proof.Laws.Plain.admRelease (c : Fin 4) (x : BitVec 10) :
    Sys2Proof.Laws.Plain.Statement (.admRelease c x) := rfl
theorem Sys2Proof.Laws.Plain.admTick (late : Nat) :
    Sys2Proof.Laws.Plain.Statement (.admTick late) := rfl
theorem Sys2Proof.Laws.Plain.binRetire :
    Sys2Proof.Laws.Plain.Statement (.binRetire) := rfl
theorem Sys2Proof.Laws.Plain.deadlineExpiry :
    Sys2Proof.Laws.Plain.Statement (.deadlineExpiry) := rfl
theorem Sys2Proof.Laws.Plain.siteLimWrite (c : Fin 4) (v : Sys2Proof.W32) :
    Sys2Proof.Laws.Plain.Statement (.siteLimWrite c v) := rfl
theorem Sys2Proof.Laws.Plain.siteStale :
    Sys2Proof.Laws.Plain.Statement (.siteStale) := rfl
theorem Sys2Proof.Laws.Plain.sensorCopy (v0 : Nat) (v1 : Nat) (v2 : Nat) (v3 : Nat) (tbp : Int) :
    Sys2Proof.Laws.Plain.Statement (.sensorCopy v0 v1 v2 v3 tbp) := rfl
theorem Sys2Proof.Laws.Plain.sensorStale :
    Sys2Proof.Laws.Plain.Statement (.sensorStale) := rfl
theorem Sys2Proof.Laws.Plain.heaterCfgWrite (c : Fin 4) (i : Fin 16) (v : Sys2Proof.W32) :
    Sys2Proof.Laws.Plain.Statement (.heaterCfgWrite c i v) := rfl
theorem Sys2Proof.Laws.Plain.heaterPeriodStart (i : Fin 16) :
    Sys2Proof.Laws.Plain.Statement (.heaterPeriodStart i) := rfl
theorem Sys2Proof.Laws.Plain.heaterWindowEnd (i : Fin 16) :
    Sys2Proof.Laws.Plain.Statement (.heaterWindowEnd i) := rfl
theorem Sys2Proof.Laws.Plain.valveEnSet (c : Fin 4) (n : Fin 16) (v : Sys2Proof.W32) (same : Bool) :
    Sys2Proof.Laws.Plain.Statement (.valveEnSet c n v same) := rfl
theorem Sys2Proof.Laws.Plain.valveEnClear (c : Fin 4) (n : Fin 16) (v : Sys2Proof.W32) (same : Bool) :
    Sys2Proof.Laws.Plain.Statement (.valveEnClear c n v same) := rfl
theorem Sys2Proof.Laws.Plain.valveOn (c : Fin 4) (n : Fin 16) (hold : Sys2Proof.W16) (multi : Bool) :
    Sys2Proof.Laws.Plain.Statement (.valveOn c n hold multi) := rfl
theorem Sys2Proof.Laws.Plain.valveOff (c : Fin 4) (n : Fin 16) (multi : Bool) (same : Bool) :
    Sys2Proof.Laws.Plain.Statement (.valveOff c n multi same) := rfl
theorem Sys2Proof.Laws.Plain.valveClear (c : Fin 4) (n : Fin 16) (multi : Bool) :
    Sys2Proof.Laws.Plain.Statement (.valveClear c n multi) := rfl
theorem Sys2Proof.Laws.Plain.deferLeave (g : Fin 4) :
    Sys2Proof.Laws.Plain.Statement (.deferLeave g) := rfl
theorem Sys2Proof.Laws.Plain.deferTimeout (n : Fin 16) :
    Sys2Proof.Laws.Plain.Statement (.deferTimeout n) := rfl
theorem Sys2Proof.Laws.Plain.valveGrant (n : Fin 16) :
    Sys2Proof.Laws.Plain.Statement (.valveGrant n) := rfl
theorem Sys2Proof.Laws.Plain.valveDrop (n : Fin 16) :
    Sys2Proof.Laws.Plain.Statement (.valveDrop n) := rfl
theorem Sys2Proof.Laws.Plain.peakEnd (n : Fin 16) :
    Sys2Proof.Laws.Plain.Statement (.peakEnd n) := rfl
theorem Sys2Proof.Laws.Plain.valveClaimRelease (n : Fin 16) :
    Sys2Proof.Laws.Plain.Statement (.valveClaimRelease n) := rfl
theorem Sys2Proof.Laws.Plain.holdEnd (n : Fin 16) :
    Sys2Proof.Laws.Plain.Statement (.holdEnd n) := rfl
theorem Sys2Proof.Laws.Plain.decayComplete (n : Fin 16) :
    Sys2Proof.Laws.Plain.Statement (.decayComplete n) := rfl
theorem Sys2Proof.Laws.Plain.decayTimeout (n : Fin 16) :
    Sys2Proof.Laws.Plain.Statement (.decayTimeout n) := rfl
theorem Sys2Proof.Laws.Plain.gapEnd (n : Fin 16) :
    Sys2Proof.Laws.Plain.Statement (.gapEnd n) := rfl
theorem Sys2Proof.Laws.Plain.valveShortCircuit (n : Fin 16) (ma : Nat) :
    Sys2Proof.Laws.Plain.Statement (.valveShortCircuit n ma) := rfl
theorem Sys2Proof.Laws.Plain.valveOpenLoad (n : Fin 16) (ma : Nat) (ms : Nat) :
    Sys2Proof.Laws.Plain.Statement (.valveOpenLoad n ma ms) := rfl
theorem Sys2Proof.Laws.Plain.groupOverCurrent (g : Fin 4) (ma : Nat) (cycles : Nat) :
    Sys2Proof.Laws.Plain.Statement (.groupOverCurrent g ma cycles) := rfl
theorem Sys2Proof.Laws.Plain.groupShortCircuit (g : Fin 4) (ma : Nat) :
    Sys2Proof.Laws.Plain.Statement (.groupShortCircuit g ma) := rfl
theorem Sys2Proof.Laws.Plain.groupThermalLatch (g : Fin 4) (tj : Int) :
    Sys2Proof.Laws.Plain.Statement (.groupThermalLatch g tj) := rfl
theorem Sys2Proof.Laws.Plain.gswFail (g : Fin 4) :
    Sys2Proof.Laws.Plain.Statement (.gswFail g) := rfl
theorem Sys2Proof.Laws.Plain.groupSwitchReady (g : Fin 4) (gapMv : Nat) :
    Sys2Proof.Laws.Plain.Statement (.groupSwitchReady g gapMv) := rfl
theorem Sys2Proof.Laws.Plain.groupSwitchOff (g : Fin 4) :
    Sys2Proof.Laws.Plain.Statement (.groupSwitchOff g) := rfl
theorem Sys2Proof.Laws.Plain.offAll (c : Fin 4) (g : Fin 4) (same : Bool) :
    Sys2Proof.Laws.Plain.Statement (.offAll c g same) := rfl
theorem Sys2Proof.Laws.Plain.groupClear (c : Fin 4) (g : Fin 4) :
    Sys2Proof.Laws.Plain.Statement (.groupClear c g) := rfl
theorem Sys2Proof.Laws.Plain.valveProfWrite (c : Fin 4) (n : Fin 16) (v : Sys2Proof.W32) :
    Sys2Proof.Laws.Plain.Statement (.valveProfWrite c n v) := rfl
theorem Sys2Proof.Laws.Plain.profileCopyDone (n : Fin 16) :
    Sys2Proof.Laws.Plain.Statement (.profileCopyDone n) := rfl
theorem Sys2Proof.Laws.Plain.lampEnSet (c : Fin 4) (k : Fin 3) (v : Sys2Proof.W32) (same : Bool) :
    Sys2Proof.Laws.Plain.Statement (.lampEnSet c k v same) := rfl
theorem Sys2Proof.Laws.Plain.lampEnClear (c : Fin 4) (k : Fin 3) (v : Sys2Proof.W32) (same : Bool) :
    Sys2Proof.Laws.Plain.Statement (.lampEnClear c k v same) := rfl
theorem Sys2Proof.Laws.Plain.lampOn (c : Fin 4) (k : Fin 3) (v3 : Sys2Proof.W16) (multi : Bool) :
    Sys2Proof.Laws.Plain.Statement (.lampOn c k v3 multi) := rfl
theorem Sys2Proof.Laws.Plain.lampOff (c : Fin 4) (k : Fin 3) (multi : Bool) (same : Bool) :
    Sys2Proof.Laws.Plain.Statement (.lampOff c k multi same) := rfl
theorem Sys2Proof.Laws.Plain.lampClear (c : Fin 4) (k : Fin 3) (multi : Bool) :
    Sys2Proof.Laws.Plain.Statement (.lampClear c k multi) := rfl
theorem Sys2Proof.Laws.Plain.segClr (c : Fin 4) (k : Fin 3) (mask : BitVec 8) :
    Sys2Proof.Laws.Plain.Statement (.segClr c k mask) := rfl
theorem Sys2Proof.Laws.Plain.lampGrant (k : Fin 3) :
    Sys2Proof.Laws.Plain.Statement (.lampGrant k) := rfl
theorem Sys2Proof.Laws.Plain.lampDrop (k : Fin 3) :
    Sys2Proof.Laws.Plain.Statement (.lampDrop k) := rfl
theorem Sys2Proof.Laws.Plain.rampComplete (k : Fin 3) :
    Sys2Proof.Laws.Plain.Statement (.rampComplete k) := rfl
theorem Sys2Proof.Laws.Plain.lampFrameStart (k : Fin 3) (cycles : Nat) (vOut : Nat) :
    Sys2Proof.Laws.Plain.Statement (.lampFrameStart k cycles vOut) := rfl
theorem Sys2Proof.Laws.Plain.segmentJudge (k : Fin 3) (i : Fin 8) (mv : Nat) :
    Sys2Proof.Laws.Plain.Statement (.segmentJudge k i mv) := rfl
theorem Sys2Proof.Laws.Plain.segOpen (k : Fin 3) (i : Fin 8) (mv : Nat) (ns : Nat) :
    Sys2Proof.Laws.Plain.Statement (.segOpen k i mv ns) := rfl
theorem Sys2Proof.Laws.Plain.sShort (k : Fin 3) (buckMa : Nat) (ma : Nat) (us : Nat) :
    Sys2Proof.Laws.Plain.Statement (.sShort k buckMa ma us) := rfl
theorem Sys2Proof.Laws.Plain.sOpen (k : Fin 3) (ma : Nat) (us : Nat) (atLim : Bool) :
    Sys2Proof.Laws.Plain.Statement (.sOpen k ma us atLim) := rfl
theorem Sys2Proof.Laws.Plain.stringSat (k : Fin 3) (ma : Nat) (us : Nat) (atLim : Bool) :
    Sys2Proof.Laws.Plain.Statement (.stringSat k ma us atLim) := rfl
theorem Sys2Proof.Laws.Plain.stringThermal (k : Fin 3) (tj : Int) :
    Sys2Proof.Laws.Plain.Statement (.stringThermal k tj) := rfl
theorem Sys2Proof.Laws.Plain.lampPerWrite (c : Fin 4) (per : BitVec 3) :
    Sys2Proof.Laws.Plain.Statement (.lampPerWrite c per) := rfl
theorem Sys2Proof.Laws.Plain.dimWrite (c : Fin 4) (k : Fin 3) (v : Sys2Proof.W32) :
    Sys2Proof.Laws.Plain.Statement (.dimWrite c k v) := rfl
theorem Sys2Proof.Laws.Plain.dimCopyDone (k : Fin 3) :
    Sys2Proof.Laws.Plain.Statement (.dimCopyDone k) := rfl
theorem Sys2Proof.Laws.Plain.go (c : Fin 4) (k : Fin 8) :
    Sys2Proof.Laws.Plain.Statement (.go c k) := rfl
theorem Sys2Proof.Laws.Plain.stop (c : Fin 4) (k : Fin 8) :
    Sys2Proof.Laws.Plain.Statement (.stop c k) := rfl
theorem Sys2Proof.Laws.Plain.swap (c : Fin 4) (k : Fin 8) :
    Sys2Proof.Laws.Plain.Statement (.swap c k) := rfl
theorem Sys2Proof.Laws.Plain.abort (c : Fin 4) (k : Fin 8) (same : Bool) :
    Sys2Proof.Laws.Plain.Statement (.abort c k same) := rfl
theorem Sys2Proof.Laws.Plain.chainDisable (c : Fin 4) (k : Fin 8) (v : Sys2Proof.W32) :
    Sys2Proof.Laws.Plain.Statement (.chainDisable c k v) := rfl
theorem Sys2Proof.Laws.Plain.globalGo (c : Fin 4) (mask : BitVec 8) :
    Sys2Proof.Laws.Plain.Statement (.globalGo c mask) := rfl
theorem Sys2Proof.Laws.Plain.globalStop (c : Fin 4) (mask : BitVec 8) :
    Sys2Proof.Laws.Plain.Statement (.globalStop c mask) := rfl
theorem Sys2Proof.Laws.Plain.chainFrameWrite (c : Fin 4) (k : Fin 8) (v : Sys2Proof.W32) :
    Sys2Proof.Laws.Plain.Statement (.chainFrameWrite c k v) := rfl
theorem Sys2Proof.Laws.Plain.chainBaseWrite (c : Fin 4) (k : Fin 8) (out : Bool) (i : Fin 2) (v : Sys2Proof.W32) :
    Sys2Proof.Laws.Plain.Statement (.chainBaseWrite c k out i v) := rfl
theorem Sys2Proof.Laws.Plain.chainFrameStart (k : Fin 8) (late : List Nat) :
    Sys2Proof.Laws.Plain.Statement (.chainFrameStart k late) := rfl
theorem Sys2Proof.Laws.Plain.chainFrameEnd (k : Fin 8) :
    Sys2Proof.Laws.Plain.Statement (.chainFrameEnd k) := rfl
theorem Sys2Proof.Laws.Plain.returnStream (k : Fin 8) (start : Bool) (echo : Sys2Proof.W32) (body : List Sys2Proof.W8) (extra : Nat) :
    Sys2Proof.Laws.Plain.Statement (.returnStream k start echo body extra) := rfl
theorem Sys2Proof.Laws.Plain.echoTimeout (k : Fin 8) :
    Sys2Proof.Laws.Plain.Statement (.echoTimeout k) := rfl
theorem Sys2Proof.Laws.Plain.chainGlitch (k : Fin 8) :
    Sys2Proof.Laws.Plain.Statement (.chainGlitch k) := rfl
theorem Sys2Proof.Laws.Plain.siChange (i : Fin 16) (mv : Int) (n : Nat) :
    Sys2Proof.Laws.Plain.Statement (.siChange i mv n) := rfl
theorem Sys2Proof.Laws.Plain.siPoll (mv : Vector Int 16) :
    Sys2Proof.Laws.Plain.Statement (.siPoll mv) := rfl
theorem Sys2Proof.Laws.Plain.vl3Low (mv : Nat) :
    Sys2Proof.Laws.Plain.Statement (.vl3Low mv) := rfl
theorem Sys2Proof.Laws.Plain.dinChange (i : Fin 8) (level : Bool) (half : Nat) (same : Bool) :
    Sys2Proof.Laws.Plain.Statement (.dinChange i level half same) := rfl
theorem Sys2Proof.Laws.Plain.routedOffRepeat (t : Fin 67) :
    Sys2Proof.Laws.Plain.Statement (.routedOffRepeat t) := rfl
theorem Sys2Proof.Laws.Plain.limpPadChange (level : Bool) (ms : Nat) (same : Bool) :
    Sys2Proof.Laws.Plain.Statement (.limpPadChange level ms same) := rfl
theorem Sys2Proof.Laws.Plain.lmapWrite (c : Fin 4) (w : Fin 17) (v : Sys2Proof.W32) :
    Sys2Proof.Laws.Plain.Statement (.lmapWrite c w v) := rfl
theorem Sys2Proof.Laws.Plain.commit (c : Fin 4) (key : Sys2Proof.W16) :
    Sys2Proof.Laws.Plain.Statement (.commit c key) := rfl
theorem Sys2Proof.Laws.Plain.reload (c : Fin 4) (key : Sys2Proof.W16) :
    Sys2Proof.Laws.Plain.Statement (.reload c key) := rfl
theorem Sys2Proof.Laws.Plain.lmapDone :
    Sys2Proof.Laws.Plain.Statement (.lmapDone) := rfl
theorem Sys2Proof.Laws.Plain.ainConversion (i : Fin 4) (code : BitVec 12) (ma : Nat) :
    Sys2Proof.Laws.Plain.Statement (.ainConversion i code ma) := rfl
theorem Sys2Proof.Laws.Plain.vsensEnable (c : Fin 4) (v : Sys2Proof.W32) :
    Sys2Proof.Laws.Plain.Statement (.vsensEnable c v) := rfl
theorem Sys2Proof.Laws.Plain.vsensFault (ma : Nat) (us : Nat) :
    Sys2Proof.Laws.Plain.Statement (.vsensFault ma us) := rfl
theorem Sys2Proof.Laws.Plain.add (c : Fin 4) (cond : BitVec 4) (rd : BitVec 5) (ra : BitVec 5) (rb : BitVec 5) :
    Sys2Proof.Laws.Plain.Statement (.add c cond rd ra rb) := rfl
theorem Sys2Proof.Laws.Plain.addi (c : Fin 4) (cond : BitVec 4) (rd : BitVec 5) (ra : BitVec 5) (i : BitVec 11) :
    Sys2Proof.Laws.Plain.Statement (.addi c cond rd ra i) := rfl
theorem Sys2Proof.Laws.Plain.adc (c : Fin 4) (cond : BitVec 4) (rd : BitVec 5) (ra : BitVec 5) (rb : BitVec 5) :
    Sys2Proof.Laws.Plain.Statement (.adc c cond rd ra rb) := rfl
theorem Sys2Proof.Laws.Plain.sub (c : Fin 4) (cond : BitVec 4) (rd : BitVec 5) (ra : BitVec 5) (rb : BitVec 5) :
    Sys2Proof.Laws.Plain.Statement (.sub c cond rd ra rb) := rfl
theorem Sys2Proof.Laws.Plain.sbc (c : Fin 4) (cond : BitVec 4) (rd : BitVec 5) (ra : BitVec 5) (rb : BitVec 5) :
    Sys2Proof.Laws.Plain.Statement (.sbc c cond rd ra rb) := rfl
theorem Sys2Proof.Laws.Plain.cmp (c : Fin 4) (cond : BitVec 4) (ra : BitVec 5) (rb : BitVec 5) :
    Sys2Proof.Laws.Plain.Statement (.cmp c cond ra rb) := rfl
theorem Sys2Proof.Laws.Plain.cmpi (c : Fin 4) (cond : BitVec 4) (ra : BitVec 5) (i : BitVec 11) :
    Sys2Proof.Laws.Plain.Statement (.cmpi c cond ra i) := rfl
theorem Sys2Proof.Laws.Plain.and (c : Fin 4) (cond : BitVec 4) (rd : BitVec 5) (ra : BitVec 5) (rb : BitVec 5) :
    Sys2Proof.Laws.Plain.Statement (.and c cond rd ra rb) := rfl
theorem Sys2Proof.Laws.Plain.andi (c : Fin 4) (cond : BitVec 4) (rd : BitVec 5) (ra : BitVec 5) (i : BitVec 11) :
    Sys2Proof.Laws.Plain.Statement (.andi c cond rd ra i) := rfl
theorem Sys2Proof.Laws.Plain.or (c : Fin 4) (cond : BitVec 4) (rd : BitVec 5) (ra : BitVec 5) (rb : BitVec 5) :
    Sys2Proof.Laws.Plain.Statement (.or c cond rd ra rb) := rfl
theorem Sys2Proof.Laws.Plain.ori (c : Fin 4) (cond : BitVec 4) (rd : BitVec 5) (ra : BitVec 5) (i : BitVec 11) :
    Sys2Proof.Laws.Plain.Statement (.ori c cond rd ra i) := rfl
theorem Sys2Proof.Laws.Plain.xor (c : Fin 4) (cond : BitVec 4) (rd : BitVec 5) (ra : BitVec 5) (rb : BitVec 5) :
    Sys2Proof.Laws.Plain.Statement (.xor c cond rd ra rb) := rfl
theorem Sys2Proof.Laws.Plain.xori (c : Fin 4) (cond : BitVec 4) (rd : BitVec 5) (ra : BitVec 5) (i : BitVec 11) :
    Sys2Proof.Laws.Plain.Statement (.xori c cond rd ra i) := rfl
theorem Sys2Proof.Laws.Plain.shl (c : Fin 4) (cond : BitVec 4) (rd : BitVec 5) (ra : BitVec 5) (rb : BitVec 5) :
    Sys2Proof.Laws.Plain.Statement (.shl c cond rd ra rb) := rfl
theorem Sys2Proof.Laws.Plain.shli (c : Fin 4) (cond : BitVec 4) (rd : BitVec 5) (ra : BitVec 5) (q : BitVec 4) :
    Sys2Proof.Laws.Plain.Statement (.shli c cond rd ra q) := rfl
theorem Sys2Proof.Laws.Plain.shr (c : Fin 4) (cond : BitVec 4) (rd : BitVec 5) (ra : BitVec 5) (rb : BitVec 5) :
    Sys2Proof.Laws.Plain.Statement (.shr c cond rd ra rb) := rfl
theorem Sys2Proof.Laws.Plain.shri (c : Fin 4) (cond : BitVec 4) (rd : BitVec 5) (ra : BitVec 5) (q : BitVec 4) :
    Sys2Proof.Laws.Plain.Statement (.shri c cond rd ra q) := rfl
theorem Sys2Proof.Laws.Plain.sar (c : Fin 4) (cond : BitVec 4) (rd : BitVec 5) (ra : BitVec 5) (rb : BitVec 5) :
    Sys2Proof.Laws.Plain.Statement (.sar c cond rd ra rb) := rfl
theorem Sys2Proof.Laws.Plain.sari (c : Fin 4) (cond : BitVec 4) (rd : BitVec 5) (ra : BitVec 5) (q : BitVec 4) :
    Sys2Proof.Laws.Plain.Statement (.sari c cond rd ra q) := rfl
theorem Sys2Proof.Laws.Plain.mul (c : Fin 4) (cond : BitVec 4) (rd : BitVec 5) (ra : BitVec 5) (rb : BitVec 5) :
    Sys2Proof.Laws.Plain.Statement (.mul c cond rd ra rb) := rfl
theorem Sys2Proof.Laws.Plain.muls (c : Fin 4) (cond : BitVec 4) (rd : BitVec 5) (ra : BitVec 5) (rb : BitVec 5) :
    Sys2Proof.Laws.Plain.Statement (.muls c cond rd ra rb) := rfl
theorem Sys2Proof.Laws.Plain.div (c : Fin 4) (cond : BitVec 4) (rd : BitVec 5) (ra : BitVec 5) (rb : BitVec 5) :
    Sys2Proof.Laws.Plain.Statement (.div c cond rd ra rb) := rfl
theorem Sys2Proof.Laws.Plain.divs (c : Fin 4) (cond : BitVec 4) (rd : BitVec 5) (ra : BitVec 5) (rb : BitVec 5) :
    Sys2Proof.Laws.Plain.Statement (.divs c cond rd ra rb) := rfl
theorem Sys2Proof.Laws.Plain.movi (c : Fin 4) (cond : BitVec 4) (rd : BitVec 5) (i : BitVec 11) :
    Sys2Proof.Laws.Plain.Statement (.movi c cond rd i) := rfl
theorem Sys2Proof.Laws.Plain.movt (c : Fin 4) (cond : BitVec 4) (rd : BitVec 5) (i : BitVec 5) :
    Sys2Proof.Laws.Plain.Statement (.movt c cond rd i) := rfl
theorem Sys2Proof.Laws.Plain.add32 (c : Fin 4) (cond : BitVec 4) (rd : BitVec 5) (ra : BitVec 5) (rb : BitVec 5) :
    Sys2Proof.Laws.Plain.Statement (.add32 c cond rd ra rb) := rfl
theorem Sys2Proof.Laws.Plain.sub32 (c : Fin 4) (cond : BitVec 4) (rd : BitVec 5) (ra : BitVec 5) (rb : BitVec 5) :
    Sys2Proof.Laws.Plain.Statement (.sub32 c cond rd ra rb) := rfl
theorem Sys2Proof.Laws.Plain.cmp32 (c : Fin 4) (cond : BitVec 4) (ra : BitVec 5) (rb : BitVec 5) :
    Sys2Proof.Laws.Plain.Statement (.cmp32 c cond ra rb) := rfl
theorem Sys2Proof.Laws.Plain.mfs (c : Fin 4) (cond : BitVec 4) (rd : BitVec 5) (sel : BitVec 11) :
    Sys2Proof.Laws.Plain.Statement (.mfs c cond rd sel) := rfl
theorem Sys2Proof.Laws.Plain.mts (c : Fin 4) (cond : BitVec 4) (sel : BitVec 11) (ra : BitVec 5) :
    Sys2Proof.Laws.Plain.Statement (.mts c cond sel ra) := rfl
theorem Sys2Proof.Laws.Plain.segAttrCommit (c : Fin 4) (cond : BitVec 4) (n : Fin 8) (ra : BitVec 5) :
    Sys2Proof.Laws.Plain.Statement (.segAttrCommit c cond n ra) := rfl
theorem Sys2Proof.Laws.Plain.swiSend (c : Fin 4) (cond : BitVec 4) (ra : BitVec 5) :
    Sys2Proof.Laws.Plain.Statement (.swiSend c cond ra) := rfl
theorem Sys2Proof.Laws.Plain.swiClr (c : Fin 4) (cond : BitVec 4) (ra : BitVec 5) :
    Sys2Proof.Laws.Plain.Statement (.swiClr c cond ra) := rfl
theorem Sys2Proof.Laws.Plain.startCmd (c : Fin 4) (cond : BitVec 4) (ra : BitVec 5) :
    Sys2Proof.Laws.Plain.Statement (.startCmd c cond ra) := rfl
theorem Sys2Proof.Laws.Plain.evqW5Read (c : Fin 4) (cond : BitVec 4) (rd : BitVec 5) :
    Sys2Proof.Laws.Plain.Statement (.evqW5Read c cond rd) := rfl
theorem Sys2Proof.Laws.Plain.ldb (c : Fin 4) (cond : BitVec 4) (rd : BitVec 5) (ra : BitVec 5) (seg : BitVec 3) (d : BitVec 8) :
    Sys2Proof.Laws.Plain.Statement (.ldb c cond rd ra seg d) := rfl
theorem Sys2Proof.Laws.Plain.ldbs (c : Fin 4) (cond : BitVec 4) (rd : BitVec 5) (ra : BitVec 5) (seg : BitVec 3) (d : BitVec 8) :
    Sys2Proof.Laws.Plain.Statement (.ldbs c cond rd ra seg d) := rfl
theorem Sys2Proof.Laws.Plain.ldw (c : Fin 4) (cond : BitVec 4) (rd : BitVec 5) (ra : BitVec 5) (seg : BitVec 3) (d : BitVec 8) :
    Sys2Proof.Laws.Plain.Statement (.ldw c cond rd ra seg d) := rfl
theorem Sys2Proof.Laws.Plain.ldp (c : Fin 4) (cond : BitVec 4) (rd : BitVec 5) (ra : BitVec 5) (seg : BitVec 3) (d : BitVec 8) :
    Sys2Proof.Laws.Plain.Statement (.ldp c cond rd ra seg d) := rfl
theorem Sys2Proof.Laws.Plain.stb (c : Fin 4) (cond : BitVec 4) (rd : BitVec 5) (ra : BitVec 5) (seg : BitVec 3) (d : BitVec 8) :
    Sys2Proof.Laws.Plain.Statement (.stb c cond rd ra seg d) := rfl
theorem Sys2Proof.Laws.Plain.stw (c : Fin 4) (cond : BitVec 4) (rd : BitVec 5) (ra : BitVec 5) (seg : BitVec 3) (d : BitVec 8) :
    Sys2Proof.Laws.Plain.Statement (.stw c cond rd ra seg d) := rfl
theorem Sys2Proof.Laws.Plain.stp (c : Fin 4) (cond : BitVec 4) (rd : BitVec 5) (ra : BitVec 5) (seg : BitVec 3) (d : BitVec 8) :
    Sys2Proof.Laws.Plain.Statement (.stp c cond rd ra seg d) := rfl
theorem Sys2Proof.Laws.Plain.ldwPost (c : Fin 4) (cond : BitVec 4) (rd : BitVec 5) (ra : BitVec 5) (seg : BitVec 3) (d : BitVec 8) :
    Sys2Proof.Laws.Plain.Statement (.ldwPost c cond rd ra seg d) := rfl
theorem Sys2Proof.Laws.Plain.ldpPost (c : Fin 4) (cond : BitVec 4) (rd : BitVec 5) (ra : BitVec 5) (seg : BitVec 3) (d : BitVec 8) :
    Sys2Proof.Laws.Plain.Statement (.ldpPost c cond rd ra seg d) := rfl
theorem Sys2Proof.Laws.Plain.stwPost (c : Fin 4) (cond : BitVec 4) (rd : BitVec 5) (ra : BitVec 5) (seg : BitVec 3) (d : BitVec 8) :
    Sys2Proof.Laws.Plain.Statement (.stwPost c cond rd ra seg d) := rfl
theorem Sys2Proof.Laws.Plain.stpPost (c : Fin 4) (cond : BitVec 4) (rd : BitVec 5) (ra : BitVec 5) (seg : BitVec 3) (d : BitVec 8) :
    Sys2Proof.Laws.Plain.Statement (.stpPost c cond rd ra seg d) := rfl
theorem Sys2Proof.Laws.Plain.b (c : Fin 4) (cond : BitVec 4) (d : BitVec 14) :
    Sys2Proof.Laws.Plain.Statement (.b c cond d) := rfl
theorem Sys2Proof.Laws.Plain.call (c : Fin 4) (cond : BitVec 4) (d : BitVec 14) :
    Sys2Proof.Laws.Plain.Statement (.call c cond d) := rfl
theorem Sys2Proof.Laws.Plain.jmp (c : Fin 4) (cond : BitVec 4) (ra : BitVec 5) :
    Sys2Proof.Laws.Plain.Statement (.jmp c cond ra) := rfl
theorem Sys2Proof.Laws.Plain.callr (c : Fin 4) (cond : BitVec 4) (ra : BitVec 5) :
    Sys2Proof.Laws.Plain.Statement (.callr c cond ra) := rfl
theorem Sys2Proof.Laws.Plain.ret (c : Fin 4) (cond : BitVec 4) :
    Sys2Proof.Laws.Plain.Statement (.ret c cond) := rfl
theorem Sys2Proof.Laws.Plain.rep (c : Fin 4) (cond : BitVec 4) :
    Sys2Proof.Laws.Plain.Statement (.rep c cond) := rfl
theorem Sys2Proof.Laws.Plain.repeatIteration (c : Fin 4) :
    Sys2Proof.Laws.Plain.Statement (.repeatIteration c) := rfl
theorem Sys2Proof.Laws.Plain.trap (c : Fin 4) (cond : BitVec 4) (n : BitVec 8) :
    Sys2Proof.Laws.Plain.Statement (.trap c cond n) := rfl
theorem Sys2Proof.Laws.Plain.reti (c : Fin 4) (cond : BitVec 4) :
    Sys2Proof.Laws.Plain.Statement (.reti c cond) := rfl
theorem Sys2Proof.Laws.Plain.wait (c : Fin 4) (cond : BitVec 4) :
    Sys2Proof.Laws.Plain.Statement (.wait c cond) := rfl
theorem Sys2Proof.Laws.Plain.waitResume (c : Fin 4) :
    Sys2Proof.Laws.Plain.Statement (.waitResume c) := rfl
theorem Sys2Proof.Laws.Plain.pair (c : Fin 4) (cond : BitVec 4) (x : BitVec 13) (y : BitVec 13) :
    Sys2Proof.Laws.Plain.Statement (.pair c cond x y) := rfl
theorem Sys2Proof.Laws.Plain.interruptEntry (c : Fin 4) :
    Sys2Proof.Laws.Plain.Statement (.interruptEntry c) := rfl
theorem Sys2Proof.Laws.Plain.queuePush (c : Fin 4) (q : Fin 32) (v : Sys2Proof.W32) :
    Sys2Proof.Laws.Plain.Statement (.queuePush c q v) := rfl
theorem Sys2Proof.Laws.Plain.queuePop (c : Fin 4) (q : Fin 32) (push : Option Sys2Proof.W32) :
    Sys2Proof.Laws.Plain.Statement (.queuePop c q push) := rfl
theorem Sys2Proof.Laws.Plain.queueFlush (c : Fin 4) (q : Fin 32) (push : Option Sys2Proof.W32) :
    Sys2Proof.Laws.Plain.Statement (.queueFlush c q push) := rfl
theorem Sys2Proof.Laws.Plain.queueCfgWrite (c : Fin 4) (q : Fin 32) (v : Sys2Proof.W32) :
    Sys2Proof.Laws.Plain.Statement (.queueCfgWrite c q v) := rfl
theorem Sys2Proof.Laws.Plain.queueIdleTimeout (q : Fin 32) :
    Sys2Proof.Laws.Plain.Statement (.queueIdleTimeout q) := rfl
theorem Sys2Proof.Laws.Plain.pmcDump :
    Sys2Proof.Laws.Plain.Statement (.pmcDump) := rfl
theorem Sys2Proof.Laws.Plain.dumpNow (c : Fin 4) :
    Sys2Proof.Laws.Plain.Statement (.dumpNow c) := rfl
theorem Sys2Proof.Laws.Plain.clearAll (c : Fin 4) :
    Sys2Proof.Laws.Plain.Statement (.clearAll c) := rfl
theorem Sys2Proof.Laws.Plain.dumpWriteDone :
    Sys2Proof.Laws.Plain.Statement (.dumpWriteDone) := rfl
theorem Sys2Proof.Laws.Plain.dumpRingWrite (c : Fin 4) (base : Bool) (v : Sys2Proof.W32) :
    Sys2Proof.Laws.Plain.Statement (.dumpRingWrite c base v) := rfl
theorem Sys2Proof.Laws.Plain.cntOvf (i : Fin 48) (same : Bool) :
    Sys2Proof.Laws.Plain.Statement (.cntOvf i same) := rfl
theorem Sys2Proof.Laws.Plain.cycLoRead (r : Fin 5) (x : Fin 4) (ret : Bool) :
    Sys2Proof.Laws.Plain.Statement (.cycLoRead r x ret) := rfl
theorem Sys2Proof.Laws.Plain.tagEnable (c : Fin 4) (x : Fin 4) (v : Sys2Proof.W32) :
    Sys2Proof.Laws.Plain.Statement (.tagEnable c x v) := rfl
theorem Sys2Proof.Laws.Plain.tagSelect (x : Fin 4) :
    Sys2Proof.Laws.Plain.Statement (.tagSelect x) := rfl
theorem Sys2Proof.Laws.Plain.tagRecord (c : Fin 4) :
    Sys2Proof.Laws.Plain.Statement (.tagRecord c) := rfl
theorem Sys2Proof.Laws.Plain.canModeWrite (c : Fin 4) (x : Fin 4) (v : Sys2Proof.W32) :
    Sys2Proof.Laws.Plain.Statement (.canModeWrite c x v) := rfl
theorem Sys2Proof.Laws.Plain.canIntegrated (x : Fin 4) :
    Sys2Proof.Laws.Plain.Statement (.canIntegrated x) := rfl
theorem Sys2Proof.Laws.Plain.canTimingWrite (c : Fin 4) (x : Fin 4) (which : Fin 3) (v : Sys2Proof.W32) :
    Sys2Proof.Laws.Plain.Statement (.canTimingWrite c x which v) := rfl
theorem Sys2Proof.Laws.Plain.req (c : Fin 4) (x : Fin 4) (m : Fin 128) :
    Sys2Proof.Laws.Plain.Statement (.req c x m) := rfl
theorem Sys2Proof.Laws.Plain.canAbort (c : Fin 4) (x : Fin 4) (m : Fin 128) :
    Sys2Proof.Laws.Plain.Statement (.canAbort c x m) := rfl
theorem Sys2Proof.Laws.Plain.abortAll (c : Fin 4) (x : Fin 4) :
    Sys2Proof.Laws.Plain.Statement (.abortAll c x) := rfl
theorem Sys2Proof.Laws.Plain.snapObj (c : Fin 4) (x : Fin 4) (m : Fin 128) :
    Sys2Proof.Laws.Plain.Statement (.snapObj c x m) := rfl
theorem Sys2Proof.Laws.Plain.clr (c : Fin 4) (x : Fin 4) (m : Fin 128) :
    Sys2Proof.Laws.Plain.Statement (.clr c x m) := rfl
theorem Sys2Proof.Laws.Plain.canArbitration (x : Fin 4) (other : Bool) :
    Sys2Proof.Laws.Plain.Statement (.canArbitration x other) := rfl
theorem Sys2Proof.Laws.Plain.canTxSuccess (x : Fin 4) (delay : Nat) :
    Sys2Proof.Laws.Plain.Statement (.canTxSuccess x delay) := rfl
theorem Sys2Proof.Laws.Plain.canFrameReceived (x : Fin 4) (w0 : Sys2Proof.W32) (w1 : Sys2Proof.W32) (data : List Sys2Proof.W8) (us : Nat) :
    Sys2Proof.Laws.Plain.Statement (.canFrameReceived x w0 w1 data us) := rfl
theorem Sys2Proof.Laws.Plain.canError (x : Fin 4) (ty : Fin 8) (data : Bool) (arb : Bool) (exempt : Bool) (heavy : Bool) (delay : Nat) :
    Sys2Proof.Laws.Plain.Statement (.canError x ty data arb exempt heavy delay) := rfl
theorem Sys2Proof.Laws.Plain.busOn (x : Fin 4) (n : Nat) :
    Sys2Proof.Laws.Plain.Statement (.busOn x n) := rfl
theorem Sys2Proof.Laws.Plain.rel (c : Fin 4) (x : Fin 4) (j : Fin 2) (rseq : BitVec 8) :
    Sys2Proof.Laws.Plain.Statement (.rel c x j rseq) := rfl
theorem Sys2Proof.Laws.Plain.queueFrameFlush (c : Fin 4) (x : Fin 4) (j : Fin 2) :
    Sys2Proof.Laws.Plain.Statement (.queueFrameFlush c x j) := rfl
theorem Sys2Proof.Laws.Plain.forget (c : Fin 4) (x : Fin 4) :
    Sys2Proof.Laws.Plain.Statement (.forget c x) := rfl
theorem Sys2Proof.Laws.Plain.trxModeWrite (c : Fin 4) (x : Fin 4) (v : Sys2Proof.W32) :
    Sys2Proof.Laws.Plain.Statement (.trxModeWrite c x v) := rfl
theorem Sys2Proof.Laws.Plain.trxModeComplete (x : Fin 4) :
    Sys2Proof.Laws.Plain.Statement (.trxModeComplete x) := rfl
theorem Sys2Proof.Laws.Plain.txdDom (x : Fin 4) (dom : Bool) (us : Nat) :
    Sys2Proof.Laws.Plain.Statement (.txdDom x dom us) := rfl
theorem Sys2Proof.Laws.Plain.vccUv (x : Fin 4) (uv : Bool) :
    Sys2Proof.Laws.Plain.Statement (.vccUv x uv) := rfl
theorem Sys2Proof.Laws.Plain.wup (x : Fin 4) (d1 : Nat) (r : Nat) (d2 : Nat) (total : Nat) :
    Sys2Proof.Laws.Plain.Statement (.wup x d1 r d2 total) := rfl
theorem Sys2Proof.Laws.Plain.biasTimeout (x : Fin 4) (us : Nat) :
    Sys2Proof.Laws.Plain.Statement (.biasTimeout x us) := rfl
theorem Sys2Proof.Laws.Plain.decodedFrame (x : Fin 4) (ok : Bool) (w0 : Sys2Proof.W32) (w1 : Sys2Proof.W32) (data : List Sys2Proof.W8) :
    Sys2Proof.Laws.Plain.Statement (.decodedFrame x ok w0 w1 data) := rfl
theorem Sys2Proof.Laws.Plain.streakEnd (x : Fin 4) (i : Fin 64) :
    Sys2Proof.Laws.Plain.Statement (.streakEnd x i) := rfl
theorem Sys2Proof.Laws.Plain.nmEnable (c : Fin 4) (x : Fin 4) (v : Sys2Proof.W32) :
    Sys2Proof.Laws.Plain.Statement (.nmEnable c x v) := rfl
theorem Sys2Proof.Laws.Plain.nmDisable (c : Fin 4) (x : Fin 4) (v : Sys2Proof.W32) :
    Sys2Proof.Laws.Plain.Statement (.nmDisable c x v) := rfl
theorem Sys2Proof.Laws.Plain.needRise (c : Fin 4) (x : Fin 4) :
    Sys2Proof.Laws.Plain.Statement (.needRise c x) := rfl
theorem Sys2Proof.Laws.Plain.needFall (c : Fin 4) (x : Fin 4) :
    Sys2Proof.Laws.Plain.Statement (.needFall c x) := rfl
theorem Sys2Proof.Laws.Plain.online (c : Fin 4) (x : Fin 4) :
    Sys2Proof.Laws.Plain.Statement (.online c x) := rfl
theorem Sys2Proof.Laws.Plain.nsClr (c : Fin 4) (x : Fin 4) :
    Sys2Proof.Laws.Plain.Statement (.nsClr c x) := rfl
theorem Sys2Proof.Laws.Plain.tKaExpiry (x : Fin 4) :
    Sys2Proof.Laws.Plain.Statement (.tKaExpiry x) := rfl
theorem Sys2Proof.Laws.Plain.keepaliveDeferredSend (x : Fin 4) :
    Sys2Proof.Laws.Plain.Statement (.keepaliveDeferredSend x) := rfl
theorem Sys2Proof.Laws.Plain.tIdleExpiry (x : Fin 4) :
    Sys2Proof.Laws.Plain.Statement (.tIdleExpiry x) := rfl
theorem Sys2Proof.Laws.Plain.tFwExpiry (x : Fin 4) :
    Sys2Proof.Laws.Plain.Statement (.tFwExpiry x) := rfl
theorem Sys2Proof.Laws.Plain.prepSleepStage1Done (x : Fin 4) :
    Sys2Proof.Laws.Plain.Statement (.prepSleepStage1Done x) := rfl
theorem Sys2Proof.Laws.Plain.hpTransactionStart (sck : Bool) :
    Sys2Proof.Laws.Plain.Statement (.hpTransactionStart sck) := rfl
theorem Sys2Proof.Laws.Plain.hpTransactionEnd (sdi : List Bool) (take : Bool) :
    Sys2Proof.Laws.Plain.Statement (.hpTransactionEnd sdi take) := rfl
theorem Sys2Proof.Laws.Plain.hpNop (seq : BitVec 8) (src : BitVec 4) :
    Sys2Proof.Laws.Plain.Statement (.hpNop seq src) := rfl
theorem Sys2Proof.Laws.Plain.resend (seq : BitVec 8) (src : BitVec 4) :
    Sys2Proof.Laws.Plain.Statement (.resend seq src) := rfl
theorem Sys2Proof.Laws.Plain.ident (seq : BitVec 8) (src : BitVec 4) :
    Sys2Proof.Laws.Plain.Statement (.ident seq src) := rfl
theorem Sys2Proof.Laws.Plain.hpForget (seq : BitVec 8) (src : BitVec 4) :
    Sys2Proof.Laws.Plain.Statement (.hpForget seq src) := rfl
theorem Sys2Proof.Laws.Plain.ackRestart (seq : BitVec 8) (src : BitVec 4) :
    Sys2Proof.Laws.Plain.Statement (.ackRestart seq src) := rfl
theorem Sys2Proof.Laws.Plain.hpForward (cmd : BitVec 8) (seq : BitVec 8) (src : BitVec 4) (payload : List Sys2Proof.W32) :
    Sys2Proof.Laws.Plain.Statement (.hpForward cmd seq src payload) := rfl
theorem Sys2Proof.Laws.Plain.hpResponseTake :
    Sys2Proof.Laws.Plain.Statement (.hpResponseTake) := rfl
theorem Sys2Proof.Laws.Plain.hpCsnWake :
    Sys2Proof.Laws.Plain.Statement (.hpCsnWake) := rfl
theorem Sys2Proof.Laws.Plain.plkEnable (c : Fin 4) (v : Sys2Proof.W32) :
    Sys2Proof.Laws.Plain.Statement (.plkEnable c v) := rfl
theorem Sys2Proof.Laws.Plain.plkDisable (c : Fin 4) (v : Sys2Proof.W32) (same : Bool) (tries : BitVec 5) (ago : Nat) :
    Sys2Proof.Laws.Plain.Statement (.plkDisable c v same tries ago) := rfl
theorem Sys2Proof.Laws.Plain.txDb (c : Fin 4) :
    Sys2Proof.Laws.Plain.Statement (.txDb c) := rfl
theorem Sys2Proof.Laws.Plain.rxDb (c : Fin 4) :
    Sys2Proof.Laws.Plain.Statement (.rxDb c) := rfl
theorem Sys2Proof.Laws.Plain.plkTxComplete (res : Fin 3) (tries : BitVec 5) (ago : Nat) (opp : Fin 32) (nth : Nat) (gap : Nat) :
    Sys2Proof.Laws.Plain.Statement (.plkTxComplete res tries ago opp nth gap) := rfl
theorem Sys2Proof.Laws.Plain.plkFrameReceived (start : Bool) (frame : List Sys2Proof.W8) (ago : Nat) :
    Sys2Proof.Laws.Plain.Statement (.plkFrameReceived start frame ago) := rfl
theorem Sys2Proof.Laws.Plain.plcaChg (st : Bool) :
    Sys2Proof.Laws.Plain.Statement (.plcaChg st) := rfl
theorem Sys2Proof.Laws.Plain.mgmtReset :
    Sys2Proof.Laws.Plain.Statement (.mgmtReset) := rfl
theorem Sys2Proof.Laws.Plain.sensorSample (q : Fin 20) (x : Int) (hz : Nat) (dc : Bool) :
    Sys2Proof.Laws.Plain.Statement (.sensorSample q x hz dc) := rfl
theorem Sys2Proof.Laws.Plain.isoMeasure (ohms : Nat) :
    Sys2Proof.Laws.Plain.Statement (.isoMeasure ohms) := rfl
theorem Sys2Proof.Laws.Plain.wdKick (c : Fin 4) (key : Sys2Proof.W16) :
    Sys2Proof.Laws.Plain.Statement (.wdKick c key) := rfl
theorem Sys2Proof.Laws.Plain.wdExpiry :
    Sys2Proof.Laws.Plain.Statement (.wdExpiry) := rfl
theorem Sys2Proof.Laws.Plain.wdWarn :
    Sys2Proof.Laws.Plain.Statement (.wdWarn) := rfl
theorem Sys2Proof.Laws.Plain.wdHoldRelease :
    Sys2Proof.Laws.Plain.Statement (.wdHoldRelease) := rfl
theorem Sys2Proof.Laws.Plain.deputyEvent (i : Fin 72) :
    Sys2Proof.Laws.Plain.Statement (.deputyEvent i) := rfl
theorem Sys2Proof.Laws.Plain.logFlashWrite :
    Sys2Proof.Laws.Plain.Statement (.logFlashWrite) := rfl
theorem Sys2Proof.Laws.Plain.lifetimeSnapshot :
    Sys2Proof.Laws.Plain.Statement (.lifetimeSnapshot) := rfl
theorem Sys2Proof.Laws.Plain.lifeTjSample :
    Sys2Proof.Laws.Plain.Statement (.lifeTjSample) := rfl
theorem Sys2Proof.Laws.Plain.lifeRecompute :
    Sys2Proof.Laws.Plain.Statement (.lifeRecompute) := rfl
theorem Sys2Proof.Laws.Plain.post (c : Fin 4) (slot : Fin 32) :
    Sys2Proof.Laws.Plain.Statement (.post c slot) := rfl
theorem Sys2Proof.Laws.Plain.rspAck (c : Fin 4) (slot : BitVec 6) :
    Sys2Proof.Laws.Plain.Statement (.rspAck c slot) := rfl
theorem Sys2Proof.Laws.Plain.checkIn :
    Sys2Proof.Laws.Plain.Statement (.checkIn) := rfl
theorem Sys2Proof.Laws.Plain.limpSet :
    Sys2Proof.Laws.Plain.Statement (.limpSet) := rfl
theorem Sys2Proof.Laws.Plain.limpRelease :
    Sys2Proof.Laws.Plain.Statement (.limpRelease) := rfl
theorem Sys2Proof.Laws.Plain.logWrite :
    Sys2Proof.Laws.Plain.Statement (.logWrite) := rfl
theorem Sys2Proof.Laws.Plain.logRead :
    Sys2Proof.Laws.Plain.Statement (.logRead) := rfl
theorem Sys2Proof.Laws.Plain.logFilter :
    Sys2Proof.Laws.Plain.Statement (.logFilter) := rfl
theorem Sys2Proof.Laws.Plain.lifeRead :
    Sys2Proof.Laws.Plain.Statement (.lifeRead) := rfl
theorem Sys2Proof.Laws.Plain.trendRead :
    Sys2Proof.Laws.Plain.Statement (.trendRead) := rfl
theorem Sys2Proof.Laws.Plain.tempLimit :
    Sys2Proof.Laws.Plain.Statement (.tempLimit) := rfl
theorem Sys2Proof.Laws.Plain.updBegin :
    Sys2Proof.Laws.Plain.Statement (.updBegin) := rfl
theorem Sys2Proof.Laws.Plain.updWrite :
    Sys2Proof.Laws.Plain.Statement (.updWrite) := rfl
theorem Sys2Proof.Laws.Plain.updVerify :
    Sys2Proof.Laws.Plain.Statement (.updVerify) := rfl
theorem Sys2Proof.Laws.Plain.updActivate :
    Sys2Proof.Laws.Plain.Statement (.updActivate) := rfl
theorem Sys2Proof.Laws.Plain.updAbort :
    Sys2Proof.Laws.Plain.Statement (.updAbort) := rfl
theorem Sys2Proof.Laws.Plain.updDone (fail : Bool) :
    Sys2Proof.Laws.Plain.Statement (.updDone fail) := rfl
theorem Sys2Proof.Laws.Plain.keyRevoke :
    Sys2Proof.Laws.Plain.Statement (.keyRevoke) := rfl
theorem Sys2Proof.Laws.Plain.dbgClose :
    Sys2Proof.Laws.Plain.Statement (.dbgClose) := rfl
theorem Sys2Proof.Laws.Plain.dbgLock :
    Sys2Proof.Laws.Plain.Statement (.dbgLock) := rfl
theorem Sys2Proof.Laws.Plain.trialTimeout :
    Sys2Proof.Laws.Plain.Statement (.trialTimeout) := rfl
theorem Sys2Proof.Laws.Plain.pwrRequest (c : Fin 4) (key : Sys2Proof.W16) (target : BitVec 2) :
    Sys2Proof.Laws.Plain.Statement (.pwrRequest c key target) := rfl
theorem Sys2Proof.Laws.Plain.qtmoTimeout :
    Sys2Proof.Laws.Plain.Statement (.qtmoTimeout) := rfl
theorem Sys2Proof.Laws.Plain.stageAnswer :
    Sys2Proof.Laws.Plain.Statement (.stageAnswer) := rfl
theorem Sys2Proof.Laws.Plain.stageTimeout :
    Sys2Proof.Laws.Plain.Statement (.stageTimeout) := rfl
theorem Sys2Proof.Laws.Plain.wakeRequest (src : Fin 15) :
    Sys2Proof.Laws.Plain.Statement (.wakeRequest src) := rfl
theorem Sys2Proof.Laws.Plain.wakePad (ms : Nat) :
    Sys2Proof.Laws.Plain.Statement (.wakePad ms) := rfl
theorem Sys2Proof.Laws.Plain.returnStepReady :
    Sys2Proof.Laws.Plain.Statement (.returnStepReady) := rfl
theorem Sys2Proof.Laws.Plain.returnStepTimeout :
    Sys2Proof.Laws.Plain.Statement (.returnStepTimeout) := rfl
theorem Sys2Proof.Laws.Plain.bulkInitDone :
    Sys2Proof.Laws.Plain.Statement (.bulkInitDone) := rfl
theorem Sys2Proof.Laws.Plain.holdRel (c : Fin 4) (mask : BitVec 6) :
    Sys2Proof.Laws.Plain.Statement (.holdRel c mask) := rfl
theorem Sys2Proof.Laws.Plain.mainsChange (ok : Bool) (dc : Bool) :
    Sys2Proof.Laws.Plain.Statement (.mainsChange ok dc) := rfl
theorem Sys2Proof.Laws.Plain.vbkChange (ok : Bool) (dv : Nat) :
    Sys2Proof.Laws.Plain.Statement (.vbkChange ok dv) := rfl
theorem Sys2Proof.Laws.Plain.sourceChange :
    Sys2Proof.Laws.Plain.Statement (.sourceChange) := rfl
theorem Sys2Proof.Laws.Plain.busBrownOut :
    Sys2Proof.Laws.Plain.Statement (.busBrownOut) := rfl
theorem Sys2Proof.Laws.Plain.powerOnReset :
    Sys2Proof.Laws.Plain.Statement (.powerOnReset) := rfl
theorem Sys2Proof.Laws.Plain.trimLock :
    Sys2Proof.Laws.Plain.Statement (.trimLock) := rfl
theorem Sys2Proof.Laws.Plain.rstnAssert (us : Nat) :
    Sys2Proof.Laws.Plain.Statement (.rstnAssert us) := rfl
theorem Sys2Proof.Laws.Plain.rstnRelease (ms : Nat) :
    Sys2Proof.Laws.Plain.Statement (.rstnRelease ms) := rfl
theorem Sys2Proof.Laws.Plain.bootCheck (ms : Nat) :
    Sys2Proof.Laws.Plain.Statement (.bootCheck ms) := rfl
theorem Sys2Proof.Laws.Plain.arbitrationLost (x : Fin 4) :
    Sys2Proof.Laws.Plain.Statement (.arbitrationLost x) := rfl
theorem Sys2Proof.Laws.Plain.stringThermalLatchClear (k : Fin 3) (tj : Int) :
    Sys2Proof.Laws.Plain.Statement (.stringThermalLatchClear k tj) := rfl
theorem Sys2Proof.Laws.Plain.groupThermalLatchClear (g : Fin 4) (tj : Int) :
    Sys2Proof.Laws.Plain.Statement (.groupThermalLatchClear g tj) := rfl
theorem Sys2Proof.Laws.Plain.valveQueueMessage (n : Fin 16) :
    Sys2Proof.Laws.Plain.Statement (.valveQueueMessage n) := rfl
theorem Sys2Proof.Laws.Plain.lampQueueMessage (k : Fin 3) :
    Sys2Proof.Laws.Plain.Statement (.lampQueueMessage k) := rfl
end

