-- ==== Sys2Proof/Laws/TouchCycle.lean ====
section
/-! SUPPORT. The parts of State that each operation of Machine/Cycle.lean changes. -/

namespace Sys2Proof.Machine

theorem State.sendCycle_touch (s : State) (u : CycleUnit) (cs : List Instr) :
    onlyTouches [.pending] s (State.sendCycle s u cs) := by
  unfold State.sendCycle
  repeat' first
    | (with_reducible apply onlyTouches.refl)
    | (with_reducible apply onlyTouches.put_pending; (case m => decide))

end Sys2Proof.Machine
end

