-- ==== Sys2Proof/Tests/Slice0.lean ====
section
/-! SUPPORT. Tests: small states, ill-formed commands that the check refuses, words of Crika v2 and worked examples of the
spec, and for every statement with hypotheses a state and operands that meet them. -/

namespace Sys2Proof.Tests

set_option Elab.async false

open Sys2Proof.Machine Sys2Proof.Claims

/-- All islands run, the control plane is up, C0 is started: the state the tests start from. -/
def run0 : State :=
  let s := State.reset
  let p : Pwr := { s.pwr with phase := .run, bulkRdy := true }
  let u : Supply := { s.sup with coreReset := false }
  let d : Dep := { s.dep with mgmtUp := true }
  { s with
    up := Vector.replicate 72 true
    pwr := p
    sup := u
    dep := d
    core := upd s.core 0 fun k => { k with started := true } }

/-- The state an outcome goes on in. -/
def after (o : Out) : State := match o with | .next s => s | _ => State.reset

/-- Channel `n` as `f` makes it. -/
def hs0 (n : Fin 48) (f : Hs → Hs) : State := run0.modHs n f

/-- ADM's message `m` is on its way to target `t`. -/
def toldBy (s : State) (t : Nat) (m : ToTgt) : State := s.modAdm fun a => { a with toTgt := [(t, m)] }


/-- What meets the hypotheses of RegistersStoreFieldsAndReadToClear: one conjunct for each clause, in the order of its clauses. -/
theorem witness_RegistersStoreFieldsAndReadToClear :
    ((((2 : Fin 22).val, (0x20 : BitVec 16).toNat, (0x3FF : Nat), (2 : Nat), (8 : Nat)) ∈ rwRegs) ∧ (canStore (run0 : State) (2 : Nat) (8 : Nat))) ∧
    (((run0 : State).coreRuns = true) ∧ ((0x21 : BitVec 16).toNat % 4 ≠ 0 ∨ (run0 : State).isUp (regIsland (2 : Fin 22).val (0x21 : BitVec 16).toNat) = false)) ∧
    (((run0.modPwr fun p => { p with cntEarly := 5, cntEntries := 7 } : State).coreRuns = true) ∧ (((1 : Fin 22).val, (0x34 : BitVec 16).toNat, (0 : Nat)) ∈ rcRegs) ∧ ((run0.modPwr fun p => { p with cntEarly := 5, cntEntries := 7 } : State).isUp (0 : Nat) = true)) := by
  refine ⟨?_, ?_, ?_⟩ <;> decide +kernel

/-- What meets the hypotheses of ControlPlaneResetClearsCoreAlone: one conjunct for each clause, in the order of its clauses. -/
theorem witness_ControlPlaneResetClearsCoreAlone :
    (((run0 : State).isUp 1 = true) ∧ ((run0 : State).isUp 2 = true) ∧ ((run0 : State).pwr.phase = .run) ∧ ((1 : Fin 4).val ≠ 2) ∧ (0 < (run0 : State).hsc.holdUs) ∧ ((run0 : State).que.held = [])) ∧
    (((run0.modDep fun d => { d with rebootAt := some 100 } : State).isUp 1 = true) ∧ ((run0.modDep fun d => { d with rebootAt := some 100 } : State).isUp 2 = true) ∧ ((run0.modDep fun d => { d with rebootAt := some 100 } : State).pwr.phase = .run) ∧ ((run0.modDep fun d => { d with rebootAt := some 100 } : State).dep.rebootAt = some (100 : Nat)) ∧ ((run0.modDep fun d => { d with rebootAt := some 100 } : State).now ≤ (100 : Nat)) ∧ (0 < (run0.modDep fun d => { d with rebootAt := some 100 } : State).hsc.holdUs)) := by
  refine ⟨?_, ?_⟩ <;> decide +kernel

theorem witness_ControlPlaneResetKeepsMemory :
    ((3 : Fin 4).val ≠ 2) := by decide +kernel

/-- What meets the hypotheses of TimeBaseWraps: one conjunct for each clause, in the order of its clauses. -/
theorem witness_TimeBaseWraps :
    (((run0 : State).tmbRuns = true)) ∧
    (((run0.modPwr fun p => { p with phase := .off } : State).tmbRuns = false)) := by
  refine ⟨?_, ?_⟩ <;> decide +kernel

/-- What meets the hypotheses of AlarmFiresAndTimeLatches: one conjunct for each clause, in the order of its clauses. -/
theorem witness_AlarmFiresAndTimeLatches :
    (((run0.modTmb fun m => { m with en := true, alarmLo := 7 } : State).tmbRuns = true) ∧ ((run0.modTmb fun m => { m with en := true, alarmLo := 7 } : State).tmb.en = true)) ∧
    (((2 : Fin 5).val < 4) ∧ ((run0.modTmb fun m => { m with now := 0x123456789ABC } : State).coreRuns = true) ∧ ((run0.modTmb fun m => { m with now := 0x123456789ABC } : State).isUp 0 = true)) ∧
    (((run0.modTmb fun m => { m with now := 0x123456789ABC } : State).depUp = true) ∧ ((run0.modTmb fun m => { m with now := 0x123456789ABC } : State).isUp 0 = true)) ∧
    (((run0 : State).tmb.en = false ∨ (run0 : State).tmbRuns = false)) := by
  refine ⟨?_, ?_, ?_, ?_⟩ <;> decide +kernel

/-- What meets the hypotheses of EventsLeaveInOrderAndReachFilters: one conjunct for each clause, in the order of its clauses. -/
theorem witness_EventsLeaveInOrderAndReachFilters :
    (((run0.emit 30 1 2 : State).isUp 2 = true) ∧ ((run0.emit 30 1 2 : State).fab.out[(30 : Fin 72)].recs = ({ time := 0, src := 30, code := 1, arg := 2 } : EvRec) :: ([] : List EvRec))) ∧
    (((run0 : State).isUp 2 = false ∨ (run0 : State).fab.out[(30 : Fin 72)].recs = [])) ∧
    (((((run0.emit 30 1 2).pull 30) : State).coreRuns = true) ∧ (takeCore (1 : Fin 4) (30 : Fin 72).val (((run0.emit 30 1 2).pull 30) : State).fab.hub = some (({ time := 0, src := 30, code := 1, arg := 2 } : EvRec), ([{ ev := { time := 0, src := 30, code := 1, arg := 2 }, cores := [0, 2, 3], dep := true }] : List HubRec)))) ∧
    (((run0.emit 30 1 2 : State).coreRuns = true) ∧ ((run0.emit 30 1 2 : State).isUp 2 = true) ∧ (takeCore (1 : Fin 4) (30 : Fin 72).val (run0.emit 30 1 2 : State).fab.hub = none) ∧ ((run0.emit 30 1 2 : State).fab.out[(30 : Fin 72)].recs = ({ time := 0, src := 30, code := 1, arg := 2 } : EvRec) :: ([] : List EvRec)) ∧ (({ time := 0, src := 30, code := 1, arg := 2 } : EvRec).src = (30 : Fin 72).val)) ∧
    ((((run0.emit 30 1 2).modSup fun u => { u with coreReset := true } : State).coreRuns = false) ∧ (((run0.emit 30 1 2).modSup fun u => { u with coreReset := true } : State).isUp 2 = true) ∧ (takeCore (1 : Fin 4) (30 : Fin 72).val ((run0.emit 30 1 2).modSup fun u => { u with coreReset := true } : State).fab.hub = none) ∧ (((run0.emit 30 1 2).modSup fun u => { u with coreReset := true } : State).fab.out[(30 : Fin 72)].recs = ({ time := 0, src := 30, code := 1, arg := 2 } : EvRec) :: ([] : List EvRec))) ∧
    ((takeCore (1 : Fin 4) (30 : Fin 72).val (run0 : State).fab.hub = none ∧ ((run0 : State).fab.out[(30 : Fin 72)].recs = [] ∨ (run0 : State).isUp 2 = false) ∨ (run0 : State).coreRuns = false ∧ (takeCore (1 : Fin 4) (30 : Fin 72).val (run0 : State).fab.hub).isSome = true)) := by
  refine ⟨?_, ?_, ?_, ?_, ?_, ?_⟩ <;> decide +kernel

/-- What meets the hypotheses of HighSideFirmwareCommandsMoveTheChannel: one conjunct for each clause, in the order of its clauses. -/
theorem witness_HighSideFirmwareCommandsMoveTheChannel_1 :
    ((canStore (run0 : State) (islHs (5 : Fin 48).val) 8) ∧ ((run0 : State).hs[(5 : Fin 48)].st = .disabled) ∧ ((run0 : State).hsPadHeld (5 : Fin 48) = false)) ∧
    ((canStore (hs0 5 fun h => { h with st := .on, ctl := 3 } : State) (islHs (5 : Fin 48).val) 8) ∧ ((hs0 5 fun h => { h with st := .on, ctl := 3 } : State).hs[(5 : Fin 48)].st ≠ .disabled) ∧ ((hs0 5 fun h => { h with st := .on, ctl := 3 } : State).hsPadHeld (5 : Fin 48) = false)) ∧
    ((canStore (hs0 5 fun h => { h with st := .on, limp := true } : State) (islHs (5 : Fin 48).val) 8) ∧ ((hs0 5 fun h => { h with st := .on, limp := true } : State).hs[(5 : Fin 48)].limp = true)) ∧
    ((canStore (hs0 5 fun h => { h with st := .latched, ctl := 3 } : State) (islHs (5 : Fin 48).val) 8) ∧ ((hs0 5 fun h => { h with st := .latched, ctl := 3 } : State).hs[(5 : Fin 48)].limp = false) ∧ ((hs0 5 fun h => { h with st := .latched, ctl := 3 } : State).hs[(5 : Fin 48)].st = .latched)) ∧
    ((canStore (hs0 5 fun h => { h with st := .on, ctl := 3, mark := .grantOn } : State) (islHs (5 : Fin 48).val) 8) ∧ ((hs0 5 fun h => { h with st := .on, ctl := 3, mark := .grantOn } : State).hs[(5 : Fin 48)].limp = false) ∧ ((hs0 5 fun h => { h with st := .on, ctl := 3, mark := .grantOn } : State).hs[(5 : Fin 48)].markAt = (hs0 5 fun h => { h with st := .on, ctl := 3, mark := .grantOn } : State).now) ∧ ((hs0 5 fun h => { h with st := .on, ctl := 3, mark := .grantOn } : State).hs[(5 : Fin 48)].mark = .grantOn) ∧ (hsOn (hs0 5 fun h => { h with st := .on, ctl := 3, mark := .grantOn } : State).hs[(5 : Fin 48)].st = true)) ∧
    ((canStore (hs0 5 fun h => { h with st := .latched, ctl := 3, mark := .fault } : State) (islHs (5 : Fin 48).val) 8) ∧ ((hs0 5 fun h => { h with st := .latched, ctl := 3, mark := .fault } : State).hs[(5 : Fin 48)].limp = false) ∧ ((hs0 5 fun h => { h with st := .latched, ctl := 3, mark := .fault } : State).hs[(5 : Fin 48)].markAt = (hs0 5 fun h => { h with st := .latched, ctl := 3, mark := .fault } : State).now) ∧ ((hs0 5 fun h => { h with st := .latched, ctl := 3, mark := .fault } : State).hs[(5 : Fin 48)].mark = .fault) ∧ ((hs0 5 fun h => { h with st := .latched, ctl := 3, mark := .fault } : State).hs[(5 : Fin 48)].st = .latched ∨ (hs0 5 fun h => { h with st := .latched, ctl := 3, mark := .fault } : State).hs[(5 : Fin 48)].st = .retryWait)) ∧
    ((canStore (run0 : State) (islHs (5 : Fin 48).val) 8) ∧ ((run0 : State).hs[(5 : Fin 48)].limp = false) ∧ ((run0 : State).hs[(5 : Fin 48)].st = .disabled)) ∧
    ((canStore (run0.modPwr fun p => { p with holdStat := 1 } : State) (islHs (5 : Fin 48).val) 8) ∧ ((run0.modPwr fun p => { p with holdStat := 1 } : State).hsPadHeld (5 : Fin 48) = true)) ∧
    ((canStore (hs0 5 fun h => { h with st := .on, ctl := 3 } : State) (islHs (5 : Fin 48).val) 8) ∧ ((hs0 5 fun h => { h with st := .on, ctl := 3 } : State).hs[(5 : Fin 48)].limp = false) ∧ ((hs0 5 fun h => { h with st := .on, ctl := 3 } : State).hs[(5 : Fin 48)].markAt ≠ (hs0 5 fun h => { h with st := .on, ctl := 3 } : State).now ∨ (false : Bool) = false) ∧ ((hs0 5 fun h => { h with st := .on, ctl := 3 } : State).hs[(5 : Fin 48)].st ≠ .latched)) ∧
    ((canStore (hs0 5 fun h => { h with st := .on, ctl := 3 } : State) (islHs (5 : Fin 48).val) 8) ∧ ((hs0 5 fun h => { h with st := .on, ctl := 3 } : State).hs[(5 : Fin 48)].limp = false) ∧ ((hs0 5 fun h => { h with st := .on, ctl := 3 } : State).hs[(5 : Fin 48)].markAt ≠ (hs0 5 fun h => { h with st := .on, ctl := 3 } : State).now ∨ (false : Bool) = false) ∧ ((hs0 5 fun h => { h with st := .on, ctl := 3 } : State).hs[(5 : Fin 48)].st ≠ .latched) ∧ ((hs0 5 fun h => { h with st := .on, ctl := 3 } : State).hs[(5 : Fin 48)].st ≠ .disabled)) ∧
    ((canStore (hs0 5 fun h => { h with st := .on, ctl := 3, mark := .grantOn } : State) (islHs (5 : Fin 48).val) 8) ∧ ((hs0 5 fun h => { h with st := .on, ctl := 3, mark := .grantOn } : State).hs[(5 : Fin 48)].limp = false) ∧ ((hs0 5 fun h => { h with st := .on, ctl := 3, mark := .grantOn } : State).hs[(5 : Fin 48)].markAt = (hs0 5 fun h => { h with st := .on, ctl := 3, mark := .grantOn } : State).now) ∧ ((hs0 5 fun h => { h with st := .on, ctl := 3, mark := .grantOn } : State).hs[(5 : Fin 48)].mark = .grantOn) ∧ (hsOn (hs0 5 fun h => { h with st := .on, ctl := 3, mark := .grantOn } : State).hs[(5 : Fin 48)].st = true)) := by
  refine ⟨?_, ?_, ?_, ?_, ?_, ?_, ?_, ?_, ?_, ?_, ?_⟩ <;> decide +kernel

/-- What meets the hypotheses of HighSideFirmwareCommandsMoveTheChannel: one conjunct for each clause, in the order of its clauses. -/
theorem witness_HighSideFirmwareCommandsMoveTheChannel_2 :
    ((canStore (hs0 5 fun h => { h with st := .latched, ctl := 3, mark := .fault } : State) (islHs (5 : Fin 48).val) 8) ∧ ((hs0 5 fun h => { h with st := .latched, ctl := 3, mark := .fault } : State).hs[(5 : Fin 48)].limp = false) ∧ ((hs0 5 fun h => { h with st := .latched, ctl := 3, mark := .fault } : State).hs[(5 : Fin 48)].markAt = (hs0 5 fun h => { h with st := .latched, ctl := 3, mark := .fault } : State).now) ∧ ((hs0 5 fun h => { h with st := .latched, ctl := 3, mark := .fault } : State).hs[(5 : Fin 48)].mark = .fault) ∧ ((hs0 5 fun h => { h with st := .latched, ctl := 3, mark := .fault } : State).hs[(5 : Fin 48)].st = .latched ∨ (hs0 5 fun h => { h with st := .latched, ctl := 3, mark := .fault } : State).hs[(5 : Fin 48)].st = .retryWait)) ∧
    ((canStore (hs0 5 fun h => { h with st := .on, limp := true } : State) (islHs (5 : Fin 48).val) 8) ∧ ((hs0 5 fun h => { h with st := .on, limp := true } : State).hs[(5 : Fin 48)].limp = true ∨ (false : Bool) = true ∨ (hs0 5 fun h => { h with st := .on, limp := true } : State).hs[(5 : Fin 48)].st = .latched ∧ (true : Bool) = false)) ∧
    ((canStore (hs0 5 fun h => { h with st := .latched, ctl := 3, retryCnt := 4 } : State) (islHs (5 : Fin 48).val) 8) ∧ ((hs0 5 fun h => { h with st := .latched, ctl := 3, retryCnt := 4 } : State).hs[(5 : Fin 48)].limp = false) ∧ ((hs0 5 fun h => { h with st := .latched, ctl := 3, retryCnt := 4 } : State).hs[(5 : Fin 48)].tl = false)) ∧
    ((canStore (hs0 5 fun h => { h with st := .latched, tl := true } : State) (islHs (5 : Fin 48).val) 8) ∧ ((hs0 5 fun h => { h with st := .latched, tl := true } : State).hs[(5 : Fin 48)].limp = true ∨ (hs0 5 fun h => { h with st := .latched, tl := true } : State).hs[(5 : Fin 48)].tl = true ∨ (false : Bool) = true)) ∧
    ((canStore (run0.modHs 5 fun h => { h with st := .on, ctl := 3 } : State) 2 8)) := by
  refine ⟨?_, ?_, ?_, ?_, ?_⟩ <;> decide +kernel

/-- What meets the hypotheses of AdmMessagesMoveTheChannel: one conjunct for each clause, in the order of its clauses. -/
theorem witness_AdmMessagesMoveTheChannel_1 :
    ((takeMsg (5 : Fin 48).val .entry (toldBy (hs0 5 fun h => { h with st := .off, bankOk := true }) 5 .entry : State).adm.toTgt = some ([] : List (Nat × ToTgt))) ∧ ((toldBy (hs0 5 fun h => { h with st := .off, bankOk := true }) 5 .entry : State).hsUp (5 : Fin 48) = true) ∧ ((toldBy (hs0 5 fun h => { h with st := .off, bankOk := true }) 5 .entry : State).hs[(5 : Fin 48)].st = .off) ∧ ((toldBy (hs0 5 fun h => { h with st := .off, bankOk := true }) 5 .entry : State).hs[(5 : Fin 48)].tl = false) ∧ ((toldBy (hs0 5 fun h => { h with st := .off, bankOk := true }) 5 .entry : State).hs[(5 : Fin 48)].bankOk = true) ∧ ((toldBy (hs0 5 fun h => { h with st := .off, bankOk := true }) 5 .entry : State).hs[(5 : Fin 48)].limp = false)) ∧
    ((takeMsg (5 : Fin 48).val .entryOwn (toldBy (hs0 5 fun h => { h with st := .off, bankOk := true, limp := true, own := true }) 5 .entryOwn : State).adm.toTgt = some ([] : List (Nat × ToTgt))) ∧ ((toldBy (hs0 5 fun h => { h with st := .off, bankOk := true, limp := true, own := true }) 5 .entryOwn : State).hsUp (5 : Fin 48) = true) ∧ ((toldBy (hs0 5 fun h => { h with st := .off, bankOk := true, limp := true, own := true }) 5 .entryOwn : State).hs[(5 : Fin 48)].st = .off) ∧ ((toldBy (hs0 5 fun h => { h with st := .off, bankOk := true, limp := true, own := true }) 5 .entryOwn : State).hs[(5 : Fin 48)].tl = false) ∧ ((toldBy (hs0 5 fun h => { h with st := .off, bankOk := true, limp := true, own := true }) 5 .entryOwn : State).hs[(5 : Fin 48)].bankOk = true)) ∧
    ((takeMsg (5 : Fin 48).val .entry (toldBy (hs0 5 fun h => { h with st := .off }) 5 .entry : State).adm.toTgt = some ([] : List (Nat × ToTgt))) ∧ ((toldBy (hs0 5 fun h => { h with st := .off }) 5 .entry : State).hsUp (5 : Fin 48) = true) ∧ ((toldBy (hs0 5 fun h => { h with st := .off }) 5 .entry : State).hs[(5 : Fin 48)].st = .off) ∧ ((toldBy (hs0 5 fun h => { h with st := .off }) 5 .entry : State).hs[(5 : Fin 48)].tl = false) ∧ ((toldBy (hs0 5 fun h => { h with st := .off }) 5 .entry : State).hs[(5 : Fin 48)].bankOk = false) ∧ ((toldBy (hs0 5 fun h => { h with st := .off }) 5 .entry : State).hs[(5 : Fin 48)].limp = false)) ∧
    ((takeMsg (5 : Fin 48).val .entry (toldBy (hs0 5 fun h => { h with st := .latched }) 5 .entry : State).adm.toTgt = some ([] : List (Nat × ToTgt))) ∧ ((toldBy (hs0 5 fun h => { h with st := .latched }) 5 .entry : State).hsUp (5 : Fin 48) = true) ∧ ((toldBy (hs0 5 fun h => { h with st := .latched }) 5 .entry : State).hs[(5 : Fin 48)].st ≠ .pending) ∧ ((toldBy (hs0 5 fun h => { h with st := .latched }) 5 .entry : State).hs[(5 : Fin 48)].st ≠ .off ∨ (toldBy (hs0 5 fun h => { h with st := .latched }) 5 .entry : State).hs[(5 : Fin 48)].tl = true ∨ (toldBy (hs0 5 fun h => { h with st := .latched }) 5 .entry : State).hs[(5 : Fin 48)].limp = true ∧ (toldBy (hs0 5 fun h => { h with st := .latched }) 5 .entry : State).hs[(5 : Fin 48)].own = false)) ∧
    ((takeMsg (5 : Fin 48).val .grant (toldBy (hs0 5 fun h => { h with st := .pending, bankOk := true }) 5 .grant : State).adm.toTgt = some ([] : List (Nat × ToTgt))) ∧ ((toldBy (hs0 5 fun h => { h with st := .pending, bankOk := true }) 5 .grant : State).hsUp (5 : Fin 48) = true) ∧ ((toldBy (hs0 5 fun h => { h with st := .pending, bankOk := true }) 5 .grant : State).hs[(5 : Fin 48)].st = .pending) ∧ ((toldBy (hs0 5 fun h => { h with st := .pending, bankOk := true }) 5 .grant : State).hs[(5 : Fin 48)].tl = false) ∧ ((toldBy (hs0 5 fun h => { h with st := .pending, bankOk := true }) 5 .grant : State).hs[(5 : Fin 48)].bankOk = true)) ∧
    ((takeMsg (5 : Fin 48).val .grant (toldBy (hs0 5 fun h => { h with st := .off, bankOk := true }) 5 .grant : State).adm.toTgt = some ([] : List (Nat × ToTgt))) ∧ ((toldBy (hs0 5 fun h => { h with st := .off, bankOk := true }) 5 .grant : State).hsUp (5 : Fin 48) = true) ∧ ((toldBy (hs0 5 fun h => { h with st := .off, bankOk := true }) 5 .grant : State).hs[(5 : Fin 48)].st ≠ .pending)) ∧
    ((takeMsg (5 : Fin 48).val .drop (toldBy (hs0 5 fun h => { h with st := .pending }) 5 .drop : State).adm.toTgt = some ([] : List (Nat × ToTgt))) ∧ ((toldBy (hs0 5 fun h => { h with st := .pending }) 5 .drop : State).hsUp (5 : Fin 48) = true) ∧ ((toldBy (hs0 5 fun h => { h with st := .pending }) 5 .drop : State).hs[(5 : Fin 48)].st = .pending)) := by
  refine ⟨?_, ?_, ?_, ?_, ?_, ?_, ?_⟩ <;> decide +kernel

/-- What meets the hypotheses of AdmMessagesMoveTheChannel: one conjunct for each clause, in the order of its clauses. -/
theorem witness_AdmMessagesMoveTheChannel_2 :
    ((takeMsg (5 : Fin 48).val .drop (toldBy (hs0 5 fun h => { h with st := .on }) 5 .drop : State).adm.toTgt = some ([] : List (Nat × ToTgt))) ∧ ((toldBy (hs0 5 fun h => { h with st := .on }) 5 .drop : State).hsUp (5 : Fin 48) = true) ∧ ((toldBy (hs0 5 fun h => { h with st := .on }) 5 .drop : State).hs[(5 : Fin 48)].st ≠ .pending)) ∧
    ((takeMsg (5 : Fin 48).val .off (toldBy (hs0 5 fun h => { h with st := .on }) 5 .off : State).adm.toTgt = some ([] : List (Nat × ToTgt))) ∧ ((toldBy (hs0 5 fun h => { h with st := .on }) 5 .off : State).hsUp (5 : Fin 48) = true) ∧ ((toldBy (hs0 5 fun h => { h with st := .on }) 5 .off : State).hs[(5 : Fin 48)].st = .on) ∧ ((toldBy (hs0 5 fun h => { h with st := .on }) 5 .off : State).hs[(5 : Fin 48)].limp = false)) ∧
    ((takeMsg (5 : Fin 48).val .grant (run0 : State).adm.toTgt = none ∨ (run0 : State).hsUp (5 : Fin 48) = false)) ∧
    ((takeMsg (5 : Fin 48).val .drop (run0 : State).adm.toTgt = none ∨ (run0 : State).hsUp (5 : Fin 48) = false)) := by
  refine ⟨?_, ?_, ?_, ?_⟩ <;> decide +kernel

/-- What meets the hypotheses of HighSideProtectionTakesTheFaultPath: one conjunct for each clause, in the order of its clauses. -/
theorem witness_HighSideProtectionTakesTheFaultPath :
    (((hs0 5 fun h => { h with st := .on } : State).hsUp (5 : Fin 48) = true) ∧ (hsOn (hs0 5 fun h => { h with st := .on } : State).hs[(5 : Fin 48)].st = true) ∧ (ocThr (5 : Fin 48).val (hs0 5 fun h => { h with st := .on } : State).hs[(5 : Fin 48)].level < ((20000 : Nat) : Rat)) ∧ (max 1 (fld (hs0 5 fun h => { h with st := .on } : State).hs[(5 : Fin 48)].ocCfg 8 6) * 40 ≤ (400 : Nat))) ∧
    (((run0 : State).hsUp (5 : Fin 48) = false ∨ ((100 : Nat) : Rat) ≤ ocThr (5 : Fin 48).val (run0 : State).hs[(5 : Fin 48)].level ∨ (4000 : Nat) < max 1 (fld (run0 : State).hs[(5 : Fin 48)].ocCfg 8 6) * 40 ∨ hsOn (run0 : State).hs[(5 : Fin 48)].st = false)) ∧
    (((hs0 5 fun h => { h with st := .on } : State).hsUp (5 : Fin 48) = true) ∧ (hsOn (hs0 5 fun h => { h with st := .on } : State).hs[(5 : Fin 48)].st = true) ∧ (4 * iNom (5 : Fin 48).val ≤ (24000 : Nat))) ∧
    (((run0 : State).hsUp (5 : Fin 48) = false ∨ (24000 : Nat) < 4 * iNom (5 : Fin 48).val ∨ hsOn (run0 : State).hs[(5 : Fin 48)].st = false)) ∧
    (((hs0 5 fun h => { h with st := .on } : State).hsUp (5 : Fin 48) = true) ∧ ((hs0 5 fun h => { h with st := .on } : State).hs[(5 : Fin 48)].tl = false) ∧ (2800 ≤ (2800 : Int)) ∧ (hsOn (hs0 5 fun h => { h with st := .on } : State).hs[(5 : Fin 48)].st = true)) ∧
    (((hs0 5 fun h => { h with st := .pending } : State).hsUp (5 : Fin 48) = true) ∧ ((hs0 5 fun h => { h with st := .pending } : State).hs[(5 : Fin 48)].tl = false) ∧ (2800 ≤ (2800 : Int)) ∧ ((hs0 5 fun h => { h with st := .pending } : State).hs[(5 : Fin 48)].st = .pending)) ∧
    (((hs0 5 fun h => { h with st := .retryWait, retryAt := some 0 } : State).hsUp (5 : Fin 48) = true) ∧ ((hs0 5 fun h => { h with st := .retryWait, retryAt := some 0 } : State).hs[(5 : Fin 48)].tl = false) ∧ (2800 ≤ (2800 : Int)) ∧ ((hs0 5 fun h => { h with st := .retryWait, retryAt := some 0 } : State).hs[(5 : Fin 48)].st ≠ .pending) ∧ (hsOn (hs0 5 fun h => { h with st := .retryWait, retryAt := some 0 } : State).hs[(5 : Fin 48)].st = false)) ∧
    (((run0 : State).hsUp (5 : Fin 48) = false ∨ (run0 : State).hs[(5 : Fin 48)].tl = true ∨ (2799 : Int) < 2800)) ∧
    (((hs0 5 fun h => { h with st := .retryWait, tl := true } : State).hsUp (5 : Fin 48) = true) ∧ ((hs0 5 fun h => { h with st := .retryWait, tl := true } : State).hs[(5 : Fin 48)].tl = true) ∧ ((2480 : Int) ≤ 2480)) ∧
    (((run0 : State).hsUp (5 : Fin 48) = false ∨ (run0 : State).hs[(5 : Fin 48)].tl = false ∨ 2480 < (400 : Int))) := by
  refine ⟨?_, ?_, ?_, ?_, ?_, ?_, ?_, ?_, ?_, ?_⟩ <;> decide +kernel

/-- What meets the hypotheses of BankVoltageHoldsChannelsOff: one conjunct for each clause, in the order of its clauses. -/
theorem witness_BankVoltageHoldsChannelsOff :
    ((20 ≤ (20 : Nat))) ∧
    (((19 : Nat) < 20)) ∧
    ((10000 ≤ (10000 : Nat)) ∧ ((20000 : Nat) ≤ 65000)) ∧
    (((9999 : Nat) < 10000) ∧ ((20000 : Nat) ≤ 65000)) ∧
    ((65000 < (65001 : Nat))) ∧
    ((canStore (run0 : State) 2 8)) := by
  refine ⟨?_, ?_, ?_, ?_, ?_, ?_⟩ <;> decide +kernel

/-- What meets the hypotheses of HighSideTimersAndEnvelope: one conjunct for each clause, in the order of its clauses. -/
theorem witness_HighSideTimersAndEnvelope_1 :
    (((hs0 5 fun h => { h with st := .inrush, defEnv := true, stepEnd := 10000 } : State).hsUp (5 : Fin 48) = true) ∧ ((hs0 5 fun h => { h with st := .inrush, defEnv := true, stepEnd := 10000 } : State).hs[(5 : Fin 48)].st = .inrush) ∧ ((hs0 5 fun h => { h with st := .inrush, defEnv := true, stepEnd := 10000 } : State).hs[(5 : Fin 48)].defEnv = true ∨ (hs0 5 fun h => { h with st := .inrush, defEnv := true, stepEnd := 10000 } : State).hs[(5 : Fin 48)].env.length ≤ (hs0 5 fun h => { h with st := .inrush, defEnv := true, stepEnd := 10000 } : State).hs[(5 : Fin 48)].envStep + 1 ∨ envDur ((hs0 5 fun h => { h with st := .inrush, defEnv := true, stepEnd := 10000 } : State).hs[(5 : Fin 48)].env.getD ((hs0 5 fun h => { h with st := .inrush, defEnv := true, stepEnd := 10000 } : State).hs[(5 : Fin 48)].envStep + 1) 0) = 0) ∧ ((hs0 5 fun h => { h with st := .inrush, defEnv := true, stepEnd := 10000 } : State).tmbRuns = true)) ∧
    (((hs0 5 fun h => { h with st := .inrush, env := [0x500, 0x600], stepEnd := 10000 } : State).hsUp (5 : Fin 48) = true) ∧ ((hs0 5 fun h => { h with st := .inrush, env := [0x500, 0x600], stepEnd := 10000 } : State).hs[(5 : Fin 48)].st = .inrush) ∧ ((hs0 5 fun h => { h with st := .inrush, env := [0x500, 0x600], stepEnd := 10000 } : State).hs[(5 : Fin 48)].defEnv = false) ∧ ((hs0 5 fun h => { h with st := .inrush, env := [0x500, 0x600], stepEnd := 10000 } : State).hs[(5 : Fin 48)].envStep + 1 < (hs0 5 fun h => { h with st := .inrush, env := [0x500, 0x600], stepEnd := 10000 } : State).hs[(5 : Fin 48)].env.length) ∧ (0 < envDur ((hs0 5 fun h => { h with st := .inrush, env := [0x500, 0x600], stepEnd := 10000 } : State).hs[(5 : Fin 48)].env.getD ((hs0 5 fun h => { h with st := .inrush, env := [0x500, 0x600], stepEnd := 10000 } : State).hs[(5 : Fin 48)].envStep + 1) 0)) ∧ ((hs0 5 fun h => { h with st := .inrush, env := [0x500, 0x600], stepEnd := 10000 } : State).tmbRuns = true)) ∧
    (((hs0 5 fun h => { h with st := .on } : State).hsUp (5 : Fin 48) = false ∨ (hs0 5 fun h => { h with st := .on } : State).hs[(5 : Fin 48)].st ≠ .inrush)) ∧
    (((hs0 5 fun h => { h with st := .retryWait, retryAt := some 0, bankOk := true } : State).hsUp (5 : Fin 48) = true) ∧ ((hs0 5 fun h => { h with st := .retryWait, retryAt := some 0, bankOk := true } : State).hs[(5 : Fin 48)].st = .retryWait) ∧ ((hs0 5 fun h => { h with st := .retryWait, retryAt := some 0, bankOk := true } : State).hs[(5 : Fin 48)].retryAt = some (0 : Nat)) ∧ ((hs0 5 fun h => { h with st := .retryWait, retryAt := some 0, bankOk := true } : State).hs[(5 : Fin 48)].tl = false) ∧ ((hs0 5 fun h => { h with st := .retryWait, retryAt := some 0, bankOk := true } : State).hs[(5 : Fin 48)].bankOk = true) ∧ ((hs0 5 fun h => { h with st := .retryWait, retryAt := some 0, bankOk := true } : State).tmbRuns = true)) ∧
    (((hs0 5 fun h => { h with st := .retryWait, retryAt := some 0 } : State).hsUp (5 : Fin 48) = true) ∧ ((hs0 5 fun h => { h with st := .retryWait, retryAt := some 0 } : State).hs[(5 : Fin 48)].st = .retryWait) ∧ ((hs0 5 fun h => { h with st := .retryWait, retryAt := some 0 } : State).hs[(5 : Fin 48)].retryAt = some (0 : Nat)) ∧ ((hs0 5 fun h => { h with st := .retryWait, retryAt := some 0 } : State).hs[(5 : Fin 48)].tl = false) ∧ ((hs0 5 fun h => { h with st := .retryWait, retryAt := some 0 } : State).hs[(5 : Fin 48)].bankOk = false) ∧ ((hs0 5 fun h => { h with st := .retryWait, retryAt := some 0 } : State).tmbRuns = true)) ∧
    (((hs0 5 fun h => { h with st := .retryWait, retryAt := some 0, tl := true } : State).hsUp (5 : Fin 48) = false ∨ (hs0 5 fun h => { h with st := .retryWait, retryAt := some 0, tl := true } : State).hs[(5 : Fin 48)].st ≠ .retryWait ∨ (hs0 5 fun h => { h with st := .retryWait, retryAt := some 0, tl := true } : State).hs[(5 : Fin 48)].retryAt = none ∨ (hs0 5 fun h => { h with st := .retryWait, retryAt := some 0, tl := true } : State).hs[(5 : Fin 48)].tl = true)) ∧
    (((hs0 5 fun h => { h with st := .on, retryCnt := 2 } : State).hsUp (5 : Fin 48) = true) ∧ ((hs0 5 fun h => { h with st := .on, retryCnt := 2 } : State).hs[(5 : Fin 48)].st = .on) ∧ (0 < fld (hs0 5 fun h => { h with st := .on, retryCnt := 2 } : State).hs[(5 : Fin 48)].retryCfg 8 8) ∧ ((hs0 5 fun h => { h with st := .on, retryCnt := 2 } : State).tmbRuns = true)) := by
  refine ⟨?_, ?_, ?_, ?_, ?_, ?_, ?_⟩ <;> decide +kernel

/-- What meets the hypotheses of HighSideTimersAndEnvelope: one conjunct for each clause, in the order of its clauses. -/
theorem witness_HighSideTimersAndEnvelope_2 :
    (((hs0 5 fun h => { h with st := .off, retryCnt := 2 } : State).hsUp (5 : Fin 48) = false ∨ (hs0 5 fun h => { h with st := .off, retryCnt := 2 } : State).hs[(5 : Fin 48)].st ≠ .on ∨ fld (hs0 5 fun h => { h with st := .off, retryCnt := 2 } : State).hs[(5 : Fin 48)].retryCfg 8 8 = 0)) ∧
    ((canStore (run0 : State) (islHs (5 : Fin 48).val) 8) ∧ (fld (0x20010 : W32) 0 12 + envLen (0x20010 : W32) ≤ 4096)) ∧
    ((canStore (run0 : State) (islHs (5 : Fin 48).val) 8) ∧ (4096 < fld (0x20FFF : W32) 0 12 + envLen (0x20FFF : W32))) ∧
    (((hs0 5 fun h => { h with copy := { busy := true, base := 3, len := 2 } } : State).hs[(5 : Fin 48)].copy.busy = true) ∧ ((hs0 5 fun h => { h with copy := { busy := true, base := 3, len := 2 } } : State).isUp 2 = true)) ∧
    (((run0 : State).hs[(5 : Fin 48)].copy.busy = false ∨ (run0 : State).isUp 2 = false)) := by
  refine ⟨?_, ?_, ?_, ?_, ?_⟩ <;> decide +kernel

/-- What meets the hypotheses of OrphanHoldExpiresAndIsReclaimed: one conjunct for each clause, in the order of its clauses. -/
theorem witness_OrphanHoldExpiresAndIsReclaimed :
    ((((hs0 5 fun h => { h with st := .on }).modHsc fun h => { h with orphanEnd := some 500 } : State).isUp 2 = true) ∧ (((hs0 5 fun h => { h with st := .on }).modHsc fun h => { h with orphanEnd := some 500 } : State).hsc.orphanEnd = some (500 : Nat))) ∧
    ((canStore (run0.modHsc fun h => { h with expired := true } : State) 2 8)) ∧
    (((run0 : State).hsc.orphanEnd = none ∨ (run0 : State).isUp 2 = false)) := by
  refine ⟨?_, ?_, ?_⟩ <;> decide +kernel

/-- What meets the hypotheses of ClampsAreMeasuredAndJudged: one conjunct for each clause, in the order of its clauses. -/
theorem witness_ClampsAreMeasuredAndJudged :
    (((run0 : State).hsUp (5 : Fin 48) = true) ∧ (hsOn (run0 : State).hs[(5 : Fin 48)].st = false) ∧ ((run0 : State).hs[(5 : Fin 48)].clamp = none) ∧ (63000 ≤ (63000 : Nat))) ∧
    ((hsOn (run0 : State).hs[(5 : Fin 48)].st = true ∨ (62999 : Nat) < 63000)) ∧
    (((hs0 5 fun h => { h with st := .off, clamp := some { i0 := 5000, tj0 := 400, start := 0, judged := false } } : State).hsUp (5 : Fin 48) = true) ∧ ((hs0 5 fun h => { h with st := .off, clamp := some { i0 := 5000, tj0 := 400, start := 0, judged := false } } : State).hs[(5 : Fin 48)].clamp = some ({ i0 := 5000, tj0 := 400, start := 0, judged := false } : Clamp)) ∧ (({ i0 := 5000, tj0 := 400, start := 0, judged := false } : Clamp).judged = false)) ∧
    (((hs0 5 fun h => { h with st := .off, clamp := some { i0 := 5000, tj0 := 400, start := 0, judged := true } } : State).hsUp (5 : Fin 48) = true) ∧ ((hs0 5 fun h => { h with st := .off, clamp := some { i0 := 5000, tj0 := 400, start := 0, judged := true } } : State).hs[(5 : Fin 48)].clamp = some ({ i0 := 5000, tj0 := 400, start := 0, judged := true } : Clamp)) ∧ (({ i0 := 5000, tj0 := 400, start := 0, judged := true } : Clamp).judged = true)) ∧
    (((hs0 5 fun h => { h with st := .off, clamp := some { i0 := 5000, tj0 := 400, start := 0, judged := false } } : State).hs[(5 : Fin 48)].clamp = some ({ i0 := 5000, tj0 := 400, start := 0, judged := false } : Clamp)) ∧ (({ i0 := 5000, tj0 := 400, start := 0, judged := false } : Clamp).judged = false)) ∧
    (((hs0 5 fun h => { h with st := .off, clamp := some { i0 := 5000, tj0 := 400, start := 0, judged := true } } : State).hs[(5 : Fin 48)].clamp = some ({ i0 := 5000, tj0 := 400, start := 0, judged := true } : Clamp)) ∧ (({ i0 := 5000, tj0 := 400, start := 0, judged := true } : Clamp).judged = true)) ∧
    (((run0 : State).hs[(5 : Fin 48)].clamp = none ∨ (run0 : State).hsUp (5 : Fin 48) = false)) := by
  refine ⟨?_, ?_, ?_, ?_, ?_, ?_, ?_⟩ <;> decide +kernel

/-- What meets the hypotheses of DigitisersPublishCalibratedSamples: one conjunct for each clause, in the order of its clauses. -/
theorem witness_DigitisersPublishCalibratedSamples :
    (((run0 : State).digRuns (0 : Fin 67).val = true) ∧ ((run0 : State).tmbRuns = true)) ∧
    (((run0.modDig 3 fun d => { d with msN := 4, msSum := 10 } : State).digRuns (3 : Fin 67).val = true) ∧ ((run0.modDig 3 fun d => { d with msN := 4, msSum := 10 } : State).tmbRuns = true) ∧ (0 < (run0.modDig 3 fun d => { d with msN := 4, msSum := 10 } : State).dig[(3 : Fin 67)].msN)) ∧
    (((run0 : State).digRuns (3 : Fin 48).val = true) ∧ ((run0 : State).tmbRuns = true)) ∧
    ((canStore (run0 : State) (islOf (3 : Fin 67).val) 9) ∧ ((run0 : State).digRuns (3 : Fin 67).val = true) ∧ ((run0 : State).zeroOk (3 : Fin 67).val = true) ∧ ((run0 : State).dig[(3 : Fin 67)].zeroBusy = false)) ∧
    ((canStore (hs0 3 fun h => { h with st := .on } : State) (islOf (3 : Fin 67).val) 9) ∧ ((hs0 3 fun h => { h with st := .on } : State).zeroOk (3 : Fin 67).val = false ∨ (hs0 3 fun h => { h with st := .on } : State).dig[(3 : Fin 67)].zeroBusy = true ∨ (hs0 3 fun h => { h with st := .on } : State).digRuns (3 : Fin 67).val = false)) ∧
    (((run0.modDig 5 fun d => { d with zeroBusy := true, zeroN := 256, zeroSum := 1500 } : State).dig[(5 : Fin 67)].zeroBusy = true) ∧ (256 ≤ (run0.modDig 5 fun d => { d with zeroBusy := true, zeroN := 256, zeroSum := 1500 } : State).dig[(5 : Fin 67)].zeroN)) ∧
    (((run0 : State).dig[(5 : Fin 67)].zeroBusy = false ∨ (run0 : State).dig[(5 : Fin 67)].zeroN < 256)) ∧
    (((run0.modPwr fun p => { p with phase := .deep } : State).digRuns (5 : Fin 67).val = false)) ∧
    (((run0.modPwr fun p => { p with phase := .deep } : State).digRuns (5 : Fin 67).val = false ∨ (run0.modPwr fun p => { p with phase := .deep } : State).dig[(5 : Fin 67)].msN = 0)) ∧
    (((run0.modPwr fun p => { p with phase := .deep } : State).digRuns (5 : Fin 48).val = false)) := by
  refine ⟨?_, ?_, ?_, ?_, ?_, ?_, ?_, ?_, ?_, ?_⟩ <;> decide +kernel

/-- What meets the hypotheses of SnapsLatchAndCapturesRecord: one conjunct for each clause, in the order of its clauses. -/
theorem witness_SnapsLatchAndCapturesRecord :
    ((canStore (run0 : State) 2 9)) ∧
    ((canStore (run0 : State) 2 9)) ∧
    (((run0.modDig 9 fun d => { d with snapReq := some (100, true, true), last := [10, 20], cap := { d.cap with st := .armed, aCfg := 6 } } : State).digRuns (9 : Fin 67).val = true) ∧ ((run0.modDig 9 fun d => { d with snapReq := some (100, true, true), last := [10, 20], cap := { d.cap with st := .armed, aCfg := 6 } } : State).tmbRuns = true) ∧ ((run0.modDig 9 fun d => { d with snapReq := some (100, true, true), last := [10, 20], cap := { d.cap with st := .armed, aCfg := 6 } } : State).dig[(9 : Fin 67)].snapReq = some ((100 : Nat), (true : Bool), (true : Bool)))) ∧
    ((canStore (run0.modDig 9 fun d => { d with cap := { d.cap with len := 100, addr := 64 } } : State) (islOf (9 : Fin 67).val) 9) ∧ ((run0.modDig 9 fun d => { d with cap := { d.cap with len := 100, addr := 64 } } : State).dig[(9 : Fin 67)].cap.st ≠ .running) ∧ (fld (run0.modDig 9 fun d => { d with cap := { d.cap with len := 100, addr := 64 } } : State).dig[(9 : Fin 67)].cap.len 16 8 < fld (run0.modDig 9 fun d => { d with cap := { d.cap with len := 100, addr := 64 } } : State).dig[(9 : Fin 67)].cap.len 0 16) ∧ (fld (run0.modDig 9 fun d => { d with cap := { d.cap with len := 100, addr := 64 } } : State).dig[(9 : Fin 67)].cap.addr 0 24 % 32 = 0) ∧ (fld (run0.modDig 9 fun d => { d with cap := { d.cap with len := 100, addr := 64 } } : State).dig[(9 : Fin 67)].cap.addr 0 24 + 2 * fld (run0.modDig 9 fun d => { d with cap := { d.cap with len := 100, addr := 64 } } : State).dig[(9 : Fin 67)].cap.len 0 16 ≤ 0x1000000)) ∧
    ((canStore (run0 : State) (islOf (9 : Fin 67).val) 9) ∧ ((run0 : State).dig[(9 : Fin 67)].cap.st ≠ .running) ∧ (fld (run0 : State).dig[(9 : Fin 67)].cap.len 0 16 ≤ fld (run0 : State).dig[(9 : Fin 67)].cap.len 16 8 ∨ fld (run0 : State).dig[(9 : Fin 67)].cap.addr 0 24 % 32 ≠ 0 ∨ 0x1000000 < fld (run0 : State).dig[(9 : Fin 67)].cap.addr 0 24 + 2 * fld (run0 : State).dig[(9 : Fin 67)].cap.len 0 16)) ∧
    ((canStore (run0.modDig 9 fun d => { d with cap := { d.cap with st := .running } } : State) (islOf (9 : Fin 67).val) 9) ∧ ((run0.modDig 9 fun d => { d with cap := { d.cap with st := .running } } : State).dig[(9 : Fin 67)].cap.st = .running)) ∧
    ((canStore (run0.modDig 9 fun d => { d with cap := { d.cap with st := .armed } } : State) (islOf (9 : Fin 67).val) 9) ∧ ((run0.modDig 9 fun d => { d with cap := { d.cap with st := .armed } } : State).dig[(9 : Fin 67)].cap.st ≠ .running)) ∧
    ((canStore (run0.modDig 9 fun d => { d with cap := { d.cap with st := .running, buf := [1, 2, 3] } } : State) (islOf (9 : Fin 67).val) 9) ∧ ((run0.modDig 9 fun d => { d with cap := { d.cap with st := .running, buf := [1, 2, 3] } } : State).dig[(9 : Fin 67)].cap.st = .running)) ∧
    ((canStore (run0.modDig 9 fun d => { d with cap := { d.cap with st := .armed } } : State) (islOf (9 : Fin 67).val) 9)) ∧
    (((run0.modDig 9 fun d => { d with cap := { d.cap with st := .running, aLen := 100, buf := [1, 2, 3, 4, 5, 6, 7, 8, 9, 10, 11, 12, 13, 14, 15, 16, 17] } } : State).canonical) ∧ ((run0.modDig 9 fun d => { d with cap := { d.cap with st := .running, aLen := 100, buf := [1, 2, 3, 4, 5, 6, 7, 8, 9, 10, 11, 12, 13, 14, 15, 16, 17] } } : State).bulkOk = true) ∧ ((run0.modDig 9 fun d => { d with cap := { d.cap with st := .running, aLen := 100, buf := [1, 2, 3, 4, 5, 6, 7, 8, 9, 10, 11, 12, 13, 14, 15, 16, 17] } } : State).dig[(9 : Fin 67)].cap.st = .running) ∧ (16 ≤ (run0.modDig 9 fun d => { d with cap := { d.cap with st := .running, aLen := 100, buf := [1, 2, 3, 4, 5, 6, 7, 8, 9, 10, 11, 12, 13, 14, 15, 16, 17] } } : State).dig[(9 : Fin 67)].cap.buf.length)) ∧
    (((run0 : State).dig[(5 : Fin 67)].snapReq = none)) ∧
    (((run0 : State).bulkOk = false ∨ (run0 : State).dig[(5 : Fin 67)].cap.st ≠ .running ∨ ((run0 : State).dig[(5 : Fin 67)].cap.buf.length < 16 ∧ ((run0 : State).dig[(5 : Fin 67)].cap.taken < (run0 : State).dig[(5 : Fin 67)].cap.lenN ∨ (run0 : State).dig[(5 : Fin 67)].cap.buf = [])))) := by
  refine ⟨?_, ?_, ?_, ?_, ?_, ?_, ?_, ?_, ?_, ?_, ?_, ?_⟩ <;> decide +kernel

/-- What meets the hypotheses of EstimatorsFollowTheLoad: one conjunct for each clause, in the order of its clauses. -/
theorem witness_EstimatorsFollowTheLoad :
    (((hs0 3 fun h => { h with est := { h.est with search := true } } : State).hs[(3 : Fin 48)].est.search = true) ∧ ((hs0 3 fun h => { h with est := { h.est with search := true } } : State).digRuns (3 : Fin 48).val = true) ∧ ((hs0 3 fun h => { h with est := { h.est with search := true } } : State).tmbRuns = true)) ∧
    (((hs0 3 fun h => { h with st := .on, est := { h.est with steady := true, perN := 100, perSum := 500000, vN := 10, vSum := 2000 } } : State).hs[(3 : Fin 48)].est.steady = true) ∧ ((hs0 3 fun h => { h with st := .on, est := { h.est with steady := true, perN := 100, perSum := 500000, vN := 10, vSum := 2000 } } : State).digRuns (3 : Fin 48).val = true) ∧ (hsOn (hs0 3 fun h => { h with st := .on, est := { h.est with steady := true, perN := 100, perSum := 500000, vN := 10, vSum := 2000 } } : State).hs[(3 : Fin 48)].st = true) ∧ ((hs0 3 fun h => { h with st := .on, est := { h.est with steady := true, perN := 100, perSum := 500000, vN := 10, vSum := 2000 } } : State).tmbRuns = true)) ∧
    (((hs0 3 fun h => { h with est := { h.est with tI := { h.est.tI with n := 3, sum := 1000 }, tR := { h.est.tR with n := 3, sum := 1000, valid := true } } } : State).isUp (islHs (3 : Fin 48).val) = true) ∧ ((hs0 3 fun h => { h with est := { h.est with tI := { h.est.tI with n := 3, sum := 1000 }, tR := { h.est.tR with n := 3, sum := 1000, valid := true } } } : State).tmbRuns = true)) ∧
    ((canStore (run0 : State) (islHs (3 : Fin 48).val) 8)) ∧
    ((canStore (run0 : State) (islHs (3 : Fin 48).val) 8)) ∧
    ((canStore (run0 : State) (islHs (3 : Fin 48).val) 8)) ∧
    ((canStore (run0 : State) (islHs (3 : Fin 48).val) 8)) ∧
    (((run0 : State).canonical) ∧ ((run0 : State).coreRuns = true) ∧ ((run0 : State).isUp 2 = true) ∧ (bit (run0 : State).curve.lock ((4095 : Fin 4096).val / 256) = false)) ∧
    (((run0.modCurve fun q => { q with lock := 0x8000 } : State).coreRuns = true) ∧ ((run0.modCurve fun q => { q with lock := 0x8000 } : State).isUp 2 = true) ∧ (bit (run0.modCurve fun q => { q with lock := 0x8000 } : State).curve.lock ((4095 : Fin 4096).val / 256) = true)) ∧
    (((run0 : State).hs[(5 : Fin 48)].est.search = false ∨ (run0 : State).digRuns (5 : Fin 48).val = false)) ∧
    (((run0 : State).hs[(5 : Fin 48)].est.steady = false ∨ (run0 : State).digRuns (5 : Fin 48).val = false ∨ hsOn (run0 : State).hs[(5 : Fin 48)].st = false)) ∧
    ((({ run0 with up := Vector.replicate 72 false } : State).isUp (islHs (5 : Fin 48).val) = false)) := by
  refine ⟨?_, ?_, ?_, ?_, ?_, ?_, ?_, ?_, ?_, ?_, ?_, ?_⟩ <;> decide +kernel

/-- What meets the hypotheses of AdmTakesInputsAndAnswersThem: one conjunct for each clause, in the order of its clauses. -/
theorem witness_AdmTakesInputsAndAnswersThem :
    (((run0 : State).coreRuns = true) ∧ ((run0 : State).isUp 2 = true)) ∧
    (((run0 : State).coreRuns = true) ∧ ((run0 : State).isUp 2 = true)) ∧
    (((run0 : State).coreRuns = true) ∧ ((run0 : State).isUp 2 = true)) ∧
    (((run0.modAdm fun a => { a with inbox := [.req 1 0 5 3 9] } : State).isUp 2 = true) ∧ ((run0.modAdm fun a => { a with inbox := [.req 1 0 5 3 9] } : State).tmbRuns = true) ∧ ((run0.modAdm fun a => { a with inbox := [.req 1 0 5 3 9] } : State).adm.stopped = false) ∧ ((run0.modAdm fun a => { a with inbox := [.req 1 0 5 3 9] } : State).adm.resSeq[(1 : Fin 4)] = (0 : Nat)) ∧ ((run0.modAdm fun a => { a with inbox := [.req 1 0 5 3 9] } : State).adm.inbox = [.req (1 : Fin 4) (0 : Nat) (5 : Nat) (3 : Nat) (9 : Nat)])) ∧
    (((run0.modAdm fun a => { a with inbox := [.cancel 1 0 5], queue := [{ target := 5, prio := 3, deadline := some 700, made := 0, seq := 0, confirmed := true, granted := false, iCont := 600, inrE := 0, pSite := 0 }] } : State).isUp 2 = true) ∧ ((run0.modAdm fun a => { a with inbox := [.cancel 1 0 5], queue := [{ target := 5, prio := 3, deadline := some 700, made := 0, seq := 0, confirmed := true, granted := false, iCont := 600, inrE := 0, pSite := 0 }] } : State).tmbRuns = true) ∧ ((run0.modAdm fun a => { a with inbox := [.cancel 1 0 5], queue := [{ target := 5, prio := 3, deadline := some 700, made := 0, seq := 0, confirmed := true, granted := false, iCont := 600, inrE := 0, pSite := 0 }] } : State).adm.stopped = false) ∧ ((run0.modAdm fun a => { a with inbox := [.cancel 1 0 5], queue := [{ target := 5, prio := 3, deadline := some 700, made := 0, seq := 0, confirmed := true, granted := false, iCont := 600, inrE := 0, pSite := 0 }] } : State).adm.resSeq[(1 : Fin 4)] = (0 : Nat)) ∧ ((run0.modAdm fun a => { a with inbox := [.cancel 1 0 5], queue := [{ target := 5, prio := 3, deadline := some 700, made := 0, seq := 0, confirmed := true, granted := false, iCont := 600, inrE := 0, pSite := 0 }] } : State).adm.inbox = [.cancel (1 : Fin 4) (0 : Nat) (5 : Nat)])) ∧
    (((run0.modAdm fun a => { a with inbox := [.cancel 1 0 5], resSeq := Vector.replicate 4 1 } : State).isUp 2 = true) ∧ ((run0.modAdm fun a => { a with inbox := [.cancel 1 0 5], resSeq := Vector.replicate 4 1 } : State).tmbRuns = true) ∧ ((run0.modAdm fun a => { a with inbox := [.cancel 1 0 5], resSeq := Vector.replicate 4 1 } : State).adm.stopped = false) ∧ ((run0.modAdm fun a => { a with inbox := [.cancel 1 0 5], resSeq := Vector.replicate 4 1 } : State).adm.resSeq[(1 : Fin 4)] ≠ (0 : Nat)) ∧ ((run0.modAdm fun a => { a with inbox := [.cancel 1 0 5], resSeq := Vector.replicate 4 1 } : State).adm.inbox = [.cancel (1 : Fin 4) (0 : Nat) (5 : Nat)])) ∧
    (((run0.modAdm fun a => { a with inbox := [.relExt 1 0 5], extHeld := upd a.extHeld 5 fun _ => true, queue := [{ target := 261, prio := 3, deadline := none, made := 0, seq := 0, confirmed := true, granted := true, iCont := 0, inrE := 0, pSite := 9 }] } : State).isUp 2 = true) ∧ ((run0.modAdm fun a => { a with inbox := [.relExt 1 0 5], extHeld := upd a.extHeld 5 fun _ => true, queue := [{ target := 261, prio := 3, deadline := none, made := 0, seq := 0, confirmed := true, granted := true, iCont := 0, inrE := 0, pSite := 9 }] } : State).tmbRuns = true) ∧ ((run0.modAdm fun a => { a with inbox := [.relExt 1 0 5], extHeld := upd a.extHeld 5 fun _ => true, queue := [{ target := 261, prio := 3, deadline := none, made := 0, seq := 0, confirmed := true, granted := true, iCont := 0, inrE := 0, pSite := 9 }] } : State).adm.stopped = false) ∧ ((run0.modAdm fun a => { a with inbox := [.relExt 1 0 5], extHeld := upd a.extHeld 5 fun _ => true, queue := [{ target := 261, prio := 3, deadline := none, made := 0, seq := 0, confirmed := true, granted := true, iCont := 0, inrE := 0, pSite := 9 }] } : State).adm.resSeq[(1 : Fin 4)] = (0 : Nat)) ∧ ((run0.modAdm fun a => { a with inbox := [.relExt 1 0 5], extHeld := upd a.extHeld 5 fun _ => true, queue := [{ target := 261, prio := 3, deadline := none, made := 0, seq := 0, confirmed := true, granted := true, iCont := 0, inrE := 0, pSite := 9 }] } : State).adm.inbox = [.relExt (1 : Fin 4) (0 : Nat) (5 : Fin 1024).val])) ∧
    (((run0 : State).isUp 2 = true) ∧ ((65000 : Nat) ≤ 65000 ∧ (1 : Nat) ≤ 65000 ∧ (2 : Nat) ≤ 65000 ∧ (3 : Nat) ≤ 65000)) ∧
    (((1 : Nat) ≤ 65000 ∧ (1 : Nat) ≤ 65000 ∧ (1 : Nat) ≤ 65000 ∧ (65000 : Nat) ≤ 65000) ∧ (({ run0 with up := Vector.replicate 72 false } : State).isUp 2 = false)) ∧
    ((65000 < (1 : Nat) ∨ 65000 < (1 : Nat) ∨ 65000 < (65001 : Nat) ∨ 65000 < (1 : Nat))) := by
  refine ⟨?_, ?_, ?_, ?_, ?_, ?_, ?_, ?_, ?_, ?_⟩ <;> decide +kernel

/-- What meets the hypotheses of AdmTicksGrantWithinTheLimits: one conjunct for each clause, in the order of its clauses. -/
theorem witness_AdmTicksGrantWithinTheLimits_1 :
    ((((run0.modAdm fun a => { a with queue := [{ target := 5, prio := 3, deadline := some 700, made := 0, seq := 0, confirmed := true, granted := false, iCont := 600, inrE := 0, pSite := 0 }], vAt := some 0, tbpAt := some 0, ticked := true }) : State).isUp 2 = true) ∧ (((run0.modAdm fun a => { a with queue := [{ target := 5, prio := 3, deadline := some 700, made := 0, seq := 0, confirmed := true, granted := false, iCont := 600, inrE := 0, pSite := 0 }], vAt := some 0, tbpAt := some 0, ticked := true }) : State).tmbRuns = true) ∧ (((run0.modAdm fun a => { a with queue := [{ target := 5, prio := 3, deadline := some 700, made := 0, seq := 0, confirmed := true, granted := false, iCont := 600, inrE := 0, pSite := 0 }], vAt := some 0, tbpAt := some 0, ticked := true }) : State).adm.stopped = false)) ∧
    (((run0.modAdm fun a => { a with stopped := true, queue := [{ target := 5, prio := 3, deadline := some 700, made := 0, seq := 0, confirmed := true, granted := false, iCont := 600, inrE := 0, pSite := 0 }], inbox := [.cancel 0 0 5] } : State).isUp 2 = true) ∧ ((run0.modAdm fun a => { a with stopped := true, queue := [{ target := 5, prio := 3, deadline := some 700, made := 0, seq := 0, confirmed := true, granted := false, iCont := 600, inrE := 0, pSite := 0 }], inbox := [.cancel 0 0 5] } : State).tmbRuns = true) ∧ ((run0.modAdm fun a => { a with stopped := true, queue := [{ target := 5, prio := 3, deadline := some 700, made := 0, seq := 0, confirmed := true, granted := false, iCont := 600, inrE := 0, pSite := 0 }], inbox := [.cancel 0 0 5] } : State).adm.stopped = true)) ∧
    (((run0.modAdm fun a => { a with ticked := true, bins := [4, 7] } : State).isUp 2 = true) ∧ ((run0.modAdm fun a => { a with ticked := true, bins := [4, 7] } : State).tmbRuns = true) ∧ ((run0.modAdm fun a => { a with ticked := true, bins := [4, 7] } : State).adm.stopped = false) ∧ ((run0.modAdm fun a => { a with ticked := true, bins := [4, 7] } : State).adm.ticked = true)) ∧
    (((run0.modAdm fun a => { a with queue := [{ target := 5, prio := 3, deadline := some 700, made := 0, seq := 0, confirmed := true, granted := false, iCont := 600, inrE := 0, pSite := 0 }] } : State).isUp 2 = true) ∧ ((run0.modAdm fun a => { a with queue := [{ target := 5, prio := 3, deadline := some 700, made := 0, seq := 0, confirmed := true, granted := false, iCont := 600, inrE := 0, pSite := 0 }] } : State).tmbRuns = true) ∧ ((run0.modAdm fun a => { a with queue := [{ target := 5, prio := 3, deadline := some 700, made := 0, seq := 0, confirmed := true, granted := false, iCont := 600, inrE := 0, pSite := 0 }] } : State).adm.stopped = false) ∧ ((run0.modAdm fun a => { a with queue := [{ target := 5, prio := 3, deadline := some 700, made := 0, seq := 0, confirmed := true, granted := false, iCont := 600, inrE := 0, pSite := 0 }] } : State).adm.deadlines.min? = some (700 : Nat))) ∧
    ((canStore (run0 : State) 2 10)) ∧
    (((run0.modAdm fun a => { a with siteCfg := 0x20055 } : State).isUp 2 = true) ∧ ((run0.modAdm fun a => { a with siteCfg := 0x20055 } : State).tmbRuns = true) ∧ ((run0.modAdm fun a => { a with siteCfg := 0x20055 } : State).adm.stopped = false) ∧ (0 < fld (run0.modAdm fun a => { a with siteCfg := 0x20055 } : State).adm.siteCfg 16 8)) ∧
    (((run0.modAdm fun a => { a with vAt := some 100, tbpAt := some 200 } : State).isUp 2 = true) ∧ ((run0.modAdm fun a => { a with vAt := some 100, tbpAt := some 200 } : State).tmbRuns = true) ∧ ((run0.modAdm fun a => { a with vAt := some 100, tbpAt := some 200 } : State).adm.stopped = false) ∧ ((run0.modAdm fun a => { a with vAt := some 100, tbpAt := some 200 } : State).adm.vAt = some (100 : Nat)) ∧ ((run0.modAdm fun a => { a with vAt := some 100, tbpAt := some 200 } : State).adm.tbpAt = some (200 : Nat)) ∧ ((run0.modAdm fun a => { a with vAt := some 100, tbpAt := some 200 } : State).adm.inbox = [])) ∧
    ((({ run0 with up := Vector.replicate 72 false } : State).isUp 2 = false ∨ ({ run0 with up := Vector.replicate 72 false } : State).tmbRuns = false)) ∧
    ((({ run0 with up := Vector.replicate 72 false } : State).isUp 2 = false ∨ ({ run0 with up := Vector.replicate 72 false } : State).tmbRuns = false)) ∧
    (((run0 : State).isUp 2 = false ∨ (run0 : State).tmbRuns = false ∨ (run0 : State).adm.deadlines.min? = none)) ∧
    ((({ run0 with up := Vector.replicate 72 false } : State).isUp 2 = false ∨ ({ run0 with up := Vector.replicate 72 false } : State).tmbRuns = false ∨ fld ({ run0 with up := Vector.replicate 72 false } : State).adm.siteCfg 16 8 = 0)) := by
  refine ⟨?_, ?_, ?_, ?_, ?_, ?_, ?_, ?_, ?_, ?_, ?_⟩ <;> decide +kernel

theorem witness_AdmTicksGrantWithinTheLimits_2 :
    (({ run0 with up := Vector.replicate 72 false } : State).isUp 2 = false ∨ ({ run0 with up := Vector.replicate 72 false } : State).tmbRuns = false) := by decide +kernel

/-- What meets the hypotheses of HeaterSlotsFollowTheirPeriods: one conjunct for each clause, in the order of its clauses. -/
theorem witness_HeaterSlotsFollowTheirPeriods_1 :
    ((canStore (run0 : State) 2 10) ∧ (bit (0x018085 : W32) 7 = true) ∧ ((run0 : State).adm.slots[(15 : Fin 16)].en = false)) ∧
    ((canStore (run0.modAdm fun a => { a with slots := upd a.slots 3 fun _ => { Slot.init with cfg := 0x018085, dutyReg := 500, run := true, next := 900,  open_ := true }, queue := [{ target := 5, prio := 3, deadline := some 700, made := 0, seq := 0, confirmed := true, granted := false, iCont := 600, inrE := 0, pSite := 0 }] } : State) 2 10) ∧ (bit (0x018005 : W32) 7 = false)) ∧
    (((run0.modAdm fun a => { a with slots := upd a.slots 3 fun _ => { Slot.init with cfg := 0x018085, dutyReg := 500, run := true, next := 900,  carry := 0 } } : State).isUp 2 = true) ∧ ((run0.modAdm fun a => { a with slots := upd a.slots 3 fun _ => { Slot.init with cfg := 0x018085, dutyReg := 500, run := true, next := 900,  carry := 0 } } : State).tmbRuns = true) ∧ ((run0.modAdm fun a => { a with slots := upd a.slots 3 fun _ => { Slot.init with cfg := 0x018085, dutyReg := 500, run := true, next := 900,  carry := 0 } } : State).adm.stopped = false) ∧ ((run0.modAdm fun a => { a with slots := upd a.slots 3 fun _ => { Slot.init with cfg := 0x018085, dutyReg := 500, run := true, next := 900,  carry := 0 } } : State).adm.slots[(3 : Fin 16)].en = true) ∧ ((run0.modAdm fun a => { a with slots := upd a.slots 3 fun _ => { Slot.init with cfg := 0x018085, dutyReg := 500, run := true, next := 900,  carry := 0 } } : State).adm.ownerOf (run0.modAdm fun a => { a with slots := upd a.slots 3 fun _ => { Slot.init with cfg := 0x018085, dutyReg := 500, run := true, next := 900,  carry := 0 } } : State).adm.slots[(3 : Fin 16)].ch = some (3 : Fin 16)) ∧ ((run0.modAdm fun a => { a with slots := upd a.slots 3 fun _ => { Slot.init with cfg := 0x018085, dutyReg := 500, run := true, next := 900,  carry := 0 } } : State).adm.slots[(3 : Fin 16)].run = true) ∧ ((run0.modAdm fun a => { a with slots := upd a.slots 3 fun _ => { Slot.init with cfg := 0x018085, dutyReg := 500, run := true, next := 900,  carry := 0 } } : State).adm.slots[(3 : Fin 16)].arm = false) ∧ ((run0.modAdm fun a => { a with slots := upd a.slots 3 fun _ => { Slot.init with cfg := 0x018085, dutyReg := 500, run := true, next := 900,  carry := 0 } } : State).adm.inbox = [])) := by
  refine ⟨?_, ?_, ?_⟩ <;> decide +kernel

theorem witness_HeaterSlotsFollowTheirPeriods_2 :
    ((run0.modAdm fun a => { a with slots := upd a.slots 3 fun _ => { Slot.init with cfg := 0x018085, dutyReg := 500, run := true, next := 900,  open_ := true, tEnd := 500, onUs := 300000 }, queue := [{ target := 5, prio := 3, deadline := some 700, made := 0, seq := 0, confirmed := true, granted := false, iCont := 600, inrE := 0, pSite := 0 }] } : State).isUp 2 = true) ∧ ((run0.modAdm fun a => { a with slots := upd a.slots 3 fun _ => { Slot.init with cfg := 0x018085, dutyReg := 500, run := true, next := 900,  open_ := true, tEnd := 500, onUs := 300000 }, queue := [{ target := 5, prio := 3, deadline := some 700, made := 0, seq := 0, confirmed := true, granted := false, iCont := 600, inrE := 0, pSite := 0 }] } : State).tmbRuns = true) ∧ ((run0.modAdm fun a => { a with slots := upd a.slots 3 fun _ => { Slot.init with cfg := 0x018085, dutyReg := 500, run := true, next := 900,  open_ := true, tEnd := 500, onUs := 300000 }, queue := [{ target := 5, prio := 3, deadline := some 700, made := 0, seq := 0, confirmed := true, granted := false, iCont := 600, inrE := 0, pSite := 0 }] } : State).adm.stopped = false) ∧ ((run0.modAdm fun a => { a with slots := upd a.slots 3 fun _ => { Slot.init with cfg := 0x018085, dutyReg := 500, run := true, next := 900,  open_ := true, tEnd := 500, onUs := 300000 }, queue := [{ target := 5, prio := 3, deadline := some 700, made := 0, seq := 0, confirmed := true, granted := false, iCont := 600, inrE := 0, pSite := 0 }] } : State).adm.slots[(3 : Fin 16)].en = true) ∧ ((run0.modAdm fun a => { a with slots := upd a.slots 3 fun _ => { Slot.init with cfg := 0x018085, dutyReg := 500, run := true, next := 900,  open_ := true, tEnd := 500, onUs := 300000 }, queue := [{ target := 5, prio := 3, deadline := some 700, made := 0, seq := 0, confirmed := true, granted := false, iCont := 600, inrE := 0, pSite := 0 }] } : State).adm.ownerOf (run0.modAdm fun a => { a with slots := upd a.slots 3 fun _ => { Slot.init with cfg := 0x018085, dutyReg := 500, run := true, next := 900,  open_ := true, tEnd := 500, onUs := 300000 }, queue := [{ target := 5, prio := 3, deadline := some 700, made := 0, seq := 0, confirmed := true, granted := false, iCont := 600, inrE := 0, pSite := 0 }] } : State).adm.slots[(3 : Fin 16)].ch = some (3 : Fin 16)) ∧ ((run0.modAdm fun a => { a with slots := upd a.slots 3 fun _ => { Slot.init with cfg := 0x018085, dutyReg := 500, run := true, next := 900,  open_ := true, tEnd := 500, onUs := 300000 }, queue := [{ target := 5, prio := 3, deadline := some 700, made := 0, seq := 0, confirmed := true, granted := false, iCont := 600, inrE := 0, pSite := 0 }] } : State).adm.slots[(3 : Fin 16)].run = true) ∧ ((run0.modAdm fun a => { a with slots := upd a.slots 3 fun _ => { Slot.init with cfg := 0x018085, dutyReg := 500, run := true, next := 900,  open_ := true, tEnd := 500, onUs := 300000 }, queue := [{ target := 5, prio := 3, deadline := some 700, made := 0, seq := 0, confirmed := true, granted := false, iCont := 600, inrE := 0, pSite := 0 }] } : State).adm.slots[(3 : Fin 16)].arm = false) ∧ ((run0.modAdm fun a => { a with slots := upd a.slots 3 fun _ => { Slot.init with cfg := 0x018085, dutyReg := 500, run := true, next := 900,  open_ := true, tEnd := 500, onUs := 300000 }, queue := [{ target := 5, prio := 3, deadline := some 700, made := 0, seq := 0, confirmed := true, granted := false, iCont := 600, inrE := 0, pSite := 0 }] } : State).adm.inbox = []) ∧ ((run0.modAdm fun a => { a with slots := upd a.slots 3 fun _ => { Slot.init with cfg := 0x018085, dutyReg := 500, run := true, next := 900,  open_ := true, tEnd := 500, onUs := 300000 }, queue := [{ target := 5, prio := 3, deadline := some 700, made := 0, seq := 0, confirmed := true, granted := false, iCont := 600, inrE := 0, pSite := 0 }] } : State).adm.slots[(3 : Fin 16)].open_ = true) ∧ ((run0.modAdm fun a => { a with slots := upd a.slots 3 fun _ => { Slot.init with cfg := 0x018085, dutyReg := 500, run := true, next := 900,  open_ := true, tEnd := 500, onUs := 300000 }, queue := [{ target := 5, prio := 3, deadline := some 700, made := 0, seq := 0, confirmed := true, granted := false, iCont := 600, inrE := 0, pSite := 0 }] } : State).now ≤ (run0.modAdm fun a => { a with slots := upd a.slots 3 fun _ => { Slot.init with cfg := 0x018085, dutyReg := 500, run := true, next := 900,  open_ := true, tEnd := 500, onUs := 300000 }, queue := [{ target := 5, prio := 3, deadline := some 700, made := 0, seq := 0, confirmed := true, granted := false, iCont := 600, inrE := 0, pSite := 0 }] } : State).adm.slots[(3 : Fin 16)].tEnd) ∧ ((run0.modAdm fun a => { a with slots := upd a.slots 3 fun _ => { Slot.init with cfg := 0x018085, dutyReg := 500, run := true, next := 900,  open_ := true, tEnd := 500, onUs := 300000 }, queue := [{ target := 5, prio := 3, deadline := some 700, made := 0, seq := 0, confirmed := true, granted := false, iCont := 600, inrE := 0, pSite := 0 }] } : State).adm.tickAt + 10 ≤ (run0.modAdm fun a => { a with slots := upd a.slots 3 fun _ => { Slot.init with cfg := 0x018085, dutyReg := 500, run := true, next := 900,  open_ := true, tEnd := 500, onUs := 300000 }, queue := [{ target := 5, prio := 3, deadline := some 700, made := 0, seq := 0, confirmed := true, granted := false, iCont := 600, inrE := 0, pSite := 0 }] } : State).adm.slots[(3 : Fin 16)].tEnd) ∧ ((run0.modAdm fun a => { a with slots := upd a.slots 3 fun _ => { Slot.init with cfg := 0x018085, dutyReg := 500, run := true, next := 900,  open_ := true, tEnd := 500, onUs := 300000 }, queue := [{ target := 5, prio := 3, deadline := some 700, made := 0, seq := 0, confirmed := true, granted := false, iCont := 600, inrE := 0, pSite := 0 }] } : State).adm.slots[(3 : Fin 16)].tEnd < (run0.modAdm fun a => { a with slots := upd a.slots 3 fun _ => { Slot.init with cfg := 0x018085, dutyReg := 500, run := true, next := 900,  open_ := true, tEnd := 500, onUs := 300000 }, queue := [{ target := 5, prio := 3, deadline := some 700, made := 0, seq := 0, confirmed := true, granted := false, iCont := 600, inrE := 0, pSite := 0 }] } : State).adm.slots[(3 : Fin 16)].next) := by decide +kernel

/-- What meets the hypotheses of HeaterSlotsFollowTheirPeriods: one conjunct for each clause, in the order of its clauses. -/
theorem witness_HeaterSlotsFollowTheirPeriods_3 :
    ((({ run0 with up := Vector.replicate 72 false } : State).isUp 2 = false ∨ ({ run0 with up := Vector.replicate 72 false } : State).tmbRuns = false)) ∧
    (((run0 : State).isUp 2 = false ∨ (run0 : State).tmbRuns = false ∨ (run0 : State).adm.slots[(3 : Fin 16)].open_ = false)) := by
  refine ⟨?_, ?_⟩ <;> decide +kernel

/-- What meets the hypotheses of ValveCommandsFollowTheTable: one conjunct for each clause, in the order of its clauses. -/
theorem witness_ValveCommandsFollowTheTable_1 :
    ((canStore (run0 : State) (islVg (groupOf (5 : Fin 16)).val) 7) ∧ (bit (run0 : State).pwr.holdStat 2 = false)) ∧
    ((canStore (run0.modPwr fun p => { p with holdStat := 4 } : State) (islVg (groupOf (5 : Fin 16)).val) 7) ∧ (bit (run0.modPwr fun p => { p with holdStat := 4 } : State).pwr.holdStat 2 = true)) ∧
    ((canStore ((run0.modVd 5 fun v => { v with st := .idle, ctl := 1 }) : State) (islVg (groupOf (5 : Fin 16)).val) 7) ∧ (((run0.modVd 5 fun v => { v with st := .idle, ctl := 1 }) : State).vd[(5 : Fin 16)].limp = false)) ∧
    ((canStore ((run0.modVd 5 fun v => { v with limp := true }) : State) (islVg (groupOf (5 : Fin 16)).val) 7) ∧ (((run0.modVd 5 fun v => { v with limp := true }) : State).vd[(5 : Fin 16)].limp = true)) ∧
    ((canStore ((run0.modVd 5 fun v => { v with st := .idle, ctl := 0x41, profLoaded := true, entries := [0x00320064, 0x03E8, 0, 100] }).modVg 1 fun g => { g with ctl := 0x00780501, swOn := true, ready := true } : State) (islVg (groupOf (5 : Fin 16)).val) 7) ∧ (((run0.modVd 5 fun v => { v with st := .idle, ctl := 0x41, profLoaded := true, entries := [0x00320064, 0x03E8, 0, 100] }).modVg 1 fun g => { g with ctl := 0x00780501, swOn := true, ready := true } : State).vd[(5 : Fin 16)].limp = false) ∧ (((run0.modVd 5 fun v => { v with st := .idle, ctl := 0x41, profLoaded := true, entries := [0x00320064, 0x03E8, 0, 100] }).modVg 1 fun g => { g with ctl := 0x00780501, swOn := true, ready := true } : State).vd[(5 : Fin 16)].st = .idle) ∧ (((run0.modVd 5 fun v => { v with st := .idle, ctl := 0x41, profLoaded := true, entries := [0x00320064, 0x03E8, 0, 100] }).modVg 1 fun g => { g with ctl := 0x00780501, swOn := true, ready := true } : State).vdA (5 : Fin 16) = true) ∧ (((run0.modVd 5 fun v => { v with st := .idle, ctl := 0x41, profLoaded := true, entries := [0x00320064, 0x03E8, 0, 100] }).modVg 1 fun g => { g with ctl := 0x00780501, swOn := true, ready := true } : State).groupLoad (groupOf (5 : Fin 16)) (5 : Fin 16).val + ((run0.modVd 5 fun v => { v with st := .idle, ctl := 0x41, profLoaded := true, entries := [0x00320064, 0x03E8, 0, 100] }).modVg 1 fun g => { g with ctl := 0x00780501, swOn := true, ready := true } : State).vd[(5 : Fin 16)].own ≤ ((run0.modVd 5 fun v => { v with st := .idle, ctl := 0x41, profLoaded := true, entries := [0x00320064, 0x03E8, 0, 100] }).modVg 1 fun g => { g with ctl := 0x00780501, swOn := true, ready := true } : State).vg[groupOf (5 : Fin 16)].limLoad) ∧ (((run0.modVd 5 fun v => { v with st := .idle, ctl := 0x41, profLoaded := true, entries := [0x00320064, 0x03E8, 0, 100] }).modVg 1 fun g => { g with ctl := 0x00780501, swOn := true, ready := true } : State).vg[groupOf (5 : Fin 16)].swOn = true) ∧ (((run0.modVd 5 fun v => { v with st := .idle, ctl := 0x41, profLoaded := true, entries := [0x00320064, 0x03E8, 0, 100] }).modVg 1 fun g => { g with ctl := 0x00780501, swOn := true, ready := true } : State).vg[groupOf (5 : Fin 16)].ready = true) ∧ (((run0.modVd 5 fun v => { v with st := .idle, ctl := 0x41, profLoaded := true, entries := [0x00320064, 0x03E8, 0, 100] }).modVg 1 fun g => { g with ctl := 0x00780501, swOn := true, ready := true } : State).anyDefer (groupOf (5 : Fin 16)) = false)) := by
  refine ⟨?_, ?_, ?_, ?_, ?_⟩ <;> decide +kernel

/-- What meets the hypotheses of ValveCommandsFollowTheTable: one conjunct for each clause, in the order of its clauses. -/
theorem witness_ValveCommandsFollowTheTable_2 :
    ((canStore ((run0.modVd 5 fun v => { v with st := .idle, ctl := 0x41, profLoaded := true, entries := [0x00320064, 0x03E8, 0, 100] }).modVg 1 fun g => { g with ctl := 0x00780501 } : State) (islVg (groupOf (5 : Fin 16)).val) 7) ∧ (((run0.modVd 5 fun v => { v with st := .idle, ctl := 0x41, profLoaded := true, entries := [0x00320064, 0x03E8, 0, 100] }).modVg 1 fun g => { g with ctl := 0x00780501 } : State).vd[(5 : Fin 16)].limp = false) ∧ (((run0.modVd 5 fun v => { v with st := .idle, ctl := 0x41, profLoaded := true, entries := [0x00320064, 0x03E8, 0, 100] }).modVg 1 fun g => { g with ctl := 0x00780501 } : State).vd[(5 : Fin 16)].st = .idle) ∧ (((run0.modVd 5 fun v => { v with st := .idle, ctl := 0x41, profLoaded := true, entries := [0x00320064, 0x03E8, 0, 100] }).modVg 1 fun g => { g with ctl := 0x00780501 } : State).vdA (5 : Fin 16) = true) ∧ (((run0.modVd 5 fun v => { v with st := .idle, ctl := 0x41, profLoaded := true, entries := [0x00320064, 0x03E8, 0, 100] }).modVg 1 fun g => { g with ctl := 0x00780501 } : State).vd[(5 : Fin 16)].own ≤ ((run0.modVd 5 fun v => { v with st := .idle, ctl := 0x41, profLoaded := true, entries := [0x00320064, 0x03E8, 0, 100] }).modVg 1 fun g => { g with ctl := 0x00780501 } : State).vg[groupOf (5 : Fin 16)].limLoad) ∧ (((run0.modVd 5 fun v => { v with st := .idle, ctl := 0x41, profLoaded := true, entries := [0x00320064, 0x03E8, 0, 100] }).modVg 1 fun g => { g with ctl := 0x00780501 } : State).vg[groupOf (5 : Fin 16)].limLoad < ((run0.modVd 5 fun v => { v with st := .idle, ctl := 0x41, profLoaded := true, entries := [0x00320064, 0x03E8, 0, 100] }).modVg 1 fun g => { g with ctl := 0x00780501 } : State).groupLoad (groupOf (5 : Fin 16)) (5 : Fin 16).val + ((run0.modVd 5 fun v => { v with st := .idle, ctl := 0x41, profLoaded := true, entries := [0x00320064, 0x03E8, 0, 100] }).modVg 1 fun g => { g with ctl := 0x00780501 } : State).vd[(5 : Fin 16)].own ∨ ((run0.modVd 5 fun v => { v with st := .idle, ctl := 0x41, profLoaded := true, entries := [0x00320064, 0x03E8, 0, 100] }).modVg 1 fun g => { g with ctl := 0x00780501 } : State).vg[groupOf (5 : Fin 16)].swOn = false ∨ ((run0.modVd 5 fun v => { v with st := .idle, ctl := 0x41, profLoaded := true, entries := [0x00320064, 0x03E8, 0, 100] }).modVg 1 fun g => { g with ctl := 0x00780501 } : State).vg[groupOf (5 : Fin 16)].ready = false ∨ ((run0.modVd 5 fun v => { v with st := .idle, ctl := 0x41, profLoaded := true, entries := [0x00320064, 0x03E8, 0, 100] }).modVg 1 fun g => { g with ctl := 0x00780501 } : State).anyDefer (groupOf (5 : Fin 16)) = true) ∧ (0 < fld ((run0.modVd 5 fun v => { v with st := .idle, ctl := 0x41, profLoaded := true, entries := [0x00320064, 0x03E8, 0, 100] }).modVg 1 fun g => { g with ctl := 0x00780501 } : State).vd[(5 : Fin 16)].deferCfg 0 16)) ∧
    ((canStore ((run0.modVd 5 fun v => { v with st := .idle, ctl := 0x41, profLoaded := true, entries := [0x00320320, 0x03E8, 0, 100] }).modVg 1 fun g => { g with ctl := 0x00100501 } : State) (islVg (groupOf (5 : Fin 16)).val) 7) ∧ (((run0.modVd 5 fun v => { v with st := .idle, ctl := 0x41, profLoaded := true, entries := [0x00320320, 0x03E8, 0, 100] }).modVg 1 fun g => { g with ctl := 0x00100501 } : State).vd[(5 : Fin 16)].limp = false) ∧ (((run0.modVd 5 fun v => { v with st := .idle, ctl := 0x41, profLoaded := true, entries := [0x00320320, 0x03E8, 0, 100] }).modVg 1 fun g => { g with ctl := 0x00100501 } : State).vd[(5 : Fin 16)].st = .idle) ∧ (((run0.modVd 5 fun v => { v with st := .idle, ctl := 0x41, profLoaded := true, entries := [0x00320320, 0x03E8, 0, 100] }).modVg 1 fun g => { g with ctl := 0x00100501 } : State).vdA (5 : Fin 16) = true) ∧ (((run0.modVd 5 fun v => { v with st := .idle, ctl := 0x41, profLoaded := true, entries := [0x00320320, 0x03E8, 0, 100] }).modVg 1 fun g => { g with ctl := 0x00100501 } : State).vg[groupOf (5 : Fin 16)].limLoad < ((run0.modVd 5 fun v => { v with st := .idle, ctl := 0x41, profLoaded := true, entries := [0x00320320, 0x03E8, 0, 100] }).modVg 1 fun g => { g with ctl := 0x00100501 } : State).vd[(5 : Fin 16)].own)) ∧
    ((canStore (run0 : State) (islVg (groupOf (5 : Fin 16)).val) 7) ∧ ((run0 : State).vd[(5 : Fin 16)].limp = false) ∧ ((run0 : State).vd[(5 : Fin 16)].st = .disabled ∨ (run0 : State).vd[(5 : Fin 16)].st = .latched ∨ ((run0 : State).vd[(5 : Fin 16)].st = .idle ∧ (run0 : State).vdA (5 : Fin 16) = false))) := by
  refine ⟨?_, ?_, ?_⟩ <;> decide +kernel

/-- What meets the hypotheses of ValveCommandsFollowTheTable: one conjunct for each clause, in the order of its clauses. -/
theorem witness_ValveCommandsFollowTheTable_3 :
    ((canStore ((run0.modVd 5 fun v => { v with st := .defer }) : State) (islVg (groupOf (5 : Fin 16)).val) 7) ∧ (((run0.modVd 5 fun v => { v with st := .defer }) : State).vd[(5 : Fin 16)].limp = false) ∧ (((run0.modVd 5 fun v => { v with st := .defer }) : State).vd[(5 : Fin 16)].st = .defer ∨ ((run0.modVd 5 fun v => { v with st := .defer }) : State).vd[(5 : Fin 16)].st = .pending)) ∧
    ((canStore ((run0.modVd 5 fun v => { v with st := .idle, ctl := 1 }) : State) (islVg (groupOf (5 : Fin 16)).val) 7) ∧ (((run0.modVd 5 fun v => { v with st := .idle, ctl := 1 }) : State).vd[(5 : Fin 16)].limp = false)) ∧
    ((canStore ((run0.modVd 5 fun v => { v with st := .peak, mark := .grantOn }) : State) (islVg (groupOf (5 : Fin 16)).val) 7) ∧ (((run0.modVd 5 fun v => { v with st := .peak, mark := .grantOn }) : State).vd[(5 : Fin 16)].limp = false) ∧ (vdOn ((run0.modVd 5 fun v => { v with st := .peak, mark := .grantOn }) : State).vd[(5 : Fin 16)].st = true) ∧ (((run0.modVd 5 fun v => { v with st := .peak, mark := .grantOn }) : State).vd[(5 : Fin 16)].mark = .grantOn) ∧ (((run0.modVd 5 fun v => { v with st := .peak, mark := .grantOn }) : State).vd[(5 : Fin 16)].markAt = ((run0.modVd 5 fun v => { v with st := .peak, mark := .grantOn }) : State).now)) ∧
    ((canStore ((run0.modVd 5 fun v => { v with st := .latched, ctl := 1 }) : State) (islVg (groupOf (5 : Fin 16)).val) 7) ∧ (((run0.modVd 5 fun v => { v with st := .latched, ctl := 1 }) : State).vd[(5 : Fin 16)].limp = false)) ∧
    ((canStore ((run0.modVd 5 fun v => { v with st := .idle, limp := true }) : State) (islVg (groupOf (5 : Fin 16)).val) 7) ∧ (((run0.modVd 5 fun v => { v with st := .idle, limp := true }) : State).vd[(5 : Fin 16)].limp = true ∨ (false : Bool) = true)) ∧
    ((canStore ((run0.modVd 5 fun v => { v with st := .hold, limp := true }) : State) (islVg (groupOf (5 : Fin 16)).val) 7) ∧ (((run0.modVd 5 fun v => { v with st := .hold, limp := true }) : State).vd[(5 : Fin 16)].limp = true ∨ (false : Bool) = true)) ∧
    ((canStore ((run0.modVd 5 fun v => { v with st := .latched, limp := true }) : State) (islVg (groupOf (5 : Fin 16)).val) 7) ∧ (((run0.modVd 5 fun v => { v with st := .latched, limp := true }) : State).vd[(5 : Fin 16)].limp = true ∨ (false : Bool) = true)) ∧
    ((canStore (run0 : State) (islVg (groupOf (5 : Fin 16)).val) 7) ∧ ((run0 : State).vd[(5 : Fin 16)].st = .disabled ∨ (run0 : State).vd[(5 : Fin 16)].st = .idle ∨ (run0 : State).vd[(5 : Fin 16)].st = .latched) ∧ (fld (4092 : W32) 0 12 ≤ 4092)) ∧
    ((canStore (run0 : State) (islVg (groupOf (5 : Fin 16)).val) 7) ∧ (vdActive (run0 : State).vd[(5 : Fin 16)].st = true ∨ (run0 : State).vd[(5 : Fin 16)].st = .decay ∨ (run0 : State).vd[(5 : Fin 16)].st = .gap ∨ 4092 < fld (4093 : W32) 0 12)) ∧
    ((((run0.modVd 5 fun v => { v with copy := { busy := true, base := 5, len := 4 } }) : State).vd[(5 : Fin 16)].copy.busy = true) ∧ (((run0.modVd 5 fun v => { v with copy := { busy := true, base := 5, len := 4 } }) : State).isUp 2 = true)) ∧
    (((run0 : State).vd[(5 : Fin 16)].copy.busy = false ∨ (run0 : State).isUp 2 = false)) := by
  refine ⟨?_, ?_, ?_, ?_, ?_, ?_, ?_, ?_, ?_, ?_, ?_⟩ <;> decide +kernel

/-- What meets the hypotheses of ValveActuationsRunTheirCourse: one conjunct for each clause, in the order of its clauses. -/
theorem witness_ValveActuationsRunTheirCourse_1 :
    ((takeMsg (48 + (5 : Fin 16).val) .entry (toldBy ((run0.modVd 5 fun v => { v with st := .pending })) 53 .entry : State).adm.toTgt = some ([] : List (Nat × ToTgt))) ∧ ((toldBy ((run0.modVd 5 fun v => { v with st := .pending })) 53 .entry : State).isUp (islOf (48 + (5 : Fin 16).val)) = true)) ∧
    ((takeMsg (48 + (5 : Fin 16).val) .grant (toldBy ((run0.modVd 5 fun v => { v with st := .pending })) 53 .grant : State).adm.toTgt = some ([] : List (Nat × ToTgt))) ∧ ((toldBy ((run0.modVd 5 fun v => { v with st := .pending })) 53 .grant : State).isUp (islOf (48 + (5 : Fin 16).val)) = true) ∧ ((toldBy ((run0.modVd 5 fun v => { v with st := .pending })) 53 .grant : State).vd[(5 : Fin 16)].st = .pending)) ∧
    ((((run0.modVd 5 fun v => { v with st := .peak, profLoaded := true, entries := [0x00320064, 0x03E8, 0, 100] }) : State).digRuns (tVd (5 : Fin 16)).val = true) ∧ (((run0.modVd 5 fun v => { v with st := .peak, profLoaded := true, entries := [0x00320064, 0x03E8, 0, 100] }) : State).tmbRuns = true) ∧ (((run0.modVd 5 fun v => { v with st := .peak, profLoaded := true, entries := [0x00320064, 0x03E8, 0, 100] }) : State).vd[(5 : Fin 16)].st = .peak)) ∧
    ((takeMsg (48 + (5 : Fin 16).val) .grant (toldBy ((run0.modVd 5 fun v => { v with st := .idle })) 53 .grant : State).adm.toTgt = some ([] : List (Nat × ToTgt))) ∧ ((toldBy ((run0.modVd 5 fun v => { v with st := .idle })) 53 .grant : State).isUp (islOf (48 + (5 : Fin 16).val)) = true) ∧ ((toldBy ((run0.modVd 5 fun v => { v with st := .idle })) 53 .grant : State).vd[(5 : Fin 16)].st ≠ .pending)) ∧
    ((takeMsg (48 + (5 : Fin 16).val) .drop (toldBy ((run0.modVd 5 fun v => { v with st := .pending })) 53 .drop : State).adm.toTgt = some ([] : List (Nat × ToTgt))) ∧ ((toldBy ((run0.modVd 5 fun v => { v with st := .pending })) 53 .drop : State).isUp (islOf (48 + (5 : Fin 16).val)) = true) ∧ ((toldBy ((run0.modVd 5 fun v => { v with st := .pending })) 53 .drop : State).vd[(5 : Fin 16)].st = .pending)) ∧
    ((((run0.modVd 5 fun v => { v with st := .peak, peakEnd := 900, claimHeld := true, profLoaded := true, entries := [0x00320064, 0x03E8, 0, 100] }) : State).vgUp (groupOf (5 : Fin 16)) = true) ∧ (((run0.modVd 5 fun v => { v with st := .peak, peakEnd := 900, claimHeld := true, profLoaded := true, entries := [0x00320064, 0x03E8, 0, 100] }) : State).tmbRuns = true) ∧ (((run0.modVd 5 fun v => { v with st := .peak, peakEnd := 900, claimHeld := true, profLoaded := true, entries := [0x00320064, 0x03E8, 0, 100] }) : State).vd[(5 : Fin 16)].st = .peak)) ∧
    ((((run0.modVd 5 fun v => { v with st := .prop, claimHeld := true, propIn := 500 }) : State).vgUp (groupOf (5 : Fin 16)) = true) ∧ (((run0.modVd 5 fun v => { v with st := .prop, claimHeld := true, propIn := 500 }) : State).tmbRuns = true) ∧ (((run0.modVd 5 fun v => { v with st := .prop, claimHeld := true, propIn := 500 }) : State).vd[(5 : Fin 16)].st = .prop) ∧ (((run0.modVd 5 fun v => { v with st := .prop, claimHeld := true, propIn := 500 }) : State).vd[(5 : Fin 16)].claimHeld = true)) ∧
    ((((run0.modVd 5 fun v => { v with st := .hold, holdEnd := some 800 }) : State).vgUp (groupOf (5 : Fin 16)) = true) ∧ (((run0.modVd 5 fun v => { v with st := .hold, holdEnd := some 800 }) : State).tmbRuns = true) ∧ (((run0.modVd 5 fun v => { v with st := .hold, holdEnd := some 800 }) : State).vd[(5 : Fin 16)].st = .hold) ∧ (((run0.modVd 5 fun v => { v with st := .hold, holdEnd := some 800 }) : State).vd[(5 : Fin 16)].holdEnd = some (800 : Nat))) ∧
    ((((run0.modVd 5 fun v => { v with st := .decay, decayDone := false, decayN := 10, ctl := 1 }) : State).vgUp (groupOf (5 : Fin 16)) = true) ∧ (((run0.modVd 5 fun v => { v with st := .decay, decayDone := false, decayN := 10, ctl := 1 }) : State).vd[(5 : Fin 16)].decayDone = false) ∧ (10 ≤ ((run0.modVd 5 fun v => { v with st := .decay, decayDone := false, decayN := 10, ctl := 1 }) : State).vd[(5 : Fin 16)].decayN)) ∧
    ((({ (run0.modVd 5 fun v => { v with st := .decay, decayDone := false, ctl := 1 }) with vlvCtl := 0xF } : State).vgUp (groupOf (5 : Fin 16)) = true) ∧ (({ (run0.modVd 5 fun v => { v with st := .decay, decayDone := false, ctl := 1 }) with vlvCtl := 0xF } : State).tmbRuns = true) ∧ (({ (run0.modVd 5 fun v => { v with st := .decay, decayDone := false, ctl := 1 }) with vlvCtl := 0xF } : State).vd[(5 : Fin 16)].decayDone = false)) := by
  refine ⟨?_, ?_, ?_, ?_, ?_, ?_, ?_, ?_, ?_, ?_⟩ <;> decide +kernel

/-- What meets the hypotheses of ValveActuationsRunTheirCourse: one conjunct for each clause, in the order of its clauses. -/
theorem witness_ValveActuationsRunTheirCourse_2 :
    ((((run0.modVd 5 fun v => { v with st := .gap, ctl := 1 }) : State).vgUp (groupOf (5 : Fin 16)) = true) ∧ (((run0.modVd 5 fun v => { v with st := .gap, ctl := 1 }) : State).tmbRuns = true) ∧ (((run0.modVd 5 fun v => { v with st := .gap, ctl := 1 }) : State).vd[(5 : Fin 16)].st = .gap) ∧ (((run0.modVd 5 fun v => { v with st := .gap, ctl := 1 }) : State).vd[(5 : Fin 16)].held = none)) ∧
    ((((run0.modVd 5 fun v => { v with st := .gap, ctl := 1, held := some 4 }) : State).vgUp (groupOf (5 : Fin 16)) = true) ∧ (((run0.modVd 5 fun v => { v with st := .gap, ctl := 1, held := some 4 }) : State).tmbRuns = true) ∧ (((run0.modVd 5 fun v => { v with st := .gap, ctl := 1, held := some 4 }) : State).vd[(5 : Fin 16)].st = .gap) ∧ (((run0.modVd 5 fun v => { v with st := .gap, ctl := 1, held := some 4 }) : State).vd[(5 : Fin 16)].held = some (4 : Nat)) ∧ (((run0.modVd 5 fun v => { v with st := .gap, ctl := 1, held := some 4 }) : State).vdA (5 : Fin 16) = false)) ∧
    ((((run0.modVd 5 fun v => { v with st := .defer, ctl := 0x41, profLoaded := true, entries := [0x00320064, 0x03E8, 0, 100] }).modVg 1 fun g => { g with ctl := 0x00780501, swOn := true, ready := true } : State).firstDefer (1 : Fin 4) = some (5 : Fin 16)) ∧ (((run0.modVd 5 fun v => { v with st := .defer, ctl := 0x41, profLoaded := true, entries := [0x00320064, 0x03E8, 0, 100] }).modVg 1 fun g => { g with ctl := 0x00780501, swOn := true, ready := true } : State).vgUp (1 : Fin 4) = true) ∧ (((run0.modVd 5 fun v => { v with st := .defer, ctl := 0x41, profLoaded := true, entries := [0x00320064, 0x03E8, 0, 100] }).modVg 1 fun g => { g with ctl := 0x00780501, swOn := true, ready := true } : State).vg[(1 : Fin 4)].swOn = true) ∧ (((run0.modVd 5 fun v => { v with st := .defer, ctl := 0x41, profLoaded := true, entries := [0x00320064, 0x03E8, 0, 100] }).modVg 1 fun g => { g with ctl := 0x00780501, swOn := true, ready := true } : State).vg[(1 : Fin 4)].ready = true) ∧ (((run0.modVd 5 fun v => { v with st := .defer, ctl := 0x41, profLoaded := true, entries := [0x00320064, 0x03E8, 0, 100] }).modVg 1 fun g => { g with ctl := 0x00780501, swOn := true, ready := true } : State).groupLoad (1 : Fin 4) (5 : Fin 16).val + ((run0.modVd 5 fun v => { v with st := .defer, ctl := 0x41, profLoaded := true, entries := [0x00320064, 0x03E8, 0, 100] }).modVg 1 fun g => { g with ctl := 0x00780501, swOn := true, ready := true } : State).vd[(5 : Fin 16)].own ≤ ((run0.modVd 5 fun v => { v with st := .defer, ctl := 0x41, profLoaded := true, entries := [0x00320064, 0x03E8, 0, 100] }).modVg 1 fun g => { g with ctl := 0x00780501, swOn := true, ready := true } : State).vg[(1 : Fin 4)].limLoad)) ∧
    ((((run0.modVd 5 fun v => { v with st := .defer, ctl := 0x41 }) : State).vgUp (groupOf (5 : Fin 16)) = true) ∧ (((run0.modVd 5 fun v => { v with st := .defer, ctl := 0x41 }) : State).tmbRuns = true) ∧ (((run0.modVd 5 fun v => { v with st := .defer, ctl := 0x41 }) : State).vd[(5 : Fin 16)].st = .defer) ∧ (((run0.modVd 5 fun v => { v with st := .defer, ctl := 0x41 }) : State).vd[(5 : Fin 16)].startedFrom = .idle)) ∧
    (((run0 : State).firstDefer (1 : Fin 4) = none ∨ (run0 : State).vgUp (1 : Fin 4) = false ∨ (run0 : State).vg[(1 : Fin 4)].swOn = false ∨ (run0 : State).vg[(1 : Fin 4)].ready = false)) ∧
    (((run0 : State).vgUp (groupOf (5 : Fin 16)) = false ∨ (run0 : State).vd[(5 : Fin 16)].st ≠ .defer)) ∧
    ((takeMsg (48 + (5 : Fin 16).val) .grant (run0 : State).adm.toTgt = none ∨ (run0 : State).isUp (islOf (48 + (5 : Fin 16).val)) = false)) ∧
    ((takeMsg (48 + (5 : Fin 16).val) .drop (run0 : State).adm.toTgt = none ∨ (run0 : State).isUp (islOf (48 + (5 : Fin 16).val)) = false)) ∧
    ((takeMsg (48 + (5 : Fin 16).val) .entry (run0 : State).adm.toTgt = none ∨ (run0 : State).isUp (islOf (48 + (5 : Fin 16).val)) = false)) ∧
    (((run0 : State).vgUp (groupOf (5 : Fin 16)) = false ∨ (run0 : State).vd[(5 : Fin 16)].st ≠ .peak)) ∧
    (((run0 : State).vgUp (groupOf (5 : Fin 16)) = false ∨ (run0 : State).vd[(5 : Fin 16)].st ≠ .prop ∨ (run0 : State).vd[(5 : Fin 16)].claimHeld = false)) ∧
    (((run0 : State).vgUp (groupOf (5 : Fin 16)) = false ∨ (run0 : State).vd[(5 : Fin 16)].st ≠ .hold ∨ (run0 : State).vd[(5 : Fin 16)].holdEnd = none)) := by
  refine ⟨?_, ?_, ?_, ?_, ?_, ?_, ?_, ?_, ?_, ?_, ?_, ?_⟩ <;> decide +kernel

/-- What meets the hypotheses of ValveActuationsRunTheirCourse: one conjunct for each clause, in the order of its clauses. -/
theorem witness_ValveActuationsRunTheirCourse_3 :
    (((run0 : State).vgUp (groupOf (5 : Fin 16)) = false ∨ (run0 : State).vd[(5 : Fin 16)].decayDone = true ∨ (run0 : State).vd[(5 : Fin 16)].decayN < 10)) ∧
    ((({ run0 with up := Vector.replicate 72 false } : State).vgUp (groupOf (5 : Fin 16)) = false ∨ ({ run0 with up := Vector.replicate 72 false } : State).vd[(5 : Fin 16)].decayDone = true)) ∧
    (((run0 : State).vgUp (groupOf (5 : Fin 16)) = false ∨ (run0 : State).vd[(5 : Fin 16)].st ≠ .gap)) := by
  refine ⟨?_, ?_, ?_⟩ <;> decide +kernel

/-- What meets the hypotheses of ValveAndGroupFaultsTurnOff: one conjunct for each clause, in the order of its clauses. -/
theorem witness_ValveAndGroupFaultsTurnOff_1 :
    ((((run0.modVd 5 fun v => { v with st := .peak }) : State).vgUp (groupOf (5 : Fin 16)) = true) ∧ (vdOn ((run0.modVd 5 fun v => { v with st := .peak }) : State).vd[(5 : Fin 16)].st = true) ∧ (12000 ≤ (12000 : Nat))) ∧
    ((((run0.modVd 5 fun v => { v with st := .peak, profLoaded := true, entries := [0x00320064, 0x03E8, 0, 100] }) : State).vgUp (groupOf (5 : Fin 16)) = true) ∧ (vdOn ((run0.modVd 5 fun v => { v with st := .peak, profLoaded := true, entries := [0x00320064, 0x03E8, 0, 100] }) : State).vd[(5 : Fin 16)].st = true) ∧ (2 * (fld ((run0.modVd 5 fun v => { v with st := .peak, profLoaded := true, entries := [0x00320064, 0x03E8, 0, 100] }) : State).vd[(5 : Fin 16)].openCfg 0 8 * 10) ≤ ((run0.modVd 5 fun v => { v with st := .peak, profLoaded := true, entries := [0x00320064, 0x03E8, 0, 100] }) : State).vd[(5 : Fin 16)].setpoint ((run0.modVd 5 fun v => { v with st := .peak, profLoaded := true, entries := [0x00320064, 0x03E8, 0, 100] }) : State).now) ∧ ((99 : Nat) < fld ((run0.modVd 5 fun v => { v with st := .peak, profLoaded := true, entries := [0x00320064, 0x03E8, 0, 100] }) : State).vd[(5 : Fin 16)].openCfg 0 8 * 10) ∧ (max 1 (fld ((run0.modVd 5 fun v => { v with st := .peak, profLoaded := true, entries := [0x00320064, 0x03E8, 0, 100] }) : State).vd[(5 : Fin 16)].openCfg 8 8) ≤ (4 : Nat))) ∧
    ((vdOn (run0 : State).vd[(5 : Fin 16)].st = false ∨ (12000 : Nat) < 12000)) ∧
    ((((run0.modVd 5 fun v => { v with st := .hold }).modVg 1 fun g => { g with swOn := true } : State).vgUp (1 : Fin 4) = true) ∧ (((run0.modVd 5 fun v => { v with st := .hold }).modVg 1 fun g => { g with swOn := true } : State).vg[(1 : Fin 4)].swOn = true) ∧ (14000 < (14001 : Nat)) ∧ (320 ≤ (320 : Nat))) ∧
    ((((run0.modVd 5 fun v => { v with st := .hold }).modVg 1 fun g => { g with swOn := true } : State).vgUp (1 : Fin 4) = true) ∧ (((run0.modVd 5 fun v => { v with st := .hold }).modVg 1 fun g => { g with swOn := true } : State).vg[(1 : Fin 4)].swOn = true) ∧ (24000 ≤ (24000 : Nat))) ∧
    ((((run0.modVd 5 fun v => { v with st := .hold }).modVg 1 fun g => { g with swOn := true } : State).vgUp (1 : Fin 4) = true) ∧ (((run0.modVd 5 fun v => { v with st := .hold }).modVg 1 fun g => { g with swOn := true } : State).vg[(1 : Fin 4)].tl = false) ∧ (2800 ≤ (2800 : Int))) ∧
    ((((run0.modVd 5 fun v => { v with st := .hold }).modVg 1 fun g => { g with tl := true, latched := true } : State).vgUp (1 : Fin 4) = true) ∧ (((run0.modVd 5 fun v => { v with st := .hold }).modVg 1 fun g => { g with tl := true, latched := true } : State).vg[(1 : Fin 4)].tl = true) ∧ ((2480 : Int) ≤ 2480)) ∧
    ((((run0.modVd 5 fun v => { v with st := .hold }).modVg 1 fun g => { g with swOn := true } : State).vgUp (1 : Fin 4) = true) ∧ (((run0.modVd 5 fun v => { v with st := .hold }).modVg 1 fun g => { g with swOn := true } : State).tmbRuns = true) ∧ (((run0.modVd 5 fun v => { v with st := .hold }).modVg 1 fun g => { g with swOn := true } : State).vg[(1 : Fin 4)].swOn = true) ∧ (((run0.modVd 5 fun v => { v with st := .hold }).modVg 1 fun g => { g with swOn := true } : State).vg[(1 : Fin 4)].ready = false)) ∧
    ((((run0.modVd 5 fun v => { v with st := .hold }).modVg 1 fun g => { g with swOn := true } : State).vgUp (1 : Fin 4) = true) ∧ (((run0.modVd 5 fun v => { v with st := .hold }).modVg 1 fun g => { g with swOn := true } : State).vg[(1 : Fin 4)].swOn = true) ∧ ((1000 : Nat) ≤ 1000)) ∧
    ((((run0.modVd 5 fun v => { v with st := .decay }).modVg 1 fun g => { g with swOn := true, ready := true } : State).vgUp (1 : Fin 4) = true) ∧ (((run0.modVd 5 fun v => { v with st := .decay }).modVg 1 fun g => { g with swOn := true, ready := true } : State).tmbRuns = true) ∧ (((run0.modVd 5 fun v => { v with st := .decay }).modVg 1 fun g => { g with swOn := true, ready := true } : State).vg[(1 : Fin 4)].swOn = true) ∧ (∀ n : Fin 16, inGroup (1 : Fin 4) n.val = true → vdActive ((run0.modVd 5 fun v => { v with st := .decay }).modVg 1 fun g => { g with swOn := true, ready := true } : State).vd[n].st = false)) ∧
    ((canStore ((run0.modVd 5 fun v => { v with st := .hold }).modVg 1 fun g => { g with swOn := true } : State) (islVg (1 : Fin 4).val) 7)) ∧
    ((((run0.modVd 5 fun v => { v with st := .hold }).modVg 1 fun g => { g with swOn := true } : State).isUp 2 = true) ∧ ((5000 : Nat) < uvThr ((run0.modVd 5 fun v => { v with st := .hold }).modVg 1 fun g => { g with swOn := true } : State).hsc.uvCfg[(3 : Fin 4)]) ∧ (20 ≤ (20 : Nat)) ∧ (∀ g : Fin 4, ((run0.modVd 5 fun v => { v with st := .hold }).modVg 1 fun g => { g with swOn := true } : State).vgUp g = true)) := by
  refine ⟨?_, ?_, ?_, ?_, ?_, ?_, ?_, ?_, ?_, ?_, ?_, ?_⟩ <;> decide +kernel

/-- What meets the hypotheses of ValveAndGroupFaultsTurnOff: one conjunct for each clause, in the order of its clauses. -/
theorem witness_ValveAndGroupFaultsTurnOff_2 :
    ((canStore ((run0.modVd 5 fun v => { v with st := .hold }).modVg 1 fun g => { g with latched := true } : State) (islVg (1 : Fin 4).val) 7)) ∧
    (((run0 : State).vgUp (groupOf (5 : Fin 16)) = false ∨ vdOn (run0 : State).vd[(5 : Fin 16)].st = false ∨ (run0 : State).vd[(5 : Fin 16)].setpoint (run0 : State).now < 2 * (fld (run0 : State).vd[(5 : Fin 16)].openCfg 0 8 * 10) ∨ fld (run0 : State).vd[(5 : Fin 16)].openCfg 0 8 * 10 ≤ (0 : Nat) ∨ (99 : Nat) < max 1 (fld (run0 : State).vd[(5 : Fin 16)].openCfg 8 8))) ∧
    (((run0 : State).vgUp (1 : Fin 4) = false ∨ (run0 : State).vg[(1 : Fin 4)].swOn = false ∨ (15000 : Nat) ≤ 14000 ∨ (999 : Nat) < 320)) ∧
    (((run0 : State).vgUp (1 : Fin 4) = false ∨ (run0 : State).vg[(1 : Fin 4)].swOn = false ∨ (24000 : Nat) < 24000)) ∧
    (((run0 : State).vgUp (1 : Fin 4) = false ∨ (run0 : State).vg[(1 : Fin 4)].tl = true ∨ (2799 : Int) < 2800)) ∧
    (((run0 : State).vgUp (1 : Fin 4) = false ∨ (run0 : State).vg[(1 : Fin 4)].swOn = false ∨ (run0 : State).vg[(1 : Fin 4)].ready = true)) ∧
    (((run0 : State).vgUp (1 : Fin 4) = false ∨ (run0 : State).vg[(1 : Fin 4)].swOn = false ∨ 1000 < (1000 : Nat))) ∧
    (((run0 : State).vgUp (1 : Fin 4) = false ∨ (run0 : State).vg[(1 : Fin 4)].swOn = false ∨ ∃ m : Fin 16, inGroup (1 : Fin 4) m.val = true ∧ vdActive (run0 : State).vd[m].st = true)) ∧
    (((run0 : State).vgUp (1 : Fin 4) = false ∨ (run0 : State).vg[(1 : Fin 4)].tl = false ∨ 2480 < (400 : Int))) := by
  refine ⟨?_, ?_, ?_, ?_, ?_, ?_, ?_, ?_, ?_⟩ <;> decide +kernel

/-- What meets the hypotheses of LampCommandsFollowTheTable: one conjunct for each clause, in the order of its clauses. -/
theorem witness_LampCommandsFollowTheTable_1 :
    ((canStore (run0 : State) (islLs (1 : Fin 3).val) 6) ∧ (bit (run0 : State).pwr.holdStat 3 = false)) ∧
    ((canStore (run0.modPwr fun p => { p with holdStat := 8 } : State) (islLs (2 : Fin 3).val) 6) ∧ (bit (run0.modPwr fun p => { p with holdStat := 8 } : State).pwr.holdStat 3 = true)) ∧
    ((canStore ((run0.modLs 1 fun l => { l with ctl := 1, st := .off }) : State) (islLs (1 : Fin 3).val) 6) ∧ (((run0.modLs 1 fun l => { l with ctl := 1, st := .off }) : State).ls[(1 : Fin 3)].limp = false) ∧ (((false : Bool) && lsOn ((run0.modLs 1 fun l => { l with ctl := 1, st := .off }) : State).ls[(1 : Fin 3)].st && ((run0.modLs 1 fun l => { l with ctl := 1, st := .off }) : State).ls[(1 : Fin 3)].markAt == ((run0.modLs 1 fun l => { l with ctl := 1, st := .off }) : State).now && ((run0.modLs 1 fun l => { l with ctl := 1, st := .off }) : State).ls[(1 : Fin 3)].mark == .grantOn) = false)) ∧
    ((canStore ((run0.modLs 1 fun l => { l with st := .ramp, mark := .grantOn }) : State) (islLs (1 : Fin 3).val) 6) ∧ (((run0.modLs 1 fun l => { l with st := .ramp, mark := .grantOn }) : State).ls[(1 : Fin 3)].limp = false) ∧ (((true : Bool) && lsOn ((run0.modLs 1 fun l => { l with st := .ramp, mark := .grantOn }) : State).ls[(1 : Fin 3)].st && ((run0.modLs 1 fun l => { l with st := .ramp, mark := .grantOn }) : State).ls[(1 : Fin 3)].markAt == ((run0.modLs 1 fun l => { l with st := .ramp, mark := .grantOn }) : State).now && ((run0.modLs 1 fun l => { l with st := .ramp, mark := .grantOn }) : State).ls[(1 : Fin 3)].mark == .grantOn) = true)) ∧
    ((canStore ((run0.modLs 1 fun l => { l with limp := true }) : State) (islLs (1 : Fin 3).val) 6) ∧ (((run0.modLs 1 fun l => { l with limp := true }) : State).ls[(1 : Fin 3)].limp = true)) ∧
    ((canStore ((run0.modLs 1 fun l => { l with ctl := 0x31, st := .off, bankOk := true }) : State) (islLs (1 : Fin 3).val) 6) ∧ (((run0.modLs 1 fun l => { l with ctl := 0x31, st := .off, bankOk := true }) : State).ls[(1 : Fin 3)].limp = false) ∧ (((run0.modLs 1 fun l => { l with ctl := 0x31, st := .off, bankOk := true }) : State).ls[(1 : Fin 3)].st = .off) ∧ (((run0.modLs 1 fun l => { l with ctl := 0x31, st := .off, bankOk := true }) : State).ls[(1 : Fin 3)].tl = false) ∧ (((run0.modLs 1 fun l => { l with ctl := 0x31, st := .off, bankOk := true }) : State).ls[(1 : Fin 3)].bankOk = true) ∧ (((run0.modLs 1 fun l => { l with ctl := 0x31, st := .off, bankOk := true }) : State).ls[(1 : Fin 3)].curveMissing = false)) ∧
    ((canStore ((run0.modLs 1 fun l => { l with ctl := 0x33, st := .off }) : State) (islLs (1 : Fin 3).val) 6) ∧ (((run0.modLs 1 fun l => { l with ctl := 0x33, st := .off }) : State).ls[(1 : Fin 3)].limp = false) ∧ (((run0.modLs 1 fun l => { l with ctl := 0x33, st := .off }) : State).ls[(1 : Fin 3)].st = .off) ∧ (((run0.modLs 1 fun l => { l with ctl := 0x33, st := .off }) : State).ls[(1 : Fin 3)].tl = false) ∧ (((run0.modLs 1 fun l => { l with ctl := 0x33, st := .off }) : State).ls[(1 : Fin 3)].bankOk = false)) ∧
    ((canStore (run0 : State) (islLs (1 : Fin 3).val) 6) ∧ ((run0 : State).ls[(1 : Fin 3)].limp = false) ∧ ((run0 : State).ls[(1 : Fin 3)].st = .disabled ∨ (run0 : State).ls[(1 : Fin 3)].st = .latched ∨ ((run0 : State).ls[(1 : Fin 3)].st = .off ∧ (run0 : State).ls[(1 : Fin 3)].tl = true))) ∧
    ((canStore ((run0.modLs 1 fun l => { l with st := .pending }) : State) (islLs (1 : Fin 3).val) 6) ∧ (((run0.modLs 1 fun l => { l with st := .pending }) : State).ls[(1 : Fin 3)].limp = false) ∧ (((run0.modLs 1 fun l => { l with st := .pending }) : State).ls[(1 : Fin 3)].st = .pending ∨ ((run0.modLs 1 fun l => { l with st := .pending }) : State).ls[(1 : Fin 3)].st = .uvWait ∨ lsOn ((run0.modLs 1 fun l => { l with st := .pending }) : State).ls[(1 : Fin 3)].st = true)) := by
  refine ⟨?_, ?_, ?_, ?_, ?_, ?_, ?_, ?_, ?_⟩ <;> decide +kernel

/-- What meets the hypotheses of LampCommandsFollowTheTable: one conjunct for each clause, in the order of its clauses. -/
theorem witness_LampCommandsFollowTheTable_2 :
    ((canStore ((run0.modLs 1 fun l => { l with ctl := 1, st := .off, bankOk := true, segs := upd l.segs 2 fun g => { g with ctl := 0x100000 } }) : State) (islLs (1 : Fin 3).val) 6) ∧ (((run0.modLs 1 fun l => { l with ctl := 1, st := .off, bankOk := true, segs := upd l.segs 2 fun g => { g with ctl := 0x100000 } }) : State).ls[(1 : Fin 3)].limp = false) ∧ (((run0.modLs 1 fun l => { l with ctl := 1, st := .off, bankOk := true, segs := upd l.segs 2 fun g => { g with ctl := 0x100000 } }) : State).ls[(1 : Fin 3)].st = .off) ∧ (((run0.modLs 1 fun l => { l with ctl := 1, st := .off, bankOk := true, segs := upd l.segs 2 fun g => { g with ctl := 0x100000 } }) : State).ls[(1 : Fin 3)].tl = false) ∧ (((run0.modLs 1 fun l => { l with ctl := 1, st := .off, bankOk := true, segs := upd l.segs 2 fun g => { g with ctl := 0x100000 } }) : State).ls[(1 : Fin 3)].bankOk = true) ∧ (((run0.modLs 1 fun l => { l with ctl := 1, st := .off, bankOk := true, segs := upd l.segs 2 fun g => { g with ctl := 0x100000 } }) : State).ls[(1 : Fin 3)].curveMissing = true)) ∧
    ((canStore ((run0.modLs 1 fun l => { l with limp := true }) : State) (islLs (1 : Fin 3).val) 6) ∧ (((run0.modLs 1 fun l => { l with limp := true }) : State).ls[(1 : Fin 3)].limp = true ∨ (false : Bool) = true)) ∧
    ((canStore ((run0.modLs 1 fun l => { l with limp := true, st := .on }) : State) (islLs (1 : Fin 3).val) 6) ∧ (((run0.modLs 1 fun l => { l with limp := true, st := .on }) : State).ls[(1 : Fin 3)].limp = true ∨ (false : Bool) = true)) ∧
    ((canStore ((run0.modLs 1 fun l => { l with limp := true, st := .latched }) : State) (islLs (1 : Fin 3).val) 6) ∧ (((run0.modLs 1 fun l => { l with limp := true, st := .latched }) : State).ls[(1 : Fin 3)].limp = true ∨ (false : Bool) = true)) ∧
    ((canStore ((run0.modLs 1 fun l => { l with ctl := 1, st := .disabled }) : State) (islLs (1 : Fin 3).val) 6) ∧ (((run0.modLs 1 fun l => { l with ctl := 1, st := .disabled }) : State).ls[(1 : Fin 3)].limp = false) ∧ (((false : Bool) && lsOn ((run0.modLs 1 fun l => { l with ctl := 1, st := .disabled }) : State).ls[(1 : Fin 3)].st && ((run0.modLs 1 fun l => { l with ctl := 1, st := .disabled }) : State).ls[(1 : Fin 3)].markAt == ((run0.modLs 1 fun l => { l with ctl := 1, st := .disabled }) : State).now && ((run0.modLs 1 fun l => { l with ctl := 1, st := .disabled }) : State).ls[(1 : Fin 3)].mark == .grantOn) = false)) ∧
    ((canStore ((run0.modLs 1 fun l => { l with st := .ramp, mark := .grantOn }) : State) (islLs (1 : Fin 3).val) 6) ∧ (((run0.modLs 1 fun l => { l with st := .ramp, mark := .grantOn }) : State).ls[(1 : Fin 3)].limp = false) ∧ (((true : Bool) && lsOn ((run0.modLs 1 fun l => { l with st := .ramp, mark := .grantOn }) : State).ls[(1 : Fin 3)].st && ((run0.modLs 1 fun l => { l with st := .ramp, mark := .grantOn }) : State).ls[(1 : Fin 3)].markAt == ((run0.modLs 1 fun l => { l with st := .ramp, mark := .grantOn }) : State).now && ((run0.modLs 1 fun l => { l with st := .ramp, mark := .grantOn }) : State).ls[(1 : Fin 3)].mark == .grantOn) = true)) ∧
    ((canStore ((run0.modLs 1 fun l => { l with st := .latched, ctl := 1 }) : State) (islLs (1 : Fin 3).val) 6) ∧ (((run0.modLs 1 fun l => { l with st := .latched, ctl := 1 }) : State).ls[(1 : Fin 3)].limp = false)) ∧
    ((canStore (run0 : State) (islLs (1 : Fin 3).val) 6)) ∧
    ((canStore (run0 : State) 17 6) ∧ ((run0 : State).lsAllIdle = true)) ∧
    ((canStore ((run0.modLs 1 fun l => { l with st := .on }) : State) 17 6) ∧ (((run0.modLs 1 fun l => { l with st := .on }) : State).lsAllIdle = false)) ∧
    ((canStore (run0 : State) (islLs (1 : Fin 3).val) 6) ∧ ((run0 : State).ls[(1 : Fin 3)].st = .disabled ∨ (run0 : State).ls[(1 : Fin 3)].st = .off ∨ (run0 : State).ls[(1 : Fin 3)].st = .latched) ∧ (fld (4031 : W32) 0 12 ≤ 4031)) ∧
    ((canStore (run0 : State) (islLs (1 : Fin 3).val) 6) ∧ ((run0 : State).ls[(1 : Fin 3)].st = .pending ∨ (run0 : State).ls[(1 : Fin 3)].st = .ramp ∨ (run0 : State).ls[(1 : Fin 3)].st = .on ∨ (run0 : State).ls[(1 : Fin 3)].st = .uvWait ∨ 4031 < fld (4032 : W32) 0 12)) := by
  refine ⟨?_, ?_, ?_, ?_, ?_, ?_, ?_, ?_, ?_, ?_, ?_, ?_⟩ <;> decide +kernel

/-- What meets the hypotheses of LampCommandsFollowTheTable: one conjunct for each clause, in the order of its clauses. -/
theorem witness_LampCommandsFollowTheTable_3 :
    ((((run0.modLs 1 fun l => { l with copy := { busy := true, base := 5, len := 65 } }) : State).lsUp (1 : Fin 3) = true) ∧ (((run0.modLs 1 fun l => { l with copy := { busy := true, base := 5, len := 65 } }) : State).ls[(1 : Fin 3)].copy.busy = true) ∧ (((run0.modLs 1 fun l => { l with copy := { busy := true, base := 5, len := 65 } }) : State).isUp 2 = true)) ∧
    (((run0 : State).lsUp (1 : Fin 3) = false ∨ (run0 : State).ls[(1 : Fin 3)].copy.busy = false ∨ (run0 : State).isUp 2 = false)) := by
  refine ⟨?_, ?_⟩ <;> decide +kernel

/-- What meets the hypotheses of LampStringsRunTheirFrames: one conjunct for each clause, in the order of its clauses. -/
theorem witness_LampStringsRunTheirFrames_1 :
    ((takeMsg (64 + (1 : Fin 3).val) .entry (toldBy (run0.modLs 1 fun l => { l with st := .pending }) 65 .entry : State).adm.toTgt = some ([] : List (Nat × ToTgt))) ∧ ((toldBy (run0.modLs 1 fun l => { l with st := .pending }) 65 .entry : State).isUp (islOf (64 + (1 : Fin 3).val)) = true)) ∧
    ((takeMsg (64 + (1 : Fin 3).val) .grant (toldBy (run0.modLs 1 fun l => { l with st := .pending, bankOk := true }) 65 .grant : State).adm.toTgt = some ([] : List (Nat × ToTgt))) ∧ ((toldBy (run0.modLs 1 fun l => { l with st := .pending, bankOk := true }) 65 .grant : State).isUp (islOf (64 + (1 : Fin 3).val)) = true) ∧ ((toldBy (run0.modLs 1 fun l => { l with st := .pending, bankOk := true }) 65 .grant : State).ls[(1 : Fin 3)].st = .pending) ∧ ((toldBy (run0.modLs 1 fun l => { l with st := .pending, bankOk := true }) 65 .grant : State).ls[(1 : Fin 3)].bankOk = true) ∧ ((toldBy (run0.modLs 1 fun l => { l with st := .pending, bankOk := true }) 65 .grant : State).ls[(1 : Fin 3)].tl = false)) ∧
    ((takeMsg (64 + (1 : Fin 3).val) .grant (toldBy (run0.modLs 1 fun l => { l with st := .pending }) 65 .grant : State).adm.toTgt = some ([] : List (Nat × ToTgt))) ∧ ((toldBy (run0.modLs 1 fun l => { l with st := .pending }) 65 .grant : State).isUp (islOf (64 + (1 : Fin 3).val)) = true) ∧ ((toldBy (run0.modLs 1 fun l => { l with st := .pending }) 65 .grant : State).ls[(1 : Fin 3)].st ≠ .pending ∨ (toldBy (run0.modLs 1 fun l => { l with st := .pending }) 65 .grant : State).ls[(1 : Fin 3)].bankOk = false ∨ (toldBy (run0.modLs 1 fun l => { l with st := .pending }) 65 .grant : State).ls[(1 : Fin 3)].tl = true)) ∧
    ((takeMsg (64 + (1 : Fin 3).val) .drop (toldBy (run0.modLs 1 fun l => { l with st := .pending }) 65 .drop : State).adm.toTgt = some ([] : List (Nat × ToTgt))) ∧ ((toldBy (run0.modLs 1 fun l => { l with st := .pending }) 65 .drop : State).isUp (islOf (64 + (1 : Fin 3).val)) = true) ∧ ((toldBy (run0.modLs 1 fun l => { l with st := .pending }) 65 .drop : State).ls[(1 : Fin 3)].st = .pending)) ∧
    ((((run0.modLs 1 fun l => { l with st := .ramp, claimHeld := true, rampEnd := 400 }) : State).lsUp (1 : Fin 3) = true) ∧ (((run0.modLs 1 fun l => { l with st := .ramp, claimHeld := true, rampEnd := 400 }) : State).tmbRuns = true) ∧ (((run0.modLs 1 fun l => { l with st := .ramp, claimHeld := true, rampEnd := 400 }) : State).ls[(1 : Fin 3)].st = .ramp)) ∧
    ((takeMsg (64 + (1 : Fin 3).val) .drop (toldBy (run0.modLs 1 fun l => { l with st := .on }) 65 .drop : State).adm.toTgt = some ([] : List (Nat × ToTgt))) ∧ ((toldBy (run0.modLs 1 fun l => { l with st := .on }) 65 .drop : State).isUp (islOf (64 + (1 : Fin 3).val)) = true) ∧ ((toldBy (run0.modLs 1 fun l => { l with st := .on }) 65 .drop : State).ls[(1 : Fin 3)].st ≠ .pending)) ∧
    ((({ Ls.init 0 with st := .ramp, onAt := 5, rampEnd := 1005 } : Ls).st = .ramp) ∧ (({ Ls.init 0 with st := .ramp, onAt := 5, rampEnd := 1005 } : Ls).onAt < ({ Ls.init 0 with st := .ramp, onAt := 5, rampEnd := 1005 } : Ls).rampEnd)) ∧
    ((24 ≤ ({ Ls.init 0 with st := .on, fCyc := 83300 } : Ls).fCyc)) ∧
    ((((run0.modLs 1 fun l => { l with st := .on, segs := upd l.segs 3 fun g => { g with ctl := 0x1000400, clr := true, bypass := true } }) : State).lsUp (1 : Fin 3) = true) ∧ (((run0.modLs 1 fun l => { l with st := .on, segs := upd l.segs 3 fun g => { g with ctl := 0x1000400, clr := true, bypass := true } }) : State).tmbRuns = true) ∧ (((run0.modLs 1 fun l => { l with st := .on, segs := upd l.segs 3 fun g => { g with ctl := 0x1000400, clr := true, bypass := true } }) : State).pwr.phase ≠ .deep)) ∧
    ((((run0.modLs 1 fun l => { l with st := .on, fCyc := 83300, segs := upd l.segs 3 fun g => { g with lit := 800 } }) : State).lsUp (1 : Fin 3) = true) ∧ (((run0.modLs 1 fun l => { l with st := .on, fCyc := 83300, segs := upd l.segs 3 fun g => { g with lit := 800 } }) : State).tmbRuns = true) ∧ (lsOn ((run0.modLs 1 fun l => { l with st := .on, fCyc := 83300, segs := upd l.segs 3 fun g => { g with lit := 800 } }) : State).ls[(1 : Fin 3)].st = true) ∧ (((run0.modLs 1 fun l => { l with st := .on, fCyc := 83300, segs := upd l.segs 3 fun g => { g with lit := 800 } }) : State).ls[(1 : Fin 3)].judgeAt (1 : Fin 3).val (3 : Fin 8) = some (phaseOf 1 3 83300 + 800 : Nat)) ∧ (((run0.modLs 1 fun l => { l with st := .on, fCyc := 83300, segs := upd l.segs 3 fun g => { g with lit := 800 } }) : State).ls[(1 : Fin 3)].segs[(3 : Fin 8)].bypass = false)) ∧
    ((({ Ls.init 0 with fCyc := 83300 } : Ls).segs[(3 : Fin 8)].carry = 0)) := by
  refine ⟨?_, ?_, ?_, ?_, ?_, ?_, ?_, ?_, ?_, ?_, ?_⟩ <;> decide +kernel

/-- What meets the hypotheses of LampStringsRunTheirFrames: one conjunct for each clause, in the order of its clauses. -/
theorem witness_LampStringsRunTheirFrames_2 :
    ((lsOn (run0 : State).ls[(1 : Fin 3)].st = false ∨ (run0 : State).ls[(1 : Fin 3)].segs[(3 : Fin 8)].bypass = true ∨ (run0 : State).ls[(1 : Fin 3)].judgeAt (1 : Fin 3).val (3 : Fin 8) = none)) ∧
    ((takeMsg (64 + (1 : Fin 3).val) .grant (run0 : State).adm.toTgt = none ∨ (run0 : State).isUp (islOf (64 + (1 : Fin 3).val)) = false)) ∧
    ((takeMsg (64 + (1 : Fin 3).val) .drop (run0 : State).adm.toTgt = none ∨ (run0 : State).isUp (islOf (64 + (1 : Fin 3).val)) = false)) ∧
    ((takeMsg (64 + (1 : Fin 3).val) .entry (run0 : State).adm.toTgt = none ∨ (run0 : State).isUp (islOf (64 + (1 : Fin 3).val)) = false)) ∧
    (((run0 : State).lsUp (1 : Fin 3) = false ∨ (run0 : State).ls[(1 : Fin 3)].st ≠ .ramp)) ∧
    (((run0.modPwr fun p => { p with phase := .deep } : State).lsUp (1 : Fin 3) = false ∨ (run0.modPwr fun p => { p with phase := .deep } : State).pwr.phase = .deep)) := by
  refine ⟨?_, ?_, ?_, ?_, ?_, ?_⟩ <;> decide +kernel

/-- What meets the hypotheses of LampFaultsLatchTheString: one conjunct for each clause, in the order of its clauses. -/
theorem witness_LampFaultsLatchTheString_1 :
    ((((run0.modLs 1 fun l => { l with st := .on, segs := upd l.segs 3 fun g => { g with lit := 800 } }) : State).lsUp (1 : Fin 3) = true) ∧ (lsOn ((run0.modLs 1 fun l => { l with st := .on, segs := upd l.segs 3 fun g => { g with lit := 800 } }) : State).ls[(1 : Fin 3)].st = true) ∧ (800 ≤ ((run0.modLs 1 fun l => { l with st := .on, segs := upd l.segs 3 fun g => { g with lit := 800 } }) : State).ls[(1 : Fin 3)].segs[(3 : Fin 8)].lit) ∧ (((run0.modLs 1 fun l => { l with st := .on, segs := upd l.segs 3 fun g => { g with lit := 800 } }) : State).ls[(1 : Fin 3)].segs[(3 : Fin 8)].bypass = false) ∧ (((run0.modLs 1 fun l => { l with st := .on, segs := upd l.segs 3 fun g => { g with lit := 800 } }) : State).ls[(1 : Fin 3)].vOpen * 250 < (50000 : Nat)) ∧ (1000 ≤ (1000 : Nat)) ∧ (bit ((run0.modLs 1 fun l => { l with st := .on, segs := upd l.segs 3 fun g => { g with lit := 800 } }) : State).ls[(1 : Fin 3)].segs[(3 : Fin 8)].applied 24 = true)) ∧
    ((((run0.modLs 1 fun l => { l with st := .on, segs := upd l.segs 3 fun g => { g with lit := 800, applied := 0 } }) : State).lsUp (1 : Fin 3) = true) ∧ (lsOn ((run0.modLs 1 fun l => { l with st := .on, segs := upd l.segs 3 fun g => { g with lit := 800, applied := 0 } }) : State).ls[(1 : Fin 3)].st = true) ∧ (800 ≤ ((run0.modLs 1 fun l => { l with st := .on, segs := upd l.segs 3 fun g => { g with lit := 800, applied := 0 } }) : State).ls[(1 : Fin 3)].segs[(3 : Fin 8)].lit) ∧ (((run0.modLs 1 fun l => { l with st := .on, segs := upd l.segs 3 fun g => { g with lit := 800, applied := 0 } }) : State).ls[(1 : Fin 3)].segs[(3 : Fin 8)].bypass = false) ∧ (((run0.modLs 1 fun l => { l with st := .on, segs := upd l.segs 3 fun g => { g with lit := 800, applied := 0 } }) : State).ls[(1 : Fin 3)].vOpen * 250 < (50000 : Nat)) ∧ (1000 ≤ (1000 : Nat)) ∧ (bit ((run0.modLs 1 fun l => { l with st := .on, segs := upd l.segs 3 fun g => { g with lit := 800, applied := 0 } }) : State).ls[(1 : Fin 3)].segs[(3 : Fin 8)].applied 24 = false)) ∧
    ((((run0.modLs 1 fun l => { l with st := .ramp }) : State).lsUp (1 : Fin 3) = true) ∧ (lsOn ((run0.modLs 1 fun l => { l with st := .ramp }) : State).ls[(1 : Fin 3)].st = true) ∧ ((1000 : Nat) + 200 < (1201 : Nat)) ∧ (50 ≤ (50 : Nat))) ∧
    ((((run0.modLs 1 fun l => { l with st := .on }) : State).lsUp (1 : Fin 3) = true) ∧ (((run0.modLs 1 fun l => { l with st := .on }) : State).ls[(1 : Fin 3)].st = .on) ∧ (2 * (49 : Nat) < ((run0.modLs 1 fun l => { l with st := .on }) : State).ls[(1 : Fin 3)].setMa ((run0.modLs 1 fun l => { l with st := .on }) : State).now) ∧ (1000 ≤ (1000 : Nat))) ∧
    ((((run0.modLs 1 fun l => { l with st := .on }) : State).lsUp (1 : Fin 3) = true) ∧ (((run0.modLs 1 fun l => { l with st := .on }) : State).ls[(1 : Fin 3)].st = .on) ∧ (10 * (89 : Nat) < 9 * ((run0.modLs 1 fun l => { l with st := .on }) : State).ls[(1 : Fin 3)].setMa ((run0.modLs 1 fun l => { l with st := .on }) : State).now) ∧ (1000 ≤ (1000 : Nat))) ∧
    ((((run0.modLs 1 fun l => { l with st := .on, sat := true }) : State).lsUp (1 : Fin 3) = true) ∧ (((run0.modLs 1 fun l => { l with st := .on, sat := true }) : State).ls[(1 : Fin 3)].st = .on) ∧ (9 * ((run0.modLs 1 fun l => { l with st := .on, sat := true }) : State).ls[(1 : Fin 3)].setMa ((run0.modLs 1 fun l => { l with st := .on, sat := true }) : State).now ≤ 10 * (90 : Nat)) ∧ (1000 ≤ (1000 : Nat))) ∧
    ((((run0.modLs 1 fun l => { l with st := .on }) : State).lsUp (1 : Fin 3) = true) ∧ (((run0.modLs 1 fun l => { l with st := .on }) : State).ls[(1 : Fin 3)].tl = false) ∧ (2800 ≤ (2800 : Int)) ∧ (lsOn ((run0.modLs 1 fun l => { l with st := .on }) : State).ls[(1 : Fin 3)].st = true ∨ ((run0.modLs 1 fun l => { l with st := .on }) : State).ls[(1 : Fin 3)].st = .pending ∨ ((run0.modLs 1 fun l => { l with st := .on }) : State).ls[(1 : Fin 3)].st = .uvWait)) ∧
    ((((run0.modLs 1 fun l => { l with st := .off }) : State).lsUp (1 : Fin 3) = true) ∧ (((run0.modLs 1 fun l => { l with st := .off }) : State).ls[(1 : Fin 3)].tl = false) ∧ (2800 ≤ (2800 : Int)) ∧ (((run0.modLs 1 fun l => { l with st := .off }) : State).ls[(1 : Fin 3)].st = .disabled ∨ ((run0.modLs 1 fun l => { l with st := .off }) : State).ls[(1 : Fin 3)].st = .off ∨ ((run0.modLs 1 fun l => { l with st := .off }) : State).ls[(1 : Fin 3)].st = .latched)) ∧
    ((lsOn (run0 : State).ls[(1 : Fin 3)].st = false ∨ (run0 : State).ls[(1 : Fin 3)].segs[(3 : Fin 8)].lit < 800 ∨ (run0 : State).ls[(1 : Fin 3)].segs[(3 : Fin 8)].bypass = true ∨ (50000 : Nat) ≤ (run0 : State).ls[(1 : Fin 3)].vOpen * 250 ∨ (1000 : Nat) < 1000)) := by
  refine ⟨?_, ?_, ?_, ?_, ?_, ?_, ?_, ?_, ?_⟩ <;> decide +kernel

/-- What meets the hypotheses of LampFaultsLatchTheString: one conjunct for each clause, in the order of its clauses. -/
theorem witness_LampFaultsLatchTheString_2 :
    ((lsOn (run0 : State).ls[(1 : Fin 3)].st = false ∨ (1201 : Nat) ≤ (1000 : Nat) + 200 ∨ (50 : Nat) < 50)) ∧
    (((run0 : State).ls[(1 : Fin 3)].st ≠ .on ∨ (run0 : State).ls[(1 : Fin 3)].setMa (run0 : State).now ≤ 2 * (49 : Nat) ∨ (1000 : Nat) < 1000 ∨ (true : Bool) = false)) ∧
    (((run0 : State).ls[(1 : Fin 3)].tl = true ∨ (2799 : Int) < 2800)) ∧
    (((run0 : State).ls[(1 : Fin 3)].tl = false ∨ 2480 < (2400 : Int))) ∧
    ((((run0.modLs 1 fun l => { l with st := .uvWait, tl := true, bankOk := true }) : State).lsUp (1 : Fin 3) = true) ∧ (((run0.modLs 1 fun l => { l with st := .uvWait, tl := true, bankOk := true }) : State).ls[(1 : Fin 3)].tl = true) ∧ ((2480 : Int) ≤ 2480)) ∧
    (((run0 : State).lsUp (1 : Fin 3) = false ∨ (run0 : State).ls[(1 : Fin 3)].st ≠ .on ∨ (1000 : Nat) < 1000)) := by
  refine ⟨?_, ?_, ?_, ?_, ?_, ?_⟩ <;> decide +kernel

/-- What meets the hypotheses of ChainCommandsStartAndStopRuns: one conjunct for each clause, in the order of its clauses. -/
theorem witness_ChainCommandsStartAndStopRuns_1 :
    ((canStore ((run0.modLc 2 fun c => { c with st := .idle, ctl := 3 }) : State) (islLc (2 : Fin 8).val) 5) ∧ (((run0.modLc 2 fun c => { c with st := .idle, ctl := 3 }) : State).lc[(2 : Fin 8)].st = .idle) ∧ (bit ((run0.modLc 2 fun c => { c with st := .idle, ctl := 3 }) : State).pwr.holdStat 4 = false)) ∧
    ((canStore (run0 : State) (islLc (2 : Fin 8).val) 5) ∧ ((run0 : State).lc[(2 : Fin 8)].st ≠ .idle ∨ bit (run0 : State).pwr.holdStat 4 = true)) ∧
    ((canStore ((run0.modLc 2 fun c => { c with st := .pending, cont := true }) : State) (islLc (2 : Fin 8).val) 5) ∧ (((run0.modLc 2 fun c => { c with st := .pending, cont := true }) : State).lc[(2 : Fin 8)].cont = true) ∧ (((run0.modLc 2 fun c => { c with st := .pending, cont := true }) : State).lc[(2 : Fin 8)].st = .pending)) ∧
    ((canStore ((run0.modLc 2 fun c => { c with st := .frame, cont := true }) : State) (islLc (2 : Fin 8).val) 5) ∧ (((run0.modLc 2 fun c => { c with st := .frame, cont := true }) : State).lc[(2 : Fin 8)].cont = true) ∧ (((run0.modLc 2 fun c => { c with st := .frame, cont := true }) : State).lc[(2 : Fin 8)].st = .frame)) ∧
    ((canStore ((run0.modLc 2 fun c => { c with st := .frame }) : State) (islLc (2 : Fin 8).val) 5) ∧ (((run0.modLc 2 fun c => { c with st := .frame }) : State).lc[(2 : Fin 8)].cont = false ∨ ((run0.modLc 2 fun c => { c with st := .frame }) : State).lc[(2 : Fin 8)].running = false)) ∧
    ((canStore (run0 : State) (islLc (2 : Fin 8).val) 5)) ∧
    ((canStore ((run0.modLc 2 fun c => { c with st := .frame, frameEnd := 90, out := [{ m := 7, hcmd := 2, harg := 0, nsh := 0, hdr := 0, base := 0, startAt := 0, hdrAt := 20, shares := [], aborted := false }] }) : State) (islLc (2 : Fin 8).val) 5) ∧ (((false : Bool) && ((run0.modLc 2 fun c => { c with st := .frame, frameEnd := 90, out := [{ m := 7, hcmd := 2, harg := 0, nsh := 0, hdr := 0, base := 0, startAt := 0, hdrAt := 20, shares := [], aborted := false }] }) : State).lc[(2 : Fin 8)].lastEnd == some ((run0.modLc 2 fun c => { c with st := .frame, frameEnd := 90, out := [{ m := 7, hcmd := 2, harg := 0, nsh := 0, hdr := 0, base := 0, startAt := 0, hdrAt := 20, shares := [], aborted := false }] }) : State).now) = false) ∧ (((run0.modLc 2 fun c => { c with st := .frame, frameEnd := 90, out := [{ m := 7, hcmd := 2, harg := 0, nsh := 0, hdr := 0, base := 0, startAt := 0, hdrAt := 20, shares := [], aborted := false }] }) : State).lc[(2 : Fin 8)].st = .frame) ∧ (((run0.modLc 2 fun c => { c with st := .frame, frameEnd := 90, out := [{ m := 7, hcmd := 2, harg := 0, nsh := 0, hdr := 0, base := 0, startAt := 0, hdrAt := 20, shares := [], aborted := false }] }) : State).now < ((run0.modLc 2 fun c => { c with st := .frame, frameEnd := 90, out := [{ m := 7, hcmd := 2, harg := 0, nsh := 0, hdr := 0, base := 0, startAt := 0, hdrAt := 20, shares := [], aborted := false }] }) : State).lc[(2 : Fin 8)].frameEnd) ∧ (((run0.modLc 2 fun c => { c with st := .frame, frameEnd := 90, out := [{ m := 7, hcmd := 2, harg := 0, nsh := 0, hdr := 0, base := 0, startAt := 0, hdrAt := 20, shares := [], aborted := false }] }) : State).lc[(2 : Fin 8)].out = ([] : List LcFrame) ++ [({ m := 7, hcmd := 2, harg := 0, nsh := 0, hdr := 0, base := 0, startAt := 0, hdrAt := 20, shares := [], aborted := false } : LcFrame)])) ∧
    ((canStore ((run0.modLc 2 fun c => { c with st := .pending }) : State) (islLc (2 : Fin 8).val) 5) ∧ (((false : Bool) && ((run0.modLc 2 fun c => { c with st := .pending }) : State).lc[(2 : Fin 8)].lastEnd == some ((run0.modLc 2 fun c => { c with st := .pending }) : State).now) = false) ∧ (((run0.modLc 2 fun c => { c with st := .pending }) : State).lc[(2 : Fin 8)].st = .pending ∨ (((run0.modLc 2 fun c => { c with st := .pending }) : State).lc[(2 : Fin 8)].st = .frame ∧ ((run0.modLc 2 fun c => { c with st := .pending }) : State).lc[(2 : Fin 8)].frameEnd ≤ ((run0.modLc 2 fun c => { c with st := .pending }) : State).now))) ∧
    ((canStore (run0 : State) (islLc (2 : Fin 8).val) 5) ∧ (((false : Bool) && (run0 : State).lc[(2 : Fin 8)].lastEnd == some (run0 : State).now) = false) ∧ ((run0 : State).lc[(2 : Fin 8)].running = false)) ∧
    ((canStore ((run0.modLc 2 fun c => { c with st := .idle, lastEnd := some 0 }) : State) (islLc (2 : Fin 8).val) 5) ∧ (((true : Bool) && ((run0.modLc 2 fun c => { c with st := .idle, lastEnd := some 0 }) : State).lc[(2 : Fin 8)].lastEnd == some ((run0.modLc 2 fun c => { c with st := .idle, lastEnd := some 0 }) : State).now) = true)) := by
  refine ⟨?_, ?_, ?_, ?_, ?_, ?_, ?_, ?_, ?_, ?_⟩ <;> decide +kernel

/-- What meets the hypotheses of ChainCommandsStartAndStopRuns: one conjunct for each clause, in the order of its clauses. -/
theorem witness_ChainCommandsStartAndStopRuns_2 :
    ((canStore ((run0.modLc 2 fun c => { c with st := .frame, out := [{ m := 7, hcmd := 2, harg := 0, nsh := 0, hdr := 0, base := 0, startAt := 0, hdrAt := 20, shares := [], aborted := false }] }) : State) (islLc (2 : Fin 8).val) 5)) ∧
    ((canStore ((run0.modLc 2 fun c => { c with st := .idle }) : State) 9 5)) ∧
    ((canStore ((run0.modLc 2 fun c => { c with st := .pending, cont := true }) : State) 9 5)) ∧
    ((canStore (run0 : State) (islLc (2 : Fin 8).val) 5)) ∧
    ((canStore (run0 : State) (islLc (2 : Fin 8).val) 5) ∧ (fld (0xFA0000 : W32) 0 24 % 32 = 0) ∧ (fld (0xFA0000 : W32) 0 24 + 0x60000 ≤ 0x1000000)) ∧
    ((canStore (run0 : State) (islLc (2 : Fin 8).val) 5) ∧ (fld (0xFE0000 : W32) 0 24 % 32 = 0) ∧ (fld (0xFE0000 : W32) 0 24 + 0x20000 ≤ 0x1000000)) ∧
    ((canStore (run0 : State) (islLc (2 : Fin 8).val) 5) ∧ (fld (0xFA0020 : W32) 0 24 % 32 ≠ 0 ∨ 0x1000000 < fld (0xFA0020 : W32) 0 24 + (if (true : Bool) then 0x60000 else 0x20000))) := by
  refine ⟨?_, ?_, ?_, ?_, ?_, ?_, ?_⟩ <;> decide +kernel

/-- What meets the hypotheses of ChainFramesGoOutAndReturnsComeIn: one conjunct for each clause, in the order of its clauses. -/
theorem witness_ChainFramesGoOutAndReturnsComeIn_1 :
    ((((run0.modLc 2 fun c => { c with st := .pending, frame := 2, nextAt := 50, swapPend := true }) : State).lcUp (2 : Fin 8) = true) ∧ (((run0.modLc 2 fun c => { c with st := .pending, frame := 2, nextAt := 50, swapPend := true }) : State).tmbRuns = true) ∧ (((run0.modLc 2 fun c => { c with st := .pending, frame := 2, nextAt := 50, swapPend := true }) : State).lc[(2 : Fin 8)].st = .pending) ∧ (((run0.modLc 2 fun c => { c with st := .pending, frame := 2, nextAt := 50, swapPend := true }) : State).lc[(2 : Fin 8)].mustWait = false) ∧ (((run0.modLc 2 fun c => { c with st := .pending, frame := 2, nextAt := 50, swapPend := true }) : State).isStopped 5 = false) ∧ (((run0.modLc 2 fun c => { c with st := .pending, frame := 2, nextAt := 50, swapPend := true }) : State).bulkOk = true)) ∧
    ((({ (run0.modLc 2 fun c => { c with st := .pending, frame := 0x5001 }) with pwr := { run0.pwr with bulkRdy := false } } : State).lcUp (2 : Fin 8) = true) ∧ (({ (run0.modLc 2 fun c => { c with st := .pending, frame := 0x5001 }) with pwr := { run0.pwr with bulkRdy := false } } : State).tmbRuns = true) ∧ (({ (run0.modLc 2 fun c => { c with st := .pending, frame := 0x5001 }) with pwr := { run0.pwr with bulkRdy := false } } : State).lc[(2 : Fin 8)].st = .pending) ∧ (({ (run0.modLc 2 fun c => { c with st := .pending, frame := 0x5001 }) with pwr := { run0.pwr with bulkRdy := false } } : State).lc[(2 : Fin 8)].mustWait = false) ∧ (({ (run0.modLc 2 fun c => { c with st := .pending, frame := 0x5001 }) with pwr := { run0.pwr with bulkRdy := false } } : State).isStopped 5 = false) ∧ (({ (run0.modLc 2 fun c => { c with st := .pending, frame := 0x5001 }) with pwr := { run0.pwr with bulkRdy := false } } : State).bulkOk = false)) ∧
    (((run0 : State).lc[(2 : Fin 8)].st ≠ .pending ∨ (run0 : State).lc[(2 : Fin 8)].mustWait = true ∨ (run0 : State).isStopped 5 = true)) ∧
    (((1 : Nat) < ({ ({ m := 7, hcmd := 2, harg := 0, nsh := 0, hdr := 0, base := 0, startAt := 0, hdrAt := 20, shares := [], aborted := false } : LcFrame) with nsh := 2, shares := [5, 0x800001] } : LcFrame).nsh) ∧ ((23 : Nat) < 24) ∧ ((16 : Nat) < 25)) ∧
    ((((run0.modLc 2 fun c => { c with st := .frame, cont := true }) : State).lcUp (2 : Fin 8) = true) ∧ (((run0.modLc 2 fun c => { c with st := .frame, cont := true }) : State).tmbRuns = true) ∧ (((run0.modLc 2 fun c => { c with st := .frame, cont := true }) : State).lc[(2 : Fin 8)].st = .frame)) ∧
    ((((run0.modLc 2 fun c => { c with st := .idle }) : State).lcUp (2 : Fin 8) = true)) ∧
    ((((run0.modLc 2 fun c => { c with st := .idle }) : State).lcUp (2 : Fin 8) = true) ∧ (((run0.modLc 2 fun c => { c with st := .idle }) : State).lc[(2 : Fin 8)].rx = .stray ∨ (((run0.modLc 2 fun c => { c with st := .idle }) : State).lc[(2 : Fin 8)].rx = .idle ∧ ((run0.modLc 2 fun c => { c with st := .idle }) : State).lc[(2 : Fin 8)].out = []))) ∧
    ((((run0.modLc 2 fun c => { c with rx := .dropped }) : State).lcUp (2 : Fin 8) = true) ∧ (((run0.modLc 2 fun c => { c with rx := .dropped }) : State).lc[(2 : Fin 8)].rx = .dropped)) ∧
    ((((run0.modLc 2 fun c => { c with st := .idle, out := [{ m := 7, hcmd := 2, harg := 0, nsh := 0, hdr := 0, base := 0, startAt := 0, hdrAt := 20, shares := [], aborted := true }] }) : State).bulkOk = true) ∧ (((run0.modLc 2 fun c => { c with st := .idle, out := [{ m := 7, hcmd := 2, harg := 0, nsh := 0, hdr := 0, base := 0, startAt := 0, hdrAt := 20, shares := [], aborted := true }] }) : State).lcUp (2 : Fin 8) = true) ∧ (((run0.modLc 2 fun c => { c with st := .idle, out := [{ m := 7, hcmd := 2, harg := 0, nsh := 0, hdr := 0, base := 0, startAt := 0, hdrAt := 20, shares := [], aborted := true }] }) : State).lc[(2 : Fin 8)].out = ({ m := 7, hcmd := 2, harg := 0, nsh := 0, hdr := 0, base := 0, startAt := 0, hdrAt := 20, shares := [], aborted := true } : LcFrame) :: ([] : List LcFrame)) ∧ (((run0.modLc 2 fun c => { c with st := .idle, out := [{ m := 7, hcmd := 2, harg := 0, nsh := 0, hdr := 0, base := 0, startAt := 0, hdrAt := 20, shares := [], aborted := true }] }) : State).lc[(2 : Fin 8)].rx = .idle ∨ ((run0.modLc 2 fun c => { c with st := .idle, out := [{ m := 7, hcmd := 2, harg := 0, nsh := 0, hdr := 0, base := 0, startAt := 0, hdrAt := 20, shares := [], aborted := true }] }) : State).lc[(2 : Fin 8)].rx = .mine) ∧ (({ m := 7, hcmd := 2, harg := 0, nsh := 0, hdr := 0, base := 0, startAt := 0, hdrAt := 20, shares := [], aborted := true } : LcFrame).aborted = true)) := by
  refine ⟨?_, ?_, ?_, ?_, ?_, ?_, ?_, ?_, ?_⟩ <;> decide +kernel

/-- What meets the hypotheses of ChainFramesGoOutAndReturnsComeIn: one conjunct for each clause, in the order of its clauses. -/
theorem witness_ChainFramesGoOutAndReturnsComeIn_2 :
    ((((run0.modLc 2 fun c => { c with st := .idle, out := [{ m := 7, hcmd := 2, harg := 0, nsh := 0, hdr := 0, base := 0, startAt := 0, hdrAt := 20, shares := [], aborted := false }] }) : State).bulkOk = true) ∧ (((run0.modLc 2 fun c => { c with st := .idle, out := [{ m := 7, hcmd := 2, harg := 0, nsh := 0, hdr := 0, base := 0, startAt := 0, hdrAt := 20, shares := [], aborted := false }] }) : State).lcUp (2 : Fin 8) = true) ∧ (((run0.modLc 2 fun c => { c with st := .idle, out := [{ m := 7, hcmd := 2, harg := 0, nsh := 0, hdr := 0, base := 0, startAt := 0, hdrAt := 20, shares := [], aborted := false }] }) : State).lc[(2 : Fin 8)].out = ({ m := 7, hcmd := 2, harg := 0, nsh := 0, hdr := 0, base := 0, startAt := 0, hdrAt := 20, shares := [], aborted := false } : LcFrame) :: ([] : List LcFrame)) ∧ (((run0.modLc 2 fun c => { c with st := .idle, out := [{ m := 7, hcmd := 2, harg := 0, nsh := 0, hdr := 0, base := 0, startAt := 0, hdrAt := 20, shares := [], aborted := false }] }) : State).lc[(2 : Fin 8)].rx = .idle ∨ ((run0.modLc 2 fun c => { c with st := .idle, out := [{ m := 7, hcmd := 2, harg := 0, nsh := 0, hdr := 0, base := 0, startAt := 0, hdrAt := 20, shares := [], aborted := false }] }) : State).lc[(2 : Fin 8)].rx = .mine) ∧ (({ m := 7, hcmd := 2, harg := 0, nsh := 0, hdr := 0, base := 0, startAt := 0, hdrAt := 20, shares := [], aborted := false } : LcFrame).aborted = false) ∧ (lcEchoOk (0 : W32) = false ∨ fld (0 : W32) 0 4 ≠ ({ m := 7, hcmd := 2, harg := 0, nsh := 0, hdr := 0, base := 0, startAt := 0, hdrAt := 20, shares := [], aborted := false } : LcFrame).hcmd)) ∧
    ((((run0.modLc 2 fun c => { c with st := .idle, out := [{ m := 7, hcmd := 2, harg := 0, nsh := 0, hdr := 0, base := 0, startAt := 0, hdrAt := 20, shares := [], aborted := false }] }) : State).canonical) ∧ (((run0.modLc 2 fun c => { c with st := .idle, out := [{ m := 7, hcmd := 2, harg := 0, nsh := 0, hdr := 0, base := 0, startAt := 0, hdrAt := 20, shares := [], aborted := false }] }) : State).ecc = []) ∧ (((run0.modLc 2 fun c => { c with st := .idle, out := [{ m := 7, hcmd := 2, harg := 0, nsh := 0, hdr := 0, base := 0, startAt := 0, hdrAt := 20, shares := [], aborted := false }] }) : State).bulkOk = true) ∧ (((run0.modLc 2 fun c => { c with st := .idle, out := [{ m := 7, hcmd := 2, harg := 0, nsh := 0, hdr := 0, base := 0, startAt := 0, hdrAt := 20, shares := [], aborted := false }] }) : State).lcUp (2 : Fin 8) = true) ∧ (((run0.modLc 2 fun c => { c with st := .idle, out := [{ m := 7, hcmd := 2, harg := 0, nsh := 0, hdr := 0, base := 0, startAt := 0, hdrAt := 20, shares := [], aborted := false }] }) : State).lc[(2 : Fin 8)].out = ({ m := 7, hcmd := 2, harg := 0, nsh := 0, hdr := 0, base := 0, startAt := 0, hdrAt := 20, shares := [], aborted := false } : LcFrame) :: ([] : List LcFrame)) ∧ (((run0.modLc 2 fun c => { c with st := .idle, out := [{ m := 7, hcmd := 2, harg := 0, nsh := 0, hdr := 0, base := 0, startAt := 0, hdrAt := 20, shares := [], aborted := false }] }) : State).lc[(2 : Fin 8)].rx = .idle ∨ ((run0.modLc 2 fun c => { c with st := .idle, out := [{ m := 7, hcmd := 2, harg := 0, nsh := 0, hdr := 0, base := 0, startAt := 0, hdrAt := 20, shares := [], aborted := false }] }) : State).lc[(2 : Fin 8)].rx = .mine) ∧ (({ m := 7, hcmd := 2, harg := 0, nsh := 0, hdr := 0, base := 0, startAt := 0, hdrAt := 20, shares := [], aborted := false } : LcFrame).aborted = false) ∧ (shareCmd ({ m := 7, hcmd := 2, harg := 0, nsh := 0, hdr := 0, base := 0, startAt := 0, hdrAt := 20, shares := [], aborted := false } : LcFrame).hcmd = false) ∧ (lcEchoOk (lcHeader 2 0 5 : W32) = true) ∧ (fld (lcHeader 2 0 5 : W32) 0 4 = ({ m := 7, hcmd := 2, harg := 0, nsh := 0, hdr := 0, base := 0, startAt := 0, hdrAt := 20, shares := [], aborted := false } : LcFrame).hcmd) ∧ (((run0.modLc 2 fun c => { c with st := .idle, out := [{ m := 7, hcmd := 2, harg := 0, nsh := 0, hdr := 0, base := 0, startAt := 0, hdrAt := 20, shares := [], aborted := false }] }) : State).lc[(2 : Fin 8)].chgEn = false ∨ ((run0.modLc 2 fun c => { c with st := .idle, out := [{ m := 7, hcmd := 2, harg := 0, nsh := 0, hdr := 0, base := 0, startAt := 0, hdrAt := 20, shares := [], aborted := false }] }) : State).lc[(2 : Fin 8)].prev = none) ∧ (([1, 2, 3] : List W8).length ≤ 131072)) := by
  refine ⟨?_, ?_⟩ <;> decide +kernel

/-- What meets the hypotheses of ChainFramesGoOutAndReturnsComeIn: one conjunct for each clause, in the order of its clauses. -/
theorem witness_ChainFramesGoOutAndReturnsComeIn_3 :
    ((((run0.modLc 2 fun c => { c with st := .idle, out := [{ m := 7, hcmd := 2, harg := 0, nsh := 0, hdr := 0, base := 0, startAt := 0, hdrAt := 20, shares := [], aborted := false }] }) : State).lcUp (2 : Fin 8) = true) ∧ (((run0.modLc 2 fun c => { c with st := .idle, out := [{ m := 7, hcmd := 2, harg := 0, nsh := 0, hdr := 0, base := 0, startAt := 0, hdrAt := 20, shares := [], aborted := false }] }) : State).tmbRuns = true) ∧ (((run0.modLc 2 fun c => { c with st := .idle, out := [{ m := 7, hcmd := 2, harg := 0, nsh := 0, hdr := 0, base := 0, startAt := 0, hdrAt := 20, shares := [], aborted := false }] }) : State).lc[(2 : Fin 8)].out = ({ m := 7, hcmd := 2, harg := 0, nsh := 0, hdr := 0, base := 0, startAt := 0, hdrAt := 20, shares := [], aborted := false } : LcFrame) :: ([] : List LcFrame)) ∧ (((run0.modLc 2 fun c => { c with st := .idle, out := [{ m := 7, hcmd := 2, harg := 0, nsh := 0, hdr := 0, base := 0, startAt := 0, hdrAt := 20, shares := [], aborted := false }] }) : State).lc[(2 : Fin 8)].rx ≠ .mine)) ∧
    (((run0 : State).lc[(2 : Fin 8)].out = [] ∨ (run0 : State).lc[(2 : Fin 8)].rx = .mine)) ∧
    ((((run0.modLc 2 fun c => { c with retEnd := some 0 }) : State).lcUp (2 : Fin 8) = true) ∧ (((run0.modLc 2 fun c => { c with retEnd := some 0 }) : State).lc[(2 : Fin 8)].retEnd = some (0 : Nat)) ∧ (((run0.modLc 2 fun c => { c with retEnd := some 0 }) : State).now ≤ (0 : Nat) + ((run0.modLc 2 fun c => { c with retEnd := some 0 }) : State).lc[(2 : Fin 8)].resetUs)) ∧
    ((((run0.modLc 2 fun c => { c with retEnd := some 0 }).modTmb fun m => { m with now := 90 } : State).lc[(2 : Fin 8)].retEnd = some (0 : Nat)) ∧ ((0 : Nat) + ((run0.modLc 2 fun c => { c with retEnd := some 0 }).modTmb fun m => { m with now := 90 } : State).lc[(2 : Fin 8)].resetUs < ((run0.modLc 2 fun c => { c with retEnd := some 0 }).modTmb fun m => { m with now := 90 } : State).now)) ∧
    (((run0 : State).lcUp (2 : Fin 8) = false ∨ (run0 : State).lc[(2 : Fin 8)].st ≠ .frame)) ∧
    ((({ run0 with up := Vector.replicate 72 false } : State).lcUp (2 : Fin 8) = false)) := by
  refine ⟨?_, ?_, ?_, ?_, ?_, ?_⟩ <;> decide +kernel

/-- What meets the hypotheses of InputsAreFilteredAndReported: one conjunct for each clause, in the order of its clauses. -/
theorem witness_InputsAreFilteredAndReported_1 :
    (((run0 : State).isUp 0 = true) ∧ ((run0 : State).tmbRuns = true) ∧ ((run0 : State).siPolled = false) ∧ ((run0 : State).inp.vl3Low = false) ∧ ((2999 : Int) < 3000 ∨ 6000 < (2999 : Int)) ∧ ((true : Bool) = (if (2999 : Int) < 3000 then !bit (run0 : State).inp.si[(15 : Fin 16)].cfg 2 else bit (run0 : State).inp.si[(15 : Fin 16)].cfg 2)) ∧ ((run0 : State).inp.si[(15 : Fin 16)].closed = !(true : Bool)) ∧ (max 1 (fld (run0 : State).inp.si[(15 : Fin 16)].cfg 8 8) ≤ (10 : Nat))) ∧
    (((6001 : Int) < 3000 ∨ 6000 < (6001 : Int)) ∧ ((false : Bool) = (if (6001 : Int) < 3000 then !bit (run0 : State).inp.si[(15 : Fin 16)].cfg 2 else bit (run0 : State).inp.si[(15 : Fin 16)].cfg 2)) ∧ ((run0 : State).isUp 0 = false ∨ (run0 : State).tmbRuns = false ∨ (run0 : State).siPolled = true ∨ (run0 : State).inp.vl3Low = true ∨ (run0 : State).inp.si[(15 : Fin 16)].closed = (false : Bool) ∨ (10 : Nat) < max 1 (fld (run0 : State).inp.si[(15 : Fin 16)].cfg 8 8))) ∧
    ((((run0.modInp fun p => { p with si := upd p.si 3 fun x => { x with cnt := 1 } }).modPwr fun p => { p with phase := .deep } : State).tmbRuns = true) ∧ (((run0.modInp fun p => { p with si := upd p.si 3 fun x => { x with cnt := 1 } }).modPwr fun p => { p with phase := .deep } : State).siPolled = true) ∧ (((run0.modInp fun p => { p with si := upd p.si 3 fun x => { x with cnt := 1 } }).modPwr fun p => { p with phase := .deep } : State).inp.vl3Low = false)) ∧
    ((((run0.modInp fun p => { p with vl3Low := true }).modPwr fun p => { p with phase := .sleep } : State).tmbRuns = true) ∧ (((run0.modInp fun p => { p with vl3Low := true }).modPwr fun p => { p with phase := .sleep } : State).siPolled = true) ∧ (((run0.modInp fun p => { p with vl3Low := true }).modPwr fun p => { p with phase := .sleep } : State).inp.vl3Low = true)) ∧
    (((run0 : State).siPolled = false)) ∧
    (((run0 : State).isUp 0 = true) ∧ ((run0 : State).tmbRuns = true)) ∧
    (((run0.modInp fun p => { p with ainCtl := 0xF, ainWin := upd p.ainWin 3 fun _ => 0x03E80064 } : State).isUp 0 = true) ∧ ((run0.modInp fun p => { p with ainCtl := 0xF, ainWin := upd p.ainWin 3 fun _ => 0x03E80064 } : State).pwr.phase = .run ∨ (run0.modInp fun p => { p with ainCtl := 0xF, ainWin := upd p.ainWin 3 fun _ => 0x03E80064 } : State).pwr.phase = .sleep ∨ (run0.modInp fun p => { p with ainCtl := 0xF, ainWin := upd p.ainWin 3 fun _ => 0x03E80064 } : State).pwr.phase = .entering ∨ (run0.modInp fun p => { p with ainCtl := 0xF, ainWin := upd p.ainWin 3 fun _ => 0x03E80064 } : State).pwr.phase = .returning) ∧ (bit (run0.modInp fun p => { p with ainCtl := 0xF, ainWin := upd p.ainWin 3 fun _ => 0x03E80064 } : State).inp.ainCtl (3 : Fin 4).val = true)) ∧
    (((run0.modInp fun p => { p with vsOn := true } : State).isUp 0 = true) ∧ (bit (run0.modInp fun p => { p with vsOn := true } : State).inp.ainCtl (3 : Fin 4).val = false ∨ ((run0.modInp fun p => { p with vsOn := true } : State).pwr.phase ≠ .run ∧ (run0.modInp fun p => { p with vsOn := true } : State).pwr.phase ≠ .sleep ∧ (run0.modInp fun p => { p with vsOn := true } : State).pwr.phase ≠ .entering ∧ (run0.modInp fun p => { p with vsOn := true } : State).pwr.phase ≠ .returning))) ∧
    (((run0.modInp fun p => { p with vsFault := true } : State).coreRuns = true) ∧ ((run0.modInp fun p => { p with vsFault := true } : State).isUp 0 = true)) ∧
    (((run0.modInp fun p => { p with vsOn := true } : State).isUp 0 = true) ∧ ((run0.modInp fun p => { p with vsOn := true } : State).inp.vsOn = true) ∧ (230 ≤ (230 : Nat)) ∧ (1000 ≤ (1000 : Nat))) ∧
    (((run0.modInp fun p => { p with vsOn := true } : State).isUp 0 = true) ∧ ((run0.modInp fun p => { p with vsOn := true } : State).inp.vsOn = true) ∧ ((229 : Nat) < 230 ∨ (1000 : Nat) < 1000)) ∧
    (((run0 : State).inp.vsOn = false)) := by
  refine ⟨?_, ?_, ?_, ?_, ?_, ?_, ?_, ?_, ?_, ?_, ?_, ?_⟩ <;> decide +kernel

/-- What meets the hypotheses of InputsAreFilteredAndReported: one conjunct for each clause, in the order of its clauses. -/
theorem witness_InputsAreFilteredAndReported_2 :
    (((run0 : State).isUp 0 = false ∨ (run0 : State).tmbRuns = false ∨ (run0 : State).inp.vl3Low = true ∨ (0 : Nat) < max 1 (fld (run0 : State).inp.si[(3 : Fin 16)].cfg 8 8))) ∧
    ((({ run0 with up := Vector.replicate 72 false } : State).isUp 0 = false ∨ ({ run0 with up := Vector.replicate 72 false } : State).tmbRuns = false)) ∧
    ((({ run0 with up := Vector.replicate 72 false } : State).isUp 0 = false)) := by
  refine ⟨?_, ?_, ?_⟩ <;> decide +kernel

/-- What meets the hypotheses of DirectInputsAndTheLimpPadActOnTargets: one conjunct for each clause, in the order of its clauses. -/
theorem witness_DirectInputsAndTheLimpPadActOnTargets :
    ((((hs0 5 fun h => { h with st := .on, limp := true }).modInp fun p => { p with din := upd p.din 0 fun _ => true } : State).isUp 0 = true) ∧ (((hs0 5 fun h => { h with st := .on, limp := true }).modInp fun p => { p with din := upd p.din 0 fun _ => true } : State).tmbRuns = true) ∧ (((hs0 5 fun h => { h with st := .on, limp := true }).modInp fun p => { p with din := upd p.din 0 fun _ => true } : State).inp.din[(0 : Fin 8)] = !(false : Bool)) ∧ (max 1 (fld ((hs0 5 fun h => { h with st := .on, limp := true }).modInp fun p => { p with din := upd p.din 0 fun _ => true } : State).inp.dinCfg 0 8) ≤ (4 : Nat))) ∧
    (((run0 : State).inp.din[(0 : Fin 8)] = (true : Bool) ∨ (3 : Nat) < max 1 (fld (run0 : State).inp.dinCfg 0 8))) ∧
    (((hs0 5 fun h => { h with st := .on, repeatOff := true } : State).hs[(5 : Fin 48)].repeatOff = true) ∧ ((hs0 5 fun h => { h with st := .on, repeatOff := true } : State).routedLevel (tHs (5 : Fin 48)) = false)) ∧
    (((run0.modVd 5 fun v => { v with st := .hold, repeatOff := true } : State).vd[(5 : Fin 16)].repeatOff = true) ∧ ((run0.modVd 5 fun v => { v with st := .hold, repeatOff := true } : State).routedLevel (tVd (5 : Fin 16)) = false)) ∧
    (((run0.modLs 1 fun v => { v with st := .on, repeatOff := true } : State).ls[(1 : Fin 3)].repeatOff = true) ∧ ((run0.modLs 1 fun v => { v with st := .on, repeatOff := true } : State).routedLevel (tLs (1 : Fin 3)) = false)) ∧
    (((run0.modInp fun p => { p with din := Vector.replicate 8 true } : State).routedLevel (5 : Fin 67) = true)) ∧
    ((((hs0 5 fun h => { h with st := .on }).modInp fun p => { p with lmap := (p.lmap.set 5 1).set 50 1 } : State).isUp 0 = true) ∧ (((hs0 5 fun h => { h with st := .on }).modInp fun p => { p with lmap := (p.lmap.set 5 1).set 50 1 } : State).tmbRuns = true) ∧ (((hs0 5 fun h => { h with st := .on }).modInp fun p => { p with lmap := (p.lmap.set 5 1).set 50 1 } : State).inp.active = false) ∧ (max 1 (fld ((hs0 5 fun h => { h with st := .on }).modInp fun p => { p with lmap := (p.lmap.set 5 1).set 50 1 } : State).inp.limpCfg 0 8) ≤ (10 : Nat))) ∧
    ((((hs0 5 fun h => { h with st := .on, limp := true }).modInp fun p => { p with pad := true } : State).isUp 0 = true) ∧ (((hs0 5 fun h => { h with st := .on, limp := true }).modInp fun p => { p with pad := true } : State).tmbRuns = true) ∧ (((hs0 5 fun h => { h with st := .on, limp := true }).modInp fun p => { p with pad := true } : State).inp.pad = true) ∧ (((hs0 5 fun h => { h with st := .on, limp := true }).modInp fun p => { p with pad := true } : State).inp.deputy = false) ∧ (((hs0 5 fun h => { h with st := .on, limp := true }).modInp fun p => { p with pad := true } : State).inp.expiry = false) ∧ (max 1 (fld ((hs0 5 fun h => { h with st := .on, limp := true }).modInp fun p => { p with pad := true } : State).inp.limpCfg 0 8) ≤ (10 : Nat))) ∧
    (((run0.modInp fun p => { p with pad := true, expiry := true } : State).isUp 0 = true) ∧ ((run0.modInp fun p => { p with pad := true, expiry := true } : State).tmbRuns = true) ∧ ((run0.modInp fun p => { p with pad := true, expiry := true } : State).inp.pad = !(false : Bool)) ∧ ((run0.modInp fun p => { p with pad := true, expiry := true } : State).inp.deputy = true ∨ (run0.modInp fun p => { p with pad := true, expiry := true } : State).inp.expiry = true) ∧ (max 1 (fld (run0.modInp fun p => { p with pad := true, expiry := true } : State).inp.limpCfg 0 8) ≤ (10 : Nat))) ∧
    (((run0 : State).inp.pad = (true : Bool) ∨ (9 : Nat) < max 1 (fld (run0 : State).inp.limpCfg 0 8))) := by
  refine ⟨?_, ?_, ?_, ?_, ?_, ?_, ?_, ?_, ?_, ?_⟩ <;> decide +kernel

/-- What meets the hypotheses of LimpStoreKeepsTheMap: one conjunct for each clause, in the order of its clauses. -/
theorem witness_LimpStoreKeepsTheMap :
    (((run0 : State).coreRuns = true) ∧ ((run0 : State).isUp 0 = true) ∧ ((run0 : State).inp.active = false) ∧ ((run0 : State).inp.busy = false)) ∧
    (((run0.modInp fun p => { p with pad := true } : State).coreRuns = true) ∧ ((run0.modInp fun p => { p with pad := true } : State).isUp 0 = true) ∧ ((run0.modInp fun p => { p with pad := true } : State).inp.active = true ∨ (run0.modInp fun p => { p with pad := true } : State).inp.busy = true)) ∧
    (((run0 : State).coreRuns = true) ∧ ((run0 : State).isUp 0 = true) ∧ ((run0 : State).inp.active = false) ∧ ((run0 : State).inp.busy = false)) ∧
    (((run0 : State).coreRuns = true) ∧ ((run0 : State).isUp 0 = true) ∧ ((5 : W16) ≠ 0xA5C3 ∨ (run0 : State).inp.active = true ∨ (run0 : State).inp.busy = true)) ∧
    (((run0 : State).coreRuns = true) ∧ ((run0 : State).isUp 0 = true) ∧ ((run0 : State).inp.active = false) ∧ ((run0 : State).inp.busy = false) ∧ (newerCopy (run0 : State).limpStore = some (0 : Fin 2))) ∧
    (((run0 : State).coreRuns = true) ∧ ((run0 : State).isUp 0 = true) ∧ ((5 : W16) ≠ 0xA5C3 ∨ (run0 : State).inp.active = true ∨ (run0 : State).inp.busy = true)) ∧
    ((({ run0 with limpStore := Vector.replicate 2 { seq := 0, map := Vector.replicate 67 0, crc := 0 } } : State).coreRuns = true) ∧ (({ run0 with limpStore := Vector.replicate 2 { seq := 0, map := Vector.replicate 67 0, crc := 0 } } : State).isUp 0 = true) ∧ (({ run0 with limpStore := Vector.replicate 2 { seq := 0, map := Vector.replicate 67 0, crc := 0 } } : State).inp.active = false) ∧ (({ run0 with limpStore := Vector.replicate 2 { seq := 0, map := Vector.replicate 67 0, crc := 0 } } : State).inp.busy = false) ∧ (newerCopy ({ run0 with limpStore := Vector.replicate 2 { seq := 0, map := Vector.replicate 67 0, crc := 0 } } : State).limpStore = none)) ∧
    (((run0 : State).inp.busy = false ∨ (run0 : State).isUp 0 = false)) ∧
    ((((run0.modInp fun p => { p with busy := true, lmap := p.lmap.set 3 7 }) : State).inp.busy = true) ∧ (((run0.modInp fun p => { p with busy := true, lmap := p.lmap.set 3 7 }) : State).isUp 0 = true)) := by
  refine ⟨?_, ?_, ?_, ?_, ?_, ?_, ?_, ?_, ?_⟩ <;> decide +kernel

/-- What meets the hypotheses of ArithmeticWordsAddAndSubtract: one conjunct for each clause, in the order of its clauses. -/
theorem witness_ArithmeticWordsAddAndSubtract_1 :
    ((fetches (run0.modCore 0 fun k => { k with g := #v[0, 5, 0xFFFF, 0x8000, 7, 9, 0x1234, 3, 0, 0, 0, 0, 0, 0, 0, 0, 0, 0, 0, 0, 0, 0, 0, 0, 0, 0, 0, 0, 0, 0, 0, 4], sw := 0x0014 } : State) (0 : Fin 4) = true) ∧ ((run0.modCore 0 fun k => { k with g := #v[0, 5, 0xFFFF, 0x8000, 7, 9, 0x1234, 3, 0, 0, 0, 0, 0, 0, 0, 0, 0, 0, 0, 0, 0, 0, 0, 0, 0, 0, 0, 0, 0, 0, 0, 4], sw := 0x0014 } : State).core[(0 : Fin 4)].cond (14 : BitVec 4) = true)) ∧
    ((fetches (run0.modCore 0 fun k => { k with g := #v[0, 5, 0xFFFF, 0x8000, 7, 9, 0x1234, 3, 0, 0, 0, 0, 0, 0, 0, 0, 0, 0, 0, 0, 0, 0, 0, 0, 0, 0, 0, 0, 0, 0, 0, 4], sw := 0x0014 } : State) (0 : Fin 4) = true) ∧ ((run0.modCore 0 fun k => { k with g := #v[0, 5, 0xFFFF, 0x8000, 7, 9, 0x1234, 3, 0, 0, 0, 0, 0, 0, 0, 0, 0, 0, 0, 0, 0, 0, 0, 0, 0, 0, 0, 0, 0, 0, 0, 4], sw := 0x0014 } : State).core[(0 : Fin 4)].cond (14 : BitVec 4) = true)) ∧
    ((fetches (run0.modCore 0 fun k => { k with g := #v[0, 5, 0xFFFF, 0x8000, 7, 9, 0x1234, 3, 0, 0, 0, 0, 0, 0, 0, 0, 0, 0, 0, 0, 0, 0, 0, 0, 0, 0, 0, 0, 0, 0, 0, 4], sw := 0x0014 } : State) (0 : Fin 4) = true) ∧ ((run0.modCore 0 fun k => { k with g := #v[0, 5, 0xFFFF, 0x8000, 7, 9, 0x1234, 3, 0, 0, 0, 0, 0, 0, 0, 0, 0, 0, 0, 0, 0, 0, 0, 0, 0, 0, 0, 0, 0, 0, 0, 4], sw := 0x0014 } : State).core[(0 : Fin 4)].cond (14 : BitVec 4) = true)) ∧
    ((fetches (run0.modCore 0 fun k => { k with g := #v[0, 5, 0xFFFF, 0x8000, 7, 9, 0x1234, 3, 0, 0, 0, 0, 0, 0, 0, 0, 0, 0, 0, 0, 0, 0, 0, 0, 0, 0, 0, 0, 0, 0, 0, 4], sw := 0x0014 } : State) (0 : Fin 4) = true) ∧ ((run0.modCore 0 fun k => { k with g := #v[0, 5, 0xFFFF, 0x8000, 7, 9, 0x1234, 3, 0, 0, 0, 0, 0, 0, 0, 0, 0, 0, 0, 0, 0, 0, 0, 0, 0, 0, 0, 0, 0, 0, 0, 4], sw := 0x0014 } : State).core[(0 : Fin 4)].cond (14 : BitVec 4) = true)) ∧
    ((fetches (run0.modCore 0 fun k => { k with g := #v[0, 5, 0xFFFF, 0x8000, 7, 9, 0x1234, 3, 0, 0, 0, 0, 0, 0, 0, 0, 0, 0, 0, 0, 0, 0, 0, 0, 0, 0, 0, 0, 0, 0, 0, 4], sw := 0x0014 } : State) (0 : Fin 4) = true) ∧ ((run0.modCore 0 fun k => { k with g := #v[0, 5, 0xFFFF, 0x8000, 7, 9, 0x1234, 3, 0, 0, 0, 0, 0, 0, 0, 0, 0, 0, 0, 0, 0, 0, 0, 0, 0, 0, 0, 0, 0, 0, 0, 4], sw := 0x0014 } : State).core[(0 : Fin 4)].cond (14 : BitVec 4) = true)) ∧
    ((fetches (run0.modCore 0 fun k => { k with g := #v[0, 5, 0xFFFF, 0x8000, 7, 9, 0x1234, 3, 0, 0, 0, 0, 0, 0, 0, 0, 0, 0, 0, 0, 0, 0, 0, 0, 0, 0, 0, 0, 0, 0, 0, 4], sw := 0x0014 } : State) (0 : Fin 4) = true) ∧ ((run0.modCore 0 fun k => { k with g := #v[0, 5, 0xFFFF, 0x8000, 7, 9, 0x1234, 3, 0, 0, 0, 0, 0, 0, 0, 0, 0, 0, 0, 0, 0, 0, 0, 0, 0, 0, 0, 0, 0, 0, 0, 4], sw := 0x0014 } : State).core[(0 : Fin 4)].cond (14 : BitVec 4) = true)) ∧
    ((fetches (run0.modCore 0 fun k => { k with g := #v[0, 5, 0xFFFF, 0x8000, 7, 9, 0x1234, 3, 0, 0, 0, 0, 0, 0, 0, 0, 0, 0, 0, 0, 0, 0, 0, 0, 0, 0, 0, 0, 0, 0, 0, 4], sw := 0x0014 } : State) (0 : Fin 4) = true) ∧ ((run0.modCore 0 fun k => { k with g := #v[0, 5, 0xFFFF, 0x8000, 7, 9, 0x1234, 3, 0, 0, 0, 0, 0, 0, 0, 0, 0, 0, 0, 0, 0, 0, 0, 0, 0, 0, 0, 0, 0, 0, 0, 4], sw := 0x0014 } : State).core[(0 : Fin 4)].cond (14 : BitVec 4) = true)) ∧
    ((fetches (run0.modCore 0 fun k => { k with g := #v[0, 5, 0xFFFF, 0x8000, 7, 9, 0x1234, 3, 0, 0, 0, 0, 0, 0, 0, 0, 0, 0, 0, 0, 0, 0, 0, 0, 0, 0, 0, 0, 0, 0, 0, 4], sw := 0x0014 } : State) (0 : Fin 4) = true) ∧ ((run0.modCore 0 fun k => { k with g := #v[0, 5, 0xFFFF, 0x8000, 7, 9, 0x1234, 3, 0, 0, 0, 0, 0, 0, 0, 0, 0, 0, 0, 0, 0, 0, 0, 0, 0, 0, 0, 0, 0, 0, 0, 4], sw := 0x0014 } : State).core[(0 : Fin 4)].cond (14 : BitVec 4) = true) ∧ (odd (10 : BitVec 5) = false) ∧ (odd (2 : BitVec 5) = false) ∧ (odd (4 : BitVec 5) = false)) ∧
    ((fetches (run0.modCore 0 fun k => { k with g := #v[0, 5, 0xFFFF, 0x8000, 7, 9, 0x1234, 3, 0, 0, 0, 0, 0, 0, 0, 0, 0, 0, 0, 0, 0, 0, 0, 0, 0, 0, 0, 0, 0, 0, 0, 4], sw := 0x0014 } : State) (0 : Fin 4) = true) ∧ ((run0.modCore 0 fun k => { k with g := #v[0, 5, 0xFFFF, 0x8000, 7, 9, 0x1234, 3, 0, 0, 0, 0, 0, 0, 0, 0, 0, 0, 0, 0, 0, 0, 0, 0, 0, 0, 0, 0, 0, 0, 0, 4], sw := 0x0014 } : State).core[(0 : Fin 4)].cond (14 : BitVec 4) = true) ∧ (odd (10 : BitVec 5) = false) ∧ (odd (2 : BitVec 5) = false) ∧ (odd (4 : BitVec 5) = false)) := by
  refine ⟨?_, ?_, ?_, ?_, ?_, ?_, ?_, ?_, ?_⟩ <;> decide +kernel

theorem witness_ArithmeticWordsAddAndSubtract_2 :
    (fetches (run0.modCore 0 fun k => { k with g := #v[0, 5, 0xFFFF, 0x8000, 7, 9, 0x1234, 3, 0, 0, 0, 0, 0, 0, 0, 0, 0, 0, 0, 0, 0, 0, 0, 0, 0, 0, 0, 0, 0, 0, 0, 4], sw := 0x0014 } : State) (0 : Fin 4) = true) ∧ ((run0.modCore 0 fun k => { k with g := #v[0, 5, 0xFFFF, 0x8000, 7, 9, 0x1234, 3, 0, 0, 0, 0, 0, 0, 0, 0, 0, 0, 0, 0, 0, 0, 0, 0, 0, 0, 0, 0, 0, 0, 0, 4], sw := 0x0014 } : State).core[(0 : Fin 4)].cond (14 : BitVec 4) = true) ∧ (odd (2 : BitVec 5) = false) ∧ (odd (4 : BitVec 5) = false) := by decide +kernel

/-- What meets the hypotheses of LogicAndShiftWordsKeepOrSetCarry: one conjunct for each clause, in the order of its clauses. -/
theorem witness_LogicAndShiftWordsKeepOrSetCarry_1 :
    ((fetches (run0.modCore 0 fun k => { k with g := #v[0, 5, 0xFFFF, 0x8000, 7, 9, 0x1234, 3, 0, 0, 0, 0, 0, 0, 0, 0, 0, 0, 0, 0, 0, 0, 0, 0, 0, 0, 0, 0, 0, 0, 0, 4], sw := 0x0014 } : State) (0 : Fin 4) = true) ∧ ((run0.modCore 0 fun k => { k with g := #v[0, 5, 0xFFFF, 0x8000, 7, 9, 0x1234, 3, 0, 0, 0, 0, 0, 0, 0, 0, 0, 0, 0, 0, 0, 0, 0, 0, 0, 0, 0, 0, 0, 0, 0, 4], sw := 0x0014 } : State).core[(0 : Fin 4)].cond (14 : BitVec 4) = true)) ∧
    ((fetches (run0.modCore 0 fun k => { k with g := #v[0, 5, 0xFFFF, 0x8000, 7, 9, 0x1234, 3, 0, 0, 0, 0, 0, 0, 0, 0, 0, 0, 0, 0, 0, 0, 0, 0, 0, 0, 0, 0, 0, 0, 0, 4], sw := 0x0014 } : State) (0 : Fin 4) = true) ∧ ((run0.modCore 0 fun k => { k with g := #v[0, 5, 0xFFFF, 0x8000, 7, 9, 0x1234, 3, 0, 0, 0, 0, 0, 0, 0, 0, 0, 0, 0, 0, 0, 0, 0, 0, 0, 0, 0, 0, 0, 0, 0, 4], sw := 0x0014 } : State).core[(0 : Fin 4)].cond (14 : BitVec 4) = true)) ∧
    ((fetches (run0.modCore 0 fun k => { k with g := #v[0, 5, 0xFFFF, 0x8000, 7, 9, 0x1234, 3, 0, 0, 0, 0, 0, 0, 0, 0, 0, 0, 0, 0, 0, 0, 0, 0, 0, 0, 0, 0, 0, 0, 0, 4], sw := 0x0014 } : State) (0 : Fin 4) = true) ∧ ((run0.modCore 0 fun k => { k with g := #v[0, 5, 0xFFFF, 0x8000, 7, 9, 0x1234, 3, 0, 0, 0, 0, 0, 0, 0, 0, 0, 0, 0, 0, 0, 0, 0, 0, 0, 0, 0, 0, 0, 0, 0, 4], sw := 0x0014 } : State).core[(0 : Fin 4)].cond (14 : BitVec 4) = true)) ∧
    ((fetches (run0.modCore 0 fun k => { k with g := #v[0, 5, 0xFFFF, 0x8000, 7, 9, 0x1234, 3, 0, 0, 0, 0, 0, 0, 0, 0, 0, 0, 0, 0, 0, 0, 0, 0, 0, 0, 0, 0, 0, 0, 0, 4], sw := 0x0014 } : State) (0 : Fin 4) = true) ∧ ((run0.modCore 0 fun k => { k with g := #v[0, 5, 0xFFFF, 0x8000, 7, 9, 0x1234, 3, 0, 0, 0, 0, 0, 0, 0, 0, 0, 0, 0, 0, 0, 0, 0, 0, 0, 0, 0, 0, 0, 0, 0, 4], sw := 0x0014 } : State).core[(0 : Fin 4)].cond (14 : BitVec 4) = true)) ∧
    ((fetches (run0.modCore 0 fun k => { k with g := #v[0, 5, 0xFFFF, 0x8000, 7, 9, 0x1234, 3, 0, 0, 0, 0, 0, 0, 0, 0, 0, 0, 0, 0, 0, 0, 0, 0, 0, 0, 0, 0, 0, 0, 0, 4], sw := 0x0014 } : State) (0 : Fin 4) = true) ∧ ((run0.modCore 0 fun k => { k with g := #v[0, 5, 0xFFFF, 0x8000, 7, 9, 0x1234, 3, 0, 0, 0, 0, 0, 0, 0, 0, 0, 0, 0, 0, 0, 0, 0, 0, 0, 0, 0, 0, 0, 0, 0, 4], sw := 0x0014 } : State).core[(0 : Fin 4)].cond (14 : BitVec 4) = true)) ∧
    ((fetches (run0.modCore 0 fun k => { k with g := #v[0, 5, 0xFFFF, 0x8000, 7, 9, 0x1234, 3, 0, 0, 0, 0, 0, 0, 0, 0, 0, 0, 0, 0, 0, 0, 0, 0, 0, 0, 0, 0, 0, 0, 0, 4], sw := 0x0014 } : State) (0 : Fin 4) = true) ∧ ((run0.modCore 0 fun k => { k with g := #v[0, 5, 0xFFFF, 0x8000, 7, 9, 0x1234, 3, 0, 0, 0, 0, 0, 0, 0, 0, 0, 0, 0, 0, 0, 0, 0, 0, 0, 0, 0, 0, 0, 0, 0, 4], sw := 0x0014 } : State).core[(0 : Fin 4)].cond (14 : BitVec 4) = true)) ∧
    ((fetches (run0.modCore 0 fun k => { k with g := #v[0, 5, 0xFFFF, 0x8000, 7, 9, 0x1234, 3, 0, 0, 0, 0, 0, 0, 0, 0, 0, 0, 0, 0, 0, 0, 0, 0, 0, 0, 0, 0, 0, 0, 0, 4], sw := 0x0014 } : State) (0 : Fin 4) = true) ∧ ((run0.modCore 0 fun k => { k with g := #v[0, 5, 0xFFFF, 0x8000, 7, 9, 0x1234, 3, 0, 0, 0, 0, 0, 0, 0, 0, 0, 0, 0, 0, 0, 0, 0, 0, 0, 0, 0, 0, 0, 0, 0, 4], sw := 0x0014 } : State).core[(0 : Fin 4)].cond (14 : BitVec 4) = true)) ∧
    ((fetches (run0.modCore 0 fun k => { k with g := #v[0, 5, 0xFFFF, 0x8000, 7, 9, 0x1234, 3, 0, 0, 0, 0, 0, 0, 0, 0, 0, 0, 0, 0, 0, 0, 0, 0, 0, 0, 0, 0, 0, 0, 0, 4], sw := 0x0014 } : State) (0 : Fin 4) = true) ∧ ((run0.modCore 0 fun k => { k with g := #v[0, 5, 0xFFFF, 0x8000, 7, 9, 0x1234, 3, 0, 0, 0, 0, 0, 0, 0, 0, 0, 0, 0, 0, 0, 0, 0, 0, 0, 0, 0, 0, 0, 0, 0, 4], sw := 0x0014 } : State).core[(0 : Fin 4)].cond (14 : BitVec 4) = true)) ∧
    ((fetches (run0.modCore 0 fun k => { k with g := #v[0, 5, 0xFFFF, 0x8000, 7, 9, 0x1234, 3, 0, 0, 0, 0, 0, 0, 0, 0, 0, 0, 0, 0, 0, 0, 0, 0, 0, 0, 0, 0, 0, 0, 0, 4], sw := 0x0014 } : State) (0 : Fin 4) = true) ∧ ((run0.modCore 0 fun k => { k with g := #v[0, 5, 0xFFFF, 0x8000, 7, 9, 0x1234, 3, 0, 0, 0, 0, 0, 0, 0, 0, 0, 0, 0, 0, 0, 0, 0, 0, 0, 0, 0, 0, 0, 0, 0, 4], sw := 0x0014 } : State).core[(0 : Fin 4)].cond (14 : BitVec 4) = true)) ∧
    ((fetches (run0.modCore 0 fun k => { k with g := #v[0, 5, 0xFFFF, 0x8000, 7, 9, 0x1234, 3, 0, 0, 0, 0, 0, 0, 0, 0, 0, 0, 0, 0, 0, 0, 0, 0, 0, 0, 0, 0, 0, 0, 0, 4], sw := 0x0014 } : State) (0 : Fin 4) = true) ∧ ((run0.modCore 0 fun k => { k with g := #v[0, 5, 0xFFFF, 0x8000, 7, 9, 0x1234, 3, 0, 0, 0, 0, 0, 0, 0, 0, 0, 0, 0, 0, 0, 0, 0, 0, 0, 0, 0, 0, 0, 0, 0, 4], sw := 0x0014 } : State).core[(0 : Fin 4)].cond (14 : BitVec 4) = true)) := by
  refine ⟨?_, ?_, ?_, ?_, ?_, ?_, ?_, ?_, ?_, ?_⟩ <;> decide +kernel

/-- What meets the hypotheses of LogicAndShiftWordsKeepOrSetCarry: one conjunct for each clause, in the order of its clauses. -/
theorem witness_LogicAndShiftWordsKeepOrSetCarry_2 :
    ((fetches (run0.modCore 0 fun k => { k with g := #v[0, 5, 0xFFFF, 0x8000, 7, 9, 0x1234, 3, 0, 0, 0, 0, 0, 0, 0, 0, 0, 0, 0, 0, 0, 0, 0, 0, 0, 0, 0, 0, 0, 0, 0, 4], sw := 0x0014 } : State) (0 : Fin 4) = true) ∧ ((run0.modCore 0 fun k => { k with g := #v[0, 5, 0xFFFF, 0x8000, 7, 9, 0x1234, 3, 0, 0, 0, 0, 0, 0, 0, 0, 0, 0, 0, 0, 0, 0, 0, 0, 0, 0, 0, 0, 0, 0, 0, 4], sw := 0x0014 } : State).core[(0 : Fin 4)].cond (14 : BitVec 4) = true)) ∧
    ((fetches (run0.modCore 0 fun k => { k with g := #v[0, 5, 0xFFFF, 0x8000, 7, 9, 0x1234, 3, 0, 0, 0, 0, 0, 0, 0, 0, 0, 0, 0, 0, 0, 0, 0, 0, 0, 0, 0, 0, 0, 0, 0, 4], sw := 0x0014 } : State) (0 : Fin 4) = true) ∧ ((run0.modCore 0 fun k => { k with g := #v[0, 5, 0xFFFF, 0x8000, 7, 9, 0x1234, 3, 0, 0, 0, 0, 0, 0, 0, 0, 0, 0, 0, 0, 0, 0, 0, 0, 0, 0, 0, 0, 0, 0, 0, 4], sw := 0x0014 } : State).core[(0 : Fin 4)].cond (14 : BitVec 4) = true)) := by
  refine ⟨?_, ?_⟩ <;> decide +kernel

/-- What meets the hypotheses of MultiplyDivideConstantAndPairWords: one conjunct for each clause, in the order of its clauses. -/
theorem witness_MultiplyDivideConstantAndPairWords_1 :
    ((fetches (run0.modCore 0 fun k => { k with g := #v[0, 5, 0xFFFF, 0x8000, 7, 9, 0x1234, 3, 0, 0, 0, 0, 0, 0, 0, 0, 0, 0, 0, 0, 0, 0, 0, 0, 0, 0, 0, 0, 0, 0, 0, 4], sw := 0x0014 } : State) (0 : Fin 4) = true) ∧ ((run0.modCore 0 fun k => { k with g := #v[0, 5, 0xFFFF, 0x8000, 7, 9, 0x1234, 3, 0, 0, 0, 0, 0, 0, 0, 0, 0, 0, 0, 0, 0, 0, 0, 0, 0, 0, 0, 0, 0, 0, 0, 4], sw := 0x0014 } : State).core[(0 : Fin 4)].cond (14 : BitVec 4) = true) ∧ (odd (10 : BitVec 5) = false)) ∧
    ((fetches (run0.modCore 0 fun k => { k with g := #v[0, 5, 0xFFFF, 0x8000, 7, 9, 0x1234, 3, 0, 0, 0, 0, 0, 0, 0, 0, 0, 0, 0, 0, 0, 0, 0, 0, 0, 0, 0, 0, 0, 0, 0, 4], sw := 0x0014 } : State) (0 : Fin 4) = true) ∧ ((run0.modCore 0 fun k => { k with g := #v[0, 5, 0xFFFF, 0x8000, 7, 9, 0x1234, 3, 0, 0, 0, 0, 0, 0, 0, 0, 0, 0, 0, 0, 0, 0, 0, 0, 0, 0, 0, 0, 0, 0, 0, 4], sw := 0x0014 } : State).core[(0 : Fin 4)].cond (14 : BitVec 4) = true) ∧ (odd (10 : BitVec 5) = false)) ∧
    ((fetches (run0.modCore 0 fun k => { k with g := #v[0, 5, 0xFFFF, 0x8000, 7, 9, 0x1234, 3, 0, 0, 0, 0, 0, 0, 0, 0, 0, 0, 0, 0, 0, 0, 0, 0, 0, 0, 0, 0, 0, 0, 0, 4], sw := 0x0014 } : State) (0 : Fin 4) = true) ∧ ((run0.modCore 0 fun k => { k with g := #v[0, 5, 0xFFFF, 0x8000, 7, 9, 0x1234, 3, 0, 0, 0, 0, 0, 0, 0, 0, 0, 0, 0, 0, 0, 0, 0, 0, 0, 0, 0, 0, 0, 0, 0, 4], sw := 0x0014 } : State).core[(0 : Fin 4)].cond (14 : BitVec 4) = true) ∧ (odd (10 : BitVec 5) = false) ∧ ((run0.modCore 0 fun k => { k with g := #v[0, 5, 0xFFFF, 0x8000, 7, 9, 0x1234, 3, 0, 0, 0, 0, 0, 0, 0, 0, 0, 0, 0, 0, 0, 0, 0, 0, 0, 0, 0, 0, 0, 0, 0, 4], sw := 0x0014 } : State).core[(0 : Fin 4)].reg (4 : BitVec 5) ≠ 0)) ∧
    ((fetches (run0.modCore 0 fun k => { k with g := #v[0, 5, 0xFFFF, 0x8000, 7, 9, 0x1234, 3, 0, 0, 0, 0, 0, 0, 0, 0, 0, 0, 0, 0, 0, 0, 0, 0, 0, 0, 0, 0, 0, 0, 0, 4], sw := 0x0014 } : State) (0 : Fin 4) = true) ∧ ((run0.modCore 0 fun k => { k with g := #v[0, 5, 0xFFFF, 0x8000, 7, 9, 0x1234, 3, 0, 0, 0, 0, 0, 0, 0, 0, 0, 0, 0, 0, 0, 0, 0, 0, 0, 0, 0, 0, 0, 0, 0, 4], sw := 0x0014 } : State).core[(0 : Fin 4)].cond (14 : BitVec 4) = true) ∧ (odd (10 : BitVec 5) = false) ∧ ((run0.modCore 0 fun k => { k with g := #v[0, 5, 0xFFFF, 0x8000, 7, 9, 0x1234, 3, 0, 0, 0, 0, 0, 0, 0, 0, 0, 0, 0, 0, 0, 0, 0, 0, 0, 0, 0, 0, 0, 0, 0, 4], sw := 0x0014 } : State).core[(0 : Fin 4)].reg (4 : BitVec 5) ≠ 0)) ∧
    ((fetches (run0.modCore 0 fun k => { k with g := #v[0, 5, 0xFFFF, 0x8000, 7, 9, 0x1234, 3, 0, 0, 0, 0, 0, 0, 0, 0, 0, 0, 0, 0, 0, 0, 0, 0, 0, 0, 0, 0, 0, 0, 0, 4], sw := 0x0014 } : State) (0 : Fin 4) = true) ∧ ((run0.modCore 0 fun k => { k with g := #v[0, 5, 0xFFFF, 0x8000, 7, 9, 0x1234, 3, 0, 0, 0, 0, 0, 0, 0, 0, 0, 0, 0, 0, 0, 0, 0, 0, 0, 0, 0, 0, 0, 0, 0, 4], sw := 0x0014 } : State).core[(0 : Fin 4)].cond (14 : BitVec 4) = true) ∧ (odd (10 : BitVec 5) = false) ∧ ((run0.modCore 0 fun k => { k with g := #v[0, 5, 0xFFFF, 0x8000, 7, 9, 0x1234, 3, 0, 0, 0, 0, 0, 0, 0, 0, 0, 0, 0, 0, 0, 0, 0, 0, 0, 0, 0, 0, 0, 0, 0, 4], sw := 0x0014 } : State).core[(0 : Fin 4)].reg (8 : BitVec 5) = 0) ∧ ((run0.modCore 0 fun k => { k with g := #v[0, 5, 0xFFFF, 0x8000, 7, 9, 0x1234, 3, 0, 0, 0, 0, 0, 0, 0, 0, 0, 0, 0, 0, 0, 0, 0, 0, 0, 0, 0, 0, 0, 0, 0, 4], sw := 0x0014 } : State).core[(0 : Fin 4)].ts = false)) ∧
    ((fetches (run0.modCore 0 fun k => { k with g := #v[0, 5, 0xFFFF, 0x8000, 7, 9, 0x1234, 3, 0, 0, 0, 0, 0, 0, 0, 0, 0, 0, 0, 0, 0, 0, 0, 0, 0, 0, 0, 0, 0, 0, 0, 4], sw := 0x0014 } : State) (0 : Fin 4) = true) ∧ ((run0.modCore 0 fun k => { k with g := #v[0, 5, 0xFFFF, 0x8000, 7, 9, 0x1234, 3, 0, 0, 0, 0, 0, 0, 0, 0, 0, 0, 0, 0, 0, 0, 0, 0, 0, 0, 0, 0, 0, 0, 0, 4], sw := 0x0014 } : State).core[(0 : Fin 4)].cond (14 : BitVec 4) = true) ∧ (odd (10 : BitVec 5) = false) ∧ ((run0.modCore 0 fun k => { k with g := #v[0, 5, 0xFFFF, 0x8000, 7, 9, 0x1234, 3, 0, 0, 0, 0, 0, 0, 0, 0, 0, 0, 0, 0, 0, 0, 0, 0, 0, 0, 0, 0, 0, 0, 0, 4], sw := 0x0014 } : State).core[(0 : Fin 4)].reg (8 : BitVec 5) = 0) ∧ ((run0.modCore 0 fun k => { k with g := #v[0, 5, 0xFFFF, 0x8000, 7, 9, 0x1234, 3, 0, 0, 0, 0, 0, 0, 0, 0, 0, 0, 0, 0, 0, 0, 0, 0, 0, 0, 0, 0, 0, 0, 0, 4], sw := 0x0014 } : State).core[(0 : Fin 4)].ts = false)) := by
  refine ⟨?_, ?_, ?_, ?_, ?_, ?_⟩ <;> decide +kernel

/-- What meets the hypotheses of MultiplyDivideConstantAndPairWords: one conjunct for each clause, in the order of its clauses. -/
theorem witness_MultiplyDivideConstantAndPairWords_2 :
    ((fetches (run0.modCore 0 fun k => { k with g := #v[0, 5, 0xFFFF, 0x8000, 7, 9, 0x1234, 3, 0, 0, 0, 0, 0, 0, 0, 0, 0, 0, 0, 0, 0, 0, 0, 0, 0, 0, 0, 0, 0, 0, 0, 4], sw := 0x0014 } : State) (0 : Fin 4) = true) ∧ ((run0.modCore 0 fun k => { k with g := #v[0, 5, 0xFFFF, 0x8000, 7, 9, 0x1234, 3, 0, 0, 0, 0, 0, 0, 0, 0, 0, 0, 0, 0, 0, 0, 0, 0, 0, 0, 0, 0, 0, 0, 0, 4], sw := 0x0014 } : State).core[(0 : Fin 4)].cond (14 : BitVec 4) = true)) ∧
    ((fetches (run0.modCore 0 fun k => { k with g := #v[0, 5, 0xFFFF, 0x8000, 7, 9, 0x1234, 3, 0, 0, 0, 0, 0, 0, 0, 0, 0, 0, 0, 0, 0, 0, 0, 0, 0, 0, 0, 0, 0, 0, 0, 4], sw := 0x0014 } : State) (0 : Fin 4) = true) ∧ ((run0.modCore 0 fun k => { k with g := #v[0, 5, 0xFFFF, 0x8000, 7, 9, 0x1234, 3, 0, 0, 0, 0, 0, 0, 0, 0, 0, 0, 0, 0, 0, 0, 0, 0, 0, 0, 0, 0, 0, 0, 0, 4], sw := 0x0014 } : State).core[(0 : Fin 4)].cond (14 : BitVec 4) = true)) ∧
    ((fetches (run0.modCore 0 fun k => { k with g := #v[0, 5, 0xFFFF, 0x8000, 7, 9, 0x1234, 3, 0, 0, 0, 0, 0, 0, 0, 0, 0, 0, 0, 0, 0, 0, 0, 0, 0, 0, 0, 0, 0, 0, 0, 4], sw := 0x0014 } : State) (0 : Fin 4) = true) ∧ ((run0.modCore 0 fun k => { k with g := #v[0, 5, 0xFFFF, 0x8000, 7, 9, 0x1234, 3, 0, 0, 0, 0, 0, 0, 0, 0, 0, 0, 0, 0, 0, 0, 0, 0, 0, 0, 0, 0, 0, 0, 0, 4], sw := 0x0014 } : State).core[(0 : Fin 4)].cond (14 : BitVec 4) = true) ∧ ((opPair (14 : BitVec 4) (0x0212 : BitVec 13) (0x0456 : BitVec 13)).bad = none)) ∧
    ((fetches (run0.modCore 0 fun k => { k with g := #v[0, 5, 0xFFFF, 0x8000, 7, 9, 0x1234, 3, 0, 0, 0, 0, 0, 0, 0, 0, 0, 0, 0, 0, 0, 0, 0, 0, 0, 0, 0, 0, 0, 0, 0, 4], sw := 0x0014 } : State) (0 : Fin 4) = true) ∧ ((run0.modCore 0 fun k => { k with g := #v[0, 5, 0xFFFF, 0x8000, 7, 9, 0x1234, 3, 0, 0, 0, 0, 0, 0, 0, 0, 0, 0, 0, 0, 0, 0, 0, 0, 0, 0, 0, 0, 0, 0, 0, 4], sw := 0x0014 } : State).core[(0 : Fin 4)].cond (14 : BitVec 4) = true) ∧ ((opPair (14 : BitVec 4) (0x0212 : BitVec 13) (0x0456 : BitVec 13)).bad = none) ∧ (sOp (0x0212 : BitVec 13) = 2) ∧ (sOp (0x0456 : BitVec 13) = 4) ∧ (sRd (0x0212 : BitVec 13) ≠ 0) ∧ (sRd (0x0456 : BitVec 13) ≠ 0)) := by
  refine ⟨?_, ?_, ?_, ?_⟩ <;> decide +kernel

/-- What meets the hypotheses of LoadsReadMemoryAndRegisters: one conjunct for each clause, in the order of its clauses. -/
theorem witness_LoadsReadMemoryAndRegisters_1 :
    ((fetches ({ (run0.modCore 0 fun k => { k with g := #v[0, 5, 0xFFFF, 0x8000, 7, 9, 0x1234, 3, 0, 0, 0, 0, 0, 0, 0, 0, 0, 0, 0, 0, 0, 0, 0, 0, 0, 0, 0, 0, 0, 0, 0x4000, 4], sw := 0x0014 }) with mem := [(0x1000004, 0x81), (0x1000005, 0xF2), (0x1000006, 0x33), (0x1000007, 0x44)] } : State) (0 : Fin 4) = true) ∧ (({ (run0.modCore 0 fun k => { k with g := #v[0, 5, 0xFFFF, 0x8000, 7, 9, 0x1234, 3, 0, 0, 0, 0, 0, 0, 0, 0, 0, 0, 0, 0, 0, 0, 0, 0, 0, 0, 0, 0, 0, 0, 0x4000, 4], sw := 0x0014 }) with mem := [(0x1000004, 0x81), (0x1000005, 0xF2), (0x1000006, 0x33), (0x1000007, 0x44)] } : State).core[(0 : Fin 4)].cond (14 : BitVec 4) = true) ∧ (({ (run0.modCore 0 fun k => { k with g := #v[0, 5, 0xFFFF, 0x8000, 7, 9, 0x1234, 3, 0, 0, 0, 0, 0, 0, 0, 0, 0, 0, 0, 0, 0, 0, 0, 0, 0, 0, 0, 0, 0, 0, 0x4000, 4], sw := 0x0014 }) with mem := [(0x1000004, 0x81), (0x1000005, 0xF2), (0x1000006, 0x33), (0x1000007, 0x44)] } : State).core[(0 : Fin 4)].place (1 : BitVec 3).toFin (({ (run0.modCore 0 fun k => { k with g := #v[0, 5, 0xFFFF, 0x8000, 7, 9, 0x1234, 3, 0, 0, 0, 0, 0, 0, 0, 0, 0, 0, 0, 0, 0, 0, 0, 0, 0, 0, 0, 0, 0, 0, 0x4000, 4], sw := 0x0014 }) with mem := [(0x1000004, 0x81), (0x1000005, 0xF2), (0x1000006, 0x33), (0x1000007, 0x44)] } : State).core[(0 : Fin 4)].reg (31 : BitVec 5) + (0 : BitVec 8).signExtend 16) 1 .load = .inr (0x1000004 : Nat)) ∧ (isReg (0x1000004 : Nat) = false) ∧ (isBulk (0x1000004 : Nat) = false ∨ ({ (run0.modCore 0 fun k => { k with g := #v[0, 5, 0xFFFF, 0x8000, 7, 9, 0x1234, 3, 0, 0, 0, 0, 0, 0, 0, 0, 0, 0, 0, 0, 0, 0, 0, 0, 0, 0, 0, 0, 0, 0, 0x4000, 4], sw := 0x0014 }) with mem := [(0x1000004, 0x81), (0x1000005, 0xF2), (0x1000006, 0x33), (0x1000007, 0x44)] } : State).bulkOk = true) ∧ (eccOf ({ (run0.modCore 0 fun k => { k with g := #v[0, 5, 0xFFFF, 0x8000, 7, 9, 0x1234, 3, 0, 0, 0, 0, 0, 0, 0, 0, 0, 0, 0, 0, 0, 0, 0, 0, 0, 0, 0, 0, 0, 0, 0x4000, 4], sw := 0x0014 }) with mem := [(0x1000004, 0x81), (0x1000005, 0xF2), (0x1000006, 0x33), (0x1000007, 0x44)] } : State).ecc ((0x1000004 : Nat) - (0x1000004 : Nat) % 4) ≠ 2)) ∧
    ((fetches ({ (run0.modCore 0 fun k => { k with g := #v[0, 5, 0xFFFF, 0x8000, 7, 9, 0x1234, 3, 0, 0, 0, 0, 0, 0, 0, 0, 0, 0, 0, 0, 0, 0, 0, 0, 0, 0, 0, 0, 0, 0, 0x4000, 4], sw := 0x0014 }) with mem := [(0x1000004, 0x81), (0x1000005, 0xF2), (0x1000006, 0x33), (0x1000007, 0x44)] } : State) (0 : Fin 4) = true) ∧ (({ (run0.modCore 0 fun k => { k with g := #v[0, 5, 0xFFFF, 0x8000, 7, 9, 0x1234, 3, 0, 0, 0, 0, 0, 0, 0, 0, 0, 0, 0, 0, 0, 0, 0, 0, 0, 0, 0, 0, 0, 0, 0x4000, 4], sw := 0x0014 }) with mem := [(0x1000004, 0x81), (0x1000005, 0xF2), (0x1000006, 0x33), (0x1000007, 0x44)] } : State).core[(0 : Fin 4)].cond (14 : BitVec 4) = true) ∧ (({ (run0.modCore 0 fun k => { k with g := #v[0, 5, 0xFFFF, 0x8000, 7, 9, 0x1234, 3, 0, 0, 0, 0, 0, 0, 0, 0, 0, 0, 0, 0, 0, 0, 0, 0, 0, 0, 0, 0, 0, 0, 0x4000, 4], sw := 0x0014 }) with mem := [(0x1000004, 0x81), (0x1000005, 0xF2), (0x1000006, 0x33), (0x1000007, 0x44)] } : State).core[(0 : Fin 4)].place (1 : BitVec 3).toFin (({ (run0.modCore 0 fun k => { k with g := #v[0, 5, 0xFFFF, 0x8000, 7, 9, 0x1234, 3, 0, 0, 0, 0, 0, 0, 0, 0, 0, 0, 0, 0, 0, 0, 0, 0, 0, 0, 0, 0, 0, 0, 0x4000, 4], sw := 0x0014 }) with mem := [(0x1000004, 0x81), (0x1000005, 0xF2), (0x1000006, 0x33), (0x1000007, 0x44)] } : State).core[(0 : Fin 4)].reg (31 : BitVec 5) + (0 : BitVec 8).signExtend 16) 1 .load = .inr (0x1000004 : Nat)) ∧ (isReg (0x1000004 : Nat) = false) ∧ (isBulk (0x1000004 : Nat) = false ∨ ({ (run0.modCore 0 fun k => { k with g := #v[0, 5, 0xFFFF, 0x8000, 7, 9, 0x1234, 3, 0, 0, 0, 0, 0, 0, 0, 0, 0, 0, 0, 0, 0, 0, 0, 0, 0, 0, 0, 0, 0, 0, 0x4000, 4], sw := 0x0014 }) with mem := [(0x1000004, 0x81), (0x1000005, 0xF2), (0x1000006, 0x33), (0x1000007, 0x44)] } : State).bulkOk = true) ∧ (eccOf ({ (run0.modCore 0 fun k => { k with g := #v[0, 5, 0xFFFF, 0x8000, 7, 9, 0x1234, 3, 0, 0, 0, 0, 0, 0, 0, 0, 0, 0, 0, 0, 0, 0, 0, 0, 0, 0, 0, 0, 0, 0, 0x4000, 4], sw := 0x0014 }) with mem := [(0x1000004, 0x81), (0x1000005, 0xF2), (0x1000006, 0x33), (0x1000007, 0x44)] } : State).ecc ((0x1000004 : Nat) - (0x1000004 : Nat) % 4) ≠ 2)) := by
  refine ⟨?_, ?_⟩ <;> decide +kernel

/-- What meets the hypotheses of LoadsReadMemoryAndRegisters: one conjunct for each clause, in the order of its clauses. -/
theorem witness_LoadsReadMemoryAndRegisters_2 :
    ((fetches ({ (run0.modCore 0 fun k => { k with g := #v[0, 5, 0xFFFF, 0x8000, 7, 9, 0x1234, 3, 0, 0, 0, 0, 0, 0, 0, 0, 0, 0, 0, 0, 0, 0, 0, 0, 0, 0, 0, 0, 0, 0, 0x4000, 4], sw := 0x0014 }) with mem := [(0x1000004, 0x81), (0x1000005, 0xF2), (0x1000006, 0x33), (0x1000007, 0x44)] } : State) (0 : Fin 4) = true) ∧ (({ (run0.modCore 0 fun k => { k with g := #v[0, 5, 0xFFFF, 0x8000, 7, 9, 0x1234, 3, 0, 0, 0, 0, 0, 0, 0, 0, 0, 0, 0, 0, 0, 0, 0, 0, 0, 0, 0, 0, 0, 0, 0x4000, 4], sw := 0x0014 }) with mem := [(0x1000004, 0x81), (0x1000005, 0xF2), (0x1000006, 0x33), (0x1000007, 0x44)] } : State).core[(0 : Fin 4)].cond (14 : BitVec 4) = true) ∧ (({ (run0.modCore 0 fun k => { k with g := #v[0, 5, 0xFFFF, 0x8000, 7, 9, 0x1234, 3, 0, 0, 0, 0, 0, 0, 0, 0, 0, 0, 0, 0, 0, 0, 0, 0, 0, 0, 0, 0, 0, 0, 0x4000, 4], sw := 0x0014 }) with mem := [(0x1000004, 0x81), (0x1000005, 0xF2), (0x1000006, 0x33), (0x1000007, 0x44)] } : State).core[(0 : Fin 4)].place (1 : BitVec 3).toFin (({ (run0.modCore 0 fun k => { k with g := #v[0, 5, 0xFFFF, 0x8000, 7, 9, 0x1234, 3, 0, 0, 0, 0, 0, 0, 0, 0, 0, 0, 0, 0, 0, 0, 0, 0, 0, 0, 0, 0, 0, 0, 0x4000, 4], sw := 0x0014 }) with mem := [(0x1000004, 0x81), (0x1000005, 0xF2), (0x1000006, 0x33), (0x1000007, 0x44)] } : State).core[(0 : Fin 4)].reg (31 : BitVec 5) + (0 : BitVec 8).signExtend 16) 2 .load = .inr (0x1000004 : Nat)) ∧ (isReg (0x1000004 : Nat) = false) ∧ (isBulk (0x1000004 : Nat) = false ∨ ({ (run0.modCore 0 fun k => { k with g := #v[0, 5, 0xFFFF, 0x8000, 7, 9, 0x1234, 3, 0, 0, 0, 0, 0, 0, 0, 0, 0, 0, 0, 0, 0, 0, 0, 0, 0, 0, 0, 0, 0, 0, 0x4000, 4], sw := 0x0014 }) with mem := [(0x1000004, 0x81), (0x1000005, 0xF2), (0x1000006, 0x33), (0x1000007, 0x44)] } : State).bulkOk = true) ∧ (eccOf ({ (run0.modCore 0 fun k => { k with g := #v[0, 5, 0xFFFF, 0x8000, 7, 9, 0x1234, 3, 0, 0, 0, 0, 0, 0, 0, 0, 0, 0, 0, 0, 0, 0, 0, 0, 0, 0, 0, 0, 0, 0, 0x4000, 4], sw := 0x0014 }) with mem := [(0x1000004, 0x81), (0x1000005, 0xF2), (0x1000006, 0x33), (0x1000007, 0x44)] } : State).ecc ((0x1000004 : Nat) - (0x1000004 : Nat) % 4) ≠ 2)) ∧
    ((fetches ({ (run0.modCore 0 fun k => { k with g := #v[0, 5, 0xFFFF, 0x8000, 7, 9, 0x1234, 3, 0, 0, 0, 0, 0, 0, 0, 0, 0, 0, 0, 0, 0, 0, 0, 0, 0, 0, 0, 0, 0, 0, 0x4000, 4], sw := 0x0014 }) with mem := [(0x1000004, 0x81), (0x1000005, 0xF2), (0x1000006, 0x33), (0x1000007, 0x44)] } : State) (0 : Fin 4) = true) ∧ (({ (run0.modCore 0 fun k => { k with g := #v[0, 5, 0xFFFF, 0x8000, 7, 9, 0x1234, 3, 0, 0, 0, 0, 0, 0, 0, 0, 0, 0, 0, 0, 0, 0, 0, 0, 0, 0, 0, 0, 0, 0, 0x4000, 4], sw := 0x0014 }) with mem := [(0x1000004, 0x81), (0x1000005, 0xF2), (0x1000006, 0x33), (0x1000007, 0x44)] } : State).core[(0 : Fin 4)].cond (14 : BitVec 4) = true) ∧ (odd (10 : BitVec 5) = false) ∧ (({ (run0.modCore 0 fun k => { k with g := #v[0, 5, 0xFFFF, 0x8000, 7, 9, 0x1234, 3, 0, 0, 0, 0, 0, 0, 0, 0, 0, 0, 0, 0, 0, 0, 0, 0, 0, 0, 0, 0, 0, 0, 0x4000, 4], sw := 0x0014 }) with mem := [(0x1000004, 0x81), (0x1000005, 0xF2), (0x1000006, 0x33), (0x1000007, 0x44)] } : State).core[(0 : Fin 4)].place (1 : BitVec 3).toFin (({ (run0.modCore 0 fun k => { k with g := #v[0, 5, 0xFFFF, 0x8000, 7, 9, 0x1234, 3, 0, 0, 0, 0, 0, 0, 0, 0, 0, 0, 0, 0, 0, 0, 0, 0, 0, 0, 0, 0, 0, 0, 0x4000, 4], sw := 0x0014 }) with mem := [(0x1000004, 0x81), (0x1000005, 0xF2), (0x1000006, 0x33), (0x1000007, 0x44)] } : State).core[(0 : Fin 4)].reg (31 : BitVec 5) + (0 : BitVec 8).signExtend 16) 4 .load = .inr (0x1000004 : Nat)) ∧ (isReg (0x1000004 : Nat) = false) ∧ (isBulk (0x1000004 : Nat) = false ∨ ({ (run0.modCore 0 fun k => { k with g := #v[0, 5, 0xFFFF, 0x8000, 7, 9, 0x1234, 3, 0, 0, 0, 0, 0, 0, 0, 0, 0, 0, 0, 0, 0, 0, 0, 0, 0, 0, 0, 0, 0, 0, 0x4000, 4], sw := 0x0014 }) with mem := [(0x1000004, 0x81), (0x1000005, 0xF2), (0x1000006, 0x33), (0x1000007, 0x44)] } : State).bulkOk = true) ∧ (eccOf ({ (run0.modCore 0 fun k => { k with g := #v[0, 5, 0xFFFF, 0x8000, 7, 9, 0x1234, 3, 0, 0, 0, 0, 0, 0, 0, 0, 0, 0, 0, 0, 0, 0, 0, 0, 0, 0, 0, 0, 0, 0, 0x4000, 4], sw := 0x0014 }) with mem := [(0x1000004, 0x81), (0x1000005, 0xF2), (0x1000006, 0x33), (0x1000007, 0x44)] } : State).ecc ((0x1000004 : Nat) - (0x1000004 : Nat) % 4) ≠ 2)) := by
  refine ⟨?_, ?_⟩ <;> decide +kernel

/-- What meets the hypotheses of LoadsReadMemoryAndRegisters: one conjunct for each clause, in the order of its clauses. -/
theorem witness_LoadsReadMemoryAndRegisters_3 :
    ((fetches ({ (run0.modCore 0 fun k => { k with g := #v[0, 5, 0xFFFF, 0x8000, 7, 9, 0x1234, 3, 0, 0, 0, 0, 0, 0, 0, 0, 0, 0, 0, 0, 0, 0, 0, 0, 0, 0, 0, 0, 0, 0, 0x4000, 4], sw := 0x0014 }) with mem := [(0x1000004, 0x81), (0x1000005, 0xF2), (0x1000006, 0x33), (0x1000007, 0x44)] } : State) (0 : Fin 4) = true) ∧ (({ (run0.modCore 0 fun k => { k with g := #v[0, 5, 0xFFFF, 0x8000, 7, 9, 0x1234, 3, 0, 0, 0, 0, 0, 0, 0, 0, 0, 0, 0, 0, 0, 0, 0, 0, 0, 0, 0, 0, 0, 0, 0x4000, 4], sw := 0x0014 }) with mem := [(0x1000004, 0x81), (0x1000005, 0xF2), (0x1000006, 0x33), (0x1000007, 0x44)] } : State).core[(0 : Fin 4)].cond (14 : BitVec 4) = true) ∧ (({ (run0.modCore 0 fun k => { k with g := #v[0, 5, 0xFFFF, 0x8000, 7, 9, 0x1234, 3, 0, 0, 0, 0, 0, 0, 0, 0, 0, 0, 0, 0, 0, 0, 0, 0, 0, 0, 0, 0, 0, 0, 0x4000, 4], sw := 0x0014 }) with mem := [(0x1000004, 0x81), (0x1000005, 0xF2), (0x1000006, 0x33), (0x1000007, 0x44)] } : State).core[(0 : Fin 4)].place (1 : BitVec 3).toFin (({ (run0.modCore 0 fun k => { k with g := #v[0, 5, 0xFFFF, 0x8000, 7, 9, 0x1234, 3, 0, 0, 0, 0, 0, 0, 0, 0, 0, 0, 0, 0, 0, 0, 0, 0, 0, 0, 0, 0, 0, 0, 0x4000, 4], sw := 0x0014 }) with mem := [(0x1000004, 0x81), (0x1000005, 0xF2), (0x1000006, 0x33), (0x1000007, 0x44)] } : State).core[(0 : Fin 4)].reg (31 : BitVec 5)) 2 .load = .inr (0x1000004 : Nat)) ∧ (isReg (0x1000004 : Nat) = false) ∧ (isBulk (0x1000004 : Nat) = false ∨ ({ (run0.modCore 0 fun k => { k with g := #v[0, 5, 0xFFFF, 0x8000, 7, 9, 0x1234, 3, 0, 0, 0, 0, 0, 0, 0, 0, 0, 0, 0, 0, 0, 0, 0, 0, 0, 0, 0, 0, 0, 0, 0x4000, 4], sw := 0x0014 }) with mem := [(0x1000004, 0x81), (0x1000005, 0xF2), (0x1000006, 0x33), (0x1000007, 0x44)] } : State).bulkOk = true) ∧ (eccOf ({ (run0.modCore 0 fun k => { k with g := #v[0, 5, 0xFFFF, 0x8000, 7, 9, 0x1234, 3, 0, 0, 0, 0, 0, 0, 0, 0, 0, 0, 0, 0, 0, 0, 0, 0, 0, 0, 0, 0, 0, 0, 0x4000, 4], sw := 0x0014 }) with mem := [(0x1000004, 0x81), (0x1000005, 0xF2), (0x1000006, 0x33), (0x1000007, 0x44)] } : State).ecc ((0x1000004 : Nat) - (0x1000004 : Nat) % 4) ≠ 2)) ∧
    ((fetches ({ (run0.modCore 0 fun k => { k with g := #v[0, 5, 0xFFFF, 0x8000, 7, 9, 0x1234, 3, 0, 0, 0, 0, 0, 0, 0, 0, 0, 0, 0, 0, 0, 0, 0, 0, 0, 0, 0, 0, 0, 0, 0x4000, 4], sw := 0x0014 }) with mem := [(0x1000004, 0x81), (0x1000005, 0xF2), (0x1000006, 0x33), (0x1000007, 0x44)] } : State) (0 : Fin 4) = true) ∧ (({ (run0.modCore 0 fun k => { k with g := #v[0, 5, 0xFFFF, 0x8000, 7, 9, 0x1234, 3, 0, 0, 0, 0, 0, 0, 0, 0, 0, 0, 0, 0, 0, 0, 0, 0, 0, 0, 0, 0, 0, 0, 0x4000, 4], sw := 0x0014 }) with mem := [(0x1000004, 0x81), (0x1000005, 0xF2), (0x1000006, 0x33), (0x1000007, 0x44)] } : State).core[(0 : Fin 4)].cond (14 : BitVec 4) = true) ∧ (odd (10 : BitVec 5) = false) ∧ (({ (run0.modCore 0 fun k => { k with g := #v[0, 5, 0xFFFF, 0x8000, 7, 9, 0x1234, 3, 0, 0, 0, 0, 0, 0, 0, 0, 0, 0, 0, 0, 0, 0, 0, 0, 0, 0, 0, 0, 0, 0, 0x4000, 4], sw := 0x0014 }) with mem := [(0x1000004, 0x81), (0x1000005, 0xF2), (0x1000006, 0x33), (0x1000007, 0x44)] } : State).core[(0 : Fin 4)].place (1 : BitVec 3).toFin (({ (run0.modCore 0 fun k => { k with g := #v[0, 5, 0xFFFF, 0x8000, 7, 9, 0x1234, 3, 0, 0, 0, 0, 0, 0, 0, 0, 0, 0, 0, 0, 0, 0, 0, 0, 0, 0, 0, 0, 0, 0, 0x4000, 4], sw := 0x0014 }) with mem := [(0x1000004, 0x81), (0x1000005, 0xF2), (0x1000006, 0x33), (0x1000007, 0x44)] } : State).core[(0 : Fin 4)].reg (31 : BitVec 5)) 4 .load = .inr (0x1000004 : Nat)) ∧ (isReg (0x1000004 : Nat) = false) ∧ (isBulk (0x1000004 : Nat) = false ∨ ({ (run0.modCore 0 fun k => { k with g := #v[0, 5, 0xFFFF, 0x8000, 7, 9, 0x1234, 3, 0, 0, 0, 0, 0, 0, 0, 0, 0, 0, 0, 0, 0, 0, 0, 0, 0, 0, 0, 0, 0, 0, 0x4000, 4], sw := 0x0014 }) with mem := [(0x1000004, 0x81), (0x1000005, 0xF2), (0x1000006, 0x33), (0x1000007, 0x44)] } : State).bulkOk = true) ∧ (eccOf ({ (run0.modCore 0 fun k => { k with g := #v[0, 5, 0xFFFF, 0x8000, 7, 9, 0x1234, 3, 0, 0, 0, 0, 0, 0, 0, 0, 0, 0, 0, 0, 0, 0, 0, 0, 0, 0, 0, 0, 0, 0, 0x4000, 4], sw := 0x0014 }) with mem := [(0x1000004, 0x81), (0x1000005, 0xF2), (0x1000006, 0x33), (0x1000007, 0x44)] } : State).ecc ((0x1000004 : Nat) - (0x1000004 : Nat) % 4) ≠ 2)) := by
  refine ⟨?_, ?_⟩ <;> decide +kernel

/-- What meets the hypotheses of LoadsReadMemoryAndRegisters: one conjunct for each clause, in the order of its clauses. -/
theorem witness_LoadsReadMemoryAndRegisters_4 :
    ((fetches (run0.modCore 0 fun k => { k with g := #v[0, 5, 0xFFFF, 0x8000, 7, 9, 0x20, 3, 0, 0, 0, 0, 0, 0, 0, 0, 0, 0, 0, 0, 0, 0, 0, 0, 0, 0, 0, 0, 0, 0, 0, 4], seg := upd k.seg 3 fun x => { x with d := { base := 0x4020000, limit := 0xFFFF, attr := 0xB } } } : State) (0 : Fin 4) = true) ∧ ((run0.modCore 0 fun k => { k with g := #v[0, 5, 0xFFFF, 0x8000, 7, 9, 0x20, 3, 0, 0, 0, 0, 0, 0, 0, 0, 0, 0, 0, 0, 0, 0, 0, 0, 0, 0, 0, 0, 0, 0, 0, 4], seg := upd k.seg 3 fun x => { x with d := { base := 0x4020000, limit := 0xFFFF, attr := 0xB } } } : State).core[(0 : Fin 4)].cond (14 : BitVec 4) = true) ∧ (odd (10 : BitVec 5) = false) ∧ ((run0.modCore 0 fun k => { k with g := #v[0, 5, 0xFFFF, 0x8000, 7, 9, 0x20, 3, 0, 0, 0, 0, 0, 0, 0, 0, 0, 0, 0, 0, 0, 0, 0, 0, 0, 0, 0, 0, 0, 0, 0, 4], seg := upd k.seg 3 fun x => { x with d := { base := 0x4020000, limit := 0xFFFF, attr := 0xB } } } : State).core[(0 : Fin 4)].place (3 : BitVec 3).toFin ((run0.modCore 0 fun k => { k with g := #v[0, 5, 0xFFFF, 0x8000, 7, 9, 0x20, 3, 0, 0, 0, 0, 0, 0, 0, 0, 0, 0, 0, 0, 0, 0, 0, 0, 0, 0, 0, 0, 0, 0, 0, 4], seg := upd k.seg 3 fun x => { x with d := { base := 0x4020000, limit := 0xFFFF, attr := 0xB } } } : State).core[(0 : Fin 4)].reg (6 : BitVec 5) + (0 : BitVec 8).signExtend 16) 4 .load = .inr (0x4020020 : Nat)) ∧ (isReg (0x4020020 : Nat) = true) ∧ ((run0.modCore 0 fun k => { k with g := #v[0, 5, 0xFFFF, 0x8000, 7, 9, 0x20, 3, 0, 0, 0, 0, 0, 0, 0, 0, 0, 0, 0, 0, 0, 0, 0, 0, 0, 0, 0, 0, 0, 0, 0, 4], seg := upd k.seg 3 fun x => { x with d := { base := 0x4020000, limit := 0xFFFF, attr := 0xB } } } : State).isUp (regIsland (((0x4020020 : Nat) - regBase) / 65536) ((0x4020020 : Nat) % 65536)) = true)) ∧
    ((fetches ({ (run0.modCore 0 fun k => { k with g := #v[0, 5, 0xFFFF, 0x8000, 7, 9, 0x20, 3, 0, 0, 0, 0, 0, 0, 0, 0, 0, 0, 0, 0, 0, 0, 0, 0, 0, 0, 0, 0, 0, 0, 0, 4], seg := upd k.seg 3 fun x => { x with d := { base := 0x4020000, limit := 0xFFFF, attr := 0xB } } }) with up := upd run0.up 2 fun _ => false } : State) (0 : Fin 4) = true) ∧ (({ (run0.modCore 0 fun k => { k with g := #v[0, 5, 0xFFFF, 0x8000, 7, 9, 0x20, 3, 0, 0, 0, 0, 0, 0, 0, 0, 0, 0, 0, 0, 0, 0, 0, 0, 0, 0, 0, 0, 0, 0, 0, 4], seg := upd k.seg 3 fun x => { x with d := { base := 0x4020000, limit := 0xFFFF, attr := 0xB } } }) with up := upd run0.up 2 fun _ => false } : State).core[(0 : Fin 4)].cond (14 : BitVec 4) = true) ∧ (odd (10 : BitVec 5) = false) ∧ (({ (run0.modCore 0 fun k => { k with g := #v[0, 5, 0xFFFF, 0x8000, 7, 9, 0x20, 3, 0, 0, 0, 0, 0, 0, 0, 0, 0, 0, 0, 0, 0, 0, 0, 0, 0, 0, 0, 0, 0, 0, 0, 4], seg := upd k.seg 3 fun x => { x with d := { base := 0x4020000, limit := 0xFFFF, attr := 0xB } } }) with up := upd run0.up 2 fun _ => false } : State).core[(0 : Fin 4)].place (3 : BitVec 3).toFin (({ (run0.modCore 0 fun k => { k with g := #v[0, 5, 0xFFFF, 0x8000, 7, 9, 0x20, 3, 0, 0, 0, 0, 0, 0, 0, 0, 0, 0, 0, 0, 0, 0, 0, 0, 0, 0, 0, 0, 0, 0, 0, 4], seg := upd k.seg 3 fun x => { x with d := { base := 0x4020000, limit := 0xFFFF, attr := 0xB } } }) with up := upd run0.up 2 fun _ => false } : State).core[(0 : Fin 4)].reg (6 : BitVec 5) + (0 : BitVec 8).signExtend 16) 4 .load = .inr (0x4020020 : Nat)) ∧ (isReg (0x4020020 : Nat) = true) ∧ (({ (run0.modCore 0 fun k => { k with g := #v[0, 5, 0xFFFF, 0x8000, 7, 9, 0x20, 3, 0, 0, 0, 0, 0, 0, 0, 0, 0, 0, 0, 0, 0, 0, 0, 0, 0, 0, 0, 0, 0, 0, 0, 4], seg := upd k.seg 3 fun x => { x with d := { base := 0x4020000, limit := 0xFFFF, attr := 0xB } } }) with up := upd run0.up 2 fun _ => false } : State).isUp (regIsland (((0x4020020 : Nat) - regBase) / 65536) ((0x4020020 : Nat) % 65536)) = false) ∧ (({ (run0.modCore 0 fun k => { k with g := #v[0, 5, 0xFFFF, 0x8000, 7, 9, 0x20, 3, 0, 0, 0, 0, 0, 0, 0, 0, 0, 0, 0, 0, 0, 0, 0, 0, 0, 0, 0, 0, 0, 0, 0, 4], seg := upd k.seg 3 fun x => { x with d := { base := 0x4020000, limit := 0xFFFF, attr := 0xB } } }) with up := upd run0.up 2 fun _ => false } : State).core[(0 : Fin 4)].ts = false)) := by
  refine ⟨?_, ?_⟩ <;> decide +kernel

/-- What meets the hypotheses of LoadsReadMemoryAndRegisters: one conjunct for each clause, in the order of its clauses. -/
theorem witness_LoadsReadMemoryAndRegisters_5 :
    ((fetches ({ (run0.modCore 0 fun k => { k with g := #v[0, 5, 0xFFFF, 0x8000, 7, 9, 0x1234, 3, 0, 0, 0, 0, 0, 0, 0, 0, 0, 0, 0, 0, 0, 0, 0, 0, 0, 0, 0, 0, 0, 0, 0x4000, 4], sw := 0x0014 }) with mem := [(0x1000004, 0x81), (0x1000005, 0xF2), (0x1000006, 0x33), (0x1000007, 0x44)] } : State) (0 : Fin 4) = true) ∧ (({ (run0.modCore 0 fun k => { k with g := #v[0, 5, 0xFFFF, 0x8000, 7, 9, 0x1234, 3, 0, 0, 0, 0, 0, 0, 0, 0, 0, 0, 0, 0, 0, 0, 0, 0, 0, 0, 0, 0, 0, 0, 0x4000, 4], sw := 0x0014 }) with mem := [(0x1000004, 0x81), (0x1000005, 0xF2), (0x1000006, 0x33), (0x1000007, 0x44)] } : State).core[(0 : Fin 4)].cond (14 : BitVec 4) = true) ∧ (({ (run0.modCore 0 fun k => { k with g := #v[0, 5, 0xFFFF, 0x8000, 7, 9, 0x1234, 3, 0, 0, 0, 0, 0, 0, 0, 0, 0, 0, 0, 0, 0, 0, 0, 0, 0, 0, 0, 0, 0, 0, 0x4000, 4], sw := 0x0014 }) with mem := [(0x1000004, 0x81), (0x1000005, 0xF2), (0x1000006, 0x33), (0x1000007, 0x44)] } : State).core[(0 : Fin 4)].place (5 : BitVec 3).toFin (({ (run0.modCore 0 fun k => { k with g := #v[0, 5, 0xFFFF, 0x8000, 7, 9, 0x1234, 3, 0, 0, 0, 0, 0, 0, 0, 0, 0, 0, 0, 0, 0, 0, 0, 0, 0, 0, 0, 0, 0, 0, 0x4000, 4], sw := 0x0014 }) with mem := [(0x1000004, 0x81), (0x1000005, 0xF2), (0x1000006, 0x33), (0x1000007, 0x44)] } : State).core[(0 : Fin 4)].reg (31 : BitVec 5) + (1 : BitVec 8).signExtend 16) 1 .load = .inl (.seg 5 .load 5 : Trap)) ∧ (({ (run0.modCore 0 fun k => { k with g := #v[0, 5, 0xFFFF, 0x8000, 7, 9, 0x1234, 3, 0, 0, 0, 0, 0, 0, 0, 0, 0, 0, 0, 0, 0, 0, 0, 0, 0, 0, 0, 0, 0, 0, 0x4000, 4], sw := 0x0014 }) with mem := [(0x1000004, 0x81), (0x1000005, 0xF2), (0x1000006, 0x33), (0x1000007, 0x44)] } : State).core[(0 : Fin 4)].ts = false)) ∧
    ((fetches ({ (run0.modCore 0 fun k => { k with g := #v[0, 5, 0xFFFF, 0x8000, 7, 9, 0x1234, 3, 0, 0, 0, 0, 0, 0, 0, 0, 0, 0, 0, 0, 0, 0, 0, 0, 0, 0, 0, 0, 0, 0, 0x4000, 4], sw := 0x0014 }) with mem := [(0x1000004, 0x81), (0x1000005, 0xF2), (0x1000006, 0x33), (0x1000007, 0x44)] } : State) (0 : Fin 4) = true) ∧ (({ (run0.modCore 0 fun k => { k with g := #v[0, 5, 0xFFFF, 0x8000, 7, 9, 0x1234, 3, 0, 0, 0, 0, 0, 0, 0, 0, 0, 0, 0, 0, 0, 0, 0, 0, 0, 0, 0, 0, 0, 0, 0x4000, 4], sw := 0x0014 }) with mem := [(0x1000004, 0x81), (0x1000005, 0xF2), (0x1000006, 0x33), (0x1000007, 0x44)] } : State).core[(0 : Fin 4)].cond (14 : BitVec 4) = true) ∧ (({ (run0.modCore 0 fun k => { k with g := #v[0, 5, 0xFFFF, 0x8000, 7, 9, 0x1234, 3, 0, 0, 0, 0, 0, 0, 0, 0, 0, 0, 0, 0, 0, 0, 0, 0, 0, 0, 0, 0, 0, 0, 0x4000, 4], sw := 0x0014 }) with mem := [(0x1000004, 0x81), (0x1000005, 0xF2), (0x1000006, 0x33), (0x1000007, 0x44)] } : State).core[(0 : Fin 4)].place (1 : BitVec 3).toFin (({ (run0.modCore 0 fun k => { k with g := #v[0, 5, 0xFFFF, 0x8000, 7, 9, 0x1234, 3, 0, 0, 0, 0, 0, 0, 0, 0, 0, 0, 0, 0, 0, 0, 0, 0, 0, 0, 0, 0, 0, 0, 0x4000, 4], sw := 0x0014 }) with mem := [(0x1000004, 0x81), (0x1000005, 0xF2), (0x1000006, 0x33), (0x1000007, 0x44)] } : State).core[(0 : Fin 4)].reg (31 : BitVec 5) + (1 : BitVec 8).signExtend 16) 2 .load = .inl (.bus 1 .load 5 0x1000005 : Trap)) ∧ (({ (run0.modCore 0 fun k => { k with g := #v[0, 5, 0xFFFF, 0x8000, 7, 9, 0x1234, 3, 0, 0, 0, 0, 0, 0, 0, 0, 0, 0, 0, 0, 0, 0, 0, 0, 0, 0, 0, 0, 0, 0, 0x4000, 4], sw := 0x0014 }) with mem := [(0x1000004, 0x81), (0x1000005, 0xF2), (0x1000006, 0x33), (0x1000007, 0x44)] } : State).core[(0 : Fin 4)].ts = false)) := by
  refine ⟨?_, ?_⟩ <;> decide +kernel

theorem witness_StoresWriteTheirBytesAlone_1 :
    (fetches ({ (run0.modCore 0 fun k => { k with g := #v[0, 5, 0xFFFF, 0x8000, 7, 9, 0x1234, 3, 0, 0, 0, 0, 0, 0, 0, 0, 0, 0, 0, 0, 0, 0, 0, 0, 0, 0, 0, 0, 0, 0, 0x4000, 4], sw := 0x0014 }) with mem := [(0x1000004, 0x81), (0x1000005, 0xF2), (0x1000006, 0x33), (0x1000007, 0x44)] } : State) (0 : Fin 4) = true) ∧ (({ (run0.modCore 0 fun k => { k with g := #v[0, 5, 0xFFFF, 0x8000, 7, 9, 0x1234, 3, 0, 0, 0, 0, 0, 0, 0, 0, 0, 0, 0, 0, 0, 0, 0, 0, 0, 0, 0, 0, 0, 0, 0x4000, 4], sw := 0x0014 }) with mem := [(0x1000004, 0x81), (0x1000005, 0xF2), (0x1000006, 0x33), (0x1000007, 0x44)] } : State).core[(0 : Fin 4)].cond (14 : BitVec 4) = true) ∧ (({ (run0.modCore 0 fun k => { k with g := #v[0, 5, 0xFFFF, 0x8000, 7, 9, 0x1234, 3, 0, 0, 0, 0, 0, 0, 0, 0, 0, 0, 0, 0, 0, 0, 0, 0, 0, 0, 0, 0, 0, 0, 0x4000, 4], sw := 0x0014 }) with mem := [(0x1000004, 0x81), (0x1000005, 0xF2), (0x1000006, 0x33), (0x1000007, 0x44)] } : State).canonical) ∧ (({ (run0.modCore 0 fun k => { k with g := #v[0, 5, 0xFFFF, 0x8000, 7, 9, 0x1234, 3, 0, 0, 0, 0, 0, 0, 0, 0, 0, 0, 0, 0, 0, 0, 0, 0, 0, 0, 0, 0, 0, 0, 0x4000, 4], sw := 0x0014 }) with mem := [(0x1000004, 0x81), (0x1000005, 0xF2), (0x1000006, 0x33), (0x1000007, 0x44)] } : State).core[(0 : Fin 4)].place (1 : BitVec 3).toFin (({ (run0.modCore 0 fun k => { k with g := #v[0, 5, 0xFFFF, 0x8000, 7, 9, 0x1234, 3, 0, 0, 0, 0, 0, 0, 0, 0, 0, 0, 0, 0, 0, 0, 0, 0, 0, 0, 0, 0, 0, 0, 0x4000, 4], sw := 0x0014 }) with mem := [(0x1000004, 0x81), (0x1000005, 0xF2), (0x1000006, 0x33), (0x1000007, 0x44)] } : State).core[(0 : Fin 4)].reg (31 : BitVec 5) + (0 : BitVec 8).signExtend 16) 1 .store = .inr (0x1000004 : Nat)) ∧ (isReg (0x1000004 : Nat) = false) ∧ (isBulk (0x1000004 : Nat) = false ∨ ({ (run0.modCore 0 fun k => { k with g := #v[0, 5, 0xFFFF, 0x8000, 7, 9, 0x1234, 3, 0, 0, 0, 0, 0, 0, 0, 0, 0, 0, 0, 0, 0, 0, 0, 0, 0, 0, 0, 0, 0, 0, 0x4000, 4], sw := 0x0014 }) with mem := [(0x1000004, 0x81), (0x1000005, 0xF2), (0x1000006, 0x33), (0x1000007, 0x44)] } : State).bulkOk = true) ∧ (eccOf ({ (run0.modCore 0 fun k => { k with g := #v[0, 5, 0xFFFF, 0x8000, 7, 9, 0x1234, 3, 0, 0, 0, 0, 0, 0, 0, 0, 0, 0, 0, 0, 0, 0, 0, 0, 0, 0, 0, 0, 0, 0, 0x4000, 4], sw := 0x0014 }) with mem := [(0x1000004, 0x81), (0x1000005, 0xF2), (0x1000006, 0x33), (0x1000007, 0x44)] } : State).ecc ((0x1000004 : Nat) - (0x1000004 : Nat) % 4) ≠ 2) := by decide +kernel

/-- What meets the hypotheses of StoresWriteTheirBytesAlone: one conjunct for each clause, in the order of its clauses. -/
theorem witness_StoresWriteTheirBytesAlone_2 :
    ((fetches ({ (run0.modCore 0 fun k => { k with g := #v[0, 5, 0xFFFF, 0x8000, 7, 9, 0x1234, 3, 0, 0, 0, 0, 0, 0, 0, 0, 0, 0, 0, 0, 0, 0, 0, 0, 0, 0, 0, 0, 0, 0, 0x4000, 4], sw := 0x0014 }) with mem := [(0x1000004, 0x81), (0x1000005, 0xF2), (0x1000006, 0x33), (0x1000007, 0x44)] } : State) (0 : Fin 4) = true) ∧ (({ (run0.modCore 0 fun k => { k with g := #v[0, 5, 0xFFFF, 0x8000, 7, 9, 0x1234, 3, 0, 0, 0, 0, 0, 0, 0, 0, 0, 0, 0, 0, 0, 0, 0, 0, 0, 0, 0, 0, 0, 0, 0x4000, 4], sw := 0x0014 }) with mem := [(0x1000004, 0x81), (0x1000005, 0xF2), (0x1000006, 0x33), (0x1000007, 0x44)] } : State).core[(0 : Fin 4)].cond (14 : BitVec 4) = true) ∧ (({ (run0.modCore 0 fun k => { k with g := #v[0, 5, 0xFFFF, 0x8000, 7, 9, 0x1234, 3, 0, 0, 0, 0, 0, 0, 0, 0, 0, 0, 0, 0, 0, 0, 0, 0, 0, 0, 0, 0, 0, 0, 0x4000, 4], sw := 0x0014 }) with mem := [(0x1000004, 0x81), (0x1000005, 0xF2), (0x1000006, 0x33), (0x1000007, 0x44)] } : State).canonical) ∧ (({ (run0.modCore 0 fun k => { k with g := #v[0, 5, 0xFFFF, 0x8000, 7, 9, 0x1234, 3, 0, 0, 0, 0, 0, 0, 0, 0, 0, 0, 0, 0, 0, 0, 0, 0, 0, 0, 0, 0, 0, 0, 0x4000, 4], sw := 0x0014 }) with mem := [(0x1000004, 0x81), (0x1000005, 0xF2), (0x1000006, 0x33), (0x1000007, 0x44)] } : State).core[(0 : Fin 4)].place (1 : BitVec 3).toFin (({ (run0.modCore 0 fun k => { k with g := #v[0, 5, 0xFFFF, 0x8000, 7, 9, 0x1234, 3, 0, 0, 0, 0, 0, 0, 0, 0, 0, 0, 0, 0, 0, 0, 0, 0, 0, 0, 0, 0, 0, 0, 0x4000, 4], sw := 0x0014 }) with mem := [(0x1000004, 0x81), (0x1000005, 0xF2), (0x1000006, 0x33), (0x1000007, 0x44)] } : State).core[(0 : Fin 4)].reg (31 : BitVec 5) + (0 : BitVec 8).signExtend 16) 2 .store = .inr (0x1000004 : Nat)) ∧ (isReg (0x1000004 : Nat) = false) ∧ (isBulk (0x1000004 : Nat) = false ∨ ({ (run0.modCore 0 fun k => { k with g := #v[0, 5, 0xFFFF, 0x8000, 7, 9, 0x1234, 3, 0, 0, 0, 0, 0, 0, 0, 0, 0, 0, 0, 0, 0, 0, 0, 0, 0, 0, 0, 0, 0, 0, 0x4000, 4], sw := 0x0014 }) with mem := [(0x1000004, 0x81), (0x1000005, 0xF2), (0x1000006, 0x33), (0x1000007, 0x44)] } : State).bulkOk = true) ∧ (eccOf ({ (run0.modCore 0 fun k => { k with g := #v[0, 5, 0xFFFF, 0x8000, 7, 9, 0x1234, 3, 0, 0, 0, 0, 0, 0, 0, 0, 0, 0, 0, 0, 0, 0, 0, 0, 0, 0, 0, 0, 0, 0, 0x4000, 4], sw := 0x0014 }) with mem := [(0x1000004, 0x81), (0x1000005, 0xF2), (0x1000006, 0x33), (0x1000007, 0x44)] } : State).ecc ((0x1000004 : Nat) - (0x1000004 : Nat) % 4) ≠ 2)) ∧
    ((fetches ({ (run0.modCore 0 fun k => { k with g := #v[0, 5, 0xFFFF, 0x8000, 7, 9, 0x1234, 3, 0, 0, 0, 0, 0, 0, 0, 0, 0, 0, 0, 0, 0, 0, 0, 0, 0, 0, 0, 0, 0, 0, 0x4000, 4], sw := 0x0014 }) with mem := [(0x1000004, 0x81), (0x1000005, 0xF2), (0x1000006, 0x33), (0x1000007, 0x44)] } : State) (0 : Fin 4) = true) ∧ (({ (run0.modCore 0 fun k => { k with g := #v[0, 5, 0xFFFF, 0x8000, 7, 9, 0x1234, 3, 0, 0, 0, 0, 0, 0, 0, 0, 0, 0, 0, 0, 0, 0, 0, 0, 0, 0, 0, 0, 0, 0, 0x4000, 4], sw := 0x0014 }) with mem := [(0x1000004, 0x81), (0x1000005, 0xF2), (0x1000006, 0x33), (0x1000007, 0x44)] } : State).core[(0 : Fin 4)].cond (14 : BitVec 4) = true) ∧ (({ (run0.modCore 0 fun k => { k with g := #v[0, 5, 0xFFFF, 0x8000, 7, 9, 0x1234, 3, 0, 0, 0, 0, 0, 0, 0, 0, 0, 0, 0, 0, 0, 0, 0, 0, 0, 0, 0, 0, 0, 0, 0x4000, 4], sw := 0x0014 }) with mem := [(0x1000004, 0x81), (0x1000005, 0xF2), (0x1000006, 0x33), (0x1000007, 0x44)] } : State).canonical) ∧ (odd (2 : BitVec 5) = false) ∧ (({ (run0.modCore 0 fun k => { k with g := #v[0, 5, 0xFFFF, 0x8000, 7, 9, 0x1234, 3, 0, 0, 0, 0, 0, 0, 0, 0, 0, 0, 0, 0, 0, 0, 0, 0, 0, 0, 0, 0, 0, 0, 0x4000, 4], sw := 0x0014 }) with mem := [(0x1000004, 0x81), (0x1000005, 0xF2), (0x1000006, 0x33), (0x1000007, 0x44)] } : State).core[(0 : Fin 4)].place (1 : BitVec 3).toFin (({ (run0.modCore 0 fun k => { k with g := #v[0, 5, 0xFFFF, 0x8000, 7, 9, 0x1234, 3, 0, 0, 0, 0, 0, 0, 0, 0, 0, 0, 0, 0, 0, 0, 0, 0, 0, 0, 0, 0, 0, 0, 0x4000, 4], sw := 0x0014 }) with mem := [(0x1000004, 0x81), (0x1000005, 0xF2), (0x1000006, 0x33), (0x1000007, 0x44)] } : State).core[(0 : Fin 4)].reg (31 : BitVec 5) + (0 : BitVec 8).signExtend 16) 4 .store = .inr (0x1000004 : Nat)) ∧ (isReg (0x1000004 : Nat) = false) ∧ (isBulk (0x1000004 : Nat) = false ∨ ({ (run0.modCore 0 fun k => { k with g := #v[0, 5, 0xFFFF, 0x8000, 7, 9, 0x1234, 3, 0, 0, 0, 0, 0, 0, 0, 0, 0, 0, 0, 0, 0, 0, 0, 0, 0, 0, 0, 0, 0, 0, 0x4000, 4], sw := 0x0014 }) with mem := [(0x1000004, 0x81), (0x1000005, 0xF2), (0x1000006, 0x33), (0x1000007, 0x44)] } : State).bulkOk = true)) := by
  refine ⟨?_, ?_⟩ <;> decide +kernel

/-- What meets the hypotheses of StoresWriteTheirBytesAlone: one conjunct for each clause, in the order of its clauses. -/
theorem witness_StoresWriteTheirBytesAlone_3 :
    ((fetches ({ (run0.modCore 0 fun k => { k with g := #v[0, 5, 0xFFFF, 0x8000, 7, 9, 0x1234, 3, 0, 0, 0, 0, 0, 0, 0, 0, 0, 0, 0, 0, 0, 0, 0, 0, 0, 0, 0, 0, 0, 0, 0x4000, 4], sw := 0x0014 }) with mem := [(0x1000004, 0x81), (0x1000005, 0xF2), (0x1000006, 0x33), (0x1000007, 0x44)] } : State) (0 : Fin 4) = true) ∧ (({ (run0.modCore 0 fun k => { k with g := #v[0, 5, 0xFFFF, 0x8000, 7, 9, 0x1234, 3, 0, 0, 0, 0, 0, 0, 0, 0, 0, 0, 0, 0, 0, 0, 0, 0, 0, 0, 0, 0, 0, 0, 0x4000, 4], sw := 0x0014 }) with mem := [(0x1000004, 0x81), (0x1000005, 0xF2), (0x1000006, 0x33), (0x1000007, 0x44)] } : State).core[(0 : Fin 4)].cond (14 : BitVec 4) = true) ∧ (({ (run0.modCore 0 fun k => { k with g := #v[0, 5, 0xFFFF, 0x8000, 7, 9, 0x1234, 3, 0, 0, 0, 0, 0, 0, 0, 0, 0, 0, 0, 0, 0, 0, 0, 0, 0, 0, 0, 0, 0, 0, 0x4000, 4], sw := 0x0014 }) with mem := [(0x1000004, 0x81), (0x1000005, 0xF2), (0x1000006, 0x33), (0x1000007, 0x44)] } : State).canonical) ∧ (({ (run0.modCore 0 fun k => { k with g := #v[0, 5, 0xFFFF, 0x8000, 7, 9, 0x1234, 3, 0, 0, 0, 0, 0, 0, 0, 0, 0, 0, 0, 0, 0, 0, 0, 0, 0, 0, 0, 0, 0, 0, 0x4000, 4], sw := 0x0014 }) with mem := [(0x1000004, 0x81), (0x1000005, 0xF2), (0x1000006, 0x33), (0x1000007, 0x44)] } : State).core[(0 : Fin 4)].place (1 : BitVec 3).toFin (({ (run0.modCore 0 fun k => { k with g := #v[0, 5, 0xFFFF, 0x8000, 7, 9, 0x1234, 3, 0, 0, 0, 0, 0, 0, 0, 0, 0, 0, 0, 0, 0, 0, 0, 0, 0, 0, 0, 0, 0, 0, 0x4000, 4], sw := 0x0014 }) with mem := [(0x1000004, 0x81), (0x1000005, 0xF2), (0x1000006, 0x33), (0x1000007, 0x44)] } : State).core[(0 : Fin 4)].reg (31 : BitVec 5)) 2 .store = .inr (0x1000004 : Nat)) ∧ (isReg (0x1000004 : Nat) = false) ∧ (isBulk (0x1000004 : Nat) = false ∨ ({ (run0.modCore 0 fun k => { k with g := #v[0, 5, 0xFFFF, 0x8000, 7, 9, 0x1234, 3, 0, 0, 0, 0, 0, 0, 0, 0, 0, 0, 0, 0, 0, 0, 0, 0, 0, 0, 0, 0, 0, 0, 0x4000, 4], sw := 0x0014 }) with mem := [(0x1000004, 0x81), (0x1000005, 0xF2), (0x1000006, 0x33), (0x1000007, 0x44)] } : State).bulkOk = true) ∧ (eccOf ({ (run0.modCore 0 fun k => { k with g := #v[0, 5, 0xFFFF, 0x8000, 7, 9, 0x1234, 3, 0, 0, 0, 0, 0, 0, 0, 0, 0, 0, 0, 0, 0, 0, 0, 0, 0, 0, 0, 0, 0, 0, 0x4000, 4], sw := 0x0014 }) with mem := [(0x1000004, 0x81), (0x1000005, 0xF2), (0x1000006, 0x33), (0x1000007, 0x44)] } : State).ecc ((0x1000004 : Nat) - (0x1000004 : Nat) % 4) ≠ 2)) ∧
    ((fetches ({ (run0.modCore 0 fun k => { k with g := #v[0, 5, 0xFFFF, 0x8000, 7, 9, 0x1234, 3, 0, 0, 0, 0, 0, 0, 0, 0, 0, 0, 0, 0, 0, 0, 0, 0, 0, 0, 0, 0, 0, 0, 0x4000, 4], sw := 0x0014 }) with mem := [(0x1000004, 0x81), (0x1000005, 0xF2), (0x1000006, 0x33), (0x1000007, 0x44)] } : State) (0 : Fin 4) = true) ∧ (({ (run0.modCore 0 fun k => { k with g := #v[0, 5, 0xFFFF, 0x8000, 7, 9, 0x1234, 3, 0, 0, 0, 0, 0, 0, 0, 0, 0, 0, 0, 0, 0, 0, 0, 0, 0, 0, 0, 0, 0, 0, 0x4000, 4], sw := 0x0014 }) with mem := [(0x1000004, 0x81), (0x1000005, 0xF2), (0x1000006, 0x33), (0x1000007, 0x44)] } : State).core[(0 : Fin 4)].cond (14 : BitVec 4) = true) ∧ (({ (run0.modCore 0 fun k => { k with g := #v[0, 5, 0xFFFF, 0x8000, 7, 9, 0x1234, 3, 0, 0, 0, 0, 0, 0, 0, 0, 0, 0, 0, 0, 0, 0, 0, 0, 0, 0, 0, 0, 0, 0, 0x4000, 4], sw := 0x0014 }) with mem := [(0x1000004, 0x81), (0x1000005, 0xF2), (0x1000006, 0x33), (0x1000007, 0x44)] } : State).canonical) ∧ (odd (2 : BitVec 5) = false) ∧ (({ (run0.modCore 0 fun k => { k with g := #v[0, 5, 0xFFFF, 0x8000, 7, 9, 0x1234, 3, 0, 0, 0, 0, 0, 0, 0, 0, 0, 0, 0, 0, 0, 0, 0, 0, 0, 0, 0, 0, 0, 0, 0x4000, 4], sw := 0x0014 }) with mem := [(0x1000004, 0x81), (0x1000005, 0xF2), (0x1000006, 0x33), (0x1000007, 0x44)] } : State).core[(0 : Fin 4)].place (1 : BitVec 3).toFin (({ (run0.modCore 0 fun k => { k with g := #v[0, 5, 0xFFFF, 0x8000, 7, 9, 0x1234, 3, 0, 0, 0, 0, 0, 0, 0, 0, 0, 0, 0, 0, 0, 0, 0, 0, 0, 0, 0, 0, 0, 0, 0x4000, 4], sw := 0x0014 }) with mem := [(0x1000004, 0x81), (0x1000005, 0xF2), (0x1000006, 0x33), (0x1000007, 0x44)] } : State).core[(0 : Fin 4)].reg (31 : BitVec 5)) 4 .store = .inr (0x1000004 : Nat)) ∧ (isReg (0x1000004 : Nat) = false) ∧ (isBulk (0x1000004 : Nat) = false ∨ ({ (run0.modCore 0 fun k => { k with g := #v[0, 5, 0xFFFF, 0x8000, 7, 9, 0x1234, 3, 0, 0, 0, 0, 0, 0, 0, 0, 0, 0, 0, 0, 0, 0, 0, 0, 0, 0, 0, 0, 0, 0, 0x4000, 4], sw := 0x0014 }) with mem := [(0x1000004, 0x81), (0x1000005, 0xF2), (0x1000006, 0x33), (0x1000007, 0x44)] } : State).bulkOk = true)) := by
  refine ⟨?_, ?_⟩ <;> decide +kernel

/-- What meets the hypotheses of StoresWriteTheirBytesAlone: one conjunct for each clause, in the order of its clauses. -/
theorem witness_StoresWriteTheirBytesAlone_4 :
    ((fetches (run0.modCore 0 fun k => { k with g := #v[0, 5, 0xFFFF, 0x8000, 7, 9, 0x20, 3, 0, 0, 0, 0, 0, 0, 0, 0, 0, 0, 0, 0, 0, 0, 0, 0, 0, 0, 0, 0, 0, 0, 0, 4], seg := upd k.seg 3 fun x => { x with d := { base := 0x4020000, limit := 0xFFFF, attr := 0xB } } } : State) (0 : Fin 4) = true) ∧ ((run0.modCore 0 fun k => { k with g := #v[0, 5, 0xFFFF, 0x8000, 7, 9, 0x20, 3, 0, 0, 0, 0, 0, 0, 0, 0, 0, 0, 0, 0, 0, 0, 0, 0, 0, 0, 0, 0, 0, 0, 0, 4], seg := upd k.seg 3 fun x => { x with d := { base := 0x4020000, limit := 0xFFFF, attr := 0xB } } } : State).core[(0 : Fin 4)].cond (14 : BitVec 4) = true) ∧ (odd (2 : BitVec 5) = false) ∧ ((run0.modCore 0 fun k => { k with g := #v[0, 5, 0xFFFF, 0x8000, 7, 9, 0x20, 3, 0, 0, 0, 0, 0, 0, 0, 0, 0, 0, 0, 0, 0, 0, 0, 0, 0, 0, 0, 0, 0, 0, 0, 4], seg := upd k.seg 3 fun x => { x with d := { base := 0x4020000, limit := 0xFFFF, attr := 0xB } } } : State).core[(0 : Fin 4)].place (3 : BitVec 3).toFin ((run0.modCore 0 fun k => { k with g := #v[0, 5, 0xFFFF, 0x8000, 7, 9, 0x20, 3, 0, 0, 0, 0, 0, 0, 0, 0, 0, 0, 0, 0, 0, 0, 0, 0, 0, 0, 0, 0, 0, 0, 0, 4], seg := upd k.seg 3 fun x => { x with d := { base := 0x4020000, limit := 0xFFFF, attr := 0xB } } } : State).core[(0 : Fin 4)].reg (6 : BitVec 5) + (0 : BitVec 8).signExtend 16) 4 .store = .inr (0x4020020 : Nat)) ∧ (isReg (0x4020020 : Nat) = true) ∧ ((run0.modCore 0 fun k => { k with g := #v[0, 5, 0xFFFF, 0x8000, 7, 9, 0x20, 3, 0, 0, 0, 0, 0, 0, 0, 0, 0, 0, 0, 0, 0, 0, 0, 0, 0, 0, 0, 0, 0, 0, 0, 4], seg := upd k.seg 3 fun x => { x with d := { base := 0x4020000, limit := 0xFFFF, attr := 0xB } } } : State).isUp (regIsland (((0x4020020 : Nat) - regBase) / 65536) ((0x4020020 : Nat) % 65536)) = true) ∧ ((run0.modCore 0 fun k => { k with g := #v[0, 5, 0xFFFF, 0x8000, 7, 9, 0x20, 3, 0, 0, 0, 0, 0, 0, 0, 0, 0, 0, 0, 0, 0, 0, 0, 0, 0, 0, 0, 0, 0, 0, 0, 4], seg := upd k.seg 3 fun x => { x with d := { base := 0x4020000, limit := 0xFFFF, attr := 0xB } } } : State).core[(0 : Fin 4)].rptOn = false)) ∧
    ((fetches ({ (run0.modCore 0 fun k => { k with g := #v[0, 5, 0xFFFF, 0x8000, 7, 9, 0x1234, 3, 0, 0, 0, 0, 0, 0, 0, 0, 0, 0, 0, 0, 0, 0, 0, 0, 0, 0, 0, 0, 0, 0, 0x4000, 4], sw := 0x0014 }) with mem := [(0x1000004, 0x81), (0x1000005, 0xF2), (0x1000006, 0x33), (0x1000007, 0x44)] } : State) (0 : Fin 4) = true) ∧ (({ (run0.modCore 0 fun k => { k with g := #v[0, 5, 0xFFFF, 0x8000, 7, 9, 0x1234, 3, 0, 0, 0, 0, 0, 0, 0, 0, 0, 0, 0, 0, 0, 0, 0, 0, 0, 0, 0, 0, 0, 0, 0x4000, 4], sw := 0x0014 }) with mem := [(0x1000004, 0x81), (0x1000005, 0xF2), (0x1000006, 0x33), (0x1000007, 0x44)] } : State).core[(0 : Fin 4)].cond (14 : BitVec 4) = true) ∧ (({ (run0.modCore 0 fun k => { k with g := #v[0, 5, 0xFFFF, 0x8000, 7, 9, 0x1234, 3, 0, 0, 0, 0, 0, 0, 0, 0, 0, 0, 0, 0, 0, 0, 0, 0, 0, 0, 0, 0, 0, 0, 0x4000, 4], sw := 0x0014 }) with mem := [(0x1000004, 0x81), (0x1000005, 0xF2), (0x1000006, 0x33), (0x1000007, 0x44)] } : State).core[(0 : Fin 4)].place (5 : BitVec 3).toFin (({ (run0.modCore 0 fun k => { k with g := #v[0, 5, 0xFFFF, 0x8000, 7, 9, 0x1234, 3, 0, 0, 0, 0, 0, 0, 0, 0, 0, 0, 0, 0, 0, 0, 0, 0, 0, 0, 0, 0, 0, 0, 0x4000, 4], sw := 0x0014 }) with mem := [(0x1000004, 0x81), (0x1000005, 0xF2), (0x1000006, 0x33), (0x1000007, 0x44)] } : State).core[(0 : Fin 4)].reg (31 : BitVec 5) + (1 : BitVec 8).signExtend 16) 1 .store = .inl (.seg 5 .store 5 : Trap)) ∧ (({ (run0.modCore 0 fun k => { k with g := #v[0, 5, 0xFFFF, 0x8000, 7, 9, 0x1234, 3, 0, 0, 0, 0, 0, 0, 0, 0, 0, 0, 0, 0, 0, 0, 0, 0, 0, 0, 0, 0, 0, 0, 0x4000, 4], sw := 0x0014 }) with mem := [(0x1000004, 0x81), (0x1000005, 0xF2), (0x1000006, 0x33), (0x1000007, 0x44)] } : State).core[(0 : Fin 4)].ts = false)) := by
  refine ⟨?_, ?_⟩ <;> decide +kernel

theorem witness_StoresWriteTheirBytesAlone_5 :
    (fetches ({ (run0.modCore 0 fun k => { k with g := #v[0, 5, 0xFFFF, 0x8000, 7, 9, 0x1234, 3, 0, 0, 0, 0, 0, 0, 0, 0, 0, 0, 0, 0, 0, 0, 0, 0, 0, 0, 0, 0, 0, 0, 0x4000, 4], sw := 0x0014 }) with mem := [(0x1000004, 0x81), (0x1000005, 0xF2), (0x1000006, 0x33), (0x1000007, 0x44)] } : State) (0 : Fin 4) = true) ∧ (({ (run0.modCore 0 fun k => { k with g := #v[0, 5, 0xFFFF, 0x8000, 7, 9, 0x1234, 3, 0, 0, 0, 0, 0, 0, 0, 0, 0, 0, 0, 0, 0, 0, 0, 0, 0, 0, 0, 0, 0, 0, 0x4000, 4], sw := 0x0014 }) with mem := [(0x1000004, 0x81), (0x1000005, 0xF2), (0x1000006, 0x33), (0x1000007, 0x44)] } : State).core[(0 : Fin 4)].cond (14 : BitVec 4) = true) ∧ (({ (run0.modCore 0 fun k => { k with g := #v[0, 5, 0xFFFF, 0x8000, 7, 9, 0x1234, 3, 0, 0, 0, 0, 0, 0, 0, 0, 0, 0, 0, 0, 0, 0, 0, 0, 0, 0, 0, 0, 0, 0, 0x4000, 4], sw := 0x0014 }) with mem := [(0x1000004, 0x81), (0x1000005, 0xF2), (0x1000006, 0x33), (0x1000007, 0x44)] } : State).core[(0 : Fin 4)].place (1 : BitVec 3).toFin (({ (run0.modCore 0 fun k => { k with g := #v[0, 5, 0xFFFF, 0x8000, 7, 9, 0x1234, 3, 0, 0, 0, 0, 0, 0, 0, 0, 0, 0, 0, 0, 0, 0, 0, 0, 0, 0, 0, 0, 0, 0, 0x4000, 4], sw := 0x0014 }) with mem := [(0x1000004, 0x81), (0x1000005, 0xF2), (0x1000006, 0x33), (0x1000007, 0x44)] } : State).core[(0 : Fin 4)].reg (31 : BitVec 5) + (1 : BitVec 8).signExtend 16) 2 .store = .inl (.bus 1 .store 5 0x1000005 : Trap)) ∧ (({ (run0.modCore 0 fun k => { k with g := #v[0, 5, 0xFFFF, 0x8000, 7, 9, 0x1234, 3, 0, 0, 0, 0, 0, 0, 0, 0, 0, 0, 0, 0, 0, 0, 0, 0, 0, 0, 0, 0, 0, 0, 0x4000, 4], sw := 0x0014 }) with mem := [(0x1000004, 0x81), (0x1000005, 0xF2), (0x1000006, 0x33), (0x1000007, 0x44)] } : State).core[(0 : Fin 4)].ts = false) := by decide +kernel

/-- What meets the hypotheses of ControlFlowWordsSetPcAndTheStack: one conjunct for each clause, in the order of its clauses. -/
theorem witness_ControlFlowWordsSetPcAndTheStack_1 :
    ((fetches (run0.modCore 0 fun k => { k with pc := 0x100 } : State) (0 : Fin 4) = true) ∧ ((run0.modCore 0 fun k => { k with pc := 0x100 } : State).core[(0 : Fin 4)].cond (14 : BitVec 4) = true)) ∧
    ((fetches (run0.modCore 0 fun k => { k with rsTop := 15, rsDepth := 3 } : State) (0 : Fin 4) = true) ∧ ((run0.modCore 0 fun k => { k with rsTop := 15, rsDepth := 3 } : State).core[(0 : Fin 4)].cond (14 : BitVec 4) = true) ∧ ((run0.modCore 0 fun k => { k with rsTop := 15, rsDepth := 3 } : State).core[(0 : Fin 4)].depth < 16)) ∧
    ((fetches (run0.modCore 0 fun k => { k with rsMode := false, rsDepth := 16 } : State) (0 : Fin 4) = true) ∧ ((run0.modCore 0 fun k => { k with rsMode := false, rsDepth := 16 } : State).core[(0 : Fin 4)].cond (14 : BitVec 4) = true) ∧ ((run0.modCore 0 fun k => { k with rsMode := false, rsDepth := 16 } : State).core[(0 : Fin 4)].depth = 16) ∧ ((run0.modCore 0 fun k => { k with rsMode := false, rsDepth := 16 } : State).core[(0 : Fin 4)].rsMode = false)) ∧
    ((fetches (run0.modCore 0 fun k => { k with rsDepth := 16 } : State) (0 : Fin 4) = true) ∧ ((run0.modCore 0 fun k => { k with rsDepth := 16 } : State).core[(0 : Fin 4)].cond (14 : BitVec 4) = true) ∧ ((run0.modCore 0 fun k => { k with rsDepth := 16 } : State).core[(0 : Fin 4)].depth = 16) ∧ ((run0.modCore 0 fun k => { k with rsDepth := 16 } : State).core[(0 : Fin 4)].rsMode = true) ∧ ((run0.modCore 0 fun k => { k with rsDepth := 16 } : State).core[(0 : Fin 4)].ts = false)) ∧
    ((fetches (run0.modCore 0 fun k => { k with g := #v[0, 5, 0xFFFF, 0x8000, 7, 9, 0x1234, 3, 0, 0, 0, 0, 0, 0, 0, 0, 0, 0, 0, 0, 0, 0, 0, 0, 0, 0, 0, 0, 0, 0, 0, 4], sw := 0x0014 } : State) (0 : Fin 4) = true) ∧ ((run0.modCore 0 fun k => { k with g := #v[0, 5, 0xFFFF, 0x8000, 7, 9, 0x1234, 3, 0, 0, 0, 0, 0, 0, 0, 0, 0, 0, 0, 0, 0, 0, 0, 0, 0, 0, 0, 0, 0, 0, 0, 4], sw := 0x0014 } : State).core[(0 : Fin 4)].cond (14 : BitVec 4) = true) ∧ ((run0.modCore 0 fun k => { k with g := #v[0, 5, 0xFFFF, 0x8000, 7, 9, 0x1234, 3, 0, 0, 0, 0, 0, 0, 0, 0, 0, 0, 0, 0, 0, 0, 0, 0, 0, 0, 0, 0, 0, 0, 0, 4], sw := 0x0014 } : State).core[(0 : Fin 4)].reg (3 : BitVec 5) &&& 3#16 = 0)) ∧
    ((fetches (run0.modCore 0 fun k => { k with g := #v[0, 5, 0xFFFF, 0x8000, 7, 9, 0x1234, 3, 0, 0, 0, 0, 0, 0, 0, 0, 0, 0, 0, 0, 0, 0, 0, 0, 0, 0, 0, 0, 0, 0, 0, 4], sw := 0x0014 } : State) (0 : Fin 4) = true) ∧ ((run0.modCore 0 fun k => { k with g := #v[0, 5, 0xFFFF, 0x8000, 7, 9, 0x1234, 3, 0, 0, 0, 0, 0, 0, 0, 0, 0, 0, 0, 0, 0, 0, 0, 0, 0, 0, 0, 0, 0, 0, 0, 4], sw := 0x0014 } : State).core[(0 : Fin 4)].cond (14 : BitVec 4) = true) ∧ ((run0.modCore 0 fun k => { k with g := #v[0, 5, 0xFFFF, 0x8000, 7, 9, 0x1234, 3, 0, 0, 0, 0, 0, 0, 0, 0, 0, 0, 0, 0, 0, 0, 0, 0, 0, 0, 0, 0, 0, 0, 0, 4], sw := 0x0014 } : State).core[(0 : Fin 4)].reg (1 : BitVec 5) &&& 3#16 ≠ 0) ∧ ((run0.modCore 0 fun k => { k with g := #v[0, 5, 0xFFFF, 0x8000, 7, 9, 0x1234, 3, 0, 0, 0, 0, 0, 0, 0, 0, 0, 0, 0, 0, 0, 0, 0, 0, 0, 0, 0, 0, 0, 0, 0, 4], sw := 0x0014 } : State).core[(0 : Fin 4)].ts = false)) ∧
    ((fetches (run0.modCore 0 fun k => { k with g := #v[0, 5, 0xFFFF, 0x8000, 7, 9, 0x1234, 3, 0, 0, 0, 0, 0, 0, 0, 0, 0, 0, 0, 0, 0, 0, 0, 0, 0, 0, 0, 0, 0, 0, 0, 4], sw := 0x0014 } : State) (0 : Fin 4) = true) ∧ ((run0.modCore 0 fun k => { k with g := #v[0, 5, 0xFFFF, 0x8000, 7, 9, 0x1234, 3, 0, 0, 0, 0, 0, 0, 0, 0, 0, 0, 0, 0, 0, 0, 0, 0, 0, 0, 0, 0, 0, 0, 0, 4], sw := 0x0014 } : State).core[(0 : Fin 4)].cond (14 : BitVec 4) = true) ∧ ((run0.modCore 0 fun k => { k with g := #v[0, 5, 0xFFFF, 0x8000, 7, 9, 0x1234, 3, 0, 0, 0, 0, 0, 0, 0, 0, 0, 0, 0, 0, 0, 0, 0, 0, 0, 0, 0, 0, 0, 0, 0, 4], sw := 0x0014 } : State).core[(0 : Fin 4)].reg (3 : BitVec 5) &&& 3#16 = 0) ∧ ((run0.modCore 0 fun k => { k with g := #v[0, 5, 0xFFFF, 0x8000, 7, 9, 0x1234, 3, 0, 0, 0, 0, 0, 0, 0, 0, 0, 0, 0, 0, 0, 0, 0, 0, 0, 0, 0, 0, 0, 0, 0, 4], sw := 0x0014 } : State).core[(0 : Fin 4)].depth < 16)) ∧
    ((fetches (run0.modCore 0 fun k => { k with rsDepth := 3, rsTop := 0, rs := k.rs.set 0 0x200 } : State) (0 : Fin 4) = true) ∧ ((run0.modCore 0 fun k => { k with rsDepth := 3, rsTop := 0, rs := k.rs.set 0 0x200 } : State).core[(0 : Fin 4)].cond (14 : BitVec 4) = true) ∧ (0 < (run0.modCore 0 fun k => { k with rsDepth := 3, rsTop := 0, rs := k.rs.set 0 0x200 } : State).core[(0 : Fin 4)].depth)) := by
  refine ⟨?_, ?_, ?_, ?_, ?_, ?_, ?_, ?_⟩ <;> decide +kernel

/-- What meets the hypotheses of ControlFlowWordsSetPcAndTheStack: one conjunct for each clause, in the order of its clauses. -/
theorem witness_ControlFlowWordsSetPcAndTheStack_2 :
    ((fetches (run0.modCore 0 fun k => { k with rsTop := 1 } : State) (0 : Fin 4) = true) ∧ ((run0.modCore 0 fun k => { k with rsTop := 1 } : State).core[(0 : Fin 4)].cond (14 : BitVec 4) = true) ∧ ((run0.modCore 0 fun k => { k with rsTop := 1 } : State).core[(0 : Fin 4)].depth = 0) ∧ ((run0.modCore 0 fun k => { k with rsTop := 1 } : State).core[(0 : Fin 4)].rsMode = true) ∧ ((run0.modCore 0 fun k => { k with rsTop := 1 } : State).core[(0 : Fin 4)].ts = false)) ∧
    ((fetches (run0.modCore 0 fun k => { k with rc := 5 } : State) (0 : Fin 4) = true) ∧ ((run0.modCore 0 fun k => { k with rc := 5 } : State).core[(0 : Fin 4)].cond (14 : BitVec 4) = true) ∧ (((run0.modCore 0 fun k => { k with rc := 5 } : State).lookAhead (0 : Fin 4)).any repForbids = false) ∧ ((run0.modCore 0 fun k => { k with rc := 5 } : State).core[(0 : Fin 4)].rc ≠ 0)) ∧
    ((fetches (run0.modCore 0 fun k => { k with rc := 0 } : State) (0 : Fin 4) = true) ∧ ((run0.modCore 0 fun k => { k with rc := 0 } : State).core[(0 : Fin 4)].cond (14 : BitVec 4) = true) ∧ (((run0.modCore 0 fun k => { k with rc := 0 } : State).lookAhead (0 : Fin 4)).any repForbids = false) ∧ ((run0.modCore 0 fun k => { k with rc := 0 } : State).core[(0 : Fin 4)].rc = 0)) ∧
    ((fetches ({ run0.modCore 0 fun k => { k with rc := 3 } with mem := [(0x84, 0), (0x85, 0), (0x86, 0), (0x87, 0x76)] } : State) (0 : Fin 4) = true) ∧ (({ run0.modCore 0 fun k => { k with rc := 3 } with mem := [(0x84, 0), (0x85, 0), (0x86, 0), (0x87, 0x76)] } : State).core[(0 : Fin 4)].cond (14 : BitVec 4) = true) ∧ ((({ run0.modCore 0 fun k => { k with rc := 3 } with mem := [(0x84, 0), (0x85, 0), (0x86, 0), (0x87, 0x76)] } : State).lookAhead (0 : Fin 4)).any repForbids = true) ∧ (({ run0.modCore 0 fun k => { k with rc := 3 } with mem := [(0x84, 0), (0x85, 0), (0x86, 0), (0x87, 0x76)] } : State).core[(0 : Fin 4)].ts = false)) ∧
    ((({ run0.modCore 0 fun k => { k with rptOn := true, rpt := 3 } with mem := [(0x80, 0x02), (0x81, 0x08), (0x82, 0x0A), (0x83, 0x70)] } : State).core[(0 : Fin 4)].rptOn = true) ∧ (fetches ({ run0.modCore 0 fun k => { k with rptOn := true, rpt := 3 } with mem := [(0x80, 0x02), (0x81, 0x08), (0x82, 0x0A), (0x83, 0x70)] } : State) (0 : Fin 4) = true) ∧ (({ run0.modCore 0 fun k => { k with rptOn := true, rpt := 3 } with mem := [(0x80, 0x02), (0x81, 0x08), (0x82, 0x0A), (0x83, 0x70)] } : State).core[(0 : Fin 4)].place 0 ({ run0.modCore 0 fun k => { k with rptOn := true, rpt := 3 } with mem := [(0x80, 0x02), (0x81, 0x08), (0x82, 0x0A), (0x83, 0x70)] } : State).core[(0 : Fin 4)].pc 4 .fetch = .inr (0x80 : Nat)) ∧ (decodeWord (0 : Fin 4) (BitVec.ofNat 32 (memLoad ({ run0.modCore 0 fun k => { k with rptOn := true, rpt := 3 } with mem := [(0x80, 0x02), (0x81, 0x08), (0x82, 0x0A), (0x83, 0x70)] } : State).mem (0x80 : Nat) 4)) = some (.add 0 14 10 1 2 : Instr))) ∧
    ((({ run0.modCore 0 fun k => { k with rptOn := true, rpt := 3 } with mem := [(0x80, 0x02), (0x81, 0x08), (0x82, 0x0A), (0x83, 0x70)] } : State).core[(0 : Fin 4)].rptOn = true) ∧ (fetches ({ run0.modCore 0 fun k => { k with rptOn := true, rpt := 3 } with mem := [(0x80, 0x02), (0x81, 0x08), (0x82, 0x0A), (0x83, 0x70)] } : State) (0 : Fin 4) = true) ∧ (({ run0.modCore 0 fun k => { k with rptOn := true, rpt := 3 } with mem := [(0x80, 0x02), (0x81, 0x08), (0x82, 0x0A), (0x83, 0x70)] } : State).core[(0 : Fin 4)].place 0 ({ run0.modCore 0 fun k => { k with rptOn := true, rpt := 3 } with mem := [(0x80, 0x02), (0x81, 0x08), (0x82, 0x0A), (0x83, 0x70)] } : State).core[(0 : Fin 4)].pc 4 .fetch = .inr (0x80 : Nat)) ∧ (decodeWord (0 : Fin 4) (BitVec.ofNat 32 (memLoad ({ run0.modCore 0 fun k => { k with rptOn := true, rpt := 3 } with mem := [(0x80, 0x02), (0x81, 0x08), (0x82, 0x0A), (0x83, 0x70)] } : State).mem (0x80 : Nat) 4)) = some (.add (0 : Fin 4) 14 (10 : BitVec 5) (1 : BitVec 5) (2 : BitVec 5)))) ∧
    ((fetches (run0.modCore 0 fun k => { k with rptOn := true, rpt := 3 } : State) (0 : Fin 4) = true) ∧ ((run0.modCore 0 fun k => { k with rptOn := true, rpt := 3 } : State).core[(0 : Fin 4)].cond (14 : BitVec 4) = true) ∧ ((run0.modCore 0 fun k => { k with rptOn := true, rpt := 3 } : State).core[(0 : Fin 4)].ts = false)) := by
  refine ⟨?_, ?_, ?_, ?_, ?_, ?_, ?_⟩ <;> decide +kernel

/-- What meets the hypotheses of ControlFlowWordsSetPcAndTheStack: one conjunct for each clause, in the order of its clauses. -/
theorem witness_ControlFlowWordsSetPcAndTheStack_3 :
    ((fetches (run0.modCore 0 fun k => { k with epc := 0x300, esw := 0xFFFF } : State) (0 : Fin 4) = true) ∧ ((run0.modCore 0 fun k => { k with epc := 0x300, esw := 0xFFFF } : State).core[(0 : Fin 4)].cond (14 : BitVec 4) = true) ∧ ((run0.modCore 0 fun k => { k with epc := 0x300, esw := 0xFFFF } : State).core[(0 : Fin 4)].k = true) ∧ ((run0.modCore 0 fun k => { k with epc := 0x300, esw := 0xFFFF } : State).core[(0 : Fin 4)].ecause.getLsbD 15 = false) ∧ ((run0.modCore 0 fun k => { k with epc := 0x300, esw := 0xFFFF } : State).core[(0 : Fin 4)].seg0Pend = none)) ∧
    ((fetches (run0.modCore 0 fun k => { k with epc := 0x300, esw := 0xFFFF, ecause := 0x8000, erpt := 9 } : State) (0 : Fin 4) = true) ∧ ((run0.modCore 0 fun k => { k with epc := 0x300, esw := 0xFFFF, ecause := 0x8000, erpt := 9 } : State).core[(0 : Fin 4)].cond (14 : BitVec 4) = true) ∧ ((run0.modCore 0 fun k => { k with epc := 0x300, esw := 0xFFFF, ecause := 0x8000, erpt := 9 } : State).core[(0 : Fin 4)].k = true) ∧ ((run0.modCore 0 fun k => { k with epc := 0x300, esw := 0xFFFF, ecause := 0x8000, erpt := 9 } : State).core[(0 : Fin 4)].ecause.getLsbD 15 = true) ∧ ((run0.modCore 0 fun k => { k with epc := 0x300, esw := 0xFFFF, ecause := 0x8000, erpt := 9 } : State).core[(0 : Fin 4)].erpt ≠ 0) ∧ ((run0.modCore 0 fun k => { k with epc := 0x300, esw := 0xFFFF, ecause := 0x8000, erpt := 9 } : State).core[(0 : Fin 4)].seg0Pend = none)) ∧
    ((fetches (run0.modCore 0 fun k => { k with seg0Pend := some { base := 4, limit := 5, attr := 6 } } : State) (0 : Fin 4) = true) ∧ ((run0.modCore 0 fun k => { k with seg0Pend := some { base := 4, limit := 5, attr := 6 } } : State).core[(0 : Fin 4)].cond (14 : BitVec 4) = true) ∧ ((run0.modCore 0 fun k => { k with seg0Pend := some { base := 4, limit := 5, attr := 6 } } : State).core[(0 : Fin 4)].k = true) ∧ ((run0.modCore 0 fun k => { k with seg0Pend := some { base := 4, limit := 5, attr := 6 } } : State).core[(0 : Fin 4)].seg0Pend = some ({ base := 4, limit := 5, attr := 6 } : SegDesc))) ∧
    ((fetches (run0.modCore 0 fun k => { k with rc := 1 } : State) (0 : Fin 4) = true) ∧ ((run0.modCore 0 fun k => { k with rc := 1 } : State).core[(0 : Fin 4)].cond (14 : BitVec 4) = true) ∧ ((run0.modCore 0 fun k => { k with rc := 1 } : State).core[(0 : Fin 4)].k = true)) ∧
    (((run0.modCore 0 fun k => { k with waiting := true, swi := 4 } : State).coreRuns = true) ∧ ((run0.modCore 0 fun k => { k with waiting := true, swi := 4 } : State).core[(0 : Fin 4)].waiting = true) ∧ ((run0.modCore 0 fun k => { k with waiting := true, swi := 4 } : State).core[(0 : Fin 4)].topLine.isSome = true)) ∧
    (((run0.modCore 0 fun k => { k with sw := 0x30, swi := 0x8004 } : State).coreRuns = true) ∧ ((run0.modCore 0 fun k => { k with sw := 0x30, swi := 0x8004 } : State).core[(0 : Fin 4)].clocked = true) ∧ ((run0.modCore 0 fun k => { k with sw := 0x30, swi := 0x8004 } : State).core[(0 : Fin 4)].stalled = false) ∧ ((run0.modCore 0 fun k => { k with sw := 0x30, swi := 0x8004 } : State).core[(0 : Fin 4)].accept = some (15 : Nat))) := by
  refine ⟨?_, ?_, ?_, ?_, ?_, ?_⟩ <;> decide +kernel

/-- What meets the hypotheses of SpecialRegistersAndSoftwareLines: one conjunct for each clause, in the order of its clauses. -/
theorem witness_SpecialRegistersAndSoftwareLines_1 :
    ((fetches (run0.modCore 0 fun k => { k with rc := 77 } : State) (0 : Fin 4) = true) ∧ ((run0.modCore 0 fun k => { k with rc := 77 } : State).core[(0 : Fin 4)].cond (14 : BitVec 4) = true) ∧ (selListed (1 : BitVec 11).toNat = true) ∧ ((1 : BitVec 11).toNat < 0x10 ∨ (run0.modCore 0 fun k => { k with rc := 77 } : State).core[(0 : Fin 4)].k = true)) ∧
    ((fetches (run0.modCore 0 fun k => { k with rc := 77 } : State) (0 : Fin 4) = true) ∧ ((run0.modCore 0 fun k => { k with rc := 77 } : State).core[(0 : Fin 4)].cond (14 : BitVec 4) = true)) ∧
    (((run0 : State).depCore.cond (14 : BitVec 4) = true)) ∧
    ((fetches (run0.modCore 0 fun k => { k with g := #v[0, 5, 0xFFFF, 0x8000, 7, 9, 0x1234, 3, 0, 0, 0, 0, 0, 0, 0, 0, 0, 0, 0, 0, 0, 0, 0, 0, 0, 0, 0, 0, 0, 0, 0, 4], sw := 0x0014 } : State) (0 : Fin 4) = true) ∧ ((run0.modCore 0 fun k => { k with g := #v[0, 5, 0xFFFF, 0x8000, 7, 9, 0x1234, 3, 0, 0, 0, 0, 0, 0, 0, 0, 0, 0, 0, 0, 0, 0, 0, 0, 0, 0, 0, 0, 0, 0, 0, 4], sw := 0x0014 } : State).core[(0 : Fin 4)].cond (14 : BitVec 4) = true) ∧ (selListed (0x31 : BitVec 11).toNat = true) ∧ (selRo (0x31 : BitVec 11).toNat = false) ∧ ((0x31 : BitVec 11).toNat ≠ 0x61) ∧ ((0x31 : BitVec 11).toNat ≠ 0x91) ∧ ((0x31 : BitVec 11).toNat < 0x10 ∨ (run0.modCore 0 fun k => { k with g := #v[0, 5, 0xFFFF, 0x8000, 7, 9, 0x1234, 3, 0, 0, 0, 0, 0, 0, 0, 0, 0, 0, 0, 0, 0, 0, 0, 0, 0, 0, 0, 0, 0, 0, 0, 4], sw := 0x0014 } : State).core[(0 : Fin 4)].k = true)) ∧
    ((fetches (run0.modCore 0 fun k => { k with g := #v[0, 5, 0xFFFF, 0x8000, 7, 9, 0x1234, 3, 0, 0, 0, 0, 0, 0, 0, 0, 0, 0, 0, 0, 0, 0, 0, 0, 0, 0, 0, 0, 0, 0, 0, 4], sw := 0x0014 } : State) (0 : Fin 4) = true) ∧ ((run0.modCore 0 fun k => { k with g := #v[0, 5, 0xFFFF, 0x8000, 7, 9, 0x1234, 3, 0, 0, 0, 0, 0, 0, 0, 0, 0, 0, 0, 0, 0, 0, 0, 0, 0, 0, 0, 0, 0, 0, 0, 4], sw := 0x0014 } : State).core[(0 : Fin 4)].cond (14 : BitVec 4) = true)) ∧
    ((fetches (run0.modCore 0 fun k => { k with sw := 0x0004, g := k.g.set 2 0xFFFF, seg := upd k.seg 0 fun x => { x with d := { x.d with attr := 5 } } } : State) (0 : Fin 4) = true) ∧ ((run0.modCore 0 fun k => { k with sw := 0x0004, g := k.g.set 2 0xFFFF, seg := upd k.seg 0 fun x => { x with d := { x.d with attr := 5 } } } : State).core[(0 : Fin 4)].cond (14 : BitVec 4) = true) ∧ ((run0.modCore 0 fun k => { k with sw := 0x0004, g := k.g.set 2 0xFFFF, seg := upd k.seg 0 fun x => { x with d := { x.d with attr := 5 } } } : State).core[(0 : Fin 4)].k = false)) ∧
    ((fetches (run0.modCore 0 fun k => { k with g := #v[0, 5, 0xFFFF, 0x8000, 7, 9, 0x1234, 3, 0, 0, 0, 0, 0, 0, 0, 0, 0, 0, 0, 0, 0, 0, 0, 0, 0, 0, 0, 0, 0, 0, 0, 4], sw := 0x0014 } : State) (0 : Fin 4) = true) ∧ ((run0.modCore 0 fun k => { k with g := #v[0, 5, 0xFFFF, 0x8000, 7, 9, 0x1234, 3, 0, 0, 0, 0, 0, 0, 0, 0, 0, 0, 0, 0, 0, 0, 0, 0, 0, 0, 0, 0, 0, 0, 0, 4], sw := 0x0014 } : State).core[(0 : Fin 4)].cond (14 : BitVec 4) = true) ∧ ((run0.modCore 0 fun k => { k with g := #v[0, 5, 0xFFFF, 0x8000, 7, 9, 0x1234, 3, 0, 0, 0, 0, 0, 0, 0, 0, 0, 0, 0, 0, 0, 0, 0, 0, 0, 0, 0, 0, 0, 0, 0, 4], sw := 0x0014 } : State).core[(0 : Fin 4)].k = true) ∧ ((7 : Fin 8).val ≠ 0)) ∧
    ((fetches (run0.modCore 0 fun k => { k with g := #v[0, 5, 0xFFFF, 0x8000, 7, 9, 0x1234, 3, 0, 0, 0, 0, 0, 0, 0, 0, 0, 0, 0, 0, 0, 0, 0, 0, 0, 0, 0, 0, 0, 0, 0, 4], sw := 0x0014 } : State) (0 : Fin 4) = true) ∧ ((run0.modCore 0 fun k => { k with g := #v[0, 5, 0xFFFF, 0x8000, 7, 9, 0x1234, 3, 0, 0, 0, 0, 0, 0, 0, 0, 0, 0, 0, 0, 0, 0, 0, 0, 0, 0, 0, 0, 0, 0, 0, 4], sw := 0x0014 } : State).core[(0 : Fin 4)].cond (14 : BitVec 4) = true) ∧ ((run0.modCore 0 fun k => { k with g := #v[0, 5, 0xFFFF, 0x8000, 7, 9, 0x1234, 3, 0, 0, 0, 0, 0, 0, 0, 0, 0, 0, 0, 0, 0, 0, 0, 0, 0, 0, 0, 0, 0, 0, 0, 4], sw := 0x0014 } : State).core[(0 : Fin 4)].k = true)) ∧
    ((fetches (run0.modCore 0 fun k => { k with g := k.g.set 5 0x0F07 } : State) (0 : Fin 4) = true) ∧ ((run0.modCore 0 fun k => { k with g := k.g.set 5 0x0F07 } : State).core[(0 : Fin 4)].cond (14 : BitVec 4) = true) ∧ ((run0.modCore 0 fun k => { k with g := k.g.set 5 0x0F07 } : State).core[(0 : Fin 4)].k = true)) ∧
    ((fetches (run0.modCore 0 fun k => { k with swi := 0xFF } : State) (0 : Fin 4) = true) ∧ ((run0.modCore 0 fun k => { k with swi := 0xFF } : State).core[(0 : Fin 4)].cond (14 : BitVec 4) = true) ∧ ((run0.modCore 0 fun k => { k with swi := 0xFF } : State).core[(0 : Fin 4)].k = true)) := by
  refine ⟨?_, ?_, ?_, ?_, ?_, ?_, ?_, ?_, ?_, ?_⟩ <;> decide +kernel

/-- What meets the hypotheses of SpecialRegistersAndSoftwareLines: one conjunct for each clause, in the order of its clauses. -/
theorem witness_SpecialRegistersAndSoftwareLines_2 :
    ((fetches (run0.modCore 0 fun k => { k with g := k.g.set 5 0x000F, startPc := 0x4000 } : State) 0 = true) ∧ ((run0.modCore 0 fun k => { k with g := k.g.set 5 0x000F, startPc := 0x4000 } : State).core[(0 : Fin 4)].cond (14 : BitVec 4) = true) ∧ ((run0.modCore 0 fun k => { k with g := k.g.set 5 0x000F, startPc := 0x4000 } : State).core[(0 : Fin 4)].k = true)) ∧
    ((fetches (run0.modCore 1 fun k => { k with started := true, g := k.g.set 5 0x0F } : State) (1 : Fin 4) = true) ∧ ((run0.modCore 1 fun k => { k with started := true, g := k.g.set 5 0x0F } : State).core[(1 : Fin 4)].cond (14 : BitVec 4) = true) ∧ ((run0.modCore 1 fun k => { k with started := true, g := k.g.set 5 0x0F } : State).core[(1 : Fin 4)].k = true) ∧ ((1 : Fin 4) ≠ 0)) ∧
    ((fetches (run0.modCore 0 fun k => { k with evq := [{ ev := { time := 1, src := 2, code := 3, arg := 0x12345678 }, line := 0 }] } : State) (0 : Fin 4) = true) ∧ ((run0.modCore 0 fun k => { k with evq := [{ ev := { time := 1, src := 2, code := 3, arg := 0x12345678 }, line := 0 }] } : State).core[(0 : Fin 4)].cond (14 : BitVec 4) = true) ∧ ((run0.modCore 0 fun k => { k with evq := [{ ev := { time := 1, src := 2, code := 3, arg := 0x12345678 }, line := 0 }] } : State).core[(0 : Fin 4)].k = true)) := by
  refine ⟨?_, ?_, ?_⟩ <;> decide +kernel

/-- What meets the hypotheses of QueuesHoldWordsInOrder: one conjunct for each clause, in the order of its clauses. -/
theorem witness_QueuesHoldWordsInOrder_1 :
    ((((run0.modQ 3 fun x => { x with cfg := 0x00020021, ents := [1], ctrl := 2 }) : State).coreRuns = true) ∧ (blockProducer (3 : Fin 32).val = false) ∧ (((run0.modQ 3 fun x => { x with cfg := 0x00020021, ents := [1], ctrl := 2 }) : State).que.q[(3 : Fin 32)].en = true) ∧ (((run0.modQ 3 fun x => { x with cfg := 0x00020021, ents := [1], ctrl := 2 }) : State).que.q[(3 : Fin 32)].ents.length < ((run0.modQ 3 fun x => { x with cfg := 0x00020021, ents := [1], ctrl := 2 }) : State).que.q[(3 : Fin 32)].depth)) ∧
    (((run0 : State).coreRuns = true) ∧ (blockProducer (3 : Fin 32).val = false) ∧ ((run0 : State).que.q[(3 : Fin 32)].en = false ∨ (run0 : State).que.q[(3 : Fin 32)].depth ≤ (run0 : State).que.q[(3 : Fin 32)].ents.length)) ∧
    (((run0 : State).coreRuns = true) ∧ ((16 : Fin 32).val = 12 ∨ (16 : Fin 32).val = 14 ∨ 16 ≤ (16 : Fin 32).val)) ∧
    ((((run0.modQ 3 fun x => { x with cfg := 0x00020021, ents := [9, 8], ctrl := 2, hw := true }) : State).coreRuns = true) ∧ ((3 : Fin 32).val ≠ 13) ∧ (((run0.modQ 3 fun x => { x with cfg := 0x00020021, ents := [9, 8], ctrl := 2, hw := true }) : State).que.q[(3 : Fin 32)].ents = (9 : W32) :: ([8] : List W32))) ∧
    ((((run0.modQ 3 fun x => { x with cfg := 0x00020021, last := 77 }) : State).coreRuns = true) ∧ ((3 : Fin 32).val ≠ 13) ∧ (((run0.modQ 3 fun x => { x with cfg := 0x00020021, last := 77 }) : State).que.q[(3 : Fin 32)].ents = [])) ∧
    ((((run0.modQ 13 fun x => { x with cfg := 0x00020021, ents := [1] }) : State).coreRuns = true)) ∧
    ((((run0.modQ 3 fun x => { x with cfg := 0x00020021, ents := [1], ctrl := 1, hw := true }) : State).coreRuns = true)) ∧
    ((((run0.modQ 3 fun x => { x with cfg := 0x00020021, idle := true }) : State).coreRuns = true) ∧ ((3 : Fin 32).val ≠ 13) ∧ (((run0.modQ 3 fun x => { x with cfg := 0x00020021, idle := true }) : State).que.q[(3 : Fin 32)].en = true) ∧ (((run0.modQ 3 fun x => { x with cfg := 0x00020021, idle := true }) : State).que.q[(3 : Fin 32)].ents = []) ∧ ((0x5678 : W32) = (if ((run0.modQ 3 fun x => { x with cfg := 0x00020021, idle := true }) : State).que.q[(3 : Fin 32)].w32 then (0x12345678 : W32) else (0x12345678 : W32) &&& 0xFFFF#32))) ∧
    ((((run0.modQ 3 fun x => { x with cfg := 0x00020021, ents := List.replicate 32 5, ctrl := 0x20 }) : State).coreRuns = true) ∧ ((3 : Fin 32).val ≠ 13) ∧ (((run0.modQ 3 fun x => { x with cfg := 0x00020021, ents := List.replicate 32 5, ctrl := 0x20 }) : State).que.q[(3 : Fin 32)].en = true) ∧ (((run0.modQ 3 fun x => { x with cfg := 0x00020021, ents := List.replicate 32 5, ctrl := 0x20 }) : State).que.q[(3 : Fin 32)].ents = (5 : W32) :: (List.replicate 31 5 : List W32)) ∧ ((0x5678 : W32) = (if ((run0.modQ 3 fun x => { x with cfg := 0x00020021, ents := List.replicate 32 5, ctrl := 0x20 }) : State).que.q[(3 : Fin 32)].w32 then (0x12345678 : W32) else (0x12345678 : W32) &&& 0xFFFF#32))) ∧
    ((((run0.modQ 3 fun x => { x with cfg := 0x00020021, ents := [1], ctrl := 1, hw := true, last := 4 }) : State).coreRuns = true) ∧ (((run0.modQ 3 fun x => { x with cfg := 0x00020021, ents := [1], ctrl := 1, hw := true, last := 4 }) : State).que.q[(3 : Fin 32)].en = true) ∧ (0 < ((run0.modQ 3 fun x => { x with cfg := 0x00020021, ents := [1], ctrl := 1, hw := true, last := 4 }) : State).que.q[(3 : Fin 32)].depth) ∧ ((0x5678 : W32) = (if ((run0.modQ 3 fun x => { x with cfg := 0x00020021, ents := [1], ctrl := 1, hw := true, last := 4 }) : State).que.q[(3 : Fin 32)].w32 then (0x12345678 : W32) else (0x12345678 : W32) &&& 0xFFFF#32))) ∧
    (((run0 : State).coreRuns = true) ∧ ((3 : Fin 32).val < 24) ∧ (bit (0x01E00001 : W32) 0 = true) ∧ ((run0 : State).que.q[(3 : Fin 32)].en = false) ∧ (fld (0x01E00001 : W32) 16 10 ≠ 0) ∧ (fld (0x01E00001 : W32) 4 9 + fld (0x01E00001 : W32) 16 10 ≤ 512) ∧ (∀ p : Fin 32, p ≠ (3 : Fin 32) → (run0 : State).que.q[p].en = true → fld (0x01E00001 : W32) 4 9 + fld (0x01E00001 : W32) 16 10 ≤ (run0 : State).que.q[p].base ∨ (run0 : State).que.q[p].base + (run0 : State).que.q[p].size ≤ fld (0x01E00001 : W32) 4 9)) ∧
    ((((run0.modQ 3 fun x => { x with cfg := 0x00020021, ents := [1] }) : State).coreRuns = true) ∧ ((3 : Fin 32).val < 24) ∧ (bit (0x10 : W32) 0 = false)) := by
  refine ⟨?_, ?_, ?_, ?_, ?_, ?_, ?_, ?_, ?_, ?_, ?_, ?_⟩ <;> decide +kernel

/-- What meets the hypotheses of QueuesHoldWordsInOrder: one conjunct for each clause, in the order of its clauses. -/
theorem witness_QueuesHoldWordsInOrder_2 :
    (((run0 : State).coreRuns = true) ∧ (bit (0x01E00001 : W32) 0 = true) ∧ (24 ≤ (24 : Fin 32).val ∨ ((run0 : State).que.q[(24 : Fin 32)].en = true ∨ fld (0x01E00001 : W32) 16 10 = 0 ∨ 512 < fld (0x01E00001 : W32) 4 9 + fld (0x01E00001 : W32) 16 10 ∨ ∃ p : Fin 32, p ≠ (24 : Fin 32) ∧ (run0 : State).que.q[p].en = true ∧ fld (0x01E00001 : W32) 4 9 < (run0 : State).que.q[p].base + (run0 : State).que.q[p].size ∧ (run0 : State).que.q[p].base < fld (0x01E00001 : W32) 4 9 + fld (0x01E00001 : W32) 16 10))) ∧
    (((run0 : State).coreRuns = true) ∧ (24 ≤ (24 : Fin 32).val) ∧ (bit (0x01E00000 : W32) 0 = false)) ∧
    ((((run0.modQ 3 fun x => { x with cfg := 0x00020021, ents := [1], ctrl := 0x00640000, idleAt := some 5 }) : State).coreRuns = true) ∧ (((run0.modQ 3 fun x => { x with cfg := 0x00020021, ents := [1], ctrl := 0x00640000, idleAt := some 5 }) : State).tmbRuns = true) ∧ (((run0.modQ 3 fun x => { x with cfg := 0x00020021, ents := [1], ctrl := 0x00640000, idleAt := some 5 }) : State).que.q[(3 : Fin 32)].idleAt = some (5 : Nat)) ∧ (((run0.modQ 3 fun x => { x with cfg := 0x00020021, ents := [1], ctrl := 0x00640000, idleAt := some 5 }) : State).que.q[(3 : Fin 32)].idleTmo ≠ 0) ∧ (((run0.modQ 3 fun x => { x with cfg := 0x00020021, ents := [1], ctrl := 0x00640000, idleAt := some 5 }) : State).que.q[(3 : Fin 32)].ents ≠ [])) ∧
    (((run0 : State).que.q[(3 : Fin 32)].idleAt = none ∨ (run0 : State).que.q[(3 : Fin 32)].idleTmo = 0 ∨ (run0 : State).que.q[(3 : Fin 32)].ents = [] ∨ (run0 : State).coreRuns = false)) := by
  refine ⟨?_, ?_, ?_, ?_⟩ <;> decide +kernel

/-- What meets the hypotheses of DumpsAndTagsRecordTheCounters: one conjunct for each clause, in the order of its clauses. -/
theorem witness_DumpsAndTagsRecordTheCounters_1 :
    ((((run0.modPmc fun p => { p with ctl := 3, base := 0x1000000, ring := 2, ringOk := true, seq := 65535 }) : State).dumpDue = some (256 : Nat)) ∧ (((run0.modPmc fun p => { p with ctl := 3, base := 0x1000000, ring := 2, ringOk := true, seq := 65535 }) : State).coreRuns = true) ∧ (((run0.modPmc fun p => { p with ctl := 3, base := 0x1000000, ring := 2, ringOk := true, seq := 65535 }) : State).tmbRuns = true) ∧ (((run0.modPmc fun p => { p with ctl := 3, base := 0x1000000, ring := 2, ringOk := true, seq := 65535 }) : State).pmc.busy = none) ∧ (((run0.modPmc fun p => { p with ctl := 3, base := 0x1000000, ring := 2, ringOk := true, seq := 65535 }) : State).pmc.ringOk = true) ∧ (((run0.modPmc fun p => { p with ctl := 3, base := 0x1000000, ring := 2, ringOk := true, seq := 65535 }) : State).pmc.full = false)) ∧
    ((((run0.modPmc fun p => { p with ctl := 3 }) : State).dumpDue = some (256 : Nat)) ∧ (((run0.modPmc fun p => { p with ctl := 3 }) : State).isUp 1 = true) ∧ (((run0.modPmc fun p => { p with ctl := 3 }) : State).sup.coreReset = false) ∧ (((run0.modPmc fun p => { p with ctl := 3 }) : State).tmbRuns = true) ∧ (((run0.modPmc fun p => { p with ctl := 3 }) : State).coreRuns = false ∨ ((run0.modPmc fun p => { p with ctl := 3 }) : State).pmc.busy ≠ none ∨ ((run0.modPmc fun p => { p with ctl := 3 }) : State).pmc.ringOk = false)) ∧
    ((((run0.modPmc fun p => { p with ctl := 3, base := 0x1000000, ring := 1, ringOk := true, wr := 1 }) : State).dumpDue = some (256 : Nat)) ∧ (((run0.modPmc fun p => { p with ctl := 3, base := 0x1000000, ring := 1, ringOk := true, wr := 1 }) : State).coreRuns = true) ∧ (((run0.modPmc fun p => { p with ctl := 3, base := 0x1000000, ring := 1, ringOk := true, wr := 1 }) : State).tmbRuns = true) ∧ (((run0.modPmc fun p => { p with ctl := 3, base := 0x1000000, ring := 1, ringOk := true, wr := 1 }) : State).pmc.busy = none) ∧ (((run0.modPmc fun p => { p with ctl := 3, base := 0x1000000, ring := 1, ringOk := true, wr := 1 }) : State).pmc.ringOk = true) ∧ (((run0.modPmc fun p => { p with ctl := 3, base := 0x1000000, ring := 1, ringOk := true, wr := 1 }) : State).pmc.full = true)) ∧
    (((run0 : State).coreRuns = true)) ∧
    ((((run0.modPmc fun p => { p with cyc := Vector.replicate 4 9, ctl := 1 }) : State).coreRuns = true)) ∧
    ((((run0.modPmc fun p => { p with busy := some (0x1000100, [0x01020304, 0, 0x80000000]), ring := 1, wr := 1 }) : State).canonical) ∧ (((run0.modPmc fun p => { p with busy := some (0x1000100, [0x01020304, 0, 0x80000000]), ring := 1, wr := 1 }) : State).pmc.busy = some ((0x1000100 : Nat), ([0x01020304, 0, 0x80000000] : List Nat))) ∧ (((run0.modPmc fun p => { p with busy := some (0x1000100, [0x01020304, 0, 0x80000000]), ring := 1, wr := 1 }) : State).coreRuns = true) ∧ (isSram (0x1000100 : Nat) = true ∨ ((run0.modPmc fun p => { p with busy := some (0x1000100, [0x01020304, 0, 0x80000000]), ring := 1, wr := 1 }) : State).bulkOk = true) ∧ (∀ x ∈ ([0x01020304, 0, 0x80000000] : List Nat), x < 2 ^ 32)) ∧
    ((((run0.modPmc fun p => { p with wr := 3, ring := 12 }) : State).coreRuns = true) ∧ (bit ((run0.modPmc fun p => { p with wr := 3, ring := 12 }) : State).pmc.ctl 1 = false)) ∧
    ((((run0.modPmc fun p => { p with wr := 3, base := 0x1000000 }) : State).coreRuns = true) ∧ (bit ((run0.modPmc fun p => { p with wr := 3, base := 0x1000000 }) : State).pmc.ctl 1 = false)) ∧
    ((((run0.modPmc fun p => { p with ctl := 2, wr := 5 }) : State).coreRuns = true) ∧ (bit ((run0.modPmc fun p => { p with ctl := 2, wr := 5 }) : State).pmc.ctl 1 = true)) := by
  refine ⟨?_, ?_, ?_, ?_, ?_, ?_, ?_, ?_, ?_⟩ <;> decide +kernel

/-- What meets the hypotheses of DumpsAndTagsRecordTheCounters: one conjunct for each clause, in the order of its clauses. -/
theorem witness_DumpsAndTagsRecordTheCounters_2 :
    ((((run0.modPmc fun p => { p with ctl := 1, evsel := upd p.evsel 5 fun _ => 0x1002, cnt := upd p.cnt 5 fun _ => 0xFFFFFFFF }) : State).coreRuns = true) ∧ (((false : Bool) && ((run0.modPmc fun p => { p with ctl := 1, evsel := upd p.evsel 5 fun _ => 0x1002, cnt := upd p.cnt 5 fun _ => 0xFFFFFFFF }) : State).pmc.lastWrote == some ((5 : Fin 24).val, ((run0.modPmc fun p => { p with ctl := 1, evsel := upd p.evsel 5 fun _ => 0x1002, cnt := upd p.cnt 5 fun _ => 0xFFFFFFFF }) : State).now)) = false) ∧ ((coreAt ((run0.modPmc fun p => { p with ctl := 1, evsel := upd p.evsel 5 fun _ => 0x1002, cnt := upd p.cnt 5 fun _ => 0xFFFFFFFF }) : State) (5 : Fin 24)).clocked = true) ∧ (bit ((run0.modPmc fun p => { p with ctl := 1, evsel := upd p.evsel 5 fun _ => 0x1002, cnt := upd p.cnt 5 fun _ => 0xFFFFFFFF }) : State).pmc.ctl 0 = true) ∧ (1 ≤ fld ((run0.modPmc fun p => { p with ctl := 1, evsel := upd p.evsel 5 fun _ => 0x1002, cnt := upd p.cnt 5 fun _ => 0xFFFFFFFF }) : State).pmc.evsel[(5 : Fin 24)] 0 6) ∧ (fld ((run0.modPmc fun p => { p with ctl := 1, evsel := upd p.evsel 5 fun _ => 0x1002, cnt := upd p.cnt 5 fun _ => 0xFFFFFFFF }) : State).pmc.evsel[(5 : Fin 24)] 0 6 ≤ 18) ∧ (privOk ((run0.modPmc fun p => { p with ctl := 1, evsel := upd p.evsel 5 fun _ => 0x1002, cnt := upd p.cnt 5 fun _ => 0xFFFFFFFF }) : State).pmc.evsel[(5 : Fin 24)] (coreAt ((run0.modPmc fun p => { p with ctl := 1, evsel := upd p.evsel 5 fun _ => 0x1002, cnt := upd p.cnt 5 fun _ => 0xFFFFFFFF }) : State) (5 : Fin 24)) = true) ∧ (((run0.modPmc fun p => { p with ctl := 1, evsel := upd p.evsel 5 fun _ => 0x1002, cnt := upd p.cnt 5 fun _ => 0xFFFFFFFF }) : State).pmc.cnt[(5 : Fin 24)] = 0xFFFFFFFF)) ∧
    (((((run0.modPmc fun p => { p with cyc := upd p.cyc 3 fun _ => 0xFFFFFFFFFFFF })).modCore 3 fun k => { k with started := true } : State).coreRuns = true) ∧ (((false : Bool) && (((run0.modPmc fun p => { p with cyc := upd p.cyc 3 fun _ => 0xFFFFFFFFFFFF })).modCore 3 fun k => { k with started := true } : State).pmc.lastWrote == some (24 + (3 : Fin 4).val, (((run0.modPmc fun p => { p with cyc := upd p.cyc 3 fun _ => 0xFFFFFFFFFFFF })).modCore 3 fun k => { k with started := true } : State).now)) = false) ∧ ((((run0.modPmc fun p => { p with cyc := upd p.cyc 3 fun _ => 0xFFFFFFFFFFFF })).modCore 3 fun k => { k with started := true } : State).core[(3 : Fin 4)].clocked = true) ∧ ((((run0.modPmc fun p => { p with cyc := upd p.cyc 3 fun _ => 0xFFFFFFFFFFFF })).modCore 3 fun k => { k with started := true } : State).pmc.cyc[(3 : Fin 4)] = 0xFFFFFFFFFFFF)) ∧
    ((((run0.modPmc fun p => { p with ret := upd p.ret 0 fun _ => 0xFFFFFFFFFFFF }) : State).coreRuns = true) ∧ (((false : Bool) && ((run0.modPmc fun p => { p with ret := upd p.ret 0 fun _ => 0xFFFFFFFFFFFF }) : State).pmc.lastWrote == some (28 + (0 : Fin 4).val, ((run0.modPmc fun p => { p with ret := upd p.ret 0 fun _ => 0xFFFFFFFFFFFF }) : State).now)) = false) ∧ (((run0.modPmc fun p => { p with ret := upd p.ret 0 fun _ => 0xFFFFFFFFFFFF }) : State).core[(0 : Fin 4)].clocked = true) ∧ (((run0.modPmc fun p => { p with ret := upd p.ret 0 fun _ => 0xFFFFFFFFFFFF }) : State).pmc.ret[(0 : Fin 4)] = 0xFFFFFFFFFFFF)) := by
  refine ⟨?_, ?_, ?_⟩ <;> decide +kernel

/-- What meets the hypotheses of DumpsAndTagsRecordTheCounters: one conjunct for each clause, in the order of its clauses. -/
theorem witness_DumpsAndTagsRecordTheCounters_3 :
    ((((run0.modPmc fun p => { p with ctl := 1, fevsel := upd p.fevsel 15 fun _ => 0x1002, fcnt := upd p.fcnt 15 fun _ => 0xFFFFFFFF }) : State).isUp 1 = true) ∧ (((run0.modPmc fun p => { p with ctl := 1, fevsel := upd p.fevsel 15 fun _ => 0x1002, fcnt := upd p.fcnt 15 fun _ => 0xFFFFFFFF }) : State).isUp 2 = true) ∧ (((false : Bool) && ((run0.modPmc fun p => { p with ctl := 1, fevsel := upd p.fevsel 15 fun _ => 0x1002, fcnt := upd p.fcnt 15 fun _ => 0xFFFFFFFF }) : State).pmc.lastWrote == some (32 + (15 : Fin 16).val, ((run0.modPmc fun p => { p with ctl := 1, fevsel := upd p.fevsel 15 fun _ => 0x1002, fcnt := upd p.fcnt 15 fun _ => 0xFFFFFFFF }) : State).now)) = false) ∧ (bit ((run0.modPmc fun p => { p with ctl := 1, fevsel := upd p.fevsel 15 fun _ => 0x1002, fcnt := upd p.fcnt 15 fun _ => 0xFFFFFFFF }) : State).pmc.ctl 0 = true) ∧ (1 ≤ fld ((run0.modPmc fun p => { p with ctl := 1, fevsel := upd p.fevsel 15 fun _ => 0x1002, fcnt := upd p.fcnt 15 fun _ => 0xFFFFFFFF }) : State).pmc.fevsel[(15 : Fin 16)] 0 6) ∧ (fld ((run0.modPmc fun p => { p with ctl := 1, fevsel := upd p.fevsel 15 fun _ => 0x1002, fcnt := upd p.fcnt 15 fun _ => 0xFFFFFFFF }) : State).pmc.fevsel[(15 : Fin 16)] 0 6 ≤ 15) ∧ (((run0.modPmc fun p => { p with ctl := 1, fevsel := upd p.fevsel 15 fun _ => 0x1002, fcnt := upd p.fcnt 15 fun _ => 0xFFFFFFFF }) : State).pmc.fcnt[(15 : Fin 16)] = 0xFFFFFFFF)) ∧
    ((((run0.modPmc fun p => { p with ctl := 1, evsel := upd p.evsel 5 fun _ => 0x1002, lastWrote := some (5, 0), cnt := upd p.cnt 5 fun _ => 0xFFFFFFFF }) : State).pmc.lastWrote = some ((5 : Fin 48).val, ((run0.modPmc fun p => { p with ctl := 1, evsel := upd p.evsel 5 fun _ => 0x1002, lastWrote := some (5, 0), cnt := upd p.cnt 5 fun _ => 0xFFFFFFFF }) : State).now))) ∧
    ((((run0.modPmc fun p => { p with cyc := upd p.cyc 3 fun _ => 0x123400000005 }) : State).coreRuns = true)) ∧
    ((((run0.modPmc fun p => { p with ret := upd p.ret 3 fun _ => 0x123400000005 }) : State).coreRuns = true)) ∧
    ((((run0.modPmc fun p => { p with cyc := upd p.cyc 3 fun _ => 0x123400000005 }) : State).depUp = true) ∧ (((run0.modPmc fun p => { p with cyc := upd p.cyc 3 fun _ => 0x123400000005 }) : State).isUp 1 = true) ∧ (((run0.modPmc fun p => { p with cyc := upd p.cyc 3 fun _ => 0x123400000005 }) : State).sup.coreReset = false)) ∧
    (((run0 : State).coreRuns = true) ∧ (bit (run0 : State).pmc.tag[(3 : Fin 4)].ctl 0 = false)) ∧
    ((((run0.modPmc fun p => { p with tag := upd p.tag 2 fun t => { t with ctl := 0x61, lfsr := 0xACE1 } }) : State).coreRuns = true) ∧ (bit ((run0.modPmc fun p => { p with tag := upd p.tag 2 fun t => { t with ctl := 0x61, lfsr := 0xACE1 } }) : State).pmc.tag[(2 : Fin 4)].ctl 0 = true) ∧ (((run0.modPmc fun p => { p with tag := upd p.tag 2 fun t => { t with ctl := 0x61, lfsr := 0xACE1 } }) : State).pmc.tag[(2 : Fin 4)].down ≤ 1) ∧ (((run0.modPmc fun p => { p with tag := upd p.tag 2 fun t => { t with ctl := 0x61, lfsr := 0xACE1 } }) : State).pmc.tag[(2 : Fin 4)].inFlight = false)) ∧
    ((((run0.modPmc fun p => { p with tag := upd p.tag 2 fun t => { t with ctl := 0x61, lfsr := 0xACE1, inFlight := true } }) : State).coreRuns = true) ∧ (bit ((run0.modPmc fun p => { p with tag := upd p.tag 2 fun t => { t with ctl := 0x61, lfsr := 0xACE1, inFlight := true } }) : State).pmc.tag[(2 : Fin 4)].ctl 0 = true) ∧ (((run0.modPmc fun p => { p with tag := upd p.tag 2 fun t => { t with ctl := 0x61, lfsr := 0xACE1, inFlight := true } }) : State).pmc.tag[(2 : Fin 4)].down ≤ 1) ∧ (((run0.modPmc fun p => { p with tag := upd p.tag 2 fun t => { t with ctl := 0x61, lfsr := 0xACE1, inFlight := true } }) : State).pmc.tag[(2 : Fin 4)].inFlight = true)) ∧
    ((bit (run0 : State).pmc.tag[(2 : Fin 4)].ctl 0 = false ∨ 1 < (run0 : State).pmc.tag[(2 : Fin 4)].down)) ∧
    (((run0 : State).pmc.tag[(2 : Fin 4)].inFlight = false)) := by
  refine ⟨?_, ?_, ?_, ?_, ?_, ?_, ?_, ?_, ?_, ?_⟩ <;> decide +kernel

/-- What meets the hypotheses of DumpsAndTagsRecordTheCounters: one conjunct for each clause, in the order of its clauses. -/
theorem witness_DumpsAndTagsRecordTheCounters_4 :
    ((((({ run0.modCore 0 fun k => { k with rc := 5 } with mem := [(0x80, 0x02), (0x81, 0x08), (0x82, 0x0A), (0x83, 0x70)] }).modQ 14 fun x => { x with cfg := 0x00020023 }).modPmc fun p => { p with tag := upd p.tag 0 fun t => { t with ctl := 1, inFlight := true, seq := 65535 } } : State).pmc.tag[(0 : Fin 4)].inFlight = true) ∧ (fetches ((({ run0.modCore 0 fun k => { k with rc := 5 } with mem := [(0x80, 0x02), (0x81, 0x08), (0x82, 0x0A), (0x83, 0x70)] }).modQ 14 fun x => { x with cfg := 0x00020023 }).modPmc fun p => { p with tag := upd p.tag 0 fun t => { t with ctl := 1, inFlight := true, seq := 65535 } } : State) (0 : Fin 4) = true) ∧ (((({ run0.modCore 0 fun k => { k with rc := 5 } with mem := [(0x80, 0x02), (0x81, 0x08), (0x82, 0x0A), (0x83, 0x70)] }).modQ 14 fun x => { x with cfg := 0x00020023 }).modPmc fun p => { p with tag := upd p.tag 0 fun t => { t with ctl := 1, inFlight := true, seq := 65535 } } : State).core[(0 : Fin 4)].place 0 ((({ run0.modCore 0 fun k => { k with rc := 5 } with mem := [(0x80, 0x02), (0x81, 0x08), (0x82, 0x0A), (0x83, 0x70)] }).modQ 14 fun x => { x with cfg := 0x00020023 }).modPmc fun p => { p with tag := upd p.tag 0 fun t => { t with ctl := 1, inFlight := true, seq := 65535 } } : State).core[(0 : Fin 4)].pc 4 .fetch = .inr (0x80 : Nat)) ∧ (decodeWord (0 : Fin 4) (BitVec.ofNat 32 (memLoad ((({ run0.modCore 0 fun k => { k with rc := 5 } with mem := [(0x80, 0x02), (0x81, 0x08), (0x82, 0x0A), (0x83, 0x70)] }).modQ 14 fun x => { x with cfg := 0x00020023 }).modPmc fun p => { p with tag := upd p.tag 0 fun t => { t with ctl := 1, inFlight := true, seq := 65535 } } : State).mem (0x80 : Nat) 4)) = some (.add 0 14 10 1 2 : Instr))) ∧
    ((((({ run0.modCore 0 fun k => { k with rc := 5 } with mem := [(0x80, 0x02), (0x81, 0x08), (0x82, 0x0A), (0x83, 0x70)] }).modQ 14 fun x => { x with cfg := 0x00020023 }).modPmc fun p => { p with tag := upd p.tag 0 fun t => { t with ctl := 1, inFlight := true, seq := 65535 } } : State).pmc.tag[(0 : Fin 4)].inFlight = true) ∧ (fetches ((({ run0.modCore 0 fun k => { k with rc := 5 } with mem := [(0x80, 0x02), (0x81, 0x08), (0x82, 0x0A), (0x83, 0x70)] }).modQ 14 fun x => { x with cfg := 0x00020023 }).modPmc fun p => { p with tag := upd p.tag 0 fun t => { t with ctl := 1, inFlight := true, seq := 65535 } } : State) (0 : Fin 4) = true) ∧ (((({ run0.modCore 0 fun k => { k with rc := 5 } with mem := [(0x80, 0x02), (0x81, 0x08), (0x82, 0x0A), (0x83, 0x70)] }).modQ 14 fun x => { x with cfg := 0x00020023 }).modPmc fun p => { p with tag := upd p.tag 0 fun t => { t with ctl := 1, inFlight := true, seq := 65535 } } : State).core[(0 : Fin 4)].place 0 ((({ run0.modCore 0 fun k => { k with rc := 5 } with mem := [(0x80, 0x02), (0x81, 0x08), (0x82, 0x0A), (0x83, 0x70)] }).modQ 14 fun x => { x with cfg := 0x00020023 }).modPmc fun p => { p with tag := upd p.tag 0 fun t => { t with ctl := 1, inFlight := true, seq := 65535 } } : State).core[(0 : Fin 4)].pc 4 .fetch = .inr (0x80 : Nat)) ∧ (decodeWord (0 : Fin 4) (BitVec.ofNat 32 (memLoad ((({ run0.modCore 0 fun k => { k with rc := 5 } with mem := [(0x80, 0x02), (0x81, 0x08), (0x82, 0x0A), (0x83, 0x70)] }).modQ 14 fun x => { x with cfg := 0x00020023 }).modPmc fun p => { p with tag := upd p.tag 0 fun t => { t with ctl := 1, inFlight := true, seq := 65535 } } : State).mem (0x80 : Nat) 4)) = some (.add (0 : Fin 4) 14 (10 : BitVec 5) (1 : BitVec 5) (2 : BitVec 5))) ∧ (((({ run0.modCore 0 fun k => { k with rc := 5 } with mem := [(0x80, 0x02), (0x81, 0x08), (0x82, 0x0A), (0x83, 0x70)] }).modQ 14 fun x => { x with cfg := 0x00020023 }).modPmc fun p => { p with tag := upd p.tag 0 fun t => { t with ctl := 1, inFlight := true, seq := 65535 } } : State).que.q[(14 : Fin 32)].w32 = true) ∧ (((({ run0.modCore 0 fun k => { k with rc := 5 } with mem := [(0x80, 0x02), (0x81, 0x08), (0x82, 0x0A), (0x83, 0x70)] }).modQ 14 fun x => { x with cfg := 0x00020023 }).modPmc fun p => { p with tag := upd p.tag 0 fun t => { t with ctl := 1, inFlight := true, seq := 65535 } } : State).que.q[(14 : Fin 32)].ents.length + 8 ≤ ((({ run0.modCore 0 fun k => { k with rc := 5 } with mem := [(0x80, 0x02), (0x81, 0x08), (0x82, 0x0A), (0x83, 0x70)] }).modQ 14 fun x => { x with cfg := 0x00020023 }).modPmc fun p => { p with tag := upd p.tag 0 fun t => { t with ctl := 1, inFlight := true, seq := 65535 } } : State).que.q[(14 : Fin 32)].depth)) := by
  refine ⟨?_, ?_⟩ <;> decide +kernel

/-- What meets the hypotheses of DumpsAndTagsRecordTheCounters: one conjunct for each clause, in the order of its clauses. -/
theorem witness_DumpsAndTagsRecordTheCounters_5 :
    ((((({ run0.modCore 0 fun k => { k with rc := 5 } with mem := [(0x80, 0x02), (0x81, 0x08), (0x82, 0x0A), (0x83, 0x70)] }).modQ 14 fun x => { x with cfg := 0x00000022 }).modPmc fun p => { p with tag := upd p.tag 0 fun t => { t with ctl := 1, inFlight := true, seq := 65535 } } : State).pmc.tag[(0 : Fin 4)].inFlight = true) ∧ (fetches ((({ run0.modCore 0 fun k => { k with rc := 5 } with mem := [(0x80, 0x02), (0x81, 0x08), (0x82, 0x0A), (0x83, 0x70)] }).modQ 14 fun x => { x with cfg := 0x00000022 }).modPmc fun p => { p with tag := upd p.tag 0 fun t => { t with ctl := 1, inFlight := true, seq := 65535 } } : State) (0 : Fin 4) = true) ∧ (((({ run0.modCore 0 fun k => { k with rc := 5 } with mem := [(0x80, 0x02), (0x81, 0x08), (0x82, 0x0A), (0x83, 0x70)] }).modQ 14 fun x => { x with cfg := 0x00000022 }).modPmc fun p => { p with tag := upd p.tag 0 fun t => { t with ctl := 1, inFlight := true, seq := 65535 } } : State).core[(0 : Fin 4)].place 0 ((({ run0.modCore 0 fun k => { k with rc := 5 } with mem := [(0x80, 0x02), (0x81, 0x08), (0x82, 0x0A), (0x83, 0x70)] }).modQ 14 fun x => { x with cfg := 0x00000022 }).modPmc fun p => { p with tag := upd p.tag 0 fun t => { t with ctl := 1, inFlight := true, seq := 65535 } } : State).core[(0 : Fin 4)].pc 4 .fetch = .inr (0x80 : Nat)) ∧ (decodeWord (0 : Fin 4) (BitVec.ofNat 32 (memLoad ((({ run0.modCore 0 fun k => { k with rc := 5 } with mem := [(0x80, 0x02), (0x81, 0x08), (0x82, 0x0A), (0x83, 0x70)] }).modQ 14 fun x => { x with cfg := 0x00000022 }).modPmc fun p => { p with tag := upd p.tag 0 fun t => { t with ctl := 1, inFlight := true, seq := 65535 } } : State).mem (0x80 : Nat) 4)) = some (.add (0 : Fin 4) 14 (10 : BitVec 5) (1 : BitVec 5) (2 : BitVec 5))) ∧ (((({ run0.modCore 0 fun k => { k with rc := 5 } with mem := [(0x80, 0x02), (0x81, 0x08), (0x82, 0x0A), (0x83, 0x70)] }).modQ 14 fun x => { x with cfg := 0x00000022 }).modPmc fun p => { p with tag := upd p.tag 0 fun t => { t with ctl := 1, inFlight := true, seq := 65535 } } : State).que.q[(14 : Fin 32)].depth < ((({ run0.modCore 0 fun k => { k with rc := 5 } with mem := [(0x80, 0x02), (0x81, 0x08), (0x82, 0x0A), (0x83, 0x70)] }).modQ 14 fun x => { x with cfg := 0x00000022 }).modPmc fun p => { p with tag := upd p.tag 0 fun t => { t with ctl := 1, inFlight := true, seq := 65535 } } : State).que.q[(14 : Fin 32)].ents.length + 8)) ∧
    (((run0 : State).dumpDue = none ∨ (run0 : State).isUp 1 = false ∨ (run0 : State).sup.coreReset = true)) ∧
    (((run0 : State).pmc.busy = none ∨ (run0 : State).coreRuns = false)) := by
  refine ⟨?_, ?_, ?_⟩ <;> decide +kernel

/-- What meets the hypotheses of CanObjectCommandsAndSettings: one conjunct for each clause, in the order of its clauses. -/
theorem witness_CanObjectCommandsAndSettings_1 :
    ((canStore (run0.modNm 2 fun n => { n with ctl := 0 } : State) (islCan (2 : Fin 4).val) 3) ∧ ((canOf (run0.modNm 2 fun n => { n with ctl := 0 } : State) (2 : Fin 4)).mode = 0) ∧ ((canOf (run0.modNm 2 fun n => { n with ctl := 0 } : State) (2 : Fin 4)).bus = .off) ∧ (bit (run0.modNm 2 fun n => { n with ctl := 0 } : State).nm[(2 : Fin 4)].ctl 0 = false) ∧ (fld (0xFFFFFFFD : W32) 0 2 ≠ 0)) ∧
    ((canStore (((run0.modNm 2 fun n => { n with ctl := 0 }).modCan 2 fun k => { k with ctl := 0x11, bus := .busOff, tec := 256 }) : State) (islCan (2 : Fin 4).val) 3) ∧ ((canOf (((run0.modNm 2 fun n => { n with ctl := 0 }).modCan 2 fun k => { k with ctl := 0x11, bus := .busOff, tec := 256 }) : State) (2 : Fin 4)).mode ≠ 0) ∧ (((0x10 : W32) ^^^ (canOf (((run0.modNm 2 fun n => { n with ctl := 0 }).modCan 2 fun k => { k with ctl := 0x11, bus := .busOff, tec := 256 }) : State) (2 : Fin 4)).ctl) &&& 0xB0#32 = 0) ∧ (bit (((run0.modNm 2 fun n => { n with ctl := 0 }).modCan 2 fun k => { k with ctl := 0x11, bus := .busOff, tec := 256 }) : State).nm[(2 : Fin 4)].ctl 0 = false) ∧ (fld (0x10 : W32) 0 2 = 0) ∧ ((canOf (((run0.modNm 2 fun n => { n with ctl := 0 }).modCan 2 fun k => { k with ctl := 0x11, bus := .busOff, tec := 256 }) : State) (2 : Fin 4)).bus ≠ .rx ∧ (canOf (((run0.modNm 2 fun n => { n with ctl := 0 }).modCan 2 fun k => { k with ctl := 0x11, bus := .busOff, tec := 256 }) : State) (2 : Fin 4)).bus ≠ .tx)) ∧
    ((canStore (((run0.modNm 2 fun n => { n with ctl := 0 }).modCan 2 fun k => { k with ctl := 0x11, bus := .rx }) : State) (islCan (2 : Fin 4).val) 3) ∧ ((canOf (((run0.modNm 2 fun n => { n with ctl := 0 }).modCan 2 fun k => { k with ctl := 0x11, bus := .rx }) : State) (2 : Fin 4)).mode ≠ 0) ∧ (((0x50 : W32) ^^^ (canOf (((run0.modNm 2 fun n => { n with ctl := 0 }).modCan 2 fun k => { k with ctl := 0x11, bus := .rx }) : State) (2 : Fin 4)).ctl) &&& 0xB0#32 = 0) ∧ (bit (((run0.modNm 2 fun n => { n with ctl := 0 }).modCan 2 fun k => { k with ctl := 0x11, bus := .rx }) : State).nm[(2 : Fin 4)].ctl 0 = false) ∧ (fld (0x50 : W32) 0 2 = 0) ∧ ((canOf (((run0.modNm 2 fun n => { n with ctl := 0 }).modCan 2 fun k => { k with ctl := 0x11, bus := .rx }) : State) (2 : Fin 4)).bus = .rx ∨ (canOf (((run0.modNm 2 fun n => { n with ctl := 0 }).modCan 2 fun k => { k with ctl := 0x11, bus := .rx }) : State) (2 : Fin 4)).bus = .tx)) ∧
    ((canStore (((run0.modNm 2 fun n => { n with ctl := 0 }).modCan 2 fun k => { k with ctl := 0x10, bus := .tx, offPend := true }) : State) (islCan (2 : Fin 4).val) 3) ∧ ((canOf (((run0.modNm 2 fun n => { n with ctl := 0 }).modCan 2 fun k => { k with ctl := 0x10, bus := .tx, offPend := true }) : State) (2 : Fin 4)).mode = 0 ∨ ((0x53 : W32) ^^^ (canOf (((run0.modNm 2 fun n => { n with ctl := 0 }).modCan 2 fun k => { k with ctl := 0x10, bus := .tx, offPend := true }) : State) (2 : Fin 4)).ctl) &&& 0xB0#32 = 0) ∧ (bit (((run0.modNm 2 fun n => { n with ctl := 0 }).modCan 2 fun k => { k with ctl := 0x10, bus := .tx, offPend := true }) : State).nm[(2 : Fin 4)].ctl 0 = false) ∧ (fld (0x53 : W32) 0 2 ≠ 0) ∧ (fld (0x53 : W32) 0 2 ≠ (canOf (((run0.modNm 2 fun n => { n with ctl := 0 }).modCan 2 fun k => { k with ctl := 0x10, bus := .tx, offPend := true }) : State) (2 : Fin 4)).mode) ∧ ((canOf (((run0.modNm 2 fun n => { n with ctl := 0 }).modCan 2 fun k => { k with ctl := 0x10, bus := .tx, offPend := true }) : State) (2 : Fin 4)).bus ≠ .off)) ∧
    ((canStore (((run0.modNm 2 fun n => { n with trx := .normal }).modCan 2 fun k => { k with ctl := 0x11 }) : State) (islCan (2 : Fin 4).val) 3) ∧ ((canOf (((run0.modNm 2 fun n => { n with trx := .normal }).modCan 2 fun k => { k with ctl := 0x11 }) : State) (2 : Fin 4)).mode = 0 ∨ ((0xFFFFFF51 : W32) ^^^ (canOf (((run0.modNm 2 fun n => { n with trx := .normal }).modCan 2 fun k => { k with ctl := 0x11 }) : State) (2 : Fin 4)).ctl) &&& 0xB0#32 = 0) ∧ (fld (0xFFFFFF51 : W32) 0 2 = (canOf (((run0.modNm 2 fun n => { n with trx := .normal }).modCan 2 fun k => { k with ctl := 0x11 }) : State) (2 : Fin 4)).mode)) := by
  refine ⟨?_, ?_, ?_, ?_, ?_⟩ <;> decide +kernel

/-- What meets the hypotheses of CanObjectCommandsAndSettings: one conjunct for each clause, in the order of its clauses. -/
theorem witness_CanObjectCommandsAndSettings_2 :
    ((canStore (((run0.modNm 2 fun n => { n with trx := .normal }).modCan 2 fun k => { k with ctl := 0x11 }) : State) (islCan (2 : Fin 4).val) 3) ∧ (((canOf (((run0.modNm 2 fun n => { n with trx := .normal }).modCan 2 fun k => { k with ctl := 0x11 }) : State) (2 : Fin 4)).mode ≠ 0 ∧ ((0x01 : W32) ^^^ (canOf (((run0.modNm 2 fun n => { n with trx := .normal }).modCan 2 fun k => { k with ctl := 0x11 }) : State) (2 : Fin 4)).ctl) &&& 0xB0#32 ≠ 0) ∨ (bit (((run0.modNm 2 fun n => { n with trx := .normal }).modCan 2 fun k => { k with ctl := 0x11 }) : State).nm[(2 : Fin 4)].ctl 0 = true ∧ fld (0x01 : W32) 0 2 ≠ (canOf (((run0.modNm 2 fun n => { n with trx := .normal }).modCan 2 fun k => { k with ctl := 0x11 }) : State) (2 : Fin 4)).mode))) ∧
    ((canStore (run0 : State) (islCan (2 : Fin 4).val) 3) ∧ ((canOf (run0 : State) (2 : Fin 4)).mode = 0) ∧ (80 ≤ nbtClk (keep 0x7F7FFF1F (0x0F0F3E01 : W32))) ∧ (16 ≤ dbtClk (canOf (run0 : State) (2 : Fin 4)).dbt) ∧ (dbtClk (canOf (run0 : State) (2 : Fin 4)).dbt ≤ nbtClk (keep 0x7F7FFF1F (0x0F0F3E01 : W32)))) ∧
    ((canStore (run0 : State) (islCan (2 : Fin 4).val) 3) ∧ ((canOf (run0 : State) (2 : Fin 4)).mode = 0) ∧ (80 ≤ nbtClk (canOf (run0 : State) (2 : Fin 4)).nbt) ∧ (16 ≤ dbtClk (keep 0x0F0F1F1F (0x07071E00 : W32))) ∧ (dbtClk (keep 0x0F0F1F1F (0x07071E00 : W32)) ≤ nbtClk (canOf (run0 : State) (2 : Fin 4)).nbt)) ∧
    ((canStore (run0 : State) (islCan (2 : Fin 4).val) 3) ∧ ((canOf (run0 : State) (2 : Fin 4)).mode = 0)) ∧
    ((canStore (run0 : State) (islCan (2 : Fin 4).val) 3) ∧ ((canOf (run0 : State) (2 : Fin 4)).mode ≠ 0 ∨ ((0 : Fin 3) = 0 ∧ (nbtClk (keep 0x7F7FFF1F (0 : W32)) < 80 ∨ nbtClk (keep 0x7F7FFF1F (0 : W32)) < dbtClk (canOf (run0 : State) (2 : Fin 4)).dbt)) ∨ ((0 : Fin 3) = 1 ∧ (dbtClk (keep 0x0F0F1F1F (0 : W32)) < 16 ∨ nbtClk (canOf (run0 : State) (2 : Fin 4)).nbt < dbtClk (keep 0x0F0F1F1F (0 : W32)))))) ∧
    ((canStore (((run0.modNm 2 fun n => { n with trx := .normal }).modCan 2 fun k => { k with ages := 9, objs := upd k.objs 5 fun o => { o with ctl := 3, berr := 4, txs := .collide } }) : State) (islCan (2 : Fin 4).val) 3) ∧ ((canObj (((run0.modNm 2 fun n => { n with trx := .normal }).modCan 2 fun k => { k with ages := 9, objs := upd k.objs 5 fun o => { o with ctl := 3, berr := 4, txs := .collide } }) : State) (2 : Fin 4) (5 : Fin 128)).en = true) ∧ ((canObj (((run0.modNm 2 fun n => { n with trx := .normal }).modCan 2 fun k => { k with ages := 9, objs := upd k.objs 5 fun o => { o with ctl := 3, berr := 4, txs := .collide } }) : State) (2 : Fin 4) (5 : Fin 128)).dirTx = true) ∧ (bit (canObj (((run0.modNm 2 fun n => { n with trx := .normal }).modCan 2 fun k => { k with ages := 9, objs := upd k.objs 5 fun o => { o with ctl := 3, berr := 4, txs := .collide } }) : State) (2 : Fin 4) (5 : Fin 128)).buf[1] 4 = false ∨ ((canOf (((run0.modNm 2 fun n => { n with trx := .normal }).modCan 2 fun k => { k with ages := 9, objs := upd k.objs 5 fun o => { o with ctl := 3, berr := 4, txs := .collide } }) : State) (2 : Fin 4)).fdEn = true ∧ bit (canObj (((run0.modNm 2 fun n => { n with trx := .normal }).modCan 2 fun k => { k with ages := 9, objs := upd k.objs 5 fun o => { o with ctl := 3, berr := 4, txs := .collide } }) : State) (2 : Fin 4) (5 : Fin 128)).buf[0] 30 = false)) ∧ ((canObj (((run0.modNm 2 fun n => { n with trx := .normal }).modCan 2 fun k => { k with ages := 9, objs := upd k.objs 5 fun o => { o with ctl := 3, berr := 4, txs := .collide } }) : State) (2 : Fin 4) (5 : Fin 128)).busy = false)) := by
  refine ⟨?_, ?_, ?_, ?_, ?_, ?_⟩ <;> decide +kernel

/-- What meets the hypotheses of CanObjectCommandsAndSettings: one conjunct for each clause, in the order of its clauses. -/
theorem witness_CanObjectCommandsAndSettings_3 :
    ((canStore (((run0.modNm 2 fun n => { n with trx := .normal }).modCan 2 fun k => { k with objs := upd k.objs 5 fun o => { o with ctl := 3, txs := .active } }) : State) (islCan (2 : Fin 4).val) 3) ∧ ((canObj (((run0.modNm 2 fun n => { n with trx := .normal }).modCan 2 fun k => { k with objs := upd k.objs 5 fun o => { o with ctl := 3, txs := .active } }) : State) (2 : Fin 4) (5 : Fin 128)).en = true) ∧ ((canObj (((run0.modNm 2 fun n => { n with trx := .normal }).modCan 2 fun k => { k with objs := upd k.objs 5 fun o => { o with ctl := 3, txs := .active } }) : State) (2 : Fin 4) (5 : Fin 128)).dirTx = true) ∧ (bit (canObj (((run0.modNm 2 fun n => { n with trx := .normal }).modCan 2 fun k => { k with objs := upd k.objs 5 fun o => { o with ctl := 3, txs := .active } }) : State) (2 : Fin 4) (5 : Fin 128)).buf[1] 4 = false ∨ ((canOf (((run0.modNm 2 fun n => { n with trx := .normal }).modCan 2 fun k => { k with objs := upd k.objs 5 fun o => { o with ctl := 3, txs := .active } }) : State) (2 : Fin 4)).fdEn = true ∧ bit (canObj (((run0.modNm 2 fun n => { n with trx := .normal }).modCan 2 fun k => { k with objs := upd k.objs 5 fun o => { o with ctl := 3, txs := .active } }) : State) (2 : Fin 4) (5 : Fin 128)).buf[0] 30 = false)) ∧ ((canObj (((run0.modNm 2 fun n => { n with trx := .normal }).modCan 2 fun k => { k with objs := upd k.objs 5 fun o => { o with ctl := 3, txs := .active } }) : State) (2 : Fin 4) (5 : Fin 128)).busy = true)) ∧
    ((canStore (((run0.modNm 2 fun n => { n with trx := .normal }).modCan 2 fun k => { k with objs := upd k.objs 5 fun o => { o with ctl := 1 } }) : State) (islCan (2 : Fin 4).val) 3) ∧ ((canObj (((run0.modNm 2 fun n => { n with trx := .normal }).modCan 2 fun k => { k with objs := upd k.objs 5 fun o => { o with ctl := 1 } }) : State) (2 : Fin 4) (5 : Fin 128)).en = false ∨ (canObj (((run0.modNm 2 fun n => { n with trx := .normal }).modCan 2 fun k => { k with objs := upd k.objs 5 fun o => { o with ctl := 1 } }) : State) (2 : Fin 4) (5 : Fin 128)).dirTx = false ∨ (bit (canObj (((run0.modNm 2 fun n => { n with trx := .normal }).modCan 2 fun k => { k with objs := upd k.objs 5 fun o => { o with ctl := 1 } }) : State) (2 : Fin 4) (5 : Fin 128)).buf[1] 4 = true ∧ ((canOf (((run0.modNm 2 fun n => { n with trx := .normal }).modCan 2 fun k => { k with objs := upd k.objs 5 fun o => { o with ctl := 1 } }) : State) (2 : Fin 4)).fdEn = false ∨ bit (canObj (((run0.modNm 2 fun n => { n with trx := .normal }).modCan 2 fun k => { k with objs := upd k.objs 5 fun o => { o with ctl := 1 } }) : State) (2 : Fin 4) (5 : Fin 128)).buf[0] 30 = true)))) ∧
    ((canStore (((run0.modNm 2 fun n => { n with trx := .normal }).modCan 2 fun k => { k with objs := upd k.objs 5 fun o => { o with txs := .pending } }) : State) (islCan (2 : Fin 4).val) 3) ∧ ((canObj (((run0.modNm 2 fun n => { n with trx := .normal }).modCan 2 fun k => { k with objs := upd k.objs 5 fun o => { o with txs := .pending } }) : State) (2 : Fin 4) (5 : Fin 128)).txs = .pending)) ∧
    ((canStore (((run0.modNm 2 fun n => { n with trx := .normal }).modCan 2 fun k => { k with objs := upd k.objs 5 fun o => { o with txs := .active } }) : State) (islCan (2 : Fin 4).val) 3) ∧ ((canObj (((run0.modNm 2 fun n => { n with trx := .normal }).modCan 2 fun k => { k with objs := upd k.objs 5 fun o => { o with txs := .active } }) : State) (2 : Fin 4) (5 : Fin 128)).txs = .active)) ∧
    ((canStore (((run0.modNm 2 fun n => { n with trx := .normal }).modCan 2 fun k => { k with objs := upd k.objs 5 fun o => { o with txs := .done } }) : State) (islCan (2 : Fin 4).val) 3) ∧ ((canObj (((run0.modNm 2 fun n => { n with trx := .normal }).modCan 2 fun k => { k with objs := upd k.objs 5 fun o => { o with txs := .done } }) : State) (2 : Fin 4) (5 : Fin 128)).txs = .done)) ∧
    ((canStore (((run0.modNm 2 fun n => { n with trx := .normal }).modCan 2 fun k => { k with objs := upd k.objs 5 fun o => { o with txs := .failed } }) : State) (islCan (2 : Fin 4).val) 3) ∧ ((canObj (((run0.modNm 2 fun n => { n with trx := .normal }).modCan 2 fun k => { k with objs := upd k.objs 5 fun o => { o with txs := .failed } }) : State) (2 : Fin 4) (5 : Fin 128)).busy = false) ∧ ((canObj (((run0.modNm 2 fun n => { n with trx := .normal }).modCan 2 fun k => { k with objs := upd k.objs 5 fun o => { o with txs := .failed } }) : State) (2 : Fin 4) (5 : Fin 128)).txs ≠ .done)) := by
  refine ⟨?_, ?_, ?_, ?_, ?_, ?_⟩ <;> decide +kernel

/-- What meets the hypotheses of CanObjectCommandsAndSettings: one conjunct for each clause, in the order of its clauses. -/
theorem witness_CanObjectCommandsAndSettings_4 :
    ((canStore (((run0.modNm 2 fun n => { n with trx := .normal }).modCan 2 fun k => { k with objs := upd (upd k.objs 127 fun o => { o with txs := .pending }) 3 fun o => { o with txs := .active } }) : State) (islCan (2 : Fin 4).val) 3)) ∧
    ((canStore (((run0.modNm 2 fun n => { n with trx := .normal }).modCan 2 fun k => { k with objs := upd k.objs 5 fun o => { o with new := true, live := o.live.set 4 77 } }) : State) (islCan (2 : Fin 4).val) 3) ∧ ((canObj (((run0.modNm 2 fun n => { n with trx := .normal }).modCan 2 fun k => { k with objs := upd k.objs 5 fun o => { o with new := true, live := o.live.set 4 77 } }) : State) (2 : Fin 4) (5 : Fin 128)).dirTx = false)) ∧
    ((canStore (((run0.modNm 2 fun n => { n with trx := .normal }).modCan 2 fun k => { k with objs := upd k.objs 5 fun o => { o with ctl := 3 } }) : State) (islCan (2 : Fin 4).val) 3) ∧ ((canObj (((run0.modNm 2 fun n => { n with trx := .normal }).modCan 2 fun k => { k with objs := upd k.objs 5 fun o => { o with ctl := 3 } }) : State) (2 : Fin 4) (5 : Fin 128)).dirTx = true)) ∧
    ((canStore (((run0.modNm 2 fun n => { n with trx := .normal }).modCan 2 fun k => { k with objs := upd k.objs 5 fun o => { o with txs := .done, lost := true } }) : State) (islCan (2 : Fin 4).val) 3) ∧ ((canObj (((run0.modNm 2 fun n => { n with trx := .normal }).modCan 2 fun k => { k with objs := upd k.objs 5 fun o => { o with txs := .done, lost := true } }) : State) (2 : Fin 4) (5 : Fin 128)).busy = false)) ∧
    ((canStore (((run0.modNm 2 fun n => { n with trx := .normal }).modCan 2 fun k => { k with objs := upd k.objs 5 fun o => { o with txs := .active, lost := true } }) : State) (islCan (2 : Fin 4).val) 3) ∧ ((canObj (((run0.modNm 2 fun n => { n with trx := .normal }).modCan 2 fun k => { k with objs := upd k.objs 5 fun o => { o with txs := .active, lost := true } }) : State) (2 : Fin 4) (5 : Fin 128)).busy = true)) := by
  refine ⟨?_, ?_, ?_, ?_, ?_⟩ <;> decide +kernel

/-- What meets the hypotheses of CanTransmissionsAndErrors: one conjunct for each clause, in the order of its clauses. -/
theorem witness_CanTransmissionsAndErrors_1 :
    (((((run0.modNm 2 fun n => { n with trx := .normal }).modCan 2 fun k => { k with bus := .integrating }) : State).canUp (2 : Fin 4) = true) ∧ ((canOf (((run0.modNm 2 fun n => { n with trx := .normal }).modCan 2 fun k => { k with bus := .integrating }) : State) (2 : Fin 4)).bus = .integrating)) ∧
    (((((run0.modNm 2 fun n => { n with trx := .normal }).modCan 2 fun k => { k with ctl := 0x11, modeNow := 1, bus := .idle, objs := upd (upd k.objs 9 fun o => { o with txs := .pending, age := 1, buf := o.buf.set 0 0x08000000 }) 100 fun o => { o with txs := .pending, age := 2, buf := o.buf.set 0 0x04000000 } }) : State).canUp (2 : Fin 4) = true) ∧ ((canOf (((run0.modNm 2 fun n => { n with trx := .normal }).modCan 2 fun k => { k with ctl := 0x11, modeNow := 1, bus := .idle, objs := upd (upd k.objs 9 fun o => { o with txs := .pending, age := 1, buf := o.buf.set 0 0x08000000 }) 100 fun o => { o with txs := .pending, age := 2, buf := o.buf.set 0 0x04000000 } }) : State) (2 : Fin 4)).bus = .idle) ∧ ((canOf (((run0.modNm 2 fun n => { n with trx := .normal }).modCan 2 fun k => { k with ctl := 0x11, modeNow := 1, bus := .idle, objs := upd (upd k.objs 9 fun o => { o with txs := .pending, age := 1, buf := o.buf.set 0 0x08000000 }) 100 fun o => { o with txs := .pending, age := 2, buf := o.buf.set 0 0x04000000 } }) : State) (2 : Fin 4)).modeNow = 1) ∧ ((canOf (((run0.modNm 2 fun n => { n with trx := .normal }).modCan 2 fun k => { k with ctl := 0x11, modeNow := 1, bus := .idle, objs := upd (upd k.objs 9 fun o => { o with txs := .pending, age := 1, buf := o.buf.set 0 0x08000000 }) 100 fun o => { o with txs := .pending, age := 2, buf := o.buf.set 0 0x04000000 } }) : State) (2 : Fin 4)).pick = some (100 : Fin 128))) ∧
    (((((run0.modNm 2 fun n => { n with trx := .normal }).modCan 2 fun k => { k with ctl := 0x12, modeNow := 2, bus := .idle }) : State).canUp (2 : Fin 4) = true) ∧ ((((run0.modNm 2 fun n => { n with trx := .normal }).modCan 2 fun k => { k with ctl := 0x12, modeNow := 2, bus := .idle }) : State).trxRx (2 : Fin 4) = true) ∧ ((canOf (((run0.modNm 2 fun n => { n with trx := .normal }).modCan 2 fun k => { k with ctl := 0x12, modeNow := 2, bus := .idle }) : State) (2 : Fin 4)).bus = .idle) ∧ ((canOf (((run0.modNm 2 fun n => { n with trx := .normal }).modCan 2 fun k => { k with ctl := 0x12, modeNow := 2, bus := .idle }) : State) (2 : Fin 4)).modeNow ≠ 1 ∨ ∀ m : Fin 128, (canObj (((run0.modNm 2 fun n => { n with trx := .normal }).modCan 2 fun k => { k with ctl := 0x12, modeNow := 2, bus := .idle }) : State) (2 : Fin 4) m).txs ≠ .pending)) ∧
    (((canOf (((run0.modNm 2 fun n => { n with trx := .normal }).modCan 2 fun k => { k with bus := .rx }) : State) (2 : Fin 4)).bus ≠ .idle ∨ (((canOf (((run0.modNm 2 fun n => { n with trx := .normal }).modCan 2 fun k => { k with bus := .rx }) : State) (2 : Fin 4)).modeNow ≠ 1 ∨ ∀ m : Fin 128, (canObj (((run0.modNm 2 fun n => { n with trx := .normal }).modCan 2 fun k => { k with bus := .rx }) : State) (2 : Fin 4) m).txs ≠ .pending) ∧ ((true : Bool) = false ∨ (((run0.modNm 2 fun n => { n with trx := .normal }).modCan 2 fun k => { k with bus := .rx }) : State).trxRx (2 : Fin 4) = false)))) ∧
    (((((run0.modNm 2 fun n => { n with trx := .normal }).modCan 2 fun k => { k with bus := .tx, modeNow := 1, tdc := 1, act := some 5, tec := 96, ew := true, objs := upd k.objs 5 fun o => { o with buf := o.buf.set 1 0x30 } }) : State).isUp (5 + (2 : Fin 4).val) = true) ∧ ((((run0.modNm 2 fun n => { n with trx := .normal }).modCan 2 fun k => { k with bus := .tx, modeNow := 1, tdc := 1, act := some 5, tec := 96, ew := true, objs := upd k.objs 5 fun o => { o with buf := o.buf.set 1 0x30 } }) : State).trxTx (2 : Fin 4) = true) ∧ ((canOf (((run0.modNm 2 fun n => { n with trx := .normal }).modCan 2 fun k => { k with bus := .tx, modeNow := 1, tdc := 1, act := some 5, tec := 96, ew := true, objs := upd k.objs 5 fun o => { o with buf := o.buf.set 1 0x30 } }) : State) (2 : Fin 4)).act = some (5 : Fin 128))) ∧
    (((canOf (((run0).modCan 2 fun k => { k with act := some 5 }) : State) (2 : Fin 4)).act = none ∨ (((run0).modCan 2 fun k => { k with act := some 5 }) : State).trxTx (2 : Fin 4) = false)) := by
  refine ⟨?_, ?_, ?_, ?_, ?_, ?_⟩ <;> decide +kernel

/-- What meets the hypotheses of CanTransmissionsAndErrors: one conjunct for each clause, in the order of its clauses. -/
theorem witness_CanTransmissionsAndErrors_2 :
    (((((run0.modNm 2 fun n => { n with trx := .normal }).modCan 2 fun k => { k with bus := .tx, act := some 5, objs := upd k.objs 5 fun o => { o with txs := .active } }) : State).isUp (5 + (2 : Fin 4).val) = true) ∧ ((((run0.modNm 2 fun n => { n with trx := .normal }).modCan 2 fun k => { k with bus := .tx, act := some 5, objs := upd k.objs 5 fun o => { o with txs := .active } }) : State).trxRx (2 : Fin 4) = true) ∧ ((canOf (((run0.modNm 2 fun n => { n with trx := .normal }).modCan 2 fun k => { k with bus := .tx, act := some 5, objs := upd k.objs 5 fun o => { o with txs := .active } }) : State) (2 : Fin 4)).act = some (5 : Fin 128)) ∧ ((canObj (((run0.modNm 2 fun n => { n with trx := .normal }).modCan 2 fun k => { k with bus := .tx, act := some 5, objs := upd k.objs 5 fun o => { o with txs := .active } }) : State) (2 : Fin 4) (5 : Fin 128)).abortReq = false)) ∧
    (((((run0.modNm 2 fun n => { n with trx := .normal }).modCan 2 fun k => { k with bus := .tx, act := some 5, objs := upd k.objs 5 fun o => { o with txs := .active, abortReq := true } }) : State).isUp (5 + (2 : Fin 4).val) = true) ∧ ((((run0.modNm 2 fun n => { n with trx := .normal }).modCan 2 fun k => { k with bus := .tx, act := some 5, objs := upd k.objs 5 fun o => { o with txs := .active, abortReq := true } }) : State).trxRx (2 : Fin 4) = true) ∧ ((canOf (((run0.modNm 2 fun n => { n with trx := .normal }).modCan 2 fun k => { k with bus := .tx, act := some 5, objs := upd k.objs 5 fun o => { o with txs := .active, abortReq := true } }) : State) (2 : Fin 4)).act = some (5 : Fin 128)) ∧ ((canObj (((run0.modNm 2 fun n => { n with trx := .normal }).modCan 2 fun k => { k with bus := .tx, act := some 5, objs := upd k.objs 5 fun o => { o with txs := .active, abortReq := true } }) : State) (2 : Fin 4) (5 : Fin 128)).abortReq = true)) ∧
    (((((run0.modNm 2 fun n => { n with trx := .normal }).modCan 2 fun k => { k with bus := .rx, ctl := 0x11, modeNow := 1, rxc := 95 }) : State).isUp (5 + (2 : Fin 4).val) = true) ∧ ((canOf (((run0.modNm 2 fun n => { n with trx := .normal }).modCan 2 fun k => { k with bus := .rx, ctl := 0x11, modeNow := 1, rxc := 95 }) : State) (2 : Fin 4)).bus = .rx ∨ (canOf (((run0.modNm 2 fun n => { n with trx := .normal }).modCan 2 fun k => { k with bus := .rx, ctl := 0x11, modeNow := 1, rxc := 95 }) : State) (2 : Fin 4)).bus = .idle) ∧ ((canOf (((run0.modNm 2 fun n => { n with trx := .normal }).modCan 2 fun k => { k with bus := .rx, ctl := 0x11, modeNow := 1, rxc := 95 }) : State) (2 : Fin 4)).act = none) ∧ ((canOf (((run0.modNm 2 fun n => { n with trx := .normal }).modCan 2 fun k => { k with bus := .rx, ctl := 0x11, modeNow := 1, rxc := 95 }) : State) (2 : Fin 4)).tec + 8 < 256) ∧ ((canOf (((run0.modNm 2 fun n => { n with trx := .normal }).modCan 2 fun k => { k with bus := .rx, ctl := 0x11, modeNow := 1, rxc := 95 }) : State) (2 : Fin 4)).offPend = false) ∧ (0 < (6 : Fin 8).val ∧ (6 : Fin 8).val < 7)) := by
  refine ⟨?_, ?_, ?_⟩ <;> decide +kernel

/-- What meets the hypotheses of CanTransmissionsAndErrors: one conjunct for each clause, in the order of its clauses. -/
theorem witness_CanTransmissionsAndErrors_3 :
    (((((run0.modNm 2 fun n => { n with trx := .normal }).modCan 2 fun k => { k with bus := .tx, act := some 5, ctl := 0x11, modeNow := 1, tec := 90, objs := upd k.objs 5 fun o => { o with txs := .active, berr := 6 } }) : State).isUp (5 + (2 : Fin 4).val) = true) ∧ ((canOf (((run0.modNm 2 fun n => { n with trx := .normal }).modCan 2 fun k => { k with bus := .tx, act := some 5, ctl := 0x11, modeNow := 1, tec := 90, objs := upd k.objs 5 fun o => { o with txs := .active, berr := 6 } }) : State) (2 : Fin 4)).bus = .tx) ∧ ((canOf (((run0.modNm 2 fun n => { n with trx := .normal }).modCan 2 fun k => { k with bus := .tx, act := some 5, ctl := 0x11, modeNow := 1, tec := 90, objs := upd k.objs 5 fun o => { o with txs := .active, berr := 6 } }) : State) (2 : Fin 4)).act = some (5 : Fin 128)) ∧ ((canOf (((run0.modNm 2 fun n => { n with trx := .normal }).modCan 2 fun k => { k with bus := .tx, act := some 5, ctl := 0x11, modeNow := 1, tec := 90, objs := upd k.objs 5 fun o => { o with txs := .active, berr := 6 } }) : State) (2 : Fin 4)).tec + 8 < 256) ∧ ((canOf (((run0.modNm 2 fun n => { n with trx := .normal }).modCan 2 fun k => { k with bus := .tx, act := some 5, ctl := 0x11, modeNow := 1, tec := 90, objs := upd k.objs 5 fun o => { o with txs := .active, berr := 6 } }) : State) (2 : Fin 4)).offPend = false) ∧ ((canObj (((run0.modNm 2 fun n => { n with trx := .normal }).modCan 2 fun k => { k with bus := .tx, act := some 5, ctl := 0x11, modeNow := 1, tec := 90, objs := upd k.objs 5 fun o => { o with txs := .active, berr := 6 } }) : State) (2 : Fin 4) (5 : Fin 128)).abortReq = false) ∧ ((canObj (((run0.modNm 2 fun n => { n with trx := .normal }).modCan 2 fun k => { k with bus := .tx, act := some 5, ctl := 0x11, modeNow := 1, tec := 90, objs := upd k.objs 5 fun o => { o with txs := .active, berr := 6 } }) : State) (2 : Fin 4) (5 : Fin 128)).berr < 7) ∧ (0 < (2 : Fin 8).val ∧ (2 : Fin 8).val < 7)) ∧
    (((((run0.modNm 2 fun n => { n with trx := .normal }).modCan 2 fun k => { k with bus := .tx, act := some 5, ctl := 0x11, objs := upd k.objs 5 fun o => { o with txs := .active, berr := 7 } }) : State).isUp (5 + (2 : Fin 4).val) = true) ∧ ((canOf (((run0.modNm 2 fun n => { n with trx := .normal }).modCan 2 fun k => { k with bus := .tx, act := some 5, ctl := 0x11, objs := upd k.objs 5 fun o => { o with txs := .active, berr := 7 } }) : State) (2 : Fin 4)).bus = .tx) ∧ ((canOf (((run0.modNm 2 fun n => { n with trx := .normal }).modCan 2 fun k => { k with bus := .tx, act := some 5, ctl := 0x11, objs := upd k.objs 5 fun o => { o with txs := .active, berr := 7 } }) : State) (2 : Fin 4)).act = some (5 : Fin 128)) ∧ ((canObj (((run0.modNm 2 fun n => { n with trx := .normal }).modCan 2 fun k => { k with bus := .tx, act := some 5, ctl := 0x11, objs := upd k.objs 5 fun o => { o with txs := .active, berr := 7 } }) : State) (2 : Fin 4) (5 : Fin 128)).berr = 7) ∧ ((2 : Fin 8).val = 1 ∨ (2 : Fin 8).val = 2)) ∧
    (((((run0.modNm 2 fun n => { n with trx := .normal }).modCan 2 fun k => { k with bus := .tx, act := some 5, ctl := 0x11, modeNow := 1, tec := 248, objs := upd k.objs 5 fun o => { o with txs := .active } }) : State).isUp (5 + (2 : Fin 4).val) = true) ∧ ((canOf (((run0.modNm 2 fun n => { n with trx := .normal }).modCan 2 fun k => { k with bus := .tx, act := some 5, ctl := 0x11, modeNow := 1, tec := 248, objs := upd k.objs 5 fun o => { o with txs := .active } }) : State) (2 : Fin 4)).bus = .tx) ∧ ((canOf (((run0.modNm 2 fun n => { n with trx := .normal }).modCan 2 fun k => { k with bus := .tx, act := some 5, ctl := 0x11, modeNow := 1, tec := 248, objs := upd k.objs 5 fun o => { o with txs := .active } }) : State) (2 : Fin 4)).act = some (5 : Fin 128)) ∧ ((canOf (((run0.modNm 2 fun n => { n with trx := .normal }).modCan 2 fun k => { k with bus := .tx, act := some 5, ctl := 0x11, modeNow := 1, tec := 248, objs := upd k.objs 5 fun o => { o with txs := .active } }) : State) (2 : Fin 4)).modeNow = 1) ∧ (248 ≤ (canOf (((run0.modNm 2 fun n => { n with trx := .normal }).modCan 2 fun k => { k with bus := .tx, act := some 5, ctl := 0x11, modeNow := 1, tec := 248, objs := upd k.objs 5 fun o => { o with txs := .active } }) : State) (2 : Fin 4)).tec) ∧ ((canOf (((run0.modNm 2 fun n => { n with trx := .normal }).modCan 2 fun k => { k with bus := .tx, act := some 5, ctl := 0x11, modeNow := 1, tec := 248, objs := upd k.objs 5 fun o => { o with txs := .active } }) : State) (2 : Fin 4)).offPend = false) ∧ (0 < (3 : Fin 8).val ∧ (3 : Fin 8).val < 7)) := by
  refine ⟨?_, ?_, ?_⟩ <;> decide +kernel

/-- What meets the hypotheses of CanTransmissionsAndErrors: one conjunct for each clause, in the order of its clauses. -/
theorem witness_CanTransmissionsAndErrors_4 :
    (((((run0.modNm 2 fun n => { n with trx := .normal }).modCan 2 fun k => { k with bus := .rx, ctl := 0x11 }) : State).isUp (5 + (2 : Fin 4).val) = true) ∧ ((canOf (((run0.modNm 2 fun n => { n with trx := .normal }).modCan 2 fun k => { k with bus := .rx, ctl := 0x11 }) : State) (2 : Fin 4)).bus = .rx) ∧ ((canOf (((run0.modNm 2 fun n => { n with trx := .normal }).modCan 2 fun k => { k with bus := .rx, ctl := 0x11 }) : State) (2 : Fin 4)).act = none) ∧ (bit (canOf (((run0.modNm 2 fun n => { n with trx := .normal }).modCan 2 fun k => { k with bus := .rx, ctl := 0x11 }) : State) (2 : Fin 4)).ctl 7 = false) ∧ ((canOf (((run0.modNm 2 fun n => { n with trx := .normal }).modCan 2 fun k => { k with bus := .rx, ctl := 0x11 }) : State) (2 : Fin 4)).offPend = false)) ∧
    ((bit (canOf (((run0.modNm 2 fun n => { n with trx := .normal }).modCan 2 fun k => { k with bus := .rx, ctl := 0x91 }) : State) (2 : Fin 4)).ctl 7 = true)) ∧
    (((3 : Fin 8).val = 0 ∨ (canOf (((run0.modNm 2 fun n => { n with trx := .normal }).modCan 2 fun k => { k with bus := .busOff }) : State) (2 : Fin 4)).bus = .off ∨ (canOf (((run0.modNm 2 fun n => { n with trx := .normal }).modCan 2 fun k => { k with bus := .busOff }) : State) (2 : Fin 4)).bus = .busOff ∨ (canOf (((run0.modNm 2 fun n => { n with trx := .normal }).modCan 2 fun k => { k with bus := .busOff }) : State) (2 : Fin 4)).bus = .integrating)) ∧
    (((((run0.modNm 2 fun n => { n with trx := .normal }).modCan 2 fun k => { k with bus := .busOff, tec := 256, recov := 100 }) : State).isUp (5 + (2 : Fin 4).val) = true) ∧ ((canOf (((run0.modNm 2 fun n => { n with trx := .normal }).modCan 2 fun k => { k with bus := .busOff, tec := 256, recov := 100 }) : State) (2 : Fin 4)).bus = .busOff) ∧ (128 ≤ (canOf (((run0.modNm 2 fun n => { n with trx := .normal }).modCan 2 fun k => { k with bus := .busOff, tec := 256, recov := 100 }) : State) (2 : Fin 4)).recov + (28 : Nat))) ∧
    (((((run0.modNm 2 fun n => { n with trx := .normal }).modCan 2 fun k => { k with bus := .busOff, tec := 256, recov := 100 }) : State).isUp (5 + (2 : Fin 4).val) = true) ∧ ((canOf (((run0.modNm 2 fun n => { n with trx := .normal }).modCan 2 fun k => { k with bus := .busOff, tec := 256, recov := 100 }) : State) (2 : Fin 4)).bus = .busOff) ∧ ((canOf (((run0.modNm 2 fun n => { n with trx := .normal }).modCan 2 fun k => { k with bus := .busOff, tec := 256, recov := 100 }) : State) (2 : Fin 4)).recov + (27 : Nat) < 128)) ∧
    ((({ run0 with up := Vector.replicate 72 false } : State).canUp (1 : Fin 4) = false ∨ ({ run0 with up := Vector.replicate 72 false } : State).can[(1 : Fin 4)].bus ≠ .integrating)) ∧
    (((run0 : State).isUp (5 + (1 : Fin 4).val) = false ∨ (run0 : State).can[(1 : Fin 4)].bus ≠ .busOff)) ∧
    (((run0 : State).can[(1 : Fin 4)].act = none ∨ (run0 : State).isUp (5 + (1 : Fin 4).val) = false ∨ (run0 : State).trxRx (1 : Fin 4) = false)) := by
  refine ⟨?_, ?_, ?_, ?_, ?_, ?_, ?_, ?_⟩ <;> decide +kernel

/-- What meets the hypotheses of CanReceptionThroughFiltersAndGate: one conjunct for each clause, in the order of its clauses. -/
theorem witness_CanReceptionThroughFiltersAndGate_1 :
    (((((run0.modNm 2 fun n => { n with trx := .normal }).modCan 2 fun k => { k with bus := .rx, ctl := 0x11, modeNow := 1, rxc := 5 }) : State).canUp (2 : Fin 4) = true) ∧ ((((run0.modNm 2 fun n => { n with trx := .normal }).modCan 2 fun k => { k with bus := .rx, ctl := 0x11, modeNow := 1, rxc := 5 }) : State).trxRx (2 : Fin 4) = true) ∧ ((canOf (((run0.modNm 2 fun n => { n with trx := .normal }).modCan 2 fun k => { k with bus := .rx, ctl := 0x11, modeNow := 1, rxc := 5 }) : State) (2 : Fin 4)).bus = .rx ∨ (canOf (((run0.modNm 2 fun n => { n with trx := .normal }).modCan 2 fun k => { k with bus := .rx, ctl := 0x11, modeNow := 1, rxc := 5 }) : State) (2 : Fin 4)).bus = .idle) ∧ ((canOf (((run0.modNm 2 fun n => { n with trx := .normal }).modCan 2 fun k => { k with bus := .rx, ctl := 0x11, modeNow := 1, rxc := 5 }) : State) (2 : Fin 4)).fdEn = true ∨ bit (3 : W32) 4 = false) ∧ ((canOf (((run0.modNm 2 fun n => { n with trx := .normal }).modCan 2 fun k => { k with bus := .rx, ctl := 0x11, modeNow := 1, rxc := 5 }) : State) (2 : Fin 4)).filter (0x04000000 : W32) (3 : W32) = none)) ∧
    (((canOf (run0 : State) (2 : Fin 4)).bus ≠ .rx ∧ (canOf (run0 : State) (2 : Fin 4)).bus ≠ .idle ∨ ((canOf (run0 : State) (2 : Fin 4)).fdEn = false ∧ bit (3 : W32) 4 = true) ∨ (run0 : State).trxRx (2 : Fin 4) = false ∨ (run0 : State).canUp (2 : Fin 4) = false)) ∧
    (((((run0.modNm 2 fun n => { n with trx := .normal }).modCan 2 fun k => { k with bus := .rx, ctl := 0x11, modeNow := 1, flts := upd k.flts 7 fun _ => { mch := 0x04000000, mask := 0x1FFFFFFF, ctl := 0x10007 } }) : State).canUp (2 : Fin 4) = true) ∧ ((((run0.modNm 2 fun n => { n with trx := .normal }).modCan 2 fun k => { k with bus := .rx, ctl := 0x11, modeNow := 1, flts := upd k.flts 7 fun _ => { mch := 0x04000000, mask := 0x1FFFFFFF, ctl := 0x10007 } }) : State).trxRx (2 : Fin 4) = true) ∧ ((canOf (((run0.modNm 2 fun n => { n with trx := .normal }).modCan 2 fun k => { k with bus := .rx, ctl := 0x11, modeNow := 1, flts := upd k.flts 7 fun _ => { mch := 0x04000000, mask := 0x1FFFFFFF, ctl := 0x10007 } }) : State) (2 : Fin 4)).bus = .rx ∨ (canOf (((run0.modNm 2 fun n => { n with trx := .normal }).modCan 2 fun k => { k with bus := .rx, ctl := 0x11, modeNow := 1, flts := upd k.flts 7 fun _ => { mch := 0x04000000, mask := 0x1FFFFFFF, ctl := 0x10007 } }) : State) (2 : Fin 4)).bus = .idle) ∧ ((canOf (((run0.modNm 2 fun n => { n with trx := .normal }).modCan 2 fun k => { k with bus := .rx, ctl := 0x11, modeNow := 1, flts := upd k.flts 7 fun _ => { mch := 0x04000000, mask := 0x1FFFFFFF, ctl := 0x10007 } }) : State) (2 : Fin 4)).fdEn = true ∨ bit (3 : W32) 4 = false) ∧ ((canOf (((run0.modNm 2 fun n => { n with trx := .normal }).modCan 2 fun k => { k with bus := .rx, ctl := 0x11, modeNow := 1, flts := upd k.flts 7 fun _ => { mch := 0x04000000, mask := 0x1FFFFFFF, ctl := 0x10007 } }) : State) (2 : Fin 4)).filter (0x04000000 : W32) (3 : W32) = some (7 : Fin 32)) ∧ (fld (canOf (((run0.modNm 2 fun n => { n with trx := .normal }).modCan 2 fun k => { k with bus := .rx, ctl := 0x11, modeNow := 1, flts := upd k.flts 7 fun _ => { mch := 0x04000000, mask := 0x1FFFFFFF, ctl := 0x10007 } }) : State) (2 : Fin 4)).flts[(7 : Fin 32)].ctl 1 2 = 3)) := by
  refine ⟨?_, ?_, ?_⟩ <;> decide +kernel

theorem witness_CanReceptionThroughFiltersAndGate_2 :
    ((((run0.modNm 2 fun n => { n with trx := .normal }).modCan 2 fun k => { k with bus := .rx, ctl := 0x11, modeNow := 1, flts := upd k.flts 7 fun _ => { mch := 0x04000000, mask := 0x1FFFFFFF, ctl := 0x10003 } }) : State).canUp (2 : Fin 4) = true) ∧ ((((run0.modNm 2 fun n => { n with trx := .normal }).modCan 2 fun k => { k with bus := .rx, ctl := 0x11, modeNow := 1, flts := upd k.flts 7 fun _ => { mch := 0x04000000, mask := 0x1FFFFFFF, ctl := 0x10003 } }) : State).trxRx (2 : Fin 4) = true) ∧ ((canOf (((run0.modNm 2 fun n => { n with trx := .normal }).modCan 2 fun k => { k with bus := .rx, ctl := 0x11, modeNow := 1, flts := upd k.flts 7 fun _ => { mch := 0x04000000, mask := 0x1FFFFFFF, ctl := 0x10003 } }) : State) (2 : Fin 4)).bus = .rx ∨ (canOf (((run0.modNm 2 fun n => { n with trx := .normal }).modCan 2 fun k => { k with bus := .rx, ctl := 0x11, modeNow := 1, flts := upd k.flts 7 fun _ => { mch := 0x04000000, mask := 0x1FFFFFFF, ctl := 0x10003 } }) : State) (2 : Fin 4)).bus = .idle) ∧ ((canOf (((run0.modNm 2 fun n => { n with trx := .normal }).modCan 2 fun k => { k with bus := .rx, ctl := 0x11, modeNow := 1, flts := upd k.flts 7 fun _ => { mch := 0x04000000, mask := 0x1FFFFFFF, ctl := 0x10003 } }) : State) (2 : Fin 4)).fdEn = true ∨ bit (3 : W32) 4 = false) ∧ ((canOf (((run0.modNm 2 fun n => { n with trx := .normal }).modCan 2 fun k => { k with bus := .rx, ctl := 0x11, modeNow := 1, flts := upd k.flts 7 fun _ => { mch := 0x04000000, mask := 0x1FFFFFFF, ctl := 0x10003 } }) : State) (2 : Fin 4)).filter (0x04000000 : W32) (3 : W32) = some (7 : Fin 32)) ∧ (fld (canOf (((run0.modNm 2 fun n => { n with trx := .normal }).modCan 2 fun k => { k with bus := .rx, ctl := 0x11, modeNow := 1, flts := upd k.flts 7 fun _ => { mch := 0x04000000, mask := 0x1FFFFFFF, ctl := 0x10003 } }) : State) (2 : Fin 4)).flts[(7 : Fin 32)].ctl 1 2 = (1 : Fin 2).val) ∧ (bit (canOf (((run0.modNm 2 fun n => { n with trx := .normal }).modCan 2 fun k => { k with bus := .rx, ctl := 0x11, modeNow := 1, flts := upd k.flts 7 fun _ => { mch := 0x04000000, mask := 0x1FFFFFFF, ctl := 0x10003 } }) : State) (2 : Fin 4)).cmdgCfg 0 = false ∨ bit (canOf (((run0.modNm 2 fun n => { n with trx := .normal }).modCan 2 fun k => { k with bus := .rx, ctl := 0x11, modeNow := 1, flts := upd k.flts 7 fun _ => { mch := 0x04000000, mask := 0x1FFFFFFF, ctl := 0x10003 } }) : State) (2 : Fin 4)).flts[(7 : Fin 32)].ctl 3 = false) ∧ ((canQ (((run0.modNm 2 fun n => { n with trx := .normal }).modCan 2 fun k => { k with bus := .rx, ctl := 0x11, modeNow := 1, flts := upd k.flts 7 fun _ => { mch := 0x04000000, mask := 0x1FFFFFFF, ctl := 0x10003 } }) : State) (2 : Fin 4) (1 : Fin 2)).held.length < 32) := by decide +kernel

theorem witness_CanReceptionThroughFiltersAndGate_3 :
    ((((run0.modNm 2 fun n => { n with trx := .normal }).modCan 2 fun k => { k with bus := .rx, ctl := 0x11, modeNow := 1, flts := upd k.flts 7 fun _ => { mch := 0x04000000, mask := 0x1FFFFFFF, ctl := 0x10003 } }) : State).canUp (2 : Fin 4) = true) ∧ ((((run0.modNm 2 fun n => { n with trx := .normal }).modCan 2 fun k => { k with bus := .rx, ctl := 0x11, modeNow := 1, flts := upd k.flts 7 fun _ => { mch := 0x04000000, mask := 0x1FFFFFFF, ctl := 0x10003 } }) : State).trxRx (2 : Fin 4) = true) ∧ ((canOf (((run0.modNm 2 fun n => { n with trx := .normal }).modCan 2 fun k => { k with bus := .rx, ctl := 0x11, modeNow := 1, flts := upd k.flts 7 fun _ => { mch := 0x04000000, mask := 0x1FFFFFFF, ctl := 0x10003 } }) : State) (2 : Fin 4)).bus = .rx ∨ (canOf (((run0.modNm 2 fun n => { n with trx := .normal }).modCan 2 fun k => { k with bus := .rx, ctl := 0x11, modeNow := 1, flts := upd k.flts 7 fun _ => { mch := 0x04000000, mask := 0x1FFFFFFF, ctl := 0x10003 } }) : State) (2 : Fin 4)).bus = .idle) ∧ ((canOf (((run0.modNm 2 fun n => { n with trx := .normal }).modCan 2 fun k => { k with bus := .rx, ctl := 0x11, modeNow := 1, flts := upd k.flts 7 fun _ => { mch := 0x04000000, mask := 0x1FFFFFFF, ctl := 0x10003 } }) : State) (2 : Fin 4)).fdEn = true ∨ bit (3 : W32) 4 = false) ∧ ((canOf (((run0.modNm 2 fun n => { n with trx := .normal }).modCan 2 fun k => { k with bus := .rx, ctl := 0x11, modeNow := 1, flts := upd k.flts 7 fun _ => { mch := 0x04000000, mask := 0x1FFFFFFF, ctl := 0x10003 } }) : State) (2 : Fin 4)).filter (0x04000000 : W32) (3 : W32) = some (7 : Fin 32)) ∧ (fld (canOf (((run0.modNm 2 fun n => { n with trx := .normal }).modCan 2 fun k => { k with bus := .rx, ctl := 0x11, modeNow := 1, flts := upd k.flts 7 fun _ => { mch := 0x04000000, mask := 0x1FFFFFFF, ctl := 0x10003 } }) : State) (2 : Fin 4)).flts[(7 : Fin 32)].ctl 1 2 = (1 : Fin 2).val) ∧ (bit (canOf (((run0.modNm 2 fun n => { n with trx := .normal }).modCan 2 fun k => { k with bus := .rx, ctl := 0x11, modeNow := 1, flts := upd k.flts 7 fun _ => { mch := 0x04000000, mask := 0x1FFFFFFF, ctl := 0x10003 } }) : State) (2 : Fin 4)).cmdgCfg 0 = false ∨ bit (canOf (((run0.modNm 2 fun n => { n with trx := .normal }).modCan 2 fun k => { k with bus := .rx, ctl := 0x11, modeNow := 1, flts := upd k.flts 7 fun _ => { mch := 0x04000000, mask := 0x1FFFFFFF, ctl := 0x10003 } }) : State) (2 : Fin 4)).flts[(7 : Fin 32)].ctl 3 = false) ∧ ((canQ (((run0.modNm 2 fun n => { n with trx := .normal }).modCan 2 fun k => { k with bus := .rx, ctl := 0x11, modeNow := 1, flts := upd k.flts 7 fun _ => { mch := 0x04000000, mask := 0x1FFFFFFF, ctl := 0x10003 } }) : State) (2 : Fin 4) (1 : Fin 2)).held.length < 32) ∧ ((((run0.modNm 2 fun n => { n with trx := .normal }).modCan 2 fun k => { k with bus := .rx, ctl := 0x11, modeNow := 1, flts := upd k.flts 7 fun _ => { mch := 0x04000000, mask := 0x1FFFFFFF, ctl := 0x10003 } }) : State).coreRuns = true) ∧ ((rxQue (((run0.modNm 2 fun n => { n with trx := .normal }).modCan 2 fun k => { k with bus := .rx, ctl := 0x11, modeNow := 1, flts := upd k.flts 7 fun _ => { mch := 0x04000000, mask := 0x1FFFFFFF, ctl := 0x10003 } }) : State) (2 : Fin 4) (1 : Fin 2)).w32 = true) ∧ ((rxQue (((run0.modNm 2 fun n => { n with trx := .normal }).modCan 2 fun k => { k with bus := .rx, ctl := 0x11, modeNow := 1, flts := upd k.flts 7 fun _ => { mch := 0x04000000, mask := 0x1FFFFFFF, ctl := 0x10003 } }) : State) (2 : Fin 4) (1 : Fin 2)).ents.length < (rxQue (((run0.modNm 2 fun n => { n with trx := .normal }).modCan 2 fun k => { k with bus := .rx, ctl := 0x11, modeNow := 1, flts := upd k.flts 7 fun _ => { mch := 0x04000000, mask := 0x1FFFFFFF, ctl := 0x10003 } }) : State) (2 : Fin 4) (1 : Fin 2)).depth) := by decide +kernel

theorem witness_CanReceptionThroughFiltersAndGate_4 :
    ((((run0.modNm 2 fun n => { n with trx := .normal }).modCan 2 fun k => { k with bus := .rx, ctl := 0x11, modeNow := 1, flts := upd k.flts 7 fun _ => { mch := 0x04000000, mask := 0x1FFFFFFF, ctl := 0x10001 }, q := upd k.q 0 fun q => { q with held := List.replicate 32 FrameBuf.zero } }) : State).canUp (2 : Fin 4) = true) ∧ ((((run0.modNm 2 fun n => { n with trx := .normal }).modCan 2 fun k => { k with bus := .rx, ctl := 0x11, modeNow := 1, flts := upd k.flts 7 fun _ => { mch := 0x04000000, mask := 0x1FFFFFFF, ctl := 0x10001 }, q := upd k.q 0 fun q => { q with held := List.replicate 32 FrameBuf.zero } }) : State).trxRx (2 : Fin 4) = true) ∧ ((canOf (((run0.modNm 2 fun n => { n with trx := .normal }).modCan 2 fun k => { k with bus := .rx, ctl := 0x11, modeNow := 1, flts := upd k.flts 7 fun _ => { mch := 0x04000000, mask := 0x1FFFFFFF, ctl := 0x10001 }, q := upd k.q 0 fun q => { q with held := List.replicate 32 FrameBuf.zero } }) : State) (2 : Fin 4)).bus = .rx ∨ (canOf (((run0.modNm 2 fun n => { n with trx := .normal }).modCan 2 fun k => { k with bus := .rx, ctl := 0x11, modeNow := 1, flts := upd k.flts 7 fun _ => { mch := 0x04000000, mask := 0x1FFFFFFF, ctl := 0x10001 }, q := upd k.q 0 fun q => { q with held := List.replicate 32 FrameBuf.zero } }) : State) (2 : Fin 4)).bus = .idle) ∧ ((canOf (((run0.modNm 2 fun n => { n with trx := .normal }).modCan 2 fun k => { k with bus := .rx, ctl := 0x11, modeNow := 1, flts := upd k.flts 7 fun _ => { mch := 0x04000000, mask := 0x1FFFFFFF, ctl := 0x10001 }, q := upd k.q 0 fun q => { q with held := List.replicate 32 FrameBuf.zero } }) : State) (2 : Fin 4)).fdEn = true ∨ bit (3 : W32) 4 = false) ∧ ((canOf (((run0.modNm 2 fun n => { n with trx := .normal }).modCan 2 fun k => { k with bus := .rx, ctl := 0x11, modeNow := 1, flts := upd k.flts 7 fun _ => { mch := 0x04000000, mask := 0x1FFFFFFF, ctl := 0x10001 }, q := upd k.q 0 fun q => { q with held := List.replicate 32 FrameBuf.zero } }) : State) (2 : Fin 4)).filter (0x04000000 : W32) (3 : W32) = some (7 : Fin 32)) ∧ (fld (canOf (((run0.modNm 2 fun n => { n with trx := .normal }).modCan 2 fun k => { k with bus := .rx, ctl := 0x11, modeNow := 1, flts := upd k.flts 7 fun _ => { mch := 0x04000000, mask := 0x1FFFFFFF, ctl := 0x10001 }, q := upd k.q 0 fun q => { q with held := List.replicate 32 FrameBuf.zero } }) : State) (2 : Fin 4)).flts[(7 : Fin 32)].ctl 1 2 = (0 : Fin 2).val) ∧ (bit (canOf (((run0.modNm 2 fun n => { n with trx := .normal }).modCan 2 fun k => { k with bus := .rx, ctl := 0x11, modeNow := 1, flts := upd k.flts 7 fun _ => { mch := 0x04000000, mask := 0x1FFFFFFF, ctl := 0x10001 }, q := upd k.q 0 fun q => { q with held := List.replicate 32 FrameBuf.zero } }) : State) (2 : Fin 4)).cmdgCfg 0 = false ∨ bit (canOf (((run0.modNm 2 fun n => { n with trx := .normal }).modCan 2 fun k => { k with bus := .rx, ctl := 0x11, modeNow := 1, flts := upd k.flts 7 fun _ => { mch := 0x04000000, mask := 0x1FFFFFFF, ctl := 0x10001 }, q := upd k.q 0 fun q => { q with held := List.replicate 32 FrameBuf.zero } }) : State) (2 : Fin 4)).flts[(7 : Fin 32)].ctl 3 = false) ∧ (32 ≤ (canQ (((run0.modNm 2 fun n => { n with trx := .normal }).modCan 2 fun k => { k with bus := .rx, ctl := 0x11, modeNow := 1, flts := upd k.flts 7 fun _ => { mch := 0x04000000, mask := 0x1FFFFFFF, ctl := 0x10001 }, q := upd k.q 0 fun q => { q with held := List.replicate 32 FrameBuf.zero } }) : State) (2 : Fin 4) (0 : Fin 2)).held.length) := by decide +kernel

theorem witness_CanReceptionThroughFiltersAndGate_5 :
    ((((run0.modNm 2 fun n => { n with trx := .normal }).modCan 2 fun k => { k with bus := .rx, ctl := 0x11, modeNow := 1, flts := upd k.flts 7 fun _ => { mch := 0x04000000, mask := 0x1FFFFFFF, ctl := 0x10505 }, objs := upd k.objs 5 fun o => { o with ctl := 1 } }) : State).canUp (2 : Fin 4) = true) ∧ ((((run0.modNm 2 fun n => { n with trx := .normal }).modCan 2 fun k => { k with bus := .rx, ctl := 0x11, modeNow := 1, flts := upd k.flts 7 fun _ => { mch := 0x04000000, mask := 0x1FFFFFFF, ctl := 0x10505 }, objs := upd k.objs 5 fun o => { o with ctl := 1 } }) : State).trxRx (2 : Fin 4) = true) ∧ ((canOf (((run0.modNm 2 fun n => { n with trx := .normal }).modCan 2 fun k => { k with bus := .rx, ctl := 0x11, modeNow := 1, flts := upd k.flts 7 fun _ => { mch := 0x04000000, mask := 0x1FFFFFFF, ctl := 0x10505 }, objs := upd k.objs 5 fun o => { o with ctl := 1 } }) : State) (2 : Fin 4)).bus = .rx ∨ (canOf (((run0.modNm 2 fun n => { n with trx := .normal }).modCan 2 fun k => { k with bus := .rx, ctl := 0x11, modeNow := 1, flts := upd k.flts 7 fun _ => { mch := 0x04000000, mask := 0x1FFFFFFF, ctl := 0x10505 }, objs := upd k.objs 5 fun o => { o with ctl := 1 } }) : State) (2 : Fin 4)).bus = .idle) ∧ ((canOf (((run0.modNm 2 fun n => { n with trx := .normal }).modCan 2 fun k => { k with bus := .rx, ctl := 0x11, modeNow := 1, flts := upd k.flts 7 fun _ => { mch := 0x04000000, mask := 0x1FFFFFFF, ctl := 0x10505 }, objs := upd k.objs 5 fun o => { o with ctl := 1 } }) : State) (2 : Fin 4)).fdEn = true ∨ bit (3 : W32) 4 = false) ∧ ((canOf (((run0.modNm 2 fun n => { n with trx := .normal }).modCan 2 fun k => { k with bus := .rx, ctl := 0x11, modeNow := 1, flts := upd k.flts 7 fun _ => { mch := 0x04000000, mask := 0x1FFFFFFF, ctl := 0x10505 }, objs := upd k.objs 5 fun o => { o with ctl := 1 } }) : State) (2 : Fin 4)).filter (0x04000000 : W32) (3 : W32) = some (7 : Fin 32)) ∧ (fld (canOf (((run0.modNm 2 fun n => { n with trx := .normal }).modCan 2 fun k => { k with bus := .rx, ctl := 0x11, modeNow := 1, flts := upd k.flts 7 fun _ => { mch := 0x04000000, mask := 0x1FFFFFFF, ctl := 0x10505 }, objs := upd k.objs 5 fun o => { o with ctl := 1 } }) : State) (2 : Fin 4)).flts[(7 : Fin 32)].ctl 1 2 = 2) ∧ (fld (canOf (((run0.modNm 2 fun n => { n with trx := .normal }).modCan 2 fun k => { k with bus := .rx, ctl := 0x11, modeNow := 1, flts := upd k.flts 7 fun _ => { mch := 0x04000000, mask := 0x1FFFFFFF, ctl := 0x10505 }, objs := upd k.objs 5 fun o => { o with ctl := 1 } }) : State) (2 : Fin 4)).flts[(7 : Fin 32)].ctl 8 7 = (5 : Fin 128).val) ∧ ((canObj (((run0.modNm 2 fun n => { n with trx := .normal }).modCan 2 fun k => { k with bus := .rx, ctl := 0x11, modeNow := 1, flts := upd k.flts 7 fun _ => { mch := 0x04000000, mask := 0x1FFFFFFF, ctl := 0x10505 }, objs := upd k.objs 5 fun o => { o with ctl := 1 } }) : State) (2 : Fin 4) (5 : Fin 128)).en = true) ∧ ((canObj (((run0.modNm 2 fun n => { n with trx := .normal }).modCan 2 fun k => { k with bus := .rx, ctl := 0x11, modeNow := 1, flts := upd k.flts 7 fun _ => { mch := 0x04000000, mask := 0x1FFFFFFF, ctl := 0x10505 }, objs := upd k.objs 5 fun o => { o with ctl := 1 } }) : State) (2 : Fin 4) (5 : Fin 128)).dirTx = false) := by decide +kernel

/-- What meets the hypotheses of CanReceptionThroughFiltersAndGate: one conjunct for each clause, in the order of its clauses. -/
theorem witness_CanReceptionThroughFiltersAndGate_6 :
    (((((run0.modNm 2 fun n => { n with trx := .normal }).modCan 2 fun k => { k with bus := .rx, ctl := 0x11, modeNow := 1, flts := upd k.flts 7 fun _ => { mch := 0x04000000, mask := 0x1FFFFFFF, ctl := 0x10505 } }) : State).canUp (2 : Fin 4) = true) ∧ ((((run0.modNm 2 fun n => { n with trx := .normal }).modCan 2 fun k => { k with bus := .rx, ctl := 0x11, modeNow := 1, flts := upd k.flts 7 fun _ => { mch := 0x04000000, mask := 0x1FFFFFFF, ctl := 0x10505 } }) : State).trxRx (2 : Fin 4) = true) ∧ ((canOf (((run0.modNm 2 fun n => { n with trx := .normal }).modCan 2 fun k => { k with bus := .rx, ctl := 0x11, modeNow := 1, flts := upd k.flts 7 fun _ => { mch := 0x04000000, mask := 0x1FFFFFFF, ctl := 0x10505 } }) : State) (2 : Fin 4)).bus = .rx ∨ (canOf (((run0.modNm 2 fun n => { n with trx := .normal }).modCan 2 fun k => { k with bus := .rx, ctl := 0x11, modeNow := 1, flts := upd k.flts 7 fun _ => { mch := 0x04000000, mask := 0x1FFFFFFF, ctl := 0x10505 } }) : State) (2 : Fin 4)).bus = .idle) ∧ ((canOf (((run0.modNm 2 fun n => { n with trx := .normal }).modCan 2 fun k => { k with bus := .rx, ctl := 0x11, modeNow := 1, flts := upd k.flts 7 fun _ => { mch := 0x04000000, mask := 0x1FFFFFFF, ctl := 0x10505 } }) : State) (2 : Fin 4)).fdEn = true ∨ bit (3 : W32) 4 = false) ∧ ((canOf (((run0.modNm 2 fun n => { n with trx := .normal }).modCan 2 fun k => { k with bus := .rx, ctl := 0x11, modeNow := 1, flts := upd k.flts 7 fun _ => { mch := 0x04000000, mask := 0x1FFFFFFF, ctl := 0x10505 } }) : State) (2 : Fin 4)).filter (0x04000000 : W32) (3 : W32) = some (7 : Fin 32)) ∧ (fld (canOf (((run0.modNm 2 fun n => { n with trx := .normal }).modCan 2 fun k => { k with bus := .rx, ctl := 0x11, modeNow := 1, flts := upd k.flts 7 fun _ => { mch := 0x04000000, mask := 0x1FFFFFFF, ctl := 0x10505 } }) : State) (2 : Fin 4)).flts[(7 : Fin 32)].ctl 1 2 = 2) ∧ (fld (canOf (((run0.modNm 2 fun n => { n with trx := .normal }).modCan 2 fun k => { k with bus := .rx, ctl := 0x11, modeNow := 1, flts := upd k.flts 7 fun _ => { mch := 0x04000000, mask := 0x1FFFFFFF, ctl := 0x10505 } }) : State) (2 : Fin 4)).flts[(7 : Fin 32)].ctl 8 7 = (5 : Fin 128).val) ∧ ((canObj (((run0.modNm 2 fun n => { n with trx := .normal }).modCan 2 fun k => { k with bus := .rx, ctl := 0x11, modeNow := 1, flts := upd k.flts 7 fun _ => { mch := 0x04000000, mask := 0x1FFFFFFF, ctl := 0x10505 } }) : State) (2 : Fin 4) (5 : Fin 128)).en = false ∨ (canObj (((run0.modNm 2 fun n => { n with trx := .normal }).modCan 2 fun k => { k with bus := .rx, ctl := 0x11, modeNow := 1, flts := upd k.flts 7 fun _ => { mch := 0x04000000, mask := 0x1FFFFFFF, ctl := 0x10505 } }) : State) (2 : Fin 4) (5 : Fin 128)).dirTx = true)) ∧
    ((canStore (((run0.modNm 2 fun n => { n with trx := .normal }).modCan 2 fun k => { k with q := upd k.q 1 fun q => { q with held := [rxBuf 0 0 [] 0 255 0, rxBuf 0 0 [] 0 0 0] } }) : State) (islCan (2 : Fin 4).val) 3) ∧ ((canQ (((run0.modNm 2 fun n => { n with trx := .normal }).modCan 2 fun k => { k with q := upd k.q 1 fun q => { q with held := [rxBuf 0 0 [] 0 255 0, rxBuf 0 0 [] 0 0 0] } }) : State) (2 : Fin 4) (1 : Fin 2)).held = (rxBuf 0 0 [] 0 255 0 : FrameBuf) :: ([rxBuf 0 0 [] 0 0 0] : List FrameBuf)) ∧ (((0 : W8).toNat + 256 - fld (rxBuf 0 0 [] 0 255 0 : FrameBuf)[1] 16 8) % 256 < (canQ (((run0.modNm 2 fun n => { n with trx := .normal }).modCan 2 fun k => { k with q := upd k.q 1 fun q => { q with held := [rxBuf 0 0 [] 0 255 0, rxBuf 0 0 [] 0 0 0] } }) : State) (2 : Fin 4) (1 : Fin 2)).held.length)) ∧
    ((canStore (((run0.modNm 2 fun n => { n with trx := .normal }).modCan 2 fun k => { k with q := upd k.q 1 fun q => { q with held := [rxBuf 0 0 [] 0 255 0] } }) : State) (islCan (2 : Fin 4).val) 3) ∧ ((canQ (((run0.modNm 2 fun n => { n with trx := .normal }).modCan 2 fun k => { k with q := upd k.q 1 fun q => { q with held := [rxBuf 0 0 [] 0 255 0] } }) : State) (2 : Fin 4) (1 : Fin 2)).held = (rxBuf 0 0 [] 0 255 0 : FrameBuf) :: ([] : List FrameBuf)) ∧ ((canQ (((run0.modNm 2 fun n => { n with trx := .normal }).modCan 2 fun k => { k with q := upd k.q 1 fun q => { q with held := [rxBuf 0 0 [] 0 255 0] } }) : State) (2 : Fin 4) (1 : Fin 2)).held.length ≤ ((0 : W8).toNat + 256 - fld (rxBuf 0 0 [] 0 255 0 : FrameBuf)[1] 16 8) % 256)) ∧
    ((canStore (run0 : State) (islCan (2 : Fin 4).val) 3) ∧ ((canQ (run0 : State) (2 : Fin 4) (1 : Fin 2)).held = [])) := by
  refine ⟨?_, ?_, ?_, ?_⟩ <;> decide +kernel

/-- What meets the hypotheses of CanReceptionThroughFiltersAndGate: one conjunct for each clause, in the order of its clauses. -/
theorem witness_CanReceptionThroughFiltersAndGate_7 :
    ((canStore (((run0.modNm 2 fun n => { n with trx := .normal }).modCan 2 fun k => { k with q := upd k.q 1 fun q => { q with held := [rxBuf 0 0 [] 0 255 0] } }) : State) (islCan (2 : Fin 4).val) 3)) ∧
    ((canStore (((run0.modNm 2 fun n => { n with trx := .normal }).modCan 2 fun k => { k with gate := Vector.replicate 64 (some 3) }) : State) (islCan (2 : Fin 4).val) 3)) ∧
    (((((run0.modNm 2 fun n => { n with trx := .normal }).modCan 2 fun k => { k with bus := .rx, ctl := 0x11, modeNow := 1, flts := upd k.flts 7 fun _ => { mch := 0x04000000, mask := 0x1FFFFFFF, ctl := 0x10009 }, cmdgCfg := 0x002A0501 }) : State).canUp (2 : Fin 4) = true) ∧ ((((run0.modNm 2 fun n => { n with trx := .normal }).modCan 2 fun k => { k with bus := .rx, ctl := 0x11, modeNow := 1, flts := upd k.flts 7 fun _ => { mch := 0x04000000, mask := 0x1FFFFFFF, ctl := 0x10009 }, cmdgCfg := 0x002A0501 }) : State).trxRx (2 : Fin 4) = true) ∧ ((canOf (((run0.modNm 2 fun n => { n with trx := .normal }).modCan 2 fun k => { k with bus := .rx, ctl := 0x11, modeNow := 1, flts := upd k.flts 7 fun _ => { mch := 0x04000000, mask := 0x1FFFFFFF, ctl := 0x10009 }, cmdgCfg := 0x002A0501 }) : State) (2 : Fin 4)).bus = .rx ∨ (canOf (((run0.modNm 2 fun n => { n with trx := .normal }).modCan 2 fun k => { k with bus := .rx, ctl := 0x11, modeNow := 1, flts := upd k.flts 7 fun _ => { mch := 0x04000000, mask := 0x1FFFFFFF, ctl := 0x10009 }, cmdgCfg := 0x002A0501 }) : State) (2 : Fin 4)).bus = .idle) ∧ ((canOf (((run0.modNm 2 fun n => { n with trx := .normal }).modCan 2 fun k => { k with bus := .rx, ctl := 0x11, modeNow := 1, flts := upd k.flts 7 fun _ => { mch := 0x04000000, mask := 0x1FFFFFFF, ctl := 0x10009 }, cmdgCfg := 0x002A0501 }) : State) (2 : Fin 4)).fdEn = true ∨ bit (2 : W32) 4 = false) ∧ ((canOf (((run0.modNm 2 fun n => { n with trx := .normal }).modCan 2 fun k => { k with bus := .rx, ctl := 0x11, modeNow := 1, flts := upd k.flts 7 fun _ => { mch := 0x04000000, mask := 0x1FFFFFFF, ctl := 0x10009 }, cmdgCfg := 0x002A0501 }) : State) (2 : Fin 4)).filter (0x04000000 : W32) (2 : W32) = some (7 : Fin 32)) ∧ (fld (canOf (((run0.modNm 2 fun n => { n with trx := .normal }).modCan 2 fun k => { k with bus := .rx, ctl := 0x11, modeNow := 1, flts := upd k.flts 7 fun _ => { mch := 0x04000000, mask := 0x1FFFFFFF, ctl := 0x10009 }, cmdgCfg := 0x002A0501 }) : State) (2 : Fin 4)).flts[(7 : Fin 32)].ctl 1 2 = (0 : Fin 2).val) ∧ (bit (canOf (((run0.modNm 2 fun n => { n with trx := .normal }).modCan 2 fun k => { k with bus := .rx, ctl := 0x11, modeNow := 1, flts := upd k.flts 7 fun _ => { mch := 0x04000000, mask := 0x1FFFFFFF, ctl := 0x10009 }, cmdgCfg := 0x002A0501 }) : State) (2 : Fin 4)).cmdgCfg 0 = true) ∧ (bit (canOf (((run0.modNm 2 fun n => { n with trx := .normal }).modCan 2 fun k => { k with bus := .rx, ctl := 0x11, modeNow := 1, flts := upd k.flts 7 fun _ => { mch := 0x04000000, mask := 0x1FFFFFFF, ctl := 0x10009 }, cmdgCfg := 0x002A0501 }) : State) (2 : Fin 4)).flts[(7 : Fin 32)].ctl 3 = true) ∧ (frameLen (0x04000000 : W32) (2 : W32) < 3)) := by
  refine ⟨?_, ?_, ?_⟩ <;> decide +kernel

theorem witness_CanReceptionThroughFiltersAndGate_8 :
    ((((run0.modNm 2 fun n => { n with trx := .normal }).modCan 2 fun k => { k with bus := .rx, ctl := 0x11, modeNow := 1, flts := upd k.flts 7 fun _ => { mch := 0x04000000, mask := 0x1FFFFFFF, ctl := 0x10009 }, cmdgCfg := 0x002A0501 }) : State).canUp (2 : Fin 4) = true) ∧ ((((run0.modNm 2 fun n => { n with trx := .normal }).modCan 2 fun k => { k with bus := .rx, ctl := 0x11, modeNow := 1, flts := upd k.flts 7 fun _ => { mch := 0x04000000, mask := 0x1FFFFFFF, ctl := 0x10009 }, cmdgCfg := 0x002A0501 }) : State).trxRx (2 : Fin 4) = true) ∧ ((canOf (((run0.modNm 2 fun n => { n with trx := .normal }).modCan 2 fun k => { k with bus := .rx, ctl := 0x11, modeNow := 1, flts := upd k.flts 7 fun _ => { mch := 0x04000000, mask := 0x1FFFFFFF, ctl := 0x10009 }, cmdgCfg := 0x002A0501 }) : State) (2 : Fin 4)).bus = .rx ∨ (canOf (((run0.modNm 2 fun n => { n with trx := .normal }).modCan 2 fun k => { k with bus := .rx, ctl := 0x11, modeNow := 1, flts := upd k.flts 7 fun _ => { mch := 0x04000000, mask := 0x1FFFFFFF, ctl := 0x10009 }, cmdgCfg := 0x002A0501 }) : State) (2 : Fin 4)).bus = .idle) ∧ ((canOf (((run0.modNm 2 fun n => { n with trx := .normal }).modCan 2 fun k => { k with bus := .rx, ctl := 0x11, modeNow := 1, flts := upd k.flts 7 fun _ => { mch := 0x04000000, mask := 0x1FFFFFFF, ctl := 0x10009 }, cmdgCfg := 0x002A0501 }) : State) (2 : Fin 4)).fdEn = true ∨ bit (3 : W32) 4 = false) ∧ ((canOf (((run0.modNm 2 fun n => { n with trx := .normal }).modCan 2 fun k => { k with bus := .rx, ctl := 0x11, modeNow := 1, flts := upd k.flts 7 fun _ => { mch := 0x04000000, mask := 0x1FFFFFFF, ctl := 0x10009 }, cmdgCfg := 0x002A0501 }) : State) (2 : Fin 4)).filter (0x04000000 : W32) (3 : W32) = some (7 : Fin 32)) ∧ (fld (canOf (((run0.modNm 2 fun n => { n with trx := .normal }).modCan 2 fun k => { k with bus := .rx, ctl := 0x11, modeNow := 1, flts := upd k.flts 7 fun _ => { mch := 0x04000000, mask := 0x1FFFFFFF, ctl := 0x10009 }, cmdgCfg := 0x002A0501 }) : State) (2 : Fin 4)).flts[(7 : Fin 32)].ctl 1 2 = (0 : Fin 2).val) ∧ (bit (canOf (((run0.modNm 2 fun n => { n with trx := .normal }).modCan 2 fun k => { k with bus := .rx, ctl := 0x11, modeNow := 1, flts := upd k.flts 7 fun _ => { mch := 0x04000000, mask := 0x1FFFFFFF, ctl := 0x10009 }, cmdgCfg := 0x002A0501 }) : State) (2 : Fin 4)).cmdgCfg 0 = true) ∧ (bit (canOf (((run0.modNm 2 fun n => { n with trx := .normal }).modCan 2 fun k => { k with bus := .rx, ctl := 0x11, modeNow := 1, flts := upd k.flts 7 fun _ => { mch := 0x04000000, mask := 0x1FFFFFFF, ctl := 0x10009 }, cmdgCfg := 0x002A0501 }) : State) (2 : Fin 4)).flts[(7 : Fin 32)].ctl 3 = true) ∧ (3 ≤ frameLen (0x04000000 : W32) (3 : W32)) ∧ ((([1, 2, 3] : List W8).getD 0 0).toNat % 64 = (1 : Fin 64).val) ∧ (([1, 2, 3] : List W8).getD 1 0 = (2 : W8)) ∧ ((canOf (((run0.modNm 2 fun n => { n with trx := .normal }).modCan 2 fun k => { k with bus := .rx, ctl := 0x11, modeNow := 1, flts := upd k.flts 7 fun _ => { mch := 0x04000000, mask := 0x1FFFFFFF, ctl := 0x10009 }, cmdgCfg := 0x002A0501 }) : State) (2 : Fin 4)).gate[(1 : Fin 64)] ≠ some (2 : W8)) ∧ ((canQ (((run0.modNm 2 fun n => { n with trx := .normal }).modCan 2 fun k => { k with bus := .rx, ctl := 0x11, modeNow := 1, flts := upd k.flts 7 fun _ => { mch := 0x04000000, mask := 0x1FFFFFFF, ctl := 0x10009 }, cmdgCfg := 0x002A0501 }) : State) (2 : Fin 4) (0 : Fin 2)).held.length < 32) := by decide +kernel

theorem witness_CanReceptionThroughFiltersAndGate_9 :
    ((((run0.modNm 2 fun n => { n with trx := .normal }).modCan 2 fun k => { k with bus := .rx, ctl := 0x11, modeNow := 1, flts := upd k.flts 7 fun _ => { mch := 0x04000000, mask := 0x1FFFFFFF, ctl := 0x10009 }, cmdgCfg := 0x002A0501, q := upd k.q 0 fun q => { q with held := List.replicate 32 FrameBuf.zero } }) : State).canUp (2 : Fin 4) = true) ∧ ((((run0.modNm 2 fun n => { n with trx := .normal }).modCan 2 fun k => { k with bus := .rx, ctl := 0x11, modeNow := 1, flts := upd k.flts 7 fun _ => { mch := 0x04000000, mask := 0x1FFFFFFF, ctl := 0x10009 }, cmdgCfg := 0x002A0501, q := upd k.q 0 fun q => { q with held := List.replicate 32 FrameBuf.zero } }) : State).trxRx (2 : Fin 4) = true) ∧ ((canOf (((run0.modNm 2 fun n => { n with trx := .normal }).modCan 2 fun k => { k with bus := .rx, ctl := 0x11, modeNow := 1, flts := upd k.flts 7 fun _ => { mch := 0x04000000, mask := 0x1FFFFFFF, ctl := 0x10009 }, cmdgCfg := 0x002A0501, q := upd k.q 0 fun q => { q with held := List.replicate 32 FrameBuf.zero } }) : State) (2 : Fin 4)).bus = .rx ∨ (canOf (((run0.modNm 2 fun n => { n with trx := .normal }).modCan 2 fun k => { k with bus := .rx, ctl := 0x11, modeNow := 1, flts := upd k.flts 7 fun _ => { mch := 0x04000000, mask := 0x1FFFFFFF, ctl := 0x10009 }, cmdgCfg := 0x002A0501, q := upd k.q 0 fun q => { q with held := List.replicate 32 FrameBuf.zero } }) : State) (2 : Fin 4)).bus = .idle) ∧ ((canOf (((run0.modNm 2 fun n => { n with trx := .normal }).modCan 2 fun k => { k with bus := .rx, ctl := 0x11, modeNow := 1, flts := upd k.flts 7 fun _ => { mch := 0x04000000, mask := 0x1FFFFFFF, ctl := 0x10009 }, cmdgCfg := 0x002A0501, q := upd k.q 0 fun q => { q with held := List.replicate 32 FrameBuf.zero } }) : State) (2 : Fin 4)).fdEn = true ∨ bit (3 : W32) 4 = false) ∧ ((canOf (((run0.modNm 2 fun n => { n with trx := .normal }).modCan 2 fun k => { k with bus := .rx, ctl := 0x11, modeNow := 1, flts := upd k.flts 7 fun _ => { mch := 0x04000000, mask := 0x1FFFFFFF, ctl := 0x10009 }, cmdgCfg := 0x002A0501, q := upd k.q 0 fun q => { q with held := List.replicate 32 FrameBuf.zero } }) : State) (2 : Fin 4)).filter (0x04000000 : W32) (3 : W32) = some (7 : Fin 32)) ∧ (fld (canOf (((run0.modNm 2 fun n => { n with trx := .normal }).modCan 2 fun k => { k with bus := .rx, ctl := 0x11, modeNow := 1, flts := upd k.flts 7 fun _ => { mch := 0x04000000, mask := 0x1FFFFFFF, ctl := 0x10009 }, cmdgCfg := 0x002A0501, q := upd k.q 0 fun q => { q with held := List.replicate 32 FrameBuf.zero } }) : State) (2 : Fin 4)).flts[(7 : Fin 32)].ctl 1 2 = (0 : Fin 2).val) ∧ (bit (canOf (((run0.modNm 2 fun n => { n with trx := .normal }).modCan 2 fun k => { k with bus := .rx, ctl := 0x11, modeNow := 1, flts := upd k.flts 7 fun _ => { mch := 0x04000000, mask := 0x1FFFFFFF, ctl := 0x10009 }, cmdgCfg := 0x002A0501, q := upd k.q 0 fun q => { q with held := List.replicate 32 FrameBuf.zero } }) : State) (2 : Fin 4)).cmdgCfg 0 = true) ∧ (bit (canOf (((run0.modNm 2 fun n => { n with trx := .normal }).modCan 2 fun k => { k with bus := .rx, ctl := 0x11, modeNow := 1, flts := upd k.flts 7 fun _ => { mch := 0x04000000, mask := 0x1FFFFFFF, ctl := 0x10009 }, cmdgCfg := 0x002A0501, q := upd k.q 0 fun q => { q with held := List.replicate 32 FrameBuf.zero } }) : State) (2 : Fin 4)).flts[(7 : Fin 32)].ctl 3 = true) ∧ (3 ≤ frameLen (0x04000000 : W32) (3 : W32)) ∧ ((([1, 2, 3] : List W8).getD 0 0).toNat % 64 = (1 : Fin 64).val) ∧ (([1, 2, 3] : List W8).getD 1 0 = (2 : W8)) ∧ ((canOf (((run0.modNm 2 fun n => { n with trx := .normal }).modCan 2 fun k => { k with bus := .rx, ctl := 0x11, modeNow := 1, flts := upd k.flts 7 fun _ => { mch := 0x04000000, mask := 0x1FFFFFFF, ctl := 0x10009 }, cmdgCfg := 0x002A0501, q := upd k.q 0 fun q => { q with held := List.replicate 32 FrameBuf.zero } }) : State) (2 : Fin 4)).gate[(1 : Fin 64)] ≠ some (2 : W8)) ∧ (32 ≤ (canQ (((run0.modNm 2 fun n => { n with trx := .normal }).modCan 2 fun k => { k with bus := .rx, ctl := 0x11, modeNow := 1, flts := upd k.flts 7 fun _ => { mch := 0x04000000, mask := 0x1FFFFFFF, ctl := 0x10009 }, cmdgCfg := 0x002A0501, q := upd k.q 0 fun q => { q with held := List.replicate 32 FrameBuf.zero } }) : State) (2 : Fin 4) (0 : Fin 2)).held.length) := by decide +kernel

theorem witness_CanReceptionThroughFiltersAndGate_10 :
    ((((run0.modNm 2 fun n => { n with trx := .normal }).modCan 2 fun k => { k with bus := .rx, ctl := 0x11, modeNow := 1, flts := upd k.flts 7 fun _ => { mch := 0x04000000, mask := 0x1FFFFFFF, ctl := 0x10009 }, cmdgCfg := 0x002A0501, gate := vupd k.gate 1 fun _ => some 2, objs := upd k.objs 5 fun o => { o with ctl := 3 } }) : State).canUp (2 : Fin 4) = true) ∧ ((((run0.modNm 2 fun n => { n with trx := .normal }).modCan 2 fun k => { k with bus := .rx, ctl := 0x11, modeNow := 1, flts := upd k.flts 7 fun _ => { mch := 0x04000000, mask := 0x1FFFFFFF, ctl := 0x10009 }, cmdgCfg := 0x002A0501, gate := vupd k.gate 1 fun _ => some 2, objs := upd k.objs 5 fun o => { o with ctl := 3 } }) : State).trxRx (2 : Fin 4) = true) ∧ ((canOf (((run0.modNm 2 fun n => { n with trx := .normal }).modCan 2 fun k => { k with bus := .rx, ctl := 0x11, modeNow := 1, flts := upd k.flts 7 fun _ => { mch := 0x04000000, mask := 0x1FFFFFFF, ctl := 0x10009 }, cmdgCfg := 0x002A0501, gate := vupd k.gate 1 fun _ => some 2, objs := upd k.objs 5 fun o => { o with ctl := 3 } }) : State) (2 : Fin 4)).bus = .rx ∨ (canOf (((run0.modNm 2 fun n => { n with trx := .normal }).modCan 2 fun k => { k with bus := .rx, ctl := 0x11, modeNow := 1, flts := upd k.flts 7 fun _ => { mch := 0x04000000, mask := 0x1FFFFFFF, ctl := 0x10009 }, cmdgCfg := 0x002A0501, gate := vupd k.gate 1 fun _ => some 2, objs := upd k.objs 5 fun o => { o with ctl := 3 } }) : State) (2 : Fin 4)).bus = .idle) ∧ ((canOf (((run0.modNm 2 fun n => { n with trx := .normal }).modCan 2 fun k => { k with bus := .rx, ctl := 0x11, modeNow := 1, flts := upd k.flts 7 fun _ => { mch := 0x04000000, mask := 0x1FFFFFFF, ctl := 0x10009 }, cmdgCfg := 0x002A0501, gate := vupd k.gate 1 fun _ => some 2, objs := upd k.objs 5 fun o => { o with ctl := 3 } }) : State) (2 : Fin 4)).fdEn = true ∨ bit (3 : W32) 4 = false) ∧ ((canOf (((run0.modNm 2 fun n => { n with trx := .normal }).modCan 2 fun k => { k with bus := .rx, ctl := 0x11, modeNow := 1, flts := upd k.flts 7 fun _ => { mch := 0x04000000, mask := 0x1FFFFFFF, ctl := 0x10009 }, cmdgCfg := 0x002A0501, gate := vupd k.gate 1 fun _ => some 2, objs := upd k.objs 5 fun o => { o with ctl := 3 } }) : State) (2 : Fin 4)).filter (0x04000000 : W32) (3 : W32) = some (7 : Fin 32)) ∧ (fld (canOf (((run0.modNm 2 fun n => { n with trx := .normal }).modCan 2 fun k => { k with bus := .rx, ctl := 0x11, modeNow := 1, flts := upd k.flts 7 fun _ => { mch := 0x04000000, mask := 0x1FFFFFFF, ctl := 0x10009 }, cmdgCfg := 0x002A0501, gate := vupd k.gate 1 fun _ => some 2, objs := upd k.objs 5 fun o => { o with ctl := 3 } }) : State) (2 : Fin 4)).flts[(7 : Fin 32)].ctl 1 2 = (0 : Fin 2).val) ∧ (bit (canOf (((run0.modNm 2 fun n => { n with trx := .normal }).modCan 2 fun k => { k with bus := .rx, ctl := 0x11, modeNow := 1, flts := upd k.flts 7 fun _ => { mch := 0x04000000, mask := 0x1FFFFFFF, ctl := 0x10009 }, cmdgCfg := 0x002A0501, gate := vupd k.gate 1 fun _ => some 2, objs := upd k.objs 5 fun o => { o with ctl := 3 } }) : State) (2 : Fin 4)).cmdgCfg 0 = true) ∧ (bit (canOf (((run0.modNm 2 fun n => { n with trx := .normal }).modCan 2 fun k => { k with bus := .rx, ctl := 0x11, modeNow := 1, flts := upd k.flts 7 fun _ => { mch := 0x04000000, mask := 0x1FFFFFFF, ctl := 0x10009 }, cmdgCfg := 0x002A0501, gate := vupd k.gate 1 fun _ => some 2, objs := upd k.objs 5 fun o => { o with ctl := 3 } }) : State) (2 : Fin 4)).flts[(7 : Fin 32)].ctl 3 = true) ∧ (3 ≤ frameLen (0x04000000 : W32) (3 : W32)) ∧ ((([1, 2, 3] : List W8).getD 0 0).toNat % 64 = (1 : Fin 64).val) ∧ (([1, 2, 3] : List W8).getD 1 0 = (2 : W8)) ∧ ((canOf (((run0.modNm 2 fun n => { n with trx := .normal }).modCan 2 fun k => { k with bus := .rx, ctl := 0x11, modeNow := 1, flts := upd k.flts 7 fun _ => { mch := 0x04000000, mask := 0x1FFFFFFF, ctl := 0x10009 }, cmdgCfg := 0x002A0501, gate := vupd k.gate 1 fun _ => some 2, objs := upd k.objs 5 fun o => { o with ctl := 3 } }) : State) (2 : Fin 4)).gate[(1 : Fin 64)] = some (2 : W8)) ∧ (fld (canOf (((run0.modNm 2 fun n => { n with trx := .normal }).modCan 2 fun k => { k with bus := .rx, ctl := 0x11, modeNow := 1, flts := upd k.flts 7 fun _ => { mch := 0x04000000, mask := 0x1FFFFFFF, ctl := 0x10009 }, cmdgCfg := 0x002A0501, gate := vupd k.gate 1 fun _ => some 2, objs := upd k.objs 5 fun o => { o with ctl := 3 } }) : State) (2 : Fin 4)).cmdgCfg 8 7 = (5 : Fin 128).val) ∧ ((canObj (((run0.modNm 2 fun n => { n with trx := .normal }).modCan 2 fun k => { k with bus := .rx, ctl := 0x11, modeNow := 1, flts := upd k.flts 7 fun _ => { mch := 0x04000000, mask := 0x1FFFFFFF, ctl := 0x10009 }, cmdgCfg := 0x002A0501, gate := vupd k.gate 1 fun _ => some 2, objs := upd k.objs 5 fun o => { o with ctl := 3 } }) : State) (2 : Fin 4) (5 : Fin 128)).en = true) ∧ ((canObj (((run0.modNm 2 fun n => { n with trx := .normal }).modCan 2 fun k => { k with bus := .rx, ctl := 0x11, modeNow := 1, flts := upd k.flts 7 fun _ => { mch := 0x04000000, mask := 0x1FFFFFFF, ctl := 0x10009 }, cmdgCfg := 0x002A0501, gate := vupd k.gate 1 fun _ => some 2, objs := upd k.objs 5 fun o => { o with ctl := 3 } }) : State) (2 : Fin 4) (5 : Fin 128)).dirTx = true) ∧ ((canObj (((run0.modNm 2 fun n => { n with trx := .normal }).modCan 2 fun k => { k with bus := .rx, ctl := 0x11, modeNow := 1, flts := upd k.flts 7 fun _ => { mch := 0x04000000, mask := 0x1FFFFFFF, ctl := 0x10009 }, cmdgCfg := 0x002A0501, gate := vupd k.gate 1 fun _ => some 2, objs := upd k.objs 5 fun o => { o with ctl := 3 } }) : State) (2 : Fin 4) (5 : Fin 128)).busy = false) ∧ (bit (canObj (((run0.modNm 2 fun n => { n with trx := .normal }).modCan 2 fun k => { k with bus := .rx, ctl := 0x11, modeNow := 1, flts := upd k.flts 7 fun _ => { mch := 0x04000000, mask := 0x1FFFFFFF, ctl := 0x10009 }, cmdgCfg := 0x002A0501, gate := vupd k.gate 1 fun _ => some 2, objs := upd k.objs 5 fun o => { o with ctl := 3 } }) : State) (2 : Fin 4) (5 : Fin 128)).buf[1] 4 = false ∨ ((canOf (((run0.modNm 2 fun n => { n with trx := .normal }).modCan 2 fun k => { k with bus := .rx, ctl := 0x11, modeNow := 1, flts := upd k.flts 7 fun _ => { mch := 0x04000000, mask := 0x1FFFFFFF, ctl := 0x10009 }, cmdgCfg := 0x002A0501, gate := vupd k.gate 1 fun _ => some 2, objs := upd k.objs 5 fun o => { o with ctl := 3 } }) : State) (2 : Fin 4)).fdEn = true ∧ bit (canObj (((run0.modNm 2 fun n => { n with trx := .normal }).modCan 2 fun k => { k with bus := .rx, ctl := 0x11, modeNow := 1, flts := upd k.flts 7 fun _ => { mch := 0x04000000, mask := 0x1FFFFFFF, ctl := 0x10009 }, cmdgCfg := 0x002A0501, gate := vupd k.gate 1 fun _ => some 2, objs := upd k.objs 5 fun o => { o with ctl := 3 } }) : State) (2 : Fin 4) (5 : Fin 128)).buf[0] 30 = false)) := by decide +kernel

theorem witness_CanReceptionThroughFiltersAndGate_11 :
    ((((run0.modNm 2 fun n => { n with trx := .normal }).modCan 2 fun k => { k with bus := .rx, ctl := 0x11, modeNow := 1, flts := upd k.flts 7 fun _ => { mch := 0x04000000, mask := 0x1FFFFFFF, ctl := 0x10009 }, cmdgCfg := 0x002A0501, gate := vupd k.gate 1 fun _ => some 2 }) : State).canUp (2 : Fin 4) = true) ∧ ((((run0.modNm 2 fun n => { n with trx := .normal }).modCan 2 fun k => { k with bus := .rx, ctl := 0x11, modeNow := 1, flts := upd k.flts 7 fun _ => { mch := 0x04000000, mask := 0x1FFFFFFF, ctl := 0x10009 }, cmdgCfg := 0x002A0501, gate := vupd k.gate 1 fun _ => some 2 }) : State).trxRx (2 : Fin 4) = true) ∧ ((canOf (((run0.modNm 2 fun n => { n with trx := .normal }).modCan 2 fun k => { k with bus := .rx, ctl := 0x11, modeNow := 1, flts := upd k.flts 7 fun _ => { mch := 0x04000000, mask := 0x1FFFFFFF, ctl := 0x10009 }, cmdgCfg := 0x002A0501, gate := vupd k.gate 1 fun _ => some 2 }) : State) (2 : Fin 4)).bus = .rx ∨ (canOf (((run0.modNm 2 fun n => { n with trx := .normal }).modCan 2 fun k => { k with bus := .rx, ctl := 0x11, modeNow := 1, flts := upd k.flts 7 fun _ => { mch := 0x04000000, mask := 0x1FFFFFFF, ctl := 0x10009 }, cmdgCfg := 0x002A0501, gate := vupd k.gate 1 fun _ => some 2 }) : State) (2 : Fin 4)).bus = .idle) ∧ ((canOf (((run0.modNm 2 fun n => { n with trx := .normal }).modCan 2 fun k => { k with bus := .rx, ctl := 0x11, modeNow := 1, flts := upd k.flts 7 fun _ => { mch := 0x04000000, mask := 0x1FFFFFFF, ctl := 0x10009 }, cmdgCfg := 0x002A0501, gate := vupd k.gate 1 fun _ => some 2 }) : State) (2 : Fin 4)).fdEn = true ∨ bit (3 : W32) 4 = false) ∧ ((canOf (((run0.modNm 2 fun n => { n with trx := .normal }).modCan 2 fun k => { k with bus := .rx, ctl := 0x11, modeNow := 1, flts := upd k.flts 7 fun _ => { mch := 0x04000000, mask := 0x1FFFFFFF, ctl := 0x10009 }, cmdgCfg := 0x002A0501, gate := vupd k.gate 1 fun _ => some 2 }) : State) (2 : Fin 4)).filter (0x04000000 : W32) (3 : W32) = some (7 : Fin 32)) ∧ (fld (canOf (((run0.modNm 2 fun n => { n with trx := .normal }).modCan 2 fun k => { k with bus := .rx, ctl := 0x11, modeNow := 1, flts := upd k.flts 7 fun _ => { mch := 0x04000000, mask := 0x1FFFFFFF, ctl := 0x10009 }, cmdgCfg := 0x002A0501, gate := vupd k.gate 1 fun _ => some 2 }) : State) (2 : Fin 4)).flts[(7 : Fin 32)].ctl 1 2 = (0 : Fin 2).val) ∧ (bit (canOf (((run0.modNm 2 fun n => { n with trx := .normal }).modCan 2 fun k => { k with bus := .rx, ctl := 0x11, modeNow := 1, flts := upd k.flts 7 fun _ => { mch := 0x04000000, mask := 0x1FFFFFFF, ctl := 0x10009 }, cmdgCfg := 0x002A0501, gate := vupd k.gate 1 fun _ => some 2 }) : State) (2 : Fin 4)).cmdgCfg 0 = true) ∧ (bit (canOf (((run0.modNm 2 fun n => { n with trx := .normal }).modCan 2 fun k => { k with bus := .rx, ctl := 0x11, modeNow := 1, flts := upd k.flts 7 fun _ => { mch := 0x04000000, mask := 0x1FFFFFFF, ctl := 0x10009 }, cmdgCfg := 0x002A0501, gate := vupd k.gate 1 fun _ => some 2 }) : State) (2 : Fin 4)).flts[(7 : Fin 32)].ctl 3 = true) ∧ (3 ≤ frameLen (0x04000000 : W32) (3 : W32)) ∧ ((([1, 2, 3] : List W8).getD 0 0).toNat % 64 = (1 : Fin 64).val) ∧ (([1, 2, 3] : List W8).getD 1 0 = (2 : W8)) ∧ ((canOf (((run0.modNm 2 fun n => { n with trx := .normal }).modCan 2 fun k => { k with bus := .rx, ctl := 0x11, modeNow := 1, flts := upd k.flts 7 fun _ => { mch := 0x04000000, mask := 0x1FFFFFFF, ctl := 0x10009 }, cmdgCfg := 0x002A0501, gate := vupd k.gate 1 fun _ => some 2 }) : State) (2 : Fin 4)).gate[(1 : Fin 64)] = some (2 : W8)) ∧ (fld (canOf (((run0.modNm 2 fun n => { n with trx := .normal }).modCan 2 fun k => { k with bus := .rx, ctl := 0x11, modeNow := 1, flts := upd k.flts 7 fun _ => { mch := 0x04000000, mask := 0x1FFFFFFF, ctl := 0x10009 }, cmdgCfg := 0x002A0501, gate := vupd k.gate 1 fun _ => some 2 }) : State) (2 : Fin 4)).cmdgCfg 8 7 = (5 : Fin 128).val) ∧ ((canObj (((run0.modNm 2 fun n => { n with trx := .normal }).modCan 2 fun k => { k with bus := .rx, ctl := 0x11, modeNow := 1, flts := upd k.flts 7 fun _ => { mch := 0x04000000, mask := 0x1FFFFFFF, ctl := 0x10009 }, cmdgCfg := 0x002A0501, gate := vupd k.gate 1 fun _ => some 2 }) : State) (2 : Fin 4) (5 : Fin 128)).en = false ∨ (canObj (((run0.modNm 2 fun n => { n with trx := .normal }).modCan 2 fun k => { k with bus := .rx, ctl := 0x11, modeNow := 1, flts := upd k.flts 7 fun _ => { mch := 0x04000000, mask := 0x1FFFFFFF, ctl := 0x10009 }, cmdgCfg := 0x002A0501, gate := vupd k.gate 1 fun _ => some 2 }) : State) (2 : Fin 4) (5 : Fin 128)).dirTx = false ∨ (canObj (((run0.modNm 2 fun n => { n with trx := .normal }).modCan 2 fun k => { k with bus := .rx, ctl := 0x11, modeNow := 1, flts := upd k.flts 7 fun _ => { mch := 0x04000000, mask := 0x1FFFFFFF, ctl := 0x10009 }, cmdgCfg := 0x002A0501, gate := vupd k.gate 1 fun _ => some 2 }) : State) (2 : Fin 4) (5 : Fin 128)).busy = true) := by decide +kernel

/-- What meets the hypotheses of TransceiversWakeTheNetwork: one conjunct for each clause, in the order of its clauses. -/
theorem witness_TransceiversWakeTheNetwork_1 :
    ((canStore (((run0).modNm 2 fun k => { k with ctl := 0 }) : State) 0 4) ∧ (bit (nmOf (((run0).modNm 2 fun k => { k with ctl := 0 }) : State) (2 : Fin 4)).ctl 0 = false)) ∧
    ((canStore (((run0).modNm 2 fun k => { k with ctl := 1 }) : State) 0 4) ∧ (bit (nmOf (((run0).modNm 2 fun k => { k with ctl := 1 }) : State) (2 : Fin 4)).ctl 0 = true)) ∧
    (((((run0).modNm 2 fun k => { k with switch := some (.sleep, 0), errCnt := 4 }) : State).nmUp = true) ∧ ((nmOf (((run0).modNm 2 fun k => { k with switch := some (.sleep, 0), errCnt := 4 }) : State) (2 : Fin 4)).switch = some ((.sleep : TrxMode), (0 : Nat))) ∧ ((nmOf (((run0).modNm 2 fun k => { k with switch := some (.sleep, 0), errCnt := 4 }) : State) (2 : Fin 4)).st ≠ .prepSleep ∨ (nmOf (((run0).modNm 2 fun k => { k with switch := some (.sleep, 0), errCnt := 4 }) : State) (2 : Fin 4)).stage ≠ 2 ∨ (.sleep : TrxMode) = .normal ∨ (.sleep : TrxMode) = .listen)) ∧
    (((((run0).modNm 2 fun k => { k with trx := .normal }) : State).nmUp = true) ∧ ((true : Bool) = false ∨ (2500 ≤ (2500 : Nat) ∧ (nmOf (((run0).modNm 2 fun k => { k with trx := .normal }) : State) (2 : Fin 4)).trx = .normal))) ∧
    (((2500 : Nat) < 2500 ∨ (nmOf (run0 : State) (2 : Fin 4)).trx ≠ .normal)) ∧
    (((run0 : State).nmUp = true)) ∧
    (((((run0).modNm 2 fun k => { k with ctl := 1, st := .busSleep, trx := .sleep }) : State).nmUp = true) ∧ ((nmOf (((run0).modNm 2 fun k => { k with ctl := 1, st := .busSleep, trx := .sleep }) : State) (2 : Fin 4)).trx = .standby ∨ (nmOf (((run0).modNm 2 fun k => { k with ctl := 1, st := .busSleep, trx := .sleep }) : State) (2 : Fin 4)).trx = .sleep) ∧ (1800 ≤ (1800 : Nat)) ∧ (1800 ≤ (1800 : Nat)) ∧ (1800 ≤ (1800 : Nat)) ∧ ((1000000 : Nat) ≤ 1000000) ∧ (bit (nmOf (((run0).modNm 2 fun k => { k with ctl := 1, st := .busSleep, trx := .sleep }) : State) (2 : Fin 4)).trxCtl 4 = false) ∧ ((nmOf (((run0).modNm 2 fun k => { k with ctl := 1, st := .busSleep, trx := .sleep }) : State) (2 : Fin 4)).st = .busSleep)) ∧
    (((((run0).modNm 2 fun k => { k with trx := .sleep, errCnt := 3 }) : State).nmUp = true) ∧ ((nmOf (((run0).modNm 2 fun k => { k with trx := .sleep, errCnt := 3 }) : State) (2 : Fin 4)).trx = .standby ∨ (nmOf (((run0).modNm 2 fun k => { k with trx := .sleep, errCnt := 3 }) : State) (2 : Fin 4)).trx = .sleep) ∧ (1800 ≤ (1800 : Nat)) ∧ (1800 ≤ (1800 : Nat)) ∧ (1800 ≤ (1800 : Nat)) ∧ ((1000000 : Nat) ≤ 1000000) ∧ (bit (nmOf (((run0).modNm 2 fun k => { k with trx := .sleep, errCnt := 3 }) : State) (2 : Fin 4)).trxCtl 4 = false) ∧ ((nmOf (((run0).modNm 2 fun k => { k with trx := .sleep, errCnt := 3 }) : State) (2 : Fin 4)).st = .off)) ∧
    (((((run0).modNm 2 fun k => { k with ctl := 0x13, st := .prepSleep, stage := 2, trx := .sleep }) : State).nmUp = true) ∧ ((nmOf (((run0).modNm 2 fun k => { k with ctl := 0x13, st := .prepSleep, stage := 2, trx := .sleep }) : State) (2 : Fin 4)).trx = .standby ∨ (nmOf (((run0).modNm 2 fun k => { k with ctl := 0x13, st := .prepSleep, stage := 2, trx := .sleep }) : State) (2 : Fin 4)).trx = .sleep) ∧ (1800 ≤ (1800 : Nat)) ∧ (1800 ≤ (1800 : Nat)) ∧ (1800 ≤ (1800 : Nat)) ∧ ((1000000 : Nat) ≤ 1000000) ∧ (bit (nmOf (((run0).modNm 2 fun k => { k with ctl := 0x13, st := .prepSleep, stage := 2, trx := .sleep }) : State) (2 : Fin 4)).trxCtl 4 = false) ∧ ((nmOf (((run0).modNm 2 fun k => { k with ctl := 0x13, st := .prepSleep, stage := 2, trx := .sleep }) : State) (2 : Fin 4)).st = .prepSleep)) ∧
    (((((run0).modNm 2 fun k => { k with trxCtl := 0x10 }) : State).nmUp = true) ∧ ((nmOf (((run0).modNm 2 fun k => { k with trxCtl := 0x10 }) : State) (2 : Fin 4)).trx = .standby ∨ (nmOf (((run0).modNm 2 fun k => { k with trxCtl := 0x10 }) : State) (2 : Fin 4)).trx = .sleep) ∧ (1800 ≤ (1800 : Nat)) ∧ (1800 ≤ (1800 : Nat)) ∧ (1800 ≤ (1800 : Nat)) ∧ ((1000000 : Nat) ≤ 1000000) ∧ (bit (nmOf (((run0).modNm 2 fun k => { k with trxCtl := 0x10 }) : State) (2 : Fin 4)).trxCtl 4 = true ∨ nmAwake (nmOf (((run0).modNm 2 fun k => { k with trxCtl := 0x10 }) : State) (2 : Fin 4)).st = true)) ∧
    ((((nmOf (((run0).modNm 2 fun k => { k with trx := .normal }) : State) (2 : Fin 4)).trx = .normal ∨ (nmOf (((run0).modNm 2 fun k => { k with trx := .normal }) : State) (2 : Fin 4)).trx = .listen) ∨ (1800 : Nat) < 500 ∨ (1800 : Nat) < 500 ∨ (1800 : Nat) < 500 ∨ 1000000 < (1000000 : Nat))) := by
  refine ⟨?_, ?_, ?_, ?_, ?_, ?_, ?_, ?_, ?_, ?_, ?_⟩ <;> decide +kernel

/-- What meets the hypotheses of TransceiversWakeTheNetwork: one conjunct for each clause, in the order of its clauses. -/
theorem witness_TransceiversWakeTheNetwork_2 :
    (((((run0).modNm 2 fun k => { k with bias := true, errCnt := 4 }) : State).nmUp = true) ∧ ((nmOf (((run0).modNm 2 fun k => { k with bias := true, errCnt := 4 }) : State) (2 : Fin 4)).trx = .standby ∨ (nmOf (((run0).modNm 2 fun k => { k with bias := true, errCnt := 4 }) : State) (2 : Fin 4)).trx = .sleep) ∧ (1200000 ≤ (1200000 : Nat))) ∧
    ((((nmOf (((run0).modNm 2 fun k => { k with bias := true }) : State) (2 : Fin 4)).trx = .normal ∨ (nmOf (((run0).modNm 2 fun k => { k with bias := true }) : State) (2 : Fin 4)).trx = .listen) ∨ (599999 : Nat) < 600000)) ∧
    ((bit (3 : W32) 4 = true ∨ (((nmOf (run0 : State) (2 : Fin 4)).trx = .standby ∨ (nmOf (run0 : State) (2 : Fin 4)).trx = .sleep) ∧ ((nmOf (run0 : State) (2 : Fin 4)).bias = false ∨ bit (nmOf (run0 : State) (2 : Fin 4)).trxCtl 4 = false)))) ∧
    (((((run0).modNm 2 fun k => { k with trx := .normal, errCnt := 255 }) : State).nmUp = true) ∧ (bit (3 : W32) 4 = false) ∧ (((nmOf (((run0).modNm 2 fun k => { k with trx := .normal, errCnt := 255 }) : State) (2 : Fin 4)).trx = .normal ∨ (nmOf (((run0).modNm 2 fun k => { k with trx := .normal, errCnt := 255 }) : State) (2 : Fin 4)).trx = .listen) ∨ ((nmOf (((run0).modNm 2 fun k => { k with trx := .normal, errCnt := 255 }) : State) (2 : Fin 4)).bias = true ∧ bit (nmOf (((run0).modNm 2 fun k => { k with trx := .normal, errCnt := 255 }) : State) (2 : Fin 4)).trxCtl 4 = true)) ∧ (((nmOf (((run0).modNm 2 fun k => { k with trx := .normal, errCnt := 255 }) : State) (2 : Fin 4)).trx = .normal ∨ (nmOf (((run0).modNm 2 fun k => { k with trx := .normal, errCnt := 255 }) : State) (2 : Fin 4)).trx = .listen) ∨ nmAwake (nmOf (((run0).modNm 2 fun k => { k with trx := .normal, errCnt := 255 }) : State) (2 : Fin 4)).st = true ∨ satN 8 ((nmOf (((run0).modNm 2 fun k => { k with trx := .normal, errCnt := 255 }) : State) (2 : Fin 4)).errCnt + 1) ≤ fld (nmOf (((run0).modNm 2 fun k => { k with trx := .normal, errCnt := 255 }) : State) (2 : Fin 4)).trxCtl 8 8)) ∧
    (((((run0).modNm 2 fun k => { k with bias := true, trxCtl := 0x2010, errCnt := 32, st := .busSleep }) : State).nmUp = true) ∧ (bit (3 : W32) 4 = false) ∧ ((nmOf (((run0).modNm 2 fun k => { k with bias := true, trxCtl := 0x2010, errCnt := 32, st := .busSleep }) : State) (2 : Fin 4)).trx = .standby ∨ (nmOf (((run0).modNm 2 fun k => { k with bias := true, trxCtl := 0x2010, errCnt := 32, st := .busSleep }) : State) (2 : Fin 4)).trx = .sleep) ∧ ((nmOf (((run0).modNm 2 fun k => { k with bias := true, trxCtl := 0x2010, errCnt := 32, st := .busSleep }) : State) (2 : Fin 4)).bias = true) ∧ (bit (nmOf (((run0).modNm 2 fun k => { k with bias := true, trxCtl := 0x2010, errCnt := 32, st := .busSleep }) : State) (2 : Fin 4)).trxCtl 4 = true) ∧ (fld (nmOf (((run0).modNm 2 fun k => { k with bias := true, trxCtl := 0x2010, errCnt := 32, st := .busSleep }) : State) (2 : Fin 4)).trxCtl 8 8 < satN 8 ((nmOf (((run0).modNm 2 fun k => { k with bias := true, trxCtl := 0x2010, errCnt := 32, st := .busSleep }) : State) (2 : Fin 4)).errCnt + 1)) ∧ ((nmOf (((run0).modNm 2 fun k => { k with bias := true, trxCtl := 0x2010, errCnt := 32, st := .busSleep }) : State) (2 : Fin 4)).st = .busSleep)) := by
  refine ⟨?_, ?_, ?_, ?_, ?_⟩ <;> decide +kernel

theorem witness_TransceiversWakeTheNetwork_3 :
    ((((run0).modNm 2 fun k => { k with bias := true, trxCtl := 0x2010, errCnt := 2, st := .busSleep, wufId := 0x04000000, wufMask := 0x1FFFFFFF, wufCfg := 0x12, wufDlo := 0x8000 }) : State).nmUp = true) ∧ (bit (2 : W32) 4 = false) ∧ ((nmOf (((run0).modNm 2 fun k => { k with bias := true, trxCtl := 0x2010, errCnt := 2, st := .busSleep, wufId := 0x04000000, wufMask := 0x1FFFFFFF, wufCfg := 0x12, wufDlo := 0x8000 }) : State) (2 : Fin 4)).trx = .standby ∨ (nmOf (((run0).modNm 2 fun k => { k with bias := true, trxCtl := 0x2010, errCnt := 2, st := .busSleep, wufId := 0x04000000, wufMask := 0x1FFFFFFF, wufCfg := 0x12, wufDlo := 0x8000 }) : State) (2 : Fin 4)).trx = .sleep) ∧ ((nmOf (((run0).modNm 2 fun k => { k with bias := true, trxCtl := 0x2010, errCnt := 2, st := .busSleep, wufId := 0x04000000, wufMask := 0x1FFFFFFF, wufCfg := 0x12, wufDlo := 0x8000 }) : State) (2 : Fin 4)).bias = true) ∧ (bit (nmOf (((run0).modNm 2 fun k => { k with bias := true, trxCtl := 0x2010, errCnt := 2, st := .busSleep, wufId := 0x04000000, wufMask := 0x1FFFFFFF, wufCfg := 0x12, wufDlo := 0x8000 }) : State) (2 : Fin 4)).trxCtl 4 = true) ∧ ((nmOf (((run0).modNm 2 fun k => { k with bias := true, trxCtl := 0x2010, errCnt := 2, st := .busSleep, wufId := 0x04000000, wufMask := 0x1FFFFFFF, wufCfg := 0x12, wufDlo := 0x8000 }) : State) (2 : Fin 4)).st = .busSleep) ∧ (frameRtr (0x04000000 : W32) (2 : W32) = false) ∧ (((0x04000000 : W32) ^^^ (nmOf (((run0).modNm 2 fun k => { k with bias := true, trxCtl := 0x2010, errCnt := 2, st := .busSleep, wufId := 0x04000000, wufMask := 0x1FFFFFFF, wufCfg := 0x12, wufDlo := 0x8000 }) : State) (2 : Fin 4)).wufId) &&& (nmOf (((run0).modNm 2 fun k => { k with bias := true, trxCtl := 0x2010, errCnt := 2, st := .busSleep, wufId := 0x04000000, wufMask := 0x1FFFFFFF, wufCfg := 0x12, wufDlo := 0x8000 }) : State) (2 : Fin 4)).wufMask &&& 0x1FFFFFFF#32 = 0) ∧ (bit (0x04000000 : W32) 29 = bit (nmOf (((run0).modNm 2 fun k => { k with bias := true, trxCtl := 0x2010, errCnt := 2, st := .busSleep, wufId := 0x04000000, wufMask := 0x1FFFFFFF, wufCfg := 0x12, wufDlo := 0x8000 }) : State) (2 : Fin 4)).wufId 29 ∨ bit (nmOf (((run0).modNm 2 fun k => { k with bias := true, trxCtl := 0x2010, errCnt := 2, st := .busSleep, wufId := 0x04000000, wufMask := 0x1FFFFFFF, wufCfg := 0x12, wufDlo := 0x8000 }) : State) (2 : Fin 4)).wufMask 29 = false) ∧ (bit (nmOf (((run0).modNm 2 fun k => { k with bias := true, trxCtl := 0x2010, errCnt := 2, st := .busSleep, wufId := 0x04000000, wufMask := 0x1FFFFFFF, wufCfg := 0x12, wufDlo := 0x8000 }) : State) (2 : Fin 4)).wufCfg 4 = false ∨ (fld (2 : W32) 0 4 = fld (nmOf (((run0).modNm 2 fun k => { k with bias := true, trxCtl := 0x2010, errCnt := 2, st := .busSleep, wufId := 0x04000000, wufMask := 0x1FFFFFFF, wufCfg := 0x12, wufDlo := 0x8000 }) : State) (2 : Fin 4)).wufCfg 0 4 ∧ (fld (2 : W32) 0 4 = 0 ∨ ∃ i, i < frameLen (0x04000000 : W32) (2 : W32) ∧ fld (if i < 4 then (nmOf (((run0).modNm 2 fun k => { k with bias := true, trxCtl := 0x2010, errCnt := 2, st := .busSleep, wufId := 0x04000000, wufMask := 0x1FFFFFFF, wufCfg := 0x12, wufDlo := 0x8000 }) : State) (2 : Fin 4)).wufDlo else (nmOf (((run0).modNm 2 fun k => { k with bias := true, trxCtl := 0x2010, errCnt := 2, st := .busSleep, wufId := 0x04000000, wufMask := 0x1FFFFFFF, wufCfg := 0x12, wufDlo := 0x8000 }) : State) (2 : Fin 4)).wufDhi) (8 * (i % 4)) 8 &&& (([7, 0x80] : List W8).getD i 0).toNat ≠ 0))) ∧ (bit (0x04000000 : W32) 29 = true ∨ fld (0x04000000 : W32) 18 11 / 64 ≠ fld (nmOf (((run0).modNm 2 fun k => { k with bias := true, trxCtl := 0x2010, errCnt := 2, st := .busSleep, wufId := 0x04000000, wufMask := 0x1FFFFFFF, wufCfg := 0x12, wufDlo := 0x8000 }) : State) (2 : Fin 4)).kaCfg 16 5) := by decide +kernel

/-- What meets the hypotheses of TransceiversWakeTheNetwork: one conjunct for each clause, in the order of its clauses. -/
theorem witness_TransceiversWakeTheNetwork_4 :
    (((((run0).modNm 2 fun k => { k with bias := true, trxCtl := 0x2010, errCnt := 2, st := .busSleep, wufId := 0x04000000, wufMask := 0x1FFFFFFF }) : State).nmUp = true) ∧ (bit (2 : W32) 4 = false) ∧ ((nmOf (((run0).modNm 2 fun k => { k with bias := true, trxCtl := 0x2010, errCnt := 2, st := .busSleep, wufId := 0x04000000, wufMask := 0x1FFFFFFF }) : State) (2 : Fin 4)).trx = .standby ∨ (nmOf (((run0).modNm 2 fun k => { k with bias := true, trxCtl := 0x2010, errCnt := 2, st := .busSleep, wufId := 0x04000000, wufMask := 0x1FFFFFFF }) : State) (2 : Fin 4)).trx = .sleep) ∧ ((nmOf (((run0).modNm 2 fun k => { k with bias := true, trxCtl := 0x2010, errCnt := 2, st := .busSleep, wufId := 0x04000000, wufMask := 0x1FFFFFFF }) : State) (2 : Fin 4)).bias = true) ∧ (bit (nmOf (((run0).modNm 2 fun k => { k with bias := true, trxCtl := 0x2010, errCnt := 2, st := .busSleep, wufId := 0x04000000, wufMask := 0x1FFFFFFF }) : State) (2 : Fin 4)).trxCtl 4 = true) ∧ ((nmOf (((run0).modNm 2 fun k => { k with bias := true, trxCtl := 0x2010, errCnt := 2, st := .busSleep, wufId := 0x04000000, wufMask := 0x1FFFFFFF }) : State) (2 : Fin 4)).st = .busSleep) ∧ (((0x08000000 : W32) ^^^ (nmOf (((run0).modNm 2 fun k => { k with bias := true, trxCtl := 0x2010, errCnt := 2, st := .busSleep, wufId := 0x04000000, wufMask := 0x1FFFFFFF }) : State) (2 : Fin 4)).wufId) &&& (nmOf (((run0).modNm 2 fun k => { k with bias := true, trxCtl := 0x2010, errCnt := 2, st := .busSleep, wufId := 0x04000000, wufMask := 0x1FFFFFFF }) : State) (2 : Fin 4)).wufMask &&& 0x1FFFFFFF#32 ≠ 0 ∨ (bit (nmOf (((run0).modNm 2 fun k => { k with bias := true, trxCtl := 0x2010, errCnt := 2, st := .busSleep, wufId := 0x04000000, wufMask := 0x1FFFFFFF }) : State) (2 : Fin 4)).wufCfg 4 = true ∧ fld (2 : W32) 0 4 ≠ fld (nmOf (((run0).modNm 2 fun k => { k with bias := true, trxCtl := 0x2010, errCnt := 2, st := .busSleep, wufId := 0x04000000, wufMask := 0x1FFFFFFF }) : State) (2 : Fin 4)).wufCfg 0 4)) ∧ (bit (0x08000000 : W32) 29 = true ∨ fld (0x08000000 : W32) 18 11 / 64 ≠ fld (nmOf (((run0).modNm 2 fun k => { k with bias := true, trxCtl := 0x2010, errCnt := 2, st := .busSleep, wufId := 0x04000000, wufMask := 0x1FFFFFFF }) : State) (2 : Fin 4)).kaCfg 16 5)) ∧
    ((({ run0 with up := Vector.replicate 72 false } : State).nmUp = false)) ∧
    ((({ run0 with up := Vector.replicate 72 false } : State).nmUp = false ∨ ({ run0 with up := Vector.replicate 72 false } : State).nm[(1 : Fin 4)].low = false)) ∧
    ((({ run0 with up := Vector.replicate 72 false } : State).nmUp = false ∨ ({ run0 with up := Vector.replicate 72 false } : State).nm[(1 : Fin 4)].low = false)) ∧
    (((run0 : State).nmUp = false ∨ (run0 : State).nm[(1 : Fin 4)].switch = none)) := by
  refine ⟨?_, ?_, ?_, ?_, ?_⟩ <;> decide +kernel

/-- What meets the hypotheses of NetworkManagementSleepsAndWakes: one conjunct for each clause, in the order of its clauses. -/
theorem witness_NetworkManagementSleepsAndWakes_1 :
    ((canStore (((run0).modNm 2 fun k => { k with online := true }) : State) 0 4) ∧ (bit (nmOf (((run0).modNm 2 fun k => { k with online := true }) : State) (2 : Fin 4)).ctl 0 = false) ∧ ((nmOf (((run0).modNm 2 fun k => { k with online := true }) : State) (2 : Fin 4)).st = .off)) ∧
    ((canStore (((run0).modNm 2 fun k => { k with ctl := 0x17, st := .need, trx := .normal }) : State) 0 4) ∧ (bit (nmOf (((run0).modNm 2 fun k => { k with ctl := 0x17, st := .need, trx := .normal }) : State) (2 : Fin 4)).ctl 0 = true) ∧ (bit (0xFFFFFFFF : W32) 2 = bit (nmOf (((run0).modNm 2 fun k => { k with ctl := 0x17, st := .need, trx := .normal }) : State) (2 : Fin 4)).ctl 2)) ∧
    ((canStore (((run0).modNm 2 fun k => { k with ctl := 0x1B01, st := .ready, trx := .normal }) : State) 0 4) ∧ (bit (nmOf (((run0).modNm 2 fun k => { k with ctl := 0x1B01, st := .ready, trx := .normal }) : State) (2 : Fin 4)).ctl 2 = false) ∧ ((nmOf (((run0).modNm 2 fun k => { k with ctl := 0x1B01, st := .ready, trx := .normal }) : State) (2 : Fin 4)).st = .ready ∨ (nmOf (((run0).modNm 2 fun k => { k with ctl := 0x1B01, st := .ready, trx := .normal }) : State) (2 : Fin 4)).st = .wakeCheck)) ∧
    ((canStore (((run0).modNm 2 fun k => { k with ctl := 0x11, st := .busSleep }) : State) 0 4) ∧ (bit (nmOf (((run0).modNm 2 fun k => { k with ctl := 0x11, st := .busSleep }) : State) (2 : Fin 4)).ctl 2 = false) ∧ ((nmOf (((run0).modNm 2 fun k => { k with ctl := 0x11, st := .busSleep }) : State) (2 : Fin 4)).st = .busSleep)) ∧
    ((canStore ((((run0.modCan 2 fun k => { k with ctl := 0x11, objs := upd k.objs 127 fun o => { o with ctl := 3 } })).modNm 2 fun k => { k with online := true, ctl := 0x11, st := .prepSleep, stage := 2, switch := some (.sleep, 0), trx := .normal }) : State) 0 4) ∧ (bit (nmOf ((((run0.modCan 2 fun k => { k with ctl := 0x11, objs := upd k.objs 127 fun o => { o with ctl := 3 } })).modNm 2 fun k => { k with online := true, ctl := 0x11, st := .prepSleep, stage := 2, switch := some (.sleep, 0), trx := .normal }) : State) (2 : Fin 4)).ctl 2 = false) ∧ ((nmOf ((((run0.modCan 2 fun k => { k with ctl := 0x11, objs := upd k.objs 127 fun o => { o with ctl := 3 } })).modNm 2 fun k => { k with online := true, ctl := 0x11, st := .prepSleep, stage := 2, switch := some (.sleep, 0), trx := .normal }) : State) (2 : Fin 4)).st = .prepSleep)) ∧
    ((canStore (run0 : State) 0 4) ∧ (bit (nmOf (run0 : State) (2 : Fin 4)).ctl 2 = true ∨ (nmOf (run0 : State) (2 : Fin 4)).st = .off ∨ (nmOf (run0 : State) (2 : Fin 4)).st = .need)) ∧
    ((canStore (((run0).modNm 2 fun k => { k with ctl := 0x17, st := .need, tKaAt := some 0 }) : State) 0 4) ∧ (bit (nmOf (((run0).modNm 2 fun k => { k with ctl := 0x17, st := .need, tKaAt := some 0 }) : State) (2 : Fin 4)).ctl 2 = true) ∧ ((nmOf (((run0).modNm 2 fun k => { k with ctl := 0x17, st := .need, tKaAt := some 0 }) : State) (2 : Fin 4)).st = .need)) ∧
    ((canStore (((run0).modNm 2 fun k => { k with ctl := 0x17, st := .prepSleep }) : State) 0 4) ∧ ((nmOf (((run0).modNm 2 fun k => { k with ctl := 0x17, st := .prepSleep }) : State) (2 : Fin 4)).st ≠ .need)) ∧
    ((canStore (((run0).modNm 2 fun k => { k with ctl := 0x13, st := .ready }) : State) 0 4)) ∧
    ((canStore (((run0).modNm 2 fun k => { k with nodes := upd k.nodes 5 fun y => { y with count := 4 } }) : State) 0 4)) ∧
    ((((((run0.modCan 2 fun k => { k with ctl := 0x11, objs := upd k.objs 127 fun o => { o with ctl := 3 } })).modNm 2 fun k => { k with online := true, ctl := 0x2717, st := .need, tKaAt := some 7, trx := .normal, woken := true }) : State).nmUp = true) ∧ ((nmOf ((((run0.modCan 2 fun k => { k with ctl := 0x11, objs := upd k.objs 127 fun o => { o with ctl := 3 } })).modNm 2 fun k => { k with online := true, ctl := 0x2717, st := .need, tKaAt := some 7, trx := .normal, woken := true }) : State) (2 : Fin 4)).st = .need) ∧ ((nmOf ((((run0.modCan 2 fun k => { k with ctl := 0x11, objs := upd k.objs 127 fun o => { o with ctl := 3 } })).modNm 2 fun k => { k with online := true, ctl := 0x2717, st := .need, tKaAt := some 7, trx := .normal, woken := true }) : State) (2 : Fin 4)).tKaAt = some (7 : Nat))) := by
  refine ⟨?_, ?_, ?_, ?_, ?_, ?_, ?_, ?_, ?_, ?_, ?_⟩ <;> decide +kernel

/-- What meets the hypotheses of NetworkManagementSleepsAndWakes: one conjunct for each clause, in the order of its clauses. -/
theorem witness_NetworkManagementSleepsAndWakes_2 :
    ((((((run0.modCan 2 fun k => { k with ctl := 0x11, objs := upd k.objs 127 fun o => { o with ctl := 3 } })).modNm 2 fun k => { k with online := true, ctl := 0x2717, st := .need, kaPend := true }) : State).nmUp = true) ∧ ((nmOf ((((run0.modCan 2 fun k => { k with ctl := 0x11, objs := upd k.objs 127 fun o => { o with ctl := 3 } })).modNm 2 fun k => { k with online := true, ctl := 0x2717, st := .need, kaPend := true }) : State) (2 : Fin 4)).kaPend = true) ∧ ((nmOf ((((run0.modCan 2 fun k => { k with ctl := 0x11, objs := upd k.objs 127 fun o => { o with ctl := 3 } })).modNm 2 fun k => { k with online := true, ctl := 0x2717, st := .need, kaPend := true }) : State) (2 : Fin 4)).online = true) ∧ ((canOf ((((run0.modCan 2 fun k => { k with ctl := 0x11, objs := upd k.objs 127 fun o => { o with ctl := 3 } })).modNm 2 fun k => { k with online := true, ctl := 0x2717, st := .need, kaPend := true }) : State) (2 : Fin 4)).mode = 1)) ∧
    ((((((run0.modCan 2 fun k => { k with ctl := 0x11, bus := .rx })).modNm 2 fun k => { k with ctl := 0x13, st := .ready, tIdleAt := some 3 }) : State).nmUp = true) ∧ ((nmOf ((((run0.modCan 2 fun k => { k with ctl := 0x11, bus := .rx })).modNm 2 fun k => { k with ctl := 0x13, st := .ready, tIdleAt := some 3 }) : State) (2 : Fin 4)).st = .ready) ∧ ((nmOf ((((run0.modCan 2 fun k => { k with ctl := 0x11, bus := .rx })).modNm 2 fun k => { k with ctl := 0x13, st := .ready, tIdleAt := some 3 }) : State) (2 : Fin 4)).tIdleAt = some (3 : Nat))) ∧
    (((((run0).modNm 2 fun k => { k with ctl := 0x13, st := .need, tIdleAt := some 3 }) : State).nmUp = true) ∧ ((nmOf (((run0).modNm 2 fun k => { k with ctl := 0x13, st := .need, tIdleAt := some 3 }) : State) (2 : Fin 4)).st = .need) ∧ ((nmOf (((run0).modNm 2 fun k => { k with ctl := 0x13, st := .need, tIdleAt := some 3 }) : State) (2 : Fin 4)).tIdleAt = some (3 : Nat))) ∧
    (((((run0).modNm 2 fun k => { k with ctl := 0x13, st := .wakeCheck, tFwAt := some 3, trx := .normal }) : State).nmUp = true) ∧ ((nmOf (((run0).modNm 2 fun k => { k with ctl := 0x13, st := .wakeCheck, tFwAt := some 3, trx := .normal }) : State) (2 : Fin 4)).st = .wakeCheck) ∧ ((nmOf (((run0).modNm 2 fun k => { k with ctl := 0x13, st := .wakeCheck, tFwAt := some 3, trx := .normal }) : State) (2 : Fin 4)).tFwAt = some (3 : Nat))) ∧
    (((((run0).modNm 2 fun k => { k with ctl := 0x13, st := .prepSleep, stage := 1, trx := .normal }) : State).nmUp = true) ∧ ((nmOf (((run0).modNm 2 fun k => { k with ctl := 0x13, st := .prepSleep, stage := 1, trx := .normal }) : State) (2 : Fin 4)).st = .prepSleep) ∧ ((nmOf (((run0).modNm 2 fun k => { k with ctl := 0x13, st := .prepSleep, stage := 1, trx := .normal }) : State) (2 : Fin 4)).stage = 1) ∧ ((canOf (((run0).modNm 2 fun k => { k with ctl := 0x13, st := .prepSleep, stage := 1, trx := .normal }) : State) (2 : Fin 4)).bus = .off ∨ (((run0).modNm 2 fun k => { k with ctl := 0x13, st := .prepSleep, stage := 1, trx := .normal }) : State).isUp (5 + (2 : Fin 4).val) = false)) ∧
    (((((run0).modNm 2 fun k => { k with ctl := 0x13, st := .prepSleep, stage := 2, switch := some (.sleep, 9), trx := .normal, nodes := upd k.nodes 5 fun y => { y with streak := some (0, 5000000), reached := true } }) : State).nmUp = true) ∧ ((nmOf (((run0).modNm 2 fun k => { k with ctl := 0x13, st := .prepSleep, stage := 2, switch := some (.sleep, 9), trx := .normal, nodes := upd k.nodes 5 fun y => { y with streak := some (0, 5000000), reached := true } }) : State) (2 : Fin 4)).st = .prepSleep) ∧ ((nmOf (((run0).modNm 2 fun k => { k with ctl := 0x13, st := .prepSleep, stage := 2, switch := some (.sleep, 9), trx := .normal, nodes := upd k.nodes 5 fun y => { y with streak := some (0, 5000000), reached := true } }) : State) (2 : Fin 4)).stage = 2) ∧ ((nmOf (((run0).modNm 2 fun k => { k with ctl := 0x13, st := .prepSleep, stage := 2, switch := some (.sleep, 9), trx := .normal, nodes := upd k.nodes 5 fun y => { y with streak := some (0, 5000000), reached := true } }) : State) (2 : Fin 4)).switch = some ((.sleep : TrxMode), (9 : Nat))) ∧ ((.sleep : TrxMode) = .sleep ∨ (.sleep : TrxMode) = .standby)) := by
  refine ⟨?_, ?_, ?_, ?_, ?_, ?_⟩ <;> decide +kernel

/-- What meets the hypotheses of NetworkManagementSleepsAndWakes: one conjunct for each clause, in the order of its clauses. -/
theorem witness_NetworkManagementSleepsAndWakes_3 :
    (((((run0).modNm 2 fun k => { k with ctl := 0x13, st := .wakeCheck, trx := .normal, tFwAt := some 0 }) : State).nmUp = true) ∧ (bit (2 : W32) 4 = false) ∧ ((nmOf (((run0).modNm 2 fun k => { k with ctl := 0x13, st := .wakeCheck, trx := .normal, tFwAt := some 0 }) : State) (2 : Fin 4)).trx = .normal ∨ (nmOf (((run0).modNm 2 fun k => { k with ctl := 0x13, st := .wakeCheck, trx := .normal, tFwAt := some 0 }) : State) (2 : Fin 4)).trx = .listen) ∧ ((nmOf (((run0).modNm 2 fun k => { k with ctl := 0x13, st := .wakeCheck, trx := .normal, tFwAt := some 0 }) : State) (2 : Fin 4)).st = .wakeCheck)) ∧
    ((((((run0.modCan 2 fun k => { k with ctl := 0x11, objs := upd k.objs 127 fun o => { o with ctl := 3 } })).modNm 2 fun k => { k with online := true, ctl := 0x13, st := .prepSleep, stage := 2, switch := some (.sleep, 9), trx := .normal }) : State).nmUp = true) ∧ (bit (4 : W32) 4 = false) ∧ ((nmOf ((((run0.modCan 2 fun k => { k with ctl := 0x11, objs := upd k.objs 127 fun o => { o with ctl := 3 } })).modNm 2 fun k => { k with online := true, ctl := 0x13, st := .prepSleep, stage := 2, switch := some (.sleep, 9), trx := .normal }) : State) (2 : Fin 4)).trx = .normal ∨ (nmOf ((((run0.modCan 2 fun k => { k with ctl := 0x11, objs := upd k.objs 127 fun o => { o with ctl := 3 } })).modNm 2 fun k => { k with online := true, ctl := 0x13, st := .prepSleep, stage := 2, switch := some (.sleep, 9), trx := .normal }) : State) (2 : Fin 4)).trx = .listen) ∧ ((nmOf ((((run0.modCan 2 fun k => { k with ctl := 0x11, objs := upd k.objs 127 fun o => { o with ctl := 3 } })).modNm 2 fun k => { k with online := true, ctl := 0x13, st := .prepSleep, stage := 2, switch := some (.sleep, 9), trx := .normal }) : State) (2 : Fin 4)).st = .prepSleep) ∧ (bit (0x14140000 : W32) 29 = false) ∧ (frameRtr (0x14140000 : W32) (4 : W32) = false) ∧ (fld (0x14140000 : W32) 18 11 / 64 = fld (nmOf ((((run0.modCan 2 fun k => { k with ctl := 0x11, objs := upd k.objs 127 fun o => { o with ctl := 3 } })).modNm 2 fun k => { k with online := true, ctl := 0x13, st := .prepSleep, stage := 2, switch := some (.sleep, 9), trx := .normal }) : State) (2 : Fin 4)).kaCfg 16 5) ∧ (2 ≤ fld (4 : W32) 0 4) ∧ (fld (0x14140000 : W32) 18 11 % 64 = (5 : Fin 64).val) ∧ ((([5, 1, 0, 0] : List W8).getD 0 0).toNat % 64 = (5 : Fin 64).val)) ∧
    (((((run0).modNm 2 fun k => { k with ctl := 0x13, st := .ready, trx := .normal }) : State).nmUp = true) ∧ (bit (4 : W32) 4 = false) ∧ ((nmOf (((run0).modNm 2 fun k => { k with ctl := 0x13, st := .ready, trx := .normal }) : State) (2 : Fin 4)).trx = .normal ∨ (nmOf (((run0).modNm 2 fun k => { k with ctl := 0x13, st := .ready, trx := .normal }) : State) (2 : Fin 4)).trx = .listen) ∧ ((nmOf (((run0).modNm 2 fun k => { k with ctl := 0x13, st := .ready, trx := .normal }) : State) (2 : Fin 4)).st = .ready ∨ (nmOf (((run0).modNm 2 fun k => { k with ctl := 0x13, st := .ready, trx := .normal }) : State) (2 : Fin 4)).st = .need) ∧ (bit (0x14140000 : W32) 29 = false) ∧ (frameRtr (0x14140000 : W32) (4 : W32) = false) ∧ (fld (0x14140000 : W32) 18 11 / 64 = fld (nmOf (((run0).modNm 2 fun k => { k with ctl := 0x13, st := .ready, trx := .normal }) : State) (2 : Fin 4)).kaCfg 16 5) ∧ (2 ≤ fld (4 : W32) 0 4) ∧ (fld (0x14140000 : W32) 18 11 % 64 = (5 : Fin 64).val) ∧ ((([5, 1, 0, 0] : List W8).getD 0 0).toNat % 64 = (5 : Fin 64).val) ∧ ((([5, 1, 0, 0] : List W8).getD 1 0).getLsbD 0 = true) ∧ (((0, 0) : Nat × Nat) = (nmOf (((run0).modNm 2 fun k => { k with ctl := 0x13, st := .ready, trx := .normal }) : State) (2 : Fin 4)).nodes[(5 : Fin 64)].streak.getD ((((run0).modNm 2 fun k => { k with ctl := 0x13, st := .ready, trx := .normal }) : State).now, (((run0).modNm 2 fun k => { k with ctl := 0x13, st := .ready, trx := .normal }) : State).now))) := by
  refine ⟨?_, ?_, ?_⟩ <;> decide +kernel

/-- What meets the hypotheses of NetworkManagementSleepsAndWakes: one conjunct for each clause, in the order of its clauses. -/
theorem witness_NetworkManagementSleepsAndWakes_4 :
    (((((run0).modNm 2 fun k => { k with ctl := 0x13, st := .ready, trx := .normal }) : State).nmUp = true) ∧ (bit (4 : W32) 4 = false) ∧ ((nmOf (((run0).modNm 2 fun k => { k with ctl := 0x13, st := .ready, trx := .normal }) : State) (2 : Fin 4)).trx = .normal ∨ (nmOf (((run0).modNm 2 fun k => { k with ctl := 0x13, st := .ready, trx := .normal }) : State) (2 : Fin 4)).trx = .listen) ∧ ((nmOf (((run0).modNm 2 fun k => { k with ctl := 0x13, st := .ready, trx := .normal }) : State) (2 : Fin 4)).st = .ready ∨ (nmOf (((run0).modNm 2 fun k => { k with ctl := 0x13, st := .ready, trx := .normal }) : State) (2 : Fin 4)).st = .need) ∧ (bit (0x14140000 : W32) 29 = false) ∧ (frameRtr (0x14140000 : W32) (4 : W32) = false) ∧ (fld (0x14140000 : W32) 18 11 / 64 = fld (nmOf (((run0).modNm 2 fun k => { k with ctl := 0x13, st := .ready, trx := .normal }) : State) (2 : Fin 4)).kaCfg 16 5) ∧ (2 ≤ fld (4 : W32) 0 4) ∧ (fld (0x14140000 : W32) 18 11 % 64 = (5 : Fin 64).val) ∧ ((([5, 0, 0, 0] : List W8).getD 0 0).toNat % 64 = (5 : Fin 64).val) ∧ ((([5, 0, 0, 0] : List W8).getD 1 0).getLsbD 0 = false)) ∧
    (((((run0).modNm 2 fun k => { k with nsCfg := 0, nodes := upd k.nodes 5 fun y => { y with streak := some (0, 5000000), reached := true } }) : State).nmUp = true) ∧ ((nmOf (((run0).modNm 2 fun k => { k with nsCfg := 0, nodes := upd k.nodes 5 fun y => { y with streak := some (0, 5000000), reached := true } }) : State) (2 : Fin 4)).nodes[(5 : Fin 64)].streak = some ((0 : Nat), (5000000 : Nat)))) ∧
    ((({ run0 with up := Vector.replicate 72 false } : State).nmUp = false ∨ bit (0 : W32) 4 = true ∨ (({ run0 with up := Vector.replicate 72 false } : State).nm[(1 : Fin 4)].low = true ∧ (({ run0 with up := Vector.replicate 72 false } : State).nm[(1 : Fin 4)].bias = false ∨ ({ run0 with up := Vector.replicate 72 false } : State).nm[(1 : Fin 4)].swEn = false)))) ∧
    (((run0 : State).nmUp = false ∨ (run0 : State).nm[(1 : Fin 4)].nodes[(5 : Fin 64)].streak = none)) ∧
    (((run0 : State).nmUp = false ∨ (run0 : State).nm[(1 : Fin 4)].tKaAt = none ∨ (run0 : State).nm[(1 : Fin 4)].st ≠ .need)) ∧
    (((run0 : State).nmUp = false ∨ (run0 : State).nm[(1 : Fin 4)].kaPend = false ∨ (run0 : State).nm[(1 : Fin 4)].online = false ∨ (run0 : State).can[(1 : Fin 4)].mode ≠ 1)) ∧
    (((run0 : State).nmUp = false ∨ (run0 : State).nm[(1 : Fin 4)].tIdleAt = none)) ∧
    (((run0 : State).nmUp = false ∨ (run0 : State).nm[(1 : Fin 4)].tFwAt = none ∨ (run0 : State).nm[(1 : Fin 4)].st ≠ .wakeCheck)) ∧
    (((run0 : State).nmUp = false ∨ (run0 : State).nm[(1 : Fin 4)].st ≠ .prepSleep ∨ (run0 : State).nm[(1 : Fin 4)].stage ≠ 1 ∨ (run0 : State).nmCanOff (1 : Fin 4) = false)) := by
  refine ⟨?_, ?_, ?_, ?_, ?_, ?_, ?_, ?_, ?_⟩ <;> decide +kernel

/-- What meets the hypotheses of HostPortJudgesAnswersAndForwards: one conjunct for each clause, in the order of its clauses. -/
theorem witness_HostPortJudgesAnswersAndForwards_1 :
    (((((run0).modHp fun h => { h with tx := [[1, 2], [3]], ackSeq := 7, ack := 1, ackSrc := 2, ctl := 7, restarted := false }) : State).coreRuns = true) ∧ ((((run0).modHp fun h => { h with tx := [[1, 2], [3]], ackSeq := 7, ack := 1, ackSrc := 2, ctl := 7, restarted := false }) : State).hp.csnLow = false)) ∧
    (((((run0).modHp fun h => { h with csnLow := true }) : State).hp.csnLow = true)) ∧
    ((bit (run0 : State).pwr.holdStat 5 = false)) ∧
    (((((run0).modHp fun h => { h with csnLow := true, live := true }) : State).coreRuns = true)) ∧
    ((([true] : List Bool).length < 8)) ∧
    (((((run0).modHp fun h => { h with csnLow := true }) : State).coreRuns = false ∨ (((run0).modHp fun h => { h with csnLow := true }) : State).hp.csnLow = false ∨ (((run0).modHp fun h => { h with csnLow := true }) : State).hp.live = false)) ∧
    (((((run0).modHp fun h => { h with csnLow := true, live := true, cur := .buffer, curResp := [1, 2], tx := [[1, 2], [3]] }) : State).coreRuns = true) ∧ ((((run0).modHp fun h => { h with csnLow := true, live := true, cur := .buffer, curResp := [1, 2], tx := [[1, 2], [3]] }) : State).hp.csnLow = true) ∧ ((((run0).modHp fun h => { h with csnLow := true, live := true, cur := .buffer, curResp := [1, 2], tx := [[1, 2], [3]] }) : State).hp.live = true) ∧ ((((run0).modHp fun h => { h with csnLow := true, live := true, cur := .buffer, curResp := [1, 2], tx := [[1, 2], [3]] }) : State).hp.cur = .buffer) ∧ (8 + 4 * (((run0).modHp fun h => { h with csnLow := true, live := true, cur := .buffer, curResp := [1, 2], tx := [[1, 2], [3]] }) : State).hp.curResp.length ≤ (List.replicate 16 0xFF : List W8).length) ∧ (leWord (List.replicate 16 0xFF : List W8) = 0xFFFFFFFF)) ∧
    (((((run0).modHp fun h => { h with csnLow := true, live := true, cur := .buffer, curResp := [1, 2], tx := [[1, 2], [3]] }) : State).coreRuns = true) ∧ ((((run0).modHp fun h => { h with csnLow := true, live := true, cur := .buffer, curResp := [1, 2], tx := [[1, 2], [3]] }) : State).hp.csnLow = true) ∧ ((((run0).modHp fun h => { h with csnLow := true, live := true, cur := .buffer, curResp := [1, 2], tx := [[1, 2], [3]] }) : State).hp.live = true) ∧ ((List.replicate 15 0xFF : List W8).length < 8 + 4 * (((run0).modHp fun h => { h with csnLow := true, live := true, cur := .buffer, curResp := [1, 2], tx := [[1, 2], [3]] }) : State).hp.curResp.length) ∧ (leWord (List.replicate 15 0xFF : List W8) = 0xFFFFFFFF ∨ (List.replicate 15 0xFF : List W8).length < 8)) ∧
    (((((run0).modHp fun h => { h with csnLow := true, live := true }) : State).coreRuns = true) ∧ ((((run0).modHp fun h => { h with csnLow := true, live := true }) : State).hp.csnLow = true) ∧ ((((run0).modHp fun h => { h with csnLow := true, live := true }) : State).hp.live = true) ∧ ((((run0).modHp fun h => { h with csnLow := true, live := true }) : State).hp.cur = .none) ∧ (8 ≤ (hpFrame 0 7 2 [] 2 ++ [0] : List W8).length) ∧ (leWord (hpFrame 0 7 2 [] 2 ++ [0] : List W8) ≠ 0xFFFFFFFF) ∧ ((hpFrame 0 7 2 [] 2 ++ [0] : List W8).length < 8 + (leWord (hpFrame 0 7 2 [] 2 ++ [0] : List W8) / 65536 % 4096) ∨ ((hpFrame 0 7 2 [] 2 ++ [0] : List W8).drop (8 + (leWord (hpFrame 0 7 2 [] 2 ++ [0] : List W8) / 65536 % 4096))).any (fun x => x != 0xFF) = true)) ∧
    (((((run0).modHp fun h => { h with csnLow := true, live := true }) : State).coreRuns = true) ∧ ((((run0).modHp fun h => { h with csnLow := true, live := true }) : State).hp.csnLow = true) ∧ ((((run0).modHp fun h => { h with csnLow := true, live := true }) : State).hp.live = true) ∧ ((((run0).modHp fun h => { h with csnLow := true, live := true }) : State).hp.cur = .none) ∧ (8 ≤ ([0x00, 7, 0, 0x20, 0, 0, 0, 0] : List W8).length) ∧ (leWord ([0x00, 7, 0, 0x20, 0, 0, 0, 0] : List W8) ≠ 0xFFFFFFFF) ∧ (([0x00, 7, 0, 0x20, 0, 0, 0, 0] : List W8).length = 8 + (leWord ([0x00, 7, 0, 0x20, 0, 0, 0, 0] : List W8) / 65536 % 4096)) ∧ (leWord (([0x00, 7, 0, 0x20, 0, 0, 0, 0] : List W8).drop (4 + (leWord ([0x00, 7, 0, 0x20, 0, 0, 0, 0] : List W8) / 65536 % 4096))) ≠ crc16 ((([0x00, 7, 0, 0x20, 0, 0, 0, 0] : List W8).take (4 + (leWord ([0x00, 7, 0, 0x20, 0, 0, 0, 0] : List W8) / 65536 % 4096))).map BitVec.toNat))) := by
  refine ⟨?_, ?_, ?_, ?_, ?_, ?_, ?_, ?_, ?_, ?_⟩ <;> decide +kernel

/-- What meets the hypotheses of HostPortJudgesAnswersAndForwards: one conjunct for each clause, in the order of its clauses. -/
theorem witness_HostPortJudgesAnswersAndForwards_2 :
    (((((run0).modHp fun h => { h with csnLow := true, live := true }) : State).coreRuns = true) ∧ ((((run0).modHp fun h => { h with csnLow := true, live := true }) : State).hp.csnLow = true) ∧ ((((run0).modHp fun h => { h with csnLow := true, live := true }) : State).hp.live = true) ∧ ((((run0).modHp fun h => { h with csnLow := true, live := true }) : State).hp.cur = .none) ∧ (8 ≤ (hpFrame 0 7 2 [0] 0 : List W8).length) ∧ (leWord (hpFrame 0 7 2 [0] 0 : List W8) ≠ 0xFFFFFFFF) ∧ ((hpFrame 0 7 2 [0] 0 : List W8).length = 8 + (leWord (hpFrame 0 7 2 [0] 0 : List W8) / 65536 % 4096)) ∧ (leWord ((hpFrame 0 7 2 [0] 0 : List W8).drop (4 + (leWord (hpFrame 0 7 2 [0] 0 : List W8) / 65536 % 4096))) = crc16 (((hpFrame 0 7 2 [0] 0 : List W8).take (4 + (leWord (hpFrame 0 7 2 [0] 0 : List W8) / 65536 % 4096))).map BitVec.toNat)) ∧ (1024 < (leWord (hpFrame 0 7 2 [0] 0 : List W8) / 65536 % 4096) ∨ (leWord (hpFrame 0 7 2 [0] 0 : List W8) / 65536 % 4096) % 4 ≠ 0 ∨ (leWord (hpFrame 0 7 2 [0] 0 : List W8) % 256 ≤ 4 ∧ (leWord (hpFrame 0 7 2 [0] 0 : List W8) / 65536 % 4096) ≠ 0))) ∧
    (((((run0).modHp fun h => { h with csnLow := true, live := true }) : State).coreRuns = true) ∧ ((((run0).modHp fun h => { h with csnLow := true, live := true }) : State).hp.csnLow = true) ∧ ((((run0).modHp fun h => { h with csnLow := true, live := true }) : State).hp.live = true) ∧ ((((run0).modHp fun h => { h with csnLow := true, live := true }) : State).hp.cur = .none) ∧ (8 ≤ (hpFrame 9 7 2 [] 0 : List W8).length) ∧ (leWord (hpFrame 9 7 2 [] 0 : List W8) ≠ 0xFFFFFFFF) ∧ ((hpFrame 9 7 2 [] 0 : List W8).length = 8 + (leWord (hpFrame 9 7 2 [] 0 : List W8) / 65536 % 4096)) ∧ (leWord ((hpFrame 9 7 2 [] 0 : List W8).drop (4 + (leWord (hpFrame 9 7 2 [] 0 : List W8) / 65536 % 4096))) = crc16 (((hpFrame 9 7 2 [] 0 : List W8).take (4 + (leWord (hpFrame 9 7 2 [] 0 : List W8) / 65536 % 4096))).map BitVec.toNat)) ∧ ((leWord (hpFrame 9 7 2 [] 0 : List W8) / 65536 % 4096) ≤ 1024 ∧ (leWord (hpFrame 9 7 2 [] 0 : List W8) / 65536 % 4096) % 4 = 0 ∧ (4 < leWord (hpFrame 9 7 2 [] 0 : List W8) % 256 ∨ (leWord (hpFrame 9 7 2 [] 0 : List W8) / 65536 % 4096) = 0)) ∧ ((5 ≤ leWord (hpFrame 9 7 2 [] 0 : List W8) % 256 ∧ leWord (hpFrame 9 7 2 [] 0 : List W8) % 256 ≤ 15) ∨ leWord (hpFrame 9 7 2 [] 0 : List W8) / 2 ^ 28 = 15)) ∧
    (((run0 : State).coreRuns = true) ∧ ((run0 : State).hp.csnLow = false) ∧ ((run0 : State).hp.respWaiting = false) ∧ ((2 : BitVec 4) ≠ 15)) ∧
    (((((run0).modHp fun h => { h with copy := some [1] }) : State).coreRuns = true) ∧ ((((run0).modHp fun h => { h with copy := some [1] }) : State).hp.csnLow = false) ∧ ((((run0).modHp fun h => { h with copy := some [1] }) : State).hp.respWaiting = false) ∧ ((2 : BitVec 4) ≠ 15) ∧ ((((run0).modHp fun h => { h with copy := some [1] }) : State).hp.copy ≠ none)) ∧
    (((run0 : State).coreRuns = true) ∧ ((run0 : State).hp.csnLow = false) ∧ ((run0 : State).hp.respWaiting = false) ∧ ((2 : BitVec 4) ≠ 15) ∧ ((run0 : State).hp.copy = none)) ∧
    (((run0 : State).coreRuns = true) ∧ ((run0 : State).hp.csnLow = false) ∧ ((run0 : State).hp.respWaiting = false) ∧ ((2 : BitVec 4) ≠ 15)) ∧
    (((((run0).modHp fun h => { h with ident := some [1] }) : State).coreRuns = true) ∧ ((((run0).modHp fun h => { h with ident := some [1] }) : State).hp.csnLow = false) ∧ ((2 : BitVec 4) ≠ 15) ∧ ((((run0).modHp fun h => { h with ident := some [1] }) : State).hp.resend = false) ∧ ((((run0).modHp fun h => { h with ident := some [1] }) : State).hp.ident ≠ none) ∧ ((((run0).modHp fun h => { h with ident := some [1] }) : State).hp.ident ≠ some [])) ∧
    (((((run0).modHp fun h => { h with dup := Vector.replicate 16 (some 4) }) : State).coreRuns = true) ∧ ((((run0).modHp fun h => { h with dup := Vector.replicate 16 (some 4) }) : State).hp.csnLow = false) ∧ ((((run0).modHp fun h => { h with dup := Vector.replicate 16 (some 4) }) : State).hp.respWaiting = false) ∧ ((2 : BitVec 4) ≠ 15)) ∧
    (((run0 : State).coreRuns = true) ∧ ((run0 : State).hp.csnLow = false) ∧ ((run0 : State).hp.respWaiting = false) ∧ ((2 : BitVec 4) ≠ 15)) := by
  refine ⟨?_, ?_, ?_, ?_, ?_, ?_, ?_, ?_, ?_⟩ <;> decide +kernel

/-- What meets the hypotheses of HostPortJudgesAnswersAndForwards: one conjunct for each clause, in the order of its clauses. -/
theorem witness_HostPortJudgesAnswersAndForwards_3 :
    (((((run0.modQ 12 fun x => { x with cfg := 0x00020023 }).modHp fun h => { h with ctl := 1 }) : State).coreRuns = true) ∧ ((((run0.modQ 12 fun x => { x with cfg := 0x00020023 }).modHp fun h => { h with ctl := 1 }) : State).hp.csnLow = false) ∧ ((((run0.modQ 12 fun x => { x with cfg := 0x00020023 }).modHp fun h => { h with ctl := 1 }) : State).hp.respWaiting = false) ∧ (16 ≤ (0x21 : BitVec 8).toNat) ∧ ((2 : BitVec 4) ≠ 15) ∧ (([0x25] : List W32).length ≤ 256) ∧ (bit (((run0.modQ 12 fun x => { x with cfg := 0x00020023 }).modHp fun h => { h with ctl := 1 }) : State).hp.ctl 0 = true) ∧ ((((run0.modQ 12 fun x => { x with cfg := 0x00020023 }).modHp fun h => { h with ctl := 1 }) : State).hp.dup[(2 : BitVec 4).toNat] ≠ some (7 : BitVec 8).toNat) ∧ ((((run0.modQ 12 fun x => { x with cfg := 0x00020023 }).modHp fun h => { h with ctl := 1 }) : State).hp.out.length < 16) ∧ ((((run0.modQ 12 fun x => { x with cfg := 0x00020023 }).modHp fun h => { h with ctl := 1 }) : State).que.q[(12 : Fin 32)].en = true ∧ (((run0.modQ 12 fun x => { x with cfg := 0x00020023 }).modHp fun h => { h with ctl := 1 }) : State).que.q[(12 : Fin 32)].ents.length + 1 + ([0x25] : List W32).length ≤ (((run0.modQ 12 fun x => { x with cfg := 0x00020023 }).modHp fun h => { h with ctl := 1 }) : State).que.q[(12 : Fin 32)].depth) ∧ ((((run0.modQ 12 fun x => { x with cfg := 0x00020023 }).modHp fun h => { h with ctl := 1 }) : State).que.q[(12 : Fin 32)].w32 = true)) ∧
    (((run0 : State).coreRuns = true) ∧ ((run0 : State).hp.csnLow = false) ∧ ((run0 : State).hp.respWaiting = false) ∧ (16 ≤ (0x21 : BitVec 8).toNat) ∧ ((2 : BitVec 4) ≠ 15) ∧ (([0x25] : List W32).length ≤ 256) ∧ (bit (run0 : State).hp.ctl 0 = false)) ∧
    (((((run0.modQ 12 fun x => { x with cfg := 0x00020023 }).modHp fun h => { h with ctl := 1, dup := Vector.replicate 16 (some 7) }) : State).coreRuns = true) ∧ ((((run0.modQ 12 fun x => { x with cfg := 0x00020023 }).modHp fun h => { h with ctl := 1, dup := Vector.replicate 16 (some 7) }) : State).hp.csnLow = false) ∧ ((((run0.modQ 12 fun x => { x with cfg := 0x00020023 }).modHp fun h => { h with ctl := 1, dup := Vector.replicate 16 (some 7) }) : State).hp.respWaiting = false) ∧ (16 ≤ (0x21 : BitVec 8).toNat) ∧ ((2 : BitVec 4) ≠ 15) ∧ (([0x25] : List W32).length ≤ 256) ∧ (bit (((run0.modQ 12 fun x => { x with cfg := 0x00020023 }).modHp fun h => { h with ctl := 1, dup := Vector.replicate 16 (some 7) }) : State).hp.ctl 0 = true) ∧ ((((run0.modQ 12 fun x => { x with cfg := 0x00020023 }).modHp fun h => { h with ctl := 1, dup := Vector.replicate 16 (some 7) }) : State).hp.dup[(2 : BitVec 4).toNat] = some (7 : BitVec 8).toNat)) ∧
    (((((run0).modHp fun h => { h with ctl := 1 }) : State).coreRuns = true) ∧ ((((run0).modHp fun h => { h with ctl := 1 }) : State).hp.csnLow = false) ∧ ((((run0).modHp fun h => { h with ctl := 1 }) : State).hp.respWaiting = false) ∧ (16 ≤ (0x21 : BitVec 8).toNat) ∧ ((2 : BitVec 4) ≠ 15) ∧ (([0x25] : List W32).length ≤ 256) ∧ (bit (((run0).modHp fun h => { h with ctl := 1 }) : State).hp.ctl 0 = true) ∧ ((((run0).modHp fun h => { h with ctl := 1 }) : State).hp.dup[(2 : BitVec 4).toNat] ≠ some (7 : BitVec 8).toNat) ∧ (16 ≤ (((run0).modHp fun h => { h with ctl := 1 }) : State).hp.out.length ∨ ¬ ((((run0).modHp fun h => { h with ctl := 1 }) : State).que.q[(12 : Fin 32)].en = true ∧ (((run0).modHp fun h => { h with ctl := 1 }) : State).que.q[(12 : Fin 32)].ents.length + 1 + ([0x25] : List W32).length ≤ (((run0).modHp fun h => { h with ctl := 1 }) : State).que.q[(12 : Fin 32)].depth))) ∧
    (((((run0.modQ 13 fun x => { x with cfg := 0x00020023, ents := [0x20080721, 5, 6, 9] }).modHp fun h => { h with out := [(1, 7), (2, 7)], fwErr := true }) : State).coreRuns = true) ∧ ((((run0.modQ 13 fun x => { x with cfg := 0x00020023, ents := [0x20080721, 5, 6, 9] }).modHp fun h => { h with out := [(1, 7), (2, 7)], fwErr := true }) : State).que.q[(13 : Fin 32)].ents = (0x20080721 : W32) :: ([5, 6, 9] : List W32)) ∧ (fld (0x20080721 : W32) 16 12 ≤ 1024) ∧ (fld (0x20080721 : W32) 16 12 % 4 = 0) ∧ (1 + fld (0x20080721 : W32) 16 12 / 4 ≤ (((run0.modQ 13 fun x => { x with cfg := 0x00020023, ents := [0x20080721, 5, 6, 9] }).modHp fun h => { h with out := [(1, 7), (2, 7)], fwErr := true }) : State).que.q[(13 : Fin 32)].ents.length)) := by
  refine ⟨?_, ?_, ?_, ?_, ?_⟩ <;> decide +kernel

/-- What meets the hypotheses of HostPortJudgesAnswersAndForwards: one conjunct for each clause, in the order of its clauses. -/
theorem witness_HostPortJudgesAnswersAndForwards_4 :
    (((run0.modQ 13 fun x => { x with cfg := 0x00020023, ents := [0x20020721, 5] } : State).coreRuns = true) ∧ ((run0.modQ 13 fun x => { x with cfg := 0x00020023, ents := [0x20020721, 5] } : State).que.q[(13 : Fin 32)].ents = (0x20020721 : W32) :: ([5] : List W32)) ∧ (1024 < fld (0x20020721 : W32) 16 12 ∨ fld (0x20020721 : W32) 16 12 % 4 ≠ 0)) ∧
    (((run0.modQ 13 fun x => { x with cfg := 0x00020023, ents := [0x20080721, 5] } : State).coreRuns = true) ∧ ((run0.modQ 13 fun x => { x with cfg := 0x00020023, ents := [0x20080721, 5] } : State).que.q[(13 : Fin 32)].ents = (0x20080721 : W32) :: ([5] : List W32)) ∧ (fld (0x20080721 : W32) 16 12 ≤ 1024) ∧ (fld (0x20080721 : W32) 16 12 % 4 = 0) ∧ ((run0.modQ 13 fun x => { x with cfg := 0x00020023, ents := [0x20080721, 5] } : State).que.q[(13 : Fin 32)].ents.length < 1 + fld (0x20080721 : W32) 16 12 / 4)) ∧
    (((((run0).modHp fun h => { h with csnLow := true }) : State).hp.csnLow = true)) ∧
    (((((run0).modHp fun h => { h with csnLow := true }) : State).hp.csnLow = true)) ∧
    (((((run0).modHp fun h => { h with csnLow := true }) : State).hp.csnLow = true)) ∧
    (((((run0).modHp fun h => { h with csnLow := true }) : State).hp.csnLow = true)) ∧
    (((((run0).modHp fun h => { h with csnLow := true }) : State).hp.csnLow = true)) ∧
    (((((run0).modHp fun h => { h with csnLow := true }) : State).hp.csnLow = true)) ∧
    ((({ (run0.modPwr fun p => { p with phase := .deep }) with up := upd run0.up 1 fun _ => false } : State).pwr.phase = .sleep ∨ ({ (run0.modPwr fun p => { p with phase := .deep }) with up := upd run0.up 1 fun _ => false } : State).pwr.phase = .deep) ∧ (({ (run0.modPwr fun p => { p with phase := .deep }) with up := upd run0.up 1 fun _ => false } : State).coreRuns = false) ∧ (({ (run0.modPwr fun p => { p with phase := .deep }) with up := upd run0.up 1 fun _ => false } : State).hp.csnLow = false) ∧ (bit ({ (run0.modPwr fun p => { p with phase := .deep }) with up := upd run0.up 1 fun _ => false } : State).pwr.wakeEn 9 = true)) ∧
    (((run0 : State).coreRuns = true ∨ (run0 : State).hp.csnLow = true)) ∧
    ((({ run0 with sup := { run0.sup with coreReset := true } } : State).coreRuns = false) ∧ (({ run0 with sup := { run0.sup with coreReset := true } } : State).hp.csnLow = false) ∧ (({ run0 with sup := { run0.sup with coreReset := true } } : State).pwr.phase = .run ∨ ({ run0 with sup := { run0.sup with coreReset := true } } : State).pwr.phase = .off ∨ ((({ run0 with sup := { run0.sup with coreReset := true } } : State).pwr.phase = .sleep ∨ ({ run0 with sup := { run0.sup with coreReset := true } } : State).pwr.phase = .deep) ∧ bit ({ run0 with sup := { run0.sup with coreReset := true } } : State).pwr.wakeEn 9 = false))) ∧
    (((run0.modPwr fun p => { p with phase := .sleep } : State).pwr.phase = .sleep ∨ (run0.modPwr fun p => { p with phase := .sleep } : State).pwr.phase = .deep) ∧ ((run0.modPwr fun p => { p with phase := .sleep } : State).coreRuns = false) ∧ ((run0.modPwr fun p => { p with phase := .sleep } : State).hp.csnLow = false) ∧ (bit (run0.modPwr fun p => { p with phase := .sleep } : State).pwr.wakeEn 9 = true)) := by
  refine ⟨?_, ?_, ?_, ?_, ?_, ?_, ?_, ?_, ?_, ?_, ?_, ?_⟩ <;> decide +kernel

theorem witness_HostPortJudgesAnswersAndForwards_5 :
    ((run0 : State).que.q[(13 : Fin 32)].ents = [] ∨ (run0 : State).coreRuns = false) := by decide +kernel

/-- What meets the hypotheses of PlantLinkMovesFramesThroughItsRings: one conjunct for each clause, in the order of its clauses. -/
theorem witness_PlantLinkMovesFramesThroughItsRings_1 :
    ((canStore (run0 : State) 4 2)) ∧
    ((canStore (run0 : State) 4 2) ∧ ((run0 : State).plk.en = false)) ∧
    ((canStore ({ ((run0).modPlk fun k => { k with ctl := 1, txBase := 0x1000100, txBusy := true }) with mem := [(0x1000101, 2), (0x1000103, 129), (0x1000104, 10), (0x1000106, 1), (0x1000111, 3), (0x1000113, 129), (0x1000114, 20)] } : State) 4 2) ∧ (({ ((run0).modPlk fun k => { k with ctl := 1, txBase := 0x1000100, txBusy := true }) with mem := [(0x1000101, 2), (0x1000103, 129), (0x1000104, 10), (0x1000106, 1), (0x1000111, 3), (0x1000113, 129), (0x1000114, 20)] } : State).plk.en = true) ∧ (({ ((run0).modPlk fun k => { k with ctl := 1, txBase := 0x1000100, txBusy := true }) with mem := [(0x1000101, 2), (0x1000103, 129), (0x1000104, 10), (0x1000106, 1), (0x1000111, 3), (0x1000113, 129), (0x1000114, 20)] } : State).plk.txBusy = true ∨ ({ ((run0).modPlk fun k => { k with ctl := 1, txBase := 0x1000100, txBusy := true }) with mem := [(0x1000101, 2), (0x1000103, 129), (0x1000104, 10), (0x1000106, 1), (0x1000111, 3), (0x1000113, 129), (0x1000114, 20)] } : State).plk.rxBusy = true) ∧ (((false : Bool) && ({ ((run0).modPlk fun k => { k with ctl := 1, txBase := 0x1000100, txBusy := true }) with mem := [(0x1000101, 2), (0x1000103, 129), (0x1000104, 10), (0x1000106, 1), (0x1000111, 3), (0x1000113, 129), (0x1000114, 20)] } : State).plk.txBusy && decide (({ ((run0).modPlk fun k => { k with ctl := 1, txBase := 0x1000100, txBusy := true }) with mem := [(0x1000101, 2), (0x1000103, 129), (0x1000104, 10), (0x1000106, 1), (0x1000111, 3), (0x1000113, 129), (0x1000114, 20)] } : State).plk.busAt ≤ ({ ((run0).modPlk fun k => { k with ctl := 1, txBase := 0x1000100, txBusy := true }) with mem := [(0x1000101, 2), (0x1000103, 129), (0x1000104, 10), (0x1000106, 1), (0x1000111, 3), (0x1000113, 129), (0x1000114, 20)] } : State).now - (0 : Nat))) = false)) ∧
    ((canStore ({ ((run0).modPlk fun k => { k with ctl := 1, txBase := 0x1000100, txHead := 1, pst := true }) with mem := [(0x1000101, 2), (0x1000103, 129), (0x1000104, 10), (0x1000106, 1), (0x1000111, 3), (0x1000113, 129), (0x1000114, 20)] } : State) 4 2) ∧ (({ ((run0).modPlk fun k => { k with ctl := 1, txBase := 0x1000100, txHead := 1, pst := true }) with mem := [(0x1000101, 2), (0x1000103, 129), (0x1000104, 10), (0x1000106, 1), (0x1000111, 3), (0x1000113, 129), (0x1000114, 20)] } : State).canonical) ∧ (({ ((run0).modPlk fun k => { k with ctl := 1, txBase := 0x1000100, txHead := 1, pst := true }) with mem := [(0x1000101, 2), (0x1000103, 129), (0x1000104, 10), (0x1000106, 1), (0x1000111, 3), (0x1000113, 129), (0x1000114, 20)] } : State).ecc = []) ∧ (({ ((run0).modPlk fun k => { k with ctl := 1, txBase := 0x1000100, txHead := 1, pst := true }) with mem := [(0x1000101, 2), (0x1000103, 129), (0x1000104, 10), (0x1000106, 1), (0x1000111, 3), (0x1000113, 129), (0x1000114, 20)] } : State).plk.en = true) ∧ (({ ((run0).modPlk fun k => { k with ctl := 1, txBase := 0x1000100, txHead := 1, pst := true }) with mem := [(0x1000101, 2), (0x1000103, 129), (0x1000104, 10), (0x1000106, 1), (0x1000111, 3), (0x1000113, 129), (0x1000114, 20)] } : State).plk.txBusy = false) ∧ (({ ((run0).modPlk fun k => { k with ctl := 1, txBase := 0x1000100, txHead := 1, pst := true }) with mem := [(0x1000101, 2), (0x1000103, 129), (0x1000104, 10), (0x1000106, 1), (0x1000111, 3), (0x1000113, 129), (0x1000114, 20)] } : State).plk.rxBusy = false)) := by
  refine ⟨?_, ?_, ?_, ?_⟩ <;> decide +kernel

theorem witness_PlantLinkMovesFramesThroughItsRings_2 :
    (canStore ({ ((run0).modPlk fun k => { k with ctl := 1, txBase := 0x1000100, txBusy := true }) with mem := [(0x1000101, 2), (0x1000103, 129), (0x1000104, 10), (0x1000106, 1), (0x1000111, 3), (0x1000113, 129), (0x1000114, 20)] } : State) 4 2) ∧ (({ ((run0).modPlk fun k => { k with ctl := 1, txBase := 0x1000100, txBusy := true }) with mem := [(0x1000101, 2), (0x1000103, 129), (0x1000104, 10), (0x1000106, 1), (0x1000111, 3), (0x1000113, 129), (0x1000114, 20)] } : State).canonical) ∧ (({ ((run0).modPlk fun k => { k with ctl := 1, txBase := 0x1000100, txBusy := true }) with mem := [(0x1000101, 2), (0x1000103, 129), (0x1000104, 10), (0x1000106, 1), (0x1000111, 3), (0x1000113, 129), (0x1000114, 20)] } : State).plk.en = true) ∧ (({ ((run0).modPlk fun k => { k with ctl := 1, txBase := 0x1000100, txBusy := true }) with mem := [(0x1000101, 2), (0x1000103, 129), (0x1000104, 10), (0x1000106, 1), (0x1000111, 3), (0x1000113, 129), (0x1000114, 20)] } : State).plk.txBusy = true) ∧ (({ ((run0).modPlk fun k => { k with ctl := 1, txBase := 0x1000100, txBusy := true }) with mem := [(0x1000101, 2), (0x1000103, 129), (0x1000104, 10), (0x1000106, 1), (0x1000111, 3), (0x1000113, 129), (0x1000114, 20)] } : State).plk.rxBusy = false) ∧ (({ ((run0).modPlk fun k => { k with ctl := 1, txBase := 0x1000100, txBusy := true }) with mem := [(0x1000101, 2), (0x1000103, 129), (0x1000104, 10), (0x1000106, 1), (0x1000111, 3), (0x1000113, 129), (0x1000114, 20)] } : State).plk.offPend = false) ∧ ((true : Bool) = true) ∧ (({ ((run0).modPlk fun k => { k with ctl := 1, txBase := 0x1000100, txBusy := true }) with mem := [(0x1000101, 2), (0x1000103, 129), (0x1000104, 10), (0x1000106, 1), (0x1000111, 3), (0x1000113, 129), (0x1000114, 20)] } : State).plk.busAt ≤ ({ ((run0).modPlk fun k => { k with ctl := 1, txBase := 0x1000100, txBusy := true }) with mem := [(0x1000101, 2), (0x1000103, 129), (0x1000104, 10), (0x1000106, 1), (0x1000111, 3), (0x1000113, 129), (0x1000114, 20)] } : State).now - (0 : Nat)) ∧ (({ ((run0).modPlk fun k => { k with ctl := 1, txBase := 0x1000100, txBusy := true }) with mem := [(0x1000101, 2), (0x1000103, 129), (0x1000104, 10), (0x1000106, 1), (0x1000111, 3), (0x1000113, 129), (0x1000114, 20)] } : State).plkStalls (({ ((run0).modPlk fun k => { k with ctl := 1, txBase := 0x1000100, txBusy := true }) with mem := [(0x1000101, 2), (0x1000103, 129), (0x1000104, 10), (0x1000106, 1), (0x1000111, 3), (0x1000113, 129), (0x1000114, 20)] } : State).plk.txAddr ({ ((run0).modPlk fun k => { k with ctl := 1, txBase := 0x1000100, txBusy := true }) with mem := [(0x1000101, 2), (0x1000103, 129), (0x1000104, 10), (0x1000106, 1), (0x1000111, 3), (0x1000113, 129), (0x1000114, 20)] } : State).plk.txHead) = false) ∧ (({ ((run0).modPlk fun k => { k with ctl := 1, txBase := 0x1000100, txBusy := true }) with mem := [(0x1000101, 2), (0x1000103, 129), (0x1000104, 10), (0x1000106, 1), (0x1000111, 3), (0x1000113, 129), (0x1000114, 20)] } : State).plkReach (({ ((run0).modPlk fun k => { k with ctl := 1, txBase := 0x1000100, txBusy := true }) with mem := [(0x1000101, 2), (0x1000103, 129), (0x1000104, 10), (0x1000106, 1), (0x1000111, 3), (0x1000113, 129), (0x1000114, 20)] } : State).plk.txAddr ({ ((run0).modPlk fun k => { k with ctl := 1, txBase := 0x1000100, txBusy := true }) with mem := [(0x1000101, 2), (0x1000103, 129), (0x1000104, 10), (0x1000106, 1), (0x1000111, 3), (0x1000113, 129), (0x1000114, 20)] } : State).plk.txHead) = true) ∧ (({ ((run0).modPlk fun k => { k with ctl := 1, txBase := 0x1000100, txBusy := true }) with mem := [(0x1000101, 2), (0x1000103, 129), (0x1000104, 10), (0x1000106, 1), (0x1000111, 3), (0x1000113, 129), (0x1000114, 20)] } : State).descOwn (({ ((run0).modPlk fun k => { k with ctl := 1, txBase := 0x1000100, txBusy := true }) with mem := [(0x1000101, 2), (0x1000103, 129), (0x1000104, 10), (0x1000106, 1), (0x1000111, 3), (0x1000113, 129), (0x1000114, 20)] } : State).plk.txAddr ({ ((run0).modPlk fun k => { k with ctl := 1, txBase := 0x1000100, txBusy := true }) with mem := [(0x1000101, 2), (0x1000103, 129), (0x1000104, 10), (0x1000106, 1), (0x1000111, 3), (0x1000113, 129), (0x1000114, 20)] } : State).plk.txHead) = true) ∧ (({ ((run0).modPlk fun k => { k with ctl := 1, txBase := 0x1000100, txBusy := true }) with mem := [(0x1000101, 2), (0x1000103, 129), (0x1000104, 10), (0x1000106, 1), (0x1000111, 3), (0x1000113, 129), (0x1000114, 20)] } : State).ecc = []) := by decide +kernel

/-- What meets the hypotheses of PlantLinkMovesFramesThroughItsRings: one conjunct for each clause, in the order of its clauses. -/
theorem witness_PlantLinkMovesFramesThroughItsRings_3 :
    ((canStore ({ ((run0).modPlk fun k => { k with ctl := 1, txBase := 0x1000100, txHead := 1 }) with mem := [(0x1000101, 2), (0x1000103, 129), (0x1000104, 10), (0x1000106, 1), (0x1000111, 3), (0x1000113, 129), (0x1000114, 20)] } : State) 4 2) ∧ (({ ((run0).modPlk fun k => { k with ctl := 1, txBase := 0x1000100, txHead := 1 }) with mem := [(0x1000101, 2), (0x1000103, 129), (0x1000104, 10), (0x1000106, 1), (0x1000111, 3), (0x1000113, 129), (0x1000114, 20)] } : State).plk.en = true) ∧ (({ ((run0).modPlk fun k => { k with ctl := 1, txBase := 0x1000100, txHead := 1 }) with mem := [(0x1000101, 2), (0x1000103, 129), (0x1000104, 10), (0x1000106, 1), (0x1000111, 3), (0x1000113, 129), (0x1000114, 20)] } : State).plk.txBusy = false) ∧ (({ ((run0).modPlk fun k => { k with ctl := 1, txBase := 0x1000100, txHead := 1 }) with mem := [(0x1000101, 2), (0x1000103, 129), (0x1000104, 10), (0x1000106, 1), (0x1000111, 3), (0x1000113, 129), (0x1000114, 20)] } : State).ecc = []) ∧ (({ ((run0).modPlk fun k => { k with ctl := 1, txBase := 0x1000100, txHead := 1 }) with mem := [(0x1000101, 2), (0x1000103, 129), (0x1000104, 10), (0x1000106, 1), (0x1000111, 3), (0x1000113, 129), (0x1000114, 20)] } : State).plk.held = []) ∧ (({ ((run0).modPlk fun k => { k with ctl := 1, txBase := 0x1000100, txHead := 1 }) with mem := [(0x1000101, 2), (0x1000103, 129), (0x1000104, 10), (0x1000106, 1), (0x1000111, 3), (0x1000113, 129), (0x1000114, 20)] } : State).plkWaits (({ ((run0).modPlk fun k => { k with ctl := 1, txBase := 0x1000100, txHead := 1 }) with mem := [(0x1000101, 2), (0x1000103, 129), (0x1000104, 10), (0x1000106, 1), (0x1000111, 3), (0x1000113, 129), (0x1000114, 20)] } : State).plk.txAddr ({ ((run0).modPlk fun k => { k with ctl := 1, txBase := 0x1000100, txHead := 1 }) with mem := [(0x1000101, 2), (0x1000103, 129), (0x1000104, 10), (0x1000106, 1), (0x1000111, 3), (0x1000113, 129), (0x1000114, 20)] } : State).plk.txHead) = false)) ∧
    ((canStore ({ ((run0).modPlk fun k => { k with ctl := 1, txBase := 0x1000100, held := [.rxLook] }) with mem := [(0x1000101, 2), (0x1000103, 129), (0x1000104, 10), (0x1000106, 1), (0x1000111, 3), (0x1000113, 129), (0x1000114, 20)] } : State) 4 2) ∧ (({ ((run0).modPlk fun k => { k with ctl := 1, txBase := 0x1000100, held := [.rxLook] }) with mem := [(0x1000101, 2), (0x1000103, 129), (0x1000104, 10), (0x1000106, 1), (0x1000111, 3), (0x1000113, 129), (0x1000114, 20)] } : State).plk.en = true) ∧ (({ ((run0).modPlk fun k => { k with ctl := 1, txBase := 0x1000100, held := [.rxLook] }) with mem := [(0x1000101, 2), (0x1000103, 129), (0x1000104, 10), (0x1000106, 1), (0x1000111, 3), (0x1000113, 129), (0x1000114, 20)] } : State).plk.txBusy = false) ∧ (({ ((run0).modPlk fun k => { k with ctl := 1, txBase := 0x1000100, held := [.rxLook] }) with mem := [(0x1000101, 2), (0x1000103, 129), (0x1000104, 10), (0x1000106, 1), (0x1000111, 3), (0x1000113, 129), (0x1000114, 20)] } : State).plk.held ≠ [] ∨ ({ ((run0).modPlk fun k => { k with ctl := 1, txBase := 0x1000100, held := [.rxLook] }) with mem := [(0x1000101, 2), (0x1000103, 129), (0x1000104, 10), (0x1000106, 1), (0x1000111, 3), (0x1000113, 129), (0x1000114, 20)] } : State).plkWaits (({ ((run0).modPlk fun k => { k with ctl := 1, txBase := 0x1000100, held := [.rxLook] }) with mem := [(0x1000101, 2), (0x1000103, 129), (0x1000104, 10), (0x1000106, 1), (0x1000111, 3), (0x1000113, 129), (0x1000114, 20)] } : State).plk.txAddr ({ ((run0).modPlk fun k => { k with ctl := 1, txBase := 0x1000100, held := [.rxLook] }) with mem := [(0x1000101, 2), (0x1000103, 129), (0x1000104, 10), (0x1000106, 1), (0x1000111, 3), (0x1000113, 129), (0x1000114, 20)] } : State).plk.txHead) = true)) ∧
    ((canStore (run0 : State) 4 2) ∧ ((run0 : State).plk.en = false ∨ (run0 : State).plk.txBusy = true)) := by
  refine ⟨?_, ?_, ?_⟩ <;> decide +kernel

/-- What meets the hypotheses of PlantLinkMovesFramesThroughItsRings: one conjunct for each clause, in the order of its clauses. -/
theorem witness_PlantLinkMovesFramesThroughItsRings_4 :
    ((canStore ({ ((run0).modPlk fun k => { k with ctl := 1, rxBase := 0x1000100,  }) with mem := [(0x1000101, 2), (0x1000103, 129)] } : State) 4 2) ∧ (({ ((run0).modPlk fun k => { k with ctl := 1, rxBase := 0x1000100,  }) with mem := [(0x1000101, 2), (0x1000103, 129)] } : State).plk.en = true) ∧ (({ ((run0).modPlk fun k => { k with ctl := 1, rxBase := 0x1000100,  }) with mem := [(0x1000101, 2), (0x1000103, 129)] } : State).ecc = []) ∧ (({ ((run0).modPlk fun k => { k with ctl := 1, rxBase := 0x1000100,  }) with mem := [(0x1000101, 2), (0x1000103, 129)] } : State).plk.held = []) ∧ (({ ((run0).modPlk fun k => { k with ctl := 1, rxBase := 0x1000100,  }) with mem := [(0x1000101, 2), (0x1000103, 129)] } : State).plkWaits (({ ((run0).modPlk fun k => { k with ctl := 1, rxBase := 0x1000100,  }) with mem := [(0x1000101, 2), (0x1000103, 129)] } : State).plk.rxAddr ({ ((run0).modPlk fun k => { k with ctl := 1, rxBase := 0x1000100,  }) with mem := [(0x1000101, 2), (0x1000103, 129)] } : State).plk.rxHead) = false)) ∧
    ((canStore ({ ((run0).modPlk fun k => { k with ctl := 1, txBase := 0x1000100, held := [.rxLook] }) with mem := [(0x1000101, 2), (0x1000103, 129), (0x1000104, 10), (0x1000106, 1), (0x1000111, 3), (0x1000113, 129), (0x1000114, 20)] } : State) 4 2) ∧ (({ ((run0).modPlk fun k => { k with ctl := 1, txBase := 0x1000100, held := [.rxLook] }) with mem := [(0x1000101, 2), (0x1000103, 129), (0x1000104, 10), (0x1000106, 1), (0x1000111, 3), (0x1000113, 129), (0x1000114, 20)] } : State).plk.en = true) ∧ (({ ((run0).modPlk fun k => { k with ctl := 1, txBase := 0x1000100, held := [.rxLook] }) with mem := [(0x1000101, 2), (0x1000103, 129), (0x1000104, 10), (0x1000106, 1), (0x1000111, 3), (0x1000113, 129), (0x1000114, 20)] } : State).plk.held ≠ [] ∨ ({ ((run0).modPlk fun k => { k with ctl := 1, txBase := 0x1000100, held := [.rxLook] }) with mem := [(0x1000101, 2), (0x1000103, 129), (0x1000104, 10), (0x1000106, 1), (0x1000111, 3), (0x1000113, 129), (0x1000114, 20)] } : State).plkWaits (({ ((run0).modPlk fun k => { k with ctl := 1, txBase := 0x1000100, held := [.rxLook] }) with mem := [(0x1000101, 2), (0x1000103, 129), (0x1000104, 10), (0x1000106, 1), (0x1000111, 3), (0x1000113, 129), (0x1000114, 20)] } : State).plk.rxAddr ({ ((run0).modPlk fun k => { k with ctl := 1, txBase := 0x1000100, held := [.rxLook] }) with mem := [(0x1000101, 2), (0x1000103, 129), (0x1000104, 10), (0x1000106, 1), (0x1000111, 3), (0x1000113, 129), (0x1000114, 20)] } : State).plk.rxHead) = true)) ∧
    ((canStore (run0 : State) 4 2) ∧ ((run0 : State).plk.en = false)) := by
  refine ⟨?_, ?_, ?_⟩ <;> decide +kernel

theorem witness_PlantLinkMovesFramesThroughItsRings_5 :
    (({ ((run0).modPlk fun k => { k with ctl := 1, txBase := 0x1000100, txBusy := true }) with mem := [(0x1000101, 2), (0x1000103, 129), (0x1000104, 10), (0x1000106, 1), (0x1000111, 3), (0x1000113, 129), (0x1000114, 20)] } : State).isUp 4 = true) ∧ (({ ((run0).modPlk fun k => { k with ctl := 1, txBase := 0x1000100, txBusy := true }) with mem := [(0x1000101, 2), (0x1000103, 129), (0x1000104, 10), (0x1000106, 1), (0x1000111, 3), (0x1000113, 129), (0x1000114, 20)] } : State).plk.txBusy = true) ∧ (({ ((run0).modPlk fun k => { k with ctl := 1, txBase := 0x1000100, txBusy := true }) with mem := [(0x1000101, 2), (0x1000103, 129), (0x1000104, 10), (0x1000106, 1), (0x1000111, 3), (0x1000113, 129), (0x1000114, 20)] } : State).plk.mayStart (0 : Fin 32).val (0 : Nat) (0 : Nat) = true) ∧ ((0 : Fin 3).val ≠ 0 ∨ ({ ((run0).modPlk fun k => { k with ctl := 1, txBase := 0x1000100, txBusy := true }) with mem := [(0x1000101, 2), (0x1000103, 129), (0x1000104, 10), (0x1000106, 1), (0x1000111, 3), (0x1000113, 129), (0x1000114, 20)] } : State).plk.busAt ≤ ({ ((run0).modPlk fun k => { k with ctl := 1, txBase := 0x1000100, txBusy := true }) with mem := [(0x1000101, 2), (0x1000103, 129), (0x1000104, 10), (0x1000106, 1), (0x1000111, 3), (0x1000113, 129), (0x1000114, 20)] } : State).now - (0 : Nat)) ∧ (({ ((run0).modPlk fun k => { k with ctl := 1, txBase := 0x1000100, txBusy := true }) with mem := [(0x1000101, 2), (0x1000103, 129), (0x1000104, 10), (0x1000106, 1), (0x1000111, 3), (0x1000113, 129), (0x1000114, 20)] } : State).canonical) ∧ (({ ((run0).modPlk fun k => { k with ctl := 1, txBase := 0x1000100, txBusy := true }) with mem := [(0x1000101, 2), (0x1000103, 129), (0x1000104, 10), (0x1000106, 1), (0x1000111, 3), (0x1000113, 129), (0x1000114, 20)] } : State).plk.offPend = false) ∧ (({ ((run0).modPlk fun k => { k with ctl := 1, txBase := 0x1000100, txBusy := true }) with mem := [(0x1000101, 2), (0x1000103, 129), (0x1000104, 10), (0x1000106, 1), (0x1000111, 3), (0x1000113, 129), (0x1000114, 20)] } : State).plkStalls (({ ((run0).modPlk fun k => { k with ctl := 1, txBase := 0x1000100, txBusy := true }) with mem := [(0x1000101, 2), (0x1000103, 129), (0x1000104, 10), (0x1000106, 1), (0x1000111, 3), (0x1000113, 129), (0x1000114, 20)] } : State).plk.txAddr ({ ((run0).modPlk fun k => { k with ctl := 1, txBase := 0x1000100, txBusy := true }) with mem := [(0x1000101, 2), (0x1000103, 129), (0x1000104, 10), (0x1000106, 1), (0x1000111, 3), (0x1000113, 129), (0x1000114, 20)] } : State).plk.txHead) = false) ∧ (({ ((run0).modPlk fun k => { k with ctl := 1, txBase := 0x1000100, txBusy := true }) with mem := [(0x1000101, 2), (0x1000103, 129), (0x1000104, 10), (0x1000106, 1), (0x1000111, 3), (0x1000113, 129), (0x1000114, 20)] } : State).plkReach (({ ((run0).modPlk fun k => { k with ctl := 1, txBase := 0x1000100, txBusy := true }) with mem := [(0x1000101, 2), (0x1000103, 129), (0x1000104, 10), (0x1000106, 1), (0x1000111, 3), (0x1000113, 129), (0x1000114, 20)] } : State).plk.txAddr ({ ((run0).modPlk fun k => { k with ctl := 1, txBase := 0x1000100, txBusy := true }) with mem := [(0x1000101, 2), (0x1000103, 129), (0x1000104, 10), (0x1000106, 1), (0x1000111, 3), (0x1000113, 129), (0x1000114, 20)] } : State).plk.txHead) = true) ∧ (({ ((run0).modPlk fun k => { k with ctl := 1, txBase := 0x1000100, txBusy := true }) with mem := [(0x1000101, 2), (0x1000103, 129), (0x1000104, 10), (0x1000106, 1), (0x1000111, 3), (0x1000113, 129), (0x1000114, 20)] } : State).plkWaits (({ ((run0).modPlk fun k => { k with ctl := 1, txBase := 0x1000100, txBusy := true }) with mem := [(0x1000101, 2), (0x1000103, 129), (0x1000104, 10), (0x1000106, 1), (0x1000111, 3), (0x1000113, 129), (0x1000114, 20)] } : State).plk.txAddr ((({ ((run0).modPlk fun k => { k with ctl := 1, txBase := 0x1000100, txBusy := true }) with mem := [(0x1000101, 2), (0x1000103, 129), (0x1000104, 10), (0x1000106, 1), (0x1000111, 3), (0x1000113, 129), (0x1000114, 20)] } : State).plk.txHead + 1) % ringLen ({ ((run0).modPlk fun k => { k with ctl := 1, txBase := 0x1000100, txBusy := true }) with mem := [(0x1000101, 2), (0x1000103, 129), (0x1000104, 10), (0x1000106, 1), (0x1000111, 3), (0x1000113, 129), (0x1000114, 20)] } : State).plk.txCfg)) = false) ∧ (({ ((run0).modPlk fun k => { k with ctl := 1, txBase := 0x1000100, txBusy := true }) with mem := [(0x1000101, 2), (0x1000103, 129), (0x1000104, 10), (0x1000106, 1), (0x1000111, 3), (0x1000113, 129), (0x1000114, 20)] } : State).ecc = []) := by decide +kernel

/-- What meets the hypotheses of PlantLinkMovesFramesThroughItsRings: one conjunct for each clause, in the order of its clauses. -/
theorem witness_PlantLinkMovesFramesThroughItsRings_6 :
    ((({ ((run0).modPlk fun k => { k with ctl := 1, txBase := 0x1000100, txBusy := true, held := [.rxLook] }) with mem := [(0x1000101, 2), (0x1000103, 129), (0x1000104, 10), (0x1000106, 1), (0x1000111, 3), (0x1000113, 129), (0x1000114, 20)] } : State).isUp 4 = true) ∧ (({ ((run0).modPlk fun k => { k with ctl := 1, txBase := 0x1000100, txBusy := true, held := [.rxLook] }) with mem := [(0x1000101, 2), (0x1000103, 129), (0x1000104, 10), (0x1000106, 1), (0x1000111, 3), (0x1000113, 129), (0x1000114, 20)] } : State).plk.txBusy = true) ∧ (({ ((run0).modPlk fun k => { k with ctl := 1, txBase := 0x1000100, txBusy := true, held := [.rxLook] }) with mem := [(0x1000101, 2), (0x1000103, 129), (0x1000104, 10), (0x1000106, 1), (0x1000111, 3), (0x1000113, 129), (0x1000114, 20)] } : State).plk.mayStart (0 : Fin 32).val (0 : Nat) (0 : Nat) = true) ∧ ((0 : Fin 3).val ≠ 0 ∨ ({ ((run0).modPlk fun k => { k with ctl := 1, txBase := 0x1000100, txBusy := true, held := [.rxLook] }) with mem := [(0x1000101, 2), (0x1000103, 129), (0x1000104, 10), (0x1000106, 1), (0x1000111, 3), (0x1000113, 129), (0x1000114, 20)] } : State).plk.busAt ≤ ({ ((run0).modPlk fun k => { k with ctl := 1, txBase := 0x1000100, txBusy := true, held := [.rxLook] }) with mem := [(0x1000101, 2), (0x1000103, 129), (0x1000104, 10), (0x1000106, 1), (0x1000111, 3), (0x1000113, 129), (0x1000114, 20)] } : State).now - (0 : Nat)) ∧ (({ ((run0).modPlk fun k => { k with ctl := 1, txBase := 0x1000100, txBusy := true, held := [.rxLook] }) with mem := [(0x1000101, 2), (0x1000103, 129), (0x1000104, 10), (0x1000106, 1), (0x1000111, 3), (0x1000113, 129), (0x1000114, 20)] } : State).plkStalls (({ ((run0).modPlk fun k => { k with ctl := 1, txBase := 0x1000100, txBusy := true, held := [.rxLook] }) with mem := [(0x1000101, 2), (0x1000103, 129), (0x1000104, 10), (0x1000106, 1), (0x1000111, 3), (0x1000113, 129), (0x1000114, 20)] } : State).plk.txAddr ({ ((run0).modPlk fun k => { k with ctl := 1, txBase := 0x1000100, txBusy := true, held := [.rxLook] }) with mem := [(0x1000101, 2), (0x1000103, 129), (0x1000104, 10), (0x1000106, 1), (0x1000111, 3), (0x1000113, 129), (0x1000114, 20)] } : State).plk.txHead) = true)) ∧
    ((({ ((run0).modPlk fun k => { k with ctl := 1, txBase := 0x1000100, txBusy := true, plcaCfg := 7, pst := true }) with mem := [(0x1000101, 2), (0x1000103, 129), (0x1000104, 10), (0x1000106, 1), (0x1000111, 3), (0x1000113, 129), (0x1000114, 20)] } : State).plk.txBusy = false ∨ ({ ((run0).modPlk fun k => { k with ctl := 1, txBase := 0x1000100, txBusy := true, plcaCfg := 7, pst := true }) with mem := [(0x1000101, 2), (0x1000103, 129), (0x1000104, 10), (0x1000106, 1), (0x1000111, 3), (0x1000113, 129), (0x1000114, 20)] } : State).plk.mayStart (2 : Fin 32).val (0 : Nat) (0 : Nat) = false ∨ ((0 : Fin 3).val = 0 ∧ ({ ((run0).modPlk fun k => { k with ctl := 1, txBase := 0x1000100, txBusy := true, plcaCfg := 7, pst := true }) with mem := [(0x1000101, 2), (0x1000103, 129), (0x1000104, 10), (0x1000106, 1), (0x1000111, 3), (0x1000113, 129), (0x1000114, 20)] } : State).now - (0 : Nat) < ({ ((run0).modPlk fun k => { k with ctl := 1, txBase := 0x1000100, txBusy := true, plcaCfg := 7, pst := true }) with mem := [(0x1000101, 2), (0x1000103, 129), (0x1000104, 10), (0x1000106, 1), (0x1000111, 3), (0x1000113, 129), (0x1000114, 20)] } : State).plk.busAt))) ∧
    ((bit ({ Plk.init with plcaCfg := 0x00020801, pst := true } : Plk).plcaCfg 0 = true) ∧ (({ Plk.init with plcaCfg := 0x00020801, pst := true } : Plk).pst = true)) ∧
    ((({ ((run0).modPlk fun k => { k with ctl := 1, rxBase := 0x1000100,  }) with mem := [(0x1000101, 2), (0x1000103, 129)] } : State).plkUp = true) ∧ (({ ((run0).modPlk fun k => { k with ctl := 1, rxBase := 0x1000100,  }) with mem := [(0x1000101, 2), (0x1000103, 129)] } : State).plk.en = true ∨ (({ ((run0).modPlk fun k => { k with ctl := 1, rxBase := 0x1000100,  }) with mem := [(0x1000101, 2), (0x1000103, 129)] } : State).plk.offPend = true ∧ ({ ((run0).modPlk fun k => { k with ctl := 1, rxBase := 0x1000100,  }) with mem := [(0x1000101, 2), (0x1000103, 129)] } : State).plk.rxBusy = true))) := by
  refine ⟨?_, ?_, ?_, ?_⟩ <;> decide +kernel

theorem witness_PlantLinkMovesFramesThroughItsRings_7 :
    (({ ((run0).modPlk fun k => { k with ctl := 1, rxBase := 0x1000100, rxRun := true, rxCfg := 0x06000002 }) with mem := [(0x1000101, 2), (0x1000103, 129)] } : State).plkUp = true) ∧ (({ ((run0).modPlk fun k => { k with ctl := 1, rxBase := 0x1000100, rxRun := true, rxCfg := 0x06000002 }) with mem := [(0x1000101, 2), (0x1000103, 129)] } : State).plk.offPend = false) ∧ (({ ((run0).modPlk fun k => { k with ctl := 1, rxBase := 0x1000100, rxRun := true, rxCfg := 0x06000002 }) with mem := [(0x1000101, 2), (0x1000103, 129)] } : State).plk.en = true) ∧ (60 ≤ (List.replicate 6 0xFF ++ List.replicate 55 7 : List W8).length) ∧ ((List.replicate 6 0xFF ++ List.replicate 55 7 : List W8).length ≤ 1518) ∧ ((fcsOf (List.replicate 6 0xFF ++ List.replicate 55 7) : List W8).length = 4) ∧ (({ ((run0).modPlk fun k => { k with ctl := 1, rxBase := 0x1000100, rxRun := true, rxCfg := 0x06000002 }) with mem := [(0x1000101, 2), (0x1000103, 129)] } : State).plk.busAt ≤ ({ ((run0).modPlk fun k => { k with ctl := 1, rxBase := 0x1000100, rxRun := true, rxCfg := 0x06000002 }) with mem := [(0x1000101, 2), (0x1000103, 129)] } : State).now - (0 : Nat)) ∧ (({ ((run0).modPlk fun k => { k with ctl := 1, rxBase := 0x1000100, rxRun := true, rxCfg := 0x06000002 }) with mem := [(0x1000101, 2), (0x1000103, 129)] } : State).canonical) ∧ (bit ({ ((run0).modPlk fun k => { k with ctl := 1, rxBase := 0x1000100, rxRun := true, rxCfg := 0x06000002 }) with mem := [(0x1000101, 2), (0x1000103, 129)] } : State).plk.ctl 1 = true ∨ ((List.range 6).all fun i => (List.replicate 6 0xFF ++ List.replicate 55 7 : List W8).getD i 0 == 0xFF) = true ∨ (bit ({ ((run0).modPlk fun k => { k with ctl := 1, rxBase := 0x1000100, rxRun := true, rxCfg := 0x06000002 }) with mem := [(0x1000101, 2), (0x1000103, 129)] } : State).plk.ctl 2 = true ∧ ((List.replicate 6 0xFF ++ List.replicate 55 7 : List W8).getD 0 0).getLsbD 0 = true) ∨ ((List.range 6).all fun i => ((List.replicate 6 0xFF ++ List.replicate 55 7 : List W8).getD i 0).toNat == (({ ((run0).modPlk fun k => { k with ctl := 1, rxBase := 0x1000100, rxRun := true, rxCfg := 0x06000002 }) with mem := [(0x1000101, 2), (0x1000103, 129)] } : State).plk.macLo.toNat + 2 ^ 32 * fld ({ ((run0).modPlk fun k => { k with ctl := 1, rxBase := 0x1000100, rxRun := true, rxCfg := 0x06000002 }) with mem := [(0x1000101, 2), (0x1000103, 129)] } : State).plk.macHi 0 16) / 2 ^ (8 * i) % 256) = true) ∧ (({ ((run0).modPlk fun k => { k with ctl := 1, rxBase := 0x1000100, rxRun := true, rxCfg := 0x06000002 }) with mem := [(0x1000101, 2), (0x1000103, 129)] } : State).plkStalls (({ ((run0).modPlk fun k => { k with ctl := 1, rxBase := 0x1000100, rxRun := true, rxCfg := 0x06000002 }) with mem := [(0x1000101, 2), (0x1000103, 129)] } : State).plk.rxAddr ({ ((run0).modPlk fun k => { k with ctl := 1, rxBase := 0x1000100, rxRun := true, rxCfg := 0x06000002 }) with mem := [(0x1000101, 2), (0x1000103, 129)] } : State).plk.rxHead) = false) ∧ ((fcsOf (List.replicate 6 0xFF ++ List.replicate 55 7) : List W8) = fcsOf (List.replicate 6 0xFF ++ List.replicate 55 7 : List W8) ∨ bit ({ ((run0).modPlk fun k => { k with ctl := 1, rxBase := 0x1000100, rxRun := true, rxCfg := 0x06000002 }) with mem := [(0x1000101, 2), (0x1000103, 129)] } : State).plk.ctl 3 = true) ∧ (({ ((run0).modPlk fun k => { k with ctl := 1, rxBase := 0x1000100, rxRun := true, rxCfg := 0x06000002 }) with mem := [(0x1000101, 2), (0x1000103, 129)] } : State).plk.rxRun = true) ∧ (({ ((run0).modPlk fun k => { k with ctl := 1, rxBase := 0x1000100, rxRun := true, rxCfg := 0x06000002 }) with mem := [(0x1000101, 2), (0x1000103, 129)] } : State).plkReach (({ ((run0).modPlk fun k => { k with ctl := 1, rxBase := 0x1000100, rxRun := true, rxCfg := 0x06000002 }) with mem := [(0x1000101, 2), (0x1000103, 129)] } : State).plk.rxAddr ({ ((run0).modPlk fun k => { k with ctl := 1, rxBase := 0x1000100, rxRun := true, rxCfg := 0x06000002 }) with mem := [(0x1000101, 2), (0x1000103, 129)] } : State).plk.rxHead) = true) ∧ (({ ((run0).modPlk fun k => { k with ctl := 1, rxBase := 0x1000100, rxRun := true, rxCfg := 0x06000002 }) with mem := [(0x1000101, 2), (0x1000103, 129)] } : State).descOwn (({ ((run0).modPlk fun k => { k with ctl := 1, rxBase := 0x1000100, rxRun := true, rxCfg := 0x06000002 }) with mem := [(0x1000101, 2), (0x1000103, 129)] } : State).plk.rxAddr ({ ((run0).modPlk fun k => { k with ctl := 1, rxBase := 0x1000100, rxRun := true, rxCfg := 0x06000002 }) with mem := [(0x1000101, 2), (0x1000103, 129)] } : State).plk.rxHead) = true) ∧ (({ ((run0).modPlk fun k => { k with ctl := 1, rxBase := 0x1000100, rxRun := true, rxCfg := 0x06000002 }) with mem := [(0x1000101, 2), (0x1000103, 129)] } : State).plkReach (memLoad ({ ((run0).modPlk fun k => { k with ctl := 1, rxBase := 0x1000100, rxRun := true, rxCfg := 0x06000002 }) with mem := [(0x1000101, 2), (0x1000103, 129)] } : State).mem (({ ((run0).modPlk fun k => { k with ctl := 1, rxBase := 0x1000100, rxRun := true, rxCfg := 0x06000002 }) with mem := [(0x1000101, 2), (0x1000103, 129)] } : State).plk.rxAddr ({ ((run0).modPlk fun k => { k with ctl := 1, rxBase := 0x1000100, rxRun := true, rxCfg := 0x06000002 }) with mem := [(0x1000101, 2), (0x1000103, 129)] } : State).plk.rxHead) 4 % 2 ^ 28) = true) ∧ (({ ((run0).modPlk fun k => { k with ctl := 1, rxBase := 0x1000100, rxRun := true, rxCfg := 0x06000002 }) with mem := [(0x1000101, 2), (0x1000103, 129)] } : State).plkWaits (({ ((run0).modPlk fun k => { k with ctl := 1, rxBase := 0x1000100, rxRun := true, rxCfg := 0x06000002 }) with mem := [(0x1000101, 2), (0x1000103, 129)] } : State).plk.rxAddr ((({ ((run0).modPlk fun k => { k with ctl := 1, rxBase := 0x1000100, rxRun := true, rxCfg := 0x06000002 }) with mem := [(0x1000101, 2), (0x1000103, 129)] } : State).plk.rxHead + 1) % ringLen ({ ((run0).modPlk fun k => { k with ctl := 1, rxBase := 0x1000100, rxRun := true, rxCfg := 0x06000002 }) with mem := [(0x1000101, 2), (0x1000103, 129)] } : State).plk.rxCfg)) = false) ∧ (({ ((run0).modPlk fun k => { k with ctl := 1, rxBase := 0x1000100, rxRun := true, rxCfg := 0x06000002 }) with mem := [(0x1000101, 2), (0x1000103, 129)] } : State).ecc = []) ∧ ((({ ((run0).modPlk fun k => { k with ctl := 1, rxBase := 0x1000100, rxRun := true, rxCfg := 0x06000002 }) with mem := [(0x1000101, 2), (0x1000103, 129)] } : State).plk.rxAddr ({ ((run0).modPlk fun k => { k with ctl := 1, rxBase := 0x1000100, rxRun := true, rxCfg := 0x06000002 }) with mem := [(0x1000101, 2), (0x1000103, 129)] } : State).plk.rxHead) + 16 ≤ (memLoad ({ ((run0).modPlk fun k => { k with ctl := 1, rxBase := 0x1000100, rxRun := true, rxCfg := 0x06000002 }) with mem := [(0x1000101, 2), (0x1000103, 129)] } : State).mem (({ ((run0).modPlk fun k => { k with ctl := 1, rxBase := 0x1000100, rxRun := true, rxCfg := 0x06000002 }) with mem := [(0x1000101, 2), (0x1000103, 129)] } : State).plk.rxAddr ({ ((run0).modPlk fun k => { k with ctl := 1, rxBase := 0x1000100, rxRun := true, rxCfg := 0x06000002 }) with mem := [(0x1000101, 2), (0x1000103, 129)] } : State).plk.rxHead) 4 % 2 ^ 28) ∨ (memLoad ({ ((run0).modPlk fun k => { k with ctl := 1, rxBase := 0x1000100, rxRun := true, rxCfg := 0x06000002 }) with mem := [(0x1000101, 2), (0x1000103, 129)] } : State).mem (({ ((run0).modPlk fun k => { k with ctl := 1, rxBase := 0x1000100, rxRun := true, rxCfg := 0x06000002 }) with mem := [(0x1000101, 2), (0x1000103, 129)] } : State).plk.rxAddr ({ ((run0).modPlk fun k => { k with ctl := 1, rxBase := 0x1000100, rxRun := true, rxCfg := 0x06000002 }) with mem := [(0x1000101, 2), (0x1000103, 129)] } : State).plk.rxHead) 4 % 2 ^ 28) + ({ ((run0).modPlk fun k => { k with ctl := 1, rxBase := 0x1000100, rxRun := true, rxCfg := 0x06000002 }) with mem := [(0x1000101, 2), (0x1000103, 129)] } : State).plk.bufLen ≤ (({ ((run0).modPlk fun k => { k with ctl := 1, rxBase := 0x1000100, rxRun := true, rxCfg := 0x06000002 }) with mem := [(0x1000101, 2), (0x1000103, 129)] } : State).plk.rxAddr ({ ((run0).modPlk fun k => { k with ctl := 1, rxBase := 0x1000100, rxRun := true, rxCfg := 0x06000002 }) with mem := [(0x1000101, 2), (0x1000103, 129)] } : State).plk.rxHead)) := by decide +kernel

theorem witness_PlantLinkMovesFramesThroughItsRings_8 :
    (({ ((run0).modPlk fun k => { k with ctl := 1, rxBase := 0x1000100, macLo := 0x04030201, macHi := 0x0605 }) with mem := [(0x1000101, 2), (0x1000103, 129)] } : State).plkUp = true) ∧ (({ ((run0).modPlk fun k => { k with ctl := 1, rxBase := 0x1000100, macLo := 0x04030201, macHi := 0x0605 }) with mem := [(0x1000101, 2), (0x1000103, 129)] } : State).plk.offPend = false) ∧ (({ ((run0).modPlk fun k => { k with ctl := 1, rxBase := 0x1000100, macLo := 0x04030201, macHi := 0x0605 }) with mem := [(0x1000101, 2), (0x1000103, 129)] } : State).plk.en = true) ∧ (60 ≤ ([1, 2, 3, 4, 5, 6] ++ List.replicate 90 7 : List W8).length) ∧ (([1, 2, 3, 4, 5, 6] ++ List.replicate 90 7 : List W8).length ≤ 1518) ∧ (([0, 0, 0, 0] : List W8).length = 4) ∧ (({ ((run0).modPlk fun k => { k with ctl := 1, rxBase := 0x1000100, macLo := 0x04030201, macHi := 0x0605 }) with mem := [(0x1000101, 2), (0x1000103, 129)] } : State).plk.busAt ≤ ({ ((run0).modPlk fun k => { k with ctl := 1, rxBase := 0x1000100, macLo := 0x04030201, macHi := 0x0605 }) with mem := [(0x1000101, 2), (0x1000103, 129)] } : State).now - (0 : Nat)) ∧ (bit ({ ((run0).modPlk fun k => { k with ctl := 1, rxBase := 0x1000100, macLo := 0x04030201, macHi := 0x0605 }) with mem := [(0x1000101, 2), (0x1000103, 129)] } : State).plk.ctl 1 = true ∨ ((List.range 6).all fun i => ([1, 2, 3, 4, 5, 6] ++ List.replicate 90 7 : List W8).getD i 0 == 0xFF) = true ∨ (bit ({ ((run0).modPlk fun k => { k with ctl := 1, rxBase := 0x1000100, macLo := 0x04030201, macHi := 0x0605 }) with mem := [(0x1000101, 2), (0x1000103, 129)] } : State).plk.ctl 2 = true ∧ (([1, 2, 3, 4, 5, 6] ++ List.replicate 90 7 : List W8).getD 0 0).getLsbD 0 = true) ∨ ((List.range 6).all fun i => (([1, 2, 3, 4, 5, 6] ++ List.replicate 90 7 : List W8).getD i 0).toNat == (({ ((run0).modPlk fun k => { k with ctl := 1, rxBase := 0x1000100, macLo := 0x04030201, macHi := 0x0605 }) with mem := [(0x1000101, 2), (0x1000103, 129)] } : State).plk.macLo.toNat + 2 ^ 32 * fld ({ ((run0).modPlk fun k => { k with ctl := 1, rxBase := 0x1000100, macLo := 0x04030201, macHi := 0x0605 }) with mem := [(0x1000101, 2), (0x1000103, 129)] } : State).plk.macHi 0 16) / 2 ^ (8 * i) % 256) = true) ∧ (({ ((run0).modPlk fun k => { k with ctl := 1, rxBase := 0x1000100, macLo := 0x04030201, macHi := 0x0605 }) with mem := [(0x1000101, 2), (0x1000103, 129)] } : State).plkStalls (({ ((run0).modPlk fun k => { k with ctl := 1, rxBase := 0x1000100, macLo := 0x04030201, macHi := 0x0605 }) with mem := [(0x1000101, 2), (0x1000103, 129)] } : State).plk.rxAddr ({ ((run0).modPlk fun k => { k with ctl := 1, rxBase := 0x1000100, macLo := 0x04030201, macHi := 0x0605 }) with mem := [(0x1000101, 2), (0x1000103, 129)] } : State).plk.rxHead) = false) ∧ (([0, 0, 0, 0] : List W8) ≠ fcsOf ([1, 2, 3, 4, 5, 6] ++ List.replicate 90 7 : List W8)) ∧ (bit ({ ((run0).modPlk fun k => { k with ctl := 1, rxBase := 0x1000100, macLo := 0x04030201, macHi := 0x0605 }) with mem := [(0x1000101, 2), (0x1000103, 129)] } : State).plk.ctl 3 = false) := by decide +kernel

theorem witness_PlantLinkMovesFramesThroughItsRings_9 :
    (({ ((run0).modPlk fun k => { k with ctl := 1, rxBase := 0x1000100, rxHead := 1, rxRun := true }) with mem := [(0x1000101, 2), (0x1000103, 129)] } : State).plkUp = true) ∧ (({ ((run0).modPlk fun k => { k with ctl := 1, rxBase := 0x1000100, rxHead := 1, rxRun := true }) with mem := [(0x1000101, 2), (0x1000103, 129)] } : State).plk.offPend = false) ∧ (({ ((run0).modPlk fun k => { k with ctl := 1, rxBase := 0x1000100, rxHead := 1, rxRun := true }) with mem := [(0x1000101, 2), (0x1000103, 129)] } : State).plk.en = true) ∧ (60 ≤ (List.replicate 6 0xFF ++ List.replicate 55 7 : List W8).length) ∧ ((List.replicate 6 0xFF ++ List.replicate 55 7 : List W8).length ≤ 1518) ∧ ((fcsOf (List.replicate 6 0xFF ++ List.replicate 55 7) : List W8).length = 4) ∧ (({ ((run0).modPlk fun k => { k with ctl := 1, rxBase := 0x1000100, rxHead := 1, rxRun := true }) with mem := [(0x1000101, 2), (0x1000103, 129)] } : State).plk.busAt ≤ ({ ((run0).modPlk fun k => { k with ctl := 1, rxBase := 0x1000100, rxHead := 1, rxRun := true }) with mem := [(0x1000101, 2), (0x1000103, 129)] } : State).now - (0 : Nat)) ∧ (bit ({ ((run0).modPlk fun k => { k with ctl := 1, rxBase := 0x1000100, rxHead := 1, rxRun := true }) with mem := [(0x1000101, 2), (0x1000103, 129)] } : State).plk.ctl 1 = true ∨ ((List.range 6).all fun i => (List.replicate 6 0xFF ++ List.replicate 55 7 : List W8).getD i 0 == 0xFF) = true ∨ (bit ({ ((run0).modPlk fun k => { k with ctl := 1, rxBase := 0x1000100, rxHead := 1, rxRun := true }) with mem := [(0x1000101, 2), (0x1000103, 129)] } : State).plk.ctl 2 = true ∧ ((List.replicate 6 0xFF ++ List.replicate 55 7 : List W8).getD 0 0).getLsbD 0 = true) ∨ ((List.range 6).all fun i => ((List.replicate 6 0xFF ++ List.replicate 55 7 : List W8).getD i 0).toNat == (({ ((run0).modPlk fun k => { k with ctl := 1, rxBase := 0x1000100, rxHead := 1, rxRun := true }) with mem := [(0x1000101, 2), (0x1000103, 129)] } : State).plk.macLo.toNat + 2 ^ 32 * fld ({ ((run0).modPlk fun k => { k with ctl := 1, rxBase := 0x1000100, rxHead := 1, rxRun := true }) with mem := [(0x1000101, 2), (0x1000103, 129)] } : State).plk.macHi 0 16) / 2 ^ (8 * i) % 256) = true) ∧ (({ ((run0).modPlk fun k => { k with ctl := 1, rxBase := 0x1000100, rxHead := 1, rxRun := true }) with mem := [(0x1000101, 2), (0x1000103, 129)] } : State).plkStalls (({ ((run0).modPlk fun k => { k with ctl := 1, rxBase := 0x1000100, rxHead := 1, rxRun := true }) with mem := [(0x1000101, 2), (0x1000103, 129)] } : State).plk.rxAddr ({ ((run0).modPlk fun k => { k with ctl := 1, rxBase := 0x1000100, rxHead := 1, rxRun := true }) with mem := [(0x1000101, 2), (0x1000103, 129)] } : State).plk.rxHead) = false) ∧ ((fcsOf (List.replicate 6 0xFF ++ List.replicate 55 7) : List W8) = fcsOf (List.replicate 6 0xFF ++ List.replicate 55 7 : List W8) ∨ bit ({ ((run0).modPlk fun k => { k with ctl := 1, rxBase := 0x1000100, rxHead := 1, rxRun := true }) with mem := [(0x1000101, 2), (0x1000103, 129)] } : State).plk.ctl 3 = true) ∧ (({ ((run0).modPlk fun k => { k with ctl := 1, rxBase := 0x1000100, rxHead := 1, rxRun := true }) with mem := [(0x1000101, 2), (0x1000103, 129)] } : State).ecc = []) ∧ (({ ((run0).modPlk fun k => { k with ctl := 1, rxBase := 0x1000100, rxHead := 1, rxRun := true }) with mem := [(0x1000101, 2), (0x1000103, 129)] } : State).plk.rxRun = false ∨ ({ ((run0).modPlk fun k => { k with ctl := 1, rxBase := 0x1000100, rxHead := 1, rxRun := true }) with mem := [(0x1000101, 2), (0x1000103, 129)] } : State).plkReach (({ ((run0).modPlk fun k => { k with ctl := 1, rxBase := 0x1000100, rxHead := 1, rxRun := true }) with mem := [(0x1000101, 2), (0x1000103, 129)] } : State).plk.rxAddr ({ ((run0).modPlk fun k => { k with ctl := 1, rxBase := 0x1000100, rxHead := 1, rxRun := true }) with mem := [(0x1000101, 2), (0x1000103, 129)] } : State).plk.rxHead) = false ∨ ({ ((run0).modPlk fun k => { k with ctl := 1, rxBase := 0x1000100, rxHead := 1, rxRun := true }) with mem := [(0x1000101, 2), (0x1000103, 129)] } : State).descOwn (({ ((run0).modPlk fun k => { k with ctl := 1, rxBase := 0x1000100, rxHead := 1, rxRun := true }) with mem := [(0x1000101, 2), (0x1000103, 129)] } : State).plk.rxAddr ({ ((run0).modPlk fun k => { k with ctl := 1, rxBase := 0x1000100, rxHead := 1, rxRun := true }) with mem := [(0x1000101, 2), (0x1000103, 129)] } : State).plk.rxHead) = false) := by decide +kernel

theorem witness_PlantLinkMovesFramesThroughItsRings_10 :
    (({ ((run0).modPlk fun k => { k with ctl := 1, rxBase := 0x1000100, held := [.txLook] }) with mem := [(0x1000101, 2), (0x1000103, 129)] } : State).plkUp = true) ∧ (({ ((run0).modPlk fun k => { k with ctl := 1, rxBase := 0x1000100, held := [.txLook] }) with mem := [(0x1000101, 2), (0x1000103, 129)] } : State).plk.offPend = false) ∧ (({ ((run0).modPlk fun k => { k with ctl := 1, rxBase := 0x1000100, held := [.txLook] }) with mem := [(0x1000101, 2), (0x1000103, 129)] } : State).plk.en = true) ∧ (60 ≤ (List.replicate 6 0xFF ++ List.replicate 55 7 : List W8).length) ∧ ((List.replicate 6 0xFF ++ List.replicate 55 7 : List W8).length ≤ 1518) ∧ (([0, 0, 0, 0] : List W8).length = 4) ∧ (({ ((run0).modPlk fun k => { k with ctl := 1, rxBase := 0x1000100, held := [.txLook] }) with mem := [(0x1000101, 2), (0x1000103, 129)] } : State).plk.busAt ≤ ({ ((run0).modPlk fun k => { k with ctl := 1, rxBase := 0x1000100, held := [.txLook] }) with mem := [(0x1000101, 2), (0x1000103, 129)] } : State).now - (0 : Nat)) ∧ (bit ({ ((run0).modPlk fun k => { k with ctl := 1, rxBase := 0x1000100, held := [.txLook] }) with mem := [(0x1000101, 2), (0x1000103, 129)] } : State).plk.ctl 1 = true ∨ ((List.range 6).all fun i => (List.replicate 6 0xFF ++ List.replicate 55 7 : List W8).getD i 0 == 0xFF) = true ∨ (bit ({ ((run0).modPlk fun k => { k with ctl := 1, rxBase := 0x1000100, held := [.txLook] }) with mem := [(0x1000101, 2), (0x1000103, 129)] } : State).plk.ctl 2 = true ∧ ((List.replicate 6 0xFF ++ List.replicate 55 7 : List W8).getD 0 0).getLsbD 0 = true) ∨ ((List.range 6).all fun i => ((List.replicate 6 0xFF ++ List.replicate 55 7 : List W8).getD i 0).toNat == (({ ((run0).modPlk fun k => { k with ctl := 1, rxBase := 0x1000100, held := [.txLook] }) with mem := [(0x1000101, 2), (0x1000103, 129)] } : State).plk.macLo.toNat + 2 ^ 32 * fld ({ ((run0).modPlk fun k => { k with ctl := 1, rxBase := 0x1000100, held := [.txLook] }) with mem := [(0x1000101, 2), (0x1000103, 129)] } : State).plk.macHi 0 16) / 2 ^ (8 * i) % 256) = true) ∧ (({ ((run0).modPlk fun k => { k with ctl := 1, rxBase := 0x1000100, held := [.txLook] }) with mem := [(0x1000101, 2), (0x1000103, 129)] } : State).plkStalls (({ ((run0).modPlk fun k => { k with ctl := 1, rxBase := 0x1000100, held := [.txLook] }) with mem := [(0x1000101, 2), (0x1000103, 129)] } : State).plk.rxAddr ({ ((run0).modPlk fun k => { k with ctl := 1, rxBase := 0x1000100, held := [.txLook] }) with mem := [(0x1000101, 2), (0x1000103, 129)] } : State).plk.rxHead) = true) := by decide +kernel

/-- What meets the hypotheses of PlantLinkMovesFramesThroughItsRings: one conjunct for each clause, in the order of its clauses. -/
theorem witness_PlantLinkMovesFramesThroughItsRings_11 :
    ((({ ((run0).modPlk fun k => { k with ctl := 1, rxBase := 0x1000100, macLo := 0x04030201, macHi := 0x0605, rxBusy := true }) with mem := [(0x1000101, 2), (0x1000103, 129)] } : State).plkUp = true) ∧ (({ ((run0).modPlk fun k => { k with ctl := 1, rxBase := 0x1000100, macLo := 0x04030201, macHi := 0x0605, rxBusy := true }) with mem := [(0x1000101, 2), (0x1000103, 129)] } : State).plk.offPend = false) ∧ (({ ((run0).modPlk fun k => { k with ctl := 1, rxBase := 0x1000100, macLo := 0x04030201, macHi := 0x0605, rxBusy := true }) with mem := [(0x1000101, 2), (0x1000103, 129)] } : State).plk.en = true) ∧ (([0, 0, 0, 0] : List W8).length = 4) ∧ (([1, 2, 3, 4, 5, 7] ++ List.replicate 90 7 : List W8).length < 60 ∨ 1518 < ([1, 2, 3, 4, 5, 7] ++ List.replicate 90 7 : List W8).length ∨ ({ ((run0).modPlk fun k => { k with ctl := 1, rxBase := 0x1000100, macLo := 0x04030201, macHi := 0x0605, rxBusy := true }) with mem := [(0x1000101, 2), (0x1000103, 129)] } : State).now - (0 : Nat) < ({ ((run0).modPlk fun k => { k with ctl := 1, rxBase := 0x1000100, macLo := 0x04030201, macHi := 0x0605, rxBusy := true }) with mem := [(0x1000101, 2), (0x1000103, 129)] } : State).plk.busAt ∨ (bit ({ ((run0).modPlk fun k => { k with ctl := 1, rxBase := 0x1000100, macLo := 0x04030201, macHi := 0x0605, rxBusy := true }) with mem := [(0x1000101, 2), (0x1000103, 129)] } : State).plk.ctl 1 = false ∧ ((List.range 6).all fun i => ([1, 2, 3, 4, 5, 7] ++ List.replicate 90 7 : List W8).getD i 0 == 0xFF) = false ∧ (bit ({ ((run0).modPlk fun k => { k with ctl := 1, rxBase := 0x1000100, macLo := 0x04030201, macHi := 0x0605, rxBusy := true }) with mem := [(0x1000101, 2), (0x1000103, 129)] } : State).plk.ctl 2 = false ∨ (([1, 2, 3, 4, 5, 7] ++ List.replicate 90 7 : List W8).getD 0 0).getLsbD 0 = false) ∧ ((List.range 6).all fun i => (([1, 2, 3, 4, 5, 7] ++ List.replicate 90 7 : List W8).getD i 0).toNat == (({ ((run0).modPlk fun k => { k with ctl := 1, rxBase := 0x1000100, macLo := 0x04030201, macHi := 0x0605, rxBusy := true }) with mem := [(0x1000101, 2), (0x1000103, 129)] } : State).plk.macLo.toNat + 2 ^ 32 * fld ({ ((run0).modPlk fun k => { k with ctl := 1, rxBase := 0x1000100, macLo := 0x04030201, macHi := 0x0605, rxBusy := true }) with mem := [(0x1000101, 2), (0x1000103, 129)] } : State).plk.macHi 0 16) / 2 ^ (8 * i) % 256) = false))) ∧
    (((run0 : State).plkUp = false ∨ ((run0 : State).plk.en = false ∧ ((run0 : State).plk.offPend = false ∨ (run0 : State).plk.rxBusy = false)))) ∧
    (((((run0).modPlk fun k => { k with ctl := 1, plcaCfg := 1 }) : State).plkUp = true) ∧ ((((run0).modPlk fun k => { k with ctl := 1, plcaCfg := 1 }) : State).plk.en = true) ∧ (bit (((run0).modPlk fun k => { k with ctl := 1, plcaCfg := 1 }) : State).plk.plcaCfg 0 = true)) ∧
    (((run0 : State).plk.en = false ∨ bit (run0 : State).plk.plcaCfg 0 = false ∨ (run0 : State).plk.pst = (true : Bool))) := by
  refine ⟨?_, ?_, ?_, ?_⟩ <;> decide +kernel

/-- What meets the hypotheses of WatchdogRestartAndTrialResetTheControlPlane: one conjunct for each clause, in the order of its clauses. -/
theorem witness_WatchdogRestartAndTrialResetTheControlPlane_1 :
    ((canStore (((run0).modDep fun d => { d with wdAt := some 0 }) : State) 3 11) ∧ ((((run0).modDep fun d => { d with wdAt := some 0 }) : State).wdRuns = true) ∧ ((((run0).modDep fun d => { d with wdAt := some 0 }) : State).dep.wdAt = some (0 : Nat)) ∧ (fld (((run0).modDep fun d => { d with wdAt := some 0 }) : State).dep.wdCfg 24 4 &&& (15 ^^^ ((((run0).modDep fun d => { d with wdAt := some 0 }) : State).dep.wdKick ||| 2 ^ (0 : Fin 4).val)) = 0) ∧ ((0 : Nat) + fld (((run0).modDep fun d => { d with wdAt := some 0 }) : State).dep.wdCfg 16 8 * 10000 ≤ (((run0).modDep fun d => { d with wdAt := some 0 }) : State).now)) ∧
    ((canStore (((run0).modDep fun d => { d with wdAt := some 0, wdCfg := 0x130007D0 }) : State) 3 11) ∧ ((((run0).modDep fun d => { d with wdAt := some 0, wdCfg := 0x130007D0 }) : State).wdRuns = true) ∧ ((((run0).modDep fun d => { d with wdAt := some 0, wdCfg := 0x130007D0 }) : State).dep.wdAt = some (0 : Nat)) ∧ (fld (((run0).modDep fun d => { d with wdAt := some 0, wdCfg := 0x130007D0 }) : State).dep.wdCfg 24 4 &&& (15 ^^^ ((((run0).modDep fun d => { d with wdAt := some 0, wdCfg := 0x130007D0 }) : State).dep.wdKick ||| 2 ^ (1 : Fin 4).val)) ≠ 0)) ∧
    ((canStore (((run0).modDep fun d => { d with wdAt := some 0, wdCfg := 0x110107D0 }) : State) 3 11) ∧ ((((run0).modDep fun d => { d with wdAt := some 0, wdCfg := 0x110107D0 }) : State).wdRuns = true) ∧ ((((run0).modDep fun d => { d with wdAt := some 0, wdCfg := 0x110107D0 }) : State).dep.wdAt = some (0 : Nat)) ∧ (fld (((run0).modDep fun d => { d with wdAt := some 0, wdCfg := 0x110107D0 }) : State).dep.wdCfg 24 4 &&& (15 ^^^ ((((run0).modDep fun d => { d with wdAt := some 0, wdCfg := 0x110107D0 }) : State).dep.wdKick ||| 2 ^ (0 : Fin 4).val)) = 0) ∧ ((((run0).modDep fun d => { d with wdAt := some 0, wdCfg := 0x110107D0 }) : State).now < (0 : Nat) + fld (((run0).modDep fun d => { d with wdAt := some 0, wdCfg := 0x110107D0 }) : State).dep.wdCfg 16 8 * 10000)) ∧
    ((canStore (((run0).modDep fun d => { d with wdAt := some 0 }) : State) 3 11) ∧ ((0xC35B : W16) ≠ 0xC35A)) ∧
    (((((run0).modDep fun d => { d with wdAt := some 0 }) : State).wdRuns = true) ∧ ((((run0).modDep fun d => { d with wdAt := some 0 }) : State).isUp 1 = true) ∧ ((((run0).modDep fun d => { d with wdAt := some 0 }) : State).dep.wdAt = some (0 : Nat))) ∧
    (((((run0).modDep fun d => { d with wdAt := some 0, wdTimes := [3, 2, 1] }) : State).wdRuns = true) ∧ ((((run0).modDep fun d => { d with wdAt := some 0, wdTimes := [3, 2, 1] }) : State).isUp 1 = true) ∧ ((((run0).modDep fun d => { d with wdAt := some 0, wdTimes := [3, 2, 1] }) : State).dep.wdAt = some (0 : Nat)) ∧ (3 ≤ (recent600 (max (((run0).modDep fun d => { d with wdAt := some 0, wdTimes := [3, 2, 1] }) : State).now ((0 : Nat) + (((run0).modDep fun d => { d with wdAt := some 0, wdTimes := [3, 2, 1] }) : State).dep.wdMax)) (((run0).modDep fun d => { d with wdAt := some 0, wdTimes := [3, 2, 1] }) : State).dep.wdTimes).length)) ∧
    (((((run0).modDep fun d => { d with wdAt := some 0, wdTimes := [2, 1] }) : State).wdRuns = true) ∧ ((((run0).modDep fun d => { d with wdAt := some 0, wdTimes := [2, 1] }) : State).isUp 1 = true) ∧ ((((run0).modDep fun d => { d with wdAt := some 0, wdTimes := [2, 1] }) : State).dep.wdAt = some (0 : Nat)) ∧ ((recent600 (max (((run0).modDep fun d => { d with wdAt := some 0, wdTimes := [2, 1] }) : State).now ((0 : Nat) + (((run0).modDep fun d => { d with wdAt := some 0, wdTimes := [2, 1] }) : State).dep.wdMax)) (((run0).modDep fun d => { d with wdAt := some 0, wdTimes := [2, 1] }) : State).dep.wdTimes).length < 3)) ∧
    (((((run0).modDep fun d => { d with wdAt := some 0 }) : State).wdRuns = true) ∧ ((((run0).modDep fun d => { d with wdAt := some 0 }) : State).dep.wdAt = some (0 : Nat)) ∧ ((((run0).modDep fun d => { d with wdAt := some 0 }) : State).dep.wdWarned = false)) ∧
    (((((run0).modDep fun d => { d with wdHold := some 60000000 }) : State).depUp = true) ∧ ((((run0).modDep fun d => { d with wdHold := some 60000000 }) : State).tmbRuns = true) ∧ ((((run0).modDep fun d => { d with wdHold := some 60000000 }) : State).dep.wdHold = some (60000000 : Nat))) ∧
    (((((run0).modDep fun d => { d with wdAt := some 0, reqBusy := 4, posted := [2] }) : State).isUp 3 = true)) := by
  refine ⟨?_, ?_, ?_, ?_, ?_, ?_, ?_, ?_, ?_, ?_⟩ <;> decide +kernel

/-- What meets the hypotheses of WatchdogRestartAndTrialResetTheControlPlane: one conjunct for each clause, in the order of its clauses. -/
theorem witness_WatchdogRestartAndTrialResetTheControlPlane_2 :
    (((((((run0).modDep fun d => { d with trialAt := some 5 })).modNv fun v => { v with trial := true, activeB := true }) : State).depUp = true) ∧ ((((((run0).modDep fun d => { d with trialAt := some 5 })).modNv fun v => { v with trial := true, activeB := true }) : State).tmbRuns = true) ∧ ((((((run0).modDep fun d => { d with trialAt := some 5 })).modNv fun v => { v with trial := true, activeB := true }) : State).isUp 1 = true) ∧ ((((((run0).modDep fun d => { d with trialAt := some 5 })).modNv fun v => { v with trial := true, activeB := true }) : State).nv.trial = true) ∧ ((((((run0).modDep fun d => { d with trialAt := some 5 })).modNv fun v => { v with trial := true, activeB := true }) : State).dep.trialAt = some (5 : Nat)) ∧ (∀ i : Fin 32, i ∈ (((((run0).modDep fun d => { d with trialAt := some 5 })).modNv fun v => { v with trial := true, activeB := true }) : State).dep.posted → fld (hdrOf (((((run0).modDep fun d => { d with trialAt := some 5 })).modNv fun v => { v with trial := true, activeB := true }) : State) i) 0 8 = 1 → (5 : Nat) + 60000000 ≤ (((((run0).modDep fun d => { d with trialAt := some 5 })).modNv fun v => { v with trial := true, activeB := true }) : State).dep.postTime[i])) ∧
    (((((((run0).modDep fun d => { d with trialAt := some 5, posted := [3], slots := upd d.slots 3 fun x => x.set 0 1 })).modNv fun v => { v with trial := true, activeB := true }) : State).dep.trialAt = some (5 : Nat)) ∧ ((3 : Fin 32) ∈ (((((run0).modDep fun d => { d with trialAt := some 5, posted := [3], slots := upd d.slots 3 fun x => x.set 0 1 })).modNv fun v => { v with trial := true, activeB := true }) : State).dep.posted) ∧ (fld (hdrOf (((((run0).modDep fun d => { d with trialAt := some 5, posted := [3], slots := upd d.slots 3 fun x => x.set 0 1 })).modNv fun v => { v with trial := true, activeB := true }) : State) (3 : Fin 32)) 0 8 = 1) ∧ ((((((run0).modDep fun d => { d with trialAt := some 5, posted := [3], slots := upd d.slots 3 fun x => x.set 0 1 })).modNv fun v => { v with trial := true, activeB := true }) : State).dep.postTime[(3 : Fin 32)] < (5 : Nat) + 60000000)) ∧
    ((({ run0 with up := Vector.replicate 72 false } : State).isUp 3 = false)) ∧
    (((run0 : State).wdRuns = false)) ∧
    (((run0 : State).wdRuns = false ∨ (run0 : State).dep.wdWarned = true)) ∧
    (((run0 : State).depUp = false ∨ (run0 : State).dep.wdHold = none)) ∧
    (((run0 : State).depUp = false ∨ (run0 : State).nv.trial = false ∨ (run0 : State).dep.trialAt = none)) := by
  refine ⟨?_, ?_, ?_, ?_, ?_, ?_, ?_⟩ <;> decide +kernel

/-- What meets the hypotheses of TheDeputySamplesLogsAndAccounts: one conjunct for each clause, in the order of its clauses. -/
theorem witness_TheDeputySamplesLogsAndAccounts_1 :
    (((run0 : State).depUp = true)) ∧
    (((run0 : State).depUp = true)) ∧
    (((run0 : State).depUp = true)) ∧
    (((run0 : State).depUp = true)) ∧
    (((((run0.emit 30 3 2).pull 30) : State).depUp = true) ∧ (takeDep (30 : Fin 72).val (((run0.emit 30 3 2).pull 30) : State).fab.hub = some (({ time := 0, src := 30, code := 3, arg := 2 } : EvRec), ([{ ev := { time := 0, src := 30, code := 3, arg := 2 }, cores := [0, 1, 2, 3], dep := false }] : List HubRec))) ∧ (({ time := 0, src := 30, code := 3, arg := 2 } : EvRec).src ≠ 1 ∨ ({ time := 0, src := 30, code := 3, arg := 2 } : EvRec).code ≠ 0x50) ∧ ((((run0.emit 30 3 2).pull 30) : State).dep.logBuf.length < 4096)) ∧
    (((((((run0).modDep fun d => { d with wdAt := some 0 })).emit 1 0x50 2).pull 1 : State).depUp = true) ∧ (takeDep 1 (((((run0).modDep fun d => { d with wdAt := some 0 })).emit 1 0x50 2).pull 1 : State).fab.hub = some (({ time := 0, src := 1, code := 0x50, arg := 2 } : EvRec), ([{ ev := { time := 0, src := 1, code := 0x50, arg := 2 }, cores := [0, 1, 2, 3], dep := false }] : List HubRec))) ∧ (({ time := 0, src := 1, code := 0x50, arg := 2 } : EvRec).src = 1) ∧ (({ time := 0, src := 1, code := 0x50, arg := 2 } : EvRec).code = 0x50) ∧ ((((((run0).modDep fun d => { d with wdAt := some 0 })).emit 1 0x50 2).pull 1 : State).sup.coreReset = false) ∧ (bit (((((run0).modDep fun d => { d with wdAt := some 0 })).emit 1 0x50 2).pull 1 : State).dep.wdCfg 28 = true) ∧ ((((((run0).modDep fun d => { d with wdAt := some 0 })).emit 1 0x50 2).pull 1 : State).wdRuns = true) ∧ ((((((run0).modDep fun d => { d with wdAt := some 0 })).emit 1 0x50 2).pull 1 : State).isUp 1 = true)) ∧
    (((((run0).modDep fun d => { d with logBuf := [LogRec.seal { time := 1, boot := 0, seq := 0, src := 3, code := 8, kind := 1, core := 0, arg := 0, d0 := 0, d1 := 0, crc := 0 }] }) : State).depUp = true) ∧ ((((run0).modDep fun d => { d with logBuf := [LogRec.seal { time := 1, boot := 0, seq := 0, src := 3, code := 8, kind := 1, core := 0, arg := 0, d0 := 0, d1 := 0, crc := 0 }] }) : State).dep.lostSince = 0) ∧ ((((run0).modDep fun d => { d with logBuf := [LogRec.seal { time := 1, boot := 0, seq := 0, src := 3, code := 8, kind := 1, core := 0, arg := 0, d0 := 0, d1 := 0, crc := 0 }] }) : State).dep.logBuf = (LogRec.seal { time := 1, boot := 0, seq := 0, src := 3, code := 8, kind := 1, core := 0, arg := 0, d0 := 0, d1 := 0, crc := 0 } : LogRec) :: ([] : List LogRec))) ∧
    (((((run0).modDep fun d => { d with lostSince := 70000 }) : State).depUp = true) ∧ (0 < (((run0).modDep fun d => { d with lostSince := 70000 }) : State).dep.lostSince)) ∧
    (((hs0 5 fun h => { h with ops := 9 } : State).depUp = true)) ∧
    (((hs0 5 fun h => { h with tj := 1360 } : State).depUp = true) ∧ ((hs0 5 fun h => { h with tj := 1360 } : State).isUp (24 + (5 : Fin 48).val) = true) ∧ ((hs0 5 fun h => { h with tj := 1360 } : State).hs[(5 : Fin 48)].tj = 1360)) ∧
    (((((run0).modNv fun v => { v with p0Cyc := 19000, ageUs := 315576000000000, tot := upd v.tot 5 fun x => { x with sum := { x.sum with ops := 1850000000 } } }) : State).depUp = true) ∧ ((5 : Fin 48).val < 32)) ∧
    ((canStore (((run0).modDep fun d => { d with slots := upd d.slots 3 fun x => x.set 0 0xFFFFFFFF }) : State) 3 11) ∧ (bit (((run0).modDep fun d => { d with slots := upd d.slots 3 fun x => x.set 0 0xFFFFFFFF }) : State).dep.reqBusy (3 : Fin 32).val = false)) := by
  refine ⟨?_, ?_, ?_, ?_, ?_, ?_, ?_, ?_, ?_, ?_, ?_, ?_⟩ <;> decide +kernel

/-- What meets the hypotheses of TheDeputySamplesLogsAndAccounts: one conjunct for each clause, in the order of its clauses. -/
theorem witness_TheDeputySamplesLogsAndAccounts_2 :
    ((canStore (((run0).modDep fun d => { d with reqBusy := 8 }) : State) 3 11) ∧ (bit (((run0).modDep fun d => { d with reqBusy := 8 }) : State).dep.reqBusy (3 : Fin 32).val = true)) ∧
    ((canStore (((run0).modDep fun d => { d with rspPend := 3 }) : State) 3 11) ∧ ((((run0).modDep fun d => { d with rspPend := 3 }) : State).dep.rspWait = [])) ∧
    ((canAnswer (((run0).modDep fun d => { d with posted := [3, 7], reqBusy := 0x88, rspPend := 1, slots := upd d.slots 3 fun x => (((((x.set 0 0x5504).set 1 5).set 2 6).set 3 7).set 4 8) }) : State) (1 : Fin 32)) ∧ (takesFirst (((run0).modDep fun d => { d with posted := [3, 7], reqBusy := 0x88, rspPend := 1, slots := upd d.slots 3 fun x => (((((x.set 0 0x5504).set 1 5).set 2 6).set 3 7).set 4 8) }) : State) (3 : Fin 32) ([7] : List (Fin 32)) 4) ∧ ((((run0).modDep fun d => { d with posted := [3, 7], reqBusy := 0x88, rspPend := 1, slots := upd d.slots 3 fun x => (((((x.set 0 0x5504).set 1 5).set 2 6).set 3 7).set 4 8) }) : State).dep.logBuf.length < 4096)) ∧
    ((canAnswer (((((run0).modDep fun d => { d with posted := [3, 7], reqBusy := 0x88, rspPend := 1, slots := upd d.slots 3 fun x => (((x.set 0 0x5505).set 1 0).set 2 1) })).modNv fun v => { v with log := [LogRec.seal { time := 1, boot := 0, seq := 0, src := 3, code := 8, kind := 1, core := 0, arg := 0, d0 := 0, d1 := 0, crc := 0 }] }) : State) (1 : Fin 32)) ∧ (takesFirst (((((run0).modDep fun d => { d with posted := [3, 7], reqBusy := 0x88, rspPend := 1, slots := upd d.slots 3 fun x => (((x.set 0 0x5505).set 1 0).set 2 1) })).modNv fun v => { v with log := [LogRec.seal { time := 1, boot := 0, seq := 0, src := 3, code := 8, kind := 1, core := 0, arg := 0, d0 := 0, d1 := 0, crc := 0 }] }) : State) (3 : Fin 32) ([7] : List (Fin 32)) 5) ∧ (argOf (((((run0).modDep fun d => { d with posted := [3, 7], reqBusy := 0x88, rspPend := 1, slots := upd d.slots 3 fun x => (((x.set 0 0x5505).set 1 0).set 2 1) })).modNv fun v => { v with log := [LogRec.seal { time := 1, boot := 0, seq := 0, src := 3, code := 8, kind := 1, core := 0, arg := 0, d0 := 0, d1 := 0, crc := 0 }] }) : State) (3 : Fin 32) 2 = 1) ∧ (((((((run0).modDep fun d => { d with posted := [3, 7], reqBusy := 0x88, rspPend := 1, slots := upd d.slots 3 fun x => (((x.set 0 0x5505).set 1 0).set 2 1) })).modNv fun v => { v with log := [LogRec.seal { time := 1, boot := 0, seq := 0, src := 3, code := 8, kind := 1, core := 0, arg := 0, d0 := 0, d1 := 0, crc := 0 }] }) : State).nv.log ++ (((((run0).modDep fun d => { d with posted := [3, 7], reqBusy := 0x88, rspPend := 1, slots := upd d.slots 3 fun x => (((x.set 0 0x5505).set 1 0).set 2 1) })).modNv fun v => { v with log := [LogRec.seal { time := 1, boot := 0, seq := 0, src := 3, code := 8, kind := 1, core := 0, arg := 0, d0 := 0, d1 := 0, crc := 0 }] }) : State).dep.logBuf).find? (fun e => e.seq == argOf (((((run0).modDep fun d => { d with posted := [3, 7], reqBusy := 0x88, rspPend := 1, slots := upd d.slots 3 fun x => (((x.set 0 0x5505).set 1 0).set 2 1) })).modNv fun v => { v with log := [LogRec.seal { time := 1, boot := 0, seq := 0, src := 3, code := 8, kind := 1, core := 0, arg := 0, d0 := 0, d1 := 0, crc := 0 }] }) : State) (3 : Fin 32) 1) = some (LogRec.seal { time := 1, boot := 0, seq := 0, src := 3, code := 8, kind := 1, core := 0, arg := 0, d0 := 0, d1 := 0, crc := 0 } : LogRec)) ∧ ((LogRec.seal { time := 1, boot := 0, seq := 0, src := 3, code := 8, kind := 1, core := 0, arg := 0, d0 := 0, d1 := 0, crc := 0 } : LogRec).seal.crc = (LogRec.seal { time := 1, boot := 0, seq := 0, src := 3, code := 8, kind := 1, core := 0, arg := 0, d0 := 0, d1 := 0, crc := 0 } : LogRec).crc)) ∧
    ((canAnswer (((run0).modDep fun d => { d with posted := [3, 7], reqBusy := 0x88, rspPend := 1, slots := upd d.slots 3 fun x => (((x.set 0 0x5505).set 1 0).set 2 33) }) : State) (1 : Fin 32)) ∧ (takesFirst (((run0).modDep fun d => { d with posted := [3, 7], reqBusy := 0x88, rspPend := 1, slots := upd d.slots 3 fun x => (((x.set 0 0x5505).set 1 0).set 2 33) }) : State) (3 : Fin 32) ([7] : List (Fin 32)) 5) ∧ (argOf (((run0).modDep fun d => { d with posted := [3, 7], reqBusy := 0x88, rspPend := 1, slots := upd d.slots 3 fun x => (((x.set 0 0x5505).set 1 0).set 2 33) }) : State) (3 : Fin 32) 2 = 0 ∨ 32 < argOf (((run0).modDep fun d => { d with posted := [3, 7], reqBusy := 0x88, rspPend := 1, slots := upd d.slots 3 fun x => (((x.set 0 0x5505).set 1 0).set 2 33) }) : State) (3 : Fin 32) 2)) := by
  refine ⟨?_, ?_, ?_, ?_, ?_⟩ <;> decide +kernel

/-- What meets the hypotheses of TheDeputySamplesLogsAndAccounts: one conjunct for each clause, in the order of its clauses. -/
theorem witness_TheDeputySamplesLogsAndAccounts_3 :
    ((canAnswer (((run0).modDep fun d => { d with posted := [3, 7], reqBusy := 0x88, rspPend := 1, slots := upd d.slots 3 fun x => (((((x.set 0 0x5506).set 1 1).set 2 30).set 3 1).set 4 255) }) : State) (1 : Fin 32)) ∧ (takesFirst (((run0).modDep fun d => { d with posted := [3, 7], reqBusy := 0x88, rspPend := 1, slots := upd d.slots 3 fun x => (((((x.set 0 0x5506).set 1 1).set 2 30).set 3 1).set 4 255) }) : State) (3 : Fin 32) ([7] : List (Fin 32)) 6) ∧ (argOf (((run0).modDep fun d => { d with posted := [3, 7], reqBusy := 0x88, rspPend := 1, slots := upd d.slots 3 fun x => (((((x.set 0 0x5506).set 1 1).set 2 30).set 3 1).set 4 255) }) : State) (3 : Fin 32) 1 % 2 = 1) ∧ ((((run0).modDep fun d => { d with posted := [3, 7], reqBusy := 0x88, rspPend := 1, slots := upd d.slots 3 fun x => (((((x.set 0 0x5506).set 1 1).set 2 30).set 3 1).set 4 255) }) : State).dep.logFlt.length < 16)) ∧
    ((canAnswer (((run0).modDep fun d => { d with posted := [3, 7], reqBusy := 0x88, rspPend := 1, slots := upd d.slots 3 fun x => (((((x.set 0 0x5506).set 1 0).set 2 30).set 3 1).set 4 255), logFlt := [(30, 1, 255)] }) : State) (1 : Fin 32)) ∧ (takesFirst (((run0).modDep fun d => { d with posted := [3, 7], reqBusy := 0x88, rspPend := 1, slots := upd d.slots 3 fun x => (((((x.set 0 0x5506).set 1 0).set 2 30).set 3 1).set 4 255), logFlt := [(30, 1, 255)] }) : State) (3 : Fin 32) ([7] : List (Fin 32)) 6) ∧ (argOf (((run0).modDep fun d => { d with posted := [3, 7], reqBusy := 0x88, rspPend := 1, slots := upd d.slots 3 fun x => (((((x.set 0 0x5506).set 1 0).set 2 30).set 3 1).set 4 255), logFlt := [(30, 1, 255)] }) : State) (3 : Fin 32) 1 % 2 = 0)) ∧
    ((canAnswer (((run0).modDep fun d => { d with posted := [3, 7], reqBusy := 0x88, rspPend := 1, slots := upd d.slots 3 fun x => ((x.set 0 0x5507).set 1 66) }) : State) (1 : Fin 32)) ∧ (takesFirst (((run0).modDep fun d => { d with posted := [3, 7], reqBusy := 0x88, rspPend := 1, slots := upd d.slots 3 fun x => ((x.set 0 0x5507).set 1 66) }) : State) (3 : Fin 32) ([7] : List (Fin 32)) 7) ∧ (argOf (((run0).modDep fun d => { d with posted := [3, 7], reqBusy := 0x88, rspPend := 1, slots := upd d.slots 3 fun x => ((x.set 0 0x5507).set 1 66) }) : State) (3 : Fin 32) 1 = (66 : Fin 67).val)) ∧
    ((canAnswer (((run0).modDep fun d => { d with posted := [3, 7], reqBusy := 0x88, rspPend := 1, slots := upd d.slots 3 fun x => ((x.set 0 0x5507).set 1 67) }) : State) (1 : Fin 32)) ∧ (takesFirst (((run0).modDep fun d => { d with posted := [3, 7], reqBusy := 0x88, rspPend := 1, slots := upd d.slots 3 fun x => ((x.set 0 0x5507).set 1 67) }) : State) (3 : Fin 32) ([7] : List (Fin 32)) 7) ∧ (67 ≤ argOf (((run0).modDep fun d => { d with posted := [3, 7], reqBusy := 0x88, rspPend := 1, slots := upd d.slots 3 fun x => ((x.set 0 0x5507).set 1 67) }) : State) (3 : Fin 32) 1) ∧ (argOf (((run0).modDep fun d => { d with posted := [3, 7], reqBusy := 0x88, rspPend := 1, slots := upd d.slots 3 fun x => ((x.set 0 0x5507).set 1 67) }) : State) (3 : Fin 32) 1 ≠ 0x7FF)) ∧
    ((canAnswer (((run0).modDep fun d => { d with posted := [3, 7], reqBusy := 0x88, rspPend := 1, slots := upd d.slots 3 fun x => ((x.set 0 0x5508).set 1 47) }) : State) (1 : Fin 32)) ∧ (takesFirst (((run0).modDep fun d => { d with posted := [3, 7], reqBusy := 0x88, rspPend := 1, slots := upd d.slots 3 fun x => ((x.set 0 0x5508).set 1 47) }) : State) (3 : Fin 32) ([7] : List (Fin 32)) 8) ∧ (argOf (((run0).modDep fun d => { d with posted := [3, 7], reqBusy := 0x88, rspPend := 1, slots := upd d.slots 3 fun x => ((x.set 0 0x5508).set 1 47) }) : State) (3 : Fin 32) 1 = (47 : Fin 48).val)) ∧
    ((canAnswer (((run0).modDep fun d => { d with posted := [3, 7], reqBusy := 0x88, rspPend := 1, slots := upd d.slots 3 fun x => ((x.set 0 0x5508).set 1 48) }) : State) (1 : Fin 32)) ∧ (takesFirst (((run0).modDep fun d => { d with posted := [3, 7], reqBusy := 0x88, rspPend := 1, slots := upd d.slots 3 fun x => ((x.set 0 0x5508).set 1 48) }) : State) (3 : Fin 32) ([7] : List (Fin 32)) 8) ∧ (48 ≤ argOf (((run0).modDep fun d => { d with posted := [3, 7], reqBusy := 0x88, rspPend := 1, slots := upd d.slots 3 fun x => ((x.set 0 0x5508).set 1 48) }) : State) (3 : Fin 32) 1)) := by
  refine ⟨?_, ?_, ?_, ?_, ?_, ?_⟩ <;> decide +kernel

/-- What meets the hypotheses of TheDeputySamplesLogsAndAccounts: one conjunct for each clause, in the order of its clauses. -/
theorem witness_TheDeputySamplesLogsAndAccounts_4 :
    ((canAnswer (((run0).modDep fun d => { d with posted := [3, 7], reqBusy := 0x88, rspPend := 1, slots := upd d.slots 3 fun x => (((x.set 0 0x5509).set 1 15).set 2 0xFFFFFFD8) }) : State) (1 : Fin 32)) ∧ (takesFirst (((run0).modDep fun d => { d with posted := [3, 7], reqBusy := 0x88, rspPend := 1, slots := upd d.slots 3 fun x => (((x.set 0 0x5509).set 1 15).set 2 0xFFFFFFD8) }) : State) (3 : Fin 32) ([7] : List (Fin 32)) 9) ∧ (argOf (((run0).modDep fun d => { d with posted := [3, 7], reqBusy := 0x88, rspPend := 1, slots := upd d.slots 3 fun x => (((x.set 0 0x5509).set 1 15).set 2 0xFFFFFFD8) }) : State) (3 : Fin 32) 1 = (15 : Fin 16).val) ∧ (-40 ≤ sext 32 (argOf (((run0).modDep fun d => { d with posted := [3, 7], reqBusy := 0x88, rspPend := 1, slots := upd d.slots 3 fun x => (((x.set 0 0x5509).set 1 15).set 2 0xFFFFFFD8) }) : State) (3 : Fin 32) 2)) ∧ (sext 32 (argOf (((run0).modDep fun d => { d with posted := [3, 7], reqBusy := 0x88, rspPend := 1, slots := upd d.slots 3 fun x => (((x.set 0 0x5509).set 1 15).set 2 0xFFFFFFD8) }) : State) (3 : Fin 32) 2) ≤ 150)) ∧
    ((canAnswer (((run0).modDep fun d => { d with posted := [3, 7], reqBusy := 0x88, rspPend := 1, slots := upd d.slots 3 fun x => (((x.set 0 0x5509).set 1 15).set 2 151) }) : State) (1 : Fin 32)) ∧ (takesFirst (((run0).modDep fun d => { d with posted := [3, 7], reqBusy := 0x88, rspPend := 1, slots := upd d.slots 3 fun x => (((x.set 0 0x5509).set 1 15).set 2 151) }) : State) (3 : Fin 32) ([7] : List (Fin 32)) 9) ∧ (16 ≤ argOf (((run0).modDep fun d => { d with posted := [3, 7], reqBusy := 0x88, rspPend := 1, slots := upd d.slots 3 fun x => (((x.set 0 0x5509).set 1 15).set 2 151) }) : State) (3 : Fin 32) 1 ∨ sext 32 (argOf (((run0).modDep fun d => { d with posted := [3, 7], reqBusy := 0x88, rspPend := 1, slots := upd d.slots 3 fun x => (((x.set 0 0x5509).set 1 15).set 2 151) }) : State) (3 : Fin 32) 2) < -40 ∨ 150 < sext 32 (argOf (((run0).modDep fun d => { d with posted := [3, 7], reqBusy := 0x88, rspPend := 1, slots := upd d.slots 3 fun x => (((x.set 0 0x5509).set 1 15).set 2 151) }) : State) (3 : Fin 32) 2))) ∧
    (((run0.modDep fun d => { d with mgmtUp := false } : State).depUp = false)) ∧
    (((run0.modDep fun d => { d with mgmtUp := false } : State).depUp = false)) ∧
    ((takeDep (30 : Fin 72).val (run0 : State).fab.hub = none ∧ ((run0 : State).fab.out[(30 : Fin 72)].recs = [] ∨ (run0 : State).isUp 2 = false) ∨ (run0 : State).depUp = false ∧ (takeDep (30 : Fin 72).val (run0 : State).fab.hub).isSome = true)) ∧
    (((run0 : State).depUp = false ∨ ((run0 : State).dep.lostSince = 0 ∧ (run0 : State).dep.logBuf = []))) ∧
    (((run0.modDep fun d => { d with mgmtUp := false } : State).depUp = false)) ∧
    (((run0.modDep fun d => { d with mgmtUp := false } : State).depUp = false)) ∧
    (((run0.modDep fun d => { d with mgmtUp := false } : State).depUp = false)) ∧
    (((run0 : State).depUp = false ∨ (run0 : State).isStopped 11 = true ∨ (run0 : State).dep.posted = [])) ∧
    (((run0 : State).depUp = false ∨ (run0 : State).isStopped 11 = true ∨ (run0 : State).dep.posted = [])) ∧
    (((run0 : State).depUp = false ∨ (run0 : State).isStopped 11 = true ∨ (run0 : State).dep.posted = [])) := by
  refine ⟨?_, ?_, ?_, ?_, ?_, ?_, ?_, ?_, ?_, ?_, ?_, ?_⟩ <;> decide +kernel

/-- What meets the hypotheses of TheDeputySamplesLogsAndAccounts: one conjunct for each clause, in the order of its clauses. -/
theorem witness_TheDeputySamplesLogsAndAccounts_5 :
    (((run0 : State).depUp = false ∨ (run0 : State).isStopped 11 = true ∨ (run0 : State).dep.posted = [])) ∧
    (((run0 : State).depUp = false ∨ (run0 : State).isStopped 11 = true ∨ (run0 : State).dep.posted = [])) ∧
    (((run0 : State).depUp = false ∨ (run0 : State).isStopped 11 = true ∨ (run0 : State).dep.posted = [])) := by
  refine ⟨?_, ?_, ?_⟩ <;> decide +kernel

/-- What meets the hypotheses of UpdatesTrialsKeysAndDebugFollowTheMailbox: one conjunct for each clause, in the order of its clauses. -/
theorem witness_UpdatesTrialsKeysAndDebugFollowTheMailbox_1 :
    ((canAnswer ((((({ run0 with mem := [(12, 5)] }).modDep fun d => { d with posted := [3, 7], reqBusy := 0x88, rspPend := 1, slots := upd d.slots 3 fun x => (x.set 0 0x5501), trialAt := some 0 })).modNv fun v => { v with trial := true }) : State) (1 : Fin 32)) ∧ (takesFirst ((((({ run0 with mem := [(12, 5)] }).modDep fun d => { d with posted := [3, 7], reqBusy := 0x88, rspPend := 1, slots := upd d.slots 3 fun x => (x.set 0 0x5501), trialAt := some 0 })).modNv fun v => { v with trial := true }) : State) (3 : Fin 32) ([7] : List (Fin 32)) 1) ∧ (((((({ run0 with mem := [(12, 5)] }).modDep fun d => { d with posted := [3, 7], reqBusy := 0x88, rspPend := 1, slots := upd d.slots 3 fun x => (x.set 0 0x5501), trialAt := some 0 })).modNv fun v => { v with trial := true }) : State).nv.trial = true) ∧ (((((({ run0 with mem := [(12, 5)] }).modDep fun d => { d with posted := [3, 7], reqBusy := 0x88, rspPend := 1, slots := upd d.slots 3 fun x => (x.set 0 0x5501), trialAt := some 0 })).modNv fun v => { v with trial := true }) : State).dep.trialAt = some (0 : Nat)) ∧ (((((({ run0 with mem := [(12, 5)] }).modDep fun d => { d with posted := [3, 7], reqBusy := 0x88, rspPend := 1, slots := upd d.slots 3 fun x => (x.set 0 0x5501), trialAt := some 0 })).modNv fun v => { v with trial := true }) : State).dep.postTime[(3 : Fin 32)] < (0 : Nat) + 60000000) ∧ ((0 : Nat) + 60000000 < 2 ^ 48)) ∧
    ((canAnswer (((((run0).modDep fun d => { d with posted := [3, 7], reqBusy := 0x88, rspPend := 1, slots := upd d.slots 3 fun x => (x.set 0 0x5501), trialAt := some 0, postTime := Vector.replicate 32 60000000 })).modNv fun v => { v with trial := true }) : State) (1 : Fin 32)) ∧ (takesFirst (((((run0).modDep fun d => { d with posted := [3, 7], reqBusy := 0x88, rspPend := 1, slots := upd d.slots 3 fun x => (x.set 0 0x5501), trialAt := some 0, postTime := Vector.replicate 32 60000000 })).modNv fun v => { v with trial := true }) : State) (3 : Fin 32) ([7] : List (Fin 32)) 1) ∧ ((((((run0).modDep fun d => { d with posted := [3, 7], reqBusy := 0x88, rspPend := 1, slots := upd d.slots 3 fun x => (x.set 0 0x5501), trialAt := some 0, postTime := Vector.replicate 32 60000000 })).modNv fun v => { v with trial := true }) : State).nv.trial = true) ∧ ((((((run0).modDep fun d => { d with posted := [3, 7], reqBusy := 0x88, rspPend := 1, slots := upd d.slots 3 fun x => (x.set 0 0x5501), trialAt := some 0, postTime := Vector.replicate 32 60000000 })).modNv fun v => { v with trial := true }) : State).dep.trialAt = some (0 : Nat)) ∧ ((0 : Nat) + 60000000 ≤ (((((run0).modDep fun d => { d with posted := [3, 7], reqBusy := 0x88, rspPend := 1, slots := upd d.slots 3 fun x => (x.set 0 0x5501), trialAt := some 0, postTime := Vector.replicate 32 60000000 })).modNv fun v => { v with trial := true }) : State).dep.postTime[(3 : Fin 32)]) ∧ ((0 : Nat) + 60000000 < 2 ^ 48)) ∧
    ((canAnswer (((run0).modDep fun d => { d with posted := [3, 7], reqBusy := 0x88, rspPend := 1, slots := upd d.slots 3 fun x => (x.set 0 0x5502) }) : State) (1 : Fin 32)) ∧ (takesFirst (((run0).modDep fun d => { d with posted := [3, 7], reqBusy := 0x88, rspPend := 1, slots := upd d.slots 3 fun x => (x.set 0 0x5502) }) : State) (3 : Fin 32) ([7] : List (Fin 32)) 2)) ∧
    ((canAnswer ((((run0).modDep fun d => { d with posted := [3, 7], reqBusy := 0x88, rspPend := 1, slots := upd d.slots 3 fun x => (x.set 0 0x5503) })).modInp fun p => { p with deputy := true } : State) (1 : Fin 32)) ∧ (takesFirst ((((run0).modDep fun d => { d with posted := [3, 7], reqBusy := 0x88, rspPend := 1, slots := upd d.slots 3 fun x => (x.set 0 0x5503) })).modInp fun p => { p with deputy := true } : State) (3 : Fin 32) ([7] : List (Fin 32)) 3)) := by
  refine ⟨?_, ?_, ?_, ?_⟩ <;> decide +kernel

/-- What meets the hypotheses of UpdatesTrialsKeysAndDebugFollowTheMailbox: one conjunct for each clause, in the order of its clauses. -/
theorem witness_UpdatesTrialsKeysAndDebugFollowTheMailbox_2 :
    ((canAnswer (((run0).modDep fun d => { d with posted := [3, 7], reqBusy := 0x88, rspPend := 1, slots := upd d.slots 3 fun x => ((x.set 0 0x5510).set 1 4194304) }) : State) (1 : Fin 32)) ∧ (takesFirst (((run0).modDep fun d => { d with posted := [3, 7], reqBusy := 0x88, rspPend := 1, slots := upd d.slots 3 fun x => ((x.set 0 0x5510).set 1 4194304) }) : State) (3 : Fin 32) ([7] : List (Fin 32)) 16) ∧ ((((run0).modDep fun d => { d with posted := [3, 7], reqBusy := 0x88, rspPend := 1, slots := upd d.slots 3 fun x => ((x.set 0 0x5510).set 1 4194304) }) : State).dep.updStep = 0) ∧ ((((run0).modDep fun d => { d with posted := [3, 7], reqBusy := 0x88, rspPend := 1, slots := upd d.slots 3 fun x => ((x.set 0 0x5510).set 1 4194304) }) : State).nv.trial = false) ∧ (argOf (((run0).modDep fun d => { d with posted := [3, 7], reqBusy := 0x88, rspPend := 1, slots := upd d.slots 3 fun x => ((x.set 0 0x5510).set 1 4194304) }) : State) (3 : Fin 32) 1 ≠ 0) ∧ (argOf (((run0).modDep fun d => { d with posted := [3, 7], reqBusy := 0x88, rspPend := 1, slots := upd d.slots 3 fun x => ((x.set 0 0x5510).set 1 4194304) }) : State) (3 : Fin 32) 1 % 4 = 0) ∧ (argOf (((run0).modDep fun d => { d with posted := [3, 7], reqBusy := 0x88, rspPend := 1, slots := upd d.slots 3 fun x => ((x.set 0 0x5510).set 1 4194304) }) : State) (3 : Fin 32) 1 ≤ 0x400000)) ∧
    ((canAnswer (((((run0).modDep fun d => { d with posted := [3, 7], reqBusy := 0x88, rspPend := 1, slots := upd d.slots 3 fun x => ((x.set 0 0x5510).set 1 64) })).modNv fun v => { v with trial := true }) : State) (1 : Fin 32)) ∧ (takesFirst (((((run0).modDep fun d => { d with posted := [3, 7], reqBusy := 0x88, rspPend := 1, slots := upd d.slots 3 fun x => ((x.set 0 0x5510).set 1 64) })).modNv fun v => { v with trial := true }) : State) (3 : Fin 32) ([7] : List (Fin 32)) 16) ∧ ((((((run0).modDep fun d => { d with posted := [3, 7], reqBusy := 0x88, rspPend := 1, slots := upd d.slots 3 fun x => ((x.set 0 0x5510).set 1 64) })).modNv fun v => { v with trial := true }) : State).dep.updStep ≠ 0 ∨ (((((run0).modDep fun d => { d with posted := [3, 7], reqBusy := 0x88, rspPend := 1, slots := upd d.slots 3 fun x => ((x.set 0 0x5510).set 1 64) })).modNv fun v => { v with trial := true }) : State).nv.trial = true)) ∧
    ((canAnswer (((run0).modDep fun d => { d with posted := [3, 7], reqBusy := 0x88, rspPend := 1, slots := upd d.slots 3 fun x => ((x.set 0 0x5510).set 1 66) }) : State) (1 : Fin 32)) ∧ (takesFirst (((run0).modDep fun d => { d with posted := [3, 7], reqBusy := 0x88, rspPend := 1, slots := upd d.slots 3 fun x => ((x.set 0 0x5510).set 1 66) }) : State) (3 : Fin 32) ([7] : List (Fin 32)) 16) ∧ ((((run0).modDep fun d => { d with posted := [3, 7], reqBusy := 0x88, rspPend := 1, slots := upd d.slots 3 fun x => ((x.set 0 0x5510).set 1 66) }) : State).dep.updStep = 0) ∧ ((((run0).modDep fun d => { d with posted := [3, 7], reqBusy := 0x88, rspPend := 1, slots := upd d.slots 3 fun x => ((x.set 0 0x5510).set 1 66) }) : State).nv.trial = false) ∧ (argOf (((run0).modDep fun d => { d with posted := [3, 7], reqBusy := 0x88, rspPend := 1, slots := upd d.slots 3 fun x => ((x.set 0 0x5510).set 1 66) }) : State) (3 : Fin 32) 1 = 0 ∨ argOf (((run0).modDep fun d => { d with posted := [3, 7], reqBusy := 0x88, rspPend := 1, slots := upd d.slots 3 fun x => ((x.set 0 0x5510).set 1 66) }) : State) (3 : Fin 32) 1 % 4 ≠ 0 ∨ 0x400000 < argOf (((run0).modDep fun d => { d with posted := [3, 7], reqBusy := 0x88, rspPend := 1, slots := upd d.slots 3 fun x => ((x.set 0 0x5510).set 1 66) }) : State) (3 : Fin 32) 1)) := by
  refine ⟨?_, ?_, ?_⟩ <;> decide +kernel

/-- What meets the hypotheses of UpdatesTrialsKeysAndDebugFollowTheMailbox: one conjunct for each clause, in the order of its clauses. -/
theorem witness_UpdatesTrialsKeysAndDebugFollowTheMailbox_3 :
    ((canAnswer (((run0).modDep fun d => { d with posted := [3, 7], reqBusy := 0x88, rspPend := 1, slots := upd d.slots 3 fun x => ((((x.set 0 0x5511).set 1 0x2400000).set 2 65536).set 3 0), updStep := 1, updTotal := 65536 }) : State) (1 : Fin 32)) ∧ (takesFirst (((run0).modDep fun d => { d with posted := [3, 7], reqBusy := 0x88, rspPend := 1, slots := upd d.slots 3 fun x => ((((x.set 0 0x5511).set 1 0x2400000).set 2 65536).set 3 0), updStep := 1, updTotal := 65536 }) : State) (3 : Fin 32) ([7] : List (Fin 32)) 17) ∧ ((((run0).modDep fun d => { d with posted := [3, 7], reqBusy := 0x88, rspPend := 1, slots := upd d.slots 3 fun x => ((((x.set 0 0x5511).set 1 0x2400000).set 2 65536).set 3 0), updStep := 1, updTotal := 65536 }) : State).dep.updStep = 1 ∨ (((run0).modDep fun d => { d with posted := [3, 7], reqBusy := 0x88, rspPend := 1, slots := upd d.slots 3 fun x => ((((x.set 0 0x5511).set 1 0x2400000).set 2 65536).set 3 0), updStep := 1, updTotal := 65536 }) : State).dep.updStep = 2) ∧ (argOf (((run0).modDep fun d => { d with posted := [3, 7], reqBusy := 0x88, rspPend := 1, slots := upd d.slots 3 fun x => ((((x.set 0 0x5511).set 1 0x2400000).set 2 65536).set 3 0), updStep := 1, updTotal := 65536 }) : State) (3 : Fin 32) 1 % 4 = 0 ∧ argOf (((run0).modDep fun d => { d with posted := [3, 7], reqBusy := 0x88, rspPend := 1, slots := upd d.slots 3 fun x => ((((x.set 0 0x5511).set 1 0x2400000).set 2 65536).set 3 0), updStep := 1, updTotal := 65536 }) : State) (3 : Fin 32) 2 % 4 = 0 ∧ argOf (((run0).modDep fun d => { d with posted := [3, 7], reqBusy := 0x88, rspPend := 1, slots := upd d.slots 3 fun x => ((((x.set 0 0x5511).set 1 0x2400000).set 2 65536).set 3 0), updStep := 1, updTotal := 65536 }) : State) (3 : Fin 32) 3 % 4 = 0) ∧ (argOf (((run0).modDep fun d => { d with posted := [3, 7], reqBusy := 0x88, rspPend := 1, slots := upd d.slots 3 fun x => ((((x.set 0 0x5511).set 1 0x2400000).set 2 65536).set 3 0), updStep := 1, updTotal := 65536 }) : State) (3 : Fin 32) 2 ≤ 65536) ∧ (bulkBase ≤ argOf (((run0).modDep fun d => { d with posted := [3, 7], reqBusy := 0x88, rspPend := 1, slots := upd d.slots 3 fun x => ((((x.set 0 0x5511).set 1 0x2400000).set 2 65536).set 3 0), updStep := 1, updTotal := 65536 }) : State) (3 : Fin 32) 1) ∧ (argOf (((run0).modDep fun d => { d with posted := [3, 7], reqBusy := 0x88, rspPend := 1, slots := upd d.slots 3 fun x => ((((x.set 0 0x5511).set 1 0x2400000).set 2 65536).set 3 0), updStep := 1, updTotal := 65536 }) : State) (3 : Fin 32) 1 + argOf (((run0).modDep fun d => { d with posted := [3, 7], reqBusy := 0x88, rspPend := 1, slots := upd d.slots 3 fun x => ((((x.set 0 0x5511).set 1 0x2400000).set 2 65536).set 3 0), updStep := 1, updTotal := 65536 }) : State) (3 : Fin 32) 2 ≤ bulkEnd) ∧ (argOf (((run0).modDep fun d => { d with posted := [3, 7], reqBusy := 0x88, rspPend := 1, slots := upd d.slots 3 fun x => ((((x.set 0 0x5511).set 1 0x2400000).set 2 65536).set 3 0), updStep := 1, updTotal := 65536 }) : State) (3 : Fin 32) 3 + argOf (((run0).modDep fun d => { d with posted := [3, 7], reqBusy := 0x88, rspPend := 1, slots := upd d.slots 3 fun x => ((((x.set 0 0x5511).set 1 0x2400000).set 2 65536).set 3 0), updStep := 1, updTotal := 65536 }) : State) (3 : Fin 32) 2 ≤ (((run0).modDep fun d => { d with posted := [3, 7], reqBusy := 0x88, rspPend := 1, slots := upd d.slots 3 fun x => ((((x.set 0 0x5511).set 1 0x2400000).set 2 65536).set 3 0), updStep := 1, updTotal := 65536 }) : State).dep.updTotal)) ∧
    ((canAnswer (((run0).modDep fun d => { d with posted := [3, 7], reqBusy := 0x88, rspPend := 1, slots := upd d.slots 3 fun x => ((((x.set 0 0x5511).set 1 0x2400000).set 2 64).set 3 0) }) : State) (1 : Fin 32)) ∧ (takesFirst (((run0).modDep fun d => { d with posted := [3, 7], reqBusy := 0x88, rspPend := 1, slots := upd d.slots 3 fun x => ((((x.set 0 0x5511).set 1 0x2400000).set 2 64).set 3 0) }) : State) (3 : Fin 32) ([7] : List (Fin 32)) 17) ∧ ((((run0).modDep fun d => { d with posted := [3, 7], reqBusy := 0x88, rspPend := 1, slots := upd d.slots 3 fun x => ((((x.set 0 0x5511).set 1 0x2400000).set 2 64).set 3 0) }) : State).dep.updStep ≠ 1) ∧ ((((run0).modDep fun d => { d with posted := [3, 7], reqBusy := 0x88, rspPend := 1, slots := upd d.slots 3 fun x => ((((x.set 0 0x5511).set 1 0x2400000).set 2 64).set 3 0) }) : State).dep.updStep ≠ 2)) := by
  refine ⟨?_, ?_⟩ <;> decide +kernel

/-- What meets the hypotheses of UpdatesTrialsKeysAndDebugFollowTheMailbox: one conjunct for each clause, in the order of its clauses. -/
theorem witness_UpdatesTrialsKeysAndDebugFollowTheMailbox_4 :
    ((canAnswer (((run0).modDep fun d => { d with posted := [3, 7], reqBusy := 0x88, rspPend := 1, slots := upd d.slots 3 fun x => (x.set 0 0x5512), updStep := 2 }) : State) (1 : Fin 32)) ∧ (takesFirst (((run0).modDep fun d => { d with posted := [3, 7], reqBusy := 0x88, rspPend := 1, slots := upd d.slots 3 fun x => (x.set 0 0x5512), updStep := 2 }) : State) (3 : Fin 32) ([7] : List (Fin 32)) 18) ∧ ((((run0).modDep fun d => { d with posted := [3, 7], reqBusy := 0x88, rspPend := 1, slots := upd d.slots 3 fun x => (x.set 0 0x5512), updStep := 2 }) : State).dep.updStep = 2)) ∧
    ((canAnswer (((run0).modDep fun d => { d with posted := [3, 7], reqBusy := 0x88, rspPend := 1, slots := upd d.slots 3 fun x => (x.set 0 0x5512), updStep := 1 }) : State) (1 : Fin 32)) ∧ (takesFirst (((run0).modDep fun d => { d with posted := [3, 7], reqBusy := 0x88, rspPend := 1, slots := upd d.slots 3 fun x => (x.set 0 0x5512), updStep := 1 }) : State) (3 : Fin 32) ([7] : List (Fin 32)) 18) ∧ ((((run0).modDep fun d => { d with posted := [3, 7], reqBusy := 0x88, rspPend := 1, slots := upd d.slots 3 fun x => (x.set 0 0x5512), updStep := 1 }) : State).dep.updStep ≠ 2)) ∧
    ((canAnswer (((run0).modDep fun d => { d with posted := [3, 7], reqBusy := 0x88, rspPend := 1, slots := upd d.slots 3 fun x => ((x.set 0 0x5513).set 1 1), updStep := 3 }) : State) (1 : Fin 32)) ∧ (takesFirst (((run0).modDep fun d => { d with posted := [3, 7], reqBusy := 0x88, rspPend := 1, slots := upd d.slots 3 fun x => ((x.set 0 0x5513).set 1 1), updStep := 3 }) : State) (3 : Fin 32) ([7] : List (Fin 32)) 19) ∧ ((((run0).modDep fun d => { d with posted := [3, 7], reqBusy := 0x88, rspPend := 1, slots := upd d.slots 3 fun x => ((x.set 0 0x5513).set 1 1), updStep := 3 }) : State).dep.updStep = 3)) ∧
    ((canAnswer (((run0).modDep fun d => { d with posted := [3, 7], reqBusy := 0x88, rspPend := 1, slots := upd d.slots 3 fun x => ((x.set 0 0x5513).set 1 1), updStep := 2 }) : State) (1 : Fin 32)) ∧ (takesFirst (((run0).modDep fun d => { d with posted := [3, 7], reqBusy := 0x88, rspPend := 1, slots := upd d.slots 3 fun x => ((x.set 0 0x5513).set 1 1), updStep := 2 }) : State) (3 : Fin 32) ([7] : List (Fin 32)) 19) ∧ ((((run0).modDep fun d => { d with posted := [3, 7], reqBusy := 0x88, rspPend := 1, slots := upd d.slots 3 fun x => ((x.set 0 0x5513).set 1 1), updStep := 2 }) : State).dep.updStep ≠ 3)) ∧
    ((canAnswer (((run0).modDep fun d => { d with posted := [3, 7], reqBusy := 0x88, rspPend := 1, slots := upd d.slots 3 fun x => (x.set 0 0x5514), updStep := 3 }) : State) (1 : Fin 32)) ∧ (takesFirst (((run0).modDep fun d => { d with posted := [3, 7], reqBusy := 0x88, rspPend := 1, slots := upd d.slots 3 fun x => (x.set 0 0x5514), updStep := 3 }) : State) (3 : Fin 32) ([7] : List (Fin 32)) 20)) ∧
    ((canAnswer ((({ run0 with mem := [(0x400000, 5), (0x1000000, 5)] }).modDep fun d => { d with rspPend := 1, updOp := some { op := 0x10, hdr := 0x5510, args := [64] } }) : State) (1 : Fin 32)) ∧ (((({ run0 with mem := [(0x400000, 5), (0x1000000, 5)] }).modDep fun d => { d with rspPend := 1, updOp := some { op := 0x10, hdr := 0x5510, args := [64] } }) : State).dep.updOp = some ({ op := 0x10, hdr := 0x5510, args := [64] } : UpdOp)) ∧ (({ op := 0x10, hdr := 0x5510, args := [64] } : UpdOp).op = 0x10) ∧ (((({ run0 with mem := [(0x400000, 5), (0x1000000, 5)] }).modDep fun d => { d with rspPend := 1, updOp := some { op := 0x10, hdr := 0x5510, args := [64] } }) : State).canonical)) := by
  refine ⟨?_, ?_, ?_, ?_, ?_, ?_⟩ <;> decide +kernel

/-- What meets the hypotheses of UpdatesTrialsKeysAndDebugFollowTheMailbox: one conjunct for each clause, in the order of its clauses. -/
theorem witness_UpdatesTrialsKeysAndDebugFollowTheMailbox_5 :
    ((canAnswer ((({ run0 with mem := [(0x2000000, 0x47), (0x2000007, 0x11)] }).modDep fun d => { d with rspPend := 1, updOp := some { op := 0x11, hdr := 0x5511, args := [0x2000000, 8, 4] }, updStep := 1, updTotal := 64 }) : State) (1 : Fin 32)) ∧ (((({ run0 with mem := [(0x2000000, 0x47), (0x2000007, 0x11)] }).modDep fun d => { d with rspPend := 1, updOp := some { op := 0x11, hdr := 0x5511, args := [0x2000000, 8, 4] }, updStep := 1, updTotal := 64 }) : State).dep.updOp = some ({ op := 0x11, hdr := 0x5511, args := [0x2000000, 8, 4] } : UpdOp)) ∧ (({ op := 0x11, hdr := 0x5511, args := [0x2000000, 8, 4] } : UpdOp).op = 0x11) ∧ (((({ run0 with mem := [(0x2000000, 0x47), (0x2000007, 0x11)] }).modDep fun d => { d with rspPend := 1, updOp := some { op := 0x11, hdr := 0x5511, args := [0x2000000, 8, 4] }, updStep := 1, updTotal := 64 }) : State).canonical) ∧ (((({ run0 with mem := [(0x2000000, 0x47), (0x2000007, 0x11)] }).modDep fun d => { d with rspPend := 1, updOp := some { op := 0x11, hdr := 0x5511, args := [0x2000000, 8, 4] }, updStep := 1, updTotal := 64 }) : State).bulkOk = true) ∧ (((({ run0 with mem := [(0x2000000, 0x47), (0x2000007, 0x11)] }).modDep fun d => { d with rspPend := 1, updOp := some { op := 0x11, hdr := 0x5511, args := [0x2000000, 8, 4] }, updStep := 1, updTotal := 64 }) : State).ecc = []) ∧ (bulkBase ≤ (({ op := 0x11, hdr := 0x5511, args := [0x2000000, 8, 4] } : UpdOp).args.getD 0 0).toNat) ∧ ((({ op := 0x11, hdr := 0x5511, args := [0x2000000, 8, 4] } : UpdOp).args.getD 0 0).toNat + (({ op := 0x11, hdr := 0x5511, args := [0x2000000, 8, 4] } : UpdOp).args.getD 1 0).toNat ≤ bulkEnd) ∧ ((({ op := 0x11, hdr := 0x5511, args := [0x2000000, 8, 4] } : UpdOp).args.getD 1 0).toNat % 4 = 0) ∧ ((({ op := 0x11, hdr := 0x5511, args := [0x2000000, 8, 4] } : UpdOp).args.getD 2 0).toNat + (({ op := 0x11, hdr := 0x5511, args := [0x2000000, 8, 4] } : UpdOp).args.getD 1 0).toNat ≤ 0x400000)) ∧
    ((canAnswer (((run0).modDep fun d => { d with rspPend := 1, updOp := some { op := 0x10, hdr := 0x5510, args := [64] } }) : State) (1 : Fin 32)) ∧ ((((run0).modDep fun d => { d with rspPend := 1, updOp := some { op := 0x10, hdr := 0x5510, args := [64] } }) : State).dep.updOp = some ({ op := 0x10, hdr := 0x5510, args := [64] } : UpdOp)) ∧ (({ op := 0x10, hdr := 0x5510, args := [64] } : UpdOp).op = 0x10 ∨ ({ op := 0x10, hdr := 0x5510, args := [64] } : UpdOp).op = 0x11) ∧ ((((run0).modDep fun d => { d with rspPend := 1, updOp := some { op := 0x10, hdr := 0x5510, args := [64] } }) : State).bulkOk = true)) ∧
    ((canAnswer (((run0).modDep fun d => { d with rspPend := 1, updOp := some { op := 0x12, hdr := 0x5512, args := [] }, updStep := 2 }) : State) (1 : Fin 32)) ∧ ((((run0).modDep fun d => { d with rspPend := 1, updOp := some { op := 0x12, hdr := 0x5512, args := [] }, updStep := 2 }) : State).dep.updOp = some ({ op := 0x12, hdr := 0x5512, args := [] } : UpdOp)) ∧ (({ op := 0x12, hdr := 0x5512, args := [] } : UpdOp).op = 0x12)) ∧
    ((canAnswer (((run0).modDep fun d => { d with rspPend := 1, updOp := some { op := 0x13, hdr := 0x5513, args := [1] }, updStep := 3 }) : State) (1 : Fin 32)) ∧ ((((run0).modDep fun d => { d with rspPend := 1, updOp := some { op := 0x13, hdr := 0x5513, args := [1] }, updStep := 3 }) : State).dep.updOp = some ({ op := 0x13, hdr := 0x5513, args := [1] } : UpdOp)) ∧ (({ op := 0x13, hdr := 0x5513, args := [1] } : UpdOp).op = 0x13)) ∧
    ((canAnswer (((run0).modDep fun d => { d with rspPend := 1, updOp := some { op := 0x14, hdr := 0x5514, args := [] }, updStep := 3 }) : State) (1 : Fin 32)) ∧ ((((run0).modDep fun d => { d with rspPend := 1, updOp := some { op := 0x14, hdr := 0x5514, args := [] }, updStep := 3 }) : State).dep.updOp = some ({ op := 0x14, hdr := 0x5514, args := [] } : UpdOp)) ∧ (({ op := 0x14, hdr := 0x5514, args := [] } : UpdOp).op = 0x14)) := by
  refine ⟨?_, ?_, ?_, ?_, ?_⟩ <;> decide +kernel

/-- What meets the hypotheses of UpdatesTrialsKeysAndDebugFollowTheMailbox: one conjunct for each clause, in the order of its clauses. -/
theorem witness_UpdatesTrialsKeysAndDebugFollowTheMailbox_6 :
    ((canAnswer (((run0).modDep fun d => { d with posted := [3, 7], reqBusy := 0x88, rspPend := 1, slots := upd d.slots 3 fun x => ((x.set 0 0x5515).set 1 3) }) : State) (1 : Fin 32)) ∧ (takesFirst (((run0).modDep fun d => { d with posted := [3, 7], reqBusy := 0x88, rspPend := 1, slots := upd d.slots 3 fun x => ((x.set 0 0x5515).set 1 3) }) : State) (3 : Fin 32) ([7] : List (Fin 32)) 21) ∧ (argOf (((run0).modDep fun d => { d with posted := [3, 7], reqBusy := 0x88, rspPend := 1, slots := upd d.slots 3 fun x => ((x.set 0 0x5515).set 1 3) }) : State) (3 : Fin 32) 1 = (3 : Fin 4).val) ∧ ((memGet (((run0).modDep fun d => { d with posted := [3, 7], reqBusy := 0x88, rspPend := 1, slots := upd d.slots 3 fun x => ((x.set 0 0x5515).set 1 3) }) : State).mem (bankBase (((run0).modDep fun d => { d with posted := [3, 7], reqBusy := 0x88, rspPend := 1, slots := upd d.slots 3 fun x => ((x.set 0 0x5515).set 1 3) }) : State).nv.activeB + 5)).toNat ≠ (3 : Fin 4).val)) ∧
    ((canAnswer ((({ run0 with mem := [(5, 0)] }).modDep fun d => { d with posted := [3, 7], reqBusy := 0x88, rspPend := 1, slots := upd d.slots 3 fun x => ((x.set 0 0x5515).set 1 0) }) : State) (1 : Fin 32)) ∧ (takesFirst ((({ run0 with mem := [(5, 0)] }).modDep fun d => { d with posted := [3, 7], reqBusy := 0x88, rspPend := 1, slots := upd d.slots 3 fun x => ((x.set 0 0x5515).set 1 0) }) : State) (3 : Fin 32) ([7] : List (Fin 32)) 21) ∧ (argOf ((({ run0 with mem := [(5, 0)] }).modDep fun d => { d with posted := [3, 7], reqBusy := 0x88, rspPend := 1, slots := upd d.slots 3 fun x => ((x.set 0 0x5515).set 1 0) }) : State) (3 : Fin 32) 1 < 4) ∧ ((memGet ((({ run0 with mem := [(5, 0)] }).modDep fun d => { d with posted := [3, 7], reqBusy := 0x88, rspPend := 1, slots := upd d.slots 3 fun x => ((x.set 0 0x5515).set 1 0) }) : State).mem (bankBase ((({ run0 with mem := [(5, 0)] }).modDep fun d => { d with posted := [3, 7], reqBusy := 0x88, rspPend := 1, slots := upd d.slots 3 fun x => ((x.set 0 0x5515).set 1 0) }) : State).nv.activeB + 5)).toNat = argOf ((({ run0 with mem := [(5, 0)] }).modDep fun d => { d with posted := [3, 7], reqBusy := 0x88, rspPend := 1, slots := upd d.slots 3 fun x => ((x.set 0 0x5515).set 1 0) }) : State) (3 : Fin 32) 1)) ∧
    ((canAnswer (((run0).modDep fun d => { d with posted := [3, 7], reqBusy := 0x88, rspPend := 1, slots := upd d.slots 3 fun x => ((x.set 0 0x5515).set 1 4) }) : State) (1 : Fin 32)) ∧ (takesFirst (((run0).modDep fun d => { d with posted := [3, 7], reqBusy := 0x88, rspPend := 1, slots := upd d.slots 3 fun x => ((x.set 0 0x5515).set 1 4) }) : State) (3 : Fin 32) ([7] : List (Fin 32)) 21) ∧ (4 ≤ argOf (((run0).modDep fun d => { d with posted := [3, 7], reqBusy := 0x88, rspPend := 1, slots := upd d.slots 3 fun x => ((x.set 0 0x5515).set 1 4) }) : State) (3 : Fin 32) 1)) ∧
    ((canAnswer (((run0).modDep fun d => { d with posted := [3, 7], reqBusy := 0x88, rspPend := 1, slots := upd d.slots 3 fun x => (x.set 0 0x5520) }) : State) (1 : Fin 32)) ∧ (takesFirst (((run0).modDep fun d => { d with posted := [3, 7], reqBusy := 0x88, rspPend := 1, slots := upd d.slots 3 fun x => (x.set 0 0x5520) }) : State) (3 : Fin 32) ([7] : List (Fin 32)) 32) ∧ ((((run0).modDep fun d => { d with posted := [3, 7], reqBusy := 0x88, rspPend := 1, slots := upd d.slots 3 fun x => (x.set 0 0x5520) }) : State).nv.dbgFuse = false) ∧ ((((run0).modDep fun d => { d with posted := [3, 7], reqBusy := 0x88, rspPend := 1, slots := upd d.slots 3 fun x => (x.set 0 0x5520) }) : State).dep.dbgClosed = false) ∧ ((((run0).modDep fun d => { d with posted := [3, 7], reqBusy := 0x88, rspPend := 1, slots := upd d.slots 3 fun x => (x.set 0 0x5520) }) : State).dep.logBuf.length < 4096)) ∧
    ((canAnswer (((run0).modDep fun d => { d with posted := [3, 7], reqBusy := 0x88, rspPend := 1, slots := upd d.slots 3 fun x => ((x.set 0 0x5521).set 1 0x4C4F434B) }) : State) (1 : Fin 32)) ∧ (takesFirst (((run0).modDep fun d => { d with posted := [3, 7], reqBusy := 0x88, rspPend := 1, slots := upd d.slots 3 fun x => ((x.set 0 0x5521).set 1 0x4C4F434B) }) : State) (3 : Fin 32) ([7] : List (Fin 32)) 33) ∧ (argOf (((run0).modDep fun d => { d with posted := [3, 7], reqBusy := 0x88, rspPend := 1, slots := upd d.slots 3 fun x => ((x.set 0 0x5521).set 1 0x4C4F434B) }) : State) (3 : Fin 32) 1 = 0x4C4F434B) ∧ ((((run0).modDep fun d => { d with posted := [3, 7], reqBusy := 0x88, rspPend := 1, slots := upd d.slots 3 fun x => ((x.set 0 0x5521).set 1 0x4C4F434B) }) : State).dep.logBuf.length < 4096)) := by
  refine ⟨?_, ?_, ?_, ?_, ?_⟩ <;> decide +kernel

/-- What meets the hypotheses of UpdatesTrialsKeysAndDebugFollowTheMailbox: one conjunct for each clause, in the order of its clauses. -/
theorem witness_UpdatesTrialsKeysAndDebugFollowTheMailbox_7 :
    ((canAnswer (((run0).modDep fun d => { d with posted := [3, 7], reqBusy := 0x88, rspPend := 1, slots := upd d.slots 3 fun x => ((x.set 0 0x5521).set 1 1) }) : State) (1 : Fin 32)) ∧ (takesFirst (((run0).modDep fun d => { d with posted := [3, 7], reqBusy := 0x88, rspPend := 1, slots := upd d.slots 3 fun x => ((x.set 0 0x5521).set 1 1) }) : State) (3 : Fin 32) ([7] : List (Fin 32)) 33) ∧ (argOf (((run0).modDep fun d => { d with posted := [3, 7], reqBusy := 0x88, rspPend := 1, slots := upd d.slots 3 fun x => ((x.set 0 0x5521).set 1 1) }) : State) (3 : Fin 32) 1 ≠ 0x4C4F434B)) ∧
    (((run0 : State).depUp = false ∨ (run0 : State).isStopped 11 = true ∨ (run0 : State).dep.posted = [])) ∧
    (((run0 : State).depUp = false ∨ (run0 : State).isStopped 11 = true ∨ (run0 : State).dep.posted = [])) ∧
    (((run0 : State).depUp = false ∨ (run0 : State).isStopped 11 = true ∨ (run0 : State).dep.posted = [])) ∧
    (((run0 : State).depUp = false ∨ (run0 : State).isStopped 11 = true ∨ (run0 : State).dep.posted = [])) ∧
    (((run0 : State).depUp = false ∨ (run0 : State).isStopped 11 = true ∨ (run0 : State).dep.posted = [])) ∧
    (((run0 : State).depUp = false ∨ (run0 : State).isStopped 11 = true ∨ (run0 : State).dep.posted = [])) ∧
    (((run0 : State).depUp = false ∨ (run0 : State).isStopped 11 = true ∨ (run0 : State).dep.posted = [])) ∧
    (((run0 : State).depUp = false ∨ (run0 : State).isStopped 11 = true ∨ (run0 : State).dep.posted = [])) ∧
    (((run0 : State).depUp = false ∨ (run0 : State).isStopped 11 = true ∨ (run0 : State).dep.posted = [])) ∧
    (((run0 : State).depUp = false ∨ (run0 : State).isStopped 11 = true ∨ (run0 : State).dep.posted = [])) ∧
    (((run0 : State).depUp = false ∨ (run0 : State).isStopped 11 = true ∨ (run0 : State).dep.posted = [])) := by
  refine ⟨?_, ?_, ?_, ?_, ?_, ?_, ?_, ?_, ?_, ?_, ?_, ?_⟩ <;> decide +kernel

theorem witness_UpdatesTrialsKeysAndDebugFollowTheMailbox_8 :
    ((run0 : State).depUp = false ∨ (run0 : State).dep.updOp = none) := by decide +kernel

/-- What meets the hypotheses of EntriesRunStageByStageOrEndByRefusal: one conjunct for each clause, in the order of its clauses. -/
theorem witness_EntriesRunStageByStageOrEndByRefusal_1 :
    (((run0 : State).coreRuns = true) ∧ ((run0 : State).isUp 0 = true) ∧ ((run0 : State).pwr.phase = .run) ∧ ((3 : BitVec 2) ≠ 0)) ∧
    (((run0 : State).coreRuns = true) ∧ ((run0 : State).isUp 0 = true) ∧ ((run0 : State).pwr.phase = .run) ∧ ((0x9E37 : W16) ≠ 0x9E37 ∨ (0 : BitVec 2) = 0)) ∧
    (((((run0).modPwr fun p => { p with phase := .entering, stage := 2, target := 2 }) : State).coreRuns = true) ∧ ((((run0).modPwr fun p => { p with phase := .entering, stage := 2, target := 2 }) : State).isUp 0 = true) ∧ ((((run0).modPwr fun p => { p with phase := .entering, stage := 2, target := 2 }) : State).pwr.phase = .entering ∨ (((run0).modPwr fun p => { p with phase := .entering, stage := 2, target := 2 }) : State).pwr.phase = .returning)) ∧
    ((((({ run0 with core := upd run0.core 0 fun k => { k with started := true, waiting := true } }).modPwr fun p => { p with phase := .entering, stage := 1, target := 2 }) : State).pwr.phase = .entering) ∧ (((({ run0 with core := upd run0.core 0 fun k => { k with started := true, waiting := true } }).modPwr fun p => { p with phase := .entering, stage := 1, target := 2 }) : State).pwr.stage = 1) ∧ (∀ c : Fin 4, ((({ run0 with core := upd run0.core 0 fun k => { k with started := true, waiting := true } }).modPwr fun p => { p with phase := .entering, stage := 1, target := 2 }) : State).core[c].started = true → ((({ run0 with core := upd run0.core 0 fun k => { k with started := true, waiting := true } }).modPwr fun p => { p with phase := .entering, stage := 1, target := 2 }) : State).core[c].waiting = true)) ∧
    (((((run0).modPwr fun p => { p with phase := .entering, stage := 1, target := 2 }) : State).pwr.phase = .entering) ∧ ((((run0).modPwr fun p => { p with phase := .entering, stage := 1, target := 2 }) : State).pwr.stage = 1) ∧ ((((run0).modPwr fun p => { p with phase := .entering, stage := 1, target := 2 }) : State).core[(0 : Fin 4)].started = true) ∧ ((((run0).modPwr fun p => { p with phase := .entering, stage := 1, target := 2 }) : State).core[(0 : Fin 4)].waiting = false)) ∧
    (((((run0).modPwr fun p => { p with phase := .entering, stage := 2, target := 2 }) : State).pwr.phase = .entering) ∧ ((((run0).modPwr fun p => { p with phase := .entering, stage := 2, target := 2 }) : State).pwr.stage = 2) ∧ ((((run0).modPwr fun p => { p with phase := .entering, stage := 2, target := 2 }) : State).plkRefuses = false)) ∧
    (((((run0).modPwr fun p => { p with phase := .entering, stage := 3, target := 2 }) : State).pwr.phase = .entering) ∧ ((((run0).modPwr fun p => { p with phase := .entering, stage := 3, target := 2 }) : State).pwr.stage = 3) ∧ (∀ c : Fin 4, (canOf (((run0).modPwr fun p => { p with phase := .entering, stage := 3, target := 2 }) : State) c).refuses = false)) ∧
    (((((run0).modPwr fun p => { p with phase := .entering, stage := 4, target := 2 }) : State).pwr.phase = .entering) ∧ ((((run0).modPwr fun p => { p with phase := .entering, stage := 4, target := 2 }) : State).pwr.stage = 4) ∧ (∀ c : Fin 4, ((nmOf (((run0).modPwr fun p => { p with phase := .entering, stage := 4, target := 2 }) : State) c).en = true → (nmOf (((run0).modPwr fun p => { p with phase := .entering, stage := 4, target := 2 }) : State) c).st = .busSleep) ∧ ((nmOf (((run0).modPwr fun p => { p with phase := .entering, stage := 4, target := 2 }) : State) c).en = false → (nmOf (((run0).modPwr fun p => { p with phase := .entering, stage := 4, target := 2 }) : State) c).trx ≠ .normal ∧ (nmOf (((run0).modPwr fun p => { p with phase := .entering, stage := 4, target := 2 }) : State) c).trx ≠ .listen))) ∧
    (((((run0).modPwr fun p => { p with phase := .entering, stage := 5, target := 2 }) : State).pwr.phase = .entering) ∧ ((((run0).modPwr fun p => { p with phase := .entering, stage := 5, target := 2 }) : State).pwr.stage = 5) ∧ (∀ k : Fin 8, ((((run0).modPwr fun p => { p with phase := .entering, stage := 5, target := 2 }) : State).lc[k].st = .disabled ∨ (((run0).modPwr fun p => { p with phase := .entering, stage := 5, target := 2 }) : State).lc[k].st = .idle) ∧ (((run0).modPwr fun p => { p with phase := .entering, stage := 5, target := 2 }) : State).lc[k].out = [])) := by
  refine ⟨?_, ?_, ?_, ?_, ?_, ?_, ?_, ?_, ?_⟩ <;> decide +kernel

/-- What meets the hypotheses of EntriesRunStageByStageOrEndByRefusal: one conjunct for each clause, in the order of its clauses. -/
theorem witness_EntriesRunStageByStageOrEndByRefusal_2 :
    (((((run0).modPwr fun p => { p with phase := .entering, stage := 6, target := 2 }) : State).pwr.phase = .entering) ∧ ((((run0).modPwr fun p => { p with phase := .entering, stage := 6, target := 2 }) : State).pwr.stage = 6) ∧ (∀ k : Fin 3, (((run0).modPwr fun p => { p with phase := .entering, stage := 6, target := 2 }) : State).ls[k].st = .disabled ∨ (((run0).modPwr fun p => { p with phase := .entering, stage := 6, target := 2 }) : State).ls[k].st = .off ∨ (((run0).modPwr fun p => { p with phase := .entering, stage := 6, target := 2 }) : State).ls[k].st = .latched)) ∧
    (((((run0).modPwr fun p => { p with phase := .entering, stage := 7, target := 2 }) : State).pwr.phase = .entering) ∧ ((((run0).modPwr fun p => { p with phase := .entering, stage := 7, target := 2 }) : State).pwr.stage = 7) ∧ (∀ n : Fin 16, (((run0).modPwr fun p => { p with phase := .entering, stage := 7, target := 2 }) : State).vd[n].st = .disabled ∨ (((run0).modPwr fun p => { p with phase := .entering, stage := 7, target := 2 }) : State).vd[n].st = .idle ∨ (((run0).modPwr fun p => { p with phase := .entering, stage := 7, target := 2 }) : State).vd[n].st = .latched) ∧ (∀ g : Fin 4, (((run0).modPwr fun p => { p with phase := .entering, stage := 7, target := 2 }) : State).vg[g].swOn = false)) ∧
    ((((((hs0 12 fun h => { h with st := .on }).modHsc fun h => { h with parkLo := 0x1000 }).modPwr fun p => { p with phase := .entering, stage := 8, target := 2 }) : State).pwr.phase = .entering) ∧ (((((hs0 12 fun h => { h with st := .on }).modHsc fun h => { h with parkLo := 0x1000 }).modPwr fun p => { p with phase := .entering, stage := 8, target := 2 }) : State).pwr.stage = 8) ∧ (((((hs0 12 fun h => { h with st := .on }).modHsc fun h => { h with parkLo := 0x1000 }).modPwr fun p => { p with phase := .entering, stage := 8, target := 2 }) : State).pwr.target = 2) ∧ (∀ n : Fin 48, ((((hs0 12 fun h => { h with st := .on }).modHsc fun h => { h with parkLo := 0x1000 }).modPwr fun p => { p with phase := .entering, stage := 8, target := 2 }) : State).hs[n].st = .disabled ∨ ((((hs0 12 fun h => { h with st := .on }).modHsc fun h => { h with parkLo := 0x1000 }).modPwr fun p => { p with phase := .entering, stage := 8, target := 2 }) : State).hs[n].st = .off ∨ ((((hs0 12 fun h => { h with st := .on }).modHsc fun h => { h with parkLo := 0x1000 }).modPwr fun p => { p with phase := .entering, stage := 8, target := 2 }) : State).hs[n].st = .latched ∨ (((((hs0 12 fun h => { h with st := .on }).modHsc fun h => { h with parkLo := 0x1000 }).modPwr fun p => { p with phase := .entering, stage := 8, target := 2 }) : State).hs[n].st = .on ∧ ((((hs0 12 fun h => { h with st := .on }).modHsc fun h => { h with parkLo := 0x1000 }).modPwr fun p => { p with phase := .entering, stage := 8, target := 2 }) : State).hsc.parked n.val = true))) ∧
    (((((run0).modPwr fun p => { p with phase := .entering, stage := 9, target := 2 }) : State).pwr.phase = .entering) ∧ ((((run0).modPwr fun p => { p with phase := .entering, stage := 9, target := 2 }) : State).pwr.stage = 9) ∧ (∀ n : Fin 67, (((run0).modPwr fun p => { p with phase := .entering, stage := 9, target := 2 }) : State).dig[n].cap.st ≠ .running)) ∧
    (((((run0).modPwr fun p => { p with phase := .entering, stage := 10, target := 2 }) : State).pwr.phase = .entering) ∧ ((((run0).modPwr fun p => { p with phase := .entering, stage := 10, target := 2 }) : State).pwr.stage = 10) ∧ ((((run0).modPwr fun p => { p with phase := .entering, stage := 10, target := 2 }) : State).adm.queue = []) ∧ (∀ n : Fin 1024, (((run0).modPwr fun p => { p with phase := .entering, stage := 10, target := 2 }) : State).adm.extHeld[n] = false) ∧ (∀ k : Fin 16, (((run0).modPwr fun p => { p with phase := .entering, stage := 10, target := 2 }) : State).adm.slots[k].en = false)) := by
  refine ⟨?_, ?_, ?_, ?_, ?_⟩
  iterate 4 decide +kernel
  refine ⟨?_, ?_, ?_, fun n => Vector.getElem_replicate n.isLt, ?_⟩ <;> decide +kernel

/-- What meets the hypotheses of EntriesRunStageByStageOrEndByRefusal: one conjunct for each clause, in the order of its clauses. -/
theorem witness_EntriesRunStageByStageOrEndByRefusal_3 :
    (((((run0).modPwr fun p => { p with phase := .entering, stage := 11, target := 2 }) : State).pwr.phase = .entering) ∧ ((((run0).modPwr fun p => { p with phase := .entering, stage := 11, target := 2 }) : State).pwr.stage = 11) ∧ ((((run0).modPwr fun p => { p with phase := .entering, stage := 11, target := 2 }) : State).dep.updOp = none) ∧ ((((run0).modPwr fun p => { p with phase := .entering, stage := 11, target := 2 }) : State).dep.updStep ≠ 1) ∧ ((((run0).modPwr fun p => { p with phase := .entering, stage := 11, target := 2 }) : State).dep.updStep ≠ 2) ∧ ((((run0).modPwr fun p => { p with phase := .entering, stage := 11, target := 2 }) : State).nv.trial = false) ∧ ((((run0).modPwr fun p => { p with phase := .entering, stage := 11, target := 2 }) : State).depUp = true) ∧ ((((run0).modPwr fun p => { p with phase := .entering, stage := 11, target := 2 }) : State).dep.logBuf = []) ∧ ((((run0).modPwr fun p => { p with phase := .entering, stage := 11, target := 2 }) : State).pwr.askedAt ≤ (((run0).modPwr fun p => { p with phase := .entering, stage := 11, target := 2 }) : State).dep.snapAt)) ∧
    (((((run0).modPwr fun p => { p with phase := .entering, stage := 12, target := 2 }) : State).pwr.phase = .entering) ∧ ((((run0).modPwr fun p => { p with phase := .entering, stage := 12, target := 2 }) : State).pwr.stage = 12)) ∧
    (((((run0).modPwr fun p => { p with phase := .entering, stage := 11, target := 2, askedAt := 5 }) : State).pwr.phase = .entering) ∧ ((((run0).modPwr fun p => { p with phase := .entering, stage := 11, target := 2, askedAt := 5 }) : State).pwr.stage = 11) ∧ ((((run0).modPwr fun p => { p with phase := .entering, stage := 11, target := 2, askedAt := 5 }) : State).dep.updOp = none) ∧ ((((run0).modPwr fun p => { p with phase := .entering, stage := 11, target := 2, askedAt := 5 }) : State).dep.updStep ≠ 1) ∧ ((((run0).modPwr fun p => { p with phase := .entering, stage := 11, target := 2, askedAt := 5 }) : State).dep.updStep ≠ 2) ∧ ((((run0).modPwr fun p => { p with phase := .entering, stage := 11, target := 2, askedAt := 5 }) : State).nv.trial = false) ∧ ((((run0).modPwr fun p => { p with phase := .entering, stage := 11, target := 2, askedAt := 5 }) : State).depUp = true) ∧ ((((run0).modPwr fun p => { p with phase := .entering, stage := 11, target := 2, askedAt := 5 }) : State).dep.logBuf ≠ [] ∨ (((run0).modPwr fun p => { p with phase := .entering, stage := 11, target := 2, askedAt := 5 }) : State).dep.snapAt < (((run0).modPwr fun p => { p with phase := .entering, stage := 11, target := 2, askedAt := 5 }) : State).pwr.askedAt)) ∧
    ((((({ run0 with plk := { run0.plk with ctl := 1, txBusy := true } }).modPwr fun p => { p with phase := .entering, stage := 2, target := 2 }) : State).pwr.phase = .entering) ∧ (((({ run0 with plk := { run0.plk with ctl := 1, txBusy := true } }).modPwr fun p => { p with phase := .entering, stage := 2, target := 2 }) : State).pwr.stage = 2) ∧ (((({ run0 with plk := { run0.plk with ctl := 1, txBusy := true } }).modPwr fun p => { p with phase := .entering, stage := 2, target := 2 }) : State).isUp 4 = true) ∧ (((({ run0 with plk := { run0.plk with ctl := 1, txBusy := true } }).modPwr fun p => { p with phase := .entering, stage := 2, target := 2 }) : State).plkRefuses = true)) ∧
    (((((run0.modCan 1 fun x => { x with bus := .rx }).modPwr fun p => { p with phase := .entering, stage := 3, target := 2 }) : State).pwr.phase = .entering) ∧ ((((run0.modCan 1 fun x => { x with bus := .rx }).modPwr fun p => { p with phase := .entering, stage := 3, target := 2 }) : State).pwr.stage = 3) ∧ ((((run0.modCan 1 fun x => { x with bus := .rx }).modPwr fun p => { p with phase := .entering, stage := 3, target := 2 }) : State).isUp (5 + (1 : Fin 4).val) = true) ∧ ((canOf (((run0.modCan 1 fun x => { x with bus := .rx }).modPwr fun p => { p with phase := .entering, stage := 3, target := 2 }) : State) (1 : Fin 4)).refuses = true) ∧ (∀ d : Fin 4, d < (1 : Fin 4) → (canOf (((run0.modCan 1 fun x => { x with bus := .rx }).modPwr fun p => { p with phase := .entering, stage := 3, target := 2 }) : State) d).refuses = false)) := by
  refine ⟨?_, ?_, ?_, ?_, ?_⟩ <;> decide +kernel

/-- What meets the hypotheses of EntriesRunStageByStageOrEndByRefusal: one conjunct for each clause, in the order of its clauses. -/
theorem witness_EntriesRunStageByStageOrEndByRefusal_4 :
    (((((run0.modNm 2 fun x => { x with trx := .listen }).modPwr fun p => { p with phase := .entering, stage := 4, target := 2 }) : State).pwr.phase = .entering) ∧ ((((run0.modNm 2 fun x => { x with trx := .listen }).modPwr fun p => { p with phase := .entering, stage := 4, target := 2 }) : State).pwr.stage = 4) ∧ (((nmOf (((run0.modNm 2 fun x => { x with trx := .listen }).modPwr fun p => { p with phase := .entering, stage := 4, target := 2 }) : State) (2 : Fin 4)).en = true ∧ (nmOf (((run0.modNm 2 fun x => { x with trx := .listen }).modPwr fun p => { p with phase := .entering, stage := 4, target := 2 }) : State) (2 : Fin 4)).st ≠ .busSleep) ∨ ((nmOf (((run0.modNm 2 fun x => { x with trx := .listen }).modPwr fun p => { p with phase := .entering, stage := 4, target := 2 }) : State) (2 : Fin 4)).en = false ∧ ((nmOf (((run0.modNm 2 fun x => { x with trx := .listen }).modPwr fun p => { p with phase := .entering, stage := 4, target := 2 }) : State) (2 : Fin 4)).trx = .normal ∨ (nmOf (((run0.modNm 2 fun x => { x with trx := .listen }).modPwr fun p => { p with phase := .entering, stage := 4, target := 2 }) : State) (2 : Fin 4)).trx = .listen))) ∧ (∀ d : Fin 4, d < (2 : Fin 4) → ((nmOf (((run0.modNm 2 fun x => { x with trx := .listen }).modPwr fun p => { p with phase := .entering, stage := 4, target := 2 }) : State) d).en = true → (nmOf (((run0.modNm 2 fun x => { x with trx := .listen }).modPwr fun p => { p with phase := .entering, stage := 4, target := 2 }) : State) d).st = .busSleep) ∧ ((nmOf (((run0.modNm 2 fun x => { x with trx := .listen }).modPwr fun p => { p with phase := .entering, stage := 4, target := 2 }) : State) d).en = false → (nmOf (((run0.modNm 2 fun x => { x with trx := .listen }).modPwr fun p => { p with phase := .entering, stage := 4, target := 2 }) : State) d).trx ≠ .normal ∧ (nmOf (((run0.modNm 2 fun x => { x with trx := .listen }).modPwr fun p => { p with phase := .entering, stage := 4, target := 2 }) : State) d).trx ≠ .listen))) ∧
    (((((run0.modLc 3 fun x => { x with st := .frame }).modPwr fun p => { p with phase := .entering, stage := 5, target := 2, stopped := (Vector.replicate 14 false).set 2 true }) : State).pwr.phase = .entering) ∧ ((((run0.modLc 3 fun x => { x with st := .frame }).modPwr fun p => { p with phase := .entering, stage := 5, target := 2, stopped := (Vector.replicate 14 false).set 2 true }) : State).pwr.stage = 5) ∧ (((((run0.modLc 3 fun x => { x with st := .frame }).modPwr fun p => { p with phase := .entering, stage := 5, target := 2, stopped := (Vector.replicate 14 false).set 2 true }) : State).lc[(3 : Fin 8)].st ≠ .disabled ∧ (((run0.modLc 3 fun x => { x with st := .frame }).modPwr fun p => { p with phase := .entering, stage := 5, target := 2, stopped := (Vector.replicate 14 false).set 2 true }) : State).lc[(3 : Fin 8)].st ≠ .idle) ∨ (((run0.modLc 3 fun x => { x with st := .frame }).modPwr fun p => { p with phase := .entering, stage := 5, target := 2, stopped := (Vector.replicate 14 false).set 2 true }) : State).lc[(3 : Fin 8)].out ≠ []) ∧ (∀ j : Fin 8, j < (3 : Fin 8) → ((((run0.modLc 3 fun x => { x with st := .frame }).modPwr fun p => { p with phase := .entering, stage := 5, target := 2, stopped := (Vector.replicate 14 false).set 2 true }) : State).lc[j].st = .disabled ∨ (((run0.modLc 3 fun x => { x with st := .frame }).modPwr fun p => { p with phase := .entering, stage := 5, target := 2, stopped := (Vector.replicate 14 false).set 2 true }) : State).lc[j].st = .idle) ∧ (((run0.modLc 3 fun x => { x with st := .frame }).modPwr fun p => { p with phase := .entering, stage := 5, target := 2, stopped := (Vector.replicate 14 false).set 2 true }) : State).lc[j].out = [])) := by
  refine ⟨?_, ?_⟩ <;> decide +kernel

/-- What meets the hypotheses of EntriesRunStageByStageOrEndByRefusal: one conjunct for each clause, in the order of its clauses. -/
theorem witness_EntriesRunStageByStageOrEndByRefusal_5 :
    (((((run0.modLs 2 fun x => { x with st := .pending }).modPwr fun p => { p with phase := .entering, stage := 6, target := 2 }) : State).pwr.phase = .entering) ∧ ((((run0.modLs 2 fun x => { x with st := .pending }).modPwr fun p => { p with phase := .entering, stage := 6, target := 2 }) : State).pwr.stage = 6) ∧ ((((run0.modLs 2 fun x => { x with st := .pending }).modPwr fun p => { p with phase := .entering, stage := 6, target := 2 }) : State).ls[(2 : Fin 3)].st ≠ .disabled ∧ (((run0.modLs 2 fun x => { x with st := .pending }).modPwr fun p => { p with phase := .entering, stage := 6, target := 2 }) : State).ls[(2 : Fin 3)].st ≠ .off ∧ (((run0.modLs 2 fun x => { x with st := .pending }).modPwr fun p => { p with phase := .entering, stage := 6, target := 2 }) : State).ls[(2 : Fin 3)].st ≠ .latched) ∧ (∀ j : Fin 3, j < (2 : Fin 3) → (((run0.modLs 2 fun x => { x with st := .pending }).modPwr fun p => { p with phase := .entering, stage := 6, target := 2 }) : State).ls[j].st = .disabled ∨ (((run0.modLs 2 fun x => { x with st := .pending }).modPwr fun p => { p with phase := .entering, stage := 6, target := 2 }) : State).ls[j].st = .off ∨ (((run0.modLs 2 fun x => { x with st := .pending }).modPwr fun p => { p with phase := .entering, stage := 6, target := 2 }) : State).ls[j].st = .latched)) ∧
    (((((run0.modVd 9 fun x => { x with st := .pending }).modPwr fun p => { p with phase := .entering, stage := 7, target := 2 }) : State).pwr.phase = .entering) ∧ ((((run0.modVd 9 fun x => { x with st := .pending }).modPwr fun p => { p with phase := .entering, stage := 7, target := 2 }) : State).pwr.stage = 7) ∧ ((((run0.modVd 9 fun x => { x with st := .pending }).modPwr fun p => { p with phase := .entering, stage := 7, target := 2 }) : State).vd[(9 : Fin 16)].st ≠ .disabled ∧ (((run0.modVd 9 fun x => { x with st := .pending }).modPwr fun p => { p with phase := .entering, stage := 7, target := 2 }) : State).vd[(9 : Fin 16)].st ≠ .idle ∧ (((run0.modVd 9 fun x => { x with st := .pending }).modPwr fun p => { p with phase := .entering, stage := 7, target := 2 }) : State).vd[(9 : Fin 16)].st ≠ .latched) ∧ (∀ j : Fin 16, j < (9 : Fin 16) → (((run0.modVd 9 fun x => { x with st := .pending }).modPwr fun p => { p with phase := .entering, stage := 7, target := 2 }) : State).vd[j].st = .disabled ∨ (((run0.modVd 9 fun x => { x with st := .pending }).modPwr fun p => { p with phase := .entering, stage := 7, target := 2 }) : State).vd[j].st = .idle ∨ (((run0.modVd 9 fun x => { x with st := .pending }).modPwr fun p => { p with phase := .entering, stage := 7, target := 2 }) : State).vd[j].st = .latched)) ∧
    (((((hs0 40 fun x => { x with st := .on }).modPwr fun p => { p with phase := .entering, stage := 8, target := 2 }) : State).pwr.phase = .entering) ∧ ((((hs0 40 fun x => { x with st := .on }).modPwr fun p => { p with phase := .entering, stage := 8, target := 2 }) : State).pwr.stage = 8) ∧ ((((hs0 40 fun x => { x with st := .on }).modPwr fun p => { p with phase := .entering, stage := 8, target := 2 }) : State).hsc.parked (40 : Fin 48).val = false) ∧ ((((hs0 40 fun x => { x with st := .on }).modPwr fun p => { p with phase := .entering, stage := 8, target := 2 }) : State).hs[(40 : Fin 48)].st ≠ .disabled ∧ (((hs0 40 fun x => { x with st := .on }).modPwr fun p => { p with phase := .entering, stage := 8, target := 2 }) : State).hs[(40 : Fin 48)].st ≠ .off ∧ (((hs0 40 fun x => { x with st := .on }).modPwr fun p => { p with phase := .entering, stage := 8, target := 2 }) : State).hs[(40 : Fin 48)].st ≠ .latched) ∧ (∀ j : Fin 48, j < (40 : Fin 48) → (((hs0 40 fun x => { x with st := .on }).modPwr fun p => { p with phase := .entering, stage := 8, target := 2 }) : State).hs[j].st = .disabled ∨ (((hs0 40 fun x => { x with st := .on }).modPwr fun p => { p with phase := .entering, stage := 8, target := 2 }) : State).hs[j].st = .off ∨ (((hs0 40 fun x => { x with st := .on }).modPwr fun p => { p with phase := .entering, stage := 8, target := 2 }) : State).hs[j].st = .latched)) := by
  refine ⟨?_, ?_, ?_⟩ <;> decide +kernel

/-- What meets the hypotheses of EntriesRunStageByStageOrEndByRefusal: one conjunct for each clause, in the order of its clauses. -/
theorem witness_EntriesRunStageByStageOrEndByRefusal_6 :
    ((((((hs0 12 fun h => { h with st := .on }).modHsc fun h => { h with parkLo := 0x1000 }).modPwr fun p => { p with phase := .entering, stage := 8, target := 3 }) : State).pwr.phase = .entering) ∧ (((((hs0 12 fun h => { h with st := .on }).modHsc fun h => { h with parkLo := 0x1000 }).modPwr fun p => { p with phase := .entering, stage := 8, target := 3 }) : State).pwr.stage = 8) ∧ (((((hs0 12 fun h => { h with st := .on }).modHsc fun h => { h with parkLo := 0x1000 }).modPwr fun p => { p with phase := .entering, stage := 8, target := 3 }) : State).pwr.target = 3) ∧ (((((hs0 12 fun h => { h with st := .on }).modHsc fun h => { h with parkLo := 0x1000 }).modPwr fun p => { p with phase := .entering, stage := 8, target := 3 }) : State).hsc.parked (12 : Fin 48).val = true) ∧ (((((hs0 12 fun h => { h with st := .on }).modHsc fun h => { h with parkLo := 0x1000 }).modPwr fun p => { p with phase := .entering, stage := 8, target := 3 }) : State).hs[(12 : Fin 48)].st = .on) ∧ (∀ j : Fin 48, j < (12 : Fin 48) → ((((hs0 12 fun h => { h with st := .on }).modHsc fun h => { h with parkLo := 0x1000 }).modPwr fun p => { p with phase := .entering, stage := 8, target := 3 }) : State).hs[j].st = .disabled ∨ ((((hs0 12 fun h => { h with st := .on }).modHsc fun h => { h with parkLo := 0x1000 }).modPwr fun p => { p with phase := .entering, stage := 8, target := 3 }) : State).hs[j].st = .off ∨ ((((hs0 12 fun h => { h with st := .on }).modHsc fun h => { h with parkLo := 0x1000 }).modPwr fun p => { p with phase := .entering, stage := 8, target := 3 }) : State).hs[j].st = .latched)) ∧
    (((((run0.modDig 60 fun d => { d with cap := { d.cap with st := .running } }).modPwr fun p => { p with phase := .entering, stage := 9, target := 2 }) : State).pwr.phase = .entering) ∧ ((((run0.modDig 60 fun d => { d with cap := { d.cap with st := .running } }).modPwr fun p => { p with phase := .entering, stage := 9, target := 2 }) : State).pwr.stage = 9) ∧ ((((run0.modDig 60 fun d => { d with cap := { d.cap with st := .running } }).modPwr fun p => { p with phase := .entering, stage := 9, target := 2 }) : State).dig[(60 : Fin 67)].cap.st = .running)) ∧
    (((((run0.modAdm fun a => { a with slots := upd a.slots 3 fun x => { x with cfg := 0x80 } }).modPwr fun p => { p with phase := .entering, stage := 10, target := 2 }) : State).pwr.phase = .entering) ∧ ((((run0.modAdm fun a => { a with slots := upd a.slots 3 fun x => { x with cfg := 0x80 } }).modPwr fun p => { p with phase := .entering, stage := 10, target := 2 }) : State).pwr.stage = 10) ∧ ((((run0.modAdm fun a => { a with slots := upd a.slots 3 fun x => { x with cfg := 0x80 } }).modPwr fun p => { p with phase := .entering, stage := 10, target := 2 }) : State).adm.slots[(3 : Fin 16)].en = true)) ∧
    (((((run0.modAdm fun a => { a with extHeld := upd a.extHeld 5 fun _ => true }).modPwr fun p => { p with phase := .entering, stage := 10, target := 2 }) : State).pwr.phase = .entering) ∧ ((((run0.modAdm fun a => { a with extHeld := upd a.extHeld 5 fun _ => true }).modPwr fun p => { p with phase := .entering, stage := 10, target := 2 }) : State).pwr.stage = 10) ∧ ((((run0.modAdm fun a => { a with extHeld := upd a.extHeld 5 fun _ => true }).modPwr fun p => { p with phase := .entering, stage := 10, target := 2 }) : State).adm.extHeld[(5 : Fin 1024)] = true)) ∧
    (((((run0.modDep fun d => { d with updStep := 2 }).modPwr fun p => { p with phase := .entering, stage := 11, target := 2 }) : State).pwr.phase = .entering) ∧ ((((run0.modDep fun d => { d with updStep := 2 }).modPwr fun p => { p with phase := .entering, stage := 11, target := 2 }) : State).pwr.stage = 11) ∧ ((((run0.modDep fun d => { d with updStep := 2 }).modPwr fun p => { p with phase := .entering, stage := 11, target := 2 }) : State).dep.updOp ≠ none ∨ (((run0.modDep fun d => { d with updStep := 2 }).modPwr fun p => { p with phase := .entering, stage := 11, target := 2 }) : State).dep.updStep = 1 ∨ (((run0.modDep fun d => { d with updStep := 2 }).modPwr fun p => { p with phase := .entering, stage := 11, target := 2 }) : State).dep.updStep = 2 ∨ (((run0.modDep fun d => { d with updStep := 2 }).modPwr fun p => { p with phase := .entering, stage := 11, target := 2 }) : State).nv.trial = true)) := by
  refine ⟨?_, ?_, ?_, ?_, ?_⟩ <;> decide +kernel

/-- What meets the hypotheses of EntriesRunStageByStageOrEndByRefusal: one conjunct for each clause, in the order of its clauses. -/
theorem witness_EntriesRunStageByStageOrEndByRefusal_7 :
    (((((run0).modPwr fun p => { p with phase := .entering, stage := 1, target := 2 }) : State).pwr.phase = .entering) ∧ ((((run0).modPwr fun p => { p with phase := .entering, stage := 1, target := 2 }) : State).pwr.stage = 1) ∧ ((((run0).modPwr fun p => { p with phase := .entering, stage := 1, target := 2 }) : State).core[(0 : Fin 4)].started = true) ∧ ((((run0).modPwr fun p => { p with phase := .entering, stage := 1, target := 2 }) : State).core[(0 : Fin 4)].waiting = false) ∧ (∀ d : Fin 4, d < (0 : Fin 4) → (((run0).modPwr fun p => { p with phase := .entering, stage := 1, target := 2 }) : State).core[d].started = true → (((run0).modPwr fun p => { p with phase := .entering, stage := 1, target := 2 }) : State).core[d].waiting = true) ∧ ((((run0).modPwr fun p => { p with phase := .entering, stage := 1, target := 2 }) : State).tmbRuns = true)) ∧
    ((((({ run0 with core := upd run0.core 0 fun k => { k with started := true, waiting := true } }).modPwr fun p => { p with phase := .entering, stage := 1, target := 2 }) : State).pwr.phase = .entering) ∧ (((({ run0 with core := upd run0.core 0 fun k => { k with started := true, waiting := true } }).modPwr fun p => { p with phase := .entering, stage := 1, target := 2 }) : State).pwr.stage = 1) ∧ (∀ c : Fin 4, ((({ run0 with core := upd run0.core 0 fun k => { k with started := true, waiting := true } }).modPwr fun p => { p with phase := .entering, stage := 1, target := 2 }) : State).core[c].started = true → ((({ run0 with core := upd run0.core 0 fun k => { k with started := true, waiting := true } }).modPwr fun p => { p with phase := .entering, stage := 1, target := 2 }) : State).core[c].waiting = true)) ∧
    (((((run0).modPwr fun p => { p with phase := .entering, stage := 11, target := 2, stopped := (Vector.replicate 14 false).set 2 true }) : State).pwr.phase = .entering) ∧ ((((run0).modPwr fun p => { p with phase := .entering, stage := 11, target := 2, stopped := (Vector.replicate 14 false).set 2 true }) : State).pwr.stage = (11 : Fin 16).val) ∧ (2 ≤ (11 : Fin 16).val) ∧ ((11 : Fin 16).val ≤ 12) ∧ ((((run0).modPwr fun p => { p with phase := .entering, stage := 11, target := 2, stopped := (Vector.replicate 14 false).set 2 true }) : State).tmbRuns = true)) ∧
    (((((run0).modPwr fun p => { p with phase := .entering, stage := 5, target := 2 }) : State).isUp 1 = true) ∧ ((((run0).modPwr fun p => { p with phase := .entering, stage := 5, target := 2 }) : State).pwr.phase = .entering) ∧ ((1 : Fin 4).val ≠ 2)) ∧
    (((1 : Fin 15).val ≠ 12) ∧ (bit (((run0).modPwr fun p => { p with phase := .entering, stage := 11, target := 2 }) : State).pwr.wakeEn (1 : Fin 15).val = true) ∧ ((((run0).modPwr fun p => { p with phase := .entering, stage := 11, target := 2 }) : State).pwr.phase = .entering) ∧ (((((run0).modPwr fun p => { p with phase := .entering, stage := 11, target := 2 }) : State).pwr.target = 1 ∧ (1 : Fin 15).val ≠ 10) ∨ ((((run0).modPwr fun p => { p with phase := .entering, stage := 11, target := 2 }) : State).pwr.target = 2 ∧ (1 : Fin 15).val < 12) ∨ ((((run0).modPwr fun p => { p with phase := .entering, stage := 11, target := 2 }) : State).pwr.target = 3 ∧ (1 : Fin 15).val = 0))) ∧
    (((14 : Fin 15).val ≠ 12) ∧ (bit (((run0).modPwr fun p => { p with phase := .sleep }) : State).pwr.wakeEn (14 : Fin 15).val = true) ∧ ((((run0).modPwr fun p => { p with phase := .sleep }) : State).pwr.phase = .sleep) ∧ ((14 : Fin 15).val ≠ 10)) ∧
    (((10 : Fin 15).val < 12) ∧ (bit (((run0).modPwr fun p => { p with phase := .deep }) : State).pwr.wakeEn (10 : Fin 15).val = true) ∧ ((((run0).modPwr fun p => { p with phase := .deep }) : State).pwr.phase = .deep)) ∧
    (((11 : Fin 15).val ≠ 12) ∧ (bit (((run0).modPwr fun p => { p with phase := .returning, leaving := 2 }) : State).pwr.wakeEn (11 : Fin 15).val = true) ∧ ((((run0).modPwr fun p => { p with phase := .returning, leaving := 2 }) : State).pwr.phase = .returning) ∧ (((((run0).modPwr fun p => { p with phase := .returning, leaving := 2 }) : State).pwr.leaving = 1 ∧ (11 : Fin 15).val ≠ 10) ∨ ((((run0).modPwr fun p => { p with phase := .returning, leaving := 2 }) : State).pwr.leaving = 2 ∧ (11 : Fin 15).val < 12))) ∧
    (((((run0).modPwr fun p => { p with wakeEn := 0, phase := .sleep }) : State).pwr.phase = .run ∨ bit (((run0).modPwr fun p => { p with wakeEn := 0, phase := .sleep }) : State).pwr.wakeEn (3 : Fin 15).val = false)) := by
  refine ⟨?_, ?_, ?_, ?_, ?_, ?_, ?_, ?_, ?_⟩ <;> decide +kernel

/-- What meets the hypotheses of EntriesRunStageByStageOrEndByRefusal: one conjunct for each clause, in the order of its clauses. -/
theorem witness_EntriesRunStageByStageOrEndByRefusal_8 :
    ((((((run0.emit 30 3 2).pull 30).modPwr fun p => { p with phase := .sleep, wakeEn := 0x1000, wflt := upd p.wflt 2 fun _ => { a := 0x0380, b := 0x80FF } }) : State).fab.hub = ({ ev := { time := 0, src := 30, code := 3, arg := 2 }, cores := [0, 1, 2, 3], dep := true } : HubRec) :: ([] : List HubRec)) ∧ (({ ev := { time := 0, src := 30, code := 3, arg := 2 }, cores := [0, 1, 2, 3], dep := true } : HubRec).cores ≠ []) ∧ ((((((run0.emit 30 3 2).pull 30).modPwr fun p => { p with phase := .sleep, wakeEn := 0x1000, wflt := upd p.wflt 2 fun _ => { a := 0x0380, b := 0x80FF } }) : State).pwr.wflt[(2 : Fin 8)]).takes ({ ev := { time := 0, src := 30, code := 3, arg := 2 }, cores := [0, 1, 2, 3], dep := true } : HubRec).ev = true) ∧ (bit ((((run0.emit 30 3 2).pull 30).modPwr fun p => { p with phase := .sleep, wakeEn := 0x1000, wflt := upd p.wflt 2 fun _ => { a := 0x0380, b := 0x80FF } }) : State).pwr.wakeEn 12 = true) ∧ (((((run0.emit 30 3 2).pull 30).modPwr fun p => { p with phase := .sleep, wakeEn := 0x1000, wflt := upd p.wflt 2 fun _ => { a := 0x0380, b := 0x80FF } }) : State).pwr.phase = .sleep)) ∧
    (((((run0).modPwr fun p => { p with phase := .deep }) : State).pwr.phase = .deep) ∧ (bit (((run0).modPwr fun p => { p with phase := .deep }) : State).pwr.wakeEn 0 = true) ∧ (max 1 (fld (((run0).modPwr fun p => { p with phase := .deep }) : State).pwr.wakeCfg 0 8) ≤ (1 : Nat))) ∧
    (((((run0).modPwr fun p => { p with phase := .deep }) : State).pwr.phase ≠ .off) ∧ ((0 : Nat) < max 1 (fld (((run0).modPwr fun p => { p with phase := .deep }) : State).pwr.wakeCfg 0 8))) ∧
    (((run0 : State).pwr.phase ≠ .entering ∨ (run0 : State).pwr.stage < 2 ∨ 12 < (run0 : State).pwr.stage)) := by
  refine ⟨?_, ?_, ?_, ?_⟩ <;> decide +kernel

/-- What meets the hypotheses of EntriesCompleteAndReturnsRunTheirSteps: one conjunct for each clause, in the order of its clauses. -/
theorem witness_EntriesCompleteAndReturnsRunTheirSteps_1 :
    (((((run0).modPwr fun p => { p with phase := .entering, stage := 13, target := 1 }) : State).pwr.phase = .entering) ∧ ((((run0).modPwr fun p => { p with phase := .entering, stage := 13, target := 1 }) : State).pwr.stage = 13) ∧ ((((run0).modPwr fun p => { p with phase := .entering, stage := 13, target := 1 }) : State).pwr.target = 1) ∧ ((((run0).modPwr fun p => { p with phase := .entering, stage := 13, target := 1 }) : State).pwr.wakeCause = 0)) ∧
    (((((run0).modPwr fun p => { p with phase := .entering, stage := 13, target := 1, wakeCause := 2 }) : State).pwr.phase = .entering) ∧ ((((run0).modPwr fun p => { p with phase := .entering, stage := 13, target := 1, wakeCause := 2 }) : State).pwr.stage = 13) ∧ ((((run0).modPwr fun p => { p with phase := .entering, stage := 13, target := 1, wakeCause := 2 }) : State).pwr.target = 1) ∧ ((((run0).modPwr fun p => { p with phase := .entering, stage := 13, target := 1, wakeCause := 2 }) : State).pwr.wakeCause ≠ 0)) ∧
    (((((((run0).modHsc fun h => { h with parkLo := 0x1000 }).modHs 12 fun h => { h with st := .on }).modPwr fun p => { p with phase := .entering, stage := 13, target := 2, ret := 1, hold := 0x10 }) : State).pwr.phase = .entering) ∧ ((((((run0).modHsc fun h => { h with parkLo := 0x1000 }).modHs 12 fun h => { h with st := .on }).modPwr fun p => { p with phase := .entering, stage := 13, target := 2, ret := 1, hold := 0x10 }) : State).pwr.stage = 13) ∧ ((((((run0).modHsc fun h => { h with parkLo := 0x1000 }).modHs 12 fun h => { h with st := .on }).modPwr fun p => { p with phase := .entering, stage := 13, target := 2, ret := 1, hold := 0x10 }) : State).pwr.target = 2) ∧ ((((((run0).modHsc fun h => { h with parkLo := 0x1000 }).modHs 12 fun h => { h with st := .on }).modPwr fun p => { p with phase := .entering, stage := 13, target := 2, ret := 1, hold := 0x10 }) : State).pwr.wakeCause = 0) ∧ ((((((run0).modHsc fun h => { h with parkLo := 0x1000 }).modHs 12 fun h => { h with st := .on }).modPwr fun p => { p with phase := .entering, stage := 13, target := 2, ret := 1, hold := 0x10 }) : State).canonical)) ∧
    (((((((run0).modHsc fun h => { h with parkLo := 0x1000 }).modHs 12 fun h => { h with st := .on }).modPwr fun p => { p with phase := .entering, stage := 13, target := 2, wakeCause := 2, hold := 0x10 }) : State).pwr.phase = .entering) ∧ ((((((run0).modHsc fun h => { h with parkLo := 0x1000 }).modHs 12 fun h => { h with st := .on }).modPwr fun p => { p with phase := .entering, stage := 13, target := 2, wakeCause := 2, hold := 0x10 }) : State).pwr.stage = 13) ∧ ((((((run0).modHsc fun h => { h with parkLo := 0x1000 }).modHs 12 fun h => { h with st := .on }).modPwr fun p => { p with phase := .entering, stage := 13, target := 2, wakeCause := 2, hold := 0x10 }) : State).pwr.target = 2) ∧ ((((((run0).modHsc fun h => { h with parkLo := 0x1000 }).modHs 12 fun h => { h with st := .on }).modPwr fun p => { p with phase := .entering, stage := 13, target := 2, wakeCause := 2, hold := 0x10 }) : State).pwr.wakeCause ≠ 0) ∧ ((((((run0).modHsc fun h => { h with parkLo := 0x1000 }).modHs 12 fun h => { h with st := .on }).modPwr fun p => { p with phase := .entering, stage := 13, target := 2, wakeCause := 2, hold := 0x10 }) : State).canonical)) ∧
    (((((run0).modPwr fun p => { p with phase := .entering, stage := 13, target := 3 }) : State).pwr.phase = .entering) ∧ ((((run0).modPwr fun p => { p with phase := .entering, stage := 13, target := 3 }) : State).pwr.stage = 13) ∧ ((((run0).modPwr fun p => { p with phase := .entering, stage := 13, target := 3 }) : State).pwr.target = 3) ∧ ((((run0).modPwr fun p => { p with phase := .entering, stage := 13, target := 3 }) : State).pwr.wakeCause = 0)) ∧
    ((((((run0.modNm 1 fun n => { n with ctl := 8 }).modNm 2 fun n => { n with ctl := 8 }).modPwr fun p => { p with phase := .returning, leaving := 2, tries := 1, wokenBy := 0x20 }) : State).pwr.phase = .returning ∨ ((((run0.modNm 1 fun n => { n with ctl := 8 }).modNm 2 fun n => { n with ctl := 8 }).modPwr fun p => { p with phase := .returning, leaving := 2, tries := 1, wokenBy := 0x20 }) : State).pwr.phase = .starting) ∧ (((((run0.modNm 1 fun n => { n with ctl := 8 }).modNm 2 fun n => { n with ctl := 8 }).modPwr fun p => { p with phase := .returning, leaving := 2, tries := 1, wokenBy := 0x20 }) : State).pwr.step = 0)) := by
  refine ⟨?_, ?_, ?_, ?_, ?_, ?_⟩ <;> decide +kernel

/-- What meets the hypotheses of EntriesCompleteAndReturnsRunTheirSteps: one conjunct for each clause, in the order of its clauses. -/
theorem witness_EntriesCompleteAndReturnsRunTheirSteps_2 :
    (((((run0).modPwr fun p => { p with phase := .returning, leaving := 2, step := 1, tries := 1 }) : State).pwr.phase = .returning ∨ (((run0).modPwr fun p => { p with phase := .returning, leaving := 2, step := 1, tries := 1 }) : State).pwr.phase = .starting) ∧ ((((run0).modPwr fun p => { p with phase := .returning, leaving := 2, step := 1, tries := 1 }) : State).pwr.step = 1)) ∧
    (((((run0).modPwr fun p => { p with phase := .starting, step := 2 }) : State).pwr.phase = .returning ∨ (((run0).modPwr fun p => { p with phase := .starting, step := 2 }) : State).pwr.phase = .starting) ∧ ((((run0).modPwr fun p => { p with phase := .starting, step := 2 }) : State).pwr.step = 2)) ∧
    (((((run0).modPwr fun p => { p with phase := .returning, leaving := 1, step := 3, wakeCause := 4 }) : State).pwr.phase = .returning) ∧ ((((run0).modPwr fun p => { p with phase := .returning, leaving := 1, step := 3, wakeCause := 4 }) : State).pwr.step = 3) ∧ ((((run0).modPwr fun p => { p with phase := .returning, leaving := 1, step := 3, wakeCause := 4 }) : State).pwr.leaving = 1) ∧ ((((run0).modPwr fun p => { p with phase := .returning, leaving := 1, step := 3, wakeCause := 4 }) : State).sup.rstnLow = false) ∧ ((((run0).modPwr fun p => { p with phase := .returning, leaving := 1, step := 3, wakeCause := 4 }) : State).pwr.usedOsc = false) ∧ ((((run0).modPwr fun p => { p with phase := .returning, leaving := 1, step := 3, wakeCause := 4 }) : State).pwr.usedReg = false) ∧ ((((run0).modPwr fun p => { p with phase := .returning, leaving := 1, step := 3, wakeCause := 4 }) : State).pwr.wakeCause < 2 ^ 15)) ∧
    ((((({ run0 with up := Vector.ofFn fun i => decide (i.val = 0 ∨ i.val = 36), inp := { run0.inp with pad := true, lmap := Vector.replicate 67 1 } }).modPwr fun p => { p with phase := .returning, leaving := 2, step := 3 }) : State).pwr.phase = .returning) ∧ (((({ run0 with up := Vector.ofFn fun i => decide (i.val = 0 ∨ i.val = 36), inp := { run0.inp with pad := true, lmap := Vector.replicate 67 1 } }).modPwr fun p => { p with phase := .returning, leaving := 2, step := 3 }) : State).pwr.step = 3) ∧ (((({ run0 with up := Vector.ofFn fun i => decide (i.val = 0 ∨ i.val = 36), inp := { run0.inp with pad := true, lmap := Vector.replicate 67 1 } }).modPwr fun p => { p with phase := .returning, leaving := 2, step := 3 }) : State).pwr.leaving = 2) ∧ (((({ run0 with up := Vector.ofFn fun i => decide (i.val = 0 ∨ i.val = 36), inp := { run0.inp with pad := true, lmap := Vector.replicate 67 1 } }).modPwr fun p => { p with phase := .returning, leaving := 2, step := 3 }) : State).sup.rstnLow = false)) ∧
    (((((run0.modDep fun d => { d with mgmtUp := false }).modPwr fun p => { p with phase := .returning, leaving := 2, step := 4 }) : State).pwr.phase = .returning ∨ (((run0.modDep fun d => { d with mgmtUp := false }).modPwr fun p => { p with phase := .returning, leaving := 2, step := 4 }) : State).pwr.phase = .starting) ∧ ((((run0.modDep fun d => { d with mgmtUp := false }).modPwr fun p => { p with phase := .returning, leaving := 2, step := 4 }) : State).pwr.step = 4) ∧ ((((run0.modDep fun d => { d with mgmtUp := false }).modPwr fun p => { p with phase := .returning, leaving := 2, step := 4 }) : State).isUp 3 = true)) ∧
    (((((run0).modPwr fun p => { p with phase := .returning, leaving := 2, step := 1, tries := 2 }) : State).pwr.phase = .returning ∨ (((run0).modPwr fun p => { p with phase := .returning, leaving := 2, step := 1, tries := 2 }) : State).pwr.phase = .starting) ∧ ((((run0).modPwr fun p => { p with phase := .returning, leaving := 2, step := 1, tries := 2 }) : State).pwr.step < 4) ∧ ((((run0).modPwr fun p => { p with phase := .returning, leaving := 2, step := 1, tries := 2 }) : State).pwr.tries < 3) ∧ ((((run0).modPwr fun p => { p with phase := .returning, leaving := 2, step := 1, tries := 2 }) : State).tmbRuns = true)) := by
  refine ⟨?_, ?_, ?_, ?_, ?_, ?_⟩ <;> decide +kernel

/-- What meets the hypotheses of EntriesCompleteAndReturnsRunTheirSteps: one conjunct for each clause, in the order of its clauses. -/
theorem witness_EntriesCompleteAndReturnsRunTheirSteps_3 :
    (((((run0).modPwr fun p => { p with phase := .returning, leaving := 2, step := 2, tries := 3 }) : State).pwr.phase = .returning ∨ (((run0).modPwr fun p => { p with phase := .returning, leaving := 2, step := 2, tries := 3 }) : State).pwr.phase = .starting) ∧ ((((run0).modPwr fun p => { p with phase := .returning, leaving := 2, step := 2, tries := 3 }) : State).pwr.step < 4) ∧ (3 ≤ (((run0).modPwr fun p => { p with phase := .returning, leaving := 2, step := 2, tries := 3 }) : State).pwr.tries) ∧ ((((run0).modPwr fun p => { p with phase := .returning, leaving := 2, step := 2, tries := 3 }) : State).tmbRuns = true) ∧ ((((run0).modPwr fun p => { p with phase := .returning, leaving := 2, step := 2, tries := 3 }) : State).pwr.leaving < 4)) ∧
    (((((run0).modPwr fun p => { p with bulkRdy := false }) : State).isUp 2 = true)) ∧
    (((((run0).modPwr fun p => { p with holdStat := 0x31 }) : State).coreRuns = true) ∧ ((((run0).modPwr fun p => { p with holdStat := 0x31 }) : State).isUp 0 = true)) ∧
    (((run0 : State).pwr.phase ≠ .returning ∧ (run0 : State).pwr.phase ≠ .starting ∨ 5 ≤ (run0 : State).pwr.step)) ∧
    (((run0 : State).pwr.phase ≠ .returning ∧ (run0 : State).pwr.phase ≠ .starting ∨ 4 ≤ (run0 : State).pwr.step)) ∧
    ((({ run0 with up := Vector.replicate 72 false } : State).isUp 2 = false)) := by
  refine ⟨?_, ?_, ?_, ?_, ?_, ?_⟩ <;> decide +kernel

/-- What meets the hypotheses of SuppliesResetsAndTheBootRomBringUpTheModule: one conjunct for each clause, in the order of its clauses. -/
theorem witness_SuppliesResetsAndTheBootRomBringUpTheModule_1 :
    (((((((run0).modSup fun u => { u with vbkOk := true })).modPwr fun p => { p with phase := .deep }) : State).sup.mainsOk = true) ∧ ((((((run0).modSup fun u => { u with vbkOk := true })).modPwr fun p => { p with phase := .deep }) : State).sup.vbkOk = true) ∧ ((((((run0).modSup fun u => { u with vbkOk := true })).modPwr fun p => { p with phase := .deep }) : State).sup.srcVbk = false) ∧ ((((((run0).modSup fun u => { u with vbkOk := true })).modPwr fun p => { p with phase := .deep }) : State).isUp 0 = true)) ∧
    (((run0 : State).sup.mainsOk = true) ∧ ((run0 : State).sup.vbkOk = false) ∧ ((run0 : State).isUp 0 = true)) ∧
    (((((run0).modSup fun u => { u with mainsOk := false, srcVbk := true, vbkOk := true }) : State).sup.mainsOk = false) ∧ ((((run0).modSup fun u => { u with mainsOk := false, srcVbk := true, vbkOk := true }) : State).sup.srcVbk = true) ∧ ((((run0).modSup fun u => { u with mainsOk := false, srcVbk := true, vbkOk := true }) : State).isUp 0 = true)) ∧
    (((run0 : State).sup.mainsOk = (true : Bool))) ∧
    (((650 : Nat) ≤ 650) ∧ ((run0 : State).isUp 0 = true)) ∧
    ((650 < (651 : Nat))) ∧
    (((((((run0).modSup fun u => { u with srcVbk := true, mainsAt := some 7 })).modPwr fun p => { p with phase := .deep }) : State).sup.mainsAt = some (7 : Nat)) ∧ ((((((run0).modSup fun u => { u with srcVbk := true, mainsAt := some 7 })).modPwr fun p => { p with phase := .deep }) : State).sup.mainsOk = true) ∧ ((((((run0).modSup fun u => { u with srcVbk := true, mainsAt := some 7 })).modPwr fun p => { p with phase := .deep }) : State).sup.srcVbk = true) ∧ ((((((run0).modSup fun u => { u with srcVbk := true, mainsAt := some 7 })).modPwr fun p => { p with phase := .deep }) : State).isUp 0 = true) ∧ ((((((run0).modSup fun u => { u with srcVbk := true, mainsAt := some 7 })).modPwr fun p => { p with phase := .deep }) : State).tmbRuns = true)) ∧
    (((run0 : State).sup.mainsAt = none ∨ (run0 : State).sup.mainsOk = false ∨ (run0 : State).sup.srcVbk = false)) ∧
    (((((((run0).modSup fun u => { u with mainsOk := false })).modPwr fun p => { p with keepOff := 2 }) : State).sup.mainsOk = false) ∧ ((((((run0).modSup fun u => { u with mainsOk := false })).modPwr fun p => { p with keepOff := 2 }) : State).sup.vbkOk = false)) ∧
    (((run0 : State).sup.mainsOk = true ∨ (run0 : State).sup.vbkOk = true)) ∧
    (((((run0).modPwr fun p => { p with phase := .dead }) : State).pwr.phase = .dead) ∧ ((((run0).modPwr fun p => { p with phase := .dead }) : State).sup.mainsOk = true ∨ (((run0).modPwr fun p => { p with phase := .dead }) : State).sup.vbkOk = true)) ∧
    (((run0 : State).pwr.phase ≠ .dead)) := by
  refine ⟨?_, ?_, ?_, ?_, ?_, ?_, ?_, ?_, ?_, ?_, ?_, ?_⟩ <;> decide +kernel

/-- What meets the hypotheses of SuppliesResetsAndTheBootRomBringUpTheModule: one conjunct for each clause, in the order of its clauses. -/
theorem witness_SuppliesResetsAndTheBootRomBringUpTheModule_2 :
    (((((run0).modPwr fun p => { p with phase := .off, keepOff := 2, keepFail := 5 }) : State).pwr.phase = .off) ∧ (1 ≤ (1 : Nat))) ∧
    ((1 ≤ (1 : Nat)) ∧ ((run0 : State).isUp 1 = true) ∧ ((run0 : State).sup.rstnLow = false) ∧ ((run0 : State).pwr.phase = .run)) ∧
    ((1 ≤ (5 : Nat)) ∧ ((((run0).modPwr fun p => { p with phase := .sleep }) : State).pwr.phase = .sleep ∨ (((run0).modPwr fun p => { p with phase := .sleep }) : State).pwr.phase = .deep ∨ (((run0).modPwr fun p => { p with phase := .sleep }) : State).pwr.phase = .off)) ∧
    ((((({ run0 with mem := [(0, 0x47), (1, 0x5A), (2, 0x37), (3, 0x32), (4, 1), (8, 4), (9, 0), (10, 0), (11, 0), (12, 4), (13, 0), (14, 0), (15, 0)] }).modSup fun u => { u with coreReset := true, cause := 2, rstnLow := true }) : State).isUp 1 = true) ∧ (((({ run0 with mem := [(0, 0x47), (1, 0x5A), (2, 0x37), (3, 0x32), (4, 1), (8, 4), (9, 0), (10, 0), (11, 0), (12, 4), (13, 0), (14, 0), (15, 0)] }).modSup fun u => { u with coreReset := true, cause := 2, rstnLow := true }) : State).isUp 3 = true) ∧ (((({ run0 with mem := [(0, 0x47), (1, 0x5A), (2, 0x37), (3, 0x32), (4, 1), (8, 4), (9, 0), (10, 0), (11, 0), (12, 4), (13, 0), (14, 0), (15, 0)] }).modSup fun u => { u with coreReset := true, cause := 2, rstnLow := true }) : State).dep.mgmtUp = true) ∧ (((({ run0 with mem := [(0, 0x47), (1, 0x5A), (2, 0x37), (3, 0x32), (4, 1), (8, 4), (9, 0), (10, 0), (11, 0), (12, 4), (13, 0), (14, 0), (15, 0)] }).modSup fun u => { u with coreReset := true, cause := 2, rstnLow := true }) : State).dep.wdHold = none) ∧ (((({ run0 with mem := [(0, 0x47), (1, 0x5A), (2, 0x37), (3, 0x32), (4, 1), (8, 4), (9, 0), (10, 0), (11, 0), (12, 4), (13, 0), (14, 0), (15, 0)] }).modSup fun u => { u with coreReset := true, cause := 2, rstnLow := true }) : State).sup.coreReset = true) ∧ (((({ run0 with mem := [(0, 0x47), (1, 0x5A), (2, 0x37), (3, 0x32), (4, 1), (8, 4), (9, 0), (10, 0), (11, 0), (12, 4), (13, 0), (14, 0), (15, 0)] }).modSup fun u => { u with coreReset := true, cause := 2, rstnLow := true }) : State).tmbRuns = true)) ∧
    (((((run0).modSup fun u => { u with rstnLow := true }) : State).sup.coreReset = false ∨ (((run0).modSup fun u => { u with rstnLow := true }) : State).dep.mgmtUp = false)) ∧
    ((((({ run0 with mem := [(0, 0x47), (1, 0x5A), (2, 0x37), (3, 0x32), (4, 1), (8, 4), (9, 0), (10, 0), (11, 0), (12, 4), (13, 0), (14, 0), (15, 0)] }).modSup fun u => { u with coreReset := true, cause := 2 }) : State).isUp 1 = true) ∧ (((({ run0 with mem := [(0, 0x47), (1, 0x5A), (2, 0x37), (3, 0x32), (4, 1), (8, 4), (9, 0), (10, 0), (11, 0), (12, 4), (13, 0), (14, 0), (15, 0)] }).modSup fun u => { u with coreReset := true, cause := 2 }) : State).isUp 3 = true) ∧ (((({ run0 with mem := [(0, 0x47), (1, 0x5A), (2, 0x37), (3, 0x32), (4, 1), (8, 4), (9, 0), (10, 0), (11, 0), (12, 4), (13, 0), (14, 0), (15, 0)] }).modSup fun u => { u with coreReset := true, cause := 2 }) : State).dep.mgmtUp = true) ∧ (((({ run0 with mem := [(0, 0x47), (1, 0x5A), (2, 0x37), (3, 0x32), (4, 1), (8, 4), (9, 0), (10, 0), (11, 0), (12, 4), (13, 0), (14, 0), (15, 0)] }).modSup fun u => { u with coreReset := true, cause := 2 }) : State).dep.wdHold = none) ∧ (((({ run0 with mem := [(0, 0x47), (1, 0x5A), (2, 0x37), (3, 0x32), (4, 1), (8, 4), (9, 0), (10, 0), (11, 0), (12, 4), (13, 0), (14, 0), (15, 0)] }).modSup fun u => { u with coreReset := true, cause := 2 }) : State).sup.coreReset = true) ∧ (((({ run0 with mem := [(0, 0x47), (1, 0x5A), (2, 0x37), (3, 0x32), (4, 1), (8, 4), (9, 0), (10, 0), (11, 0), (12, 4), (13, 0), (14, 0), (15, 0)] }).modSup fun u => { u with coreReset := true, cause := 2 }) : State).tmbRuns = true) ∧ (((({ run0 with mem := [(0, 0x47), (1, 0x5A), (2, 0x37), (3, 0x32), (4, 1), (8, 4), (9, 0), (10, 0), (11, 0), (12, 4), (13, 0), (14, 0), (15, 0)] }).modSup fun u => { u with coreReset := true, cause := 2 }) : State).sup.rstnLow = false)) ∧
    (((run0 : State).sup.coreReset = false ∨ (run0 : State).dep.mgmtUp = false ∨ (run0 : State).sup.rstnLow = true)) ∧
    (((run0 : State).isUp 0 = true)) ∧
    ((({ run0 with up := Vector.replicate 72 false } : State).isUp 0 = false)) := by
  refine ⟨?_, ?_, ?_, ?_, ?_, ?_, ?_, ?_, ?_⟩ <;> decide +kernel



/-! ## Ill-formed commands: one for each check of `Instr.wf` -/

theorem test_wf_thermal_latch_set : Instr.wf (.thermalLatchSet 0 40000 false false) = false := by decide
theorem test_wf_thermal_latch_clear : Instr.wf (.thermalLatchClear 0 (-40000)) = false := by decide
theorem test_wf_group_thermal_latch : Instr.wf (.groupThermalLatch 0 40000) = false := by decide
theorem test_wf_group_thermal_latch_clear : Instr.wf (.groupThermalLatchClear 0 40000) = false := by decide
theorem test_wf_string_thermal : Instr.wf (.stringThermal 0 40000) = false := by decide
theorem test_wf_string_thermal_latch_clear : Instr.wf (.stringThermalLatchClear 0 40000) = false := by decide
theorem test_wf_bank_under_voltage : Instr.wf (.bankUnderVoltage 0 65001 20) = false := by decide
theorem test_wf_bank_recover : Instr.wf (.bankRecover 0 65001 10000) = false := by decide
theorem test_wf_sensor_copy : Instr.wf (.sensorCopy 48000 48000 48000 65001 400) = false := by decide
theorem test_wf_vbk_change : Instr.wf (.vbkChange true 651) = false := by decide
theorem test_wf_digitiser_sample : Instr.wf (.digitiserSample 0 16384 400 1) = false := by decide
theorem test_wf_can_frame_received : Instr.wf (.canFrameReceived 0 0 4 [1, 2, 3] 50) = false := by decide +kernel
theorem test_wf_decoded_frame : Instr.wf (.decodedFrame 0 true 0 4 [1]) = false := by decide +kernel
theorem test_wf_can_error : Instr.wf (.canError 0 0 false false false false 0) = false := by decide
theorem test_wf_plk_frame_received : Instr.wf (.plkFrameReceived false [1, 2] 0) = false := by decide
theorem test_wf_plk_tx_complete : Instr.wf (.plkTxComplete 0 0 0 0 0 0) = false := by decide
theorem test_wf_plk_tx_attempts : Instr.wf (.plkTxComplete 1 15 0 0 0 0) = false := by decide
theorem test_wf_hp_forward : Instr.wf (.hpForward 0x0F 0 2 []) = false := by decide
theorem test_wf_hp_nop : Instr.wf (.hpNop 0 15) = false := by decide
theorem test_wf_resend : Instr.wf (.resend 0 15) = false := by decide
theorem test_wf_ident : Instr.wf (.ident 0 15) = false := by decide
theorem test_wf_hp_forget : Instr.wf (.hpForget 0 15) = false := by decide
theorem test_wf_ack_restart : Instr.wf (.ackRestart 0 15) = false := by decide
theorem test_wf_sensor_sample : Instr.wf (.sensorSample 0 40000 50 false) = false := by decide

/-! ## Words of Crika v2, written bit by bit from R343 to R354 -/

/-- Format r: ADD g3, g1, g2 with AL. -/
theorem test_word_add :
    decodeWord 0 0b0_1110_000000_00011_00001_000000_00010#32 = some (.add 0 14 3 1 2) := by decide +kernel

/-- Format r with a field of zeros that is not zero: ILLEGAL. -/
theorem test_word_add_reserved : decodeWord 0 0b0_1110_000000_00011_00001_000001_00010#32 = none := by decide +kernel

/-- Format i: ADDI g3, g1, #-1 with NZ. -/
theorem test_word_addi :
    decodeWord 2 0b0_0001_000001_00011_00001_11111111111#32 = some (.addi 2 1 3 1 0x7FF) := by decide +kernel

/-- Format q: SHLI g5, g6, #9. -/
theorem test_word_shli :
    decodeWord 0 0b0_1110_001110_00101_00110_0000000_1001#32 = some (.shli 0 14 5 6 9) := by decide +kernel

/-- Format m: the word 0x7464_0444 that the spec gives for LDP g4, [SEG4: g0 + 0x44]. -/
theorem test_word_ldp : decodeWord 2 0x74640444#32 = some (.ldp 2 14 4 0 4 0x44) := by decide +kernel

/-- Format b: B.NZ two words back. -/
theorem test_word_b :
    decodeWord 0 0b0_0001_110000_0000000_11111111111110#32 = some (.b 0 1 0x3FFE) := by decide +kernel

/-- TRAP 7 and RETI. -/
theorem test_word_trap :
    decodeWord 0 0b0_1110_110110_00000_00000_000_00000111#32 = some (.trap 0 14 7) := by decide +kernel
theorem test_word_reti :
    decodeWord 0 0b0_1110_110111_00000_00000_00000000000#32 = some (.reti 0 14) := by decide +kernel

/-- The canonical no-operation word 0xF000_0000 of R347 is a pair; the reserved bit 26 makes it ILLEGAL. -/
theorem test_word_nop : decodeWord 0 0xF0000000#32 = some (.pair 0 14 0 0) := by decide +kernel
theorem test_word_pair_reserved : decodeWord 0 0xF4000000#32 = none := by decide +kernel

/-- Reserved opcodes 0x1E and 0x3F. -/
theorem test_word_reserved_low : decodeWord 0 0b0_1110_011110_00000_00000_00000000000#32 = none := by decide +kernel
theorem test_word_reserved_high : decodeWord 0 0xFFFFFFFF#32 = none := by decide +kernel

/-! ## Values from the worked examples of the spec -/

/-- spec/07_lamp_matrix.md: I_CONT of LS1 is 72. -/
theorem test_lamp_claim : ({ Ls.init 0 with cfg := 0x00580046#32, v3 := 48000 } : Ls).iCont = 72 := by decide +kernel

/-- spec/07_lamp_matrix.md: DUTY 30 at PER 0 is 610 cycles, phase 48,592 for j = 14; a share of 190 trims 3 cycles in
frames 0 to 61 and 2 in the last two. -/
theorem test_lamp_frame :
    roundDiv (30 * 83300) 4095 = 610 ∧ phaseOf 1 6 83300 = 48592 ∧ trimOf 190 61 = 3 ∧ trimOf 190 62 = 2 := by
  decide +kernel

/-- spec/08_lantern_chains.md: the headers of the hall row, of NUMBER out and back, of CONFIG out and back, of DATA. -/
theorem test_chain_headers :
    lcHeader 2 0 0 = 0x400000D2#32 ∧ lcHeader 2 0 40960 = 0x4A0000D2#32 ∧ lcHeader 3 0 40960 = 0x4A0000C3#32 ∧
      lcHeader 3 0 0 = 0x400000C3#32 ∧ lcHeader 1 0 40960 = 0x4A0000E1#32 := by decide +kernel

/-- spec/08_lantern_chains.md: the statuses 0xC1 and 0x43 have odd parity, 0x41 has not. -/
theorem test_chain_parity : statusOk 0xC1 = true ∧ statusOk 0x43 = true ∧ statusOk 0x41 = false := by decide +kernel

/-- spec/16_host_port_and_plant_link.md: the request header 0x2004_0721 goes out as the bytes 21, 07, 04, 20. -/
theorem test_host_header : (hpFrame 0x21 7 2 [0x25] 0).take 4 = [0x21, 0x07, 0x04, 0x20] := by decide +kernel

/-- spec/12_queues.md: queue 18 with SIZE 64 leaves 416 granules in the pool. -/
theorem test_queue_pool :
    ((after (execQueueCfgWrite 0 18 0x00400003 run0)).regPeek 19 0x408 0) = 0x1A0#32 := by decide +kernel

/-- spec/18_power_states.md: the refusal of LC3 in a DEEP entry records 0x0300_2505. -/
theorem test_abort_record :
    (({ run0 with pwr := { run0.pwr with phase := .entering, stage := 5, target := 2 } } : State).entryRefuse 5 0 3).pwr.lastAbort =
      0x03002505#32 := by decide +kernel

/-- spec/09_inputs_and_limp_home.md: the map word 0xA3A3_A3A3 gives target 0 SEL 1, DIN 1, INV 0 and PRIO 5. -/
theorem test_limp_map :
    let s := after (execLmapWrite 0 0 0xA3A3A3A3 run0)
    s.mapSel 0 = true ∧ s.mapDin 0 = 1 ∧ s.mapPrio 0 = 5 ∧ bit (s.mapByte 0) 4 = false := by decide +kernel

/-- The digest of "abc" as FIPS 180-4 gives it. -/
theorem test_sha256 :
    sha256 [0x61, 0x62, 0x63] = 0xBA7816BF8F01CFEA414140DE5DAE2223B00361A396177A9CB410FF61F20015AD := by decide +kernel

/-- The P-256 signature of "sample" with SHA-256 as RFC 6979 gives it, key and digest with it. -/
theorem test_ecdsa :
    ecdsaOk
      (0x60FED4BA255A9D31C961EB74C6356D68C049B8923B61FA6CE669622E60F29FB6 * 2 ^ 256 +
        0x7903FE1008B8BC99A41AE9E95628BC64F2F1B20C2D7E9F5177A3C294D4462299)
      0xAF2BDBE1AA9B6EC1E2ADE1D694F41FC71A831D0268E9891562113D8A62ADD1BF
      ((List.range 64).map fun i => BitVec.ofNat 8
        ((0xEFD48B2AACB6A8FD1140DD9CD45E81D69D2C877B56AAF991C34D0EA84EAF3716 * 2 ^ 256 +
          0xF7CB1C942D657C41D436C7A1B6E29F65F3E900DBB9AFF4064DC4AB2F843ACDA8) / 256 ^ (63 - i))) = true := by
  decide +kernel

/-- An empty queue idles. -/
theorem test_idle : (after (step run0)).now = run0.now + 1 := by decide +kernel

end Sys2Proof.Tests
end

/-! ## A read of the Deputy (R19) and the free values it draws -/

namespace Sys2Proof.Machine

/-- A read of the Deputy that is served draws one free value, the cycles the access waits, whatever it reads. -/
theorem State.depRead_free_of_served (s : State) (b off : Nat) (hdep : s.depUp = true)
    (hup : s.isUp (regIsland b off) = true) (hcore : regIsland b off ≠ 1) :
    (s.depRead b off).free = s.free + 1 := by
  have hserved : (s.isUp (regIsland b off) && (regIsland b off != 1 || !s.sup.coreReset)) = true := by
    simp [hup, hcore]
  have hdraw : (s.draw 16).2.free = s.free + 1 := rfl
  simp only [State.depRead, hdep, Bool.not_true, Bool.false_eq_true, if_false, hserved, if_true]
  split
  · simp [hdraw]
  · split <;> simp [hdraw]

/-- The state after reset, with the management island and the Deputy's core running. -/
def State.resetWithDeputy : State :=
  { State.reset with up := vupd upAon 3 fun _ => true, dep := { State.reset.dep with mgmtUp := true } }

/-- Refutes O6 by its last clause: a served read of the Deputy draws a free value for its waiting cycles, and that
changes the part `free`, which the clause does not list. The counterexample is the Deputy's read of TMB.TIME_LO with the
Deputy running. The registers themselves are left alone: `State.depRead_touch` is the clause with `free` listed. -/
theorem not_registersStoreFieldsAndReadToClear : ¬ Obligations.RegistersStoreFieldsAndReadToClear := by
  unfold Obligations.RegistersStoreFieldsAndReadToClear
  rintro ⟨-, -, -, hdepRead⟩
  have hsame : (State.resetWithDeputy.depRead 0x14 0).free = State.resetWithDeputy.free :=
    (hdepRead State.resetWithDeputy 0x14 0).same .free (by decide)
  have hdrawn : (State.resetWithDeputy.depRead 0x14 0).free = State.resetWithDeputy.free + 1 :=
    State.depRead_free_of_served _ _ _ (by decide) (by decide) (by decide)
  omega

end Sys2Proof.Machine

/-! ## The canonical form of the sparse tables (R36, R148, R159)

Most operations leave memory, the curve store and the external claims as they are: one equation `…_tables` for each says
so, from its touch lemma where no part with a table is in that list. The operations that write a table keep its form:
`…_canonical`. Every command and the idle step are made of the two kinds. -/

namespace Sys2Proof.Machine

/-- What `State.canonical` speaks of: memory, the entries of the curve store, and the external claims of ADM. -/
def State.tables (s : State) : List Host.Cell × Sparse W32 × Sparse W32 := (s.mem, s.curve.ent, s.adm.extClaim)

/-- The parts of State that hold a table. -/
def tableParts : List Part := [.mem, .curve, .adm]

/-- An operation that touches none of those parts leaves the tables. -/
theorem onlyTouches.tables {ps : List Part} {s t : State} (k : onlyTouches ps s t)
    (away : (tableParts.all fun p => decide (p ∉ ps)) = true) : t.tables = s.tables := by
  simp only [tableParts, List.all_cons, List.all_nil, Bool.and_true, Bool.and_eq_true, decide_eq_true_eq] at away
  obtain ⟨hmem, hcurve, hadm⟩ := away
  have emem : t.mem = s.mem := k.same .mem hmem
  have ecurve : t.curve = s.curve := k.same .curve hcurve
  have eadm : t.adm = s.adm := k.same .adm hadm
  unfold State.tables
  rw [emem, ecurve, eadm]

/-! ### How the tables pass through the shapes of a definition -/

@[simp] theorem State.tables_ite {c : Prop} [Decidable c] (s t : State) :
    (if c then s else t).tables = if c then s.tables else t.tables := apply_ite State.tables c s t

@[simp] theorem State.tables_dite {c : Prop} [Decidable c] (s : c → State) (t : ¬c → State) :
    (if h : c then s h else t h).tables = if h : c then (s h).tables else (t h).tables := apply_dite State.tables c s t

@[simp] theorem State.onlyIf_tables (s : State) (c : Bool) (f : State → State) :
    (s.onlyIf c f).tables = if c then (f s).tables else s.tables := apply_ite State.tables _ _ _

theorem State.foldl_tables {α : Type} {f : State → α → State} (hf : ∀ x a, (f x a).tables = x.tables)
    (l : List α) (s : State) : (l.foldl f s).tables = s.tables := by
  induction l generalizing s with
  | nil => rfl
  | cons a r ih => exact (ih _).trans (hf s a)

@[simp] theorem State.forFin_tables {n : Nat} {f : Fin n → State → State} (hf : ∀ i x, (f i x).tables = x.tables)
    (s : State) : (forFin n f s).tables = s.tables := State.foldl_tables (fun x i => hf i x) _ s

@[simp] theorem State.put_answer_tables (s : State) (x : Answer) : { s with answer := x }.tables = s.tables := rfl
@[simp] theorem State.put_vlvCtl_tables (s : State) (x : W32) : { s with vlvCtl := x }.tables = s.tables := rfl
@[simp] theorem State.put_core_tables (s : State) (x : Vector Core 4) : { s with core := x }.tables = s.tables := rfl
@[simp] theorem State.put_fab_tables (s : State) (x : EventFabric) : { s with fab := x }.tables = s.tables := rfl

/-! ### ADM: what changes its state leaves the external claims -/

@[simp] theorem State.modAdm_tables (s : State) {f : Adm → Adm} (hf : ∀ a, (f a).extClaim = a.extClaim) :
    (s.modAdm f).tables = s.tables := by
  simp [State.tables, hf]

@[simp] theorem State.put_adm_tables (s : State) {x : Adm} (hx : x.extClaim = s.adm.extClaim) :
    { s with adm := x }.tables = s.tables := by
  simp [State.tables, hx]

@[simp] theorem State.modCurve_tables (s : State) {f : Curve → Curve} (hf : ∀ c, (f c).ent = c.ent) :
    (s.modCurve f).tables = s.tables := by
  simp [State.tables, hf]

section
variable (a : Adm)

@[simp] theorem Adm.extClaim_ite {c : Prop} [Decidable c] (b : Adm) :
    (if c then a else b).extClaim = if c then a.extClaim else b.extClaim := apply_ite Adm.extClaim c a b

@[simp] theorem Adm.removeEntry_extClaim (t : Nat) : (a.removeEntry t).extClaim = a.extClaim := by
  simp only [Adm.removeEntry]

@[simp] theorem Adm.modEntry_extClaim (t : Nat) (f : Entry → Entry) : (a.modEntry t f).extClaim = a.extClaim := by
  simp only [Adm.modEntry]

@[simp] theorem Adm.modSlot_extClaim (i : Fin 16) (f : Slot → Slot) : (a.modSlot i f).extClaim = a.extClaim := by
  simp only [Adm.modSlot]

@[simp] theorem Adm.reckon_extClaim : a.reckon.extClaim = a.extClaim := by
  simp only [Adm.reckon]

@[simp] theorem Adm.freshen_extClaim (t : Nat) : (a.freshen t).extClaim = a.extClaim := by
  simp only [Adm.freshen]

@[simp] theorem Adm.send_extClaim (t : Nat) (m : ToTgt) : (a.send t m).extClaim = a.extClaim := by
  unfold Adm.send; split <;> rfl

@[simp] theorem Adm.setClaim_extClaim (t : Nat) (v : W32) : (a.setClaim t v).extClaim = a.extClaim := by
  unfold Adm.setClaim; split <;> rfl

@[simp] theorem Adm.result_extClaim (c : Fin 4) (k r : Nat) : (a.result c k r).extClaim = a.extClaim := by
  unfold Adm.result; split <;> rfl

@[simp] theorem Adm.binStep_extClaim (t : Nat) : (a.binStep t).extClaim = a.extClaim := by
  unfold Adm.binStep; split <;> rfl

@[simp] theorem Adm.sendOff_extClaim (n : Nat) : (a.sendOff n).extClaim = a.extClaim := by
  simp [Adm.sendOff]

@[simp] theorem Adm.drop_extClaim (t : Nat) : (a.drop t).extClaim = a.extClaim := by
  simp [Adm.drop]

@[simp] theorem Adm.enter_extClaim (t prio : Nat) (dl : Option Nat) (iCont inrE now : Nat) (own : Bool) :
    (a.enter t prio dl iCont inrE now own).1.extClaim = a.extClaim := by
  unfold Adm.enter
  dsimp only
  split
  · simp
  · split <;> simp

@[simp] theorem Adm.step1_extClaim (t : Nat) (m : AdmIn) : (a.step1 t m).extClaim = a.extClaim := by
  cases m <;> simp only [Adm.step1] <;> repeat' split
  all_goals simp

@[simp] theorem Adm.step2_extClaim (t : Nat) (m : AdmIn) : (a.step2 t m).extClaim = a.extClaim := by
  cases m <;> rfl

@[simp] theorem Adm.step5_extClaim (m : AdmIn) : (a.step5 m).extClaim = a.extClaim := by
  cases m <;> simp only [Adm.step5] <;> repeat' split
  all_goals simp

/-- Inputs taken in order by a step that leaves the claims leave them. -/
@[simp] theorem Adm.foldl_extClaim {f : Adm → AdmIn → Adm} (hf : ∀ x m, (f x m).extClaim = x.extClaim) (l : List AdmIn) :
    (l.foldl f a).extClaim = a.extClaim := by
  induction l generalizing a with
  | nil => rfl
  | cons m r ih => exact (ih _).trans (hf a m)

end

/-! ### State operations: what leaves the tables -/

@[simp] theorem State.modHs_tables (s : State) (n : Fin 48) (f : Hs → Hs) : (s.modHs n f).tables = s.tables :=
  (s.modHs_touch n f).tables rfl

@[simp] theorem State.modVd_tables (s : State) (n : Fin 16) (f : Vd → Vd) : (s.modVd n f).tables = s.tables :=
  (s.modVd_touch n f).tables rfl

@[simp] theorem State.modVg_tables (s : State) (g : Fin 4) (f : Vg → Vg) : (s.modVg g f).tables = s.tables :=
  (s.modVg_touch g f).tables rfl

@[simp] theorem State.modLs_tables (s : State) (k : Fin 3) (f : Ls → Ls) : (s.modLs k f).tables = s.tables :=
  (s.modLs_touch k f).tables rfl

@[simp] theorem State.modDig_tables (s : State) (t : Fin 67) (f : Dig → Dig) : (s.modDig t f).tables = s.tables :=
  (s.modDig_touch t f).tables rfl

@[simp] theorem State.modHsc_tables (s : State) (f : Hsc → Hsc) : (s.modHsc f).tables = s.tables :=
  (s.modHsc_touch f).tables rfl

@[simp] theorem State.modInp_tables (s : State) (f : Inp → Inp) : (s.modInp f).tables = s.tables :=
  (s.modInp_touch f).tables rfl

@[simp] theorem State.modPwr_tables (s : State) (f : Pwr → Pwr) : (s.modPwr f).tables = s.tables :=
  (s.modPwr_touch f).tables rfl

@[simp] theorem State.modSup_tables (s : State) (f : Supply → Supply) : (s.modSup f).tables = s.tables :=
  (s.modSup_touch f).tables rfl

@[simp] theorem State.modSys_tables (s : State) (f : Sys → Sys) : (s.modSys f).tables = s.tables :=
  (s.modSys_touch f).tables rfl

@[simp] theorem State.modTmb_tables (s : State) (f : Tmb → Tmb) : (s.modTmb f).tables = s.tables :=
  (s.modTmb_touch f).tables rfl

@[simp] theorem State.modCore_tables (s : State) (c : Fin 4) (f : Core → Core) : (s.modCore c f).tables = s.tables :=
  (s.modCore_touch c f).tables rfl

@[simp] theorem State.modPmc_tables (s : State) (f : Pmc → Pmc) : (s.modPmc f).tables = s.tables :=
  (s.modPmc_touch f).tables rfl

@[simp] theorem State.modCan_tables (s : State) (c : Fin 4) (f : Can → Can) : (s.modCan c f).tables = s.tables :=
  (s.modCan_touch c f).tables rfl

@[simp] theorem State.modHp_tables (s : State) (f : Hp → Hp) : (s.modHp f).tables = s.tables :=
  (s.modHp_touch f).tables rfl

@[simp] theorem State.modPlk_tables (s : State) (f : Plk → Plk) : (s.modPlk f).tables = s.tables :=
  (s.modPlk_touch f).tables rfl

@[simp] theorem State.modDep_tables (s : State) (f : Dep → Dep) : (s.modDep f).tables = s.tables :=
  (s.modDep_touch f).tables rfl

@[simp] theorem State.modNv_tables (s : State) (f : DepNv → DepNv) : (s.modNv f).tables = s.tables :=
  (s.modNv_touch f).tables rfl

@[simp] theorem State.draw_tables (s : State) (w : Nat) : ((State.draw s w).2).tables = s.tables :=
  (s.draw_touch w).tables rfl

@[simp] theorem State.emit_tables (s : State) (src code : Nat) (arg : W32) : (s.emit src code arg).tables = s.tables :=
  (s.emit_touch src code arg).tables rfl

@[simp] theorem State.toAdm_tables (s : State) (m : AdmIn) : (s.toAdm m).tables = s.tables := by simp [State.toAdm]

@[simp] theorem State.emitAdm_tables (s : State) (src code : Nat) (arg : W32) (m : AdmIn) :
    (s.emitAdm src code arg m).tables = s.tables := by
  simp [State.emitAdm]

@[simp] theorem State.coreCount_tables (s : State) (c : Fin 4) (evt n : Nat) (k : Bool) :
    (s.coreCount c evt n k).tables = s.tables :=
  (s.coreCount_touch c evt n k).tables rfl

@[simp] theorem State.fabCount_tables (s : State) (evt req n : Nat) : (s.fabCount evt req n).tables = s.tables :=
  (s.fabCount_touch evt req n).tables rfl

@[simp] theorem State.logAdd_tables (s : State) (r : LogRec) : (s.logAdd r).tables = s.tables :=
  (s.logAdd_touch r).tables rfl

@[simp] theorem State.logOwn_tables (s : State) (code : Nat) (arg : W32) : (s.logOwn code arg).tables = s.tables :=
  (s.logOwn_touch code arg).tables rfl

@[simp] theorem State.wakeReq_tables (s : State) (src : Nat) : (s.wakeReq src).tables = s.tables :=
  (s.wakeReq_touch src).tables rfl

@[simp] theorem State.hubTake_tables (s : State) (r : EvRec) : (s.hubTake r).tables = s.tables :=
  (s.hubTake_touch r).tables rfl

@[simp] theorem State.pull_tables (s : State) (i : Nat) : (s.pull i).tables = s.tables :=
  (s.pull_touch i).tables rfl

@[simp] theorem State.advanceTo_tables (s : State) (t : Nat) : (s.advanceTo t).tables = s.tables :=
  (s.advanceTo_touch t).tables rfl

/-! ### Memory: what leaves the tables -/

@[simp] theorem State.eccRelease_tables (s : State) : s.eccRelease.tables = s.tables :=
  s.eccRelease_touch.tables rfl

@[simp] theorem State.eccRead_tables (s : State) (a : Nat) (req : Req) :
    ((State.eccRead s a req).2).tables = s.tables :=
  (s.eccRead_touch a req).tables rfl

@[simp] theorem State.eccRange_tables (req : Req) (a n : Nat) (s : State) :
    ((State.eccRange req a n s).2).tables = s.tables :=
  (State.eccRange_touch req a n s).tables rfl

@[simp] theorem State.loadBytes_tables (s : State) (a n : Nat) (req : Req) :
    ((State.loadBytes s a n req).2.2).tables = s.tables :=
  (s.loadBytes_touch a n req).tables rfl

/-! ### Digitisers: what leaves the tables -/

@[simp] theorem State.setTj_tables (s : State) (t : Fin 67) (tj : Int) : (s.setTj t tj).tables = s.tables :=
  (s.setTj_touch t tj).tables rfl

@[simp] theorem State.capDone_tables (s : State) (t : Fin 67) : (s.capDone t).tables = s.tables :=
  (s.capDone_touch t).tables rfl

@[simp] theorem State.capTrigger_tables (s : State) (t : Fin 67) (trg : Nat) : (s.capTrigger t trg).tables = s.tables :=
  (s.capTrigger_touch t trg).tables rfl

@[simp] theorem State.capArm_tables (s : State) (t : Fin 67) : (s.capArm t).tables = s.tables :=
  (s.capArm_touch t).tables rfl

@[simp] theorem State.capTrig_tables (s : State) (t : Fin 67) : (s.capTrig t).tables = s.tables :=
  (s.capTrig_touch t).tables rfl

@[simp] theorem State.zeroCmd_tables (s : State) (t : Fin 67) : (s.zeroCmd t).tables = s.tables :=
  (s.zeroCmd_touch t).tables rfl

@[simp] theorem State.zeroAbort_tables (s : State) (t : Fin 67) : (s.zeroAbort t).tables = s.tables :=
  (s.zeroAbort_touch t).tables rfl

@[simp] theorem State.zeroDone_tables (s : State) (t : Fin 67) : (s.zeroDone t).tables = s.tables :=
  (s.zeroDone_touch t).tables rfl

@[simp] theorem State.msSend_tables (s : State) (t : Fin 67) : (s.msSend t).tables = s.tables := by simp [State.msSend]

@[simp] theorem State.snapCmd_tables (s : State) (snap gtrig : Bool) : (s.snapCmd snap gtrig).tables = s.tables :=
  (s.snapCmd_touch snap gtrig).tables rfl

@[simp] theorem State.snapLatch_tables (s : State) (t : Fin 67) (late : Bool) :
    (s.snapLatch t late).tables = s.tables :=
  (s.snapLatch_touch t late).tables rfl

/-! ### Estimators: what leaves the tables -/

@[simp] theorem State.settleTimeout_tables (s : State) (n : Fin 48) : (s.settleTimeout n).tables = s.tables :=
  (s.settleTimeout_touch n).tables rfl

@[simp] theorem State.steadyClose_tables (s : State) (n : Fin 48) : (s.steadyClose n).tables = s.tables :=
  (s.steadyClose_touch n).tables rfl

@[simp] theorem State.padSample_tables (s : State) (n : Fin 48) (mv : Int) : (s.padSample n mv).tables = s.tables :=
  (s.padSample_touch n mv).tables rfl

@[simp] theorem State.trendUpdate_tables (s : State) (n : Fin 48) : (s.trendUpdate n).tables = s.tables :=
  (s.trendUpdate_touch n).tables rfl

@[simp] theorem State.trReset_tables (s : State) (n : Fin 48) : (s.trReset n).tables = s.tables :=
  (s.trReset_touch n).tables rfl

@[simp] theorem State.trLong_tables (s : State) (n : Fin 48) (q : Fin 3) (v : Nat) :
    (s.trLong n q v).tables = s.tables :=
  (s.trLong_touch n q v).tables rfl

@[simp] theorem State.estWrite_tables (s : State) (n : Fin 48) (off : Nat) (v : W32) :
    (s.estWrite n off v).tables = s.tables :=
  (s.estWrite_touch n off v).tables rfl

/-! ### High-side channels: what leaves the tables -/

@[simp] theorem State.parkWake_tables (s : State) (n : Fin 48) : (s.parkWake n).tables = s.tables :=
  (s.parkWake_touch n).tables rfl

@[simp] theorem State.hsRes_tables (s : State) (n : Fin 48) (r : Nat) : (s.hsRes n r).tables = s.tables :=
  (s.hsRes_touch n r).tables rfl

@[simp] theorem State.hsEnter_tables (s : State) (n : Fin 48) (st : HsSt) : (s.hsEnter n st).tables = s.tables :=
  (s.hsEnter_touch n st).tables rfl

@[simp] theorem State.hsRequest_tables (s : State) (n : Fin 48) (prio : Nat) (kind : ReqKind) :
    (s.hsRequest n prio kind).tables = s.tables := by
  simp [State.hsRequest]

@[simp] theorem State.hsWithdraw_tables (s : State) (n : Fin 48) : (s.hsWithdraw n).tables = s.tables := by
  simp [State.hsWithdraw]

@[simp] theorem State.clampJudge_tables (s : State) (n : Fin 48) (c : Clamp) (tCl : Nat) (timeout : Bool) :
    (s.clampJudge n c tCl timeout).tables = s.tables := by
  unfold State.clampJudge
  dsimp only
  repeat' split
  all_goals simp

@[simp] theorem State.clampBegin_tables (s : State) (n : Fin 48) (vds : Nat) : (s.clampBegin n vds).tables = s.tables :=
  (s.clampBegin_touch n vds).tables rfl

@[simp] theorem State.clampTimeout_tables (s : State) (n : Fin 48) : (s.clampTimeout n).tables = s.tables := by
  unfold State.clampTimeout
  split <;> simp

@[simp] theorem State.clampStop_tables (s : State) (n : Fin 48) (cycles : Nat) :
    (s.clampStop n cycles).tables = s.tables := by
  unfold State.clampStop
  split <;> simp

@[simp] theorem State.hsSwitchOn_tables (s : State) (n : Fin 48) (clampCycles : Nat) :
    (s.hsSwitchOn n clampCycles).tables = s.tables := by
  simp [State.hsSwitchOn]

@[simp] theorem State.hsSwitchOff_tables (s : State) (n : Fin 48) (st : HsSt) (cause : Nat) :
    (s.hsSwitchOff n st cause).tables = s.tables := by
  simp [State.hsSwitchOff]

@[simp] theorem State.hsRecord_tables (s : State) (n : Fin 48) (bits : W32) (cause : Nat) (st : HsSt) :
    (s.hsRecord n bits cause st).tables = s.tables :=
  (s.hsRecord_touch n bits cause st).tables rfl

@[simp] theorem State.hsFaultPath_tables (s : State) (n : Fin 48) (sc ot oc grantBack : Bool) :
    (s.hsFaultPath n sc ot oc grantBack).tables = s.tables := by
  simp [State.hsFaultPath]

@[simp] theorem State.hsUv_tables (s : State) (n : Fin 48) (grantBack : Bool) :
    (s.hsUv n grantBack).tables = s.tables := by
  unfold State.hsUv
  dsimp only
  split <;> simp

@[simp] theorem State.hsRestart_tables (s : State) (n : Fin 48) (retry : Bool) :
    (s.hsRestart n retry).tables = s.tables := by
  simp [State.hsRestart]

@[simp] theorem State.hsTryRestart_tables (s : State) (n : Fin 48) : (s.hsTryRestart n).tables = s.tables := by
  unfold State.hsTryRestart
  dsimp only
  repeat' split
  all_goals simp

@[simp] theorem State.hsStop_tables (s : State) (n : Fin 48) (to_ : HsSt) (cause : Nat) (same : Bool) :
    ((State.hsStop s n to_ cause same).1).tables = s.tables := by
  unfold State.hsStop
  dsimp only
  split
  · simp
  · split
    case h_4 => split <;> simp
    case h_5 => split <;> simp
    all_goals simp

@[simp] theorem State.hsOffCmd_tables (s : State) (n : Fin 48) (cause : Nat) (same : Bool) :
    (s.hsOffCmd n cause same).tables = s.tables := by
  simp [State.hsOffCmd]

@[simp] theorem State.hsClearCmd_tables (s : State) (n : Fin 48) : (s.hsClearCmd n).tables = s.tables :=
  (s.hsClearCmd_touch n).tables rfl

@[simp] theorem State.hsCtlWrite_tables (s : State) (n : Fin 48) (v : W32) (same : Bool) :
    (s.hsCtlWrite n v same).tables = s.tables := by
  simp [State.hsCtlWrite]

@[simp] theorem State.hsCmdWrite_tables (s : State) (n : Fin 48) (off clear same : Bool) :
    (s.hsCmdWrite n off clear same).tables = s.tables := by
  simp [State.hsCmdWrite]

@[simp] theorem State.hsEnvWrite_tables (s : State) (n : Fin 48) (v : W32) : (s.hsEnvWrite n v).tables = s.tables :=
  (s.hsEnvWrite_touch n v).tables rfl

@[simp] theorem State.hsEnvDone_tables (s : State) (n : Fin 48) : (s.hsEnvDone n).tables = s.tables :=
  (s.hsEnvDone_touch n).tables rfl

@[simp] theorem State.hsEntry_tables (s : State) (n : Fin 48) (mine : Bool) : (s.hsEntry n mine).tables = s.tables := by
  unfold State.hsEntry
  dsimp only
  split <;> simp

@[simp] theorem State.hsDrop_tables (s : State) (n : Fin 48) : (s.hsDrop n).tables = s.tables :=
  (s.hsDrop_touch n).tables rfl

@[simp] theorem State.hsReturn_tables (s : State) (n : Fin 48) : (s.hsReturn n).tables = s.tables := by
  simp [State.hsReturn]

@[simp] theorem State.hsGrantArrives_tables (s : State) (n : Fin 48) (clampCycles : Nat) :
    (s.hsGrantArrives n clampCycles).tables = s.tables := by
  unfold State.hsGrantArrives
  dsimp only
  split <;> simp

@[simp] theorem State.hsOverCurrent_tables (s : State) (n : Fin 48) (ma cycles : Nat) :
    (s.hsOverCurrent n ma cycles).tables = s.tables := by
  simp [State.hsOverCurrent]

@[simp] theorem State.hsShort_tables (s : State) (n : Fin 48) (ma : Nat) (oc : Bool) :
    (s.hsShort n ma oc).tables = s.tables := by
  simp [State.hsShort]

@[simp] theorem State.hsThermalSet_tables (s : State) (n : Fin 48) (tj : Int) (sc oc : Bool) :
    (s.hsThermalSet n tj sc oc).tables = s.tables := by
  unfold State.hsThermalSet
  dsimp only
  repeat' split
  all_goals simp

@[simp] theorem State.hsThermalClear_tables (s : State) (n : Fin 48) (tj : Int) :
    (s.hsThermalClear n tj).tables = s.tables := by
  simp [State.hsThermalClear]

@[simp] theorem State.hsBankUv_tables (s : State) (n : Fin 48) (mv cycles : Nat) :
    (s.hsBankUv n mv cycles).tables = s.tables := by
  simp [State.hsBankUv]

@[simp] theorem State.hsBankOk_tables (s : State) (n : Fin 48) (mv us : Nat) :
    (s.hsBankOk n mv us).tables = s.tables := by
  simp [State.hsBankOk]

@[simp] theorem State.hsEnvStep_tables (s : State) (n : Fin 48) : (s.hsEnvStep n).tables = s.tables := by
  simp [State.hsEnvStep]

@[simp] theorem State.hsRetryExpiry_tables (s : State) (n : Fin 48) : (s.hsRetryExpiry n).tables = s.tables := by
  unfold State.hsRetryExpiry
  dsimp only
  split <;> simp

@[simp] theorem State.hsHeal_tables (s : State) (n : Fin 48) : (s.hsHeal n).tables = s.tables :=
  (s.hsHeal_touch n).tables rfl

@[simp] theorem State.hsRise_tables (s : State) (n : Fin 48) : (s.hsRise n).tables = s.tables := by simp [State.hsRise]

@[simp] theorem State.hsFall_tables (s : State) (n : Fin 48) (same : Bool) : (s.hsFall n same).tables = s.tables := by
  simp [State.hsFall]

@[simp] theorem State.hsRouted_tables (s : State) (n : Fin 48) (level same : Bool) :
    (s.hsRouted n level same).tables = s.tables := by
  simp [State.hsRouted]

@[simp] theorem State.hsLimpEnter_tables (s : State) (n : Fin 48) (src : Nat) (level same : Bool) :
    (s.hsLimpEnter n src level same).tables = s.tables := by
  simp [State.hsLimpEnter]

@[simp] theorem State.hsOrphanOff_tables (s : State) (n : Fin 48) : (s.hsOrphanOff n).tables = s.tables := by
  unfold State.hsOrphanOff
  dsimp only
  repeat' split
  all_goals simp

/-! ### Valves: what leaves the tables -/

@[simp] theorem State.vdEmit_tables (s : State) (n : Fin 16) (code : Nat) (arg : W32) :
    (s.vdEmit n code arg).tables = s.tables :=
  (s.vdEmit_touch n code arg).tables rfl

@[simp] theorem State.vdRes_tables (s : State) (n : Fin 16) (r : Nat) : (s.vdRes n r).tables = s.tables :=
  (s.vdRes_touch n r).tables rfl

@[simp] theorem State.vdEnter_tables (s : State) (n : Fin 16) (st : VdSt) : (s.vdEnter n st).tables = s.tables :=
  (s.vdEnter_touch n st).tables rfl

@[simp] theorem State.vdRelease_tables (s : State) (n : Fin 16) : (s.vdRelease n).tables = s.tables := by
  simp [State.vdRelease]

@[simp] theorem State.vdWithdraw_tables (s : State) (n : Fin 16) (st : VdSt) :
    (s.vdWithdraw n st).tables = s.tables := by
  simp [State.vdWithdraw]

@[simp] theorem State.vdOff_tables (s : State) (n : Fin 16) (st : VdSt) : (s.vdOff n st).tables = s.tables := by
  simp [State.vdOff]

@[simp] theorem State.vdBusy_tables (s : State) (n : Fin 16) (us : Nat) : (s.vdBusy n us).tables = s.tables :=
  (s.vdBusy_touch n us).tables rfl

@[simp] theorem State.vdPending_tables (s : State) (n : Fin 16) : (s.vdPending n).tables = s.tables := by
  simp [State.vdPending]

@[simp] theorem State.vdStart_tables (s : State) (n : Fin 16) (hold : Nat) (routed : Bool) :
    (s.vdStart n hold routed).tables = s.tables := by
  simp [State.vdStart]

@[simp] theorem State.vdMerge_tables (s : State) (n : Fin 16) (hold : Nat) : (s.vdMerge n hold).tables = s.tables :=
  (s.vdMerge_touch n hold).tables rfl

@[simp] theorem State.vdHold_tables (s : State) (n : Fin 16) (hold : Nat) (routed : Bool) :
    (s.vdHold n hold routed).tables = s.tables :=
  (s.vdHold_touch n hold routed).tables rfl

@[simp] theorem State.vdOnCmd_tables (s : State) (n : Fin 16) (hold : Nat) (routed : Bool) :
    (s.vdOnCmd n hold routed).tables = s.tables := by
  unfold State.vdOnCmd
  split <;> simp

@[simp] theorem State.vdOffCmd_tables (s : State) (n : Fin 16) (same : Bool) :
    (s.vdOffCmd n same).tables = s.tables := by
  unfold State.vdOffCmd
  dsimp only
  split <;> simp

@[simp] theorem State.vdClearCmd_tables (s : State) (n : Fin 16) : (s.vdClearCmd n).tables = s.tables :=
  (s.vdClearCmd_touch n).tables rfl

@[simp] theorem State.vdCmdWrite_tables (s : State) (n : Fin 16) (on off clear same : Bool) (hold : Nat) :
    (s.vdCmdWrite n on off clear same hold).tables = s.tables := by
  simp [State.vdCmdWrite]

@[simp] theorem State.vdCtlWrite_tables (s : State) (n : Fin 16) (w : W32) (same : Bool) :
    (s.vdCtlWrite n w same).tables = s.tables := by
  unfold State.vdCtlWrite
  dsimp only
  repeat' split
  all_goals simp

@[simp] theorem State.deferLeave_tables (s : State) (g : Fin 4) : (s.deferLeave g).tables = s.tables := by
  unfold State.deferLeave
  split <;> simp

@[simp] theorem State.deferTimeout_tables (s : State) (n : Fin 16) : (s.deferTimeout n).tables = s.tables :=
  (s.deferTimeout_touch n).tables rfl

@[simp] theorem State.vdSetWrite_tables (s : State) (n : Fin 16) (f : Vd → Vd) : (s.vdSetWrite n f).tables = s.tables :=
  (s.vdSetWrite_touch n f).tables rfl

@[simp] theorem State.vdGrantArrives_tables (s : State) (n : Fin 16) : (s.vdGrantArrives n).tables = s.tables := by
  simp [State.vdGrantArrives]

@[simp] theorem State.vdDrop_tables (s : State) (n : Fin 16) : (s.vdDrop n).tables = s.tables :=
  (s.vdDrop_touch n).tables rfl

@[simp] theorem State.vdEntry_tables (s : State) (n : Fin 16) : (s.vdEntry n).tables = s.tables := by
  simp [State.vdEntry]

@[simp] theorem State.vdPeakEnd_tables (s : State) (n : Fin 16) : (s.vdPeakEnd n).tables = s.tables := by
  simp [State.vdPeakEnd]

@[simp] theorem State.vdClaimSettle_tables (s : State) (n : Fin 16) : (s.vdClaimSettle n).tables = s.tables := by
  simp [State.vdClaimSettle]

@[simp] theorem State.vdHoldEnd_tables (s : State) (n : Fin 16) : (s.vdHoldEnd n).tables = s.tables := by
  unfold State.vdHoldEnd
  dsimp only
  split <;> simp

@[simp] theorem State.vdDecayComplete_tables (s : State) (n : Fin 16) : (s.vdDecayComplete n).tables = s.tables :=
  (s.vdDecayComplete_touch n).tables rfl

@[simp] theorem State.vdDecayTimeout_tables (s : State) (n : Fin 16) : (s.vdDecayTimeout n).tables = s.tables :=
  (s.vdDecayTimeout_touch n).tables rfl

@[simp] theorem State.vdGapEnd_tables (s : State) (n : Fin 16) : (s.vdGapEnd n).tables = s.tables := by
  unfold State.vdGapEnd
  dsimp only
  repeat' split
  all_goals simp

@[simp] theorem State.vdFault_tables (s : State) (n : Fin 16) (cause : Nat) :
    (s.vdFault n cause).tables = s.tables := by
  simp [State.vdFault]

@[simp] theorem State.vdShort_tables (s : State) (n : Fin 16) (ma : Nat) : (s.vdShort n ma).tables = s.tables := by
  simp [State.vdShort]

@[simp] theorem State.vdOpen_tables (s : State) (n : Fin 16) (ma ms : Nat) : (s.vdOpen n ma ms).tables = s.tables := by
  simp [State.vdOpen]

@[simp] theorem State.vdGroupHit_tables (s : State) (n : Fin 16) (faultBit : W32) :
    (s.vdGroupHit n faultBit).tables = s.tables := by
  unfold State.vdGroupHit
  split <;> simp

@[simp] theorem State.groupFault_tables (s : State) (g : Fin 4) (cause : Nat) (faultBit : W32) :
    (s.groupFault g cause faultBit).tables = s.tables := by
  simp [State.groupFault]

@[simp] theorem State.groupOc_tables (s : State) (g : Fin 4) (ma cycles : Nat) :
    (s.groupOc g ma cycles).tables = s.tables := by
  simp [State.groupOc]

@[simp] theorem State.groupSc_tables (s : State) (g : Fin 4) (ma : Nat) : (s.groupSc g ma).tables = s.tables := by
  simp [State.groupSc]

@[simp] theorem State.groupThermal_tables (s : State) (g : Fin 4) (tj : Int) :
    (s.groupThermal g tj).tables = s.tables := by
  simp [State.groupThermal]

@[simp] theorem State.groupThermalClear_tables (s : State) (g : Fin 4) (tj : Int) :
    (s.groupThermalClear g tj).tables = s.tables :=
  (s.groupThermalClear_touch g tj).tables rfl

@[simp] theorem State.gswFail_tables (s : State) (g : Fin 4) : (s.gswFail g).tables = s.tables := by
  simp [State.gswFail]

@[simp] theorem State.gswReady_tables (s : State) (g : Fin 4) (gapMv : Nat) : (s.gswReady g gapMv).tables = s.tables :=
  (s.gswReady_touch g gapMv).tables rfl

@[simp] theorem State.gswOff_tables (s : State) (g : Fin 4) : (s.gswOff g).tables = s.tables :=
  (s.gswOff_touch g).tables rfl

@[simp] theorem State.vgOffAll_tables (s : State) (g : Fin 4) (same : Bool) :
    (s.vgOffAll g same).tables = s.tables := by
  simp [State.vgOffAll]

@[simp] theorem State.vgClear_tables (s : State) (g : Fin 4) : (s.vgClear g).tables = s.tables :=
  (s.vgClear_touch g).tables rfl

@[simp] theorem State.vgUv_tables (s : State) (g : Fin 4) : (s.vgUv g).tables = s.tables := by simp [State.vgUv]

@[simp] theorem State.vdFall_tables (s : State) (n : Fin 16) (same : Bool) : (s.vdFall n same).tables = s.tables := by
  simp [State.vdFall]

@[simp] theorem State.vdRouted_tables (s : State) (n : Fin 16) (level same : Bool) :
    (s.vdRouted n level same).tables = s.tables := by
  simp [State.vdRouted]

@[simp] theorem State.vdLimpEnter_tables (s : State) (n : Fin 16) (src : Nat) (level same : Bool) :
    (s.vdLimpEnter n src level same).tables = s.tables := by
  simp [State.vdLimpEnter]

@[simp] theorem State.vdOrphanOff_tables (s : State) (n : Fin 16) : (s.vdOrphanOff n).tables = s.tables := by
  simp [State.vdOrphanOff]

@[simp] theorem State.vdProfWrite_tables (s : State) (n : Fin 16) (w : W32) : (s.vdProfWrite n w).tables = s.tables :=
  (s.vdProfWrite_touch n w).tables rfl

@[simp] theorem State.vdProfDone_tables (s : State) (n : Fin 16) : (s.vdProfDone n).tables = s.tables :=
  (s.vdProfDone_touch n).tables rfl

@[simp] theorem State.vgWrite_tables (s : State) (g : Fin 4) (off : Nat) (w : W32) :
    (s.vgWrite g off w).tables = s.tables := by
  unfold State.vgWrite
  split <;> simp

/-! ### Lamp strings: what leaves the tables -/

@[simp] theorem State.lsEmit_tables (s : State) (k : Fin 3) (code : Nat) (arg : W32) :
    (s.lsEmit k code arg).tables = s.tables :=
  (s.lsEmit_touch k code arg).tables rfl

@[simp] theorem State.lsRes_tables (s : State) (k : Fin 3) (r : Nat) : (s.lsRes k r).tables = s.tables :=
  (s.lsRes_touch k r).tables rfl

@[simp] theorem State.lsEnter_tables (s : State) (k : Fin 3) (st : LsSt) : (s.lsEnter k st).tables = s.tables :=
  (s.lsEnter_touch k st).tables rfl

@[simp] theorem State.lsMeasure_tables (s : State) (k : Fin 3) : (s.lsMeasure k).tables = s.tables :=
  (s.lsMeasure_touch k).tables rfl

@[simp] theorem State.lsMark_tables (s : State) (k : Fin 3) (m : Mark) : (s.lsMark k m).tables = s.tables :=
  (s.lsMark_touch k m).tables rfl

@[simp] theorem State.lsRelease_tables (s : State) (k : Fin 3) : (s.lsRelease k).tables = s.tables := by
  simp [State.lsRelease]

@[simp] theorem State.lsRequest_tables (s : State) (k : Fin 3) (prio : Nat) (kind : ReqKind) :
    (s.lsRequest k prio kind).tables = s.tables := by
  simp [State.lsRequest]

@[simp] theorem State.lsWithdraw_tables (s : State) (k : Fin 3) (st : LsSt) :
    (s.lsWithdraw k st).tables = s.tables := by
  simp [State.lsWithdraw]

@[simp] theorem State.lsStop_tables (s : State) (k : Fin 3) (st : LsSt) (cause : Nat) :
    (s.lsStop k st cause).tables = s.tables := by
  simp [State.lsStop]

@[simp] theorem State.lsOnCmd_tables (s : State) (k : Fin 3) (routed : Bool) :
    (s.lsOnCmd k routed).tables = s.tables := by
  unfold State.lsOnCmd
  dsimp only
  split <;> simp

@[simp] theorem State.lsOffCmd_tables (s : State) (k : Fin 3) (cause : Nat) (same : Bool) :
    (s.lsOffCmd k cause same).tables = s.tables := by
  unfold State.lsOffCmd
  dsimp only
  split <;> simp

@[simp] theorem State.lsClearCmd_tables (s : State) (k : Fin 3) : (s.lsClearCmd k).tables = s.tables :=
  (s.lsClearCmd_touch k).tables rfl

@[simp] theorem State.lsSegClr_tables (s : State) (k : Fin 3) (mask : Nat) : (s.lsSegClr k mask).tables = s.tables :=
  (s.lsSegClr_touch k mask).tables rfl

@[simp] theorem State.lsCmdWrite_tables (s : State) (k : Fin 3) (on off clear same : Bool) (segClr : Nat) :
    (s.lsCmdWrite k on off clear same segClr).tables = s.tables := by
  simp [State.lsCmdWrite]

@[simp] theorem State.lsCtlWrite_tables (s : State) (k : Fin 3) (v : W32) (same : Bool) :
    (s.lsCtlWrite k v same).tables = s.tables := by
  unfold State.lsCtlWrite
  dsimp only
  repeat' split
  all_goals simp

@[simp] theorem State.lsGrantArrives_tables (s : State) (k : Fin 3) : (s.lsGrantArrives k).tables = s.tables := by
  simp [State.lsGrantArrives]

@[simp] theorem State.lsDrop_tables (s : State) (k : Fin 3) : (s.lsDrop k).tables = s.tables :=
  (s.lsDrop_touch k).tables rfl

@[simp] theorem State.lsEntry_tables (s : State) (k : Fin 3) : (s.lsEntry k).tables = s.tables := by
  simp [State.lsEntry]

@[simp] theorem State.lsRampEnd_tables (s : State) (k : Fin 3) : (s.lsRampEnd k).tables = s.tables := by
  simp [State.lsRampEnd]

@[simp] theorem State.lsVerify_tables (s : State) (k : Fin 3) : (s.lsVerify k).tables = s.tables :=
  (s.lsVerify_touch k).tables rfl

@[simp] theorem State.lsFrame_tables (s : State) (k : Fin 3) (cycles vOut : Nat) :
    (s.lsFrame k cycles vOut).tables = s.tables :=
  (s.lsFrame_touch k cycles vOut).tables rfl

@[simp] theorem State.lsJudge_tables (s : State) (k : Fin 3) (i : Fin 8) (mv : Nat) :
    (s.lsJudge k i mv).tables = s.tables :=
  (s.lsJudge_touch k i mv).tables rfl

@[simp] theorem State.lsFault_tables (s : State) (k : Fin 3) (cause seg : Nat) (faultBit : W32) :
    (s.lsFault k cause seg faultBit).tables = s.tables := by
  unfold State.lsFault
  dsimp only
  split <;> simp

@[simp] theorem State.lsSegOpen_tables (s : State) (k : Fin 3) (i : Fin 8) (mv ns : Nat) :
    (s.lsSegOpen k i mv ns).tables = s.tables := by
  simp [State.lsSegOpen]

@[simp] theorem State.lsShort_tables (s : State) (k : Fin 3) (buckMa ma us : Nat) :
    (s.lsShort k buckMa ma us).tables = s.tables := by
  simp [State.lsShort]

@[simp] theorem State.lsOpen_tables (s : State) (k : Fin 3) (ma us : Nat) (atLim : Bool) :
    (s.lsOpen k ma us atLim).tables = s.tables := by
  simp [State.lsOpen]

@[simp] theorem State.lsSat_tables (s : State) (k : Fin 3) (ma us : Nat) (atLim : Bool) :
    (s.lsSat k ma us atLim).tables = s.tables :=
  (s.lsSat_touch k ma us atLim).tables rfl

@[simp] theorem State.lsThermal_tables (s : State) (k : Fin 3) (tj : Int) : (s.lsThermal k tj).tables = s.tables := by
  unfold State.lsThermal
  dsimp only
  repeat' split
  all_goals simp

@[simp] theorem State.lsTryRestart_tables (s : State) (k : Fin 3) : (s.lsTryRestart k).tables = s.tables := by
  simp [State.lsTryRestart]

@[simp] theorem State.lsThermalClear_tables (s : State) (k : Fin 3) (tj : Int) :
    (s.lsThermalClear k tj).tables = s.tables := by
  simp [State.lsThermalClear]

@[simp] theorem State.lsUv_tables (s : State) (k : Fin 3) (mv us : Nat) : (s.lsUv k mv us).tables = s.tables := by
  unfold State.lsUv
  dsimp only
  repeat' split
  all_goals simp

@[simp] theorem State.lsBankOk_tables (s : State) (k : Fin 3) (mv us : Nat) :
    (s.lsBankOk k mv us).tables = s.tables := by
  simp [State.lsBankOk]

@[simp] theorem State.lsFall_tables (s : State) (k : Fin 3) (same : Bool) : (s.lsFall k same).tables = s.tables := by
  simp [State.lsFall]

@[simp] theorem State.lsRouted_tables (s : State) (k : Fin 3) (level same : Bool) :
    (s.lsRouted k level same).tables = s.tables := by
  simp [State.lsRouted]

@[simp] theorem State.lsLimpEnter_tables (s : State) (k : Fin 3) (src : Nat) (level same : Bool) :
    (s.lsLimpEnter k src level same).tables = s.tables := by
  simp [State.lsLimpEnter]

@[simp] theorem State.lsOrphanOff_tables (s : State) (k : Fin 3) : (s.lsOrphanOff k).tables = s.tables := by
  simp [State.lsOrphanOff]

@[simp] theorem State.lmpPerWrite_tables (s : State) (per : Nat) : (s.lmpPerWrite per).tables = s.tables :=
  (s.lmpPerWrite_touch per).tables rfl

@[simp] theorem State.lsDimWrite_tables (s : State) (k : Fin 3) (w : W32) : (s.lsDimWrite k w).tables = s.tables :=
  (s.lsDimWrite_touch k w).tables rfl

@[simp] theorem State.lsDimDone_tables (s : State) (k : Fin 3) : (s.lsDimDone k).tables = s.tables :=
  (s.lsDimDone_touch k).tables rfl

/-! ### Load admission: what leaves the tables -/

@[simp] theorem State.admModel_tables (s : State) : s.admModel.tables = s.tables := by
  unfold State.admModel
  dsimp only
  split <;> simp

@[simp] theorem State.admDropLate_tables (s : State) (t now : Nat) : (s.admDropLate t now).tables = s.tables := by
  unfold State.admDropLate
  split <;> simp

@[simp] theorem State.admStep6_tables (s : State) (now : Nat) (m : AdmIn) :
    (State.admStep6 s now m).tables = s.tables := by
  cases m
  case own t prio iCont inrE ms kind =>
    have hclaim : (if t < 48 then s.adm else s.adm.setClaim t (pack [(0, 16, iCont), (16, 16, inrE)])).extClaim =
        s.adm.extClaim := by simp
    simp only [State.admStep6, State.onlyIf_tables, State.fabCount_tables, ite_self]
    exact State.put_adm_tables s (by simp [hclaim])
  case refuse t st =>
    simp only [State.admStep6]
    split <;> simp
  all_goals simp [State.admStep6]

@[simp] theorem State.slotClose_tables (s : State) (i : Fin 16) (now : Nat) :
    (s.slotClose i now).tables = s.tables := by
  simp [State.slotClose]

@[simp] theorem State.slotOff_tables (s : State) (n : Nat) : (s.slotOff n).tables = s.tables := by simp [State.slotOff]

@[simp] theorem State.slotStart_tables (s : State) (i : Fin 16) (now : Nat) :
    (s.slotStart i now).tables = s.tables := by
  simp [State.slotStart]

@[simp] theorem State.slotEnd_tables (s : State) (i : Fin 16) (now : Nat) : (s.slotEnd i now).tables = s.tables := by
  simp [State.slotEnd]

@[simp] theorem State.slotTick_tables (s : State) (i : Fin 16) (now : Nat) : (s.slotTick i now).tables = s.tables := by
  simp [State.slotTick]

@[simp] theorem State.slotLetGo_tables (s : State) (i : Fin 16) : (s.slotLetGo i).tables = s.tables := by
  simp [State.slotLetGo]

@[simp] theorem State.slotCfgWrite_tables (s : State) (i : Fin 16) (v : W32) :
    (s.slotCfgWrite i v).tables = s.tables := by
  simp [State.slotCfgWrite]

@[simp] theorem State.slotsOff_tables (s : State) (which : Slot → Bool) : (s.slotsOff which).tables = s.tables := by
  simp [State.slotsOff]

@[simp] theorem State.slotsOrphan_tables (s : State) : s.slotsOrphan.tables = s.tables := by simp [State.slotsOrphan]

@[simp] theorem State.admDeadlines_tables (s : State) (now : Nat) : (s.admDeadlines now).tables = s.tables :=
  State.foldl_tables (fun x (e : Entry) => x.admDropLate_tables e.target now) _ s

@[simp] theorem State.admShed_tables (s : State) (now : Nat) : (s.admShed now).tables = s.tables := by
  unfold State.admShed
  dsimp only
  split <;> simp

@[simp] theorem State.admGrant_tables (s : State) (e : Entry) : (s.admGrant e).tables = s.tables := by
  simp [State.admGrant]

@[simp] theorem State.admScan_tables (strict : Bool) (n : Nat) (l : List Entry) (s : State) :
    (State.admScan strict n l s).tables = s.tables := by
  induction l generalizing n s with
  | nil => rfl
  | cons e r ih => simp [State.admScan, ih]

@[simp] theorem State.admGrantScan_tables (s : State) (now : Nat) : (s.admGrantScan now).tables = s.tables := by
  simp [State.admGrantScan]

@[simp] theorem State.admOver_tables (s : State) : s.admOver.tables = s.tables := by simp [State.admOver]

@[simp] theorem State.admTickAt_tables (s : State) (t : Nat) (ins : List AdmIn) :
    (s.admTickAt t ins).tables = s.tables := by
  unfold State.admTickAt
  simp [State.foldl_tables]

@[simp] theorem State.admTickFrom_tables (s : State) (due late : Nat) : (s.admTickFrom due late).tables = s.tables := by
  simp [State.admTickFrom]

/-- A message of ADM that reaches its target changes the tables only as what it does there. -/
@[simp] theorem State.deliver_tables (s : State) (t : Nat) (m : ToTgt) {f : State → State}
    (hf : ∀ x, (f x).tables = x.tables) : (s.deliver t m f).tables = s.tables := by
  unfold State.deliver
  split
  · rfl
  · simp [hf]

@[simp] theorem State.admStore_tables (s : State) (c : Fin 4) (m : Nat → AdmIn) :
    (s.admStore c m).tables = s.tables := by
  simp [State.admStore]

@[simp] theorem State.siteLimWrite_tables (s : State) (v : W32) : (s.siteLimWrite v).tables = s.tables := by
  simp [State.siteLimWrite]

/-! ### Inputs and limp home: what leaves the tables -/

@[simp] theorem State.routeTo_tables (s : State) (t : Fin 67) (level same : Bool) :
    (s.routeTo t level same).tables = s.tables := by
  simp [State.routeTo]

@[simp] theorem State.dinChange_tables (s : State) (i : Fin 8) (level : Bool) (half : Nat) (same : Bool) :
    (s.dinChange i level half same).tables = s.tables := by
  simp [State.dinChange]

@[simp] theorem State.routedRepeat_tables (s : State) (t : Fin 67) : (s.routedRepeat t).tables = s.tables := by
  simp [State.routedRepeat]

@[simp] theorem State.limpEnter_tables (s : State) (t : Fin 67) (src : Nat) (same : Bool) :
    (s.limpEnter t src same).tables = s.tables := by
  simp [State.limpEnter]

@[simp] theorem State.limpLeave_tables (s : State) (t : Fin 67) : (s.limpLeave t).tables = s.tables :=
  (s.limpLeave_touch t).tables rfl

@[simp] theorem State.limpRest_tables (s : State) (src : Nat) : (s.limpRest src).tables = s.tables := by
  simp [State.limpRest]

@[simp] theorem State.limpSources_tables (s : State) (src : Nat) (same : Bool) (f : Inp → Inp) :
    (s.limpSources src same f).tables = s.tables := by
  simp [State.limpSources]

@[simp] theorem State.limpPad_tables (s : State) (level : Bool) (ms : Nat) (same : Bool) :
    (s.limpPad level ms same).tables = s.tables := by
  simp [State.limpPad]

@[simp] theorem State.lmapWrite_tables (s : State) (w : Nat) (v : W32) : (s.lmapWrite w v).tables = s.tables :=
  (s.lmapWrite_touch w v).tables rfl

@[simp] theorem State.lmapCmd_tables (s : State) (key : Nat) (commit reload : Bool) :
    (s.lmapCmd key commit reload).tables = s.tables :=
  (s.lmapCmd_touch key commit reload).tables rfl

@[simp] theorem State.lmapDone_tables (s : State) : s.lmapDone.tables = s.tables :=
  s.lmapDone_touch.tables rfl

@[simp] theorem State.siSamples_tables (s : State) (i : Fin 16) (mv : Int) (n : Nat) :
    (s.siSamples i mv n).tables = s.tables :=
  (s.siSamples_touch i mv n).tables rfl

@[simp] theorem State.siPollAll_tables (s : State) (mv : Vector Int 16) : (s.siPollAll mv).tables = s.tables :=
  (s.siPollAll_touch mv).tables rfl

@[simp] theorem State.vl3Cross_tables (s : State) (mv : Nat) : (s.vl3Cross mv).tables = s.tables :=
  (s.vl3Cross_touch mv).tables rfl

@[simp] theorem State.ainConv_tables (s : State) (i : Fin 4) (code : BitVec 12) (ma : Nat) :
    (s.ainConv i code ma).tables = s.tables :=
  (s.ainConv_touch i code ma).tables rfl

@[simp] theorem State.ainCtlWrite_tables (s : State) (v : W32) : (s.ainCtlWrite v).tables = s.tables :=
  (s.ainCtlWrite_touch v).tables rfl

@[simp] theorem State.vsensTrip_tables (s : State) (ma us : Nat) : (s.vsensTrip ma us).tables = s.tables :=
  (s.vsensTrip_touch ma us).tables rfl

@[simp] theorem State.inpWrite_tables (s : State) (off : Nat) (v : W32) : (s.inpWrite off v).tables = s.tables :=
  (s.inpWrite_touch off v).tables rfl

/-! ### Queues: what leaves the tables -/

@[simp] theorem State.modQ_tables (s : State) (q : Fin 32) (f : Queue → Queue) : (s.modQ q f).tables = s.tables :=
  (s.modQ_touch q f).tables rfl

@[simp] theorem State.quePushNow_tables (s : State) (q : Fin 32) (words : List W32) (w32 : Bool) :
    ((State.quePushNow s q words w32).2).tables = s.tables :=
  (s.quePushNow_touch q words w32).tables rfl

@[simp] theorem State.queFwPush_tables (s : State) (q : Fin 32) (v : W32) : (s.queFwPush q v).tables = s.tables :=
  (s.queFwPush_touch q v).tables rfl

@[simp] theorem State.quePushPop_tables (s : State) (q : Fin 32) (v : W32) :
    ((State.quePushPop s q v).2).tables = s.tables :=
  (s.quePushPop_touch q v).tables rfl

@[simp] theorem State.queFwPop_tables (s : State) (q : Fin 32) : ((State.queFwPop s q).2).tables = s.tables :=
  (s.queFwPop_touch q).tables rfl

@[simp] theorem State.queCfgWrite_tables (s : State) (q : Fin 32) (v : W32) : (s.queCfgWrite q v).tables = s.tables :=
  (s.queCfgWrite_touch q v).tables rfl

@[simp] theorem State.queIdle_tables (s : State) (q : Fin 32) : (s.queIdle q).tables = s.tables :=
  (s.queIdle_touch q).tables rfl

@[simp] theorem State.queWrite_tables (s : State) (off : Nat) (v : W32) : (s.queWrite off v).tables = s.tables :=
  (s.queWrite_touch off v).tables rfl

/-! ### Counters and tags: what leaves the tables -/

@[simp] theorem State.pmcDump_tables (s : State) : s.pmcDump.tables = s.tables :=
  s.pmcDump_touch.tables rfl

@[simp] theorem State.modTag_tables (s : State) (c : Fin 4) (f : Tag → Tag) : (s.modTag c f).tables = s.tables :=
  (s.modTag_touch c f).tables rfl

@[simp] theorem State.tagIssue_tables (s : State) (c : Fin 4) : (s.tagIssue c).tables = s.tables :=
  (s.tagIssue_touch c).tables rfl

@[simp] theorem State.pmcWrite_tables (s : State) (off : Nat) (v : W32) : (s.pmcWrite off v).tables = s.tables :=
  (s.pmcWrite_touch off v).tables rfl

/-! ### Chains: what leaves the tables -/

@[simp] theorem State.modLc_tables (s : State) (k : Fin 8) (f : Lc → Lc) : (s.modLc k f).tables = s.tables :=
  (s.modLc_touch k f).tables rfl

@[simp] theorem State.lcEmit_tables (s : State) (k : Fin 8) (code : Nat) (arg : W32) :
    (s.lcEmit k code arg).tables = s.tables :=
  (s.lcEmit_touch k code arg).tables rfl

@[simp] theorem State.lcRes_tables (s : State) (k : Fin 8) (r : Nat) : (s.lcRes k r).tables = s.tables :=
  (s.lcRes_touch k r).tables rfl

@[simp] theorem State.lcGo_tables (s : State) (k : Fin 8) : (s.lcGo k).tables = s.tables :=
  (s.lcGo_touch k).tables rfl

@[simp] theorem State.lcStop_tables (s : State) (k : Fin 8) (reason : Nat) : (s.lcStop k reason).tables = s.tables :=
  (s.lcStop_touch k reason).tables rfl

@[simp] theorem State.lcAbort_tables (s : State) (k : Fin 8) (same : Bool) : (s.lcAbort k same).tables = s.tables :=
  (s.lcAbort_touch k same).tables rfl

@[simp] theorem State.lcSwap_tables (s : State) (k : Fin 8) : (s.lcSwap k).tables = s.tables :=
  (s.lcSwap_touch k).tables rfl

@[simp] theorem State.lcCtlWrite_tables (s : State) (k : Fin 8) (v : W32) : (s.lcCtlWrite k v).tables = s.tables :=
  (s.lcCtlWrite_touch k v).tables rfl

@[simp] theorem State.lcFrameWrite_tables (s : State) (k : Fin 8) (v : W32) : (s.lcFrameWrite k v).tables = s.tables :=
  (s.lcFrameWrite_touch k v).tables rfl

@[simp] theorem State.lcBaseWrite_tables (s : State) (k : Fin 8) (out : Bool) (i : Fin 2) (v : W32) :
    (s.lcBaseWrite k out i v).tables = s.tables :=
  (s.lcBaseWrite_touch k out i v).tables rfl

@[simp] theorem State.lcErr_tables (s : State) (k : Fin 8) (i : Nat) : (s.lcErr k i).tables = s.tables :=
  (s.lcErr_touch k i).tables rfl

@[simp] theorem State.lcFrameStart_tables (s : State) (k : Fin 8) (late : List Nat) :
    (s.lcFrameStart k late).tables = s.tables :=
  (s.lcFrameStart_touch k late).tables rfl

@[simp] theorem State.lcFrameEnd_tables (s : State) (k : Fin 8) : (s.lcFrameEnd k).tables = s.tables :=
  (s.lcFrameEnd_touch k).tables rfl

@[simp] theorem State.lcCompareAll_tables (k : Fin 8) (other pos : Nat) (l : List W8) (s : State) :
    ((State.lcCompareAll k other pos l s)).tables = s.tables :=
  (State.lcCompareAll_touch k other pos l s).tables rfl

@[simp] theorem State.lcRetErr_tables (s : State) (k : Fin 8) (i cause : Nat) :
    (s.lcRetErr k i cause).tables = s.tables :=
  (s.lcRetErr_touch k i cause).tables rfl

@[simp] theorem State.lcRetDone_tables (s : State) (k : Fin 8) (hdr : W32) (n ovr : Nat) (errs : Bool) :
    (s.lcRetDone k hdr n ovr errs).tables = s.tables :=
  (s.lcRetDone_touch k hdr n ovr errs).tables rfl

@[simp] theorem State.lcReturnBegin_tables (s : State) (k : Fin 8) : (s.lcReturnBegin k).tables = s.tables :=
  (s.lcReturnBegin_touch k).tables rfl

@[simp] theorem State.lcStray_tables (s : State) (k : Fin 8) : (s.lcStray k).tables = s.tables :=
  (s.lcStray_touch k).tables rfl

@[simp] theorem State.lcEchoTimeout_tables (s : State) (k : Fin 8) : (s.lcEchoTimeout k).tables = s.tables :=
  (s.lcEchoTimeout_touch k).tables rfl

@[simp] theorem State.lcGlitch_tables (s : State) (k : Fin 8) : (s.lcGlitch k).tables = s.tables :=
  (s.lcGlitch_touch k).tables rfl

@[simp] theorem State.lcOrphan_tables (s : State) (k : Fin 8) : (s.lcOrphan k).tables = s.tables :=
  (s.lcOrphan_touch k).tables rfl

@[simp] theorem State.queRelease_tables (s : State) : s.queRelease.tables = s.tables :=
  s.queRelease_touch.tables rfl

@[simp] theorem State.lchGlobal_tables (s : State) (go stop : Nat) : (s.lchGlobal go stop).tables = s.tables :=
  (s.lchGlobal_touch go stop).tables rfl

@[simp] theorem State.lchWrite_tables (s : State) (off : Nat) (v : W32) : (s.lchWrite off v).tables = s.tables :=
  (s.lchWrite_touch off v).tables rfl

/-! ### Host port: what leaves the tables -/

@[simp] theorem State.hpCsnRow_tables (s : State) : s.hpCsnRow.tables = s.tables :=
  s.hpCsnRow_touch.tables rfl

@[simp] theorem State.hpStart_tables (s : State) (sck : Bool) : (s.hpStart sck).tables = s.tables :=
  (s.hpStart_touch sck).tables rfl

@[simp] theorem State.hpTake_tables (s : State) : s.hpTake.tables = s.tables :=
  s.hpTake_touch.tables rfl

@[simp] theorem State.hpEnd_tables (s : State) (bs : List W8) (take : Bool) : (s.hpEnd bs take).tables = s.tables :=
  (s.hpEnd_touch bs take).tables rfl

@[simp] theorem State.hpTransaction_tables (s : State) (bs : List W8) : (s.hpTransaction bs).tables = s.tables :=
  (s.hpTransaction_touch bs).tables rfl

@[simp] theorem State.hpWrite_tables (s : State) (off : Nat) (v : W32) : (s.hpWrite off v).tables = s.tables :=
  (s.hpWrite_touch off v).tables rfl

/-! ### Plant link: what leaves the tables -/

@[simp] theorem State.descRead_tables (s : State) (a : Nat) : ((State.descRead s a).2).tables = s.tables :=
  (s.descRead_touch a).tables rfl

@[simp] theorem State.plkHold_tables (s : State) (op : PlkOp) : (s.plkHold op).tables = s.tables :=
  (s.plkHold_touch op).tables rfl

@[simp] theorem State.txLook_tables (s : State) : s.txLook.tables = s.tables :=
  s.txLook_touch.tables rfl

@[simp] theorem State.rxLook_tables (s : State) : s.rxLook.tables = s.tables :=
  s.rxLook_touch.tables rfl

@[simp] theorem State.plcaChange_tables (s : State) (st : Bool) : (s.plcaChange st).tables = s.tables :=
  (s.plcaChange_touch st).tables rfl

@[simp] theorem State.plkCfgWrite_tables (s : State) (f : Plk → Plk) : (s.plkCfgWrite f).tables = s.tables :=
  (s.plkCfgWrite_touch f).tables rfl

/-! ### Resets: what leaves the tables -/

@[simp] theorem State.restartBlocks_tables (s : State) : s.restartBlocks.tables = s.tables := by
  simp [State.restartBlocks]

@[simp] theorem State.entryRefuse_tables (s : State) (code cause unit : Nat) :
    (s.entryRefuse code cause unit).tables = s.tables := by
  simp [State.entryRefuse]

@[simp] theorem State.orphanOff_tables (s : State) (t : Fin 67) : (s.orphanOff t).tables = s.tables := by
  simp [State.orphanOff]

@[simp] theorem State.orphanExpire_tables (s : State) : s.orphanExpire.tables = s.tables := by simp [State.orphanExpire]

@[simp] theorem State.orphanStart_tables (s : State) : s.orphanStart.tables = s.tables := by simp [State.orphanStart]

@[simp] theorem State.orphanDue_tables (s : State) : s.orphanDue.tables = s.tables := by
  unfold State.orphanDue
  split <;> simp

@[simp] theorem State.orphanReclaim_tables (s : State) : s.orphanReclaim.tables = s.tables := by
  simp [State.orphanReclaim]

@[simp] theorem State.coreIslandReset_tables (s : State) (bank : Nat) : (s.coreIslandReset bank).tables = s.tables :=
  (s.coreIslandReset_touch bank).tables rfl

@[simp] theorem State.cpReset_tables (s : State) (cause : Nat) (wd : Option Nat) :
    (s.cpReset cause wd).tables = s.tables := by
  simp [State.cpReset]

@[simp] theorem State.returnDone_tables (s : State) : s.returnDone.tables = s.tables :=
  s.returnDone_touch.tables rfl

@[simp] theorem State.depLimp_tables (s : State) (on : Bool) : (s.depLimp on).tables = s.tables := by
  simp [State.depLimp]

/-! ### The Deputy: what leaves the tables -/

@[simp] theorem State.rollback_tables (s : State) (cause : Nat) : (s.rollback cause).tables = s.tables :=
  (s.rollback_touch cause).tables rfl

@[simp] theorem State.wdReset_tables (s : State) (cause : Nat) : (s.wdReset cause).tables = s.tables := by
  simp [State.wdReset]

@[simp] theorem State.wdKick_tables (s : State) (c : Fin 4) (key : Nat) : (s.wdKick c key).tables = s.tables := by
  unfold State.wdKick
  split
  · rfl
  · dsimp only
    repeat' split
    all_goals simp

@[simp] theorem State.wdExpire_tables (s : State) : s.wdExpire.tables = s.tables := by
  unfold State.wdExpire
  split <;> simp

@[simp] theorem State.wdWarn_tables (s : State) : s.wdWarn.tables = s.tables :=
  s.wdWarn_touch.tables rfl

@[simp] theorem State.wdHoldEnd_tables (s : State) : s.wdHoldEnd.tables = s.tables :=
  s.wdHoldEnd_touch.tables rfl

@[simp] theorem State.wdCfgWrite_tables (s : State) (v : W32) : (s.wdCfgWrite v).tables = s.tables :=
  (s.wdCfgWrite_touch v).tables rfl

@[simp] theorem State.trialTimeout_tables (s : State) : s.trialTimeout.tables = s.tables := by
  unfold State.trialTimeout
  split <;> simp

@[simp] theorem State.mgmtReset_tables (s : State) : s.mgmtReset.tables = s.tables :=
  s.mgmtReset_touch.tables rfl

@[simp] theorem State.isoMeasure_tables (s : State) (r : Nat) : (s.isoMeasure r).tables = s.tables :=
  (s.isoMeasure_touch r).tables rfl

@[simp] theorem State.logData_tables (s : State) (src : Nat) : ((State.logData s src).2).tables = s.tables :=
  (s.logData_touch src).tables rfl

@[simp] theorem State.depRecord_tables (s : State) (e : EvRec) : (s.depRecord e).tables = s.tables := by
  simp [State.depRecord]

@[simp] theorem State.depEvent_tables (s : State) (i : Nat) : (s.depEvent i).tables = s.tables := by
  unfold State.depEvent
  dsimp only
  split <;> simp

@[simp] theorem State.logFlash_tables (s : State) : s.logFlash.tables = s.tables :=
  s.logFlash_touch.tables rfl

@[simp] theorem State.lifeSnapshot_tables (s : State) : s.lifeSnapshot.tables = s.tables :=
  s.lifeSnapshot_touch.tables rfl

@[simp] theorem State.lifeTj_tables (s : State) : s.lifeTj.tables = s.tables :=
  s.lifeTj_touch.tables rfl

@[simp] theorem State.lifeRecompute_tables (s : State) : s.lifeRecompute.tables = s.tables :=
  s.lifeRecompute_touch.tables rfl

/-! ### Mailbox and update: what leaves the tables -/

@[simp] theorem State.mbxSlotStore_tables (s : State) (i : Fin 64) (w : Nat) (v : W32) :
    (s.mbxSlotStore i w v).tables = s.tables :=
  (s.mbxSlotStore_touch i w v).tables rfl

@[simp] theorem State.mbxPost_tables (s : State) (c : Fin 4) (slot : Fin 32) : (s.mbxPost c slot).tables = s.tables :=
  (s.mbxPost_touch c slot).tables rfl

@[simp] theorem State.rspAck_tables (s : State) (slot : Nat) : (s.rspAck slot).tables = s.tables :=
  (s.rspAck_touch slot).tables rfl

@[simp] theorem State.mbxAnswer_tables (s : State) (hdr : W32) (status : Nat) (ws : List W32) :
    (s.mbxAnswer hdr status ws).tables = s.tables :=
  (s.mbxAnswer_touch hdr status ws).tables rfl

@[simp] theorem State.mbxPop_tables (s : State) (i : Fin 32) (rest : List (Fin 32)) :
    (s.mbxPop i rest).tables = s.tables :=
  (s.mbxPop_touch i rest).tables rfl

@[simp] theorem State.mbxSkipBad_tables (n : Nat) (s : State) : ((State.mbxSkipBad n s)).tables = s.tables :=
  (State.mbxSkipBad_touch n s).tables rfl

@[simp] theorem State.mbxTake_tables (s : State) (op : Nat) {f : W32 → List W32 → Nat → State → State}
    (hf : ∀ h l n x, (f h l n x).tables = x.tables) : (s.mbxTake op f).tables = s.tables := by
  unfold State.mbxTake
  dsimp only
  split
  · split
    · simp
    · simp [hf]
  · rfl

@[simp] theorem State.opCheckIn_tables (s : State) : s.opCheckIn.tables = s.tables :=
  s.opCheckIn_touch.tables rfl

@[simp] theorem State.opLimpSet_tables (s : State) : s.opLimpSet.tables = s.tables := by simp [State.opLimpSet]

@[simp] theorem State.opLimpRelease_tables (s : State) : s.opLimpRelease.tables = s.tables := by
  simp [State.opLimpRelease]

@[simp] theorem State.opLogWrite_tables (s : State) : s.opLogWrite.tables = s.tables :=
  s.opLogWrite_touch.tables rfl

@[simp] theorem State.opLogRead_tables (s : State) : s.opLogRead.tables = s.tables :=
  s.opLogRead_touch.tables rfl

@[simp] theorem State.opLogFilter_tables (s : State) : s.opLogFilter.tables = s.tables :=
  s.opLogFilter_touch.tables rfl

@[simp] theorem State.opLifeRead_tables (s : State) : s.opLifeRead.tables = s.tables :=
  s.opLifeRead_touch.tables rfl

@[simp] theorem State.opTrendRead_tables (s : State) : s.opTrendRead.tables = s.tables :=
  s.opTrendRead_touch.tables rfl

@[simp] theorem State.opTempLimit_tables (s : State) : s.opTempLimit.tables = s.tables :=
  s.opTempLimit_touch.tables rfl

@[simp] theorem State.opUpdBegin_tables (s : State) : s.opUpdBegin.tables = s.tables :=
  s.opUpdBegin_touch.tables rfl

@[simp] theorem State.opUpdWrite_tables (s : State) : s.opUpdWrite.tables = s.tables :=
  s.opUpdWrite_touch.tables rfl

@[simp] theorem State.opUpdVerify_tables (s : State) : s.opUpdVerify.tables = s.tables :=
  s.opUpdVerify_touch.tables rfl

@[simp] theorem State.opUpdActivate_tables (s : State) : s.opUpdActivate.tables = s.tables :=
  s.opUpdActivate_touch.tables rfl

@[simp] theorem State.opUpdAbort_tables (s : State) : s.opUpdAbort.tables = s.tables :=
  s.opUpdAbort_touch.tables rfl

@[simp] theorem State.opKeyRevoke_tables (s : State) : s.opKeyRevoke.tables = s.tables :=
  s.opKeyRevoke_touch.tables rfl

@[simp] theorem State.opDbgClose_tables (s : State) : s.opDbgClose.tables = s.tables :=
  s.opDbgClose_touch.tables rfl

@[simp] theorem State.opDbgLock_tables (s : State) : s.opDbgLock.tables = s.tables :=
  s.opDbgLock_touch.tables rfl

@[simp] theorem State.mbxWrite_tables (s : State) (c : Fin 4) (off : Nat) (v : W32) :
    (s.mbxWrite c off v).tables = s.tables := by
  simp [State.mbxWrite]

/-! ### CAN: what leaves the tables -/

@[simp] theorem State.canReq_tables (s : State) (c : Fin 4) (m : Fin 128) : (s.canReq c m).tables = s.tables :=
  (s.canReq_touch c m).tables rfl

@[simp] theorem State.canAbort_tables (s : State) (c : Fin 4) (m : Fin 128) : (s.canAbort c m).tables = s.tables :=
  (s.canAbort_touch c m).tables rfl

@[simp] theorem State.canAbortAll_tables (s : State) (c : Fin 4) : (s.canAbortAll c).tables = s.tables :=
  (s.canAbortAll_touch c).tables rfl

@[simp] theorem State.canSnap_tables (s : State) (c : Fin 4) (m : Fin 128) : (s.canSnap c m).tables = s.tables :=
  (s.canSnap_touch c m).tables rfl

@[simp] theorem State.canClr_tables (s : State) (c : Fin 4) (m : Fin 128) : (s.canClr c m).tables = s.tables :=
  (s.canClr_touch c m).tables rfl

@[simp] theorem State.canCtlWrite_tables (s : State) (c : Fin 4) (v : W32) : (s.canCtlWrite c v).tables = s.tables :=
  (s.canCtlWrite_touch c v).tables rfl

@[simp] theorem State.canTiming_tables (s : State) (c : Fin 4) (which : Fin 3) (v : W32) :
    (s.canTiming c which v).tables = s.tables :=
  (s.canTiming_touch c which v).tables rfl

@[simp] theorem State.canIntegrated_tables (s : State) (c : Fin 4) : (s.canIntegrated c).tables = s.tables :=
  (s.canIntegrated_touch c).tables rfl

@[simp] theorem State.canArbitrate_tables (s : State) (c : Fin 4) (other : Bool) :
    (s.canArbitrate c other).tables = s.tables :=
  (s.canArbitrate_touch c other).tables rfl

@[simp] theorem State.canTxSuccess_tables (s : State) (c : Fin 4) (delay : Nat) :
    (s.canTxSuccess c delay).tables = s.tables :=
  (s.canTxSuccess_touch c delay).tables rfl

@[simp] theorem State.canArbLost_tables (s : State) (c : Fin 4) : (s.canArbLost c).tables = s.tables :=
  (s.canArbLost_touch c).tables rfl

@[simp] theorem State.canError_tables (s : State) (c : Fin 4) (ty0 : Nat) (data arb exempt heavy : Bool) (delay : Nat) :
    (s.canError c ty0 data arb exempt heavy delay).tables = s.tables :=
  (s.canError_touch c ty0 data arb exempt heavy delay).tables rfl

@[simp] theorem State.canBusOn_tables (s : State) (c : Fin 4) (n : Nat) : (s.canBusOn c n).tables = s.tables :=
  (s.canBusOn_touch c n).tables rfl

@[simp] theorem State.canReceive_tables (s : State) (c : Fin 4) (w0 w1 : W32) (data : List W8) (us : Nat) :
    (s.canReceive c w0 w1 data us).tables = s.tables :=
  (s.canReceive_touch c w0 w1 data us).tables rfl

@[simp] theorem State.canRel_tables (s : State) (c : Fin 4) (j : Fin 2) (r : Nat) :
    (s.canRel c j r).tables = s.tables :=
  (s.canRel_touch c j r).tables rfl

@[simp] theorem State.canFlush_tables (s : State) (c : Fin 4) (j : Fin 2) : (s.canFlush c j).tables = s.tables :=
  (s.canFlush_touch c j).tables rfl

@[simp] theorem State.canForget_tables (s : State) (c : Fin 4) : (s.canForget c).tables = s.tables :=
  (s.canForget_touch c).tables rfl

@[simp] theorem State.canWrite_tables (s : State) (c : Fin 4) (off : Nat) (v : W32) :
    (s.canWrite c off v).tables = s.tables :=
  (s.canWrite_touch c off v).tables rfl

/-! ### Network management: what leaves the tables -/

@[simp] theorem State.nmDeferred_tables (s : State) (c : Fin 4) : (s.nmDeferred c).tables = s.tables :=
  (s.nmDeferred_touch c).tables rfl

@[simp] theorem State.nmStage1Done_tables (s : State) (c : Fin 4) : (s.nmStage1Done c).tables = s.tables :=
  (s.nmStage1Done_touch c).tables rfl

@[simp] theorem State.trxComplete_tables (s : State) (c : Fin 4) : (s.trxComplete c).tables = s.tables :=
  (s.trxComplete_touch c).tables rfl

@[simp] theorem State.nmCtlWrite_tables (s : State) (c : Fin 4) (v : W32) : (s.nmCtlWrite c v).tables = s.tables :=
  (s.nmCtlWrite_touch c v).tables rfl

@[simp] theorem State.nmOnline_tables (s : State) (c : Fin 4) : (s.nmOnline c).tables = s.tables :=
  (s.nmOnline_touch c).tables rfl

@[simp] theorem State.nmNsClr_tables (s : State) (c : Fin 4) : (s.nmNsClr c).tables = s.tables :=
  (s.nmNsClr_touch c).tables rfl

@[simp] theorem State.trxWrite_tables (s : State) (c : Fin 4) (v : W32) : (s.trxWrite c v).tables = s.tables :=
  (s.trxWrite_touch c v).tables rfl

@[simp] theorem State.trxWup_tables (s : State) (c : Fin 4) (d1 r d2 total : Nat) :
    (s.trxWup c d1 r d2 total).tables = s.tables :=
  (s.trxWup_touch c d1 r d2 total).tables rfl

@[simp] theorem State.trxBiasOff_tables (s : State) (c : Fin 4) (us : Nat) : (s.trxBiasOff c us).tables = s.tables :=
  (s.trxBiasOff_touch c us).tables rfl

@[simp] theorem State.trxFault_tables (s : State) (c : Fin 4) (txd vcc : Bool) :
    (s.trxFault c txd vcc).tables = s.tables :=
  (s.trxFault_touch c txd vcc).tables rfl

@[simp] theorem State.trxTxd_tables (s : State) (c : Fin 4) (dom : Bool) (us : Nat) :
    (s.trxTxd c dom us).tables = s.tables :=
  (s.trxTxd_touch c dom us).tables rfl

@[simp] theorem State.nmDecoded_tables (s : State) (c : Fin 4) (ok : Bool) (w0 w1 : W32) (data : List W8) :
    (s.nmDecoded c ok w0 w1 data).tables = s.tables :=
  (s.nmDecoded_touch c ok w0 w1 data).tables rfl

@[simp] theorem State.nmKaExpiry_tables (s : State) (c : Fin 4) : (s.nmKaExpiry c).tables = s.tables :=
  (s.nmKaExpiry_touch c).tables rfl

@[simp] theorem State.nmIdleExpiry_tables (s : State) (c : Fin 4) : (s.nmIdleExpiry c).tables = s.tables :=
  (s.nmIdleExpiry_touch c).tables rfl

@[simp] theorem State.nmFwExpiry_tables (s : State) (c : Fin 4) : (s.nmFwExpiry c).tables = s.tables :=
  (s.nmFwExpiry_touch c).tables rfl

@[simp] theorem State.nmStreakEnd_tables (s : State) (c : Fin 4) (i : Fin 64) : (s.nmStreakEnd c i).tables = s.tables :=
  (s.nmStreakEnd_touch c i).tables rfl

@[simp] theorem State.nmWrite_tables (s : State) (off : Nat) (v : W32) : (s.nmWrite off v).tables = s.tables :=
  (s.nmWrite_touch off v).tables rfl

@[simp] theorem State.nmRcClear_tables (s : State) (off : Nat) : (s.nmRcClear off).tables = s.tables :=
  (s.nmRcClear_touch off).tables rfl

/-! ### Power states: what leaves the tables -/

@[simp] theorem State.pwrRequest_tables (s : State) (key target : Nat) : (s.pwrRequest key target).tables = s.tables :=
  (s.pwrRequest_touch key target).tables rfl

@[simp] theorem State.enterOff_tables (s : State) (cause : Nat) : (s.enterOff cause).tables = s.tables :=
  (s.enterOff_touch cause).tables rfl

@[simp] theorem State.nextStage_tables (s : State) : s.nextStage.tables = s.tables :=
  s.nextStage_touch.tables rfl

@[simp] theorem State.qtmoTimeout_tables (s : State) : s.qtmoTimeout.tables = s.tables := by
  unfold State.qtmoTimeout
  split
  · split <;> simp
  · rfl

@[simp] theorem State.stageTimeout_tables (s : State) : s.stageTimeout.tables = s.tables := by simp [State.stageTimeout]

@[simp] theorem State.logicMap_tables (s : State) : s.logicMap.tables = s.tables :=
  s.logicMap_touch.tables rfl

@[simp] theorem State.freshTarget_tables (s : State) (t : Fin 67) : (s.freshTarget t).tables = s.tables :=
  (s.freshTarget_touch t).tables rfl

@[simp] theorem State.wakeNeeds_tables (s : State) : s.wakeNeeds.tables = s.tables :=
  s.wakeNeeds_touch.tables rfl

@[simp] theorem State.stepTimeout_tables (s : State) : s.stepTimeout.tables = s.tables :=
  s.stepTimeout_touch.tables rfl

@[simp] theorem State.holdRelease_tables (s : State) (v : W32) : (s.holdRelease v).tables = s.tables :=
  (s.holdRelease_touch v).tables rfl

@[simp] theorem State.mainsChange_tables (s : State) (ok dc : Bool) : (s.mainsChange ok dc).tables = s.tables :=
  (s.mainsChange_touch ok dc).tables rfl

@[simp] theorem State.vbkChange_tables (s : State) (ok : Bool) (v : Nat) : (s.vbkChange ok v).tables = s.tables :=
  (s.vbkChange_touch ok v).tables rfl

@[simp] theorem State.sourceChange_tables (s : State) : s.sourceChange.tables = s.tables :=
  s.sourceChange_touch.tables rfl

@[simp] theorem State.brownOut_tables (s : State) : s.brownOut.tables = s.tables :=
  s.brownOut_touch.tables rfl

@[simp] theorem State.rstnAssert_tables (s : State) : s.rstnAssert.tables = s.tables := by simp [State.rstnAssert]

@[simp] theorem State.rstnRelease_tables (s : State) : s.rstnRelease.tables = s.tables :=
  s.rstnRelease_touch.tables rfl

@[simp] theorem State.pwrWrite_tables (s : State) (off : Nat) (v : W32) : (s.pwrWrite off v).tables = s.tables :=
  (s.pwrWrite_touch off v).tables rfl

@[simp] theorem State.pwrRcClear_tables (s : State) (off : Nat) : (s.pwrRcClear off).tables = s.tables :=
  (s.pwrRcClear_touch off).tables rfl

/-! ### Register fabric and events: what leaves the tables -/

@[simp] theorem State.uvCfgWrite_tables (s : State) (b : Fin 4) (v : W32) : (s.uvCfgWrite b v).tables = s.tables :=
  (s.uvCfgWrite_touch b v).tables rfl

@[simp] theorem State.hsAllOff_tables (s : State) (same : Bool) : (s.hsAllOff same).tables = s.tables := by
  simp [State.hsAllOff]

@[simp] theorem State.hscWrite_tables (s : State) (off : Nat) (v : W32) : (s.hscWrite off v).tables = s.tables := by
  simp [State.hscWrite]

@[simp] theorem State.measWrite_tables (s : State) (off : Nat) (v : W32) : (s.measWrite off v).tables = s.tables :=
  (s.measWrite_touch off v).tables rfl

@[simp] theorem State.tmbAlarm_tables (s : State) : s.tmbAlarm.tables = s.tables :=
  s.tmbAlarm_touch.tables rfl

@[simp] theorem State.tmbWrap_tables (s : State) : s.tmbWrap.tables = s.tables :=
  s.tmbWrap_touch.tables rfl

@[simp] theorem State.peakClear_tables (s : State) (t : Fin 67) : (s.peakClear t).tables = s.tables :=
  (s.peakClear_touch t).tables rfl

@[simp] theorem State.regAfter_tables (s : State) (c : Fin 4) (b off : Nat) :
    (s.regAfter c b off).tables = s.tables := by
  unfold State.regAfter
  split <;> simp

@[simp] theorem State.regTake_tables (s : State) (c : Fin 4) (b off : Nat) :
    ((State.regTake s c b off).2).tables = s.tables := by
  unfold State.regTake
  split <;> simp

@[simp] theorem State.served_tables (s : State) (c : Fin 4) : (s.served c).tables = s.tables :=
  (s.served_touch c).tables rfl

@[simp] theorem State.unserved_tables (s : State) (c : Fin 4) : (s.unserved c).tables = s.tables :=
  (s.unserved_touch c).tables rfl

@[simp] theorem State.store_tables (s : State) (c : Fin 4) (isl : Nat) {f : State → State}
    (hf : ∀ x, (f x).tables = x.tables) : (s.store c isl f).tables = s.tables := by
  simp [State.store, hf]

@[simp] theorem State.loadReg_tables (s : State) (c : Fin 4) (b off : Nat) : (s.loadReg c b off).tables = s.tables := by
  simp [State.loadReg]

@[simp] theorem State.depRead_tables (s : State) (b off : Nat) : (s.depRead b off).tables = s.tables :=
  (s.depRead_touch b off).tables rfl

/-! ### Execution on a core: what leaves the tables -/

@[simp] theorem State.memServed_tables (s : State) (c : Fin 4) (p : Nat) (kind : Kind) :
    (s.memServed c p kind).tables = s.tables :=
  (s.memServed_touch c p kind).tables rfl

@[simp] theorem State.coreTrap_tables (s : State) (c : Fin 4) (t : Trap) : ((s.coreTrap c t)).tables = s.tables :=
  (s.coreTrap_touch c t).tables rfl

@[simp] theorem State.intEntry_tables (s : State) (c : Fin 4) (l : Nat) : (s.intEntry c l).tables = s.tables :=
  (s.intEntry_touch c l).tables rfl

@[simp] theorem State.retire_tables (s : State) (c : Fin 4) (k : Core) (op : CoreOp) (pass : Bool) :
    (s.retire c k op pass).tables = s.tables :=
  (s.retire_touch c k op pass).tables rfl

@[simp] theorem State.tagEnd_tables (s : State) (s0 : State) (c : Fin 4) (k : Core) (p : Nat) (op : CoreOp) (pass : Bool)
    (vec : Option Nat) :
    (s.tagEnd s0 c k p op pass vec).tables = s.tables :=
  (s.tagEnd_touch s0 c k p op pass vec).tables rfl

/-! ### System operations of a core: what leaves the tables -/

@[simp] theorem State.waitResume_tables (s : State) (c : Fin 4) : (s.waitResume c).tables = s.tables :=
  (s.waitResume_touch c).tables rfl

@[simp] theorem State.intAccept_tables (s : State) (c : Fin 4) : (s.intAccept c).tables = s.tables :=
  (s.intAccept_touch c).tables rfl

@[simp] theorem State.coreEvent_tables (s : State) (c : Fin 4) (i : Nat) : (s.coreEvent c i).tables = s.tables :=
  (s.coreEvent_touch c i).tables rfl

@[simp] theorem State.selPut_tables (s : State) (c : Fin 4) (n : Nat) (v : W16) : (s.selPut c n v).tables = s.tables :=
  (s.selPut_touch c n v).tables rfl

/-! ### Words of the control cores: what leaves the tables -/

@[simp] theorem State.tagSelectRow_tables (s : State) (x : Fin 4) : (s.tagSelectRow x).tables = s.tables :=
  (s.tagSelectRow_touch x).tables rfl

/-! ### What command rows share: what leaves the tables -/

@[simp] theorem State.storeIf_tables (s : State) (c : Fin 4) (isl g : Nat) {f : State → State}
    (hf : ∀ x, (f x).tables = x.tables) : (s.storeIf c isl g f).tables = s.tables := by
  simp [State.storeIf, hf]

@[simp] theorem State.misaligned_tables (s : State) : s.misaligned.tables = s.tables :=
  s.misaligned_touch.tables rfl

@[simp] theorem State.regReadRow_tables (s : State) (c : Fin 4) (b off : Nat) :
    (s.regReadRow c b off).tables = s.tables := by
  simp [State.regReadRow]

@[simp] theorem State.quePopRow_tables (s : State) (c : Fin 4) (q : Fin 32) (push : Option W32) :
    (s.quePopRow c q push).tables = s.tables := by
  unfold State.quePopRow
  dsimp only
  repeat' split
  all_goals simp

@[simp] theorem State.queFlushRow_tables (s : State) (c : Fin 4) (q : Fin 32) (push : Option W32) :
    (s.queFlushRow c q push).tables = s.tables :=
  (s.queFlushRow_touch c q push).tables rfl

@[simp] theorem State.latchRow_tables (s : State) (r : Fin 5) (b off : Nat) :
    (s.latchRow r b off).tables = s.tables := by
  simp [State.latchRow]

@[simp] theorem State.hsEntryRow_tables (s : State) (n : Fin 48) : (s.hsEntryRow n).tables = s.tables := by
  simp [State.hsEntryRow]

@[simp] theorem State.cpResetRow_tables (s : State) (cause : Fin 4) : (s.cpResetRow cause).tables = s.tables := by
  unfold State.cpResetRow
  repeat' split
  all_goals simp

@[simp] theorem State.bankUv_tables (s : State) (b : Fin 4) (mv us : Nat) : (s.bankUv b mv us).tables = s.tables := by
  simp [State.bankUv]

@[simp] theorem State.bankRecover_tables (s : State) (b : Fin 4) (mv us : Nat) :
    (s.bankRecover b mv us).tables = s.tables := by
  simp [State.bankRecover]

@[simp] theorem State.clampEndRow_tables (s : State) (n : Fin 48) (cycles : Nat) :
    (s.clampEndRow n cycles).tables = s.tables := by
  unfold State.clampEndRow
  split <;> simp

@[simp] theorem State.sampleRow_tables (s : State) (t : Fin 67) (raw tj : Int) (top : Nat) :
    (s.sampleRow t raw tj top).tables = s.tables :=
  (s.sampleRow_touch t raw tj top).tables rfl

@[simp] theorem State.deadlineTick_tables (s : State) : s.deadlineTick.tables = s.tables := by
  unfold State.deadlineTick
  split <;> simp

@[simp] theorem State.siteStaleTick_tables (s : State) : s.siteStaleTick.tables = s.tables := by
  simp [State.siteStaleTick]

@[simp] theorem State.sensorStaleTick_tables (s : State) : s.sensorStaleTick.tables = s.tables := by
  unfold State.sensorStaleTick
  split <;> simp

@[simp] theorem State.periodTick_tables (s : State) (i : Fin 16) : (s.periodTick i).tables = s.tables := by
  simp [State.periodTick]

@[simp] theorem State.windowTick_tables (s : State) (i : Fin 16) : (s.windowTick i).tables = s.tables := by
  simp [State.windowTick]

@[simp] theorem State.sensorCopy_tables (s : State) (mv : Vector Nat 4) (tbp : Int) :
    (s.sensorCopy mv tbp).tables = s.tables := by
  simp [State.sensorCopy]

@[simp] theorem State.cntOvf_tables (s : State) (i : Fin 48) (same : Bool) : (s.cntOvf i same).tables = s.tables :=
  (s.cntOvf_touch i same).tables rfl

@[simp] theorem State.sensorRow_tables (s : State) (q : Fin 20) (x : Int) (hz : Nat) (dc : Bool) :
    (s.sensorRow q x hz dc).tables = s.tables :=
  (s.sensorRow_touch q x hz dc).tables rfl

@[simp] theorem State.wakeRow_tables (s : State) (src : Fin 15) : (s.wakeRow src).tables = s.tables :=
  (s.wakeRow_touch src).tables rfl

@[simp] theorem State.trimLock_tables (s : State) : s.trimLock.tables = s.tables :=
  s.trimLock_touch.tables rfl

/-! ### What writes a table keeps it canonical -/

/-- The canonical form, as a property of the three tables. -/
def TablesCanonical (x : List Host.Cell × Sparse W32 × Sparse W32) : Prop :=
  Memory.wf x.1 ∧ swf (fun _ => (0 : W32)) x.2.1 = true ∧ swf (fun _ => (0 : W32)) x.2.2 = true

theorem State.canonical_iff (s : State) : s.canonical ↔ TablesCanonical s.tables := Iff.rfl

@[simp] theorem TablesCanonical_ite {c : Prop} [Decidable c] (x y : List Host.Cell × Sparse W32 × Sparse W32) :
    TablesCanonical (if c then x else y) = if c then TablesCanonical x else TablesCanonical y :=
  apply_ite TablesCanonical c x y

@[simp] theorem TablesCanonical_dite {c : Prop} [Decidable c] (x : c → List Host.Cell × Sparse W32 × Sparse W32)
    (y : ¬c → List Host.Cell × Sparse W32 × Sparse W32) :
    TablesCanonical (if h : c then x h else y h) = if h : c then TablesCanonical (x h) else TablesCanonical (y h) :=
  apply_dite TablesCanonical c x y

theorem TablesCanonical.foldl {α β : Type} {g : β → State} {f : β → α → β}
    (hf : ∀ b a, TablesCanonical (g b).tables → TablesCanonical (g (f b a)).tables) (l : List α) (b : β)
    (h : TablesCanonical (g b).tables) : TablesCanonical (g (l.foldl f b)).tables := by
  induction l generalizing b with
  | nil => exact h
  | cons a r ih => exact ih _ (hf b a h)

/-- Of the tables only memory may differ, and its form is kept. -/
theorem TablesCanonical.of_mem {s t : State} (h : TablesCanonical s.tables) (hmem : Memory.wf s.mem → Memory.wf t.mem)
    (hcurve : t.curve = s.curve) (hadm : t.adm = s.adm) : TablesCanonical t.tables := by
  obtain ⟨m, c, a⟩ := h
  unfold TablesCanonical State.tables
  rw [hcurve, hadm]
  exact ⟨hmem m, c, a⟩

section
variable {s : State} (h : TablesCanonical s.tables)
include h

@[simp] theorem State.storeBytes_canonical (a v n : Nat) (req : Req) :
    TablesCanonical (s.storeBytes a v n req).2.tables :=
  h.of_mem (s.storeBytes_wf a v n req) ((s.storeBytes_touch a v n req).same .curve (by decide))
    ((s.storeBytes_touch a v n req).same .adm (by decide))

@[simp] theorem State.storeWords_canonical (req : Req) (a : Nat) (l : List Nat) :
    TablesCanonical (State.storeWords req a l s).tables :=
  h.of_mem (State.storeWords_wf req l a s) ((State.storeWords_touch req a l s).same .curve (by decide))
    ((State.storeWords_touch req a l s).same .adm (by decide))

@[simp] theorem State.storeStream_canonical (req : Req) (a : Nat) (l : List W8) :
    TablesCanonical (State.storeStream req a l s).tables :=
  h.of_mem (State.storeStream_wf req l a s) ((State.storeStream_touch req a l s).same .curve (by decide))
    ((State.storeStream_touch req a l s).same .adm (by decide))

@[simp] theorem State.storeRecs_canonical (a : Nat) (l : List W16) : TablesCanonical (State.storeRecs a l s).tables := by
  induction a, l, s using State.storeRecs.induct with
  | case1 a x y r s ih => exact ih (by simp [h])
  | case2 a x s => simp [State.storeRecs, h]
  | case3 a s => exact h

@[simp] theorem State.curveWrite_canonical (i : Nat) (v : W32) : TablesCanonical (s.curveWrite i v).tables := by
  unfold State.curveWrite
  split
  · simpa using h
  · obtain ⟨m, c, a⟩ := h
    exact ⟨m, curve_wf _ i v c, a⟩

@[simp] theorem State.curveBlockWrite_canonical (off : Nat) (v : W32) :
    TablesCanonical (s.curveBlockWrite off v).tables := by
  simp [State.curveBlockWrite, h]

/-! ### Digitisers, channels, valves, strings -/

@[simp] theorem State.capWrite_canonical (t : Fin 67) (k : Nat) : TablesCanonical (s.capWrite t k).tables := by
  simp [State.capWrite, h]

@[simp] theorem State.capBurst_canonical (t : Fin 67) : TablesCanonical (s.capBurst t).tables := by
  simp [State.capBurst, h]

@[simp] theorem State.capDisarm_canonical (t : Fin 67) : TablesCanonical (s.capDisarm t).tables := by
  unfold State.capDisarm
  dsimp only
  split <;> simp [h]

@[simp] theorem State.digWrite_canonical (t : Fin 67) (off : Nat) (v : W32) (m : Nat) :
    TablesCanonical (s.digWrite t off v m).tables := by
  unfold State.digWrite
  split <;> simp [h]

@[simp] theorem State.hsWrite_canonical (n : Fin 48) (off : Nat) (v : W32) :
    TablesCanonical (s.hsWrite n off v).tables := by
  unfold State.hsWrite
  split
  · exact h
  · split <;> simp [h]

@[simp] theorem State.vdWrite_canonical (n : Fin 16) (off : Nat) (w : W32) :
    TablesCanonical (s.vdWrite n off w).tables := by
  unfold State.vdWrite
  split <;> simp [h]

@[simp] theorem State.vlvWrite_canonical (off : Nat) (w : W32) : TablesCanonical (s.vlvWrite off w).tables := by
  simp [State.vlvWrite, h]

@[simp] theorem State.lsWrite_canonical (k : Fin 3) (off : Nat) (w : W32) :
    TablesCanonical (s.lsWrite k off w).tables := by
  unfold State.lsWrite
  split <;> simp [h]

@[simp] theorem State.lmpWrite_canonical (off : Nat) (w : W32) : TablesCanonical (s.lmpWrite off w).tables := by
  simp [State.lmpWrite, h]

/-! ### ADM -/

theorem State.modAdm_sset_canonical (i : Nat) (v : W32) :
    TablesCanonical (s.modAdm fun a => { a with extClaim := sset (fun _ => 0#32) i v a.extClaim }).tables := by
  obtain ⟨m, c, a⟩ := h
  exact ⟨m, c, swf_sset _ i v a⟩

@[simp] theorem State.admWrite_canonical (c : Fin 4) (off : Nat) (v : W32) :
    TablesCanonical (s.admWrite c off v).tables := by
  by_cases hslot : 0x400 ≤ off ∧ off < 0x500
  · by_cases h0 : off % 16 = 0
    · simp [State.admWrite, hslot, h, h0]
    · by_cases h4 : off % 16 = 4
      · simp [State.admWrite, hslot, h, h4]
      · simp [State.admWrite, hslot, h]
  · simp [State.admWrite, hslot, h, State.modAdm_sset_canonical]

theorem State.admInit_canonical (now : Nat) : TablesCanonical { s with adm := Adm.init now }.tables := by
  obtain ⟨m, c, -⟩ := h
  exact ⟨m, c, rfl⟩

@[simp] theorem State.admStart_canonical : TablesCanonical s.admStart.tables := by
  unfold State.admStart
  rw [State.forFin_tables]
  · exact State.admInit_canonical h _
  · intro n x
    dsimp only
    split <;> simp

/-! ### Bulk memory: tag dumps, chain returns, frames of the plant link -/

@[simp] theorem State.dumpDone_canonical : TablesCanonical s.dumpDone.tables := by
  unfold State.dumpDone
  split <;> simp [h]

@[simp] theorem State.lcCollect_canonical (k : Fin 8) (f : LcFrame) (echo : W32) (body : List W8) (extra : Nat) :
    TablesCanonical (s.lcCollect k f echo body extra).tables := by
  unfold State.lcCollect
  extract_lets c cnt share ok xs all trunc total sts ovr buf other clean cmp s0 s1 chg s1' s2 s3 pe np len lenChg s4 s5 s6
    s7 s8 s9 s10 errs
  have e2 : s2.tables = s.tables := by simp [s2, s1', s1, s0]
  have c3 : TablesCanonical s3.tables := State.storeStream_canonical (by rwa [e2]) _ _ _
  have e6 : s6.tables = s3.tables := by simp [s6, s5, s4]
  have e7 : s7.tables = s6.tables := by simp only [s7]; split <;> simp
  have e8 : s8.tables = s7.tables := by simp only [s8]; split <;> simp
  have e10 : s10.tables = s8.tables := by simp [s10, s9]
  simpa [e10, e8, e7, e6] using c3

@[simp] theorem State.lcReturn_canonical (k : Fin 8) (echo : W32) (body : List W8) (extra : Nat) :
    TablesCanonical (s.lcReturn k echo body extra).tables := by
  unfold State.lcReturn
  dsimp only
  split
  · exact h
  · split
    · simp [h]
    · split
      · simp [h]
      · split <;> simp [h]

@[simp] theorem State.descBack_canonical (a w1 ts tries : Nat) : TablesCanonical (s.descBack a w1 ts tries).tables := by
  simp [State.descBack, h]

@[simp] theorem State.txBackAt_canonical (i w1 st ts tries : Nat) :
    TablesCanonical (s.txBackAt i w1 st ts tries).tables := by
  simp [State.txBackAt, h]

@[simp] theorem State.plkOff_canonical : TablesCanonical s.plkOff.tables := by
  unfold State.plkOff
  simp only [State.modPlk_tables]
  refine TablesCanonical.foldl (g := id) (fun x k hx => ?_) _ s h
  dsimp only [id] at hx ⊢
  split
  · split <;> simp [hx]
  · simp [hx]

@[simp] theorem State.plkFrameEnd_canonical : TablesCanonical s.plkFrameEnd.tables := by
  simp [State.plkFrameEnd, h]

@[simp] theorem State.txDoneNow_canonical (res tries ts : Nat) : TablesCanonical (s.txDoneNow res tries ts).tables := by
  simp [State.txDoneNow, h]

@[simp] theorem State.plkTxDone_canonical (res tries ago opp nth gap : Nat) :
    TablesCanonical (s.plkTxDone res tries ago opp nth gap).tables := by
  simp [State.plkTxDone, h]

@[simp] theorem State.plkCtlWrite_canonical (v : W32) (same : Bool) (tries ago : Nat) :
    TablesCanonical (s.plkCtlWrite v same tries ago).tables := by
  simp [State.plkCtlWrite, h]

@[simp] theorem State.storeData_canonical (a : Nat) (data : List W8) :
    TablesCanonical (State.storeData a data s).2.tables :=
  TablesCanonical.foldl (g := Prod.snd) (f := fun r i =>
    let t := r.2.storeBytes (a + 4 * (data.length / 4) + i) (data.getD (4 * (data.length / 4) + i) 0).toNat 1 5
    (r.1 && t.1, t.2)) (fun _ _ hx => State.storeBytes_canonical hx ..) _ _ (State.storeWords_canonical h ..)

@[simp] theorem State.rxDoneNow_canonical (frame : List W8) (ts : Nat) :
    TablesCanonical (s.rxDoneNow frame ts).tables := by
  unfold State.rxDoneNow
  dsimp only
  split
  · simp [h]
  · split
    · simp [h]
    · split <;> simp [h, apply_ite Prod.snd]

@[simp] theorem State.plkReceive_canonical (start : Bool) (frame : List W8) (ago : Nat) :
    TablesCanonical (s.plkReceive start frame ago).tables := by
  simp [State.plkReceive, h]

@[simp] theorem State.plkRelease_canonical : TablesCanonical s.plkRelease.tables := by
  refine TablesCanonical.foldl (g := id) (fun x op hx => ?_) _ _ (by simp [h])
  dsimp only [id] at hx ⊢
  split <;> simp [hx]

@[simp] theorem State.plkWrite_canonical (off : Nat) (v : W32) : TablesCanonical (s.plkWrite off v).tables := by
  unfold State.plkWrite
  split
  · exact h
  · split <;> simp [h]

end

/-! ### Boot, update, power states -/

section
variable {s : State} (h : TablesCanonical s.tables)
include h

@[simp] theorem State.bootCheck_canonical (ms : Nat) : TablesCanonical (s.bootCheck ms).tables := by
  unfold State.bootCheck
  split
  · extract_lets s' want full ok1 ok2 bank none_ trial s1 boot s2 s3 s4 s5 s6
    have e3 : s3.tables = s.tables := by
      have e2 : s2.tables = s.tables := by simp [s2, s1, s']
      exact e2
    have e6 : s6.tables = s.tables := by simp [s6, s5, s4, e3]
    exact State.plkRelease_canonical (by simpa [e6] using h)
  · exact h

/-- An update operation writes memory by erasing the bank or by storing words over it. -/
@[simp] theorem State.updEffect_canonical (o : UpdOp) (fail : Bool) : TablesCanonical (s.updEffect o fail).2.tables := by
  have hput : ∀ (x : State) (m : List Host.Cell), TablesCanonical x.tables → Memory.wf m →
      TablesCanonical { x with mem := m }.tables := fun x m hx hm => hx.of_mem (fun _ => hm) rfl rfl
  have hfold : ∀ (ws : List Nat) (p : Nat × List Host.Cell), Memory.wf p.2 →
      Memory.wf (ws.foldl (fun (p : Nat × List Host.Cell) w => (p.1 + 4, memStore p.2 p.1 w 4)) p).2 := by
    intro ws
    induction ws with
    | nil => exact fun _ hp => hp
    | cons w r ih => exact fun p hp => ih _ (memStore_wf 4 _ _ hp)
  have hmem : Memory.wf s.mem := h.1
  unfold State.updEffect
  dsimp only
  split
  · split
    · exact h
    · simpa using hput s _ h (memErase_wf _ _ hmem)
  · split
    · simp [h]
    · have hread : TablesCanonical (State.eccRange 4 (argN o.args 1) (argN o.args 2 / 4) s).2.tables := by simp [h]
      simpa using hput _ _ hread (hfold _ _ hread.1)
  · simp [h]
  · simp [h]
  · simp [h]

@[simp] theorem State.updDone_canonical (fail : Bool) : TablesCanonical (s.updDone fail).tables := by
  unfold State.updDone
  split <;> simp [h]

/-- Losing power drops memory, and the curve store and the claims stay. -/
@[simp] theorem State.losePower_canonical : TablesCanonical s.losePower.tables :=
  h.of_mem (fun hm => by unfold State.losePower; exact dropRam_wf _ hm)
    (s.losePower_touch.same .curve (by decide)) (s.losePower_touch.same .adm (by decide))

/-- A power-up keeps what code flash holds and empties the other tables. -/
@[simp] theorem State.startUp_canonical (leaving src : Nat) : TablesCanonical (s.startUp leaving src).tables :=
  ⟨swf_filter memDefault _ h.1, rfl, rfl⟩

@[simp] theorem State.wakeFromOff_canonical : TablesCanonical s.wakeFromOff.tables := by
  simp [State.wakeFromOff, h]

@[simp] theorem State.entryDone_canonical : TablesCanonical s.entryDone.tables := by
  unfold State.entryDone
  dsimp only
  split <;> simp [h]

@[simp] theorem State.stageAnswer_canonical : TablesCanonical s.stageAnswer.tables := by
  unfold State.stageAnswer
  dsimp only
  split
  · exact h
  · split
    · simp [h]
    · split
      · simp [h]
      · split <;> simp [h]

@[simp] theorem State.sleepDone_canonical : TablesCanonical s.sleepDone.tables := by
  simp [State.sleepDone, h]

@[simp] theorem State.releaseIslands_canonical : TablesCanonical s.releaseIslands.tables := by
  have hfresh : ∀ (x : State) (u : Vector Bool 72) (c : Hsc) (m : MeasC) (l : Vector Ls 3), TablesCanonical x.tables →
      TablesCanonical { x with up := u, hsc := c, meas := m, curve := Curve.init, ls := l }.tables :=
    fun _ _ _ _ _ hx => ⟨hx.1, rfl, hx.2.2⟩
  simp [State.releaseIslands, h, hfresh]

@[simp] theorem State.stepReady_canonical : TablesCanonical s.stepReady.tables := by
  unfold State.stepReady
  dsimp only
  split
  · exact h
  · split <;> simp [h]

@[simp] theorem State.bulkDone_canonical : TablesCanonical s.bulkDone.tables := by
  simp [State.bulkDone, h]

@[simp] theorem State.wakePad_canonical (ms : Nat) : TablesCanonical (s.wakePad ms).tables := by
  simp [State.wakePad, h]

@[simp] theorem State.powerOnReset_canonical : TablesCanonical s.powerOnReset.tables := by
  simp [State.powerOnReset, h]

/-! ### Register stores -/

@[simp] theorem State.regPut_canonical (c : Fin 4) (b off : Nat) (v : W32) :
    TablesCanonical (s.regPut c b off v).tables := by
  unfold State.regPut
  split <;> simp [h]

/-- A store acts through what it does to the state that the access leaves. -/
theorem State.store_canonical (c : Fin 4) (isl : Nat) {f : State → State}
    (hf : ∀ x, TablesCanonical x.tables → TablesCanonical (f x).tables) : TablesCanonical (s.store c isl f).tables := by
  have hserved : TablesCanonical (s.served c).tables := by simpa using h
  simp [State.store, h, hf _ hserved]

theorem State.storeIf_canonical (c : Fin 4) (isl g : Nat) {f : State → State}
    (hf : ∀ x, TablesCanonical x.tables → TablesCanonical (f x).tables) :
    TablesCanonical (s.storeIf c isl g f).tables :=
  State.store_canonical h c isl fun x hx => by simp [hx, hf x hx]

@[simp] theorem State.storeReg_canonical (c : Fin 4) (b off : Nat) (v : W32) :
    TablesCanonical (s.storeReg c b off v).tables := by
  have hput : ∀ x : State, TablesCanonical x.tables → TablesCanonical (x.regPut c b off v).tables :=
    fun x hx => State.regPut_canonical hx c b off v
  unfold State.storeReg
  split
  · exact State.store_canonical h c _ hput
  · rw [State.modPmc_tables]
    exact State.store_canonical (by simpa using h) c _ hput

@[simp] theorem State.regWriteRow_canonical (c : Fin 4) (b off : Nat) (v : W32) :
    TablesCanonical (s.regWriteRow c b off v).tables := by
  simp [State.regWriteRow, h]

end

/-! ### Words of the control cores -/

/-- However a word ends, the tables are canonical. -/
def WordEnd.Canonical : WordEnd → Prop
  | .done t | .jump t | .trap t _ => TablesCanonical t.tables
  | .stall => True

/-- Executing the word keeps the canonical form. -/
def CoreOp.KeepsCanonical (op : CoreOp) : Prop :=
  ∀ (c : Fin 4) (x : State), TablesCanonical x.tables → (op.run c x).Canonical

section
variable {s : State} (h : TablesCanonical s.tables)
include h

theorem State.coreLoad_canonical (c : Fin 4) (n : Fin 8) (a : W16) (size : Nat) {f : W32 → State → State}
    (hf : ∀ v x, (f v x).tables = x.tables) : (s.coreLoad c n a size f).Canonical := by
  unfold State.coreLoad
  dsimp only
  split
  · exact h
  · split
    · split <;> simp [WordEnd.Canonical, hf, h]
    · split
      · trivial
      · split <;> simp [WordEnd.Canonical, hf, h]

theorem State.coreStore_canonical (c : Fin 4) (n : Fin 8) (a : W16) (size : Nat) (v : W32) {f : State → State}
    (hf : ∀ x, (f x).tables = x.tables) : (s.coreStore c n a size v f).Canonical := by
  unfold State.coreStore
  dsimp only
  split
  · exact h
  · split
    · split <;> simp [WordEnd.Canonical, hf, h]
    · split
      · trivial
      · split <;> simp [WordEnd.Canonical, hf, h]

theorem State.coreCall_canonical (c : Fin 4) (pc : W16) : (s.coreCall c pc).Canonical := by
  unfold State.coreCall
  dsimp only
  split <;> simp [WordEnd.Canonical, h]

theorem State.wordRun_canonical (c : Fin 4) (p : Nat) {op : CoreOp} (hop : op.KeepsCanonical) :
    TablesCanonical (s.wordRun c p op).tables := by
  have hissue : TablesCanonical (s.tagIssue c).tables := by simpa using h
  have hend : ∀ e : WordEnd, (match op.bad with
      | some t => .trap (s.tagIssue c) t
      | none => if !s.core[c].cond op.cond then .done (s.tagIssue c)
                else if op.priv && !s.core[c].k then .trap (s.tagIssue c) .priv else op.run c (s.tagIssue c)) = e →
      e.Canonical := by
    rintro _ rfl
    split
    · exact hissue
    · split
      · exact hissue
      · split
        · exact hissue
        · exact hop c _ hissue
  unfold State.wordRun
  dsimp only
  split <;> rename_i hcase
  · exact h
  all_goals simpa [WordEnd.Canonical] using hend _ hcase

theorem State.coreStep_canonical (c : Fin 4) {f : Nat → State → CoreOp} (hf : ∀ p x, (f p x).KeepsCanonical) :
    TablesCanonical (s.coreStep c f).tables := by
  unfold State.coreStep
  dsimp only
  split
  · exact h
  · split
    · simp [h]
    · split
      · simp [h]
      · split
        · exact h
        · split
          · exact State.wordRun_canonical (by simpa using h) c _ (hf _ _)
          · simp [h]

theorem State.coreRun_canonical (c : Fin 4) {op : CoreOp} (hop : op.KeepsCanonical) :
    TablesCanonical (s.coreRun c op).tables := State.coreStep_canonical h c fun _ _ => hop

end

theorem coreOp_keepsCanonical {word : W32} {cond : BitVec 4} {bad : Option Trap} {cycles : Nat} {f : Core → Core} :
    (coreOp word cond bad cycles f).KeepsCanonical := fun c x hx => by
  simpa [coreOp, WordEnd.Canonical] using hx

theorem divOp_keepsCanonical {word : W32} {cond : BitVec 4} {rd ra rb : BitVec 5} {f : W16 → W16 → Alu 16 × W16} :
    (divOp word cond rd ra rb f).KeepsCanonical := fun c x hx => by
  dsimp only [divOp]
  split <;> simpa [WordEnd.Canonical] using hx

theorem loadOp_keepsCanonical {word : W32} {cond : BitVec 4} {bad : Bool} {ra : BitVec 5} {seg : BitVec 3} {d : BitVec 8}
    {size : Nat} {post : Bool} {put : W32 → Core → Core} :
    (loadOp word cond bad ra seg d size post put).KeepsCanonical :=
  fun c _ hx => State.coreLoad_canonical hx c _ _ _ fun _ y => y.modCore_tables c _

theorem storeOp_keepsCanonical {word : W32} {cond : BitVec 4} {bad : Bool} {ra : BitVec 5} {seg : BitVec 3} {d : BitVec 8}
    {size : Nat} {post : Bool} {get : Core → W32} :
    (storeOp word cond bad ra seg d size post get).KeepsCanonical :=
  fun c _ hx => State.coreStore_canonical hx c _ _ _ _ fun y => y.modCore_tables c _

/-- Every instruction of the control cores keeps the canonical form: most change their core alone. -/
theorem coreOpOf_keepsCanonical {i : Instr} {c : Fin 4} {op : CoreOp} (hi : coreOpOf i = some (c, op)) :
    op.KeepsCanonical := by
  cases i <;> cases hi
  case div | divs => exact divOp_keepsCanonical
  case ldb | ldbs | ldw | ldp | ldwPost | ldpPost => exact loadOp_keepsCanonical
  case stb | stw | stp | stwPost | stpPost => exact storeOp_keepsCanonical
  case b | reti | wait | pair | mfs | mts | segAttrCommit | swiSend | swiClr | startCmd | evqW5Read =>
    intro c x hx
    simpa [opB, opReti, opWait, opPair, opMfs, opMts, coreOp, flowOp, WordEnd.Canonical] using hx
  case trap => exact fun c x hx => hx
  case call => exact fun c x hx => State.coreCall_canonical hx c _
  case jmp =>
    intro c x hx
    dsimp only [opJmp, flowOp]
    split <;> simpa [WordEnd.Canonical] using hx
  case callr =>
    intro c x hx
    dsimp only [opCallr, flowOp]
    split
    · exact hx
    · exact State.coreCall_canonical hx c _
  case ret =>
    intro c x hx
    dsimp only [opRet, flowOp]
    split <;> simpa [WordEnd.Canonical] using hx
  case rep =>
    intro c x hx
    dsimp only [opRep, flowOp]
    split
    · exact hx
    · split <;> simpa [WordEnd.Canonical] using hx
  all_goals exact coreOp_keepsCanonical

/-- A command that is an instruction runs its word on its core. -/
theorem exec_of_coreOpOf {i : Instr} {c : Fin 4} {op : CoreOp} (hi : coreOpOf i = some (c, op)) (s : State) :
    exec i s = .next (s.coreRun c op) := by
  cases i <;> cases hi <;> rfl

theorem decodeOp_keepsCanonical (c : Fin 4) (w : W32) : (decodeOp c w).KeepsCanonical := by
  unfold decodeOp
  split
  · rename_i p hp
    obtain ⟨i, -, hi⟩ := Option.bind_eq_some_iff.mp hp
    exact coreOpOf_keepsCanonical hi
  · exact fun _ _ hx => hx

@[simp] theorem State.coreFetch_canonical {s : State} (h : TablesCanonical s.tables) (c : Fin 4) :
    TablesCanonical (s.coreFetch c).tables := State.coreStep_canonical h c fun _ _ => decodeOp_keepsCanonical c _

/-! ### Every command -/

section
variable {s : State} (h : TablesCanonical s.tables)
include h

@[simp] theorem State.repeatRow_canonical (c : Fin 4) : TablesCanonical (s.repeatRow c).tables := by
  unfold State.repeatRow
  split <;> simp [h]

@[simp] theorem State.tagRecordRow_canonical (c : Fin 4) : TablesCanonical (s.tagRecordRow c).tables := by
  unfold State.tagRecordRow
  split <;> simp [h]

end

theorem canonical_of_ite_fault {p : Prop} [Decidable p] {s t : State} {f : Fault} (h : TablesCanonical s.tables)
    (e : (if p then .fault f else .next s : Host.Outcome State Fault Refusal) = .next t) : TablesCanonical t.tables := by
  split at e
  · cases e
  · cases e
    exact h

/-- Every command keeps the canonical form. An instruction of a core does by what its word does; of the other commands
only those named here are no state operation applied outright: a store that acts through the access, or a stop beyond
the ratings. -/
theorem exec_canonical {i : Instr} {s t : State} (h : TablesCanonical s.tables) (e : exec i s = .next t) :
    TablesCanonical t.tables := by
  rcases hop : coreOpOf i with _ | ⟨c, op⟩
  case some =>
    rw [exec_of_coreOpOf hop] at e
    obtain rfl := Host.Outcome.next.inj e
    exact State.coreRun_canonical h c (coreOpOf_keepsCanonical hop)
  case none =>
    cases i <;> cases hop
    case bankRecover | sensorCopy | vbkChange => exact canonical_of_ite_fault (by simp [h]) e
    all_goals obtain rfl := Host.Outcome.next.inj e
    case captureDisarm => exact State.storeIf_canonical h _ _ _ fun x hx => State.capDisarm_canonical hx _
    case curveEntryWrite => exact State.store_canonical h _ _ fun x hx => State.curveWrite_canonical hx _ _
    case plkEnable | plkDisable => exact State.storeIf_canonical h _ _ _ fun x hx => State.plkCtlWrite_canonical hx _ _ _ _
    all_goals simp [h]

theorem State.idle_tables (s : State) : s.idle.tables = s.tables := s.advanceTo_tables _

theorem State.tables_pending (s : State) (l : List Instr) : { s with pending := l }.tables = s.tables := rfl

theorem step_canonical {s t : State} (h : s.canonical) (e : step s = .next t) : t.canonical := by
  unfold step at e
  split at e
  · obtain rfl := Host.Outcome.next.inj e
    rwa [State.canonical_iff, State.idle_tables]
  · exact exec_canonical ((State.tables_pending s _).symm ▸ h) e

/-- Settles O4, by the three tables, which each operation leaves as they are or rewrites in canonical form. -/
theorem stepsKeepTheCanonicalForm : Obligations.StepsKeepTheCanonicalForm := by
  unfold Obligations.StepsKeepTheCanonicalForm
  intro s t
  exact step_canonical



end Sys2Proof.Machine
/-! ## Device time and its alarm (R28 to R35) -/

namespace Sys2Proof.Machine

open Claims

/-- What the move of device time to a time ahead makes of TMB (R29). -/
theorem State.advanceTo_tmb (s : State) (t : Nat) (hrun : s.tmbRuns = true) (hahead : s.now < t) :
    (s.advanceTo t).tmb =
      { s.tmb with
        now := t, wraps := satN 16 (s.tmb.wraps + (t / 2 ^ 48 - s.now / 2 ^ 48))
        wrapped := s.tmb.wrapped || decide (0 < t / 2 ^ 48 - s.now / 2 ^ 48) } := by
  have hlog : ∀ (x : State) (b : Bool), (x.onlyIf b State.logOwnFree).tmb = x.tmb := fun x b =>
    (onlyTouches.onlyIf (onlyTouches.refl [.dep, .nv, .free] x) fun y => y.logOwnFree_touch).same .tmb (by decide)
  have hdrain : s.drain.tmb = s.tmb := s.drain_touch.same .tmb (by decide)
  have hupsets : s.drain.upsets.tmb = s.drain.tmb := s.drain.upsets_touch.same .tmb (by decide)
  have hcycles : (s.drain.upsets.pmcRun (t - s.now)).tmb = s.drain.upsets.tmb :=
    (State.pmcRun_touch ..).same .tmb (by decide)
  simp only [State.advanceTo, hrun, hahead, decide_true, Bool.and_self, if_true, hlog]
  simp only [State.modTmb, hcycles, hupsets, hdrain]

theorem State.advanceTo_of_stopped (s : State) (t : Nat) (hstop : s.tmbRuns = false) : s.advanceTo t = s := by
  simp [State.advanceTo, hstop]

/-- The move to the next multiple of 2^48 is one wrap. -/
theorem State.tmbWrap_tmb (s : State) (hrun : s.tmbRuns = true) :
    s.tmbWrap.tmb =
      { s.tmb with now := (s.now / 2 ^ 48 + 1) * 2 ^ 48, wraps := satN 16 (s.tmb.wraps + 1), wrapped := true } := by
  have hone : (s.now / 2 ^ 48 + 1) * 2 ^ 48 / 2 ^ 48 - s.now / 2 ^ 48 = 1 := by omega
  rw [State.tmbWrap, State.advanceTo_tmb s _ hrun (by omega), hone]
  simp

/-- Settles O9, by what that wrap makes of TMB. -/
theorem timeBaseWraps : Obligations.TimeBaseWraps := by
  unfold Obligations.TimeBaseWraps
  refine ⟨fun s hrun => ?_, fun s hstop => ⟨_, rfl, s.advanceTo_of_stopped _ hstop⟩⟩
  have htmb := s.tmbWrap_tmb hrun
  refine ⟨s.tmbWrap, rfl, ?_, congrArg Tmb.now htmb, congrArg Tmb.wraps htmb, congrArg Tmb.wrapped htmb,
    s.advanceTo_touch _⟩
  rw [State.count, htmb]
  exact Nat.mul_mod_left _ _

/-- Refutes O10 by its third clause: the Deputy's load of TIME_LO, like every read that it is served, draws a free value
for its waiting cycles, and the clause does not list the part `free`. The counterexample is that load with the Deputy
running. -/
theorem not_alarmFiresAndTimeLatches : ¬ Obligations.AlarmFiresAndTimeLatches := by
  unfold Obligations.AlarmFiresAndTimeLatches
  rintro ⟨-, -, hdeputy, -⟩
  obtain ⟨t, hload, -, -, -, htouch⟩ := hdeputy State.resetWithDeputy (by decide) (by decide)
  obtain rfl : State.resetWithDeputy.depRead 0x14 0 = t := Host.Outcome.next.inj hload
  have hsame : (State.resetWithDeputy.depRead 0x14 0).free = State.resetWithDeputy.free := htouch.same .free (by decide)
  have hdrawn : (State.resetWithDeputy.depRead 0x14 0).free = State.resetWithDeputy.free + 1 :=
    State.depRead_free_of_served _ _ _ (by decide) (by decide) (by decide)
  omega

end Sys2Proof.Machine

/-! ## The reset state (R28, R30, R33, R607, R618, R625) -/

namespace Sys2Proof.Machine

/-- Settles O3, by evaluating the reset state part by part. -/
theorem resetIsCanonicalAndEverythingOff : Obligations.ResetIsCanonicalAndEverythingOff := by
  unfold Obligations.ResetIsCanonicalAndEverythingOff
  refine ⟨reset_canonical, rfl, rfl, rfl, ?_, ?_, ?_, ?_, ?_⟩
  · decide
  · decide
  · decide
  · decide
  · decide

end Sys2Proof.Machine
/-! ## The control-plane reset (R13, R14, R80, R81, R393, R414, R436, R544, R614, R623) -/

namespace Sys2Proof.Machine

open Claims

/-! ### Its parts -/

/-- The state with an entry in progress refused and a stopped CORE clock running again. -/
def State.clockBack (s : State) : State :=
  (if s.pwr.phase == .entering then s.entryRefuse 14 2 0 else s).modPwr fun p =>
    { p with phase := if p.phase == .sleep then .run else p.phase }

/-- The state with CORE in reset, in which pushes are still held and the orphan hold has still to start. -/
def State.coreHeld (s : State) (cause : Nat) (wd : Option Nat) : State :=
  ((s.clockBack.coreIslandReset (b2n s.nv.activeB)).modSup fun u =>
    { u with coreReset := true, cause := cause, rstCount := satN 16 (u.rstCount + 1) }).modDep fun d =>
    { (d.wdRestart wd) with trialAt := if s.nv.next || s.nv.trial then some s.now else none }

section
variable {s : State}

theorem State.cpReset_of_up (hup : s.isUp 1 = true) (cause : Nat) (wd : Option Nat) :
    s.cpReset cause wd =
      (if (s.coreHeld cause wd).coreGated then s.coreHeld cause wd else (s.coreHeld cause wd).queRelease).orphanStart := by
  simp only [State.cpReset, hup, if_true]
  rfl

theorem State.clockBack_touch (s : State) : onlyTouches [.fab, .adm, .pwr] s s.clockBack :=
  (onlyTouches.ite (State.entryRefuse_touch ..) (.refl _ _)).trans (State.modPwr_touch ..) (by decide)

theorem State.clockBack_of_run (hrun : s.pwr.phase = .run) : s.clockBack = s := by
  have hphase : (if s.pwr.phase == .sleep then .run else s.pwr.phase) = s.pwr.phase := by simp [hrun]
  have hentry : ¬(s.pwr.phase == .entering) = true := by simp [hrun]
  rw [State.clockBack, if_neg hentry, State.modPwr, hphase]

theorem State.queRelease_of_none (hnone : s.que.held = []) : s.queRelease = s := by
  have hque : ({ s.que with held := [] } : Que) = s.que := by rw [← hnone]
  rw [State.queRelease, hnone, State.queReleaseAll, State.modQue, hque]

/-- With HOLD above zero the start of the hold sets its end alone. -/
theorem State.orphanStart_touch_of_hold (hhold : 0 < s.hsc.holdUs) : onlyTouches [.hsc] s s.orphanStart := by
  unfold State.orphanStart
  rw [if_neg (Nat.ne_of_gt hhold)]
  exact onlyTouches.ite (State.modHsc_touch ..) (.refl _ _)

theorem State.orphanStart_orphanEnd (hhub : s.isUp 2 = true) (hhold : 0 < s.hsc.holdUs) :
    s.orphanStart.hsc.orphanEnd =
      if s.hsc.orphanEnd = none ∧ s.hsc.expired = false then some (s.now + s.hsc.holdUs) else s.hsc.orphanEnd := by
  unfold State.orphanStart
  rw [if_neg (Nat.ne_of_gt hhold)]
  cases hend : s.hsc.orphanEnd <;> cases hexp : s.hsc.expired <;> simp [hhub, hend, hexp]

/-! ### The whole reset -/

theorem State.coreHeld_touch (s : State) (cause : Nat) (wd : Option Nat) :
    onlyTouches [.fab, .adm, .pwr, .sys, .que, .core, .pmc, .hp, .sup, .dep] s (s.coreHeld cause wd) :=
  (((s.clockBack_touch.mono (by decide)).trans (State.coreIslandReset_touch ..) (by decide)).trans
    (State.modSup_touch ..) (by decide)).trans (State.modDep_touch ..) (by decide)

theorem State.coreHeld_hsc (cause : Nat) (wd : Option Nat) : (s.coreHeld cause wd).hsc = s.hsc :=
  (s.coreHeld_touch cause wd).same .hsc (by decide)

theorem State.coreHeld_core (cause : Nat) (wd : Option Nat) (c : Fin 4) :
    (s.coreHeld cause wd).core[c] = Core.init c.val (b2n s.nv.activeB) := by
  simp [State.coreHeld, State.coreIslandReset]

/-- With HOLD above zero, what follows the reset of CORE reaches the queues and the orphan hold. -/
theorem State.cpReset_touch_of_hold (hup : s.isUp 1 = true) (hhold : 0 < s.hsc.holdUs) (cause : Nat) (wd : Option Nat) :
    onlyTouches [.fab, .lc, .que, .pmc, .hsc] (s.coreHeld cause wd) (s.cpReset cause wd) := by
  rw [State.cpReset_of_up hup]
  have hpushes : onlyTouches [.fab, .lc, .que, .pmc, .hsc] (s.coreHeld cause wd)
      (if (s.coreHeld cause wd).coreGated then s.coreHeld cause wd else (s.coreHeld cause wd).queRelease) :=
    onlyTouches.ite (.refl _ _) ((State.queRelease_touch _).mono (by decide))
  refine hpushes.trans (State.orphanStart_touch_of_hold ?_) (by decide)
  have hhsc : (if (s.coreHeld cause wd).coreGated then s.coreHeld cause wd else (s.coreHeld cause wd).queRelease).hsc =
      s.hsc := by
    rw [apply_ite State.hsc, State.coreHeld_hsc, ((State.queRelease_touch _).same .hsc (by decide) : _ = _),
      State.coreHeld_hsc, ite_self]
  rwa [hhsc]

section
variable (hup : s.isUp 1 = true) (hhold : 0 < s.hsc.holdUs) (cause : Nat) (wd : Option Nat)
include hup hhold

theorem State.cpReset_core (c : Fin 4) : (s.cpReset cause wd).core[c] = Core.init c.val (b2n s.nv.activeB) := by
  have hcore : (s.cpReset cause wd).core = (s.coreHeld cause wd).core :=
    (State.cpReset_touch_of_hold hup hhold cause wd).same .core (by decide)
  rw [hcore, State.coreHeld_core]

theorem State.cpReset_sup :
    (s.cpReset cause wd).sup =
      { s.sup with coreReset := true, cause := cause, rstCount := satN 16 (s.sup.rstCount + 1) } := by
  have hsup : (s.cpReset cause wd).sup = (s.coreHeld cause wd).sup :=
    (State.cpReset_touch_of_hold hup hhold cause wd).same .sup (by decide)
  have hback : s.clockBack.sup = s.sup := s.clockBack_touch.same .sup (by decide)
  simp [hsup, State.coreHeld, State.coreIslandReset, hback]

theorem State.cpReset_dep :
    (s.cpReset cause wd).dep =
      { s.dep.wdRestart wd with trialAt := if s.nv.next || s.nv.trial then some s.now else none } := by
  have hdep : (s.cpReset cause wd).dep = (s.coreHeld cause wd).dep :=
    (State.cpReset_touch_of_hold hup hhold cause wd).same .dep (by decide)
  have hback : s.clockBack.dep = s.dep := s.clockBack_touch.same .dep (by decide)
  simp [hdep, State.coreHeld, State.coreIslandReset, hback]

/-- With HOLD above zero the reset leaves the channels, and memory and device time as ever. -/
theorem State.cpReset_keeps :
    onlyTouches [.fab, .adm, .pwr, .sys, .que, .core, .pmc, .hp, .sup, .dep, .lc, .hsc] s (s.cpReset cause wd) :=
  ((s.coreHeld_touch cause wd).mono (by decide)).trans (State.cpReset_touch_of_hold hup hhold cause wd) (by decide)

end

/-- In RUN, with no push held, only the hold follows the reset of CORE. -/
theorem State.cpReset_of_quiet (hup : s.isUp 1 = true) (hrun : s.pwr.phase = .run) (hnone : s.que.held = []) (cause : Nat)
    (wd : Option Nat) : s.cpReset cause wd = (s.coreHeld cause wd).orphanStart := by
  have hheld : (s.coreHeld cause wd).que.held = [] := by
    simp [State.coreHeld, State.coreIslandReset, State.clockBack_of_run hrun, hnone]
  rw [State.cpReset_of_up hup, State.queRelease_of_none hheld, ite_self]

end

/-- A control-plane reset for a cause other than the update reboot comes now. -/
theorem State.cpResetRow_touch_of_now (s : State) {cause : Fin 4} (hcause : cause.val ≠ 2) :
    onlyTouches [.fab, .hs, .hsc, .dig, .vg, .vd, .ls, .adm, .inp, .pwr, .sup, .sys, .lc, .que, .core, .pmc, .hp, .dep,
      .free] s (s.cpResetRow cause) := by
  match cause, hcause with
  | 0, _ => exact onlyTouches.ite (.refl _ _) (State.cpReset_touch ..)
  | 1, _ => exact State.cpReset_touch ..
  | 3, _ => exact State.cpReset_touch ..

/-- Settles O8: memory and its check bits are not among the parts that the reset reaches. -/
theorem controlPlaneResetKeepsMemory : Obligations.ControlPlaneResetKeepsMemory := by
  unfold Obligations.ControlPlaneResetKeepsMemory
  intro s cause hcause
  have htouch := s.cpResetRow_touch_of_now hcause
  exact ⟨_, rfl, htouch.same .mem (by decide), htouch.same .ecc (by decide)⟩

/-- The code of the cause that the reset records (R623). -/
def resetCause (cause : Fin 4) : Nat := if cause.val = 0 then 1 else if cause.val = 1 then 2 else 4

theorem State.cpResetRow_of_run {s : State} {cause : Fin 4} (hrun : s.pwr.phase = .run) (hcause : cause.val ≠ 2) :
    ∃ wd, s.cpResetRow cause = s.cpReset (resetCause cause) wd := by
  match cause, hcause with
  | 0, _ => exact ⟨none, by simp [State.cpResetRow, hrun, resetCause]⟩
  | 1, _ => exact ⟨_, rfl⟩
  | 3, _ => exact ⟨_, rfl⟩

theorem State.cpReset_orphanEnd_of_quiet {s : State} (hup : s.isUp 1 = true) (hhub : s.isUp 2 = true)
    (hrun : s.pwr.phase = .run) (hhold : 0 < s.hsc.holdUs) (hnone : s.que.held = []) (cause : Nat) (wd : Option Nat) :
    (s.cpReset cause wd).hsc.orphanEnd =
      if s.hsc.orphanEnd = none ∧ s.hsc.expired = false then some (s.now + s.hsc.holdUs) else s.hsc.orphanEnd := by
  have htouch := s.coreHeld_touch cause wd
  have hhub' : (s.coreHeld cause wd).isUp 2 = true := by
    rwa [State.isUp_congr s (htouch.same .up (by decide))]
  have hnow : (s.coreHeld cause wd).now = s.now := State.now_congr s (htouch.same .tmb (by decide))
  rw [State.cpReset_of_quiet hup hrun hnone, State.orphanStart_orphanEnd hhub' (by rwa [State.coreHeld_hsc]),
    State.coreHeld_hsc, hnow]

/-- In RUN, with no push held, only the orphan hold follows the reset of CORE. -/
theorem State.cpReset_hsc_of_quiet {s : State} (hup : s.isUp 1 = true) (hrun : s.pwr.phase = .run)
    (hhold : 0 < s.hsc.holdUs) (hnone : s.que.held = []) (cause : Nat) (wd : Option Nat) :
    onlyTouches [.hsc] (s.coreHeld cause wd) (s.cpReset cause wd) := by
  rw [State.cpReset_of_quiet hup hrun hnone]
  exact State.orphanStart_touch_of_hold (by rwa [State.coreHeld_hsc])

/-- In RUN, with no push held and HOLD above zero, the reset reaches what CORE holds and what says that it was reset. -/
theorem State.cpReset_touch_of_quiet {s : State} (hup : s.isUp 1 = true) (hrun : s.pwr.phase = .run)
    (hhold : 0 < s.hsc.holdUs) (hnone : s.que.held = []) (cause : Nat) (wd : Option Nat) :
    onlyTouches [.core, .que, .pmc, .hp, .sys, .fab, .sup, .dep, .hsc, .pwr] s (s.cpReset cause wd) := by
  refine onlyTouches.trans ?_ (State.cpReset_hsc_of_quiet hup hrun hhold hnone cause wd) (by decide)
  rw [State.coreHeld, State.clockBack_of_run hrun]
  exact (((State.coreIslandReset_touch ..).mono (by decide)).trans (State.modSup_touch ..) (by decide)).trans
    (State.modDep_touch ..) (by decide)

/-! ### The update reboot comes at its time (R559, R614) -/

theorem State.logAdd_activeB (s : State) (r : LogRec) : (s.logAdd r).nv.activeB = s.nv.activeB := by
  unfold State.logAdd
  dsimp only
  repeat' split
  all_goals rfl

theorem State.advanceTo_activeB (s : State) (t : Nat) : (s.advanceTo t).nv.activeB = s.nv.activeB := by
  have hlog : ∀ (x : State) (b : Bool), (x.onlyIf b State.logOwnFree).nv.activeB = x.nv.activeB := fun x b => by
    cases b
    · rfl
    · exact State.logAdd_activeB _ _
  have hdrain : s.drain.nv = s.nv := s.drain_touch.same .nv (by decide)
  have hupsets : s.drain.upsets.nv = s.drain.nv := s.drain.upsets_touch.same .nv (by decide)
  have hcycles : (s.drain.upsets.pmcRun (t - s.now)).nv = s.drain.upsets.nv :=
    (State.pmcRun_touch ..).same .nv (by decide)
  unfold State.advanceTo
  split
  · simp only [hlog, State.modTmb, hcycles, hupsets, hdrain]
  · rfl

/-- The state at the time the activation set, the reboot no longer due. -/
def State.atReboot (s : State) (due : Nat) : State := (s.advanceTo due).modDep fun d => { d with rebootAt := none }

theorem State.cpResetRow_of_reboot {s : State} {due : Nat} (hdue : s.dep.rebootAt = some due) :
    s.cpResetRow 2 = (s.atReboot due).cpReset 3 (some (s.advanceTo due).now) := by
  simp [State.cpResetRow, hdue, State.atReboot]

theorem State.atReboot_touch (s : State) (due : Nat) :
    onlyTouches [.tmb, .fab, .pwr, .ecc, .pmc, .dep, .nv, .free] s (s.atReboot due) :=
  (s.advanceTo_touch due).trans (State.modDep_touch ..) (by decide)

/-- Settles O7: its first clause by what follows the reset of CORE when nothing else waits, its second by the reset at
the time to which the reboot moves. -/
theorem controlPlaneResetClearsCoreAlone : Obligations.ControlPlaneResetClearsCoreAlone := by
  unfold Obligations.ControlPlaneResetClearsCoreAlone
  refine ⟨fun s cause hup hhub hrun hcause hhold hnone => ?_, fun s due hup _ hrun hdue hnow hhold => ?_⟩
  · obtain ⟨wd, hrow⟩ := State.cpResetRow_of_run hrun hcause
    have htail := State.cpReset_hsc_of_quiet hup hrun hhold hnone (resetCause cause) wd
    have hstopped := State.clockBack_of_run hrun
    have hque : (s.coreHeld (resetCause cause) wd).que = Que.init := by
      simp [State.coreHeld, State.coreIslandReset, hstopped, hnone, Que.init]
    have hhp : (s.coreHeld (resetCause cause) wd).hp = { Hp.init with csnLow := s.hp.csnLow } := by
      simp [State.coreHeld, State.coreIslandReset, hstopped]
    have hsup := State.cpReset_sup hup hhold (resetCause cause) wd
    have hdep := State.cpReset_dep hup hhold (resetCause cause) wd
    exact ⟨_, congrArg Host.Outcome.next hrow, State.cpReset_core hup hhold _ _,
      (htail.same .que (by decide)).trans hque, htail.same .pmc (by decide), (htail.same .hp (by decide)).trans hhp,
      congrArg Supply.coreReset hsup, congrArg Supply.cause hsup, congrArg Supply.rstCount hsup, congrArg Dep.wdCfg hdep,
      State.cpReset_orphanEnd_of_quiet hup hhub hrun hhold hnone _ _,
      State.cpReset_touch_of_quiet hup hrun hhold hnone _ _⟩
  · have hat := s.atReboot_touch due
    have hup' : (s.atReboot due).isUp 1 = true := by rwa [State.isUp_congr s (hat.same .up (by decide))]
    have hhold' : 0 < (s.atReboot due).hsc.holdUs := by rwa [(hat.same .hsc (by decide) : _ = _)]
    have hkeeps := State.cpReset_keeps hup' hhold' 3 (some (s.advanceTo due).now)
    have hruns : s.tmbRuns = true := by simp [State.tmbRuns, hrun]
    refine ⟨_, congrArg Host.Outcome.next (State.cpResetRow_of_reboot hdue), ?_, fun c => ?_,
      congrArg Supply.cause (State.cpReset_sup hup' hhold' _ _), congrArg Dep.rebootAt (State.cpReset_dep hup' hhold' _ _),
      (hkeeps.same .mem (by decide)).trans (hat.same .mem (by decide)),
      (hkeeps.same .hs (by decide)).trans (hat.same .hs (by decide))⟩
    · rw [State.now_congr _ (hkeeps.same .tmb (by decide))]
      exact s.advanceTo_now due hruns hnow
    · rw [State.cpReset_core hup' hhold']
      exact congrArg (fun b => Core.init c.val (b2n b)) (s.advanceTo_activeB due)

end Sys2Proof.Machine
/-! ## Events on their way to the hub and to the cores (R24, R27, R380) -/

namespace Sys2Proof.Machine

open Claims

theorem vget_fin {α : Type} {n : Nat} (v : Vector α n) (i : Fin n) (d : α) : vget v i.val d = v[i] := by
  simp [vget]

theorem vupd_at {α : Type} {n : Nat} (v : Vector α n) (i : Nat) (j : Fin n) (f : α → α) :
    (vupd v i f)[j] = if j.val = i then f v[j] else v[j] := by
  unfold vupd
  split
  · by_cases hj : j.val = i
    · subst hj
      simp
    · simp [hj, Vector.getElem_set_ne, Ne.symm hj]
  · have : j.val ≠ i := by omega
    simp [this]

theorem outPut_recs_grow (r : EvRec) (b : OutBuf) : b.recs <+: (outPut r b).recs := by
  unfold outPut
  split
  · exact List.prefix_append _ _
  · exact List.prefix_rfl

/-- From `f` to `g` the CORE island has at most sent events of its own: only its outbound buffer has grown. -/
structure EventFabric.CoreSends (f g : EventFabric) : Prop where
  hub : g.hub = f.hub
  hubLost : g.hubLost = f.hubLost
  others : ∀ j : Fin 72, j.val ≠ 1 → g.out[j] = f.out[j]
  grows : ∀ j : Fin 72, f.out[j].recs <+: g.out[j].recs

namespace EventFabric.CoreSends

theorem refl (f : EventFabric) : f.CoreSends f := ⟨rfl, rfl, fun _ _ => rfl, fun _ => List.prefix_rfl⟩

theorem trans {f g h : EventFabric} (a : f.CoreSends g) (b : g.CoreSends h) : f.CoreSends h :=
  ⟨b.hub.trans a.hub, b.hubLost.trans a.hubLost, fun j hj => (b.others j hj).trans (a.others j hj),
    fun j => (a.grows j).trans (b.grows j)⟩

theorem onlyIf {s : State} {c : Bool} {f : State → State} (k : s.fab.CoreSends (f s).fab) :
    s.fab.CoreSends (s.onlyIf c f).fab := by
  cases c
  · exact refl _
  · exact k

end EventFabric.CoreSends

theorem State.emitAt_coreSends (s : State) (t code : Nat) (arg : W32) :
    s.fab.CoreSends (s.emitAt t 1 code arg).fab := by
  refine ⟨rfl, rfl, fun j hj => ?_, fun j => ?_⟩
  · simp only [State.emitAt, vupd_at, hj, if_false]
  · simp only [State.emitAt, vupd_at]
    split
    · exact outPut_recs_grow _ _
    · exact List.prefix_rfl

theorem State.pmcWrap_coreSends (s : State) (i : Nat) (ev : Bool) : s.fab.CoreSends (s.pmcWrap i ev).fab :=
  EventFabric.CoreSends.onlyIf (s := s.modPmc fun p => p.setOvf i) (State.emitAt_coreSends ..)

theorem forFin_coreSends {n : Nat} {f : Fin n → State → State} (hf : ∀ i (x : State), x.fab.CoreSends (f i x).fab) (s : State) :
    s.fab.CoreSends (forFin n f s).fab := by
  unfold forFin
  generalize List.finRange n = l
  induction l generalizing s with
  | nil => exact .refl _
  | cons i r ih => exact (hf i s).trans (ih _)

/-- A fabric count reaches the event fabric by the overflow of a counter alone. -/
theorem State.fabCount_coreSends (s : State) (evt req n : Nat) : s.fab.CoreSends (s.fabCount evt req n).fab := by
  unfold State.fabCount
  split
  · refine forFin_coreSends (fun j x => ?_) s
    dsimp only
    split
    · exact EventFabric.CoreSends.onlyIf (s := x.modPmc _) (State.pmcWrap_coreSends ..)
    · exact .refl _
  · exact .refl _

theorem State.fabCount_of_off (s : State) (evt req n : Nat) (hoff : bit s.pmc.ctl 0 = false) :
    s.fabCount evt req n = s := by simp [State.fabCount, hoff]

/-! ### A record reaches the hub -/

/-- The cores that the hub holds a record for that comes now (R573, R574). -/
def State.hubCores (s : State) : List (Fin 4) :=
  if s.isUp 1 && !s.sup.coreReset && (!s.coreGated || s.hubHeld < 64) then [0, 1, 2, 3] else []

/-- The fabric with record `r` at the hub. -/
def State.fabWith (s : State) (r : EvRec) : EventFabric :=
  { s.fab with
    hub := if s.hubCores.isEmpty && !s.isUp 3 then s.fab.hub
           else s.fab.hub ++ [{ ev := r, cores := s.hubCores, dep := s.isUp 3 }]
    hubLost := s.fab.hubLost + b2n (s.coreGated && 64 ≤ s.hubHeld) }

/-- The hub counts a record that it has taken, and a LOST record once more (R422); the wake that it may request
changes no record. -/
theorem State.hubTake_fab (s : State) (r : EvRec) :
    (s.hubTake r).fab = ((({ s with fab := s.fabWith r } : State).fabCount 0x07 0 1).onlyIf (r.code = 0xFF)
      fun x => x.fabCount 0x08 0 1).fab :=
  (onlyTouches.onlyIf (onlyTouches.refl [.pwr] _) fun y => y.wakeReq_touch 12).same .fab (by decide)

theorem State.hubTake_coreSends (s : State) (r : EvRec) : (s.fabWith r).CoreSends (s.hubTake r).fab := by
  rw [State.hubTake_fab]
  exact (State.fabCount_coreSends { s with fab := s.fabWith r } 0x07 0 1).trans
    (EventFabric.CoreSends.onlyIf (State.fabCount_coreSends ..))

/-- With PMC's counters off the fabric stays as the record made it. -/
theorem State.hubTake_fab_of_off (s : State) (r : EvRec) (hoff : bit s.pmc.ctl 0 = false) :
    (s.hubTake r).fab = s.fabWith r := by
  have hcount : ∀ evt, ({ s with fab := s.fabWith r } : State).fabCount evt 0 1 = { s with fab := s.fabWith r } :=
    fun evt => State.fabCount_of_off _ evt 0 1 hoff
  simp [State.hubTake_fab, State.onlyIf, hcount]

/-- A wake request starts and stops no core clock: a return from SLEEP gates it until its last step. -/
@[simp] theorem State.wakeReq_coreGated (s : State) (src : Nat) : (s.wakeReq src).coreGated = s.coreGated := by
  unfold State.wakeReq
  dsimp only
  split
  · cases hphase : s.pwr.phase <;> dsimp only
    case deep | sleep => split <;> simp [State.coreGated, Pwr.beginReturn, hphase] <;> rfl
    all_goals simp [State.coreGated, hphase, apply_ite State.pwr, apply_ite Pwr.phase, apply_ite Pwr.leaving]
  · rfl

theorem State.hubTake_coreGated (s : State) (r : EvRec) : (s.hubTake r).coreGated = s.coreGated := by
  have hwake : ∀ (x : State) (b : Bool), (x.onlyIf b fun y => y.wakeReq 12).coreGated = x.coreGated := fun x b => by
    cases b <;> simp
  have hcount : ∀ (x : State) (b : Bool), ((x.fabCount 0x07 0 1).onlyIf b fun y => y.fabCount 0x08 0 1).pwr = x.pwr :=
    fun x b => (onlyTouches.onlyIf (x.fabCount_touch 0x07 0 1) fun y => y.fabCount_touch 0x08 0 1).same .pwr (by decide)
  exact (hwake _ _).trans (by simp [State.coreGated, hcount])

/-- Whether the cores run depends on no record. -/
theorem State.hubTake_coreRuns (s : State) (r : EvRec) : (s.hubTake r).coreRuns = s.coreRuns := by
  have hup : (s.hubTake r).up = s.up := (s.hubTake_touch r).same .up (by decide)
  have hsup : (s.hubTake r).sup = s.sup := (s.hubTake_touch r).same .sup (by decide)
  simp [State.coreRuns, State.isUp_congr s hup, hsup, State.hubTake_coreGated]

theorem hubGains_of_fabWith {s t : State} {r : EvRec} (hhub : t.fab.hub = (s.fabWith r).hub)
    (hlost : t.fab.hubLost = (s.fabWith r).hubLost) : hubGains s t r := by
  refine ⟨fun ⟨hup, hrst, hroom⟩ => ?_, fun h => ?_, ?_⟩
  · have hcores : s.hubCores = [0, 1, 2, 3] := by
      rcases hroom with h | h <;> simp [State.hubCores, hup, hrst, h]
    simp [hhub, State.fabWith, hcores]
  · have hcores : s.hubCores = [] := by
      rcases h with h | h | ⟨h, h'⟩
      · simp [State.hubCores, h]
      · simp [State.hubCores, h]
      · simp [State.hubCores, h, Nat.not_lt.mpr h']
    cases hdep : s.isUp 3 <;> simp [hhub, State.fabWith, hcores, hdep]
  · simp [hlost, State.fabWith, b2n]

/-! ### The oldest record of an island leaves for the hub (R27) -/

/-- The outbound buffer whose oldest record has left, `rest` staying: the entry freed takes the LOST record. -/
def State.freedBuf (s : State) (i : Fin 72) (rest : List EvRec) : OutBuf :=
  if s.fab.out[i].lost = 0 then { recs := rest, lost := 0 }
  else { recs := rest ++ [{ time := s.count, src := i.val, code := 0xFF, arg := BitVec.ofNat 32 s.fab.out[i].lost }],
         lost := 0 }

/-- The state in which that buffer has been freed, and the record has still to reach the hub. -/
def State.freed (s : State) (i : Fin 72) (rest : List EvRec) : State :=
  { s with fab := { s.fab with out := vupd s.fab.out i.val fun _ => s.freedBuf i rest } }

section
variable {s : State} {i : Fin 72} {r : EvRec} {rest : List EvRec}

theorem State.pull_of_cons (hup : s.isUp 2 = true) (hrecs : s.fab.out[i].recs = r :: rest) :
    s.pull i.val = (s.freed i rest).hubTake r := by
  simp only [State.pull, vget_fin, hrecs, hup, if_true]
  rfl

theorem State.pull_of_none (h : s.isUp 2 = false ∨ s.fab.out[i].recs = []) : s.pull i.val = s := by
  rcases h with h | h
  · unfold State.pull
    split
    · rfl
    · simp [h]
  · simp only [State.pull, vget_fin, h]

theorem State.pull_coreSends (hup : s.isUp 2 = true) (hrecs : s.fab.out[i].recs = r :: rest) :
    ((s.freed i rest).fabWith r).CoreSends (s.pull i.val).fab := by
  rw [State.pull_of_cons hup hrecs]
  exact State.hubTake_coreSends _ r

theorem State.pull_hubGains (hup : s.isUp 2 = true) (hrecs : s.fab.out[i].recs = r :: rest) :
    hubGains s (s.pull i.val) r :=
  hubGains_of_fabWith (State.pull_coreSends hup hrecs).hub (State.pull_coreSends hup hrecs).hubLost

theorem State.freed_out_at : ((s.freed i rest).fabWith r).out[i] = s.freedBuf i rest := by
  simp only [State.fabWith, State.freed, vupd_at, if_true]

theorem State.freed_out_ne {j : Fin 72} (hj : j ≠ i) : ((s.freed i rest).fabWith r).out[j] = s.fab.out[j] := by
  have : j.val ≠ i.val := fun e => hj (Fin.ext e)
  simp only [State.fabWith, State.freed, vupd_at, this, if_false]

/-- The buffer of island `i` after the move, if CORE's counters send nothing into it. -/
theorem State.pull_out_at (hup : s.isUp 2 = true) (hrecs : s.fab.out[i].recs = r :: rest)
    (hquiet : i.val ≠ 1 ∨ bit s.pmc.ctl 0 = false) : (s.pull i.val).fab.out[i] = s.freedBuf i rest := by
  rcases hquiet with hi | hoff
  · rw [(State.pull_coreSends hup hrecs).others i hi, State.freed_out_at]
  · rw [State.pull_of_cons hup hrecs, State.hubTake_fab_of_off (s.freed i rest) r hoff, State.freed_out_at]

theorem State.pull_coreRuns (s : State) (i : Fin 72) : (s.pull i.val).coreRuns = s.coreRuns := by
  by_cases hup : s.isUp 2 = true
  · rcases hrecs : s.fab.out[i].recs with _ | ⟨r, rest⟩
    · rw [State.pull_of_none (.inr hrecs)]
    · rw [State.pull_of_cons hup hrecs]
      exact State.hubTake_coreRuns _ r
  · rw [State.pull_of_none (.inl (by simpa using hup))]

end

/-! ### A record reaches a core (R24, R380) -/

theorem takeCore_append_of_none {c : Fin 4} {i : Nat} {l : List HubRec} (x : HubRec) (h : takeCore c i l = none) :
    takeCore c i (l ++ [x]) = (takeCore c i [x]).map fun p => (p.1, l ++ p.2) := by
  induction l with
  | nil => simp
  | cons y l ih =>
    simp only [List.cons_append]
    rw [takeCore] at h ⊢
    split at h
    · cases h
    · rename_i hy
      rw [if_neg hy, ih (by simpa using h), Option.map_map]
      rfl

/-- Of a record that the hub has just taken for all cores, core `c` takes its copy first. -/
theorem takeCore_new (c : Fin 4) (e : EvRec) (dep : Bool) :
    takeCore c e.src [{ ev := e, cores := [0, 1, 2, 3], dep := dep }] =
      some (e, [{ ev := e, cores := [0, 1, 2, 3].filter (fun x => x ≠ c), dep := dep }]) := by
  have hothers : ([0, 1, 2, 3].filter fun x => decide (x ≠ c)).isEmpty = false := by decide +revert
  have hmem : [0, 1, 2, 3].contains c = true := by decide +revert
  simp only [takeCore, hothers, hmem]
  simp

/-- Core `c` takes `e` from the hub, which keeps the records `hub`. -/
def State.coreTakes (s : State) (c : Fin 4) (e : EvRec) (hub : List HubRec) : State :=
  ({ s with fab := { s.fab with hub := hub } } : State).modCore c fun k => k.takeEvent e

section
variable {s : State} {c : Fin 4} {i : Fin 72}

theorem State.coreEvent_of_held {e : EvRec} {hub : List HubRec} (hrun : s.coreRuns = true)
    (hheld : takeCore c i.val s.fab.hub = some (e, hub)) : s.coreEvent c i.val = s.coreTakes c e hub := by
  simp [State.coreEvent, State.coreTakes, hheld, hrun]

theorem State.coreEvent_of_held_stopped (hrun : s.coreRuns = false)
    (hheld : (takeCore c i.val s.fab.hub).isSome = true) : s.coreEvent c i.val = s := by
  obtain ⟨p, hp⟩ := Option.isSome_iff_exists.mp hheld
  simp [State.coreEvent, hp, hrun]

theorem State.coreEvent_of_pulled {e : EvRec} {hub : List HubRec} (hrun : s.coreRuns = true)
    (hnone : takeCore c i.val s.fab.hub = none) (hsome : takeCore c i.val (s.pull i.val).fab.hub = some (e, hub)) :
    s.coreEvent c i.val = (s.pull i.val).coreTakes c e hub := by
  simp [State.coreEvent, State.coreTakes, hnone, hsome, State.pull_coreRuns, hrun]

/-- The cores running, the hub takes the island's oldest record for all of them, and hands core `c` its copy. -/
theorem State.takeCore_pull {e : EvRec} {rest : List EvRec} (hrun : s.coreRuns = true) (hup : s.isUp 2 = true)
    (hnone : takeCore c i.val s.fab.hub = none) (hrecs : s.fab.out[i].recs = e :: rest) (hsrc : e.src = i.val) :
    takeCore c i.val (s.pull i.val).fab.hub =
      some (e, s.fab.hub ++ [{ ev := e, cores := [0, 1, 2, 3].filter (fun x => x ≠ c), dep := s.isUp 3 }]) := by
  obtain ⟨⟨hcore, hrst⟩, hclock⟩ : (s.isUp 1 = true ∧ s.sup.coreReset = false) ∧ s.coreGated = false := by
    simpa [State.coreRuns] using hrun
  obtain ⟨hhub, -, -⟩ := State.pull_hubGains hup hrecs
  rw [hhub ⟨hcore, hrst, .inl hclock⟩, takeCore_append_of_none _ hnone, ← hsrc, takeCore_new]
  rfl

/-- While the core does not run, or when nothing of the island is for it, its record goes no further than the hub. -/
theorem State.coreEvent_eq_pull (hnone : takeCore c i.val s.fab.hub = none)
    (hstay : s.coreRuns = false ∨ takeCore c i.val (s.pull i.val).fab.hub = none) :
    s.coreEvent c i.val = s.pull i.val := by
  have hruns : (s.pull i.val).coreRuns = s.coreRuns := State.pull_coreRuns s i
  unfold State.coreEvent
  simp only [hnone, Option.isSome_none, Bool.false_eq_true, if_false]
  split
  · rfl
  · rename_i hsome
    rcases hstay with h | h
    · simp [hruns, h]
    · simp [hsome] at h

end

theorem State.coreTakes_core_at (s : State) (c : Fin 4) (e : EvRec) (hub : List HubRec) :
    (s.coreTakes c e hub).core[c] = received s.core[c] e := upd_get s.core c _

theorem State.coreTakes_core_ne (s : State) (c : Fin 4) (e : EvRec) (hub : List HubRec) :
    onlyAt c s.core (s.coreTakes c e hub).core := fun j hj => upd_get_ne s.core c j _ hj

theorem State.coreTakes_touch (s : State) (c : Fin 4) (e : EvRec) (hub : List HubRec) :
    onlyTouches [.fab, .core] s (s.coreTakes c e hub) :=
  (onlyTouches.put_fab (onlyTouches.refl _ s) (by decide) _).trans (State.modCore_touch ..) (by decide)

/-- Settles O11, by what one record changes on its way: the buffer it leaves, the hub, and the core that takes it. -/
theorem eventsLeaveInOrderAndReachFilters : Obligations.EventsLeaveInOrderAndReachFilters := by
  unfold Obligations.EventsLeaveInOrderAndReachFilters
  refine ⟨?_, ?_, ?_, ?_, ?_, ?_⟩
  · intro s i r rest hup hrecs
    have hsends := State.pull_coreSends hup hrecs
    refine ⟨_, rfl, ?_, fun hquiet => ?_, State.pull_hubGains hup hrecs, fun j hj hj1 => ?_, ?_⟩
    · have hgrows := hsends.grows i
      rw [State.freed_out_at] at hgrows
      simpa [State.freedBuf, apply_ite OutBuf.recs] using hgrows
    · exact State.pull_out_at hup hrecs hquiet
    · rw [hsends.others j hj1, State.freed_out_ne hj]
    · exact (s.pull_touch i.val).mono (by decide)
  · intro s i h
    exact ⟨_, rfl, State.pull_of_none h⟩
  · intro s c i e hub hrun hheld
    refine ⟨_, congrArg Host.Outcome.next (State.coreEvent_of_held hrun hheld), rfl, ?_, ?_, ?_⟩
    · exact s.coreTakes_core_ne c e hub
    · exact s.coreTakes_core_at c e hub
    · exact s.coreTakes_touch c e hub
  · intro s c i e rest hrun hup hnone hrecs hsrc
    have htaken := State.takeCore_pull hrun hup hnone hrecs hsrc
    have hcore : (s.pull i.val).core = s.core := (s.pull_touch i.val).same .core (by decide)
    refine ⟨_, congrArg Host.Outcome.next (State.coreEvent_of_pulled hrun hnone htaken), ?_, ?_, rfl, ?_⟩
    · rw [State.coreTakes_core_at, hcore]
    · have hothers := (s.pull i.val).coreTakes_core_ne c e
      rw [hcore] at hothers
      exact hothers _
    · exact ((s.pull_touch i.val).mono (by decide)).trans (State.coreTakes_touch ..) (by decide)
  · intro s c i e rest hrun hup hnone hrecs
    have hpull := State.coreEvent_eq_pull hnone (.inl hrun)
    refine ⟨_, congrArg Host.Outcome.next hpull, State.pull_hubGains hup hrecs, ?_, ?_⟩
    · exact (s.pull_touch i.val).same .core (by decide)
    · exact (s.pull_touch i.val).mono (by decide)
  · rintro s c i (⟨hnone, h⟩ | ⟨hrun, hheld⟩)
    · have hpull : s.pull i.val = s := State.pull_of_none h.symm
      exact ⟨_, rfl, (State.coreEvent_eq_pull hnone (.inr (by rw [hpull]; exact hnone))).trans hpull⟩
    · exact ⟨_, rfl, State.coreEvent_of_held_stopped hrun hheld⟩

end Sys2Proof.Machine
/-! ## High-side channels: what each operation makes of its channel (R50 to R97)

Every operation of a channel changes `State.hs` at that channel alone: `…_hs` says to what. What a switch-off command does
is said once, by `State.hsStop_cases`; the commands of firmware, of ADM, of the crossbar and of the orphan hold use it. -/

namespace Sys2Proof.Machine

open Claims

theorem onlyAt_upd {α : Type} {n : Nat} (v : Vector α n) (i : Fin n) (f : α → α) : onlyAt i v (upd v i f) :=
  fun j hj => upd_get_ne v i j f hj

theorem upd_self {α : Type} {n : Nat} (v : Vector α n) (i : Fin n) (f : α → α) (h : f v[i] = v[i]) : upd v i f = v := by
  ext j hj
  by_cases hij : i.val = j
  · subst hij
    simpa using h
  · simp [hij]

/-- A channel that has changed by `f` is what `f` makes of it, and no other has changed. -/
theorem changed_at {α : Type} {n : Nat} {v w : Vector α n} {i : Fin n} {f : α → α} (h : w = upd v i f) :
    w[i] = f v[i] ∧ onlyAt i v w := by
  subst h
  exact ⟨upd_get .., onlyAt_upd v i f⟩

theorem onlyTouches.now_eq {ps : List Part} {s t : State} (k : onlyTouches ps s t) (h : Part.tmb ∉ ps) : t.now = s.now :=
  s.now_congr (k.same .tmb h)

theorem onlyTouches.isUp_eq {ps : List Part} {s t : State} (k : onlyTouches ps s t) (h : Part.up ∉ ps) (i : Nat) :
    t.isUp i = s.isUp i := s.isUp_congr (k.same .up h) i

/-- A loop over units in which turn `i` alone concerns what `view` shows: turn `i` meets it as it was before the loop, in
a state that the loop's own parts alone have changed, and leaves it as it is after the loop. -/
theorem forFin_at {k : Nat} {op : Fin k → State → State} {ps : List Part} {β : Type} (view : State → β) {i : Fin k}
    (htouch : ∀ j x, onlyTouches ps x (op j x)) (hothers : ∀ j x, j ≠ i → view (op j x) = view x) (s : State) :
    ∃ y, onlyTouches ps s y ∧ view y = view s ∧ view (forFin k op s) = view (op i y) := by
  have hkeeps (l : List (Fin k)) (hl : i ∉ l) (x : State) : view (l.foldl (fun x j => op j x) x) = view x := by
    induction l generalizing x with
    | nil => rfl
    | cons j r ih =>
      rw [List.mem_cons, not_or] at hl
      exact (ih hl.2 _).trans (hothers j x (Ne.symm hl.1))
  obtain ⟨pre, post, hsplit⟩ := List.append_of_mem (List.mem_finRange i)
  have hnodup := hsplit ▸ List.nodup_finRange k
  rw [List.nodup_append, List.nodup_cons] at hnodup
  obtain ⟨-, ⟨hpost, -⟩, hdisj⟩ := hnodup
  have hpre : i ∉ pre := fun h => hdisj i h i List.mem_cons_self rfl
  refine ⟨pre.foldl (fun x j => op j x) s, onlyTouches.foldl (fun x j => htouch j x) pre (onlyTouches.refl _ s),
    hkeeps pre hpre s, ?_⟩
  rw [forFin, hsplit, List.foldl_append, List.foldl_cons]
  exact hkeeps post hpost _

variable (s : State) (n : Fin 48)

/-! ### The states of a channel -/

/-- The channel after it has entered `st` at time `now` (R50, R76, R78, R86). -/
def Hs.entered (h : Hs) (now : Nat) (st : HsSt) : Hs :=
  { h with
    st := st, retryAt := if st == .retryWait && !h.tl then some now else none, retryDone := false,
    onStAt := if st == .on then now else h.onStAt, fallSeen := false }

@[simp] theorem Hs.entered_st (h : Hs) (now : Nat) (st : HsSt) : (h.entered now st).st = st := rfl

/-- The retry timer does not start while the thermal latch is held (R76). -/
theorem Hs.entered_retryAt_of_tl (now : Nat) (st : HsSt) {h : Hs} (htl : h.tl = true) :
    (h.entered now st).retryAt = none := by
  simp [Hs.entered, htl]

/-- I0 of a turn-off with SW_OFF cause `cause` (R100, R104). -/
def State.turnOffMa (cause : Nat) : Rat :=
  if s.pwr.phase == .deep then ocThr n.val (fld s.hs[n].ocCfg 0 6)
  else if cause = 2 then 4 * (iNom n.val : Rat)
  else if cause = 1 then ocThr n.val s.hs[n].level
  else s.dig[tHs n].i

/-- The channel after its switch has turned off into `st` with the current `i0`. -/
def Hs.turnedOff (h : Hs) (i0 : Rat) (now : Nat) (st : HsSt) : Hs :=
  { h with onUs := h.onUs + (now - h.onAt), offI0 := i0, offTj := h.tj, est := h.est.stop }.entered now st

@[simp] theorem Hs.turnedOff_st (h : Hs) (i0 : Rat) (now : Nat) (st : HsSt) : (h.turnedOff i0 now st).st = st := rfl

@[simp] theorem State.hsRes_hs (r : Nat) : (s.hsRes n r).hs = upd s.hs n fun h => { h with cmdRes := r } := rfl

@[simp] theorem State.hsEnter_hs (st : HsSt) : (s.hsEnter n st).hs = upd s.hs n fun h => h.entered s.now st := rfl

@[simp] theorem State.hsWithdraw_hs :
    (s.hsWithdraw n).hs = upd s.hs n fun h => { h with own := false, heldReq := none } := by
  unfold State.hsWithdraw State.onlyIf
  split <;> rfl

@[simp] theorem State.hsSwitchOff_hs (st : HsSt) (cause : Nat) :
    (s.hsSwitchOff n st cause).hs = upd s.hs n fun h => h.turnedOff (s.turnOffMa n cause) s.now st := by
  simp only [State.hsSwitchOff, State.emitAdm_hs, State.capTrigger, State.modDig_hs, State.hsEnter_hs, State.modHs_hs,
    upd_upd]
  rfl

/-! ### What an OFF command or an EN write of 0 can do (R50, R54, R56) -/

/-- The command comes in the cycle of the channel's last event, which was `m`. -/
def State.hsMarked (same : Bool) (m : Mark) : Prop :=
  same = true ∧ s.hs[n].markAt = s.now ∧ s.hs[n].mark = m

theorem hsOn_iff (st : HsSt) : hsOn st = true ↔ st = .inrush ∨ st = .on := by cases st <;> decide

theorem State.hsStop_cases (to_ : HsSt) (cause : Nat) (same : Bool) :
    (s.hsStop n to_ cause same = (s, 0) ∧ (s.hs[n].st = .disabled ∨ s.hs[n].st = .off ∧ to_ ≠ .disabled)) ∨
    (s.hsStop n to_ cause same = (s.hsEnter n to_, 0) ∧
      (s.hs[n].st = .off ∧ to_ = .disabled ∨ s.hs[n].st = .uvWait ∨ s.hs[n].st = .retryWait ∨
        s.hs[n].st = .latched ∧ s.hsMarked n same .fault)) ∨
    (s.hsStop n to_ cause same = ((s.hsWithdraw n).hsEnter n to_, 0) ∧ s.hs[n].st = .pending) ∨
    (s.hsStop n to_ cause same = (s.hsSwitchOff n to_ cause, 0) ∧ hsOn s.hs[n].st = true ∧ ¬ s.hsMarked n same .grantOn) ∨
    (s.hsStop n to_ cause same = (s, 1) ∧ hsOn s.hs[n].st = true ∧ s.hsMarked n same .grantOn) ∨
    (s.hsStop n to_ cause same = (s, if to_ == .disabled then 0 else 2) ∧ s.hs[n].st = .latched ∧
      ¬ s.hsMarked n same .fault) := by
  unfold State.hsStop
  dsimp only
  cases s.hs[n].st
  case disabled => simp
  case off => by_cases hto : to_ = .disabled <;> simp [hto]
  case pending => simp
  case inrush | on => by_cases hm : s.hsMarked n same .grantOn <;> simp_all [hsOn, State.hsMarked]
  case uvWait => simp
  case retryWait => simp
  case latched => by_cases hm : s.hsMarked n same .fault <;> simp_all [hsOn, State.hsMarked]

section
variable {s n} {to_ : HsSt} {cause : Nat} {same : Bool}

/-- In the cycle of a fault the command reaches its state (R54). -/
theorem State.hsStop_of_fault (hmark : s.hsMarked n same .fault) (hst : s.hs[n].st = .latched ∨ s.hs[n].st = .retryWait) :
    s.hsStop n to_ cause same = (s.hsEnter n to_, 0) := by
  have := s.hsStop_cases n to_ cause same
  rcases hst with hst | hst <;> simp_all [hsOn]

/-- In the cycle of its grant the channel stays on: TOO_LATE (R56). -/
theorem State.hsStop_of_grantOn (hmark : s.hsMarked n same .grantOn) (hon : hsOn s.hs[n].st = true) :
    s.hsStop n to_ cause same = (s, 1) := by
  have := s.hsStop_cases n to_ cause same
  rcases (hsOn_iff _).1 hon with hst | hst <;> simp_all [hsOn]

theorem State.hsStop_of_disabled (hst : s.hs[n].st = .disabled) : s.hsStop n to_ cause same = (s, 0) := by
  have := s.hsStop_cases n to_ cause same
  simp_all [hsOn]

theorem State.hsStop_of_latched (hmark : ¬ s.hsMarked n same .fault) (hst : s.hs[n].st = .latched) :
    s.hsStop n to_ cause same = (s, if to_ == .disabled then 0 else 2) := by
  have := s.hsStop_cases n to_ cause same
  simp_all [hsOn]
end

/-- What an OFF command or an EN write of 0 leaves of the channel, whatever it does. -/
theorem State.hsStop_hs (to_ : HsSt) (cause : Nat) (same : Bool) :
    ∃ f : Hs → Hs, (s.hsStop n to_ cause same).1.hs = upd s.hs n f ∧ (f s.hs[n]).ctl = s.hs[n].ctl ∧
      (f s.hs[n]).limp = s.hs[n].limp := by
  rcases s.hsStop_cases n to_ cause same with ⟨h, -⟩ | ⟨h, -⟩ | ⟨h, -⟩ | ⟨h, -⟩ | ⟨h, -⟩ | ⟨h, -⟩ <;> rw [h]
  · exact ⟨id, (upd_self _ _ _ rfl).symm, rfl, rfl⟩
  · exact ⟨_, State.hsEnter_hs .., rfl, rfl⟩
  · exact ⟨_, (State.hsEnter_hs ..).trans (by rw [State.hsWithdraw_hs, upd_upd]), rfl, rfl⟩
  · exact ⟨_, State.hsSwitchOff_hs .., rfl, rfl⟩
  · exact ⟨id, (upd_self _ _ _ rfl).symm, rfl, rfl⟩
  · exact ⟨id, (upd_self _ _ _ rfl).symm, rfl, rfl⟩

theorem State.hsStop_onlyAt (to_ : HsSt) (cause : Nat) (same : Bool) :
    onlyAt n s.hs (s.hsStop n to_ cause same).1.hs := by
  obtain ⟨f, hf, -⟩ := s.hsStop_hs n to_ cause same
  exact hf ▸ onlyAt_upd _ _ _

theorem State.hsStop_ctl (to_ : HsSt) (cause : Nat) (same : Bool) :
    (s.hsStop n to_ cause same).1.hs[n].ctl = s.hs[n].ctl := by
  obtain ⟨f, hf, hctl, -⟩ := s.hsStop_hs n to_ cause same
  rw [hf, upd_get, hctl]

/-- Outside the cycle of a grant and of LATCHED the command is carried out: CMD_RES OK, and the state commanded, but
DISABLED stays at an OFF (R50). -/
theorem State.hsStop_ends {s : State} {n : Fin 48} {to_ : HsSt} (cause : Nat) {same : Bool}
    (hto : to_ = .off ∨ to_ = .disabled) (hgrant : ¬ s.hsMarked n same .grantOn) (hst : s.hs[n].st ≠ .latched) :
    (s.hsStop n to_ cause same).2 = 0 ∧
      (s.hsStop n to_ cause same).1.hs[n].st = if s.hs[n].st = .disabled then .disabled else to_ := by
  rcases s.hsStop_cases n to_ cause same with ⟨h, hg⟩ | ⟨h, hg⟩ | ⟨h, hg⟩ | ⟨h, hg, -⟩ | ⟨-, -, hg⟩ | ⟨-, hg, -⟩
  · rcases hg with hg | ⟨hg, hto'⟩
    · simp [-Fin.getElem_fin, h, hg]
    · simpa [-Fin.getElem_fin, h, hg] using (hto.resolve_right hto').symm
  · rcases hg with ⟨hg, hto'⟩ | hg | hg | ⟨hg, -⟩
    · simp [-Fin.getElem_fin, upd_get, h, hg]
    · simp [-Fin.getElem_fin, upd_get, h, hg]
    · simp [-Fin.getElem_fin, upd_get, h, hg]
    · exact absurd hg hst
  · simp [-Fin.getElem_fin, upd_get, h, hg]
  · have hdis : s.hs[n].st ≠ .disabled := fun e => by rw [e] at hg; exact absurd hg (by decide)
    simp [-Fin.getElem_fin, upd_get, h, hdis]
  · exact absurd hg hgrant
  · exact absurd hg hst

/-- Outside the cycle of a grant no OFF leaves the channel on or PENDING, nor is it TOO_LATE. -/
theorem State.hsStop_off {s : State} {n : Fin 48} (cause : Nat) {same : Bool} (hgrant : ¬ s.hsMarked n same .grantOn) :
    (s.hsStop n .off cause same).2 ≠ 1 ∧ hsOn (s.hsStop n .off cause same).1.hs[n].st = false ∧
      (s.hsStop n .off cause same).1.hs[n].st ≠ .pending := by
  by_cases hst : s.hs[n].st = .latched
  · by_cases hfault : s.hsMarked n same .fault
    · simp [-Fin.getElem_fin, upd_get, State.hsStop_of_fault hfault (.inl hst), hsOn]
    · simp [-Fin.getElem_fin, State.hsStop_of_latched hfault hst, hsOn, hst]
  · obtain ⟨hres, hend⟩ := State.hsStop_ends cause (.inl rfl) hgrant hst
    rw [hres, hend]
    split <;> decide

end Sys2Proof.Machine
/-! ## EN, OFF, CLEAR and ALL_OFF of firmware (R49, R50, R54, R56, R85, R96, R97, R603) -/

namespace Sys2Proof.Machine

open Claims

/-- A store row that is served acts on the state with the accounts of the access, which leave the unit alone. -/
theorem fires_storeIf {s : State} {i : Instr} {c : Fin 4} {isl g : Nat} {f : State → State} {ps : List Part}
    {P : State → Prop} (hexec : exec i s = .next (s.storeIf c isl g f)) (hcan : canStore s isl g)
    (htouch : ∀ x, onlyTouches ps x (f x)) (hps : ∀ q ∈ [Part.fab, .answer, .pmc, .free], q ∈ ps)
    (hP : ∀ t, { f (s.served c) with answer := .done } = t → onlyTouches ps s t → P t) : fires i s P := by
  obtain ⟨hruns, hup, hgoes⟩ := hcan
  have hrow := s.storeIf_run c isl g f hruns hup hgoes
  exact ⟨_, hexec, hP _ hrow.symm (s.storeIf_touch c isl g f htouch hps)⟩

/-- The parts that a store into a channel's block may change. -/
abbrev hsRowParts : List Part := [.fab, .answer, .hs, .dig, .adm, .pmc, .free]

/-- A store row into a channel's block that is served: the channels are as its effect leaves them. -/
theorem fires_hsRow {s : State} {i : Instr} {c : Fin 4} {isl : Nat} {f : State → State} {P : State → Prop}
    (hexec : exec i s = .next (s.storeIf c isl 8 f)) (hcan : canStore s isl 8)
    (htouch : ∀ x, onlyTouches [.fab, .hs, .dig, .adm] x (f x))
    (hP : ∀ t, t.hs = (f (s.served c)).hs → onlyTouches hsRowParts s t → P t) : fires i s P :=
  fires_storeIf hexec hcan (fun x => (htouch x).mono (by decide)) (by decide) fun t ht k => hP t (by rw [← ht]) k

@[simp] theorem bit_enable (v : W32) : bit (keep 7 (v ||| 1)) 0 = true := by
  simp [bit, keep]

@[simp] theorem bit_disable (v : W32) : bit (keep 7 (v &&& 0xFFFFFFFE)) 0 = false := by
  simp [bit, keep]

section
variable {s : State} {n : Fin 48} {v : W32} {same : Bool}

/-- A write of CH_CTL with EN 1 is stored and takes a DISABLED channel to OFF. -/
theorem State.hsCtlWrite_enters (hen : bit (keep 7 v) 0 = true) (hheld : s.hsPadHeld n = false)
    (hst : s.hs[n].st = .disabled) :
    (s.hsCtlWrite n v same).hs = upd s.hs n fun h => { h with ctl := keep 7 v, cmdRes := 0 }.entered s.now .off := by
  simp only [State.hsCtlWrite, hen, hheld, hst, if_true, if_false, beq_self_eq_true, Bool.false_eq_true,
    State.hsEnter_hs, State.modHs_hs, upd_upd]
  rfl

theorem State.hsCtlWrite_stores (hen : bit (keep 7 v) 0 = true) (hheld : s.hsPadHeld n = false)
    (hst : s.hs[n].st ≠ .disabled) :
    (s.hsCtlWrite n v same).hs = upd s.hs n fun h => { h with ctl := keep 7 v, cmdRes := 0 } := by
  simp [-Fin.getElem_fin, State.hsCtlWrite, hen, hheld, hst]

theorem State.hsCtlWrite_held (hen : bit (keep 7 v) 0 = true) (hheld : s.hsPadHeld n = true) :
    s.hsCtlWrite n v same = s.hsRes n 2 := by simp [State.hsCtlWrite, hen, hheld]

theorem State.hsCtlWrite_limp (hen : bit (keep 7 v) 0 = false) (hlimp : s.hs[n].limp = true) :
    s.hsCtlWrite n v same = s.hsRes n 2 := by simp_all [State.hsCtlWrite]

/-- A write of CH_CTL with EN 0 outside limp mode is an OFF to DISABLED, and stored unless that is TOO_LATE. -/
theorem State.hsCtlWrite_disable (hen : bit (keep 7 v) 0 = false) (hlimp : s.hs[n].limp = false) :
    (s.hsCtlWrite n v same).hs =
      upd (s.hsStop n .disabled 6 same).1.hs n fun h =>
        { h with
          ctl := if (s.hsStop n .disabled 6 same).2 = 1 then h.ctl else keep 7 v
          cmdRes := (s.hsStop n .disabled 6 same).2 } := by
  by_cases hlate : (s.hsStop n .disabled 6 same).2 = 1 <;>
    simp [-Fin.getElem_fin, State.hsCtlWrite, hen, hlimp, hlate]

/-- An OFF of firmware or ADM outside limp mode. -/
theorem State.hsOffCmd_hs (cause : Nat) (hlimp : s.hs[n].limp = false) :
    (s.hsOffCmd n cause same).hs =
      upd (s.hsStop n .off cause same).1.hs n fun h => { h with cmdRes := (s.hsStop n .off cause same).2 } := by
  simp [-Fin.getElem_fin, State.hsOffCmd, hlimp]

theorem State.hsOffCmd_limp (cause : Nat) (hlimp : s.hs[n].limp = true) : s.hsOffCmd n cause same = s.hsRes n 2 := by
  simp_all [State.hsOffCmd]

end
/-! ### What the accounts of an access leave of a channel -/

section
variable (s : State) (c : Fin 4) (n : Fin 48)

@[simp] theorem State.served_now : (s.served c).now = s.now := (s.served_touch c).now_eq (by decide)

@[simp] theorem State.served_hsUp : (s.served c).hsUp n = s.hsUp n := (s.served_touch c).isUp_eq (by decide) _

@[simp] theorem State.served_hsPadHeld : (s.served c).hsPadHeld n = s.hsPadHeld n := by
  simp only [State.hsPadHeld, State.served_pwr]

@[simp] theorem State.served_hsMarked (same : Bool) (m : Mark) :
    (s.served c).hsMarked n same m ↔ s.hsMarked n same m := by
  simp only [State.hsMarked, State.served_hs, State.served_now]
end

/-! ### A switch-off command carried out -/

section
variable {s t : State} {n : Fin 48} {same : Bool} {v w : W32}

theorem onlyAt_trans {α : Type} {k : Nat} {i : Fin k} {u v w : Vector α k} (a : onlyAt i u v) (b : onlyAt i v w) :
    onlyAt i u w := fun j hj => (b j hj).trans (a j hj)

/-- EN 0 outside limp mode and the cycle of a grant takes every state but LATCHED to DISABLED. -/
theorem State.hsCtlWrite_ends (hen : bit (keep 7 v) 0 = false) (hlimp : s.hs[n].limp = false)
    (hgrant : ¬ s.hsMarked n same .grantOn) (hst : s.hs[n].st ≠ .latched) {w : Vector Hs 48}
    (hw : w = (s.hsCtlWrite n v same).hs) :
    w[n].st = .disabled ∧ w[n].cmdRes = 0 ∧ w[n].ctl = keep 7 v ∧ onlyAt n s.hs w := by
  obtain ⟨hres, hend⟩ := State.hsStop_ends 6 (.inr rfl) hgrant hst
  rw [State.hsCtlWrite_disable hen hlimp] at hw
  obtain ⟨hat, hothers⟩ := changed_at hw
  refine ⟨?_, ?_, ?_, onlyAt_trans (s.hsStop_onlyAt n _ _ _) hothers⟩
  · rw [hat, hend, ite_self]
  · rw [hat, hres]
  · rw [hat, hres]
    rfl

/-- OFF outside limp mode and the cycle of a grant takes every state but LATCHED and DISABLED to OFF. -/
theorem State.hsOffCmd_ends (cause : Nat) (hlimp : s.hs[n].limp = false) (hgrant : ¬ s.hsMarked n same .grantOn)
    (hst : s.hs[n].st ≠ .latched) (hdis : s.hs[n].st ≠ .disabled) {w : Vector Hs 48}
    (hw : w = (s.hsOffCmd n cause same).hs) :
    w[n].st = .off ∧ w[n].cmdRes = 0 ∧ w[n].ctl = s.hs[n].ctl ∧ onlyAt n s.hs w := by
  obtain ⟨hres, hend⟩ := State.hsStop_ends cause (.inl rfl) hgrant hst
  rw [State.hsOffCmd_hs cause hlimp] at hw
  obtain ⟨hat, hothers⟩ := changed_at hw
  refine ⟨?_, ?_, ?_, onlyAt_trans (s.hsStop_onlyAt n _ _ _) hothers⟩
  · rw [hat, hend, if_neg hdis]
  · rw [hat, hres]
  · rw [hat, s.hsStop_ctl]
end

theorem State.hsMarked_false (s : State) (n : Fin 48) (m : Mark) : ¬ s.hsMarked n false m := fun h => nomatch h.1

/-- A command of another cycle than the channel's last event, or marked as such. -/
theorem State.not_hsMarked {s : State} {n : Fin 48} {same : Bool} (h : s.hs[n].markAt ≠ s.now ∨ same = false) (m : Mark) :
    ¬ s.hsMarked n same m := fun ⟨hsame, hat, _⟩ => h.elim (fun hne => hne hat) (fun hf => nomatch hsame.symm.trans hf)

theorem State.hsCmdWrite_off (s : State) (n : Fin 48) (same : Bool) :
    s.hsCmdWrite n true false same = s.hsOffCmd n 0 same := rfl

theorem State.hsCmdWrite_clear (s : State) (n : Fin 48) : s.hsCmdWrite n false true false = s.hsClearCmd n := rfl

theorem State.hsOffCmd_latched {s : State} {n : Fin 48} (cause : Nat) (hst : s.hs[n].st = .latched) :
    (s.hsOffCmd n cause false).hs = upd s.hs n fun h => { h with cmdRes := 2 } := by
  cases hlimp : s.hs[n].limp
  · rw [State.hsOffCmd_hs cause hlimp, State.hsStop_of_latched (s.hsMarked_false n _) hst]
    rfl
  · rw [State.hsOffCmd_limp cause hlimp, State.hsRes_hs]

/-- CLEAR outside limp mode and with the thermal latch clear: RETRY_CNT is zero, and RETRY_WAIT and LATCHED are left. -/
theorem State.hsClearCmd_runs {s : State} {n : Fin 48} (hlimp : s.hs[n].limp = false) (htl : s.hs[n].tl = false) :
    ∃ f : Hs → Hs, (s.hsClearCmd n).hs = upd s.hs n f ∧ (f s.hs[n]).retryCnt = 0 ∧ (f s.hs[n]).cmdRes = 0 ∧
      (f s.hs[n]).st = (if s.hs[n].st = .retryWait then .off else if s.hs[n].st = .latched then
        (if bit s.hs[n].ctl 0 then .off else .disabled) else s.hs[n].st) := by
  simp only [State.hsClearCmd, hlimp, htl, Bool.or_self, Bool.false_eq_true, if_false]
  cases hst : s.hs[n].st
  case retryWait | latched =>
    simp only [State.hsEnter_hs, State.modHs_hs, upd_upd]
    exact ⟨_, rfl, rfl, rfl, rfl⟩
  all_goals exact ⟨fun h => { h with retryCnt := 0, cmdRes := 0 }, rfl, rfl, rfl, hst⟩

theorem State.hsClearCmd_refused {s : State} {n : Fin 48} (h : s.hs[n].limp = true ∨ s.hs[n].tl = true) :
    s.hsClearCmd n = s.hsRes n 2 := by
  rcases h with h | h <;> simp [-Fin.getElem_fin, State.hsClearCmd, h]

/-! ### ALL_OFF -/

theorem onlyAt_refl {α : Type} {k : Nat} (i : Fin k) (v : Vector α k) : onlyAt i v v := fun _ _ => rfl

theorem State.hsOffCmd_onlyAt (s : State) (n : Fin 48) (cause : Nat) (same : Bool) :
    onlyAt n s.hs (s.hsOffCmd n cause same).hs := by
  cases hlimp : s.hs[n].limp
  · rw [State.hsOffCmd_hs cause hlimp]
    exact onlyAt_trans (s.hsStop_onlyAt n _ _ _) (onlyAt_upd _ _ _)
  · rw [State.hsOffCmd_limp cause hlimp]
    exact onlyAt_upd _ _ _

/-- What ALL_OFF makes of each channel. -/
theorem State.hsAllOff_at (s : State) (n : Fin 48) (same : Bool) :
    (s.hsUp n = true → s.hs[n].limp = false →
      (¬ s.hsMarked n same .grantOn →
        hsOn (s.hsAllOff same).hs[n].st = false ∧ (s.hsAllOff same).hs[n].st ≠ .pending) ∧
      (s.hs[n].st = .disabled → (s.hsAllOff same).hs[n].st = .disabled) ∧
      (s.hsMarked n same .grantOn → hsOn s.hs[n].st = true →
        (s.hsAllOff same).hs[n] = { s.hs[n] with cmdRes := 1 })) ∧
    (s.hsUp n = false ∨ s.hs[n].limp = true → (s.hsAllOff same).hs[n] = s.hs[n]) := by
  obtain ⟨y, htouch, hy, hloop⟩ := forFin_at (k := 48) (ps := [.fab, .hs, .dig, .adm]) (fun x => x.hs[n]) (i := n)
    (op := fun j x => x.onlyIf (x.hsUp j && !x.hs[j].limp) fun x => x.hsOffCmd j 0 same)
    (fun j x => onlyTouches.onlyIf (onlyTouches.refl _ x) fun x => x.hsOffCmd_touch j 0 same)
    (fun j x hj => by
      cases hc : x.hsUp j && !x.hs[j].limp
      · rfl
      · exact x.hsOffCmd_onlyAt j 0 same n hj.symm) s
  have hup : y.hsUp n = s.hsUp n := htouch.isUp_eq (by decide) _
  have hmarked (m : Mark) : y.hsMarked n same m ↔ s.hsMarked n same m := by
    simp only [State.hsMarked, hy, htouch.now_eq (by decide)]
  change (s.hsAllOff same).hs[n] = _ at hloop
  rw [hup, hy] at hloop
  refine ⟨fun hpow hlimp => ?_, fun hwhy => ?_⟩
  · rw [hpow, hlimp] at hloop
    have hoff := (hloop.trans (congrArg (·[n]) (y.hsOffCmd_hs (n := n) (same := same) 0 (by rw [hy, hlimp])))).trans
      (upd_get ..)
    refine ⟨fun hgrant => ?_, fun hst => ?_, fun hgrant hon => ?_⟩
    · rw [hoff]
      exact (State.hsStop_off 0 (mt (hmarked _).1 hgrant)).2
    · rw [hoff, State.hsStop_of_disabled (by rw [hy, hst]), hy]
      exact hst
    · rw [hoff, State.hsStop_of_grantOn ((hmarked _).2 hgrant) (by rw [hy, hon]), hy]
  · have hshut : (s.hsUp n && !s.hs[n].limp) = false := by
      rcases hwhy with h | h <;> simp [-Fin.getElem_fin, h]
    rw [hloop, hshut]
    exact hy

/-- Settles O12: each command is served, and `State.hsStop_cases` says what a switch-off can do. -/
theorem highSideFirmwareCommandsMoveTheChannel : Obligations.HighSideFirmwareCommandsMoveTheChannel := by
  unfold Obligations.HighSideFirmwareCommandsMoveTheChannel
  refine ⟨?_, ?_, ?_, ?_, ?_, ?_, ?_, ?_, ?_, ?_, ?_, ?_, ?_, ?_, ?_, ?_⟩
  · intro s c n v same hcan hst hheld
    refine fires_hsRow rfl hcan (fun x => x.hsCtlWrite_touch n (v ||| 1) same) fun t hhs htouch => ?_
    rw [State.hsCtlWrite_enters (bit_enable v) (by simpa using hheld) (by simpa using hst), State.served_hs] at hhs
    obtain ⟨hat, hothers⟩ := changed_at hhs
    exact ⟨by rw [hat]; rfl, by rw [hat]; rfl, by rw [hat]; rfl, hothers, htouch⟩
  · intro s c n v same hcan hst hheld
    refine fires_hsRow rfl hcan (fun x => x.hsCtlWrite_touch n (v ||| 1) same) fun t hhs htouch => ?_
    rw [State.hsCtlWrite_stores (bit_enable v) (by simpa using hheld) (by simpa using hst), State.served_hs] at hhs
    obtain ⟨hat, hothers⟩ := changed_at hhs
    exact ⟨hat, hothers, htouch⟩
  · intro s c n v same hcan hlimp
    refine fires_hsRow rfl hcan (fun x => x.hsCtlWrite_touch n (v &&& 0xFFFFFFFE) same) fun t hhs htouch => ?_
    rw [State.hsCtlWrite_limp (bit_disable v) (by simpa using hlimp), State.hsRes_hs, State.served_hs] at hhs
    obtain ⟨hat, hothers⟩ := changed_at hhs
    exact ⟨hat, hothers, htouch⟩
  · intro s c n v hcan hlimp hst
    refine fires_hsRow rfl hcan (fun x => x.hsCtlWrite_touch n (v &&& 0xFFFFFFFE) false) fun t hhs htouch => ?_
    rw [State.hsCtlWrite_disable (bit_disable v) (by simpa using hlimp),
      State.hsStop_of_latched (State.hsMarked_false _ _ _) (by simpa using hst), State.served_hs] at hhs
    obtain ⟨hat, hothers⟩ := changed_at hhs
    exact ⟨by rw [hat]; rfl, by rw [hat]; exact bit_disable v, hothers, htouch⟩
  · intro s c n v hcan hlimp hmarkAt hmark hon
    refine fires_hsRow rfl hcan (fun x => x.hsCtlWrite_touch n (v &&& 0xFFFFFFFE) true) fun t hhs htouch => ?_
    rw [State.hsCtlWrite_disable (bit_disable v) (by simpa using hlimp),
      State.hsStop_of_grantOn (by simpa using ⟨rfl, hmarkAt, hmark⟩) (by simpa using hon), State.served_hs] at hhs
    obtain ⟨hat, hothers⟩ := changed_at hhs
    exact ⟨hat, hothers, htouch⟩
  · intro s c n v hcan hlimp hmarkAt hmark hst
    refine fires_hsRow rfl hcan (fun x => x.hsCtlWrite_touch n (v &&& 0xFFFFFFFE) true) fun t hhs htouch => ?_
    rw [State.hsCtlWrite_disable (bit_disable v) (by simpa using hlimp),
      State.hsStop_of_fault (by simpa using ⟨rfl, hmarkAt, hmark⟩) (by simpa using hst), State.hsEnter_hs, upd_upd,
      State.served_hs] at hhs
    obtain ⟨hat, hothers⟩ := changed_at hhs
    exact ⟨by rw [hat]; rfl, by rw [hat], hothers, htouch⟩
  · intro s c n same hcan hlimp hst
    refine fires_hsRow rfl hcan (fun x => x.hsCmdWrite_touch n true false same) fun t hhs htouch => ?_
    rw [State.hsCmdWrite_off, State.hsOffCmd_hs 0 (by simpa using hlimp), State.hsStop_of_disabled (by simpa using hst),
      State.served_hs] at hhs
    obtain ⟨hat, hothers⟩ := changed_at hhs
    exact ⟨hat, hothers, htouch⟩
  · intro s c n v same hcan hheld
    refine fires_hsRow rfl hcan (fun x => x.hsCtlWrite_touch n (v ||| 1) same) fun t hhs htouch => ?_
    rw [State.hsCtlWrite_held (bit_enable v) (by simpa using hheld), State.hsRes_hs, State.served_hs] at hhs
    obtain ⟨hat, hothers⟩ := changed_at hhs
    exact ⟨hat, hothers, htouch⟩
  · intro s c n v same hcan hlimp hcycle hst
    refine fires_hsRow rfl hcan (fun x => x.hsCtlWrite_touch n (v &&& 0xFFFFFFFE) same) fun t hhs htouch => ?_
    obtain ⟨hend, hres, hctl, hothers⟩ := State.hsCtlWrite_ends (bit_disable v) (by simpa using hlimp)
      (by simpa using State.not_hsMarked hcycle _) (by simpa using hst) hhs
    exact ⟨hend, hres, by rw [hctl]; exact bit_disable v, by simpa using hothers, htouch⟩
  · intro s c n same hcan hlimp hcycle hst hdis
    refine fires_hsRow rfl hcan (fun x => x.hsCmdWrite_touch n true false same) fun t hhs htouch => ?_
    obtain ⟨hend, hres, hctl, hothers⟩ := State.hsOffCmd_ends 0 (by simpa using hlimp)
      (by simpa using State.not_hsMarked hcycle _) (by simpa using hst) (by simpa using hdis) hhs
    exact ⟨hend, hres, by simpa using hctl, by simpa using hothers, htouch⟩
  · intro s c n hcan hlimp hmarkAt hmark hon
    refine fires_hsRow rfl hcan (fun x => x.hsCmdWrite_touch n true false true) fun t hhs htouch => ?_
    rw [State.hsCmdWrite_off, State.hsOffCmd_hs 0 (by simpa using hlimp),
      State.hsStop_of_grantOn (by simpa using ⟨rfl, hmarkAt, hmark⟩) (by simpa using hon), State.served_hs] at hhs
    obtain ⟨hat, hothers⟩ := changed_at hhs
    exact ⟨hat, hothers, htouch⟩
  · intro s c n hcan hlimp hmarkAt hmark hst
    refine fires_hsRow rfl hcan (fun x => x.hsCmdWrite_touch n true false true) fun t hhs htouch => ?_
    rw [State.hsCmdWrite_off, State.hsOffCmd_hs 0 (by simpa using hlimp),
      State.hsStop_of_fault (by simpa using ⟨rfl, hmarkAt, hmark⟩) (by simpa using hst), State.hsEnter_hs, upd_upd,
      State.served_hs] at hhs
    obtain ⟨hat, hothers⟩ := changed_at hhs
    exact ⟨by rw [hat]; rfl, by rw [hat], hothers, htouch⟩
  · intro s c n multi same hcan hwhy
    refine fires_hsRow rfl hcan (fun x => x.hsCmdWrite_touch n true multi same) fun t hhs htouch => ?_
    have hrefused : t.hs = upd s.hs n fun h => { h with cmdRes := 2 } := by
      rw [hhs, ← s.served_hs c]
      cases multi
      · rcases hwhy with hlimp | hmulti | ⟨hst, rfl⟩
        · rw [State.hsCmdWrite_off, State.hsOffCmd_limp 0 (by simpa using hlimp), State.hsRes_hs]
        · exact nomatch hmulti
        · rw [State.hsCmdWrite_off, State.hsOffCmd_latched 0 (by simpa using hst)]
      · rfl
    obtain ⟨hat, hothers⟩ := changed_at hrefused
    exact ⟨hat, hothers, htouch⟩
  · intro s c n hcan hlimp htl
    refine fires_hsRow rfl hcan (fun x => x.hsCmdWrite_touch n false true false) fun t hhs htouch => ?_
    obtain ⟨f, hf, hcnt, hres, hend⟩ := (s.served c).hsClearCmd_runs (n := n) (by simpa using hlimp) (by simpa using htl)
    rw [State.hsCmdWrite_clear, hf, State.served_hs] at hhs
    rw [State.served_hs] at hcnt hres hend
    obtain ⟨hat, hothers⟩ := changed_at hhs
    exact ⟨by rw [hat, hcnt], by rw [hat, hres], by rw [hat, hend], hothers, htouch⟩
  · intro s c n multi hcan hwhy
    refine fires_hsRow rfl hcan (fun x => x.hsCmdWrite_touch n multi true false) fun t hhs htouch => ?_
    have hrefused : t.hs = upd s.hs n fun h => { h with cmdRes := 2 } := by
      rw [hhs, ← s.served_hs c]
      cases multi
      · rw [State.hsCmdWrite_clear, State.hsClearCmd_refused (by simpa using hwhy), State.hsRes_hs]
      · rfl
    obtain ⟨hat, hothers⟩ := changed_at hrefused
    exact ⟨hat, hothers, htouch⟩
  · intro s c same hcan
    refine fires_hsRow rfl hcan (fun x => x.hsAllOff_touch same) fun t hhs htouch => ?_
    have hloop (n : Fin 48) := (s.served c).hsAllOff_at n same
    simp only [← hhs, State.served_hs, State.served_hsUp, State.served_hsMarked] at hloop
    refine ⟨fun n hup hlimp hcycle => ?_, fun n hup hlimp hst => ?_, fun n hwhy => ?_,
      fun n hup hlimp hsame hmarkAt hmark hon => ?_, htouch⟩
    · exact ((hloop n).1 hup hlimp).1 (State.not_hsMarked hcycle.symm _)
    · exact ((hloop n).1 hup hlimp).2.1 hst
    · exact (hloop n).2 hwhy
    · exact ((hloop n).1 hup hlimp).2.2 ⟨hsame, hmarkAt, hmark⟩ hon
end Sys2Proof.Machine
/-! ## Over-current, short circuit and the thermal latch (R50, R55, R59, R60, R74, R75, R76) -/

namespace Sys2Proof.Machine

open Claims

/-! ### Fields of the fault registers -/

theorem bit_or (a b : W32) (i : Nat) : bit (a ||| b) i = (bit a i || bit b i) := by
  simp [bit]

/-- CH_FAULT bits of the mechanisms that acted (R55). -/
abbrev faultBits (sc ot oc : Bool) : W32 := pack [(0, 1, b2n oc), (1, 1, b2n sc), (2, 1, b2n ot)]

theorem bit_faultBits (sc ot oc : Bool) :
    bit (faultBits sc ot oc) 0 = oc ∧ bit (faultBits sc ot oc) 1 = sc ∧ bit (faultBits sc ot oc) 2 = ot := by
  cases sc <;> cases ot <;> cases oc <;> decide

theorem fld_faultInfo (cause st il : Nat) : fld (pack [(0, 4, cause), (4, 4, st), (16, 16, il)]) 0 4 = cause % 16 := by
  have hlow (x : Nat) (k : Nat) (hk : 4 ≤ k) : x <<< k % 2 ^ 4 = 0 := by
    obtain ⟨j, rfl⟩ := Nat.exists_eq_add_of_le hk
    rw [Nat.shiftLeft_eq, Nat.pow_add, ← Nat.mul_assoc, Nat.mul_right_comm]
    exact Nat.mul_mod_left ..
  have hcut (x : Nat) : x % 2 ^ 32 % 2 ^ 4 = x % 2 ^ 4 := Nat.mod_mod_of_dvd x (by decide)
  simp only [fld, pack, List.foldl_cons, List.foldl_nil, BitVec.toNat_ofNat, Nat.shiftRight_zero, hcut,
    Nat.or_mod_two_pow, hlow _ 4 (by decide), hlow _ 16 (by decide), Nat.or_zero, Nat.shiftLeft_zero, Nat.zero_or,
    Nat.mod_mod]
  norm_num

/-! ### The fault path -/

section
variable (s : State) (n : Fin 48)

@[simp] theorem State.hsRecord_hs (bits : W32) (cause : Nat) (st : HsSt) :
    (s.hsRecord n bits cause st).hs = upd s.hs n fun h =>
      { h with
        fault := h.fault ||| bits, faultInfo := pack [(0, 4, cause), (4, 4, st.code), (16, 16, s.lastTenMa (tHs n))],
        faultTime := s.count } := rfl

@[simp] theorem State.parkWake_hs : (s.parkWake n).hs = s.hs := (s.parkWake_touch n).same .hs (by decide)

@[simp] theorem State.parkWake_adm : (s.parkWake n).adm = s.adm := (s.parkWake_touch n).same .adm (by decide)

@[simp] theorem State.capTrigger_hs (t : Fin 67) (trg : Nat) : (s.capTrigger t trg).hs = s.hs := rfl

/-- Where the fault path ends (R50, R55): `sc` for a short circuit. -/
abbrev State.faultEnd (sc : Bool) : HsSt :=
  if sc = true ∧ bit s.hs[n].ctl 2 = false ∨ fld s.hs[n].retryCfg 0 4 ≤ s.hs[n].retryCnt then .latched else .retryWait

end

/-- The channel `h` has taken the fault path at `time` and is now `g`: in state `st`, the mechanisms `bits` recorded with
`cause` as the first of them. -/
structure Hs.Faulted (h g : Hs) (st : HsSt) (bits : W32) (cause time : Nat) : Prop where
  st_eq : g.st = st
  fault : g.fault = h.fault ||| bits
  cause_eq : fld g.faultInfo 0 4 = cause % 16
  time_eq : g.faultTime = time
  tl : g.tl = h.tl
  tj : g.tj = h.tj
  noTimer : h.tl = true → g.retryAt = none

theorem State.hsFaultPath_hs (s : State) (n : Fin 48) (sc ot oc grantBack : Bool) :
    ∃ f : Hs → Hs, (s.hsFaultPath n sc ot oc grantBack).hs = upd s.hs n f ∧
      s.hs[n].Faulted (f s.hs[n]) (s.faultEnd n sc) (faultBits sc ot oc) (if sc then 2 else if ot then 3 else 1) s.count := by
  have hend : (if (sc && !bit s.hs[n].ctl 2) || decide (fld s.hs[n].retryCfg 0 4 ≤ s.hs[n].retryCnt) then HsSt.latched
      else .retryWait) = s.faultEnd n sc := by simp [-Fin.getElem_fin]
  cases hon : hsOn s.hs[n].st
  · cases grantBack <;>
    · simp only [State.hsFaultPath, hend, hon, apply_ite State.hs, State.emit_hs, State.parkWake_hs, ite_self, State.modHs_hs,
        State.hsEnter_hs, State.hsWithdraw_hs, State.capTrigger_hs, State.hsRecord_hs, upd_upd, if_true, if_false,
        Bool.false_eq_true]
      exact ⟨_, rfl, rfl, rfl, fld_faultInfo .., rfl, rfl, rfl, Hs.entered_retryAt_of_tl _ _⟩
  · simp only [State.hsFaultPath, hend, hon, apply_ite State.hs, State.emit_hs, State.parkWake_hs, ite_self, State.modHs_hs,
      State.hsSwitchOff_hs, State.capTrigger_hs, State.hsRecord_hs, upd_upd, if_true]
    exact ⟨_, rfl, rfl, rfl, fld_faultInfo .., rfl, rfl, rfl, Hs.entered_retryAt_of_tl _ _⟩

theorem State.hsFaultPath_at {s t : State} {n : Fin 48} {sc ot oc grantBack : Bool}
    (ht : t.hs = (s.hsFaultPath n sc ot oc grantBack).hs) :
    s.hs[n].Faulted t.hs[n] (s.faultEnd n sc) (faultBits sc ot oc) (if sc then 2 else if ot then 3 else 1) s.count ∧
      onlyAt n s.hs t.hs := by
  obtain ⟨f, hf, hfault⟩ := s.hsFaultPath_hs n sc ot oc grantBack
  obtain ⟨hat, hothers⟩ := changed_at (ht.trans hf)
  exact ⟨hat ▸ hfault, hothers⟩

/-- The CH_FAULT bit of each mechanism that acted is set. -/
theorem Hs.Faulted.bits {h g : Hs} {st : HsSt} {sc ot oc : Bool} {cause time : Nat}
    (k : h.Faulted g st (faultBits sc ot oc) cause time) :
    (oc = true → bit g.fault 0 = true) ∧ (sc = true → bit g.fault 1 = true) ∧ (ot = true → bit g.fault 2 = true) := by
  obtain ⟨hoc, hsc, hot⟩ := bit_faultBits sc ot oc
  rw [k.fault]
  refine ⟨fun e => ?_, fun e => ?_, fun e => ?_⟩ <;> rw [bit_or]
  · rw [hoc, e, Bool.or_true]
  · rw [hsc, e, Bool.or_true]
  · rw [hot, e, Bool.or_true]

/-! ### The mechanisms -/

section
variable {s : State} {n : Fin 48}

theorem State.hsOverCurrent_acts {ma cycles : Nat} (hup : s.hsUp n = true) (hon : hsOn s.hs[n].st = true)
    (hma : ocThr n.val s.hs[n].level < (ma : Rat)) (hcycles : max 1 (fld s.hs[n].ocCfg 8 6) * 40 ≤ cycles) :
    s.hsOverCurrent n ma cycles = s.hsFaultPath n false false true false := by
  simp only [State.hsOverCurrent, hup, hon, hma, hcycles, decide_true, Bool.and_self, if_true]

theorem State.hsOverCurrent_idle {ma cycles : Nat}
    (h : s.hsUp n = false ∨ (ma : Rat) ≤ ocThr n.val s.hs[n].level ∨ cycles < max 1 (fld s.hs[n].ocCfg 8 6) * 40 ∨
      hsOn s.hs[n].st = false) : s.hsOverCurrent n ma cycles = s := by
  unfold State.hsOverCurrent
  refine if_neg fun hacts => ?_
  simp only [Bool.and_eq_true, decide_eq_true_eq] at hacts
  obtain ⟨⟨⟨hup, hon⟩, hma⟩, hcycles⟩ := hacts
  rcases h with h | h | h | h
  · exact nomatch h.symm.trans hup
  · exact absurd hma (not_lt.2 h)
  · omega
  · exact nomatch h.symm.trans hon

theorem State.hsShort_acts {ma : Nat} (oc : Bool) (hup : s.hsUp n = true) (hon : hsOn s.hs[n].st = true)
    (hma : 4 * iNom n.val ≤ ma) : s.hsShort n ma oc = s.hsFaultPath n true false oc false := by
  simp only [State.hsShort, hup, hon, hma, decide_true, Bool.and_self, if_true]

theorem State.hsShort_idle {ma : Nat} (oc : Bool)
    (h : s.hsUp n = false ∨ ma < 4 * iNom n.val ∨ hsOn s.hs[n].st = false) : s.hsShort n ma oc = s := by
  unfold State.hsShort
  refine if_neg fun hacts => ?_
  simp only [Bool.and_eq_true, decide_eq_true_eq] at hacts
  obtain ⟨⟨hup, hon⟩, hma⟩ := hacts
  rcases h with h | h | h
  · exact nomatch h.symm.trans hup
  · omega
  · exact nomatch h.symm.trans hon

end

/-! ### The thermal latch -/

section
variable (s : State) (n : Fin 48)

theorem State.setTj_hs (tj : Int) :
    (s.setTj (tHs n) tj).hs = upd s.hs n fun h =>
      { h with
        tj := tj, tMin := (thermStep tj h.tMin h.tMax h.thermCyc).1, tMax := (thermStep tj h.tMin h.tMax h.thermCyc).2.1,
        thermCyc := (thermStep tj h.tMin h.tMax h.thermCyc).2.2 } := by
  rw [State.setTj, dif_pos (show (tHs n).val < 48 from n.isLt)]
  rfl

theorem State.setTj_adm (t : Fin 67) (tj : Int) : (s.setTj t tj).adm = s.adm := (s.setTj_touch t tj).same .adm (by decide)

theorem State.setTj_now (t : Fin 67) (tj : Int) : (s.setTj t tj).now = s.now := (s.setTj_touch t tj).now_eq (by decide)

theorem State.setTj_isUp (t : Fin 67) (tj : Int) (i : Nat) : (s.setTj t tj).isUp i = s.isUp i :=
  (s.setTj_touch t tj).isUp_eq (by decide) i

/-- The latch sets: temperature and CH_FAULT are stored, a retry timer stops, THERMAL is emitted (R74, R76). -/
abbrev State.latchTl (tj : Int) : State :=
  ((s.setTj (tHs n) tj).modHs n fun h =>
    { h with tl := true, fault := h.fault ||| 4, retryAt := none, retryDone := false }).emit (islHs n) 0x04
      (pack [(0, 16, scode 16 tj)])

/-- The latch is let go at temperature `tj` (R74). -/
abbrev State.freeTl (tj : Int) : State :=
  ((s.setTj (tHs n) tj).modHs n fun h => { h with tl := false }).emit (islHs n) 0x05 (pack [(0, 16, scode 16 tj)])

/-- Channel `g` is `h` with its latch set at temperature `tj`. -/
structure Hs.Latched (h g : Hs) (tj : Int) : Prop where
  tl : g.tl = true
  tj_eq : g.tj = tj
  fault : g.fault = h.fault ||| 4
  noTimer : g.retryAt = none
  st : g.st = h.st
  ctl : g.ctl = h.ctl
  retryCfg : g.retryCfg = h.retryCfg
  retryCnt : g.retryCnt = h.retryCnt

theorem State.latchTl_at (tj : Int) :
    s.hs[n].Latched (s.latchTl n tj).hs[n] tj ∧ onlyAt n s.hs (s.latchTl n tj).hs := by
  obtain ⟨htj, hset⟩ := changed_at (s.setTj_hs n tj)
  have hhs : (s.latchTl n tj).hs = upd (s.setTj (tHs n) tj).hs n fun h =>
    { h with tl := true, fault := h.fault ||| 4, retryAt := none, retryDone := false } := rfl
  obtain ⟨hat, hothers⟩ := changed_at hhs
  rw [hat, htj]
  exact ⟨⟨rfl, rfl, rfl, rfl, rfl, rfl, rfl, rfl⟩, onlyAt_trans hset hothers⟩

end

/-! ### Restart requests (R50, R51, R72, R75, R77, R91, R95) -/

section
variable (s : State) (n : Fin 48)

/-- The channel after its request to ADM, which holds it while `admUp` is false. -/
def Hs.requested (h : Hs) (admUp : Bool) (prio : Nat) : Hs :=
  { h with own := true, heldReq := if admUp then h.heldReq else some prio }

@[simp] theorem State.hsRequest_hs (prio : Nat) (kind : ReqKind) :
    (s.hsRequest n prio kind).hs = upd s.hs n fun h => h.requested (s.isUp 2) prio := by
  unfold State.hsRequest
  cases s.isUp 2 <;> rfl

/-- A restart request makes the channel PENDING; a retry counts (R77). -/
theorem State.hsRestart_at {t : State} {retry : Bool} (ht : t.hs = (s.hsRestart n retry).hs) :
    t.hs[n].st = .pending ∧ t.hs[n].reqKind = .restart ∧
      t.hs[n].retryCnt = (if retry then min 15 (s.hs[n].retryCnt + 1) else s.hs[n].retryCnt) ∧
      t.hs[n].tl = s.hs[n].tl ∧ t.hs[n].uv = s.hs[n].uv ∧ t.hs[n].bankOk = s.hs[n].bankOk ∧ t.hs[n].tj = s.hs[n].tj ∧
      onlyAt n s.hs t.hs := by
  have hhs : t.hs = _ := ht.trans <| by
    rw [State.hsRestart, State.hsRequest_hs, State.emit_hs, State.hsEnter_hs, State.modHs_hs, upd_upd, upd_upd]
  obtain ⟨hat, hothers⟩ := changed_at hhs
  rw [hat]
  exact ⟨rfl, rfl, rfl, rfl, rfl, rfl, rfl, hothers⟩

/-- A channel submits a restart request from UV_WAIT, and from RETRY_WAIT once its delay has run out. -/
abbrev Hs.waits (h : Hs) : Prop := h.st = .uvWait ∨ h.st = .retryWait ∧ h.retryDone = true

variable {s n}

theorem State.hsTryRestart_uv (hup : s.hsUp n = true) (hbank : s.hs[n].bankOk = true) (htl : s.hs[n].tl = false)
    (hst : s.hs[n].st = .uvWait) : s.hsTryRestart n = s.hsRestart n false := by
  simp only [State.hsTryRestart, hup, hbank, htl, hst, Bool.not_false, Bool.and_self, if_true]

theorem State.hsTryRestart_retry (hup : s.hsUp n = true) (hbank : s.hs[n].bankOk = true) (htl : s.hs[n].tl = false)
    (hst : s.hs[n].st = .retryWait) (hdone : s.hs[n].retryDone = true) : s.hsTryRestart n = s.hsRestart n true := by
  simp only [State.hsTryRestart, hup, hbank, htl, hst, hdone, Bool.not_false, Bool.and_self, if_true]

theorem State.hsTryRestart_shut (h : s.hs[n].bankOk = false ∨ s.hs[n].tl = true) : s.hsTryRestart n = s := by
  rcases h with h | h <;> simp [-Fin.getElem_fin, State.hsTryRestart, h]

theorem State.hsTryRestart_idle (h : ¬ s.hs[n].waits) : s.hsTryRestart n = s := by
  unfold State.hsTryRestart
  dsimp only
  rw [not_or, not_and, Bool.not_eq_true] at h
  obtain ⟨huv, hretry⟩ := h
  split
  · split
    case h_1 hst => exact absurd hst huv
    case h_2 hst => rw [hretry hst]; rfl
    case h_3 => rfl
  · rfl
end

/-! ### The latch set and released -/

section
variable {s : State} {n : Fin 48} {tj : Int} (sc oc : Bool)

theorem State.hsThermalSet_on (hup : s.hsUp n = true) (htl : s.hs[n].tl = false) (htj : 2800 ≤ tj)
    (hon : hsOn s.hs[n].st = true) :
    s.hsThermalSet n tj sc oc = (s.latchTl n tj).hsFaultPath n sc true oc false := by
  rcases (hsOn_iff _).1 hon with hst | hst <;>
    simp only [State.hsThermalSet, hup, htl, htj, hst, decide_true, Bool.not_false, Bool.and_self, if_true]

theorem State.hsThermalSet_pending (hup : s.hsUp n = true) (htl : s.hs[n].tl = false) (htj : 2800 ≤ tj)
    (hst : s.hs[n].st = .pending) :
    s.hsThermalSet n tj sc oc = (s.latchTl n tj).hsFaultPath n false true false false := by
  simp only [State.hsThermalSet, hup, htl, htj, hst, decide_true, Bool.not_false, Bool.and_self, if_true]

theorem State.hsThermalSet_still (hup : s.hsUp n = true) (htl : s.hs[n].tl = false) (htj : 2800 ≤ tj)
    (hpend : s.hs[n].st ≠ .pending) (hoff : hsOn s.hs[n].st = false) : s.hsThermalSet n tj sc oc = s.latchTl n tj := by
  simp only [State.hsThermalSet, hup, htl, htj, decide_true, Bool.not_false, Bool.and_self, if_true]
  split
  case h_1 hst => exact absurd hst hpend
  case h_2 hst | h_3 hst => rw [hst] at hoff; exact nomatch hoff
  case h_4 => rfl

theorem State.hsThermalSet_idle (h : s.hsUp n = false ∨ s.hs[n].tl = true ∨ tj < 2800) :
    s.hsThermalSet n tj sc oc = s := by
  unfold State.hsThermalSet
  refine if_neg fun hacts => ?_
  simp only [Bool.and_eq_true, decide_eq_true_eq, Bool.not_eq_true'] at hacts
  obtain ⟨⟨hup, htl⟩, htj⟩ := hacts
  rcases h with h | h | h
  · exact nomatch h.symm.trans hup
  · exact nomatch h.symm.trans htl
  · omega

theorem State.latchTl_count (s : State) (n : Fin 48) (tj : Int) : (s.latchTl n tj).count = s.count :=
  congrArg (· % 2 ^ 48) (s.setTj_now (tHs n) tj)

theorem State.latchTl_faultEnd (s : State) (n : Fin 48) (tj : Int) (sc : Bool) :
    (s.latchTl n tj).faultEnd n sc = s.faultEnd n sc := by
  obtain ⟨hl, -⟩ := s.latchTl_at n tj
  simp only [State.faultEnd, hl.ctl, hl.retryCfg, hl.retryCnt]

theorem State.hsWithdraw_inbox {x : State} (n : Fin 48) (hup : x.isUp 2 = true) :
    (x.hsWithdraw n).adm.inbox = x.adm.inbox ++ [.withdraw n.val] := by
  rw [State.hsWithdraw, hup]
  rfl

/-- The fault path of a channel whose switch is off withdraws its request. -/
theorem State.hsFaultPath_inbox (s : State) (n : Fin 48) {sc : Bool} (ot oc : Bool) (hup : s.isUp 2 = true)
    (hoff : hsOn s.hs[n].st = false) :
    (s.hsFaultPath n sc ot oc false).adm.inbox = s.adm.inbox ++ [.withdraw n.val] := by
  simp only [State.hsFaultPath, hoff, apply_ite State.adm, State.emit_adm, State.parkWake_adm, ite_self, State.modHs_adm,
    Bool.false_eq_true, if_false, State.hsEnter]
  exact State.hsWithdraw_inbox n hup

theorem State.hsThermalClear_retryWait (hup : s.hsUp n = true) (htl : s.hs[n].tl = true) (htj : tj ≤ 2480)
    (hst : s.hs[n].st = .retryWait) :
    s.hsThermalClear n tj =
      (s.freeTl n tj).modHs n fun h => { h with retryAt := some s.now, retryDone := false } := by
  simp only [State.hsThermalClear, hup, htl, htj, hst, decide_true, Bool.and_self, if_true, beq_self_eq_true]

theorem State.hsThermalClear_other (hup : s.hsUp n = true) (htl : s.hs[n].tl = true) (htj : tj ≤ 2480)
    (hst : s.hs[n].st ≠ .retryWait) : s.hsThermalClear n tj = (s.freeTl n tj).hsTryRestart n := by
  simp only [State.hsThermalClear, hup, htl, htj, decide_true, Bool.and_self, if_true, beq_iff_eq, hst, if_false]

theorem State.hsThermalClear_idle (h : s.hsUp n = false ∨ s.hs[n].tl = false ∨ 2480 < tj) : s.hsThermalClear n tj = s := by
  unfold State.hsThermalClear
  refine if_neg fun hacts => ?_
  simp only [Bool.and_eq_true, decide_eq_true_eq] at hacts
  obtain ⟨⟨hup, htl⟩, htj⟩ := hacts
  rcases h with h | h | h
  · exact nomatch h.symm.trans hup
  · exact nomatch h.symm.trans htl
  · omega

/-- Channel `g` is `h` with its latch let go at temperature `tj`. -/
structure Hs.Freed (h g : Hs) (tj : Int) : Prop where
  tl : g.tl = false
  tj_eq : g.tj = tj
  st : g.st = h.st
  bankOk : g.bankOk = h.bankOk

theorem State.freeTl_at (s : State) (n : Fin 48) (tj : Int) :
    s.hs[n].Freed (s.freeTl n tj).hs[n] tj ∧ onlyAt n s.hs (s.freeTl n tj).hs := by
  obtain ⟨htj, hset⟩ := changed_at (s.setTj_hs n tj)
  have hhs : (s.freeTl n tj).hs = upd (s.setTj (tHs n) tj).hs n fun h =>
    { h with tl := false } := rfl
  obtain ⟨hat, hothers⟩ := changed_at hhs
  rw [hat, htj]
  exact ⟨⟨rfl, rfl, rfl, rfl⟩, onlyAt_trans hset hothers⟩

end

section
variable {s : State} {n : Fin 48} {tj : Int}

theorem State.hsThermalClear_uv (hup : s.hsUp n = true) (htl : s.hs[n].tl = true) (htj : tj ≤ 2480)
    (huv : s.hs[n].st = .uvWait) (hbank : s.hs[n].bankOk = true) :
    s.hsThermalClear n tj = (s.freeTl n tj).hsRestart n false := by
  obtain ⟨hfree, -⟩ := s.freeTl_at n tj
  rw [State.hsThermalClear_other hup htl htj (by rw [huv]; decide)]
  exact State.hsTryRestart_uv ((s.setTj_isUp ..).trans hup) (hfree.bankOk.trans hbank) hfree.tl (hfree.st.trans huv)

theorem State.hsThermalClear_still (hup : s.hsUp n = true) (htl : s.hs[n].tl = true) (htj : tj ≤ 2480)
    (hst : s.hs[n].st ≠ .retryWait) (hwait : s.hs[n].st = .uvWait → s.hs[n].bankOk = false) :
    s.hsThermalClear n tj = s.freeTl n tj := by
  obtain ⟨hfree, -⟩ := s.freeTl_at n tj
  rw [State.hsThermalClear_other hup htl htj hst]
  by_cases huv : s.hs[n].st = .uvWait
  · exact State.hsTryRestart_shut (.inl (hfree.bankOk.trans (hwait huv)))
  · exact State.hsTryRestart_idle
      (not_or.2 ⟨fun e => huv (hfree.st.symm.trans e), fun e => hst (hfree.st.symm.trans e.1)⟩)
end

/-- Settles O14: what switches a channel off is `State.hsFaultPath_at`, what waits restarts as `State.hsRestart_at` says. -/
theorem highSideProtectionTakesTheFaultPath : Obligations.HighSideProtectionTakesTheFaultPath := by
  unfold Obligations.HighSideProtectionTakesTheFaultPath
  refine ⟨?_, ?_, ?_, ?_, ?_, ?_, ?_, ?_, ?_, ?_⟩
  · intro s n ma cycles hup hon hma hcycles
    have hacts := State.hsOverCurrent_acts hup hon hma hcycles
    obtain ⟨hfault, hothers⟩ := State.hsFaultPath_at (congrArg State.hs hacts)
    refine ⟨_, rfl, ?_, hfault.bits.1 rfl, hfault.time_eq, hfault.cause_eq, hfault.tl, hothers, s.hsOverCurrent_touch ..⟩
    simpa [State.faultEnd] using hfault.st_eq
  · intro s n ma cycles h
    exact ⟨_, rfl, State.hsOverCurrent_idle h⟩
  · intro s n ma oc hup hon hma
    obtain ⟨hfault, hothers⟩ := State.hsFaultPath_at (congrArg State.hs (State.hsShort_acts oc hup hon hma))
    refine ⟨_, rfl, ?_, hfault.bits.2.1 rfl, hfault.bits.1, hfault.time_eq, hfault.cause_eq, hfault.tl, hothers,
      s.hsShort_touch ..⟩
    simpa [State.faultEnd] using hfault.st_eq
  · intro s n ma oc h
    exact ⟨_, rfl, State.hsShort_idle oc h⟩
  · intro s n tj sc oc hup htl htj hon
    obtain ⟨hlatch, hlatched⟩ := s.latchTl_at n tj
    obtain ⟨hfault, hothers⟩ := State.hsFaultPath_at (congrArg State.hs (State.hsThermalSet_on sc oc hup htl htj hon))
    rw [s.latchTl_faultEnd, s.latchTl_count] at hfault
    exact ⟨_, rfl, hfault.tl.trans hlatch.tl, hfault.st_eq, hfault.bits.2.2 rfl, hfault.bits.2.1, hfault.bits.1,
      by rw [hfault.cause_eq]; cases sc <;> rfl, hfault.time_eq, hfault.tj.trans hlatch.tj_eq,
      hfault.noTimer hlatch.tl, onlyAt_trans hlatched hothers, s.hsThermalSet_touch ..⟩
  · intro s n tj sc oc hup htl htj hst
    obtain ⟨hlatch, hlatched⟩ := s.latchTl_at n tj
    have hset := State.hsThermalSet_pending sc oc hup htl htj hst
    obtain ⟨hfault, hothers⟩ := State.hsFaultPath_at (congrArg State.hs hset)
    rw [s.latchTl_faultEnd, s.latchTl_count] at hfault
    refine ⟨_, rfl, hfault.tl.trans hlatch.tl, by simpa [State.faultEnd] using hfault.st_eq,
      hfault.bits.2.2 rfl, hfault.cause_eq,
      hfault.time_eq, hfault.tj.trans hlatch.tj_eq, hfault.noTimer hlatch.tl, fun hadm => ?_,
      onlyAt_trans hlatched hothers, s.hsThermalSet_touch ..⟩
    rw [hset, (s.latchTl n tj).hsFaultPath_inbox n true false ((s.setTj_isUp ..).trans hadm) (by rw [hlatch.st, hst]; rfl)]
    exact congrArg (fun a => a.inbox ++ [AdmIn.withdraw n.val]) (s.setTj_adm (tHs n) tj)
  · intro s n tj sc oc hup htl htj hpend hoff
    obtain ⟨hlatch, hothers⟩ := s.latchTl_at n tj
    rw [← State.hsThermalSet_still sc oc hup htl htj hpend hoff] at hlatch hothers
    exact ⟨_, rfl, hlatch.tl, hlatch.st, hlatch.fault, hlatch.tj_eq, hlatch.noTimer, hlatch.retryCnt, hothers,
      s.hsThermalSet_touch ..⟩
  · intro s n tj sc oc h
    exact ⟨_, rfl, State.hsThermalSet_idle sc oc h⟩
  · intro s n tj hup htl htj
    obtain ⟨hfree, hfreed⟩ := s.freeTl_at n tj
    by_cases hst : s.hs[n].st = .retryWait
    · obtain ⟨hat, hothers⟩ := changed_at
        ((congrArg State.hs (State.hsThermalClear_retryWait hup htl htj hst)).trans (State.modHs_hs ..))
      have hst' := hfree.st
      rw [hst] at hst'
      exact ⟨_, rfl, hat ▸ hfree.tl, hat ▸ hfree.tj_eq, fun _ => ⟨hat ▸ rfl, hat ▸ hst'⟩, fun _ => hat ▸ hfree.st,
        fun huv => absurd (hst.symm.trans huv) (by decide), onlyAt_trans hfreed hothers, s.hsThermalClear_touch ..⟩
    · by_cases hwait : s.hs[n].st = .uvWait ∧ s.hs[n].bankOk = true
      · obtain ⟨huv, hbank⟩ := hwait
        obtain ⟨hpend, hkind, -, htl', -, -, htj', hothers⟩ :=
          State.hsRestart_at _ n (congrArg State.hs (State.hsThermalClear_uv hup htl htj huv hbank))
        refine ⟨_, rfl, htl'.trans hfree.tl, htj'.trans hfree.tj_eq, fun h => absurd h hst, fun h => ?_,
          fun _ _ => ⟨hpend, hkind⟩, onlyAt_trans hfreed hothers, s.hsThermalClear_touch ..⟩
        exact h.elim (absurd huv) fun h => nomatch h.symm.trans hbank
      · rw [← State.hsThermalClear_still hup htl htj hst fun huv => Bool.eq_false_iff.2 fun h => hwait ⟨huv, h⟩]
          at hfree hfreed
        exact ⟨_, rfl, hfree.tl, hfree.tj_eq, fun h => absurd h hst, fun _ => hfree.st,
          fun huv hbank => absurd ⟨huv, hbank⟩ hwait, hfreed, s.hsThermalClear_touch ..⟩
  · intro s n tj h
    exact ⟨_, rfl, State.hsThermalClear_idle h⟩

end Sys2Proof.Machine
/-! ## Envelope, retry timer and heal time (R62, R65, R67, R76 to R78) -/

namespace Sys2Proof.Machine

open Claims

theorem State.advanceTo_now_max (s : State) (t : Nat) (hruns : s.tmbRuns = true) : (s.advanceTo t).now = max s.now t := by
  rcases Nat.le_total s.now t with h | h
  · rw [s.advanceTo_now t hruns h, Nat.max_eq_right h]
  · have hnot : (s.tmbRuns && decide (s.now < t)) = false := by simp [h]
    rw [State.advanceTo, hnot, Nat.max_eq_left h]
    rfl

theorem State.advanceTo_isUp (s : State) (t i : Nat) : (s.advanceTo t).isUp i = s.isUp i :=
  (s.advanceTo_touch t).isUp_eq (by decide) i

section
variable {s : State} {n : Fin 48}

/-! ### The envelope -/

theorem State.hsEnvStep_last (hup : s.hsUp n = true) (hst : s.hs[n].st = .inrush)
    (hlast : s.hs[n].defEnv = true ∨ s.hs[n].env.length ≤ s.hs[n].envStep + 1 ∨
      envDur (s.hs[n].env.getD (s.hs[n].envStep + 1) 0) = 0) :
    ∃ arg, s.hsEnvStep n =
      ((s.advanceTo s.hs[n].stepEnd).hsEnter n .on).emitAdm (islHs n) 0x08 arg (.envEnd n.val) := by
  simp only [State.hsEnvStep, hup, hst, beq_self_eq_true, Bool.and_self, if_true, Bool.or_eq_true, decide_eq_true_eq,
    or_assoc, hlast]
  exact ⟨_, rfl⟩

theorem State.hsEnvStep_next (hup : s.hsUp n = true) (hst : s.hs[n].st = .inrush) (henv : s.hs[n].defEnv = false)
    (hlen : s.hs[n].envStep + 1 < s.hs[n].env.length)
    (hdur : 0 < envDur (s.hs[n].env.getD (s.hs[n].envStep + 1) 0)) :
    s.hsEnvStep n = (s.advanceTo s.hs[n].stepEnd).modHs n fun h =>
      { h with
        envStep := s.hs[n].envStep + 1,
        stepEnd := h.stepEnd + envDur (s.hs[n].env.getD (s.hs[n].envStep + 1) 0) * 100 } := by
  have hmore : ¬ (s.hs[n].defEnv = true ∨ s.hs[n].env.length ≤ s.hs[n].envStep + 1 ∨
      envDur (s.hs[n].env.getD (s.hs[n].envStep + 1) 0) = 0) := by
    simp only [henv, Bool.false_eq_true, false_or, not_or]
    omega
  simp only [State.hsEnvStep, hup, hst, beq_self_eq_true, Bool.and_self, if_true, Bool.or_eq_true, decide_eq_true_eq,
    or_assoc, hmore, if_false]

theorem State.hsEnvStep_idle (h : s.hsUp n = false ∨ s.hs[n].st ≠ .inrush) : s.hsEnvStep n = s := by
  unfold State.hsEnvStep
  refine if_neg fun hacts => ?_
  simp only [Bool.and_eq_true, beq_iff_eq] at hacts
  exact h.elim (fun e => nomatch e.symm.trans hacts.1) fun e => e hacts.2

/-! ### The retry timer -/

/-- The moment at which the retry timer runs out (R76), and the channel whose delay has run out then. -/
abbrev State.retryOver (s : State) (n : Fin 48) (since : Nat) : State :=
  (s.advanceTo (since + max 1 (fld s.hs[n].retryCfg 16 16) * 1000)).modHs n fun h =>
    { h with retryAt := none, retryDone := true }

theorem State.hsRetryExpiry_runs {since : Nat} (hup : s.hsUp n = true) (hst : s.hs[n].st = .retryWait)
    (hat : s.hs[n].retryAt = some since) (htl : s.hs[n].tl = false) :
    s.hsRetryExpiry n = (s.retryOver n since).hsTryRestart n := by
  simp only [State.hsRetryExpiry, hup, hst, hat, htl, beq_self_eq_true, Bool.not_false, Bool.and_self, if_true]

theorem State.hsRetryExpiry_idle
    (h : s.hsUp n = false ∨ s.hs[n].st ≠ .retryWait ∨ s.hs[n].retryAt = none ∨ s.hs[n].tl = true) :
    s.hsRetryExpiry n = s := by
  unfold State.hsRetryExpiry
  dsimp only
  split
  · rfl
  · rename_i since hat
    refine if_neg fun hacts => ?_
    simp only [Bool.and_eq_true, beq_iff_eq, Bool.not_eq_true'] at hacts
    obtain ⟨⟨hup, hst⟩, htl⟩ := hacts
    rcases h with h | h | h | h
    · exact nomatch h.symm.trans hup
    · exact h hst
    · exact nomatch h.symm.trans hat
    · exact nomatch h.symm.trans htl

theorem State.retryOver_at (s : State) (n : Fin 48) (since : Nat) :
    (s.retryOver n since).hs[n] = { s.hs[n] with retryAt := none, retryDone := true } ∧
      onlyAt n s.hs (s.retryOver n since).hs := by
  obtain ⟨hat, hothers⟩ := changed_at (State.modHs_hs _ n _ : (s.retryOver n since).hs = _)
  rw [State.advanceTo_hs] at hat hothers
  exact ⟨hat, hothers⟩

theorem State.retryOver_now (since : Nat) (hruns : s.tmbRuns = true) :
    (s.retryOver n since).now = max s.now (since + max 1 (fld s.hs[n].retryCfg 16 16) * 1000) :=
  s.advanceTo_now_max _ hruns

/-! ### The heal time -/

theorem State.hsHeal_runs (hup : s.hsUp n = true) (hst : s.hs[n].st = .on) (hheal : 0 < fld s.hs[n].retryCfg 8 8) :
    (s.hsHeal n).hs = upd s.hs n (fun h => { h with retryCnt := 0 }) ∧
      (s.hsHeal n).now = (s.advanceTo (s.hs[n].onStAt + fld s.hs[n].retryCfg 8 8 * 1000000)).now := by
  simp only [State.hsHeal, hup, hst, hheal.ne', ne_eq, not_false_eq_true, decide_true, beq_self_eq_true, Bool.and_self,
    if_true]
  split
  next hzero =>
    refine ⟨?_, rfl⟩
    rw [State.advanceTo_hs, upd_self]
    rw [← hzero]
  next =>
    exact ⟨by rw [State.emit_hs, State.modHs_hs, State.advanceTo_hs], rfl⟩

theorem State.hsHeal_idle (h : s.hsUp n = false ∨ s.hs[n].st ≠ .on ∨ fld s.hs[n].retryCfg 8 8 = 0) : s.hsHeal n = s := by
  unfold State.hsHeal
  refine if_neg fun hacts => ?_
  simp only [Bool.and_eq_true, beq_iff_eq, decide_eq_true_eq] at hacts
  obtain ⟨⟨hup, hst⟩, hheal⟩ := hacts
  rcases h with h | h | h
  · exact nomatch h.symm.trans hup
  · exact h hst
  · exact hheal h

/-! ### The envelope's copy -/

theorem State.hsEnvWrite_within {v : W32} (h : fld v 0 12 + envLen v ≤ 4096) :
    s.hsEnvWrite n v = s.modHs n fun h =>
      { h with
        envCfg := keep 0x001F0FFF v, envLoaded := false, cmdRes := 0,
        copy := { busy := true, base := fld v 0 12, len := envLen v } } := if_neg (by omega)

theorem State.hsEnvWrite_beyond {v : W32} (h : 4096 < fld v 0 12 + envLen v) : s.hsEnvWrite n v = s.hsRes n 3 := if_pos h

theorem State.hsEnvDone_runs (hbusy : s.hs[n].copy.busy = true) (hup : s.isUp 2 = true) :
    s.hsEnvDone n = s.modHs n fun h =>
      { h with
        staging := s.curve.range h.copy.base h.copy.len, envLoaded := true, copy := { h.copy with busy := false } } :=
  if_pos (by rw [hbusy, hup]; rfl)

theorem State.hsEnvDone_idle (h : s.hs[n].copy.busy = false ∨ s.isUp 2 = false) : s.hsEnvDone n = s := by
  refine if_neg fun hacts => ?_
  rw [Bool.and_eq_true] at hacts
  exact h.elim (fun e => nomatch e.symm.trans hacts.1) fun e => nomatch e.symm.trans hacts.2
end

/-- A store row into a channel's block that changes nothing but the channels. -/
theorem fires_hsRow_hs {s : State} {i : Instr} {c : Fin 4} {isl : Nat} {f : State → State} {P : State → Prop}
    (hexec : exec i s = .next (s.storeIf c isl 8 f)) (hcan : canStore s isl 8) (htouch : ∀ x, onlyTouches [.hs] x (f x))
    (hP : ∀ t, t.hs = (f (s.served c)).hs → onlyTouches [.fab, .answer, .hs, .pmc, .free] s t → P t) : fires i s P :=
  fires_storeIf hexec hcan (fun x => (htouch x).mono (by decide)) (by decide) fun t ht k => hP t (by rw [← ht]) k

/-- Settles O16: each timer acts at its expiry, to which `State.advanceTo` brings the time. -/
theorem highSideTimersAndEnvelope : Obligations.HighSideTimersAndEnvelope := by
  unfold Obligations.HighSideTimersAndEnvelope
  refine ⟨?_, ?_, ?_, ?_, ?_, ?_, ?_, ?_, ?_, ?_, ?_, ?_⟩
  · intro s n hup hst hlast hruns
    obtain ⟨arg, hstep⟩ := State.hsEnvStep_last hup hst hlast
    have hhs : (s.hsEnvStep n).hs = upd s.hs n fun h => h.entered (s.advanceTo s.hs[n].stepEnd).now .on := by
      rw [hstep, State.emitAdm_hs, State.hsEnter_hs, State.advanceTo_hs]
    have hnow : (s.hsEnvStep n).now = (s.advanceTo s.hs[n].stepEnd).now := by
      rw [hstep]
      exact State.now_congr _ (State.emitAdm_tmb ..)
    obtain ⟨hat, hothers⟩ := changed_at hhs
    exact ⟨_, rfl, hat ▸ rfl, hnow.trans (s.advanceTo_now_max _ hruns), hat ▸ hnow.symm, hat ▸ rfl, hothers,
      s.hsEnvStep_touch n⟩
  · intro s n hup hst henv hlen hdur hruns
    have hstep := State.hsEnvStep_next hup hst henv hlen hdur
    obtain ⟨hat, hothers⟩ := changed_at ((congrArg State.hs hstep).trans (State.modHs_hs ..))
    rw [State.advanceTo_hs] at hat hothers
    refine ⟨_, rfl, ?_, ?_, hothers, s.hsEnvStep_touch n⟩
    · rw [hstep]
      exact s.advanceTo_now_max _ hruns
    · rw [hat, Nat.mul_comm 100]
  · intro s n h
    exact ⟨_, rfl, State.hsEnvStep_idle h⟩
  · intro s n since hup hst hat htl hbank hruns
    obtain ⟨hover, hovers⟩ := s.retryOver_at n since
    have hretry : s.hsRetryExpiry n = (s.retryOver n since).hsRestart n true := by
      rw [State.hsRetryExpiry_runs hup hst hat htl]
      exact State.hsTryRestart_retry ((s.advanceTo_isUp ..).trans hup) (hover ▸ hbank) (hover ▸ htl) (hover ▸ hst)
        (hover ▸ rfl)
    obtain ⟨hpend, hkind, hcnt, -, -, -, -, hothers⟩ := State.hsRestart_at _ n (congrArg State.hs hretry)
    refine ⟨_, rfl, ?_, hpend, hcnt.trans (by rw [hover]; rfl), hkind, onlyAt_trans hovers hothers,
      s.hsRetryExpiry_touch n⟩
    rw [hretry, (State.hsRestart_touch ..).now_eq (by decide), State.retryOver_now since hruns]
  · intro s n since hup hst hat htl hbank hruns
    obtain ⟨hover, hovers⟩ := s.retryOver_at n since
    have hretry : s.hsRetryExpiry n = s.retryOver n since := by
      rw [State.hsRetryExpiry_runs hup hst hat htl]
      exact State.hsTryRestart_shut (.inl (hover ▸ hbank))
    rw [← hretry] at hover hovers
    refine ⟨_, rfl, ?_, hover, hovers, s.hsRetryExpiry_touch n⟩
    rw [hretry, State.retryOver_now since hruns]
  · intro s n h
    exact ⟨_, rfl, State.hsRetryExpiry_idle h⟩
  · intro s n hup hst hheal hruns
    obtain ⟨hhs, hnow⟩ := State.hsHeal_runs hup hst hheal
    obtain ⟨hat, hothers⟩ := changed_at hhs
    exact ⟨_, rfl, hnow.trans (s.advanceTo_now_max _ hruns), hat, hothers, s.hsHeal_touch n⟩
  · intro s n h
    exact ⟨_, rfl, State.hsHeal_idle h⟩
  · intro s c n v hcan hlen
    refine fires_hsRow_hs rfl hcan (fun x => x.hsEnvWrite_touch n v) fun t hhs htouch => ?_
    rw [State.hsEnvWrite_within hlen, State.modHs_hs, State.served_hs] at hhs
    obtain ⟨hat, hothers⟩ := changed_at hhs
    exact ⟨hat, hothers, htouch⟩
  · intro s c n v hcan hlen
    refine fires_hsRow_hs rfl hcan (fun x => x.hsEnvWrite_touch n v) fun t hhs htouch => ?_
    rw [State.hsEnvWrite_beyond hlen, State.hsRes_hs, State.served_hs] at hhs
    obtain ⟨hat, hothers⟩ := changed_at hhs
    exact ⟨hat, hothers, htouch⟩
  · intro s n hbusy hup
    obtain ⟨hat, hothers⟩ := changed_at ((congrArg State.hs (State.hsEnvDone_runs hbusy hup)).trans (State.modHs_hs ..))
    exact ⟨_, rfl, hat, hothers, s.hsEnvDone_touch n⟩
  · intro s n h
    exact ⟨_, rfl, State.hsEnvDone_idle h⟩

end Sys2Proof.Machine
/-! ## Messages of ADM at a channel (R50, R51, R52, R85, R95, R163, R164) -/

namespace Sys2Proof.Machine

open Claims

/-! ### A message reaches its channel -/

/-- The oldest message for a target is of one kind. -/
theorem takeMsg_other {t : Nat} {m m' : ToTgt} (hne : m' ≠ m) :
    ∀ {l r : List (Nat × ToTgt)}, takeMsg t m l = some r → takeMsg t m' l = none
  | [], _, h => nomatch h
  | x :: l, r, h => by
    unfold takeMsg at h ⊢
    split at h
    next ht =>
      rw [if_pos ht]
      split at h
      next hm => exact if_neg fun e => hne (e.symm.trans hm)
      next => exact nomatch h
    next ht =>
      obtain ⟨r', hr', -⟩ := Option.map_eq_some_iff.1 h
      rw [if_neg ht, takeMsg_other hne hr']
      rfl

theorem islOf_hs (n : Fin 48) : islOf n.val = islHs n.val := if_pos n.isLt

/-- The state after the message has left ADM's list, of which `r` remains. -/
abbrev State.gotMsg (s : State) (r : List (Nat × ToTgt)) : State := s.modAdm fun a => { a with toTgt := r }

section
variable {s : State} {n : Fin 48} {m : ToTgt} {r : List (Nat × ToTgt)}

theorem State.deliver_hs (f : State → State) (hmsg : takeMsg n.val m s.adm.toTgt = some r) (hup : s.hsUp n = true) :
    s.deliver n.val m f = f (s.gotMsg r) := s.deliver_run n.val m f r hmsg ((islOf_hs n).symm ▸ hup)

theorem State.deliver_none (f : State → State) (h : takeMsg n.val m s.adm.toTgt = none ∨ s.hsUp n = false) :
    s.deliver n.val m f = s := by
  unfold State.deliver
  split
  · rfl
  next r hr =>
    have hdown : s.isUp (islOf n.val) = false := by
      rw [islOf_hs]
      exact h.resolve_left fun e => nomatch e.symm.trans hr
    rw [hdown]
    rfl

theorem State.hsEntryRow_entry (hmsg : takeMsg n.val .entry s.adm.toTgt = some r) (hup : s.hsUp n = true) :
    s.hsEntryRow n = (s.gotMsg r).hsEntry n false := by
  rw [State.hsEntryRow, takeMsg_other (by decide) hmsg]
  exact State.deliver_hs (fun x => x.hsEntry n false) hmsg hup

theorem State.hsEntryRow_entryOwn (hmsg : takeMsg n.val .entryOwn s.adm.toTgt = some r) (hup : s.hsUp n = true) :
    s.hsEntryRow n = (s.gotMsg r).hsEntry n true := by
  rw [State.hsEntryRow, hmsg]
  exact State.deliver_hs (fun x => x.hsEntry n true) hmsg hup
end

/-! ### The entry (R163) -/

section
variable {s : State} {n : Fin 48} {mine : Bool}

theorem State.hsEntry_queues (hst : s.hs[n].st = .off) (htl : s.hs[n].tl = false) (hbank : s.hs[n].bankOk = true)
    (hlimp : s.hs[n].limp = false ∨ mine = true) :
    (s.hsEntry n mine).adm = { s.adm with inbox := s.adm.inbox ++ [.confirm n.val] } ∧
      (s.hsEntry n mine).hs = upd s.hs n fun h => { h with own := false, reqKind := .ordinary }.entered s.now .pending := by
  have hshut : (s.hs[n].limp && !mine && !s.hs[n].own) = false := by
    rcases hlimp with h | h <;> simp [-Fin.getElem_fin, h]
  simp only [State.hsEntry, hst, htl, hbank, hshut, Bool.false_or, Bool.false_eq_true, if_false, if_true]
  refine ⟨rfl, ?_⟩
  simp only [State.toAdm, State.modAdm_hs, State.hsEnter_hs, State.modHs_hs, upd_upd]
  rfl

theorem State.hsEntry_bankDown (hst : s.hs[n].st = .off) (htl : s.hs[n].tl = false) (hbank : s.hs[n].bankOk = false)
    (hlimp : s.hs[n].limp = false) :
    (s.hsEntry n mine).adm = { s.adm with
        inbox := s.adm.inbox ++ [if bit s.hs[n].ctl 1 then .uvTaken n.val else .refuse n.val HsSt.off.code] } ∧
      (s.hsEntry n mine).hs = upd s.hs n fun h =>
        if bit s.hs[n].ctl 1 then { h with own := false }.entered s.now .uvWait else { h with own := false } := by
  cases hrestart : bit s.hs[n].ctl 1 <;>
    simp only [State.hsEntry, hst, htl, hbank, hlimp, hrestart, Bool.false_and, Bool.or_self, Bool.false_eq_true, if_false,
      if_true, State.toAdm, State.modAdm_hs, State.modAdm_adm, State.hsEnter_hs, State.modHs_hs, upd_upd]
  · exact ⟨rfl, trivial⟩
  · exact ⟨rfl, rfl⟩

theorem State.hsEntry_refuses (hpend : s.hs[n].st ≠ .pending)
    (h : s.hs[n].st ≠ .off ∨ s.hs[n].tl = true ∨ s.hs[n].limp = true ∧ s.hs[n].own = false) :
    s.hsEntry n false = (s.modHs n fun h => { h with own := false }).toAdm (.refuse n.val s.hs[n].st.code) := by
  unfold State.hsEntry
  dsimp only
  split
  next hst => exact absurd hst hpend
  next hst =>
    rw [hst]
    refine if_pos ?_
    rcases h with h | h | ⟨hlimp, hown⟩
    · exact absurd hst h
    · rw [h, Bool.true_or]
    · rw [hlimp, hown, Bool.or_eq_true]
      exact .inr rfl
  next => rfl
end

/-! ### The grant (R51, R52) -/

/-- What a clamp judged in INRUSH or ON leaves of its channel. -/
structure Hs.SameRun (h g : Hs) : Prop where
  st : g.st = h.st
  ops : g.ops = h.ops
  onAt : g.onAt = h.onAt
  stepEnd : g.stepEnd = h.stepEnd
  clamp : g.clamp = h.clamp

theorem State.clampJudge_on (s : State) (n : Fin 48) (c : Clamp) (tCl : Nat) (timeout : Bool)
    (hon : hsOn s.hs[n].st = true) :
    s.hs[n].SameRun (s.clampJudge n c tCl timeout).hs[n] ∧ onlyAt n s.hs (s.clampJudge n c tCl timeout).hs := by
  have hjudge : ∃ f : Hs → Hs, (s.clampJudge n c tCl timeout).hs = upd s.hs n f ∧ s.hs[n].SameRun (f s.hs[n]) := by
    rcases (hsOn_iff _).1 hon with hst | hst <;>
    · simp only [State.clampJudge, hst, apply_ite State.hs, State.emit_hs, ite_self, State.onlyIf, State.toAdm,
        State.modAdm_hs, State.modHs_hs]
      exact ⟨_, rfl, rfl, rfl, rfl, rfl, rfl⟩
  obtain ⟨f, hf, hsame⟩ := hjudge
  obtain ⟨hat, hothers⟩ := changed_at hf
  exact ⟨hat ▸ hsame, hothers⟩

/-- A switch-on ends the clamp that runs. -/
theorem State.clampStop_on (s : State) (n : Fin 48) (cycles : Nat) (hon : hsOn s.hs[n].st = true) :
    ({ s.hs[n] with clamp := none } : Hs).SameRun (s.clampStop n cycles).hs[n] ∧
      onlyAt n s.hs (s.clampStop n cycles).hs := by
  unfold State.clampStop
  split
  next hnone => exact ⟨⟨rfl, rfl, rfl, rfl, hnone⟩, onlyAt_refl n s.hs⟩
  next c hc =>
    obtain ⟨hat, hothers⟩ := changed_at (s.modHs_hs n fun h => { h with clamp := none })
    dsimp only
    split
    · exact ⟨hat ▸ ⟨rfl, rfl, rfl, rfl, rfl⟩, hothers⟩
    · obtain ⟨hsame, hjudged⟩ := (s.modHs n fun h => { h with clamp := none }).clampJudge_on n c
        (min 65535 (ceilDiv cycles 40)) (longClamp cycles) (by rw [hat]; exact hon)
      exact ⟨hat ▸ hsame, onlyAt_trans hothers hjudged⟩

theorem Hs.envStart_on (h : Hs) (now : Nat) : hsOn (h.envStart now).st = true := by
  unfold Hs.envStart
  split
  · rfl
  · split
    · split <;> rfl
    · rfl

/-- The channel as a grant turns it on, before its clamp is ended. -/
abbrev Hs.turnedOn (h : Hs) (now : Nat) : Hs :=
  { h.envStart now with
    ops := satN 64 (h.ops + 1), onAt := now, est := h.est.begin now true, own := false, mark := .grantOn, markAt := now,
    retryAt := none, retryDone := false }

theorem State.hsSwitchOn_at (s : State) (n : Fin 48) (cycles : Nat) :
    ({ s.hs[n].turnedOn s.now with clamp := none } : Hs).SameRun (s.hsSwitchOn n cycles).hs[n] ∧
      onlyAt n s.hs (s.hsSwitchOn n cycles).hs := by
  have hhs : (s.hsSwitchOn n cycles).hs = ((s.modHs n fun h => h.turnedOn s.now).clampStop n cycles).hs := by
    rw [State.hsSwitchOn, State.emitAdm_hs]
    rfl
  obtain ⟨hat, hothers⟩ := changed_at (s.modHs_hs n fun h => h.turnedOn s.now)
  obtain ⟨hsame, hclamp⟩ := (s.modHs n fun h => h.turnedOn s.now).clampStop_on n cycles
    (by rw [hat]; exact s.hs[n].envStart_on _)
  rw [hhs]
  exact ⟨hat ▸ hsame, onlyAt_trans hothers hclamp⟩

section
variable {s : State} {n : Fin 48}

theorem State.hsGrantArrives_on (cycles : Nat) (hst : s.hs[n].st = .pending) (htl : s.hs[n].tl = false)
    (hbank : s.hs[n].bankOk = true) : s.hsGrantArrives n cycles = s.hsSwitchOn n cycles := by
  simp only [State.hsGrantArrives, hst, htl, hbank, Bool.not_false, Bool.and_self, if_true]

theorem State.hsGrantArrives_returned (cycles : Nat) (hst : s.hs[n].st ≠ .pending) :
    s.hsGrantArrives n cycles = s.hsReturn n := by
  unfold State.hsGrantArrives
  dsimp only
  split
  next h => exact absurd h hst
  next => rfl
end

/-! ### Events of a channel -/

/-- The fabric of `t` is that of `s` with one event emitted by island `isl`. -/
theorem emitted_of_fab {s x t : State} {isl code : Nat} {arg : W32} (hisl : isl < 72) (hfab : x.fab = s.fab)
    (hnow : x.now = s.now) (ht : t.fab = (x.emit isl code arg).fab) : emitted s t isl code arg := by
  have hemit : (x.emit isl code arg).fab.out =
      vupd s.fab.out isl (outPut { time := s.count, src := isl, code := code, arg := arg }) := by
    rw [← hfab]
    exact congrArg
      (fun now => vupd x.fab.out isl (outPut { time := now % 2 ^ 48, src := isl, code := code, arg := arg })) hnow
  rw [emitted, ht, hemit, vget, dif_pos hisl, vget, dif_pos hisl]
  have hread := vupd_at s.fab.out isl ⟨isl, hisl⟩ (outPut { time := s.count, src := isl, code := code, arg := arg })
  rwa [if_pos rfl] at hread

theorem islHs_lt (n : Fin 48) : islHs n.val < 72 := by
  unfold islHs
  omega

theorem State.emitAdm_fab (s : State) (src code : Nat) (arg : W32) (m : AdmIn) :
    (s.emitAdm src code arg m).fab = (s.emit src code arg).fab := by
  unfold State.emitAdm State.onlyIf
  split <;> rfl

theorem State.hsSwitchOff_emits (s : State) (n : Fin 48) (st : HsSt) (cause : Nat) :
    emitted s (s.hsSwitchOff n st cause) (islHs n.val) 2 (pack [(0, 4, st.code), (4, 4, cause)]) :=
  emitted_of_fab (islHs_lt n) rfl rfl (State.emitAdm_fab ..)

/-- Outside the cycle of its grant the command turns the switch off (R50). -/
theorem State.hsStop_of_on {s : State} {n : Fin 48} {to_ : HsSt} {cause : Nat} {same : Bool}
    (hon : hsOn s.hs[n].st = true) (hgrant : ¬ s.hsMarked n same .grantOn) :
    s.hsStop n to_ cause same = (s.hsSwitchOff n to_ cause, 0) := by
  have := s.hsStop_cases n to_ cause same
  rcases (hsOn_iff _).1 hon with hst | hst <;> simp_all [hsOn]

/-- Settles O13, message by message: each reaches its channel as `State.deliver_hs` says. -/
theorem admMessagesMoveTheChannel : Obligations.AdmMessagesMoveTheChannel := by
  unfold Obligations.AdmMessagesMoveTheChannel
  refine ⟨?_, ?_, ?_, ?_, ?_, ?_, ?_, ?_, ?_, ?_, ?_⟩
  · intro s n r hmsg hup hst htl hbank hlimp
    have hrow := State.hsEntryRow_entry hmsg hup
    obtain ⟨hadm, hhs⟩ := State.hsEntry_queues (s := s.gotMsg r) (mine := false) hst htl hbank (.inl hlimp)
    rw [← hrow] at hadm hhs
    obtain ⟨hat, hothers⟩ := changed_at hhs
    exact ⟨_, rfl, hat ▸ rfl, hadm ▸ rfl, hadm ▸ rfl, hat ▸ rfl, hothers, s.hsEntryRow_touch n⟩
  · intro s n r hmsg hup hst htl hbank
    have hrow := State.hsEntryRow_entryOwn hmsg hup
    obtain ⟨hadm, hhs⟩ := State.hsEntry_queues (s := s.gotMsg r) (mine := true) hst htl hbank (.inr rfl)
    rw [← hrow] at hadm hhs
    obtain ⟨hat, hothers⟩ := changed_at hhs
    exact ⟨_, rfl, hat ▸ rfl, hadm ▸ rfl, hadm ▸ rfl, hat ▸ rfl, hat ▸ rfl, hothers, s.hsEntryRow_touch n⟩
  · intro s n r hmsg hup hst htl hbank hlimp
    have hrow := State.hsEntryRow_entry hmsg hup
    obtain ⟨hadm, hhs⟩ := State.hsEntry_bankDown (s := s.gotMsg r) (mine := false) hst htl hbank hlimp
    rw [← hrow] at hadm hhs
    obtain ⟨hat, hothers⟩ := changed_at hhs
    refine ⟨_, rfl, ?_, hadm ▸ rfl, hothers, s.hsEntryRow_touch n⟩
    rw [hat]
    cases hrestart : bit s.hs[n].ctl 1 <;> simp [-Fin.getElem_fin, hrestart, hst]
  · intro s n r hmsg hup hpend hwhy
    have hrow := (State.hsEntryRow_entry hmsg hup).trans (State.hsEntry_refuses (s := s.gotMsg r) hpend hwhy)
    obtain ⟨hat, hothers⟩ := changed_at ((congrArg State.hs hrow).trans (s.modHs_hs n fun h => { h with own := false }))
    exact ⟨_, rfl, hat, congrArg (fun x => x.adm.inbox) hrow, hothers, s.hsEntryRow_touch n⟩
  · intro s n cyc r hmsg hup hst htl hbank
    have hrow := (State.deliver_hs (fun x => x.hsGrantArrives n cyc) hmsg hup).trans
      (State.hsGrantArrives_on (s := s.gotMsg r) cyc hst htl hbank)
    obtain ⟨hsame, hothers⟩ := (s.gotMsg r).hsSwitchOn_at n cyc
    rw [← hrow] at hsame hothers
    refine ⟨_, rfl, ?_, hsame.ops, hsame.onAt, hsame.clamp, fun hlen => ?_, fun hlen henv => ?_, hothers,
      s.deliver_touch _ _ _ (fun x => x.hsGrantArrives_touch n cyc) (by decide)⟩
    · rw [hsame.st]
      exact s.hs[n].envStart_on _
    · rw [hsame.st]
      exact congrArg Hs.st (if_pos hlen)
    · have hstart : s.hs[n].envStart s.now =
          { s.hs[n] with st := .inrush, envStep := 0, defEnv := true, inrushAt := s.now, stepEnd := s.now + 10000 } :=
        (if_neg hlen.ne').trans (if_neg (by rw [henv]; decide))
      exact ⟨hsame.st.trans (congrArg Hs.st hstart), hsame.stepEnd.trans (congrArg Hs.stepEnd hstart)⟩
  · intro s n cyc r hmsg hup hst
    have hrow := (State.deliver_hs (fun x => x.hsGrantArrives n cyc) hmsg hup).trans
      (State.hsGrantArrives_returned (s := s.gotMsg r) cyc hst)
    obtain ⟨hat, hothers⟩ := changed_at ((congrArg State.hs hrow).trans (s.modHs_hs n fun h => { h with own := false }))
    refine ⟨_, rfl, hat, hothers, congrArg (fun x => x.adm.inbox) hrow, ?_, ?_⟩
    · exact emitted_of_fab (x := s) (islHs_lt n) rfl rfl ((congrArg State.fab hrow).trans rfl)
    · change onlyTouches _ s (s.deliver n.val .grant fun x => x.hsGrantArrives n cyc)
      rw [hrow]
      exact ((s.modAdm_touch _).mono (by decide)).step ((s.gotMsg r).hsReturn_touch n)
  · intro s n r hmsg hup hst
    have hrow := State.deliver_hs (fun x => x.hsDrop n) hmsg hup
    have hdrop : ((s.gotMsg r).hsDrop n).hs = upd s.hs n fun h => { h with own := false }.entered s.now .off := by
      rw [State.hsDrop, if_pos (by simp [-Fin.getElem_fin, hst]), State.hsEnter_hs, State.modHs_hs, upd_upd]
      rfl
    obtain ⟨hat, hothers⟩ := changed_at ((congrArg State.hs hrow).trans hdrop)
    exact ⟨_, rfl, hat ▸ rfl, hothers,
      s.deliver_touch _ _ _ (fun x => (x.hsDrop_touch n).mono (by decide)) (by decide)⟩
  · intro s n r hmsg hup hst
    have hrow := State.deliver_hs (fun x => x.hsDrop n) hmsg hup
    have hdrop : ((s.gotMsg r).hsDrop n).hs = upd s.hs n fun h => { h with own := false } := by
      rw [State.hsDrop, if_neg (by simp [-Fin.getElem_fin, hst])]
      rfl
    obtain ⟨hat, hothers⟩ := changed_at ((congrArg State.hs hrow).trans hdrop)
    exact ⟨_, rfl, hat, hothers,
      s.deliver_touch _ _ _ (fun x => (x.hsDrop_touch n).mono (by decide)) (by decide)⟩
  · intro s c n multi r hmsg hup hst hlimp
    have hrow := State.deliver_hs (fun x => x.hsOffCmd n 9 false) hmsg hup
    have hst' : (s.gotMsg r).hs[n].st = .on := hst
    have hlimp' : (s.gotMsg r).hs[n].limp = false := hlimp
    have hgrant := (s.gotMsg r).hsMarked_false n .grantOn
    obtain ⟨hend, hres, -, hothers⟩ := State.hsOffCmd_ends (s := s.gotMsg r) 9 hlimp' hgrant (by rw [hst']; decide)
      (by rw [hst']; decide) (congrArg State.hs hrow)
    have hfab : ((s.gotMsg r).hsOffCmd n 9 false).fab = ((s.gotMsg r).hsSwitchOff n .off 9).fab := by
      rw [State.hsOffCmd, hlimp', State.hsStop_of_on (by rw [hst']; decide) hgrant]
      rfl
    refine ⟨_, rfl, hend, hres, ?_, hothers,
      s.deliver_touch _ _ _ (fun x => (x.hsOffCmd_touch n 9 false).mono (by decide)) (by decide)⟩
    have hemit := (s.gotMsg r).hsSwitchOff_emits n .off 9
    rwa [emitted, ← hfab, ← hrow] at hemit
  · intro s n h
    exact ⟨_, rfl, State.deliver_none _ h⟩
  · intro s n h
    exact ⟨_, rfl, State.deliver_none _ h⟩

end Sys2Proof.Machine
/-! ## Bank under-voltage and recovery (R50, R68 to R73) -/

namespace Sys2Proof.Machine

open Claims

/-- A loop over units whose every turn leaves the state alone. -/
theorem forFin_eq_self {k : Nat} {op : Fin k → State → State} {s : State} (h : ∀ j, op j s = s) : forFin k op s = s := by
  rw [forFin]
  induction List.finRange k with
  | nil => rfl
  | cons j r ih => rw [List.foldl_cons, h j, ih]

/-- In a loop over the channels each turn that changes its own channel alone meets the channel as it was. -/
theorem channelLoop_at {op : Fin 48 → State → State} {ps : List Part} (htouch : ∀ n x, onlyTouches ps x (op n x))
    (hup : Part.up ∉ ps) (hothers : ∀ n x, onlyAt n x.hs (op n x).hs) (s : State) (n : Fin 48) :
    ∃ y : State, y.hs[n] = s.hs[n] ∧ y.hsUp n = s.hsUp n ∧ (forFin 48 op s).hs[n] = (op n y).hs[n] := by
  obtain ⟨y, hy, hview, hloop⟩ := forFin_at (fun x => x.hs[n]) htouch (fun j x hj => hothers j x n (Ne.symm hj)) s
  exact ⟨y, hview, hy.isUp_eq hup _, hloop⟩

/-- The same for a loop that acts on some of the channels. -/
theorem channelLoop_some {op : Fin 48 → State → State} {ps : List Part} (on : Fin 48 → Bool)
    (htouch : ∀ n x, onlyTouches ps x (op n x)) (hup : Part.up ∉ ps) (hothers : ∀ n x, onlyAt n x.hs (op n x).hs)
    (s : State) (n : Fin 48) :
    ∃ y : State, y.hs[n] = s.hs[n] ∧ y.hsUp n = s.hsUp n ∧
      (forFin 48 (fun n x => x.onlyIf (on n) (op n)) s).hs[n] = if on n then (op n y).hs[n] else s.hs[n] := by
  obtain ⟨y, hy, hup', hloop⟩ := channelLoop_at
    (fun n x => onlyTouches.onlyIf (c := on n) (onlyTouches.refl _ x) (htouch n)) hup
    (fun n x => by
      cases hn : on n
      · exact onlyAt_refl n x.hs
      · exact hothers n x) s n
  refine ⟨y, hy, hup', hloop.trans ?_⟩
  cases hn : on n
  · exact hy
  · rfl

/-! ### One channel -/

section
variable {s : State} {n : Fin 48}

/-- UV of a channel set and its BANK_OK clear (R68, R71). -/
abbrev State.uvSet (s : State) (n : Fin 48) : State := s.modHs n fun h => { h with uv := true, bankOk := false }

/-- UV of a channel clear and its BANK_OK set (R68). -/
abbrev State.uvClear (s : State) (n : Fin 48) : State := s.modHs n fun h => { h with uv := false, bankOk := true }

theorem State.uvSet_hs (s : State) (n : Fin 48) :
    (s.uvSet n).hs = upd s.hs n fun h => { h with uv := true, bankOk := false } := rfl

theorem State.uvClear_hs (s : State) (n : Fin 48) :
    (s.uvClear n).hs = upd s.hs n fun h => { h with uv := false, bankOk := true } := rfl

/-- Where an under-voltage leaves a channel (R50, R73). -/
abbrev Hs.uvEnd (h : Hs) : HsSt :=
  if h.st = .pending ∨ hsOn h.st = true then (if bit h.ctl 1 then .uvWait else .off) else h.st

theorem State.hsUv_hs (s : State) (n : Fin 48) (grantBack : Bool) :
    ∃ f : Hs → Hs, (s.hsUv n grantBack).hs = upd s.hs n f ∧ (f s.hs[n]).st = s.hs[n].uvEnd ∧
      (f s.hs[n]).uv = s.hs[n].uv ∧ (f s.hs[n]).bankOk = s.hs[n].bankOk := by
  unfold State.hsUv
  dsimp only
  split
  case h_1 hst =>
    have hend : s.hs[n].uvEnd = if bit s.hs[n].ctl 1 then .uvWait else .off := if_pos (.inl hst)
    cases grantBack <;>
    · simp only [State.parkWake_hs, State.hsEnter_hs, State.hsWithdraw_hs, State.hsRecord_hs, upd_upd, if_true, if_false,
        Bool.false_eq_true]
      exact ⟨_, rfl, hend.symm, rfl, rfl⟩
  case h_2 hst | h_3 hst =>
    have hend : s.hs[n].uvEnd = if bit s.hs[n].ctl 1 then .uvWait else .off := if_pos (.inr (by rw [hst]; rfl))
    simp only [State.parkWake_hs, State.hsSwitchOff_hs, State.hsRecord_hs, upd_upd]
    exact ⟨_, rfl, hend.symm, rfl, rfl⟩
  case h_4 hpend hinrush hon =>
    refine ⟨id, (upd_self _ _ _ rfl).symm, (if_neg ?_).symm, rfl, rfl⟩
    rw [hsOn_iff]
    tauto

theorem State.hsBankUv_acts {mv cycles : Nat} (hup : s.hsUp n = true) (hmv : mv < uvThr s.hs[n].uvCfg)
    (hcycles : 800 ≤ cycles) :
    s.hsBankUv n mv cycles = (s.uvSet n).hsUv n false := by
  simp only [State.hsBankUv, hup, hmv, hcycles, decide_true, Bool.and_self, if_true]

theorem State.hsBankUv_idle {mv cycles : Nat} (h : s.hsUp n = false ∨ uvThr s.hs[n].uvCfg ≤ mv ∨ cycles < 800) :
    s.hsBankUv n mv cycles = s := by
  refine if_neg fun hacts => ?_
  simp only [Bool.and_eq_true, decide_eq_true_eq] at hacts
  obtain ⟨⟨hup, hmv⟩, hcycles⟩ := hacts
  rcases h with h | h | h
  · exact nomatch h.symm.trans hup
  · omega
  · omega

theorem State.hsBankUv_onlyAt (s : State) (n : Fin 48) (mv cycles : Nat) :
    onlyAt n s.hs (s.hsBankUv n mv cycles).hs := by
  unfold State.hsBankUv
  dsimp only
  split
  · obtain ⟨f, hf, -⟩ := (s.uvSet n).hsUv_hs n false
    exact onlyAt_trans (onlyAt_upd _ _ _) (changed_at hf).2
  · exact onlyAt_refl _ _

/-- A channel below its own threshold has UV set and BANK_OK clear, and leaves PENDING, INRUSH and ON. -/
theorem State.hsBankUv_at {mv cycles : Nat} (hup : s.hsUp n = true) (hmv : mv < uvThr s.hs[n].uvCfg)
    (hcycles : 800 ≤ cycles) :
    (s.hsBankUv n mv cycles).hs[n].uv = true ∧ (s.hsBankUv n mv cycles).hs[n].bankOk = false ∧
      (s.hsBankUv n mv cycles).hs[n].st = s.hs[n].uvEnd := by
  obtain ⟨hat, -⟩ := changed_at (s.uvSet_hs n)
  obtain ⟨f, hf, hst, huv, hbank⟩ := (s.uvSet n).hsUv_hs n false
  rw [State.hsBankUv_acts hup hmv hcycles, (changed_at hf).1, hst, huv, hbank, hat]
  exact ⟨rfl, rfl, rfl⟩

theorem State.hsTryRestart_at (s : State) (n : Fin 48) :
    (s.hsTryRestart n).hs[n].uv = s.hs[n].uv ∧ (s.hsTryRestart n).hs[n].bankOk = s.hs[n].bankOk ∧
      onlyAt n s.hs (s.hsTryRestart n).hs := by
  have hrestart (retry : Bool) := State.hsRestart_at (s := s) (n := n) (retry := retry) rfl
  unfold State.hsTryRestart
  dsimp only
  repeat' split
  case h_1 | h_2.isTrue =>
    obtain ⟨-, -, -, -, huv, hbank, -, hothers⟩ := hrestart _
    exact ⟨huv, hbank, hothers⟩
  all_goals exact ⟨rfl, rfl, onlyAt_refl _ _⟩

theorem State.hsBankOk_acts {mv us : Nat} (hup : s.hsUp n = true) (hmv : uvRec s.hs[n].uvCfg < mv) (hus : 10000 ≤ us) :
    s.hsBankOk n mv us = (s.uvClear n).hsTryRestart n := by
  simp only [State.hsBankOk, hup, hmv, hus, decide_true, Bool.and_self, if_true]

theorem State.hsBankOk_idle {mv us : Nat} (h : s.hsUp n = false ∨ mv ≤ uvRec s.hs[n].uvCfg ∨ us < 10000) :
    s.hsBankOk n mv us = s := by
  refine if_neg fun hacts => ?_
  simp only [Bool.and_eq_true, decide_eq_true_eq] at hacts
  obtain ⟨⟨hup, hmv⟩, hus⟩ := hacts
  rcases h with h | h | h
  · exact nomatch h.symm.trans hup
  · omega
  · omega

theorem State.hsBankOk_onlyAt (s : State) (n : Fin 48) (mv us : Nat) : onlyAt n s.hs (s.hsBankOk n mv us).hs := by
  unfold State.hsBankOk
  dsimp only
  split
  · obtain ⟨-, -, hothers⟩ := (s.uvClear n).hsTryRestart_at n
    exact onlyAt_trans (onlyAt_upd _ _ _) hothers
  · exact onlyAt_refl _ _

/-- A channel that does not wait, or holds its thermal latch, stays in its state. -/
theorem State.hsBankOk_stays {mv us : Nat} (h : s.hs[n].tl = true ∨ ¬ s.hs[n].waits) :
    (s.hsBankOk n mv us).hs[n].st = s.hs[n].st := by
  obtain ⟨hat, -⟩ := changed_at (s.uvClear_hs n)
  have hidle : (s.uvClear n).hsTryRestart n =
      s.uvClear n := by
    rcases h with h | h
    · exact State.hsTryRestart_shut (.inr (by rw [hat]; exact h))
    · exact State.hsTryRestart_idle (by rw [hat]; exact h)
  unfold State.hsBankOk
  dsimp only
  rw [hidle]
  split
  · rw [hat]
  · rfl

/-- Channel `g` is `h` after the recovery of its bank: UV clear, BANK_OK set, and without the thermal latch a restart from
where it waits (R72, R77). -/
structure Hs.Recovered (h g : Hs) : Prop where
  uv : g.uv = false
  bankOk : g.bankOk = true
  restart : h.st = .uvWait → h.tl = false → g.st = .pending ∧ g.reqKind = .restart ∧ g.retryCnt = h.retryCnt
  retry : h.st = .retryWait → h.retryDone = true → h.tl = false →
    g.st = .pending ∧ g.reqKind = .restart ∧ g.retryCnt = min 15 (h.retryCnt + 1)

theorem State.hsBankOk_at {mv us : Nat} (hup : s.hsUp n = true) (hmv : uvRec s.hs[n].uvCfg < mv) (hus : 10000 ≤ us)
    {h : Hs} (hh : h = (s.hsBankOk n mv us).hs[n]) : s.hs[n].Recovered h := by
  obtain ⟨hat, -⟩ := changed_at (s.uvClear_hs n)
  obtain ⟨huv, hbank, -⟩ := (s.uvClear n).hsTryRestart_at n
  rw [State.hsBankOk_acts hup hmv hus] at hh
  subst hh
  refine ⟨huv.trans (by rw [hat]), hbank.trans (by rw [hat]), fun hst htl => ?_, fun hst hdone htl => ?_⟩
  · rw [State.hsTryRestart_uv (s := s.uvClear n) hup (by rw [hat]) (by rw [hat]; exact htl) (by rw [hat]; exact hst)]
    obtain ⟨hst', hkind, hcnt, -⟩ := (s.uvClear n).hsRestart_at n (retry := false) rfl
    exact ⟨hst', hkind, hcnt.trans (by rw [hat]; rfl)⟩
  · rw [State.hsTryRestart_retry (s := s.uvClear n) hup (by rw [hat]) (by rw [hat]; exact htl) (by rw [hat]; exact hst)
      (by rw [hat]; exact hdone)]
    obtain ⟨hst', hkind, hcnt, -⟩ := (s.uvClear n).hsRestart_at n (retry := true) rfl
    exact ⟨hst', hkind, hcnt.trans (by rw [hat]; rfl)⟩
end

/-! ### The bank -/

section
variable (s : State) (b : Fin 4)

/-- UV and BANK_OK of HSC for one bank, where HSC's own threshold is passed. -/
abbrev State.hscMarks (hit under : Bool) : State :=
  s.onlyIf hit fun s => s.modHsc fun h =>
    { h with uv := upd h.uv b fun _ => under, bankOk := upd h.bankOk b fun _ => !under }

theorem State.hscMarks_touch (hit under : Bool) : onlyTouches [.hsc] s (s.hscMarks b hit under) :=
  onlyTouches.onlyIf (onlyTouches.refl _ s) fun x => x.modHsc_touch _

theorem State.hscMarks_hsc (hit under : Bool) :
    (hit = true → (s.hscMarks b hit under).hsc.uv[b] = under ∧ (s.hscMarks b hit under).hsc.bankOk[b] = !under) ∧
      (hit = false → (s.hscMarks b hit under).hsc = s.hsc) ∧ onlyAt b s.hsc.uv (s.hscMarks b hit under).hsc.uv ∧
      onlyAt b s.hsc.bankOk (s.hscMarks b hit under).hsc.bankOk := by
  cases hit
  · exact ⟨fun h => (nomatch h), fun _ => rfl, onlyAt_refl _ _, onlyAt_refl _ _⟩
  · exact ⟨fun _ => ⟨upd_get .., upd_get ..⟩, fun h => (nomatch h), onlyAt_upd _ _ _, onlyAt_upd _ _ _⟩

/-- HSC sees bank `b` below its threshold for the filter time. -/
abbrev State.bankLow (mv us : Nat) : Bool := s.isUp 2 && decide (mv < uvThr s.hsc.uvCfg[b]) && decide (20 ≤ us)

/-- HSC sees bank `b` above its threshold and hysteresis for the filter time. -/
abbrev State.bankHigh (mv us : Nat) : Bool := s.isUp 2 && decide (uvRec s.hsc.uvCfg[b] < mv) && decide (10000 ≤ us)

theorem State.bankLow_iff (mv us : Nat) :
    s.bankLow b mv us = true ↔ s.isUp 2 = true ∧ mv < uvThr s.hsc.uvCfg[b] ∧ 20 ≤ us := by
  simp only [State.bankLow, Bool.and_eq_true, decide_eq_true_eq, and_assoc]

theorem State.bankHigh_iff (mv us : Nat) :
    s.bankHigh b mv us = true ↔ s.isUp 2 = true ∧ uvRec s.hsc.uvCfg[b] < mv ∧ 10000 ≤ us := by
  simp only [State.bankHigh, Bool.and_eq_true, decide_eq_true_eq, and_assoc]

/-- The turns of an under-voltage, and what follows them for the consumers of VL3. -/
theorem State.bankUv_turns (mv us : Nat) :
    onlyTouches [.fab, .dig, .vg, .vd, .ls, .adm]
      (forFin 48 (fun n s => s.onlyIf (bankOf n.val = b.val) fun s => s.hsBankUv n mv (us * 40))
        (s.hscMarks b (s.bankLow b mv us) true))
      (s.bankUv b mv us) :=
  onlyTouches.onlyIf (onlyTouches.refl _ _) fun x =>
    onlyTouches.forFin
      (onlyTouches.onlyIf (onlyTouches.refl _ x) fun y =>
        onlyTouches.forFin (onlyTouches.refl _ y) fun g z => (z.vgUv_touch g).mono (by decide))
      fun k y => (y.lsUv_touch k mv us).mono (by decide)

theorem State.bankUv_hsc (mv us : Nat) : (s.bankUv b mv us).hsc = (s.hscMarks b (s.bankLow b mv us) true).hsc :=
  ((s.bankUv_turns b mv us).same .hsc (by decide)).trans
    ((onlyTouches.forFin (ps := [.fab, .hs, .dig, .adm, .pwr]) (onlyTouches.refl _ _) fun n x =>
      onlyTouches.onlyIf (onlyTouches.refl _ x) fun y => y.hsBankUv_touch n mv (us * 40)).same .hsc (by decide))

theorem State.bankUv_at (mv us : Nat) (n : Fin 48) :
    ∃ y : State, y.hs[n] = s.hs[n] ∧ y.hsUp n = s.hsUp n ∧
      (s.bankUv b mv us).hs[n] = if bankOf n.val = b.val then (y.hsBankUv n mv (us * 40)).hs[n] else s.hs[n] := by
  have hmarks := s.hscMarks_touch b (s.bankLow b mv us) true
  obtain ⟨y, hy, hup, hloop⟩ := channelLoop_some (fun n => bankOf n.val = b.val)
    (fun n x => x.hsBankUv_touch n mv (us * 40)) (by decide) (fun n x => x.hsBankUv_onlyAt n mv (us * 40))
    (s.hscMarks b (s.bankLow b mv us) true) n
  rw [hmarks.same .hs (by decide)] at hy hloop
  refine ⟨y, hy, hup.trans (hmarks.isUp_eq (by decide) _), ?_⟩
  rw [(s.bankUv_turns b mv us).same .hs (by decide), hloop]
  simp only [decide_eq_true_eq]

theorem State.bankUv_short {us : Nat} (mv : Nat) (hus : us < 20) : s.bankUv b mv us = s := by
  have hlow : s.bankLow b mv us = false := by simp [hus]
  have hturns : forFin 48 (fun n s => s.onlyIf (bankOf n.val = b.val) fun s => s.hsBankUv n mv (us * 40)) s = s :=
    forFin_eq_self fun n => by
      rw [State.onlyIf, State.hsBankUv_idle (.inr (.inr (by omega))), ite_self]
  have hstrings : forFin 3 (fun k s => s.lsUv k mv us) s = s :=
    forFin_eq_self fun k => if_neg (by simp [hus])
  have hunfold : s.bankUv b mv us =
      ((forFin 48 (fun n s => s.onlyIf (bankOf n.val = b.val) fun s => s.hsBankUv n mv (us * 40))
        (s.hscMarks b (s.bankLow b mv us) true)).onlyIf (b.val = 3) fun x => forFin 3 (fun k s => s.lsUv k mv us)
          (x.onlyIf (s.bankLow b mv us) fun s => forFin 4 (fun g s => s.vgUv g) s)) := rfl
  rw [hunfold, hlow]
  change ((forFin 48 _ s).onlyIf (b.val = 3) fun x => forFin 3 (fun k s => s.lsUv k mv us) x) = s
  rw [hturns, State.onlyIf, hstrings, ite_self]

/-- The turns of a recovery, and what follows them for the strings. -/
theorem State.bankRecover_turns (mv us : Nat) :
    onlyTouches [.dig, .ls, .adm]
      (forFin 48 (fun n s => s.onlyIf (bankOf n.val = b.val) fun s => s.hsBankOk n mv us)
        (s.hscMarks b (s.bankHigh b mv us) false))
      (s.bankRecover b mv us) :=
  onlyTouches.onlyIf (onlyTouches.refl _ _) fun x =>
    onlyTouches.forFin (onlyTouches.refl _ x) fun k y => y.lsBankOk_touch k mv us

theorem State.bankRecover_hsc (mv us : Nat) :
    (s.bankRecover b mv us).hsc = (s.hscMarks b (s.bankHigh b mv us) false).hsc :=
  ((s.bankRecover_turns b mv us).same .hsc (by decide)).trans
    ((onlyTouches.forFin (ps := [.fab, .hs, .adm]) (onlyTouches.refl _ _) fun n x =>
      onlyTouches.onlyIf (onlyTouches.refl _ x) fun y => y.hsBankOk_touch n mv us).same .hsc (by decide))

theorem State.bankRecover_at (mv us : Nat) (n : Fin 48) :
    ∃ y : State, y.hs[n] = s.hs[n] ∧ y.hsUp n = s.hsUp n ∧
      (s.bankRecover b mv us).hs[n] = if bankOf n.val = b.val then (y.hsBankOk n mv us).hs[n] else s.hs[n] := by
  have hmarks := s.hscMarks_touch b (s.bankHigh b mv us) false
  obtain ⟨y, hy, hup, hloop⟩ := channelLoop_some (fun n => bankOf n.val = b.val)
    (fun n x => x.hsBankOk_touch n mv us) (by decide) (fun n x => x.hsBankOk_onlyAt n mv us)
    (s.hscMarks b (s.bankHigh b mv us) false) n
  rw [hmarks.same .hs (by decide)] at hy hloop
  refine ⟨y, hy, hup.trans (hmarks.isUp_eq (by decide) _), ?_⟩
  rw [(s.bankRecover_turns b mv us).same .hs (by decide), hloop]
  simp only [decide_eq_true_eq]

/-- A powered channel of the bank above its own threshold recovers as `State.hsBankOk_at` says. -/
theorem State.bankRecover_powered {mv us : Nat} (hus : 10000 ≤ us) (n : Fin 48) (hbank : bankOf n.val = b.val)
    (hup : s.hsUp n = true) (hmv : uvRec s.hs[n].uvCfg < mv) :
    s.hs[n].Recovered (s.bankRecover b mv us).hs[n] := by
  obtain ⟨y, hy, hyup, hat⟩ := s.bankRecover_at b mv us n
  rw [if_pos hbank] at hat
  have hrec := State.hsBankOk_at (hyup.trans hup) (by rw [hy]; exact hmv) hus hat
  rwa [hy] at hrec

theorem State.bankRecover_short {us : Nat} (mv : Nat) (hus : us < 10000) : s.bankRecover b mv us = s := by
  have hhigh : s.bankHigh b mv us = false := by simp [hus]
  have hturns : forFin 48 (fun n s => s.onlyIf (bankOf n.val = b.val) fun s => s.hsBankOk n mv us) s = s :=
    forFin_eq_self fun n => by
      rw [State.onlyIf, State.hsBankOk_idle (.inr (.inr hus)), ite_self]
  have hstrings : forFin 3 (fun k s => s.lsBankOk k mv us) s = s :=
    forFin_eq_self fun k => if_neg (by simp [hus])
  have hunfold : s.bankRecover b mv us =
      ((forFin 48 (fun n s => s.onlyIf (bankOf n.val = b.val) fun s => s.hsBankOk n mv us)
        (s.hscMarks b (s.bankHigh b mv us) false)).onlyIf (b.val = 3) fun x =>
          forFin 3 (fun k s => s.lsBankOk k mv us) x) := rfl
  rw [hunfold, hhigh]
  change ((forFin 48 _ s).onlyIf (b.val = 3) _) = s
  rw [hturns, State.onlyIf, hstrings, ite_self]

/-- What a write of UV_CFG makes of each channel: those of the bank that are powered store it (R665). -/
theorem State.uvCfgWrite_at (v : W32) (n : Fin 48) :
    (s.uvCfgWrite b v).hs[n] =
      if bankOf n.val = b.val ∧ s.hsUp n = true then { s.hs[n] with uvCfg := keep 0x37F v } else s.hs[n] := by
  obtain ⟨y, hy, hup, hloop⟩ := channelLoop_at (ps := [.hs])
    (op := fun n s => s.onlyIf (bankOf n.val = b.val && s.hsUp n) fun s =>
      s.modHs n fun h => { h with uvCfg := keep 0x37F v })
    (fun n x => onlyTouches.onlyIf (onlyTouches.refl _ x) fun y => y.modHs_touch n _) (by decide)
    (fun n x => by
      cases h : decide (bankOf n.val = b.val) && x.hsUp n
      · exact onlyAt_refl n x.hs
      · exact onlyAt_upd _ _ _)
    (s.modHsc fun h => { h with uvCfg := upd h.uvCfg b fun _ => keep 0x37F v }) n
  refine hloop.trans ?_
  rw [State.onlyIf, hup]
  have hup' : (s.modHsc fun h => { h with uvCfg := upd h.uvCfg b fun _ => keep 0x37F v }).hsUp n = s.hsUp n := rfl
  have hy' : y.hs[n] = s.hs[n] := hy
  by_cases h : bankOf n.val = b.val ∧ s.hsUp n = true
  · rw [if_pos h, if_pos (by simp [hup', h]), State.modHs_hs, upd_get, hy']
  · rw [if_neg h, if_neg (by simpa [hup'] using h), hy']

theorem State.uvCfgWrite_hsc (v : W32) :
    (s.uvCfgWrite b v).hsc = { s.hsc with uvCfg := upd s.hsc.uvCfg b fun _ => keep 0x37F v } :=
  (onlyTouches.forFin (ps := [.hs]) (onlyTouches.refl _ _) fun n x =>
    onlyTouches.onlyIf (onlyTouches.refl _ x) fun y => y.modHs_touch n _).same .hsc (by decide)

end

/-- Settles O15: the loops over the channels by `State.bankUv_at` and `State.bankRecover_at`, HSC by
`State.hscMarks_hsc`. -/
theorem bankVoltageHoldsChannelsOff : Obligations.BankVoltageHoldsChannelsOff := by
  unfold Obligations.BankVoltageHoldsChannelsOff
  refine ⟨?_, ?_, ?_, ?_, ?_, ?_⟩
  · intro s b mv us hus
    refine ⟨_, rfl, fun n hbank hup hmv => ?_, fun n hwhy => ?_, fun hup hmv => ?_, fun hwhy => ?_, ?_, ?_,
      s.bankUv_touch b mv us⟩
    · obtain ⟨y, hy, hyup, hat⟩ := s.bankUv_at b mv us n
      rw [if_pos hbank] at hat
      rw [hat, ← hy]
      exact State.hsBankUv_at (hyup.trans hup) (by rw [hy]; exact hmv) (by omega)
    · obtain ⟨y, hy, hyup, hat⟩ := s.bankUv_at b mv us n
      rw [hat]
      split
      next hbank =>
        rw [State.hsBankUv_idle (by rw [hy, hyup]; tauto), hy]
      next => rfl
    · rw [State.bankUv_hsc]
      exact (s.hscMarks_hsc b _ true).1 ((s.bankLow_iff b mv us).2 ⟨hup, hmv, hus⟩)
    · rw [State.bankUv_hsc]
      refine (s.hscMarks_hsc b _ true).2.1 (Bool.eq_false_iff.2 fun h => ?_)
      obtain ⟨hup, hmv, -⟩ := (s.bankLow_iff b mv us).1 h
      rcases hwhy with h | h
      · exact nomatch h.symm.trans hup
      · omega
    · rw [State.bankUv_hsc]
      exact (s.hscMarks_hsc b _ true).2.2.1
    · rw [State.bankUv_hsc]
      exact (s.hscMarks_hsc b _ true).2.2.2
  · exact fun s b mv us hus => ⟨_, rfl, s.bankUv_short b mv hus⟩
  · intro s b mv us hus hmax
    refine ⟨_, if_neg (by omega), fun n hbank hup hmv => ?_, fun n hbank hup hmv hst htl => ?_,
      fun n hbank hup hmv hst hdone htl => ?_, fun n hwhy => ?_, fun n hwhy => ?_, fun hup hmv => ?_, fun hwhy => ?_,
      ?_, ?_, s.bankRecover_touch b mv us⟩
    · have hrec := s.bankRecover_powered b hus n hbank hup hmv
      exact ⟨hrec.uv, hrec.bankOk⟩
    · exact (s.bankRecover_powered b hus n hbank hup hmv).restart hst htl
    · exact (s.bankRecover_powered b hus n hbank hup hmv).retry hst hdone htl
    · obtain ⟨y, hy, -, hat⟩ := s.bankRecover_at b mv us n
      rw [hat]
      split
      · rw [State.hsBankOk_stays (by rw [hy]; simpa [-Fin.getElem_fin, imp_iff_not_or] using hwhy), hy]
      · rfl
    · obtain ⟨y, hy, hyup, hat⟩ := s.bankRecover_at b mv us n
      rw [hat]
      split
      next hbank => rw [State.hsBankOk_idle (by rw [hy, hyup]; tauto), hy]
      next => rfl
    · rw [State.bankRecover_hsc]
      exact (s.hscMarks_hsc b _ false).1 ((s.bankHigh_iff b mv us).2 ⟨hup, hmv, hus⟩)
    · rw [State.bankRecover_hsc]
      refine (s.hscMarks_hsc b _ false).2.1 (Bool.eq_false_iff.2 fun h => ?_)
      obtain ⟨hup, hmv, -⟩ := (s.bankHigh_iff b mv us).1 h
      rcases hwhy with h | h
      · exact nomatch h.symm.trans hup
      · omega
    · rw [State.bankRecover_hsc]
      exact (s.hscMarks_hsc b _ false).2.2.1
    · rw [State.bankRecover_hsc]
      exact (s.hscMarks_hsc b _ false).2.2.2
  · exact fun s b mv us hus hmax => ⟨_, if_neg (by omega), s.bankRecover_short b mv hus⟩
  · exact fun s b mv us hmax => if_pos hmax
  · intro s c b v hcan
    refine fires_storeIf (ps := [.fab, .answer, .hs, .hsc, .pmc, .free]) rfl hcan
      (fun x => (x.uvCfgWrite_touch b v).mono (by decide)) (by decide) fun t ht htouch => ?_
    have hchannel (n : Fin 48) := (s.served c).uvCfgWrite_at b v n
    have hhsc := (s.served c).uvCfgWrite_hsc b v
    have hths : t.hs = ((s.served c).uvCfgWrite b v).hs := by rw [← ht]
    have hthsc : t.hsc = ((s.served c).uvCfgWrite b v).hsc := by rw [← ht]
    simp only [State.served_hs, State.served_hsUp, ← hths] at hchannel
    rw [State.served_hsc, ← hthsc] at hhsc
    refine ⟨?_, ?_, fun n hbank hup => ?_, fun n hwhy => ?_, htouch⟩
    · rw [hhsc, upd_get]
    · rw [hhsc]
      exact onlyAt_upd _ _ _
    · rw [hchannel, if_pos ⟨hbank, hup⟩]
    · rw [hchannel, if_neg]
      rintro ⟨hbank, hup⟩
      rcases hwhy with h | h
      · exact h hbank
      · exact nomatch h.symm.trans hup

end Sys2Proof.Machine
/-! ## What a command to one target leaves alone (R84, R319, R326, R327)

A command to a valve, a lamp string or a channel changes that target alone, keeps its limp flag, and reaches ADM through its
inbox: `State.around` is what it leaves, by a lemma `…_around` for each operation of a target. -/

namespace Sys2Proof.Machine

open Claims

/-- Every target but `x`. -/
def State.others (s : State) (x : Fin 67) : (Fin 48 → Option Hs) × (Fin 16 → Option Vd) × (Fin 3 → Option Ls) :=
  (fun n => if tHs n = x then none else some s.hs[n], fun n => if tVd n = x then none else some s.vd[n],
    fun k => if tLs k = x then none else some s.ls[k])

/-- What a command to target `x` leaves alone: the heater slots, its limp flag and the other targets. -/
def State.around (s : State) (x : Fin 67) :
    Vector Slot 16 × Bool × (Fin 48 → Option Hs) × (Fin 16 → Option Vd) × (Fin 3 → Option Ls) :=
  (s.adm.slots, s.inLimp x, s.others x)

/-! ### The targets apart -/

theorem tHs_inj {n m : Fin 48} : tHs n = tHs m ↔ n = m := by simp [tHs, Fin.ext_iff]

theorem tVd_inj {n m : Fin 16} : tVd n = tVd m ↔ n = m := by simp [tVd, Fin.ext_iff]

theorem tLs_inj {k j : Fin 3} : tLs k = tLs j ↔ k = j := by simp [tLs, Fin.ext_iff]

/-- Every target is a channel, a valve or a string. -/
theorem target_cases (x : Fin 67) : (∃ n, x = tHs n) ∨ (∃ n, x = tVd n) ∨ ∃ k, x = tLs k := by
  by_cases h : x.val < 48
  · exact .inl ⟨⟨x, h⟩, rfl⟩
  · by_cases h' : x.val < 64
    · exact .inr (.inl ⟨⟨x - 48, by omega⟩, Fin.ext (by simp only [tVd]; omega)⟩)
    · exact .inr (.inr ⟨⟨x - 64, by omega⟩, Fin.ext (by simp only [tLs]; omega)⟩)

section
variable (s : State)

theorem State.inLimp_tHs (n : Fin 48) : s.inLimp (tHs n) = s.hs[n].limp := by
  simp [State.inLimp, tHs, vget]

theorem State.inLimp_tVd (n : Fin 16) : s.inLimp (tVd n) = s.vd[n].limp := by
  simp [State.inLimp, tVd, vget]
  omega

theorem State.inLimp_tLs (k : Fin 3) : s.inLimp (tLs k) = s.ls[k].limp := by
  have h : ¬ 64 + k.val < 48 := by omega
  simp [State.inLimp, tLs, vget, h]

end

/-! ### From what is left to its parts -/

section
variable {s t : State} {x : Fin 67}

theorem State.hs_of_others (h : t.others x = s.others x) {n : Fin 48} (hn : tHs n ≠ x) : t.hs[n] = s.hs[n] := by
  have := congrFun (congrArg (fun o => o.1) h) n
  simpa only [State.others, if_neg hn, Option.some.injEq] using this

theorem State.vd_of_others (h : t.others x = s.others x) {n : Fin 16} (hn : tVd n ≠ x) : t.vd[n] = s.vd[n] := by
  have := congrFun (congrArg (fun o => o.2.1) h) n
  simpa only [State.others, if_neg hn, Option.some.injEq] using this

theorem State.ls_of_others (h : t.others x = s.others x) {k : Fin 3} (hk : tLs k ≠ x) : t.ls[k] = s.ls[k] := by
  have := congrFun (congrArg (fun o => o.2.2) h) k
  simpa only [State.others, if_neg hk, Option.some.injEq] using this

theorem State.inLimp_of_others (h : t.others x = s.others x) {y : Fin 67} (hy : y ≠ x) : t.inLimp y = s.inLimp y := by
  rcases target_cases y with ⟨n, rfl⟩ | ⟨n, rfl⟩ | ⟨k, rfl⟩
  · rw [State.inLimp_tHs, State.inLimp_tHs, State.hs_of_others h hy]
  · rw [State.inLimp_tVd, State.inLimp_tVd, State.vd_of_others h hy]
  · rw [State.inLimp_tLs, State.inLimp_tLs, State.ls_of_others h hy]

theorem State.slots_of_around (h : t.around x = s.around x) : t.adm.slots = s.adm.slots := congrArg (fun a => a.1) h

theorem State.inLimp_of_around (h : t.around x = s.around x) : t.inLimp x = s.inLimp x := congrArg (fun a => a.2.1) h

theorem State.others_of_around (h : t.around x = s.around x) : t.others x = s.others x := congrArg (fun a => a.2.2) h

/-- What touches no target leaves them all. -/
theorem onlyTouches.others {ps : List Part} (k : onlyTouches ps s t)
    (away : ([Part.hs, .vd, .ls].all fun p => decide (p ∉ ps)) = true) : t.others x = s.others x := by
  simp only [List.all_cons, List.all_nil, Bool.and_true, Bool.and_eq_true, decide_eq_true_eq] at away
  obtain ⟨hhs, hvd, hls⟩ := away
  have ehs : t.hs = s.hs := k.same .hs hhs
  have evd : t.vd = s.vd := k.same .vd hvd
  have els : t.ls = s.ls := k.same .ls hls
  simp only [State.others, ehs, evd, els]

theorem onlyTouches.inLimp {ps : List Part} (k : onlyTouches ps s t)
    (away : ([Part.hs, .vd, .ls].all fun p => decide (p ∉ ps)) = true) : t.inLimp x = s.inLimp x := by
  simp only [List.all_cons, List.all_nil, Bool.and_true, Bool.and_eq_true, decide_eq_true_eq] at away
  obtain ⟨hhs, hvd, hls⟩ := away
  have ehs : t.hs = s.hs := k.same .hs hhs
  have evd : t.vd = s.vd := k.same .vd hvd
  have els : t.ls = s.ls := k.same .ls hls
  simp only [State.inLimp, ehs, evd, els]

theorem onlyTouches.around {ps : List Part} (k : onlyTouches ps s t)
    (away : ([Part.hs, .vd, .ls, .adm].all fun p => decide (p ∉ ps)) = true) : t.around x = s.around x := by
  have haway : (([Part.hs, .vd, .ls].all fun p => decide (p ∉ ps)) = true) ∧ Part.adm ∉ ps := by
    simpa [and_assoc] using away
  have eadm : t.adm = s.adm := k.same .adm haway.2
  rw [State.around, State.around, k.inLimp haway.1, k.others haway.1, eadm]
end

/-! ### Operations of every target -/

section
variable (s : State) (x : Fin 67)

@[simp] theorem State.toAdm_around (m : AdmIn) : (s.toAdm m).around x = s.around x := rfl

@[simp] theorem State.emit_around (src code : Nat) (arg : W32) : (s.emit src code arg).around x = s.around x :=
  (s.emit_touch src code arg).around rfl

@[simp] theorem State.emitAdm_around (src code : Nat) (arg : W32) (m : AdmIn) :
    (s.emitAdm src code arg m).around x = s.around x := by
  unfold State.emitAdm State.onlyIf
  split <;> simp

@[simp] theorem State.capTrigger_around (t : Fin 67) (trg : Nat) : (s.capTrigger t trg).around x = s.around x :=
  (s.capTrigger_touch t trg).around rfl

@[simp] theorem State.zeroAbort_around (t : Fin 67) : (s.zeroAbort t).around x = s.around x :=
  (s.zeroAbort_touch t).around rfl

@[simp] theorem State.modDig_around (t : Fin 67) (f : Dig → Dig) : (s.modDig t f).around x = s.around x :=
  (s.modDig_touch t f).around rfl

@[simp] theorem State.modVg_around (g : Fin 4) (f : Vg → Vg) : (s.modVg g f).around x = s.around x :=
  (s.modVg_touch g f).around rfl

@[simp] theorem State.ite_around {c : Prop} [Decidable c] (t u : State) :
    (if c then t else u).around x = if c then t.around x else u.around x := apply_ite (State.around · x) c t u

/-- A change of one target leaves the others. -/
@[simp] theorem State.modHs_others (n : Fin 48) (f : Hs → Hs) : (s.modHs n f).others (tHs n) = s.others (tHs n) := by
  simp only [State.others, State.modHs_hs, State.modHs_vd, State.modHs_ls, Prod.mk.injEq, and_true]
  funext m
  split
  · rfl
  next h => rw [upd_get_ne _ _ _ _ (mt tHs_inj.2 h)]

@[simp] theorem State.modHs_around {n : Fin 48} {f : Hs → Hs} (hf : ∀ h, (f h).limp = h.limp) :
    (s.modHs n f).around (tHs n) = s.around (tHs n) := by
  rw [State.around, State.around, State.modHs_others, State.inLimp_tHs, State.inLimp_tHs, State.modHs_hs, upd_get, hf]
  rfl

/-- A change of one target leaves the others. -/
@[simp] theorem State.modVd_others (n : Fin 16) (f : Vd → Vd) : (s.modVd n f).others (tVd n) = s.others (tVd n) := by
  simp only [State.others, State.modVd_hs, State.modVd_vd, State.modVd_ls, Prod.mk.injEq, and_true, true_and]
  funext m
  split
  · rfl
  next h => rw [upd_get_ne _ _ _ _ (mt tVd_inj.2 h)]

@[simp] theorem State.modVd_around {n : Fin 16} {f : Vd → Vd} (hf : ∀ v, (f v).limp = v.limp) :
    (s.modVd n f).around (tVd n) = s.around (tVd n) := by
  rw [State.around, State.around, State.modVd_others, State.inLimp_tVd, State.inLimp_tVd, State.modVd_vd, upd_get, hf]
  rfl

/-- A change of one target leaves the others. -/
@[simp] theorem State.modLs_others (k : Fin 3) (f : Ls → Ls) : (s.modLs k f).others (tLs k) = s.others (tLs k) := by
  simp only [State.others, State.modLs_hs, State.modLs_vd, State.modLs_ls, Prod.mk.injEq, true_and]
  funext m
  split
  · rfl
  next h => rw [upd_get_ne _ _ _ _ (mt tLs_inj.2 h)]

@[simp] theorem State.modLs_around {k : Fin 3} {f : Ls → Ls} (hf : ∀ l, (f l).limp = l.limp) :
    (s.modLs k f).around (tLs k) = s.around (tLs k) := by
  rw [State.around, State.around, State.modLs_others, State.inLimp_tLs, State.inLimp_tLs, State.modLs_ls, upd_get, hf]
  rfl
end

/-! ### Channels -/

section
variable (s : State) (n : Fin 48)

@[simp] theorem State.hsEnter_around (st : HsSt) : (s.hsEnter n st).around (tHs n) = s.around (tHs n) := by
  simp [State.hsEnter]

@[simp] theorem State.hsRequest_around (prio : Nat) (kind : ReqKind) :
    (s.hsRequest n prio kind).around (tHs n) = s.around (tHs n) := by
  simp [State.hsRequest]

@[simp] theorem State.hsWithdraw_around : (s.hsWithdraw n).around (tHs n) = s.around (tHs n) := by
  simp [State.hsWithdraw, State.onlyIf]

@[simp] theorem State.hsSwitchOff_around (st : HsSt) (cause : Nat) :
    (s.hsSwitchOff n st cause).around (tHs n) = s.around (tHs n) := by
  simp [State.hsSwitchOff]

@[simp] theorem State.hsStop_around (to_ : HsSt) (cause : Nat) (same : Bool) :
    (s.hsStop n to_ cause same).1.around (tHs n) = s.around (tHs n) := by
  rcases s.hsStop_cases n to_ cause same with ⟨h, -⟩ | ⟨h, -⟩ | ⟨h, -⟩ | ⟨h, -⟩ | ⟨h, -⟩ | ⟨h, -⟩ <;> simp [h]

@[simp] theorem State.hsRise_around : (s.hsRise n).around (tHs n) = s.around (tHs n) := s.hsRequest_around n _ _

@[simp] theorem State.hsFall_around (same : Bool) : (s.hsFall n same).around (tHs n) = s.around (tHs n) := by
  simp [State.hsFall]

@[simp] theorem State.hsRouted_around (level same : Bool) :
    (s.hsRouted n level same).around (tHs n) = s.around (tHs n) := by
  simp [State.hsRouted]

@[simp] theorem State.hsOrphanOff_around : (s.hsOrphanOff n).around (tHs n) = s.around (tHs n) := by
  unfold State.hsOrphanOff
  dsimp only
  repeat' split
  all_goals simp
end

/-! ### Valves -/

section
variable (s : State) (n : Fin 16)

@[simp] theorem State.vdEmit_around (x : Fin 67) (code : Nat) (arg : W32) : (s.vdEmit n code arg).around x = s.around x :=
  s.emit_around x _ _ _

@[simp] theorem State.vdRes_around (r : Nat) : (s.vdRes n r).around (tVd n) = s.around (tVd n) := by simp [State.vdRes]

@[simp] theorem State.vdEnter_around (st : VdSt) : (s.vdEnter n st).around (tVd n) = s.around (tVd n) := by
  simp [State.vdEnter]

@[simp] theorem State.vdRelease_around : (s.vdRelease n).around (tVd n) = s.around (tVd n) := by simp [State.vdRelease]

@[simp] theorem State.vdWithdraw_around (st : VdSt) : (s.vdWithdraw n st).around (tVd n) = s.around (tVd n) := by
  simp [State.vdWithdraw]

@[simp] theorem State.vdOff_around (st : VdSt) : (s.vdOff n st).around (tVd n) = s.around (tVd n) := by
  simp [State.vdOff]

@[simp] theorem State.vdBusy_around (us : Nat) : (s.vdBusy n us).around (tVd n) = s.around (tVd n) := by
  simp [State.vdBusy]

@[simp] theorem State.vdPending_around : (s.vdPending n).around (tVd n) = s.around (tVd n) := by simp [State.vdPending]

@[simp] theorem State.vdStart_around (hold : Nat) (routed : Bool) :
    (s.vdStart n hold routed).around (tVd n) = s.around (tVd n) := by
  simp [State.vdStart]

@[simp] theorem State.vdMerge_around (hold : Nat) : (s.vdMerge n hold).around (tVd n) = s.around (tVd n) := by
  simp [State.vdMerge]

@[simp] theorem State.vdHold_around (hold : Nat) (routed : Bool) :
    (s.vdHold n hold routed).around (tVd n) = s.around (tVd n) := by
  simp [State.vdHold]

@[simp] theorem State.vdOnCmd_around (hold : Nat) (routed : Bool) :
    (s.vdOnCmd n hold routed).around (tVd n) = s.around (tVd n) := by
  unfold State.vdOnCmd
  split <;> simp

@[simp] theorem State.vdOffCmd_around (same : Bool) : (s.vdOffCmd n same).around (tVd n) = s.around (tVd n) := by
  unfold State.vdOffCmd
  dsimp only
  split <;> simp

@[simp] theorem State.vdFall_around (same : Bool) : (s.vdFall n same).around (tVd n) = s.around (tVd n) := by
  simp [State.vdFall]

@[simp] theorem State.vdRouted_around (level same : Bool) :
    (s.vdRouted n level same).around (tVd n) = s.around (tVd n) := by
  simp [State.vdRouted]

@[simp] theorem State.vdOrphanOff_around : (s.vdOrphanOff n).around (tVd n) = s.around (tVd n) := by
  simp [State.vdOrphanOff]
end

/-! ### Lamp strings -/

section
variable (s : State) (k : Fin 3)

@[simp] theorem State.lsEmit_around (x : Fin 67) (code : Nat) (arg : W32) : (s.lsEmit k code arg).around x = s.around x :=
  s.emit_around x _ _ _

@[simp] theorem State.lsRes_around (r : Nat) : (s.lsRes k r).around (tLs k) = s.around (tLs k) := by simp [State.lsRes]

@[simp] theorem State.lsEnter_around (st : LsSt) : (s.lsEnter k st).around (tLs k) = s.around (tLs k) := by
  simp [State.lsEnter]

@[simp] theorem State.lsMeasure_around : (s.lsMeasure k).around (tLs k) = s.around (tLs k) := by
  simp only [State.lsMeasure, State.modLs_around, implies_true]
  exact (s.draw_touch 16).around rfl

@[simp] theorem State.lsRelease_around : (s.lsRelease k).around (tLs k) = s.around (tLs k) := by simp [State.lsRelease]

@[simp] theorem State.lsRequest_around (prio : Nat) (kind : ReqKind) :
    (s.lsRequest k prio kind).around (tLs k) = s.around (tLs k) := by
  simp [State.lsRequest]

@[simp] theorem State.lsWithdraw_around (st : LsSt) : (s.lsWithdraw k st).around (tLs k) = s.around (tLs k) := by
  simp [State.lsWithdraw]

@[simp] theorem State.lsStop_around (st : LsSt) (cause : Nat) : (s.lsStop k st cause).around (tLs k) = s.around (tLs k) := by
  simp [State.lsStop]

@[simp] theorem State.lsOnCmd_around (routed : Bool) : (s.lsOnCmd k routed).around (tLs k) = s.around (tLs k) := by
  unfold State.lsOnCmd
  dsimp only
  split <;> simp

@[simp] theorem State.lsOffCmd_around (cause : Nat) (same : Bool) :
    (s.lsOffCmd k cause same).around (tLs k) = s.around (tLs k) := by
  unfold State.lsOffCmd
  dsimp only
  split <;> simp

@[simp] theorem State.lsFall_around (same : Bool) : (s.lsFall k same).around (tLs k) = s.around (tLs k) := by
  simp [State.lsFall]

@[simp] theorem State.lsRouted_around (level same : Bool) :
    (s.lsRouted k level same).around (tLs k) = s.around (tLs k) := by
  simp [State.lsRouted]

@[simp] theorem State.lsOrphanOff_around : (s.lsOrphanOff k).around (tLs k) = s.around (tLs k) := by
  simp [State.lsOrphanOff]
end

end Sys2Proof.Machine
/-! ## Direct inputs, the crossbar and the LIMP pad (R86, R318 to R321, R323 to R327) -/

namespace Sys2Proof.Machine

open Claims

/-! ### The operations of a target, target by target -/

theorem tVd_lt (n : Fin 16) : 48 + n.val < 64 := by omega

theorem tLs_ge (k : Fin 3) : ¬ 64 + k.val < 48 := by omega

section
variable (s : State)

theorem State.routeTo_tHs (n : Fin 48) (level same : Bool) :
    s.routeTo (tHs n) level same =
      if !(s.hs[n].limp || s.follows (tHs n)) || s.slotOwned (tHs n) then s else s.hsRouted n level same := by
  rw [State.routeTo, State.inLimp_tHs, dif_pos (show (tHs n).val < 48 from n.isLt)]
  rfl

theorem State.routeTo_tVd (n : Fin 16) (level same : Bool) :
    s.routeTo (tVd n) level same =
      if !(s.vd[n].limp || s.follows (tVd n)) || s.slotOwned (tVd n) then s else s.vdRouted n level same := by
  rw [State.routeTo, State.inLimp_tVd]
  simp [tVd, tVd_lt]

theorem State.routeTo_tLs (k : Fin 3) (level same : Bool) :
    s.routeTo (tLs k) level same =
      if !(s.ls[k].limp || s.follows (tLs k)) || s.slotOwned (tLs k) then s else s.lsRouted k level same := by
  rw [State.routeTo, State.inLimp_tLs]
  simp [tLs, tLs_ge]

/-- A routed level acts on its target alone. -/
theorem State.routeTo_around (x : Fin 67) (level same : Bool) : (s.routeTo x level same).around x = s.around x := by
  rcases target_cases x with ⟨n, rfl⟩ | ⟨n, rfl⟩ | ⟨k, rfl⟩
  · simp [State.routeTo_tHs]
  · simp [State.routeTo_tVd]
  · simp [State.routeTo_tLs]

/-- The state in which a target enters limp mode: a heater slot that owns it has been disabled (R321). -/
abbrev State.slotFreed (x : Fin 67) : State := if s.slotOwned x then s.slotsOff fun y => y.ch = x.val else s

theorem State.slotFreed_touch (x : Fin 67) : onlyTouches [.fab, .adm] s (s.slotFreed x) :=
  onlyTouches.ite (s.slotsOff_touch _) (onlyTouches.refl _ s)

theorem State.limpEnter_tHs (n : Fin 48) (src : Nat) (same : Bool) :
    s.limpEnter (tHs n) src same =
      (s.slotFreed (tHs n)).hsLimpEnter n src (s.routedLevel (tHs n)) same := by
  rw [State.limpEnter, dif_pos (show (tHs n).val < 48 from n.isLt)]
  rfl

theorem State.limpEnter_tVd (n : Fin 16) (src : Nat) (same : Bool) :
    s.limpEnter (tVd n) src same = s.vdLimpEnter n src (s.routedLevel (tVd n)) same := by
  simp [State.limpEnter, tVd, (tVd_lt n).not_ge]

theorem State.limpEnter_tLs (k : Fin 3) (src : Nat) (same : Bool) :
    s.limpEnter (tLs k) src same = s.lsLimpEnter k src (s.routedLevel (tLs k)) same := by
  simp [State.limpEnter, tLs, tLs_ge]

theorem State.limpLeave_tHs (n : Fin 48) : s.limpLeave (tHs n) = s.hsLimpExit n := by
  rw [State.limpLeave, dif_pos (show (tHs n).val < 48 from n.isLt)]
  rfl

theorem State.limpLeave_tVd (n : Fin 16) : s.limpLeave (tVd n) = s.vdLimpExit n := by
  simp [State.limpLeave, tVd, (tVd_lt n).not_ge]

theorem State.limpLeave_tLs (k : Fin 3) : s.limpLeave (tLs k) = s.lsLimpExit k := by
  simp [State.limpLeave, tLs, tLs_ge]

theorem State.routedRepeat_tHs (n : Fin 48) :
    s.routedRepeat (tHs n) =
      if s.hs[n].repeatOff && !s.routedLevel (tHs n) then (s.modHs n fun h => { h with repeatOff := false }).hsFall n false
      else s := by
  rw [State.routedRepeat, dif_pos (show (tHs n).val < 48 from n.isLt)]
  rfl

theorem State.routedRepeat_tVd (n : Fin 16) :
    s.routedRepeat (tVd n) =
      if s.vd[n].repeatOff && !s.routedLevel (tVd n) then (s.modVd n fun v => { v with repeatOff := false }).vdFall n false
      else s := by
  simp [State.routedRepeat, tVd, tVd_lt]

theorem State.routedRepeat_tLs (k : Fin 3) :
    s.routedRepeat (tLs k) =
      if s.ls[k].repeatOff && !s.routedLevel (tLs k) then (s.modLs k fun l => { l with repeatOff := false }).lsFall k false
      else s := by
  simp [State.routedRepeat, tLs, tLs_ge]

theorem State.routedRepeat_idle {x : Fin 67} (hlevel : s.routedLevel x = true) : s.routedRepeat x = s := by
  rcases target_cases x with ⟨n, rfl⟩ | ⟨n, rfl⟩ | ⟨k, rfl⟩
  · rw [State.routedRepeat_tHs, hlevel, Bool.not_true, Bool.and_false]
    rfl
  · rw [State.routedRepeat_tVd, hlevel, Bool.not_true, Bool.and_false]
    rfl
  · rw [State.routedRepeat_tLs, hlevel, Bool.not_true, Bool.and_false]
    rfl

theorem islOf_tHs (n : Fin 48) : islOf (tHs n).val = islHs n.val := islOf_hs n

theorem islOf_tVd (n : Fin 16) : islOf (tVd n).val = islVg (groupOf n) := by
  simp [islOf, tVd, tVd_lt, islVg, groupOf]

theorem islOf_tLs (k : Fin 3) : islOf (tLs k).val = islLs k := by
  simp [islOf, tLs, tLs_ge, islLs]
end

/-! ### Entry into limp mode and its end (R321, R326, R327) -/

section
variable (s : State)

theorem State.hsLimpEnter_at (n : Fin 48) (src : Nat) (level same : Bool) :
    (s.hsLimpEnter n src level same).others (tHs n) = s.others (tHs n) ∧
      (s.hsLimpEnter n src level same).inLimp (tHs n) = (s.hsUp n || s.inLimp (tHs n)) ∧
      (s.hsLimpEnter n src level same).adm.slots = s.adm.slots := by
  cases hup : s.hsUp n
  · rw [show s.hsLimpEnter n src level same = s from if_neg (by rw [hup]; decide), Bool.false_or]
    exact ⟨rfl, rfl, rfl⟩
  · have haround : (s.hsLimpEnter n src level same).around (tHs n) =
        (s.modHs n fun h => { h with limp := true, fallSeen := false }).around (tHs n) := by
      simp [State.hsLimpEnter, hup]
    refine ⟨(State.others_of_around haround).trans (s.modHs_others n _), (State.inLimp_of_around haround).trans ?_,
      (State.slots_of_around haround).trans rfl⟩
    rw [State.inLimp_tHs, State.modHs_hs, upd_get, Bool.true_or]

theorem State.vdLimpEnter_at (n : Fin 16) (src : Nat) (level same : Bool) :
    (s.vdLimpEnter n src level same).others (tVd n) = s.others (tVd n) ∧
      (s.vdLimpEnter n src level same).inLimp (tVd n) = (s.vgUp (groupOf n) || s.inLimp (tVd n)) ∧
      (s.vdLimpEnter n src level same).adm.slots = s.adm.slots := by
  cases hup : s.vgUp (groupOf n)
  · rw [show s.vdLimpEnter n src level same = s from if_neg (by rw [hup]; decide), Bool.false_or]
    exact ⟨rfl, rfl, rfl⟩
  · have haround : (s.vdLimpEnter n src level same).around (tVd n) =
        (s.modVd n fun v => { v with limp := true }).around (tVd n) := by
      simp [State.vdLimpEnter, hup]
    refine ⟨(State.others_of_around haround).trans (s.modVd_others n _), (State.inLimp_of_around haround).trans ?_,
      (State.slots_of_around haround).trans rfl⟩
    rw [State.inLimp_tVd, State.modVd_vd, upd_get, Bool.true_or]

theorem State.lsLimpEnter_at (k : Fin 3) (src : Nat) (level same : Bool) :
    (s.lsLimpEnter k src level same).others (tLs k) = s.others (tLs k) ∧
      (s.lsLimpEnter k src level same).inLimp (tLs k) = (s.lsUp k || s.inLimp (tLs k)) ∧
      (s.lsLimpEnter k src level same).adm.slots = s.adm.slots := by
  cases hup : s.lsUp k
  · rw [show s.lsLimpEnter k src level same = s from if_neg (by rw [hup]; decide), Bool.false_or]
    exact ⟨rfl, rfl, rfl⟩
  · have haround : (s.lsLimpEnter k src level same).around (tLs k) =
        (s.modLs k fun l => { l with limp := true }).around (tLs k) := by
      simp [State.lsLimpEnter, hup]
    refine ⟨(State.others_of_around haround).trans (s.modLs_others k _), (State.inLimp_of_around haround).trans ?_,
      (State.slots_of_around haround).trans rfl⟩
    rw [State.inLimp_tLs, State.modLs_ls, upd_get, Bool.true_or]

/-- A target's entry into limp mode concerns no other target, sets its limp flag if it has power, and changes no heater
slot beyond those that owned it. -/
theorem State.limpEnter_at (x : Fin 67) (src : Nat) (same : Bool) :
    (s.limpEnter x src same).others x = s.others x ∧
      (s.limpEnter x src same).inLimp x = (s.isUp (islOf x.val) || s.inLimp x) ∧
      ((s.limpEnter x src same).adm.slots = (s.slotFreed x).adm.slots ∨
        (s.limpEnter x src same).adm.slots = s.adm.slots) := by
  rcases target_cases x with ⟨n, rfl⟩ | ⟨n, rfl⟩ | ⟨k, rfl⟩
  · have hfreed := s.slotFreed_touch (tHs n)
    have hup : (s.slotFreed (tHs n)).hsUp n = s.isUp (islOf (tHs n).val) := by
      rw [islOf_tHs]
      exact hfreed.isUp_eq (by decide) _
    obtain ⟨hothers, hlimp, hslots⟩ := (s.slotFreed (tHs n)).hsLimpEnter_at n src (s.routedLevel (tHs n)) same
    rw [State.limpEnter_tHs, hothers, hlimp, hup, hfreed.others rfl, hfreed.inLimp rfl]
    exact ⟨rfl, rfl, .inl hslots⟩
  · rw [State.limpEnter_tVd, islOf_tVd]
    obtain ⟨hothers, hlimp, hslots⟩ := s.vdLimpEnter_at n src (s.routedLevel (tVd n)) same
    exact ⟨hothers, hlimp, .inr hslots⟩
  · rw [State.limpEnter_tLs, islOf_tLs]
    obtain ⟨hothers, hlimp, hslots⟩ := s.lsLimpEnter_at k src (s.routedLevel (tLs k)) same
    exact ⟨hothers, hlimp, .inr hslots⟩

theorem State.hsLimpExit_at (n : Fin 48) :
    (s.hsLimpExit n).others (tHs n) = s.others (tHs n) ∧
      (s.hsLimpExit n).inLimp (tHs n) = (!s.hsUp n && s.inLimp (tHs n)) := by
  unfold State.hsLimpExit
  split
  next h =>
    have hemit := s.modHs n (fun h => { h with limp := false }) |>.emit_touch
    obtain ⟨hup, -⟩ := Bool.and_eq_true_iff.1 h
    refine ⟨((hemit _ _ _).others rfl).trans (s.modHs_others n _), ((hemit _ _ _).inLimp rfl).trans ?_⟩
    rw [State.inLimp_tHs, State.modHs_hs, upd_get, hup]
    rfl
  next h =>
    refine ⟨rfl, ?_⟩
    rw [State.inLimp_tHs]
    cases hup : s.hsUp n <;> simp_all

theorem State.vdLimpExit_at (n : Fin 16) :
    (s.vdLimpExit n).others (tVd n) = s.others (tVd n) ∧
      (s.vdLimpExit n).inLimp (tVd n) = (!s.vgUp (groupOf n) && s.inLimp (tVd n)) := by
  unfold State.vdLimpExit
  split
  next h =>
    have hemit := s.modVd n (fun v => { v with limp := false }) |>.emit_touch
    obtain ⟨hup, -⟩ := Bool.and_eq_true_iff.1 h
    refine ⟨((hemit _ _ _).others rfl).trans (s.modVd_others n _), ((hemit _ _ _).inLimp rfl).trans ?_⟩
    rw [State.inLimp_tVd, State.modVd_vd, upd_get, hup]
    rfl
  next h =>
    refine ⟨rfl, ?_⟩
    rw [State.inLimp_tVd]
    cases hup : s.vgUp (groupOf n) <;> simp_all

theorem State.lsLimpExit_at (k : Fin 3) :
    (s.lsLimpExit k).others (tLs k) = s.others (tLs k) ∧
      (s.lsLimpExit k).inLimp (tLs k) = (!s.lsUp k && s.inLimp (tLs k)) := by
  unfold State.lsLimpExit
  split
  next h =>
    have hemit := s.modLs k (fun l => { l with limp := false }) |>.emit_touch
    obtain ⟨hup, -⟩ := Bool.and_eq_true_iff.1 h
    refine ⟨((hemit _ _ _).others rfl).trans (s.modLs_others k _), ((hemit _ _ _).inLimp rfl).trans ?_⟩
    rw [State.inLimp_tLs, State.modLs_ls, upd_get, hup]
    rfl
  next h =>
    refine ⟨rfl, ?_⟩
    rw [State.inLimp_tLs]
    cases hup : s.lsUp k <;> simp_all

/-- A target's end of limp mode concerns no other target, and clears its limp flag if it has power. -/
theorem State.limpLeave_at (x : Fin 67) :
    (s.limpLeave x).others x = s.others x ∧ (s.limpLeave x).inLimp x = (!s.isUp (islOf x.val) && s.inLimp x) := by
  rcases target_cases x with ⟨n, rfl⟩ | ⟨n, rfl⟩ | ⟨k, rfl⟩
  · rw [State.limpLeave_tHs, islOf_tHs]
    exact s.hsLimpExit_at n
  · rw [State.limpLeave_tVd, islOf_tVd]
    exact s.vdLimpExit_at n
  · rw [State.limpLeave_tLs, islOf_tLs]
    exact s.lsLimpExit_at k
end

/-! ### Loops over the targets -/

section
variable {op : Fin 67 → State → State} {ps : List Part} (htouch : ∀ x s, onlyTouches ps s (op x s))
  (hothers : ∀ x s, (op x s).others x = s.others x)
include htouch hothers

/-- In a loop over the targets whose turns concern their own target alone, each turn meets its channel as it was. -/
theorem targetLoop_hs (s : State) (n : Fin 48) :
    ∃ y : State, onlyTouches ps s y ∧ y.hs[n] = s.hs[n] ∧ (forFin 67 op s).hs[n] = (op (tHs n) y).hs[n] :=
  forFin_at (fun s => s.hs[n]) htouch (fun x s hx => State.hs_of_others (hothers x s) (Ne.symm hx)) s

theorem targetLoop_inLimp (s : State) (x : Fin 67) :
    ∃ y : State, onlyTouches ps s y ∧ y.inLimp x = s.inLimp x ∧ (forFin 67 op s).inLimp x = (op x y).inLimp x :=
  forFin_at (fun s => s.inLimp x) htouch (fun y s hy => State.inLimp_of_others (hothers y s) (Ne.symm hy)) s
end

/-! ### A fall of the routed level (R319, R320) -/

section
variable (s : State)

/-- A command of another cycle than the channel's last event, or after another event. -/
theorem State.not_hsMarked_of {s y : State} {n : Fin 48} {same : Bool} {m : Mark} (hhs : y.hs[n] = s.hs[n])
    (hnow : y.now = s.now) (h : same = false ∨ s.hs[n].markAt ≠ s.now ∨ s.hs[n].mark ≠ m) : ¬ y.hsMarked n same m := by
  rintro ⟨hsame, hmarkAt, hmark⟩
  rw [hhs] at hmarkAt hmark
  rw [hnow] at hmarkAt
  rcases h with h | h | h
  · exact nomatch h.symm.trans hsame
  · exact h hmarkAt
  · exact h hmark

/-- A fall outside the cycle of a grant: the channel is not on, and repeats nothing. -/
theorem State.hsFall_off {n : Fin 48} {same : Bool} (hgrant : ¬ s.hsMarked n same .grantOn) :
    hsOn (s.hsFall n same).hs[n].st = false ∧ (s.hsFall n same).hs[n].st ≠ .pending ∧
      (s.hsFall n same).hs[n].repeatOff = false := by
  obtain ⟨hres, hon, hpend⟩ := State.hsStop_off 8 hgrant
  obtain ⟨hat, -⟩ := changed_at ((s.hsStop n .off 8 same).1.modHs_hs n fun h =>
    { h with
      cmdRes := (s.hsStop n .off 8 same).2, repeatOff := (s.hsStop n .off 8 same).2 = 1, fallSeen := h.st == .latched })
  change (s.hsFall n same).hs[n] = _ at hat
  rw [hat]
  exact ⟨hon, hpend, decide_eq_false hres⟩

/-- A fall in the cycle of the grant comes too late: the channel stays on and keeps the OFF to repeat. -/
theorem State.hsFall_late {n : Fin 48} {same : Bool} (hgrant : s.hsMarked n same .grantOn)
    (hon : hsOn s.hs[n].st = true) :
    (s.hsFall n same).hs[n] = { s.hs[n] with cmdRes := 1, repeatOff := true, fallSeen := false } := by
  have hlatched : (s.hs[n].st == .latched) = false := by
    rcases (hsOn_iff _).1 hon with h | h <;> rw [h] <;> rfl
  rw [State.hsFall, State.hsStop_of_grantOn hgrant hon, State.modHs_hs, upd_get, hlatched]
  rfl

theorem State.vdEnter_vd (n : Fin 16) (st : VdSt) : (s.vdEnter n st).vd = upd s.vd n fun v => { v with st := st } := rfl

theorem State.vdWithdraw_st (n : Fin 16) (st : VdSt) : (s.vdWithdraw n st).vd[n].st = st := by
  rw [State.vdWithdraw, State.vdEnter_vd, upd_get]

theorem State.vdOff_st (n : Fin 16) (st : VdSt) : (s.vdOff n st).vd[n].st = st := by
  change ((State.vdRelease _ n).vdEnter n st).vd[n].st = st
  rw [State.vdEnter_vd, upd_get]

theorem State.vdRes_vd (n : Fin 16) (r : Nat) : (s.vdRes n r).vd = upd s.vd n fun v => { v with cmdRes := r } := rfl

/-- An OFF of another cycle than the valve's last event is not too late, and leaves the valve neither on nor PENDING. -/
theorem State.vdOffCmd_off (n : Fin 16) :
    vdOn (s.vdOffCmd n false).vd[n].st = false ∧ (s.vdOffCmd n false).vd[n].st ≠ .pending ∧
      (s.vdOffCmd n false).vd[n].cmdRes ≠ 1 := by
  unfold State.vdOffCmd
  cases hst : s.vd[n].st <;>
    simp [-Fin.getElem_fin, State.vdRes_vd, State.vdEnter_vd, upd_get, State.vdWithdraw_st, State.vdOff_st, hst, vdOn]

/-- A fall of another cycle than the valve's last event: the valve is neither on nor PENDING, and repeats nothing. -/
theorem State.vdFall_off (n : Fin 16) :
    vdOn (s.vdFall n false).vd[n].st = false ∧ (s.vdFall n false).vd[n].st ≠ .pending ∧
      (s.vdFall n false).vd[n].repeatOff = false := by
  obtain ⟨hon, hpend, hres⟩ := s.vdOffCmd_off n
  rw [State.vdFall, State.modVd_vd, upd_get]
  exact ⟨hon, hpend, decide_eq_false hres⟩

theorem State.lsEnter_ls (k : Fin 3) (st : LsSt) : (s.lsEnter k st).ls = upd s.ls k fun l => { l with st := st } := rfl

theorem State.lsRes_ls (k : Fin 3) (r : Nat) : (s.lsRes k r).ls = upd s.ls k fun l => { l with cmdRes := r } := rfl

theorem State.lsWithdraw_st (k : Fin 3) (st : LsSt) : (s.lsWithdraw k st).ls[k].st = st := by
  rw [State.lsWithdraw, State.lsEnter_ls, upd_get]

theorem State.lsStop_st (k : Fin 3) (st : LsSt) (cause : Nat) : (s.lsStop k st cause).ls[k].st = st := by
  change ((State.lsRelease _ k).lsEnter k st).ls[k].st = st
  rw [State.lsEnter_ls, upd_get]

/-- An OFF of another cycle than the string's last event is not too late, and leaves the string neither on nor PENDING. -/
theorem State.lsOffCmd_off (k : Fin 3) (cause : Nat) :
    lsOn (s.lsOffCmd k cause false).ls[k].st = false ∧ (s.lsOffCmd k cause false).ls[k].st ≠ .pending ∧
      (s.lsOffCmd k cause false).ls[k].cmdRes ≠ 1 := by
  unfold State.lsOffCmd
  cases hst : s.ls[k].st <;>
    simp [-Fin.getElem_fin, State.lsRes_ls, State.lsEnter_ls, upd_get, State.lsWithdraw_st, State.lsStop_st, hst, lsOn]

/-- A fall of another cycle than the string's last event: the string is neither on nor PENDING, and repeats nothing. -/
theorem State.lsFall_off (k : Fin 3) :
    lsOn (s.lsFall k false).ls[k].st = false ∧ (s.lsFall k false).ls[k].st ≠ .pending ∧
      (s.lsFall k false).ls[k].repeatOff = false := by
  obtain ⟨hon, hpend, hres⟩ := s.lsOffCmd_off k 8
  rw [State.lsFall, State.modLs_ls, upd_get]
  exact ⟨hon, hpend, decide_eq_false hres⟩
end

/-! ### An OFF repeated (R320) -/

section
variable (s : State)

theorem State.routedRepeat_hs {n : Fin 48} (hrepeat : s.hs[n].repeatOff = true) (hlow : s.routedLevel (tHs n) = false) :
    hsOn (s.routedRepeat (tHs n)).hs[n].st = false ∧ (s.routedRepeat (tHs n)).hs[n].st ≠ .pending ∧
      (s.routedRepeat (tHs n)).hs[n].repeatOff = false ∧ onlyAt n s.hs (s.routedRepeat (tHs n)).hs ∧
      (s.routedRepeat (tHs n)).vd = s.vd ∧ (s.routedRepeat (tHs n)).ls = s.ls ∧
      onlyTouches [.fab, .hs, .dig, .vg, .vd, .ls, .adm] s (s.routedRepeat (tHs n)) := by
  have hact : s.routedRepeat (tHs n) = (s.modHs n fun h => { h with repeatOff := false }).hsFall n false := by
    rw [State.routedRepeat_tHs, hrepeat, hlow]
    rfl
  obtain ⟨hon, hpend, hcleared⟩ := State.hsFall_off (s.modHs n fun h => { h with repeatOff := false })
    (State.hsMarked_false _ n .grantOn)
  have haround := (s.modHs n fun h => { h with repeatOff := false }).hsFall_around n false
  have htouch := ((s.modHs_touch n fun h => { h with repeatOff := false }).mono (by decide)).step
    (State.hsFall_touch _ n false)
  have hothers := (State.others_of_around haround).trans (s.modHs_others n _)
  rw [← hact] at hon hpend hcleared hothers htouch
  exact ⟨hon, hpend, hcleared, fun m hm => State.hs_of_others hothers (mt tHs_inj.1 hm), htouch.same .vd (by decide),
    htouch.same .ls (by decide), htouch.mono (by decide)⟩

theorem State.routedRepeat_vd {n : Fin 16} (hrepeat : s.vd[n].repeatOff = true) (hlow : s.routedLevel (tVd n) = false) :
    vdOn (s.routedRepeat (tVd n)).vd[n].st = false ∧ (s.routedRepeat (tVd n)).vd[n].st ≠ .pending ∧
      (s.routedRepeat (tVd n)).vd[n].repeatOff = false ∧ onlyAt n s.vd (s.routedRepeat (tVd n)).vd ∧
      (s.routedRepeat (tVd n)).hs = s.hs ∧ (s.routedRepeat (tVd n)).ls = s.ls ∧
      onlyTouches [.fab, .hs, .dig, .vg, .vd, .ls, .adm] s (s.routedRepeat (tVd n)) := by
  have hact : s.routedRepeat (tVd n) = (s.modVd n fun v => { v with repeatOff := false }).vdFall n false := by
    rw [State.routedRepeat_tVd, hrepeat, hlow]
    rfl
  obtain ⟨hon, hpend, hcleared⟩ := (s.modVd n fun v => { v with repeatOff := false }).vdFall_off n
  have haround := (s.modVd n fun v => { v with repeatOff := false }).vdFall_around n false
  have htouch := ((s.modVd_touch n fun v => { v with repeatOff := false }).mono (by decide)).step
    (State.vdFall_touch _ n false)
  have hothers := (State.others_of_around haround).trans (s.modVd_others n _)
  rw [← hact] at hon hpend hcleared hothers htouch
  exact ⟨hon, hpend, hcleared, fun m hm => State.vd_of_others hothers (mt tVd_inj.1 hm), htouch.same .hs (by decide),
    htouch.same .ls (by decide), htouch.mono (by decide)⟩

theorem State.routedRepeat_ls {k : Fin 3} (hrepeat : s.ls[k].repeatOff = true) (hlow : s.routedLevel (tLs k) = false) :
    lsOn (s.routedRepeat (tLs k)).ls[k].st = false ∧ (s.routedRepeat (tLs k)).ls[k].st ≠ .pending ∧
      (s.routedRepeat (tLs k)).ls[k].repeatOff = false ∧ onlyAt k s.ls (s.routedRepeat (tLs k)).ls ∧
      (s.routedRepeat (tLs k)).hs = s.hs ∧ (s.routedRepeat (tLs k)).vd = s.vd ∧
      onlyTouches [.fab, .hs, .dig, .vg, .vd, .ls, .adm] s (s.routedRepeat (tLs k)) := by
  have hact : s.routedRepeat (tLs k) = (s.modLs k fun l => { l with repeatOff := false }).lsFall k false := by
    rw [State.routedRepeat_tLs, hrepeat, hlow]
    rfl
  obtain ⟨hon, hpend, hcleared⟩ := (s.modLs k fun l => { l with repeatOff := false }).lsFall_off k
  have haround := (s.modLs k fun l => { l with repeatOff := false }).lsFall_around k false
  have htouch := ((s.modLs_touch k fun l => { l with repeatOff := false }).mono (by decide)).step
    (State.lsFall_touch _ k false)
  have hothers := (State.others_of_around haround).trans (s.modLs_others k _)
  rw [← hact] at hon hpend hcleared hothers htouch
  exact ⟨hon, hpend, hcleared, fun m hm => State.ls_of_others hothers (mt tLs_inj.1 hm), htouch.same .hs (by decide),
    htouch.same .vd (by decide), htouch.mono (by decide)⟩
end

/-! ### A direct input changes (R318 to R321) -/

section
variable (s : State)

theorem State.wakeReq_stopped (src : Nat) : (s.wakeReq src).pwr.stopped = s.pwr.stopped := by
  unfold State.wakeReq
  dsimp only
  repeat' split
  all_goals rfl

/-- The level of the input as it is stored and reported, before it is routed. -/
abbrev State.dinStored (i : Fin 8) (level : Bool) : State :=
  State.onlyIf
    ((s.modInp fun p =>
      { p with din := upd p.din i fun _ => level, dinChg := upd p.dinChg i fun _ => true }).emit 0 0x31
        (pack [(0, 3, i.val), (3, 1, b2n level)]))
    (bit s.inp.dinCfg (8 + i.val)) fun s => s.wakeReq 2

/-- The turn of target `x` when input `i` has changed. -/
abbrev State.dinTurn (i : Fin 8) (same : Bool) (x : Fin 67) : State :=
  if s.mapDin x = i then s.routeTo x (s.routedLevel x) same else s

theorem State.dinChange_acts {i : Fin 8} {level : Bool} {half : Nat} (same : Bool) (hup : s.isUp 0 = true)
    (hruns : s.tmbRuns = true) (hlevel : s.inp.din[i] = !level) (hhalf : max 1 (fld s.inp.dinCfg 0 8) ≤ half) :
    s.dinChange i level half same = forFin 67 (fun x s => s.dinTurn i same x) (s.dinStored i level) := by
  have hne : (s.inp.din[i] != level) = true := by rw [hlevel]; cases level <;> rfl
  rw [State.dinChange, if_pos]
  simp only [hup, hruns, hne, hhalf, decide_true, Bool.and_self]

theorem State.dinChange_idle {i : Fin 8} {level : Bool} {half : Nat} (same : Bool)
    (h : s.inp.din[i] = level ∨ half < max 1 (fld s.inp.dinCfg 0 8)) : s.dinChange i level half same = s := by
  refine if_neg fun hacts => ?_
  simp only [Bool.and_eq_true, decide_eq_true_eq, bne_iff_ne] at hacts
  obtain ⟨⟨-, hne⟩, hhalf⟩ := hacts
  rcases h with h | h
  · exact hne h
  · omega

theorem State.dinStored_touch (i : Fin 8) (level : Bool) : onlyTouches [.fab, .inp, .pwr] s (s.dinStored i level) :=
  onlyTouches.onlyIf (((s.modInp_touch _).mono (by decide)).trans (State.emit_touch ..) (by decide)) fun x =>
    (x.wakeReq_touch 2).mono (by decide)

theorem State.dinStored_inp (i : Fin 8) (level : Bool) :
    (s.dinStored i level).inp =
      { s.inp with din := upd s.inp.din i fun _ => level, dinChg := upd s.inp.dinChg i fun _ => true } := by
  unfold State.dinStored State.onlyIf
  split
  · exact (State.wakeReq_touch _ 2).same .inp (by decide)
  · rfl

theorem State.dinStored_read {i j : Fin 8} (level : Bool) (hj : j = i) : (s.dinStored i level).inp.din[j] = level := by
  subst hj
  rw [State.dinStored_inp]
  exact upd_get ..

theorem State.dinStored_stopped (i : Fin 8) (level : Bool) : (s.dinStored i level).pwr.stopped = s.pwr.stopped := by
  unfold State.dinStored State.onlyIf
  split
  · exact State.wakeReq_stopped _ 2
  · rfl

theorem State.dinTurn_around (i : Fin 8) (same : Bool) (x : Fin 67) : (s.dinTurn i same x).around x = s.around x := by
  unfold State.dinTurn
  split
  · exact s.routeTo_around x _ _
  · rfl

theorem State.dinTurn_touch (i : Fin 8) (same : Bool) (x : Fin 67) :
    onlyTouches [.fab, .hs, .dig, .vg, .vd, .ls, .adm, .free] s (s.dinTurn i same x) :=
  onlyTouches.ite (s.routeTo_touch x _ _) (onlyTouches.refl _ s)

/-- Each channel's turn meets the channel, the map, the heater slots and the pad groups as they were. -/
theorem State.dinLoop_at (i : Fin 8) (level same : Bool) (n : Fin 48) :
    ∃ y : State, onlyTouches [.fab, .hs, .dig, .vg, .vd, .ls, .adm, .free] (s.dinStored i level) y ∧ y.hs[n] = s.hs[n] ∧
      y.adm.slots = s.adm.slots ∧
      (forFin 67 (fun x s => s.dinTurn i same x) (s.dinStored i level)).hs[n] = (y.dinTurn i same (tHs n)).hs[n] := by
  have hstored := s.dinStored_touch i level
  obtain ⟨y, hy, hview, hloop⟩ := forFin_at (i := tHs n) (fun s => (s.hs[n], s.adm.slots))
    (fun x s => s.dinTurn_touch i same x)
    (fun x s hx => Prod.ext (State.hs_of_others (State.others_of_around (s.dinTurn_around i same x)) (Ne.symm hx))
      (State.slots_of_around (s.dinTurn_around i same x))) (s.dinStored i level)
  simp only [Prod.mk.injEq] at hview hloop
  refine ⟨y, hy, hview.1.trans ?_, hview.2.trans ?_, hloop.1⟩
  · rw [hstored.same .hs (by decide)]
  · rw [hstored.same .adm (by decide)]

theorem State.slotOwned_congr {s t : State} (hslots : t.adm.slots = s.adm.slots) (hup : t.isUp 2 = s.isUp 2) (x : Fin 67) :
    t.slotOwned x = s.slotOwned x := by
  simp only [State.slotOwned, Adm.ownerOf, hslots, hup]

/-- The channel is reached by the change of input `i`. -/
abbrev State.dinReaches (i : Fin 8) (n : Fin 48) : Prop :=
  s.mapDin (tHs n) = i ∧ (s.hs[n].limp = true ∨ s.follows (tHs n) = true) ∧ s.slotOwned (tHs n) = false

/-- What a change of input `i` makes of a channel: its routed level acts where the channel is reached. -/
theorem State.dinLoop_hs (i : Fin 8) (level same : Bool) (n : Fin 48) :
    ∃ y : State, y.hs[n] = s.hs[n] ∧ y.now = s.now ∧ y.hsUp n = s.hsUp n ∧ y.isStopped 8 = s.isStopped 8 ∧
      (forFin 67 (fun x s => s.dinTurn i same x) (s.dinStored i level)).hs[n] =
        if s.dinReaches i n then (y.hsRouted n (level != bit (s.mapByte (tHs n)) 4) same).hs[n] else s.hs[n] := by
  obtain ⟨y, hy, hhs, hslots, hloop⟩ := s.dinLoop_at i level same n
  have hstored := s.dinStored_touch i level
  have hup (j : Nat) : y.isUp j = s.isUp j := (hy.isUp_eq (by decide) j).trans (hstored.isUp_eq (by decide) j)
  have hstop : y.isStopped 8 = s.isStopped 8 := by
    rw [State.isStopped, hy.same .pwr (by decide), s.dinStored_stopped, State.isStopped]
  have hinp : y.inp = _ := (hy.same .inp (by decide)).trans (s.dinStored_inp i level)
  have hdin : y.mapDin (tHs n) = s.mapDin (tHs n) := by simp only [State.mapDin, State.mapByte, hinp]
  have hfollows : y.follows (tHs n) = s.follows (tHs n) := by simp only [State.follows, hinp]
  have howned := State.slotOwned_congr hslots (hup 2) (tHs n)
  refine ⟨y, hhs, (hy.now_eq (by decide)).trans (hstored.now_eq (by decide)), hup _, hstop, hloop.trans ?_⟩
  rw [State.dinTurn, hdin]
  by_cases hi : s.mapDin (tHs n) = i
  · have hlevel : y.routedLevel (tHs n) = (level != bit (s.mapByte (tHs n)) 4) := by
      rw [State.routedLevel, hy.same .inp (by decide), s.dinStored_read level (hdin.trans hi), State.mapByte, hinp,
        State.mapByte]
    rw [if_pos hi, State.routeTo_tHs, hhs, hfollows, howned, hlevel]
    by_cases hreach : s.dinReaches i n
    · obtain ⟨-, hfollow, howner⟩ := id hreach
      rw [if_pos hreach, if_neg]
      rcases hfollow with h | h <;> simp [-Fin.getElem_fin, h, howner]
    · rw [if_neg hreach, if_pos, hhs]
      simpa [-Fin.getElem_fin, State.dinReaches, hi, imp_iff_not_or, not_or] using hreach
  · rw [if_neg hi, if_neg fun h => hi h.1, hhs]

theorem State.hsRouted_low {n : Fin 48} (same : Bool) (hup : s.hsUp n = true) (hstop : s.isStopped 8 = false) :
    s.hsRouted n false same = s.hsFall n same := by
  simp [State.hsRouted, hup, hstop]
end

/-! ### The LIMP pad (R323 to R327) -/

section
variable (s : State)

/-- The limp sources as they are stored and the source that made ACTIVE rise, before the targets enter limp mode. -/
abbrev State.limpTold (src : Nat) (f : Inp → Inp) : State :=
  ((s.modInp f).modInp fun p => { p with limpSrc := src }).emit 0 0x32 (pack [(0, 2, src)])

/-- The turn of target `x` when ACTIVE rises. -/
abbrev State.limpTurn (src : Nat) (same : Bool) (x : Fin 67) : State :=
  if s.mapSel x then s.limpEnter x src same else s

theorem State.limpTurn_touch (src : Nat) (same : Bool) (x : Fin 67) :
    onlyTouches [.fab, .hs, .dig, .vg, .vd, .ls, .adm, .free] s (s.limpTurn src same x) :=
  onlyTouches.ite (s.limpEnter_touch x src same) (onlyTouches.refl _ s)

theorem State.limpTurn_others (src : Nat) (same : Bool) (x : Fin 67) :
    (s.limpTurn src same x).others x = s.others x := by
  unfold State.limpTurn
  split
  · exact (s.limpEnter_at x src same).1
  · rfl

theorem State.limpSources_rises {src : Nat} (same : Bool) {f : Inp → Inp} (hbefore : s.inp.active = false)
    (hafter : (f s.inp).active = true) :
    s.limpSources src same f = forFin 67 (fun x s => s.limpTurn src same x) (s.limpTold src f) := by
  rw [State.limpSources, if_pos]
  rw [hbefore, State.modInp_inp, hafter]
  rfl

theorem State.limpSources_falls (src : Nat) (same : Bool) {f : Inp → Inp} (hbefore : s.inp.active = true)
    (hafter : (f s.inp).active = false) :
    s.limpSources src same f = forFin 67 (fun x s => s.limpLeave x) ((s.modInp f).emit 0 0x33 0) := by
  rw [State.limpSources, if_neg, if_pos]
  · rw [hbefore, State.modInp_inp, hafter]
    rfl
  · rw [hbefore, Bool.not_true, Bool.false_and]
    decide

theorem State.limpSources_stays (src : Nat) (same : Bool) {f : Inp → Inp} (h : (f s.inp).active = s.inp.active) :
    s.limpSources src same f = s.modInp f := by
  rw [State.limpSources, if_neg, if_neg] <;> rw [State.modInp_inp, h] <;> cases s.inp.active <;> decide

theorem State.limpPad_acts {level : Bool} {ms : Nat} (same : Bool) (hup : s.isUp 0 = true) (hruns : s.tmbRuns = true)
    (hpad : s.inp.pad = !level) (hms : max 1 (fld s.inp.limpCfg 0 8) ≤ ms) :
    s.limpPad level ms same =
      (s.limpSources 0 same fun p => { p with pad := level }).onlyIf (level && bit s.inp.limpCfg 8) fun s =>
        s.wakeReq 3 := by
  have hne : (s.inp.pad != level) = true := by rw [hpad]; cases level <;> rfl
  rw [State.limpPad, if_pos]
  simp only [hup, hruns, hne, hms, decide_true, Bool.and_self]

theorem State.limpPad_idle {level : Bool} {ms : Nat} (same : Bool)
    (h : s.inp.pad = level ∨ ms < max 1 (fld s.inp.limpCfg 0 8)) : s.limpPad level ms same = s := by
  refine if_neg fun hacts => ?_
  simp only [Bool.and_eq_true, decide_eq_true_eq, bne_iff_ne] at hacts
  obtain ⟨⟨-, hne⟩, hms⟩ := hacts
  rcases h with h | h
  · exact hne h
  · omega

/-- The pad's wake request leaves everything but the power manager. -/
theorem State.limpWake_touch (c : Bool) : onlyTouches [.pwr] s (s.onlyIf c fun s => s.wakeReq 3) :=
  onlyTouches.onlyIf (onlyTouches.refl _ s) fun x => x.wakeReq_touch 3

/-- The channel of a turn that enters limp mode. -/
theorem State.limpTurn_tHs {n : Fin 48} (src : Nat) (same : Bool) (hsel : s.mapSel (tHs n) = true) :
    s.limpTurn src same (tHs n) = (s.slotFreed (tHs n)).hsLimpEnter n src (s.routedLevel (tHs n)) same := by
  rw [State.limpTurn, if_pos hsel, State.limpEnter_tHs]

theorem State.limpTold_touch (src : Nat) (f : Inp → Inp) : onlyTouches [.fab, .inp] s (s.limpTold src f) :=
  (((s.modInp_touch f).mono (by decide)).trans (State.modInp_touch ..) (by decide)).trans (State.emit_touch ..)
    (by decide)

section
variable {src : Nat} {same : Bool} {f : Inp → Inp} (hlmap : (f s.inp).lmap = s.inp.lmap) (hdin : (f s.inp).din = s.inp.din)
include hlmap

/-- A state of the loop has the limp map that the loop began with. -/
theorem State.limpLoop_mapSel {y : State}
    (hy : onlyTouches [.fab, .hs, .dig, .vg, .vd, .ls, .adm, .free] (s.limpTold src f) y) (x : Fin 67) : y.mapSel x = s.mapSel x := by
  have hinp : y.inp = (s.limpTold src f).inp := hy.same .inp (by decide)
  have hmap : y.inp.lmap = s.inp.lmap := (congrArg Inp.lmap hinp).trans hlmap
  rw [State.mapSel, State.mapByte, hmap]
  rfl

/-- When ACTIVE rises the mapped targets with power are in limp mode, and no other flag changes (R326). -/
theorem State.limpLoop_inLimp (x : Fin 67) :
    (forFin 67 (fun x s => s.limpTurn src same x) (s.limpTold src f)).inLimp x =
      (s.mapSel x && s.isUp (islOf x.val) || s.inLimp x) := by
  have htold := s.limpTold_touch src f
  obtain ⟨y, hy, hlimp, hloop⟩ := targetLoop_inLimp (fun x s => s.limpTurn_touch src same x)
    (fun x s => s.limpTurn_others src same x) (s.limpTold src f) x
  rw [hloop, State.limpTurn, s.limpLoop_mapSel hlmap hy]
  cases hsel : s.mapSel x
  · rw [if_neg (by decide), hlimp, htold.inLimp rfl]
    rfl
  · rw [if_pos rfl, (y.limpEnter_at x src same).2.1, hlimp, htold.inLimp rfl, hy.isUp_eq (by decide),
      htold.isUp_eq (by decide)]
    rfl

theorem State.limpLoop_unmapped {n : Fin 48} (hsel : s.mapSel (tHs n) = false) :
    (forFin 67 (fun x s => s.limpTurn src same x) (s.limpTold src f)).hs[n] = s.hs[n] := by
  obtain ⟨y, hy, hhs, hloop⟩ := targetLoop_hs (fun x s => s.limpTurn_touch src same x)
    (fun x s => s.limpTurn_others src same x) (s.limpTold src f) n
  rw [hloop, State.limpTurn, s.limpLoop_mapSel hlmap hy, hsel, if_neg (by decide), hhs]
  rfl

include hdin

theorem State.limpLoop_level {y : State}
    (hy : onlyTouches [.fab, .hs, .dig, .vg, .vd, .ls, .adm, .free] (s.limpTold src f) y) (x : Fin 67) : y.routedLevel x = s.routedLevel x := by
  have hinp : y.inp = (s.limpTold src f).inp := hy.same .inp (by decide)
  have hmap : y.inp.lmap = s.inp.lmap := (congrArg Inp.lmap hinp).trans hlmap
  have hlevels : y.inp.din = s.inp.din := (congrArg Inp.din hinp).trans hdin
  simp only [State.routedLevel, State.mapDin, State.mapByte, hmap, hlevels]
end

/-- The channel in limp mode, before it acts on its level: a DISABLED one is OFF (R85). -/
abbrev State.hsLimpBegun (n : Fin 48) (src : Nat) : State :=
  let s1 := (s.modHs n fun h => { h with limp := true, fallSeen := false }).emit (islHs n) 0x0A (pack [(0, 2, src)])
  if s1.hs[n].st == .disabled then (s1.modHs n fun h => { h with ctl := h.ctl ||| 1 }).hsEnter n .off else s1

theorem State.hsLimpBegun_marked (n : Fin 48) (src : Nat) (same : Bool) (m : Mark) :
    (s.hsLimpBegun n src).hsMarked n same m ↔ s.hsMarked n same m := by
  have hbegun : ∃ f : Hs → Hs, (s.hsLimpBegun n src).hs = upd s.hs n f ∧ (f s.hs[n]).mark = s.hs[n].mark ∧
      (f s.hs[n]).markAt = s.hs[n].markAt := by
    unfold State.hsLimpBegun
    dsimp only
    split
    · simp only [State.hsEnter_hs, State.modHs_hs, State.emit_hs, upd_upd]
      exact ⟨_, rfl, rfl, rfl⟩
    · simp only [State.emit_hs, State.modHs_hs]
      exact ⟨_, rfl, rfl, rfl⟩
  have hnow : (s.hsLimpBegun n src).now = s.now := by
    unfold State.hsLimpBegun
    dsimp only
    split <;> rfl
  obtain ⟨f, hf, hmark, hmarkAt⟩ := hbegun
  rw [State.hsMarked, State.hsMarked, hf, upd_get, hmark, hmarkAt, hnow]

/-- A channel that enters limp mode with its level low, outside the cycle of a grant, is not on (R326). -/
theorem State.hsLimpEnter_low {n : Fin 48} (src : Nat) {same : Bool} (hup : s.hsUp n = true)
    (hgrant : ¬ s.hsMarked n same .grantOn) : hsOn (s.hsLimpEnter n src false same).hs[n].st = false := by
  have hfall : s.hsLimpEnter n src false same = (s.hsLimpBegun n src).hsFall n same := if_pos hup
  rw [hfall]
  exact (State.hsFall_off _ (mt (s.hsLimpBegun_marked n src same _).1 hgrant)).1

/-- When ACTIVE rises a mapped channel with its level low, outside the cycle of a grant, is not on (R326). -/
theorem State.limpLoop_low {src : Nat} {same : Bool} {f : Inp → Inp} (hlmap : (f s.inp).lmap = s.inp.lmap)
    (hdin : (f s.inp).din = s.inp.din) {n : Fin 48} (hsel : s.mapSel (tHs n) = true) (hup : s.hsUp n = true)
    (hlow : s.routedLevel (tHs n) = false) (hgrant : ¬ s.hsMarked n same .grantOn) :
    hsOn (forFin 67 (fun x s => s.limpTurn src same x) (s.limpTold src f)).hs[n].st = false := by
  have htold := s.limpTold_touch src f
  obtain ⟨y, hy, hhs, hloop⟩ := targetLoop_hs (fun x s => s.limpTurn_touch src same x)
    (fun x s => s.limpTurn_others src same x) (s.limpTold src f) n
  have hfreed := y.slotFreed_touch (tHs n)
  have hhs' : (y.slotFreed (tHs n)).hs[n] = s.hs[n] := by rw [hfreed.same .hs (by decide), hhs, htold.same .hs (by decide)]
  have hnow : (y.slotFreed (tHs n)).now = s.now := by
    rw [hfreed.now_eq (by decide), hy.now_eq (by decide), htold.now_eq (by decide)]
  rw [hloop, State.limpTurn_tHs _ _ _ ((s.limpLoop_mapSel hlmap hy _).trans hsel), s.limpLoop_level hlmap hdin hy, hlow]
  refine State.hsLimpEnter_low _ src ?_ ?_
  · exact ((hfreed.isUp_eq (by decide) _).trans (hy.isUp_eq (by decide) _)).trans ((htold.isUp_eq (by decide) _).trans hup)
  · rwa [State.hsMarked, hhs', hnow]

/-- When ACTIVE falls no target with power is in limp mode, and no channel changes its state (R327). -/
theorem State.leaveLoop_inLimp (x : Fin 67) :
    (forFin 67 (fun x s => s.limpLeave x) s).inLimp x = (!s.isUp (islOf x.val) && s.inLimp x) := by
  obtain ⟨y, hy, hlimp, hloop⟩ := targetLoop_inLimp (fun x s => s.limpLeave_touch x) (fun x s => (s.limpLeave_at x).1) s x
  rw [hloop, (y.limpLeave_at x).2, hlimp, hy.isUp_eq (by decide)]

theorem State.hsLimpExit_st (n : Fin 48) : (s.hsLimpExit n).hs[n].st = s.hs[n].st := by
  unfold State.hsLimpExit
  split
  · simp only [State.emit_hs, State.modHs_hs, upd_get]
  · rfl

theorem State.leaveLoop_st (n : Fin 48) : (forFin 67 (fun x s => s.limpLeave x) s).hs[n].st = s.hs[n].st := by
  obtain ⟨y, -, hhs, hloop⟩ := targetLoop_hs (fun x s => s.limpLeave_touch x) (fun x s => (s.limpLeave_at x).1) s n
  rw [hloop, State.limpLeave_tHs, State.hsLimpExit_st, hhs]
end

/-- Settles O34: a direct input by `State.dinLoop_hs`, a repeated OFF by the falls of the targets, the LIMP pad by the loops
that take every mapped target into limp mode and every target out of it. -/
theorem directInputsAndTheLimpPadActOnTargets : Obligations.DirectInputsAndTheLimpPadActOnTargets := by
  unfold Obligations.DirectInputsAndTheLimpPadActOnTargets
  refine ⟨?_, ?_, ?_, ?_, ?_, ?_, ?_, ?_, ?_, ?_⟩
  · intro s i level same half hup hruns hlevel hhalf
    have hacts := s.dinChange_acts same hup hruns hlevel hhalf
    have htouch := s.dinChange_touch i level half same
    have hinp : (s.dinChange i level half same).inp = _ :=
      ((congrArg State.inp hacts).trans
        ((onlyTouches.forFin (onlyTouches.refl _ _) fun x y => y.dinTurn_touch i same x).same .inp (by decide))).trans
        (s.dinStored_inp i level)
    refine ⟨_, rfl, ?_, ?_, ?_, fun n hi hlimp howned hup hstop hlow hcycle => ?_,
      fun n hi hlimp howned hup hstop hlow hsame hon hmarkAt hmark => ?_, fun n hwhy => ?_, htouch⟩
    · rw [hinp]
      exact upd_get ..
    · rw [hinp]
      exact upd_get ..
    · rw [hinp]
      exact onlyAt_upd _ _ _
    · obtain ⟨y, hhs, hnow, hyup, hystop, hat⟩ := s.dinLoop_hs i level same n
      have hfalls : (level != bit (s.mapByte (tHs n)) 4) = false := by rw [← hlow, bne_self_eq_false]
      rw [if_pos ⟨hi, .inl hlimp, howned⟩, hfalls,
        State.hsRouted_low _ _ (hyup.trans hup) (hystop.trans hstop)] at hat
      rw [hacts, hat]
      exact (State.hsFall_off _ (State.not_hsMarked_of hhs hnow hcycle)).1
    · obtain ⟨y, hhs, hnow, hyup, hystop, hat⟩ := s.dinLoop_hs i level same n
      have hfalls : (level != bit (s.mapByte (tHs n)) 4) = false := by rw [← hlow, bne_self_eq_false]
      rw [if_pos ⟨hi, .inl hlimp, howned⟩, hfalls,
        State.hsRouted_low _ _ (hyup.trans hup) (hystop.trans hstop),
        State.hsFall_late _ ⟨hsame, by rw [hhs, hnow, hmarkAt], by rw [hhs, hmark]⟩ (by rw [hhs, hon]), hhs] at hat
      rw [hacts, hat]
    · obtain ⟨y, -, -, -, -, hat⟩ := s.dinLoop_hs i level same n
      rw [hacts, hat, if_neg]
      rintro ⟨hi, hfollow, howned⟩
      rcases hwhy with h | ⟨hlimp, hfollows⟩ | h
      · exact h hi
      · simp_all
      · exact nomatch h.symm.trans howned
  · exact fun s i level same half h => ⟨_, rfl, s.dinChange_idle same h⟩
  · exact fun s n hrepeat hlow => ⟨_, rfl, s.routedRepeat_hs hrepeat hlow⟩
  · exact fun s n hrepeat hlow => ⟨_, rfl, s.routedRepeat_vd hrepeat hlow⟩
  · exact fun s k hrepeat hlow => ⟨_, rfl, s.routedRepeat_ls hrepeat hlow⟩
  · exact fun s x hlevel => ⟨_, rfl, s.routedRepeat_idle hlevel⟩
  · intro s ms same hup hruns hactive hms
    have hpad : s.inp.pad = false := by simp_all [Inp.active]
    have hacts := s.limpPad_acts same hup hruns (level := true) hpad hms
    rw [s.limpSources_rises same hactive rfl] at hacts
    have hwake := State.limpWake_touch (forFin 67 (fun x s => s.limpTurn 0 same x)
      (s.limpTold 0 fun p => { p with pad := true })) (true && bit s.inp.limpCfg 8)
    rw [← hacts] at hwake
    have hhs : (s.limpPad true ms same).hs = _ := hwake.same .hs (by decide)
    refine ⟨_, rfl, ?_, fun x hmap hpow => ?_, fun x hmap => ?_, fun n hmap hpow hlow hcycle => ?_, fun n hmap => ?_,
      s.limpPad_touch true ms same⟩
    · exact (hwake.same .inp (by decide)).trans ((onlyTouches.forFin (onlyTouches.refl _ _) fun x y =>
        y.limpTurn_touch 0 same x).same .inp (by decide))
    · rw [hwake.inLimp rfl, s.limpLoop_inLimp rfl, hmap, hpow]
      rfl
    · rw [hwake.inLimp rfl, s.limpLoop_inLimp rfl, hmap]
      rfl
    · rw [hhs]
      exact s.limpLoop_low rfl rfl hmap hpow hlow (State.not_hsMarked_of rfl rfl hcycle)
    · rw [hhs, s.limpLoop_unmapped rfl hmap]
  · intro s ms same hup hruns hpad hdeputy hexpiry hms
    have hacts : s.limpPad false ms same =
        forFin 67 (fun x s => s.limpLeave x) ((s.modInp fun p => { p with pad := false }).emit 0 0x33 0) := by
      rw [s.limpPad_acts same hup hruns (level := false) hpad hms,
        s.limpSources_falls 0 same (by rw [Inp.active, hpad]; rfl) (by simp [Inp.active, hdeputy, hexpiry])]
      rfl
    have hbegun : onlyTouches [.fab, .inp] s ((s.modInp fun p => { p with pad := false }).emit 0 0x33 0) :=
      ((s.modInp_touch _).mono (by decide)).trans (State.emit_touch ..) (by decide)
    have hloop := onlyTouches.forFin (onlyTouches.refl _ ((s.modInp fun p => { p with pad := false }).emit 0 0x33 0))
      fun x (y : State) => y.limpLeave_touch x
    rw [← hacts] at hloop
    refine ⟨_, rfl, hloop.same .inp (by decide), fun x hpow => ?_, fun n => ?_,
      (hbegun.mono (by decide)).step (hloop.mono (by decide))⟩
    · rw [hacts, State.leaveLoop_inLimp, hbegun.isUp_eq (by decide), hpow]
      rfl
    · rw [hacts, State.leaveLoop_st]
      rfl
  · intro s level same ms hup hruns hpad hother hms
    have hacts := s.limpPad_acts same hup hruns hpad hms
    rw [State.limpSources_stays] at hacts
    · have hwake := (s.modInp fun p => { p with pad := level }).limpWake_touch (level && bit s.inp.limpCfg 8)
      rw [← hacts] at hwake
      exact ⟨_, rfl, hwake.same .inp (by decide), hwake.same .hs (by decide), hwake.same .vd (by decide),
        hwake.same .ls (by decide), s.limpPad_touch level ms same⟩
    · rcases hother with h | h <;> simp [Inp.active, h]
  · exact fun s level same ms h => ⟨_, rfl, s.limpPad_idle same h⟩

end Sys2Proof.Machine
/-! ## Orphan expiry and reclaim (R82, R83, R84, R87, R189, R326) -/

namespace Sys2Proof.Machine

open Claims

/-- What every turn of a loop keeps holds after the loop. -/
theorem forFin_keeps {k : Nat} {op : Fin k → State → State} {P : State → Prop} (hop : ∀ i s, P s → P (op i s)) {s : State}
    (h : P s) : P (forFin k op s) := by
  rw [forFin]
  induction List.finRange k generalizing s with
  | nil => exact h
  | cons i r ih => exact ih (hop i s h)

/-! ### Heater slots disabled (R188, R189) -/

section
variable (s : State) (i : Fin 16)

theorem Adm.drop_slots (a : Adm) (n : Nat) : (a.drop n).slots = a.slots := by
  unfold Adm.drop Adm.send Adm.setClaim Adm.removeEntry
  split <;> split <;> rfl

theorem State.slotOff_slots (n : Nat) : (s.slotOff n).adm.slots = s.adm.slots := by
  unfold State.slotOff Adm.sendOff Adm.send
  rw [State.modAdm_adm]
  split
  · split <;> rfl
  · rfl

theorem State.slotClose_onlyAt (now : Nat) : onlyAt i s.adm.slots (s.slotClose i now).adm.slots := by
  unfold State.slotClose
  dsimp only
  split
  · simp only [apply_ite State.adm, State.emit_adm, ite_self]
    exact onlyAt_upd _ _ _
  · exact onlyAt_refl _ _

theorem State.slotLetGo_onlyAt : onlyAt i s.adm.slots (s.slotLetGo i).adm.slots := by
  unfold State.slotLetGo
  dsimp only
  split
  · refine onlyAt_trans ?_ (State.slotClose_onlyAt _ i _)
    rw [State.slotOff_slots, State.modAdm_adm]
    split
    · rw [Adm.drop_slots]
      exact onlyAt_refl _ _
    · exact onlyAt_refl _ _
  · exact onlyAt_refl _ _

@[simp] theorem bit_slotOff (v : W32) : bit (keep 0x0F3F07BF (v &&& 0xFFFFFF7F)) 7 = false := by
  have hmask : Nat.testBit 4294967167 7 = false := by decide
  simp [bit, keep, hmask]

/-- A write of HT_CFG with EN 0 disables its slot and leaves the others. -/
theorem State.slotCfgWrite_off (v : W32) :
    (s.slotCfgWrite i (v &&& 0xFFFFFF7F)).adm.slots[i].en = false ∧
      onlyAt i s.adm.slots (s.slotCfgWrite i (v &&& 0xFFFFFF7F)).adm.slots := by
  have hoff : (s.slotCfgWrite i (v &&& 0xFFFFFF7F)).adm.slots = upd (s.slotLetGo i).adm.slots i fun x =>
      { x with
        cfg := keep 0x0F3F07BF (v &&& 0xFFFFFF7F), arm := false, run := false, open_ := false, since := none, carry := 0,
        st := 0 } := by
    rw [State.slotCfgWrite]
    dsimp only
    rw [if_neg (by rw [bit_slotOff]; decide)]
    rfl
  obtain ⟨hat, hothers⟩ := changed_at hoff
  rw [hat]
  exact ⟨bit_slotOff v, onlyAt_trans (s.slotLetGo_onlyAt i) hothers⟩

/-- Every heater slot is disabled. -/
abbrev State.slotsIdle : Prop := ∀ i : Fin 16, s.adm.slots[i].en = false

theorem State.slotsOff_idle (which : Slot → Bool) (h : s.slotsIdle) : s.slotsOff which = s :=
  forFin_eq_self fun i => if_neg (by rw [h i, Bool.false_and]; decide)

theorem State.slotsOff_all : (s.slotsOff fun _ => true).slotsIdle := by
  intro i
  have hturn (j : Fin 16) (x : State) :
      onlyAt j x.adm.slots
        (if x.adm.slots[j].en && true then x.slotCfgWrite j (x.adm.slots[j].cfg &&& 0xFFFFFF7F) else x).adm.slots := by
    split
    · exact (x.slotCfgWrite_off j _).2
    · exact onlyAt_refl _ _
  obtain ⟨y, -, -, hloop⟩ := forFin_at (i := i) (ps := [.fab, .adm]) (fun x => x.adm.slots[i])
    (op := fun j x => if x.adm.slots[j].en && true then x.slotCfgWrite j (x.adm.slots[j].cfg &&& 0xFFFFFF7F) else x)
    (fun j x => onlyTouches.ite (x.slotCfgWrite_touch j _) (onlyTouches.refl _ x))
    (fun j x hj => hturn j x i (Ne.symm hj)) s
  rw [show (s.slotsOff fun _ => true).adm.slots[i] = _ from hloop]
  cases hen : y.adm.slots[i].en
  · exact hen
  · exact (y.slotCfgWrite_off i _).1

/-- SLOTS_OFF names no slot only if every slot is disabled. -/
theorem bitsOf_eq_zero {k : Nat} {p : Nat → Bool} (h : bitsOf k p = 0) {i : Nat} (hi : i < k) : p i = false := by
  induction k with
  | zero => exact absurd hi (Nat.not_lt_zero i)
  | succ k ih =>
    have hlast : bitsOf (k + 1) p = if p k then bitsOf k p ||| 1 <<< k else bitsOf k p := by
      rw [bitsOf, List.range_succ, List.foldl_append]
      rfl
    rw [hlast] at h
    cases hp : p k
    · rw [hp] at h
      rcases Nat.lt_succ_iff_lt_or_eq.1 hi with hlt | rfl
      · exact ih h hlt
      · exact hp
    · rw [hp, if_pos rfl, Nat.or_eq_zero_iff, Nat.shiftLeft_eq, Nat.one_mul] at h
      exact absurd h.2 (Nat.two_pow_pos k).ne'

theorem State.slotsOrphan_idle : s.slotsOrphan.slotsIdle := by
  unfold State.slotsOrphan
  dsimp only
  split
  next h =>
    intro i
    have := bitsOf_eq_zero h i.isLt
    rwa [vget, dif_pos i.isLt] at this
  next => exact s.slotsOff_all
end

/-! ### Limp mode keeps the slots disabled -/

section
variable {s : State} (h : s.slotsIdle)
include h

theorem State.limpEnter_idle (x : Fin 67) (src : Nat) (same : Bool) : (s.limpEnter x src same).slotsIdle := by
  have hfreed : s.slotFreed x = s := by rw [State.slotFreed, s.slotsOff_idle _ h, ite_self]
  obtain ⟨-, -, hslots⟩ := s.limpEnter_at x src same
  rw [hfreed, or_self] at hslots
  rwa [State.slotsIdle, hslots]

theorem State.limpSources_idle (src : Nat) (same : Bool) (f : Inp → Inp) : (s.limpSources src same f).slotsIdle := by
  unfold State.limpSources
  dsimp only
  split
  · refine forFin_keeps (P := State.slotsIdle) (fun x s hs => ?_) h
    split
    · exact State.limpEnter_idle hs x src same
    · exact hs
  · split
    · refine forFin_keeps (P := State.slotsIdle) (fun x s hs => ?_) h
      rwa [State.slotsIdle, (s.limpLeave_touch x).same .adm (by decide)]
    · exact h

theorem State.limpRest_idle (src : Nat) : (s.limpRest src).slotsIdle :=
  forFin_keeps (P := State.slotsIdle) (fun x s hs => by
    split
    · exact State.limpEnter_idle hs x src false
    · exact hs) h
end

/-! ### Sources and targets -/

section
variable (s : State)

theorem State.orphanOff_tHs (n : Fin 48) : s.orphanOff (tHs n) = s.hsOrphanOff n := by
  rw [State.orphanOff, dif_pos (show (tHs n).val < 48 from n.isLt)]
  rfl

theorem State.orphanOff_tVd (n : Fin 16) : s.orphanOff (tVd n) = s.vdOrphanOff n := by
  simp [State.orphanOff, tVd, (tVd_lt n).not_ge]

theorem State.orphanOff_tLs (k : Fin 3) : s.orphanOff (tLs k) = s.lsOrphanOff k := by
  simp [State.orphanOff, tLs, tLs_ge]

/-- The sources are stored as they are given; beyond them only LIMP_SRC can change. -/
theorem State.limpSources_inp (src : Nat) (same : Bool) (f : Inp → Inp) :
    (s.limpSources src same f).inp = f s.inp ∨ (s.limpSources src same f).inp = { f s.inp with limpSrc := src } := by
  cases hbefore : s.inp.active <;> cases hafter : (f s.inp).active
  · exact .inl (congrArg State.inp (s.limpSources_stays src same (hafter.trans hbefore.symm)))
  · rw [s.limpSources_rises same hbefore hafter]
    exact .inr ((onlyTouches.forFin (onlyTouches.refl _ _) fun x y => y.limpTurn_touch src same x).same .inp (by decide))
  · rw [s.limpSources_falls src same hbefore hafter]
    exact .inl ((onlyTouches.forFin (onlyTouches.refl _ _) fun x y => y.limpLeave_touch x).same .inp (by decide))
  · exact .inl (congrArg State.inp (s.limpSources_stays src same (hafter.trans hbefore.symm)))

/-- A source that holds ACTIVE leaves the unmapped channels. -/
theorem State.limpSources_unmapped (src : Nat) (same : Bool) {f : Inp → Inp} (hlmap : (f s.inp).lmap = s.inp.lmap)
    (hafter : (f s.inp).active = true) {n : Fin 48} (hsel : s.mapSel (tHs n) = false) :
    (s.limpSources src same f).hs[n] = s.hs[n] := by
  cases hbefore : s.inp.active
  · rw [s.limpSources_rises same hbefore hafter, s.limpLoop_unmapped hlmap hsel]
  · rw [s.limpSources_stays src same (hafter.trans hbefore.symm)]
    rfl

/-- The turn of target `x` among the mapped targets that are not yet in limp mode. -/
abbrev State.restTurn (src : Nat) (x : Fin 67) : State :=
  if s.mapSel x && !s.inLimp x then s.limpEnter x src false else s

theorem State.restTurn_touch (src : Nat) (x : Fin 67) :
    onlyTouches [.fab, .hs, .dig, .vg, .vd, .ls, .adm, .free] s (s.restTurn src x) :=
  onlyTouches.ite (s.limpEnter_touch x src false) (onlyTouches.refl _ s)

theorem State.restTurn_others (src : Nat) (x : Fin 67) : (s.restTurn src x).others x = s.others x := by
  unfold State.restTurn
  split
  · exact (s.limpEnter_at x src false).1
  · rfl

theorem State.mapSel_congr {s t : State} (h : t.inp.lmap = s.inp.lmap) (x : Fin 67) : t.mapSel x = s.mapSel x := by
  rw [State.mapSel, State.mapByte, h]
  rfl

theorem State.limpRest_inLimp (src : Nat) {x : Fin 67} (hsel : s.mapSel x = true) (hup : s.isUp (islOf x.val) = true) :
    (s.limpRest src).inLimp x = true := by
  obtain ⟨y, hy, -, hloop⟩ := targetLoop_inLimp (fun x s => s.restTurn_touch src x) (fun x s => s.restTurn_others src x) s x
  have hysel : y.mapSel x = true := (State.mapSel_congr (by rw [hy.same .inp (by decide)]) x).trans hsel
  refine hloop.trans ?_
  rw [State.restTurn, hysel]
  cases hlimp : y.inLimp x
  · rw [if_pos (by decide), (y.limpEnter_at x src false).2.1, hy.isUp_eq (by decide), hup, Bool.true_or]
  · exact hlimp

theorem State.limpRest_unmapped (src : Nat) {n : Fin 48} (hsel : s.mapSel (tHs n) = false) :
    (s.limpRest src).hs[n] = s.hs[n] := by
  obtain ⟨y, hy, hhs, hloop⟩ := targetLoop_hs (fun x s => s.restTurn_touch src x) (fun x s => s.restTurn_others src x) s n
  have hysel : y.mapSel (tHs n) = false := (State.mapSel_congr (by rw [hy.same .inp (by decide)]) _).trans hsel
  refine hloop.trans ?_
  rw [State.restTurn, hysel, ← hhs]
  rfl

/-! ### Unmapped targets go off (R84, R229) -/

theorem State.orphanOff_around (x : Fin 67) : (s.orphanOff x).around x = s.around x := by
  rcases target_cases x with ⟨n, rfl⟩ | ⟨n, rfl⟩ | ⟨k, rfl⟩
  · rw [State.orphanOff_tHs, State.hsOrphanOff_around]
  · rw [State.orphanOff_tVd, State.vdOrphanOff_around]
  · rw [State.orphanOff_tLs, State.lsOrphanOff_around]

/-- The turn of target `x` among the targets that the map does not select. -/
abbrev State.orphanTurn (x : Fin 67) : State := if s.mapSel x then s else s.orphanOff x

theorem State.orphanTurn_touch (x : Fin 67) :
    onlyTouches [.fab, .hs, .dig, .vg, .vd, .ls, .adm] s (s.orphanTurn x) :=
  onlyTouches.ite (onlyTouches.refl _ s) (s.orphanOff_touch x)

theorem State.orphanTurn_around (x : Fin 67) : (s.orphanTurn x).around x = s.around x := by
  unfold State.orphanTurn
  split
  · rfl
  · exact s.orphanOff_around x

/-- An unmapped channel with power and not in limp mode is neither on nor PENDING (R84). -/
theorem State.hsOrphanOff_off {n : Fin 48} (hup : s.hsUp n = true) (hlimp : s.hs[n].limp = false) :
    hsOn (s.hsOrphanOff n).hs[n].st = false ∧ (s.hsOrphanOff n).hs[n].st ≠ .pending := by
  rw [State.hsOrphanOff]
  dsimp only
  rw [if_pos (by rw [hup, hlimp]; rfl)]
  cases hst : s.hs[n].st
  all_goals simp [-Fin.getElem_fin, upd_get, hst, hsOn]

/-- What the loop over the unmapped targets makes of the channels and slots. -/
theorem State.orphanLoop_at (n : Fin 48) :
    (s.mapSel (tHs n) = true → (forFin 67 (fun x s => s.orphanTurn x) s).hs[n] = s.hs[n]) ∧
      (s.mapSel (tHs n) = false → s.hsUp n = true → s.hs[n].limp = false →
        hsOn (forFin 67 (fun x s => s.orphanTurn x) s).hs[n].st = false ∧
          (forFin 67 (fun x s => s.orphanTurn x) s).hs[n].st ≠ .pending) := by
  obtain ⟨y, hy, hhs, hloop⟩ := targetLoop_hs (fun x s => s.orphanTurn_touch x)
    (fun x s => State.others_of_around (s.orphanTurn_around x)) s n
  have hysel : y.mapSel (tHs n) = s.mapSel (tHs n) := State.mapSel_congr (by rw [hy.same .inp (by decide)]) _
  rw [hloop, State.orphanTurn, hysel]
  refine ⟨fun hsel => ?_, fun hsel hup hlimp => ?_⟩
  · rw [hsel, ← hhs]
    rfl
  · rw [hsel, if_neg (by decide), State.orphanOff_tHs]
    exact y.hsOrphanOff_off ((hy.isUp_eq (by decide) _).trans hup) (by rw [hhs, hlimp])

theorem State.orphanLoop_idle (h : s.slotsIdle) : (forFin 67 (fun x s => s.orphanTurn x) s).slotsIdle :=
  forFin_keeps (P := State.slotsIdle)
    (fun x s hs => by rwa [State.slotsIdle, State.slots_of_around (s.orphanTurn_around x)]) h
end

/-! ### The hold expires -/

section
variable (s : State)

/-- The hold has run out and the heater slots are disabled (R84, R189). -/
abbrev State.orphanMarked : State := (s.modHsc fun h => { h with orphanEnd := none, expired := true }).slotsOrphan

/-- Expiry has become a limp source (R84, R326). -/
abbrev State.orphanSourced : State := s.orphanMarked.limpSources 2 false fun p => { p with expiry := true }

/-- The mapped targets are in limp mode (R84). -/
abbrev State.orphanMapped : State := s.orphanSourced.limpRest 2

theorem State.orphanExpire_eq :
    s.orphanExpire = forFin 8 (fun k s => s.lcOrphan k) (forFin 67 (fun x s => s.orphanTurn x) s.orphanMapped) := rfl

theorem State.orphanMarked_touch : onlyTouches [.fab, .hsc, .adm] s s.orphanMarked :=
  ((s.modHsc_touch _).mono (by decide)).trans (State.slotsOrphan_touch _) (by decide)

theorem State.orphanSourced_touch :
    onlyTouches [.fab, .hs, .hsc, .dig, .vg, .vd, .ls, .adm, .inp, .free] s s.orphanSourced :=
  (s.orphanMarked_touch.mono (by decide)).trans (State.limpSources_touch ..) (by decide)

theorem State.orphanMapped_touch :
    onlyTouches [.fab, .hs, .dig, .vg, .vd, .ls, .adm, .inp, .free] s.orphanMarked s.orphanMapped :=
  (s.orphanMarked.limpSources_touch 2 false _).trans (State.limpRest_touch _ 2) (by decide)

/-- What follows the entry of the mapped targets into limp mode leaves inputs and HSC. -/
theorem State.orphanExpire_touch_mapped :
    onlyTouches [.fab, .hs, .dig, .vg, .vd, .ls, .adm, .lc] s.orphanMapped s.orphanExpire := by
  rw [State.orphanExpire_eq]
  exact onlyTouches.forFin (onlyTouches.forFin (onlyTouches.refl _ _) fun x y => (y.orphanTurn_touch x).mono (by decide))
    fun k y => (y.lcOrphan_touch k).mono (by decide)

/-- The chains' part leaves targets and slots. -/
theorem State.orphanChains_touch :
    onlyTouches [.fab, .lc] (forFin 67 (fun x s => s.orphanTurn x) s.orphanMapped) s.orphanExpire := by
  rw [State.orphanExpire_eq]
  exact onlyTouches.forFin (onlyTouches.refl _ _) fun k y => y.lcOrphan_touch k

theorem State.orphanExpire_hsc :
    s.orphanExpire.hsc = { s.hsc with orphanEnd := none, expired := true } := by
  rw [s.orphanExpire_touch_mapped.same .hsc (by decide), s.orphanMapped_touch.same .hsc (by decide)]
  exact (State.slotsOrphan_touch _).same .hsc (by decide)

theorem State.orphanSourced_inp : s.orphanSourced.inp.expiry = true ∧ s.orphanSourced.inp.lmap = s.inp.lmap := by
  have hmarked : s.orphanMarked.inp = s.inp := s.orphanMarked_touch.same .inp (by decide)
  rcases s.orphanMarked.limpSources_inp 2 false fun p => { p with expiry := true } with h | h <;> rw [h, hmarked] <;>
    exact ⟨rfl, rfl⟩

theorem State.orphanMapped_inp : s.orphanMapped.inp = s.orphanSourced.inp :=
  (s.orphanSourced.limpRest_touch 2).same .inp (by decide)

theorem State.orphanExpire_expiry : s.orphanExpire.inp.expiry = true := by
  rw [s.orphanExpire_touch_mapped.same .inp (by decide), s.orphanMapped_inp]
  exact s.orphanSourced_inp.1

/-- No stage of the expiry changes the limp map. -/
theorem State.orphan_mapSel (x : Fin 67) :
    s.orphanSourced.mapSel x = s.mapSel x ∧ s.orphanMapped.mapSel x = s.mapSel x := by
  have hlmap := s.orphanSourced_inp.2
  exact ⟨State.mapSel_congr hlmap x, State.mapSel_congr (by rw [s.orphanMapped_inp, hlmap]) x⟩

theorem State.orphanExpire_idle : s.orphanExpire.slotsIdle := by
  rw [State.slotsIdle, s.orphanChains_touch.same .adm (by decide)]
  have hmarked : s.orphanMarked.slotsIdle := State.slotsOrphan_idle _
  exact State.orphanLoop_idle _ (State.limpRest_idle (State.limpSources_idle hmarked 2 false _) 2)

theorem State.orphanExpire_mapped {n : Fin 48} (hsel : s.mapSel (tHs n) = true) (hup : s.hsUp n = true) :
    s.orphanExpire.hs[n].limp = true := by
  obtain ⟨hsourced, hmapped⟩ := s.orphan_mapSel (tHs n)
  have hlimp := s.orphanSourced.limpRest_inLimp 2 (hsourced.trans hsel)
    (by rw [s.orphanSourced_touch.isUp_eq (by decide), islOf_tHs]; exact hup)
  rw [s.orphanChains_touch.same .hs (by decide), (s.orphanMapped.orphanLoop_at n).1 (hmapped.trans hsel)]
  rwa [State.inLimp_tHs] at hlimp

theorem State.orphanExpire_unmapped {n : Fin 48} (hsel : s.mapSel (tHs n) = false) (hup : s.hsUp n = true)
    (hlimp : s.hs[n].limp = false) :
    hsOn s.orphanExpire.hs[n].st = false ∧ s.orphanExpire.hs[n].st ≠ .pending := by
  obtain ⟨hsourced, hmapped⟩ := s.orphan_mapSel (tHs n)
  have hmarked := s.orphanMarked_touch
  have hmarkedSel : s.orphanMarked.mapSel (tHs n) = false :=
    (State.mapSel_congr (by rw [hmarked.same .inp (by decide)]) _).trans hsel
  have hhs : s.orphanMapped.hs[n] = s.hs[n] := by
    rw [State.limpRest_unmapped _ 2 (hsourced.trans hsel),
      s.orphanMarked.limpSources_unmapped 2 false (f := fun p => { p with expiry := true }) rfl (Bool.or_true _) hmarkedSel,
      hmarked.same .hs (by decide)]
  rw [s.orphanChains_touch.same .hs (by decide)]
  refine (s.orphanMapped.orphanLoop_at n).2 (hmapped.trans hsel) ?_ (by rw [hhs, hlimp])
  exact ((s.orphanMapped_touch.isUp_eq (by decide) _).trans (hmarked.isUp_eq (by decide) _)).trans hup

end

/-! ### Reclaim -/

theorem State.orphanReclaim_at (s : State) :
    s.orphanReclaim.hsc = { s.hsc with orphanEnd := none, expired := false } ∧ s.orphanReclaim.inp.expiry = false := by
  unfold State.orphanReclaim State.onlyIf
  dsimp only
  split
  · refine ⟨(State.limpSources_touch _ 2 false _).same .hsc (by decide), ?_⟩
    rcases State.limpSources_inp (s.modHsc fun h => { h with orphanEnd := none, expired := false }) 2 false
      (fun p => { p with expiry := false }) with h | h <;> rw [h]
  next h =>
    rw [Bool.or_eq_true, not_or, Bool.not_eq_true, Bool.not_eq_true] at h
    exact ⟨rfl, h.2⟩

/-- Settles O17: the hold's end by the stages of `State.orphanExpire_eq`, RECLAIM by `State.orphanReclaim_at`. -/
theorem orphanHoldExpiresAndIsReclaimed : Obligations.OrphanHoldExpiresAndIsReclaimed := by
  unfold Obligations.OrphanHoldExpiresAndIsReclaimed
  refine ⟨?_, ?_, ?_⟩
  · intro s due hup hhold
    have hacts : s.orphanDue = (s.advanceTo due).orphanExpire := by
      unfold State.orphanDue
      rw [hhold]
      exact if_pos hup
    have hadv := s.advanceTo_touch due
    have hhs : (s.advanceTo due).hs = s.hs := hadv.same .hs (by decide)
    have hmap (x : Fin 67) : (s.advanceTo due).mapSel x = s.mapSel x :=
      State.mapSel_congr (by rw [hadv.same .inp (by decide)]) x
    refine ⟨s.orphanDue, rfl, ?_⟩
    have htouch := s.orphanDue_touch
    rw [hacts] at htouch ⊢
    have hhsc := (s.advanceTo due).orphanExpire_hsc
    refine ⟨by rw [hhsc], by rw [hhsc], State.orphanExpire_expiry _, fun n hsel hpow hlimp => ?_, fun n hsel hpow => ?_,
      State.orphanExpire_idle _, htouch⟩
    · exact State.orphanExpire_unmapped _ ((hmap _).trans hsel) ((hadv.isUp_eq (by decide) _).trans hpow)
        (by rw [hhs, hlimp])
    · exact State.orphanExpire_mapped _ ((hmap _).trans hsel) ((hadv.isUp_eq (by decide) _).trans hpow)
  · intro s c hcan
    refine fires_storeIf (ps := [.fab, .answer, .hs, .hsc, .dig, .vg, .vd, .ls, .adm, .inp, .pmc, .free]) rfl hcan
      (fun x => x.orphanReclaim_touch.mono (by decide)) (by decide) fun t ht htouch => ?_
    obtain ⟨hhsc, hexpiry⟩ := (s.served c).orphanReclaim_at
    have hthsc : t.hsc = (s.served c).orphanReclaim.hsc := by rw [← ht]
    have htinp : t.inp = (s.served c).orphanReclaim.inp := by rw [← ht]
    exact ⟨by rw [hthsc, hhsc], by rw [hthsc, hhsc], by rw [htinp, hexpiry], htouch⟩
  · intro s h
    refine ⟨_, rfl, ?_⟩
    unfold State.orphanDue
    rcases h with h | h
    · rw [h]
    · split
      · rw [h]
        rfl
      · rfl

end Sys2Proof.Machine
/-! ## Clamps (R100, R103 to R106, R109) -/

namespace Sys2Proof.Machine

open Claims

/-- A clamp of `tCl` microseconds goes beyond E_lim, or beyond 65,535 us (R105). -/
abbrev Clamp.over (c : Clamp) (n tCl : Nat) (timeout : Bool) : Prop := eLim n c.tj0 < eEst c.i0 tCl ∨ timeout = true

/-- The states that a clamp over its limit takes to LATCHED (R50, R106). -/
abbrev clampLatches (st : HsSt) : Prop := st = .disabled ∨ st = .off ∨ st = .uvWait ∨ st = .retryWait

/-- What the judgement of clamp `c` of `tCl` microseconds makes of its channel `h` (R105, R106, R109). -/
structure Hs.ClampJudged (h g : Hs) (n : Nat) (c : Clamp) (tCl : Nat) (timeout : Bool) : Prop where
  clamp : g.clamp = h.clamp
  clT : g.clT = tCl
  clEtot : g.clEtot = h.clEtot + eEst c.i0 tCl
  clPct : g.clPct = clampPct (eEst c.i0 tCl) (eLim n c.tj0) timeout
  within : ¬ c.over n tCl timeout → g.st = h.st ∧ g.clOvl = h.clOvl ∧ g.fault = h.fault
  beyond : c.over n tCl timeout →
    g.fault = h.fault ||| 0x10 ∧ g.clOvl = satN 16 (h.clOvl + 1) ∧
      g.st = if clampLatches h.st then .latched else h.st

theorem State.clampJudge_at (s : State) (n : Fin 48) (c : Clamp) {tCl : Nat} (timeout : Bool) (htCl : tCl ≤ 65535) :
    s.hs[n].ClampJudged (s.clampJudge n c tCl timeout).hs[n] n.val c tCl timeout ∧
      onlyAt n s.hs (s.clampJudge n c tCl timeout).hs := by
  have hjudge : ∃ f : Hs → Hs, (s.clampJudge n c tCl timeout).hs = upd s.hs n f ∧
      s.hs[n].ClampJudged (f s.hs[n]) n.val c tCl timeout := by
    by_cases hover : c.over n.val tCl timeout
    · have hovl : (timeout || decide (eLim n.val c.tj0 < eEst c.i0 tCl)) = true := by
        rwa [Bool.or_eq_true, decide_eq_true_iff, or_comm]
      cases hst : s.hs[n].st <;>
      · simp only [State.clampJudge, Nat.min_eq_left htCl, hovl, hst, if_true, State.emit_hs, State.hsEnter_hs,
          State.onlyIf, State.toAdm_hs, apply_ite State.hs, ite_self, State.modHs_hs, upd_upd]
        refine ⟨_, rfl, rfl, rfl, rfl, rfl, fun hnot => absurd hover hnot, fun _ => ⟨rfl, rfl, ?_⟩⟩
        simp [-Fin.getElem_fin, hst]
    · have hovl : (timeout || decide (eLim n.val c.tj0 < eEst c.i0 tCl)) = false := by
        rwa [Bool.eq_false_iff, ne_eq, Bool.or_eq_true, decide_eq_true_iff, or_comm]
      simp only [State.clampJudge, Nat.min_eq_left htCl, hovl, Bool.false_eq_true, if_false, State.emit_hs,
        State.onlyIf, State.toAdm_hs, apply_ite State.hs, ite_self, State.modHs_hs]
      exact ⟨_, rfl, rfl, rfl, rfl, rfl, fun _ => ⟨rfl, rfl, rfl⟩, fun h => absurd h hover⟩
  obtain ⟨f, hf, hjudged⟩ := hjudge
  obtain ⟨hat, hothers⟩ := changed_at hf
  exact ⟨hat ▸ hjudged, hothers⟩

section
variable {s : State} {n : Fin 48} {c : Clamp}

theorem State.clampBegin_runs {vds : Nat} (hup : s.hsUp n = true) (hoff : hsOn s.hs[n].st = false)
    (hnone : s.hs[n].clamp = none) (hvds : 63000 ≤ vds) :
    (s.clampBegin n vds).hs = upd s.hs n fun h =>
      { h with clamp := some { i0 := h.offI0, tj0 := h.offTj, start := s.now, judged := false } } := by
  simp only [State.clampBegin, hup, hoff, hnone, hvds, Option.isNone_none, Bool.not_false, Bool.and_self, decide_true,
    if_true]
  exact (State.zeroAbort_touch _ _).same .hs (by decide)

theorem State.clampBegin_idle {vds : Nat} (h : hsOn s.hs[n].st = true ∨ vds < 63000) : s.clampBegin n vds = s := by
  refine if_neg fun hacts => ?_
  simp only [Bool.and_eq_true, Bool.not_eq_true', decide_eq_true_eq] at hacts
  obtain ⟨⟨⟨-, hoff⟩, -⟩, hvds⟩ := hacts
  exact h.elim (fun hon => nomatch hon.symm.trans hoff) fun hlow => absurd hvds (Nat.not_le.2 hlow)

theorem State.clampEndRow_runs (cycles : Nat) (hup : s.hsUp n = true) (hc : s.hs[n].clamp = some c) :
    s.clampEndRow n cycles = (s.advanceTo (c.start + cycles / 40)).clampStop n cycles := by
  rw [State.clampEndRow, hc]
  exact if_pos hup

theorem State.clampEndRow_idle (cycles : Nat) (h : s.hs[n].clamp = none ∨ s.hsUp n = false) :
    s.clampEndRow n cycles = s := by
  unfold State.clampEndRow
  split
  · rfl
  next hc =>
    have hdown := h.resolve_left fun hnone => nomatch hnone.symm.trans hc
    rw [hdown]
    rfl

/-- A clamp not judged before is judged as it ends. -/
theorem State.clampStop_judges (cycles : Nat) (hc : s.hs[n].clamp = some c) (hj : c.judged = false) :
    ({ s.hs[n] with clamp := none } : Hs).ClampJudged (s.clampStop n cycles).hs[n] n.val c
        (min 65535 (ceilDiv cycles 40)) (longClamp cycles) ∧
      onlyAt n s.hs (s.clampStop n cycles).hs := by
  obtain ⟨hat, hothers⟩ := changed_at (s.modHs_hs n fun h => { h with clamp := none })
  obtain ⟨hjudged, hothers'⟩ := (s.modHs n fun h => { h with clamp := none }).clampJudge_at n c (longClamp cycles)
    (Nat.min_le_left 65535 (ceilDiv cycles 40))
  simp only [State.clampStop, hc, hj, Bool.false_eq_true, if_false]
  exact ⟨hat ▸ hjudged, onlyAt_trans hothers hothers'⟩

theorem State.clampStop_judged (cycles : Nat) (hc : s.hs[n].clamp = some c) (hj : c.judged = true) :
    s.clampStop n cycles = s.modHs n fun h => { h with clamp := none } := by
  simp only [State.clampStop, hc, hj, if_true]

/-- A clamp that reaches 65,535 us is judged as over its limit and runs on. -/
theorem State.clampTimeout_judges (hc : s.hs[n].clamp = some c) (hj : c.judged = false) :
    ({ s.hs[n] with clamp := some { c with judged := true } } : Hs).ClampJudged (s.clampTimeout n).hs[n] n.val c 65535
        true ∧
      onlyAt n s.hs (s.clampTimeout n).hs := by
  obtain ⟨hat, hothers⟩ := changed_at
    ((s.advanceTo (c.start + 65535)).modHs_hs n fun h => { h with clamp := some { c with judged := true } })
  obtain ⟨hjudged, hothers'⟩ := ((s.advanceTo (c.start + 65535)).modHs n fun h =>
    { h with clamp := some { c with judged := true } }).clampJudge_at n c true (Nat.le_refl 65535)
  rw [State.advanceTo_hs] at hat hothers
  simp only [State.clampTimeout, hc, hj, Bool.false_eq_true, if_false]
  exact ⟨hat ▸ hjudged, onlyAt_trans hothers hothers'⟩

theorem State.clampTimeout_judged (hc : s.hs[n].clamp = some c) (hj : c.judged = true) : s.clampTimeout n = s := by
  simp only [State.clampTimeout, hc, hj, if_true]

end

/-- Settles O18: a clamp's end and its time-out judge it as `State.clampJudge_at` says, unless it was judged before. -/
theorem clampsAreMeasuredAndJudged : Obligations.ClampsAreMeasuredAndJudged := by
  unfold Obligations.ClampsAreMeasuredAndJudged
  refine ⟨?_, ?_, ?_, ?_, ?_, ?_, ?_⟩
  · intro s n vds hup hoff hnone hvds
    obtain ⟨hat, hothers⟩ := changed_at (State.clampBegin_runs hup hoff hnone hvds)
    exact ⟨_, rfl, hat, hothers, s.clampBegin_touch n vds⟩
  · intro s n vds h
    exact ⟨_, rfl, State.clampBegin_idle h⟩
  · intro s n cycles k hup hk hj
    have hadv := s.advanceTo_hs (k.start + cycles / 40)
    obtain ⟨hjudged, hothers⟩ := State.clampStop_judges (s := s.advanceTo (k.start + cycles / 40)) cycles
      (hadv.symm ▸ hk) hj
    rw [← State.clampEndRow_runs cycles hup hk, hadv] at hjudged hothers
    have hlong : longClamp cycles = true ↔ 65535 * 40 < cycles := decide_eq_true_iff
    exact ⟨_, rfl, hjudged.clamp, hjudged.clT, hjudged.clEtot, hjudged.clPct,
      fun h => hjudged.within fun hover => h (hover.imp_right hlong.1), fun h => hjudged.beyond (h.imp_right hlong.2),
      hothers, s.clampEndRow_touch n cycles⟩
  · intro s n cycles k hup hk hj
    have hadv := s.advanceTo_hs (k.start + cycles / 40)
    have hend := (State.clampEndRow_runs cycles hup hk).trans (State.clampStop_judged cycles (hadv.symm ▸ hk) hj)
    obtain ⟨hat, hothers⟩ := changed_at ((congrArg State.hs hend).trans (State.modHs_hs ..))
    rw [hadv] at hat hothers
    exact ⟨_, rfl, hat, hothers, s.clampEndRow_touch n cycles⟩
  · intro s n k hk hj
    obtain ⟨hjudged, hothers⟩ := State.clampTimeout_judges hk hj
    obtain ⟨hfault, hovl, -⟩ := hjudged.beyond (.inr rfl)
    refine ⟨_, rfl, hjudged.clamp, hjudged.clT, hjudged.clPct, ?_, hovl, hothers, s.clampTimeout_touch n⟩
    rw [hfault, bit_or, Bool.or_eq_true]
    exact .inr rfl
  · intro s n k hk hj
    exact ⟨_, rfl, State.clampTimeout_judged hk hj⟩
  · intro s n cycles h
    exact ⟨_, rfl, State.clampEndRow_idle cycles h⟩

end Sys2Proof.Machine
/-! ## What every command leaves: the waiting commands and the factory calibration (R118, R451, R586)

`exec_command`: whatever command runs, only the parts of `commandParts` change, which are all but these two. A word of a
control core reaches them no more than its own parts; any other command is an operation, a store or a message of ADM,
whose touch lemma `onlyTouches.command` cites. -/

namespace Sys2Proof.Machine

open Claims

/-- Every part of State but the factory calibration and the queue of waiting commands. -/
def commandParts : List Part :=
  [.tmb, .fab, .answer, .hs, .hsc, .dig, .vlvCtl, .vg, .vd, .lmpErr, .ls, .meas, .curve, .adm, .inp, .limpStore, .pwr, .sup,
    .sys, .up, .mem, .ecc, .lc, .que, .core, .depCore, .pmc, .can, .nm, .hp, .plk, .dep, .nv, .free]

theorem mem_commandParts {p : Part} (hotp : p ≠ .otp) (hpending : p ≠ .pending) : p ∈ commandParts := by
  revert hotp hpending
  cases p <;> decide

theorem onlyTouches.command {ps : List Part} {s t : State} (k : onlyTouches ps s t)
    (away : Part.otp ∉ ps ∧ Part.pending ∉ ps := by decide) : onlyTouches commandParts s t :=
  k.mono fun _ hq => mem_commandParts (fun e => away.1 (e ▸ hq)) fun e => away.2 (e ▸ hq)

section
variable {s : State} {f : State → State} {ps : List Part}

theorem State.store_command {c : Fin 4} {isl : Nat} (hf : ∀ x, onlyTouches ps x (f x))
    (away : Part.otp ∉ ps ∧ Part.pending ∉ ps := by decide) : onlyTouches commandParts s (s.store c isl f) :=
  s.store_touch c isl f (fun x => (hf x).command away) (by decide)

theorem State.storeIf_command {c : Fin 4} {isl g : Nat} (hf : ∀ x, onlyTouches ps x (f x))
    (away : Part.otp ∉ ps ∧ Part.pending ∉ ps := by decide) : onlyTouches commandParts s (s.storeIf c isl g f) :=
  s.storeIf_touch c isl g f (fun x => (hf x).command away) (by decide)

theorem State.deliver_command {x : Nat} {m : ToTgt} (hf : ∀ x, onlyTouches ps x (f x))
    (away : Part.otp ∉ ps ∧ Part.pending ∉ ps := by decide) : onlyTouches commandParts s (s.deliver x m f) :=
  s.deliver_touch x m f (fun x => (hf x).command away) (by decide)

end

/-! ### Words of the control cores -/

/-- Executing the word reaches neither of the two parts. -/
def CoreOp.KeepsQueue (op : CoreOp) : Prop := ∀ (c : Fin 4) (x : State), (op.run c x).touches commandParts x

theorem State.modCore_command (s : State) (c : Fin 4) (f : Core → Core) : onlyTouches commandParts s (s.modCore c f) :=
  (s.modCore_touch c f).command

theorem coreOp_keepsQueue {word : W32} {cond : BitVec 4} {bad : Option Trap} {cycles : Nat} {f : Core → Core} :
    (coreOp word cond bad cycles f).KeepsQueue := fun c x => x.modCore_command c f

theorem divOp_keepsQueue {word : W32} {cond : BitVec 4} {rd ra rb : BitVec 5} {f : W16 → W16 → Alu 16 × W16} :
    (divOp word cond rd ra rb f).KeepsQueue := fun c x => by
  dsimp only [divOp]
  split
  · exact .refl _ _
  · exact x.modCore_command c _

theorem loadOp_keepsQueue {word : W32} {cond : BitVec 4} {bad : Bool} {ra : BitVec 5} {seg : BitVec 3} {d : BitVec 8}
    {size : Nat} {post : Bool} {put : W32 → Core → Core} : (loadOp word cond bad ra seg d size post put).KeepsQueue :=
  fun c x => x.coreLoad_touch c _ _ _ _ (fun _ y => y.modCore_command c _) (by decide)

theorem WordEnd.touches_mono {ps qs : List Part} {s : State} {e : WordEnd} (h : e.touches qs s) (sub : ∀ q ∈ qs, q ∈ ps) :
    e.touches ps s := by
  cases e with
  | stall => trivial
  | done | jump | trap => exact onlyTouches.mono h sub

theorem storeOp_keepsQueue {word : W32} {cond : BitVec 4} {bad : Bool} {ra : BitVec 5} {seg : BitVec 3} {d : BitVec 8}
    {size : Nat} {post : Bool} {get : Core → W32} : (storeOp word cond bad ra seg d size post get).KeepsQueue :=
  fun c x => WordEnd.touches_mono
    (x.coreStore_touch c _ _ _ _ _ fun y => (y.modCore_touch c _).mono (by decide)) (by decide)

theorem State.coreCall_touches (s : State) (c : Fin 4) (pc : W16) : (s.coreCall c pc).touches commandParts s := by
  unfold State.coreCall
  dsimp only
  split
  · exact .refl _ _
  · exact (s.modCore_command c _).onlyIf fun y => (y.coreCount_touch ..).command

/-- The instructions of the control cores: most change their core alone. -/
theorem coreOpOf_keepsQueue {i : Instr} {c : Fin 4} {op : CoreOp} (hi : coreOpOf i = some (c, op)) : op.KeepsQueue := by
  cases i <;> cases hi
  case div | divs => exact divOp_keepsQueue
  case ldb | ldbs | ldw | ldp | ldwPost | ldpPost => exact loadOp_keepsQueue
  case stb | stw | stp | stwPost | stpPost => exact storeOp_keepsQueue
  case b | reti | wait | pair | mfs | evqW5Read => exact fun c x => x.modCore_command c _
  case trap => exact fun c x => .refl _ _
  case call => exact fun c x => x.coreCall_touches c _
  case mts | segAttrCommit | swiSend | swiClr | startCmd => exact fun c x => (x.selPut_touch c _ _).command
  case jmp =>
    intro c x
    dsimp only [opJmp, flowOp]
    split
    · exact .refl _ _
    · exact x.modCore_command c _
  case callr =>
    intro c x
    dsimp only [opCallr, flowOp]
    split
    · exact .refl _ _
    · exact x.coreCall_touches c _
  case ret =>
    intro c x
    dsimp only [opRet, flowOp]
    split
    · exact .refl _ _
    · exact (x.modCore_command c _).onlyIf fun y => (y.coreCount_touch ..).command
  case rep =>
    intro c x
    dsimp only [opRep, flowOp]
    split
    · exact .refl _ _
    · split
      · exact x.modCore_command c _
      · exact x.modCore_command c _
  all_goals exact coreOp_keepsQueue

theorem State.coreRun_command (s : State) (c : Fin 4) {op : CoreOp} (hop : op.KeepsQueue) :
    onlyTouches commandParts s (s.coreRun c op) := s.coreRun_touch c op (hop c) (by decide)

theorem decodeOp_keepsQueue (c : Fin 4) (w : W32) : (decodeOp c w).KeepsQueue := by
  unfold decodeOp
  split
  · rename_i p hp
    obtain ⟨i, -, hi⟩ := Option.bind_eq_some_iff.mp hp
    exact coreOpOf_keepsQueue hi
  · exact fun _ x => .refl _ x

theorem State.coreFetch_touch (s : State) (c : Fin 4) : onlyTouches commandParts s (s.coreFetch c) :=
  s.coreStep_touch c _ (fun _ _ => decodeOp_keepsQueue c _ c) (by decide)

theorem State.repeatRow_touch (s : State) (c : Fin 4) : onlyTouches commandParts s (s.repeatRow c) :=
  onlyTouches.ite (s.coreFetch_touch c) (.refl _ _)

theorem State.tagRecordRow_touch (s : State) (c : Fin 4) : onlyTouches commandParts s (s.tagRecordRow c) :=
  onlyTouches.ite (s.coreFetch_touch c) (.refl _ _)

/-! ### Every command -/

/-- A command that stops beyond the ratings where `p` holds goes on elsewhere. -/
theorem command_of_ite_fault {p : Prop} [Decidable p] {s t u : State} {f : Fault} (h : onlyTouches commandParts s u)
    (e : (if p then .fault f else .next u : Host.Outcome State Fault Refusal) = .next t) : onlyTouches commandParts s t := by
  split at e
  · cases e
  · cases e
    exact h

/-- A command that is no instruction of a control core: what each of them does. -/
theorem exec_command_of_block {i : Instr} {s t : State} (hblock : coreOpOf i = none) (e : exec i s = .next t) :
    onlyTouches commandParts s t := by
  cases i <;> cases hblock
  -- Stops beyond the ratings, and commands of more than one operation
  case bankRecover => exact command_of_ite_fault (State.bankRecover_touch ..).command e
  case sensorCopy => exact command_of_ite_fault (State.sensorCopy_touch ..).command e
  case vbkChange => exact command_of_ite_fault (State.vbkChange_touch ..).command e
  all_goals obtain rfl := Host.Outcome.next.inj e
  case hsOff =>
    exact onlyTouches.ite (State.deliver_command fun _ => State.hsOffCmd_touch ..)
      (State.storeIf_command fun _ => State.hsCmdWrite_touch ..)
  case lampOn =>
    exact State.storeIf_command fun _ => (State.modLs_touch ..).command.step (State.lsCmdWrite_touch ..).command
  case stop => exact State.storeIf_command fun _ => (State.lcRes_touch ..).command.step (State.lcStop_touch ..).command
  case returnStream => exact onlyTouches.ite (State.lcReturnBegin_touch ..).command (State.lcReturn_touch ..).command
  case rstnAssert => exact onlyTouches.ite (State.rstnAssert_touch ..).command (.refl _ _)
  case rstnRelease => exact (State.rstnRelease_touch ..).command.step (State.bootCheck_touch ..).command
  case orphanReclaim => exact State.storeIf_command State.orphanReclaim_touch
  -- The register fabric and the time base
  case registerWrite => exact (State.regWriteRow_touch ..).command
  case rcRead => exact (State.regReadRow_touch ..).command
  case controlPlaneReset => exact (State.cpResetRow_touch ..).command
  case lost => exact (State.pull_touch ..).command
  case tmbWrap => exact (State.tmbWrap_touch ..).command
  case tmbAlarm => exact (State.tmbAlarm_touch ..).command
  case timeLoRead | cycLoRead => exact (State.latchRow_touch ..).command
  case eventRecordMatch => exact (State.coreEvent_touch ..).command
  -- High-side channels
  case hsEnSet | hsEnClear => exact State.storeIf_command fun _ => State.hsCtlWrite_touch ..
  case hsClear => exact State.storeIf_command fun _ => State.hsCmdWrite_touch ..
  case hsAllOff => exact State.storeIf_command fun _ => State.hsAllOff_touch ..
  case hsRequestQueued => exact (State.hsEntryRow_touch ..).command
  case hsGrant => exact State.deliver_command fun _ => State.hsGrantArrives_touch ..
  case hsDrop => exact State.deliver_command fun _ => State.hsDrop_touch ..
  case envStep => exact (State.hsEnvStep_touch ..).command
  case overCurrent => exact (State.hsOverCurrent_touch ..).command
  case shortCircuit => exact (State.hsShort_touch ..).command
  case thermalLatchSet => exact (State.hsThermalSet_touch ..).command
  case thermalLatchClear => exact (State.hsThermalClear_touch ..).command
  case bankUnderVoltage => exact (State.bankUv_touch ..).command
  case retryTimerExpiry => exact (State.hsRetryExpiry_touch ..).command
  case healExpiry => exact (State.hsHeal_touch ..).command
  case envCfgWrite => exact State.storeIf_command fun _ => State.hsEnvWrite_touch ..
  case envCopyDone => exact (State.hsEnvDone_touch ..).command
  case uvCfgWrite => exact State.storeIf_command fun _ => State.uvCfgWrite_touch ..
  case orphanExpiry => exact (State.orphanDue_touch ..).command
  case clampBegin => exact (State.clampBegin_touch ..).command
  case clampEnd => exact (State.clampEndRow_touch ..).command
  case clampTimeout => exact (State.clampTimeout_touch ..).command
  -- Digitisers and estimators
  case digitiserSample => exact (State.sampleRow_touch ..).command
  case msMeanSend => exact (State.msSend_touch ..).command
  case padVoltageSample => exact (State.padSample_touch ..).command
  case measZero => exact State.storeIf_command fun _ => State.zeroCmd_touch ..
  case zeroDone => exact (State.zeroDone_touch ..).command
  case snap | gtrig => exact State.storeIf_command fun _ => State.snapCmd_touch ..
  case snapLatch => exact (State.snapLatch_touch ..).command
  case captureArm => exact State.storeIf_command fun _ => State.capArm_touch ..
  case captureDisarm => exact State.storeIf_command fun _ => State.capDisarm_touch ..
  case captureTrig => exact State.storeIf_command fun _ => State.capTrig_touch ..
  case captureBurstWrite => exact (State.capBurst_touch ..).command
  case settleTimeout => exact (State.settleTimeout_touch ..).command
  case steadyPeriodClose => exact (State.steadyClose_touch ..).command
  case trendUpdate => exact (State.trendUpdate_touch ..).command
  case trReset => exact State.storeIf_command fun _ => State.trReset_touch ..
  case trendLongWrite => exact State.storeIf_command fun _ => State.trLong_touch ..
  case curveEntryWrite => exact State.store_command fun _ => State.curveWrite_touch ..
  -- Admission
  case admReq | admCancel | admRelease => exact State.store_command fun _ => State.admStore_touch ..
  case admTick | binRetire => exact (State.admTickFrom_touch ..).command
  case deadlineExpiry => exact (State.deadlineTick_touch ..).command
  case siteLimWrite => exact State.storeIf_command fun _ => State.siteLimWrite_touch ..
  case siteStale => exact (State.siteStaleTick_touch ..).command
  case sensorStale => exact (State.sensorStaleTick_touch ..).command
  case heaterCfgWrite => exact State.storeIf_command fun _ => State.slotCfgWrite_touch ..
  case heaterPeriodStart => exact (State.periodTick_touch ..).command
  case heaterWindowEnd => exact (State.windowTick_touch ..).command
  -- Valves
  case valveEnSet | valveEnClear => exact State.storeIf_command fun _ => State.vdCtlWrite_touch ..
  case valveOn | valveOff | valveClear => exact State.storeIf_command fun _ => State.vdCmdWrite_touch ..
  case deferLeave => exact (State.deferLeave_touch ..).command
  case deferTimeout => exact (State.deferTimeout_touch ..).command
  case valveGrant => exact State.deliver_command fun _ => State.vdGrantArrives_touch ..
  case valveDrop => exact State.deliver_command fun _ => State.vdDrop_touch ..
  case peakEnd => exact (State.vdPeakEnd_touch ..).command
  case valveClaimRelease => exact (State.vdClaimSettle_touch ..).command
  case holdEnd => exact (State.vdHoldEnd_touch ..).command
  case decayComplete => exact (State.vdDecayComplete_touch ..).command
  case decayTimeout => exact (State.vdDecayTimeout_touch ..).command
  case gapEnd => exact (State.vdGapEnd_touch ..).command
  case valveShortCircuit => exact (State.vdShort_touch ..).command
  case valveOpenLoad => exact (State.vdOpen_touch ..).command
  case groupOverCurrent => exact (State.groupOc_touch ..).command
  case groupShortCircuit => exact (State.groupSc_touch ..).command
  case groupThermalLatch => exact (State.groupThermal_touch ..).command
  case gswFail => exact (State.gswFail_touch ..).command
  case groupSwitchReady => exact (State.gswReady_touch ..).command
  case groupSwitchOff => exact (State.gswOff_touch ..).command
  case offAll => exact State.storeIf_command fun _ => State.vgOffAll_touch ..
  case groupClear => exact State.storeIf_command fun _ => State.vgClear_touch ..
  case valveProfWrite => exact State.storeIf_command fun _ => State.vdProfWrite_touch ..
  case profileCopyDone => exact (State.vdProfDone_touch ..).command
  -- Lamps
  case lampEnSet | lampEnClear => exact State.storeIf_command fun _ => State.lsCtlWrite_touch ..
  case lampOff | lampClear | segClr => exact State.storeIf_command fun _ => State.lsCmdWrite_touch ..
  case lampGrant => exact State.deliver_command fun _ => State.lsGrantArrives_touch ..
  case lampDrop => exact State.deliver_command fun _ => State.lsDrop_touch ..
  case rampComplete => exact (State.lsRampEnd_touch ..).command
  case lampFrameStart => exact (State.lsFrame_touch ..).command
  case segmentJudge => exact (State.lsJudge_touch ..).command
  case segOpen => exact (State.lsSegOpen_touch ..).command
  case sShort => exact (State.lsShort_touch ..).command
  case sOpen => exact (State.lsOpen_touch ..).command
  case stringSat => exact (State.lsSat_touch ..).command
  case stringThermal => exact (State.lsThermal_touch ..).command
  case lampPerWrite => exact State.storeIf_command fun _ => State.lmpPerWrite_touch ..
  case dimWrite => exact State.storeIf_command fun _ => State.lsDimWrite_touch ..
  case dimCopyDone => exact (State.lsDimDone_touch ..).command
  -- Chains
  case go => exact State.storeIf_command fun _ => State.lcGo_touch ..
  case swap => exact State.storeIf_command fun _ => State.lcSwap_touch ..
  case abort => exact State.storeIf_command fun _ => State.lcAbort_touch ..
  case chainDisable => exact State.storeIf_command fun _ => State.lcCtlWrite_touch ..
  case globalGo | globalStop => exact State.storeIf_command fun _ => State.lchGlobal_touch ..
  case chainFrameWrite => exact State.storeIf_command fun _ => State.lcFrameWrite_touch ..
  case chainBaseWrite => exact State.storeIf_command fun _ => State.lcBaseWrite_touch ..
  case chainFrameStart => exact (State.lcFrameStart_touch ..).command
  case chainFrameEnd => exact (State.lcFrameEnd_touch ..).command
  case echoTimeout => exact (State.lcEchoTimeout_touch ..).command
  case chainGlitch => exact (State.lcGlitch_touch ..).command
  -- Inputs and limp-home
  case siChange => exact (State.siSamples_touch ..).command
  case siPoll => exact (State.siPollAll_touch ..).command
  case vl3Low => exact (State.vl3Cross_touch ..).command
  case dinChange => exact (State.dinChange_touch ..).command
  case routedOffRepeat => exact (State.routedRepeat_touch ..).command
  case limpPadChange => exact (State.limpPad_touch ..).command
  case lmapWrite => exact State.store_command fun _ => State.lmapWrite_touch ..
  case commit | reload => exact State.store_command fun _ => State.lmapCmd_touch ..
  case lmapDone => exact (State.lmapDone_touch ..).command
  case ainConversion => exact (State.ainConv_touch ..).command
  case vsensEnable => exact State.store_command fun _ => State.ainCtlWrite_touch ..
  case vsensFault => exact (State.vsensTrip_touch ..).command
  -- Core rows without a word of their own
  case repeatIteration => exact (State.repeatRow_touch ..).command
  case waitResume => exact (State.waitResume_touch ..).command
  case interruptEntry => exact (State.intAccept_touch ..).command
  -- Queues, counters and tags
  case queuePush => exact State.store_command fun _ => State.queFwPush_touch ..
  case queuePop => exact (State.quePopRow_touch ..).command
  case queueFlush => exact (State.queFlushRow_touch ..).command
  case queueCfgWrite => exact State.store_command fun _ => State.queCfgWrite_touch ..
  case queueIdleTimeout => exact (State.queIdle_touch ..).command
  case pmcDump => exact (State.pmcDump_touch ..).command
  case dumpNow | clearAll | dumpRingWrite => exact State.store_command fun _ => State.pmcWrite_touch ..
  case dumpWriteDone => exact (State.dumpDone_touch ..).command
  case cntOvf => exact (State.cntOvf_touch ..).command
  case tagEnable => exact State.store_command fun _ => State.modTag_touch ..
  case tagSelect => exact (State.tagSelectRow_touch ..).command
  case tagRecord => exact (State.tagRecordRow_touch ..).command
  -- CAN and network management
  case canModeWrite => exact State.storeIf_command fun _ => State.canCtlWrite_touch ..
  case canIntegrated => exact (State.canIntegrated_touch ..).command
  case canTimingWrite => exact State.storeIf_command fun _ => State.canTiming_touch ..
  case req => exact State.storeIf_command fun _ => State.canReq_touch ..
  case canAbort => exact State.storeIf_command fun _ => State.canAbort_touch ..
  case abortAll => exact State.storeIf_command fun _ => State.canAbortAll_touch ..
  case snapObj => exact State.storeIf_command fun _ => State.canSnap_touch ..
  case clr => exact State.storeIf_command fun _ => State.canClr_touch ..
  case canArbitration => exact (State.canArbitrate_touch ..).command
  case canTxSuccess => exact (State.canTxSuccess_touch ..).command
  case canFrameReceived => exact (State.canReceive_touch ..).command
  case canError => exact (State.canError_touch ..).command
  case busOn => exact (State.canBusOn_touch ..).command
  case rel => exact State.storeIf_command fun _ => State.canRel_touch ..
  case queueFrameFlush => exact State.storeIf_command fun _ => State.canFlush_touch ..
  case forget => exact State.storeIf_command fun _ => State.canForget_touch ..
  case trxModeWrite => exact State.storeIf_command fun _ => State.trxWrite_touch ..
  case trxModeComplete => exact (State.trxComplete_touch ..).command
  case txdDom => exact (State.trxTxd_touch ..).command
  case vccUv => exact (State.trxFault_touch ..).command
  case wup => exact (State.trxWup_touch ..).command
  case biasTimeout => exact (State.trxBiasOff_touch ..).command
  case decodedFrame => exact (State.nmDecoded_touch ..).command
  case streakEnd => exact (State.nmStreakEnd_touch ..).command
  case nmEnable | nmDisable | needRise | needFall => exact State.storeIf_command fun _ => State.nmCtlWrite_touch ..
  case online => exact State.storeIf_command fun _ => State.nmOnline_touch ..
  case nsClr => exact State.storeIf_command fun _ => State.nmNsClr_touch ..
  case tKaExpiry => exact (State.nmKaExpiry_touch ..).command
  case keepaliveDeferredSend => exact (State.nmDeferred_touch ..).command
  case tIdleExpiry => exact (State.nmIdleExpiry_touch ..).command
  case tFwExpiry => exact (State.nmFwExpiry_touch ..).command
  case prepSleepStage1Done => exact (State.nmStage1Done_touch ..).command
  -- Host port and plant link
  case hpTransactionStart => exact (State.hpStart_touch ..).command
  case hpTransactionEnd => exact (State.hpEnd_touch ..).command
  case hpNop | resend | ident | hpForget | ackRestart | hpForward => exact (State.hpTransaction_touch ..).command
  case hpResponseTake => exact (State.hpTake_touch ..).command
  case hpCsnWake => exact (State.hpCsnRow_touch ..).command
  case plkEnable | plkDisable => exact State.storeIf_command fun _ => State.plkCtlWrite_touch ..
  case txDb => exact State.storeIf_command fun _ => State.txLook_touch ..
  case rxDb => exact State.storeIf_command fun _ => State.rxLook_touch ..
  case plkTxComplete => exact (State.plkTxDone_touch ..).command
  case plkFrameReceived => exact (State.plkReceive_touch ..).command
  case plcaChg => exact (State.plcaChange_touch ..).command
  -- Management
  case mgmtReset => exact (State.mgmtReset_touch ..).command
  case sensorSample => exact (State.sensorRow_touch ..).command
  case isoMeasure => exact (State.isoMeasure_touch ..).command
  case wdKick => exact State.storeIf_command fun _ => State.wdKick_touch ..
  case wdExpiry => exact (State.wdExpire_touch ..).command
  case wdWarn => exact (State.wdWarn_touch ..).command
  case wdHoldRelease => exact (State.wdHoldEnd_touch ..).command
  case deputyEvent => exact (State.depEvent_touch ..).command
  case logFlashWrite => exact (State.logFlash_touch ..).command
  case lifetimeSnapshot => exact (State.lifeSnapshot_touch ..).command
  case lifeTjSample => exact (State.lifeTj_touch ..).command
  case lifeRecompute => exact (State.lifeRecompute_touch ..).command
  case post => exact State.storeIf_command fun _ => State.mbxPost_touch ..
  case rspAck => exact State.storeIf_command fun _ => State.rspAck_touch ..
  case checkIn => exact (State.opCheckIn_touch ..).command
  case limpSet => exact (State.opLimpSet_touch ..).command
  case limpRelease => exact (State.opLimpRelease_touch ..).command
  case logWrite => exact (State.opLogWrite_touch ..).command
  case logRead => exact (State.opLogRead_touch ..).command
  case logFilter => exact (State.opLogFilter_touch ..).command
  case lifeRead => exact (State.opLifeRead_touch ..).command
  case trendRead => exact (State.opTrendRead_touch ..).command
  case tempLimit => exact (State.opTempLimit_touch ..).command
  case updBegin => exact (State.opUpdBegin_touch ..).command
  case updWrite => exact (State.opUpdWrite_touch ..).command
  case updVerify => exact (State.opUpdVerify_touch ..).command
  case updActivate => exact (State.opUpdActivate_touch ..).command
  case updAbort => exact (State.opUpdAbort_touch ..).command
  case updDone => exact (State.updDone_touch ..).command
  case keyRevoke => exact (State.opKeyRevoke_touch ..).command
  case dbgClose => exact (State.opDbgClose_touch ..).command
  case dbgLock => exact (State.opDbgLock_touch ..).command
  case trialTimeout => exact (State.trialTimeout_touch ..).command
  -- Power states and reset
  case pwrRequest => exact State.store_command fun _ => State.pwrRequest_touch ..
  case qtmoTimeout => exact (State.qtmoTimeout_touch ..).command
  case stageAnswer => exact (State.stageAnswer_touch ..).command
  case stageTimeout => exact (State.stageTimeout_touch ..).command
  case wakeRequest => exact (State.wakeRow_touch ..).command
  case wakePad => exact (State.wakePad_touch ..).command
  case returnStepReady => exact (State.stepReady_touch ..).command
  case returnStepTimeout => exact (State.stepTimeout_touch ..).command
  case bulkInitDone => exact (State.bulkDone_touch ..).command
  case holdRel => exact State.store_command fun _ => State.holdRelease_touch ..
  case mainsChange => exact (State.mainsChange_touch ..).command
  case sourceChange => exact (State.sourceChange_touch ..).command
  case busBrownOut => exact (State.brownOut_touch ..).command
  case powerOnReset => exact (State.powerOnReset_touch ..).command
  case trimLock => exact (State.trimLock_touch ..).command
  case bootCheck => exact (State.bootCheck_touch ..).command
  -- Latch releases and messages of ADM
  case arbitrationLost => exact (State.canArbLost_touch ..).command
  case stringThermalLatchClear => exact (State.lsThermalClear_touch ..).command
  case groupThermalLatchClear => exact (State.groupThermalClear_touch ..).command
  case valveQueueMessage => exact State.deliver_command fun _ => State.vdEntry_touch ..
  case lampQueueMessage => exact State.deliver_command fun _ => State.lsEntry_touch ..

/-- An instruction of a control core runs its word. -/
theorem exec_command {i : Instr} {s t : State} (e : exec i s = .next t) : onlyTouches commandParts s t := by
  rcases hop : coreOpOf i with _ | ⟨c, op⟩
  · exact exec_command_of_block hop e
  · rw [exec_of_coreOpOf hop] at e
    obtain rfl := Host.Outcome.next.inj e
    exact s.coreRun_command c (coreOpOf_keepsQueue hop)

/-! ### The commands of one cycle (R53, R221, R258, R451, R497, R520, R586) -/

section
variable (rank : Instr → Nat)

/-- Of the commands of one cycle, each comes before those of a higher rank. -/
abbrev Ranked (l : List Instr) : Prop := l.Pairwise fun i j => rank i ≤ rank j

theorem insertRank_perm (i : Instr) (l : List Instr) : (insertRank rank i l).Perm (i :: l) := by
  induction l with
  | nil => exact .refl _
  | cons j r ih =>
    unfold insertRank
    split
    · exact .refl _
    · exact (ih.cons j).trans (.swap i j r)

theorem insertRank_ranked {i : Instr} {l : List Instr} (h : Ranked rank l) : Ranked rank (insertRank rank i l) := by
  induction l with
  | nil => exact List.pairwise_singleton _ _
  | cons j r ih =>
    obtain ⟨hj, hr⟩ := List.pairwise_cons.mp h
    unfold insertRank
    split
    next hle =>
      refine List.pairwise_cons.mpr ⟨fun k hk => ?_, h⟩
      rcases List.mem_cons.mp hk with rfl | hk
      · exact hle
      · exact hle.trans (hj k hk)
    next hgt =>
      refine List.pairwise_cons.mpr ⟨fun k hk => ?_, ih hr⟩
      rcases List.mem_cons.mp ((insertRank_perm rank i r).mem_iff.mp hk) with rfl | hk
      · omega
      · exact hj k hk

/-- A command goes before those of its rank: of each rank the order of arrival is kept. -/
theorem insertRank_filter (i : Instr) (l : List Instr) (k : Nat) :
    (insertRank rank i l).filter (fun j => rank j == k) = (i :: l).filter (fun j => rank j == k) := by
  induction l with
  | nil => rfl
  | cons j r ih =>
    unfold insertRank
    split
    · rfl
    next hgt =>
      rw [List.filter_cons, ih]
      by_cases hi : rank i = k
      · have hj : rank j ≠ k := by omega
        simp [hi, hj]
      · simp [List.filter_cons, hi]

theorem cycleOrder_perm (cs : List Instr) : (cycleOrder rank cs).Perm cs := by
  induction cs with
  | nil => exact .refl _
  | cons i r ih => exact (insertRank_perm rank i _).trans (ih.cons i)

theorem cycleOrder_ranked (cs : List Instr) : Ranked rank (cycleOrder rank cs) := by
  induction cs with
  | nil => exact List.Pairwise.nil
  | cons i r ih => exact insertRank_ranked rank ih

theorem cycleOrder_filter (cs : List Instr) (k : Nat) :
    (cycleOrder rank cs).filter (fun i => rank i == k) = cs.filter (fun i => rank i == k) := by
  induction cs with
  | nil => rfl
  | cons i r ih =>
    rw [cycleOrder, insertRank_filter, List.filter_cons, List.filter_cons, ih]

end

/-- Settles O2: `exec_command` for the 320 commands, and the stable order of `cycleOrder` for those of one cycle. -/
theorem everyCommandKeepsQueueAndCalibration : Obligations.EveryCommandKeepsQueueAndCalibration := by
  unfold Obligations.EveryCommandKeepsQueueAndCalibration
  refine ⟨fun i s t e => ?_, fun s u cs => ?_, fun c b n x y z p q r => rfl⟩
  · have k := exec_command e
    exact ⟨k.same .pending (by decide), k.same .otp (by decide)⟩
  · exact ⟨cycleOrder u.rank cs, rfl, cycleOrder_perm u.rank cs, cycleOrder_ranked u.rank cs, cycleOrder_filter u.rank cs⟩

end Sys2Proof.Machine
/-! ## Digitisers and time: what a move of device time leaves of the power controller (R113, R580, R591)

While time moves on, only a wake request of the event source can reach the power controller. -/

namespace Sys2Proof.Machine

open Claims

/-! ### What a wake of the event source leaves, the move of time leaves -/

section
variable {β : Type} {view : Pwr → β} (hwake : ∀ x : State, view (x.wakeReq 12).pwr = view x.pwr) (s : State)
include hwake

theorem State.hubTake_pwr_view (r : EvRec) : view (s.hubTake r).pwr = view s.pwr := by
  have hcount : ∀ (x : State) (b : Bool), ((x.fabCount 0x07 0 1).onlyIf b fun y => y.fabCount 0x08 0 1).pwr = x.pwr :=
    fun x b => (onlyTouches.onlyIf (x.fabCount_touch 0x07 0 1) fun y => y.fabCount_touch 0x08 0 1).same .pwr (by decide)
  have hmaybe : ∀ (x : State) (b : Bool), view (x.onlyIf b fun y => y.wakeReq 12).pwr = view x.pwr := fun x b => by
    cases b
    · rfl
    · exact hwake x
  unfold State.hubTake
  simp only [hmaybe, hcount]

theorem State.pull_pwr_view (i : Nat) : view (s.pull i).pwr = view s.pwr := by
  unfold State.pull
  split
  · rfl
  · split
    · exact State.hubTake_pwr_view hwake _ _
    · rfl

theorem State.pullAll_pwr_view (i k : Nat) : view (State.pullAll i k s).pwr = view s.pwr := by
  induction k generalizing s with
  | zero => rfl
  | succ k ih =>
    unfold State.pullAll
    split
    · exact (ih _).trans (s.pull_pwr_view hwake i)
    · rfl

theorem State.drain_pwr_view : view s.drain.pwr = view s.pwr := by
  unfold State.drain
  generalize (List.range 72).filter (fun i => s.waits i) = l
  induction l generalizing s with
  | nil => rfl
  | cons i r ih => exact (ih _).trans (s.pullAll_pwr_view hwake i 9)

theorem State.emitWraps_pwr_view (l : List (Nat × Nat × Bool)) : view (State.emitWraps l s).pwr = view s.pwr := by
  induction l generalizing s with
  | nil => rfl
  | cons x r ih =>
    have hwrap : (s.pmcWrapAt x.1 x.2.1 x.2.2).pwr = s.pwr := (s.pmcWrapAt_touch ..).same .pwr (by decide)
    rw [State.emitWraps, ih, State.pullAll_pwr_view hwake, hwrap]

theorem State.pmcRun_pwr_view (us : Nat) : view (s.pmcRun us).pwr = view s.pwr := by
  unfold State.pmcRun
  rw [State.emitWraps_pwr_view hwake, State.modPmc_pwr]

theorem State.advanceTo_pwr_view (t : Nat) : view (s.advanceTo t).pwr = view s.pwr := by
  have hlog : ∀ (x : State) (b : Bool), (x.onlyIf b State.logOwnFree).pwr = x.pwr := fun x b =>
    (onlyTouches.onlyIf (onlyTouches.refl [.dep, .nv, .free] x) fun y => y.logOwnFree_touch).same .pwr (by decide)
  have hupsets : s.drain.upsets.pwr = s.drain.pwr := s.drain.upsets_touch.same .pwr (by decide)
  unfold State.advanceTo
  split
  · simp only [hlog, State.modTmb_pwr, State.pmcRun_pwr_view hwake, hupsets, State.drain_pwr_view hwake]
  · rfl

end

/-- No event wakes the block from DEEP (R588). -/
theorem State.wakeReq_event_deep (s : State) : ((s.wakeReq 12).pwr.phase != .deep) = (s.pwr.phase != .deep) := by
  unfold State.wakeReq
  dsimp only
  split
  · cases hphase : s.pwr.phase <;> dsimp only
    case deep => simp [wakesIn, hphase]
    case sleep => rfl
    all_goals simp [hphase, apply_ite State.pwr, apply_ite Pwr.phase]
  · rfl

variable (s : State)

@[simp] theorem State.advanceTo_digRuns (t x : Nat) : (s.advanceTo t).digRuns x = s.digRuns x := by
  rw [State.digRuns, State.digRuns, State.advanceTo_isUp,
    State.advanceTo_pwr_view (view := fun p => p.phase != .deep) State.wakeReq_event_deep]

@[simp] theorem State.advanceTo_isStopped (t g : Nat) : (s.advanceTo t).isStopped g = s.isStopped g := by
  rw [State.isStopped, State.isStopped,
    State.advanceTo_pwr_view (view := Pwr.stopped) fun x => State.wakeReq_stopped (s := x) 12]

/-! ### What the accounts of an access leave of the digitisers -/

theorem onlyTouches.digRuns_eq {ps : List Part} {s t : State} (k : onlyTouches ps s t) (hup : Part.up ∉ ps)
    (hpwr : Part.pwr ∉ ps) (x : Nat) : t.digRuns x = s.digRuns x := by
  rw [State.digRuns, State.digRuns, k.isUp_eq hup, (k.same .pwr hpwr : t.pwr = s.pwr)]

@[simp] theorem State.served_digRuns (c : Fin 4) (x : Nat) : (s.served c).digRuns x = s.digRuns x :=
  (s.served_touch c).digRuns_eq (by decide) (by decide) x

@[simp] theorem State.served_zeroOk (c : Fin 4) (x : Nat) : (s.served c).zeroOk x = s.zeroOk x := by
  simp [State.zeroOk]

@[simp] theorem State.served_bulkOk (c : Fin 4) : (s.served c).bulkOk = s.bulkOk := by
  simp [State.bulkOk, State.isUp_congr s (State.served_up s c)]

end Sys2Proof.Machine
/-! ## Snaps and captures (R126 to R133) -/

namespace Sys2Proof.Machine

open Claims

/-- The parts that a store into a digitiser's block may change. -/
abbrev digRowParts : List Part := [.fab, .answer, .dig, .pmc, .free]

/-- A store row into a digitiser's block that changes that digitiser alone, by `g`, and nothing else. -/
theorem fires_digRow {s : State} {i : Instr} {c : Fin 4} {isl : Nat} {x : Fin 67} {f : State → State} {g : Dig → Dig}
    {P : State → Prop} (hexec : exec i s = .next (s.storeIf c isl 9 f)) (hcan : canStore s isl 9)
    (htouch : ∀ y, onlyTouches [.dig] y (f y)) (hdig : (f (s.served c)).dig = upd (s.served c).dig x g)
    (hP : ∀ t, t.dig[x] = g s.dig[x] → onlyAt x s.dig t.dig → t.answer = .done → onlyTouches digRowParts s t → P t) :
    fires i s P := by
  refine fires_storeIf (ps := digRowParts) hexec hcan (fun y => (htouch y).mono (by decide)) (by decide) fun t ht k => ?_
  have hchange : t.dig = upd s.dig x g := by rw [← ht, ← s.served_dig c]; exact hdig
  obtain ⟨hat, hothers⟩ := changed_at hchange
  exact hP t hat hothers (by rw [← ht]) k

section
variable (s : State) (x : Fin 67)

/-! ### Snap and global trigger -/

/-- The request reaches the digitisers that run, and T_s is set. -/
theorem State.snapCmd_at {snap gtrig : Bool} (hcmd : (snap || gtrig) = true) :
    (s.snapCmd snap gtrig).meas = { s.meas with snapTime := s.now + s.meas.delay } ∧
    (s.snapCmd snap gtrig).dig[x] = if s.digRuns x.val then
      { s.dig[x] with snapReq := some (s.now + s.meas.delay, snap, gtrig) } else s.dig[x] := by
  let start : State := { s with meas := { s.meas with snapTime := s.now + s.meas.delay } }
  have hturn : ∀ (j : Fin 67) (y : State), onlyTouches [.dig] y (y.onlyIf (y.digRuns j.val) fun y =>
      y.modDig j fun d => { d with snapReq := some (s.now + s.meas.delay, snap, gtrig) }) := fun j y =>
    (onlyTouches.refl _ y).onlyIf fun z => z.modDig_touch j _
  have hloop := onlyTouches.forFin (.refl _ start) hturn
  obtain ⟨y, hy, hbefore, hafter⟩ := forFin_at (fun y => y.dig[x]) hturn (fun j y hj => by
    cases y.digRuns j.val
    · rfl
    · exact upd_get_ne y.dig j x _ hj.symm) start
  have hruns : y.digRuns x.val = s.digRuns x.val := hy.digRuns_eq (by decide) (by decide) x.val
  simp only [State.snapCmd, hcmd, if_true]
  refine ⟨hloop.same .meas (by decide), hafter.trans ?_⟩
  rw [← show y.dig[x] = s.dig[x] from hbefore, ← hruns]
  cases y.digRuns x.val
  · rfl
  · exact upd_get y.dig x _

/-- The digitiser at T_s: the request is taken, and the mean of its last samples copied for a snap. -/
def Dig.snapped (d : Dig) (snap late : Bool) : Dig :=
  if snap then
    { d with snapReq := none, snap := roundDiv (d.last.foldl (· + ·) 0) d.last.length, snapLate := late }
  else { d with snapReq := none }

/-- The digitiser after a trigger of kind `trg` while MEAS runs as `go` says (R129, R580). -/
def Dig.triggered (d : Dig) (go : Bool) (trg : Nat) : Dig :=
  if go && d.cap.st == .armed && d.cap.trg = trg then { d with cap := { d.cap with trig := true } } else d

/-- The digitiser at T_s of a snap, a global trigger, or both. -/
def Dig.latched (d : Dig) (snap gtrig late go : Bool) : Dig :=
  if gtrig then (d.snapped snap late).triggered go 6 else d.snapped snap late

/-- Beside its snap only its capture can differ. -/
theorem Dig.latched_eq (d : Dig) (snap gtrig late go : Bool) :
    ∃ cap, d.latched snap gtrig late go = { d.snapped snap late with cap := cap } := by
  unfold Dig.latched Dig.triggered
  repeat' split
  all_goals exact ⟨_, rfl⟩

theorem Dig.latched_trig {d : Dig} (snap late : Bool) (hst : d.cap.st = .armed) (htrg : d.cap.trg = 6) :
    (d.latched snap true late true).cap.trig = true := by
  have hcap : (d.snapped snap late).cap = d.cap := by cases snap <;> rfl
  simp [Dig.latched, Dig.triggered, hcap, hst, htrg]

theorem State.snapLatch_runs {ts : Nat} {snap gtrig : Bool} (late : Bool) (hreq : s.dig[x].snapReq = some (ts, snap, gtrig))
    (hruns : s.digRuns x.val = true) :
    s.snapLatch x late = ((s.advanceTo ts).modDig x fun d => d.snapped snap late).onlyIf gtrig fun s =>
      s.modDig x fun d => d.triggered (!s.isStopped 9) 6 := by
  simp only [State.snapLatch, hreq, State.advanceTo_digRuns, hruns, if_true]
  rfl

theorem State.snapLatch_idle (late : Bool) (hreq : s.dig[x].snapReq = none) : s.snapLatch x late = s := by
  simp only [State.snapLatch, hreq]

theorem State.snapLatch_dig {ts : Nat} {snap gtrig : Bool} (late : Bool)
    (hreq : s.dig[x].snapReq = some (ts, snap, gtrig)) (hruns : s.digRuns x.val = true) :
    (s.snapLatch x late).dig = upd s.dig x fun d => d.latched snap gtrig late !s.isStopped 9 := by
  rw [s.snapLatch_runs x late hreq hruns]
  have hstopped : ((s.advanceTo ts).modDig x fun d => d.snapped snap late).isStopped 9 = s.isStopped 9 :=
    s.advanceTo_isStopped ts 9
  cases gtrig <;> simp [hstopped, Dig.latched]

end

theorem fires_snapCmd {s : State} {i : Instr} {c : Fin 4} {snap gtrig : Bool} (hcmd : (snap || gtrig) = true)
    (hexec : exec i s = .next (s.storeIf c 2 9 fun s => s.snapCmd snap gtrig)) (hcan : canStore s 2 9) :
    fires i s fun t =>
      t.meas.snapTime = s.now + s.meas.delay ∧
      (∀ x : Fin 67, t.dig[x] = (if s.digRuns x.val then
        { s.dig[x] with snapReq := some (s.now + s.meas.delay, snap, gtrig) } else s.dig[x])) ∧
      t.answer = .done ∧ onlyTouches [.fab, .answer, .dig, .meas, .pmc, .free] s t := by
  refine fires_storeIf (ps := [.fab, .answer, .dig, .meas, .pmc, .free]) hexec hcan
    (fun y => (y.snapCmd_touch snap gtrig).mono (by decide)) (by decide) fun t ht k => ?_
  subst ht
  have hat := fun x => State.snapCmd_at (s.served c) x hcmd
  simp only [State.served_now, State.served_meas, State.served_digRuns, State.served_dig] at hat
  exact ⟨congrArg MeasC.snapTime (hat 0).1, fun x => (hat x).2, rfl, k⟩

end Sys2Proof.Machine
/-! ## Captures: arming, triggering, ending, bursts to bulk memory (R128 to R133) -/

namespace Sys2Proof.Machine

open Claims

/-! ### Bytes of memory -/

section
variable {m : List Host.Cell}

theorem memLoad_lt (m : List Host.Cell) (a n : Nat) : memLoad m a n < 256 ^ n := by
  induction n generalizing a with
  | zero => exact Nat.one_pos
  | succ n ih =>
    have hbyte : (memGet m a).toNat < 256 := (memGet m a).isLt
    have hrest := ih (a + 1)
    rw [memLoad, Nat.pow_succ]
    omega

/-- Four bytes are two 16-bit halves, the low one first. -/
theorem memLoad_four (m : List Host.Cell) (a : Nat) : memLoad m a 4 = memLoad m a 2 + 65536 * memLoad m (a + 2) 2 := by
  simp only [memLoad, Nat.add_assoc, Nat.reduceAdd]
  omega

theorem memLoad_congr {m' : List Host.Cell} {a n : Nat} (h : ∀ b, a ≤ b → b < a + n → memGet m' b = memGet m b) :
    memLoad m' a n = memLoad m a n := by
  induction n generalizing a with
  | zero => rfl
  | succ n ih =>
    rw [memLoad, memLoad, h a (by omega) (by omega), ih fun b hlo hhi => h b (by omega) (by omega)]

/-- A stored 32-bit word reads back as its two halves. -/
theorem memLoad_halves (hm : Memory.wf m) (a : Nat) (lo hi : W16) :
    memLoad (memStore m a (lo.toNat + 65536 * hi.toNat) 4) a 2 = lo.toNat ∧
      memLoad (memStore m a (lo.toNat + 65536 * hi.toNat) 4) (a + 2) 2 = hi.toNat := by
  have hword := memLoad_memStore 4 a (lo.toNat + 65536 * hi.toNat) hm
  have hlow := memLoad_lt (memStore m a (lo.toNat + 65536 * hi.toNat) 4) a 2
  have := lo.isLt
  have := hi.isLt
  rw [memLoad_four] at hword
  omega

end

/-! ### Records in bulk memory -/

/-- A 32-bit store checks nothing: it replaces the word (R39). -/
theorem State.storeBytes_word_mem (s : State) (a v : Nat) (req : Req) :
    (s.storeBytes a v 4 req).2.mem = memStore s.mem a v 4 := by
  have hcount : (s.bulkCount a req).mem = s.mem := (s.bulkCount_touch a req).same .mem (by decide)
  simp [State.storeBytes, hcount]

section
variable {l : List W16} {a : Nat} {s : State} (hm : Memory.wf s.mem) (heven : l.length % 2 = 0)
include hm heven

/-- An even number of records is stored in words, and no byte outside them changes. -/
theorem State.storeRecs_outside {b : Nat} (hb : b < a ∨ a + 2 * l.length ≤ b) :
    memGet (State.storeRecs a l s).mem b = memGet s.mem b := by
  induction a, l, s using State.storeRecs.induct with
  | case1 a lo hi r s ih =>
    simp only [List.length_cons] at heven hb
    have hword := s.storeBytes_word_mem a (lo.toNat + 65536 * hi.toNat) 5
    rw [State.storeRecs, ih (s.storeBytes_wf _ _ _ _ hm) (by omega) (by omega), hword]
    rcases hb with hb | hb
    · exact memGet_memStore_of_lt 4 a _ b hm hb
    · exact memGet_memStore_of_ge 4 a _ b hm (by omega)
  | case2 a v s => exact absurd heven (by simp)
  | case3 a s => rfl

/-- Each record reads back little-endian where it was stored. -/
theorem State.storeRecs_reads {j : Nat} (hj : j < l.length) :
    memLoad (State.storeRecs a l s).mem (a + 2 * j) 2 = (l.getD j 0).toNat := by
  induction a, l, s using State.storeRecs.induct generalizing j with
  | case1 a lo hi r s ih =>
    simp only [List.length_cons] at heven hj
    have hwf := s.storeBytes_wf a (lo.toNat + 65536 * hi.toNat) 4 5 hm
    have hword := s.storeBytes_word_mem a (lo.toNat + 65536 * hi.toNat) 5
    have hkeeps : ∀ b, b < a + 4 → memGet (State.storeRecs a (lo :: hi :: r) s).mem b =
        memGet (memStore s.mem a (lo.toNat + 65536 * hi.toNat) 4) b := fun b hb => by
      rw [State.storeRecs, State.storeRecs_outside hwf (by omega) (.inl hb), hword]
    obtain ⟨hlo, hhi⟩ := memLoad_halves hm a lo hi
    match j with
    | 0 => exact (memLoad_congr fun b _ hb => hkeeps b (by omega)).trans hlo
    | 1 => exact (memLoad_congr fun b _ hb => hkeeps b (by omega)).trans hhi
    | k + 2 =>
      have hnext : a + 2 * (k + 2) = a + 4 + 2 * k := by omega
      rw [State.storeRecs, hnext, ih hwf (by omega) (by omega)]
      rfl
  | case2 a v s => exact absurd heven (by simp)
  | case3 a s => exact absurd hj (by simp)

end

theorem upd_congr {α : Type} {n : Nat} {v : Vector α n} {i : Fin n} {f g : α → α} (h : f v[i] = g v[i]) :
    upd v i f = upd v i g := by
  rw [upd, upd, h]

/-! ### Arming, disarming, triggering -/

section
variable (s : State) (x : Fin 67)

@[simp] theorem State.capDone_dig : (s.capDone x).dig = s.dig := (s.capDone_touch x).same .dig (by decide)

@[simp] theorem State.capDone_mem : (s.capDone x).mem = s.mem := (s.capDone_touch x).same .mem (by decide)

/-- What ARM makes of a digitiser (R128, R133). -/
def Dig.arm (d : Dig) : Dig :=
  if d.cap.st = .running then { d with cmdRes := 2 }
  else if fld d.cap.len 0 16 ≤ fld d.cap.len 16 8 ∨ fld d.cap.addr 0 24 % 32 ≠ 0 ∨
      0x1000000 < fld d.cap.addr 0 24 + 2 * fld d.cap.len 0 16 then
    { d with cmdRes := 3, cap := { d.cap with st := .idle } }
  else
    { d with
      cmdRes := 0,
      cap := { d.cap with
        aCfg := d.cap.cfg, aAddr := d.cap.addr, aLen := d.cap.len, st := .armed, trunc := false, abort := false, preGot := 0,
        count := 0, trig := false, taken := 0, pre := [], buf := [], n := 0, sum := 0, clip := false } }

theorem State.capArm_dig : (s.capArm x).dig = upd s.dig x Dig.arm := by
  rw [State.capArm, State.modDig_dig]
  congr 1
  funext d
  have hlen : fld d.cap.len 0 16 = 0 → fld d.cap.len 0 16 ≤ fld d.cap.len 16 8 := by omega
  simp only [Dig.arm, beq_iff_eq, Bool.or_eq_true, decide_eq_true_eq, bne_iff_ne, or_assoc]
  congr 2
  simp only [eq_iff_iff]
  constructor
  · rintro (h | h)
    · exact .inl (hlen h)
    · exact h
  · exact .inr

/-- A capture of which `k` buffered records are written. -/
def Capture.written (c : Capture) (k : Nat) : Capture :=
  { c with buf := c.buf.drop k, count := c.count + (c.buf.take k).length }

/-- Where the next record of a capture goes (R130). -/
abbrev Capture.next (c : Capture) : Nat := bulkBase + fld c.aAddr 0 24 + 2 * c.count

theorem State.capWrite_dig (k : Nat) :
    (s.capWrite x k).dig = upd s.dig x fun d => { d with cap := d.cap.written k } := by
  have hstore : (State.storeRecs s.dig[x].cap.next (s.dig[x].cap.buf.take k) s).dig = s.dig :=
    (State.storeRecs_touch _ _ s).same .dig (by decide)
  simp only [State.capWrite, State.modDig_dig, hstore]
  exact upd_congr rfl

theorem State.capWrite_mem (k : Nat) :
    (s.capWrite x k).mem = (State.storeRecs s.dig[x].cap.next (s.dig[x].cap.buf.take k) s).mem := rfl

/-- What DISARM makes of a digitiser, the records written first where bulk memory answers (R133). -/
def Dig.disarm (d : Dig) (bulk : Bool) : Dig :=
  match d.cap.st with
  | .armed => { d with cmdRes := 0, cap := { d.cap with st := .idle, trig := false, pre := [] } }
  | .running =>
    { d with
      cmdRes := 0,
      cap := { (if bulk then d.cap.written 256 else d.cap) with st := .done, abort := true, buf := [] } }
  | _ => { d with cmdRes := 0 }

theorem Dig.disarm_armed {d : Dig} (hst : d.cap.st = .armed) (bulk : Bool) :
    d.disarm bulk = { d with cmdRes := 0, cap := { d.cap with st := .idle, trig := false, pre := [] } } := by
  simp only [Dig.disarm, hst]

theorem Dig.disarm_running {d : Dig} (hst : d.cap.st = .running) (bulk : Bool) :
    d.disarm bulk =
      { d with
        cmdRes := 0,
        cap := { (if bulk then d.cap.written 256 else d.cap) with st := .done, abort := true, buf := [] } } := by
  simp only [Dig.disarm, hst]

theorem Dig.disarm_other {d : Dig} (harmed : d.cap.st ≠ .armed) (hrun : d.cap.st ≠ .running) (bulk : Bool) :
    d.disarm bulk = { d with cmdRes := 0 } := by
  cases hst : d.cap.st
  case armed => exact absurd hst harmed
  case running => exact absurd hst hrun
  all_goals simp only [Dig.disarm, hst]

theorem State.capDisarm_dig : (s.capDisarm x).dig = upd s.dig x fun d => d.disarm s.bulkOk := by
  unfold State.capDisarm
  dsimp only
  split
  next harmed =>
    rw [State.modDig_dig]
    refine upd_congr ?_
    rw [Dig.disarm_armed harmed]
  next hrun =>
    rw [State.capDone_dig, State.modDig_dig]
    cases s.bulkOk
    · simp only [Bool.false_eq_true, if_false]
      refine upd_congr ?_
      rw [Dig.disarm_running hrun]
      rfl
    · simp only [if_true, State.capWrite_dig, upd_upd]
      refine upd_congr ?_
      rw [Dig.disarm_running hrun]
      rfl
  next harmed hrun =>
    rw [State.modDig_dig]
    refine upd_congr ?_
    rw [Dig.disarm_other harmed hrun]

/-- DISARM of a capture that does not run writes no record. -/
theorem State.capDisarm_mem (hst : s.dig[x].cap.st ≠ .running) : (s.capDisarm x).mem = s.mem := by
  unfold State.capDisarm
  dsimp only
  split
  · rfl
  · exact absurd ‹_› hst
  · rfl

theorem State.capTrig_dig :
    (s.capTrig x).dig = upd s.dig x fun d =>
      { d with cmdRes := 0, cap := { d.cap with trig := decide (d.cap.st = .armed) || d.cap.trig } } := by
  rw [State.capTrig, State.modDig_dig]
  congr 1
  funext d
  by_cases hst : d.cap.st = .armed <;> simp [hst]

/-! ### Bursts -/

/-- A capture after a burst: done when LEN records are written (R131). -/
def Capture.burst (c : Capture) : Capture :=
  { c.written 16 with st := if (c.written 16).lenN ≤ (c.written 16).count then .done else c.st }

theorem State.capBurst_runs (hbulk : s.bulkOk = true) (hst : s.dig[x].cap.st = .running)
    (hfull : 16 ≤ s.dig[x].cap.buf.length) :
    (s.capBurst x).dig = upd s.dig x (fun d => { d with cap := d.cap.burst }) ∧
      (s.capBurst x).mem = (s.capWrite x 16).mem := by
  have hat : (s.capWrite x 16).dig[x].cap = s.dig[x].cap.written 16 := by rw [State.capWrite_dig, upd_get]
  unfold State.capBurst
  simp only [hbulk, hst, hfull, decide_true, beq_self_eq_true, Bool.and_self, Bool.true_or, if_true, hat]
  split
  next hdone =>
    refine ⟨?_, by rw [State.capDone_mem, State.modDig_mem]⟩
    rw [State.capDone_dig, State.modDig_dig, State.capWrite_dig, upd_upd]
    refine upd_congr ?_
    rw [Capture.burst, if_pos hdone]
  next hmore =>
    refine ⟨?_, rfl⟩
    rw [State.capWrite_dig]
    refine upd_congr ?_
    rw [Capture.burst, if_neg hmore]
    rfl

theorem State.capBurst_idle
    (h : s.bulkOk = false ∨ s.dig[x].cap.st ≠ .running ∨ (s.dig[x].cap.buf.length < 16 ∧
      (s.dig[x].cap.taken < s.dig[x].cap.lenN ∨ s.dig[x].cap.buf = []))) : s.capBurst x = s := by
  unfold State.capBurst
  refine if_neg fun hacts => ?_
  simp only [Bool.and_eq_true, beq_iff_eq, Bool.or_eq_true, decide_eq_true_eq, Bool.not_eq_true',
    List.isEmpty_eq_false_iff] at hacts
  obtain ⟨⟨hbulk, hst⟩, hrecs⟩ := hacts
  rcases h with h | h | ⟨hfew, h⟩
  · exact nomatch h.symm.trans hbulk
  · exact h hst
  · rcases hrecs with hfull | ⟨hlast, hsome⟩
    · omega
    · rcases h with h | h
      · omega
      · exact hsome h

end

end Sys2Proof.Machine
namespace Sys2Proof.Machine

open Claims

theorem State.capBurst_memory {s : State} {x : Fin 67} (hm : Memory.wf s.mem) (hfull : 16 ≤ s.dig[x].cap.buf.length) :
    (∀ j : Fin 16, memLoad (s.capWrite x 16).mem (s.dig[x].cap.next + 2 * j.val) 2 =
      (s.dig[x].cap.buf.getD j.val 0).toNat) ∧
    ∀ a, a < s.dig[x].cap.next ∨ s.dig[x].cap.next + 32 ≤ a →
      memGet (s.capWrite x 16).mem a = memGet s.mem a := by
  have hlen : (s.dig[x].cap.buf.take 16).length = 16 := by rw [List.length_take]; omega
  rw [State.capWrite_mem]
  refine ⟨fun j => ?_, fun a ha => State.storeRecs_outside hm (by rw [hlen]) (by rwa [hlen])⟩
  have hj : j.val < (s.dig[x].cap.buf.take 16).length := by rw [hlen]; exact j.isLt
  rw [State.storeRecs_reads hm (by rw [hlen]) hj, List.getD_eq_getElem?_getD, List.getElem?_take_of_lt j.isLt,
    List.getD_eq_getElem?_getD]

/-- DISARM acts on its digitiser, and stores records of a capture that runs. -/
theorem fires_disarm {s : State} {c : Fin 4} {x : Fin 67} {P : State → Prop} (hcan : canStore s (islOf x.val) 9)
    (hP : ∀ t, t.dig[x] = s.dig[x].disarm s.bulkOk → (s.dig[x].cap.st ≠ .running → t.mem = s.mem) →
      onlyAt x s.dig t.dig → onlyTouches [.fab, .answer, .dig, .pwr, .sys, .mem, .ecc, .pmc, .free] s t → P t) :
    fires (.captureDisarm c x) s P := by
  refine fires_storeIf (ps := [.fab, .answer, .dig, .pwr, .sys, .mem, .ecc, .pmc, .free]) rfl hcan
    (fun y => (y.capDisarm_touch x).mono (by decide)) (by decide) fun t ht k => ?_
  subst ht
  have hdig := (s.served c).capDisarm_dig x
  rw [State.served_dig, State.served_bulkOk] at hdig
  obtain ⟨hat, hothers⟩ := changed_at hdig
  exact hP _ hat (fun hst => ((s.served c).capDisarm_mem x (by rwa [State.served_dig])).trans (s.served_mem c)) hothers k

/-- Settles O20, by what each command makes of its digitiser, and by the words that a burst stores. -/
theorem snapsLatchAndCapturesRecord : Obligations.SnapsLatchAndCapturesRecord := by
  unfold Obligations.SnapsLatchAndCapturesRecord
  refine ⟨?_, ?_, ?_, ?_, ?_, ?_, ?_, ?_, ?_, ?_, ?_, ?_⟩
  · exact fun s c hcan => fires_snapCmd rfl rfl hcan
  · exact fun s c also hcan => fires_snapCmd (Bool.or_true also) rfl hcan
  · intro s x late ts snap gtrig hruns htmb hreq
    obtain ⟨hat, hothers⟩ := changed_at (s.snapLatch_dig x late hreq hruns)
    have hnow : (s.snapLatch x late).now = max s.now ts := by
      rw [s.snapLatch_runs x late hreq hruns, ← s.advanceTo_now_max ts htmb]
      cases gtrig <;> rfl
    obtain ⟨cap, hcap⟩ := s.dig[x].latched_eq snap gtrig late !s.isStopped 9
    refine ⟨_, rfl, hnow, ?_, ?_, ?_, ?_, hothers, State.snapLatch_touch ..⟩
    all_goals rw [hat]
    · rw [hcap]
      cases snap <;> rfl
    · rintro rfl
      rw [hcap]
      exact ⟨rfl, rfl⟩
    · rintro rfl
      rw [hcap]
      rfl
    · rintro rfl hgo hst htrg
      rw [hgo]
      exact Dig.latched_trig snap late hst htrg
  · intro s c x hcan hidle hpre halign hfits
    refine fires_digRow rfl hcan (fun y => y.capArm_touch x) (State.capArm_dig _ x) fun t ht hothers _ k => ?_
    have harm : s.dig[x].arm = _ := (if_neg hidle).trans (if_neg (by omega))
    rw [ht, harm]
    exact ⟨rfl, rfl, rfl, rfl, rfl, rfl, rfl, rfl, hothers, k⟩
  · intro s c x hcan hidle hbad
    refine fires_digRow rfl hcan (fun y => y.capArm_touch x) (State.capArm_dig _ x) fun t ht hothers _ k => ?_
    have harm : s.dig[x].arm = _ := (if_neg hidle).trans (if_pos hbad)
    rw [ht, harm]
    exact ⟨rfl, rfl, hothers, k⟩
  · intro s c x hcan hrun
    refine fires_digRow rfl hcan (fun y => y.capArm_touch x) (State.capArm_dig _ x) fun t ht hothers _ k => ?_
    exact ⟨ht.trans (if_pos hrun), hothers, k⟩
  · intro s c x hcan hidle
    refine fires_disarm hcan fun t ht hmem hothers k => ?_
    rw [ht]
    refine ⟨?_, ?_, hmem hidle, hothers, k⟩
    · by_cases harmed : s.dig[x].cap.st = .armed
      · rw [Dig.disarm_armed harmed, if_pos harmed]
      · rw [Dig.disarm_other harmed hidle, if_neg harmed]
    · by_cases harmed : s.dig[x].cap.st = .armed
      · rw [Dig.disarm_armed harmed]
      · rw [Dig.disarm_other harmed hidle]
  · intro s c x hcan hrun
    refine fires_disarm hcan fun t ht _ hothers k => ?_
    rw [ht, Dig.disarm_running hrun]
    refine ⟨rfl, rfl, rfl, fun hbulk => ?_, hothers, k⟩
    rw [hbulk, if_pos rfl]
    exact congrArg (s.dig[x].cap.count + ·) List.length_take
  · intro s c x hcan
    refine fires_digRow rfl hcan (fun y => y.capTrig_touch x) (State.capTrig_dig _ x) fun t ht hothers _ k => ?_
    exact ⟨ht, hothers, k⟩
  · intro s x hcanon hbulk hst hfull
    obtain ⟨hdig, hmem⟩ := s.capBurst_runs x hbulk hst hfull
    obtain ⟨hat, hothers⟩ := changed_at hdig
    obtain ⟨hreads, houtside⟩ := State.capBurst_memory hcanon.1 hfull
    have htaken : (s.dig[x].cap.buf.take 16).length = 16 := by rw [List.length_take]; omega
    have hend : s.dig[x].cap.burst.st = if s.dig[x].cap.lenN ≤ s.dig[x].cap.count + (s.dig[x].cap.buf.take 16).length then
        .done else s.dig[x].cap.st := rfl
    rw [← hmem] at hreads houtside
    refine ⟨_, rfl, fun j => ?_, fun a ha => houtside a ha, ?_, ?_, ?_, hothers, State.capBurst_touch ..⟩
    · rw [Nat.mul_add, ← Nat.add_assoc]
      exact hreads j
    all_goals rw [hat]
    · exact congrArg (s.dig[x].cap.count + ·) htaken
    · rfl
    · exact hend.trans (by rw [htaken, hst])
  · exact fun s x late hreq => ⟨_, rfl, s.snapLatch_idle x late hreq⟩
  · exact fun s x h => ⟨_, rfl, s.capBurst_idle x h⟩

end Sys2Proof.Machine
/-! ## Samples of the digitisers, means, pad voltages, ZERO (R113 to R125) -/

namespace Sys2Proof.Machine

open Claims

section
variable (s : State) (x : Fin 67)

/-! ### One sample -/

theorem roundDiv_full_scale (k : Nat) : roundDiv k 16384 = (2 * k + 16384) / 32768 := by
  simp [roundDiv]

/-- A code is a 14-bit number (R114). -/
theorem Dig.cal_le (d : Dig) (raw tj : Int) : d.cal raw tj ≤ 16383 := by
  unfold Dig.cal clampI
  omega

theorem upd_map {α β : Type} {n : Nat} (v : Vector α n) (i : Fin n) {f : α → α} {g : α → β} (h : ∀ a, g (f a) = g a) :
    (upd v i f).map g = v.map g := by
  ext j hj
  simp only [Vector.getElem_map, upd_getElem]
  split
  · exact h _
  · rfl

/-- A temperature turns no switch on or off. -/
theorem State.setTj_swOf (tj : Int) (y : Nat) : (s.setTj x tj).swOf y = s.swOf y := by
  have hvd : (s.setTj x tj).vd = s.vd := (s.setTj_touch x tj).same .vd (by decide)
  have hhs : (s.setTj x tj).hs.map (fun h => hsOn h.st) = s.hs.map fun h => hsOn h.st := by
    unfold State.setTj
    split
    · exact upd_map _ _ fun _ => rfl
    · split <;> rfl
  have hls : (s.setTj x tj).ls.map (fun l => lsOn l.st) = s.ls.map fun l => lsOn l.st := by
    unfold State.setTj
    split
    · rfl
    · split
      · rfl
      · exact upd_map _ _ fun _ => rfl
  rw [State.swOf, State.swOf, hvd, hhs, hls]

/-- A sample publishes its code; beside that only a running ZERO and the capture take it in. -/
theorem State.sample_dig (raw tj : Int) : ∃ n q c, (s.sample x raw tj).dig =
    upd s.dig x fun d =>
      { d.publish s.now (fsOf x.val) (d.cal raw tj) (s.swOf x.val) with zeroN := n, zeroSum := q, cap := c } := by
  have hdig : (s.setTj x tj).dig = s.dig := (s.setTj_touch x tj).same .dig (by decide)
  have hnow : (s.setTj x tj).now = s.now := State.setTj_now s x tj
  unfold State.sample
  extract_lets s1 d code sw d1 d2 r s2
  have hd1 : d1 = s.dig[x].publish s.now (fsOf x.val) (s.dig[x].cal raw tj) (s.swOf x.val) := by
    simp only [d1, code, sw, d, s1, hdig, hnow, State.setTj_swOf]
  obtain ⟨n, q, hd2⟩ : ∃ n q, d2 = { d1 with zeroN := n, zeroSum := q } := by
    simp only [d2]
    split
    · exact ⟨_, _, rfl⟩
    · exact ⟨_, _, rfl⟩
  have hs2 : s2.dig = upd s.dig x fun _ => { d2 with cap := r.1 } := by rw [← hdig]; rfl
  refine ⟨n, q, r.1, ?_⟩
  rw [apply_ite State.dig, State.capDone_dig, ite_self, hs2]
  refine upd_congr ?_
  rw [hd2, hd1]

/-- The sample comes 20 us after the last one, and the estimators and valve channel that follow leave the digitiser. -/
theorem State.sampleRow_runs (raw tj : Int) (top : Nat) (hruns : s.digRuns x.val = true) :
    (s.sampleRow x raw tj top).now = (s.advanceTo (s.dig[x].at_ + 20)).now ∧
    (s.sampleRow x raw tj top).dig = ((s.advanceTo (s.dig[x].at_ + 20)).sample x raw tj).dig := by
  have hnow := ((s.advanceTo (s.dig[x].at_ + 20)).sample_touch x raw tj).now_eq (by decide)
  simp only [State.sampleRow, hruns, if_true]
  rw [← hnow]
  split
  · exact ⟨(State.estSample_touch ..).now_eq (by decide), (State.estSample_touch ..).same .dig (by decide)⟩
  · split
    · exact ⟨(State.vdSample_touch ..).now_eq (by decide), (State.vdSample_touch ..).same .dig (by decide)⟩
    · exact ⟨rfl, rfl⟩

theorem State.sampleRow_idle (raw tj : Int) (top : Nat) (hruns : s.digRuns x.val = false) :
    s.sampleRow x raw tj top = s := by
  rw [State.sampleRow, hruns]
  rfl

theorem State.swOf_advanceTo (t y : Nat) : (s.advanceTo t).swOf y = s.swOf y := by
  simp only [State.swOf, State.advanceTo_hs, State.advanceTo_vd, State.advanceTo_ls]

/-! ### Means of a millisecond -/

theorem State.msSend_runs (hruns : s.digRuns x.val = true) (hsome : 0 < s.dig[x].msN) :
    s.msSend x = ((s.advanceTo s.dig[x].msEnd).modDig x fun d =>
      { d with
        msN := 0, msSum := 0, msEnd := nextMultiple 1000 (s.advanceTo s.dig[x].msEnd).now,
        msMean := (s.dig[x].msSum : Rat) / s.dig[x].msN }).toAdm
        (.current x.val ((s.dig[x].msSum : Rat) / s.dig[x].msN)) := by
  simp only [State.msSend, State.advanceTo_dig, State.advanceTo_digRuns, hruns, hsome, decide_true, Bool.and_self, if_true]

theorem State.msSend_idle (h : s.digRuns x.val = false ∨ s.dig[x].msN = 0) : s.msSend x = s.advanceTo s.dig[x].msEnd := by
  simp only [State.msSend, State.advanceTo_dig, State.advanceTo_digRuns]
  refine if_neg fun hacts => ?_
  rw [Bool.and_eq_true, decide_eq_true_eq] at hacts
  rcases h with h | h
  · exact nomatch h.symm.trans hacts.1
  · omega

/-! ### ZERO -/

/-- What the ZERO command makes of a digitiser, `ok` saying that it can start (R120). -/
def Dig.zeroStart (d : Dig) (ok : Bool) : Dig :=
  if ok && !d.zeroBusy then { d with zeroBusy := true, zeroFail := false, zeroN := 0, zeroSum := 0, cmdRes := 0 }
  else { d with cmdRes := 2 }

theorem State.zeroCmd_dig :
    (s.zeroCmd x).dig = upd s.dig x fun d => d.zeroStart (s.zeroOk x.val && s.digRuns x.val) := by
  rw [State.zeroCmd, Bool.and_right_comm]
  split
  next hstarts =>
    rw [State.modDig_dig]
    refine upd_congr ?_
    rw [Dig.zeroStart, if_pos hstarts]
  next hrefused =>
    rw [State.modDig_dig]
    refine upd_congr ?_
    rw [Dig.zeroStart, if_neg hrefused]

theorem State.zeroDone_idle (h : s.dig[x].zeroBusy = false ∨ s.dig[x].zeroN < 256) : s.zeroDone x = s := by
  refine if_neg fun hacts => ?_
  rw [Bool.and_eq_true, decide_eq_true_eq] at hacts
  rcases h with h | h
  · exact nomatch h.symm.trans hacts.1
  · omega

theorem State.zeroDone_dig (hbusy : s.dig[x].zeroBusy = true) (hfull : 256 ≤ s.dig[x].zeroN) :
    (s.zeroDone x).dig = upd s.dig x fun d =>
      { d with zeroBusy := false, trim := clampI (-8192) 8191 (-(roundQ (s.dig[x].zeroSum / 256))) } := by
  simp only [State.zeroDone, hbusy, hfull, decide_true, Bool.and_self, if_true, State.emit_dig, State.modDig_dig]

/-! ### Pad voltages -/

theorem le_nextMultiple {p t : Nat} (hp : 0 < p) : t ≤ nextMultiple p t := by
  have hmod := Nat.mod_le t (2 ^ 48)
  have hlt := Nat.mod_lt t (show 0 < 2 ^ 48 by decide)
  have hnext : t % 2 ^ 48 ≤ (t % 2 ^ 48 / p + 1) * p := by
    rw [Nat.add_one_mul, Nat.mul_comm]
    have := Nat.div_add_mod (t % 2 ^ 48) p
    have := Nat.mod_lt (t % 2 ^ 48) hp
    omega
  unfold nextMultiple
  omega

theorem Est.le_padDue (e : Est) (t : Nat) : t ≤ e.padDue t := by
  unfold Est.padDue
  split
  · exact Nat.le_refl t
  · exact le_nextMultiple (by decide)

@[simp] theorem State.modEst_hs (n : Fin 48) (f : Est → Est) :
    (s.modEst n f).hs = upd s.hs n fun h => { h with est := f h.est } := rfl

theorem State.putEst_hs (n : Fin 48) (r : Est × Bool) :
    (s.putEst n r).hs = upd s.hs n fun h => { h with est := r.1 } := by
  have hstamp : ((s.modEst n fun _ => r.1).emitAt r.1.perAt (islHs n) 0x20
      (pack [(0, 16, r.1.tSettle), (16, 16, r.1.iSteady)])).hs = (s.modEst n fun _ => r.1).hs :=
    (State.emitAt_touch ..).same .hs (by decide)
  unfold State.putEst
  split
  · exact hstamp
  · rfl

/-- The code of a pad voltage (R125). -/
def padCode (mv : Int) : Nat := (clampI 0 1023 (roundQ ((mv : Rat) * 2 / 125))).toNat

/-- The estimators after a pad sample at time `t` (R125, R138). -/
def Est.padTaken (e : Est) (ctl : W32) (t : Nat) (mv : Int) : Est :=
  { (e.windowTo ctl t).1 with
    padAt := some t, vCode := padCode mv, vN := (e.windowTo ctl t).1.vN + 1,
    vSum := (e.windowTo ctl t).1.vSum + padCode mv }

/-- Without a settling search no window is open. -/
theorem Est.windowTo_idle {e : Est} (ctl : W32) (t : Nat) (hsearch : e.search = false) : e.windowTo ctl t = (e, false) := by
  rw [Est.windowTo, hsearch]
  rfl

theorem State.padSample_runs (n : Fin 48) (mv : Int) (hruns : s.digRuns n.val = true) :
    (s.padSample n mv).now = (s.advanceTo (s.hs[n].est.padDue s.now)).now ∧
    (s.padSample n mv).hs = upd s.hs n fun h =>
      { h with est := h.est.padTaken s.dig[tHs n].ctl (s.advanceTo (s.hs[n].est.padDue s.now)).now mv } := by
  have hnow : ∀ (y : State) (r : Est × Bool), (y.putEst n r).now = y.now := fun y r =>
    (y.putEst_touch n r).now_eq (by decide)
  simp only [State.padSample, State.advanceTo_digRuns, hruns, if_true]
  refine ⟨((State.modEst_touch ..).now_eq (by decide)).trans (hnow _ _), ?_⟩
  rw [State.modEst_hs, State.putEst_hs, upd_upd, hnow, State.advanceTo_hs, State.advanceTo_dig]
  exact upd_congr rfl

theorem State.padSample_idle (n : Fin 48) (mv : Int) (hruns : s.digRuns n.val = false) :
    s.padSample n mv = s.advanceTo (s.hs[n].est.padDue s.now) := by
  simp only [State.padSample, State.advanceTo_digRuns, hruns, Bool.false_eq_true, if_false]

end

/-- The ZERO command on the digitiser that it addresses. -/
theorem fires_measZero {s : State} {c : Fin 4} {x : Fin 67} {P : State → Prop} (hcan : canStore s (islOf x.val) 9)
    (hP : ∀ t, t.dig[x] = s.dig[x].zeroStart (s.zeroOk x.val && s.digRuns x.val) → onlyAt x s.dig t.dig →
      t.answer = .done → onlyTouches digRowParts s t → P t) : fires (.measZero c x) s P := by
  have hdig := (s.served c).zeroCmd_dig x
  rw [State.served_zeroOk, State.served_digRuns] at hdig
  exact fires_digRow rfl hcan (fun y => y.zeroCmd_touch x) hdig hP

/-- Settles O19, by what each command makes of its digitiser or of its channel's estimators. -/
theorem digitisersPublishCalibratedSamples : Obligations.DigitisersPublishCalibratedSamples := by
  unfold Obligations.DigitisersPublishCalibratedSamples
  refine ⟨?_, ?_, ?_, ?_, ?_, ?_, ?_, ?_, ?_, ?_⟩
  · intro s x raw tj top hruns htmb
    obtain ⟨hnow, hrow⟩ := s.sampleRow_runs x raw tj top hruns
    obtain ⟨n, q, c, hdig⟩ := (s.advanceTo (s.dig[x].at_ + 20)).sample_dig x raw tj
    rw [State.advanceTo_dig, State.swOf_advanceTo, ← hrow, ← hnow] at hdig
    obtain ⟨hat, hothers⟩ := changed_at hdig
    refine ⟨_, rfl, hnow.trans (s.advanceTo_now_max _ htmb), ?_⟩
    have hstamp : (s.sampleRow x raw tj top).dig[x].at_ = (s.sampleRow x raw tj top).now := by rw [hat]; rfl
    refine ⟨?_, ?_, ?_, ?_, ?_, ?_, hstamp, ?_, hothers, State.sampleRow_touch ..⟩ <;> rw [hat]
    · rfl
    · exact Dig.cal_le ..
    · exact (roundDiv_full_scale _).trans (by rw [Nat.mul_assoc]; rfl)
    · rfl
    · rfl
    · rfl
    · rfl
  · intro s x hruns htmb hsome
    have hsend := s.msSend_runs x hruns hsome
    have hdig := congrArg State.dig hsend
    rw [State.toAdm_dig, State.modDig_dig, State.advanceTo_dig] at hdig
    obtain ⟨hat, hothers⟩ := changed_at hdig
    have hnow : (s.msSend x).now = (s.advanceTo s.dig[x].msEnd).now := by rw [hsend]; rfl
    refine ⟨_, rfl, hnow.trans (s.advanceTo_now_max _ htmb), ?_, ?_, ?_, ?_, hothers, State.msSend_touch ..⟩
    · rw [hat, hnow]
    · rw [hat]
    · rw [hat]
    · rw [hat, hsend, State.toAdm, State.modAdm_adm, State.modDig_adm, State.advanceTo_adm]
  · intro s n mv hruns htmb
    obtain ⟨hnow, hhs⟩ := s.padSample_runs n mv hruns
    obtain ⟨hat, hothers⟩ := changed_at hhs
    refine ⟨_, rfl, hnow.trans (s.advanceTo_now _ htmb (Est.le_padDue ..)), ?_, ?_, fun hsearch => ?_, ?_, hothers,
      State.padSample_touch ..⟩
    · rw [hat, hnow]
      rfl
    · rw [hat]
      rfl
    · have hstays := Est.windowTo_idle s.dig[tHs n].ctl (s.advanceTo (s.hs[n].est.padDue s.now)).now hsearch
      rw [hat, Est.padTaken, hstays]
      exact ⟨rfl, rfl⟩
    · rw [hat]
  · intro s c x hcan hruns hok hbusy
    refine fires_measZero hcan fun t ht hothers hanswer k => ?_
    have hstart : s.dig[x].zeroStart (s.zeroOk x.val && s.digRuns x.val) = _ := if_pos (by rw [hok, hruns, hbusy]; rfl)
    rw [ht, hstart]
    exact ⟨rfl, rfl, rfl, rfl, rfl, hanswer, hothers, k⟩
  · intro s c x hcan hno
    refine fires_measZero hcan fun t ht hothers hanswer k => ⟨ht.trans (if_neg fun hacts => ?_), hanswer, hothers, k⟩
    simp only [Bool.and_eq_true, Bool.not_eq_true'] at hacts
    obtain ⟨⟨hok, hruns⟩, hbusy⟩ := hacts
    rcases hno with h | h | h
    · exact nomatch h.symm.trans hok
    · exact nomatch h.symm.trans hbusy
    · exact nomatch h.symm.trans hruns
  · intro s x hbusy hfull
    obtain ⟨hat, hothers⟩ := changed_at (s.zeroDone_dig x hbusy hfull)
    refine ⟨_, rfl, ?_, ?_, hothers, State.zeroDone_touch ..⟩
    · rw [hat]
    · rw [hat]
  · exact fun s x h => ⟨_, rfl, s.zeroDone_idle x h⟩
  · exact fun s x raw tj top hruns => ⟨_, rfl, s.sampleRow_idle x raw tj top hruns⟩
  · intro s x h
    have hidle := s.msSend_idle x h
    refine ⟨_, rfl, ?_, ?_, State.msSend_touch ..⟩
    · rw [hidle, State.advanceTo_dig]
    · rw [hidle, State.advanceTo_adm]
  · intro s n mv hruns
    refine ⟨_, rfl, ?_, State.padSample_touch ..⟩
    rw [s.padSample_idle n mv hruns, State.advanceTo_hs]

end Sys2Proof.Machine

/-! ## Estimators: settling, steady periods, trends (R137 to R144), and the curve store (R150, R151) -/

namespace Sys2Proof.Machine

open Claims

section
variable (s : State) (n : Fin 48)

/-! ### Settling time-outs -/

theorem State.settleTimeout_runs (hsearch : s.hs[n].est.search = true) (hruns : s.digRuns n.val = true) :
    ∃ arg, s.settleTimeout n = (((s.advanceTo (s.hs[n].est.start + 65535000)).modEst n fun e =>
      { e with search := false, follow := false, unsettled := true }).emit (islHs n) 0x21 arg) :=
  ⟨_, if_pos (by rw [hsearch, hruns]; rfl)⟩

theorem State.settleTimeout_idle (h : s.hs[n].est.search = false ∨ s.digRuns n.val = false) : s.settleTimeout n = s := by
  refine if_neg fun hacts => ?_
  rw [Bool.and_eq_true] at hacts
  obtain ⟨hsearch, hruns⟩ := hacts
  exact h.elim (fun e => nomatch e.symm.trans hsearch) fun e => nomatch e.symm.trans hruns

/-! ### Steady periods -/

/-- A current from which R_LOAD is valid: at least 2 per cent of full scale (R139). -/
def loadSeen (fs i : Nat) : Bool := decide (fs ≤ 50 * i) && decide (0 < i)

/-- What the close of a period at `t` gives, with and without ripple counting; the next one begins there (R138, R139). -/
structure Est.PeriodClosed (e c : Est) (fs t : Nat) : Prop where
  current : c.iSteady = roundDiv e.perSum e.perN
  voltage : c.vMean = padMv e.vSum e.vN
  loadValid : c.rValid = loadSeen fs c.iSteady
  load : c.rLoad = if c.rValid then satN 32 (roundDiv (c.vMean * 1000) c.iSteady) else e.rLoad
  reference : c.iRef = c.iSteady
  begins : c.perAt = t
  empty : c.perN = 0

theorem Est.closePeriod_closed (e : Est) (fs t : Nat) (rip : Bool) : e.PeriodClosed (e.closePeriod fs t rip) fs t := by
  cases rip <;> exact ⟨rfl, rfl, rfl, rfl, rfl, rfl, rfl⟩

theorem State.steadyClose_runs (hsteady : s.hs[n].est.steady = true) (hruns : s.digRuns n.val = true)
    (hon : hsOn s.hs[n].st = true) :
    (s.steadyClose n).now = (s.advanceTo (s.hs[n].est.perAt + 1024000)).now ∧
    (s.steadyClose n).hs = upd s.hs n fun h =>
      { h with est := h.est.closePeriod (fsOf n.val) (h.est.perAt + 1024000) (bit s.dig[tHs n].ctl 4) } := by
  have hnow : ∀ (y : State) (f : Est → Est), (y.modEst n f).now = y.now := fun y f =>
    (y.modEst_touch n f).now_eq (by decide)
  have hstamp : ∀ (y : State) (a b : Nat) (v : W32), (y.emit a b v).now = y.now := fun y a b v =>
    (y.emit_touch a b v).now_eq (by decide)
  simp only [State.steadyClose, hsteady, hruns, hon, Bool.and_self, if_true]
  split
  · rw [hstamp, hnow, State.emit_hs, State.modEst_hs, State.advanceTo_hs, State.advanceTo_dig]
    exact ⟨rfl, upd_congr rfl⟩
  · rw [hnow, State.modEst_hs, State.advanceTo_hs, State.advanceTo_dig]
    exact ⟨rfl, upd_congr rfl⟩

theorem State.steadyClose_idle (h : s.hs[n].est.steady = false ∨ s.digRuns n.val = false ∨ hsOn s.hs[n].st = false) :
    s.steadyClose n = s := by
  refine if_neg fun hacts => ?_
  simp only [Bool.and_eq_true] at hacts
  obtain ⟨⟨hsteady, hruns⟩, hon⟩ := hacts
  rcases h with h | h | h
  · exact nomatch h.symm.trans hsteady
  · exact nomatch h.symm.trans hruns
  · exact nomatch h.symm.trans hon

/-! ### Trends -/

/-- What an hour makes of a quantity: updated if enabled and valued, else only begun again (R142). -/
def Est.hourly (e : Est) (en : Bool) (q : Trend) : Trend :=
  if en && 0 < q.n then q.hour (fld e.trCfg 0 3) (fld e.trCfg 4 4) else { q with n := 0, sum := 0 }

/-- What an hour makes of the estimators, `tach` saying that the ripple is counted (R142, R143). -/
def Est.trendHour (e : Est) (tach : Bool) : Est :=
  { e with
    tI := e.hourly (bit e.trCfg 16) e.tI, tR := e.hourly (bit e.trCfg 17) e.tR,
    tF := e.hourly (bit e.trCfg 18 && tach) e.tF, hourAt := e.hourAt + 3600000000, hours := satN 16 (e.hours + 1) }

theorem Est.hourly_enabled (e : Est) {q : Trend} (hvalues : 0 < q.n) :
    e.hourly true q = q.hour (fld e.trCfg 0 3) (fld e.trCfg 4 4) := if_pos (by rw [decide_eq_true hvalues]; rfl)

theorem Est.hourly_disabled (e : Est) (q : Trend) : e.hourly false q = { q with n := 0, sum := 0 } := rfl

/-- The first update takes the mean of the hour as both averages, so that they do not differ. -/
theorem Trend.hour_first {q : Trend} (a b : Nat) (hvalues : 0 < q.n) (hfirst : q.valid = false) :
    q.hour a b = { short := q.sum * 256 / q.n, long := q.sum * 256 / q.n, dev := 0, valid := true, n := 0, sum := 0 } := by
  have hdev : clampI (-512) 511 (truncQ 0) = 0 := by decide
  have hmean : ((q.sum * 256 / q.n : Nat) : Int).toNat = q.sum * 256 / q.n := Int.toNat_natCast _
  simp only [Trend.hour, Nat.ne_of_gt hvalues, hfirst, Bool.false_eq_true, if_false, Int.sub_self, Int.zero_mul,
    Int.cast_zero, zero_div, hdev, ite_self, hmean]

theorem State.trendOne_hs (q : Nat) (en : Bool) (get : Est → Trend) (put : Est → Trend → Est) :
    (s.trendOne n q en get put).hs = upd s.hs n fun h => { h with est := put h.est (h.est.hourly en (get h.est)) } := by
  unfold State.trendOne
  dsimp only
  split
  next hacts =>
    have hup : s.hs[n].est.hourly en (get s.hs[n].est) = _ := if_pos hacts
    rw [apply_ite State.hs, State.emit_hs, ite_self, State.modEst_hs]
    refine upd_congr ?_
    rw [hup]
  next hskips =>
    have hskip : s.hs[n].est.hourly en (get s.hs[n].est) = _ := if_neg hskips
    rw [State.modEst_hs]
    refine upd_congr ?_
    rw [hskip]

theorem State.trendUpdate_runs (hup : s.isUp (islHs n.val) = true) :
    (s.trendUpdate n).now = (s.advanceTo (s.hs[n].est.hourAt + 3600000000)).now ∧
    (s.trendUpdate n).hs = upd s.hs n fun h => { h with est := h.est.trendHour (bit s.dig[tHs n].ctl 4) } := by
  have hnow : ∀ (y : State) (q : Nat) (en : Bool) (get : Est → Trend) (put : Est → Trend → Est),
      (y.trendOne n q en get put).now = y.now := fun y q en get put =>
    (y.trendOne_touch n q en get put).now_eq (by decide)
  simp only [State.trendUpdate, hup, if_true]
  refine ⟨((State.modEst_touch ..).now_eq (by decide)).trans (by rw [hnow, hnow, hnow]), ?_⟩
  rw [State.modEst_hs, State.trendOne_hs, State.trendOne_hs, State.trendOne_hs, s.advanceTo_hs, upd_upd, upd_upd, upd_upd]
  exact upd_congr rfl

theorem State.trendUpdate_idle (hup : s.isUp (islHs n.val) = false) : s.trendUpdate n = s :=
  if_neg (by rw [hup]; exact Bool.false_ne_true)

/-- A trend without its history (R143). -/
def Trend.cleared (q : Trend) : Trend := { q with short := 0, long := 0, dev := 0, valid := false }

/-- Estimators whose trends begin again (R143). -/
def Est.trendsCleared (e : Est) : Est :=
  { e with tI := e.tI.cleared, tR := e.tR.cleared, tF := e.tF.cleared, hours := 0 }

theorem State.trReset_hs : (s.trReset n).hs = upd s.hs n fun h => { h with est := h.est.trendsCleared } := rfl

/-- A trend whose LONG is written with `v` (R144). -/
def Trend.withLong (q : Trend) (v : W16) : Trend := { q with long := v.toNat * 256, valid := true }

/-- A write to the LONG field of quantity `q` of the estimators (R144). -/
def Est.longWritten (e : Est) (q : Fin 3) (v : W16) : Est :=
  match q with
  | 0 => { e with tI := e.tI.withLong v }
  | 1 => { e with tR := e.tR.withLong v }
  | 2 => { e with tF := e.tF.withLong v }

theorem State.trLong_hs (q : Fin 3) (v : W16) :
    (s.trLong n q v.toNat).hs = upd s.hs n fun h => { h with est := h.est.longWritten q v } := by
  have hfits : v.toNat % 65536 = v.toNat := Nat.mod_eq_of_lt v.isLt
  rw [State.trLong, State.modEst_hs, hfits]
  exact upd_congr (by match q with | 0 => rfl | 1 => rfl | 2 => rfl)

end

/-- A store row into a channel's block that changes that channel's estimators by `g`. -/
theorem fires_estRow {s : State} {i : Instr} {c : Fin 4} {n : Fin 48} {f : State → State} {g : Est → Est}
    {P : State → Prop} (hexec : exec i s = .next (s.storeIf c (islHs n.val) 8 f)) (hcan : canStore s (islHs n.val) 8)
    (htouch : ∀ y, onlyTouches [.hs] y (f y)) (hf : ∀ y, (f y).hs = upd y.hs n fun h => { h with est := g h.est })
    (hP : ∀ t, t.hs[n] = { s.hs[n] with est := g s.hs[n].est } → onlyAt n s.hs t.hs →
      onlyTouches [.fab, .answer, .hs, .pmc, .free] s t → P t) : fires i s P :=
  fires_hsRow_hs hexec hcan htouch fun t ht k => by
    rw [hf, State.served_hs] at ht
    obtain ⟨hat, hothers⟩ := changed_at ht
    exact hP t hat hothers k

theorem fires_trendLongWrite {s : State} {c : Fin 4} {n : Fin 48} {q : Fin 3} {v : W16} {P : State → Prop}
    (hcan : canStore s (islHs n.val) 8)
    (hP : ∀ t, t.hs[n].est = s.hs[n].est.longWritten q v → onlyAt n s.hs t.hs →
      onlyTouches [.fab, .answer, .hs, .pmc, .free] s t → P t) : fires (.trendLongWrite c n q v) s P :=
  fires_estRow (g := fun e => e.longWritten q v) rfl hcan (fun y => y.trLong_touch n q v.toNat) (fun y => y.trLong_hs n q v) fun t ht =>
    hP t (by rw [ht])

/-! ### The curve store -/

theorem fires_curveEntryWrite {s : State} {c : Fin 4} {i : Fin 4096} {v : W32} {P : State → Prop}
    (hcore : s.coreRuns = true) (hup : s.isUp 2 = true)
    (hP : ∀ t, t.curve = ((s.served c).curveWrite i.val v).curve →
      onlyTouches [.fab, .answer, .curve, .pmc, .free] s t → P t) : fires (.curveEntryWrite c i v) s P := by
  refine ⟨_, rfl, hP _ ?_ (State.store_touch _ _ _ _ (fun y => (y.curveWrite_touch i.val v).mono (by decide)) (by decide))⟩
  rw [State.store_run _ _ _ _ hcore hup]

theorem State.curveWrite_open {s : State} {i : Nat} (v : W32) (hopen : bit s.curve.lock (i / 256) = false) :
    (s.curveWrite i v).curve = { s.curve with ent := sset (fun _ => 0) i v s.curve.ent } := by
  rw [State.curveWrite, hopen]
  rfl

theorem State.curveWrite_locked {s : State} {i : Nat} (v : W32) (hlocked : bit s.curve.lock (i / 256) = true) :
    (s.curveWrite i v).curve = { s.curve with lockViol := true, violIdx := i } := by
  rw [State.curveWrite, hlocked]
  rfl

/-- Settles O21, by what each command makes of its channel's estimators; an hour is three updates of one quantity. -/
theorem estimatorsFollowTheLoad : Obligations.EstimatorsFollowTheLoad := by
  unfold Obligations.EstimatorsFollowTheLoad
  refine ⟨?_, ?_, ?_, ?_, ?_, ?_, ?_, ?_, ?_, ?_, ?_, ?_⟩
  · intro s n hsearch hruns htmb
    obtain ⟨arg, hrun⟩ := s.settleTimeout_runs n hsearch hruns
    have hhs := congrArg State.hs hrun
    rw [State.emit_hs, State.modEst_hs, State.advanceTo_hs] at hhs
    obtain ⟨hat, hothers⟩ := changed_at hhs
    have hnow : (s.settleTimeout n).now = (s.advanceTo (s.hs[n].est.start + 65535000)).now := by rw [hrun]; rfl
    refine ⟨_, rfl, hnow.trans (s.advanceTo_now_max _ htmb), ?_, ?_, ?_, ?_, hothers, State.settleTimeout_touch ..⟩
    all_goals rw [hat]
  · intro s n hsteady hruns hon htmb
    obtain ⟨hnow, hhs⟩ := s.steadyClose_runs n hsteady hruns hon
    obtain ⟨hat, hothers⟩ := changed_at hhs
    have hclosed : s.hs[n].est.PeriodClosed (s.steadyClose n).hs[n].est (fsOf n.val) (s.hs[n].est.perAt + 1024000) := by
      rw [hat]
      exact Est.closePeriod_closed ..
    exact ⟨_, rfl, hnow.trans (s.advanceTo_now_max _ htmb), hclosed.current, hclosed.voltage, hclosed.loadValid,
      fun hvalid => hclosed.load.trans (if_pos hvalid),
      fun hno => hclosed.load.trans (if_neg (by rw [hno]; exact Bool.false_ne_true)), hclosed.begins, hclosed.empty,
      hclosed.reference, hothers, State.steadyClose_touch ..⟩
  · intro s n hup htmb
    obtain ⟨hnow, hhs⟩ := s.trendUpdate_runs n hup
    obtain ⟨hat, hothers⟩ := changed_at hhs
    refine ⟨_, rfl, hnow.trans (s.advanceTo_now_max _ htmb), ?_, ?_, fun hen hvalues hfirst => ?_, fun hen hvalues => ?_,
      fun hen htach hvalues => ?_, fun hen => ?_, hothers, State.trendUpdate_touch ..⟩
    all_goals rw [hat, Est.trendHour]
    · rw [hen, Est.hourly_enabled _ hvalues, Trend.hour_first _ _ hvalues hfirst]
      exact ⟨rfl, rfl, rfl, rfl⟩
    · rw [hen, Est.hourly_enabled _ hvalues]
    · rw [hen, htach, Bool.and_self, Est.hourly_enabled _ hvalues]
    · rw [hen, Est.hourly_disabled]
  · intro s c n hcan
    refine fires_estRow (g := Est.trendsCleared) rfl hcan (fun y => y.trReset_touch n) (fun y => y.trReset_hs n) fun t ht hothers k => ?_
    rw [ht]
    exact ⟨rfl, rfl, rfl, rfl, rfl, rfl, rfl, rfl, rfl, rfl, rfl, rfl, rfl, rfl, hothers, k⟩
  · intro s c n v hcan
    refine fires_trendLongWrite hcan fun t ht hothers k => ?_
    rw [ht]
    exact ⟨rfl, rfl, rfl, hothers, k⟩
  · intro s c n v hcan
    refine fires_trendLongWrite hcan fun t ht hothers k => ?_
    rw [ht]
    exact ⟨rfl, rfl, rfl, hothers, k⟩
  · intro s c n v hcan
    refine fires_trendLongWrite hcan fun t ht hothers k => ?_
    rw [ht]
    exact ⟨rfl, rfl, rfl, hothers, k⟩
  · intro s c i v hcanon hcore hup hopen
    refine fires_curveEntryWrite hcore hup fun t ht k => ?_
    rw [State.curveWrite_open v (by rw [State.served_curve]; exact hopen), State.served_curve] at ht
    have hget : ∀ j, t.curve.get j = if j = i.val then v else s.curve.get j := fun j => by
      rw [ht]
      exact sget_sset _ _ _ _ hcanon.2.1
    refine ⟨(hget _).trans (if_pos rfl), fun j hj => (hget j).trans (if_neg hj), ?_, ?_, k⟩
    · rw [ht]
    · rw [ht]
  · intro s c i v hcore hup hlocked
    refine fires_curveEntryWrite hcore hup fun t ht k => ⟨ht.trans ?_, k⟩
    rw [State.curveWrite_locked v (by rw [State.served_curve]; exact hlocked), State.served_curve]
  · exact fun s n h => ⟨_, rfl, s.settleTimeout_idle n h⟩
  · exact fun s n h => ⟨_, rfl, s.steadyClose_idle n h⟩
  · exact fun s n hup => ⟨_, rfl, s.trendUpdate_idle n hup⟩

end Sys2Proof.Machine

/-! ## Messages of ADM to valve channels and lamp strings (R16, R163) -/

namespace Sys2Proof.Machine

open Claims

section
variable (s : State) {t : Nat} {m : ToTgt} {r : List (Nat × ToTgt)}

/-- No message of this kind is next for the target, or its island does not run: nothing is delivered. -/
theorem State.deliver_idle (f : State → State) (h : takeMsg t m s.adm.toTgt = none ∨ s.isUp (islOf t) = false) :
    s.deliver t m f = s := by
  unfold State.deliver
  split
  · rfl
  next hmsg => rw [h.resolve_left (by simp [hmsg]), if_neg Bool.false_ne_true]

/-- A target answers or returns a message by one input of ADM alone. -/
theorem State.toAdm_inbox (a : AdmIn) : (s.toAdm a).adm.inbox = s.adm.inbox ++ [a] := rfl

end

/-- A row that delivers a message of ADM, when it is next for a target whose island runs. -/
theorem fires_deliver {s : State} {i : Instr} {t : Nat} {m : ToTgt} {r : List (Nat × ToTgt)} {f : State → State}
    {ps : List Part} {P : State → Prop} (hexec : exec i s = .next (s.deliver t m f))
    (hmsg : takeMsg t m s.adm.toTgt = some r) (hup : s.isUp (islOf t) = true) (htouch : ∀ x, onlyTouches ps x (f x))
    (hadm : .adm ∈ ps) (hP : onlyTouches ps s (f (s.gotMsg r)) → P (f (s.gotMsg r))) : fires i s P := by
  have hrow := s.deliver_run t m f r hmsg hup
  exact ⟨_, hexec, hrow ▸ hP (hrow ▸ s.deliver_touch t m f htouch hadm)⟩

end Sys2Proof.Machine

/-! ## Lamp strings: messages of ADM, ramp, frames and judging (R240 to R261) -/

namespace Sys2Proof.Machine

open Claims

section
variable (s : State) (k : Fin 3)

/-! ### Messages of ADM -/

theorem State.lsEntry_answers :
    s.lsEntry k = s.toAdm (if s.ls[k].st = .pending then .confirm (64 + k.val) else .refuse (64 + k.val) s.ls[k].st.code) := by
  unfold State.lsEntry
  by_cases hst : s.ls[k].st = .pending
  · rw [if_pos hst, if_pos (beq_iff_eq.mpr hst)]
  · rw [if_neg hst, if_neg fun h => hst (beq_iff_eq.mp h)]

/-- A string at the start of its ramp, at time `now` (R256, R257, R259). -/
def Ls.ramped (l : Ls) (now : Nat) : Ls :=
  { l with
    ops := satN 64 (l.ops + 1), onAt := now, rampEnd := now + l.tRamp * 1000, frameNo := 0, turn := 0, nominal := true,
    st := .ramp, mark := .grantOn, markAt := now }

theorem State.lsGrantArrives_starts (hst : s.ls[k].st = .pending) (hbank : s.ls[k].bankOk = true) (htl : s.ls[k].tl = false) :
    (s.lsGrantArrives k).ls = (upd s.ls k fun l => l.ramped s.now) ∧ (s.lsGrantArrives k).adm = s.adm := by
  have hgo : (s.ls[k].st == .pending && s.ls[k].b && !s.ls[k].tl) = true := by rw [hst, Ls.b, hbank, htl]; rfl
  have hdig : ∀ y : State, (y.capTrigger (tLs k) 1).ls = y.ls := fun y => rfl
  rw [State.lsGrantArrives]
  simp only [hgo, if_true, State.lsMark, State.lsEnter, State.modLs_ls, hdig, upd_upd]
  exact ⟨rfl, rfl⟩

theorem State.lsGrantArrives_returned (h : s.ls[k].st ≠ .pending ∨ s.ls[k].bankOk = false ∨ s.ls[k].tl = true) :
    s.lsGrantArrives k = s.toAdm (.returned (64 + k.val)) := by
  refine if_neg fun hgo => ?_
  simp only [Bool.and_eq_true, beq_iff_eq, Ls.b, Bool.not_eq_true'] at hgo
  obtain ⟨⟨hst, hbank⟩, htl⟩ := hgo
  rcases h with h | h | h
  · exact h hst
  · exact nomatch h.symm.trans hbank
  · exact nomatch h.symm.trans htl

theorem State.lsDrop_pending (hst : s.ls[k].st = .pending) :
    (s.lsDrop k).ls = upd s.ls k fun l => { l with claimHeld := false, cmdRes := 6, st := .off } := by
  rw [State.lsDrop, if_pos (beq_iff_eq.mpr hst)]
  simp only [State.lsEmit, State.emit_ls, State.lsEnter, State.modLs_ls, upd_upd]

theorem State.lsDrop_other (hst : s.ls[k].st ≠ .pending) : s.lsDrop k = s := if_neg fun h => hst (beq_iff_eq.mp h)

/-! ### The ramp -/

theorem State.lsRelease_ls : (s.lsRelease k).ls = upd s.ls k fun l => { l with claimHeld := false } := by
  unfold State.lsRelease
  split
  · rfl
  next hfree => exact (upd_self _ _ _ (by rw [← Bool.eq_false_of_not_eq_true hfree])).symm

theorem State.lsRelease_inbox (hclaim : s.ls[k].claimHeld = true) :
    (s.lsRelease k).adm.inbox = s.adm.inbox ++ [.release (64 + k.val)] := by
  rw [State.lsRelease, if_pos hclaim]
  rfl

theorem State.lsRampEnd_runs (hup : s.lsUp k = true) (hst : s.ls[k].st = .ramp) :
    (s.lsRampEnd k).now = (s.advanceTo s.ls[k].rampEnd).now ∧
    (s.lsRampEnd k).ls = (upd s.ls k fun l => { l with st := .on, claimHeld := false }) ∧
    (s.ls[k].claimHeld = true → (s.lsRampEnd k).adm.inbox = s.adm.inbox ++ [.release (64 + k.val)]) := by
  have hrow : s.lsRampEnd k = _ := if_pos (by rw [hup, hst]; rfl)
  refine ⟨?_, ?_, fun hclaim => ?_⟩
  · rw [hrow]
    exact ((State.lsRelease_touch ..).now_eq (by decide))
  · rw [hrow, State.lsEmit, State.emit_ls, State.lsEnter_ls, State.lsRelease_ls, State.advanceTo_ls, upd_upd]
  · rw [hrow, State.lsEmit, State.emit_adm]
    exact (State.lsRelease_inbox _ k (by rw [State.advanceTo_ls]; exact hclaim)).trans (by rw [State.advanceTo_adm])

theorem State.lsRampEnd_idle (h : s.lsUp k = false ∨ s.ls[k].st ≠ .ramp) : s.lsRampEnd k = s := by
  refine if_neg fun hgo => ?_
  rw [Bool.and_eq_true, beq_iff_eq] at hgo
  obtain ⟨hup, hst⟩ := hgo
  exact h.elim (fun e => nomatch e.symm.trans hup) fun e => e hst

end

/-- The setpoint rises in RAMP from 0 to I_SET (R256). -/
theorem Ls.setMa_ramp {l : Ls} (hst : l.st = .ramp) (t : Nat) :
    l.setMa t = min (l.iSet * 10) (l.iSet * 10 * (t - l.onAt) / (l.rampEnd - l.onAt)) := by
  rw [Ls.setMa, hst]

theorem Ls.setMa_rises {l : Ls} (hst : l.st = .ramp) (hlen : l.onAt < l.rampEnd) :
    l.setMa l.onAt = 0 ∧ l.setMa l.rampEnd = l.iSet * 10 ∧ ∀ a b : Nat, a ≤ b → l.setMa a ≤ l.setMa b := by
  refine ⟨?_, ?_, fun a b hab => ?_⟩
  · rw [Ls.setMa_ramp hst, Nat.sub_self, Nat.mul_zero, Nat.zero_div, Nat.min_zero]
  · rw [Ls.setMa_ramp hst, Nat.mul_div_cancel _ (by omega), Nat.min_self]
  · rw [Ls.setMa_ramp hst, Ls.setMa_ramp hst]
    have hsub : a - l.onAt ≤ b - l.onAt := Nat.sub_le_sub_right hab _
    exact min_le_min_left _ (Nat.div_le_div_right (Nat.mul_le_mul_left _ hsub))

/-! ### The lit interval of a segment (R243, R245, R248) -/

/-- Every phase falls into its frame. -/
theorem phaseOf_lt (k : Fin 3) (i : Fin 8) {f : Nat} (hf : 24 ≤ f) : phaseOf k.val i.val f < f := by
  have hidx : (8 * k.val + i.val) * f ≤ 23 * f := Nat.mul_le_mul_right _ (by omega)
  rw [phaseOf, roundDiv, if_neg (by decide)]
  omega

/-- Count `c` of a frame of `f` cycles lies `d` cycles after phase `p`, round the frame. -/
theorem count_after_phase {f p c d : Nat} (hp : p < f) (hc : c < f) (hd : d < f) :
    (c + f - p) % f = d ↔ c = (p + d) % f := by
  rcases Nat.lt_or_ge c p with hcp | hcp
  · rw [Nat.mod_eq_of_lt (by omega : c + f - p < f)]
    rcases Nat.lt_or_ge (p + d) f with h | h
    · rw [Nat.mod_eq_of_lt h]; omega
    · rw [Nat.mod_eq_sub_mod h, Nat.mod_eq_of_lt (by omega)]; omega
  · rw [Nat.mod_eq_sub_mod (by omega), Nat.mod_eq_of_lt (by omega)]
    rcases Nat.lt_or_ge (p + d) f with h | h
    · rw [Nat.mod_eq_of_lt h]; omega
    · rw [Nat.mod_eq_sub_mod h, Nat.mod_eq_of_lt (by omega)]; omega

theorem Ls.litAt_iff (l : Ls) (k : Fin 3) (i : Fin 8) (hf : 24 ≤ l.fCyc) {c : Nat} (hc : c < l.fCyc) :
    l.litAt k.val i c = true ↔ ∃ d : Nat, d < l.segs[i].lit ∧ c = (phaseOf k.val i.val l.fCyc + d) % l.fCyc := by
  have hp := phaseOf_lt k i hf
  rw [Ls.litAt, decide_eq_true_iff, Nat.min_eq_left (by omega)]
  constructor
  · intro hlit
    exact ⟨_, hlit, (count_after_phase hp hc (Nat.mod_lt _ (by omega))).mp rfl⟩
  · rintro ⟨d, hd, hcd⟩
    have hmod : (c + l.fCyc - phaseOf k.val i.val l.fCyc) % l.fCyc = d % l.fCyc :=
      (count_after_phase hp hc (Nat.mod_lt _ (by omega))).mpr (by rw [Nat.add_mod_mod]; exact hcd)
    rw [hmod]
    exact Nat.lt_of_le_of_lt (Nat.mod_le _ _) hd

/-- A late frame keeps the state of its last count. -/
theorem Ls.litAt_late (l : Ls) (k : Nat) (i : Fin 8) {c : Nat} (hc : l.fCyc ≤ c) : l.litAt k i c = l.litAt k i (l.fCyc - 1) := by
  rw [Ls.litAt, Ls.litAt, Nat.min_eq_right (by omega), Nat.min_self]

theorem Ls.shuntClosed_iff (l : Ls) (k : Nat) (i : Fin 8) (c : Nat) :
    l.shuntClosed k i c = true ↔ lsOn l.st = true ∧ (l.segs[i].bypass = true ∨ l.litAt k i c = false) := by
  rw [Ls.shuntClosed, Bool.and_eq_true, Bool.or_eq_true, Bool.not_eq_true']

/-- A frame that starts early cuts the interval: nothing is carried. -/
theorem Ls.carryOf_early (l : Ls) (k : Nat) (i : Fin 8) {c : Nat} (hc : c < l.fCyc) : l.carryOf k i c = 0 := by
  have hshort : decide (l.fCyc ≤ c) = false := decide_eq_false (by omega)
  refine if_neg ?_
  rw [hshort, Bool.and_false, Bool.false_and]
  exact Bool.false_ne_true

/-- Without a carried interval a segment is judged in its interval of this frame (R248). -/
theorem Ls.judgeAt_fresh (l : Ls) (k : Fin 3) (i : Fin 8) (hcarry : l.segs[i].carry = 0) :
    l.judgeAt k.val i =
      if phaseOf k.val i.val l.fCyc + 800 ≤ l.fCyc ∧ 800 ≤ l.segs[i].lit then some (phaseOf k.val i.val l.fCyc + 800)
      else none := by
  rw [Ls.judgeAt, hcarry, if_neg (by simp)]
  simp only [Bool.and_eq_true, decide_eq_true_eq]

/-! ### Judging -/

section
variable (s : State) (k : Fin 3) (i : Fin 8)

theorem State.lsJudge_runs {c : Nat} (mv : Nat) (hup : s.lsUp k = true) (hon : lsOn s.ls[k].st = true)
    (hjudge : s.ls[k].judgeAt k.val i = some c) (hbyp : s.ls[k].segs[i].bypass = false) :
    (s.lsJudge k i mv).now = (s.advanceTo (s.ls[k].frameAt + c / 100)).now ∧
    (s.lsJudge k i mv).ls = upd s.ls k fun l => { l with segs := upd l.segs i fun g =>
      { g with
        vf := vfCode mv, judgedAt := (s.advanceTo (s.ls[k].frameAt + c / 100)).now,
        short := g.short || decide (5 * vfCode mv < 4 * fld s.ls[k].thr 8 8) } } := by
  rw [State.lsJudge, hjudge]
  simp only [hup, hon, hbyp, Bool.not_false, Bool.and_self, if_true]
  split
  · rw [State.lsEmit, State.emit_ls, State.modLs_ls, State.advanceTo_ls]
    exact ⟨rfl, rfl⟩
  · rw [State.modLs_ls, State.advanceTo_ls]
    exact ⟨rfl, rfl⟩

theorem State.lsJudge_idle (mv : Nat)
    (h : lsOn s.ls[k].st = false ∨ s.ls[k].segs[i].bypass = true ∨ s.ls[k].judgeAt k.val i = none) :
    s.lsJudge k i mv = s := by
  unfold State.lsJudge
  dsimp only
  split
  next c hjudge =>
    refine if_neg fun hgo => ?_
    simp only [Bool.and_eq_true, Bool.not_eq_true'] at hgo
    obtain ⟨⟨-, hon⟩, hbyp⟩ := hgo
    rcases h with h | h | h
    · exact nomatch h.symm.trans hon
    · exact nomatch h.symm.trans hbyp
    · exact nomatch h.symm.trans hjudge
  next => rfl

end

/-! ### A frame start (R242 to R247, R251 to R254) -/

theorem framePer_pos (per : Nat) : 0 < framePer per := by
  unfold framePer
  split <;> decide

section
variable {p : Nat} (t : Nat)

/-- The next multiple lies ahead, by one period at most, at a count that the period divides. -/
theorem nextMultiple_ahead (hp : 0 < p) :
    t < nextMultiple p t ∧ nextMultiple p t ≤ t + p ∧ nextMultiple p t % 2 ^ 48 % p = 0 := by
  have hlow : t % 2 ^ 48 < (t % 2 ^ 48 / p + 1) * p := by
    rw [Nat.mul_comm]
    exact Nat.lt_mul_div_succ _ hp
  have hhigh : (t % 2 ^ 48 / p + 1) * p ≤ t % 2 ^ 48 + p := by
    rw [Nat.succ_mul]
    exact Nat.add_le_add_right (Nat.div_mul_le_self _ _) _
  have hdvd : (t % 2 ^ 48 / p + 1) * p % p = 0 := Nat.mul_mod_left _ _
  unfold nextMultiple
  generalize (t % 2 ^ 48 / p + 1) * p = m at hlow hhigh hdvd
  refine ⟨by omega, by omega, ?_⟩
  rcases Nat.lt_or_ge m (2 ^ 48) with h | h
  · rw [Nat.min_eq_right (Nat.le_of_lt h), show (t - t % 2 ^ 48 + m) % 2 ^ 48 = m by omega]
    exact hdvd
  · rw [Nat.min_eq_left h, show (t - t % 2 ^ 48 + 2 ^ 48) % 2 ^ 48 = 0 by omega, Nat.zero_mod]

end

/-- When a string's next frame starts, seen from time `now` (R242). -/
def Ls.frameDue (l : Ls) (now : Nat) : Nat :=
  if isMultiple (framePer l.per) now && l.frameAt ≠ now then now else nextMultiple (framePer l.per) now

theorem Ls.frameDue_ahead (l : Ls) (now : Nat) :
    now ≤ l.frameDue now ∧ (now = l.frameAt → now < l.frameDue now) ∧ l.frameDue now ≤ now + framePer l.per ∧
      l.frameDue now % 2 ^ 48 % framePer l.per = 0 := by
  obtain ⟨hlt, hle, hmod⟩ := nextMultiple_ahead now (framePer_pos l.per)
  unfold Ls.frameDue
  split
  next h =>
    rw [Bool.and_eq_true, isMultiple, decide_eq_true_iff, decide_eq_true_iff] at h
    obtain ⟨hnow, hnew⟩ := h
    exact ⟨Nat.le_refl _, fun e => absurd e.symm hnew, Nat.le_add_right _ _, hnow⟩
  next => exact ⟨Nat.le_of_lt hlt, fun _ => hlt, hle, hmod⟩

/-- F of the frame that starts at `due`, the one before having counted `cycles` (R244). -/
def Ls.frameCount (l : Ls) (due cycles : Nat) : Nat :=
  if l.nominal || l.frameAt < due - due % 2 ^ 48 then frameCyc l.per
  else clampN (ceilDiv (97 * frameCyc l.per) 100) (103 * frameCyc l.per / 100) cycles

/-- String `k` at a frame start, before any probing (R243 to R247, R254). -/
def Ls.frameStarted (l : Ls) (k due cycles vOut : Nat) : Ls :=
  { l with
    frameAt := due, fCyc := l.frameCount due cycles, nominal := false,
    dimEnt := if bit l.ctl 7 then l.dimEnt else l.dimNext, updPend := l.updPend && bit l.ctl 7, vOut := satN 16 vOut,
    segs := Vector.ofFn fun i : Fin 8 =>
      let g := l.segs[i].frame (bit l.ctl 7) (if bit l.ctl 7 then l.dimEnt else l.dimNext) (l.frameCount due cycles)
        (l.carryOf k i cycles)
      { g with share := if l.frameNo % 64 = 0 then 0 else g.share } }

/-- The shares of a probe's excess are repaid in this frame (R252). -/
def Ls.trimmed (l : Ls) : Ls :=
  { l with
    frameNo := if lsOn l.st then l.frameNo + 1 else l.frameNo,
    segs := Vector.ofFn fun i : Fin 8 =>
      if l.segs[i].share = 0 then l.segs[i]
      else { l.segs[i] with lit := l.segs[i].lit - trimOf l.segs[i].share (l.frameNo % 64) } }

/-- The frame begins a block in which a segment is probed (R251). -/
def Ls.probes (l : Ls) : Bool :=
  lsOn l.st && decide (l.frameNo % 64 = 0) && decide (l.probeM ≠ 0) && decide ((l.frameNo / 64 + 1) % l.probeM = 0)

/-- A segment, and a string, without what probing, trimming and NOT_VERIFIED change. -/
def Seg.shown (g : Seg) : Seg := { g with lit := 0, share := 0, notVer := false }
def Ls.shown (l : Ls) : Ls := { l with turn := 0, untrimmed := 0, frameNo := 0, segs := l.segs.map Seg.shown }

theorem Ls.shown_seg {l m : Ls} (h : l.shown = m.shown) (i : Fin 8) : l.segs[i].shown = m.segs[i].shown := by
  have hsegs := congrArg (fun x => x.segs[i]) h
  simpa only [Ls.shown, Fin.getElem_fin, Vector.getElem_map] using hsegs

theorem Ls.shown_fields {l m : Ls} (h : l.shown = m.shown) :
    l.frameAt = m.frameAt ∧ l.vOut = m.vOut ∧ l.nominal = m.nominal ∧ l.st = m.st ∧ l.dimEnt = m.dimEnt ∧ l.fCyc = m.fCyc :=
  ⟨(congrArg Ls.frameAt h :), (congrArg Ls.vOut h :), (congrArg Ls.nominal h :), (congrArg Ls.st h :),
    (congrArg Ls.dimEnt h :), (congrArg Ls.fCyc h :)⟩

theorem Seg.shown_fields {g h : Seg} (e : g.shown = h.shown) :
    (g.applied = h.applied ∧ g.clr = h.clr ∧ g.open_ = h.open_ ∧ g.short = h.short ∧ g.bypass = h.bypass) ∧
      g.duty = h.duty ∧ g.tLit = h.tLit ∧ g.dark = h.dark ∧ g.carry = h.carry :=
  ⟨⟨(congrArg Seg.applied e :), (congrArg Seg.clr e :), (congrArg Seg.open_ e :), (congrArg Seg.short e :),
    (congrArg Seg.bypass e :)⟩, (congrArg Seg.duty e :), (congrArg Seg.tLit e :), (congrArg Seg.dark e :),
    (congrArg Seg.carry e :)⟩

/-- Segments that show the same make strings that show the same. -/
theorem segs_shown {v w : Vector Seg 8} (h : ∀ i : Fin 8, w[i].shown = v[i].shown) : w.map Seg.shown = v.map Seg.shown := by
  ext1 j hj
  rw [Vector.getElem_map, Vector.getElem_map]
  exact h ⟨j, hj⟩

theorem Ls.trimmed_shown (l : Ls) : l.trimmed.shown = l.shown := by
  have hsegs : l.trimmed.segs.map Seg.shown = l.segs.map Seg.shown := segs_shown fun i => by
    simp only [Ls.trimmed, Fin.getElem_fin, Vector.getElem_ofFn]
    split <;> rfl
  rw [Ls.shown, hsegs]
  rfl

/-- A segment without a share is not trimmed. -/
theorem Ls.trimmed_lit (l : Ls) (i : Fin 8) (hshare : l.segs[i].share = 0) : l.trimmed.segs[i].lit = l.segs[i].lit := by
  simp only [Ls.trimmed, Fin.getElem_fin, Vector.getElem_ofFn]
  exact congrArg Seg.lit (if_pos hshare)

/-- The first frame of a block begins without shares. -/
theorem Ls.frameStarted_share {l : Ls} (k due cycles : Nat) {vOut : Nat} (i : Fin 8) (hfirst : l.frameNo % 64 = 0) :
    (l.frameStarted k due cycles vOut).segs[i].share = 0 := by
  simp [Ls.frameStarted, hfirst]

/-- What a frame start makes of segment `i`, shares aside. -/
theorem Ls.frameStarted_seg (l : Ls) (k due cycles vOut : Nat) (i : Fin 8) :
    ∃ share, (l.frameStarted k due cycles vOut).segs[i] =
      { l.segs[i].frame (bit l.ctl 7) (l.frameStarted k due cycles vOut).dimEnt
          (l.frameStarted k due cycles vOut).fCyc (l.carryOf k i cycles) with share := share } :=
  ⟨_, by simp only [Ls.frameStarted, Fin.getElem_fin, Vector.getElem_ofFn]; rfl⟩

section
variable (s : State) (k : Fin 3)

theorem State.lsProbe_at : onlyAt k s.ls (s.lsProbe k).ls ∧ (s.lsProbe k).ls[k].shown = s.ls[k].shown := by
  unfold State.lsProbe
  dsimp only
  split
  · exact ⟨onlyAt_refl _ _, rfl⟩
  next i hi =>
    refine ⟨onlyAt_upd _ _ _, ?_⟩
    rw [State.modLs_ls, upd_get]
    have hsegs : ∀ a b : Nat, (Vector.ofFn fun j : Fin 8 =>
        if j = i then { s.ls[k].segs[j] with lit := 800 }
        else if j.val + 1 = i.val then { s.ls[k].segs[j] with share := a }
        else if j.val = i.val + 1 then { s.ls[k].segs[j] with share := b }
        else s.ls[k].segs[j]).map Seg.shown = s.ls[k].segs.map Seg.shown := fun a b => segs_shown fun j => by
      simp only [Fin.getElem_fin, Vector.getElem_ofFn]
      split_ifs <;> rfl
    rw [Ls.shown, hsegs]
    rfl

theorem State.lsVerify_at :
    onlyAt k s.ls (s.lsVerify k).ls ∧ (s.lsVerify k).ls[k].shown = s.ls[k].shown ∧
      ∀ i : Fin 8, (s.lsVerify k).ls[k].segs[i].lit = s.ls[k].segs[i].lit := by
  refine forFin_keeps (P := fun y => onlyAt k s.ls y.ls ∧ y.ls[k].shown = s.ls[k].shown ∧
    ∀ i : Fin 8, y.ls[k].segs[i].lit = s.ls[k].segs[i].lit) (fun i y hy => ?_) ⟨onlyAt_refl _ _, rfl, fun _ => rfl⟩
  obtain ⟨hothers, hshown, hlit⟩ := hy
  dsimp only
  have hturn : ∀ b : Bool, ∀ w : State,
      w.ls = (upd y.ls k fun l => { l with segs := upd l.segs i fun g => { g with notVer := b } }) →
      onlyAt k s.ls w.ls ∧ w.ls[k].shown = s.ls[k].shown ∧ ∀ j : Fin 8, w.ls[k].segs[j].lit = s.ls[k].segs[j].lit := by
    intro b w hw
    obtain ⟨hat, honly⟩ := changed_at hw
    have hsegs : (upd y.ls[k].segs i fun g => { g with notVer := b }).map Seg.shown = y.ls[k].segs.map Seg.shown :=
      segs_shown fun j => by rw [upd_at]; split <;> rfl
    refine ⟨onlyAt_trans hothers honly, ?_, fun j => ?_⟩
    · rw [hat, ← hshown, Ls.shown, hsegs]
      rfl
    · rw [hat, ← hlit j, upd_at]
      split <;> rfl
  split
  · exact hturn _ _ rfl
  · exact hturn _ _ rfl

theorem State.lsFrame_runs (cycles vOut : Nat) (hup : s.lsUp k = true) (hphase : s.pwr.phase ≠ .deep) :
    ∃ y : State, y.now = (s.advanceTo (s.ls[k].frameDue s.now)).now ∧
      y.ls = (upd s.ls k fun l => l.frameStarted k.val (s.ls[k].frameDue s.now) cycles vOut) ∧
      s.lsFrame k cycles vOut = (((if s.ls[k].probes then y.lsProbe k else y).modLs k Ls.trimmed).lsVerify k) := by
  refine ⟨_, ?_, ?_, if_pos (by rw [hup, bne_iff_ne.mpr hphase]; rfl)⟩
  · rfl
  · rw [State.modLs_ls, State.advanceTo_ls]
    exact upd_congr rfl

/-- What a frame start makes of its string, and of no other. -/
theorem State.lsFrame_at (cycles vOut : Nat) (hup : s.lsUp k = true) (hphase : s.pwr.phase ≠ .deep) :
    (s.lsFrame k cycles vOut).now = (s.advanceTo (s.ls[k].frameDue s.now)).now ∧
    (s.lsFrame k cycles vOut).ls[k].shown = (s.ls[k].frameStarted k.val (s.ls[k].frameDue s.now) cycles vOut).shown ∧
    (s.ls[k].frameNo % 64 = 0 → s.ls[k].probeM = 0 → ∀ i : Fin 8, (s.lsFrame k cycles vOut).ls[k].segs[i].lit =
      (s.ls[k].frameStarted k.val (s.ls[k].frameDue s.now) cycles vOut).segs[i].lit) ∧
    onlyAt k s.ls (s.lsFrame k cycles vOut).ls := by
  obtain ⟨y, hnow, hls, hrow⟩ := s.lsFrame_runs k cycles vOut hup hphase
  obtain ⟨hat, hothers⟩ := changed_at hls
  have hprobe : onlyAt k y.ls (if s.ls[k].probes then y.lsProbe k else y).ls ∧
      (if s.ls[k].probes then y.lsProbe k else y).ls[k].shown = y.ls[k].shown := by
    split
    · exact y.lsProbe_at k
    · exact ⟨onlyAt_refl _ _, rfl⟩
  have htrim : ((if s.ls[k].probes then y.lsProbe k else y).modLs k Ls.trimmed).ls[k] =
      (if s.ls[k].probes then y.lsProbe k else y).ls[k].trimmed := upd_get ..
  obtain ⟨hverOnly, hverShown, hverLit⟩ :=
    ((if s.ls[k].probes then y.lsProbe k else y).modLs k Ls.trimmed).lsVerify_at k
  rw [hrow]
  refine ⟨?_, ?_, fun hfirst hnone i => ?_, ?_⟩
  · rw [← hnow]
    refine (State.lsVerify_touch ..).now_eq (by decide) |>.trans ?_
    rw [State.now_congr _ (State.modLs_tmb ..)]
    split
    · exact (State.lsProbe_touch ..).now_eq (by decide)
    · rfl
  · rw [hverShown, htrim, Ls.trimmed_shown, hprobe.2, hat]
  · have hprobes : s.ls[k].probes = false := by
      rw [Ls.probes, hnone]
      simp
    rw [hverLit, htrim, hprobes, if_neg Bool.false_ne_true, hat]
    exact Ls.trimmed_lit _ i (Ls.frameStarted_share _ _ _ i hfirst)
  · exact onlyAt_trans (onlyAt_trans (onlyAt_trans hothers hprobe.1) (onlyAt_upd _ _ _)) hverOnly

theorem State.lsFrame_idle (cycles vOut : Nat) (h : s.lsUp k = false ∨ s.pwr.phase = .deep) : s.lsFrame k cycles vOut = s := by
  refine if_neg fun hgo => ?_
  rw [Bool.and_eq_true, bne_iff_ne] at hgo
  obtain ⟨hup, hphase⟩ := hgo
  exact h.elim (fun e => nomatch e.symm.trans hup) hphase

end

/-- Settles O29, by what each command makes of its string; a frame start by `State.lsFrame_at` and `Ls.frameStarted`. -/
theorem lampStringsRunTheirFrames : Obligations.LampStringsRunTheirFrames := by
  unfold Obligations.LampStringsRunTheirFrames
  refine ⟨?_, ?_, ?_, ?_, ?_, ?_, ?_, ?_, ?_, ?_, ?_, ?_, ?_, ?_, ?_, ?_, ?_⟩
  · intro s k r hmsg hup
    refine fires_deliver rfl hmsg hup (fun x => x.lsEntry_touch k) (by decide) fun htouch => ?_
    rw [State.lsEntry_answers] at htouch ⊢
    exact ⟨rfl, rfl, htouch⟩
  · intro s k r hmsg hup hst hbank htl
    refine fires_deliver rfl hmsg hup (fun x => x.lsGrantArrives_touch k) (by decide) fun htouch => ?_
    obtain ⟨hls, hadm⟩ := (s.gotMsg r).lsGrantArrives_starts k hst hbank htl
    obtain ⟨hat, hothers⟩ := changed_at hls
    refine ⟨?_, ?_, ?_, ?_, ?_, hothers, htouch⟩
    · rw [hat]; rfl
    · rw [hat]; rfl
    · rw [hat]; rfl
    · rw [hat]; rfl
    · rw [hadm]; rfl
  · intro s k r hmsg hup h
    refine fires_deliver rfl hmsg hup (fun x => x.lsGrantArrives_touch k) (by decide) fun _ => ?_
    rw [State.lsGrantArrives_returned (s.gotMsg r) k h]
    exact ⟨rfl, rfl, (State.modAdm_touch ..).step (State.toAdm_touch ..)⟩
  · intro s k r hmsg hup hst
    refine fires_deliver (ps := [.fab, .ls, .adm]) rfl hmsg hup (fun x => (x.lsDrop_touch k).mono (by decide)) (by decide)
      fun htouch => ?_
    obtain ⟨hat, hothers⟩ := changed_at ((s.gotMsg r).lsDrop_pending k hst)
    exact ⟨hat, hothers, htouch⟩
  · intro s k hup htmb hst
    obtain ⟨hnow, hls, hinbox⟩ := s.lsRampEnd_runs k hup hst
    obtain ⟨hat, hothers⟩ := changed_at hls
    exact ⟨_, rfl, hnow.trans (s.advanceTo_now_max _ htmb), hat, hinbox, hothers, State.lsRampEnd_touch ..⟩
  · intro s k r hmsg hup hst
    refine fires_deliver (ps := [.fab, .ls, .adm]) rfl hmsg hup (fun x => (x.lsDrop_touch k).mono (by decide)) (by decide)
      fun _ => ?_
    rw [State.lsDrop_other (s.gotMsg r) k hst]
    exact ⟨rfl, rfl, State.modAdm_touch ..⟩
  · exact fun l hst hlen => Ls.setMa_rises hst hlen
  · exact fun l k i hf => ⟨fun c hc => l.litAt_iff k i hf hc, fun c hc => l.litAt_late k.val i hc,
      fun c => l.shuntClosed_iff k.val i c, fun c hc => l.carryOf_early k.val i hc⟩
  · intro s k cycles vOut hup htmb hphase
    obtain ⟨hnow, hshown, hlit, hothers⟩ := s.lsFrame_at k cycles vOut hup hphase
    obtain ⟨hahead, hnew, hnear, hcount⟩ := s.ls[k].frameDue_ahead s.now
    rw [s.advanceTo_now _ htmb hahead] at hnow
    obtain ⟨hframeAt, hvOut, hnominal, hst, hdim, hfCyc⟩ := Ls.shown_fields hshown
    have hseg (i : Fin 8) : (s.lsFrame k cycles vOut).ls[k].segs[i].shown =
        (s.ls[k].segs[i].frame (bit s.ls[k].ctl 7) (s.lsFrame k cycles vOut).ls[k].dimEnt
          (s.lsFrame k cycles vOut).ls[k].fCyc (s.ls[k].carryOf k.val i cycles)).shown := by
      obtain ⟨share, hstart⟩ := s.ls[k].frameStarted_seg k.val (s.ls[k].frameDue s.now) cycles vOut i
      rw [Ls.shown_seg hshown i, hstart, hdim, hfCyc]
      rfl
    refine ⟨_, rfl, ?_, ?_, ?_, ?_, ?_, hvOut, hnominal, hst, fun i => (Seg.shown_fields (hseg i)).1,
      fun i => ?_, fun hfirst hnone i => ?_, hdim, ?_, hothers, State.lsFrame_touch ..⟩
    · rw [hnow]; exact hahead
    · rw [hnow]; exact hnew
    · rw [hnow]; exact hnear
    · rw [State.count, show (s.lsFrame k cycles vOut).tmb.now = _ from hnow]; exact hcount
    · rw [hnow]; exact hframeAt
    · obtain ⟨⟨happlied, -, -, -, hbypass⟩, hduty, htLit, hdark, hcarry⟩ := Seg.shown_fields (hseg i)
      refine ⟨?_, ?_, ?_, ?_⟩
      · rw [happlied]; exact hduty
      · rw [hduty]; exact htLit
      · rw [hduty, hbypass]; exact hdark
      · rw [hbypass]; exact hcarry
    · obtain ⟨⟨-, -, -, -, hbypass⟩, -, htLit, -, -⟩ := Seg.shown_fields (hseg i)
      obtain ⟨share, hstart⟩ := s.ls[k].frameStarted_seg k.val (s.ls[k].frameDue s.now) cycles vOut i
      rw [hlit hfirst hnone i, hstart, ← hdim, ← hfCyc, hbypass, htLit]
      rfl
    · rw [hfCyc, hnow]
      simp only [Ls.frameStarted, Ls.frameCount, Bool.or_eq_true, decide_eq_true_eq]
  · intro s k i mv c hup htmb hon hjudge hbyp
    obtain ⟨hnow, hls⟩ := s.lsJudge_runs k i mv hup hon hjudge hbyp
    obtain ⟨hat, hothers⟩ := changed_at hls
    refine ⟨_, rfl, hnow.trans (s.advanceTo_now_max _ htmb), ?_, ?_, ?_, ?_, ?_, hothers, State.lsJudge_touch ..⟩
    · rw [hat, upd_get]
    · rw [hat, upd_get, hnow]
    · rw [hat, upd_get]
    · rw [hat, upd_get]
    · rw [hat]
      exact onlyAt_upd _ _ _
  · exact fun l k i hcarry => l.judgeAt_fresh k i hcarry
  · exact fun s k i mv h => ⟨_, rfl, s.lsJudge_idle k i mv h⟩
  · exact fun s k h => ⟨_, rfl, s.deliver_idle _ h⟩
  · exact fun s k h => ⟨_, rfl, s.deliver_idle _ h⟩
  · exact fun s k h => ⟨_, rfl, s.deliver_idle _ h⟩
  · exact fun s k h => ⟨_, rfl, s.lsRampEnd_idle k h⟩
  · exact fun s k cycles vOut h => ⟨_, rfl, s.lsFrame_idle k cycles vOut h⟩

end Sys2Proof.Machine

/-! ## Valve channels: a grant and the course of an actuation (R202, R207 to R220) -/

namespace Sys2Proof.Machine

open Claims

section
variable (s : State) (n : Fin 16)

theorem State.vdEmit_vd (code : Nat) (arg : W32) : (s.vdEmit n code arg).vd = s.vd := State.emit_vd ..

theorem State.vdEmit_adm (code : Nat) (arg : W32) : (s.vdEmit n code arg).adm = s.adm := State.emit_adm ..

theorem State.vdEnter_adm (st : VdSt) : (s.vdEnter n st).adm = s.adm := rfl

/-- Of its group, an entry to a state changes only when it was last active. -/
theorem State.vdEnter_vg (st : VdSt) :
    ∃ t, (s.vdEnter n st).vg[groupOf n] = { s.vg[groupOf n] with activeAt := t } := by
  rw [State.vdEnter, State.modVg_vg, State.modVd_vg, upd_get]
  split
  · exact ⟨_, rfl⟩
  · exact ⟨_, rfl⟩

/-- Guard C depends on VLV.CTL and the channel's settings alone, guard A besides on the group and the bank (R220). -/
theorem State.vdC_congr {y : State} (hvlv : y.vlvCtl = s.vlvCtl) (hctl : y.vd[n].ctl = s.vd[n].ctl) : y.vdC n = s.vdC n := by
  rw [State.vdC, State.vdC, Vd.mode1, Vd.mode1, hvlv, hctl]

theorem State.vdA_congr {y : State} (hgctl : y.vg[groupOf n].ctl = s.vg[groupOf n].ctl)
    (hlatched : y.vg[groupOf n].latched = s.vg[groupOf n].latched) (hhsc : y.hsc = s.hsc)
    (hctl : y.vd[n].ctl = s.vd[n].ctl) (hprof : y.vd[n].profLoaded = s.vd[n].profLoaded) : y.vdA n = s.vdA n := by
  simp only [State.vdA, Vd.mode1, hgctl, hlatched, hhsc, hctl, hprof]

/-! ### Messages of ADM -/

theorem State.vdEntry_answers :
    s.vdEntry n = s.toAdm (if s.vd[n].st = .pending then .confirm (48 + n.val) else .refuse (48 + n.val) s.vd[n].st.code) := by
  unfold State.vdEntry
  by_cases hst : s.vd[n].st = .pending
  · rw [if_pos hst, if_pos (beq_iff_eq.mpr hst)]
  · rw [if_neg hst, if_neg fun h => hst (beq_iff_eq.mp h)]

/-- A channel whose grant has arrived at time `now`, `fit` being the setpoint that fits its group (R207, R211, R232). -/
def Vd.switchedOn (v : Vd) (now fit : Nat) : Vd :=
  { v with
    propIn := v.propCfg, ditherIn := v.ditherCfg, chgAt := none, ops := satN 64 (v.ops + 1), onAt := now, k := 0, iMax := 0,
    moving := false, arrived := false, chopped := false, peakEnd := now + v.tMax * 10, setNow := fit, setTo := fit,
    setAt := now, setLim := v.mode1 && decide (fit < { v with propIn := v.propCfg }.setIn), mark := .grantOn, markAt := now,
    decayDone := true, perNo := 0, perHit := false, st := if v.mode1 then .prop else .peak }

/-- The setpoint that fits a channel's group with the settings it takes up at its grant (R211, R212). -/
def State.grantFit (s : State) (n : Fin 16) : Nat :=
  (s.modVd n fun v => { v with propIn := v.propCfg, ditherIn := v.ditherCfg, chgAt := none }).setFit n

theorem State.vdGrantArrives_starts (hst : s.vd[n].st = .pending) :
    ((s.vdGrantArrives n).vd = upd s.vd n fun v => v.switchedOn s.now (s.grantFit n)) ∧ (s.vdGrantArrives n).adm = s.adm := by
  have hrow : s.vdGrantArrives n = _ := if_pos (beq_iff_eq.mpr hst)
  have hdig : ∀ y : State, ((y.zeroAbort (tVd n)).capTrigger (tVd n) 1).vd = y.vd := fun y => rfl
  have hadm : ∀ y : State, ((y.zeroAbort (tVd n)).capTrigger (tVd n) 1).adm = y.adm := fun y => rfl
  rw [hrow]
  refine ⟨?_, ?_⟩
  · rw [State.vdEmit_vd, hdig, State.vdEnter_vd, State.modVd_vd, State.modVd_vd, upd_upd, upd_upd]
    exact upd_congr rfl
  · rw [State.vdEmit_adm, hadm, State.vdEnter_adm, State.modVd_adm, State.modVd_adm]

theorem State.vdGrantArrives_returned (hst : s.vd[n].st ≠ .pending) :
    s.vdGrantArrives n = s.toAdm (.returned (48 + n.val)) := if_neg fun h => hst (beq_iff_eq.mp h)

theorem State.vdDrop_pending (hst : s.vd[n].st = .pending) :
    (s.vdDrop n).vd = upd s.vd n fun v => { v with claimHeld := false, cmdRes := 6, st := .idle } := by
  rw [State.vdDrop, if_pos (beq_iff_eq.mpr hst), State.vdEmit_vd, State.vdEnter_vd, State.modVd_vd, upd_upd]

/-! ### Claims -/

theorem State.vdRelease_vd : (s.vdRelease n).vd = upd s.vd n fun v => { v with claimHeld := false } := by
  unfold State.vdRelease
  split
  · rfl
  next hfree => exact (upd_self _ _ _ (by rw [← Bool.eq_false_of_not_eq_true hfree])).symm

theorem State.vdRelease_inbox (hclaim : s.vd[n].claimHeld = true) :
    (s.vdRelease n).adm.inbox = s.adm.inbox ++ [.release (48 + n.val)] := by
  rw [State.vdRelease, if_pos hclaim]
  rfl

/-! ### The peak -/

/-- Record `u` of channel `v` with the times of a hold that begins at time `now`; its group chops at `khz` (R210, R218). -/
def Vd.holdFrom (v : Vd) (now khz : Nat) (u : Vd) : Vd :=
  { u with
    holdAt := now, holdEnd := if v.holdMs v.holdCmd = 0 then none else some (now + v.holdMs v.holdCmd * 1000),
    perNo := u.chopNo khz now, perHit := false }

/-- A channel whose peak has ended at time `now` (R209, R210, R232). -/
def Vd.holds (v : Vd) (now khz : Nat) : Vd :=
  { v.holdFrom now khz v with
    missCnt := if v.arrEn && !v.arrived then satN 32 (v.missCnt + 1) else v.missCnt, claimHeld := false, st := .hold }

/-- A peak without the arrival it was to find is counted (R209). -/
abbrev State.missCounted (s : State) (n : Fin 16) (miss : Bool) (arg : W32) : State :=
  if miss then (s.modVd n fun v => { v with missCnt := satN 32 (v.missCnt + 1) }).vdEmit n 0x03 arg else s

theorem State.missCounted_at (miss : Bool) (arg : W32) :
    (s.missCounted n miss arg).now = s.now ∧ (s.missCounted n miss arg).adm = s.adm ∧
    (s.missCounted n miss arg).vd =
      upd s.vd n fun v => { v with missCnt := if miss then satN 32 (v.missCnt + 1) else v.missCnt } := by
  cases miss
  · exact ⟨rfl, rfl, (upd_self _ _ _ rfl).symm⟩
  · exact ⟨(State.vdEmit_touch ..).now_eq (by decide), State.vdEmit_adm .., State.vdEmit_vd ..⟩

/-- What the end of a peak leaves: the count of a missed arrival, the times of the hold and the claim's release. -/
abbrev State.peakOver (s : State) (n : Fin 16) (arg arg' : W32) : State :=
  let y := s.advanceTo s.vd[n].peakEnd
  ((((y.missCounted n (s.vd[n].arrEn && !s.vd[n].arrived) arg).modVd n
    (s.vd[n].holdFrom y.now s.vg[groupOf n].chopKhz)).vdRelease n).vdEnter n .hold).vdEmit n 0x04 arg'

theorem State.vdPeakEnd_eq (hup : s.vgUp (groupOf n) = true) (hst : s.vd[n].st = .peak) :
    ∃ arg arg' : W32, s.vdPeakEnd n = s.peakOver n arg arg' := by
  have hgo : (s.vgUp (groupOf n) && s.vd[n].st == .peak) = true := by rw [hup, hst]; rfl
  refine ⟨pack [(0, 16, satN 16 (((s.advanceTo s.vd[n].peakEnd).now - s.vd[n].onAt) / 10))],
    pack [(0, 16, satN 16 (((s.advanceTo s.vd[n].peakEnd).now - s.vd[n].onAt) / 10))], ?_⟩
  unfold State.vdPeakEnd State.peakOver Vd.holdFrom State.missCounted
  dsimp only
  rw [if_pos hgo]

theorem State.vdPeakEnd_runs (hup : s.vgUp (groupOf n) = true) (hst : s.vd[n].st = .peak) :
    (s.vdPeakEnd n).now = (s.advanceTo s.vd[n].peakEnd).now ∧
    ((s.vdPeakEnd n).vd = upd s.vd n fun v =>
      v.holds (s.advanceTo s.vd[n].peakEnd).now s.vg[groupOf n].chopKhz) ∧
    (s.vd[n].claimHeld = true → (s.vdPeakEnd n).adm.inbox = s.adm.inbox ++ [.release (48 + n.val)]) := by
  obtain ⟨arg, arg', hrow⟩ := s.vdPeakEnd_eq n hup hst
  obtain ⟨hmissNow, hmissAdm, hmissVd⟩ :=
    (s.advanceTo s.vd[n].peakEnd).missCounted_at n (s.vd[n].arrEn && !s.vd[n].arrived) arg
  rw [hrow]
  refine ⟨?_, ?_, fun hclaim => ?_⟩
  · rw [(State.vdEmit_touch ..).now_eq (by decide), (State.vdEnter_touch ..).now_eq (by decide),
      (State.vdRelease_touch ..).now_eq (by decide), State.now_congr _ (State.modVd_tmb ..), hmissNow]
  · rw [State.vdEmit_vd, State.vdEnter_vd, State.vdRelease_vd, State.modVd_vd, hmissVd, State.advanceTo_vd, upd_upd, upd_upd,
      upd_upd]
    exact upd_congr rfl
  · rw [State.vdEmit_adm, State.vdEnter_adm, State.vdRelease_inbox, State.modVd_adm, hmissAdm, State.advanceTo_adm]
    rw [State.modVd_vd, upd_get, hmissVd, State.advanceTo_vd, upd_get]
    exact hclaim

theorem State.vdPeakEnd_idle (h : s.vgUp (groupOf n) = false ∨ s.vd[n].st ≠ .peak) : s.vdPeakEnd n = s := by
  refine if_neg fun hgo => ?_
  rw [Bool.and_eq_true, beq_iff_eq] at hgo
  obtain ⟨hup, hst⟩ := hgo
  exact h.elim (fun e => nomatch e.symm.trans hup) fun e => e hst

/-- A sample in PEAK: the arrival search counts it and notes that the switch has chopped (R207, R208). -/
theorem Vd.arrival_counts (v : Vd) (i : Nat) (chop : Bool) :
    (v.arrival i chop).1.st = v.st ∧ (v.arrival i chop).1.chopped = (v.chopped || chop) ∧ (v.arrival i chop).1.k = v.k + 1 := by
  unfold Vd.arrival
  dsimp only
  repeat' split
  all_goals exact ⟨rfl, rfl, rfl⟩

theorem Vd.drive_peak {v : Vd} (hst : v.st = .peak) : v.drive = if v.chopped then .chopping else .full := by
  rw [Vd.drive, hst]

/-- A channel that has taken sample `i`: its last samples and the low ones of a decay (R207, R218). -/
def Vd.sampled (i : Nat) (v : Vd) : Vd :=
  { v with
    recent := (i :: v.recent).take 16,
    decayN := if v.decayDone then v.decayN else if i < 50 then v.decayN + 1 else 0 }

theorem State.vdSample_peak (top : Nat) (hst : s.vd[n].st = .peak) :
    ∃ v, (s.vdSample n top).vd = (upd s.vd n fun _ => v) ∧ v.st = .peak ∧ v.k = s.vd[n].k + 1 ∧
      v.chopped = (s.vd[n].chopped || decide (s.vd[n].iPeak * 10 ≤ max top s.dig[tVd n].i)) := by
  have hhit : ∀ trim : Nat, decide (s.vd[n].threshold s.now trim ≤ (max top s.dig[tVd n].i : Nat)) =
      decide (s.vd[n].iPeak * 10 ≤ max top s.dig[tVd n].i) := fun trim => by
    rw [Vd.threshold, hst]
    exact decide_eq_decide.mpr Nat.cast_le
  obtain ⟨arg, hrow⟩ : ∃ arg, s.vdSample n top =
      if (((s.draw 8).2.modVd n (Vd.sampled s.dig[tVd n].i)).vd[n].arrival s.dig[tVd n].i
          (decide (s.vd[n].threshold s.now (s.draw 8).1 ≤ (max top s.dig[tVd n].i : Nat)))).2 then
        (((s.draw 8).2.modVd n (Vd.sampled s.dig[tVd n].i)).modVd n fun _ =>
          (((s.draw 8).2.modVd n (Vd.sampled s.dig[tVd n].i)).vd[n].arrival s.dig[tVd n].i
            (decide (s.vd[n].threshold s.now (s.draw 8).1 ≤ (max top s.dig[tVd n].i : Nat)))).1).vdEmit n 0x02 arg
      else ((s.draw 8).2.modVd n (Vd.sampled s.dig[tVd n].i)).modVd n fun _ =>
        (((s.draw 8).2.modVd n (Vd.sampled s.dig[tVd n].i)).vd[n].arrival s.dig[tVd n].i
          (decide (s.vd[n].threshold s.now (s.draw 8).1 ≤ (max top s.dig[tVd n].i : Nat)))).1 := by
    unfold State.vdSample
    rw [hst]
    exact ⟨_, rfl⟩
  have hfirst : ((s.draw 8).2.modVd n (Vd.sampled s.dig[tVd n].i)).vd[n] = Vd.sampled s.dig[tVd n].i s.vd[n] := by
    rw [State.modVd_vd, upd_get, State.draw_vd]
  rw [hhit, hfirst] at hrow
  obtain ⟨hst', hchop, hk⟩ :=
    (Vd.sampled s.dig[tVd n].i s.vd[n]).arrival_counts s.dig[tVd n].i (decide (s.vd[n].iPeak * 10 ≤ max top s.dig[tVd n].i))
  refine ⟨_, ?_, hst'.trans hst, hk, hchop⟩
  rw [hrow]
  split <;> simp only [State.vdEmit_vd, State.modVd_vd, State.draw_vd, upd_upd]

/-! ### The claim of a proportional channel -/

theorem State.vdClaimSettle_runs (hup : s.vgUp (groupOf n) = true) (hst : s.vd[n].st = .prop)
    (hclaim : s.vd[n].claimHeld = true) (htmb : s.tmbRuns = true) :
    ∃ y : State, s.vdClaimSettle n = y.vdRelease n ∧ y.vd = s.vd ∧ y.adm = s.adm ∧
      y.now = if 9 * (s.vd[n].setIn : Rat) ≤ 10 * s.dig[tVd n].msMean then s.now else max s.now (s.vd[n].onAt + 10000) := by
  have hrow : s.vdClaimSettle n = _ := if_pos (by rw [hup, hst, hclaim]; rfl)
  rw [hrow]
  split_ifs
  · exact ⟨s, rfl, rfl, rfl, rfl⟩
  · exact ⟨_, rfl, State.advanceTo_vd .., State.advanceTo_adm .., s.advanceTo_now_max _ htmb⟩

theorem State.vdClaimSettle_idle (h : s.vgUp (groupOf n) = false ∨ s.vd[n].st ≠ .prop ∨ s.vd[n].claimHeld = false) :
    s.vdClaimSettle n = s := by
  refine if_neg fun hgo => ?_
  rw [Bool.and_eq_true, Bool.and_eq_true, beq_iff_eq] at hgo
  obtain ⟨⟨hup, hst⟩, hclaim⟩ := hgo
  rcases h with h | h | h
  · exact nomatch h.symm.trans hup
  · exact h hst
  · exact nomatch h.symm.trans hclaim

/-! ### Switching off -/

/-- A channel turned off at time `now` into state `st` (R202, R218). -/
def Vd.turnedOff (v : Vd) (now : Nat) (st : VdSt) : Vd :=
  { v with
    onUs := v.onUs + (now - v.onAt), decayAt := now, decayN := 0, decayDone := false, sat := false, setLim := false,
    claimHeld := false, st := st }

theorem State.vdOff_vd (st : VdSt) : (s.vdOff n st).vd = upd s.vd n fun v => v.turnedOff s.now st := by
  have hdig : ∀ y : State, (y.capTrigger (tVd n) 2).vd = y.vd := fun y => rfl
  rw [State.vdOff, hdig, State.vdEnter_vd, State.vdRelease_vd, State.modVd_vd, upd_upd, upd_upd]
  rfl

theorem State.vdHoldEnd_runs {t : Nat} (hup : s.vgUp (groupOf n) = true) (hst : s.vd[n].st = .hold)
    (hend : s.vd[n].holdEnd = some t) :
    (s.vdHoldEnd n).now = (s.advanceTo t).now ∧
    (s.vdHoldEnd n).vd = upd s.vd n fun v =>
      { v.turnedOff (s.advanceTo t).now .decay with mark := .holdEnd, markAt := (s.advanceTo t).now } := by
  have hgo : (s.vgUp (groupOf n) && s.vd[n].st == .hold) = true := by rw [hup, hst]; rfl
  have hstamp : ∀ (y : State) (c : Nat) (a : W32), (y.vdEmit n c a).now = y.now := fun y c a =>
    (y.vdEmit_touch n c a).now_eq (by decide)
  rw [State.vdHoldEnd, hend]
  dsimp only
  rw [if_pos hgo]
  refine ⟨?_, ?_⟩
  · rw [State.now_congr _ (State.modVd_tmb ..), (State.vdOff_touch ..).now_eq (by decide), hstamp]
  · rw [State.modVd_vd, State.vdOff_vd, hstamp, State.vdEmit_vd, State.advanceTo_vd, upd_upd]

theorem State.vdHoldEnd_idle (h : s.vgUp (groupOf n) = false ∨ s.vd[n].st ≠ .hold ∨ s.vd[n].holdEnd = none) :
    s.vdHoldEnd n = s := by
  unfold State.vdHoldEnd
  dsimp only
  split
  · rfl
  next t hend =>
    refine if_neg fun hgo => ?_
    rw [Bool.and_eq_true, beq_iff_eq] at hgo
    obtain ⟨hup, hst⟩ := hgo
    rcases h with h | h | h
    · exact nomatch h.symm.trans hup
    · exact h hst
    · exact nomatch h.symm.trans hend

/-! ### The end of a decay -/

/-- What the end of a decay makes of a channel at time `now`; `c` is guard C (R220). -/
def Vd.decayed (v : Vd) (c : Bool) (now : Nat) : Vd :=
  if v.st = .decay then
    if bit v.ctl 0 = false then { v with held := none, st := .disabled }
    else if c = true then { v with gapAt := now, st := .gap }
    else { v with st := .idle }
  else v

theorem Vd.decayed_st (v : Vd) (c : Bool) (now : Nat) :
    (v.decayed c now).st =
      if v.st ≠ .decay then v.st else if bit v.ctl 0 = false then .disabled else if c = true then .gap else .idle := by
  unfold Vd.decayed
  by_cases hst : v.st = .decay
  · rw [if_pos hst, if_neg (not_not.mpr hst)]
    split_ifs <;> rfl
  · rw [if_neg hst, if_pos hst]

theorem Vd.decayed_marks (v : Vd) (c : Bool) (now : Nat) :
    (v.decayed c now).decayDone = v.decayDone ∧ (v.decayed c now).slowDecay = v.slowDecay := by
  unfold Vd.decayed
  split_ifs <;> exact ⟨rfl, rfl⟩

theorem State.vdDecayEnd_other (hst : s.vd[n].st ≠ .decay) : s.vdDecayEnd n = s := if_neg fun h => hst (beq_iff_eq.mp h)

theorem State.vdDecayEnd_vd : (s.vdDecayEnd n).vd = upd s.vd n fun v => v.decayed (s.vdC n) s.now := by
  unfold State.vdDecayEnd
  by_cases hst : s.vd[n].st = .decay
  · rw [if_pos (beq_iff_eq.mpr hst)]
    split
    next hen =>
      rw [State.vdEnter_vd, State.modVd_vd, upd_upd]
      refine upd_congr ?_
      rw [Vd.decayed, if_pos hst, if_pos (Bool.not_eq_true' _ |>.mp hen)]
    next hen =>
      have hon : ¬ bit s.vd[n].ctl 0 = false := fun e => hen (by rw [e]; rfl)
      split
      next hc =>
        rw [State.vdEnter_vd, State.modVd_vd, upd_upd]
        refine upd_congr ?_
        rw [Vd.decayed, if_pos hst, if_neg hon, if_pos hc]
      next hc =>
        rw [State.vdEnter_vd]
        refine upd_congr ?_
        rw [Vd.decayed, if_pos hst, if_neg hon, if_neg hc]
  · rw [if_neg fun h => hst (beq_iff_eq.mp h)]
    exact (upd_self _ _ _ (if_neg hst)).symm

theorem State.vdReleased_vd (slow : Bool) :
    (s.vdReleased n slow).vd = upd s.vd n fun v =>
      { v with decayDone := true, slowDecay := slow }.decayed (s.vdC n) s.now := by
  obtain ⟨arg, hrow⟩ : ∃ arg, s.vdReleased n slow =
      ((s.modVd n fun v => { v with decayDone := true, slowDecay := slow }).vdEmit n 0x06 arg).vdDecayEnd n := ⟨_, rfl⟩
  have hguard : ((s.modVd n fun v => { v with decayDone := true, slowDecay := slow }).vdEmit n 0x06 arg).vdC n = s.vdC n :=
    s.vdC_congr n rfl (by rw [State.vdEmit_vd, State.modVd_vd, upd_get])
  rw [hrow, State.vdDecayEnd_vd, hguard, (State.vdEmit_touch ..).now_eq (by decide), State.vdEmit_vd, State.modVd_vd, upd_upd]
  rfl

theorem State.vdDecayComplete_runs (hup : s.vgUp (groupOf n) = true) (hdecay : s.vd[n].decayDone = false)
    (hlow : 10 ≤ s.vd[n].decayN) : s.vdDecayComplete n = s.vdReleased n false :=
  if_pos (by rw [hup, hdecay, decide_eq_true hlow]; rfl)

theorem State.vdDecayComplete_idle
    (h : s.vgUp (groupOf n) = false ∨ s.vd[n].decayDone = true ∨ s.vd[n].decayN < 10) : s.vdDecayComplete n = s := by
  refine if_neg fun hgo => ?_
  rw [Bool.and_eq_true, Bool.and_eq_true, Bool.not_eq_true', decide_eq_true_iff] at hgo
  obtain ⟨⟨hup, hdecay⟩, hlow⟩ := hgo
  rcases h with h | h | h
  · exact nomatch h.symm.trans hup
  · exact nomatch h.symm.trans hdecay
  · omega

theorem State.vdDecayTimeout_runs (hup : s.vgUp (groupOf n) = true) (hdecay : s.vd[n].decayDone = false) :
    s.vdDecayTimeout n = (s.advanceTo (s.vd[n].decayAt + 100000)).vdReleased n true :=
  if_pos (by rw [hup, hdecay]; rfl)

theorem State.vdDecayTimeout_idle (h : s.vgUp (groupOf n) = false ∨ s.vd[n].decayDone = true) : s.vdDecayTimeout n = s := by
  refine if_neg fun hgo => ?_
  rw [Bool.and_eq_true, Bool.not_eq_true'] at hgo
  obtain ⟨hup, hdecay⟩ := hgo
  exact h.elim (fun e => nomatch e.symm.trans hup) fun e => nomatch e.symm.trans hdecay

/-! ### The gap -/

/-- The state in which a channel has left GAP, before a held command acts. -/
abbrev State.gapOver (s : State) (n : Fin 16) : State :=
  ((s.advanceTo (s.vd[n].gapAt + max 1 (fld s.vd[n].gapCfg 0 8) * 100)).modVd n fun v => { v with held := none }).vdEnter n .idle

theorem State.gapOver_vd : (s.gapOver n).vd = upd s.vd n fun v => { v with held := none, st := .idle } := by
  rw [State.vdEnter_vd, State.modVd_vd, State.advanceTo_vd, upd_upd]

theorem State.gapOver_vg : ∃ t, (s.gapOver n).vg[groupOf n] = { s.vg[groupOf n] with activeAt := t } := by
  have h := ((s.advanceTo (s.vd[n].gapAt + max 1 (fld s.vd[n].gapCfg 0 8) * 100)).modVd n fun v =>
    { v with held := none }).vdEnter_vg n .idle
  rwa [State.modVd_vg, State.advanceTo_vg] at h

theorem State.gapOver_hsc : (s.gapOver n).hsc = s.hsc := by
  rw [State.gapOver, (State.vdEnter_touch ..).same .hsc (by decide), State.modVd_hsc, State.advanceTo_hsc]

theorem State.gapOver_vdA : (s.gapOver n).vdA n = s.vdA n := by
  obtain ⟨t, hvg⟩ := s.gapOver_vg n
  have hvd := s.gapOver_vd n
  refine s.vdA_congr n ?_ ?_ (s.gapOver_hsc n) ?_ ?_
  · rw [hvg]
  · rw [hvg]
  · rw [hvd, upd_get]
  · rw [hvd, upd_get]

theorem State.vdGapEnd_free (hup : s.vgUp (groupOf n) = true) (hst : s.vd[n].st = .gap) (hheld : s.vd[n].held = none) :
    s.vdGapEnd n = s.gapOver n := by
  rw [State.vdGapEnd]
  dsimp only
  rw [if_pos (by rw [hup, hst]; rfl), hheld]

theorem State.vdGapEnd_barred {hold : Nat} (hup : s.vgUp (groupOf n) = true) (hst : s.vd[n].st = .gap)
    (hheld : s.vd[n].held = some hold) (hbarred : s.vdA n = false) : s.vdGapEnd n = (s.gapOver n).vdRes n 2 := by
  have hguard : (s.gapOver n).vdA n = false := (s.gapOver_vdA n).trans hbarred
  rw [State.vdGapEnd]
  dsimp only
  rw [if_pos (by rw [hup, hst]; rfl), hheld]
  exact if_neg (by rw [hguard]; exact Bool.false_ne_true)

theorem State.vdGapEnd_idle (h : s.vgUp (groupOf n) = false ∨ s.vd[n].st ≠ .gap) : s.vdGapEnd n = s := by
  refine if_neg fun hgo => ?_
  rw [Bool.and_eq_true, beq_iff_eq] at hgo
  obtain ⟨hup, hst⟩ := hgo
  exact h.elim (fun e => nomatch e.symm.trans hup) fun e => e hst

/-! ### Deferral -/

theorem State.vdPending_vd : (s.vdPending n).vd = upd s.vd n fun v => { v with claimHeld := true, st := .pending } := by
  have hdig : ∀ y : State, (y.zeroAbort (tVd n)).vd = y.vd := fun y => rfl
  rw [State.vdPending, State.toAdm_vd, hdig, State.vdEnter_vd, State.modVd_vd, upd_upd]

theorem State.vdPending_inbox : ∃ a, (s.vdPending n).adm.inbox = s.adm.inbox ++ [a] := ⟨_, rfl⟩

theorem State.deferLeave_runs {g : Fin 4} (hfirst : s.firstDefer g = some n) (hup : s.vgUp g = true)
    (hsw : s.vg[g].swOn = true) (hready : s.vg[g].ready = true)
    (hfits : s.groupLoad g n.val + s.vd[n].own ≤ s.vg[g].limLoad) : s.deferLeave g = s.vdPending n := by
  rw [State.deferLeave, hfirst]
  exact if_pos (by rw [hup, hsw, hready, decide_eq_true hfits]; rfl)

theorem State.deferLeave_idle {g : Fin 4}
    (h : s.firstDefer g = none ∨ s.vgUp g = false ∨ s.vg[g].swOn = false ∨ s.vg[g].ready = false) : s.deferLeave g = s := by
  unfold State.deferLeave
  split
  · rfl
  next n hfirst =>
    refine if_neg fun hgo => ?_
    simp only [Bool.and_eq_true] at hgo
    obtain ⟨⟨⟨hup, hsw⟩, hready⟩, -⟩ := hgo
    rcases h with h | h | h | h
    · exact nomatch h.symm.trans hfirst
    · exact nomatch h.symm.trans hup
    · exact nomatch h.symm.trans hsw
    · exact nomatch h.symm.trans hready

theorem State.vdBusy_vd (us : Nat) : (s.vdBusy n us).vd = upd s.vd n fun v => { v with cmdRes := 5 } := by
  rw [State.vdBusy, State.vdEmit_vd, State.modVg_vd, State.vdRes_vd]

theorem State.vdBusy_vg (us : Nat) :
    (s.vdBusy n us).vg = upd s.vg (groupOf n) fun g => { g with cntBusy := satN 16 (g.cntBusy + 1) } := by
  rw [State.vdBusy, State.vdEmit, State.emit_vg, State.modVg_vg]
  rfl

/-- A start that has waited too long: back to IDLE, with GROUP_BUSY (R216). -/
theorem State.deferTimeout_runs (hup : s.vgUp (groupOf n) = true) (hst : s.vd[n].st = .defer)
    (hfrom : s.vd[n].startedFrom = .idle) :
    (s.deferTimeout n).now = (s.advanceTo (s.vd[n].deferAt + fld s.vd[n].deferCfg 0 16 * 1000)).now ∧
    ((s.deferTimeout n).vd = upd s.vd n fun v => { v with st := .idle, cmdRes := 5 }) ∧
    (s.deferTimeout n).vg[groupOf n].cntBusy = satN 16 (s.vg[groupOf n].cntBusy + 1) := by
  obtain ⟨us, hrow⟩ : ∃ us, s.deferTimeout n =
      if s.vd[n].decayDone then
        (((s.advanceTo (s.vd[n].deferAt + fld s.vd[n].deferCfg 0 16 * 1000)).vdEnter n .idle).vdBusy n us).vdDecayEnd n
      else ((s.advanceTo (s.vd[n].deferAt + fld s.vd[n].deferCfg 0 16 * 1000)).vdEnter n .idle).vdBusy n us :=
    ⟨_, (if_pos (by rw [hup, hst]; rfl) : s.deferTimeout n = _).trans (by rw [hfrom])⟩
  have hvd : (((s.advanceTo (s.vd[n].deferAt + fld s.vd[n].deferCfg 0 16 * 1000)).vdEnter n .idle).vdBusy n us).vd =
      upd s.vd n fun v => { v with st := .idle, cmdRes := 5 } := by
    rw [State.vdBusy_vd, State.vdEnter_vd, State.advanceTo_vd, upd_upd]
  rw [State.vdDecayEnd_other _ n (by rw [hvd, upd_get]; exact VdSt.noConfusion), ite_self] at hrow
  obtain ⟨t, hvg⟩ := (s.advanceTo (s.vd[n].deferAt + fld s.vd[n].deferCfg 0 16 * 1000)).vdEnter_vg n .idle
  rw [hrow]
  refine ⟨?_, hvd, ?_⟩
  · rw [(State.vdBusy_touch ..).now_eq (by decide), (State.vdEnter_touch ..).now_eq (by decide)]
  · rw [State.vdBusy_vg, upd_get, hvg, State.advanceTo_vg]

theorem State.deferTimeout_idle (h : s.vgUp (groupOf n) = false ∨ s.vd[n].st ≠ .defer) : s.deferTimeout n = s := by
  refine if_neg fun hgo => ?_
  rw [Bool.and_eq_true, beq_iff_eq] at hgo
  obtain ⟨hup, hst⟩ := hgo
  exact h.elim (fun e => nomatch e.symm.trans hup) fun e => e hst

end

theorem State.sampleRow_valve (s : State) (n : Fin 16) (raw tj : Int) (top : Nat) (hruns : s.digRuns (tVd n).val = true) :
    s.sampleRow (tVd n) raw tj top = ((s.advanceTo (s.dig[tVd n].at_ + 20)).sample (tVd n) raw tj).vdSample n top := by
  have hhigh : ¬ (tVd n).val < 48 := Nat.not_lt.mpr (Nat.le_add_right 48 n.val)
  have hvalve : (tVd n).val < 64 := Nat.add_lt_add_left n.isLt 48
  have hself : (⟨(tVd n).val - 48, by omega⟩ : Fin 16) = n := Fin.ext (Nat.add_sub_cancel_left 48 n.val)
  rw [State.sampleRow, if_pos hruns]
  dsimp only
  rw [dif_neg hhigh, dif_pos hvalve, hself]

/-- Settles O26, by what each command makes of its channel; the switch of a peak by `State.vdSample_peak`. -/
theorem valveActuationsRunTheirCourse : Obligations.ValveActuationsRunTheirCourse := by
  unfold Obligations.ValveActuationsRunTheirCourse
  refine ⟨?_, ?_, ?_, ?_, ?_, ?_, ?_, ?_, ?_, ?_, ?_, ?_, ?_, ?_, ?_, ?_, ?_, ?_, ?_, ?_, ?_, ?_, ?_, ?_, ?_⟩
  · intro s n r hmsg hup
    refine fires_deliver rfl hmsg hup (fun x => x.vdEntry_touch n) (by decide) fun htouch => ?_
    rw [State.vdEntry_answers] at htouch ⊢
    exact ⟨rfl, rfl, rfl, htouch⟩
  · intro s n r hmsg hup hst
    refine fires_deliver rfl hmsg hup (fun x => x.vdGrantArrives_touch n) (by decide) fun htouch => ?_
    obtain ⟨hvd, hadm⟩ := (s.gotMsg r).vdGrantArrives_starts n hst
    obtain ⟨hat, hothers⟩ := changed_at hvd
    refine ⟨?_, ?_, ?_, ?_, ?_, ?_, hothers, htouch⟩
    · rw [hat]; rfl
    · rw [hat]; rfl
    · rw [hat]; rfl
    · rw [hat]; rfl
    · rw [hat]; rfl
    · rw [hadm]; rfl
  · intro s n raw tj top hruns htmb hst
    have hvd : ((s.advanceTo (s.dig[tVd n].at_ + 20)).sample (tVd n) raw tj).vd = s.vd :=
      ((State.sample_touch ..).same .vd (by decide)).trans (State.advanceTo_vd ..)
    obtain ⟨v, hrow, hst', hk, hchop⟩ :=
      ((s.advanceTo (s.dig[tVd n].at_ + 20)).sample (tVd n) raw tj).vdSample_peak n top (by rw [hvd]; exact hst)
    have hdig := (((s.advanceTo (s.dig[tVd n].at_ + 20)).sample (tVd n) raw tj).vdSample_touch n top).same .dig (by decide)
    rw [← s.sampleRow_valve n raw tj top hruns] at hrow hdig
    rw [← hdig] at hchop
    rw [hvd] at hrow hk hchop
    obtain ⟨hat, hothers⟩ := changed_at hrow
    refine ⟨_, rfl, ?_, ?_, ?_, ?_, hothers, State.sampleRow_touch ..⟩
    · rw [hat]; exact hst'
    · rw [hat]; exact hchop
    · rw [hat]; exact Vd.drive_peak hst'
    · rw [hat]; exact hk
  · intro s n r hmsg hup hst
    refine fires_deliver rfl hmsg hup (fun x => x.vdGrantArrives_touch n) (by decide) fun _ => ?_
    rw [State.vdGrantArrives_returned (s.gotMsg r) n hst]
    exact ⟨rfl, rfl, (State.modAdm_touch ..).step (State.toAdm_touch ..)⟩
  · intro s n r hmsg hup hst
    refine fires_deliver (ps := [.fab, .vg, .vd, .adm]) rfl hmsg hup (fun x => (x.vdDrop_touch n).mono (by decide))
      (by decide) fun htouch => ?_
    obtain ⟨hat, hothers⟩ := changed_at ((s.gotMsg r).vdDrop_pending n hst)
    refine ⟨?_, ?_, ?_, hothers, htouch⟩
    · rw [hat]
    · rw [hat]
    · rw [hat]
  · intro s n hup htmb hst
    obtain ⟨hnow, hvd, hinbox⟩ := s.vdPeakEnd_runs n hup hst
    obtain ⟨hat, hothers⟩ := changed_at hvd
    rw [← hnow] at hat
    refine ⟨_, rfl, hnow.trans (s.advanceTo_now_max _ htmb), ?_, ?_, ?_, ?_, ?_, hinbox, hothers, State.vdPeakEnd_touch ..⟩
    · rw [hat]; rfl
    · rw [hat]; rfl
    · rw [hat]; rfl
    · rw [hat]
      simp only [Vd.holds, Vd.holdFrom, Bool.and_eq_true, Bool.not_eq_true']
    · rw [hat]; rfl
  · intro s n hup htmb hst hclaim
    obtain ⟨y, hrow, hvd, hadm, hnow⟩ := s.vdClaimSettle_runs n hup hst hclaim htmb
    obtain ⟨hat, hothers⟩ := changed_at ((y.vdRelease_vd n).trans (by rw [hvd]))
    refine ⟨_, rfl, ?_, ?_, ?_, ?_, State.vdClaimSettle_touch ..⟩ <;> rw [hrow]
    · exact ((State.vdRelease_touch ..).now_eq (by decide)).trans hnow
    · exact hat
    · rw [y.vdRelease_inbox n (by rw [hvd]; exact hclaim), hadm]
    · exact hothers
  · intro s n x hup htmb hst hend
    obtain ⟨hnow, hvd⟩ := s.vdHoldEnd_runs n hup hst hend
    obtain ⟨hat, hothers⟩ := changed_at hvd
    rw [← hnow] at hat
    refine ⟨_, rfl, hnow.trans (s.advanceTo_now_max _ htmb), ?_, ?_, ?_, ?_, ?_, hothers, State.vdHoldEnd_touch ..⟩
    · rw [hat]; rfl
    · rw [hat]; rfl
    · rw [hat]; rfl
    · rw [hat]; rfl
    · rw [hat]; rfl
  · intro s n hup hdecay hlow
    have hrow := s.vdDecayComplete_runs n hup hdecay hlow
    obtain ⟨hat, hothers⟩ := changed_at ((congrArg State.vd hrow).trans (s.vdReleased_vd n false))
    refine ⟨_, rfl, ?_, ?_, ?_, hothers, State.vdDecayComplete_touch ..⟩
    · rw [hat, Vd.decayed_st]
    · rw [hat, (Vd.decayed_marks ..).1]
    · rw [hat, (Vd.decayed_marks ..).2]
  · intro s n hup htmb hdecay
    have hrow := s.vdDecayTimeout_runs n hup hdecay
    have hguard : (s.advanceTo (s.vd[n].decayAt + 100000)).vdC n = s.vdC n :=
      s.vdC_congr n (State.advanceTo_vlvCtl ..) (by rw [State.advanceTo_vd])
    have hvd := (congrArg State.vd hrow).trans ((s.advanceTo (s.vd[n].decayAt + 100000)).vdReleased_vd n true)
    rw [hguard, State.advanceTo_vd] at hvd
    obtain ⟨hat, hothers⟩ := changed_at hvd
    refine ⟨_, rfl, ?_, ?_, ?_, ?_, hothers, State.vdDecayTimeout_touch ..⟩
    · rw [hrow, (State.vdReleased_touch ..).now_eq (by decide), s.advanceTo_now_max _ htmb]
    · rw [hat, Vd.decayed_st]
    · rw [hat, (Vd.decayed_marks ..).1]
    · rw [hat, (Vd.decayed_marks ..).2]
  · intro s n hup htmb hst hheld
    have hrow := s.vdGapEnd_free n hup hst hheld
    obtain ⟨hat, hothers⟩ := changed_at ((congrArg State.vd hrow).trans (s.gapOver_vd n))
    refine ⟨_, rfl, ?_, ?_, ?_, hothers, State.vdGapEnd_touch ..⟩
    · rw [hrow, State.gapOver, (State.vdEnter_touch ..).now_eq (by decide), State.now_congr _ (State.modVd_tmb ..),
        s.advanceTo_now_max _ htmb]
    · rw [hat]
    · rw [hat]
  · intro s n hold hup _ hst hheld hbarred
    have hvd := congrArg State.vd (s.vdGapEnd_barred n hup hst hheld hbarred)
    rw [State.vdRes_vd, State.gapOver_vd, upd_upd] at hvd
    obtain ⟨hat, hothers⟩ := changed_at hvd
    refine ⟨_, rfl, ?_, ?_, ?_, hothers, State.vdGapEnd_touch ..⟩
    · rw [hat]
    · rw [hat]
    · rw [hat]
  · intro s g n hfirst hup hsw hready hfits
    have hrow := s.deferLeave_runs n hfirst hup hsw hready hfits
    obtain ⟨hat, hothers⟩ := changed_at ((congrArg State.vd hrow).trans (s.vdPending_vd n))
    obtain ⟨a, hinbox⟩ := s.vdPending_inbox n
    refine ⟨_, rfl, ?_, ?_, ?_, hothers, State.deferLeave_touch ..⟩
    · rw [hat]
    · rw [hat]
    · rw [hrow, hinbox, List.length_append]
      rfl
  · intro s n hup htmb hst hfrom
    obtain ⟨hnow, hvd, hbusy⟩ := s.deferTimeout_runs n hup hst hfrom
    obtain ⟨hat, hothers⟩ := changed_at hvd
    refine ⟨_, rfl, hnow.trans (s.advanceTo_now_max _ htmb), ?_, ?_, hbusy, hothers, State.deferTimeout_touch ..⟩
    · rw [hat]
    · rw [hat]
  · exact fun s g h => ⟨_, rfl, s.deferLeave_idle h⟩
  · exact fun s n h => ⟨_, rfl, s.deferTimeout_idle n h⟩
  · exact fun s n h => ⟨_, rfl, s.deliver_idle _ h⟩
  · exact fun s n h => ⟨_, rfl, s.deliver_idle _ h⟩
  · exact fun s n h => ⟨_, rfl, s.deliver_idle _ h⟩
  · exact fun s n h => ⟨_, rfl, s.vdPeakEnd_idle n h⟩
  · exact fun s n h => ⟨_, rfl, s.vdClaimSettle_idle n h⟩
  · exact fun s n h => ⟨_, rfl, s.vdHoldEnd_idle n h⟩
  · exact fun s n h => ⟨_, rfl, s.vdDecayComplete_idle n h⟩
  · exact fun s n h => ⟨_, rfl, s.vdDecayTimeout_idle n h⟩
  · exact fun s n h => ⟨_, rfl, s.vdGapEnd_idle n h⟩

end Sys2Proof.Machine
/-! ## ADM's queue: what stays of an entry (R161 to R166) -/

namespace Sys2Proof.Machine

open Claims

section
variable (a : Adm) (t u : Nat)

theorem Adm.entry_congr {b : Adm} (h : b.queue = a.queue) : b.entry u = a.entry u := by rw [Adm.entry, Adm.entry, h]

theorem Adm.entry_eq_none : a.entry u = none ↔ ∀ e ∈ a.queue, e.target ≠ u := by simp [Adm.entry]

@[simp] theorem Adm.setClaim_queue (v : W32) : (a.setClaim t v).queue = a.queue := by unfold Adm.setClaim; split <;> rfl

@[simp] theorem Adm.setClaim_toTgt (v : W32) : (a.setClaim t v).toTgt = a.toTgt := by unfold Adm.setClaim; split <;> rfl

@[simp] theorem Adm.send_queue (m : ToTgt) : (a.send t m).queue = a.queue := by unfold Adm.send; split <;> rfl

@[simp] theorem Adm.send_slots (m : ToTgt) : (a.send t m).slots = a.slots := by unfold Adm.send; split <;> rfl

theorem Adm.send_toTgt (m : ToTgt) : (a.send t m).toTgt = a.toTgt ++ if t ≤ 66 then [(t, m)] else [] := by
  unfold Adm.send
  split
  · rfl
  · exact (List.append_nil _).symm

@[simp] theorem Adm.drop_queue : (a.drop t).queue = (a.removeEntry t).queue := by simp [Adm.drop]

theorem Adm.drop_toTgt : (a.drop t).toTgt = a.toTgt ++ if t ≤ 66 then [(t, .drop)] else [] := by
  rw [Adm.drop, Adm.send_toTgt, Adm.setClaim_toTgt]
  rfl

theorem Adm.removeEntry_entry : (a.removeEntry t).entry u = if u = t then none else a.entry u := by
  rw [Adm.entry, Adm.removeEntry, List.find?_filter]
  split
  next h =>
    subst h
    simp
  next h =>
    rw [Adm.entry]
    congr 1
    funext e
    by_cases he : e.target = u
    · simp [he, h]
    · simp [he]

theorem Adm.drop_entry : (a.drop t).entry u = if u = t then none else a.entry u :=
  (Adm.entry_congr _ u (a.drop_queue t)).trans (a.removeEntry_entry t u)

theorem Adm.modEntry_entry {f : Entry → Entry} (hf : ∀ e, (f e).target = e.target) :
    (a.modEntry t f).entry u = (a.entry u).map fun e => if e.target = t then f e else e := by
  rw [Adm.entry, Adm.modEntry, List.find?_map, Adm.entry]
  congr 2
  funext e
  dsimp only [Function.comp]
  split
  · rw [hf]
  · rfl

theorem Adm.isWaiting_of_none (h : a.entry u = none) : a.isWaiting u = false := by rw [Adm.isWaiting, h]; rfl

theorem Adm.isWaiting_congr {b : Adm} (h : b.entry u = a.entry u) : b.isWaiting u = a.isWaiting u := by
  rw [Adm.isWaiting, Adm.isWaiting, h]

end

/-! ### From the deadlines on, a tick adds no entry and opens no window -/

/-- What the steps of a tick after the slots leave of ADM: they add messages, take entries away or grant them, and close
windows (R164, R179, R187). -/
structure Adm.Drains (a b : Adm) : Prop where
  sent : a.toTgt <+: b.toTgt
  waiting : ∀ e ∈ b.queue, e.granted = false → e ∈ a.queue
  gone : ∀ t, a.entry t = none → b.entry t = none
  idle : ∀ t, a.isWaiting t = false → b.isWaiting t = false
  periods : ∀ i : Fin 16, b.slots[i].next = a.slots[i].next ∧ b.slots[i].carry = a.slots[i].carry
  closed : ∀ i : Fin 16, a.slots[i].open_ = false →
    b.slots[i].open_ = false ∧ b.slots[i].st = a.slots[i].st ∧ b.slots[i].lastDuty = a.slots[i].lastDuty

theorem Adm.Drains.refl (a : Adm) : a.Drains a :=
  ⟨List.prefix_refl _, fun _ h _ => h, fun _ h => h, fun _ h => h, fun _ => ⟨rfl, rfl⟩, fun _ h => ⟨h, rfl, rfl⟩⟩

theorem Adm.Drains.trans {a b c : Adm} (h : a.Drains b) (k : b.Drains c) : a.Drains c where
  sent := h.sent.trans k.sent
  waiting e he hw := h.waiting e (k.waiting e he hw) hw
  gone t ht := k.gone t (h.gone t ht)
  idle t ht := k.idle t (h.idle t ht)
  periods i := ⟨(k.periods i).1.trans (h.periods i).1, (k.periods i).2.trans (h.periods i).2⟩
  closed i hi := by
    obtain ⟨hopen, hst, hlast⟩ := h.closed i hi
    obtain ⟨hopen', hst', hlast'⟩ := k.closed i hopen
    exact ⟨hopen', hst'.trans hst, hlast'.trans hlast⟩

/-- A change of the messages under way alone, and of what neither the queue nor the slots hold. -/
theorem Adm.Drains.of_queue {a b : Adm} (hqueue : b.queue = a.queue) (hslots : b.slots = a.slots)
    (hsent : a.toTgt <+: b.toTgt) : a.Drains b where
  sent := hsent
  waiting e he _ := hqueue ▸ he
  gone t h := (a.entry_congr t hqueue).trans h
  idle t h := (a.isWaiting_congr t (a.entry_congr t hqueue)).trans h
  periods i := by rw [hslots]; exact ⟨rfl, rfl⟩
  closed i h := by rw [hslots]; exact ⟨h, rfl, rfl⟩

/-- An entry taken away, its target told or not. -/
theorem Adm.Drains.of_removed {a b : Adm} {t : Nat} (hqueue : b.queue = (a.removeEntry t).queue)
    (hslots : b.slots = a.slots) (hsent : a.toTgt <+: b.toTgt) : a.Drains b := by
  have hentry (u : Nat) : b.entry u = if u = t then none else a.entry u :=
    (Adm.entry_congr _ u hqueue).trans (a.removeEntry_entry t u)
  refine ⟨hsent, fun e he _ => ?_, fun u hu => ?_, fun u hu => ?_, fun i => ?_, fun i h => ?_⟩
  · rw [hqueue] at he
    exact List.mem_of_mem_filter he
  · rw [hentry, hu, ite_self]
  · by_cases h : u = t
    · exact b.isWaiting_of_none u ((hentry u).trans (if_pos h))
    · exact (a.isWaiting_congr u ((hentry u).trans (if_neg h))).trans hu
  · rw [hslots]; exact ⟨rfl, rfl⟩
  · rw [hslots]; exact ⟨h, rfl, rfl⟩

/-- A slot changed otherwise than in its periods, and not while its window is closed. -/
theorem Adm.Drains.of_slot {a b : Adm} {i : Fin 16} {f : Slot → Slot} (hqueue : b.queue = a.queue)
    (hslots : b.slots = upd a.slots i f) (hsent : b.toTgt = a.toTgt)
    (hperiods : (f a.slots[i]).next = a.slots[i].next ∧ (f a.slots[i]).carry = a.slots[i].carry)
    (hclosed : a.slots[i].open_ = false → (f a.slots[i]).open_ = false ∧ (f a.slots[i]).st = a.slots[i].st ∧
      (f a.slots[i]).lastDuty = a.slots[i].lastDuty) : a.Drains b := by
  have hqueued := Adm.Drains.of_queue (a := a) (b := { b with slots := a.slots }) hqueue rfl (hsent ▸ List.prefix_refl _)
  obtain ⟨hat, hothers⟩ := changed_at hslots
  refine ⟨hqueued.sent, hqueued.waiting, hqueued.gone, hqueued.idle, fun j => ?_, fun j h => ?_⟩
  · by_cases hj : j = i
    · rw [hj, hat]; exact hperiods
    · rw [hothers j hj]; exact ⟨rfl, rfl⟩
  · by_cases hj : j = i
    · rw [hj] at h ⊢
      rw [hat]; exact hclosed h
    · rw [hothers j hj]; exact ⟨h, rfl, rfl⟩

/-- An entry granted. -/
theorem Adm.Drains.of_granted {a b : Adm} {t : Nat}
    (hqueue : b.queue = (a.modEntry t fun e => { e with granted := true }).queue) (hslots : b.slots = a.slots)
    (hsent : a.toTgt <+: b.toTgt) : a.Drains b := by
  have hentry (u : Nat) : b.entry u = (a.entry u).map fun e => if e.target = t then { e with granted := true } else e :=
    (Adm.entry_congr _ u hqueue).trans (a.modEntry_entry t u fun _ => rfl)
  refine ⟨hsent, fun e he hw => ?_, fun u hu => ?_, fun u hu => ?_, fun i => ?_, fun i h => ?_⟩
  · rw [hqueue] at he
    obtain ⟨e', he', rfl⟩ := List.mem_map.mp he
    split at hw
    · exact nomatch hw
    next h => rwa [if_neg h]
  · rw [hentry, hu]; rfl
  · rw [Adm.isWaiting] at hu ⊢
    rw [hentry]
    cases he : a.entry u with
    | none => rfl
    | some e =>
      rw [he] at hu
      rw [Option.map_some, Option.any_some]
      split
      · rfl
      · exact hu
  · rw [hslots]; exact ⟨rfl, rfl⟩
  · rw [hslots]; exact ⟨h, rfl, rfl⟩

end Sys2Proof.Machine
/-! ## A tick of ADM: what each of its steps leaves alone (R177) -/

namespace Sys2Proof.Machine

open Claims

/-- The grants among the messages under way. -/
def Adm.grants (a : Adm) : List (Nat × ToTgt) := a.toTgt.filter fun m => m.2 = .grant

/-- ADM without what the slots, the deadlines and shedding change: grants, results and settings stay. -/
def Adm.settled (a : Adm) : Adm :=
  { a with
    queue := [], seq := 0, claim := Vector.replicate 67 0, slots := Vector.replicate 16 Slot.init,
    offSent := Vector.replicate 48 false, cntFull := 0, cntDropped := 0, cntRefused := 0, cntShed := 0, strict := false,
    excess := 0, winLow := false, pRun := 0, bankLoad := Vector.replicate 4 0, modLoad := 0, siteLoad := 0, overB := 0,
    bins := a.bins.tail, toTgt := a.grants }

/-- ADM without what a grant scan changes besides (R179). -/
def Adm.fixed (a : Adm) : Adm := { a.settled with toTgt := [], extHeld := Vector.replicate 1024 false }

/-- ADM without what the answers to inputs change besides (R159 to R166). -/
def Adm.unanswered (a : Adm) : Adm :=
  { a.settled with
    extHeld := Vector.replicate 1024 false, resDone := Vector.replicate 4 false, resCode := Vector.replicate 4 0 }

section
variable {a b : Adm}

theorem Adm.fixed_of_settled (h : a.settled = b.settled) : a.fixed = b.fixed := by rw [Adm.fixed, h]; rfl

theorem Adm.unanswered_of_settled (h : a.settled = b.settled) : a.unanswered = b.unanswered := by rw [Adm.unanswered, h]; rfl

theorem Adm.grants_of_settled (h : a.settled = b.settled) : a.grants = b.grants := (congrArg Adm.toTgt h :)

theorem Adm.extHeld_of_settled (h : a.settled = b.settled) : a.extHeld = b.extHeld := (congrArg Adm.extHeld h :)

theorem Adm.ctl_of_fixed (h : a.fixed = b.fixed) : a.ctl = b.ctl := (congrArg Adm.ctl h :)

theorem Adm.gpt_of_fixed (h : a.fixed = b.fixed) : a.gpt = b.gpt := by rw [Adm.gpt, Adm.ctl_of_fixed h, Adm.gpt]

end

section
variable (a : Adm) (t : Nat)

@[simp] theorem Adm.removeEntry_settled : (a.removeEntry t).settled = a.settled := rfl

@[simp] theorem Adm.modSlot_settled (i : Fin 16) (f : Slot → Slot) : (a.modSlot i f).settled = a.settled := rfl

@[simp] theorem Adm.reckon_settled : a.reckon.settled = a.settled := rfl

@[simp] theorem Adm.setClaim_settled (v : W32) : (a.setClaim t v).settled = a.settled := by
  unfold Adm.setClaim
  split <;> rfl

/-- Every message but a grant. -/
theorem Adm.send_settled {m : ToTgt} (hm : m ≠ .grant) : (a.send t m).settled = a.settled := by
  have hgrants : (a.send t m).grants = a.grants := by
    rw [Adm.grants, Adm.send_toTgt, List.filter_append, Adm.grants]
    split <;> simp [hm]
  rw [Adm.settled, hgrants]
  unfold Adm.send
  split <;> rfl

@[simp] theorem Adm.drop_settled : (a.drop t).settled = a.settled :=
  (Adm.send_settled _ t (by decide)).trans (Adm.setClaim_settled ..)

@[simp] theorem Adm.sendOff_settled : (a.sendOff t).settled = a.settled := Adm.send_settled a t (m := .off) (by decide)

/-- Making or merging an entry, full or not. -/
theorem Adm.enter_settled (prio : Nat) (dl : Option Nat) (iCont inrE now : Nat) (own : Bool) :
    (a.enter t prio dl iCont inrE now own).1.settled = a.settled := by
  unfold Adm.enter
  dsimp only
  split
  · rfl
  · split
    · rfl
    · refine Adm.send_settled a t ?_
      split <;> decide

end

/-! ### Slots, deadlines and shedding -/

section
variable (s : State) (i : Fin 16) (t now : Nat)

/-- An ungranted entry dropped at its deadline, in ADM. -/
theorem State.admDropLate_adm {e : Entry} (he : s.adm.entry t = some e) :
    (s.admDropLate t now).adm = { (s.adm.drop t) with cntDropped := satN 16 (s.adm.cntDropped + 1) } := by
  rw [State.admDropLate, he]
  exact State.emit_adm ..

theorem State.admDropLate_none (he : s.adm.entry t = none) : s.admDropLate t now = s := by rw [State.admDropLate, he]

theorem State.admDropLate_settled : (s.admDropLate t now).adm.settled = s.adm.settled := by
  cases he : s.adm.entry t with
  | none => rw [s.admDropLate_none t now he]
  | some e =>
    rw [s.admDropLate_adm t now he]
    exact Adm.drop_settled ..

theorem State.admDropLate_slots : (s.admDropLate t now).adm.slots = s.adm.slots := by
  cases he : s.adm.entry t with
  | none => rw [s.admDropLate_none t now he]
  | some e =>
    rw [s.admDropLate_adm t now he]
    exact Adm.drop_slots ..

theorem State.admDropLate_entry (u : Nat) :
    (s.admDropLate t now).adm.entry u = if u = t then none else s.adm.entry u := by
  cases he : s.adm.entry t with
  | none =>
    rw [s.admDropLate_none t now he]
    split
    next h => rw [h, he]
    · rfl
  | some e =>
    rw [s.admDropLate_adm t now he]
    exact s.adm.drop_entry t u

theorem State.admDropLate_drains : s.adm.Drains (s.admDropLate t now).adm := by
  cases he : s.adm.entry t with
  | none => rw [s.admDropLate_none t now he]; exact .refl _
  | some e =>
    rw [s.admDropLate_adm t now he]
    exact .of_removed (t := t) (Adm.drop_queue ..) (Adm.drop_slots ..) ⟨_, (Adm.drop_toTgt ..).symm⟩

/-- A slot whose window closes at time `now` (R185). -/
def Slot.closedAt (x : Slot) (now : Nat) : Slot :=
  if x.open_ then
    { x with
      open_ := false, onUs := 0, since := none,
      lastDuty := min 1000 (roundDiv (x.onUs + (match x.since with | some u => now - u | none => 0)) (x.period * 1000)), st := 3 }
  else x

theorem Slot.closedAt_periods (x : Slot) :
    (x.closedAt now).next = x.next ∧ (x.closedAt now).carry = x.carry ∧ (x.closedAt now).cfg = x.cfg ∧
    (x.closedAt now).dutyReg = x.dutyReg := by
  unfold Slot.closedAt
  split <;> exact ⟨rfl, rfl, rfl, rfl⟩

theorem Slot.closedAt_of_closed {x : Slot} (h : x.open_ = false) : x.closedAt now = x :=
  if_neg (by rw [h]; exact Bool.false_ne_true)

theorem State.slotClose_adm : (s.slotClose i now).adm = s.adm.modSlot i (·.closedAt now) := by
  have hself : ¬ s.adm.slots[i].open_ = true → s.adm = s.adm.modSlot i (·.closedAt now) := fun h => by
    have hstays : upd s.adm.slots i (·.closedAt now) = s.adm.slots := upd_self _ _ _ (if_neg h)
    rw [Adm.modSlot, hstays]
  unfold State.slotClose
  dsimp only
  split
  next h =>
    simp only [apply_ite State.adm, State.emit_adm, ite_self]
    rw [State.modAdm_adm, Adm.modSlot, Adm.modSlot]
    congr 1
    exact upd_congr (if_pos h).symm
  next h => exact hself h

theorem State.slotClose_settled : (s.slotClose i now).adm.settled = s.adm.settled := by rw [s.slotClose_adm i now]; rfl

theorem State.slotOff_settled : (s.slotOff t).adm.settled = s.adm.settled := by
  rw [State.slotOff, State.modAdm_adm]
  split
  · exact Adm.sendOff_settled ..
  · rfl

theorem State.slotOff_entry (u : Nat) : (s.slotOff t).adm.entry u = s.adm.entry u := by
  rw [State.slotOff, State.modAdm_adm]
  split
  · exact Adm.entry_congr _ u (Adm.send_queue ..)
  · rfl

theorem State.slotEnd_settled : (s.slotEnd i now).adm.settled = s.adm.settled := by
  rw [State.slotEnd, State.slotClose_settled, State.slotOff_settled]
  split
  · exact State.admDropLate_settled ..
  · rfl

theorem State.slotStart_settled : (s.slotStart i now).adm.settled = s.adm.settled := by
  rw [State.slotStart]
  dsimp only
  split
  · rw [State.modAdm_adm, Adm.modSlot_settled, State.slotOff_settled, State.slotClose_settled]
  · split
    · rw [State.modAdm_adm, Adm.modSlot_settled, State.slotClose_settled]
    · rw [State.fabCount_adm, State.modAdm_adm, Adm.enter_settled, State.modAdm_adm, Adm.modSlot_settled,
        State.slotClose_settled]

/-- Step 7 restarts the periods of a slot that a write has armed (R188). -/
def State.slotRestart (s : State) (i : Fin 16) (now : Nat) : State :=
  if s.adm.slots[i].arm || !s.adm.slots[i].run then s.modAdm fun a => a.modSlot i fun x =>
    { x with
      arm := false, run := true, open_ := false, since := none, carry := 0, st := 0,
      next := now + x.phase * x.period * 62500 }
  else s

/-- Step 7 ends a window that ends before the next period (R185). -/
def State.slotEndDue (s : State) (i : Fin 16) (now : Nat) : State :=
  if s.adm.slots[i].open_ && s.adm.slots[i].tEnd ≤ now && s.adm.slots[i].tEnd < s.adm.slots[i].next then s.slotEnd i now
  else s

/-- Step 7 starts a period that is due (R185). -/
def State.slotStartDue (s : State) (i : Fin 16) (now : Nat) : State :=
  if s.adm.slots[i].next ≤ now then s.slotStart i now else s

theorem State.slotTick_disabled (hen : s.adm.slots[i].en = false) : s.slotTick i now = s := by
  rw [State.slotTick]
  dsimp only
  rw [if_pos (by rw [hen]; rfl)]

theorem State.slotTick_other (hen : s.adm.slots[i].en = true) (howner : s.adm.ownerOf s.adm.slots[i].ch ≠ some i) :
    s.slotTick i now = s.modAdm fun a => a.modSlot i fun x =>
      { x with run := false, open_ := false, since := none, lastDuty := 0, st := 0 } := by
  rw [State.slotTick]
  dsimp only
  rw [if_neg (by rw [hen]; exact Bool.false_ne_true), if_pos howner]

theorem State.slotTick_owner (hen : s.adm.slots[i].en = true) (howner : s.adm.ownerOf s.adm.slots[i].ch = some i) :
    s.slotTick i now = ((s.slotRestart i now).slotEndDue i now).slotStartDue i now := by
  rw [State.slotTick]
  dsimp only
  rw [if_neg (by rw [hen]; exact Bool.false_ne_true), if_neg (not_not.mpr howner)]
  rfl

/-- What holds of the state before a slot's turn and is kept by its parts holds after the turn (R185, R188). -/
theorem State.slotTick_keeps {P : State → Prop} (h : P s)
    (hmod : ∀ y f, (∀ x : Slot, (f x).cfg = x.cfg) → P y → P (y.modAdm fun a => a.modSlot i f))
    (hend : s.adm.ownerOf s.adm.slots[i].ch = some i → ∀ y, P y → P (y.slotEnd i now))
    (hstart : s.adm.ownerOf s.adm.slots[i].ch = some i → ∀ y, P y → P (y.slotStart i now)) : P (s.slotTick i now) := by
  cases hen : s.adm.slots[i].en with
  | false => rwa [s.slotTick_disabled i now hen]
  | true =>
    by_cases howner : s.adm.ownerOf s.adm.slots[i].ch = some i
    · rw [s.slotTick_owner i now hen howner]
      have hrestart : P (s.slotRestart i now) := by
        unfold State.slotRestart
        split
        · exact hmod _ _ (fun _ => rfl) h
        · exact h
      have hended : P ((s.slotRestart i now).slotEndDue i now) := by
        unfold State.slotEndDue
        split
        · exact hend howner _ hrestart
        · exact hrestart
      unfold State.slotStartDue
      split
      · exact hstart howner _ hended
      · exact hended
    · rw [s.slotTick_other i now hen howner]
      exact hmod _ _ (fun _ => rfl) h

theorem State.slotTick_settled : (s.slotTick i now).adm.settled = s.adm.settled :=
  s.slotTick_keeps i now (P := fun y => y.adm.settled = s.adm.settled) rfl (fun _ _ _ hy => hy)
    (fun _ y hy => (y.slotEnd_settled i now).trans hy) fun _ y hy => (y.slotStart_settled i now).trans hy

theorem State.slotLoop_settled : (forFin 16 (fun i s => s.slotTick i now) s).adm.settled = s.adm.settled :=
  forFin_keeps (P := fun y => y.adm.settled = s.adm.settled) (fun i y hy => (y.slotTick_settled i now).trans hy) rfl

theorem State.admDeadlines_settled : (s.admDeadlines now).adm.settled = s.adm.settled := by
  unfold State.admDeadlines
  dsimp only
  generalize s.adm.queue.filter _ = late
  induction late generalizing s with
  | nil => rfl
  | cons e r ih => exact (ih _).trans (s.admDropLate_settled e.target now)

theorem State.admDeadlines_drains : s.adm.Drains (s.admDeadlines now).adm := by
  unfold State.admDeadlines
  dsimp only
  generalize s.adm.queue.filter _ = late
  induction late generalizing s with
  | nil => exact .refl _
  | cons e r ih => exact (s.admDropLate_drains e.target now).trans (ih _)

/-- A slot whose heater is shed: its window closes and the shed is counted (R187). -/
def Adm.slotShed (a : Adm) (i : Fin 16) (now : Nat) : Adm :=
  { a with
    slots := upd a.slots i fun x => { x.closedAt now with shed := satN 16 ((x.closedAt now).shed + 1) },
    cntShed := satN 16 (a.cntShed + 1) }

theorem Adm.slotShed_settled (a : Adm) : (a.slotShed i now).settled = a.settled := rfl

theorem Adm.slotShed_drains (a : Adm) : a.Drains (a.slotShed i now) := by
  obtain ⟨hnext, hcarry, -, -⟩ := a.slots[i].closedAt_periods now
  refine .of_slot (i := i) (f := fun x => { x.closedAt now with shed := satN 16 ((x.closedAt now).shed + 1) }) rfl rfl rfl
    ⟨hnext, hcarry⟩ fun h => ?_
  rw [Slot.closedAt_of_closed now h]
  exact ⟨h, rfl, rfl⟩

theorem Adm.sendOff_drains (a : Adm) (n : Nat) : a.Drains (a.sendOff n) :=
  .of_queue (Adm.send_queue ..) (Adm.send_slots ..) ⟨_, (Adm.send_toTgt ..).symm⟩

/-- Step 9 for the slot it has picked: OFF to its channel, its window closed (R187). -/
def State.shedSlot (s : State) (i : Fin 16) (now : Nat) : State :=
  (((s.modAdm fun a => a.sendOff s.adm.slots[i].ch).slotClose i now).modAdm fun a =>
    { (a.modSlot i fun x => { x with shed := satN 16 (x.shed + 1) }) with
      cntShed := satN 16 (a.cntShed + 1) }).emit 2 0x45 (pack [(0, 4, i.val), (8, 6, s.adm.slots[i].ch)])

theorem State.admShed_picks : s.admShed now = s ∨ ∃ i, s.admShed now = s.shedSlot i now := by
  unfold State.admShed
  dsimp only
  split
  · exact .inl rfl
  next i0 r hpick => exact .inr ⟨_, rfl⟩

theorem State.shedSlot_adm : (s.shedSlot i now).adm = (s.adm.sendOff s.adm.slots[i].ch).slotShed i now := by
  rw [State.shedSlot, State.emit_adm, State.modAdm_adm, State.slotClose_adm, State.modAdm_adm, Adm.slotShed]
  unfold Adm.modSlot
  dsimp only
  rw [upd_upd]

theorem State.admShed_settled : (s.admShed now).adm.settled = s.adm.settled := by
  rcases s.admShed_picks now with h | ⟨i, h⟩
  · rw [h]
  · rw [h, s.shedSlot_adm i now, Adm.slotShed_settled, Adm.sendOff_settled]

theorem State.admShed_drains : s.adm.Drains (s.admShed now).adm := by
  rcases s.admShed_picks now with h | ⟨i, h⟩
  · rw [h]; exact .refl _
  · rw [h, s.shedSlot_adm i now]
    exact (s.adm.sendOff_drains _).trans (Adm.slotShed_drains ..)

end

end Sys2Proof.Machine
/-! ## A tick of ADM: deadlines and the grant scan (R164, R179) -/

namespace Sys2Proof.Machine

open Claims

/-! ### Deadlines -/

section
variable (s : State) (now : Nat)

/-- A waiting entry whose deadline lies before `now` (R164). -/
def Entry.late (e : Entry) (now : Nat) : Bool := !e.granted && e.deadline.any fun d => decide (d < now)

theorem State.admDropLate_told {t : Nat} (he : s.adm.entry t ≠ none) (ht : t ≤ 66) :
    (t, .drop) ∈ (s.admDropLate t now).adm.toTgt := by
  obtain ⟨e, he⟩ := Option.ne_none_iff_exists'.mp he
  rw [s.admDropLate_adm t now he]
  change (t, ToTgt.drop) ∈ (s.adm.drop t).toTgt
  rw [Adm.drop_toTgt, if_pos ht]
  exact List.mem_append_right _ List.mem_cons_self

/-- Dropping the entries of a list: none of them is left, and each target that held one is told. -/
theorem State.dropAll_gone (late : List Entry) {e : Entry} (he : e ∈ late) :
    (late.foldl (fun s e => s.admDropLate e.target now) s).adm.entry e.target = none ∧
    (s.adm.entry e.target ≠ none → e.target ≤ 66 →
      (e.target, .drop) ∈ (late.foldl (fun s e => s.admDropLate e.target now) s).adm.toTgt) := by
  have hdrains (l : List Entry) (y : State) : y.adm.Drains (l.foldl (fun s e => s.admDropLate e.target now) y).adm := by
    induction l generalizing y with
    | nil => exact .refl _
    | cons e r ih => exact (y.admDropLate_drains e.target now).trans (ih _)
  induction late generalizing s with
  | nil => exact nomatch he
  | cons x r ih =>
    have hlater := hdrains r (s.admDropLate x.target now)
    by_cases hx : e.target = x.target
    · rw [List.foldl_cons, hx]
      refine ⟨hlater.gone _ ?_, fun hsome ht => hlater.sent.subset (s.admDropLate_told now hsome ht)⟩
      rw [State.admDropLate_entry, if_pos rfl]
    · have hr : e ∈ r := (List.mem_cons.mp he).resolve_left fun h => hx (congrArg Entry.target h)
      obtain ⟨hgone, htold⟩ := ih (s.admDropLate x.target now) hr
      refine ⟨hgone, fun hsome => htold ?_⟩
      rwa [State.admDropLate_entry, if_neg hx]

theorem State.admDeadlines_gone {e : Entry} (he : e ∈ s.adm.queue) (hlate : e.late now = true) :
    (s.admDeadlines now).adm.entry e.target = none ∧
    (e.target ≤ 66 → (e.target, .drop) ∈ (s.admDeadlines now).adm.toTgt) := by
  obtain ⟨hgone, htold⟩ := s.dropAll_gone now (s.adm.queue.filter (·.late now)) (List.mem_filter.mpr ⟨he, hlate⟩)
  exact ⟨hgone, htold fun hnone => (s.adm.entry_eq_none _).mp hnone e he rfl⟩

theorem State.admDeadlines_clear {e : Entry} (he : e ∈ (s.admDeadlines now).adm.queue) (hwaits : e.granted = false) :
    e.deadline.any (fun d => decide (d < now)) = false := by
  by_contra hlate
  have hqueued := (s.admDeadlines_drains now).waiting e he hwaits
  have hgone := (s.admDeadlines_gone now hqueued (by rw [Entry.late, hwaits, Bool.not_eq_false _ |>.mp hlate]; rfl)).1
  exact ((s.admDeadlines now).adm.entry_eq_none _).mp hgone e he rfl

end

/-! ### A grant -/

section
variable (a : Adm) (e : Entry)

/-- The charges of a grant (R179, R180). -/
def Adm.charged (a : Adm) (e : Entry) : Adm :=
  { (a.modEntry e.target fun e => { e with granted := true }) with
    bins := (match a.bins with | [] => [e.inrE] | b :: r => (b + e.inrE) :: r),
    excess := if decide (a.winLim < e.inrE) then 64 else a.excess, winLow := !decide (a.winLim < e.inrE) && a.winLow,
    pRun := a.pRun + pReq a.kTick e.target e.iCont }

/-- ADM with an entry charged and its grant sent (R179). -/
def Adm.granted (a : Adm) (e : Entry) : Adm := ((a.charged e).send e.target .grant).reckon

/-- ADM with an external grant held (R166). -/
def Adm.holdExt (a : Adm) (x : Nat) : Adm := { a with extHeld := vupd a.extHeld x fun _ => true }

theorem Adm.holdExt_fixed (x : Nat) : (a.holdExt x).fixed = a.fixed := rfl

theorem Adm.holdExt_extHeld (x : Nat) : (a.holdExt x).extHeld = vupd a.extHeld x fun _ => true := rfl

theorem Adm.holdExt_toTgt (x : Nat) : (a.holdExt x).toTgt = a.toTgt := rfl

theorem Adm.holdExt_drains (x : Nat) : a.Drains (a.holdExt x) := .of_queue rfl rfl (List.prefix_refl _)

theorem Adm.send_fixed (t : Nat) (m : ToTgt) : (a.send t m).fixed = a.fixed := by
  unfold Adm.send
  split <;> rfl

theorem Adm.charged_fixed : (a.charged e).fixed = a.fixed := by
  have hbins : (a.charged e).bins.tail = a.bins.tail := by
    unfold Adm.charged
    dsimp only
    cases a.bins <;> rfl
  unfold Adm.fixed Adm.settled
  rw [hbins]
  rfl

theorem Adm.granted_fixed : (a.granted e).fixed = a.fixed := (Adm.send_fixed ..).trans (a.charged_fixed e)

theorem Adm.granted_toTgt : (a.granted e).toTgt = a.toTgt ++ if e.target ≤ 66 then [(e.target, .grant)] else [] :=
  Adm.send_toTgt ..

theorem Adm.granted_extHeld : (a.granted e).extHeld = a.extHeld := by
  unfold Adm.granted Adm.send Adm.reckon
  split <;> rfl

theorem Adm.granted_drains : a.Drains (a.granted e) :=
  .of_granted (t := e.target) (Adm.send_queue ..) (Adm.send_slots ..) ⟨_, (a.granted_toTgt e).symm⟩

end

section
variable (s : State) (e : Entry)

theorem State.admGrant_adm : (s.admGrant e).adm =
    if 256 ≤ e.target then (s.adm.granted e).holdExt (e.target - 256) else s.adm.granted e := by
  unfold State.admGrant
  dsimp only
  split
  · rw [State.emit_adm, State.modAdm_adm, State.fabCount_adm]
    rfl
  · rw [State.fabCount_adm]
    rfl

theorem State.admGrant_fixed : (s.admGrant e).adm.fixed = s.adm.fixed := by
  rw [State.admGrant_adm]
  split
  · exact (Adm.holdExt_fixed ..).trans (Adm.granted_fixed ..)
  · exact Adm.granted_fixed ..

theorem State.admGrant_drains : s.adm.Drains (s.admGrant e).adm := by
  have hgrant := s.adm.granted_drains e
  rw [State.admGrant_adm]
  split
  · exact hgrant.trans (Adm.holdExt_drains ..)
  · exact hgrant

theorem State.admGrant_grants : (s.admGrant e).adm.grants.length ≤ s.adm.grants.length + 1 := by
  have hsent : (s.admGrant e).adm.toTgt = s.adm.toTgt ++ if e.target ≤ 66 then [(e.target, .grant)] else [] := by
    rw [State.admGrant_adm, ← Adm.granted_toTgt]
    split
    · exact Adm.holdExt_toTgt ..
    · rfl
  have hone : ((if e.target ≤ 66 then [(e.target, ToTgt.grant)] else []).filter fun m => m.2 = .grant).length ≤ 1 := by
    split <;> simp
  rw [Adm.grants, hsent, List.filter_append, List.length_append]
  exact Nat.add_le_add_left hone _

theorem State.admGrant_extHeld {x : Fin 1024} (hx : e.target ≠ 256 + x.val) :
    (s.admGrant e).adm.extHeld[x] = s.adm.extHeld[x] := by
  have hheld : (s.admGrant e).adm.extHeld =
      if 256 ≤ e.target then vupd s.adm.extHeld (e.target - 256) fun _ => true else s.adm.extHeld := by
    rw [State.admGrant_adm]
    split
    · rw [Adm.holdExt_extHeld, Adm.granted_extHeld]
    · exact Adm.granted_extHeld ..
  rw [hheld]
  split
  next hext => rw [vupd_at, if_neg (by omega)]
  · rfl

end

/-! ### The grant scan -/

section
variable (s : State) (now : Nat)

theorem mem_rankInsert {e x : Entry} {l : List Entry} (h : x ∈ rankInsert e l) : x = e ∨ x ∈ l := by
  induction l with
  | nil => exact .inl (List.mem_singleton.mp h)
  | cons y r ih =>
    rw [rankInsert] at h
    split at h
    · exact List.mem_cons.mp h
    · rcases List.mem_cons.mp h with h | h
      · exact .inr (h ▸ List.mem_cons_self)
      · exact (ih h).imp_right (List.mem_cons_of_mem _)

theorem mem_of_mem_rank {x : Entry} {l : List Entry} (h : x ∈ rank l) : x ∈ l := by
  induction l with
  | nil => exact h
  | cons y r ih =>
    rcases mem_rankInsert h with h | h
    · exact h ▸ List.mem_cons_self
    · exact List.mem_cons_of_mem _ (ih h)

/-- What a grant of each ranked entry and a count of events keep, the scan keeps. -/
theorem State.admScan_keeps {P : State → Prop} (strict : Bool) (n : Nat) (l : List Entry) (h : P s)
    (hgrant : ∀ y, ∀ e ∈ l, P y → P (y.admGrant e)) (hcount : ∀ y evt, P y → P (y.fabCount evt 0 1)) :
    P (State.admScan strict n l s) := by
  induction l generalizing n s with
  | nil => exact h
  | cons e r ih =>
    have hrest : ∀ y, ∀ e ∈ r, P y → P (y.admGrant e) := fun y x hx => hgrant y x (List.mem_cons_of_mem _ hx)
    rw [State.admScan]
    dsimp only
    split
    · exact h
    · split
      · exact ih _ _ (hgrant s e List.mem_cons_self h) hrest
      · split
        · exact hcount s _ h
        · exact ih _ _ (hcount s _ h) hrest

/-- Step 10 makes at most as many grants as are left of GPT (R179). -/
theorem State.admScan_grants (strict : Bool) (n : Nat) (l : List Entry) (hn : n ≤ s.adm.gpt) :
    (State.admScan strict n l s).adm.grants.length + n ≤ s.adm.grants.length + s.adm.gpt := by
  induction l generalizing n s with
  | nil => exact Nat.add_le_add_left hn _
  | cons e r ih =>
    rw [State.admScan]
    dsimp only
    split
    · exact Nat.add_le_add_left hn _
    next hmore =>
      split
      · have hgpt := Adm.gpt_of_fixed (s.admGrant_fixed e)
        have hone := s.admGrant_grants e
        have hscan := ih (s.admGrant e) (n + 1) (by omega)
        omega
      · have hcount : (s.fabCount 0x0D 0 1).adm = s.adm := State.fabCount_adm ..
        split
        · rw [hcount]
          omega
        · have hscan := ih (s.fabCount 0x0D 0 1) n (by rw [hcount]; exact hn)
          rwa [hcount] at hscan

/-- The state in which the entries are scanned (R179). -/
def State.scanFrom (s : State) (strict : Bool) : State :=
  (s.modAdm fun a => { a with strict := strict }).onlyIf strict fun s => s.fabCount 0x0C 0 1

theorem State.scanFrom_adm (strict : Bool) : (s.scanFrom strict).adm = { s.adm with strict := strict } := by
  cases strict
  · rfl
  · exact State.fabCount_adm ..

theorem State.admGrantScan_runs (hhold : bit s.adm.ctl 0 = false) : ∃ strict, s.admGrantScan now =
    State.admScan strict 0 (rank (s.adm.queue.filter fun e => e.confirmed && !e.granted)) (s.scanFrom strict) :=
  ⟨_, if_neg (by rw [hhold]; exact Bool.false_ne_true)⟩

theorem State.admGrantScan_held (hhold : bit s.adm.ctl 0 = true) : s.admGrantScan now = s := if_pos hhold

/-- What the grant of each waiting entry keeps, step 10 keeps. -/
theorem State.admGrantScan_keeps {P : Adm → Prop} (h : P s.adm) (hstrict : ∀ b, P { s.adm with strict := b })
    (hgrant : ∀ y : State, ∀ e ∈ s.adm.queue, P y.adm → P (y.admGrant e).adm) : P (s.admGrantScan now).adm := by
  cases hhold : bit s.adm.ctl 0 with
  | true => rwa [s.admGrantScan_held now hhold]
  | false =>
    obtain ⟨strict, hrow⟩ := s.admGrantScan_runs now hhold
    rw [hrow]
    refine State.admScan_keeps (P := fun y => P y.adm) _ strict 0 _ ?_ (fun y e he => hgrant y e ?_) fun y evt hy => ?_
    · rw [s.scanFrom_adm strict]; exact hstrict strict
    · exact List.mem_of_mem_filter (mem_of_mem_rank he)
    · rwa [State.fabCount_adm]

theorem State.admGrantScan_fixed : (s.admGrantScan now).adm.fixed = s.adm.fixed :=
  s.admGrantScan_keeps now (P := fun a => a.fixed = s.adm.fixed) rfl (fun _ => rfl) fun y e _ hy => (y.admGrant_fixed e).trans hy

theorem State.admGrantScan_drains : s.adm.Drains (s.admGrantScan now).adm :=
  s.admGrantScan_keeps now (P := s.adm.Drains) (.refl _) (fun _ => .of_queue rfl rfl (List.prefix_refl _))
    fun y e _ hy => hy.trans (y.admGrant_drains e)

theorem State.admGrantScan_extHeld {x : Fin 1024} (hx : s.adm.entry (256 + x.val) = none) :
    (s.admGrantScan now).adm.extHeld[x] = s.adm.extHeld[x] :=
  s.admGrantScan_keeps now (P := fun a => a.extHeld[x] = s.adm.extHeld[x]) rfl (fun _ => rfl) fun y e he hy =>
    (y.admGrant_extHeld e ((s.adm.entry_eq_none _).mp hx e he)).trans hy

theorem State.admGrantScan_grants : (s.admGrantScan now).adm.grants.length ≤ s.adm.grants.length + s.adm.gpt := by
  cases hhold : bit s.adm.ctl 0 with
  | true => rw [s.admGrantScan_held now hhold]; exact Nat.le_add_right ..
  | false =>
    obtain ⟨strict, hrow⟩ := s.admGrantScan_runs now hhold
    have hscan := (s.scanFrom strict).admScan_grants strict 0
      (rank (s.adm.queue.filter fun e => e.confirmed && !e.granted)) (Nat.zero_le _)
    rw [s.scanFrom_adm strict] at hscan
    rw [hrow]
    exact hscan

theorem State.admOver_adm : s.admOver.adm = { s.adm with overB := s.adm.over fun _ => false } := by
  unfold State.admOver
  dsimp only
  split
  · exact State.emit_adm ..
  · rfl

end

/-! ### Steps 8 to 10 -/

/-- Steps 8 to 10 of a tick and what it leaves in OVER. -/
def State.admDrained (s : State) (now : Nat) : State :=
  ((((((s.admDeadlines now).modAdm fun a => a.reckon).admShed now).admGrantScan now).modAdm fun a => a.reckon).admOver)

section
variable (s : State) (now : Nat)

/-- The state in which step 10 scans the entries. -/
abbrev State.toScan (s : State) (now : Nat) : State := ((s.admDeadlines now).modAdm fun a => a.reckon).admShed now

theorem State.toScan_settled : (s.toScan now).adm.settled = s.adm.settled := by
  rw [State.admShed_settled, State.modAdm_adm, Adm.reckon_settled, State.admDeadlines_settled]

theorem State.admDrained_adm : (s.admDrained now).adm =
    { ((s.toScan now).admGrantScan now).adm.reckon with
      overB := ((s.toScan now).admGrantScan now).adm.reckon.over fun _ => false } := State.admOver_adm _

theorem State.admDrained_fixed : (s.admDrained now).adm.fixed = s.adm.fixed := by
  rw [State.admDrained_adm]
  exact (State.admGrantScan_fixed _ now).trans (Adm.fixed_of_settled (s.toScan_settled now))

theorem Adm.Drains.reckoned (a : Adm) : a.Drains a.reckon := .of_queue rfl rfl (List.prefix_refl _)

theorem State.toScan_drains : (s.admDeadlines now).adm.Drains (s.toScan now).adm :=
  (Adm.Drains.reckoned _).trans (((s.admDeadlines now).modAdm fun a => a.reckon).admShed_drains now)

theorem State.admDrained_drains_deadlines : (s.admDeadlines now).adm.Drains (s.admDrained now).adm := by
  have h := ((s.toScan_drains now).trans ((s.toScan now).admGrantScan_drains now)).trans (.reckoned _)
  rw [State.admDrained_adm]
  exact h.trans (.of_queue rfl rfl (List.prefix_refl _))

theorem State.admDrained_drains : s.adm.Drains (s.admDrained now).adm :=
  (s.admDeadlines_drains now).trans (s.admDrained_drains_deadlines now)

theorem State.toScan_grants : (s.toScan now).adm.grants = s.adm.grants := Adm.grants_of_settled (s.toScan_settled now)

theorem State.admDrained_grants : (s.admDrained now).adm.grants.length ≤ s.adm.grants.length + s.adm.gpt := by
  have hgpt := Adm.gpt_of_fixed (Adm.fixed_of_settled (s.toScan_settled now))
  rw [State.admDrained_adm, ← hgpt, ← s.toScan_grants now]
  exact (s.toScan now).admGrantScan_grants now

theorem State.admDrained_held (hhold : bit s.adm.ctl 0 = true) : (s.admDrained now).adm.grants = s.adm.grants := by
  have hctl := Adm.ctl_of_fixed (Adm.fixed_of_settled (s.toScan_settled now))
  rw [State.admDrained_adm, (s.toScan now).admGrantScan_held now (by rw [hctl]; exact hhold)]
  exact s.toScan_grants now

theorem State.admDrained_extHeld {x : Fin 1024} (hx : s.adm.entry (256 + x.val) = none) :
    (s.admDrained now).adm.extHeld[x] = s.adm.extHeld[x] := by
  have hgone := (s.toScan_drains now).gone _ ((s.admDeadlines_drains now).gone _ hx)
  rw [State.admDrained_adm]
  refine ((s.toScan now).admGrantScan_extHeld now hgone).trans ?_
  rw [Adm.extHeld_of_settled (s.toScan_settled now)]

end

end Sys2Proof.Machine
/-! ## A tick of ADM: inputs, the thermal model and answers (R172 to R177) -/

namespace Sys2Proof.Machine

open Claims

/-- ADM without what steps 1 and 2 of a tick change: settings, times, bins and grants stay. -/
def Adm.clock (a : Adm) : Adm :=
  { a with
    queue := [], claim := Vector.replicate 67 0, slots := Vector.replicate 16 Slot.init, view := Vector.replicate 48 .off,
    held := Vector.replicate 48 0, offSent := Vector.replicate 48 false, iMeas := Vector.replicate 67 0,
    vBank := Vector.replicate 4 0, vAt := none, tbp := 0, tbpAt := none, eClamp := 0, toTgt := a.grants }

/-- ADM without what a tick changes after its fourth step. -/
def Adm.lasting (a : Adm) : Adm := { a.fixed with resDone := Vector.replicate 4 false, resCode := Vector.replicate 4 0 }

section
variable (a : Adm) (t : Nat)

/-! ### Steps 1 and 2 -/

theorem Adm.setClaim_clock (v : W32) : (a.setClaim t v).clock = a.clock := by
  unfold Adm.setClaim
  split <;> rfl

theorem Adm.sendOff_clock : (a.sendOff t).clock = a.clock := by
  have hgrants := Adm.grants_of_settled (a.sendOff_settled t)
  unfold Adm.clock
  rw [hgrants]
  unfold Adm.sendOff Adm.send
  split <;> rfl

theorem Adm.step1_clock (m : AdmIn) : (a.step1 t m).clock = a.clock := by
  have hleave : ∀ (b : Adm) (g : Bool) (tg : Nat), b.clock = a.clock →
      (if g then (b.removeEntry tg).setClaim tg 0 else b).clock = a.clock := fun b g tg hb => by
    split
    · exact (Adm.setClaim_clock ..).trans hb
    · exact hb
  cases m with
  | swOn n on =>
    rw [Adm.step1]
    dsimp only
    split
    · rfl
    · split
      · exact Adm.sendOff_clock ..
      · rfl
  | swOff n =>
    rw [Adm.step1]
    split <;> rfl
  | returned tg => exact hleave _ _ tg rfl
  | release tg =>
    rw [Adm.step1]
    split <;> exact Adm.setClaim_clock ..
  | _ => rfl

theorem Adm.step2_clock (m : AdmIn) : (a.step2 t m).clock = a.clock := by cases m <;> rfl

/-- ADM after the inputs of steps 1 and 2. -/
def Adm.taken (a : Adm) (t : Nat) (ins : List AdmIn) : Adm :=
  ins.foldl (fun a m => a.step2 t m) (ins.foldl (fun a m => a.step1 t m) a)

theorem Adm.taken_clock (ins : List AdmIn) : (a.taken t ins).clock = a.clock := by
  have hfold : ∀ (f : Adm → AdmIn → Adm), (∀ b m, (f b m).clock = b.clock) → ∀ (l : List AdmIn) (b : Adm),
      (l.foldl f b).clock = b.clock := fun f hf l => by
    induction l with
    | nil => exact fun _ => rfl
    | cons m r ih => exact fun b => (ih _).trans (hf b m)
  exact (hfold _ (fun b m => b.step2_clock t m) ins _).trans (hfold _ (fun b m => b.step1_clock t m) ins a)

/-! ### Steps 2 to 4 -/

/-- The model temperature of the first tick (R173). -/
def Adm.begun (a : Adm) : Adm := { a with tModel := if a.ticked then a.tModel else a.tbp }

/-- DELTA_T after a model update (R173). -/
def Adm.heated (a : Adm) : Rat :=
  a.deltaT + (a.pSum a.kT * a.rTh - a.deltaT) * (1 / 100000) / a.tau + a.eClamp * a.rTh / a.tau

/-- ADM after a model update with the cap `cap` (R173 to R175). -/
def Adm.modelled (a : Adm) (cap : Rat) : Adm :=
  { a with
    pRun := a.begun.pSum a.begun.kT, kTick := a.begun.kT, deltaT := a.begun.heated, tModel := a.tbp + a.begun.heated,
    eClamp := 0, pCap := cap, ticked := true }

theorem State.admModel_adm (s : State) : ∃ cap, s.admModel.adm = s.adm.modelled cap := by
  have hbegun : (if s.adm.ticked then s.adm else { s.adm with tModel := s.adm.tbp }) = s.adm.begun := by
    unfold Adm.begun
    split <;> rfl
  have hcurve : ∀ (y : State) (c : Prop) [Decidable c] (f : Curve → Curve), (if c then y.modCurve f else y).adm = y.adm :=
    fun y c _ f => by split <;> rfl
  refine ⟨(s.admCap s.adm.begun).getD 0, ?_⟩
  unfold State.admModel
  dsimp only
  rw [hcurve, hbegun]
  rfl

theorem Adm.binStep_eq : a.binStep t =
    { a with
      bins := if a.binAt + a.binLen * 1000 ≤ t then 0 :: a.bins.take 63 else a.bins,
      binAt := if a.binAt + a.binLen * 1000 ≤ t then t else a.binAt,
      binLen := if a.binAt + a.binLen * 1000 ≤ t then a.binMs else a.binLen,
      excess := if a.binAt + a.binLen * 1000 ≤ t then a.excess - 1 else a.excess } := by
  unfold Adm.binStep
  split <;> rfl

/-- ADM after steps 2 to 4 with the inputs taken. -/
def Adm.measured (a : Adm) (t : Nat) (cap : Rat) : Adm := ((a.freshen t).modelled cap).binStep t

/-- What the entries, the slots and the results are is no matter of steps 2 to 4. -/
theorem Adm.measured_requests (cap : Rat) :
    (a.measured t cap).queue = a.queue ∧ (a.measured t cap).slots = a.slots ∧ (a.measured t cap).extHeld = a.extHeld ∧
    (a.measured t cap).resSeq = a.resSeq ∧ (a.measured t cap).resDone = a.resDone ∧ (a.measured t cap).resCode = a.resCode ∧
    (a.measured t cap).toTgt = a.toTgt := by
  unfold Adm.measured
  rw [Adm.binStep_eq]
  exact ⟨rfl, rfl, rfl, rfl, rfl, rfl, rfl⟩

theorem Adm.measured_settings (cap : Rat) :
    (a.measured t cap).ctl = a.ctl ∧ (a.measured t cap).inbox = a.inbox ∧ (a.measured t cap).tickAt = a.tickAt ∧
    (a.measured t cap).siteLim = a.siteLim ∧ (a.measured t cap).siteCfg = a.siteCfg := by
  unfold Adm.measured
  rw [Adm.binStep_eq]
  exact ⟨rfl, rfl, rfl, rfl, rfl⟩

theorem Adm.measured_model (cap : Rat) :
    (a.measured t cap).ticked = true ∧ (a.measured t cap).eClamp = 0 ∧
    (a.measured t cap).deltaT = (a.freshen t).begun.heated ∧ (a.measured t cap).stale = (a.freshen t).stale ∧
    (a.measured t cap).sensorStale = (a.freshen t).sensorStale ∧ (a.measured t cap).vBank = (a.freshen t).vBank ∧
    (a.measured t cap).tbp = (a.freshen t).tbp := by
  unfold Adm.measured
  rw [Adm.binStep_eq]
  exact ⟨rfl, rfl, rfl, rfl, rfl, rfl, rfl⟩

theorem Adm.measured_bins (cap : Rat) (h : a.binAt + a.binLen * 1000 ≤ t) :
    (a.measured t cap).binAt = t ∧ (a.measured t cap).binLen = a.binMs ∧ (a.measured t cap).bins = 0 :: a.bins.take 63 := by
  unfold Adm.measured
  rw [Adm.binStep_eq]
  exact ⟨if_pos h, if_pos h, if_pos h⟩

/-! ### Steps 5 and 6 -/

theorem Adm.result_unanswered (c : Fin 4) (k r : Nat) : (a.result c k r).unanswered = a.unanswered := by
  unfold Adm.result
  split <;> rfl

theorem Adm.step5_unanswered (m : AdmIn) : (a.step5 m).unanswered = a.unanswered := by
  cases m with
  | cancel c k x =>
    rw [Adm.step5]
    split_ifs
    · exact Adm.result_unanswered ..
    · exact Adm.result_unanswered ..
    · exact (Adm.result_unanswered ..).trans (Adm.unanswered_of_settled (a.drop_settled x))
    · exact Adm.result_unanswered ..
  | relExt c k x =>
    rw [Adm.step5]
    split
    · exact Adm.result_unanswered ..
    · exact Adm.result_unanswered ..
  | withdraw x =>
    rw [Adm.step5]
    split
    · exact Adm.unanswered_of_settled (Adm.setClaim_settled ..)
    · rfl
  | _ => rfl

end

section
variable (s : State) (t : Nat)

theorem State.admStep6_unanswered (m : AdmIn) : (s.admStep6 t m).adm.unanswered = s.adm.unanswered := by
  have henter : ∀ (b : Adm) tg prio dl iCont inrE own,
      (b.enter tg prio dl iCont inrE t own).1.unanswered = b.unanswered := fun b tg prio dl iCont inrE own =>
    Adm.unanswered_of_settled (b.enter_settled tg prio dl iCont inrE t own)
  cases m with
  | req c k tg prio ms =>
    rw [State.admStep6]
    dsimp only
    split_ifs
    · exact Adm.result_unanswered ..
    · exact Adm.result_unanswered ..
    · rw [State.emit_adm]
      exact (Adm.result_unanswered ..).trans (henter ..)
    · rw [State.fabCount_adm]
      exact (Adm.result_unanswered ..).trans (henter ..)
  | own tg prio iCont inrE ms kind =>
    have hclaim : (if tg < 48 then s.adm else s.adm.setClaim tg (pack [(0, 16, iCont), (16, 16, inrE)])).unanswered =
        s.adm.unanswered := by
      split
      · rfl
      · exact Adm.unanswered_of_settled (Adm.setClaim_settled ..)
    have hcount : ∀ (y : State) (b : Bool), (y.onlyIf b fun s => s.fabCount 0x0B 0 1).adm = y.adm := fun y b => by
      cases b
      · rfl
      · exact State.fabCount_adm ..
    rw [State.admStep6, hcount]
    exact (henter ..).trans hclaim
  | confirm tg => rfl
  | refuse tg st =>
    rw [State.admStep6]
    split
    · rfl
    · split
      · rfl
      · rw [State.emit_adm]
        exact Adm.unanswered_of_settled ((Adm.setClaim_settled ..).trans (Adm.removeEntry_settled ..))
  | uvTaken tg =>
    rw [State.admStep6, State.modAdm_adm]
    split <;> rfl
  | _ => rfl

/-! ### The whole tick -/

/-- Steps 1 to 4. -/
def State.admMeasured (s : State) (t : Nat) (ins : List AdmIn) : State :=
  (((s.modAdm fun a => ins.foldl (fun a m => a.step1 t m) a).modAdm fun a =>
    (ins.foldl (fun a m => a.step2 t m) a).freshen t).admModel).modAdm fun a => a.binStep t

/-- Steps 5 and 6. -/
def State.admAnswered (s : State) (t : Nat) (ins : List AdmIn) : State :=
  ins.foldl (fun s m => s.admStep6 t m) (s.modAdm fun a => ins.foldl (fun a m => a.step5 m) a)

/-- Step 7. -/
def State.admSlots (s : State) (t : Nat) : State := forFin 16 (fun i s => s.slotTick i t) s

theorem State.admTickAt_steps (ins : List AdmIn) :
    s.admTickAt t ins = (((s.admMeasured t ins).admAnswered t ins).admSlots t).admDrained t := rfl

theorem State.admMeasured_adm (ins : List AdmIn) :
    ∃ cap, (s.admMeasured t ins).adm = (s.adm.taken t ins).measured t cap := by
  obtain ⟨cap, hmodel⟩ := State.admModel_adm ((s.modAdm fun a => ins.foldl (fun a m => a.step1 t m) a).modAdm fun a =>
    (ins.foldl (fun a m => a.step2 t m) a).freshen t)
  refine ⟨cap, ?_⟩
  rw [State.admMeasured, State.modAdm_adm, hmodel]
  rfl

theorem State.admAnswered_unanswered (ins : List AdmIn) : (s.admAnswered t ins).adm.unanswered = s.adm.unanswered := by
  have hstep5 : ∀ (l : List AdmIn) (a : Adm), (l.foldl (fun a m => a.step5 m) a).unanswered = a.unanswered := fun l => by
    induction l with
    | nil => exact fun _ => rfl
    | cons m r ih => exact fun a => (ih _).trans (a.step5_unanswered m)
  have hstep6 : ∀ (l : List AdmIn) (y : State), (l.foldl (fun s m => s.admStep6 t m) y).adm.unanswered = y.adm.unanswered :=
    fun l => by
      induction l with
      | nil => exact fun _ => rfl
      | cons m r ih => exact fun y => (ih _).trans (y.admStep6_unanswered t m)
  exact (hstep6 ins _).trans (hstep5 ins s.adm)

theorem State.admSlots_settled : (s.admSlots t).adm.settled = s.adm.settled := s.slotLoop_settled t

theorem Adm.lasting_of_fixed {a b : Adm} (h : a.fixed = b.fixed) : a.lasting = b.lasting := by rw [Adm.lasting, h]; rfl

theorem Adm.lasting_of_unanswered {a b : Adm} (h : a.unanswered = b.unanswered) : a.lasting = b.lasting := by
  have hview : ∀ c : Adm, c.lasting = { c.unanswered with toTgt := [] } := fun _ => rfl
  rw [hview, hview, h]

theorem Adm.grants_of_unanswered {a b : Adm} (h : a.unanswered = b.unanswered) : a.grants = b.grants :=
  (congrArg Adm.toTgt h :)

theorem Adm.ctl_of_unanswered {a b : Adm} (h : a.unanswered = b.unanswered) : a.ctl = b.ctl := (congrArg Adm.ctl h :)

end

end Sys2Proof.Machine
/-! ## ADM's next tick (R164, R169, R171, R172, R177, R666) -/

namespace Sys2Proof.Machine

open Claims

section
variable (s : State) (due late : Nat)

/-- The time of ADM's next tick, not before `due` (R177). -/
def State.tickTime (s : State) (due : Nat) : Nat := max s.now (max due (s.adm.tickAt + 10))

/-- ADM at the start of a tick at time `t`; the first tick starts the bins (R169). -/
def Adm.ticking (a : Adm) (t : Nat) : Adm :=
  { a with
    tickAt := t, binAt := if !a.ticked then t else a.binAt, binLen := if !a.ticked then a.binMs else a.binLen }

/-- ADM with all its inputs taken but the newest `late`. -/
def Adm.pulled (a : Adm) (late : Nat) : Adm := { a with inbox := a.inbox.drop (a.inbox.length - late) }

/-- The state in which a tick starts. -/
def State.tickBegun (s : State) (due : Nat) : State :=
  let y := s.advanceTo (max due (s.adm.tickAt + 10))
  let z := y.modAdm fun a => { a with
    tickAt := y.now, binAt := if !y.adm.ticked then y.now else a.binAt, binLen := if !y.adm.ticked then a.binMs else a.binLen }
  (z.fabCount 0x09 0 1).fabCount 0x0E 0 z.adm.queue.length

theorem State.tickBegun_now (htmb : s.tmbRuns = true) : (s.tickBegun due).now = s.tickTime due := by
  rw [State.tickBegun]
  rw [(State.fabCount_touch ..).now_eq (by decide), (State.fabCount_touch ..).now_eq (by decide),
    State.now_congr _ (State.modAdm_tmb ..), s.advanceTo_now_max _ htmb]
  rfl

theorem State.tickBegun_adm (htmb : s.tmbRuns = true) : (s.tickBegun due).adm = s.adm.ticking (s.tickTime due) := by
  rw [State.tickBegun]
  rw [State.fabCount_adm, State.fabCount_adm, State.modAdm_adm, State.advanceTo_adm, s.advanceTo_now_max _ htmb]
  rfl

/-- Without power or time base ADM does not tick. -/
theorem State.admTickFrom_idle (h : s.isUp 2 = false ∨ s.tmbRuns = false) : s.admTickFrom due late = s := by
  refine if_neg fun hgo => ?_
  rw [Bool.and_eq_true] at hgo
  obtain ⟨hup, htmb⟩ := hgo
  exact h.elim (fun e => nomatch e.symm.trans hup) fun e => nomatch e.symm.trans htmb

/-- The inputs a tick takes: all but the newest `late`. -/
def Adm.ready (a : Adm) (late : Nat) : List AdmIn := a.inbox.take (a.inbox.length - late)

theorem State.admTickFrom_eq (hup : s.isUp 2 = true) (htmb : s.tmbRuns = true) :
    s.admTickFrom due late =
      if s.adm.stopped then (s.tickBegun due).admModel.modAdm fun a => a.binStep (s.tickTime due)
      else ((s.tickBegun due).modAdm fun a => a.pulled late).admTickAt (s.tickTime due) (s.adm.ready late) := by
  have hrow : s.admTickFrom due late =
      if (s.tickBegun due).adm.stopped then
        (s.tickBegun due).admModel.modAdm fun a => a.binStep (s.advanceTo (max due (s.adm.tickAt + 10))).now
      else ((s.tickBegun due).modAdm fun a => a.pulled late).admTickAt (s.advanceTo (max due (s.adm.tickAt + 10))).now
        ((s.tickBegun due).adm.ready late) :=
    if_pos (by rw [hup, htmb]; rfl)
  have hadm := s.tickBegun_adm due htmb
  have hstopped : (s.tickBegun due).adm.stopped = s.adm.stopped := by rw [hadm]; rfl
  have hready : (s.tickBegun due).adm.ready late = s.adm.ready late := by rw [hadm]; rfl
  rw [hrow, s.advanceTo_now_max _ htmb, hstopped, hready]
  rfl

/-! ### A stopped ADM -/

section
variable (hup : s.isUp 2 = true) (htmb : s.tmbRuns = true)
include hup htmb

/-- A stopped ADM runs its model and its bins alone (R666). -/
theorem State.admTickFrom_stopped (hstop : s.adm.stopped = true) :
    (s.admTickFrom due late).now = s.tickTime due ∧
    ∃ cap, (s.admTickFrom due late).adm = ((s.adm.ticking (s.tickTime due)).modelled cap).binStep (s.tickTime due) := by
  obtain ⟨cap, hmodel⟩ := (s.tickBegun due).admModel_adm
  rw [s.tickBegun_adm due htmb] at hmodel
  rw [s.admTickFrom_eq due late hup htmb, if_pos hstop]
  refine ⟨?_, cap, ?_⟩
  · rw [State.now_congr _ (State.modAdm_tmb ..), (State.admModel_touch ..).now_eq (by decide), s.tickBegun_now due htmb]
  · rw [State.modAdm_adm, hmodel]

/-! ### A tick of an ADM that runs -/

variable (hstop : s.adm.stopped = false)
include hstop

/-- ADM after steps 1 and 2 for a tick's inputs. -/
abbrev State.tickTaken (s : State) (due late : Nat) : Adm :=
  ((s.adm.ticking (s.tickTime due)).pulled late).taken (s.tickTime due) (s.adm.ready late)

theorem State.admTickFrom_now : (s.admTickFrom due late).now = s.tickTime due := by
  rw [s.admTickFrom_eq due late hup htmb, hstop, if_neg Bool.false_ne_true, (State.admTickAt_touch ..).now_eq (by decide),
    State.now_congr _ (State.modAdm_tmb ..), s.tickBegun_now due htmb]

/-- A tick measures, answers and runs the slots; then it drains the queue. -/
theorem State.admTickFrom_steps : ∃ (cap : Rat) (y : State),
    y.adm = (s.tickTaken due late).measured (s.tickTime due) cap ∧
    s.admTickFrom due late =
      ((y.admAnswered (s.tickTime due) (s.adm.ready late)).admSlots (s.tickTime due)).admDrained (s.tickTime due) := by
  obtain ⟨cap, hmeasured⟩ := ((s.tickBegun due).modAdm fun a => a.pulled late).admMeasured_adm (s.tickTime due)
    (s.adm.ready late)
  rw [State.modAdm_adm, s.tickBegun_adm due htmb] at hmeasured
  refine ⟨cap, _, hmeasured, ?_⟩
  rw [s.admTickFrom_eq due late hup htmb, hstop, if_neg Bool.false_ne_true]
  exact State.admTickAt_steps ..

theorem State.admTickFrom_lasting : ∃ cap,
    (s.admTickFrom due late).adm.lasting = ((s.tickTaken due late).measured (s.tickTime due) cap).lasting := by
  obtain ⟨cap, y, hy, hrow⟩ := s.admTickFrom_steps due late hup htmb hstop
  refine ⟨cap, ?_⟩
  rw [hrow, Adm.lasting_of_fixed (State.admDrained_fixed ..),
    Adm.lasting_of_fixed (Adm.fixed_of_settled (State.admSlots_settled ..)),
    Adm.lasting_of_unanswered (State.admAnswered_unanswered ..), hy]

end

end

/-! ### What steps 1 and 2 keep -/

section
variable (a : Adm) (t late : Nat)

/-- A tick's first inputs change no setting and no time, and send no grant. -/
theorem Adm.taken_settings (ins : List AdmIn) :
    (a.taken t ins).tickAt = a.tickAt ∧ (a.taken t ins).ctl = a.ctl ∧ (a.taken t ins).inbox = a.inbox ∧
    (a.taken t ins).siteLim = a.siteLim ∧ (a.taken t ins).siteCfg = a.siteCfg ∧ (a.taken t ins).siteAt = a.siteAt := by
  have h := a.taken_clock t ins
  exact ⟨(congrArg Adm.tickAt h :), (congrArg Adm.ctl h :), (congrArg Adm.inbox h :), (congrArg Adm.siteLim h :),
    (congrArg Adm.siteCfg h :), (congrArg Adm.siteAt h :)⟩

theorem Adm.taken_bins (ins : List AdmIn) :
    (a.taken t ins).binAt = a.binAt ∧ (a.taken t ins).binLen = a.binLen ∧ (a.taken t ins).binMs = a.binMs ∧
    (a.taken t ins).bins = a.bins ∧ (a.taken t ins).grants = a.grants := by
  have h := a.taken_clock t ins
  exact ⟨(congrArg Adm.binAt h :), (congrArg Adm.binLen h :), (congrArg Adm.binMs h :), (congrArg Adm.bins h :),
    (congrArg Adm.toTgt h :)⟩

end

/-! ### What a tick leaves -/

section
variable (s : State) (due late : Nat) (hup : s.isUp 2 = true) (htmb : s.tmbRuns = true) (hstop : s.adm.stopped = false)
include hup htmb hstop

theorem State.admTickFrom_stamps :
    (s.admTickFrom due late).adm.tickAt = s.tickTime due ∧ (s.admTickFrom due late).adm.ticked = true ∧
    (s.admTickFrom due late).adm.eClamp = 0 := by
  obtain ⟨cap, h⟩ := s.admTickFrom_lasting due late hup htmb hstop
  obtain ⟨hticked, hclamp, -, -, -, -, -⟩ := (s.tickTaken due late).measured_model (s.tickTime due) cap
  obtain ⟨-, -, htick, -, -⟩ := (s.tickTaken due late).measured_settings (s.tickTime due) cap
  obtain ⟨htaken, -, -, -, -, -⟩ :=
    ((s.adm.ticking (s.tickTime due)).pulled late).taken_settings (s.tickTime due) (s.adm.ready late)
  exact ⟨(congrArg Adm.tickAt h :).trans (htick.trans htaken), (congrArg Adm.ticked h :).trans hticked,
    (congrArg Adm.eClamp h :).trans hclamp⟩

theorem State.admTickFrom_inbox : (s.admTickFrom due late).adm.inbox = s.adm.inbox.drop (s.adm.inbox.length - late) := by
  obtain ⟨cap, h⟩ := s.admTickFrom_lasting due late hup htmb hstop
  obtain ⟨-, hinbox, -, -, -⟩ := (s.tickTaken due late).measured_settings (s.tickTime due) cap
  obtain ⟨-, -, htaken, -, -, -⟩ :=
    ((s.adm.ticking (s.tickTime due)).pulled late).taken_settings (s.tickTime due) (s.adm.ready late)
  exact (congrArg Adm.inbox h :).trans (hinbox.trans htaken)

/-- At most GPT grants leave, none under HOLD (R179). -/
theorem State.admTickFrom_grants :
    (s.admTickFrom due late).adm.grants.length ≤ s.adm.grants.length + s.adm.gpt ∧
    (bit s.adm.ctl 0 = true → (s.admTickFrom due late).adm.grants = s.adm.grants) := by
  obtain ⟨cap, y, hy, hrow⟩ := s.admTickFrom_steps due late hup htmb hstop
  obtain ⟨hctl, -, -, -, -⟩ := (s.tickTaken due late).measured_settings (s.tickTime due) cap
  obtain ⟨-, -, -, -, -, -, hsent⟩ := (s.tickTaken due late).measured_requests (s.tickTime due) cap
  obtain ⟨-, hctl', -, -, -, -⟩ :=
    ((s.adm.ticking (s.tickTime due)).pulled late).taken_settings (s.tickTime due) (s.adm.ready late)
  obtain ⟨-, -, -, -, hgrants'⟩ :=
    ((s.adm.ticking (s.tickTime due)).pulled late).taken_bins (s.tickTime due) (s.adm.ready late)
  have hslots := (y.admAnswered (s.tickTime due) (s.adm.ready late)).admSlots_settled (s.tickTime due)
  have hanswers := y.admAnswered_unanswered (s.tickTime due) (s.adm.ready late)
  have hgrants : ((y.admAnswered (s.tickTime due) (s.adm.ready late)).admSlots (s.tickTime due)).adm.grants = s.adm.grants := by
    rw [Adm.grants_of_settled hslots, Adm.grants_of_unanswered hanswers, hy, Adm.grants, hsent]
    exact hgrants'
  have hctl : ((y.admAnswered (s.tickTime due) (s.adm.ready late)).admSlots (s.tickTime due)).adm.ctl = s.adm.ctl := by
    rw [Adm.ctl_of_fixed (Adm.fixed_of_settled hslots), Adm.ctl_of_unanswered hanswers, hy, hctl]
    exact hctl'
  rw [hrow]
  refine ⟨?_, fun hhold => ?_⟩
  · rw [← hgrants, Adm.gpt, ← hctl]
    exact State.admDrained_grants ..
  · rw [← hgrants]
    exact State.admDrained_held _ _ (by rw [hctl]; exact hhold)

/-- A bin that has ended by the tick retires the oldest one (R169, R170). -/
theorem State.admTickFrom_bins (hticked : s.adm.ticked = true) (hdue : s.adm.binAt + s.adm.binLen * 1000 ≤ s.tickTime due) :
    (s.admTickFrom due late).adm.binAt = s.tickTime due ∧ (s.admTickFrom due late).adm.binLen = s.adm.binMs ∧
    (s.admTickFrom due late).adm.bins.tail = s.adm.bins.take 63 := by
  obtain ⟨cap, h⟩ := s.admTickFrom_lasting due late hup htmb hstop
  obtain ⟨hat, hlen, hms, hbins, -⟩ :=
    ((s.adm.ticking (s.tickTime due)).pulled late).taken_bins (s.tickTime due) (s.adm.ready late)
  have hat : (s.tickTaken due late).binAt = s.adm.binAt := hat.trans (if_neg (by rw [hticked]; decide))
  have hlen : (s.tickTaken due late).binLen = s.adm.binLen := hlen.trans (if_neg (by rw [hticked]; decide))
  obtain ⟨hat', hlen', hbins'⟩ := (s.tickTaken due late).measured_bins (s.tickTime due) cap (by rw [hat, hlen]; exact hdue)
  refine ⟨(congrArg Adm.binAt h :).trans hat', (congrArg Adm.binLen h :).trans (hlen'.trans hms), ?_⟩
  refine (congrArg Adm.bins h :).trans ?_
  change ((s.tickTaken due late).measured (s.tickTime due) cap).bins.tail = _
  rw [hbins', hbins]
  rfl

/-- The site limit is stale from its time-out on (R171). -/
theorem State.admTickFrom_site (htmo : 0 < fld s.adm.siteCfg 16 8)
    (hold : s.adm.siteAt + fld s.adm.siteCfg 16 8 * 1000000 ≤ s.tickTime due) :
    (s.admTickFrom due late).adm.stale = true ∧ (s.admTickFrom due late).adm.siteLimN = fld s.adm.siteCfg 0 16 ∧
    (s.admTickFrom due late).adm.siteLim = s.adm.siteLim := by
  obtain ⟨cap, h⟩ := s.admTickFrom_lasting due late hup htmb hstop
  obtain ⟨-, -, -, hlim, hcfg, hat⟩ :=
    ((s.adm.ticking (s.tickTime due)).pulled late).taken_settings (s.tickTime due) (s.adm.ready late)
  obtain ⟨-, -, -, hlim', hcfg'⟩ := (s.tickTaken due late).measured_settings (s.tickTime due) cap
  obtain ⟨-, -, -, hstale, -, -, -⟩ := (s.tickTaken due late).measured_model (s.tickTime due) cap
  have hstale : (s.admTickFrom due late).adm.stale = true := by
    refine (congrArg Adm.stale h :).trans (hstale.trans ?_)
    rw [Adm.freshen]
    dsimp only
    rw [hcfg, hat]
    change (decide (fld s.adm.siteCfg 16 8 ≠ 0) && (_ || decide (s.adm.siteAt + fld s.adm.siteCfg 16 8 * 1000000 ≤ _))) = true
    rw [decide_eq_true hold, decide_eq_true (Nat.ne_of_gt htmo), Bool.or_true, Bool.and_true]
  have hcfg : (s.admTickFrom due late).adm.siteCfg = s.adm.siteCfg := (congrArg Adm.siteCfg h :).trans (hcfg'.trans hcfg)
  refine ⟨hstale, ?_, (congrArg Adm.siteLim h :).trans (hlim'.trans hlim)⟩
  rw [Adm.siteLimN, hstale, if_pos rfl, hcfg]

end

end Sys2Proof.Machine

/-! ## Ticks of ADM: grants, deadlines, bins and what is stale (R164, R169, R171 to R173, R179) -/

namespace Sys2Proof.Machine

open Claims

/-! ### A tick without inputs -/

section
variable (a : Adm) (t late : Nat)

theorem Adm.ready_of_empty (h : a.inbox = []) : a.ready late = [] := by rw [Adm.ready, h, List.take_nil]

/-- The dissipation depends on the entries, the views, the currents and P_FIXED alone (R174). -/
theorem Adm.pSum_congr {b : Adm} (hqueue : b.queue = a.queue) (hview : b.view = a.view) (hmeas : b.iMeas = a.iMeas)
    (hfixed : b.pFixed = a.pFixed) (k : Rat) : b.pSum k = a.pSum k := by
  have hheat : b.heat k = a.heat k := funext fun x => by
    rw [Adm.heat, Adm.heat, a.entry_congr x hqueue, hview, hmeas]
  rw [Adm.pSum, Adm.pSum, hheat, Adm.groupHeat, Adm.groupHeat, hmeas, hfixed]

theorem Adm.heated_congr {b : Adm} (hqueue : b.queue = a.queue) (hview : b.view = a.view) (hmeas : b.iMeas = a.iMeas)
    (hfixed : b.pFixed = a.pFixed) (htemp : b.tModel = a.tModel) (hcfg : b.modelCfg = a.modelCfg)
    (hdelta : b.deltaT = a.deltaT) (hclamp : b.eClamp = a.eClamp) : b.heated = a.heated := by
  have hpower : b.pSum b.kT = a.pSum a.kT := by
    rw [a.pSum_congr hqueue hview hmeas hfixed, Adm.kT, Adm.kT, htemp]
  rw [Adm.heated, Adm.heated, hpower, hdelta, hclamp, Adm.rTh, Adm.tau, hcfg]
  rfl

theorem Adm.begun_of_ticked (h : a.ticked = true) : a.begun = a := by rw [Adm.begun, if_pos h]

theorem Adm.freshen_heated : (a.freshen t).heated = a.heated := a.heated_congr rfl rfl rfl rfl rfl rfl rfl rfl

/-- Without inputs the model starts from what it was (R173). -/
theorem Adm.heated_quiet (h : a.ticked = true) : (((a.ticking t).pulled late).freshen t).begun.heated = a.heated := by
  rw [Adm.begun_of_ticked (((a.ticking t).pulled late).freshen t) h, Adm.freshen_heated]
  exact a.heated_congr rfl rfl rfl rfl rfl rfl rfl rfl

/-- The older of two copies is stale once it is more than 10 ms old (R172). -/
theorem Adm.freshen_stale {u w : Nat} (hv : a.vAt = some u) (hw : a.tbpAt = some w) (hold : min u w + 10001 ≤ t) :
    (a.freshen t).sensorStale = true ∧ (u ≤ w → (a.freshen t).vBank = Vector.replicate 4 60000) ∧
    (w ≤ u → (a.freshen t).tbp = 85) := by
  rw [Adm.freshen]
  dsimp only
  rw [hv, hw]
  refine ⟨?_, fun h => if_pos ?_, fun h => if_pos ?_⟩
  · rw [Bool.or_eq_true, decide_eq_true_iff, decide_eq_true_iff]
    omega
  · exact decide_eq_true (by omega)
  · exact decide_eq_true (by omega)

theorem bitsOf_testBit_last (k : Nat) (p : Nat → Bool) : (bitsOf (k + 1) p).testBit k = p k := by
  have hlow : bitsOf k p < 2 ^ k := by
    induction k with
    | zero => exact Nat.one_pos
    | succ k ih =>
      have hlast : bitsOf (k + 1) p = if p k then bitsOf k p ||| 1 <<< k else bitsOf k p := by
        rw [bitsOf, List.range_succ, List.foldl_append]
        rfl
      have hwide : bitsOf k p < 2 ^ (k + 1) := ih.trans (Nat.pow_lt_pow_succ Nat.one_lt_two)
      rw [hlast]
      split
      · refine Nat.or_lt_two_pow hwide ?_
        rw [Nat.one_shiftLeft]
        exact Nat.pow_lt_pow_succ Nat.one_lt_two
      · exact hwide
  have hlast : bitsOf (k + 1) p = if p k then bitsOf k p ||| 1 <<< k else bitsOf k p := by
    rw [bitsOf, List.range_succ, List.foldl_append]
    rfl
  rw [hlast]
  cases hp : p k with
  | false => exact Nat.testBit_lt_two_pow hlow
  | true =>
    rw [if_pos rfl, Nat.testBit_or, Nat.testBit_lt_two_pow hlow, Nat.one_shiftLeft, Nat.testBit_two_pow_self]
    rfl

/-- OVER shows a stale sensor copy (R183). -/
theorem Adm.over_sensor (skip : Nat → Bool) : (a.over skip).testBit 10 = a.sensorStale := bitsOf_testBit_last 10 _

end

section
variable (s : State) (due late : Nat) (hup : s.isUp 2 = true) (htmb : s.tmbRuns = true) (hstop : s.adm.stopped = false)
include hup htmb hstop

theorem State.admTickFrom_quiet (hinbox : s.adm.inbox = []) : ∃ (cap : Rat) (y : State),
    y.adm = ((s.adm.ticking (s.tickTime due)).pulled late).measured (s.tickTime due) cap ∧
    s.admTickFrom due late = (y.admSlots (s.tickTime due)).admDrained (s.tickTime due) := by
  obtain ⟨cap, y, hy, hrow⟩ := s.admTickFrom_steps due late hup htmb hstop
  rw [s.adm.ready_of_empty late hinbox] at hrow
  rw [State.tickTaken, s.adm.ready_of_empty late hinbox] at hy
  exact ⟨cap, y, hy, hrow⟩

theorem State.admTickFrom_heat (hinbox : s.adm.inbox = []) (hticked : s.adm.ticked = true) :
    (s.admTickFrom due late).adm.deltaT = s.adm.heated := by
  obtain ⟨cap, h⟩ := s.admTickFrom_lasting due late hup htmb hstop
  obtain ⟨-, -, hdelta, -, -, -, -⟩ := (s.tickTaken due late).measured_model (s.tickTime due) cap
  refine (congrArg Adm.deltaT h :).trans (hdelta.trans ?_)
  rw [State.tickTaken, s.adm.ready_of_empty late hinbox]
  exact s.adm.heated_quiet (s.tickTime due) late hticked

/-- A copy older than 10 ms is replaced and reported (R172). -/
theorem State.admTickFrom_sensors (hinbox : s.adm.inbox = []) {u w : Nat} (hv : s.adm.vAt = some u)
    (hw : s.adm.tbpAt = some w) (hold : min u w + 10001 ≤ s.tickTime due) :
    (s.admTickFrom due late).adm.sensorStale = true ∧
    (u ≤ w → (s.admTickFrom due late).adm.vBank = Vector.replicate 4 60000) ∧
    (w ≤ u → (s.admTickFrom due late).adm.tbp = 85) := by
  obtain ⟨cap, h⟩ := s.admTickFrom_lasting due late hup htmb hstop
  obtain ⟨-, -, -, -, hstale, hbank, hbp⟩ := (s.tickTaken due late).measured_model (s.tickTime due) cap
  obtain ⟨hold, hold60, hold85⟩ := ((s.adm.ticking (s.tickTime due)).pulled late).freshen_stale (s.tickTime due)
    (hv : ((s.adm.ticking (s.tickTime due)).pulled late).vAt = some u) hw hold
  rw [State.tickTaken, s.adm.ready_of_empty late hinbox] at h hstale hbank hbp
  exact ⟨(congrArg Adm.sensorStale h :).trans (hstale.trans hold),
    fun hle => (congrArg Adm.vBank h :).trans (hbank.trans (hold60 hle)),
    fun hle => (congrArg Adm.tbp h :).trans (hbp.trans (hold85 hle))⟩

theorem State.admTickFrom_overSensor : (s.admTickFrom due late).adm.overB.testBit 10 = (s.admTickFrom due late).adm.sensorStale := by
  obtain ⟨cap, y, -, hrow⟩ := s.admTickFrom_steps due late hup htmb hstop
  rw [hrow, State.admDrained_adm]
  exact Adm.over_sensor _ _

/-- After a tick no waiting entry is past its deadline (R164). -/
theorem State.admTickFrom_clear {e : Entry} (he : e ∈ (s.admTickFrom due late).adm.queue) (hwaits : e.granted = false) :
    e.deadline.any (fun d => decide (d < s.tickTime due)) = false := by
  obtain ⟨cap, y, -, hrow⟩ := s.admTickFrom_steps due late hup htmb hstop
  rw [hrow] at he
  exact State.admDeadlines_clear _ _ ((State.admDrained_drains_deadlines _ _).waiting e he hwaits) hwaits

end

/-! ### Idle slots -/

theorem State.admSlots_idle {s : State} (h : s.slotsIdle) (t : Nat) : s.admSlots t = s :=
  forFin_eq_self fun i => s.slotTick_disabled i t (h i)

section
variable (s : State) (due late : Nat) (hup : s.isUp 2 = true) (htmb : s.tmbRuns = true) (hstop : s.adm.stopped = false)
include hup htmb hstop

/-- A tick without inputs and slots drops each entry past its deadline and tells its target (R164). -/
theorem State.admTickFrom_drops (hinbox : s.adm.inbox = []) (hslots : s.slotsIdle) {e : Entry} (he : e ∈ s.adm.queue)
    (hlate : e.late (s.tickTime due) = true) :
    (s.admTickFrom due late).adm.entry e.target = none ∧
    (e.target ≤ 66 → (e.target, .drop) ∈ (s.admTickFrom due late).adm.toTgt) := by
  obtain ⟨cap, y, hy, hrow⟩ := s.admTickFrom_quiet due late hup htmb hstop hinbox
  obtain ⟨hqueue, hslots', -, -, -, -, -⟩ :=
    ((s.adm.ticking (s.tickTime due)).pulled late).measured_requests (s.tickTime due) cap
  have hidle : y.slotsIdle := fun i => by
    rw [hy, hslots']
    exact hslots i
  rw [State.admSlots_idle hidle] at hrow
  have hqueued : e ∈ y.adm.queue := by
    rw [hy, hqueue]
    exact he
  obtain ⟨hgone, htold⟩ := y.admDeadlines_gone (s.tickTime due) hqueued hlate
  have hdrains := y.admDrained_drains_deadlines (s.tickTime due)
  rw [hrow]
  exact ⟨hdrains.gone _ hgone, fun ht => hdrains.sent.subset (htold ht)⟩

end

theorem State.tickTime_due (s : State) (due : Nat) : due ≤ s.tickTime due := (le_max_left ..).trans (le_max_right ..)

theorem State.tickTime_zero (s : State) : s.tickTime 0 = max s.now (s.adm.tickAt + 10) := by
  rw [State.tickTime, Nat.zero_max]

/-- Settles O23, by what a tick leaves of ADM's settings and queue (`State.admTickFrom_lasting`, `Adm.Drains`). -/
theorem admTicksGrantWithinTheLimits : Obligations.AdmTicksGrantWithinTheLimits := by
  unfold Obligations.AdmTicksGrantWithinTheLimits
  refine ⟨?_, ?_, ?_, ?_, ?_, ?_, ?_, ?_, ?_, ?_, ?_, ?_⟩
  · intro s late hup htmb hstop
    have hnow := s.admTickFrom_now 0 late hup htmb hstop
    obtain ⟨htick, hticked, hclamp⟩ := s.admTickFrom_stamps 0 late hup htmb hstop
    obtain ⟨hmost, hheld⟩ := s.admTickFrom_grants 0 late hup htmb hstop
    exact ⟨_, rfl, hnow.trans s.tickTime_zero, htick.trans hnow.symm, hticked, hmost,
      fun hhold => congrArg List.length (hheld hhold), s.admTickFrom_heat 0 late hup htmb hstop, hclamp,
      State.admTickFrom_touch ..⟩
  · intro s late hup htmb hstop
    obtain ⟨hnow, cap, hadm⟩ := s.admTickFrom_stopped 0 late hup htmb hstop
    rw [Adm.binStep_eq] at hadm
    refine ⟨_, rfl, hnow.trans s.tickTime_zero, ?_, ?_, ?_, ?_, ?_, State.admTickFrom_touch ..⟩
    · exact (congrArg Adm.tickAt hadm).trans hnow.symm
    · exact (congrArg Adm.queue hadm :)
    · exact (congrArg Adm.inbox hadm :)
    · exact (congrArg Adm.toTgt hadm :)
    · exact (congrArg Adm.ticked hadm :)
  · intro s hup htmb hstop hticked
    have hnow := s.admTickFrom_now (s.adm.binAt + s.adm.binLen * 1000) 0 hup htmb hstop
    obtain ⟨hat, hlen, hbins⟩ := s.admTickFrom_bins _ 0 hup htmb hstop hticked (s.tickTime_due _)
    exact ⟨_, rfl, hnow, hat.trans hnow.symm, hlen, hbins, State.admTickFrom_touch ..⟩
  · intro s d hup htmb hstop hmin
    have hexec : exec .deadlineExpiry s = .next (s.admTickFrom (d + 1) 0) := by
      refine congrArg Host.Outcome.next (?_ : s.deadlineTick = _)
      rw [State.deadlineTick, hmin]
    have hnow := s.admTickFrom_now (d + 1) 0 hup htmb hstop
    refine ⟨_, hexec, hnow, ?_, ?_, State.admTickFrom_touch ..⟩
    · rw [hnow]
      exact fun e he hwaits => s.admTickFrom_clear (d + 1) 0 hup htmb hstop he hwaits
    · rw [hnow]
      exact fun hinbox hslots e he hwaits hlate => s.admTickFrom_drops (d + 1) 0 hup htmb hstop hinbox hslots he
        (by rw [Entry.late, hwaits, hlate]; rfl)
  · intro s c v hcan
    refine fires_storeIf (ps := [.fab, .answer, .adm, .pmc, .free]) rfl hcan (fun x => (x.siteLimWrite_touch v).mono (by decide))
      (by decide) fun t ht htouch => ⟨?_, ?_, htouch⟩
    · rw [← ht]
      change { (s.served c).adm with siteLim := keep 0xFFFF v, siteAt := (s.served c).now, stale := false } = _
      rw [State.served_adm, (State.served_touch ..).now_eq (by decide)]
    · rw [← ht]
  · intro s hup htmb hstop htmo
    have hexec : exec .siteStale s = .next (s.admTickFrom (s.adm.siteAt + fld s.adm.siteCfg 16 8 * 1000000) 0) := by
      refine congrArg Host.Outcome.next (?_ : s.siteStaleTick = _)
      rw [State.siteStaleTick, if_neg (Nat.ne_of_gt htmo)]
    obtain ⟨hstale, hlimN, hlim⟩ := s.admTickFrom_site _ 0 hup htmb hstop htmo (s.tickTime_due _)
    exact ⟨_, hexec, s.admTickFrom_now _ 0 hup htmb hstop, hstale, hlimN, hlim, State.admTickFrom_touch ..⟩
  · intro s a b hup htmb hstop hv hw hinbox
    have hexec : exec .sensorStale s = .next (s.admTickFrom (min a b + 10001) 0) := by
      refine congrArg Host.Outcome.next (?_ : s.sensorStaleTick = _)
      rw [State.sensorStaleTick, hv, hw]
    obtain ⟨hstale, hbank, hbp⟩ := s.admTickFrom_sensors _ 0 hup htmb hstop hinbox hv hw (s.tickTime_due _)
    exact ⟨_, hexec, s.admTickFrom_now _ 0 hup htmb hstop, hstale, hbank, hbp,
      (s.admTickFrom_overSensor _ 0 hup htmb hstop).trans hstale, State.admTickFrom_touch ..⟩
  · exact fun s late h => ⟨_, rfl, s.admTickFrom_idle 0 late h⟩
  · exact fun s h => ⟨_, rfl, s.admTickFrom_idle _ 0 h⟩
  · intro s h
    refine ⟨_, rfl, ?_⟩
    rw [State.deadlineTick]
    split
    · rfl
    next d hmin =>
      rw [← or_assoc] at h
      exact s.admTickFrom_idle _ 0 (h.resolve_right (by rw [hmin]; exact Option.some_ne_none d))
  · intro s h
    refine ⟨_, rfl, ?_⟩
    rw [State.siteStaleTick]
    split
    · rfl
    next htmo =>
      rw [← or_assoc] at h
      exact s.admTickFrom_idle _ 0 (h.resolve_right htmo)
  · intro s h
    refine ⟨_, rfl, ?_⟩
    rw [State.sensorStaleTick]
    split <;> exact s.admTickFrom_idle _ 0 h

end Sys2Proof.Machine

/-! ## A tick of ADM: the slots and the entries of their channels (R184 to R188) -/

namespace Sys2Proof.Machine

open Claims

section
variable (s : State) (i : Fin 16) (now : Nat)

/-- The owner of a channel depends on the slots' configurations alone (R184). -/
theorem Adm.ownerOf_congr {a b : Adm} (h : ∀ j : Fin 16, b.slots[j].cfg = a.slots[j].cfg) (n : Nat) :
    b.ownerOf n = a.ownerOf n := by
  have hslot : ∀ j : Fin 16, (b.slots[j].en && decide (b.slots[j].ch = n)) = (a.slots[j].en && decide (a.slots[j].ch = n)) :=
    fun j => by rw [Slot.en, Slot.en, Slot.ch, Slot.ch, h j]
  rw [Adm.ownerOf, Adm.ownerOf]
  exact congrArg (fun p => List.find? p (List.finRange 16)) (funext hslot)

/-- No slot owns a target that is not a high-side channel (R184). -/
theorem Adm.ownerOf_ext (a : Adm) {u : Nat} (hu : 48 ≤ u) : a.ownerOf u = none := by
  refine List.find?_eq_none.mpr fun j _ => ?_
  have hch : a.slots[j].ch ≤ 47 := min_le_left ..
  rw [Bool.and_eq_true, decide_eq_true_iff]
  omega

theorem Adm.modSlot_entry (a : Adm) (f : Slot → Slot) (u : Nat) : (a.modSlot i f).entry u = a.entry u := rfl

theorem Adm.enter_entry (a : Adm) {t u : Nat} (hu : u ≠ t) (prio : Nat) (dl : Option Nat) (iCont inrE time : Nat) (own : Bool) :
    (a.enter t prio dl iCont inrE time own).1.entry u = a.entry u := by
  unfold Adm.enter
  dsimp only
  split
  next e he =>
    rw [Adm.modEntry_entry]
    · cases hu' : a.entry u with
      | none => rfl
      | some x =>
        have hx : x.target = u := of_decide_eq_true (List.find?_some hu' :)
        rw [Option.map_some, if_neg (hx ▸ hu)]
    · exact fun _ => rfl
  next he =>
    split
    · rfl
    · rw [Adm.entry, List.find?_append, Adm.entry]
      simp [Ne.symm hu]

theorem Adm.enter_slots (a : Adm) (t prio : Nat) (dl : Option Nat) (iCont inrE time : Nat) (own : Bool) :
    (a.enter t prio dl iCont inrE time own).1.slots = a.slots := by
  unfold Adm.enter
  dsimp only
  split
  · rfl
  · split
    · rfl
    · exact Adm.send_slots ..

/-! ### A window end and a period start -/

theorem State.slotEnd_slots : (s.slotEnd i now).adm.slots = upd s.adm.slots i (·.closedAt now) := by
  rw [State.slotEnd, State.slotClose_adm, Adm.modSlot]
  dsimp only
  rw [State.slotOff_slots]
  split
  · rw [State.admDropLate_slots]
  · rfl

theorem State.slotEnd_entry (u : Nat) : (s.slotEnd i now).adm.entry u =
    if u = s.adm.slots[i].ch ∧ s.adm.isWaiting u = true then none else s.adm.entry u := by
  have hclose : (s.slotEnd i now).adm.entry u =
      (if s.adm.isWaiting s.adm.slots[i].ch then s.admDropLate s.adm.slots[i].ch now else s).adm.entry u := by
    rw [State.slotEnd, State.slotClose_adm]
    exact State.slotOff_entry ..
  rw [hclose]
  by_cases hu : u = s.adm.slots[i].ch
  · rw [hu]
    cases hw : s.adm.isWaiting s.adm.slots[i].ch
    · rw [if_neg Bool.false_ne_true, if_neg fun h => Bool.false_ne_true h.2]
    · rw [if_pos rfl, if_pos ⟨rfl, rfl⟩, State.admDropLate_entry, if_pos rfl]
  · rw [if_neg (c := u = s.adm.slots[i].ch ∧ _) fun h => hu h.1]
    split
    · rw [State.admDropLate_entry, if_neg hu]
    · rfl

/-- The on-time of the period that starts, with what is carried over, in ms (R185). -/
def Slot.onTime (x : Slot) : Nat := min (x.dutyN * x.period + x.carry) (x.period * 1000)

/-- The next period start after time `now` (R185). -/
def Slot.nextAfter (x : Slot) (now : Nat) : Nat :=
  x.next + (now - x.next) / (x.period * 1000000) * (x.period * 1000000) + x.period * 1000000

/-- A slot without a window waiting or on asks for its channel (R185). -/
theorem State.slotAsk_at (c : Prop) [Decidable c] (t prio : Nat) (dl : Option Nat) :
    (if c then s else (s.modAdm fun a => (a.enter t prio dl 0 0 now false).1).fabCount 0x0B 0 1).adm.slots = s.adm.slots ∧
    ∀ u, u ≠ t → (if c then s else (s.modAdm fun a => (a.enter t prio dl 0 0 now false).1).fabCount 0x0B 0 1).adm.entry u =
      s.adm.entry u := by
  split
  · exact ⟨rfl, fun _ _ => rfl⟩
  · rw [State.fabCount_adm]
    exact ⟨Adm.enter_slots .., fun u hu => Adm.enter_entry _ hu ..⟩

/-- A slot that opens no window in the period that starts (R185). -/
def Slot.skips (x : Slot) (next carry : Nat) : Slot := { x with next := next, carry := carry, st := 0 }

/-- A slot that opens a window until `tEnd` (R185). -/
def Slot.opens (x : Slot) (a : Adm) (now next tEnd : Nat) (on : Bool) : Slot :=
  { x with
    next := next, carry := 0, open_ := true, tEnd := tEnd, duty := x.dutyN, dl := tEnd - x.minOn * 1000, onUs := 0,
    since := if vget a.view x.ch .off != .off then some now else none, st := if on then 2 else 1 }

theorem Slot.skips_periods (x : Slot) (next carry : Nat) :
    (x.skips next carry).cfg = x.cfg ∧ (x.skips next carry).next = next ∧ (x.skips next carry).carry = carry := ⟨rfl, rfl, rfl⟩

theorem Slot.opens_periods (x : Slot) (a : Adm) (now next tEnd : Nat) (on : Bool) :
    (x.opens a now next tEnd on).cfg = x.cfg ∧ (x.opens a now next tEnd on).next = next ∧
    (x.opens a now next tEnd on).carry = 0 := ⟨rfl, rfl, rfl⟩

theorem State.slotStart_short (h : s.adm.slots[i].onTime < s.adm.slots[i].minOn) :
    s.slotStart i now = ((s.slotClose i now).slotOff s.adm.slots[i].ch).modAdm fun a =>
      a.modSlot i fun x => x.skips (s.adm.slots[i].nextAfter now) s.adm.slots[i].onTime := if_pos h

theorem State.slotStart_long (h : ¬ s.adm.slots[i].onTime < s.adm.slots[i].minOn) :
    ∃ (tEnd : Nat) (on : Bool) (dl : Option Nat) (y : State),
      y = ((s.slotClose i now).modAdm fun a =>
        a.modSlot i fun x => x.opens a now (s.adm.slots[i].nextAfter now) tEnd on) ∧
      s.slotStart i now = if on then y else
        (y.modAdm fun a => (a.enter s.adm.slots[i].ch s.adm.slots[i].prio dl 0 0 now false).1).fabCount 0x0B 0 1 :=
  ⟨_, _, _, _, rfl, if_neg h⟩

/-- A period start moves the next one, carries a short on-time over and enters at most an entry of its channel (R185). -/
theorem State.slotStart_at :
    onlyAt i s.adm.slots (s.slotStart i now).adm.slots ∧ (s.slotStart i now).adm.slots[i].cfg = s.adm.slots[i].cfg ∧
    (s.slotStart i now).adm.slots[i].next = s.adm.slots[i].nextAfter now ∧
    ((s.slotStart i now).adm.slots[i].carry =
      if s.adm.slots[i].onTime < s.adm.slots[i].minOn then s.adm.slots[i].onTime else 0) ∧
    ∀ u, u ≠ s.adm.slots[i].ch → (s.slotStart i now).adm.entry u = s.adm.entry u := by
  obtain ⟨-, -, hcfg, -⟩ := s.adm.slots[i].closedAt_periods now
  have hentry : ∀ u, (s.slotClose i now).adm.entry u = s.adm.entry u := fun u => by rw [State.slotClose_adm, Adm.modSlot_entry]
  have hclosed : (s.slotClose i now).adm.slots = upd s.adm.slots i (·.closedAt now) := by rw [State.slotClose_adm]; rfl
  by_cases hshort : s.adm.slots[i].onTime < s.adm.slots[i].minOn
  · have hslots : (s.slotStart i now).adm.slots = upd s.adm.slots i fun x =>
        (x.closedAt now).skips (s.adm.slots[i].nextAfter now) s.adm.slots[i].onTime := by
      rw [s.slotStart_short i now hshort, State.modAdm_adm, Adm.modSlot]
      dsimp only
      rw [State.slotOff_slots, hclosed, upd_upd]
    obtain ⟨hat, hothers⟩ := changed_at hslots
    obtain ⟨hcfg', hnext, hcarry⟩ :=
      (s.adm.slots[i].closedAt now).skips_periods (s.adm.slots[i].nextAfter now) s.adm.slots[i].onTime
    refine ⟨hothers, ?_, ?_, ?_, fun u _ => ?_⟩
    · rw [hat, hcfg', hcfg]
    · rw [hat, hnext]
    · rw [hat, if_pos hshort, hcarry]
    · rw [s.slotStart_short i now hshort, State.modAdm_adm, Adm.modSlot_entry, State.slotOff_entry, hentry]
  · obtain ⟨tEnd, on, dl, y, hy, hrow⟩ := s.slotStart_long i now hshort
    obtain ⟨hask, hasked⟩ := y.slotAsk_at now (on = true) s.adm.slots[i].ch s.adm.slots[i].prio dl
    rw [← hrow] at hask hasked
    have hslots : (s.slotStart i now).adm.slots = upd s.adm.slots i fun x =>
        (x.closedAt now).opens (s.slotClose i now).adm now (s.adm.slots[i].nextAfter now) tEnd on := by
      rw [hask, hy, State.modAdm_adm, Adm.modSlot]
      dsimp only
      rw [hclosed, upd_upd]
    obtain ⟨hat, hothers⟩ := changed_at hslots
    obtain ⟨hcfg', hnext, hcarry⟩ := (s.adm.slots[i].closedAt now).opens_periods (s.slotClose i now).adm now
      (s.adm.slots[i].nextAfter now) tEnd on
    refine ⟨hothers, ?_, ?_, ?_, fun u hu => ?_⟩
    · rw [hat, hcfg', hcfg]
    · rw [hat, hnext]
    · rw [hat, if_neg hshort, hcarry]
    · rw [hasked u hu, hy, State.modAdm_adm, Adm.modSlot_entry, hentry]

/-! ### A slot's turn -/

/-- A slot's turn changes its own slot and no configuration. -/
theorem State.slotTick_slots :
    onlyAt i s.adm.slots (s.slotTick i now).adm.slots ∧
    ∀ j : Fin 16, (s.slotTick i now).adm.slots[j].cfg = s.adm.slots[j].cfg := by
  have hcfgs : ∀ y z : State, onlyAt i y.adm.slots z.adm.slots → z.adm.slots[i].cfg = y.adm.slots[i].cfg →
      ∀ j : Fin 16, z.adm.slots[j].cfg = y.adm.slots[j].cfg := fun y z honly hcfg j => by
    by_cases hj : j = i
    · rw [hj, hcfg]
    · rw [honly j hj]
  refine s.slotTick_keeps i now
    (P := fun y => onlyAt i s.adm.slots y.adm.slots ∧ ∀ j : Fin 16, y.adm.slots[j].cfg = s.adm.slots[j].cfg)
    ⟨onlyAt_refl _ _, fun _ => rfl⟩ (fun y f hf hy => ?_) (fun _ y hy => ?_) fun _ y hy => ?_
  · obtain ⟨hat, hothers⟩ := changed_at (rfl : (y.modAdm fun a => a.modSlot i f).adm.slots = upd y.adm.slots i f)
    exact ⟨onlyAt_trans hy.1 hothers, fun j => (hcfgs y _ hothers (by rw [hat, hf]) j).trans (hy.2 j)⟩
  · obtain ⟨hat, hothers⟩ := changed_at (y.slotEnd_slots i now)
    obtain ⟨-, -, hcfg, -⟩ := y.adm.slots[i].closedAt_periods now
    exact ⟨onlyAt_trans hy.1 hothers, fun j => (hcfgs y _ hothers (by rw [hat, hcfg]) j).trans (hy.2 j)⟩
  · obtain ⟨hothers, hcfg, -, -, -⟩ := y.slotStart_at i now
    exact ⟨onlyAt_trans hy.1 hothers, fun j => (hcfgs y _ hothers hcfg j).trans (hy.2 j)⟩

/-- A slot's turn leaves alone the entry of a target that the slot does not own (R184). -/
theorem State.slotTick_entry {u : Nat} (hu : s.adm.ownerOf u ≠ some i) : (s.slotTick i now).adm.entry u = s.adm.entry u := by
  have hch : ∀ y : State, y.adm.slots[i].cfg = s.adm.slots[i].cfg → s.adm.ownerOf s.adm.slots[i].ch = some i →
      u ≠ y.adm.slots[i].ch := fun y hcfg howner h => by
    rw [Slot.ch, hcfg] at h
    exact hu (h ▸ howner)
  refine (s.slotTick_keeps i now
    (P := fun y => y.adm.entry u = s.adm.entry u ∧ y.adm.slots[i].cfg = s.adm.slots[i].cfg) ⟨rfl, rfl⟩
    (fun y f hf hy => ⟨hy.1, ?_⟩) (fun howner y hy => ⟨?_, ?_⟩) fun howner y hy => ?_).1
  · rw [State.modAdm_adm, Adm.modSlot, upd_get, hf]
    exact hy.2
  · rw [State.slotEnd_entry, if_neg fun h => hch y hy.2 howner h.1]
    exact hy.1
  · obtain ⟨-, -, hcfg, -⟩ := y.adm.slots[i].closedAt_periods now
    rw [State.slotEnd_slots, upd_get, hcfg]
    exact hy.2
  · obtain ⟨-, hcfg, -, -, hentry⟩ := y.slotStart_at i now
    exact ⟨(hentry u (hch y hy.2 howner)).trans hy.1, hcfg.trans hy.2⟩

/-- Step 7 adds and removes no external entry (R184). -/
theorem State.admSlots_ext {u : Nat} (hu : 48 ≤ u) : (s.admSlots now).adm.entry u = s.adm.entry u :=
  forFin_keeps (P := fun y => y.adm.entry u = s.adm.entry u)
    (fun i y hy => (y.slotTick_entry i now (by rw [y.adm.ownerOf_ext hu]; exact fun h => nomatch h)).trans hy) rfl

end

end Sys2Proof.Machine

/-! ## Requests, cancels and releases at ADM (R158 to R166) -/

namespace Sys2Proof.Machine

open Claims

/-! ### Stores -/

theorem State.admStore_adm (s : State) (c : Fin 4) (m : Nat → AdmIn) : ∃ r, (s.admStore c m).adm =
    { s.adm with
      resDone := upd s.adm.resDone c fun _ => false, resCode := upd s.adm.resCode c fun _ => r,
      resSeq := upd s.adm.resSeq c fun _ => s.adm.resSeq[c] + 1, inbox := s.adm.inbox ++ [m (s.adm.resSeq[c] + 1)] } := by
  refine ⟨(s.draw 3).1, ?_⟩
  rw [State.admStore]
  dsimp only
  rw [State.toAdm, State.modAdm_adm, State.modAdm_adm, State.draw_adm]

/-- A store to REQ, CANCEL or RELEASE clears DONE of its core and joins ADM's inputs (R159). -/
theorem fires_admStore {s : State} {i : Instr} {c : Fin 4} {m : Nat → AdmIn}
    (hexec : exec i s = .next (s.store c 2 fun s => s.admStore c m)) (hruns : s.coreRuns = true) (hup : s.isUp 2 = true) :
    fires i s fun t =>
      t.adm.inbox = s.adm.inbox ++ [m (s.adm.resSeq[c] + 1)] ∧ t.adm.resSeq[c] = s.adm.resSeq[c] + 1 ∧
      t.adm.resDone[c] = false ∧ onlyAt c s.adm.resDone t.adm.resDone ∧ t.adm.queue = s.adm.queue ∧ t.answer = .done ∧
      onlyTouches [.fab, .answer, .adm, .pmc, .free] s t := by
  obtain ⟨r, hadm⟩ := (s.served c).admStore_adm c m
  rw [State.served_adm] at hadm
  have hrow := s.store_run c 2 (fun s => s.admStore c m) hruns hup
  refine ⟨_, hexec, ?_, ?_, ?_, ?_, ?_, ?_,
    s.store_touch c 2 _ (fun x => (x.admStore_touch c m).mono (by decide)) (by decide)⟩
  · rw [hrow, hadm]
  · rw [hrow, hadm]
    exact upd_get ..
  · rw [hrow, hadm]
    exact upd_get ..
  · rw [hrow, hadm]
    exact onlyAt_upd _ _ _
  · rw [hrow, hadm]
  · rw [hrow]

/-! ### Answers -/

section
variable (a : Adm) (c : Fin 4) (k x : Nat)

theorem Adm.result_last {r : Nat} (h : a.resSeq[c] = k) :
    (a.result c k r).resDone[c] = true ∧ (a.result c k r).resCode[c] = r := by
  rw [Adm.result, if_pos h]
  exact ⟨upd_get .., upd_get ..⟩

theorem Adm.result_overtaken {r : Nat} (h : a.resSeq[c] ≠ k) : a.result c k r = a := if_neg h

theorem Adm.result_queue (r : Nat) : (a.result c k r).queue = a.queue ∧ (a.result c k r).slots = a.slots ∧
    (a.result c k r).toTgt = a.toTgt ∧ (a.result c k r).extHeld = a.extHeld := by
  unfold Adm.result
  split <;> exact ⟨rfl, rfl, rfl, rfl⟩

/-- What a request is answered (R158, R159, R161). -/
def Adm.reqCode (a : Adm) (x : Nat) : Nat :=
  if fwTarget x = false then 3 else if x < 48 ∧ (a.ownerOf x).isSome then 4 else if (a.entry x).isSome then 1
  else if 256 ≤ x ∧ 189 ≤ (a.queue.filter fun e => 256 ≤ e.target).length then 2 else 0

/-- What a cancel is answered (R158, R165). -/
def Adm.cancelCode (a : Adm) (x : Nat) : Nat :=
  if fwTarget x = false then 3 else if a.isGranted x then 5 else if a.isWaiting x then 7 else 6

theorem Adm.reqCode_congr {b : Adm} (hqueue : b.queue = a.queue) (hslots : b.slots = a.slots) :
    b.reqCode x = a.reqCode x := by
  rw [Adm.reqCode, Adm.reqCode, hqueue, a.entry_congr x hqueue, Adm.ownerOf_congr (a := a) (b := b) fun j => by rw [hslots]]

theorem Adm.cancelCode_congr {b : Adm} (hqueue : b.queue = a.queue) : b.cancelCode x = a.cancelCode x := by
  rw [Adm.cancelCode, Adm.cancelCode, Adm.isGranted, Adm.isGranted, Adm.isWaiting, Adm.isWaiting, a.entry_congr x hqueue]

theorem Adm.enter_code (prio : Nat) (dl : Option Nat) (iCont inrE now : Nat) (own : Bool) :
    (a.enter x prio dl iCont inrE now own).2 = if (a.entry x).isSome then 1
      else if 256 ≤ x ∧ 189 ≤ (a.queue.filter fun e => 256 ≤ e.target).length then 2 else 0 := by
  unfold Adm.enter
  dsimp only
  cases a.entry x with
  | some e => rfl
  | none =>
    simp only [Bool.and_eq_true, decide_eq_true_eq, Option.isSome_none, Bool.false_eq_true, if_false]
    split <;> rfl

theorem Adm.drop_results :
    (a.drop x).resSeq = a.resSeq ∧ (a.drop x).resDone = a.resDone ∧ (a.drop x).resCode = a.resCode := by
  have h := a.drop_settled x
  exact ⟨(congrArg Adm.resSeq h :), (congrArg Adm.resDone h :), (congrArg Adm.resCode h :)⟩

theorem Adm.enter_resSeq (prio : Nat) (dl : Option Nat) (iCont inrE now : Nat) (own : Bool) :
    (a.enter x prio dl iCont inrE now own).1.resSeq = a.resSeq := (congrArg Adm.resSeq (a.enter_settled x prio dl iCont inrE now own) :)

/-- Counting a request, or one that found the queue full, answers nothing. -/
theorem State.countFull_results (s : State) (p : Prop) [Decidable p] (arg : W32) :
    (if p then (s.modAdm fun a => { a with cntFull := satN 16 (a.cntFull + 1) }).emit 2 0x43 arg
      else s.fabCount 0x0B 0 1).adm.resDone = s.adm.resDone ∧
    (if p then (s.modAdm fun a => { a with cntFull := satN 16 (a.cntFull + 1) }).emit 2 0x43 arg
      else s.fabCount 0x0B 0 1).adm.resCode = s.adm.resCode := by
  split
  · rw [State.emit_adm]
    exact ⟨rfl, rfl⟩
  · rw [State.fabCount_adm]
    exact ⟨rfl, rfl⟩

/-- A request is answered once, with what becomes of it (R158 to R162). -/
theorem State.admStep6_req (s : State) (now prio ms : Nat) (hlast : s.adm.resSeq[c] = k) :
    (s.admStep6 now (.req c k x prio ms)).adm.resDone[c] = true ∧
    (s.admStep6 now (.req c k x prio ms)).adm.resCode[c] = s.adm.reqCode x := by
  rw [State.admStep6, Adm.reqCode]
  dsimp only
  by_cases hfw : fwTarget x = false
  · rw [if_pos (by rw [hfw]; rfl), if_pos hfw]
    exact Adm.result_last _ c k hlast
  · rw [if_neg (by rw [Bool.not_eq_false _ |>.mp hfw]; exact Bool.false_ne_true), if_neg hfw]
    by_cases howned : x < 48 ∧ (s.adm.ownerOf x).isSome
    · rw [if_pos (by rw [Bool.and_eq_true, decide_eq_true_iff]; exact howned), if_pos howned]
      exact Adm.result_last _ c k hlast
    · rw [if_neg (by rw [Bool.and_eq_true, decide_eq_true_iff]; exact howned), if_neg howned,
        ← s.adm.enter_code x prio (s.adm.reqDl x now ms) 0 0 now false]
      generalize hr : s.adm.enter x prio (s.adm.reqDl x now ms) 0 0 now false = r
      have hseq : r.1.resSeq[c] = k := by rw [← hr, Adm.enter_resSeq]; exact hlast
      obtain ⟨hdone, hcode⟩ := ({ s with adm := r.1.result c k r.2 } : State).countFull_results (r.2 = 2) (pack [(0, 11, x)])
      obtain ⟨hdone', hcode'⟩ := r.1.result_last c k (r := r.2) hseq
      exact ⟨(congrArg (·[c]) hdone).trans hdone', (congrArg (·[c]) hcode).trans hcode'⟩

theorem Adm.cancelCode_cases :
    (a.step5 (.cancel c k x) = a.result c k (a.cancelCode x) ∧ a.cancelCode x ≠ 7) ∨
    (a.step5 (.cancel c k x) = (a.drop x).result c k (a.cancelCode x) ∧ a.cancelCode x = 7) := by
  rw [Adm.step5, Adm.cancelCode]
  by_cases hfw : fwTarget x = false
  · rw [if_pos (by rw [hfw]; rfl), if_pos hfw]
    exact .inl ⟨rfl, by decide⟩
  · rw [if_neg (by rw [Bool.not_eq_false _ |>.mp hfw]; exact Bool.false_ne_true), if_neg hfw]
    split
    · exact .inl ⟨rfl, by decide⟩
    · split
      · exact .inr ⟨rfl, rfl⟩
      · exact .inl ⟨rfl, by decide⟩

/-- A cancel of the last store is answered (R159, R165). -/
theorem Adm.cancel_last (h : a.resSeq[c] = k) :
    (a.step5 (.cancel c k x)).resDone[c] = true ∧ (a.step5 (.cancel c k x)).resCode[c] = a.cancelCode x := by
  obtain ⟨hseq, -, -⟩ := a.drop_results x
  rcases a.cancelCode_cases c k x with ⟨hstep, -⟩ | ⟨hstep, -⟩
  · rw [hstep]
    exact a.result_last c k h
  · rw [hstep]
    exact (a.drop x).result_last c k (by rw [hseq]; exact h)

/-- A cancel behind which the core has stored again is not answered (R160). -/
theorem Adm.cancel_overtaken (h : a.resSeq[c] ≠ k) :
    (a.step5 (.cancel c k x)).resDone = a.resDone ∧ (a.step5 (.cancel c k x)).resCode = a.resCode := by
  obtain ⟨hseq, hdone, hcode⟩ := a.drop_results x
  rcases a.cancelCode_cases c k x with ⟨hstep, -⟩ | ⟨hstep, -⟩
  · rw [hstep, Adm.result_overtaken _ c k h]
    exact ⟨rfl, rfl⟩
  · rw [hstep, Adm.result_overtaken _ c k (by rw [hseq]; exact h)]
    exact ⟨hdone, hcode⟩

/-- A cancel that is answered OK takes the entry away and tells its target (R165). -/
theorem Adm.cancel_ok (h : a.cancelCode x = 7) :
    (a.step5 (.cancel c k x)).entry x = none ∧ (a.step5 (.cancel c k x)).slots = a.slots ∧
    (x ≤ 66 → (x, .drop) ∈ (a.step5 (.cancel c k x)).toTgt) := by
  obtain ⟨hqueue, hslots, hsent, -⟩ := (a.drop x).result_queue c k (a.cancelCode x)
  rcases a.cancelCode_cases c k x with ⟨-, hother⟩ | ⟨hstep, -⟩
  · exact absurd h hother
  · rw [hstep]
    refine ⟨?_, hslots.trans (a.drop_slots x), fun hx => ?_⟩
    · rw [Adm.entry_congr _ x hqueue, Adm.drop_entry, if_pos rfl]
    · rw [hsent, Adm.drop_toTgt, if_pos hx]
      exact List.mem_append_right _ List.mem_cons_self

/-- A release of the last store frees a held grant, or finds nothing (R166). -/
theorem Adm.release_last (x : Fin 1024) (h : a.resSeq[c] = k) :
    (a.step5 (.relExt c k x.val)).resDone[c] = true ∧
    ((a.step5 (.relExt c k x.val)).resCode[c] = if a.extHeld[x] then 7 else 6) ∧
    (a.extHeld[x] = true → (a.step5 (.relExt c k x.val)).entry (256 + x.val) = none ∧
      (a.step5 (.relExt c k x.val)).extHeld[x] = false) := by
  rw [Adm.step5, vget_fin]
  split
  next hheld =>
    obtain ⟨hdone, hcode⟩ := Adm.result_last
      { (a.removeEntry (256 + x.val)) with extHeld := vupd a.extHeld x.val fun _ => false } c k (r := 7) h
    obtain ⟨hqueue, -, -, hext⟩ := Adm.result_queue
      { (a.removeEntry (256 + x.val)) with extHeld := vupd a.extHeld x.val fun _ => false } c k 7
    refine ⟨hdone, hcode, fun _ => ⟨?_, ?_⟩⟩
    · exact (Adm.entry_congr _ _ hqueue).trans ((a.removeEntry_entry ..).trans (if_pos rfl))
    · exact (congrArg (·[x]) hext).trans ((vupd_at ..).trans (if_pos rfl))
  next hfree =>
    obtain ⟨hdone, hcode⟩ := a.result_last c k (r := 6) h
    exact ⟨hdone, hcode, fun hheld => absurd hheld hfree⟩

end

/-! ### The tick that takes one input -/

section
variable (s : State)

/-- Steps 7 to 10 answer nothing. -/
theorem State.admDrained_results (now : Nat) :
    ((s.admSlots now).admDrained now).adm.resDone = s.adm.resDone ∧
    ((s.admSlots now).admDrained now).adm.resCode = s.adm.resCode := by
  have h := (State.admDrained_fixed (s.admSlots now) now).trans (Adm.fixed_of_settled (s.admSlots_settled now))
  exact ⟨(congrArg Adm.resDone h :), (congrArg Adm.resCode h :)⟩

variable (m : AdmIn) (hup : s.isUp 2 = true) (htmb : s.tmbRuns = true) (hstop : s.adm.stopped = false)
include hup htmb hstop

/-- A tick whose only input is one for steps 5 and 6. -/
theorem State.admTickFrom_one (hinbox : s.adm.inbox = [m]) (hstep : ∀ a t, Adm.step2 (Adm.step1 a t m) t m = a) :
    ∃ y : State, y.adm.queue = s.adm.queue ∧ y.adm.slots = s.adm.slots ∧ y.adm.extHeld = s.adm.extHeld ∧
      y.adm.resSeq = s.adm.resSeq ∧ y.adm.resDone = s.adm.resDone ∧ y.adm.resCode = s.adm.resCode ∧
      s.admTickFrom 0 0 =
        (((y.modAdm fun a => a.step5 m).admStep6 (s.tickTime 0) m).admSlots (s.tickTime 0)).admDrained (s.tickTime 0) := by
  obtain ⟨cap, y, hy, hrow⟩ := s.admTickFrom_steps 0 0 hup htmb hstop
  have hready : s.adm.ready 0 = [m] := by rw [Adm.ready, hinbox]; rfl
  have htaken : s.tickTaken 0 0 = (s.adm.ticking (s.tickTime 0)).pulled 0 := by
    rw [State.tickTaken, hready]
    exact hstep _ _
  obtain ⟨hqueue, hslots, hext, hseq, hdone, hcode, -⟩ := (s.tickTaken 0 0).measured_requests (s.tickTime 0) cap
  rw [← hy, htaken] at hqueue hslots hext hseq hdone hcode
  rw [hready] at hrow
  exact ⟨y, hqueue, hslots, hext, hseq, hdone, hcode, hrow⟩

/-- A tick whose only input is one for step 5. -/
theorem State.admTickFrom_fifth (hinbox : s.adm.inbox = [m]) (hstep : ∀ a t, Adm.step2 (Adm.step1 a t m) t m = a)
    (hsixth : ∀ (y : State) t, y.admStep6 t m = y) :
    ∃ (a : Adm) (z : State), a.queue = s.adm.queue ∧ a.slots = s.adm.slots ∧ a.extHeld = s.adm.extHeld ∧
      a.resSeq = s.adm.resSeq ∧ a.resDone = s.adm.resDone ∧ a.resCode = s.adm.resCode ∧ z.adm = a.step5 m ∧
      s.admTickFrom 0 0 = (z.admSlots (s.tickTime 0)).admDrained (s.tickTime 0) ∧
      (s.admTickFrom 0 0).adm.resDone = z.adm.resDone ∧ (s.admTickFrom 0 0).adm.resCode = z.adm.resCode := by
  obtain ⟨y, hqueue, hslots, hext, hseq, hdone, hcode, hrow⟩ := s.admTickFrom_one m hup htmb hstop hinbox hstep
  rw [hsixth] at hrow
  obtain ⟨hdone', hcode'⟩ := (y.modAdm fun a => a.step5 m).admDrained_results (s.tickTime 0)
  rw [← hrow] at hdone' hcode'
  exact ⟨y.adm, _, hqueue, hslots, hext, hseq, hdone, hcode, rfl, hrow, hdone', hcode'⟩

end

/-- Settles O22, by the answer of each input (`State.admStep6_req`, `Adm.cancel_last`, `Adm.release_last`), which the later
steps keep. -/
theorem admTakesInputsAndAnswersThem : Obligations.AdmTakesInputsAndAnswersThem := by
  unfold Obligations.AdmTakesInputsAndAnswersThem
  refine ⟨?_, ?_, ?_, ?_, ?_, ?_, ?_, ?_, ?_, ?_⟩
  · exact fun s c x prio dl hruns hup =>
      fires_admStore (m := fun k => .req c k x.toNat prio.toNat dl.toNat) rfl hruns hup
  · exact fun s c x hruns hup => fires_admStore (m := fun k => .cancel c k x.toNat) rfl hruns hup
  · exact fun s c x hruns hup => fires_admStore (m := fun k => .relExt c k x.toNat) rfl hruns hup
  · intro s c k x prio dl hup htmb hstop hlast hinbox
    obtain ⟨y, hqueue, hslots, -, hseq, -, -, hrow⟩ := s.admTickFrom_one _ hup htmb hstop hinbox fun _ _ => rfl
    obtain ⟨hdone, hcode⟩ := State.admDrained_results
      ((y.modAdm fun a => a.step5 (.req c k x prio dl)).admStep6 (s.tickTime 0) (.req c k x prio dl)) (s.tickTime 0)
    obtain ⟨hdone', hcode'⟩ := State.admStep6_req c k x (y.modAdm fun a => a.step5 (.req c k x prio dl)) (s.tickTime 0) prio dl
      ((congrArg (·[c]) hseq).trans hlast)
    rw [← hrow] at hdone hcode
    refine ⟨_, rfl, ?_, ?_, ?_, State.admTickFrom_touch ..⟩
    · rw [hdone]
      exact hdone'
    · rw [s.admTickFrom_inbox 0 0 hup htmb hstop, hinbox]
      rfl
    · rw [hcode]
      exact hcode'.trans (s.adm.reqCode_congr x hqueue hslots)
  · intro s c k x hup htmb hstop hlast hinbox
    obtain ⟨a, z, hqueue, hslots, -, hseq, -, -, hz, hrow, hdone, hcode⟩ :=
      s.admTickFrom_fifth _ hup htmb hstop hinbox (fun _ _ => rfl) fun _ _ => rfl
    obtain ⟨hdone', hcode'⟩ := a.cancel_last c k x (by rw [hseq]; exact hlast)
    rw [hz] at hdone hcode
    refine ⟨_, rfl, ?_, ?_, fun hok hidle => ?_, State.admTickFrom_touch ..⟩
    · rw [hdone]
      exact hdone'
    · rw [hcode]
      exact hcode'.trans (s.adm.cancelCode_congr x hqueue)
    · rw [hcode, hcode'] at hok
      obtain ⟨hgone, hkept, htold⟩ := a.cancel_ok c k x hok
      have hidle' : z.slotsIdle := fun i => by
        rw [hz, hkept, hslots]
        exact hidle i
      have hdrains := z.admDrained_drains (s.tickTime 0)
      rw [State.admSlots_idle hidle'] at hrow
      rw [← hrow, hz] at hdrains
      exact ⟨hdrains.gone x hgone, fun hx => hdrains.sent.subset (htold hx)⟩
  · intro s c k x hup htmb hstop hlast hinbox
    obtain ⟨a, z, -, -, -, hseq, hdone', hcode', hz, -, hdone, hcode⟩ :=
      s.admTickFrom_fifth _ hup htmb hstop hinbox (fun _ _ => rfl) fun _ _ => rfl
    obtain ⟨hkeptDone, hkeptCode⟩ := a.cancel_overtaken c k x (by rw [hseq]; exact hlast)
    refine ⟨_, rfl, ?_, ?_, ?_, State.admTickFrom_touch ..⟩
    · rw [hdone, hz, hkeptDone, hdone']
    · rw [hcode, hz, hkeptCode, hcode']
    · rw [s.admTickFrom_inbox 0 0 hup htmb hstop, hinbox]
      rfl
  · intro s c k x hup htmb hstop hlast hinbox
    obtain ⟨a, z, -, -, hext, hseq, -, -, hz, hrow, hdone, hcode⟩ :=
      s.admTickFrom_fifth _ hup htmb hstop hinbox (fun _ _ => rfl) fun _ _ => rfl
    obtain ⟨hdone', hcode', hfreed⟩ := a.release_last c k x (by rw [hseq]; exact hlast)
    rw [hz] at hdone hcode
    rw [hext] at hcode' hfreed
    refine ⟨_, rfl, ?_, ?_, fun hheld => ?_, State.admTickFrom_touch ..⟩
    · rw [hdone]
      exact hdone'
    · rw [hcode]
      exact hcode'
    · obtain ⟨hgone, hfree⟩ := hfreed hheld
      have hslots : (z.admSlots (s.tickTime 0)).adm.entry (256 + x.val) = none := by
        rw [z.admSlots_ext (s.tickTime 0) (Nat.le_add_right_of_le (by decide)), hz]
        exact hgone
      rw [hrow]
      refine ⟨(State.admDrained_drains ..).gone _ hslots, ?_⟩
      rw [State.admDrained_extHeld _ _ hslots, Adm.extHeld_of_settled (z.admSlots_settled _), hz]
      exact hfree
  · intro s v0 v1 v2 v3 tbp hup hbound
    have hexec : exec (.sensorCopy v0 v1 v2 v3 tbp) s = .next (s.sensorCopy #v[v0, v1, v2, v3] tbp) := if_neg (by omega)
    have hrow : s.sensorCopy #v[v0, v1, v2, v3] tbp = (s.toAdm (.banks #v[v0, v1, v2, v3])).toAdm (.tbp tbp) := if_pos hup
    refine ⟨_, hexec, ?_, ?_, State.sensorCopy_touch ..⟩
    · rw [hrow, State.toAdm_inbox, State.toAdm_inbox, List.append_assoc]
      rfl
    · rw [hrow]
      rfl
  · intro s v0 v1 v2 v3 tbp hbound hdown
    exact ⟨s, (if_neg (by omega) : exec (.sensorCopy v0 v1 v2 v3 tbp) s = .next (s.sensorCopy #v[v0, v1, v2, v3] tbp)).trans
      (congrArg Host.Outcome.next (if_neg (by rw [hdown]; exact Bool.false_ne_true))), rfl⟩
  · exact fun s v0 v1 v2 v3 tbp hover => if_pos (by omega)

end Sys2Proof.Machine

/-! ## Heater slots: configuration, period start and window end (R184 to R188) -/

namespace Sys2Proof.Machine

open Claims

/-! ### A write of HT_CFG -/

section
variable (s : State) (i : Fin 16) (v : W32)

theorem Adm.modSlot_slots (a : Adm) (f : Slot → Slot) : (a.modSlot i f).slots = upd a.slots i f := rfl

theorem bit_htCfg : bit (keep 0x0F3F07BF v) 7 = bit v 7 := by
  have hmask : Nat.testBit 0x0F3F07BF 7 = true := by decide
  simp [bit, keep, hmask]

/-- EN written to an idle slot restarts its periods (R188). -/
theorem State.slotCfgWrite_enables (hbit : bit v 7 = true) (hidle : s.adm.slots[i].en = false) :
    (s.slotCfgWrite i v).adm = s.adm.modSlot i fun x => { x with cfg := keep 0x0F3F07BF v, arm := true, carry := 0 } := by
  rw [State.slotCfgWrite]
  dsimp only
  rw [if_pos (by rw [bit_htCfg]; exact hbit), if_pos (by rw [hidle]; rfl)]
  rfl

/-- Without EN the slot stops and lets its channel go (R188). -/
theorem State.slotCfgWrite_stops (hbit : bit v 7 = false) :
    (s.slotCfgWrite i v).adm = (s.slotLetGo i).adm.modSlot i fun x =>
      { x with cfg := keep 0x0F3F07BF v, arm := false, run := false, open_ := false, since := none, carry := 0, st := 0 } := by
  rw [State.slotCfgWrite]
  dsimp only
  rw [if_neg (by rw [bit_htCfg, hbit]; exact Bool.false_ne_true)]
  rfl

/-- A channel that its slot lets go has no waiting entry (R188). -/
theorem State.slotLetGo_waits (hen : s.adm.slots[i].en = true) (howner : s.adm.ownerOf s.adm.slots[i].ch = some i) :
    (s.slotLetGo i).adm.isWaiting s.adm.slots[i].ch = false := by
  have hrow : s.slotLetGo i = ((s.modAdm fun a => if a.isWaiting s.adm.slots[i].ch then a.drop s.adm.slots[i].ch else a).slotOff
      s.adm.slots[i].ch).slotClose i s.now :=
    if_pos (by rw [hen, decide_eq_true howner]; rfl)
  rw [Adm.isWaiting_congr (a := if s.adm.isWaiting s.adm.slots[i].ch then s.adm.drop s.adm.slots[i].ch else s.adm)]
  · split
    · exact Adm.isWaiting_of_none _ _ ((Adm.drop_entry ..).trans (if_pos rfl))
    next hidle => exact Bool.eq_false_of_not_eq_true hidle
  · rw [hrow, State.slotClose_adm, Adm.modSlot_entry, State.slotOff_entry]
    rfl

end

/-! ### A slot's turn that ends a window or starts a period -/

section
variable (s : State) (i : Fin 16) (now : Nat)

/-- The turn of a slot whose window does not end in it starts the period that is due (R185). -/
theorem State.slotTick_starts (hen : s.adm.slots[i].en = true) (howner : s.adm.ownerOf s.adm.slots[i].ch = some i)
    (hrun : s.adm.slots[i].run = true) (harm : s.adm.slots[i].arm = false) (hdue : s.adm.slots[i].next ≤ now) :
    (s.slotTick i now).adm.slots[i].next = s.adm.slots[i].nextAfter now ∧
    (s.slotTick i now).adm.slots[i].carry =
      if s.adm.slots[i].onTime < s.adm.slots[i].minOn then s.adm.slots[i].onTime else 0 := by
  have hrestart : s.slotRestart i now = s := if_neg (by rw [harm, hrun]; decide)
  have hended : ∃ x, (s.slotEndDue i now).adm.slots[i] = x ∧ x.next = s.adm.slots[i].next ∧ x.carry = s.adm.slots[i].carry ∧
      x.cfg = s.adm.slots[i].cfg ∧ x.dutyReg = s.adm.slots[i].dutyReg := by
    unfold State.slotEndDue
    split
    · exact ⟨_, (congrArg (·[i]) (s.slotEnd_slots i now)).trans (upd_get ..), s.adm.slots[i].closedAt_periods now⟩
    · exact ⟨_, rfl, rfl, rfl, rfl, rfl⟩
  obtain ⟨x, hx, hnext, hcarry, hcfg, hduty⟩ := hended
  have hperiod : x.period = s.adm.slots[i].period := by rw [Slot.period, Slot.period, hcfg]
  have hminOn : x.minOn = s.adm.slots[i].minOn := by rw [Slot.minOn, Slot.minOn, hduty]
  have honTime : x.onTime = s.adm.slots[i].onTime := by
    rw [Slot.onTime, Slot.onTime, Slot.dutyN, Slot.dutyN, hduty, hperiod, hcarry]
  have hafter : x.nextAfter now = s.adm.slots[i].nextAfter now := by rw [Slot.nextAfter, Slot.nextAfter, hnext, hperiod]
  obtain ⟨-, -, hstart, hshort, -⟩ := (s.slotEndDue i now).slotStart_at i now
  rw [s.slotTick_owner i now hen howner, hrestart, State.slotStartDue, if_pos (by rw [hx, hnext]; exact hdue)]
  exact ⟨by rw [hstart, hx, hafter], by rw [hshort, hx, honTime, hminOn]⟩

/-- The turn of a slot whose window ends closes it and takes its waiting entry away (R185). -/
theorem State.slotTick_ends (hen : s.adm.slots[i].en = true) (howner : s.adm.ownerOf s.adm.slots[i].ch = some i)
    (hrun : s.adm.slots[i].run = true) (harm : s.adm.slots[i].arm = false) (hopen : s.adm.slots[i].open_ = true)
    (hend : s.adm.slots[i].tEnd ≤ now) (hnext : now < s.adm.slots[i].next) :
    (s.slotTick i now).adm.slots[i] = s.adm.slots[i].closedAt now ∧
    (s.slotTick i now).adm.isWaiting s.adm.slots[i].ch = false := by
  have hrestart : s.slotRestart i now = s := if_neg (by rw [harm, hrun]; decide)
  have hended : s.slotEndDue i now = s.slotEnd i now :=
    if_pos (by rw [hopen, decide_eq_true hend, decide_eq_true (hend.trans_lt hnext)]; rfl)
  have hslot : (s.slotEnd i now).adm.slots[i] = s.adm.slots[i].closedAt now := by rw [State.slotEnd_slots, upd_get]
  obtain ⟨hkept, -, -, -⟩ := s.adm.slots[i].closedAt_periods now
  rw [s.slotTick_owner i now hen howner, hrestart, hended, State.slotStartDue,
    if_neg (by rw [hslot, hkept]; exact Nat.not_le.mpr hnext)]
  refine ⟨hslot, ?_⟩
  cases hw : s.adm.isWaiting s.adm.slots[i].ch with
  | true => exact Adm.isWaiting_of_none _ _ ((s.slotEnd_entry i now _).trans (if_pos ⟨rfl, hw⟩))
  | false =>
    refine (Adm.isWaiting_congr _ _ ((s.slotEnd_entry i now _).trans (if_neg fun h => ?_))).trans hw
    exact Bool.false_ne_true (hw.symm.trans h.2)

/-! ### Step 7 seen from one slot -/

/-- What of ADM concerns slot `i`: the slot, every slot's configuration, and the entry of its channel while it owns it. -/
def State.slotView (s : State) (i : Fin 16) : Slot × (Fin 16 → W32) × Option Entry :=
  (s.adm.slots[i], fun j => s.adm.slots[j].cfg,
    if s.adm.ownerOf s.adm.slots[i].ch = some i then s.adm.entry s.adm.slots[i].ch else none)

theorem State.slotTick_view (j : Fin 16) (hj : j ≠ i) : (s.slotTick j now).slotView i = s.slotView i := by
  obtain ⟨honly, hcfgs⟩ := s.slotTick_slots j now
  have hslot := honly i hj.symm
  have howner : (s.slotTick j now).adm.ownerOf s.adm.slots[i].ch = s.adm.ownerOf s.adm.slots[i].ch :=
    Adm.ownerOf_congr hcfgs _
  have hentry : (if s.adm.ownerOf s.adm.slots[i].ch = some i then (s.slotTick j now).adm.entry s.adm.slots[i].ch else none) =
      if s.adm.ownerOf s.adm.slots[i].ch = some i then s.adm.entry s.adm.slots[i].ch else none := by
    split
    next h => exact s.slotTick_entry j now (by rw [h]; exact fun e => hj (Option.some.inj e).symm)
    · rfl
  rw [State.slotView, hslot, howner, hentry, State.slotView]
  exact congrArg (fun f => (_, f, _)) (funext hcfgs)

/-- Step 7 leaves slot `i` and its channel's entry as the slot's own turn does (R185). -/
theorem State.admSlots_at (howner : s.adm.ownerOf s.adm.slots[i].ch = some i) :
    ∃ y : State, y.adm.slots[i] = s.adm.slots[i] ∧ y.adm.ownerOf s.adm.slots[i].ch = some i ∧
      (s.admSlots now).adm.slots[i] = (y.slotTick i now).adm.slots[i] ∧
      (s.admSlots now).adm.entry s.adm.slots[i].ch = (y.slotTick i now).adm.entry s.adm.slots[i].ch := by
  obtain ⟨y, -, hy, hloop⟩ := forFin_at (i := i) (fun x => State.slotView x i) (op := fun i s => s.slotTick i now)
    (fun j x => x.slotTick_touch j now) (fun j x hj => x.slotTick_view i now j hj) s
  have hslot : y.adm.slots[i] = s.adm.slots[i] := congrArg Prod.fst hy
  have hcfgs : ∀ j : Fin 16, y.adm.slots[j].cfg = s.adm.slots[j].cfg := congrFun (congrArg (fun w => w.2.1) hy)
  have hyOwner : y.adm.ownerOf s.adm.slots[i].ch = some i := (Adm.ownerOf_congr hcfgs _).trans howner
  obtain ⟨-, hturn⟩ := y.slotTick_slots i now
  have hafter : (s.admSlots now).adm.slots[i] = (y.slotTick i now).adm.slots[i] := congrArg Prod.fst hloop
  have hafterCfgs : ∀ j : Fin 16, (s.admSlots now).adm.slots[j].cfg = s.adm.slots[j].cfg := fun j =>
    ((congrFun (congrArg (fun w => w.2.1) hloop) j).trans (hturn j)).trans (hcfgs j)
  have hch : ∀ z : State, (∀ j : Fin 16, z.adm.slots[j].cfg = s.adm.slots[j].cfg) →
      (z.slotView i).2.2 = z.adm.entry s.adm.slots[i].ch := fun z hz => by
    have hchan : z.adm.slots[i].ch = s.adm.slots[i].ch := by rw [Slot.ch, Slot.ch, hz i]
    rw [State.slotView, hchan, Adm.ownerOf_congr hz, if_pos howner]
  have hentry := congrArg (fun w => w.2.2) hloop
  refine ⟨y, hslot, hyOwner, hafter, ?_⟩
  rw [← hch _ hafterCfgs, ← hch _ fun j => (hturn j).trans (hcfgs j)]
  exact hentry

end

/-! ### A tick that is due for a slot -/

/-- Period starts lie whole periods apart, the next one beyond the present (R185). -/
theorem Slot.nextAfter_ahead (x : Slot) {now : Nat} (hdue : x.next ≤ now) :
    now < x.nextAfter now ∧ x.nextAfter now ≤ now + x.period * 1000000 ∧
    (x.nextAfter now - x.next) % (x.period * 1000000) = 0 := by
  have hperiod : 0 < x.period * 1000000 := Nat.mul_pos (lt_of_lt_of_le Nat.one_pos (le_max_left ..)) (by decide)
  rw [Slot.nextAfter]
  generalize x.period * 1000000 = p at hperiod ⊢
  have hdiv := Nat.div_add_mod (now - x.next) p
  have hmod := Nat.mod_lt (now - x.next) hperiod
  rw [Nat.mul_comm] at hdiv
  refine ⟨by omega, by omega, ?_⟩
  rw [show x.next + (now - x.next) / p * p + p - x.next = ((now - x.next) / p + 1) * p by rw [Nat.add_mul]; omega]
  exact Nat.mul_mod_left ..

section
variable (s : State) (i : Fin 16) (due : Nat) (hup : s.isUp 2 = true) (htmb : s.tmbRuns = true)
  (hstop : s.adm.stopped = false) (howner : s.adm.ownerOf s.adm.slots[i].ch = some i)
  (hinbox : s.adm.inbox = [])
include hup htmb hstop howner hinbox

/-- A tick without inputs leaves of a slot what its turn and the drained queue leave. -/
theorem State.admTickFrom_slot : ∃ y : State, y.adm.slots[i] = s.adm.slots[i] ∧ y.adm.ownerOf y.adm.slots[i].ch = some i ∧
    ∃ a : Adm, a.Drains (s.admTickFrom due 0).adm ∧ a.slots[i] = (y.slotTick i (s.tickTime due)).adm.slots[i] ∧
      a.entry s.adm.slots[i].ch = (y.slotTick i (s.tickTime due)).adm.entry s.adm.slots[i].ch := by
  obtain ⟨cap, z, hz, hrow⟩ := s.admTickFrom_quiet due 0 hup htmb hstop hinbox
  obtain ⟨-, hslots, -, -, -, -, -⟩ :=
    ((s.adm.ticking (s.tickTime due)).pulled 0).measured_requests (s.tickTime due) cap
  rw [← hz] at hslots
  have hslots : z.adm.slots = s.adm.slots := hslots
  have hzOwner : z.adm.ownerOf s.adm.slots[i].ch = some i :=
    (Adm.ownerOf_congr (fun j => by rw [hslots]) _).trans howner
  have hslot : z.adm.slots[i] = s.adm.slots[i] := by rw [hslots]
  obtain ⟨y, hy, hyOwner, hafter, hentry⟩ := z.admSlots_at i (s.tickTime due) (by rw [hslot]; exact hzOwner)
  rw [hslot] at hy hyOwner hentry
  refine ⟨y, hy, by rw [hy]; exact hyOwner, _, ?_, hafter, hentry⟩
  rw [hrow]
  exact State.admDrained_drains ..

end

/-- Settles O24, by the turn of a slot in a tick (`State.slotTick_starts`, `State.slotTick_ends`), which the turns of the
other slots and the later steps leave as it is. -/
theorem heaterSlotsFollowTheirPeriods : Obligations.HeaterSlotsFollowTheirPeriods := by
  unfold Obligations.HeaterSlotsFollowTheirPeriods
  refine ⟨?_, ?_, ?_, ?_, ?_, ?_⟩
  · intro s c i v hcan hbit hidle
    refine fires_storeIf (ps := [.fab, .answer, .adm, .pmc, .free]) rfl hcan (fun x => (x.slotCfgWrite_touch i v).mono (by decide))
      (by decide) fun t ht htouch => ?_
    have hadm : t.adm = s.adm.modSlot i fun x => { x with cfg := keep 0x0F3F07BF v, arm := true, carry := 0 } := by
      rw [← ht, ← State.served_adm s c]
      exact (s.served c).slotCfgWrite_enables i v hbit (by rw [State.served_adm]; exact hidle)
    obtain ⟨hat, hothers⟩ := changed_at ((congrArg Adm.slots hadm).trans (Adm.modSlot_slots ..))
    exact ⟨hat, hothers, (congrArg Adm.queue hadm :), htouch⟩
  · intro s c i v hcan hbit
    refine fires_storeIf (ps := [.fab, .answer, .adm, .pmc, .free]) rfl hcan (fun x => (x.slotCfgWrite_touch i v).mono (by decide))
      (by decide) fun t ht htouch => ?_
    have hadm : t.adm = ((s.served c).slotLetGo i).adm.modSlot i fun x =>
        { x with cfg := keep 0x0F3F07BF v, arm := false, run := false, open_ := false, since := none, carry := 0, st := 0 } := by
      rw [← ht]
      exact (s.served c).slotCfgWrite_stops i v hbit
    obtain ⟨hat, hothers⟩ := changed_at ((congrArg Adm.slots hadm).trans (Adm.modSlot_slots ..))
    have hletGo := (s.served c).slotLetGo_onlyAt i
    rw [State.served_adm] at hletGo
    refine ⟨?_, ?_, ?_, ?_, ?_, fun hen howner => ?_, onlyAt_trans hletGo hothers, htouch⟩
    · rw [hat]
    · rw [hat]
    · rw [hat]
    · rw [hat]
    · rw [hat]
    · have hwaits := (s.served c).slotLetGo_waits i (by rw [State.served_adm]; exact hen) (by rw [State.served_adm]; exact howner)
      rw [State.served_adm] at hwaits
      rw [hadm]
      exact hwaits
  · intro s i hup htmb hstop hen howner hrun harm hinbox
    have hexec : exec (.heaterPeriodStart i) s = .next (s.admTickFrom s.adm.slots[i].next 0) :=
      congrArg Host.Outcome.next (if_pos hrun)
    have hnow := s.admTickFrom_now s.adm.slots[i].next 0 hup htmb hstop
    have hdue := s.tickTime_due s.adm.slots[i].next
    obtain ⟨y, hy, hyOwner, a, hdrains, hslot, -⟩ :=
      s.admTickFrom_slot i s.adm.slots[i].next hup htmb hstop howner hinbox
    obtain ⟨hnext, hcarry⟩ := y.slotTick_starts i (s.tickTime s.adm.slots[i].next) (by rw [hy]; exact hen) hyOwner
      (by rw [hy]; exact hrun) (by rw [hy]; exact harm) (by rw [hy]; exact hdue)
    obtain ⟨hnext', hcarry'⟩ := hdrains.periods i
    rw [hslot, hnext, hy] at hnext'
    rw [hslot, hcarry, hy] at hcarry'
    obtain ⟨hahead, hnear, hwhole⟩ := s.adm.slots[i].nextAfter_ahead hdue
    refine ⟨_, hexec, hnow, ?_, ?_, ?_, hcarry', State.admTickFrom_touch ..⟩
    · rw [hnow, hnext']
      exact hahead
    · rw [hnow, hnext']
      exact hnear
    · rw [hnext']
      exact hwhole
  · intro s i hup htmb hstop hen howner hrun harm hinbox hopen hpast htick hlast
    have hexec : exec (.heaterWindowEnd i) s = .next (s.admTickFrom s.adm.slots[i].tEnd 0) :=
      congrArg Host.Outcome.next (if_pos hopen)
    have htime : s.tickTime s.adm.slots[i].tEnd = s.adm.slots[i].tEnd := by
      rw [State.tickTime, Nat.max_eq_left htick, Nat.max_eq_right hpast]
    obtain ⟨y, hy, hyOwner, a, hdrains, hslot, hentry⟩ :=
      s.admTickFrom_slot i s.adm.slots[i].tEnd hup htmb hstop howner hinbox
    rw [htime] at hslot hentry
    obtain ⟨hclosed, hidle⟩ := y.slotTick_ends i s.adm.slots[i].tEnd (by rw [hy]; exact hen) hyOwner (by rw [hy]; exact hrun)
      (by rw [hy]; exact harm) (by rw [hy]; exact hopen) (by rw [hy]) (by rw [hy]; exact hlast)
    rw [hy] at hclosed hidle
    rw [hclosed] at hslot
    have hshut : s.adm.slots[i].closedAt s.adm.slots[i].tEnd = _ := if_pos hopen
    obtain ⟨hopen', hst', hlast'⟩ := hdrains.closed i (by rw [hslot, hshut])
    obtain ⟨hnext', -⟩ := hdrains.periods i
    refine ⟨_, hexec, (s.admTickFrom_now _ 0 hup htmb hstop).trans htime, hopen', ?_, ?_, fun hoff => ?_, ?_,
      State.admTickFrom_touch ..⟩
    · rw [hst', hslot, hshut]
    · exact hdrains.idle _ ((Adm.isWaiting_congr _ _ hentry).trans hidle)
    · rw [hlast', hslot, hshut, hoff]
      rfl
    · rw [hnext', hslot]
      exact (s.adm.slots[i].closedAt_periods _).1
  · intro s i h
    refine ⟨_, rfl, ?_⟩
    rw [State.periodTick]
    split <;> exact s.admTickFrom_idle _ 0 h
  · intro s i h
    refine ⟨_, rfl, ?_⟩
    rw [State.windowTick]
    split
    next hopen =>
      rw [← or_assoc] at h
      exact s.admTickFrom_idle _ 0 (h.resolve_right (by rw [hopen]; decide))
    · rfl

end Sys2Proof.Machine

/-! ## Valve channels: EN, ON, OFF, CLEAR and the profile (R205, R210, R213 to R217, R220, R222, R230, R236, R603, R664)

What a command makes of its channel is said once, as a function on its registers; the rows of the commands and OFF_ALL
use it. -/

namespace Sys2Proof.Machine

open Claims

/-! ### A store into a valve channel's block -/

/-- The parts that a store into a valve channel's block may change. -/
abbrev vdRowParts : List Part := [.fab, .answer, .dig, .vg, .vd, .adm, .pmc, .free]

/-- A store row that is served and changes one valve channel, by `g`. -/
theorem fires_vdRow {s : State} {i : Instr} {c : Fin 4} {isl : Nat} {n : Fin 16} {f : State → State} {g : Vd → Vd}
    {ps : List Part} {P : State → Prop} (hexec : exec i s = .next (s.storeIf c isl 7 f)) (hcan : canStore s isl 7)
    (htouch : ∀ x, onlyTouches ps x (f x)) (hps : ∀ q ∈ [Part.fab, .answer, .pmc, .free], q ∈ ps)
    (hvd : (f (s.served c)).vd = upd (s.served c).vd n g)
    (hP : ∀ t, t.vd[n] = g s.vd[n] → onlyAt n s.vd t.vd → t.answer = .done → t.vg = (f (s.served c)).vg →
      t.adm = (f (s.served c)).adm → onlyTouches ps s t → P t) : fires i s P := by
  refine fires_storeIf hexec hcan htouch hps fun t ht k => ?_
  rw [State.served_vd] at hvd
  obtain ⟨hat, hothers⟩ := changed_at hvd
  subst ht
  exact hP _ hat hothers rfl rfl rfl k

/-- A store row that is served and answers in CMD_RES alone. -/
theorem fires_vdRes {s : State} {i : Instr} {c : Fin 4} {isl r : Nat} {n : Fin 16} {f : State → State}
    {ps : List Part} (hexec : exec i s = .next (s.storeIf c isl 7 f)) (hcan : canStore s isl 7)
    (htouch : ∀ x, onlyTouches ps x (f x)) (hps : ∀ q ∈ [Part.fab, .answer, .pmc, .free], q ∈ ps)
    (hres : f (s.served c) = (s.served c).vdRes n r) :
    fires i s fun t => t.vd[n] = { s.vd[n] with cmdRes := r } ∧ onlyAt n s.vd t.vd ∧ onlyTouches ps s t :=
  fires_vdRow hexec hcan htouch hps ((congrArg State.vd hres).trans (State.vdRes_vd ..))
    fun _ hat hothers _ _ _ k => ⟨hat, hothers, k⟩

section
variable (s : State) (c : Fin 4) (n : Fin 16)

/-- Group loads depend on the channels and the time alone (R213). -/
theorem State.groupLoad_congr {y : State} (hvd : y.vd = s.vd) (hnow : y.now = s.now) (g : Fin 4) (skip : Nat) :
    y.groupLoad g skip = s.groupLoad g skip := by
  rw [State.groupLoad, State.groupLoad, hvd, hnow]

@[simp] theorem State.served_groupLoad (g : Fin 4) (skip : Nat) : (s.served c).groupLoad g skip = s.groupLoad g skip :=
  s.groupLoad_congr (State.served_vd ..) (State.served_now ..) g skip

@[simp] theorem State.served_anyDefer (g : Fin 4) : (s.served c).anyDefer g = s.anyDefer g := by
  rw [State.anyDefer, State.anyDefer, State.served_vd]

@[simp] theorem State.served_vdA : (s.served c).vdA n = s.vdA n := by
  rw [State.vdA, State.vdA, State.served_vg, State.served_hsc, State.served_vd]

/-! ### Withdrawing and turning off -/

/-- A channel withdrawn into state `st` (R220). -/
def Vd.withdrawn (v : Vd) (st : VdSt) : Vd := { v with claimHeld := v.st != .pending && v.claimHeld, st := st }

theorem State.vdWithdraw_vd (st : VdSt) : (s.vdWithdraw n st).vd = upd s.vd n fun v => v.withdrawn st := by
  rw [State.vdWithdraw, State.vdEnter_vd]
  by_cases hst : s.vd[n].st = .pending
  · rw [if_pos (beq_iff_eq.mpr hst), State.toAdm_vd, State.modVd_vd, upd_upd]
    exact upd_congr (by rw [Vd.withdrawn, hst]; rfl)
  · rw [if_neg fun h => hst (beq_iff_eq.mp h)]
    exact upd_congr (by rw [Vd.withdrawn, bne_iff_ne.mpr hst, Bool.true_and])

theorem State.vdWithdraw_inbox (st : VdSt) (hst : s.vd[n].st = .pending) :
    (s.vdWithdraw n st).adm.inbox = s.adm.inbox ++ [.withdraw (48 + n.val)] := by
  rw [State.vdWithdraw, if_pos (beq_iff_eq.mpr hst)]
  rfl

/-- What OFF makes of a channel at time `now`, where it is not too late (R220). -/
def Vd.offCmd (v : Vd) (now : Nat) : Vd :=
  match v.st with
  | .disabled | .idle => { v with cmdRes := 0 }
  | .defer | .pending => { v.withdrawn .idle with cmdRes := 0 }
  | .peak | .hold | .prop => { v.turnedOff now .decay with cmdRes := 0 }
  | .decay => { v with held := none, cmdRes := 0 }
  | .gap => { v with held := none, cmdRes := 0, st := .idle }
  | .latched => { v with cmdRes := 2 }

theorem Vd.offCmd_st (v : Vd) (now : Nat) :
    (v.offCmd now).st = if v.st = .defer ∨ v.st = .pending ∨ v.st = .gap then .idle
      else if vdOn v.st = true then .decay else v.st := by
  unfold Vd.offCmd
  cases hst : v.st <;> simp [vdOn, Vd.withdrawn, Vd.turnedOff, hst]

theorem Vd.offCmd_cmdRes (v : Vd) (now : Nat) : (v.offCmd now).cmdRes = if v.st = .latched then 2 else 0 := by
  unfold Vd.offCmd
  cases v.st <;> rfl

/-- A driven channel's on-time ends and its decay begins (R202). -/
theorem Vd.offCmd_decay (v : Vd) (now : Nat) (hon : vdOn v.st = true) :
    (v.offCmd now).onUs = v.onUs + (now - v.onAt) ∧ (v.offCmd now).decayDone = false ∧ (v.offCmd now).decayAt = now := by
  unfold Vd.offCmd
  cases hst : v.st <;> rw [hst] at hon
  case peak | hold | prop => exact ⟨rfl, rfl, rfl⟩
  all_goals exact nomatch hon

/-- OFF is carried out, or too late in the cycle of the channel's last event (R220, R222, R223). -/
theorem State.vdOffCmd_cases (same : Bool) :
    ((s.vdOffCmd n same).vd = upd s.vd n fun v => v.offCmd s.now) ∨
    (s.vdOffCmd n same = s.vdRes n 1 ∧ same = true ∧ s.vd[n].markAt = s.now) := by
  have hlate (m : Mark) : (same && s.vd[n].markAt == s.now && s.vd[n].mark == m) = true →
      same = true ∧ s.vd[n].markAt = s.now := by
    rw [Bool.and_eq_true, Bool.and_eq_true, beq_iff_eq]
    exact fun h => h.1
  unfold State.vdOffCmd
  dsimp only
  cases hst : s.vd[n].st
  case disabled | idle | latched =>
    refine .inl ?_
    rw [State.vdRes_vd]
    exact upd_congr (by rw [Vd.offCmd, hst])
  case defer | pending =>
    refine .inl ?_
    rw [State.vdRes_vd, State.vdWithdraw_vd, upd_upd]
    exact upd_congr (by rw [Vd.offCmd, hst])
  case peak | hold | prop =>
    by_cases hm : (same && s.vd[n].markAt == s.now && s.vd[n].mark == .grantOn) = true
    · exact .inr ⟨if_pos hm, hlate _ hm⟩
    · refine .inl ((congrArg State.vd (if_neg hm)).trans ?_)
      rw [State.vdRes_vd, State.vdOff_vd, upd_upd]
      exact upd_congr (by rw [Vd.offCmd, hst])
  case decay =>
    by_cases hm : (same && s.vd[n].markAt == s.now && s.vd[n].mark == .holdEnd) = true
    · exact .inr ⟨if_pos hm, hlate _ hm⟩
    · refine .inl ((congrArg State.vd (if_neg hm)).trans ?_)
      rw [State.modVd_vd]
      exact upd_congr (by rw [Vd.offCmd, hst])
  case gap =>
    refine .inl ?_
    rw [State.vdEnter_vd, State.modVd_vd, upd_upd]
    exact upd_congr (by rw [Vd.offCmd, hst])

variable {s n}

theorem State.vdOffCmd_vd {same : Bool} (hcycle : same = false ∨ s.vd[n].markAt ≠ s.now) :
    (s.vdOffCmd n same).vd = upd s.vd n fun v => v.offCmd s.now :=
  (s.vdOffCmd_cases n same).resolve_right fun ⟨_, hsame, hat⟩ =>
    hcycle.elim (fun h => nomatch h.symm.trans hsame) fun h => h hat

/-- OFF in the cycle of the grant comes too late (R222). -/
theorem State.vdOffCmd_tooLate (hon : vdOn s.vd[n].st = true) (hmark : s.vd[n].mark = .grantOn)
    (hat : s.vd[n].markAt = s.now) : s.vdOffCmd n true = s.vdRes n 1 := by
  have hcycle : (true && s.vd[n].markAt == s.now && s.vd[n].mark == .grantOn) = true := by
    simp only [hat, hmark, beq_self_eq_true, Bool.and_self]
  unfold State.vdOffCmd
  dsimp only
  cases hst : s.vd[n].st <;> rw [hst] at hon
  case peak | hold | prop => exact if_pos hcycle
  all_goals exact nomatch hon

theorem State.vdOffCmd_inbox (same : Bool) (hst : s.vd[n].st = .pending) :
    (s.vdOffCmd n same).adm.inbox = s.adm.inbox ++ [.withdraw (48 + n.val)] := by
  unfold State.vdOffCmd
  dsimp only
  rw [hst]
  exact s.vdWithdraw_inbox n .idle hst

/-! ### A write of CH_CTL -/

theorem bit_chEnable (w : W32) : bit (keep 0x173 (w ||| 1)) 0 = true := by
  simp [bit, keep]

theorem bit_chDisable (w : W32) : bit (keep 0x173 (w &&& 0xFFFFFFFE)) 0 = false := by
  simp [bit, keep]

variable {w : W32} {same : Bool}

/-- EN 1 is stored and takes a DISABLED channel to IDLE (R220). -/
theorem State.vdCtlWrite_enables (hen : bit (keep 0x173 w) 0 = true) (hheld : bit s.pwr.holdStat 2 = false) :
    (s.vdCtlWrite n w same).vd = upd s.vd n fun v =>
      { v with ctl := keep 0x173 w, cmdRes := 0, st := if v.st = .disabled then .idle else v.st } := by
  unfold State.vdCtlWrite
  dsimp only
  rw [if_pos hen, if_neg (by rw [hheld]; exact Bool.false_ne_true)]
  by_cases hst : s.vd[n].st = .disabled
  · rw [if_pos (beq_iff_eq.mpr hst), State.vdEnter_vd, State.modVd_vd, upd_upd]
    exact upd_congr (by rw [if_pos hst])
  · rw [if_neg fun h => hst (beq_iff_eq.mp h), State.modVd_vd]
    exact upd_congr (by rw [if_neg hst])

/-- No channel is enabled while its pads are held (R603). -/
theorem State.vdCtlWrite_held (hen : bit (keep 0x173 w) 0 = true) (hheld : bit s.pwr.holdStat 2 = true) :
    s.vdCtlWrite n w same = s.vdRes n 2 :=
  (if_pos hen).trans (if_pos hheld)

theorem State.vdCtlWrite_limp (hen : bit (keep 0x173 w) 0 = false) (hlimp : s.vd[n].limp = true) :
    s.vdCtlWrite n w same = s.vdRes n 2 :=
  (if_neg (by rw [hen]; exact Bool.false_ne_true)).trans (if_pos hlimp)

/-- A channel that EN 0, written as CH_CTL `w` at time `now`, has disabled or turned off (R220). -/
def Vd.disabledBy (v : Vd) (w : W32) (now : Nat) : Vd :=
  match v.st with
  | .idle => { v with ctl := w, cmdRes := 0, st := .disabled }
  | .gap => { v with ctl := w, cmdRes := 0, held := none, st := .disabled }
  | .defer | .pending => { v.withdrawn .disabled with ctl := w, cmdRes := 0 }
  | .peak | .hold | .prop => { v.turnedOff now .decay with ctl := w, cmdRes := 0 }
  | .disabled | .decay | .latched => { v with ctl := w, cmdRes := 0 }

theorem Vd.disabledBy_stores (v : Vd) (w : W32) (now : Nat) :
    (v.disabledBy w now).ctl = w ∧ (v.disabledBy w now).cmdRes = 0 := by
  unfold Vd.disabledBy
  cases v.st <;> exact ⟨rfl, rfl⟩

theorem Vd.disabledBy_st (v : Vd) (w : W32) (now : Nat) :
    (v.disabledBy w now).st = if v.st = .decay ∨ v.st = .latched then v.st
      else if vdOn v.st = true then .decay else .disabled := by
  unfold Vd.disabledBy
  cases hst : v.st <;> simp [vdOn, Vd.withdrawn, Vd.turnedOff, hst]

/-- EN 0 outside limp mode and the cycle of the grant is carried out (R220). -/
theorem State.vdCtlWrite_disables (hen : bit (keep 0x173 w) 0 = false) (hlimp : s.vd[n].limp = false) :
    (s.vdCtlWrite n w false).vd = upd s.vd n fun v => v.disabledBy (keep 0x173 w) s.now := by
  unfold State.vdCtlWrite
  dsimp only
  rw [if_neg (by rw [hen]; exact Bool.false_ne_true), if_neg (by rw [hlimp]; exact Bool.false_ne_true)]
  cases hst : s.vd[n].st
  case disabled | decay | latched =>
    rw [State.modVd_vd]
    exact upd_congr (by rw [Vd.disabledBy, hst])
  case idle =>
    rw [State.vdEnter_vd, State.modVd_vd, upd_upd]
    exact upd_congr (by rw [Vd.disabledBy, hst])
  case gap =>
    rw [State.vdEnter_vd, State.modVd_vd, State.modVd_vd, upd_upd, upd_upd]
    refine upd_congr ?_
    dsimp only
    rw [Vd.disabledBy, hst]
  case defer | pending =>
    rw [State.modVd_vd, State.vdWithdraw_vd, upd_upd]
    exact upd_congr (by rw [Vd.disabledBy, hst])
  case peak | hold | prop =>
    have hcycle : ¬ (false && s.vd[n].markAt == s.now && s.vd[n].mark == .grantOn) = true := Bool.false_ne_true
    refine (congrArg State.vd (if_neg hcycle)).trans ?_
    rw [State.modVd_vd, State.vdOff_vd, upd_upd]
    exact upd_congr (by rw [Vd.disabledBy, hst])

/-! ### A write of CH_CMD -/

variable {on off clear : Bool} {hold : Nat}

/-- Commands of firmware are refused in limp mode (R230), and when more than one is written (R664). -/
theorem State.vdCmdWrite_refused (hsome : (on || off || clear) = true)
    (h : s.vd[n].limp = true ∨ (on && off || on && clear || off && clear) = true) :
    s.vdCmdWrite n on off clear same hold = s.vdRes n 2 := by
  by_cases hmany : (on && off || on && clear || off && clear) = true
  · exact if_pos hmany
  · refine (if_neg hmany).trans ((if_neg ?_).trans (if_pos (h.resolve_right hmany)))
    rw [hsome]
    exact Bool.false_ne_true

theorem State.vdCmdWrite_on (hlimp : s.vd[n].limp = false) :
    s.vdCmdWrite n true false false same hold = s.vdOnCmd n hold false := by
  rw [State.vdCmdWrite, hlimp]
  rfl

theorem State.vdCmdWrite_off (hlimp : s.vd[n].limp = false) :
    s.vdCmdWrite n false true false same hold = s.vdOffCmd n same := by
  rw [State.vdCmdWrite, hlimp]
  rfl

theorem State.vdCmdWrite_clear (hlimp : s.vd[n].limp = false) :
    s.vdCmdWrite n false false true same hold = s.vdClearCmd n := by
  rw [State.vdCmdWrite, hlimp]
  rfl

/-- CLEAR releases a latched channel (R220). -/
theorem State.vdClearCmd_vd : (s.vdClearCmd n).vd = upd s.vd n fun v =>
    { v with cmdRes := 0, st := if v.st = .latched then (if bit v.ctl 0 then .idle else .disabled) else v.st } := by
  unfold State.vdClearCmd
  dsimp only
  split
  case h_1 hst =>
    rw [State.vdRes_vd, State.vdEnter_vd, upd_upd]
    exact upd_congr (by rw [if_pos hst])
  case h_2 hst =>
    rw [State.vdRes_vd]
    exact upd_congr (by rw [if_neg hst])

/-- A store to CH_CMD that is served and changes its channel by `g`. -/
theorem fires_chCmd {i : Instr} {c : Fin 4} {isl : Nat} {g : Vd → Vd} {P : State → Prop}
    (hexec : exec i s = .next (s.storeIf c isl 7 fun x => x.vdCmdWrite n on off clear same hold))
    (hcan : canStore s isl 7)
    (hvd : ((s.served c).vdCmdWrite n on off clear same hold).vd = upd (s.served c).vd n g)
    (hP : ∀ t, t.vd[n] = g s.vd[n] → onlyAt n s.vd t.vd →
      t.vg = ((s.served c).vdCmdWrite n on off clear same hold).vg →
      t.adm = ((s.served c).vdCmdWrite n on off clear same hold).adm → onlyTouches vdRowParts s t → P t) : fires i s P :=
  fires_vdRow hexec hcan (fun x => (x.vdCmdWrite_touch ..).mono (by decide)) (by decide) hvd
    fun t hat hothers _ hvg hadm k => hP t hat hothers hvg hadm k

/-- A store to CH_CMD that is served and answers in CMD_RES alone. -/
theorem fires_chCmdRes {i : Instr} {c : Fin 4} {isl r : Nat}
    (hexec : exec i s = .next (s.storeIf c isl 7 fun x => x.vdCmdWrite n on off clear same hold))
    (hcan : canStore s isl 7)
    (hres : (s.served c).vdCmdWrite n on off clear same hold = (s.served c).vdRes n r) :
    fires i s fun t => t.vd[n] = { s.vd[n] with cmdRes := r } ∧ onlyAt n s.vd t.vd ∧ onlyTouches vdRowParts s t :=
  fires_vdRes hexec hcan (fun x => (x.vdCmdWrite_touch ..).mono (by decide)) (by decide) hres

/-- Such a store in limp mode or with more than one command (R230, R664). -/
theorem fires_chCmd_refused {i : Instr} {c : Fin 4} {isl : Nat}
    (hexec : exec i s = .next (s.storeIf c isl 7 fun x => x.vdCmdWrite n on off clear same hold))
    (hcan : canStore s isl 7)
    (hsome : (on || off || clear) = true)
    (h : s.vd[n].limp = true ∨ (on && off || on && clear || off && clear) = true) :
    fires i s fun t => t.vd[n] = { s.vd[n] with cmdRes := 2 } ∧ onlyAt n s.vd t.vd ∧ onlyTouches vdRowParts s t :=
  fires_chCmdRes hexec hcan (State.vdCmdWrite_refused hsome (by rwa [State.served_vd]))

/-! ### ON -/

variable {routed : Bool}

theorem State.vdOnCmd_barred
    (h : s.vd[n].st = .disabled ∨ s.vd[n].st = .latched ∨ s.vd[n].st = .idle ∧ s.vdA n = false) :
    s.vdOnCmd n hold routed = s.vdRes n 2 := by
  unfold State.vdOnCmd
  rcases h with h | h | ⟨h, hA⟩ <;> rw [h]
  exact if_neg (by rw [hA]; exact Bool.false_ne_true)

theorem State.vdOnCmd_merges (h : s.vd[n].st = .defer ∨ s.vd[n].st = .pending) :
    s.vdOnCmd n hold routed = s.vdMerge n hold := by
  unfold State.vdOnCmd
  rcases h with h | h <;> rw [h]

theorem State.vdMerge_vd : (s.vdMerge n hold).vd = upd s.vd n fun v => { v with cmdRes := 4, holdCmd := hold } := rfl

theorem State.vdOnCmd_starts (hst : s.vd[n].st = .idle) (hA : s.vdA n = true) :
    s.vdOnCmd n hold routed = s.vdStart n hold routed := by
  unfold State.vdOnCmd
  rw [hst]
  exact if_pos hA

/-- A channel that an ON command has reached, with the command's source (R319). -/
def Vd.commanded (v : Vd) (routed : Bool) : Vd := { v with heldMerge := false, cmdRes := 0, routed := routed }

/-- The load alone is beyond the group's limit: GROUP_BUSY (R214). -/
theorem State.vdStart_busy (hload : s.vg[groupOf n].limLoad < s.vd[n].own) :
    s.vdStart n hold routed = (s.modVd n fun v => v.commanded routed).vdBusy n 0 := if_pos hload

theorem State.vdStart_fits (hload : s.groupLoad (groupOf n) n.val + s.vd[n].own ≤ s.vg[groupOf n].limLoad)
    (hsw : s.vg[groupOf n].swOn = true) (hready : s.vg[groupOf n].ready = true)
    (hfirst : s.anyDefer (groupOf n) = false) :
    s.vdStart n hold routed =
      (s.modVd n fun v => { v.commanded routed with holdCmd := hold }).vdPending n := by
  have hroom : (s.groupLoad (groupOf n) n.val + s.vd[n].own ≤ s.vg[groupOf n].limLoad && s.vg[groupOf n].swOn &&
      s.vg[groupOf n].ready && !s.anyDefer (groupOf n)) = true := by
    rw [decide_eq_true hload, hsw, hready, hfirst]
    rfl
  refine (if_neg (by omega)).trans ((if_pos hroom).trans (congrArg (State.vdPending · n) ?_))
  rw [State.modVd, State.modVd, State.modVd, upd_upd]
  rfl

/-- A channel that waits in DEFER from time `now` as number `seq` (R215, R216). -/
def Vd.waiting (v : Vd) (hold now seq : Nat) : Vd :=
  { v with holdCmd := hold, startedFrom := v.st, deferAt := now, deferSeq := seq }

/-- A group that a channel begins to wait for at time `now`: the switch turns on (R196, R215). -/
def Vg.awaited (x : Vg) (now : Nat) : Vg :=
  { x with
    seq := x.seq + 1, cntDefer := satN 16 (x.cntDefer + 1), swOn := true, swAt := if x.swOn then x.swAt else now,
    ready := x.swOn && x.ready }

/-- The state in which a start of channel `n` has been deferred (R215). -/
abbrev State.deferred (s : State) (n : Fin 16) (hold : Nat) (routed : Bool) : State :=
  (((s.modVd n fun v => (v.commanded routed).waiting hold s.now s.vg[groupOf n].seq).vdEnter n .defer).zeroAbort
    (tVd n)).modVg (groupOf n) fun x => x.awaited s.now

theorem State.vdStart_defers (hown : s.vd[n].own ≤ s.vg[groupOf n].limLoad)
    (hwait : s.vg[groupOf n].limLoad < s.groupLoad (groupOf n) n.val + s.vd[n].own ∨ s.vg[groupOf n].swOn = false ∨
      s.vg[groupOf n].ready = false ∨ s.anyDefer (groupOf n) = true)
    (hmax : 0 < fld s.vd[n].deferCfg 0 16) : s.vdStart n hold routed = s.deferred n hold routed := by
  have hroom : ¬ (s.groupLoad (groupOf n) n.val + s.vd[n].own ≤ s.vg[groupOf n].limLoad && s.vg[groupOf n].swOn &&
      s.vg[groupOf n].ready && !s.anyDefer (groupOf n)) = true := by grind
  have hmod : ((s.modVd n fun v => v.commanded routed).modVd n fun v =>
      v.waiting hold s.now s.vg[groupOf n].seq) =
      s.modVd n fun v => (v.commanded routed).waiting hold s.now s.vg[groupOf n].seq := by
    rw [State.modVd, State.modVd, State.modVd, upd_upd]
  refine (if_neg (Nat.not_lt.mpr hown)).trans ((if_neg hroom).trans ((if_neg (Nat.ne_of_gt hmax)).trans ?_))
  rw [State.deferred, ← hmod]
  rfl

theorem State.deferred_vd : (s.deferred n hold routed).vd = upd s.vd n fun v =>
    { (v.commanded routed).waiting hold s.now s.vg[groupOf n].seq with st := .defer } := by
  have hdig (y : State) : (y.zeroAbort (tVd n)).vd = y.vd := rfl
  rw [State.modVg_vd, hdig, State.vdEnter_vd, State.modVd_vd, upd_upd]

theorem State.deferred_adm : (s.deferred n hold routed).adm = s.adm := rfl

theorem State.deferred_vg : ∃ a, (s.deferred n hold routed).vg[groupOf n] =
    { s.vg[groupOf n] with activeAt := a }.awaited s.now := by
  have hdig (y : State) : (y.zeroAbort (tVd n)).vg = y.vg := rfl
  obtain ⟨a, hvg⟩ := (s.modVd n fun v => (v.commanded routed).waiting hold s.now s.vg[groupOf n].seq).vdEnter_vg n .defer
  rw [State.modVd_vg] at hvg
  exact ⟨a, by rw [State.modVg_vg, upd_get, hdig, hvg]⟩

/-- The request and claim of a channel that enters PENDING (R217, R328). -/
theorem State.vdPending_claims : (s.vdPending n).adm.inbox = s.adm.inbox ++
    [.own (48 + n.val) (if s.vd[n].routed then s.mapPrio (tVd n) else fld s.vd[n].ctl 4 3) (ceilDiv s.vd[n].own 1000)
      s.vd[n].inrE (fld s.vd[n].deferCfg 16 16) .ordinary] := rfl

end

/-! ### The profile -/

section
variable {s : State} {n : Fin 16} {w : W32}

theorem State.vdProfWrite_copies (hst : s.vd[n].st = .disabled ∨ s.vd[n].st = .idle ∨ s.vd[n].st = .latched)
    (hbase : fld w 0 12 ≤ 4092) :
    (s.vdProfWrite n w).vd = upd s.vd n fun v =>
      { v with
        prof := keep 0xFFF w, profLoaded := false, cmdRes := 0,
        copy := { busy := true, base := fld w 0 12, len := 4 } } := by
  refine congrArg State.vd (if_pos ?_)
  rw [decide_eq_true hbase, Bool.and_true]
  rcases hst with h | h | h <;> rw [h] <;> rfl

theorem State.vdProfWrite_bad
    (h : vdActive s.vd[n].st = true ∨ s.vd[n].st = .decay ∨ s.vd[n].st = .gap ∨ 4092 < fld w 0 12) :
    s.vdProfWrite n w = s.vdRes n 3 := by
  refine if_neg ?_
  rw [Bool.and_eq_true, decide_eq_true_eq]
  rintro ⟨hst, hbase⟩
  rcases h with h | h | h | h
  · revert h hst
    cases s.vd[n].st <;> decide
  · rw [h] at hst
    exact nomatch hst
  · rw [h] at hst
    exact nomatch hst
  · omega

theorem State.vdProfDone_loads (hbusy : s.vd[n].copy.busy = true) (hup : s.isUp 2 = true) :
    (s.vdProfDone n).vd = upd s.vd n fun v =>
      { v with entries := s.curve.range v.copy.base 4, profLoaded := true, copy := { v.copy with busy := false } } := by
  rw [State.vdProfDone, if_pos (by rw [hbusy, hup]; rfl), State.modVd_vd]

theorem State.vdProfDone_idle (h : s.vd[n].copy.busy = false ∨ s.isUp 2 = false) : s.vdProfDone n = s :=
  if_neg (by grind)

end

/-- Settles O25, by what each command makes of its channel: OFF by `State.vdOffCmd_cases`, ON by the three ends of
`State.vdStart`. -/
theorem valveCommandsFollowTheTable : Obligations.ValveCommandsFollowTheTable := by
  unfold Obligations.ValveCommandsFollowTheTable
  refine ⟨?_, ?_, ?_, ?_, ?_, ?_, ?_, ?_, ?_, ?_, ?_, ?_, ?_, ?_, ?_, ?_, ?_, ?_, ?_⟩
  · intro s c n w same hcan hheld
    refine fires_vdRow (ps := vdRowParts) rfl hcan (fun x => (x.vdCtlWrite_touch n _ same).mono (by decide)) (by decide)
      (State.vdCtlWrite_enables (bit_chEnable w) (by rwa [State.served_pwr])) fun t hat hothers hdone _ _ htouch => ?_
    rw [hat]
    exact ⟨rfl, rfl, rfl, hothers, hdone, htouch⟩
  · intro s c n w same hcan hheld
    exact fires_vdRes rfl hcan (fun x => (x.vdCtlWrite_touch n _ same).mono (by decide)) (by decide)
      (State.vdCtlWrite_held (bit_chEnable w) (by rwa [State.served_pwr]))
  · intro s c n w hcan hlimp
    refine fires_vdRow (ps := vdRowParts) rfl hcan (fun x => (x.vdCtlWrite_touch n _ false).mono (by decide)) (by decide)
      (State.vdCtlWrite_disables (bit_chDisable w) (by rwa [State.served_vd])) fun t hat hothers _ _ _ htouch => ?_
    rw [hat]
    obtain ⟨hctl, hres⟩ := Vd.disabledBy_stores s.vd[n] (keep 0x173 (w &&& 0xFFFFFFFE)) (s.served c).now
    exact ⟨hctl, hres, Vd.disabledBy_st .., hothers, htouch⟩
  · intro s c n w same hcan hlimp
    exact fires_vdRes rfl hcan (fun x => (x.vdCtlWrite_touch n _ same).mono (by decide)) (by decide)
      (State.vdCtlWrite_limp (bit_chDisable w) (by rwa [State.served_vd]))
  · intro s c n hold hcan hlimp hst hA hload hsw hready hfirst
    have hrow : (s.served c).vdCmdWrite n true false false false hold.toNat = _ :=
      (State.vdCmdWrite_on (by rwa [State.served_vd])).trans
        ((State.vdOnCmd_starts (by rwa [State.served_vd]) (by rwa [State.served_vdA])).trans
          (State.vdStart_fits (by rwa [State.served_groupLoad, State.served_vd, State.served_vg])
            (by rwa [State.served_vg]) (by rwa [State.served_vg]) (by rwa [State.served_anyDefer])))
    have hvd := (congrArg State.vd hrow).trans (State.vdPending_vd ..)
    rw [State.modVd_vd, upd_upd] at hvd
    have hinbox := (congrArg (fun x : State => x.adm.inbox) hrow).trans State.vdPending_claims
    rw [State.modVd_vd, upd_get, State.served_vd, State.modVd_adm, State.served_adm] at hinbox
    refine fires_chCmd rfl hcan hvd fun t hat hothers _ hadm htouch => ?_
    rw [hat]
    exact ⟨rfl, rfl, rfl, rfl, by rw [hadm]; exact hinbox, hothers, htouch⟩
  · intro s c n hold hcan hlimp hst hA hown hwait hmax
    have hrow : (s.served c).vdCmdWrite n true false false false hold.toNat = _ :=
      (State.vdCmdWrite_on (by rwa [State.served_vd])).trans
        ((State.vdOnCmd_starts (by rwa [State.served_vd]) (by rwa [State.served_vdA])).trans
          (State.vdStart_defers (by rwa [State.served_vd, State.served_vg])
            (by rwa [State.served_vg, State.served_groupLoad, State.served_vd, State.served_anyDefer])
            (by rwa [State.served_vd])))
    obtain ⟨a, hgroup⟩ := (s.served c).deferred_vg (n := n) (hold := hold.toNat) (routed := false)
    rw [← hrow, State.served_vg] at hgroup
    refine fires_chCmd rfl hcan ((congrArg State.vd hrow).trans State.deferred_vd)
      fun t hat hothers hvg hadm htouch => ?_
    rw [hat, hvg, hgroup, hadm, hrow, State.deferred_adm, State.served_adm]
    exact ⟨rfl, rfl, State.served_now .., rfl, rfl, rfl, hothers, htouch⟩
  · intro s c n hold hcan hlimp hst hA hload
    have hrow : (s.served c).vdCmdWrite n true false false false hold.toNat = _ :=
      (State.vdCmdWrite_on (by rwa [State.served_vd])).trans
        ((State.vdOnCmd_starts (by rwa [State.served_vd]) (by rwa [State.served_vdA])).trans
          (State.vdStart_busy (by rwa [State.served_vd, State.served_vg])))
    have hvd := (congrArg State.vd hrow).trans (State.vdBusy_vd ..)
    rw [State.modVd_vd, upd_upd] at hvd
    have hbusy := (congrArg State.vg hrow).trans (State.vdBusy_vg ..)
    rw [State.modVd_vg, State.served_vg] at hbusy
    refine fires_chCmd rfl hcan hvd fun t hat hothers hvg _ htouch => ?_
    rw [hat, hvg, hbusy, upd_get]
    exact ⟨hst, rfl, rfl, hothers, htouch⟩
  · intro s c n hold hcan hlimp hbarred
    refine fires_chCmdRes rfl hcan ((State.vdCmdWrite_on (by rwa [State.served_vd])).trans (State.vdOnCmd_barred ?_))
    rwa [State.served_vd, State.served_vdA]
  · intro s c n hold hcan hlimp hst
    have hrow : (s.served c).vdCmdWrite n true false false false hold.toNat = _ :=
      (State.vdCmdWrite_on (by rwa [State.served_vd])).trans (State.vdOnCmd_merges (by rwa [State.served_vd]))
    exact fires_chCmd rfl hcan ((congrArg State.vd hrow).trans State.vdMerge_vd)
      fun t hat hothers _ _ htouch => ⟨hat, hothers, htouch⟩
  · intro s c n hcan hlimp
    have hrow : (s.served c).vdCmdWrite n false true false false 0 = _ :=
      State.vdCmdWrite_off (by rwa [State.served_vd])
    have hvd := (congrArg State.vd hrow).trans (State.vdOffCmd_vd (.inl rfl))
    rw [State.served_now] at hvd
    refine fires_chCmd rfl hcan hvd fun t hat hothers _ hadm htouch => ?_
    rw [hat, hadm]
    refine ⟨Vd.offCmd_st .., Vd.offCmd_cmdRes .., Vd.offCmd_decay _ _, fun hst => ?_, hothers, htouch⟩
    rw [hrow, State.vdOffCmd_inbox false (by rwa [State.served_vd]), State.served_adm]
  · intro s c n hcan hlimp hon hmark hat
    refine fires_chCmdRes rfl hcan
      ((State.vdCmdWrite_off (by rwa [State.served_vd])).trans (State.vdOffCmd_tooLate ?_ ?_ ?_))
    · rwa [State.served_vd]
    · rwa [State.served_vd]
    · rwa [State.served_vd, State.served_now]
  · intro s c n hcan hlimp
    have hrow : (s.served c).vdCmdWrite n false false true false 0 = _ :=
      State.vdCmdWrite_clear (by rwa [State.served_vd])
    exact fires_chCmd rfl hcan ((congrArg State.vd hrow).trans State.vdClearCmd_vd)
      fun t hat hothers _ _ htouch => ⟨hat, hothers, htouch⟩
  · intro s c n hold multi hcan hwhy
    exact fires_chCmd_refused rfl hcan rfl (hwhy.imp_right fun h => by rw [h]; rfl)
  · intro s c n multi same hcan hwhy
    exact fires_chCmd_refused rfl hcan (by cases multi <;> rfl) (hwhy.imp_right fun h => by rw [h]; rfl)
  · intro s c n multi hcan hwhy
    exact fires_chCmd_refused rfl hcan (by cases multi <;> rfl) (hwhy.imp_right fun h => by rw [h]; rfl)
  · intro s c n w hcan hst hbase
    exact fires_vdRow (ps := [.fab, .answer, .vd, .pmc, .free]) rfl hcan
      (fun x => (x.vdProfWrite_touch n w).mono (by decide)) (by decide)
      (State.vdProfWrite_copies (by rwa [State.served_vd]) hbase)
      fun t hat hothers _ _ _ htouch => ⟨hat, hothers, htouch⟩
  · intro s c n w hcan hwhy
    exact fires_vdRes rfl hcan (fun x => (x.vdProfWrite_touch n w).mono (by decide)) (by decide)
      (State.vdProfWrite_bad (by rwa [State.served_vd]))
  · intro s n hbusy hup
    obtain ⟨hat, hothers⟩ := changed_at (State.vdProfDone_loads hbusy hup)
    exact ⟨_, rfl, hat, hothers, s.vdProfDone_touch n⟩
  · exact fun s n h => ⟨_, rfl, State.vdProfDone_idle h⟩

end Sys2Proof.Machine

/-! ## Faults of valve channels and groups, the group switch, OFF_ALL (R196 to R199, R224 to R228, R235) -/

namespace Sys2Proof.Machine

open Claims

theorem inGroup_iff {g : Fin 4} {n : Fin 16} : inGroup g n.val = true ↔ g = groupOf n := by
  rw [inGroup, decide_eq_true_eq, Fin.ext_iff, eq_comm]
  rfl

/-! ### What an operation of a channel notes in its group (R196) -/

/-- From `s` to `t` the groups differ at most in the time at which `g` was last active. -/
def State.GroupNoted (s t : State) (g : Fin 4) : Prop := ∃ a, t.vg = upd s.vg g fun x => { x with activeAt := a }

theorem State.GroupNoted.of_same {s t : State} (g : Fin 4) (h : t.vg = s.vg) : s.GroupNoted t g :=
  ⟨s.vg[g].activeAt, h.trans (upd_self _ _ _ rfl).symm⟩

theorem State.GroupNoted.trans {s t u : State} {g : Fin 4} (h : s.GroupNoted t g) (k : t.GroupNoted u g) :
    s.GroupNoted u g := by
  obtain ⟨a, ha⟩ := h
  obtain ⟨b, hb⟩ := k
  exact ⟨b, by rw [hb, ha, upd_upd]⟩

theorem State.GroupNoted.onlyAt {s t : State} {g : Fin 4} (h : s.GroupNoted t g) : onlyAt g s.vg t.vg := by
  obtain ⟨a, ha⟩ := h
  exact (changed_at ha).2

section
variable (s : State) (n : Fin 16)

theorem State.vdEnter_noted (st : VdSt) : s.GroupNoted (s.vdEnter n st) (groupOf n) := by
  rw [State.GroupNoted, State.vdEnter, State.modVg_vg, State.modVd_vg]
  split
  · exact ⟨_, rfl⟩
  · exact ⟨s.vg[groupOf n].activeAt, rfl⟩

theorem State.vdWithdraw_noted (st : VdSt) : s.GroupNoted (s.vdWithdraw n st) (groupOf n) := by
  unfold State.vdWithdraw
  refine .trans (.of_same _ ?_) (State.vdEnter_noted _ n st)
  split <;> rfl

theorem State.vdOff_noted (st : VdSt) : s.GroupNoted (s.vdOff n st) (groupOf n) := by
  unfold State.vdOff
  refine ((State.GroupNoted.of_same _ ?_).trans (State.vdEnter_noted _ n st)).trans (.of_same _ rfl)
  exact (State.vdRelease_touch _ n).same .vg (by decide)

theorem State.vdOffCmd_noted (same : Bool) : s.GroupNoted (s.vdOffCmd n same) (groupOf n) := by
  unfold State.vdOffCmd
  dsimp only
  cases s.vd[n].st
  case disabled | idle | latched => exact .of_same _ rfl
  case defer | pending => exact s.vdWithdraw_noted n .idle
  case peak | hold | prop =>
    dsimp only
    split
    · exact .of_same _ rfl
    · exact s.vdOff_noted n .decay
  case decay =>
    dsimp only
    split <;> exact .of_same _ rfl
  case gap => exact State.vdEnter_noted _ n .idle

/-! ### A fault of the channel -/

/-- A channel that a fault of its own has latched at time `now`, with FAULT_INFO and FAULT_TIME (R225). -/
def Vd.faulted (v : Vd) (cause il count now : Nat) : Vd :=
  { v with
    fault := v.fault ||| BitVec.ofNat 32 cause, faultInfo := pack [(0, 4, cause), (4, 4, v.st.code), (16, 16, il)],
    faultTime := count }.turnedOff now .latched

theorem State.vdFault_vd (cause : Nat) : (s.vdFault n cause).vd =
    upd s.vd n fun _ => s.vd[n].faulted cause (s.lastTenMa (tVd n)) s.count s.now := by
  have hdig (y : State) : (y.capTrigger (tVd n) 3).vd = y.vd := rfl
  rw [State.vdFault, State.vdEmit_vd, hdig, State.vdEmit_vd, State.vdOff_vd, State.modVd_vd, upd_upd]
  exact upd_congr rfl

theorem State.vdShort_faults {ma : Nat} (hup : s.vgUp (groupOf n) = true) (hon : vdOn s.vd[n].st = true)
    (hma : 12000 ≤ ma) : s.vdShort n ma = s.vdFault n 1 :=
  if_pos (by rw [hup, hon, decide_eq_true hma]; rfl)

theorem State.vdShort_idle {ma : Nat} (h : vdOn s.vd[n].st = false ∨ ma < 12000) : s.vdShort n ma = s :=
  if_neg (by grind)

theorem State.vdOpen_faults {ma ms : Nat} (hup : s.vgUp (groupOf n) = true) (hon : vdOn s.vd[n].st = true)
    (hset : 2 * (fld s.vd[n].openCfg 0 8 * 10) ≤ s.vd[n].setpoint s.now) (hma : ma < fld s.vd[n].openCfg 0 8 * 10)
    (hms : max 1 (fld s.vd[n].openCfg 8 8) ≤ ms) : s.vdOpen n ma ms = s.vdFault n 2 :=
  if_pos (by rw [hup, hon, decide_eq_true hset, decide_eq_true hma, decide_eq_true hms]; rfl)

theorem State.vdOpen_idle {ma ms : Nat}
    (h : s.vgUp (groupOf n) = false ∨ vdOn s.vd[n].st = false ∨
      s.vd[n].setpoint s.now < 2 * (fld s.vd[n].openCfg 0 8 * 10) ∨ fld s.vd[n].openCfg 0 8 * 10 ≤ ma ∨ ms < max 1 (fld s.vd[n].openCfg 8 8)) : s.vdOpen n ma ms = s :=
  if_neg (by grind)

/-! ### What a group fault or under-voltage makes of a channel (R220, R226, R228) -/

/-- What a group fault or VL3 under-voltage makes of a channel at time `now`; `fb` is the CH_FAULT bit. -/
def Vd.groupHit (v : Vd) (fb : W32) (now : Nat) : Vd :=
  match v.st with
  | .defer | .pending => { v.withdrawn .idle with fault := v.fault ||| fb }
  | .peak | .hold | .prop => { v.turnedOff now .decay with fault := v.fault ||| fb }
  | .decay => { v with held := none, fault := if bit fb 3 then v.fault ||| fb else v.fault }
  | .gap => { v with held := none, st := .idle, fault := if bit fb 3 then v.fault ||| fb else v.fault }
  | .disabled | .idle | .latched => v

theorem Vd.groupHit_inactive (v : Vd) (fb : W32) (now : Nat) : vdActive (v.groupHit fb now).st = false := by
  unfold Vd.groupHit
  cases hst : v.st
  case disabled | idle | latched => exact congrArg vdActive hst
  all_goals rfl

/-- Under-voltage sets UV in every channel that it acts on (R228). -/
theorem Vd.groupHit_uv (v : Vd) (now : Nat) (h : vdActive v.st = true ∨ v.st = .decay ∨ v.st = .gap) :
    bit (v.groupHit 8 now).fault 3 = true := by
  have hbit : bit (v.fault ||| 8) 3 = true := by
    rw [bit_or, show bit 8 3 = true by decide, Bool.or_true]
  unfold Vd.groupHit
  cases hst : v.st <;> rw [hst] at h
  case disabled | idle | latched => exact nomatch h
  all_goals exact hbit

theorem Vd.groupHit_gap (v : Vd) (fb : W32) (now : Nat) (hst : v.st = .gap) :
    (v.groupHit fb now).st = .idle ∧ (v.groupHit fb now).held = none := by
  unfold Vd.groupHit
  rw [hst]
  exact ⟨rfl, rfl⟩

/-- CH_FAULT of a channel with bit `fb` set, where `c` says so. -/
theorem State.vdMark_vd (c : Bool) (fb : W32) :
    (s.onlyIf c fun x => x.modVd n fun v => { v with fault := v.fault ||| fb }).vd =
      upd s.vd n fun v => { v with fault := if c then v.fault ||| fb else v.fault } := by
  cases c
  · exact (upd_self _ _ _ rfl).symm
  · rfl

theorem State.vdGroupHit_vd (fb : W32) : (s.vdGroupHit n fb).vd = upd s.vd n fun v => v.groupHit fb s.now := by
  unfold State.vdGroupHit
  dsimp only
  cases hst : s.vd[n].st
  case disabled | idle | latched => exact (upd_self _ _ _ (by rw [Vd.groupHit, hst])).symm
  case defer | pending =>
    rw [State.modVd_vd, State.vdWithdraw_vd, upd_upd]
    exact upd_congr (by rw [Vd.groupHit, hst]; rfl)
  case peak | hold | prop =>
    rw [State.modVd_vd, State.vdOff_vd, upd_upd]
    exact upd_congr (by rw [Vd.groupHit, hst]; rfl)
  case decay =>
    rw [State.vdMark_vd, State.modVd_vd, upd_upd]
    exact upd_congr (by rw [Vd.groupHit, hst])
  case gap =>
    rw [State.vdMark_vd, State.vdEnter_vd, State.modVd_vd, upd_upd, upd_upd]
    refine upd_congr ?_
    dsimp only
    rw [Vd.groupHit, hst]

theorem State.vdGroupHit_noted (fb : W32) : s.GroupNoted (s.vdGroupHit n fb) (groupOf n) := by
  have hmark (y : State) (c : Bool) :
      y.GroupNoted (y.onlyIf c fun x => x.modVd n fun v => { v with fault := v.fault ||| fb }) (groupOf n) :=
    .of_same _ (by cases c <;> rfl)
  unfold State.vdGroupHit
  dsimp only
  cases s.vd[n].st
  case disabled | idle | latched => exact .of_same _ rfl
  case defer | pending => exact s.vdWithdraw_noted n .idle
  case peak | hold | prop => exact s.vdOff_noted n .decay
  case decay => exact hmark _ _
  case gap =>
    dsimp only
    refine .trans ?_ (hmark _ _)
    refine .trans ?_ (State.vdEnter_noted _ n .idle)
    exact .of_same _ rfl

end

/-! ### Loops over the channels of a group -/

/-- A loop that acts on some of the channels, each turn on its own alone, meets each channel as it was. -/
theorem valveLoop_at {op : Fin 16 → State → State} {ps : List Part} (on : Fin 16 → State → Bool)
    (htouch : ∀ n x, onlyTouches ps x (op n x)) (htmb : Part.tmb ∉ ps) (hothers : ∀ n x, onlyAt n x.vd (op n x).vd)
    (s : State) (n : Fin 16) : ∃ y : State, y.vd[n] = s.vd[n] ∧ y.now = s.now ∧
      (on n y = true → (forFin 16 (fun n x => if on n x then op n x else x) s).vd[n] = (op n y).vd[n]) ∧
      (on n y = false → (forFin 16 (fun n x => if on n x then op n x else x) s).vd[n] = s.vd[n]) := by
  obtain ⟨y, hy, hview, hloop⟩ := forFin_at (op := fun n x => if on n x then op n x else x) (fun x => x.vd[n])
    (fun n x => onlyTouches.ite (htouch n x) (onlyTouches.refl _ x))
    (fun j x hj => by
      split
      · exact hothers j x n (Ne.symm hj)
      · rfl) s
  refine ⟨y, hview, hy.now_eq htmb, fun hon => hloop.trans ?_, fun hoff => hloop.trans ?_⟩
  · simp only [hon, if_true]
  · simp only [hoff, Bool.false_eq_true, if_false, hview]

/-- Turns at the channels of one group leave the other groups, and of this one all but the time of its activity. -/
theorem valveLoop_noted {op : Fin 16 → State → State} {g : Fin 4} {on : Fin 16 → State → Bool}
    (hop : ∀ n (x : State), x.GroupNoted (op n x) (groupOf n)) (hon : ∀ n x, on n x = true → g = groupOf n) (s : State) :
    s.GroupNoted (forFin 16 (fun n x => if on n x then op n x else x) s) g := by
  refine forFin_keeps (P := fun x => s.GroupNoted x g) (fun n x hx => ?_) (.of_same g rfl)
  split
  next h => exact hx.trans (hon n x h ▸ hop n x)
  next => exact hx

section
variable (s : State) (g : Fin 4)

/-- The channels of a group after a group fault or under-voltage with CH_FAULT bit `fb`. -/
abbrev State.groupSwept (s : State) (g : Fin 4) (fb : W32) : State :=
  forFin 16 (fun n x => if inGroup g n.val then x.vdGroupHit n fb else x) s

theorem State.groupSwept_vd (fb : W32) (n : Fin 16) :
    (s.groupSwept g fb).vd[n] = if inGroup g n.val then s.vd[n].groupHit fb s.now else s.vd[n] := by
  obtain ⟨y, hy, hnow, hin, hout⟩ := valveLoop_at (fun n _ => inGroup g n.val) (fun n x => x.vdGroupHit_touch n fb)
    (by decide) (fun n x => (changed_at (x.vdGroupHit_vd n fb)).2) s n
  by_cases hn : inGroup g n.val = true
  · rw [hin hn, (changed_at (y.vdGroupHit_vd n fb)).1, hy, hnow, if_pos hn]
  · rw [hout (Bool.eq_false_of_not_eq_true hn), if_neg hn]

/-- A group with its switch off and latched, bit `fb` of G_FAULT set (R226). -/
def Vg.shut (x : Vg) (fb : W32) : Vg :=
  { x with swOn := false, ready := false, latched := true, fault := x.fault ||| fb }

theorem Vg.shut_fault (x : Vg) {fb : W32} {i : Nat} (h : bit fb i = true) : bit (x.shut fb).fault i = true := by
  rw [Vg.shut, bit_or, h, Bool.or_true]

theorem State.groupFault_vg (cause : Nat) (fb : W32) :
    ∃ a, (s.groupFault g cause fb).vg = upd s.vg g fun x => { x with activeAt := a }.shut fb := by
  obtain ⟨a, ha⟩ : s.GroupNoted (s.groupSwept g 4) g :=
    valveLoop_noted (fun n x => x.vdGroupHit_noted n 4) (fun n x h => inGroup_iff.mp h) s
  refine ⟨a, ?_⟩
  rw [State.groupFault, State.emit_vg, State.modVg_vg, ha, upd_upd]
  rfl

theorem State.groupFault_vd (cause : Nat) (fb : W32) (n : Fin 16) :
    (s.groupFault g cause fb).vd[n] = if inGroup g n.val then s.vd[n].groupHit 4 s.now else s.vd[n] := by
  rw [State.groupFault, State.emit_vd, State.modVg_vd]
  exact s.groupSwept_vd g 4 n

/-- What every group fault leaves: switch off, group latched, its channels inactive, the others as they were (R226). -/
theorem State.groupFault_shuts (cause : Nat) (fb : W32) (i : Nat) (hbit : bit fb i = true) :
    (s.groupFault g cause fb).vg[g].swOn = false ∧ (s.groupFault g cause fb).vg[g].latched = true ∧
    bit (s.groupFault g cause fb).vg[g].fault i = true ∧
    (∀ n : Fin 16, inGroup g n.val = true → vdActive (s.groupFault g cause fb).vd[n].st = false) ∧
    (∀ n : Fin 16, inGroup g n.val = false → (s.groupFault g cause fb).vd[n] = s.vd[n]) ∧
    onlyAt g s.vg (s.groupFault g cause fb).vg := by
  obtain ⟨a, hvg⟩ := s.groupFault_vg g cause fb
  obtain ⟨hat, hothers⟩ := changed_at hvg
  rw [hat]
  refine ⟨rfl, rfl, Vg.shut_fault _ hbit, fun n hn => ?_, fun n hn => ?_, hothers⟩
  · rw [State.groupFault_vd, if_pos hn]
    exact Vd.groupHit_inactive ..
  · rw [State.groupFault_vd, if_neg (by rw [hn]; exact Bool.false_ne_true)]

/-! ### The group's mechanisms -/

theorem State.groupOc_faults {ma cycles : Nat} (hup : s.vgUp g = true) (hsw : s.vg[g].swOn = true) (hma : 14000 < ma)
    (hcycles : 320 ≤ cycles) : s.groupOc g ma cycles = s.groupFault g 4 1 :=
  if_pos (by rw [hup, hsw, decide_eq_true hma, decide_eq_true hcycles]; rfl)

theorem State.groupOc_idle {ma cycles : Nat}
    (h : s.vgUp g = false ∨ s.vg[g].swOn = false ∨ ma ≤ 14000 ∨ cycles < 320) : s.groupOc g ma cycles = s :=
  if_neg (by grind)

theorem State.groupSc_faults {ma : Nat} (hup : s.vgUp g = true) (hsw : s.vg[g].swOn = true) (hma : 24000 ≤ ma) :
    s.groupSc g ma = s.groupFault g 5 2 :=
  if_pos (by rw [hup, hsw, decide_eq_true hma]; rfl)

theorem State.groupSc_idle {ma : Nat} (h : s.vgUp g = false ∨ s.vg[g].swOn = false ∨ ma < 24000) : s.groupSc g ma = s :=
  if_neg (by grind)

/-- A group whose sensor reads `tj`, with its extremes and thermal cycles. -/
def Vg.sensed (tj : Int) (x : Vg) : Vg :=
  let r := thermStep tj x.tMin x.tMax x.thermCyc
  { x with tj := tj, tMin := r.1, tMax := r.2.1, thermCyc := r.2.2 }

/-- The sensor of a valve target is its group's. -/
theorem State.setTj_group (tj : Int) : s.setTj ⟨48 + 4 * g.val, by omega⟩ tj = s.modVg g (Vg.sensed tj) := by
  have hgroup : (⟨(48 + 4 * g.val - 48) / 4, by omega⟩ : Fin 4) = g := Fin.ext (by simp only; omega)
  rw [State.setTj, dif_neg (by simp only; omega), dif_pos (by simp only; omega), hgroup]
  rfl

theorem State.groupThermal_faults {tj : Int} (hup : s.vgUp g = true) (htl : s.vg[g].tl = false) (htj : 2800 ≤ tj) :
    s.groupThermal g tj = (s.modVg g fun x => { x.sensed tj with tl := true }).groupFault g 3 4 := by
  refine (if_pos (by rw [hup, htl, decide_eq_true htj]; rfl)).trans ?_
  dsimp only
  rw [State.setTj_group, State.modVg, State.modVg, State.modVg, upd_upd]

theorem State.groupThermal_idle {tj : Int} (h : s.vgUp g = false ∨ s.vg[g].tl = true ∨ tj < 2800) :
    s.groupThermal g tj = s :=
  if_neg (by grind)

theorem State.groupThermalClear_clears {tj : Int} (hup : s.vgUp g = true) (htl : s.vg[g].tl = true) (htj : tj ≤ 2480) :
    s.groupThermalClear g tj = s.modVg g fun x => { x.sensed tj with tl := false } := by
  refine (if_pos (by rw [hup, htl, decide_eq_true htj]; rfl)).trans ?_
  rw [State.setTj_group, State.modVg, State.modVg, State.modVg, upd_upd]

theorem State.groupThermalClear_idle {tj : Int} (h : s.vgUp g = false ∨ s.vg[g].tl = false ∨ 2480 < tj) :
    s.groupThermalClear g tj = s :=
  if_neg (by grind)

theorem State.gswFail_faults (hup : s.vgUp g = true) (hsw : s.vg[g].swOn = true) (hready : s.vg[g].ready = false) :
    s.gswFail g = (s.advanceTo (s.vg[g].swAt + 1000)).groupFault g 7 8 :=
  if_pos (by rw [hup, hsw, hready]; rfl)

theorem State.gswFail_idle (h : s.vgUp g = false ∨ s.vg[g].swOn = false ∨ s.vg[g].ready = true) : s.gswFail g = s :=
  if_neg (by grind)

theorem State.gswReady_reports {mv : Nat} (hup : s.vgUp g = true) (hsw : s.vg[g].swOn = true) (hmv : mv ≤ 1000) :
    s.gswReady g mv = s.modVg g fun x => { x with ready := true } :=
  if_pos (by rw [hup, hsw, decide_eq_true hmv]; rfl)

theorem State.gswReady_idle {mv : Nat} (h : s.vgUp g = false ∨ s.vg[g].swOn = false ∨ 1000 < mv) : s.gswReady g mv = s :=
  if_neg (by grind)

/-- Some channel of the group keeps its switch on (R196). -/
abbrev State.groupActive (s : State) (g : Fin 4) : Bool :=
  (List.finRange 16).any fun m => inGroup g m.val && vdActive s.vd[m].st

theorem State.groupActive_iff :
    s.groupActive g = true ↔ ∃ m : Fin 16, inGroup g m.val = true ∧ vdActive s.vd[m].st = true := by
  simp only [State.groupActive, List.any_eq_true, List.mem_finRange, true_and, Bool.and_eq_true]

theorem State.gswOff_opens (hup : s.vgUp g = true) (hsw : s.vg[g].swOn = true)
    (hidle : ∀ n : Fin 16, inGroup g n.val = true → vdActive s.vd[n].st = false) :
    s.gswOff g = (s.advanceTo (s.vg[g].activeAt + 10000)).modVg g fun x => { x with swOn := false, ready := false } := by
  have hnone : s.groupActive g = false := by
    rw [Bool.eq_false_iff, ne_eq, State.groupActive_iff]
    rintro ⟨m, hm, hst⟩
    exact nomatch (hidle m hm).symm.trans hst
  exact if_pos (by rw [hup, hsw]; exact congrArg (fun b => true && true && !b) hnone)

theorem State.gswOff_idle (h : s.vgUp g = false ∨ s.vg[g].swOn = false ∨
    ∃ m : Fin 16, inGroup g m.val = true ∧ vdActive s.vd[m].st = true) : s.gswOff g = s := by
  refine if_neg fun hgo => ?_
  rw [Bool.and_eq_true, Bool.and_eq_true, Bool.not_eq_true'] at hgo
  obtain ⟨⟨hup, hsw⟩, hnone⟩ := hgo
  rcases h with h | h | h
  · exact nomatch h.symm.trans hup
  · exact nomatch h.symm.trans hsw
  · exact nomatch hnone.symm.trans ((s.groupActive_iff g).mpr h)

/-! ### OFF_ALL -/

theorem Vd.offCmd_inactive (v : Vd) (now : Nat) : vdActive (v.offCmd now).st = false := by
  rw [Vd.offCmd_st]
  cases v.st <;> rfl

theorem State.vdOffCmd_onlyAt (n : Fin 16) (same : Bool) : onlyAt n s.vd (s.vdOffCmd n same).vd := by
  rcases s.vdOffCmd_cases n same with h | ⟨h, -⟩
  · exact (changed_at h).2
  · rw [h]
    exact (changed_at (State.vdRes_vd ..)).2

theorem State.vgOffAll_vd (same : Bool) (n : Fin 16) :
    (inGroup g n.val = true → s.vd[n].limp = false → same = false ∨ s.vd[n].markAt ≠ s.now →
      (s.vgOffAll g same).vd[n] = s.vd[n].offCmd s.now) ∧
    (inGroup g n.val = false ∨ s.vd[n].limp = true → (s.vgOffAll g same).vd[n] = s.vd[n]) := by
  obtain ⟨y, hy, hnow, hin, hout⟩ := valveLoop_at (fun n x => inGroup g n.val && !x.vd[n].limp)
    (fun n x => x.vdOffCmd_touch n same) (by decide) (fun n x => x.vdOffCmd_onlyAt n same) s n
  rw [hy] at hin hout
  refine ⟨fun hn hlimp hcycle => (hin (by rw [hn, hlimp]; rfl)).trans ?_, fun hwhy => hout ?_⟩
  · rw [(changed_at (State.vdOffCmd_vd (by rwa [hy, hnow]))).1, hy, hnow]
  · rcases hwhy with h | h <;> rw [h]
    · rfl
    · exact Bool.and_false _

theorem State.vgOffAll_noted (same : Bool) : s.GroupNoted (s.vgOffAll g same) g :=
  valveLoop_noted (on := fun n x => inGroup g n.val && !x.vd[n].limp) (fun n x => x.vdOffCmd_noted n same)
    (fun n x h => inGroup_iff.mp (Bool.and_eq_true .. ▸ h).1) s

/-! ### VL3 under-voltage -/

theorem State.vgUv_vd (n : Fin 16) :
    (s.vgUv g).vd[n] = if s.vgUp g = true ∧ inGroup g n.val = true then s.vd[n].groupHit 8 s.now else s.vd[n] := by
  unfold State.vgUv
  by_cases hup : s.vgUp g = true
  · rw [if_pos hup, State.groupSwept_vd]
    simp only [hup, true_and]
  · rw [if_neg hup, if_neg fun h => hup h.1]

/-- The state in which VL3's under-voltage has reached HSC and the high-side channels. -/
abbrev State.vl3Low (s : State) (mv us : Nat) : State :=
  forFin 48 (fun n y => y.onlyIf (bankOf n.val = (3 : Fin 4).val) fun y => y.hsBankUv n mv (us * 40))
    (s.hscMarks 3 true true)

theorem State.vl3Low_touch (mv us : Nat) : onlyTouches [.fab, .hs, .hsc, .dig, .adm, .pwr] s (s.vl3Low mv us) :=
  onlyTouches.forFin ((s.hscMarks_touch 3 true true).mono (by decide)) fun n y =>
    onlyTouches.onlyIf (onlyTouches.refl _ y) fun z => (z.hsBankUv_touch n mv (us * 40)).mono (by decide)

/-- After them it reaches the groups, then the strings. -/
theorem State.bankUv_vl3 {mv us : Nat} (hlow : s.bankLow 3 mv us = true) :
    s.bankUv 3 mv us = forFin 3 (fun k y => y.lsUv k mv us) (forFin 4 (fun g y => y.vgUv g) (s.vl3Low mv us)) := by
  have hunfold : s.bankUv 3 mv us =
      (forFin 48 (fun n y => y.onlyIf (bankOf n.val = (3 : Fin 4).val) fun y => y.hsBankUv n mv (us * 40))
        (s.hscMarks 3 (s.bankLow 3 mv us) true)).onlyIf true fun x =>
          forFin 3 (fun k y => y.lsUv k mv us)
            (x.onlyIf (s.bankLow 3 mv us) fun y => forFin 4 (fun g y => y.vgUv g) y) := rfl
  rw [hunfold, hlow, State.onlyIf_true, State.onlyIf_true]

/-- Under-voltage of VL3 acts on every channel of the powered groups (R228). -/
theorem State.bankUv_vd {mv us : Nat} (hlow : s.bankLow 3 mv us = true) (hup : ∀ g : Fin 4, s.vgUp g = true)
    (n : Fin 16) : (s.bankUv 3 mv us).vd[n] = s.vd[n].groupHit 8 s.now := by
  have hx := s.vl3Low_touch mv us
  have hls : (s.bankUv 3 mv us).vd = (forFin 4 (fun g y => y.vgUv g) (s.vl3Low mv us)).vd := by
    rw [s.bankUv_vl3 hlow]
    exact (onlyTouches.forFin (onlyTouches.refl _ _) fun k y => y.lsUv_touch k mv us).same .vd (by decide)
  obtain ⟨y, hy, hview, hloop⟩ := forFin_at (fun x => x.vd[n]) (i := groupOf n) (fun g x => x.vgUv_touch g)
    (fun g x hg => by rw [State.vgUv_vd, if_neg fun h => hg (inGroup_iff.mp h.2)]) (s.vl3Low mv us)
  have hpowered : y.vgUp (groupOf n) = true :=
    (hy.isUp_eq (by decide) _).trans ((hx.isUp_eq (by decide) _).trans (hup _))
  rw [hls, hloop, State.vgUv_vd, if_pos ⟨hpowered, inGroup_iff.mpr rfl⟩, hview, hy.now_eq (by decide),
    hx.now_eq (by decide)]
  exact congrArg (fun v : Vector Vd 16 => v[n].groupHit 8 s.now) (hx.same .vd (by decide))

end

/-- Settles O27: group faults by `State.groupFault_shuts`, OFF_ALL and under-voltage by what a turn of their loops makes
of a channel. -/
theorem valveAndGroupFaultsTurnOff : Obligations.ValveAndGroupFaultsTurnOff := by
  unfold Obligations.ValveAndGroupFaultsTurnOff
  refine ⟨?_, ?_, ?_, ?_, ?_, ?_, ?_, ?_, ?_, ?_, ?_, ?_, ?_, ?_, ?_, ?_, ?_, ?_, ?_, ?_, ?_⟩
  · intro s n ma hup hon hma
    obtain ⟨hat, hothers⟩ := changed_at ((congrArg State.vd (s.vdShort_faults n hup hon hma)).trans (s.vdFault_vd n 1))
    refine ⟨_, rfl, ?_, ?_, ?_, ?_, ?_, hothers, s.vdShort_touch n ma⟩ <;> rw [hat]
    · rfl
    · exact (bit_or ..).trans (Bool.or_true _)
    · exact fld_faultInfo ..
    · rfl
    · rfl
  · intro s n ma ms hup hon hset hma hms
    obtain ⟨hat, hothers⟩ :=
      changed_at ((congrArg State.vd (s.vdOpen_faults n hup hon hset hma hms)).trans (s.vdFault_vd n 2))
    refine ⟨_, rfl, ?_, ?_, ?_, hothers, s.vdOpen_touch n ma ms⟩ <;> rw [hat]
    · rfl
    · exact (bit_or ..).trans (Bool.or_true _)
    · exact fld_faultInfo ..
  · exact fun s n ma h => ⟨_, rfl, s.vdShort_idle n h⟩
  · intro s g ma cycles hup hsw hma hcycles
    have hshut := s.groupFault_shuts g 4 1 0 (by decide)
    rw [← s.groupOc_faults g hup hsw hma hcycles] at hshut
    obtain ⟨hoff, hlatched, hfault, hin, hout, hothers⟩ := hshut
    exact ⟨_, rfl, hoff, hlatched, hfault, hin, hout, hothers, s.groupOc_touch g ma cycles⟩
  · intro s g ma hup hsw hma
    have hshut := s.groupFault_shuts g 5 2 1 (by decide)
    rw [← s.groupSc_faults g hup hsw hma] at hshut
    obtain ⟨hoff, hlatched, hfault, hin, hout, hothers⟩ := hshut
    exact ⟨_, rfl, hoff, hlatched, hfault, hin, hout, hothers, s.groupSc_touch g ma⟩
  · intro s g tj hup htl htj
    have hrow := s.groupThermal_faults g hup htl htj
    have hshut := (s.modVg g fun x => { x.sensed tj with tl := true }).groupFault_shuts g 3 4 2 (by decide)
    obtain ⟨a, hvg⟩ := (s.modVg g fun x => { x.sensed tj with tl := true }).groupFault_vg g 3 4
    rw [← hrow] at hshut hvg
    rw [State.modVg_vg, upd_upd] at hvg
    obtain ⟨hoff, hlatched, hfault, hin, hout, -⟩ := hshut
    obtain ⟨hat, hothers⟩ := changed_at hvg
    refine ⟨_, rfl, hoff, hlatched, hfault, ?_, ?_, hin, hout, hothers, s.groupThermal_touch g tj⟩ <;> rw [hat] <;> rfl
  · intro s g tj hup htl htj
    have hrow := s.groupThermalClear_clears g hup htl htj
    obtain ⟨hat, hothers⟩ := changed_at ((congrArg State.vg hrow).trans (State.modVg_vg ..))
    refine ⟨_, rfl, ?_, ?_, ?_, hothers, (congrArg State.vd hrow).trans (State.modVg_vd ..),
      hrow ▸ s.modVg_touch g _⟩ <;> rw [hat] <;> rfl
  · intro s g hup htmb hsw hready
    have hrow := s.gswFail_faults g hup hsw hready
    have hshut := (s.advanceTo (s.vg[g].swAt + 1000)).groupFault_shuts g 7 8 3 (by decide)
    rw [← hrow, State.advanceTo_vg, State.advanceTo_vd] at hshut
    obtain ⟨hoff, hlatched, hfault, hin, hout, hothers⟩ := hshut
    refine ⟨_, rfl, ?_, hoff, hlatched, hfault, hin, hout, hothers, s.gswFail_touch g⟩
    rw [hrow, (State.groupFault_touch ..).now_eq (by decide), s.advanceTo_now_max _ htmb]
  · intro s g mv hup hsw hmv
    obtain ⟨hat, hothers⟩ :=
      changed_at ((congrArg State.vg (s.gswReady_reports g hup hsw hmv)).trans (State.modVg_vg ..))
    exact ⟨_, rfl, hat, hothers, s.gswReady_touch g mv⟩
  · intro s g hup htmb hsw hidle
    have hrow := s.gswOff_opens g hup hsw hidle
    have hvg := (congrArg State.vg hrow).trans (State.modVg_vg ..)
    rw [State.advanceTo_vg] at hvg
    obtain ⟨hat, hothers⟩ := changed_at hvg
    refine ⟨_, rfl, ?_, hat, hothers, s.gswOff_touch g⟩
    rw [hrow, State.now_congr _ (State.modVg_tmb ..), s.advanceTo_now_max _ htmb]
  · intro s c g same hcan
    refine fires_storeIf (ps := vdRowParts) rfl hcan (fun x => (x.vgOffAll_touch g same).mono (by decide))
      (by decide) fun t ht htouch => ?_
    have hvd (n : Fin 16) := (s.served c).vgOffAll_vd g same n
    have hvg := ((s.served c).vgOffAll_noted g same).onlyAt
    have htvd : ((s.served c).vgOffAll g same).vd = t.vd := by rw [← ht]
    have htvg : ((s.served c).vgOffAll g same).vg = t.vg := by rw [← ht]
    simp only [State.served_vd, State.served_now, htvd] at hvd
    rw [State.served_vg, htvg] at hvg
    refine ⟨fun n hn hlimp hcycle => ?_, fun n _ hlimp => (hvd n).2 (.inr hlimp), fun n hn => (hvd n).2 (.inl hn), hvg,
      htouch⟩
    rw [(hvd n).1 hn hlimp hcycle]
    exact Vd.offCmd_inactive ..
  · intro s mv us hup hmv hus hgroups
    have hvd := s.bankUv_vd ((s.bankLow_iff 3 mv us).2 ⟨hup, hmv, hus⟩) hgroups
    refine ⟨_, rfl, fun n hst => ?_, fun n hst => ?_, s.bankUv_touch 3 mv us⟩ <;> rw [hvd]
    · exact ⟨Vd.groupHit_uv _ _ hst, Vd.groupHit_inactive ..⟩
    · exact Vd.groupHit_gap _ _ _ hst
  · intro s c g hcan
    refine fires_storeIf (ps := [.fab, .answer, .vg, .pmc, .free]) rfl hcan
      (fun x => (x.vgClear_touch g).mono (by decide)) (by decide) fun t ht htouch => ?_
    have hvg : t.vg = _ := (by rw [← ht] : t.vg = ((s.served c).vgClear g).vg).trans (State.modVg_vg ..)
    rw [State.served_vg] at hvg
    obtain ⟨hat, hothers⟩ := changed_at hvg
    exact ⟨hat, hothers, htouch.same .vd (by decide), htouch⟩
  · exact fun s n ma ms h => ⟨_, rfl, s.vdOpen_idle n h⟩
  · exact fun s g ma cycles h => ⟨_, rfl, s.groupOc_idle g h⟩
  · exact fun s g ma h => ⟨_, rfl, s.groupSc_idle g h⟩
  · exact fun s g tj h => ⟨_, rfl, s.groupThermal_idle g h⟩
  · exact fun s g h => ⟨_, rfl, s.gswFail_idle g h⟩
  · exact fun s g mv h => ⟨_, rfl, s.gswReady_idle g h⟩
  · exact fun s g h => ⟨_, rfl, s.gswOff_idle g h⟩
  · exact fun s g tj h => ⟨_, rfl, s.groupThermalClear_idle g h⟩

end Sys2Proof.Machine

/-! ## Lamp strings: EN, ON, OFF, CLEAR, SEG_CLR, the frame period and the dimming curve (R241, R247, R254, R257, R259, R260,
R264, R603, R664)

What a command makes of its string is said once, as a function on its registers. -/

namespace Sys2Proof.Machine

open Claims

/-! ### A store into a string's block -/

/-- The parts that a write of S_CTL or S_CMD may change. -/
abbrev lsRowParts : List Part := [.fab, .answer, .dig, .ls, .adm, .pmc, .free]

/-- A store row that is served and changes one string, by `g`. -/
theorem fires_lsRow {s : State} {i : Instr} {c : Fin 4} {isl : Nat} {k : Fin 3} {f : State → State} {g : Ls → Ls}
    {ps : List Part} {P : State → Prop} (hexec : exec i s = .next (s.storeIf c isl 6 f)) (hcan : canStore s isl 6)
    (htouch : ∀ x, onlyTouches ps x (f x)) (hps : ∀ q ∈ [Part.fab, .answer, .pmc, .free], q ∈ ps)
    (hls : (f (s.served c)).ls = upd (s.served c).ls k g)
    (hP : ∀ t, t.ls[k] = g s.ls[k] → onlyAt k s.ls t.ls → t.answer = .done → t.adm = (f (s.served c)).adm →
      onlyTouches ps s t → P t) : fires i s P := by
  refine fires_storeIf hexec hcan htouch hps fun t ht htouched => ?_
  rw [State.served_ls] at hls
  obtain ⟨hat, hothers⟩ := changed_at hls
  subst ht
  exact hP _ hat hothers rfl rfl htouched

/-- A store row that is served and answers in CMD_RES alone. -/
theorem fires_lsRes {s : State} {i : Instr} {c : Fin 4} {isl r : Nat} {k : Fin 3} {f : State → State}
    {ps : List Part} (hexec : exec i s = .next (s.storeIf c isl 6 f)) (hcan : canStore s isl 6)
    (htouch : ∀ x, onlyTouches ps x (f x)) (hps : ∀ q ∈ [Part.fab, .answer, .pmc, .free], q ∈ ps)
    (hres : f (s.served c) = (s.served c).lsRes k r) :
    fires i s fun t => t.ls[k] = { s.ls[k] with cmdRes := r } ∧ onlyAt k s.ls t.ls ∧ onlyTouches ps s t :=
  fires_lsRow hexec hcan htouch hps ((congrArg State.ls hres).trans (State.lsRes_ls ..))
    fun _ hat hothers _ _ htouched => ⟨hat, hothers, htouched⟩

section
variable (s : State) (k : Fin 3)

@[simp] theorem State.served_lsUp (c : Fin 4) : (s.served c).lsUp k = s.lsUp k :=
  s.isUp_congr (State.served_up ..) _

@[simp] theorem State.served_lsAllIdle (c : Fin 4) : (s.served c).lsAllIdle = s.lsAllIdle := by
  rw [State.lsAllIdle, State.lsAllIdle, State.served_ls]

@[simp] theorem State.zeroAbort_ls (x : Fin 67) : (s.zeroAbort x).ls = s.ls :=
  (s.zeroAbort_touch x).same .ls (by decide)

@[simp] theorem State.capTrigger_ls (x : Fin 67) (trg : Nat) : (s.capTrigger x trg).ls = s.ls :=
  (s.capTrigger_touch x trg).same .ls (by decide)

/-! ### Request, withdraw, stop (R257, R260, R261) -/

theorem State.lsRequest_ls (prio : Nat) (kind : ReqKind) :
    (s.lsRequest k prio kind).ls = upd s.ls k fun l => { l with claimHeld := true, st := .pending } := by
  rw [State.lsRequest, State.toAdm_ls, State.zeroAbort_ls, State.lsEnter_ls, State.modLs_ls, upd_upd]

theorem State.lsRequest_inbox (prio : Nat) (kind : ReqKind) : (s.lsRequest k prio kind).adm.inbox =
    s.adm.inbox ++ [.own (64 + k.val) prio s.ls[k].iCont (fld s.ls[k].start 16 16) 0 kind] := rfl

/-- A string withdrawn into state `st`. -/
def Ls.withdrawn (l : Ls) (st : LsSt) : Ls := { l with claimHeld := false, st := st }

theorem State.lsWithdraw_ls (st : LsSt) : (s.lsWithdraw k st).ls = upd s.ls k fun l => l.withdrawn st := by
  rw [State.lsWithdraw, State.lsEnter_ls, State.toAdm_ls, State.modLs_ls, upd_upd]
  rfl

theorem State.lsWithdraw_inbox (st : LsSt) :
    (s.lsWithdraw k st).adm.inbox = s.adm.inbox ++ [.withdraw (64 + k.val)] := rfl

/-- A string stopped at time `now` into state `st`. -/
def Ls.stopped (l : Ls) (now : Nat) (st : LsSt) : Ls :=
  { l with onUs := l.onUs + (now - l.onAt), claimHeld := false, st := st }

theorem State.lsStop_ls (st : LsSt) (cause : Nat) :
    (s.lsStop k st cause).ls = upd s.ls k fun l => l.stopped s.now st := by
  rw [State.lsStop, State.lsEmit, State.emit_ls, State.capTrigger_ls, State.lsEnter_ls, State.lsRelease_ls,
    State.modLs_ls, upd_upd, upd_upd]
  rfl

/-! ### OFF -/

/-- The string was granted in this cycle: a command that stops it comes too late (R259). -/
abbrev Ls.grantedNow (l : Ls) (same : Bool) (now : Nat) : Bool :=
  same && lsOn l.st && l.markAt == now && l.mark == .grantOn

theorem Ls.grantedNow_of_on {l : Ls} {same : Bool} {now : Nat} (hon : lsOn l.st = true) :
    l.grantedNow same now = (same && l.markAt == now && l.mark == .grantOn) := by
  rw [Ls.grantedNow, hon, Bool.and_true]

theorem Ls.on_of_grantedNow {l : Ls} {same : Bool} {now : Nat} (h : l.grantedNow same now = true) : lsOn l.st = true := by
  simp only [Ls.grantedNow, Bool.and_eq_true] at h
  obtain ⟨⟨⟨-, hon⟩, -⟩, -⟩ := h
  exact hon

/-- What OFF makes of a string at time `now`, where it is not too late (R257). -/
def Ls.offCmd (l : Ls) (now : Nat) : Ls :=
  match l.st with
  | .disabled | .off => { l with cmdRes := 0 }
  | .pending => { l.withdrawn .off with cmdRes := 0 }
  | .ramp | .on => { l.stopped now .off with cmdRes := 0 }
  | .uvWait => { l with cmdRes := 0, st := .off }
  | .latched => { l with cmdRes := 2 }

theorem Ls.offCmd_st (l : Ls) (now : Nat) :
    (l.offCmd now).st = if l.st = .disabled ∨ l.st = .latched then l.st else .off := by
  unfold Ls.offCmd
  cases l.st <;> rfl

theorem Ls.offCmd_cmdRes (l : Ls) (now : Nat) : (l.offCmd now).cmdRes = if l.st = .latched then 2 else 0 := by
  unfold Ls.offCmd
  cases l.st <;> rfl

theorem Ls.offCmd_onUs (l : Ls) (now : Nat) (hon : lsOn l.st = true) :
    (l.offCmd now).onUs = l.onUs + (now - l.onAt) := by
  unfold Ls.offCmd
  cases hst : l.st <;> rw [hst] at hon
  case ramp | on => rfl
  all_goals exact nomatch hon

variable {s k}

theorem State.lsOffCmd_ls {cause : Nat} {same : Bool} (hcycle : s.ls[k].grantedNow same s.now = false) :
    (s.lsOffCmd k cause same).ls = upd s.ls k fun l => l.offCmd s.now := by
  unfold State.lsOffCmd
  dsimp only
  cases hst : s.ls[k].st
  case disabled | off | latched =>
    rw [State.lsRes_ls]
    exact upd_congr (by rw [Ls.offCmd, hst])
  case pending =>
    rw [State.lsRes_ls, State.lsWithdraw_ls, upd_upd]
    exact upd_congr (by rw [Ls.offCmd, hst])
  case ramp | on =>
    rw [Ls.grantedNow_of_on (by rw [hst]; rfl)] at hcycle
    refine (congrArg State.ls (if_neg (by rw [hcycle]; exact Bool.false_ne_true))).trans ?_
    rw [State.lsRes_ls, State.lsStop_ls, upd_upd]
    exact upd_congr (by rw [Ls.offCmd, hst])
  case uvWait =>
    rw [State.lsRes_ls, State.lsEnter_ls, upd_upd]
    exact upd_congr (by rw [Ls.offCmd, hst])

theorem State.lsOffCmd_tooLate {cause : Nat} {same : Bool} (hcycle : s.ls[k].grantedNow same s.now = true) :
    s.lsOffCmd k cause same = s.lsRes k 1 := by
  have hon := Ls.on_of_grantedNow hcycle
  rw [Ls.grantedNow_of_on hon] at hcycle
  unfold State.lsOffCmd
  dsimp only
  cases hst : s.ls[k].st <;> rw [hst] at hon
  case ramp | on => exact if_pos hcycle
  all_goals exact nomatch hon

theorem State.lsOffCmd_inbox (cause : Nat) (same : Bool) (hst : s.ls[k].st = .pending) :
    (s.lsOffCmd k cause same).adm.inbox = s.adm.inbox ++ [.withdraw (64 + k.val)] := by
  unfold State.lsOffCmd
  dsimp only
  rw [hst]
  exact s.lsWithdraw_inbox k .off

/-! ### CLEAR -/

/-- What CLEAR makes of a string (R257). -/
def Ls.clearCmd (l : Ls) : Ls :=
  { l with
    cmdRes := if l.st = .latched ∧ l.tl = true then 2 else 0,
    st := if l.st = .latched ∧ l.tl = false then (if bit l.ctl 0 then .off else .disabled) else l.st }

theorem State.lsClearCmd_ls : (s.lsClearCmd k).ls = upd s.ls k Ls.clearCmd := by
  unfold State.lsClearCmd
  dsimp only
  split
  case h_1 hst =>
    cases htl : s.ls[k].tl
    · rw [if_neg Bool.false_ne_true, State.lsRes_ls, State.lsEnter_ls, upd_upd]
      exact upd_congr (by simp only [Ls.clearCmd, hst, htl, Bool.false_eq_true, and_false, true_and, if_true, if_false])
    · rw [if_pos rfl, State.lsRes_ls]
      exact upd_congr (by simp only [Ls.clearCmd, hst, htl, Bool.true_eq_false, and_false, and_self, if_true, if_false])
  case h_2 hst =>
    have hno (b : Bool) : ¬ (s.ls[k].st = .latched ∧ s.ls[k].tl = b) := fun h => hst h.1
    rw [State.lsRes_ls]
    exact upd_congr (by rw [Ls.clearCmd, if_neg (hno _), if_neg (hno _)])

/-! ### ON -/

/-- What ON makes of a string (R257, R260). -/
def Ls.onCmd (l : Ls) : Ls :=
  match l.st with
  | .disabled | .latched => { l with cmdRes := 2 }
  | .off =>
    if l.tl then { l with cmdRes := 2 }
    else if !l.bankOk then if bit l.ctl 1 then { l with cmdRes := 0, st := .uvWait } else { l with cmdRes := 2 }
    else if l.curveMissing then { l with cmdRes := 3 }
    else { l with cmdRes := 0, claimHeld := true, st := .pending }
  | .pending | .ramp | .on | .uvWait => { l with cmdRes := 4 }

theorem State.lsOnCmd_ls (routed : Bool) : (s.lsOnCmd k routed).ls = upd s.ls k Ls.onCmd := by
  unfold State.lsOnCmd
  dsimp only
  cases hst : s.ls[k].st
  case off =>
    dsimp only
    split_ifs with htl hbank hauto hcurve
    all_goals
      simp only [State.lsRequest_ls, State.lsEnter_ls, State.lsRes_ls, upd_upd]
      refine upd_congr ?_
      simp_all [Ls.onCmd, Ls.b]
  all_goals
    rw [State.lsRes_ls]
    exact upd_congr (by rw [Ls.onCmd, hst])

section
variable {l : Ls}

theorem Ls.onCmd_barred (h : l.st = .disabled ∨ l.st = .latched ∨ l.st = .off ∧ l.tl = true) :
    l.onCmd = { l with cmdRes := 2 } := by
  unfold Ls.onCmd
  rcases h with h | h | ⟨h, htl⟩ <;> rw [h]
  exact if_pos htl

theorem Ls.onCmd_merges (h : l.st = .pending ∨ l.st = .uvWait ∨ lsOn l.st = true) : l.onCmd = { l with cmdRes := 4 } := by
  unfold Ls.onCmd
  cases hst : l.st
  case pending | ramp | on | uvWait => rfl
  all_goals
    rw [hst] at h
    exact absurd h (by decide)

variable (hst : l.st = .off) (htl : l.tl = false)
include hst htl

theorem Ls.onCmd_bankDown (hbank : l.bankOk = false) :
    l.onCmd = { l with cmdRes := if bit l.ctl 1 then 0 else 2, st := if bit l.ctl 1 then .uvWait else .off } := by
  rw [Ls.onCmd, hst]
  simp only [htl, hbank, Bool.false_eq_true, Bool.not_false, if_true, if_false]
  split
  · rfl
  · rw [← hst]

theorem Ls.onCmd_curveMissing (hbank : l.bankOk = true) (hcurve : l.curveMissing = true) :
    l.onCmd = { l with cmdRes := 3 } := by
  rw [Ls.onCmd, hst]
  simp only [htl, hbank, hcurve, Bool.false_eq_true, Bool.not_true, if_true, if_false]

theorem Ls.onCmd_requests (hbank : l.bankOk = true) (hcurve : l.curveMissing = false) :
    l.onCmd = { l with cmdRes := 0, claimHeld := true, st := .pending } := by
  rw [Ls.onCmd, hst]
  simp only [htl, hbank, hcurve, Bool.false_eq_true, Bool.not_true, if_false]

end

section
variable (hst : s.ls[k].st = .off) (htl : s.ls[k].tl = false)
include hst htl

theorem State.lsOnCmd_inbox (routed : Bool) (hbank : s.ls[k].bankOk = true) (hcurve : s.ls[k].curveMissing = false) :
    (s.lsOnCmd k routed).adm.inbox = s.adm.inbox ++
      [.own (64 + k.val) (s.lsPrio k routed) s.ls[k].iCont (fld s.ls[k].start 16 16) 0 .ordinary] := by
  unfold State.lsOnCmd
  dsimp only
  rw [hst]
  simp only [htl, Ls.b, hbank, hcurve, Bool.false_eq_true, Bool.not_true, if_false]
  rw [State.lsRequest_inbox, State.lsRes_ls, upd_get]
  rfl

/-- With the supply bad nothing is requested of ADM. -/
theorem State.lsOnCmd_bankDown_adm (routed : Bool) (hbank : s.ls[k].bankOk = false) :
    (s.lsOnCmd k routed).adm = s.adm := by
  unfold State.lsOnCmd
  dsimp only
  rw [hst]
  simp only [htl, Ls.b, hbank, Bool.false_eq_true, Bool.not_false, if_true, if_false]
  split <;> rfl

end

/-! ### A write of S_CTL -/

theorem bit_lampEnable (w : W32) : bit (keep 0xF7 (w ||| 1)) 0 = true := by
  simp [bit, keep]

theorem bit_lampDisable (w : W32) : bit (keep 0xF7 (w &&& 0xFFFFFFFE)) 0 = false := by
  simp [bit, keep]

section
variable {w : W32} {same : Bool}

/-- EN 1 is stored and takes a DISABLED string to OFF (R257). -/
theorem State.lsCtlWrite_enables (hen : bit (keep 0xF7 w) 0 = true) (hheld : bit s.pwr.holdStat 3 = false) :
    (s.lsCtlWrite k w same).ls = upd s.ls k fun l =>
      { l with ctl := keep 0xF7 w, cmdRes := 0, st := if l.st = .disabled then .off else l.st } := by
  unfold State.lsCtlWrite
  dsimp only
  rw [if_pos hen, if_neg (by rw [hheld]; exact Bool.false_ne_true)]
  by_cases hst : s.ls[k].st = .disabled
  · rw [if_pos (beq_iff_eq.mpr hst), State.lsEnter_ls, State.modLs_ls, upd_upd]
    exact upd_congr (by rw [if_pos hst])
  · rw [if_neg fun h => hst (beq_iff_eq.mp h), State.modLs_ls]
    exact upd_congr (by rw [if_neg hst])

/-- No string is enabled while its pads are held (R603). -/
theorem State.lsCtlWrite_held (hen : bit (keep 0xF7 w) 0 = true) (hheld : bit s.pwr.holdStat 3 = true) :
    s.lsCtlWrite k w same = s.lsRes k 2 :=
  (if_pos hen).trans (if_pos hheld)

/-- A string that EN 0, written as S_CTL `w` at time `now`, has disabled (R257). -/
def Ls.disabledBy (l : Ls) (w : W32) (now : Nat) : Ls :=
  match l.st with
  | .disabled | .latched => { l with ctl := w, cmdRes := 0 }
  | .off | .uvWait => { l with ctl := w, cmdRes := 0, st := .disabled }
  | .pending => { l.withdrawn .disabled with ctl := w, cmdRes := 0 }
  | .ramp | .on => { l.stopped now .disabled with ctl := w, cmdRes := 0 }

theorem Ls.disabledBy_stores (l : Ls) (w : W32) (now : Nat) :
    (l.disabledBy w now).ctl = w ∧ (l.disabledBy w now).cmdRes = 0 := by
  unfold Ls.disabledBy
  cases l.st <;> exact ⟨rfl, rfl⟩

theorem Ls.disabledBy_st (l : Ls) (w : W32) (now : Nat) :
    (l.disabledBy w now).st = if l.st = .latched then .latched else .disabled := by
  unfold Ls.disabledBy
  cases l.st <;> rfl

theorem Ls.disabledBy_onUs (l : Ls) (w : W32) (now : Nat) (hon : lsOn l.st = true) :
    (l.disabledBy w now).onUs = l.onUs + (now - l.onAt) := by
  unfold Ls.disabledBy
  cases hst : l.st <;> rw [hst] at hon
  case ramp | on => rfl
  all_goals exact nomatch hon

section
variable (hen : bit (keep 0xF7 w) 0 = false)
include hen

theorem State.lsCtlWrite_limp (hlimp : s.ls[k].limp = true) : s.lsCtlWrite k w same = s.lsRes k 2 :=
  (if_neg (by rw [hen]; exact Bool.false_ne_true)).trans (if_pos hlimp)

variable (hlimp : s.ls[k].limp = false)
include hlimp

/-- EN 0 outside limp mode and the cycle of the grant is carried out (R257, R259). -/
theorem State.lsCtlWrite_disables (hcycle : s.ls[k].grantedNow same s.now = false) :
    (s.lsCtlWrite k w same).ls = upd s.ls k fun l => l.disabledBy (keep 0xF7 w) s.now := by
  unfold State.lsCtlWrite
  dsimp only
  rw [if_neg (by rw [hen]; exact Bool.false_ne_true), if_neg (by rw [hlimp]; exact Bool.false_ne_true)]
  cases hst : s.ls[k].st
  case disabled | latched =>
    rw [State.modLs_ls]
    exact upd_congr (by rw [Ls.disabledBy, hst])
  case off | uvWait =>
    rw [State.lsEnter_ls, State.modLs_ls, upd_upd]
    exact upd_congr (by rw [Ls.disabledBy, hst])
  case pending =>
    rw [State.modLs_ls, State.lsWithdraw_ls, upd_upd]
    exact upd_congr (by rw [Ls.disabledBy, hst])
  case ramp | on =>
    rw [Ls.grantedNow_of_on (by rw [hst]; rfl)] at hcycle
    refine (congrArg State.ls (if_neg (by rw [hcycle]; exact Bool.false_ne_true))).trans ?_
    rw [State.modLs_ls, State.lsStop_ls, upd_upd]
    exact upd_congr (by rw [Ls.disabledBy, hst])

theorem State.lsCtlWrite_tooLate (hcycle : s.ls[k].grantedNow same s.now = true) :
    s.lsCtlWrite k w same = s.lsRes k 1 := by
  have hon := Ls.on_of_grantedNow hcycle
  rw [Ls.grantedNow_of_on hon] at hcycle
  unfold State.lsCtlWrite
  dsimp only
  rw [if_neg (by rw [hen]; exact Bool.false_ne_true), if_neg (by rw [hlimp]; exact Bool.false_ne_true)]
  cases hst : s.ls[k].st <;> rw [hst] at hon
  case ramp | on => exact if_pos hcycle
  all_goals exact nomatch hon

theorem State.lsCtlWrite_inbox (hst : s.ls[k].st = .pending) :
    (s.lsCtlWrite k w same).adm.inbox = s.adm.inbox ++ [.withdraw (64 + k.val)] := by
  unfold State.lsCtlWrite
  dsimp only
  rw [if_neg (by rw [hen]; exact Bool.false_ne_true), if_neg (by rw [hlimp]; exact Bool.false_ne_true), hst]
  exact s.lsWithdraw_inbox k .disabled

end

end

/-! ### A write of S_CMD -/

section
variable {on off clear same : Bool}

/-- Commands of firmware are refused in limp mode (R264), and when more than one is written (R664). -/
theorem State.lsCmdWrite_refused (hsome : (on || off || clear) = true)
    (h : s.ls[k].limp = true ∨ (on && off || on && clear || off && clear) = true) :
    s.lsCmdWrite k on off clear same 0 = s.lsRes k 2 := by
  refine (if_neg (by rw [hsome]; exact Bool.false_ne_true)).trans ?_
  by_cases hmany : (on && off || on && clear || off && clear) = true
  · exact if_pos hmany
  · exact (if_neg hmany).trans (if_pos (h.resolve_right hmany))

theorem State.lsCmdWrite_on (hlimp : s.ls[k].limp = false) :
    s.lsCmdWrite k true false false same 0 = s.lsOnCmd k false := by
  rw [State.lsCmdWrite, hlimp]
  rfl

theorem State.lsCmdWrite_off (hlimp : s.ls[k].limp = false) :
    s.lsCmdWrite k false true false same 0 = s.lsOffCmd k 0 same := by
  rw [State.lsCmdWrite, hlimp]
  rfl

theorem State.lsCmdWrite_clear (hlimp : s.ls[k].limp = false) :
    s.lsCmdWrite k false false true same 0 = s.lsClearCmd k := by
  rw [State.lsCmdWrite, hlimp]
  rfl

/-- Segment marks chosen by `mask` clear at the next frame start (R254). -/
def Ls.segsCleared (l : Ls) (mask : Nat) : Ls :=
  { l with segs := Vector.ofFn fun i : Fin 8 =>
      { l.segs[i] with clr := l.segs[i].clr || mask.testBit i.val } }

theorem Ls.segsCleared_seg (l : Ls) (mask : Nat) (i : Fin 8) :
    (l.segsCleared mask).segs[i] = { l.segs[i] with clr := l.segs[i].clr || mask.testBit i.val } := by
  simp only [Ls.segsCleared, Fin.getElem_fin, Vector.getElem_ofFn]

theorem Ls.segsCleared_none (l : Ls) : l.segsCleared 0 = l := by
  have hsegs : (l.segsCleared 0).segs = l.segs := by
    ext1 j hj
    simp [Ls.segsCleared]
  exact congrArg (fun v => { l with segs := v }) hsegs

theorem State.lsSegClr_ls (mask : Nat) : (s.lsSegClr k mask).ls = upd s.ls k fun l => l.segsCleared mask := by
  rw [State.lsSegClr, State.modLs_ls]
  refine upd_congr (congrArg (fun v => { s.ls[k] with segs := v }) (congrArg Vector.ofFn (funext fun i => ?_)))
  cases hbit : mask.testBit i.val
  · rw [if_neg Bool.false_ne_true, Bool.or_false]
  · rw [if_pos rfl, Bool.or_true]

theorem State.lsCmdWrite_segClr (m : BitVec 8) : (s.lsCmdWrite k false false false same m.toNat).ls =
    upd s.ls k fun l => l.segsCleared m.toNat := by
  have hrow : s.lsCmdWrite k false false false same m.toNat =
      if m.toNat % 256 = 0 then s else s.lsSegClr k m.toNat := rfl
  rw [hrow, Nat.mod_eq_of_lt m.isLt]
  split
  next hnone => exact (upd_self _ _ _ (by rw [hnone, Ls.segsCleared_none])).symm
  next => exact State.lsSegClr_ls _

end

section
variable {i : Instr} {c : Fin 4} {on off clear same : Bool} {isl segClr : Nat}

/-- A store to S_CMD that is served and changes its string by `g`. -/
theorem fires_sCmd {g : Ls → Ls} {P : State → Prop}
    (hexec : exec i s = .next (s.storeIf c isl 6 fun x => x.lsCmdWrite k on off clear same segClr))
    (hcan : canStore s isl 6)
    (hls : ((s.served c).lsCmdWrite k on off clear same segClr).ls = upd (s.served c).ls k g)
    (hP : ∀ t, t.ls[k] = g s.ls[k] → onlyAt k s.ls t.ls →
      t.adm = ((s.served c).lsCmdWrite k on off clear same segClr).adm → onlyTouches lsRowParts s t → P t) :
    fires i s P :=
  fires_lsRow hexec hcan (fun x => (x.lsCmdWrite_touch ..).mono (by decide)) (by decide) hls
    fun t hat hothers _ hadm htouched => hP t hat hothers hadm htouched

/-- A store to S_CMD in limp mode or with more than one command (R264, R664). -/
theorem fires_sCmd_refused
    (hexec : exec i s = .next (s.storeIf c isl 6 fun x => x.lsCmdWrite k on off clear same 0))
    (hcan : canStore s isl 6) (hsome : (on || off || clear) = true)
    (h : s.ls[k].limp = true ∨ (on && off || on && clear || off && clear) = true) :
    fires i s fun t => t.ls[k] = { s.ls[k] with cmdRes := 2 } ∧ onlyAt k s.ls t.ls ∧ onlyTouches lsRowParts s t :=
  fires_lsRes hexec hcan (fun x => (x.lsCmdWrite_touch ..).mono (by decide)) (by decide)
    (State.lsCmdWrite_refused hsome (by rwa [State.served_ls]))

end

/-! ### The row of ON, which carries the string's measurement of VL3 (R260) -/

/-- A string that has measured VL3. -/
def Ls.measured (v3 : Nat) (l : Ls) : Ls := { l with v3 := v3 }

/-- The state in which LAMP_ON meets its string. -/
abbrev State.lampOnStart (s : State) (c : Fin 4) (k : Fin 3) (v3 : W16) : State :=
  (s.served c).modLs k (Ls.measured v3.toNat)

section
variable {c : Fin 4} {v3 : W16}

theorem State.lampOnStart_at : (s.lampOnStart c k v3).ls[k] = s.ls[k].measured v3.toNat := by
  rw [State.modLs_ls, upd_get, State.served_ls]

/-- The row of ON, served, that changes its string by `g`. -/
theorem fires_lampOnRow {multi : Bool} {g : Ls → Ls} {P : State → Prop} (hcan : canStore s (islLs k.val) 6)
    (hls : ((s.lampOnStart c k v3).lsCmdWrite k true multi false false 0).ls = upd (s.lampOnStart c k v3).ls k g)
    (hP : ∀ t, t.ls[k] = g (s.ls[k].measured v3.toNat) → onlyAt k s.ls t.ls →
      t.adm = ((s.lampOnStart c k v3).lsCmdWrite k true multi false false 0).adm → onlyTouches lsRowParts s t → P t) :
    fires (.lampOn c k v3 multi) s P := by
  rw [State.modLs_ls, upd_upd] at hls
  exact fires_lsRow rfl hcan
    (fun x => ((x.modLs_touch k _).mono (by decide)).step ((State.lsCmdWrite_touch ..).mono (by decide))) (by decide) hls
    fun t hat hothers _ hadm htouched => hP t hat hothers hadm htouched

/-- ON alone, outside limp mode, is carried out. -/
theorem fires_lampOn {P : State → Prop} (hcan : canStore s (islLs k.val) 6) (hlimp : s.ls[k].limp = false)
    (hP : ∀ t, t.ls[k] = (s.ls[k].measured v3.toNat).onCmd → onlyAt k s.ls t.ls →
      t.adm = ((s.lampOnStart c k v3).lsOnCmd k false).adm → onlyTouches lsRowParts s t → P t) :
    fires (.lampOn c k v3 false) s P := by
  have hrow : (s.lampOnStart c k v3).lsCmdWrite k true false false false 0 = _ :=
    State.lsCmdWrite_on (by rw [State.lampOnStart_at]; exact hlimp)
  exact fires_lampOnRow hcan ((congrArg State.ls hrow).trans (State.lsOnCmd_ls false))
    fun t hat hothers hadm htouched => hP t hat hothers (hadm.trans (congrArg State.adm hrow)) htouched

/-- ON that ends with a result in CMD_RES alone. -/
theorem fires_lampOn_res {r : Nat} (hcan : canStore s (islLs k.val) 6) (hlimp : s.ls[k].limp = false)
    (hres : (s.ls[k].measured v3.toNat).onCmd = { s.ls[k].measured v3.toNat with cmdRes := r }) :
    fires (.lampOn c k v3 false) s fun t =>
      t.ls[k] = { s.ls[k] with v3 := v3.toNat, cmdRes := r } ∧ onlyAt k s.ls t.ls ∧ onlyTouches lsRowParts s t :=
  fires_lampOn hcan hlimp fun _ hat hothers _ htouched => ⟨hat.trans hres, hothers, htouched⟩

/-- ON in limp mode, or written with another command (R264, R664). -/
theorem fires_lampOn_refused {multi : Bool} (hcan : canStore s (islLs k.val) 6)
    (hwhy : s.ls[k].limp = true ∨ multi = true) :
    fires (.lampOn c k v3 multi) s fun t =>
      t.ls[k] = { s.ls[k] with v3 := v3.toNat, cmdRes := 2 } ∧ onlyAt k s.ls t.ls ∧ onlyTouches lsRowParts s t := by
  have hrow : (s.lampOnStart c k v3).lsCmdWrite k true multi false false 0 = _ :=
    State.lsCmdWrite_refused rfl
      (hwhy.imp (fun h => by rw [State.lampOnStart_at]; exact h) fun h => by rw [h]; rfl)
  exact fires_lampOnRow hcan ((congrArg State.ls hrow).trans (State.lsRes_ls ..))
    fun _ hat hothers _ htouched => ⟨hat, hothers, htouched⟩

end

/-! ### The frame period -/

/-- A write of LMP.CFG.PER reaches every powered string when all are idle (R241). -/
theorem State.lmpPerWrite_idle (p : BitVec 3) (hidle : s.lsAllIdle = true) :
    (∀ k : Fin 3, (s.lmpPerWrite p.toNat).ls[k] = if s.lsUp k then { s.ls[k] with per := p.toNat } else s.ls[k]) ∧
      (s.lmpPerWrite p.toNat).lmpErr = false := by
  have hcut : p.toNat % 8 = p.toNat := Nat.mod_eq_of_lt p.isLt
  rw [State.lmpPerWrite, if_pos hidle, hcut]
  refine ⟨fun k => ?_, rfl⟩
  obtain ⟨y, hy, hview, hloop⟩ := forFin_at (ps := [.ls])
    (op := fun k x => x.onlyIf (x.lsUp k) fun x => x.modLs k fun l => { l with per := p.toNat }) (i := k)
    (fun x => x.ls[k]) (fun j x => onlyTouches.onlyIf (onlyTouches.refl _ x) fun z => z.modLs_touch j _)
    (fun j x hj => by
      cases x.lsUp j
      · rfl
      · exact upd_get_ne _ _ _ _ (Ne.symm hj)) s
  refine hloop.trans ?_
  have hup : y.lsUp k = s.lsUp k := hy.isUp_eq (by decide) _
  rw [hup]
  cases s.lsUp k
  · exact hview
  · rw [State.onlyIf_true, State.modLs_ls, upd_get, if_pos rfl, hview]

theorem State.lmpPerWrite_busy (per : Nat) (hidle : s.lsAllIdle = false) : s.lmpPerWrite per = { s with lmpErr := true } :=
  if_neg (by rw [hidle]; exact Bool.false_ne_true)

/-! ### The dimming curve -/

section
variable {w : W32}

theorem State.lsDimWrite_copies (hst : s.ls[k].st = .disabled ∨ s.ls[k].st = .off ∨ s.ls[k].st = .latched)
    (hbase : fld w 0 12 ≤ 4031) :
    (s.lsDimWrite k w).ls = upd s.ls k fun l =>
      { l with
        dim := keep 0xFFF w, dimLoaded := false, cmdRes := 0,
        copy := { busy := true, base := fld w 0 12, len := 65 } } := by
  refine congrArg State.ls (if_pos ?_)
  rw [decide_eq_true hbase, Bool.and_true]
  rcases hst with h | h | h <;> rw [h] <;> rfl

theorem State.lsDimWrite_bad
    (h : s.ls[k].st = .pending ∨ s.ls[k].st = .ramp ∨ s.ls[k].st = .on ∨ s.ls[k].st = .uvWait ∨ 4031 < fld w 0 12) :
    s.lsDimWrite k w = s.lsRes k 3 := by
  refine if_neg ?_
  rw [Bool.and_eq_true, decide_eq_true_eq]
  rintro ⟨hst, hbase⟩
  rcases h with h | h | h | h | h
  case inr.inr.inr.inr => omega
  all_goals
    rw [h] at hst
    exact nomatch hst

end

theorem State.lsDimDone_loads (hup : s.lsUp k = true) (hbusy : s.ls[k].copy.busy = true) (hmeas : s.isUp 2 = true) :
    (s.lsDimDone k).ls = upd s.ls k fun l =>
      { l with
        updPend := true, dimNext := s.curve.range l.copy.base 65, dimLoaded := true,
        copy := { l.copy with busy := false } } := by
  rw [State.lsDimDone, if_pos (by rw [hup, hbusy, hmeas]; rfl), State.modLs_ls]

theorem State.lsDimDone_idle (h : s.lsUp k = false ∨ s.ls[k].copy.busy = false ∨ s.isUp 2 = false) : s.lsDimDone k = s :=
  if_neg (by grind)

end

/-- Settles O28, by what each command makes of its string: `Ls.onCmd`, `Ls.offCmd`, `Ls.clearCmd` and `Ls.disabledBy`. -/
theorem lampCommandsFollowTheTable : Obligations.LampCommandsFollowTheTable := by
  unfold Obligations.LampCommandsFollowTheTable
  refine ⟨?_, ?_, ?_, ?_, ?_, ?_, ?_, ?_, ?_, ?_, ?_, ?_, ?_, ?_, ?_, ?_, ?_, ?_, ?_, ?_, ?_, ?_, ?_⟩
  · intro s c k w same hcan hheld
    exact fires_lsRow (ps := lsRowParts) rfl hcan (fun x => (x.lsCtlWrite_touch k _ same).mono (by decide)) (by decide)
      (State.lsCtlWrite_enables (bit_lampEnable w) (by rwa [State.served_pwr]))
      fun t hat hothers hdone _ htouched => ⟨hat, hothers, hdone, htouched⟩
  · intro s c k w same hcan hheld
    exact fires_lsRes rfl hcan (fun x => (x.lsCtlWrite_touch k _ same).mono (by decide)) (by decide)
      (State.lsCtlWrite_held (bit_lampEnable w) (by rwa [State.served_pwr]))
  · intro s c k w same hcan hlimp hcycle
    have hlimp' : (s.served c).ls[k].limp = false := by rwa [State.served_ls]
    refine fires_lsRow (ps := lsRowParts) rfl hcan (fun x => (x.lsCtlWrite_touch k _ same).mono (by decide)) (by decide)
      (State.lsCtlWrite_disables (bit_lampDisable w) hlimp' (by rwa [State.served_ls, State.served_now]))
      fun t hat hothers _ hadm htouched => ?_
    rw [State.served_now] at hat
    rw [hat, hadm]
    obtain ⟨hctl, hres⟩ := Ls.disabledBy_stores s.ls[k] (keep 0xF7 (w &&& 0xFFFFFFFE)) s.now
    refine ⟨fun hst => ?_, hctl, hres, Ls.disabledBy_st .., Ls.disabledBy_onUs _ _ _, hothers, htouched⟩
    rw [State.lsCtlWrite_inbox (bit_lampDisable w) hlimp' (by rwa [State.served_ls]), State.served_adm]
  · intro s c k w same hcan hlimp hcycle
    exact fires_lsRes rfl hcan (fun x => (x.lsCtlWrite_touch k _ same).mono (by decide)) (by decide)
      (State.lsCtlWrite_tooLate (bit_lampDisable w) (by rwa [State.served_ls])
        (by rwa [State.served_ls, State.served_now]))
  · intro s c k w same hcan hlimp
    exact fires_lsRes rfl hcan (fun x => (x.lsCtlWrite_touch k _ same).mono (by decide)) (by decide)
      (State.lsCtlWrite_limp (bit_lampDisable w) (by rwa [State.served_ls]))
  · intro s c k v3 hcan hlimp hst htl hbank hcurve
    refine fires_lampOn hcan hlimp fun t hat hothers hadm htouched => ?_
    have hinbox := (congrArg Adm.inbox hadm).trans (State.lsOnCmd_inbox (by rwa [State.lampOnStart_at])
      (by rwa [State.lampOnStart_at]) false (by rwa [State.lampOnStart_at]) (by rwa [State.lampOnStart_at]))
    rw [State.lampOnStart_at, State.lsPrio, State.lampOnStart_at, State.modLs_adm, State.served_adm] at hinbox
    have hreq : (s.ls[k].measured v3.toNat).onCmd = _ := Ls.onCmd_requests hst htl hbank hcurve
    rw [hat, hreq]
    exact ⟨rfl, rfl, rfl, rfl, hinbox, hothers, htouched⟩
  · intro s c k v3 hcan hlimp hst htl hbank
    refine fires_lampOn hcan hlimp fun t hat hothers hadm htouched => ?_
    rw [State.lsOnCmd_bankDown_adm (by rwa [State.lampOnStart_at]) (by rwa [State.lampOnStart_at]) false
      (by rwa [State.lampOnStart_at]), State.modLs_adm, State.served_adm] at hadm
    rw [hat, hadm]
    exact ⟨Ls.onCmd_bankDown hst htl hbank, rfl, hothers, htouched⟩
  · exact fun s c k v3 hcan hlimp hwhy => fires_lampOn_res hcan hlimp (Ls.onCmd_barred hwhy)
  · exact fun s c k v3 hcan hlimp hwhy => fires_lampOn_res hcan hlimp (Ls.onCmd_merges hwhy)
  · exact fun s c k v3 hcan hlimp hst htl hbank hcurve =>
      fires_lampOn_res hcan hlimp (Ls.onCmd_curveMissing hst htl hbank hcurve)
  · exact fun s c k v3 multi hcan hwhy => fires_lampOn_refused hcan hwhy
  · intro s c k multi same hcan hwhy
    exact fires_sCmd_refused rfl hcan (by cases multi <;> rfl) (hwhy.imp_right fun h => by rw [h]; rfl)
  · intro s c k multi hcan hwhy
    exact fires_sCmd_refused rfl hcan (by cases multi <;> rfl) (hwhy.imp_right fun h => by rw [h]; rfl)
  · intro s c k same hcan hlimp hcycle
    have hrow : (s.served c).lsCmdWrite k false true false same 0 = _ := State.lsCmdWrite_off (by rwa [State.served_ls])
    have hls := (congrArg State.ls hrow).trans (State.lsOffCmd_ls (by rwa [State.served_ls, State.served_now]))
    rw [State.served_now] at hls
    refine fires_sCmd rfl hcan hls fun t hat hothers hadm htouched => ?_
    rw [hat, hadm]
    refine ⟨Ls.offCmd_st .., Ls.offCmd_cmdRes .., Ls.offCmd_onUs _ _, fun hst => ?_, hothers, htouched⟩
    rw [hrow, State.lsOffCmd_inbox 0 same (by rwa [State.served_ls]), State.served_adm]
  · intro s c k same hcan hlimp hcycle
    exact fires_lsRes rfl hcan (fun x => (x.lsCmdWrite_touch ..).mono (by decide)) (by decide)
      ((State.lsCmdWrite_off (by rwa [State.served_ls])).trans
        (State.lsOffCmd_tooLate (by rwa [State.served_ls, State.served_now])))
  · intro s c k hcan hlimp
    have hrow : (s.served c).lsCmdWrite k false false true false 0 = _ :=
      State.lsCmdWrite_clear (by rwa [State.served_ls])
    exact fires_sCmd rfl hcan ((congrArg State.ls hrow).trans State.lsClearCmd_ls)
      fun t hat hothers _ htouched => ⟨hat, hothers, htouched⟩
  · intro s c k m hcan
    refine fires_sCmd rfl hcan (State.lsCmdWrite_segClr m) fun t hat hothers _ htouched => ?_
    rw [hat]
    exact ⟨Ls.segsCleared_seg _ _, rfl, hothers, htouched⟩
  · intro s c p hcan hidle
    refine fires_storeIf (ps := [.fab, .answer, .lmpErr, .ls, .pmc, .free]) rfl hcan
      (fun x => (x.lmpPerWrite_touch _).mono (by decide)) (by decide) fun t ht htouched => ?_
    obtain ⟨hls, herr⟩ := State.lmpPerWrite_idle (s := s.served c) p (by rwa [State.served_lsAllIdle])
    simp only [State.served_ls, State.served_lsUp] at hls
    subst ht
    exact ⟨hls, herr, htouched⟩
  · intro s c p hcan hidle
    refine fires_storeIf (ps := [.fab, .answer, .lmpErr, .ls, .pmc, .free]) rfl hcan
      (fun x => (x.lmpPerWrite_touch _).mono (by decide)) (by decide) fun t ht htouched => ?_
    rw [State.lmpPerWrite_busy _ (by rwa [State.served_lsAllIdle])] at ht
    subst ht
    exact ⟨State.served_ls .., rfl, htouched⟩
  · intro s c k w hcan hst hbase
    refine fires_lsRow (ps := [.fab, .answer, .ls, .pmc, .free]) rfl hcan
      (fun x => (x.lsDimWrite_touch k w).mono (by decide)) (by decide)
      (State.lsDimWrite_copies (by rwa [State.served_ls]) hbase) fun t hat hothers _ _ htouched => ?_
    rw [hat]
    exact ⟨rfl, rfl, rfl, rfl, rfl, hothers, htouched⟩
  · intro s c k w hcan hwhy
    exact fires_lsRes rfl hcan (fun x => (x.lsDimWrite_touch k w).mono (by decide)) (by decide)
      (State.lsDimWrite_bad (by rwa [State.served_ls]))
  · intro s k hup hbusy hmeas
    obtain ⟨hat, hothers⟩ := changed_at (State.lsDimDone_loads hup hbusy hmeas)
    refine ⟨_, rfl, ?_, ?_, ?_, ?_, ?_, hothers, s.lsDimDone_touch k⟩ <;> rw [hat]
  · exact fun s k h => ⟨_, rfl, State.lsDimDone_idle h⟩

end Sys2Proof.Machine

/-! ## Lamp strings: open segments, string faults, saturation and the thermal latch (R248, R249, R255, R257) -/

namespace Sys2Proof.Machine

open Claims

/-! ### Fields of FAULT_INFO -/

/-- Bit `j` of a field read from a packed register is set where one of the packed values sets it. -/
theorem testBit_fld_pack (fs : List (Nat × Nat × Nat)) (lo w j : Nat) :
    (fld (pack fs) lo w).testBit j = (decide (j < w) && (decide (lo + j < 32) && fs.any fun f =>
      decide (f.1 ≤ lo + j) && (decide (lo + j - f.1 < f.2.1) && f.2.2.testBit (lo + j - f.1)))) := by
  have hfold (a n : Nat) : (fs.foldl (fun a f => a ||| ((f.2.2 % 2 ^ f.2.1) <<< f.1)) a).testBit n =
      (a.testBit n || fs.any fun f => decide (f.1 ≤ n) && (decide (n - f.1 < f.2.1) && f.2.2.testBit (n - f.1))) := by
    induction fs generalizing a with
    | nil => simp
    | cons f fs ih => simp [ih, Nat.testBit_or, Nat.testBit_shiftLeft, Nat.testBit_mod_two_pow, Bool.or_assoc]
  simp only [fld, pack, Nat.testBit_mod_two_pow, Nat.testBit_shiftRight, BitVec.toNat_ofNat, hfold, Nat.zero_testBit,
    Bool.false_or]

section
variable (cause st seg il : Nat)

theorem fld_lampFaultInfo_cause :
    fld (pack [(0, 4, cause), (4, 4, st), (8, 3, seg), (16, 16, il)]) 0 4 = cause % 2 ^ 4 := by
  refine Nat.eq_of_testBit_eq fun j => ?_
  rw [testBit_fld_pack, Nat.testBit_mod_two_pow]
  by_cases hj : j < 4
  · simp [hj, show ¬ 4 ≤ j by omega, show ¬ 8 ≤ j by omega, show ¬ 16 ≤ j by omega, show j < 32 by omega]
  · simp [hj]

theorem fld_lampFaultInfo_seg :
    fld (pack [(0, 4, cause), (4, 4, st), (8, 3, seg), (16, 16, il)]) 8 3 = seg % 2 ^ 3 := by
  refine Nat.eq_of_testBit_eq fun j => ?_
  rw [testBit_fld_pack, Nat.testBit_mod_two_pow]
  by_cases hj : j < 3
  · simp [hj, show ¬ 8 + j < 4 by omega, show ¬ 8 + j - 4 < 4 by omega, show ¬ 16 ≤ 8 + j by omega,
      show 8 + j < 32 by omega]
  · simp [hj]

end

section
variable (s : State) (k : Fin 3)

/-! ### A fault latches the string -/

/-- A string with a fault recorded: FAULT, FAULT_TIME and FAULT_INFO (R255). -/
def Ls.recorded (l : Ls) (cause seg : Nat) (fb : W32) (il count : Nat) : Ls :=
  { l with
    fault := l.fault ||| fb, faultTime := count,
    faultInfo := pack [(0, 4, cause), (4, 4, l.st.code), (8, 3, seg), (16, 16, il)] }

/-- A string that a fault has latched at time `now` (R257). -/
def Ls.latchedAt (l : Ls) (now : Nat) : Ls :=
  match l.st with
  | .ramp | .on => l.stopped now .latched
  | .pending => l.withdrawn .latched
  | .disabled | .off | .uvWait | .latched => { l with st := .latched }

theorem Ls.latchedAt_st (l : Ls) (now : Nat) : (l.latchedAt now).st = .latched := by
  unfold Ls.latchedAt
  cases l.st <;> rfl

theorem Ls.latchedAt_onUs (l : Ls) (now : Nat) (hon : lsOn l.st = true) :
    (l.latchedAt now).onUs = l.onUs + (now - l.onAt) := by
  unfold Ls.latchedAt
  cases hst : l.st <;> rw [hst] at hon
  case ramp | on => rfl
  all_goals exact nomatch hon

/-- Latching keeps the record of the fault, the segments and the sensor. -/
theorem Ls.latchedAt_keeps (l : Ls) (now : Nat) :
    (l.latchedAt now).fault = l.fault ∧ (l.latchedAt now).faultTime = l.faultTime ∧
    (l.latchedAt now).faultInfo = l.faultInfo ∧ (l.latchedAt now).segs = l.segs ∧ (l.latchedAt now).tl = l.tl ∧
    (l.latchedAt now).tj = l.tj := by
  unfold Ls.latchedAt
  cases l.st <;> exact ⟨rfl, rfl, rfl, rfl, rfl, rfl⟩

/-- A string that a fault has recorded and latched. -/
abbrev Ls.faulted (l : Ls) (cause seg : Nat) (fb : W32) (il count now : Nat) : Ls :=
  (l.recorded cause seg fb il count).latchedAt now

theorem State.lsFault_ls (cause seg : Nat) (fb : W32) : (s.lsFault k cause seg fb).ls =
    upd s.ls k fun l => l.faulted cause seg fb (s.lastTenMa (tLs k)) s.count s.now := by
  unfold State.lsFault
  dsimp only
  rw [State.lsEmit, State.emit_ls]
  split
  case h_1 hst | h_2 hst =>
    rw [State.lsStop_ls, State.capTrigger_ls, State.lsEmit, State.emit_ls, State.modLs_ls, upd_upd]
    refine upd_congr ?_
    rw [Ls.faulted, Ls.latchedAt, show (s.ls[k].recorded ..).st = _ from hst]
    rfl
  case h_3 hst =>
    rw [State.lsWithdraw_ls, State.capTrigger_ls, State.lsEmit, State.emit_ls, State.modLs_ls, upd_upd]
    refine upd_congr ?_
    rw [Ls.faulted, Ls.latchedAt, show (s.ls[k].recorded ..).st = _ from hst]
    rfl
  case h_4 hramp hon hpend =>
    rw [State.lsEnter_ls, State.capTrigger_ls, State.lsEmit, State.emit_ls, State.modLs_ls, upd_upd]
    refine upd_congr ?_
    rw [Ls.faulted, Ls.latchedAt]
    cases hst : (s.ls[k].recorded cause seg fb (s.lastTenMa (tLs k)) s.count).st
    case ramp => exact absurd hst hramp
    case on => exact absurd hst hon
    case pending => exact absurd hst hpend
    all_goals rfl

/-- String `l` has become `g` by a fault of cause `cause` at time `now`: latched, FAULT bit `b` and the record set, the
time lit counted (R255, R257). -/
abbrev Ls.Latched (l g : Ls) (cause b count now : Nat) : Prop :=
  g.st = .latched ∧ bit g.fault b = true ∧ fld g.faultInfo 0 4 = cause ∧ g.faultTime = count ∧
    (lsOn l.st = true → g.onUs = l.onUs + (now - l.onAt))

/-- A fault latches the string, records the segment it came from, and keeps the segments and the sensor. -/
theorem State.lsFault_latches {cause b : Nat} (seg : Nat) {fb : W32} (hcause : cause < 16) (hbit : bit fb b = true) :
    s.ls[k].Latched (s.lsFault k cause seg fb).ls[k] cause b s.count s.now ∧
    fld (s.lsFault k cause seg fb).ls[k].faultInfo 8 3 = seg % 2 ^ 3 ∧
    (s.lsFault k cause seg fb).ls[k].segs = s.ls[k].segs ∧
    (s.lsFault k cause seg fb).ls[k].tl = s.ls[k].tl ∧ (s.lsFault k cause seg fb).ls[k].tj = s.ls[k].tj ∧
    onlyAt k s.ls (s.lsFault k cause seg fb).ls := by
  obtain ⟨hat, hothers⟩ := changed_at (s.lsFault_ls k cause seg fb)
  obtain ⟨hfault, htime, hinfo, hsegs, htl, htj⟩ :=
    (s.ls[k].recorded cause seg fb (s.lastTenMa (tLs k)) s.count).latchedAt_keeps s.now
  rw [hat]
  refine ⟨⟨Ls.latchedAt_st .., ?_, ?_, htime, fun hon => Ls.latchedAt_onUs _ _ hon⟩, ?_, hsegs, htl, htj, hothers⟩
  · rw [hfault, Ls.recorded, bit_or, hbit, Bool.or_true]
  · rw [hinfo]
    exact (fld_lampFaultInfo_cause ..).trans (Nat.mod_eq_of_lt hcause)
  · rw [hinfo]
    exact fld_lampFaultInfo_seg ..

/-- What a row that latches the string by a fault leaves (R255, R257). -/
theorem fires_lsFault {s : State} {k : Fin 3} {i : Instr} {cause b : Nat} {fb : W32}
    (hexec : exec i s = .next (s.lsFault k cause 0 fb)) (hcause : cause < 16) (hbit : bit fb b = true) :
    fires i s fun t =>
      t.ls[k].st = .latched ∧ bit t.ls[k].fault b = true ∧ fld t.ls[k].faultInfo 0 4 = cause ∧
      t.ls[k].faultTime = s.count ∧ (lsOn s.ls[k].st = true → t.ls[k].onUs = s.ls[k].onUs + (s.now - s.ls[k].onAt)) ∧
      onlyAt k s.ls t.ls ∧ onlyTouches [.fab, .dig, .ls, .adm] s t := by
  obtain ⟨⟨hst, hfault, hinfo, htime, hon⟩, -, -, -, -, hothers⟩ := s.lsFault_latches k 0 hcause hbit
  exact ⟨_, hexec, hst, hfault, hinfo, htime, hon, hothers, s.lsFault_touch ..⟩

theorem State.lsShort_faults {buckMa ma us : Nat} (hup : s.lsUp k = true) (hon : lsOn s.ls[k].st = true)
    (hma : ma + 200 < buckMa) (hus : 50 ≤ us) : s.lsShort k buckMa ma us = s.lsFault k 2 0 2 :=
  if_pos (by rw [hup, hon, decide_eq_true hma, decide_eq_true hus]; rfl)

theorem State.lsShort_idle {buckMa ma us : Nat} (h : lsOn s.ls[k].st = false ∨ buckMa ≤ ma + 200 ∨ us < 50) :
    s.lsShort k buckMa ma us = s :=
  if_neg (by grind)

theorem State.lsOpen_faults {ma us : Nat} (hup : s.lsUp k = true) (hst : s.ls[k].st = .on)
    (hma : 2 * ma < s.ls[k].setMa s.now) (hus : 1000 ≤ us) : s.lsOpen k ma us true = s.lsFault k 1 0 1 :=
  if_pos (by rw [hup, hst, decide_eq_true hma, decide_eq_true hus]; rfl)

theorem State.lsOpen_idle {ma us : Nat} {atLim : Bool}
    (h : s.ls[k].st ≠ .on ∨ s.ls[k].setMa s.now ≤ 2 * ma ∨ us < 1000 ∨ atLim = false) : s.lsOpen k ma us atLim = s :=
  if_neg (by grind)

/-! ### An open segment -/

/-- A segment that has been found open, its shunt closed when `bp` (R249). -/
def Seg.opened (bp : Bool) (vf now : Nat) (g : Seg) : Seg :=
  { g with open_ := true, bypass := g.bypass || bp, dark := g.dark || bp, vf := vf, judgedAt := now }

/-- A string of which segment `i` has been found open. -/
def Ls.segOpened (i : Fin 8) (bp : Bool) (vf now : Nat) (l : Ls) : Ls :=
  { l with segs := upd l.segs i (Seg.opened bp vf now) }

/-- The state in which segment `i` has been found open and reported (R249). -/
abbrev State.segOpened (s : State) (k : Fin 3) (i : Fin 8) (mv : Nat) (bp : Bool) : State :=
  (s.modLs k (Ls.segOpened i bp (vfCode mv) s.now)).lsEmit k 0x03
    (pack [(0, 3, i.val), (3, 1, b2n bp), (16, 10, vfCode mv)])

theorem State.segOpened_ls (i : Fin 8) (mv : Nat) (bp : Bool) : (s.segOpened k i mv bp).ls =
    upd s.ls k (Ls.segOpened i bp (vfCode mv) s.now) :=
  (State.lsEmit_touch ..).same .ls (by decide)

theorem State.segOpened_now (i : Fin 8) (mv : Nat) (bp : Bool) : (s.segOpened k i mv bp).now = s.now :=
  (State.lsEmit_touch ..).now_eq (by decide)

theorem State.segOpened_count (i : Fin 8) (mv : Nat) (bp : Bool) : (s.segOpened k i mv bp).count = s.count :=
  congrArg (· % 2 ^ 48) (s.segOpened_now k i mv bp)

/-- With BYP_EN set the segment is bypassed and the string goes on. -/
theorem State.segOpened_bypasses (i : Fin 8) (mv : Nat) :
    ((s.segOpened k i mv true).lsVerify k).ls[k].segs[i].open_ = true ∧
    ((s.segOpened k i mv true).lsVerify k).ls[k].segs[i].bypass = true ∧
    ((s.segOpened k i mv true).lsVerify k).ls[k].segs[i].dark = true ∧
    ((s.segOpened k i mv true).lsVerify k).ls[k].segs[i].vf = vfCode mv ∧
    ((s.segOpened k i mv true).lsVerify k).ls[k].st = s.ls[k].st ∧
    onlyAt k s.ls ((s.segOpened k i mv true).lsVerify k).ls := by
  obtain ⟨hat, hothers⟩ := changed_at (s.segOpened_ls k i mv true)
  obtain ⟨hverOthers, hshown, -⟩ := (s.segOpened k i mv true).lsVerify_at k
  generalize (s.segOpened k i mv true).lsVerify k = t at hverOthers hshown
  rw [hat] at hshown
  have hseg := Ls.shown_seg hshown i
  rw [Ls.segOpened, upd_get] at hseg
  exact ⟨(congrArg Seg.open_ hseg :), (congrArg Seg.bypass hseg :).trans (Bool.or_true _),
    (congrArg Seg.dark hseg :).trans (Bool.or_true _), (congrArg Seg.vf hseg :), (congrArg Ls.st hshown :),
    onlyAt_trans hothers hverOthers⟩

/-- With BYP_EN clear the string is latched, with the segment's index in FAULT_INFO. -/
theorem State.segOpened_latches (i : Fin 8) (mv : Nat) (hbyp : s.ls[k].segs[i].bypass = false) :
    ((s.segOpened k i mv false).lsFault k 4 i.val 0x10).ls[k].segs[i].open_ = true ∧
    ((s.segOpened k i mv false).lsFault k 4 i.val 0x10).ls[k].segs[i].bypass = false ∧
    fld ((s.segOpened k i mv false).lsFault k 4 i.val 0x10).ls[k].faultInfo 8 3 = i.val ∧
    s.ls[k].Latched ((s.segOpened k i mv false).lsFault k 4 i.val 0x10).ls[k] 4 4 s.count s.now ∧
    onlyAt k s.ls ((s.segOpened k i mv false).lsFault k 4 i.val 0x10).ls := by
  obtain ⟨hat, hothers⟩ := changed_at (s.segOpened_ls k i mv false)
  obtain ⟨hlatched, hindex, hsegs, -, -, hfothers⟩ :=
    (s.segOpened k i mv false).lsFault_latches k i.val (cause := 4) (fb := 0x10) (b := 4) (by decide) (by decide)
  generalize (s.segOpened k i mv false).lsFault k 4 i.val 0x10 = t at *
  rw [hat, State.segOpened_now, State.segOpened_count] at hlatched
  have hseg : t.ls[k].segs[i] = s.ls[k].segs[i].opened false (vfCode mv) s.now := by
    rw [hsegs, hat, Ls.segOpened, upd_get]
  refine ⟨?_, ?_, hindex.trans (Nat.mod_eq_of_lt i.isLt), hlatched, onlyAt_trans hothers hfothers⟩
  · rw [hseg]
    rfl
  · rw [hseg]
    exact (Bool.or_false _).trans hbyp

section
variable {s k} {i : Fin 8} {mv ns : Nat}

theorem State.lsSegOpen_acts (hup : s.lsUp k = true) (hon : lsOn s.ls[k].st = true) (hlit : 800 ≤ s.ls[k].segs[i].lit)
    (hbyp : s.ls[k].segs[i].bypass = false) (hmv : s.ls[k].vOpen * 250 < mv) (hns : 1000 ≤ ns) :
    s.lsSegOpen k i mv ns =
      if bit s.ls[k].segs[i].applied 24 then (s.segOpened k i mv true).lsVerify k
      else (s.segOpened k i mv false).lsFault k 4 i.val 0x10 := by
  unfold State.lsSegOpen
  dsimp only
  rw [if_pos (by rw [hup, hon, decide_eq_true hlit, hbyp, decide_eq_true hmv, decide_eq_true hns]; rfl)]
  cases bit s.ls[k].segs[i].applied 24
  · rw [if_neg Bool.false_ne_true, if_neg Bool.false_ne_true]
    rfl
  · rw [if_pos rfl, if_pos rfl]
    rfl

theorem State.lsSegOpen_idle (h : lsOn s.ls[k].st = false ∨ s.ls[k].segs[i].lit < 800 ∨ s.ls[k].segs[i].bypass = true ∨
    mv ≤ s.ls[k].vOpen * 250 ∨ ns < 1000) : s.lsSegOpen k i mv ns = s :=
  if_neg (by grind)

end

/-! ### Saturation -/

section
variable {s k} {ma us : Nat}

/-- Below 90 % of the setpoint at the limit SAT sets; it stays set where it was (R255). -/
theorem State.lsSat_low (hup : s.lsUp k = true) (hst : s.ls[k].st = .on) (hlow : 10 * ma < 9 * s.ls[k].setMa s.now)
    (hus : 1000 ≤ us) : (s.lsSat k ma us true).ls = upd s.ls k fun l => { l with sat := true } := by
  unfold State.lsSat
  dsimp only
  rw [if_pos (by rw [hup, hst, decide_eq_true hus]; rfl), decide_eq_true hlow]
  cases hsat : s.ls[k].sat
  · exact (State.emit_ls ..).trans (State.modLs_ls ..)
  · exact (upd_self s.ls k _ (by rw [← hsat])).symm

/-- Within 90 % of the setpoint SAT clears (R255). -/
theorem State.lsSat_within (atLim : Bool) (hup : s.lsUp k = true) (hst : s.ls[k].st = .on)
    (hmet : 9 * s.ls[k].setMa s.now ≤ 10 * ma) (hus : 1000 ≤ us) :
    (s.lsSat k ma us atLim).ls = upd s.ls k fun l => { l with sat := false } := by
  unfold State.lsSat
  dsimp only
  rw [if_pos (by rw [hup, hst, decide_eq_true hus]; rfl), decide_eq_false (Nat.not_lt.mpr hmet)]
  cases hsat : s.ls[k].sat
  · exact (upd_self s.ls k _ (by rw [← hsat])).symm
  · exact (State.emit_ls ..).trans (State.modLs_ls ..)

theorem State.lsSat_idle {b : Bool} (h : s.lsUp k = false ∨ s.ls[k].st ≠ .on ∨ us < 1000) : s.lsSat k ma us b = s :=
  if_neg (by grind)

end

/-! ### The thermal latch -/

/-- A string whose sensor has reached 175 degrees C, with FAULT.OT (R255). -/
def Ls.overheated (tj : Int) (l : Ls) : Ls := { l with tl := true, tj := tj, fault := l.fault ||| 4 }

/-- The sensor of a string is its own. -/
theorem State.setTj_string (tj : Int) : s.setTj (tLs k) tj = s.modLs k fun l => { l with tj := tj } := by
  have hk : (⟨(tLs k).val - 64, by have := (tLs k).isLt; omega⟩ : Fin 3) = k :=
    Fin.ext (by simp only [tLs]; omega)
  rw [State.setTj, dif_neg (by simp only [tLs]; omega), dif_neg (by simp only [tLs]; omega), hk]

section
variable {s k} {tj : Int}

theorem State.setTj_overheats :
    (s.setTj (tLs k) tj).modLs k (fun l => { l with tl := true, fault := l.fault ||| 4 }) =
      s.modLs k (Ls.overheated tj) := by
  rw [State.setTj_string, State.modLs, State.modLs, State.modLs, upd_upd]
  rfl

section
variable (hup : s.lsUp k = true) (htl : s.ls[k].tl = false) (htj : 2800 ≤ tj)
include hup htl htj

/-- A string that is on or waits to be is latched (R257). -/
theorem State.lsThermal_latches (hst : lsOn s.ls[k].st = true ∨ s.ls[k].st = .pending ∨ s.ls[k].st = .uvWait) :
    s.lsThermal k tj = (s.modLs k (Ls.overheated tj)).lsFault k 3 0 4 := by
  unfold State.lsThermal
  dsimp only
  rw [if_pos (by rw [hup, htl, decide_eq_true htj]; rfl), State.setTj_overheats]
  cases h : s.ls[k].st
  case pending | ramp | on | uvWait => rfl
  all_goals
    rw [h] at hst
    exact absurd hst (by decide)

theorem State.lsThermal_marks (hst : s.ls[k].st = .disabled ∨ s.ls[k].st = .off ∨ s.ls[k].st = .latched) :
    s.lsThermal k tj = s.modLs k (Ls.overheated tj) := by
  unfold State.lsThermal
  dsimp only
  rw [if_pos (by rw [hup, htl, decide_eq_true htj]; rfl), State.setTj_overheats]
  rcases hst with h | h | h <;> rw [h]

end

theorem State.lsThermal_idle (h : s.ls[k].tl = true ∨ tj < 2800) : s.lsThermal k tj = s :=
  if_neg (by grind)

/-- The state in which a string's thermal latch has cleared, with a measurement of VL3 (R257, R260). -/
abbrev State.cooled (s : State) (k : Fin 3) (tj : Int) : State :=
  ((s.setTj (tLs k) tj).modLs k fun l => { l with tl := false }).lsMeasure k

/-- A string whose sensor has fallen to 155 degrees C. -/
def Ls.cooled (tj : Int) (v3 : Nat) (l : Ls) : Ls := { l with tl := false, tj := tj, v3 := v3 }

theorem State.cooled_adm : (s.cooled k tj).adm = s.adm := by
  rw [State.cooled, State.setTj_string]
  rfl

theorem State.cooled_lsUp : (s.cooled k tj).lsUp k = s.lsUp k := by
  rw [State.cooled, State.setTj_string]
  rfl

theorem State.cooled_inp : (s.cooled k tj).inp = s.inp := by
  rw [State.cooled, State.setTj_string]
  rfl

theorem State.lsMeasure_ls :
    (s.lsMeasure k).ls = upd s.ls k fun l => { l with v3 := Config.freeNat s.free % 2 ^ 16 } := rfl

theorem State.cooled_ls : ∃ v3, (s.cooled k tj).ls = upd s.ls k (Ls.cooled tj v3) := by
  refine ⟨Config.freeNat s.free % 2 ^ 16, ?_⟩
  rw [State.lsMeasure_ls, State.setTj_string, State.modLs_ls, State.modLs_ls, upd_upd, upd_upd]
  rfl

theorem State.lsThermalClear_acts (hup : s.lsUp k = true) (htl : s.ls[k].tl = true) (htj : tj ≤ 2480) :
    s.lsThermalClear k tj = (s.cooled k tj).lsTryRestart k :=
  if_pos (by rw [hup, htl, decide_eq_true htj]; rfl)

/-- Once the thermal latch is clear, a waiting string with its supply good requests; any other stays (R257). -/
theorem State.lsTryRestart_at (hup : s.lsUp k = true) (htl : s.ls[k].tl = false) :
    (s.lsTryRestart k).ls[k].tl = s.ls[k].tl ∧ (s.lsTryRestart k).ls[k].tj = s.ls[k].tj ∧
    (s.lsTryRestart k).ls[k].st = (if s.ls[k].st = .uvWait ∧ s.ls[k].bankOk = true then .pending else s.ls[k].st) ∧
    (s.ls[k].st = .uvWait → s.ls[k].bankOk = true → (s.lsTryRestart k).adm.inbox = s.adm.inbox ++
      [.own (64 + k.val) (s.lsPrio k s.ls[k].limp) (s.lsTryRestart k).ls[k].iCont (fld s.ls[k].start 16 16) 0 .restart]) ∧
    onlyAt k s.ls (s.lsTryRestart k).ls := by
  by_cases hwaits : s.ls[k].st = .uvWait ∧ s.ls[k].bankOk = true
  · obtain ⟨hst, hbank⟩ := hwaits
    have hrow : s.lsTryRestart k = s.lsRequest k (s.lsPrio k s.ls[k].limp) .restart :=
      if_pos (by rw [hst, Ls.b, hbank, htl, hup]; rfl)
    have hinbox := s.lsRequest_inbox k (s.lsPrio k s.ls[k].limp) .restart
    obtain ⟨hat, hothers⟩ := changed_at (s.lsRequest_ls k (s.lsPrio k s.ls[k].limp) .restart)
    rw [hrow, hat, if_pos ⟨hst, hbank⟩]
    exact ⟨rfl, rfl, rfl, fun _ _ => hinbox, hothers⟩
  · have hrow : s.lsTryRestart k = s := by
      refine if_neg fun hgo => hwaits ?_
      simp only [Bool.and_eq_true, beq_iff_eq, Ls.b] at hgo
      obtain ⟨⟨⟨hst, hbank⟩, -⟩, -⟩ := hgo
      exact ⟨hst, hbank⟩
    rw [hrow, if_neg hwaits]
    exact ⟨rfl, rfl, rfl, fun hst hbank => absurd ⟨hst, hbank⟩ hwaits, onlyAt_refl _ _⟩

theorem State.lsThermalClear_idle (h : s.ls[k].tl = false ∨ 2480 < tj) : s.lsThermalClear k tj = s :=
  if_neg (by grind)

end

end

/-- Settles O30: every latching fault by `State.lsFault_latches`, an open segment by `State.lsSegOpen_acts`, the thermal latch by
`State.lsThermal_latches` and `State.cooled_ls`. -/
theorem lampFaultsLatchTheString : Obligations.LampFaultsLatchTheString := by
  unfold Obligations.LampFaultsLatchTheString
  refine ⟨?_, ?_, ?_, ?_, ?_, ?_, ?_, ?_, ?_, ?_, ?_, ?_, ?_, ?_, ?_⟩
  · intro s k i mv ns hup hon hlit hbyp hmv hns hen
    have hrow := (State.lsSegOpen_acts hup hon hlit hbyp hmv hns).trans (if_pos hen)
    obtain ⟨hopen, hbypass, hdark, hvf, hst, hothers⟩ := s.segOpened_bypasses k i mv
    rw [← hrow] at hopen hbypass hdark hvf hst hothers
    exact ⟨_, rfl, hopen, hbypass, hdark, hvf, hst, hothers, s.lsSegOpen_touch k i mv ns⟩
  · intro s k i mv ns hup hon hlit hbyp hmv hns hen
    have hrow := (State.lsSegOpen_acts hup hon hlit hbyp hmv hns).trans
      (if_neg (by rw [hen]; exact Bool.false_ne_true))
    obtain ⟨hopen, hbypass, hindex, hlatches, hothers⟩ := s.segOpened_latches k i mv hbyp
    rw [← hrow] at hopen hbypass hindex hlatches hothers
    obtain ⟨hst, hfault, hcause, htime, hon⟩ := hlatches
    exact ⟨_, rfl, hopen, hbypass, hindex, hst, hfault, hcause, htime, hon, hothers, s.lsSegOpen_touch k i mv ns⟩
  · exact fun s k buckMa ma us hup hon hma hus =>
      fires_lsFault (congrArg Host.Outcome.next (s.lsShort_faults k hup hon hma hus)) (by decide) (by decide)
  · exact fun s k ma us hup hst hma hus =>
      fires_lsFault (congrArg Host.Outcome.next (s.lsOpen_faults k hup hst hma hus)) (by decide) (by decide)
  · intro s k ma us hup hst hlow hus
    obtain ⟨hat, hothers⟩ := changed_at (State.lsSat_low hup hst hlow hus)
    exact ⟨_, rfl, hat, hothers, s.lsSat_touch k ma us true⟩
  · intro s k ma us atLim hup hst hmet hus
    obtain ⟨hat, hothers⟩ := changed_at (State.lsSat_within atLim hup hst hmet hus)
    exact ⟨_, rfl, hat, hothers, s.lsSat_touch k ma us atLim⟩
  · intro s k tj hup htl htj hst
    have hrow := State.lsThermal_latches hup htl htj hst
    obtain ⟨hat, hothers⟩ := changed_at (s.modLs_ls k (Ls.overheated tj))
    obtain ⟨hlatched, -, -, htl', htj', hfothers⟩ :=
      (s.modLs k (Ls.overheated tj)).lsFault_latches k 0 (cause := 3) (fb := 4) (b := 2) (by decide) (by decide)
    rw [← hrow, hat] at hlatched htl' htj'
    rw [← hrow] at hfothers
    obtain ⟨hlst, hfault, hcause, htime, hon⟩ := hlatched
    exact ⟨_, rfl, htl', htj', hlst, hfault, hcause, htime, hon, onlyAt_trans hothers hfothers, s.lsThermal_touch k tj⟩
  · intro s k tj hup htl htj hst
    obtain ⟨hat, hothers⟩ := changed_at (congrArg State.ls (State.lsThermal_marks hup htl htj hst))
    exact ⟨_, rfl, hat, hothers, s.lsThermal_touch k tj⟩
  · exact fun s k i mv ns h => ⟨_, congrArg Host.Outcome.next (State.lsSegOpen_idle h), rfl⟩
  · exact fun s k buckMa ma us h => ⟨_, rfl, s.lsShort_idle k h⟩
  · exact fun s k ma us atLim h => ⟨_, rfl, s.lsOpen_idle k h⟩
  · exact fun s k tj h => ⟨_, rfl, State.lsThermal_idle h⟩
  · exact fun s k tj h => ⟨_, rfl, State.lsThermalClear_idle h⟩
  · intro s k tj hup htl htj
    have hrow := State.lsThermalClear_acts hup htl htj
    obtain ⟨v3, hls⟩ := State.cooled_ls (s := s) (k := k) (tj := tj)
    obtain ⟨hat, hothers⟩ := changed_at hls
    obtain ⟨htl', htj', hst, hinbox, hrothers⟩ :=
      State.lsTryRestart_at (State.cooled_lsUp.trans hup) (by rw [hat]; rfl)
    rw [← hrow] at htl' htj' hst hinbox hrothers
    rw [hat] at htl' htj' hst hinbox
    rw [State.lsPrio, State.mapPrio, State.cooled_inp, State.cooled_adm, hat] at hinbox
    exact ⟨_, rfl, htl', htj', hst, hinbox, onlyAt_trans hothers hrothers, s.lsThermalClear_touch k tj⟩
  · exact fun s k ma us b h => ⟨_, rfl, State.lsSat_idle h⟩

end Sys2Proof.Machine

/-! ## Lantern chains: GO, STOP, SWAP, ABORT, disable, global commands and settings (R287, R290, R292 to R294, R311,
R603)

What a command makes of its chain is said once, as a function on its registers. -/

namespace Sys2Proof.Machine

open Claims

/-! ### A store into a chain's block -/

/-- The parts that a store row of the chains may change. -/
abbrev lcRowParts : List Part := [.fab, .answer, .lc, .pmc, .free]

/-- A store row that is served and changes one chain, by `g`. -/
theorem fires_lcRow {s : State} {i : Instr} {c : Fin 4} {k : Fin 8} {f : State → State} {g : Lc → Lc}
    {P : State → Prop} (hexec : exec i s = .next (s.storeIf c (islLc k.val) 5 f)) (hcan : canStore s (islLc k.val) 5)
    (htouch : ∀ x, onlyTouches [.fab, .lc] x (f x)) (hlc : (f (s.served c)).lc = upd (s.served c).lc k g)
    (hP : ∀ t, t.lc[k] = g s.lc[k] → onlyAt k s.lc t.lc → t.answer = .done → onlyTouches lcRowParts s t → P t) :
    fires i s P := by
  refine fires_storeIf (ps := lcRowParts) hexec hcan (fun x => (htouch x).mono (by decide)) (by decide)
    fun t ht htouched => ?_
  rw [State.served_lc] at hlc
  obtain ⟨hat, hothers⟩ := changed_at hlc
  subst ht
  exact hP _ hat hothers rfl htouched

/-- A store row that is served and makes of one chain `l`. -/
theorem fires_lcBecomes {s : State} {i : Instr} {c : Fin 4} {k : Fin 8} {f : State → State} {g : Lc → Lc} {l : Lc}
    (hexec : exec i s = .next (s.storeIf c (islLc k.val) 5 f)) (hcan : canStore s (islLc k.val) 5)
    (htouch : ∀ x, onlyTouches [.fab, .lc] x (f x)) (hlc : (f (s.served c)).lc = upd (s.served c).lc k g)
    (hl : g s.lc[k] = l) :
    fires i s fun t => t.lc[k] = l ∧ onlyAt k s.lc t.lc ∧ onlyTouches lcRowParts s t :=
  fires_lcRow hexec hcan htouch hlc fun _ hat hothers _ htouched => ⟨hat.trans hl, hothers, htouched⟩

section
variable (s : State) (k : Fin 8)

@[simp] theorem State.modLc_lc (f : Lc → Lc) : (s.modLc k f).lc = upd s.lc k f := rfl

@[simp] theorem State.lcEmit_lc (code : Nat) (arg : W32) : (s.lcEmit k code arg).lc = s.lc := State.emit_lc ..

@[simp] theorem State.lcRes_lc (r : Nat) : (s.lcRes k r).lc = upd s.lc k fun c => { c with cmdRes := r } := rfl

@[simp] theorem State.lcIdle_lc (reason : Nat) :
    (s.lcIdle k reason).lc = upd s.lc k fun c => { c with st := .idle, stopReq := none, cont := false } :=
  State.lcEmit_lc ..

/-! ### GO, STOP -/

/-- What GO makes of a chain at time `now`; `held` says that the pad group of the chains is held (R292, R603). -/
def Lc.goCmd (c : Lc) (held : Bool) (now : Nat) : Lc :=
  if c.st = .idle ∧ held = false then
    { c with st := .pending, cont := c.contBit, stopReq := none, nextAt := now, cmdRes := 0 }
  else { c with cmdRes := 2 }

theorem State.lcGo_lc : (s.lcGo k).lc = upd s.lc k fun c => c.goCmd (bit s.pwr.holdStat 4) s.now := by
  unfold State.lcGo
  by_cases hgo : s.lc[k].st = .idle ∧ bit s.pwr.holdStat 4 = false
  · obtain ⟨hst, hheld⟩ := hgo
    rw [if_pos (by rw [hst, hheld]; rfl), State.modLc_lc]
    exact upd_congr (by rw [Lc.goCmd, if_pos ⟨hst, hheld⟩])
  · rw [if_neg (by simpa using hgo), State.lcRes_lc]
    exact upd_congr (by rw [Lc.goCmd, if_neg hgo])

/-- What STOP makes of a chain (R292). -/
def Lc.stopCmd (c : Lc) : Lc :=
  match c.st, c.cont with
  | .pending, true => { c with st := .idle, stopReq := none, cont := false, cmdRes := 0 }
  | .frame, true => { c with stopReq := some 0, cmdRes := 0 }
  | _, _ => { c with cmdRes := 0 }

theorem State.lcStop_lc : ((s.lcRes k 0).lcStop k 0).lc = upd s.lc k Lc.stopCmd := by
  have hres : (s.lcRes k 0).lc[k] = { s.lc[k] with cmdRes := 0 } := upd_get ..
  unfold State.lcStop
  dsimp only
  rw [hres]
  dsimp only
  cases hst : s.lc[k].st <;> cases hcont : s.lc[k].cont
  case pending.true =>
    refine (State.lcIdle_lc ..).trans ?_
    rw [State.lcRes_lc, upd_upd]
    exact upd_congr (by rw [Lc.stopCmd, hst, hcont])
  case frame.true =>
    refine (State.modLc_lc ..).trans ?_
    rw [State.lcRes_lc, upd_upd]
    exact upd_congr (by rw [Lc.stopCmd, hst, hcont])
  all_goals exact (State.lcRes_lc ..).trans (upd_congr (by simp only [Lc.stopCmd, hst, hcont]))

end

theorem Lc.stopCmd_pending {c : Lc} (hcont : c.cont = true) (hst : c.st = .pending) :
    c.stopCmd = { c with st := .idle, stopReq := none, cont := false, cmdRes := 0 } := by
  rw [Lc.stopCmd, hst, hcont]

theorem Lc.stopCmd_frame {c : Lc} (hcont : c.cont = true) (hst : c.st = .frame) :
    c.stopCmd = { c with stopReq := some 0, cmdRes := 0 } := by
  rw [Lc.stopCmd, hst, hcont]

theorem Lc.running_iff {c : Lc} : c.running = true ↔ c.st = .pending ∨ c.st = .frame := by
  simp [Lc.running]

theorem Lc.stopCmd_single {c : Lc} (h : c.cont = false ∨ c.running = false) : c.stopCmd = { c with cmdRes := 0 } := by
  unfold Lc.stopCmd
  split
  case h_1 hst hcont | h_2 hst hcont =>
    rcases h with h | h
    · exact absurd hcont (by simp [h])
    · simp [Lc.running, hst] at h
  case h_3 => rfl

/-! ### ABORT -/

/-- What ABORT makes of a running chain at time `now` (R287, R292). -/
def Lc.abortCmd (c : Lc) (now : Nat) : Lc :=
  { c.cut now with st := .idle, stopReq := none, cont := false, cmdRes := 0 }

section
variable {s : State} {k : Fin 8} {same : Bool}

theorem State.lcAbort_tooLate (h : (same && s.lc[k].lastEnd == some s.now) = true) : s.lcAbort k same = s.lcRes k 1 :=
  if_pos (by simpa using h)

theorem State.lcAbort_running (h : (same && s.lc[k].lastEnd == some s.now) = false) (hrun : s.lc[k].running = true) :
    (s.lcAbort k same).lc = upd s.lc k fun c => c.abortCmd s.now := by
  have hrow : s.lcAbort k same = ((s.modLc k fun c => c.cut s.now).lcIdle k 1).lcRes k 0 :=
    (if_neg (by simpa using h)).trans (if_pos hrun)
  rw [hrow, State.lcRes_lc, State.lcIdle_lc, State.modLc_lc, upd_upd, upd_upd]
  rfl

theorem State.lcAbort_idle (h : (same && s.lc[k].lastEnd == some s.now) = false) (hrun : s.lc[k].running = false) :
    s.lcAbort k same = s.lcRes k 0 :=
  (if_neg (by simpa using h)).trans (if_neg (by rw [hrun]; exact Bool.false_ne_true))

end

/-- A frame that is cut before its end: its return is marked, and the next frame waits unless N_ref shares were sent. -/
theorem Lc.abortCmd_cuts {c : Lc} {now : Nat} {o : List LcFrame} {f : LcFrame} (hst : c.st = .frame)
    (hend : now < c.frameEnd) (hout : c.out = o ++ [f]) :
    c.abortCmd now =
      { c with
        st := .idle, stopReq := none, cont := false, cmdRes := 0, out := o ++ [{ f with aborted := true }],
        waitM := if min f.nsh ((now - (f.hdrAt + 8)) / 6) < c.nref then some f.m else none } := by
  simp [Lc.abortCmd, Lc.cut, LcFrame.sentBy, hst, hend, hout]

/-- Without a frame in progress nothing is cut. -/
theorem Lc.abortCmd_between {c : Lc} {now : Nat} (h : c.st = .pending ∨ c.st = .frame ∧ c.frameEnd ≤ now) :
    c.abortCmd now = { c with st := .idle, stopReq := none, cont := false, cmdRes := 0 } := by
  have hcut : c.cut now = c := by
    unfold Lc.cut
    split
    · refine if_neg ?_
      rcases h with hst | ⟨-, hend⟩
      · simp [hst]
      · simp [Nat.not_lt.mpr hend]
    · rfl
  rw [Lc.abortCmd, hcut]

/-! ### EN 0 -/

/-- What EN written 0 makes of a chain, the word stored being `v` (R292). -/
def Lc.disabledBy (c : Lc) (v : W32) : Lc :=
  { c with
    st := .disabled, out := [], waitM := none, cmdRes := 0, ctl := v, rx := if c.rx = .mine then .dropped else c.rx,
    stopReq := if c.running then none else c.stopReq, cont := if c.running then false else c.cont }

theorem bit_chainDisable (v : W32) : bit (keep 0x3F1F (v &&& 0xFFFFFFFE)) 0 = false := by
  simp [bit, keep]

section
variable {s : State} {k : Fin 8}

theorem State.lcDisable_lc : (s.lcDisable k).lc = upd s.lc k fun c => c.disabledBy c.ctl := by
  unfold State.lcDisable
  dsimp only
  rw [State.modLc_lc]
  cases hrun : s.lc[k].running
  · rw [if_neg Bool.false_ne_true]
    exact upd_congr (by simp only [Lc.disabledBy, hrun, beq_iff_eq, Bool.false_eq_true, if_false])
  · rw [if_pos rfl, State.lcIdle_lc, upd_upd]
    exact upd_congr (by simp only [Lc.disabledBy, hrun, beq_iff_eq, if_true])

theorem State.lcCtlWrite_disables {v : W32} (hen : bit (keep 0x3F1F v) 0 = false) :
    (s.lcCtlWrite k v).lc = upd s.lc k fun c => c.disabledBy (keep 0x3F1F v) := by
  have hrow : s.lcCtlWrite k v = (s.lcDisable k).modLc k fun c => { c with ctl := keep 0x3F1F v } :=
    if_pos (by simp [hen])
  rw [hrow, State.modLc_lc, State.lcDisable_lc, upd_upd]
  rfl

/-! ### Settings -/

theorem State.lcFrameWrite_lc (v : W32) :
    (s.lcFrameWrite k v).lc = upd s.lc k fun c =>
      if fld v 0 4 = 0 ∨ 5 < fld v 0 4 then { c with cmdRes := 3 }
      else { c with frame := keep 0x3FFFFF0F v, cmdRes := 0 } := by
  unfold State.lcFrameWrite
  dsimp only
  by_cases hbad : fld v 0 4 = 0 ∨ 5 < fld v 0 4
  · simp [hbad]
  · simp [hbad]

theorem State.lcBaseWrite_stores (out : Bool) (i : Fin 2) {v : W32} (halign : fld v 0 24 % 32 = 0)
    (hroom : fld v 0 24 + (if out then 0x60000 else 0x20000) ≤ 0x1000000) :
    (s.lcBaseWrite k out i v).lc = upd s.lc k fun c =>
      if out then { c with outBase := upd c.outBase i fun _ => keep 0xFFFFFF v, cmdRes := 0 }
      else { c with retBase := upd c.retBase i fun _ => keep 0xFFFFFF v, cmdRes := 0 } :=
  congrArg State.lc (if_neg (by simp [halign, Nat.not_lt.mpr hroom]))

theorem State.lcBaseWrite_bad {out : Bool} {v : W32} (i : Fin 2)
    (hbad : fld v 0 24 % 32 ≠ 0 ∨ 0x1000000 < fld v 0 24 + (if out then 0x60000 else 0x20000)) :
    s.lcBaseWrite k out i v = s.lcRes k 3 :=
  if_pos (by simpa using hbad)

end

/-! ### GLOBAL_CMD (R311) -/

section
variable {f : Fin 8 → State → State} {g : State → Lc → Lc} (htouch : ∀ j x, onlyTouches [.fab, .lc] x (f j x))
  (hlc : ∀ j x, (f j x).lc = upd x.lc j (g x))
include htouch hlc

/-- A loop that gives a command to the powered chains of a mask: each meets the chain as it was, in a state in which only
events and chains have changed. -/
theorem selectedLoop_at (m : Nat) (s : State) (k : Fin 8) :
    ∃ y, onlyTouches [.fab, .lc] s y ∧
      (forFin 8 (fun j x => x.onlyIf (m.testBit j.val && x.lcUp j) (f j)) s).lc[k] =
        if m.testBit k.val ∧ s.lcUp k = true then g y s.lc[k] else s.lc[k] := by
  have hothers (j : Fin 8) (x : State) (hj : j ≠ k) :
      (x.onlyIf (m.testBit j.val && x.lcUp j) (f j)).lc[k] = x.lc[k] := by
    cases m.testBit j.val && x.lcUp j
    · rfl
    · exact (changed_at (hlc j x)).2 k hj.symm
  obtain ⟨y, hy, hview, hloop⟩ := forFin_at (fun x => x.lc[k])
    (fun j x => onlyTouches.onlyIf (onlyTouches.refl _ x) (htouch j)) hothers s
  have hup : y.lcUp k = s.lcUp k := hy.isUp_eq (by decide) _
  refine ⟨y, hy, hloop.trans ?_⟩
  rw [hup, ← hview]
  by_cases hsel : m.testBit k.val ∧ s.lcUp k = true
  · rw [if_pos hsel, hsel.1, hsel.2]
    exact (changed_at (hlc k y)).1
  · rw [if_neg hsel, Bool.and_eq_false_iff.mpr (by grind)]
    rfl

end

section
variable (s : State) (m : Nat) (k : Fin 8)

theorem State.lchGlobal_go : (s.lchGlobal m 0).lc[k] =
    if m.testBit k.val ∧ s.lcUp k = true then s.lc[k].goCmd (bit s.pwr.holdStat 4) s.now else s.lc[k] := by
  have hrow : s.lchGlobal m 0 = forFin 8 (fun j x => x.onlyIf (m.testBit j.val && x.lcUp j) fun x => x.lcGo j) s := by
    simp [State.lchGlobal]
  obtain ⟨y, hy, hloop⟩ := selectedLoop_at (fun j x => (x.lcGo_touch j).mono (by decide))
    (fun j x => x.lcGo_lc j) m s k
  rw [hrow, hloop, hy.now_eq (by decide), (hy.same .pwr (by decide) : y.pwr = s.pwr)]

theorem State.lchGlobal_stop : (s.lchGlobal 0 m).lc[k] =
    if m.testBit k.val ∧ s.lcUp k = true then s.lc[k].stopCmd else s.lc[k] := by
  have hrow : s.lchGlobal 0 m =
      forFin 8 (fun j x => x.onlyIf (m.testBit j.val && x.lcUp j) fun x => (x.lcRes j 0).lcStop j 0) s := by
    simp [State.lchGlobal]
  obtain ⟨y, -, hloop⟩ := selectedLoop_at (g := fun _ => Lc.stopCmd)
    (fun j x => ((x.lcRes_touch j 0).mono (by decide)).trans (State.lcStop_touch ..) (by decide))
    (fun j x => x.lcStop_lc j) m s k
  rw [hrow, hloop]

end

@[simp] theorem State.served_lcUp (s : State) (c : Fin 4) (k : Fin 8) : (s.served c).lcUp k = s.lcUp k :=
  s.isUp_congr (State.served_up ..) _

/-- Settles O31, by what each command makes of its chain: `Lc.goCmd`, `Lc.stopCmd`, `Lc.abortCmd` and `Lc.disabledBy`;
the loops of GLOBAL_CMD by `selectedLoop_at`. -/
theorem chainCommandsStartAndStopRuns : Obligations.ChainCommandsStartAndStopRuns := by
  unfold Obligations.ChainCommandsStartAndStopRuns
  have hstop (x : State) (k : Fin 8) : onlyTouches [.fab, .lc] x ((x.lcRes k 0).lcStop k 0) :=
    ((x.lcRes_touch k 0).mono (by decide)).trans (State.lcStop_touch ..) (by decide)
  have hgo (s : State) (c : Fin 4) (k : Fin 8) :
      ((s.served c).lcGo k).lc = upd (s.served c).lc k fun l => l.goCmd (bit s.pwr.holdStat 4) s.now := by
    rw [State.lcGo_lc, State.served_pwr, State.served_now]
  have habort {s : State} {k : Fin 8} {same : Bool} (c : Fin 4)
      (hcycle : (same && s.lc[k].lastEnd == some s.now) = false) (hrun : s.lc[k].running = true) :
      ((s.served c).lcAbort k same).lc = upd (s.served c).lc k fun l => l.abortCmd s.now := by
    rw [State.lcAbort_running (by rwa [State.served_lc, State.served_now]) (by rwa [State.served_lc]), State.served_now]
  refine ⟨?_, ?_, ?_, ?_, ?_, ?_, ?_, ?_, ?_, ?_, ?_, ?_, ?_, ?_, ?_, ?_, ?_⟩
  · intro s c k hcan hst hheld
    exact fires_lcRow rfl hcan (fun x => (x.lcGo_touch k).mono (by decide)) (hgo s c k)
      fun t hat hothers hdone htouched => ⟨hat.trans (if_pos ⟨hst, hheld⟩), hothers, hdone, htouched⟩
  · intro s c k hcan hwhy
    exact fires_lcBecomes rfl hcan (fun x => (x.lcGo_touch k).mono (by decide)) (hgo s c k) (if_neg (by grind))
  · exact fun s c k hcan hcont hst =>
      fires_lcBecomes rfl hcan (fun x => hstop x k) (State.lcStop_lc ..) (Lc.stopCmd_pending hcont hst)
  · exact fun s c k hcan hcont hst =>
      fires_lcBecomes rfl hcan (fun x => hstop x k) (State.lcStop_lc ..) (Lc.stopCmd_frame hcont hst)
  · exact fun s c k hcan hwhy =>
      fires_lcBecomes rfl hcan (fun x => hstop x k) (State.lcStop_lc ..) (Lc.stopCmd_single hwhy)
  · exact fun s c k hcan =>
      fires_lcBecomes rfl hcan (fun x => (x.lcSwap_touch k).mono (by decide)) (State.modLc_lc ..) rfl
  · exact fun s c k same o f hcan hcycle hst hend hout =>
      fires_lcBecomes rfl hcan (fun x => x.lcAbort_touch k same) (habort c hcycle (Lc.running_iff.mpr (.inr hst)))
        (Lc.abortCmd_cuts hst hend hout)
  · exact fun s c k same hcan hcycle hbetween =>
      fires_lcBecomes rfl hcan (fun x => x.lcAbort_touch k same)
        (habort c hcycle (Lc.running_iff.mpr (hbetween.imp_right And.left))) (Lc.abortCmd_between hbetween)
  · intro s c k same hcan hcycle hrun
    have hrow : (s.served c).lcAbort k same = _ :=
      State.lcAbort_idle (by rwa [State.served_lc, State.served_now]) (by rwa [State.served_lc])
    exact fires_lcBecomes rfl hcan (fun x => x.lcAbort_touch k same)
      ((congrArg State.lc hrow).trans (State.lcRes_lc ..)) rfl
  · intro s c k same hcan hcycle
    have hrow : (s.served c).lcAbort k same = _ :=
      State.lcAbort_tooLate (by rwa [State.served_lc, State.served_now])
    exact fires_lcBecomes rfl hcan (fun x => x.lcAbort_touch k same)
      ((congrArg State.lc hrow).trans (State.lcRes_lc ..)) rfl
  · intro s c k v hcan
    refine fires_lcRow rfl hcan (fun x => x.lcCtlWrite_touch k _) (State.lcCtlWrite_disables (bit_chainDisable v))
      fun t hat hothers _ htouched => ?_
    rw [hat]
    exact ⟨rfl, rfl, rfl, rfl, rfl, rfl, rfl, hothers, htouched⟩
  · intro s c m hcan
    refine fires_storeIf (ps := lcRowParts) rfl hcan (fun x => (x.lchGlobal_touch m.toNat 0).mono (by decide))
      (by decide) fun t ht htouched => ?_
    subst ht
    refine ⟨fun k => ?_, htouched⟩
    have hat := (s.served c).lchGlobal_go m.toNat k
    rwa [State.served_lcUp, State.served_lc, State.served_pwr, State.served_now] at hat
  · intro s c m hcan
    refine fires_storeIf (ps := lcRowParts) rfl hcan (fun x => (x.lchGlobal_touch 0 m.toNat).mono (by decide))
      (by decide) fun t ht htouched => ?_
    subst ht
    have hat (k : Fin 8) := (s.served c).lchGlobal_stop m.toNat k
    simp only [State.served_lcUp, State.served_lc] at hat
    have hsel (k : Fin 8) (hm : m.toNat.testBit k.val = true) (hup : s.lcUp k = true) :=
      (hat k).trans (if_pos ⟨hm, hup⟩)
    exact ⟨fun k hm hup hcont hst => (hsel k hm hup).trans (Lc.stopCmd_pending hcont hst),
      fun k hm hup hcont hst => (hsel k hm hup).trans (Lc.stopCmd_frame hcont hst),
      fun k hm hup hwhy => (hsel k hm hup).trans (Lc.stopCmd_single hwhy),
      fun k hout => (hat k).trans (if_neg (by grind)), htouched⟩
  · exact fun s c k v hcan =>
      fires_lcBecomes rfl hcan (fun x => (x.lcFrameWrite_touch k v).mono (by decide)) (State.lcFrameWrite_lc v) rfl
  · intro s c k i v hcan halign hroom
    refine fires_lcRow rfl hcan (fun x => (x.lcBaseWrite_touch k true i v).mono (by decide))
      (State.lcBaseWrite_stores true i halign hroom) fun t hat hothers _ htouched => ?_
    rw [if_pos rfl] at hat
    rw [hat]
    exact ⟨upd_get .., fun j hj => upd_get_ne _ _ _ _ hj, rfl, rfl, hothers, htouched⟩
  · intro s c k i v hcan halign hroom
    refine fires_lcRow rfl hcan (fun x => (x.lcBaseWrite_touch k false i v).mono (by decide))
      (State.lcBaseWrite_stores false i halign hroom) fun t hat hothers _ htouched => ?_
    rw [if_neg Bool.false_ne_true] at hat
    rw [hat]
    exact ⟨upd_get .., fun j hj => upd_get_ne _ _ _ _ hj, rfl, rfl, hothers, htouched⟩
  · exact fun s c k o i v hcan hbad =>
      fires_lcBecomes rfl hcan (fun x => (x.lcBaseWrite_touch k o i v).mono (by decide))
        ((congrArg State.lc (State.lcBaseWrite_bad i hbad)).trans (State.lcRes_lc ..)) rfl

end Sys2Proof.Machine

/-! ## Lantern chains: frames, returns, echo time-outs, glitches (R286 to R291, R295 to R300, R306, R600) -/

namespace Sys2Proof.Machine

open Claims

/-! ### ERR bits (R310) -/

/-- From `s` to `t` chain `k` has at most set bits of its ERR register. -/
def State.ErrAdded (s t : State) (k : Fin 8) : Prop := ∃ e, t.lc = upd s.lc k fun c => { c with err := c.err ||| e }

theorem State.ErrAdded.of_same {s t : State} (k : Fin 8) (h : t.lc = s.lc) : s.ErrAdded t k :=
  ⟨0, h.trans (upd_self _ _ _ (by simp)).symm⟩

theorem State.ErrAdded.trans {s t u : State} {k : Fin 8} (h : s.ErrAdded t k) (h' : t.ErrAdded u k) :
    s.ErrAdded u k := by
  obtain ⟨e, he⟩ := h
  obtain ⟨e', he'⟩ := h'
  exact ⟨e ||| e', by simp only [he', he, upd_upd, BitVec.or_assoc]⟩

theorem State.ErrAdded.ite {s t u : State} {k : Fin 8} {p : Prop} [Decidable p] (h : s.ErrAdded t k)
    (h' : s.ErrAdded u k) : s.ErrAdded (if p then t else u) k := by
  split
  · exact h
  · exact h'

theorem State.ErrAdded.foldl {k : Fin 8} {α : Type} {f : State → α → State}
    (h : ∀ (x : State) a, x.ErrAdded (f x a) k) (l : List α) (s : State) : s.ErrAdded (l.foldl f s) k := by
  induction l generalizing s with
  | nil => exact .of_same k rfl
  | cons a r ih => exact (h s a).trans (ih _)

section
variable (s : State) (k : Fin 8)

@[simp] theorem State.lcErr_lc (i : Nat) :
    (s.lcErr k i).lc = upd s.lc k fun c => { c with err := c.err ||| BitVec.ofNat 32 (1 <<< i) } := rfl

@[simp] theorem State.lcRetErr_lc (i cause : Nat) : (s.lcRetErr k i cause).lc = (s.lcErr k i).lc := State.lcEmit_lc ..

theorem State.lcEmit_errAdded (code : Nat) (arg : W32) : s.ErrAdded (s.lcEmit k code arg) k :=
  .of_same k (s.lcEmit_lc ..)

theorem State.lcErr_errAdded (i : Nat) : s.ErrAdded (s.lcErr k i) k := ⟨_, rfl⟩

theorem State.lcErrEmit_errAdded (i code : Nat) (arg : W32) : s.ErrAdded ((s.lcErr k i).lcEmit k code arg) k :=
  (s.lcErr_errAdded k i).trans (State.lcEmit_errAdded ..)

theorem State.lcRetErr_errAdded (i cause : Nat) : s.ErrAdded (s.lcRetErr k i cause) k := s.lcErrEmit_errAdded k i 5 _

theorem State.lcErr_bit {i : Nat} (hi : i < 32) : bit (s.lcErr k i).lc[k].err i = true := by
  have hbit : bit (BitVec.ofNat 32 (1 <<< i)) i = true := by
    rw [bit, BitVec.toNat_ofNat, Nat.testBit_mod_two_pow, Nat.one_shiftLeft, Nat.testBit_two_pow_self]
    simpa using hi
  rw [State.lcErr_lc, upd_get, bit_or, hbit, Bool.or_true]

theorem State.lcFetch_errAdded (base n : Nat) : s.ErrAdded (s.lcFetch k base n) k := by
  unfold State.lcFetch
  exact (State.ErrAdded.foldl (fun x w => .of_same k ((x.eccRead_touch w 5).same .lc (by decide))) _ s).trans
    (State.ErrAdded.foldl (fun x _ => x.lcErrEmit_errAdded k 9 9 _) _ _)

end

/-! ### The shares of a frame (R289, R291) -/

section
variable {s : State} {base n : Nat} {late : Nat → Bool} {p : Nat}

theorem State.sharesOf_length : (s.sharesOf base n late).length = n := by simp [State.sharesOf]

theorem State.sharesOf_late (hp : late p = true) : (s.sharesOf base n late).getD p 0 = 0 := by
  rw [List.getD_eq_getElem?_getD]
  by_cases hlt : p < n
  · simp [State.sharesOf, List.getElem?_map, List.getElem?_range hlt, hp]
  · rw [List.getElem?_eq_none (by rw [State.sharesOf_length]; omega)]
    rfl

/-- A share with a double-bit error in one of the words that hold its bytes. -/
def State.shareBad (s : State) (base n p : Nat) : Prop :=
  ∃ w ∈ s.badWords base (3 * n), base + 3 * p ≤ w + 3 ∧ w < base + 3 * p + 3

theorem State.sharesOf_bad (hlt : p < n) (hbad : s.shareBad base n p) : (s.sharesOf base n late).getD p 0 = 0 := by
  have hany : ((s.badWords base (3 * n)).any fun w => base + 3 * p ≤ w + 3 && w < base + 3 * p + 3) = true := by
    simpa [State.shareBad] using hbad
  rw [List.getD_eq_getElem?_getD]
  simp only [State.sharesOf, List.getElem?_map, List.getElem?_range hlt, Option.map_some, Option.getD_some, hany,
    Bool.or_true, if_true]

theorem State.sharesOf_good (hlt : p < n) (hp : late p = false) (hgood : ¬ s.shareBad base n p) :
    (s.sharesOf base n late).getD p 0 = s.shareAt base p := by
  have hany : ((s.badWords base (3 * n)).any fun w => base + 3 * p ≤ w + 3 && w < base + 3 * p + 3) = false := by
    rw [← Bool.not_eq_true]
    simpa [State.shareBad] using hgood
  rw [List.getD_eq_getElem?_getD]
  simp only [State.sharesOf, List.getElem?_map, List.getElem?_range hlt, Option.map_some, Option.getD_some, hany,
    hp, Bool.or_false, Bool.false_eq_true, if_false]

end

/-- A share is its three bytes, the lowest address lowest. -/
theorem State.shareAt_bytes (s : State) (base p : Nat) : s.shareAt base p =
    (memGet s.mem (base + 3 * p)).toNat + 256 * (memGet s.mem (base + 3 * p + 1)).toNat +
      65536 * (memGet s.mem (base + 3 * p + 2)).toNat := by
  simp only [State.shareAt, memLoad, Nat.add_assoc, Nat.reduceAdd]
  omega

/-! ### A frame starts (R286 to R291) -/

/-- Outbound buffer and first byte of the next frame, a waiting swap done (R290). -/
def Lc.nextAct (c : Lc) : Bool := c.outAct != c.swapPend
def Lc.nextBase (c : Lc) : Nat := fld (c.outBase[b2n c.nextAct]'(by cases c.nextAct <;> decide)) 0 24

theorem Lc.nextBase_eq {c : Lc} {act : Bool} (h : act = c.nextAct) :
    c.nextBase = fld (c.outBase[b2n act]'(by cases act <;> decide)) 0 24 := by
  subst h
  rfl

/-- The next frame of a chain, starting now; `slow` are the shares that come too late. -/
def State.nextFrame (s : State) (c : Lc) (slow : Nat → Bool) : LcFrame :=
  { m := c.txSeq, hcmd := c.hcmd, harg := c.harg, nsh := c.nsh, hdr := lcHeader c.hcmd c.harg c.nsh, base := c.nextBase,
    startAt := s.now, hdrAt := s.now + c.resetUs, shares := s.sharesOf (bulkBase + c.nextBase) c.nsh slow,
    aborted := false }

/-- A chain after the start of frame `f`. -/
def Lc.started (c : Lc) (f : LcFrame) : Lc :=
  { c with
    outAct := c.nextAct, swapPend := false, st := .frame, txSeq := (c.txSeq + 1) % 65536, out := c.out ++ [f],
    frameEnd := f.hdrAt + 8 + 6 * f.nsh, nextAt := max (f.hdrAt + 8 + 6 * f.nsh) (f.startAt + c.perUs),
    waitM := if f.nsh < c.nref then some f.m else none }

section
variable (s : State) (k : Fin 8)

/-- The swap that a frame start makes (R290). -/
def State.swapBuffers : State :=
  if s.lc[k].swapPend then
    (s.modLc k fun c => { c with outAct := s.lc[k].nextAct, swapPend := false }).lcEmit k 0x0B
      (pack [(0, 1, b2n s.lc[k].nextAct)])
  else s

/-- Frame `f` starts in `s`, from the buffer active after the swap. -/
def State.beginFrame (f : LcFrame) : State :=
  ((s.swapBuffers k).modLc k fun c =>
    { c with
      st := .frame, txSeq := (c.txSeq + 1) % 65536, out := c.out ++ [f], frameEnd := f.hdrAt + 8 + 6 * f.nsh,
      nextAt := max (f.hdrAt + 8 + 6 * f.nsh) (f.startAt + c.perUs),
      waitM := if f.nsh < c.nref then some f.m else none }).lcEmit k 0x01
    (pack [(0, 16, f.m), (16, 1, b2n s.lc[k].nextAct)])

/-- `n` shares of the frame went out as zero because they came too late (R291). -/
def State.underrun (n : Nat) : State := if n = 0 then s else (s.lcErr k 8).lcEmit k 0x08 (pack [(0, 18, n)])

/-- The state in which the next frame starts, time having moved on; the shares that come too late (R600); the frame. -/
def State.atStart : State := s.advanceTo s.lc[k].nextAt
def State.slowShare (late : List Nat) (p : Nat) : Bool := !(s.atStart k).bulkOk || late.contains p
def State.startFrame (late : List Nat) : LcFrame := (s.atStart k).nextFrame s.lc[k] (s.slowShare k late)

theorem State.swapBuffers_lc :
    (s.swapBuffers k).lc = upd s.lc k fun c => { c with outAct := c.nextAct, swapPend := false } := by
  rw [State.swapBuffers]
  cases hswap : s.lc[k].swapPend
  · rw [if_neg Bool.false_ne_true]
    refine (upd_self _ _ _ ?_).symm
    simp only [Lc.nextAct, hswap, Bool.bne_false]
    rw [← hswap]
  · rw [if_pos rfl, State.lcEmit_lc]
    rfl

theorem State.beginFrame_lc (f : LcFrame) : (s.beginFrame k f).lc = upd s.lc k fun c => c.started f := by
  rw [State.beginFrame, State.lcEmit_lc, State.modLc_lc, State.swapBuffers_lc, upd_upd]
  rfl

theorem State.underrun_errAdded (n : Nat) : s.ErrAdded (s.underrun k n) k :=
  .ite (.of_same k rfl) (s.lcErrEmit_errAdded k 8 8 _)

theorem State.underrun_bit {n : Nat} (hn : n ≠ 0) : bit (s.underrun k n).lc[k].err 8 = true := by
  rw [State.underrun, if_neg hn, State.lcEmit_lc]
  exact s.lcErr_bit k (by decide)

theorem State.atStart_lc : (s.atStart k).lc = s.lc := State.advanceTo_lc ..

theorem State.atStart_mem : (s.atStart k).mem = s.mem := State.advanceTo_mem ..

theorem State.atStart_bulkOk : (s.atStart k).bulkOk = s.bulkOk := by
  rw [State.bulkOk, State.bulkOk, State.atStart, State.advanceTo_isUp,
    State.advanceTo_pwr_view (view := Pwr.bulkRdy) fun x => by
      unfold State.wakeReq
      dsimp only
      repeat' split
      all_goals rfl]

variable {s k}
variable {late : List Nat} (hup : s.lcUp k = true) (hst : s.lc[k].st = .pending) (hwait : s.lc[k].mustWait = false)
  (hgoes : s.isStopped 5 = false)
include hup hst hwait hgoes

theorem State.lcFrameStart_eq : s.lcFrameStart k late =
    (if (s.atStart k).bulkOk then
      ((s.atStart k).beginFrame k (s.startFrame k late)).lcFetch k (bulkBase + s.lc[k].nextBase) (3 * s.lc[k].nsh)
    else (s.atStart k).beginFrame k (s.startFrame k late)).underrun k
      ((List.range s.lc[k].nsh).filter (s.slowShare k late)).length := by
  have hact : (if s.lc[k].swapPend = true then !s.lc[k].outAct else s.lc[k].outAct) = s.lc[k].nextAct := by
    rw [Lc.nextAct]
    cases s.lc[k].swapPend <;> cases s.lc[k].outAct <;> rfl
  unfold State.lcFrameStart
  dsimp only
  rw [if_pos (by rw [hup, hst, hwait, hgoes]; rfl)]
  simp only [hact]
  simp only [State.beginFrame, State.swapBuffers, State.atStart_lc]
  rfl

/-- A frame starts: the chain is as `Lc.started` says but for ERR bits. -/
theorem State.lcFrameStart_lc :
    ∃ e, (s.lcFrameStart k late).lc =
      upd s.lc k fun c => { c.started (s.startFrame k late) with err := c.err ||| e } := by
  obtain ⟨e, he⟩ : ((s.atStart k).beginFrame k (s.startFrame k late)).ErrAdded (s.lcFrameStart k late) k := by
    rw [State.lcFrameStart_eq hup hst hwait hgoes]
    exact (State.ErrAdded.ite (State.lcFetch_errAdded ..) (.of_same k rfl)).trans (State.underrun_errAdded ..)
  refine ⟨e, ?_⟩
  rw [he, State.beginFrame_lc, State.atStart_lc, upd_upd]
  rfl

theorem State.lcFrameStart_underrun {p : Nat} (hp : p < s.lc[k].nsh) (hslow : s.slowShare k late p = true) :
    bit (s.lcFrameStart k late).lc[k].err 8 = true := by
  rw [State.lcFrameStart_eq hup hst hwait hgoes]
  refine State.underrun_bit _ k fun hnone => ?_
  rw [List.length_eq_zero_iff, List.filter_eq_nil_iff] at hnone
  exact hnone p (List.mem_range.mpr hp) hslow

theorem State.lcFrameStart_now : (s.lcFrameStart k late).now = (s.atStart k).now := by
  have hreport (x : State) (n : Nat) : (x.underrun k n).now = x.now := by
    rw [State.underrun]
    exact (onlyTouches.ite (onlyTouches.refl [.fab, .lc] x)
      (((x.lcErr_touch k 8).mono (by decide)).trans (State.lcEmit_touch ..) (by decide))).now_eq (by decide)
  have hswap (x : State) : (x.swapBuffers k).now = x.now := by
    rw [State.swapBuffers]
    exact (onlyTouches.ite (ps := [.fab, .lc])
      (((x.modLc_touch k _).mono (by decide)).trans (State.lcEmit_touch ..) (by decide))
      (onlyTouches.refl _ x)).now_eq (by decide)
  have hbegin (x : State) (f : LcFrame) : (x.beginFrame k f).now = x.now := hswap x
  rw [State.lcFrameStart_eq hup hst hwait hgoes, hreport]
  split
  · exact ((State.lcFetch_touch ..).now_eq (by decide)).trans (hbegin ..)
  · exact hbegin ..

end

/-- Time that moves on brings one upset at most (R39). -/
theorem State.advanceTo_ecc (s : State) (t : Nat) : (s.advanceTo t).ecc =
    if s.tmbRuns && s.now < t then upsetMarks (Config.upset s.drain.free) ++ s.ecc else s.ecc := by
  have hlog (x : State) (b : Bool) : (x.onlyIf b State.logOwnFree).ecc = x.ecc :=
    (onlyTouches.onlyIf (onlyTouches.refl [.dep, .nv, .free] x) fun y => y.logOwnFree_touch).same .ecc (by decide)
  have hrun (x : State) (us : Nat) : (x.pmcRun us).ecc = x.ecc := (x.pmcRun_touch us).same .ecc (by decide)
  have hdrain : s.drain.ecc = s.ecc := s.drain_touch.same .ecc (by decide)
  unfold State.advanceTo
  split
  · simp only [hlog, State.modTmb_ecc, hrun, State.upsets, hdrain]
  · rfl

/-! ### The line (R272, R273, R288) -/

section
variable (f : LcFrame)

theorem LcFrame.bitAt_header {j : Nat} (hj : j < 32) : f.bitAt j = bit f.hdr j := if_pos hj

theorem LcFrame.bitAt_share (p : Nat) {j : Nat} (hj : j < 24) :
    f.bitAt (32 + 24 * p + j) = (f.shares.getD p 0).testBit j := by
  rw [LcFrame.bitAt, if_neg (by omega), show (32 + 24 * p + j - 32) / 24 = p by omega,
    show (32 + 24 * p + j - 32) % 24 = j by omega]

/-- Cycle `n` of bit `i`. -/
theorem LcFrame.lineAt_bit (i : Nat) {n : Nat} (hn : n < 25) :
    f.lineAt (25 * i + n) = (decide (i < 32 + 24 * f.nsh) && decide (n < if f.bitAt i then 17 else 7)) := by
  rw [LcFrame.lineAt, show (25 * i + n) / 25 = i by omega, show (25 * i + n) % 25 = n by omega]

end

/-! ### A frame ends (R286, R292, R306) -/

section
variable {s : State} {k : Fin 8}

/-- A chain after the last bit of its frame at time `now`. -/
def Lc.frameEnded (c : Lc) (now : Nat) : Lc :=
  match c.stopReq with
  | some _ => { c with lastEnd := some now, st := .idle, stopReq := none, cont := false }
  | none => { c with lastEnd := some now, st := if c.cont then .pending else .idle }

theorem State.lcFrameEnd_acts (hup : s.lcUp k = true) (hst : s.lc[k].st = .frame) :
    (s.lcFrameEnd k).lc = upd s.lc k (fun c => c.frameEnded (s.advanceTo s.lc[k].frameEnd).now) ∧
      (s.lcFrameEnd k).now = (s.advanceTo s.lc[k].frameEnd).now := by
  unfold State.lcFrameEnd
  dsimp only
  rw [if_pos (by rw [hup, hst]; rfl)]
  cases hstop : s.lc[k].stopReq
  case some r =>
    refine ⟨?_, rfl⟩
    dsimp only
    rw [State.lcIdle_lc, State.modLc_lc, upd_upd, State.advanceTo_lc]
    exact upd_congr (by rw [Lc.frameEnded, hstop])
  case none =>
    refine ⟨?_, rfl⟩
    dsimp only
    rw [State.modLc_lc, State.modLc_lc, upd_upd, State.advanceTo_lc]
    exact upd_congr (by rw [Lc.frameEnded, hstop])

theorem State.lcFrameEnd_idle (h : s.lcUp k = false ∨ s.lc[k].st ≠ .frame) : s.lcFrameEnd k = s :=
  if_neg (by simpa [-Fin.getElem_fin] using fun hup => h.resolve_left (by simp [hup]))

theorem Lc.frameEnded_keeps (c : Lc) (now : Nat) :
    (c.frameEnded now).lastEnd = some now ∧ (c.frameEnded now).out = c.out ∧
      (c.frameEnded now).st = if c.stopReq = none ∧ c.cont = true then .pending else .idle := by
  unfold Lc.frameEnded
  cases hstop : c.stopReq <;> cases c.cont <;> exact ⟨rfl, rfl, rfl⟩

/-! ### A return stream begins or ends (R295 to R300) -/

theorem State.lcReturnBegin_down (hup : s.lcUp k = false) : s.lcReturnBegin k = s :=
  if_neg (by rw [hup]; exact Bool.false_ne_true)

theorem State.lcReturn_down {e : W32} {b : List W8} {x : Nat} (hup : s.lcUp k = false) : s.lcReturn k e b x = s :=
  if_pos (by rw [hup]; rfl)

theorem State.lcReturn_dropped {e : W32} {b : List W8} {x : Nat} (hup : s.lcUp k = true) (hrx : s.lc[k].rx = .dropped) :
    s.lcReturn k e b x = s.modLc k fun c => { c with rx := .idle } := by
  unfold State.lcReturn
  dsimp only
  rw [if_neg (by simp [hup]), if_pos (by rw [hrx]; rfl)]

theorem State.lcReturn_stray {e : W32} {b : List W8} {x : Nat} (hup : s.lcUp k = true)
    (hrx : s.lc[k].rx = .stray ∨ s.lc[k].rx = .idle ∧ s.lc[k].out = []) :
    s.lcReturn k e b x = (s.modLc k fun c => { c with rx := .idle }).lcStray k := by
  have hkind : (s.lc[k].rx == .dropped) = false ∧
      (s.lc[k].rx == .stray || (s.lc[k].rx == .idle && s.lc[k].out.isEmpty)) = true := by
    rcases hrx with hrx | ⟨hrx, hout⟩
    · rw [hrx]; exact ⟨rfl, rfl⟩
    · rw [hrx, hout]; exact ⟨rfl, rfl⟩
  unfold State.lcReturn
  dsimp only
  rw [if_neg (by simp [hup]), if_neg (by rw [hkind.1]; exact Bool.false_ne_true), if_pos hkind.2]

theorem State.lcStray_lc : (s.lcStray k).lc = upd s.lc k fun c =>
    { c with err := c.err ||| 0x800, cntOther := satN 16 (c.cntOther + 1), retEnd := some s.now } := by
  rw [State.lcStray, State.modLc_lc, State.lcRetErr_lc, State.lcErr_lc, upd_upd]
  rfl

/-- The state in which the return of the oldest frame is checked: the frame is no longer outstanding. -/
def State.returned (s : State) (k : Fin 8) (r : List LcFrame) : State :=
  (s.modLc k fun c => { c with rx := .idle }).modLc k fun c => { c with out := r }

theorem State.returned_lc (r : List LcFrame) :
    (s.returned k r).lc = upd s.lc k fun c => { c with rx := .idle, out := r } := by
  rw [State.returned, State.modLc_lc, State.modLc_lc, upd_upd]

theorem State.returned_at (r : List LcFrame) : (s.returned k r).lc[k] = { s.lc[k] with rx := .idle, out := r } :=
  (changed_at (State.returned_lc r)).1

section
variable {e : W32} {b : List W8} {x : Nat} {f : LcFrame} {r : List LcFrame} (hbulk : s.bulkOk = true)
  (hup : s.lcUp k = true) (hout : s.lc[k].out = f :: r) (hrx : s.lc[k].rx = .idle ∨ s.lc[k].rx = .mine)
include hbulk hup hout hrx

theorem State.lcReturn_mine : s.lcReturn k e b x =
    if f.aborted then
      ((s.returned k r).lcRetErr k 13 4).modLc k fun c =>
        { c with cntOther := satN 16 (c.cntOther + 1), retEnd := some s.now }
    else (s.returned k r).lcCollect k f e b x := by
  have hkind : (s.lc[k].rx == .dropped) = false ∧
      (s.lc[k].rx == .stray || (s.lc[k].rx == .idle && s.lc[k].out.isEmpty)) = false := by
    rw [hout]
    rcases hrx with hrx | hrx
    · rw [hrx]; exact ⟨rfl, rfl⟩
    · rw [hrx]; exact ⟨rfl, rfl⟩
  unfold State.lcReturn
  dsimp only
  rw [if_neg (by simp [hup]), if_neg (by rw [hkind.1]; exact Bool.false_ne_true),
    if_neg (by rw [hkind.2]; exact Bool.false_ne_true), hout]
  dsimp only
  rw [if_neg (by simp [hbulk])]
  rfl

theorem State.lcReturn_aborted (hcut : f.aborted = true) : (s.lcReturn k e b x).lc = upd s.lc k fun c =>
    { c with
      rx := .idle, out := r, err := c.err ||| 0x2000, cntOther := satN 16 (c.cntOther + 1), retEnd := some s.now } := by
  rw [State.lcReturn_mine hbulk hup hout hrx, if_pos hcut, State.modLc_lc, State.lcRetErr_lc, State.lcErr_lc,
    State.returned_lc, upd_upd, upd_upd]
  rfl

theorem State.lcReturn_collects (hwhole : f.aborted = false) :
    s.lcReturn k e b x = (s.returned k r).lcCollect k f e b x := by
  rw [State.lcReturn_mine hbulk hup hout hrx, hwhole]
  exact if_neg Bool.false_ne_true

end

/-! ### Echo time-out and glitches (R296, R300) -/

/-- A chain whose oldest frame has timed out, `r` being the rest: the next return is not compared (R296, R302). -/
def Lc.timedOut (c : Lc) (r : List LcFrame) : Lc :=
  { c with
    out := r, cntBreaks := satN 16 (c.cntBreaks + 1), prev := c.prev.map fun p => { p with clean := false },
    err := c.err ||| 1 }

theorem State.lcEchoTimeout_acts {f : LcFrame} {r : List LcFrame} (hup : s.lcUp k = true)
    (hout : s.lc[k].out = f :: r) (hrx : s.lc[k].rx ≠ .mine) :
    (s.lcEchoTimeout k).lc = upd s.lc k (fun c => c.timedOut r) ∧
      (s.lcEchoTimeout k).now = (s.advanceTo (f.hdrAt + s.lc[k].tmoUs)).now := by
  unfold State.lcEchoTimeout
  dsimp only
  rw [hout]
  dsimp only
  rw [if_pos (by simpa [hup] using hrx)]
  refine ⟨?_, rfl⟩
  rw [State.lcEmit_lc, State.lcErr_lc, State.modLc_lc, upd_upd, State.advanceTo_lc]
  rfl

theorem State.lcEchoTimeout_idle (h : s.lc[k].out = [] ∨ s.lc[k].rx = .mine) : s.lcEchoTimeout k = s := by
  unfold State.lcEchoTimeout
  dsimp only
  split
  · rfl
  case h_2 hout =>
    rcases h with h | h
    · exact absurd (hout.symm.trans h) (List.cons_ne_nil _ _)
    · exact if_neg (by simp [-Fin.getElem_fin, h])

theorem State.lcGlitch_acts {x : Nat} (hup : s.lcUp k = true) (hret : s.lc[k].retEnd = some x)
    (hsoon : s.now ≤ x + s.lc[k].resetUs) : s.lcGlitch k = s.lcRetErr k 12 6 := by
  unfold State.lcGlitch
  dsimp only
  rw [hret]
  exact if_pos (by simpa [hup] using hsoon)

theorem State.lcGlitch_late {x : Nat} (hret : s.lc[k].retEnd = some x) (hlate : x + s.lc[k].resetUs < s.now) :
    s.lcGlitch k = s := by
  unfold State.lcGlitch
  dsimp only
  rw [hret]
  exact if_neg (by simpa using fun _ => hlate)

end

/-! ### Statuses reach memory (R299) -/

section
variable {s : State} (hecc : s.ecc = [])
include hecc

/-- Where no word is marked, every byte is stored. -/
theorem State.storeBytes_byte (a : Nat) (v : W8) (req : Req) :
    (s.storeBytes a v.toNat 1 req).2.mem = memSet s.mem a v ∧ (s.storeBytes a v.toNat 1 req).2.ecc = [] := by
  have hmem : (s.bulkCount a req).mem = s.mem := (s.bulkCount_touch a req).same .mem (by decide)
  have hmarks : (s.bulkCount a req).ecc = [] := ((s.bulkCount_touch a req).same .ecc (by decide) : _ = s.ecc).trans hecc
  have hread : s.eccRead a req = (true, s.bulkCount a req) := by
    unfold State.eccRead
    dsimp only
    rw [hmarks]
    exact ite_self _
  rw [State.storeBytes, if_neg (by decide), hread]
  exact ⟨by simp [memStore, hmem], hmarks⟩

theorem State.storeStream_bytes (hm : Memory.wf s.mem) (req : Req) (a : Nat) (l : List W8) :
    (∀ i, i < l.length → memGet (State.storeStream req a l s).mem (a + i) = l.getD i 0) ∧
      ∀ b, b < a ∨ a + l.length ≤ b → memGet (State.storeStream req a l s).mem b = memGet s.mem b := by
  induction l generalizing a s with
  | nil => exact ⟨fun i hi => absurd hi (Nat.not_lt_zero i), fun _ _ => rfl⟩
  | cons v r ih =>
    obtain ⟨hstored, hclean⟩ := State.storeBytes_byte hecc a v req
    obtain ⟨hin, hout⟩ := ih hclean (s.storeBytes_wf _ _ _ _ hm) (a + 1)
    rw [State.storeStream]
    refine ⟨fun i hi => ?_, fun b hb => ?_⟩
    · cases i with
      | zero =>
        rw [hout _ (.inl (by omega)), hstored, memGet_memSet _ _ _ hm, if_pos (Nat.add_zero a)]
        rfl
      | succ i =>
        rw [show a + (i + 1) = a + 1 + i by omega, hin i (by simpa using hi)]
        rfl
    · rw [List.length_cons] at hb
      rw [hout b (by omega), hstored, memGet_memSet _ _ _ hm, if_neg (by omega)]

end

/-! ### The records of a return that is not compared (R297 to R301) -/

/-- The echo as received is that of frame `f` (R297). -/
def LcFrame.echoOk (f : LcFrame) (echo : W32) : Bool :=
  lcEchoOk echo && fld echo 0 4 = f.hcmd && (!shareCmd f.hcmd || fld echo 12 18 ≤ f.nsh)

/-- The parity errors and missing nodes of a return's statuses, and the return as the next one is compared with it. -/
def Lc.checked (c : Lc) (f : LcFrame) (ok : Bool) (sts : List W8) : Lc :=
  { c with
    retXs := 0, perrFirst := (firstCount (fun b => !statusOk b) 0 sts).1.getD 0,
    perrCount := satN 12 (firstCount (fun b => !statusOk b) 0 sts).2,
    npFirst := (firstCount (fun b => !b.toNat.testBit 6) 0 sts).1.getD 0,
    npCount := satN 12 (firstCount (fun b => !b.toNat.testBit 6) 0 sts).2,
    prev := some { hcmd := f.hcmd, harg := f.harg, count := sts.length, clean := ok } }

/-- A completed return recorded in the chain's registers: at time `now`, the count being `count` (R299). -/
def Lc.recorded (c : Lc) (hdr : W32) (n ovr count now : Nat) (errs : Bool) : Lc :=
  { c with
    retHdr := hdr, retNodes := n, retOver := satN 12 ovr, retTime := count, retSeq := (c.retSeq + 1) % 65536,
    retEnd := some now, cntOther := if errs then satN 16 (c.cntOther + 1) else c.cntOther }

section
variable {s : State} {k : Fin 8}

theorem State.lcRetDone_lc (hdr : W32) (n ovr : Nat) (errs : Bool) : (s.lcRetDone k hdr n ovr errs).lc =
    upd s.lc k fun c => c.recorded hdr n ovr s.count s.now errs := by
  rw [State.lcRetDone, State.lcEmit_lc]
  rfl

/-- The statuses of a return in memory, and the error of an echo that is not the frame's. -/
def State.statusesStored (s : State) (k : Fin 8) (f : LcFrame) (ok : Bool) (sts : List W8) : State :=
  State.storeStream 5 (bulkBase + fld (s.lc[k].retBase[f.m % 2]'(by omega)) 0 24) sts
    (if ok then s else s.lcRetErr k 1 1)

/-- The errors of a return (R298 to R302): cut short, too many statuses, the first parity error and the first missing
node, a length other than expected, a length other than the last one. -/
def State.lcReport (s : State) (k : Fin 8) (trunc : Bool) (ovr : Nat) (pe np : Option Nat) (len lenChg : Bool)
    (total : Nat) : State :=
  let s1 := if trunc then s.lcRetErr k 2 2 else s
  let s2 := if ovr ≠ 0 then s1.lcRetErr k 3 3 else s1
  let s3 := match pe with | some i => (s2.lcErr k 4).lcEmit k 0x06 (pack [(0, 18, i)]) | none => s2
  let s4 := match np with | some i => (s3.lcErr k 5).lcEmit k 0x07 (pack [(0, 18, i)]) | none => s3
  let s5 := if len then s4.lcErr k 6 else s4
  if lenChg then (s5.lcErr k 7).lcEmit k 0x04 (pack [(0, 18, total)]) else s5

theorem State.lcErrIf_errAdded (c : Bool) (i : Nat) : s.ErrAdded (if c then s.lcErr k i else s) k :=
  .ite (s.lcErr_errAdded k i) (.of_same k rfl)

theorem State.lcReport_errAdded (trunc : Bool) (ovr : Nat) (pe np : Option Nat) (len lenChg : Bool) (total : Nat) :
    s.ErrAdded (s.lcReport k trunc ovr pe np len lenChg total) k := by
  have hnone (x : State) : x.ErrAdded x k := .of_same k rfl
  have hfirst (x : State) (o : Option Nat) (i code : Nat) : x.ErrAdded
      (match o with | some j => (x.lcErr k i).lcEmit k code (pack [(0, 18, j)]) | none => x) k := by
    cases o
    · exact hnone x
    · exact x.lcErrEmit_errAdded k i code _
  unfold State.lcReport
  exact (((((State.ErrAdded.ite (s.lcRetErr_errAdded k 2 2) (hnone s)).trans
    (.ite (State.lcRetErr_errAdded ..) (hnone _))).trans (hfirst _ pe 4 6)).trans (hfirst _ np 5 7)).trans
    (State.lcErrIf_errAdded len 6)).trans (.ite (State.lcErrEmit_errAdded ..) (hnone _))

theorem State.lcReport_touch (trunc : Bool) (ovr : Nat) (pe np : Option Nat) (len lenChg : Bool) (total : Nat) :
    onlyTouches [.fab, .lc] s (s.lcReport k trunc ovr pe np len lenChg total) := by
  have hnone (x : State) : onlyTouches [.fab, .lc] x x := onlyTouches.refl _ x
  have herr (x : State) (i code : Nat) (arg : W32) : onlyTouches [.fab, .lc] x ((x.lcErr k i).lcEmit k code arg) :=
    ((x.lcErr_touch k i).mono (by decide)).trans (State.lcEmit_touch ..) (by decide)
  have hfirst (x : State) (o : Option Nat) (i code : Nat) : onlyTouches [.fab, .lc] x
      (match o with | some j => (x.lcErr k i).lcEmit k code (pack [(0, 18, j)]) | none => x) := by
    cases o
    · exact hnone x
    · exact herr x i code _
  unfold State.lcReport
  exact (((((onlyTouches.ite (herr s 2 5 _) (hnone s)).step (.ite (herr _ 3 5 _) (hnone _))).step
    (hfirst _ pe 4 6)).step (hfirst _ np 5 7)).step
    (.ite ((State.lcErr_touch _ k 6).mono (by decide)) (hnone _))).step (.ite (herr _ 7 4 _) (hnone _))

/-- The length of a return is not the one its echo announces or the one expected (R301). -/
def Lc.lengthWrong (c : Lc) (f : LcFrame) (echo : W32) (total : Nat) : Bool :=
  (!shareCmd f.hcmd && fld echo 12 18 ≠ total) || (c.nodes ≠ 0 && c.nodes ≠ total)

/-- The length of a return is not that of the last one (R302). -/
def Lc.lengthChanged (c : Lc) (total : Nat) : Bool := match c.prev with | some p => p.count ≠ total | none => false

/-- The statuses of a return stored, counted and its errors reported, where no share came back. -/
def State.statusesChecked (s : State) (k : Fin 8) (f : LcFrame) (echo : W32) (sts : List W8) : State :=
  ((s.statusesStored k f (f.echoOk echo) sts).modLc k fun c => c.checked f (f.echoOk echo) sts).lcReport k false 0
    (firstCount (fun b => !statusOk b) 0 sts).1 (firstCount (fun b => !b.toNat.testBit 6) 0 sts).1
    (s.lc[k].lengthWrong f echo sts.length) (s.lc[k].lengthChanged sts.length) sts.length

section
variable {f : LcFrame} {e : W32} {b : List W8} {x : Nat}

/-- Of a return with a wrong echo nothing is stored. -/
theorem State.lcCollect_wrongEcho (hok : f.echoOk e = false) :
    s.lcCollect k f e b x = (s.statusesChecked k f e []).lcRetDone k e 0 0 true := by
  rw [State.statusesChecked, hok]
  unfold State.lcCollect
  rw [LcFrame.echoOk] at hok
  dsimp only
  simp only [hok, Bool.and_false, Bool.false_and, Bool.false_eq_true, if_false]
  rfl

/-- Of a good status return that is not compared every status is stored. -/
theorem State.lcCollect_statuses (hok : f.echoOk e = true) (hshare : shareCmd f.hcmd = false) (hlen : b.length ≤ 131072)
    (hcmp : s.lc[k].chgEn = false ∨ s.lc[k].prev = none) :
    ∃ errs, s.lcCollect k f e b 0 = (s.statusesChecked k f e b).lcRetDone k e b.length 0 errs := by
  rw [State.statusesChecked, hok]
  unfold State.lcCollect
  rw [LcFrame.echoOk] at hok
  dsimp only
  simp only [hok]
  simp only [Lc.lengthWrong, hshare, Bool.false_and, Bool.true_and, Bool.false_eq_true, if_false, if_true, Nat.mul_zero,
    List.drop_zero, List.take_of_length_le hlen, Nat.sub_self, Nat.not_lt_zero, Nat.zero_mod, ne_eq, not_true_eq_false,
    decide_false, decide_true, Bool.or_self, Bool.not_false, Bool.and_self]
  rcases hcmp with h | h
  · simp only [h, Bool.false_and, Bool.false_eq_true, if_false]
    exact ⟨_, rfl⟩
  · simp only [h, Bool.and_false, Bool.false_and, Bool.false_eq_true, if_false, Lc.lengthChanged]
    exact ⟨_, rfl⟩

theorem LcFrame.echoOk_false (h : lcEchoOk e = false ∨ fld e 0 4 ≠ f.hcmd) : f.echoOk e = false := by
  rw [LcFrame.echoOk]
  rcases h with h | h <;> simp [h]

theorem LcFrame.echoOk_status (hok : lcEchoOk e = true) (hcmd : fld e 0 4 = f.hcmd) (hshare : shareCmd f.hcmd = false) :
    f.echoOk e = true := by
  simp [LcFrame.echoOk, hok, hcmd, hshare]

end

section
variable (s k) (f : LcFrame) (e : W32) (sts : List W8)

theorem State.statusesStored_lc (ok : Bool) :
    (s.statusesStored k f ok sts).lc = upd s.lc k fun c => { c with err := c.err ||| if ok then 0 else 2 } := by
  have hstore (a : Nat) (x : State) : (State.storeStream 5 a sts x).lc = x.lc :=
    (State.storeStream_touch 5 a sts x).same .lc (by decide)
  rw [State.statusesStored, hstore]
  cases ok
  · exact State.lcRetErr_lc ..
  · exact (upd_self _ _ _ (by simp)).symm

theorem State.statusesChecked_touch :
    onlyTouches [.fab, .lc] (s.statusesStored k f (f.echoOk e) sts) (s.statusesChecked k f e sts) :=
  ((State.modLc_touch ..).mono (by decide)).step (State.lcReport_touch ..)

theorem State.statusesChecked_lc : ∃ v, (s.statusesChecked k f e sts).lc = (upd s.lc k fun c =>
      { c.checked f (f.echoOk e) sts with err := c.err ||| v }) ∧ (f.echoOk e = false → bit v 1 = true) := by
  obtain ⟨v, hv⟩ : ((s.statusesStored k f (f.echoOk e) sts).modLc k fun c => c.checked f (f.echoOk e) sts).ErrAdded
      (s.statusesChecked k f e sts) k := State.lcReport_errAdded ..
  refine ⟨(if f.echoOk e then 0 else 2) ||| v, ?_, fun hok => ?_⟩
  · rw [hv, State.modLc_lc, State.statusesStored_lc, upd_upd, upd_upd]
    simp only [Lc.checked, BitVec.or_assoc]
  · rw [hok, bit_or]
    exact Bool.or_eq_true_iff.mpr (.inl (by decide))

theorem State.statusesChecked_tmb : (s.statusesChecked k f e sts).tmb = s.tmb := by
  have hstored : (s.statusesStored k f (f.echoOk e) sts).tmb = s.tmb := by
    refine ((State.storeStream_touch ..).same .tmb (by decide) : _ = State.tmb _).trans ?_
    split
    · rfl
    · exact (s.lcRetErr_touch k 1 1).same .tmb (by decide)
  exact ((s.statusesChecked_touch k f e sts).same .tmb (by decide) : _ = State.tmb _).trans hstored

end

theorem State.lcRetDone_mem (hdr : W32) (n ovr : Nat) (errs : Bool) : (s.lcRetDone k hdr n ovr errs).mem = s.mem :=
  (s.lcRetDone_touch k hdr n ovr errs).same .mem (by decide)

end

/-! ### What a share can lose while time moves on (R39, R291) -/

/-- No upset of two bits, of those left free, falls on a word that can hold a byte of a share. -/
def SharesSurvive : Prop := ∀ n a, Config.upset n = some (a, true) → a < bulkBase ∨ bulkEnd + 0x60000 ≤ a

theorem fld_lt (v : W32) (lo w : Nat) : fld v lo w < 2 ^ w := Nat.mod_lt _ (Nat.two_pow_pos w)

theorem Lc.nsh_le (c : Lc) : c.nsh ≤ 131072 := by
  rw [Lc.nsh]
  split
  · exact Nat.min_le_left ..
  · exact Nat.zero_le _

section
variable {s : State} {k : Fin 8}

/-- Where no word was marked before, a share with a double-bit error is one that an upset of two bits has met since. -/
theorem State.upset_of_shareBad (hecc : s.ecc = []) {t base n p : Nat} (hbad : (s.advanceTo t).shareBad base n p) :
    ∃ j a, Config.upset j = some (a, true) ∧ base + 3 * p ≤ a - a % 4 + 3 ∧ a - a % 4 < base + 3 * p + 3 := by
  obtain ⟨w, hw, hlo, hhi⟩ := hbad
  rw [State.badWords, List.mem_map] at hw
  obtain ⟨⟨w', d⟩, hmem, rfl⟩ := hw
  rw [List.mem_filter] at hmem
  obtain ⟨hmark, hsel⟩ := hmem
  rw [State.advanceTo_ecc, hecc, List.append_nil] at hmark hsel
  split at hmark
  case isFalse => exact absurd hmark List.not_mem_nil
  case isTrue hmoves =>
    rw [if_pos hmoves] at hsel
    cases hupset : Config.upset s.drain.free with
    | none => rw [hupset] at hmark; exact absurd hmark List.not_mem_nil
    | some u =>
      obtain ⟨a, d'⟩ := u
      rw [hupset, upsetMarks, List.mem_singleton, Prod.mk.injEq] at hmark
      obtain ⟨rfl, rfl⟩ := hmark
      cases d with
      | true => exact ⟨_, a, hupset, hlo, hhi⟩
      | false => simp [hupset, upsetMarks, eccOf] at hsel

theorem State.startFrame_share (hsafe : SharesSurvive) (hbulk : s.bulkOk = true) (hecc : s.ecc = []) {late : List Nat}
    {p : Nat} (hp : p < s.lc[k].nsh) (hlate : p ∉ late) : (s.startFrame k late).shares.getD p 0 =
      s.shareAt (bulkBase + s.lc[k].nextBase) p := by
  have hgood : ¬ (s.atStart k).shareBad (bulkBase + s.lc[k].nextBase) s.lc[k].nsh p := fun hbad => by
    obtain ⟨j, a, hupset, hlo, hhi⟩ := State.upset_of_shareBad hecc hbad
    have hbase : s.lc[k].nextBase < 2 ^ 24 := fld_lt ..
    have hnsh := s.lc[k].nsh_le
    rcases hsafe j a hupset with h | h <;> simp only [bulkBase, bulkEnd] at h hlo hhi <;> omega
  have hslow : s.slowShare k late p = false := by simp [State.slowShare, s.atStart_bulkOk k, hbulk, hlate]
  refine (State.sharesOf_good hp hslow hgood).trans ?_
  rw [State.shareAt, State.shareAt, State.atStart_mem]

end

theorem fires_returnEnd {s : State} {k : Fin 8} {e : W32} {b : List W8} {x : Nat} {P : State → Prop}
    (h : P (s.lcReturn k e b x)) : fires (.returnStream k false e b x) s P := ⟨_, rfl, h⟩

/-- All that O32 says of frames and returns, where no share is lost to an upset: a frame start by
`State.lcFrameStart_lc`, a return by `State.lcReturn_collects` and what `lcCollect` makes of it. -/
theorem chainFrames_of_sharesSurvive (hsafe : SharesSurvive) : Obligations.ChainFramesGoOutAndReturnsComeIn := by
  unfold Obligations.ChainFramesGoOutAndReturnsComeIn
  refine ⟨?_, ?_, ?_, ?_, ?_, ?_, ?_, ?_, ?_, ?_, ?_, ?_, ?_, ?_, ?_, ?_, ?_⟩
  · intro s k late hup hrun hst hwait hgoes hbulk
    obtain ⟨v, hlc⟩ := State.lcFrameStart_lc (late := late) hup hst hwait hgoes
    obtain ⟨hat, hothers⟩ := changed_at hlc
    have hnow : (s.lcFrameStart k late).now = (s.atStart k).now := State.lcFrameStart_now hup hst hwait hgoes
    refine ⟨_, rfl, hnow.trans (State.advanceTo_now_max s _ hrun), ?_⟩
    refine ⟨congrArg Lc.st hat, congrArg Lc.txSeq hat, congrArg Lc.outAct hat, congrArg Lc.swapPend hat, ?_,
      congrArg Lc.waitM hat, fun hlate => ?_, ?_, ?_, (s.lcFrameStart_touch k late).same .mem (by decide), hothers,
      s.lcFrameStart_touch k late⟩
    · rw [hat]; exact List.length_append
    · obtain ⟨p, hmem, hp⟩ := List.any_eq_true.mp hlate
      exact State.lcFrameStart_underrun hup hst hwait hgoes (of_decide_eq_true hp) (by simp [State.slowShare, hmem])
    · rw [hnow, hat]; rfl
    · refine ⟨s.startFrame k late, congrArg Lc.out hat, rfl, rfl, rfl, rfl, hnow.symm, rfl, ?_, State.sharesOf_length,
        ?_, fun p hp => ?_, fun hecc p hp hlate => ?_⟩
      · rw [hnow, hat]; rfl
      · exact Lc.nextBase_eq (congrArg Lc.outAct hat)
      · exact State.sharesOf_late (by simp [State.slowShare, hp])
      · rw [State.startFrame_share hsafe hbulk hecc hp hlate, State.shareAt_bytes]
        rfl
  · intro s k late hup hrun hst hwait hgoes hbulk
    obtain ⟨v, hlc⟩ := State.lcFrameStart_lc (late := late) hup hst hwait hgoes
    obtain ⟨hat, hothers⟩ := changed_at hlc
    have hslow (p : Nat) : s.slowShare k late p = true := by simp [State.slowShare, s.atStart_bulkOk k, hbulk]
    exact ⟨_, rfl, congrArg Lc.st hat,
      fun hne => State.lcFrameStart_underrun hup hst hwait hgoes (Nat.pos_of_ne_zero hne) (hslow 0),
      ⟨s.startFrame k late, congrArg Lc.out hat, rfl, rfl, fun p => State.sharesOf_late (hslow p)⟩,
      (s.lcFrameStart_touch k late).same .mem (by decide), hothers, s.lcFrameStart_touch k late⟩
  · intro s k late h
    refine ⟨_, rfl, if_neg ?_⟩
    simp only [Bool.and_eq_true, beq_iff_eq, Bool.not_eq_true', not_and]
    grind
  · intro f p j n hp hj hn
    have hbit := f.bitAt_share p hj
    refine ⟨f.bitAt_header (by omega), hbit, ?_, ?_⟩
    · rw [f.lineAt_bit _ hn, hbit, decide_eq_true (by omega), Bool.true_and]
    · rw [f.lineAt_bit _ hn, decide_eq_false (by omega), Bool.false_and]
  · intro s k hup hrun hst
    obtain ⟨hlc, hnow⟩ := State.lcFrameEnd_acts hup hst
    obtain ⟨hat, hothers⟩ := changed_at hlc
    obtain ⟨hend, hout, hst'⟩ := s.lc[k].frameEnded_keeps (s.advanceTo s.lc[k].frameEnd).now
    rw [← hat] at hend hout hst'
    exact ⟨_, rfl, hnow.trans (State.advanceTo_now_max s _ hrun), hend.trans (congrArg some hnow.symm), hst', hout,
      hothers, s.lcFrameEnd_touch k⟩
  · intro s k e b x hup
    have hrow : s.lcReturnBegin k = _ := if_pos hup
    obtain ⟨hat, hothers⟩ := changed_at ((congrArg State.lc hrow).trans (State.modLc_lc ..))
    exact ⟨_, rfl, hat, hothers, (s.lcReturnBegin_touch k).mono (by decide)⟩
  · intro s k e b x hup hrx
    have hrow : s.lcReturn k e b x = _ := State.lcReturn_stray hup hrx
    have hlc := congrArg State.lc hrow
    rw [State.lcStray_lc, State.modLc_lc, upd_upd] at hlc
    obtain ⟨hat, hothers⟩ := changed_at hlc
    refine fires_returnEnd ⟨hat, ?_, hothers, s.lcReturn_touch k e b x⟩
    rw [hrow]
    exact (State.lcStray_touch ..).same .mem (by decide)
  · intro s k e b x hup hrx
    have hrow : s.lcReturn k e b x = _ := State.lcReturn_dropped hup hrx
    obtain ⟨hat, hothers⟩ := changed_at ((congrArg State.lc hrow).trans (State.modLc_lc ..))
    exact fires_returnEnd ⟨hat, (congrArg State.mem hrow :), hothers, s.lcReturn_touch k e b x⟩
  · intro s k e b x f r hbulk hup hout hrx hcut
    obtain ⟨hat, hothers⟩ := changed_at (State.lcReturn_aborted (e := e) (b := b) (x := x) hbulk hup hout hrx hcut)
    refine fires_returnEnd ⟨hat, ?_, hothers, s.lcReturn_touch k e b x⟩
    rw [State.lcReturn_mine hbulk hup hout hrx, if_pos hcut]
    exact ((s.returned k r).lcRetErr_touch k 13 4).same .mem (by decide)
  · intro s k e b x f r hbulk hup hout hrx hwhole hecho
    have hok := LcFrame.echoOk_false hecho
    have hrow := (State.lcReturn_collects (e := e) (b := b) (x := x) hbulk hup hout hrx hwhole).trans
      (State.lcCollect_wrongEcho hok)
    obtain ⟨v, hchecked, hbit⟩ := (s.returned k r).statusesChecked_lc k f e []
    have hlc := congrArg State.lc hrow
    rw [State.lcRetDone_lc, hchecked, State.returned_lc, upd_upd, upd_upd] at hlc
    obtain ⟨hat, hothers⟩ := changed_at hlc
    refine fires_returnEnd ⟨?_, congrArg Lc.out hat, congrArg Lc.retHdr hat, congrArg Lc.retNodes hat,
      congrArg Lc.perrCount hat, congrArg Lc.npCount hat, congrArg Lc.retSeq hat, congrArg Lc.cntOther hat, ?_, hothers,
      s.lcReturn_touch k e b x⟩
    · refine (congrArg (fun c => bit (Lc.err c) 1) hat).trans ?_
      exact (bit_or ..).trans (Bool.or_eq_true_iff.mpr (.inr (hbit hok)))
    · refine (congrArg State.mem hrow).trans ?_
      rw [State.lcRetDone_mem, ((State.statusesChecked_touch ..).same .mem (by decide) : _ = State.mem _), hok]
      exact ((s.returned k r).lcRetErr_touch k 1 1).same .mem (by decide)
  · intro s k e b f r hcan hecc hbulk hup hout hrx hwhole hshare hecho hcmd hcmp hlen
    have hok := LcFrame.echoOk_status hecho hcmd hshare
    obtain ⟨errs, hcollect⟩ := State.lcCollect_statuses (s := s.returned k r) (k := k) hok hshare hlen
      (by rwa [State.returned_at])
    have hrow := (State.lcReturn_collects (e := e) (b := b) (x := 0) hbulk hup hout hrx hwhole).trans hcollect
    obtain ⟨v, hchecked, -⟩ := (s.returned k r).statusesChecked_lc k f e b
    have hlc := congrArg State.lc hrow
    rw [State.lcRetDone_lc, hchecked, State.returned_lc, upd_upd, upd_upd] at hlc
    obtain ⟨hat, hothers⟩ := changed_at hlc
    have htime : ((s.returned k r).statusesChecked k f e b).count = s.count :=
      congrArg (fun m : Tmb => m.now % 2 ^ 48) ((s.returned k r).statusesChecked_tmb k f e b)
    have hmem := congrArg State.mem hrow
    rw [State.lcRetDone_mem, ((State.statusesChecked_touch ..).same .mem (by decide) : _ = State.mem _), hok,
      State.statusesStored, if_pos rfl, State.returned_at] at hmem
    obtain ⟨hin, hleft⟩ := State.storeStream_bytes (s := s.returned k r) hecc hcan.1 5
      (bulkBase + fld (s.lc[k].retBase[f.m % 2]'(by omega)) 0 24) b
    refine fires_returnEnd ⟨congrArg Lc.out hat, congrArg Lc.rx hat, congrArg Lc.retHdr hat, congrArg Lc.retNodes hat,
      congrArg Lc.retSeq hat, (congrArg Lc.retTime hat).trans htime, ?_, ?_, (congrArg Lc.st hat :), hothers,
      s.lcReturn_touch k e b 0⟩
    · rw [hmem]; exact hin
    · rw [hmem]; exact hleft
  · intro s k f r hup hrun hout hrx
    obtain ⟨hlc, hnow⟩ := State.lcEchoTimeout_acts hup hout hrx
    obtain ⟨hat, hothers⟩ := changed_at hlc
    refine ⟨_, rfl, hnow.trans (State.advanceTo_now_max s _ hrun), congrArg Lc.out hat, congrArg Lc.cntBreaks hat, ?_,
      hothers, s.lcEchoTimeout_touch k⟩
    refine (congrArg (fun c => bit (Lc.err c) 0) hat).trans ?_
    exact (bit_or ..).trans (Bool.or_eq_true_iff.mpr (.inr (by decide)))
  · exact fun s k h => ⟨_, rfl, State.lcEchoTimeout_idle h⟩
  · intro s k x hup hret hsoon
    have hlc := (congrArg State.lc (State.lcGlitch_acts hup hret hsoon)).trans
      ((State.lcRetErr_lc ..).trans (State.lcErr_lc ..))
    obtain ⟨hat, hothers⟩ := changed_at hlc
    exact ⟨_, rfl, hat, hothers, s.lcGlitch_touch k⟩
  · exact fun s k x hret hlate => ⟨_, rfl, State.lcGlitch_late hret hlate⟩
  · exact fun s k h => ⟨_, rfl, State.lcFrameEnd_idle h⟩
  · intro s k start e b x hup
    cases start
    · exact fires_returnEnd (State.lcReturn_down hup)
    · exact ⟨_, rfl, State.lcReturnBegin_down hup⟩

/-! ### A share lost -/

/-- Chain 0 waits to start a DATA frame of 131,072 shares from `base` a microsecond later, the first byte of share `p` is
1, and the next free value is number `j`. -/
def State.sharesAtRisk (j base p : Nat) : State :=
  { State.reset with
    free := j, up := Vector.replicate 72 true, pwr := { State.reset.pwr with phase := .run, bulkRdy := true }
    mem := memSet [] (bulkBase + base + 3 * p) 1, ecc := []
    lc := Vector.replicate 8 { Lc.init 0 with
      st := .pending, frame := 0x20000001, nextAt := 1, outBase := Vector.replicate 2 (BitVec.ofNat 32 base) } }

section
variable (j base p : Nat)

theorem State.sharesAtRisk_drain : (State.sharesAtRisk j base p).drain = State.sharesAtRisk j base p := by
  have hquiet : (List.range 72).filter (fun i => (State.sharesAtRisk j base p).waits i) = [] :=
    List.filter_eq_nil_iff.mpr fun i hi => by
      have hempty : ∀ i < 72, (!(vget State.reset.fab.out i OutBuf.init).recs.isEmpty) = false := by decide
      exact Bool.eq_false_iff.mp (hempty i (List.mem_range.mp hi))
  rw [State.drain, hquiet]
  rfl

theorem State.sharesAtRisk_ecc : ((State.sharesAtRisk j base p).atStart 0).ecc = upsetMarks (Config.upset j) := by
  rw [State.atStart, State.advanceTo_ecc, State.sharesAtRisk_drain]
  exact List.append_nil _

theorem State.sharesAtRisk_nsh : (State.sharesAtRisk j base p).lc[(0 : Fin 8)].nsh = 131072 := by
  have hframe : (State.sharesAtRisk j base p).lc[(0 : Fin 8)].frame = 0x20000001 := rfl
  have hfields : fld (0x20000001 : W32) 0 4 = 1 ∧ fld (0x20000001 : W32) 12 18 = 131072 := by decide
  rw [Lc.nsh, Lc.hcmd, hframe, hfields.1, hfields.2]
  exact (if_pos rfl).trans (Nat.min_self _)

theorem State.sharesAtRisk_nextBase (hbase : base < 2 ^ 24) :
    (State.sharesAtRisk j base p).lc[(0 : Fin 8)].nextBase = base := by
  have hw : (BitVec.ofNat 32 base).toNat = base := by rw [BitVec.toNat_ofNat]; omega
  exact (congrArg (fun n => (n >>> 0) % 2 ^ 24) hw).trans (Nat.mod_eq_of_lt hbase)

end

/-- A frame that starts as an upset of two bits meets share `p` sends that share as zero. -/
theorem State.sharesAtRisk_lost {j base p a : Nat} (hbase : base < 2 ^ 24) (hp : p < 131072)
    (hupset : Config.upset j = some (a, true)) (hlo : bulkBase + base + 3 * p ≤ a - a % 4 + 3)
    (hhi : a - a % 4 < bulkBase + base + 3 * p + 3) :
    ((State.sharesAtRisk j base p).startFrame 0 []).shares.getD p 0 = 0 := by
  have hnext := State.sharesAtRisk_nextBase j base p hbase
  have hnsh := State.sharesAtRisk_nsh j base p
  refine State.sharesOf_bad (hnsh ▸ hp) ⟨a - a % 4, ?_, by rw [hnext]; exact ⟨hlo, hhi⟩⟩
  rw [hnext, hnsh, State.badWords, State.sharesAtRisk_ecc, hupset]
  refine List.mem_map.mpr ⟨(a - a % 4, true), List.mem_filter.mpr ⟨List.mem_singleton_self _, ?_⟩, rfl⟩
  have hrange : bulkBase + base ≤ a - a % 4 + 3 ∧ a - a % 4 < bulkBase + base + 3 * 131072 := by omega
  simp only [upsetMarks, eccOf, List.any_cons, decide_true, Bool.and_self, Bool.true_or, if_true, hrange]

/-- O32 holds exactly where no share is lost to an upset: its first clause reads the shares of a frame that starts later
from memory as it was, while the upsets that come meanwhile are free values (log entry 7). -/
theorem chainFrames_iff_sharesSurvive : Obligations.ChainFramesGoOutAndReturnsComeIn ↔ SharesSurvive := by
  refine ⟨fun h j a hupset => ?_, chainFrames_of_sharesSurvive⟩
  obtain ⟨hstart, -⟩ := h
  by_contra hin
  obtain ⟨base, p, hbase, hp, hlo, hhi⟩ : ∃ base p, base < 2 ^ 24 ∧ p < 131072 ∧
      bulkBase + base + 3 * p ≤ a - a % 4 + 3 ∧ a - a % 4 < bulkBase + base + 3 * p + 3 := by
    refine ⟨min (a - a % 4 - bulkBase) 0xFFFFFF, (a - a % 4 - bulkBase - 0xFFFFFF) / 3, ?_⟩
    simp only [bulkBase, bulkEnd] at hin ⊢
    omega
  obtain ⟨t, ht, -, -, -, -, -, -, -, -, -, hframe, -⟩ :=
    hstart (State.sharesAtRisk j base p) 0 [] rfl rfl rfl rfl rfl rfl
  obtain ⟨f, hout, -, -, -, -, -, -, -, -, hbase', -, hshares⟩ := hframe
  obtain rfl : (State.sharesAtRisk j base p).lcFrameStart 0 [] = t := Host.Outcome.next.inj ht
  have hnext := State.sharesAtRisk_nextBase j base p hbase
  obtain ⟨v, hlc⟩ := State.lcFrameStart_lc (s := State.sharesAtRisk j base p) (k := 0) (late := []) rfl rfl rfl rfl
  obtain rfl : (State.sharesAtRisk j base p).startFrame 0 [] = f :=
    List.singleton_inj.mp ((congrArg Lc.out (changed_at hlc).1).symm.trans hout)
  have hlost := State.sharesAtRisk_lost hbase hp hupset hlo hhi
  have hstored := hshares rfl p (by rw [State.sharesAtRisk_nsh]; exact hp) List.not_mem_nil
  have hone : memGet (State.sharesAtRisk j base p).mem (bulkBase + base + 3 * p) = 1 :=
    (memGet_memSet _ _ _ rfl).trans (if_pos rfl)
  rw [hlost, show ((State.sharesAtRisk j base p).startFrame 0 []).base = base from hnext, hone] at hstored
  have : (1 : W8).toNat = 1 := rfl
  omega

end Sys2Proof.Machine
